-- ==== Sys2Proof/Word.lean ====
section
/-!
DEFINITION. Sys2Proof/Word.lean: the word types and their plainest arithmetic.
-/
namespace Sys2Proof

/-- A 32-bit register or record word (R11, R99: words are 32 bits, little-endian in memory). -/
abbrev Word := BitVec 32

/-- One byte of a memory. -/
abbrev Byte := BitVec 8

/-- A line-time stamp or any other 64-bit count, kept below 2^64. -/
abbrev Stamp := Nat

end Sys2Proof
end

