-- ==== Sys2Proof/Syntax.lean ====
section
/-!
DEFINITION. Sys2Proof/Syntax.lean: the commands of the block, one constructor of Instr for each row of
spec/opcode_table.json, with the operands the spec's text gives the row's command: which instance it names, and what
comes in from outside with it (a written word, a received message, a finished transfer's bytes).
-/
namespace Sys2Proof

/-- R137: who makes a bus access: the host, or management core `k` of die `die`. -/
inductive Req where
  | host
  | core (die : Fin 8) (k : Fin 4)
  deriving DecidableEq, Repr

/-- What one reference period measures (R60): the frequency offset in 0.01 ppb, the time since the reference's last
alignment point in 2^-16 ns, how far the edge, frame start or sample lies from its predicted position in 2^-16 ns, whether
the edge is an alignment point's (of refs 4 and 5, whether the 1PPS edge came in this period), whether the pulse was
malformed, and of ref 11 the time since tick 0 of each of the peer's timelines in 2^-16 ns (R58). -/
structure RefMeas where
  freq : Int
  phase : Int
  dev : Int
  edge : Bool
  malformed : Bool
  peer : List Int
  deriving DecidableEq, Repr

/-- A Sync or Follow_Up message (R73): the MAC it came in at, the port identity of its sender, origin time in seconds and ns, correction in ns. -/
structure SyncMsg where
  mac : Fin 96
  domain : Nat
  sender : Nat
  seq : Nat
  twoStep : Bool
  logInterval : Int
  sec : Nat
  ns : Nat
  corr : Int
  deriving DecidableEq, Repr

/-- An Announce message (R73): the port identity of its sender, the data set the default BMCA compares, the UTC fields, and the bytes of an ST 2059-2
synchronisation metadata TLV that came with it. -/
structure AnnounceMsg where
  mac : Fin 96
  domain : Nat
  sender : Nat
  logInterval : Int
  prio1 : Nat
  clockClass : Nat
  accuracy : Nat
  variance : Nat
  prio2 : Nat
  gmid : Nat
  steps : Nat
  utcOffset : Nat
  utcValid : Bool
  tlv : List Byte
  deriving DecidableEq, Repr

/-- A Delay_Resp message (R73): the port identity of its sender, whether it answers a Delay_Req of this instance's own port, the
master's receive time, correction, and the Delay_Req interval it gives. -/
structure DelayRespMsg where
  mac : Fin 96
  domain : Nat
  sender : Nat
  mine : Bool
  seq : Nat
  logInterval : Int
  sec : Nat
  ns : Nat
  corr : Int
  deriving DecidableEq, Repr

/-- A PTP message in a UDP packet to port 319 or 320 (R78). -/
inductive PtpMsg where
  | sync (m : SyncMsg)
  | followUp (m : SyncMsg)
  | announce (m : AnnounceMsg)
  | delayResp (m : DelayRespMsg)
  deriving DecidableEq, Repr

/-- A piece of work that can fault, park or reach a safe point: the work of a descriptor (ring and index), a task
of a die's table, a ring's descriptor or doorbell fetch, an OUT ring's record writer. -/
inductive Work where
  | desc (r : Fin 4096) (idx : Word)
  | task (d : Fin 8) (t : Fin 65536)
  | fetch (r : Fin 4096)
  | out (r : Fin 4096)
  | rec_ (r : Fin 4096)
  deriving DecidableEq, Repr

/-- R121: a progress watermark and its retry cursor. -/
structure Wm where
  rows : Nat
  bytes : Nat
  lastOff : Nat
  retry : Nat
  deriving DecidableEq, Repr

/-- R118: the code of a page response. -/
inductive PrCode where
  | success | invalid | failure
  deriving DecidableEq, Repr

/-- One audio sample of a slot or channel: 24 bits, and the side byte of R343 (V, U, C, Z, PERR from bit 0 up). -/
structure AudSamp where
  val : Nat
  side : Nat
  deriving DecidableEq, Repr

/-- What comes in with an audio sample position (R339): the slots on a line-time port's lines (none: no source value; of a PDM line the 64
bits of each microphone since the position before), the bytes an output stream fetches and their side bytes, and whether its access to memory faults. -/
structure AudIn where
  line : Option (List AudSamp)
  data : List Byte
  side : List Byte
  fault : Bool
  deriving DecidableEq, Repr

/-- A sample row of a video packet (R177): line in the frame, first pixel, the samples of its pixels (of 4:2:2, Y' and then
Cb at an even and Cr at an odd pixel; else three components), and whether its sampling and depth are the declared ones. For
ST 2110-22, lines that the decode engine gives back with this packet. -/
structure IngRow where
  line : Nat
  off : Nat
  px : List (Nat × Nat × Nat)
  fits : Bool
  deriving DecidableEq, Repr

/-- An ANC packet (R184): whether it lies in the colour-difference stream, its line and horizontal offset, and its 10-bit
words: DID, SDID, DC, user data words, checksum. -/
structure AncPkt where
  c : Bool
  line : Nat
  hoff : Nat
  words : List Nat
  deriving DecidableEq, Repr

/-- An IPv4 packet at the classifier (R172 to R176): addresses, IPv4 bytes, RTP header fields, the number of the input
frame its timestamp names (on an input locked to line time, the channel frame's count), and its content. -/
structure IngPkt where
  mac : Fin 96
  dst : Nat
  udp : Nat
  bytes : Nat
  version : Nat
  pt : Nat
  ssrc : Nat
  seq : Nat
  ts : Nat
  frame : Nat
  rows : List IngRow
  audio : List (List AudSamp)
  anc : List AncPkt
  ptp : Option PtpMsg
  deriving DecidableEq, Repr

/-- What an ST 352 payload ID declares (R177). -/
structure SdiId where
  width : Nat
  height : Nat
  sampling : Nat
  depth : Nat
  interlace : Bool
  base : Nat
  drop : Bool
  color : Nat
  full : Bool
  deriving DecidableEq, Repr

/-- An SDI line of a channel (R177): its frame, the active line it holds if any with the samples of its pixels, the results of the CRC and TRS checks, the line
number it carries and the one its place calls for, the skew of its links in ns, its payload ID if it has one, its audio
groups' sample frames, and its ANC packets. -/
structure SdiLine where
  frame : Nat
  line : Option Nat
  px : List (Nat × Nat × Nat)
  crc : Bool
  trs : Bool
  num : Nat
  place : Nat
  skew : Nat
  id : Option SdiId
  audio : List (Fin 8 × List AudSamp)
  anc : List AncPkt
  deriving DecidableEq, Repr

/-- What the decode engine does not decode (R299): HEVC and AVC profiles and tools, levels above 6.1, and other JPEG XS profiles. -/
inductive DecTool where
  | rangeExt | scc | multilayer | threeD | mbaff | svc | mvc | fmo | aso | profile | level
  deriving DecidableEq, Repr

/-- An SPS as the decode engine checks it (R300): size, chroma_format_idc, bits of a sample, and the DPB it needs. -/
structure DecSps where
  w : Nat
  h : Nat
  chroma : Nat
  bits : Nat
  dpb : Nat
  deriving DecidableEq, Repr

/-- What the syntax of a coded picture says to the decode engine (R300 to R304): whether the engine only starts to decode it, or has
completed it; whether it is a random access point, carries an AVC recovery point SEI, reaches that recovery point, is a leading picture to
discard, or is malformed; the unsupported tools that it needs; an SPS it brings; its ORDER, and its picture order count; the ORDER of each
reference it names; references its rules drop or mark long-term; whether it is kept as a reference, and as long-term, and whether it is to
be output; the decode order numbers the output process then outputs; and the bytes of a cut-off access unit held after it. -/
structure DecPic where
  begins : Bool
  rap : Bool
  recSei : Bool
  recovered : Bool
  leading : Bool
  malformed : Bool
  tools : List DecTool
  sps : Option DecSps
  order : Word
  poc : Word
  refs : List Word
  drop : List Word
  toLong : List Word
  keep : Bool
  long : Bool
  shown : Bool
  output : List Word
  tail : Nat
  deriving DecidableEq, Repr

/-- A tile part of a coding row (R313): stream index, picture number, coding row, tile column, and its NAL units, OBUs or
slices, as bytes. -/
structure RowPart where
  pic : Nat
  row : Nat
  tile : Fin 4
  units : List (List Byte)
  deriving DecidableEq, Repr

/-- A witness message (R360) but for MAGIC, VERSION, TYPE and the zero bytes. -/
structure WitMsg where
  pair : Nat
  sender : Nat
  term : Nat
  seq : Nat
  lease : Nat
  arg : Nat
  stamp : Nat
  tag : Nat
  deriving DecidableEq, Repr

/-- A HEARTBEAT frame (R356, R59): for each pair its role, TERM and remaining lease in ms; for each timeline whether the
peer's is LIVE and locked to a reference other than its twin peer. -/
structure HbFrame where
  pairs : List (Nat × Nat × Nat)
  tls : List Bool
  deriving DecidableEq, Repr

/-- A CAPS frame (R368): unit id, and for each pair CFGCRC, SIDE_A, SIDE_B. -/
structure CapsFrame where
  unit : Nat
  pairs : List (Nat × Nat × Nat)
  deriving DecidableEq, Repr

/-- R58: the reference whose activity is missing; of refs 4 and 5, whether it is the 1PPS signal they share. -/
structure Missing where
  k : Fin 12
  pps : Bool
  deriving DecidableEq, Repr

/-- R111: an enable that the host gives with an amount: PRI with its allocation of page requests, PASID with its width. -/
structure Granted (n : Nat) where
  en : Bool
  amount : Fin n
  deriving DecidableEq, Repr

/-- R116, R121: what a piece of work has reached at a safe point: its watermark, and the bytes that the host link returned for an H2D
copy since the last one. -/
structure Reached where
  wm : Wm
  data : List Byte
  deriving DecidableEq, Repr

/-- R196: an image read that completes: the index of its descriptor, and the bytes of the image. -/
structure ImageRead where
  idx : Word
  data : List Byte
  deriving DecidableEq, Repr

/-- R368: a frame of the twin link, and whether it passed its CRC-32C. -/
structure Framed (α : Type) where
  ok : Bool
  body : α
  deriving DecidableEq, Repr

/-- The commands: one constructor per row of the opcode table. -/
inductive Instr where
  /-- TL_ENABLE (R38). -/
  | tlEnable (n : Fin 4) (freerun : Bool)
  /-- TL_DISABLE (R38). -/
  | tlDisable (n : Fin 4)
  /-- TL_FREERUN (R38). -/
  | tlFreerun (n : Fin 4)
  /-- LT_NOW_READ (R46). -/
  | ltNowRead (q : Req) (n : Fin 4)
  /-- LT_CAPTURE (R47). -/
  | ltCapture
  /-- CHANNEL_FRAME_START (R42). -/
  | channelFrameStart (c : Fin 96)
  /-- REF_SAMPLE (R60). -/
  | refSample (k : Fin 12) (m : RefMeas)
  /-- REF_WTR_EXPIRED (R62). -/
  | refWtrExpired (k : Fin 12)
  /-- REF_DWELL_EXPIRED (R60). -/
  | refDwellExpired (k : Fin 12)
  /-- REF_ACTIVITY_TIMEOUT (R60). -/
  | refActivityTimeout (m : Missing)
  /-- SEL_SLEW_DONE (R66). -/
  | selSlewDone (n : Fin 4)
  /-- SEL_FORCE (R67). -/
  | selForce (n : Fin 4) (v : Word)
  /-- SEL_BETTER_CLR (R67). -/
  | selBetterClr (n : Fin 4) (v : Word)
  /-- SEL_SLOPE_WRITE (R68). -/
  | selSlopeWrite (n : Fin 4) (v : Word)
  /-- SEL_STEP (R69). -/
  | selStep (n : Fin 4) (v : Word)
  /-- SEL_HIST_MINUTE (R70). -/
  | selHistMinute
  /-- PTP_SYNC (R73). -/
  | ptpSync (i : Fin 2) (m : SyncMsg)
  /-- PTP_FOLLOW_UP (R73). -/
  | ptpFollowUp (i : Fin 2) (m : SyncMsg)
  /-- PTP_ANNOUNCE (R73). -/
  | ptpAnnounce (i : Fin 2) (m : AnnounceMsg)
  /-- PTP_DELAY_RESP (R73). -/
  | ptpDelayResp (i : Fin 2) (m : DelayRespMsg)
  /-- PTP_DELAY_REQ_TIMER (R73). -/
  | ptpDelayReqTimer (i : Fin 2)
  /-- PTP_ANNOUNCE_TIMEOUT (R73). -/
  | ptpAnnounceTimeout (i : Fin 2)
  /-- PTP_SET_REQ (R76). -/
  | ptpSetReq (v : Word)
  /-- PTP_REARM (R76). -/
  | ptpRearm (v : Word)
  /-- PTP_SERVO_SELECT (R75). -/
  | ptpServoSelect (v : Word)
  /-- PTP_ADJ_WRITE (R75). -/
  | ptpAdjWrite (v : Word)
  /-- PTP_CLK_NS_READ (R79). -/
  | ptpClkNsRead (q : Req)
  /-- PPS_SECOND (R82). -/
  | ppsSecond
  /-- PPS_OUT_WRITE (R491). -/
  | ppsOutWrite (v : Word)
  /-- HIF_LINK_TRAINED (R85). -/
  | hifLinkTrained (cxl : Bool) (width : Fin 3) (rate : Fin 2) (flit256 cache mem ats : Bool) (pri : Granted 513)
      (pasid : Granted 21)
  /-- HDM_DECODER_COMMIT (R87). -/
  | hdmDecoderCommit
  /-- DB_SNOOP (R91). -/
  | dbSnoop (r : Fin 4096)
  /-- DB_HOLDOFF_EXPIRED (R91). -/
  | dbHoldoffExpired (r : Fin 4096)
  /-- DB_READ_RETURN (R91). -/
  | dbReadReturn (r : Fin 4096) (index dbgen : Word)
  /-- MMIO_DB_INDEX (R93). -/
  | mmioDbIndex (r : Fin 4096) (index : Word)
  /-- MMIO_DB_PRESENT (R93). -/
  | mmioDbPresent (r : Fin 4096) (dbgen : Word)
  /-- MMIO_DB_BOTH (R93). -/
  | mmioDbBoth (r : Fin 4096) (index dbgen : Word)
  /-- DESC_FETCH (R97). -/
  | descFetch (r : Fin 4096) (words : List Word)
  /-- DESC_POLL (R98). -/
  | descPoll (r : Fin 4096) (words : List Word)
  /-- GEN_STALL_TIMEOUT (R98). -/
  | genStallTimeout (r : Fin 4096)
  /-- NOP (R95). -/
  | nop (r : Fin 4096)
  /-- CAPSULE (R143). -/
  | capsule (r : Fin 4096)
  /-- DMA_H2D (R96). -/
  | dmaH2d (r : Fin 4096)
  /-- DMA_D2H (R96). -/
  | dmaD2h (r : Fin 4096)
  /-- DMA_COMPLETE (R121). -/
  | dmaComplete (r : Fin 4096) (idx : Word) (data : List Byte)
  /-- BATCH_TIMEOUT (R101). -/
  | batchTimeout (r : Fin 4096)
  /-- BATCH_FLUSH_TICK (R101). -/
  | batchFlushTick (n : Fin 4)
  /-- IRQ_GAP_EXPIRED (R106). -/
  | irqGapExpired (v : Fin 2048)
  /-- RING_ENABLE (R107). -/
  | ringEnable (r : Fin 4096)
  /-- RING_DISABLE (R107). -/
  | ringDisable (r : Fin 4096)
  /-- RING_DRAIN_DONE (R107). -/
  | ringDrainDone (r : Fin 4096)
  /-- RING_DRAIN_STALL (R107). -/
  | ringDrainStall (r : Fin 4096)
  /-- XLT_FAULT (R117). -/
  | xltFault (w : Work) (addr : Nat)
  /-- TASK_PARK (R117). -/
  | taskPark (w : Work) (at_ : Reached)
  /-- PARK_HOLD_EXPIRED (R117). -/
  | parkHoldExpired (w : Work)
  /-- PAGE_RESPONSE (R118). -/
  | pageResponse (prg : Fin 512) (code : PrCode)
  /-- PRI_TIMEOUT (R118). -/
  | priTimeout (w : Work)
  /-- PRI_STOPPED (R118). -/
  | priStopped
  /-- ACCESS_ERROR (R118). -/
  | accessError (w : Work)
  /-- ATS_INVALIDATION (R115). -/
  | atsInvalidation (pasid : Option (Fin 1048576)) (addr : Nat) (log2size : Nat)
  /-- ATS_INVAL_COMPLETE (R115). -/
  | atsInvalComplete (slow : Bool)
  /-- XLT_FLUSH (R115). -/
  | xltFlush
  /-- DESC_DEADLINE (R496). -/
  | descDeadline (r : Fin 4096) (idx : Word)
  /-- STG_OPEN (R138). -/
  | stgOpen (q : Req) (any : Bool) (set : Fin 8)
  /-- STG_COMMIT (R140). -/
  | stgCommit (q : Req) (set : Fin 8) (n : Fin 4)
  /-- STG_ABORT (R134). -/
  | stgAbort (q : Req) (set : Fin 8)
  /-- STG_WSEL_WRITE (R137). -/
  | stgWselWrite (q : Req) (v : Word)
  /-- STAGED_WRITE (R135). -/
  | stagedWrite (q : Req) (addr : Nat) (v : Word)
  /-- DIRECT_WRITE (R139). -/
  | directWrite (q : Req) (addr : Nat) (v : Word)
  /-- COMMIT_APPLY (R134). -/
  | commitApply (set : Fin 8)
  /-- CAPSULE_START (R148). -/
  | capsuleStart (r : Fin 4096)
  /-- CAPSULE_READ_COMPLETE (R146). -/
  | capsuleReadComplete (r : Fin 4096) (idx : Word) (image : List Word)
  /-- CAPSULE_HOLD_EXPIRED (R148). -/
  | capsuleHoldExpired (r : Fin 4096)
  /-- TASK_SUBMIT (R166). -/
  | taskSubmit (r : Fin 4096)
  /-- TASK_CANCEL (R167). -/
  | taskCancel (r : Fin 4096)
  /-- TASK_WAKE (R159). -/
  | taskWake (d : Fin 8) (l : Fin 5)
  /-- TASK_START (R157). -/
  | taskStart (d : Fin 8) (k : Fin 256)
  /-- TASK_END (R157). -/
  | taskEnd (d : Fin 8) (k : Fin 256) (outcome : Fin 3) (reason : Fin 65536) (wm : Wm)
  /-- TASK_SAFE_POINT (R124). -/
  | taskSafePoint (w : Work) (at_ : Reached)
  /-- SCH_CONS_TAKE (R162). -/
  | schConsTake (d : Fin 8) (k : Fin 256)
  /-- SCH_CONS_END (R168). -/
  | schConsEnd (d : Fin 8) (k : Fin 256) (v : Word)
  /-- SCH_CONS_WM3 (R162). -/
  | schConsWm3 (d : Fin 8) (k : Fin 256) (v : Word)
  /-- SCH_QUEUE_REVOKE (R164). -/
  | schQueueRevoke (d : Fin 8) (q : Fin 32768)
  /-- SCH_USEC_READ (R490). -/
  | schUsecRead (d : Fin 8)
  /-- TASK_DEADLINE (R164). -/
  | taskDeadline (d : Fin 8) (t : Fin 65536)
  /-- ING_PACKET (R176). -/
  | ingPacket (x : IngPkt)
  /-- SDI_LINE (R177). -/
  | sdiLine (c : Fin 96) (x : SdiLine)
  /-- FLOW_ADD (R174). -/
  | flowAdd
  /-- FLOW_REPLACE (R174). -/
  | flowReplace
  /-- FLOW_DELETE (R174). -/
  | flowDelete (i : Fin 65536)
  /-- FLOW_READ (R174). -/
  | flowRead (i : Fin 65536)
  /-- LINE_COMPLETE (R178). -/
  | lineComplete (c : Fin 96)
  /-- ING_LOSS_TIMEOUT (R179). -/
  | ingLossTimeout (c : Fin 96)
  /-- LAYER_SRC (R195). -/
  | layerSrc (r : Fin 4096)
  /-- LAYER_IMAGE_READY (R196). -/
  | layerImageReady (r : Fin 4096) (x : ImageRead)
  /-- LAYER_WAIT_EXPIRED (R200). -/
  | layerWaitExpired (d : Fin 8) (k : Fin 16) (l : Fin 16)
  /-- BAND_WRITTEN (R189). -/
  | bandWritten (d : Fin 8) (k : Fin 16) (band : Nat)
  /-- FLATTEN_REBUILD_DONE (R211). -/
  | flattenRebuildDone (d : Fin 8) (k : Fin 16) (l : Fin 16)
  /-- CMP_COEF_ACCESS (R493). -/
  | cmpCoefAccess (d : Fin 8) (v : Option Word)
  /-- LUT_DATA0_WRITE (R209). -/
  | lutData0Write (d : Fin 8) (k : Fin 4) (v : Word)
  /-- LUT_DATA1_WRITE (R209). -/
  | lutData1Write (d : Fin 8) (k : Fin 4) (v : Word)
  /-- LUT_CRC_DONE (R209). -/
  | lutCrcDone (d : Fin 8) (k : Fin 4) (b : Fin 2)
  /-- ENC_REFRESH_REQ (R225). -/
  | encRefreshReq (d : Fin 8) (i : Fin 128) (v : Word)
  /-- ROW_ARRIVAL (R313). -/
  | rowArrival (d : Fin 8) (i : Fin 128) (x : RowPart)
  /-- ROW_HANDOVER (R49). -/
  | rowHandover (d : Fin 8) (i : Fin 128)
  /-- MOTION_AREA_COARSE (R247). -/
  | motionAreaCoarse (d : Fin 8) (i : Fin 128) (ax : Fin 128) (ay : Fin 128) (pic : Nat)
  /-- MOTION_BLOCK_DONE (R251). -/
  | motionBlockDone (d : Fin 8) (i : Fin 128) (bx : Fin 512) (by_ : Fin 512) (tile : Fin 4) (pic : Nat)
  /-- MOTION_HINT (R257). -/
  | motionHint (r : Fin 4096)
  /-- UNIT_CODED (R280). -/
  | unitCoded (d : Fin 8) (i : Fin 128) (j : Fin 4) (bits : Nat) (floorBits : Nat)
  /-- EOBJ_REVOKE (R295). -/
  | eobjRevoke (d : Fin 8) (v : Word)
  /-- REVOKE_QUIESCED (R298). -/
  | revokeQuiesced (d : Fin 8) (key : Nat)
  /-- DEC_INPUT (R301). -/
  | decInput (r : Fin 4096)
  /-- DEC_PICTURE_DONE (R300). -/
  | decPictureDone (d : Fin 8) (i : Fin 128) (x : DecPic)
  /-- DEC_SHOW_REACHED (R302). -/
  | decShowReached (d : Fin 8) (i : Fin 128)
  /-- WHEEL_SLOT (R315). -/
  | wheelSlot
  /-- PORT_FRAME_DONE (R317). -/
  | portFrameDone (p : Fin 96)
  /-- SHAPER_REFILL (R318). -/
  | shaperRefill (q : Fin 768)
  /-- SHAPER_WRITE (R318). -/
  | shaperWrite (q : Fin 768) (v : Word)
  /-- GATE_INTERVAL_END (R319). -/
  | gateIntervalEnd (p : Fin 96)
  /-- GATE_CHANGE (R321). -/
  | gateChange (p : Fin 96) (en : Bool)
  /-- GATE_CHANGE_TIME (R321). -/
  | gateChangeTime (p : Fin 96)
  /-- GATE_EN_WRITE (R322). -/
  | gateEnWrite (p : Fin 96) (en : Bool)
  /-- QUEUE_SAMPLE (R323). -/
  | queueSample
  /-- WHL_HIST_CLR (R323). -/
  | whlHistClr
  /-- TS_PSI_TIMER (R312). -/
  | tsPsiTimer (f : Fin 2048)
  /-- TS_PCR_TIMER (R312). -/
  | tsPcrTimer (f : Fin 2048)
  /-- AUDIO_SAMPLE (R339). -/
  | audioSample (a : Fin 256) (x : AudIn)
  /-- AUDIO_PORT_FRAME (R345). -/
  | audioPortFrame (p : Fin 16) (out : Bool) (frame : List AudSamp) (ppm : Int)
  /-- AUD_HOST_WRITE (R344). -/
  | audHostWrite (a : Fin 256) (v : Word)
  /-- AUD_M0_READ (R338). -/
  | audM0Read (a : Fin 256)
  /-- PAIR_HB (R355). -/
  | pairHb (q : Req) (n : Fin 32) (v : Word)
  /-- PAIR_HB_TIMEOUT (R355). -/
  | pairHbTimeout (n : Fin 32) (sd : Fin 2)
  /-- PAIR_SUSPECT_DECIDE (R355). -/
  | pairSuspectDecide (n : Fin 32) (sd : Fin 2)
  /-- TWIN_HB_SEND (R356). -/
  | twinHbSend
  /-- TWIN_HEARTBEAT (R356). -/
  | twinHeartbeat (x : Framed HbFrame)
  /-- TWIN_HB_MISS (R356). -/
  | twinHbMiss
  /-- LEASE_RENEW_TIMER (R357). -/
  | leaseRenewTimer (n : Fin 32)
  /-- LEASE_EXPIRED (R357). -/
  | leaseExpired (n : Fin 32)
  /-- WITNESS_LEASE_EXPIRED (R357). -/
  | witnessLeaseExpired (id : Fin 65536)
  /-- WIT_RENEW (R360). -/
  | witRenew (m : WitMsg)
  /-- WIT_GRANT (R357). -/
  | witGrant (m : WitMsg)
  /-- WIT_SUSPECT (R358). -/
  | witSuspect (m : WitMsg)
  /-- WIT_PROBE (R360). -/
  | witProbe (m : WitMsg)
  /-- WIT_PROBE_ACK (R358). -/
  | witProbeAck (m : WitMsg)
  /-- WIT_PROBE_TIMEOUT (R358). -/
  | witProbeTimeout (id : Fin 65536)
  /-- WIT_FENCE (R354). -/
  | witFence (m : WitMsg)
  /-- WIT_FENCE_ACK (R358). -/
  | witFenceAck (m : WitMsg)
  /-- WIT_VERDICT (R358). -/
  | witVerdict (m : WitMsg)
  /-- WIT_YIELD (R358). -/
  | witYield (m : WitMsg)
  /-- TWIN_CAPS (R368). -/
  | twinCaps (x : Framed CapsFrame)
  /-- TWIN_CURSOR (R364). -/
  | twinCursor (words : Framed (List Word))
  /-- TWIN_FLOW (R364). -/
  | twinFlow (words : Framed (List Word))
  /-- TWIN_TEMPLATE (R368). -/
  | twinTemplate (sid : Fin 768) (block : Framed (List Byte))
  /-- TWIN_RELAY (R357). -/
  | twinRelay (typ : Nat) (m : Framed WitMsg)
  /-- TWIN_MIRROR (R369). -/
  | twinMirror (k : Fin 16) (damaged : Bool) (x : Framed SdiLine)
  /-- TWIN_MBOX_HOSTIDX_WRITE (R361). -/
  | twinMboxHostidxWrite (index : Word) (msgs : List (Nat × WitMsg))
  /-- PAIR_SWITCH (R370). -/
  | pairSwitch (n : Fin 32) (tl : Fin 4) (back : Bool)
  /-- PAIR_DRILL (R371). -/
  | pairDrill (n : Fin 32) (tl : Fin 4) (back : Bool)
  /-- PAIR_REJOIN (R370). -/
  | pairRejoin (n : Fin 32)
  /-- PAIR_ABORT (R371). -/
  | pairAbort (n : Fin 32)
  /-- PAIR_SWITCH_STAMP (R370). -/
  | pairSwitchStamp (n : Fin 32)
  /-- DRILL_WINDOW_END (R371). -/
  | drillWindowEnd (n : Fin 32)
  /-- REF_HOLD_EXPIRED (R444). -/
  | refHoldExpired (n : Fin 32) (sd : Fin 2)
  /-- HBM_EN (R386). -/
  | hbmEn (d : Fin 8) (en : Bool)
  /-- HBM_REFRESH_START (R381). -/
  | hbmRefreshStart (d : Fin 8)
  /-- HBM_MAP_LOCK (R379). -/
  | hbmMapLock (d : Fin 8)
  /-- HBM_HOT_FORCE (R382). -/
  | hbmHotForce (d : Fin 8) (on : Bool)
  /-- HBM_REFRESH_TICK (R381). -/
  | hbmRefreshTick (d : Fin 8)
  /-- HBM_TEMP_READ (R382). -/
  | hbmTempRead (d : Fin 8) (t : Fin 256)
  /-- HBM_TEMP_TIMEOUT (R382). -/
  | hbmTempTimeout (d : Fin 8)
  /-- HBM_RH_WINDOW (R383). -/
  | hbmRhWindow (d : Fin 8)
  /-- HBM_READ_DONE (R380, R385); `hit`: the next request in the bank's queue is for the same row. -/
  | hbmReadDone (d : Fin 8) (master : Fin 16) (off : Nat) (hit : Bool) (sev : Fin 3)
  /-- HBM_PHY_LOCK_LOSS (R386). -/
  | hbmPhyLockLoss (d : Fin 8)
  /-- HBM_TRAIN_WRITE (R387). -/
  | hbmTrainWrite (d : Fin 8) (pc : Fin 32) (all : Bool) (pattern : Fin 8) (row : Fin 32768) (len : Fin 64)
  /-- HBM_TRAIN_READ (R387). -/
  | hbmTrainRead (d : Fin 8) (pc : Fin 32) (all : Bool) (pattern : Fin 8) (row : Fin 32768) (len : Fin 64)
  /-- HBM_TRAIN_LOOP (R387). -/
  | hbmTrainLoop (d : Fin 8) (pc : Fin 32) (all : Bool) (pattern : Fin 8) (row : Fin 32768) (len : Fin 64)
  /-- HBM_TRAIN_STOP (R387). -/
  | hbmTrainStop (d : Fin 8)
  /-- HBM_TRAIN_DONE (R387). -/
  | hbmTrainDone (d : Fin 8) (errs : List (Fin 32 × Fin 40)) (bits : Nat)
  /-- HBM_1500_GO (R382). -/
  | hbm1500Go (d : Fin 8) (v : Word)
  /-- HBM_1500_DONE (R382). -/
  | hbm1500Done (d : Fin 8) (data : List Word)
  /-- LANE_DORMANT_SET (R397). -/
  | laneDormantSet (n : Fin 100)
  /-- LANE_DORMANT_CLEAR (R397). -/
  | laneDormantClear (n : Fin 100)
  /-- LANE_DORMANT_EXIT_DONE (R397). -/
  | laneDormantExitDone (n : Fin 100)
  /-- LANE_RESTART (R394). -/
  | laneRestart (n : Fin 100)
  /-- LANE_TEST_SET (R398). -/
  | laneTestSet (n : Fin 100)
  /-- LANE_TEST_CLEAR (R394). -/
  | laneTestClear (n : Fin 100)
  /-- LANE_SNAP (R399). -/
  | laneSnap (n : Fin 100) (bits errs : Nat)
  /-- LANE_INJECT (R400). -/
  | laneInject (n : Fin 108) (v : Word)
  /-- LANE_DETECT_PROBE (R395). -/
  | laneDetectProbe (n : Fin 100) (present : Bool)
  /-- LANE_STAGE_DONE (R394). -/
  | laneStageDone (n : Fin 100) (eq : Word) (same : Bool) (unit : Nat)
  /-- LANE_STAGE_TIMEOUT (R394). -/
  | laneStageTimeout (n : Fin 100)
  /-- LANE_LOCK_LOST (R394). -/
  | laneLockLost (n : Fin 100)
  /-- UCIE_LINK_DOWN (R29). -/
  | ucieLinkDown (k : Fin 8)
  /-- UCIE_RETRAIN_DONE (R29). -/
  | ucieRetrainDone (k : Fin 8) (ok : Bool) (slow : Bool) (repaired : Fin 64)
  /-- UCIE_TRAIN_DONE (R30). -/
  | ucieTrainDone (k : Fin 8) (ok : Bool) (slow : Bool) (repaired : Fin 64)
  /-- UCIE_FLIT_CRC_FAIL (R29). -/
  | ucieFlitCrcFail (k : Fin 8)
  /-- FAB_REMAP_WRITE (R413). -/
  | fabRemapWrite (d : Fin 8) (v : Word)
  /-- FAB_ERR_CLEAR (R410). -/
  | fabErrClear (d : Fin 8)
  /-- FAB_PROMOTE (R412). -/
  | fabPromote (d : Fin 8) (t : Fin 16)
  /-- CRC_RESET (R416). -/
  | crcReset (d : Fin 8) (k : Fin 16)
  /-- CRC_COMPUTE (R416). -/
  | crcCompute (d : Fin 8) (k : Fin 16)
  /-- CRC_APPEND (R416). -/
  | crcAppend (d : Fin 8) (k : Fin 16)
  /-- CRC_STRIP (R416). -/
  | crcStrip (d : Fin 8) (k : Fin 16)
  /-- CRC_ABORT (R416). -/
  | crcAbort (d : Fin 8) (k : Fin 16)
  /-- CRC_BAD_OP (R416). -/
  | crcBadOp (d : Fin 8) (k : Fin 16) (seven : Bool)
  /-- CRC_OP_DONE (R418). -/
  | crcOpDone (d : Fin 8) (k : Fin 16)
  /-- CRC_DATA32 (R416). -/
  | crcData32 (d : Fin 8) (k : Fin 16) (v : Word)
  /-- CRC_DATA16 (R416). -/
  | crcData16 (d : Fin 8) (k : Fin 16) (v : Word)
  /-- CRC_DATA8 (R416). -/
  | crcData8 (d : Fin 8) (k : Fin 16) (v : Word)
  /-- CRC_VALUE_WRITE (R416). -/
  | crcValueWrite (d : Fin 8) (k : Fin 16) (v : Word)
  /-- CRC_CLAIM_READ (R417). -/
  | crcClaimRead (d : Fin 8) (k : Fin 16)
  /-- CRC_CLAIM_RELEASE (R417). -/
  | crcClaimRelease (d : Fin 8) (k : Fin 16)
  /-- REC_STREAM_COPY (R428). -/
  | recStreamCopy (d : Fin 8)
  /-- REC_READ (R432). -/
  | recRead (r : Fin 4096)
  /-- POWER_GOOD (R477). -/
  | powerGood (samples : List (Fin 32))
  /-- RST_N_RELEASE (R436). -/
  | rstNRelease (samples : List (Fin 32))
  /-- RST_GLOBAL_WRITE (R433). -/
  | rstGlobalWrite (v : Word)
  /-- WDT_KICK (R445). -/
  | wdtKick (d : Fin 8) (v : Word)
  /-- WDT_EXPIRED (R445). -/
  | wdtExpired (d : Fin 8)
  /-- THERM_SAMPLE (R446). -/
  | thermSample (d : Fin 8) (ts : List (Fin 256))
  /-- CLOCK_GOOD (R438). -/
  | clockGood (path : Word)
  /-- NOCLK_TIMEOUT (R438). -/
  | noclkTimeout (q : Word)
  /-- RST_GRV_HOLD (R440). -/
  | rstGrvHold (j : Fin 16)
  /-- RST_GRV_RELEASE (R440). -/
  | rstGrvRelease (j : Fin 16)
  /-- PWR_SLOT_ENABLE (R449). -/
  | pwrSlotEnable (j : Fin 32) (en on : Bool)
  /-- PWR_DOMAIN_UP (R450). -/
  | pwrDomainUp (d : Fin 8) (n : Fin 152)
  /-- PWR_REQ_OTHER (R455). -/
  | pwrReqOther (req : Fin 16)
  /-- BOOT_CORES_RUN (R453). -/
  | bootCoresRun (d : Fin 8) (run : Bool)
  /-- BOOT_IMAGE_LOADED (R452). -/
  | bootImageLoaded (img : List Byte)
  /-- BOOT_FRAME (R452). -/
  | bootFrame (data : List Byte)
  /-- BOOT_SRAM_WRITE (R453). -/
  | bootSramWrite (d : Fin 8) (off : Fin 524288) (v : Word)
  /-- BOOT_SPI_GO (R461). -/
  | bootSpiGo (d : Fin 8) (v : Word)
  /-- BOOT_SPI_DONE (R461). -/
  | bootSpiDone (d : Fin 8) (data : List Byte) (wp : Bool)
  /-- RST_CAUSE_CLEAR (R458). -/
  | rstCauseClear (d : Fin 8) (v : Word)
  /-- REG_WRITE (R11). -/
  | regWrite (q : Req) (addr : Nat) (v : Word)
  /-- DESC_LINE_INVALIDATED (R98). -/
  | descLineInvalidated (r : Fin 4096) (words : List Word)
  /-- HDM_WINDOW_ACCESS (R87). -/
  | hdmWindowAccess (o : Nat) (w : Option (List Byte))
  /-- AUD_CLOCK_LOSS (R344). -/
  | audClockLoss (p : Fin 16)
  /-- CHECKER_LOCK (R399). -/
  | checkerLock (n : Fin 108)
  /-- CHECKER_LOCK_LOST (R399). -/
  | checkerLockLost (n : Fin 108) (bits : Nat) (errs : List (Fin 64 × Nat))
  -- the rest have no operands: the compiler has object tags for the first 245 constructors only
  /-- REC_CLR_GO (R431). -/
  | recClrGo
  /-- REC_CLEAR_CHECKED (R431). -/
  | recClearChecked
  /-- SUPPLY_LOSS (R478). -/
  | supplyLoss
  /-- RST_N_ASSERT (R436). -/
  | rstNAssert
  /-- PERST_ASSERT (R433). -/
  | perstAssert
  /-- PERST_RELEASE (R433). -/
  | perstRelease
  /-- PWR_DOMAIN_SWITCH (R450). -/
  | pwrDomainSwitch
  /-- PWR_REQ_CALIBRATE (R455). -/
  | pwrReqCalibrate
  /-- PWR_REQ_READY (R455). -/
  | pwrReqReady
  /-- PWR_REQ_DIAGNOSTIC (R455). -/
  | pwrReqDiagnostic
  /-- PWR_REQ_CLEAR (R455). -/
  | pwrReqClear
  /-- BOOT_MBOX_GO (R452). -/
  | bootMboxGo
  /-- BOOT_TWIN_TIMEOUT (R452). -/
  | bootTwinTimeout
  deriving DecidableEq, Repr

end Sys2Proof
end

