-- ==== Sys2Proof/Decode.lean ====
section
/-!
DEFINITION. Sys2Proof/Decode.lean: the commands that words of the opcode table spell.
-/
namespace Sys2Proof

/-- The command a word of `nbits` bits spells by the opcode table's bits. The table gives none of its rows bits, so no
word spells a command (notes/assumptions/9.md). -/
def decodeTableWord (_nbits _w : Nat) : Option Instr := none

end Sys2Proof
end

