-- ==== Sys2Proof/Config.lean ====
section
/-!
DEFINITION. Sys2Proof/Config.lean: what an implementation fixes (the variants of R3) and the free values: constants
with no body that stand wherever the spec states an effect and not its value. Each free value is named in the
assumption log.
-/
namespace Sys2Proof

/-- R3: the three variants of the package. -/
inductive Variant where
  | gx2 | gx4 | gx8
  deriving DecidableEq, Repr

/-- R3: the highest crown die index the variant contains; crowns 1 to this are present. -/
def Variant.crowns : Variant → Nat
  | .gx2 => 1
  | .gx4 => 3
  | .gx8 => 7

/-- R275: how a unit is coded in floor mode: HEVC and VVC inter; HEVC and VVC refresh; AVC inter; AVC refresh; AV1 inter; AV1 refresh; JPEG
XS. -/
inductive FloorUnit where
  /-- Skip CU, merge index 0, SAO off or merged left; of VVC with ALF off for the CTU and MMVD off. -/
  | skipMerge0
  /-- Intra DC luma and DM chroma, every coded block flag zero. -/
  | intraDcDm
  | pSkip
  /-- I_16x16 with DC prediction, coded block pattern zero, mb_qp_delta 0. -/
  | intra16Dc
  /-- Skip, reference LAST, GLOBALMV. -/
  | skipGlobal
  | intraDcSkip
  /-- Every code group of the precinct truncated to zero bit-planes. -/
  | zeroPlanes
  deriving DecidableEq, Repr

/-- R224, R327: what the NAL unit type (of AV1 the frame type) of a coded picture says. -/
inductive NalKind where
  | idrNLp | trail | gdr | avcIdr | avcSlice | keyFrame | interFrame
  deriving DecidableEq, Repr

/-- R326, R327: the syntax of a coding row that the hold generator codes: codec, stream id, PIC, ORDER, AVC idr_pic_id, coding row, NAL kind,
PICs of the references in use and of those kept beside them (a long-term one last), whether temporal MVP, SAO, ALF and deblocking run,
the quantiser, how its units are coded and how many there are, and the picture timing (pic_struct, line of the removal time). -/
structure RowSyntax where
  codec : Nat
  sid : Nat
  pic : Nat
  order : Nat
  idr : Nat
  row : Nat
  nal : NalKind
  used : List Nat
  kept : List Nat
  tmvp : Bool
  sao : Bool
  alf : Bool
  deblock : Bool
  quant : Nat
  code : FloorUnit
  units : Nat
  timing : Option (Nat × Nat)
  deriving DecidableEq, Repr

namespace Config

/-- A fresh value wherever the spec leaves one open and the machine goes on (notes/assumptions/4.md). The first
argument is the step's count of free values taken, the second tells apart values taken at one count. -/
opaque free : Nat → Nat → Nat

/-- The filter between the raw and the filtered offset of a PTP instance (R495 names the filtered offset and not the
filter): previous filtered value, raw sample, in ns. -/
opaque ptpFilter : Int → Int → Int

/-- FREE VALUE (R60; notes/assumptions/106.md): the prediction of a PTP offset sample, in ns, from the good samples before it, newest
first. -/
opaque ptpPredict : List Int → Int

/-- The size of the translation the host gives for a page (R111, R114), as the power of two 12 + this value modulo 19, by PASID
and page address. The host chooses it. -/
opaque hostPage : Option Nat → Nat → Nat

/-- The output page address of that translation (R114). The host chooses it. -/
opaque hostOut : Option Nat → Nat → Nat

/-- The header bits a coded picture of a stream needs, H_pic of R276 (the syntax count is the codec's own): codec,
picture kind, and the words of ENC_STRi_CFG and ENC_STRi_SEI. -/
opaque hPic : Nat → Nat → Nat → Nat → Nat

/-- The contents of a die's boot ROM: die, offset (the spec gives the ROM's behaviour and not its bytes). -/
opaque bootRom : Nat → Nat → Byte

/-- The 128-bit recorder key in the root's fuses, and whether one is provisioned (R431). -/
opaque recorderKey : Nat

/-- R431 RESULT 3: whether a recorder key is provisioned. -/
opaque recorderKeyed : Bool

/-- The unit identity in TWIN_UNIT ("Provisioned" in R373). -/
opaque unitId : Nat

/-- Whether a quotient the spec gives without a rounding is taken up to the next whole number: numerator, denominator. -/
opaque roundUp : Nat → Nat → Bool

/-- A component of a source pixel in the part of a layer's source area that a smaller image leaves transparent (R198). -/
opaque clearPx : Nat → Nat

/-- A chroma sample of a 4:2:2 source brought up to 4:4:4 by the fixed 4-tap filter of R194, whose taps the spec does not give:
0 at an even and 1 at an odd pixel, and the four samples the taps lie on. -/
opaque chromaUp : Nat → Nat → Nat → Nat → Nat → Nat

/-- A sample of a picture that the decode engine has reconstructed (the decoders are those of the codecs): crown and stream, picture,
position, component; in bits of 14. -/
opaque decPx : Nat → Nat → Nat → Nat → Nat → Nat

/-- IPv4 header fields of output packets that the spec does not give (R309): 0 identification, flags and fragment offset, 1 time to live. -/
opaque ipFields : Nat → Nat

/-- The source MAC address of a port, which no register gives (R309). -/
opaque portMac : Nat → Nat

/-- The destination MAC address of witness datagrams, which no register gives (R360). -/
opaque witMac : Nat

/-- A luma sample of a reconstructed picture in a pool buffer: crown x 2048 + buffer, picture number, position (R244). Of a floored unit it
is the unit's prediction (R275). -/
opaque reconPx : Nat → Nat → Nat → Nat → Nat

/-- A sample of a scaled rendition after the front end's downscaler, whose coefficients the spec does not give (R226): the 48 canvas samples
under its 8 horizontal and 6 vertical taps, line by line, and the fraction of the position between samples in each direction, as numerator
and denominator. -/
opaque scaledPx : List Nat → Nat × Nat → Nat × Nat → Nat

/-- A 4:2:0 chroma sample that the front end's fixed vertical filter makes of 4:2:2 ones (R227), whose taps the spec does not give: the
samples of its column from the top, and its line. -/
opaque chromaDown : List Nat → Nat → Nat

/-- A chroma sample after the fixed subsampling filter of R206, whose taps the spec does not give: format, position, and the
band's chroma values as (x, y, Cb, Cr); 0 for Cb, 1 for Cr. -/
opaque chroma : Nat → Nat → Nat → List (Nat × Nat × Nat × Nat) → Nat → Nat

/-- The 3-lobe windowed sinc that coefficient sets 0 and 2 hold at reset (R204): direction, phase, tap. Machine/Pixel.lean holds it
to the coefficients that R204 allows. -/
opaque sincCoef : Nat → Nat → Nat → Int

/-- A sample after the fixed decimation filter of R335, whose coefficients the spec does not give: the 64 bits of a microphone for each of
the last 49 samples, the newest first. -/
opaque pdm : List Nat → Nat

/-- Words of a stream context that the device sets for itself (R240: words 8 for AV1, 9 to 11 and 16 to 63): crown, stream index,
word, picture number or tile column. -/
opaque ctxWord : Nat → Nat → Nat → Nat → Nat

/-- The units (NAL units, OBUs) that entropy coding makes of the syntax of a coding row which the hold generator codes (R326, R327); the
codec's own standard gives them. -/
opaque rowBytes : RowSyntax → List (List Byte)

/-- The header template block of a stream (R240): stream id, and the words of its ST registers. -/
opaque templateBytes : Nat → List Nat → List Byte

/-- A byte that a training helper writes (R387), but for the repeated SEED: pattern, seed, pseudo-channel, bank, byte (the spec names the
pattern generators and not how they lie on the lanes). -/
opaque trainByte : Nat → Nat → Nat → Nat → Nat → Byte

end Config
end Sys2Proof
end

