-- ==== Sys2Proof/Machine/Map.lean ====
section
/-!
DEFINITION. Sys2Proof/Machine/Map.lean: sparse storage. A map from numbers to values is a list of (key, value) pairs
with keys strictly rising in which no pair holds the value an unlisted key reads as; equal contents are equal lists.
-/
namespace Sys2Proof.Machine

/-- Contents at key `k`; an unlisted key reads as `d k`. -/
def mapGet {V : Type} (d : Nat → V) : List (Nat × V) → Nat → V
  | [], k => d k
  | (k', v) :: m, k => if k = k' then v else mapGet d m k

/-- The map without key `k`. -/
def mapErase {V : Type} : List (Nat × V) → Nat → List (Nat × V)
  | [], _ => []
  | (k', v) :: m, k => if k = k' then mapErase m k else (k', v) :: mapErase m k

/-- Put a pair before the first greater key. -/
def mapInsert {V : Type} : List (Nat × V) → Nat → V → List (Nat × V)
  | [], k, v => [(k, v)]
  | (k', v') :: m, k, v => if k < k' then (k, v) :: (k', v') :: m else (k', v') :: mapInsert m k v

/-- Write `v` at key `k`, keeping the canonical form. -/
def mapSet {V : Type} [DecidableEq V] (d : Nat → V) (m : List (Nat × V)) (k : Nat) (v : V) : List (Nat × V) :=
  if v = d k then mapErase m k else mapInsert (mapErase m k) k v

/-- The canonical form, from a lower bound on the keys. -/
def mapWfFrom {V : Type} [DecidableEq V] (d : Nat → V) : Nat → List (Nat × V) → Bool
  | _, [] => true
  | b, (k, v) :: m => decide (b ≤ k) && decide (v ≠ d k) && mapWfFrom d (k + 1) m

/-- The canonical form: keys strictly rising, no pair equal to what an unlisted key reads as. -/
def mapWf {V : Type} [DecidableEq V] (d : Nat → V) (m : List (Nat × V)) : Bool := mapWfFrom d 0 m

/-- Keep the pairs whose key satisfies `p`. -/
def mapKeep {V : Type} (p : Nat → Bool) : List (Nat × V) → List (Nat × V)
  | [] => []
  | (k, v) :: m => if p k then (k, v) :: mapKeep p m else mapKeep p m

end Sys2Proof.Machine
end

