-- ==== Sys2Proof/Machine/Regs.lean ====
section
/-!
DEFINITION. Sys2Proof/Machine/Regs.lean: the address of every register of the spec's register maps (R466 to R468
and each chapter's own map) and the place of every field, under the manual's names (an instance letter in a name,
n in LT_TLn_CTL, is an argument). `R.X` is the BAR0 offset of register X; `F.X_Y` is field Y of register X.
-/
namespace Sys2Proof.Machine

/-- A register field: the register's BAR0 offset, its lowest bit, its width in bits (R11: bit ranges are [msb:lsb]). -/
structure Fld where
  reg : Nat
  lo : Nat
  width : Nat
  deriving DecidableEq, Repr

/-- R12: die i's register window starts at BAR0 offset i x 0x0400_0000. -/
def dieBase (d : Nat) : Nat := d * 0x4000000

/-- R403: lanes 0 to 95 are the media lanes, 96 to 99 stand for the twin lanes T0 to T3. -/
def laneBase (n : Nat) : Nat := if n < 96 then 0xA01000 + n * 0x80 else 0xA04000 + (n - 96) * 0x80

/-- R467: the spill blocks of rings 0 to 31 are reached through an alias. -/
def spillBase (r : Nat) : Nat := if r < 32 then 0x138000 + r * 0x10 else 0x140000 + r * 0x10

/-- R461, R409: a peripheral register at a fabric address of die d lies in no BAR0 window; the model keeps it
under a key above them all. -/
def periphBase (d : Nat) : Nat := (d + 1) * 0x100000000

end Sys2Proof.Machine

namespace Sys2Proof.Machine.R

/-! LT: 02_line_time.md, R56. -/
def LT_XLATCH : Nat := 0x100000
def LT_TLn_CFG (n : Nat) : Nat := 0x100100 + n * 0x40
def LT_TLn_CTL (n : Nat) : Nat := 0x100104 + n * 0x40
def LT_TLn_STATUS (n : Nat) : Nat := 0x100108 + n * 0x40
def LT_TLn_FRAME_SET_LO (n : Nat) : Nat := 0x100110 + n * 0x40
def LT_TLn_FRAME_SET_HI (n : Nat) : Nat := 0x100114 + n * 0x40
def LT_TLn_EPOCH_HI (n : Nat) : Nat := 0x100118 + n * 0x40
def LT_TLn_NOW_LO (n : Nat) : Nat := 0x100120 + n * 0x40
def LT_TLn_NOW_HI (n : Nat) : Nat := 0x100124 + n * 0x40
def LT_TLn_XCAP_LO (n : Nat) : Nat := 0x100128 + n * 0x40
def LT_TLn_XCAP_HI (n : Nat) : Nat := 0x10012C + n * 0x40
def LT_TLn_XCAP_EPOCH (n : Nat) : Nat := 0x100130 + n * 0x40
def LT_CHc_MAP (c : Nat) : Nat := 0x101000 + c * 0x10
def LT_CHc_PHASE (c : Nat) : Nat := 0x101004 + c * 0x10
def LT_CHc_DELAY (c : Nat) : Nat := 0x101008 + c * 0x10
def LT_CHc_STATUS (c : Nat) : Nat := 0x10100C + c * 0x10

/-! SEL: 03_reference_selection.md, R71. -/
def SEL_REFk_CFG (k : Nat) : Nat := 0x110100 + k * 0x20
def SEL_REFk_QUAL (k : Nat) : Nat := 0x110104 + k * 0x20
def SEL_REFk_MTIE (k : Nat) : Nat := 0x110108 + k * 0x20
def SEL_REFk_COMP (k : Nat) : Nat := 0x11010C + k * 0x20
def SEL_REFk_STATUS (k : Nat) : Nat := 0x110110 + k * 0x20
def SEL_REFk_COUNT (k : Nat) : Nat := 0x110114 + k * 0x20
def SEL_PRIOe (e : Nat) : Nat := 0x110400 + e * 0x4
def SEL_TLn_CTL (n : Nat) : Nat := 0x110600 + n * 0x20
def SEL_TLn_SLOPE (n : Nat) : Nat := 0x110604 + n * 0x20
def SEL_TLn_STEP (n : Nat) : Nat := 0x110608 + n * 0x20
def SEL_TLn_HOLDCFG (n : Nat) : Nat := 0x11060C + n * 0x20
def SEL_TLn_STATUS (n : Nat) : Nat := 0x110610 + n * 0x20
def SEL_TLn_PERR (n : Nat) : Nat := 0x110614 + n * 0x20
def SEL_TLn_PEND (n : Nat) : Nat := 0x110618 + n * 0x20
def SEL_TLn_HOLDFREQ (n : Nat) : Nat := 0x11061C + n * 0x20
def SEL_HIST_SEL : Nat := 0x110800
def SEL_HIST_DATA : Nat := 0x110804

/-! PTP: 04_network_time.md, R82. -/
def PTP_CLK_CTL : Nat := 0x120000
def PTP_CLK_CFG : Nat := 0x120004
def PTP_CLK_STATUS : Nat := 0x120038
def PTP_PPS_OUT : Nat := 0x12003C
def PTP_CLK_JUMP : Nat := 0x120008
def PTP_CLK_ADJ : Nat := 0x12000C
def PTP_CLK_SET_SEC_LO : Nat := 0x120010
def PTP_CLK_SET_SEC_HI : Nat := 0x120014
def PTP_CLK_SET_NS : Nat := 0x120018
def PTP_CLK_NS : Nat := 0x120020
def PTP_CLK_SEC_LO : Nat := 0x120024
def PTP_CLK_SEC_HI : Nat := 0x120028
def PTP_CLK_STAMP : Nat := 0x12002C
def PTP_CLK_INCR_LO : Nat := 0x120030
def PTP_CLK_INCR_HI : Nat := 0x120034
def PTP_n_CFG (n : Nat) : Nat := 0x120100 + n * 0x80
def PTP_n_STATUS (n : Nat) : Nat := 0x120110 + n * 0x80
def PTP_n_COUNT (n : Nat) : Nat := 0x120128 + n * 0x80
def PTP_n_IPV4 (n : Nat) : Nat := 0x120108 + n * 0x80
def PTP_n_OFFSET (n : Nat) : Nat := 0x120114 + n * 0x80
def PTP_n_MPD (n : Nat) : Nat := 0x120118 + n * 0x80
def PTP_n_GMID_LO (n : Nat) : Nat := 0x12011C + n * 0x80
def PTP_n_GMID_HI (n : Nat) : Nat := 0x120120 + n * 0x80
def PTP_n_UTC (n : Nat) : Nat := 0x120124 + n * 0x80
def PTP_LATm_RX (m : Nat) : Nat := 0x121000 + m * 0x8
def PTP_LATm_TX (m : Nat) : Nat := 0x121004 + m * 0x8

/-! HIF: 05_host_interface_and_rings.md, R108. -/
def HIF_STATUS : Nat := 0x10000
def HIF_CTL : Nat := 0x10004
def HIF_DB_CFG : Nat := 0x10008
def HIF_COUNT : Nat := 0x1000C
def HIF_HDMd_SIZE (d : Nat) : Nat := 0x10010 + d * 0x4

/-! RING: 05_host_interface_and_rings.md, R109. -/
def RING_r_CFG (r : Nat) : Nat := 0x200000 + r * 0x40
def RING_r_CTL (r : Nat) : Nat := 0x200004 + r * 0x40
def RING_r_BATCH (r : Nat) : Nat := 0x200024 + r * 0x40
def RING_r_IRQ (r : Nat) : Nat := 0x200028 + r * 0x40
def RING_r_STATUS (r : Nat) : Nat := 0x200030 + r * 0x40
def RING_r_COUNT (r : Nat) : Nat := 0x20003C + r * 0x40
def RING_r_BASE_LO (r : Nat) : Nat := 0x200008 + r * 0x40
def RING_r_BASE_HI (r : Nat) : Nat := 0x20000C + r * 0x40
def RING_r_DB_LO (r : Nat) : Nat := 0x200010 + r * 0x40
def RING_r_DB_HI (r : Nat) : Nat := 0x200014 + r * 0x40
def RING_r_WB_LO (r : Nat) : Nat := 0x200018 + r * 0x40
def RING_r_WB_HI (r : Nat) : Nat := 0x20001C + r * 0x40
def RING_r_DBGEN (r : Nat) : Nat := 0x200020 + r * 0x40
def RING_r_FLUSH (r : Nat) : Nat := 0x20002C + r * 0x40
def RING_r_HEAD (r : Nat) : Nat := 0x200034 + r * 0x40
def RING_r_HOSTIDX (r : Nat) : Nat := 0x200038 + r * 0x40

/-! XLT: 06_faults_and_preemption.md, R129, R130. -/
def XLT_CFG : Nat := 0x130000
def XLT_STATUS : Nat := 0x130004
def XLT_FLUSH : Nat := 0x130020
def XLT_COUNT_HIT : Nat := 0x130008
def XLT_COUNT_MISS : Nat := 0x13000C
def XLT_COUNT_FAULT : Nat := 0x130010
def XLT_PRI : Nat := 0x130014
def XLT_INVAL : Nat := 0x130018
def XLT_PARK : Nat := 0x13001C
def XLT_PASIDr (r : Nat) : Nat := 0x134000 + r * 0x4
def XLT_SPILLr_BASE (r : Nat) : Nat := spillBase r + 0x0
def XLT_SPILLr_CFG (r : Nat) : Nat := spillBase r + 0x4
def XLT_SPILLr_STATUS (r : Nat) : Nat := spillBase r + 0x8
def XLT_SPILLr_COUNT (r : Nat) : Nat := spillBase r + 0xC

/-! STG: 07_staging_and_consistency.md, R151. -/
def STG_CFG : Nat := 0x140000
def STG_STATUS : Nat := 0x140004
def STG_WSEL : Nat := 0x140008
def STG_CTL : Nat := 0x14000C
def STG_COUNT : Nat := 0x140018
def STG_PEEK_INFO : Nat := 0x140028
def STG_GROVE_INFO : Nat := 0x140048
def STG_SETs_STATUS (s : Nat) : Nat := 0x140100 + s * 0x20
def STG_SETs_CLAIMS (s : Nat) : Nat := 0x14010C + s * 0x20
def STG_STAMP_LO : Nat := 0x140010
def STG_STAMP_HI : Nat := 0x140014
def STG_PEEK_ADDR : Nat := 0x140020
def STG_PEEK_DATA : Nat := 0x140024
def STG_GROVE_SEL : Nat := 0x140040
def STG_GROVE_DATA : Nat := 0x140044
def STG_SETs_STAMP_LO (s : Nat) : Nat := 0x140104 + s * 0x20
def STG_SETs_STAMP_HI (s : Nat) : Nat := 0x140108 + s * 0x20
def STG_SETs_APPLIED (s : Nat) : Nat := 0x140110 + s * 0x20

/-! SCH: 08_task_scheduler.md, R169. -/
def SCH_STATUS (d : Nat) : Nat := dieBase d + 0x300000
def SCH_TASK_SEL (d : Nat) : Nat := dieBase d + 0x300020
def SCH_COUNT_A (d : Nat) : Nat := dieBase d + 0x300004
def SCH_COUNT_B (d : Nat) : Nat := dieBase d + 0x300008
def SCH_USEC_LO (d : Nat) : Nat := dieBase d + 0x300010
def SCH_USEC_HI (d : Nat) : Nat := dieBase d + 0x300014
def SCH_TASK_DATAw (d w : Nat) : Nat := dieBase d + 0x300040 + w * 0x4
def SCH_READYb (d b : Nat) : Nat := dieBase d + 0x302000 + b * 0x4
def SCH_CONSk_CFG (d k : Nat) : Nat := dieBase d + 0x310000 + k * 0x40
def SCH_CONSk_STATUS (d k : Nat) : Nat := dieBase d + 0x310004 + k * 0x40
def SCH_CONSk_CUR (d k : Nat) : Nat := dieBase d + 0x310008 + k * 0x40
def SCH_CONSk_NXT (d k : Nat) : Nat := dieBase d + 0x31000C + k * 0x40
def SCH_CONSk_TAKE (d k : Nat) : Nat := dieBase d + 0x310010 + k * 0x40
def SCH_CONSk_END (d k : Nat) : Nat := dieBase d + 0x310014 + k * 0x40
def SCH_CONSk_WM (d k w : Nat) : Nat := dieBase d + 0x310018 + k * 0x40 + w * 0x4
def SCH_Qq_CFG (d q : Nat) : Nat := dieBase d + 0x400000 + q * 0x10
def SCH_Qq_RANGE (d q : Nat) : Nat := dieBase d + 0x400004 + q * 0x10
def SCH_Qq_STATUS (d q : Nat) : Nat := dieBase d + 0x400008 + q * 0x10
def SCH_Qq_CTL (d q : Nat) : Nat := dieBase d + 0x40000C + q * 0x10

/-! ING: 09_ingest.md, R186. -/
def ING_CHc_SRC (c : Nat) : Nat := 0x501000 + c * 0x40
def ING_CHc_FMT (c : Nat) : Nat := 0x501004 + c * 0x40
def ING_CHc_FMT2 (c : Nat) : Nat := 0x501008 + c * 0x40
def ING_CHc_CFG (c : Nat) : Nat := 0x50100C + c * 0x40
def ING_CHc_ANCF (c : Nat) : Nat := 0x501018 + c * 0x40
def ING_CHc_AUD (c : Nat) : Nat := 0x50103C + c * 0x40
def ING_CHc_STATUS (c : Nat) : Nat := 0x501028 + c * 0x40
def ING_CHc_FS_BASE (c : Nat) : Nat := 0x501010 + c * 0x40
def ING_CHc_FS_SIZE (c : Nat) : Nat := 0x501014 + c * 0x40
def ING_CHc_ANC_BASE (c : Nat) : Nat := 0x50101C + c * 0x40
def ING_CHc_ANC_CFG (c : Nat) : Nat := 0x501020 + c * 0x40
def ING_CHc_ANC_IDX (c : Nat) : Nat := 0x501024 + c * 0x40
def ING_CHc_MARGIN (c : Nat) : Nat := 0x50102C + c * 0x40
def ING_CHc_CNT_LINES (c : Nat) : Nat := 0x501030 + c * 0x40
def ING_CHc_CNT_FRAMES (c : Nat) : Nat := 0x501034 + c * 0x40
def ING_CHc_CNT_SYNC (c : Nat) : Nat := 0x501038 + c * 0x40
def ING_STATUS : Nat := 0x500000
def ING_COUNT : Nat := 0x500004

/-! FLOW: 09_ingest.md, R187. -/
def FLOW_STAGE (w : Nat) : Nat := 0x580000 + w * 0x4
def FLOW_OP : Nat := 0x580020
def FLOW_RESULT : Nat := 0x580024
def FLOW_FILL : Nat := 0x580028
def FLOW_READ (w : Nat) : Nat := 0x580040 + w * 0x4
def FLOW_CNT_PKT : Nat := 0x580058
def FLOW_CNT_DROP : Nat := 0x58005C
def FLOW_CNT_GAP : Nat := 0x580060

/-! CMP: 10_composition_and_colour.md, R214, R215. -/
def CMP_STATUS (d : Nat) : Nat := dieBase d + 0x600000
def CMP_FLAT_BASE (d : Nat) : Nat := dieBase d + 0x600004
def CMP_FLAT_SIZE (d : Nat) : Nat := dieBase d + 0x600008
def CMP_COEF_SEL (d : Nat) : Nat := dieBase d + 0x600010
def CMP_COEF_DATA (d : Nat) : Nat := dieBase d + 0x600014
def CMP_Ck_COUNT (d k : Nat) : Nat := dieBase d + 0x600104 + k * 0x10
def CMP_SLOTs_CFG (d s : Nat) : Nat := dieBase d + 0x610000 + s * 0x800
def CMP_SLOTs_COLOR (d s : Nat) : Nat := dieBase d + 0x61000C + s * 0x800
def CMP_SLOTs_SPLIT (d s : Nat) : Nat := dieBase d + 0x610004 + s * 0x800
def CMP_SLOTs_BG (d s : Nat) : Nat := dieBase d + 0x610008 + s * 0x800
def CMP_SLOTs_OUT_BASE (d s : Nat) : Nat := dieBase d + 0x610010 + s * 0x800
def CMP_SLOTs_OUT_SIZE (d s : Nat) : Nat := dieBase d + 0x610014 + s * 0x800
def CMP_SLOTs_FLAT_BASE (d s : Nat) : Nat := dieBase d + 0x610018 + s * 0x800
def CMP_SLOTs_FLAT_SIZE (d s : Nat) : Nat := dieBase d + 0x61001C + s * 0x800
def CMP_SLOTs_STATUS (d s : Nat) : Nat := dieBase d + 0x610020 + s * 0x800
def CMP_SLOTs_Ll_CFG (d s l : Nat) : Nat := dieBase d + 0x610400 + s * 0x800 + l * 0x40
def CMP_SLOTs_Ll_SRCSZ (d s l : Nat) : Nat := dieBase d + 0x610404 + s * 0x800 + l * 0x40
def CMP_SLOTs_Ll_DST (d s l : Nat) : Nat := dieBase d + 0x610408 + s * 0x800 + l * 0x40
def CMP_SLOTs_Ll_DSTSZ (d s l : Nat) : Nat := dieBase d + 0x61040C + s * 0x800 + l * 0x40
def CMP_SLOTs_Ll_ALPHA (d s l : Nat) : Nat := dieBase d + 0x610410 + s * 0x800 + l * 0x40
def CMP_SLOTs_Ll_WAIT (d s l : Nat) : Nat := dieBase d + 0x610414 + s * 0x800 + l * 0x40
def CMP_SLOTs_Ll_BUF_BASE (d s l : Nat) : Nat := dieBase d + 0x610418 + s * 0x800 + l * 0x40
def CMP_SLOTs_Ll_BUF_SIZE (d s l : Nat) : Nat := dieBase d + 0x61041C + s * 0x800 + l * 0x40
def CMP_SLOTs_Ll_DEC (d s l : Nat) : Nat := dieBase d + 0x610420 + s * 0x800 + l * 0x40
def CMP_SLOTs_Ll_STATUS (d s l : Nat) : Nat := dieBase d + 0x610424 + s * 0x800 + l * 0x40
def CMP_SLOTs_Ll_CNT_A (d s l : Nat) : Nat := dieBase d + 0x610428 + s * 0x800 + l * 0x40
def CMP_SLOTs_Ll_CNT_B (d s l : Nat) : Nat := dieBase d + 0x61042C + s * 0x800 + l * 0x40
def CMP_SLOTs_Ll_CNT_C (d s l : Nat) : Nat := dieBase d + 0x610430 + s * 0x800 + l * 0x40
def CMP_SLOTs_Ll_CNT_D (d s l : Nat) : Nat := dieBase d + 0x610434 + s * 0x800 + l * 0x40

/-! LUT: 10_composition_and_colour.md, R216. -/
def LUT_Ck_SEL (d k : Nat) : Nat := dieBase d + 0x680000 + k * 0x40
def LUT_Ck_DATA0 (d k : Nat) : Nat := dieBase d + 0x680004 + k * 0x40
def LUT_Ck_DATA1 (d k : Nat) : Nat := dieBase d + 0x680008 + k * 0x40
def LUT_Ck_STATUS (d k : Nat) : Nat := dieBase d + 0x68000C + k * 0x40
def LUT_Ck_CRCb (d k b : Nat) : Nat := dieBase d + 0x680010 + k * 0x40 + b * 0x4

/-! ENC: 11_encode_pipelines.md, R241, R242. -/
def ENC_STATUS (d : Nat) : Nat := dieBase d + 0x700000
def ENC_CTX_SEL (d : Nat) : Nat := dieBase d + 0x700010
def ENC_CTX_DATA (d : Nat) : Nat := dieBase d + 0x700014
def ENC_CTX_MAP (d : Nat) : Nat := dieBase d + 0x700018
def ENC_PIPEp_CFG (d p : Nat) : Nat := dieBase d + 0x701000 + p * 0x40
def ENC_PIPEp_STATUS (d p : Nat) : Nat := dieBase d + 0x701004 + p * 0x40
def ENC_PIPEp_RLOAD (d p : Nat) : Nat := dieBase d + 0x701008 + p * 0x40
def ENC_PIPEp_CNT_ROWS (d p : Nat) : Nat := dieBase d + 0x70100C + p * 0x40
def ENC_PIPEp_CNT_SW (d p : Nat) : Nat := dieBase d + 0x701010 + p * 0x40
def ENC_STRi_CFG (d i : Nat) : Nat := dieBase d + 0x710000 + i * 0x100
def ENC_STRi_GOP (d i : Nat) : Nat := dieBase d + 0x710010 + i * 0x100
def ENC_STRi_LEVEL (d i : Nat) : Nat := dieBase d + 0x710004 + i * 0x100
def ENC_STRi_SIZE (d i : Nat) : Nat := dieBase d + 0x710008 + i * 0x100
def ENC_STRi_TILES (d i : Nat) : Nat := dieBase d + 0x71000C + i * 0x100
def ENC_STRi_OPT (d i : Nat) : Nat := dieBase d + 0x710014 + i * 0x100
def ENC_STRi_SEI (d i : Nat) : Nat := dieBase d + 0x710018 + i * 0x100
def ENC_STRi_STATUS (d i : Nat) : Nat := dieBase d + 0x710020 + i * 0x100
def ENC_STRi_PIC (d i : Nat) : Nat := dieBase d + 0x710024 + i * 0x100
def ENC_STRi_CNT_A (d i : Nat) : Nat := dieBase d + 0x710028 + i * 0x100
def ENC_STRi_CNT_B (d i : Nat) : Nat := dieBase d + 0x71002C + i * 0x100
def ENC_STRi_REQ (d i : Nat) : Nat := dieBase d + 0x710030 + i * 0x100

/-! MES: 12_motion_search_and_statistics.md, R270. -/
def MES_STATUS (d : Nat) : Nat := dieBase d + 0x740000
def MES_COUNT (d : Nat) : Nat := dieBase d + 0x740004
def MES_PIPEp_FB (d p : Nat) : Nat := dieBase d + 0x741000 + p * 0x20
def MES_PIPEp_WIN (d p : Nat) : Nat := dieBase d + 0x741004 + p * 0x20
def MES_STRi_CFG (d i : Nat) : Nat := dieBase d + 0x750000 + i * 0x40
def MES_STRi_CONF (d i : Nat) : Nat := dieBase d + 0x750004 + i * 0x40
def MES_STRi_SCD (d i : Nat) : Nat := dieBase d + 0x750008 + i * 0x40
def MES_STRi_CNT_A (d i : Nat) : Nat := dieBase d + 0x750010 + i * 0x40
def MES_STRi_CNT_B (d i : Nat) : Nat := dieBase d + 0x750014 + i * 0x40
def MES_STRi_CNT_C (d i : Nat) : Nat := dieBase d + 0x750018 + i * 0x40
def MES_STRi_CNT_D (d i : Nat) : Nat := dieBase d + 0x75001C + i * 0x40
def MES_STRi_GMV (d i : Nat) : Nat := dieBase d + 0x750020 + i * 0x40
def MES_STRi_STATUS (d i : Nat) : Nat := dieBase d + 0x750024 + i * 0x40

/-! LEDG: 13_rate_control.md, R286, R287. -/
def LEDG_STATUS (d : Nat) : Nat := dieBase d + 0x760000
def LEDG_STRi_MODE (d i : Nat) : Nat := dieBase d + 0x770000 + i * 0x40
def LEDG_STRi_TUNE (d i : Nat) : Nat := dieBase d + 0x77000C + i * 0x40
def LEDG_STRi_RATE (d i : Nat) : Nat := dieBase d + 0x770004 + i * 0x40
def LEDG_STRi_AVG (d i : Nat) : Nat := dieBase d + 0x770008 + i * 0x40
def LEDG_STRi_CPB (d i : Nat) : Nat := dieBase d + 0x770010 + i * 0x40
def LEDG_STRi_HRD_CPB (d i : Nat) : Nat := dieBase d + 0x770014 + i * 0x40
def LEDG_STRi_FPIC_P (d i : Nat) : Nat := dieBase d + 0x770018 + i * 0x40
def LEDG_STRi_FPIC_I (d i : Nat) : Nat := dieBase d + 0x77001C + i * 0x40
def LEDG_STRi_GMAX (d i : Nat) : Nat := dieBase d + 0x770020 + i * 0x40
def LEDG_STRi_FILL (d i : Nat) : Nat := dieBase d + 0x770024 + i * 0x40
def LEDG_STRi_PBUD (d i : Nat) : Nat := dieBase d + 0x770028 + i * 0x40
def LEDG_STRi_PBITS (d i : Nat) : Nat := dieBase d + 0x77002C + i * 0x40
def LEDG_STRi_STATUS (d i : Nat) : Nat := dieBase d + 0x770030 + i * 0x40
def LEDG_STRi_CNT_A (d i : Nat) : Nat := dieBase d + 0x770034 + i * 0x40
def LEDG_STRi_CNT_B (d i : Nat) : Nat := dieBase d + 0x770038 + i * 0x40
def LEDG_STRi_FILLER (d i : Nat) : Nat := dieBase d + 0x77003C + i * 0x40

/-! POOL: 14_reference_pool_and_decode.md, R306. -/
def POOL_STATUS (d : Nat) : Nat := dieBase d + 0x780000
def POOL_AREA_BASE (d : Nat) : Nat := dieBase d + 0x780004
def POOL_AREA_SIZE (d : Nat) : Nat := dieBase d + 0x780008
def POOL_DESC_SEL (d : Nat) : Nat := dieBase d + 0x780010
def POOL_DESC_DATAw (d w : Nat) : Nat := dieBase d + 0x780020 + w * 0x4
def POOL_EOBJ_SEL (d : Nat) : Nat := dieBase d + 0x780030
def POOL_EOBJ_CTL (d : Nat) : Nat := dieBase d + 0x780034
def POOL_EOBJ_STATUS (d : Nat) : Nat := dieBase d + 0x780038
def POOL_COUNT (d : Nat) : Nat := dieBase d + 0x78003C
def POOL_STRi_BASE (d i : Nat) : Nat := dieBase d + 0x781000 + i * 0x10
def POOL_STRi_SIZE (d i : Nat) : Nat := dieBase d + 0x781004 + i * 0x10
def POOL_STRi_INFO (d i : Nat) : Nat := dieBase d + 0x781008 + i * 0x10

/-! DEC: 14_reference_pool_and_decode.md, R307. -/
def DEC_STATUS (d : Nat) : Nat := dieBase d + 0x7C0000
def DEC_CFG (d : Nat) : Nat := dieBase d + 0x7C0004
def DEC_STRi_CFG (d i : Nat) : Nat := dieBase d + 0x7C1000 + i * 0x40
def DEC_STRi_SIZE (d i : Nat) : Nat := dieBase d + 0x7C1004 + i * 0x40
def DEC_STRi_RATE (d i : Nat) : Nat := dieBase d + 0x7C1008 + i * 0x40
def DEC_STRi_STATUS (d i : Nat) : Nat := dieBase d + 0x7C1010 + i * 0x40
def DEC_STRi_PIC (d i : Nat) : Nat := dieBase d + 0x7C1014 + i * 0x40
def DEC_STRi_CNT_A (d i : Nat) : Nat := dieBase d + 0x7C1018 + i * 0x40
def DEC_STRi_CNT_B (d i : Nat) : Nat := dieBase d + 0x7C101C + i * 0x40
def DEC_STRi_CNT_C (d i : Nat) : Nat := dieBase d + 0x7C1020 + i * 0x40

/-! PKT: 15_output_transport_and_shaping.md, R330. -/
def PKT_FLOWf_CFG (f : Nat) : Nat := 0x610000 + f * 0x40
def PKT_STATUS : Nat := 0x600000
def PKT_CUR_SEL : Nat := 0x600010
def PKT_CUR_DATA : Nat := 0x600014
def PKT_FLOWf_SIZE (f : Nat) : Nat := 0x610004 + f * 0x40
def PKT_FLOWf_DST_IP (f : Nat) : Nat := 0x610008 + f * 0x40
def PKT_FLOWf_PORTS (f : Nat) : Nat := 0x61000C + f * 0x40
def PKT_FLOWf_SRC_IP (f : Nat) : Nat := 0x610010 + f * 0x40
def PKT_FLOWf_MAC_LO (f : Nat) : Nat := 0x610014 + f * 0x40
def PKT_FLOWf_MAC_HI (f : Nat) : Nat := 0x610018 + f * 0x40
def PKT_FLOWf_RTP (f : Nat) : Nat := 0x61001C + f * 0x40
def PKT_FLOWf_SSRC (f : Nat) : Nat := 0x610020 + f * 0x40
def PKT_FLOWf_TS (f : Nat) : Nat := 0x610024 + f * 0x40
def PKT_FLOWf_RING (f : Nat) : Nat := 0x610028 + f * 0x40
def PKT_FLOWf_STATUS (f : Nat) : Nat := 0x610030 + f * 0x40
def PKT_FLOWf_CNT (f : Nat) : Nat := 0x610034 + f * 0x40
def PKT_STRs_STATUS (s : Nat) : Nat := 0x640000 + s * 0x10
def PKT_STRs_CNT_A (s : Nat) : Nat := 0x640004 + s * 0x10
def PKT_STRs_CNT_B (s : Nat) : Nat := 0x640008 + s * 0x10

/-! WHL: 15_output_transport_and_shaping.md, R331. -/
def WHL_STATUS : Nat := 0x680000
def WHL_NOW : Nat := 0x680004
def WHL_LAG : Nat := 0x680008
def WHL_COUNT : Nat := 0x68000C
def WHL_SAMPLE : Nat := 0x680010
def WHL_SMP_MASKw (w : Nat) : Nat := 0x680020 + w * 0x4
def WHL_HIST_SEL : Nat := 0x680080
def WHL_HIST_DATA : Nat := 0x680084
def WHL_HIST_CLR : Nat := 0x680088
def WHL_Qq_SHAPE (q : Nat) : Nat := 0x681000 + q * 0x10
def WHL_Qq_DEPTH (q : Nat) : Nat := 0x681004 + q * 0x10
def WHL_Qq_HEAD (q : Nat) : Nat := 0x681008 + q * 0x10
def WHL_Qq_DROPS (q : Nat) : Nat := 0x68100C + q * 0x10

/-! GATE: 15_output_transport_and_shaping.md, R332. -/
def GATE_p_CTL (p : Nat) : Nat := 0x700000 + p * 0x2000
def GATE_p_ADMIN_NS (p : Nat) : Nat := 0x700004 + p * 0x2000
def GATE_p_ADMIN_SEC_LO (p : Nat) : Nat := 0x700008 + p * 0x2000
def GATE_p_ADMIN_SEC_HI (p : Nat) : Nat := 0x70000C + p * 0x2000
def GATE_p_ADMIN_CYCLE (p : Nat) : Nat := 0x700010 + p * 0x2000
def GATE_p_ADMIN_LEN (p : Nat) : Nat := 0x700014 + p * 0x2000
def GATE_p_STATUS (p : Nat) : Nat := 0x700020 + p * 0x2000
def GATE_p_CHG_NS (p : Nat) : Nat := 0x700024 + p * 0x2000
def GATE_p_CHG_SEC_LO (p : Nat) : Nat := 0x700028 + p * 0x2000
def GATE_p_CHG_SEC_HI (p : Nat) : Nat := 0x70002C + p * 0x2000
def GATE_p_CNT (p : Nat) : Nat := 0x700030 + p * 0x2000
def GATE_p_OPER_CYCLE (p : Nat) : Nat := 0x700040 + p * 0x2000
def GATE_p_OPER_LEN (p : Nat) : Nat := 0x700044 + p * 0x2000
def GATE_p_ADMINe (p e : Nat) : Nat := 0x700800 + p * 0x2000 + e * 0x4
def GATE_p_OPERe (p e : Nat) : Nat := 0x700C00 + p * 0x2000 + e * 0x4

/-! AUD: 16_audio_ports.md, R348. -/
def AUD_Pp_CFG (p : Nat) : Nat := 0x801000 + p * 0x40
def AUD_STATUS : Nat := 0x800000
def AUD_Pp_DIV (p : Nat) : Nat := 0x801004 + p * 0x40
def AUD_Pp_PHASE (p : Nat) : Nat := 0x801008 + p * 0x40
def AUD_Pp_STATUS (p : Nat) : Nat := 0x80100C + p * 0x40
def AUD_Pp_CNT (p : Nat) : Nat := 0x801010 + p * 0x40
def AUD_Pp_PPM (p : Nat) : Nat := 0x801014 + p * 0x40
def AUD_Pp_ERR (p : Nat) : Nat := 0x801018 + p * 0x40
def AUD_STRa_CFG (a : Nat) : Nat := 0x802000 + a * 0x40
def AUD_STRa_MASK_LO (a : Nat) : Nat := 0x802004 + a * 0x40
def AUD_STRa_MASK_HI (a : Nat) : Nat := 0x802008 + a * 0x40
def AUD_STRa_SIZE (a : Nat) : Nat := 0x80200C + a * 0x40
def AUD_STRa_BASE_LO (a : Nat) : Nat := 0x802010 + a * 0x40
def AUD_STRa_BASE_HI (a : Nat) : Nat := 0x802014 + a * 0x40
def AUD_STRa_SIDE_LO (a : Nat) : Nat := 0x802018 + a * 0x40
def AUD_STRa_SIDE_HI (a : Nat) : Nat := 0x80201C + a * 0x40
def AUD_STRa_PASID (a : Nat) : Nat := 0x802020 + a * 0x40
def AUD_STRa_HOST (a : Nat) : Nat := 0x802024 + a * 0x40
def AUD_STRa_IDX (a : Nat) : Nat := 0x802028 + a * 0x40
def AUD_STRa_M0_LO (a : Nat) : Nat := 0x80202C + a * 0x40
def AUD_STRa_M0_HI (a : Nat) : Nat := 0x802030 + a * 0x40
def AUD_STRa_STATUS (a : Nat) : Nat := 0x802034 + a * 0x40
def AUD_STRa_CNT_A (a : Nat) : Nat := 0x802038 + a * 0x40
def AUD_STRa_CNT_B (a : Nat) : Nat := 0x80203C + a * 0x40
def AUD_SETs_STATUS (s : Nat) : Nat := 0x808000 + s * 0x10
def AUD_SETs_CNT (s : Nat) : Nat := 0x808004 + s * 0x10

/-! PAIR: 17_redundancy.md, R372. -/
def PAIR_n_CFG (n : Nat) : Nat := 0x900100 + n * 0x40
def PAIR_n_CTL (n : Nat) : Nat := 0x900110 + n * 0x40
def PAIR_n_STATUS (n : Nat) : Nat := 0x900114 + n * 0x40
def PAIR_STATUS : Nat := 0x900000
def PAIR_n_SIDE_A (n : Nat) : Nat := 0x900104 + n * 0x40
def PAIR_n_SIDE_B (n : Nat) : Nat := 0x900108 + n * 0x40
def PAIR_n_LEASE (n : Nat) : Nat := 0x90010C + n * 0x40
def PAIR_n_ID (n : Nat) : Nat := 0x900118 + n * 0x40
def PAIR_n_AT_LO (n : Nat) : Nat := 0x90011C + n * 0x40
def PAIR_n_AT_HI (n : Nat) : Nat := 0x900120 + n * 0x40
def PAIR_n_TERM (n : Nat) : Nat := 0x900124 + n * 0x40
def PAIR_n_LEASE_LEFT (n : Nat) : Nat := 0x900128 + n * 0x40
def PAIR_n_GRAFT (n : Nat) : Nat := 0x90012C + n * 0x40
def PAIR_n_CFGCRC (n : Nat) : Nat := 0x900130 + n * 0x40
def PAIR_n_CNT_A (n : Nat) : Nat := 0x900134 + n * 0x40
def PAIR_n_CNT_B (n : Nat) : Nat := 0x900138 + n * 0x40
def PAIR_n_HB (n : Nat) : Nat := 0x90013C + n * 0x40

/-! TWIN: 17_redundancy.md, R373. -/
def TWIN_CFG : Nat := 0x980000
def TWIN_WIT_IP : Nat := 0x980004
def TWIN_SRC_IP : Nat := 0x980008
def TWIN_WIT_PORT : Nat := 0x98000C
def TWIN_KEY (w : Nat) : Nat := 0x980010 + w * 0x4
def TWIN_UNIT_LO : Nat := 0x980020
def TWIN_UNIT_HI : Nat := 0x980024
def TWIN_PEER_LO : Nat := 0x980028
def TWIN_PEER_HI : Nat := 0x98002C
def TWIN_STATUS : Nat := 0x980030
def TWIN_MBOX_BASE_LO : Nat := 0x980034
def TWIN_MBOX_BASE_HI : Nat := 0x980038
def TWIN_MBOX_VEC : Nat := 0x98003C
def TWIN_MBOX_HOSTIDX : Nat := 0x980040
def TWIN_MBOX_IDX : Nat := 0x980044
def TWIN_CNT_A : Nat := 0x980048
def TWIN_CNT_B : Nat := 0x98004C
def TWIN_MIRRORk (k : Nat) : Nat := 0x980080 + k * 0x4

/-! HBM: 18_memory_subsystem.md, R388. -/
def HBM_CTL (d : Nat) : Nat := dieBase d + 0x800000
def HBM_STATUS (d : Nat) : Nat := dieBase d + 0x800004
def HBM_CFG (d : Nat) : Nat := dieBase d + 0x800008
def HBM_TIMING (d : Nat) : Nat := dieBase d + 0x80000C
def HBM_RH_CFG (d : Nat) : Nat := dieBase d + 0x800010
def HBM_TEMP (d : Nat) : Nat := dieBase d + 0x800014
def HBM_CNT_REF (d : Nat) : Nat := dieBase d + 0x800018
def HBM_CNT_RH (d : Nat) : Nat := dieBase d + 0x80001C
def HBM_CNT_ECC (d : Nat) : Nat := dieBase d + 0x800020
def HBM_ECC_ADDR (d : Nat) : Nat := dieBase d + 0x800024
def HBM_ECC_LIMIT (d : Nat) : Nat := dieBase d + 0x800028
def HBM_MAPk_BASE (d k : Nat) : Nat := dieBase d + 0x800100 + k * 0x10
def HBM_MAPk_SIZE (d k : Nat) : Nat := dieBase d + 0x800104 + k * 0x10
def HBM_MAPk_CFG (d k : Nat) : Nat := dieBase d + 0x800108 + k * 0x10
def HBM_TRAIN_CTL (d : Nat) : Nat := dieBase d + 0x800200
def HBM_TRAIN_SEED (d : Nat) : Nat := dieBase d + 0x800204
def HBM_TRAIN_STATUS (d : Nat) : Nat := dieBase d + 0x800208
def HBM_TRAIN_ERR_LO (d : Nat) : Nat := dieBase d + 0x80020C
def HBM_TRAIN_ERR_HI (d : Nat) : Nat := dieBase d + 0x800210
def HBM_DLY_SEL (d : Nat) : Nat := dieBase d + 0x800220
def HBM_DLY (d : Nat) : Nat := dieBase d + 0x800224
def HBM_1500_CMD (d : Nat) : Nat := dieBase d + 0x800240
def HBM_1500_STATUS (d : Nat) : Nat := dieBase d + 0x800244
def HBM_1500_DATAw (d w : Nat) : Nat := dieBase d + 0x800250 + w * 0x4

/-! LANE: 19_serial_lanes_and_link_test.md, R403, R404, R405. -/
def LANE_n_CFG (n : Nat) : Nat := laneBase n + 0x0
def LANE_n_CTL (n : Nat) : Nat := laneBase n + 0x4
def LANE_n_STATUS (n : Nat) : Nat := laneBase n + 0x8
def LANE_n_TMO (n : Nat) : Nat := laneBase n + 0xC
def LANE_n_PAT (n : Nat) : Nat := laneBase n + 0x10
def LANE_n_INJ (n : Nat) : Nat := laneBase n + 0x14
def LANE_n_TRATE (n : Nat) : Nat := laneBase n + 0x18
def LANE_n_TXEQ (n : Nat) : Nat := laneBase n + 0x1C
def LANE_n_EQ (n : Nat) : Nat := laneBase n + 0x20
def LANE_n_CNT (n : Nat) : Nat := laneBase n + 0x24
def LANE_n_ERR_LO (n : Nat) : Nat := laneBase n + 0x28
def LANE_n_ERR_HI (n : Nat) : Nat := laneBase n + 0x2C
def LANE_n_BITS_LO (n : Nat) : Nat := laneBase n + 0x30
def LANE_n_BITS_HI (n : Nat) : Nat := laneBase n + 0x34
def LANE_n_RELOCK (n : Nat) : Nat := laneBase n + 0x38
def LANE_ETHm_CFG (m : Nat) : Nat := 0xA05000 + m * 0x20
def LANE_ETHm_STATUS (m : Nat) : Nat := 0xA05004 + m * 0x20
def LANE_ETHm_FEC (m : Nat) : Nat := 0xA05008 + m * 0x20
def LANE_UCIk_STATUS (k : Nat) : Nat := 0xA06000 + k * 0x80
def LANE_UCIk_PAT (k : Nat) : Nat := 0xA06004 + k * 0x80
def LANE_UCIk_ERR (k : Nat) : Nat := 0xA06008 + k * 0x80
def LANE_UCIk_WORST (k : Nat) : Nat := 0xA0600C + k * 0x80
def LANE_UCIk_RETRY (k : Nat) : Nat := 0xA06010 + k * 0x80
def LANE_Qq_STATUS (q : Nat) : Nat := 0xA08000 + q * 0x10
def LANE_Qq_FREQ (q : Nat) : Nat := 0xA08004 + q * 0x10
def LANE_STATUS : Nat := 0xA00000

/-! FAB: 20_fabric_and_check_units.md, R419. -/
def FAB_REMAP (d : Nat) : Nat := dieBase d + 0xC00000
def FAB_ERR_INFO (d : Nat) : Nat := dieBase d + 0xC00004
def FAB_ERR_ADDR_LO (d : Nat) : Nat := dieBase d + 0xC00008
def FAB_ERR_ADDR_HI (d : Nat) : Nat := dieBase d + 0xC0000C
def FAB_Mm_QOS (d m : Nat) : Nat := dieBase d + 0xC00100 + m * 0x4
def FAB_Tt_ARB (d t : Nat) : Nat := dieBase d + 0xC00200 + t * 0x8
def FAB_Tt_CNT (d t : Nat) : Nat := dieBase d + 0xC00204 + t * 0x8

/-! CRC: 20_fabric_and_check_units.md, R420. -/
def CRC_k_CFG (d k : Nat) : Nat := dieBase d + 0xC80000 + k * 0x40
def CRC_k_CTL (d k : Nat) : Nat := dieBase d + 0xC80004 + k * 0x40
def CRC_k_VALUE (d k : Nat) : Nat := dieBase d + 0xC80008 + k * 0x40
def CRC_k_RESULT (d k : Nat) : Nat := dieBase d + 0xC8000C + k * 0x40
def CRC_k_SRC_LO (d k : Nat) : Nat := dieBase d + 0xC80010 + k * 0x40
def CRC_k_SRC_HI (d k : Nat) : Nat := dieBase d + 0xC80014 + k * 0x40
def CRC_k_DST_LO (d k : Nat) : Nat := dieBase d + 0xC80018 + k * 0x40
def CRC_k_DST_HI (d k : Nat) : Nat := dieBase d + 0xC8001C + k * 0x40
def CRC_k_LEN (d k : Nat) : Nat := dieBase d + 0xC80020 + k * 0x40
def CRC_k_BYTES (d k : Nat) : Nat := dieBase d + 0xC80024 + k * 0x40
def CRC_k_STATUS (d k : Nat) : Nat := dieBase d + 0xC80028 + k * 0x40
def CRC_k_CLAIM (d k : Nat) : Nat := dieBase d + 0xC8002C + k * 0x40
def CRC_k_DATA32 (d k : Nat) : Nat := dieBase d + 0xC80030 + k * 0x40
def CRC_k_DATA16 (d k : Nat) : Nat := dieBase d + 0xC80034 + k * 0x40
def CRC_k_DATA8 (d k : Nat) : Nat := dieBase d + 0xC80038 + k * 0x40

/-! REC: 21_ring_recorder.md, R432. -/
def REC_HEAD (d : Nat) : Nat := dieBase d + 0xD00000
def REC_TAIL (d : Nat) : Nat := dieBase d + 0xD00004
def REC_CFG (d : Nat) : Nat := dieBase d + 0xD00008
def REC_CNT (d : Nat) : Nat := dieBase d + 0xD0000C
def REC_STREAM : Nat := 0xD00020
def REC_CNT_S : Nat := 0xD00024
def REC_FILTf_PATH (f : Nat) : Nat := 0xD00030 + f * 0x8
def REC_FILTf_CFG (f : Nat) : Nat := 0xD00034 + f * 0x8
def REC_CHALw (w : Nat) : Nat := 0xD00080 + w * 0x4
def REC_CLR_UPTO : Nat := 0xD00090
def REC_CLR_DIE : Nat := 0xD00094
def REC_MACw (w : Nat) : Nat := 0xD000A0 + w * 0x4
def REC_CLR_CTL : Nat := 0xD000B0
def REC_CLR_STATUS : Nat := 0xD000B4

/-! RST: 22_reset_power_boot_modes.md, R458. -/
def RST_CAUSE (d : Nat) : Nat := dieBase d + 0xE00000
def RST_GLOBAL : Nat := 0xE00004
def RST_ISO (d : Nat) : Nat := dieBase d + 0xE00008
def RST_WDT_CFG (d : Nat) : Nat := dieBase d + 0xE0000C
def RST_WDT_KICK (d : Nat) : Nat := dieBase d + 0xE00010
def RST_WDT_LEFT (d : Nat) : Nat := dieBase d + 0xE00014
def RST_DOM_STATUS (d : Nat) : Nat := dieBase d + 0xE00018
def RST_CFG : Nat := 0xE0001C
def RST_STATUS (d : Nat) : Nat := dieBase d + 0xE00020
def RST_GRVj_PATH (j : Nat) : Nat := 0xE00100 + j * 0x8
def RST_GRVj_CTL (j : Nat) : Nat := 0xE00104 + j * 0x8

/-! PWR: 22_reset_power_boot_modes.md, R459, R461. -/
def PWR_MODE : Nat := 0xE80000
def PWR_DOM_COUNT (d : Nat) : Nat := dieBase d + 0xE80004
def PWR_THERM_CFG (d : Nat) : Nat := dieBase d + 0xE80020
def PWR_THERM_STATUS (d : Nat) : Nat := dieBase d + 0xE80024
def PWR_SLOTj_PATH (j : Nat) : Nat := 0xE80100 + j * 0x8
def PWR_SLOTj_CTL (j : Nat) : Nat := 0xE80104 + j * 0x8
def PWR_THERM_SENSs (d s : Nat) : Nat := periphBase d + 0x10040000 + s * 0x4

/-! BOOT: 22_reset_power_boot_modes.md, R460, R461. -/
def BOOT_STRAPS : Nat := 0xF00000
def BOOT_STATUS (d : Nat) : Nat := dieBase d + 0xF00004
def BOOT_MBOX_LEN : Nat := 0xF00008
def BOOT_MBOX_CTL : Nat := 0xF0000C
def BOOT_CORES (d : Nat) : Nat := dieBase d + 0xF00010
def BOOT_SPI_CMD (d : Nat) : Nat := periphBase d + 0x10000000
def BOOT_SPI_ADDR (d : Nat) : Nat := periphBase d + 0x10000004
def BOOT_SPI_LEN (d : Nat) : Nat := periphBase d + 0x10000008
def BOOT_SPI_DST (d : Nat) : Nat := periphBase d + 0x1000000C
def BOOT_SPI_STATUS (d : Nat) : Nat := periphBase d + 0x10000010
def BOOT_GPIO_IN (d : Nat) : Nat := periphBase d + 0x10030000
def BOOT_GPIO_OUT (d : Nat) : Nat := periphBase d + 0x10030004
def BOOT_GPIO_OE (d : Nat) : Nat := periphBase d + 0x10030008

end Sys2Proof.Machine.R

namespace Sys2Proof.Machine.F

/-! LT: 02_line_time.md, R56. -/
def LT_XLATCH_CAPTURE : Fld := ⟨R.LT_XLATCH, 0, 1⟩
def LT_TLn_CFG_BASE (n : Nat) : Fld := ⟨R.LT_TLn_CFG n, 0, 8⟩
def LT_TLn_CFG_DROP (n : Nat) : Fld := ⟨R.LT_TLn_CFG n, 8, 1⟩
def LT_TLn_CFG_TPF (n : Nat) : Fld := ⟨R.LT_TLn_CFG n, 10, 14⟩
def LT_TLn_CTL_EN (n : Nat) : Fld := ⟨R.LT_TLn_CTL n, 0, 1⟩
def LT_TLn_CTL_FREERUN (n : Nat) : Fld := ⟨R.LT_TLn_CTL n, 1, 1⟩
def LT_TLn_STATUS_STATE (n : Nat) : Fld := ⟨R.LT_TLn_STATUS n, 0, 3⟩
def LT_TLn_STATUS_REASON (n : Nat) : Fld := ⟨R.LT_TLn_STATUS n, 16, 16⟩
def LT_TLn_FRAME_SET_LO_FRAME_LO (n : Nat) : Fld := ⟨R.LT_TLn_FRAME_SET_LO n, 0, 32⟩
def LT_TLn_FRAME_SET_HI_FRAME_HI (n : Nat) : Fld := ⟨R.LT_TLn_FRAME_SET_HI n, 0, 16⟩
def LT_TLn_EPOCH_HI_COUNT_HI (n : Nat) : Fld := ⟨R.LT_TLn_EPOCH_HI n, 0, 12⟩
def LT_TLn_NOW_LO_STAMP_LO (n : Nat) : Fld := ⟨R.LT_TLn_NOW_LO n, 0, 32⟩
def LT_TLn_NOW_HI_STAMP_HI (n : Nat) : Fld := ⟨R.LT_TLn_NOW_HI n, 0, 32⟩
def LT_TLn_XCAP_LO_XCAP_LO (n : Nat) : Fld := ⟨R.LT_TLn_XCAP_LO n, 0, 32⟩
def LT_TLn_XCAP_HI_XCAP_HI (n : Nat) : Fld := ⟨R.LT_TLn_XCAP_HI n, 0, 32⟩
def LT_TLn_XCAP_EPOCH_XCAP_EPOCH (n : Nat) : Fld := ⟨R.LT_TLn_XCAP_EPOCH n, 0, 12⟩
def LT_CHc_MAP_TL (c : Nat) : Fld := ⟨R.LT_CHc_MAP c, 0, 2⟩
def LT_CHc_MAP_RATIO (c : Nat) : Fld := ⟨R.LT_CHc_MAP c, 2, 2⟩
def LT_CHc_MAP_LINES (c : Nat) : Fld := ⟨R.LT_CHc_MAP c, 4, 14⟩
def LT_CHc_MAP_HALF_PHASE (c : Nat) : Fld := ⟨R.LT_CHc_MAP c, 18, 1⟩
def LT_CHc_PHASE_FRAC (c : Nat) : Fld := ⟨R.LT_CHc_PHASE c, 0, 12⟩
def LT_CHc_PHASE_TICK (c : Nat) : Fld := ⟨R.LT_CHc_PHASE c, 12, 14⟩
def LT_CHc_DELAY_D (c : Nat) : Fld := ⟨R.LT_CHc_DELAY c, 0, 14⟩
def LT_CHc_DELAY_TOTAL (c : Nat) : Fld := ⟨R.LT_CHc_DELAY c, 16, 16⟩
def LT_CHc_STATUS_DMIN (c : Nat) : Fld := ⟨R.LT_CHc_STATUS c, 0, 14⟩
def LT_CHc_STATUS_REASON (c : Nat) : Fld := ⟨R.LT_CHc_STATUS c, 16, 16⟩

/-! SEL: 03_reference_selection.md, R71. -/
def SEL_REFk_CFG_EN (k : Nat) : Fld := ⟨R.SEL_REFk_CFG k, 0, 1⟩
def SEL_REFk_CFG_SRC (k : Nat) : Fld := ⟨R.SEL_REFk_CFG k, 1, 7⟩
def SEL_REFk_CFG_BASE (k : Nat) : Fld := ⟨R.SEL_REFk_CFG k, 8, 8⟩
def SEL_REFk_CFG_DROP (k : Nat) : Fld := ⟨R.SEL_REFk_CFG k, 16, 1⟩
def SEL_REFk_CFG_TOL (k : Nat) : Fld := ⟨R.SEL_REFk_CFG k, 17, 10⟩
def SEL_REFk_QUAL_HYST (k : Nat) : Fld := ⟨R.SEL_REFk_QUAL k, 0, 8⟩
def SEL_REFk_QUAL_DWELL (k : Nat) : Fld := ⟨R.SEL_REFk_QUAL k, 8, 8⟩
def SEL_REFk_QUAL_WTR (k : Nat) : Fld := ⟨R.SEL_REFk_QUAL k, 16, 8⟩
def SEL_REFk_QUAL_GLITCH_MAX (k : Nat) : Fld := ⟨R.SEL_REFk_QUAL k, 24, 8⟩
def SEL_REFk_MTIE_MTIE_NS (k : Nat) : Fld := ⟨R.SEL_REFk_MTIE k, 0, 16⟩
def SEL_REFk_MTIE_WIN (k : Nat) : Fld := ⟨R.SEL_REFk_MTIE k, 16, 8⟩
def SEL_REFk_COMP_COMP (k : Nat) : Fld := ⟨R.SEL_REFk_COMP k, 0, 20⟩
def SEL_REFk_STATUS_STATE (k : Nat) : Fld := ⟨R.SEL_REFk_STATUS k, 0, 3⟩
def SEL_REFk_STATUS_CAUSE (k : Nat) : Fld := ⟨R.SEL_REFk_STATUS k, 4, 4⟩
def SEL_REFk_STATUS_OFFSET (k : Nat) : Fld := ⟨R.SEL_REFk_STATUS k, 16, 16⟩
def SEL_REFk_COUNT_GLITCHES (k : Nat) : Fld := ⟨R.SEL_REFk_COUNT k, 0, 16⟩
def SEL_REFk_COUNT_DISQ (k : Nat) : Fld := ⟨R.SEL_REFk_COUNT k, 16, 16⟩
def SEL_PRIOe_EN (e : Nat) : Fld := ⟨R.SEL_PRIOe e, 0, 1⟩
def SEL_PRIOe_REF (e : Nat) : Fld := ⟨R.SEL_PRIOe e, 1, 4⟩
def SEL_PRIOe_TL_MASK (e : Nat) : Fld := ⟨R.SEL_PRIOe e, 5, 4⟩
def SEL_TLn_CTL_REVERT (n : Nat) : Fld := ⟨R.SEL_TLn_CTL n, 0, 1⟩
def SEL_TLn_CTL_FORCE_EN (n : Nat) : Fld := ⟨R.SEL_TLn_CTL n, 1, 1⟩
def SEL_TLn_CTL_FORCE_REF (n : Nat) : Fld := ⟨R.SEL_TLn_CTL n, 2, 4⟩
def SEL_TLn_CTL_BETTER_CLR (n : Nat) : Fld := ⟨R.SEL_TLn_CTL n, 6, 1⟩
def SEL_TLn_SLOPE_SLOPE (n : Nat) : Fld := ⟨R.SEL_TLn_SLOPE n, 0, 14⟩
def SEL_TLn_STEP_AMOUNT (n : Nat) : Fld := ⟨R.SEL_TLn_STEP n, 0, 32⟩
def SEL_TLn_HOLDCFG_AVG_MIN (n : Nat) : Fld := ⟨R.SEL_TLn_HOLDCFG n, 0, 8⟩
def SEL_TLn_HOLDCFG_GUARD_MIN (n : Nat) : Fld := ⟨R.SEL_TLn_HOLDCFG n, 8, 4⟩
def SEL_TLn_STATUS_MODE (n : Nat) : Fld := ⟨R.SEL_TLn_STATUS n, 0, 2⟩
def SEL_TLn_STATUS_TARGET (n : Nat) : Fld := ⟨R.SEL_TLn_STATUS n, 2, 4⟩
def SEL_TLn_STATUS_BETTER (n : Nat) : Fld := ⟨R.SEL_TLn_STATUS n, 6, 1⟩
def SEL_TLn_STATUS_HIST_SHORT (n : Nat) : Fld := ⟨R.SEL_TLn_STATUS n, 7, 1⟩
def SEL_TLn_STATUS_REASON (n : Nat) : Fld := ⟨R.SEL_TLn_STATUS n, 16, 16⟩
def SEL_TLn_PERR_ERROR (n : Nat) : Fld := ⟨R.SEL_TLn_PERR n, 0, 32⟩
def SEL_TLn_PEND_PENDING (n : Nat) : Fld := ⟨R.SEL_TLn_PEND n, 0, 32⟩
def SEL_TLn_HOLDFREQ_FREQ (n : Nat) : Fld := ⟨R.SEL_TLn_HOLDFREQ n, 0, 32⟩
def SEL_HIST_SEL_TL : Fld := ⟨R.SEL_HIST_SEL, 0, 2⟩
def SEL_HIST_SEL_AGE : Fld := ⟨R.SEL_HIST_SEL, 2, 11⟩
def SEL_HIST_DATA_FREQ : Fld := ⟨R.SEL_HIST_DATA, 0, 31⟩
def SEL_HIST_DATA_VALID : Fld := ⟨R.SEL_HIST_DATA, 31, 1⟩

/-! PTP: 04_network_time.md, R82. -/
def PTP_CLK_CTL_AUTO_SET : Fld := ⟨R.PTP_CLK_CTL, 0, 1⟩
def PTP_CLK_CTL_SRC : Fld := ⟨R.PTP_CLK_CTL, 1, 1⟩
def PTP_CLK_CTL_SERVO : Fld := ⟨R.PTP_CLK_CTL, 2, 1⟩
def PTP_CLK_CTL_SET_REQ : Fld := ⟨R.PTP_CLK_CTL, 3, 1⟩
def PTP_CLK_CTL_REARM : Fld := ⟨R.PTP_CLK_CTL, 4, 1⟩
def PTP_CLK_CFG_RATE_MAX : Fld := ⟨R.PTP_CLK_CFG, 0, 10⟩
def PTP_CLK_CFG_BW : Fld := ⟨R.PTP_CLK_CFG, 10, 3⟩
def PTP_CLK_STATUS_SET : Fld := ⟨R.PTP_CLK_STATUS, 0, 1⟩
def PTP_CLK_STATUS_SERVO_STATE : Fld := ⟨R.PTP_CLK_STATUS, 1, 2⟩
def PTP_CLK_STATUS_REASON : Fld := ⟨R.PTP_CLK_STATUS, 16, 16⟩
def PTP_PPS_OUT_EN : Fld := ⟨R.PTP_PPS_OUT, 0, 1⟩
def PTP_PPS_OUT_WIDTH : Fld := ⟨R.PTP_PPS_OUT, 1, 10⟩
def PTP_CLK_JUMP_JUMP : Fld := ⟨R.PTP_CLK_JUMP, 0, 20⟩
def PTP_CLK_ADJ_ADJ : Fld := ⟨R.PTP_CLK_ADJ, 0, 32⟩
def PTP_CLK_SET_SEC_LO_SEC_LO : Fld := ⟨R.PTP_CLK_SET_SEC_LO, 0, 32⟩
def PTP_CLK_SET_SEC_HI_SEC_HI : Fld := ⟨R.PTP_CLK_SET_SEC_HI, 0, 16⟩
def PTP_CLK_SET_NS_NS : Fld := ⟨R.PTP_CLK_SET_NS, 0, 30⟩
def PTP_CLK_NS_NS : Fld := ⟨R.PTP_CLK_NS, 0, 30⟩
def PTP_CLK_SEC_LO_SEC_LO : Fld := ⟨R.PTP_CLK_SEC_LO, 0, 32⟩
def PTP_CLK_SEC_HI_SEC_HI : Fld := ⟨R.PTP_CLK_SEC_HI, 0, 16⟩
def PTP_CLK_STAMP_STAMP : Fld := ⟨R.PTP_CLK_STAMP, 0, 32⟩
def PTP_CLK_INCR_LO_FRAC : Fld := ⟨R.PTP_CLK_INCR_LO, 0, 32⟩
def PTP_CLK_INCR_HI_INT : Fld := ⟨R.PTP_CLK_INCR_HI, 0, 8⟩
def PTP_n_CFG_EN (n : Nat) : Fld := ⟨R.PTP_n_CFG n, 0, 1⟩
def PTP_n_CFG_DOMAIN (n : Nat) : Fld := ⟨R.PTP_n_CFG n, 1, 7⟩
def PTP_n_CFG_MAC (n : Nat) : Fld := ⟨R.PTP_n_CFG n, 8, 7⟩
def PTP_n_CFG_UNICAST_DREQ (n : Nat) : Fld := ⟨R.PTP_n_CFG n, 15, 1⟩
def PTP_n_CFG_ANN_TIMEOUT (n : Nat) : Fld := ⟨R.PTP_n_CFG n, 16, 4⟩
def PTP_n_STATUS_PORT_STATE (n : Nat) : Fld := ⟨R.PTP_n_STATUS n, 0, 4⟩
def PTP_n_STATUS_JUMP (n : Nat) : Fld := ⟨R.PTP_n_STATUS n, 4, 1⟩
def PTP_n_STATUS_UTC_VALID (n : Nat) : Fld := ⟨R.PTP_n_STATUS n, 5, 1⟩
def PTP_n_STATUS_REASON (n : Nat) : Fld := ⟨R.PTP_n_STATUS n, 16, 16⟩
def PTP_n_COUNT_SYNC_RX (n : Nat) : Fld := ⟨R.PTP_n_COUNT n, 0, 16⟩
def PTP_n_COUNT_IGNORED (n : Nat) : Fld := ⟨R.PTP_n_COUNT n, 16, 16⟩
def PTP_n_IPV4_ADDR (n : Nat) : Fld := ⟨R.PTP_n_IPV4 n, 0, 32⟩
def PTP_n_OFFSET_OFFSET (n : Nat) : Fld := ⟨R.PTP_n_OFFSET n, 0, 32⟩
def PTP_n_MPD_MPD (n : Nat) : Fld := ⟨R.PTP_n_MPD n, 0, 32⟩
def PTP_n_GMID_LO_GMID_LO (n : Nat) : Fld := ⟨R.PTP_n_GMID_LO n, 0, 32⟩
def PTP_n_GMID_HI_GMID_HI (n : Nat) : Fld := ⟨R.PTP_n_GMID_HI n, 0, 32⟩
def PTP_n_UTC_UTC_OFFSET (n : Nat) : Fld := ⟨R.PTP_n_UTC n, 0, 16⟩
def PTP_LATm_RX_RXLAT (m : Nat) : Fld := ⟨R.PTP_LATm_RX m, 0, 32⟩
def PTP_LATm_TX_TXLAT (m : Nat) : Fld := ⟨R.PTP_LATm_TX m, 0, 32⟩

/-! HIF: 05_host_interface_and_rings.md, R108. -/
def HIF_STATUS_MODE : Fld := ⟨R.HIF_STATUS, 0, 2⟩
def HIF_STATUS_WIDTH : Fld := ⟨R.HIF_STATUS, 2, 3⟩
def HIF_STATUS_RATE : Fld := ⟨R.HIF_STATUS, 5, 2⟩
def HIF_STATUS_FLIT256 : Fld := ⟨R.HIF_STATUS, 7, 1⟩
def HIF_STATUS_CACHE : Fld := ⟨R.HIF_STATUS, 8, 1⟩
def HIF_STATUS_MEM : Fld := ⟨R.HIF_STATUS, 9, 1⟩
def HIF_STATUS_DECODER : Fld := ⟨R.HIF_STATUS, 10, 1⟩
def HIF_STATUS_REASON : Fld := ⟨R.HIF_STATUS, 16, 16⟩
def HIF_CTL_DB_MODE : Fld := ⟨R.HIF_CTL, 0, 1⟩
def HIF_DB_CFG_HOLDOFF : Fld := ⟨R.HIF_DB_CFG, 0, 8⟩
def HIF_DB_CFG_POLL : Fld := ⟨R.HIF_DB_CFG, 8, 8⟩
def HIF_DB_CFG_STALL_MS : Fld := ⟨R.HIF_DB_CFG, 16, 8⟩
def HIF_COUNT_MMIO_DROP : Fld := ⟨R.HIF_COUNT, 0, 16⟩
def HIF_COUNT_GEN_STALLS : Fld := ⟨R.HIF_COUNT, 16, 16⟩
def HIF_HDMd_SIZE_GIB (d : Nat) : Fld := ⟨R.HIF_HDMd_SIZE d, 0, 5⟩

/-! RING: 05_host_interface_and_rings.md, R109. -/
def RING_r_CFG_KIND (r : Nat) : Fld := ⟨R.RING_r_CFG r, 0, 3⟩
def RING_r_CFG_LOG2 (r : Nat) : Fld := ⟨R.RING_r_CFG r, 3, 5⟩
def RING_r_CFG_CPL (r : Nat) : Fld := ⟨R.RING_r_CFG r, 8, 12⟩
def RING_r_CFG_TL (r : Nat) : Fld := ⟨R.RING_r_CFG r, 20, 2⟩
def RING_r_CTL_EN (r : Nat) : Fld := ⟨R.RING_r_CTL r, 0, 1⟩
def RING_r_BATCH_BATCH_MAX (r : Nat) : Fld := ⟨R.RING_r_BATCH r, 0, 8⟩
def RING_r_BATCH_BATCH_US (r : Nat) : Fld := ⟨R.RING_r_BATCH r, 8, 16⟩
def RING_r_BATCH_FLUSH_EN (r : Nat) : Fld := ⟨R.RING_r_BATCH r, 24, 1⟩
def RING_r_IRQ_VEC (r : Nat) : Fld := ⟨R.RING_r_IRQ r, 0, 11⟩
def RING_r_IRQ_IRQ_EN (r : Nat) : Fld := ⟨R.RING_r_IRQ r, 11, 1⟩
def RING_r_IRQ_GAP_US (r : Nat) : Fld := ⟨R.RING_r_IRQ r, 12, 16⟩
def RING_r_STATUS_STATE (r : Nat) : Fld := ⟨R.RING_r_STATUS r, 0, 2⟩
def RING_r_STATUS_GEN_STALL (r : Nat) : Fld := ⟨R.RING_r_STATUS r, 2, 1⟩
def RING_r_STATUS_FULL (r : Nat) : Fld := ⟨R.RING_r_STATUS r, 3, 1⟩
def RING_r_STATUS_REASON (r : Nat) : Fld := ⟨R.RING_r_STATUS r, 16, 16⟩
def RING_r_COUNT_STALE_DB (r : Nat) : Fld := ⟨R.RING_r_COUNT r, 0, 16⟩
def RING_r_COUNT_LOST (r : Nat) : Fld := ⟨R.RING_r_COUNT r, 16, 16⟩
def RING_r_BASE_LO_BASE_LO (r : Nat) : Fld := ⟨R.RING_r_BASE_LO r, 0, 32⟩
def RING_r_BASE_HI_BASE_HI (r : Nat) : Fld := ⟨R.RING_r_BASE_HI r, 0, 32⟩
def RING_r_DB_LO_DB_LO (r : Nat) : Fld := ⟨R.RING_r_DB_LO r, 0, 32⟩
def RING_r_DB_HI_DB_HI (r : Nat) : Fld := ⟨R.RING_r_DB_HI r, 0, 32⟩
def RING_r_WB_LO_WB_LO (r : Nat) : Fld := ⟨R.RING_r_WB_LO r, 0, 32⟩
def RING_r_WB_HI_WB_HI (r : Nat) : Fld := ⟨R.RING_r_WB_HI r, 0, 32⟩
def RING_r_DBGEN_DBGEN (r : Nat) : Fld := ⟨R.RING_r_DBGEN r, 0, 32⟩
def RING_r_FLUSH_TICK (r : Nat) : Fld := ⟨R.RING_r_FLUSH r, 0, 14⟩
def RING_r_HEAD_HEAD (r : Nat) : Fld := ⟨R.RING_r_HEAD r, 0, 32⟩
def RING_r_HOSTIDX_HOSTIDX (r : Nat) : Fld := ⟨R.RING_r_HOSTIDX r, 0, 32⟩

/-! XLT: 06_faults_and_preemption.md, R129, R130. -/
def XLT_CFG_PARK_HOLD : Fld := ⟨R.XLT_CFG, 0, 8⟩
def XLT_CFG_PRI_TIMEOUT : Fld := ⟨R.XLT_CFG, 8, 16⟩
def XLT_CFG_PREFETCH : Fld := ⟨R.XLT_CFG, 24, 1⟩
def XLT_STATUS_ATS_EN : Fld := ⟨R.XLT_STATUS, 0, 1⟩
def XLT_STATUS_PRI_EN : Fld := ⟨R.XLT_STATUS, 1, 1⟩
def XLT_STATUS_PRI_STOPPED : Fld := ⟨R.XLT_STATUS, 2, 1⟩
def XLT_STATUS_PASID_EN : Fld := ⟨R.XLT_STATUS, 3, 1⟩
def XLT_STATUS_REASON : Fld := ⟨R.XLT_STATUS, 16, 16⟩
def XLT_FLUSH_FLUSH : Fld := ⟨R.XLT_FLUSH, 0, 1⟩
def XLT_COUNT_HIT_HITS : Fld := ⟨R.XLT_COUNT_HIT, 0, 32⟩
def XLT_COUNT_MISS_MISSES : Fld := ⟨R.XLT_COUNT_MISS, 0, 32⟩
def XLT_COUNT_FAULT_FAULTS : Fld := ⟨R.XLT_COUNT_FAULT, 0, 16⟩
def XLT_COUNT_FAULT_ORPHAN : Fld := ⟨R.XLT_COUNT_FAULT, 16, 16⟩
def XLT_PRI_OUTSTANDING : Fld := ⟨R.XLT_PRI, 0, 10⟩
def XLT_PRI_PEAK : Fld := ⟨R.XLT_PRI, 16, 10⟩
def XLT_INVAL_RECEIVED : Fld := ⟨R.XLT_INVAL, 0, 16⟩
def XLT_INVAL_SLOW : Fld := ⟨R.XLT_INVAL, 16, 16⟩
def XLT_PARK_PARKED : Fld := ⟨R.XLT_PARK, 0, 14⟩
def XLT_PARK_PEAK : Fld := ⟨R.XLT_PARK, 16, 14⟩
def XLT_PASIDr_PASID (r : Nat) : Fld := ⟨R.XLT_PASIDr r, 0, 20⟩
def XLT_PASIDr_PEN (r : Nat) : Fld := ⟨R.XLT_PASIDr r, 20, 1⟩
def XLT_SPILLr_BASE_PAGE (r : Nat) : Fld := ⟨R.XLT_SPILLr_BASE r, 0, 23⟩
def XLT_SPILLr_CFG_CROWN (r : Nat) : Fld := ⟨R.XLT_SPILLr_CFG r, 0, 3⟩
def XLT_SPILLr_CFG_SIZE (r : Nat) : Fld := ⟨R.XLT_SPILLr_CFG r, 3, 11⟩
def XLT_SPILLr_STATUS_STATE (r : Nat) : Fld := ⟨R.XLT_SPILLr_STATUS r, 0, 2⟩
def XLT_SPILLr_STATUS_FILL (r : Nat) : Fld := ⟨R.XLT_SPILLr_STATUS r, 2, 21⟩
def XLT_SPILLr_COUNT_DISCARDED (r : Nat) : Fld := ⟨R.XLT_SPILLr_COUNT r, 0, 32⟩

/-! STG: 07_staging_and_consistency.md, R151. -/
def STG_CFG_HOLD_MS : Fld := ⟨R.STG_CFG, 0, 8⟩
def STG_STATUS_BUF_FREE : Fld := ⟨R.STG_STATUS, 0, 3⟩
def STG_STATUS_REASON : Fld := ⟨R.STG_STATUS, 16, 16⟩
def STG_WSEL_SET : Fld := ⟨R.STG_WSEL, 0, 3⟩
def STG_WSEL_OPEN : Fld := ⟨R.STG_WSEL, 3, 1⟩
def STG_CTL_OP : Fld := ⟨R.STG_CTL, 0, 2⟩
def STG_CTL_SET : Fld := ⟨R.STG_CTL, 4, 3⟩
def STG_CTL_ANY : Fld := ⟨R.STG_CTL, 7, 1⟩
def STG_CTL_TL : Fld := ⟨R.STG_CTL, 8, 2⟩
def STG_COUNT_DIRECT_DROP : Fld := ⟨R.STG_COUNT, 0, 16⟩
def STG_COUNT_REFUSED : Fld := ⟨R.STG_COUNT, 16, 16⟩
def STG_PEEK_INFO_ST : Fld := ⟨R.STG_PEEK_INFO, 0, 1⟩
def STG_PEEK_INFO_CLAIMED : Fld := ⟨R.STG_PEEK_INFO, 1, 1⟩
def STG_PEEK_INFO_SET : Fld := ⟨R.STG_PEEK_INFO, 2, 3⟩
def STG_GROVE_INFO_DECLARED : Fld := ⟨R.STG_GROVE_INFO, 0, 1⟩
def STG_GROVE_INFO_BOUND : Fld := ⟨R.STG_GROVE_INFO, 1, 1⟩
def STG_GROVE_INFO_PENDING : Fld := ⟨R.STG_GROVE_INFO, 2, 1⟩
def STG_GROVE_INFO_SET : Fld := ⟨R.STG_GROVE_INFO, 3, 3⟩
def STG_SETs_STATUS_STATE (s : Nat) : Fld := ⟨R.STG_SETs_STATUS s, 0, 2⟩
def STG_SETs_STATUS_TL (s : Nat) : Fld := ⟨R.STG_SETs_STATUS s, 2, 2⟩
def STG_SETs_STATUS_REASON (s : Nat) : Fld := ⟨R.STG_SETs_STATUS s, 16, 16⟩
def STG_SETs_CLAIMS_REGS (s : Nat) : Fld := ⟨R.STG_SETs_CLAIMS s, 0, 16⟩
def STG_SETs_CLAIMS_GROVES (s : Nat) : Fld := ⟨R.STG_SETs_CLAIMS s, 16, 11⟩
def STG_STAMP_LO_STAMP_LO : Fld := ⟨R.STG_STAMP_LO, 0, 32⟩
def STG_STAMP_HI_STAMP_HI : Fld := ⟨R.STG_STAMP_HI, 0, 32⟩
def STG_PEEK_ADDR_OFFSET : Fld := ⟨R.STG_PEEK_ADDR, 0, 29⟩
def STG_PEEK_DATA_DATA : Fld := ⟨R.STG_PEEK_DATA, 0, 32⟩
def STG_GROVE_SEL_GROVE : Fld := ⟨R.STG_GROVE_SEL, 0, 10⟩
def STG_GROVE_SEL_WORD : Fld := ⟨R.STG_GROVE_SEL, 16, 6⟩
def STG_GROVE_DATA_DATA : Fld := ⟨R.STG_GROVE_DATA, 0, 32⟩
def STG_SETs_STAMP_LO_STAMP_LO (s : Nat) : Fld := ⟨R.STG_SETs_STAMP_LO s, 0, 32⟩
def STG_SETs_STAMP_HI_STAMP_HI (s : Nat) : Fld := ⟨R.STG_SETs_STAMP_HI s, 0, 32⟩
def STG_SETs_APPLIED_COUNT (s : Nat) : Fld := ⟨R.STG_SETs_APPLIED s, 0, 32⟩

/-! SCH: 08_task_scheduler.md, R169. -/
def SCH_STATUS_LIVE (d : Nat) : Fld := ⟨R.SCH_STATUS d, 0, 16⟩
def SCH_STATUS_REASON (d : Nat) : Fld := ⟨R.SCH_STATUS d, 16, 16⟩
def SCH_TASK_SEL_TASK (d : Nat) : Fld := ⟨R.SCH_TASK_SEL d, 0, 16⟩
def SCH_COUNT_A_CANCEL_UNRUN (d : Nat) : Fld := ⟨R.SCH_COUNT_A d, 0, 16⟩
def SCH_COUNT_A_DISPLACED (d : Nat) : Fld := ⟨R.SCH_COUNT_A d, 16, 16⟩
def SCH_COUNT_B_PREEMPT (d : Nat) : Fld := ⟨R.SCH_COUNT_B d, 0, 16⟩
def SCH_COUNT_B_DEADLINE (d : Nat) : Fld := ⟨R.SCH_COUNT_B d, 16, 16⟩
def SCH_USEC_LO_USEC_LO (d : Nat) : Fld := ⟨R.SCH_USEC_LO d, 0, 32⟩
def SCH_USEC_HI_USEC_HI (d : Nat) : Fld := ⟨R.SCH_USEC_HI d, 0, 32⟩
def SCH_TASK_DATAw_DATA (d w : Nat) : Fld := ⟨R.SCH_TASK_DATAw d w, 0, 32⟩
def SCH_READYb_COUNT (d b : Nat) : Fld := ⟨R.SCH_READYb d b, 0, 16⟩
def SCH_READYb_TOP (d b : Nat) : Fld := ⟨R.SCH_READYb d b, 16, 5⟩
def SCH_READYb_EMPTY (d b : Nat) : Fld := ⟨R.SCH_READYb d b, 21, 1⟩
def SCH_CONSk_CFG_EN (d k : Nat) : Fld := ⟨R.SCH_CONSk_CFG d k, 0, 1⟩
def SCH_CONSk_CFG_MODE (d k : Nat) : Fld := ⟨R.SCH_CONSk_CFG d k, 1, 1⟩
def SCH_CONSk_CFG_BIND (d k : Nat) : Fld := ⟨R.SCH_CONSk_CFG d k, 2, 6⟩
def SCH_CONSk_CFG_CORE (d k : Nat) : Fld := ⟨R.SCH_CONSk_CFG d k, 8, 2⟩
def SCH_CONSk_STATUS_CUR (d k : Nat) : Fld := ⟨R.SCH_CONSk_STATUS d k, 0, 1⟩
def SCH_CONSk_STATUS_NEXT (d k : Nat) : Fld := ⟨R.SCH_CONSk_STATUS d k, 1, 1⟩
def SCH_CONSk_STATUS_PEND_PREEMPT (d k : Nat) : Fld := ⟨R.SCH_CONSk_STATUS d k, 2, 1⟩
def SCH_CONSk_STATUS_IRQ (d k : Nat) : Fld := ⟨R.SCH_CONSk_STATUS d k, 3, 1⟩
def SCH_CONSk_CUR_TASK (d k : Nat) : Fld := ⟨R.SCH_CONSk_CUR d k, 0, 16⟩
def SCH_CONSk_CUR_VALID (d k : Nat) : Fld := ⟨R.SCH_CONSk_CUR d k, 16, 1⟩
def SCH_CONSk_NXT_TASK (d k : Nat) : Fld := ⟨R.SCH_CONSk_NXT d k, 0, 16⟩
def SCH_CONSk_NXT_VALID (d k : Nat) : Fld := ⟨R.SCH_CONSk_NXT d k, 16, 1⟩
def SCH_CONSk_TAKE_TASK (d k : Nat) : Fld := ⟨R.SCH_CONSk_TAKE d k, 0, 16⟩
def SCH_CONSk_TAKE_VALID (d k : Nat) : Fld := ⟨R.SCH_CONSk_TAKE d k, 16, 1⟩
def SCH_CONSk_END_OUTCOME (d k : Nat) : Fld := ⟨R.SCH_CONSk_END d k, 0, 4⟩
def SCH_CONSk_END_REASON (d k : Nat) : Fld := ⟨R.SCH_CONSk_END d k, 16, 16⟩
def SCH_CONSk_WM_WM (d k w : Nat) : Fld := ⟨R.SCH_CONSk_WM d k w, 0, 32⟩
def SCH_Qq_CFG_EN (d q : Nat) : Fld := ⟨R.SCH_Qq_CFG d q, 0, 1⟩
def SCH_Qq_CFG_BIND (d q : Nat) : Fld := ⟨R.SCH_Qq_CFG d q, 1, 6⟩
def SCH_Qq_CFG_MIN_LEVEL (d q : Nat) : Fld := ⟨R.SCH_Qq_CFG d q, 7, 5⟩
def SCH_Qq_CFG_HOST (d q : Nat) : Fld := ⟨R.SCH_Qq_CFG d q, 12, 1⟩
def SCH_Qq_RANGE_BASE (d q : Nat) : Fld := ⟨R.SCH_Qq_RANGE d q, 0, 16⟩
def SCH_Qq_RANGE_COUNT (d q : Nat) : Fld := ⟨R.SCH_Qq_RANGE d q, 16, 16⟩
def SCH_Qq_STATUS_LIVE (d q : Nat) : Fld := ⟨R.SCH_Qq_STATUS d q, 0, 16⟩
def SCH_Qq_STATUS_EPOCH (d q : Nat) : Fld := ⟨R.SCH_Qq_STATUS d q, 16, 8⟩
def SCH_Qq_STATUS_RING (d q : Nat) : Fld := ⟨R.SCH_Qq_STATUS d q, 24, 1⟩
def SCH_Qq_CTL_REVOKE (d q : Nat) : Fld := ⟨R.SCH_Qq_CTL d q, 0, 1⟩

/-! ING: 09_ingest.md, R186. -/
def ING_CHc_SRC_KIND (c : Nat) : Fld := ⟨R.ING_CHc_SRC c, 0, 2⟩
def ING_CHc_SRC_LINKS (c : Nat) : Fld := ⟨R.ING_CHc_SRC c, 2, 2⟩
def ING_CHc_SRC_LANE (c : Nat) : Fld := ⟨R.ING_CHc_SRC c, 4, 7⟩
def ING_CHc_SRC_FLOW (c : Nat) : Fld := ⟨R.ING_CHc_SRC c, 16, 16⟩
def ING_CHc_FMT_WIDTH (c : Nat) : Fld := ⟨R.ING_CHc_FMT c, 0, 14⟩
def ING_CHc_FMT_HEIGHT (c : Nat) : Fld := ⟨R.ING_CHc_FMT c, 14, 13⟩
def ING_CHc_FMT_SAMPLING (c : Nat) : Fld := ⟨R.ING_CHc_FMT c, 27, 2⟩
def ING_CHc_FMT_DEPTH (c : Nat) : Fld := ⟨R.ING_CHc_FMT c, 29, 1⟩
def ING_CHc_FMT_INTERLACE (c : Nat) : Fld := ⟨R.ING_CHc_FMT c, 30, 1⟩
def ING_CHc_FMT2_COLOR (c : Nat) : Fld := ⟨R.ING_CHc_FMT2 c, 0, 2⟩
def ING_CHc_FMT2_FULL (c : Nat) : Fld := ⟨R.ING_CHc_FMT2 c, 2, 1⟩
def ING_CHc_FMT2_BASE (c : Nat) : Fld := ⟨R.ING_CHc_FMT2 c, 3, 8⟩
def ING_CHc_FMT2_DROP (c : Nat) : Fld := ⟨R.ING_CHc_FMT2 c, 11, 1⟩
def ING_CHc_FMT2_PACKING (c : Nat) : Fld := ⟨R.ING_CHc_FMT2 c, 12, 1⟩
def ING_CHc_FMT2_SENDER (c : Nat) : Fld := ⟨R.ING_CHc_FMT2 c, 13, 2⟩
def ING_CHc_CFG_EN (c : Nat) : Fld := ⟨R.ING_CHc_CFG c, 0, 1⟩
def ING_CHc_CFG_FSYNC (c : Nat) : Fld := ⟨R.ING_CHc_CFG c, 1, 1⟩
def ING_CHc_CFG_POLICY (c : Nat) : Fld := ⟨R.ING_CHc_CFG c, 2, 2⟩
def ING_CHc_CFG_SLATE (c : Nat) : Fld := ⟨R.ING_CHc_CFG c, 4, 4⟩
def ING_CHc_CFG_LOSS_FRAMES (c : Nat) : Fld := ⟨R.ING_CHc_CFG c, 8, 4⟩
def ING_CHc_CFG_RECOVER (c : Nat) : Fld := ⟨R.ING_CHc_CFG c, 12, 4⟩
def ING_CHc_CFG_ERR_LINES (c : Nat) : Fld := ⟨R.ING_CHc_CFG c, 16, 12⟩
def ING_CHc_ANCF_FILT0 (c : Nat) : Fld := ⟨R.ING_CHc_ANCF c, 0, 16⟩
def ING_CHc_ANCF_FILT1 (c : Nat) : Fld := ⟨R.ING_CHc_ANCF c, 16, 16⟩
def ING_CHc_AUD_GROUPS (c : Nat) : Fld := ⟨R.ING_CHc_AUD c, 0, 8⟩
def ING_CHc_AUD_STREAM (c : Nat) : Fld := ⟨R.ING_CHc_AUD c, 8, 8⟩
def ING_CHc_STATUS_STATE (c : Nat) : Fld := ⟨R.ING_CHc_STATUS c, 0, 2⟩
def ING_CHc_STATUS_UNLOCKED (c : Nat) : Fld := ⟨R.ING_CHc_STATUS c, 2, 1⟩
def ING_CHc_STATUS_REASON (c : Nat) : Fld := ⟨R.ING_CHc_STATUS c, 16, 16⟩
def ING_CHc_FS_BASE_PAGE (c : Nat) : Fld := ⟨R.ING_CHc_FS_BASE c, 0, 23⟩
def ING_CHc_FS_SIZE_PAGES (c : Nat) : Fld := ⟨R.ING_CHc_FS_SIZE c, 0, 18⟩
def ING_CHc_ANC_BASE_PAGE (c : Nat) : Fld := ⟨R.ING_CHc_ANC_BASE c, 0, 23⟩
def ING_CHc_ANC_CFG_SIZE (c : Nat) : Fld := ⟨R.ING_CHc_ANC_CFG c, 0, 8⟩
def ING_CHc_ANC_IDX_IDX (c : Nat) : Fld := ⟨R.ING_CHc_ANC_IDX c, 0, 32⟩
def ING_CHc_MARGIN_MARGIN (c : Nat) : Fld := ⟨R.ING_CHc_MARGIN c, 0, 16⟩
def ING_CHc_CNT_LINES_DAMAGED (c : Nat) : Fld := ⟨R.ING_CHc_CNT_LINES c, 0, 16⟩
def ING_CHc_CNT_LINES_LATE (c : Nat) : Fld := ⟨R.ING_CHc_CNT_LINES c, 16, 16⟩
def ING_CHc_CNT_FRAMES_BAD (c : Nat) : Fld := ⟨R.ING_CHc_CNT_FRAMES c, 0, 16⟩
def ING_CHc_CNT_FRAMES_LOSS (c : Nat) : Fld := ⟨R.ING_CHc_CNT_FRAMES c, 16, 16⟩
def ING_CHc_CNT_SYNC_REPEAT (c : Nat) : Fld := ⟨R.ING_CHc_CNT_SYNC c, 0, 12⟩
def ING_CHc_CNT_SYNC_DROP (c : Nat) : Fld := ⟨R.ING_CHc_CNT_SYNC c, 12, 12⟩
def ING_CHc_CNT_SYNC_ANC_BAD (c : Nat) : Fld := ⟨R.ING_CHc_CNT_SYNC c, 24, 8⟩
def ING_STATUS_REASON : Fld := ⟨R.ING_STATUS, 16, 16⟩
def ING_COUNT_NO_MATCH : Fld := ⟨R.ING_COUNT, 0, 32⟩

/-! FLOW: 09_ingest.md, R187. -/
def FLOW_STAGE_DATA (w : Nat) : Fld := ⟨R.FLOW_STAGE w, 0, 32⟩
def FLOW_OP_OP : Fld := ⟨R.FLOW_OP, 0, 2⟩
def FLOW_OP_REPLACE : Fld := ⟨R.FLOW_OP, 2, 1⟩
def FLOW_OP_INDEX : Fld := ⟨R.FLOW_OP, 16, 16⟩
def FLOW_RESULT_INDEX : Fld := ⟨R.FLOW_RESULT, 0, 16⟩
def FLOW_RESULT_OK : Fld := ⟨R.FLOW_RESULT, 16, 1⟩
def FLOW_RESULT_REASON : Fld := ⟨R.FLOW_RESULT, 16, 16⟩
def FLOW_FILL_USED : Fld := ⟨R.FLOW_FILL, 0, 17⟩
def FLOW_READ_DATA (w : Nat) : Fld := ⟨R.FLOW_READ w, 0, 32⟩
def FLOW_CNT_PKT_PKTS : Fld := ⟨R.FLOW_CNT_PKT, 0, 32⟩
def FLOW_CNT_DROP_DROPS : Fld := ⟨R.FLOW_CNT_DROP, 0, 32⟩
def FLOW_CNT_GAP_GAPS : Fld := ⟨R.FLOW_CNT_GAP, 0, 32⟩

/-! CMP: 10_composition_and_colour.md, R214, R215. -/
def CMP_STATUS_OCC_USED (d : Nat) : Fld := ⟨R.CMP_STATUS d, 0, 4⟩
def CMP_STATUS_REASON (d : Nat) : Fld := ⟨R.CMP_STATUS d, 16, 16⟩
def CMP_FLAT_BASE_PAGE (d : Nat) : Fld := ⟨R.CMP_FLAT_BASE d, 0, 23⟩
def CMP_FLAT_SIZE_PAGES (d : Nat) : Fld := ⟨R.CMP_FLAT_SIZE d, 0, 20⟩
def CMP_COEF_SEL_COMP (d : Nat) : Fld := ⟨R.CMP_COEF_SEL d, 0, 2⟩
def CMP_COEF_SEL_SET (d : Nat) : Fld := ⟨R.CMP_COEF_SEL d, 2, 2⟩
def CMP_COEF_SEL_DIR (d : Nat) : Fld := ⟨R.CMP_COEF_SEL d, 4, 1⟩
def CMP_COEF_SEL_PHASE (d : Nat) : Fld := ⟨R.CMP_COEF_SEL d, 5, 6⟩
def CMP_COEF_SEL_TAP (d : Nat) : Fld := ⟨R.CMP_COEF_SEL d, 11, 3⟩
def CMP_COEF_SEL_AUTOINC (d : Nat) : Fld := ⟨R.CMP_COEF_SEL d, 14, 1⟩
def CMP_COEF_DATA_COEF (d : Nat) : Fld := ⟨R.CMP_COEF_DATA d, 0, 10⟩
def CMP_Ck_COUNT_LATE_BANDS (d k : Nat) : Fld := ⟨R.CMP_Ck_COUNT d k, 0, 16⟩
def CMP_Ck_COUNT_FLATTENS (d k : Nat) : Fld := ⟨R.CMP_Ck_COUNT d k, 16, 16⟩
def CMP_SLOTs_CFG_EN (d s : Nat) : Fld := ⟨R.CMP_SLOTs_CFG d s, 0, 1⟩
def CMP_SLOTs_CFG_CHANNEL (d s : Nat) : Fld := ⟨R.CMP_SLOTs_CFG d s, 1, 7⟩
def CMP_SLOTs_CFG_OCCLUDE (d s : Nat) : Fld := ⟨R.CMP_SLOTs_CFG d s, 8, 1⟩
def CMP_SLOTs_CFG_LUT_EN (d s : Nat) : Fld := ⟨R.CMP_SLOTs_CFG d s, 9, 1⟩
def CMP_SLOTs_CFG_BANK (d s : Nat) : Fld := ⟨R.CMP_SLOTs_CFG d s, 10, 1⟩
def CMP_SLOTs_CFG_COMP_MASK (d s : Nat) : Fld := ⟨R.CMP_SLOTs_CFG d s, 11, 4⟩
def CMP_SLOTs_COLOR_SPACE (d s : Nat) : Fld := ⟨R.CMP_SLOTs_COLOR d s, 0, 2⟩
def CMP_SLOTs_COLOR_OUT_SPACE (d s : Nat) : Fld := ⟨R.CMP_SLOTs_COLOR d s, 2, 2⟩
def CMP_SLOTs_COLOR_OUT_FULL (d s : Nat) : Fld := ⟨R.CMP_SLOTs_COLOR d s, 4, 1⟩
def CMP_SLOTs_COLOR_OUT_FMT (d s : Nat) : Fld := ⟨R.CMP_SLOTs_COLOR d s, 5, 2⟩
def CMP_SLOTs_COLOR_SDR_WHITE (d s : Nat) : Fld := ⟨R.CMP_SLOTs_COLOR d s, 7, 9⟩
def CMP_SLOTs_SPLIT_X1 (d s : Nat) : Fld := ⟨R.CMP_SLOTs_SPLIT d s, 0, 8⟩
def CMP_SLOTs_SPLIT_X2 (d s : Nat) : Fld := ⟨R.CMP_SLOTs_SPLIT d s, 8, 8⟩
def CMP_SLOTs_SPLIT_X3 (d s : Nat) : Fld := ⟨R.CMP_SLOTs_SPLIT d s, 16, 8⟩
def CMP_SLOTs_BG_R (d s : Nat) : Fld := ⟨R.CMP_SLOTs_BG d s, 0, 10⟩
def CMP_SLOTs_BG_G (d s : Nat) : Fld := ⟨R.CMP_SLOTs_BG d s, 10, 10⟩
def CMP_SLOTs_BG_B (d s : Nat) : Fld := ⟨R.CMP_SLOTs_BG d s, 20, 10⟩
def CMP_SLOTs_OUT_BASE_PAGE (d s : Nat) : Fld := ⟨R.CMP_SLOTs_OUT_BASE d s, 0, 23⟩
def CMP_SLOTs_OUT_SIZE_PAGES (d s : Nat) : Fld := ⟨R.CMP_SLOTs_OUT_SIZE d s, 0, 19⟩
def CMP_SLOTs_FLAT_BASE_PAGE (d s : Nat) : Fld := ⟨R.CMP_SLOTs_FLAT_BASE d s, 0, 23⟩
def CMP_SLOTs_FLAT_SIZE_PAGES (d s : Nat) : Fld := ⟨R.CMP_SLOTs_FLAT_SIZE d s, 0, 20⟩
def CMP_SLOTs_STATUS_RUNS (d s : Nat) : Fld := ⟨R.CMP_SLOTs_STATUS d s, 0, 3⟩
def CMP_SLOTs_STATUS_CURRENT (d s : Nat) : Fld := ⟨R.CMP_SLOTs_STATUS d s, 3, 8⟩
def CMP_SLOTs_STATUS_REASON (d s : Nat) : Fld := ⟨R.CMP_SLOTs_STATUS d s, 16, 16⟩
def CMP_SLOTs_Ll_CFG_EN (d s l : Nat) : Fld := ⟨R.CMP_SLOTs_Ll_CFG d s l, 0, 1⟩
def CMP_SLOTs_Ll_CFG_SRC (d s l : Nat) : Fld := ⟨R.CMP_SLOTs_Ll_CFG d s l, 1, 2⟩
def CMP_SLOTs_Ll_CFG_FORMAT (d s l : Nat) : Fld := ⟨R.CMP_SLOTs_Ll_CFG d s l, 3, 2⟩
def CMP_SLOTs_Ll_CFG_STATIC (d s l : Nat) : Fld := ⟨R.CMP_SLOTs_Ll_CFG d s l, 5, 1⟩
def CMP_SLOTs_Ll_CFG_POLICY (d s l : Nat) : Fld := ⟨R.CMP_SLOTs_Ll_CFG d s l, 6, 2⟩
def CMP_SLOTs_Ll_CFG_CADENCE (d s l : Nat) : Fld := ⟨R.CMP_SLOTs_Ll_CFG d s l, 8, 1⟩
def CMP_SLOTs_Ll_CFG_SPACE (d s l : Nat) : Fld := ⟨R.CMP_SLOTs_Ll_CFG d s l, 9, 2⟩
def CMP_SLOTs_Ll_CFG_FULL (d s l : Nat) : Fld := ⟨R.CMP_SLOTs_Ll_CFG d s l, 11, 1⟩
def CMP_SLOTs_Ll_CFG_PREMULT (d s l : Nat) : Fld := ⟨R.CMP_SLOTs_Ll_CFG d s l, 12, 1⟩
def CMP_SLOTs_Ll_CFG_COEF (d s l : Nat) : Fld := ⟨R.CMP_SLOTs_Ll_CFG d s l, 13, 2⟩
def CMP_SLOTs_Ll_CFG_PRE_H (d s l : Nat) : Fld := ⟨R.CMP_SLOTs_Ll_CFG d s l, 15, 2⟩
def CMP_SLOTs_Ll_CFG_PRE_V (d s l : Nat) : Fld := ⟨R.CMP_SLOTs_Ll_CFG d s l, 17, 2⟩
def CMP_SLOTs_Ll_CFG_SLATE_ONLY (d s l : Nat) : Fld := ⟨R.CMP_SLOTs_Ll_CFG d s l, 19, 1⟩
def CMP_SLOTs_Ll_SRCSZ_W (d s l : Nat) : Fld := ⟨R.CMP_SLOTs_Ll_SRCSZ d s l, 0, 14⟩
def CMP_SLOTs_Ll_SRCSZ_H (d s l : Nat) : Fld := ⟨R.CMP_SLOTs_Ll_SRCSZ d s l, 14, 13⟩
def CMP_SLOTs_Ll_DST_X (d s l : Nat) : Fld := ⟨R.CMP_SLOTs_Ll_DST d s l, 0, 14⟩
def CMP_SLOTs_Ll_DST_Y (d s l : Nat) : Fld := ⟨R.CMP_SLOTs_Ll_DST d s l, 14, 14⟩
def CMP_SLOTs_Ll_DSTSZ_W (d s l : Nat) : Fld := ⟨R.CMP_SLOTs_Ll_DSTSZ d s l, 0, 14⟩
def CMP_SLOTs_Ll_DSTSZ_H (d s l : Nat) : Fld := ⟨R.CMP_SLOTs_Ll_DSTSZ d s l, 14, 13⟩
def CMP_SLOTs_Ll_ALPHA_OPACITY (d s l : Nat) : Fld := ⟨R.CMP_SLOTs_Ll_ALPHA d s l, 0, 10⟩
def CMP_SLOTs_Ll_WAIT_LINES (d s l : Nat) : Fld := ⟨R.CMP_SLOTs_Ll_WAIT d s l, 0, 14⟩
def CMP_SLOTs_Ll_BUF_BASE_PAGE (d s l : Nat) : Fld := ⟨R.CMP_SLOTs_Ll_BUF_BASE d s l, 0, 23⟩
def CMP_SLOTs_Ll_BUF_SIZE_PAGES (d s l : Nat) : Fld := ⟨R.CMP_SLOTs_Ll_BUF_SIZE d s l, 0, 19⟩
def CMP_SLOTs_Ll_DEC_STREAM (d s l : Nat) : Fld := ⟨R.CMP_SLOTs_Ll_DEC d s l, 0, 10⟩
def CMP_SLOTs_Ll_STATUS_SHOWN (d s l : Nat) : Fld := ⟨R.CMP_SLOTs_Ll_STATUS d s l, 0, 1⟩
def CMP_SLOTs_Ll_STATUS_READY (d s l : Nat) : Fld := ⟨R.CMP_SLOTs_Ll_STATUS d s l, 1, 1⟩
def CMP_SLOTs_Ll_STATUS_FILLING (d s l : Nat) : Fld := ⟨R.CMP_SLOTs_Ll_STATUS d s l, 2, 1⟩
def CMP_SLOTs_Ll_STATUS_CROPPED (d s l : Nat) : Fld := ⟨R.CMP_SLOTs_Ll_STATUS d s l, 3, 1⟩
def CMP_SLOTs_Ll_STATUS_REASON (d s l : Nat) : Fld := ⟨R.CMP_SLOTs_Ll_STATUS d s l, 16, 16⟩
def CMP_SLOTs_Ll_CNT_A_HELD (d s l : Nat) : Fld := ⟨R.CMP_SLOTs_Ll_CNT_A d s l, 0, 16⟩
def CMP_SLOTs_Ll_CNT_A_OMITTED (d s l : Nat) : Fld := ⟨R.CMP_SLOTs_Ll_CNT_A d s l, 16, 16⟩
def CMP_SLOTs_Ll_CNT_B_WAITED (d s l : Nat) : Fld := ⟨R.CMP_SLOTs_Ll_CNT_B d s l, 0, 16⟩
def CMP_SLOTs_Ll_CNT_B_WAIT_EXPIRED (d s l : Nat) : Fld := ⟨R.CMP_SLOTs_Ll_CNT_B d s l, 16, 16⟩
def CMP_SLOTs_Ll_CNT_C_LATE (d s l : Nat) : Fld := ⟨R.CMP_SLOTs_Ll_CNT_C d s l, 0, 16⟩
def CMP_SLOTs_Ll_CNT_C_SUPERSEDED (d s l : Nat) : Fld := ⟨R.CMP_SLOTs_Ll_CNT_C d s l, 16, 16⟩
def CMP_SLOTs_Ll_CNT_D_CROPS (d s l : Nat) : Fld := ⟨R.CMP_SLOTs_Ll_CNT_D d s l, 0, 16⟩

/-! LUT: 10_composition_and_colour.md, R216. -/
def LUT_Ck_SEL_BANK (d k : Nat) : Fld := ⟨R.LUT_Ck_SEL d k, 0, 1⟩
def LUT_Ck_SEL_TABLE (d k : Nat) : Fld := ⟨R.LUT_Ck_SEL d k, 1, 2⟩
def LUT_Ck_SEL_INDEX (d k : Nat) : Fld := ⟨R.LUT_Ck_SEL d k, 3, 16⟩
def LUT_Ck_SEL_AUTOINC (d k : Nat) : Fld := ⟨R.LUT_Ck_SEL d k, 19, 1⟩
def LUT_Ck_DATA0_V0 (d k : Nat) : Fld := ⟨R.LUT_Ck_DATA0 d k, 0, 14⟩
def LUT_Ck_DATA0_V1 (d k : Nat) : Fld := ⟨R.LUT_Ck_DATA0 d k, 14, 14⟩
def LUT_Ck_DATA1_V2 (d k : Nat) : Fld := ⟨R.LUT_Ck_DATA1 d k, 0, 14⟩
def LUT_Ck_STATUS_CRC_BUSY (d k : Nat) : Fld := ⟨R.LUT_Ck_STATUS d k, 0, 2⟩
def LUT_Ck_STATUS_IN_USE (d k : Nat) : Fld := ⟨R.LUT_Ck_STATUS d k, 2, 2⟩
def LUT_Ck_STATUS_REASON (d k : Nat) : Fld := ⟨R.LUT_Ck_STATUS d k, 16, 16⟩
def LUT_Ck_CRCb_CRC (d k b : Nat) : Fld := ⟨R.LUT_Ck_CRCb d k b, 0, 32⟩

/-! ENC: 11_encode_pipelines.md, R241, R242. -/
def ENC_STATUS_STREAMS (d : Nat) : Fld := ⟨R.ENC_STATUS d, 0, 8⟩
def ENC_STATUS_REASON (d : Nat) : Fld := ⟨R.ENC_STATUS d, 16, 16⟩
def ENC_CTX_SEL_PIPE (d : Nat) : Fld := ⟨R.ENC_CTX_SEL d, 0, 3⟩
def ENC_CTX_SEL_CTX (d : Nat) : Fld := ⟨R.ENC_CTX_SEL d, 3, 6⟩
def ENC_CTX_SEL_WORD (d : Nat) : Fld := ⟨R.ENC_CTX_SEL d, 9, 6⟩
def ENC_CTX_DATA_DATA (d : Nat) : Fld := ⟨R.ENC_CTX_DATA d, 0, 32⟩
def ENC_CTX_MAP_STREAM (d : Nat) : Fld := ⟨R.ENC_CTX_MAP d, 0, 7⟩
def ENC_CTX_MAP_VALID (d : Nat) : Fld := ⟨R.ENC_CTX_MAP d, 7, 1⟩
def ENC_PIPEp_CFG_EN (d p : Nat) : Fld := ⟨R.ENC_PIPEp_CFG d p, 0, 1⟩
def ENC_PIPEp_CFG_QUEUE (d p : Nat) : Fld := ⟨R.ENC_PIPEp_CFG d p, 1, 13⟩
def ENC_PIPEp_STATUS_LOAD (d p : Nat) : Fld := ⟨R.ENC_PIPEp_STATUS d p, 0, 14⟩
def ENC_PIPEp_STATUS_RESIDENT (d p : Nat) : Fld := ⟨R.ENC_PIPEp_STATUS d p, 16, 7⟩
def ENC_PIPEp_RLOAD_RASTER (d p : Nat) : Fld := ⟨R.ENC_PIPEp_RLOAD d p, 0, 14⟩
def ENC_PIPEp_CNT_ROWS_ROWS (d p : Nat) : Fld := ⟨R.ENC_PIPEp_CNT_ROWS d p, 0, 32⟩
def ENC_PIPEp_CNT_SW_SWITCHES (d p : Nat) : Fld := ⟨R.ENC_PIPEp_CNT_SW d p, 0, 32⟩
def ENC_STRi_CFG_EN (d i : Nat) : Fld := ⟨R.ENC_STRi_CFG d i, 0, 1⟩
def ENC_STRi_CFG_CODEC (d i : Nat) : Fld := ⟨R.ENC_STRi_CFG d i, 1, 3⟩
def ENC_STRi_CFG_PROFILE (d i : Nat) : Fld := ⟨R.ENC_STRi_CFG d i, 4, 2⟩
def ENC_STRi_CFG_PRESET (d i : Nat) : Fld := ⟨R.ENC_STRi_CFG d i, 6, 1⟩
def ENC_STRi_CFG_CTU (d i : Nat) : Fld := ⟨R.ENC_STRi_CFG d i, 7, 1⟩
def ENC_STRi_CFG_PIPE_FIRST (d i : Nat) : Fld := ⟨R.ENC_STRi_CFG d i, 8, 3⟩
def ENC_STRi_CFG_PIPE_N (d i : Nat) : Fld := ⟨R.ENC_STRi_CFG d i, 11, 2⟩
def ENC_STRi_CFG_SLEVEL (d i : Nat) : Fld := ⟨R.ENC_STRi_CFG d i, 13, 2⟩
def ENC_STRi_CFG_FRDIV (d i : Nat) : Fld := ⟨R.ENC_STRi_CFG d i, 15, 1⟩
def ENC_STRi_CFG_TIER (d i : Nat) : Fld := ⟨R.ENC_STRi_CFG d i, 16, 1⟩
def ENC_STRi_CFG_CHROMA (d i : Nat) : Fld := ⟨R.ENC_STRi_CFG d i, 17, 1⟩
def ENC_STRi_CFG_DEPTH8 (d i : Nat) : Fld := ⟨R.ENC_STRi_CFG d i, 18, 1⟩
def ENC_STRi_GOP_IDR_PERIOD (d i : Nat) : Fld := ⟨R.ENC_STRi_GOP d i, 0, 16⟩
def ENC_STRi_GOP_REFRESH (d i : Nat) : Fld := ⟨R.ENC_STRi_GOP d i, 16, 1⟩
def ENC_STRi_GOP_GDR_LEN (d i : Nat) : Fld := ⟨R.ENC_STRi_GOP d i, 17, 7⟩
def ENC_STRi_GOP_NREF (d i : Nat) : Fld := ⟨R.ENC_STRi_GOP d i, 24, 1⟩
def ENC_STRi_GOP_LTR (d i : Nat) : Fld := ⟨R.ENC_STRi_GOP d i, 25, 1⟩
def ENC_STRi_LEVEL_LEVEL_IDC (d i : Nat) : Fld := ⟨R.ENC_STRi_LEVEL d i, 0, 16⟩
def ENC_STRi_SIZE_W (d i : Nat) : Fld := ⟨R.ENC_STRi_SIZE d i, 0, 14⟩
def ENC_STRi_SIZE_H (d i : Nat) : Fld := ⟨R.ENC_STRi_SIZE d i, 14, 13⟩
def ENC_STRi_TILES_C0 (d i : Nat) : Fld := ⟨R.ENC_STRi_TILES d i, 0, 8⟩
def ENC_STRi_TILES_C1 (d i : Nat) : Fld := ⟨R.ENC_STRi_TILES d i, 8, 8⟩
def ENC_STRi_TILES_C2 (d i : Nat) : Fld := ⟨R.ENC_STRi_TILES d i, 16, 8⟩
def ENC_STRi_OPT_CAVLC (d i : Nat) : Fld := ⟨R.ENC_STRi_OPT d i, 0, 1⟩
def ENC_STRi_SEI_CAPTIONS (d i : Nat) : Fld := ⟨R.ENC_STRi_SEI d i, 0, 1⟩
def ENC_STRi_SEI_TIMECODE (d i : Nat) : Fld := ⟨R.ENC_STRi_SEI d i, 1, 1⟩
def ENC_STRi_STATUS_STATE (d i : Nat) : Fld := ⟨R.ENC_STRi_STATUS d i, 0, 3⟩
def ENC_STRi_STATUS_ROWH (d i : Nat) : Fld := ⟨R.ENC_STRi_STATUS d i, 3, 9⟩
def ENC_STRi_STATUS_REASON (d i : Nat) : Fld := ⟨R.ENC_STRi_STATUS d i, 16, 16⟩
def ENC_STRi_PIC_PIC (d i : Nat) : Fld := ⟨R.ENC_STRi_PIC d i, 0, 32⟩
def ENC_STRi_CNT_A_REFRESHES (d i : Nat) : Fld := ⟨R.ENC_STRi_CNT_A d i, 0, 16⟩
def ENC_STRi_CNT_A_MISSED (d i : Nat) : Fld := ⟨R.ENC_STRi_CNT_A d i, 16, 16⟩
def ENC_STRi_CNT_B_FORCED (d i : Nat) : Fld := ⟨R.ENC_STRi_CNT_B d i, 0, 16⟩
def ENC_STRi_REQ_REFRESH (d i : Nat) : Fld := ⟨R.ENC_STRi_REQ d i, 0, 1⟩

/-! MES: 12_motion_search_and_statistics.md, R270. -/
def MES_STATUS_REASON (d : Nat) : Fld := ⟨R.MES_STATUS d, 16, 16⟩
def MES_COUNT_HINTS (d : Nat) : Fld := ⟨R.MES_COUNT d, 0, 32⟩
def MES_PIPEp_FB_AREAS (d p : Nat) : Fld := ⟨R.MES_PIPEp_FB d p, 0, 32⟩
def MES_PIPEp_WIN_LOADS (d p : Nat) : Fld := ⟨R.MES_PIPEp_WIN d p, 0, 32⟩
def MES_STRi_CFG_STAT_EN (d i : Nat) : Fld := ⟨R.MES_STRi_CFG d i, 0, 1⟩
def MES_STRi_CFG_RING (d i : Nat) : Fld := ⟨R.MES_STRi_CFG d i, 1, 12⟩
def MES_STRi_CFG_DETAIL (d i : Nat) : Fld := ⟨R.MES_STRi_CFG d i, 13, 2⟩
def MES_STRi_CFG_SCD (d i : Nat) : Fld := ⟨R.MES_STRi_CFG d i, 15, 1⟩
def MES_STRi_CONF_CONF_SAD (d i : Nat) : Fld := ⟨R.MES_STRi_CONF d i, 0, 8⟩
def MES_STRi_CONF_FB_MIN (d i : Nat) : Fld := ⟨R.MES_STRi_CONF d i, 8, 5⟩
def MES_STRi_SCD_SC_TH (d i : Nat) : Fld := ⟨R.MES_STRi_SCD d i, 0, 8⟩
def MES_STRi_SCD_STATIC_TH (d i : Nat) : Fld := ⟨R.MES_STRi_SCD d i, 8, 8⟩
def MES_STRi_CNT_A_FB_AREAS (d i : Nat) : Fld := ⟨R.MES_STRi_CNT_A d i, 0, 16⟩
def MES_STRi_CNT_A_FB_SKIPPED (d i : Nat) : Fld := ⟨R.MES_STRi_CNT_A d i, 16, 16⟩
def MES_STRi_CNT_B_HINT_USED (d i : Nat) : Fld := ⟨R.MES_STRi_CNT_B d i, 0, 16⟩
def MES_STRi_CNT_B_HINT_LATE (d i : Nat) : Fld := ⟨R.MES_STRi_CNT_B d i, 16, 16⟩
def MES_STRi_CNT_C_HINT_EARLY (d i : Nat) : Fld := ⟨R.MES_STRi_CNT_C d i, 0, 16⟩
def MES_STRi_CNT_C_HINT_REPLACED (d i : Nat) : Fld := ⟨R.MES_STRi_CNT_C d i, 16, 16⟩
def MES_STRi_CNT_D_SCENE_CUTS (d i : Nat) : Fld := ⟨R.MES_STRi_CNT_D d i, 0, 16⟩
def MES_STRi_CNT_D_NORING (d i : Nat) : Fld := ⟨R.MES_STRi_CNT_D d i, 16, 16⟩
def MES_STRi_GMV_GMVX (d i : Nat) : Fld := ⟨R.MES_STRi_GMV d i, 0, 16⟩
def MES_STRi_GMV_GMVY (d i : Nat) : Fld := ⟨R.MES_STRi_GMV d i, 16, 16⟩
def MES_STRi_STATUS_REFRESH_FB (d i : Nat) : Fld := ⟨R.MES_STRi_STATUS d i, 0, 1⟩
def MES_STRi_STATUS_SCENE (d i : Nat) : Fld := ⟨R.MES_STRi_STATUS d i, 1, 1⟩
def MES_STRi_STATUS_REASON (d i : Nat) : Fld := ⟨R.MES_STRi_STATUS d i, 16, 16⟩

/-! LEDG: 13_rate_control.md, R286, R287. -/
def LEDG_STATUS_FLOORING (d : Nat) : Fld := ⟨R.LEDG_STATUS d, 0, 8⟩
def LEDG_STATUS_REASON (d : Nat) : Fld := ⟨R.LEDG_STATUS d, 16, 16⟩
def LEDG_STRi_MODE_MODE (d i : Nat) : Fld := ⟨R.LEDG_STRi_MODE d i, 0, 2⟩
def LEDG_STRi_MODE_QP_MIN (d i : Nat) : Fld := ⟨R.LEDG_STRi_MODE d i, 4, 8⟩
def LEDG_STRi_MODE_QP_MAX (d i : Nat) : Fld := ⟨R.LEDG_STRi_MODE d i, 12, 8⟩
def LEDG_STRi_MODE_QP_CONST (d i : Nat) : Fld := ⟨R.LEDG_STRi_MODE d i, 20, 8⟩
def LEDG_STRi_TUNE_I_RATIO (d i : Nat) : Fld := ⟨R.LEDG_STRi_TUNE d i, 0, 8⟩
def LEDG_STRi_TUNE_GAIN (d i : Nat) : Fld := ⟨R.LEDG_STRi_TUNE d i, 8, 4⟩
def LEDG_STRi_TUNE_TFILL (d i : Nat) : Fld := ⟨R.LEDG_STRi_TUNE d i, 12, 7⟩
def LEDG_STRi_TUNE_ROW_W (d i : Nat) : Fld := ⟨R.LEDG_STRi_TUNE d i, 19, 1⟩
def LEDG_STRi_TUNE_QSTEP (d i : Nat) : Fld := ⟨R.LEDG_STRi_TUNE d i, 20, 3⟩
def LEDG_STRi_RATE_RATE (d i : Nat) : Fld := ⟨R.LEDG_STRi_RATE d i, 0, 28⟩
def LEDG_STRi_AVG_AVG (d i : Nat) : Fld := ⟨R.LEDG_STRi_AVG d i, 0, 28⟩
def LEDG_STRi_CPB_CPB (d i : Nat) : Fld := ⟨R.LEDG_STRi_CPB d i, 0, 32⟩
def LEDG_STRi_HRD_CPB_SIZE (d i : Nat) : Fld := ⟨R.LEDG_STRi_HRD_CPB d i, 0, 32⟩
def LEDG_STRi_FPIC_P_BITS (d i : Nat) : Fld := ⟨R.LEDG_STRi_FPIC_P d i, 0, 32⟩
def LEDG_STRi_FPIC_I_BITS (d i : Nat) : Fld := ⟨R.LEDG_STRi_FPIC_I d i, 0, 32⟩
def LEDG_STRi_GMAX_BITS (d i : Nat) : Fld := ⟨R.LEDG_STRi_GMAX d i, 0, 32⟩
def LEDG_STRi_FILL_BITS (d i : Nat) : Fld := ⟨R.LEDG_STRi_FILL d i, 0, 32⟩
def LEDG_STRi_PBUD_BITS (d i : Nat) : Fld := ⟨R.LEDG_STRi_PBUD d i, 0, 32⟩
def LEDG_STRi_PBITS_BITS (d i : Nat) : Fld := ⟨R.LEDG_STRi_PBITS d i, 0, 32⟩
def LEDG_STRi_STATUS_FLOORING (d i : Nat) : Fld := ⟨R.LEDG_STRi_STATUS d i, 0, 1⟩
def LEDG_STRi_STATUS_CLIPPED (d i : Nat) : Fld := ⟨R.LEDG_STRi_STATUS d i, 1, 1⟩
def LEDG_STRi_STATUS_QP (d i : Nat) : Fld := ⟨R.LEDG_STRi_STATUS d i, 2, 8⟩
def LEDG_STRi_STATUS_REASON (d i : Nat) : Fld := ⟨R.LEDG_STRi_STATUS d i, 16, 16⟩
def LEDG_STRi_CNT_A_FLOORED_PICS (d i : Nat) : Fld := ⟨R.LEDG_STRi_CNT_A d i, 0, 16⟩
def LEDG_STRi_CNT_A_FLOORED_ROWS (d i : Nat) : Fld := ⟨R.LEDG_STRi_CNT_A d i, 16, 16⟩
def LEDG_STRi_CNT_B_CLIPS (d i : Nat) : Fld := ⟨R.LEDG_STRi_CNT_B d i, 0, 16⟩
def LEDG_STRi_CNT_B_HELD (d i : Nat) : Fld := ⟨R.LEDG_STRi_CNT_B d i, 16, 16⟩
def LEDG_STRi_FILLER_BYTES (d i : Nat) : Fld := ⟨R.LEDG_STRi_FILLER d i, 0, 32⟩

/-! POOL: 14_reference_pool_and_decode.md, R306. -/
def POOL_STATUS_FREE (d : Nat) : Fld := ⟨R.POOL_STATUS d, 0, 12⟩
def POOL_STATUS_REASON (d : Nat) : Fld := ⟨R.POOL_STATUS d, 16, 16⟩
def POOL_AREA_BASE_PAGE (d : Nat) : Fld := ⟨R.POOL_AREA_BASE d, 0, 23⟩
def POOL_AREA_SIZE_PAGES (d : Nat) : Fld := ⟨R.POOL_AREA_SIZE d, 0, 23⟩
def POOL_DESC_SEL_DESC (d : Nat) : Fld := ⟨R.POOL_DESC_SEL d, 0, 11⟩
def POOL_DESC_DATAw_DATA (d w : Nat) : Fld := ⟨R.POOL_DESC_DATAw d w, 0, 32⟩
def POOL_EOBJ_SEL_KIND (d : Nat) : Fld := ⟨R.POOL_EOBJ_SEL d, 0, 2⟩
def POOL_EOBJ_SEL_INDEX (d : Nat) : Fld := ⟨R.POOL_EOBJ_SEL d, 2, 12⟩
def POOL_EOBJ_SEL_NEW_OWNER (d : Nat) : Fld := ⟨R.POOL_EOBJ_SEL d, 14, 10⟩
def POOL_EOBJ_CTL_REVOKE (d : Nat) : Fld := ⟨R.POOL_EOBJ_CTL d, 0, 1⟩
def POOL_EOBJ_STATUS_EPOCH (d : Nat) : Fld := ⟨R.POOL_EOBJ_STATUS d, 0, 8⟩
def POOL_EOBJ_STATUS_BUSY (d : Nat) : Fld := ⟨R.POOL_EOBJ_STATUS d, 8, 1⟩
def POOL_EOBJ_STATUS_REVOKES (d : Nat) : Fld := ⟨R.POOL_EOBJ_STATUS d, 16, 16⟩
def POOL_COUNT_STALE_WR (d : Nat) : Fld := ⟨R.POOL_COUNT d, 0, 16⟩
def POOL_COUNT_STALE_RD (d : Nat) : Fld := ⟨R.POOL_COUNT d, 16, 16⟩
def POOL_STRi_BASE_PAGE (d i : Nat) : Fld := ⟨R.POOL_STRi_BASE d i, 0, 23⟩
def POOL_STRi_SIZE_PAGES (d i : Nat) : Fld := ⟨R.POOL_STRi_SIZE d i, 0, 23⟩
def POOL_STRi_INFO_BUFS (d i : Nat) : Fld := ⟨R.POOL_STRi_INFO d i, 0, 5⟩
def POOL_STRi_INFO_BUFPAGES (d i : Nat) : Fld := ⟨R.POOL_STRi_INFO d i, 5, 18⟩

/-! DEC: 14_reference_pool_and_decode.md, R307. -/
def DEC_STATUS_LOAD (d : Nat) : Fld := ⟨R.DEC_STATUS d, 0, 14⟩
def DEC_STATUS_REASON (d : Nat) : Fld := ⟨R.DEC_STATUS d, 16, 16⟩
def DEC_CFG_EN (d : Nat) : Fld := ⟨R.DEC_CFG d, 0, 1⟩
def DEC_CFG_QUEUE (d : Nat) : Fld := ⟨R.DEC_CFG d, 1, 13⟩
def DEC_STRi_CFG_EN (d i : Nat) : Fld := ⟨R.DEC_STRi_CFG d i, 0, 1⟩
def DEC_STRi_CFG_CODEC (d i : Nat) : Fld := ⟨R.DEC_STRi_CFG d i, 1, 2⟩
def DEC_STRi_CFG_DPB (d i : Nat) : Fld := ⟨R.DEC_STRi_CFG d i, 3, 4⟩
def DEC_STRi_CFG_CHROMA (d i : Nat) : Fld := ⟨R.DEC_STRi_CFG d i, 7, 1⟩
def DEC_STRi_CFG_DEPTH8 (d i : Nat) : Fld := ⟨R.DEC_STRi_CFG d i, 8, 1⟩
def DEC_STRi_CFG_LEVEL (d i : Nat) : Fld := ⟨R.DEC_STRi_CFG d i, 9, 5⟩
def DEC_STRi_SIZE_W (d i : Nat) : Fld := ⟨R.DEC_STRi_SIZE d i, 0, 14⟩
def DEC_STRi_SIZE_H (d i : Nat) : Fld := ⟨R.DEC_STRi_SIZE d i, 14, 13⟩
def DEC_STRi_RATE_MPIX (d i : Nat) : Fld := ⟨R.DEC_STRi_RATE d i, 0, 12⟩
def DEC_STRi_STATUS_STATE (d i : Nat) : Fld := ⟨R.DEC_STRi_STATUS d i, 0, 2⟩
def DEC_STRi_STATUS_CONCEAL (d i : Nat) : Fld := ⟨R.DEC_STRi_STATUS d i, 2, 1⟩
def DEC_STRi_STATUS_REASON (d i : Nat) : Fld := ⟨R.DEC_STRi_STATUS d i, 16, 16⟩
def DEC_STRi_PIC_PIC (d i : Nat) : Fld := ⟨R.DEC_STRi_PIC d i, 0, 32⟩
def DEC_STRi_CNT_A_CONCEALED (d i : Nat) : Fld := ⟨R.DEC_STRi_CNT_A d i, 0, 16⟩
def DEC_STRi_CNT_A_SKIPPED (d i : Nat) : Fld := ⟨R.DEC_STRi_CNT_A d i, 16, 16⟩
def DEC_STRi_CNT_B_GREY (d i : Nat) : Fld := ⟨R.DEC_STRi_CNT_B d i, 0, 16⟩
def DEC_STRi_CNT_B_CARRY_DROP (d i : Nat) : Fld := ⟨R.DEC_STRi_CNT_B d i, 16, 16⟩
def DEC_STRi_CNT_C_DPB_ERR (d i : Nat) : Fld := ⟨R.DEC_STRi_CNT_C d i, 0, 16⟩

/-! PKT: 15_output_transport_and_shaping.md, R330. -/
def PKT_FLOWf_CFG_EN (f : Nat) : Fld := ⟨R.PKT_FLOWf_CFG f, 0, 1⟩
def PKT_FLOWf_CFG_FMT (f : Nat) : Fld := ⟨R.PKT_FLOWf_CFG f, 1, 3⟩
def PKT_FLOWf_CFG_STREAM (f : Nat) : Fld := ⟨R.PKT_FLOWf_CFG f, 4, 10⟩
def PKT_FLOWf_CFG_DEST (f : Nat) : Fld := ⟨R.PKT_FLOWf_CFG f, 14, 2⟩
def PKT_FLOWf_CFG_MAC (f : Nat) : Fld := ⟨R.PKT_FLOWf_CFG f, 16, 7⟩
def PKT_FLOWf_CFG_CLASS (f : Nat) : Fld := ⟨R.PKT_FLOWf_CFG f, 23, 3⟩
def PKT_STATUS_XS_KIB : Fld := ⟨R.PKT_STATUS, 0, 15⟩
def PKT_STATUS_REASON : Fld := ⟨R.PKT_STATUS, 16, 16⟩
def PKT_CUR_SEL_STREAM : Fld := ⟨R.PKT_CUR_SEL, 0, 10⟩
def PKT_CUR_SEL_WORD : Fld := ⟨R.PKT_CUR_SEL, 10, 4⟩
def PKT_CUR_DATA_DATA : Fld := ⟨R.PKT_CUR_DATA, 0, 32⟩
def PKT_FLOWf_SIZE_MTU (f : Nat) : Fld := ⟨R.PKT_FLOWf_SIZE f, 0, 14⟩
def PKT_FLOWf_SIZE_TS_PER (f : Nat) : Fld := ⟨R.PKT_FLOWf_SIZE f, 14, 4⟩
def PKT_FLOWf_DST_IP_ADDR (f : Nat) : Fld := ⟨R.PKT_FLOWf_DST_IP f, 0, 32⟩
def PKT_FLOWf_PORTS_DPORT (f : Nat) : Fld := ⟨R.PKT_FLOWf_PORTS f, 0, 16⟩
def PKT_FLOWf_PORTS_SPORT (f : Nat) : Fld := ⟨R.PKT_FLOWf_PORTS f, 16, 16⟩
def PKT_FLOWf_SRC_IP_ADDR (f : Nat) : Fld := ⟨R.PKT_FLOWf_SRC_IP f, 0, 32⟩
def PKT_FLOWf_MAC_LO_DA_LO (f : Nat) : Fld := ⟨R.PKT_FLOWf_MAC_LO f, 0, 32⟩
def PKT_FLOWf_MAC_HI_DA_HI (f : Nat) : Fld := ⟨R.PKT_FLOWf_MAC_HI f, 0, 16⟩
def PKT_FLOWf_MAC_HI_VID (f : Nat) : Fld := ⟨R.PKT_FLOWf_MAC_HI f, 16, 12⟩
def PKT_FLOWf_MAC_HI_PCP (f : Nat) : Fld := ⟨R.PKT_FLOWf_MAC_HI f, 28, 3⟩
def PKT_FLOWf_MAC_HI_TAG (f : Nat) : Fld := ⟨R.PKT_FLOWf_MAC_HI f, 31, 1⟩
def PKT_FLOWf_RTP_PT (f : Nat) : Fld := ⟨R.PKT_FLOWf_RTP f, 0, 7⟩
def PKT_FLOWf_RTP_DSCP (f : Nat) : Fld := ⟨R.PKT_FLOWf_RTP f, 8, 6⟩
def PKT_FLOWf_SSRC_SSRC (f : Nat) : Fld := ⟨R.PKT_FLOWf_SSRC f, 0, 32⟩
def PKT_FLOWf_TS_VPID (f : Nat) : Fld := ⟨R.PKT_FLOWf_TS f, 0, 13⟩
def PKT_FLOWf_TS_PMT_PID (f : Nat) : Fld := ⟨R.PKT_FLOWf_TS f, 13, 13⟩
def PKT_FLOWf_TS_ANC (f : Nat) : Fld := ⟨R.PKT_FLOWf_TS f, 26, 1⟩
def PKT_FLOWf_RING_RING (f : Nat) : Fld := ⟨R.PKT_FLOWf_RING f, 0, 12⟩
def PKT_FLOWf_STATUS_REASON (f : Nat) : Fld := ⟨R.PKT_FLOWf_STATUS f, 16, 16⟩
def PKT_FLOWf_CNT_PKTS (f : Nat) : Fld := ⟨R.PKT_FLOWf_CNT f, 0, 32⟩
def PKT_STRs_STATUS_STATE (s : Nat) : Fld := ⟨R.PKT_STRs_STATUS s, 0, 2⟩
def PKT_STRs_STATUS_GOOD (s : Nat) : Fld := ⟨R.PKT_STRs_STATUS s, 2, 1⟩
def PKT_STRs_CNT_A_HOLDS (s : Nat) : Fld := ⟨R.PKT_STRs_CNT_A s, 0, 16⟩
def PKT_STRs_CNT_A_EPISODES (s : Nat) : Fld := ⟨R.PKT_STRs_CNT_A s, 16, 16⟩
def PKT_STRs_CNT_B_LATE_ROWS (s : Nat) : Fld := ⟨R.PKT_STRs_CNT_B s, 0, 16⟩
def PKT_STRs_CNT_B_COMPLETED (s : Nat) : Fld := ⟨R.PKT_STRs_CNT_B s, 16, 16⟩

/-! WHL: 15_output_transport_and_shaping.md, R331. -/
def WHL_STATUS_ENTRIES : Fld := ⟨R.WHL_STATUS, 0, 12⟩
def WHL_STATUS_REASON : Fld := ⟨R.WHL_STATUS, 16, 16⟩
def WHL_NOW_SLOT : Fld := ⟨R.WHL_NOW, 0, 17⟩
def WHL_LAG_MAX_NS : Fld := ⟨R.WHL_LAG, 0, 32⟩
def WHL_COUNT_LATE : Fld := ⟨R.WHL_COUNT, 0, 32⟩
def WHL_SAMPLE_PERIOD : Fld := ⟨R.WHL_SAMPLE, 0, 16⟩
def WHL_SAMPLE_RING : Fld := ⟨R.WHL_SAMPLE, 16, 12⟩
def WHL_SAMPLE_RING_EN : Fld := ⟨R.WHL_SAMPLE, 28, 1⟩
def WHL_SMP_MASKw_MASK (w : Nat) : Fld := ⟨R.WHL_SMP_MASKw w, 0, 32⟩
def WHL_HIST_SEL_QUEUE : Fld := ⟨R.WHL_HIST_SEL, 0, 10⟩
def WHL_HIST_SEL_BIN : Fld := ⟨R.WHL_HIST_SEL, 10, 4⟩
def WHL_HIST_DATA_COUNT : Fld := ⟨R.WHL_HIST_DATA, 0, 32⟩
def WHL_HIST_CLR_CLR : Fld := ⟨R.WHL_HIST_CLR, 0, 1⟩
def WHL_Qq_SHAPE_RATE (q : Nat) : Fld := ⟨R.WHL_Qq_SHAPE q, 0, 20⟩
def WHL_Qq_SHAPE_BURST (q : Nat) : Fld := ⟨R.WHL_Qq_SHAPE q, 20, 10⟩
def WHL_Qq_SHAPE_EN (q : Nat) : Fld := ⟨R.WHL_Qq_SHAPE q, 30, 1⟩
def WHL_Qq_DEPTH_BYTES (q : Nat) : Fld := ⟨R.WHL_Qq_DEPTH q, 0, 20⟩
def WHL_Qq_HEAD_NS (q : Nat) : Fld := ⟨R.WHL_Qq_HEAD q, 0, 32⟩
def WHL_Qq_DROPS_DROPS (q : Nat) : Fld := ⟨R.WHL_Qq_DROPS q, 0, 32⟩

/-! GATE: 15_output_transport_and_shaping.md, R332. -/
def GATE_p_CTL_EN (p : Nat) : Fld := ⟨R.GATE_p_CTL p, 0, 1⟩
def GATE_p_CTL_CHANGE (p : Nat) : Fld := ⟨R.GATE_p_CTL p, 1, 1⟩
def GATE_p_ADMIN_NS_NS (p : Nat) : Fld := ⟨R.GATE_p_ADMIN_NS p, 0, 30⟩
def GATE_p_ADMIN_SEC_LO_SEC (p : Nat) : Fld := ⟨R.GATE_p_ADMIN_SEC_LO p, 0, 32⟩
def GATE_p_ADMIN_SEC_HI_SEC (p : Nat) : Fld := ⟨R.GATE_p_ADMIN_SEC_HI p, 0, 16⟩
def GATE_p_ADMIN_CYCLE_NS (p : Nat) : Fld := ⟨R.GATE_p_ADMIN_CYCLE p, 0, 30⟩
def GATE_p_ADMIN_LEN_LEN (p : Nat) : Fld := ⟨R.GATE_p_ADMIN_LEN p, 0, 9⟩
def GATE_p_STATUS_PENDING (p : Nat) : Fld := ⟨R.GATE_p_STATUS p, 0, 1⟩
def GATE_p_STATUS_OPER (p : Nat) : Fld := ⟨R.GATE_p_STATUS p, 1, 1⟩
def GATE_p_STATUS_GATES (p : Nat) : Fld := ⟨R.GATE_p_STATUS p, 2, 8⟩
def GATE_p_STATUS_REASON (p : Nat) : Fld := ⟨R.GATE_p_STATUS p, 16, 16⟩
def GATE_p_CHG_NS_NS (p : Nat) : Fld := ⟨R.GATE_p_CHG_NS p, 0, 30⟩
def GATE_p_CHG_SEC_LO_SEC (p : Nat) : Fld := ⟨R.GATE_p_CHG_SEC_LO p, 0, 32⟩
def GATE_p_CHG_SEC_HI_SEC (p : Nat) : Fld := ⟨R.GATE_p_CHG_SEC_HI p, 0, 16⟩
def GATE_p_CNT_WAITS (p : Nat) : Fld := ⟨R.GATE_p_CNT p, 0, 16⟩
def GATE_p_CNT_TOO_LONG (p : Nat) : Fld := ⟨R.GATE_p_CNT p, 16, 16⟩
def GATE_p_OPER_CYCLE_NS (p : Nat) : Fld := ⟨R.GATE_p_OPER_CYCLE p, 0, 30⟩
def GATE_p_OPER_LEN_LEN (p : Nat) : Fld := ⟨R.GATE_p_OPER_LEN p, 0, 9⟩
def GATE_p_ADMINe_GATES (p e : Nat) : Fld := ⟨R.GATE_p_ADMINe p e, 0, 8⟩
def GATE_p_ADMINe_INTERVAL (p e : Nat) : Fld := ⟨R.GATE_p_ADMINe p e, 8, 24⟩
def GATE_p_OPERe_GATES (p e : Nat) : Fld := ⟨R.GATE_p_OPERe p e, 0, 8⟩
def GATE_p_OPERe_INTERVAL (p e : Nat) : Fld := ⟨R.GATE_p_OPERe p e, 8, 24⟩

/-! AUD: 16_audio_ports.md, R348. -/
def AUD_Pp_CFG_EN (p : Nat) : Fld := ⟨R.AUD_Pp_CFG p, 0, 1⟩
def AUD_Pp_CFG_FMT (p : Nat) : Fld := ⟨R.AUD_Pp_CFG p, 1, 2⟩
def AUD_Pp_CFG_MASTER (p : Nat) : Fld := ⟨R.AUD_Pp_CFG p, 3, 1⟩
def AUD_Pp_CFG_MCLK_EXT (p : Nat) : Fld := ⟨R.AUD_Pp_CFG p, 4, 1⟩
def AUD_Pp_CFG_MCLK_OUT (p : Nat) : Fld := ⟨R.AUD_Pp_CFG p, 5, 1⟩
def AUD_Pp_CFG_TL (p : Nat) : Fld := ⟨R.AUD_Pp_CFG p, 6, 2⟩
def AUD_Pp_CFG_RATE (p : Nat) : Fld := ⟨R.AUD_Pp_CFG p, 8, 2⟩
def AUD_Pp_CFG_SLOTS (p : Nat) : Fld := ⟨R.AUD_Pp_CFG p, 10, 5⟩
def AUD_Pp_CFG_WIDTH (p : Nat) : Fld := ⟨R.AUD_Pp_CFG p, 15, 2⟩
def AUD_Pp_CFG_DELAY1 (p : Nat) : Fld := ⟨R.AUD_Pp_CFG p, 17, 1⟩
def AUD_Pp_CFG_FS_PULSE (p : Nat) : Fld := ⟨R.AUD_Pp_CFG p, 18, 1⟩
def AUD_Pp_CFG_DIR (p : Nat) : Fld := ⟨R.AUD_Pp_CFG p, 19, 4⟩
def AUD_STATUS_REASON : Fld := ⟨R.AUD_STATUS, 16, 16⟩
def AUD_Pp_DIV_DIV (p : Nat) : Fld := ⟨R.AUD_Pp_DIV p, 0, 32⟩
def AUD_Pp_PHASE_PHASE (p : Nat) : Fld := ⟨R.AUD_Pp_PHASE p, 0, 16⟩
def AUD_Pp_STATUS_CLK_OK (p : Nat) : Fld := ⟨R.AUD_Pp_STATUS p, 0, 1⟩
def AUD_Pp_STATUS_FILL_IN (p : Nat) : Fld := ⟨R.AUD_Pp_STATUS p, 1, 5⟩
def AUD_Pp_STATUS_FILL_OUT (p : Nat) : Fld := ⟨R.AUD_Pp_STATUS p, 6, 5⟩
def AUD_Pp_STATUS_REASON (p : Nat) : Fld := ⟨R.AUD_Pp_STATUS p, 16, 16⟩
def AUD_Pp_CNT_SLIPS (p : Nat) : Fld := ⟨R.AUD_Pp_CNT p, 0, 16⟩
def AUD_Pp_CNT_SOLO_SLIPS (p : Nat) : Fld := ⟨R.AUD_Pp_CNT p, 16, 16⟩
def AUD_Pp_PPM_OFFSET (p : Nat) : Fld := ⟨R.AUD_Pp_PPM p, 0, 16⟩
def AUD_Pp_ERR_PERR (p : Nat) : Fld := ⟨R.AUD_Pp_ERR p, 0, 16⟩
def AUD_Pp_ERR_LOS (p : Nat) : Fld := ⟨R.AUD_Pp_ERR p, 16, 16⟩
def AUD_STRa_CFG_EN (a : Nat) : Fld := ⟨R.AUD_STRa_CFG a, 0, 1⟩
def AUD_STRa_CFG_DIR (a : Nat) : Fld := ⟨R.AUD_STRa_CFG a, 1, 1⟩
def AUD_STRa_CFG_SRC (a : Nat) : Fld := ⟨R.AUD_STRa_CFG a, 2, 2⟩
def AUD_STRa_CFG_PORT (a : Nat) : Fld := ⟨R.AUD_STRa_CFG a, 4, 4⟩
def AUD_STRa_CFG_TL (a : Nat) : Fld := ⟨R.AUD_STRa_CFG a, 8, 2⟩
def AUD_STRa_CFG_RATE (a : Nat) : Fld := ⟨R.AUD_STRa_CFG a, 10, 2⟩
def AUD_STRa_CFG_CONT (a : Nat) : Fld := ⟨R.AUD_STRa_CFG a, 12, 1⟩
def AUD_STRa_CFG_COMPACT (a : Nat) : Fld := ⟨R.AUD_STRa_CFG a, 13, 1⟩
def AUD_STRa_CFG_SIDE (a : Nat) : Fld := ⟨R.AUD_STRa_CFG a, 14, 1⟩
def AUD_STRa_CFG_SETEN (a : Nat) : Fld := ⟨R.AUD_STRa_CFG a, 15, 1⟩
def AUD_STRa_CFG_SET (a : Nat) : Fld := ⟨R.AUD_STRa_CFG a, 16, 4⟩
def AUD_STRa_CFG_LAT (a : Nat) : Fld := ⟨R.AUD_STRa_CFG a, 20, 11⟩
def AUD_STRa_MASK_LO_MASK (a : Nat) : Fld := ⟨R.AUD_STRa_MASK_LO a, 0, 32⟩
def AUD_STRa_MASK_HI_MASK (a : Nat) : Fld := ⟨R.AUD_STRa_MASK_HI a, 0, 32⟩
def AUD_STRa_SIZE_FRAMES_LOG2 (a : Nat) : Fld := ⟨R.AUD_STRa_SIZE a, 0, 5⟩
def AUD_STRa_BASE_LO_ADDR (a : Nat) : Fld := ⟨R.AUD_STRa_BASE_LO a, 0, 32⟩
def AUD_STRa_BASE_HI_ADDR (a : Nat) : Fld := ⟨R.AUD_STRa_BASE_HI a, 0, 32⟩
def AUD_STRa_SIDE_LO_ADDR (a : Nat) : Fld := ⟨R.AUD_STRa_SIDE_LO a, 0, 32⟩
def AUD_STRa_SIDE_HI_ADDR (a : Nat) : Fld := ⟨R.AUD_STRa_SIDE_HI a, 0, 32⟩
def AUD_STRa_PASID_PASID (a : Nat) : Fld := ⟨R.AUD_STRa_PASID a, 0, 20⟩
def AUD_STRa_PASID_PEN (a : Nat) : Fld := ⟨R.AUD_STRa_PASID a, 20, 1⟩
def AUD_STRa_HOST_INDEX (a : Nat) : Fld := ⟨R.AUD_STRa_HOST a, 0, 32⟩
def AUD_STRa_IDX_INDEX (a : Nat) : Fld := ⟨R.AUD_STRa_IDX a, 0, 32⟩
def AUD_STRa_M0_LO_M0 (a : Nat) : Fld := ⟨R.AUD_STRa_M0_LO a, 0, 32⟩
def AUD_STRa_M0_HI_M0 (a : Nat) : Fld := ⟨R.AUD_STRa_M0_HI a, 0, 32⟩
def AUD_STRa_STATUS_STATE (a : Nat) : Fld := ⟨R.AUD_STRa_STATUS a, 0, 2⟩
def AUD_STRa_STATUS_REASON (a : Nat) : Fld := ⟨R.AUD_STRa_STATUS a, 16, 16⟩
def AUD_STRa_CNT_A_UNDERRUN (a : Nat) : Fld := ⟨R.AUD_STRa_CNT_A a, 0, 16⟩
def AUD_STRa_CNT_A_OVERRUN (a : Nat) : Fld := ⟨R.AUD_STRa_CNT_A a, 16, 16⟩
def AUD_STRa_CNT_B_LATE (a : Nat) : Fld := ⟨R.AUD_STRa_CNT_B a, 0, 16⟩
def AUD_STRa_CNT_B_ZERR (a : Nat) : Fld := ⟨R.AUD_STRa_CNT_B a, 16, 16⟩
def AUD_SETs_STATUS_MEMBERS (s : Nat) : Fld := ⟨R.AUD_SETs_STATUS s, 0, 5⟩
def AUD_SETs_CNT_SLIPS (s : Nat) : Fld := ⟨R.AUD_SETs_CNT s, 0, 32⟩

/-! PAIR: 17_redundancy.md, R372. -/
def PAIR_n_CFG_EN (n : Nat) : Fld := ⟨R.PAIR_n_CFG n, 0, 1⟩
def PAIR_n_CFG_KIND (n : Nat) : Fld := ⟨R.PAIR_n_CFG n, 1, 1⟩
def PAIR_n_CFG_INIT (n : Nat) : Fld := ⟨R.PAIR_n_CFG n, 2, 1⟩
def PAIR_n_CFG_MISS_SLOTS (n : Nat) : Fld := ⟨R.PAIR_n_CFG n, 3, 4⟩
def PAIR_n_CFG_DRILL_SLOTS (n : Nat) : Fld := ⟨R.PAIR_n_CFG n, 7, 16⟩
def PAIR_n_CTL_SWITCH (n : Nat) : Fld := ⟨R.PAIR_n_CTL n, 0, 1⟩
def PAIR_n_CTL_DRILL (n : Nat) : Fld := ⟨R.PAIR_n_CTL n, 1, 1⟩
def PAIR_n_CTL_REJOIN (n : Nat) : Fld := ⟨R.PAIR_n_CTL n, 2, 1⟩
def PAIR_n_CTL_ABORT (n : Nat) : Fld := ⟨R.PAIR_n_CTL n, 3, 1⟩
def PAIR_n_CTL_BACK (n : Nat) : Fld := ⟨R.PAIR_n_CTL n, 4, 1⟩
def PAIR_n_CTL_TL (n : Nat) : Fld := ⟨R.PAIR_n_CTL n, 5, 2⟩
def PAIR_n_STATUS_ROLE_A (n : Nat) : Fld := ⟨R.PAIR_n_STATUS n, 0, 3⟩
def PAIR_n_STATUS_ROLE_B (n : Nat) : Fld := ⟨R.PAIR_n_STATUS n, 3, 3⟩
def PAIR_n_STATUS_DRILL (n : Nat) : Fld := ⟨R.PAIR_n_STATUS n, 6, 1⟩
def PAIR_n_STATUS_STALE (n : Nat) : Fld := ⟨R.PAIR_n_STATUS n, 7, 1⟩
def PAIR_n_STATUS_MISMATCH (n : Nat) : Fld := ⟨R.PAIR_n_STATUS n, 8, 1⟩
def PAIR_n_STATUS_REASON (n : Nat) : Fld := ⟨R.PAIR_n_STATUS n, 16, 16⟩
def PAIR_STATUS_REASON : Fld := ⟨R.PAIR_STATUS, 16, 16⟩
def PAIR_n_SIDE_A_PATH (n : Nat) : Fld := ⟨R.PAIR_n_SIDE_A n, 0, 32⟩
def PAIR_n_SIDE_B_PATH (n : Nat) : Fld := ⟨R.PAIR_n_SIDE_B n, 0, 32⟩
def PAIR_n_LEASE_LEASE_MS (n : Nat) : Fld := ⟨R.PAIR_n_LEASE n, 0, 13⟩
def PAIR_n_ID_ID (n : Nat) : Fld := ⟨R.PAIR_n_ID n, 0, 16⟩
def PAIR_n_AT_LO_STAMP (n : Nat) : Fld := ⟨R.PAIR_n_AT_LO n, 0, 32⟩
def PAIR_n_AT_HI_STAMP (n : Nat) : Fld := ⟨R.PAIR_n_AT_HI n, 0, 32⟩
def PAIR_n_TERM_TERM (n : Nat) : Fld := ⟨R.PAIR_n_TERM n, 0, 32⟩
def PAIR_n_LEASE_LEFT_MS (n : Nat) : Fld := ⟨R.PAIR_n_LEASE_LEFT n, 0, 16⟩
def PAIR_n_GRAFT_US (n : Nat) : Fld := ⟨R.PAIR_n_GRAFT n, 0, 32⟩
def PAIR_n_CFGCRC_CRC (n : Nat) : Fld := ⟨R.PAIR_n_CFGCRC n, 0, 32⟩
def PAIR_n_CNT_A_SWITCHES (n : Nat) : Fld := ⟨R.PAIR_n_CNT_A n, 0, 16⟩
def PAIR_n_CNT_A_SUSPECTS (n : Nat) : Fld := ⟨R.PAIR_n_CNT_A n, 16, 16⟩
def PAIR_n_CNT_B_DRILLS (n : Nat) : Fld := ⟨R.PAIR_n_CNT_B n, 0, 16⟩
def PAIR_n_CNT_B_ABORTS (n : Nat) : Fld := ⟨R.PAIR_n_CNT_B n, 16, 16⟩
def PAIR_n_HB_A (n : Nat) : Fld := ⟨R.PAIR_n_HB n, 0, 1⟩
def PAIR_n_HB_B (n : Nat) : Fld := ⟨R.PAIR_n_HB n, 1, 1⟩

/-! TWIN: 17_redundancy.md, R373. -/
def TWIN_CFG_EN : Fld := ⟨R.TWIN_CFG, 0, 1⟩
def TWIN_CFG_WIT_KIND : Fld := ⟨R.TWIN_CFG, 1, 2⟩
def TWIN_CFG_WIT_MAC : Fld := ⟨R.TWIN_CFG, 3, 7⟩
def TWIN_WIT_IP_ADDR : Fld := ⟨R.TWIN_WIT_IP, 0, 32⟩
def TWIN_SRC_IP_ADDR : Fld := ⟨R.TWIN_SRC_IP, 0, 32⟩
def TWIN_WIT_PORT_DPORT : Fld := ⟨R.TWIN_WIT_PORT, 0, 16⟩
def TWIN_WIT_PORT_SPORT : Fld := ⟨R.TWIN_WIT_PORT, 16, 16⟩
def TWIN_KEY_KEY (w : Nat) : Fld := ⟨R.TWIN_KEY w, 0, 32⟩
def TWIN_UNIT_LO_ID : Fld := ⟨R.TWIN_UNIT_LO, 0, 32⟩
def TWIN_UNIT_HI_ID : Fld := ⟨R.TWIN_UNIT_HI, 0, 32⟩
def TWIN_PEER_LO_ID : Fld := ⟨R.TWIN_PEER_LO, 0, 32⟩
def TWIN_PEER_HI_ID : Fld := ⟨R.TWIN_PEER_HI, 0, 32⟩
def TWIN_STATUS_LINK : Fld := ⟨R.TWIN_STATUS, 0, 2⟩
def TWIN_STATUS_LANES : Fld := ⟨R.TWIN_STATUS, 2, 4⟩
def TWIN_STATUS_WIT_OK : Fld := ⟨R.TWIN_STATUS, 6, 1⟩
def TWIN_STATUS_PEER_OK : Fld := ⟨R.TWIN_STATUS, 7, 1⟩
def TWIN_STATUS_REASON : Fld := ⟨R.TWIN_STATUS, 16, 16⟩
def TWIN_MBOX_BASE_LO_ADDR : Fld := ⟨R.TWIN_MBOX_BASE_LO, 0, 32⟩
def TWIN_MBOX_BASE_HI_ADDR : Fld := ⟨R.TWIN_MBOX_BASE_HI, 0, 32⟩
def TWIN_MBOX_VEC_VEC : Fld := ⟨R.TWIN_MBOX_VEC, 0, 11⟩
def TWIN_MBOX_HOSTIDX_INDEX : Fld := ⟨R.TWIN_MBOX_HOSTIDX, 0, 32⟩
def TWIN_MBOX_IDX_INDEX : Fld := ⟨R.TWIN_MBOX_IDX, 0, 32⟩
def TWIN_CNT_A_HB_MISS : Fld := ⟨R.TWIN_CNT_A, 0, 16⟩
def TWIN_CNT_A_CRC_ERR : Fld := ⟨R.TWIN_CNT_A, 16, 16⟩
def TWIN_CNT_B_WIT_DROP : Fld := ⟨R.TWIN_CNT_B, 0, 16⟩
def TWIN_CNT_B_MIRROR_DROP : Fld := ⟨R.TWIN_CNT_B, 16, 16⟩
def TWIN_MIRRORk_EN (k : Nat) : Fld := ⟨R.TWIN_MIRRORk k, 0, 1⟩
def TWIN_MIRRORk_DIR (k : Nat) : Fld := ⟨R.TWIN_MIRRORk k, 1, 1⟩
def TWIN_MIRRORk_CHANNEL (k : Nat) : Fld := ⟨R.TWIN_MIRRORk k, 2, 7⟩

/-! HBM: 18_memory_subsystem.md, R388. -/
def HBM_CTL_EN (d : Nat) : Fld := ⟨R.HBM_CTL d, 0, 1⟩
def HBM_CTL_REFRESH (d : Nat) : Fld := ⟨R.HBM_CTL d, 1, 1⟩
def HBM_CTL_MAP_LOCK (d : Nat) : Fld := ⟨R.HBM_CTL d, 2, 1⟩
def HBM_CTL_HOT_FORCE (d : Nat) : Fld := ⟨R.HBM_CTL d, 3, 1⟩
def HBM_STATUS_STATE (d : Nat) : Fld := ⟨R.HBM_STATUS d, 0, 2⟩
def HBM_STATUS_HOT (d : Nat) : Fld := ⟨R.HBM_STATUS d, 2, 1⟩
def HBM_STATUS_EARLY (d : Nat) : Fld := ⟨R.HBM_STATUS d, 3, 13⟩
def HBM_STATUS_REASON (d : Nat) : Fld := ⟨R.HBM_STATUS d, 16, 16⟩
def HBM_CFG_DEFAULT (d : Nat) : Fld := ⟨R.HBM_CFG d, 0, 2⟩
def HBM_CFG_NEIGH (d : Nat) : Fld := ⟨R.HBM_CFG d, 2, 1⟩
def HBM_TIMING_TRFC (d : Nat) : Fld := ⟨R.HBM_TIMING d, 0, 10⟩
def HBM_TIMING_TRC (d : Nat) : Fld := ⟨R.HBM_TIMING d, 10, 8⟩
def HBM_RH_CFG_THRESH (d : Nat) : Fld := ⟨R.HBM_RH_CFG d, 0, 16⟩
def HBM_TEMP_TEMP (d : Nat) : Fld := ⟨R.HBM_TEMP d, 0, 8⟩
def HBM_TEMP_MAX (d : Nat) : Fld := ⟨R.HBM_TEMP d, 8, 8⟩
def HBM_CNT_REF_REFRESHES (d : Nat) : Fld := ⟨R.HBM_CNT_REF d, 0, 32⟩
def HBM_CNT_RH_MITIGATIONS (d : Nat) : Fld := ⟨R.HBM_CNT_RH d, 0, 16⟩
def HBM_CNT_RH_EVICTIONS (d : Nat) : Fld := ⟨R.HBM_CNT_RH d, 16, 16⟩
def HBM_CNT_ECC_CORRECTED (d : Nat) : Fld := ⟨R.HBM_CNT_ECC d, 0, 16⟩
def HBM_CNT_ECC_UNCORR (d : Nat) : Fld := ⟨R.HBM_CNT_ECC d, 16, 16⟩
def HBM_ECC_ADDR_PC (d : Nat) : Fld := ⟨R.HBM_ECC_ADDR d, 0, 5⟩
def HBM_ECC_ADDR_BANK (d : Nat) : Fld := ⟨R.HBM_ECC_ADDR d, 5, 5⟩
def HBM_ECC_ADDR_ROW (d : Nat) : Fld := ⟨R.HBM_ECC_ADDR d, 10, 15⟩
def HBM_ECC_LIMIT_UNCORR_MAX (d : Nat) : Fld := ⟨R.HBM_ECC_LIMIT d, 0, 8⟩
def HBM_MAPk_BASE_MIB (d k : Nat) : Fld := ⟨R.HBM_MAPk_BASE d k, 0, 15⟩
def HBM_MAPk_SIZE_MIB (d k : Nat) : Fld := ⟨R.HBM_MAPk_SIZE d k, 0, 15⟩
def HBM_MAPk_CFG_EN (d k : Nat) : Fld := ⟨R.HBM_MAPk_CFG d k, 0, 1⟩
def HBM_MAPk_CFG_ORDER (d k : Nat) : Fld := ⟨R.HBM_MAPk_CFG d k, 1, 2⟩
def HBM_MAPk_CFG_STRIDE (d k : Nat) : Fld := ⟨R.HBM_MAPk_CFG d k, 3, 15⟩
def HBM_TRAIN_CTL_OP (d : Nat) : Fld := ⟨R.HBM_TRAIN_CTL d, 0, 2⟩
def HBM_TRAIN_CTL_PC (d : Nat) : Fld := ⟨R.HBM_TRAIN_CTL d, 2, 5⟩
def HBM_TRAIN_CTL_ALL (d : Nat) : Fld := ⟨R.HBM_TRAIN_CTL d, 7, 1⟩
def HBM_TRAIN_CTL_PATTERN (d : Nat) : Fld := ⟨R.HBM_TRAIN_CTL d, 8, 3⟩
def HBM_TRAIN_CTL_ROW (d : Nat) : Fld := ⟨R.HBM_TRAIN_CTL d, 11, 15⟩
def HBM_TRAIN_CTL_LEN (d : Nat) : Fld := ⟨R.HBM_TRAIN_CTL d, 26, 6⟩
def HBM_TRAIN_SEED_SEED (d : Nat) : Fld := ⟨R.HBM_TRAIN_SEED d, 0, 32⟩
def HBM_TRAIN_STATUS_BUSY (d : Nat) : Fld := ⟨R.HBM_TRAIN_STATUS d, 0, 1⟩
def HBM_TRAIN_STATUS_CNT (d : Nat) : Fld := ⟨R.HBM_TRAIN_STATUS d, 1, 31⟩
def HBM_TRAIN_ERR_LO_LANES (d : Nat) : Fld := ⟨R.HBM_TRAIN_ERR_LO d, 0, 32⟩
def HBM_TRAIN_ERR_HI_LANES (d : Nat) : Fld := ⟨R.HBM_TRAIN_ERR_HI d, 0, 8⟩
def HBM_DLY_SEL_PC (d : Nat) : Fld := ⟨R.HBM_DLY_SEL d, 0, 5⟩
def HBM_DLY_SEL_LANE (d : Nat) : Fld := ⟨R.HBM_DLY_SEL d, 5, 6⟩
def HBM_DLY_SEL_DIR (d : Nat) : Fld := ⟨R.HBM_DLY_SEL d, 11, 1⟩
def HBM_DLY_TAP (d : Nat) : Fld := ⟨R.HBM_DLY d, 0, 9⟩
def HBM_1500_CMD_INSTR (d : Nat) : Fld := ⟨R.HBM_1500_CMD d, 0, 8⟩
def HBM_1500_CMD_LEN (d : Nat) : Fld := ⟨R.HBM_1500_CMD d, 8, 12⟩
def HBM_1500_CMD_GO (d : Nat) : Fld := ⟨R.HBM_1500_CMD d, 31, 1⟩
def HBM_1500_STATUS_BUSY (d : Nat) : Fld := ⟨R.HBM_1500_STATUS d, 0, 1⟩
def HBM_1500_DATAw_DATA (d w : Nat) : Fld := ⟨R.HBM_1500_DATAw d w, 0, 32⟩

/-! LANE: 19_serial_lanes_and_link_test.md, R403, R404, R405. -/
def LANE_n_CFG_EN (n : Nat) : Fld := ⟨R.LANE_n_CFG n, 0, 1⟩
def LANE_n_CFG_MODE (n : Nat) : Fld := ⟨R.LANE_n_CFG n, 1, 2⟩
def LANE_n_CFG_SDI_RATE (n : Nat) : Fld := ⟨R.LANE_n_CFG n, 3, 2⟩
def LANE_n_CFG_SDI_FRAC (n : Nat) : Fld := ⟨R.LANE_n_CFG n, 5, 1⟩
def LANE_n_CFG_PROBE (n : Nat) : Fld := ⟨R.LANE_n_CFG n, 6, 1⟩
def LANE_n_CFG_POL_RX (n : Nat) : Fld := ⟨R.LANE_n_CFG n, 7, 1⟩
def LANE_n_CFG_POL_TX (n : Nat) : Fld := ⟨R.LANE_n_CFG n, 8, 1⟩
def LANE_n_CTL_DORMANT (n : Nat) : Fld := ⟨R.LANE_n_CTL n, 0, 1⟩
def LANE_n_CTL_RESTART (n : Nat) : Fld := ⟨R.LANE_n_CTL n, 1, 1⟩
def LANE_n_CTL_TEST (n : Nat) : Fld := ⟨R.LANE_n_CTL n, 2, 1⟩
def LANE_n_CTL_SNAP (n : Nat) : Fld := ⟨R.LANE_n_CTL n, 3, 1⟩
def LANE_n_STATUS_STAGE (n : Nat) : Fld := ⟨R.LANE_n_STATUS n, 0, 3⟩
def LANE_n_STATUS_RX_PRESENT (n : Nat) : Fld := ⟨R.LANE_n_STATUS n, 3, 1⟩
def LANE_n_STATUS_PLL_OK (n : Nat) : Fld := ⟨R.LANE_n_STATUS n, 4, 1⟩
def LANE_n_STATUS_CDR_LOCK (n : Nat) : Fld := ⟨R.LANE_n_STATUS n, 5, 1⟩
def LANE_n_STATUS_CHK_LOCK (n : Nat) : Fld := ⟨R.LANE_n_STATUS n, 6, 1⟩
def LANE_n_STATUS_EXITING (n : Nat) : Fld := ⟨R.LANE_n_STATUS n, 7, 1⟩
def LANE_n_STATUS_REASON (n : Nat) : Fld := ⟨R.LANE_n_STATUS n, 16, 16⟩
def LANE_n_TMO_TRAIN_MS (n : Nat) : Fld := ⟨R.LANE_n_TMO n, 0, 13⟩
def LANE_n_TMO_LOCK_MS (n : Nat) : Fld := ⟨R.LANE_n_TMO n, 13, 8⟩
def LANE_n_TMO_EXCH_MS (n : Nat) : Fld := ⟨R.LANE_n_TMO n, 21, 11⟩
def LANE_n_PAT_GEN_EN (n : Nat) : Fld := ⟨R.LANE_n_PAT n, 0, 1⟩
def LANE_n_PAT_CHK_EN (n : Nat) : Fld := ⟨R.LANE_n_PAT n, 1, 1⟩
def LANE_n_PAT_PATTERN (n : Nat) : Fld := ⟨R.LANE_n_PAT n, 2, 3⟩
def LANE_n_INJ_MODE (n : Nat) : Fld := ⟨R.LANE_n_INJ n, 0, 2⟩
def LANE_n_INJ_LIVE (n : Nat) : Fld := ⟨R.LANE_n_INJ n, 2, 1⟩
def LANE_n_INJ_RATE_LOG2 (n : Nat) : Fld := ⟨R.LANE_n_INJ n, 4, 6⟩
def LANE_n_TRATE_MBPS (n : Nat) : Fld := ⟨R.LANE_n_TRATE n, 0, 16⟩
def LANE_n_TXEQ_PRE (n : Nat) : Fld := ⟨R.LANE_n_TXEQ n, 0, 6⟩
def LANE_n_TXEQ_MAIN (n : Nat) : Fld := ⟨R.LANE_n_TXEQ n, 8, 6⟩
def LANE_n_TXEQ_POST (n : Nat) : Fld := ⟨R.LANE_n_TXEQ n, 16, 6⟩
def LANE_n_EQ_PRE (n : Nat) : Fld := ⟨R.LANE_n_EQ n, 0, 6⟩
def LANE_n_EQ_MAIN (n : Nat) : Fld := ⟨R.LANE_n_EQ n, 8, 6⟩
def LANE_n_EQ_POST (n : Nat) : Fld := ⟨R.LANE_n_EQ n, 16, 6⟩
def LANE_n_CNT_RESTARTS (n : Nat) : Fld := ⟨R.LANE_n_CNT n, 0, 16⟩
def LANE_n_CNT_LOL (n : Nat) : Fld := ⟨R.LANE_n_CNT n, 16, 16⟩
def LANE_n_ERR_LO_ERR (n : Nat) : Fld := ⟨R.LANE_n_ERR_LO n, 0, 32⟩
def LANE_n_ERR_HI_ERR (n : Nat) : Fld := ⟨R.LANE_n_ERR_HI n, 0, 16⟩
def LANE_n_BITS_LO_BITS (n : Nat) : Fld := ⟨R.LANE_n_BITS_LO n, 0, 32⟩
def LANE_n_BITS_HI_BITS (n : Nat) : Fld := ⟨R.LANE_n_BITS_HI n, 0, 16⟩
def LANE_n_RELOCK_RELOCKS (n : Nat) : Fld := ⟨R.LANE_n_RELOCK n, 0, 16⟩
def LANE_ETHm_CFG_EN (m : Nat) : Fld := ⟨R.LANE_ETHm_CFG m, 0, 1⟩
def LANE_ETHm_CFG_SPEED (m : Nat) : Fld := ⟨R.LANE_ETHm_CFG m, 1, 3⟩
def LANE_ETHm_CFG_WIDTH (m : Nat) : Fld := ⟨R.LANE_ETHm_CFG m, 4, 2⟩
def LANE_ETHm_CFG_AN (m : Nat) : Fld := ⟨R.LANE_ETHm_CFG m, 6, 1⟩
def LANE_ETHm_CFG_TRAIN (m : Nat) : Fld := ⟨R.LANE_ETHm_CFG m, 7, 1⟩
def LANE_ETHm_CFG_FEC (m : Nat) : Fld := ⟨R.LANE_ETHm_CFG m, 8, 2⟩
def LANE_ETHm_STATUS_UP (m : Nat) : Fld := ⟨R.LANE_ETHm_STATUS m, 0, 1⟩
def LANE_ETHm_STATUS_LOCAL_FAULT (m : Nat) : Fld := ⟨R.LANE_ETHm_STATUS m, 1, 1⟩
def LANE_ETHm_STATUS_REMOTE_FAULT (m : Nat) : Fld := ⟨R.LANE_ETHm_STATUS m, 2, 1⟩
def LANE_ETHm_STATUS_FEC_LOCK (m : Nat) : Fld := ⟨R.LANE_ETHm_STATUS m, 3, 1⟩
def LANE_ETHm_STATUS_REASON (m : Nat) : Fld := ⟨R.LANE_ETHm_STATUS m, 16, 16⟩
def LANE_ETHm_FEC_CORR (m : Nat) : Fld := ⟨R.LANE_ETHm_FEC m, 0, 16⟩
def LANE_ETHm_FEC_UNCORR (m : Nat) : Fld := ⟨R.LANE_ETHm_FEC m, 16, 16⟩
def LANE_UCIk_STATUS_STATE (k : Nat) : Fld := ⟨R.LANE_UCIk_STATUS k, 0, 2⟩
def LANE_UCIk_STATUS_RATE16 (k : Nat) : Fld := ⟨R.LANE_UCIk_STATUS k, 2, 1⟩
def LANE_UCIk_STATUS_REPAIRED (k : Nat) : Fld := ⟨R.LANE_UCIk_STATUS k, 3, 6⟩
def LANE_UCIk_STATUS_RETRAINS (k : Nat) : Fld := ⟨R.LANE_UCIk_STATUS k, 16, 16⟩
def LANE_UCIk_PAT_GEN_EN (k : Nat) : Fld := ⟨R.LANE_UCIk_PAT k, 0, 1⟩
def LANE_UCIk_PAT_CHK_EN (k : Nat) : Fld := ⟨R.LANE_UCIk_PAT k, 1, 1⟩
def LANE_UCIk_PAT_PATTERN (k : Nat) : Fld := ⟨R.LANE_UCIk_PAT k, 2, 3⟩
def LANE_UCIk_PAT_INJ_MODE (k : Nat) : Fld := ⟨R.LANE_UCIk_PAT k, 5, 2⟩
def LANE_UCIk_PAT_LIVE (k : Nat) : Fld := ⟨R.LANE_UCIk_PAT k, 7, 1⟩
def LANE_UCIk_PAT_RATE_LOG2 (k : Nat) : Fld := ⟨R.LANE_UCIk_PAT k, 8, 6⟩
def LANE_UCIk_ERR_ERR (k : Nat) : Fld := ⟨R.LANE_UCIk_ERR k, 0, 32⟩
def LANE_UCIk_WORST_LANE (k : Nat) : Fld := ⟨R.LANE_UCIk_WORST k, 0, 6⟩
def LANE_UCIk_WORST_COUNT (k : Nat) : Fld := ⟨R.LANE_UCIk_WORST k, 8, 24⟩
def LANE_UCIk_RETRY_FLIT_RETRY (k : Nat) : Fld := ⟨R.LANE_UCIk_RETRY k, 0, 32⟩
def LANE_Qq_STATUS_A_OK (q : Nat) : Fld := ⟨R.LANE_Qq_STATUS q, 0, 1⟩
def LANE_Qq_STATUS_B_OK (q : Nat) : Fld := ⟨R.LANE_Qq_STATUS q, 1, 1⟩
def LANE_Qq_STATUS_A_USERS (q : Nat) : Fld := ⟨R.LANE_Qq_STATUS q, 2, 3⟩
def LANE_Qq_STATUS_B_USERS (q : Nat) : Fld := ⟨R.LANE_Qq_STATUS q, 5, 3⟩
def LANE_Qq_FREQ_A_MHZ (q : Nat) : Fld := ⟨R.LANE_Qq_FREQ q, 0, 16⟩
def LANE_Qq_FREQ_B_MHZ (q : Nat) : Fld := ⟨R.LANE_Qq_FREQ q, 16, 16⟩
def LANE_STATUS_REASON : Fld := ⟨R.LANE_STATUS, 16, 16⟩

/-! FAB: 20_fabric_and_check_units.md, R419. -/
def FAB_REMAP_SWAP0 (d : Nat) : Fld := ⟨R.FAB_REMAP d, 0, 1⟩
def FAB_REMAP_LOCK (d : Nat) : Fld := ⟨R.FAB_REMAP d, 1, 1⟩
def FAB_REMAP_IGNORED (d : Nat) : Fld := ⟨R.FAB_REMAP d, 8, 8⟩
def FAB_ERR_INFO_VALID (d : Nat) : Fld := ⟨R.FAB_ERR_INFO d, 0, 1⟩
def FAB_ERR_INFO_WRITE (d : Nat) : Fld := ⟨R.FAB_ERR_INFO d, 1, 1⟩
def FAB_ERR_INFO_MASTER (d : Nat) : Fld := ⟨R.FAB_ERR_INFO d, 8, 5⟩
def FAB_ERR_INFO_TARGET (d : Nat) : Fld := ⟨R.FAB_ERR_INFO d, 16, 4⟩
def FAB_ERR_ADDR_LO_ADDR (d : Nat) : Fld := ⟨R.FAB_ERR_ADDR_LO d, 0, 32⟩
def FAB_ERR_ADDR_HI_ADDR (d : Nat) : Fld := ⟨R.FAB_ERR_ADDR_HI d, 0, 32⟩
def FAB_Mm_QOS_QOS (d m : Nat) : Fld := ⟨R.FAB_Mm_QOS d m, 0, 4⟩
def FAB_Mm_QOS_MEMQOS (d m : Nat) : Fld := ⟨R.FAB_Mm_QOS d m, 4, 4⟩
def FAB_Tt_ARB_MAXWAIT (d t : Nat) : Fld := ⟨R.FAB_Tt_ARB d t, 0, 16⟩
def FAB_Tt_CNT_PROMOTED (d t : Nat) : Fld := ⟨R.FAB_Tt_CNT d t, 0, 16⟩
def FAB_Tt_CNT_ERRS (d t : Nat) : Fld := ⟨R.FAB_Tt_CNT d t, 16, 16⟩

/-! CRC: 20_fabric_and_check_units.md, R420. -/
def CRC_k_CFG_POLY (d k : Nat) : Fld := ⟨R.CRC_k_CFG d k, 0, 2⟩
def CRC_k_CTL_OP (d k : Nat) : Fld := ⟨R.CRC_k_CTL d k, 0, 3⟩
def CRC_k_VALUE_VALUE (d k : Nat) : Fld := ⟨R.CRC_k_VALUE d k, 0, 32⟩
def CRC_k_RESULT_RESULT (d k : Nat) : Fld := ⟨R.CRC_k_RESULT d k, 0, 32⟩
def CRC_k_SRC_LO_ADDR (d k : Nat) : Fld := ⟨R.CRC_k_SRC_LO d k, 0, 32⟩
def CRC_k_SRC_HI_ADDR (d k : Nat) : Fld := ⟨R.CRC_k_SRC_HI d k, 0, 32⟩
def CRC_k_DST_LO_ADDR (d k : Nat) : Fld := ⟨R.CRC_k_DST_LO d k, 0, 32⟩
def CRC_k_DST_HI_ADDR (d k : Nat) : Fld := ⟨R.CRC_k_DST_HI d k, 0, 32⟩
def CRC_k_LEN_LEN (d k : Nat) : Fld := ⟨R.CRC_k_LEN d k, 0, 31⟩
def CRC_k_BYTES_BYTES (d k : Nat) : Fld := ⟨R.CRC_k_BYTES d k, 0, 31⟩
def CRC_k_STATUS_BUSY (d k : Nat) : Fld := ⟨R.CRC_k_STATUS d k, 0, 1⟩
def CRC_k_STATUS_DONE (d k : Nat) : Fld := ⟨R.CRC_k_STATUS d k, 1, 1⟩
def CRC_k_STATUS_MATCH (d k : Nat) : Fld := ⟨R.CRC_k_STATUS d k, 2, 1⟩
def CRC_k_STATUS_ERROR (d k : Nat) : Fld := ⟨R.CRC_k_STATUS d k, 3, 1⟩
def CRC_k_STATUS_BOUND (d k : Nat) : Fld := ⟨R.CRC_k_STATUS d k, 4, 1⟩
def CRC_k_STATUS_DROPPED (d k : Nat) : Fld := ⟨R.CRC_k_STATUS d k, 16, 16⟩
def CRC_k_CLAIM_CLAIM (d k : Nat) : Fld := ⟨R.CRC_k_CLAIM d k, 0, 1⟩
def CRC_k_DATA32_DATA (d k : Nat) : Fld := ⟨R.CRC_k_DATA32 d k, 0, 32⟩
def CRC_k_DATA16_WORD (d k : Nat) : Fld := ⟨R.CRC_k_DATA16 d k, 0, 10⟩
def CRC_k_DATA8_BYTE (d k : Nat) : Fld := ⟨R.CRC_k_DATA8 d k, 0, 8⟩

/-! REC: 21_ring_recorder.md, R432. -/
def REC_HEAD_SEQ (d : Nat) : Fld := ⟨R.REC_HEAD d, 0, 32⟩
def REC_TAIL_SEQ (d : Nat) : Fld := ⟨R.REC_TAIL d, 0, 32⟩
def REC_CFG_TL (d : Nat) : Fld := ⟨R.REC_CFG d, 0, 2⟩
def REC_CNT_OVERWRITTEN (d : Nat) : Fld := ⟨R.REC_CNT d, 0, 16⟩
def REC_CNT_SATURATED (d : Nat) : Fld := ⟨R.REC_CNT d, 16, 16⟩
def REC_STREAM_EN : Fld := ⟨R.REC_STREAM, 0, 1⟩
def REC_STREAM_RING : Fld := ⟨R.REC_STREAM, 1, 12⟩
def REC_STREAM_HOLD_US : Fld := ⟨R.REC_STREAM, 13, 16⟩
def REC_CNT_S_LOST : Fld := ⟨R.REC_CNT_S, 0, 32⟩
def REC_FILTf_PATH_PATH (f : Nat) : Fld := ⟨R.REC_FILTf_PATH f, 0, 32⟩
def REC_FILTf_CFG_EN (f : Nat) : Fld := ⟨R.REC_FILTf_CFG f, 0, 1⟩
def REC_FILTf_CFG_BAD (f : Nat) : Fld := ⟨R.REC_FILTf_CFG f, 1, 1⟩
def REC_FILTf_CFG_CLASS_MASK (f : Nat) : Fld := ⟨R.REC_FILTf_CFG f, 16, 16⟩
def REC_CHALw_CHAL (w : Nat) : Fld := ⟨R.REC_CHALw w, 0, 32⟩
def REC_CLR_UPTO_SEQ : Fld := ⟨R.REC_CLR_UPTO, 0, 32⟩
def REC_CLR_DIE_DIE : Fld := ⟨R.REC_CLR_DIE, 0, 3⟩
def REC_MACw_MAC (w : Nat) : Fld := ⟨R.REC_MACw w, 0, 32⟩
def REC_CLR_CTL_GO : Fld := ⟨R.REC_CLR_CTL, 0, 1⟩
def REC_CLR_STATUS_RESULT : Fld := ⟨R.REC_CLR_STATUS, 0, 3⟩
def REC_CLR_STATUS_FAILS : Fld := ⟨R.REC_CLR_STATUS, 3, 4⟩
def REC_CLR_STATUS_LOCKED : Fld := ⟨R.REC_CLR_STATUS, 7, 1⟩
def REC_CLR_STATUS_BUSY : Fld := ⟨R.REC_CLR_STATUS, 8, 1⟩
def REC_CLR_STATUS_IGNORED : Fld := ⟨R.REC_CLR_STATUS, 16, 16⟩

/-! RST: 22_reset_power_boot_modes.md, R458. -/
def RST_CAUSE_SRC (d : Nat) : Fld := ⟨R.RST_CAUSE d, 0, 8⟩
def RST_GLOBAL_KEY : Fld := ⟨R.RST_GLOBAL, 0, 32⟩
def RST_ISO_MASK (d : Nat) : Fld := ⟨R.RST_ISO d, 0, 32⟩
def RST_WDT_CFG_EN (d : Nat) : Fld := ⟨R.RST_WDT_CFG d, 0, 1⟩
def RST_WDT_CFG_TIMEOUT_MS (d : Nat) : Fld := ⟨R.RST_WDT_CFG d, 1, 16⟩
def RST_WDT_KICK_KEY (d : Nat) : Fld := ⟨R.RST_WDT_KICK d, 0, 32⟩
def RST_WDT_LEFT_MS (d : Nat) : Fld := ⟨R.RST_WDT_LEFT d, 0, 16⟩
def RST_DOM_STATUS_HELD (d : Nat) : Fld := ⟨R.RST_DOM_STATUS d, 0, 10⟩
def RST_DOM_STATUS_NOCLK (d : Nat) : Fld := ⟨R.RST_DOM_STATUS d, 10, 10⟩
def RST_CFG_REF_RESET : Fld := ⟨R.RST_CFG, 0, 1⟩
def RST_CFG_REF_HOLD_MS : Fld := ⟨R.RST_CFG, 1, 16⟩
def RST_STATUS_REASON (d : Nat) : Fld := ⟨R.RST_STATUS d, 16, 16⟩
def RST_GRVj_PATH_PATH (j : Nat) : Fld := ⟨R.RST_GRVj_PATH j, 0, 32⟩
def RST_GRVj_CTL_HOLD (j : Nat) : Fld := ⟨R.RST_GRVj_CTL j, 0, 1⟩
def RST_GRVj_CTL_STATE (j : Nat) : Fld := ⟨R.RST_GRVj_CTL j, 1, 2⟩

/-! PWR: 22_reset_power_boot_modes.md, R459, R461. -/
def PWR_MODE_MODE : Fld := ⟨R.PWR_MODE, 0, 4⟩
def PWR_MODE_REQ : Fld := ⟨R.PWR_MODE, 4, 4⟩
def PWR_MODE_CAUSE : Fld := ⟨R.PWR_MODE, 8, 3⟩
def PWR_MODE_REASON : Fld := ⟨R.PWR_MODE, 16, 16⟩
def PWR_DOM_COUNT_ON (d : Nat) : Fld := ⟨R.PWR_DOM_COUNT d, 0, 8⟩
def PWR_THERM_CFG_TRIP (d : Nat) : Fld := ⟨R.PWR_THERM_CFG d, 0, 8⟩
def PWR_THERM_CFG_ALARM (d : Nat) : Fld := ⟨R.PWR_THERM_CFG d, 8, 8⟩
def PWR_THERM_STATUS_MAX (d : Nat) : Fld := ⟨R.PWR_THERM_STATUS d, 0, 8⟩
def PWR_THERM_STATUS_TRIPPED (d : Nat) : Fld := ⟨R.PWR_THERM_STATUS d, 8, 1⟩
def PWR_THERM_STATUS_ALARM (d : Nat) : Fld := ⟨R.PWR_THERM_STATUS d, 9, 1⟩
def PWR_SLOTj_PATH_PATH (j : Nat) : Fld := ⟨R.PWR_SLOTj_PATH j, 0, 32⟩
def PWR_SLOTj_CTL_EN (j : Nat) : Fld := ⟨R.PWR_SLOTj_CTL j, 0, 1⟩
def PWR_SLOTj_CTL_ON (j : Nat) : Fld := ⟨R.PWR_SLOTj_CTL j, 1, 1⟩
def PWR_THERM_SENSs_TEMP (d s : Nat) : Fld := ⟨R.PWR_THERM_SENSs d s, 0, 8⟩
def PWR_THERM_SENSs_VALID (d s : Nat) : Fld := ⟨R.PWR_THERM_SENSs d s, 8, 1⟩

/-! BOOT: 22_reset_power_boot_modes.md, R460, R461. -/
def BOOT_STRAPS_SRC : Fld := ⟨R.BOOT_STRAPS, 0, 3⟩
def BOOT_STRAPS_CLK_MODE : Fld := ⟨R.BOOT_STRAPS, 3, 2⟩
def BOOT_STRAPS_TIE : Fld := ⟨R.BOOT_STRAPS, 5, 1⟩
def BOOT_STATUS_STAGE (d : Nat) : Fld := ⟨R.BOOT_STATUS d, 0, 3⟩
def BOOT_STATUS_USED (d : Nat) : Fld := ⟨R.BOOT_STATUS d, 3, 3⟩
def BOOT_STATUS_FALLBACK (d : Nat) : Fld := ⟨R.BOOT_STATUS d, 6, 1⟩
def BOOT_STATUS_ERROR (d : Nat) : Fld := ⟨R.BOOT_STATUS d, 7, 1⟩
def BOOT_STATUS_REASON (d : Nat) : Fld := ⟨R.BOOT_STATUS d, 16, 16⟩
def BOOT_MBOX_LEN_LEN : Fld := ⟨R.BOOT_MBOX_LEN, 0, 22⟩
def BOOT_MBOX_CTL_GO : Fld := ⟨R.BOOT_MBOX_CTL, 0, 1⟩
def BOOT_CORES_RUN (d : Nat) : Fld := ⟨R.BOOT_CORES d, 0, 1⟩
def BOOT_SPI_CMD_OPCODE (d : Nat) : Fld := ⟨R.BOOT_SPI_CMD d, 0, 8⟩
def BOOT_SPI_CMD_ADDR4 (d : Nat) : Fld := ⟨R.BOOT_SPI_CMD d, 8, 1⟩
def BOOT_SPI_CMD_QUAD (d : Nat) : Fld := ⟨R.BOOT_SPI_CMD d, 9, 1⟩
def BOOT_SPI_CMD_DUMMY (d : Nat) : Fld := ⟨R.BOOT_SPI_CMD d, 10, 4⟩
def BOOT_SPI_CMD_GO (d : Nat) : Fld := ⟨R.BOOT_SPI_CMD d, 31, 1⟩
def BOOT_SPI_ADDR_ADDR (d : Nat) : Fld := ⟨R.BOOT_SPI_ADDR d, 0, 32⟩
def BOOT_SPI_LEN_LEN (d : Nat) : Fld := ⟨R.BOOT_SPI_LEN d, 0, 24⟩
def BOOT_SPI_DST_ADDR (d : Nat) : Fld := ⟨R.BOOT_SPI_DST d, 0, 32⟩
def BOOT_SPI_STATUS_BUSY (d : Nat) : Fld := ⟨R.BOOT_SPI_STATUS d, 0, 1⟩
def BOOT_SPI_STATUS_ERROR (d : Nat) : Fld := ⟨R.BOOT_SPI_STATUS d, 1, 1⟩
def BOOT_SPI_STATUS_WP (d : Nat) : Fld := ⟨R.BOOT_SPI_STATUS d, 2, 1⟩
def BOOT_GPIO_IN_IN (d : Nat) : Fld := ⟨R.BOOT_GPIO_IN d, 0, 16⟩
def BOOT_GPIO_OUT_OUT (d : Nat) : Fld := ⟨R.BOOT_GPIO_OUT d, 0, 16⟩
def BOOT_GPIO_OE_OE (d : Nat) : Fld := ⟨R.BOOT_GPIO_OE d, 0, 16⟩

end Sys2Proof.Machine.F
end

