-- ==== Sys2Proof/Machine/RegTable.lean ====
section
/-!
DEFINITION. Sys2Proof/Machine/RegTable.lean: the register maps as data: for every register of the spec its place
in a die window, its instances, its access class (R11), the bits a write may change, and its reset value (R469).
-/
namespace Sys2Proof.Machine

/-- R11: the access classes. A register whose fields differ is given the class of its writable fields. -/
inductive Cls where
  | rw | ro | w1c | wo | st | lv
  deriving DecidableEq, Repr

/-- Which windows hold a register (R466, R468). -/
inductive Win where
  | root | crown | die
  deriving DecidableEq, Repr

/-- One row of a register map: window offset of instance 0, instances as (count, stride) pairs, windows, class,
writable bits, write-1-to-clear bits, reset value. -/
structure RegRow where
  off : Nat
  dims : List (Nat × Nat)
  win : Win
  cls : Cls
  wmask : BitVec 32
  w1c : BitVec 32
  reset : BitVec 32
  deriving DecidableEq, Repr

/-- The LT registers (class, masks and reset values of that block's register map). -/
def rowsLt : List RegRow :=
  [⟨0x100000, [], .root, .wo, 0x1, 0x0, 0x0⟩,
   ⟨0x100100, [(4, 0x40)], .root, .rw, 0xFFFDFF, 0x0, 0x11953C⟩,
   ⟨0x100104, [(4, 0x40)], .root, .lv, 0x3, 0x0, 0x0⟩,
   ⟨0x100108, [(4, 0x40)], .root, .ro, 0x0, 0x0, 0x0⟩,
   ⟨0x100110, [(4, 0x40)], .root, .rw, 0xFFFFFFFF, 0x0, 0x0⟩,
   ⟨0x100114, [(4, 0x40)], .root, .rw, 0xFFFF, 0x0, 0x0⟩,
   ⟨0x100118, [(4, 0x40)], .root, .ro, 0x0, 0x0, 0x0⟩,
   ⟨0x100120, [(4, 0x40)], .root, .ro, 0x0, 0x0, 0x0⟩,
   ⟨0x100124, [(4, 0x40)], .root, .ro, 0x0, 0x0, 0x0⟩,
   ⟨0x100128, [(4, 0x40)], .root, .ro, 0x0, 0x0, 0x0⟩,
   ⟨0x10012C, [(4, 0x40)], .root, .ro, 0x0, 0x0, 0x0⟩,
   ⟨0x100130, [(4, 0x40)], .root, .ro, 0x0, 0x0, 0x0⟩,
   ⟨0x101000, [(96, 0x10)], .root, .st, 0x7FFFF, 0x0, 0x4650⟩,
   ⟨0x101004, [(96, 0x10)], .root, .st, 0x3FFFFFF, 0x0, 0x0⟩,
   ⟨0x101008, [(96, 0x10)], .root, .st, 0xFFFF3FFF, 0x0, 0x580058⟩,
   ⟨0x10100C, [(96, 0x10)], .root, .ro, 0x0, 0x0, 0x0⟩]

/-- The SEL registers (class, masks and reset values of that block's register map). -/
def rowsSel : List RegRow :=
  [⟨0x110100, [(12, 0x20)], .root, .st, 0x7FFFFFF, 0x0, 0x3E93C00⟩,
   ⟨0x110104, [(12, 0x20)], .root, .st, 0xFFFFFFFF, 0x0, 0x40A1464⟩,
   ⟨0x110108, [(12, 0x20)], .root, .st, 0xFFFFFF, 0x0, 0xA03E8⟩,
   ⟨0x11010C, [(12, 0x20)], .root, .st, 0xFFFFF, 0x0, 0x0⟩,
   ⟨0x110110, [(12, 0x20)], .root, .ro, 0x0, 0x0, 0x0⟩,
   ⟨0x110114, [(12, 0x20)], .root, .ro, 0x0, 0x0, 0x0⟩,
   ⟨0x110400, [(16, 0x4)], .root, .st, 0x1FF, 0x0, 0x0⟩,
   ⟨0x110600, [(4, 0x20)], .root, .lv, 0x7F, 0x0, 0x1⟩,
   ⟨0x110604, [(4, 0x20)], .root, .lv, 0x3FFF, 0x0, 0x64⟩,
   ⟨0x110608, [(4, 0x20)], .root, .wo, 0xFFFFFFFF, 0x0, 0x0⟩,
   ⟨0x11060C, [(4, 0x20)], .root, .st, 0xFFF, 0x0, 0x10F⟩,
   ⟨0x110610, [(4, 0x20)], .root, .ro, 0x0, 0x0, 0x0⟩,
   ⟨0x110614, [(4, 0x20)], .root, .ro, 0x0, 0x0, 0x0⟩,
   ⟨0x110618, [(4, 0x20)], .root, .ro, 0x0, 0x0, 0x0⟩,
   ⟨0x11061C, [(4, 0x20)], .root, .ro, 0x0, 0x0, 0x0⟩,
   ⟨0x110800, [], .root, .rw, 0x1FFF, 0x0, 0x0⟩,
   ⟨0x110804, [], .root, .ro, 0x0, 0x0, 0x0⟩]

/-- The PTP registers (class, masks and reset values of that block's register map). -/
def rowsPtp : List RegRow :=
  [⟨0x120000, [], .root, .lv, 0x1F, 0x0, 0x5⟩,
   ⟨0x120004, [], .root, .st, 0x1FFF, 0x0, 0x864⟩,
   ⟨0x120038, [], .root, .ro, 0x0, 0x0, 0x0⟩,
   ⟨0x12003C, [], .root, .lv, 0x7FF, 0x0, 0xC8⟩,
   ⟨0x120008, [], .root, .st, 0xFFFFF, 0x0, 0x2710⟩,
   ⟨0x12000C, [], .root, .lv, 0xFFFFFFFF, 0x0, 0x0⟩,
   ⟨0x120010, [], .root, .rw, 0xFFFFFFFF, 0x0, 0x0⟩,
   ⟨0x120014, [], .root, .rw, 0xFFFF, 0x0, 0x0⟩,
   ⟨0x120018, [], .root, .rw, 0x3FFFFFFF, 0x0, 0x0⟩,
   ⟨0x120020, [], .root, .ro, 0x0, 0x0, 0x0⟩,
   ⟨0x120024, [], .root, .ro, 0x0, 0x0, 0x0⟩,
   ⟨0x120028, [], .root, .ro, 0x0, 0x0, 0x0⟩,
   ⟨0x12002C, [], .root, .ro, 0x0, 0x0, 0x0⟩,
   ⟨0x120030, [], .root, .ro, 0x0, 0x0, 0x80000000⟩,
   ⟨0x120034, [], .root, .ro, 0x0, 0x0, 0x2⟩,
   ⟨0x120100, [(2, 0x80)], .root, .st, 0xFFFFF, 0x0, 0x300FE⟩,
   ⟨0x120110, [(2, 0x80)], .root, .ro, 0x0, 0x0, 0x1⟩,
   ⟨0x120128, [(2, 0x80)], .root, .ro, 0x0, 0x0, 0x0⟩,
   ⟨0x120108, [(2, 0x80)], .root, .st, 0xFFFFFFFF, 0x0, 0x0⟩,
   ⟨0x120114, [(2, 0x80)], .root, .ro, 0x0, 0x0, 0x0⟩] ++
  [⟨0x120118, [(2, 0x80)], .root, .ro, 0x0, 0x0, 0x0⟩,
   ⟨0x12011C, [(2, 0x80)], .root, .ro, 0x0, 0x0, 0x0⟩,
   ⟨0x120120, [(2, 0x80)], .root, .ro, 0x0, 0x0, 0x0⟩,
   ⟨0x120124, [(2, 0x80)], .root, .ro, 0x0, 0x0, 0x0⟩,
   ⟨0x121000, [(96, 0x8)], .root, .st, 0xFFFFFFFF, 0x0, 0x0⟩,
   ⟨0x121004, [(96, 0x8)], .root, .st, 0xFFFFFFFF, 0x0, 0x0⟩]

/-- The HIF registers (class, masks and reset values of that block's register map). -/
def rowsHif : List RegRow :=
  [⟨0x10000, [], .root, .ro, 0x0, 0x0, 0x0⟩,
   ⟨0x10004, [], .root, .lv, 0x1, 0x0, 0x0⟩,
   ⟨0x10008, [], .root, .rw, 0xFFFFFF, 0x0, 0x11400⟩,
   ⟨0x1000C, [], .root, .ro, 0x0, 0x0, 0x0⟩,
   ⟨0x10014, [(7, 0x4)], .root, .rw, 0x1F, 0x0, 0x0⟩]

/-- The RING registers (class, masks and reset values of that block's register map). -/
def rowsRing : List RegRow :=
  [⟨0x200000, [(4096, 0x40)], .root, .rw, 0x3FFFFF, 0x0, 0x20⟩,
   ⟨0x200004, [(4096, 0x40)], .root, .lv, 0x1, 0x0, 0x0⟩,
   ⟨0x200024, [(4096, 0x40)], .root, .rw, 0x1FFFFFF, 0x0, 0x6420⟩,
   ⟨0x200028, [(4096, 0x40)], .root, .rw, 0xFFFFFFF, 0x0, 0x0⟩,
   ⟨0x200030, [(4096, 0x40)], .root, .ro, 0x0, 0x0, 0x0⟩,
   ⟨0x20003C, [(4096, 0x40)], .root, .ro, 0x0, 0x0, 0x0⟩,
   ⟨0x200008, [(4096, 0x40)], .root, .rw, 0xFFFFFFFF, 0x0, 0x0⟩,
   ⟨0x20000C, [(4096, 0x40)], .root, .rw, 0xFFFFFFFF, 0x0, 0x0⟩,
   ⟨0x200010, [(4096, 0x40)], .root, .rw, 0xFFFFFFFF, 0x0, 0x0⟩,
   ⟨0x200014, [(4096, 0x40)], .root, .rw, 0xFFFFFFFF, 0x0, 0x0⟩,
   ⟨0x200018, [(4096, 0x40)], .root, .rw, 0xFFFFFFFF, 0x0, 0x0⟩,
   ⟨0x20001C, [(4096, 0x40)], .root, .rw, 0xFFFFFFFF, 0x0, 0x0⟩,
   ⟨0x200020, [(4096, 0x40)], .root, .rw, 0xFFFFFFFF, 0x0, 0x0⟩,
   ⟨0x20002C, [(4096, 0x40)], .root, .rw, 0x3FFF, 0x0, 0x0⟩,
   ⟨0x200034, [(4096, 0x40)], .root, .ro, 0x0, 0x0, 0x0⟩,
   ⟨0x200038, [(4096, 0x40)], .root, .ro, 0x0, 0x0, 0x0⟩]

/-- The XLT registers (class, masks and reset values of that block's register map). -/
def rowsXlt : List RegRow :=
  [⟨0x130000, [], .root, .rw, 0x1FFFFFF, 0x0, 0x1006414⟩,
   ⟨0x130004, [], .root, .ro, 0x0, 0x0, 0x0⟩,
   ⟨0x130020, [], .root, .wo, 0x1, 0x0, 0x0⟩,
   ⟨0x130008, [], .root, .ro, 0x0, 0x0, 0x0⟩,
   ⟨0x13000C, [], .root, .ro, 0x0, 0x0, 0x0⟩,
   ⟨0x130010, [], .root, .ro, 0x0, 0x0, 0x0⟩,
   ⟨0x130014, [], .root, .ro, 0x0, 0x0, 0x0⟩,
   ⟨0x130018, [], .root, .ro, 0x0, 0x0, 0x0⟩,
   ⟨0x13001C, [], .root, .ro, 0x0, 0x0, 0x0⟩,
   ⟨0x134000, [(4096, 0x4)], .root, .rw, 0x1FFFFF, 0x0, 0x0⟩,
   ⟨0x138000, [(32, 0x10)], .root, .rw, 0x7FFFFF, 0x0, 0x0⟩,
   ⟨0x140200, [(4064, 0x10)], .root, .rw, 0x7FFFFF, 0x0, 0x0⟩,
   ⟨0x138004, [(32, 0x10)], .root, .rw, 0x3FFF, 0x0, 0x81⟩,
   ⟨0x140204, [(4064, 0x10)], .root, .rw, 0x3FFF, 0x0, 0x81⟩,
   ⟨0x138008, [(32, 0x10)], .root, .ro, 0x0, 0x0, 0x0⟩,
   ⟨0x140208, [(4064, 0x10)], .root, .ro, 0x0, 0x0, 0x0⟩,
   ⟨0x13800C, [(32, 0x10)], .root, .ro, 0x0, 0x0, 0x0⟩,
   ⟨0x14020C, [(4064, 0x10)], .root, .ro, 0x0, 0x0, 0x0⟩]

/-- The STG registers (class, masks and reset values of that block's register map). -/
def rowsStg : List RegRow :=
  [⟨0x140000, [], .root, .rw, 0xFF, 0x0, 0x64⟩,
   ⟨0x140004, [], .root, .ro, 0x0, 0x0, 0x4⟩,
   ⟨0x140008, [], .root, .lv, 0xF, 0x0, 0x0⟩,
   ⟨0x14000C, [], .root, .wo, 0x3F3, 0x0, 0x0⟩,
   ⟨0x140018, [], .root, .ro, 0x0, 0x0, 0x0⟩,
   ⟨0x140028, [], .root, .ro, 0x0, 0x0, 0x0⟩,
   ⟨0x140048, [], .root, .ro, 0x0, 0x0, 0x0⟩,
   ⟨0x140100, [(8, 0x20)], .root, .ro, 0x0, 0x0, 0x0⟩,
   ⟨0x14010C, [(8, 0x20)], .root, .ro, 0x0, 0x0, 0x0⟩,
   ⟨0x140010, [], .root, .rw, 0xFFFFFFFF, 0x0, 0x0⟩,
   ⟨0x140014, [], .root, .rw, 0xFFFFFFFF, 0x0, 0x0⟩,
   ⟨0x140020, [], .root, .rw, 0x1FFFFFFF, 0x0, 0x0⟩,
   ⟨0x140024, [], .root, .ro, 0x0, 0x0, 0x0⟩,
   ⟨0x140040, [], .root, .rw, 0x3F03FF, 0x0, 0x0⟩,
   ⟨0x140044, [], .root, .ro, 0x0, 0x0, 0x0⟩,
   ⟨0x140104, [(8, 0x20)], .root, .ro, 0x0, 0x0, 0x0⟩,
   ⟨0x140108, [(8, 0x20)], .root, .ro, 0x0, 0x0, 0x0⟩,
   ⟨0x140110, [(8, 0x20)], .root, .ro, 0x0, 0x0, 0x0⟩]

/-- The SCH registers (class, masks and reset values of that block's register map). -/
def rowsSch : List RegRow :=
  [⟨0x300000, [], .die, .ro, 0x0, 0x0, 0x0⟩,
   ⟨0x300020, [], .die, .rw, 0xFFFF, 0x0, 0x0⟩,
   ⟨0x300004, [], .die, .ro, 0x0, 0x0, 0x0⟩,
   ⟨0x300008, [], .die, .ro, 0x0, 0x0, 0x0⟩,
   ⟨0x300010, [], .die, .ro, 0x0, 0x0, 0x0⟩,
   ⟨0x300014, [], .die, .ro, 0x0, 0x0, 0x0⟩,
   ⟨0x300040, [(8, 0x4)], .die, .ro, 0x0, 0x0, 0x0⟩,
   ⟨0x302000, [(64, 0x4)], .die, .ro, 0x0, 0x0, 0x3F0000⟩,
   ⟨0x310000, [(256, 0x40)], .die, .st, 0x3FF, 0x0, 0x0⟩,
   ⟨0x310004, [(256, 0x40)], .die, .ro, 0x0, 0x0, 0x0⟩,
   ⟨0x310008, [(256, 0x40)], .die, .ro, 0x0, 0x0, 0x0⟩,
   ⟨0x31000C, [(256, 0x40)], .die, .ro, 0x0, 0x0, 0x0⟩,
   ⟨0x310010, [(256, 0x40)], .die, .ro, 0x0, 0x0, 0x0⟩,
   ⟨0x310014, [(256, 0x40)], .die, .wo, 0xFFFF000F, 0x0, 0x0⟩,
   ⟨0x310018, [(256, 0x40), (4, 0x4)], .die, .rw, 0xFFFFFFFF, 0x0, 0x0⟩,
   ⟨0x400000, [(32768, 0x10)], .root, .st, 0x1FFF, 0x0, 0x0⟩,
   ⟨0x400000, [(8192, 0x10)], .crown, .st, 0x1FFF, 0x0, 0x0⟩,
   ⟨0x400004, [(32768, 0x10)], .root, .st, 0xFFFFFFFF, 0x0, 0x0⟩,
   ⟨0x400004, [(8192, 0x10)], .crown, .st, 0xFFFFFFFF, 0x0, 0x0⟩,
   ⟨0x400008, [(32768, 0x10)], .root, .ro, 0x0, 0x0, 0x0⟩] ++
  [⟨0x400008, [(8192, 0x10)], .crown, .ro, 0x0, 0x0, 0x0⟩,
   ⟨0x40000C, [(32768, 0x10)], .root, .wo, 0x1, 0x0, 0x0⟩,
   ⟨0x40000C, [(8192, 0x10)], .crown, .wo, 0x1, 0x0, 0x0⟩]

/-- The ING registers (class, masks and reset values of that block's register map). -/
def rowsIng : List RegRow :=
  [⟨0x501000, [(96, 0x40)], .root, .st, 0xFFFF07FF, 0x0, 0x0⟩,
   ⟨0x501004, [(96, 0x40)], .root, .st, 0x7FFFFFFF, 0x0, 0x10E0780⟩,
   ⟨0x501008, [(96, 0x40)], .root, .st, 0x7FFF, 0x0, 0x9E0⟩,
   ⟨0x50100C, [(96, 0x40)], .root, .st, 0xFFFFFFF, 0x0, 0x402202⟩,
   ⟨0x501018, [(96, 0x40)], .root, .st, 0xFFFFFFFF, 0x0, 0x0⟩,
   ⟨0x50103C, [(96, 0x40)], .root, .st, 0xFFFF, 0x0, 0x0⟩,
   ⟨0x501028, [(96, 0x40)], .root, .ro, 0x0, 0x0, 0x0⟩,
   ⟨0x501010, [(96, 0x40)], .root, .st, 0x7FFFFF, 0x0, 0x0⟩,
   ⟨0x501014, [(96, 0x40)], .root, .st, 0x3FFFF, 0x0, 0x0⟩,
   ⟨0x50101C, [(96, 0x40)], .root, .st, 0x7FFFFF, 0x0, 0x0⟩,
   ⟨0x501020, [(96, 0x40)], .root, .st, 0xFF, 0x0, 0x0⟩,
   ⟨0x501024, [(96, 0x40)], .root, .ro, 0x0, 0x0, 0x0⟩,
   ⟨0x50102C, [(96, 0x40)], .root, .ro, 0x0, 0x0, 0x0⟩,
   ⟨0x501030, [(96, 0x40)], .root, .ro, 0x0, 0x0, 0x0⟩,
   ⟨0x501034, [(96, 0x40)], .root, .ro, 0x0, 0x0, 0x0⟩,
   ⟨0x501038, [(96, 0x40)], .root, .ro, 0x0, 0x0, 0x0⟩,
   ⟨0x500000, [], .root, .ro, 0x0, 0x0, 0x0⟩,
   ⟨0x500004, [], .root, .ro, 0x0, 0x0, 0x0⟩]

/-- The FLOW registers (class, masks and reset values of that block's register map). -/
def rowsFlow : List RegRow :=
  [⟨0x580000, [(6, 0x4)], .root, .rw, 0xFFFFFFFF, 0x0, 0x0⟩,
   ⟨0x580020, [], .root, .wo, 0xFFFF0007, 0x0, 0x0⟩,
   ⟨0x580024, [], .root, .ro, 0x0, 0x0, 0x0⟩,
   ⟨0x580028, [], .root, .ro, 0x0, 0x0, 0x0⟩,
   ⟨0x580040, [(6, 0x4)], .root, .ro, 0x0, 0x0, 0x0⟩,
   ⟨0x580058, [], .root, .ro, 0x0, 0x0, 0x0⟩,
   ⟨0x58005C, [], .root, .ro, 0x0, 0x0, 0x0⟩,
   ⟨0x580060, [], .root, .ro, 0x0, 0x0, 0x0⟩]

/-- The CMP registers (class, masks and reset values of that block's register map). -/
def rowsCmp : List RegRow :=
  [⟨0x600000, [], .crown, .ro, 0x0, 0x0, 0x0⟩,
   ⟨0x600004, [], .crown, .rw, 0x7FFFFF, 0x0, 0x0⟩,
   ⟨0x600008, [], .crown, .rw, 0xFFFFF, 0x0, 0x0⟩,
   ⟨0x600010, [], .crown, .rw, 0x7FFF, 0x0, 0x0⟩,
   ⟨0x600014, [], .crown, .rw, 0x3FF, 0x0, 0x0⟩,
   ⟨0x600104, [(4, 0x10)], .crown, .ro, 0x0, 0x0, 0x0⟩,
   ⟨0x610000, [(16, 0x800)], .crown, .st, 0x7FFF, 0x0, 0x0⟩,
   ⟨0x61000C, [(16, 0x800)], .crown, .st, 0xFFFF, 0x0, 0x6580⟩,
   ⟨0x610004, [(16, 0x800)], .crown, .st, 0xFFFFFF, 0x0, 0x0⟩,
   ⟨0x610008, [(16, 0x800)], .crown, .st, 0x3FFFFFFF, 0x0, 0x0⟩,
   ⟨0x610010, [(16, 0x800)], .crown, .st, 0x7FFFFF, 0x0, 0x0⟩,
   ⟨0x610014, [(16, 0x800)], .crown, .st, 0x7FFFF, 0x0, 0x0⟩,
   ⟨0x610018, [(16, 0x800)], .crown, .st, 0x7FFFFF, 0x0, 0x0⟩,
   ⟨0x61001C, [(16, 0x800)], .crown, .st, 0xFFFFF, 0x0, 0x0⟩,
   ⟨0x610020, [(16, 0x800)], .crown, .ro, 0x0, 0x0, 0x0⟩]

/-- The CMPL registers (class, masks and reset values of that block's register map). -/
def rowsCmpl : List RegRow :=
  [⟨0x610400, [(16, 0x800), (16, 0x40)], .crown, .st, 0xFFFFF, 0x0, 0x0⟩,
   ⟨0x610404, [(16, 0x800), (16, 0x40)], .crown, .st, 0x7FFFFFF, 0x0, 0x0⟩,
   ⟨0x610408, [(16, 0x800), (16, 0x40)], .crown, .st, 0xFFFFFFF, 0x0, 0x0⟩,
   ⟨0x61040C, [(16, 0x800), (16, 0x40)], .crown, .st, 0x7FFFFFF, 0x0, 0x0⟩,
   ⟨0x610410, [(16, 0x800), (16, 0x40)], .crown, .st, 0x3FF, 0x0, 0x3FF⟩,
   ⟨0x610414, [(16, 0x800), (16, 0x40)], .crown, .st, 0x3FFF, 0x0, 0x0⟩,
   ⟨0x610418, [(16, 0x800), (16, 0x40)], .crown, .st, 0x7FFFFF, 0x0, 0x0⟩,
   ⟨0x61041C, [(16, 0x800), (16, 0x40)], .crown, .st, 0x7FFFF, 0x0, 0x0⟩,
   ⟨0x610420, [(16, 0x800), (16, 0x40)], .crown, .st, 0x3FF, 0x0, 0x0⟩,
   ⟨0x610424, [(16, 0x800), (16, 0x40)], .crown, .ro, 0x0, 0x0, 0x0⟩,
   ⟨0x610428, [(16, 0x800), (16, 0x40)], .crown, .ro, 0x0, 0x0, 0x0⟩,
   ⟨0x61042C, [(16, 0x800), (16, 0x40)], .crown, .ro, 0x0, 0x0, 0x0⟩,
   ⟨0x610430, [(16, 0x800), (16, 0x40)], .crown, .ro, 0x0, 0x0, 0x0⟩,
   ⟨0x610434, [(16, 0x800), (16, 0x40)], .crown, .ro, 0x0, 0x0, 0x0⟩]

/-- The LUT registers (class, masks and reset values of that block's register map). -/
def rowsLut : List RegRow :=
  [⟨0x680000, [(4, 0x40)], .crown, .rw, 0xFFFFF, 0x0, 0x0⟩,
   ⟨0x680004, [(4, 0x40)], .crown, .rw, 0xFFFFFFF, 0x0, 0x0⟩,
   ⟨0x680008, [(4, 0x40)], .crown, .rw, 0x3FFF, 0x0, 0x0⟩,
   ⟨0x68000C, [(4, 0x40)], .crown, .ro, 0x0, 0x0, 0x0⟩,
   ⟨0x680010, [(4, 0x40), (2, 0x4)], .crown, .ro, 0x0, 0x0, 0x0⟩]

/-- The ENC registers (class, masks and reset values of that block's register map). -/
def rowsEnc : List RegRow :=
  [⟨0x700000, [], .crown, .ro, 0x0, 0x0, 0x0⟩,
   ⟨0x700010, [], .crown, .rw, 0x7FFF, 0x0, 0x0⟩,
   ⟨0x700014, [], .crown, .ro, 0x0, 0x0, 0x0⟩,
   ⟨0x700018, [], .crown, .ro, 0x0, 0x0, 0x0⟩,
   ⟨0x701000, [(8, 0x40)], .crown, .st, 0x3FFF, 0x0, 0x0⟩,
   ⟨0x701004, [(8, 0x40)], .crown, .ro, 0x0, 0x0, 0x0⟩,
   ⟨0x701008, [(8, 0x40)], .crown, .ro, 0x0, 0x0, 0x0⟩,
   ⟨0x70100C, [(8, 0x40)], .crown, .ro, 0x0, 0x0, 0x0⟩,
   ⟨0x701010, [(8, 0x40)], .crown, .ro, 0x0, 0x0, 0x0⟩,
   ⟨0x710000, [(128, 0x100)], .crown, .st, 0x7FFFF, 0x0, 0x0⟩,
   ⟨0x710010, [(128, 0x100)], .crown, .st, 0x3FFFFFF, 0x0, 0x100000⟩,
   ⟨0x710004, [(128, 0x100)], .crown, .st, 0xFFFF, 0x0, 0x0⟩,
   ⟨0x710008, [(128, 0x100)], .crown, .st, 0x7FFFFFF, 0x0, 0x0⟩,
   ⟨0x71000C, [(128, 0x100)], .crown, .st, 0xFFFFFF, 0x0, 0x0⟩,
   ⟨0x710014, [(128, 0x100)], .crown, .st, 0x1, 0x0, 0x0⟩,
   ⟨0x710018, [(128, 0x100)], .crown, .st, 0x3, 0x0, 0x0⟩,
   ⟨0x710020, [(128, 0x100)], .crown, .ro, 0x0, 0x0, 0x0⟩,
   ⟨0x710024, [(128, 0x100)], .crown, .ro, 0x0, 0x0, 0x0⟩,
   ⟨0x710028, [(128, 0x100)], .crown, .ro, 0x0, 0x0, 0x0⟩,
   ⟨0x71002C, [(128, 0x100)], .crown, .ro, 0x0, 0x0, 0x0⟩] ++
  [⟨0x710030, [(128, 0x100)], .crown, .wo, 0x1, 0x0, 0x0⟩]

/-- The MES registers (class, masks and reset values of that block's register map). -/
def rowsMes : List RegRow :=
  [⟨0x740000, [], .crown, .ro, 0x0, 0x0, 0x0⟩,
   ⟨0x740004, [], .crown, .ro, 0x0, 0x0, 0x0⟩,
   ⟨0x741000, [(8, 0x20)], .crown, .ro, 0x0, 0x0, 0x0⟩,
   ⟨0x741004, [(8, 0x20)], .crown, .ro, 0x0, 0x0, 0x0⟩,
   ⟨0x750000, [(128, 0x40)], .crown, .st, 0xFFFF, 0x0, 0xC000⟩,
   ⟨0x750004, [(128, 0x40)], .crown, .st, 0x1FFF, 0x0, 0x60C⟩,
   ⟨0x750008, [(128, 0x40)], .crown, .st, 0xFFFF, 0x0, 0x128⟩,
   ⟨0x750010, [(128, 0x40)], .crown, .ro, 0x0, 0x0, 0x0⟩,
   ⟨0x750014, [(128, 0x40)], .crown, .ro, 0x0, 0x0, 0x0⟩,
   ⟨0x750018, [(128, 0x40)], .crown, .ro, 0x0, 0x0, 0x0⟩,
   ⟨0x75001C, [(128, 0x40)], .crown, .ro, 0x0, 0x0, 0x0⟩,
   ⟨0x750020, [(128, 0x40)], .crown, .ro, 0x0, 0x0, 0x0⟩,
   ⟨0x750024, [(128, 0x40)], .crown, .ro, 0x0, 0x0, 0x0⟩]

/-- The LEDG registers (class, masks and reset values of that block's register map). -/
def rowsLedg : List RegRow :=
  [⟨0x760000, [], .crown, .ro, 0x0, 0x0, 0x0⟩,
   ⟨0x770000, [(128, 0x40)], .crown, .st, 0xFFFFFF3, 0x0, 0x2033000⟩,
   ⟨0x77000C, [(128, 0x40)], .crown, .st, 0x7FFFFF, 0x0, 0x432230⟩,
   ⟨0x770004, [(128, 0x40)], .crown, .st, 0xFFFFFFF, 0x0, 0x0⟩,
   ⟨0x770008, [(128, 0x40)], .crown, .st, 0xFFFFFFF, 0x0, 0x0⟩,
   ⟨0x770010, [(128, 0x40)], .crown, .ro, 0x0, 0x0, 0x0⟩,
   ⟨0x770014, [(128, 0x40)], .crown, .ro, 0x0, 0x0, 0x0⟩,
   ⟨0x770018, [(128, 0x40)], .crown, .ro, 0x0, 0x0, 0x0⟩,
   ⟨0x77001C, [(128, 0x40)], .crown, .ro, 0x0, 0x0, 0x0⟩,
   ⟨0x770020, [(128, 0x40)], .crown, .ro, 0x0, 0x0, 0x0⟩,
   ⟨0x770024, [(128, 0x40)], .crown, .ro, 0x0, 0x0, 0x0⟩,
   ⟨0x770028, [(128, 0x40)], .crown, .ro, 0x0, 0x0, 0x0⟩,
   ⟨0x77002C, [(128, 0x40)], .crown, .ro, 0x0, 0x0, 0x0⟩,
   ⟨0x770030, [(128, 0x40)], .crown, .ro, 0x0, 0x0, 0x0⟩,
   ⟨0x770034, [(128, 0x40)], .crown, .ro, 0x0, 0x0, 0x0⟩,
   ⟨0x770038, [(128, 0x40)], .crown, .ro, 0x0, 0x0, 0x0⟩,
   ⟨0x77003C, [(128, 0x40)], .crown, .ro, 0x0, 0x0, 0x0⟩]

/-- The POOL registers (class, masks and reset values of that block's register map). -/
def rowsPool : List RegRow :=
  [⟨0x780000, [], .crown, .ro, 0x0, 0x0, 0x800⟩,
   ⟨0x780004, [], .crown, .rw, 0x7FFFFF, 0x0, 0x0⟩,
   ⟨0x780008, [], .crown, .rw, 0x7FFFFF, 0x0, 0x0⟩,
   ⟨0x780010, [], .crown, .rw, 0x7FF, 0x0, 0x0⟩,
   ⟨0x780020, [(4, 0x4)], .crown, .ro, 0x0, 0x0, 0x0⟩,
   ⟨0x780030, [], .crown, .rw, 0xFFFFFF, 0x0, 0xFFC000⟩,
   ⟨0x780034, [], .crown, .wo, 0x1, 0x0, 0x0⟩,
   ⟨0x780038, [], .crown, .ro, 0x0, 0x0, 0x0⟩,
   ⟨0x78003C, [], .crown, .ro, 0x0, 0x0, 0x0⟩,
   ⟨0x781000, [(128, 0x10)], .crown, .st, 0x7FFFFF, 0x0, 0x0⟩,
   ⟨0x781004, [(128, 0x10)], .crown, .st, 0x7FFFFF, 0x0, 0x0⟩,
   ⟨0x781008, [(128, 0x10)], .crown, .ro, 0x0, 0x0, 0x0⟩]

/-- The DEC registers (class, masks and reset values of that block's register map). -/
def rowsDec : List RegRow :=
  [⟨0x7C0000, [], .crown, .ro, 0x0, 0x0, 0x0⟩,
   ⟨0x7C0004, [], .crown, .st, 0x3FFF, 0x0, 0x0⟩,
   ⟨0x7C1000, [(128, 0x40)], .crown, .st, 0x3FFF, 0x0, 0x1030⟩,
   ⟨0x7C1004, [(128, 0x40)], .crown, .st, 0x7FFFFFF, 0x0, 0x0⟩,
   ⟨0x7C1008, [(128, 0x40)], .crown, .st, 0xFFF, 0x0, 0x0⟩,
   ⟨0x7C1010, [(128, 0x40)], .crown, .ro, 0x0, 0x0, 0x0⟩,
   ⟨0x7C1014, [(128, 0x40)], .crown, .ro, 0x0, 0x0, 0x0⟩,
   ⟨0x7C1018, [(128, 0x40)], .crown, .ro, 0x0, 0x0, 0x0⟩,
   ⟨0x7C101C, [(128, 0x40)], .crown, .ro, 0x0, 0x0, 0x0⟩,
   ⟨0x7C1020, [(128, 0x40)], .crown, .ro, 0x0, 0x0, 0x0⟩]

/-- The PKT registers (class, masks and reset values of that block's register map). -/
def rowsPkt : List RegRow :=
  [⟨0x610000, [(2048, 0x40)], .root, .st, 0x3FFFFFF, 0x0, 0x2800000⟩,
   ⟨0x600000, [], .root, .ro, 0x0, 0x0, 0x0⟩,
   ⟨0x600010, [], .root, .rw, 0x3FFF, 0x0, 0x0⟩,
   ⟨0x600014, [], .root, .ro, 0x0, 0x0, 0x0⟩,
   ⟨0x610004, [(2048, 0x40)], .root, .st, 0x3FFFF, 0x0, 0x1C578⟩,
   ⟨0x610008, [(2048, 0x40)], .root, .st, 0xFFFFFFFF, 0x0, 0x0⟩,
   ⟨0x61000C, [(2048, 0x40)], .root, .st, 0xFFFFFFFF, 0x0, 0x0⟩,
   ⟨0x610010, [(2048, 0x40)], .root, .st, 0xFFFFFFFF, 0x0, 0x0⟩,
   ⟨0x610014, [(2048, 0x40)], .root, .st, 0xFFFFFFFF, 0x0, 0x0⟩,
   ⟨0x610018, [(2048, 0x40)], .root, .st, 0xFFFFFFFF, 0x0, 0x0⟩,
   ⟨0x61001C, [(2048, 0x40)], .root, .st, 0x3F7F, 0x0, 0x60⟩,
   ⟨0x610020, [(2048, 0x40)], .root, .st, 0xFFFFFFFF, 0x0, 0x0⟩,
   ⟨0x610024, [(2048, 0x40)], .root, .st, 0x7FFFFFF, 0x0, 0x2000100⟩,
   ⟨0x610028, [(2048, 0x40)], .root, .st, 0xFFF, 0x0, 0x0⟩,
   ⟨0x610030, [(2048, 0x40)], .root, .ro, 0x0, 0x0, 0x0⟩,
   ⟨0x610034, [(2048, 0x40)], .root, .ro, 0x0, 0x0, 0x0⟩,
   ⟨0x640000, [(768, 0x10)], .root, .ro, 0x0, 0x0, 0x0⟩,
   ⟨0x640004, [(768, 0x10)], .root, .ro, 0x0, 0x0, 0x0⟩,
   ⟨0x640008, [(768, 0x10)], .root, .ro, 0x0, 0x0, 0x0⟩]

/-- The WHL registers (class, masks and reset values of that block's register map). -/
def rowsWhl : List RegRow :=
  [⟨0x680000, [], .root, .ro, 0x0, 0x0, 0x0⟩,
   ⟨0x680004, [], .root, .ro, 0x0, 0x0, 0x0⟩,
   ⟨0x680008, [], .root, .ro, 0x0, 0x0, 0x0⟩,
   ⟨0x68000C, [], .root, .ro, 0x0, 0x0, 0x0⟩,
   ⟨0x680010, [], .root, .rw, 0x1FFFFFFF, 0x0, 0x3E8⟩,
   ⟨0x680020, [(24, 0x4)], .root, .rw, 0xFFFFFFFF, 0x0, 0x0⟩,
   ⟨0x680080, [], .root, .rw, 0x3FFF, 0x0, 0x0⟩,
   ⟨0x680084, [], .root, .ro, 0x0, 0x0, 0x0⟩,
   ⟨0x680088, [], .root, .wo, 0x1, 0x0, 0x0⟩,
   ⟨0x681000, [(768, 0x10)], .root, .lv, 0x7FFFFFFF, 0x0, 0x0⟩,
   ⟨0x681004, [(768, 0x10)], .root, .ro, 0x0, 0x0, 0x0⟩,
   ⟨0x681008, [(768, 0x10)], .root, .ro, 0x0, 0x0, 0x0⟩,
   ⟨0x68100C, [(768, 0x10)], .root, .ro, 0x0, 0x0, 0x0⟩]

/-- The GATE registers (class, masks and reset values of that block's register map). -/
def rowsGate : List RegRow :=
  [⟨0x700000, [(96, 0x2000)], .root, .lv, 0x3, 0x0, 0x0⟩,
   ⟨0x700004, [(96, 0x2000)], .root, .rw, 0x3FFFFFFF, 0x0, 0x0⟩,
   ⟨0x700008, [(96, 0x2000)], .root, .rw, 0xFFFFFFFF, 0x0, 0x0⟩,
   ⟨0x70000C, [(96, 0x2000)], .root, .rw, 0xFFFF, 0x0, 0x0⟩,
   ⟨0x700010, [(96, 0x2000)], .root, .rw, 0x3FFFFFFF, 0x0, 0xF4240⟩,
   ⟨0x700014, [(96, 0x2000)], .root, .rw, 0x1FF, 0x0, 0x1⟩,
   ⟨0x700020, [(96, 0x2000)], .root, .ro, 0x0, 0x0, 0x3FC⟩,
   ⟨0x700024, [(96, 0x2000)], .root, .ro, 0x0, 0x0, 0x0⟩,
   ⟨0x700028, [(96, 0x2000)], .root, .ro, 0x0, 0x0, 0x0⟩,
   ⟨0x70002C, [(96, 0x2000)], .root, .ro, 0x0, 0x0, 0x0⟩,
   ⟨0x700030, [(96, 0x2000)], .root, .ro, 0x0, 0x0, 0x0⟩,
   ⟨0x700040, [(96, 0x2000)], .root, .ro, 0x0, 0x0, 0x0⟩,
   ⟨0x700044, [(96, 0x2000)], .root, .ro, 0x0, 0x0, 0x0⟩,
   ⟨0x700800, [(96, 0x2000), (256, 0x4)], .root, .rw, 0xFFFFFFFF, 0x0, 0xFF⟩,
   ⟨0x700C00, [(96, 0x2000), (256, 0x4)], .root, .ro, 0x0, 0x0, 0x0⟩]

/-- The AUD registers (class, masks and reset values of that block's register map). -/
def rowsAud : List RegRow :=
  [⟨0x801000, [(16, 0x40)], .root, .st, 0x7FFFFF, 0x0, 0x30800⟩,
   ⟨0x800000, [], .root, .ro, 0x0, 0x0, 0x0⟩,
   ⟨0x801004, [(16, 0x40)], .root, .st, 0xFFFFFFFF, 0x0, 0x80000⟩,
   ⟨0x801008, [(16, 0x40)], .root, .st, 0xFFFF, 0x0, 0x0⟩,
   ⟨0x80100C, [(16, 0x40)], .root, .ro, 0x0, 0x0, 0x420⟩,
   ⟨0x801010, [(16, 0x40)], .root, .ro, 0x0, 0x0, 0x0⟩,
   ⟨0x801014, [(16, 0x40)], .root, .ro, 0x0, 0x0, 0x0⟩,
   ⟨0x801018, [(16, 0x40)], .root, .ro, 0x0, 0x0, 0x0⟩,
   ⟨0x802000, [(256, 0x40)], .root, .st, 0x7FFFFFFF, 0x0, 0x4002000⟩,
   ⟨0x802004, [(256, 0x40)], .root, .st, 0xFFFFFFFF, 0x0, 0x0⟩,
   ⟨0x802008, [(256, 0x40)], .root, .st, 0xFFFFFFFF, 0x0, 0x0⟩,
   ⟨0x80200C, [(256, 0x40)], .root, .st, 0x1F, 0x0, 0x8⟩,
   ⟨0x802010, [(256, 0x40)], .root, .st, 0xFFFFFFFF, 0x0, 0x0⟩,
   ⟨0x802014, [(256, 0x40)], .root, .st, 0xFFFFFFFF, 0x0, 0x0⟩,
   ⟨0x802018, [(256, 0x40)], .root, .st, 0xFFFFFFFF, 0x0, 0x0⟩,
   ⟨0x80201C, [(256, 0x40)], .root, .st, 0xFFFFFFFF, 0x0, 0x0⟩,
   ⟨0x802020, [(256, 0x40)], .root, .st, 0x1FFFFF, 0x0, 0x0⟩,
   ⟨0x802024, [(256, 0x40)], .root, .lv, 0xFFFFFFFF, 0x0, 0x0⟩,
   ⟨0x802028, [(256, 0x40)], .root, .ro, 0x0, 0x0, 0x0⟩,
   ⟨0x80202C, [(256, 0x40)], .root, .ro, 0x0, 0x0, 0x0⟩] ++
  [⟨0x802030, [(256, 0x40)], .root, .ro, 0x0, 0x0, 0x0⟩,
   ⟨0x802034, [(256, 0x40)], .root, .ro, 0x0, 0x0, 0x0⟩,
   ⟨0x802038, [(256, 0x40)], .root, .ro, 0x0, 0x0, 0x0⟩,
   ⟨0x80203C, [(256, 0x40)], .root, .ro, 0x0, 0x0, 0x0⟩,
   ⟨0x808000, [(16, 0x10)], .root, .ro, 0x0, 0x0, 0x0⟩,
   ⟨0x808004, [(16, 0x10)], .root, .ro, 0x0, 0x0, 0x0⟩]

/-- The PAIR registers (class, masks and reset values of that block's register map). -/
def rowsPair : List RegRow :=
  [⟨0x900100, [(32, 0x40)], .root, .st, 0x7FFFFF, 0x0, 0x3C10⟩,
   ⟨0x900110, [(32, 0x40)], .root, .lv, 0x7F, 0x0, 0x0⟩,
   ⟨0x900114, [(32, 0x40)], .root, .ro, 0x0, 0x0, 0x0⟩,
   ⟨0x900000, [], .root, .ro, 0x0, 0x0, 0x0⟩,
   ⟨0x900104, [(32, 0x40)], .root, .st, 0xFFFFFFFF, 0x0, 0x0⟩,
   ⟨0x900108, [(32, 0x40)], .root, .st, 0xFFFFFFFF, 0x0, 0x0⟩,
   ⟨0x90010C, [(32, 0x40)], .root, .st, 0x1FFF, 0x0, 0x1F4⟩,
   ⟨0x900118, [(32, 0x40)], .root, .st, 0xFFFF, 0x0, 0x0⟩,
   ⟨0x90011C, [(32, 0x40)], .root, .rw, 0xFFFFFFFF, 0x0, 0x0⟩,
   ⟨0x900120, [(32, 0x40)], .root, .rw, 0xFFFFFFFF, 0x0, 0x0⟩,
   ⟨0x900124, [(32, 0x40)], .root, .ro, 0x0, 0x0, 0x0⟩,
   ⟨0x900128, [(32, 0x40)], .root, .ro, 0x0, 0x0, 0x0⟩,
   ⟨0x90012C, [(32, 0x40)], .root, .ro, 0x0, 0x0, 0x0⟩,
   ⟨0x900130, [(32, 0x40)], .root, .ro, 0x0, 0x0, 0x0⟩,
   ⟨0x900134, [(32, 0x40)], .root, .ro, 0x0, 0x0, 0x0⟩,
   ⟨0x900138, [(32, 0x40)], .root, .ro, 0x0, 0x0, 0x0⟩,
   ⟨0x90013C, [(32, 0x40)], .root, .wo, 0x3, 0x0, 0x0⟩]

/-- The TWIN registers (class, masks and reset values of that block's register map). -/
def rowsTwin : List RegRow :=
  [⟨0x980000, [], .root, .st, 0x3FF, 0x0, 0x0⟩,
   ⟨0x980004, [], .root, .st, 0xFFFFFFFF, 0x0, 0x0⟩,
   ⟨0x980008, [], .root, .st, 0xFFFFFFFF, 0x0, 0x0⟩,
   ⟨0x98000C, [], .root, .st, 0xFFFFFFFF, 0x0, 0x0⟩,
   ⟨0x980010, [(4, 0x4)], .root, .wo, 0xFFFFFFFF, 0x0, 0x0⟩,
   ⟨0x980020, [], .root, .ro, 0x0, 0x0, 0x0⟩,
   ⟨0x980024, [], .root, .ro, 0x0, 0x0, 0x0⟩,
   ⟨0x980028, [], .root, .ro, 0x0, 0x0, 0x0⟩,
   ⟨0x98002C, [], .root, .ro, 0x0, 0x0, 0x0⟩,
   ⟨0x980030, [], .root, .ro, 0x0, 0x0, 0x0⟩,
   ⟨0x980034, [], .root, .st, 0xFFFFFFFF, 0x0, 0x0⟩,
   ⟨0x980038, [], .root, .st, 0xFFFFFFFF, 0x0, 0x0⟩,
   ⟨0x98003C, [], .root, .st, 0x7FF, 0x0, 0x0⟩,
   ⟨0x980040, [], .root, .lv, 0xFFFFFFFF, 0x0, 0x0⟩,
   ⟨0x980044, [], .root, .ro, 0x0, 0x0, 0x0⟩,
   ⟨0x980048, [], .root, .ro, 0x0, 0x0, 0x0⟩,
   ⟨0x98004C, [], .root, .ro, 0x0, 0x0, 0x0⟩,
   ⟨0x980080, [(16, 0x4)], .root, .st, 0x1FF, 0x0, 0x0⟩]

/-- The HBM registers (class, masks and reset values of that block's register map). -/
def rowsHbm : List RegRow :=
  [⟨0x800000, [], .crown, .lv, 0xF, 0x0, 0x0⟩,
   ⟨0x800004, [], .crown, .ro, 0x0, 0x0, 0x0⟩,
   ⟨0x800008, [], .crown, .rw, 0x7, 0x0, 0x2⟩,
   ⟨0x80000C, [], .crown, .rw, 0x3FFFF, 0x0, 0xC136⟩,
   ⟨0x800010, [], .crown, .lv, 0xFFFF, 0x0, 0x800⟩,
   ⟨0x800014, [], .crown, .ro, 0x0, 0x0, 0x0⟩,
   ⟨0x800018, [], .crown, .ro, 0x0, 0x0, 0x0⟩,
   ⟨0x80001C, [], .crown, .ro, 0x0, 0x0, 0x0⟩,
   ⟨0x800020, [], .crown, .ro, 0x0, 0x0, 0x0⟩,
   ⟨0x800024, [], .crown, .ro, 0x0, 0x0, 0x0⟩,
   ⟨0x800028, [], .crown, .rw, 0xFF, 0x0, 0x4⟩,
   ⟨0x800100, [(8, 0x10)], .crown, .rw, 0x7FFF, 0x0, 0x0⟩,
   ⟨0x800104, [(8, 0x10)], .crown, .rw, 0x7FFF, 0x0, 0x0⟩,
   ⟨0x800108, [(8, 0x10)], .crown, .rw, 0x3FFFF, 0x0, 0x0⟩,
   ⟨0x800200, [], .crown, .wo, 0xFFFFFFFF, 0x0, 0x0⟩,
   ⟨0x800204, [], .crown, .rw, 0xFFFFFFFF, 0x0, 0x1⟩,
   ⟨0x800208, [], .crown, .ro, 0x0, 0x0, 0x0⟩,
   ⟨0x80020C, [], .crown, .ro, 0x0, 0x0, 0x0⟩,
   ⟨0x800210, [], .crown, .ro, 0x0, 0x0, 0x0⟩,
   ⟨0x800220, [], .crown, .rw, 0xFFF, 0x0, 0x0⟩] ++
  [⟨0x800224, [], .crown, .rw, 0x1FF, 0x0, 0x100⟩,
   ⟨0x800240, [], .crown, .rw, 0x800FFFFF, 0x0, 0x0⟩,
   ⟨0x800244, [], .crown, .ro, 0x0, 0x0, 0x0⟩,
   ⟨0x800250, [(16, 0x4)], .crown, .rw, 0xFFFFFFFF, 0x0, 0x0⟩]

/-- The LANE registers (class, masks and reset values of that block's register map). -/
def rowsLane : List RegRow :=
  [⟨0xA01000, [(96, 0x80)], .root, .st, 0x1FF, 0x0, 0x40⟩,
   ⟨0xA04000, [(4, 0x80)], .root, .st, 0x1F9, 0x0, 0x40⟩,
   ⟨0xA01004, [(96, 0x80)], .root, .lv, 0xF, 0x0, 0x0⟩,
   ⟨0xA04004, [(4, 0x80)], .root, .lv, 0xF, 0x0, 0x0⟩,
   ⟨0xA01008, [(96, 0x80)], .root, .ro, 0x0, 0x0, 0x0⟩,
   ⟨0xA04008, [(4, 0x80)], .root, .ro, 0x0, 0x0, 0x0⟩,
   ⟨0xA0100C, [(96, 0x80)], .root, .rw, 0xFFFFFFFF, 0x0, 0x3E864BB8⟩,
   ⟨0xA0400C, [(4, 0x80)], .root, .rw, 0xFFFFFFFF, 0x0, 0x3E864BB8⟩,
   ⟨0xA01010, [(96, 0x80)], .root, .rw, 0x1F, 0x0, 0x0⟩,
   ⟨0xA04010, [(4, 0x80)], .root, .rw, 0x1F, 0x0, 0x0⟩,
   ⟨0xA01014, [(96, 0x80)], .root, .rw, 0x3F7, 0x0, 0x140⟩,
   ⟨0xA04014, [(4, 0x80)], .root, .rw, 0x3F7, 0x0, 0x140⟩,
   ⟨0xA01018, [(96, 0x80)], .root, .rw, 0xFFFF, 0x0, 0x2849⟩,
   ⟨0xA04018, [(4, 0x80)], .root, .rw, 0xFFFF, 0x0, 0x2849⟩,
   ⟨0xA0101C, [(96, 0x80)], .root, .rw, 0x3F3F3F, 0x0, 0x82800⟩,
   ⟨0xA0401C, [(4, 0x80)], .root, .rw, 0x3F3F3F, 0x0, 0x82800⟩,
   ⟨0xA01020, [(96, 0x80)], .root, .ro, 0x0, 0x0, 0x0⟩,
   ⟨0xA04020, [(4, 0x80)], .root, .ro, 0x0, 0x0, 0x0⟩,
   ⟨0xA01024, [(96, 0x80)], .root, .ro, 0x0, 0x0, 0x0⟩,
   ⟨0xA04024, [(4, 0x80)], .root, .ro, 0x0, 0x0, 0x0⟩] ++
  [⟨0xA01028, [(96, 0x80)], .root, .ro, 0x0, 0x0, 0x0⟩,
   ⟨0xA04028, [(4, 0x80)], .root, .ro, 0x0, 0x0, 0x0⟩,
   ⟨0xA0102C, [(96, 0x80)], .root, .ro, 0x0, 0x0, 0x0⟩,
   ⟨0xA0402C, [(4, 0x80)], .root, .ro, 0x0, 0x0, 0x0⟩,
   ⟨0xA01030, [(96, 0x80)], .root, .ro, 0x0, 0x0, 0x0⟩,
   ⟨0xA04030, [(4, 0x80)], .root, .ro, 0x0, 0x0, 0x0⟩,
   ⟨0xA01034, [(96, 0x80)], .root, .ro, 0x0, 0x0, 0x0⟩,
   ⟨0xA04034, [(4, 0x80)], .root, .ro, 0x0, 0x0, 0x0⟩,
   ⟨0xA01038, [(96, 0x80)], .root, .ro, 0x0, 0x0, 0x0⟩,
   ⟨0xA04038, [(4, 0x80)], .root, .ro, 0x0, 0x0, 0x0⟩,
   ⟨0xA05000, [(96, 0x20)], .root, .st, 0x3FF, 0x0, 0x0⟩,
   ⟨0xA05004, [(96, 0x20)], .root, .ro, 0x0, 0x0, 0x0⟩,
   ⟨0xA05008, [(96, 0x20)], .root, .ro, 0x0, 0x0, 0x0⟩,
   ⟨0xA06080, [(7, 0x80)], .root, .ro, 0x0, 0x0, 0x0⟩,
   ⟨0xA06084, [(7, 0x80)], .root, .rw, 0x3FFF, 0x0, 0x1800⟩,
   ⟨0xA06088, [(7, 0x80)], .root, .ro, 0x0, 0x0, 0x0⟩,
   ⟨0xA0608C, [(7, 0x80)], .root, .ro, 0x0, 0x0, 0x0⟩,
   ⟨0xA06090, [(7, 0x80)], .root, .ro, 0x0, 0x0, 0x0⟩,
   ⟨0xA08000, [(25, 0x10)], .root, .ro, 0x0, 0x0, 0x0⟩,
   ⟨0xA08004, [(25, 0x10)], .root, .ro, 0x0, 0x0, 0x0⟩] ++
  [⟨0xA00000, [], .root, .ro, 0x0, 0x0, 0x0⟩]

/-- The FAB registers (class, masks and reset values of that block's register map). -/
def rowsFab : List RegRow :=
  [⟨0xC00000, [], .die, .lv, 0x3, 0x0, 0x0⟩,
   ⟨0xC00004, [], .die, .w1c, 0x0, 0x1, 0x0⟩,
   ⟨0xC00008, [], .die, .ro, 0x0, 0x0, 0x0⟩,
   ⟨0xC0000C, [], .die, .ro, 0x0, 0x0, 0x0⟩,
   ⟨0xC00100, [(4, 0x4)], .root, .rw, 0xF, 0x0, 0x4⟩,
   ⟨0xC00110, [(1, 0x4)], .root, .rw, 0xFF, 0x0, 0x88⟩,
   ⟨0xC00114, [(1, 0x4)], .root, .rw, 0xF, 0x0, 0x6⟩,
   ⟨0xC00118, [(1, 0x4)], .root, .rw, 0xF, 0x0, 0xC⟩,
   ⟨0xC0011C, [(1, 0x4)], .root, .rw, 0xF, 0x0, 0xE⟩,
   ⟨0xC00120, [(1, 0x4)], .root, .rw, 0xF, 0x0, 0xD⟩,
   ⟨0xC00124, [(1, 0x4)], .root, .rw, 0xF, 0x0, 0x3⟩,
   ⟨0xC00128, [(1, 0x4)], .root, .rw, 0xF, 0x0, 0xB⟩,
   ⟨0xC0012C, [(1, 0x4)], .root, .rw, 0xF, 0x0, 0xA⟩,
   ⟨0xC00130, [(2, 0x4)], .root, .rw, 0xF, 0x0, 0xF⟩,
   ⟨0xC00138, [(2, 0x4)], .root, .rw, 0xF, 0x0, 0x2⟩,
   ⟨0xC00140, [(7, 0x4)], .root, .rw, 0xF, 0x0, 0xC⟩,
   ⟨0xC0015C, [(1, 0x4)], .root, .rw, 0xF, 0x0, 0x1⟩,
   ⟨0xC00100, [(2, 0x4)], .crown, .rw, 0xF, 0x0, 0x4⟩,
   ⟨0xC00108, [(9, 0x4)], .crown, .rw, 0xF, 0x0, 0xC⟩,
   ⟨0xC0012C, [(2, 0x4)], .crown, .rw, 0xF, 0x0, 0xC⟩] ++
  [⟨0xC00134, [(1, 0x4)], .crown, .rw, 0xF, 0x0, 0x9⟩,
   ⟨0xC00138, [(1, 0x4)], .crown, .rw, 0xF, 0x0, 0x6⟩,
   ⟨0xC0013C, [(1, 0x4)], .crown, .rw, 0xF, 0x0, 0x3⟩,
   ⟨0xC00200, [(16, 0x8)], .root, .rw, 0xFFFF, 0x0, 0x400⟩,
   ⟨0xC00200, [(12, 0x8)], .crown, .rw, 0xFFFF, 0x0, 0x400⟩,
   ⟨0xC00204, [(16, 0x8)], .root, .ro, 0x0, 0x0, 0x0⟩,
   ⟨0xC00204, [(12, 0x8)], .crown, .ro, 0x0, 0x0, 0x0⟩]

/-- The CRC registers (class, masks and reset values of that block's register map). -/
def rowsCrc : List RegRow :=
  [⟨0xC80000, [(16, 0x40)], .die, .rw, 0x3, 0x0, 0x1⟩,
   ⟨0xC80004, [(16, 0x40)], .die, .wo, 0x7, 0x0, 0x0⟩,
   ⟨0xC80008, [(16, 0x40)], .die, .rw, 0xFFFFFFFF, 0x0, 0xFFFFFFFF⟩,
   ⟨0xC8000C, [(16, 0x40)], .die, .ro, 0x0, 0x0, 0x0⟩,
   ⟨0xC80010, [(16, 0x40)], .die, .rw, 0xFFFFFFFF, 0x0, 0x0⟩,
   ⟨0xC80014, [(16, 0x40)], .die, .rw, 0xFFFFFFFF, 0x0, 0x0⟩,
   ⟨0xC80018, [(16, 0x40)], .die, .rw, 0xFFFFFFFF, 0x0, 0x0⟩,
   ⟨0xC8001C, [(16, 0x40)], .die, .rw, 0xFFFFFFFF, 0x0, 0x0⟩,
   ⟨0xC80020, [(16, 0x40)], .die, .rw, 0x7FFFFFFF, 0x0, 0x0⟩,
   ⟨0xC80024, [(16, 0x40)], .die, .ro, 0x0, 0x0, 0x0⟩,
   ⟨0xC80028, [(16, 0x40)], .die, .ro, 0x0, 0x0, 0x0⟩,
   ⟨0xC8002C, [(16, 0x40)], .die, .rw, 0x1, 0x0, 0x0⟩,
   ⟨0xC80030, [(16, 0x40)], .die, .wo, 0xFFFFFFFF, 0x0, 0x0⟩,
   ⟨0xC80034, [(16, 0x40)], .die, .wo, 0x3FF, 0x0, 0x0⟩,
   ⟨0xC80038, [(16, 0x40)], .die, .wo, 0xFF, 0x0, 0x0⟩]

/-- The REC registers (class, masks and reset values of that block's register map). -/
def rowsRec : List RegRow :=
  [⟨0xD00000, [], .die, .ro, 0x0, 0x0, 0x0⟩,
   ⟨0xD00004, [], .die, .ro, 0x0, 0x0, 0x0⟩,
   ⟨0xD00008, [], .die, .rw, 0x3, 0x0, 0x0⟩,
   ⟨0xD0000C, [], .die, .ro, 0x0, 0x0, 0x0⟩,
   ⟨0xD00020, [], .root, .lv, 0x1FFFFFFF, 0x0, 0x7D0000⟩,
   ⟨0xD00024, [], .root, .ro, 0x0, 0x0, 0x0⟩,
   ⟨0xD00030, [(4, 0x8)], .root, .rw, 0xFFFFFFFF, 0x0, 0x0⟩,
   ⟨0xD00034, [(4, 0x8)], .root, .rw, 0xFFFF0001, 0x0, 0xFFFF0000⟩,
   ⟨0xD00080, [(4, 0x4)], .root, .ro, 0x0, 0x0, 0x0⟩,
   ⟨0xD00090, [], .root, .rw, 0xFFFFFFFF, 0x0, 0x0⟩,
   ⟨0xD00094, [], .root, .rw, 0x7, 0x0, 0x0⟩,
   ⟨0xD000A0, [(4, 0x4)], .root, .wo, 0xFFFFFFFF, 0x0, 0x0⟩,
   ⟨0xD000B0, [], .root, .wo, 0x1, 0x0, 0x0⟩,
   ⟨0xD000B4, [], .root, .ro, 0x0, 0x0, 0x0⟩]

/-- The RST registers (class, masks and reset values of that block's register map). -/
def rowsRst : List RegRow :=
  [⟨0xE00000, [], .die, .w1c, 0x0, 0xFF, 0x0⟩,
   ⟨0xE00004, [], .root, .wo, 0xFFFFFFFF, 0x0, 0x0⟩,
   ⟨0xE00008, [], .die, .rw, 0xFFFFFFFF, 0x0, 0xFFFFFFFF⟩,
   ⟨0xE0000C, [], .die, .lv, 0x1FFFF, 0x0, 0x7D0⟩,
   ⟨0xE00010, [], .die, .wo, 0xFFFFFFFF, 0x0, 0x0⟩,
   ⟨0xE00014, [], .die, .ro, 0x0, 0x0, 0x0⟩,
   ⟨0xE00018, [], .die, .ro, 0x0, 0x0, 0x0⟩,
   ⟨0xE0001C, [], .root, .rw, 0x1FFFF, 0x0, 0x14⟩,
   ⟨0xE00020, [], .die, .ro, 0x0, 0x0, 0x0⟩,
   ⟨0xE00100, [(16, 0x8)], .root, .rw, 0xFFFFFFFF, 0x0, 0x0⟩,
   ⟨0xE00104, [(16, 0x8)], .root, .lv, 0x1, 0x0, 0x0⟩]

/-- The PWR registers (class, masks and reset values of that block's register map). -/
def rowsPwr : List RegRow :=
  [⟨0xE80000, [], .root, .wo, 0xF0, 0x0, 0x2⟩,
   ⟨0xE80004, [], .root, .ro, 0x0, 0x0, 0x76⟩,
   ⟨0xE80004, [], .crown, .ro, 0x0, 0x0, 0x98⟩,
   ⟨0xE80020, [], .die, .lv, 0xFFFF, 0x0, 0x6973⟩,
   ⟨0xE80024, [], .die, .ro, 0x0, 0x0, 0x0⟩,
   ⟨0xE80100, [(32, 0x8)], .root, .rw, 0xFFFFFFFF, 0x0, 0x0⟩,
   ⟨0xE80104, [(32, 0x8)], .root, .lv, 0x3, 0x0, 0x0⟩]

/-- The BOOT registers (class, masks and reset values of that block's register map). -/
def rowsBoot : List RegRow :=
  [⟨0xF00000, [], .root, .ro, 0x0, 0x0, 0x0⟩,
   ⟨0xF00004, [], .die, .ro, 0x0, 0x0, 0x0⟩,
   ⟨0xF00008, [], .root, .rw, 0x3FFFFF, 0x0, 0x0⟩,
   ⟨0xF0000C, [], .root, .wo, 0x1, 0x0, 0x0⟩,
   ⟨0xF00010, [], .crown, .lv, 0x1, 0x0, 0x0⟩]

/-- R466, R468: the rows of the block that covers window offset `off`; staging is decoded before the spill blocks (R467). -/
def blockRows (root : Bool) (off : Nat) : List RegRow :=
  if off < 0x300000 then
    if off < 0x20000 then rowsHif
    else if off < 0x110000 then rowsLt
    else if off < 0x120000 then rowsSel
    else if off < 0x130000 then rowsPtp
    else if 0x140000 ≤ off ∧ off < 0x140200 then rowsStg
    else if off < 0x200000 then rowsXlt
    else rowsRing
  else if off < 0x500000 then rowsSch
  else if root then
    if off < 0x580000 then rowsIng
    else if off < 0x600000 then rowsFlow
    else if off < 0x680000 then rowsPkt
    else if off < 0x700000 then rowsWhl
    else if off < 0x800000 then rowsGate
    else if off < 0x900000 then rowsAud
    else if off < 0x980000 then rowsPair
    else if off < 0xA00000 then rowsTwin
    else if off < 0xC00000 then rowsLane
    else if off < 0xC80000 then rowsFab
    else if off < 0xD00000 then rowsCrc
    else if off < 0xE00000 then rowsRec
    else if off < 0xE80000 then rowsRst
    else if off < 0xF00000 then rowsPwr
    else rowsBoot
  else if off < 0x600000 then []
  else if off < 0x680000 then (if off < 0x610000 then rowsCmp else rowsCmp ++ rowsCmpl)
  else if off < 0x700000 then rowsLut
  else if off < 0x740000 then rowsEnc
  else if off < 0x760000 then rowsMes
  else if off < 0x780000 then rowsLedg
  else if off < 0x7C0000 then rowsPool
  else if off < 0x800000 then rowsDec
  else if off < 0xC00000 then rowsHbm
  else if off < 0xC80000 then rowsFab
  else if off < 0xD00000 then rowsCrc
  else if off < 0xE00000 then rowsRec
  else if off < 0xE80000 then rowsRst
  else if off < 0xF00000 then rowsPwr
  else rowsBoot

/-- Whether a distance from instance 0 is that of an instance, by the (count, stride) pairs. -/
def dimsHit : Nat → List (Nat × Nat) → Bool
  | x, [] => x == 0
  | x, (c, st) :: t => decide (x / st < c) && dimsHit (x % st) t

/-- Whether a row covers a window offset of the root (or of a crown). -/
def RegRow.covers (root : Bool) (off : Nat) (r : RegRow) : Bool :=
  (match r.win with | .root => root | .crown => !root | .die => true) &&
    decide (r.off ≤ off) && dimsHit (off - r.off) r.dims

/-- The register map row at a BAR0 offset, if the offset is assigned (R464). -/
def regRow (a : Nat) : Option RegRow :=
  if a < 0x20000000 then
    (blockRows (a / 0x4000000 == 0) (a % 0x4000000)).find? (·.covers (a / 0x4000000 == 0) (a % 0x4000000))
  else none

/-- The access class of the register at a BAR0 offset. -/
def regCls (a : Nat) : Option Cls := (regRow a).map (·.cls)

/-- R108: HIF_HDMd_SIZE resets to 24 where crown d is present. -/
def hdmReset (crowns a : Nat) : Option (BitVec 32) :=
  if 0x10014 ≤ a ∧ a < 0x10014 + 4 * crowns ∧ a % 4 = 0 then some 24 else none

/-- The reset value of the register at a BAR0 offset (R469); an unassigned offset reads as zero (R464). The MSI-X
vector control words reset masked (notes/assumptions/11.md). -/
def regReset (crowns a : Nat) : BitVec 32 :=
  match hdmReset crowns a with
  | some v => v
  | none =>
    if 0x20000 ≤ a ∧ a < 0x28000 then (if a % 16 = 12 then 1 else 0)
    else ((regRow a).map (·.reset)).getD 0

end Sys2Proof.Machine
end

