-- ==== Sys2Proof/Machine/State.lean ====
section
/-!
DEFINITION. Sys2Proof/Machine/State.lean: the state of the package as plain data, the reasons a step can stop, and
the state right after reset. Every register of the register maps lives in the one register file `regs`; the other
fields hold what the spec gives the blocks behind their registers: tables, queues, lists, buffers, memories.
-/
namespace Sys2Proof.Machine

/-- Reasons a step can stop with a fault. The block never stops by itself: a refused request is an effect on the
registers (R11, R141), so no meaning raises a fault. Safe: there is nothing to raise. -/
inductive Fault where
  /-- Raised by no meaning; the name the model would give to a stop of the block. Safe. -/
  | halted
  deriving DecidableEq, Repr

/-- Reasons a command is refused as a whole. -/
inductive Refusal where
  /-- Raised by exec for a command that has no meaning yet, by its mnemonic. Safe. -/
  | notModelled (mnemonic : String)
  deriving DecidableEq, Repr

/-- What the package sends out of itself: signals, requests, messages and frames, in the order they leave. The list is
the model's own record of them (notes/assumptions/3.md). -/
inductive Msg where
  /-- MSI-X signal of a vector (R106). -/
  | msix (vec : Nat)
  /-- A RdShared of the doorbell line of a ring (R91). -/
  | rdShared (r : Nat)
  /-- A CleanEvict of the doorbell line of a ring (R107). -/
  | cleanEvict (r : Nat)
  /-- Data of a host read of the HDM window (R87). -/
  | hdmData (bytes : List Byte)
  /-- An error injected on a lane, or a module (100 + k) (R400). -/
  | inject (lane : Nat)
  /-- A back-invalidate snoop of an HDM window line (R87). -/
  | backInval (crown off : Nat)
  /-- A descriptor fetch of a ring's entry (R98). -/
  | descFetch (r idx : Nat)
  /-- A page request: PRG index, PASID if any, page address, Last flag (R120). -/
  | pageReq (prg : Nat) (pasid : Option Nat) (page : Nat) (last : Bool)
  /-- A translation request: PASID, if it carries one, and page address (R111, R113, R114). -/
  | transReq (pasid : Option Nat) (page : Nat)
  /-- A Stop Marker, for a PASID if any (R111). -/
  | stopMarker (pasid : Option Nat)
  /-- Completion of an ATS invalidation (R115). -/
  | invalDone
  /-- A Delay_Req of a PTP instance: sequence, whether unicast to the master, IPv4 source address (R73). -/
  | delayReq (i seq : Nat) (unicast : Bool) (src : Nat)
  /-- A synchronisation metadata TLV passed to the management cores (R73): PTP instance, bytes. -/
  | ptpTlv (i : Nat) (bytes : List Byte)
  /-- The dispatch interrupt of a consumer (R162). -/
  | dispatchIrq (die cons : Nat)
  /-- A frame handed to an Ethernet port: port, class, flow or 65535, length, and its bytes up to the FCS (R309, R317). -/
  | frame (port cls flow bytes : Nat) (data : List Byte)
  /-- A frame of the twin link: the lane it goes by (R402), type, pair or stream, words (R368). -/
  | twin (lane typ key : Nat) (words : List Nat)
  /-- A witness message: type and fields (R360), and the frame that carries its datagram; none through the mailbox (R361). -/
  | witness (typ : Nat) (m : WitMsg) (frame : List Byte)
  /-- A mirrored SDI line of entry k with its damage mark (R369). -/
  | mirror (k : Nat) (damaged : Bool) (x : SdiLine)
  /-- A sample frame of an output stream on its line (R339): stream, sample index, samples, and the place of its FS edge in cycles of the
  timeline's audio clock since sample 0 (R336, R337). -/
  | audio (stream idx : Nat) (frame : List AudSamp) (edge : Int)
  /-- A sample frame that leaves a port's elastic store (R345): port, sample index, samples. -/
  | audioPort (port idx : Nat) (frame : List AudSamp)
  /-- A picture released for display by a decode stream (R302). -/
  | show (crown stream pic : Nat)
  deriving DecidableEq, Repr

/-- A running line-time counter and its steering. Phase errors are in units of 1/25,600,000,000 ns, so that one cycle
of the slope limiter at S ns/s moves 64 S of them (R37, R68). -/
structure TlSt where
  acc : Nat          -- position within the frame, in 1/M of a frame (Machine/Time.lean)
  frame : Nat        -- 48-bit frame count (R40)
  freq : Int         -- frequency offset in use, 0.01 ppb
  perr : Int         -- remaining reference phase error
  pend : Int         -- pending software step (R69)
  soft : Int         -- software offset: the sum of accepted steps (R69)
  hist : List (Option Int)   -- minute samples, newest first (R70); none is an invalid minute
  minBad : Bool      -- the minute in progress holds time that makes it invalid
  minSum : Int       -- sum and number of the frequency samples of the minute in progress
  minCnt : Nat
  known : List Nat   -- candidates better than the target that have been seen QUALIFIED (R66)
  deriving DecidableEq, Repr

/-- One reference's qualifier (R60, R494). -/
structure RefSt where
  prev : Option Int      -- frequency of the period before, 0.01 ppb
  good : Int             -- last estimate made before a fault (R61)
  inBand : Bool          -- every condition of MEASURE held at the last sample
  glitches : List Nat    -- cycles of the glitches of the last 10 s
  phase : Int            -- time since the alignment point at the last applied sample, 2^-16 ns
  phaseAt : Nat          -- cycle of that sample
  tes : List (Nat × Int) -- deviations of the last WIN seconds, with their cycles, newest first (R60)
  count : Nat            -- reference frames up to the last applied sample (R64)
  peer : List Int        -- of ref 11: the time since each peer timeline's tick 0 at that sample, 2^-16 ns (R58)
  deriving DecidableEq, Repr

/-- The 1588 slave of one PTP instance (R73). -/
structure PtpInst where
  parent : Option AnnounceMsg
  foreign : List AnnounceMsg     -- the last Announce of each master heard, newest first (R73)
  waitSeq : Option (Nat × Int)   -- two-step Sync waiting for its Follow_Up: sequence, receive time in ns
  t1 : Int               -- last Sync pair, ns
  t2 : Int
  filt : Int             -- filtered offset, ns
  logSync : Int
  dreqSeq : Nat
  t3 : Option Int        -- send time of the Delay_Req in flight
  raws : List Int        -- last two raw offsets that were no glitch, newest first, ns
  bad : Bool             -- the last raw offset lay more than 1 us from its prediction (R60)
  quiet : Bool           -- no samples come (R75)
  dreqLog : Int          -- Delay_Req interval the master gave in Delay_Resp (R73)
  deriving DecidableEq, Repr

/-- A completion record (R99) or gap record (R102) before it has an index: its words without GEN, and the seconds and
line time of its outcome that the device keeps with it (R101). -/
structure CplRec where
  typ : Nat
  outcome : Nat
  reason : Nat
  tag : Nat
  ring : Nat
  idx : Nat
  stamp : Nat
  wm : Wm
  sec : Nat
  ns : Nat
  ltime : Nat
  deriving DecidableEq, Repr

/-- A fetched descriptor waiting for dispatch: its index and its 16 words. -/
structure Desc where
  idx : Nat
  words : List Word
  deriving DecidableEq, Repr

/-- What the device keeps of a host ring beside its registers. -/
structure RingSt where
  fetched : List Desc        -- validated, not dispatched, oldest first
  batch : List CplRec        -- CPL: open batch, oldest first
  held : List CplRec         -- CPL: holding queue of R104
  gapLost : Nat              -- CPL: records discarded since the last gap record
  gapRec : Option CplRec     -- CPL: the last record discarded
  seq : Nat                  -- CPL: batch number
  entryLost : Nat            -- STAT, EVT, OUT: entries lost since the last gap marker
  prevDbgen : Word           -- DBGEN of the previous enable (R107)
  latch : Word               -- BAR2 INDEX latch (R93, R488)
  pinned : Bool              -- doorbell line held
  rung : Bool                -- marked as rung by a snoop
  reading : Bool             -- RdShared outstanding
  again : Bool               -- a further invalidation arrived during the read
  queue : Option Nat         -- root hardware queue held (R107)
  fetchFault : Bool          -- a fetch waits for a page (R126)
  recFault : Bool            -- a record write waits for a page (R116, R127)
  spill : List (Nat × Nat)   -- OUT: records in the spill area, oldest first: place in the area, payload bytes (R127)
  wbDue : Bool               -- SUB, CAP: index advanced since the last write-back (R105)
  wbAt : Option Nat          -- SUB, CAP: cycle of the last write-back
  stuck : Bool               -- the entry at the consumer index did not yet carry GEN(i) (R98)
  capHeld : Option Nat         -- CAP: bytes of a held image (R148)
  capData : List Byte          -- CAP: those bytes
  lossInfo : Nat             -- STAT: STREAM and CAUSE of the last loss, as the gap marker holds them (R267)
  cuts : List (Nat × Nat)    -- STAT: aborted runs whose gap marker is still to be written (R269), oldest first: STREAM and CAUSE, LOST
  deriving DecidableEq, Repr

/-- Where a piece of descriptor work stands. -/
inductive JobPhase where
  | waiting   -- a CAPSULE without a buffer (R148)
  | armed     -- a CAPSULE whose record waits until its set applies (R147)
  | running
  | parked
  deriving DecidableEq, Repr

/-- Dispatched work of a descriptor that has no outcome yet. -/
structure Job where
  ring : Nat
  idx : Nat
  words : List Word
  phase : JobPhase
  wm : Wm                        -- watermark of the last safe point (R121)
  stop : Option (Nat × Nat)      -- outcome and reason it ends with at the next safe point
  faulted : Bool                 -- an access faulted; it parks at the next safe point
  set : Option Nat               -- WAIT_APPLY: the armed set the record waits for (R147)
  slot : Option Nat              -- park slot
  buf : List Byte                -- CAPSULE: the bytes that its capsule buffer holds (R148)
  deriving DecidableEq, Repr

/-- A task entry (R156) with what the device keeps beside it. `state` has the encoding of R156. `words` are those of the
descriptor that made the task, [] for the device's own; `gone` marks a running task whose scheduler was reset (R152); `joinAt`
and `joinCls` say when and how it last reached the tail of its level (R158); `stopAt` is the cycle of `stop`, and `startAt` that after
which it last started, plus 1 (R165). -/
structure Task where
  state : Nat
  level : Nat
  dlist : Nat
  creq : Bool
  desc : Bool
  pre : Bool
  dtl : Nat
  queue : Nat
  epoch : Nat
  cons : Nat
  tag : Nat
  wake : Nat
  deadline : Nat
  arg0 : Word
  arg1 : Word
  ring : Nat                     -- descriptor that submitted it: ring, index, TAG, NOCPL, STREAM
  idx : Nat
  htag : Word
  nocpl : Bool
  stream : Nat
  wm : Wm
  stop : Option (Nat × Nat)      -- outcome and reason it ends with at the next safe point
  faulted : Bool
  words : List Word
  gone : Bool
  joinAt : Nat
  joinCls : Nat
  stopAt : Nat
  startAt : Nat
  deriving DecidableEq, Repr

/-- A park slot (R120): the work it holds, and whether its held work has moved to the park buffer in HBM (R117). -/
structure Park where
  work : Work
  tag : Nat
  inHbm : Bool
  deriving DecidableEq, Repr

/-- A page request group (R120): whether its interval has closed and its requests are out, its requests (PASID, page
address) and the work, by tag and page address, that waits for it. -/
structure Prg where
  sent : Bool
  pages : List (Option Nat × Nat)
  waiters : List (Work × Nat × Nat)
  deriving DecidableEq, Repr

/-- A translation cache entry (R114): PASID, if any (R113), input page address, log2 size, output page address. -/
structure XEnt where
  pasid : Option Nat
  page : Nat
  log2 : Nat
  out : Nat
  deriving DecidableEq, Repr

/-- Line time: the four timelines, the read latches of R46 by requester and timeline, for each channel one more than the
frame count of the last channel frame started (0: none), and the number of minutes of R70 closed. -/
structure LineTime where
  tls : List (Nat × TlSt)
  nowLatch : List (Nat × (Nat × Nat))
  chFrame : List (Nat × Nat)
  minute : Nat
  deriving DecidableEq, Repr

/-- The PTP clock and its two instances. `clk` is in 2^-32 ns below 10^9 ns (R74); `servoI` is the integrator of R495
in 10^-24 ppb; `latch` holds the triple of R79 by requester. -/
structure Ptp where
  sec : Nat
  clk : Nat
  servoI : Int
  inst : List (Nat × PtpInst)
  latch : List (Nat × (Nat × Nat × Nat))
  ppsUntil : Nat          -- cycle at which the PPS_OUT pulse ends
  ppsPhase : Int          -- time since the last edge of PPS_IN, which refs 4 and 5 share (R58), 2^-16 ns
  ppsPhaseAt : Nat        -- cycle of that measurement
  ppsLost : Bool          -- PPS_IN has had no edge for 3 s
  rxAt : List (Nat × Nat) -- by MAC, stamp of the last frame received and of the last one sent, ns since the epoch (R78)
  txAt : List (Nat × Nat)
  deriving DecidableEq, Repr

/-- The host port: bytes the device has written to host memory, rings, work of descriptors in progress, MSI-X vectors
(cycle of the last signal, gap end of a deferred one). -/
structure HostPort where
  mem : List (Nat × Byte)
  rings : List (Nat × RingSt)
  jobs : List (Nat × Option Job)
  vecs : List (Nat × (Option Nat × Option Nat))
  deriving DecidableEq, Repr

/-- The task schedulers of all dies. Keys join the die to a table index (Machine/Task.lean). -/
structure Sched where
  tasks : List (Nat × Task)
  ready : List (Nat × List Nat)     -- ready lists by die, binding and level, head first
  delay : List (Nat × List Nat)     -- delay lists by die and list, next to wake first
  bind : List (Nat × Nat)           -- binding in effect of each consumer
  usecBase : List (Nat × Nat)       -- cycle of each die's last reset (SCH_USEC counts from it)
  usecHi : List (Nat × Nat)         -- the one latch of SCH_USEC per die (R490)
  dirty : List Nat                  -- die x 64 + binding whose slots the dispatcher fills at the end of the cycle (R161, R165)
  due : List Work                   -- work whose deadline was reached in this cycle (R119, R165)
  cut : List (Nat × Word × Word)    -- row tasks that ended short in this cycle: die, arguments (R123)
  deriving DecidableEq, Repr

/-- Translation: cache sets (most recent first), park slots and their reuse counts, page request groups, work waiting
for a park slot or for the host's allocation, invalidations not yet completed, the host's allocation of page requests (R111) and its
PASID width in bits (R131). -/
structure Xlt where
  cache : List (Nat × List XEnt)
  park : List (Nat × Option Park)
  reuse : List (Nat × Nat)
  prgs : List (Nat × Option Prg)
  waiting : List (Work × Nat)   -- page address
  invals : Nat
  alloc : Nat
  pasidBits : Nat
  deriving DecidableEq, Repr

/-- A grove record of a staged set: a declaration's words, or a withdrawal (R145). -/
structure GroveRec where
  grove : Nat
  words : Option (List Word)
  deriving DecidableEq, Repr

/-- Staging: shadows by register address (set, value), sets armed in arming order, grove records by set, the grove
directory, and STG_WSEL by requester. -/
structure Stage where
  claims : List (Nat × Option (Nat × Word))
  armed : List Nat
  groveRecs : List (Nat × List GroveRec)
  groves : List (Nat × List Word)
  wsel : List (Nat × Word)
  deriving DecidableEq, Repr

/-- The ring recorders: records by die and slot, by die the sequence number up to which records have been copied to the
EVT ring, entries lost since the last REC_GAP by ring, by die and slot the logical groves that held the leaf when the event
was recorded (R22), by die the cycle in which the newest record was written (R428), and by die one more than the cycle of the last
event (R426). -/
structure Recorder where
  store : List (Nat × List Word)
  copied : List (Nat × Nat)
  lost : List (Nat × Nat)
  clrHead : Nat                     -- HEAD sampled at GO (R431)
  groves : List (Nat × List Nat)
  newAt : List (Nat × Nat)
  evAt : List (Nat × Nat)
  deriving DecidableEq, Repr

/-- Reset, power and boot (22_reset_power_boot_modes.md): reset reaches held, and those releasing, as (source of R433 + 8 x slot,
path); leaves released by every source that wait for clock-good, and those whose clock missed its time; leaves in FAULT for
another cause; power domains off and rising, as die x 256 + number; crowns out of service (R30), and those whose module waits for a die reset before it is trained; the source of a package reset
that has not released; the RST_N and PERST# levels; working SRAM by die x 2^21 + offset; dies above ALARM; dies whose cores have
left the ROM; image bytes received in BOOT frames; the boot ROM's attempt (R452); cycles of the watchdogs' last reload; and the
registers of a crown out of service that the packetiser still goes by (R30). -/
structure ResetSt where
  holds : List (Nat × Nat)
  relea : List (Nat × Nat)
  waiting : List Nat
  noclk : List Nat
  faults : List Nat
  domsOff : List Nat
  domsUp : List Nat
  needReset : List Nat
  noTrain : List Nat
  pkgSrc : Option Nat
  rstN : Bool
  perst : Bool
  sram : List (Nat × Byte)
  hotDies : List Nat
  coresUp : List Nat
  twinImage : List Byte
  attempt : Nat
  wdtAt : List (Nat × Nat)
  kept : List (Nat × List (Nat × Word))
  deriving DecidableEq, Repr

/-- A frame in an egress queue (R317): flow (65535 for none), length from the destination address to the FCS, the time it
arrived in ns, whether it has been counted as waiting (R320), its bytes up to the FCS, and the offsets of the PCR fields of its payload
(R312). -/
structure EthFrame where
  flow : Nat
  bytes : Nat
  at_ : Nat
  waited : Bool
  data : List Byte
  pcrs : List Nat
  deriving DecidableEq, Repr

/-- A class queue: its frames, oldest first, its tokens in bits, the WHL_Qq_SHAPE word in effect, the
cycle of the last write of it plus 1, and the word that the first write of that cycle replaced (R318). -/
structure ClassQ where
  frames : List EthFrame
  tokens : Int
  shape : Word
  wrote : Nat
  before : Word
  deriving DecidableEq, Repr

/-- The gates of a port: pending list with its cycle and base time, operational base time, the entry in force and when
it began (none while the list does not run), the boundary at which the list starts again (R321, R322). Times in ns of
the PTP clock since the epoch. -/
structure GateSt where
  pend : List Word
  pendCycle : Nat
  pendBase : Nat
  base : Nat
  idx : Option Nat
  began : Nat
  startAt : Nat
  deriving DecidableEq, Repr

/-- A packet of a flow: its bits of elementary stream and RATE in kbit/s (R314), UDP payload, HOLD and LAST marks, picture number, handover
instant in ns, and the MAC's PCR mark (R312). -/
structure Pkt where
  bits : Nat
  rate : Nat
  payload : List Byte
  hold : Bool
  last : Bool
  pic : Nat
  ready : Nat
  deriving DecidableEq, Repr

/-- A flow: next eligible time in 1/16 ns (R314), packets handed to the wheel, RTP sequence number with its extension (R309), TS
continuity counters of the video, ANC, PAT and PMT PIDs, whether it was disabled with a picture in flight that it still sends (R325), the
PIDs whose next packet sets discontinuity_indicator (R365), and the picture whose ANC PES packet has begun (R312). -/
structure FlowSt where
  e : Nat
  pkts : List Pkt
  seq : Nat
  cc : Nat
  ccAnc : Nat
  ccPat : Nat
  ccPmt : Nat
  ending : Bool
  disc : List Nat
  ancPic : Option Nat
  deriving DecidableEq, Repr

/-- The timing wheel, the ports and their gates: wheel entries (absolute slot, flow, or 2048 + class queue) in the order
of insertion, class queues, the frame each port is sending, gates, histogram bins of R323. -/
structure Wheel where
  entries : List (Nat × Nat)
  flows : List (Nat × FlowSt)
  queues : List (Nat × ClassQ)
  ports : List (Nat × Option EthFrame)
  gates : List (Nat × GateSt)
  hist : List (Nat × Nat)
  deriving DecidableEq, Repr

/-- An audio stream (R338 to R347): its first sample, the samples passed since it, input frames received by sample index,
fetched output frames not yet presented, the next frame of memory, the last source frame, input positions held back and
the frame they will take, the output block phase, the slips of an SDI group, and the bits of the last 49 samples of a PDM port's
microphones, the newest first (R335). -/
structure AudSt where
  m0 : Nat
  n : Nat
  rx : List (Nat × List AudSamp)
  out : List (List AudSamp)
  j : Nat
  last : Option (List AudSamp)
  written : Option (List AudSamp)   -- the last frame written to memory
  held : Nat
  block : Option Nat
  slips : Nat
  pdm : List (List Nat)
  deriving DecidableEq, Repr

/-- An elastic store (R345): its fill, the frames in it that are known (sample index, slots), the frame taken for the current
sample, a slip to make (1 drop, -1 repeat), the sample it is made at, and the stream that asked for it. -/
structure AudStore where
  fill : Nat
  frames : List (Nat × List AudSamp)
  cur : Option (Nat × Option (List AudSamp))
  slip : Int
  slipAt : Nat
  slipBy : Nat
  deriving DecidableEq, Repr

/-- What a port has driven since sample 0, up to its last sample position (R337): cycles of the MCLK and BCLK balls, FS edges, and biphase
cells of AES3 output lines. -/
structure AudBalls where
  mclk : Nat
  bclk : Nat
  fs : Nat
  cells : Nat
  deriving DecidableEq, Repr

/-- Audio: the streams, the stores by key (port input p, port output 16 + p, SDI group of a stream 32 + a), and the ports' clock balls. -/
structure Audio where
  strs : List (Nat × AudSt)
  stores : List (Nat × AudStore)
  balls : List (Nat × AudBalls)
  deriving DecidableEq, Repr

/-- A flow table entry (R173) with its bucket fill in 1/50,000 byte, the cycle it was filled at, the last sequence number,
and its counters. -/
structure FlowEnt where
  words : List Word
  fill : Nat
  filledAt : Nat
  seq : Option Nat
  pkts : Nat
  drops : Nat
  gaps : Nat
  deriving DecidableEq, Repr

/-- An input frame being received: pixels received of each line, lines found damaged, positions (fraction units) at which the
last bytes of lines came in. -/
structure FrameRx where
  cover : List (Nat × Nat)
  bad : List Nat
  done : List (Nat × Nat)
  deriving DecidableEq, Repr

/-- A picture a channel delivers: black, the slate layer alone, or an input frame, by number, with the lines that stand in
for damaged ones (line; the frame they come from, none for black). -/
inductive Picture where
  | black
  | slate
  | frame (num : Nat) (subst : List (Nat × Option Nat))
  deriving DecidableEq, Repr

/-- A frame of the frame store: how many came in whole before it, its number, its picture, the position (fraction units) of
its last line's write. -/
structure Stored where
  serial : Nat
  num : Nat
  pic : Picture
  at_ : Nat
  deriving DecidableEq, Repr

/-- Ingest of one channel (R177 to R181): frames being received, the next line to complete, damage in the channel frame,
lines late in it and in the one before, the last good frame, the frame store, the frame read last, the recovery count,
the position of the last valid data, what the channel delivers, the ANC packets passed on, with the channel frame they came in,
ANC packets of input frames that no channel frame has read yet, the frames that came in whole, and the slot of the frame store
that holds the samples of an input frame, and the cycle at which line time took each line of the channel frame as complete. -/
structure IngCh where
  rx : List (Nat × FrameRx)
  next : Nat
  subst : List (Nat × Option Nat)
  damaged : Nat
  neg : Nat
  prevNeg : Bool
  good : Option Picture
  store : List Stored
  chosen : Option (Nat × Nat)
  recov : Nat
  lastValid : Nat
  shown : Picture
  anc : List (Nat × AncPkt)
  held : List (Nat × AncPkt)
  whole : Nat
  slots : List (Nat × Nat)
  lineAt : List Nat
  deriving DecidableEq, Repr

/-- Ingest: the flow table by index, and the channels. -/
structure Ingest where
  flows : List (Nat × Option FlowEnt)
  chans : List (Nat × IngCh)
  deriving DecidableEq, Repr

/-- A layer image (R196): its size, its SHOW (none for SHOW_NOW), whether it came after its SHOW frame had latched, whether its
crop has been recorded, which third of the layer buffer holds it, the byte of the stack it begins at, and the configured size and
format it was read for. -/
structure Img where
  w : Nat
  h : Nat
  show_ : Option Nat
  late : Bool
  seen : Bool
  slot : Nat
  at_ : Nat
  pw : Nat
  ph : Nat
  fmt : Nat
  deriving DecidableEq, Repr

/-- The FILLING image of a layer (R196): the work that reads it, the image, and the lines it holds. -/
structure Filling where
  key : Nat
  img : Img
  rows : Nat
  deriving DecidableEq, Repr

/-- A layer of a composition slot: accepted LAYER_SRC work in submission order (ring and index keys), the READY and SHOWN
images, the decoded picture shown, whether the layer is composed in this frame, whether it waits (R200), the tiles of the
canvas that its map marks opaque (R213), and the FILLING image. -/
structure LayerSt where
  queue : List Nat
  ready : Option Img
  shown : Option Img
  dec : Option Nat
  on_ : Bool
  waiting : Bool
  opaq : List Nat
  fill : Option Filling
  deriving DecidableEq, Repr

/-- A channel frame of which bands are still unwritten when the next one starts (R189): the configuration, layers and planes it is
composed from, its next band, the bands counted late, the picture that ingest delivered for it, and its count. -/
structure PastFrame where
  snap : List (Nat × Word)
  layers : List (Nat × LayerSt)
  inUse : List Nat
  band : Nat
  missed : Nat
  shown : Picture
  frame : Nat
  deriving DecidableEq, Repr

/-- A composition slot: the registers it took up at the last frame start (R197), its layers, the first layers of runs whose
plane is built, and of runs composed from it (R211), the next band, the latch of the frame's last WAIT layer, whether the slot
has taken up a configuration, the canvas size at that, the bands up to which LATE_BANDS has counted, and what is left of the
frame before. -/
structure SlotSt where
  snap : List (Nat × Word)
  layers : List (Nat × LayerSt)
  built : List Nat
  inUse : List Nat
  band : Nat
  waitAt : Nat
  up : Bool
  size : Nat × Nat
  missed : Nat
  past : Option PastFrame
  deriving DecidableEq, Repr

/-- Composition: slots by crown x 16 + slot, filter coefficients, colour-table entries (a 3D LUT node holds its three
outputs, R' lowest, 14 bits each), one more than the newest picture released by each decode stream, and the streams (crown x 1024 + stream
id) whose newest picture no layer may latch: true, it was decoded while the stream was LOST (R304); false, its buffer was revoked (R297). -/
structure Comp where
  slots : List (Nat × SlotSt)
  coefs : List (Nat × Int)
  luts : List (Nat × Nat)
  released : List (Nat × Nat)
  hold : List (Nat × Bool)
  deriving DecidableEq, Repr

/-- A buffer descriptor of a crown's reference pool (R289). -/
structure BufD where
  mark : Nat
  ltref : Bool
  alias_ : Bool
  pins : Nat
  kind : Nat
  epoch : Nat
  owner : Nat
  pic : Nat
  page : Nat
  order : Nat
  grey : Option Nat   -- the luma column from which a graft's reconstruction is mid-grey (R365)
  deriving DecidableEq, Repr

/-- The reference pools: descriptors by crown x 2048 + number, spill epochs by ring, the objects that quiesce
(R298) with the revocation they wait for, both as crown x 2^16 + kind x 2^14 + index, the layers that are
omitted after a revocation of the picture they read (R297), as crown x 256 + slot x 16 + layer, and the coarse picture kept with a buffer (R246): samples by
y x 4096 + x. -/
structure Pool where
  bufs : List (Nat × BufD)
  spillEpoch : List (Nat × Nat)
  busy : List (Nat × Nat)
  omitted : List Nat
  coarse : List (Nat × List (Nat × Nat))
  deriving DecidableEq, Repr

/-- A decode stream (R300 to R304): the number of the next picture, pictures the output process has output and SHOW still
holds back (buffer, SHOW), pictures not yet output (buffer, SHOW), pictures before an AVC recovery point, the buffer of the newest
released picture, the concealed buffers, the bytes of a held access unit, the buffer of the picture being decoded with its ticket, the
buffers (with tickets) that its references, or their substitutes, stand in (none: mid-grey), by buffer the random access point and the
picture order count that place its picture in output order, the number of the last random access point, the buffers decoded while LOST, the
descriptor being decoded (ring, index), and whether an access unit of it has been completed. -/
structure DecSt where
  next : Nat
  shows : List (Nat × Nat)
  await : List (Nat × Nat)
  conceal : Bool
  newest : Option Nat
  concealed : List Nat
  carry : Nat
  cur : Option (Nat × Nat)
  used : List (Option (Nat × Nat))
  keys : List (Nat × (Nat × Word))
  rap : Nat
  greyed : List Nat
  task : Option (Nat × Nat)
  got : Bool
  deriving DecidableEq, Repr

/-- A block's motion result (R262): final vector in the codec's unit, reference, costs, complexity index, and flags FB, HINT,
LOWCONF, NOREF, INTRA_LT, STATIC, EDGE, ALIAS from bit 0 up. -/
structure BlkRec where
  mx : Int
  my : Int
  ref : Nat
  sad : Nat
  satd : Nat
  intra : Nat
  cplx : Nat
  flags : Nat
  deriving DecidableEq, Repr

/-- The coarse results of an area (R247): best and second position in coarse samples, and the best SAD. -/
structure AreaRes where
  bx : Int
  by_ : Int
  sx : Int
  sy : Int
  sad : Nat
  deriving DecidableEq, Repr

/-- Motion search of one picture: blocks by by x 512 + bx, areas by ay x 128 + ax, reserved statistics runs by CTU row x 4 +
tile (ring, first index), the fall-back decision of each area, the runs discarded or aborted (CTU row x 4 + tile), the coding row a scene
cut begins at, the hint in use ([] none), the REFRESH trigger, the global motion, and by tile column the coding unit whose fall-back window
is held on chip (R254; its corner in pixels). -/
structure MotPic where
  blocks : List (Nat × BlkRec)
  areas : List (Nat × Option AreaRes)
  runs : List (Nat × Option (Nat × Nat))
  fb : List (Nat × Option Bool)
  lost : List Nat
  scene : Option Nat
  hint : List Word
  refreshFb : Bool
  gmx : Int
  gmy : Int
  win : List (Nat × Option (Nat × Nat))
  deriving DecidableEq, Repr

/-- A CTU row the ledger has closed (R265, R279): bits, the row's QP, whether floored, reserve and allotment, its units, and those of them in
floor mode. -/
structure LedRow where
  bits : Nat
  q : Nat
  floored : Bool
  reserve : Nat
  allot : Nat
  units : Nat
  nFloor : Nat
  deriving DecidableEq, Repr

/-- The ledger of one tile column of a picture (R278 to R282): budget, CTU row and unit in it, bits spent, bits of the row,
whether a unit of the row was floored, floor mode, row QP, the rows closed, the quantiser in use, and units of the row in floor mode. -/
structure LedCol where
  pb : Nat
  row : Nat
  unit : Nat
  spent : Nat
  rowBits : Nat
  rowFloor : Bool
  flooring : Bool
  q : Nat
  rows : List LedRow
  quant : Nat
  nFloor : Nat
  deriving DecidableEq, Repr

/-- A reference of a stream (R240): pool buffer, picture number, AV1 slot. -/
structure RefE where
  buf : Nat
  pic : Nat
  slot : Nat
  deriving DecidableEq, Repr

/-- R235: what a pipeline spends on a picture: the smallest block, whether asymmetric partitions are tried, the smallest block that a
multi-type tree makes, whether modes are decided by rate-distortion cost with the true entropy estimate (else by SATD with a header
estimate), and passes of the JPEG XS rate allocation. -/
structure CodingSearch where
  minBlock : Nat
  amp : Bool
  mttMin : Nat
  rdCost : Bool
  passes : Nat
  deriving DecidableEq, Repr

/-- A picture slot of a stream whose rows have not all passed their handover: number, channel frame, field, kind (0 inter, 1
IDR or key frame, 2 GDR start), whether a pipeline codes it, its buffer, its ORDER and AVC idr_pic_id, the next row to hand
over, whether it is abandoned, whether it has been charged as held (R284), the PTP time of its start in ns, ledger columns, filler bits by row x 4 +
column, references it can name, whether reference 0 is a hold-picture alias, motion, the registers taken up at its start, the pool buffers of its
references with their tickets, its own ticket, the removal delay, the references that the stream named before it, the work its preset
gives it (R235), the column that its GDR sweep codes (R224), the bits that its tile columns have handed over or been charged (R278), and whether
it is a graft (R365). -/
structure PicSt where
  num : Nat
  frame : Nat
  field : Nat
  kind : Nat
  coded : Bool
  buf : Option Nat
  order : Nat
  idr : Nat
  row : Nat
  lost : Bool
  charged : Bool
  startNs : Nat
  cols : List LedCol
  filler : List (Nat × Nat)
  nref : Nat
  alias0 : Bool
  mot : MotPic
  taken : List (Nat × Word)
  refs : List (Nat × Nat)
  ticket : Nat
  delay : Option Nat
  named : List RefE
  search : CodingSearch
  sweep : Option Nat
  paid : List (Nat × Nat)
  graft : Bool
  deriving DecidableEq, Repr

/-- What the ledger keeps of a closed picture of one kind: by CTU row x 4 + column, (bits, QP x 4, SATD). -/
abbrev RowHist := List (Nat × (Nat × Nat × Nat))

/-- A coding tool of the table of R219. -/
inductive Tool where
  | amp | transformSkip | signHiding | sao | deblocking | tmvp | scalingLists | tiles | pcm | lossless | customScaling | weightedPred | wpp
  | rangeExt | mtt | dualTree | alf | cclm | mts | mmvd | gdr | lmcs | affine | gpm | bdof | dmvr | lfnst | subpictures | resampling | palette
  | ibc | cabac | transform8x8 | fieldPics | mbaff | paff | fmo | aso | cdef | obmc | compound | showExisting | restoration | filmGrain
  | superres | intraBlockCopy | starTetrix | cfa | fieldSeq
  /-- Any tool of the codec that the table does not name. -/
  | other
  deriving DecidableEq, Repr

/-- R285: NAL HRD parameters: cbr_flag, bit rate and CPB size in bits, and the scale and value field of each. -/
structure Hrd where
  cbr : Bool
  rate : Nat
  size : Nat
  rateScale : Nat
  rateValue : Nat
  sizeScale : Nat
  sizeValue : Nat
  deriving DecidableEq, Repr

/-- R240: the slice or tile-group header template of a coding row: its first coding unit in the picture, and its height in coding units. -/
structure RowHead where
  first : Nat
  height : Nat
  deriving DecidableEq, Repr

/-- The header template block of a stream (R218, R219, R222, R223, R240, R285): codec, profile, level, tier, colour space and full range,
bits of the order counter, of AVC pic_order_cnt_type and gaps_in_frame_num_value_allowed_flag, size, the enable flags, the block sizes (of
HEVC the largest and least coding and transform units, of VVC, AVC and AV1 the coding unit, of JPEG XS its decomposition levels, lines of a
precinct and of a slice, and columns), the HRD parameters, and the header template of each coding row. -/
structure ParamSet where
  codec : Nat
  profile : Nat
  level : Nat
  tier : Bool
  space : Nat
  full : Bool
  orderBits : Nat
  poc : Option (Nat × Bool)
  w : Nat
  h : Nat
  tools : List (Tool × Bool)
  sizes : List Nat
  hrd : Option Hrd
  rows : List RowHead
  deriving DecidableEq, Repr

/-- What a picture of HEVC, VVC, AVC or AV1 carries beside its slices (R222, R285): its number, the user data words of its caption packets,
the channel frame count of its time code, of a refresh picture the initial removal delay of its buffering period in 90 kHz, its NAL unit
type (R224), the count of its recovery point SEI or of ph_recovery_poc_cnt, and its picture timing: pic_struct, and the channel line of its
removal time (R220, R285). -/
structure Sei where
  pic : Nat
  captions : List (List Nat)
  timecode : Option Nat
  delay : Option Nat
  nal : NalKind
  recovery : Option Nat
  timing : Option (Nat × Nat)
  deriving DecidableEq, Repr

/-- An encode stream (R223 to R240): counters of the next slot, refresh state and causes, references, the context copied at the
last picture start, slots in flight oldest first, the motion field of the last slot, hints, ledger history, banks and fills by
column (fill in 1/Q bit, line of the last coded handover), the fill after the last handover and its line, graft state (R362),
consecutive missed slots, and at a planned switch
the first picture that the side no longer sends (R370), the header template block of the last picture start, what the last complete picture
carries beside its slices, and the budgets of the columns of the last complete picture of each field (R284). -/
structure EncSt where
  pic : Nat
  order : Nat
  idr : Nat
  last : Nat
  gdr : Nat
  since : Nat
  first : Bool
  req : Bool
  missed : Bool
  revoked : Bool
  resume : Bool
  refs : List RefE
  ltr : Option RefE
  ctx : List Nat
  pics : List PicSt
  prev : MotPic
  prevKind : Nat
  hints : List (Nat × List Word)
  histP : RowHist
  histI : RowHist
  banks : List (Nat × Int)
  fills : List (Nat × (Nat × Nat))
  fill : Nat
  fillAt : Nat
  graft : Option Nat
  graftIdr : Bool
  missRun : Nat
  upto : Option Nat
  params : Option ParamSet
  sei : Option Sei
  bud : List (Nat × List Nat)
  deriving DecidableEq, Repr

/-- The packetiser's side of a stream (R313, R325 to R329): tile parts arrived with the position they arrived at, cursor words, the treatment of slots begun (0
sent, 1 completed, 2 held) by picture number, slices of the last good picture by parity x 512 + row, those of the picture
being sent, whether the picture being sent is good so far, the rows from which pictures were cut off, the rows that came too late, and the
AV1 slot that holds the last good frame. -/
structure PktStr where
  parts : List (Nat × RowPart)
  cursor : List Nat
  modes : List (Nat × Nat)
  good : List (Nat × List (List Byte))
  building : List (Nat × List (List Byte))
  whole : Bool
  cutFrom : List (Nat × Nat)
  late : List (Nat × Nat)
  goodSlot : Nat
  deriving DecidableEq, Repr

/-- Encoding: streams by crown x 128 + index, and the packetiser's streams by stream id. -/
structure Enc where
  strs : List (Nat × EncSt)
  pkts : List (Nat × PktStr)
  deriving DecidableEq, Repr

/-- A pair (R350 to R371): sides that are SUSPECT, and those of them heard since; a planned switch (timeline, stamp, drill);
whether the witness granted its TERM; the cycle of the last promotion and the streams whose graft is still to come; the cycles of
the last RENEW and of the lease's end; the cycle at which the peer's lease, as last heard, is over with its guard; a promotion that
waits for it (TERM); the side that was active before the drill; whether the capabilities match; the first picture of each
stream that is sent again after MUTED; the streams whose last cursor had another template CRC (R364); whether a RENEW waits for its
GRANT (R357); and the channel frame at which the drill window opened (R371). -/
structure PairSt where
  susp : List Nat
  seen : List Nat
  plan : Option (Nat × Nat × Bool)
  granted : Bool
  promoAt : Nat
  left : List Nat
  renewAt : Nat
  leaseEnd : Nat
  peerEnd : Nat
  promo : Option Nat
  old : Option Nat
  caps : Bool
  sendFrom : List (Nat × Nat)
  badTpl : List Nat
  asked : Bool
  drillFrom : Nat
  deriving DecidableEq, Repr

/-- What a witness keeps of a pair id (R357, R358): the active and standby units, TERM, the cycle at which the lease with its guard
ends, units that answered the probe, whether a probe runs, and whether a promotion is pending. -/
structure WitSt where
  active : Option Nat
  standby : Option Nat
  term : Nat
  leaseEnd : Nat
  acked : List Nat
  probing : Bool
  promote : Bool
  deriving DecidableEq, Repr

/-- Redundancy: pairs, heartbeats missed in a row on the twin link, the last SEQ of each sender, the SEQ of the last message
sent, received cursors and flow frames with their channel frame, received template blocks, the mailbox's consumer index, what
a witness keeps, and the twin lane that the last frame went by (R402). -/
structure Redund where
  pairs : List (Nat × PairSt)
  misses : Nat
  seqs : List (Nat × Nat)
  txSeq : Nat
  cursors : List (Nat × (Nat × List Word))
  flows : List (Nat × (Word × Word))
  templates : List (Nat × List Byte)
  mboxNext : Nat
  wits : List (Nat × WitSt)
  peerTl : List Bool   -- by timeline, the peer's last report meets the condition of R59
  peerCaps : List (Nat × Nat × Nat)   -- by pair, the peer's last CAPS: CFGCRC, SIDE_A, SIDE_B (R368)
  txLane : Nat
  deriving DecidableEq, Repr

/-- An HBM controller (R377 to R387): by pseudo-channel its activate table, entries in index order (bank, row, count), and its
flagged rows, oldest first (bank, row); cycles of the uncorrectable errors of the last second; the hot state by temperature,
whether the last temperature read had no answer, whether the interval in force is hot, readings of 82 degrees or lower in a row,
whether a reading has been made; the last refresh window in ns; lanes marked failed (pseudo-channel, lane); whether the running
helper operation is a LOOP; delay taps by pseudo-channel x 128 + lane x 2 + direction; the row open in each bank
(pseudo-channel x 32 + bank, row); and the cycles of the last refresh window and of the last return of the counts to zero. -/
structure HbmSt where
  acts : List (Nat × List (Nat × Nat × Nat))
  flags : List (Nat × List (Nat × Nat))
  uncAt : List Nat
  hotT : Bool
  noTemp : Bool
  hotIv : Bool
  cool : Nat
  seen : Bool
  window : Nat
  failed : List (Nat × Nat)
  loop : Bool
  taps : List (Nat × Nat)
  rows : List (Nat × Nat)
  refAt : Nat
  rhAt : Nat
  deriving DecidableEq, Repr

/-- A serial lane (0 to 95 media, 96 to 99 twin) or UCIe module (100 + k): timeouts in a row, whether stage 4 has run in this
bring-up (of a module: whether its checker is locked), live counters of the checker and whether it has lost lock, the errors of each lane of a module, and of a module its
state before a pattern test, or 1 while it retrains, and how far a generator is past its last periodic injection, in 1/400,400,000 bits. -/
structure LaneSt where
  fails : Nat
  exch : Bool
  errs : Nat
  bits : Nat
  relock : Bool
  worst : List (Nat × Nat)
  prev : Nat
  since : Nat
  deriving DecidableEq, Repr

/-- The whole package. -/
structure State where
  variant : Variant
  /-- Commands waiting, first in first out. -/
  pending : List Instr
  /-- Cycles of the 400 MHz local clock (R37). -/
  cycle : Nat
  /-- The model's own count of free values taken (notes/assumptions/4.md). -/
  freeCtr : Nat
  /-- The value the last bus read returned. -/
  rdata : Word
  /-- What has left the package, newest first. -/
  sent : List Msg
  regs : List (Nat × Word)
  lt : LineTime
  refs : List (Nat × RefSt)
  ptp : Ptp
  host : HostPort
  sch : Sched
  xlt : Xlt
  stg : Stage
  recorder : Recorder
  rst : ResetSt
  /-- Bytes of the crowns' HBM stacks, at crown * 2^35 + offset. -/
  hbm : List (Nat × Byte)
  whl : Wheel
  aud : Audio
  ing : Ingest
  cmp : Comp
  pool : Pool
  dec : List (Nat × DecSt)
  enc : Enc
  red : Redund
  hbms : List (Nat × HbmSt)
  lanes : List (Nat × LaneSt)
  /-- Running operation of a CRC engine, by die x 16 + engine: OP, source, destination, length (R416). -/
  crcs : List (Nat × Option (Nat × Nat × Nat × Nat))
  deriving DecidableEq, Repr

def TlSt.init : TlSt := ⟨0, 0, 0, 0, 0, 0, [], true, 0, 0, []⟩
def RefSt.init : RefSt := ⟨none, 0, false, [], 0, 0, [], 0, []⟩
def PtpInst.init : PtpInst := ⟨none, [], none, 0, 0, 0, -3, 0, none, [], false, false, 0⟩
def Wm.zero : Wm := ⟨0, 0, 0, 0⟩
def RingSt.init : RingSt :=
  ⟨[], [], [], 0, none, 0, 0, 0, 0, false, false, false, false, none, false, false, [], false, none, false, none, [], 0, []⟩
def Task.idle : Task :=
  ⟨0, 0, 0, false, false, false, 0, 0, 0, 0, 0, 0, 0, 0, 0, 0, 0, 0, false, 0x3FF, Wm.zero, none, false, [], false, 0, 0, 0, 0⟩
def ClassQ.init : ClassQ := ⟨[], 0, 0, 0, 0⟩
def GateSt.init : GateSt := ⟨[], 0, 0, 0, none, 0, 0⟩
def FlowSt.init : FlowSt := ⟨0, [], 0, 0, 0, 0, 0, false, [], none⟩
def AudSt.init : AudSt := ⟨0, 0, [], [], 0, none, none, 0, none, 0, []⟩
def AudBalls.init : AudBalls := ⟨0, 0, 0, 0⟩
def AudStore.init : AudStore := ⟨16, [], none, 0, 0, 0⟩
def FrameRx.init : FrameRx := ⟨[], [], []⟩
def IngCh.init : IngCh := ⟨[], 0, [], 0, 0, false, none, [], none, 0, 0, .black, [], [], 0, [], []⟩
def LayerSt.init : LayerSt := ⟨[], none, none, none, false, false, [], none⟩
def SlotSt.init : SlotSt := ⟨[], [], [], [], 0, 0, false, (0, 0), 0, none⟩
def BufD.init : BufD := ⟨0, false, false, 0, 0, 0, 0x3FF, 0, 0, 0, none⟩
def DecSt.init : DecSt := ⟨0, [], [], false, none, [], 0, none, [], [], 0, [], none, false⟩
def MotPic.init : MotPic := ⟨[], [], [], [], [], none, [], false, 0, 0, []⟩
def EncSt.init : EncSt :=
  ⟨0, 0, 0, 0, 0, 0, true, false, false, false, false, [], none, [], [], MotPic.init, 0, [], [], [], [], [], 0, 0, none, false, 0, none, none, none, []⟩
def PktStr.init : PktStr := ⟨[], [], [], [], [], true, [], [], 0⟩
def PairSt.init : PairSt := ⟨[], [], none, false, 0, [], 0, 0, 0, none, none, false, [], [], false, 0⟩
def WitSt.init : WitSt := ⟨none, none, 0, 0, [], false, false⟩
def HbmSt.init : HbmSt := ⟨[], [], [], false, false, false, 0, false, 0, [], false, [], [], 0, 0⟩
def LaneSt.init : LaneSt := ⟨0, false, 0, 0, false, [], 0, 0⟩
/-- The package right after a package reset of a GX8 (notes/assumptions/1.md, 2.md): every register at the value its
map gives, nothing listed in any memory or table. -/
def State.reset : State where
  variant := .gx8
  pending := []
  cycle := 0
  freeCtr := 0
  rdata := 0
  sent := []
  regs := []
  lt := ⟨[], [], [], 0⟩
  refs := []
  ptp := ⟨0, 0, 0, [], [], 0, 0, 0, false, [], []⟩
  host := ⟨[], [], [], []⟩
  sch := ⟨[], [], [], [], [], [], [], [], []⟩
  xlt := ⟨[], [], [], [], [], 0, 0, 20⟩
  stg := ⟨[], [], [], [], []⟩
  recorder := ⟨[], [], [], 0, [], [], []⟩
  rst := ⟨[], [], [], [], [], [], [], [], [], none, false, false, [], [], [], [], 0, [], []⟩
  hbm := []
  whl := ⟨[], [], [], [], [], []⟩
  aud := ⟨[], [], []⟩
  ing := ⟨[], []⟩
  cmp := ⟨[], [], [], [], []⟩
  pool := ⟨[], [], [], [], []⟩
  dec := []
  enc := ⟨[], []⟩
  red := ⟨[], 0, [], 0, [], [], [], 0, [], [], [], 0⟩
  hbms := []
  lanes := []
  crcs := []


end Sys2Proof.Machine
end

