-- ==== Sys2Proof/Machine/Ops.lean ====
section
/-!
DEFINITION. Sys2Proof/Machine/Ops.lean: the operations every block shares: reading and writing registers and fields,
refusals, counters, free values, messages, bytes and words, the CRC-32C of descriptors and images.
-/
namespace Sys2Proof.Machine

/-! ## Registers -/

/-- The highest crown present (R3). -/
def State.crowns (s : State) : Nat := s.variant.crowns

/-- The value of the register at BAR0 offset `a`: of an ST register, the active copy (R132). -/
def State.reg (s : State) (a : Nat) : Word := mapGet (regReset s.variant.crowns) s.regs a

/-- Put a value into a register. -/
def State.setReg (s : State) (a : Nat) (v : Word) : State :=
  { s with regs := mapSet (regReset s.variant.crowns) s.regs a v }

/-- Bits `lo` and up of a word, `width` of them. -/
def getBits (w : Word) (lo width : Nat) : Nat := w.toNat / 2 ^ lo % 2 ^ width

/-- The word with those bits replaced by the low bits of `v`. -/
def putBits (w : Word) (lo width v : Nat) : Word :=
  BitVec.ofNat 32 (w.toNat / 2 ^ (lo + width) * 2 ^ (lo + width) + v % 2 ^ width * 2 ^ lo + w.toNat % 2 ^ lo)

/-- Read a register field. -/
def State.rd (s : State) (f : Fld) : Nat := getBits (s.reg f.reg) f.lo f.width

/-- Write a register field, leaving the register's other fields. -/
def State.wr (s : State) (f : Fld) (v : Nat) : State := s.setReg f.reg (putBits (s.reg f.reg) f.lo f.width v)

/-- Whether a one-bit field reads 1. -/
def State.on (s : State) (f : Fld) : Bool := s.rd f == 1

/-- A Bool as a one-bit field's value. -/
def bit (b : Bool) : Nat := if b then 1 else 0

/-- A two's complement value of `width` bits. -/
def signed (width v : Nat) : Int := if v < 2 ^ (width - 1) then v else (v : Int) - 2 ^ width

/-- The low `width` bits of an integer, as a field holds them. -/
def wrap (width : Nat) (i : Int) : Nat := (i % (2 ^ width : Nat)).toNat

/-- An integer held to the range of a signed field of `width` bits. -/
def clampS (width : Nat) (i : Int) : Int := max (-(2 ^ (width - 1) : Nat)) (min i (2 ^ (width - 1) - 1 : Nat))

/-- Read a signed register field. -/
def State.rdS (s : State) (f : Fld) : Int := signed f.width (s.rd f)

/-- Write an integer into a signed register field, saturating. -/
def State.wrS (s : State) (f : Fld) (i : Int) : State := s.wr f (wrap f.width (clampS f.width i))

/-- Add to a saturating count. -/
def State.add (s : State) (f : Fld) (n : Nat) : State := s.wr f (min (s.rd f + n) (2 ^ f.width - 1))

/-- Add 1 to a saturating count. -/
def State.inc (s : State) (f : Fld) : State := s.add f 1

/-- Add 1 to a wrapping count. -/
def State.incWrap (s : State) (f : Fld) : State := s.wr f (s.rd f + 1)

/-- A 64-bit value in a LO and HI register pair. -/
def State.rd64 (s : State) (lo hi : Fld) : Nat := s.rd lo + s.rd hi * 2 ^ 32

/-- R11, R141: write a reason code to bits [31:16] of a status register. -/
def State.reason (s : State) (a code : Nat) : State := s.wr ⟨a, 16, 16⟩ code

/-- Write a reason code to several status registers. -/
def State.reasons (s : State) (as : List Nat) (code : Nat) : State := as.foldl (fun s a => s.reason a code) s

/-- Restore registers to their reset values where `p` holds of the BAR0 offset. -/
def State.resetRegs (s : State) (p : Nat → Bool) : State := { s with regs := mapKeep (fun a => !p a) s.regs }

/-! ## Outcomes, messages, free values -/

/-- The outcome of a command that goes on. -/
abbrev Out := Host.Outcome State Fault Refusal

/-- Send something out of the package. -/
def State.send (s : State) (m : Msg) : State := { s with sent := m :: s.sent }

/-- The free value of this count, by tag (notes/assumptions/4.md). -/
def State.free (s : State) (tag : Nat) : Nat := Config.free s.freeCtr tag

/-- Step the count of free values. -/
def State.tick (s : State) : State := { s with freeCtr := s.freeCtr + 1 }

/-- A command that has an effect only under a condition: otherwise the event it names does not occur
(notes/assumptions/5.md). -/
def State.when (s : State) (c : Bool) (f : State → State) : State := if c then f s else s

/-- Fold a state transformer over 0 to n - 1. -/
def State.forRange (s : State) (n : Nat) (f : Nat → State → State) : State := (List.range n).foldl (fun s i => f i s) s

/-! ## Requesters -/

/-- A number for each requester: the host is 0. -/
def reqKey : Req → Nat
  | .host => 0
  | .core d k => 1 + d.val * 4 + k.val

/-! ## Words and bytes -/

/-- The little-endian bytes of a word. -/
def wordBytes (w : Word) : List Byte := (List.range 4).map fun i => BitVec.ofNat 8 (w.toNat / 2 ^ (8 * i))

/-- The little-endian bytes of a number, `n` of them. -/
def natBytes (n v : Nat) : List Byte := (List.range n).map fun i => BitVec.ofNat 8 (v / 2 ^ (8 * i))

/-- The bytes of a list of words. -/
def wordsBytes (ws : List Word) : List Byte := ws.flatMap wordBytes
/-- Whole words of little-endian bytes. -/
def bytesWords : List Byte → List Word
  | a :: b :: c :: d :: bs => (d ++ c ++ b ++ a) :: bytesWords bs
  | _ => []

/-- Word `i` of a list as a number, 0 beyond its end. -/
def wordAt (ws : List Word) (i : Nat) : Nat := (ws.getD i 0).toNat

/-- A field of word `i`. -/
def fieldAt (ws : List Word) (i lo width : Nat) : Nat := getBits (ws.getD i 0) lo width

/-- The 64-bit value in words `i` and `i + 1`, low word first. -/
def word64At (ws : List Word) (i : Nat) : Nat := wordAt ws i + wordAt ws (i + 1) * 2 ^ 32

/-- Bytes into a byte memory that reads 0 where nothing is listed. -/
def memWrite (m : List (Nat × Byte)) (a : Nat) : List Byte → List (Nat × Byte)
  | [] => m
  | b :: bs => memWrite (mapSet (fun _ => 0) m a b) (a + 1) bs

/-- A byte of such a memory. -/
def memRead (m : List (Nat × Byte)) (a : Nat) : Byte := mapGet (fun _ => 0) m a

/-- Device write of bytes to host memory. -/
def State.hostWrite (s : State) (a : Nat) (bs : List Byte) : State :=
  { s with host := { s.host with mem := memWrite s.host.mem a bs } }

/-! ## CRC -/

/-- One bit of a reflected CRC: shift right, and apply the reflected polynomial when a 1 leaves. -/
def crcBit (poly : Nat) (c : Nat) : Nat := if c % 2 = 1 then (c / 2) ^^^ poly else c / 2

/-- `n` bits of a reflected CRC. -/
def crcBits (poly : Nat) : Nat → Nat → Nat
  | 0, c => c
  | n + 1, c => crcBits poly n (crcBit poly c)

/-- Bytes through a reflected CRC register. -/
def crcBytes (poly : Nat) (c : Nat) (bs : List Byte) : Nat :=
  bs.foldl (fun c b => crcBits poly 8 (c ^^^ b.toNat)) c

/-- CRC-32C of bytes, with initial value and final inversion of all ones (R94, R144, R415). -/
def crc32c (bs : List Byte) : Nat := crcBytes 0x82F63B78 0xFFFFFFFF bs ^^^ 0xFFFFFFFF

end Sys2Proof.Machine
end

