-- ==== Sys2Proof/Machine/Paths.lean ====
section
/-!
DEFINITION. Sys2Proof/Machine/Paths.lean: unit paths (R9, R10, R17, R18), the fixed units of the package (R13 to R16),
the leaves a path reaches, and logical groves (R19 to R25).
-/
namespace Sys2Proof.Machine

/-- R9: depth of a path and its hop h. -/
def pathDepth (p : Nat) : Nat := p / 2 ^ 29 % 8
def pathHop (p h : Nat) : Nat := p / 2 ^ (24 - 5 * h) % 32

/-- R9: the hops in use. -/
def pathHops (p : Nat) : List Nat := (List.range (pathDepth p)).map (pathHop p)

/-- R9: the path of a list of hops. -/
def mkPath (hops : List Nat) : Nat :=
  hops.length * 2 ^ 29 + (hops.zipIdx.map fun (h, i) => h * 2 ^ (24 - 5 * i)).sum

/-- R10, R17: whether a path is malformed. -/
def pathMalformed (crowns p : Nat) : Bool :=
  decide (p ≥ 2 ^ 32) || pathDepth p == 0 || decide (pathDepth p > 5) || p % 16 != 0 ||
  (List.range 5).any (fun h => decide (pathDepth p ≤ h) && pathHop p h != 0) ||
  (let h0 := pathHop p 0
   if h0 = 30 then pathDepth p != 3
   else if h0 = 31 then pathDepth p != 1
   else decide (h0 > crowns))

/-- R13 to R16: the positions below a fixed unit: none where the hops name no unit, some [] for a leaf. -/
def unitKids (crowns : Nat) : List Nat → Option (List Nat)
  | [0] => some (List.range 23)
  | [0, h] =>
    if h = 7 ∨ h = 10 ∨ h = 16 then some (List.range 4)
    else if h = 13 ∨ h = 19 then some (List.range 16)
    else if h = 14 ∨ h = 15 then some (List.range 12)
    else if h = 17 then some ((List.range crowns).map (· + 1))
    else if h < 23 then some [] else none
  | [0, h, g] =>
    if h = 7 ∨ h = 10 ∨ h = 16 then (if g < 4 then some [] else none)
    else if h = 13 ∨ h = 19 then (if g < 16 then some [] else none)
    else if h = 14 ∨ h = 15 then (if g < 12 then some (List.range 8) else none)
    else if h = 17 then (if 1 ≤ g ∧ g ≤ crowns then some [] else none)
    else none
  | [0, h, g, l] => if (h = 14 ∨ h = 15) ∧ g < 12 ∧ l < 8 then some [] else none
  | [d] => if 1 ≤ d ∧ d ≤ crowns then some (List.range 21) else none
  | [d, h] =>
    if 1 ≤ d ∧ d ≤ crowns then
      if h < 8 then some (List.range 6)
      else if h = 16 then some (List.range 2)
      else if h = 19 then some (List.range 16)
      else if h < 21 then some [] else none
    else none
  | [d, h, g] =>
    if 1 ≤ d ∧ d ≤ crowns then
      if h < 8 then (if g < 6 then some [] else none)
      else if h = 16 then (if g < 2 then some [] else none)
      else if h = 19 then (if g < 16 then some [] else none)
      else none
    else none
  | _ => none

/-- The leaves at and below fixed hops, as paths. -/
def fixedLeaves (crowns : Nat) : Nat → List Nat → List Nat
  | 0, _ => []
  | n + 1, hops =>
    match unitKids crowns hops with
    | none => []
    | some [] => [mkPath hops]
    | some ks => ks.flatMap fun k => fixedLeaves crowns n (hops ++ [k])

/-- R17: the package path, the path of logical grove n, and its number. -/
def packagePath : Nat := 0x3F000000
def grovePath (n : Nat) : Nat := mkPath [30, n / 32, n % 32]
def groveNum (p : Nat) : Nat := pathHop p 1 * 32 + pathHop p 2
def isGrove (p : Nat) : Bool := pathHop p 0 == 30 && pathDepth p == 3

/-- R23: the declaration in force of logical grove n ([] when none), its fields and members. -/
abbrev Directory := List (Nat × List Word)
def groveWords (dir : Directory) (n : Nat) : List Word := mapGet (fun _ => []) dir n
def groveMembersOf (ws : List Word) : List Nat := (List.range (fieldAt ws 0 16 6)).map fun k => wordAt ws (4 + k)
def groveMembers (dir : Directory) (n : Nat) : List Nat := groveMembersOf (groveWords dir n)

/-- R23: USE bit b of a declared grove: 0 SCHED, 1 RESET, 2 POWER, 3 PAIR, 4 EVENT. -/
def groveUse (dir : Directory) (n b : Nat) : Bool := fieldAt (groveWords dir n) 1 b 1 == 1

/-- The leaves a path reaches, followed through member groves at most `fuel` deep. -/
def leavesIn (crowns : Nat) (dir : Directory) : Nat → Nat → List Nat
  | 0, _ => []
  | n + 1, p =>
    if isGrove p then (groveMembers dir (groveNum p)).flatMap (leavesIn crowns dir n)
    else if p = packagePath then (List.range (crowns + 1)).flatMap fun d => fixedLeaves crowns 5 [d]
    else fixedLeaves crowns 5 (pathHops p)

/-- R24: at most four logical groves deep, so five levels reach every leaf. -/
def State.leaves (s : State) (p : Nat) : List Nat := leavesIn s.crowns s.stg.groves 5 p

/-- R18: a well-formed path that names a unit. -/
def pathNames (crowns : Nat) (dir : Directory) (p : Nat) : Bool :=
  !pathMalformed crowns p &&
    (if isGrove p then groveWords dir (groveNum p) != [] else p == packagePath || (unitKids crowns (pathHops p)).isSome)

def State.pathOk (s : State) (p : Nat) : Bool := pathNames s.crowns s.stg.groves p

/-- R22: leaf path `q` lies at or under path `p`. -/
def State.under (s : State) (p q : Nat) : Bool := (s.leaves p).contains q

/-- The unit paths that records carry. -/
def leafPath2 (d h : Nat) : Nat := mkPath [d, h]
def leafPath3 (d h g : Nat) : Nat := mkPath [d, h, g]

/-- R14: media lane n and MAC n. -/
def lanePath (n : Nat) : Nat := if n < 96 then mkPath [0, 14, n / 8, n % 8] else mkPath [0, 16, n - 96]
def macPath (n : Nat) : Nat := mkPath [0, 15, n / 8, n % 8]

/-- The die of a path (R17): 0 for paths that lie on no crown. -/
def pathDie (p : Nat) : Nat := if pathHop p 0 < 8 then pathHop p 0 else 0

/-! ## Power domains (R448, in the order of its table; notes/assumptions/63.md) -/

/-- Domains of a die. -/
def domCount (d : Nat) : Nat := if d = 0 then 118 else 152

/-- The fixed unit, as hops, that a domain of a die belongs to; [] for memories and reset logic that are no unit. -/
def domUnit (d n : Nat) : List Nat :=
  if d = 0 then
    if n = 0 then [0, 12] else if n < 5 then [0, 10, n - 1] else if n < 7 then [] else if n < 11 then [0, 0]
    else if n < 13 then [0, 1] else if n = 13 then [0, 18] else if n < 16 then [0, 22] else if n = 16 then [0, 20]
    else if n = 17 then [0, 7] else if n = 18 then [0, 6] else if n = 19 then [0, 8] else if n = 20 then [0, 9]
    else if n < 29 then [0, 2] else if n < 38 then [0, 3] else if n < 40 then [0, 4] else if n < 52 then [0, 5]
    else if n < 64 then [0, 15, n - 52] else if n < 88 then [0, 14, (n - 64) / 2] else if n = 88 then [0, 16]
    else if n < 96 then [0, 17, n - 88] else if n < 112 then [0, 13, n - 96] else if n < 114 then [0, 11]
    else if n < 116 then [0, 19] else [0, 21]
  else
    if n = 0 then [] else if n < 97 then [d, (n - 1) / 12, (n - 1) % 6] else if n < 109 then [d, 8 + (n - 97) / 3]
    else if n = 109 then [] else if n < 114 then [d, 12] else if n = 114 then [d, 13] else if n < 118 then [d, 14]
    else if n < 141 then [d, 15] else if n < 143 then [d, 16, n - 141] else if n < 145 then [] else if n < 147 then [d, 17]
    else if n = 147 then [d, 18] else if n < 150 then [d, 19] else [d, 20]

/-- The leaves of a domain: a media lane quad is four of its group's eight lanes. -/
def domLeaves (crowns d n : Nat) : List Nat :=
  let ls := if domUnit d n = [] then [] else fixedLeaves crowns 5 (domUnit d n)
  if d = 0 ∧ 64 ≤ n ∧ n < 88 then (if n % 2 = 0 then ls.take 4 else ls.drop 4) else ls

/-- The domains of a leaf, as die x 256 + number. -/
def leafDoms (crowns q : Nat) : List Nat :=
  let d := pathDie q
  ((List.range (domCount d)).filter fun n => (domLeaves crowns d n).contains q).map fun n => d * 256 + n

/-- R19: the code of the first refusing leaf of a reach in path order, where `code` is what one leaf answers; 0 where none
refuses. Path order is the order of the hops, the root die first. -/
def firstRefusal (code : Nat → Nat) (ls : List Nat) : Nat :=
  match ls.filter fun q => code q != 0 with
  | [] => 0
  | q :: qs => code (qs.foldl (fun m x => if x % 2 ^ 29 < m % 2 ^ 29 then x else m) q)

/-! ## Declaring groves -/

/-- R24: depth of logical groves below a path, counted up to `fuel`; a cycle counts past any limit. The declared grove is itself the
first of the 4 levels: DESIGN CHOICE (notes/assumptions/101.md). -/
def groveDepth (dir : Directory) : Nat → Nat → Nat
  | 0, _ => 0
  | n + 1, p => if isGrove p then 1 + ((groveMembers dir (groveNum p)).map (groveDepth dir n)).foldl max 0 else 0

/-- Whether two lists share an element. -/
def meets (a b : List Nat) : Bool := a.any b.contains

/-- Whether the leaf sets of two different members of a list meet. -/
def overlapping : List (List Nat) → Bool
  | [] => false
  | a :: t => t.any (meets a) || overlapping t

/-- R24: the code that refuses the declaration in force of grove n of a directory, in the order of its cases; 0 when
none holds. -/
def groveFault (crowns : Nat) (dir : Directory) (n : Nat) : Nat :=
  let ws := groveWords dir n
  let cnt := fieldAt ws 0 16 6
  let ms := groveMembers dir n
  let lv := ms.map (leavesIn crowns dir 5)
  let all := lv.flatten
  let dies := all.map pathDie
  if fieldAt ws 0 10 6 != 0 || fieldAt ws 0 22 10 != 0 || fieldAt ws 1 5 27 != 0 || wordAt ws 2 != 0 || wordAt ws 3 != 0 ||
      cnt == 0 || decide (cnt > 60) || (List.range 60).any (fun k => decide (cnt ≤ k) && wordAt ws (4 + k) != 0) then 0xE010
  else if ms.any (fun p => !pathNames crowns dir p || p == packagePath) then 0xE011
  else if overlapping lv then 0xE012
  else if groveDepth dir 6 (grovePath n) > 4 then 0xE013
  else if all.any (fun l => decide ((dir.filter fun (_, w) => (groveMembersOf w).any fun p => (leavesIn crowns dir 5 p).contains l).length > 8)) then 0xE014
  else if (fieldAt ws 1 0 1 == 1 || fieldAt ws 1 3 1 == 1) && dies.any (· != dies.headD 0) then 0xE015
  else 0

/-- The directory with a set's grove records in force. -/
def applyGroves (dir : Directory) (rs : List GroveRec) : Directory :=
  rs.foldl (fun d r => mapSet (fun _ => []) d r.grove (r.words.getD [])) dir

/-- Whether the membership of grove `a` reaches grove `b` through member groves. -/
def groveReaches (dir : Directory) : Nat → Nat → Nat → Bool
  | 0, _, _ => false
  | n + 1, a, b => a == b || (groveMembers dir a).any fun p => isGrove p && groveReaches dir n (groveNum p) b

end Sys2Proof.Machine
end

