-- ==== Sys2Proof/Machine/Dram.lean ====
section
/-!
DEFINITION. Sys2Proof/Machine/Dram.lean: the bytes of the crowns' HBM stacks, kept by their place in the stack (R376), and the
mapping orders that give a stack offset its place (R377, R378).
-/
namespace Sys2Proof.Machine

/-- R376: a place in a stack: row, bank, pseudo-channel, column block. -/
structure Place where
  row : Nat
  bank : Nat
  pc : Nat
  col : Nat
  deriving DecidableEq, Repr

/-- The key of a byte of crown d's stack: its place and its offset in the 64-byte block. -/
def Place.key (p : Place) (d b : Nat) : Nat := d * 2 ^ 35 + (((p.row * 32 + p.bank) * 32 + p.pc) * 16 + p.col) * 64 + b

/-- R377: the place of block b of slice sl under LINEAR-ROW, BANK-SPREAD or XOR-HASH. -/
def placeOf (order sl b : Nat) : Place :=
  match order with
  | 0 => ⟨sl, b / 512 % 32, b / 16 % 32, b % 16⟩
  | 1 => ⟨sl, b / 128 % 32, b / 4 % 32, b / 4096 % 4 * 4 + b % 4⟩
  | _ => ⟨sl, (b / 512 % 32) ^^^ (sl / 32 % 32), (b / 16 % 32) ^^^ (sl % 32), b % 16⟩

/-- R378: the place of region offset o under PIXEL-TILE, with base slice r0 and STRIDE in 128-byte units. -/
def tilePlace (r0 stride o : Nat) : Place :=
  let sB := max 1 stride * 128
  let y := o / sB
  let xb := o % sB
  let k := y / 64 * (sB / 128) + xb / 128
  let l := y % 64
  let x := xb % 128
  ⟨r0 + k / 128, k / 4 % 32, k % 4 * 8 + l / 8, l % 8 * 2 + x / 64⟩

/-- R379: the enabled map region that holds slice sl of crown d. -/
def State.mapRegion (s : State) (d sl : Nat) : Option Nat :=
  (List.range 8).find? fun k => s.on (F.HBM_MAPk_CFG_EN d k) &&
    decide (s.rd (F.HBM_MAPk_BASE_MIB d k) ≤ sl ∧ sl < s.rd (F.HBM_MAPk_BASE_MIB d k) + s.rd (F.HBM_MAPk_SIZE_MIB d k))

/-- R377 to R379: the place of stack offset a of crown d. -/
def State.place (s : State) (d a : Nat) : Place :=
  let sl := a / 2 ^ 20
  let b := a / 64 % 16384
  match s.mapRegion d sl with
  | some k =>
    if s.rd (F.HBM_MAPk_CFG_ORDER d k) = 3 then
      tilePlace (s.rd (F.HBM_MAPk_BASE_MIB d k)) (s.rd (F.HBM_MAPk_CFG_STRIDE d k)) (a - s.rd (F.HBM_MAPk_BASE_MIB d k) * 2 ^ 20)
    else placeOf (s.rd (F.HBM_MAPk_CFG_ORDER d k)) sl b
  | none =>
    if s.rd (F.HBM_CFG_DEFAULT d) = 3 then tilePlace sl 1 (a % 2 ^ 20) else placeOf (s.rd (F.HBM_CFG_DEFAULT d)) sl b

/-- The key of stack offset a of crown d. -/
def State.hbmKey (s : State) (d a : Nat) : Nat := (s.place d a).key d (a % 64)

/-- A byte of crown d's stack. -/
def State.hbmByte (s : State) (d a : Nat) : Byte := memRead s.hbm (s.hbmKey d a)

/-- Put bytes into a stack from an offset on. -/
def State.hbmPut (s : State) (d a : Nat) (bs : List Byte) : State :=
  { s with hbm := bs.zipIdx.foldl (fun m (b, i) => mapSet (fun _ => 0) m (s.hbmKey d (a + i)) b) s.hbm }

/-- R87: bytes from `off` of the top of a crown's stack that the host may cache: the window's share. -/
def State.inWindow (s : State) (d off : Nat) : Bool :=
  s.on F.HIF_STATUS_DECODER && decide (24 * 2 ^ 30 - s.rd (F.HIF_HDMd_SIZE_GIB d) * 2 ^ 30 ≤ off)

/-- R87: back-invalidate snoops of the window's lines among n lines from offset a on. -/
def State.snoopLines (s : State) (d a n : Nat) : State :=
  s.forRange n fun i s => if s.inWindow d ((a + i) * 64) then s.send (.backInval d ((a + i) * 64)) else s

/-- A device write of bytes into a crown's stack; each line of the HDM window it touches takes a back-invalidate snoop first
(R87). -/
def State.hbmWrite (s : State) (d off : Nat) (bs : List Byte) : State :=
  if bs = [] then s else (s.snoopLines d (off / 64) ((off + bs.length - 1) / 64 + 1 - off / 64)).hbmPut d off bs

/-- R87: the snoops of n bits that the device is about to write from a bit position on. -/
def State.snoopBits (s : State) (d pos n : Nat) : State :=
  if n = 0 ∨ !s.on F.HIF_STATUS_DECODER then s else s.snoopLines d (pos / 512) ((pos + n - 1) / 512 + 1 - pos / 512)

/-- Bytes of a crown's stack. -/
def State.hbmRead (s : State) (d off n : Nat) : List Byte := (List.range n).map fun i => s.hbmByte d (off + i)

/-- R96: the crown whose HBM controller a path names. -/
def State.hbmOf (s : State) (p : Nat) : Option Nat := (List.range (s.crowns + 1)).find? fun d => d != 0 && p == mkPath [d, 15]

/-- Put the low n bits of v into a stack from a bit position on, least significant first. -/
def State.hbmBits (s : State) (d pos : Nat) : Nat → Nat → State
  | 0, _ => s
  | n + 1, v =>
    let k := s.hbmKey d (pos / 8)
    let old := (memRead s.hbm k).toNat
    let w := 2 ^ (pos % 8)
    let s := { s with hbm := mapSet (fun _ => 0) s.hbm k (BitVec.ofNat 8 (old / (2 * w) * (2 * w) + (v % 2) * w + old % w)) }
    s.hbmBits d (pos + 1) n (v / 2)

/-- The number that bytes spell, least significant first. -/
def bytesNat (bs : List Byte) : Nat := bs.foldr (fun b v => b.toNat + 256 * v) 0

/-- The n bits of a stack from a bit position on, least significant first. -/
def State.hbmBitsAt (s : State) (d pos n : Nat) : Nat :=
  ((List.range n).map fun i => ((s.hbmByte d ((pos + i) / 8)).toNat / 2 ^ ((pos + i) % 8) % 2) * 2 ^ i).sum

end Sys2Proof.Machine
end

