-- ==== Sys2Proof/Machine/Time.lean ====
section
/-!
DEFINITION. Sys2Proof/Machine/Time.lean: line time (02_line_time.md): stamps and their order, the running of the four
timelines, channel rasters, audio cadence; and the PTP clock's running (04_network_time.md).
-/
namespace Sys2Proof.Machine

/-! ## Stamps -/

/-- R7: stamp `a` is later than stamp `b`. -/
def later (a b : Stamp) : Bool := decide ((a + 2 ^ 64 - b % 2 ^ 64) % 2 ^ 64 ≠ 0) && decide ((a + 2 ^ 64 - b % 2 ^ 64) % 2 ^ 64 < 2 ^ 63)

/-- R37: line time `now` equals or passes a stamp. -/
def reached (now stamp : Stamp) : Bool := !later stamp now

/-- R5: the fields of a stamp. -/
def stampFrame (x : Stamp) : Nat := x / 2 ^ 28 % 2 ^ 36
def stampTick (x : Stamp) : Nat := x / 2 ^ 12 % 2 ^ 16
def stampFrac (x : Stamp) : Nat := x % 2 ^ 12

/-- R5: a stamp of a frame count (48 bits or fewer), a tick and a fraction. -/
def mkStamp (frame tick frac : Nat) : Stamp := frame % 2 ^ 36 * 2 ^ 28 + tick % 2 ^ 16 * 2 ^ 12 + frac % 2 ^ 12

/-! ## Timelines -/

/-- The parts a frame is divided into, so that one cycle is a whole number of parts at every rate of R34. -/
def accM : Nat := 1001 * 4 * 10 ^ 28

def State.tlBase (s : State) (n : Nat) : Nat := s.rd (F.LT_TLn_CFG_BASE n)
def State.tlDrop (s : State) (n : Nat) : Bool := s.on (F.LT_TLn_CFG_DROP n)
def State.tpf (s : State) (n : Nat) : Nat := s.rd (F.LT_TLn_CFG_TPF n)

def State.tl (s : State) (n : Nat) : TlSt := mapGet (fun _ => TlSt.init) s.lt.tls n
def State.setTl (s : State) (n : Nat) (t : TlSt) : State :=
  { s with lt := { s.lt with tls := mapSet (fun _ => TlSt.init) s.lt.tls n t } }

/-- R38: the timeline's state, as LT_TLn_STATUS.STATE encodes it. -/
def State.tlState (s : State) (n : Nat) : Nat := s.rd (F.LT_TLn_STATUS_STATE n)

/-- R38, R48: the timeline is LIVE or HOLDOVER. -/
def State.tlRunning (s : State) (n : Nat) : Bool := s.tlState n == 2 || s.tlState n == 3

/-- R37, R35: parts of a frame one 2.5 ns cycle takes at the nominal rate. -/
def State.accStep (s : State) (n : Nat) : Nat :=
  if s.tlDrop n then s.tlBase n * 10 ^ 23 else s.tlBase n * 1001 * 10 ^ 20

/-- Parts of a frame for a frequency offset of `f` x 0.01 ppb over one cycle. -/
def State.accFreq (s : State) (n : Nat) (f : Int) : Int :=
  if s.tlDrop n then s.tlBase n * 10 ^ 12 * f else s.tlBase n * 1001 * 10 ^ 9 * f

/-- Parts of a frame in `p` x 1/25,600,000,000 ns of phase. -/
def State.accPhase (s : State) (n : Nat) (p : Int) : Int :=
  if s.tlDrop n then s.tlBase n * 1562500000000 * p else s.tlBase n * 1001 * 1562500000 * p

/-- R40, R46: fraction units since frame 0 of the 48-bit count. -/
def State.units (s : State) (n : Nat) : Nat :=
  (s.tl n).frame * (s.tpf n * 4096) + (s.tl n).acc * (s.tpf n * 4096) / accM

/-- The stamp of a position given in fraction units of timeline `n`. -/
def State.unitStamp (s : State) (n u : Nat) : Stamp :=
  mkStamp (u / (s.tpf n * 4096)) (u % (s.tpf n * 4096) / 4096) (u % 4096)

/-- R46, R38: the current stamp of timeline `n`; 0 while it is OFF or in ACQUIRE. -/
def State.now (s : State) (n : Nat) : Stamp := if s.tlRunning n then s.unitStamp n (s.units n) else 0

/-- R48: the stamp 20 us (8,000 cycles) ahead of line time, at the timeline's nominal rate (notes/assumptions/102.md). -/
def State.nowPlus20us (s : State) (n : Nat) : Stamp :=
  s.unitStamp n ((s.tl n).frame * (s.tpf n * 4096) + ((s.tl n).acc + 8000 * s.accStep n) * (s.tpf n * 4096) / accM)

/-- R37: line time of a running timeline has reached a stamp. -/
def State.reachedOn (s : State) (n : Nat) (x : Stamp) : Bool := s.tlRunning n && reached (s.now n) x

/-- R68: the part of a phase error that the limiter moves in one cycle at slope S. -/
def slopeMove (slope : Nat) (tot : Int) : Int := max (-(64 * slope : Nat)) (min tot (64 * slope : Nat))

/-- The part of a move that is charged to the pending software step: what has its sign (notes/assumptions/8.md). -/
def pendMove (mv pend : Int) : Int := if 0 ≤ mv then max 0 (min mv pend) else min 0 (max mv pend)

/-- R37, R68: one cycle of a running timeline. -/
def State.tlCycle (s : State) (n : Nat) : State :=
  if s.tlRunning n then
    let t := s.tl n
    let mv := slopeMove (s.rd (F.SEL_TLn_SLOPE_SLOPE n)) (t.perr + t.pend)
    let pm := if mv = t.perr + t.pend then t.pend else pendMove mv t.pend
    let acc := ((t.acc : Int) + s.accStep n + s.accFreq n t.freq + s.accPhase n mv).toNat
    s.setTl n { t with acc := acc % accM, frame := (t.frame + acc / accM) % 2 ^ 48, perr := t.perr - (mv - pm), pend := t.pend - pm }
  else s

/-- R69: SEL_TLn_PERR and SEL_TLn_PEND show the remaining error and step in 1/16 ns, rounded towards minus infinity
(notes/assumptions/108.md). -/
def State.showErr (s : State) (n : Nat) : State :=
  (s.wrS (F.SEL_TLn_PERR_ERROR n) ((s.tl n).perr / 1600000000)).wrS (F.SEL_TLn_PEND_PENDING n) ((s.tl n).pend / 1600000000)

/-! ## Channel rasters -/

/-- R41: r of a channel as a numerator and denominator. -/
def ratioNum (v : Nat) : Nat := if v = 1 then 2 else 1
def ratioDen (v : Nat) : Nat := if v = 2 then 2 else 1

def State.chTl (s : State) (c : Nat) : Nat := s.rd (F.LT_CHc_MAP_TL c)
def State.chRatio (s : State) (c : Nat) : Nat := s.rd (F.LT_CHc_MAP_RATIO c)
def State.chLines (s : State) (c : Nat) : Nat := s.rd (F.LT_CHc_MAP_LINES c)

/-- R42: PH in fraction units. -/
def State.chPhase (s : State) (c : Nat) : Nat := s.rd (F.LT_CHc_PHASE_TICK c) * 4096 + s.rd (F.LT_CHc_PHASE_FRAC c)

/-- R42, R43: the start of channel frame K of channel c, in fraction units of its timeline. -/
def State.frameStart (s : State) (c k : Nat) : Nat :=
  let u := s.tpf (s.chTl c) * 4096
  (match s.chRatio c with
   | 1 => k / 2 * u + k % 2 * (u / 2)
   | 2 => (2 * k + s.rd (F.LT_CHc_MAP_HALF_PHASE c)) * u
   | _ => k * u) + s.chPhase c

/-- R44: the position of line l of channel frame K, truncated to a whole fraction unit. -/
def State.linePos (s : State) (c k l : Nat) : Nat :=
  s.frameStart c k +
    l * (s.tpf (s.chTl c) * 4096 * ratioDen (s.chRatio c)) / (ratioNum (s.chRatio c) * s.chLines c)

/-- R42, R43: the count of the channel frame that line time stands in, if one has started. -/
def State.chCount (s : State) (c : Nat) : Option Nat :=
  let u := s.tpf (s.chTl c) * 4096
  let now := s.units (s.chTl c)
  if now < s.chPhase c then none
  else match s.chRatio c with
    | 1 => some ((now - s.chPhase c) / (u / 2))
    | 2 =>
      let h := s.rd (F.LT_CHc_MAP_HALF_PHASE c) * u
      if now < s.chPhase c + h then none else some ((now - s.chPhase c - h) / (2 * u))
    | _ => some ((now - s.chPhase c) / u)

/-- R49: the handover stamp of a row whose last line is n, in fraction units: line n + 1 + D. -/
def State.handover (s : State) (c k n : Nat) : Nat := s.linePos c k (n + 1 + s.rd (F.LT_CHc_DELAY_D c))

/-- R49: the wire deadline of that row. -/
def State.wireDeadline (s : State) (c k n : Nat) : Nat := s.linePos c k (n + 1 + s.rd (F.LT_CHc_DELAY_TOTAL c))

/-! ## Audio cadence -/

/-- R54: the audio rate a RATE field names. -/
def audioHz (rate : Nat) : Nat := match rate with | 0 => 48000 | 1 => 96000 | _ => 44100

/-- R54: S = F_s / R as numerator and denominator. -/
def State.sampNum (s : State) (n hz : Nat) : Nat := if s.tlDrop n then hz * 1001 else hz
def State.sampDen (s : State) (n : Nat) : Nat := if s.tlDrop n then s.tlBase n * 1000 else s.tlBase n

/-- R54: samples before frame N. -/
def State.sampBefore (s : State) (n hz frame : Nat) : Nat := frame * s.sampNum n hz / s.sampDen n

/-- R54: samples(N). -/
def State.samples (s : State) (n hz frame : Nat) : Nat := s.sampBefore n hz (frame + 1) - s.sampBefore n hz frame

/-- R54: the line-time position of sample m, in fraction units, truncated under R44. -/
def State.sampPos (s : State) (n hz m : Nat) : Nat := m * s.sampDen n * (s.tpf n * 4096) / s.sampNum n hz

/-! ## The PTP clock -/

/-- R74: INCR, nominal 2.5 ns plus ADJ, in 2^-32 ns. -/
def State.incr (s : State) : Nat := (0x280000000 + s.rdS F.PTP_CLK_ADJ_ADJ).toNat % 2 ^ 40

/-- R82: PPS_OUT rises at a whole second of the clock, for WIDTH us, only while SET = 1 and EN = 1. -/
def State.ppsRise (s : State) : State :=
  if s.on F.PTP_CLK_STATUS_SET && s.on F.PTP_PPS_OUT_EN then
    { s with ptp := { s.ptp with ppsUntil := s.cycle + s.rd F.PTP_PPS_OUT_WIDTH * 400 } }
  else s

/-- R74: one cycle of the clock. A carry into the seconds is a whole second. -/
def State.clkCycle (s : State) : State :=
  let x := s.ptp.clk + s.incr
  if x < 10 ^ 9 * 2 ^ 32 then { s with ptp := { s.ptp with clk := x } }
  else ({ s with ptp := { s.ptp with clk := x - 10 ^ 9 * 2 ^ 32, sec := (s.ptp.sec + 1) % 2 ^ 48 } } : State).ppsRise

/-- R75: with SERVO = 1 the servo is in HOLD from the first cycle after reset. -/
def State.servoCycle (s : State) : State :=
  if s.on F.PTP_CLK_CTL_SERVO && s.rd F.PTP_CLK_STATUS_SERVO_STATE == 0 then s.wr F.PTP_CLK_STATUS_SERVO_STATE 2 else s

/-- R79: whole nanoseconds of the clock, T, and T modulo 2^32. -/
def State.ptpNs (s : State) : Nat := s.ptp.clk / 2 ^ 32
def State.ptpT (s : State) : Nat := s.ptp.sec * 10 ^ 9 + s.ptpNs
def State.tstamp (s : State) : Nat := s.ptpT % 2 ^ 32

/-- R78: receive and transmit stamps of this instant at MAC m in ns, corrected for the latency outside the package; the
clock's ns and the latency are each rounded down to whole ns (notes/assumptions/134.md). -/
def State.macRx (s : State) (m : Nat) : Int := s.ptpT - s.rdS (F.PTP_LATm_RX_RXLAT m) / 65536
def State.macTx (s : State) (m : Nat) : Int := s.ptpT + s.rdS (F.PTP_LATm_TX_TXLAT m) / 65536

/-- R78: the MAC stamps a frame that it receives or sends. -/
def State.stampRx (s : State) (m : Nat) : State :=
  { s with ptp := { s.ptp with rxAt := mapSet (fun _ => 0) s.ptp.rxAt m (s.macRx m).toNat } }
def State.stampTx (s : State) (m : Nat) : State :=
  { s with ptp := { s.ptp with txAt := mapSet (fun _ => 0) s.ptp.txAt m (s.macTx m).toNat } }

/-- R396: the port of MAC m is up: nothing is received at one that is not. -/
def State.macUp (s : State) (m : Nat) : Bool := s.on (F.LANE_ETHm_STATUS_UP m)
/-- R78, R396: a frame comes in at MAC m, which stamps it. -/
def State.frameIn (s : State) (m : Nat) : State := s.when (s.macUp m) fun s => s.stampRx m

/-! ## The local clock -/

/-- R159: SCH_USEC of a die: whole microseconds (400 cycles) since its last reset. -/
def State.usec (s : State) (d : Nat) : Nat := (s.cycle - mapGet (fun _ => 0) s.sch.usecBase d) / 400 % 2 ^ 64

/-- R37, R74, R159: one 2.5 ns cycle of the 400 MHz local clock: every running timeline and the PTP clock move
(notes/assumptions/6.md). -/
def State.idleCycle (s : State) : State :=
  ((((({ s with cycle := s.cycle + 1 } : State).tlCycle 0).tlCycle 1).tlCycle 2).tlCycle 3).clkCycle.servoCycle

end Sys2Proof.Machine
end

