-- ==== Sys2Proof/Machine/Record.lean ====
section
/-!
DEFINITION. Sys2Proof/Machine/Record.lean: the ring recorders' store (21_ring_recorder.md): writing an event, folding
repeats, and refusals with their records.
-/
namespace Sys2Proof.Machine

/-- R425: records a die's store holds. -/
def recN (d : Nat) : Nat := if d = 0 then 16384 else 4096

/-- The record in a slot of a die's store, 8 words; [] where none has been written. -/
def State.recAt (s : State) (d slot : Nat) : List Word := mapGet (fun _ => []) s.recorder.store (d * 16384 + slot)
def State.setRec (s : State) (d slot : Nat) (ws : List Word) : State :=
  { s with recorder := { s.recorder with store := mapSet (fun _ => []) s.recorder.store (d * 16384 + slot) ws } }

/-- An event to record (R421): leaf path, CODE, KIND, ARG0 to ARG2, timeline of the event's channel if any. -/
structure Event where
  path : Nat
  code : Nat
  kind : Nat
  arg0 : Nat
  arg1 : Nat
  arg2 : Nat
  tl : Option Nat
  deriving DecidableEq, Repr

/-- R421: the words of a record. -/
def State.recWords (s : State) (seq tl : Nat) (e : Event) : List Word :=
  let run := s.tlRunning tl
  let t := s.now tl
  [BitVec.ofNat 32 seq, BitVec.ofNat 32 t, BitVec.ofNat 32 (t / 2 ^ 32), BitVec.ofNat 32 e.path,
   BitVec.ofNat 32 (e.code % 65536 + e.kind * 2 ^ 16 + tl * 2 ^ 17 + bit (!run) * 2 ^ 19),
   BitVec.ofNat 32 (e.arg0 % 65536 * 2 ^ 16), BitVec.ofNat 32 e.arg1, BitVec.ofNat 32 e.arg2]

/-- R22: the logical groves whose membership holds a leaf at this moment. -/
def State.grovesOf (s : State) (path : Nat) : List Nat :=
  s.stg.groves.filterMap fun (n, _) => if s.under (grovePath n) path then some n else none
def State.setGroves (s : State) (d slot : Nat) (gs : List Nat) : State :=
  { s with recorder := { s.recorder with groves := mapSet (fun _ => []) s.recorder.groves (d * 16384 + slot) gs } }

/-- R425, R430: the newest record of die d was written at this clock cycle. -/
def State.setNewAt (s : State) (d : Nat) : State :=
  { s with recorder := { s.recorder with newAt := mapSet (fun _ => 0) s.recorder.newAt d s.cycle } }

/-- R425: write a new record of die d. -/
def State.recNew (s : State) (d : Nat) (e : Event) : State :=
  let head := s.rd (F.REC_HEAD_SEQ d)
  let ws := s.recWords head (e.tl.getD (s.rd (F.REC_CFG_TL d))) e
  let s := ((((s.setRec d (head % recN d) ws).setGroves d (head % recN d) (s.grovesOf e.path)).setNewAt d).incWrap (F.REC_HEAD_SEQ d))
  if (s.rd (F.REC_HEAD_SEQ d) + 2 ^ 32 - s.rd (F.REC_TAIL_SEQ d)) % 2 ^ 32 > recN d then
    (s.incWrap (F.REC_TAIL_SEQ d)).inc (F.REC_CNT_OVERWRITTEN d)
  else s

/-- R426: no event has yet arisen on die d in this clock cycle. -/
def State.recFirst (s : State) (d : Nat) : Bool := mapGet (fun _ => 0) s.recorder.evAt d != s.cycle + 1
def State.setEvAt (s : State) (d : Nat) : State :=
  { s with recorder := { s.recorder with evAt := mapSet (fun _ => 0) s.recorder.evAt d (s.cycle + 1) } }

/-- R426, R427: the newest record, if this event repeats it: of the events of one cycle only the first may (of two commands' events the
sender gives the order, notes/assumptions/126.md). -/
def State.recRepeats (s : State) (d : Nat) (e : Event) : Bool :=
  let head := s.rd (F.REC_HEAD_SEQ d)
  let ws := s.recAt d ((head + 2 ^ 32 - 1) % 2 ^ 32 % recN d)
  s.recFirst d && head != s.rd (F.REC_TAIL_SEQ d) && ws != [] && wordAt ws 3 == e.path && fieldAt ws 4 0 16 == e.code % 65536 &&
    fieldAt ws 4 16 1 == e.kind && fieldAt ws 5 16 16 == e.arg0 % 65536 &&
    !(s.on F.REC_STREAM_EN && mapGet (fun _ => 0) s.recorder.copied d == head)

/-- R425, R426: record an event on die d. -/
def State.record (s : State) (d : Nat) (e : Event) : State :=
  let folds := s.recRepeats d e
  let s := s.setEvAt d
  if folds then
    let slot := (s.rd (F.REC_HEAD_SEQ d) + 2 ^ 32 - 1) % 2 ^ 32 % recN d
    let ws := s.recAt d slot
    if fieldAt ws 5 0 16 < 65535 then s.setRec d slot (ws.set 5 (BitVec.ofNat 32 (wordAt ws 5 + 1)))
    else
      let s := s.setRec d slot (ws.set 4 (BitVec.ofNat 32 (wordAt ws 4 ||| 2 ^ 20)))
      (s.inc (F.REC_CNT_SATURATED d)).recNew d ⟨e.path, 0xFC02, 0, 0xFFFF, wordAt ws 0, 0, e.tl⟩
  else s.recNew d e

/-- R424: record a state event of a leaf. -/
def State.event (s : State) (path code arg0 arg1 arg2 : Nat) (tl : Option Nat := none) : State :=
  s.record (pathDie path) ⟨path, code, 0, arg0, arg1, arg2, tl⟩

/-- R423: record a refusal or an ending with a reason code; ARG2 carries a watermark's ROWS and RETRY. -/
def State.recReason (s : State) (path code arg0 arg1 : Nat) (wm : Wm := Wm.zero) (tl : Option Nat := none) : State :=
  s.record (pathDie path) ⟨path, code, 1, arg0, arg1, wm.rows % 65536 + wm.retry % 65536 * 2 ^ 16, tl⟩

/-- R141, R423: refuse a request: the code goes to status registers and to the recorder; nothing else changes. -/
def State.refuse (s : State) (path : Nat) (status : List Nat) (code arg1 : Nat) (arg0 : Nat := 0xFFFF) (tl : Option Nat := none) : State :=
  (s.reasons status code).recReason path code arg0 arg1 Wm.zero tl

/-- R13: the leaves of the root die that raise events. -/
def pHost : Nat := mkPath [0, 0]
def pIngest : Nat := mkPath [0, 2]
def pPkt : Nat := mkPath [0, 3]
def pWheel : Nat := mkPath [0, 4]
def pGate : Nat := mkPath [0, 5]
def pSel : Nat := mkPath [0, 6]
def pTl (n : Nat) : Nat := mkPath [0, 7, n]
def pPtp : Nat := mkPath [0, 8]
def pReferee : Nat := mkPath [0, 9]
def pRec : Nat := mkPath [0, 11]
def pReset : Nat := mkPath [0, 12]
def pAud (p : Nat) : Nat := mkPath [0, 13, p]
def pUcie (k : Nat) : Nat := mkPath [0, 17, k]
def pXlt : Nat := mkPath [0, 18]
def pSch (d : Nat) : Nat := if d = 0 then mkPath [0, 20] else mkPath [d, 14]
def pStg : Nat := mkPath [0, 22]

end Sys2Proof.Machine
end

