-- ==== Sys2Proof/Machine/Host.lean ====
section
/-!
DEFINITION. Sys2Proof/Machine/Host.lean: rings in host memory (05_host_interface_and_rings.md): entries and their
generation, completion records, batches, write-backs, MSI-X signals, full rings; descriptor work and its outcome.
-/
namespace Sys2Proof.Machine

def State.ring (s : State) (r : Nat) : RingSt := mapGet (fun _ => RingSt.init) s.host.rings r
def State.setRing (s : State) (r : Nat) (x : RingSt) : State :=
  { s with host := { s.host with rings := mapSet (fun _ => RingSt.init) s.host.rings r x } }

/-- R107: the ring's state: 0 DISABLED, 1 ACTIVE, 2 ERROR, 3 DRAINING. -/
def State.ringState (s : State) (r : Nat) : Nat := s.rd (F.RING_r_STATUS_STATE r)
def State.ringKind (s : State) (r : Nat) : Nat := s.rd (F.RING_r_CFG_KIND r)

/-- R88: bytes of an entry by ring kind. -/
def entryBytes (kind : Nat) : Nat := match kind with | 1 => 32 | 2 => 16 | 4 => 32 | _ => 64

/-- R89: entries of the ring, 2^L. -/
def State.ringSize (s : State) (r : Nat) : Nat := 2 ^ s.rd (F.RING_r_CFG_LOG2 r)

def State.ringBase (s : State) (r : Nat) : Nat := s.rd64 (F.RING_r_BASE_LO_BASE_LO r) (F.RING_r_BASE_HI_BASE_HI r)

/-- R89: GEN(i) and the address of entry i. -/
def State.gen (s : State) (r i : Nat) : Nat := (i % 2 ^ 32 / s.ringSize r + 1) % 256
def State.entryAddr (s : State) (r i : Nat) : Nat :=
  (s.ringBase r + i % 2 ^ 32 % s.ringSize r * entryBytes (s.ringKind r)) % 2 ^ 64

/-- Producer entries beyond the host's accepted consumer index (R104). -/
def State.ringUsed (s : State) (r : Nat) : Nat :=
  (s.rd (F.RING_r_HEAD_HEAD r) + 2 ^ 32 - s.rd (F.RING_r_HOSTIDX_HOSTIDX r)) % 2 ^ 32

/-- Entries an open batch has reserved: its header and its records (R101). -/
def State.reserved (s : State) (r : Nat) : Nat := if (s.ring r).batch = [] then 0 else 1 + (s.ring r).batch.length

/-- R104: whether `n` more entries find no place: a ring in ERROR, and one whose record write waits for a page
(notes/assumptions/92.md), has none. -/
def State.noPlace (s : State) (r n : Nat) : Bool :=
  s.ringState r == 2 || (s.ring r).recFault || decide (s.ringUsed r + s.reserved r + n > s.ringSize r)

/-- R104, R269: whether `n` more entries find no room: until the marker of an aborted run is written, a ring counts as full. -/
def State.noRoom (s : State) (r n : Nat) : Bool := (s.ring r).cuts != [] || s.noPlace r n

/-- R104, R109: STATUS.FULL: a device-produced ring whose producer index is 2^L ahead of the accepted consumer index, or that is
in ERROR. -/
def State.ringFull (s : State) (r : Nat) : Bool :=
  decide (1 ≤ s.ringKind r ∧ s.ringKind r ≤ 4) && (s.ringState r == 2 || (s.ringState r != 0 && decide (s.ringSize r ≤ s.ringUsed r)))

/-! ## Translation cache -/

/-- R113: the PASID an access of ring r carries, if any. -/
def State.ringPasid (s : State) (r : Nat) : Option Nat := if s.on (F.XLT_PASIDr_PEN r) then some (s.rd (F.XLT_PASIDr_PASID r)) else none

/-- R114: the sizes of an entry, as powers of two. -/
def xltSizes : List Nat := [12, 16, 21, 30]

/-- R114: the set of an entry of 2^sz bytes; an access that carries no PASID counts as 0. -/
def xltSet (pasid : Option Nat) (a sz : Nat) : Nat := ((a / 2 ^ sz) ^^^ pasid.getD 0) % 256

def State.xltWays (s : State) (i : Nat) : List XEnt := mapGet (fun _ => []) s.xlt.cache i
def State.setXltWays (s : State) (i : Nat) (es : List XEnt) : State :=
  { s with xlt := { s.xlt with cache := mapSet (fun _ => []) s.xlt.cache i es } }

def XEnt.hits (e : XEnt) (pasid : Option Nat) (a : Nat) : Bool := e.pasid == pasid && e.page == a / 2 ^ e.log2

/-- R114: the entry of an address, if one of the four probed sets holds it: the set and the entry. -/
def State.xltFind (s : State) (pasid : Option Nat) (a : Nat) : Option (Nat × XEnt) :=
  xltSizes.findSome? fun sz =>
    ((s.xltWays (xltSet pasid a sz)).find? fun e => e.log2 == sz && e.hits pasid a).map fun e => (xltSet pasid a sz, e)

/-- R114: the size an entry takes for a translation of 2^n bytes: the largest listed size that it contains. -/
def xltStored (n : Nat) : Nat := if 30 ≤ n then 30 else if 21 ≤ n then 21 else if 16 ≤ n then 16 else 12

/-- R114: a new entry for an address, most recent first, eight ways a set; the translation is asked of the host. -/
def State.xltFill (s : State) (pasid : Option Nat) (a : Nat) : State :=
  let sz := xltStored (12 + Config.hostPage pasid (a / 4096) % 19)
  let i := xltSet pasid a sz
  (s.setXltWays i ((⟨pasid, a / 2 ^ sz, sz, Config.hostOut pasid (a / 4096)⟩ :: s.xltWays i).take 8)).send (.transReq pasid (a / 4096))

/-- R112, R114: translate one access, counting a hit or a miss; without ATS nothing is translated. -/
def State.xlate (s : State) (pasid : Option Nat) (a : Nat) : State :=
  if !s.on F.XLT_STATUS_ATS_EN then s
  else match s.xltFind pasid a with
    | some (i, e) => (s.setXltWays i (e :: (s.xltWays i).erase e)).incWrap F.XLT_COUNT_HIT_HITS
    | none => (s.xltFill pasid a).incWrap F.XLT_COUNT_MISS_MISSES

/-- R113, R114: translate an access of n bytes, page by page. -/
def State.xlateRange (s : State) (pasid : Option Nat) (a n : Nat) : State :=
  if n = 0 then s else s.forRange ((a + n - 1) / 4096 + 1 - a / 4096) fun i s => s.xlate pasid ((a / 4096 + i) * 4096)

/-- R114: the access of ring r to its entry i, and the prefetch of the next 4 KiB page of the ring. -/
def State.xlateEntry (s : State) (r i : Nat) : State :=
  let a := s.entryAddr r i
  let p := s.ringPasid r
  let s := s.xlate p a
  let next := s.ringBase r + (a - s.ringBase r + 4096) / 4096 * 4096 % (s.ringSize r * entryBytes (s.ringKind r))
  if s.on F.XLT_STATUS_ATS_EN && s.on F.XLT_CFG_PREFETCH && s.ringKind r != 4 && (s.xltFind p next).isNone then s.xltFill p next else s

/-- Write the bytes of entry i of ring r. -/
def State.entryWrite (s : State) (r i : Nat) (bs : List Byte) : State := (s.xlateEntry r i).hostWrite (s.entryAddr r i) bs

/-! ## MSI-X and write-back -/

/-- The vector control word of a vector in the MSI-X table (R86), its mask bit, and its pending bit. -/
def State.vecMasked (s : State) (v : Nat) : Bool := s.on ⟨0x20000 + v * 16 + 12, 0, 1⟩
def pendingBit (v : Nat) : Fld := ⟨0x28000 + v / 32 * 4, v % 32, 1⟩

/-- R106: signal a vector now; a masked vector sets its pending bit. A deferred signal stays due at the end of its own gap. -/
def State.signalVec (s : State) (v : Nat) : State :=
  let later := (mapGet (fun _ => (none, none)) s.host.vecs v).2
  let s := { s with host := { s.host with vecs := mapSet (fun _ => (none, none)) s.host.vecs v (some s.cycle, later) } }
  if s.vecMasked v then s.wr (pendingBit v) 1 else s.send (.msix v)

/-- R106: the signal of a closing batch of ring r, sent at once or deferred to the end of the ring's gap. -/
def State.ringIrq (s : State) (r : Nat) : State :=
  if s.on (F.RING_r_IRQ_IRQ_EN r) then
    let v := s.rd (F.RING_r_IRQ_VEC r)
    let gap := s.rd (F.RING_r_IRQ_GAP_US r) * 400
    match mapGet (fun _ => (none, none)) s.host.vecs v with
    | (some t, d) =>
      if s.cycle < t + gap then
        let e := match d with | some e => min e (t + gap) | none => t + gap
        { s with host := { s.host with vecs := mapSet (fun _ => (none, none)) s.host.vecs v (some t, some e) } }
      else s.signalVec v
    | (none, _) => s.signalVec v
  else s

/-- R105: write the device's index and DBGEN back when RING_r_WB is nonzero. While the write-back of a SUB or CAP ring waits for its
page it stays due (R116). -/
def State.writeBack (s : State) (r : Nat) : State :=
  let a := s.rd64 (F.RING_r_WB_LO_WB_LO r) (F.RING_r_WB_HI_WB_HI r)
  if (s.ringKind r = 0 ∨ s.ringKind r = 5) ∧ (s.ring r).recFault then s.setRing r { s.ring r with wbDue := true } else
  let s := s.setRing r { s.ring r with wbDue := false, wbAt := some s.cycle }
  if a = 0 then s
  else (s.xlate (s.ringPasid r) a).hostWrite a (natBytes 4 (s.rd (F.RING_r_HEAD_HEAD r)) ++ natBytes 4 (s.rd (F.RING_r_DBGEN_DBGEN r)))

/-! ## Completion records -/

/-- R99, R102: the eight words of a record at index i of ring r. -/
def State.cplBytes (s : State) (r i : Nat) (c : CplRec) : List Byte :=
  natBytes 4 (c.typ + c.outcome * 16 + s.gen r i * 256 + c.reason * 65536) ++ natBytes 4 c.tag ++
  natBytes 4 (c.ring + c.idx % 65536 * 65536) ++ natBytes 4 c.stamp ++ natBytes 4 (c.wm.rows % 65536) ++
  natBytes 4 c.wm.bytes ++ natBytes 4 c.wm.lastOff ++ natBytes 4 c.wm.retry

/-- R101: the header of a batch of `n` records with reference record c. -/
def State.headerBytes (s : State) (r i n : Nat) (c : CplRec) : List Byte :=
  natBytes 4 (1 + s.gen r i * 256 + n * 65536) ++ natBytes 4 (s.ring r).seq ++ natBytes 4 c.ns ++
  natBytes 4 c.sec ++ natBytes 4 (c.sec / 2 ^ 32 % 65536) ++ natBytes 4 c.stamp ++
  natBytes 4 c.ltime ++ natBytes 4 (c.ltime / 2 ^ 32)

/-- Write records at consecutive indices. -/
def State.writeRecs (s : State) (r : Nat) : Nat → List CplRec → State
  | _, [] => s
  | i, c :: cs => (s.entryWrite r i (s.cplBytes r i c)).writeRecs r (i + 1) cs

/-- R101: close the open batch: the records in ring order, then the header, then the write-back and the signal. -/
def State.closeBatch (s : State) (r : Nat) : State :=
  match (s.ring r).batch with
  | [] => s
  | c :: cs =>
    let h := s.rd (F.RING_r_HEAD_HEAD r)
    let n := (c :: cs).length
    let s := s.writeRecs r (h + 1) (c :: cs)
    let s := s.entryWrite r h (s.headerBytes r h n c)
    let s := s.setRing r { s.ring r with batch := [], seq := ((s.ring r).seq + 1) % 2 ^ 32 }
    ((s.wr (F.RING_r_HEAD_HEAD r) (h + 1 + n)).writeBack r).ringIrq r

/-- Nanoseconds since the epoch of a record's outcome. -/
def CplRec.at (c : CplRec) : Nat := c.sec * 10 ^ 9 + c.ns

/-- R101: two outcomes 1 s or more apart. -/
def apart (a b : CplRec) : Bool := decide (a.at + 10 ^ 9 ≤ b.at) || decide (b.at + 10 ^ 9 ≤ a.at)

/-- R101: add a record to the ring's batch, under the 1 s rule and BATCH_MAX. -/
def State.addToBatch (s : State) (r : Nat) (c : CplRec) : State :=
  let s := match (s.ring r).batch with
    | b :: _ => if apart b c then s.closeBatch r else s
    | [] => s
  let s := s.setRing r { s.ring r with batch := (s.ring r).batch ++ [c] }
  if (s.ring r).batch.length ≥ s.rd (F.RING_r_BATCH_BATCH_MAX r) then s.closeBatch r else s

/-- R104, R107: discard a record and count it. -/
def State.dropRec (s : State) (r : Nat) (c : CplRec) : State :=
  (s.setRing r { s.ring r with gapLost := min ((s.ring r).gapLost + 1) (2 ^ 32 - 1), gapRec := some c }).inc (F.RING_r_COUNT_LOST r)

/-- R102: the gap record that is owed. -/
def RingSt.gap (x : RingSt) : CplRec :=
  match x.gapRec with
  | some c => { c with typ := 2, outcome := 0, reason := 0, tag := x.gapLost, ring := 0, idx := 0, wm := Wm.zero }
  | none => ⟨2, 0, 0, x.gapLost, 0, 0, 0, Wm.zero, 0, 0, 0⟩

/-- Room for one more record: where it opens a batch, or the 1 s rule closes the open one, a header needs an entry too. -/
def State.recNoRoom (s : State) (r : Nat) (c : CplRec) : Bool :=
  s.noRoom r (match (s.ring r).batch with | [] => 2 | b :: _ => if apart b c then 2 else 1)

/-- R104: write what is owed, the gap record first, as far as there is room. -/
def State.drainHeld (s : State) (r : Nat) : Nat → State
  | 0 => s
  | n + 1 =>
    if (s.ring r).gapLost > 0 then
      let g := (s.ring r).gap
      if s.recNoRoom r g then s else ((s.setRing r { s.ring r with gapLost := 0, gapRec := none }).addToBatch r g).drainHeld r n
    else match (s.ring r).held with
      | [] => s
      | c :: cs => if s.recNoRoom r c then s else ((s.setRing r { s.ring r with held := cs }).addToBatch r c).drainHeld r n

/-- R99, R104: a record falls due for completion ring r. -/
def State.putCpl (s : State) (r : Nat) (c : CplRec) : State :=
  if s.ringState r == 0 || s.ringState r == 3 || s.ringKind r != 1 then s.dropRec r c
  else
    let s := s.drainHeld r 514
    if s.recNoRoom r c || (s.ring r).held != [] || (s.ring r).gapLost != 0 then
      (if (s.ring r).held.length < 512 then s.setRing r { s.ring r with held := (s.ring r).held ++ [c] }
       else s.dropRec r c)
    else s.addToBatch r c

/-- R99: the record of an outcome at this instant, for a descriptor of ring `ring`. -/
def State.cplRec (s : State) (cpl outcome reason tag ring idx : Nat) (wm : Wm) : CplRec :=
  ⟨0, outcome, reason, tag, ring, idx, s.tstamp, wm, s.ptp.sec, s.ptpNs, s.now (s.rd (F.RING_r_CFG_TL cpl))⟩

/-- R94, R99, R423: the outcome of a descriptor: its completion record (none for DONE with NOCPL), and a record of a nonzero
reason, on the leaf that raises it. DONE carries no reason (R99). -/
def State.complete (s : State) (ring idx : Nat) (tag : Word) (nocpl : Bool) (outcome reason : Nat) (wm : Wm) (path : Nat := pHost) : State :=
  let cpl := s.rd (F.RING_r_CFG_CPL ring)
  let reason := if outcome = 0 then 0 else reason
  let s := if reason = 0 then s else s.recReason path reason 0xFFFF ring wm
  if outcome == 0 && nocpl then s
  else s.putCpl cpl (s.cplRec cpl outcome reason tag.toNat ring idx wm)

/-! ## Descriptor work -/

def jobKey (r idx : Nat) : Nat := r * 2 ^ 32 + idx % 2 ^ 32
def State.job (s : State) (k : Nat) : Option Job := mapGet (fun _ => none) s.host.jobs k
def State.setJob (s : State) (k : Nat) (j : Option Job) : State :=
  { s with host := { s.host with jobs := mapSet (fun _ => none) s.host.jobs k j } }

/-- The fields of a descriptor (R94). -/
def dOpcode (ws : List Word) : Nat := fieldAt ws 0 0 8
def dTag (ws : List Word) : Word := ws.getD 1 0
def dNocpl (ws : List Word) : Bool := fieldAt ws 0 16 1 == 1
def dFence (ws : List Word) : Bool := fieldAt ws 0 17 1 == 1
def dTarget (ws : List Word) : Nat := wordAt ws 2
def dStream (ws : List Word) : Nat := fieldAt ws 3 0 10
def dTl (ws : List Word) : Nat := fieldAt ws 3 10 2
def dDeadline (ws : List Word) : Nat := word64At ws 4

/-- The staging block raises the refusal of a capsule, whatever its code (07_staging_and_consistency.md); the host interface
those of other descriptors. -/
def refusalPath (ws : List Word) : Nat := if dOpcode ws = 0x02 then pStg else pHost

/-- R148: the held image of CAP ring r is dropped, and an event is recorded. -/
def State.dropHeld (s : State) (r : Nat) : State :=
  match (s.ring r).capHeld with
  | some n => (s.setRing r { s.ring r with capHeld := none, capData := [] }).event pStg 0xEC02 0xFFFF r n
  | none => s

/-- R148: the buffer of a CAPSULE read that ends PARTIAL or ABORTED keeps the bytes read. -/
def State.holdImage (s : State) (j : Job) (outcome : Nat) (wm : Wm) : State :=
  if dOpcode j.words = 0x02 ∧ (outcome = 1 ∨ outcome = 2) ∧ (j.phase = .running ∨ j.phase = .parked) then
    let s := s.dropHeld j.ring
    s.setRing j.ring { s.ring j.ring with capHeld := some wm.bytes, capData := (j.buf ++ List.replicate (wm.bytes - j.buf.length) 0).take wm.bytes }
  else s

/-- R96: the body of a DMA descriptor. -/
def dmaHost (ws : List Word) : Nat := word64At ws 6
def dmaOff (ws : List Word) : Nat := word64At ws 8
def dmaLen (ws : List Word) : Nat := wordAt ws 10

/-- Bytes that nothing constrains (notes/assumptions/94.md). -/
def State.freeBytes (s : State) (n : Nat) : List Byte := (List.range n).map fun i => BitVec.ofNat 8 (s.free i)

/-- R122: beyond the watermark of a copy that ends short, the destination's content is undefined. -/
def State.smear (s : State) (j : Job) (outcome : Nat) (wm : Wm) : State :=
  let ws := j.words
  let n := dmaLen ws - wm.bytes
  if outcome = 0 ∨ outcome = 3 ∨ outcome = 5 then s
  else match dOpcode ws, s.hbmOf (dTarget ws) with
    | 0x03, some d => (s.hbmWrite d (dmaOff ws + wm.bytes) (s.freeBytes n)).tick
    | 0x04, some _ => (s.hostWrite (dmaHost ws + wm.bytes) (s.freeBytes n)).tick
    | _, _ => s

/-- The work of a descriptor ends with an outcome: its record is written and it is forgotten. -/
def State.endJob (s : State) (k outcome reason : Nat) (wm : Wm) : State :=
  match s.job k with
  | none => s
  | some j => (((s.setJob k none).smear j outcome wm).holdImage j outcome wm).complete j.ring j.idx (dTag j.words) (dNocpl j.words) outcome reason wm
      (if outcome = 3 then refusalPath j.words else pHost)

/-- Start the work of a descriptor. -/
def State.startJob (s : State) (r : Nat) (d : Desc) (ph : JobPhase) : State :=
  s.setJob (jobKey r d.idx) (some ⟨r, d.idx, d.words, ph, Wm.zero, none, false, none, none, []⟩)

/-- Whether any dispatched work of ring r has no outcome yet. -/
def State.ringBusy (s : State) (r : Nat) : Bool :=
  s.host.jobs.any (fun (_, j) => match j with | some j => j.ring == r | none => false) ||
  s.sch.tasks.any (fun (_, t) => t.desc && t.ring == r && decide (1 ≤ t.state ∧ t.state ≤ 5))

/-- R169: the last scheduler reason code, on the die whose scheduler a path names. -/
def State.schReason (s : State) (p code : Nat) : State :=
  if code / 4096 = 0xC ∧ p = pSch (pathDie p) then s.reason (R.SCH_STATUS (pathDie p)) code else s

/-- R97: complete a descriptor with outcome REFUSED. -/
def State.refuseDesc (s : State) (r : Nat) (d : Desc) (code : Nat) : State :=
  (s.schReason (dTarget d.words) code).complete r d.idx (dTag d.words) (dNocpl d.words) 3 code Wm.zero (refusalPath d.words)

/-- The oldest fetched descriptor of ring r that may be dispatched (R94: FENCE waits for every earlier outcome). Only an ACTIVE ring's
are: in ERROR nothing is dispatched (notes/assumptions/134.md). -/
def State.dispatchable (s : State) (r : Nat) (op : Nat) : Option Desc :=
  match (s.ring r).fetched with
  | d :: _ => if dOpcode d.words == op && s.ringState r == 1 && !(dFence d.words && s.ringBusy r) then some d else none
  | [] => none

/-- Take the oldest fetched descriptor off the ring's list. -/
def State.popFetched (s : State) (r : Nat) : State := s.setRing r { s.ring r with fetched := (s.ring r).fetched.tail }

/-- Dispatch: take the descriptor, check the reserved fields of its body (words and masks that must be zero) and its
chapter's checks (0 passes), and do its work, or refuse it (R97, step 8). -/
def State.dispatch (s : State) (r op : Nat) (reserved : List (Nat × Word)) (check : State → Desc → Nat)
    (work : State → Desc → State) : State :=
  match s.dispatchable r op with
  | none => s
  | some d =>
    let s := s.popFetched r
    if reserved.any (fun (i, m) => d.words.getD i 0 &&& m != 0) then s.refuseDesc r d 0xB00F
    else let c := check s d; if c = 0 then work s d else s.refuseDesc r d c

/-! ## Statistics, event and output entries -/

/-- Write one entry of a device-produced ring (STAT, EVT, OUT): the bytes at the producer's slot with GEN in byte
`genAt` of every unit, and the index advanced by the units it takes. -/
def State.putUnits (s : State) (r : Nat) : List (List Byte) → State
  | [] => s
  | u :: us =>
    let h := s.rd (F.RING_r_HEAD_HEAD r)
    ((s.entryWrite r h u).wr (F.RING_r_HEAD_HEAD r) (h + 1)).putUnits r us

/-- A unit's bytes with a generation byte put in place. -/
def withGen (bs : List Byte) (at_ g : Nat) : List Byte := bs.set at_ (BitVec.ofNat 8 g)

/-- Whether ring r is an ACTIVE ring of a kind. -/
def State.activeRing (s : State) (r kind : Nat) : Bool := s.ringState r == 1 && s.ringKind r == kind

/-- R104, R428: put a 32-byte record copy into an EVT ring, after the gap entry that may be owed; a full ring
discards and counts. -/
def State.putEvt (s : State) (r : Nat) (ws : List Word) : State :=
  let lost := mapGet (fun _ => 0) s.recorder.lost r
  if s.noRoom r (if lost = 0 then 1 else 2) then
    ({ s with recorder := { s.recorder with lost := mapSet (fun _ => 0) s.recorder.lost r (min (lost + 1) (2 ^ 32 - 1)) } }.inc
      (F.RING_r_COUNT_LOST r)).inc F.REC_CNT_S_LOST
  else
    let unit := fun (s : State) (ws : List Word) =>
      s.putUnits r [withGen (wordsBytes ws) 19 (s.gen r (s.rd (F.RING_r_HEAD_HEAD r)))]
    let s := if lost = 0 then s else
      unit { s with recorder := { s.recorder with lost := mapSet (fun _ => 0) s.recorder.lost r 0 } }
        [0, 0, 0, BitVec.ofNat 32 pRec, 0xFC01, 0, BitVec.ofNat 32 lost, 0]
    ((unit s ws).writeBack r).ringIrq r

/-- R261: a statistics unit of four words with GEN in bits [31:24] of word 3. -/
def State.statUnit (s : State) (r : Nat) (ws : List Word) : State :=
  s.putUnits r [withGen (wordsBytes ws) 15 (s.gen r (s.rd (F.RING_r_HEAD_HEAD r)))]

/-- R269: an aborted run of n unwritten units owes ring r a gap marker of its own. -/
def State.statCut (s : State) (r stream n : Nat) : State :=
  (s.setRing r { s.ring r with cuts := (s.ring r).cuts ++ [(stream % 1024 + 1024, min n (2 ^ 32 - 1))] }).add (F.RING_r_COUNT_LOST r) n

/-- R267: the gap marker of a STAT ring. -/
def State.statGap (s : State) (r : Nat) : State :=
  let x := s.ring r
  (s.setRing r { x with entryLost := 0 }).statUnit r
    [BitVec.ofNat 32 x.entryLost, BitVec.ofNat 32 s.tstamp, BitVec.ofNat 32 x.lossInfo, BitVec.ofNat 32 (4 * 2 ^ 20)]

/-- R104, R267: units that a STAT ring loses; `cause` is that of the gap marker. -/
def State.statLose (s : State) (r stream cause n : Nat) : State :=
  (s.setRing r { s.ring r with entryLost := min ((s.ring r).entryLost + n) (2 ^ 32 - 1), lossInfo := stream % 1024 + cause * 1024 }).add
    (F.RING_r_COUNT_LOST r) n

/-- R269: the oldest gap marker that aborted runs owe ring r is written, where there is a place for it. -/
def State.cutMark (s : State) (r : Nat) : State :=
  match (s.ring r).cuts with
  | (info, n) :: cs =>
    if !s.activeRing r 2 ∨ s.noPlace r 1 then s
    else
      let s := (s.setRing r { s.ring r with cuts := cs }).statUnit r [BitVec.ofNat 32 n, BitVec.ofNat 32 s.tstamp, BitVec.ofNat 32 info, BitVec.ofNat 32 (4 * 2 ^ 20)]
      (s.writeBack r).ringIrq r
  | [] => s
def State.cutMarks (s : State) (r : Nat) : State := s.forRange (s.ring r).cuts.length fun _ s => s.cutMark r

/-- R104, R264: a run of units for a STAT ring, written whole or discarded whole; the gap marker that is owed comes
first. -/
def State.putStat (s : State) (r stream : Nat) (us : List (List Word)) : State :=
  let n := us.length
  if s.noRoom r (n + if (s.ring r).entryLost = 0 then 0 else 1) then s.statLose r stream 0 n
  else
    let s := if (s.ring r).entryLost = 0 then s else s.statGap r
    ((us.foldl (fun s u => s.statUnit r u) s).writeBack r).ringIrq r

/-! ## Output records and the spill area -/

/-- R324: an output record before it has its place: header words without GEN and ENTRIES, then the payload. -/
structure OutRec where
  w0 : Nat
  w1 : Nat
  w2 : Nat
  w3 : Nat
  payload : List Byte
  deriving DecidableEq, Repr

/-- R324: entries a record takes. -/
def OutRec.entries (x : OutRec) : Nat := (16 + x.payload.length + 63) / 64

/-- Entries left before the end of the ring. -/
def State.toEnd (s : State) (r : Nat) : Nat := s.ringSize r - s.rd (F.RING_r_HEAD_HEAD r) % s.ringSize r

/-- R324: the entries a record needs, with the pad record before it. -/
def State.outNeed (s : State) (r : Nat) (x : OutRec) : Nat := x.entries + if s.toEnd r < x.entries then s.toEnd r else 0

/-- R324: write one record at the producer index: payload first, header last (one write here). -/
def State.outPlace (s : State) (r : Nat) (x : OutRec) : State :=
  let h := s.rd (F.RING_r_HEAD_HEAD r)
  let hdr := natBytes 4 (x.w0 + s.gen r h * 256 + x.entries * 65536) ++ natBytes 4 x.w1 ++ natBytes 4 x.w2 ++ natBytes 4 x.w3
  (s.entryWrite r h (hdr ++ x.payload)).wr (F.RING_r_HEAD_HEAD r) (h + x.entries)

/-- R324: a pad record over the entries left, when the record does not fit before the end. -/
def State.outPad (s : State) (r : Nat) (x : OutRec) : State :=
  if s.toEnd r < x.entries then
    let h := s.rd (F.RING_r_HEAD_HEAD r)
    let n := s.toEnd r
    (s.entryWrite r h (natBytes 4 (2 + s.gen r h * 256 + n * 65536) ++ natBytes 12 0)).wr (F.RING_r_HEAD_HEAD r) (h + n)
  else s

/-- R324: the gap record that follows a loss. The spec gives its LOST and leaves FLOW and STAMP open
(notes/assumptions/4.md). -/
def State.outGap (s : State) (r : Nat) : State :=
  let x := s.ring r
  let g : OutRec := ⟨1, s.free 1 % 2048 * 65536, s.free 2, x.entryLost, []⟩
  ((s.setRing r { x with entryLost := 0 }).tick.outPlace r g)

/-- R324: write a record into the ring. -/
def State.outWrite (s : State) (r : Nat) (x : OutRec) : State :=
  (((s.outPad r x).outPlace r x).writeBack r).ringIrq r

/-- R127: bytes of the spill area that a record of n payload bytes takes: as many as its entries. -/
def spillTakes (n : Nat) : Nat := (16 + n + 63) / 64 * 64

/-- R127: bytes of the spill area in use, shown in KiB. -/
def State.spilled (s : State) (r : Nat) : Nat := ((s.ring r).spill.map fun x => spillTakes x.2).sum
def State.showSpill (s : State) (r : Nat) : State := s.wr (F.XLT_SPILLr_STATUS_FILL r) ((s.spilled r + 1023) / 1024)
def State.spillState (s : State) (r : Nat) : Nat := s.rd (F.XLT_SPILLr_STATUS_STATE r)

/-- R127, R130: bytes of ring r's spill area, and the place at its tail; records follow one another round the area
(notes/assumptions/93.md). -/
def State.spillSize (s : State) (r : Nat) : Nat := s.rd (F.XLT_SPILLr_CFG_SIZE r) * 2 ^ 20
def State.spillTail (s : State) (r : Nat) : Nat :=
  match (s.ring r).spill.getLast? with
  | some (a, n) => (a + spillTakes n) % max 1 (s.spillSize r)
  | none => 0
def State.spillOff (s : State) (r a : Nat) : Nat := s.rd (F.XLT_SPILLr_BASE_PAGE r) * 4096 + a

/-- R127: the bytes of a record in the private HBM of the area's crown, at a place that may wrap. -/
def State.spillWrite (s : State) (r a : Nat) (bs : List Byte) : State :=
  let d := s.rd (F.XLT_SPILLr_CFG_CROWN r)
  let n := s.spillSize r - a
  (s.hbmWrite d (s.spillOff r a) (bs.take n)).hbmWrite d (s.spillOff r 0) (bs.drop n)
def State.spillRead (s : State) (r a n : Nat) : OutRec :=
  let b := (List.range (16 + n)).map fun i => s.hbmByte (s.rd (F.XLT_SPILLr_CFG_CROWN r)) (s.spillOff r ((a + i) % max 1 (s.spillSize r)))
  let w := fun i => ((List.range 4).map fun j => (b.getD (4 * i + j) 0).toNat * 2 ^ (8 * j)).sum
  ⟨w 0, w 1, w 2, w 3, b.drop 16⟩

/-- R127: the record goes to the spill tail, or degrades the area when it does not fit. -/
def State.spillPut (s : State) (r : Nat) (x : OutRec) : State :=
  if s.spilled r + x.entries * 64 > s.spillSize r then
    let s := (s.setRing r { s.ring r with entryLost := min ((s.ring r).entryLost + 1) (2 ^ 32 - 1) }).inc (F.XLT_SPILLr_COUNT_DISCARDED r)
    (s.wr (F.XLT_SPILLr_STATUS_STATE r) 2).event pXlt 0xAC03 0xFFFF r (s.rd (F.XLT_SPILLr_COUNT_DISCARDED r))
  else
    let a := s.spillTail r
    let s := s.spillWrite r a (natBytes 4 x.w0 ++ natBytes 4 x.w1 ++ natBytes 4 x.w2 ++ natBytes 4 x.w3 ++ x.payload)
    ((s.setRing r { s.ring r with spill := (s.ring r).spill ++ [(a, x.payload.length)] }).wr (F.XLT_SPILLr_STATUS_STATE r) 1).showSpill r

/-- R127, R324: a packet's record for OUT ring r. -/
def State.putOut (s : State) (r : Nat) (x : OutRec) : State :=
  match s.spillState r with
  | 2 => (s.setRing r { s.ring r with entryLost := min ((s.ring r).entryLost + 1) (2 ^ 32 - 1) }).inc (F.XLT_SPILLr_COUNT_DISCARDED r)
  | 1 => s.spillPut r x
  | _ =>
    if s.noRoom r 1 then s.spillPut r x
    else
      let s := if (s.ring r).entryLost = 0 then s else s.outGap r
      if s.noRoom r (s.outNeed r x) then s.spillPut r x else s.outWrite r x

/-- R127: copy spilled records to the ring while it has space and its page is present; an empty area is DIRECT. -/
def State.spillDrain (s : State) (r : Nat) : Nat → State
  | 0 => s
  | n + 1 =>
    if s.spillState r = 0 ∨ (s.ring r).recFault then s
    else match (s.ring r).spill with
      | [] => s.wr (F.XLT_SPILLr_STATUS_STATE r) 0
      | (a, k) :: ws =>
        let x := s.spillRead r a k
        if s.noRoom r (s.outNeed r x) then s
        else (((s.setRing r { s.ring r with spill := ws }).outWrite r x).showSpill r).spillDrain r n

/-- R366: the die that holds ring r's spill area is lost: what it held is discarded, and the ring is DEGRADED. -/
def State.spillLost (s : State) (r : Nat) : State :=
  let n := (s.ring r).spill.length
  let s := s.setRing r { s.ring r with spill := [], recFault := false, entryLost := min ((s.ring r).entryLost + n) (2 ^ 32 - 1) }
  let s := s.add (F.XLT_SPILLr_COUNT_DISCARDED r) n
  ((s.wr (F.XLT_SPILLr_STATUS_STATE r) 2).showSpill r).event pXlt 0xAC03 0xFFFF r (s.rd (F.XLT_SPILLr_COUNT_DISCARDED r))

/-- R127: the ring is disabled, or its spill epoch is revoked: the contents are discarded. -/
def State.spillReset (s : State) (r : Nat) : State :=
  ((s.setRing r { s.ring r with spill := [], recFault := false }).wr (F.XLT_SPILLr_STATUS_STATE r) 0).showSpill r

end Sys2Proof.Machine
end

