-- ==== Sys2Proof/Machine/Park.lean ====
section
/-!
DEFINITION. Sys2Proof/Machine/Park.lean: task entries (R156), work that a page can stop, park slots and page requests (R111 to R120,
06_faults_and_preemption.md).
-/
namespace Sys2Proof.Machine

/-! ## Task entries -/

def tKey (d t : Nat) : Nat := d * 65536 + t
def State.task (s : State) (d t : Nat) : Task := mapGet (fun _ => Task.idle) s.sch.tasks (tKey d t)
def State.setTask (s : State) (d t : Nat) (x : Task) : State :=
  { s with sch := { s.sch with tasks := mapSet (fun _ => Task.idle) s.sch.tasks (tKey d t) x } }

/-- R157: DELAYED, READY, PREFETCHED, RUNNING and PARKED are the live states. -/
def Task.live (t : Task) : Bool := decide (1 ≤ t.state ∧ t.state ≤ 5)

/-- The live tasks of a die, and of one of its queues (SCH_STATUS.LIVE, SCH_Qq_STATUS.LIVE). -/
def State.liveTasks (s : State) (d : Nat) : List (Nat × Task) :=
  s.sch.tasks.filter fun (k, t) => k / 65536 == d && t.live
def State.queueLive (s : State) (d q : Nat) : List (Nat × Task) := (s.liveTasks d).filter fun (_, t) => t.queue == q

/-! ## Work -/

def descKey (r : Fin 4096) (idx : Word) : Nat := jobKey r idx.toNat

/-- The work of a descriptor job, of a task, of a ring's fetches, of an output stream's records and of a ring's record writes. -/
def descWork (r idx : Nat) : Work := .desc (Fin.ofNat 4096 r) (BitVec.ofNat 32 idx)
def taskWork (d t : Nat) : Work := .task (Fin.ofNat 8 d) (Fin.ofNat 65536 t)
def fetchWork (r : Nat) : Work := .fetch (Fin.ofNat 4096 r)
def outWork (r : Nat) : Work := .out (Fin.ofNat 4096 r)
def recWork (r : Nat) : Work := .rec_ (Fin.ofNat 4096 r)

/-- R85: whether rings use MMIO doorbells. -/
def State.mmio (s : State) : Bool := s.on F.HIF_CTL_DB_MODE

/-- Whether the work runs, or stands parked. A ring fetches descriptors, and in coherent mode its doorbell line (R126); record
writes are those of device-produced rings, and a SUB or CAP ring's write-backs (R116, R127). -/
def State.workRuns (s : State) : Work → Bool
  | .desc r i => match s.job (descKey r i) with | some j => j.phase == .running | none => false
  | .task d t => (s.task d t).state == 4
  | .fetch r => s.ringState r == 1 && (s.ringKind r == 0 || s.ringKind r == 5 || !s.mmio)
  | .out r => s.activeRing r 3
  | .rec_ r => s.ringState r == 1 && s.ringKind r != 3
def State.workParked (s : State) : Work → Bool
  | .desc r i => match s.job (descKey r i) with | some j => j.phase == .parked | none => false
  | .task d t => (s.task d t).state == 5
  | .fetch r => (s.ring r).fetchFault
  | .out r => (s.ring r).recFault
  | .rec_ r => (s.ring r).recFault

/-- The work has faulted and has not reached its safe point. -/
def State.workFaulted (s : State) : Work → Bool
  | .desc r i => match s.job (descKey r i) with | some j => j.phase == .running && j.faulted | none => false
  | .task d t => (s.task d t).state == 4 && (s.task d t).faulted
  | _ => false

/-- R113: the PASID of a piece of work: a task's is that of the ring that carried its descriptor, or of the STAT ring that receives a
row's statistics. -/
def State.workPasid (s : State) : Work → Option Nat
  | .desc r _ => s.ringPasid r
  | .task d t => s.ringPasid (s.task d t).ring
  | .fetch r => s.ringPasid r
  | .out r => s.ringPasid r
  | .rec_ r => s.ringPasid r

def State.setFaulted (s : State) (w : Work) (b : Bool) : State :=
  match w with
  | .desc r i => match s.job (descKey r i) with | some j => s.setJob (descKey r i) (some { j with faulted := b }) | none => s
  | .task d t => s.setTask d t { s.task d t with faulted := b }
  | .fetch r => s.setRing r { s.ring r with fetchFault := b }
  | .out r => s.setRing r { s.ring r with recFault := b }
  | .rec_ r => s.setRing r { s.ring r with recFault := b }

/-- R127: records never park: a record write holds no park slot. -/
def workParks : Work → Bool
  | .out _ => false
  | .rec_ _ => false
  | _ => true

/-- R116: the safe point of a fetch or a record write is the single access, so its request leaves at once. -/
def workSingle : Work → Bool
  | .fetch _ => true
  | .out _ => true
  | .rec_ _ => true
  | _ => false

/-! ## Park slots -/

/-- R120: the park slot of a piece of work, and its tag. -/
def State.parkOf (s : State) (w : Work) : Option Park :=
  s.xlt.park.findSome? fun (_, p) => match p with | some p => if p.work = w then some p else none | none => none

/-- R120: the lowest free slot of the 8,192. -/
def State.freeSlot (s : State) : Option Nat :=
  (List.range 8192).find? fun i => (mapGet (fun _ => none) s.xlt.park i).isNone

/-- XLT_PARK counts slots in use. -/
def State.showPark (s : State) : State :=
  (s.wr F.XLT_PARK_PARKED s.xlt.park.length).wr F.XLT_PARK_PEAK (max (s.rd F.XLT_PARK_PEAK) s.xlt.park.length)

/-- R120: work that has parked already shows the tag of the slot it takes. -/
def State.showTag (s : State) (w : Work) (tag : Nat) : State :=
  match w with
  | .desc r i => match s.job (descKey r i) with
    | some j => if j.phase = .parked then s.setJob (descKey r i) (some { j with slot := some tag }) else s
    | none => s
  | .task d t => if (s.task d t).state = 5 then s.setTask d t { s.task d t with tag := tag } else s
  | _ => s

/-- R120: take a slot: the tag joins the slot with the count of its reuses. -/
def State.takeSlot (s : State) (w : Work) (i : Nat) : State :=
  let n := mapGet (fun _ => 0) s.xlt.reuse i
  let s := s.showTag w (i + n % 8 * 8192)
  ({ s with xlt := { s.xlt with
    park := mapSet (fun _ => none) s.xlt.park i (some ⟨w, i + n % 8 * 8192, false⟩), reuse := mapSet (fun _ => 0) s.xlt.reuse i (n + 1) } } : State).showPark

/-- R117: the held work of a piece of work moves to the park buffer of its unit's private HBM. -/
def State.holdInHbm (s : State) (w : Work) : State :=
  { s with xlt := { s.xlt with park := s.xlt.park.map fun (i, p) => (i, p.map fun p => if p.work = w then { p with inHbm := true } else p) } }

/-! ## Page requests -/

def State.prg (s : State) (i : Nat) : Option Prg := mapGet (fun _ => none) s.xlt.prgs i
def State.setPrg (s : State) (i : Nat) (p : Option Prg) : State :=
  { s with xlt := { s.xlt with prgs := mapSet (fun _ => none) s.xlt.prgs i p } }

/-- R120: XLT_PRI counts requests. -/
def State.showPri (s : State) : State :=
  let n := (s.xlt.prgs.map fun (_, p) => match p with | some p => p.pages.length | none => 0).sum
  (s.wr F.XLT_PRI_OUTSTANDING n).wr F.XLT_PRI_PEAK (max (s.rd F.XLT_PRI_PEAK) n)

/-- R120: send the requests of a group, the Last flag on the final one. -/
def State.sendPrg (s : State) (i : Nat) : State :=
  match s.prg i with
  | some p =>
    let n := p.pages.length
    let s := (p.pages.zipIdx).foldl (fun (s : State) ((pasid, page), k) => s.send (.pageReq i pasid page (k + 1 == n))) s
    s.setPrg i (some { p with sent := true })
  | none => s

/-- R120: the group that already asks for a page. -/
def State.prgWith (s : State) (pasid : Option Nat) (page : Nat) : Option Nat :=
  (s.xlt.prgs.find? fun (_, p) => match p with | some p => p.pages.contains (pasid, page) | none => false).map (·.1)

/-- R120: the open group of a piece of work that has room for another request. -/
def State.openPrg (s : State) (w : Work) : Option Nat :=
  (s.xlt.prgs.find? fun (_, p) => match p with
    | some p => !p.sent && decide (p.pages.length < 8) && p.waiters.any (·.1 == w) | none => false).map (·.1)

/-- R111, R120: whether another page request keeps within the capacity of 512 and the allocation the host has written. -/
def State.priRoom (s : State) : Bool := decide (s.rd F.XLT_PRI_OUTSTANDING < min 512 s.xlt.alloc)

/-- R120: a free PRG index. -/
def State.freePrg (s : State) : Option Nat := if s.priRoom then (List.range 512).find? fun i => (s.prg i).isNone else none

/-- R120: ask for a page: join a request for it, add it to the work's open group, or open a group. A single access, and work that
waited for room past its safe point, asks at once; other work closes its group at its safe point. None when there is no room. -/
def State.askPage (s : State) (w : Work) (tag page : Nat) : Option State :=
  let pasid := s.workPasid w
  match s.prgWith pasid page with
  | some i => (s.prg i).map fun p => s.setPrg i (some { p with waiters := p.waiters ++ [(w, tag, page)] })
  | none =>
    match s.openPrg w with
    | some i =>
      if !s.priRoom then none
      else (s.prg i).map fun p =>
        let s := (s.setPrg i (some { p with pages := p.pages ++ [(pasid, page)], waiters := p.waiters ++ [(w, tag, page)] })).showPri
        if p.pages.length = 7 ∨ s.workParked w then s.sendPrg i else s
    | none => s.freePrg.map fun i =>
        let s := (s.setPrg i (some ⟨false, [(pasid, page)], [(w, tag, page)]⟩)).showPri
        if workSingle w ∨ s.workParked w then s.sendPrg i else s

/-- R120: a fault takes its work's park slot, or a free one, and asks for the page; with neither it waits in the unit. -/
def State.fault (s : State) (w : Work) (page : Nat) : State :=
  let wait := { s with xlt := { s.xlt with waiting := s.xlt.waiting ++ [(w, page)] } }
  let ask := fun (t : State) (tag : Nat) => (t.askPage w tag page).getD { t with xlt := { t.xlt with waiting := t.xlt.waiting ++ [(w, page)] } }
  if !workParks w then ask s 0
  else match s.parkOf w, s.freeSlot with
    | some p, _ => ask s p.tag
    | none, some i => let t := s.takeSlot w i; ask t (((t.parkOf w).map (·.tag)).getD 0)
    | none, none => wait

/-- R120: the waiting faults try again. -/
def State.retryWaiting (s : State) : State :=
  s.xlt.waiting.foldl (fun s (w, page) => if s.workRuns w || s.workParked w then s.fault w page else s)
    { s with xlt := { s.xlt with waiting := [] } }

/-- R120: the groups of a piece of work close at its safe point. -/
def State.closeGroups (s : State) (w : Work) : State :=
  (s.xlt.prgs.filter fun (_, p) => match p with | some p => !p.sent && p.waiters.any (·.1 == w) | none => false).foldl
    (fun s (i, _) => s.sendPrg i) s

/-- R120: a piece of work has ended or goes on: its groups close, its park slots are free, and waiting faults try for them; its
page requests stay allocated. -/
def State.freePark (s : State) (w : Work) : State :=
  let s := s.closeGroups w
  let ps := s.xlt.park.filter fun (_, p) => match p with | some p => p.work != w | none => false
  (({ s with xlt := { s.xlt with park := ps, waiting := s.xlt.waiting.filter fun (v, _) => v != w } } : State).showPark).retryWaiting

end Sys2Proof.Machine
end

