-- ==== Sys2Proof/Machine/Task.lean ====
section
/-!
DEFINITION. Sys2Proof/Machine/Task.lean: the task tables, ready lists, delay lists and consumer slots of the
schedulers (08_task_scheduler.md), the dispatcher, and the ending of a task.
-/
namespace Sys2Proof.Machine

/-! ## Tables -/

/-- R152: task entries and queues of a die. -/
def taskCount (d : Nat) : Nat := if d = 0 then 16384 else 65536
def queueCount (d : Nat) : Nat := if d = 0 then 32768 else 8192

/-! ## Ready and delay lists -/

def rKey (d b l : Nat) : Nat := (d * 64 + b) * 32 + l
def State.readyList (s : State) (d b l : Nat) : List Nat := mapGet (fun _ => []) s.sch.ready (rKey d b l)
def State.setReady (s : State) (d b l : Nat) (ts : List Nat) : State :=
  { s with sch := { s.sch with ready := mapSet (fun _ => []) s.sch.ready (rKey d b l) ts } }
def State.delayList (s : State) (d l : Nat) : List Nat := mapGet (fun _ => []) s.sch.delay (d * 8 + l)
def State.setDelay (s : State) (d l : Nat) (ts : List Nat) : State :=
  { s with sch := { s.sch with delay := mapSet (fun _ => []) s.sch.delay (d * 8 + l) ts } }

/-- R155: the binding a task's queue feeds. -/
def State.taskBind (s : State) (d : Nat) (x : Task) : Nat := s.rd (F.SCH_Qq_CFG_BIND d x.queue)

/-- R158: a pre-empted or displaced task goes back to the head of its level. -/
def State.joinHead (s : State) (d t : Nat) : State :=
  let x := s.task d t
  let b := s.taskBind d x
  (s.setTask d t { x with state := 2, joinAt := 0 }).setReady d b x.level (t :: s.readyList d b x.level)

/-- R158: the classes of tasks that reach a tail in one cycle: 0 to 3 the delay lists of the timelines, 4 the 1 us list, then
these. -/
def clsResponse : Nat := 5
def clsSubmit : Nat := 6

/-- R158: a place at the tail, before tasks of a later class that reached it in this cycle. -/
def State.tailIn (s : State) (d cls t : Nat) : List Nat → List Nat
  | [] => [t]
  | u :: us => if (s.task d u).joinAt = s.cycle + 1 ∧ cls < (s.task d u).joinCls then t :: u :: us else u :: s.tailIn d cls t us

/-- R158: a task joins the tail of its level. -/
def State.joinTail (s : State) (d t cls : Nat) : State :=
  let x := s.task d t
  let b := s.taskBind d x
  (s.setTask d t { x with state := 2, joinAt := s.cycle + 1, joinCls := cls }).setReady d b x.level (s.tailIn d cls t (s.readyList d b x.level))

/-- R159: whether wake `a` comes before wake `b` on a list: stamps compare under R7, microseconds as numbers. -/
def wakeBefore (l a b : Nat) : Bool := if l = 4 then decide (a < b) else later b a

/-- R159: sorted insertion; ties keep submission order. -/
def State.sortIn (s : State) (d l w t : Nat) : List Nat → List Nat
  | [] => [t]
  | u :: us => if wakeBefore l w (s.task d u).wake then t :: u :: us else u :: s.sortIn d l w t us

/-- R301: a decode input waits for an earlier one of its ring and stream that is neither done nor in a consumer's slots. -/
def State.behind (s : State) (d t : Nat) : Bool :=
  let x := s.task d t
  d != 0 && x.desc && dOpcode x.words == 0x20 && s.sch.tasks.any fun (k, y) =>
    k / 65536 == d && k % 65536 != t && y.live && y.desc && dOpcode y.words == 0x20 && y.stream == x.stream && y.ring == x.ring &&
      decide (0 < (x.idx + 2 ^ 32 - y.idx) % 2 ^ 32 ∧ (x.idx + 2 ^ 32 - y.idx) % 2 ^ 32 < 2 ^ 31) && y.state != 3 && y.state != 4

/-- The highest level of a binding at or below level l with a task that may go to a consumer, and the first such task of it (R158). -/
def State.bestFrom (s : State) (d b l : Nat) : Nat → Option (Nat × Nat)
  | 0 => none
  | n + 1 =>
    match (s.readyList d b l).find? fun t => !s.behind d t with
    | some t => some (l, t)
    | none => s.bestFrom d b (l + 1) n

def State.best (s : State) (d b : Nat) : Option (Nat × Nat) := s.bestFrom d b 0 32

/-- SCH_READYb: the READY tasks of a binding. -/
def State.readyCount (s : State) (d b : Nat) : Nat := ((List.range 32).map fun l => (s.readyList d b l).length).sum

/-! ## Consumers -/

/-- R153: whether a consumer number is assigned on a die, whether it is a hardware consumer, and its leaf. -/
def consAssigned (d k : Nat) : Bool := if d = 0 then decide (k < 6 ∨ 32 ≤ k) else decide (k < 19 ∨ 32 ≤ k)
def consHw (d k : Nat) : Bool := if d = 0 then k == 4 || k == 5 else decide (k ≤ 16)
def State.consPath (s : State) (d k : Nat) : Nat :=
  if d = 0 then
    if k < 4 then mkPath [0, 10, k] else if k = 4 then pPkt else if k = 5 then pRec
    else mkPath [0, 10, s.rd (F.SCH_CONSk_CFG_CORE d k)]
  else if k < 8 then mkPath [d, k, 5]
  else if k < 13 then mkPath [d, k]
  else if k < 17 then mkPath [d, 15]
  else if k < 19 then mkPath [d, 16, k - 17]
  else mkPath [d, 16, s.rd (F.SCH_CONSk_CFG_CORE d k)]

def State.curOf (s : State) (d k : Nat) : Option Nat :=
  if s.on (F.SCH_CONSk_CUR_VALID d k) then some (s.rd (F.SCH_CONSk_CUR_TASK d k)) else none
def State.nextOf (s : State) (d k : Nat) : Option Nat :=
  if s.on (F.SCH_CONSk_NXT_VALID d k) then some (s.rd (F.SCH_CONSk_NXT_TASK d k)) else none
def State.setCur (s : State) (d k : Nat) (t : Option Nat) : State :=
  ((s.wr (F.SCH_CONSk_CUR_VALID d k) (bit t.isSome)).wr (F.SCH_CONSk_CUR_TASK d k) (t.getD 0)).wr (F.SCH_CONSk_STATUS_CUR d k) (bit t.isSome)
def State.setNext (s : State) (d k : Nat) (t : Option Nat) : State :=
  ((s.wr (F.SCH_CONSk_NXT_VALID d k) (bit t.isSome)).wr (F.SCH_CONSk_NXT_TASK d k) (t.getD 0)).wr (F.SCH_CONSk_STATUS_NEXT d k) (bit t.isSome)

/-- A consumer's current slot empties: with it go the dispatch interrupt and a pending pre-emption. -/
def State.emptyCur (s : State) (d k : Nat) : State :=
  ((s.setCur d k none).wr (F.SCH_CONSk_STATUS_IRQ d k) 0).wr (F.SCH_CONSk_STATUS_PEND_PREEMPT d k) 0

def State.afhia (s : State) (d k : Nat) : Bool := s.on (F.SCH_CONSk_CFG_MODE d k)

/-- R169: a BIND takes effect once both slots are empty. -/
def State.consBind (s : State) (d k : Nat) : Nat :=
  if s.curOf d k = none ∧ s.nextOf d k = none then s.rd (F.SCH_CONSk_CFG_BIND d k)
  else mapGet (fun _ => 0) s.sch.bind (d * 256 + k)

/-- The enabled consumers of a binding, in ascending number. -/
def State.consumers (s : State) (d b : Nat) : List Nat :=
  (List.range 256).filter fun k => consAssigned d k && s.on (F.SCH_CONSk_CFG_EN d k) && s.consBind d k == b

/-- R168: the consumers of a list that may take a task: a task of a HOST queue runs only on firmware consumers. -/
def State.mayTake (s : State) (d t : Nat) (ks : List Nat) : List Nat :=
  ks.filter fun k => !(consHw d k && s.on (F.SCH_Qq_CFG_HOST d (s.task d t).queue))

/-- R117, R124: a PARKED task leaves its consumer's current slot, and its held work moves to HBM. -/
def State.leaveCur (s : State) (d k : Nat) : State :=
  match s.curOf d k with
  | some u => if (s.task d u).state = 5 then (s.holdInHbm (taskWork d u)).emptyCur d k else s
  | none => s

/-- R161, R162: a task of the binding goes into a consumer's slot; a PARKED task leaves the current slot as the next one fills. -/
def State.fillSlot (s : State) (d b k l t : Nat) : State :=
  let s := s.setReady d b l ((s.readyList d b l).erase t)
  let s := { s with sch := { s.sch with bind := mapSet (fun _ => 0) s.sch.bind (d * 256 + k) b } }
  let s := s.setTask d t { s.task d t with state := 3, cons := k }
  if s.afhia d k then ((s.setCur d k (some t)).wr (F.SCH_CONSk_STATUS_IRQ d k) 1).send (.dispatchIrq d k)
  else
    (s.leaveCur d k).setNext d k (some t)

/-- The consumer of a list that takes the next task: one that holds no task first, then the lower number (R161). -/
def State.takerOf (s : State) (d : Nat) (ks : List Nat) : Option Nat :=
  let free := ks.filter fun k => if s.afhia d k then s.curOf d k == none else s.nextOf d k == none
  match free.find? (fun k => s.curOf d k == none && s.nextOf d k == none) with
  | some k => some k
  | none => free.head?

/-- The consumer of a list whose held task has the highest level number; among equals the lowest number. -/
def lowestOf (held : List (Nat × Nat)) : Option (Nat × Nat) :=
  held.foldl (fun a (k, l) => match a with | some (k', l') => if l > l' then some (k, l) else some (k', l') | none => some (k, l)) none

/-- R162, R124: the Afhia consumer whose started task has the lowest priority, where a level outranks that task. -/
def State.victim (s : State) (d : Nat) (ks : List Nat) (l : Nat) : Option Nat :=
  let run := ks.filterMap fun k =>
    if s.afhia d k then (s.curOf d k).bind fun u => if (s.task d u).state = 4 ∨ (s.task d u).state = 5 then some (k, (s.task d u).level) else none else none
  match lowestOf run with
  | some (k, l') => if l < l' then some k else none
  | none => none

/-- Whether a consumer's current task is PARKED. -/
def State.parkedOn (s : State) (d k : Nat) : Bool := match s.curOf d k with | some u => (s.task d u).state == 5 | none => false

/-- R161, R162: fill empty slots from the highest level, displace prefetched tasks, pre-empt Afhia tasks: a PARKED one is at a safe
point and leaves its slot at once (R124), a RUNNING one is marked. -/
def State.fill (s : State) (d b : Nat) : Nat → State
  | 0 => s
  | n + 1 =>
    match s.best d b with
    | none => s
    | some (l, t) =>
      let ks := s.mayTake d t (s.consumers d b)
      let mark := match s.victim d ks l with
        | some k => if s.parkedOn d k then (s.leaveCur d k).fill d b n else s.wr (F.SCH_CONSk_STATUS_PEND_PREEMPT d k) 1
        | none => s
      match s.takerOf d ks with
      | some k => (s.fillSlot d b k l t).fill d b n
      | none =>
        let held := ks.filterMap fun k => if s.afhia d k then none else (s.nextOf d k).map fun u => (k, (s.task d u).level)
        match lowestOf held with
        | some (k, l') =>
          if l < l' then
            let u := (s.nextOf d k).getD 0
            let s := ((s.setNext d k none).joinHead d u).inc (F.SCH_COUNT_A_DISPLACED d)
            (s.fillSlot d b k l t).fill d b n
          else mark
        | none => mark

/-- R161, R165: after a change the slots of a binding are filled within 40 ns: at the end of the cycle, since a dispatch comes after
every other event of a task in it (notes/assumptions/126.md). -/
def State.refill (s : State) (d b : Nat) : State :=
  { s with sch := { s.sch with dirty := if s.sch.dirty.contains (d * 64 + b) then s.sch.dirty else s.sch.dirty ++ [d * 64 + b] } }

/-- R161: at the end of a cycle the dispatcher fills the slots of the bindings that changed. -/
def State.fillCycle (s : State) : State :=
  s.sch.dirty.foldl (fun s k => s.fill (k / 64) (k % 64) 1024) { s with sch := { s.sch with dirty := [] } }

/-! ## The end of a task -/

/-- Take a live task off its list and out of its slots. -/
def State.detach (s : State) (d t : Nat) : State :=
  let x := s.task d t
  let b := s.taskBind d x
  let k := x.cons
  if x.state = 1 then s.setDelay d x.dlist ((s.delayList d x.dlist).erase t)
  else if x.state = 2 then s.setReady d b x.level ((s.readyList d b x.level).erase t)
  else if 3 ≤ x.state ∧ x.state ≤ 5 then
    let s := if s.nextOf d k = some t then s.setNext d k none else s
    if s.curOf d k = some t then s.emptyCur d k else s
  else s

/-- R161, R169: after a task has left a consumer's slots, its binding is filled, and that of a BIND that now takes effect. -/
def State.refillFor (s : State) (d b k : Nat) : State :=
  let s := s.refill d b
  if s.consBind d k = b then s else s.refill d (s.consBind d k)

/-- R157, R163, R164: a live task ends: it leaves its list or slot, takes its final state, writes its completion record
or event, and the slots are filled again. `fin` is 6 CANCELLED or 7 DONE; an entry of a scheduler that was reset reads IDLE (R152).
The event of work that no descriptor started carries its stream and picture, and a row that ends short owes its STAT ring a gap marker
(R123). -/
def State.endTask (s : State) (d t fin outcome reason : Nat) (wm : Wm) : State :=
  let x := s.task d t
  let s := (s.detach d t).freePark (taskWork d t)
  let s := s.setTask d t (if x.gone then Task.idle else { x with state := fin, creq := false, stop := none, faulted := false, wm := wm })
  let s := if reason = 0xC009 then s.inc (F.SCH_COUNT_B_DEADLINE d) else s
  let s := if x.desc then s.complete x.ring x.idx x.htag x.nocpl outcome reason wm
    else if reason = 0 then s
    else ({ s with sch := { s.sch with cut := if x.stream < 768 then s.sch.cut ++ [(d, x.arg0, x.arg1)] else s.sch.cut } } : State).recReason (s.consPath d x.cons) reason x.stream x.arg1.toNat wm (if x.stream < 768 then some (s.chTl (x.stream / 8)) else none)
  s.schReason (pSch d) reason |>.refillFor d (s.taskBind d x) x.cons

/-- R164, R160, R125: end a task for a reason that a running task meets at its next safe point only. Of two reasons of one cycle the
owner's revocation wins (R165). -/
def State.stopTask (s : State) (d t outcome reason : Nat) : State :=
  let x := s.task d t
  if !x.live then s
  else if x.state = 4 then
    (if x.stop = none ∨ (reason = 0xA809 ∧ x.stopAt = s.cycle) then s.setTask d t { x with stop := some (outcome, reason), stopAt := s.cycle } else s)
  else s.endTask d t 7 outcome reason x.wm

/-- R165: a task has started in this cycle. -/
def State.justStarted (s : State) (x : Task) : Bool := x.state == 4 && x.startAt == s.cycle + 1
/-- R165: a page response has made a task READY in this cycle. -/
def State.justAnswered (s : State) (x : Task) : Bool := (x.state == 2 || x.state == 3) && x.joinCls == clsResponse && x.joinAt == s.cycle + 1

/-- R165: a task that is cancelled in the cycle of its start has not started, and a read of SCH_CONSk_TAKE in it took nothing (R162). -/
def State.unstart (s : State) (d t : Nat) : State :=
  let k := (s.task d t).cons
  let s := (s.inc (F.SCH_COUNT_A_CANCEL_UNRUN d)).endTask d t 6 4 0 Wm.zero
  if s.afhia d k ∧ !consHw d k then { s with rdata := 0 } else s

/-- R163, R165: a cancel acts on a live task; R167 refuses it on any other. It comes before a start or a page response of its cycle. -/
def State.cancelTask (s : State) (d t : Nat) : State :=
  let x := s.task d t
  if s.justStarted x then s.unstart d t
  else if x.state = 4 then s.setTask d t { x with creq := true }
  else if x.state = 5 ∨ s.justAnswered x then s.endTask d t 6 4 0 x.wm
  else if x.live then (s.inc (F.SCH_COUNT_A_CANCEL_UNRUN d)).endTask d t 6 4 0 Wm.zero
  else s

/-- R496, R125: stop a descriptor's work at its next safe point, or at once while it is parked or waiting. -/
def State.stopJob (s : State) (k outcome reason : Nat) : State :=
  match s.job k with
  | none => s
  | some j =>
    if j.phase = .running then (if j.stop = none then s.setJob k (some { j with stop := some (outcome, reason) }) else s)
    else (s.freePark (descWork j.ring j.idx)).endJob k outcome reason j.wm

/-- R119, R164, R165: a deadline has been reached. Work that runs stops at its next safe point; any other ends at the end of the cycle,
so that a cancel or a revocation of the same cycle comes first. -/
def State.dueStop (s : State) (w : Work) (outcome reason : Nat) : State :=
  let note := fun (s : State) => ({ s with sch := { s.sch with due := s.sch.due ++ [w] } } : State)
  match w with
  | .desc r i => match s.job (descKey r i) with
    | some j => if j.stop ≠ none then s
      else if j.phase = .running then s.stopJob (descKey r i) outcome reason
      else note (s.setJob (descKey r i) (some { j with stop := some (outcome, reason) }))
    | none => s
  | .task d t =>
    let x := s.task d t
    if !x.live ∨ x.stop ≠ none then s
    else if x.state = 4 then s.stopTask d t outcome reason
    else note (s.setTask d t { x with stop := some (outcome, reason), stopAt := s.cycle })
  | _ => s

/-- R118, R164: one piece of work whose deadline was reached in the cycle ends, if it is still there and does not run. -/
def State.dueEnd (s : State) (w : Work) : State :=
  match w with
  | .desc r i => match s.job (descKey r i) with
    | some j => match j.stop with
      | some (o, c) => if j.phase = .running then s else (s.freePark w).endJob (descKey r i) o c j.wm
      | none => s
    | none => s
  | .task d t =>
    let x := s.task d t
    match x.stop with
    | some (o, c) => if !x.live ∨ x.state = 4 then s else s.endTask d t 7 o c x.wm
    | none => s
  | _ => s

/-- R119, R165: at the end of a cycle the deadlines reached in it act. -/
def State.dueCycle (s : State) : State := s.sch.due.foldl State.dueEnd { s with sch := { s.sch with due := [] } }

/-- R160: the reason code a descriptor's work reports when its deadline ends it (R496). -/
def deadlineCode (op : Nat) : Nat := if op = 0x30 then 0xC009 else if op = 0x02 then 0xE00F else 0xB011

/-- The tasks and descriptor work that satisfy a condition, as lists of keys. -/
def State.tasksWhere (s : State) (p : Nat → Task → Bool) : List Nat :=
  (s.sch.tasks.filter fun (k, t) => t.live && p k t).map (·.1)
def State.jobsWhere (s : State) (p : Job → Bool) : List Nat :=
  s.host.jobs.filterMap fun (k, j) => match j with | some j => if p j then some k else none | none => none

/-- R496: descriptors of ring r that were accepted and not dispatched, with a deadline on timeline n, end with 0xC00A. -/
def State.endFetched (s : State) (r n : Nat) : State :=
  let hit := fun (d : Desc) => dDeadline d.words != 0 && dTl d.words == n
  let ds := (s.ring r).fetched
  ((ds.filter hit).foldl (fun s d => s.complete r d.idx (dTag d.words) (dNocpl d.words) 2 0xC00A Wm.zero)
    (if ds.any hit then s.setRing r { s.ring r with fetched := ds.filter fun d => !hit d } else s))

/-- R160, R496: a timeline has gone to OFF: work waiting on it, and all work with a deadline on it, ends with 0xC00A. -/
def State.endTimelineWork (s : State) (n : Nat) : State :=
  let ts := s.tasksWhere fun _ t => (t.state == 1 && t.dlist == n) || (t.deadline != 0 && t.dtl == n)
  let js := s.jobsWhere fun j => dDeadline j.words != 0 && dTl j.words == n && j.phase != .armed
  let s := ts.foldl (fun s k => s.stopTask (k / 65536) (k % 65536) 2 0xC00A) s
  let s := js.foldl (fun s k => s.stopJob k 2 0xC00A) s
  (s.host.rings.map (·.1)).foldl (fun s r => s.endFetched r n) s

end Sys2Proof.Machine
end

