-- ==== Sys2Proof/Machine/Mode.lean ====
section
/-!
DEFINITION. Sys2Proof/Machine/Mode.lean: grove status (R20), where a channel runs (R31, R352), pair sides, Quarantine
causes (R457) and the package operating mode (R454 to R456).
-/
namespace Sys2Proof.Machine

/-! ## Status of units -/

/-- Whether a leaf is in reset: held by a source, or waiting for its clock (R437, R438). -/
def State.inReset (s : State) (q : Nat) : Bool := s.rst.waiting.contains q || s.rst.holds.any fun (_, p) => s.under p q

/-- R20: whether a leaf is faulted or held in reset, powered off, or has work running, parked or prefetched: tasks, descriptor
work, and operations of CRC engines. -/
def State.leafFault (s : State) (q : Nat) : Bool :=
  s.rst.faults.contains q || s.inReset q
def State.leafOff (s : State) (q : Nat) : Bool :=
  let ds := if s.rst.domsOff = [] then [] else leafDoms s.crowns q
  ds != [] && ds.all s.rst.domsOff.contains
/-- The leaves whose units do a descriptor's work: the staging block for a CAPSULE, the compositors of the channel's slot for a
LAYER_SRC (R116), else its TARGET. -/
def State.jobLeaves (s : State) (j : Job) : List Nat :=
  match dOpcode j.words with
  | 0x02 => [pStg]
  | 0x10 =>
    let d := pathHop (dTarget j.words) 0
    match (List.range 16).find? fun k => s.on (F.CMP_SLOTs_CFG_EN d k) && s.rd (F.CMP_SLOTs_CFG_CHANNEL d k) == dStream j.words / 8 with
    | some k => (List.range 4).filterMap fun c => if s.rd (F.CMP_SLOTs_CFG_COMP_MASK d k) / 2 ^ c % 2 = 1 then some (mkPath [d, 8 + c]) else none
    | none => []
  | _ => [dTarget j.words]

/-- R16, R20: the leaves that hold a task's work: its consumer's leaf; of a coding row every leaf of the pipeline. -/
def State.taskLeaves (s : State) (d : Nat) (t : Task) : List Nat :=
  if d ≠ 0 ∧ t.cons < 8 ∧ !t.desc then (List.range 6).map fun h => mkPath [d, t.cons, h] else [s.consPath d t.cons]

/-- The CRC engine of a leaf is at work. -/
def State.crcAt (s : State) (q : Nat) : Bool :=
  pathHop q 1 == 19 && pathDepth q == 3 && s.on (F.CRC_k_STATUS_BUSY (pathHop q 0) (pathHop q 2))

def State.leafBusy (s : State) (q : Nat) : Bool :=
  s.crcAt q || s.host.jobs.any (fun (_, j) => match j with | some j => (j.phase == .running || j.phase == .parked) && (s.jobLeaves j).contains q | none => false) ||
  (List.range (s.crowns + 1)).any fun d =>
    (q == pSch d && s.liveTasks d != []) ||
    (s.liveTasks d).any fun (_, t) => decide (3 ≤ t.state ∧ t.state ≤ 5) && (s.taskLeaves d t).contains q

/-- R20: status of a path: 0 IDLE, 1 BUSY, 2 OFF, 3 PARTIAL, 4 FAULT; the first row that matches wins. A crown out of service
reports FAULT (R30). -/
def State.status (s : State) (p : Nat) : Nat :=
  let ls := s.leaves p
  if ls.any s.leafFault || (s.rst.needReset.any fun d => mkPath [d] == p) then 4
  else if ls.any s.leafOff && ls.any (fun q => !s.leafOff q) then 3
  else if ls != [] && ls.all s.leafOff then 2
  else if ls.any s.leafBusy then 1
  else 0

/-- Whether crown d reports FAULT. -/
def State.crownFault (s : State) (d : Nat) : Bool := s.status (mkPath [d]) == 4

/-! ## Channels and pairs -/

/-- R456: a channel is enabled while ING_CHc_CFG.EN = 1. -/
def State.chOn (s : State) (c : Nat) : Bool := s.on (F.ING_CHc_CFG_EN c)
def State.anyChannel (s : State) : Bool := (List.range 96).any s.chOn

/-- R30: a register field of a crown as the packetiser goes by it: the copy kept while the crown is out of service, else the
register's. -/
def State.rdKept (s : State) (d : Nat) (f : Fld) : Nat :=
  match mapGet (fun _ => []) s.rst.kept d with
  | [] => s.rd f
  | ks => getBits (mapGet (regReset s.variant.crowns) ks f.reg) f.lo f.width

/-- R141: the state with nothing kept for the packetiser: the checks of registers go by the registers themselves. -/
def State.unkept (s : State) : State := { s with rst := { s.rst with kept := [] } }

/-- The composition slots that carry a channel, as (crown, slot), in ascending order. -/
def State.placements (s : State) (c : Nat) : List (Nat × Nat) :=
  (List.range s.crowns).flatMap fun i => (List.range 16).filterMap fun k =>
    if s.rdKept (i + 1) (F.CMP_SLOTs_CFG_EN (i + 1) k) == 1 && s.rdKept (i + 1) (F.CMP_SLOTs_CFG_CHANNEL (i + 1) k) == c then some (i + 1, k) else none

/-- R350: enabled pair n, its kind, and the path of its side (0 A, 1 B). -/
def State.pairOn (s : State) (n : Nat) : Bool := s.on (F.PAIR_n_CFG_EN n)
def State.pairTwin (s : State) (n : Nat) : Bool := s.on (F.PAIR_n_CFG_KIND n)
def State.sidePath (s : State) (n sd : Nat) : Nat :=
  if sd = 0 then s.rd (F.PAIR_n_SIDE_A_PATH n) else s.rd (F.PAIR_n_SIDE_B_PATH n)

/-- R354: roles: 0 off, 1 STANDBY, 2 PROMOTING, 3 ACTIVE, 4 MUTED, 5 FAULT, 6 PENDING. -/
def roleField (n sd : Nat) : Fld := if sd = 0 then F.PAIR_n_STATUS_ROLE_A n else F.PAIR_n_STATUS_ROLE_B n
def State.role (s : State) (n sd : Nat) : Nat := s.rd (roleField n sd)

/-- The sides of pair n that lie in this package. -/
def State.localSides (s : State) (n : Nat) : List Nat := if s.pairTwin n then [0] else [0, 1]

/-- Whether a side of a pair carries composition slot k of crown d: it is the crown, or it holds a compositor of the
slot or a pipeline of one of its streams. -/
def State.sideCarries (s : State) (n sd d k : Nat) : Bool :=
  let ls := s.leaves (s.sidePath n sd)
  (List.range 4).any (fun j => decide (s.rdKept d (F.CMP_SLOTs_CFG_COMP_MASK d k) / 2 ^ j % 2 = 1) && ls.contains (mkPath [d, 8 + j])) ||
  (List.range 8).any fun e => s.rdKept d (F.ENC_STRi_CFG_EN d (k * 8 + e)) == 1 && ls.contains (mkPath [d, s.rdKept d (F.ENC_STRi_CFG_PIPE_FIRST d (k * 8 + e)), 5])

/-- The enabled pairs and sides that carry a slot of a crown. -/
def State.slotSides (s : State) (d k : Nat) : List (Nat × Nat) :=
  (List.range 32).flatMap fun n => if s.pairOn n then (s.localSides n).filterMap fun sd =>
    if s.sideCarries n sd d k then some (n, sd) else none else []

/-- R31, R352: two slots are the two sides of one pair. -/
def State.onePair (s : State) (a b : Nat × Nat) : Bool :=
  (s.slotSides a.1 a.2).any fun (n, sd) => (s.slotSides b.1 b.2).contains (n, 1 - sd)

/-- R352: the placement of a channel under R31: on the active side where it is paired, on the promoting side where none is
active, else the first. -/
def State.placement (s : State) (c : Nat) : Option (Nat × Nat) :=
  let ps := s.placements c
  let with_ := fun r => ps.find? fun (d, k) => (s.slotSides d k).any fun (n, sd) => s.role n sd == r
  match with_ 3, with_ 2 with
  | some p, _ => some p
  | none, some p => some p
  | none, none => ps.head?

/-- R457: whether the placement of a channel on crown d, slot k is healthy: the crown reports no FAULT and no side
that carries it is in FAULT. -/
def State.healthy (s : State) (d k : Nat) : Bool :=
  !s.crownFault d && (s.slotSides d k).all fun (n, sd) => s.role n sd != 5

/-- R457: the first crown, in ascending order, that an enabled channel runs on and that reports FAULT while no healthy
side carries the channel; 0 when there is no cause. -/
def State.quarantineCrown (s : State) : Nat :=
  let bad := (List.range 96).filterMap fun c =>
    if s.chOn c then
      let ps := s.placements c
      if ps.any (fun (d, _) => s.crownFault d) && ps.all (fun (d, k) => !s.healthy d k) then (ps.find? fun (d, _) => s.crownFault d).map (·.1)
      else none
    else none
  bad.foldl (fun a d => if a = 0 ∨ d < a then d else a) 0

/-- R456: the mode within the operational group. -/
def State.operMode (s : State) : Nat :=
  let on := (List.range 96).filter s.chOn
  let paired := fun c => (s.placements c).flatMap fun (d, k) => s.slotSides d k
  if (List.range 32).any (fun n => s.on (F.PAIR_n_STATUS_DRILL n)) then 10
  else if (List.range 32).any (fun n => s.role n 0 == 2 || (s.role n 1 == 2 && !s.pairTwin n)) then 9
  else if (List.range 4).any (fun n => s.tlState n == 3) && on != [] then 7
  else if on.any (fun c => paired c == [] || (paired c).any fun (n, sd) => s.role n sd == 3) then 6
  else if on != [] && on.all (fun c => (paired c).all fun (n, sd) => s.role n sd == 1) then 8
  else 5

/-- R454: the mode is one of the operational group. -/
def operational (m : Nat) : Bool := decide (5 ≤ m ∧ m ≤ 10)

/-- R455, R456, R457: derive the mode again: a Quarantine cause moves the operational group to Quarantine. -/
def State.modeUpdate (s : State) : State :=
  if operational (s.rd F.PWR_MODE_MODE) then
    let q := s.quarantineCrown
    if q = 0 then s.wr F.PWR_MODE_MODE s.operMode
    else (s.wr F.PWR_MODE_MODE 12).wr F.PWR_MODE_CAUSE q
  else s

/-- R446: the balls ALARM_N and THERM_TRIP_N are low. -/
def State.alarmLow (s : State) : Bool :=
  s.rst.hotDies != [] || s.rd F.PWR_MODE_MODE == 12 || s.rd (F.BOOT_STATUS_STAGE 0) == 4 || s.rd F.BOOT_STRAPS_CLK_MODE == 3
def State.thermTripLow (s : State) : Bool :=
  (List.range (s.crowns + 1)).any fun d => s.on (F.PWR_THERM_STATUS_TRIPPED d)

end Sys2Proof.Machine
end

