-- ==== Sys2Proof/Machine/Rule.lean ====
section
/-!
DEFINITION. Sys2Proof/Machine/Rule.lean: the form of one rule of the consistency check (R141), as the chapters state
them; Machine/Check.lean evaluates them.
-/
namespace Sys2Proof.Machine

/-- R141: one rule: the BAR0 offset of the register concerned, its reason code, the status registers that take the code,
the registers the rule involves, and whether the state breaks it. -/
structure Rule where
  addr : Nat
  code : Nat
  status : List Nat
  uses : List Nat
  bad : Bool
  deriving DecidableEq, Repr

/-- Rules of one register: (code, broken) in the chapter's order. -/
def rulesAt (addr : Nat) (status uses : List Nat) (cs : List (Nat × Bool)) : List Rule :=
  cs.map fun (c, b) => ⟨addr, c, status, addr :: uses, b⟩

/-- Whether two states differ in some register of a list. -/
def State.differ (o s : State) (as : List Nat) : Bool := as.any fun a => o.reg a != s.reg a

/-- The word of an ST register with its enable bit left out. -/
def noEn (w : Word) : Word := w &&& 0xFFFFFFFE

/-- Whether some element of a list occurs twice. -/
def hasDup : List Nat → Bool
  | [] => false
  | a :: t => t.contains a || hasDup t

/-- Whether two ranges, as (start, length), meet. -/
def rangesMeet (a b : Nat × Nat) : Bool := decide (a.1 < b.1 + b.2 ∧ b.1 < a.1 + a.2)

/-- The registers a set claims, with their shadows. -/
def State.claimsOf (s : State) (q : Nat) : List (Nat × Word) :=
  s.stg.claims.filterMap fun (a, x) => x.bind fun (p, v) => if p = q then some (a, v) else none
/-- The grove records of a set. -/
def State.groveRecsOf (s : State) (q : Nat) : List GroveRec := mapGet (fun _ => []) s.stg.groveRecs q

/-- The state with shadows and grove records in force, and nothing else done. -/
def State.overlay (s : State) (cs : List (Nat × Word)) (gs : List GroveRec) : State :=
  let s := cs.foldl (fun s (a, v) => s.setReg a v) s
  { s with stg := { s.stg with groves := applyGroves s.stg.groves gs } }
def State.withSet (s : State) (q : Nat) : State := s.overlay (s.claimsOf q) (s.groveRecsOf q)

/-- R141: the active state, and the state after each ARMED set in arming order. -/
def State.bases (s : State) : List State := s :: (List.range s.stg.armed.length).map fun i => (s.stg.armed.take (i + 1)).foldl State.withSet s

end Sys2Proof.Machine
end

