-- ==== Sys2Proof/Machine/Xlt.lean ====
section
/-!
DEFINITION. Sys2Proof/Machine/Xlt.lean: translation faults, parking, page requests and responses, safe points
(06_faults_and_preemption.md), and their commands.
-/
namespace Sys2Proof.Machine

/-! ## Ring errors -/

/-- R107, R126: the ring enters ERROR; fetching stops and it counts as full; an event is recorded. -/
def State.ringError (s : State) (r code : Nat) : State :=
  if s.ringState r = 1 then
    ((s.wr (F.RING_r_STATUS_STATE r) 2).reason (R.RING_r_STATUS r) code).event pHost 0xBC01 0xFFFF r code
  else s

/-- R91, R93: read the doorbell line with RdShared; with MMIO doorbells never. While ATS is off the request goes out untranslated
(notes/assumptions/134.md). -/
def State.readDoorbell (s : State) (r : Nat) : State :=
  if s.mmio then s.setRing r { s.ring r with reading := false, rung := false, again := false } else
  let s := s.xlate (s.ringPasid r) (s.rd64 (F.RING_r_DB_LO_DB_LO r) (F.RING_r_DB_HI_DB_HI r))
  (s.setRing r { s.ring r with reading := true, rung := false }).send (.rdShared r)

/-! ## Stops -/

/-- The work stops with an outcome: at its next safe point while it runs, at once while it is parked. -/
def State.stopWork (s : State) (w : Work) (outcome code : Nat) : State :=
  match w with
  | .desc r i => s.stopJob (descKey r i) outcome code
  | .task d t => s.stopTask d t outcome code
  | .fetch r => (s.setRing r { s.ring r with fetchFault := false }).ringError r 0xA80A
  | .out _ => s
  | .rec_ _ => s

/-! ## Faults -/

/-- R112, R118: PRI is disabled or stopped. -/
def State.priOff (s : State) : Bool := !s.on F.XLT_STATUS_PRI_EN || s.on F.XLT_STATUS_PRI_STOPPED

/-- R116, R127: a record write finds its page absent: an OUT ring spills; another device-produced ring takes no entry
(notes/assumptions/92.md); the write-back of a SUB or CAP ring stays due. -/
def State.recStuck (s : State) (w : Work) : State :=
  let s := s.setFaulted w true
  match w with
  | .out r => s.wr (F.XLT_SPILLr_STATUS_STATE r) (max 1 (s.spillState r))
  | .rec_ r => if s.ringKind r = 0 ∨ s.ringKind r = 5 then s.setRing r { s.ring r with wbDue := true } else s
  | _ => s

/-- R117, R118, R126, R127: an access of running work faults. -/
def State.xltFault (s : State) (w : Work) (addr : Nat) : State :=
  if !s.workRuns w then s
  else
    let s := s.inc F.XLT_COUNT_FAULT_FAULTS
    if s.priOff then (if workParks w then s.stopWork w 1 0xA807 else s.recStuck w)
    else (if workParks w then s.setFaulted w true else s.recStuck w).fault w (addr % 2 ^ 64 / 4096)

/-- XLT_FAULT (R117). -/
def execXltFault (w : Work) (addr : Nat) (s : State) : Out := .next (s.xltFault w addr)

/-! ## Safe points -/

/-- R117, R161: a PARKED task leaves its current slot, and its held work moves to HBM. -/
def State.leaveSlot (s : State) (d t : Nat) : State :=
  let x := s.task d t
  let s := s.holdInHbm (taskWork d t)
  if s.curOf d x.cons = some t then (s.emptyCur d x.cons).refillFor d (s.taskBind d x) x.cons else s

/-- R124, R161, R162: a task that parks leaves its slot at once where its next slot holds a task, or where a READY task outranks it
on an Afhia consumer. -/
def State.parkSlot (s : State) (d t : Nat) : State :=
  let x := s.task d t
  let outranked := s.afhia d x.cons && match s.best d (s.taskBind d x) with | some (l, _) => decide (l < x.level) | none => false
  if (s.nextOf d x.cons).isSome || outranked then s.leaveSlot d t else s.wr (F.SCH_CONSk_STATUS_PEND_PREEMPT d x.cons) 0

/-- R117, R118: the work parks at its safe point. -/
def State.park (s : State) (w : Work) (wm : Wm) : State :=
  let s := s.closeGroups w
  match w with
  | .desc r i => match s.job (descKey r i) with
    | some j => s.setJob (descKey r i) (some { j with phase := .parked, faulted := false, wm := wm, slot := ((s.parkOf w).map (·.tag)) })
    | none => s
  | .task d t =>
    (s.setTask d t { s.task d t with state := 5, faulted := false, wm := wm, tag := ((s.parkOf w).map (·.tag)).getD 0 }).parkSlot d t
  | _ => s

/-- R162: an Afhia consumer's running task is pre-empted when a READY task of the binding still outranks it. -/
def State.preempt (s : State) (d t : Nat) : State :=
  let x := s.task d t
  let k := x.cons
  let b := s.taskBind d x
  if s.on (F.SCH_CONSk_STATUS_PEND_PREEMPT d k) then
    let s := s.wr (F.SCH_CONSk_STATUS_PEND_PREEMPT d k) 0
    match s.best d b with
    | some (l, _) =>
      if l < x.level then
        let s := (s.emptyCur d k).setTask d t { x with pre := true }
        ((s.inc (F.SCH_COUNT_B_PREEMPT d)).joinHead d t).refillFor d b k
      else s
    | none => s
  else s

/-- R124, R163, R164: a running descriptor's work reaches a safe point with its watermark: an ending or a fault acts. -/
def State.jobSafe (s : State) (r : Fin 4096) (i : Word) (wm : Wm) : State :=
  match s.job (descKey r i) with
  | some j =>
    if j.phase ≠ .running then s
    else match j.stop with
      | some (o, c) => (s.freePark (.desc r i)).endJob (descKey r i) o c wm
      | none => if j.faulted then s.park (.desc r i) wm else s.setJob (descKey r i) (some { j with wm := wm })
  | none => s

/-- R124, R163, R164: a running task reaches a safe point: a pending cancel, an ending or a fault acts, or a pre-emption. -/
def State.taskSafe (s : State) (d t : Nat) (wm : Wm) : State :=
  let x := s.task d t
  if x.state ≠ 4 then s
  else if x.creq then s.endTask d t 6 4 0 wm
  else match x.stop with
    | some (o, c) => s.endTask d t 7 o c wm
    | none => if x.faulted then s.park (taskWork d t) wm else (s.setTask d t { x with wm := wm }).preempt d t

/-- PARK_HOLD_EXPIRED (R117, R161). -/
def execParkHoldExpired (w : Work) (s : State) : Out :=
  .next (s.when (s.workParked w) fun s => match w with
    | .task d t => s.leaveSlot d t
    | _ => s.holdInHbm w)

/-! ## Responses -/

/-- R118: parked work becomes READY at the tail of its level; work that has not yet reached its safe point runs on; a doorbell line
is read again (R126), and a record write drains what waits for it. -/
def State.resume (s : State) (w : Work) : State :=
  let s := s.freePark w
  match w with
  | .desc r i => match s.job (descKey r i) with
    | some j => s.setJob (descKey r i) (some { j with phase := .running, faulted := false, slot := none })
    | none => s
  | .task d t =>
    let x := s.task d t
    if x.state = 5 then
      let s := if s.curOf d x.cons = some t then s.emptyCur d x.cons else s
      (s.joinTail d t clsResponse).refillFor d (s.taskBind d x) x.cons
    else s.setFaulted w false
  | .fetch r => let s := s.setFaulted w false; if (s.ring r).reading then s.readDoorbell r else s
  | .out r => (s.setFaulted w false).spillDrain r 65536
  | .rec_ r =>
    let s := s.setFaulted w false
    if s.ringKind r = 1 then (s.drainHeld r 514).closeBatch r
    else if (s.ringKind r = 0 ∨ s.ringKind r = 5) ∧ (s.ring r).wbDue then s.writeBack r else s

/-- The deadline of a piece of work, 0 when it has none, and its timeline. -/
def State.workDeadline (s : State) : Work → Nat
  | .desc r i => match s.job (descKey r i) with | some j => dDeadline j.words | none => 0
  | .task d t => (s.task d t).deadline
  | _ => 0
def State.workTl (s : State) : Work → Nat
  | .desc r i => match s.job (descKey r i) with | some j => dTl j.words | none => 0
  | .task d t => (s.task d t).dtl
  | _ => 0

/-- R118, R119: line time has reached the deadline of parked work. -/
def State.deadlineMet (s : State) (w : Work) : Bool :=
  s.workParked w && s.workDeadline w != 0 && s.reachedOn (s.workTl w) (s.workDeadline w)

/-- R118, R148: the reason of parked work that its deadline ends. -/
def State.parkedCode (s : State) : Work → Nat
  | .desc r i => match s.job (descKey r i) with | some j => if dOpcode j.words = 0x02 then 0xE00F else 0xA805 | none => 0xA805
  | _ => 0xA805

/-- R118, R119, R126, R128: the response to one piece of work that waits for a page: its deadline comes first; Success installs no
translation, and the work translates the page again. -/
def State.respond (s : State) (w : Work) (page : Nat) (c : PrCode) : State :=
  if s.deadlineMet w then s.dueStop w 2 (s.parkedCode w)
  else match c with
  | .success => let p := s.workPasid w; (s.resume w).xlate p (page * 4096)
  | _ => if !workParks w then s
    else if workSingle w then (s.freePark w).stopWork w 1 0xA804
    else s.stopWork w 1 0xA804

/-- R120: a response matches a waiter by its tag. -/
def State.waits (s : State) (w : Work) (tag : Nat) : Bool :=
  (s.workParked w || s.workFaulted w) && (!workParks w || (s.parkOf w).any (·.tag == tag))

/-- R118, R120: a page response for a group. -/
def State.pageResponse (s : State) (i : Nat) (c : PrCode) : State :=
  match s.prg i with
  | some p =>
    if !p.sent then s
    else
      let ws := p.waiters.filter fun (w, tag, _) => s.waits w tag
      let s := (s.setPrg i none).showPri
      let s := if ws = [] then s.inc F.XLT_COUNT_FAULT_ORPHAN
        else ws.foldl (fun s (w, tag, page) => if s.waits w tag then s.respond w page c else s) s
      s.retryWaiting
  | none => s

/-- PAGE_RESPONSE (R118). -/
def execPageResponse (prg : Fin 512) (code : PrCode) (s : State) : Out := .next (s.pageResponse prg code)

/-- PRI_TIMEOUT (R118): parked work without a deadline. -/
def execPriTimeout (w : Work) (s : State) : Out :=
  .next (s.when (!workSingle w && s.workParked w && s.workDeadline w == 0) fun s => s.stopWork w 2 0xA806)

/-- All work that waits for a page. -/
def State.allWaiting (s : State) : List Work :=
  (s.xlt.park.filterMap fun (_, p) => p.map (·.work)) ++ s.xlt.waiting.map (·.1)

/-- R118, R126: PRI is gone: every request is dropped, with a Stop Marker for each PASID that had one (notes/assumptions/95.md), and
waiting work ends. -/
def State.priEnd (s : State) : State :=
  let ws := s.allWaiting
  let ps := ((s.xlt.prgs.flatMap fun (_, p) => match p with | some p => p.pages.map (·.1) | none => [])).eraseDups
  let s := { s with xlt := { s.xlt with prgs := [], waiting := [] } }
  let s := ps.foldl (fun s p => s.send (.stopMarker p)) s
  (ws.foldl (fun s w => if !workParks w then s
    else if workSingle w then (s.freePark w).stopWork w 1 0xA807
    else s.stopWork w 1 0xA807) s).showPri

/-- R118: the host stops PRI. -/
def State.priStop (s : State) : State := (s.wr F.XLT_STATUS_PRI_STOPPED 1).priEnd

/-- PRI_STOPPED (R118). -/
def execPriStopped (s : State) : Out := .next s.priStop

/-- R118: an access completes with Unsupported Request or Completer Abort. -/
def State.accessError (s : State) (w : Work) : State :=
  if !s.workRuns w then s
  else if workParks w then s.stopWork w 1 0xA808
  else s.recStuck w

/-- ACCESS_ERROR (R118). -/
def execAccessError (w : Work) (s : State) : Out := .next (s.accessError w)

/-! ## Invalidations -/

/-- R115: whether an entry lies in an invalidated range. -/
def XEnt.inRange (e : XEnt) (pasid : Option Nat) (addr log2 : Nat) : Bool :=
  e.pasid == pasid && decide (e.page * 2 ^ e.log2 < addr / 2 ^ log2 * 2 ^ log2 + 2 ^ log2) &&
    decide (addr / 2 ^ log2 * 2 ^ log2 < (e.page + 1) * 2 ^ e.log2)

/-- R115: an invalidation request. -/
def State.invalidate (s : State) (pasid : Option Nat) (addr log2 : Nat) : State :=
  let s := { s with xlt := { s.xlt with
    cache := (s.xlt.cache.map fun (x : Nat × List XEnt) => (x.1, x.2.filter fun (e : XEnt) => !e.inRange pasid addr log2)).filter fun x => x.2 != [],
    invals := s.xlt.invals + 1 } }
  s.inc F.XLT_INVAL_RECEIVED

/-- ATS_INVALIDATION (R115). -/
def execAtsInvalidation (pasid : Option (Fin 1048576)) (addr : Nat) (log2size : Nat) (s : State) : Out :=
  .next (s.invalidate (pasid.map (·.val)) addr log2size)

/-- ATS_INVAL_COMPLETE (R115): one that took longer than 2 us counts in SLOW. -/
def execAtsInvalComplete (slow : Bool) (s : State) : Out :=
  .next (s.when (decide (0 < s.xlt.invals)) fun s =>
    let s := ({ s with xlt := { s.xlt with invals := s.xlt.invals - 1 } } : State).send .invalDone
    if slow then s.inc F.XLT_INVAL_SLOW else s)

/-- R115: a write of 1 to XLT_FLUSH. -/
def State.xltFlush (s : State) : State := { s with xlt := { s.xlt with cache := [] } }

/-- XLT_FLUSH (R115). -/
def execXltFlush (s : State) : Out := .next s.xltFlush

/-! ## Deadlines of descriptor work -/

/-- R118, R148, R496: line time reaches the DEADLINE of a descriptor's work. -/
def State.descDeadline (s : State) (k : Nat) : State :=
  match s.job k with
  | some j =>
    let x := dDeadline j.words
    if x = 0 ∨ !s.reachedOn (dTl j.words) x ∨ j.phase = .armed then s
    else s.dueStop (descWork j.ring j.idx) 2 (if j.phase = .parked ∧ dOpcode j.words ≠ 0x02 then 0xA805 else deadlineCode (dOpcode j.words))
  | none => s

/-- DESC_DEADLINE (R496). -/
def execDescDeadline (r : Fin 4096) (idx : Word) (s : State) : Out := .next (s.descDeadline (descKey r idx))

end Sys2Proof.Machine
end

