-- ==== Sys2Proof/Machine/Audio.lean ====
section
/-!
DEFINITION. Sys2Proof/Machine/Audio.lean: audio ports and streams (16_audio_ports.md): sample indices, buffers in host
memory, underrun and overrun, elastic stores and slips, and their commands and checks.
-/
namespace Sys2Proof.Machine

def State.audStr (s : State) (a : Nat) : AudSt := mapGet (fun _ => AudSt.init) s.aud.strs a
def State.setAudStr (s : State) (a : Nat) (x : AudSt) : State :=
  { s with aud := { s.aud with strs := mapSet (fun _ => AudSt.init) s.aud.strs a x } }
def State.audStore (s : State) (k : Nat) : AudStore := mapGet (fun _ => AudStore.init) s.aud.stores k

/-- Put a store back; FILL_IN and FILL_OUT show a port's fills. -/
def State.setAudStore (s : State) (k : Nat) (x : AudStore) : State :=
  let s := { s with aud := { s.aud with stores := mapSet (fun _ => AudStore.init) s.aud.stores k x } }
  if k < 16 then s.wr (F.AUD_Pp_STATUS_FILL_IN k) x.fill
  else if k < 32 then s.wr (F.AUD_Pp_STATUS_FILL_OUT (k - 16)) x.fill
  else s

/-! ## Formats -/

def AudSamp.zero : AudSamp := ⟨0, 0⟩

/-- R334: slots per line; R342: the channels a source offers. -/
def State.portSlots (s : State) (p : Nat) : Nat := if s.rd (F.AUD_Pp_CFG_FMT p) = 1 then s.rd (F.AUD_Pp_CFG_SLOTS p) else 2
def State.audOut (s : State) (a : Nat) : Bool := s.on (F.AUD_STRa_CFG_DIR a)
def State.audPort (s : State) (a : Nat) : Nat := s.rd (F.AUD_STRa_CFG_PORT a)
def State.audTl (s : State) (a : Nat) : Nat := s.rd (F.AUD_STRa_CFG_TL a)
def State.audRate (s : State) (a : Nat) : Nat := audioHz (s.rd (F.AUD_STRa_CFG_RATE a))
def State.audLat (s : State) (a : Nat) : Nat := s.rd (F.AUD_STRa_CFG_LAT a)
def State.audMask (s : State) (a : Nat) : Nat := s.rd64 (F.AUD_STRa_MASK_LO_MASK a) (F.AUD_STRa_MASK_HI_MASK a)

/-- R342: the selected slots, ascending. -/
def maskBits (m : Nat) : List Nat := (List.range 64).filter fun k => m / 2 ^ k % 2 == 1
def State.audSlots (s : State) (a : Nat) : List Nat := maskBits (s.audMask a)

/-- R342: the containers of a sample frame: slot numbers, none for one that is not selected. -/
def State.audLanes (s : State) (a : Nat) : List (Option Nat) :=
  if s.on (F.AUD_STRa_CFG_COMPACT a) then (s.audSlots a).map some
  else (List.range 64).map fun k => if s.audMask a / 2 ^ k % 2 = 1 then some k else none

def State.audCont (s : State) (a : Nat) : Nat := if s.on (F.AUD_STRa_CFG_CONT a) then 4 else 2
def State.audFrameBytes (s : State) (a : Nat) : Nat := (s.audLanes a).length * s.audCont a

/-- R342: the bytes of one container: 16 bits, the top of the sample, or 32 bits with the sample in [31:8]. -/
def contBytes (n v : Nat) : List Byte := if n = 4 then natBytes 4 (v % 2 ^ 24 * 256) else natBytes 2 (v % 2 ^ 24 / 256)

/-- The sample a container's bytes hold. -/
def contVal (n : Nat) (bs : List Byte) : Nat :=
  let v := (bs.zipIdx.map fun (b, i) => b.toNat * 256 ^ i).sum
  if n = 4 then v / 256 else v * 256

/-- R342: the value of a slot in a frame given by the stream's selected slots. -/
def slotIn (slots : List Nat) (fr : List AudSamp) (k : Nat) : AudSamp := fr.getD (slots.idxOf k) AudSamp.zero

/-- R334: a sample as a slot of the port carries it: a 16-bit slot holds its top 16 bits, the rest is zero. -/
def State.slotSamp (s : State) (p : Nat) (x : AudSamp) : AudSamp :=
  if s.rd (F.AUD_Pp_CFG_FMT p) ≤ 1 ∧ s.rd (F.AUD_Pp_CFG_WIDTH p) = 0 then { x with val := x.val / 256 * 256 } else x

/-- R336: the cycles of timeline n's audio clock for rate hz up to a line-time position: frame N holds 2,048 x samples(N) of them, evenly.
The clock follows line time, and so every slew and holdover. -/
def State.audClock (s : State) (n hz u : Nat) : Nat :=
  let f := s.tpf n * 4096
  2048 * s.sampBefore n hz (u / f) + 2048 * s.samples n hz (u / f) * (u % f) / f

/-- R337: FS edge m of port p, in cycles of the timeline's audio clock: the cycle at the position of sample m, offset by PHASE. -/
def State.portTl (s : State) (p : Nat) : Nat := s.rd (F.AUD_Pp_CFG_TL p)
def State.portHz (s : State) (p : Nat) : Nat := audioHz (s.rd (F.AUD_Pp_CFG_RATE p))
def State.fsEdge (s : State) (p m : Nat) : Int :=
  s.audClock (s.portTl p) (s.portHz p) (s.sampPos (s.portTl p) (s.portHz p) m) + signed 16 (s.rd (F.AUD_Pp_PHASE_PHASE p))

/-- R334, R337: what the balls of port p have driven at cycle c of the audio clock, with m samples passed: MCLK at 256 x F_s; BCLK at source
/ DIV, of PDM at 3.072 MHz; FS; AES3 output lines at 128 x F_s. A ball that the port does not drive has driven nothing. -/
def State.portBalls (s : State) (p c m : Nat) : AudBalls :=
  let fmt := s.rd (F.AUD_Pp_CFG_FMT p)
  let inner := s.on (F.AUD_Pp_CFG_MASTER p) && !s.on (F.AUD_Pp_CFG_MCLK_EXT p)
  ⟨if s.on (F.AUD_Pp_CFG_MCLK_OUT p) && !s.on (F.AUD_Pp_CFG_MCLK_EXT p) then c / 8 else 0,
   if !inner then 0 else match fmt with | 2 => 0 | 3 => c / 32 | _ => c * 65536 / max 1 (s.rd (F.AUD_Pp_DIV_DIV p)),
   if inner ∧ fmt ≤ 1 then m else 0,
   if fmt = 2 ∧ s.rd (F.AUD_Pp_CFG_DIR p) ≠ 0 then c / 16 else 0⟩

/-- R336, R337: the balls of port p run on up to line time. -/
def State.portClock (s : State) (p : Nat) : State :=
  let n := s.portTl p
  let hz := s.portHz p
  let u := s.units n
  let b := s.portBalls p (s.audClock n hz u) (u * s.sampNum n hz / max 1 (s.sampDen n * (s.tpf n * 4096)) + 1)
  if s.on (F.AUD_Pp_CFG_EN p) ∧ s.tlRunning n then { s with aud := { s.aud with balls := mapSet (fun _ => AudBalls.init) s.aud.balls p b } } else s

/-- R337: a port whose input, or whose output, lies in its own clock domain. -/
def State.ownDomain (s : State) (p : Nat) (out : Bool) : Bool :=
  if s.rd (F.AUD_Pp_CFG_FMT p) = 2 then !out
  else !s.on (F.AUD_Pp_CFG_MASTER p) || s.on (F.AUD_Pp_CFG_MCLK_EXT p)

/-- R341, R183: the channel whose SDI input feeds stream a, and the group. -/
def State.sdiOf (s : State) (a : Nat) : Option (Nat × Nat) :=
  ((List.range 96).flatMap fun c => (List.range 8).map fun g => (c, g)).find? fun (c, g) =>
    s.chOn c && s.rd (F.ING_CHc_SRC_KIND c) == 2 && decide (s.rd (F.ING_CHc_AUD_GROUPS c) / 2 ^ g % 2 = 1) &&
      s.rd (F.ING_CHc_AUD_STREAM c) + g == a

/-- R341: the key of the elastic store a stream goes through, if it lies in a clock domain of its own. -/
def State.storeOf (s : State) (a : Nat) : Option Nat :=
  match s.rd (F.AUD_STRa_CFG_SRC a) with
  | 0 =>
    let p := s.audPort a
    if s.ownDomain p (s.audOut a) then some (if s.audOut a then 16 + p else p) else none
  | 2 => match s.sdiOf a with
    | some (c, _) => if s.on (F.ING_CHc_CFG_FSYNC c) then some (32 + a) else none
    | none => none
  | _ => none

def State.audOn (s : State) (a : Nat) : Bool := s.on (F.AUD_STRa_CFG_EN a)
def State.audEnabled (s : State) : List Nat := (List.range 256).filter s.audOn

/-- R339: the sample the stream's next position names. -/
def State.audNext (s : State) (a : Nat) : Nat := (s.audStr a).m0 + (s.audStr a).n

/-! ## Slips -/

/-- R346: the alignment set of the streams that go through a store. -/
def State.storeUsers (s : State) (k : Nat) : List Nat := s.audEnabled.filter fun a => s.storeOf a == some k
def State.setOf (s : State) (a : Nat) : Option Nat :=
  if s.on (F.AUD_STRa_CFG_SETEN a) then some (s.rd (F.AUD_STRa_CFG_SET a)) else none
def State.setMembers (s : State) (n : Nat) : List Nat := s.audEnabled.filter fun a => s.setOf a == some n

/-- R345: a slip of store k counts on its port, or on its SDI stream. -/
def State.countSlip (s : State) (k : Nat) : State :=
  if k < 32 then s.inc (F.AUD_Pp_CNT_SLIPS (k % 16))
  else s.setAudStr (k - 32) { s.audStr (k - 32) with slips := (s.audStr (k - 32)).slips + 1 }

/-- R345: ask store k to slip at sample `m`. -/
def State.askSlip (s : State) (k : Nat) (dir : Int) (m a : Nat) : State :=
  s.setAudStore k { s.audStore k with slip := dir, slipAt := m, slipBy := a }

/-- R346: a set slips: each member's store is asked for the same sample, the first after the trigger. A slip already asked
in the other direction by a higher stream number gives way. -/
def State.setSlips (s : State) (n : Nat) (dir : Int) (a : Nat) : State :=
  let ms := s.setMembers n
  let keys := (ms.filterMap s.storeOf).eraseDups
  let m := (ms.map s.audNext).foldl max 0
  let asked := keys.find? fun k => (s.audStore k).slip != 0
  match asked with
  | some k =>
    if (s.audStore k).slip ≠ dir ∧ a < (s.audStore k).slipBy then keys.foldl (fun s k => s.askSlip k dir (s.audStore k).slipAt a) s
    else s
  | none => (keys.foldl (fun s k => s.askSlip k dir m a) s).inc (F.AUD_SETs_CNT_SLIPS n)

/-- R345, R346: act on the fill of store k: a set member at 31 or 1 slips alone. -/
def State.checkFill (s : State) (k : Nat) : State :=
  let x := s.audStore k
  let a := (s.storeUsers k).headD 0
  let dir : Int := if x.fill ≥ 28 then 1 else if x.fill ≤ 4 then -1 else 0
  if dir = 0 ∨ s.storeUsers k = [] then s
  else match s.setOf a with
    | some n =>
      if x.fill ≥ 31 ∨ x.fill ≤ 1 then
        let s := s.askSlip k dir (s.audNext a) a
        let s := if k < 32 then s.inc (F.AUD_Pp_CNT_SOLO_SLIPS (k % 16)) else s
        s.event (if k < 32 then pAud (k % 16) else pIngest) 0x7C01 a a (if dir = 1 then 0 else 1) (some (s.audTl a))
      else s.setSlips n dir a
    | none => if x.slip = 0 then s.askSlip k dir (s.audNext a) a else s

/-- A frame whose samples nothing states: what a store holds before its first frames have arrived
(notes/assumptions/4.md). -/
def State.freeFrame (s : State) (n : Nat) : List AudSamp := (List.range n).map fun i => ⟨s.free (16 + i) % 2 ^ 24, 0⟩

/-- Take the oldest frame of a store. -/
def State.storePop (s : State) (k n : Nat) : State × List AudSamp :=
  let x := s.audStore k
  if x.frames.length < x.fill then ((s.setAudStore k { x with fill := x.fill - 1 }).tick, s.freeFrame n)
  else match x.frames with
    | (_, f) :: fs => (s.setAudStore k { x with fill := x.fill - 1, frames := fs }, f)
    | [] => (s.tick, s.freeFrame n)

/-- The next frame of an input store for sample m, with the slip that is due: a drop passes one frame over, a repeat gives
the last frame again. -/
def State.storeNext (s : State) (k n m : Nat) (prev : Option (List AudSamp)) : State × Option (List AudSamp) :=
  let x := s.audStore k
  let due := x.slip != 0 && decide (x.slipAt ≤ m)
  let (s, f) :=
    if due && x.slip == -1 then (s, prev)
    else
      let s := if due then (s.storePop k n).1 else s
      let (s, f) := s.storePop k n
      (s, some f)
  let s := if due then s.countSlip k else s
  let x := s.audStore k
  let s := s.setAudStore k { x with cur := some (m, f), slip := if due then 0 else x.slip }
  (s.checkFill k, f)

/-- R345: the frame of sample m from an input store; streams of one port share it. -/
def State.storeTake (s : State) (k n m : Nat) : State × Option (List AudSamp) :=
  match (s.audStore k).cur with
  | some (m', f) => if m' = m then (s, f) else s.storeNext k n m f
  | none => s.storeNext k n m none

/-- R347: at sample m, which is an underrun for want of a clock, a slip of the store that is due: a repeat falls together with the
underrun's, a drop removes the next frame. -/
def State.storeStill (s : State) (k n m : Nat) : State :=
  let x := s.audStore k
  if x.slip = 0 ∨ m < x.slipAt then s
  else
    let s := if x.slip = 1 then (s.storePop k n).1 else s
    (s.setAudStore k { s.audStore k with slip := 0 }).countSlip k

/-- A new frame of sample m for an output store, with the slip that is due. -/
def State.storeAdd (s : State) (k m : Nat) (f : List AudSamp) : State :=
  let x := s.audStore k
  let due := x.slip != 0 && decide (x.slipAt ≤ m)
  let fs := if due && x.slip == 1 then [] else if due then [(m, f), (m, f)] else [(m, f)]
  let s := if due then s.countSlip k else s
  let x := s.audStore k
  let s := s.setAudStore k { x with
    cur := some (m, none), fill := min 32 (x.fill + fs.length), frames := x.frames ++ fs, slip := if due then 0 else x.slip }
  s.checkFill k

/-- R345: present frame `fr` of sample m, on its slots, into an output store; streams of one port share the frame. -/
def State.storePut (s : State) (k m : Nat) (slots : List Nat) (fr : List AudSamp) : State :=
  let lay := fun (base : List AudSamp) => (List.range 64).map fun i =>
    if slots.contains i then slotIn slots fr i else base.getD i AudSamp.zero
  let x := s.audStore k
  match x.cur with
  | some (m', _) =>
    if m' = m then s.setAudStore k { x with frames := x.frames.map fun (i, f) => if i = m then (i, lay f) else (i, f) }
    else s.storeAdd k m (lay [])
  | none => s.storeAdd k m (lay [])

/-! ## Host memory -/

/-- R120, R344: a faulting audio access asks for its page and never parks. -/
def State.audPageReq (s : State) (a addr : Nat) : State :=
  let pasid := if s.on (F.AUD_STRa_PASID_PEN a) then some (s.rd (F.AUD_STRa_PASID_PASID a)) else none
  let s := s.inc F.XLT_COUNT_FAULT_FAULTS
  if s.priOff ∨ (s.prgWith pasid (addr / 4096)).isSome then s
  else match s.freePrg with
    | some i => ((s.setPrg i (some ⟨false, [(pasid, addr / 4096)], []⟩)).showPri).sendPrg i
    | none => s

/-- R342: where frame j of a stream lies, and its side bytes (R343). -/
def State.audAddr (s : State) (a j : Nat) : Nat :=
  (s.rd64 (F.AUD_STRa_BASE_LO_ADDR a) (F.AUD_STRa_BASE_HI_ADDR a) + j % 2 ^ s.rd (F.AUD_STRa_SIZE_FRAMES_LOG2 a) * s.audFrameBytes a) % 2 ^ 64
def State.audSideAddr (s : State) (a j : Nat) : Nat :=
  (s.rd64 (F.AUD_STRa_SIDE_LO_ADDR a) (F.AUD_STRa_SIDE_HI_ADDR a) +
    j % 2 ^ s.rd (F.AUD_STRa_SIZE_FRAMES_LOG2 a) * (s.audLanes a).length) % 2 ^ 64
def State.audPasid (s : State) (a : Nat) : Option Nat := if s.on (F.AUD_STRa_PASID_PEN a) then some (s.rd (F.AUD_STRa_PASID_PASID a)) else none

/-- R342, R343: write frame j of an input stream with its side plane. -/
def State.audWrite (s : State) (a j : Nat) (fr : List AudSamp) : State :=
  let slots := s.audSlots a
  let lanes := s.audLanes a
  let val := fun (l : Option Nat) => match l with | some k => slotIn slots fr k | none => AudSamp.zero
  let bs := lanes.flatMap fun l => contBytes (s.audCont a) (val l).val
  let w := s.audAddr a j
  let s := (s.xlate (s.audPasid a) w).hostWrite w bs
  let s := if s.on (F.AUD_STRa_CFG_SIDE a) then
      let w := s.audSideAddr a j
      (s.xlate (s.audPasid a) w).hostWrite w (lanes.map fun l => BitVec.ofNat 8 (val l).side)
    else s
  (s.setAudStr a { s.audStr a with written := some fr }).wr (F.AUD_STRa_IDX_INDEX a) (j + 1)

/-- R344: j - HOST as a signed 32-bit distance. -/
def State.audAhead (s : State) (a j : Nat) : Int :=
  signed 32 ((j % 2 ^ 32 + 2 ^ 32 - s.rd (F.AUD_STRa_HOST_INDEX a)) % 2 ^ 32)

/-- R344: whether an input position may be written. -/
def State.audWritable (s : State) (a j : Nat) : Bool := decide (s.audAhead a j < 2 ^ s.rd (F.AUD_STRa_SIZE_FRAMES_LOG2 a))

/-- R173: the kind of a flow table entry's flow, and its target. -/
def flowKind (ws : List Word) : Nat := fieldAt ws 1 17 3
def flowTarget (ws : List Word) : Nat := fieldAt ws 3 0 8

/-- R343: whether the source of stream a carries side bits: an AES3 port, an ST 2110-31 flow (KIND 3), or SDI embedded audio, whose
packets carry those of AES3 (notes/assumptions/144.md). Every other source is PCM. -/
def State.audAes (s : State) (a : Nat) : Bool :=
  match s.rd (F.AUD_STRa_CFG_SRC a) with
  | 0 => s.rd (F.AUD_Pp_CFG_FMT (s.audPort a)) == 2
  | 1 => s.ing.flows.any fun (_, e) => match e with | some e => flowKind e.words == 3 && flowTarget e.words == a | none => false
  | _ => true

/-- The frame repeated at position j: its samples and side bytes again, Z as R343 sets it. -/
def repeatAt (j : Nat) (block : Option Nat) (fr : List AudSamp) : List AudSamp :=
  let z := match block with | some b => decide ((j - b) % 192 = 0) | none => decide (j % 192 = 0)
  fr.map fun x => { x with side := x.side / 16 * 16 + x.side % 8 + 8 * bit z }

/-- R344: write the positions held back, while they may be written. -/
def State.audRelease (s : State) (a : Nat) : Nat → State
  | 0 => s
  | n + 1 =>
    let x := s.audStr a
    let j := x.j - x.held
    if x.held = 0 ∨ !s.audWritable a j then s
    else match x.written with
      | some fr =>
        let s := s.audWrite a j (repeatAt j x.block fr)
        (s.setAudStr a { s.audStr a with held := x.held - 1 }).audRelease a n
      | none =>
        let s := (s.audWrite a j (s.freeFrame (s.audSlots a).length)).tick
        (s.setAudStr a { s.audStr a with held := x.held - 1 }).audRelease a n

/-! ## Sample positions -/

/-- R344: the last sample of each channel, which nothing states before the first. -/
def State.audLast (s : State) (a : Nat) : List AudSamp := ((s.audStr a).last).getD (s.freeFrame (s.audSlots a).length)

/-- R343: the side bytes that frame j of an input carries. -/
def State.inSide (s : State) (a j : Nat) (fr : List AudSamp) : List AudSamp :=
  if s.audAes a then fr else fr.map fun x => { x with side := if j % 192 = 0 then 8 else 0 }

/-- R344, R347: the frame an input stream writes at its next position: that of sample m0 + j, or an underrun. -/
def State.inFrame (s : State) (a : Nat) : State × List AudSamp :=
  let x := s.audStr a
  match mapGet (fun _ => none) (x.rx.map fun (k, f) => (k, some f)) (x.m0 + x.j) with
  | some f =>
    let f := s.inSide a x.j f
    let block := if f.any (fun x => x.side / 8 % 2 == 1) then some x.j else x.block
    (s.setAudStr a { x with rx := mapKeep (fun k => k != x.m0 + x.j) x.rx, last := some f, block := block }, f)
  | none =>
    let f := repeatAt x.j x.block (s.audLast a)
    (((s.setAudStr a { x with last := some f }).inc (F.AUD_STRa_CNT_A_UNDERRUN a)).tick, f)

/-- R344: input frame j falls due: it is written, or held back. -/
def State.inDue (s : State) (a : Nat) (fault : Bool) : State :=
  let s := if fault then s else s.audRelease a (s.audStr a).held
  let (s, f) := s.inFrame a
  let x := s.audStr a
  let s := s.setAudStr a { x with j := x.j + 1 }
  if fault ∨ x.held ≠ 0 ∨ !s.audWritable a x.j then
    let s := (s.setAudStr a { s.audStr a with held := x.held + 1 }).inc (F.AUD_STRa_CNT_A_OVERRUN a)
    if fault then s.audPageReq a (s.audAddr a x.j) else s
  else s.audWrite a x.j f

/-- A source frame of sample m joins an input stream: its selected slots. -/
def State.inPut (s : State) (a m : Nat) (fr : List AudSamp) : State :=
  let x := s.audStr a
  let f := (s.audSlots a).map fun k => fr.getD k AudSamp.zero
  s.setAudStr a { x with rx := mapSet (fun _ => []) x.rx m f }

/-- R335: the lines of a PDM port, decimated: the output for this position is centred 24 samples before it. -/
def State.pdmIn (s : State) (a : Nat) (f : List AudSamp) : State × List AudSamp :=
  let x := s.audStr a
  let h := (f.map (·.val % 2 ^ 64) :: x.pdm).take 49
  (s.setAudStr a { x with pdm := h }, (List.range f.length).map fun k => ⟨Config.pdm (h.map fun v => v.getD k 0) % 2 ^ 24, 0⟩)

/-- R337, R344: what the source of an input stream gives for sample m. -/
def State.inSource (s : State) (a m : Nat) (x : AudIn) : State :=
  match s.rd (F.AUD_STRa_CFG_SRC a) with
  | 0 =>
    let p := s.audPort a
    if s.ownDomain p false then
      if !s.on (F.AUD_Pp_STATUS_CLK_OK p) then s.storeStill p 64 m
      else match s.storeTake p 64 m with
        | (s, some f) => s.inPut a m f
        | (s, none) => s
    else match x.line with
      | some f =>
        if s.rd (F.AUD_Pp_CFG_FMT p) = 3 then
          let (s, f) := s.pdmIn a f
          s.inPut a m f
        else s.inPut a m (f.map (s.slotSamp p))
      | none => s
  | 2 =>
    match s.storeOf a with
    | some k => match s.storeTake k 4 m with | (s, some f) => s.inPut a m f | (s, none) => s
    | none =>
      match (s.audStore (32 + a)).frames with
      | (_, f) :: fs => (s.setAudStore (32 + a) { s.audStore (32 + a) with frames := fs }).inPut a m f
      | [] => s
  | _ => s

/-- R343: the side byte sent with frame j of an output: block starts at the phase the first Z fixes. -/
def outSide (side : Bool) (block : Option Nat) (j : Nat) (b : Nat) : Nat × Option Nat × Bool :=
  if !side then (if j % 192 = 0 then 8 else 0, block, false)
  else
    let z := b / 8 % 2 == 1
    match block with
    | none => (b % 16, if z then some j else none, false)
    | some p => if (j - p) % 192 = 0 then (b % 8 + 8, block, false) else (b % 8, block, z)

/-- The samples in the bytes of one fetched frame. -/
def State.outDecode (s : State) (a : Nat) (bs side : List Byte) : List AudSamp :=
  let n := s.audCont a
  ((s.audLanes a).zipIdx.filterMap fun (l, i) => match l with
    | some _ => some ⟨contVal n ((bs.drop (i * n)).take n), (side.getD i 0).toNat⟩
    | none => none)

/-- R344: fetch output frame j, from its bytes, or repeat the last samples. -/
def State.outFetch (s : State) (a : Nat) (fault : Bool) (bs side : List Byte) : State :=
  let x := s.audStr a
  let j := x.j
  let plane := s.on (F.AUD_STRa_CFG_SIDE a)
  let under := fault || decide (0 ≤ s.audAhead a j)
  let raw := if under then s.audLast a else s.outDecode a bs side
  let b := (raw.headD AudSamp.zero).side
  let (_, block, zerr) := outSide (plane && !under) x.block j b
  let fr := if under then repeatAt j x.block raw else raw.map fun v => { v with side := (outSide plane x.block j v.side).1 }
  let s := if under then ((s.inc (F.AUD_STRa_CNT_A_UNDERRUN a)).tick) else s
  let s := if zerr then s.inc (F.AUD_STRa_CNT_B_ZERR a) else s
  let s := if fault then s.audPageReq a (s.audAddr a j) else s.xlate (s.audPasid a) (s.audAddr a j)
  let s := s.setAudStr a { s.audStr a with out := x.out ++ [fr], j := j + 1, last := some fr, block := block }
  s.wr (F.AUD_STRa_IDX_INDEX a) (j + 1)

/-- R339: fetch `n` frames, in order, from the bytes that came in. -/
def State.outFetches (s : State) (a : Nat) (fault : Bool) : Nat → List Byte → List Byte → State
  | 0, _, _ => s
  | n + 1, bs, side =>
    (s.outFetch a fault (bs.take (s.audFrameBytes a)) (side.take (s.audLanes a).length)).outFetches a fault n
      (bs.drop (s.audFrameBytes a)) (side.drop (s.audLanes a).length)

/-- R339, R345: present the frame of sample m on the port's lines. -/
def State.outPresent (s : State) (a m : Nat) : State :=
  let x := s.audStr a
  match x.out with
  | f :: fs =>
    let s := s.setAudStr a { x with out := fs }
    (match s.storeOf a with
     | some k => s.storePut k m (s.audSlots a) f
     | none => s.send (.audio a m (f.map (s.slotSamp (s.audPort a))) (s.fsEdge (s.audPort a) m)))
  | [] => s

/-- R338, R339: line time reaches the position of the stream's next sample m: at m0 the stream runs; an input takes
sample m and writes the frame of sample m - LAT; an output fetches the frame of sample m + LAT, all up to it at m0, and
presents that of sample m. -/
def State.audSample (s : State) (a : Nat) (x : AudIn) : State :=
  let m := s.audNext a
  let tl := s.audTl a
  if s.rd (F.AUD_STRa_STATUS_STATE a) = 0 ∨ !s.tlRunning tl ∨ s.units tl < s.sampPos tl (s.audRate a) m then s
  else
    let n := (s.audStr a).n
    let s := s.wr (F.AUD_STRa_STATUS_STATE a) 2
    let s :=
      if s.audOut a then
        (s.outFetches a x.fault (if n = 0 then s.audLat a + 1 else 1) x.data x.side).outPresent a m
      else
        let s := s.inSource a m x
        if s.audLat a ≤ n then s.inDue a x.fault else s
    let s := if s.rd (F.AUD_STRa_CFG_SRC a) = 0 then s.portClock (s.audPort a) else s
    s.setAudStr a { s.audStr a with n := n + 1 }

/-- AUDIO_SAMPLE (R339). -/
def execAudioSample (a : Fin 256) (x : AudIn) (s : State) : Out := .next (s.audSample a x)

/-- AUDIO_PORT_FRAME (R345): a frame of the port's own clock domain enters its input store, or leaves its output store;
the port's clock is present and its rate is measured. -/
def State.audPortFrame (s : State) (p : Nat) (out : Bool) (fr : List AudSamp) (ppm : Int) : State :=
  if !s.on (F.AUD_Pp_CFG_EN p) ∨ !s.ownDomain p out then s
  else
    let s := (s.wr (F.AUD_Pp_STATUS_CLK_OK p) 1).wrS (F.AUD_Pp_PPM_OFFSET p) ppm
    if out then
      let x := s.audStore (16 + p)
      if x.fill = 0 then s
      else
        let (s, f) := s.storePop (16 + p) 64
        (s.send (.audioPort p ((x.frames.map (·.1)).headD 0) (f.map (s.slotSamp p)))).checkFill (16 + p)
    else
      let s := s.add (F.AUD_Pp_ERR_PERR p) (fr.filter fun v => v.side / 16 % 2 == 1).length
      let x := s.audStore p
      if x.fill ≥ 32 then s
      else (s.setAudStore p { x with fill := x.fill + 1, frames := x.frames ++ [(0, fr.map (s.slotSamp p))] }).checkFill p

/-- AUDIO_PORT_FRAME (R345). -/
def execAudioPortFrame (p : Fin 16) (out : Bool) (frame : List AudSamp) (ppm : Int) (s : State) : Out :=
  .next (s.audPortFrame p out frame ppm)

/-- R344: a write of AUD_STRa_HOST: positions held back may become writable. -/
def State.audHostWrite (s : State) (a : Nat) (v : Word) : State :=
  let s := s.setReg (R.AUD_STRa_HOST a) v
  if s.audOut a then s else s.audRelease a (s.audStr a).held

/-- AUD_HOST_WRITE (R344). -/
def execAudHostWrite (a : Fin 256) (v : Word) (s : State) : Out := .next (s.audHostWrite a v)

/-- R338: a read of AUD_STRa_M0_LO latches the high word of m0. -/
def State.m0Read (s : State) (a : Nat) : State :=
  let s := s.setReg (R.AUD_STRa_M0_HI a) (BitVec.ofNat 32 ((s.audStr a).m0 / 2 ^ 32))
  { s with rdata := BitVec.ofNat 32 (s.audStr a).m0 }

/-- AUD_M0_READ (R338). -/
def execAudM0Read (a : Fin 256) (s : State) : Out := .next (s.m0Read a)

/-- AUD_CLOCK_LOSS (R344): the port's own clock goes away. -/
def execAudClockLoss (p : Fin 16) (s : State) : Out :=
  .next (s.when ((s.ownDomain p false || s.ownDomain p true) && s.on (F.AUD_Pp_STATUS_CLK_OK p)) fun s =>
    (s.wr (F.AUD_Pp_STATUS_CLK_OK p) 0).inc (F.AUD_Pp_ERR_LOS p))

/-! ## Samples from ingest -/

/-- R340: a frame of an ST 2110-30 or -31 flow, placed by its RTP timestamp; one after its input deadline is late. -/
def State.audRtp (s : State) (a ts : Nat) (fr : List AudSamp) : State :=
  let m : Int := (s.audNext a : Int) + signed 32 ((ts % 2 ^ 32 + 2 ^ 32 - s.audNext a % 2 ^ 32) % 2 ^ 32)
  if !s.audOn a ∨ s.rd (F.AUD_STRa_CFG_SRC a) ≠ 1 ∨ m < (s.audStr a).m0 then s
  else if m.toNat + s.audLat a < s.audNext a then s.inc (F.AUD_STRa_CNT_B_LATE a)
  else s.inPut a m.toNat fr

/-- R341: a frame of an SDI audio group for stream a. -/
def State.audSdi (s : State) (a : Nat) (fr : List AudSamp) : State :=
  if !s.audOn a ∨ s.rd (F.AUD_STRa_CFG_SRC a) ≠ 2 then s
  else
    let x := s.audStore (32 + a)
    match s.storeOf a with
    | some k => if x.fill ≥ 32 then s
      else (s.setAudStore k { x with fill := x.fill + 1, frames := x.frames ++ [(0, fr)] }).checkFill k
    | none => s.setAudStore (32 + a) { x with frames := x.frames ++ [(0, fr)] }

/-! ## Enabling -/

/-- R338: the first sample at or after the stamp of a commit on timeline l, which line time has reached: on another timeline, the
first at or after that instant. -/
def State.firstSample (s : State) (a l stamp : Nat) : Nat :=
  let n := s.audTl a
  let f := (s.tl n).frame
  let frame := f - (f + 2 ^ 36 - stampFrame stamp) % 2 ^ 36
  let u := if n = l then frame * (s.tpf n * 4096) + stampTick stamp * 4096 + stampFrac stamp else s.units n
  let num := u * s.sampNum n (s.audRate a)
  let den := s.sampDen n * (s.tpf n * 4096)
  (num + den - 1) / den

/-- R346: MEMBERS of every set. -/
def State.showMembers (s : State) : State :=
  s.forRange 16 fun i s => s.wr (F.AUD_SETs_STATUS_MEMBERS i) (s.setMembers i).length

/-- A commit on timeline l enables stream a at a stamp, or disables it. -/
def State.audEnable (s : State) (a : Nat) (en : Bool) (l stamp : Nat) : State :=
  let s := s.setAudStore (32 + a) AudStore.init
  if en then
    let m0 := s.firstSample a l stamp
    let s := s.setAudStr a { AudSt.init with m0 := m0 }
    ((s.wr (F.AUD_STRa_STATUS_STATE a) 1).setReg (R.AUD_STRa_M0_LO a) (BitVec.ofNat 32 m0)).wr (F.AUD_STRa_IDX_INDEX a) 0
  else (s.setAudStr a AudSt.init).wr (F.AUD_STRa_STATUS_STATE a) 0

/-- A commit enables or disables port p: its stores start again at a fill of 16. -/
def State.audPortEnable (s : State) (p : Nat) : State :=
  ((s.setAudStore p AudStore.init).setAudStore (16 + p) AudStore.init).wr (F.AUD_Pp_STATUS_CLK_OK p) 0

/-! ## The check -/

/-- The audio rules of R141, for port p: o is the state before, s the state with the set applied. -/
def audPortRules (o s : State) (p : Nat) : List Rule :=
  let st := [R.AUD_Pp_STATUS p, R.AUD_STATUS]
  let us := [R.AUD_Pp_CFG p, R.AUD_Pp_DIV p, R.AUD_Pp_PHASE p]
  let fmt := s.rd (F.AUD_Pp_CFG_FMT p)
  let en := s.on (F.AUD_Pp_CFG_EN p)
  let was := o.on (F.AUD_Pp_CFG_EN p)
  let own := !s.on (F.AUD_Pp_CFG_MASTER p) || s.on (F.AUD_Pp_CFG_MCLK_EXT p)
  let div := s.rd (F.AUD_Pp_DIV_DIV p)
  rulesAt (R.AUD_Pp_CFG p) st us
    [(0x7001, s.rd (F.AUD_Pp_CFG_WIDTH p) == 3 || decide (s.rd (F.AUD_Pp_CFG_SLOTS p) < 2 ∨ s.rd (F.AUD_Pp_CFG_SLOTS p) > 16) ||
        (fmt == 3 && s.rd (F.AUD_Pp_CFG_DIR p) != 0)),
     (0x7003, fmt == 3 && own),
     (0x7002, s.rd (F.AUD_Pp_CFG_RATE p) == 3 || (fmt == 3 && s.rd (F.AUD_Pp_CFG_RATE p) != 0)),
     (0x1004, en && !was && !s.tlRunning (s.rd (F.AUD_Pp_CFG_TL p))),
     (0x7009, was && noEn (o.reg (R.AUD_Pp_CFG p)) != noEn (s.reg (R.AUD_Pp_CFG p)))] ++
  rulesAt (R.AUD_Pp_DIV p) st us
    [(0x7003, decide (div < 0x20000 ∨ div > 0x10000000)), (0x7009, was && o.differ s [R.AUD_Pp_DIV p])] ++
  rulesAt (R.AUD_Pp_PHASE p) st us [(0x7009, was && o.differ s [R.AUD_Pp_PHASE p])]

/-- Whether a flow of kind 2 or 3 names stream a; `flows` lists the targets of such entries. -/
def audStrRules (flows : List Nat) (o s : State) (a : Nat) : List Rule :=
  let st := [R.AUD_STRa_STATUS a, R.AUD_STATUS]
  let us := (List.range 9).map fun i => R.AUD_STRa_CFG a + 4 * i
  let en := s.audOn a
  let was := o.audOn a
  let p := s.audPort a
  let src := s.rd (F.AUD_STRa_CFG_SRC a)
  let rate := s.rd (F.AUD_STRa_CFG_RATE a)
  let lat := s.audLat a
  let mask := s.audMask a
  let slots := maskBits mask
  let peers := (s.audEnabled.filter (· != a)).filter fun b => s.rd (F.AUD_STRa_CFG_SRC b) == 0 && s.audPort b == p
  let others := peers.flatMap s.audSlots
  let ms := match s.setOf a with | some n => s.setMembers n | none => []
  let lg := s.rd (F.AUD_STRa_SIZE_FRAMES_LOG2 a)
  let addrBad := fun (lo hi : Nat) => decide (lo % 64 ≠ 0) || decide (lo + hi = 0)
  let maskMoved := maskBits ((o.audMask a) ^^^ mask)
  let lock := fun r => (0x7009, was && o.differ s [r])
  rulesAt (R.AUD_STRa_CFG a) st (us ++ [R.AUD_Pp_CFG p])
    [(0x7002, rate == 3 || (en && ((src == 0 && (s.rd (F.AUD_Pp_CFG_TL p) != s.audTl a || s.rd (F.AUD_Pp_CFG_RATE p) != rate)) ||
        (src == 1 && rate == 2) || (src == 2 && rate != 0)))),
     (0x1004, en && !was && !s.tlRunning (s.audTl a)),
     (0x7008, decide (lat < 16 ∨ lat > 1024)),
     (0x7006, src == 3 || (en && ((s.audOut a && src != 0) || (src == 0 && !s.on (F.AUD_Pp_CFG_EN p)) ||
        (src == 1 && !flows.contains a) || (src == 2 && (s.sdiOf a).isNone)))),
     (0x7007, en && (decide (ms.length > 16) || ms.any (fun b => s.audTl b != s.audTl a || s.rd (F.AUD_STRa_CFG_RATE b) != rate) ||
        (src == 0 && peers.any fun b => s.setOf b != s.setOf a))),
     (0x7009, was && noEn (o.reg (R.AUD_STRa_CFG a)) != noEn (s.reg (R.AUD_STRa_CFG a)))] ++
  rulesAt (R.AUD_STRa_MASK_LO a) st (us ++ [R.AUD_Pp_CFG p])
    [(0x7004, en && (slots == [] ||
        (src == 0 && slots.any fun k => decide (k % 16 ≥ s.portSlots p) || (decide (s.rd (F.AUD_Pp_CFG_DIR p) / 2 ^ (k / 16) % 2 = 1) != s.audOut a) || others.contains k) ||
        (src == 2 && slots.any fun k => decide (k ≥ 4)))),
     (0x7009, was && maskMoved.any others.contains)] ++
  rulesAt (R.AUD_STRa_SIZE a) st us [(0x7005, decide (lg < 8 ∨ lg > 20)), lock (R.AUD_STRa_SIZE a)] ++
  rulesAt (R.AUD_STRa_BASE_LO a) st us
    [(0x7005, en && addrBad (s.rd (F.AUD_STRa_BASE_LO_ADDR a)) (s.rd (F.AUD_STRa_BASE_HI_ADDR a))), lock (R.AUD_STRa_BASE_LO a)] ++
  rulesAt (R.AUD_STRa_BASE_HI a) st us [lock (R.AUD_STRa_BASE_HI a)] ++
  rulesAt (R.AUD_STRa_SIDE_LO a) st us
    [(0x7005, en && s.on (F.AUD_STRa_CFG_SIDE a) && addrBad (s.rd (F.AUD_STRa_SIDE_LO_ADDR a)) (s.rd (F.AUD_STRa_SIDE_HI_ADDR a))),
     lock (R.AUD_STRa_SIDE_LO a)] ++
  rulesAt (R.AUD_STRa_SIDE_HI a) st us [lock (R.AUD_STRa_SIDE_HI a)] ++
  rulesAt (R.AUD_STRa_PASID a) st us
    [(0x700A, s.on (F.AUD_STRa_PASID_PEN a) && !s.on F.XLT_STATUS_PASID_EN), lock (R.AUD_STRa_PASID a)]

end Sys2Proof.Machine
end

