-- ==== Sys2Proof/Machine/Cmac.lean ====
section
/-!
DEFINITION. Sys2Proof/Machine/Cmac.lean: AES-CMAC, which R360 and R431 name and do not restate: AES-128 of FIPS 197 and CMAC of
NIST SP 800-38B (PRESUMED, notes/assumptions/91.md). A byte is a number below 256; blocks and keys are 16 bytes, first byte first.
-/
namespace Sys2Proof.Machine

/-- FIPS 197, SubBytes: 32 bytes of the table to a number, the lowest first. -/
def sboxRows : List Nat :=
  [0xC072A49CAFA2D4ADF04759FA7DC982CA76ABD7FE2B670130C56F6BF27B777C63,
   0x75B227EBE28012079A059618C323C7041531D871F1E5A534CCF73F362693FDB7,
   0xCF584C4A39BECB6A5BB1FC20ED00D153842FE329B3D63B52A05A6E1B1A2C8309,
   0xD2F3FF1021DAB6BCF5389D928F40A351A89F3C507F02F94585334D43FBAAEFD0,
   0xDB0B5EDE14B8EE4688902A22DC4F816073195D643D7EA7C41744975FEC130CCD,
   0x08AE7A65EAF4566CA94ED58D6D37C8E779E4959162ACD3C25C2406490A3A32E0,
   0x9E1DC186B95735610EF6034866B53E708A8BBD4B1F74DDE8C6B4A61C2E2578BA,
   0x16BB54B00F2D99416842E6BF0D89A18CDF2855CEE9871E9B948ED9691198F8E1]
def sbox (b : Nat) : Nat := sboxRows.getD (b / 32) 0 / 2 ^ (8 * (b % 32)) % 256

def xorBytes (a b : List Nat) : List Nat := List.zipWith (· ^^^ ·) a b

/-- FIPS 197, ShiftRows: byte r + 4 c comes from column c + r. -/
def shiftRows (s : List Nat) : List Nat := (List.range 16).map fun i => s.getD (i % 4 + 4 * ((i / 4 + i % 4) % 4)) 0

/-- Multiplication by x in GF(2^8). -/
def xtime (b : Nat) : Nat := if b < 128 then 2 * b else (2 * b - 256) ^^^ 0x1B

/-- FIPS 197, MixColumns. -/
def mixColumns (s : List Nat) : List Nat :=
  (List.range 16).map fun i =>
    let at_ := fun k => s.getD (i / 4 * 4 + (i + k) % 4) 0
    xtime (at_ 0) ^^^ xtime (at_ 1) ^^^ at_ 1 ^^^ at_ 2 ^^^ at_ 3

/-- FIPS 197, the next round key. -/
def nextRoundKey (k : List Nat) (rcon : Nat) : List Nat :=
  let t := [sbox (k.getD 13 0) ^^^ rcon, sbox (k.getD 14 0), sbox (k.getD 15 0), sbox (k.getD 12 0)]
  let a := xorBytes (k.take 4) t
  let b := xorBytes ((k.drop 4).take 4) a
  let c := xorBytes ((k.drop 8).take 4) b
  a ++ b ++ c ++ xorBytes ((k.drop 12).take 4) c

/-- The rounds of AES-128, by their round constants; the last one, of constant 0x36, mixes no columns. -/
def aesRounds : List Nat → List Nat → List Nat → List Nat
  | [], _, s => s
  | rcon :: rs, k, s =>
    let k := nextRoundKey k rcon
    let s := shiftRows (s.map sbox)
    aesRounds rs k (xorBytes (if rcon = 0x36 then s else mixColumns s) k)
def aes128 (k m : List Nat) : List Nat := aesRounds [1, 2, 4, 8, 16, 32, 64, 128, 0x1B, 0x36] k (xorBytes m k)

/-- SP 800-38B: a subkey from the block before it. -/
def cmacSubkey (l : List Nat) : List Nat :=
  let n := l.foldl (fun n b => n * 256 + b) 0
  let d := if n < 2 ^ 127 then 2 * n else (2 * n - 2 ^ 128) ^^^ 0x87
  (List.range 16).map fun i => d / 2 ^ (8 * (15 - i)) % 256

/-- SP 800-38B: the chain over n blocks. -/
def cmacChain (k : List Nat) : Nat → List Nat → List Nat → List Nat
  | 0, x, _ => x
  | n + 1, x, m => cmacChain k n (aes128 k (xorBytes x (m.take 16))) (m.drop 16)

/-- AES-CMAC of a message. -/
def aesCmac (key msg : List Byte) : List Nat :=
  let k := key.map (·.toNat)
  let m := msg.map (·.toNat)
  let n := max 1 ((m.length + 15) / 16)
  let last := m.drop (16 * (n - 1))
  let k1 := cmacSubkey (aes128 k (List.replicate 16 0))
  let end_ := if last.length = 16 then xorBytes last k1
    else xorBytes (last ++ 0x80 :: List.replicate (15 - last.length) 0) (cmacSubkey k1)
  cmacChain k n (List.replicate 16 0) (m.take (16 * (n - 1)) ++ end_)

/-- The first n bytes of an AES-CMAC as a little-endian number (the fields that hold one are little-endian). -/
def macValue (key msg : List Byte) (n : Nat) : Nat := ((aesCmac key msg).take n).foldr (fun b v => b + 256 * v) 0

end Sys2Proof.Machine
end

