-- ==== Sys2Proof/Machine/Frame.lean ====
section
/-!
DEFINITION. Sys2Proof/Machine/Frame.lean: the bytes of an Ethernet frame that carries a UDP datagram (R309), and what the MAC writes
into it as it departs (R312). The header forms are those of IEEE 802.3, 802.1Q, IPv4 and UDP (notes/assumptions/62.md).
-/
namespace Sys2Proof.Machine

/-- A number as `n` bytes, most significant first. -/
def beBytes (n v : Nat) : List Byte := (natBytes n v).reverse

/-- Fields of (width, value), first highest, in bytes; the last byte is filled with zeros. -/
def packBits (fs : List (Nat × Nat)) : List Byte :=
  let (n, v) := fs.foldl (fun (n, v) (w, x) => (n + w, v * 2 ^ w + x % 2 ^ w)) (0, 0)
  let m := (n + 7) / 8
  beBytes m (v * 2 ^ (m * 8 - n))

/-- The Internet checksum of bytes: the complement of the ones' complement sum of their 16-bit words. -/
def inetSum : List Byte → Nat
  | a :: b :: t => a.toNat * 256 + b.toNat + inetSum t
  | [a] => a.toNat * 256
  | [] => 0
def inetCheck (bs : List Byte) : Nat :=
  let fold := fun (n : Nat) => n / 65536 + n % 65536
  65535 - fold (fold (fold (inetSum bs)))

/-- What the headers of a flow's frames hold. -/
structure FrameHead where
  da : Nat
  sa : Nat
  tag : Option Nat
  dscp : Nat
  src : Nat
  dst : Nat
  sport : Nat
  dport : Nat

/-- A UDP datagram: header with its checksum, which covers the pseudo-header, and payload. -/
def udpBytes (src dst sport dport : Nat) (payload : List Byte) : List Byte :=
  let n := 8 + payload.length
  let bare := packBits [(16, sport), (16, dport), (16, n)]
  let c := inetCheck (packBits [(32, src), (32, dst), (16, 17), (16, n)] ++ bare ++ [0, 0] ++ payload)
  bare ++ beBytes 2 (if c = 0 then 65535 else c) ++ payload

/-- R309: the frame of a datagram, from the destination address up to the FCS. Identification, flags and time to live are free. -/
def frameData (h : FrameHead) (payload : List Byte) : List Byte :=
  let udp := udpBytes h.src h.dst h.sport h.dport payload
  let ip := fun c => packBits [(4, 4), (4, 5), (6, h.dscp), (2, 0), (16, 20 + udp.length), (32, Config.ipFields 0 % 2 ^ 32), (8, Config.ipFields 1 % 256), (8, 17), (16, c), (32, h.src), (32, h.dst)]
  beBytes 6 h.da ++ beBytes 6 h.sa ++ (match h.tag with | some t => beBytes 2 0x8100 ++ beBytes 2 t | none => []) ++ beBytes 2 0x0800 ++
    ip (inetCheck (ip 0)) ++ udp

/-- R312: the PCR field of a 27 MHz count. -/
def pcrField (p : Nat) : List Byte := packBits [(33, p / 300), (6, 0x3F), (9, p % 300)]

/-- R312: where the TS packets of a payload, from byte `o` on, carry a PCR: the offsets of their PCR fields. -/
def pcrsAt (o : Nat) (payload : List Byte) : List Nat :=
  (List.range ((payload.length - o) / 188)).filterMap fun k =>
    let b := fun n => (payload.getD (o + 188 * k + n) 0).toNat
    if b 3 / 32 % 2 = 1 ∧ 7 ≤ b 4 ∧ b 5 / 16 % 2 = 1 then some (o + 188 * k + 6) else none

/-- Bytes put over others at an offset. -/
def putBytes (bs new : List Byte) (o : Nat) : List Byte := bs.take o ++ new ++ bs.drop (o + new.length)

/-- R312: what the MAC sends: the PCR of the instant of departure in every PCR field of the payload, and the UDP checksum again. -/
def wireBytes (frame : List Byte) (pcrs : List Nat) (pcr : Nat) : List Byte :=
  if pcrs = [] then frame
  else
    let n := (if frame.getD 12 0 = 0x81 then 18 else 14) + 20
    let num := fun (k m : Nat) => ((frame.drop k).take m).foldl (fun v b => v * 256 + b.toNat) 0
    let payload := pcrs.foldl (fun p o => putBytes p (pcrField pcr) o) (frame.drop (n + 8))
    frame.take n ++ udpBytes (num (n - 8) 4) (num (n - 4) 4) (num n 2) (num (n + 2) 2) payload

end Sys2Proof.Machine
end

