-- ==== Sys2Proof/Machine/Port.lean ====
section
/-!
DEFINITION. Sys2Proof/Machine/Port.lean: Ethernet ports, class queues, shapers and time gates (R317 to R323), and their
commands.
-/
namespace Sys2Proof.Machine

/-! ## Gates -/

def State.gate (s : State) (p : Nat) : GateSt := mapGet (fun _ => GateSt.init) s.whl.gates p
def State.setGate (s : State) (p : Nat) (g : GateSt) : State :=
  { s with whl := { s.whl with gates := mapSet (fun _ => GateSt.init) s.whl.gates p g } }

/-- R319: entry e of the operational list: its gate states, its interval, the time of the cycle before it, and its part
of the cycle: the last entry holds until the cycle ends, and the list is cut off there. -/
def State.operGates (s : State) (p e : Nat) : Nat := s.rd (F.GATE_p_OPERe_GATES p e)
def State.operInterval (s : State) (p e : Nat) : Nat := s.rd (F.GATE_p_OPERe_INTERVAL p e)
def State.operCycle (s : State) (p : Nat) : Nat := s.rd (F.GATE_p_OPER_CYCLE_NS p)
def State.operLen (s : State) (p : Nat) : Nat := s.rd (F.GATE_p_OPER_LEN_LEN p)
def State.operBefore (s : State) (p e : Nat) : Nat := ((List.range e).map (s.operInterval p)).sum
def State.operLast (s : State) (p e : Nat) : Bool :=
  decide (e + 1 ≥ s.operLen p) || decide (s.operBefore p (e + 1) ≥ s.operCycle p)
def State.operSpan (s : State) (p e : Nat) : Nat :=
  if s.operLast p e then s.operCycle p - s.operBefore p e else s.operInterval p e

/-- The entry after entry e. -/
def State.operNext (s : State) (p e : Nat) : Nat := if s.operLast p e then 0 else e + 1

/-- Whether a gate state word opens class c. -/
def opens (gates c : Nat) : Bool := decide (gates / 2 ^ c % 2 = 1)

/-- Time for which class c stays open from the start of entry e; none when it never closes within `fuel` entries. -/
def State.openFrom (s : State) (p c : Nat) : Nat → Nat → Nat → Option Nat
  | 0, _, _ => none
  | n + 1, e, t => if opens (s.operGates p e) c then s.openFrom p c n (s.operNext p e) (t + s.operSpan p e) else some t

/-- R320: the time at which class c of port p next closes, if it does, in the list that runs or is due to start; a pending change time
counts as a close. -/
def State.closeTime (s : State) (p c : Nat) : Option Nat :=
  let g := s.gate p
  let a := match g.idx with
    | some e => (s.openFrom p c 257 e 0).map (g.began + ·)
    | none => if g.startAt = 0 then none else (s.openFrom p c 257 0 0).map (g.startAt + ·)
  if s.on (F.GATE_p_STATUS_PENDING p) then (match a with | some a => some (min a g.pendBase) | none => some g.pendBase) else a

/-- R320: whether a transmission of `t` ns is longer than every open interval of class c in the operational list. -/
def State.tooLong (s : State) (p c t : Nat) : Bool :=
  ((s.gate p).idx.isSome || (s.gate p).startAt != 0) && (List.range (s.operLen p)).all fun e =>
    match s.openFrom p c 257 e 0 with | some d => decide (d < t) | none => false

/-! ## Class queues -/

def State.classQ (s : State) (q : Nat) : ClassQ := mapGet (fun _ => ClassQ.init) s.whl.queues q
def queued (x : ClassQ) : Nat := (x.frames.map (·.bytes)).sum

/-- Put a class queue, showing its depth (WHL_Qq_DEPTH). -/
def State.setClassQ (s : State) (q : Nat) (x : ClassQ) : State :=
  ({ s with whl := { s.whl with queues := mapSet (fun _ => ClassQ.init) s.whl.queues q x } } : State).wr (F.WHL_Qq_DEPTH_BYTES q) (queued x)

/-- R323: time the head frame of a queue has waited, in ns; WHL_Qq_HEAD saturates. -/
def State.headWait (s : State) (q : Nat) : Nat :=
  match (s.classQ q).frames with | f :: _ => s.ptpT - f.at_ | [] => 0

def State.sending (s : State) (p : Nat) : Option EthFrame := mapGet (fun _ => none) s.whl.ports p
def State.setSending (s : State) (p : Nat) (f : Option EthFrame) : State :=
  { s with whl := { s.whl with ports := mapSet (fun _ => none) s.whl.ports p f } }

/-- Gbit/s of port p. -/
def State.portGbps (s : State) (p : Nat) : Nat :=
  match s.rd (F.LANE_ETHm_CFG_SPEED p) with | 0 => 10 | 1 => 25 | 2 => 50 | 3 => 100 | 4 => 200 | _ => 400

/-- R320: ns a frame takes on the port, preamble and interframe gap (20 bytes) included. -/
def State.txTime (s : State) (p bytes : Nat) : Nat := ((bytes + 20) * 8 + s.portGbps p - 1) / s.portGbps p

/-- The shaper in effect on queue q: rate in bits a microsecond, burst in bits, enable. -/
def ClassQ.rate (x : ClassQ) : Nat := getBits x.shape 0 20
def ClassQ.burst (x : ClassQ) : Nat := getBits x.shape 20 10 * 8192
def ClassQ.shaped (x : ClassQ) : Bool := getBits x.shape 30 1 == 1

/-- Add a wheel entry (R315): an absolute slot and what it serves. -/
def State.addEntry (s : State) (slot what : Nat) : State :=
  let s := { s with whl := { s.whl with entries := s.whl.entries ++ [(slot, what)] } }
  s.wr F.WHL_STATUS_ENTRIES s.whl.entries.length

/-- R315: class queue q, if its shaper has run out of tokens, takes its one entry, at the refill that makes them positive. -/
def State.queueEntry (s : State) (q : Nat) : State :=
  let x := s.classQ q
  let s := { s with whl := { s.whl with entries := s.whl.entries.filter fun e => e.2 != 2048 + q } }
  if x.shaped && decide (x.tokens ≤ 0) && x.rate != 0 then
    s.addEntry ((s.ptpT / 1000 + ((-x.tokens).toNat / x.rate + 1)) * 1000 / 64) (2048 + q)
  else s.wr F.WHL_STATUS_ENTRIES s.whl.entries.length

/-- R317, R318, R320: class c of port p looks at its head frame: it starts it (true), drops one that fits no open
interval, or waits. -/
def State.pickClass (s : State) (p c : Nat) : Nat → State × Bool
  | 0 => (s, false)
  | n + 1 =>
    let q := p * 8 + c
    let x := s.classQ q
    match x.frames with
    | [] => (s, false)
    | f :: fs =>
      let t := s.txTime p f.bytes
      if s.tooLong p c t then ((s.setClassQ q { x with frames := fs }).inc (F.GATE_p_CNT_TOO_LONG p)).pickClass p c n
      else if !opens (s.rd (F.GATE_p_STATUS_GATES p)) c || (x.shaped && decide (x.tokens ≤ 0)) then (s, false)
      else if (match s.closeTime p c with | some e => decide (s.ptpT + t > e) | none => false) then
        (if f.waited then s else (s.setClassQ q { x with frames := { f with waited := true } :: fs }).inc (F.GATE_p_CNT_WAITS p), false)
      else
        let y := { x with frames := fs, tokens := if x.shaped then x.tokens - f.bytes * 8 else x.tokens }
        let s := ((s.setClassQ q y).setSending p (some f)).stampTx p |>.send (.frame p c f.flow f.bytes (wireBytes f.data f.pcrs (s.ptpT * 27 / 1000)))
        (if y.shaped then s.queueEntry q else s, true)

/-- R317, R394: an idle port that is up picks its next frame: the highest eligible class first. -/
def State.pickFrom (s : State) (p : Nat) : Nat → State
  | 0 => s
  | c + 1 => match s.pickClass p c 4096 with | (s, true) => s | (s, false) => s.pickFrom p c

def State.portPick (s : State) (p : Nat) : State :=
  if (s.sending p).isSome ∨ !s.on (F.LANE_ETHm_STATUS_UP p) then s else s.pickFrom p 8

/-- R317: a frame for class c of port p; the eight queues share 512 KiB. -/
def State.enqueue (s : State) (p c : Nat) (f : EthFrame) : State :=
  let used := ((List.range 8).map fun k => queued (s.classQ (p * 8 + k))).sum
  if used + f.bytes > 524288 then s.inc (F.WHL_Qq_DROPS_DROPS (p * 8 + c))
  else (s.setClassQ (p * 8 + c) { s.classQ (p * 8 + c) with frames := (s.classQ (p * 8 + c)).frames ++ [f] }).portPick p

/-! ## Gate control -/

/-- Put gate states into effect, and let the port choose. -/
def State.setGates (s : State) (p v : Nat) : State := (s.wr (F.GATE_p_STATUS_GATES p) v).portPick p

/-- R322: discard a pending change. -/
def State.dropPending (s : State) (p : Nat) : State :=
  (s.setGate p { s.gate p with pend := [] }).wr (F.GATE_p_STATUS_PENDING p) 0

/-- R322: the list stops running and every gate opens. -/
def State.openGates (s : State) (p : Nat) : State := (s.setGate p { s.gate p with idx := none, startAt := 0 }).setGates p 0xFF

/-- R321, R322: the first base + n x cycle that lies at least 1 us after now. -/
def State.boundary (s : State) (base cycle : Nat) : Nat :=
  let m := s.ptpT + 1000
  if base ≥ m then base else base + (m - base + cycle - 1) / cycle * cycle

/-- R322: the kept operational list runs from its next cycle boundary. -/
def State.restartGates (s : State) (p : Nat) : State :=
  if s.on (F.GATE_p_STATUS_OPER p) then s.setGate p { s.gate p with idx := none, startAt := s.boundary (s.gate p).base (s.operCycle p) }
  else s

/-- R322: PTP_CLK_STATUS.SET has cleared, or has returned to 1. -/
def State.gatesUnset (s : State) : State := s.forRange 96 fun p s => (s.dropPending p).openGates p
def State.gatesSet (s : State) : State := s.forRange 96 fun p s => s.when (s.on (F.GATE_p_CTL_EN p)) fun s => s.restartGates p

/-- R321, R332, R333: the code that refuses a CHANGE; 0 passes. `en` is the EN bit written. -/
def State.changeCheck (s : State) (p : Nat) (en : Bool) : Nat :=
  let n := s.rd (F.GATE_p_ADMIN_LEN_LEN p)
  let c := s.rd (F.GATE_p_ADMIN_CYCLE_NS p)
  if s.on (F.GATE_p_STATUS_PENDING p) then 0x6601
  else if n = 0 ∨ n > 256 ∨ c < 1000 ∨ c > 10 ^ 9 ∨ (List.range n).any (fun e => s.rd (F.GATE_p_ADMINe_INTERVAL p e) == 0) then 0x6602
  else if s.rd (F.GATE_p_ADMIN_NS_NS p) ≥ 10 ^ 9 ∨ !s.on F.PTP_CLK_STATUS_SET then 0x6603
  else if !en then 0x6604
  else 0

/-- R321: copy the admin list into the pending list and fix the change time. -/
def State.takeChange (s : State) (p : Nat) : State :=
  let c := s.rd (F.GATE_p_ADMIN_CYCLE_NS p)
  let base := (s.rd (F.GATE_p_ADMIN_SEC_LO_SEC p) + s.rd (F.GATE_p_ADMIN_SEC_HI_SEC p) * 2 ^ 32) * 10 ^ 9 + s.rd (F.GATE_p_ADMIN_NS_NS p)
  let t := s.boundary base c
  let list := (List.range (s.rd (F.GATE_p_ADMIN_LEN_LEN p))).map fun e => s.reg (R.GATE_p_ADMINe p e)
  let s := s.setGate p { s.gate p with pend := list, pendCycle := c, pendBase := t }
  (((s.wr (F.GATE_p_STATUS_PENDING p) 1).wr (F.GATE_p_CHG_NS_NS p) (t % 10 ^ 9)).wr (F.GATE_p_CHG_SEC_LO_SEC p) (t / 10 ^ 9)).wr
    (F.GATE_p_CHG_SEC_HI_SEC p) (t / 10 ^ 9 / 2 ^ 32)

/-- R321, R322, R332: a write of GATE_p_CTL. -/
def State.gateCtlWrite (s : State) (p : Nat) (v : Word) : State :=
  let en := getBits v 0 1 == 1
  if getBits v 1 1 = 1 ∧ s.changeCheck p en ≠ 0 then s.refuse pGate [R.GATE_p_STATUS p] (s.changeCheck p en) (R.GATE_p_CTL p)
  else
    let was := s.on (F.GATE_p_CTL_EN p)
    let s := s.setReg (R.GATE_p_CTL p) (v &&& 1)
    let s := if !en then (s.dropPending p).openGates p
      else if was then s else s.when (s.on F.PTP_CLK_STATUS_SET) fun s => s.restartGates p
    if getBits v 1 1 = 1 then s.takeChange p else s

/-- R321, R332: the word offsets of a port's admin registers. -/
def gateAdmin (k : Nat) : Bool := decide ((1 ≤ k ∧ k ≤ 5) ∨ (512 ≤ k ∧ k < 768))

/-- R321: the pending list becomes operational at the change time. -/
def State.applyChange (s : State) (p : Nat) : State :=
  let g := s.gate p
  let s := (List.range g.pend.length).foldl (fun s e => s.setReg (R.GATE_p_OPERe p e) (g.pend.getD e 0)) s
  let s := (s.wr (F.GATE_p_OPER_CYCLE_NS p) g.pendCycle).wr (F.GATE_p_OPER_LEN_LEN p) g.pend.length
  let s := (s.wr (F.GATE_p_STATUS_PENDING p) 0).wr (F.GATE_p_STATUS_OPER p) 1
  let s := s.setGate p { g with pend := [], base := g.pendBase, idx := some 0, began := g.pendBase, startAt := 0 }
  s.setGates p (s.operGates p 0)

/-- R319, R322: the entry in force ends and the next one applies; a list that waits for its boundary starts. -/
def State.nextInterval (s : State) (p : Nat) : State :=
  let g := s.gate p
  match g.idx with
  | some e =>
    if s.ptpT < g.began + s.operSpan p e then s
    else
      let s := s.setGate p { g with idx := some (s.operNext p e), began := g.began + s.operSpan p e }
      s.setGates p (s.operGates p (s.operNext p e))
  | none =>
    if g.startAt = 0 ∨ s.ptpT < g.startAt then s
    else (s.setGate p { g with idx := some 0, began := g.startAt, startAt := 0 }).setGates p (s.operGates p 0)

/-! ## Commands -/

/-- PORT_FRAME_DONE (R317, R320): a port ends a frame and picks the next. -/
def execPortFrameDone (p : Fin 96) (s : State) : Out :=
  .next (s.when (s.sending p).isSome fun s => (s.setSending p none).portPick p)

/-- R318: one refill of queue q, with the shaper word written last before its cycle; a new word moves the queue's wheel entry. -/
def State.refillTokens (s : State) (q : Nat) : State :=
  let x := s.classQ q
  let w := if x.wrote = s.cycle + 1 then x.before else s.reg (R.WHL_Qq_SHAPE q)
  let y := { x with shape := w }
  let y := if y.shaped then { y with tokens := min (y.tokens + y.rate) y.burst } else y
  let s := s.setClassQ q y
  (if w = x.shape then s else s.queueEntry q).portPick (q / 8)

/-- SHAPER_REFILL (R318). -/
def execShaperRefill (q : Fin 768) (s : State) : Out := .next (s.refillTokens q)

/-- R318, R331: a write of WHL_Qq_SHAPE. -/
def State.shapeWrite (s : State) (q : Nat) (v : Word) : State :=
  if getBits v 30 1 = 1 ∧ (getBits v 0 20 = 0 ∨ getBits v 20 10 = 0) then s.refuse pWheel [R.WHL_STATUS] 0x6501 (R.WHL_Qq_SHAPE q)
  else
    let x := s.classQ q
    (s.setClassQ q { x with wrote := s.cycle + 1, before := if x.wrote = s.cycle + 1 then x.before else s.reg (R.WHL_Qq_SHAPE q) }).setReg (R.WHL_Qq_SHAPE q) (v &&& 0x7FFFFFFF)

/-- SHAPER_WRITE (R318). -/
def execShaperWrite (q : Fin 768) (v : Word) (s : State) : Out := .next (s.shapeWrite q v)

/-- GATE_INTERVAL_END (R319). -/
def execGateIntervalEnd (p : Fin 96) (s : State) : Out := .next (s.nextInterval p)

/-- GATE_CHANGE (R321): a write of GATE_p_CTL with CHANGE set. -/
def execGateChange (p : Fin 96) (en : Bool) (s : State) : Out := .next (s.gateCtlWrite p (BitVec.ofNat 32 (2 + bit en)))

/-- GATE_CHANGE_TIME (R321): the PTP clock reaches the change time. -/
def execGateChangeTime (p : Fin 96) (s : State) : Out :=
  .next (s.when (s.on (F.GATE_p_STATUS_PENDING p) && decide ((s.gate p).pendBase ≤ s.ptpT)) fun s => s.applyChange p)

/-- GATE_EN_WRITE (R322): a write of GATE_p_CTL.EN. -/
def execGateEnWrite (p : Fin 96) (en : Bool) (s : State) : Out := .next (s.gateCtlWrite p (BitVec.ofNat 32 (bit en)))

/-- R323: the histogram bin of a wait. -/
def waitBin (ns : Nat) : Nat := if ns < 128 then 0 else min 15 (Nat.log2 (ns / 64))

def State.histBin (s : State) (q b : Nat) : Nat := mapGet (fun _ => 0) s.whl.hist (q * 16 + b)

/-- R323: one more sample in a bin, saturating. -/
def State.addBin (s : State) (q b : Nat) : State :=
  { s with whl := { s.whl with hist := mapSet (fun _ => 0) s.whl.hist (q * 16 + b) (min (s.histBin q b + 1) (2 ^ 32 - 1)) } }

/-- R323: a write of 1 to WHL_HIST_CLR. -/
def State.histClr (s : State) : State :=
  let q := s.rd F.WHL_HIST_SEL_QUEUE
  { s with whl := { s.whl with hist := mapKeep (fun k => k / 16 != q) s.whl.hist } }

/-- WHL_HIST_CLR (R323). -/
def execWhlHistClr (s : State) : Out := .next s.histClr

end Sys2Proof.Machine
end

