-- ==== Sys2Proof/Machine/Sel.lean ====
section
/-!
DEFINITION. Sys2Proof/Machine/Sel.lean: reference selection (03_reference_selection.md): candidate lists, the machine of
each timeline (R66), acquisition (R39), holdover (R70), the qualifier of each reference (R60), and the SEL commands.
-/
namespace Sys2Proof.Machine

/-! ## Candidates -/

/-- R60: state and cause of reference k. -/
def State.refState (s : State) (k : Nat) : Nat := s.rd (F.SEL_REFk_STATUS_STATE k)
def State.qualified (s : State) (k : Nat) : Bool := s.refState k == 2
def State.ref (s : State) (k : Nat) : RefSt := mapGet (fun _ => RefSt.init) s.refs k
def State.setRef (s : State) (k : Nat) (x : RefSt) : State := { s with refs := mapSet (fun _ => RefSt.init) s.refs k x }

/-- R63: the candidate list of timeline n: first appearances, in entry order. -/
def State.candidates (s : State) (n : Nat) : List Nat :=
  ((List.range 16).filterMap fun e =>
    if s.on (F.SEL_PRIOe_EN e) && decide (s.rd (F.SEL_PRIOe_TL_MASK e) / 2 ^ n % 2 = 1) then some (s.rd (F.SEL_PRIOe_REF e)) else none).eraseDups

/-- R59, R63: reference k can be chosen by timeline n: it is QUALIFIED, and of ref 11 the peer's last heartbeat reported its
timeline n LIVE and locked to another reference. -/
def State.refUsable (s : State) (n k : Nat) : Bool := s.qualified k && (k != 11 || s.red.peerTl.getD n false)

/-- R67: reference k is forced on timeline n. -/
def State.isForced (s : State) (n k : Nat) : Bool :=
  s.on (F.SEL_TLn_CTL_FORCE_EN n) && s.rd (F.SEL_TLn_CTL_FORCE_REF n) == k && (s.candidates n).contains k

/-- R67: the forced reference while it ranks above the list. -/
def State.forced (s : State) (n : Nat) : Option Nat :=
  let k := s.rd (F.SEL_TLn_CTL_FORCE_REF n)
  if s.isForced n k && s.refUsable n k then some k else none

/-- R63: the best qualified candidate of the list. -/
def State.bestRef (s : State) (n : Nat) : Option Nat := (s.candidates n).find? (s.refUsable n)

/-- R66: mode and target of timeline n. -/
def State.selMode (s : State) (n : Nat) : Nat := s.rd (F.SEL_TLn_STATUS_MODE n)
def State.target (s : State) (n : Nat) : Nat := s.rd (F.SEL_TLn_STATUS_TARGET n)

/-! ## Phase -/

/-- R61, R81: the time of PTP instance k in 2^-32 ns: the clock plus the instance's filtered offset at the last sample that
the selector took. -/
def State.ptpTime (s : State) (k : Nat) : Int :=
  ((s.ptp.sec * 10 ^ 9 * 2 ^ 32 + s.ptp.clk : Nat) : Int) + (s.ref k).phase * 2 ^ 16

/-- Parts of a frame of timeline n since the PTP epoch, of a time in 2^-32 ns (R81). -/
def State.accOfTime (s : State) (n : Nat) (x : Int) : Int :=
  if s.tlDrop n then x * s.tlBase n * 1000 * accM / (1001 * 10 ^ 9 * 2 ^ 32) else x * s.tlBase n * accM / (10 ^ 9 * 2 ^ 32)

/-- R58: the time since the alignment point of reference k for timeline n, now, in 2^-16 ns: the last sample's and what has passed
since; of ref 11 since tick 0 of the peer's timeline of the same number. -/
def State.refPhase (s : State) (n k : Nat) : Int := (if k = 11 then (s.ref k).peer.getD n 0 else (s.ref k).phase) + ((s.cycle - (s.ref k).phaseAt) * 163840 : Nat)

/-- R58: refs 4 and 5: the time since the epoch in 2^-32 ns, the edge of the one PPS_IN ball marking a whole second of the
clock. -/
def State.ppsTime (s : State) : Int :=
  let clk : Int := ((s.ptp.sec * 10 ^ 9 * 2 ^ 32 + s.ptp.clk : Nat) : Int)
  let ph := (s.ptp.ppsPhase + ((s.cycle - s.ptp.ppsPhaseAt) * 163840 : Nat)) * 2 ^ 16
  (clk - ph + 5 * 10 ^ 8 * 2 ^ 32) / (10 ^ 9 * 2 ^ 32) * (10 ^ 9 * 2 ^ 32) + ph

/-- R64: at R/Q = 1/2 every second frame start of reference k is an alignment point of timeline n: what the frames counted
since put between them, in parts of a frame. -/
def State.halfRate (s : State) (n k : Nat) : Int :=
  if (k = 2 ∨ k = 3 ∨ 6 ≤ k) ∧ k ≠ 11 ∧ 2 * s.tlBase n = s.rd (F.SEL_REFk_CFG_BASE k) then ((s.ref k).count % 2 * (accM / 2) : Nat) else 0

/-- R65: the position of reference k, with SEL_REFk_COMP, in parts of a frame of timeline n; whole frames count only for PTP
references and refs 4 and 5 (R81). -/
def State.refAcc (s : State) (n k : Nat) : Int :=
  let comp := s.rdS (F.SEL_REFk_COMP_COMP k)
  if k < 2 then s.accOfTime n (s.ptpTime k + comp * 2 ^ 32)
  else if k = 4 ∨ k = 5 then s.accOfTime n (s.ppsTime + comp * 2 ^ 32)
  else s.accPhase n ((s.refPhase n k + comp * 2 ^ 16) * 390625) + s.halfRate n k

/-- R65: a difference in parts of a frame, reduced to (-P/2, +P/2] and given as a phase. -/
def State.nearest (s : State) (n : Nat) (x : Int) : Int :=
  let d := x % accM
  (if 2 * d > accM then d - accM else d) / s.accPhase n 1

/-- R65: the remaining reference phase error of timeline n towards reference k: the reduced difference, which takes in the
whole software offset, without the pending step that is pulled beside it. -/
def State.phaseError (s : State) (n k : Nat) : Int :=
  let t := s.tl n
  s.nearest n (s.refAcc n k + s.accPhase n t.soft - t.acc) - t.pend

/-- Mark the minute in progress as one that R70 stores as invalid. -/
def State.badMinute (s : State) (n : Nat) : State := s.setTl n { s.tl n with minBad := true }

/-! ## Modes -/

/-- R38: put timeline n into a state, with its event. -/
def State.setTlState (s : State) (n st : Nat) : State :=
  if s.tlState n = st then s
  else ((s.wr (F.LT_TLn_STATUS_STATE n) st).event (pTl n) 0x1C01 0xFFFF n st).modeUpdate

/-- R39, R66: the one step of an acquiring timeline, to reference k. -/
def State.acquire (s : State) (n k : Nat) : State :=
  let x := s.refAcc n k
  let fr := if k < 2 ∨ k = 4 ∨ k = 5 then (x / accM).toNat % 2 ^ 48
    else s.rd64 (F.LT_TLn_FRAME_SET_LO_FRAME_LO n) (F.LT_TLn_FRAME_SET_HI_FRAME_HI n)
  let s := s.setTl n { s.tl n with acc := (x % accM).toNat, frame := fr, freq := (s.ref k).good, perr := 0, pend := 0, soft := 0, minBad := true, known := [] }
  ((s.wr (F.SEL_TLn_STATUS_MODE n) 1).wr (F.SEL_TLn_STATUS_TARGET n) k).setTlState n 2

/-- R66, R67: the rank of reference k in the list of timeline n; the forced reference ranks above every entry. A target whose entry
has left the list ranks after every entry of it (notes/assumptions/134.md). -/
def State.refRank (s : State) (n k : Nat) : Nat := if s.isForced n k then 0 else (s.candidates n).idxOf k + 1

/-- R66: whether candidate k comes before the target in the list of timeline n. -/
def State.betterThan (s : State) (n k t : Nat) : Bool := decide (s.refRank n k < s.refRank n t)

/-- R66, R67, R68: take reference k as the target; the pull starts from the current phase. BETTER clears when the timeline takes
a better candidate. -/
def State.slewTo (s : State) (n k : Nat) : State :=
  let better := s.betterThan n k (s.target n)
  let s := s.setTl n { s.tl n with perr := s.phaseError n k, freq := (s.ref k).good, minBad := true, known := [] }
  let s := ((s.wr (F.SEL_TLn_STATUS_MODE n) 2).wr (F.SEL_TLn_STATUS_TARGET n) k).when better fun s => s.wr (F.SEL_TLn_STATUS_BETTER n) 0
  (s.showErr n).setTlState n 2

/-- R70: the valid samples of the averaging span. -/
def State.holdSamples (s : State) (n : Nat) : List Int :=
  (((s.tl n).hist.drop (s.rd (F.SEL_TLn_HOLDCFG_GUARD_MIN n))).take (s.rd (F.SEL_TLn_HOLDCFG_AVG_MIN n))).filterMap id

/-- R66, R70: enter HOLDOVER at the averaged history frequency; no phase step. The means of R70 are rounded towards minus
infinity (notes/assumptions/107.md). -/
def State.enterHoldover (s : State) (n : Nat) : State :=
  let xs := s.holdSamples n
  let short := decide (xs.length < 5)
  let f := if short then 0 else xs.sum / xs.length
  let s := s.setTl n { s.tl n with freq := f, perr := 0, minBad := true }
  let s := ((s.wr (F.SEL_TLn_STATUS_MODE n) 3).wr (F.SEL_TLn_STATUS_HIST_SHORT n) (bit short)).wrS (F.SEL_TLn_HOLDFREQ_FREQ n) f
  (s.showErr n).setTlState n 3

/-- R38, R39: FREERUN takes an acquiring timeline to HOLDOVER: nominal frequency, the frame count of
LT_TLn_FRAME_SET, tick 0 in this cycle. STATUS.HIST_SHORT keeps its value (notes/assumptions/107.md). -/
def State.freerun (s : State) (n : Nat) : State :=
  let fr := s.rd64 (F.LT_TLn_FRAME_SET_LO_FRAME_LO n) (F.LT_TLn_FRAME_SET_HI_FRAME_HI n)
  let s := s.setTl n { s.tl n with acc := 0, frame := fr, freq := 0, perr := 0, pend := 0, soft := 0, minBad := true }
  ((s.wr (F.SEL_TLn_STATUS_MODE n) 3).wrS (F.SEL_TLn_HOLDFREQ_FREQ n) 0).setTlState n 3

/-- R66: the candidates better than the target that can be chosen. -/
def State.betters (s : State) (n : Nat) : List Nat :=
  (s.candidates n).filter fun k => s.refUsable n k && s.betterThan n k (s.target n)

/-- R66, R67: with REVERT = 0, a better candidate that has qualified sets BETTER, and in LOCKED is recorded. -/
def State.noteBetter (s : State) (n : Nat) : State :=
  let now := s.betters n
  let new := now.filter fun k => !(s.tl n).known.contains k
  let s := s.setTl n { s.tl n with known := now }
  new.foldl (fun s k => (s.wr (F.SEL_TLn_STATUS_BETTER n) 1).when (s.selMode n == 1) fun s => s.event pSel 0x1C03 0xFFFF n k) s

/-- R66, R67: timeline n looks at its candidates again. Whether a candidate qualifies is judged by what it is now and not by the
event alone (notes/assumptions/105.md). -/
def State.reselect (s : State) (n : Nat) : State :=
  let best := match s.forced n with | some k => some k | none => s.bestRef n
  match s.selMode n, best with
  | 0, some k => if s.tlState n = 1 then s.acquire n k else s
  | 0, none => s
  | 3, some k => s.slewTo n k
  | 3, none => s
  | _, none => if s.refState (s.target n) = 2 ∨ s.refState (s.target n) = 3 then s else s.enterHoldover n
  | _, some k =>
    if s.refState (s.target n) ≠ 2 ∧ s.refState (s.target n) ≠ 3 then s.slewTo n k
    else if k ≠ s.target n ∧ (s.forced n = some k ∨ (s.on (F.SEL_TLn_CTL_REVERT n) ∧ s.betterThan n k (s.target n))) then s.slewTo n k
    else s.noteBetter n

/-- Every timeline looks at its candidates again. -/
def State.reselectAll (s : State) : State := s.forRange 4 fun n s => s.reselect n

/-! ## Qualifiers -/

/-- R60: put reference k into a state with a cause; entries to QUALIFIED and DISQUALIFIED are recorded. -/
def State.setRefState (s : State) (k st cause : Nat) : State :=
  let s := (s.wr (F.SEL_REFk_STATUS_STATE k) st).wr (F.SEL_REFk_STATUS_CAUSE k) cause
  if st = 2 ∨ st = 4 then s.event pSel 0x1C02 0xFFFF k (st + cause * 256) else s

/-- R60, R61: disqualify reference k; the timelines it drives keep the last good estimate and choose again. -/
def State.disqualify (s : State) (k cause : Nat) : State :=
  ((s.setRefState k (if cause = 7 then 0 else 4) cause).inc (F.SEL_REFk_COUNT_DISQ k)).reselectAll

/-- R60: reference k (re)enters MEASURE; the cause of the last disqualification stays shown. -/
def State.measure (s : State) (k : Nat) (inBand : Bool) : State :=
  (s.setRef k { s.ref k with inBand := inBand }).setRefState k 1 (s.rd (F.SEL_REFk_STATUS_CAUSE k))

/-- R58, R76: refs 4 and 5 need the clock's seconds count. -/
def State.noTod (s : State) (k : Nat) : Bool := (k == 4 || k == 5) && !s.on F.PTP_CLK_STATUS_SET

/-- R60: EN of reference k set at a commit: measurement starts; without a time of day refs 4 and 5 are disqualified. -/
def State.refEnable (s : State) (k : Nat) : State :=
  let s := (s.setRef k RefSt.init).measure k false
  if s.noTod k then s.disqualify k 6 else s

/-- R60: EN of reference k cleared at a commit. -/
def State.refDisable (s : State) (k : Nat) : State := s.disqualify k 7

/-- R60, R494: PTP_CLK_STATUS.SET has changed: NO_TOD arises or clears on refs 4 and 5. Refs 0 and 1 that are QUALIFIED
when SET clears stay so (notes/assumptions/111.md). -/
def State.todUpdate (s : State) : State :=
  [4, 5].foldl (fun s k =>
    if s.on F.PTP_CLK_STATUS_SET then
      (if s.refState k = 4 ∧ s.rd (F.SEL_REFk_STATUS_CAUSE k) = 6 then s.measure k false else s)
    else if s.refState k ≠ 0 ∧ ¬(s.refState k = 4 ∧ s.rd (F.SEL_REFk_STATUS_CAUSE k) = 6) then s.disqualify k 6 else s) s

/-- The limits of reference k, in 0.01 ppb, and its MTIE limit. -/
def State.tol (s : State) (k : Nat) : Nat := s.rd (F.SEL_REFk_CFG_TOL k) * 1000
def State.tolIn (s : State) (k : Nat) : Nat := (s.rd (F.SEL_REFk_CFG_TOL k) - s.rd (F.SEL_REFk_QUAL_HYST k)) * 1000

/-- The timelines that reference k drives. -/
def State.drives (s : State) (k : Nat) : List Nat :=
  (List.range 4).filter fun n => (s.selMode n == 1 || s.selMode n == 2) && s.target n == k

/-- R65, R70: the timelines of a qualified reference take its sample. -/
def State.feed (s : State) (k : Nat) (f : Int) : State :=
  (s.drives k).foldl (fun s n =>
    let t := s.tl n
    (s.setTl n { t with freq := f, perr := s.phaseError n k, minSum := t.minSum + f, minCnt := t.minCnt + 1 }).showErr n) s

/-- R58: the period of reference k as numerator and denominator, in 2^-16 ns: the declared frame period; of refs 4 and 5 that of
the signal whose edge it is; of ref 11 the heartbeat period. -/
def State.refTime (s : State) (k : Nat) (m : RefMeas) : Nat × Nat :=
  if k = 4 ∨ k = 5 then (if m.edge then 10 ^ 9 * 65536 else 100 * 65536, 1)
  else if k = 11 then (250000 * 65536, 1)
  else if s.on (F.SEL_REFk_CFG_DROP k) then (1001 * 10 ^ 9 * 65536, 1000 * s.rd (F.SEL_REFk_CFG_BASE k))
  else (10 ^ 9 * 65536, s.rd (F.SEL_REFk_CFG_BASE k))

/-- R64: the reference frames between the last applied sample of reference k and this one: the whole periods that the clock has seen,
to the nearest, whatever samples were discarded between. -/
def State.framesSince (s : State) (k : Nat) (m : RefMeas) : Nat :=
  let (p, q) := s.refTime k m
  let t := ((s.cycle - (s.ref k).phaseAt) * 163840 : Nat) + (s.ref k).phase - m.phase
  ((2 * t * q + p) / (2 * p : Nat)).toNat

/-- R60: the period's good sample is kept and applied: of refs 0 and 1 the instance's filtered offset (R81), of refs 4 and 5
the time since the one 1PPS edge (R58). -/
def State.keepSample (s : State) (k : Nat) (m : RefMeas) : State :=
  let ph := if k < 2 then s.rdS (F.PTP_n_OFFSET_OFFSET k) * 65536 else m.phase
  let s := s.setRef k { s.ref k with prev := some m.freq, good := m.freq, phase := ph, phaseAt := s.cycle, count := (s.ref k).count + s.framesSince k m, peer := m.peer }
  if k = 4 ∨ k = 5 then { s with ptp := { s.ptp with ppsPhase := m.phase, ppsPhaseAt := s.cycle } } else s

/-- R60: the MTIE over WIN seconds of reference k: the range of its samples' deviations, in 2^-16 ns. -/
def State.mtie (s : State) (k : Nat) : Int :=
  let xs := (s.ref k).tes.map (·.2)
  xs.foldl max (xs.headD 0) - xs.foldl min (xs.headD 0)
def State.mtieBad (s : State) (k : Nat) : Bool := decide (s.mtie k > s.rd (F.SEL_REFk_MTIE_MTIE_NS k) * 65536)

/-- R60, R64: a sample that is no glitch joins the MTIE window. -/
def State.observe (s : State) (k : Nat) (m : RefMeas) : State :=
  let w := s.rd (F.SEL_REFk_MTIE_WIN k) * 400000000
  s.setRef k { s.ref k with tes := (s.cycle, m.dev) :: (s.ref k).tes.filter fun e => decide (s.cycle < e.1 + w) }

/-- R58: a 1PPS edge ends the loss of PPS_IN. -/
def State.refEdge (s : State) (k : Nat) (m : RefMeas) : State :=
  if (k = 4 ∨ k = 5) ∧ m.edge then { s with ptp := { s.ptp with ppsLost := false } } else s

/-- R60: the sample is a glitch: a malformed pulse; an edge or frame start more than 1 % of a reference period from its
predicted position; of refs 0 and 1 a PTP offset sample more than 1 us from its prediction. -/
def State.isGlitch (s : State) (k : Nat) (m : RefMeas) : Bool :=
  m.malformed ||
    if k < 2 then (mapGet (fun _ => PtpInst.init) s.ptp.inst k).bad || decide (m.dev.natAbs > 1000 * 65536)
    else decide (m.dev.natAbs * 100 * (s.refTime k m).2 > (s.refTime k m).1)

/-- R58: refs 4 and 5 have lost the one 1PPS signal. -/
def State.noPps (s : State) (k : Nat) : Bool := (k == 4 || k == 5) && s.ptp.ppsLost

/-- R60: glitches of the last 10 s (4 x 10^9 cycles). -/
def State.recentGlitches (s : State) (k : Nat) : List Nat :=
  (s.ref k).glitches.filter fun c => decide (s.cycle < c + 4000000000)
def State.glitchy (s : State) (k : Nat) : Bool := decide ((s.recentGlitches k).length > s.rd (F.SEL_REFk_QUAL_GLITCH_MAX k))

/-- R60: a glitch is counted, and its sample discarded; the reference period that starts with it clears DRIFT and MTIE (R494). -/
def State.refGlitch (s : State) (k : Nat) : State :=
  let s := (s.setRef k { s.ref k with glitches := s.cycle :: s.recentGlitches k }).inc (F.SEL_REFk_COUNT_GLITCHES k)
  if s.refState k = 2 ∧ s.glitchy k then s.disqualify k 5
  else if s.refState k = 4 ∧ (s.rd (F.SEL_REFk_STATUS_CAUSE k) = 3 ∨ s.rd (F.SEL_REFk_STATUS_CAUSE k) = 4) then s.measure k false
  else s

/-- R494: cause GLITCH clears in the cycle in which the 10 s window holds GLITCH_MAX glitches or fewer. -/
def State.glitchCycle (s : State) : State :=
  s.forRange 12 fun k s =>
    s.when (s.refState k == 4 && s.rd (F.SEL_REFk_STATUS_CAUSE k) == 5 && !s.glitchy k) fun s => s.measure k false

/-- R60: the frequency differs from that of the period before by more than 50 ppm (5,000,000 x 0.01 ppb). -/
def State.refStep (s : State) (k : Nat) (m : RefMeas) : Bool :=
  match (s.ref k).prev with | some p => decide ((m.freq - p).natAbs > 5000000) | none => false

/-- R60: reference k enters QUALIFIED; glitches of the last 10 s above GLITCH_MAX disqualify it at once. -/
def State.enterQualified (s : State) (k : Nat) : State :=
  let s := s.setRefState k 2 (s.rd (F.SEL_REFk_STATUS_CAUSE k))
  if s.glitchy k then s.disqualify k 5 else s

/-- R61: reference k becomes SUSPECT: the minutes of the timelines it drives turn invalid (R70). -/
def State.refSuspect (s : State) (k : Nat) : State :=
  (s.drives k).foldl (fun s n => s.badMinute n) (s.setRefState k 3 (s.rd (F.SEL_REFk_STATUS_CAUSE k)))

/-- R61: the fault that disqualified reference k is over. -/
def State.refClear (s : State) (k : Nat) (step : Bool) : Bool :=
  let c := s.rd (F.SEL_REFk_STATUS_CAUSE k)
  decide ((c = 1 ∧ ¬s.noPps k) ∨ c = 3 ∨ c = 4 ∨ (c = 2 ∧ ¬step) ∨ (c = 5 ∧ ¬s.glitchy k))

/-- R60, R61, R494: one measured reference period of an enabled reference. -/
def State.refPeriod (s : State) (k : Nat) (m : RefMeas) : State :=
  let step := s.refStep k m
  let s := s.observe k m
  let inBand := decide (m.freq.natAbs ≤ s.tolIn k) && !s.mtieBad k && !s.noPps k
  let s := s.wrS (F.SEL_REFk_STATUS_OFFSET k) (m.freq / 1000)
  let prev := s.setRef k { s.ref k with prev := some m.freq }
  let st := s.refState k
  if st = 1 then (s.keepSample k m).measure k (inBand && !step)
  else if st = 2 then
    if step then prev.disqualify k 2
    else if s.mtieBad k then prev.disqualify k 4
    else if m.freq.natAbs > s.tol k then prev.refSuspect k
    else (s.keepSample k m).feed k m.freq
  else if st = 3 then
    if step then prev.disqualify k 2
    else if m.freq.natAbs ≤ s.tolIn k then
      (((s.keepSample k m).feed k m.freq).enterQualified k).reselectAll
    else prev
  else if st = 4 then if s.refClear k step then (s.keepSample k m).measure k inBand else prev
  else s

/-! ## Commands -/

/-- R77: an instance in a time jump delivers no samples to the selector. -/
def State.jumped (s : State) (k : Nat) : Bool := decide (k < 2) && s.on (F.PTP_n_STATUS_JUMP k)

/-- R396: a reference on an SDI lane (6 to 10) sees activity only while its lane is ACTIVE. -/
def State.refLaneUp (s : State) (k : Nat) : Bool := decide (k < 6 ∨ 10 < k) || s.rd (F.LANE_n_STATUS_STAGE (s.rd (F.SEL_REFk_CFG_SRC k))) == 5

/-- REF_SAMPLE (R60). -/
def execRefSample (k : Fin 12) (m : RefMeas) (s : State) : Out :=
  .next (s.when (s.refState k != 0 && !s.jumped k && s.refLaneUp k) fun s =>
    let s := s.refEdge k m
    if s.isGlitch k m then s.refGlitch k else s.refPeriod k m)

/-- REF_WTR_EXPIRED (R62): MEASURE has held without a break for WTR. Refs 0 and 1 cannot leave MEASURE while the clock
is not set (R76). -/
def execRefWtrExpired (k : Fin 12) (s : State) : Out :=
  .next (s.when (s.refState k == 1 && (s.ref k).inBand && (decide (2 ≤ k.val) || s.on F.PTP_CLK_STATUS_SET)) fun s =>
    (s.enterQualified k).reselectAll)

/-- REF_DWELL_EXPIRED (R60): cause DRIFT. -/
def execRefDwellExpired (k : Fin 12) (s : State) : Out := .next (s.when (s.refState k == 3) fun s => s.disqualify k 3)

/-- R60: reference k has had no activity for its time: cause ACTIVITY; in MEASURE the wait-to-restore time starts again. -/
def State.refQuiet (s : State) (k : Nat) : State :=
  if s.refState k = 2 ∨ s.refState k = 3 then s.disqualify k 1
  else s.when (s.refState k == 1) fun s => s.setRef k { s.ref k with inBand := false }

/-- SEL_SLEW_DONE (R66): the remaining error is below 1 ns. -/
def execSelSlewDone (n : Fin 4) (s : State) : Out :=
  .next (s.when (s.selMode n == 2 && decide (((s.tl n).perr + (s.tl n).pend).natAbs < 25600000000)) fun s =>
    s.wr (F.SEL_TLn_STATUS_MODE n) 1)

/-- R71: a refused selector write leaves the register and reports on the timeline. -/
def State.selRefuse (s : State) (n code : Nat) (reg : Nat) : State := s.refuse pSel [R.SEL_TLn_STATUS n] code reg

/-- R67, R71: a write of SEL_TLn_CTL. Setting FORCE_EN needs a reference of the list that is QUALIFIED. -/
def State.selCtlWrite (s : State) (n : Nat) (v : Word) : State :=
  let k := getBits v 2 4
  if getBits v 1 1 = 1 ∧ s.bases.any (fun b => !((b.candidates n).contains k && b.refUsable n k)) then s.selRefuse n 0x1016 (R.SEL_TLn_CTL n)
  else
    let newly := getBits v 1 1 == 1 && s.selMode n != 0 && !(s.on (F.SEL_TLn_CTL_FORCE_EN n) && s.rd (F.SEL_TLn_CTL_FORCE_REF n) == k)
    let s := s.setReg (R.SEL_TLn_CTL n) (v &&& 0x3F)
    let s := s.when (getBits v 6 1 == 1) fun s => s.wr (F.SEL_TLn_STATUS_BETTER n) 0
    if newly then s.slewTo n k else s.reselect n

/-- SEL_FORCE (R67): a write of SEL_TLn_CTL that sets FORCE_EN. -/
def execSelForce (n : Fin 4) (v : Word) (s : State) : Out := .next (s.selCtlWrite n (v ||| 2))

/-- SEL_BETTER_CLR (R67): a write of SEL_TLn_CTL with BETTER_CLR set. -/
def execSelBetterClr (n : Fin 4) (v : Word) (s : State) : Out := .next (s.selCtlWrite n (v ||| 0x40))

/-- R68: a write of SEL_TLn_SLOPE. -/
def State.slopeWrite (s : State) (n : Nat) (v : Word) : State :=
  let x := getBits v 0 14
  if x = 0 ∨ x > 10000 then s.selRefuse n 0x1014 (R.SEL_TLn_SLOPE n) else s.wr (F.SEL_TLn_SLOPE_SLOPE n) x

/-- SEL_SLOPE_WRITE (R68). -/
def execSelSlopeWrite (n : Fin 4) (v : Word) (s : State) : Out := .next (s.slopeWrite n v)

/-- R69: a write of SEL_TLn_STEP. One ms is 25,600,000,000,000,000 units of phase error. -/
def State.stepWrite (s : State) (n : Nat) (v : Word) : State :=
  let t := s.tl n
  let p := t.pend + v.toInt * 390625
  if s.selMode n = 0 then s.selRefuse n 0x1018 (R.SEL_TLn_STEP n)
  else if p.natAbs > 25600000000000000 then s.selRefuse n 0x1011 (R.SEL_TLn_STEP n)
  else
    let near := s.nearest n (s.accPhase n (t.perr + p)) - p
    let far := decide (2 * (s.accPhase n (t.perr + p)).natAbs > accM)
    (s.setTl n { t with pend := p, soft := t.soft + v.toInt * 390625, perr := if far then near else t.perr }).showErr n

/-- SEL_STEP (R69). -/
def execSelStep (n : Fin 4) (v : Word) (s : State) : Out := .next (s.stepWrite n v)

/-- R70: the sample a minute leaves: none when the minute is invalid, else the mean frequency offset. -/
def TlSt.minuteSample (t : TlSt) : Option Int :=
  if t.minBad then none else some (if t.minCnt = 0 then t.freq else t.minSum / t.minCnt)

/-- R70: whether the next minute starts in a condition that makes it invalid. -/
def State.minuteBad (s : State) (n : Nat) : Bool := !(s.selMode n == 1 && s.qualified (s.target n))

/-- R70: close the minute in progress of timeline n. -/
def State.closeMinute (s : State) (n : Nat) : State :=
  let t := s.tl n
  s.setTl n { t with hist := (t.minuteSample :: t.hist).take 1440, minBad := s.minuteBad n, minSum := 0, minCnt := 0 }

/-- SEL_HIST_MINUTE (R70): minute k ends when SCH_USEC of the root die reaches 60,000,000 x (k + 1). -/
def execSelHistMinute (s : State) : Out :=
  .next (s.when (decide (60000000 * (s.lt.minute + 1) ≤ s.usec 0)) fun s =>
    let s := s.forRange 4 fun n s => s.closeMinute n
    { s with lt := { s.lt with minute := s.lt.minute + 1 } })

end Sys2Proof.Machine
end

