-- ==== Sys2Proof/Machine/Ptp.lean ====
section
/-!
DEFINITION. Sys2Proof/Machine/Ptp.lean: the PTP clock, its servo and its two instances (04_network_time.md).
-/
namespace Sys2Proof.Machine

def State.inst (s : State) (i : Nat) : PtpInst := mapGet (fun _ => PtpInst.init) s.ptp.inst i
def State.setInst (s : State) (i : Nat) (x : PtpInst) : State :=
  { s with ptp := { s.ptp with inst := mapSet (fun _ => PtpInst.init) s.ptp.inst i x } }
def State.portState (s : State) (i : Nat) : Nat := s.rd (F.PTP_n_STATUS_PORT_STATE i)
def State.clkSet (s : State) : Bool := s.on F.PTP_CLK_STATUS_SET
def State.ptpSrc (s : State) : Nat := s.rd F.PTP_CLK_CTL_SRC

/-! ## The clock -/

/-- R74: INCR as the clock uses it. -/
def State.showIncr (s : State) : State := (s.wr F.PTP_CLK_INCR_LO_FRAC s.incr).wr F.PTP_CLK_INCR_HI_INT (s.incr / 2 ^ 32)

/-- R75: the servo's state, and its integrator cleared when it leaves FREE (R495). -/
def State.servoUpdate (s : State) : State :=
  let st := if !s.on F.PTP_CLK_CTL_SERVO then 0
    else if s.clkSet && s.portState s.ptpSrc == 9 && !s.on (F.PTP_n_STATUS_JUMP s.ptpSrc) && !(s.inst s.ptpSrc).quiet then 1 else 2
  let s := if s.rd F.PTP_CLK_STATUS_SERVO_STATE = 0 ∧ st ≠ 0 then { s with ptp := { s.ptp with servoI := 0 } } else s
  s.wr F.PTP_CLK_STATUS_SERVO_STATE st

/-- R76, R81: between a step and the next sample PTP_n_OFFSET keeps its value (notes/assumptions/134.md): after the step the offsets that refs 0 and 1 hold are those the instances report, and earlier raw offsets predict
nothing. -/
def State.offsetsMoved (s : State) : State :=
  [0, 1].foldl (fun s k =>
    (s.setRef k { s.ref k with phase := s.rdS (F.PTP_n_OFFSET_OFFSET k) * 65536 }).setInst k { s.inst k with raws := [] }) s

/-- R76: step the clock to a time in 2^-32 ns since the epoch; SET reads 1. -/
def State.stepClock (s : State) (x : Nat) : State :=
  let s := s.offsetsMoved
  let s := { s with ptp := { s.ptp with sec := x / (10 ^ 9 * 2 ^ 32) % 2 ^ 48, clk := x % (10 ^ 9 * 2 ^ 32) } }
  ((s.wr F.PTP_CLK_STATUS_SET 1).todUpdate.gatesSet).servoUpdate

/-- R76, R322: a re-arm clears SET, and what hangs on it. -/
def State.rearm (s : State) : State := ((s.wr F.PTP_CLK_STATUS_SET 0).todUpdate.gatesUnset).servoUpdate

/-- R76: a timeline whose candidate list holds ref 0, 1, 4 or 5 is LIVE or HOLDOVER. -/
def State.rearmBlocked (s : State) : Bool :=
  (List.range 4).any fun n => s.tlRunning n && (s.candidates n).any fun k => k == 0 || k == 1 || k == 4 || k == 5

/-- R75: SRC may change to instance k while SET = 1. -/
def State.srcNear (s : State) (k : Nat) : Bool :=
  s.portState k == 9 && decide ((s.rdS (F.PTP_n_OFFSET_OFFSET k)).natAbs ≤ 10000)

/-- R75, R76: the code that refuses a write of PTP_CLK_CTL; 0 passes. REARM acts before SET_REQ. -/
def State.ptpCtlCheck (s : State) (v : Word) : Nat :=
  let rearm := getBits v 4 1 == 1
  if rearm && s.rearmBlocked then 0x6F01
  else if getBits v 3 1 == 1 && s.clkSet && !rearm then 0x6F01
  else if s.clkSet && getBits v 1 1 != s.ptpSrc && !s.srcNear (getBits v 1 1) then 0x6F03
  else 0

/-- R75, R76, R82: a write of PTP_CLK_CTL. A PTP_CLK_SET_NS of 10^9 or more carries into the seconds
(notes/assumptions/110.md). -/
def State.ptpCtlWrite (s : State) (v : Word) : State :=
  if s.ptpCtlCheck v ≠ 0 then s.refuse pPtp [R.PTP_CLK_STATUS] (s.ptpCtlCheck v) R.PTP_CLK_CTL
  else
    let s := if getBits v 4 1 = 1 then s.rearm else s
    let s := (s.setReg R.PTP_CLK_CTL (v &&& 7)).servoUpdate
    if getBits v 3 1 = 1 then
      s.stepClock (((s.rd64 F.PTP_CLK_SET_SEC_LO_SEC_LO F.PTP_CLK_SET_SEC_HI_SEC_HI) * 10 ^ 9 + s.rd F.PTP_CLK_SET_NS_NS) * 2 ^ 32)
    else s

/-- R75: a write of PTP_CLK_ADJ. One that is both out of range and made with SERVO = 1 gets 0x6F08 (notes/assumptions/134.md). -/
def State.adjWrite (s : State) (v : Word) : State :=
  if s.on F.PTP_CLK_CTL_SERVO then s.refuse pPtp [R.PTP_CLK_STATUS] 0x6F08 R.PTP_CLK_ADJ
  else if v.toInt.natAbs > 5368709 then s.refuse pPtp [R.PTP_CLK_STATUS] 0x6F02 R.PTP_CLK_ADJ
  else (s.setReg R.PTP_CLK_ADJ v).showIncr

/-! ## The servo -/

/-- R495: omega_n at BW = 0, 2 pi x 0.1 /s, in 10^-18 /s. -/
def omega0 : Int := 628318530717958648

/-- R495: theta x 2^log, exactly scaled for a division. -/
def timesInterval (x log : Int) : Int := if 0 ≤ log then x * 2 ^ log.toNat else x / 2 ^ (-log).toNat

/-- Round a quotient to the nearest integer, halves away from zero. -/
def roundDiv (a : Int) (b : Nat) : Int := if 0 ≤ a then (2 * a + b) / (2 * b) else -((2 * -a + b) / (2 * b))

/-- R495: one run of the servo in TRACK for a filtered sample theta (ns), in 10^-24 ppb. -/
def State.servoRun (s : State) (theta logSync : Int) : State :=
  let bw := 2 ^ s.rd F.PTP_CLK_CFG_BW
  let lim : Int := s.rd F.PTP_CLK_CFG_RATE_MAX * 100 * 10 ^ 24
  let p := 14142 * omega0 * 100 * theta / bw
  let d := timesInterval (omega0 * omega0 * theta / (bw * bw)) logSync / 10 ^ 12
  let i := s.ptp.servoI + d
  let i := if (p + i > lim ∧ d > 0) ∨ (p + i < -lim ∧ d < 0) then s.ptp.servoI else i
  let y := max (-lim) (min (p + i) lim)
  let s := { s with ptp := { s.ptp with servoI := i } }
  (s.wrS F.PTP_CLK_ADJ_ADJ (roundDiv (y * 5 * 2 ^ 31) (10 ^ 33))).showIncr

/-! ## The instances -/

/-- R73, R78: instance i is enabled and the message is of its MAC and its domain. -/
def State.hears (s : State) (i mac domain : Nat) : Bool :=
  s.macUp mac && s.on (F.PTP_n_CFG_EN i) && s.rd (F.PTP_n_CFG_MAC i) == mac && s.rd (F.PTP_n_CFG_DOMAIN i) == domain

/-- R73: a message ignored for its rate is counted. -/
def State.ignoreMsg (s : State) (i : Nat) : State := s.inc (F.PTP_n_COUNT_IGNORED i)

/-- R78: receive and transmit stamps of this instant at the MAC of instance i. -/
def State.rxStamp (s : State) (i : Nat) : Int := s.macRx (s.rd (F.PTP_n_CFG_MAC i))
def State.txStamp (s : State) (i : Nat) : Int := s.macTx (s.rd (F.PTP_n_CFG_MAC i))

/-- R60: a raw offset lies more than 1 us from its prediction, which needs samples before it (notes/assumptions/106.md). -/
def PtpInst.strays (x : PtpInst) (raw : Int) : Bool := x.raws != [] && decide ((raw - Config.ptpPredict x.raws).natAbs > 1000)

/-- R60, R76, R77, R495: a raw offset sample of instance i, which its filter and the clock take; a glitch is discarded. -/
def State.ptpSample (s : State) (i : Nat) (raw : Int) : State :=
  let bad := s.clkSet && (s.inst i).strays raw
  let s := s.setInst i { s.inst i with raws := if bad then (s.inst i).raws else raw :: (s.inst i).raws.take 1, bad := bad, quiet := false }
  let s := if s.portState i = 8 then s.wr (F.PTP_n_STATUS_PORT_STATE i) 9 else s
  if s.clkSet && decide (raw.natAbs > s.rd F.PTP_CLK_JUMP_JUMP * 1000) then
    (s.wr (F.PTP_n_STATUS_JUMP i) 1).servoUpdate
  else
    let s := s.wr (F.PTP_n_STATUS_JUMP i) 0
    let x := s.inst i
    if bad then s.servoUpdate
    else if !s.clkSet && i == s.ptpSrc && s.on F.PTP_CLK_CTL_AUTO_SET then
      let s := (s.setInst i { x with filt := 0 }).wrS (F.PTP_n_OFFSET_OFFSET i) 0
      s.stepClock (((s.ptp.sec * 10 ^ 9 * 2 ^ 32 + s.ptp.clk : Nat) : Int) + raw * 2 ^ 32).toNat
    else
      let f := Config.ptpFilter x.filt raw
      let s := ((s.setInst i { x with filt := f }).wrS (F.PTP_n_OFFSET_OFFSET i) f).servoUpdate
      if s.rd F.PTP_CLK_STATUS_SERVO_STATE = 1 ∧ i = s.ptpSrc then s.servoRun (s.rdS (F.PTP_n_OFFSET_OFFSET i)) x.logSync else s

/-- R73: a completed Sync pair: origin time t1 and receive time t2, in ns; the offset is t1 + path delay - t2. -/
def State.syncPair (s : State) (i : Nat) (t1 t2 : Int) : State :=
  let s := s.setInst i { s.inst i with t1 := t1, t2 := t2, waitSeq := none }
  s.ptpSample i (t1 + s.rdS (F.PTP_n_MPD_MPD i) / 16 - t2)

/-- R73: a message comes from the master that instance i follows. -/
def State.fromMaster (s : State) (i sender : Nat) : Bool :=
  match (s.inst i).parent with | some p => p.sender == sender | none => false

/-- R73: a Sync message of the master that instance i follows. -/
def State.syncMsg (s : State) (i : Nat) (m : SyncMsg) : State :=
  if !s.hears i m.mac m.domain then s
  else if m.logInterval < -7 ∨ m.logInterval > -1 then s.ignoreMsg i
  else if (s.portState i ≠ 8 ∧ s.portState i ≠ 9) ∨ !s.fromMaster i m.sender then s
  else
    let t2 := s.rxStamp i
    let s := (s.incWrap (F.PTP_n_COUNT_SYNC_RX i)).setInst i { s.inst i with logSync := m.logInterval }
    if m.twoStep then s.setInst i { s.inst i with waitSeq := some (m.seq, t2 - m.corr) }
    else s.syncPair i ((m.sec * 10 ^ 9 + m.ns : Nat) + m.corr) t2

/-- R73: the Follow_Up of a two-step Sync. -/
def State.followUp (s : State) (i : Nat) (m : SyncMsg) : State :=
  if !s.hears i m.mac m.domain ∨ !s.fromMaster i m.sender then s
  else match (s.inst i).waitSeq with
    | some (q, t2) => if q = m.seq then s.syncPair i ((m.sec * 10 ^ 9 + m.ns : Nat) + m.corr) t2 else s
    | none => s

/-- R73: the order of the default BMCA over announced data sets; true when `a` is better than `b`. Two masters of one grandmaster are
compared by the steps removed, then by their senders. -/
def betterMaster (a b : AnnounceMsg) : Bool :=
  let key := fun (m : AnnounceMsg) =>
    if a.gmid = b.gmid then [m.steps, m.sender] else [m.prio1, m.clockClass, m.accuracy, m.variance, m.prio2, m.gmid]
  let rec lex : List Nat → List Nat → Bool
    | x :: xs, y :: ys => if x = y then lex xs ys else decide (x < y)
    | _, _ => false
  lex (key a) (key b)

/-- R73: instance i follows a master, and reports its data set. -/
def State.follow (s : State) (i : Nat) (p : AnnounceMsg) : State :=
  let same := s.fromMaster i p.sender
  let s := s.setInst i { s.inst i with parent := some p }
  let s := if same then s else (s.setInst i { s.inst i with waitSeq := none, t3 := none }).wr (F.PTP_n_STATUS_PORT_STATE i) 8
  let s := (s.wr (F.PTP_n_GMID_LO_GMID_LO i) p.gmid).wr (F.PTP_n_GMID_HI_GMID_HI i) (p.gmid / 2 ^ 32)
  ((s.wr (F.PTP_n_UTC_UTC_OFFSET i) p.utcOffset).wr (F.PTP_n_STATUS_UTC_VALID i) (bit p.utcValid)).servoUpdate

/-- R73: an Announce message: instance i follows the best of the masters heard; one 255 or more steps away is none (IEEE 1588; notes/assumptions/135.md). -/
def State.announce (s : State) (i : Nat) (m : AnnounceMsg) : State :=
  if !s.hears i m.mac m.domain then s
  else if m.logInterval < -3 ∨ m.logInterval > 1 then s.ignoreMsg i
  else if 255 ≤ m.steps then s
  else
    let ms := m :: (s.inst i).foreign.filter (·.sender != m.sender)
    (s.setInst i { s.inst i with foreign := ms }).follow i (ms.foldl (fun a b => if betterMaster b a then b else a) m)

/-- R73: an Announce message: a synchronisation metadata TLV goes to the management cores, unparsed. -/
def State.announceMsg (s : State) (i : Nat) (m : AnnounceMsg) : State :=
  (s.announce i m).when (s.hears i m.mac m.domain && m.tlv != []) fun s => s.send (.ptpTlv i m.tlv)

/-- R73: a Delay_Resp of the master to a Delay_Req of this instance: the mean path delay ((t2 - t1) + (t4 - t3)) / 2 with the correction taken off, in 1/16 ns,
signed and saturating (notes/assumptions/134.md). -/
def State.delayResp (s : State) (i : Nat) (m : DelayRespMsg) : State :=
  if !s.hears i m.mac m.domain ∨ !m.mine ∨ !s.fromMaster i m.sender then s
  else if m.logInterval < -7 ∨ m.logInterval > 5 then s.ignoreMsg i
  else match (s.inst i).t3 with
    | some t3 =>
      let x := s.inst i
      if m.seq ≠ x.dreqSeq then s
      else
        let t4 : Int := (m.sec * 10 ^ 9 + m.ns : Nat) - m.corr
        (s.setInst i { x with t3 := none, dreqLog := m.logInterval }).wrS (F.PTP_n_MPD_MPD i) (((x.t2 - x.t1) + (t4 - t3)) * 8)
    | none => s

/-- R73: send a Delay_Req. -/
def State.delayReq (s : State) (i : Nat) : State :=
  if s.on (F.PTP_n_CFG_EN i) ∧ (s.portState i = 8 ∨ s.portState i = 9) then
    let q := ((s.inst i).dreqSeq + 1) % 65536
    ((s.setInst i { s.inst i with dreqSeq := q, t3 := some (s.txStamp i) }).stampTx (s.rd (F.PTP_n_CFG_MAC i))).send
      (.delayReq i q (s.on (F.PTP_n_CFG_UNICAST_DREQ i)) (s.rd (F.PTP_n_IPV4_ADDR i)))
  else s

/-- R73: announceReceiptTimeout: the instance listens again, and forgets the masters it has heard. -/
def State.announceTimeout (s : State) (i : Nat) : State :=
  if s.on (F.PTP_n_CFG_EN i) ∧ (s.inst i).parent.isSome then
    ((s.setInst i { s.inst i with parent := none, foreign := [], waitSeq := none, t3 := none }).wr (F.PTP_n_STATUS_PORT_STATE i) 4).servoUpdate
  else s

/-- R82: EN of instance i set or cleared at a commit: 4 LISTENING or 3 DISABLED. Nothing in the spec brings 2 FAULTY about, and no
command of the model does (notes/assumptions/134.md). -/
def State.ptpInstEnable (s : State) (i : Nat) (en : Bool) : State :=
  ((s.setInst i PtpInst.init).wr (F.PTP_n_STATUS_PORT_STATE i) (if en then 4 else 3)).servoUpdate

/-! ## Commands -/

/-- PTP_SYNC (R73). -/
def execPtpSync (i : Fin 2) (m : SyncMsg) (s : State) : Out := .next ((s.frameIn m.mac).syncMsg i m)

/-- PTP_FOLLOW_UP (R73). -/
def execPtpFollowUp (i : Fin 2) (m : SyncMsg) (s : State) : Out := .next ((s.frameIn m.mac).followUp i m)

/-- PTP_ANNOUNCE (R73). -/
def execPtpAnnounce (i : Fin 2) (m : AnnounceMsg) (s : State) : Out := .next ((s.frameIn m.mac).announceMsg i m)

/-- R78: the UDP port of a message: 319 for an event message, 320 for a general one. -/
def ptpPort : PtpMsg → Nat
  | .sync _ => 319
  | .followUp _ => 320
  | .announce _ => 320
  | .delayResp _ => 320

/-- R78: a PTP message that came in at a MAC goes to the instances whose MAC and domain match. -/
def State.ptpDeliver (s : State) (mac : Fin 96) (x : PtpMsg) : State :=
  [0, 1].foldl (fun s i => match x with
    | .sync m => s.syncMsg i { m with mac := mac }
    | .followUp m => s.followUp i { m with mac := mac }
    | .announce m => s.announceMsg i { m with mac := mac }
    | .delayResp m => s.delayResp i { m with mac := mac }) s

/-- R58, R77: what a missing 1PPS or a silent PTP instance does beside its reference. -/
def State.sourceQuiet (s : State) (k : Nat) (pps : Bool) : State :=
  if pps ∧ (k = 4 ∨ k = 5) then ({ s with ptp := { s.ptp with ppsLost := true } } : State).refQuiet (9 - k)
  else if k < 2 then (s.setInst k { s.inst k with quiet := true }).servoUpdate
  else s

/-- REF_ACTIVITY_TIMEOUT (R58, R60). -/
def execRefActivityTimeout (m : Missing) (s : State) : Out := .next ((s.sourceQuiet m.k m.pps).refQuiet m.k)

/-- PTP_DELAY_RESP (R73). -/
def execPtpDelayResp (i : Fin 2) (m : DelayRespMsg) (s : State) : Out := .next ((s.frameIn m.mac).delayResp i m)

/-- PTP_DELAY_REQ_TIMER (R73). -/
def execPtpDelayReqTimer (i : Fin 2) (s : State) : Out := .next (s.delayReq i)

/-- PTP_ANNOUNCE_TIMEOUT (R73). -/
def execPtpAnnounceTimeout (i : Fin 2) (s : State) : Out := .next (s.announceTimeout i)

/-- PTP_SET_REQ (R76): a write of PTP_CLK_CTL with SET_REQ set. -/
def execPtpSetReq (v : Word) (s : State) : Out := .next (s.ptpCtlWrite (v ||| 8))

/-- PTP_REARM (R76): a write of PTP_CLK_CTL with REARM set. -/
def execPtpRearm (v : Word) (s : State) : Out := .next (s.ptpCtlWrite (v ||| 16))

/-- PTP_SERVO_SELECT (R75): a write of PTP_CLK_CTL's SRC, SERVO and AUTO_SET fields. -/
def execPtpServoSelect (v : Word) (s : State) : Out := .next (s.ptpCtlWrite (v &&& 7))

/-- PTP_ADJ_WRITE (R75). -/
def execPtpAdjWrite (v : Word) (s : State) : Out := .next (s.adjWrite v)

/-- R79: a read of PTP_CLK_NS latches the seconds and the stamp of the same instant for its requester. -/
def State.clkNsRead (s : State) (q : Req) : State :=
  { s with
    rdata := BitVec.ofNat 32 s.ptpNs
    ptp := { s.ptp with latch := mapSet (fun _ => (0, 0, 0)) s.ptp.latch (reqKey q) (s.ptp.sec % 2 ^ 32, s.ptp.sec / 2 ^ 32, s.tstamp) } }

/-- PTP_CLK_NS_READ (R79). -/
def execPtpClkNsRead (q : Req) (s : State) : Out := .next (s.clkNsRead q)

/-- PPS_SECOND (R82): PPS_OUT rises at a whole second: the clock is in the first cycle of one. -/
def execPpsSecond (s : State) : Out := .next (s.when (decide (s.ptp.clk < s.incr)) State.ppsRise)

/-- R82, R491: a write of PTP_PPS_OUT ends a pulse in progress in the next cycle. A WIDTH of 0 or above 1,000 is taken as written
(notes/assumptions/112.md). -/
def State.ppsWrite (s : State) (v : Word) : State :=
  let s := s.setReg R.PTP_PPS_OUT (v &&& 0x7FF)
  if s.cycle < s.ptp.ppsUntil then { s with ptp := { s.ptp with ppsUntil := s.cycle + 1 } } else s

/-- PPS_OUT_WRITE (R491). -/
def execPpsOutWrite (v : Word) (s : State) : Out := .next (s.ppsWrite v)

end Sys2Proof.Machine
end

