-- ==== Sys2Proof/Machine/Rings.lean ====
section
/-!
DEFINITION. Sys2Proof/Machine/Rings.lean: the link, doorbells, the states of rings, descriptor fetch and validation, DMA
(05_host_interface_and_rings.md), and their commands.
-/
namespace Sys2Proof.Machine

/-! ## The link -/

/-- HIF_LINK_TRAINED (R85): the link has trained in CXL or PCIe mode; the host's ATS, PRI and PASID enables come with
it, with its allocation of page requests (R111) and its PASID width. Width 0, 1, 2 is x4, x8, x16; rate 0, 1 is 32, 64 GT/s; at
64 GT/s flits have 256 bytes (R84), so no other training occurs. In PCIe mode CXL.cache and CXL.mem are absent and DB_MODE reads 1.
Without ATS no translation is kept (R112); without PRI waiting work ends (R118). -/
def execHifLinkTrained (cxl : Bool) (width : Fin 3) (rate : Fin 2) (flit256 cache mem ats : Bool) (pri : Granted 513)
    (pasid : Granted 21) (s : State) : Out :=
  .next (s.when (rate.val == 0 || flit256) fun s =>
  let s := ((s.wr F.HIF_STATUS_MODE (if cxl then 1 else 2)).wr F.HIF_STATUS_WIDTH (width + 1)).wr F.HIF_STATUS_RATE (rate + 1)
  let s := ((s.wr F.HIF_STATUS_FLIT256 (bit flit256)).wr F.HIF_STATUS_CACHE (bit (cxl && cache))).wr F.HIF_STATUS_MEM (bit (cxl && mem))
  let s := ((s.wr F.XLT_STATUS_ATS_EN (bit ats)).wr F.XLT_STATUS_PRI_EN (bit pri.en)).wr F.XLT_STATUS_PASID_EN (bit pasid.en)
  let s := s.wr F.XLT_STATUS_PRI_STOPPED 0
  let s := { s with xlt := { s.xlt with alloc := pri.amount.val, pasidBits := pasid.amount.val, cache := if ats then s.xlt.cache else [] } }
  let s := if cxl then s else (s.wr F.HIF_STATUS_DECODER 0).wr F.HIF_CTL_DB_MODE 1
  if pri.en then s.retryWaiting else s.priEnd)

/-- HDM_DECODER_COMMIT (R87): in CXL mode. -/
def execHdmDecoderCommit (s : State) : Out :=
  .next (s.when (s.rd F.HIF_STATUS_MODE == 1) fun s => s.wr F.HIF_STATUS_DECODER 1)

/-- R87: the window's offset o: the crown and the offset in its stack. -/
def State.hdmFind (s : State) (o : Nat) : Nat → Nat → Option (Nat × Nat)
  | 0, _ => none
  | n + 1, d =>
    let g := s.rd (F.HIF_HDMd_SIZE_GIB d) * 2 ^ 30
    if o < g then some (d, 24 * 2 ^ 30 - g + o) else s.hdmFind (o - g) n (d + 1)

/-- R87: an offset of the HDM window, over crowns 1 to 7. -/
def State.hdm (s : State) (o : Nat) : Option (Nat × Nat) := s.hdmFind o 7 1

/-! ## Doorbells -/

/-- R92: a doorbell value is checked, and accepted, ignored, or puts the ring into ERROR. -/
def State.dbCheck (s : State) (r index dbgen : Nat) : State :=
  let st := s.ringState r
  let host := s.ringKind r == 0 || s.ringKind r == 5
  if st = 0 then s
  else if dbgen ≠ s.rd (F.RING_r_DBGEN_DBGEN r) then s.inc (F.RING_r_COUNT_STALE_DB r)
  else
    let d := (index + 2 ^ 32 - s.rd (F.RING_r_HOSTIDX_HOSTIDX r)) % 2 ^ 32
    let head := s.rd (F.RING_r_HEAD_HEAD r)
    let far := if host then (index + 2 ^ 32 - head) % 2 ^ 32 else (head + 2 ^ 32 - index) % 2 ^ 32
    if d = 0 then s
    else if d ≥ 2 ^ 31 then s.ringError r 0xB009
    else if far > s.ringSize r then s.ringError r 0xB008
    else
      let s := s.wr (F.RING_r_HOSTIDX_HOSTIDX r) index
      if host then s
      else
        let s := if s.ringKind r = 1 then (let s := s.drainHeld r 514; if st = 3 then s.closeBatch r else s) else s
        s.spillDrain r 65536

/-- DB_SNOOP (R91): the pinned line is invalidated: the ring is marked as rung. -/
def execDbSnoop (r : Fin 4096) (s : State) : Out :=
  .next (s.when (!s.mmio && ((s.ring r).pinned || (s.ring r).reading)) fun s =>
    if (s.ring r).reading then s.setRing r { s.ring r with again := true }
    else s.setRing r { s.ring r with pinned := false, rung := true })

/-- DB_HOLDOFF_EXPIRED (R91): with coherent doorbells; the device never reads the line otherwise (R93). -/
def execDbHoldoffExpired (r : Fin 4096) (s : State) : Out := .next (s.when ((s.ring r).rung && !s.mmio) fun s => s.readDoorbell r)

/-- DB_READ_RETURN (R91, R92): the line is held again and its value applied; a line invalidated meanwhile is read once
more. A read that faulted returns nothing until its page is present (R126). -/
def execDbReadReturn (r : Fin 4096) (index dbgen : Word) (s : State) : Out :=
  .next (s.when ((s.ring r).reading && !(s.ring r).fetchFault) fun s =>
    let again := (s.ring r).again
    let s := s.setRing r { s.ring r with reading := false, again := false, pinned := true }
    let s := s.dbCheck r index.toNat dbgen.toNat
    if again && !s.mmio then s.readDoorbell r else s)

/-- R93: whether a BAR2 write reaches ring r's doorbell. -/
def State.mmioTakes (s : State) (r : Nat) : Bool := s.mmio && s.on (F.RING_r_CTL_EN r)

/-- R93: a dropped BAR2 write. -/
def State.mmioDrop (s : State) : State := s.inc F.HIF_COUNT_MMIO_DROP

/-- R93: a BAR2 write at offset 0. -/
def State.mmioIndex (s : State) (r : Nat) (v : Word) : State :=
  if s.mmioTakes r then s.setRing r { s.ring r with latch := v } else s.mmioDrop

/-- R93, R488: a BAR2 write at offset 4 presents the latch, whichever enable it was written under. -/
def State.mmioPresent (s : State) (r : Nat) (v : Word) : State :=
  if s.mmioTakes r then s.dbCheck r (s.ring r).latch.toNat v.toNat else s.mmioDrop

/-- R93: one 8-byte BAR2 write at offset 0; dropped, it counts once. -/
def State.mmioBoth (s : State) (r : Nat) (index dbgen : Word) : State :=
  if s.mmioTakes r then (s.mmioIndex r index).mmioPresent r dbgen else s.mmioDrop

/-- R93: a 4-byte write at an offset of BAR2: a slot's doorbell, or the rest of a slot, which is dropped. -/
def State.bar2Write (s : State) (o : Nat) (v : Word) : State :=
  match o % 256 with
  | 0 => s.mmioIndex (o / 256) v
  | 4 => s.mmioPresent (o / 256) v
  | _ => s.mmioDrop

/-- MMIO_DB_INDEX (R93). -/
def execMmioDbIndex (r : Fin 4096) (index : Word) (s : State) : Out := .next (s.mmioIndex r index)

/-- MMIO_DB_PRESENT (R93). -/
def execMmioDbPresent (r : Fin 4096) (dbgen : Word) (s : State) : Out := .next (s.mmioPresent r dbgen)

/-- MMIO_DB_BOTH (R93). -/
def execMmioDbBoth (r : Fin 4096) (index dbgen : Word) (s : State) : Out := .next (s.mmioBoth r index dbgen)

/-! ## Enabling and disabling rings -/

/-- R141, R155: the lowest free queue of the root pool: neither enabled, now or by an ARMED set, nor held by a ring. -/
def State.freeQueue (s : State) : Option Nat :=
  let bs := s.bases
  (List.range 32768).find? fun q => bs.all (fun b => !b.on (F.SCH_Qq_CFG_EN 0 q)) && !s.on (F.SCH_Qq_STATUS_RING 0 q)

/-- R130: a spill area as (crown, first byte, end). -/
def State.spillArea (s : State) (r : Nat) : Nat × Nat × Nat :=
  let b := s.rd (F.XLT_SPILLr_BASE_PAGE r) * 4096
  (s.rd (F.XLT_SPILLr_CFG_CROWN r), b, b + s.rd (F.XLT_SPILLr_CFG_SIZE r) * 2 ^ 20)

/-- R130, R131: whether an OUT ring's spill block fails. -/
def State.badSpill (s : State) (r : Nat) : Bool :=
  let (d, a, e) := s.spillArea r
  let z := s.rd (F.XLT_SPILLr_CFG_SIZE r)
  d == 0 || decide (d > s.crowns) || z == 0 || decide (z > 1024) || decide (e > 24 * 2 ^ 30 - s.rd (F.HIF_HDMd_SIZE_GIB d) * 2 ^ 30) ||
    (List.range 4096).any fun q => q != r && s.ringKind q == 3 && s.ringState q != 0 &&
      (let (d', a', e') := s.spillArea q; d' == d && decide (a < e') && decide (a' < e))

/-- R107, R130: the check that setting EN runs, in the order of its table; 0 passes. -/
def State.ringCheck (s : State) (r : Nat) : Nat :=
  let kind := s.ringKind r
  let l := s.rd (F.RING_r_CFG_LOG2 r)
  let cpl := s.rd (F.RING_r_CFG_CPL r)
  let tl := s.rd (F.RING_r_CFG_TL r)
  let db := s.rd64 (F.RING_r_DB_LO_DB_LO r) (F.RING_r_DB_HI_DB_HI r)
  let gen := s.reg (R.RING_r_DBGEN r)
  if kind ≥ 6 then 0xB001
  else if l < 4 ∨ l > 22 then 0xB002
  else if s.ringBase r % 4096 ≠ 0 ∨ s.ringBase r = 0 ∨ db % 64 ≠ 0 ∨ s.rd (F.RING_r_WB_LO_WB_LO r) % 64 ≠ 0 ∨ (db = 0 ∧ !s.mmio) then 0xB003
  else if (kind = 0 ∨ kind = 5) ∧ !s.activeRing cpl 1 then 0xB005
  else if gen = 0 ∨ gen = (s.ring r).prevDbgen then 0xB007
  else if s.freeQueue.isNone then 0xB00A
  else if s.rd (F.RING_r_BATCH_BATCH_MAX r) = 0 ∨ s.rd (F.RING_r_BATCH_BATCH_US r) = 0 ∨ s.rd (F.RING_r_FLUSH_TICK r) ≥ s.tpf tl ∨
      (s.on (F.RING_r_BATCH_FLUSH_EN r) ∧ !s.tlRunning tl) then 0xB016
  else if kind = 3 ∧ s.badSpill r then 0xA802
  else if s.on (F.XLT_PASIDr_PEN r) ∧ (!s.on F.XLT_STATUS_PASID_EN ∨ 2 ^ s.xlt.pasidBits ≤ s.rd (F.XLT_PASIDr_PASID r)) then 0xA803
  else 0

/-- R107: a refused write of ring r: its STATUS takes the code, and XLT_STATUS does not (R129, notes/assumptions/134.md). -/
def State.ringRefuse (s : State) (r code : Nat) : State := s.refuse pHost [R.RING_r_STATUS r] code r

/-- R107: the ring becomes ACTIVE with both indices 0; in coherent mode its doorbell line is read and held. -/
def State.ringStart (s : State) (r : Nat) : State :=
  let q := s.freeQueue.getD 0
  let x := s.ring r
  let s := s.setRing r { RingSt.init with gapLost := x.gapLost, gapRec := x.gapRec, entryLost := x.entryLost, lossInfo := x.lossInfo, prevDbgen := s.reg (R.RING_r_DBGEN r), latch := x.latch, queue := some q, capHeld := x.capHeld, capData := x.capData }
  let s := (((s.wr (F.SCH_Qq_STATUS_RING 0 q) 1).wr (F.RING_r_HEAD_HEAD r) 0).wr (F.RING_r_HOSTIDX_HOSTIDX r) 0).wr (F.RING_r_CTL_EN r) 1
  let s := (s.wr (F.RING_r_STATUS_STATE r) 1).wr (F.RING_r_STATUS_GEN_STALL r) 0
  if s.mmio then s else s.readDoorbell r

/-- R107: a SUB or CAP ring that is not DISABLED names completion ring r. -/
def State.cplInUse (s : State) (r : Nat) : Bool :=
  (List.range 4096).any fun q => (s.ringKind q == 0 || s.ringKind q == 5) && s.ringState q != 0 && s.rd (F.RING_r_CFG_CPL q) == r

/-- R107: the ring drains: undispatched descriptors complete as FLUSHED, a CPL ring closes its batch, an OUT ring's
spill area is discarded. -/
def State.ringDrain (s : State) (r : Nat) : State :=
  let ds := (s.ring r).fetched
  let s := (s.wr (F.RING_r_STATUS_STATE r) 3).wr (F.RING_r_CTL_EN r) 0
  let s := (s.setRing r { s.ring r with fetched := [], fetchFault := false, stuck := false }).freePark (fetchWork r)
  let s := ds.foldl (fun s d => s.complete r d.idx (dTag d.words) (dNocpl d.words) 5 0 Wm.zero) s
  if s.ringKind r = 1 then ((s.closeBatch r).drainHeld r 514).closeBatch r
  else if s.ringKind r = 3 then (s.spillReset r).freePark (outWork r) else s

/-- R107: a write of RING_r_CTL. -/
def State.ringCtlWrite (s : State) (r : Nat) (en : Bool) : State :=
  match s.ringState r, en with
  | 0, true => if s.ringCheck r = 0 then s.ringStart r else s.ringRefuse r (s.ringCheck r)
  | 0, false => s
  | 3, true => s.ringRefuse r 0xB017
  | 3, false => s
  | _, true => s
  | st, false => if st = 1 ∧ s.ringKind r = 1 ∧ s.cplInUse r then s.ringRefuse r 0xB006 else s.ringDrain r

/-- RING_ENABLE (R107). -/
def execRingEnable (r : Fin 4096) (s : State) : Out := .next (s.ringCtlWrite r true)

/-- RING_DISABLE (R107). -/
def execRingDisable (r : Fin 4096) (s : State) : Out := .next (s.ringCtlWrite r false)

/-- R107: the ring's scheduler queue, if it has one, holds no ring. -/
def State.releaseQueue (s : State) (r : Nat) : State := (s.ring r).queue.elim s fun q => s.wr (F.SCH_Qq_STATUS_RING 0 q) 0

/-- R107: the ring's doorbell line is released. -/
def State.releaseLine (s : State) (r : Nat) : State := if (s.ring r).pinned then s.send (.cleanEvict r) else s

/-- R107: the drained ring makes its final write-back, releases its line and its queue, and is DISABLED. -/
def State.ringOff (s : State) (r : Nat) : State :=
  let s := (((s.setRing r { s.ring r with recFault := false }).freePark (recWork r)).writeBack r).releaseLine r |>.releaseQueue r
  let s := s.setRing r { s.ring r with pinned := false, rung := false, reading := false, again := false, queue := none }
  s.wr (F.RING_r_STATUS_STATE r) 0

/-- R107: a completion record of ring r's work has not yet been written to the CPL ring that it names. -/
def State.recordsOwed (s : State) (r : Nat) : Bool :=
  let c := s.ring (s.rd (F.RING_r_CFG_CPL r))
  (s.ringKind r == 0 || s.ringKind r == 5) && (c.batch ++ c.held).any fun x => x.ring == r

/-- RING_DRAIN_DONE (R107): every dispatched piece of work has its outcome and its records written, and nothing is held. -/
def execRingDrainDone (r : Fin 4096) (s : State) : Out :=
  .next (s.when (s.ringState r == 3 && !s.ringBusy r && !s.recordsOwed r && (s.ring r).held == [] && (s.ring r).batch == [] && ((s.ring r).gapLost == 0 || s.ringKind r != 1)) fun s => s.ringOff r)

/-- RING_DRAIN_STALL (R107): what a draining CPL ring still holds is discarded and counted. -/
def execRingDrainStall (r : Fin 4096) (s : State) : Out :=
  .next (s.when (s.ringState r == 3 && s.ringKind r == 1) fun s =>
    let s := s.closeBatch r
    let x := s.ring r
    let s := x.held.foldl (fun s c => s.dropRec r c) (s.setRing r { x with held := [] })
    (if x.gapLost = 0 then s else s.inc (F.RING_r_COUNT_LOST r)).ringOff r)

/-- R107, R164: the epoch of the ring's queue is revoked: it drains as on EN cleared, and dispatched work ends ABORTED
with 0xA809. -/
def State.ringRevoked (s : State) (r : Nat) : State :=
  if s.ringState r = 1 ∨ s.ringState r = 2 then
    let s := (s.ringDrain r).event pHost 0xBC01 0xFFFF r 0xA809
    let s := (s.jobsWhere fun j => j.ring == r).foldl (fun s k => s.stopJob k 2 0xA809) s
    (s.tasksWhere fun _ t => t.desc && t.ring == r).foldl (fun s k => s.stopTask (k / 65536) (k % 65536) 2 0xA809) s
  else s

/-! ## Batches and signals -/

/-- BATCH_TIMEOUT (R101, R105): a CPL ring's batch closes; a SUB or CAP ring's write-back that is due is written. -/
def execBatchTimeout (r : Fin 4096) (s : State) : Out :=
  .next (if s.ringKind r = 1 then s.closeBatch r else s.when (s.ring r).wbDue fun s => s.writeBack r)

/-- BATCH_FLUSH_TICK (R101): line time on timeline n stands at the flush tick of rings with FLUSH_EN. -/
def execBatchFlushTick (n : Fin 4) (s : State) : Out :=
  .next (s.when (s.tlRunning n) fun s => s.forRange 4096 fun r s =>
    s.when (s.ringKind r == 1 && s.ringState r != 0 && s.on (F.RING_r_BATCH_FLUSH_EN r) && s.rd (F.RING_r_CFG_TL r) == n.val &&
      s.rd (F.RING_r_FLUSH_TICK r) == stampTick (s.now n)) fun s => s.closeBatch r)

/-- R106: the vector's deferred signal is sent. -/
def State.signalDeferred (s : State) (v : Nat) : State :=
  let x := mapGet (fun _ => (none, none)) s.host.vecs v
  if x.2 = none then s
  else ({ s with host := { s.host with vecs := mapSet (fun _ => (none, none)) s.host.vecs v (x.1, none) } } : State).signalVec v
/-- IRQ_GAP_EXPIRED (R106). -/
def execIrqGapExpired (v : Fin 2048) (s : State) : Out := .next (s.signalDeferred v)

/-! ## Descriptor fetch -/

/-- R95: an opcode's ring kind (0 SUB, 5 CAP), whether it takes a TARGET, and its STREAM: 0 none, 1 required, 2 optional. -/
def opcodeRow (op : Nat) : Option (Nat × Bool × Nat) :=
  match op with
  | 0x01 => some (0, false, 0)
  | 0x02 => some (5, false, 0)
  | 0x03 => some (0, true, 0)
  | 0x04 => some (0, true, 0)
  | 0x10 => some (0, true, 1)
  | 0x11 => some (0, true, 1)
  | 0x20 => some (0, true, 1)
  | 0x30 => some (0, true, 2)
  | 0x31 => some (0, true, 2)
  | 0x40 => some (0, false, 0)
  | _ => none

/-- R97: checks 1 to 7 of a descriptor on ring r; 0 passes. -/
def State.descCheck (s : State) (r : Nat) (ws : List Word) : Nat :=
  let t := dTarget ws
  let x := dStream ws
  if fieldAt ws 0 18 1 = 1 ∧ crc32c (wordsBytes (ws.take 15)) ≠ wordAt ws 15 then 0xB00E
  else if fieldAt ws 0 19 13 ≠ 0 ∨ fieldAt ws 3 12 20 ≠ 0 then 0xB00F
  else match opcodeRow (dOpcode ws) with
    | none => 0xB00C
    | some (kind, target, stream) =>
      if kind ≠ s.ringKind r then 0xB014
      else if (if target then !s.pathOk t else t != 0) then 0xB00D
      else if (decide (x > 767) && x != 0x3FF) || (stream == 1 && x == 0x3FF) || (stream == 0 && x != 0x3FF) then 0xB015
      else if dDeadline ws ≠ 0 ∧ (!s.tlRunning (dTl ws) ∨ !later (dDeadline ws) (s.now (dTl ws))) then 0xB011
      else 0

/-- R105: the consumer index of a SUB or CAP ring has advanced: a write-back, at most once per BATCH_US. -/
def State.consumed (s : State) (r : Nat) : State :=
  let ok := match (s.ring r).wbAt with | some t => decide (t + s.rd (F.RING_r_BATCH_BATCH_US r) * 400 ≤ s.cycle) | none => true
  if ok then s.writeBack r else s.setRing r { s.ring r with wbDue := true }

/-- R97, R98: entry `ws` at the consumer index has been fetched: without GEN(i) the ring holds there; otherwise it is
validated, and waits for dispatch or completes REFUSED. -/
def State.fetched (s : State) (r : Nat) (words : List Word) : State :=
  let ws := (words ++ List.replicate 16 0).take 16
  let i := s.rd (F.RING_r_HEAD_HEAD r)
  let s := (s.send (.descFetch r i)).xlateEntry r i
  if fieldAt ws 0 8 8 ≠ s.gen r i then s.setRing r { s.ring r with stuck := true }
  else
    let s := (s.setRing r { s.ring r with stuck := false }).wr (F.RING_r_STATUS_GEN_STALL r) 0
    let s := (s.wr (F.RING_r_HEAD_HEAD r) (i + 1)).consumed r
    if s.descCheck r ws = 0 then s.setRing r { s.ring r with fetched := (s.ring r).fetched ++ [⟨i, ws⟩] }
    else
      -- R151: a CAPSULE refused here counts with the staging block's refusals
      let c := s.descCheck r ws
      let s := if fieldAt ws 0 0 8 = 0x02 then (s.inc F.STG_COUNT_REFUSED).reason R.STG_STATUS c else s
      s.refuseDesc r ⟨i, ws⟩ c

/-- R98, R126: an ACTIVE SUB or CAP ring with an entry before the accepted INDEX and no fetch waiting for a page. -/
def State.canFetch (s : State) (r : Nat) : Bool :=
  (s.activeRing r 0 || s.activeRing r 5) && s.rd (F.RING_r_HEAD_HEAD r) != s.rd (F.RING_r_HOSTIDX_HOSTIDX r) && !(s.ring r).fetchFault

/-- DESC_FETCH (R97). -/
def execDescFetch (r : Fin 4096) (words : List Word) (s : State) : Out := .next (s.when (s.canFetch r) fun s => s.fetched r words)

/-- DESC_POLL (R98): MMIO doorbells; the entry did not yet carry GEN(i). -/
def execDescPoll (r : Fin 4096) (words : List Word) (s : State) : Out :=
  .next (s.when (s.canFetch r && s.mmio && (s.ring r).stuck) fun s => s.fetched r words)

/-- DESC_LINE_INVALIDATED (R98): coherent doorbells; the cached line of the entry is invalidated. -/
def execDescLineInvalidated (r : Fin 4096) (words : List Word) (s : State) : Out :=
  .next (s.when (s.canFetch r && !s.mmio && (s.ring r).stuck) fun s => s.fetched r words)

/-- GEN_STALL_TIMEOUT (R98): no progress for STALL_MS. -/
def execGenStallTimeout (r : Fin 4096) (s : State) : Out :=
  .next (s.when (s.canFetch r && (s.ring r).stuck && !s.on (F.RING_r_STATUS_GEN_STALL r)) fun s =>
    ((s.wr (F.RING_r_STATUS_GEN_STALL r) 1).inc F.HIF_COUNT_GEN_STALLS).event pHost 0xBC02 0xFFFF r (s.rd (F.RING_r_HEAD_HEAD r)))

/-! ## NOP and DMA -/

/-- Words i to j of a body, all reserved. -/
def bodyZero (i j : Nat) : List (Nat × Word) := (List.range (j + 1 - i)).map fun k => (i + k, 0xFFFFFFFF)

/-- NOP (R95): DONE at dispatch; its whole body is zero. -/
def execNop (r : Fin 4096) (s : State) : Out :=
  .next (s.dispatch r 0x01 (bodyZero 6 14) (fun _ _ => 0) fun s d => s.complete r d.idx (dTag d.words) (dNocpl d.words) 0 0 Wm.zero)

/-- R96: the DMA check; 0 passes. -/
def State.dmaCheck (s : State) (d : Desc) : Nat :=
  let ws := d.words
  if (s.hbmOf (dTarget ws)).isNone ∨ dmaHost ws % 64 ≠ 0 ∨ dmaOff ws % 64 ≠ 0 ∨ dmaLen ws % 64 ≠ 0 ∨ dmaLen ws < 64 ∨ dmaLen ws > 2 ^ 30 ∨
      dmaOff ws + dmaLen ws > 24 * 2 ^ 30 then 0xB010 else 0

/-- DMA_H2D (R96): the copy starts. -/
def execDmaH2d (r : Fin 4096) (s : State) : Out :=
  .next (s.dispatch r 0x03 (bodyZero 11 14) State.dmaCheck fun s d => s.startJob r d .running)

/-- DMA_D2H (R96): the copy starts. -/
def execDmaD2h (r : Fin 4096) (s : State) : Out :=
  .next (s.dispatch r 0x04 (bodyZero 11 14) State.dmaCheck fun s d => s.startJob r d .running)

/-- R121: the watermark of a copy of n bytes. -/
def dmaWm (ws : List Word) (n : Nat) : Wm := ⟨0, n, (dmaOff ws + n) % 2 ^ 32, n⟩

/-- R96: bytes a to b of a copy go to their place; `data` is what the host link returned for an H2D copy from byte a on. -/
def State.dmaMove (s : State) (j : Job) (a b : Nat) (data : List Byte) : State :=
  let ws := j.words
  let s := s.xlateRange (s.ringPasid j.ring) (dmaHost ws + a) (b - a)
  match s.hbmOf (dTarget ws) with
  | some c =>
    if dOpcode ws = 0x03 then s.hbmWrite c (dmaOff ws + a) ((data ++ List.replicate (b - a - data.length) 0).take (b - a))
    else s.hostWrite (dmaHost ws + a) (s.hbmRead c (dmaOff ws + a) (b - a))
  | none => s

/-- R116: the first safe point beyond n bytes of a transfer of `total` bytes at a host address: a 4 KiB boundary, or its end
(notes/assumptions/96.md). -/
def pageStop (addr n total : Nat) : Nat := min total (n + (4096 - (addr + n) % 4096))

/-- R96, R121, R496: a running copy reaches its end: its bytes are in place and its record is written. A stop that was pending acts
at the next safe point, which may be the end. -/
def State.dmaComplete (s : State) (r : Fin 4096) (idx : Word) (data : List Byte) : State :=
  match s.job (descKey r idx) with
  | some j =>
    let ws := j.words
    if j.phase ≠ .running ∨ j.faulted ∨ (dOpcode ws ≠ 0x03 ∧ dOpcode ws ≠ 0x04) then s
    else
      let (n, o, c) := match j.stop with
        | some (o, c) => (pageStop (dmaHost ws) j.wm.bytes (dmaLen ws), o, c)
        | none => (dmaLen ws, 0, 0)
      ((s.dmaMove j j.wm.bytes n data).freePark (.desc r idx)).endJob (descKey r idx) o c (dmaWm ws n)
  | none => s

/-- DMA_COMPLETE (R121). -/
def execDmaComplete (r : Fin 4096) (idx : Word) (data : List Byte) (s : State) : Out := .next (s.dmaComplete r idx data)

end Sys2Proof.Machine
end

