-- ==== Sys2Proof/Machine/Ingest.lean ====
section
/-!
DEFINITION. Sys2Proof/Machine/Ingest.lean: ingest (09_ingest.md): the flow table and policing, packets, SDI lines, lines and
frames, the loss policy, the frame synchroniser, ANC capture, and the commands and checks of these. Pictures are held as
the input frames their lines come from.
-/
namespace Sys2Proof.Machine

/-! ## The flow table -/

def State.flow (s : State) (i : Nat) : Option FlowEnt := mapGet (fun _ => none) s.ing.flows i
def State.setFlow (s : State) (i : Nat) (x : Option FlowEnt) : State :=
  { s with ing := { s.ing with flows := mapSet (fun _ => none) s.ing.flows i x } }

/-- R173: the other fields of an entry. -/
def flowIp (ws : List Word) : Nat := wordAt ws 0
def flowPort (ws : List Word) : Nat := fieldAt ws 1 0 16
def flowAny (ws : List Word) : Bool := fieldAt ws 1 16 1 == 1
def flowPt (ws : List Word) : Nat := fieldAt ws 1 20 7
def flowPtCheck (ws : List Word) : Bool := fieldAt ws 1 27 1 == 1
def flowSsrc (ws : List Word) : Nat := wordAt ws 2
def flowRate (ws : List Word) : Nat := fieldAt ws 4 0 22
def flowBurst (ws : List Word) : Nat := fieldAt ws 5 0 24

/-- Network order bytes. -/
def bigBytes (n v : Nat) : List Byte := (natBytes n v).reverse

/-- R172: the bucket of a key. -/
def flowBucket (ip port ssrc : Nat) : Nat := crc32c (bigBytes 4 ip ++ bigBytes 2 port ++ bigBytes 4 ssrc) % 16384

def bucketOf (ws : List Word) : Nat := flowBucket (flowIp ws) (flowPort ws) (if flowAny ws then 0 else flowSsrc ws)

/-- R172: same key. -/
def sameKey (a b : List Word) : Bool :=
  flowIp a == flowIp b && flowPort a == flowPort b && flowAny a == flowAny b && (flowAny a || flowSsrc a == flowSsrc b)

/-- The entry of a bucket that satisfies a condition. -/
def State.inBucket (s : State) (b : Nat) (p : List Word → Bool) : Option Nat :=
  ((List.range 4).map fun w => b * 4 + w).find? fun i => match s.flow i with | some e => p e.words | none => false

/-- R172: the entry a packet matches: the exact key first, then any SSRC. -/
def State.flowMatch (s : State) (ip port ssrc : Nat) : Option Nat :=
  match s.inBucket (flowBucket ip port ssrc) fun ws => !flowAny ws && flowIp ws == ip && flowPort ws == port && flowSsrc ws == ssrc with
  | some i => some i
  | none => s.inBucket (flowBucket ip port 0) fun ws => flowAny ws && flowIp ws == ip && flowPort ws == port

/-- R188: an entry that breaks R173. -/
def flowBad (ws : List Word) : Bool :=
  fieldAt ws 1 28 4 != 0 || fieldAt ws 3 8 24 != 0 || fieldAt ws 4 22 10 != 0 || fieldAt ws 5 24 8 != 0 ||
  decide (flowKind ws ≥ 5) || (flowAny ws && flowSsrc ws != 0) ||
  ((flowKind ws == 0 || flowKind ws == 1 || flowKind ws == 4) && decide (flowTarget ws ≥ 96)) ||
  flowRate ws == 0 || decide (flowBurst ws < 1500)

/-- R132, R135: the values a register has: its active copy, and its shadow where a set claims it. -/
def State.copies (s : State) (a : Nat) : List Word :=
  s.reg a :: (match mapGet (fun _ => none) s.stg.claims a with | some (_, v) => [v] | none => [])

/-- R174: the entry is named by an enabled channel, or targets an audio stream enabled in its active copy or in a set. -/
def State.flowInUse (s : State) (i : Nat) (ws : List Word) : Bool :=
  (List.range 96).any (fun c => s.chOn c && (s.copies (R.ING_CHc_SRC c)).any fun v => getBits v 0 2 != 2 && getBits v 16 16 == i) ||
  ((flowKind ws == 2 || flowKind ws == 3) && (s.copies (R.AUD_STRa_CFG (flowTarget ws))).any fun v => getBits v 0 1 == 1)

/-- The staged entry words. -/
def State.flowStage (s : State) : List Word := (List.range 6).map fun i => s.reg (R.FLOW_STAGE i)

/-- R489: the result of a flow operation: bits [31:16] read 0x0001 on success and the code on failure. -/
def State.flowFail (s : State) (code : Nat) : State := s.refuse pIngest [R.FLOW_RESULT] code R.FLOW_OP
def State.flowOk (s : State) : State := s.reason R.FLOW_RESULT 1
def State.showFill (s : State) : State := s.wr F.FLOW_FILL_USED s.ing.flows.length

/-- R174: ADD of the staged entry into a free way of its bucket. What fill its token bucket starts with is open
(notes/assumptions/4.md). -/
def State.flowAdd (s : State) : State :=
  let ws := s.flowStage
  let b := bucketOf ws
  if flowBad ws then s.flowFail 0x6013
  else if (s.inBucket b (sameKey ws)).isSome then s.flowFail 0x6011
  else match ((List.range 4).map fun w => b * 4 + w).find? fun i => (s.flow i).isNone with
    | none => s.flowFail 0x6010
    | some i =>
      let fill := s.free 3 % (flowBurst ws * 50000 + 1)
      ((((s.setFlow i (some ⟨ws, fill, s.cycle, none, 0, 0, 0⟩)).tick.wr F.FLOW_RESULT_INDEX i).flowOk).showFill)

/-- FLOW_ADD (R174). -/
def execFlowAdd (s : State) : Out := .next s.flowAdd

/-- R174: the fields of an entry other than RATE and BURST. -/
def flowFixed (ws : List Word) : List Word := ws.take 4

/-- R175: the entry's bucket filled up to this cycle. -/
def State.filled (s : State) (e : FlowEnt) : Nat :=
  min (flowBurst e.words * 50000) (e.fill + (s.cycle - e.filledAt) * flowRate e.words)

/-- R174: ADD with REPLACE = 1: the entry with the key is overwritten; its bucket keeps its fill, clipped. -/
def State.flowReplace (s : State) : State :=
  let ws := s.flowStage
  if flowBad ws then s.flowFail 0x6013
  else match s.inBucket (bucketOf ws) (sameKey ws) with
    | none => s.flowFail 0x6011
    | some i => match s.flow i with
      | none => s.flowFail 0x6011
      | some e =>
        if s.flowInUse i e.words ∧ flowFixed e.words ≠ flowFixed ws then s.flowFail 0x6012
        else ((s.setFlow i (some { e with words := ws, fill := min (s.filled e) (flowBurst ws * 50000), filledAt := s.cycle })).wr F.FLOW_RESULT_INDEX i).flowOk

/-- FLOW_REPLACE (R174). -/
def execFlowReplace (s : State) : Out := .next s.flowReplace

/-- R174: DELETE. -/
def State.flowDelete (s : State) (i : Nat) : State :=
  match s.flow i with
  | none => s.flowFail 0x6014
  | some e => if s.flowInUse i e.words then s.flowFail 0x6012 else ((s.setFlow i none).flowOk).showFill

/-- FLOW_DELETE (R174). -/
def execFlowDelete (i : Fin 65536) (s : State) : Out := .next (s.flowDelete i)

/-- R174: READ copies the entry and its counters. -/
def State.flowRead (s : State) (i : Nat) : State :=
  match s.flow i with
  | none => s.flowFail 0x6014
  | some e =>
    let s := s.forRange 6 fun w s => s.setReg (R.FLOW_READ w) (e.words.getD w 0)
    (((s.wr F.FLOW_CNT_PKT_PKTS e.pkts).wr F.FLOW_CNT_DROP_DROPS e.drops).wr F.FLOW_CNT_GAP_GAPS e.gaps).flowOk

/-- FLOW_READ (R174). -/
def execFlowRead (i : Fin 65536) (s : State) : Out := .next (s.flowRead i)

/-- R187: a write of FLOW_OP. -/
def State.flowOpWrite (s : State) (v : Word) : State :=
  match getBits v 0 2 with
  | 1 => if getBits v 2 1 = 1 then s.flowReplace else s.flowAdd
  | 2 => s.flowDelete (getBits v 16 16)
  | 3 => s.flowRead (getBits v 16 16)
  | _ => s

/-! ## Channels -/

def State.ingCh (s : State) (c : Nat) : IngCh := mapGet (fun _ => IngCh.init) s.ing.chans c
def State.setIngCh (s : State) (c : Nat) (x : IngCh) : State :=
  { s with ing := { s.ing with chans := mapSet (fun _ => IngCh.init) s.ing.chans c x } }

def State.ingState (s : State) (c : Nat) : Nat := s.rd (F.ING_CHc_STATUS_STATE c)
def State.chWidth (s : State) (c : Nat) : Nat := s.rd (F.ING_CHc_FMT_WIDTH c)
def State.chHeight (s : State) (c : Nat) : Nat := s.rd (F.ING_CHc_FMT_HEIGHT c)
def State.chLocked (s : State) (c : Nat) : Bool := !s.on (F.ING_CHc_CFG_FSYNC c)

/-- The count of the channel frame that has started last, and the position of line time. -/
def State.chFrameNow (s : State) (c : Nat) : Nat := mapGet (fun _ => 0) s.lt.chFrame c - 1
def State.chUnits (s : State) (c : Nat) : Nat := s.units (s.chTl c)

/-- R41: fraction units of a channel frame. -/
def State.framePeriod (s : State) (c : Nat) : Nat := s.tpf (s.chTl c) * 4096 * ratioDen (s.chRatio c) / ratioNum (s.chRatio c)

/-- R424: the state of a channel's ingest changes, with its event where the list of events has one. -/
def State.setIngState (s : State) (c st : Nat) (ev : Bool) : State :=
  let s := s.wr (F.ING_CHc_STATUS_STATE c) st
  if ev then s.event pIngest 0x6C01 c (s.chFrameNow c) st (some (s.chTl c)) else s

/-- R177: the last good frame, or black. -/
def IngCh.lastGood (x : IngCh) : Picture := x.good.getD .black

/-- The frame a line of a picture comes from. -/
def Picture.lineFrom (p : Picture) (l : Nat) : Option Nat :=
  match p with
  | .frame n sub => match sub.find? (fun e => e.1 == l) with | some (_, f) => f | none => some n
  | _ => none

def State.frameRx (s : State) (c n : Nat) : FrameRx := mapGet (fun _ => FrameRx.init) (s.ingCh c).rx n
def State.setFrameRx (s : State) (c n : Nat) (x : FrameRx) : State :=
  let i := s.ingCh c
  s.setIngCh c { i with rx := mapSet (fun _ => FrameRx.init) i.rx n x }

/-- Whether line l of an input frame has come in whole and undamaged. -/
def State.lineGood (s : State) (c : Nat) (x : FrameRx) (l : Nat) : Bool :=
  decide (s.chWidth c ≤ mapGet (fun _ => 0) x.cover l) && !x.bad.contains l

/-! ## The frame store -/

/-- R182: bits of a sample, and bits a pixel takes. -/
def State.storeDepth (s : State) (c : Nat) : Nat := if s.on (F.ING_CHc_FMT_DEPTH c) then 12 else 10
def State.storeBpp (s : State) (c : Nat) : Nat := (if s.rd (F.ING_CHc_FMT_SAMPLING c) = 0 then 2 else 3) * s.storeDepth c

/-- R182: pages one frame takes. -/
def State.storePages (s : State) (c : Nat) : Nat := (s.chWidth c * s.chHeight c * s.storeBpp c + 32767) / 32768
def State.storeSlots (s : State) (c : Nat) : Nat := if s.chLocked c then 2 else 3
def State.storeNeed (s : State) (c : Nat) : Nat := s.storeSlots c * s.storePages c

/-- The bit of the crown's stack at which a pixel of a store slot lies: pixels in raster order, without padding
(notes/assumptions/113.md). -/
def State.storeBit (s : State) (c slot x y : Nat) : Nat :=
  (s.rd (F.ING_CHc_FS_BASE_PAGE c) + slot * s.storePages c) * 4096 * 8 + (y * s.chWidth c + x) * s.storeBpp c

/-- The crowns that carry channel c (R31). -/
def State.chCrowns (s : State) (c : Nat) : List Nat := ((s.placements c).map (·.1)).eraseDups

/-- Put the samples of pixels of a line, from pixel x on, into a slot of the store on every crown that carries the channel; each
line of the HDM window takes a back-invalidate snoop first (R87). -/
def State.fsPut (s : State) (c slot x y : Nat) (ps : List (Nat × Nat × Nat)) : State :=
  let dep := s.storeDepth c
  let v := fun (p : Nat × Nat × Nat) => p.1 % 2 ^ dep + p.2.1 % 2 ^ dep * 2 ^ dep +
    if s.rd (F.ING_CHc_FMT_SAMPLING c) = 0 then 0 else p.2.2 % 2 ^ dep * 2 ^ (2 * dep)
  (s.chCrowns c).foldl (fun s d => ps.zipIdx.foldl (fun s (p, i) => s.hbmBits d (s.storeBit c slot (x + i) y) (s.storeBpp c) (v p))
    (s.snoopBits d (s.storeBit c slot x y) (ps.length * s.storeBpp c))) s

/-- The samples of a pixel in a slot of the store of crown d. -/
def State.fsGet (s : State) (c d slot x y : Nat) : Nat × Nat × Nat :=
  let dep := s.storeDepth c
  let v := s.hbmBitsAt d (s.storeBit c slot x y) (s.storeBpp c)
  (v % 2 ^ dep, v / 2 ^ dep % 2 ^ dep, v / 2 ^ (2 * dep) % 2 ^ dep)

/-- R180: black at the declared range, of a channel's declared sampling and depth. -/
def State.blackPx (s : State) (c : Nat) : Nat × Nat × Nat :=
  let low := if s.on (F.ING_CHc_FMT2_FULL c) then 0 else 2 ^ (s.storeDepth c - 4)
  if s.rd (F.ING_CHc_FMT_SAMPLING c) = 2 then (low, low, low) else (low, 2 ^ (s.storeDepth c - 1), 2 ^ (s.storeDepth c - 1))

/-- The slot that holds input frame n. -/
def State.fsSlot (s : State) (c n : Nat) : Option Nat := ((s.ingCh c).slots.find? fun e => e.1 == n).map (·.2)

/-- The input frame whose slot of the store a picture is read from. -/
def Picture.frame? : Picture → Option Nat
  | .frame n _ => some n
  | _ => none

/-- The input frames that something still reads or writes: those that come in, the last good one, and the one that is delivered. -/
def IngCh.live (x : IngCh) : List Nat := x.rx.map (·.1) ++ [x.good.getD .black, x.shown].filterMap Picture.frame?

/-- R181: an input frame takes a slot that no read uses: a free one, or that of the oldest complete frame that waits to be chosen,
which then is passed over. With none it takes the one its number names. -/
def State.fsTake (s : State) (c n : Nat) : State :=
  if (s.fsSlot c n).isSome then s
  else
    let x := s.ingCh c
    let waits := (x.store.filterMap fun f => f.pic.frame?).filter fun m => !x.live.contains m
    let used := x.slots.filter fun e => x.live.contains e.1 || waits.contains e.1
    let free := (List.range (s.storeSlots c)).find? fun i => used.all fun e => e.2 != i
    let passed := waits.findSome? fun m => (used.find? fun e => e.1 == m).map (·.2)
    let i := free.getD (passed.getD (n % s.storeSlots c))
    let gone := (used.filter fun e => e.2 == i).map (·.1)
    s.setIngCh c { x with
      slots := used.filter (fun e => e.2 != i) ++ [(n, i)]
      store := x.store.filter fun f => match f.pic.frame? with | some m => !gone.contains m | none => true }

/-- R177: the same line of the last good frame, or black, takes the place of line l of input frame n. -/
def State.fsMend (s : State) (c n l : Nat) : State :=
  let s := s.fsTake c n
  let old := match (s.ingCh c).lastGood with | .frame m _ => s.fsSlot c m | _ => none
  let slot := (s.fsSlot c n).getD 0
  let px := (List.range (s.chWidth c)).map fun x => match old, (s.chCrowns c).head? with
    | some o, some d => s.fsGet c d o x l
    | _, _ => s.blackPx c
  s.fsPut c slot 0 l px

/-! ## Judging frames -/

/-- R177, R179: a completed frame of channel c is judged. -/
def State.judge (s : State) (c n : Nat) (damaged : Nat) (sub : List (Nat × Option Nat)) : State :=
  let x := s.ingCh c
  let ok := decide (damaged ≤ s.rd (F.ING_CHc_CFG_ERR_LINES c))
  let pic := if ok then Picture.frame n sub else x.lastGood
  let s := if ok then s else s.inc (F.ING_CHc_CNT_FRAMES_BAD c)
  let x := { x with
    good := if ok then some pic else x.good
    shown := if s.chLocked c && s.ingState c == 2 then pic else x.shown
    store := if s.chLocked c then [] else (x.store ++ [(⟨x.whole, n, pic, s.chUnits c⟩ : Stored)]).drop ((x.store.length + 1) - 3)
    whole := x.whole + 1
    rx := mapKeep (fun k => decide (n < k)) x.rx }
  let s := s.setIngCh c x
  match s.ingState c, ok with
  | 1, true => s.setIngState c 2 false
  | 3, true =>
    if x.recov + 1 ≥ s.rd (F.ING_CHc_CFG_RECOVER c) then (s.setIngCh c { x with recov := 0 }).setIngState c 2 true
    else s.setIngCh c { x with recov := x.recov + 1 }
  | 3, false => s.setIngCh c { x with recov := 0 }
  | _, _ => s

/-- R181: an input frame of a channel with FSYNC = FRAME ends: lines that did not come in whole are damaged. -/
def State.closeFrame (s : State) (c n : Nat) : State :=
  let x := s.frameRx c n
  let bad := (List.range (s.chHeight c)).filter fun l => !s.lineGood c x l
  let sub := bad.map fun l => (l, (s.ingCh c).lastGood.lineFrom l)
  let s := bad.foldl (fun s l => s.fsMend c n l) s
  (s.add (F.ING_CHc_CNT_LINES_DAMAGED c) bad.length).judge c n bad.length sub

/-- R178: the least arrival margin of a frame's lines, in 1/16 line. -/
def State.frameMargin (s : State) (c n : Nat) : Option Int :=
  let per := max 1 (s.framePeriod c / s.chLines c)
  ((s.frameRx c n).done.map fun (l, t) => ((s.linePos c n (l + 1) : Int) - t) * 16 / per).min?

/-- R178: after a locked channel frame, MARGIN and UNLOCKED; `neg` lines had not come by their completion. MARGIN keeps its value
where the last byte of no line has come. -/
def State.showMargin (s : State) (c n neg : Nat) : State :=
  let m := s.frameMargin c n
  let s := m.elim s fun m => s.wrS (F.ING_CHc_MARGIN_MARGIN c) m
  let late := decide (s.chHeight c < 2 * neg)
  let prev := (s.ingCh c).prevNeg
  let s := s.setIngCh c { s.ingCh c with prevNeg := late }
  if late && prev && !s.on (F.ING_CHc_STATUS_UNLOCKED c) then
    (s.wr (F.ING_CHc_STATUS_UNLOCKED c) 1).event pIngest 0x6C02 c (wrap 32 (m.getD 0)) 0 (some (s.chTl c))
  else if neg = 0 && decide (m.getD 0 > 0) then s.wr (F.ING_CHc_STATUS_UNLOCKED c) 0
  else s

/-- R177, R178: line l of locked channel frame n completes, whole or damaged; it is late when its last byte has not come. -/
def State.lockedLine (s : State) (c n l : Nat) : State :=
  let rx := s.frameRx c n
  if s.lineGood c rx l then s
  else
    let late := (rx.done.find? (fun e => e.1 == l)).isNone
    let s := s.fsMend c n l
    let x := s.ingCh c
    let s := s.setIngCh c { x with
      damaged := x.damaged + 1, neg := if late then x.neg + 1 else x.neg, subst := x.subst ++ [(l, x.lastGood.lineFrom l)] }
    let s := s.inc (F.ING_CHc_CNT_LINES_DAMAGED c)
    if late then s.inc (F.ING_CHc_CNT_LINES_LATE c) else s

/-- R178: line time reaches the position of line l + 1 of the channel frame, and line l completes. -/
def State.ingLine (s : State) (c : Nat) : State :=
  let n := s.chFrameNow c
  let x := s.ingCh c
  let l := x.next
  let s := if s.chLocked c then s.lockedLine c n l else s
  let s := s.setIngCh c { s.ingCh c with next := l + 1, lineAt := (s.ingCh c).lineAt ++ [s.cycle] }
  if s.chLocked c ∧ l + 1 = s.chHeight c then
    let y := s.ingCh c
    (s.showMargin c n y.neg).judge c n y.damaged y.subst
  else s

/-- The next line of the channel frame has its completion position behind line time. -/
def State.lineDue (s : State) (c : Nat) : Bool :=
  let l := (s.ingCh c).next
  s.chOn c && s.tlRunning (s.chTl c) && mapGet (fun _ => 0) s.lt.chFrame c != 0 && decide (l < s.chHeight c) &&
    decide (s.linePos c (s.chFrameNow c) (l + 1) ≤ s.chUnits c)

/-! ## Content -/

/-- Valid data has arrived (R179). -/
def State.validData (s : State) (c : Nat) : State := s.setIngCh c { s.ingCh c with lastValid := s.chUnits c }

/-- R177: a row of samples lies within the declared picture and is of its sampling and depth. -/
def State.rowFits (s : State) (c : Nat) (r : IngRow) : Bool :=
  r.fits && decide (r.line < s.chHeight c ∧ r.off + r.px.length ≤ s.chWidth c)

/-- R177: a row of samples joins its line; one outside the picture, or of another sampling or depth, damages it. The samples of a line
that has completed on the raster of a locked channel come too late: another line stands in its place. -/
def State.putRow (s : State) (c n : Nat) (r : IngRow) : State :=
  if r.line ≥ s.chHeight c then s
  else
    let x := s.frameRx c n
    let ok := s.rowFits c r
    let got := mapGet (fun _ => 0) x.cover r.line + r.px.length
    let done := if r.off + r.px.length ≥ s.chWidth c ∧ (x.done.find? (fun e => e.1 == r.line)).isNone then x.done ++ [(r.line, s.chUnits c)] else x.done
    let mended := s.chLocked c && n == s.chFrameNow c && decide (r.line < (s.ingCh c).next)
    let s := if ok ∧ !mended then (s.fsTake c n).fsPut c (((s.fsTake c n).fsSlot c n).getD 0) r.off r.line r.px else s
    s.setFrameRx c n { cover := mapSet (fun _ => 0) x.cover r.line got, bad := if ok then x.bad else x.bad ++ [r.line], done := done }

/-- R181: with FSYNC = FRAME, data of a later frame ends the earlier ones. -/
def State.framesEnd (s : State) (c n : Nat) : State :=
  if s.chLocked c then s else (((s.ingCh c).rx.map (·.1)).filter (· < n)).foldl (fun s k => s.closeFrame c k) s

/-- R181: with FSYNC = FRAME, a frame whose lines are all in ends. -/
def State.frameAdvance (s : State) (c n : Nat) : State :=
  if s.chLocked c then s
  else
    if (s.frameRx c n).cover.length ≥ s.chHeight c ∧ (List.range (s.chHeight c)).all (fun l => decide (s.chWidth c ≤ mapGet (fun _ => 0) (s.frameRx c n).cover l))
    then s.closeFrame c n else s

/-- R177, R179: rows of an input frame, unless the frame has been judged. They are valid data when every row passes. -/
def State.putRows (s : State) (c n : Nat) (rs : List IngRow) : State :=
  let stale := if s.chLocked c then decide (n < s.chFrameNow c) else (s.ingCh c).store.any fun f => decide (n ≤ f.num)
  let s := s.when (rs.all (s.rowFits c)) fun s => s.validData c
  if stale then s else (rs.foldl (fun s r => s.putRow c n r) (s.framesEnd c n)).frameAdvance c n

/-- R184: the checks of an ANC packet: even parity in bit 8 and its inverse in bit 9 of each word, and the checksum of
the low nine bits (ST 291, notes/assumptions/37.md). -/
def ancWordOk (w : Nat) : Bool :=
  let p := ((List.range 8).filter fun i => w / 2 ^ i % 2 == 1).length % 2
  w / 256 % 2 == p && w / 512 % 2 == 1 - p
def ancOk (a : AncPkt) : Bool :=
  let n := a.words.length
  let body := a.words.take (n - 1)
  let cs := a.words.getD (n - 1) 0
  let sum := (body.map (· % 512)).sum % 512
  decide (4 ≤ n) && (body.take 3).all ancWordOk && a.words.getD 2 0 % 256 == n - 4 && cs % 512 == sum && cs / 512 % 2 == 1 - cs / 256 % 2

/-- R184: a filter matches DID and SDID; zero matches nothing. -/
def State.ancMatch (s : State) (c : Nat) (a : AncPkt) : Bool :=
  let k := a.words.getD 0 0 % 256 + a.words.getD 1 0 % 256 * 256
  [s.rd (F.ING_CHc_ANCF_FILT0 c), s.rd (F.ING_CHc_ANCF_FILT1 c)].any fun f => f != 0 && f == k

/-- R185: the bytes of a capture record of channel frame n. -/
def State.ancRecord (s : State) (c n : Nat) (a : AncPkt) : List Byte :=
  let dc := a.words.length - 4
  let st := s.unitStamp (s.chTl c) (s.linePos c n (a.line + 1))
  let head := natBytes 4 (a.words.getD 0 0 % 256 + a.words.getD 1 0 % 256 * 256 + dc % 256 * 2 ^ 16 + bit a.c * 2 ^ 24) ++
    natBytes 4 (a.line % 2 ^ 14 + a.hoff % 2 ^ 14 * 2 ^ 14) ++ natBytes 8 st
  let body := (a.words.drop 3).take dc |>.flatMap fun w => natBytes 2 (w % 1024)
  head ++ body ++ List.replicate ((16 - body.length % 16) % 16) 0

/-- Write bytes to the ANC area on every crown that carries the channel (R31). -/
def State.ancPut (s : State) (c : Nat) (bs : List Byte) : State :=
  let size := s.rd (F.ING_CHc_ANC_CFG_SIZE c) * 2 ^ 20
  let idx := s.rd (F.ING_CHc_ANC_IDX_IDX c)
  let off := s.rd (F.ING_CHc_ANC_BASE_PAGE c) * 4096 + idx % size
  let s := (s.chCrowns c).foldl (fun s d => s.hbmWrite d off bs) s
  s.wr (F.ING_CHc_ANC_IDX_IDX c) (idx + bs.length)

/-- R184, R185: an ANC packet that a filter matches, of channel frame n, is captured and passed on. -/
def State.ancKeep (s : State) (c n : Nat) (a : AncPkt) : State :=
  let s := s.setIngCh c { s.ingCh c with anc := (s.ingCh c).anc ++ [(n, a)] }
  let size := s.rd (F.ING_CHc_ANC_CFG_SIZE c) * 2 ^ 20
  if size = 0 then s
  else
    let bs := s.ancRecord c n a
    let room := size - s.rd (F.ING_CHc_ANC_IDX_IDX c) % size
    let s := if room < bs.length then s.ancPut c (List.replicate room 0) else s
    s.ancPut c bs

/-- R184, R185: an ANC packet of input frame n: dropped on a bad check, kept when a filter matches. With FSYNC = FRAME its line
completes in the channel frame that reads its input frame, so it waits for that one; where no frame is read, or that frame is read
already, it counts to the channel frame in progress (notes/assumptions/114.md). -/
def State.ancTake (s : State) (c n : Nat) (a : AncPkt) : State :=
  if !ancOk a then s.inc (F.ING_CHc_CNT_SYNC_ANC_BAD c)
  else if !s.ancMatch c a then s
  else if s.chLocked c then s.ancKeep c n a
  else if s.ingState c ≠ 2 ∨ (s.ingCh c).chosen.any (fun e => decide (n ≤ e.2)) then s.ancKeep c (s.chFrameNow c) a
  else s.setIngCh c { s.ingCh c with held := (s.ingCh c).held ++ [(n, a)] }

/-- R185: the ANC packets that wait, of the input frames that satisfy a condition, are kept with the channel frame that starts. -/
def State.ancRead (s : State) (c : Nat) (p : Nat → Bool) : State :=
  let x := s.ingCh c
  let s := s.setIngCh c { x with held := x.held.filter fun e => !p e.1 }
  (x.held.filter fun e => p e.1).foldl (fun s e => s.ancKeep c (s.chFrameNow c) e.2) s

/-! ## Packets -/

/-- R176 step 5: what a sequence number does: late or duplicate, or the packets missing before it. -/
def seqGap (kind : Nat) (last : Option Nat) (seq : Nat) : Option Nat :=
  let m := if kind = 0 then 2 ^ 32 else 2 ^ 16
  match last with
  | none => some 0
  | some l =>
    let g := (seq % m + m - (l + 1) % m) % m
    if g < m / 2 then some g else none

/-- R176 step 6: the content of an accepted packet goes where its entry says. -/
def State.content (s : State) (i : Nat) (ws : List Word) (x : IngPkt) : State :=
  let c := flowTarget ws
  match flowKind ws with
  | 2 => (x.audio.zipIdx).foldl (fun s (f, k) => s.audRtp c (x.ts + k) f) s
  | 3 => (x.audio.zipIdx).foldl (fun s (f, k) => s.audRtp c (x.ts + k) f) s
  | 4 => if s.chOn c then x.anc.foldl (fun s a => s.ancTake c x.frame a) s else s
  | k => if s.chOn c ∧ s.rd (F.ING_CHc_SRC_KIND c) = k ∧ s.rd (F.ING_CHc_SRC_FLOW c) = i then s.putRows c x.frame x.rows else s

/-- R78, R176: a packet at the classifier: its MAC stamps it; PTP messages go to the PTP instances. -/
def State.ingPacket (s : State) (x : IngPkt) : State :=
  let s := s.stampRx x.mac
  let noMatch := s.inc F.ING_COUNT_NO_MATCH
  if x.udp = 319 ∨ x.udp = 320 then (match x.ptp with | some m => s.when (ptpPort m == x.udp) fun s => s.ptpDeliver x.mac m | none => s)
  else match s.flowMatch x.dst x.udp x.ssrc with
    | none => noMatch
    | some i => match s.flow i with
      | none => noMatch
      | some e =>
        let fill := s.filled e
        let e := { e with fill := fill, filledAt := s.cycle }
        if fill < x.bytes * 50000 then s.setFlow i (some { e with drops := min (e.drops + 1) (2 ^ 32 - 1) })
        else
          let e := { e with fill := fill - x.bytes * 50000 }
          if x.version ≠ 2 ∨ (flowPtCheck e.words ∧ x.pt ≠ flowPt e.words) then (s.setFlow i (some e)).inc F.ING_COUNT_NO_MATCH
          else match seqGap (flowKind e.words) e.seq x.seq with
            | none => s.setFlow i (some e)
            | some g =>
              let m := if flowKind e.words = 0 then 2 ^ 32 else 2 ^ 16
              let e := { e with seq := some (x.seq % m), gaps := min (e.gaps + g) (2 ^ 32 - 1), pkts := (e.pkts + 1) % 2 ^ 32 }
              (s.setFlow i (some e)).content i e.words x

/-- ING_PACKET (R176), at a port that is up (R396). -/
def execIngPacket (x : IngPkt) (s : State) : Out := .next (s.when (s.macUp x.mac) fun s => s.ingPacket x)

/-- R177: the payload ID disagrees with FMT and FMT2. -/
def State.idDiffers (s : State) (c : Nat) (d : SdiId) : Bool :=
  d.width != s.chWidth c || d.height != s.chHeight c || d.sampling != s.rd (F.ING_CHc_FMT_SAMPLING c) ||
  d.depth != s.rd (F.ING_CHc_FMT_DEPTH c) || d.interlace != s.on (F.ING_CHc_FMT_INTERLACE c) ||
  d.base != s.rd (F.ING_CHc_FMT2_BASE c) || d.drop != s.on (F.ING_CHc_FMT2_DROP c) ||
  d.color != s.rd (F.ING_CHc_FMT2_COLOR c) || d.full != s.on (F.ING_CHc_FMT2_FULL c)

/-- R177: the checks of an SDI line of channel c fail. -/
def State.sdiDamaged (s : State) (c : Nat) (x : SdiLine) : Bool :=
  !(x.crc && x.trs && x.num == x.place && !(s.rd (F.ING_CHc_SRC_LINKS c) != 0 && decide (x.skew > 4000)))

/-- R177: an SDI line of channel c. -/
def State.sdiLine (s : State) (c : Nat) (x : SdiLine) : State :=
  if !s.chOn c ∨ s.rd (F.ING_CHc_SRC_KIND c) ≠ 2 then s
  else
    let wrongId := match x.id with | some d => s.idDiffers c d | none => false
    let ok := !s.sdiDamaged c x
    let s := if wrongId then
        s.setFrameRx c x.frame { s.frameRx c x.frame with bad := (s.frameRx c x.frame).bad ++ List.range (s.chHeight c) }
      else s
    let s := match x.line with
      | some l =>
        let v := (s.ingCh c).lastValid
        let s := s.putRows c x.frame [⟨l, 0, x.px, ok⟩]
        if x.crc then s.validData c else s.setIngCh c { s.ingCh c with lastValid := v }
      | none => if x.crc then s.validData c else s
    let s := x.audio.foldl (fun s (g, f) =>
      if s.rd (F.ING_CHc_AUD_GROUPS c) / 2 ^ g.val % 2 = 1 then s.audSdi ((s.rd (F.ING_CHc_AUD_STREAM c) + g.val) % 256) f else s) s
    x.anc.foldl (fun s a => s.ancTake c x.frame a) s

/-- R369: entries that mirror channel c, sending (`dir` false) or receiving. -/
def State.mirrors (s : State) (c : Nat) (dir : Bool) : List Nat :=
  (List.range 16).filter fun k => s.on (F.TWIN_MIRRORk_EN k) && s.on (F.TWIN_MIRRORk_DIR k) == dir && s.rd (F.TWIN_MIRRORk_CHANNEL k) == c

/-- R369: the checked line of a channel is forwarded with its damage mark; mirroring takes all four lanes (R368). -/
def State.mirrorOut (s : State) (c : Nat) (x : SdiLine) : State :=
  if s.on F.TWIN_CFG_EN ∧ s.rd F.TWIN_STATUS_LANES = 15 then
    (s.mirrors c false).foldl (fun s k => s.send (.mirror k (s.sdiDamaged c x) x)) s
  else s

/-- R396: every lane of channel c's SDI source is ACTIVE. -/
def State.sdiUp (s : State) (c : Nat) : Bool :=
  (List.range (2 ^ s.rd (F.ING_CHc_SRC_LINKS c))).all fun i => s.rd (F.LANE_n_STATUS_STAGE (s.rd (F.ING_CHc_SRC_LANE c) + i)) == 5

/-- SDI_LINE (R177, R369, R396): from lanes that are ACTIVE; a channel that a mirror entry feeds takes nothing from its lanes. -/
def execSdiLine (c : Fin 96) (x : SdiLine) (s : State) : Out :=
  .next (s.when (s.sdiUp c && s.mirrors c true == []) fun s => (s.sdiLine c x).mirrorOut c x)

/-- R179: LOSS_FRAMES channel frame periods without valid data. -/
def State.ingLoss (s : State) (c : Nat) : State :=
  if s.ingState c = 2 ∧ (s.ingCh c).lastValid + s.rd (F.ING_CHc_CFG_LOSS_FRAMES c) * s.framePeriod c ≤ s.chUnits c then
    ((s.setIngCh c { s.ingCh c with recov := 0 }).inc (F.ING_CHc_CNT_FRAMES_LOSS c)).setIngState c 3 true
  else s

/-- ING_LOSS_TIMEOUT (R179). -/
def execIngLossTimeout (c : Fin 96) (s : State) : Out := .next (s.ingLoss c)

/-! ## The channel frame start -/

/-- R180: the picture of the policy. -/
def State.policyPic (s : State) (c : Nat) : Picture :=
  match s.rd (F.ING_CHc_CFG_POLICY c) with
  | 0 => (s.ingCh c).lastGood
  | 2 => .slate
  | _ => .black

/-- R181: the newest frame whose last line was written at least four lines ago. -/
def State.fsyncPick (s : State) (c : Nat) : Option Stored :=
  let lines := 4 * (s.framePeriod c / max 1 (s.chLines c))
  ((s.ingCh c).store.reverse).find? fun f => decide (f.at_ + lines ≤ s.chUnits c)

/-- R181: choose the frame to read, counting repeats and the whole frames passed over. -/
def State.fsyncSelect (s : State) (c : Nat) : State :=
  match s.fsyncPick c with
  | none => s
  | some f =>
    let x := s.ingCh c
    let s := match x.chosen with
      | some (k, n) => if n = f.num then s.inc (F.ING_CHc_CNT_SYNC_REPEAT c)
        else s.add (F.ING_CHc_CNT_SYNC_DROP c) (f.serial - k - 1)
      | none => s
    (s.setIngCh c { x with chosen := some (f.serial, f.num), shown := f.pic }).ancRead c fun m => decide (m ≤ f.num)

/-- R179 to R181: a channel frame starts: one full frame is delivered, whatever the state. -/
def State.ingFrameStart (s : State) (c : Nat) : State :=
  if !s.chOn c then s
  else
    let x := s.ingCh c
    let s := s.setIngCh c { x with next := 0, lineAt := [], subst := [], damaged := 0, neg := 0, anc := x.anc.filter fun (f, _) => decide (s.chFrameNow c < f + 5) }
    if s.ingState c = 2 then
      (if s.chLocked c then s.setIngCh c { s.ingCh c with shown := .frame (s.chFrameNow c) [] } else s.fsyncSelect c)
    else (s.setIngCh c { s.ingCh c with shown := s.policyPic c, chosen := none }).ancRead c fun _ => true

/-! ## Enabling -/

/-- R179: a commit has changed a channel's registers: EN, or SRC while it runs. -/
def State.ingCommit (o s : State) (c : Nat) : State :=
  match o.chOn c, s.chOn c with
  | false, true => ((s.setIngCh c { IngCh.init with lastValid := s.chUnits c }).wr (F.ING_CHc_ANC_IDX_IDX c) 0).setIngState c 1 false
  | true, false => ((s.setIngCh c IngCh.init).wr (F.ING_CHc_STATUS_UNLOCKED c) 0).setIngState c 0 false
  | true, true =>
    if o.reg (R.ING_CHc_SRC c) ≠ s.reg (R.ING_CHc_SRC c) ∧ 2 ≤ s.ingState c then
      (s.setIngCh c { s.ingCh c with rx := [], recov := 0 }).setIngState c 1 false
    else s
  | false, false => s

/-! ## The check -/

/-- The pages of a crown's stack below its HDM window. -/
def State.privatePages (s : State) (d : Nat) : Nat := 24 * 2 ^ 18 - s.rd (F.HIF_HDMd_SIZE_GIB d) * 2 ^ 18

/-- R182: the frame store and ANC area of a channel, in pages. -/
def State.ingAreas (s : State) (c : Nat) : List (Nat × Nat) :=
  [(s.rd (F.ING_CHc_FS_BASE_PAGE c), s.rd (F.ING_CHc_FS_SIZE_PAGES c))] ++
  (if s.rd (F.ING_CHc_ANC_CFG_SIZE c) = 0 then [] else [(s.rd (F.ING_CHc_ANC_BASE_PAGE c), s.rd (F.ING_CHc_ANC_CFG_SIZE c) * 256)])

/-- R182: a store overlaps another on the crown, or leaves private memory, or runs past a stack, whatever crown it comes to. -/
def State.areaBad (s : State) (c : Nat) (a : Nat × Nat) (frame : Bool) : Bool :=
  decide (24 * 2 ^ 18 < a.1 + a.2) || (((s.placements c).map (·.1)).any fun d =>
    decide ((if frame then s.privatePages d else 24 * 2 ^ 18) < a.1 + a.2) ||
    (List.range 96).any fun e => e != c && s.chOn e && (s.placements e).any (·.1 == d) && (s.ingAreas e).any (rangesMeet a))

/-- R41: the channel frame rate as BASE times r, over 2. -/
def State.rateDiffers (s : State) (c : Nat) : Bool :=
  let n := s.chTl c
  s.rd (F.ING_CHc_FMT2_BASE c) * ratioDen (s.chRatio c) != s.tlBase n * ratioNum (s.chRatio c) ||
    s.on (F.ING_CHc_FMT2_DROP c) != s.tlDrop n

/-- R171: an SDI input carries its active samples within the rate of its links: 1.485, 2.97, 5.94 or 11.88 Gbit/s for each lane, at
20, 30 or 40 bits a pixel (notes/assumptions/115.md). -/
def State.sdiTooFast (s : State) (c : Nat) : Bool :=
  let bpp := if s.rd (F.ING_CHc_FMT_SAMPLING c) = 0 then (if s.on (F.ING_CHc_FMT_DEPTH c) then 40 else 20)
    else if s.on (F.ING_CHc_FMT_DEPTH c) then 40 else 30
  let lane := 1485000000 * 2 ^ s.rd (F.LANE_n_CFG_SDI_RATE (s.rd (F.ING_CHc_SRC_LANE c)))
  decide (s.chWidth c * s.chHeight c * s.rd (F.ING_CHc_FMT2_BASE c) * bpp > lane * 2 ^ s.rd (F.ING_CHc_SRC_LINKS c))

/-- R183, R338: the audio block refuses stream a as the target of an SDI group: it takes another source, or another rate. -/
def State.sdiAudBad (s : State) (a : Nat) : Bool :=
  decide (255 < a) || (s.on (F.AUD_STRa_CFG_EN a) && (s.on (F.AUD_STRa_CFG_DIR a) || s.rd (F.AUD_STRa_CFG_SRC a) != 2 || s.rd (F.AUD_STRa_CFG_RATE a) != 0))

/-- R186, R188: the ingest rules of R141 for channel c. -/
def ingRules (s : State) (c : Nat) : List Rule :=
  let st := [R.ING_CHc_STATUS c, R.ING_STATUS]
  let us := (List.range 16).map fun i => 0x501000 + c * 0x40 + 4 * i
  let en := s.chOn c
  let kind := s.rd (F.ING_CHc_SRC_KIND c)
  let links := s.rd (F.ING_CHc_SRC_LINKS c)
  let lane := s.rd (F.ING_CHc_SRC_LANE c)
  let lanes := (List.range (2 ^ links)).map (lane + ·)
  let w := s.chWidth c
  let h := s.chHeight c
  let samp := s.rd (F.ING_CHc_FMT_SAMPLING c)
  let flowOk := match s.flow (s.rd (F.ING_CHc_SRC_FLOW c)) with
    | some e => flowKind e.words == kind && flowTarget e.words == c | none => false
  let slate := s.rd (F.ING_CHc_CFG_SLATE c)
  let groups := s.rd (F.ING_CHc_AUD_GROUPS c)
  let fs := (s.rd (F.ING_CHc_FS_BASE_PAGE c), s.rd (F.ING_CHc_FS_SIZE_PAGES c))
  let anc := (s.rd (F.ING_CHc_ANC_BASE_PAGE c), s.rd (F.ING_CHc_ANC_CFG_SIZE c) * 256)
  rulesAt (R.ING_CHc_SRC c) st us
    [(0x6002, kind == 3 || (en && kind != 2 && !flowOk)),
     (0x6006, links == 3 || (en && kind == 2 && (decide (lane / 8 ≠ (lane + 2 ^ links - 1) / 8) || decide (lane + 2 ^ links > 96)))),
     (0x6002, en && kind == 2 && lanes.any fun n => s.rd (F.LANE_n_CFG_MODE n) != 1)] ++
  rulesAt (R.ING_CHc_FMT c) st us
    [(0x6001, samp == 3 || decide (w > 7680 ∨ h > 4320 ∨ w = 0 ∨ h = 0) || (en && kind == 1 && (samp != 0 || s.on (F.ING_CHc_FMT_DEPTH c))))] ++
  rulesAt (R.ING_CHc_FMT2 c) st (us ++ [R.LT_CHc_MAP c])
    [(0x6001, s.rd (F.ING_CHc_FMT2_SENDER c) == 3 || (en && ((kind == 0 && decide (120 < s.rd (F.ING_CHc_FMT2_BASE c))) || (kind == 2 && s.sdiTooFast c)))),
     (0x6003, en && s.rateDiffers c)] ++
  rulesAt (R.ING_CHc_CFG c) st us
    [(0x6005, s.rd (F.ING_CHc_CFG_POLICY c) == 3 || (en && s.rd (F.ING_CHc_CFG_POLICY c) == 2 &&
      (s.placements c).any fun (d, k) => !s.on (F.CMP_SLOTs_Ll_CFG_EN d k slate)))] ++
  rulesAt (R.ING_CHc_FS_BASE c) st us [(0x6004, en && s.areaBad c fs true)] ++
  rulesAt (R.ING_CHc_FS_SIZE c) st us [(0x6004, en && decide (fs.2 < s.storeNeed c))] ++
  rulesAt (R.ING_CHc_ANC_BASE c) st us [(0x6004, en && anc.2 != 0 && (s.areaBad c anc false || rangesMeet fs anc))] ++
  rulesAt (R.ING_CHc_AUD c) st us
    [(0x6007, en && kind == 2 && groups != 0 && ((decide (groups ≥ 16) && s.rd (F.LANE_n_CFG_SDI_RATE lane) == 0) ||
      (List.range 8).any fun g => groups / 2 ^ g % 2 == 1 && s.sdiAudBad (s.rd (F.ING_CHc_AUD_STREAM c) + g)))]

end Sys2Proof.Machine
end

