-- ==== Sys2Proof/Machine/Shape.lean ====
section
/-!
DEFINITION. Sys2Proof/Machine/Shape.lean: the shape of a stream (11_encode_pipelines.md, R223 to R234): its channel, tile
columns, coding rows, D_min (R51), rates and loads. A stream is a crown and an index, composition slot x 8 + rendition.
-/
namespace Sys2Proof.Machine

/-- A quotient whose rounding the spec does not state (notes/assumptions/4.md). -/
def quot (n d : Nat) : Nat := n / d + (if n % d ≠ 0 ∧ Config.roundUp n d then 1 else 0)

/-- The nearest whole number to n / m; a half goes either way (notes/assumptions/4.md). -/
def nearestQ (n m : Nat) : Nat := if 2 * (n % m) > m ∨ (2 * (n % m) = m ∧ Config.roundUp n m) then n / m + 1 else n / m

def ceilDiv (n d : Nat) : Nat := (n + d - 1) / d

/-- The composition slot and channel of stream i of crown d, and the stream id (R241). -/
def strSlot (i : Nat) : Nat := i / 8
def State.strChan (s : State) (d i : Nat) : Nat := s.rd (F.CMP_SLOTs_CFG_CHANNEL d (i / 8))
def State.strId (s : State) (d i : Nat) : Nat := s.strChan d i * 8 + i % 8
def State.strOn (s : State) (d i : Nat) : Bool := s.on (F.ENC_STRi_CFG_EN d i)

/-- The composition slot of crown d that carries channel c. -/
def State.slotOf (s : State) (d c : Nat) : Option Nat :=
  (List.range 16).find? fun k => s.on (F.CMP_SLOTs_CFG_EN d k) && s.rd (F.CMP_SLOTs_CFG_CHANNEL d k) == c

def State.chInterlaced (s : State) (c : Nat) : Bool := s.on (F.ING_CHc_FMT_INTERLACE c)

def State.strCodec (s : State) (d i : Nat) : Nat := s.rd (F.ENC_STRi_CFG_CODEC d i)
def State.strW (s : State) (d i : Nat) : Nat := s.rd (F.ENC_STRi_SIZE_W d i)
def State.strH (s : State) (d i : Nat) : Nat := s.rd (F.ENC_STRi_SIZE_H d i)

/-- R220: picture lines: half the rendition's for a field picture. -/
def State.picH (s : State) (d i : Nat) : Nat := if s.chInterlaced (s.strChan d i) then s.strH d i / 2 else s.strH d i

/-- R229: the number of pipelines, and the pipeline that codes tile column j. -/
def State.strN (s : State) (d i : Nat) : Nat := 2 ^ s.rd (F.ENC_STRi_CFG_PIPE_N d i)
def State.strPipe (s : State) (d i j : Nat) : Nat := s.rd (F.ENC_STRi_CFG_PIPE_FIRST d i) + j
def State.strPipes (s : State) (d i : Nat) : List Nat := (List.range (s.strN d i)).map (s.strPipe d i)

/-- R230: the coding unit's height in lines. -/
def State.strCtu (s : State) (d i : Nat) : Nat :=
  match s.strCodec d i with
  | 4 => 16
  | 1 => if s.on (F.ENC_STRi_CFG_CTU d i) then 128 else 64
  | 3 => if s.on (F.ENC_STRi_CFG_CTU d i) then 128 else 64
  | _ => 64

/-- CTU rows and columns of the picture. -/
def State.strR (s : State) (d i : Nat) : Nat := ceilDiv (s.picH d i) (s.strCtu d i)
def State.strCols (s : State) (d i : Nat) : Nat := ceilDiv (s.strW d i) (s.strCtu d i)

/-- R230: whether a coding row of h CTU rows meets every limit. -/
def rowOk (codec n r h : Nat) : Bool :=
  let k := ceilDiv r h
  match codec with
  | 0 => n == 1 || decide (k ≤ 22)
  | 1 => n == 1 || decide (k * n ≤ 440)
  | 3 => decide (k ≤ 64) && decide (k * n ≤ 128)
  | _ => true

/-- R230: h, the least that meets them, if any does. -/
def State.strHopt (s : State) (d i : Nat) : Option Nat :=
  ((List.range (s.strR d i + 1)).map (· + 1)).find? (rowOk (s.strCodec d i) (s.strN d i) (s.strR d i))
def State.strHrow (s : State) (d i : Nat) : Nat := (s.strHopt d i).getD 1

/-- R230: the coding-row height in picture lines (ROWH), and the number of coding rows. -/
def State.rowH (s : State) (d i : Nat) : Nat := s.strHrow d i * s.strCtu d i
def State.strRows (s : State) (d i : Nat) : Nat := ceilDiv (s.strR d i) (s.strHrow d i)

def State.scaled (s : State) (d i : Nat) : Bool :=
  let c := s.strChan d i
  s.strW d i != s.chWidth c || s.strH d i != s.chHeight c

/-- R231: the coding-row height in canvas lines. -/
def State.rowCanvas (s : State) (d i : Nat) : Nat :=
  if s.scaled d i then ceilDiv (s.rowH d i * s.chHeight (s.strChan d i)) (max 1 (s.strH d i)) + 3 else s.rowH d i

/-- R51: D_min of channel c: the largest over its enabled renditions of the coding-row height plus 24 lines. -/
def State.dMin (s : State) (c : Nat) : Nat :=
  ((s.placements c).flatMap fun (d, k) => (List.range 8).map fun e =>
    if s.strOn d (k * 8 + e) then s.rowCanvas d (k * 8 + e) + 24 else 0).foldl max 0

/-- R220, R231: the last canvas line that coding row q of field f (0 for a frame) reads. The second field's lines start at half the
height of the raster (notes/assumptions/103.md). -/
def State.rowLastLine (s : State) (d i f q : Nat) : Nat :=
  let c := s.strChan d i
  let base := f * (s.chHeight c / 2)
  let top := if s.chInterlaced c then base + s.chHeight c / 2 else s.chHeight c
  let rows := (q + 1) * s.rowH d i
  let line := if s.scaled d i then ceilDiv (rows * s.chHeight c) (max 1 (s.strH d i)) + 3 else rows
  min (base + line) top - 1

/-! ## Tile columns -/

/-- R229: widths of the tile columns, in coding units. -/
def State.tileWidths (s : State) (d i : Nat) : List Nat :=
  let n := s.strN d i
  let cols := s.strCols d i
  let ws := [s.rd (F.ENC_STRi_TILES_C0 d i), s.rd (F.ENC_STRi_TILES_C1 d i), s.rd (F.ENC_STRi_TILES_C2 d i)].take (n - 1)
  ws ++ [cols - ws.sum]

/-- R229: the tile columns' left edges in rendition pixels, with the right edge of the last; of JPEG XS precinct columns of equal width. -/
def State.tileEdges (s : State) (d i : Nat) : List Nat :=
  (List.range (s.strN d i + 1)).map fun j => if s.strCodec d i = 4 then s.strW d i * j / s.strN d i else min (s.strW d i) (((s.tileWidths d i).take j).sum * s.strCtu d i)

/-- Pixels across tile column j. -/
def State.tileW (s : State) (d i j : Nat) : Nat := (s.tileEdges d i).getD (j + 1) 0 - (s.tileEdges d i).getD j 0

/-! ## Rates -/

/-- R34, R41: channel frames per second, times 4,004. -/
def State.chRate (s : State) (c : Nat) : Nat :=
  s.tlBase (s.chTl c) * ratioNum (s.chRatio c) * (4 / ratioDen (s.chRatio c)) * (if s.tlDrop (s.chTl c) then 1000 else 1001)

/-- R223: pictures of a stream per second, times 4,004. -/
def State.picRate (s : State) (d i : Nat) : Nat :=
  let c := s.strChan d i
  (if s.chInterlaced c then 2 else 1) * s.chRate c / (if s.on (F.ENC_STRi_CFG_FRDIV d i) then 2 else 1)

/-- The streams that pipeline p of crown d carries, with the tile column it codes. -/
def State.pipeStreams (s : State) (d p : Nat) : List (Nat × Nat) :=
  (List.range 128).filterMap fun i =>
    let f := s.rd (F.ENC_STRi_CFG_PIPE_FIRST d i)
    if s.strOn d i ∧ f ≤ p ∧ p < f + s.strN d i then some (i, p - f) else none

/-- R32: frames of a stream per second, times 4,004; a field pair is one frame. -/
def State.frmRate (s : State) (d i : Nat) : Nat := s.chRate (s.strChan d i) / (if s.on (F.ENC_STRi_CFG_FRDIV d i) then 2 else 1)

/-- R32: switches per second, times 4,004: none for a pipeline with one stream, else the sum of the frame rates. -/
def State.switches (s : State) (d p : Nat) : Nat :=
  let l := s.pipeStreams d p
  if l.length ≤ 1 then 0 else (l.map fun (i, _) => s.frmRate d i).sum

/-- Load 1 in the units below: 2.2 Gpixel/s x 4,004. -/
def loadOne : Nat := 4004 * 2200000000

/-- The cost of a pixel at a stream's preset, against the Fast rate. -/
def State.pixCost (s : State) (d i : Nat) : Nat := if s.on (F.ENC_STRi_CFG_PRESET d i) then 1 else 2

/-- R32: a pipeline's load, against loadOne. -/
def State.load (s : State) (d p : Nat) : Nat :=
  ((s.pipeStreams d p).map fun (i, j) => s.tileW d i j * s.picH d i * s.picRate d i * s.pixCost d i).sum + s.switches d p * 17600

/-- R234: a pipeline's raster load as a fraction of loadOne: numerator and denominator. -/
def State.rasterNum (s : State) (d p : Nat) : Nat × Nat :=
  let l := s.pipeStreams d p
  let hs := (l.map fun (i, _) => max 1 (s.chHeight (s.strChan d i))).foldl (· * ·) 1
  ((l.map fun (i, j) =>
      let c := s.strChan d i
      s.tileW d i j * s.picH d i * ((if s.chInterlaced c then 2 else 1) * s.chRate c) * s.pixCost d i * s.chLines c * (hs / max 1 (s.chHeight c))).sum +
    s.switches d p * 17600 * hs, hs)

/-- R236: contexts that pipeline p holds or would take: of the streams on it that are enabled or not yet OFF. -/
def State.pipeHeld (s : State) (d p : Nat) : Nat :=
  ((List.range 128).filter fun i =>
    let f := s.rd (F.ENC_STRi_CFG_PIPE_FIRST d i)
    (s.strOn d i || s.rd (F.ENC_STRi_STATUS_STATE d i) != 0) && decide (f ≤ p ∧ p < f + s.strN d i)).length

/-- R236: resident contexts of a pipeline: one for each stream it carries that is not OFF. -/
def State.residents (s : State) (d p : Nat) : List (Nat × Nat) :=
  (List.range 128).filterMap fun i =>
    let f := s.rd (F.ENC_STRi_CFG_PIPE_FIRST d i)
    if s.rd (F.ENC_STRi_STATUS_STATE d i) ≠ 0 ∧ f ≤ p ∧ p < f + s.strN d i then some (i, p - f) else none

end Sys2Proof.Machine
end

