-- ==== Sys2Proof/Machine/Colour.lean ====
section
/-!
DEFINITION. Sys2Proof/Machine/Colour.lean: colour arithmetic (10_composition_and_colour.md): the transfer curves, primaries and
matrices that R194, R205 and R206 name. Light is in cd/m2 with 48 fraction bits; components are R'G'B' at 14 bits.
The curves and matrices are those of ITU-R BT.709, BT.1886, BT.2020, BT.2087, BT.2100 and BT.2407 (notes/assumptions/116.md).
-/
namespace Sys2Proof.Machine

/-- A value rounded and clamped to 14 bits; the spec does not say where a half goes. -/
def round14 (n : Int) (d : Nat) : Nat := if n < 0 then 0 else min 16383 (nearestQ n.toNat d)

/-- The greatest number below base + 2^bits, from base on, that satisfies a condition holding up to some number. -/
def searchBits (p : Nat → Bool) : Nat → Nat → Nat
  | 0, r => r
  | n + 1, r => if p (r + 2 ^ n) then searchBits p n (r + 2 ^ n) else searchBits p n r

/-- One, in 48 fraction bits. -/
def one48 : Nat := 2 ^ 48

/-- v to the power a / b, for a v up to 1. -/
def powRat (v a b : Nat) : Nat := searchBits (fun r => decide (r ^ b * one48 ^ a ≤ v ^ a * one48 ^ b)) 49 0

/-- e to the power x, by its series. -/
def expFix (x : Int) : Int :=
  ((List.range 40).foldl (fun (acc : Int × Int) k => (acc.1 + acc.2, acc.2 * x / ((k + 1 : Nat) * one48 : Nat))) (0, (one48 : Int))).1

/-- The PQ EOTF of BT.2100, of 1 for 10,000 cd/m2. -/
def pqEotf (v : Nat) : Nat :=
  let n := powRat v 32 2523
  powRat ((128 * n - 107 * one48) * one48 / (2413 * one48 - 2392 * n)) 8192 1305

/-- The HLG inverse OETF of BT.2100, of 1 for the nominal peak. -/
def hlgInverse (v : Nat) : Nat :=
  if 2 * v ≤ one48 then v * v / (3 * one48)
  else ((expFix (((v : Int) * 100000000 - 55991073 * one48) / 17883277) + 28466892 * one48 / 100000000) / 12).toNat

/-- R205 step 1: the light of a 14-bit component in a space: 0 BT.709, 1 BT.2020, 2 PQ, 3 HLG. SDR white is at `white` cd/m2. -/
def toLight (space white v : Nat) : Nat :=
  let x := v * one48 / 16383
  match space with
  | 2 => 10000 * pqEotf x
  | 3 => 1000 * hlgInverse x
  | _ => white * powRat x 12 5

/-- R205 step 3: the 14-bit component of a light in the canvas space, clipped; the spec does not state its rounding. -/
def fromLight (space white : Nat) (l : Int) : Nat :=
  if l ≤ 0 then 0
  else
    let v := searchBits (fun r => decide ((toLight space white r : Int) ≤ l)) 14 0
    if (toLight space white v : Int) < l ∧ Config.roundUp l.toNat v then min 16383 (v + 1) else v

/-- R205 step 2: the rows of a 3 x 3 matrix applied, over 10,000. -/
def mat3 (m : List (Int × Int × Int)) (r g b : Int) : List Int := m.map fun (x, y, z) => (x * r + y * g + z * b) / 10000
def to2020 : List (Int × Int × Int) := [(6274, 3293, 433), (691, 9195, 114), (164, 880, 8956)]
def to709 : List (Int × Int × Int) := [(16605, -5876, -728), (-1246, 11329, -83), (-182, -1006, 11187)]

/-- R205: a colour from its own space into the canvas space. -/
def convertColour (src dst white : Nat) (c : Nat × Nat × Nat) : Nat × Nat × Nat :=
  if src = dst then c
  else
    let l := [c.1, c.2.1, c.2.2].map fun v => (toLight src white v : Int)
    let l := if (src = 0) = (dst = 0) then l
      else mat3 (if src = 0 then to2020 else to709) (l.getD 0 0) (l.getD 1 0) (l.getD 2 0)
    let v := fun i => fromLight dst white (l.getD i 0)
    (v 0, v 1, v 2)

/-- R194: K_R and K_B of the matrix of a space, over 10,000: BT.709, or BT.2020 non-constant luminance. -/
def kr (space : Nat) : Nat := if space = 0 then 2126 else 2627
def kb (space : Nat) : Nat := if space = 0 then 722 else 593
def kg (space : Nat) : Nat := 10000 - kr space - kb space

/-- The top code of b bits at 14 bits, and the black and the span of a range there. -/
def topCode (b : Nat) : Nat := (2 ^ b - 1) * 2 ^ (14 - b)
def lowCode (full : Bool) : Nat := if full then 0 else 1024
def spanCode (full : Bool) (b : Nat) : Nat := if full then topCode b else 14016
def chromaSpan (full : Bool) (b : Nat) : Nat := if full then topCode b else 14336

/-- R194: an R'G'B' source of b bits, its components brought up to 14 bits, to full range. -/
def fromRgb (full : Bool) (b : Nat) (c : Nat × Nat × Nat) : Nat × Nat × Nat :=
  let v := fun (x : Nat) => round14 (((x : Int) - lowCode full) * 16383) (spanCode full b)
  (v c.1, v c.2.1, v c.2.2)

/-- R194: a Y'CbCr source of b bits, its components brought up to 14 bits, to R'G'B'. -/
def fromYcc (space : Nat) (full : Bool) (b : Nat) (c : Nat × Nat × Nat) : Nat × Nat × Nat :=
  let r : Int := kr space
  let g : Int := kg space
  let bl : Int := kb space
  let ys : Int := spanCode full b
  let cs : Int := chromaSpan full b
  let y := ((c.1 : Int) - lowCode full) * cs * 10000 * g
  let cb := ((c.2.1 : Int) - 8192) * ys
  let cr := ((c.2.2 : Int) - 8192) * ys
  let den := (ys * cs * 10000 * g).toNat
  (round14 ((y + 2 * (10000 - r) * g * cr) * 16383) den,
   round14 ((y - 2 * bl * (10000 - bl) * cb - 2 * r * (10000 - r) * cr) * 16383) den,
   round14 ((y + 2 * (10000 - bl) * g * cb) * 16383) den)

/-- R206: Y' of R'G'B' over 16383 x 10,000, and Cb and Cr above their least value, over 16383 x 10,000. -/
def lumaOf (space : Nat) (c : Nat × Nat × Nat) : Nat := kr space * c.1 + kg space * c.2.1 + kb space * c.2.2
def cbOf (space : Nat) (c : Nat × Nat × Nat) : Nat :=
  (((10000 * c.2.2 : Nat) - lumaOf space c : Int) * 5000 / ((10000 - kb space : Nat) : Int) + 16383 * 5000).toNat
def crOf (space : Nat) (c : Nat × Nat × Nat) : Nat :=
  (((10000 * c.1 : Nat) - lumaOf space c : Int) * 5000 / ((10000 - kr space : Nat) : Int) + 16383 * 5000).toNat

/-- R206: a luma or chroma value at an output depth and range: `u` of 16383 x 10,000, chroma with zero at the middle. -/
def outCode (full chroma : Bool) (b u : Nat) : Nat :=
  let one : Nat := 16383 * 10000
  let mid : Int := if chroma then (one / 2 : Nat) else 0
  let base : Int := if chroma then 2 ^ (b - 1) else if full then 0 else 2 ^ (b - 4)
  let span : Int := if full then 2 ^ b - 1 else if chroma then 224 * 2 ^ (b - 8) else 219 * 2 ^ (b - 8)
  let n := base * (one : Int) + span * ((u : Int) - mid)
  if n < 0 then 0 else min (2 ^ b - 1) (nearestQ n.toNat one)

end Sys2Proof.Machine
end

