-- ==== Sys2Proof/Machine/Pixel.lean ====
section
/-!
DEFINITION. Sys2Proof/Machine/Pixel.lean: what composition computes for a pixel (10_composition_and_colour.md): the scaler
(R202, R204), the blend (R192), the colour tables (R207 to R209), and the samples of the output area (R228).
-/
namespace Sys2Proof.Machine

/-! ## The scaler -/

/-- R202: the step and the source position of destination pixel x in one direction, in 16.16. -/
def scaleStep (src dst : Nat) : Nat := src * 65536 / max 1 dst
def scalePos (src dst x : Nat) : Int := (x * scaleStep src dst : Nat) + ((scaleStep src dst : Int) - 65536) / 2

/-- R202: the phase of a position. -/
def scalePhase (p : Int) : Nat := (p / 1024 % 64).toNat

/-- R204: what a coefficient holds at reset: sets 0 and 2 a windowed sinc, sets 1 and 3 bilinear weights. Key: ((((crown x 4 +
compositor) x 4 + set) x 2 + direction) x 64 + phase) x 8 + tap. Centre taps are 3 (horizontal) and 2 (vertical). The free values
of the sinc stand only where they are signed 10-bit values that sum to 256. -/
def coefKey (d k set dir ph tap : Nat) : Nat := ((((d * 4 + k) * 4 + set) * 2 + dir) * 64 + ph) * 8 + tap
def coefReset (key : Nat) : Int :=
  let tap := key % 8
  let ph := key / 8 % 64
  let dir := key / 512 % 2
  let set := key / 1024 % 4
  let c := if dir = 0 then 3 else 2
  let n := if dir = 0 then 8 else 6
  let line : Int := if tap = c then 256 - 4 * (ph : Int) else if tap = c + 1 then 4 * (ph : Int) else 0
  let sinc := (List.range n).map (Config.sincCoef dir ph)
  if n ≤ tap then 0
  else if set % 2 = 0 ∧ sinc.sum = 256 ∧ sinc.all (fun v => decide (-512 ≤ v ∧ v ≤ 511)) then sinc.getD tap 0
  else line
def State.coef (s : State) (d k set dir ph tap : Nat) : Int := mapGet coefReset s.cmp.coefs (coefKey d k set dir ph tap)

/-- R204: the coefficients of every phase of a set sum to 256, in both directions; those of reset do. -/
def State.coefSumsOk (s : State) (d k set : Nat) : Bool :=
  !(s.cmp.coefs.any fun (key, _) => key / 1024 == (d * 4 + k) * 4 + set) || (List.range 64).all fun ph =>
    ((List.range 8).map (s.coef d k set 0 ph)).sum == 256 && ((List.range 6).map (s.coef d k set 1 ph)).sum == 256

/-- The three components and the alpha of a source pixel, at 14 bits. -/
structure Quad where
  c0 : Nat
  c1 : Nat
  c2 : Nat
  a : Nat
  deriving DecidableEq, Repr

/-- R202: one component through the vertical and horizontal filters. -/
def State.filterPx (s : State) (d k set ph pv : Nat) (taps : List (List Quad)) (f : Quad → Nat) : Nat :=
  let n := (taps.zipIdx.map fun (line, j) => s.coef d k set 1 pv j *
    (line.zipIdx.map fun (q, i) => s.coef d k set 0 ph i * (f q : Int)).sum).sum
  round14 n 65536

/-! ## The blend -/

/-- R192: one layer over the canvas, for one component: `a` is alpha x OPACITY over 16383 x 1023. -/
def blend (premult : Bool) (opacity alpha layer under : Nat) : Nat :=
  let den := 16383 * 1023
  let a := alpha * opacity
  if premult then min 16383 (quot (layer * opacity * 16383 + under * (den - a)) den)
  else min 16383 (quot (layer * a + under * (den - a)) den)

/-! ## Colour tables -/

/-- Key of a table entry: bank, table (0 pre-shaper, 1 3D LUT, 2 post-shaper), index; what it holds at reset: the identity. -/
def lutKey (d k bank table idx : Nat) : Nat := (((d * 4 + k) * 2 + bank) * 4 + table) * 65536 + idx
def lutReset (key : Nat) : Nat :=
  let idx := key % 65536
  if key / 65536 % 4 = 1 then
    let c := fun n => min 16383 (512 * n)
    c (idx % 33) + c (idx / 33 % 33) * 2 ^ 14 + c (idx / 1089) * 2 ^ 28
  else 4 * (idx % 4096)
def State.lut (s : State) (d k bank table idx : Nat) : Nat := mapGet lutReset s.cmp.luts (lutKey d k bank table idx)
def State.setLut (s : State) (d k bank table idx v : Nat) : State :=
  { s with cmp := { s.cmp with luts := mapSet lutReset s.cmp.luts (lutKey d k bank table idx) v } }

/-- R216: entries of a table. -/
def lutSize (table : Nat) : Nat := if table = 1 then 35937 else 12288

/-- R207: one component through a shaper. -/
def State.shaper (s : State) (d k bank table comp v : Nat) : Nat :=
  let e := fun i => s.lut d k bank table (comp * 4096 + i)
  let i := v / 4
  let f := v % 4
  let e1 := if i = 4095 then e 4095 else e (i + 1)
  (e i * (4 - f) + e1 * f + 2) / 4

/-- R208: component `o` of a 3D LUT node. -/
def State.node (s : State) (d k bank o r g b : Nat) : Nat := s.lut d k bank 1 ((b * 33 + g) * 33 + r) / 2 ^ (14 * o) % 2 ^ 14

/-- R208: tetrahedral interpolation of component `o`; the first case that matches is used. -/
def State.tetra (s : State) (d k bank o r g b : Nat) : Nat :=
  let r0 := r / 512
  let g0 := g / 512
  let b0 := b / 512
  let fr := r % 512
  let fg := g % 512
  let fb := b % 512
  let c := fun x y z => s.node d k bank o (r0 + x) (g0 + y) (b0 + z)
  let v :=
    if fr ≥ fg ∧ fg ≥ fb then c 0 0 0 * (512 - fr) + c 1 0 0 * (fr - fg) + c 1 1 0 * (fg - fb) + c 1 1 1 * fb
    else if fr ≥ fb ∧ fb ≥ fg then c 0 0 0 * (512 - fr) + c 1 0 0 * (fr - fb) + c 1 0 1 * (fb - fg) + c 1 1 1 * fg
    else if fb ≥ fr ∧ fr ≥ fg then c 0 0 0 * (512 - fb) + c 0 0 1 * (fb - fr) + c 1 0 1 * (fr - fg) + c 1 1 1 * fg
    else if fg ≥ fr ∧ fr ≥ fb then c 0 0 0 * (512 - fg) + c 0 1 0 * (fg - fr) + c 1 1 0 * (fr - fb) + c 1 1 1 * fb
    else if fg ≥ fb ∧ fb ≥ fr then c 0 0 0 * (512 - fg) + c 0 1 0 * (fg - fb) + c 0 1 1 * (fb - fr) + c 1 1 1 * fr
    else c 0 0 0 * (512 - fb) + c 0 0 1 * (fb - fg) + c 0 1 1 * (fg - fr) + c 1 1 1 * fr
  min 16383 ((v + 256) / 512)

/-- R206: the three components through pre-shaper, 3D LUT and post-shaper. -/
def State.lutPx (s : State) (d k bank : Nat) (c : Nat × Nat × Nat) : Nat × Nat × Nat :=
  let p := (s.shaper d k bank 0 0 c.1, s.shaper d k bank 0 1 c.2.1, s.shaper d k bank 0 2 c.2.2)
  let t := fun o => s.tetra d k bank o p.1 p.2.1 p.2.2
  (s.shaper d k bank 2 0 (t 0), s.shaper d k bank 2 1 (t 1), s.shaper d k bank 2 2 (t 2))

/-- R209: the bytes the CRC of a bank covers: every entry in index order, one 32-bit word a component. -/
def State.bankBytes (s : State) (d k bank : Nat) : List Byte :=
  ((List.range 12288).flatMap fun i => natBytes 4 (s.lut d k bank 0 i)) ++
  ((List.range 35937).flatMap fun i => (List.range 3).flatMap fun o => natBytes 4 (s.lut d k bank 1 i / 2 ^ (14 * o) % 2 ^ 14)) ++
  ((List.range 12288).flatMap fun i => natBytes 4 (s.lut d k bank 2 i))

/-! ## The output area -/

/-- R191: bits per pixel, sample depth, and chroma lines per 2 lines of an output format. -/
def outBpp (fmt : Nat) : Nat := match fmt with | 0 => 20 | 1 => 15 | _ => 12
def outDepth (fmt : Nat) : Nat := if fmt = 2 then 8 else 10

/-- R191: pages one frame of the output area takes. -/
def outPages (w h fmt : Nat) : Nat := ceilDiv (w * h * outBpp fmt) 32768

end Sys2Proof.Machine
end

