-- ==== Sys2Proof/Machine/Canvas.lean ====
section
/-!
DEFINITION. Sys2Proof/Machine/Canvas.lean: the canvas of a composition slot (10_composition_and_colour.md): the configuration a slot
goes by, where a layer's pixels come from, the scaled and converted colour of a layer, the composed pixel with its flattened
planes and occlusion maps, and the band of the output area (R190 to R213, R228).
-/
namespace Sys2Proof.Machine

/-! ## Slots -/

def State.slotSt (s : State) (d k : Nat) : SlotSt := mapGet (fun _ => SlotSt.init) s.cmp.slots (d * 16 + k)
def State.setSlotSt (s : State) (d k : Nat) (x : SlotSt) : State :=
  { s with cmp := { s.cmp with slots := mapSet (fun _ => SlotSt.init) s.cmp.slots (d * 16 + k) x } }
def State.layerSt (s : State) (d k l : Nat) : LayerSt := mapGet (fun _ => LayerSt.init) (s.slotSt d k).layers l
def State.setLayerSt (s : State) (d k l : Nat) (x : LayerSt) : State :=
  let y := s.slotSt d k
  s.setSlotSt d k { y with layers := mapSet (fun _ => LayerSt.init) y.layers l x }

/-- R197: a field of the configuration a slot took up at its last frame start. -/
def State.taken (s : State) (d k : Nat) (f : Fld) : Nat :=
  getBits (mapGet (regReset s.variant.crowns) (s.slotSt d k).snap f.reg) f.lo f.width

/-- The registers of a slot's block. -/
def inSlot (d k a : Nat) : Bool := decide (R.CMP_SLOTs_CFG d k ≤ a ∧ a < R.CMP_SLOTs_CFG d k + 0x800)

/-- R210: the runs of a slot's configuration, as (first layer, length): at least two consecutive static IMAGE layers. -/
def runsFrom (st : Nat → Bool) : Nat → Nat → List (Nat × Nat)
  | 0, _ => []
  | n + 1, l =>
    let len := ((List.range (16 - l)).takeWhile fun i => st (l + i)).length
    let fresh := l = 0 ∨ st (l - 1) = false
    if fresh ∧ 2 ≤ len then (l, len) :: runsFrom st n (l + 1) else runsFrom st n (l + 1)
def State.runsOf (rd : Fld → Nat) (d k : Nat) : List (Nat × Nat) :=
  runsFrom (fun l => rd (F.CMP_SLOTs_Ll_CFG_EN d k l) == 1 && rd (F.CMP_SLOTs_Ll_CFG_SRC d k l) == 1 && rd (F.CMP_SLOTs_Ll_CFG_STATIC d k l) == 1) 16 0

/-! ## Layers -/

/-- R192, R193: whether a layer covers a canvas pixel. -/
def State.covers (s : State) (d k l x y : Nat) : Bool :=
  if s.taken d k (F.CMP_SLOTs_Ll_CFG_SRC d k l) = 0 then true
  else
    let dx := (x : Int) - signed 14 (s.taken d k (F.CMP_SLOTs_Ll_DST_X d k l))
    let dy := (y : Int) - signed 14 (s.taken d k (F.CMP_SLOTs_Ll_DST_Y d k l))
    decide (0 ≤ dx ∧ dx < s.taken d k (F.CMP_SLOTs_Ll_DSTSZ_W d k l) ∧ 0 ≤ dy ∧ dy < s.taken d k (F.CMP_SLOTs_Ll_DSTSZ_H d k l))

/-- R202: the prescaled source size. -/
def prescaled (src pre : Nat) : Nat := ceilDiv src (2 ^ pre)

/-- R190: the compositor of the slot that composes column x. -/
def State.compAt (s : State) (d k x : Nat) : Nat :=
  let ks := (List.range 4).filter fun j => s.taken d k (F.CMP_SLOTs_CFG_COMP_MASK d k) / 2 ^ j % 2 == 1
  let xs := [s.taken d k (F.CMP_SLOTs_SPLIT_X1 d k), s.taken d k (F.CMP_SLOTs_SPLIT_X2 d k), s.taken d k (F.CMP_SLOTs_SPLIT_X3 d k)]
  ks.getD ((xs.filter fun b => b != 0 && decide (b * 64 ≤ x)).length) 0

/-- R194: a chroma sample of a 4:2:2 line at pixel x, brought up to 4:4:4 from the line's n samples; the edge ones repeat. -/
def chromaUp (n x : Nat) (f : Nat → Nat) : Nat :=
  let g := fun (j : Int) => f (min (n - 1) j.toNat)
  let j : Int := x / 2
  Config.chromaUp (x % 2) (g (j - 1)) (g j) (g (j + 1)) (g (j + 2)) % 16384

/-- R194: the components of a pixel of an image in the layer buffer, at 14 bits. -/
def State.imgPx (s : State) (d : Nat) (i : Img) (x y : Nat) : Quad :=
  let b := fun o n => bytesNat (s.hbmRead d (i.at_ + o) n)
  let n := y * i.pw + x
  match i.fmt with
  | 0 => ⟨b (n * 4 + 2) 1 * 64, b (n * 4 + 1) 1 * 64, b (n * 4) 1 * 64, quot (b (n * 4 + 3) 1 * 16383) 255⟩
  | 1 => ⟨b (n * 8 + 4) 2 / 64 * 16, b (n * 8 + 2) 2 / 64 * 16, b (n * 8) 2 / 64 * 16, quot (b (n * 8 + 6) 2 / 64 * 16383) 1023⟩
  | 2 =>
    let cw := i.pw / 2
    let c := fun p => chromaUp (min i.w i.pw / 2) x fun j => b (2 * i.pw * i.ph + p * 2 * cw * i.ph + (y * cw + j) * 2) 2 / 64 * 16
    ⟨b (n * 2) 2 / 64 * 16, c 0, c 1, quot (b (2 * i.pw * i.ph + 4 * cw * i.ph + n * 2) 2 / 64 * 16383) 1023⟩
  | _ => ⟨b (n * 6) 2 / 16 * 4, b (n * 6 + 2) 2 / 16 * 4, b (n * 6 + 4) 2 / 16 * 4, 16383⟩

/-- R193, R198: a pixel of the source area of an IMAGE or DECODED layer; what a smaller image leaves of the area is transparent. -/
def State.srcPx (s : State) (d k l x y : Nat) : Quad :=
  let clear : Quad := ⟨Config.clearPx 0 % 16384, Config.clearPx 1 % 16384, Config.clearPx 2 % 16384, 0⟩
  if s.taken d k (F.CMP_SLOTs_Ll_CFG_SRC d k l) = 1 then
    match (s.layerSt d k l).shown with
    | some i => if x < min i.w i.pw ∧ y < min i.h i.ph then s.imgPx d i x y else clear
    | none => clear
  else match (s.layerSt d k l).dec with
    | some pic =>
      let v := fun c => Config.decPx (d * 1024 + s.taken d k (F.CMP_SLOTs_Ll_DEC_STREAM d k l)) pic x y c % 16384
      ⟨v 0, v 1, v 2, 16383⟩
    | none => clear

/-- R202: the prescaled size of a layer's source, and its pixel at a position: the mean of the pixels it stands for. -/
def State.preSize (s : State) (d k l : Nat) : Nat × Nat :=
  (prescaled (s.taken d k (F.CMP_SLOTs_Ll_SRCSZ_W d k l)) (s.taken d k (F.CMP_SLOTs_Ll_CFG_PRE_H d k l)),
   prescaled (s.taken d k (F.CMP_SLOTs_Ll_SRCSZ_H d k l)) (s.taken d k (F.CMP_SLOTs_Ll_CFG_PRE_V d k l)))
def State.prePx (s : State) (d k l x y : Nat) : Quad :=
  let ph := 2 ^ s.taken d k (F.CMP_SLOTs_Ll_CFG_PRE_H d k l)
  let pv := 2 ^ s.taken d k (F.CMP_SLOTs_Ll_CFG_PRE_V d k l)
  let qs := (List.range pv).flatMap fun j => (List.range ph).map fun i =>
    s.srcPx d k l (min (s.taken d k (F.CMP_SLOTs_Ll_SRCSZ_W d k l) - 1) (x * ph + i)) (min (s.taken d k (F.CMP_SLOTs_Ll_SRCSZ_H d k l) - 1) (y * pv + j))
  let m := fun (f : Quad → Nat) => quot (qs.map f).sum (ph * pv)
  ⟨m (·.c0), m (·.c1), m (·.c2), m (·.a)⟩

/-- R202: the position on the prescaled source of a canvas pixel, horizontally and vertically. -/
def State.srcPos (s : State) (d k l x y : Nat) : Int × Int :=
  let z := s.preSize d k l
  (scalePos z.1 (s.taken d k (F.CMP_SLOTs_Ll_DSTSZ_W d k l)) ((x : Int) - signed 14 (s.taken d k (F.CMP_SLOTs_Ll_DST_X d k l))).toNat,
   scalePos z.2 (s.taken d k (F.CMP_SLOTs_Ll_DSTSZ_H d k l)) ((y : Int) - signed 14 (s.taken d k (F.CMP_SLOTs_Ll_DST_Y d k l))).toNat)

/-- R202: the 6 lines, from i - 2 to i + 3, of 8 pixels, from i - 3 to i + 4, that the filters of a canvas pixel use; positions
outside the source repeat the nearest edge. -/
def State.taps (s : State) (d k l x y : Nat) : List (List Quad) :=
  let z := s.preSize d k l
  let p := s.srcPos d k l x y
  let at_ := fun (n : Nat) (i : Int) => min (n - 1) i.toNat
  (List.range 6).map fun (j : Nat) => (List.range 8).map fun (i : Nat) =>
    s.prePx d k l (at_ z.1 (p.1 / 65536 + i - 3)) (at_ z.2 (p.2 / 65536 + j - 2))

/-- R180, R193: a pixel of the frame that ingest delivers, at 14 bits. -/
def State.inputPx (s : State) (c d x y : Nat) : Quad :=
  let sh := 2 ^ (14 - s.storeDepth c)
  let get := fun (x : Nat) => match (s.ingCh c).shown with
    | .frame n _ => (match s.fsSlot c n with | some i => s.fsGet c d i x y | none => s.blackPx c)
    | _ => s.blackPx c
  let p := get x
  if s.rd (F.ING_CHc_FMT_SAMPLING c) = 0 then
    ⟨p.1 * sh, chromaUp (s.chWidth c / 2) x fun j => (get (2 * j)).2.1 * sh, chromaUp (s.chWidth c / 2) x fun j => (get (2 * j + 1)).2.1 * sh, 16383⟩
  else ⟨p.1 * sh, p.2.1 * sh, p.2.2 * sh, 16383⟩

/-- R202, R205: a layer's colour and alpha at a canvas pixel: scaled, taken to R'G'B' by the matrix of R194, then converted into
the canvas space. -/
def State.layerColour (s : State) (d k l x y : Nat) : Nat × Nat × Nat × Nat :=
  let c := s.taken d k (F.CMP_SLOTs_CFG_CHANNEL d k)
  let input := s.taken d k (F.CMP_SLOTs_Ll_CFG_SRC d k l) == 0
  let q : Quad := if input then s.inputPx c d x y
    else
      let taps := s.taps d k l x y
      let p := s.srcPos d k l x y
      let f := s.filterPx d (s.compAt d k x) (s.taken d k (F.CMP_SLOTs_Ll_CFG_COEF d k l)) (scalePhase p.1) (scalePhase p.2) taps
      ⟨f (·.c0), f (·.c1), f (·.c2), f (·.a)⟩
  let fmt := s.taken d k (F.CMP_SLOTs_Ll_CFG_FORMAT d k l)
  let space := if input then s.rd (F.ING_CHc_FMT2_COLOR c) else s.taken d k (F.CMP_SLOTs_Ll_CFG_SPACE d k l)
  let full := if input then s.on (F.ING_CHc_FMT2_FULL c) else s.taken d k (F.CMP_SLOTs_Ll_CFG_FULL d k l) == 1
  let rgb := if input then s.rd (F.ING_CHc_FMT_SAMPLING c) == 2 else decide (fmt < 2)
  let depth := if input then s.storeDepth c else match fmt with | 0 => 8 | 3 => 12 | _ => 10
  let px := if rgb then fromRgb full depth (q.c0, q.c1, q.c2) else fromYcc space full depth (q.c0, q.c1, q.c2)
  let v := convertColour space (s.taken d k (F.CMP_SLOTs_COLOR_SPACE d k)) (s.taken d k (F.CMP_SLOTs_COLOR_SDR_WHITE d k)) px
  (v.1, v.2.1, v.2.2, q.a)

/-- R192: layer l blended over a canvas colour, if it is composed in this frame and covers the pixel. -/
def State.blendLayer (s : State) (d k x y l : Nat) (acc : Nat × Nat × Nat) : Nat × Nat × Nat :=
  if (s.layerSt d k l).on_ && s.covers d k l x y then
    let c := s.layerColour d k l x y
    let b := fun layer under => blend (s.taken d k (F.CMP_SLOTs_Ll_CFG_PREMULT d k l) == 1) (s.taken d k (F.CMP_SLOTs_Ll_ALPHA_OPACITY d k l)) c.2.2.2 layer under
    (b c.1 acc.1, b c.2.1 acc.2.1, b c.2.2.1 acc.2.2)
  else acc

/-! ## Flattened planes -/

/-- R210, R212: the byte of the crown's stack at which a pixel of the plane of run n lies. -/
def State.planeAt (s : State) (d k n x y : Nat) : Nat :=
  let w := s.chWidth (s.taken d k (F.CMP_SLOTs_CFG_CHANNEL d k))
  let h := s.chHeight (s.taken d k (F.CMP_SLOTs_CFG_CHANNEL d k))
  (s.taken d k (F.CMP_SLOTs_FLAT_BASE_PAGE d k) + n * ceilDiv (w * h * 8) 4096) * 4096 + (y * w + x) * 8

/-- R210: the premultiplied result of a run at a pixel, over nothing: R', G', B' and alpha. -/
def State.runPx (s : State) (d k : Nat) (run : Nat × Nat) (x y : Nat) : List Nat :=
  (List.range run.2).foldl (fun acc i =>
    let l := run.1 + i
    if s.covers d k l x y then
      let c := s.layerColour d k l x y
      let op := s.taken d k (F.CMP_SLOTs_Ll_ALPHA_OPACITY d k l)
      let b := fun layer under => blend (s.taken d k (F.CMP_SLOTs_Ll_CFG_PREMULT d k l) == 1) op c.2.2.2 layer under
      [b c.1 (acc.getD 0 0), b c.2.1 (acc.getD 1 0), b c.2.2.1 (acc.getD 2 0), blend false op c.2.2.2 16383 (acc.getD 3 0)]
    else acc) [0, 0, 0, 0]

/-- R210, R211: compose run n into its plane, 8 bytes a pixel. -/
def State.buildPlane (s : State) (d k n : Nat) (run : Nat × Nat) : State :=
  let c := s.taken d k (F.CMP_SLOTs_CFG_CHANNEL d k)
  s.forRange (s.chHeight c) fun y t => (t.snoopBits d (s.planeAt d k n 0 y * 8) (s.chWidth c * 64)).forRange (s.chWidth c) fun x t =>
    t.hbmPut d (s.planeAt d k n x y) ((s.runPx d k run x y).flatMap (natBytes 2))

/-- R210: a plane blended over a canvas colour. -/
def State.blendPlane (s : State) (d k n x y : Nat) (acc : Nat × Nat × Nat) : Nat × Nat × Nat :=
  let v := fun i => bytesNat (s.hbmRead d (s.planeAt d k n x y + 2 * i) 2)
  let b := fun i under => min 16383 (v i + quot (under * (16383 - v 3)) 16383)
  (b 0 acc.1, b 1 acc.2.1, b 2 acc.2.2)

/-! ## Occlusion -/

/-- R213: tiles of 64 x 64 pixels of a canvas w pixels wide, in raster order: a pixel's. -/
def tileOf (w x y : Nat) : Nat := y / 64 * ceilDiv w 64 + x / 64

/-- R213: the tiles that are opaque for layer l: wholly inside its destination, and every source pixel that the filters of its
pixels touch has alpha x OPACITY full. -/
def State.opaqueTiles (s : State) (d k l : Nat) : List Nat :=
  let c := s.taken d k (F.CMP_SLOTs_CFG_CHANNEL d k)
  let w := s.chWidth c
  let h := s.chHeight c
  let full := fun x y => s.covers d k l x y &&
    (s.taken d k (F.CMP_SLOTs_Ll_CFG_SRC d k l) == 0 || (s.taps d k l x y).all fun r => r.all fun q => q.a == 16383)
  if s.taken d k (F.CMP_SLOTs_CFG_OCCLUDE d k) = 0 ∨ s.taken d k (F.CMP_SLOTs_Ll_ALPHA_OPACITY d k l) ≠ 1023 then []
  else (List.range (ceilDiv w 64 * ceilDiv h 64)).filter fun t =>
    let x0 := t % ceilDiv w 64 * 64
    let y0 := t / ceilDiv w 64 * 64
    (List.range (min 64 (h - y0))).all fun j => (List.range (min 64 (w - x0))).all fun i => full (x0 + i) (y0 + j)

/-- R213: the map of layer l is built. -/
def State.mapLayer (s : State) (d k l : Nat) : State :=
  s.setLayerSt d k l { s.layerSt d k l with opaq := s.opaqueTiles d k l }

/-- R213: the highest layer composed in this frame that is opaque in the tile of a pixel: nothing below it is fetched there. -/
def State.floorLayer (s : State) (d k x y : Nat) : Nat :=
  let t := tileOf (s.chWidth (s.taken d k (F.CMP_SLOTs_CFG_CHANNEL d k))) x y
  ((List.range 16).filter fun l => (s.layerSt d k l).on_ && (s.layerSt d k l).opaq.contains t).foldl max 0

/-- R192, R210, R213: the canvas pixel: the background, then each composed layer that covers it, in order; a run whose plane is in
use comes from its plane, in place of its first layer. -/
def State.composePx (s : State) (d k x y : Nat) : Nat × Nat × Nat :=
  let bg := fun f => s.taken d k f * 16
  let start := (bg (F.CMP_SLOTs_BG_R d k), bg (F.CMP_SLOTs_BG_G d k), bg (F.CMP_SLOTs_BG_B d k))
  let runs := (State.runsOf (s.taken d k) d k).zipIdx.filter fun (r, _) =>
    (s.slotSt d k).inUse.contains r.1 && (List.range r.2).all fun i => (s.layerSt d k (r.1 + i)).on_
  let low := s.floorLayer d k x y
  (List.range 16).foldl (fun acc l =>
    match runs.find? fun (r, _) => decide (r.1 ≤ l ∧ l < r.1 + r.2) with
    | some (r, n) => if l = r.1 ∧ low < r.1 + r.2 then s.blendPlane d k n x y acc else acc
    | none => if l < low then acc else s.blendLayer d k x y l acc) start

/-- R206: the canvas pixel through the colour tables, if they are on. -/
def State.lutOut (s : State) (d k x : Nat) (c : Nat × Nat × Nat) : Nat × Nat × Nat :=
  if s.taken d k (F.CMP_SLOTs_CFG_LUT_EN d k) = 1 then s.lutPx d (s.compAt d k x) (s.taken d k (F.CMP_SLOTs_CFG_BANK d k)) c else c

/-- R206, R228: write the samples of the lines of a band to the frame slot of channel frame n: Y'CbCr in OUT_SPACE and OUT_FULL,
the chroma subsampled, rounded to the output depth. -/
def State.writeBand (s : State) (d k n band : Nat) : State :=
  let c := s.taken d k (F.CMP_SLOTs_CFG_CHANNEL d k)
  let w := s.chWidth c
  let h := s.chHeight c
  let fmt := s.taken d k (F.CMP_SLOTs_COLOR_OUT_FMT d k)
  let space := s.taken d k (F.CMP_SLOTs_COLOR_OUT_SPACE d k)
  let full := s.taken d k (F.CMP_SLOTs_COLOR_OUT_FULL d k) == 1
  let dep := outDepth fmt
  let base := (s.taken d k (F.CMP_SLOTs_OUT_BASE_PAGE d k) + n % 2 * outPages w h fmt) * 4096 * 8
  let chroma := base + (w * h * dep + 7) / 8 * 8
  let out := (List.range (min 8 (h - band * 8))).flatMap fun j => (List.range w).map fun x =>
    (x, band * 8 + j, s.lutOut d k x (s.composePx d k x (band * 8 + j)))
  let cs := out.map fun (x, y, v) => (x, y, cbOf space v, crOf space v)
  -- R87: the lines of the band, of luma and of chroma
  let lines := min 8 (h - band * 8)
  let rows := if fmt = 0 then lines else (lines + 1) / 2
  let t := (s.snoopBits d (base + band * 8 * w * dep) (lines * w * dep)).snoopBits d
    (chroma + (if fmt = 0 then band * 8 else band * 4) * (w / 2) * 2 * dep) (rows * (w / 2) * 2 * dep)
  out.foldl (fun s (x, y, v) =>
    let s := s.hbmBits d (base + (y * w + x) * dep) dep (outCode full false dep (lumaOf space v))
    if x % 2 = 0 ∧ (fmt = 0 ∨ y % 2 = 0) then
      let pair := (if fmt = 0 then y else y / 2) * (w / 2) + x / 2
      let cb := outCode full true dep (Config.chroma fmt x y cs 0)
      let cr := outCode full true dep (Config.chroma fmt x y cs 1)
      (s.hbmBits d (chroma + pair * 2 * dep) dep cb).hbmBits d (chroma + (pair * 2 + 1) * dep) dep cr
    else s) t

end Sys2Proof.Machine
end

