-- ==== Sys2Proof/Machine/Compose.lean ====
section
/-!
DEFINITION. Sys2Proof/Machine/Compose.lean: composition (10_composition_and_colour.md): layers and their images, latching, the
not-ready policies, bands, the flattening cache, coefficients and colour tables, and the commands and checks of these.
-/
namespace Sys2Proof.Machine

def State.slotOn (s : State) (d k : Nat) : Bool := s.on (F.CMP_SLOTs_CFG_EN d k)
def State.slotChan (s : State) (d k : Nat) : Nat := s.rd (F.CMP_SLOTs_CFG_CHANNEL d k)

/-! ## LAYER_SRC -/

def lsLayer (ws : List Word) : Nat := fieldAt ws 6 0 4
def lsNow (ws : List Word) : Bool := fieldAt ws 6 4 1 == 1
def lsShow (ws : List Word) : Nat := word64At ws 7
def lsAddr (ws : List Word) : Nat := word64At ws 9
def lsW (ws : List Word) : Nat := fieldAt ws 11 0 14
def lsH (ws : List Word) : Nat := fieldAt ws 11 16 13
def lsStride (ws : List Word) : Nat := fieldAt ws 12 0 24

/-- The crown a depth-1 path names. -/
def State.crownOf (s : State) (p : Nat) : Option Nat := (List.range (s.crowns + 1)).find? fun d => d != 0 && p == mkPath [d]

/-- R194: bytes a line of w pixels takes in its first plane, and bytes per pixel over all planes. -/
def lineBytes (fmt w : Nat) : Nat := match fmt with | 0 => 4 * w | 1 => 8 * w | 2 => 2 * w | _ => 6 * w
def fmtBytes (fmt : Nat) : Nat := match fmt with | 0 => 4 | 1 => 8 | _ => 6

/-- R195: the checks of a LAYER_SRC; 0 passes. -/
def State.layerCheck (s : State) (x : Desc) : Nat :=
  let ws := x.words
  let c := dStream ws / 8
  let l := lsLayer ws
  match s.crownOf (dTarget ws) with
  | none => 0x2401
  | some d =>
    match s.slotOf d c with
    | none => 0x2401
    | some k =>
      if dStream ws % 8 ≠ 0 then 0x2401
      else if (s.placement c).map (·.1) ≠ some d then 0x2402
      else if !s.on (F.CMP_SLOTs_Ll_CFG_EN d k l) ∨ s.rd (F.CMP_SLOTs_Ll_CFG_SRC d k l) ≠ 1 then 0x2403
      else if lsAddr ws % 64 ≠ 0 ∨ lsStride ws < lineBytes (s.rd (F.CMP_SLOTs_Ll_CFG_FORMAT d k l)) (lsW ws) then 0x2404
      else if (lsShow ws ≠ 0 ∧ lsNow ws) ∨ stampTick (lsShow ws) ≥ s.tpf (s.chTl c) then 0x2405
      else 0

/-- R195, R196: an accepted LAYER_SRC joins its layer's reads. -/
def State.layerStart (s : State) (r : Nat) (x : Desc) : State :=
  let s := s.startJob r x .running
  match s.crownOf (dTarget x.words) with
  | some d => match s.slotOf d (dStream x.words / 8) with
    | some k =>
      let l := lsLayer x.words
      s.setLayerSt d k l { s.layerSt d k l with queue := (s.layerSt d k l).queue ++ [jobKey r x.idx] }
    | none => s
  | none => s

/-- LAYER_SRC (R195). -/
def execLayerSrc (r : Fin 4096) (s : State) : Out :=
  .next (s.dispatch r 0x10 ([(6, 0xFFFFFFE0), (11, 0xE000C000), (12, 0xFF000000)] ++ bodyZero 13 14) State.layerCheck
    fun s x => s.layerStart r x)

/-- R196: the layer's reads that have no outcome yet, oldest first. -/
def State.layerReads (s : State) (d k l : Nat) : List (Nat × Job) :=
  (s.layerSt d k l).queue.filterMap fun key => match s.job key with
    | some j => if dOpcode j.words = 0x10 then some (key, j) else none
    | none => none

/-! ## Latching -/

/-- The stamp of a position of a slot's channel. -/
def State.chStamp (s : State) (c u : Nat) : Nat := s.unitStamp (s.chTl c) u

/-- R197: SHOW is not later than a latch point. -/
def showBy (sh : Option Nat) (latch : Nat) : Bool := match sh with | some x => !later x latch | none => true

/-- R199: an IMAGE layer is not ready at a latch point of channel frame n: an accepted read with its SHOW by then is not
complete, or EVERY_FRAME has no image of this frame. `took` says that this latch took an image. -/
def State.notReady (s : State) (d k l latch : Nat) (took : Option Img) : Bool :=
  let c := s.taken d k (F.CMP_SLOTs_CFG_CHANNEL d k)
  let start := s.chStamp c (s.frameStart c (s.chFrameNow c))
  let next := s.chStamp c (s.frameStart c (s.chFrameNow c + 1))
  let inFrame := fun (m : Option Img) => match m with
    | some i => (match i.show_ with | some x => !later start x && later next x | none => true)
    | none => false
  (s.layerReads d k l).any (fun (_, j) => showBy (if lsNow j.words then none else some (lsShow j.words)) latch) ||
    (s.taken d k (F.CMP_SLOTs_Ll_CFG_CADENCE d k l) == 1 && !inFrame took && !inFrame (s.layerSt d k l).ready)

/-- R198: the image exceeds the configured source area. -/
def State.crops (s : State) (d k l : Nat) (i : Img) : Bool :=
  decide (i.w > s.taken d k (F.CMP_SLOTs_Ll_SRCSZ_W d k l)) || decide (i.h > s.taken d k (F.CMP_SLOTs_Ll_SRCSZ_H d k l))

/-- The status bits of a layer (FILLING is read from the reads in progress). -/
def State.showLayer (s : State) (d k l : Nat) : State :=
  let x := s.layerSt d k l
  let s := (s.wr (F.CMP_SLOTs_Ll_STATUS_SHOWN d k l) (bit x.shown.isSome)).wr (F.CMP_SLOTs_Ll_STATUS_READY d k l) (bit x.ready.isSome)
  s.wr (F.CMP_SLOTs_Ll_STATUS_CROPPED d k l) (bit (match x.shown with | some i => s.crops d k l i | none => false))

/-- R211: RUNS and CURRENT of a slot. -/
def State.showRuns (s : State) (d k : Nat) : State :=
  let runs := State.runsOf (s.taken d k) d k
  let cur := (runs.zipIdx.map fun (r, i) => if (s.slotSt d k).inUse.contains r.1 then 2 ^ i else 0).sum
  (s.wr (F.CMP_SLOTs_STATUS_RUNS d k) runs.length).wr (F.CMP_SLOTs_STATUS_CURRENT d k) cur

/-- R211: the run that holds layer l becomes stale. -/
def State.staleAt (s : State) (d k l : Nat) : State :=
  let bad := fun f => (State.runsOf (s.taken d k) d k).any fun (a, n) => a == f && decide (a ≤ l ∧ l < a + n)
  let x := s.slotSt d k
  (s.setSlotSt d k { x with built := x.built.filter (!bad ·), inUse := x.inUse.filter (!bad ·) }).showRuns d k

/-- R197, R198, R200: the READY image becomes SHOWN when its SHOW is not later than the latch point. -/
def State.takeReady (s : State) (d k l latch : Nat) : State × Option Img :=
  let x := s.layerSt d k l
  match x.ready with
  | some i =>
    if showBy i.show_ latch then
      let s := s.setLayerSt d k l { x with ready := none, shown := some i }
      let s := if i.late then s.inc (F.CMP_SLOTs_Ll_CNT_C_LATE d k l) else s
      let s := if s.crops d k l i then
          let c := s.taken d k (F.CMP_SLOTs_CFG_CHANNEL d k)
          (s.inc (F.CMP_SLOTs_Ll_CNT_D_CROPS d k l)).event (mkPath [d, 8]) 0x2C01 c l (i.w + i.h * 2 ^ 16) (some (s.chTl c))
        else s
      (((s.staleAt d k l).showLayer d k l).mapLayer d k l, some i)
    else (s, none)
  | none => (s, none)

/-- R180, R193: whether layer l is composed: under SLATE that layer alone, else all but the slate-only layers. -/
def State.composes (s : State) (d k l : Nat) : Bool :=
  let c := s.taken d k (F.CMP_SLOTs_CFG_CHANNEL d k)
  s.taken d k (F.CMP_SLOTs_Ll_CFG_EN d k l) == 1 &&
    (if (s.ingCh c).shown = .slate then l == s.rd (F.ING_CHc_CFG_SLATE c) else s.taken d k (F.CMP_SLOTs_Ll_CFG_SLATE_ONLY d k l) == 0)

/-- R200: the policy of a layer that is not ready at the frame start; `have_` says that it has something to show meanwhile. -/
def State.unready (s : State) (d k l : Nat) (have_ : Bool) : State :=
  let x := s.layerSt d k l
  let on := have_ && s.composes d k l
  match s.taken d k (F.CMP_SLOTs_Ll_CFG_POLICY d k l) with
  | 1 => (s.setLayerSt d k l { x with on_ := false }).inc (F.CMP_SLOTs_Ll_CNT_A_OMITTED d k l)
  | 2 => s.setLayerSt d k l { x with on_ := on, waiting := true }
  | _ => (s.setLayerSt d k l { x with on_ := on }).inc (F.CMP_SLOTs_Ll_CNT_A_HELD d k l)

/-- The key of a layer of crown d among the omitted ones. -/
def layerKey (d k l : Nat) : Nat := d * 256 + k * 16 + l

/-- R197, R199, R200: layer l latches at the frame start. -/
def State.latchLayer (s : State) (d k latch l : Nat) : State :=
  if s.taken d k (F.CMP_SLOTs_Ll_CFG_EN d k l) = 0 then s.setLayerSt d k l { s.layerSt d k l with on_ := false, waiting := false }
  else match s.taken d k (F.CMP_SLOTs_Ll_CFG_SRC d k l) with
    | 0 => s.setLayerSt d k l { s.layerSt d k l with on_ := s.composes d k l, waiting := false }
    | 1 =>
      -- R197, R200: the latch point of a WAIT layer that is not ready moves, so it takes nothing yet
      if s.taken d k (F.CMP_SLOTs_Ll_CFG_POLICY d k l) = 2 ∧ s.notReady d k l latch none ∧
          ((s.layerSt d k l).shown.isSome ∨ (s.layerSt d k l).ready.isSome) then s.unready d k l (s.layerSt d k l).shown.isSome
      else
      let (s, took) := s.takeReady d k l latch
      let x := s.layerSt d k l
      if x.shown.isNone then s.setLayerSt d k l { x with on_ := false, waiting := false }
      else if s.notReady d k l latch took then s.unready d k l true
      else s.setLayerSt d k l { x with on_ := s.composes d k l, waiting := false }
    | _ =>
      let x := s.layerSt d k l
      let st := s.taken d k (F.CMP_SLOTs_Ll_DEC_STREAM d k l)
      let pic := mapGet (fun _ => 0) s.cmp.released (d * 1024 + st)
      let off := s.setLayerSt d k l { x with on_ := false, waiting := false }
      -- R297: a layer whose picture was revoked counts as omitted until a new one is released
      if s.pool.omitted.contains (layerKey d k l) then off.inc (F.CMP_SLOTs_Ll_CNT_A_OMITTED d k l)
      else if pic = 0 then off
      else match s.cmp.hold.find? (·.1 == d * 1024 + st) with
      | some (_, lost) =>
        -- R297, R304: what it showed last, if the channel's policy keeps it
        if x.dec.isSome ∧ !(lost && s.rd (F.ING_CHc_CFG_POLICY (s.taken d k (F.CMP_SLOTs_CFG_CHANNEL d k))) != 0) then
          s.setLayerSt d k l { x with on_ := s.composes d k l, waiting := false }
        else off
      | none =>
      if s.taken d k (F.CMP_SLOTs_Ll_CFG_CADENCE d k l) = 1 ∧ x.dec = some pic then s.unready d k l true
      else (s.setLayerSt d k l { x with dec := some pic, on_ := s.composes d k l, waiting := false }).mapLayer d k l

/-- R196, R215: a disabled layer drops its images, and its status shows it. -/
def State.dropLayer (s : State) (d k l : Nat) : State := (s.setLayerSt d k l LayerSt.init).showLayer d k l

/-- R197, R211: a slot takes up its configuration at a frame start: a run whose registers changed becomes stale, and a plane
built in the meantime comes into use. -/
def State.takeUp (s : State) (d k : Nat) : State :=
  let old := (s.slotSt d k).snap
  let new := mapKeep (inSlot d k) s.regs
  let was := fun l => s.taken d k (F.CMP_SLOTs_Ll_CFG_EN d k l) == 1
  let x := s.slotSt d k
  let s := s.setSlotSt d k { x with snap := new, band := 0, missed := 0, waitAt := 0, up := true }
  let c := s.taken d k (F.CMP_SLOTs_CFG_CHANNEL d k)
  let s := s.setSlotSt d k { s.slotSt d k with size := (s.chWidth c, s.chHeight c) }
  let s := s.forRange 16 fun l s =>
    if was l && s.taken d k (F.CMP_SLOTs_Ll_CFG_EN d k l) == 0 then s.dropLayer d k l else s
  let get := fun (m : List (Nat × Word)) a => mapGet (regReset s.variant.crowns) m a
  -- a layer that reads another decode stream has shown nothing of it
  let s := s.forRange 16 fun l s =>
    if get old (R.CMP_SLOTs_Ll_DEC d k l) == get new (R.CMP_SLOTs_Ll_DEC d k l) then s else s.setLayerSt d k l { s.layerSt d k l with dec := none }
  let sized := x.size == (s.slotSt d k).size
  let colour := get old (R.CMP_SLOTs_COLOR d k) == get new (R.CMP_SLOTs_COLOR d k) &&
    get old (R.CMP_SLOTs_FLAT_BASE d k) == get new (R.CMP_SLOTs_FLAT_BASE d k) && sized
  let same := fun l => (List.range 9).all fun w => get old (R.CMP_SLOTs_Ll_CFG d k l + 4 * w) == get new (R.CMP_SLOTs_Ll_CFG d k l + 4 * w)
  -- a plane lies where its run's number says (R212), so a run whose number has changed has none
  let runs := (State.runsOf (s.taken d k) d k).zipIdx
  let before := (State.runsOf (fun f => getBits (get old f.reg) f.lo f.width) d k).zipIdx
  let good := fun f => colour && runs.any fun ((a, n), j) => a == f && before.contains ((a, n), j) && (List.range n).all fun i => same (a + i)
  let b := x.built.filter good
  let s := (s.setSlotSt d k { s.slotSt d k with built := b, inUse := b }).showRuns d k
  -- R213: maps are rebuilt when geometry changes
  let moved := fun l => !(same l && sized && get old (R.CMP_SLOTs_CFG d k) == get new (R.CMP_SLOTs_CFG d k))
  s.forRange 16 fun l s => if moved l then s.mapLayer d k l else s

/-- R197: a slot that no longer carries the channel whose frame it composed gives up what it holds. -/
def State.slotRelease (s : State) (d k : Nat) : State :=
  let s := s.forRange 16 fun l s => s.dropLayer d k l
  (s.setSlotSt d k SlotSt.init).showRuns d k

/-- R197: the compositor's part of a channel frame start, for a slot of crown d that carries the channel. -/
def State.cmpFrameStart (s : State) (c d k : Nat) : State :=
  let s := s.takeUp d k
  let latch := s.chStamp c (s.frameStart c (s.chFrameNow c))
  s.forRange 16 fun l s => s.latchLayer d k latch l

/-- R200: a waiting DECODED layer latches a picture released since its last latch. -/
def State.decWaitDone (s : State) (d k l : Nat) : State :=
  let x := s.layerSt d k l
  let pic := mapGet (fun _ => 0) s.cmp.released (d * 1024 + s.taken d k (F.CMP_SLOTs_Ll_DEC_STREAM d k l))
  let st := d * 1024 + s.taken d k (F.CMP_SLOTs_Ll_DEC_STREAM d k l)
  if pic = 0 ∨ x.dec = some pic ∨ s.cmp.hold.any (·.1 == st) then s
  else
    let s := (s.setLayerSt d k l { x with dec := some pic, on_ := s.composes d k l, waiting := false }).mapLayer d k l
    let c := s.taken d k (F.CMP_SLOTs_CFG_CHANNEL d k)
    (s.setSlotSt d k { s.slotSt d k with waitAt := s.chUnits c }).inc (F.CMP_SLOTs_Ll_CNT_B_WAITED d k l)

/-- R200: a waiting layer that has become ready latches at once. -/
def State.waitDone (s : State) (d k l : Nat) : State :=
  let x := s.layerSt d k l
  if !x.waiting then s
  else if s.taken d k (F.CMP_SLOTs_Ll_CFG_SRC d k l) = 2 then s.decWaitDone d k l
  else
    let c := s.taken d k (F.CMP_SLOTs_CFG_CHANNEL d k)
    let latch := s.now (s.chTl c)
    if s.notReady d k l latch none then s
    else
      let s := (s.takeReady d k l latch).1
      let s := s.setLayerSt d k l { s.layerSt d k l with on_ := (s.layerSt d k l).shown.isSome && s.composes d k l, waiting := false }
      (s.setSlotSt d k { s.slotSt d k with waitAt := s.chUnits c }).inc (F.CMP_SLOTs_Ll_CNT_B_WAITED d k l)

/-- R200: a stream of crown d has released a picture: layers that wait for it look again. -/
def State.decReleased (s : State) (d st : Nat) : State :=
  s.forRange 16 fun k s => s.forRange 16 fun l s =>
    if (s.layerSt d k l).waiting ∧ s.taken d k (F.CMP_SLOTs_Ll_CFG_SRC d k l) = 2 ∧ s.taken d k (F.CMP_SLOTs_Ll_DEC_STREAM d k l) = st then s.waitDone d k l else s

/-- R121, R196: the watermark of a layer image after n lines, every plane of a line before the next line. -/
def layerWm (fmt : Nat) (ws : List Word) (n : Nat) : Wm :=
  let w := lsW ws
  let h := lsH ws
  let last := if fmt = 2 then lsStride ws * h + 2 * (lsStride ws / 2 * h) + (n - 1) * lsStride ws + 2 * w
    else (n - 1) * lsStride ws + lineBytes fmt w
  if n = 0 then Wm.zero else ⟨n, fmtBytes fmt * w * n, last, n⟩

/-- R194: the bytes that each plane of a line of w pixels takes. -/
def planeBytes (fmt w : Nat) : List Nat :=
  match fmt with | 0 => [4 * w] | 1 => [8 * w] | 2 => [2 * w, w / 2 * 2, w / 2 * 2, 2 * w] | _ => [6 * w]

/-- R196, R198: lines of an image from line y0 on, every plane of a line before the next line, go into its third of the layer buffer,
cropped on the right and at the bottom to the configured size. -/
def State.fillImage (s : State) (d : Nat) (i : Img) (y0 : Nat) (data : List Byte) : State :=
  let from_ := planeBytes i.fmt i.w
  let keep := planeBytes i.fmt (min i.w i.pw)
  let to_ := planeBytes i.fmt i.pw
  s.forRange (min (data.length / max 1 from_.sum) (i.ph - y0)) fun y s => s.forRange from_.length fun p s =>
    s.hbmWrite d (i.at_ + (to_.take p).sum * i.ph + (y0 + y) * to_.getD p 0)
      ((data.drop (y * from_.sum + (from_.take p).sum)).take (keep.getD p 0))

/-- R196: the image a LAYER_SRC begins to read, in the third of the layer buffer that neither READY nor SHOWN takes. -/
def State.newImage (s : State) (d k l : Nat) (ws : List Word) (late : Bool) : Img :=
  let x := s.layerSt d k l
  let fmt := s.rd (F.CMP_SLOTs_Ll_CFG_FORMAT d k l)
  let pw := s.rd (F.CMP_SLOTs_Ll_SRCSZ_W d k l)
  let ph := s.rd (F.CMP_SLOTs_Ll_SRCSZ_H d k l)
  let slot := ((List.range 3).find? fun j => x.ready.map (·.slot) != some j && x.shown.map (·.slot) != some j).getD 0
  ⟨lsW ws, lsH ws, if lsNow ws then none else some (lsShow ws), late, false, slot,
    (s.rd (F.CMP_SLOTs_Ll_BUF_BASE_PAGE d k l) + slot * ceilDiv (pw * ph * fmtBytes fmt) 4096) * 4096, pw, ph, fmt⟩

/-- The crown, slot and layer that a LAYER_SRC's work reads for. -/
def State.layerOf (s : State) (j : Job) : Option (Nat × Nat × Nat) :=
  match s.crownOf (dTarget j.words) with
  | some d => (s.slotOf d (dStream j.words / 8)).map fun k => (d, k, lsLayer j.words)
  | none => none

/-- R196: the image that the work of a key fills, and the lines it holds: it begins a new one where none is being filled. -/
def State.filling_ (s : State) (d k l key : Nat) (j : Job) : Filling :=
  match (s.layerSt d k l).fill with
  | some f => if f.key = key then f else ⟨key, s.newImage d k l j.words false, 0⟩
  | none => ⟨key, s.newImage d k l j.words false, 0⟩

/-- R196: the lines from the work's last safe point up to line n go into FILLING. The reads of a layer run one at a time: only the
oldest fills. -/
def State.layerLines (s : State) (key : Nat) (j : Job) (n : Nat) (data : List Byte) : State :=
  match s.layerOf j with
  | some (d, k, l) =>
    if ((s.layerReads d k l).head?.map (·.1)) ≠ some key then s
    else
      let f := s.filling_ d k l key j
      let need := (n - j.wm.rows) * (planeBytes f.img.fmt f.img.w).sum
      let t := s.fillImage d f.img j.wm.rows ((data ++ List.replicate (need - data.length) 0).take need)
      t.setLayerSt d k l { t.layerSt d k l with fill := some { f with rows := n } }
  | none => s

/-- R122, R196: FILLING of work that has ended short is discarded; what it holds beyond the watermark is undefined. -/
def State.fillDrop (s : State) (d k l : Nat) : State :=
  match (s.layerSt d k l).fill with
  | some f =>
    if (s.job f.key).isSome then s
    else
      let n := (f.img.h - f.rows) * (planeBytes f.img.fmt f.img.w).sum
      let t := (s.fillImage d f.img f.rows (s.freeBytes n)).tick
      t.setLayerSt d k l { t.layerSt d k l with fill := none }
  | none => s

/-- R196: the read at the front of a layer's reads completes; `data` is what came in since its last safe point. Its image is READY,
and replaces an older one. The image of a layer that has been disabled meanwhile is discarded. A stop that was pending acts at the
next line (R496). -/
def State.imageReady (s : State) (r : Fin 4096) (idx : Word) (data : List Byte) : State :=
  let key := descKey r idx
  match s.job key with
  | some j =>
    match s.layerOf j with
    | some (d, k, l) =>
      let ws := j.words
      let fmt := s.rd (F.CMP_SLOTs_Ll_CFG_FORMAT d k l)
      let gone := !(s.layerSt d k l).queue.contains key
      if dOpcode ws ≠ 0x10 ∨ j.phase ≠ .running ∨ j.faulted ∨ (!gone ∧ ((s.layerReads d k l).head?.map (·.1)) ≠ some key) ∨
          data.length ≠ (planeBytes fmt (lsW ws)).sum * (lsH ws - j.wm.rows) then s
      else
        let (n, o, code) := match j.stop with
          | some (o, code) => (min (lsH ws) (j.wm.rows + 1), o, code)
          | none => (lsH ws, 0, 0)
        let c := dStream ws / 8
        let sh := if lsNow ws then none else some (lsShow ws)
        let wm := layerWm fmt ws n
        let s := s.xlateRange (s.ringPasid r) (lsAddr ws + j.wm.lastOff) (wm.lastOff - j.wm.lastOff)
        let s := s.layerLines key j n data
        let f := s.filling_ d k l key j
        let s := (s.freePark (.desc r idx)).endJob key o code wm
        let x := s.layerSt d k l
        if gone ∨ o ≠ 0 then s
        else
        let late := !x.waiting && (match sh with | some t => !later t (s.chStamp c (s.frameStart c (s.chFrameNow c))) | none => false)
        let s := if x.ready.isSome then s.inc (F.CMP_SLOTs_Ll_CNT_C_SUPERSEDED d k l) else s
        let s := s.setLayerSt d k l { x with queue := x.queue.filter (· != key), ready := some { f.img with late := late }, fill := none }
        (s.showLayer d k l).waitDone d k l
    | none => s
  | none => s

/-- LAYER_IMAGE_READY (R196). -/
def execLayerImageReady (r : Fin 4096) (x : ImageRead) (s : State) : Out := .next (s.imageReady r x.idx x.data)

/-- R200: LINES channel lines pass after the frame start: a layer that still waits is handled as HOLD. -/
def State.waitExpired (s : State) (d k l : Nat) : State :=
  let x := s.layerSt d k l
  let c := s.taken d k (F.CMP_SLOTs_CFG_CHANNEL d k)
  if x.waiting ∧ s.linePos c (s.chFrameNow c) (s.taken d k (F.CMP_SLOTs_Ll_WAIT_LINES d k l)) ≤ s.chUnits c then
    -- R197: the latch point it moved to
    let s := if s.taken d k (F.CMP_SLOTs_Ll_CFG_SRC d k l) = 1 then (s.takeReady d k l (s.now (s.chTl c))).1 else s
    let y := s.layerSt d k l
    let s := s.setLayerSt d k l { y with waiting := false, on_ := y.on_ || (y.shown.isSome && s.composes d k l) }
    (s.setSlotSt d k { s.slotSt d k with waitAt := s.chUnits c }).inc (F.CMP_SLOTs_Ll_CNT_B_WAIT_EXPIRED d k l)
  else s

/-- LAYER_WAIT_EXPIRED (R200). -/
def execLayerWaitExpired (d : Fin 8) (k : Fin 16) (l : Fin 16) (s : State) : Out := .next (s.waitExpired d k l)

/-- R198: whether a shown image of the slot is cropped in this frame (the crop flag of row summaries). -/
def State.slotCropped (s : State) (d k : Nat) : Bool :=
  (List.range 16).any fun l => match (s.layerSt d k l).shown with
    | some i => (s.layerSt d k l).on_ && s.crops d k l i
    | none => false

/-! ## Bands -/

/-- R189: the last input line of a slot's next band, and the cycle at which it completed: that of the frame before counts as the
first. -/
def State.bandEnd (s : State) (d k : Nat) : Nat :=
  min ((s.slotSt d k).band * 8 + 8) (s.chHeight (s.taken d k (F.CMP_SLOTs_CFG_CHANNEL d k)))
def State.bandCycle (s : State) (d k : Nat) : Nat :=
  if (s.slotSt d k).past.isSome then 0 else (s.ingCh (s.taken d k (F.CMP_SLOTs_CFG_CHANNEL d k))).lineAt.getD (s.bandEnd d k - 1) 0

/-- The number of the next band: those that the frame before has left come first. -/
def State.nextBand (s : State) (d k : Nat) : Nat := match (s.slotSt d k).past with | some o => o.band | none => (s.slotSt d k).band

/-- R189, R197: a band may be composed: one that the frame before has left, or, of this frame, the slot has taken up a configuration,
the band's input lines are complete and no layer waits. -/
def State.bandOpen (s : State) (d k : Nat) : Bool :=
  let c := s.taken d k (F.CMP_SLOTs_CFG_CHANNEL d k)
  (s.slotSt d k).past.isSome ||
  ((s.slotSt d k).up && s.chOn c && decide ((s.slotSt d k).band * 8 < s.chHeight c) && decide (s.bandEnd d k ≤ (s.ingCh c).next) &&
    (List.range 16).all fun l => !(s.layerSt d k l).waiting)

/-- R189: the band is the one its compositors take: on none of them has a band of another slot waited since an earlier cycle. -/
def State.bandReady (s : State) (d k : Nat) : Bool :=
  let mask := fun j => s.taken d j (F.CMP_SLOTs_CFG_COMP_MASK d j)
  s.bandOpen d k && (List.range 16).all fun j =>
    j == k || mask j &&& mask k == 0 || !s.bandOpen d j || decide (s.bandCycle d k ≤ s.bandCycle d j)

/-- R189: the position by which band b of channel frame n is to be in HBM: six lines after its last input line or the latch of the
last WAIT layer, while none waits, and at the latest the handover of its row (R49): that of the stream whose row ends first with the
band or after it, or its own line where no stream is coded (notes/assumptions/136.md). -/
def State.bandDue (s : State) (d k n b : Nat) (waits : Bool) : Nat :=
  let c := s.taken d k (F.CMP_SLOTs_CFG_CHANNEL d k)
  let end_ := min (b * 8 + 8) (s.chHeight c)
  let rows := (List.range 8).flatMap fun e => if s.strOn d (k * 8 + e) then
      (List.range (if s.chInterlaced c then 2 else 1)).flatMap fun f => (List.range (s.strRows d (k * 8 + e))).map fun q => s.rowLastLine d (k * 8 + e) f q
    else []
  let last := ((rows.filter fun m => decide (end_ - 1 ≤ m)).min?).getD (end_ - 1)
  let six := max (s.linePos c n end_) (s.slotSt d k).waitAt + 6 * s.framePeriod c / max 1 (s.chLines c)
  if waits then s.handover c n last else min six (s.handover c n last)

/-- The slot as it stood in the channel frame before, whose bands are unwritten. -/
def State.pastSlot (s : State) (d k : Nat) (o : PastFrame) : State :=
  let s := s.setSlotSt d k { s.slotSt d k with snap := o.snap, layers := o.layers, inUse := o.inUse, band := o.band, missed := o.missed, waitAt := 0, past := none }
  let c := s.taken d k (F.CMP_SLOTs_CFG_CHANNEL d k)
  s.setIngCh c { s.ingCh c with shown := o.shown }

/-- The bands of a slot's canvas. -/
def State.bandCount (s : State) (d k : Nat) : Nat := ceilDiv (s.chHeight (s.taken d k (F.CMP_SLOTs_CFG_CHANNEL d k))) 8

/-- R189: n bands count as late, on every compositor of the slot. -/
def State.countLate (s : State) (d k n : Nat) : State :=
  let mask := s.taken d k (F.CMP_SLOTs_CFG_COMP_MASK d k)
  if n = 0 then s else s.forRange 4 fun j s => if mask / 2 ^ j % 2 = 1 then s.add (F.CMP_Ck_COUNT_LATE_BANDS d j) n else s

/-- R189: bands of channel frame n, from the next one on, that line time has passed unwritten and that are not counted yet. -/
def State.bandsPassed (s : State) (d k n : Nat) : Nat :=
  let x := s.slotSt d k
  let c := s.taken d k (F.CMP_SLOTs_CFG_CHANNEL d k)
  let b := max x.band x.missed
  let waits := (List.range 16).any fun l => (s.layerSt d k l).waiting
  ((List.range (s.bandCount d k - b)).takeWhile fun i => decide (s.bandDue d k n (b + i) waits < s.chUnits c)).length

/-- R189: the bands of a slot that have become late, those of the frame before first. -/
def State.slotLate (s : State) (d k : Nat) : State :=
  let s := match (s.slotSt d k).past with
    | some o =>
      let n := (s.pastSlot d k o).bandsPassed d k o.frame
      if n = 0 then s
      else (s.countLate d k n).setSlotSt d k { s.slotSt d k with past := some { o with missed := max o.band o.missed + n } }
    | none => s
  let x := s.slotSt d k
  let c := s.taken d k (F.CMP_SLOTs_CFG_CHANNEL d k)
  if !x.up ∨ !s.chOn c ∨ !s.tlRunning (s.chTl c) then s
  else
    let n := s.bandsPassed d k (s.chFrameNow c)
    if n = 0 then s else (s.countLate d k n).setSlotSt d k { x with missed := max x.band x.missed + n }

/-- R189: the channel frame ends: bands that it leaves are still to be written. Those that were left before are given up. -/
def State.slotPast (s : State) (d k : Nat) : State :=
  let x := s.slotSt d k
  let c := s.taken d k (F.CMP_SLOTs_CFG_CHANNEL d k)
  let s := match x.past with
    | some o =>
      let n := (s.pastSlot d k o).bandCount d k - max o.band o.missed
      (s.countLate d k n).setSlotSt d k { x with past := none }
    | none => s
  if x.up ∧ s.chOn c ∧ x.band < s.bandCount d k then
    s.setSlotSt d k { s.slotSt d k with past := some ⟨x.snap, x.layers, x.inUse, x.band, x.missed, (s.ingCh c).shown, s.chFrameNow c⟩ }
  else s

/-- R189: the last line of the next band is in HBM. One that comes too late counts, unless it has been counted. -/
def State.bandWritten (s : State) (d k : Nat) : State :=
  if !s.bandReady d k then s
  else match (s.slotSt d k).past with
    | some o =>
      let t := (s.pastSlot d k o).writeBand d k o.frame o.band
      let left := decide (o.band + 1 < t.bandCount d k)
      let s := { s with hbm := t.hbm, sent := t.sent }
      s.setSlotSt d k { s.slotSt d k with past := if left then some { o with band := o.band + 1 } else none }
    | none =>
      let x := s.slotSt d k
      let c := s.taken d k (F.CMP_SLOTs_CFG_CHANNEL d k)
      let n := s.chFrameNow c
      let s := s.writeBand d k n x.band
      let s := if x.missed ≤ x.band ∧ s.bandDue d k n x.band false < s.chUnits c then s.countLate d k 1 else s
      s.setSlotSt d k { s.slotSt d k with band := x.band + 1 }

/-- BAND_WRITTEN (R189): of the band that the slot composes next. -/
def execBandWritten (d : Fin 8) (k : Fin 16) (band : Nat) (s : State) : Out :=
  .next (s.when (s.nextBand d k == band) fun s => s.bandWritten d k)

/-- What passes in composition in one cycle: bands become late (R189), a layer that waits latches once it is ready (R200), and a
FILLING image whose read has ended short is discarded (R196). -/
def State.composeCycle (s : State) : State :=
  s.cmp.slots.foldl (fun s (i, _) =>
    let s := s.slotLate (i / 16) (i % 16)
    (s.slotSt (i / 16) (i % 16)).layers.foldl (fun s (l, _) => (s.fillDrop (i / 16) (i % 16) l).waitDone (i / 16) (i % 16) l) s) s

/-- R211: the rebuild of the plane of the run that begins at layer l completes. -/
def State.rebuilt (s : State) (d k l : Nat) : State :=
  let x := s.slotSt d k
  if (State.runsOf (s.taken d k) d k).any (·.1 == l) ∧ !x.built.contains l then
    let mask := s.taken d k (F.CMP_SLOTs_CFG_COMP_MASK d k)
    let s := ((State.runsOf (s.taken d k) d k).zipIdx.find? fun (r, _) => r.1 == l).elim s fun (r, n) => s.buildPlane d k n r
    let s := s.setSlotSt d k { x with built := x.built ++ [l] }
    s.forRange 4 fun j s => if mask / 2 ^ j % 2 = 1 then s.inc (F.CMP_Ck_COUNT_FLATTENS d j) else s
  else s

/-- FLATTEN_REBUILD_DONE (R211). -/
def execFlattenRebuildDone (d : Fin 8) (k : Fin 16) (l : Fin 16) (s : State) : Out := .next (s.rebuilt d k l)

/-! ## Coefficients -/

def pComp (d k : Nat) : Nat := mkPath [d, 8 + k]

/-- R204: an enabled layer on compositor k names a coefficient set, in its active copy or in a staged set; COEF of an INPUT layer is
ignored (R193). -/
def State.coefInUse (s : State) (d k set : Nat) : Bool :=
  (List.range 16).any fun sl =>
    (s.copies (R.CMP_SLOTs_CFG d sl)).any (fun v => decide (getBits v 11 4 / 2 ^ k % 2 = 1)) &&
      (List.range 16).any fun l => (s.copies (R.CMP_SLOTs_Ll_CFG d sl l)).any fun v => getBits v 0 1 == 1 && getBits v 1 2 != 0 && getBits v 13 2 == set

/-- R493: TAP steps through 0 to 7, then PHASE. -/
def State.coefStep (s : State) (d : Nat) : State :=
  if !s.on (F.CMP_COEF_SEL_AUTOINC d) then s
  else
    let t := s.rd (F.CMP_COEF_SEL_TAP d)
    let s := s.wr (F.CMP_COEF_SEL_TAP d) (t + 1)
    if t = 7 then s.wr (F.CMP_COEF_SEL_PHASE d) (s.rd (F.CMP_COEF_SEL_PHASE d) + 1) else s

/-- R204, R493: the selected coefficient, 0 at vertical taps 6 and 7. -/
def State.coefRead (s : State) (d : Nat) : Int :=
  s.coef d (s.rd (F.CMP_COEF_SEL_COMP d)) (s.rd (F.CMP_COEF_SEL_SET d)) (s.rd (F.CMP_COEF_SEL_DIR d)) (s.rd (F.CMP_COEF_SEL_PHASE d)) (s.rd (F.CMP_COEF_SEL_TAP d))

/-- R204, R493: an access to CMP_COEF_DATA: a read, or a write of a word. -/
def State.coefAccess (s : State) (d : Nat) (v : Option Word) : State :=
  match v with
  | none => ({ s with rdata := BitVec.ofNat 32 (wrap 10 (s.coefRead d)) } : State).coefStep d
  | some w =>
    let k := s.rd (F.CMP_COEF_SEL_COMP d)
    let set := s.rd (F.CMP_COEF_SEL_SET d)
    let dir := s.rd (F.CMP_COEF_SEL_DIR d)
    let tap := s.rd (F.CMP_COEF_SEL_TAP d)
    if dir = 1 ∧ 6 ≤ tap then s.coefStep d
    else if s.coefInUse d k set then (s.refuse (pComp d k) [R.CMP_STATUS d] 0x2108 (R.CMP_COEF_DATA d)).coefStep d
    else
      let key := coefKey d k set dir (s.rd (F.CMP_COEF_SEL_PHASE d)) tap
      ({ s with cmp := { s.cmp with coefs := mapSet coefReset s.cmp.coefs key (signed 10 (getBits w 0 10)) } } : State).coefStep d

/-- CMP_COEF_ACCESS (R493). -/
def execCmpCoefAccess (d : Fin 8) (v : Option Word) (s : State) : Out := .next (s.coefAccess d v)

/-! ## Colour tables -/

/-- R209: an enabled slot with LUT_EN = 1 names the bank on the compositor, in its active copy or in a staged set. -/
def State.bankInUse (s : State) (d k b : Nat) : Bool :=
  (List.range 16).any fun sl => (s.copies (R.CMP_SLOTs_CFG d sl)).any fun v =>
    getBits v 0 1 == 1 && getBits v 9 1 == 1 && getBits v 10 1 == b && decide (getBits v 11 4 / 2 ^ k % 2 = 1)

/-- A write of table data: refused while the bank is in use or the index lies beyond its table. -/
def State.lutWrite (s : State) (d k : Nat) (a : Nat) (f : State → State) : State :=
  let b := s.rd (F.LUT_Ck_SEL_BANK d k)
  let t := s.rd (F.LUT_Ck_SEL_TABLE d k)
  let no := fun code => s.refuse (pComp d k) [R.LUT_Ck_STATUS d k] code a
  if s.bankInUse d k b then no 0x2301
  else if t = 3 ∨ lutSize t ≤ s.rd (F.LUT_Ck_SEL_INDEX d k) then no 0x2302
  else (f s).wr (F.LUT_Ck_STATUS_CRC_BUSY d k) (s.rd (F.LUT_Ck_STATUS_CRC_BUSY d k) ||| 2 ^ b)

/-- R216: INDEX steps after a committing write. -/
def State.lutStep (s : State) (d k : Nat) : State :=
  if s.on (F.LUT_Ck_SEL_AUTOINC d k) then s.wr (F.LUT_Ck_SEL_INDEX d k) (s.rd (F.LUT_Ck_SEL_INDEX d k) + 1) else s

/-- R209, R216: a write of LUT_Ck_DATA0: it commits a shaper value, or holds R' and G' of a node. -/
def State.lutData0 (s : State) (d k : Nat) (v : Word) : State :=
  s.lutWrite d k (R.LUT_Ck_DATA0 d k) fun s =>
    let s := (s.wr (F.LUT_Ck_DATA0_V0 d k) v.toNat).wr (F.LUT_Ck_DATA0_V1 d k) (getBits v 14 14)
    if s.rd (F.LUT_Ck_SEL_TABLE d k) = 1 then s
    else (s.setLut d k (s.rd (F.LUT_Ck_SEL_BANK d k)) (s.rd (F.LUT_Ck_SEL_TABLE d k)) (s.rd (F.LUT_Ck_SEL_INDEX d k)) (getBits v 0 14)).lutStep d k

/-- LUT_DATA0_WRITE (R209). -/
def execLutData0Write (d : Fin 8) (k : Fin 4) (v : Word) (s : State) : Out := .next (s.lutData0 d k v)

/-- R209, R216: a write of LUT_Ck_DATA1: it commits a 3D LUT node. -/
def State.lutData1 (s : State) (d k : Nat) (v : Word) : State :=
  s.lutWrite d k (R.LUT_Ck_DATA1 d k) fun s =>
    let s := s.wr (F.LUT_Ck_DATA1_V2 d k) v.toNat
    if s.rd (F.LUT_Ck_SEL_TABLE d k) = 1 then
      (s.setLut d k (s.rd (F.LUT_Ck_SEL_BANK d k)) 1 (s.rd (F.LUT_Ck_SEL_INDEX d k))
        (s.rd (F.LUT_Ck_DATA0_V0 d k) + s.rd (F.LUT_Ck_DATA0_V1 d k) * 2 ^ 14 + getBits v 0 14 * 2 ^ 28)).lutStep d k
    else s

/-- LUT_DATA1_WRITE (R209). -/
def execLutData1Write (d : Fin 8) (k : Fin 4) (v : Word) (s : State) : Out := .next (s.lutData1 d k v)

/-- R209: a bank's CRC is recomputed. -/
def State.lutCrcDone (s : State) (d k b : Nat) : State :=
  let busy := s.rd (F.LUT_Ck_STATUS_CRC_BUSY d k)
  if busy / 2 ^ b % 2 = 1 then
    (s.setReg (R.LUT_Ck_CRCb d k b) (BitVec.ofNat 32 (crc32c (s.bankBytes d k b)))).wr (F.LUT_Ck_STATUS_CRC_BUSY d k) (busy - 2 ^ b)
  else s

/-- LUT_CRC_DONE (R209). -/
def execLutCrcDone (d : Fin 8) (k : Fin 4) (b : Fin 2) (s : State) : Out := .next (s.lutCrcDone d k b)

/-! ## Commits -/

/-- R197: the frame in progress of the channel that a slot composes keeps the configuration it has. -/
def State.slotRuns (s : State) (d k : Nat) : Bool :=
  let c := s.taken d k (F.CMP_SLOTs_CFG_CHANNEL d k)
  (s.slotSt d k).up && s.chOn c && s.tlRunning (s.chTl c)

/-- R190, R197, R213: what a commit that has changed composition registers shows: a disabled slot or layer drops its images, at once
where no frame of its channel is in progress; OCC_USED counts the privileged slots. -/
def State.cmpCommit (o s : State) (d : Nat) : State :=
  let s := s.forRange 16 fun k s =>
    if s.slotRuns d k then s
    else if o.slotOn d k && !s.slotOn d k then s.slotRelease d k
    else s.forRange 16 fun l s =>
      if o.on (F.CMP_SLOTs_Ll_CFG_EN d k l) && !s.on (F.CMP_SLOTs_Ll_CFG_EN d k l) then s.dropLayer d k l else s
  s.wr (F.CMP_STATUS_OCC_USED d) ((List.range 16).filter fun k => s.slotOn d k && s.on (F.CMP_SLOTs_CFG_OCCLUDE d k)).length

/-! ## The check -/

/-- R33: composed pixels a second of a channel, times 4,004, over `w` columns. -/
def State.pixRate (s : State) (c w : Nat) : Nat := w * s.chHeight c * s.chRate c
def compCap : Nat := 2400000000 * 4004

/-- R190: the columns each compositor of a slot composes, as (compositor, width). -/
def State.compCols (s : State) (d k : Nat) : List (Nat × Nat) :=
  let ks := (List.range 4).filter fun j => s.rd (F.CMP_SLOTs_CFG_COMP_MASK d k) / 2 ^ j % 2 == 1
  let w := s.chWidth (s.slotChan d k)
  let xs := ([s.rd (F.CMP_SLOTs_SPLIT_X1 d k), s.rd (F.CMP_SLOTs_SPLIT_X2 d k), s.rd (F.CMP_SLOTs_SPLIT_X3 d k)].take (ks.length - 1)).map (· * 64)
  let edges := [0] ++ xs ++ [w]
  ks.zipIdx.map fun (j, i) => (j, edges.getD (i + 1) 0 - edges.getD i 0)

/-- R33: the rate assigned to compositor j of a crown. -/
def State.compRate (s : State) (d j : Nat) : Nat :=
  ((List.range 16).map fun k => if s.slotOn d k then ((s.compCols d k).map fun (i, w) => if i = j then s.pixRate (s.slotChan d k) w else 0).sum else 0).sum

/-- R190: a boundary lies on a tile-column boundary of every rendition. -/
def State.onTiles (s : State) (d k x : Nat) : Bool :=
  let c := s.slotChan d k
  (List.range 8).all fun e =>
    let i := k * 8 + e
    !s.strOn d i || (s.tileEdges d i).any fun t => t * s.chWidth c == x * s.strW d i

/-- The private areas of a crown that composition slots and layers use, in pages, with a tag of the owner. -/
def State.cmpAreas (s : State) (d : Nat) : List (Nat × Nat × Nat) :=
  (List.range 16).flatMap fun k =>
    if s.slotOn d k then
      (k * 32, s.rd (F.CMP_SLOTs_OUT_BASE_PAGE d k), s.rd (F.CMP_SLOTs_OUT_SIZE_PAGES d k)) ::
      (List.range 16).filterMap fun l =>
        if s.on (F.CMP_SLOTs_Ll_CFG_EN d k l) && s.rd (F.CMP_SLOTs_Ll_CFG_SRC d k l) == 1 then
          some (k * 32 + 1 + l, s.rd (F.CMP_SLOTs_Ll_BUF_BASE_PAGE d k l), s.rd (F.CMP_SLOTs_Ll_BUF_SIZE_PAGES d k l)) else none
    else []

/-- An area overlaps another one of the crown, the flattening region among them, or leaves its private memory. -/
def State.cmpAreaBad (s : State) (d tag : Nat) (a : Nat × Nat) : Bool :=
  decide (s.privatePages d < a.1 + a.2) || (s.cmpAreas d).any (fun (t, b) => t != tag && rangesMeet a b) ||
    rangesMeet a (s.rd (F.CMP_FLAT_BASE_PAGE d), s.rd (F.CMP_FLAT_SIZE_PAGES d))

/-- R212: the flattening region of a crown is bad. -/
def State.flatRegionBad (s : State) (d : Nat) : Bool :=
  decide (s.rd (F.CMP_FLAT_SIZE_PAGES d) > 524288) || decide (s.privatePages d < s.rd (F.CMP_FLAT_BASE_PAGE d) + s.rd (F.CMP_FLAT_SIZE_PAGES d))

/-- R141, R212: a write of CMP_FLAT_BASE or CMP_FLAT_SIZE: refused while a slot is enabled, or will be by an ARMED set, or where the
region would be bad. -/
def State.flatWrite (s : State) (d a : Nat) (v : Word) : State :=
  let t := s.setReg a v
  if s.bases.any (fun b => (List.range 16).any (b.slotOn d)) ∨ t.flatRegionBad d then s.refuse (mkPath [d, 8]) [R.CMP_STATUS d] 0x2202 a else t

/-- R212: a slot's flattening area is bad. -/
def State.flatBad (s : State) (d k : Nat) : Bool :=
  let c := s.slotChan d k
  let runs := State.runsOf s.rd d k
  let a := fun j => (s.rd (F.CMP_SLOTs_FLAT_BASE_PAGE d j), s.rd (F.CMP_SLOTs_FLAT_SIZE_PAGES d j))
  let b := s.rd (F.CMP_FLAT_BASE_PAGE d)
  decide ((a k).2 < runs.length * ceilDiv (s.chWidth c * s.chHeight c * 8) 4096) ||
    ((a k).2 != 0 && (decide ((a k).1 < b) || decide (b + s.rd (F.CMP_FLAT_SIZE_PAGES d) < (a k).1 + (a k).2) ||
      (List.range 16).any fun j => j != k && s.slotOn d j && (a j).2 != 0 && rangesMeet (a k) (a j)))

/-- The composition rules of R141 for slot k of crown d. -/
def cmpSlotRules (o s : State) (d k : Nat) : List Rule :=
  let st := [R.CMP_SLOTs_STATUS d k, R.CMP_STATUS d]
  let us := (List.range 8).map (fun i => R.CMP_SLOTs_CFG d k + 4 * i) ++ [R.ING_CHc_FMT (s.slotChan d k)]
  let en := s.slotOn d k
  let c := s.slotChan d k
  let cols := s.compCols d k
  let need := ceilDiv (s.pixRate c (s.chWidth c)) compCap
  let xs := [s.rd (F.CMP_SLOTs_SPLIT_X1 d k), s.rd (F.CMP_SLOTs_SPLIT_X2 d k), s.rd (F.CMP_SLOTs_SPLIT_X3 d k)]
  let used := xs.take (cols.length - 1)
  let asc := (used.zip (used.drop 1)).all fun (a, b) => decide (a < b)
  let lut := s.on (F.CMP_SLOTs_CFG_LUT_EN d k)
  let bank := s.rd (F.CMP_SLOTs_CFG_BANK d k)
  let changed := !(o.slotOn d k) || !o.on (F.CMP_SLOTs_CFG_LUT_EN d k) || o.rd (F.CMP_SLOTs_CFG_BANK d k) != bank
  let crcs := cols.map fun (j, _) => s.reg (R.LUT_Ck_CRCb d j bank)
  let fmt := s.rd (F.CMP_SLOTs_COLOR_OUT_FMT d k)
  let area := (s.rd (F.CMP_SLOTs_OUT_BASE_PAGE d k), s.rd (F.CMP_SLOTs_OUT_SIZE_PAGES d k))
  let white := s.rd (F.CMP_SLOTs_COLOR_SDR_WHITE d k)
  rulesAt (R.CMP_SLOTs_CFG d k) st us
    [(0x2001, decide (c > 95) || (en && (s.placements c).any fun (e, j) => (e, j) != (d, k) && (e == d || !s.onePair (d, k) (e, j)))),
     (0x2002, en && (decide (cols.length ≠ max 1 need) || cols.any fun (j, _) => decide (s.compRate d j > compCap))),
     (0x2303, en && lut && changed && crcs.any fun v => v != crcs.headD (0 : Word)),
     (0x2304, en && lut && changed && cols.any fun (j, _) => s.rd (F.LUT_Ck_STATUS_CRC_BUSY d j) != 0),
     (0x2201, en && s.on (F.CMP_SLOTs_CFG_OCCLUDE d k) &&
        decide (((List.range 16).filter fun j => s.slotOn d j && s.on (F.CMP_SLOTs_CFG_OCCLUDE d j)).length > 8))] ++
  rulesAt (R.CMP_SLOTs_SPLIT d k) st us
    [(0x2003, en && (used.any (· == 0) || !asc || (xs.drop (cols.length - 1)).any (· != 0) ||
        used.any fun x => decide (x * 64 ≥ s.chWidth c) || !s.onTiles d k (x * 64)))] ++
  rulesAt (R.CMP_SLOTs_COLOR d k) st us
    [(0x2004, fmt == 3),
     (0x2005, (en && !lut && s.rd (F.CMP_SLOTs_COLOR_OUT_SPACE d k) != s.rd (F.CMP_SLOTs_COLOR_SPACE d k)) || decide (white < 80 ∨ white > 400))] ++
  rulesAt (R.CMP_SLOTs_OUT_BASE d k) st us [(0x2004, en && s.cmpAreaBad d (k * 32) area)] ++
  rulesAt (R.CMP_SLOTs_OUT_SIZE d k) st us [(0x2004, en && decide (area.2 < 2 * outPages (s.chWidth c) (s.chHeight c) fmt))] ++
  rulesAt (R.CMP_SLOTs_FLAT_BASE d k) st (us ++ (List.range 16).map (R.CMP_SLOTs_Ll_CFG d k)) [(0x2202, en && (s.flatBad d k || s.flatRegionBad d))]

/-- The composition rules of R141 for a layer. -/
def cmpLayerRules (s : State) (d k l : Nat) : List Rule :=
  let st := [R.CMP_SLOTs_Ll_STATUS d k l, R.CMP_STATUS d]
  let us := (List.range 9).map fun i => R.CMP_SLOTs_Ll_CFG d k l + 4 * i
  let c := s.slotChan d k
  let en := s.on (F.CMP_SLOTs_Ll_CFG_EN d k l)
  let src := s.rd (F.CMP_SLOTs_Ll_CFG_SRC d k l)
  let fmt := s.rd (F.CMP_SLOTs_Ll_CFG_FORMAT d k l)
  let pic := src == 1 || src == 2
  let ph := s.rd (F.CMP_SLOTs_Ll_CFG_PRE_H d k l)
  let pv := s.rd (F.CMP_SLOTs_Ll_CFG_PRE_V d k l)
  let sw := s.rd (F.CMP_SLOTs_Ll_SRCSZ_W d k l)
  let sh := s.rd (F.CMP_SLOTs_Ll_SRCSZ_H d k l)
  let dw := s.rd (F.CMP_SLOTs_Ll_DSTSZ_W d k l)
  let dh := s.rd (F.CMP_SLOTs_Ll_DSTSZ_H d k l)
  let x := s.rdS (F.CMP_SLOTs_Ll_DST_X d k l)
  let y := s.rdS (F.CMP_SLOTs_Ll_DST_Y d k l)
  let stepBad := fun a b => decide (a < 4096 ∨ a > 131072 ∨ b < 4096 ∨ b > 131072)
  let inputs := (List.range 16).filter fun j => s.on (F.CMP_SLOTs_Ll_CFG_EN d k j) && s.rd (F.CMP_SLOTs_Ll_CFG_SRC d k j) == 0
  let buf := (s.rd (F.CMP_SLOTs_Ll_BUF_BASE_PAGE d k l), s.rd (F.CMP_SLOTs_Ll_BUF_SIZE_PAGES d k l))
  rulesAt (R.CMP_SLOTs_Ll_CFG d k l) st (us ++ [R.CMP_SLOTs_CFG d k])
    [(0x2101, src == 3 || (en && ((src == 0 && decide (inputs.length > 1)) || (src != 1 && s.on (F.CMP_SLOTs_Ll_CFG_STATIC d k l)) ||
        (src == 2 && !(s.slotOf d (s.rd (F.CMP_SLOTs_Ll_DEC_STREAM d k l) / 8)).isSome)))),
     (0x2006, en && src == 0 && !s.chOn c),
     (0x2102, en && src == 2 && decide (fmt < 2)),
     (0x2103, s.rd (F.CMP_SLOTs_Ll_CFG_POLICY d k l) == 3),
     (0x2105, ph == 3 || pv == 3),
     (0x2107, en && pic && decide (prescaled sw ph > 8192)),
     (0x2108, en && pic && (s.compCols d k).any fun (j, _) => !s.coefSumsOk d j (s.rd (F.CMP_SLOTs_Ll_CFG_COEF d k l))),
     (0x2109, en && !s.slotOn d k)] ++
  rulesAt (R.CMP_SLOTs_Ll_SRCSZ d k l) st us [(0x2106, en && pic && (sw == 0 || sh == 0))] ++
  rulesAt (R.CMP_SLOTs_Ll_DST d k l) st us
    [(0x2106, en && pic && decide (x + dw ≤ 0 ∨ y + dh ≤ 0 ∨ (s.chWidth c : Int) ≤ x ∨ (s.chHeight c : Int) ≤ y))] ++
  rulesAt (R.CMP_SLOTs_Ll_DSTSZ d k l) st us
    [(0x2105, en && pic && dw != 0 && dh != 0 && stepBad (scaleStep (prescaled sw ph) dw) (scaleStep (prescaled sh pv) dh)),
     (0x2106, en && pic && (dw == 0 || dh == 0))] ++
  rulesAt (R.CMP_SLOTs_Ll_WAIT d k l) st (us ++ [R.LT_CHc_DELAY c])
    [(0x2110, en && s.rd (F.CMP_SLOTs_Ll_CFG_POLICY d k l) == 2 &&
        decide (s.rd (F.LT_CHc_DELAY_D c) < s.dMin c + s.rd (F.CMP_SLOTs_Ll_WAIT_LINES d k l)))] ++
  rulesAt (R.CMP_SLOTs_Ll_BUF_BASE d k l) st us [(0x2104, en && src == 1 && s.cmpAreaBad d (k * 32 + 1 + l) buf)] ++
  rulesAt (R.CMP_SLOTs_Ll_BUF_SIZE d k l) st us
    [(0x2104, en && src == 1 && decide (buf.2 < 3 * ceilDiv (sw * sh * fmtBytes fmt) 4096))]

end Sys2Proof.Machine
end

