-- ==== Sys2Proof/Machine/Pool.lean ====
section
/-!
DEFINITION. Sys2Proof/Machine/Pool.lean: the reference pool (14_reference_pool_and_decode.md, R289 to R298): buffer
descriptors, the groups of streams, marks, and epoch objects with their revocation.
-/
namespace Sys2Proof.Machine

def State.buf (s : State) (d b : Nat) : BufD := mapGet (fun _ => BufD.init) s.pool.bufs (d * 2048 + b)
def State.setBuf (s : State) (d b : Nat) (x : BufD) : State :=
  { s with pool := { s.pool with bufs := mapSet (fun _ => BufD.init) s.pool.bufs (d * 2048 + b) x } }

def State.encSt (s : State) (d i : Nat) : EncSt := mapGet (fun _ => EncSt.init) s.enc.strs (d * 128 + i)
def State.setEncSt (s : State) (d i : Nat) (x : EncSt) : State :=
  { s with enc := { s.enc with strs := mapSet (fun _ => EncSt.init) s.enc.strs (d * 128 + i) x } }
def State.decSt (s : State) (d i : Nat) : DecSt := mapGet (fun _ => DecSt.init) s.dec (d * 128 + i)
def State.setDecSt (s : State) (d i : Nat) (x : DecSt) : State :=
  { s with dec := mapSet (fun _ => DecSt.init) s.dec (d * 128 + i) x }

/-- R290: bits per pixel of a format. -/
def fmtBpp (chroma depth8 : Bool) : Nat := if chroma then (if depth8 then 16 else 20) else (if depth8 then 12 else 15)

/-- R290: pages of a buffer of a size and format. -/
def bufPagesOf (w h bpp : Nat) : Nat :=
  ceilDiv (w * h * bpp) 32768 + ceilDiv (w * h) 65536 + ceilDiv (ceilDiv w 16 * ceilDiv h 16 * 8) 4096

def State.decOn (s : State) (d i : Nat) : Bool := s.on (F.DEC_STRi_CFG_EN d i)

/-- R290, R291: BUFPAGES and BUFS of the stream at index i, encode or decode. -/
def State.bufPages (s : State) (d i : Nat) : Nat :=
  if s.decOn d i then
    bufPagesOf (s.rd (F.DEC_STRi_SIZE_W d i)) (s.rd (F.DEC_STRi_SIZE_H d i)) (fmtBpp (s.on (F.DEC_STRi_CFG_CHROMA d i)) (s.on (F.DEC_STRi_CFG_DEPTH8 d i)))
  else bufPagesOf (s.strW d i) (s.strH d i) (fmtBpp (s.on (F.ENC_STRi_CFG_CHROMA d i)) (s.on (F.ENC_STRi_CFG_DEPTH8 d i)))
def State.bufCount (s : State) (d i : Nat) : Nat :=
  if s.decOn d i then s.rd (F.DEC_STRi_CFG_DPB d i) + 4
  else 2 + s.rd (F.ENC_STRi_GOP_NREF d i) + s.rd (F.ENC_STRi_GOP_LTR d i)

/-- R291: the buffers of a stream's group, in ascending order of their pages. -/
def State.group (s : State) (d id : Nat) : List Nat :=
  if id = 0x3FF then [] else (List.range 2048).filter fun b => (s.buf d b).owner == id

/-- POOL_STATUS.FREE follows the descriptors. -/
def State.showFree (s : State) (d : Nat) : State :=
  s.wr (F.POOL_STATUS_FREE d) ((List.range 2048).filter fun b => (s.buf d b).owner == 0x3FF).length

/-- R289, R290: buffer b joins a stream's group at place k of its area. -/
def State.placeBuf (s : State) (d i b k : Nat) : State :=
  s.setBuf d b { BufD.init with kind := bit (s.decOn d i), epoch := (s.buf d b).epoch, owner := s.strId d i, page := (s.rd (F.POOL_STRi_BASE_PAGE d i) + k * s.bufPages d i) % 2 ^ 23 }

/-- R291: reserve the group of the stream at index i: the lowest free descriptors. -/
def State.reserveGroup (s : State) (d i : Nat) : State :=
  let n := s.bufCount d i
  let pages := s.bufPages d i
  let bs := ((List.range 2048).filter fun b => (s.buf d b).owner == 0x3FF).take n
  let s := bs.zipIdx.foldl (fun s (b, k) => s.placeBuf d i b k) s
  ((s.wr (F.POOL_STRi_INFO_BUFS d i) bs.length).wr (F.POOL_STRi_INFO_BUFPAGES d i) pages).showFree d

/-- R291, R239: a live encode stream whose NREF or LTR has changed: the group grows at the commit; it shrinks from the end of its area, at the
commit or at a picture start, as soon as its last buffer is FREE. -/
def State.fitGroup (s : State) (d i : Nat) : State :=
  let id := s.strId d i
  let n := s.bufCount d i
  let place := fun (s : State) (k : Nat) => (s.group d id).find? fun b => (s.buf d b).page == (s.rd (F.POOL_STRi_BASE_PAGE d i) + k * s.bufPages d i) % 2 ^ 23
  let s := s.forRange n fun k s =>
    if (place s k).isSome then s
    else match (List.range 2048).find? fun b => (s.buf d b).owner == 0x3FF with
      | some b => s.placeBuf d i b k
      | none => s
  let s := s.forRange 4 fun k s =>
    match place s (n + 3 - k), place s (n + 4 - k) with
    | some b, none => if (s.buf d b).mark = 0 then s.setBuf d b { BufD.init with epoch := (s.buf d b).epoch } else s
    | _, _ => s
  (s.wr (F.POOL_STRi_INFO_BUFS d i) (s.group d id).length).showFree d

/-- R293: the stream goes OFF: its descriptors return to the free list. -/
def State.releaseGroup (s : State) (d i id : Nat) : State :=
  let s := (s.group d id).foldl (fun s b => s.setBuf d b { BufD.init with epoch := (s.buf d b).epoch }) s
  ((s.wr (F.POOL_STRi_INFO_BUFS d i) 0).wr (F.POOL_STRi_INFO_BUFPAGES d i) 0).showFree d

/-- R293: a buffer goes to FREE within its group. -/
def State.freeBuf (s : State) (d b : Nat) : State :=
  s.setBuf d b { s.buf d b with mark := 0, ltref := false, alias_ := false, pins := 0 }

/-- R293: allocate a FREE buffer of a stream's group for a picture. -/
def State.allocBuf (s : State) (d id pic order : Nat) : State × Option Nat :=
  match (s.group d id).find? (fun b => (s.buf d b).mark == 0) with
  | some b =>
    let x := s.buf d b
    (({ s with pool := { s.pool with coarse := mapSet (fun _ => []) s.pool.coarse (d * 2048 + b) [] } } : State).setBuf d b { x with mark := 1, epoch := (x.epoch + 1) % 256, pic := pic % 2 ^ 32, order := order % 2 ^ 32, ltref := false, alias_ := false, pins := 0, grey := none }, some b)
  | none => (s, none)

/-- R293: a reference is dropped: OUTPUT-PENDING while it is pinned or awaits output, else FREE. -/
def State.dropRef (s : State) (d b : Nat) (await : Bool) : State :=
  let x := s.buf d b
  if x.mark = 0 ∨ x.mark = 1 then s
  else if x.pins ≠ 0 ∨ await then s.setBuf d b { x with mark := 4, alias_ := false, ltref := false } else s.freeBuf d b

/-- The words of a descriptor (R289). -/
def BufD.word (x : BufD) (w : Nat) : Word :=
  BitVec.ofNat 32 (match w with
    | 0 => x.mark + bit x.ltref * 8 + bit x.alias_ * 16 + x.pins * 32 + x.kind * 128 + x.epoch * 256 + x.owner * 65536
    | 1 => x.pic
    | 2 => x.page
    | _ => x.order)

/-! ## Pins -/

/-- R302: the DECODED layers of crown d that show picture `pic` of stream `id`. -/
def State.shownBy (s : State) (d id pic : Nat) : Nat :=
  ((List.range 16).map fun k => ((List.range 16).filter fun l =>
    (s.layerSt d k l).dec == some (pic + 1) && s.rd (F.CMP_SLOTs_Ll_CFG_SRC d k l) == 2 && s.rd (F.CMP_SLOTs_Ll_DEC_STREAM d k l) == id).length).sum

/-- R293, R302: PINS of a decode stream's buffers follow the newest picture and the layers; a buffer that awaits nothing more
is FREE. -/
def State.repin (s : State) (d i : Nat) : State :=
  let id := s.strId d i
  let x := s.decSt d i
  (s.group d id).foldl (fun s b =>
    let y := s.buf d b
    if y.mark = 0 ∨ y.mark = 1 then s
    else
      let pins := min 3 (bit (x.newest == some b) + s.shownBy d id y.pic)
      let s := s.setBuf d b { y with pins := pins }
      if y.mark = 4 ∧ pins = 0 ∧ !(x.await ++ x.shows).any (·.1 == b) then s.freeBuf d b else s) s

/-! ## Epoch objects -/

/-- Tasks that the device runs for the stream at index i: in its pipelines' queues or the decode queue. -/
def State.strTasks (s : State) (d i : Nat) : List Nat :=
  let qs := s.rd (F.DEC_CFG_QUEUE d) :: (s.strPipes d i).map fun p => s.rd (F.ENC_PIPEp_CFG_QUEUE d p)
  (s.sch.tasks.filter fun (k, t) => k / 65536 == d && t.live && t.stream == s.strId d i && qs.contains t.queue).map (·.1)

/-- R125, R295: the stream's tasks end with 0xA809. -/
def State.abortStr (s : State) (d i : Nat) : State :=
  (s.strTasks d i).foldl (fun s k => s.stopTask (k / 65536) (k % 65536) 2 0xA809) s

/-- The state of a decode stream (R300), with its event for an entry to or a return from LOST and after an SPS refused. -/
def State.setDecState (s : State) (d i v : Nat) (ev : Bool) : State :=
  let s := s.wr (F.DEC_STRi_STATUS_STATE d i) v
  if ev then s.event (mkPath [d, 12]) 0x5C02 (s.strId d i) (s.decSt d i).next v (some (s.chTl (s.strChan d i))) else s

/-- The index of the stream of crown d with id `id`. -/
def State.indexOf (s : State) (d id : Nat) : Option Nat := (List.range 128).find? fun i => (s.strOn d i || s.decOn d i) && s.strId d i == id

/-- R297: the DECODED layers that show picture `pic` of a stream, whose buffer is revoked, are treated as OMIT at once and counted. -/
def State.omitShown (s : State) (d id pic : Nat) : State :=
  s.forRange 256 fun n s =>
    let (k, l) := (n / 16, n % 16)
    if (s.layerSt d k l).dec = some (pic + 1) ∧ s.taken d k (F.CMP_SLOTs_Ll_CFG_SRC d k l) = 2 ∧ s.taken d k (F.CMP_SLOTs_Ll_DEC_STREAM d k l) = id ∧
        s.taken d k (F.CMP_SLOTs_Ll_CFG_EN d k l) = 1 then
      let s := (s.setLayerSt d k l { s.layerSt d k l with dec := none, on_ := false, waiting := false }).inc (F.CMP_SLOTs_Ll_CNT_A_OMITTED d k l)
      { s with pool := { s.pool with omitted := layerKey d k l :: s.pool.omitted.filter (· != layerKey d k l) } }
    else s

/-- R291, R297: POOL_STRi_INFO.BUFS of the stream with an id follows its group. -/
def State.showGroup (s : State) (d id : Nat) : State :=
  match s.indexOf d id with
  | some i => s.wr (F.POOL_STRi_INFO_BUFS d i) (s.group d id).length
  | none => s

/-- R297: stream i of crown d codes without the revoked buffer b; the picture being coded into it is aborted. -/
def State.revokeEnc (s : State) (d i b : Nat) (cur : Bool) : State :=
  let y := s.encSt d i
  let s := s.setEncSt d i { y with revoked := true, refs := y.refs.filter (·.buf != b), ltr := y.ltr.filter (·.buf != b) }
  if cur then s.abortStr d i else s

/-- R297: a layer that showed the newest picture of decode stream i, whose buffer is revoked, shows nothing of it. -/
def State.holdNone (s : State) (d i key : Nat) : State :=
  ({ s with cmp := { s.cmp with hold := (key, false) :: s.cmp.hold.filter (·.1 != key) } } : State).wr (F.DEC_STRi_STATUS_CONCEAL d i) 0

/-- R297: decode stream i of crown d loses buffer b, which held picture x. -/
def State.revokeDec (s : State) (d i b : Nat) (x : BufD) : State :=
  let y := s.decSt d i
  let s := s.setDecSt d i { y with newest := y.newest.filter (· != b), await := y.await.filter (·.1 != b), shows := y.shows.filter (·.1 != b) }
  let s := s.omitShown d x.owner x.pic
  let s := if y.newest = some b then s.holdNone d i (d * 1024 + x.owner) else s
  let s := if x.mark = 1 then s.abortStr d i else s
  let st := s.rd (F.DEC_STRi_STATUS_STATE d i)
  if st = 2 ∨ st = 3 then s.setDecState d i 1 false else s

/-- R297: a buffer that held picture x goes to FREE, and its owner loses it. -/
def State.loseBuf (s : State) (d b : Nat) (x : BufD) : State :=
  let s := (s.setBuf d b { x with epoch := (x.epoch + 1) % 256 }).freeBuf d b
  match s.indexOf d x.owner with
  | some i => if x.kind = 0 then s.revokeEnc d i b (x.mark == 1) else s.revokeDec d i b x
  | none => s

/-- R297, R298: a buffer's epoch is revoked; of a FREE buffer that is all. -/
def State.revokeBuf (s : State) (d b newOwner : Nat) : State :=
  let x := s.buf d b
  let s := s.inc (F.POOL_EOBJ_STATUS_REVOKES d)
  if x.mark = 0 then s.setBuf d b { x with epoch := (x.epoch + 1) % 256 }
  else
  let s := s.loseBuf d b x
  if newOwner = 0x3FF ∨ x.owner = 0x3FF then s
  else match s.indexOf d newOwner with
    | some i => ((s.setBuf d b { s.buf d b with owner := newOwner, kind := bit (s.decOn d i) }).showGroup d x.owner).showGroup d newOwner
    | none => s

def eobjKey (d kind idx : Nat) : Nat := d * 65536 + kind * 16384 + idx

/-- R296, R306: the selected object is unfit. -/
def State.eobjBad (s : State) (d kind idx own : Nat) : Bool :=
  let pages := match kind with
    | 0 => match s.indexOf d (s.buf d idx).owner with | some i => s.bufPages d i | none => 0
    | _ => s.bufPages d idx
  let newOk := own == 0x3FF || kind == 2 || (match s.indexOf d own with
    | some i => decide (s.group d own ≠ []) && s.bufPages d i == pages | none => false)
  match kind with
  | 0 => decide (2048 ≤ idx) || !newOk
  | 1 => decide (128 ≤ idx) || !newOk
  | 2 => s.rd (F.XLT_SPILLr_CFG_CROWN idx) != d
  | _ => true

/-- R127, R297: the epoch of a ring's spill area is revoked. -/
def State.revokeSpill (s : State) (d r : Nat) : State :=
  let e := mapGet (fun _ => 0) s.pool.spillEpoch r
  let s := { s with pool := { s.pool with spillEpoch := mapSet (fun _ => 0) s.pool.spillEpoch r ((e + 1) % 256) } }
  ((s.inc (F.POOL_EOBJ_STATUS_REVOKES d)).spillReset r).freePark (outWork r)

/-- R295 to R298: revoke an object of crown d: a buffer, every buffer of a stream's group, or a spill area. -/
def State.revokeObj (s : State) (d kind idx own : Nat) : State :=
  let key := eobjKey d kind idx
  let bs := match kind with | 0 => [idx] | 1 => s.group d (s.strId d idx) | _ => []
  let s := match kind with
    | 2 => s.revokeSpill d idx
    | _ => bs.foldl (fun s b => s.revokeBuf d b own) s
  { s with pool := { s.pool with busy := s.pool.busy ++ (key, key) :: (bs.filter fun _ => kind == 1).map fun b => (key, eobjKey d 0 b) } }

/-- R298: an object, or a buffer of the group, still quiesces. -/
def State.eobjBusy (s : State) (d kind idx : Nat) : Bool :=
  let ks := eobjKey d kind idx :: (if kind = 1 then (s.group d (s.strId d idx)).map (eobjKey d 0) else [])
  s.pool.busy.any fun (_, o) => ks.contains o

/-- R296, R306: a write of POOL_EOBJ_CTL. -/
def State.eobjWrite (s : State) (d : Nat) (v : Word) : State :=
  if getBits v 0 1 = 0 then s
  else
    let kind := s.rd (F.POOL_EOBJ_SEL_KIND d)
    let idx := s.rd (F.POOL_EOBJ_SEL_INDEX d)
    let own := s.rd (F.POOL_EOBJ_SEL_NEW_OWNER d)
    let no := fun code => s.refuse (mkPath [d, 13]) [R.POOL_STATUS d] code (R.POOL_EOBJ_CTL d)
    if s.eobjBad d kind idx own then no 0x5005
    else if s.eobjBusy d kind idx then no 0x5004
    else s.revokeObj d kind idx own

/-- EOBJ_REVOKE (R295): a write of POOL_EOBJ_CTL. -/
def execEobjRevoke (d : Fin 8) (v : Word) (s : State) : Out := .next (s.eobjWrite d v)

/-- REVOKE_QUIESCED (R298): the quiescence of the revocation named by kind x 2^14 + index ends. -/
def execRevokeQuiesced (d : Fin 8) (key : Nat) (s : State) : Out :=
  .next { s with pool := { s.pool with busy := s.pool.busy.filter fun (k, _) => k != d.val * 65536 + key } }

/-- R295: the buffer a picture writes, while its ticket is the buffer's epoch. -/
def State.ownBuf (s : State) (d : Nat) (p : PicSt) : Option Nat := p.buf.filter fun b => (s.buf d b).epoch == p.ticket

/-- R295: a write of a picture to its buffer with an old ticket is dropped and counted. -/
def State.ticketWr (s : State) (d : Nat) (p : PicSt) : State :=
  if p.buf.isSome && (s.ownBuf d p).isNone then s.inc (F.POOL_COUNT_STALE_WR d) else s

/-- R295: a reference read with its ticket: an old one reads zeros. -/
def State.freshRef (s : State) (d : Nat) (r : Nat × Nat) : Bool := (s.buf d r.1).epoch == r.2

/-- R295: the reads of a picture from references revoked since it started are counted. -/
def State.ticketRd (s : State) (d : Nat) (p : PicSt) : State :=
  p.refs.foldl (fun s r => if s.freshRef d r then s else s.inc (F.POOL_COUNT_STALE_RD d)) s

/-! ## The check -/

/-- R291: the areas of the streams enabled on crown d, and the pages that the groups of streams not yet OFF still take. -/
def State.poolAreas (s : State) (d : Nat) : List (Nat × Nat × Nat) :=
  (List.range 128).filterMap fun i =>
    let n := s.rd (F.POOL_STRi_INFO_BUFS d i)
    if s.strOn d i || s.decOn d i then some (i, s.rd (F.POOL_STRi_BASE_PAGE d i), s.rd (F.POOL_STRi_SIZE_PAGES d i))
    else if n = 0 then none
    else
      let ps := (s.group d (s.strId d i)).map fun b => (s.buf d b).page
      some (i, ps.foldl min (2 ^ 23), n * s.rd (F.POOL_STRi_INFO_BUFPAGES d i))

/-- R306, R308: the pool region overlaps the HDM window or leaves the stack. -/
def State.poolRegionBad (s : State) (d : Nat) : Bool := decide (s.privatePages d < s.rd (F.POOL_AREA_BASE_PAGE d) + s.rd (F.POOL_AREA_SIZE_PAGES d))
def State.anyStream (s : State) (d : Nat) : Bool := (List.range 128).any fun i => s.strOn d i || s.decOn d i

/-- R291: the pool rules of R141 for stream index i of crown d. -/
def poolRules (o s : State) (d i : Nat) : List Rule :=
  let st := [R.POOL_STATUS d]
  let us := [R.ENC_STRi_CFG d i, R.ENC_STRi_GOP d i, R.ENC_STRi_SIZE d i, R.DEC_STRi_CFG d i, R.DEC_STRi_SIZE d i, R.POOL_STRi_BASE d i, R.POOL_STRi_SIZE d i]
  let en := s.strOn d i || s.decOn d i
  let was := o.strOn d i || o.decOn d i
  -- what the groups still lack, those of streams that an ARMED set enables before this one too
  let need := ((List.range 128).map fun k => if s.strOn d k || s.decOn d k || o.strOn d k || o.decOn d k then
    max (if s.strOn d k || s.decOn d k then s.bufCount d k else 0) (if o.strOn d k || o.decOn d k then o.bufCount d k else 0) - s.rd (F.POOL_STRi_INFO_BUFS d k) else 0).sum
  let lack := decide (s.rd (F.POOL_STATUS_FREE d) < need)
  let a := (s.rd (F.POOL_STRi_BASE_PAGE d i), s.rd (F.POOL_STRi_SIZE_PAGES d i))
  let rb := s.rd (F.POOL_AREA_BASE_PAGE d)
  let cfg := if s.decOn d i then R.DEC_STRi_CFG d i else R.ENC_STRi_CFG d i
  rulesAt cfg st us [(0x5001, en && !was && lack)] ++
  rulesAt (R.ENC_STRi_GOP d i) st us [(0x5001, en && was && decide (o.bufCount d i < s.bufCount d i) && lack)] ++
  rulesAt (R.POOL_STRi_BASE d i) st us
    [(0x5002, en && (decide (a.1 < rb) || decide (rb + s.rd (F.POOL_AREA_SIZE_PAGES d) < a.1 + a.2) || decide (s.privatePages d < a.1 + a.2) ||
      (s.poolAreas d).any fun (k, b) => k != i && rangesMeet a b))] ++
  rulesAt (R.POOL_STRi_SIZE d i) st us [(0x5002, en && decide (a.2 < s.bufCount d i * s.bufPages d i))]

end Sys2Proof.Machine
end

