-- ==== Sys2Proof/Machine/Sched.lean ====
section
/-!
DEFINITION. Sys2Proof/Machine/Sched.lean: the task scheduler's descriptors and commands (08_task_scheduler.md).
-/
namespace Sys2Proof.Machine

/-! ## Descriptors -/

/-- R152, R166: the die whose scheduler leaf a path names. -/
def State.schedOf (s : State) (p : Nat) : Option Nat := (List.range (s.crowns + 1)).find? fun d => p == pSch d

/-- The body of TASK_SUBMIT (R166) and TASK_CANCEL (R167). -/
def subTask (ws : List Word) : Nat := fieldAt ws 6 0 16
def subQueue (ws : List Word) : Nat := fieldAt ws 7 0 15
def subLevel (ws : List Word) : Nat := fieldAt ws 7 15 5
def subDlist (ws : List Word) : Nat := fieldAt ws 7 20 3
def subWake (ws : List Word) : Nat := word64At ws 8

def State.qBase (s : State) (d q : Nat) : Nat := s.rd (F.SCH_Qq_RANGE_BASE d q)
def State.qCount (s : State) (d q : Nat) : Nat := s.rd (F.SCH_Qq_RANGE_COUNT d q)

/-- R155: task t lies in the range of queue q. -/
def State.inRange (s : State) (d q t : Nat) : Bool := decide (s.qBase d q ≤ t ∧ t < s.qBase d q + s.qCount d q)

/-- R159, R160, R166: a bad DLIST or WAKE. -/
def State.badWake (s : State) (ws : List Word) : Bool :=
  let l := subDlist ws
  let w := subWake ws
  l == 5 || l == 6 || (l == 7 && w != 0) ||
    (decide (l < 4) && (stampFrac w != 0 || decide (stampTick w ≥ s.tpf l) || !s.tlRunning l))

/-- R166: the checks of a TASK_SUBMIT; 0 passes. -/
def State.submitCheck (s : State) (x : Desc) : Nat :=
  let ws := x.words
  let q := subQueue ws
  match s.schedOf (dTarget ws) with
  | none => 0xC00D
  | some d =>
    if q ≥ queueCount d ∨ !s.on (F.SCH_Qq_CFG_EN d q) ∨ s.on (F.SCH_Qq_STATUS_RING d q) ∨ !s.on (F.SCH_Qq_CFG_HOST d q) then 0xC003
    else if !s.inRange d q (subTask ws) then 0xC001
    else if (s.task d (subTask ws)).live then 0xC002
    else if subLevel ws < s.rd (F.SCH_Qq_CFG_MIN_LEVEL d q) then 0xC004
    else if s.badWake ws then 0xC005
    else 0

/-- R157: whether a wake lies later than line time or SCH_USEC. -/
def State.wakeLater (s : State) (d l w : Nat) : Bool :=
  if l < 4 then later w (s.now l) else if l = 4 then decide (s.usec d < w) else false

/-- R156, R157, R166: an accepted submission. -/
def State.submit (s : State) (r : Nat) (x : Desc) : State :=
  let ws := x.words
  match s.schedOf (dTarget ws) with
  | none => s
  | some d =>
    let t := subTask ws
    let q := subQueue ws
    let l := subDlist ws
    let w := subWake ws
    let entry : Task := { Task.idle with state := 2, level := subLevel ws, dlist := l, desc := true, words := ws, dtl := dTl ws, queue := q, epoch := s.rd (F.SCH_Qq_STATUS_EPOCH d q), wake := w, deadline := dDeadline ws, arg0 := ws.getD 10 0, arg1 := ws.getD 11 0, ring := r, idx := x.idx, htag := dTag ws, nocpl := dNocpl ws, stream := dStream ws }
    if s.wakeLater d l w then
      let s := s.setTask d t { entry with state := 1 }
      s.setDelay d l (s.sortIn d l w t (s.delayList d l))
    else ((s.setTask d t entry).joinTail d t clsSubmit).refill d (s.rd (F.SCH_Qq_CFG_BIND d q))

/-- TASK_SUBMIT (R166). -/
def execTaskSubmit (r : Fin 4096) (s : State) : Out :=
  .next (s.dispatch r 0x30 ([(6, 0xFFFF0000), (7, 0xFF800000)] ++ bodyZero 12 14) State.submitCheck fun s x => s.submit r x)

/-- R167: the checks of a TASK_CANCEL; 0 passes. -/
def State.cancelCheck (s : State) (x : Desc) : Nat :=
  let ws := x.words
  let q := subQueue ws
  match s.schedOf (dTarget ws) with
  | none => 0xC00D
  | some d =>
    if q ≥ queueCount d ∨ !s.on (F.SCH_Qq_CFG_EN d q) then 0xC003
    else if !s.inRange d q (subTask ws) ∨ (s.task d (subTask ws)).queue ≠ q then 0xC001
    else if !(s.task d (subTask ws)).live then 0xC008
    else 0

/-- R163, R167: an accepted cancel: its own descriptor completes DONE, and the cancelled task's record follows when that task ends. -/
def State.doCancel (s : State) (r : Nat) (x : Desc) : State :=
  match s.schedOf (dTarget x.words) with
  | none => s
  | some d => (s.complete r x.idx (dTag x.words) (dNocpl x.words) 0 0 Wm.zero).cancelTask d (subTask x.words)

/-- TASK_CANCEL (R167). -/
def execTaskCancel (r : Fin 4096) (s : State) : Out :=
  .next (s.dispatch r 0x31 ([(6, 0xFFFF0000), (7, 0xFFFF8000)] ++ bodyZero 8 14) State.cancelCheck fun s x => s.doCancel r x)

/-! ## Wakes, starts and ends -/

/-- R159: the head of delay list l of a die, when its wake has been reached. -/
def State.dueWake (s : State) (d l : Nat) : Option Nat :=
  match s.delayList d l with
  | t :: _ =>
    let w := (s.task d t).wake
    if (if l < 4 then s.reachedOn l w else decide (w ≤ s.usec d)) then some t else none
  | [] => none

/-- R157, R159: a wake fires: the task joins the tail of its level. -/
def State.wakeTask (s : State) (d l t : Nat) : State :=
  let s := s.setDelay d l (s.delayList d l).tail
  (s.joinTail d t l).refill d (s.taskBind d (s.task d t))

/-- R157, R161: consumer k starts its prefetched task: a native consumer moves its next slot to current; a hardware
consumer in Afhia mode starts the task in its slot. A task whose deadline was reached in this cycle does not start (R165), nor a decode input before an earlier one of its stream that has
parked (R301): it goes back to its level. The binding is then looked at again: a READY task may outrank it (R162). -/
def State.startTask (s : State) (d k : Nat) : State :=
  match s.curOf d k, s.nextOf d k with
  | none, some t =>
    if (s.task d t).stop.isSome then s
    else if s.behind d t then ((s.setNext d k none).joinHead d t).refill d (s.taskBind d (s.task d t))
    else
    let s := (s.setCur d k (some t)).setNext d k none
    (s.setTask d t { s.task d t with state := 4, startAt := s.cycle + 1 }).refill d (s.taskBind d (s.task d t))
  | some t, _ =>
    if s.afhia d k ∧ consHw d k ∧ (s.task d t).state = 3 ∧ (s.task d t).stop = none then
      ((s.setTask d t { s.task d t with state := 4, startAt := s.cycle + 1 }).wr (F.SCH_CONSk_STATUS_IRQ d k) 0).refill d (s.taskBind d (s.task d t))
    else s
  | _, _ => s

/-- The RUNNING task in a consumer's current slot. -/
def State.runningOn (s : State) (d k : Nat) : Option Nat := (s.curOf d k).filter fun t => (s.task d t).state == 4

/-- R113, R301: the input that a decode task has read since its last safe point is translated with its ring's PASID. -/
def State.decReads (s : State) (x : Task) (n : Nat) : State :=
  if dOpcode x.words = 0x20 then s.xlateRange (s.ringPasid x.ring) (word64At x.words 6 + x.wm.bytes) (n - x.wm.bytes) else s

/-- R121: the watermark with which a running task ends: of decode input the bytes consumed, all of them with DONE, and the cursor within
them; of any other work its consumer's. -/
def endWm (x : Task) (outcome : Nat) (wm : Wm) : Wm :=
  let n := fieldAt x.words 8 0 25
  let b := if outcome = 0 then n else min n (max x.wm.bytes wm.bytes)
  if dOpcode x.words = 0x20 then ⟨max x.wm.rows wm.rows, b, b, if outcome = 0 then n else max x.wm.retry (min wm.retry b)⟩ else wm

/-- R157, R165: a consumer ends its running task: the outcome stands whatever else meets it. -/
def State.consEnds (s : State) (d k outcome reason : Nat) (wm : Wm) : State :=
  match s.runningOn d k with
  | some t =>
    let wm := endWm (s.task d t) outcome wm
    (s.decReads (s.task d t) wm.bytes).endTask d t 7 outcome reason wm
  | none => s

/-- R162: a read of SCH_CONSk_TAKE. -/
def State.takeRead (s : State) (d k : Nat) : State :=
  match s.curOf d k with
  | some t =>
    if s.afhia d k ∧ (s.task d t).state = 3 ∧ (s.task d t).stop = none then
      let s := ((s.setTask d t { s.task d t with state := 4, startAt := s.cycle + 1 }).wr (F.SCH_CONSk_STATUS_IRQ d k) 0).refill d (s.taskBind d (s.task d t))
      { s with rdata := BitVec.ofNat 32 (t + 65536) }
    else { s with rdata := 0 }
  | none => { s with rdata := 0 }

/-- SCH_CONS_TAKE (R162). -/
def execSchConsTake (d : Fin 8) (k : Fin 256) (s : State) : Out := .next (s.takeRead d k)

/-- R168: the watermark in a consumer's WM registers. -/
def State.consWm (s : State) (d k : Nat) : Wm :=
  ⟨s.rd (F.SCH_CONSk_WM_WM d k 0) % 65536, s.rd (F.SCH_CONSk_WM_WM d k 1), s.rd (F.SCH_CONSk_WM_WM d k 2), s.rd (F.SCH_CONSk_WM_WM d k 3)⟩

/-- R169: a write of SCH_CONSk_END. -/
def State.endWrite (s : State) (d k : Nat) (v : Word) : State :=
  if getBits v 0 4 > 2 ∨ consHw d k ∨ (s.runningOn d k).isNone then s.refuse (pSch d) [R.SCH_STATUS d] 0xC011 (R.SCH_CONSk_END d k)
  else s.consEnds d k (getBits v 0 4) (getBits v 16 16) (s.consWm d k)

/-- SCH_CONS_END (R168). -/
def execSchConsEnd (d : Fin 8) (k : Fin 256) (v : Word) (s : State) : Out := .next (s.endWrite d k v)

/-- R162: a write of SCH_CONSk_WM3 records the watermark; for a firmware consumer it is a safe point. -/
def State.wm3Write (s : State) (d k : Nat) (v : Word) : State :=
  let s := s.wr (F.SCH_CONSk_WM_WM d k 3) v.toNat
  (s.runningOn d k).elim s fun t => if consHw d k then s else s.taskSafe d t (s.consWm d k)

/-- SCH_CONS_WM3 (R162). -/
def execSchConsWm3 (d : Fin 8) (k : Fin 256) (v : Word) (s : State) : Out := .next (s.wm3Write d k v)

/-- R490: a read of SCH_USEC_LO latches bits [63:32] into the die's one latch. -/
def State.usecRead (s : State) (d : Nat) : State :=
  let u := s.usec d
  { s with rdata := BitVec.ofNat 32 u, sch := { s.sch with usecHi := mapSet (fun _ => 0) s.sch.usecHi d (u / 2 ^ 32) } }

/-- SCH_USEC_READ (R490). -/
def execSchUsecRead (d : Fin 8) (s : State) : Out := .next (s.usecRead d)

/-- R118, R164, R496: line time reaches a task's deadline: a parked task, a running decode input, and any other. -/
def State.taskDeadline (s : State) (d t : Nat) : State :=
  let x := s.task d t
  if !x.live ∨ x.deadline = 0 ∨ !s.reachedOn x.dtl x.deadline then s
  else s.dueStop (taskWork d t) 2 (if x.state = 5 then 0xA805 else if x.state = 4 ∧ dOpcode x.words = 0x20 then 0xB011 else 0xC009)

/-- TASK_DEADLINE (R164). -/
def execTaskDeadline (d : Fin 8) (t : Fin 65536) (s : State) : Out := .next (s.taskDeadline d t)

end Sys2Proof.Machine
end

