-- ==== Sys2Proof/Machine/Decoder.lean ====
section
/-!
DEFINITION. Sys2Proof/Machine/Decoder.lean: the decode engine (14_reference_pool_and_decode.md, R299 to R308): its input,
decoded pictures and their release, concealment, and the commit of decode streams.
-/
namespace Sys2Proof.Machine

def pDec (d : Nat) : Nat := mkPath [d, 12]

/-- R152, R232: the lowest entry of a queue's range that holds no live task. -/
def State.freeEntry (s : State) (d q : Nat) : Option Nat :=
  ((List.range (s.qCount d q)).map (s.qBase d q + ·)).find? fun t => !(s.task d t).live

/-- R238, R307: a queue that native consumer k alone can serve: enabled, and on the binding of that enabled consumer. -/
def State.queueServes (s : State) (d q k : Nat) : Bool :=
  s.on (F.SCH_Qq_CFG_EN d q) && s.on (F.SCH_CONSk_CFG_EN d k) && !s.afhia d k && s.rd (F.SCH_CONSk_CFG_BIND d k) == s.rd (F.SCH_Qq_CFG_BIND d q)

/-! ## DEC_INPUT -/

/-- R301: the checks of a DEC_INPUT; 0 passes. -/
def State.decCheck (s : State) (x : Desc) : Nat :=
  let ws := x.words
  let t := dTarget ws
  let d := pathDie t
  let c := dStream ws / 8
  match s.indexOf d (dStream ws) with
  | none => 0x5201
  | some i =>
    if d = 0 ∨ !s.decOn d i then 0x5201
    else if t ≠ pDec d then 0x5202
    else if fieldAt ws 8 0 25 = 0 ∨ fieldAt ws 8 0 25 > 16777216 then 0x5203
    else if stampTick (word64At ws 10) ≥ s.tpf (s.chTl c) then 0x5204
    else 0

/-- R301: an accepted input becomes a task of the decode queue. The task keeps SHOW in its arguments and the flags of word 9
in its wake, which a READY task does not use. -/
def State.decSubmit (s : State) (r : Nat) (x : Desc) : State :=
  let ws := x.words
  let d := pathDie (dTarget ws)
  match s.indexOf d (dStream ws) with
  | none => s
  | some i =>
    let q := s.rd (F.DEC_CFG_QUEUE d)
    match s.freeEntry d q with
    | none => s
    | some t =>
      let entry : Task := { Task.idle with
        state := 2, level := s.rd (F.DEC_STRi_CFG_LEVEL d i), dlist := 7, desc := true, words := ws, dtl := dTl ws, queue := q, epoch := s.rd (F.SCH_Qq_STATUS_EPOCH d q)
        wake := wordAt ws 9, deadline := dDeadline ws, arg0 := ws.getD 10 0, arg1 := ws.getD 11 0, ring := r, idx := x.idx
        htag := dTag ws, nocpl := dNocpl ws, stream := dStream ws }
      ((s.setTask d t entry).joinTail d t clsSubmit).refill d (s.rd (F.SCH_Qq_CFG_BIND d q))

/-- R301: whether the decode queue of the front descriptor has an entry for it; else it waits in its ring. -/
def State.decRoom (s : State) (r : Nat) : Bool :=
  match (s.ring r).fetched with
  | x :: _ =>
    let d := pathDie (dTarget x.words)
    s.decCheck x != 0 || (s.freeEntry d (s.rd (F.DEC_CFG_QUEUE d))).isSome
  | [] => true

/-- The reserved fields of a DEC_INPUT's body. -/
def decBody : List (Nat × Word) := [(8, 0xFE000000), (9, 0xFFFFFFFC)] ++ bodyZero 12 14

/-- R307: the code that refuses the front descriptor goes to the decode engine's status, and to that of its stream. -/
def State.decNote (s : State) (r : Nat) : State :=
  match s.dispatchable r 0x20 with
  | some x =>
    let c := s.decCheck x
    let d := pathDie (dTarget x.words)
    if c = 0 ∨ d = 0 ∨ decBody.any (fun (i, m) => x.words.getD i 0 &&& m != 0) then s
    else s.reasons (R.DEC_STATUS d :: match s.indexOf d (dStream x.words) with | some i => if s.decOn d i then [R.DEC_STRi_STATUS d i] else [] | none => []) c
  | none => s

/-- DEC_INPUT (R301). -/
def execDecInput (r : Fin 4096) (s : State) : Out :=
  .next (s.when (s.decRoom r) fun s => (s.decNote r).dispatch r 0x20 decBody State.decCheck fun s x => s.decSubmit r x)

/-- R301: the held part of an access unit is discarded. -/
def State.carryDrop (s : State) (d i : Nat) : State := (s.setDecSt d i { s.decSt d i with carry := 0 }).inc (F.DEC_STRi_CNT_B_CARRY_DROP d i)

/-- R301: n bytes at the end of a descriptor are held for the next one, up to 4 MiB. -/
def State.holdPart (s : State) (d i n : Nat) : State :=
  if n > 4194304 then s.carryDrop d i else s.setDecSt d i { s.decSt d i with carry := n }

/-- R301: a decode task starts on a descriptor, or goes on with it after a park; a new one with DISCONT discards the held part of an access
unit. -/
def State.decStart (s : State) (d t : Nat) : State :=
  let x := s.task d t
  match s.indexOf d x.stream with
  | some i =>
    let y := s.decSt d i
    if y.task = some (x.ring, x.idx) then s
    else
      let s := s.setDecSt d i { y with task := some (x.ring, x.idx), got := false }
      if x.wake % 2 = 1 ∧ y.carry ≠ 0 then s.carryDrop d i else s
  | none => s

/-- R293: the picture being decoded ends before it is complete: its buffer is FREE, and it counts as not received. -/
def State.curFree (s : State) (d i : Nat) : State :=
  match (s.decSt d i).cur with
  | some (b, e) =>
    let s := s.setDecSt d i { s.decSt d i with cur := none, used := [] }
    if (s.buf d b).epoch = e then s.freeBuf d b else s
  | none => s

/-- R293: at the end of a cycle the decode streams whose descriptor is no longer worked on give up the picture being decoded. -/
def State.decCycle (s : State) : State :=
  (s.dec.filter fun e => e.2.task.isSome).foldl (fun (s : State) (e : Nat × DecSt) =>
    let d := e.1 / 128
    let i := e.1 % 128
    let mine : Nat × Task → Bool := fun t => t.1 / 65536 == d && t.2.live && t.2.desc && some (t.2.ring, t.2.idx) == e.2.task
    if s.sch.tasks.any mine then s
    else
      let s := s.curFree d i
      s.setDecSt d i { s.decSt d i with task := none }) s

/-! ## Release -/

/-- R302: the newest released picture of a stream, where no layer latched it, is superseded by the next one, which its layers count. -/
def State.decSuperseded (s : State) (d id : Nat) : State :=
  let pic := mapGet (fun _ => 0) s.cmp.released (d * 1024 + id)
  let ls := (List.range 256).filter fun n => s.taken d (n / 16) (F.CMP_SLOTs_Ll_CFG_SRC d (n / 16) (n % 16)) == 2 &&
    s.taken d (n / 16) (F.CMP_SLOTs_Ll_DEC_STREAM d (n / 16) (n % 16)) == id && s.on (F.CMP_SLOTs_Ll_CFG_EN d (n / 16) (n % 16))
  if pic = 0 ∨ ls.any (fun n => (s.layerSt d (n / 16) (n % 16)).dec == some pic) then s
  else ls.foldl (fun s n => s.inc (F.CMP_SLOTs_Ll_CNT_C_SUPERSEDED d (n / 16) (n % 16))) s

/-- R302: a picture is released for display: it becomes the stream's newest. -/
def State.release (s : State) (d i b : Nat) : State :=
  let id := s.strId d i
  let pic := (s.buf d b).pic
  let y := s.decSt d i
  let s := s.decSuperseded d id
  let s := s.setDecSt d i { y with newest := some b, await := y.await.filter (·.1 != b), shows := y.shows.filter (·.1 != b) }
  let s := (s.wr (F.DEC_STRi_PIC_PIC d i) pic).wr (F.DEC_STRi_STATUS_CONCEAL d i) (bit (y.concealed.contains b))
  let key := d * 1024 + id
  let s := { s with
    cmp := { s.cmp with
      released := mapSet (fun _ => 0) s.cmp.released key (pic + 1)
      hold := (if y.greyed.contains b then [(key, true)] else []) ++ s.cmp.hold.filter fun (e : Nat × Bool) => e.1 != key }
    -- R297: its layers are no longer omitted
    pool := { s.pool with omitted := s.pool.omitted.filter fun n => !(n / 256 == d && s.taken d (n / 16 % 16) (F.CMP_SLOTs_Ll_DEC_STREAM d (n / 16 % 16) (n % 16)) == id) } }
  ((s.send (.show d id pic)).decReleased d id).repin d i

/-- R302: SHOW of a picture, on the channel's timeline, has been reached; zero for none. -/
def State.showDue (s : State) (d i sh : Nat) : Bool := sh == 0 || s.reachedOn (s.chTl (s.strChan d i)) sh

/-- Release the pictures at the front of the list that SHOW no longer holds back. -/
def State.releaseDue (s : State) (d i : Nat) : Nat → State
  | 0 => s
  | n + 1 =>
    match (s.decSt d i).shows with
    | (b, sh) :: _ => if s.showDue d i sh then (s.release d i b).releaseDue d i n else s
    | [] => s

/-- R302: the output process outputs picture number n. -/
def State.outputPic (s : State) (d i n : Nat) : State :=
  let y := s.decSt d i
  match y.await.find? (fun (b, _) => (s.buf d b).pic == n) with
  | some e => (s.setDecSt d i { y with await := y.await.erase e, shows := y.shows ++ [e] }).releaseDue d i 16
  | none => s

/-- R301: a decode input with EOS is done: every picture of the stream that awaits output is output, in output order: by the random access
point it follows, then by picture order count. -/
def State.decEos (s : State) (d i : Nat) : State :=
  let y := s.decSt d i
  let key : Nat × Nat → Nat × Int := fun e => match y.keys.find? (·.1 == e.1) with | some (_, n, o) => (n, signed 32 o.toNat) | none => (0, 0)
  let le := fun (a b : Nat × Nat) => decide ((key a).1 < (key b).1 ∨ ((key a).1 = (key b).1 ∧ (key a).2 ≤ (key b).2))
  ((y.await.mergeSort le).foldl (fun s e => s.outputPic d i (s.buf d e.1).pic) s).repin d i

/-- R293, R301: a decode task ends with its descriptor. One that is done and completed no access unit leaves all its bytes held. -/
def State.decTaskEnd (s : State) (d : Nat) (x : Task) (done : Bool) : State :=
  match s.indexOf d x.stream with
  | some i =>
    let y := s.decSt d i
    let s := s.curFree d i
    let s := s.setDecSt d i { s.decSt d i with task := none }
    let s := if done ∧ !y.got then s.holdPart d i (y.carry + fieldAt x.words 8 0 25) else s
    if done ∧ x.wake / 2 % 2 = 1 then s.decEos d i else s
  | none => s

/-- TASK_END (R157): a hardware consumer ends its running task. -/
def execTaskEnd (d : Fin 8) (k : Fin 256) (outcome : Fin 3) (reason : Fin 65536) (wm : Wm) (s : State) : Out :=
  .next (s.when (consHw d k) fun s =>
    let t := s.runningOn d k
    let s := s.consEnds d k outcome reason wm
    match t with
    | some t => let x := s.task d t; if k = 12 ∧ d ≠ 0 ∧ x.desc ∧ dOpcode x.words = 0x20 then s.decTaskEnd d x (outcome == 0) else s
    | none => s)

/-- DEC_SHOW_REACHED (R302): line time reaches the SHOW of the next picture held back. -/
def execDecShowReached (d : Fin 8) (i : Fin 128) (s : State) : Out := .next (s.releaseDue d i 16)

/-! ## Pictures -/

/-- R303: the stream's usable buffers: SHORT, LONG or CONCEAL. -/
def State.usable (s : State) (d i : Nat) : List Nat := (s.group d (s.strId d i)).filter fun b => (s.buf d b).mark == 2 || (s.buf d b).mark == 3 || (s.buf d b).mark == 5
def State.refOf (s : State) (d i : Nat) (o : Word) : Option Nat := (s.usable d i).find? fun b => (s.buf d b).order == o.toNat

/-- R293: references named by ORDER are dropped, or become long-term. -/
def State.dropRefs (s : State) (d i : Nat) (os : List Word) : State :=
  os.foldl (fun s o => match s.refOf d i o with
    | some b => s.dropRef d b (((s.decSt d i).await ++ (s.decSt d i).shows).any (·.1 == b))
    | none => s) s
def State.longRefs (s : State) (d i : Nat) (os : List Word) : State :=
  os.foldl (fun s o => match s.refOf d i o with
    | some b =>
      let x := s.buf d b
      s.setBuf d b (if x.mark = 2 then { x with mark := 3 } else { x with ltref := x.mark == 5 || x.ltref })
    | none => s) s

/-- R300: an SPS exceeds the configured limits. -/
def State.spsBad (s : State) (d i : Nat) (x : DecPic) : Bool :=
  match x.sps with
  | some p =>
    decide (s.rd (F.DEC_STRi_SIZE_W d i) < p.w) || decide (s.rd (F.DEC_STRi_SIZE_H d i) < p.h) ||
      decide ((if s.on (F.DEC_STRi_CFG_CHROMA d i) then 2 else 1) < p.chroma) ||
      decide ((if s.on (F.DEC_STRi_CFG_DEPTH8 d i) then 8 else 10) < p.bits) || decide (s.rd (F.DEC_STRi_CFG_DPB d i) < p.dpb)
  | none => false

/-- R300, R301: an access unit is skipped; what was begun of it is given up. -/
def State.decSkip (s : State) (d i : Nat) : State := (s.curFree d i).inc (F.DEC_STRi_CNT_A_SKIPPED d i)

/-- R299, R301: an access unit that the engine cannot decode: malformed, or of a form that it does not support (notes/assumptions/142.md). -/
def decUnfit (x : DecPic) : Bool := x.malformed || x.tools != []

/-- R352: a side that carries the slot is STANDBY or PENDING. -/
def State.sideIdle (s : State) (d k : Nat) : Bool := (s.slotSides d k).any fun (n, sd) => s.role n sd == 1 || s.role n sd == 6

/-- The decode task of stream i that runs on native consumer 12. -/
def State.decTask (s : State) (d i : Nat) : Option Nat := (s.runningOn d 12).filter fun t => (s.task d t).stream == s.strId d i

/-- R303: the most recent usable buffer of the stream, in decode order. -/
def State.newestUsable (s : State) (d i : Nat) : Option Nat :=
  (s.usable d i).foldl (fun a b => match a with | some c => if (s.buf d c).pic < (s.buf d b).pic then some b else some c | none => some b) none

/-- R303, R295: where the references of a picture stand, with their tickets: each in its buffer, or in its substitute; in none it reads
mid-grey (R304). -/
def State.standFor (s : State) (d i : Nat) (x : DecPic) : List (Option (Nat × Nat)) :=
  x.refs.map fun o => ((s.refOf d i o).orElse fun _ => s.newestUsable d i).map fun b => (b, (s.buf d b).epoch)

/-- R295, R304: a sample that a decode reads from a reference: mid-grey without a buffer, zero with an old ticket. -/
def State.decRefPx (s : State) (d i bits : Nat) (r : Option (Nat × Nat)) (x y c : Nat) : Nat :=
  match r with
  | none => 2 ^ (bits - 1)
  | some (b, e) => if (s.buf d b).epoch = e then Config.decPx (d * 1024 + s.strId d i) (s.buf d b).pic x y c / 2 ^ (14 - bits) else 0

/-- R303: a picture whose syntax names a reference, or marks or drops a picture, that was never received. -/
def State.neverCame (s : State) (d i : Nat) (x : DecPic) : Bool := (x.refs ++ x.drop ++ x.toLong).any fun o => (s.refOf d i o).isNone

/-- R293: a picture's decode starts in a FREE buffer of the group, unless it has started. -/
def State.decBegin (s : State) (d i : Nat) (x : DecPic) : State :=
  let y := s.decSt d i
  if y.cur.isSome then s
  else match s.allocBuf d (s.strId d i) y.next x.order.toNat with
    | (_, none) => s
    | (t, some b) => t.setDecSt d i { y with cur := some (b, (t.buf d b).epoch), used := s.standFor d i x }

/-- R295: the accesses of a decode with old tickets: its reads of revoked references are counted. -/
def State.decStale (s : State) (d i : Nat) : State :=
  (s.decSt d i).used.foldl (fun s r => match r with | some (b, e) => if (s.buf d b).epoch = e then s else s.inc (F.POOL_COUNT_STALE_RD d) | none => s) s

/-- R293: the mark of a buffer whose picture is complete. -/
def State.decMark (s : State) (d b : Nat) (x : DecPic) (conceal : Bool) : State :=
  let z := s.buf d b
  if x.keep then s.setBuf d b { z with mark := if conceal then 5 else if x.long then 3 else 2, ltref := conceal && x.long }
  else if x.shown then s.setBuf d b { z with mark := 4 }
  else s.freeBuf d b

/-- R303, R304: a picture is decoded: references never received are substituted, or read mid-grey. -/
def State.decode (s : State) (d i sh : Nat) (x : DecPic) : State :=
  let missing := s.neverCame d i x
  let grey := missing && s.usable d i == []
  let s := s.decBegin d i x
  let y := s.decSt d i
  let id := s.strId d i
  match y.cur with
  | none => s.decSkip d i
  | some (b, e) =>
    if (s.buf d b).epoch ≠ e then (s.inc (F.POOL_COUNT_STALE_WR d)).curFree d i
    else
      let from_ := y.used.any fun r => match r with | some (b, _) => (s.buf d b).mark == 5 || y.concealed.contains b | none => false
      let early := y.conceal && !x.recovered && !x.rap
      let conceal := missing || (from_ && !x.rap && !x.recovered) || early
      let st := s.rd (F.DEC_STRi_STATUS_STATE d i)
      let back := st == 3 && x.rap && !missing
      let put := fun (on : Bool) (l : List Nat) => (if on then [b] else []) ++ l.filter (· != b)
      let rap := if x.rap then y.next else y.rap
      let s := (s.decStale d i).setDecSt d i { y with
        next := (y.next + 1) % 2 ^ 32, conceal := early, cur := none, rap := rap, await := y.await ++ if x.shown then [(b, sh)] else []
        concealed := put conceal y.concealed, greyed := put (grey || (st == 3 && !back)) y.greyed
        keys := (b, rap, x.poc) :: y.keys.filter (·.1 != b) }
      let s := s.setBuf d b { s.buf d b with order := x.order.toNat }
      let s := ((s.dropRefs d i x.drop).longRefs d i x.toLong).decMark d b x conceal
      let s := if conceal then
          (s.inc (F.DEC_STRi_CNT_A_CONCEALED d i)).event (pDec d) 0x5C01 id y.next (bit grey) (some (s.chTl (s.strChan d i)))
        else s
      if grey then (s.inc (F.DEC_STRi_CNT_B_GREY d i)).setDecState d i 3 false
      else if back then s.setDecState d i 2 true
      else s

/-- R300: what becomes of an access unit in a state of the stream. -/
inductive DecStep where
  | none_ | skip | spsFail | start (conceal : Bool) | go
  deriving DecidableEq, Repr
def State.decStep (s : State) (d i : Nat) (x : DecPic) : DecStep :=
  let st := s.rd (F.DEC_STRi_STATUS_STATE d i)
  let codec := s.rd (F.DEC_STRi_CFG_CODEC d i)
  if st = 0 then .none_
  else if decUnfit x then .skip
  else if s.spsBad d i x then (if st = 1 then .skip else .spsFail)
  else if st = 1 then
    if s.sideIdle d (i / 8) then .skip
    else if x.rap ∨ codec = 2 then .start false
    else if x.recSei ∧ codec = 1 then .start true
    else .skip
  else if x.leading then .skip
  else .go

/-- R300, R301: the engine completes an access unit of the stream whose task it runs. -/
def State.decDone (s : State) (d i sh : Nat) (x : DecPic) : State :=
  let s := s.setDecSt d i { s.decSt d i with got := true }
  let s := match s.decStep d i x with
    | .none_ => s
    | .skip => s.decSkip d i
    | .spsFail => (((s.curFree d i).inc (F.DEC_STRi_CNT_C_DPB_ERR d i))).setDecState d i 1 true
    | .start c => ((s.setDecSt d i { s.decSt d i with conceal := c || (s.decSt d i).conceal }).setDecState d i 2 false).decode d i sh x
    | .go => s.decode d i sh x
  let s := x.output.foldl (fun s n => s.outputPic d i n.toNat) s
  (s.repin d i).holdPart d i x.tail

/-- R293, R300, R301: the engine starts on an access unit of the stream whose task it runs, or completes one. -/
def State.decPicture (s : State) (d i : Nat) (x : DecPic) : State :=
  match s.decTask d i with
  | none => s
  | some t =>
    if x.begins then (match s.decStep d i x with | .start _ => s.decBegin d i x | .go => s.decBegin d i x | _ => s)
    else s.decDone d i ((s.task d t).arg0.toNat + (s.task d t).arg1.toNat * 2 ^ 32) x

/-- DEC_PICTURE_DONE (R300). -/
def execDecPictureDone (d : Fin 8) (i : Fin 128) (x : DecPic) (s : State) : Out := .next (s.decPicture d i x)

/-- R304: a decode stream of channel c has lost its references: the channel is composed as if its ingest were LOST. -/
def State.decLost (s : State) (c : Nat) : Bool :=
  (s.placements c).any fun (d, k) => (List.range 8).any fun e => s.decOn d (k * 8 + e) && s.rd (F.DEC_STRi_STATUS_STATE d (k * 8 + e)) == 3

/-! ## Commits -/

/-- R305: the load of a crown's engine in pixels a second, times 4,004. -/
def State.decLoad (s : State) (d : Nat) : Nat :=
  ((List.range 128).map fun i => if s.decOn d i then s.rd (F.DEC_STRi_RATE_MPIX d i) * 1000000 * 4004 else 0).sum +
    ((List.range 96).map fun c => if s.chOn c && s.rd (F.ING_CHc_SRC_KIND c) == 1 && (s.unkept.placements c).any (·.1 == d)
      then s.chWidth c * s.chHeight c * s.chRate c else 0).sum

/-- R300: a commit has changed decode streams of crown d. -/
def State.decCommit (o s : State) (d : Nat) : State :=
  let s := s.forRange 128 fun i s =>
    match o.decOn d i, s.decOn d i with
    | false, true => ((s.setDecSt d i DecSt.init).reserveGroup d i).setDecState d i 1 false
    | true, false =>
      let id := o.strId d i
      let s := { s with cmp := { s.cmp with released := mapSet (fun _ => 0) s.cmp.released (d * 1024 + id) 0, hold := s.cmp.hold.filter (·.1 != d * 1024 + id) } }
      (((s.setDecSt d i DecSt.init).releaseGroup d i id).setDecState d i 0 false).wr (F.DEC_STRi_STATUS_CONCEAL d i) 0
    | _, _ => s
  s.wr (F.DEC_STATUS_LOAD d) (min 10000 (s.decLoad d * 10000 / (4000000000 * 4004)))

/-- R307, R308: the decode rules of R141 for stream index i of crown d. -/
def decRules (o s : State) (d i : Nat) : List Rule :=
  let st := [R.DEC_STRi_STATUS d i, R.DEC_STATUS d]
  let us := [R.DEC_STRi_CFG d i, R.DEC_STRi_SIZE d i, R.DEC_STRi_RATE d i]
  let en := s.decOn d i
  let codec := s.rd (F.DEC_STRi_CFG_CODEC d i)
  let chroma := s.on (F.DEC_STRi_CFG_CHROMA d i)
  let d8 := s.on (F.DEC_STRi_CFG_DEPTH8 d i)
  let w := s.rd (F.DEC_STRi_SIZE_W d i)
  let h := s.rd (F.DEC_STRi_SIZE_H d i)
  let q := s.rd (F.DEC_CFG_QUEUE d)
  let both := en && o.decOn d i
  let shape := fun (s : State) => (s.rd (F.DEC_STRi_CFG_CODEC d i), s.rd (F.DEC_STRi_CFG_DPB d i), s.rd (F.DEC_STRi_CFG_CHROMA d i), s.rd (F.DEC_STRi_CFG_DEPTH8 d i))
  rulesAt (R.DEC_STRi_CFG d i) st (us ++ [R.ENC_STRi_CFG d i, R.DEC_CFG d])
    [(0x5101, codec == 3 || (en && codec == 2 && (!chroma || d8))),
     (0x5104, en && s.strOn d i),
     (0x5105, en && (s.rd (F.DEC_STRi_CFG_DPB d i) == 0 || !s.on (F.DEC_CFG_EN d) || !s.queueServes d q 12)),
     (0x5107, both && shape o != shape s)] ++
  rulesAt (R.DEC_STRi_SIZE d i) st us
    [(0x5102, en && decide (w = 0 ∨ h = 0 ∨ w > 8192 ∨ h > 4320)), (0x5107, both && o.reg (R.DEC_STRi_SIZE d i) != s.reg (R.DEC_STRi_SIZE d i))] ++
  rulesAt (R.DEC_STRi_RATE d i) st us
    [(0x5103, en && (s.rd (F.DEC_STRi_RATE_MPIX d i) == 0 || decide (s.decLoad d > 4000000000 * 4004)))]

/-- R305: the enable of an ST 2110-22 channel that would overload a crown's engine. -/
def decIngRules (s : State) (c : Nat) : List Rule :=
  (s.placements c).flatMap fun (d, _) => rulesAt (R.ING_CHc_CFG c) [R.DEC_STATUS d] [R.ING_CHc_CFG c, R.ING_CHc_SRC c, R.ING_CHc_FMT c, R.LT_CHc_MAP c]
    [(0x5103, s.chOn c && s.rd (F.ING_CHc_SRC_KIND c) == 1 && decide (s.decLoad d > 4000000000 * 4004))]

/-- R302: a third DECODED layer on one decode stream of crown d, at layer l of slot k. -/
def decReaderRules (s : State) (d k l : Nat) : List Rule :=
  let dec := fun k l => s.on (F.CMP_SLOTs_Ll_CFG_EN d k l) && s.rd (F.CMP_SLOTs_Ll_CFG_SRC d k l) == 2
  let id := s.rd (F.CMP_SLOTs_Ll_DEC_STREAM d k l)
  let n := ((List.range 16).map fun k => ((List.range 16).filter fun l => dec k l && s.rd (F.CMP_SLOTs_Ll_DEC_STREAM d k l) == id).length).sum
  let own := match s.indexOf d id with | some i => if s.decOn d i then [R.DEC_STRi_STATUS d i] else [] | none => []
  rulesAt (R.CMP_SLOTs_Ll_CFG d k l) (R.DEC_STATUS d :: own) [R.CMP_SLOTs_Ll_CFG d k l, R.CMP_SLOTs_Ll_DEC d k l] [(0x5106, dec k l && decide (2 < n))]

end Sys2Proof.Machine
end

