-- ==== Sys2Proof/Machine/Costs.lean ====
section
/-!
DEFINITION. Sys2Proof/Machine/Costs.lean: the samples and costs of motion search (12_motion_search_and_statistics.md, R244 to R246,
R251): luma at a stream's own size and depth, reference samples at fractional positions by the interpolation of each codec, SAD, SATD
and the intra cost.
-/
namespace Sys2Proof.Machine

/-! ## Luma -/

/-- R228: the format of the output area that a stream reads, and the bit at which its picture's frame slot begins. -/
def State.outFmt (s : State) (d i : Nat) : Nat := s.taken d (i / 8) (F.CMP_SLOTs_COLOR_OUT_FMT d (i / 8))
def State.outSlotBit (s : State) (d i : Nat) (p : PicSt) : Nat :=
  let c := s.strChan d i
  (s.taken d (i / 8) (F.CMP_SLOTs_OUT_BASE_PAGE d (i / 8)) + p.frame % 2 * outPages (s.chWidth c) (s.chHeight c) (s.outFmt d i)) * 4096 * 8

/-- R228: a luma sample of the canvas that a picture reads, and a chroma sample of it (0 Cb, 1 Cr). -/
def State.canvasLuma (s : State) (d i : Nat) (p : PicSt) (x y : Nat) : Nat :=
  let c := s.strChan d i
  let dep := outDepth (s.outFmt d i)
  s.hbmBitsAt d (s.outSlotBit d i p + ((y + p.field * (s.chHeight c / 2)) * s.chWidth c + x) * dep) dep
def State.canvasChroma (s : State) (d i : Nat) (p : PicSt) (comp x y : Nat) : Nat :=
  let c := s.strChan d i
  let dep := outDepth (s.outFmt d i)
  let lines := if s.outFmt d i = 0 then s.chHeight c else s.chHeight c / 2
  let plane := ceilDiv (s.chWidth c * s.chHeight c * dep) 8 * 8
  s.hbmBitsAt d (s.outSlotBit d i p + plane + (((y + p.field * (lines / 2)) * (s.chWidth c / 2) + x) * 2 + comp) * dep) dep

/-- R226: the downscaler: the 8 x 6 samples of a plane of w x h about a sample of its wr x hr rendition, edges repeated, and the sample that
the filter makes of them. -/
def scaleWin (g : Nat → Nat → Nat) (w h wr hr x y : Nat) : List Nat :=
  (List.range 6).flatMap fun b => (List.range 8).map fun a => g (min (w - 1) (x * w / wr + a - 3)) (min (h - 1) (y * h / hr + b - 2))
def downscale (g : Nat → Nat → Nat) (dep w h wr hr x y : Nat) : Nat :=
  Config.scaledPx (scaleWin g w h wr hr x y) (x * w % wr, wr) (y * h % hr, hr) % 2 ^ dep

/-- R226, R228: the luma sample of a picture at a position, as the front end reads it, at the output area's depth. -/
def State.lumaAt (s : State) (d i : Nat) (p : PicSt) (x y : Nat) : Nat :=
  let c := s.strChan d i
  if s.scaled d i then downscale (s.canvasLuma d i p) (outDepth (s.outFmt d i)) (s.chWidth c) (s.chHeight c) (s.strW d i) (s.strH d i) x y
  else s.canvasLuma d i p x y

/-- The depth of a stream's samples. -/
def State.strDepth (s : State) (d i : Nat) : Nat := if s.on (F.ENC_STRi_CFG_DEPTH8 d i) then 8 else 10

/-- R227: a sample at the output area's depth goes to the stream's. -/
def State.toDepth (s : State) (d i v : Nat) : Nat :=
  if s.on (F.ENC_STRi_CFG_DEPTH8 d i) && outDepth (s.outFmt d i) == 10 then min 255 (nearestQ v 4) else v

/-- R227, R244: the luma sample that motion search and the pipeline see: 10 bits go to 8 by rounding. Beyond the picture its edge
repeats. -/
def State.strLuma (s : State) (d i : Nat) (p : PicSt) (x y : Nat) : Nat :=
  s.toDepth d i (s.lumaAt d i p (min (s.strW d i - 1) x) (min (s.picH d i - 1) y))

/-- R226 to R228: a chroma sample (0 Cb, 1 Cr) of a picture as the pipeline sees it: 4:2:2 samples are scaled first and then go to 4:2:0 by
the vertical filter (notes/assumptions/137.md). -/
def State.strChroma (s : State) (d i : Nat) (p : PicSt) (comp x y : Nat) : Nat :=
  let c := s.strChan d i
  let dep := outDepth (s.outFmt d i)
  let full := s.outFmt d i == 0
  let v := fun (h : Nat) => if full then h else h / 2
  let src := fun (x y : Nat) =>
    if s.scaled d i then downscale (s.canvasChroma d i p comp) dep (s.chWidth c / 2) (v (s.chHeight c)) (s.strW d i / 2) (v (s.strH d i)) x y
    else s.canvasChroma d i p comp x y
  s.toDepth d i (if full && !s.on (F.ENC_STRi_CFG_CHROMA d i) then Config.chromaDown ((List.range (s.picH d i)).map (src x)) y % 2 ^ dep else src x y)

/-- R246: a coarse sample: the rounded mean of a 4 x 4 luma block, at 8-bit scale. -/
def State.coarseVal (s : State) (d i : Nat) (p : PicSt) (x y : Nat) : Nat :=
  let sum := ((List.range 4).map fun b => ((List.range 4).map fun a => s.strLuma d i p (4 * x + a) (4 * y + b)).sum).sum
  min 255 (nearestQ sum (16 * 2 ^ (s.strDepth d i - 8)))

/-- R244, R254, R295: a luma sample of the reconstruction in a reference's pool buffer, edge-replicated; zero once its ticket is old; of a
graft by GDR mid-grey in the columns that it did not refresh (R365). What the pipelines reconstruct follows from
their coding decisions, which no rule gives: a free value (notes/assumptions/118.md). -/
def State.refLuma (s : State) (d i : Nat) (r : Nat × Nat) (x y : Int) : Int :=
  let b := r.1
  let xx := min (s.strW d i - 1) x.toNat
  if !s.freshRef d r then 0
  else if (s.buf d b).grey.any (· ≤ xx) then (2 ^ (s.strDepth d i - 1) : Nat)
  else Config.reconPx (d * 2048 + b) (s.buf d b).pic xx (min (s.picH d i - 1) y.toNat) % 2 ^ s.strDepth d i

/-! ## Interpolation -/

/-- R251: the 8 taps of HEVC luma at quarter k. -/
def hevcTaps (k : Nat) : List Int :=
  match k with
  | 0 => [0, 0, 0, 64, 0, 0, 0, 0]
  | 1 => [-1, 4, -10, 58, 17, -5, 1, 0]
  | 2 => [-1, 4, -11, 40, 40, -11, 4, -1]
  | _ => [0, 1, -5, 17, 58, -10, 4, -1]

/-- R251: the 8 taps of VVC luma at sixteenth k. -/
def vvcTaps (k : Nat) : List Int :=
  let t : Nat → List Int := fun k => match k with
    | 0 => [0, 0, 0, 64, 0, 0, 0, 0]
    | 1 => [0, 1, -3, 63, 4, -2, 1, 0]
    | 2 => [-1, 2, -5, 62, 8, -3, 1, 0]
    | 3 => [-1, 3, -8, 60, 13, -4, 1, 0]
    | 4 => [-1, 4, -10, 58, 17, -5, 1, 0]
    | 5 => [-1, 4, -11, 52, 26, -8, 3, -1]
    | 6 => [-1, 3, -9, 47, 31, -10, 4, -1]
    | 7 => [-1, 4, -11, 45, 34, -10, 4, -1]
    | _ => [-1, 4, -11, 40, 40, -11, 4, -1]
  if k ≤ 8 then t k else (t (16 - k)).reverse

/-- R251: the taps of the AV1 regular filter at eighth k. -/
def av1Taps (k : Nat) : List Int :=
  let t : Nat → List Int := fun k => match k with
    | 0 => [0, 0, 0, 128, 0, 0, 0, 0]
    | 1 => [0, 2, -10, 122, 18, -4, 0, 0]
    | 2 => [0, 2, -14, 110, 38, -10, 2, 0]
    | 3 => [0, 2, -16, 94, 58, -12, 2, 0]
    | _ => [0, 2, -14, 76, 76, -14, 2, 0]
  if k ≤ 4 then t k else (t (8 - k)).reverse

/-- A filter over the samples from three before a position to four after it. -/
def tapSum (ts : List Int) (g : Int → Int) (x : Int) : Int := (ts.zipIdx.map fun (t, n) => t * g (x + (n : Nat) - 3)).sum

/-- A sample limited to its depth. -/
def clipPx (bd : Nat) (v : Int) : Int := max 0 (min (2 ^ bd - 1) v)

/-- R251: HEVC and VVC: one or two passes to 14 bits, then rounded to the depth. -/
def interHevc (taps : Nat → List Int) (bd fx fy : Nat) (g : Int → Int → Int) (x y : Int) : Int :=
  let sh := 2 ^ (bd - 8)
  let row := fun (r : Int) => tapSum (taps fx) (fun c => g c r) x / sh
  let v := if fx = 0 ∧ fy = 0 then g x y * 2 ^ (14 - bd)
    else if fy = 0 then row y
    else if fx = 0 then tapSum (taps fy) (fun r => g x r) y / sh
    else tapSum (taps fy) row y / 64
  clipPx bd ((v + 2 ^ (13 - bd)) / 2 ^ (14 - bd))

/-- R251: AV1: both passes of the regular filter, with the standard's two roundings. -/
def interAv1 (bd fx fy : Nat) (g : Int → Int → Int) (x y : Int) : Int :=
  let row := fun (r : Int) => (tapSum (av1Taps fx) (fun c => g c r) x + 4) / 8
  clipPx bd ((tapSum (av1Taps fy) row y + 1024) / 2048)

/-- R251: AVC: 6 taps at the half positions, then the mean of the two nearest at the quarters. -/
def interAvc (bd fx fy : Nat) (g : Int → Int → Int) (x y : Int) : Int :=
  let six : List Int := [0, 1, -5, 20, 20, -5, 1, 0]
  let b1 := fun (x y : Int) => tapSum six (fun c => g c y) x
  let b := fun (x y : Int) => clipPx bd ((b1 x y + 16) / 32)
  let h := fun (x y : Int) => clipPx bd ((tapSum six (fun r => g x r) y + 16) / 32)
  let j := clipPx bd ((tapSum six (fun r => b1 x r) y + 512) / 1024)
  let avg := fun (a b : Int) => (a + b + 1) / 2
  match fx, fy with
  | 0, 0 => g x y
  | 2, 0 => b x y
  | 0, 2 => h x y
  | 2, 2 => j
  | 1, 0 => avg (g x y) (b x y)
  | 3, 0 => avg (g (x + 1) y) (b x y)
  | 0, 1 => avg (g x y) (h x y)
  | 0, 3 => avg (g x (y + 1)) (h x y)
  | 2, 1 => avg (b x y) j
  | 2, 3 => avg (b x (y + 1)) j
  | 1, 2 => avg (h x y) j
  | 3, 2 => avg (h (x + 1) y) j
  | _, _ => avg (b x (if fy = 3 then y + 1 else y)) (h (if fx = 3 then x + 1 else x) y)

/-- R251: motion vector units in a luma pel. -/
def mvUnit (codec : Nat) : Nat := match codec with | 1 => 16 | 3 => 8 | _ => 4

/-- R251: the sample that a vector names for a sample of the block at (x, y), by the codec's interpolation. -/
def interPx (codec bd : Nat) (g : Int → Int → Int) (mx my x y : Int) : Int :=
  let u : Int := mvUnit codec
  let fx := (mx % u).toNat
  let fy := (my % u).toNat
  match codec with
  | 0 => interHevc hevcTaps bd fx fy g (x + mx / u) (y + my / u)
  | 1 => interHevc vvcTaps bd fx fy g (x + mx / u) (y + my / u)
  | 2 => interAvc bd fx fy g (x + mx / u) (y + my / u)
  | _ => interAv1 bd fx fy g (x + mx / u) (y + my / u)

/-! ## Costs -/

/-- The unnormalised Hadamard transform of 2^n values. -/
def hadamard : Nat → List Int → List Int
  | 0, l => l
  | n + 1, l =>
    let a := l.take (2 ^ n)
    let b := l.drop (2 ^ n)
    hadamard n (a.zipWith (· + ·) b) ++ hadamard n (a.zipWith (· - ·) b)

/-- R245: the samples of a 16 x 16 block, in raster order. -/
def blockPos : List (Nat × Nat) := (List.range 256).map fun n => (n % 16, n / 16)

/-- R245: a difference at 8-bit scale. -/
def diff8 (bd : Nat) (a b : Int) : Int := (a - b) / 2 ^ (bd - 8)

/-- R245: SAD of a list of differences, saturated. -/
def sadOf (ds : List Int) : Nat := min 65535 (ds.map Int.natAbs).sum

/-- R245: SATD of the differences of a block in raster order: half the sum over its four 8 x 8 quarters, saturated. -/
def satdOf (ds : List Int) : Nat :=
  let quarter := fun (q : Nat) => (List.range 64).map fun n => ds.getD ((q / 2 * 8 + n / 8) * 16 + q % 2 * 8 + n % 8) 0
  min 65535 (((List.range 4).map fun q => ((hadamard 6 (quarter q)).map Int.natAbs).sum).sum / 2)

/-- R245: the four intra predictions of a block from its neighbours (position relative to the block's corner): DC, planar, horizontal
and vertical. -/
def intraPreds (nb : Int → Int → Int) : List (Nat → Nat → Int) :=
  let top := (List.range 16).map fun a => nb (a : Nat) (-1)
  let left := (List.range 16).map fun b => nb (-1) (b : Nat)
  let dc := ((top ++ left).sum + 16) / 32
  let tr := nb 16 (-1)
  let bl := nb (-1) 16
  [fun _ _ => dc,
   fun a b => ((15 - (a : Int)) * left.getD b 0 + ((a : Int) + 1) * tr + (15 - (b : Int)) * top.getD a 0 + ((b : Int) + 1) * bl + 16) / 32,
   fun _ b => left.getD b 0, fun a _ => top.getD a 0]

/-- R245: the intra cost of block (bx, by) of tile column [x0, x1): a neighbour outside the picture or the column, or below the block, is
not available and counts 128 (notes/assumptions/119.md). -/
def State.intraCost (s : State) (d i : Nat) (p : PicSt) (x0 x1 bx by_ : Nat) : Nat :=
  let bd := s.strDepth d i
  let nb := fun (a b : Int) =>
    let x := (bx * 16 : Nat) + a
    let y := (by_ * 16 : Nat) + b
    if x < x0 ∨ (x1 : Int) ≤ x ∨ y < 0 ∨ 16 ≤ b ∨ (s.picH d i : Int) ≤ y then (128 * 2 ^ (bd - 8) : Int) else s.strLuma d i p x.toNat y.toNat
  let cur := blockPos.map fun (a, b) => (s.strLuma d i p (bx * 16 + a) (by_ * 16 + b) : Int)
  let cost := fun (f : Nat → Nat → Int) => satdOf ((cur.zip blockPos).map fun (v, a, b) => diff8 bd v (f a b))
  ((intraPreds nb).map cost).foldl min 65535

end Sys2Proof.Machine
end

