-- ==== Sys2Proof/Machine/Levels.lean ====
section
/-!
DEFINITION. Sys2Proof/Machine/Levels.lean: the level limits that R218, R229 and R285 take from the codecs' own standards
(notes/assumptions/50.md): the spec names those standards and does not restate their tables.
-/
namespace Sys2Proof.Machine

/-- A level: LEVEL_IDC, largest picture and sample rate (luma samples; macroblocks for AVC), bit rate and buffer in kbit of the
Main and of the High tier (before the NAL factor), largest number of tile columns, and largest width and height where the standard
tabulates them (0: the root of eight times the picture size). -/
structure Level where
  idc : Nat
  ps : Nat
  sr : Nat
  br : Nat
  brHigh : Nat
  cpb : Nat
  cpbHigh : Nat
  cols : Nat
  maxW : Nat := 0
  maxH : Nat := 0
  deriving DecidableEq, Repr

/-- HEVC (ITU-T H.265, Annex A). -/
def hevcLevels : List Level :=
  [⟨30, 36864, 552960, 128, 128, 350, 350, 1, 0, 0⟩, ⟨60, 122880, 3686400, 1500, 1500, 1500, 1500, 1, 0, 0⟩,
   ⟨63, 245760, 7372800, 3000, 3000, 3000, 3000, 1, 0, 0⟩, ⟨90, 552960, 16588800, 6000, 6000, 6000, 6000, 2, 0, 0⟩,
   ⟨93, 983040, 33177600, 10000, 10000, 10000, 10000, 3, 0, 0⟩, ⟨120, 2228224, 66846720, 12000, 30000, 12000, 30000, 5, 0, 0⟩,
   ⟨123, 2228224, 133693440, 20000, 50000, 20000, 50000, 5, 0, 0⟩, ⟨150, 8912896, 267386880, 25000, 100000, 25000, 100000, 10, 0, 0⟩,
   ⟨153, 8912896, 534773760, 40000, 160000, 40000, 160000, 10, 0, 0⟩, ⟨156, 8912896, 1069547520, 60000, 240000, 60000, 240000, 10, 0, 0⟩,
   ⟨180, 35651584, 1069547520, 60000, 240000, 60000, 240000, 20, 0, 0⟩, ⟨183, 35651584, 2139095040, 120000, 480000, 120000, 480000, 20, 0, 0⟩,
   ⟨186, 35651584, 4278190080, 240000, 800000, 240000, 800000, 20, 0, 0⟩]

/-- VVC (ITU-T H.266, Annex A). -/
def vvcLevels : List Level :=
  [⟨16, 36864, 552960, 128, 128, 350, 350, 1, 0, 0⟩, ⟨32, 122880, 3686400, 1500, 1500, 1500, 1500, 1, 0, 0⟩,
   ⟨35, 245760, 7372800, 3000, 3000, 3000, 3000, 1, 0, 0⟩, ⟨48, 552960, 16588800, 6000, 6000, 6000, 6000, 2, 0, 0⟩,
   ⟨51, 983040, 33177600, 10000, 10000, 10000, 10000, 3, 0, 0⟩, ⟨64, 2228224, 66846720, 12000, 30000, 12000, 30000, 5, 0, 0⟩,
   ⟨67, 2228224, 133693440, 20000, 50000, 20000, 50000, 5, 0, 0⟩, ⟨80, 8912896, 267386880, 25000, 100000, 25000, 100000, 10, 0, 0⟩,
   ⟨83, 8912896, 534773760, 40000, 160000, 40000, 160000, 10, 0, 0⟩, ⟨86, 8912896, 1069547520, 60000, 240000, 60000, 240000, 10, 0, 0⟩,
   ⟨96, 35651584, 1069547520, 80000, 320000, 80000, 320000, 20, 0, 0⟩, ⟨99, 35651584, 2139095040, 120000, 480000, 120000, 480000, 20, 0, 0⟩,
   ⟨102, 35651584, 4278190080, 180000, 720000, 180000, 800000, 20, 0, 0⟩]

/-- AVC (ITU-T H.264, Annex A). -/
def avcLevels : List Level :=
  [⟨9, 99, 1485, 128, 128, 350, 350, 1, 0, 0⟩, ⟨10, 99, 1485, 64, 64, 175, 175, 1, 0, 0⟩, ⟨11, 396, 3000, 192, 192, 500, 500, 1, 0, 0⟩,
   ⟨12, 396, 6000, 384, 384, 1000, 1000, 1, 0, 0⟩, ⟨13, 396, 11880, 768, 768, 2000, 2000, 1, 0, 0⟩, ⟨20, 396, 11880, 2000, 2000, 2000, 2000, 1, 0, 0⟩,
   ⟨21, 792, 19800, 4000, 4000, 4000, 4000, 1, 0, 0⟩, ⟨22, 1620, 20250, 4000, 4000, 4000, 4000, 1, 0, 0⟩, ⟨30, 1620, 40500, 10000, 10000, 10000, 10000, 1, 0, 0⟩,
   ⟨31, 3600, 108000, 14000, 14000, 14000, 14000, 1, 0, 0⟩, ⟨32, 5120, 216000, 20000, 20000, 20000, 20000, 1, 0, 0⟩,
   ⟨40, 8192, 245760, 20000, 20000, 25000, 25000, 1, 0, 0⟩, ⟨41, 8192, 245760, 50000, 50000, 62500, 62500, 1, 0, 0⟩,
   ⟨42, 8704, 522240, 50000, 50000, 62500, 62500, 1, 0, 0⟩, ⟨50, 22080, 589824, 135000, 135000, 135000, 135000, 1, 0, 0⟩,
   ⟨51, 36864, 983040, 240000, 240000, 240000, 240000, 1, 0, 0⟩, ⟨52, 36864, 2073600, 240000, 240000, 240000, 240000, 1, 0, 0⟩,
   ⟨60, 139264, 4177920, 240000, 240000, 240000, 240000, 1, 0, 0⟩, ⟨61, 139264, 8355840, 480000, 480000, 480000, 480000, 1, 0, 0⟩,
   ⟨62, 139264, 16711680, 800000, 800000, 800000, 800000, 1, 0, 0⟩]

/-- AV1 (Annex A): by seq_level_idx. -/
def av1Levels : List Level :=
  [⟨0, 147456, 4423680, 1500, 1500, 0, 0, 4, 2048, 1152⟩, ⟨1, 278784, 8363520, 3000, 3000, 0, 0, 4, 2816, 1584⟩, ⟨4, 665856, 19975680, 6000, 6000, 0, 0, 6, 4352, 2448⟩,
   ⟨5, 1065024, 31950720, 10000, 10000, 0, 0, 6, 5504, 3096⟩, ⟨8, 2359296, 70778880, 12000, 12000, 0, 0, 8, 6144, 3456⟩, ⟨9, 2359296, 141557760, 20000, 20000, 0, 0, 8, 6144, 3456⟩,
   ⟨12, 8912896, 267386880, 30000, 30000, 0, 0, 8, 8192, 4352⟩, ⟨13, 8912896, 534773760, 40000, 40000, 0, 0, 8, 8192, 4352⟩,
   ⟨14, 8912896, 1069547520, 60000, 60000, 0, 0, 8, 8192, 4352⟩, ⟨15, 8912896, 1069547520, 60000, 60000, 0, 0, 8, 8192, 4352⟩,
   ⟨16, 35651584, 1069547520, 60000, 60000, 0, 0, 16, 16384, 8704⟩, ⟨17, 35651584, 2139095040, 100000, 100000, 0, 0, 16, 16384, 8704⟩,
   ⟨18, 35651584, 4278190080, 160000, 160000, 0, 0, 16, 16384, 8704⟩, ⟨19, 35651584, 4278190080, 160000, 160000, 0, 0, 16, 16384, 8704⟩]

/-- JPEG XS (ISO/IEC 21122-2): levels by bits [15:8] of Plev, up to 8k-3. -/
def xsLevels : List Level :=
  [⟨0x04, 2621440, 83558400, 0, 0, 0, 0, 2, 1280, 5120⟩, ⟨0x10, 4194304, 133693440, 0, 0, 0, 0, 2, 2048, 8192⟩, ⟨0x20, 8912896, 267386880, 0, 0, 0, 0, 2, 4096, 16384⟩, ⟨0x24, 16777216, 534773760, 0, 0, 0, 0, 2, 4096, 16384⟩,
   ⟨0x28, 16777216, 1069547520, 0, 0, 0, 0, 2, 4096, 16384⟩, ⟨0x30, 35651584, 1069547520, 0, 0, 0, 0, 2, 8192, 32768⟩, ⟨0x34, 67108864, 2139095040, 0, 0, 0, 0, 2, 8192, 32768⟩,
   ⟨0x38, 67108864, 4278190080, 0, 0, 0, 0, 2, 8192, 32768⟩]

/-- JPEG XS sublevels by bits [7:0] of Plev: coded bits per pixel, 0 for no limit (Unrestricted 0x00, Full 0x80). -/
def xsSublevels : List (Nat × Nat) := [(0x00, 0), (0x80, 0), (0x10, 12), (0x0C, 9), (0x08, 6), (0x06, 4), (0x04, 3), (0x03, 2)]

/-- The levels of a codec (R218), and the level a LEVEL_IDC names. -/
def codecLevels (codec : Nat) : List Level :=
  match codec with | 0 => hevcLevels | 1 => vvcLevels | 2 => avcLevels | 3 => av1Levels | _ => xsLevels
def levelOf (codec idc : Nat) : Option Level :=
  (codecLevels codec).find? fun l => l.idc == if codec = 4 then idc / 256 else idc

/-- Quotient rounded up. -/
def ceilDivL (n d : Nat) : Nat := (n + d - 1) / d

/-- R218: a side of w samples exceeds the level's limit; of AVC sides and picture sizes count macroblocks. -/
def sideTooLong (codec : Nat) (l : Level) (w : Nat) : Bool :=
  let w := if codec = 2 then ceilDivL w 16 else w
  if l.maxW = 0 then decide (8 * l.ps < w * w) else decide (l.maxW < w)

/-- The NAL bit-rate factor of a codec's profile (R285). -/
def nalFactor (codec profile : Nat) : Nat :=
  match codec, profile with
  | 0, 2 => 1833
  | 0, _ => 1100
  | 1, 1 => 2750
  | 1, _ => 1100
  | 2, 1 => 3600
  | 2, 2 => 4800
  | 2, _ => 1500
  | _, _ => 1000

end Sys2Proof.Machine
end

