-- ==== Sys2Proof/Machine/Ledger.lean ====
section
/-!
DEFINITION. Sys2Proof/Machine/Ledger.lean: rate control and the row ledger (13_rate_control.md): transport buffers, floor
bounds, headroom, picture budgets, the decision on each unit, row QP, and the checks of these.
-/
namespace Sys2Proof.Machine

def pLedg (d p : Nat) : Nat := mkPath [d, p, 4]

/-! ## The transport buffer -/

def State.ledMode (s : State) (d i : Nat) : Nat := s.rd (F.LEDG_STRi_MODE_MODE d i)
/-- RATE and AVG in bits a second. -/
def State.ledRate (s : State) (d i : Nat) : Nat := s.rd (F.LEDG_STRi_RATE_RATE d i) * 1000
def State.ledAvg (s : State) (d i : Nat) : Nat := s.rd (F.LEDG_STRi_AVG_AVG d i) * 1000

/-- Channel lines a second, times 4,004. -/
def State.lineRate (s : State) (c : Nat) : Nat := max 1 (s.chRate c * s.chLines c)

/-- R53: B of a channel. -/
def State.chB (s : State) (c : Nat) : Nat := s.rd (F.LT_CHc_DELAY_TOTAL c) - s.rd (F.LT_CHc_DELAY_D c)

/-- R272, R285: CPB and S_hrd, in bits. -/
def State.cpb (s : State) (d i : Nat) : Nat := s.ledRate d i * s.chB (s.strChan d i) * 4004 / s.lineRate (s.strChan d i)
def State.hrdCpb (s : State) (d i : Nat) : Nat :=
  let c := s.strChan d i
  ceilDiv (s.ledRate d i * (s.chB c + s.chLines c) * 4004) (s.lineRate c)

/-- The unit in which fills are kept: 1/Q bit, so that the drain of a column over whole lines is a whole number (R272, R283). -/
def State.ledQ (s : State) (d i : Nat) : Nat := s.lineRate (s.strChan d i) * max 1 (s.strW d i)
def State.drainU (s : State) (d i j lines : Nat) : Nat := s.ledRate d i * lines * 4004 * s.tileW d i j
def State.toBits (s : State) (d i u : Nat) : Nat := ceilDiv u (s.ledQ d i)

/-- R283: the share of column j. -/
def State.share (s : State) (d i j v : Nat) : Nat := v * s.tileW d i j / max 1 (s.strW d i)

/-! ## Floor bounds -/

/-- R275: the units of the floor partition in a block at (x, y) of a w x h area: split where the edge forces it. -/
def cuUnits (w h : Nat) : Nat → Nat → Nat → Nat → Nat
  | 0, _, _, _ => 1
  | n + 1, size, x, y =>
    if w ≤ x ∨ h ≤ y then 0
    else if (x + size ≤ w ∧ y + size ≤ h) ∨ size ≤ 8 then 1
    else
      let z := size / 2
      cuUnits w h n z x y + cuUnits w h n z (x + z) y + cuUnits w h n z x (y + z) + cuUnits w h n z (x + z) (y + z)

/-- R275: how a codec codes a unit in floor mode. -/
def floorUnit (codec : Nat) (refresh : Bool) : FloorUnit :=
  match codec with
  | 2 => if refresh then .intra16Dc else .pSkip
  | 3 => if refresh then .intraDcSkip else .skipGlobal
  | 4 => .zeroPlanes
  | _ => if refresh then .intraDcDm else .skipMerge0

/-- R276: n(r), the units in CTU row r of column j. -/
def State.rowUnits (s : State) (d i j r : Nat) : Nat :=
  let c := s.strCtu d i
  let w := s.tileW d i j
  let h := s.picH d i
  let lines := min c (h - r * c)
  match s.strCodec d i with
  | 2 => ceilDiv w 16 * ceilDiv lines 16
  | 4 => ceilDiv lines 4
  | _ =>
    let whole := if w < c then 0 else w / c * cuUnits c h 8 c 0 (r * c)
    if w % c = 0 then whole else whole + cuUnits (w % c) h 8 c 0 (r * c)

/-- R276: u, by codec, kind (0 inter), entropy coder and column width. -/
def unitBound (codec : Nat) (refresh cavlc : Bool) (w : Nat) : Nat :=
  match codec with
  | 0 => if refresh then 69 else 31
  | 1 => if refresh then 165 else 81
  | 2 => if cavlc then (if refresh then 7 else 1) else (if refresh then 49 else 7)
  | 3 => if refresh then 151 else 121
  | _ => 64 + ceilDiv w 4
def rowHeader (codec : Nat) : Nat := match codec with | 0 => 416 | 1 => 496 | 2 => 336 | 3 => 208 | _ => 80

/-- R224: every JPEG XS picture is a refresh picture. -/
def State.refreshKind (s : State) (d i kind : Nat) : Bool := kind != 0 || s.strCodec d i == 4
def State.unitBits (s : State) (d i j kind : Nat) : Nat :=
  unitBound (s.strCodec d i) (s.refreshKind d i kind) (s.on (F.ENC_STRi_OPT_CAVLC d i)) (s.tileW d i j)

/-- R276: the headers charged to CTU row r, and the floor bound F(r). -/
def State.headBits (s : State) (d i kind r : Nat) : Nat :=
  (if r % s.strHrow d i = 0 then rowHeader (s.strCodec d i) else 0) + if r = 0 then Config.hPic (s.strCodec d i) (bit (s.refreshKind d i kind)) (s.reg (R.ENC_STRi_CFG d i)).toNat (s.reg (R.ENC_STRi_SEI d i)).toNat else 0
def State.floorCtu (s : State) (d i j kind r : Nat) : Nat := s.headBits d i kind r + s.rowUnits d i j r * s.unitBits d i j kind

/-- The floor of CTU rows a to b - 1, of coding row q, and of a picture. -/
def State.floorSpan (s : State) (d i j kind a b : Nat) : Nat := ((List.range (b - a)).map fun k => s.floorCtu d i j kind (a + k)).sum
def State.floorRow (s : State) (d i j kind q : Nat) : Nat :=
  let h := s.strHrow d i
  s.floorSpan d i j kind (q * h) (min ((q + 1) * h) (s.strR d i))
def State.fpic (s : State) (d i j kind : Nat) : Nat := s.floorSpan d i j kind 0 (s.strR d i)
def State.fpicAll (s : State) (d i kind : Nat) : Nat := ((List.range (s.strN d i)).map fun j => s.fpic d i j kind).sum

/-! ## Headroom -/

/-- The line, within its frame, after the last input line of coding row q of field f; D more lines on is its handover (R49). -/
def State.rowEnd (s : State) (d i f q : Nat) : Nat := s.rowLastLine d i f q + 1

/-- Lines from the frame of a slot in field f to the frame of the next slot, and that slot's field (R223). -/
def State.nextSlot (s : State) (d i f : Nat) : Nat × Nat :=
  let c := s.strChan d i
  if s.chInterlaced c then (if f = 0 then (0, 1) else (s.chLines c, 0))
  else ((if s.on (F.ENC_STRi_CFG_FRDIV d i) then 2 else 1) * s.chLines c, 0)

/-- R277: the coding rows after row k of a slot, up to row k of the next: lines from row k's handover, and floor. -/
def State.rowsAfter (s : State) (d i j kind f k : Nat) : List (Nat × Nat) :=
  let p := s.strRows d i
  let (step, f') := s.nextSlot d i f
  let h := s.rowEnd d i f k
  ((List.range p).filter (k < ·)).map (fun q => (s.rowEnd d i f q - h, s.floorRow d i j kind q)) ++
    (List.range (k + 1)).map fun q => (step + s.rowEnd d i f' q - h, max (s.floorRow d i j 0 q) (s.floorRow d i j 1 q))

/-- R277: G(k) of column j, in bits. -/
def State.headroom (s : State) (d i j kind f k : Nat) : Nat :=
  let q := s.ledQ d i
  let (_, best) := (s.rowsAfter d i j kind f k).foldl (fun (acc : Nat × Nat) (lines, fl) =>
    (acc.1 + fl, max acc.2 ((acc.1 + fl) * q - s.drainU d i j lines))) (0, 0)
  ceilDiv best q

def State.strFields (s : State) (d i : Nat) : List Nat := if s.chInterlaced (s.strChan d i) then [0, 1] else [0]

/-- R277: the largest G(k). -/
def State.gmax (s : State) (d i : Nat) : Nat :=
  ((List.range (s.strN d i)).flatMap fun j => (s.strFields d i).flatMap fun f => (List.range (s.strRows d i)).flatMap fun k =>
    [s.headroom d i j 0 f k, s.headroom d i j 1 f k]).foldl max 0

/-- R277: a column fails a condition. -/
def State.floorBad (s : State) (d i j : Nat) : Bool :=
  decide (s.fpic d i j 1 * max 1 (s.strW d i) * s.picRate d i > s.ledRate d i * 4004 * s.tileW d i j) ||
  (s.strFields d i).any fun f => (List.range (s.strRows d i)).any fun k => [0, 1].any fun kind =>
    decide (s.floorRow d i j kind k + s.headroom d i j kind f k > s.share d i j (s.cpb d i))

/-- R274: the longest interval between two consecutive handovers, in lines. -/
def State.longestGap (s : State) (d i : Nat) : Nat :=
  ((s.strFields d i).flatMap fun f =>
    let p := s.strRows d i
    let (step, f') := s.nextSlot d i f
    (List.range p).map fun q => if q + 1 < p then s.rowEnd d i f (q + 1) - s.rowEnd d i f q else step + s.rowEnd d i f' 0 - s.rowEnd d i f q).foldl max 0

/-! ## Pictures in flight -/

def State.setPic (s : State) (d i : Nat) (p : PicSt) : State :=
  let e := s.encSt d i
  s.setEncSt d i { e with pics := e.pics.map fun q => if q.num = p.num then p else q }
def PicSt.col (p : PicSt) (j : Nat) : LedCol := p.cols.getD j ⟨0, 0, 0, 0, 0, false, false, 0, [], 0, 0⟩
def PicSt.setCol (p : PicSt) (j : Nat) (c : LedCol) : PicSt := { p with cols := p.cols.set j c }

/-- LEDG_STATUS.FLOORING, and the stream's FLOORING bit. -/
def State.showFlooring (s : State) (d i : Nat) : State :=
  let fl := fun (s : State) i => (s.encSt d i).pics.any fun p => p.coded && !p.lost && p.cols.any (·.flooring)
  let s := s.wr (F.LEDG_STRi_STATUS_FLOORING d i) (bit (fl s i))
  s.wr (F.LEDG_STATUS_FLOORING d) ((s.enc.strs.filter fun (k, e) => k / 128 == d && e.pics.any fun p => p.coded && !p.lost && p.cols.any (·.flooring)).length)

/-- The absolute line of a row's handover. -/
def State.handLine (s : State) (d i : Nat) (p : PicSt) (q : Nat) : Nat := p.frame * s.chLines (s.strChan d i) + s.rowEnd d i p.field q

/-- R273: the predicted fill of column j at an absolute line, in 1/Q bit. -/
def State.fillAt (s : State) (d i j line : Nat) : Nat :=
  let (u, at_) := mapGet (fun _ => (0, 0)) (s.encSt d i).fills j
  u - s.drainU d i j (line - at_)
def State.setFill (s : State) (d i j u line : Nat) : State :=
  let e := s.encSt d i
  s.setEncSt d i { e with fills := mapSet (fun _ => (0, 0)) e.fills j (u, line) }

/-- R278, R283: the budget of column j of a picture, and whether it was clipped. -/
def State.budget (s : State) (d i j : Nat) (p : PicSt) : Nat × Bool :=
  let kind := p.kind
  let rows := s.strRows d i
  let cpb := s.share d i j (s.cpb d i)
  let slot := fun r => r * 4004 * s.tileW d i j / max 1 (s.picRate d i * s.strW d i)
  let w := if s.refreshKind d i kind then s.rd (F.LEDG_STRi_TUNE_I_RATIO d i) else 16
  let fill := s.toBits d i (s.fillAt d i j (s.handLine d i p 0))
  let lines := s.rowEnd d i p.field (rows - 1) - s.rowEnd d i p.field 0
  let hi : Int := (cpb : Int) - s.headroom d i j kind p.field (rows - 1) - fill + s.drainU d i j lines / s.ledQ d i
  let g := 2 ^ s.rd (F.LEDG_STRi_TUNE_GAIN d i)
  let bank := mapGet (fun _ => (0 : Int)) (s.encSt d i).banks j
  let want : Int := match s.ledMode d i with
    | 0 => ((slot (s.ledRate d i) * w / 16 : Nat) : Int) - ((fill : Int) - (cpb * s.rd (F.LEDG_STRi_TUNE_TFILL d i) / 100 : Nat)) / (g : Int)
    | 1 => ((slot (s.ledAvg d i) * w / 16 : Nat) : Int) + bank / (g : Int)
    | _ => hi
  (max (s.fpic d i j kind) (min want hi).toNat, decide (hi < want))

/-- R285: the initial removal delay of a refresh picture in 90 kHz, rounded down: from the instant its first bit leaves, as the fill
predicted at its first handover drains at RATE, to the wire deadline of its last coding row (notes/assumptions/121.md). -/
def State.removalDelay (s : State) (d i : Nat) (p : PicSt) : Option Nat :=
  if p.kind = 0 ∨ 3 ≤ s.strCodec d i then none
  else
    let c := s.strChan d i
    let lines := s.rowEnd d i p.field (s.strRows d i - 1) - s.rowEnd d i p.field 0 + s.chB c
    let fill := ((List.range (s.strN d i)).map fun j => s.fillAt d i j (s.handLine d i p 0)).sum
    let unit := s.ledQ d i * max 1 (s.ledRate d i)
    some (90000 * (lines * 4004 * unit - fill * s.lineRate c) / (s.lineRate c * unit))

/-- R278: the ledger of a picture that starts. -/
def State.pictureBudget (s : State) (d i : Nat) (p : PicSt) : State × PicSt :=
  let bs := (List.range (s.strN d i)).map fun j => s.budget d i j p
  let clip := bs.any (·.2)
  let p := { p with cols := bs.map fun (b, _) => ⟨b, 0, 0, 0, 0, false, false, 0, [], 0, 0⟩, delay := s.removalDelay d i p }
  let s := (s.wr (F.LEDG_STRi_PBUD_BITS d i) (bs.map (·.1)).sum).wr (F.LEDG_STRi_STATUS_CLIPPED d i) (bit clip)
  (if clip then s.inc (F.LEDG_STRi_CNT_B_CLIPS d i) else s, p)

/-! ## Rows -/

/-- R279: the history of a kind, the weight of CTU row r, and its allotment. -/
def State.hist (s : State) (d i kind : Nat) : RowHist := if s.refreshKind d i kind then (s.encSt d i).histI else (s.encSt d i).histP
def State.ctuLines (s : State) (d i r : Nat) : Nat := min (s.strCtu d i) (s.picH d i - r * s.strCtu d i)
def State.rowWeight (s : State) (d i j kind r : Nat) : Nat :=
  if s.on (F.LEDG_STRi_TUNE_ROW_W d i) ∨ s.hist d i kind = [] then s.ctuLines d i r
  else (mapGet (fun _ => (0, 0, 0)) (s.hist d i kind) (r * 4 + j)).2.2
def State.allot (s : State) (d i j kind pb r : Nat) : Nat :=
  let sum := ((List.range (s.strR d i)).map fun k => s.rowWeight d i j kind k).sum
  s.floorCtu d i j kind r + (pb - s.fpic d i j kind) * s.rowWeight d i j kind r / max 1 sum

/-- R282: ceil(6 log2(a / b)), held to 400 either way. -/
def sixLog2 (a b : Nat) : Int :=
  if b = 0 then 400 else if a = 0 then -400
  else
    match (List.range 401).find? fun n => decide (a ^ 6 ≤ 2 ^ n * b ^ 6) with
    | some 0 =>
      -- a ≤ b: the least n, at most zero, with 2^n ≥ (a / b)^6
      match (List.range 401).find? fun n => decide (b ^ 6 < 2 ^ (n + 1) * a ^ 6) with
      | some m => -(m : Int)
      | none => -400
    | some n => n
    | none => 400

/-- The codec's QP limit (R282), and the quantiser of floor mode (R275). -/
def qpTop (codec : Nat) : Nat := if codec = 1 ∨ codec = 3 then 63 else 51

/-- R275, R282: the quantiser written for a QP: base_q_idx of AV1 on its scale of 0 to 255, else the QP. -/
def quantOf (codec q : Nat) : Nat := if codec = 3 then (q * 510 + 63) / 126 else q

/-- R136, R239, R286: the registers whose values a stream takes up at a picture start; its motion registers with them
(notes/assumptions/100.md). -/
def State.pictureRegs (s : State) (d i : Nat) : List (Nat × Word) :=
  [R.ENC_STRi_CFG d i, R.ENC_STRi_GOP d i, R.ENC_STRi_OPT d i, R.ENC_STRi_SEI d i,
   R.LEDG_STRi_MODE d i, R.LEDG_STRi_AVG d i, R.LEDG_STRi_TUNE d i,
   R.MES_STRi_CFG d i, R.MES_STRi_CONF d i, R.MES_STRi_SCD d i].map fun a => (a, s.reg a)
/-- R136: the state as a picture in flight sees it: its stream's registers as they were at its start. -/
def State.asOf (s : State) (p : PicSt) : State := p.taken.foldl (fun s (a, v) => s.setReg a v) s

/-- R282: the QP of CTU row r of column j at its start. -/
def State.rowQp (s : State) (d i j : Nat) (p : PicSt) : Nat :=
  let s := s.asOf p
  let c := p.col j
  let r := c.row
  let lo := s.rd (F.LEDG_STRi_MODE_QP_MIN d i)
  let hi := s.rd (F.LEDG_STRi_MODE_QP_MAX d i)
  if s.ledMode d i = 2 then s.rd (F.LEDG_STRi_MODE_QP_CONST d i)
  else
    let rest := (List.range (s.strR d i)).filter (r ≤ ·)
    let fl := (rest.map fun k => s.floorCtu d i j p.kind k).sum
    let plan := (rest.map fun k => s.allot d i j p.kind c.pb k - s.floorCtu d i j p.kind k).sum
    let left := c.pb - c.spent - fl
    let f := s.floorCtu d i j p.kind r
    let tgt := f + if plan = 0 then 0 else (s.allot d i j p.kind c.pb r - f) * left / plan
    let q : Int :=
      if s.hist d i p.kind = [] then ((lo + hi) / 2 : Nat)
      else
        let (bits, q4, _) := mapGet (fun _ => (0, 0, 0)) (s.hist d i p.kind) (r * 4 + j)
        (quot q4 4 : Nat) + sixLog2 bits tgt
    let q := max (lo : Int) (min q hi)
    match c.rows.reverse with
    | x :: _ =>
      let st := s.rd (F.LEDG_STRi_TUNE_QSTEP d i)
      (max ((x.q : Int) - st) (min q (x.q + st))).toNat
    | [] => q.toNat

/-- R282: LAMBDA of a QP: round(16 sqrt(0.57 x 2^((q_e - 12) / 3))), from its cube (its 63rd power for AV1). -/
def lambdaOf (codec q : Nat) : Nat :=
  let m := if codec = 3 then 21 else 1
  let e := if codec = 3 then 17 * q else q
  -- (2L - 1)^2 ≤ 4 x 145.92 x 2^((q_e - 12) / 3), raised to the power 3m
  let le := fun (l : Nat) => decide ((2 * l + 1) ^ (6 * m) * 100 ^ (3 * m) * 2 ^ (12 * m) ≤ 4 ^ (3 * m) * 14592 ^ (3 * m) * 2 ^ e)
  -- the number of l for which it holds, bit by bit
  (List.range 13).foldl (fun a k => if le (a + 2 ^ (12 - k) - 1) then a + 2 ^ (12 - k) else a) 0

/-- R265, R275: QP_MIN, QP_MAX and QP_MEAN (in 1/4 QP) of a closed row: its units in floor mode were coded at the codec's largest QP. -/
def LedRow.qpMin (r : LedRow) (codec : Nat) : Nat := if r.units ≤ r.nFloor ∧ r.nFloor ≠ 0 then qpTop codec else r.q
def LedRow.qpMax (r : LedRow) (codec : Nat) : Nat := if r.nFloor = 0 then r.q else qpTop codec
def LedRow.qpMean (r : LedRow) (codec : Nat) : Nat :=
  if r.nFloor = 0 then r.q * 4 else quot (4 * ((r.units - r.nFloor) * r.q + r.nFloor * qpTop codec)) (max 1 r.units)

/-- R282: the motion lambda of the row being coded. -/
def State.rowLambda (s : State) (d i : Nat) (c : LedCol) : Nat :=
  lambdaOf (s.strCodec d i) (if c.flooring then qpTop (s.strCodec d i) else c.q)

/-- R273, R282: the first CTU row of a coding row starts: its fill is predicted and its QP set. -/
def State.ledRowStart (s : State) (d i j : Nat) (p : PicSt) : State :=
  let c := p.col j
  let q := c.row / s.strHrow d i
  let line := s.handLine d i p q
  let s := s.setFill d i j (s.fillAt d i j line) line
  let q := s.rowQp d i j p
  s.setPic d i (p.setCol j { c with q := q, quant := quantOf (s.strCodec d i) (if c.flooring then qpTop (s.strCodec d i) else q) })

/-- R274: the line of the stream's handover after row q of a slot. -/
def State.nextHand (s : State) (d i : Nat) (p : PicSt) (q : Nat) : Nat :=
  let (step, f') := s.nextSlot d i p.field
  if q + 1 < s.strRows d i then s.handLine d i p (q + 1)
  else p.frame * s.chLines (s.strChan d i) + step + s.rowEnd d i f' 0

/-- R274: a coding row is complete in a column: in CBR filler raises the fill to the drain until the next handover. The
filler is whole bytes, and the prediction is the fill that they give. -/
def State.ledRowEnd (s : State) (d i j : Nat) (p : PicSt) (q : Nat) : State × PicSt :=
  if s.ledMode d i ≠ 0 then (s, p)
  else
    let line := s.handLine d i p q
    let u := s.fillAt d i j line
    let need := s.drainU d i j (s.nextHand d i p q - line)
    let bytes := ceilDiv (need - u) (8 * s.ledQ d i)
    if bytes = 0 then (s, p)
    else (s.setFill d i j (u + bytes * 8 * s.ledQ d i) line, { p with filler := p.filler ++ [(q * 4 + j, bytes * 8)] })

/-- R279, R281: CTU row r of column j is complete. -/
def State.closeCtu (s : State) (d i j : Nat) (p : PicSt) : State :=
  let c := p.col j
  let h := s.strHrow d i
  let o := s.asOf p
  let rec_ : LedRow := ⟨c.rowBits, c.q, c.rowFloor, o.floorCtu d i j p.kind c.row, o.allot d i j p.kind c.pb c.row, c.unit, c.nFloor⟩
  let s := if c.rowFloor then s.inc (F.LEDG_STRi_CNT_A_FLOORED_ROWS d i) else s
  let r := c.row + 1
  let p := p.setCol j { c with row := r, unit := 0, rowBits := 0, rowFloor := false, nFloor := 0, rows := c.rows ++ [rec_] }
  if r % h = 0 ∨ r = s.strR d i then
    let (s, p) := s.ledRowEnd d i j p ((r - 1) / h)
    s.setPic d i p
  else
    let q := s.rowQp d i j p
    s.setPic d i (p.setCol j { p.col j with q := q, quant := quantOf (s.strCodec d i) (if c.flooring then qpTop (s.strCodec d i) else q) })

/-- R280: floor of the rest of the coding row, and of the picture, after unit u of CTU row r. -/
def State.rowRest (s : State) (d i j kind r u : Nat) : Nat :=
  let h := s.strHrow d i
  (s.rowUnits d i j r - (u + 1)) * s.unitBits d i j kind + s.floorSpan d i j kind (r + 1) (min ((r / h + 1) * h) (s.strR d i))
def State.picRest (s : State) (d i j kind r u : Nat) : Nat :=
  (s.rowUnits d i j r - (u + 1)) * s.unitBits d i j kind + s.floorSpan d i j kind (r + 1) (s.strR d i)

/-- R280, R281: the ledger decides on a unit: b its coded length, fl its length in floor mode, at most its bound. -/
def State.unitDecide (s : State) (d i j : Nat) (p : PicSt) (b fl : Nat) : State :=
  let c := p.col j
  let h := s.strHrow d i
  let q := c.row / h
  let line := s.handLine d i p q
  let u := s.fillAt d i j line
  let o := s.asOf p
  let bound := o.unitBits d i j p.kind + if c.unit = 0 then o.headBits d i p.kind c.row else 0
  let ok := !c.flooring &&
    decide (c.spent + b + o.picRest d i j p.kind c.row c.unit ≤ c.pb) &&
    decide (s.toBits d i u + b + o.rowRest d i j p.kind c.row c.unit + o.headroom d i j p.kind p.field q ≤ s.share d i j (s.cpb d i))
  let bits := if ok then b else min fl bound
  let first := !ok && !p.cols.any (·.flooring)
  let s := if first then s.inc (F.LEDG_STRi_CNT_A_FLOORED_PICS d i) else s
  let p := p.setCol j { c with unit := c.unit + 1, spent := c.spent + bits, rowBits := c.rowBits + bits, rowFloor := c.rowFloor || !ok, flooring := c.flooring || !ok, nFloor := c.nFloor + bit (!ok), quant := if ok then c.quant else quantOf (s.strCodec d i) (qpTop (s.strCodec d i)) }
  let s := s.ticketWr d p
  let s := (s.setFill d i j (u + bits * s.ledQ d i) line).setPic d i p
  let s := if (p.col j).unit = s.rowUnits d i j c.row then s.closeCtu d i j p else s
  if first then s.showFlooring d i else s

/-- The coding row that column j of a stream codes now: its pipeline runs the stream's row task. -/
def State.codingPic (s : State) (d i j : Nat) : Option PicSt :=
  if ((s.runningOn d (s.strPipe d i j)).filter fun t => (s.task d t).stream == s.strId d i).isNone then none
  else (s.encSt d i).pics.find? fun p => p.coded && !p.lost && decide (j < p.cols.length ∧ (p.col j).row < s.strR d i)

/-- UNIT_CODED (R280). -/
def execUnitCoded (d : Fin 8) (i : Fin 128) (j : Fin 4) (bits : Nat) (floorBits : Nat) (s : State) : Out :=
  .next (match s.codingPic d i j with
    | some p => s.unitDecide d i j p bits floorBits
    | none => s)

/-! ## What a commit shows -/

/-- R272, R276, R277, R285: the values the device computes for a stream. -/
def State.showLedger (s : State) (d i : Nat) : State :=
  if !s.strOn d i then s
  else
    let s := (s.wr (F.LEDG_STRi_CPB_CPB d i) (s.cpb d i)).wr (F.LEDG_STRi_HRD_CPB_SIZE d i) (s.hrdCpb d i)
    let s := (s.wr (F.LEDG_STRi_FPIC_P_BITS d i) (s.fpicAll d i 0)).wr (F.LEDG_STRi_FPIC_I_BITS d i) (s.fpicAll d i 1)
    s.wr (F.LEDG_STRi_GMAX_BITS d i) (s.gmax d i)

/-- R272, R277, R285: the values follow a commit that changes a channel's line time or a slot's channel. -/
def State.showLedgers (s : State) : State := s.forRange s.crowns fun k s => s.forRange 128 fun i s => s.showLedger (k + 1) i

/-- R285: RATE or S_hrd exceeds the signalled level and tier. -/
def State.levelRateBad (s : State) (d i : Nat) : Bool :=
  let codec := s.strCodec d i
  let high := s.on (F.ENC_STRi_CFG_TIER d i)
  match levelOf codec (s.rd (F.ENC_STRi_LEVEL_LEVEL_IDC d i)) with
  | none => false
  | some l =>
    let f := nalFactor codec (s.rd (F.ENC_STRi_CFG_PROFILE d i))
    if codec = 4 then false
    else decide ((if high then l.brHigh else l.br) * f < s.ledRate d i) ||
      (codec != 3 && decide ((if high then l.cpbHigh else l.cpb) * f < s.hrdCpb d i))

/-- R286 to R288: the ledger rules of R141 for stream i of crown d. -/
def ledgRules (o s : State) (d i : Nat) : List Rule :=
  let st := [R.LEDG_STRi_STATUS d i, R.LEDG_STATUS d]
  let c := s.strChan d i
  let us := [R.ENC_STRi_CFG d i, R.ENC_STRi_LEVEL d i, R.ENC_STRi_SIZE d i, R.ENC_STRi_TILES d i, R.LEDG_STRi_MODE d i, R.LEDG_STRi_RATE d i, R.LEDG_STRi_AVG d i, R.LT_CHc_DELAY c, R.LT_CHc_MAP c,
    R.ENC_STRi_GOP d i, R.ENC_STRi_OPT d i, R.ENC_STRi_SEI d i, R.ING_CHc_FMT c, R.CMP_SLOTs_CFG d (i / 8)]
  let en := s.strOn d i
  let both := en && o.strOn d i
  let mode := s.ledMode d i
  let lo := s.rd (F.LEDG_STRi_MODE_QP_MIN d i)
  let hi := s.rd (F.LEDG_STRi_MODE_QP_MAX d i)
  let k := s.rd (F.LEDG_STRi_MODE_QP_CONST d i)
  let t := F.LEDG_STRi_TUNE_TFILL d i
  rulesAt (R.LEDG_STRi_MODE d i) st us
    [(0x4001, mode == 3 || (mode != 0 && s.strCodec d i == 4)),
     (0x4002, decide (hi < lo ∨ qpTop (s.strCodec d i) < hi ∨ k < lo ∨ hi < k)),
     (0x4007, both && o.ledMode d i != mode),
     (0x4008, en && mode == 0 && decide (s.chB c < s.longestGap d i))] ++
  rulesAt (R.LEDG_STRi_RATE d i) st us
    [(0x4003, en && s.ledRate d i == 0),
     (0x4004, en && (List.range (s.strN d i)).any fun j => s.floorBad d i j),
     (0x4005, en && s.levelRateBad d i),
     (0x4007, both && o.reg (R.LEDG_STRi_RATE d i) != s.reg (R.LEDG_STRi_RATE d i))] ++
  rulesAt (R.LEDG_STRi_AVG d i) st us [(0x4003, en && mode == 1 && decide (s.ledAvg d i = 0 ∨ s.ledRate d i < s.ledAvg d i))] ++
  rulesAt (R.LEDG_STRi_TUNE d i) st us
    [(0x4006, decide (s.rd (F.LEDG_STRi_TUNE_I_RATIO d i) < 16 ∨ s.rd t < 10 ∨ 90 < s.rd t ∨ s.rd (F.LEDG_STRi_TUNE_QSTEP d i) = 0))]

end Sys2Proof.Machine
end

