-- ==== Sys2Proof/Machine/Motion.lean ====
section
/-!
DEFINITION. Sys2Proof/Machine/Motion.lean: motion search and block statistics (12_motion_search_and_statistics.md): coarse
search, candidates, refinement, the window fall-back, hints, global motion, scene cuts, records, summaries and histograms.
-/
namespace Sys2Proof.Machine

def pMot (d p : Nat) : Nat := mkPath [d, p, 1]

/-! ## Geometry -/

/-- Blocks across and down a picture (R244). -/
def State.blocksX (s : State) (d i : Nat) : Nat := ceilDiv (s.strW d i) 16
def State.blocksY (s : State) (d i : Nat) : Nat := ceilDiv (s.picH d i) 16

/-- The tile column that holds block column bx, and its first block column and the one after its last. -/
def State.tileOf (s : State) (d i bx : Nat) : Nat := (((s.tileEdges d i).drop 1).filter fun e => decide (e ≤ bx * 16)).length
def State.tileFrom (s : State) (d i j : Nat) : Nat := ceilDiv ((s.tileEdges d i).getD j 0) 16
def State.tileTo (s : State) (d i j : Nat) : Nat := ceilDiv ((s.tileEdges d i).getD (j + 1) 0) 16

/-- R264: blocks of CTU row r in tile column j, and the place of a block in the run. -/
def State.runRows (s : State) (d i r : Nat) : Nat := min (s.strCtu d i / 16) (s.blocksY d i - r * (s.strCtu d i / 16))
def State.runBlocks (s : State) (d i j r : Nat) : Nat := (s.tileTo d i j - s.tileFrom d i j) * s.runRows d i r
def State.runPlace (s : State) (d i bx by_ : Nat) : Nat :=
  let n := s.strCtu d i / 16
  let j := s.tileOf d i bx
  let x0 := s.tileFrom d i j + (bx - s.tileFrom d i j) / n * n
  let w := min n (s.tileTo d i j - x0)
  (x0 - s.tileFrom d i j) * s.runRows d i (by_ / n) + by_ % n * w + (bx - x0)

def blkKey (bx by_ : Nat) : Nat := by_ * 512 + bx
def BlkRec.none_ : BlkRec := ⟨0, 0, 0, 0, 0, 0, 0, 8⟩
def MotPic.blk (m : MotPic) (k : Nat) : Option BlkRec := (m.blocks.find? fun e => e.1 == k).map (·.2)

/-! ## The coarse picture -/

/-- The size of a stream's coarse picture. -/
def State.coarseW (s : State) (d i : Nat) : Nat := ceilDiv (s.strW d i) 4
def State.coarseH (s : State) (d i : Nat) : Nat := ceilDiv (s.picH d i) 4

/-- The coarse picture kept with a pool buffer. -/
def State.coarsePic (s : State) (d b : Nat) : List (Nat × Nat) := mapGet (fun _ => []) s.pool.coarse (d * 2048 + b)

/-- R246: the front end reads coding row q of tile column j: its coarse rows join the coarse picture of the picture's buffer. -/
def State.coarseRows (s : State) (d i j : Nat) (p : PicSt) (q : Nat) : State :=
  match s.ownBuf d p with
  | none => s.ticketWr d p
  | some b =>
    let x0 := (s.tileEdges d i).getD j 0 / 4
    let x1 := ceilDiv ((s.tileEdges d i).getD (j + 1) 0) 4
    let ys := (List.range (s.coarseH d i)).filter fun y => decide (q * s.rowH d i ≤ 4 * y ∧ 4 * y < (q + 1) * s.rowH d i)
    let new := ys.flatMap fun y => (List.range (x1 - x0)).map fun n => (y * 4096 + x0 + n, s.coarseVal d i p (x0 + n) y)
    let old := s.coarsePic d b
    let pic := new.foldl (fun m (k, v) => mapSet (fun _ => 256) m k v) old
    { s with pool := { s.pool with coarse := mapSet (fun _ => []) s.pool.coarse (d * 2048 + b) pic } }

/-- R247: the positions of the samples of an area that lie in the picture. -/
def State.areaSamples (s : State) (d i ax ay : Nat) : List (Nat × Nat) :=
  (List.range 16).flatMap fun b => (List.range 16).filterMap fun a =>
    if ax * 16 + a < s.coarseW d i ∧ ay * 16 + b < s.coarseH d i then some (ax * 16 + a, ay * 16 + b) else none

/-- A sample of a coarse picture; 256 where it does not exist yet. -/
def coarseAt (m : List (Nat × Nat)) (x y : Nat) : Nat := mapGet (fun _ => 256) m (y * 4096 + x)

/-- R247: the coarse rows of an area exist. -/
def State.coarseKnown (s : State) (d i ax ay b : Nat) : Bool :=
  (s.areaSamples d i ax ay).all fun (x, y) => decide (coarseAt (s.coarsePic d b) x y < 256)

/-- R247: the position of entry n of a coarse search, in raster order. -/
def coarsePos (n : Nat) : Int × Int := ((n % 65 : Nat) - 32, (n / 65 : Nat) - 16)

/-- The first least entry of a list of (position, cost). -/
def firstMin : List ((Int × Int) × Nat) → Option ((Int × Int) × Nat)
  | [] => none
  | x :: xs => match firstMin xs with | some y => if y.2 < x.2 then some y else some x | none => some x

/-- R247: the 65 x 33 SADs of an area over the coarse picture of reference 0, whose samples beyond the picture are edge-replicated
(R254, notes/assumptions/117.md). -/
def State.coarseSads (s : State) (d i ax ay b ref : Nat) : List Nat :=
  let cur := s.coarsePic d b
  let old := s.coarsePic d ref
  let px := s.areaSamples d i ax ay
  (List.range 2145).map fun n =>
    let v := coarsePos n
    (px.map fun (x, y) =>
      let o := coarseAt old (min (s.coarseW d i - 1) ((x : Int) + v.1).toNat) (min (s.coarseH d i - 1) ((y : Int) + v.2).toNat)
      ((coarseAt cur x y : Int) - o).natAbs).sum

/-- R247: the coarse results of an area from its 65 x 33 SADs. -/
def coarseOf (sads : List Nat) : AreaRes :=
  let l := (sads.take 2145).zipIdx.map fun (v, n) => (coarsePos n, v)
  match firstMin l with
  | none => ⟨0, 0, 0, 0, 0⟩
  | some ((x, y), v) =>
    let far := l.filter fun ((a, b), _) => decide (2 ≤ (a - x).natAbs ∨ 2 ≤ (b - y).natAbs)
    match firstMin far with
    | some ((a, b), _) => ⟨x, y, a, b, v⟩
    | none => ⟨x, y, x, y, v⟩

def areaKey (ax ay : Nat) : Nat := ay * 128 + ax
def MotPic.area (m : MotPic) (ax ay : Nat) : Option AreaRes := mapGet (fun _ => none) m.areas (areaKey ax ay)
def State.areasX (s : State) (d i : Nat) : Nat := ceilDiv (s.strW d i) 64
def State.areasY (s : State) (d i : Nat) : Nat := ceilDiv (s.picH d i) 64

/-- The coding row that holds line y. -/
def State.rowOfLine (s : State) (d i y : Nat) : Nat := y / max 1 (s.rowH d i)

/-- MES_STRi_STATUS follows the picture in flight. -/
def State.showTriggers (s : State) (d i : Nat) (m : MotPic) : State :=
  (s.wr (F.MES_STRi_STATUS_REFRESH_FB d i) (bit m.refreshFb)).wr (F.MES_STRi_STATUS_SCENE d i) (bit m.scene.isSome)

/-- R260: a row of areas is complete: above the threshold, a scene cut is flagged from its coding row. -/
def State.sceneCut (s : State) (d i : Nat) (p : PicSt) (ay : Nat) : State :=
  let m := p.mot
  let rs := (List.range (s.areasX d i)).map fun ax => m.area ax ay
  if !(s.asOf p).on (F.MES_STRi_CFG_SCD d i) ∨ rs.any (·.isNone) ∨ m.scene.isSome then s
  else
    let sum := (rs.map fun r => match r with | some r => r.sad | none => 0).sum
    let samples := ceilDiv (s.strW d i) 4 * min 16 (ceilDiv (s.picH d i - ay * 64) 4)
    if (s.asOf p).rd (F.MES_STRi_SCD_SC_TH d i) * samples < sum then
      let m := { m with scene := some (s.rowOfLine d i (ay * 64)) }
      ((s.setPic d i { p with mot := m }).inc (F.MES_STRi_CNT_D_SCENE_CUTS d i)).showTriggers d i m
    else s

/-- R247: the oldest picture in flight that lacks an area's coarse search. -/
def State.coarseNext (s : State) (d i ax ay : Nat) : Option PicSt :=
  (s.encSt d i).pics.find? fun p => p.coded && !p.lost && decide (0 < p.nref) && (p.mot.area ax ay).isNone

/-- R246, R247: an area's coarse search, on the oldest picture in flight that lacks it, once its coarse rows exist. -/
def State.coarse (s : State) (d i ax ay : Nat) : State :=
  if s.areasX d i ≤ ax ∨ s.areasY d i ≤ ay then s
  else match s.coarseNext d i ax ay with
    | some p =>
      match s.ownBuf d p, p.refs.head? with
      | some b, some (r, _) =>
        if !s.coarseKnown d i ax ay b then s
        else
          let m := { p.mot with areas := mapSet (fun _ => none) p.mot.areas (areaKey ax ay) (some (coarseOf (s.coarseSads d i ax ay b r))) }
          let p := { p with mot := m }
          (s.setPic d i p).sceneCut d i p ay
      | _, _ => s
    | none => s

/-- MOTION_AREA_COARSE (R247): of picture `pic`, which is the next to search the area. -/
def execMotionAreaCoarse (d : Fin 8) (i : Fin 128) (ax : Fin 128) (ay : Fin 128) (pic : Nat) (s : State) : Out :=
  .next (s.when ((s.coarseNext d i ax ay).any (·.num == pic)) fun s => s.coarse d i ax ay)

/-! ## Candidates -/

/-- Rounding of v / u to a whole number, ties away from zero (R249, R262). -/
def roundAway (v : Int) (u : Nat) : Int :=
  let m := (2 * v.natAbs + u) / (2 * u)
  if v < 0 then -(m : Int) else m

/-- The middle of three. -/
def median3 (a b c : Int) : Int := max (min a b) (min (max a b) c)

/-- R249: bits(d) for one component. -/
def mvBits (d : Int) : Nat := 2 * Nat.log2 (d.natAbs + 1) + 1

/-- A vector in the codec's unit, with its reference. -/
structure Vec where
  x : Int
  y : Int
  ref : Nat
  deriving DecidableEq, Repr

/-- The motion field of the slot before a picture (R248). -/
def State.prevField (s : State) (d i : Nat) (p : PicSt) : MotPic :=
  match (s.encSt d i).pics.find? fun q => q.num + 1 == p.num with
  | some q => q.mot
  | none => (s.encSt d i).prev

/-- R248: the final vector of a block of a field in the same tile column. -/
def State.vecAt (s : State) (d i j : Nat) (m : MotPic) (bx by_ : Int) : Option Vec :=
  if bx < s.tileFrom d i j ∨ (s.tileTo d i j : Int) ≤ bx ∨ by_ < 0 ∨ (s.blocksY d i : Int) ≤ by_ then none
  else (m.blk (blkKey bx.toNat by_.toNat)).map fun b => ⟨b.mx, b.my, b.ref⟩

/-- R257: a signed 16-bit pair, in 1/4 pel, and the host's region that covers a block. -/
def hintVec (w : Nat) (ref : Nat) (u : Nat) : Vec := ⟨signed 16 (w % 65536) * u / 4, signed 16 (w / 65536) * u / 4, ref⟩
def hintRegion (ws : List Word) (bx by_ : Nat) : Option Nat :=
  ((List.range (min 2 (fieldAt ws 7 2 2))).find? fun k =>
    let o := 9 + 3 * k
    decide (fieldAt ws o 0 9 ≤ bx ∧ bx ≤ fieldAt ws (o + 1) 0 9 ∧ fieldAt ws o 16 9 ≤ by_ ∧ by_ ≤ fieldAt ws (o + 1) 16 9)).map fun k => 11 + 3 * k

/-- R248: the mean vector of the previous field over the co-located area, truncated to 1/4 pel. -/
def State.areaMean (s : State) (d i j : Nat) (m : MotPic) (bx by_ : Nat) (u : Nat) : Option Vec :=
  let vs := (List.range 16).filterMap fun k => s.vecAt d i j m (bx / 4 * 4 + k % 4 : Nat) (by_ / 4 * 4 + k / 4 : Nat)
  if vs = [] then none
  else
    let mean := fun (f : Vec → Int) => ((vs.map f).sum * 4).tdiv (vs.length * u) * u / 4
    some ⟨mean (·.x), mean (·.y), 0⟩

/-- R248: median of the left, above and above-right vectors, an unavailable one as zero. -/
def medianVec (a b c : Option Vec) : Vec :=
  let g := fun (f : Vec → Int) (v : Option Vec) => match v with | some v => f v | none => 0
  ⟨median3 (g (·.x) a) (g (·.x) b) (g (·.x) c), median3 (g (·.y) a) (g (·.y) b) (g (·.y) c), 0⟩

/-- R248: the candidates of a block, by index, in the codec's unit. -/
def State.candidatesOf (s : State) (d i : Nat) (p : PicSt) (bx by_ : Nat) : List (Option Vec) :=
  let u := mvUnit (s.strCodec d i)
  let j := s.tileOf d i bx
  let at_ := fun (m : MotPic) (dx dy : Int) => s.vecAt d i j m (bx + dx) (by_ + dy)
  let prev := s.prevField d i p
  let has := prev.blocks != []
  let area := p.mot.area (bx / 4) (by_ / 4)
  let ws := p.mot.hint
  let ref := fieldAt ws 7 4 1
  let reg := if ws = [] then none else hintRegion ws bx by_
  let glob := if ws ≠ [] ∧ fieldAt ws 7 1 1 = 1 then some (hintVec (wordAt ws 8) ref u) else none
  let whole := fun (x y : Int) => (⟨x * 4 * u, y * 4 * u, 0⟩ : Vec)
  let nref := (s.asOf p).on (F.ENC_STRi_GOP_NREF d i)
  [some ⟨0, 0, 0⟩, at_ p.mot (-1) 0, at_ p.mot 0 (-1), at_ p.mot 1 (-1), at_ prev 0 0,
   if has then some ⟨prev.gmx * u / 4, prev.gmy * u / 4, 0⟩ else none,
   area.map fun a => whole a.bx a.by_,
   match reg with | some w => some (hintVec (wordAt ws w) ref u) | none => glob,
   at_ p.mot (-1) (-1), at_ prev 0 1, at_ prev 1 0, area.map fun a => whole a.sx a.sy,
   if reg.isSome then glob else none, s.areaMean d i j prev bx by_ u,
   some (medianVec (at_ p.mot (-1) 0) (at_ p.mot 0 (-1)) (at_ p.mot 1 (-1))),
   if nref then some ⟨0, 0, 1⟩ else none]

/-- R249: what the search of one block needs: SAD, SATD and subsampled SAD (R245, R256) at a vector, lambda, predictor, unit. -/
structure Search where
  sad : Vec → Nat
  satd : Vec → Nat
  sub : Vec → Nat
  lam : Nat
  mvp : Vec
  u : Nat

/-- R245, R251, R256: the costs of block (bx, by) of a picture against its references. -/
def State.searchOf (s : State) (d i : Nat) (p : PicSt) (bx by_ lam : Nat) (mvp : Vec) : Search :=
  let bd := s.strDepth d i
  let codec := s.strCodec d i
  let cur := blockPos.map fun (a, b) => ((a, b), (s.strLuma d i p (bx * 16 + a) (by_ * 16 + b) : Int))
  let even := cur.filter fun ((a, b), _) => a % 2 == 0 && b % 2 == 0
  let diffs := fun (l : List ((Nat × Nat) × Int)) (v : Vec) =>
    let g := s.refLuma d i (p.refs.getD v.ref (0, 0))
    l.map fun ((a, b), c) => diff8 bd c (interPx codec bd g v.x v.y (bx * 16 + a : Nat) (by_ * 16 + b : Nat))
  ⟨fun v => sadOf (diffs cur v), fun v => satdOf (diffs cur v), fun v => sadOf (diffs even v), lam, mvp, mvUnit codec⟩

def Search.rate (q : Search) (v : Vec) : Nat := q.lam * (mvBits (v.x - q.mvp.x) + mvBits (v.y - q.mvp.y)) / 16
/-- R249: J. -/
def Search.j (q : Search) (v : Vec) : Nat := q.sad v + q.rate v
/-- R251: the cost of a fractional position. -/
def Search.jf (q : Search) (v : Vec) : Nat := q.satd v + q.rate v

/-- Test points in order; ties keep the earlier one. -/
def bestOf (f : Vec → Nat) (start : Vec) (vs : List Vec) : Vec := vs.foldl (fun b v => if f v < f b then v else b) start

def Vec.off (v : Vec) (k : Nat) (o : Int × Int) : Vec := ⟨v.x + o.1 * k, v.y + o.2 * k, v.ref⟩

/-- R250: the small stage, repeated. -/
def Search.small (q : Search) (ok : Vec → Bool) : Nat → Vec → Vec
  | 0, b => b
  | n + 1, b =>
    let c := bestOf q.j b (([(1, 0), (-1, 0), (0, 1), (0, -1)].map (b.off q.u)).filter ok)
    if c = b then b else q.small ok n c

/-- R250: integer refinement within 8 pels of the start. -/
def Search.refine (q : Search) (st : Vec) : Vec :=
  let ok := fun (v : Vec) => decide ((v.x - st.x).natAbs ≤ 8 * q.u ∧ (v.y - st.y).natAbs ≤ 8 * q.u)
  let go := fun (b : Vec) (os : List (Int × Int)) => bestOf q.j b ((os.map (b.off q.u)).filter ok)
  let b := go st [(4, 0), (-4, 0), (0, 4), (0, -4), (2, 2), (2, -2), (-2, 2), (-2, -2)]
  let b := go b [(2, 0), (-2, 0), (0, 2), (0, -2)]
  q.small ok 8 b

/-- R251: the steps of a codec at a preset, in the codec's unit. -/
def fracSteps (codec : Nat) (fast : Bool) : List Nat :=
  match codec with
  | 1 => if fast then [8, 4] else [8, 4, 2, 1]
  | 3 => if fast then [4, 2] else [4, 2, 1]
  | _ => [2, 1]

def neighbours : List (Int × Int) := [(-1, -1), (0, -1), (1, -1), (-1, 0), (1, 0), (-1, 1), (0, 1), (1, 1)]

/-- R251: fractional refinement. -/
def Search.frac (q : Search) (steps : List Nat) (v : Vec) : Vec :=
  steps.foldl (fun b k => bestOf q.jf b (neighbours.map (b.off k))) v

/-- R249: the candidates rounded to whole pels, without repeats, each with its index. -/
def dedup (u : Nat) (nref : Nat) (cs : List (Option Vec)) : List (Nat × Vec) :=
  (cs.zipIdx).foldl (fun acc (c, k) => match c with
    | some v =>
      let w : Vec := ⟨roundAway v.x u * u, roundAway v.y u * u, v.ref⟩
      if nref ≤ v.ref ∨ acc.any (fun e => e.2 == w) then acc else acc ++ [(k, w)]
    | none => acc) []

/-- The candidate of lowest J; the lower index wins. -/
def Search.pick (q : Search) : List (Nat × Vec) → Option (Nat × Vec)
  | [] => none
  | x :: xs => match q.pick xs with | some y => if q.j y.2 < q.j x.2 then some y else some x | none => some x

/-- R254, R256: the whole-pel positions of the fall-back with their costs, reference by reference in raster order: every position at a
4-pel spacing at which the block at (px, py) lies inside the window whose corner is (wx, wy). -/
def Search.fallPoints (q : Search) (nref : Nat) (wx wy px py : Int) : List (Vec × Nat) :=
  (List.range nref).flatMap fun r => (List.range 61).flatMap fun b => (List.range 125).map fun a =>
    let v : Vec := ⟨wx + (4 * a : Nat) - px, wy + (4 * b : Nat) - py, r⟩
    (v, q.sub ⟨v.x * q.u, v.y * q.u, r⟩)

/-- The first least element, and the first least of the others. -/
def twoBest (l : List (Vec × Nat)) : List Vec :=
  let m := fun (l : List (Vec × Nat)) => l.foldl (fun (a : Option (Vec × Nat)) e => match a with | some b => if e.2 < b.2 then some e else some b | none => some e) none
  match m l with
  | some a => a.1 :: (match m (l.filter fun e => e.1 != a.1) with | some b => [b.1] | none => [])
  | none => []

/-- R256: the best whole-pel result of the fall-back. -/
def Search.fallBack (q : Search) (nref : Nat) (wx wy px py : Int) : Option Vec :=
  let rs := (twoBest (q.fallPoints nref wx wy px py)).map fun v => q.refine ⟨v.x * q.u, v.y * q.u, v.ref⟩
  match rs with
  | a :: b :: _ => some (if q.j b < q.j a then b else a)
  | [a] => some a
  | [] => none

/-! ## The fall-back's triggers and quota -/

/-- R255: the place of an area among the areas of its coding row and tile column, in the order of the wavefront: coding unit by coding unit,
in raster order within each. -/
def State.areaPlace (s : State) (d i j ax ay : Nat) : Nat :=
  let n := max 1 (s.strCtu d i / 64)
  let x := ax - s.tileFrom d i j / 4
  let across := ceilDiv (s.tileW d i j) 64
  let r := ay / n % s.strHrow d i
  let high := min n (s.areasY d i - ay / n * n)
  r * across * n + x / n * n * high + ay % n * min n (across - x / n * n) + x % n

/-! ## Records -/

/-- R263: CPLX. -/
def cplxOf (satd intra : Nat) (noref : Bool) : Nat :=
  let v := 1 + if noref ∨ intra < satd then intra else satd
  let e := Nat.log2 v
  min 255 (16 * e + (v - 2 ^ e) * 16 / 2 ^ e)

/-- A signed value held in 16 bits. -/
def s16 (v : Int) : Nat := wrap 16 (clampS 16 v)

/-- R262: the words of a block record. -/
def BlkRec.words (b : BlkRec) (u bx by_ : Nat) : List Word :=
  [BitVec.ofNat 32 (s16 (roundAway (b.mx * 4) u) + s16 (roundAway (b.my * 4) u) * 2 ^ 16),
   BitVec.ofNat 32 (b.sad + b.satd * 2 ^ 16), BitVec.ofNat 32 (b.intra + b.cplx * 2 ^ 16 + b.flags * 2 ^ 24),
   BitVec.ofNat 32 (bx % 512 + by_ % 512 * 2 ^ 9 + b.ref * 2 ^ 18)]

/-- R261: one unit at a reserved index of a STAT ring. -/
def State.unitAt (s : State) (r idx : Nat) (ws : List Word) : State :=
  s.entryWrite r (idx % 2 ^ 32) (withGen (wordsBytes ws) 15 (s.gen r idx))

def State.statOn (s : State) (d i : Nat) : Bool := s.on (F.MES_STRi_CFG_STAT_EN d i)
def State.statRing (s : State) (d i : Nat) : Nat := s.rd (F.MES_STRi_CFG_RING d i)
def State.statBlocks (s : State) (d i : Nat) : Bool := decide (2 ≤ s.rd (F.MES_STRi_CFG_DETAIL d i))
def State.statHist (s : State) (d i : Nat) : Bool := let v := s.rd (F.MES_STRi_CFG_DETAIL d i); v == 1 || v == 2

/-- R264: a run or histogram finds no ACTIVE STAT ring. -/
def State.noRing (s : State) (d i r n : Nat) : State :=
  let s := s.inc (F.MES_STRi_CNT_D_NORING d i)
  if s.ringKind r = 2 then s.statLose r (s.strId d i) 2 n else s

/-- R264: reserve the run of CTU row r of column j: its place on the ring, or none. -/
def State.reserveRun (s : State) (d i : Nat) (num j r : Nat) : State :=
  match (s.encSt d i).pics.find? fun p => p.num == num with
    | none => s
    | some p =>
      let o := s.asOf p
      let ring := o.statRing d i
      let n := 4 + if o.statBlocks d i then s.runBlocks d i j r else 0
      let lose := fun (s : State) => s.setPic d i { p with mot := { p.mot with lost := p.mot.lost ++ [r * 4 + j] } }
      if !o.statOn d i then s
      else if !s.activeRing ring 2 then lose (s.noRing d i ring n)
      else if s.noRoom ring (n + if (s.ring ring).entryLost = 0 then 0 else 1) then lose (s.statLose ring (s.strId d i) 0 n)
      else
        let s := if (s.ring ring).entryLost = 0 then s else s.statGap ring
        let h := s.rd (F.RING_r_HEAD_HEAD ring)
        let s := s.wr (F.RING_r_HEAD_HEAD ring) (h + n)
        s.setPic d i { p with mot := { p.mot with runs := mapSet (fun _ => none) p.mot.runs (r * 4 + j) (some (ring, h)) } }

/-- R259: the middle element of a list in order. -/
def middle (l : List Int) : Int := (l.mergeSort (fun a b => decide (a ≤ b))).getD (l.length / 2) 0

/-- R259: the global motion of a picture, in 1/4 pel. -/
def globalMotion (u total : Nat) (m : MotPic) : Int × Int :=
  let bs := (m.blocks.map (·.2)).filter fun b => b.ref == 0 && b.flags / 4 % 2 == 0 && b.flags / 8 % 2 == 0
  if bs.length * 8 < total then (0, 0)
  else (4 * middle (bs.map fun b => roundAway b.mx u), 4 * middle (bs.map fun b => roundAway b.my u))

/-- R254: the corner of the coding unit that holds a block, in pixels. -/
def State.unitCorner (s : State) (d i j bx by_ : Nat) : Nat × Nat :=
  let n := max 1 (s.strCtu d i / 16)
  ((bx - s.tileFrom d i j) / n * n * 16 + s.tileFrom d i j * 16, by_ / n * n * 16)

/-- R254: the strips that the window loads as the wavefront reaches a coding unit: the whole window at the start of a coding row, one strip
at each unit after it, for each of up to two references. -/
def State.stripsFor (s : State) (d i : Nat) (p : PicSt) (j : Nat) (u : Nat × Nat) : Nat :=
  match mapGet (fun _ => (none : Option (Nat × Nat))) p.mot.win j with
  | some v => if v = u then 0 else min 2 p.nref * if s.rowOfLine d i v.2 = s.rowOfLine d i u.2 then 1 else 512 / s.strCtu d i
  | none => min 2 p.nref * (512 / s.strCtu d i)

/-- R254: the window of column j slides to a block's coding unit. -/
def State.windowLoad (s : State) (d i : Nat) (p : PicSt) (j bx by_ : Nat) : State × PicSt :=
  let u := s.unitCorner d i j bx by_
  let f := F.MES_PIPEp_WIN_LOADS d (s.strPipe d i j)
  (s.wr f (s.rd f + s.stripsFor d i p j u), { p with mot := { p.mot with win := mapSet (fun _ => none) p.mot.win j (some u) } })

/-- R249, R250: the decision of a block's area is counted when it is first made. -/
def State.countArea (s : State) (d i j : Nat) (known dec : Option Bool) : State :=
  match known, dec with
  | none, some true => (s.incWrap (F.MES_PIPEp_FB_AREAS d (s.strPipe d i j))).inc (F.MES_STRi_CNT_A_FB_AREAS d i)
  | none, some false => s.inc (F.MES_STRi_CNT_A_FB_SKIPPED d i)
  | _, _ => s

/-- A picture with nothing to refer to: every block is intra (R245). -/
def PicSt.noRef (p : PicSt) (codec : Nat) : Bool := decide (p.nref = 0) || codec == 4

/-- R244 to R262: the result of one block of the picture that its column codes, given the decision of its area. -/
def State.blockRec (s : State) (d i : Nat) (p : PicSt) (j bx by_ : Nat) (dec : Option Bool) : BlkRec :=
  let s := s.asOf p
  let codec := s.strCodec d i
  let u := mvUnit codec
  let fast := s.on (F.ENC_STRi_CFG_PRESET d i)
  let intra := s.intraCost d i p ((s.tileEdges d i).getD j 0) ((s.tileEdges d i).getD (j + 1) 0) bx by_
  let edge := decide (s.strW d i < bx * 16 + 16 ∨ s.picH d i < by_ * 16 + 16)
  if p.noRef codec then ⟨0, 0, 0, 0, 0, intra, cplxOf 0 intra true, 8 + 32 + bit edge * 64⟩
  else
    let cs := s.candidatesOf d i p bx by_
    let q := s.searchOf d i p bx by_ (s.rowLambda d i (p.col j)) (medianVec (cs.getD 1 none) (cs.getD 2 none) (cs.getD 3 none))
    let taken := dedup u p.nref (if fast then cs.take 8 else cs)
    let (idx, start) := (q.pick taken).getD (0, ⟨0, 0, 0⟩)
    let best := q.refine start
    let lowc := s.rd (F.MES_STRi_CONF_CONF_SAD d i) != 0 && decide (s.rd (F.MES_STRi_CONF_CONF_SAD d i) * 256 < q.sad best)
    let c := s.strCtu d i
    let (cx, cy) : Int × Int := match mapGet (fun _ => (none : Option (Nat × Nat))) p.mot.win j with | some (x, y) => ((x : Int), (y : Int)) | none => (0, 0)
    let alt := if dec = some true then q.fallBack p.nref (cx + (c / 2 : Nat) - 256) (cy + (c / 2 : Nat) - 128) (bx * 16 : Nat) (by_ * 16 : Nat) else none
    let fine := q.frac (fracSteps codec fast)
    let own := fine best
    let (v, isFb) := match alt with | some w => if q.j (fine w) < q.j own then (fine w, true) else (own, false) | none => (own, false)
    let sad := q.sad v
    let satd := q.satd v
    let static := v.x == 0 && v.y == 0 && decide (sad ≤ s.rd (F.MES_STRi_SCD_STATIC_TH d i) * 256)
    ⟨v.x, v.y, v.ref, sad, satd, intra, cplxOf satd intra false,
      bit isFb + bit (idx == 7 || idx == 12) * 2 + bit lowc * 4 + bit (decide (intra < satd)) * 16 + bit static * 32 + bit edge * 64 + bit p.alias0 * 128⟩

/-- R252: low-confidence blocks of an area, by a search of its blocks without the fall-back (notes/assumptions/120.md). -/
def State.areaLow (s : State) (d i : Nat) (p : PicSt) (j ax ay : Nat) : Nat :=
  let one := fun (a : PicSt × Nat) (k : Nat) =>
    let bx := ax * 4 + k % 4
    let by_ := ay * 4 + k / 4
    if s.blocksX d i ≤ bx ∨ s.blocksY d i ≤ by_ ∨ (a.1.mot.blk (blkKey bx by_)).isSome then a
    else
      let r := s.blockRec d i a.1 j bx by_ none
      ({ a.1 with mot := { a.1.mot with blocks := a.1.mot.blocks ++ [(blkKey bx by_, r)] } }, a.2 + r.flags / 4 % 2)
  ((List.range 16).foldl one (p, 0)).2

/-- R252 to R255: whether an area runs the fall-back, decided once: none asks, some decision otherwise. -/
def State.fallDecide (s : State) (d i : Nat) (p : PicSt) (j ax ay : Nat) : Option Bool :=
  let fast := (s.asOf p).on (F.ENC_STRi_CFG_PRESET d i)
  let m := (s.asOf p).rd (F.MES_STRi_CONF_FB_MIN d i)
  let row := s.rowOfLine d i (ay * 64)
  let conf := !fast && decide (1 ≤ m ∧ m ≤ 16 ∧ m ≤ s.areaLow d i p j ax ay)
  let scene := match p.mot.scene with | some r => decide (r ≤ row) | none => false
  if conf || p.mot.refreshFb || scene then
    let ran := (p.mot.fb.filter fun (k, b) => b == some true && s.rowOfLine d i (k / 128 * 64) == row && s.tileOf d i (k % 128 * 4) == j).length
    some (decide (ran < ceilDiv (s.areaPlace d i j ax ay + 1) (if fast then 8 else 4)))
  else none

/-- The blocks of CTU row r of column j. -/
def State.rowBlks (s : State) (d i : Nat) (p : PicSt) (j r : Nat) : List (Nat × BlkRec) :=
  let n := s.strCtu d i / 16
  p.mot.blocks.filter fun (k, _) => k / 512 / n == r && s.tileOf d i (k % 512) == j

/-- A run of a picture is written (`gone` false), or discarded or aborted. -/
def State.dropRun (s : State) (d i num key : Nat) (gone : Bool) : State :=
  match (s.encSt d i).pics.find? fun p => p.num == num with
  | some p => s.setPic d i { p with mot := { p.mot with runs := mapSet (fun _ => none) p.mot.runs key none, lost := if gone then p.mot.lost ++ [key] else p.mot.lost } }
  | none => s

/-- R264, R267: the units of a run that are still to be written. -/
def State.runLeft (s : State) (d i : Nat) (p : PicSt) (j r : Nat) : Nat :=
  4 + if (s.asOf p).statBlocks d i then s.runBlocks d i j r - (s.rowBlks d i p j r).length else 0

/-- R264: the rest of a run finds its ring no longer an ACTIVE STAT ring: it is discarded, and counted once. -/
def State.stopRun (s : State) (d i : Nat) (p : PicSt) (j r ring : Nat) : State :=
  (s.noRing d i ring (s.runLeft d i p j r)).dropRun d i p.num (r * 4 + j) true

/-- R263, R264: the block's statistics unit goes to the run that was reserved for its row; `p` is the picture before the block. -/
def State.blockUnit (s : State) (d i : Nat) (p : PicSt) (j bx by_ : Nat) (rec_ : BlkRec) : State :=
  let r := by_ * 16 / s.strCtu d i
  match mapGet (fun _ => none) p.mot.runs (r * 4 + j) with
  | some (ring, base) =>
    if !s.activeRing ring 2 then s.stopRun d i p j r ring
    else if (s.asOf p).statBlocks d i then s.unitAt ring (base + s.runPlace d i bx by_) (rec_.words (mvUnit (s.strCodec d i)) bx by_)
    else s
  | none => s

/-- R244 to R263: the search of one block of the picture that its column codes. -/
def State.searchBlock (s : State) (d i : Nat) (p : PicSt) (j bx by_ : Nat) : State :=
  let u := mvUnit (s.strCodec d i)
  -- the fall-back decision of the area
  let ak := areaKey (bx / 4) (by_ / 4)
  let known := mapGet (fun _ => (none : Option Bool)) p.mot.fb ak
  let dec := if p.noRef (s.strCodec d i) then none else known.orElse fun _ => s.fallDecide d i p j (bx / 4) (by_ / 4)
  let (s, p) := (s.countArea d i j known dec).windowLoad d i p j bx by_
  let s := (s.ticketRd d p).ticketWr d p
  let rec_ := s.blockRec d i p j bx by_ dec
  let m := { p.mot with blocks := p.mot.blocks ++ [(blkKey bx by_, rec_)], fb := mapSet (fun _ => none) p.mot.fb ak dec }
  let total := s.blocksX d i * s.blocksY d i
  let last := m.blocks.length == total
  let g := if last then globalMotion u total m else (m.gmx, m.gmy)
  let s := s.setPic d i { p with mot := { m with gmx := g.1, gmy := g.2 } }
  let s := if last then (s.wr (F.MES_STRi_GMV_GMVX d i) (s16 g.1)).wr (F.MES_STRi_GMV_GMVY d i) (s16 g.2) else s
  s.blockUnit d i p j bx by_ rec_

/-- MOTION_BLOCK_DONE (R251): of the block's own tile column, which codes picture `pic`; the coarse search of the block's area comes
first (R247). -/
def execMotionBlockDone (d : Fin 8) (i : Fin 128) (bx : Fin 512) (by_ : Fin 512) (tile : Fin 4) (pic : Nat) (s : State) : Out :=
  .next (if s.blocksX d i ≤ bx ∨ s.blocksY d i ≤ by_ ∨ s.tileOf d i bx ≠ tile then s
    else
      let s := s.coarse d i (bx / 4) (by_ / 4)
      match s.codingPic d i tile with
      | some p => if p.num ≠ pic ∨ (p.mot.blk (blkKey bx by_)).isSome then s else s.searchBlock d i p tile bx by_
      | none => s)

/-! ## Summaries and histograms -/

/-- R265: the flags 16 to 23 of the summary of CTU row r of column j; an earlier run is one of an earlier row, or of the row's columns to
the left. -/
def State.rowFlags (s : State) (d i : Nat) (p : PicSt) (j r : Nat) (floored : Bool) : Nat :=
  let scene := match p.mot.scene with | some q => decide (q * s.strHrow d i ≤ r) | none => false
  bit floored + bit (s.slotCropped d (i / 8)) * 2 + bit p.mot.refreshFb * 4 + bit scene * 8 + bit (s.refreshKind d i p.kind) * 16 +
    bit (p.mot.hint != []) * 32 + bit (decide (p.nref = 0) || s.strCodec d i == 4) * 64 + bit (p.mot.lost.any (· < r * 4 + j)) * 128

/-- R265: whether a block ran the fall-back: its area did. -/
def MotPic.ranFb (m : MotPic) (k : Nat) : Bool := mapGet (fun _ => (none : Option Bool)) m.fb (areaKey (k % 512 / 4) (k / 512 / 4)) == some true

/-- R265: the units of a row summary. -/
def State.rowSummary (s : State) (d i : Nat) (p : PicSt) (j r : Nat) (margin : Int) : List (List Word) :=
  let u := mvUnit (s.strCodec d i)
  let codec := s.strCodec d i
  let ks := s.rowBlks d i p j r
  let bs := ks.map (·.2)
  let led := (p.col j).rows.getD r ⟨0, 0, false, 0, 0, 0, 0⟩
  let w := fun (n : Nat) => (BitVec.ofNat 32 n : Word)
  let sum := fun (f : BlkRec → Nat) => (bs.map f).sum
  let mv := bs.filter fun b => b.flags / 8 % 2 == 0
  let cont := 2 * 2 ^ 20
  [[w p.num, w (r % 512 + j * 2 ^ 9 + s.ctuLines d i r % 256 * 2 ^ 11),
    w ((if (s.asOf p).statBlocks d i then bs.length else 0) % 65536 + s.rowFlags d i p j r led.floored * 2 ^ 16), w (s.strId d i + 2 ^ 20)],
   [w (sum (·.sad)), w (sum (·.satd)), w (sum (·.intra)),
    w ((if bs = [] then 0 else sum (·.cplx) / bs.length) + (sum fun b => b.flags / 4 % 2) % 4096 * 2 ^ 8 + cont)],
   [w led.bits, w (led.qpMin codec + led.qpMax codec * 2 ^ 8 + led.qpMean codec * 2 ^ 16),
    w (s16 (4 * middle (mv.map fun b => roundAway b.mx u)) + s16 (4 * middle (mv.map fun b => roundAway b.my u)) * 2 ^ 16),
    w ((ks.filter fun (k, _) => p.mot.ranFb k).length % 4096 + cont)],
   [w led.allot, w led.reserve, w s.tstamp, w (s16 margin + cont)]]

/-- R264, R268: the summary of a run is written at its end, and the write-back follows. -/
def State.putSummary (s : State) (d i : Nat) (p : PicSt) (j r : Nat) (margin : Int) : State :=
  match mapGet (fun _ => none) p.mot.runs (r * 4 + j) with
  | some (ring, base) =>
    if !s.activeRing ring 2 then s.stopRun d i p j r ring
    else
      let n := if (s.asOf p).statBlocks d i then s.runBlocks d i j r else 0
      let s := ((s.rowSummary d i p j r margin).zipIdx).foldl (fun s (ws, k) => s.unitAt ring (base + n + k) ws) s
      ((s.dropRun d i p.num (r * 4 + j) false).writeBack ring).ringIrq ring
  | none => s

/-- R123, R267, R269: the run of CTU row r of column j ends before it is complete: its row task faulted and ended, for its statistics writes
too are work of the row and run under the ring's PASID, or its picture was abandoned. The units it reserved and did not write keep their old
contents; a gap marker of its own with CAUSE 1 tells their number. -/
def State.abortRun (s : State) (d i : Nat) (p : PicSt) (j r ring : Nat) : State :=
  let n := s.runLeft d i p j r
  let s := s.dropRun d i p.num (r * 4 + j) true
  if s.ringKind ring ≠ 2 then s else (s.statCut ring (s.strId d i) n).cutMarks ring
/-- R123: the runs of a picture that ends before it is complete. -/
def State.abortRuns (s : State) (d i : Nat) (p : PicSt) : State :=
  p.mot.runs.foldl (fun s (key, x) => match x with
    | some (ring, _) => s.abortRun d i p (key % 4) (key / 4) ring
    | none => s) s

/-- R266: the histogram bin of a vector's length, and of its direction. -/
def magBin (a : Nat) : Nat := if a = 0 then 16 else if 1024 ≤ a then 27 else 17 + Nat.log2 a
def octant (x y : Int) : Nat :=
  -- counter-clockwise from +x; a vector on a boundary counts in the higher octant
  if 0 < x ∧ 0 ≤ y ∧ y < x then 0 else if 0 < x ∧ x ≤ y then 1 else if x ≤ 0 ∧ -x < y then 2 else if x < 0 ∧ 0 < y ∧ y ≤ -x then 3
  else if x < 0 ∧ y ≤ 0 ∧ x < y then 4 else if x < 0 ∧ y ≤ x then 5 else if 0 ≤ x ∧ y < -x then 6 else 7

/-- R266: the bins a block counts in. -/
def BlkRec.bins (b : BlkRec) (u : Nat) : List Nat :=
  let a := max (roundAway b.mx u).natAbs (roundAway b.my u).natAbs
  (b.cplx / 16) :: if b.flags / 8 % 2 = 1 then [] else magBin a :: if a = 0 then [] else [28 + octant b.mx b.my]

/-- R266: the units of a picture histogram. -/
def State.histUnits (s : State) (d i : Nat) (p : PicSt) : List (List Word) :=
  let u := mvUnit (s.strCodec d i)
  let bins := p.mot.blocks.flatMap fun (_, b) => b.bins u
  let w := fun (n : Nat) => (BitVec.ofNat 32 n : Word)
  let flags := ((List.range (s.strN d i)).flatMap fun j => (List.range (s.strR d i)).map fun r =>
    s.rowFlags d i p j r (((p.col j).rows.getD r ⟨0, 0, false, 0, 0, 0, 0⟩).floored)).foldl (· ||| ·) 0
  [w p.num, w (s16 p.mot.gmx + s16 p.mot.gmy * 2 ^ 16), w (p.mot.blocks.length % 2 ^ 17), w (flags + 3 * 2 ^ 20)] ::
    (List.range 12).map fun k => (List.range 3).map (fun b => w (bins.count (3 * k + b))) ++ [w (2 * 2 ^ 20)]

/-- R266, R268: the histogram follows the last run of a picture. -/
def State.putHist (s : State) (d i : Nat) (p : PicSt) : State :=
  let o := s.asOf p
  if !o.statOn d i ∨ !o.statHist d i then s
  else if !s.activeRing (o.statRing d i) 2 then s.noRing d i (o.statRing d i) 13
  else s.putStat (o.statRing d i) (s.strId d i) (s.histUnits d i p)

/-! ## Hints -/

/-- R257: the check of a MOTION_HINT; 0 passes. -/
def State.hintCheck (s : State) (x : Desc) : Nat :=
  match s.crownOf (dTarget x.words) with
  | none => 0x300D
  | some d => match s.indexOf d (dStream x.words) with
    | some i => if s.strOn d i then 0 else 0x300D
    | none => 0x300D

/-- R258: a hint is stored, or counted as late or early. -/
def State.takeHint (s : State) (d i : Nat) (ws : List Word) : State :=
  let e := s.encSt d i
  let n := wordAt ws 6
  let ahead := (n + 2 ^ 32 - e.pic) % 2 ^ 32
  if 2 ^ 31 ≤ ahead then s.inc (F.MES_STRi_CNT_B_HINT_LATE d i)
  else if 3 < ahead then s.inc (F.MES_STRi_CNT_C_HINT_EARLY d i)
  else
    let s := if e.hints.any (·.1 == n) then s.inc (F.MES_STRi_CNT_C_HINT_REPLACED d i) else s
    s.setEncSt d i { e with hints := e.hints.filter (·.1 != n) ++ [(n, ws)] }

/-- R257: an accepted hint completes DONE, used or not. -/
def State.hintDone (s : State) (r : Nat) (x : Desc) : State :=
  let s := match s.crownOf (dTarget x.words) with
    | some d => match s.indexOf d (dStream x.words) with
      | some i => (s.incWrap (F.MES_COUNT_HINTS d)).takeHint d i x.words
      | none => s
    | none => s
  s.complete r x.idx (dTag x.words) (dNocpl x.words) 0 0 Wm.zero

/-- MOTION_HINT (R257). -/
def execMotionHint (r : Fin 4096) (s : State) : Out :=
  .next (s.dispatch r 0x11 [(7, 0xFFFFFFE0), (9, 0xFE00FE00), (10, 0xFE00FE00), (12, 0xFE00FE00), (13, 0xFE00FE00)] State.hintCheck
    fun s x => s.hintDone r x)

end Sys2Proof.Machine
end

