-- ==== Sys2Proof/Machine/Encode.lean ====
section
/-!
DEFINITION. Sys2Proof/Machine/Encode.lean: encode pipelines (11_encode_pipelines.md): stream states, picture starts and refresh,
stream contexts, row tasks, and the checks of streams and pipelines.
-/
namespace Sys2Proof.Machine

/-- The pipeline controller leaf (R16). -/
def pCtl (d p : Nat) : Nat := mkPath [d, p, 5]
def State.pStr (s : State) (d i : Nat) : Nat := pCtl d (s.rd (F.ENC_STRi_CFG_PIPE_FIRST d i))

/-- R239: OFF 0, WAITING 1, LIVE 2, DRAINING 3, HALTED 4. -/
def State.encState (s : State) (d i : Nat) : Nat := s.rd (F.ENC_STRi_STATUS_STATE d i)

/-- What follows from the streams' states and shapes: ENC_STATUS.STREAMS, resident contexts and loads of the pipelines. -/
def State.showPipes (s : State) (d : Nat) : State :=
  let n := ((List.range 128).filter fun i => s.encState d i != 0).length
  (s.wr (F.ENC_STATUS_STREAMS d) n).forRange 8 fun p s =>
    let (a, b) := s.rasterNum d p
    ((s.wr (F.ENC_PIPEp_STATUS_RESIDENT d p) (s.residents d p).length).wr (F.ENC_PIPEp_STATUS_LOAD d p) (min 10000 (s.load d p * 10000 / loadOne))).wr
      (F.ENC_PIPEp_RLOAD_RASTER d p) (min 10000 (a * 10000 / (loadOne * max 1 b)))

def State.setEncState (s : State) (d i v : Nat) : State := (s.wr (F.ENC_STRi_STATUS_STATE d i) v).showPipes d

/-- R239: the last row in flight of a DRAINING stream has gone: OFF, its contexts and its group released. -/
def State.encOff (s : State) (d i : Nat) : State :=
  ((s.setEncSt d i EncSt.init).releaseGroup d i (s.strId d i)).setEncState d i 0

/-! ## Refusals -/

def State.encRefuse (s : State) (d i code a : Nat) : State := s.refuse (s.pStr d i) [R.ENC_STRi_STATUS d i, R.ENC_STATUS d] code a (s.strId d i) (some (s.chTl (s.strChan d i)))

/-! ## The work of a picture -/

/-- R235: what the preset spends: at Fast the smallest block is 16 x 16, with no AMP and no MTT below 16. -/
def State.codingSearch (s : State) (d i : Nat) : CodingSearch :=
  let fast := s.on (F.ENC_STRi_CFG_PRESET d i)
  let codec := s.strCodec d i
  ⟨if codec = 4 then 0 else if fast then 16 else if codec = 0 then 8 else 4, codec == 0 && !fast, if codec = 1 then (if fast then 16 else 4) else 0,
    !fast, if codec = 4 then (if fast then 1 else 2) else 0⟩

/-- R224: the first CTU column of column k of a GDR sweep; the sweep's columns are as even as whole CTU columns allow
(notes/assumptions/138.md). -/
def State.sweepEdge (s : State) (d i : Nat) (p : PicSt) (k : Nat) : Nat := s.strCols d i * k / max 1 ((s.asOf p).rd (F.ENC_STRi_GOP_GDR_LEN d i))

/-- R224: whether inter prediction of the block in column bx may use a vector: none in an IDR or key frame, nor in the intra column of a
sweep; in the area that the sweep has refreshed, only one that stays in the area its reference had refreshed. -/
def State.mayPredict (s : State) (d i : Nat) (p : PicSt) (bx : Nat) (v : Vec) : Bool :=
  match p.sweep with
  | none => p.kind == 0
  | some k =>
    let c := bx * 16 / s.strCtu d i
    let u := mvUnit (s.strCodec d i)
    let right := (bx * 16 + 15 : Nat) + v.x / u + if v.x % u = 0 then 0 else 4
    if s.sweepEdge d i p (k + 1) ≤ c then true
    else if s.sweepEdge d i p k ≤ c then false
    else decide (right < (s.sweepEdge d i p (k - v.ref) * s.strCtu d i : Nat))

/-- R365: a graft by GDR codes every unit of the columns that it does not refresh as skip from reference 0. -/
def State.graftSkip (s : State) (d i : Nat) (p : PicSt) (bx : Nat) : Bool :=
  p.graft && p.kind == 2 && decide (s.sweepEdge d i p 1 ≤ bx * 16 / s.strCtu d i)

/-- R224, R244: the vector that a block's search leaves to the mode decision for inter prediction, if it may have one. -/
def State.interOf (s : State) (d i : Nat) (p : PicSt) (bx by_ : Nat) : Option Vec :=
  if s.graftSkip d i p bx then some ⟨0, 0, 0⟩ else
  (((p.mot.blk (blkKey bx by_)).filter fun b => b.flags / 8 % 2 == 0).map fun b => ⟨b.mx, b.my, b.ref⟩).filter (s.mayPredict d i p bx)

/-- R225, R242: a write of ENC_STRi_REQ. -/
def State.reqWrite (s : State) (d i : Nat) (v : Word) : State :=
  if getBits v 0 1 = 0 then s
  else if s.encState d i = 1 ∨ s.encState d i = 2 then s.setEncSt d i { s.encSt d i with req := true }
  else s.encRefuse d i 0x300F (R.ENC_STRi_REQ d i)

/-- ENC_REFRESH_REQ (R225). -/
def execEncRefreshReq (d : Fin 8) (i : Fin 128) (v : Word) (s : State) : Out := .next (s.reqWrite d i v)

/-! ## Row tasks -/

/-- R232: row tasks carry stream index, tile column and coding row in ARG0, the picture number in ARG1. -/
def rowArg (i j q : Nat) : Word := BitVec.ofNat 32 (i + j * 128 + q * 512)
def argStr (w : Word) : Nat := getBits w 0 7
def argCol (w : Word) : Nat := getBits w 7 2
def argRow (w : Word) : Nat := getBits w 9 10

/-- A task the device made for a coding row. -/
def Task.isRow (x : Task) (d : Nat) : Bool := !x.desc && d != 0 && x.stream != 0x3FF

/-- R232, R49: the stamps at which the last input line of row q of a slot completes, and at which the row is handed over. -/
def State.rowWake (s : State) (d i : Nat) (p : PicSt) (q : Nat) : Nat :=
  let c := s.strChan d i
  s.chStamp c (s.linePos c p.frame (s.rowEnd d i p.field q))
def State.rowDue (s : State) (d i : Nat) (p : PicSt) (q : Nat) : Nat :=
  let c := s.strChan d i
  s.chStamp c (s.handover c p.frame (s.rowLastLine d i p.field q))

/-- The CTU rows of coding row q. -/
def State.ctuRows (s : State) (d i q : Nat) : List Nat :=
  let h := s.strHrow d i
  (List.range (s.strR d i)).filter fun r => decide (q * h ≤ r ∧ r < (q + 1) * h)

/-- R264: the statistics runs of a coding row are reserved as its task wakes. -/
def State.reserveRuns (s : State) (d i num j q : Nat) : State := (s.ctuRows d i q).foldl (fun s r => s.reserveRun d i num j r) s

/-- R232: create the task of coding row q of column j of a slot; the task of the next row is created when it wakes. With no
free entry in the queue's range the row has no task. -/
def State.makeRow (s : State) (d i : Nat) (p : PicSt) (j : Nat) : Nat → Nat → State
  | 0, _ => s
  | n + 1, q =>
    let c := s.strChan d i
    let l := s.chTl c
    let k := s.strPipe d i j
    let qu := s.rd (F.ENC_PIPEp_CFG_QUEUE d k)
    if s.strRows d i ≤ q then s
    else match s.freeEntry d qu with
      | none => s
      | some t =>
        let w := s.rowWake d i p q
        let x : Task := { Task.idle with
          state := 2, level := (s.asOf p).rd (F.ENC_STRi_CFG_SLEVEL d i), dlist := l, dtl := l, queue := qu, epoch := s.rd (F.SCH_Qq_STATUS_EPOCH d qu)
          wake := w, deadline := s.rowDue d i p q, arg0 := rowArg i j q, arg1 := BitVec.ofNat 32 p.num, stream := s.strId d i, ring := (s.asOf p).statRing d i }
        if s.wakeLater d l w then
          let s := s.setTask d t { x with state := 1 }
          s.setDelay d l (s.sortIn d l w t (s.delayList d l))
        else
          let s := ((s.setTask d t x).joinTail d t clsSubmit).refill d (s.rd (F.SCH_Qq_CFG_BIND d qu))
          (s.reserveRuns d i p.num j q).makeRow d i p j n (q + 1)

/-- R123, R269: the runs of a coding row whose task has ended short are given up. -/
def State.cutRow (s : State) (x : Nat × Word × Word) : State :=
  let (d, a, num) := x
  let i := argStr a
  match (s.encSt d i).pics.find? fun p => p.num == num.toNat with
  | some p => (s.ctuRows d i (argRow a)).foldl (fun s r => match mapGet (fun _ => none) p.mot.runs (r * 4 + argCol a) with
      | some (ring, _) => s.abortRun d i p (argCol a) r ring
      | none => s) s
  | none => s
/-- R123, R269: at the end of a cycle the rows that ended short in it give their STAT rings their gap markers, and those that have waited for
room are written. -/
def State.cutCycle (s : State) : State :=
  let s := s.sch.cut.foldl State.cutRow { s with sch := { s.sch with cut := [] } }
  ((s.host.rings.filter fun (_, x) => x.cuts != []).map (·.1)).foldl (fun s r => s.cutMarks r) s

/-- R232: after a row task wakes, its runs are reserved and the next row's task is created. -/
def State.rowWoke (s : State) (d t : Nat) : State :=
  let x := s.task d t
  if !x.isRow d then s
  else
    let i := argStr x.arg0
    match (s.encSt d i).pics.find? fun p => p.num == x.arg1.toNat with
    | some p =>
      if p.lost then s
      else
        let s := s.reserveRuns d i p.num (argCol x.arg0) (argRow x.arg0)
        s.makeRow d i p (argCol x.arg0) 64 (argRow x.arg0 + 1)
    | none => s

/-- TASK_WAKE (R159): list l of die d (4 is the 1 us list). -/
def execTaskWake (d : Fin 8) (l : Fin 5) (s : State) : Out :=
  .next (match s.dueWake d l with | some t => (s.wakeTask d l t).rowWoke d t | none => s)

/-- R282, R301: what a started task begins: a coding row's ledger, or decode input. -/
def State.taskBegins (s : State) (d k t : Nat) : State :=
  let x := s.task d t
  if x.isRow d ∧ k < 8 then
    let i := argStr x.arg0
    match (s.encSt d i).pics.find? fun p => p.num == x.arg1.toNat && p.coded && !p.lost with
    | some p =>
      let s := s.coarseRows d i (argCol x.arg0) p (argRow x.arg0)
      if (p.col (argCol x.arg0)).row = argRow x.arg0 * s.strHrow d i then s.ledRowStart d i (argCol x.arg0) p else s
    | none => s
  else if d ≠ 0 ∧ k = 12 ∧ x.desc then s.decStart d t
  else s

/-- TASK_START (R157): consumer k of die d starts its prefetched task. -/
def execTaskStart (d : Fin 8) (k : Fin 256) (s : State) : Out :=
  let was := s.runningOn d k
  let s := s.startTask d k
  .next (match was, s.runningOn d k with
    | none, some t => s.taskBegins d k t
    | _, _ => s)

/-! ## Contexts -/

/-- R240: reference word k of a context. -/
def refWord (codec : Nat) (long : Bool) (r : Option RefE) : Nat :=
  match r with
  | some r => r.buf % 2048 + 2 ^ 11 + bit long * 2 ^ 12 + (if codec = 3 then r.slot % 8 else 0) * 2 ^ 13 + r.pic % 65536 * 2 ^ 16
  | none => 0

/-- R224, R225: whether the next slot is already known to be a refresh picture; of JPEG XS every one is. -/
def State.refreshDue (s : State) (d i : Nat) (e : EncSt) : Bool :=
  let n := s.rd (F.ENC_STRi_GOP_IDR_PERIOD d i)
  s.strCodec d i == 4 || e.first || e.resume || e.req || e.missed || e.revoked || e.graft.isSome || (n != 0 && decide (n ≤ e.since))

/-- R224: the kind of a refresh picture of the stream: 1 IDR or key frame, 2 GDR start. -/
def State.refreshOf (s : State) (d i : Nat) (e : EncSt) : Nat := if s.on (F.ENC_STRi_GOP_REFRESH d i) && !e.graftIdr then 2 else 1

/-- R240: words 0 to 15 of the stream's context, naming the next slot; the tile column joins word 0 on each pipeline. Words
9 to 11 are the device's own. -/
def State.ctxWords (s : State) (d i : Nat) (e : EncSt) : List Nat :=
  let codec := s.strCodec d i
  let nref := s.on (F.ENC_STRi_GOP_NREF d i)
  let short := e.refs.take (if nref then 2 else 1)
  let r1 := if nref then short[1]? else e.ltr
  let log2 := if codec < 3 then 16 else if codec = 3 then 8 else 0
  let next := if s.refreshDue d i e then s.refreshOf d i e else 0
  [s.strId d i + codec * 2 ^ 10 + 2 ^ 13, e.pic, if next = 1 then 0 else e.order, e.idr % 65536 + log2 * 2 ^ 16, e.last,
   (if next = 0 then e.gdr else 0) + next * 2 ^ 8,
   refWord codec false short[0]?, refWord codec (!nref) r1, if codec = 3 then Config.ctxWord d i 8 e.pic % 8 else 0,
   Config.ctxWord d i 9 0 % 2 ^ 32, Config.ctxWord d i 10 0 % 2 ^ 32, Config.ctxWord d i 11 0 % 2 ^ 32,
   refWord codec true (if nref then e.ltr else none), 0, 0, 0]

/-! ## Parameter sets -/

/-- R219: the enable flags of the parameter sets: the tools a codec uses are on, every other one it has is off. A preset that leaves a tool
out of its search (R235) leaves the flag as it is. -/
def codecTools (codec : Nat) (cavlc intl split : Bool) : List (Tool × Bool) :=
  let on := fun (ts : List Tool) => ts.map fun t => (t, true)
  let off := fun (ts : List Tool) => ts.map fun t => (t, false)
  match codec with
  | 0 => on [.amp, .transformSkip, .signHiding, .sao, .deblocking, .tmvp, .scalingLists] ++ [(.tiles, split), (.fieldSeq, intl)] ++
      off [.pcm, .lossless, .customScaling, .weightedPred, .wpp, .rangeExt, .other]
  | 1 => on [.mtt, .dualTree, .alf, .sao, .deblocking, .cclm, .mts, .mmvd, .tmvp, .gdr] ++ [(.tiles, split), (.fieldSeq, intl)] ++
      off [.lmcs, .affine, .gpm, .bdof, .dmvr, .lfnst, .subpictures, .resampling, .palette, .ibc, .other]
  | 2 => [(.cabac, !cavlc), (.fieldPics, intl)] ++ on [.transform8x8, .deblocking] ++ off [.mbaff, .paff, .weightedPred, .customScaling, .fmo, .aso, .other]
  | 3 => on [.tiles, .cdef, .deblocking, .showExisting] ++
      off [.obmc, .compound, .restoration, .filmGrain, .superres, .intraBlockCopy, .palette, .other]
  | _ => off [.starTetrix, .cfa, .other]

/-- R285: the scale and value fields of a rate or size whose units are 2^(base + scale) bits, the scale the smallest with which a 32-bit field
holds the value rounded up (the field is one less; notes/assumptions/50.md). -/
def hrdScale (base v : Nat) : Nat × Nat :=
  let k := ((List.range 16).find? fun k => decide (ceilDiv v (2 ^ (base + k)) < 2 ^ 32)).getD 15
  (k, ceilDiv v (2 ^ (base + k)) - 1)
def hrdOf (cbr : Bool) (rate size : Nat) : Hrd :=
  ⟨cbr, rate, size, (hrdScale 6 rate).1, (hrdScale 6 rate).2, (hrdScale 4 size).1, (hrdScale 4 size).2⟩

/-- R218, R219, R220, R222, R223, R240, R285: the header template block of a stream; the colour description is the slot's OUT_SPACE and
OUT_FULL. -/
def State.paramSet (s : State) (d i : Nat) : ParamSet :=
  let codec := s.strCodec d i
  ⟨codec, s.rd (F.ENC_STRi_CFG_PROFILE d i), s.rd (F.ENC_STRi_LEVEL_LEVEL_IDC d i), s.on (F.ENC_STRi_CFG_TIER d i),
    s.taken d (i / 8) (F.CMP_SLOTs_COLOR_OUT_SPACE d (i / 8)), s.taken d (i / 8) (F.CMP_SLOTs_COLOR_OUT_FULL d (i / 8)) == 1,
    if codec < 3 then 16 else if codec = 3 then 8 else 0, if codec = 2 then some (2, false) else none, s.strW d i, s.picH d i,
    codecTools codec (s.on (F.ENC_STRi_OPT_CAVLC d i)) (s.chInterlaced (s.strChan d i)) (decide (1 < s.strN d i)),
    match codec with | 0 => [64, 8, 32, 4] | 4 => [5, 2, 4, 16, s.strN d i] | _ => [s.strCtu d i],
    if codec < 3 then some (hrdOf (s.ledMode d i == 0) (s.ledRate d i) (s.hrdCpb d i)) else none,
    (List.range (s.strRows d i)).map fun q => ⟨q * s.strHrow d i * s.strCols d i, (s.ctuRows d i q).length⟩⟩

/-- R224: the NAL unit type of a picture's slices, or the frame type of AV1. -/
def nalOf (codec kind : Nat) : NalKind :=
  match codec with
  | 2 => if kind = 1 then .avcIdr else .avcSlice
  | 3 => if kind = 1 then .keyFrame else .interFrame
  | _ => if kind = 1 then .idrNLp else if codec = 1 ∧ kind = 2 then .gdr else .trail

/-- R220, R285: the picture timing of a slot: pic_struct (0 a frame, 1 and 2 the first and second field, notes/assumptions/139.md), and the
channel line at which it is removed, which is the wire deadline of its last coding row. -/
def State.picTiming (s : State) (d i : Nat) (p : PicSt) : Nat × Nat :=
  let c := s.strChan d i
  (if s.chInterlaced c then p.field + 1 else 0, s.handLine d i p (s.strRows d i - 1) + s.rd (F.LT_CHc_DELAY_TOTAL c))

/-- R184, R220, R222, R224, R285: what the picture carries beside its slices: the captions that came in with its channel frame, the time code,
the buffering period, its NAL unit type, at a GDR start the recovery point, and the picture timing. -/
def State.seiOf (s : State) (d i : Nat) (p : PicSt) : Option Sei :=
  let t := s.asOf p
  let caps := if t.on (F.ENC_STRi_SEI_CAPTIONS d i) then
      ((s.ingCh (s.strChan d i)).anc.filter fun (k, a) => k == p.frame && a.words.getD 0 0 % 256 == 0x61 && a.words.getD 1 0 % 256 == 1).map
        fun (_, a) => (a.words.drop 3).dropLast.map (· % 1024)
    else []
  let tc := if t.on (F.ENC_STRi_SEI_TIMECODE d i) ∧ s.strCodec d i < 3 then some p.frame else none
  if s.strCodec d i = 4 then none
  else some ⟨p.num, caps, tc, p.delay, nalOf (s.strCodec d i) p.kind, if p.kind = 2 then some (t.rd (F.ENC_STRi_GOP_GDR_LEN d i) - 1) else none,
    if s.strCodec d i < 3 then some (s.picTiming d i p) else none⟩

/-! ## Picture starts -/

/-- R223: the counter after a slot of a kind with value v. -/
def nextOrder (codec v : Nat) : Nat :=
  match codec with | 2 => (v + 1) % 65536 | 3 => (v + 1) % 256 | 4 => 0 | _ => (v + 1) % 2 ^ 32

/-- R293, R221: references no longer named are dropped; `keep` are the buffers that stay. -/
def State.dropOld (s : State) (d i : Nat) (keep : List Nat) : State :=
  (s.group d (s.strId d i)).foldl (fun s b => if keep.contains b then s else s.dropRef d b false) s

/-- R294: the references after a held slot: HEVC, VVC and AVC name the last good picture's buffer by the held slot's number, the newest first. -/
def heldRefs (codec num room : Nat) : List RefE → List RefE
  | [] => []
  | g :: rest => if codec < 3 then ({ g with pic := num } :: g :: rest).take room else g :: rest
/-- R294: the pool marks that buffer. -/
def State.aliasBuf (s : State) (d codec : Nat) (g : Option RefE) : State :=
  match g with
  | some g => if codec < 3 then s.setBuf d g.buf { s.buf d g.buf with alias_ := true } else s
  | none => s
/-- R221: short-term references that a stream keeps. -/
def State.refRoom (s : State) (d i : Nat) : Nat := if s.on (F.ENC_STRi_GOP_NREF d i) then 2 else 1

/-- R223, R239, R294: a slot in which no pipeline codes: the counters and the references advance as for a hold picture. -/
def State.idleSlot (s : State) (d i : Nat) (frame field : Nat) : State :=
  let e := s.encSt d i
  let codec := s.strCodec d i
  let s := s.aliasBuf d codec e.refs.head?
  let p : PicSt := ⟨e.pic, frame, field, 0, false, none, e.order, e.idr, 0, true, false, s.ptpT, [], [], 0, false, MotPic.init, [], [], 0, none, e.refs, s.codingSearch d i, none, [], false⟩
  let e := { e with refs := heldRefs codec e.pic (s.refRoom d i) e.refs, pic := (e.pic + 1) % 2 ^ 32, order := nextOrder codec e.order, since := e.since + 1, pics := e.pics ++ [p],
                    idr := if e.graft.isSome && s.strCodec d i == 2 then (e.idr + 1) % 65536 else e.idr }
  s.setEncSt d i e

/-- R365: the buffer a grafted sweep reconstructs into is mid-grey from the sweep's edge on. -/
def State.greyGraft (s : State) (d i : Nat) (p : PicSt) (b : Nat) : State :=
  if p.graft ∧ p.kind = 2 then s.setBuf d b { s.buf d b with grey := some (s.sweepEdge d i p 1 * s.strCtu d i) } else s

/-- R225: the order value of a picture of kind `kind`: 0 for an IDR and for JPEG XS. -/
def State.orderOf (s : State) (d i : Nat) (e : EncSt) (kind : Nat) : Nat :=
  if s.strCodec d i = 4 ∨ kind = 1 then 0 else e.order

/-- R293: the long-term reference a picture of kind `kind` keeps: a refresh drops it. -/
def State.ltrKept (s : State) (d i : Nat) (e : EncSt) (kind : Nat) : Option RefE :=
  if kind = 0 ∨ !s.on (F.ENC_STRi_GOP_LTR d i) then e.ltr else none

/-- R225, R293: the stream after the picture p of its slot is taken up: its references, its long-term reference and its counts. -/
def State.encNext (s : State) (d i : Nat) (e : EncSt) (kind : Nat) (b : Option Nat) (p : PicSt) : EncSt :=
  let codec := s.strCodec d i
  let nref := s.on (F.ENC_STRi_GOP_NREF d i)
  let me : RefE := ⟨b.getD 0, e.pic, if codec = 3 then Config.ctxWord d i 8 e.pic % 8 else 0⟩
  { e with
    pic := (e.pic + 1) % 2 ^ 32, order := nextOrder codec (s.orderOf d i e kind), idr := if codec = 2 then (if kind = 1 then (e.idr + 1) % 65536 else e.idr) else if kind = 0 then e.idr else (e.idr + 1) % 65536
    last := if kind = 0 then e.last else e.pic
    gdr := if kind = 2 then 1 % s.rd (F.ENC_STRi_GOP_GDR_LEN d i) else if kind = 1 ∨ e.gdr = 0 then 0 else (e.gdr + 1) % s.rd (F.ENC_STRi_GOP_GDR_LEN d i)
    since := if kind = 0 then e.since + 1 else 1, first := false, req := false, missed := false, revoked := false, resume := false
    refs := if codec = 4 ∨ b.isNone then [] else if kind = 1 then [me] else (me :: e.refs).take (if nref then 2 else 1)
    ltr := if !s.on (F.ENC_STRi_GOP_LTR d i) then none else if kind ≠ 0 ∧ codec ≠ 4 ∧ b.isSome then some me else s.ltrKept d i e kind
    pics := e.pics ++ [p], prevKind := kind, hints := e.hints.filter fun h => decide (0 < (h.1 + 2 ^ 32 - e.pic) % 2 ^ 32 ∧ (h.1 + 2 ^ 32 - e.pic) % 2 ^ 32 < 2 ^ 31)
    graft := none, graftIdr := false, params := some (s.paramSet d i) }

/-- R225: picture p of a slot starts: the stream's next cursor, its context, and the rows of its pipelines. -/
def State.startPic (s : State) (d i : Nat) (e : EncSt) (kind : Nat) (b : Option Nat) (p : PicSt) : State :=
  let e' := s.encNext d i e kind b p
  let s := s.setEncSt d i { e' with ctx := s.ctxWords d i e' }
  let s := (s.wr (F.ENC_STRi_PIC_PIC d i) e.pic).setEncState d i 2
  let s := (s.strPipes d i).foldl (fun s k => s.incWrap (F.ENC_PIPEp_CNT_SW_SWITCHES d k)) s
  s.forRange (s.strN d i) fun j s => s.makeRow d i p j 64 0

/-- R244, R258: the hint given for the next picture of a stream, [] without one. -/
def EncSt.hint (e : EncSt) : List Word :=
  match e.hints.find? (·.1 == e.pic) with | some (_, ws) => ws | none => []

/-- R244, R282: the picture of a slot as it starts, coded into buffer b. -/
def State.newPic (s : State) (d i : Nat) (e : EncSt) (kind frame field : Nat) (alias0 : Bool) (mot : MotPic) (b : Option Nat) : PicSt :=
  let noref := e.first || e.resume || s.strCodec d i == 4
  let nref := s.on (F.ENC_STRi_GOP_NREF d i)
  ⟨e.pic, frame, field, kind, true, b, s.orderOf d i e kind, e.idr, 0, false, false, s.ptpT, [], [], if noref then 0 else min e.refs.length (if nref then 2 else 1), alias0, mot, s.pictureRegs d i,
    if noref then [] else (e.refs.take (if nref then 2 else 1)).map fun r => (r.buf, (s.buf d r.buf).epoch), match b with | some b => (s.buf d b).epoch | none => 0, none,
    e.refs, s.codingSearch d i, if kind = 2 then some 0 else if kind = 0 ∧ e.gdr ≠ 0 then some e.gdr else none, [], e.graft.isSome⟩

/-- R246, R258, R278: the hint of a slot's picture counts, its triggers show, its budget is set, and it starts. -/
def State.codeInto (s : State) (d i : Nat) (e : EncSt) (kind frame field : Nat) (alias0 : Bool) (b : Option Nat) : State :=
  let hint := e.hint
  let scene := hint != [] && fieldAt hint 7 0 1 == 1
  let s := if hint = [] then s else s.inc (F.MES_STRi_CNT_B_HINT_USED d i)
  let s := if scene then s.inc (F.MES_STRi_CNT_D_SCENE_CUTS d i) else s
  let mot : MotPic := { MotPic.init with hint := hint, scene := if scene then some 0 else none, refreshFb := s.strCodec d i != 4 && (kind != 0 || e.prevKind == 1) }
  let s := s.showTriggers d i mot
  let p := s.newPic d i e kind frame field alias0 mot b
  let x := (b.elim s (s.greyGraft d i p)).pictureBudget d i p
  x.1.startPic d i e kind b x.2

/-- R225, R237, R278, R293: a slot of a stream begins and is coded. -/
def State.codeSlot (s : State) (d i : Nat) (frame field : Nat) : State :=
  let e := s.encSt d i
  let kind := if s.refreshDue d i e then s.refreshOf d i e else 0
  -- causes and counts
  let s := if e.req then s.inc (F.ENC_STRi_CNT_B_FORCED d i) else s
  let s := if kind = 0 then s else s.inc (F.ENC_STRi_CNT_A_REFRESHES d i)
  -- references
  let s := (s.dropOld d i ((e.refs.map (·.buf)) ++ (match s.ltrKept d i e kind with | some r => [r.buf] | none => []))).fitGroup d i
  let alias0 := match e.refs with | r :: _ => (s.buf d r.buf).alias_ | [] => false
  let x := s.allocBuf d (s.strId d i) e.pic (s.orderOf d i e kind)
  x.1.codeInto d i e kind frame field alias0 x.2

/-- R352, R371: the sides that carry the slot let its streams start slots: each is ACTIVE, MUTED or PROMOTING, or keeps encoding in
a drill window. -/
def State.sideRuns (s : State) (d k : Nat) : Bool :=
  (s.slotSides d k).all fun (n, sd) =>
    let r := s.role n sd
    r == 2 || r == 3 || r == 4 || (s.on (F.PAIR_n_STATUS_DRILL n) && (mapGet (fun _ => PairSt.init) s.red.pairs n).old == some sd)

/-- R325, R354: a failed side whose pair has no other side to stand for it: its slots count, and the packetiser holds them. -/
def State.sideHolds (s : State) (d k : Nat) : Bool :=
  (s.slotSides d k).all fun (n, sd) => let o := s.role n (1 - sd); s.role n sd == 5 && (s.pairTwin n || (o != 2 && o != 3))

/-- R223, R239: a slot of stream i begins at frame `frame`, field `field` of its channel. -/
def State.slotBegins (s : State) (d i frame field : Nat) : State :=
  let st := s.encState d i
  if (st ≠ 1 ∧ st ≠ 2 ∧ st ≠ 4) ∨ (s.on (F.ENC_STRi_CFG_FRDIV d i) ∧ frame % 2 = 1) ∨ !(s.sideRuns d (i / 8) || s.sideHolds d (i / 8)) then s
  else
    let e := s.encSt d i
    let early := match e.graft with | some u => decide (s.chUnits (s.strChan d i) < u) | none => false
    if st == 4 || early || !s.sideRuns d (i / 8) then s.idleSlot d i frame field else s.codeSlot d i frame field

/-- The streams of composition slot k of crown d begin their slots. -/
def State.slotsBegin (s : State) (d k frame field : Nat) : State :=
  s.forRange 8 fun e s => s.slotBegins d (k * 8 + e) frame field

/-! ## The end of a picture -/

/-- R225, R239, R244, R293, R294: a slot's picture is abandoned or held: its buffer is freed, and for HEVC, VVC and AVC the slot becomes an
alias of the last good picture, which is the newest that the stream named before it and still holds. AV1 names that picture alone. -/
def State.abandon (s : State) (d i num : Nat) : State :=
  let e := s.encSt d i
  match e.pics.find? (·.num == num) with
  | none => s
  | some p =>
    let codec := s.strCodec d i
    let mine := fun (r : RefE) => decide (r.pic = p.num) && p.buf == some r.buf
    let before := (p.named.take (s.refRoom d i)).filter fun r => p.refs.any fun x => x.1 == r.buf && s.freshRef d x
    let before := if before = [] then (match e.ltr.filter fun r => !mine r with | some g => [g] | none => []) else before
    let good := before.head?
    let refs := match e.refs with
      | r :: rest =>
        if mine r then heldRefs codec p.num (s.refRoom d i) before
        else r :: rest.filterMap fun r => if mine r then good.bind fun g => if codec < 3 then some { g with pic := p.num } else none else some r
      | [] => []
    let s := if e.refs.any mine then s.aliasBuf d codec good else s
    let s := match s.ownBuf d p with | some b => s.freeBuf d b | none => s
    let e := { s.encSt d i with refs := refs, ltr := e.ltr.filter fun r => !mine r, missed := true }
    let s := s.setEncSt d i { e with pics := e.pics.map fun q => if q.num = num then { q with lost := true, buf := none } else q }
    -- its row tasks have nothing left to code
    let ts := (s.strTasks d i).filter fun k => let x := s.task d (k % 65536); x.isRow d && x.arg1.toNat == num && decide (p.row < argRow x.arg0)
    (ts.foldl (fun s k => s.stopTask d (k % 65536) 2 0xC009) s).abortRuns d i p

/-- R293, R244: a picture is complete: a reference, or free; at a refresh picture what was kept until now is dropped. -/
def State.picDone (s : State) (d i : Nat) (p : PicSt) : State :=
  let e := s.encSt d i
  let s := s.setEncSt d i { e with sei := s.seiOf d i p }
  let s := match s.ownBuf d p with
    | some b =>
      let isRef := e.refs.any (·.buf == b) || (match e.ltr with | some r => r.buf == b | none => false)
      let long := match e.ltr with | some r => r.buf == b | none => false
      if isRef then s.setBuf d b { s.buf d b with mark := if long then 3 else 2 } else s.freeBuf d b
    | none => s
  if p.kind = 1 then
    s.dropOld d i ((e.refs.map (·.buf)) ++ (match e.ltr with | some r => [r.buf] | none => []))
  else s

/-! ## Halt -/

/-- R239: a pipeline of the stream is reset, or its crown's link is lost: HALTED. -/
def State.haltStr (s : State) (d i : Nat) : State :=
  if s.encState d i = 1 ∨ s.encState d i = 2 then
    let s := s.abortStr d i
    let e := s.encSt d i
    let s := (e.pics.filter fun p => p.coded && !p.lost).foldl (fun s p => s.abandon d i p.num) s
    (s.setEncState d i 4).event (s.pStr d i) 0x3C02 (s.strId d i) (e.pic - 1) 0 (some (s.chTl (s.strChan d i)))
  else s
def State.haltPipe (s : State) (d p : Nat) : State := ((s.residents d p).map (·.1)).foldl (fun s i => s.haltStr d i) s

/-- R239: every pipeline of a HALTED stream is out of reset: WAITING, and the next slot is a refresh picture. -/
def State.unhaltStr (s : State) (d i : Nat) : State :=
  if s.encState d i = 4 then (s.setEncSt d i { s.encSt d i with resume := true }).setEncState d i 1 else s

/-! ## Commits -/

/-- R239: a commit has changed encode streams of crown d. -/
def State.encCommit (o s : State) (d : Nat) : State :=
  let s := s.forRange 128 fun i s =>
    match o.strOn d i, s.strOn d i with
    | false, true =>
      -- a stream enabled again while it drains ends what is in flight (notes/assumptions/140.md)
      let s := if s.encState d i = 0 then s else s.encOff d i
      let s := (s.setEncSt d i EncSt.init).reserveGroup d i
      let s := ((s.setReg (R.ENC_STRi_CNT_A d i) 0).setReg (R.ENC_STRi_CNT_B d i) 0).wr (F.ENC_STRi_PIC_PIC d i) 0
      (s.wr (F.ENC_STRi_STATUS_ROWH d i) (s.rowH d i)).setEncState d i 1
    | true, false =>
      if s.encState d i = 0 ∨ s.encState d i = 3 then s
      else if (s.encSt d i).pics = [] then s.encOff d i
      else s.setEncState d i 3
    | true, true => s.fitGroup d i
    | _, _ => s
  (s.forRange 128 fun i s => s.showLedger d i).showPipes d

/-! ## The check -/

/-- R218: whether a profile carries a format. -/
def formatOk (codec profile : Nat) (chroma d8 : Bool) : Bool :=
  match codec, profile with
  | 0, 0 => !chroma && d8
  | 0, 1 => !chroma
  | 0, 2 => true
  | 1, 0 => !chroma
  | 1, 1 => chroma
  | 2, 0 => !chroma && d8
  | 2, 1 => !chroma
  | 2, 2 => true
  | 3, 0 => !chroma
  | 4, 0 => chroma && !d8
  | _, _ => false

/-- R218, R229: the picture, a side of it or the sample rate exceeds the signalled level, or the level is none of the codec's. -/
def State.levelBad (s : State) (d i : Nat) : Bool :=
  let codec := s.strCodec d i
  let idc := s.rd (F.ENC_STRi_LEVEL_LEVEL_IDC d i)
  let w := s.strW d i
  let h := s.picH d i
  let r := s.picRate d i
  match levelOf codec idc with
  | none => true
  | some l =>
    sideTooLong codec l w || sideTooLong codec { l with maxW := l.maxH } h ||
    if codec = 2 then
      let mb := ceilDiv w 16 * ceilDiv h 16
      decide (l.ps < mb) || decide (l.sr * 4004 < mb * r)
    else decide (l.ps < w * h) || decide (l.sr * 4004 < w * h * r) ||
      (codec == 4 && (match xsSublevels.find? (·.1 == idc % 256) with
        | none => true
        | some (_, bpp) => bpp != 0 && decide (bpp * w * h * r < s.ledRate d i * 4004)))
def State.colsBad (s : State) (d i : Nat) : Bool :=
  match levelOf (s.strCodec d i) (s.rd (F.ENC_STRi_LEVEL_LEVEL_IDC d i)) with | some l => decide (l.cols < s.strN d i) | none => false

/-- R226: a rendition size that the canvas cannot feed. -/
def State.sizeBad (s : State) (d i : Nat) : Bool :=
  let c := s.strChan d i
  let w := s.strW d i
  let h := s.strH d i
  decide (s.chWidth c < w) || decide (s.chHeight c < h) || decide (w * 4 < s.chWidth c) || decide (h * 4 < s.chHeight c) || w % 8 != 0 || h % 2 != 0 || w == 0 || h == 0

/-- R229, R230: tile columns that break their rule. -/
def State.tilesBad (s : State) (d i : Nat) : Bool :=
  let n := s.strN d i
  let cs := [s.rd (F.ENC_STRi_TILES_C0 d i), s.rd (F.ENC_STRi_TILES_C1 d i), s.rd (F.ENC_STRi_TILES_C2 d i)]
  if s.strCodec d i = 4 then cs.any (· != 0)
  else (cs.take (n - 1)).any (· == 0) || (cs.drop (n - 1)).any (· != 0) || decide (s.strCols d i ≤ (cs.take (n - 1)).sum)

/-- R227: the output area's format cannot feed the stream. -/
def feedBad (fmt : Nat) (chroma d8 : Bool) : Bool := match fmt with | 0 => false | 1 => chroma | _ => chroma || !d8

/-- R238: a pipeline, controller or queue that cannot serve. -/
def State.pipeBad (s : State) (d p : Nat) : Bool :=
  let q := s.rd (F.ENC_PIPEp_CFG_QUEUE d p)
  !s.on (F.ENC_PIPEp_CFG_EN d p) || !s.queueServes d q p || s.on (F.SCH_Qq_CFG_HOST d q) || decide (s.qCount d q < 128) ||
    (List.range 256).any fun k => k != p && consAssigned d k && s.on (F.SCH_CONSk_CFG_EN d k) && s.rd (F.SCH_CONSk_CFG_BIND d k) == s.rd (F.SCH_Qq_CFG_BIND d q)

/-- R32, R234: a pipeline is overloaded; R236: it has more than 64 contexts. -/
def State.overload (s : State) (d p : Nat) : Bool := let (a, b) := s.rasterNum d p; decide (loadOne < s.load d p) || decide (loadOne * b < a)

/-- R239: the shape fields of a stream. -/
def State.shapeOf (s : State) (d i : Nat) : Word := s.reg (R.ENC_STRi_CFG d i) &&& 0x00069FBE

/-- R241 to R243: the encode rules of R141 for stream i of crown d. -/
def encRules (o s : State) (d i : Nat) : List Rule :=
  let st := [R.ENC_STRi_STATUS d i, R.ENC_STATUS d]
  let c := s.strChan d i
  let k := i / 8
  let us := [R.ENC_STRi_CFG d i, R.ENC_STRi_LEVEL d i, R.ENC_STRi_SIZE d i, R.ENC_STRi_TILES d i, R.ENC_STRi_GOP d i, R.ENC_STRi_OPT d i, R.CMP_SLOTs_CFG d k, R.CMP_SLOTs_COLOR d k,
    R.ING_CHc_FMT c, R.LT_CHc_MAP c] ++ (s.strPipes d i).flatMap (fun p => [R.ENC_PIPEp_CFG d p, R.SCH_Qq_CFG d (s.rd (F.ENC_PIPEp_CFG_QUEUE d p)), R.SCH_Qq_RANGE d (s.rd (F.ENC_PIPEp_CFG_QUEUE d p))])
  let en := s.strOn d i
  let both := en && o.strOn d i
  let codec := s.strCodec d i
  let profile := s.rd (F.ENC_STRi_CFG_PROFILE d i)
  let chroma := s.on (F.ENC_STRi_CFG_CHROMA d i)
  let d8 := s.on (F.ENC_STRi_CFG_DEPTH8 d i)
  let n := s.strN d i
  let pf := s.rd (F.ENC_STRi_CFG_PIPE_FIRST d i)
  let pipes := s.strPipes d i
  let intl := s.chInterlaced c
  let refresh := s.on (F.ENC_STRi_GOP_REFRESH d i)
  let len := s.rd (F.ENC_STRi_GOP_GDR_LEN d i)
  rulesAt (R.ENC_STRi_CFG d i) st us
    [(0x3001, decide (4 < codec) || decide ([2, 1, 2, 0, 0].getD codec 3 < profile) || (en && (!formatOk codec profile chroma d8 || false)) || (s.on (F.ENC_STRi_CFG_TIER d i) && codec != 0)),
     (0x3004, s.on (F.ENC_STRi_CFG_CTU d i) && codec != 1 && codec != 3),
     (0x3005, s.rd (F.ENC_STRi_CFG_PIPE_N d i) == 3 || pf % n != 0 || decide (8 < pf + n) || (codec == 2 && n != 1) || (codec == 4 && n == 4)),
     (0x3006, en && pipes.any fun p => s.overload d p),
     (0x3007, en && pipes.any fun p => decide (64 < s.pipeHeld d p)),
     (0x3009, en && ((s.strHopt d i).isNone || s.colsBad d i)),
     (0x300A, en && feedBad (s.rd (F.CMP_SLOTs_COLOR_OUT_FMT d k)) chroma d8),
     (0x300C, en && intl && (codec == 3 || s.on (F.ENC_STRi_CFG_FRDIV d i) || s.scaled d i)),
     (0x300D, en && !s.slotOn d k),
     (0x300E, en && pipes.any fun p => s.pipeBad d p),
     (0x3010, both && o.shapeOf d i != s.shapeOf d i)] ++
  rulesAt (R.ENC_STRi_LEVEL d i) st (us ++ [R.LEDG_STRi_RATE d i]) [(0x3002, en && s.levelBad d i)] ++
  rulesAt (R.ENC_STRi_SIZE d i) st us [(0x3003, en && s.sizeBad d i), (0x3010, both && o.reg (R.ENC_STRi_SIZE d i) != s.reg (R.ENC_STRi_SIZE d i))] ++
  rulesAt (R.ENC_STRi_TILES d i) st us [(0x3008, en && s.tilesBad d i), (0x3010, both && o.reg (R.ENC_STRi_TILES d i) != s.reg (R.ENC_STRi_TILES d i))] ++
  rulesAt (R.ENC_STRi_GOP d i) st us [(0x300B, decide (len < 2) || (refresh && decide (3 ≤ codec)))] ++
  rulesAt (R.ENC_STRi_OPT d i) st us [(0x3001, s.on (F.ENC_STRi_OPT_CAVLC d i) && codec != 2)] ++
  rulesAt (R.ENC_STRi_SEI d i) st (R.ENC_STRi_SEI d i :: us)
    [(0x300B, codec == 4 && (s.on (F.ENC_STRi_SEI_CAPTIONS d i) || s.on (F.ENC_STRi_SEI_TIMECODE d i)))]

/-- R241: a pipeline is disabled with a resident context. -/
def pipeRules (o s : State) (d p : Nat) : List Rule :=
  rulesAt (R.ENC_PIPEp_CFG d p) [R.ENC_STATUS d] [R.ENC_PIPEp_CFG d p]
    [(0x300E, o.on (F.ENC_PIPEp_CFG_EN d p) && !s.on (F.ENC_PIPEp_CFG_EN d p) && s.residents d p != [])]

end Sys2Proof.Machine
end

