-- ==== Sys2Proof/Machine/Packet.lean ====
section
/-!
DEFINITION. Sys2Proof/Machine/Packet.lean: the payload formats of output flows (15_output_transport_and_shaping.md, R309 to
R313), and the entry of packets into the timing wheel (R314). The standards that R309 names give the headers
(notes/assumptions/62.md).
-/
namespace Sys2Proof.Machine

/-! ## Flows -/

def State.outFlow (s : State) (f : Nat) : FlowSt := mapGet (fun _ => FlowSt.init) s.whl.flows f
def State.setOutFlow (s : State) (f : Nat) (x : FlowSt) : State :=
  { s with whl := { s.whl with flows := mapSet (fun _ => FlowSt.init) s.whl.flows f x } }
def State.flowOn (s : State) (f : Nat) : Bool := s.on (F.PKT_FLOWf_CFG_EN f)
def State.flowStr (s : State) (f : Nat) : Nat := s.rd (F.PKT_FLOWf_CFG_STREAM f)
def State.flowFmt (s : State) (f : Nat) : Nat := s.rd (F.PKT_FLOWf_CFG_FMT f)

/-- The flows that send stream `sid`. -/
def State.streamFlows (s : State) (sid : Nat) : List Nat :=
  (List.range 2048).filter fun f => (s.flowOn f || (s.outFlow f).ending) && s.flowStr f == sid

/-- The crown and stream index that stand for a stream id (R352). -/
def State.driver (s : State) (sid : Nat) : Option (Nat × Nat) := (s.placement (sid / 8)).map fun (d, k) => (d, k * 8 + sid % 8)

/-! ## Bytes -/

/-- The CRC of PSI sections: polynomial 0x04C11DB7, bits first to last. -/
def crcMpeg (bs : List Byte) : Nat :=
  bs.foldl (fun c b => (List.range 8).foldl (fun c k =>
    let top := c / 2 ^ 31 % 2
    let x := b.toNat / 2 ^ (7 - k) % 2
    let c' := c * 2 % 2 ^ 32
    if top = x then c' else c' ^^^ 0x04C11DB7) c) 0xFFFFFFFF

/-! ## RTP -/

/-- A packet's payload before it has a sequence number: elementary-stream bytes, marker, payload after the RTP header. -/
structure Body where
  es : Nat
  mark : Bool
  data : List Byte
  deriving DecidableEq, Repr

/-- R311: the RTP header. -/
def State.rtpHeader (s : State) (f seq ts : Nat) (mark : Bool) : List Byte :=
  packBits [(8, 0x80), (1, bit mark), (7, s.rd (F.PKT_FLOWf_RTP_PT f)), (16, seq), (32, ts), (32, s.rd (F.PKT_FLOWf_SSRC_SSRC f))]

/-- Cut bytes into pieces of at most n. -/
def pieces (n : Nat) : Nat → List Byte → List (List Byte)
  | 0, _ => []
  | k + 1, bs => if bs = [] then [] else if n = 0 ∨ bs.length ≤ n then [bs] else bs.take n :: pieces n k (bs.drop n)

/-- R313: the packets of one NAL unit in FMT 2 (HEVC) and 3 (VVC): the unit whole, or fragmentation units. The unit's own
two header bytes count in its first fragment. `last` is whether it is the last of its picture. -/
def nalPackets (fmt mtu : Nat) (last : Bool) (nal : List Byte) : List Body :=
  if nal.length ≤ mtu - 12 then [⟨nal.length, last, nal⟩]
  else
    let b0 := (nal.getD 0 0).toNat
    let b1 := (nal.getD 1 0).toNat
    let ps := pieces (mtu - 15) nal.length (nal.drop 2)
    ps.zipIdx.map fun (p, k) =>
      let first := k == 0
      let end_ := k + 1 == ps.length
      let hdr := if fmt = 2 then packBits [(1, b0 / 128), (6, 49), (1, b0), (8, b1), (1, bit first), (1, bit end_), (6, b0 / 2)]
        else packBits [(8, b0), (5, 29), (3, b1), (1, bit first), (1, bit end_), (1, bit (end_ && last)), (5, b1 / 8)]
      ⟨p.length + (if first then 2 else 0), end_ && last, hdr ++ p⟩

/-- FMT 4 (RFC 9134, slice mode): the packets of one packetization unit. -/
def xsPackets (mtu field frame sep : Nat) (last : Bool) (u : List Byte) : List Body :=
  let ps := pieces (mtu - 16) u.length u
  ps.zipIdx.map fun (p, k) =>
    let end_ := k + 1 == ps.length
    ⟨p.length, end_ && last, packBits [(1, 1), (1, 1), (1, bit end_), (2, field), (5, frame), (11, sep), (11, k)] ++ p⟩

/-- An ANC packet's words, as RFC 8331 and ST 2038 pack them. -/
def ancBits (a : AncPkt) : List (Nat × Nat) := a.words.map fun w => (10, w)

/-- FMT 5 (RFC 8331): one RTP packet for each ANC packet; a picture that ends without one ends with an empty packet. The extended
sequence number stands before each body. -/
def ancPackets (field : Nat) (last : Bool) (as : List AncPkt) : List Body :=
  let one := fun (mark : Bool) (a : AncPkt) =>
    let body := packBits ([(1, bit a.c), (11, a.line), (12, a.hoff), (1, 0), (7, 0)] ++ ancBits a)
    let body := body ++ List.replicate ((4 - body.length % 4) % 4) 0
    (⟨0, mark, packBits [(16, body.length), (8, 1), (2, field), (22, 0)] ++ body⟩ : Body)
  let n := as.length
  (as.zipIdx.map fun (a, k) => one (last && k + 1 == n) a) ++
    if last && n == 0 then [⟨0, true, packBits [(16, 0), (8, 0), (2, field), (22, 0)]⟩] else []

/-! ## MPEG-2 TS -/

/-- One TS packet: PID, unit start, discontinuity_indicator (R365; its payload then has at most 182 bytes), continuity counter, PCR if
any (27 MHz), payload of at most 184 bytes; what is left over is adaptation-field stuffing. -/
def tsPacket (pid : Nat) (start disc : Bool) (cc : Nat) (pcr : Option Nat) (payload : List Byte) : List Byte :=
  let mark := if disc then 0x80 else 0
  let pcrBytes := match pcr with
    | some p => (0x10 + mark) :: pcrField p
    | none => if disc then [mark] else []
  let room := 184 - payload.length
  let af := if room = 0 then []
    else if room = 1 then [0]
    else
      let fields := if pcrBytes = [] then [0] else pcrBytes
      natBytes 1 (room - 1) ++ fields ++ List.replicate (room - 1 - fields.length) 0xFF
  let ctl := (if af = [] then 0 else 2) + if payload = [] then 0 else 1
  packBits [(8, 0x47), (1, 0), (1, bit start), (1, 0), (13, pid), (2, 0), (2, ctl), (4, cc)] ++ af ++ payload

/-- The TS packets of bytes on a PID, from a continuity counter; the last one is stuffed. -/
def tsPackets (pid cc : Nat) (start disc : Bool) (bs : List Byte) : List (Nat × List Byte) :=
  let n := if disc then 182 else 184
  ((if bs = [] then [] else [bs.take n]) ++ pieces 184 bs.length (bs.drop n)).zipIdx.map fun (p, k) =>
    (p.length, tsPacket pid (start && k == 0) (disc && k == 0) ((cc + k) % 16) none p)

/-- A PES header with a PTS only (R312). -/
def pesHeader (id len pts : Nat) : List Byte :=
  packBits [(24, 1), (8, id), (16, len), (8, 0x84), (8, 0x80), (8, 5), (4, 2), (3, pts / 2 ^ 30), (1, 1), (15, pts / 2 ^ 15), (1, 1), (15, pts), (1, 1)]

/-- The TS packets of datagrams of `per` packets. -/
def datagrams (per : Nat) : Nat → List (Nat × List Byte) → List (Nat × List Byte)
  | 0, _ => []
  | k + 1, ps =>
    if ps = [] then [] else
      (((ps.take (max 1 per)).map (·.1)).sum, ((ps.take (max 1 per)).map (·.2)).flatten) :: datagrams per k (ps.drop (max 1 per))

/-- R312: the PAT and PMT of a flow's programme. -/
def psiSection (table : Nat) (id : Nat) (body : List Byte) : List Byte :=
  let hd := packBits [(8, table), (1, 1), (1, 0), (2, 3), (12, body.length + 9), (16, id), (2, 3), (5, 0), (1, 1), (8, 0), (8, 0)]
  let all := hd ++ body
  0 :: (all ++ beBytes 4 (crcMpeg all))
def State.patBytes (s : State) (f : Nat) : List Byte := psiSection 0 1 (packBits [(16, 1), (3, 7), (13, s.rd (F.PKT_FLOWf_TS_PMT_PID f))])
def streamType (codec : Nat) : Nat := match codec with | 0 => 0x24 | 1 => 0x33 | 2 => 0x1B | _ => 0x06
def State.pmtBytes (s : State) (f codec : Nat) : List Byte :=
  let v := s.rd (F.PKT_FLOWf_TS_VPID f)
  let reg := fun (n : Nat) => packBits [(8, 5), (8, 4), (32, n)]
  let vdesc := if codec = 3 then reg 0x41563031 else []
  let adesc := reg 0x56414E43
  let es := fun (t pid : Nat) (ds : List Byte) => packBits [(8, t), (3, 7), (13, pid), (4, 15), (12, ds.length)] ++ ds
  psiSection 2 1 (packBits [(3, 7), (13, v), (4, 15), (12, 0)] ++ es (streamType codec) v vdesc ++
    if s.on (F.PKT_FLOWf_TS_ANC f) then es 0x06 (v + 1) adesc else [])

/-! ## Into the wheel -/

/-- R315: a flow that has come to hold a packet takes its one entry, in the slot that contains E, rounded up. -/
def State.armFlow (s : State) (f : Nat) : State :=
  let x := s.outFlow f
  match x.pkts with
  | p :: _ =>
    let e := max x.e (p.ready * 16)
    (s.setOutFlow f { x with e := e }).addEntry (ceilDiv e 1024) f
  | [] => s

/-- R314: a packet is handed to the wheel. -/
def State.pushPkt (s : State) (f : Nat) (p : Pkt) : State :=
  let x := s.outFlow f
  let s := s.setOutFlow f { x with pkts := x.pkts ++ [p] }
  if x.pkts = [] then s.armFlow f else s

/-- R314: RATE of a flow's stream, in kbit/s. -/
def State.flowRate (s : State) (f : Nat) : Nat := match s.driver (s.flowStr f) with | some (d, i) => s.rd (F.LEDG_STRi_RATE_RATE d i) | none => 0

/-- R309: what of the payload header depends on the packet's number: the extended sequence number of FMT 5. -/
def State.seqField (s : State) (f seq : Nat) : List Byte := if s.flowFmt f = 5 then packBits [(16, seq / 65536)] else []

/-- Send RTP packets of a flow. -/
def State.pushRtp (s : State) (f ts pic : Nat) (hold last : Bool) (bs : List Body) : State :=
  bs.foldl (fun s b =>
    let x := s.outFlow f
    let s := s.setOutFlow f { x with seq := (x.seq + 1) % 2 ^ 32 }
    s.pushPkt f ⟨b.es * 8, s.flowRate f, s.rtpHeader f x.seq ts b.mark ++ s.seqField f x.seq ++ b.data, hold, last && b.mark, pic, s.ptpT⟩) s

/-- Send TS packets of a flow, as (elementary-stream bytes, packet), in datagrams; FMT 1 puts an RTP header before each. -/
def State.pushTs (s : State) (f ts pic : Nat) (hold last : Bool) (ps : List (Nat × List Byte)) : State :=
  let ds := datagrams (s.rd (F.PKT_FLOWf_SIZE_TS_PER f)) ps.length ps
  let n := ds.length
  (ds.zipIdx).foldl (fun s ((es, b), k) =>
    let end_ := last && k + 1 == n
    if s.flowFmt f = 1 then
      let x := s.outFlow f
      let s := s.setOutFlow f { x with seq := (x.seq + 1) % 2 ^ 32 }
      s.pushPkt f ⟨es * 8, s.flowRate f, s.rtpHeader f x.seq ts end_ ++ b, hold, end_, pic, s.ptpT⟩
    else s.pushPkt f ⟨es * 8, s.flowRate f, b, hold, end_, pic, s.ptpT⟩) s

/-- R312, R314: PAT and PMT of a flow; they do not count as elementary stream. -/
def State.sendPsi (s : State) (f codec : Nat) : State :=
  let x := s.outFlow f
  let pmt := s.rd (F.PKT_FLOWf_TS_PMT_PID f)
  let a := tsPackets 0 x.ccPat true (x.disc.contains 0) (s.patBytes f)
  let b := tsPackets pmt x.ccPmt true (x.disc.contains pmt) (s.pmtBytes f codec)
  let s := s.setOutFlow f { x with disc := x.disc.filter fun k => k != 0 && k != pmt, ccPat := (x.ccPat + a.length) % 16, ccPmt := (x.ccPmt + b.length) % 16 }
  s.pushTs f (s.ptpT * 9 / 100000) 0 false false ((a ++ b).map fun (_, p) => (0, p))

/-- R312: a packet with a PCR alone: the 27 MHz count of the PTP clock, which the MAC writes again as the frame departs. -/
def State.sendPcr (s : State) (f : Nat) : State :=
  let pid := s.rd (F.PKT_FLOWf_TS_VPID f)
  let x := s.outFlow f
  let p := tsPacket pid false (x.disc.contains pid) ((x.cc + 15) % 16) (some (s.ptpT * 27 / 1000)) []
  let s := s.setOutFlow f { x with disc := x.disc.filter (· != pid) }
  s.pushTs f (s.ptpT * 9 / 100000) 0 false false [(0, p)]

/-- The codec of a stream id. -/
def State.sidCodec (s : State) (sid : Nat) : Nat := match s.driver sid with | some (d, i) => s.strCodec d i | none => 0

/-- Whether a flow carries TS and is enabled. -/
def State.tsFlow (s : State) (f : Nat) : Bool := s.flowOn f && decide (s.flowFmt f ≤ 1)

/-- TS_PSI_TIMER (R312): 100 ms since a TS flow's last PAT and PMT. -/
def execTsPsiTimer (f : Fin 2048) (s : State) : Out :=
  .next (s.when (s.tsFlow f) fun s => s.sendPsi f (s.sidCodec (s.flowStr f)))

/-- TS_PCR_TIMER (R312): 40 ms since a TS flow's last PCR. -/
def execTsPcrTimer (f : Fin 2048) (s : State) : Out := .next (s.when (s.tsFlow f) fun s => s.sendPcr f)

end Sys2Proof.Machine
end

