-- ==== Sys2Proof/Machine/Output.lean ====
section
/-!
DEFINITION. Sys2Proof/Machine/Output.lean: rows at their handover stamps (R49, R225, R239, R281, R284), hold pictures (R325 to
R329), the timing wheel (R314, R315), queue sampling (R323), and the checks of flows (R330, R333).
-/
namespace Sys2Proof.Machine

/-! ## The packetiser's streams -/

def State.pkt (s : State) (sid : Nat) : PktStr := mapGet (fun _ => PktStr.init) s.enc.pkts sid
def State.setPkt (s : State) (sid : Nat) (x : PktStr) : State :=
  { s with enc := { s.enc with pkts := mapSet (fun _ => PktStr.init) s.enc.pkts sid x } }

/-- R325: 0 OFF, 1 NORMAL, 2 COMPLETING, 3 HOLDING. -/
def State.pktState (s : State) (sid : Nat) : Nat := s.rd (F.PKT_STRs_STATUS_STATE sid)
def State.setPktState (s : State) (sid v : Nat) : State := s.wr (F.PKT_STRs_STATUS_STATE sid) v
def State.pktGood (s : State) (sid : Nat) : Bool := s.on (F.PKT_STRs_STATUS_GOOD sid)

/-- The treatment of a picture: none before its row 0 is due, 0 sent, 1 completed, 2 held. -/
def PktStr.mode (x : PktStr) (num : Nat) : Option Nat := (x.modes.find? (·.1 == num)).map (·.2)
def PktStr.setMode (x : PktStr) (num m : Nat) : PktStr := { x with modes := ((num, m) :: x.modes.filter (·.1 != num)).take 8 }

/-- R328: the cursor at a slot's start: the context's copy where a pipeline codes the slot, else the counters advance as R223
says and REF0_PIC names the held slot. -/
def State.cursorStart (s : State) (d i : Nat) : State :=
  let sid := s.strId d i
  if s.driver sid ≠ some (d, i) then s
  else match (s.encSt d i).pics.reverse with
    | p :: _ =>
      let x := s.pkt sid
      if p.coded then s.setPkt sid { x with cursor := (s.encSt d i).ctx }
      else
        let w := fun k => x.cursor.getD k 0
        let ws := (List.range 16).map w
        let ws := (ws.set 1 ((p.num + 1) % 2 ^ 32)).set 2 (nextOrder (s.strCodec d i) (w 2))
        let ws := if s.strCodec d i = 3 ∨ w 6 / 2 ^ 11 % 2 = 0 then ws else ws.set 6 (w 6 % 65536 + p.num % 65536 * 65536)
        s.setPkt sid { x with cursor := ws }
    | [] => s

/-- R223, R328: the slots of composition slot k of crown d begin. -/
def State.slotsStart (s : State) (d k frame field : Nat) : State :=
  s.forRange 8 fun e s =>
    let n := (s.encSt d (k * 8 + e)).pics.length
    let s := s.slotBegins d (k * 8 + e) frame field
    if n < (s.encSt d (k * 8 + e)).pics.length then s.cursorStart d (k * 8 + e) else s

/-- R352, R370: whether a slot of this side of a stream is the packetiser's: the side stands for the stream, or it was switched
away from after this picture. -/
def State.sends (s : State) (d i : Nat) (p : PicSt) : Bool :=
  s.driver (s.strId d i) == some (d, i) || (match (s.encSt d i).upto with
    | some n => decide (0 < (n + 2 ^ 32 - p.num) % 2 ^ 32 ∧ (n + 2 ^ 32 - p.num) % 2 ^ 32 < 2 ^ 31)
    | none => false)

/-! ## Row arrival -/

/-- R313: row q of picture `num`: whether all its tile parts have arrived, and its units in tile order. -/
def PktStr.rowParts (x : PktStr) (num q j : Nat) : Option (Nat × RowPart) :=
  x.parts.find? fun (_, r) => r.pic == num && r.row == q && r.tile.val == j
def PktStr.rowHere (x : PktStr) (num q n : Nat) : Bool := (List.range n).all fun j => (x.rowParts num q j).isSome
def PktStr.rowUnits (x : PktStr) (num q n : Nat) : List (List Byte) :=
  (List.range n).flatMap fun j => match x.rowParts num q j with | some (_, r) => r.units | none => []

/-- R325: a row that came too late is discarded and counts once. -/
def State.rowLate (s : State) (sid num q : Nat) : State :=
  let x := s.pkt sid
  if x.late.contains (num, q) then s
  else (s.setPkt sid { x with late := ((num, q) :: x.late).take 64 }).inc (F.PKT_STRs_CNT_B_LATE_ROWS sid)

/-- R313, R325: a tile part of a coding row arrives: late in or after the cycle in which the row's handover stamp fires, for a picture
already completed or held, or from a failed side of a package pair (R355). -/
def State.rowArrives (s : State) (d i : Nat) (r : RowPart) : State :=
  let sid := s.strId d i
  let x := s.pkt sid
  if (s.slotSides d (i / 8)).any fun (n, sd) => !s.pairTwin n && s.role n sd == 5 then s.rowLate sid r.pic r.row
  else match x.mode r.pic with
  | some 1 | some 2 => s.rowLate sid r.pic r.row
  | _ =>
    match (s.encSt d i).pics.find? fun p => p.num == r.pic with
    | some p =>
      if p.coded ∧ !p.lost ∧ p.row ≤ r.row ∧ r.row < s.strRows d i ∧ r.tile < s.strN d i then
        if s.reachedOn (s.chTl (s.strChan d i)) (s.rowDue d i p r.row) then s.rowLate sid r.pic r.row
        else s.setPkt sid { x with parts := x.parts.filter (fun (_, y) => y.pic != r.pic || y.row != r.row || y.tile != r.tile) ++ [(s.chUnits (s.strChan d i), r)] }
      else s
    | none => s

/-- ROW_ARRIVAL (R313). -/
def execRowArrival (d : Fin 8) (i : Fin 128) (x : RowPart) (s : State) : Out := .next (s.when (s.strOn d i || s.encState d i != 0) fun s => s.rowArrives d i x)

/-! ## The treatment of a row -/

def State.episode (s : State) (sid num c st : Nat) : State :=
  ((s.setPktState sid st).inc (F.PKT_STRs_CNT_A_EPISODES sid)).event pPkt 0x6C03 sid num st (some (s.chTl c))

/-- R325: how the row at its handover is treated: 0 sent, 1 completed, 2 held, 3 the packetiser is OFF for the stream. -/
def State.rowMode (s : State) (d i : Nat) (p : PicSt) (q : Nat) (onTime : Bool) : State × Nat :=
  let sid := s.strId d i
  let st := s.pktState sid
  let c := s.strChan d i
  if st = 0 ∨ !s.sends d i p then (s, 3)
  else
    let x := s.pkt sid
    let set := fun (s : State) m => (s.setPkt sid ({ s.pkt sid with whole := m == 0 }.setMode p.num m), m)
    match x.mode p.num with
    | some 0 =>
      if onTime then (s, 0)
      else ((s.episode sid p.num c 2).setPkt sid ({ x with whole := false, cutFrom := [(p.num, q)] }.setMode p.num 1), 1)
    | some m => (s, m)
    | none =>
      if q = 0 ∨ st = 3 then
        if onTime ∧ q = 0 ∧ (st ≠ 3 ∨ s.refreshKind d i p.kind) then set (s.setPktState sid 1) 0
        else
          set (if st = 3 then s.inc (F.PKT_STRs_CNT_A_HOLDS sid) else s.episode sid p.num c 3) 2
      else if onTime then set s 0
      else set (s.episode sid p.num c 2) 1

/-! ## Sending -/

/-- R312: the PTS of a slot: 90 kHz count of the PTP clock at the wire deadline of its last coding row. -/
def State.slotPts (s : State) (d i : Nat) (p : PicSt) : Nat :=
  let c := s.strChan d i
  let last := s.rowLastLine d i p.field (s.strRows d i - 1)
  let u := s.wireDeadline c p.frame last - s.linePos c p.frame (p.field * (s.chHeight c / 2))
  let ns := u * (if s.tlDrop (s.chTl c) then 1001 else 1000) * 10 ^ 6 / (s.tpf (s.chTl c) * 4096 * max 1 (s.tlBase (s.chTl c)))
  (p.startNs + ns) * 9 / 100000

/-- R311: the RTP timestamp of a slot. -/
def PicSt.rtpTs (p : PicSt) : Nat := p.startNs * 9 / 100000 % 2 ^ 32

/-- Start codes of a byte stream (R312). -/
def annexB (codec : Nat) (us : List (List Byte)) : List Byte := us.flatMap fun u => (if codec = 3 then [0, 0, 1] else [0, 0, 0, 1]) ++ u

/-- R309, R313: one coding row's video packets on flow f. -/
def State.sendRow (s : State) (d i f : Nat) (p : PicSt) (q : Nat) (hold last : Bool) (us : List (List Byte)) : State :=
  let fmt := s.flowFmt f
  let mtu := s.rd (F.PKT_FLOWf_SIZE_MTU f)
  let n := us.length
  if us = [] ∨ fmt = 5 then s
  else if fmt ≤ 1 then
    let pid := s.rd (F.PKT_FLOWf_TS_VPID f)
    let codec := s.strCodec d i
    let hd := if q = 0 then pesHeader (if codec = 3 then 0xBD else 0xE0) 0 (s.slotPts d i p) else []
    let x := s.outFlow f
    let ps := tsPackets pid x.cc (q == 0) (x.disc.contains pid) (hd ++ annexB codec us)
    let s := s.setOutFlow f { x with disc := x.disc.filter (· != pid), cc := (x.cc + ps.length) % 16 }
    s.pushTs f p.rtpTs p.num hold last (match ps with | (k, b) :: t => (k - hd.length, b) :: t | [] => [])
  else
    let bs := us.zipIdx.flatMap fun (u, k) =>
      let end_ := last && k + 1 == n
      if fmt = 4 then
        let field := if s.chInterlaced (s.strChan d i) then 2 + p.field else 0
        let sep := if q = 0 then (if k = 0 ∧ 1 < n then 0x7FF else 0) else q
        xsPackets mtu field (p.num % 32) sep end_ u
      else nalPackets fmt mtu end_ u
    s.pushRtp f p.rtpTs p.num hold last bs

/-- R313: the ANC packets of a channel frame that belong to coding row q of a slot: those outside the picture's lines go with
its first or last row. -/
def State.rowAnc (s : State) (d i : Nat) (p : PicSt) (q : Nat) : List AncPkt :=
  let c := s.strChan d i
  let rows := s.strRows d i
  let intl := s.chInterlaced c
  let lo := if q = 0 then (if intl then p.field * (s.chHeight c / 2) else 0) else s.rowLastLine d i p.field (q - 1) + 1
  let hi := if q + 1 = rows ∧ !(intl && p.field == 0) then 2 ^ 11 else s.rowLastLine d i p.field q
  ((s.ingCh c).anc.filter fun (k, a) => k == p.frame && decide (lo ≤ a.line ∧ a.line ≤ hi)).map (·.2)

/-- R309, R312, R313: the ANC packets of a row on flow f; in TS the packets of one picture are one PES packet. -/
def State.sendAnc (s : State) (d i f : Nat) (p : PicSt) (q : Nat) (last : Bool) : State :=
  let as := s.rowAnc d i p q
  if s.flowFmt f = 5 then
    let field := if s.chInterlaced (s.strChan d i) then 2 + p.field else 0
    s.pushRtp f p.rtpTs p.num false last (ancPackets field last as)
  else if s.flowFmt f ≤ 1 ∧ s.on (F.PKT_FLOWf_TS_ANC f) ∧ as ≠ [] then
    let body := as.flatMap fun a => packBits ([(6, 0), (1, bit a.c), (11, a.line), (12, a.hoff)] ++ ancBits a)
    let x := s.outFlow f
    let pid := s.rd (F.PKT_FLOWf_TS_VPID f) + 1
    let first := x.ancPic != some p.num
    let ps := tsPackets pid x.ccAnc first (x.disc.contains pid) ((if first then pesHeader 0xBD 0 (s.slotPts d i p) else []) ++ body)
    (s.setOutFlow f { x with disc := x.disc.filter (· != pid), ccAnc := (x.ccAnc + ps.length) % 16, ancPic := some p.num }).pushTs f p.rtpTs p.num false false (ps.map fun (_, b) => (0, b))
  else s

/-- Units as far as a bound in bits carries. -/
def boundUnits : Nat → List (List Byte) → List (List Byte)
  | _, [] => []
  | n, u :: us => if u.length * 8 ≤ n then u :: boundUnits (n - u.length * 8) us else []

/-- R326, R327: the syntax of row q of a completed picture, in floor mode and of the picture's kind, or of a held one, every unit of which is
skipped. A hold of fields refers to the slot before the last, which has its parity. -/
def State.rowSyntax (s : State) (d i : Nat) (p : PicSt) (q : Nat) (hold : Bool) : RowSyntax :=
  let codec := s.strCodec d i
  let kind := if hold then 0 else p.kind
  let back := fun (k : Nat) => (p.num + 2 ^ 32 - k) % 2 ^ 32
  let intl := s.chInterlaced (s.strChan d i)
  let two := (s.asOf p).on (F.ENC_STRi_GOP_NREF d i)
  let near := if intl ∧ hold then [back 2] else if kind = 0 then [back 1] else []
  let units := ((List.range (s.strN d i)).flatMap fun j => (s.ctuRows d i q).map fun r => s.rowUnits d i j r).sum
  ⟨codec, s.strId d i, p.num, p.order, p.idr, q, nalOf codec kind, near,
    (if two then [back 1, back 2].filter (!near.contains ·) else []) ++ (match (s.encSt d i).ltr with | some r => [r.pic] | none => []),
    false, false, false, codec != 2, if hold then 0 else quantOf codec (qpTop codec),
    if hold then (if codec = 2 then .pSkip else .skipMerge0) else floorUnit codec (s.refreshKind d i kind), units,
    if codec < 3 then some (s.picTiming d i p) else none⟩

/-- R284, R326, R327: the units that entropy coding makes of it, which never exceed the floor bound of the row. -/
def State.standUnits (s : State) (d i : Nat) (p : PicSt) (q : Nat) (hold : Bool) : List (List Byte) :=
  let kind := if hold then 0 else p.kind
  boundUnits (((List.range (s.strN d i)).map fun j => s.floorRow d i j kind q).sum) (Config.rowBytes (s.rowSyntax d i p q hold))

/-- R326, R327: the units of row q of a completed (1) or held (2) picture. -/
def State.standIn (s : State) (d i : Nat) (p : PicSt) (q m : Nat) : List (List Byte) :=
  let sid := s.strId d i
  let x := s.pkt sid
  match s.strCodec d i with
  | 4 => mapGet (fun _ => []) x.good (p.field * 512 + q)
  | 3 =>
    -- temporal delimiter, then a frame header with show_existing_frame = 1 naming the slot of the last good frame
    if m = 2 then (if q = 0 then [[0x12, 0x00], [0x1A, 0x01, BitVec.ofNat 8 (0x88 + x.goodSlot % 8 * 16)]] else [])
    else s.standUnits d i p q false
  | _ => s.standUnits d i p q (m == 2)

/-- A number of at most k groups of 7 bits in k bytes of leb128. -/
def leb128 (v : Nat) : Nat → List Byte
  | 0 => []
  | k + 1 => BitVec.ofNat 8 (v % 128 + if k = 0 then 0 else 128) :: leb128 (v / 128) k

/-- R274: the padding OBU of n bytes: header, size, and padding that ends with a trailing bit. -/
def paddingObu (n : Nat) : List Byte :=
  let k := ((List.range 5).find? fun k => decide (n - 2 - k < 128 ^ (k + 1))).getD 4 + 1
  if n = 0 then [] else if n = 1 then [0x78] else
    let len := n - 1 - k
    0x7A :: leb128 len k ++ (if len = 0 then [] else List.replicate (len - 1) 0 ++ [0x80])

/-- R274, R313: a row's units with its filler: a filler NAL unit, a padding OBU, or zero bytes that pad the JPEG XS slice
(notes/assumptions/62.md). -/
def addFiller (codec bits : Nat) (us : List (List Byte)) : List (List Byte) :=
  let n := bits / 8
  let nal := fun (hd : List Byte) => us ++ [hd.take n ++ List.replicate (n - 1 - min n hd.length) 0xFF ++ (if hd.length < n then [0x80] else [])]
  if n = 0 then us
  else match codec with
    | 0 => nal [0x4C, 0x01]
    | 1 => nal [0x00, 0xC9]
    | 2 => nal [0x0C]
    | 3 => us ++ [paddingObu n]
    | _ => us.dropLast ++ [us.getLast?.getD [] ++ List.replicate n 0]

/-- R325, R327: the packets of row q of a slot on every flow of its stream. -/
def State.sendSlotRow (s : State) (d i : Nat) (p : PicSt) (q m : Nat) (units : List (List Byte)) : State :=
  let sid := s.strId d i
  let lastRow := q + 1 == s.strRows d i
  let us := if m = 0 then units else if s.pktGood sid then s.standIn d i p q m else []
  let last := if m = 2 ∧ s.strCodec d i = 3 then q == 0 else lastRow
  (s.streamFlows sid).foldl (fun s f => (s.sendRow d i f p q (m != 0) last us).sendAnc d i f p q lastRow) s

/-! ## The ledger at a handover -/

/-- R272, R273: LEDG_STRi_FILL after a handover of `bits` at an absolute line. -/
def State.fillStep (s : State) (d i line bits : Nat) : State :=
  let e := s.encSt d i
  let q := s.ledQ d i
  let u := e.fill - s.ledRate d i * (line - e.fillAt) * 4004 * s.strW d i + bits * q
  (s.setEncSt d i { e with fill := u, fillAt := line }).wr (F.LEDG_STRi_FILL_BITS d i) (s.toBits d i u)

/-- The CTU rows of coding row q that column j has closed. -/
def State.ledRows (s : State) (d i : Nat) (p : PicSt) (j q : Nat) : List (Nat × LedRow) :=
  (s.ctuRows d i q).filterMap fun r => ((p.col j).rows[r]?).map fun x => (r, x)
def PicSt.fillerOf (p : PicSt) (j q : Nat) : Nat := ((p.filler.filter fun (k, _) => k == q * 4 + j).map (·.2)).sum

/-- R284: what a whole held slot is charged in column j: for JPEG XS the budget of the picture repeated, the last complete one of the same
field; with none yet, RATE over a slot (notes/assumptions/141.md). -/
def State.holdTotal (s : State) (d i : Nat) (p : PicSt) (j : Nat) : Nat :=
  if s.strCodec d i = 4 then
    match (s.encSt d i).bud.find? (·.1 == p.field) with
    | some (_, bs) => bs.getD j 0
    | none => s.ledRate d i * 4004 * s.tileW d i j / max 1 (s.picRate d i * s.strW d i)
  else s.fpic d i j 0

/-- R284: the charge of row q of a held or abandoned slot, and of the first such row, in column j. -/
def State.holdCharge (s : State) (d i : Nat) (p : PicSt) (j q : Nat) : Nat :=
  if p.charged then s.floorRow d i j 0 q
  else
    s.holdTotal d i p j - ((List.range (s.strRows d i)).map fun k => if q < k then s.floorRow d i j 0 k else 0).sum

/-- R278: bits that columns have handed over or been charged. -/
def PicSt.pay (p : PicSt) (cs : List Nat) : PicSt :=
  { p with paid := cs.zipIdx.foldl (fun m (v, j) => mapSet (fun _ => 0) m j (mapGet (fun _ => 0) m j + v)) p.paid }

/-- R284: the slot is charged in place of row q; what its columns had accepted for rows from here on is taken back. -/
def State.chargeRow (s : State) (d i : Nat) (p : PicSt) (q : Nat) : State :=
  let line := s.handLine d i p q
  let cs := (List.range (s.strN d i)).map fun j => s.holdCharge d i p j q
  let s := if p.charged then s else s.inc (F.LEDG_STRi_CNT_B_HELD d i)
  let s := s.forRange (s.strN d i) fun j s =>
    let c := p.col j
    let gone := if p.charged ∨ !p.coded then 0
      else ((List.range (s.strRows d i)).map fun k => if q ≤ k then ((s.ledRows d i p j k).map (·.2.bits)).sum + p.fillerOf j k else 0).sum + c.rowBits
    s.setFill d i j (s.fillAt d i j line - gone * s.ledQ d i + cs.getD j 0 * s.ledQ d i) line
  let s := s.fillStep d i line cs.sum
  match (s.encSt d i).pics.find? (·.num == p.num) with
  | some p => s.setPic d i (({ p with charged := true } : PicSt).pay cs)
  | none => s

/-- R265: the margin of a row, in 1/16 channel line: its handover less its arrival. -/
def State.rowMargin (s : State) (d i : Nat) (p : PicSt) (q : Nat) (r : Option (Nat × RowPart)) : Int :=
  let c := s.strChan d i
  let due := s.handover c p.frame (s.rowLastLine d i p.field q)
  let line := max 1 (s.linePos c p.frame 1 - s.linePos c p.frame 0)
  match r with
  | some (u, _) => ((due : Int) - u) * 16 / line
  | none => 0

/-- R239, R274, R281, R264: an on-time row is handed over. -/
def State.handGood (s : State) (d i : Nat) (p : PicSt) (q : Nat) : State × List (List Byte) :=
  let sid := s.strId d i
  let n := s.strN d i
  let x := s.pkt sid
  let fl := ((List.range n).map fun j => p.fillerOf j q).sum
  let rows := fun k => (List.range n).flatMap fun j => s.ledRows d i p j k
  let first := (rows q).find? fun (_, r) => r.floored
  let s := (s.strPipes d i).foldl (fun s k => s.incWrap (F.ENC_PIPEp_CNT_ROWS_ROWS d k)) s
  let s := s.wr (F.LEDG_STRi_FILLER_BYTES d i) (s.rd (F.LEDG_STRi_FILLER_BYTES d i) + fl / 8)
  let s := match first with
    | some (r, _) =>
      if (List.range q).any fun k => (rows k).any fun (_, y) => y.floored then s
      else s.event (pLedg d (s.rd (F.ENC_STRi_CFG_PIPE_FIRST d i))) 0x4C01 sid p.num r (some (s.chTl (s.strChan d i)))
    | none => s
  let s := s.forRange n fun j s =>
    (s.ctuRows d i q).foldl (fun s r => s.putSummary d i p j r (s.rowMargin d i p q (x.rowParts p.num q j))) s
  let bits := ((rows q).map (·.2.bits)).sum + fl
  let paid := (List.range n).map fun j => ((s.ledRows d i p j q).map (·.2.bits)).sum
  let s := match (s.encSt d i).pics.find? (·.num == p.num) with | some p => s.setPic d i (p.pay paid) | none => s
  (s.fillStep d i (s.handLine d i p q) bits, addFiller (s.strCodec d i) fl (x.rowUnits p.num q n))

/-- R239, R225: a row of a coded picture misses its stamp: the picture is abandoned from that row. -/
def State.rowMissed (s : State) (d i : Nat) (p : PicSt) (q : Nat) : State :=
  let s := (s.inc (F.ENC_STRi_CNT_A_MISSED d i)).event (s.pStr d i) 0x3C01 (s.strId d i) p.num (q % 65536) (some (s.chTl (s.strChan d i)))
  let s := s.setEncSt d i { s.encSt d i with missRun := (s.encSt d i).missRun + 1 }
  s.abandon d i p.num

/-! ## The end of a slot -/

/-- R278: a slot is past: each column's BANK takes AVG over the slot less the bits it handed over or was charged. -/
def State.bankSlot (s : State) (d i : Nat) (p : PicSt) : State :=
  let e := s.encSt d i
  let avg := (s.asOf p).ledAvg d i
  let banks := (List.range (s.strN d i)).foldl (fun m j =>
    let lim : Int := s.share d i j avg
    let slot : Int := (avg * 4004 * s.tileW d i j / max 1 (s.picRate d i * s.strW d i) : Nat)
    let b := mapGet (fun _ => (0 : Int)) m j + slot - (mapGet (fun _ => 0) p.paid j : Nat)
    mapSet (fun _ => (0 : Int)) m j (max (-lim) (min b lim))) e.banks
  s.setEncSt d i { e with banks := banks }

/-- R279, R282, R284: what the ledger keeps of a complete picture. -/
def State.ledDone (s : State) (d i : Nat) (p : PicSt) : State :=
  let n := s.strN d i
  let e := s.encSt d i
  let codec := s.strCodec d i
  let rows := (List.range n).flatMap fun j => ((p.col j).rows.zipIdx).map fun (r, k) => (k * 4 + j, (r, ((s.rowBlks d i p j k).map fun (x : Nat × BlkRec) => x.2.satd).sum))
  let h := rows.foldl (fun m (k, (r, satd)) => mapSet (fun _ => (0, 0, 0)) m k (r.bits, r.qpMean codec, satd)) []
  let bits := (rows.map (·.2.1.bits)).sum
  let qs := rows.map (·.2.1.qpMean codec)
  let e := if s.refreshKind d i p.kind then { e with histI := h } else { e with histP := h }
  let s := s.setEncSt d i { e with prev := p.mot, missRun := 0, bud := (p.field, p.cols.map (·.pb)) :: e.bud.filter (·.1 != p.field) }
  (s.wr (F.LEDG_STRi_PBITS_BITS d i) bits).wr (F.LEDG_STRi_STATUS_QP d i) (quot qs.sum (4 * max 1 qs.length))

/-- R325, R329: the packetiser after a slot's last handover. -/
def State.pktDone (s : State) (d i : Nat) (p : PicSt) : State :=
  let sid := s.strId d i
  if !s.sends d i p then s
  else
    let x := s.pkt sid
    let parts := x.parts.filter fun (_, r) => r.pic != p.num
    let good := x.mode p.num == some 0 && x.whole
    let keep := x.good.filter fun (k, _) => k / 512 != p.field
    let slices := if good ∧ s.strCodec d i = 4 then x.building.foldl (fun m (k, us) => mapSet (fun _ => []) m (p.field * 512 + k) us) keep else x.good
    let s := s.setPkt sid { x with parts := (parts.reverse.take 64).reverse, building := [], good := slices
                                   goodSlot := if good then Config.ctxWord d i 8 p.num % 8 else x.goodSlot }
    let s := if good ∧ s.pktState sid ≠ 0 then s.wr (F.PKT_STRs_STATUS_GOOD sid) 1 else s
    let s := if s.pktState sid = 2 then s.setPktState sid 3 else s
    if (s.streamFlows sid).any s.flowOn then s
    else
      let s := (s.streamFlows sid).foldl (fun s f => s.setOutFlow f { s.outFlow f with ending := false }) s
      (s.setPktState sid 0).setPkt sid PktStr.init

/-- The last row of a slot has passed its stamp. -/
def State.slotDone (s : State) (d i : Nat) (p : PicSt) : State :=
  let s := if p.coded ∧ !p.lost then (((s.picDone d i p).ledDone d i p).putHist d i p) else s
  let s := s.bankSlot d i p
  let e := s.encSt d i
  let s := ((s.setEncSt d i { e with pics := e.pics.filter (·.num != p.num) }).pktDone d i p).showFlooring d i
  if s.encState d i = 3 ∧ (s.encSt d i).pics = [] then s.encOff d i else s

/-- R49, R325: the oldest coding row of stream i of crown d that is due. -/
def State.handRow (s : State) (d i : Nat) : State :=
  match (s.encSt d i).pics with
  | [] => s
  | p :: _ =>
    let q := p.row
    let sid := s.strId d i
    let onTime := p.coded && !p.lost && (s.pkt sid).rowHere p.num q (s.strN d i)
    let (s, m) := s.rowMode d i p q onTime
    let good := onTime && (m == 0 || m == 3)
    let s := if onTime ∧ !good then s.inc (F.PKT_STRs_CNT_B_LATE_ROWS sid) else s
    let (s, units) := if good then s.handGood d i p q else
      let s := if p.coded ∧ !p.lost then (if onTime then s.abandon d i p.num else s.rowMissed d i p q) else s
      (s.chargeRow d i p q, [])
    let s := if m = 1 then s.inc (F.PKT_STRs_CNT_B_COMPLETED sid) else s
    let s := if m = 3 then s else s.sendSlotRow d i p q m units
    let x := s.pkt sid
    let s := if good then s.setPkt sid { x with
        parts := x.parts.filter fun (_, r) => r.pic != p.num || r.row != q
        building := if s.strCodec d i = 4 then x.building ++ [(q, units)] else [] } else s
    match (s.encSt d i).pics.find? (·.num == p.num) with
    | none => s
    | some p =>
      let p := { p with row := q + 1 }
      let s := s.setPic d i p
      if q + 1 < s.strRows d i then s else s.slotDone d i p

/-- Whether line time has reached the handover stamp of the stream's next row. -/
def State.handDue (s : State) (d i : Nat) : Bool :=
  match (s.encSt d i).pics with
  | p :: _ => s.reachedOn (s.chTl (s.strChan d i)) (s.rowDue d i p p.row)
  | [] => false

/-! ## The timing wheel -/

/-- The UDP datagram's frame, from the destination address to the FCS. -/
def State.frameBytes (s : State) (f payload : Nat) : Nat := 14 + (if s.on (F.PKT_FLOWf_MAC_HI_TAG f) then 4 else 0) + 28 + payload + 4

/-- R309, R330: what the headers of flow f's frames hold. -/
def State.frameHead (s : State) (f : Nat) : FrameHead :=
  ⟨s.rd (F.PKT_FLOWf_MAC_LO_DA_LO f) + s.rd (F.PKT_FLOWf_MAC_HI_DA_HI f) * 2 ^ 32, Config.portMac (s.rd (F.PKT_FLOWf_CFG_MAC f)) % 2 ^ 48,
    if s.on (F.PKT_FLOWf_MAC_HI_TAG f) then some (s.rd (F.PKT_FLOWf_MAC_HI_PCP f) * 8192 + s.rd (F.PKT_FLOWf_MAC_HI_VID f)) else none,
    s.rd (F.PKT_FLOWf_RTP_DSCP f), s.rd (F.PKT_FLOWf_SRC_IP_ADDR f), s.rd (F.PKT_FLOWf_DST_IP_ADDR f), s.rd (F.PKT_FLOWf_PORTS_SPORT f), s.rd (F.PKT_FLOWf_PORTS_DPORT f)⟩

def State.pair (s : State) (n : Nat) : PairSt := mapGet (fun _ => PairSt.init) s.red.pairs n
def State.setPair (s : State) (n : Nat) (x : PairSt) : State :=
  { s with red := { s.red with pairs := mapSet (fun _ => PairSt.init) s.red.pairs n x } }

/-- R354, R358, R371: whether a packet of flow f is discarded: on the wire while its side of a twin pair is MUTED or has failed, and until
the next slot after that; everywhere while its side only keeps encoding in a drill window. -/
def State.cut (s : State) (f : Nat) (p : Pkt) : Bool × Bool :=
  let sid := s.flowStr f
  match s.driver sid with
  | none => (false, false)
  | some (d, i) =>
    let ns := ((s.slotSides d (i / 8)).map (·.1)).filter s.pairTwin
    let early := fun n => match (s.pair n).sendFrom.find? (·.1 == sid) with
      | some (_, k) => decide (0 < (k + 2 ^ 32 - p.pic) % 2 ^ 32 ∧ (k + 2 ^ 32 - p.pic) % 2 ^ 32 < 2 ^ 31)
      | none => false
    let drill := ns.any fun n => s.on (F.PAIR_n_STATUS_DRILL n) && (s.pair n).old == some 0
    (drill || ns.any (fun n => s.role n 0 == 4 || s.role n 0 == 5 || early n), drill)

/-- R315, R324: the oldest packet of flow f leaves the wheel. -/
def State.servePkt (s : State) (f : Nat) : State :=
  let x := s.outFlow f
  match x.pkts with
  | [] => s
  | p :: ps =>
    let dest := s.rd (F.PKT_FLOWf_CFG_DEST f)
    let (noWire, noHost) := s.cut f p
    let late := s.ptpT - x.e / 16
    let s := s.setOutFlow f { x with pkts := ps, e := x.e + if p.rate = 0 then 0 else quot (p.bits * 16000000) p.rate }
    let s := s.incWrap (F.PKT_FLOWf_CNT_PKTS f)
    let s := if dest = 1 ∨ noWire then s else
      let s := if 64 < late then (s.inc F.WHL_COUNT_LATE).wr F.WHL_LAG_MAX_NS (min (2 ^ 32 - 1) (max late (s.rd F.WHL_LAG_MAX_NS))) else s
      s.enqueue (s.rd (F.PKT_FLOWf_CFG_MAC f)) (s.rd (F.PKT_FLOWf_CFG_CLASS f)) ⟨f, s.frameBytes f p.payload.length, s.ptpT, false,
        frameData (s.frameHead f) p.payload, if s.flowFmt f ≤ 1 then pcrsAt (s.flowFmt f * 12) p.payload else []⟩
    let s := if dest = 0 ∨ noHost then s else
      s.putOut (s.rd (F.PKT_FLOWf_RING_RING f))
        ⟨bit p.hold * 16 + bit p.last * 32, p.payload.length + f * 65536, x.e / 16 % 2 ^ 32, p.pic, p.payload⟩
    s.armFlow f

/-- The first entry of the earliest slot up to `now`. -/
def dueEntry (now : Nat) (es : List (Nat × Nat)) : Option (Nat × Nat) :=
  es.foldl (fun b e => if e.1 ≤ now then (match b with | some x => if e.1 < x.1 then some e else some x | none => some e) else b) none

/-- R315: serve the entries of every slot up to the current one, earlier slots first, in the order of insertion. -/
def State.serveWheel (s : State) : Nat → State
  | 0 => s
  | n + 1 =>
    match dueEntry (s.ptpT / 64) s.whl.entries with
    | none => s
    | some e =>
      let s := { s with whl := { s.whl with entries := s.whl.entries.erase e } }
      let s := s.wr F.WHL_STATUS_ENTRIES s.whl.entries.length
      (if e.2 < 2048 then s.servePkt e.2 else s.portPick ((e.2 - 2048) / 8)).serveWheel n

/-- WHEEL_SLOT (R315). -/
def execWheelSlot (s : State) : Out := .next ((s.wr F.WHL_NOW_SLOT (s.ptpT / 64)).serveWheel 65536)

/-! ## Queue sampling -/

/-- R323: one sample of queue q. -/
def State.sampleQueue (s : State) (q : Nat) : State :=
  let w := s.headWait q
  let s := s.addBin q (waitBin w)
  if s.on F.WHL_SAMPLE_RING_EN then
    s.putStat (s.rd F.WHL_SAMPLE_RING) 0x3FF
      [[BitVec.ofNat 32 (queued (s.classQ q) % 2 ^ 24), BitVec.ofNat 32 (min w (2 ^ 32 - 1)), BitVec.ofNat 32 s.tstamp, BitVec.ofNat 32 (q + 5 * 2 ^ 20)]]
  else s

/-- QUEUE_SAMPLE (R323): the sampling period has passed. -/
def execQueueSample (s : State) : Out :=
  .next (s.forRange 24 fun w s => let m := s.rd (F.WHL_SMP_MASKw_MASK w); if m = 0 then s else
    s.forRange 32 fun j s => if m / 2 ^ j % 2 = 1 then s.sampleQueue (w * 32 + j) else s)

/-- R331: a write of WHL_SAMPLE. -/
def State.sampleWrite (s : State) (v : Word) : State :=
  if getBits v 0 16 = 0 ∨ !s.activeRing (getBits v 16 12) 2 then s.refuse pWheel [R.WHL_STATUS] 0x6502 R.WHL_SAMPLE
  else s.setReg R.WHL_SAMPLE (v &&& 0x1FFFFFFF)

/-! ## Flows at a commit -/

/-- R329: the hold store a JPEG XS stream reserves, in bytes. -/
def State.xsStore (s : State) (sid : Nat) : Nat :=
  match s.driver sid with
  | some (d, i) =>
    if s.strCodec d i ≠ 4 then 0
    else
      let bytes := 2 * ceilDiv (s.ledRate d i * 4004 + s.cpb d i * s.picRate d i) (8 * max 1 (s.picRate d i))
      ceilDiv bytes 4096 * 4096 * (if s.chInterlaced (s.strChan d i) then 2 else 1)
  | none => 0
def State.flowStreams (s : State) : List Nat := (List.range 768).filter fun sid => (s.streamFlows sid).any s.flowOn
def State.xsUsed (s : State) : Nat := (s.flowStreams.map s.xsStore).sum

/-- R310, R325: a commit has changed flow f: enabled, its counters start; its stream leaves OFF. Disabled, as the last of its stream
with a picture in flight, it ends with that picture. -/
def State.flowCommit (o s : State) (f : Nat) : State :=
  match o.flowOn f, s.flowOn f with
  | false, true =>
    let sid := s.flowStr f
    let x := s.outFlow f
    let s := s.setOutFlow f { x with seq := 0, cc := 0, ccAnc := 0, ccPat := 0, ccPmt := 0, ending := false, ancPic := none }
    let s := s.setReg (R.PKT_FLOWf_CNT f) 0
    if s.pktState sid = 0 then (s.setPktState sid 1).wr (F.PKT_STRs_STATUS_GOOD sid) 0 else s
  | true, false =>
    let sid := o.flowStr f
    if (s.streamFlows sid).any s.flowOn then s
    else
      let busy := match s.driver sid with
        | some (d, i) => (match (s.encSt d i).pics with | p :: _ => decide (0 < p.row) | [] => false)
        | none => false
      if busy then s.setOutFlow f { s.outFlow f with ending := true }
      else (s.setPktState sid 0).setPkt sid PktStr.init
  | _, _ => s
def State.flowsCommit (o s : State) : State :=
  let s := s.forRange 2048 fun f s => if o.reg (R.PKT_FLOWf_CFG f) = s.reg (R.PKT_FLOWf_CFG f) then s else o.flowCommit s f
  s.wr F.PKT_STATUS_XS_KIB (s.xsUsed / 1024)

/-! ## The check -/

/-- R309: whether a format carries a codec. -/
def fmtCarries (fmt codec : Nat) : Bool :=
  match fmt with | 0 => codec != 4 | 1 => codec != 4 | 2 => codec == 0 | 3 => codec == 1 | 4 => codec == 4 | 5 => true | _ => false

/-- R317: the wire rate of flow f in bit/s: its stream's RATE times a full frame's bytes over its payload. For an ANC flow, whose packets
carry no elementary stream, the stream's RATE counts too (notes/assumptions/143.md). -/
def State.wireRate (s : State) (f : Nat) : Nat :=
  match s.driver (s.flowStr f) with
  | some (d, i) =>
    let mtu := s.rd (F.PKT_FLOWf_SIZE_MTU f)
    let es := match s.flowFmt f with | 0 => s.rd (F.PKT_FLOWf_SIZE_TS_PER f) * 184 | 1 => s.rd (F.PKT_FLOWf_SIZE_TS_PER f) * 184 | 4 => mtu - 16 | 5 => mtu - 20 | _ => mtu - 15
    if es = 0 then 0 else s.ledRate d i * (s.frameBytes f mtu + 20) / es
  | none => 0

/-- R317: the flows of port m exceed its rate. -/
def State.portFull (s : State) (m : Nat) : Bool :=
  let fs := (List.range 2048).filter fun f => s.flowOn f && s.rd (F.PKT_FLOWf_CFG_DEST f) != 1 && s.rd (F.PKT_FLOWf_CFG_MAC f) == m
  decide (s.portGbps m * 10 ^ 9 < (fs.map s.wireRate).sum)

/-- R330, R333: the output rules of R141 for flow f. -/
def flowRules (o s : State) (f : Nat) : List Rule :=
  let st := [R.PKT_FLOWf_STATUS f, R.PKT_STATUS]
  let en := s.flowOn f
  let both := en && o.flowOn f
  let fmt := s.flowFmt f
  let sid := s.flowStr f
  let dest := s.rd (F.PKT_FLOWf_CFG_DEST f)
  let mac := s.rd (F.PKT_FLOWf_CFG_MAC f)
  let mtu := s.rd (F.PKT_FLOWf_SIZE_MTU f)
  let per := s.rd (F.PKT_FLOWf_SIZE_TS_PER f)
  let c := sid / 8
  let dr := (s.placements c).filter fun (d, k) => s.strOn d (k * 8 + sid % 8)
  let us := [R.PKT_FLOWf_CFG f, R.PKT_FLOWf_SIZE f, R.PKT_FLOWf_RING f, R.PKT_FLOWf_TS f] ++
    dr.flatMap fun (d, k) => [R.ENC_STRi_CFG d (k * 8 + sid % 8), R.ENC_STRi_GOP d (k * 8 + sid % 8), R.LEDG_STRi_RATE d (k * 8 + sid % 8)]
  let onEach := fun (g : Nat → Nat → Bool) => dr.any fun (d, k) => g d (k * 8 + sid % 8)
  let locked := fun (a : Nat) (m : Word) => (0x6409, both && (o.reg a &&& m) != (s.reg a &&& m))
  rulesAt (R.PKT_FLOWf_CFG f) st us
    [(0x6401, decide (5 < fmt ∨ dest = 3) || (en && onEach fun d i => !fmtCarries fmt (s.strCodec d i))),
     (0x6402, en && (dr == [] || (fmt == 5 && s.rd (F.ING_CHc_ANC_CFG_SIZE c) == 0))),
     (0x6403, en && (decide (95 < mac) || !s.on (F.LANE_ETHm_CFG_EN mac))),
     (0x6405, en && decide (dest ≠ 0) && !s.activeRing (s.rd (F.PKT_FLOWf_RING_RING f)) 3),
     (0x6406, en && decide (dest ≠ 1) && s.portFull mac),
     (0x6407, en && !o.flowOn f && decide (16 * 2 ^ 20 < s.xsUsed)),
     (0x6408, en && onEach fun d i => s.chInterlaced c && s.strCodec d i != 4 && !s.on (F.ENC_STRi_GOP_NREF d i)),
     locked (R.PKT_FLOWf_CFG f) 0xFFFFFFFE,
     (0x640A, en && onEach fun d i => decide (s.rd (F.LEDG_STRi_RATE_RATE d i) * 8000 < mtu * 8 * 1000))] ++
  rulesAt (R.PKT_FLOWf_SIZE f) st us
    [(0x6404, decide (mtu < 256 ∨ 8972 < mtu ∨ per = 0 ∨ 7 < per) || (en && decide (fmt ≤ 1) && decide (mtu < per * 188 + fmt * 12))),
     locked (R.PKT_FLOWf_SIZE f) 0xFFFFFFFF] ++
  ([R.PKT_FLOWf_DST_IP f, R.PKT_FLOWf_PORTS f, R.PKT_FLOWf_SRC_IP f, R.PKT_FLOWf_MAC_LO f, R.PKT_FLOWf_TS f, R.PKT_FLOWf_RING f].flatMap fun a =>
    rulesAt a st [a] [locked a 0xFFFFFFFF]) ++
  rulesAt (R.PKT_FLOWf_MAC_HI f) st [] [locked (R.PKT_FLOWf_MAC_HI f) 0x8FFFFFFF] ++
  rulesAt (R.PKT_FLOWf_RTP f) st [] [locked (R.PKT_FLOWf_RTP f) 0x7F]

end Sys2Proof.Machine
end

