-- ==== Sys2Proof/Machine/Reset.lean ====
section
/-!
DEFINITION. Sys2Proof/Machine/Reset.lean: the reset machinery (22_reset_power_boot_modes.md, R433 to R444): asserting over a
reach, what it takes away, release and clock-good; the queue epochs of R164; and a crown out of service (R29, R30, R434).
-/
namespace Sys2Proof.Machine

/-! ## Queue epochs -/

/-- R164, R295: the epoch of queue q of die d is revoked: its tasks end with 0xA809, and a ring that holds it drains (R107). -/
def State.queueRevoke (s : State) (d q : Nat) : State :=
  let s := s.incWrap (F.SCH_Qq_STATUS_EPOCH d q)
  let s := ((s.queueLive d q).map (·.1)).foldl (fun s k => s.stopTask d (k % 65536) 2 0xA809) s
  if d = 0 ∧ s.on (F.SCH_Qq_STATUS_RING 0 q) then
    match (List.range 4096).find? fun r => (s.ring r).queue == some q with
    | some r => s.ringRevoked r
    | none => s
  else s

/-- R164, R169: a write of SCH_Qq_CTL. -/
def State.queueCtlWrite (s : State) (d q : Nat) (v : Word) : State := if getBits v 0 1 = 1 ∧ q < queueCount d then s.queueRevoke d q else s

/-- SCH_QUEUE_REVOKE (R164): a write of 1 to SCH_Qq_CTL.REVOKE. -/
def execSchQueueRevoke (d : Fin 8) (q : Fin 32768) (s : State) : Out := .next (s.queueCtlWrite d q 1)

/-! ## A crown that the packetiser stands in for -/

/-- The composition, encode, motion and ledger registers of crown d. -/
def inKept (d a : Nat) : Bool := decide (dieBase d + 0x600000 ≤ a ∧ a < dieBase d + 0x780000)
def State.keptOf (s : State) (d : Nat) : List (Nat × Word) := mapGet (fun _ => []) s.rst.kept d
def State.setKept (s : State) (d : Nat) (ks : List (Nat × Word)) : State :=
  { s with rst := { s.rst with kept := mapSet (fun _ => []) s.rst.kept d ks } }
def State.swapIn (s : State) (d : Nat) (ks : List (Nat × Word)) : State :=
  ks.foldl (fun s (a, v) => s.setReg a v) { s with regs := mapKeep (fun a => !inKept d a) s.regs }

/-- R30: run something on crown d with the registers that the packetiser goes by. -/
def State.asKept (s : State) (d : Nat) (f : State → State) : State :=
  match s.keptOf d with
  | [] => f s
  | ks =>
    let own := mapKeep (inKept d) s.regs
    let s := f ((s.swapIn d ks).setKept d [])
    let ks := mapKeep (inKept d) s.regs
    (s.swapIn d own).setKept d ks

/-! ## Work that a reset takes away -/

/-- R152: a scheduler's reset: RUNNING tasks stop at their consumers' next safe points, every other live task ends now, and every
entry reads IDLE once its task has ended. -/
def State.resetSched (s : State) (d : Nat) : State :=
  let s := s.liveTasks d |>.foldl (fun s (k, _) =>
    let s := s.setTask d (k % 65536) { s.task d (k % 65536) with gone := true }
    s.stopTask d (k % 65536) 2 0xA809) s
  { s with sch := { s.sch with tasks := s.sch.tasks.filter fun (k, x) => k / 65536 != d || x.live } }

/-- Work of descriptors that satisfies a condition ends at once with 0xA809 and its last watermark. -/
def State.endJobs (s : State) (p : Job → Bool) : State :=
  (s.jobsWhere p).foldl (fun s k => match s.job k with
    | some j => (s.freePark (descWork j.ring j.idx)).endJob k 2 0xA809 j.wm
    | none => s) s

/-- R125: whether a pre-empted or parked task, or one in a slot, belongs to a consumer of these leaves. -/
def State.onLeaves (s : State) (d : Nat) (ls : List Nat) (x : Task) : Bool := meets (s.taskLeaves d x) ls

/-- R125, R442: work of these leaves ends with 0xA809 and its last watermark; a scheduler's reset ends its die's tasks. -/
def State.endLeafTasks (s : State) (ls : List Nat) : State :=
  let s := (List.range (s.crowns + 1)).foldl (fun s d =>
    let s := ((s.liveTasks d).filter fun (_, x) => (decide (3 ≤ x.state) || (x.state == 2 && x.pre)) && s.onLeaves d ls x).foldl
      (fun s (k, x) => s.endTask d (k % 65536) 7 2 0xA809 x.wm) s
    if ls.contains (pSch d) then s.resetSched d else s) s
  s.endJobs fun j => j.phase != .armed && meets (s.jobLeaves j) ls

/-- R125: parked and pre-empted work of the leaves of a demoted side ends with 0xA809. -/
def State.endParked (s : State) (ls : List Nat) : State :=
  let s := (List.range (s.crowns + 1)).foldl (fun s d =>
    ((s.liveTasks d).filter fun (_, x) => (x.state == 5 || (x.state == 2 && x.pre)) && s.onLeaves d ls x).foldl
      (fun s (k, x) => s.endTask d (k % 65536) 7 2 0xA809 x.wm) s) s
  s.endJobs fun j => j.phase == .parked && meets (s.jobLeaves j) ls

/-- R239: streams with a pipeline among these leaves go to HALTED. -/
def State.haltLeaves (s : State) (ls : List Nat) : State :=
  (List.range s.crowns).foldl (fun s k => s.forRange 8 fun p s =>
    if (List.range 6).any (fun h => ls.contains (mkPath [k + 1, p, h])) then s.haltPipe (k + 1) p else s) s

/-- R239: streams whose pipelines are all out of reset leave HALTED. -/
def State.unhalt (s : State) : State :=
  (List.range s.crowns).foldl (fun s k => s.forRange 128 fun i s =>
    let d := k + 1
    if s.encState d i = 4 ∧ !s.rst.needReset.contains d ∧
        !((s.strPipes d i).any fun p => (List.range 6).any fun h => s.inReset (mkPath [d, p, h])) then s.unhaltStr d i else s) s

/-- R434: the crown of a DMA, LAYER_SRC or DEC_INPUT descriptor's work. -/
def jobCrown (j : Job) : Nat :=
  let op := dOpcode j.words
  if op = 0x03 ∨ op = 0x04 ∨ op = 0x10 ∨ op = 0x20 then pathHop (dTarget j.words) 0 else 0

/-- R434: the work that crown d held ends with 0xA809 and its last watermark. -/
def State.endCrownWork (s : State) (d : Nat) : State :=
  let s := ((s.liveTasks d).map fun (k, x) => (k % 65536, x)).foldl (fun s (t, x) => s.endTask d t 7 2 0xA809 x.wm) s
  s.endJobs fun j => jobCrown j == d

/-- What a lane or module keeps is forgotten. -/
def State.dropLane (s : State) (n : Nat) : State := { s with lanes := mapKeep (· != n) s.lanes }

/-- R366: the OUT rings in use whose spill area lies on crown d go to DEGRADED. -/
def State.spillsLost (s : State) (d : Nat) : State :=
  s.forRange 4096 fun r s =>
    if s.ringKind r = 3 ∧ s.ringState r ≠ 0 ∧ s.rd (F.XLT_SPILLr_CFG_CROWN r) = d ∧ s.spillState r ≠ 2 then s.spillLost r else s

/-- R29, R30: crown d is out of service until a die reset, its module is not trained before one, and its module's leaf reports
FAULT. -/
def State.outOfService (s : State) (d : Nat) : State :=
  { s with rst := { s.rst with noTrain := if s.rst.noTrain.contains d then s.rst.noTrain else s.rst.noTrain ++ [d],
                               needReset := if s.rst.needReset.contains d then s.rst.needReset else s.rst.needReset ++ [d],
                               faults := if s.rst.faults.contains (pUcie d) then s.rst.faults else s.rst.faults ++ [pUcie d] } }

/-- R29, R239: crown d is lost: its streams halt, its work ends, and it is out of service until a die reset. -/
def State.crownLost (s : State) (d : Nat) : State :=
  ((((s.forRange 128 fun i s => s.haltStr d i).endCrownWork d).spillsLost d).wr (F.LANE_UCIk_STATUS_STATE d) 0
    |>.dropLane (100 + d)).outOfService d

/-! ## What a die reset clears -/

/-- Whether a register survives every reset except power-on (R439): recorder HEAD and TAIL, RST_CAUSE, straps. -/
def survives (d a : Nat) : Bool := a == R.REC_HEAD d || a == R.REC_TAIL d || a == R.RST_CAUSE d || a == R.BOOT_STRAPS

/-- Whether a register lies in die d's window or on its peripheral bus. -/
def onDie (d a : Nat) : Bool :=
  decide (dieBase d ≤ a ∧ a < dieBase d + 0x4000000) || decide (periphBase d ≤ a ∧ a < periphBase d + 0x100000000)

/-- Forget what the blocks of crown d hold behind their registers. -/
def State.clearCrown (s : State) (d : Nat) : State :=
  let s := { s with
    sch := { s.sch with
      tasks := mapKeep (fun k => k / 65536 != d) s.sch.tasks
      ready := mapKeep (fun k => k / 2048 != d) s.sch.ready
      delay := mapKeep (fun k => k / 8 != d) s.sch.delay
      bind := mapKeep (fun k => k / 256 != d) s.sch.bind
      usecHi := mapKeep (· != d) s.sch.usecHi
      usecBase := mapSet (fun _ => 0) s.sch.usecBase d s.cycle }
    cmp := { s.cmp with
      slots := mapKeep (fun k => k / 16 != d) s.cmp.slots
      coefs := mapKeep (fun k => k / 16384 != d) s.cmp.coefs
      luts := mapKeep (fun k => k / 2097152 != d) s.cmp.luts
      released := mapKeep (fun k => k / 1024 != d) s.cmp.released
      hold := s.cmp.hold.filter fun (k, _) => k / 1024 != d }
    pool := { s.pool with
      bufs := mapKeep (fun k => k / 2048 != d) s.pool.bufs
      busy := s.pool.busy.filter fun (k, _) => k / 65536 != d
      omitted := s.pool.omitted.filter fun k => k / 256 != d
      coarse := mapKeep (fun k => k / 2048 != d) s.pool.coarse }
    dec := mapKeep (fun k => k / 128 != d) s.dec
    hbms := mapKeep (· != d) s.hbms
    crcs := mapKeep (fun k => k / 16 != d) s.crcs
    stg := { s.stg with claims := mapKeep (fun a => !onDie d a) s.stg.claims }
    rst := { s.rst with coresUp := s.rst.coresUp.filter (· != d), faults := s.rst.faults.filter (· != mkPath [d, 15]), wdtAt := mapKeep (· != d) s.rst.wdtAt } }
  s.resetRegs fun a => onDie d a && !survives d a

/-- R439, R458: record a source in RST_CAUSE of a die. -/
def State.cause (s : State) (d src : Nat) : State := s.wr (F.RST_CAUSE_SRC d) (s.rd (F.RST_CAUSE_SRC d) ||| 2 ^ src)

/-- RST_DOM_STATUS: leaves of each die in reset, and waiting past their time (one reset domain for each leaf). -/
def State.showDoms (s : State) : State :=
  (List.range (s.crowns + 1)).foldl (fun s d =>
    let ls := s.leaves (mkPath [d])
    (s.wr (F.RST_DOM_STATUS_HELD d) (ls.filter s.inReset).length).wr (F.RST_DOM_STATUS_NOCLK d) (ls.filter s.rst.noclk.contains).length) s

/-- A RESET_EVENT record (R458). -/
def State.rstEvent (s : State) (src kind path : Nat) : State := s.event pReset 0xDC01 0xFFFF (src + kind * 16) path

/-! ## CRC engines in a reset -/

/-- The running operation of engine k of die d. -/
def State.crcOp (s : State) (d k : Nat) : Option (Nat × Nat × Nat × Nat) := mapGet (fun _ => none) s.crcs (d * 16 + k)
def State.setCrcOp (s : State) (d k : Nat) (x : Option (Nat × Nat × Nat × Nat)) : State :=
  { s with crcs := mapSet (fun _ => none) s.crcs (d * 16 + k) x }
def State.crcBusy (s : State) (d k : Nat) : Bool := s.on (F.CRC_k_STATUS_BUSY d k)

/-- STATUS of an engine: BUSY, DONE, MATCH, ERROR. -/
def State.crcStatus (s : State) (d k : Nat) (busy done mtch err : Bool) : State :=
  s.setReg (R.CRC_k_STATUS d k) ((s.reg (R.CRC_k_STATUS d k) &&& 0xFFFFFFF0) ||| BitVec.ofNat 32 (bit busy + bit done * 2 + bit mtch * 4 + bit err * 8))

/-- R418: a reset of an engine's leaf ends its operation with ERROR set and clears CLAIM. -/
def State.crcReset (s : State) (d k : Nat) : State :=
  let s := s.wr (F.CRC_k_CLAIM_CLAIM d k) 0
  if s.crcBusy d k then (s.setCrcOp d k none).crcStatus d k false false false true else s

/-- R418: the engines among some leaves. -/
def State.crcResets (s : State) (ls : List Nat) : State :=
  (List.range (s.crowns + 1)).foldl (fun s d => s.forRange 16 fun k s =>
    if ls.contains (if d = 0 then mkPath [0, 19, k] else mkPath [d, 19, k]) then s.crcReset d k else s) s

/-! ## Assert and release -/

/-- The reset source's code of a hold. -/
def holdSrc (key : Nat) : Nat := key % 8

/-- R446: a thermal trip holds its die until its sensors have cooled, whatever other resets come and go: TRIPPED shows it. -/
def State.showTrips (s : State) : State :=
  s.forRange (s.crowns + 1) fun d s => if s.rst.holds.any (·.1 == 4 + 8 * d) then s.wr (F.PWR_THERM_STATUS_TRIPPED d) 1 else s

/-- A die reset lets the module of crown d train again. -/
def State.mayTrain (s : State) (d : Nat) : State :=
  { s with rst := { s.rst with noTrain := s.rst.noTrain.filter (· != d) } }

/-- R434: die reset of crown d: lost as under R29, its registers cleared; the packetiser keeps what it goes by (R30). -/
def State.crownReset (s : State) (d src : Nat) : State :=
  let s := s.crownLost d
  let ks := mapKeep (inKept d) s.regs
  let s := if s.keptOf d = [] ∧ (List.range 128).any (fun i => s.encState d i != 0) then s.setKept d ks else s
  (((s.clearCrown d).cause d src).mayTrain d).showTrips

/-- R437, R441, R442: a source asserts over a path's reach: a whole crown, or leaves. -/
def State.assertReset (s : State) (key path : Nat) : State :=
  let ls := s.leaves path
  let s := { s with rst := { s.rst with
    holds := s.rst.holds ++ [(key, path)], relea := s.rst.relea.filter (·.1 != key)
    waiting := s.rst.waiting.filter fun q => !ls.contains q, noclk := s.rst.noclk.filter fun q => !ls.contains q } }
  let s := s.rstEvent (holdSrc key) 0 path
  let crowns := (List.range s.crowns).filter fun k => ls.contains (mkPath [k + 1, 20])
  let s := crowns.foldl (fun s k => s.crownReset (k + 1) (holdSrc key)) s
  let rest := ls.filter fun q => !(crowns.any fun k => pathHop q 0 == k + 1)
  (((s.endLeafTasks rest).haltLeaves rest).crcResets rest).showDoms

/-- R437: a source releases: leaves that no other source covers wait for clock-good. -/
def State.releaseReset (s : State) (key : Nat) : State :=
  match s.rst.holds.find? (·.1 == key) with
  | none => s
  | some (_, path) =>
    let s := { s with rst := { s.rst with holds := s.rst.holds.filter (·.1 != key), relea := s.rst.relea ++ [(key, path)] } }
    let ls := (s.leaves path).filter fun q => !s.inReset q
    { s with rst := { s.rst with waiting := s.rst.waiting ++ ls } }.showDoms

/-! ## Package reset -/

def pkgKeys : List Nat := [0, 1, 2, 3, 4, 5]

/-- R433, R439: a package reset: everything at its reset value but what survives. A crown that was out of service stays so until its
HBM controller is READY and its cores run (R30); power-on finds no crown out of service. -/
def State.packageReset (s : State) (src : Nat) : State :=
  let dies := List.range (s.crowns + 1)
  let keep := mapKeep (fun a => dies.any fun d => survives d a) s.regs
  let s := { State.reset with
    variant := s.variant, pending := s.pending, cycle := s.cycle, freeCtr := s.freeCtr, rdata := s.rdata, sent := s.sent
    regs := keep, host := { State.reset.host with mem := s.host.mem }
    recorder := { State.reset.recorder with store := s.recorder.store, copied := s.recorder.copied, groves := s.recorder.groves }
    hbm := s.hbm
    sch := { State.reset.sch with usecBase := dies.foldl (fun m d => mapSet (fun _ => 0) m d s.cycle) [] }
    rst := { State.reset.rst with
      holds := s.rst.holds.filter (fun h => (pkgKeys.contains h.1 || h.1 % 8 == 4) && h.1 != src), rstN := s.rst.rstN, perst := s.rst.perst, pkgSrc := some src
      sram := s.rst.sram
      needReset := if src = 0 then [] else s.rst.needReset
      faults := if src = 0 then [] else s.rst.faults.filter fun q => s.rst.needReset.any fun d => pUcie d == q } }
  (dies.foldl (fun s d => s.cause d src) s).showTrips

/-- A package source asserts and stays: its ball is low. -/
def State.holdPackage (s : State) (src : Nat) : State :=
  let s := s.packageReset src
  { s with rst := { s.rst with holds := s.rst.holds ++ [(src, packagePath)] } }

/-- R438, R455: with every package source released, the domains of the package wait for clock-good. -/
def State.releasePackage (s : State) (src : Nat) : State :=
  let s := { s with rst := { s.rst with holds := s.rst.holds.filter (·.1 != src) } }
  if s.rst.holds.any (fun h => pkgKeys.contains h.1) then s
  else { s with rst := { s.rst with waiting := s.leaves packagePath } }.showDoms

/-- R436, R447: the straps are latched: BOOT_SRC 4 to 7 are taken as 3 and recorded as they are. -/
def majority (xs : List Bool) : Bool := decide (xs.length < 2 * (xs.filter id).length)
def State.latchStraps (s : State) (samples : List (Fin 32)) : State :=
  let bitOf := fun k => samples.map fun x => decide (x.val / 2 ^ k % 2 = 1)
  let v := ((List.range 5).map fun k => if majority (bitOf k) then 2 ^ k else 0).sum
  let tie := (List.range 5).any fun k => ((bitOf k).filter id).length * 2 == samples.length && samples != []
  s.setReg R.BOOT_STRAPS (BitVec.ofNat 32 (v + bit tie * 32))

/-- R452: the ROM of the root starts: mode Boot; it loads, or waits for the host mailbox. -/
def State.bootStart (s : State) : State :=
  let s := s.wr F.PWR_MODE_MODE 3
  { s with rst := { s.rst with attempt := 0, twinImage := [] } }.wr (F.BOOT_STATUS_STAGE 0) 1

/-- R26, R30: the root trains module d when clocks among leaves ls have come good: every domain of the crown is out of reset, and the
crown has been through a die reset since it was lost or its training failed. -/
def State.canTrain (s : State) (ls : List Nat) (d : Nat) : Bool :=
  let own := s.leaves (mkPath [d])
  meets own ls && !(own.any s.inReset) && s.rd (F.LANE_UCIk_STATUS_STATE d) == 0 && !s.rst.noTrain.contains d

/-- R438: clocks under a path are good: the leaves that wait there leave reset; an HBM controller goes to TRAIN (R386), and the
root trains the module of a crown whose fabric is out of reset (R30). -/
def State.clockGood (s : State) (path : Nat) : State :=
  let ls := s.leaves path
  let s := { s with rst := { s.rst with waiting := s.rst.waiting.filter fun q => !ls.contains q, noclk := s.rst.noclk.filter fun q => !ls.contains q } }
  -- reaches whose leaves have all left
  let done := s.rst.relea.filter fun (_, p) => !meets (s.leaves p) s.rst.waiting
  let s := { s with rst := { s.rst with relea := s.rst.relea.filter fun x => !done.contains x } }
  let s : State := done.foldl (fun s (key, p) =>
    let s := s.rstEvent (holdSrc key) 1 p
    if holdSrc key = 6 then s.wr ⟨R.RST_GRVj_CTL (key / 8), 1, 2⟩ 0 else s) s
  let s := s.forRange s.crowns fun k s =>
    if ls.contains (mkPath [k + 1, 15]) ∧ !s.inReset (mkPath [k + 1, 15]) ∧ s.rd (F.HBM_STATUS_STATE (k + 1)) = 0 then s.wr (F.HBM_STATUS_STATE (k + 1)) 1 else s
  let s := s.forRange s.crowns fun k s =>
    if s.canTrain ls (k + 1) then s.wr (F.LANE_UCIk_STATUS_STATE (k + 1)) 1 else s
  let s := s.unhalt.showDoms
  let rootUp := !(s.rst.waiting.any fun q => pathHop q 0 == 0) && !(s.rst.holds.any fun h => pkgKeys.contains h.1)
  if s.rd F.PWR_MODE_MODE = 2 ∧ rootUp ∧ s.rd F.BOOT_STRAPS_CLK_MODE ≠ 3 then
    let s := match s.rst.pkgSrc with | some src => s.rstEvent src 1 packagePath | none => s
    ({ s with rst := { s.rst with pkgSrc := none } } : State).bootStart
  else s

end Sys2Proof.Machine
end

