-- ==== Sys2Proof/Machine/Pair.lean ====
section
/-!
DEFINITION. Sys2Proof/Machine/Pair.lean: active and standby units (17_redundancy.md): roles, failure and promotion, taking back
resources, planned switches and drills, the twin link, the witness protocol, and their checks.
-/
namespace Sys2Proof.Machine

/-! ## Pairs and their streams -/

/-- The encode streams that a side of this package carries, as (crown, index). -/
def State.sideStreams (s : State) (n sd : Nat) : List (Nat × Nat) :=
  (List.range s.crowns).flatMap fun a => (List.range 16).flatMap fun k =>
    if s.on (F.CMP_SLOTs_CFG_EN (a + 1) k) && s.sideCarries n sd (a + 1) k then
      (List.range 8).filterMap fun e => if s.strOn (a + 1) (k * 8 + e) then some (a + 1, k * 8 + e) else none
    else []

/-- R351: the decode streams of a side. -/
def State.sideDecs (s : State) (n sd : Nat) : List (Nat × Nat) :=
  let ls := s.leaves (s.sidePath n sd)
  (List.range s.crowns).flatMap fun a => if ls.contains (mkPath [a + 1, 12]) then
    (List.range 128).filterMap fun i => if s.decOn (a + 1) i then some (a + 1, i) else none else []

/-- R354: change a role, with its event; the package mode follows. -/
def State.setRole (s : State) (n sd r : Nat) : State :=
  let old := s.role n sd
  ((s.wr (roleField n sd) r).event pReferee 0x8C01 0xFFFF n (sd + old * 256 + r * 65536)).modeUpdate

def State.pairTerm (s : State) (n : Nat) : Nat := s.rd (F.PAIR_n_TERM_TERM n)
def State.setTerm (s : State) (n t : Nat) : State := s.wr (F.PAIR_n_TERM_TERM n) t
def State.pairRefuse (s : State) (n code : Nat) : State := s.refuse pReferee [R.PAIR_n_STATUS n, R.PAIR_STATUS] code (R.PAIR_n_CTL n)

/-- R20, R441: whether a side of this package is healthy. -/
def State.sideHealthy (s : State) (n sd : Nat) : Bool := s.status (s.sidePath n sd) != 4

/-- R351, R364: the standby side of a pair that may be promoted. -/
def State.eligible (s : State) (n : Nat) : Option Nat :=
  if s.on (F.PAIR_n_STATUS_MISMATCH n) then none
  else (s.localSides n).find? fun sd => s.role n sd == 1 && s.sideHealthy n sd

/-- A cycle count of milliseconds. -/
def msCycles (ms : Nat) : Nat := ms * 400000

/-! ## Witness messages going out -/

/-- R360: this package's unit id, and the key of the TAG. -/
def State.twinUnit (_ : State) : Nat := Config.unitId % 2 ^ 64

def State.witKey (s : State) : Nat := ((List.range 4).map fun k => s.rd (F.TWIN_KEY_KEY k) * 2 ^ (32 * k)).sum
def State.pairId (s : State) (n : Nat) : Nat := s.rd (F.PAIR_n_ID_ID n)

/-- R360: bytes 0 to 39 of a message. -/
def witBytes (m : WitMsg) (typ : Nat) : List Byte :=
  natBytes 4 0x47574954 ++ natBytes 1 1 ++ natBytes 1 typ ++ natBytes 2 m.pair ++ natBytes 8 m.sender ++ natBytes 4 m.term ++
    natBytes 4 m.seq ++ natBytes 4 m.lease ++ natBytes 4 m.arg ++ natBytes 4 m.stamp ++ natBytes 4 0
def witDatagram (m : WitMsg) (typ : Nat) : List Byte := witBytes m typ ++ natBytes 8 m.tag

/-- R360: a message of this package; `val` is the lease of a GRANT and ARG of the others. -/
def State.witMsg (s : State) (typ id term val : Nat) : WitMsg :=
  let m : WitMsg := ⟨id, s.twinUnit, term, s.red.txSeq, if typ = 2 then val else 0, if typ = 2 then 0 else val, s.tstamp, 0⟩
  { m with tag := macValue (natBytes 16 s.witKey) (witBytes m typ) 8 }

/-- R360, R373: the frame of a witness datagram on the witness port. The spec gives it no priority and no destination MAC address. -/
def State.witFrame (s : State) (m : WitMsg) (typ : Nat) : List Byte :=
  frameData ⟨Config.witMac % 2 ^ 48, Config.portMac (s.rd F.TWIN_CFG_WIT_MAC) % 2 ^ 48, none, 0, s.rd F.TWIN_SRC_IP_ADDR, s.rd F.TWIN_WIT_IP_ADDR,
    s.rd F.TWIN_WIT_PORT_SPORT, s.rd F.TWIN_WIT_PORT_DPORT⟩ (witDatagram m typ)

/-- R361: the next slot of the mailbox's out ring gets the message and GEN, and the host its MSI-X. -/
def State.mboxPut (s : State) (m : WitMsg) (typ : Nat) : State :=
  let i := s.rd F.TWIN_MBOX_IDX_INDEX
  let a := s.rd64 F.TWIN_MBOX_BASE_LO_ADDR F.TWIN_MBOX_BASE_HI_ADDR + i % 16 * 64
  (((s.send (.witness typ m [])).hostWrite a (witDatagram m typ ++ natBytes 1 (i / 16 + 1))).incWrap F.TWIN_MBOX_IDX_INDEX).signalVec
    (s.rd F.TWIN_MBOX_VEC_VEC)

/-- R360, R361: a message goes to the witness, through the mailbox or as a datagram, which its MAC stamps (R78). -/
def State.witOut (s : State) (m : WitMsg) (typ : Nat) : State :=
  if s.rd F.TWIN_CFG_WIT_KIND = 2 then s.mboxPut m typ else (s.stampTx (s.rd F.TWIN_CFG_WIT_MAC)).send (.witness typ m (s.witFrame m typ))

/-- R402: twin frames go round robin over the lanes that are ACTIVE: the one after the last frame's. -/
def State.nextTwinLane (s : State) : Nat :=
  (((List.range 4).map fun j => (s.red.txLane + 1 + j) % 4).find? fun l => s.rd F.TWIN_STATUS_LANES / 2 ^ l % 2 == 1).getD s.red.txLane
/-- R368, R402: a frame of the twin link is sent. -/
def State.sendTwin (s : State) (typ key : Nat) (ws : List Nat) : State :=
  ({ s with red := { s.red with txLane := s.nextTwinLane } } : State).send (.twin s.nextTwinLane typ key ws)

/-- R357, R368: a RELAY frame: the type and the message's 48 bytes, unchanged. -/
def State.relay (s : State) (m : WitMsg) (typ : Nat) : State := s.sendTwin 4 typ ((witDatagram m typ).map (·.toNat))

/-- R360: the next message of this package. -/
def State.witSend (s : State) (typ id term val : Nat) : State :=
  let s := { s with red := { s.red with txSeq := (s.red.txSeq + 1) % 2 ^ 32 } }
  s.witOut (s.witMsg typ id term val) typ

/-! ## Taking back resources -/

/-- R366: the resources of a demoted side are revoked by epoch: pool groups, crown queues, spill areas on its dies. -/
def State.takeBack (s : State) (n sd : Nat) : State :=
  let strs := s.sideStreams n sd
  let dies := ((s.leaves (s.sidePath n sd)).map pathDie).eraseDups
  let sids := strs.map fun (d, i) => s.strId d i
  let s := strs.foldl (fun s (d, i) => s.revokeObj d 1 i 0x3FF) s
  let qs := strs.flatMap fun (d, i) => (s.strPipes d i).map fun p => (d, s.rd (F.ENC_PIPEp_CFG_QUEUE d p))
  let qs := qs ++ (s.sideDecs n sd).map fun (d, _) => (d, s.rd (F.DEC_CFG_QUEUE d))
  let s := qs.eraseDups.foldl (fun s (d, q) => s.queueRevoke d q) s
  let rings := ((List.range 2048).filter fun f => s.flowOn f && s.rd (F.PKT_FLOWf_CFG_DEST f) != 0 && sids.contains (s.flowStr f)).map fun f => s.rd (F.PKT_FLOWf_RING_RING f)
  rings.eraseDups.foldl (fun s r => let d := s.rd (F.XLT_SPILLr_CFG_CROWN r)
    if d ≠ 0 ∧ dies.contains d then s.revokeObj d 2 r 0x3FF else s) s

/-- A stream of a demoted side forgets what it had in flight and waits. -/
def State.strandStream (s : State) (d i : Nat) : State :=
  let e := s.encSt d i
  let s := s.setEncSt d i { e with pics := [], refs := [], ltr := none, resume := true, graft := none }
  if s.encState d i = 2 then s.setEncState d i 1 else s

/-- R444: the referee resets a side. -/
def State.refReset (s : State) (n sd : Nat) : State :=
  let key := 7 + 8 * (n * 2 + sd)
  if s.on F.RST_CFG_REF_RESET ∧ !s.rst.holds.any (·.1 == key) then s.assertReset key (s.sidePath n sd) else s

/-- R354, R359, R366, R125: an ACTIVE or MUTED side hears a higher TERM or a fence. -/
def State.demote (s : State) (n sd : Nat) : State :=
  let strs := s.sideStreams n sd
  let s := (s.takeBack n sd).endParked (s.leaves (s.sidePath n sd))
  let s := s.setRole n sd 5
  strs.foldl (fun s (d, i) => s.strandStream d i) s

/-! ## Promotion -/

/-- R223: a counter advanced over k slots. -/
def orderAfter (codec : Nat) : Nat → Nat → Nat
  | 0, v => v
  | k + 1, v => orderAfter codec k (nextOrder codec v)

/-- R362: the slots of a stream that have started since channel frame `from`. -/
def State.slotsSince (s : State) (d i from_ : Nat) : Nat :=
  let n := s.chFrameNow (s.strChan d i) - from_
  if s.chInterlaced (s.strChan d i) then 2 * n else if s.on (F.ENC_STRi_CFG_FRDIV d i) then n / 2 else n

/-- R362: the instant 20 us ahead, in fraction units of the stream's channel. -/
def State.graftFrom (s : State) (c : Nat) : Nat :=
  let l := s.chTl c
  ((s.tl l).frame * (s.tpf l * 4096)) + ((s.tl l).acc + 8000 * s.accStep l) * (s.tpf l * 4096) / accM

/-- R284, R362: a stream of a promoted side takes over from a cursor (words, fill and the line at which it stood, slots since it, its
in-flight slots), and arms its graft. -/
def State.graftStream (s : State) (n d i : Nat) (ws : List Nat) (fill line since : Nat) (pics : List PicSt) (graft : Nat) : State :=
  let w := fun k => ws.getD k 0
  let codec := s.strCodec d i
  let stale := s.on (F.PAIR_n_STATUS_STALE n)
  let cols := (List.range (s.strN d i)).foldl (fun m j => mapSet (fun _ => (0, 0)) m j (s.share d i j fill * s.ledQ d i, line)) []
  let e := { EncSt.init with
    pic := (w 1 + since) % 2 ^ 32, order := orderAfter codec since (w 2), last := w 4
    idr := if codec = 2 then (w 3 + since + 1) % 65536 else w 3 % 65536
    first := false, pics := pics, graft := some graft, graftIdr := stale
    fill := fill * s.ledQ d i, fillAt := line, fills := cols }
  (s.setEncSt d i e).setEncState d i 1

/-- R310, R364, R365: flows of a stream continue their counters from the last flow frame; after a stale graft the first packet of each PID
of a TS flow sets discontinuity_indicator. -/
def State.flowsFrom (s : State) (sid : Nat) (stale : Bool) : State :=
  (s.streamFlows sid).foldl (fun s f =>
    let v := s.rd (F.PKT_FLOWf_TS_VPID f)
    let x := { s.outFlow f with disc := if stale then [v, v + 1, 0, s.rd (F.PKT_FLOWf_TS_PMT_PID f)] else [] }
    match s.red.flows.find? (·.1 == f) with
    | some (_, (a, b)) => s.setOutFlow f { x with seq := getBits a 16 16, cc := getBits b 0 4, ccAnc := getBits b 4 4, ccPat := getBits b 8 4, ccPmt := getBits b 12 4 }
    | none => s.setOutFlow f x) s

/-- R362, R363: side sd is promoted; with `now` it grafts at the slot that starts at this instant (R370). -/
def State.promote (s : State) (n sd : Nat) (now : Bool) : State :=
  let strs := s.sideStreams n sd
  let others := if s.pairTwin n then [] else s.sideStreams n (1 - sd)
  let s := s.setRole n sd 2
  let s := strs.foldl (fun s (d, i) =>
    let sid := s.strId d i
    let c := s.strChan d i
    let graft := if now then s.chUnits c else s.graftFrom c
    if s.pairTwin n then
      let (at_, ws) := mapGet (fun _ => ((0, []) : Nat × List Word)) s.red.cursors sid
      let ctx := ((ws.drop 2).take 16).map (·.toNat)
      (s.graftStream n d i ctx (wordAt ws 18) (s.chFrameNow c * s.chLines c) (s.slotsSince d i at_) [] graft).flowsFrom sid (s.on (F.PAIR_n_STATUS_STALE n))
    else
      match others.find? fun (d', i') => s.strId d' i' == sid with
      | some (d', i') =>
        let e := s.encSt d' i'
        let pics := if now then [] else e.pics.map fun p => { p with coded := false, lost := true, buf := none }
        s.graftStream n d i (s.pkt sid).cursor (s.toBits d' i' e.fill) e.fillAt 0 pics graft
      | none => s) s
  let x := s.pair n
  let s := s.setPair n { x with promoAt := s.cycle, left := strs.map (fun (d, i) => s.strId d i), promo := none, susp := [], seen := [] }
  (s.inc (F.PAIR_n_CNT_A_SWITCHES n)).wr (F.PAIR_n_STATUS_STALE n) 0

/-- R354: row 0 of the graft picture of a stream has been handed over; on every stream, the side is ACTIVE. -/
def State.grafted (s : State) (n sd sid : Nat) : State :=
  let x := s.pair n
  if s.role n sd ≠ 2 then s
  else
    let left := x.left.filter (· != sid)
    let s := s.setPair n { x with left := left }
    if left = [] then (s.wr (F.PAIR_n_GRAFT_US n) (min (2 ^ 32 - 1) ((s.cycle - x.promoAt) / 400))).setRole n sd 3 else s

/-! ## Failure -/

/-- R367, R370: a planned switch or drill that loses is cancelled. -/
def State.cancelPlan (s : State) (n : Nat) : State :=
  if (s.pair n).plan.isSome then (s.setPair n { s.pair n with plan := none, granted := false }).pairRefuse n 0x8006 else s

/-- R371: an open drill is aborted: the old active takes the pair back. -/
def State.abortDrill (s : State) (n : Nat) : State :=
  match (s.pair n).old with
  | some o =>
    let new := 1 - o
    let s := (s.wr (F.PAIR_n_STATUS_DRILL n) 0).inc (F.PAIR_n_CNT_B_ABORTS n)
    let s := s.setTerm n (s.pairTerm n + 1)
    let s := s.setPair n { s.pair n with old := none }
    if s.pairTwin n then (if o = 0 then s.promote n 0 false else if s.role n 0 = 2 ∨ s.role n 0 = 3 then s.setRole n 0 1 else s)
    else
      let s := if s.role n new = 2 ∨ s.role n new = 3 then (s.endParked (s.leaves (s.sidePath n new))).setRole n new 1 else s
      let s := s.promote n o false
      (s.sideStreams n new).foldl (fun s (d, i) => s.strandStream d i) s
  | none => s

/-- R354, R355, R444: a side of this package fails. -/
def State.sideFail (s : State) (n sd : Nat) : State :=
  let old := s.role n sd
  if !s.pairOn n ∨ old = 0 ∨ 5 ≤ old ∨ old = 4 then s
  else
    let s := s.setPair n { s.pair n with susp := (s.pair n).susp.filter (· != sd), seen := (s.pair n).seen.filter (· != sd) }
    let s := s.cancelPlan n
    if s.on (F.PAIR_n_STATUS_DRILL n) ∧ (s.pair n).old = some (1 - sd) ∧ old ≠ 1 then
      (((s.endParked (s.leaves (s.sidePath n sd))).setRole n sd 5).abortDrill n).refReset n sd
    else
      let s := if old = 1 then s else s.endParked (s.leaves (s.sidePath n sd))
      let s := s.setRole n sd 5
      let s := if old = 1 then s.event pReferee 0x8C03 0xFFFF n (s.pairTerm n) else s
      let strs := s.sideStreams n sd
      let s := if old = 1 then s else s.takeBack n sd
      let s := if s.pairTwin n then (if old = 1 then s else strs.foldl (fun s (d, i) => s.strandStream d i) (s.witSend 9 (s.pairId n) (s.pairTerm n) 0))
        else if old = 3 then
          match s.eligible n with
          | some o => strs.foldl (fun s (d, i) => s.strandStream d i) ((s.setTerm n (s.pairTerm n + 1)).promote n o false)
          | none => s
        else s
      s.refReset n sd

/-- R355: sides of which a leaf reports FAULT or is held in reset fail at once. -/
def State.pairScan (s : State) : State :=
  s.forRange 32 fun n s =>
    if !s.pairOn n then s
    else (s.localSides n).foldl (fun s sd =>
      let r := s.role n sd
      if (r = 1 ∨ r = 2 ∨ r = 3) ∧ !s.sideHealthy n sd then s.sideFail n sd else s) s

/-- R355: MISS_SLOTS consecutive slots of a stream each missed a row; a drill aborts at the first miss (R371). -/
def State.pairMiss (s : State) (d i : Nat) : State :=
  (s.slotSides d (i / 8)).foldl (fun s (n, sd) =>
    let m := s.rd (F.PAIR_n_CFG_MISS_SLOTS n)
    if s.on (F.PAIR_n_STATUS_DRILL n) ∧ (s.pair n).old ≠ some sd then s.abortDrill n
    else if m ≠ 0 ∧ m ≤ (s.encSt d i).missRun ∧ (s.role n sd = 2 ∨ s.role n sd = 3) then s.sideFail n sd
    else s) s

/-! ## Heartbeats of a package pair -/

/-- R355, R372: a write of PAIR_n_HB. -/
def State.hbWrite (s : State) (q : Req) (n : Nat) (v : Word) : State :=
  let on := fun sd => match q with
    | .core die _ => (s.leaves (s.sidePath n sd)).any fun l => pathDie l == die.val
    | .host => false
  [0, 1].foldl (fun s sd =>
    if getBits v sd 1 = 1 ∧ on sd = true ∧ (s.pair n).susp.contains sd ∧ !(s.pair n).seen.contains sd then s.setPair n { s.pair n with seen := (s.pair n).seen ++ [sd] } else s) s

/-- PAIR_HB (R355): a write of PAIR_n_HB by a requester. -/
def execPairHb (q : Req) (n : Fin 32) (v : Word) (s : State) : Out := .next (s.hbWrite q n v)

/-- PAIR_HB_TIMEOUT (R355): four heartbeats of a side missed in a row. -/
def execPairHbTimeout (n : Fin 32) (sd : Fin 2) (s : State) : Out :=
  .next (s.when (s.pairOn n && !s.pairTwin n && decide (1 ≤ s.role n sd ∧ s.role n sd ≤ 3) && !(s.pair n).susp.contains sd) fun s =>
    s.setPair n { s.pair n with susp := (s.pair n).susp ++ [sd.val], seen := (s.pair n).seen.filter (· != sd.val) })

/-- R355: the referee decides on a SUSPECT side. -/
def State.suspectDecide (s : State) (n sd : Nat) : State :=
  let x := s.pair n
  if !x.seen.contains sd ∨ !s.sideHealthy n sd then s.sideFail n sd
  else (s.setPair n { x with susp := x.susp.filter (· != sd), seen := x.seen.filter (· != sd) }).inc (F.PAIR_n_CNT_A_SUSPECTS n)

/-- PAIR_SUSPECT_DECIDE (R355). -/
def execPairSuspectDecide (n : Fin 32) (sd : Fin 2) (s : State) : Out :=
  .next (s.when ((s.pair n).susp.contains sd) fun s => s.suspectDecide n sd)

/-- REF_HOLD_EXPIRED (R444). -/
def execRefHoldExpired (n : Fin 32) (sd : Fin 2) (s : State) : Out := .next (s.releaseReset (7 + 8 * (n * 2 + sd)))

/-! ## Terms and leases -/

/-- The enabled twin pair with an id. -/
def State.twinPair (s : State) (id : Nat) : Option Nat := (List.range 32).find? fun n => s.pairOn n && s.pairTwin n && s.pairId n == id

/-- R359: a TERM heard: adopted when higher, with a demotion of an ACTIVE or MUTED side. -/
def State.hearTerm (s : State) (n t : Nat) : State :=
  if t ≤ s.pairTerm n then s
  else
    let r := s.role n 0
    let s := s.setTerm n t
    if r = 3 ∨ r = 4 then (s.demote n 0).refReset n 0 else s

/-- PAIR_n_LEASE_LEFT: the remaining lease in ms. -/
def State.leaseLeft (s : State) (n : Nat) : Nat := if s.role n 0 = 3 ∧ s.pairTwin n then ((s.pair n).leaseEnd - s.cycle) / 400000 else 0

/-- R59: timeline n of this package is LIVE and locked to a reference other than its own twin peer. -/
def State.leads (s : State) (n : Nat) : Bool := s.tlState n == 2 && s.target n != 11

/-- R59, R356, R368: the HEARTBEAT frame: role, TERM and remaining lease of every pair, and the state of the timelines. -/
def State.hbWords (s : State) : List Nat :=
  ((List.range 32).flatMap fun n => [s.role n 0, s.pairTerm n, s.leaseLeft n]) ++ (List.range 4).map fun n => bit (s.leads n)

/-- The twin link is up. -/
def State.twinUp (s : State) : Bool := s.on F.TWIN_CFG_EN && s.rd F.TWIN_STATUS_LINK == 2

/-- TWIN_HB_SEND (R356). -/
def execTwinHbSend (s : State) : Out := .next (s.when s.twinUp fun s => s.sendTwin 1 0 s.hbWords)

/-- R59, R494: the peer's report of its timelines is kept, and raises or clears TWIN_NOT_LIVE on ref 11. Ref 11 has one
qualifier for the device: a report unmet for any timeline that lists ref 11 disqualifies it (notes/assumptions/104.md). -/
def State.twinRef (s : State) (tls : List Bool) : State :=
  let s := ({ s with red := { s.red with peerTl := tls } } : State)
  if !s.on (F.SEL_REFk_CFG_EN 11) then s
  else
    let used := (List.range 4).filter fun n => (s.candidates n).contains 11
    let bad := used.any fun n => !(tls.getD n false)
    let out := s.refState 11 == 4 && s.rd (F.SEL_REFk_STATUS_CAUSE 11) == 8
    if bad && !out then s.disqualify 11 8 else if !bad && out then s.measure 11 false else s.reselectAll

/-- R356, R359: a HEARTBEAT frame. -/
def State.twinHeartbeat (s : State) (x : HbFrame) : State :=
  let s := ({ s with red := { s.red with misses := 0 } } : State).wr F.TWIN_STATUS_PEER_OK 1
  let s := s.forRange 32 fun n s =>
    match s.pairOn n && s.pairTwin n, x.pairs[n]? with
    | true, some (role, term, lease) =>
      let s := s.wr (F.PAIR_n_STATUS_ROLE_B n) role
      let s := if term < s.pairTerm n then s else
        s.setPair n { s.pair n with peerEnd := s.cycle + if role = 3 then msCycles lease + msCycles 1 + msCycles (s.rd (F.PAIR_n_LEASE_LEASE_MS n)) / 1000 else 0 }
      s.hearTerm n term
    | _, _ => s
  s.twinRef x.tls

/-- R368: a frame of the twin link, while it is up; one that fails its CRC-32C is dropped and counted. -/
def State.twinTake (s : State) (ok : Bool) (f : State → State) : State :=
  s.when s.twinUp fun s => if ok then f s else s.inc F.TWIN_CNT_A_CRC_ERR

/-- TWIN_HEARTBEAT (R356). -/
def execTwinHeartbeat (x : Framed HbFrame) (s : State) : Out := .next (s.twinTake x.ok fun s => s.twinHeartbeat x.body)

/-- R356: a heartbeat window passes without a valid frame. -/
def State.twinHbMiss (s : State) : State :=
  let m := s.red.misses + 1
  let s := ({ s with red := { s.red with misses := m } } : State).inc F.TWIN_CNT_A_HB_MISS
  if m ≠ 4 then s
  else
    let s := s.wr F.TWIN_STATUS_PEER_OK 0
    s.forRange 32 fun n s =>
      if !(s.pairOn n && s.pairTwin n) then s
      else if s.role n 0 = 1 then s.witSend 3 (s.pairId n) (s.pairTerm n) 0
      else if s.role n 0 = 3 then s.event pReferee 0x8C02 0xFFFF n (s.pairTerm n)
      else s

/-- TWIN_HB_MISS (R356). -/
def execTwinHbMiss (s : State) : Out := .next (s.when (s.on F.TWIN_CFG_EN) State.twinHbMiss)

/-- R357: the active sends RENEW. While the RENEW before has had no GRANT the witness counts as not reachable directly, and the message
goes through the twin link if it is up (notes/assumptions/122.md). -/
def State.renew (s : State) (n : Nat) : State :=
  let x := s.pair n
  let s := s.setPair n { x with renewAt := s.cycle, asked := true }
  if !x.asked then s.witSend 1 (s.pairId n) (s.pairTerm n) 0
  else
    let s := s.wr F.TWIN_STATUS_WIT_OK 0
    if s.twinUp then
      let s := { s with red := { s.red with txSeq := (s.red.txSeq + 1) % 2 ^ 32 } }
      s.relay (s.witMsg 1 (s.pairId n) (s.pairTerm n) 0) 1
    else s.witSend 1 (s.pairId n) (s.pairTerm n) 0

/-- LEASE_RENEW_TIMER (R357). -/
def execLeaseRenewTimer (n : Fin 32) (s : State) : Out :=
  .next (s.when (s.pairOn n && s.pairTwin n && (s.role n 0 == 3 || s.role n 0 == 4)) fun s => s.renew n)

/-- LEASE_EXPIRED (R354, R357): the lease of an ACTIVE side has ended. -/
def execLeaseExpired (n : Fin 32) (s : State) : Out :=
  .next (s.when (s.pairOn n && s.pairTwin n && s.role n 0 == 3 && decide ((s.pair n).leaseEnd ≤ s.cycle)) fun s => s.setRole n 0 4)

/-! ## Witness messages coming in -/

/-- R360: a message with a bad TAG or a SEQ that is not newer is dropped and counted. -/
def State.witOk (s : State) (typ : Nat) (m : WitMsg) : Bool :=
  m.tag == macValue (natBytes 16 s.witKey) (witBytes m typ) 8 && (match s.red.seqs.find? (·.1 == m.sender) with
    | some (_, k) => decide (0 < (m.seq + 2 ^ 32 - k) % 2 ^ 32 ∧ (m.seq + 2 ^ 32 - k) % 2 ^ 32 < 2 ^ 31)
    | none => true)
/-- R78: a datagram of the witness comes in at its MAC, which stamps it; with WIT_KIND = 2 messages come through the mailbox (R361). -/
def State.witFrameIn (s : State) : State := s.when (s.rd F.TWIN_CFG_WIT_KIND != 2) fun s => s.frameIn (s.rd F.TWIN_CFG_WIT_MAC)
def State.witTake (s : State) (typ : Nat) (m : WitMsg) (f : State → State) : State :=
  if !s.on F.TWIN_CFG_EN then s
  else if s.witOk typ m then
    f (({ s with red := { s.red with seqs := (m.sender, m.seq) :: s.red.seqs.filter (·.1 != m.sender) } } : State).wr F.TWIN_STATUS_WIT_OK 1)
  else s.inc F.TWIN_CNT_B_WIT_DROP

/-- A message for an enabled twin pair of this package, at its TERM or a higher one (R359). -/
def State.forPair (s : State) (m : WitMsg) (f : State → Nat → State) : State :=
  match s.twinPair m.pair with
  | some n => if m.term < s.pairTerm n then s else f s n
  | none => s

/-- R357: the lease of a pair. -/
def State.leaseMs (s : State) (n : Nat) : Nat := s.rd (F.PAIR_n_LEASE_LEASE_MS n)

/-- R354: a MUTED side resumes at the next slot, with a refresh picture. -/
def State.resumeSide (s : State) (n : Nat) : State :=
  let strs := s.sideStreams n 0
  let s := s.setPair n { s.pair n with sendFrom := strs.map fun (d, i) => (s.strId d i, (s.encSt d i).pic) }
  (strs.foldl (fun s (d, i) => s.setEncSt d i { s.encSt d i with resume := true }) s).setRole n 0 3

/-- R357, R354, R370: a GRANT; a standby forwards the one for its active through the twin link, and that of a planned switch's TERM, whose
lease is its own. -/
def State.witGrant (s : State) (m : WitMsg) : State :=
  s.forPair m fun s n =>
    let x := s.pair n
    let r := s.role n 0
    if x.plan.isSome ∧ m.term = s.pairTerm n + 1 then
      if r = 1 then
        let s := s.setPair n { x with granted := true, leaseEnd := x.renewAt + msCycles (min m.lease (s.leaseMs n)), asked := false }
        if s.twinUp then s.relay m 2 else s
      else s.setPair n { x with granted := true }
    else if m.term ≠ s.pairTerm n then s.hearTerm n m.term
    else if r = 3 ∨ r = 4 then
      let s := s.setPair n { x with leaseEnd := x.renewAt + msCycles (min m.lease (s.leaseMs n)), asked := false }
      if r = 4 ∧ s.cycle < (s.pair n).leaseEnd then s.resumeSide n else s
    else if r = 1 ∧ s.twinUp then s.relay m 2
    else s
/-- A message of type 2, however it comes (R360, R361). -/
def State.grantMsg (s : State) (m : WitMsg) : State := s.witTake 2 m fun s => s.witGrant m
/-- WIT_GRANT (R357). -/
def execWitGrant (m : WitMsg) (s : State) : Out := .next (s.witFrameIn.grantMsg m)

/-- R358: a PROBE is answered with the side's role. -/
def State.witProbe (s : State) (m : WitMsg) : State := s.forPair m fun s n => s.witSend 5 m.pair (s.pairTerm n) (s.role n 0)
/-- A message of type 4, however it comes (R360, R361). -/
def State.probeMsg (s : State) (m : WitMsg) : State := s.witTake 4 m fun s => s.witProbe m
/-- WIT_PROBE (R360). -/
def execWitProbe (m : WitMsg) (s : State) : Out := .next (s.witFrameIn.probeMsg m)

/-- R354: a FENCE demotes an ACTIVE or MUTED side, which sends FENCE_ACK. -/
def State.witFence (s : State) (m : WitMsg) : State :=
  s.forPair m fun s n =>
    if s.role n 0 = 3 ∨ s.role n 0 = 4 then
      let s := ((s.demote n 0).refReset n 0).witSend 7 m.pair (s.pairTerm n) 0
      if s.pairTerm n < m.term then s.setTerm n m.term else s
    else s
/-- A message of type 6, however it comes (R360, R361). -/
def State.fenceMsg (s : State) (m : WitMsg) : State := s.witTake 6 m fun s => s.witFence m
/-- WIT_FENCE (R354). -/
def execWitFence (m : WitMsg) (s : State) : Out := .next (s.witFrameIn.fenceMsg m)

/-- R358: a VERDICT: STAY sets STALE on the standby; PROMOTE takes effect once the peer's lease, as last heard, is over with its
guard, or when it is repeated. -/
def State.witVerdict (s : State) (m : WitMsg) : State :=
  s.forPair m fun s n =>
    if s.role n 0 ≠ 1 then s.hearTerm n m.term
    else if m.arg = 0 then (if s.twinUp ∧ s.red.misses < 4 then s else s.wr (F.PAIR_n_STATUS_STALE n) 1)
    else if m.arg = 1 ∧ m.term = s.pairTerm n + 1 ∧ s.eligible n = some 0 then
      if (s.pair n).promo = some m.term ∨ (s.pair n).peerEnd ≤ s.cycle then ((s.cancelPlan n).setTerm n m.term).promote n 0 false
      else s.setPair n { s.pair n with promo := some m.term }
    else s
/-- A message of type 8, however it comes (R360, R361). -/
def State.verdictMsg (s : State) (m : WitMsg) : State := s.witTake 8 m fun s => s.witVerdict m
/-- WIT_VERDICT (R358). -/
def execWitVerdict (m : WitMsg) (s : State) : Out := .next (s.witFrameIn.verdictMsg m)

/-! ## The witness's side (WIT_KIND 3) -/

def State.isWitness (s : State) : Bool := s.rd F.TWIN_CFG_WIT_KIND == 3
def State.wit (s : State) (id : Nat) : WitSt := mapGet (fun _ => WitSt.init) s.red.wits id
def State.setWit (s : State) (id : Nat) (x : WitSt) : State :=
  { s with red := { s.red with wits := mapSet (fun _ => WitSt.init) s.red.wits id x } }
/-- The lease a witness grants: that of the pair block with this id, else the reset value. -/
def State.witLease (s : State) (id : Nat) : Nat :=
  match (List.range 32).find? fun n => s.pairId n == id with | some n => s.leaseMs n | none => 500

/-- R357, R360: a RENEW is granted to the active unit of its TERM, or of the next TERM (a planned switch, R370). -/
def State.witRenew (s : State) (m : WitMsg) : State :=
  let x := s.wit m.pair
  let mine := x.active = none ∨ (x.active = some m.sender ∧ x.term ≤ m.term) ∨ m.term = x.term + 1
  if !s.isWitness ∨ m.term < x.term ∨ !decide mine then s
  else
    let l := s.witLease m.pair
    (s.setWit m.pair { x with active := some m.sender, term := m.term, leaseEnd := s.cycle + msCycles l + msCycles 1 + msCycles l / 1000 }).witSend 2 m.pair m.term l
/-- A message of type 1, however it comes (R360, R361). -/
def State.renewMsg (s : State) (m : WitMsg) : State := s.witTake 1 m fun s => s.witRenew m
/-- WIT_RENEW (R360). -/
def execWitRenew (m : WitMsg) (s : State) : Out := .next (s.witFrameIn.renewMsg m)

/-- R358: a SUSPECT makes the witness probe both sides. -/
def State.witSuspect (s : State) (m : WitMsg) : State :=
  if !s.isWitness ∨ m.term < (s.wit m.pair).term then s
  else (s.setWit m.pair { s.wit m.pair with standby := some m.sender, acked := [], probing := true }).witSend 4 m.pair m.term 0
/-- A message of type 3, however it comes (R360, R361). -/
def State.suspectMsg (s : State) (m : WitMsg) : State := s.witTake 3 m fun s => s.witSuspect m
/-- WIT_SUSPECT (R358). -/
def execWitSuspect (m : WitMsg) (s : State) : Out := .next (s.witFrameIn.suspectMsg m)

/-- A message of type 5, however it comes (R360, R361). -/
def State.probeAckMsg (s : State) (m : WitMsg) : State := s.witTake 5 m fun s => s.when (s.isWitness && (s.wit m.pair).probing) fun s =>
    s.setWit m.pair { s.wit m.pair with acked := (s.wit m.pair).acked ++ [m.sender] }
/-- WIT_PROBE_ACK (R358). -/
def execWitProbeAck (m : WitMsg) (s : State) : Out := .next (s.witFrameIn.probeAckMsg m)

/-- The standby of a pair becomes its active unit, with TERM + 1. -/
def State.witPromoted (s : State) (id : Nat) : State :=
  let x := s.wit id
  s.setWit id { x with active := x.standby, standby := none, term := x.term + 1, promote := false, leaseEnd := 0 }

/-- R358: the verdict after 500 us. -/
def State.witDecide (s : State) (id : Nat) : State :=
  let x := s.wit id
  let up := fun (u : Option Nat) => match u with | some u => x.acked.contains u | none => false
  let s := s.setWit id { x with probing := false, promote := !up x.active && up x.standby }
  match up x.active, up x.standby with
  | true, true => s.witSend 8 id x.term 0
  | false, true =>
    let s := (s.witSend 6 id (x.term + 1) 0).witSend 8 id (x.term + 1) 1
    if x.leaseEnd ≤ s.cycle then s.witPromoted id else s
  | _, _ => s
/-- WIT_PROBE_TIMEOUT (R358). -/
def execWitProbeTimeout (id : Fin 65536) (s : State) : Out :=
  .next (s.when (s.isWitness && (s.wit id).probing) fun s => s.witDecide id)

/-- A message of type 7, however it comes (R360, R361). -/
def State.fenceAckMsg (s : State) (m : WitMsg) : State := s.witTake 7 m fun s => s.when (s.isWitness && (s.wit m.pair).promote && (s.wit m.pair).active == some m.sender) fun s =>
    (s.witSend 8 m.pair ((s.wit m.pair).term + 1) 1).witPromoted m.pair
/-- WIT_FENCE_ACK (R358): a pending promotion takes effect early. -/
def execWitFenceAck (m : WitMsg) (s : State) : Out := .next (s.witFrameIn.fenceAckMsg m)

/-- A message of type 9, however it comes (R360, R361). -/
def State.yieldMsg (s : State) (m : WitMsg) : State := s.witTake 9 m fun s => s.when (s.isWitness && (s.wit m.pair).active == some m.sender && decide ((s.wit m.pair).term ≤ m.term)) fun s =>
    (s.witSend 8 m.pair ((s.wit m.pair).term + 1) 1).witPromoted m.pair
/-- WIT_YIELD (R358): the active has failed and is muted. -/
def execWitYield (m : WitMsg) (s : State) : Out := .next (s.witFrameIn.yieldMsg m)

/-- R357, R362: the lease with its guard is over: a pending promotion takes effect, at the witness and at the standby. -/
def State.witLeaseOver (s : State) (id : Nat) : State :=
  let s := if s.isWitness ∧ (s.wit id).promote ∧ (s.wit id).leaseEnd ≤ s.cycle then s.witPromoted id else s
  match s.twinPair id with
  | some n => match (s.pair n).promo with
    | some t => if s.eligible n = some 0 ∧ (s.pair n).peerEnd ≤ s.cycle then ((s.cancelPlan n).setTerm n t).promote n 0 false else s
    | none => s
  | none => s
/-- WITNESS_LEASE_EXPIRED (R357). -/
def execWitnessLeaseExpired (id : Fin 65536) (s : State) : Out := .next (s.witLeaseOver id)

/-- R361: one message of the mailbox; an unknown TYPE is dropped and counted. -/
def State.witAny (s : State) (typ : Nat) (m : WitMsg) : State :=
  match typ with
  | 1 => s.renewMsg m
  | 2 => s.grantMsg m
  | 3 => s.suspectMsg m
  | 4 => s.probeMsg m
  | 5 => s.probeAckMsg m
  | 6 => s.fenceMsg m
  | 7 => s.fenceAckMsg m
  | 8 => s.verdictMsg m
  | 9 => s.yieldMsg m
  | _ => s.inc F.TWIN_CNT_B_WIT_DROP

/-- R361: a write of TWIN_MBOX_HOSTIDX presents the messages in the slots up to it. -/
def State.mboxWrite (s : State) (index : Word) (msgs : List (Nat × WitMsg)) : State :=
  let s := s.wr F.TWIN_MBOX_HOSTIDX_INDEX index.toNat
  if s.rd F.TWIN_CFG_WIT_KIND ≠ 2 ∨ !s.on F.TWIN_CFG_EN then s
  else
    let n := min 16 ((index.toNat + 2 ^ 32 - s.red.mboxNext) % 2 ^ 32)
    let s := { s with red := { s.red with mboxNext := index.toNat } }
    (msgs.take n).foldl (fun s (t, m) => s.witAny t m) s
/-- TWIN_MBOX_HOSTIDX_WRITE (R361). -/
def execTwinMboxHostidxWrite (index : Word) (msgs : List (Nat × WitMsg)) (s : State) : Out := .next (s.mboxWrite index msgs)

/-! ## The twin link's frames -/

/-- R351: ST words of a block, with bits left out. -/
def State.stWords (s : State) (base n : Nat) (mask : Nat → Word) : List Word :=
  (List.range n).filterMap fun k => if regCls (base + 4 * k) = some .st then some (s.reg (base + 4 * k) &&& mask k) else none

/-- R351: the congruent fields of a stream. -/
def State.strWords (s : State) (d i : Nat) : List Word :=
  let all := fun (_ : Nat) => (0xFFFFFFFF : Word)
  let first := fun (m : Word) (k : Nat) => if k = 0 then m else 0xFFFFFFFF
  s.stWords (R.ENC_STRi_CFG d i) 64 (first 0xFFFFF8FE) ++ s.stWords (R.LEDG_STRi_MODE d i) 16 all ++
    s.stWords (R.MES_STRi_CFG d i) 16 (first 0xFFFFE001) ++ s.stWords (R.DEC_STRi_CFG d i) 16 (first 0xFFFFFFFE)
def State.slotWords (s : State) (d k : Nat) : List Word := s.stWords (R.CMP_SLOTs_CFG d k) 512 fun j => if j = 0 then 0xFFFF87FF else 0xFFFFFFFF

/-- The streams of a side with their ids, encode and decode, in stream-id order. -/
def State.sideIds (s : State) (n sd : Nat) : List (Nat × Nat × Nat) :=
  ((s.sideStreams n sd ++ s.sideDecs n sd).eraseDups.map fun (d, i) => (s.strId d i, d, i)).mergeSort fun a b => decide (a.1 ≤ b.1)

/-- R351: PAIR_n_CFGCRC. -/
def State.cfgCrc (s : State) (n : Nat) : Nat :=
  let ids := s.sideIds n 0
  let ws := ids.flatMap fun (_, d, i) => s.strWords d i ++ s.slotWords d (i / 8)
  let fl := ids.flatMap fun (sid, _, _) => (s.streamFlows sid).flatMap fun f => s.stWords (R.PKT_FLOWf_CFG f) 12 fun _ => 0xFFFFFFFF
  crc32c (wordsBytes (ws ++ fl))

/-- R354: PENDING sides that are congruent and healthy take their first role. -/
def State.pairStart (s : State) (n : Nat) : State :=
  if s.pairTwin n then
    if s.role n 0 = 6 ∧ (s.pair n).caps ∧ s.sideHealthy n 0 then
      s.setRole n 0 (if s.on (F.PAIR_n_CFG_INIT n) ∧ s.role n 1 ≠ 3 ∧ s.pairTerm n ≤ 1 then 3 else 1)
    else s
  else
    [0, 1].foldl (fun s sd =>
      if s.role n sd = 6 ∧ s.sideHealthy n sd then
        let other := s.role n (1 - sd)
        s.setRole n sd (if sd = 0 ∧ other ≠ 3 ∧ other ≠ 2 then 3 else 1)
      else s) s

/-- R350, R351: the peer's last capabilities agree with pair n: each package's SIDE_A is the other's SIDE_B, this package holds its own,
and the configurations have one CRC. That the peer holds its own SIDE_A, its frame does not tell. -/
def State.capsMatch (s : State) (n : Nat) : Bool :=
  match s.red.peerCaps[n]? with
  | some (crc, a, b) => a == s.sidePath n 1 && b == s.sidePath n 0 && s.pathOk (s.sidePath n 0) && crc == s.rd (F.PAIR_n_CFGCRC_CRC n)
  | none => false

/-- R351, R364, R372: MISMATCH of a twin pair. -/
def State.showMismatch (s : State) (n : Nat) : State :=
  s.wr (F.PAIR_n_STATUS_MISMATCH n) (bit ((s.red.peerCaps[n]?.isSome && !(s.pair n).caps) || (s.pair n).badTpl != []))

/-- R350, R351: the capabilities of pair n are judged; a PENDING side may take its role. -/
def State.capsCheck (s : State) (n : Nat) : State := ((s.setPair n { s.pair n with caps := s.capsMatch n }).showMismatch n).pairStart n

/-- R350, R351: a CAPS frame. -/
def State.twinCaps (s : State) (x : CapsFrame) : State :=
  let s := (s.wr F.TWIN_PEER_LO_ID x.unit).wr F.TWIN_PEER_HI_ID (x.unit / 2 ^ 32)
  let s := { s with red := { s.red with peerCaps := x.pairs } }
  s.forRange 32 fun n s => if s.pairOn n ∧ s.pairTwin n then s.capsCheck n else s
/-- TWIN_CAPS (R368). -/
def execTwinCaps (x : Framed CapsFrame) (s : State) : Out := .next (s.twinTake x.ok fun s => s.twinCaps x.body)

/-- R368: the words of the CAPS frame: CFGCRC and side paths of each pair, the lanes that are up, and the mirror entries. -/
def State.capsWords (s : State) : List Nat :=
  ((List.range 32).flatMap fun n => [s.rd (F.PAIR_n_CFGCRC_CRC n), s.sidePath n 0, s.sidePath n 1]) ++
    s.rd F.TWIN_STATUS_LANES :: (List.range 16).map fun k => (s.reg (R.TWIN_MIRRORk k)).toNat

/-- R368: the CAPS frame this package sends. -/
def State.sendCaps (s : State) : State :=
  if s.twinUp then s.sendTwin 0 s.twinUnit s.capsWords else s

/-- The twin pair whose local side carries a stream. -/
def State.twinOf (s : State) (sid : Nat) : Option Nat :=
  (List.range 32).find? fun n => s.pairOn n && s.pairTwin n && (s.sideStreams n 0).any fun (d, i) => s.strId d i == sid

/-- R240: the header template block of a stream. -/
def State.templateOf (s : State) (d i : Nat) : List Byte := Config.templateBytes (s.strId d i) ((s.strWords d i).map (·.toNat))

/-- R364: the CRC of a stream's template block, as last received; with none received, of the device's own. -/
def State.templateCrc (s : State) (sid : Nat) : Nat :=
  match s.red.templates.find? (·.1 == sid) with
  | some (_, b) => crc32c b
  | none => crc32c (match s.driver sid with | some (d, i) => s.templateOf d i | none => [])

/-- R364: a CURSOR frame. -/
def State.twinCursor (s : State) (ws : List Word) : State :=
  let sid := fieldAt ws 0 0 10
  match s.twinOf sid with
  | some n =>
    if s.role n 0 ≠ 1 then s
    else
      let s := { s with red := { s.red with cursors := mapSet (fun _ => ((0, []) : Nat × List Word)) s.red.cursors sid (s.chFrameNow (sid / 8), ws) } }
      let s := s.wr (F.PAIR_n_STATUS_STALE n) 0
      let bad := (s.pair n).badTpl.filter (· != sid)
      (s.setPair n { s.pair n with badTpl := if wordAt ws 19 = s.templateCrc sid then bad else bad ++ [sid] }).showMismatch n
  | none => s
/-- TWIN_CURSOR (R364). -/
def execTwinCursor (words : Framed (List Word)) (s : State) : Out := .next (s.twinTake words.ok fun s => s.twinCursor words.body)

/-- R364: the word pairs of a FLOW frame. -/
def flowPairs : List Word → List (Nat × (Word × Word))
  | a :: b :: t => (getBits a 0 11, (a, b)) :: flowPairs t
  | _ => []
/-- TWIN_FLOW (R364). -/
def execTwinFlow (words : Framed (List Word)) (s : State) : Out :=
  .next (s.twinTake words.ok fun s => (flowPairs words.body).foldl (fun s (f, p) => { s with red := { s.red with flows := (f, p) :: s.red.flows.filter (·.1 != f) } }) s)

/-- TWIN_TEMPLATE (R368). -/
def execTwinTemplate (sid : Fin 768) (block : Framed (List Byte)) (s : State) : Out :=
  .next (s.twinTake block.ok fun s => { s with red := { s.red with templates := (sid.val, block.body) :: s.red.templates.filter (·.1 != sid.val) } })

/-- R357: a relayed message: one of the witness's is taken, one of the peer's goes on to the witness unchanged. -/
def State.twinRelay (s : State) (typ : Nat) (m : WitMsg) : State :=
  if typ ∈ [2, 4, 6, 8] then s.witAny typ m else s.witOut m typ
/-- TWIN_RELAY (R357). -/
def execTwinRelay (typ : Nat) (m : Framed WitMsg) (s : State) : Out := .next (s.twinTake m.ok fun s => s.twinRelay typ m.body)

/-- R369: a mirrored line feeds the receiving channel; it takes all four lanes. -/
def State.twinMirror (s : State) (k : Nat) (damaged : Bool) (x : SdiLine) : State :=
  if !s.on (F.TWIN_MIRRORk_EN k) ∨ !s.on (F.TWIN_MIRRORk_DIR k) ∨ s.rd F.TWIN_STATUS_LANES ≠ 15 then s.inc F.TWIN_CNT_B_MIRROR_DROP
  else s.sdiLine (s.rd (F.TWIN_MIRRORk_CHANNEL k)) { x with crc := x.crc && !damaged }
/-- TWIN_MIRROR (R369). -/
def execTwinMirror (k : Fin 16) (damaged : Bool) (x : Framed SdiLine) (s : State) : Out :=
  .next (s.twinTake x.ok fun s => s.twinMirror k damaged x.body)

/-- R364: the cursor frame of a stream of an active side: words 0 to 19. -/
def State.sendCursor (s : State) (d i : Nat) (done : Bool) (lastPic : Nat) : State :=
  let sid := s.strId d i
  match s.twinOf sid with
  | some n =>
    if s.role n 0 = 3 ∧ s.twinUp then
      s.sendTwin 2 sid ([sid + bit done * 1024, lastPic] ++ (s.encSt d i).ctx ++ [s.rd (F.LEDG_STRi_FILL_BITS d i), s.templateCrc sid])
    else s
  | none => s

/-- R368: the TEMPLATE frame of a stream of an active side. -/
def State.sendTemplate (s : State) (d i : Nat) : State :=
  let sid := s.strId d i
  match s.twinOf sid with
  | some n => if s.role n 0 = 3 ∧ s.twinUp then s.sendTwin 5 sid ((s.templateOf d i).map (·.toNat)) else s
  | none => s

/-- R364: the flow frame of a stream of an active side. -/
def State.sendFlowFrame (s : State) (d i : Nat) : State :=
  let sid := s.strId d i
  match s.twinOf sid with
  | some n =>
    if s.role n 0 = 3 ∧ s.twinUp then
      s.sendTwin 3 sid ((s.streamFlows sid).flatMap fun f => let x := s.outFlow f
        [f + x.seq % 65536 * 65536, x.cc + x.ccAnc * 16 + x.ccPat * 256 + x.ccPmt * 4096])
    else s
  | none => s

/-! ## Planned switches and drills -/

/-- R48: the code that refuses a commit point; 0 passes. -/
def State.stampCheck (s : State) (l stamp : Nat) : Nat :=
  if !s.tlRunning l then 0x1004
  else if !later stamp (s.nowPlus20us l) then 0x100A
  else if 2 ^ 52 < (stamp + 2 ^ 64 - s.now l) % 2 ^ 64 then 0x100B
  else if s.tpf l ≤ stampTick stamp then 0x100C
  else 0

/-- R370: a stamp is the start of a slot of a stream. -/
def State.slotStart (s : State) (d i stamp : Nat) : Bool :=
  let c := s.strChan d i
  let u := stampFrame stamp * (s.tpf (s.chTl c) * 4096) + stampTick stamp * 4096 + stampFrac stamp
  (List.range 3).any fun a =>
    let k := (u - s.chPhase c) / max 1 (s.linePos c 1 0 - s.linePos c 0 0) + a - 1
    (s.linePos c k 0 == u && (!s.on (F.ENC_STRi_CFG_FRDIV d i) || k % 2 == 0)) || (s.chInterlaced c && s.linePos c k (s.chHeight c / 2) == u)

/-- R370: a planned switch or drill waits for its stamp x on timeline l. Of a twin pair, the side that is to become active asks the witness
for the new TERM (notes/assumptions/145.md). -/
def State.plan (s : State) (n l x : Nat) (drill : Bool) : State :=
  let s := s.setPair n { s.pair n with plan := some (l, x, drill), granted := false }
  if s.pairTwin n ∧ s.role n 0 = 1 then
    (s.setPair n { s.pair n with renewAt := s.cycle, asked := true }).witSend 1 (s.pairId n) (s.pairTerm n + 1) 0
  else s

/-- R370, R371: a planned switch or drill is requested. -/
def State.planWrite (s : State) (n : Nat) (drill : Bool) : State :=
  let l := s.rd (F.PAIR_n_CTL_TL n)
  let x := s.rd (F.PAIR_n_AT_LO_STAMP n) + s.rd (F.PAIR_n_AT_HI_STAMP n) * 2 ^ 32
  let strs := (s.localSides n).flatMap fun sd => s.sideStreams n sd
  let twinOk := s.pairTwin n && ((s.role n 0 == 3 && s.role n 1 == 1) || (s.role n 0 == 1 && s.role n 1 == 3)) && !s.on (F.PAIR_n_STATUS_MISMATCH n)
  let ok := if s.pairTwin n then twinOk else (s.eligible n).isSome && (s.role n 0 == 3 || s.role n 1 == 3)
  let c := s.stampCheck l x
  if c ≠ 0 then s.pairRefuse n c
  else if !s.pairOn n ∨ !ok then s.pairRefuse n 0x8006
  else if strs.any fun (d, i) => s.chTl (s.strChan d i) != l || !s.slotStart d i x then s.pairRefuse n 0x8007
  else s.plan n l x drill

/-- R371: an ABORT. -/
def State.abortWrite (s : State) (n : Nat) : State := if s.on (F.PAIR_n_STATUS_DRILL n) then s.abortDrill n else s.pairRefuse n 0x800A

/-- R370: a REJOIN: a side in FAULT, out of reset, none of whose leaves is in FAULT, becomes PENDING. -/
def State.rejoinWrite (s : State) (n : Nat) : State :=
  match (s.localSides n).find? fun sd => s.role n sd == 5 && s.sideHealthy n sd && !(s.leaves (s.sidePath n sd)).any s.inReset with
  | some sd => (s.setRole n sd 6).pairStart n
  | none => s.pairRefuse n 0x8009

/-- R372: a write of PAIR_n_CTL: BACK and TL are kept; the requests act. -/
def State.pairCtlWrite (s : State) (n : Nat) (v : Word) : State :=
  let s := s.setReg (R.PAIR_n_CTL n) (v &&& 0x70)
  let s := if getBits v 0 1 = 1 then s.planWrite n false else s
  let s := if getBits v 1 1 = 1 then s.planWrite n true else s
  let s := if getBits v 2 1 = 1 then s.rejoinWrite n else s
  if getBits v 3 1 = 1 then s.abortWrite n else s

/-- PAIR_SWITCH, PAIR_DRILL, PAIR_REJOIN, PAIR_ABORT (R370, R371): writes of PAIR_n_CTL. -/
def execPairSwitch (n : Fin 32) (tl : Fin 4) (back : Bool) (s : State) : Out := .next (s.pairCtlWrite n (BitVec.ofNat 32 (1 + bit back * 16 + tl * 32)))
def execPairDrill (n : Fin 32) (tl : Fin 4) (back : Bool) (s : State) : Out := .next (s.pairCtlWrite n (BitVec.ofNat 32 (2 + bit back * 16 + tl * 32)))
def execPairRejoin (n : Fin 32) (s : State) : Out := .next (s.pairCtlWrite n (4 ||| s.reg (R.PAIR_n_CTL n) &&& 0x70))
def execPairAbort (n : Fin 32) (s : State) : Out := .next (s.pairCtlWrite n (8 ||| s.reg (R.PAIR_n_CTL n) &&& 0x70))

/-- R370: the streams of the side that was active end after the slot before the stamp. -/
def State.endAt (s : State) (n sd : Nat) (drill : Bool) : State :=
  (s.sideStreams n sd).foldl (fun s (d, i) =>
    let s := s.setEncSt d i { s.encSt d i with upto := some (s.encSt d i).pic, resume := true }
    if drill ∨ s.encState d i ≠ 2 then s else s.setEncState d i 1) s

/-- R371: the channel frame of a pair's first stream. -/
def State.pairFrame (s : State) (n : Nat) : Nat :=
  match (s.localSides n).flatMap fun sd => s.sideStreams n sd with
  | (d, i) :: _ => s.chFrameNow (s.strChan d i)
  | [] => 0

/-- R371: the drill window has lasted DRILL_SLOTS slots of the pair's first stream. -/
def State.drillOver (s : State) (n : Nat) : Bool :=
  match (s.localSides n).flatMap fun sd => s.sideStreams n sd with
  | (d, i) :: _ => decide (s.rd (F.PAIR_n_CFG_DRILL_SLOTS n) ≤ s.slotsSince d i (s.pair n).drillFrom)
  | [] => true

/-- R370, R371: line time reaches a planned switch's stamp. -/
def State.switchNow (s : State) (n : Nat) (drill : Bool) : State :=
  let s := s.setPair n { s.pair n with plan := none }
  if s.pairTwin n then
    if !(s.pair n).granted then s.pairRefuse n 0x8006
    else
      let s := (s.setTerm n (s.pairTerm n + 1)).setPair n { s.pair n with granted := false }
      let s := if drill then (s.setPair n { s.pair n with old := some (if s.role n 0 = 3 then 0 else 1), drillFrom := s.pairFrame n }).wr (F.PAIR_n_STATUS_DRILL n) 1 else s
      if s.role n 0 = 3 then (s.setRole n 0 1).endAt n 0 drill else s.promote n 0 true
  else
    match s.eligible n, [0, 1].find? (fun sd => s.role n sd == 3) with
    | some new, some old =>
      let s := s.setTerm n (s.pairTerm n + 1)
      let s := s.promote n new true
      let s := if drill then (s.setPair n { s.pair n with old := some old, drillFrom := s.pairFrame n }).wr (F.PAIR_n_STATUS_DRILL n) 1 else s
      (s.setRole n old 1).endAt n old drill
    | _, _ => s.pairRefuse n 0x8006

/-- PAIR_SWITCH_STAMP (R370). -/
def execPairSwitchStamp (n : Fin 32) (s : State) : Out :=
  .next (match (s.pair n).plan with
    | some (l, x, drill) => if s.reachedOn l x then s.switchNow n drill else s
    | none => s)

/-- R371: the drill window ends without an abort; with BACK a planned switch follows at the next frame's first slot. -/
def State.drillEnd (s : State) (n : Nat) : State :=
  match (s.pair n).old with
  | some o =>
    let s := (s.wr (F.PAIR_n_STATUS_DRILL n) 0).inc (F.PAIR_n_CNT_B_DRILLS n)
    let s := s.setPair n { s.pair n with old := none }
    let strs := if s.pairTwin n ∧ o = 1 then [] else s.sideStreams n o
    let s := strs.foldl (fun s (d, i) => if s.encState d i = 2 then s.setEncState d i 1 else s) s
    let s := s.modeUpdate
    if s.on (F.PAIR_n_CTL_BACK n) then
      match (s.localSides n).flatMap (fun sd => s.sideStreams n sd) with
      | (d, i) :: _ =>
        let c := s.strChan d i
        s.plan n (s.chTl c) (s.chStamp c (s.frameStart c (s.chFrameNow c + 1))) false
      | [] => s
    else s
  | none => s
/-- DRILL_WINDOW_END (R371). -/
def execDrillWindowEnd (n : Fin 32) (s : State) : Out :=
  .next (s.when (s.on (F.PAIR_n_STATUS_DRILL n) && s.drillOver n) fun s => s.drillEnd n)

/-! ## Commits and the check -/

/-- R354, R351: a commit has changed pair n. -/
def State.pairCommit (o s : State) (n : Nat) : State :=
  let s := if s.pairOn n ∧ s.pairTwin n then s.wr (F.PAIR_n_CFGCRC_CRC n) (s.cfgCrc n) else s
  match o.pairOn n, s.pairOn n with
  | false, true =>
    let s := (s.setPair n PairSt.init).setTerm n 1
    let s := s.setReg (R.PAIR_n_STATUS n) 0
    let s := (s.localSides n).foldl (fun s sd => s.setRole n sd 6) s
    if s.pairTwin n then (s.wr (F.PAIR_n_STATUS_ROLE_B n) 7).capsCheck n else s.pairStart n
  | true, false =>
    let s := (s.localSides n).foldl (fun s sd => s.setRole n sd 0) s
    (s.setPair n PairSt.init).setReg (R.PAIR_n_STATUS n) (s.reg (R.PAIR_n_STATUS n) &&& 0xFFFF0000)
  | true, true => if s.pairTwin n then s.capsCheck n else s
  | _, _ => s
def State.pairsCommit (o s : State) : State := (s.forRange 32 fun n s => o.pairCommit s n).sendCaps

/-- R351, R368: a commit that has changed a congruent field of a twin pair gives it another CRC, which goes to the peer. -/
def State.crcCommit (o s : State) : State :=
  if (List.range 32).any fun n => o.pairOn n && s.pairOn n && s.pairTwin n && s.cfgCrc n != s.rd (F.PAIR_n_CFGCRC_CRC n) then o.pairsCommit s else s

/-- R350: a path is a crown or a logical grove with USE_PAIR. -/
def State.sideKind (s : State) (p : Nat) : Bool :=
  if isGrove p then groveUse s.stg.groves (groveNum p) 3 else pathDepth p == 1 && decide (1 ≤ pathHop p 0 ∧ pathHop p 0 ≤ 7)

/-- R350: the sides break their rule. -/
def State.sidesBad (s : State) (n : Nat) : Bool :=
  let a := s.sidePath n 0
  let b := s.sidePath n 1
  let own := fun p => !s.pathOk p || !s.sideKind p
  let ls := (s.localSides n).flatMap fun sd => s.leaves (s.sidePath n sd)
  own a || (if s.pairTwin n then pathMalformed 7 b || !(isGrove b || (pathDepth b == 1 && decide (1 ≤ pathHop b 0 ∧ pathHop b 0 ≤ 7))) else own b || meets (s.leaves a) (s.leaves b)) ||
    (List.range 32).any fun m => m != n && s.pairOn m && (s.localSides m).any fun sd => meets ls (s.leaves (s.sidePath m sd))

/-- R351: the two sides of a package pair differ. -/
def State.notCongruent (s : State) (n : Nat) : Bool :=
  let a := s.sideIds n 0
  let b := s.sideIds n 1
  a.map (·.1) != b.map (·.1) || (a.zip b).any fun ((_, d, i), (_, d', i')) =>
    s.strWords d i != s.strWords d' i' || s.slotWords d (i / 8) != s.slotWords d' (i' / 8)

/-- R353: D plus the coding row plus 20 us exceeds the bound. -/
def State.graftLate (s : State) (d i : Nat) : Bool :=
  let c := s.strChan d i
  let us20 := ceilDiv (20 * s.lineRate c) (4004 * 10 ^ 6)
  let k := if s.chRate c ≤ 60 * 4004 then 2 else 4
  decide (k * s.chLines c < s.rd (F.LT_CHc_DELAY_D c) + s.rowCanvas d i + us20)

/-- R372, R374: the rules of R141 for pair n. -/
def pairRules (o s : State) (n : Nat) : List Rule :=
  let st := [R.PAIR_n_STATUS n, R.PAIR_STATUS]
  let en := s.pairOn n
  let both := en && o.pairOn n
  let strs := (s.localSides n).flatMap fun sd => s.sideStreams n sd
  let us := [R.PAIR_n_CFG n, R.PAIR_n_SIDE_A n, R.PAIR_n_SIDE_B n, R.TWIN_CFG] ++ strs.flatMap fun (d, i) =>
    [R.ENC_STRi_CFG d i, R.ENC_STRi_LEVEL d i, R.ENC_STRi_SIZE d i, R.ENC_STRi_TILES d i, R.ENC_STRi_GOP d i, R.LEDG_STRi_MODE d i, R.LEDG_STRi_RATE d i, R.MES_STRi_CFG d i, R.CMP_SLOTs_CFG d (i / 8), R.LT_CHc_DELAY (s.strChan d i)]
  let wk := s.rd F.TWIN_CFG_WIT_KIND
  let lock := fun a => (0x8008, both && o.reg a != s.reg a)
  rulesAt (R.PAIR_n_CFG n) st us
    [(0x8001, en && s.sidesBad n),
     (0x8002, en && !s.pairTwin n && s.notCongruent n),
     (0x8004, en && strs.any fun (d, i) => s.graftLate d i),
     (0x8005, en && s.pairTwin n && (!s.on F.TWIN_CFG_EN || (wk != 1 && wk != 2))),
     lock (R.PAIR_n_CFG n)] ++
  rulesAt (R.PAIR_n_SIDE_A n) st [] [lock (R.PAIR_n_SIDE_A n)] ++
  rulesAt (R.PAIR_n_SIDE_B n) st [] [lock (R.PAIR_n_SIDE_B n)] ++
  rulesAt (R.PAIR_n_LEASE n) st [] [(0x8003, let l := s.leaseMs n; decide (l < 5 ∨ 5000 < l)), lock (R.PAIR_n_LEASE n)] ++
  rulesAt (R.PAIR_n_ID n) st [] [lock (R.PAIR_n_ID n)]

/-- R369: bit/s of the SDI lines of a mirrored channel: 20 bits a pixel over the raster's active lines. -/
def State.mirrorRate (s : State) (k : Nat) : Nat :=
  let c := s.rd (F.TWIN_MIRRORk_CHANNEL k)
  if s.on (F.TWIN_MIRRORk_EN k) then s.chWidth c * s.chHeight c * 20 * s.chRate c / 4004 else 0

/-- R369, R373: the rules of R141 for the twin block. -/
def twinRules (s : State) : List Rule :=
  let en := s.on F.TWIN_CFG_EN
  let wk := s.rd F.TWIN_CFG_WIT_KIND
  let mac := s.rd F.TWIN_CFG_WIT_MAC
  let st := [R.TWIN_STATUS]
  let base := s.rd64 F.TWIN_MBOX_BASE_LO_ADDR F.TWIN_MBOX_BASE_HI_ADDR
  let us := [R.TWIN_CFG, R.TWIN_WIT_IP, R.TWIN_SRC_IP, R.TWIN_WIT_PORT, R.TWIN_MBOX_BASE_LO, R.TWIN_MBOX_BASE_HI]
  let udp := en && (wk == 1 || wk == 3)
  rulesAt R.TWIN_CFG st us
    [(0x8010, (udp && (decide (95 < mac) || !s.on (F.LANE_ETHm_CFG_EN mac) || s.rd F.TWIN_WIT_IP_ADDR == 0 && wk == 1 || s.rd F.TWIN_SRC_IP_ADDR == 0 ||
        s.rd F.TWIN_WIT_PORT_DPORT == 0 || s.rd F.TWIN_WIT_PORT_SPORT == 0)) || (en && wk == 2 && (base == 0 || base % 4096 != 0)))] ++
  (List.range 16).flatMap fun k =>
    let c := s.rd (F.TWIN_MIRRORk_CHANNEL k)
    rulesAt (R.TWIN_MIRRORk k) st [R.TWIN_MIRRORk k, R.ING_CHc_SRC c, R.ING_CHc_FMT c]
      [(0x8012, s.on (F.TWIN_MIRRORk_EN k) && (decide (95 < c) || s.rd (F.ING_CHc_SRC_KIND c) != 2 ||
        decide (160 * 10 ^ 9 < ((List.range 16).map s.mirrorRate).sum)))]

/-- R373: a write of TWIN_KEYk. -/
def State.keyWrite (s : State) (k : Nat) (v : Word) : State :=
  if s.on F.TWIN_CFG_EN then s.refuse pReferee [R.TWIN_STATUS] 0x8011 (R.TWIN_KEY k) else s.setReg (R.TWIN_KEY k) v

end Sys2Proof.Machine
end

