-- ==== Sys2Proof/Machine/Fabric.lean ====
section
/-!
DEFINITION. Sys2Proof/Machine/Fabric.lean: the on-die fabric (20_fabric_and_check_units.md): error responses, promotion, the
address-zero region, and the CRC engines.
-/
namespace Sys2Proof.Machine

/-- A crown of the variant. -/
def State.hasCrown (s : State) (d : Nat) : Bool := decide (1 ≤ d ∧ d ≤ s.crowns)

/-- A die of the variant whose register window answers: its fabric is out of reset (R12, R433, R464). -/
def State.dieUp (s : State) (d : Nat) : Bool :=
  decide (d ≤ s.crowns) && !s.inReset (if d = 0 then mkPath [0, 21] else mkPath [d, 20])

/-! ## Error responses and promotion -/

/-- R407, R408: masters and targets of a die's matrix. -/
def fabTargets (d : Nat) : Nat := if d = 0 then 16 else 12

/-- R410: an error response to a master at a target: counted, and latched when none is. -/
def State.fabErr (s : State) (d master target : Nat) (write : Bool) (addr : Nat) : State :=
  let s := s.inc (F.FAB_Tt_CNT_ERRS d target)
  if s.on (F.FAB_ERR_INFO_VALID d) then s
  else
    let s := s.setReg (R.FAB_ERR_INFO d) (BitVec.ofNat 32 (1 + bit write * 2 + master * 256 + target * 65536))
    (s.wr (F.FAB_ERR_ADDR_LO_ADDR d) (addr % 2 ^ 32)).wr (F.FAB_ERR_ADDR_HI_ADDR d) (addr / 2 ^ 32)

/-- R410: a write of FAB_ERR_INFO: 1 in VALID clears it. -/
def State.fabErrWrite (s : State) (d : Nat) (v : Word) : State := if getBits v 0 1 = 1 then s.wr (F.FAB_ERR_INFO_VALID d) 0 else s
/-- FAB_ERR_CLEAR (R410). -/
def execFabErrClear (d : Fin 8) (s : State) : Out := .next (s.when (s.dieUp d) fun s => s.fabErrWrite d 1)

/-- R412: a transaction has waited MAXWAIT cycles at a target port. -/
def State.fabPromote (s : State) (d t : Nat) : State := if s.rd (F.FAB_Tt_ARB_MAXWAIT d t) = 0 then s else s.inc (F.FAB_Tt_CNT_PROMOTED d t)
/-- FAB_PROMOTE (R412). -/
def execFabPromote (d : Fin 8) (t : Fin 16) (s : State) : Out :=
  .next (s.when (s.dieUp d && decide (t.val < fabTargets d)) fun s => s.fabPromote d t)

/-- R413: a write of FAB_REMAP: while locked, ignored and counted. -/
def State.remapWrite (s : State) (d : Nat) (v : Word) : State :=
  if s.on (F.FAB_REMAP_LOCK d) then s.inc (F.FAB_REMAP_IGNORED d)
  else (s.wr (F.FAB_REMAP_SWAP0 d) (getBits v 0 1)).wr (F.FAB_REMAP_LOCK d) (getBits v 1 1)
/-- FAB_REMAP_WRITE (R413). -/
def execFabRemapWrite (d : Fin 8) (v : Word) (s : State) : Out := .next (s.when (s.dieUp d) fun s => s.remapWrite d v)

/-! ## Fabric memory -/

def sramKey (d off : Nat) : Nat := d * 2 ^ 21 + off
/-- A byte of die d's working SRAM (R409). -/
def State.sramByte (s : State) (d off : Nat) : Byte := memRead s.rst.sram (sramKey d off)
def State.sramPut (s : State) (d off : Nat) (bs : List Byte) : State :=
  { s with rst := { s.rst with sram := memWrite s.rst.sram (sramKey d off) bs } }

/-- R386: the crown's controller accepts fabric accesses. -/
def State.hbmReady (s : State) (d : Nat) : Bool := s.rd (F.HBM_STATUS_STATE d) == 2

/-- R409: what an address of die d's map holds for a master other than a management core. -/
inductive FabAt where
  | sram (off : Nat)
  | rom (off : Nat)
  | window (off : Nat)
  | hbm (off : Nat)
  | none
  deriving DecidableEq, Repr

/-- R409: the map, as every master sees it. -/
def fabAt (d a : Nat) : FabAt :=
  if 0x2000000 ≤ a ∧ a < 0x2200000 then .sram (a - 0x2000000)
  else if 0x3000000 ≤ a ∧ a < 0x3010000 then .rom (a - 0x3000000)
  else if 0x40000000 ≤ a ∧ a < 0x44000000 then .window (a - 0x40000000)
  else if d ≠ 0 ∧ 0x100000000 ≤ a ∧ a < 0x100000000 + 24 * 2 ^ 30 then .hbm (a - 0x100000000)
  else .none

/-- R407 to R409: the target an address leads to; an address outside the map counts at target 0 (notes/assumptions/123.md). -/
def State.fabTarget (s : State) (d a : Nat) : Nat :=
  match fabAt d a with
  | .window _ => if d = 0 then 12 else 6
  | .hbm off => 1 + (s.place d off).pc / 8
  | _ =>
    if 0x10000000 ≤ a ∧ a < 0x10050000 then (if d = 0 then 15 else 11)
    else if 0x80000000 ≤ a ∧ a < 0xA0000000 then
      let k := (a - 0x80000000) / 0x4000000
      if d ≠ 0 then (if k = d then 6 else 5) else if k = 0 then 12 else 4 + k
    else 0

/-- R409: whether bytes can be written at an address; the boot ROM and the register windows take none from an engine
(notes/assumptions/123.md). -/
def State.fabWritable (s : State) (d a : Nat) : Bool :=
  match fabAt d a with
  | .sram _ => true
  | .hbm _ => s.hbmReady d
  | _ => false
def State.fabPut (s : State) (d a : Nat) (bs : List Byte) : State :=
  match fabAt d a with
  | .sram off => s.sramPut d off bs
  | .hbm off => s.hbmWrite d off bs
  | _ => s

/-- R386, R410: an access fails: the error response, and EARLY for a stack that is not READY. -/
def State.fabFail (s : State) (d master : Nat) (write : Bool) (a : Nat) : State :=
  let s := s.fabErr d master (s.fabTarget d a) write a
  match fabAt d a with
  | .hbm _ => if s.hbmReady d then s else s.inc (F.HBM_STATUS_EARLY d)
  | _ => s

/-! ## The CRC algorithms -/

/-- R414: CRC-16/CCITT over one byte, most significant bit first. -/
def crcMsb : Nat → Nat → Nat
  | 0, v => v
  | n + 1, v => crcMsb n (if v / 2 ^ 15 % 2 = 1 then (v * 2 % 2 ^ 16) ^^^ 0x1021 else v * 2 % 2 ^ 16)

/-- R414: VALUE after one input unit: a byte, or for POLY 3 a 10-bit word. -/
def crcUnit (poly v x : Nat) : Nat :=
  if poly = 0 then crcBits 0xEDB88320 8 (v ^^^ (x % 256))
  else if poly = 1 then crcBits 0x82F63B78 8 (v ^^^ (x % 256))
  else if poly = 2 then crcMsb 8 ((v ^^^ (x % 256 * 256)) % 2 ^ 16)
  else crcBits 0x23000 10 (v ^^^ (x % 1024))

/-- The input units of bytes: for POLY 3, 16-bit containers, low byte first. -/
def crcInputs (poly : Nat) : List Byte → List Nat
  | [] => []
  | [b] => if poly = 3 then [] else [b.toNat]
  | a :: b :: t => if poly = 3 then (a.toNat + b.toNat * 256) :: crcInputs poly t else a.toNat :: b.toNat :: crcInputs poly t

def crcFeed (poly v : Nat) (bs : List Byte) : Nat := (crcInputs poly bs).foldl (crcUnit poly) v

/-- R414: Init, XOROUT and width of an algorithm. -/
def crcInit (poly : Nat) : Nat := match poly with | 0 => 2 ^ 32 - 1 | 1 => 2 ^ 32 - 1 | 2 => 2 ^ 16 - 1 | _ => 0
def crcXor (poly : Nat) : Nat := if poly < 2 then 2 ^ 32 - 1 else 0
def crcWidth (poly : Nat) : Nat := match poly with | 0 => 32 | 1 => 32 | 2 => 16 | _ => 18

/-- R415: the bytes of a check. -/
def crcCheck (poly result : Nat) : List Byte :=
  let cont := fun (v : Nat) => natBytes 2 (v + (if v / 256 % 2 = 1 then 0 else 512))
  match poly with
  | 2 => (natBytes 2 result).reverse
  | 3 => cont (result % 512) ++ cont (result / 512 % 512)
  | _ => natBytes 4 result

/-! ## Engines -/

def State.crcPoly (s : State) (d k : Nat) : Nat := s.rd (F.CRC_k_CFG_POLY d k)
def State.crcValue (s : State) (d k : Nat) : Nat := s.rd (F.CRC_k_VALUE_VALUE d k)

/-- VALUE takes a value, and RESULT shows it. -/
def State.setCrcValue (s : State) (d k v : Nat) : State :=
  let p := s.crcPoly d k
  let v := v % 2 ^ crcWidth p
  (s.wr (F.CRC_k_VALUE_VALUE d k) v).wr (F.CRC_k_RESULT_RESULT d k) (v ^^^ crcXor p)

/-- R417: engines 14 and 15 of the root are bound while the twin link is enabled. -/
def State.crcBound (s : State) (d k : Nat) : Bool := d == 0 && (k == 14 || k == 15) && s.on F.TWIN_CFG_EN
def State.crcDrop (s : State) (d k : Nat) : State := s.inc (F.CRC_k_STATUS_DROPPED d k)

def State.crcAddr (s : State) (lo hi : Fld) : Nat := s.rd64 lo hi

/-- The bytes of the check of an algorithm. -/
def crcW (poly : Nat) : Nat := (crcCheck poly 0).length

/-- R416: an operation that ends with ERROR set, and nothing done. -/
def crcBad (poly op src dst len : Nat) : Bool :=
  decide (len = 0 ∨ 2 ^ 30 < len) || (poly == 3 && (decide (len % 2 = 1) || decide (src % 2 = 1) || decide (op ≠ 2 ∧ dst % 2 = 1))) ||
    (op == 4 && decide (len ≤ crcW poly)) || (decide (op = 3 ∨ op = 4 ∧ dst ≠ 0) && decide (src < dst ∧ dst < src + len))

/-- R417: a write of CFG, VALUE or DATA: dropped and counted while the engine is busy or bound. -/
def State.crcTake (s : State) (d k : Nat) (f : State → State) : State := if s.crcBound d k ∨ s.crcBusy d k then s.crcDrop d k else f s

/-- R416: input units written by software; a width that the algorithm does not take leaves a free value. -/
def State.crcData (s : State) (d k : Nat) (ok : Bool) (xs : List Nat) : State :=
  s.crcTake d k fun s =>
    if ok then s.setCrcValue d k (xs.foldl (crcUnit (s.crcPoly d k)) (s.crcValue d k))
    else s.tick.setCrcValue d k (s.free 12)

def State.crcData32 (s : State) (d k : Nat) (v : Word) : State :=
  s.crcData d k true (if s.crcPoly d k = 3 then [getBits v 0 10, getBits v 16 10] else (List.range 4).map fun i => getBits v (8 * i) 8)
def State.crcData16 (s : State) (d k : Nat) (v : Word) : State := s.crcData d k (s.crcPoly d k == 3) [getBits v 0 10]
def State.crcData8 (s : State) (d k : Nat) (v : Word) : State := s.crcData d k (s.crcPoly d k != 3) [getBits v 0 8]
def State.crcValueWrite (s : State) (d k : Nat) (v : Word) : State := s.crcTake d k fun s => s.setCrcValue d k v.toNat
/-- R414: a write of POLY does not change VALUE. -/
def State.crcCfgWrite (s : State) (d k : Nat) (v : Word) : State :=
  s.crcTake d k fun s =>
    let s := s.wr (F.CRC_k_CFG_POLY d k) (getBits v 0 2)
    s.wr (F.CRC_k_RESULT_RESULT d k) (s.crcValue d k ^^^ crcXor (s.crcPoly d k))
/-- Writes of SRC, DST, LEN and CLAIM: dropped on a bound engine. -/
def State.crcPlainWrite (s : State) (d k a : Nat) (mask v : Word) : State := if s.crcBound d k then s.crcDrop d k else s.setReg a (v &&& mask)

/-- CRC_DATA32, CRC_DATA16, CRC_DATA8, CRC_VALUE_WRITE (R416). -/
def execCrcData32 (d : Fin 8) (k : Fin 16) (v : Word) (s : State) : Out := .next (s.when (s.dieUp d) fun s => s.crcData32 d k v)
def execCrcData16 (d : Fin 8) (k : Fin 16) (v : Word) (s : State) : Out := .next (s.when (s.dieUp d) fun s => s.crcData16 d k v)
def execCrcData8 (d : Fin 8) (k : Fin 16) (v : Word) (s : State) : Out := .next (s.when (s.dieUp d) fun s => s.crcData8 d k v)
def execCrcValueWrite (d : Fin 8) (k : Fin 16) (v : Word) (s : State) : Out := .next (s.when (s.dieUp d) fun s => s.crcValueWrite d k v)

/-- R417: a read of CRC_k_CLAIM returns the old value and sets it to 1. -/
def State.crcClaim (s : State) (d k : Nat) : State :=
  { s.wr (F.CRC_k_CLAIM_CLAIM d k) 1 with rdata := s.reg (R.CRC_k_CLAIM d k) }
/-- CRC_CLAIM_READ, CRC_CLAIM_RELEASE (R417). -/
def execCrcClaimRead (d : Fin 8) (k : Fin 16) (s : State) : Out := .next (s.when (s.dieUp d) fun s => s.crcClaim d k)
def execCrcClaimRelease (d : Fin 8) (k : Fin 16) (s : State) : Out :=
  .next (s.when (s.dieUp d) fun s => s.crcPlainWrite d k (R.CRC_k_CLAIM d k) 1 0)

end Sys2Proof.Machine
end

