-- ==== Sys2Proof/Machine/Hbm.lean ====
section
/-!
DEFINITION. Sys2Proof/Machine/Hbm.lean: the HBM3E controllers (18_memory_subsystem.md): states, refresh, temperature, row
disturbance, errors, map locks, training helpers, and the host's window (R87).
-/
namespace Sys2Proof.Machine

def State.hbmSt (s : State) (d : Nat) : HbmSt := mapGet (fun _ => HbmSt.init) s.hbms d
def State.setHbm (s : State) (d : Nat) (x : HbmSt) : State := { s with hbms := mapSet (fun _ => HbmSt.init) s.hbms d x }
def pHbm (d : Nat) : Nat := mkPath [d, 15]
def State.hbmRefuse (s : State) (d code a : Nat) : State := s.refuse (pHbm d) [R.HBM_STATUS d] code a
def State.hbmState (s : State) (d : Nat) : Nat := s.rd (F.HBM_STATUS_STATE d)

/-! ## States -/

/-- R30: a crown comes back into service: its controller is READY, its cores run, its module is up. -/
def State.serveCrown (s : State) (d : Nat) : State :=
  if s.rst.needReset.contains d ∧ s.hbmReady d ∧ s.on (F.BOOT_CORES_RUN d) ∧ s.rd (F.LANE_UCIk_STATUS_STATE d) = 2 then
    ({ s with rst := { s.rst with needReset := s.rst.needReset.filter (· != d) } } : State).modeUpdate
  else s

/-- R386: the controller of crown d goes to FAULT; a pair side on the crown fails (R355). -/
def State.hbmFault (s : State) (d : Nat) : State :=
  let s := s.wr (F.HBM_STATUS_STATE d) 3
  let s := { s with rst := { s.rst with faults := if s.rst.faults.contains (pHbm d) then s.rst.faults else s.rst.faults ++ [pHbm d] } }
  (s.event (pHbm d) 0xAC02 0xFFFF 3 0).pairScan.modeUpdate

/-- HBM_PHY_LOCK_LOSS (R386): in READY. -/
def execHbmPhyLockLoss (d : Fin 8) (s : State) : Out := .next (s.when (s.hasCrown d && s.hbmReady d) fun s => s.hbmFault d)

/-- R386, R381, R379: the code that refuses a write of HBM_CTL; 0 accepts it. -/
def State.hbmCtlCheck (s : State) (d : Nat) (v : Word) : Nat :=
  let old := s.reg (R.HBM_CTL d)
  if getBits old 0 1 = 0 ∧ getBits v 0 1 = 1 ∧ !(s.hbmState d = 1 ∧ getBits v 1 1 = 1 ∧ (s.hbmSt d).failed = []) then 0xA007
  else if getBits old 0 1 = 1 ∧ getBits v 0 1 = 0 ∧ s.hbmReady d then 0xA007
  else if getBits old 1 1 = 1 ∧ getBits v 1 1 = 0 then 0xA009
  else if getBits old 2 1 = 1 ∧ getBits v 2 1 = 0 then 0xA004
  else 0

/-- HOT: the interval in force, or HOT_FORCE (R382). -/
def State.showHot (s : State) (d : Nat) : State :=
  s.wr (F.HBM_STATUS_HOT d) (bit (s.on (F.HBM_CTL_REFRESH d) && ((s.hbmSt d).hotIv || s.on (F.HBM_CTL_HOT_FORCE d))))

/-- A write of HBM_CTL. -/
def State.hbmCtlWrite (s : State) (d : Nat) (v : Word) : State :=
  let c := s.hbmCtlCheck d v
  if c ≠ 0 then s.hbmRefuse d c (R.HBM_CTL d)
  else
    let en := getBits (s.reg (R.HBM_CTL d)) 0 1 = 0 ∧ getBits v 0 1 = 1
    let ref := !s.on (F.HBM_CTL_REFRESH d) && getBits v 1 1 == 1
    let s := s.setReg (R.HBM_CTL d) (v &&& 0xF)
    let s := (if ref then s.setHbm d { s.hbmSt d with refAt := s.cycle, rhAt := s.cycle } else s).showHot d
    if en then (s.wr (F.HBM_STATUS_STATE d) 2).serveCrown d else s

/-- HBM_EN, HBM_REFRESH_START, HBM_MAP_LOCK, HBM_HOT_FORCE (R386, R381, R379, R382): writes of one bit of HBM_CTL. -/
def execHbmEn (d : Fin 8) (en : Bool) (s : State) : Out :=
  .next (s.when (s.hasCrown d && s.dieUp d) fun s => s.hbmCtlWrite d (putBits (s.reg (R.HBM_CTL d)) 0 1 (bit en)))
def execHbmRefreshStart (d : Fin 8) (s : State) : Out :=
  .next (s.when (s.hasCrown d && s.dieUp d) fun s => s.hbmCtlWrite d (putBits (s.reg (R.HBM_CTL d)) 1 1 1))
def execHbmMapLock (d : Fin 8) (s : State) : Out :=
  .next (s.when (s.hasCrown d && s.dieUp d) fun s => s.hbmCtlWrite d (putBits (s.reg (R.HBM_CTL d)) 2 1 1))
def execHbmHotForce (d : Fin 8) (on : Bool) (s : State) : Out :=
  .next (s.when (s.hasCrown d && s.dieUp d) fun s => s.hbmCtlWrite d (putBits (s.reg (R.HBM_CTL d)) 3 1 (bit on)))

/-! ## Refresh and row disturbance -/

def HbmSt.table (x : HbmSt) (pc : Nat) : List (Nat × Nat × Nat) := mapGet (fun _ => []) x.acts pc
def HbmSt.flagged (x : HbmSt) (pc : Nat) : List (Nat × Nat) := mapGet (fun _ => []) x.flags pc
def HbmSt.setTable (x : HbmSt) (pc : Nat) (t : List (Nat × Nat × Nat)) : HbmSt := { x with acts := mapSet (fun _ => []) x.acts pc t }
def HbmSt.setFlags (x : HbmSt) (pc : Nat) (t : List (Nat × Nat)) : HbmSt := { x with flags := mapSet (fun _ => []) x.flags pc t }

/-- The lowest count of a table, and the first index that holds it. -/
def lowest (t : List (Nat × Nat × Nat)) : Nat := t.foldl (fun m e => min m e.2.2) 65535
def lowestAt (t : List (Nat × Nat × Nat)) : Nat := t.findIdx fun e => e.2.2 == lowest t

/-- R383: the table after an activate, the new count of the row, and whether an entry was evicted. -/
def countAct (t : List (Nat × Nat × Nat)) (bank row : Nat) : List (Nat × Nat × Nat) × Nat × Bool :=
  match t.find? fun e => e.1 == bank && e.2.1 == row with
  | some (_, _, n) => (t.map fun e => if e.1 = bank ∧ e.2.1 = row then (bank, row, min 65535 (n + 1)) else e, min 65535 (n + 1), false)
  | none =>
    if t.length < 32 then (t ++ [(bank, row, 1)], 1, false)
    else (t.set (lowestAt t) (bank, row, min 65535 (lowest t + 1)), min 65535 (lowest t + 1), true)

/-- R383, R384: an activate of a row of crown d: counted, and flagged at THRESH. -/
def State.activate (s : State) (d : Nat) (p : Place) : State :=
  let x := s.hbmSt d
  let (t, n, ev) := countAct (x.table p.pc) p.bank p.row
  let x := x.setTable p.pc t
  let fl := x.flagged p.pc
  let x := if s.rd (F.HBM_RH_CFG_THRESH d) ≤ n ∧ !fl.contains (p.bank, p.row) then x.setFlags p.pc (fl ++ [(p.bank, p.row)]) else x
  let s := s.setHbm d x
  if ev then s.inc (F.HBM_CNT_RH_EVICTIONS d) else s

/-- R380, R383: an access to a row: an activate unless the row is open; it stays open only while the next request in the bank's queue
hits it. -/
def State.rowAccess (s : State) (d : Nat) (p : Place) (hit : Bool) : State :=
  let k := p.pc * 32 + p.bank
  let s := if (s.hbmSt d).rows.contains (k, p.row) then s else s.activate d p
  let x := s.hbmSt d
  s.setHbm d { x with rows := x.rows.filter (·.1 != k) ++ if hit then [(k, p.row)] else [] }

/-- R384: the neighbour rows of a served row. -/
def rhNeighbours (wide : Bool) (e : Nat × Nat) : List (Nat × Nat) :=
  ((if wide then [-2, -1, 1, 2] else [-1, 1]).filterMap fun (k : Int) =>
    let r := (e.2 : Int) + k
    if 0 ≤ r ∧ r < 24576 then some (e.1, r.toNat) else none)

/-- R384: what a window refreshes on a pseudo-channel: its two oldest flagged rows' neighbours, each once. -/
def HbmSt.served (x : HbmSt) (pc : Nat) : List (Nat × Nat) := (x.flagged pc).take 2
def HbmSt.victims (x : HbmSt) (wide : Bool) (pc : Nat) : List (Nat × Nat) := ((x.served pc).flatMap (rhNeighbours wide)).eraseDups

/-- R384: served rows' counts return to zero and their flags clear. -/
def HbmSt.serve (x : HbmSt) (pc : Nat) : HbmSt :=
  let sv := x.served pc
  if sv = [] then x
  else (x.setTable pc ((x.table pc).map fun e => if sv.contains (e.1, e.2.1) then (e.1, e.2.1, 0) else e)).setFlags pc ((x.flagged pc).drop 2)

/-- R381: the length of the window that opens now, in ns: TRFC, and TRC for each neighbour row on the pseudo-channel with the
most. -/
def State.hbmWindow (s : State) (d : Nat) : Nat :=
  let x := s.hbmSt d
  let wide := s.on (F.HBM_CFG_NEIGH d)
  s.rd (F.HBM_TIMING_TRFC d) + (x.flags.foldl (fun m (pc, _) => max m (x.victims wide pc).length) 0) * s.rd (F.HBM_TIMING_TRC d)

/-- R381: the refresh interval in cycles. -/
def State.refInterval (s : State) (d : Nat) : Nat := if s.on (F.HBM_STATUS_HOT d) then 780 else 1560

/-- R381, R382, R384: a refresh window of crown d: every bank closes, flagged rows are served, and the interval that follows is hot or
not. -/
def State.refreshTick (s : State) (d : Nat) : State :=
  let x := s.hbmSt d
  let n := (x.flags.map fun (pc, _) => (x.served pc).length).sum
  let y := (x.flags.map (·.1)).foldl (fun y pc => y.serve pc) { x with window := s.hbmWindow d, hotIv := x.hotT || x.noTemp, rows := [], refAt := x.refAt + s.refInterval d }
  (((s.setHbm d y).incWrap (F.HBM_CNT_REF_REFRESHES d)).add (F.HBM_CNT_RH_MITIGATIONS d) n).showHot d

/-- HBM_REFRESH_TICK (R381): once refresh has started, at each interval. -/
def execHbmRefreshTick (d : Fin 8) (s : State) : Out :=
  .next (s.when (s.hasCrown d && s.on (F.HBM_CTL_REFRESH d) && decide ((s.hbmSt d).refAt + s.refInterval d ≤ s.cycle)) fun s => s.refreshTick d)

/-- R383: every count returns to zero. -/
def State.rhWindow (s : State) (d : Nat) : State :=
  let x := s.hbmSt d
  s.setHbm d { x with acts := x.acts.map fun (pc, t) => (pc, t.map fun e => (e.1, e.2.1, 0)), rhAt := x.rhAt + 12800000 }
/-- HBM_RH_WINDOW (R383): every 32 ms from the start of refresh. -/
def execHbmRhWindow (d : Fin 8) (s : State) : Out :=
  .next (s.when (s.hasCrown d && s.on (F.HBM_CTL_REFRESH d) && decide ((s.hbmSt d).rhAt + 12800000 ≤ s.cycle)) fun s => s.rhWindow d)

/-! ## Temperature and the 1500 port -/

/-- R382: a temperature reading, in degrees. -/
def State.hbmTemp (s : State) (d : Nat) (t : Int) : State :=
  let x := s.hbmSt d
  let cool := if t ≤ 82 then min 10 (x.cool + 1) else 0
  let hot := if 85 < t then true else if cool = 10 then false else x.hotT
  let mx := if x.seen then max t (s.rdS (F.HBM_TEMP_MAX d)) else t
  ((s.setHbm d { x with cool := cool, hotT := hot, noTemp := false, seen := true }).wrS (F.HBM_TEMP_TEMP d) t).wrS (F.HBM_TEMP_MAX d) mx
/-- HBM_TEMP_READ (R382). -/
def execHbmTempRead (d : Fin 8) (t : Fin 256) (s : State) : Out :=
  .next (s.when (s.hasCrown d && decide (s.hbmState d ≠ 0)) fun s => s.hbmTemp d (signed 8 t.val))

/-- R382: a temperature read without an answer. -/
def State.hbmNoTemp (s : State) (d : Nat) : State :=
  (s.setHbm d { s.hbmSt d with noTemp := true, cool := 0 }).event (pHbm d) 0xAC02 0xFFFF (s.hbmState d) 1
/-- HBM_TEMP_TIMEOUT (R382). -/
def execHbmTempTimeout (d : Fin 8) (s : State) : Out :=
  .next (s.when (s.hasCrown d && decide (s.hbmState d ≠ 0)) fun s => s.hbmNoTemp d)

/-- R382: a write of HBM_1500_CMD: with GO it starts an instruction, where the port is available (R386). -/
def State.hbm1500Write (s : State) (d : Nat) (v : Word) : State :=
  let s := s.setReg (R.HBM_1500_CMD d) (v &&& 0x800FFFFF)
  if getBits v 31 1 = 1 ∧ s.hbmState d ≠ 0 then s.wr (F.HBM_1500_STATUS_BUSY d) 1 else s
/-- HBM_1500_GO (R382). -/
def execHbm1500Go (d : Fin 8) (v : Word) (s : State) : Out :=
  .next (s.when (s.hasCrown d && s.dieUp d) fun s => s.hbm1500Write d (v ||| 0x80000000))

/-- The command ends: the data it shifts out, LEN bits of it, stands in the data words. -/
def State.hbm1500End (s : State) (d : Nat) (data : List Word) : State :=
  let n := min data.length ((s.rd (F.HBM_1500_CMD_LEN d) + 31) / 32)
  let s := (data.take n).zipIdx.foldl (fun s (v, w) => if w < 16 then s.setReg (R.HBM_1500_DATAw d w) v else s) s
  s.wr (F.HBM_1500_STATUS_BUSY d) 0
/-- HBM_1500_DONE (R382). -/
def execHbm1500Done (d : Fin 8) (data : List Word) (s : State) : Out :=
  .next (s.when (s.hasCrown d && s.on (F.HBM_1500_STATUS_BUSY d)) fun s => s.hbm1500End d data)

/-! ## Reads and their errors -/

/-- R385: the on-die ECC severity of a read: 0 none, 1 corrected, 2 uncorrectable. -/
def State.hbmEcc (s : State) (d : Nat) (p : Place) (sev : Nat) : State :=
  match sev with
  | 0 => s
  | 1 => s.inc (F.HBM_CNT_ECC_CORRECTED d)
  | _ =>
    let x := s.hbmSt d
    let at_ := s.cycle :: x.uncAt.filter fun c => decide (s.cycle < c + 400000000)
    let s := (s.setHbm d { x with uncAt := at_ }).inc (F.HBM_CNT_ECC_UNCORR d)
    let s := s.setReg (R.HBM_ECC_ADDR d) (BitVec.ofNat 32 (p.pc + p.bank * 32 + p.row * 1024))
    let s := s.event (pHbm d) 0xAC01 0xFFFF (s.reg (R.HBM_ECC_ADDR d)).toNat 0
    if s.rd (F.HBM_ECC_LIMIT_UNCORR_MAX d) < at_.length then s.hbmFault d else s

/-- R386, R380, R385: a read of crown d's stack at an offset, by a fabric master. -/
def State.hbmReadDone (s : State) (d master off : Nat) (hit : Bool) (sev : Nat) : State :=
  let p := s.place d off
  if !s.hbmReady d then s.fabFail d master false (0x100000000 + off)
  else (s.rowAccess d p hit).hbmEcc d p sev
/-- HBM_READ_DONE (R385). -/
def execHbmReadDone (d : Fin 8) (master : Fin 16) (off : Nat) (hit : Bool) (sev : Fin 3) (s : State) : Out :=
  .next (s.when (s.hasCrown d && decide (off < 24 * 2 ^ 30)) fun s => s.hbmReadDone d master off hit sev)

/-- R87: a host access to the HDM window: a write of a line's bytes, or a read of 64. -/
def State.hdmAccess (s : State) (o : Nat) (w : Option (List Byte)) : State :=
  (s.hdm o).elim s fun (d, off) =>
    if !s.hbmReady d then s.fabFail d 2 w.isSome (0x100000000 + off)
    else match w with
      | some bs => s.hbmPut d off bs
      | none => s.send (.hdmData ((List.range 64).map fun i => s.hbmByte d (off / 64 * 64 + i)))
/-- HDM_WINDOW_ACCESS (R87): in CXL mode with the decoder committed. -/
def execHdmWindowAccess (o : Nat) (w : Option (List Byte)) (s : State) : Out :=
  .next (s.when (s.rd F.HIF_STATUS_MODE == 1 && s.on F.HIF_STATUS_DECODER) fun s => s.hdmAccess o w)

/-! ## Maps, timings, thresholds -/

/-- R379: the code that refuses region k as it stands. -/
def State.regionBad (s : State) (d k : Nat) : Nat :=
  let b := s.rd (F.HBM_MAPk_BASE_MIB d k)
  let n := s.rd (F.HBM_MAPk_SIZE_MIB d k)
  let st := s.rd (F.HBM_MAPk_CFG_STRIDE d k)
  let clash := (List.range 8).any fun m => m != k && s.on (F.HBM_MAPk_CFG_EN d m) &&
    decide (b < s.rd (F.HBM_MAPk_BASE_MIB d m) + s.rd (F.HBM_MAPk_SIZE_MIB d m) ∧ s.rd (F.HBM_MAPk_BASE_MIB d m) < b + n)
  if !s.on (F.HBM_MAPk_CFG_EN d k) then 0
  else if n = 0 ∨ clash ∨ 24576 < b + n then 0xA002
  else if s.rd (F.HBM_MAPk_CFG_ORDER d k) = 3 ∧ (st = 0 ∨ n * 2 ^ 20 % (64 * st * 128) ≠ 0) then 0xA003
  else 0

/-- R379: a write of a register of region k. -/
def State.hbmMapWrite (s : State) (d k a : Nat) (v : Word) : State :=
  if s.on (F.HBM_CTL_MAP_LOCK d) then s.hbmRefuse d 0xA004 a
  else
    let t := s.setReg a v
    let c := t.regionBad d k
    if c ≠ 0 then s.hbmRefuse d c a else t

/-- R379, R388: a write of HBM_CFG. -/
def State.hbmCfgWrite (s : State) (d : Nat) (v : Word) : State :=
  if s.on (F.HBM_CTL_MAP_LOCK d) ∧ getBits v 0 2 ≠ s.rd (F.HBM_CFG_DEFAULT d) then s.hbmRefuse d 0xA004 (R.HBM_CFG d)
  else if s.hbmReady d ∧ getBits v 2 1 ≠ s.rd (F.HBM_CFG_NEIGH d) then s.hbmRefuse d 0xA005 (R.HBM_CFG d)
  else s.setReg (R.HBM_CFG d) (v &&& 7)

/-- R388: a write of HBM_TIMING. -/
def State.hbmTimingWrite (s : State) (d : Nat) (v : Word) : State :=
  let trfc := getBits v 0 10
  let trc := getBits v 10 8
  if s.hbmReady d ∨ trfc < 100 ∨ 1000 < trfc ∨ trc < 20 then s.hbmRefuse d 0xA005 (R.HBM_TIMING d)
  else s.setReg (R.HBM_TIMING d) (v &&& 0x3FFFF)

def State.hbmRhWrite (s : State) (d : Nat) (v : Word) : State :=
  if getBits v 0 16 < 64 then s.hbmRefuse d 0xA006 (R.HBM_RH_CFG d) else s.setReg (R.HBM_RH_CFG d) (v &&& 0xFFFF)

/-- The delay tap that HBM_DLY_SEL names. -/
def State.dlyKey (s : State) (d : Nat) : Nat :=
  s.rd (F.HBM_DLY_SEL_PC d) * 128 + s.rd (F.HBM_DLY_SEL_LANE d) * 2 + s.rd (F.HBM_DLY_SEL_DIR d)
def State.hbmTap (s : State) (d : Nat) : Nat := mapGet (fun _ => 256) (s.hbmSt d).taps (s.dlyKey d)
def State.hbmDlyWrite (s : State) (d : Nat) (v : Word) : State :=
  if s.hbmReady d then s.hbmRefuse d 0xA007 (R.HBM_DLY d)
  else s.setHbm d { s.hbmSt d with taps := mapSet (fun _ => 256) (s.hbmSt d).taps (s.dlyKey d) (getBits v 0 9) }

/-! ## Training helpers -/

/-- R387: the pseudo-channels of an operation. -/
def trainPcs (v : Word) : List Nat := if getBits v 7 1 = 1 then List.range 32 else [getBits v 2 5]

/-- R387: the bytes of an operation, LEN blocks of each bank: pseudo-channel, offset, key, and the pattern's byte; SEED repeated is the
word itself, the other generators' order is a free value. -/
def State.trainCells (s : State) (d : Nat) (v : Word) : List (Nat × Nat × Nat × Byte) :=
  let row := getBits v 11 15
  let n := getBits v 26 6 + 1
  let seed := s.rd (F.HBM_TRAIN_SEED_SEED d)
  (trainPcs v).flatMap fun pc => (List.range 32).flatMap fun bank => (List.range n).flatMap fun c => (List.range 64).map fun b =>
    (pc, b, (⟨row + c / 16, bank, pc, c % 16⟩ : Place).key d b,
      if getBits v 8 3 = 5 then BitVec.ofNat 8 (seed / 2 ^ (8 * (b % 4))) else Config.trainByte (getBits v 8 3) seed pc bank (c * 64 + b))

/-- R387: WRITE fills the blocks with the pattern. -/
def State.trainFill (s : State) (d : Nat) (v : Word) : State :=
  { s with hbm := (s.trainCells d v).foldl (fun m (_, _, k, x) => mapSet (fun _ => 0) m k x) s.hbm }

/-- R376, R387: READ compares: the data lanes (bit of the 32-bit beat) and bits on which the stack differs from the pattern. -/
def State.trainDiff (s : State) (d : Nat) (v : Word) : List (Nat × Nat) :=
  (s.trainCells d v).flatMap fun (pc, b, k, x) =>
    let diff := memRead s.hbm k ^^^ x
    (List.range 8).filterMap fun i => if diff.getLsbD i then some (pc, b % 4 * 8 + i) else none

/-- TRAIN_ERR shows the failed lanes of the selected pseudo-channel. -/
def State.showLanes (s : State) (d pc : Nat) : State :=
  let ls := (s.hbmSt d).failed.filterMap fun (p, l) => if p = pc then some l else none
  let w := fun (lo n : Nat) => BitVec.ofNat 32 ((List.range n).map fun k => if ls.contains (lo + k) then 2 ^ k else 0).sum
  (s.setReg (R.HBM_TRAIN_ERR_LO d) (w 0 32)).setReg (R.HBM_TRAIN_ERR_HI d) (w 32 8)

/-- R387, R386: a write of HBM_TRAIN_CTL. -/
def State.hbmTrainWrite (s : State) (d : Nat) (v : Word) : State :=
  let op := getBits v 0 2
  if op = 0 then s.setHbm d { s.hbmSt d with loop := false }
  else if s.hbmState d ≠ 1 ∨ 6 ≤ getBits v 8 3 then s.hbmRefuse d 0xA007 (R.HBM_TRAIN_CTL d)
  else if s.on (F.HBM_TRAIN_STATUS_BUSY d) then s.hbmRefuse d 0xA008 (R.HBM_TRAIN_CTL d)
  else
    let s := s.setReg (R.HBM_TRAIN_CTL d) v
    let x := s.hbmSt d
    let s := s.setHbm d { x with loop := op == 3, failed := x.failed.filter fun (p, _) => op == 1 || !(trainPcs v).contains p }
    let s := if op = 2 then s else s.trainFill d v
    let s := s.setReg (R.HBM_TRAIN_STATUS d) 1
    (s.setReg (R.HBM_TRAIN_ERR_LO d) 0).setReg (R.HBM_TRAIN_ERR_HI d) 0

/-- The operands of a helper operation as a word of HBM_TRAIN_CTL. -/
def trainWord (op : Nat) (pc : Fin 32) (all : Bool) (pattern : Fin 8) (row : Fin 32768) (len : Fin 64) : Word :=
  BitVec.ofNat 32 (op + pc.val * 4 + bit all * 128 + pattern.val * 256 + row.val * 2048 + len.val * 2 ^ 26)

/-- HBM_TRAIN_WRITE, HBM_TRAIN_READ, HBM_TRAIN_LOOP, HBM_TRAIN_STOP (R387): writes of HBM_TRAIN_CTL. -/
def execHbmTrainWrite (d : Fin 8) (pc : Fin 32) (all : Bool) (pattern : Fin 8) (row : Fin 32768) (len : Fin 64) (s : State) : Out :=
  .next (s.when (s.hasCrown d && s.dieUp d) fun s => s.hbmTrainWrite d (trainWord 1 pc all pattern row len))
def execHbmTrainRead (d : Fin 8) (pc : Fin 32) (all : Bool) (pattern : Fin 8) (row : Fin 32768) (len : Fin 64) (s : State) : Out :=
  .next (s.when (s.hasCrown d && s.dieUp d) fun s => s.hbmTrainWrite d (trainWord 2 pc all pattern row len))
def execHbmTrainLoop (d : Fin 8) (pc : Fin 32) (all : Bool) (pattern : Fin 8) (row : Fin 32768) (len : Fin 64) (s : State) : Out :=
  .next (s.when (s.hasCrown d && s.dieUp d) fun s => s.hbmTrainWrite d (trainWord 3 pc all pattern row len))
def execHbmTrainStop (d : Fin 8) (s : State) : Out :=
  .next (s.when (s.hasCrown d && s.dieUp d) fun s => s.hbmTrainWrite d 0)

/-- R387: an operation ends: lanes that miscompared on the way, by pseudo-channel, and their bits, beside what the stack itself differs in. -/
def State.trainDone (s : State) (d : Nat) (errs : List (Fin 32 × Fin 40)) (bits : Nat) : State :=
  let x := s.hbmSt d
  let v := s.reg (R.HBM_TRAIN_CTL d)
  let diff := if getBits v 0 2 = 2 then s.trainDiff d v else []
  let new := if getBits v 0 2 = 1 then [] else ((errs.map fun (p, l) => (p.val, l.val)).filter fun e => (trainPcs v).contains e.1) ++ diff
  let s := s.setHbm d { x with loop := false, failed := (x.failed ++ new).eraseDups }
  let s := s.setReg (R.HBM_TRAIN_STATUS d) (BitVec.ofNat 32 ((if getBits v 0 2 = 1 then 0 else min (2 ^ 31 - 1) (bits + diff.length)) * 2))
  if getBits v 0 2 = 1 then s else s.showLanes d (getBits v 2 5)
/-- HBM_TRAIN_DONE (R387): a LOOP completes once it has been stopped. -/
def execHbmTrainDone (d : Fin 8) (errs : List (Fin 32 × Fin 40)) (bits : Nat) (s : State) : Out :=
  .next (s.when (s.hasCrown d && s.on (F.HBM_TRAIN_STATUS_BUSY d) && !(s.hbmSt d).loop) fun s => s.trainDone d errs bits)

end Sys2Proof.Machine
end

