-- ==== Sys2Proof/Machine/Lane.lean ====
section
/-!
DEFINITION. Sys2Proof/Machine/Lane.lean: serial lanes, Ethernet ports, quads and UCIe modules
(19_serial_lanes_and_link_test.md; R26 to R30): bring-up, dormant state, pattern test, retrains, and their checks. Lanes 0 to 95
are the media lanes, 96 to 99 the twin lanes T0 to T3; 100 + k stands for module k.
-/
namespace Sys2Proof.Machine

def State.lane (s : State) (n : Nat) : LaneSt := mapGet (fun _ => LaneSt.init) s.lanes n
def State.setLane (s : State) (n : Nat) (x : LaneSt) : State := { s with lanes := mapSet (fun _ => LaneSt.init) s.lanes n x }
def State.laneOn (s : State) (n : Nat) : Bool := s.on (F.LANE_n_CFG_EN n)
def State.laneMode (s : State) (n : Nat) : Nat := s.rd (F.LANE_n_CFG_MODE n)
def State.laneStage (s : State) (n : Nat) : Nat := s.rd (F.LANE_n_STATUS_STAGE n)
def State.laneRefuse (s : State) (n code a : Nat) : State := s.refuse (lanePath n) [R.LANE_n_STATUS n, R.LANE_STATUS] code a

/-! ## Ports -/

def State.portOn (s : State) (m : Nat) : Bool := s.on (F.LANE_ETHm_CFG_EN m)
/-- R392, R404: lanes of port m. -/
def State.portWidth (s : State) (m : Nat) : Nat := 2 ^ s.rd (F.LANE_ETHm_CFG_WIDTH m)
def State.portLanes (s : State) (m : Nat) : List Nat := (List.range (s.portWidth m)).map (m + ·)
def State.portSpeed (s : State) (m : Nat) : Nat := s.rd (F.LANE_ETHm_CFG_SPEED m)

/-- The enabled port that a media lane belongs to. -/
def State.portOf (s : State) (n : Nat) : Option Nat :=
  (List.range 96).find? fun m => s.portOn m && decide (m ≤ n ∧ n < m + s.portWidth m)

/-- R392: SPEED, width and FEC form a row of the table. -/
def portRow (speed width fec : Nat) : Bool :=
  [(0, 1, 0), (0, 1, 1), (1, 1, 0), (1, 1, 1), (1, 1, 2), (2, 1, 3), (2, 2, 3), (3, 2, 3), (3, 4, 2), (4, 4, 3), (5, 8, 3)].contains (speed, width, fec)

/-- R392: the lane rate of a port, in kbit/s for NRZ and kBd for PAM4, and whether it is PAM4. -/
def portRate (speed width : Nat) : Nat × Bool :=
  match speed, width with
  | 0, _ => (10312500, false)
  | 1, _ => (25781250, false)
  | 2, 2 => (26562500, false)
  | 3, 4 => (25781250, false)
  | _, _ => (26562500, true)

/-- R394: a port is up while every lane of it is ACTIVE. -/
def State.portUp (s : State) (m : Nat) : Bool := s.portOn m && (s.portLanes m).all fun n => s.laneStage n == 5

/-- LANE_ETHm_STATUS; a port that comes up looks at its queues again. -/
def State.showPort (s : State) (m : Nat) : State :=
  let was := s.on (F.LANE_ETHm_STATUS_UP m)
  let up := s.portUp m
  let s := ((s.wr (F.LANE_ETHm_STATUS_UP m) (bit up)).wr (F.LANE_ETHm_STATUS_LOCAL_FAULT m) (bit (s.portOn m && !up))).wr
    (F.LANE_ETHm_STATUS_FEC_LOCK m) (bit (up && decide (s.rd (F.LANE_ETHm_CFG_FEC m) ≠ 0)))
  if up ∧ !was then s.portPick m else s

/-! ## The twin link -/

/-- R368, R373: LANES and LINK of TWIN_STATUS; CAPS goes out at link-up. -/
def State.showTwin (s : State) : State :=
  let was := s.rd F.TWIN_STATUS_LINK
  let mask := ((List.range 4).map fun t => if s.laneStage (96 + t) = 5 then 2 ^ t else 0).sum
  let training := (List.range 4).any fun t => decide (1 ≤ s.laneStage (96 + t) ∧ s.laneStage (96 + t) ≤ 4)
  let link := if mask ≠ 0 then 2 else if training then 1 else 0
  let s := (s.wr F.TWIN_STATUS_LANES mask).wr F.TWIN_STATUS_LINK link
  if link = 2 ∧ was ≠ 2 then s.sendCaps else s

/-! ## Quads -/

/-- R391, R398: the PLL frequency that a lane's rate calls for, in kHz x 1001; for SDI, of which every rate is a division. -/
def State.laneFreq (s : State) (n : Nat) : Nat :=
  if 96 ≤ n then 26562500 * 1001
  else if s.laneMode n ≠ 0 then 11880000 * (if s.on (F.LANE_n_CFG_SDI_FRAC n) then 1000 else 1001)
  else match s.portOf n with
    | some m => (portRate (s.portSpeed m) (s.portWidth m)).1 * 1001
    | none => s.rd (F.LANE_n_TRATE_MBPS n) * 1000 * 1001

/-- R391: a PLL frequency serves a rate through a divider of 1, 2, 4 or 8. -/
def serves (f r : Nat) : Bool := f == r || f == 2 * r || f == 4 * r || f == 8 * r

/-- The PLL frequencies that rates need, the highest first. -/
def pllFreqs (rates : List Nat) : List Nat :=
  (rates.mergeSort fun a b => decide (b ≤ a)).foldl (fun fs r => if fs.any (serves · r) then fs else fs ++ [r]) []

def quadLanes (q : Nat) : List Nat := (List.range 4).map (4 * q + ·)
def State.quadUsers (s : State) (q : Nat) : List Nat := (quadLanes q).filter s.laneOn
def State.quadFreqs (s : State) (q : Nat) : List Nat := pllFreqs ((s.quadUsers q).map s.laneFreq)

/-- Whether a lane needs its PLL running: it is out of OFF and DORMANT. -/
def State.laneAwake (s : State) (n : Nat) : Bool :=
  (s.laneStage n != 0 && s.laneStage n != 6) || s.on (F.LANE_n_STATUS_EXITING n)

/-- A frequency in MHz. -/
def mhz (f : Nat) : Nat := f / 1001000 + bit (decide (f % 1001000 ≠ 0) && Config.roundUp f 1001000)

/-- R391, R397: the PLLs of quad q: A takes the first frequency, B the second; one runs while a lane that uses it is awake. -/
def State.showQuad (s : State) (q : Nat) : State :=
  let fs := s.quadFreqs q
  let users := fun i => (s.quadUsers q).filter fun n => fs.findIdx (serves · (s.laneFreq n)) == i
  let run := fun i => (users i).any s.laneAwake
  let freq := fun i => if run i then mhz (fs.getD i 0) else 0
  let s1 := (s.setReg (R.LANE_Qq_STATUS q) (BitVec.ofNat 32 (bit (run 0) + bit (run 1) * 2 + (users 0).length * 4 + (users 1).length * 32))).setReg
    (R.LANE_Qq_FREQ q) (BitVec.ofNat 32 (freq 0 + freq 1 * 65536))
  (quadLanes q).foldl (fun t n => t.wr (F.LANE_n_STATUS_PLL_OK n) (bit (((users 0).contains n && run 0) || ((users 1).contains n && run 1)))) s1

/-! ## Bring-up -/

/-- What a lane's change of state shows: its quad, its port, the twin link (R396). -/
def State.showLane (s : State) (n : Nat) : State :=
  let s := s.showQuad (n / 4)
  if 96 ≤ n then s.showTwin else match s.portOf n with | some m => s.showPort m | none => s

/-- Put lane n into a state of R394, with or without CDR lock. -/
def State.setStage (s : State) (n st : Nat) (cdr : Bool) : State :=
  ((s.wr (F.LANE_n_STATUS_STAGE n) st).wr (F.LANE_n_STATUS_CDR_LOCK n) (bit cdr)).showLane n

/-- R394: back to DETECT: bring-up starts again, and the generator and checker stop. -/
def State.toDetect (s : State) (n : Nat) : State :=
  let s := s.setLane n { s.lane n with exch := false, relock := false }
  ((s.wr (F.LANE_n_STATUS_RX_PRESENT n) 0).wr (F.LANE_n_STATUS_CHK_LOCK n) 0).setStage n 1 false

/-- R395: whether stage 4 applies to a lane, and whether it runs before stage 2 (Ethernet with AN = 1). -/
def State.laneAn (s : State) (n : Nat) : Bool :=
  decide (n < 96) && s.laneMode n == 0 && (match s.portOf n with | some m => s.on (F.LANE_ETHm_CFG_AN m) | none => false)
def State.laneTrains (s : State) (n : Nat) : Bool :=
  decide (96 ≤ n) || (s.laneMode n == 0 && (match s.portOf n with | some m => s.on (F.LANE_ETHm_CFG_TRAIN m) | none => false))
/-- R395: stage 1 is skipped for SDI and with PROBE = 0. -/
def State.laneProbes (s : State) (n : Nat) : Bool := (decide (96 ≤ n) || s.laneMode n == 0) && s.on (F.LANE_n_CFG_PROBE n)

/-- R394: a lane becomes ACTIVE: its run of timeouts ends. -/
def State.toActive (s : State) (n : Nat) : State := (s.setLane n { s.lane n with fails := 0 }).setStage n 5 true

/-- R394: stage 1 done. -/
def State.detected (s : State) (n : Nat) : State := s.setStage n (if s.laneAn n then 4 else 2) false

/-- R395: the 1 ms probe. -/
def State.probe (s : State) (n : Nat) (present : Bool) : State :=
  let s := s.wr (F.LANE_n_STATUS_RX_PRESENT n) (bit present)
  if present then s.detected n else s
/-- LANE_DETECT_PROBE (R395): in DETECT, where stage 1 applies. -/
def execLaneDetectProbe (n : Fin 100) (present : Bool) (s : State) : Out :=
  .next (s.when (s.laneStage n == 1 && s.laneProbes n) fun s => s.probe n present)

/-- R402: whether a twin lane's capability exchange fails: another protocol version, or its own unit id. -/
def State.twinPeerBad (s : State) (n : Nat) (same : Bool) (unit : Nat) : Bool := decide (96 ≤ n) && (!same || unit == s.twinUnit)

/-- R394: the condition of the lane's stage is met. -/
def State.stageDone (s : State) (n : Nat) (eq : Word) (same : Bool) (unit : Nat) : State :=
  match s.laneStage n with
  | 1 => if s.laneProbes n then s else s.detected n
  | 2 => (s.setReg (R.LANE_n_EQ n) ((if s.laneTrains n then eq else s.reg (R.LANE_n_TXEQ n)) &&& 0x3F3F3F)).setStage n 3 false
  | 3 => if (s.laneAn n ∨ 96 ≤ n) ∧ !(s.lane n).exch then s.setStage n 4 true else s.toActive n
  | 4 =>
    if s.twinPeerBad n same unit then s.wr (F.LANE_n_STATUS_REASON n) 0x900C
    else
      let s := s.setLane n { s.lane n with exch := true }
      if s.laneAn n then s.setStage n 2 false else s.toActive n
  | _ => s
/-- LANE_STAGE_DONE (R394): the taps that training ended with, and for a twin lane whether the peer's protocol version is this
package's, and its unit id. -/
def execLaneStageDone (n : Fin 100) (eq : Word) (same : Bool) (unit : Nat) (s : State) : Out := .next (s.stageDone n eq same unit)

/-- R394: a stage's timeout: back to DETECT; the third in a row is recorded. -/
def State.stageTimeout (s : State) (n : Nat) : State :=
  let st := s.laneStage n
  let f := (s.lane n).fails + 1
  let s := s.setLane n { s.lane n with fails := if f = 3 then 0 else f }
  let s := s.inc (F.LANE_n_CNT_RESTARTS n)
  let s := if f = 3 then s.event (lanePath n) 0x9C01 0xFFFF n st else s
  s.toDetect n
/-- LANE_STAGE_TIMEOUT (R394): in TRAIN, LOCK or EXCHANGE. -/
def execLaneStageTimeout (n : Fin 100) (s : State) : Out :=
  .next (s.when (decide (2 ≤ s.laneStage n ∧ s.laneStage n ≤ 4)) fun s => s.stageTimeout n)

/-- R394: lock is lost. -/
def State.lockLost (s : State) (n : Nat) : State := (s.inc (F.LANE_n_CNT_LOL n)).setStage n 3 false
/-- LANE_LOCK_LOST (R394): an ACTIVE lane. -/
def execLaneLockLost (n : Fin 100) (s : State) : Out := .next (s.when (s.laneStage n == 5) fun s => s.lockLost n)

/-! ## Injection -/

/-- R400: a lane's or module's generator runs, or with LIVE a twin lane or module carries traffic. -/
def State.injects (s : State) (n : Nat) : Bool :=
  if n < 100 then (s.laneStage n == 7 && s.on (F.LANE_n_PAT_GEN_EN n)) || (decide (96 ≤ n) && s.on (F.LANE_n_INJ_LIVE n) && s.laneStage n == 5)
  else (s.rd (F.LANE_UCIk_STATUS_STATE (n - 100)) == 3 && s.on (F.LANE_UCIk_PAT_GEN_EN (n - 100))) ||
    (s.on (F.LANE_UCIk_PAT_LIVE (n - 100)) && s.rd (F.LANE_UCIk_STATUS_STATE (n - 100)) == 2)
def injModeOf (n : Nat) : Fld := if n < 100 then F.LANE_n_INJ_MODE n else F.LANE_UCIk_PAT_INJ_MODE (n - 100)
def injRateOf (n : Nat) : Fld := if n < 100 then F.LANE_n_INJ_RATE_LOG2 n else F.LANE_UCIk_PAT_RATE_LOG2 (n - 100)

/-- R400: MODE 1 injects at the next bit; MODE then reads 0. -/
def State.injectNow (s : State) (n : Nat) : State :=
  if s.rd (injModeOf n) = 1 ∧ s.injects n = true then (s.wr (injModeOf n) 0).send (.inject n) else s

/-- R26, R390, R393, R398: the bit rate of a lane, or of a module's 64 lanes, in 1/1.001 kbit/s. -/
def State.bitRate (s : State) (n : Nat) : Nat :=
  if 100 ≤ n then 64 * (if s.on (F.LANE_UCIk_STATUS_RATE16 (n - 100)) then 16000000 else 32000000) * 1001
  else if 96 ≤ n then 53125000 * 1001
  else if s.laneMode n ≠ 0 then 1485000 * 2 ^ s.rd (F.LANE_n_CFG_SDI_RATE n) * (if s.on (F.LANE_n_CFG_SDI_FRAC n) then 1000 else 1001)
  else match s.portOf n with
    | some m => let (r, pam) := portRate (s.portSpeed m) (s.portWidth m); r * (if pam then 2 else 1) * 1001
    | none => s.rd (F.LANE_n_TRATE_MBPS n) * 1000 * 1001

/-- R400: MODE 2 injects one error every 2^RATE_LOG2 bits: those of one 2.5 ns cycle. -/
def State.injectCycle (s : State) (n : Nat) : State :=
  if s.rd (injModeOf n) = 2 ∧ s.injects n = true then
    let pos := (s.lane n).since + s.bitRate n
    let lim := 2 ^ s.rd (injRateOf n) * 400400000
    (s.setLane n { s.lane n with since := pos % lim }).forRange (pos / lim) fun _ s => s.send (.inject n)
  else s

/-- An empty queue: the deadlines reached in the cycle act, then the dispatchers fill (R165), and one 2.5 ns cycle passes (R37, R400). -/
def State.idle (s : State) : State := s.dueCycle.fillCycle.cutCycle.decCycle.composeCycle.idleCycle.glitchCycle.forRange 108 fun n s => s.injectCycle n

/-- R400: an injection setting is refused. -/
def injBad (n mode : Nat) (live : Bool) (rate : Nat) : Bool :=
  mode == 3 || decide (rate < 8 ∨ 40 < rate) || (live && (decide (n < 96) || decide (n < 100 ∧ rate < 20) || decide (100 ≤ n ∧ rate < 24)))

/-- R400: a write of LANE_n_INJ. -/
def State.laneInjWrite (s : State) (n : Nat) (v : Word) : State :=
  if injBad n (getBits v 0 2) (getBits v 2 1 == 1) (getBits v 4 6) then s.laneRefuse n 0x9007 (R.LANE_n_INJ n)
  else ((s.setReg (R.LANE_n_INJ n) (v &&& 0x3F7)).setLane n { s.lane n with since := 0 }).injectNow n

/-! ## Lane control -/

/-- R397: whether a lane is in use. -/
def State.laneInUse (s : State) (n : Nat) : Bool :=
  if 96 ≤ n then s.on F.TWIN_CFG_EN
  else (s.portOf n).isSome ||
    ((List.range 96).any fun c => s.chOn c && s.rd (F.ING_CHc_SRC_KIND c) == 2 &&
      decide (s.rd (F.ING_CHc_SRC_LANE c) ≤ n ∧ n < s.rd (F.ING_CHc_SRC_LANE c) + 2 ^ s.rd (F.ING_CHc_SRC_LINKS c))) ||
    (List.range 5).any fun i => s.on (F.SEL_REFk_CFG_EN (6 + i)) && s.rd (F.SEL_REFk_CFG_SRC (6 + i)) == n

/-- Count bits and errored bits of a locked checker (R399), saturating at 48 bits. -/
def State.chkCount (s : State) (n bits errs : Nat) : State :=
  if s.on (F.LANE_n_STATUS_CHK_LOCK n) then
    s.setLane n { s.lane n with bits := min (2 ^ 48 - 1) ((s.lane n).bits + bits), errs := min (2 ^ 48 - 1) ((s.lane n).errs + errs) }
  else s

/-- R399: a snapshot of both counters. -/
def State.snap (s : State) (n : Nat) : State :=
  let x := s.lane n
  ((((s.wr (F.LANE_n_ERR_LO_ERR n) x.errs).wr (F.LANE_n_ERR_HI_ERR n) (x.errs / 2 ^ 32)).wr (F.LANE_n_BITS_LO_BITS n) x.bits).wr
    (F.LANE_n_BITS_HI_BITS n) (x.bits / 2 ^ 32))

/-- R394, R397, R398, R403: the code that refuses a write of LANE_n_CTL; 0 accepts it. -/
def State.laneCtlCheck (s : State) (n : Nat) (v : Word) : Nat :=
  let dorm := getBits v 0 1 = 1
  let test := getBits v 2 1 = 1
  if (dorm ∧ test) ∨ (s.laneStage n = 6 ∧ (getBits v 1 1 = 1 ∨ test)) then 0x900B
  else if ((dorm ∧ !s.on (F.LANE_n_CTL_DORMANT n)) ∨ (test ∧ !s.on (F.LANE_n_CTL_TEST n))) ∧ s.laneInUse n then 0x9002
  else 0

/-- R394, R397: DORMANT as written acts: set, it turns the lane off; cleared, the exit starts. -/
def State.dormantAct (s : State) (n : Nat) (set was : Bool) : State :=
  if set then
    if s.laneStage n = 0 then s
    else ((s.wr (F.LANE_n_STATUS_EXITING n) 0).wr (F.LANE_n_STATUS_CHK_LOCK n) 0).setStage n 6 false
  else if was ∧ s.laneStage n = 6 then (s.wr (F.LANE_n_STATUS_EXITING n) 1).showLane n
  else s

/-- R394, R398: TEST as written acts. -/
def State.testAct (s : State) (n : Nat) (set was : Bool) : State :=
  if set ∧ !was ∧ s.laneStage n ≠ 0 ∧ s.laneStage n ≠ 6 then (s.setStage n 7 false).injectNow n
  else if !set ∧ was ∧ s.laneStage n = 7 then s.toDetect n
  else s

/-- R403: a write of LANE_n_CTL: RESTART and SNAP read 0. -/
def State.laneCtlWrite (s : State) (n : Nat) (v : Word) : State :=
  let c := s.laneCtlCheck n v
  if c ≠ 0 then s.laneRefuse n c (R.LANE_n_CTL n)
  else
    let wasD := s.on (F.LANE_n_CTL_DORMANT n)
    let wasT := s.on (F.LANE_n_CTL_TEST n)
    let s := s.setReg (R.LANE_n_CTL n) (v &&& 5)
    let s := s.testAct n (getBits v 2 1 == 1) wasT
    let s := s.dormantAct n (getBits v 0 1 == 1) wasD
    let s := if getBits v 1 1 = 1 ∧ s.laneStage n ≠ 0 ∧ s.laneStage n ≠ 6 then (s.inc (F.LANE_n_CNT_RESTARTS n)).toDetect n else s
    if getBits v 3 1 = 1 then s.snap n else s

/-- LANE_DORMANT_SET, LANE_DORMANT_CLEAR (R397), LANE_RESTART (R394), LANE_TEST_SET (R398), LANE_TEST_CLEAR (R394): writes of
LANE_n_CTL. -/
def execLaneDormantSet (n : Fin 100) (s : State) : Out := .next (s.laneCtlWrite n 1)
def execLaneDormantClear (n : Fin 100) (s : State) : Out := .next (s.laneCtlWrite n (s.reg (R.LANE_n_CTL n) &&& 4))
def execLaneRestart (n : Fin 100) (s : State) : Out := .next (s.laneCtlWrite n (s.reg (R.LANE_n_CTL n) &&& 5 ||| 2))
def execLaneTestSet (n : Fin 100) (s : State) : Out := .next (s.laneCtlWrite n (s.reg (R.LANE_n_CTL n) &&& 5 ||| 4))
def execLaneTestClear (n : Fin 100) (s : State) : Out := .next (s.laneCtlWrite n (s.reg (R.LANE_n_CTL n) &&& 1))

/-- LANE_SNAP (R399): with the bits and errored bits that a locked checker has received since they were last counted. -/
def execLaneSnap (n : Fin 100) (bits errs : Nat) (s : State) : Out :=
  .next ((s.chkCount n bits errs).laneCtlWrite n (s.reg (R.LANE_n_CTL n) &&& 5 ||| 8))

/-- R397: the exit is over. -/
def State.exitDone (s : State) (n : Nat) : State := (s.wr (F.LANE_n_STATUS_EXITING n) 0).toDetect n
/-- LANE_DORMANT_EXIT_DONE (R397). -/
def execLaneDormantExitDone (n : Fin 100) (s : State) : Out := .next (s.when (s.on (F.LANE_n_STATUS_EXITING n)) fun s => s.exitDone n)

/-! ## Pattern test -/

/-- R398: a lane is PAM4: a twin lane, or one of a 53.125 Gbit/s port. -/
def State.lanePam4 (s : State) (n : Nat) : Bool :=
  decide (96 ≤ n) || (s.laneMode n == 0 && (match s.portOf n with | some m => (portRate (s.portSpeed m) (s.portWidth m)).2 | none => false))

/-- R398, R399: a write of LANE_n_PAT: enabling the checker clears both counters. -/
def State.lanePatWrite (s : State) (n : Nat) (v : Word) : State :=
  if 6 ≤ getBits v 2 3 ∧ !s.lanePam4 n then s.laneRefuse n 0x9006 (R.LANE_n_PAT n)
  else
    let on := getBits v 1 1 = 1
    let was := s.on (F.LANE_n_PAT_CHK_EN n)
    let s := s.setReg (R.LANE_n_PAT n) (v &&& 0x1F)
    let s := if on ∧ !was then (s.setLane n { s.lane n with errs := 0, bits := 0, relock := false }).wr (F.LANE_n_STATUS_CHK_LOCK n) 0
      else if !on then s.wr (F.LANE_n_STATUS_CHK_LOCK n) 0 else s
    s.injectNow n

/-- R403: a write of LANE_n_TMO. -/
def State.laneTmoWrite (s : State) (n : Nat) (v : Word) : State :=
  if getBits v 0 13 = 0 ∨ getBits v 13 8 = 0 ∨ getBits v 21 11 = 0 then s.laneRefuse n 0x9009 (R.LANE_n_TMO n) else s.setReg (R.LANE_n_TMO n) v

def State.uciState (s : State) (k : Nat) : Nat := s.rd (F.LANE_UCIk_STATUS_STATE k)

/-- R401, R405: a write of LANE_UCIk_PAT: pattern test takes the module out of use. -/
def State.uciPatWrite (s : State) (k : Nat) (v : Word) : State :=
  let test := getBits v 0 2 ≠ 0
  let refuse := fun c => s.refuse (pUcie k) [R.LANE_STATUS] c (R.LANE_UCIk_PAT k)
  if 6 ≤ getBits v 2 3 then refuse 0x9006
  else if injBad (100 + k) (getBits v 5 2) (getBits v 7 1 == 1) (getBits v 8 6) then refuse 0x9007
  else if test ∧ s.rd F.PWR_MODE_MODE ≠ 4 ∧ s.rd F.PWR_MODE_MODE ≠ 11 then refuse 0x9008
  else
    let chk := getBits v 1 1 = 1
    let was := s.on (F.LANE_UCIk_PAT_CHK_EN k)
    let s := s.setReg (R.LANE_UCIk_PAT k) (v &&& 0x3FFF)
    let x := s.lane (100 + k)
    let s := if chk ∧ !was then ((s.setLane (100 + k) { x with errs := 0, worst := [], exch := false }).setReg (R.LANE_UCIk_ERR k) 0).setReg (R.LANE_UCIk_WORST k) 0
      else if !chk then s.setLane (100 + k) { x with exch := false } else s
    let s := if test ∧ s.uciState k ≠ 3 then
        (s.setLane (100 + k) { s.lane (100 + k) with prev := s.uciState k }).wr (F.LANE_UCIk_STATUS_STATE k) 3
      else if !test ∧ s.uciState k = 3 then
        (s.wr (F.LANE_UCIk_STATUS_STATE k) (s.lane (100 + k)).prev).setLane (100 + k) { s.lane (100 + k) with prev := 0 }
      else s
    s.injectNow (100 + k)

/-- LANE_INJECT (R400): a write of LANE_n_INJ, or for a module of LANE_UCIk_PAT. -/
def execLaneInject (n : Fin 108) (v : Word) (s : State) : Out :=
  .next (if n.val < 100 then s.laneInjWrite n v else s.when (s.hasCrown (n - 100)) fun s => s.uciPatWrite (n - 100) v)

/-- R399: whether a checker runs, and whether it is locked. -/
def State.chkRuns (s : State) (n : Nat) : Bool :=
  if n < 100 then s.laneStage n == 7 && s.on (F.LANE_n_PAT_CHK_EN n) else s.uciState (n - 100) == 3 && s.on (F.LANE_UCIk_PAT_CHK_EN (n - 100))
def State.chkLocked (s : State) (n : Nat) : Bool := if n < 100 then s.on (F.LANE_n_STATUS_CHK_LOCK n) else (s.lane n).exch

/-- R399: the checker locks, or relocks. -/
def State.chkLock (s : State) (n : Nat) : State :=
  if n < 100 then
    let s := s.wr (F.LANE_n_STATUS_CHK_LOCK n) 1
    if (s.lane n).relock then (s.inc (F.LANE_n_RELOCK_RELOCKS n)).setLane n { s.lane n with relock := false } else s
  else s.setLane n { s.lane n with exch := true }
/-- CHECKER_LOCK (R399). -/
def execCheckerLock (n : Fin 108) (s : State) : Out := .next (s.when (s.chkRuns n && !s.chkLocked n) fun s => s.chkLock n)

/-- R405: the errors of a module's lanes: ERR their sum, WORST the lane with the most. -/
def State.uciCount (s : State) (k : Nat) (errs : List (Nat × Nat)) : State :=
  let x := s.lane (100 + k)
  let w := errs.foldl (fun m (l, e) => mapSet (fun _ => 0) m l (mapGet (fun _ => 0) m l + e)) x.worst
  let top := w.foldl (fun (a : Nat × Nat) e => if a.2 < e.2 then e else a) (0, 0)
  let s := s.setLane (100 + k) { x with worst := w }
  (s.wr (F.LANE_UCIk_ERR_ERR k) (min (2 ^ 32 - 1) ((w.map (·.2)).sum))).setReg (R.LANE_UCIk_WORST k)
    (BitVec.ofNat 32 (top.1 + min (2 ^ 24 - 1) top.2 * 256))

/-- R399: the checker loses lock; what it has counted since comes with it. -/
def State.chkLost (s : State) (n bits : Nat) (errs : List (Nat × Nat)) : State :=
  if n < 100 then
    let s := s.chkCount n bits ((errs.map (·.2)).sum)
    (s.setLane n { s.lane n with relock := true }).wr (F.LANE_n_STATUS_CHK_LOCK n) 0
  else
    let s := s.uciCount (n - 100) errs
    s.setLane n { s.lane n with exch := false }
/-- CHECKER_LOCK_LOST (R399): with the bits and, by lane of a module, the errored bits counted since the last command that counted. -/
def execCheckerLockLost (n : Fin 108) (bits : Nat) (errs : List (Fin 64 × Nat)) (s : State) : Out :=
  .next (s.when (s.chkRuns n && s.chkLocked n) fun s => s.chkLost n bits (errs.map fun (l, e) => (l.val, e)))

/-! ## UCIe modules -/

/-- The rate and the lanes remapped that a training ended with. -/
def State.uciTrained (s : State) (k : Nat) (slow : Bool) (repaired : Nat) : State :=
  ((s.wr (F.LANE_UCIk_STATUS_STATE k) 2).wr (F.LANE_UCIk_STATUS_RATE16 k) (bit slow)).wr (F.LANE_UCIk_STATUS_REPAIRED k) repaired

/-- R29: the link goes down; the root retrains it once. -/
def State.linkDown (s : State) (k : Nat) : State :=
  let s := s.setLane (100 + k) { s.lane (100 + k) with prev := 1 }
  ((s.wr (F.LANE_UCIk_STATUS_STATE k) 1).inc (F.LANE_UCIk_STATUS_RETRAINS k)).event (pUcie k) 0x9C02 0xFFFF k 0
/-- UCIE_LINK_DOWN (R29): a module that is up. -/
def execUcieLinkDown (k : Fin 8) (s : State) : Out := .next (s.when (s.hasCrown k && s.uciState k == 2) fun s => s.linkDown k)

/-- R29: the retrain ends. -/
def State.retrainDone (s : State) (k : Nat) (ok slow : Bool) (repaired : Nat) : State :=
  let s := s.setLane (100 + k) { s.lane (100 + k) with prev := 0 }
  if ok then s.uciTrained k slow repaired
  else (((s.wr (F.LANE_UCIk_STATUS_STATE k) 0).event (pUcie k) 0x9C02 0xFFFF k 1).crownLost k).pairScan.modeUpdate
/-- UCIE_RETRAIN_DONE (R29). -/
def execUcieRetrainDone (k : Fin 8) (ok slow : Bool) (repaired : Fin 64) (s : State) : Out :=
  .next (s.when (s.hasCrown k && s.uciState k == 1 && (s.lane (100 + k)).prev == 1) fun s => s.retrainDone k ok slow repaired)

/-- R30: training after a reset ends: the module is up, or stays in FAULT until another die reset. -/
def State.trainedUci (s : State) (k : Nat) (ok slow : Bool) (repaired : Nat) : State :=
  if ok then
    let s := { s with rst := { s.rst with faults := s.rst.faults.filter (· != pUcie k) } }
    ((s.uciTrained k slow repaired).serveCrown k).modeUpdate
  else
    (((s.outOfService k).wr (F.LANE_UCIk_STATUS_STATE k) 0).event (pUcie k) 0x9C02 0xFFFF k 1).pairScan.modeUpdate
/-- UCIE_TRAIN_DONE (R30). -/
def execUcieTrainDone (k : Fin 8) (ok slow : Bool) (repaired : Fin 64) (s : State) : Out :=
  .next (s.when (s.hasCrown k && s.uciState k == 1 && (s.lane (100 + k)).prev == 0) fun s => s.trainedUci k ok slow repaired)

/-- UCIE_FLIT_CRC_FAIL (R29, R492): a retried flit adds 1 to FLIT_RETRY, and 2 at 16 GT/s. -/
def execUcieFlitCrcFail (k : Fin 8) (s : State) : Out :=
  .next (s.when (s.hasCrown k) fun s => s.wr (F.LANE_UCIk_RETRY_FLIT_RETRY k)
    (s.rd (F.LANE_UCIk_RETRY_FLIT_RETRY k) + if s.on (F.LANE_UCIk_STATUS_RATE16 k) then 2 else 1))

/-! ## Commits and the check -/

/-- R394: a commit has enabled or disabled a lane. -/
def State.laneCommit (o s : State) (n : Nat) : State :=
  match o.laneOn n, s.laneOn n with
  | false, true => s.toDetect n
  | true, false => ((s.wr (F.LANE_n_STATUS_EXITING n) 0).wr (F.LANE_n_STATUS_CHK_LOCK n) 0).setStage n 0 false
  | _, _ => s
def State.lanesCommit (o s : State) : State :=
  let s := s.forRange 100 fun n s => o.laneCommit s n
  let s := s.forRange 25 fun q s => s.showQuad q
  (s.forRange 96 fun m s => s.showPort m).showTwin

/-- The rules of R141 for lane n (R391, R393, R403, R406). -/
def laneRules (o s : State) (n : Nat) : List Rule :=
  let st := [R.LANE_n_STATUS n, R.LANE_STATUS]
  let both := o.laneOn n && s.laneOn n
  let mode := s.laneMode n
  rulesAt (R.LANE_n_CFG n) st (if n < 96 then (quadLanes (n / 4)).flatMap fun k => [R.LANE_n_CFG k, R.LANE_ETHm_CFG k] else [])
    [(0x9001, mode == 3 || (decide (96 ≤ n) && mode != 0)),
     (0x9002, ((o.laneOn n && !s.laneOn n) || o.laneMode n != mode) && s.laneInUse n),
     (0x9005, s.laneOn n && decide (2 < (s.quadFreqs (n / 4)).length)),
     (0x900A, both && noEn (o.reg (R.LANE_n_CFG n)) != noEn (s.reg (R.LANE_n_CFG n)))]

/-- The rules of R141 for port m (R391, R392, R403). -/
def portRules (o s : State) (m : Nat) : List Rule :=
  let st := [R.LANE_ETHm_STATUS m, R.LANE_STATUS]
  let en := s.portOn m
  let ls := s.portLanes m
  let w := s.portWidth m
  rulesAt (R.LANE_ETHm_CFG m) st (ls.flatMap fun n => [R.LANE_n_CFG n, R.LANE_ETHm_CFG n])
    [(0x9003, decide (6 ≤ s.portSpeed m) || (en && (decide (m % w ≠ 0) || decide (m / 8 ≠ (m + w - 1) / 8) || !portRow (s.portSpeed m) w (s.rd (F.LANE_ETHm_CFG_FEC m))))),
     (0x9004, en && ls.any fun n => !s.laneOn n || s.laneMode n != 0 || (List.range 96).any fun k => k != m && s.portOn k && (s.portLanes k).contains n),
     (0x9005, en && ls.any fun n => decide (2 < (s.quadFreqs (n / 4)).length)),
     (0x900A, o.portOn m && en && noEn (o.reg (R.LANE_ETHm_CFG m)) != noEn (s.reg (R.LANE_ETHm_CFG m)))]

end Sys2Proof.Machine
end

