-- ==== Sys2Proof/Machine/Late.lean ====
section
/-!
DEFINITION. Sys2Proof/Machine/Late.lean: what line time does to a channel: the start of a channel frame (R42), the completion of a
line (R178), and the handover of a coding row (R49), each across all the blocks that act on it.
-/
namespace Sys2Proof.Machine

/-- R364: the last picture of a stream whose rows have all been handed over. -/
def State.lastComplete (s : State) (d i : Nat) : Nat :=
  match (s.encSt d i).pics with
  | p :: _ => (p.num + 2 ^ 32 - 1) % 2 ^ 32
  | [] => ((s.encSt d i).pic + 2 ^ 32 - 1) % 2 ^ 32

/-- R223, R237, R364: the slots of composition slot k of crown d begin; a stream that begins to code sends its cursor, and first its
template block if it is rewritten (R240, R368). -/
def State.slotStreams (s : State) (d k frame field : Nat) : State :=
  s.asKept d fun s =>
    let old := s
    let s := s.slotsStart d k frame field
    s.forRange 8 fun e s =>
      let i := k * 8 + e
      match (s.encSt d i).pics.getLast? with
      | some p => if p.coded ∧ (old.encSt d i).pics.length < (s.encSt d i).pics.length then
          (if (old.encSt d i).params = (s.encSt d i).params then s else s.sendTemplate d i).sendCursor d i false (s.lastComplete d i) else s
      | none => s

/-- R197, R302: the compositor latches the layers of a slot of a crown in service, and pins follow the layers. -/
def State.slotLatches (s : State) (c d k : Nat) : State :=
  if s.keptOf d ≠ [] ∨ s.rst.needReset.contains d then s
  else (s.cmpFrameStart c d k).forRange 128 fun i s => if s.decOn d i then s.repin d i else s

/-- R189: the bands that a channel frame leaves in a slot of a crown in service. -/
def State.slotEnds (s : State) (c d k : Nat) : State :=
  if s.keptOf d ≠ [] ∨ s.rst.needReset.contains d ∨ s.taken d k (F.CMP_SLOTs_CFG_CHANNEL d k) ≠ c then s else s.slotPast d k

/-- R42: a channel frame starts: ingest delivers a frame, the layers latch, and encode slots begin. -/
def State.frameStarts (s : State) (c n : Nat) : State :=
  let s := (s.placements c).foldl (fun s (d, k) => s.slotEnds c d k) s
  let s := { s with lt := { s.lt with chFrame := mapSet (fun _ => 0) s.lt.chFrame c (n + 1) } }
  let s := s.ingFrameStart c
  -- R304: as if its ingest were LOST
  let s := if s.decLost c then s.setIngCh c { s.ingCh c with shown := s.policyPic c } else s
  let ps := s.placements c
  let left := (List.range s.crowns).flatMap fun i => (List.range 16).filterMap fun k =>
    if (s.slotSt (i + 1) k).up && s.taken (i + 1) k (F.CMP_SLOTs_CFG_CHANNEL (i + 1) k) == c && !ps.contains (i + 1, k) then some (i + 1, k) else none
  let s := left.foldl (fun s (d, k) => s.slotRelease d k) s
  let s := ps.foldl (fun s (d, k) => s.slotLatches c d k) s
  ps.foldl (fun s (d, k) => s.slotStreams d k n 0) s

/-- The channel frame whose start line time has reached and that has not been started. -/
def State.frameDue (s : State) (c : Nat) : Option Nat :=
  if s.chOn c && s.tlRunning (s.chTl c) && s.chLines c != 0 then
    (s.chCount c).filter fun n => mapGet (fun _ => 0) s.lt.chFrame c != n + 1
  else none

/-- CHANNEL_FRAME_START (R42). -/
def execChannelFrameStart (c : Fin 96) (s : State) : Out :=
  .next (match s.frameDue c with
    | some n => s.frameStarts c n
    | none => s)

/-- R178, R220: the next line of a channel frame completes; with the first field's last line, the second field's slots begin. -/
def State.lineCompletes (s : State) (c : Nat) : State :=
  let l := (s.ingCh c).next
  let s := s.ingLine c
  if s.chInterlaced c ∧ l + 1 = s.chHeight c / 2 then
    (s.placements c).foldl (fun s (d, k) => s.slotStreams d k (s.chFrameNow c) 1) s
  else s

/-- LINE_COMPLETE (R178). -/
def execLineComplete (c : Fin 96) (s : State) : Out := .next (s.when (s.lineDue c) fun s => s.lineCompletes c)

/-- R354, R362: row 0 of a refresh picture of a promoting side has been handed over. -/
def State.graftHanded (s : State) (d i : Nat) : State :=
  (s.slotSides d (i / 8)).foldl (fun s (n, sd) => s.grafted n sd (s.strId d i)) s

/-- R49, R50, R325: the next row of stream i of crown d is at its handover stamp. -/
def State.rowHandover (s : State) (d i : Nat) : State :=
  match (s.encSt d i).pics with
  | [] => s
  | p :: _ =>
    let last := decide (s.strRows d i ≤ p.row + 1)
    let whole := p.coded && !p.lost && (s.pkt (s.strId d i)).rowHere p.num p.row (s.strN d i)
    let miss := (s.encSt d i).missRun
    let s := s.handRow d i
    let s := if p.row = 0 ∧ p.kind ≠ 0 ∧ whole then s.graftHanded d i else s
    let s := if miss < (s.encSt d i).missRun then s.pairMiss d i else s
    let s := s.sendFlowFrame d i
    if last then s.sendCursor d i true p.num else s

/-- ROW_HANDOVER (R49). -/
def execRowHandover (d : Fin 8) (i : Fin 128) (s : State) : Out :=
  .next (s.asKept d fun s => s.when (s.handDue d i) fun s => s.rowHandover d i)

end Sys2Proof.Machine
end

