-- ==== Sys2Proof/Machine/LineTime.lean ====
section
/-!
DEFINITION. Sys2Proof/Machine/LineTime.lean: the commands of the line-time block (02_line_time.md): enabling, disabling
and freeing timelines, reading and capturing line time.
-/
namespace Sys2Proof.Machine

/-- R38: an enabled channel or an enabled audio port uses timeline n. -/
def State.tlInUse (s : State) (n : Nat) : Bool :=
  (List.range 96).any (fun c => s.chOn c && s.chTl c == n) ||
  (List.range 16).any (fun p => s.on (F.AUD_Pp_CFG_EN p) && s.rd (F.AUD_Pp_CFG_TL p) == n)

/-- R142: a set is ARMED on timeline n. -/
def State.armedOn (s : State) (n : Nat) : Bool :=
  s.stg.armed.any fun i => s.rd (F.STG_SETs_STATUS_TL i) == n

/-- R64: whether a declared rate Q of reference k suits timeline n. -/
def State.rateSuits (s : State) (n k : Nat) : Bool :=
  let q := s.rd (F.SEL_REFk_CFG_BASE k)
  if k = 2 ∨ k = 3 ∨ (6 ≤ k ∧ k ≤ 10) then
    s.on (F.SEL_REFk_CFG_DROP k) == s.tlDrop n && (s.tlBase n == q || s.tlBase n == 2 * q || 2 * s.tlBase n == q)
  else true

/-- R38, R57, R72: the check that setting LT_TLn_CTL.EN runs, in ascending register address; 0 passes. -/
def State.tlCheck (s : State) (n : Nat) (freerun : Bool) : Nat :=
  let b := s.tlBase n
  if b < 24 ∨ b > 240 then 0x1001
  else if s.tpf n = 0 then 0x1002
  else if !freerun && s.candidates n == [] then 0x1010
  else if (s.candidates n).any (fun k => decide (k < 12) && !s.rateSuits n k) then 0x1012
  else if s.rd (F.SEL_TLn_HOLDCFG_AVG_MIN n) < 5 ∨ s.rd (F.SEL_TLn_HOLDCFG_AVG_MIN n) > 240 then 0x1015
  else 0

/-- R38, R69: timeline n stops; line time reads 0, the software offset returns to zero, work tied to it ends. -/
def State.tlStop (s : State) (n : Nat) : State :=
  let s := s.setTl n { s.tl n with perr := 0, pend := 0, soft := 0, freq := 0, minBad := true }
  let s := ((s.wr (F.SEL_TLn_STATUS_MODE n) 0).wr (F.SEL_TLn_STATUS_BETTER n) 0).showErr n
  (s.setTlState n 0).endTimelineWork n

/-- R38: a write of LT_TLn_CTL. -/
def State.tlCtlWrite (s : State) (n : Nat) (v : Word) : State :=
  let en := getBits v 0 1 == 1
  let fr := getBits v 1 1 == 1
  let w := s.setReg (R.LT_TLn_CTL n) (v &&& 3)
  let no := fun code => s.refuse (pTl n) [R.LT_TLn_STATUS n] code (R.LT_TLn_CTL n)
  match s.tlState n, en with
  | 0, false => w
  | 0, true =>
    let c := ((s.bases.map fun b => b.tlCheck n fr).find? (· != 0)).getD 0
    if c ≠ 0 then no c
    else
      let a := (w.badMinute n).setTlState n 1
      (if fr then a.freerun n else a).reselect n
  | 1, true => if fr then (w.freerun n).reselect n else w
  | 1, false => if s.armedOn n then no 0xE00C else w.tlStop n
  | _, true => w
  | _, false => if s.tlInUse n then no 0x1003 else if s.armedOn n then no 0xE00C else w.tlStop n

/-- TL_ENABLE (R38): a write of LT_TLn_CTL that sets EN. -/
def execTlEnable (n : Fin 4) (freerun : Bool) (s : State) : Out := .next (s.tlCtlWrite n (BitVec.ofNat 32 (1 + 2 * bit freerun)))

/-- TL_DISABLE (R38): a write of LT_TLn_CTL that clears EN. -/
def execTlDisable (n : Fin 4) (s : State) : Out := .next (s.tlCtlWrite n 0)

/-- TL_FREERUN (R38): a write of FREERUN = 1 with EN = 1. -/
def execTlFreerun (n : Fin 4) (s : State) : Out := .next (s.tlCtlWrite n 3)

/-- R40, R46: bits [47:36] of the frame count of a running timeline. -/
def State.epochHi (s : State) (n : Nat) : Nat := if s.tlRunning n then (s.tl n).frame / 2 ^ 36 else 0

/-- R46: a read of LT_TLn_NOW_LO by a requester. -/
def State.nowRead (s : State) (q : Req) (n : Nat) : State :=
  let t := s.now n
  { s with
    rdata := BitVec.ofNat 32 t
    lt := { s.lt with nowLatch := mapSet (fun _ => (0, 0)) s.lt.nowLatch (reqKey q * 4 + n) (t / 2 ^ 32, s.epochHi n) } }

/-- LT_NOW_READ (R46). -/
def execLtNowRead (q : Req) (n : Fin 4) (s : State) : Out := .next (s.nowRead q n)

/-- R47: capture every timeline. -/
def State.capture (s : State) : State :=
  s.forRange 4 fun n s =>
    let t := s.now n
    ((s.wr (F.LT_TLn_XCAP_LO_XCAP_LO n) t).wr (F.LT_TLn_XCAP_HI_XCAP_HI n) (t / 2 ^ 32)).wr
      (F.LT_TLn_XCAP_EPOCH_XCAP_EPOCH n) (s.epochHi n)

/-- LT_CAPTURE (R47). -/
def execLtCapture (s : State) : Out := .next s.capture

end Sys2Proof.Machine
end

