-- ==== Sys2Proof/Machine/Check.lean ====
section
/-!
DEFINITION. Sys2Proof/Machine/Check.lean: the owner enables of staged registers (R133), the chapters' rules that no other file
holds, and the consistency check (R141, 07_staging_and_consistency.md).
-/
namespace Sys2Proof.Machine

/-! ## Owner enables -/

/-- R133: what owns an ST register: its owner enables, the status registers of the owner's instance and block (R141), and whether
the register itself carries an enable (bit 0). -/
structure Owner where
  ens : List Fld
  status : List Nat
  en : Bool
  deriving DecidableEq, Repr

/-- The instance of a block that an offset lies in. -/
def instAt (base stride count o : Nat) : Option Nat :=
  if base ≤ o ∧ o < base + stride * count then some ((o - base) / stride) else none

/-- R56, R71, R82, R169, R186: owners in the root window below the packetiser, and in the schedulers. -/
def State.ownerLow (s : State) (d o : Nat) : Option Owner :=
  match instAt 0x310000 0x40 256 o with
  | some k => some ⟨[F.SCH_CONSk_CFG_EN d k], [R.SCH_STATUS d], true⟩
  | none =>
  match instAt 0x400000 0x10 32768 o with
  | some q => some ⟨[F.SCH_Qq_CFG_EN d q], [R.SCH_STATUS d], o % 16 == 0⟩
  | none =>
  if d ≠ 0 then none else
  match instAt 0x101000 0x10 96 o with
  | some c => some ⟨[F.ING_CHc_CFG_EN c], [R.LT_CHc_STATUS c, R.ING_CHc_STATUS c, R.ING_STATUS], false⟩
  | none =>
  match instAt 0x110100 0x20 12 o with
  | some k => some ⟨[F.SEL_REFk_CFG_EN k], [], o % 32 == 0⟩
  | none =>
  match instAt 0x110400 4 16 o with
  | some e => some ⟨[F.SEL_PRIOe_EN e], [], true⟩
  | none =>
  match instAt 0x110600 0x20 4 o with
  | some n => some ⟨[F.LT_TLn_CTL_EN n], [R.LT_TLn_STATUS n, R.SEL_TLn_STATUS n], false⟩
  | none =>
  match instAt 0x120100 0x80 2 o with
  | some i => some ⟨[F.PTP_n_CFG_EN i], [R.PTP_n_STATUS i], o % 128 == 0⟩
  | none =>
  match instAt 0x121000 8 96 o with
  | some m => some (match s.portOf m with | some p => ⟨[F.LANE_ETHm_CFG_EN p], [R.LANE_ETHm_STATUS p, R.LANE_STATUS], false⟩ | none => ⟨[], [], false⟩)
  | none =>
  match instAt 0x501000 0x40 96 o with
  | some c => some ⟨[F.ING_CHc_CFG_EN c], [R.ING_CHc_STATUS c, R.ING_STATUS], o % 64 == 12⟩
  | none => if o = 0x120004 ∨ o = 0x120008 then some ⟨[F.PTP_n_CFG_EN 0, F.PTP_n_CFG_EN 1], [R.PTP_CLK_STATUS], false⟩ else none

/-- R330, R348, R372, R373, R403: owners in the root window from the packetiser up. -/
def ownerRoot (o : Nat) : Option Owner :=
  match instAt 0x610000 0x40 2048 o with
  | some f => some ⟨[F.PKT_FLOWf_CFG_EN f], [R.PKT_FLOWf_STATUS f, R.PKT_STATUS], o % 64 == 0⟩
  | none =>
  match instAt 0x801000 0x40 16 o with
  | some p => some ⟨[F.AUD_Pp_CFG_EN p], [R.AUD_Pp_STATUS p, R.AUD_STATUS], o % 64 == 0⟩
  | none =>
  match instAt 0x802000 0x40 256 o with
  | some a => some ⟨[F.AUD_STRa_CFG_EN a], [R.AUD_STRa_STATUS a, R.AUD_STATUS], o % 64 == 0⟩
  | none =>
  match instAt 0x900100 0x40 32 o with
  | some n => some ⟨[F.PAIR_n_CFG_EN n], [R.PAIR_n_STATUS n, R.PAIR_STATUS], o % 64 == 0⟩
  | none =>
  match instAt 0x980080 4 16 o with
  | some k => some ⟨[F.TWIN_MIRRORk_EN k], [R.TWIN_STATUS], true⟩
  | none =>
  match instAt 0xA01000 0x80 100 o with
  | some n => some ⟨[F.LANE_n_CFG_EN n], [R.LANE_n_STATUS n, R.LANE_STATUS], true⟩
  | none =>
  match instAt 0xA05000 0x20 96 o with
  | some m => some ⟨[F.LANE_ETHm_CFG_EN m], [R.LANE_ETHm_STATUS m, R.LANE_STATUS], true⟩
  | none => if 0x980000 ≤ o ∧ o < 0x980080 then some ⟨[F.TWIN_CFG_EN], [R.TWIN_STATUS], o == 0x980000⟩ else none

/-- R214, R241, R270, R286, R306, R307: owners in a crown's window. -/
def State.ownerCrown (s : State) (d o : Nat) : Option Owner :=
  let str := fun i => [R.ENC_STRi_STATUS d i, R.ENC_STATUS d]
  match instAt 0x610000 0x800 16 o with
  | some k =>
    let r := (o - 0x610000) % 0x800
    some (if r < 0x400 then ⟨[F.CMP_SLOTs_CFG_EN d k], [R.CMP_SLOTs_STATUS d k, R.CMP_STATUS d], r == 0⟩
      else let l := (r - 0x400) / 0x40; ⟨[F.CMP_SLOTs_Ll_CFG_EN d k l], [R.CMP_SLOTs_Ll_STATUS d k l, R.CMP_STATUS d], r % 64 == 0⟩)
  | none =>
  match instAt 0x701000 0x40 8 o with
  | some p => some ⟨[F.ENC_PIPEp_CFG_EN d p], [R.ENC_STATUS d], true⟩
  | none =>
  match instAt 0x710000 0x100 128 o with
  | some i => some ⟨[F.ENC_STRi_CFG_EN d i], str i, o % 256 == 0⟩
  | none =>
  match instAt 0x750000 0x40 128 o with
  | some i => some ⟨[F.ENC_STRi_CFG_EN d i], [R.MES_STRi_STATUS d i, R.MES_STATUS d] ++ str i, false⟩
  | none =>
  match instAt 0x770000 0x40 128 o with
  | some i => some ⟨[F.ENC_STRi_CFG_EN d i], [R.LEDG_STRi_STATUS d i, R.LEDG_STATUS d] ++ str i, false⟩
  | none =>
  match instAt 0x781000 0x10 128 o with
  | some i => some ⟨[F.ENC_STRi_CFG_EN d i, F.DEC_STRi_CFG_EN d i],
      R.POOL_STATUS d :: (if s.decOn d i then [R.DEC_STRi_STATUS d i, R.DEC_STATUS d] else str i), false⟩
  | none =>
  match instAt 0x7C1000 0x40 128 o with
  | some i => some ⟨[F.DEC_STRi_CFG_EN d i], [R.DEC_STRi_STATUS d i, R.DEC_STATUS d], o % 64 == 0⟩
  | none => if o = 0x7C0004 then some ⟨[F.DEC_CFG_EN d], [R.DEC_STATUS d], true⟩ else none

/-- R133: the owner of the ST register at a BAR0 offset. -/
def State.owner (s : State) (a : Nat) : Owner :=
  let d := a / 0x4000000
  let o := a % 0x4000000
  match s.ownerLow d o with
  | some w => w
  | none => ((if d = 0 then ownerRoot o else s.ownerCrown d o)).getD ⟨[], [], false⟩

/-- R133: the owner block is enabled. -/
def State.ownerOn (s : State) (w : Owner) : Bool := w.ens.any s.on

/-! ## Rules of line time, references, the PTP clock and the schedulers -/

/-- R42, R45, R52: the rules of a channel's map, phase and delays. -/
def ltRules (o s : State) (c : Nat) : List Rule :=
  let st := [R.LT_CHc_STATUS c]
  let n := s.chTl c
  let r := s.chRatio c
  let l := s.chLines c
  let en := s.chOn c
  let units := s.tpf n * 4096 * ratioDen r
  let d := s.rd (F.LT_CHc_DELAY_D c)
  let t := s.rd (F.LT_CHc_DELAY_TOTAL c)
  let strs := (s.placements c).flatMap fun (d, k) => R.CMP_SLOTs_CFG d k :: (List.range 8).flatMap fun e =>
    [R.ENC_STRi_CFG d (k * 8 + e), R.ENC_STRi_SIZE d (k * 8 + e), R.ENC_STRi_TILES d (k * 8 + e)]
  let us := [R.LT_CHc_MAP c, R.LT_CHc_PHASE c, R.LT_CHc_DELAY c] ++ (List.range 16).map fun i => 0x501000 + c * 0x40 + 4 * i
  rulesAt (R.LT_CHc_MAP c) st us
    [(0x1004, en && !s.tlRunning n), (0x1005, r == 3 || l == 0 || decide (units < 2 * ratioNum r * l))] ++
  rulesAt (R.LT_CHc_PHASE c) st us [(0x1006, decide (units ≤ s.chPhase c * ratioNum r))] ++
  rulesAt (R.LT_CHc_DELAY c) st (us ++ strs)
    [(0x1007, decide (d < s.dMin c)), (0x1008, decide (t < d ∨ 4 * l < t)), (0x1009, en && o.chOn c && o.differ s [R.LT_CHc_DELAY c])]

/-- R64, R72: the rules of reference k. A lane is configured for SDI receive by its MODE alone (notes/assumptions/109.md). -/
def refRules (s : State) (k : Nat) : List Rule :=
  let tol := s.rd (F.SEL_REFk_CFG_TOL k)
  let lane := s.rd (F.SEL_REFk_CFG_SRC k)
  let us := [R.SEL_REFk_CFG k, R.SEL_REFk_QUAL k, R.SEL_REFk_MTIE k]
  rulesAt (R.SEL_REFk_CFG k) [] (us ++ [R.LANE_n_CFG lane])
    [(0x1015, decide (tol < 1 ∨ 1000 < tol)),
     (0x1017, s.on (F.SEL_REFk_CFG_EN k) && decide (6 ≤ k ∧ k ≤ 10) && (decide (95 < lane) || s.rd (F.LANE_n_CFG_MODE lane) != 1))] ++
  rulesAt (R.SEL_REFk_QUAL k) [] us
    [(0x1015, decide (tol ≤ s.rd (F.SEL_REFk_QUAL_HYST k)) || s.rd (F.SEL_REFk_QUAL_DWELL k) == 0 || s.rd (F.SEL_REFk_QUAL_WTR k) == 0)] ++
  rulesAt (R.SEL_REFk_MTIE k) [] us [(0x1015, s.rd (F.SEL_REFk_MTIE_WIN k) == 0)]

/-- R64, R72: the rules of priority entry e. -/
def prioRules (s : State) (e : Nat) : List Rule :=
  let k := s.rd (F.SEL_PRIOe_REF e)
  let en := s.on (F.SEL_PRIOe_EN e)
  let tls := (List.range 4).filter fun n => s.rd (F.SEL_PRIOe_TL_MASK e) / 2 ^ n % 2 == 1
  rulesAt (R.SEL_PRIOe e) [] [R.SEL_REFk_CFG k]
    [(0x1013, decide (11 < k) || (en && !s.on (F.SEL_REFk_CFG_EN k))), (0x1012, en && tls.any fun n => !s.rateSuits n k)]

/-- R70, R72: the rule of a timeline's holdover averaging. -/
def holdRules (s : State) (n : Nat) : List Rule :=
  let a := s.rd (F.SEL_TLn_HOLDCFG_AVG_MIN n)
  rulesAt (R.SEL_TLn_HOLDCFG n) [] [] [(0x1015, decide (a < 5 ∨ 240 < a))]

/-- R82, R83: the rules of the PTP clock and its instances. -/
def ptpRules (o s : State) : List Rule :=
  let j := s.rd F.PTP_CLK_JUMP_JUMP
  let r := s.rd F.PTP_CLK_CFG_RATE_MAX
  let en := fun i => s.on (F.PTP_n_CFG_EN i)
  let mac := fun i => s.rd (F.PTP_n_CFG_MAC i)
  rulesAt R.PTP_CLK_CFG [] [] [(0x6F06, decide (r < 1 ∨ 1000 < r))] ++
  rulesAt R.PTP_CLK_JUMP [] [] [(0x6F06, decide (j < 1 ∨ 1000000 < j))] ++
  (List.range 2).flatMap fun i =>
    let t := s.rd (F.PTP_n_CFG_ANN_TIMEOUT i)
    rulesAt (R.PTP_n_CFG i) [] [R.PTP_n_CFG (1 - i), R.LANE_ETHm_CFG (mac i)]
      [(0x6F04, decide (95 < mac i) || (en i && !s.portOn (mac i))),
       (0x6F05, en 0 && en 1 && mac 0 == mac 1 && s.rd (F.PTP_n_CFG_DOMAIN 0) == s.rd (F.PTP_n_CFG_DOMAIN 1)),
       (0x6F06, decide (t < 2 ∨ 10 < t)),
       (0x6F07, o.on (F.PTP_n_CFG_EN i) && !en i && (List.range 16).any fun e => s.on (F.SEL_PRIOe_EN e) && s.rd (F.SEL_PRIOe_REF e) == i)]

/-- Instances of a block, with their enable in bit 0 of the word at `base`, that are enabled in a register file. -/
def onAt (m : List (Nat × Word)) (base stride count : Nat) : List Nat :=
  m.filterMap fun (a, w) =>
    if base ≤ a ∧ a < base + stride * count ∧ (a - base) % stride = 0 ∧ w.toNat % 2 = 1 then some ((a - base) / stride) else none

/-- R155, R169: the enabled queues of a die. -/
def State.queuesOn (s : State) (d : Nat) : List Nat := onAt s.regs (R.SCH_Qq_CFG d 0) 16 32768
/-- R168: the enabled consumers that BIND puts into a binding. -/
def State.bound (s : State) (d b : Nat) : List Nat :=
  (onAt s.regs (R.SCH_CONSk_CFG d 0) 0x40 256).filter fun k => s.rd (F.SCH_CONSk_CFG_BIND d k) == b

/-- R168, R169: the rules of consumer k of die d. -/
def consRules (o s : State) (d k : Nat) : List Rule :=
  let en := s.on (F.SCH_CONSk_CFG_EN d k)
  let was := o.on (F.SCH_CONSk_CFG_EN d k)
  let b := s.rd (F.SCH_CONSk_CFG_BIND d k)
  let ob := o.rd (F.SCH_CONSk_CFG_BIND d k)
  let qs := s.queuesOn d
  rulesAt (R.SCH_CONSk_CFG d k) [R.SCH_STATUS d] []
    [(0xC010, !consAssigned d k || (d != 0 && decide (1 < s.rd (F.SCH_CONSk_CFG_CORE d k)))),
     (0xC006, was && (!en || b != ob) && s.bound d ob == [] && qs.any fun q => s.rd (F.SCH_Qq_CFG_BIND d q) == ob),
     (0xC00E, en && consHw d k && qs.any fun q => s.on (F.SCH_Qq_CFG_HOST d q) && s.rd (F.SCH_Qq_CFG_BIND d q) == b),
     (0xC00B, was && en && o.rd (F.SCH_CONSk_CFG_MODE d k) != s.rd (F.SCH_CONSk_CFG_MODE d k))]

/-- R155, R168, R169: the rules of queue q of die d. -/
def queueRules (o s : State) (d q : Nat) : List Rule :=
  let en := s.on (F.SCH_Qq_CFG_EN d q)
  let was := o.on (F.SCH_Qq_CFG_EN d q)
  let b := s.rd (F.SCH_Qq_CFG_BIND d q)
  let busy := was && s.queueLive d q != []
  let r := fun p => (s.qBase d p, s.qCount d p)
  let ks := s.bound d b
  rulesAt (R.SCH_Qq_CFG d q) [R.SCH_STATUS d] [R.SCH_Qq_RANGE d q]
    [(0xC003, en && !was && (s.on (F.SCH_Qq_STATUS_RING d q) || decide (queueCount d ≤ q))),
     (0xC006, en && ks == []),
     (0xC00E, en && s.on (F.SCH_Qq_CFG_HOST d q) && ks.any (consHw d)),
     (0xC00C, busy && (!en || o.rd (F.SCH_Qq_CFG_BIND d q) != b))] ++
  rulesAt (R.SCH_Qq_RANGE d q) [R.SCH_STATUS d] [R.SCH_Qq_CFG d q]
    [(0xC001, en && decide (s.qCount d q = 0 ∨ taskCount d < s.qBase d q + s.qCount d q)),
     (0xC00F, en && (s.queuesOn d).any fun p => p != q && rangesMeet (r p) (r q))]

/-! ## Enables that a crown or the mode turns away -/

/-- R457, R389: an enable (bit 0) of a channel, stream, flow or pair is set: Quarantine refuses it; a crown given must have a
READY controller. -/
def enableRules (o s : State) (a : Nat) (crown : Option Nat) (quar : Bool) : List Rule :=
  let sets := getBits (s.reg a) 0 1 == 1 && getBits (o.reg a) 0 1 == 0
  rulesAt a [] []
    [(0xA001, sets && (match crown with | some d => !s.hbmReady d | none => false)),
     (0xD00C, sets && quar && s.rd F.PWR_MODE_MODE == 12)]

/-! ## The rules in play -/

/-- Instances of a block that a commit touches. -/
def hitAt (t : List Nat) (base stride count span : Nat) : List Nat :=
  t.filterMap fun a => if base ≤ a ∧ a < base + stride * count ∧ (a - base) % stride < span then some ((a - base) / stride) else none

/-- Instances enabled before or after, or touched: no rule of another can hold. -/
def insts (o s : State) (t : List Nat) (base stride count span en : Nat) : List Nat :=
  (onAt o.regs (base + en) stride count ++ onAt s.regs (base + en) stride count ++ hitAt t base stride count span).eraseDups

/-- The stream indices of crown d in play. -/
def strInsts (o s : State) (t : List Nat) (d : Nat) : List Nat :=
  (insts o s t (R.ENC_STRi_CFG d 0) 0x100 128 0x100 0 ++ insts o s t (R.DEC_STRi_CFG d 0) 0x40 128 0x40 0 ++
    hitAt t (R.MES_STRi_CFG d 0) 0x40 128 0x40 ++ hitAt t (R.LEDG_STRi_MODE d 0) 0x40 128 0x40 ++ hitAt t (R.POOL_STRi_BASE d 0) 0x10 128 0x10).eraseDups

/-- The rules of a crown. -/
def crownRules (o s : State) (t : List Nat) (d : Nat) : List Rule :=
  ((insts o s t (R.CMP_SLOTs_CFG d 0) 0x800 16 0x400 0).flatMap fun k => cmpSlotRules o s d k ++ enableRules o s (R.CMP_SLOTs_CFG d k) (some d) false) ++
  ((List.range 16).flatMap fun k => (insts o s t (R.CMP_SLOTs_Ll_CFG d k 0) 0x40 16 0x40 0).flatMap fun l => cmpLayerRules s d k l ++ decReaderRules s d k l) ++
  ((insts o s t (R.ENC_PIPEp_CFG d 0) 0x40 8 0x40 0).flatMap fun p => pipeRules o s d p) ++
  ((strInsts o s t d).flatMap fun i =>
    encRules o s d i ++ ledgRules o s d i ++ poolRules o s d i ++ decRules o s d i ++
    enableRules o s (R.ENC_STRi_CFG d i) (some d) true ++ enableRules o s (R.DEC_STRi_CFG d i) (some d) true)

/-- R186, R330: targets of the audio flow entries. -/
def State.audFlows (s : State) : List Nat :=
  s.ing.flows.filterMap fun (_, e) => e.bind fun e => if flowKind e.words = 2 ∨ flowKind e.words = 3 then some (flowTarget e.words) else none

/-- The rules of the root die. -/
def rootRules (o s : State) (t : List Nat) : List Rule :=
  let busy := (List.range s.crowns).flatMap fun k => (strInsts o s t (k + 1)).map (s.strChan (k + 1))
  let slots := (List.range s.crowns).flatMap fun k => (insts o s t (R.CMP_SLOTs_CFG (k + 1) 0) 0x800 16 0x400 0).flatMap fun j =>
    [o.slotChan (k + 1) j, s.slotChan (k + 1) j]
  let chans := (insts o s t 0x501000 0x40 96 0x40 12 ++ hitAt t 0x101000 0x10 96 0x10 ++ (busy ++ slots).filter (· < 96)).eraseDups
  (chans.flatMap fun c => ltRules o s c ++ ingRules s c ++ decIngRules s c ++ enableRules o s (R.ING_CHc_CFG c) none true) ++
  ((insts o s t (R.SEL_REFk_CFG 0) 0x20 12 0x20 0).flatMap fun k => refRules s k) ++
  ((insts o s t (R.SEL_PRIOe 0) 4 16 4 0).flatMap fun e => prioRules s e) ++
  ((List.range 4).flatMap fun n => holdRules s n) ++ ptpRules o s ++
  ((insts o s t (R.PKT_FLOWf_CFG 0) 0x40 2048 0x40 0).flatMap fun f => flowRules o s f ++ enableRules o s (R.PKT_FLOWf_CFG f) none true) ++
  ((insts o s t (R.AUD_Pp_CFG 0) 0x40 16 0x40 0).flatMap fun p => audPortRules o s p) ++
  ((insts o s t (R.AUD_STRa_CFG 0) 0x40 256 0x40 0).flatMap fun a => audStrRules s.audFlows o s a ++ enableRules o s (R.AUD_STRa_CFG a) none true) ++
  ((insts o s t (R.PAIR_n_CFG 0) 0x40 32 0x40 0).flatMap fun n => pairRules o s n ++ enableRules o s (R.PAIR_n_CFG n) none true) ++ twinRules s ++
  ((insts o s t (R.LANE_n_CFG 0) 0x80 100 0x80 0).flatMap fun n => laneRules o s n) ++
  ((insts o s t (R.LANE_ETHm_CFG 0) 0x20 96 0x20 0).flatMap fun m => portRules o s m)

/-- The rules of the schedulers. -/
def schRules (o s : State) (t : List Nat) (d : Nat) : List Rule :=
  ((insts o s t (R.SCH_CONSk_CFG d 0) 0x40 256 0x40 0).flatMap fun k => consRules o s d k) ++
  ((insts o s t (R.SCH_Qq_CFG d 0) 16 32768 16 0).flatMap fun q => queueRules o s d q)

/-- The rules in play from state o to state s, when the registers t are touched. -/
def rulesAll (o s : State) (t : List Nat) : List Rule :=
  rootRules o s t ++ ((List.range (s.crowns + 1)).flatMap fun d => schRules o s t d) ++
    (List.range s.crowns).flatMap fun k => crownRules o s t (k + 1)

/-- R141: an enable of the block that owns a register is being set. -/
def enableSet (o s : State) (a : Nat) : Bool := (s.owner a).ens.any fun f => s.on f && !o.on f

/-- R141: whether a rule is evaluated: it involves a touched register, the block of an enable being set, or a register whose
change is what breaks it (nothing of its kind was broken before). -/
def involved (o s : State) (t : List Nat) (was : List Rule) (r : Rule) : Bool :=
  meets r.uses t || enableSet o s r.addr || (r.bad && !was.any fun q => q.bad && q.addr == r.addr && q.code == r.code)

/-- R141: the rules that are evaluated, from state o to state s. -/
def rulesOn (o s : State) (t : List Nat) : List Rule :=
  let was := rulesAll o o t
  (rulesAll o s t).filter (involved o s t was)

/-! ## The check -/

/-- A failure: register, place among that register's rules, code, status registers. -/
abbrev Failure := Nat × Nat × Nat × List Nat

/-- The rules that are broken. -/
def failures (rs : List Rule) : List Failure :=
  rs.zipIdx.filterMap fun (r, i) =>
    if r.bad then some (r.addr, ((rs.take i).filter fun q => q.addr == r.addr).length, r.code, r.status) else none

/-- R141: the first failure, in ascending register offset and in the chapter's own order of rules. -/
def firstFailure : List Failure → Option Failure
  | [] => none
  | f :: t => match firstFailure t with
    | some g => if f.1 < g.1 ∨ (f.1 = g.1 ∧ f.2.1 ≤ g.2.1) then some f else some g
    | none => some f

/-- R141: the check of shadows, with the grove records that go with them. -/
def State.check (s : State) (cs : List (Nat × Word)) (gs : List GroveRec) : Option Failure :=
  if cs = [] then none
  else firstFailure (s.unkept.bases.flatMap fun o => failures (rulesOn o (o.overlay cs gs) (cs.map (·.1))))

end Sys2Proof.Machine
end

