-- ==== Sys2Proof/Machine/Stream.lean ====
section
/-!
DEFINITION. Sys2Proof/Machine/Stream.lean: the ring recorders beyond their stores (21_ring_recorder.md): streaming to the host,
filters, REC_READ, and clearing.
-/
namespace Sys2Proof.Machine

/-! ## Filters and streaming -/

/-- R429: a filter's path matches nothing. -/
def State.filterBad (s : State) (f : Nat) : Bool :=
  let p := s.rd (F.REC_FILTf_PATH_PATH f)
  !s.pathOk p || (isGrove p && !groveUse s.stg.groves (groveNum p) 4)

/-- R22, R429: filter f matches a record: a logical grove by its membership when the event was recorded (`gs`), any other
path by what lies below it. -/
def State.filterHits (s : State) (f : Nat) (ws : List Word) (gs : List Nat) : Bool :=
  let p := s.rd (F.REC_FILTf_PATH_PATH f)
  decide (s.rd (F.REC_FILTf_CFG_CLASS_MASK f) / 2 ^ (fieldAt ws 4 0 16 / 4096) % 2 = 1) && !s.filterBad f &&
    (if isGrove p then gs.contains (groveNum p) else s.under p (wordAt ws 3))

/-- R429: with no filter enabled, every record streams. -/
def State.streams (s : State) (ws : List Word) (gs : List Nat) : Bool :=
  let fs := (List.range 4).filter fun f => s.on (F.REC_FILTf_CFG_EN f)
  fs == [] || fs.any fun f => s.filterHits f ws gs

/-- R428: a copy for ring r: discarded where r is no ACTIVE EVT ring. -/
def State.copyOut (s : State) (r : Nat) (ws : List Word) : State :=
  if s.activeRing r 4 then s.putEvt r ws else s.inc F.REC_CNT_S_LOST

def serial (a b : Nat) : Nat := (a + 2 ^ 32 - b) % 2 ^ 32

/-- The sequence number of the next record of die d to copy. -/
def State.copyNext (s : State) (d : Nat) : Nat :=
  let c := mapGet (fun _ => 0) s.recorder.copied d
  let tail := s.rd (F.REC_TAIL_SEQ d)
  if serial c tail ≤ serial (s.rd (F.REC_HEAD_SEQ d)) tail then c else tail
def State.setCopied (s : State) (d c : Nat) : State :=
  { s with recorder := { s.recorder with copied := mapSet (fun _ => 0) s.recorder.copied d c } }

/-- Record c is the newest of die d. -/
def State.newestOf (s : State) (d c : Nat) : Bool := (c + 1) % 2 ^ 32 == s.rd (F.REC_HEAD_SEQ d)

/-- R428: the next record of die d that has stopped being the newest, or the newest, whose HOLD_US has passed, is copied. -/
def State.streamCopy (s : State) (d : Nat) : State :=
  let c := s.copyNext d
  if c = s.rd (F.REC_HEAD_SEQ d) ∨ (s.newestOf d c ∧ s.cycle < mapGet (fun _ => 0) s.recorder.newAt d + 400 * max 1 (s.rd F.REC_STREAM_HOLD_US)) then s
  else
    let ws := s.recAt d (c % recN d)
    let gs := mapGet (fun _ => []) s.recorder.groves (d * 16384 + c % recN d)
    let s := s.setCopied d ((c + 1) % 2 ^ 32)
    if s.streams ws gs then s.copyOut (s.rd F.REC_STREAM_RING) ws else s
/-- REC_STREAM_COPY (R428). -/
def execRecStreamCopy (d : Fin 8) (s : State) : Out :=
  .next (s.when (s.on F.REC_STREAM_EN && decide (d.val ≤ s.crowns)) fun s => s.streamCopy d)

/-- R428: a write of REC_STREAM: streaming begins with the newest record of each die. -/
def State.recStreamWrite (s : State) (v : Word) : State :=
  let was := s.on F.REC_STREAM_EN
  let s := s.setReg R.REC_STREAM (v &&& 0x1FFFFFFF)
  if !was ∧ getBits v 0 1 = 1 then
    s.forRange (s.crowns + 1) fun d s =>
      let h := s.rd (F.REC_HEAD_SEQ d)
      s.setCopied d (if h = s.rd (F.REC_TAIL_SEQ d) then h else (h + 2 ^ 32 - 1) % 2 ^ 32)
  else s

/-! ## REC_READ -/

/-- R430: record q of die d is held. -/
def State.held (s : State) (d q : Nat) : Bool :=
  let tail := s.rd (F.REC_TAIL_SEQ d)
  decide (serial q tail < serial (s.rd (F.REC_HEAD_SEQ d)) tail)

/-- R432: the copies of a REC_READ. -/
def State.recCopies (s : State) (ws : List Word) : State :=
  let d := fieldAt ws 8 0 3
  let n := min 16384 (max 1 (fieldAt ws 7 0 15))
  if s.crowns < d then s
  else s.forRange n fun i s =>
    let q := (wordAt ws 6 + i) % 2 ^ 32
    if s.held d q then s.copyOut (fieldAt ws 8 3 12) (s.recAt d (q % recN d)) else s

/-- REC_READ (R432). -/
def execRecRead (r : Fin 4096) (s : State) : Out :=
  .next (s.dispatch r 0x40 ((7, 0xFFFF8000) :: (8, 0xFFFF8000) :: bodyZero 9 14) (fun _ _ => 0) fun s d =>
    (s.recCopies d.words).complete r d.idx (dTag d.words) (dNocpl d.words) 0 0 Wm.zero)

/-! ## Clearing -/

/-- R431: a write of REC_CLR_CTL. -/
def State.recGo (s : State) (v : Word) : State :=
  if getBits v 0 1 = 0 then s
  else if s.on F.REC_CLR_STATUS_BUSY then s.inc F.REC_CLR_STATUS_IGNORED
  else
    let s := { s with recorder := { s.recorder with clrHead := s.rd (F.REC_HEAD_SEQ (s.rd F.REC_CLR_DIE_DIE)) } }
    s.wr F.REC_CLR_STATUS_BUSY 1
/-- REC_CLR_GO (R431). -/
def execRecClrGo (s : State) : Out := .next (s.recGo 1)

/-- R431: the MAC that clears: over the challenge, the die word and UPTO. -/
def State.clearMac (s : State) : Nat :=
  macValue (natBytes 16 Config.recorderKey)
    (wordsBytes ((List.range 4).map fun w => s.reg (R.REC_CHALw w)) ++ wordsBytes [s.reg R.REC_CLR_DIE, s.reg R.REC_CLR_UPTO]) 16
def State.givenMac (s : State) : Nat := ((List.range 4).map fun w => s.rd (F.REC_MACw_MAC w) * 2 ^ (32 * w)).sum

/-- R431: the result of the attempt: the first failure in the table's order, else 1. -/
def State.clearResult (s : State) : Nat :=
  let d := s.rd F.REC_CLR_DIE_DIE
  let tail := s.rd (F.REC_TAIL_SEQ d)
  if s.on F.REC_CLR_STATUS_LOCKED then 2
  else if !Config.recorderKeyed then 3
  else if s.crowns < d then 4
  else if serial s.recorder.clrHead tail < serial (s.rd F.REC_CLR_UPTO_SEQ) tail then 5
  else if s.clearMac ≠ s.givenMac then 6
  else 1

/-- R431: the attempt is checked; a new challenge is drawn. -/
def State.clearChecked (s : State) : State :=
  let d := s.rd F.REC_CLR_DIE_DIE
  let res := s.clearResult
  let tail := s.rd (F.REC_TAIL_SEQ d)
  let upto := s.rd F.REC_CLR_UPTO_SEQ
  let s := (s.wr F.REC_CLR_STATUS_RESULT res).wr F.REC_CLR_STATUS_BUSY 0
  let s := (s.forRange 4 fun w s => s.wr (F.REC_CHALw_CHAL w) (s.free (20 + w))).tick
  if res = 1 then ((s.wr (F.REC_TAIL_SEQ d) upto).wr F.REC_CLR_STATUS_FAILS 0).event pRec 0xFC03 0xFFFF tail upto
  else
    let s := s.inc F.REC_CLR_STATUS_FAILS
    let s := if s.rd F.REC_CLR_STATUS_FAILS = 8 then s.wr F.REC_CLR_STATUS_LOCKED 1 else s
    s.event pRec 0xFC04 0xFFFF d res
/-- REC_CLEAR_CHECKED (R431). -/
def execRecClearChecked (s : State) : Out := .next (s.when (s.on F.REC_CLR_STATUS_BUSY) State.clearChecked)

end Sys2Proof.Machine
end

