-- ==== Sys2Proof/Machine/Power.lean ====
section
/-!
DEFINITION. Sys2Proof/Machine/Power.lean: the commands of 22_reset_power_boot_modes.md: reset sources, grove resets, watchdogs
and thermal trips, power slots and domains, mode requests, and boot.
-/
namespace Sys2Proof.Machine

def State.rstRefuse (s : State) (d code a : Nat) : State := s.refuse pReset [R.RST_STATUS d] code a
def State.pwrRefuse (s : State) (code a : Nat) : State := s.refuse pReset [R.PWR_MODE] code a

/-- What follows a change of resets or faults: pair sides fail (R355), and the mode is derived again (R455). -/
def State.settle (s : State) : State := s.pairScan.modeUpdate

/-! ## Package sources -/

/-- A package source that asserts and releases by itself: 0 power-on, 3 watchdog, 5 software. -/
def State.pulsePackage (s : State) (src : Nat) : State := (s.packageReset src).releasePackage src

/-- Everything that power-on clears, and what stays outside the package: host memory, ball levels, the commands waiting. -/
def State.blank (s : State) : State :=
  { State.reset with
    variant := s.variant, pending := s.pending, cycle := s.cycle, freeCtr := s.freeCtr, rdata := s.rdata, sent := s.sent
    host := { State.reset.host with mem := s.host.mem }
    rst := { State.reset.rst with rstN := s.rst.rstN, perst := s.rst.perst } }

/-- R455, R478: the package is in Off. -/
def State.isOff (s : State) : Bool := s.rd F.PWR_MODE_MODE == 1

/-- R455: supply lost: no register answers until power-good. -/
def State.supplyLoss (s : State) : State :=
  let t := s.blank
  ({ t with rst := { t.rst with holds := [(0, packagePath)] } } : State).wr F.PWR_MODE_MODE 1
/-- SUPPLY_LOSS (R478). -/
def execSupplyLoss (s : State) : Out := .next s.supplyLoss

/-- The package sources whose balls are low. -/
def State.ballHolds (s : State) : List (Nat × Nat) :=
  (if s.rst.rstN then [(2, packagePath)] else []) ++ if s.rst.perst then [(1, packagePath)] else []

/-- R455, R447, R433: power-good: Reset, with straps sampled, every reset cause but power-on clear, and a random challenge. -/
def State.powerGood (s : State) (samples : List (Fin 32)) : State :=
  let t := s.blank
  let t := { t with rst := { t.rst with holds := t.ballHolds, pkgSrc := some 0 }, sch := { t.sch with usecBase := (List.range (t.crowns + 1)).foldl (fun m d => mapSet (fun _ => 0) m d t.cycle) [] } }
  let t := (t.forRange 4 fun w t => t.wr (F.REC_CHALw_CHAL w) (s.free (30 + w))).tick
  let t := (t.forRange (t.crowns + 1) fun d t => t.cause d 0).latchStraps samples
  t.releasePackage 0
/-- POWER_GOOD (R477): with the strap samples of R447. -/
def execPowerGood (samples : List (Fin 32)) (s : State) : Out := .next (s.when s.isOff fun s => s.powerGood samples)

/-- R436: RST_N and PERST#: levels, and the resets they hold. -/
def State.rstN (s : State) : State :=
  let s := { s with rst := { s.rst with rstN := true } }
  if s.isOff ∨ s.rst.holds.any (·.1 == 2) then s else s.holdPackage 2
def State.rstNUp (s : State) (samples : List (Fin 32)) : State :=
  let s := { s with rst := { s.rst with rstN := false } }
  if s.isOff then s else (s.latchStraps samples).releasePackage 2
def State.perst (s : State) : State :=
  let s := { s with rst := { s.rst with perst := true } }
  if s.isOff ∨ s.rst.holds.any (·.1 == 1) then s else s.holdPackage 1
def State.perstUp (s : State) : State :=
  let s := { s with rst := { s.rst with perst := false } }
  if s.isOff then s else s.releasePackage 1

/-- RST_N_ASSERT, RST_N_RELEASE (R436), PERST_ASSERT, PERST_RELEASE (R433). -/
def execRstNAssert (s : State) : Out := .next s.rstN
def execRstNRelease (samples : List (Fin 32)) (s : State) : Out := .next (s.when s.rst.rstN fun s => s.rstNUp samples)
def execPerstAssert (s : State) : Out := .next s.perst
def execPerstRelease (s : State) : Out := .next (s.when s.rst.perst State.perstUp)

/-- R458: a write of RST_GLOBAL. -/
def State.globalWrite (s : State) (v : Word) : State := if v = 0xA5A5 then s.pulsePackage 5 else s.rstRefuse 0 0xD005 R.RST_GLOBAL
/-- RST_GLOBAL_WRITE (R433). -/
def execRstGlobalWrite (v : Word) (s : State) : Out := .next (s.when (s.dieUp 0) fun s => s.globalWrite v)

/-- R458: a write of RST_CAUSE: 1 clears. -/
def State.causeWrite (s : State) (d : Nat) (v : Word) : State := s.setReg (R.RST_CAUSE d) (s.reg (R.RST_CAUSE d) &&& ~~~v)
/-- RST_CAUSE_CLEAR (R458). -/
def execRstCauseClear (d : Fin 8) (v : Word) (s : State) : Out := .next (s.when (s.dieUp d) fun s => s.causeWrite d v)

/-! ## Watchdogs -/

/-- R445: RST_WDT_LEFT in ms. -/
def State.wdtLeft (s : State) (d : Nat) : Nat :=
  if s.on (F.RST_WDT_CFG_EN d) then s.rd (F.RST_WDT_CFG_TIMEOUT_MS d) - (s.cycle - mapGet (fun _ => 0) s.rst.wdtAt d) / 400000 else 0
def State.wdtLoad (s : State) (d : Nat) : State := { s with rst := { s.rst with wdtAt := mapSet (fun _ => 0) s.rst.wdtAt d s.cycle } }

/-- R445: a write of RST_WDT_CFG. -/
def State.wdtCfgWrite (s : State) (d : Nat) (v : Word) : State :=
  if getBits v 0 1 = 1 ∧ getBits v 1 16 = 0 then s.rstRefuse d 0xD006 (R.RST_WDT_CFG d)
  else
    let was := s.on (F.RST_WDT_CFG_EN d)
    let s := s.setReg (R.RST_WDT_CFG d) (v &&& 0x1FFFF)
    if getBits v 0 1 = 1 ∧ !was then s.wdtLoad d else s

/-- R445: a write of RST_WDT_KICK; any value but the key is ignored. -/
def State.kickWrite (s : State) (d : Nat) (v : Word) : State := if v = 0x4B1C ∧ s.on (F.RST_WDT_CFG_EN d) then s.wdtLoad d else s
/-- WDT_KICK (R445). -/
def execWdtKick (d : Fin 8) (v : Word) (s : State) : Out := .next (s.when (s.dieUp d) fun s => s.kickWrite d v)

/-- R434: a reset of a die by its watchdog (3), which releases by itself. -/
def State.pulseDie (s : State) (d src : Nat) : State :=
  if d = 0 then s.pulsePackage src
  else ((s.assertReset (src + 8 * d) (mkPath [d])).releaseReset (src + 8 * d)).settle
/-- WDT_EXPIRED (R445): the count has reached zero. -/
def execWdtExpired (d : Fin 8) (s : State) : Out :=
  .next (s.when (decide (d.val ≤ s.crowns) && s.on (F.RST_WDT_CFG_EN d) && s.wdtLeft d == 0) fun s => s.pulseDie d 3)

/-! ## Temperature -/

/-- R459: a write of PWR_THERM_CFG. -/
def State.thermCfgWrite (s : State) (d : Nat) (v : Word) : State :=
  let trip := getBits v 0 8
  if trip < 100 ∨ 125 < trip ∨ trip ≤ getBits v 8 8 then s.pwrRefuse 0xD009 (R.PWR_THERM_CFG d) else s.setReg (R.PWR_THERM_CFG d) (v &&& 0xFFFF)

/-- R446: what the sensors show: TEMP and VALID of each, MAX, ALARM, and the dies above ALARM. -/
def State.showTherm (s : State) (d : Nat) (ts : List Int) : State :=
  let mx := ts.foldl max (ts.headD 0)
  let hot := (s.rd (F.PWR_THERM_CFG_ALARM d) : Int) < mx
  let s := ts.zipIdx.foldl (fun s (t, i) => (s.wrS (F.PWR_THERM_SENSs_TEMP d i) t).wr (F.PWR_THERM_SENSs_VALID d i) 1) s
  let s := (s.wrS (F.PWR_THERM_STATUS_MAX d) mx).wr (F.PWR_THERM_STATUS_ALARM d) (bit hot)
  { s with rst := { s.rst with hotDies := s.rst.hotDies.filter (· != d) ++ if hot then [d] else [] } }

/-- R434, R446: a thermal trip holds its die, or the package, in reset. -/
def State.trip (s : State) (d : Nat) : State :=
  let s := if d = 0 then s.holdPackage 4 else (s.assertReset (4 + 8 * d) (mkPath [d])).settle
  s.wr (F.PWR_THERM_STATUS_TRIPPED d) 1
def State.untrip (s : State) (d : Nat) : State :=
  let s := s.wr (F.PWR_THERM_STATUS_TRIPPED d) 0
  if d = 0 then s.releasePackage 4 else (s.releaseReset (4 + 8 * d)).settle

/-- R446: the sensor read of a die. -/
def State.thermSample (s : State) (d : Nat) (ts : List Int) : State :=
  let trip := (s.rd (F.PWR_THERM_CFG_TRIP d) : Int)
  let s := if s.on (F.PWR_THERM_STATUS_TRIPPED d) then (if ts.all fun t => t ≤ trip - 10 then s.untrip d else s)
    else if ts.any fun t => trip < t then s.trip d else s
  s.showTherm d ts
/-- THERM_SAMPLE (R446): the readings of the eight sensors of a die. -/
def execThermSample (d : Fin 8) (ts : List (Fin 256)) (s : State) : Out :=
  .next (s.when (decide (d.val ≤ s.crowns ∧ ts.length = 8) && !s.isOff) fun s => s.thermSample d (ts.map fun t => signed 8 t.val))

/-! ## Clock-good -/

/-- R394: an enabled lane whose leaf leaves reset starts its bring-up again. -/
def State.lanesBack (s : State) (was : List Nat) : State :=
  s.forRange 100 fun n s => if was.contains (lanePath n) ∧ !s.inReset (lanePath n) ∧ s.laneOn n then s.toDetect n else s

/-- R438: clocks become good. -/
def State.clocks (s : State) (path : Nat) : State :=
  let was := s.rst.waiting
  let s := s.clockGood path
  (s.lanesBack (was.filter fun q => !s.rst.waiting.contains q)).settle
/-- CLOCK_GOOD (R438): the clocks of the units under a path. -/
def execClockGood (path : Word) (s : State) : Out := .next (s.when (!s.isOff && s.pathOk path.toNat) fun s => s.clocks path.toNat)

/-- The source of the reset that a waiting leaf has been released from. -/
def State.releasedBy (s : State) (q : Nat) : Nat :=
  match s.rst.relea.find? fun (_, p) => s.under p q with | some (key, _) => holdSrc key | none => s.rst.pkgSrc.getD 0

/-- R438: a domain whose clock is not good 1 ms after its release. -/
def State.noClock (s : State) (q : Nat) : State :=
  let src := s.releasedBy q
  (({ s with rst := { s.rst with noclk := s.rst.noclk ++ [q] } } : State).showDoms.rstEvent src 2 q).settle
/-- NOCLK_TIMEOUT (R438): of a leaf's domain. -/
def execNoclkTimeout (q : Word) (s : State) : Out :=
  .next (s.when (s.rst.waiting.contains q.toNat && !s.rst.noclk.contains q.toNat) fun s => s.noClock q.toNat)

/-! ## Grove resets -/

/-- R441: the leaves that no grove reset or power request may reach, but for a crown's fabric in a whole crown. -/
def rootFixed : List Nat := [mkPath [0, 0], mkPath [0, 12], mkPath [0, 21], mkPath [0, 22]]

/-- R441: a leaf that no reach may contain, given the leaves of the reach: the root's own, and a crown's fabric in a reach
that does not hold the whole crown. -/
def State.leafBarred (s : State) (ls : List Nat) (q : Nat) : Bool :=
  rootFixed.contains q ||
    (pathDie q != 0 && q == mkPath [pathDie q, 20] && !(s.leaves (mkPath [pathDie q])).all ls.contains)
/-- R441, R442: the code that one leaf of a reach answers a grove reset with. -/
def State.grvLeafCode (s : State) (ls : List Nat) (q : Nat) : Nat :=
  if s.leafBarred ls q then 0xD003
  else if s.rd (F.RST_ISO_MASK (pathDie q)) / 2 ^ pathHop q 1 % 2 = 0 ∧ s.status q ≠ 0 then 0xD004
  else 0

/-- R440 to R442, R19: the code that refuses HOLD over a path; 0 accepts it. -/
def State.grvCheck (s : State) (p : Nat) : Nat :=
  if !s.pathOk p ∨ (isGrove p ∧ !groveUse s.stg.groves (groveNum p) 1) then 0xD001
  else if p = mkPath [0] then 0xD003
  else firstRefusal (s.grvLeafCode (s.leaves p)) (s.leaves p)

/-- R440: a write of RST_GRVj_CTL. -/
def State.grvCtlWrite (s : State) (j : Nat) (v : Word) : State :=
  let p := s.rd (F.RST_GRVj_PATH_PATH j)
  let was := s.on (F.RST_GRVj_CTL_HOLD j)
  if getBits v 0 1 = 1 ∧ !was then
    let c := s.grvCheck p
    if c ≠ 0 then s.rstRefuse 0 c (R.RST_GRVj_CTL j)
    else (((s.wr (F.RST_GRVj_CTL_HOLD j) 1).wr (F.RST_GRVj_CTL_STATE j) 2).assertReset (6 + 8 * j) p).settle
  else if getBits v 0 1 = 0 ∧ was then
    (((s.wr (F.RST_GRVj_CTL_HOLD j) 0).wr (F.RST_GRVj_CTL_STATE j) 3).releaseReset (6 + 8 * j)).settle
  else s
/-- R440: a write of RST_GRVj_PATH. -/
def State.grvPathWrite (s : State) (j : Nat) (v : Word) : State :=
  if s.on (F.RST_GRVj_CTL_HOLD j) then s.rstRefuse 0 0xD002 (R.RST_GRVj_PATH j) else s.setReg (R.RST_GRVj_PATH j) v

/-- RST_GRV_HOLD, RST_GRV_RELEASE (R440). -/
def execRstGrvHold (j : Fin 16) (s : State) : Out := .next (s.when (s.dieUp 0) fun s => s.grvCtlWrite j 1)
def execRstGrvRelease (j : Fin 16) (s : State) : Out := .next (s.when (s.dieUp 0) fun s => s.grvCtlWrite j 0)

/-! ## Registers of a unit -/

/-- R466, R468: the leaf whose block holds an offset of a die's window; 0 where no single unit owns it. -/
def regLeaf (a : Nat) : Nat :=
  let d := a / 0x4000000
  let o := a % 0x4000000
  let at_ := fun (lo hi : Nat) => decide (lo ≤ o ∧ o < hi)
  if at_ 0xC80000 0xC80400 then mkPath [d, 19, (o - 0xC80000) / 0x40]
  else if at_ 0xD00000 0xD90000 then mkPath [d, if d = 0 then 11 else 17]
  else if at_ 0x300000 0x480000 then mkPath [d, if d = 0 then 20 else 14]
  else if d = 0 then
    if at_ 0x100000 0x101000 then (if 0x100100 ≤ o ∧ o < 0x100200 then mkPath [0, 7, (o - 0x100100) / 0x40] else 0)
    else if at_ 0x110000 0x110808 then mkPath [0, 6]
    else if at_ 0x120000 0x121300 then mkPath [0, 8]
    else if at_ 0x130000 0x140000 ∨ at_ 0x140200 0x150000 then mkPath [0, 18]
    else if at_ 0x500000 0x502800 ∨ at_ 0x580000 0x580064 then mkPath [0, 2]
    else if at_ 0x600000 0x643000 then mkPath [0, 3]
    else if at_ 0x680000 0x684000 then mkPath [0, 4]
    else if at_ 0x700000 0x7C0000 then mkPath [0, 5]
    else if at_ 0x801000 0x801400 then mkPath [0, 13, (o - 0x801000) / 0x40]
    else if at_ 0x900000 0x900900 ∨ at_ 0x980000 0x9800C0 then mkPath [0, 9]
    else if at_ 0xA01000 0xA04000 then lanePath ((o - 0xA01000) / 0x80)
    else if at_ 0xA04000 0xA04200 then lanePath (96 + (o - 0xA04000) / 0x80)
    else if at_ 0xA05000 0xA05C00 then macPath ((o - 0xA05000) / 0x20)
    else if at_ 0xA06080 0xA06400 then mkPath [0, 17, (o - 0xA06000) / 0x80]
    else 0
  else
    if at_ 0x600100 0x600140 then mkPath [d, 8 + (o - 0x600100) / 0x10]
    else if at_ 0x680000 0x680100 then mkPath [d, 8 + (o - 0x680000) / 0x40]
    else if at_ 0x701000 0x701200 then mkPath [d, (o - 0x701000) / 0x40, 5]
    else if at_ 0x741000 0x741100 then mkPath [d, (o - 0x741000) / 0x20, 1]
    else if at_ 0x780000 0x781800 then mkPath [d, 13]
    else if at_ 0x7C0000 0x7C3000 then mkPath [d, 12]
    else if at_ 0x800000 0x800290 then mkPath [d, 15]
    else 0

/-! ## Power slots and domains -/

/-- R449: a leaf whose domain is always on. -/
def alwaysOn (q : Nat) : Bool := rootFixed.contains q || (pathDie q != 0 && q == mkPath [pathDie q, 20])

/-- Whether a composition slot or stream is enabled on crown d. -/
def State.crownUsed (s : State) (d : Nat) : Bool := s.anyStream d || (List.range 16).any fun k => s.on (F.CMP_SLOTs_CFG_EN d k)
def State.anyRing (s : State) : Bool := (List.range 4096).any fun r => s.on (F.RING_r_CTL_EN r)
def State.anyFlow (s : State) : Bool := (List.range 2048).any s.flowOn

/-- R449: a leaf is used by an enabled channel, stream, flow, lane, ring or audio stream. -/
def State.leafUsed (s : State) (q : Nat) : Bool :=
  let d := pathHop q 0
  let h := pathHop q 1
  if d = 0 then match h with
    | 1 => s.anyRing
    | 2 => s.anyChannel
    | 3 => s.anyFlow
    | 4 => s.anyFlow
    | 5 => s.anyFlow
    | 6 => s.anyChannel || s.audEnabled != []
    | 7 => s.anyChannel || s.audEnabled != []
    | 8 => s.anyChannel || s.audEnabled != []
    | 13 => s.audEnabled.any fun a => s.audPort a == pathHop q 2
    | 14 => s.laneOn (pathHop q 2 * 8 + pathHop q 3)
    | 15 => (s.portOf (pathHop q 2 * 8 + pathHop q 3)).isSome
    | 16 => s.laneOn (96 + pathHop q 2)
    | 17 => s.crownUsed (pathHop q 2)
    | 18 => s.anyRing
    | 20 => s.anyRing
    | _ => false
  else
    if h < 8 then (List.range 128).any fun i => s.strOn d i && (s.strPipes d i).contains h
    else if h < 12 then (List.range 16).any fun k => s.on (F.CMP_SLOTs_CFG_EN d k) && decide (s.rd (F.CMP_SLOTs_CFG_COMP_MASK d k) / 2 ^ (h - 8) % 2 = 1)
    else if h = 12 then (List.range 128).any fun i => s.decOn d i
    else if h = 13 ∨ h = 14 ∨ h = 15 ∨ h = 18 then s.crownUsed d
    else false

/-- R449: a domain of the leaf holds a unit in use. -/
def State.domUsed (s : State) (q : Nat) : Bool :=
  (leafDoms s.crowns q).any fun k => (domLeaves s.crowns (k / 256) (k % 256)).any s.leafUsed
/-- R449, R19: the code that refuses EN over a path, `off` where the request is OFF; 0 accepts it. -/
def State.pwrCheck (s : State) (off : Bool) (p : Nat) : Nat :=
  if !s.pathOk p ∨ (isGrove p ∧ !groveUse s.stg.groves (groveNum p) 2) then 0xD008
  else firstRefusal (fun q => if alwaysOn q then 0xD008 else if off && s.domUsed q then 0xD007 else 0) (s.leaves p)

/-- R449: a write of PWR_SLOTj_CTL. -/
def State.pwrCtlWrite (s : State) (j : Nat) (v : Word) : State :=
  let p := s.rd (F.PWR_SLOTj_PATH_PATH j)
  let c := if getBits v 0 1 = 1 then s.pwrCheck (getBits v 1 1 == 0) p else 0
  if c ≠ 0 then s.pwrRefuse c (R.PWR_SLOTj_CTL j) else s.setReg (R.PWR_SLOTj_CTL j) (v &&& 3)
def State.pwrPathWrite (s : State) (j : Nat) (v : Word) : State :=
  if s.on (F.PWR_SLOTj_CTL_EN j) then s.pwrRefuse 0xD008 (R.PWR_SLOTj_PATH j) else s.setReg (R.PWR_SLOTj_PATH j) v
/-- PWR_SLOT_ENABLE (R449): EN and ON as written. -/
def execPwrSlotEnable (j : Fin 32) (en on : Bool) (s : State) : Out :=
  .next (s.when (s.dieUp 0) fun s => s.pwrCtlWrite j (BitVec.ofNat 32 (bit en + bit on * 2)))

/-- R449: the slots that request a domain on, or off. -/
def State.domAsked (s : State) (k : Nat) (on : Bool) : Bool :=
  (List.range 32).any fun j => s.on (F.PWR_SLOTj_CTL_EN j) && s.on (F.PWR_SLOTj_CTL_ON j) == on &&
    (s.leaves (s.rd (F.PWR_SLOTj_PATH_PATH j))).any fun q => (leafDoms s.crowns q).contains k
def State.domWantOff (s : State) (k : Nat) : Bool := s.domAsked k false && !s.domAsked k true

/-- R450: the next domain to switch: the lowest die and number whose state is not what the slots request. -/
def State.nextDomain (s : State) : Option Nat :=
  ((List.range (s.crowns + 1)).flatMap fun d => (List.range (domCount d)).map (d * 256 + ·)).find? fun k =>
    s.domWantOff k != s.rst.domsOff.contains k && !s.rst.domsUp.contains k

/-- R450: a unit that a domain turns off loses its state. -/
def State.loseLeaf (s : State) (q : Nat) : State :=
  let d := pathHop q 0
  let h := pathHop q 1
  let s := s.resetRegs fun a => a < 0x20000000 && regLeaf a == q
  if d ≠ 0 ∧ h = 12 then { s with dec := mapKeep (fun k => k / 128 != d) s.dec }
  else if d ≠ 0 ∧ h = 13 then { s with pool := { s.pool with bufs := mapKeep (fun k => k / 2048 != d) s.pool.bufs } }
  else if d ≠ 0 ∧ h = 15 then { s with hbms := mapKeep (· != d) s.hbms, hbm := mapKeep (fun k => k / 2 ^ 35 != d) s.hbm }
  else if q = pSch d then
    { s with sch := { s.sch with tasks := mapKeep (fun k => k / 65536 != d) s.sch.tasks, ready := mapKeep (fun k => k / 2048 != d) s.sch.ready, delay := mapKeep (fun k => k / 8 != d) s.sch.delay } }
  else if q = (if d = 0 then pRec else mkPath [d, 17]) then
    { s with recorder := { s.recorder with store := mapKeep (fun k => k / 16384 != d) s.recorder.store, copied := mapKeep (· != d) s.recorder.copied, groves := mapKeep (fun k => k / 16384 != d) s.recorder.groves } }
  else if h = 19 then s.setCrcOp d (pathHop q 2) none
  else s

/-- PWR_DOM_COUNT of a die. -/
def State.showOn (s : State) (d : Nat) : State :=
  s.wr (F.PWR_DOM_COUNT_ON d) (domCount d - (s.rst.domsOff.filter fun k => k / 256 == d).length)

/-- R450: a domain switches. -/
def State.switchDomain (s : State) (k : Nat) : State :=
  if s.rst.domsOff.contains k then { s with rst := { s.rst with domsUp := s.rst.domsUp ++ [k] } }
  else
    let s := { s with rst := { s.rst with domsOff := s.rst.domsOff ++ [k] } }
    let s := (domLeaves s.crowns (k / 256) (k % 256)).foldl (fun s q => s.loseLeaf q) s
    (s.showOn (k / 256)).settle
/-- PWR_DOMAIN_SWITCH (R450). -/
def execPwrDomainSwitch (s : State) : Out :=
  .next (match s.nextDomain with | some k => s.switchDomain k | none => s)

/-- R450: a domain has reached its voltage, and its clock is good. -/
def State.domainUp (s : State) (k : Nat) : State :=
  let s := { s with rst := { s.rst with domsOff := s.rst.domsOff.filter (· != k), domsUp := s.rst.domsUp.filter (· != k) } }
  let q := mkPath [k / 256, 15]
  let s := if (domLeaves s.crowns (k / 256) (k % 256)).contains q ∧ !s.leafOff q ∧ k / 256 ≠ 0 ∧ s.hbmState (k / 256) = 0 then
    s.wr (F.HBM_STATUS_STATE (k / 256)) 1 else s
  (s.showOn (k / 256)).settle
/-- PWR_DOMAIN_UP (R450): domain n of a die. -/
def execPwrDomainUp (d : Fin 8) (n : Fin 152) (s : State) : Out :=
  .next (s.when (s.rst.domsUp.contains (d * 256 + n)) fun s => s.domainUp (d * 256 + n))

/-! ## Mode requests -/

/-- R455: every present crown is trained, locked and running. -/
def State.calibrated (s : State) : Bool :=
  (List.range s.crowns).all fun k => s.hbmReady (k + 1) && s.on (F.HBM_CTL_MAP_LOCK (k + 1)) && s.on (F.BOOT_CORES_RUN (k + 1))

/-- R455: no timeline, channel or pair is enabled. -/
def State.quiet (s : State) : Bool :=
  !s.anyChannel && (List.range 4).all (fun n => !s.on (F.LT_TLn_CTL_EN n)) && (List.range 32).all fun n => !s.pairOn n

/-- R455: REQ of PWR_MODE as written. -/
def State.modeReq (s : State) (req : Nat) : State :=
  let m := s.rd F.PWR_MODE_MODE
  let no := fun c => s.pwrRefuse c R.PWR_MODE
  match req with
  | 1 => if m = 3 then s.wr F.PWR_MODE_MODE 4 else no 0xD00A
  | 2 =>
    if m = 4 then (if s.calibrated then (s.wr F.PWR_MODE_MODE 5).modeUpdate else no 0xD00B)
    else if m = 11 then (s.wr F.PWR_MODE_MODE 5).modeUpdate
    else no 0xD00A
  | 3 => if m = 5 then (if s.quiet then s.wr F.PWR_MODE_MODE 11 else no 0xD00F) else no 0xD00A
  | 4 =>
    if m = 12 then (if s.quarantineCrown = 0 then ((s.wr F.PWR_MODE_CAUSE 0).wr F.PWR_MODE_MODE 5).modeUpdate else no 0xD00C)
    else no 0xD00A
  | _ => no 0xD00A

/-- PWR_REQ_CALIBRATE, PWR_REQ_READY, PWR_REQ_DIAGNOSTIC, PWR_REQ_CLEAR, PWR_REQ_OTHER (R455): writes of PWR_MODE. -/
def execPwrReqCalibrate (s : State) : Out := .next (s.when (s.dieUp 0) fun s => s.modeReq 1)
def execPwrReqReady (s : State) : Out := .next (s.when (s.dieUp 0) fun s => s.modeReq 2)
def execPwrReqDiagnostic (s : State) : Out := .next (s.when (s.dieUp 0) fun s => s.modeReq 3)
def execPwrReqClear (s : State) : Out := .next (s.when (s.dieUp 0) fun s => s.modeReq 4)
def execPwrReqOther (req : Fin 16) (s : State) : Out := .next (s.when (s.dieUp 0) fun s => s.modeReq req)

/-! ## Boot -/

def wordsOf : List Byte → List Word
  | a :: b :: c :: e :: t => BitVec.ofNat 32 (a.toNat + b.toNat * 2 ^ 8 + c.toNat * 2 ^ 16 + e.toNat * 2 ^ 24) :: wordsOf t
  | _ => []

/-- R451: whether received bytes begin with a good image of a kind. -/
def imageOk (kind : Nat) (bs : List Byte) : Bool :=
  let ws := wordsOf (bs.take 64)
  let len := wordAt ws 2
  let img := bs.take len
  decide (64 ≤ bs.length) && wordAt ws 0 == 0x4C474E47 && wordAt ws 1 == 1 + kind * 256 && decide (64 ≤ len ∧ len ≤ 2097152 ∧ len ≤ bs.length) &&
    decide (wordAt ws 3 % 4 = 0 ∧ wordAt ws 3 < len) && (ws.drop 5).all (· == 0) &&
    crc32c (img.take 16 ++ [0, 0, 0, 0] ++ img.drop 20) == wordAt ws 4

/-- R451, R413: the ROM of die d runs the image in its SRAM. -/
def State.runImage (s : State) (d used : Nat) : State :=
  let s := { s with rst := { s.rst with coresUp := if s.rst.coresUp.contains d then s.rst.coresUp else s.rst.coresUp ++ [d] } }
  let s := if s.on (F.FAB_REMAP_LOCK d) then s else (s.wr (F.FAB_REMAP_SWAP0 d) 1).wr (F.FAB_REMAP_LOCK d) 1
  ((s.wr (F.BOOT_STATUS_STAGE d) 3).wr (F.BOOT_STATUS_USED d) used).wr (F.BOOT_STATUS_ERROR d) 0

/-- R451: an image of die d fails. -/
def State.badImage (s : State) (d a : Nat) : State := (s.refuse pReset [R.BOOT_STATUS d] 0xD00E a).wr (F.BOOT_STATUS_ERROR d) 1

/-- R452: the source the root ROM loads from now: 0 SPI, 1 mailbox, 2 twin, 3 UART. -/
def State.bootSrc (s : State) : Nat :=
  match s.rd F.BOOT_STRAPS_SRC with
  | 0 => if s.rst.attempt < 2 then 0 else 3
  | 1 => 1
  | 2 => if s.rst.attempt < 1 then 2 else 3
  | _ => 3

/-- R452: the root ROM is running. -/
def State.inRom (s : State) : Bool := s.rd F.PWR_MODE_MODE == 3 && !s.rst.coresUp.contains 0

/-- R452: the ROM turns to the next source. -/
def State.nextSource (s : State) : State :=
  (({ s with rst := { s.rst with attempt := s.rst.attempt + 1 } } : State).wr (F.BOOT_STATUS_FALLBACK 0) 1).wr (F.BOOT_STATUS_STAGE 0) 1

/-- R452: the ROM waits after a failure. -/
def State.bootWait (s : State) : State := (s.wr (F.BOOT_STATUS_STAGE 0) 4).wr (F.BOOT_STATUS_FALLBACK 0) 1

/-- R452: an image from the SPI flash or the UART has been loaded. -/
def State.imageLoaded (s : State) (img : List Byte) : State :=
  let src := s.bootSrc
  let s := s.sramPut 0 0 (img.take 2097152)
  if imageOk 0 img then s.runImage 0 src
  else
    let s := s.badImage 0 (R.BOOT_STATUS 0)
    if src = 0 then s.nextSource else s.bootWait
/-- BOOT_IMAGE_LOADED (R452). -/
def execBootImageLoaded (img : List Byte) (s : State) : Out :=
  .next (s.when (s.inRom && (s.bootSrc == 0 || s.bootSrc == 3)) fun s => s.imageLoaded img)

/-- R452: a BOOT frame of up to 4 KiB, in order; the image is checked when it is whole. -/
def State.bootFrame (s : State) (data : List Byte) : State :=
  let img := s.rst.twinImage ++ data.take 4096
  let s := { s with rst := { s.rst with twinImage := img } }
  let len := wordAt (wordsOf (img.take 64)) 2
  if img.length < 64 ∨ (64 ≤ len ∧ len ≤ 2097152 ∧ img.length < len) then s
  else
    let s := s.sramPut 0 0 (img.take 2097152)
    if imageOk 0 img then s.runImage 0 2
    else ({ s with rst := { s.rst with twinImage := [] } } : State).badImage 0 (R.BOOT_STATUS 0)
/-- BOOT_FRAME (R452). -/
def execBootFrame (data : List Byte) (s : State) : Out := .next (s.when (s.inRom && s.bootSrc == 2) fun s => s.bootFrame data)
/-- BOOT_TWIN_TIMEOUT (R452). -/
def execBootTwinTimeout (s : State) : Out := .next (s.when (s.inRom && s.bootSrc == 2) State.nextSource)

/-- R452: a write of BOOT_MBOX_CTL. -/
def State.mboxGo (s : State) (v : Word) : State :=
  if getBits v 0 1 = 1 ∧ s.inRom ∧ s.bootSrc = 1 then
    let img := (List.range (min 2097152 (s.rd F.BOOT_MBOX_LEN_LEN))).map fun i => s.sramByte 0 i
    if imageOk 0 img then s.runImage 0 1 else (s.badImage 0 R.BOOT_MBOX_CTL).bootWait
  else s
/-- BOOT_MBOX_GO (R452). -/
def execBootMboxGo (s : State) : Out := .next (s.when (s.dieUp 0) fun s => s.mboxGo 1)

/-- R453: a write of BOOT_CORES of crown d. -/
def State.coresWrite (s : State) (d : Nat) (v : Word) : State :=
  let was := s.on (F.BOOT_CORES_RUN d)
  let s := s.setReg (R.BOOT_CORES d) (v &&& 1)
  if getBits v 0 1 = 1 ∧ !was ∧ !s.rst.coresUp.contains d then
    let s := if imageOk 1 ((List.range 2097152).map fun i => s.sramByte d i) then s.runImage d 0 else (s.badImage d (R.BOOT_CORES d)).wr (F.BOOT_STATUS_STAGE d) 4
    s.serveCrown d
  else if getBits v 0 1 = 0 ∧ was ∧ !s.rst.coresUp.contains d then s.wr (F.BOOT_STATUS_STAGE d) 0
  else s.serveCrown d
/-- BOOT_CORES_RUN (R453). -/
def execBootCoresRun (d : Fin 8) (run : Bool) (s : State) : Out :=
  .next (s.when (s.hasCrown d && s.dieUp d) fun s => s.coresWrite d (BitVec.ofNat 32 (bit run)))

/-- R453: a write of a word of a BOOT_SRAM window. -/
def State.bootSramWrite (s : State) (d off : Nat) (v : Word) : State :=
  if s.rst.coresUp.contains d then s.refuse pReset [R.BOOT_STATUS d] 0xD00D (dieBase d + 0xF80000 + off)
  else s.sramPut d off (wordBytes v)
/-- BOOT_SRAM_WRITE (R453). -/
def execBootSramWrite (d : Fin 8) (off : Fin 524288) (v : Word) (s : State) : Out :=
  .next (s.when (s.dieUp d) fun s => s.bootSramWrite d (off * 4) v)

/-! ## The SPI flash controller -/

/-- R461: a write of BOOT_SPI_CMD. -/
def State.spiWrite (s : State) (d : Nat) (v : Word) : State :=
  let s := s.setReg (R.BOOT_SPI_CMD d) (v &&& 0x80003FFF)
  if getBits v 31 1 = 1 then s.wr (F.BOOT_SPI_STATUS_BUSY d) 1 else s
/-- BOOT_SPI_GO (R461). -/
def execBootSpiGo (d : Fin 8) (v : Word) (s : State) : Out := .next (s.when (s.dieUp d) fun s => s.spiWrite d (v ||| 0x80000000))

/-- The flash commands that program a page. -/
def spiProgram (op : Nat) : Bool := [0x02, 0x12, 0x32, 0x34, 0x38, 0x3E].contains op

end Sys2Proof.Machine
end

