-- ==== Sys2Proof/Machine/Stage.lean ====
section
/-!
DEFINITION. Sys2Proof/Machine/Stage.lean: staged sets, writes to staged registers, commits and their application, and configuration
capsules (07_staging_and_consistency.md, R132 to R150).
-/
namespace Sys2Proof.Machine

/-! ## Registers that can be staged -/

/-- R132, R145: an ST register at an assigned offset, in a window that the variant contains. -/
def State.isSt (s : State) (a : Nat) : Bool := decide (a % 4 = 0 ∧ a / 0x4000000 ≤ s.crowns) && regCls a == some .st

/-- R465: a write changes the register's own bits only. -/
def maskedIn (a : Nat) (old mask v : Word) : Word :=
  let m := mask &&& (((regRow a).map (·.wmask)).getD 0)
  (old &&& ~~~m) ||| (v &&& m)

/-! ## Sets -/

/-- R134: the state of a set: 0 FREE, 1 OPEN, 2 ARMED. -/
def State.setState (s : State) (q : Nat) : Nat := s.rd (F.STG_SETs_STATUS_STATE q)
def State.setSetState (s : State) (q n : Nat) : State := s.wr (F.STG_SETs_STATUS_STATE q) n

/-- R135: the set that claims a register, and its shadow. -/
def State.claim (s : State) (a : Nat) : Option (Nat × Word) := mapGet (fun _ => none) s.stg.claims a
def State.setClaim (s : State) (a : Nat) (x : Option (Nat × Word)) : State :=
  { s with stg := { s.stg with claims := mapSet (fun _ => none) s.stg.claims a x } }

/-- R132: the shadow copy of a register: the staged value, else the active copy's. -/
def State.shadow (s : State) (a : Nat) : Word := match s.claim a with | some (_, v) => v | none => s.reg a

/-- R135: the set that claims a grove's directory entry. -/
def State.groveClaim (s : State) (n : Nat) : Option Nat := (List.range 8).find? fun q => (s.groveRecsOf q).any fun r => r.grove == n

/-- R134: a set's claims are released and it is FREE; its STAMP registers keep the last stamp armed (notes/assumptions/134.md). -/
def State.releaseSet (s : State) (q : Nat) : State :=
  let s := { s with stg := { s.stg with
    claims := (s.stg.claims.filter fun (_, x) => match x with | some (p, _) => p != q | none => false)
    groveRecs := mapSet (fun _ => []) s.stg.groveRecs q [], armed := s.stg.armed.filter (· != q) } }
  (s.setSetState q 0).wr (F.STG_SETs_STATUS_TL q) 0

/-! ## Refusals -/

/-- R141, R151: a staging reason code: the block's, a set's, and other status registers. -/
def State.stgCode (s : State) (code : Nat) (q : Option Nat) (status : List Nat) : State :=
  let s := s.reasons (R.STG_STATUS :: status) code
  match q with | some q => s.reason (R.STG_SETs_STATUS q) code | none => s

/-- R141, R423: a refused operation or write. -/
def State.stgRefuse (s : State) (code : Nat) (q : Option Nat) (status : List Nat) (a : Nat) : State :=
  (s.stgCode code q status).recReason pStg code 0xFFFF a

/-! ## Requesters -/

/-- R137: a requester's STG_WSEL. -/
def State.wsel (s : State) (q : Req) : Word := mapGet (fun _ => 0) s.stg.wsel (reqKey q)
def State.setWsel (s : State) (q : Req) (v : Word) : State :=
  { s with stg := { s.stg with wsel := mapSet (fun _ => 0) s.stg.wsel (reqKey q) v } }
def State.wselSet (s : State) (q : Req) : Nat := getBits (s.wsel q) 0 3
def State.wselOpen (s : State) (q : Req) : Bool := getBits (s.wsel q) 3 1 == 1

/-- R151: a write of STG_WSEL. -/
def State.wselWrite (s : State) (q : Req) (v : Word) : State :=
  let set := getBits v 0 3
  if getBits v 3 1 = 1 ∧ s.setState set ≠ 1 then s.stgRefuse 0xE002 (some set) [] R.STG_WSEL
  else s.setWsel q (v &&& 0xF)

/-- STG_WSEL_WRITE (R137). -/
def execStgWselWrite (q : Req) (v : Word) (s : State) : Out := .next (s.wselWrite q v)

/-- R138: a set is opened for a requester. -/
def State.openSet (s : State) (q : Req) (set : Nat) : State :=
  (s.setSetState set 1).setWsel q (putBits (s.wsel q) 0 3 set)
def State.stgOpen (s : State) (q : Req) (any : Bool) (set : Nat) : State :=
  if any then
    match (List.range 8).find? fun i => s.setState i == 0 with
    | some i => s.openSet q i
    | none => s.stgRefuse 0xE001 none [] R.STG_CTL
  else if s.setState set = 0 then s.openSet q set
  else s.stgRefuse 0xE002 (some set) [] R.STG_CTL

/-- STG_OPEN (R138). -/
def execStgOpen (q : Req) (any : Bool) (set : Fin 8) (s : State) : Out := .next (s.stgOpen q any set)

/-! ## Staged and direct writes -/

/-- R135: a write into the shadow of a register for a set, under a mask. -/
def State.stage (s : State) (set a : Nat) (mask v : Word) : State := s.setClaim a (some (set, maskedIn a (s.shadow a) mask v))

/-- R134, R135: what refuses a staged write; 0 accepts it. -/
def State.stageCheck (s : State) (set a : Nat) : Nat :=
  if s.setState set ≠ 1 then 0xE002
  else match s.claim a with | some (p, _) => if p = set then 0 else 0xE004 | none => 0

/-- R135: a staged write. -/
def State.stagedWrite (s : State) (q : Req) (a : Nat) (v : Word) : State :=
  let set := s.wselSet q
  let c := s.stageCheck set a
  if c = 0 then s.stage set a 0xFFFFFFFF v else s.stgRefuse c (some set) [] a

/-- STAGED_WRITE (R135): a write to an ST register by a requester whose STG_WSEL.OPEN is 1. -/
def execStagedWrite (q : Req) (addr : Nat) (v : Word) (s : State) : Out :=
  .next (s.when (s.isSt addr && s.wselOpen q) fun s => s.stagedWrite q addr v)

/-- R139: a direct write. The code of a refusal with 0xE004 or 0xE006 goes to the owner block's REASON too, and that of a claimed register
to the set's (notes/assumptions/134.md). -/
def State.directWrite (s : State) (a : Nat) (v : Word) : State :=
  let w := s.owner a
  let new := maskedIn a (s.reg a) 0xFFFFFFFF v
  match s.claim a with
  | some (p, _) => s.stgRefuse 0xE004 (some p) w.status a
  | none =>
    if s.ownerOn w then (s.inc F.STG_COUNT_DIRECT_DROP).stgRefuse 0xE003 none w.status a
    else if w.en ∧ getBits new 0 1 = 1 then s.stgRefuse 0xE006 none w.status a
    else s.setReg a new

/-- DIRECT_WRITE (R139): a write to an ST register by a requester whose STG_WSEL.OPEN is 0. -/
def execDirectWrite (q : Req) (addr : Nat) (v : Word) (s : State) : Out :=
  .next (s.when (s.isSt addr && !s.wselOpen q) fun s => s.directWrite addr v)

/-- R137: a write to an ST register. -/
def State.stWrite (s : State) (q : Req) (a : Nat) (v : Word) : State := if s.wselOpen q then s.stagedWrite q a v else s.directWrite a v

/-! ## Grove records -/

/-- R25: a control over a grove's own path: a held reset, a held power request, a side of an enabled pair. -/
def State.groveCarries (s : State) (n : Nat) : Bool :=
  let p := grovePath n
  (s.rst.holds ++ s.rst.relea).any (·.2 == p) ||
    (List.range 32).any (fun j => s.on (F.PWR_SLOTj_CTL_EN j) && s.rd (F.PWR_SLOTj_PATH_PATH j) == p) ||
    (List.range 32).any fun m => s.pairOn m && (s.localSides m).any fun sd => s.sidePath m sd == p

/-- R25: the grove, or one whose membership reaches it, is bound. -/
def State.groveBound (s : State) (n : Nat) : Bool :=
  s.groveCarries n || (s.stg.groves.any fun (m, _) => groveReaches s.stg.groves 5 m n && s.groveCarries m)

/-- R25: a declaration that only sets further USE bits of the one in force. -/
def onlyMoreUse (old new : List Word) : Bool :=
  old != [] && (old.set 1 0) == (new.set 1 0) && (old.getD 1 0 &&& ~~~ new.getD 1 0) == 0

/-- R24, R25: what refuses a grove record on a directory that will stand as `dir` after the commit; 0 accepts it. -/
def State.groveCheck (s : State) (dir : Directory) (r : GroveRec) : Nat :=
  let old := groveWords s.stg.groves r.grove
  let dir := mapSet (fun _ => []) dir r.grove (r.words.getD [])
  let others := dir.filter fun (m, _) => m != r.grove
  match r.words with
  | some ws =>
    let c := groveFault s.crowns dir r.grove
    if c ≠ 0 then c
    else if old ≠ [] ∧ !onlyMoreUse old ws ∧ s.groveBound r.grove then 0xE016
    else ((others.filterMap fun (m, _) => if groveReaches dir 5 m r.grove then some (groveFault s.crowns dir m) else none).find? (· != 0)).getD 0
  | none =>
    if old = [] ∨ s.groveBound r.grove then 0xE016
    else if others.any fun (_, ws) => (groveMembersOf ws).contains (grovePath r.grove) then 0xE016
    else 0

/-- The directory as ARMED sets and some records will leave it. -/
def State.dirAfter (s : State) (rs : List GroveRec) : Directory :=
  applyGroves (s.stg.armed.foldl (fun d q => applyGroves d (s.groveRecsOf q)) s.stg.groves) rs

/-! ## Commit requests -/

/-- R142: what the registers of a set belong to. -/
def State.ownersOf (s : State) (q : Nat) : List Fld :=
  (s.claimsOf q).flatMap fun (a, _) => match (s.owner a).ens with | [] => [⟨a, 0, 0⟩] | es => es

/-- R142: an ARMED set on another timeline shares an owner enable with set q. -/
def State.crossTl (s : State) (q n : Nat) : Bool :=
  let mine := s.ownersOf q
  s.stg.armed.any fun p => s.rd (F.STG_SETs_STATUS_TL p) != n && (s.ownersOf p).any mine.contains

/-- R25, R140 to R142, R48: what refuses the commit of set q: code, register concerned, status registers. 0xE00B is tested after R48 and
before the check (notes/assumptions/134.md). -/
def State.commitFails (s : State) (q n stamp : Nat) : Option (Nat × Nat × List Nat) :=
  let gs := s.groveRecsOf q
  if s.setState q ≠ 1 then some (0xE002, R.STG_CTL, [])
  else if s.stampCheck n stamp ≠ 0 then some (s.stampCheck n stamp, R.STG_CTL, [])
  else if s.crossTl q n then some (0xE00B, R.STG_CTL, [])
  else match s.check (s.claimsOf q) gs with
    | some (a, _, code, st) => some (code, a, (s.owner a).status ++ st)
    | none =>
      let dir := s.dirAfter gs
      match (gs.map fun r => s.groveCheck dir r).find? (· != 0) with
      | some c => some (c, R.STG_CTL, [])
      | none => none

/-- R134: set q is ARMED. -/
def State.armSet (s : State) (q n stamp : Nat) : State :=
  let s := (s.setSetState q 2).wr (F.STG_SETs_STATUS_TL q) n
  let s := (s.setReg (R.STG_SETs_STAMP_LO q) (BitVec.ofNat 32 stamp)).setReg (R.STG_SETs_STAMP_HI q) (BitVec.ofNat 32 (stamp / 2 ^ 32))
  { s with stg := { s.stg with armed := s.stg.armed ++ [q] } }

def State.stgStamp (s : State) : Nat := s.rd F.STG_STAMP_LO_STAMP_LO + s.rd F.STG_STAMP_HI_STAMP_HI * 2 ^ 32
def State.setStamp (s : State) (q : Nat) : Nat := s.rd (F.STG_SETs_STAMP_LO_STAMP_LO q) + s.rd (F.STG_SETs_STAMP_HI_STAMP_HI q) * 2 ^ 32

/-- R140: STG_CTL.OP = COMMIT. -/
def State.stgCommit (s : State) (q n : Nat) : State :=
  match s.commitFails q n s.stgStamp with
  | some (c, a, st) => (s.inc F.STG_COUNT_REFUSED).stgRefuse c (some q) st a
  | none => s.armSet q n s.stgStamp

/-- STG_COMMIT (R140). -/
def execStgCommit (_ : Req) (set : Fin 8) (n : Fin 4) (s : State) : Out := .next (s.stgCommit set n)

/-- R147: the work whose record waits for set q, by key. -/
def State.waitingFor (s : State) (q : Nat) : Option (Nat × Job) :=
  s.host.jobs.findSome? fun (k, j) => j.bind fun j => if j.phase = .armed ∧ j.set = some q then some (k, j) else none

/-- R134: what refuses an ABORT; 0 accepts it. -/
def State.abortCheck (s : State) (q : Nat) : Nat :=
  if s.setState q = 0 then 0xE002
  else if s.setState q = 2 ∧ !later (s.setStamp q) (s.nowPlus20us (s.rd (F.STG_SETs_STATUS_TL q))) then 0xE00A
  else 0

/-- R134, R147: a set is aborted; a capsule that waits for it ends CANCELLED. -/
def State.abortSet (s : State) (q : Nat) : State :=
  let w := s.waitingFor q
  let s := s.releaseSet q
  match w with
  | some (k, j) => s.endJob k 4 0xE00E j.wm
  | none => s
def State.stgAbort (s : State) (q : Nat) : State :=
  if s.abortCheck q = 0 then s.abortSet q else s.stgRefuse (s.abortCheck q) (some q) [] R.STG_CTL

/-- STG_ABORT (R134). -/
def execStgAbort (_ : Req) (set : Fin 8) (s : State) : Out := .next (s.stgAbort set)

/-- R151: a write of STG_CTL. -/
def State.stgCtlWrite (s : State) (q : Req) (v : Word) : State :=
  let set := getBits v 4 3
  match getBits v 0 2 with
  | 1 => s.stgOpen q (getBits v 7 1 == 1) set
  | 2 => s.stgCommit set (getBits v 8 2)
  | 3 => s.stgAbort set
  | _ => s

/-! ## Application -/

/-- R60: references that a commit has enabled or disabled; timelines look at their candidates again. -/
def State.selCommit (o s : State) : State :=
  let s := s.forRange 12 fun k s => match o.on (F.SEL_REFk_CFG_EN k), s.on (F.SEL_REFk_CFG_EN k) with
    | false, true => s.refEnable k
    | true, false => s.refDisable k
    | _, _ => s
  s.reselectAll

/-- R82: PTP instances that a commit has enabled or disabled. -/
def State.ptpCommit (o s : State) : State :=
  s.forRange 2 fun i s =>
    let en := s.on (F.PTP_n_CFG_EN i)
    if o.on (F.PTP_n_CFG_EN i) = en then s else s.ptpInstEnable i en

/-- A consumer gives back the task of its next slot, and the task of its current slot that it has not started (PREFETCHED). -/
def State.giveNext (s : State) (d k : Nat) : State :=
  (s.nextOf d k).elim s fun t => (s.setNext d k none).joinHead d t
def State.giveCur (s : State) (d k : Nat) : State :=
  (s.curOf d k).elim s fun t => if (s.task d t).state = 3 then (s.emptyCur d k).joinHead d t else s

/-- R169: a consumer that a commit has disabled takes no new task: it gives back the task it has not started, and a pre-emption that
waits is dropped, since its running task ends in the normal way. -/
def State.consCommit (o s : State) (d k : Nat) : State :=
  if o.on (F.SCH_CONSk_CFG_EN d k) && !s.on (F.SCH_CONSk_CFG_EN d k) then
    ((s.wr (F.SCH_CONSk_STATUS_PEND_PREEMPT d k) 0).giveNext d k).giveCur d k
  else s
def State.schCommit (o s : State) (d : Nat) : State :=
  let s := s.forRange 256 fun k s => if o.reg (R.SCH_CONSk_CFG d k) = s.reg (R.SCH_CONSk_CFG d k) then s else o.consCommit s d k
  s.forRange 64 fun b s => s.refill d b

/-- R154, R168: what one leaf of a grove answers to a scheduling control that puts the consumers under the grove into binding b:
0xC007 where the move would take from an enabled queue's binding its only enabled consumer, 0xC00E where an enabled hardware
consumer would join a binding that an enabled HOST queue uses. -/
def State.schedLeafCode (s : State) (d b : Nat) (ks : List Nat) (q : Nat) : Nat :=
  let mine := ks.filter fun k => s.consPath d k == q && s.on (F.SCH_CONSk_CFG_EN d k)
  let qs := s.queuesOn d
  let strips := fun k =>
    let was := s.rd (F.SCH_CONSk_CFG_BIND d k)
    was != b && (s.bound d was).all ks.contains && qs.any fun u => s.rd (F.SCH_Qq_CFG_BIND d u) == was
  if mine.any strips then 0xC007
  else if mine.any fun k => consHw d k && qs.any fun u => s.on (F.SCH_Qq_CFG_HOST d u) && s.rd (F.SCH_Qq_CFG_BIND d u) == b then 0xC00E
  else 0

/-- R154, R19: a scheduling control addressed to a grove: BIND of every consumer whose path lies under it, all or none. No register and
no row of the table carries one (notes/assumptions/75.md). -/
def State.schedControl (s : State) (d p b : Nat) : State :=
  let ls := s.leaves p
  let ks := (List.range 256).filter fun k => consAssigned d k && ls.contains (s.consPath d k)
  let code := if !s.pathOk p ∨ (isGrove p ∧ !groveUse s.stg.groves (groveNum p) 0) then 0xC00D else firstRefusal (s.schedLeafCode d b ks) ls
  if code ≠ 0 then s.refuse (pSch d) [R.SCH_STATUS d] code p
  else s.schCommit (ks.foldl (fun s k => s.wr (F.SCH_CONSk_CFG_BIND d k) b) s) d

/-- R42: the channel frame that stands when a commit at a stamp of timeline n enables a channel, or moves its frames: the first
frame it delivers is the first that starts at or after the stamp. -/
def State.chanCommit (o s : State) (c n stamp : Nat) : State :=
  let mark := fun v => { s with lt := { s.lt with chFrame := mapSet (fun _ => 0) s.lt.chFrame c v } }
  if !s.chOn c then mark 0
  else if o.chOn c && !o.differ s [R.LT_CHc_MAP c, R.LT_CHc_PHASE c] then s
  else match s.chCount c with
    | some k => mark (if s.chTl c ≠ n ∨ later stamp (s.unitStamp n (s.frameStart c k)) then k + 1 else k)
    | none => mark 0

/-- R30: a crown that is configured again: the packetiser goes by its registers. -/
def State.crownBack (o s : State) (d : Nat) : State :=
  if (List.range 16).any fun k => !o.on (F.CMP_SLOTs_CFG_EN d k) && s.on (F.CMP_SLOTs_CFG_EN d k) then s.setKept d [] else s

/-- R338: audio streams and ports that a commit has enabled or disabled. -/
def State.audCommit (o s : State) (t : List Nat) (l stamp : Nat) : State :=
  let s := (hitAt t (R.AUD_Pp_CFG 0) 0x40 16 0x40).eraseDups.foldl (fun s p =>
    if o.on (F.AUD_Pp_CFG_EN p) = s.on (F.AUD_Pp_CFG_EN p) then s else s.audPortEnable p) s
  let s := (hitAt t (R.AUD_STRa_CFG 0) 0x40 256 0x40).eraseDups.foldl (fun s a =>
    if o.audOn a = s.audOn a then s else s.audEnable a (s.audOn a) l stamp) s
  s.showMembers

/-- Whether a list of BAR0 offsets has one in a range of die d's window. -/
def hits (t : List Nat) (d lo hi : Nat) : Bool := t.any fun a => decide (dieBase d + lo ≤ a ∧ a < dieBase d + hi)

/-- R136: the blocks whose registers a commit has changed take note; `o` is the state before. -/
def State.committed (o s : State) (t : List Nat) (n stamp : Nat) : State :=
  let s := if hits t 0 0x120000 0x120200 then o.ptpCommit s else s
  let s := if hits t 0 0x110000 0x110700 then o.selCommit s else s
  let s := s.forRange (s.crowns + 1) fun d s => if hits t d 0x300000 0x480000 then o.schCommit s d else s
  let chans := (hitAt t (R.ING_CHc_SRC 0) 0x40 96 0x40 ++ hitAt t (R.LT_CHc_MAP 0) 0x10 96 0x10).eraseDups
  let s := chans.foldl (fun s c => (o.ingCommit s c |> fun s => o.chanCommit s c n stamp)) s
  let s := s.forRange s.crowns fun k s =>
    let d := k + 1
    let s := if hits t d 0x600000 0x680000 then o.cmpCommit (o.crownBack s d) d else s
    let s := if hits t d 0x700000 0x780000 then o.encCommit s d else s
    if hits t d 0x780000 0x7D0000 ∨ hits t d 0x600000 0x680000 ∨ chans ≠ [] then o.decCommit s d else s
  let s := if chans = [] ∧ (List.range s.crowns).all (fun k => !hits t (k + 1) 0x600000 0x680000) then s else s.showLedgers
  let s := if hits t 0 0x800000 0x806000 then o.audCommit s t n stamp else s
  let s := if hits t 0 0x600000 0x680000 then o.flowsCommit s else s
  let s := if hits t 0 0x900000 0x980100 then o.pairsCommit s else o.crcCommit s
  let s := if hits t 0 0xA01000 0xA06000 then o.lanesCommit s else s
  s.modeUpdate

/-- R134, R29: a set applies: every claimed shadow of a die in the package becomes active at once. -/
def State.applySet (s : State) (q : Nat) : State :=
  let n := s.rd (F.STG_SETs_STATUS_TL q)
  let stamp := s.setStamp q
  let cs := (s.claimsOf q).filter fun (a, _) => !s.rst.needReset.contains (a / 0x4000000)
  let w := s.waitingFor q
  let o := s
  let s := ((s.overlay cs (s.groveRecsOf q)).releaseSet q).incWrap (F.STG_SETs_APPLIED_COUNT q)
  let s := s.event pStg 0xEC01 0xFFFF q cs.length (some n)
  let s := o.committed s (cs.map (·.1)) n stamp
  match w with
  | some (k, j) => s.endJob k 0 0 j.wm
  | none => s

/-- R37, R134: the stamp of an ARMED set has been reached. -/
def State.setDue (s : State) (q : Nat) : Bool := s.setState q == 2 && s.reachedOn (s.rd (F.STG_SETs_STATUS_TL q)) (s.setStamp q)

/-- COMMIT_APPLY (R134). -/
def execCommitApply (set : Fin 8) (s : State) : Out := .next (s.when (s.setDue set) fun s => s.applySet set)

/-! ## Capsule descriptors -/

/-- R143: the body of a CAPSULE descriptor. -/
def capLen (ws : List Word) : Nat := wordAt ws 8
def capResume (ws : List Word) : Bool := fieldAt ws 9 0 1 == 1
def capOffset (ws : List Word) : Nat := wordAt ws 10

/-- R143, R148: the check of a CAPSULE on ring r; 0 passes. -/
def State.capCheck (s : State) (r : Nat) (ws : List Word) : Nat :=
  let n := capLen ws
  let o := capOffset ws
  if fieldAt ws 9 1 31 ≠ 0 ∨ wordAt ws 11 ≠ 0 ∨ wordAt ws 12 ≠ 0 ∨ wordAt ws 13 ≠ 0 ∨ wordAt ws 14 ≠ 0 then 0xB00F
  else if n < 64 ∨ 262144 < n ∨ n % 8 ≠ 0 ∨ (capResume ws ∧ 262144 < o + n) then 0xE009
  else if word64At ws 6 % 64 ≠ 0 ∨ (!capResume ws ∧ o ≠ 0) then 0xE008
  else if capResume ws ∧ (s.ring r).capHeld ≠ some o then 0xE00D
  else 0

/-- R148: capsule buffers in use: by reads, and by held images. -/
def State.capInUse (s : State) : Nat :=
  (s.host.jobs.filter fun (_, j) => match j with
    | some j => dOpcode j.words == 0x02 && (j.phase == .running || j.phase == .parked) | none => false).length +
  (s.host.rings.filter fun (_, x) => x.capHeld.isSome).length

/-- R151: STG_STATUS.BUF_FREE. -/
def State.capFree (s : State) : Nat := 4 - s.capInUse

/-- R121: the watermark of n bytes of an image. -/
def capWm (n : Nat) : Wm := ⟨0, n, n, n⟩

/-- R148: a CAPSULE begins: a continuation in the held image's buffer; any other in a free one, for which it may wait. -/
def State.capBegin (s : State) (r : Nat) (d : Desc) : State :=
  if capResume d.words then
    let held := (s.ring r).capData
    let s := (s.setRing r { s.ring r with capHeld := none, capData := [] }).startJob r d .running
    let k := jobKey r d.idx
    match s.job k with
    | some j => s.setJob k (some { j with wm := capWm (capOffset d.words), buf := held })
    | none => s
  else
    let s := s.dropHeld r
    s.startJob r d (if 0 < s.capFree then .running else .waiting)

/-- R150, R151: a refused CAPSULE shows its code and is counted. -/
def State.capRefused (s : State) (code : Nat) (q : Option Nat) (status : List Nat) : State := (s.inc F.STG_COUNT_REFUSED).stgCode code q status

/-- CAPSULE (R143). -/
def execCapsule (r : Fin 4096) (s : State) : Out :=
  .next (match s.dispatchable r 0x02 with
    | none => s
    | some d =>
      let s := s.popFetched r
      let c := s.capCheck r d.words
      if c = 0 then s.capBegin r d else (s.capRefused c none []).refuseDesc r d c)

/-- The CAPSULE of a ring that has waited longest for a buffer: the furthest behind the ring's index. -/
def State.capWaiting (s : State) (r : Nat) : Option (Nat × Job) :=
  let h := s.rd (F.RING_r_HEAD_HEAD r)
  let age := fun (j : Job) => (h + 2 ^ 32 - j.idx) % 2 ^ 32
  (s.host.jobs.filterMap fun (k, j) => j.bind fun j => if j.phase = .waiting ∧ j.ring = r then some (k, j) else none).foldl
    (fun a x => match a with | some y => if age y.2 < age x.2 then some x else some y | none => some x) none

/-- CAPSULE_START (R148). -/
def execCapsuleStart (r : Fin 4096) (s : State) : Out :=
  .next (match s.capWaiting r with
    | some (k, j) => s.when (decide (0 < s.capFree)) fun s => s.setJob k (some { j with phase := .running })
    | none => s)

/-- CAPSULE_HOLD_EXPIRED (R148). -/
def execCapsuleHoldExpired (r : Fin 4096) (s : State) : Out := .next (s.dropHeld r)

/-! ## Images -/

/-- R145: a record of an image: masked writes to registers, or a grove record. -/
inductive CapRec where
  | regs (ws : List (Nat × Word × Word))
  | grove (r : GroveRec)
  deriving DecidableEq, Repr

/-- R144: the fields of an image's header. -/
def imgSet (im : List Word) : Nat := fieldAt im 3 0 3
def imgNew (im : List Word) : Bool := fieldAt im 3 3 1 == 1
def imgCommit (im : List Word) : Bool := fieldAt im 3 4 1 == 1
def imgWait (im : List Word) : Bool := fieldAt im 3 5 1 == 1
def imgDiscard (im : List Word) : Bool := fieldAt im 3 6 1 == 1
def imgTl (im : List Word) : Nat := fieldAt im 3 8 2
def imgStamp (im : List Word) : Nat := word64At im 5

/-- R144, R146: the header of an image of n bytes. -/
def imgHeadOk (im : List Word) (n : Nat) : Bool :=
  wordAt im 0 == 0x43475453 && wordAt im 1 == 1 && wordAt im 2 == n && fieldAt im 3 7 1 == 0 && fieldAt im 3 10 22 == 0 &&
    ((im.drop 8).take 8).all (· == 0)

/-- R145: one record at the front of an image's words, and the words after it; none where its form is wrong or it overruns. -/
def capRec (ws : List Word) : Option (CapRec × List Word) :=
  let hi := fieldAt ws 0 16 16
  let a := wordAt ws 1
  if ws.length < 2 ∨ fieldAt ws 0 8 8 ≠ 0 then none
  else match fieldAt ws 0 0 8 with
    | 1 =>
      let size := 2 + hi + hi % 2
      if hi < 1 ∨ 1024 < hi ∨ a % 4 ≠ 0 ∨ ws.length < size ∨ (hi % 2 = 1 ∧ wordAt ws (2 + hi) ≠ 0) then none
      else some (.regs (((ws.drop 2).take hi).zipIdx.map fun (v, i) => (a + 4 * i, (0xFFFFFFFF : Word), v)), ws.drop size)
    | 2 =>
      if hi ≠ 0 ∨ a % 4 ≠ 0 ∨ ws.length < 4 then none
      else some (.regs [(a, ws.getD 2 0, ws.getD 3 0)], ws.drop 4)
    | 3 =>
      if hi ≠ 0 ∨ a ≠ 0 ∨ ws.length < 66 then none
      else some (.grove ⟨fieldAt ws 2 0 10, some ((ws.drop 2).take 64)⟩, ws.drop 66)
    | 4 =>
      if hi ≠ 0 ∨ 1024 ≤ a then none else some (.grove ⟨a, none⟩, ws.drop 2)
    | _ => none

/-- R145, R146: n records, and zero padding after them. -/
def capRecs : Nat → List Word → Option (List CapRec)
  | 0, ws => if ws.all (· == 0) then some [] else none
  | n + 1, ws => match capRec ws with
    | some (r, ws) => (capRecs n ws).map (r :: ·)
    | none => none

/-- R146, steps 2 and 3: the records of an image of n bytes, or the code that refuses it. An image holds at most one record for
every eight bytes. -/
def imgParse (im : List Word) (n : Nat) : Except Nat (List CapRec) :=
  if crc32c (wordsBytes (im.set 7 0)) ≠ wordAt im 7 then .error 0xE007
  else if !imgHeadOk im n ∨ n / 8 < wordAt im 4 then .error 0xE008
  else match capRecs (wordAt im 4) (im.drop 16) with
    | some rs => .ok rs
    | none => .error 0xE008

/-- The grove records among records. -/
def grovesIn (rs : List CapRec) : List GroveRec := rs.filterMap fun r => match r with | .grove g => some g | .regs _ => none

/-- R146, step 5, for one record: its targets, then claims, then grove declarations. -/
def State.recCheck (s : State) (q : Nat) (dir : Directory) : CapRec → Nat
  | .regs ws =>
    if ws.any fun (a, _, _) => !s.isSt a then 0xE005
    else if ws.any fun (a, _, _) => (match s.claim a with | some (p, _) => p != q | none => false) then 0xE004
    else 0
  | .grove g =>
    if (match s.groveClaim g.grove with | some p => p != q | none => false) then 0xE004 else s.groveCheck dir g

/-- R146, steps 4 and 5: what refuses the records for set q; 0 accepts them. -/
def State.recsCheck (s : State) (q : Nat) (new : Bool) (rs : List CapRec) : Nat :=
  if s.setState q ≠ (if new then 0 else 1) then 0xE002
  else
    let dir := s.dirAfter (s.groveRecsOf q ++ grovesIn rs)
    ((rs.map (s.recCheck q dir)).find? (· != 0)).getD 0

/-- R146, step 6: a record is staged; a grove's later record takes the place of an earlier one. -/
def State.stageRec (s : State) (q : Nat) : CapRec → State
  | .regs ws => ws.foldl (fun s (a, m, v) => s.stage q a m v) s
  | .grove g =>
    let gs := ((s.groveRecsOf q).filter fun r => r.grove != g.grove) ++ [g]
    { s with stg := { s.stg with groveRecs := mapSet (fun _ => []) s.stg.groveRecs q gs } }

/-- R146, R147: an image of n bytes that has been read: the state, and the outcome and code of the record, or none when it waits
for the set. -/
def State.image (s : State) (im : List Word) (n : Nat) : State × Option (Nat × Nat) :=
  let q := imgSet im
  match imgParse im n with
  | .error c => (s.capRefused c none [], some (3, c))
  | .ok rs =>
    let c := s.recsCheck q (imgNew im) rs
    if c ≠ 0 then (s.capRefused c (some q) [], some (3, c))
    else
      let s := rs.foldl (fun s r => s.stageRec q r) (s.setSetState q 1)
      if !imgCommit im then (s, some (0, 0))
      else match s.commitFails q (imgTl im) (imgStamp im) with
        | some (c, _, st) => ((if imgDiscard im then s.releaseSet q else s).capRefused c (some q) st, some (3, c))
        | none => (s.armSet q (imgTl im) (imgStamp im), if imgWait im then none else some (0, 0))

/-- R113: the image bytes that a CAPSULE reads, up to byte n of the image, are translated with its ring's PASID. -/
def State.capReads (s : State) (j : Job) (n : Nat) : State :=
  s.xlateRange (s.ringPasid j.ring) (word64At j.words 6 + (j.wm.bytes - capOffset j.words)) (n - j.wm.bytes)

/-- R148: the first n bytes of the image in a CAPSULE's buffer, once `data` has followed the bytes that it holds. -/
def capBuf (j : Job) (n : Nat) (data : List Byte) : List Byte :=
  let b := (j.buf ++ List.replicate (j.wm.bytes - j.buf.length) 0).take j.wm.bytes ++ data
  (b ++ List.replicate (n - b.length) 0).take n

/-- R113, R148: the read of a CAPSULE brings the image up to byte n into the buffer. -/
def State.capFill (s : State) (k : Nat) (j : Job) (n : Nat) (data : List Byte) : State :=
  (s.capReads j n).setJob k (some { j with buf := capBuf j n data })

/-- R146, R148: a CAPSULE's read has brought in the rest of the image: `image` is what the buffer holds from the words on that it had
not read yet. A stop that was pending acts at the next safe point (R496). -/
def State.capRead (s : State) (k : Nat) (image : List Word) : State :=
  match s.job k with
  | none => s
  | some j =>
    if j.phase ≠ .running ∨ j.faulted ∨ dOpcode j.words ≠ 0x02 then s
    else
      let o := capOffset j.words
      let n := o + capLen j.words
      match j.stop with
      | some (out, c) =>
        let m := o + pageStop (word64At j.words 6) (j.wm.bytes - o) (capLen j.words)
        (s.capFill k j m (wordsBytes image)).endJob k out c (capWm m)
      | none =>
        let im := bytesWords (capBuf j n (wordsBytes image))
        match (s.capReads j n).image im n with
        | (s, some (out, c)) => s.endJob k out c (if out = 0 then capWm n else Wm.zero)
        | (s, none) => s.setJob k (some { j with phase := .armed, set := some (imgSet im), wm := capWm n })

/-- CAPSULE_READ_COMPLETE (R146). -/
def execCapsuleReadComplete (r : Fin 4096) (idx : Word) (image : List Word) (s : State) : Out := .next (s.capRead (descKey r idx) image)

end Sys2Proof.Machine
end

