-- ==== Sys2Proof/Machine/Read.lean ====
section
/-!
DEFINITION. Sys2Proof/Machine/Read.lean: what a read of a register returns (R11, R12, R137, R464). A read has no
command of its own where it changes nothing; the reads that change state (LT_NOW_READ, PTP_CLK_NS_READ,
SCH_USEC_READ, SCH_CONS_TAKE, CMP_COEF_ACCESS, AUD_M0_READ, CRC_CLAIM_READ) are rows of the table.
-/
namespace Sys2Proof.Machine

/-- A register whose value the device works out at the read: offset of instance 0, stride, instances, value. -/
structure Shown where
  off : Nat
  stride : Nat
  count : Nat
  val : State → Nat → Nat

/-- R169: words of a task entry. -/
def Task.word (x : Task) (w : Nat) : Nat :=
  match w with
  | 0 => x.state + x.level * 2 ^ 3 + x.dlist * 2 ^ 8 + bit x.creq * 2 ^ 11 + bit x.desc * 2 ^ 12 + bit x.pre * 2 ^ 13 + x.dtl * 2 ^ 14 + x.queue * 2 ^ 16
  | 1 => x.epoch + x.cons * 2 ^ 8 + x.tag * 2 ^ 16
  | 2 => x.wake
  | 3 => x.wake / 2 ^ 32
  | 4 => x.deadline
  | 5 => x.deadline / 2 ^ 32
  | 6 => x.arg0.toNat
  | _ => x.arg1.toNat

/-- SCH_READYb (R169). -/
def State.readyWord (s : State) (d b : Nat) : Nat :=
  match s.best d b with
  | some (l, _) => s.readyCount d b + l * 2 ^ 16
  | none => 0x1F * 2 ^ 16 + 2 ^ 21

/-- SEL_HIST_DATA (R71): the sample `age` minutes back; 0 is the minute in progress. -/
def State.histWord (s : State) (n age : Nat) : Nat :=
  match age with
  | 0 => 0
  | a + 1 => match (s.tl n).hist.getD a none with
    | some f => wrap 31 f + 2 ^ 31
    | none => 0

/-- R46: the value of LT_TLn_NOW_HI or LT_TLn_EPOCH_HI that a requester latched. -/
def State.nowLatched (s : State) (q : Req) (n : Nat) : Nat × Nat := mapGet (fun _ => (0, 0)) s.lt.nowLatch (reqKey q * 4 + n)

/-- R79: the seconds and timestamp that a requester latched. -/
def State.ptpLatched (s : State) (q : Req) : Nat × Nat × Nat := mapGet (fun _ => (0, 0, 0)) s.ptp.latch (reqKey q)

/-- STG_PEEK_INFO (R151). -/
def State.peekInfo (s : State) : Nat :=
  let a := s.rd F.STG_PEEK_ADDR_OFFSET
  bit (s.isSt a) + (match s.claim a with | some (q, _) => 2 + q * 4 | none => 0)

/-- STG_PEEK_DATA (R151): the shadow copy; zero where the register is not ST. -/
def State.peekData (s : State) : Nat :=
  let a := s.rd F.STG_PEEK_ADDR_OFFSET
  if s.isSt a then (s.shadow a).toNat else 0

/-- STG_GROVE_INFO (R151). -/
def State.groveInfo (s : State) : Nat :=
  let n := s.rd F.STG_GROVE_SEL_GROVE
  bit (groveWords s.stg.groves n != []) + bit (s.groveBound n) * 2 + (match s.groveClaim n with | some q => 4 + q * 8 | none => 0)

/-- STG_SETs_CLAIMS (R151). -/
def State.claimsWord (s : State) (q : Nat) : Nat := min (s.claimsOf q).length 0xFFFF + min (s.groveRecsOf q).length 1024 * 2 ^ 16

/-- R240: the selected word of the selected context; words 16 to 63 are the device's own. -/
def State.ctxData (s : State) (d : Nat) : Nat :=
  match (s.residents d (s.rd (F.ENC_CTX_SEL_PIPE d)))[s.rd (F.ENC_CTX_SEL_CTX d)]? with
  | some (i, j) =>
    let w := s.rd (F.ENC_CTX_SEL_WORD d)
    if 16 ≤ w then Config.ctxWord d i w j % 2 ^ 32 else (s.encSt d i).ctx.getD w 0 + (if w = 0 then j * 2 ^ 14 else 0)
  | none => 0

/-- ENC_CTX_MAP (R241). -/
def State.ctxMap (s : State) (d : Nat) : Nat :=
  match (s.residents d (s.rd (F.ENC_CTX_SEL_PIPE d)))[s.rd (F.ENC_CTX_SEL_CTX d)]? with
  | some (i, _) => i + 128
  | none => 0

/-- POOL_EOBJ_STATUS.EPOCH and BUSY (R306), with REVOKES as stored. -/
def State.eobjStatus (s : State) (d : Nat) : Nat :=
  let k := s.rd (F.POOL_EOBJ_SEL_KIND d)
  let i := s.rd (F.POOL_EOBJ_SEL_INDEX d)
  (match k with | 0 => (s.buf d i).epoch | 2 => mapGet (fun _ => 0) s.pool.spillEpoch i | _ => 0) % 256 +
    bit (s.eobjBusy d k i) * 256 + s.rd (F.POOL_EOBJ_STATUS_REVOKES d) * 2 ^ 16

/-- A field shown in a register whose other fields are stored. -/
def State.withField (s : State) (f : Fld) (v : Nat) : Nat := (putBits (s.reg f.reg) f.lo f.width v).toNat

/-- R196: a read is filling the layer's image slot. -/
def State.filling (s : State) (d i : Nat) : Nat := bit (s.layerReads d (i / 16) (i % 16) != [])

/-- Of every die. -/
def dieShown (d : Nat) : List Shown :=
  [⟨0x300000, 4, 1, fun s _ => s.withField (F.SCH_STATUS_LIVE d) (min (s.liveTasks d).length 0xFFFF)⟩,
   ⟨0x300010, 4, 1, fun s _ => s.usec d⟩,
   ⟨0x300014, 4, 1, fun s _ => mapGet (fun _ => 0) s.sch.usecHi d⟩,
   ⟨0x300040, 4, 8, fun s w => (s.task d (s.rd (F.SCH_TASK_SEL_TASK d))).word w⟩,
   ⟨0x302000, 4, 64, fun s b => s.readyWord d b⟩,
   ⟨0x400008, 0x10, queueCount d, fun s q => s.withField (F.SCH_Qq_STATUS_LIVE d q) (min (s.queueLive d q).length 0xFFFF)⟩,
   ⟨0xC80028, 0x40, 16, fun s k => s.withField (F.CRC_k_STATUS_BOUND d k) (bit (s.crcBound d k))⟩,
   ⟨0xD10000, 4, recN d * 8, fun s i => wordAt (s.recAt d (i / 8)) (i % 8)⟩,
   ⟨0xE00014, 4, 1, fun s _ => s.wdtLeft d⟩,
   ⟨0xF80000, 4, 524288, fun s w => ((List.range 4).map fun i => (memRead s.rst.sram (d * 2 ^ 21 + w * 4 + i)).toNat * 2 ^ (8 * i)).sum⟩]

/-- Of the root window. -/
def rootShown (q : Req) : List Shown :=
  [⟨0x100118, 0x40, 4, fun s n => (s.nowLatched q n).2⟩,
   ⟨0x100120, 0x40, 4, fun s n => s.now n⟩,
   ⟨0x100124, 0x40, 4, fun s n => (s.nowLatched q n).1⟩,
   ⟨0x10100C, 0x10, 96, fun s c => s.withField (F.LT_CHc_STATUS_DMIN c) (s.dMin c)⟩,
   ⟨0x110614, 0x20, 4, fun s n => ((s.showErr n).reg (R.SEL_TLn_PERR n)).toNat⟩,
   ⟨0x110618, 0x20, 4, fun s n => ((s.showErr n).reg (R.SEL_TLn_PEND n)).toNat⟩,
   ⟨0x110804, 4, 1, fun s _ => s.histWord (s.rd F.SEL_HIST_SEL_TL) (s.rd F.SEL_HIST_SEL_AGE)⟩,
   ⟨0x120020, 4, 1, fun s _ => s.ptpNs⟩,
   ⟨0x120024, 4, 1, fun s _ => (s.ptpLatched q).1⟩,
   ⟨0x120028, 4, 1, fun s _ => (s.ptpLatched q).2.1⟩,
   ⟨0x12002C, 4, 1, fun s _ => (s.ptpLatched q).2.2⟩,
   ⟨0x200030, 0x40, 4096, fun s r => s.withField (F.RING_r_STATUS_FULL r) (bit (s.ringFull r))⟩,
   ⟨0x140004, 4, 1, fun s _ => s.withField F.STG_STATUS_BUF_FREE s.capFree⟩,
   ⟨0x140008, 4, 1, fun s _ => (s.wsel q).toNat⟩,
   ⟨0x140024, 4, 1, fun s _ => s.peekData⟩,
   ⟨0x140028, 4, 1, fun s _ => s.peekInfo⟩,
   ⟨0x140044, 4, 1, fun s _ => wordAt (groveWords s.stg.groves (s.rd F.STG_GROVE_SEL_GROVE)) (s.rd F.STG_GROVE_SEL_WORD)⟩,
   ⟨0x140048, 4, 1, fun s _ => s.groveInfo⟩,
   ⟨0x14010C, 0x20, 8, fun s k => s.claimsWord k⟩,
   ⟨0x600014, 4, 1, fun s _ => (mapGet (fun _ => PktStr.init) s.enc.pkts (s.rd F.PKT_CUR_SEL_STREAM)).cursor.getD (s.rd F.PKT_CUR_SEL_WORD) 0⟩,
   ⟨0x680084, 4, 1, fun s _ => s.histBin (s.rd F.WHL_HIST_SEL_QUEUE) (s.rd F.WHL_HIST_SEL_BIN)⟩,
   ⟨0x681008, 0x10, 768, fun s k => min (s.headWait k) 0xFFFFFFFF⟩,
   ⟨0x900128, 0x40, 32, fun s n => min (s.leaseLeft n) 0xFFFF⟩,
   ⟨0x980020, 4, 1, fun s _ => s.twinUnit⟩,
   ⟨0x980024, 4, 1, fun s _ => s.twinUnit / 2 ^ 32⟩,
   ⟨0xD00034, 8, 4, fun s f => s.withField (F.REC_FILTf_CFG_BAD f) (bit (s.filterBad f))⟩]

/-- Of a crown's window. -/
def crownShown (d : Nat) : List Shown :=
  [⟨0x600014, 4, 1, fun s _ => wrap 10 (s.coefRead d)⟩,
   ⟨0x68000C, 0x40, 4, fun s k => s.withField (F.LUT_Ck_STATUS_IN_USE d k) (bit (s.bankInUse d k 0) + 2 * bit (s.bankInUse d k 1))⟩,
   ⟨0x700014, 4, 1, fun s _ => s.ctxData d⟩,
   ⟨0x700018, 4, 1, fun s _ => s.ctxMap d⟩,
   ⟨0x780020, 4, 4, fun s w => ((s.buf d (s.rd (F.POOL_DESC_SEL_DESC d))).word w).toNat⟩,
   ⟨0x780038, 4, 1, fun s _ => s.eobjStatus d⟩,
   ⟨0x800224, 4, 1, fun s _ => s.hbmTap d⟩]

/-- CMP_SLOTs_Ll_STATUS of a crown by slot x 16 + layer: its offsets have two strides. -/
def slotStatusAt (o : Nat) : Option Nat :=
  if 0x610424 ≤ o ∧ o < 0x618400 + 0x424 ∧ (o - 0x610424) % 0x800 % 0x40 = 0 ∧ (o - 0x610424) % 0x800 / 0x40 < 16 ∧ (o - 0x610424) / 0x800 < 16 then
    some ((o - 0x610424) / 0x800 * 16 + (o - 0x610424) % 0x800 / 0x40)
  else none

/-- R11: a write-only field holds nothing to read: it reads as a free value (notes/assumptions/98.md); the other bits of its register
read as they are. -/
def State.woRead (s : State) (a : Nat) : Word :=
  match regRow a with
  | some r => if r.cls = .wo then (s.reg a &&& ~~~r.wmask) ||| (BitVec.ofNat 32 (s.free a) &&& r.wmask) else s.reg a
  | none => s.reg a

def shownAt (o : Nat) : List Shown → Option (Shown × Nat)
  | [] => none
  | h :: hs => if h.off ≤ o ∧ (o - h.off) % h.stride = 0 ∧ (o - h.off) / h.stride < h.count then some (h, (o - h.off) / h.stride) else shownAt o hs

/-- R11: the value a read of the register at a BAR0 offset returns; an offset that is not assigned reads zero (R464). -/
def State.regRead (s : State) (q : Req) (a : Nat) : Word :=
  let d := a / 0x4000000
  let o := a % 0x4000000
  match shownAt o ((if d = 0 then rootShown q else crownShown d) ++ dieShown d) with
  | some (h, i) => BitVec.ofNat 32 (h.val s i)
  | none => match (if d = 0 then none else slotStatusAt o) with
    | some i => BitVec.ofNat 32 (s.withField (F.CMP_SLOTs_Ll_STATUS_FILLING d (i / 16) (i % 16)) (s.filling d i))
    | none => s.woRead a

/-- R442, R450: the unit that owns a register takes no access: it is in reset or off. -/
def State.regBlocked (s : State) (a : Nat) : Bool :=
  let q := regLeaf a
  q != 0 && (s.inReset q || s.leafOff q)

/-- A register whose read changes state: offset of instance 0, stride, instances, effect; the effect leaves the value in rdata. -/
structure Touched where
  off : Nat
  stride : Nat
  count : Nat
  act : State → Nat → State

/-- The reads that change state (R46, R79, R162, R338, R417, R490, R493). -/
def touchedOf (q : Req) (d : Nat) : List Touched :=
  (if d = 0 then
    [⟨0x100120, 0x40, 4, fun s n => s.nowRead q n⟩,
     ⟨0x120020, 4, 1, fun s _ => s.clkNsRead q⟩,
     ⟨R.AUD_STRa_M0_LO 0, R.AUD_STRa_M0_LO 1 - R.AUD_STRa_M0_LO 0, 256, fun s a => s.m0Read a⟩]
  else [⟨0x600014, 4, 1, fun s _ => s.coefAccess d none⟩]) ++
  [⟨0x300010, 4, 1, fun s _ => s.usecRead d⟩,
   ⟨0x310010, 0x40, 256, fun s k => s.takeRead d k⟩,
   ⟨0xC8002C, 0x40, 16, fun s k => s.crcClaim d k⟩]

def touchedAt (o : Nat) : List Touched → Option (Touched × Nat)
  | [] => none
  | h :: hs => if h.off ≤ o ∧ (o - h.off) % h.stride = 0 ∧ (o - h.off) / h.stride < h.count then some (h, (o - h.off) / h.stride) else touchedAt o hs

/-- A read with its effect: the state after it, and the value. -/
def State.readThrough (s : State) (q : Req) (a : Nat) : State × Word :=
  match touchedAt (a % 0x4000000) (touchedOf q (a / 0x4000000)) with
  | some (h, i) => let t := h.act s i; ({ t with rdata := s.rdata }, t.rdata)
  | none => (s, s.regRead q a)

end Sys2Proof.Machine
end

