-- ==== Sys2Proof/Machine/Crc.lean ====
section
/-!
DEFINITION. Sys2Proof/Machine/Crc.lean: the engines that read and write over a die's fabric: the operations of the CRC engines (R416 to
R418) and the end of a flash command (R461).
-/
namespace Sys2Proof.Machine

/-! ## Reads over the fabric -/

/-- R409: a read of a register by an engine of die d has the effects that any master's has; for the values that a read latches per
requester, the engine counts as management core 0 (notes/assumptions/123.md). -/
def engineReq (d : Nat) : Req := .core (Fin.ofNat 8 d) 0

/-- R409: the four bytes at a word of die d's map, read once; none for a byte that receives an error response. -/
def State.fabWord (s : State) (d a : Nat) : State × List (Option Byte) :=
  match fabAt d a with
  | .sram off => (s, (List.range 4).map fun i => some (s.sramByte d (off + i)))
  | .rom off => (s, (List.range 4).map fun i => some (Config.bootRom d (off + i)))
  | .window off =>
    let r := dieBase d + off
    if !s.dieUp d || s.regBlocked r then (s, List.replicate 4 none)
    else
      let (t, v) := s.readThrough (engineReq d) r
      (t, (wordBytes v).map some)
  | .hbm off => (s, (List.range 4).map fun i => if s.hbmReady d then some (s.hbmByte d (off + i)) else none)
  | .none => (s, List.replicate 4 none)

/-- Words read over the fabric in rising order. -/
def State.fabWords (s : State) (d a : Nat) : Nat → State × List (Option Byte)
  | 0 => (s, [])
  | n + 1 =>
    let (t, x) := s.fabWord d a
    let (u, y) := t.fabWords d (a + 4) n
    (u, x ++ y)

/-- Bytes read over the fabric: none if one of them receives an error response. -/
def State.fabBytes (s : State) (d a n : Nat) : State × Option (List Byte) :=
  let (t, bs) := s.fabWords d (a / 4 * 4) ((a + n + 3) / 4 - a / 4)
  (t, ((bs.drop (a % 4)).take n).mapM id)

/-! ## CRC operations -/

/-- R416: COMPUTE, APPEND or STRIP starts. -/
def State.crcStart (s : State) (d k op : Nat) : State :=
  let src := s.crcAddr (F.CRC_k_SRC_LO_ADDR d k) (F.CRC_k_SRC_HI_ADDR d k)
  let dst := s.crcAddr (F.CRC_k_DST_LO_ADDR d k) (F.CRC_k_DST_HI_ADDR d k)
  let len := s.rd (F.CRC_k_LEN_LEN d k)
  let s := s.wr (F.CRC_k_BYTES_BYTES d k) 0
  if crcBad (s.crcPoly d k) op src dst len then s.crcStatus d k false false false true
  else (s.crcStatus d k true false false false).setCrcOp d k (some (op, src, dst, len))

/-- One 16-byte unit of an operation: read, copied where there is a destination, fed to VALUE. The state carries VALUE, the bytes
processed and whether no access has failed. -/
def crcStep (d poly src : Nat) (dst : Option Nat) (len : Nat) (r : State × Nat × Nat × Bool) (u : Nat) : State × Nat × Nat × Bool :=
  let (s, v, done, ok) := r
  let m := min 16 (len - 16 * u)
  if !ok then r
  else match s.fabBytes d (src + 16 * u) m, dst with
    | (s, none), _ => (s.fabFail d 15 false (src + 16 * u), v, done, false)
    | (s, some bs), none => (s, crcFeed poly v bs, done + m, true)
    | (s, some bs), some a =>
      if (List.range m).all fun i => s.fabWritable d (a + 16 * u + i) then (s.fabPut d (a + 16 * u) bs, crcFeed poly v bs, done + m, true)
      else (s.fabFail d 15 true (a + 16 * u), v, done, false)

/-- The first n bytes of an operation. -/
def State.crcRun (s : State) (d k src : Nat) (dst : Option Nat) (n : Nat) : State × Nat × Nat × Bool :=
  (List.range ((n + 15) / 16)).foldl (crcStep d (s.crcPoly d k) src dst n) (s, s.crcValue d k, 0, true)

/-- The destination an operation copies to. -/
def crcDst (op dst : Nat) : Option Nat := if op = 3 ∨ op = 4 ∧ dst ≠ 0 then some dst else none

/-- R416, R418: an operation runs to its end; after an error response BYTES and VALUE cover the whole 16-byte units before it. -/
def State.crcFinish (s : State) (d k : Nat) : State :=
  match s.crcOp d k with
  | none => s
  | some (op, src, dst, len) =>
    let p := s.crcPoly d k
    let n := if op = 4 then len - crcW p else len
    let whole := s.crcRun d k src (crcDst op dst) (n / 16 * 16)
    let (t, v, done, ok) := if n % 16 = 0 then whole else crcStep d p src (crcDst op dst) n whole (n / 16)
    let t := ((t.setCrcValue d k v).wr (F.CRC_k_BYTES_BYTES d k) done).setCrcOp d k none
    let check := crcCheck p (v ^^^ crcXor p)
    let fail := fun (t : State) => ((t.setCrcValue d k whole.2.1).wr (F.CRC_k_BYTES_BYTES d k) whole.2.2.1).crcStatus d k false false false true
    if !ok then fail t
    else match op with
      | 3 =>
        if (List.range check.length).all fun i => t.fabWritable d (dst + len + i) then (t.fabPut d (dst + len) check).crcStatus d k false true false false
        else fail (t.fabFail d 15 true (dst + len))
      | 4 => match t.fabBytes d (src + n) check.length with
        | (t, some bs) => (t.wr (F.CRC_k_BYTES_BYTES d k) len).crcStatus d k false true (bs == check) false
        | (t, none) => fail (t.fabFail d 15 false (src + n))
      | _ => t.crcStatus d k false true false false

/-- R416: an ABORT at a 16-byte boundary: how far the engine has come is the hardware's. -/
def State.crcAbort (s : State) (d k : Nat) : State :=
  match s.crcOp d k with
  | none => s
  | some (op, src, dst, len) =>
    let n := if op = 4 then len - crcW (s.crcPoly d k) else len
    let m := s.free 11 % (n / 16 + 1) * 16
    let (t, v, done, _) := s.tick.crcRun d k src (crcDst op dst) m
    (((t.setCrcValue d k v).wr (F.CRC_k_BYTES_BYTES d k) done).setCrcOp d k none).crcStatus d k false false false true

/-- R416, R417: a write of CRC_k_CTL. -/
def State.crcCtlWrite (s : State) (d k : Nat) (v : Word) : State :=
  let op := getBits v 0 3
  if s.crcBound d k ∨ 6 ≤ op ∨ (s.crcBusy d k ∧ op ≠ 5) then s.crcDrop d k
  else match op with
    | 0 => s
    | 1 => (((s.setCrcValue d k (crcInit (s.crcPoly d k))).wr (F.CRC_k_BYTES_BYTES d k) 0)).crcStatus d k false false false false
    | 5 => s.crcAbort d k
    | op => s.crcStart d k op

/-- CRC_RESET to CRC_BAD_OP (R416): writes of CRC_k_CTL. -/
def execCrcReset (d : Fin 8) (k : Fin 16) (s : State) : Out := .next (s.when (s.dieUp d) fun s => s.crcCtlWrite d k 1)
def execCrcCompute (d : Fin 8) (k : Fin 16) (s : State) : Out := .next (s.when (s.dieUp d) fun s => s.crcCtlWrite d k 2)
def execCrcAppend (d : Fin 8) (k : Fin 16) (s : State) : Out := .next (s.when (s.dieUp d) fun s => s.crcCtlWrite d k 3)
def execCrcStrip (d : Fin 8) (k : Fin 16) (s : State) : Out := .next (s.when (s.dieUp d) fun s => s.crcCtlWrite d k 4)
def execCrcAbort (d : Fin 8) (k : Fin 16) (s : State) : Out := .next (s.when (s.dieUp d) fun s => s.crcCtlWrite d k 5)
def execCrcBadOp (d : Fin 8) (k : Fin 16) (seven : Bool) (s : State) : Out :=
  .next (s.when (s.dieUp d) fun s => s.crcCtlWrite d k (BitVec.ofNat 32 (6 + bit seven)))

/-- CRC_OP_DONE (R418). -/
def execCrcOpDone (d : Fin 8) (k : Fin 16) (s : State) : Out := .next (s.crcFinish d k)

/-! ## The end of a flash command -/

/-- R461: a command ends: a read's bytes go to DST; a fabric error sets ERROR. -/
def State.spiDone (s : State) (d : Nat) (data : List Byte) (wp : Bool) : State :=
  let dst := s.rd (F.BOOT_SPI_DST_ADDR d)
  let len := s.rd (F.BOOT_SPI_LEN_LEN d)
  let master := if d = 0 then 23 else 15
  let s := ((s.wr (F.BOOT_SPI_STATUS_BUSY d) 0).wr (F.BOOT_SPI_CMD_GO d) 0).wr (F.BOOT_SPI_STATUS_WP d) (bit wp)
  let bs := data.take len
  let fail := fun (s : State) (write : Bool) => (s.fabFail d master write dst).wr (F.BOOT_SPI_STATUS_ERROR d) 1
  if spiProgram (s.rd (F.BOOT_SPI_CMD_OPCODE d)) then
    match s.fabBytes d dst len with
    | (s, none) => fail s false
    | (s, some _) => s.wr (F.BOOT_SPI_STATUS_ERROR d) 0
  else if (List.range bs.length).all fun i => s.fabWritable d (dst + i) then (s.fabPut d dst bs).wr (F.BOOT_SPI_STATUS_ERROR d) 0
  else fail s true
/-- BOOT_SPI_DONE (R461): with the bytes that the flash returned and the level of the write-protect pin. -/
def execBootSpiDone (d : Fin 8) (data : List Byte) (wp : Bool) (s : State) : Out :=
  .next (s.when (s.on (F.BOOT_SPI_STATUS_BUSY d)) fun s => s.spiDone d data wp)

end Sys2Proof.Machine
end

