-- ==== Sys2Proof/Machine/Bus.lean ====
section
/-!
DEFINITION. Sys2Proof/Machine/Bus.lean: writes to registers by the host and by management cores (R11, R12, R409, R463 to R465,
23_register_map_index.md): the address map, each register's own rule, and the rule of its class.
-/
namespace Sys2Proof.Machine

/-! ## Rules of registers that have no command of their own -/

/-- R56: a write of LT_TLn_CFG. -/
def State.tlCfgWrite (s : State) (n : Nat) (v : Word) : State :=
  if s.on (F.LT_TLn_CTL_EN n) then s.refuse (pTl n) [R.LT_TLn_STATUS n] 0x1003 (R.LT_TLn_CFG n)
  else s.setReg (R.LT_TLn_CFG n) (maskedIn (R.LT_TLn_CFG n) (s.reg (R.LT_TLn_CFG n)) 0xFFFFFFFF v)

/-- R108: a refused host interface write. -/
def State.hifRefuse (s : State) (code a : Nat) : State := s.refuse pHost [R.HIF_STATUS] code a

/-- R93, R85: a write of HIF_CTL. -/
def State.hifCtlWrite (s : State) (v : Word) : State :=
  let m := getBits v 0 1
  if m = s.rd F.HIF_CTL_DB_MODE then s
  else if (List.range 4096).any (fun r => s.ringState r != 0) ∨ (m = 0 ∧ s.rd F.HIF_STATUS_MODE = 2) then s.hifRefuse 0xB013 R.HIF_CTL
  else s.wr F.HIF_CTL_DB_MODE m

/-- R87, R108: a write of HIF_HDMd_SIZE. -/
def State.hdmSizeWrite (s : State) (d : Nat) (v : Word) : State :=
  let g := getBits v 0 5
  if s.on F.HIF_STATUS_DECODER ∨ 24 < g ∨ (g ≠ 0 ∧ s.crowns < d) then s.hifRefuse 0xB012 (R.HIF_HDMd_SIZE d)
  else s.wr (F.HIF_HDMd_SIZE_GIB d) g

/-- R109: a write of a register of ring r, at offset o of its block. -/
def State.ringRegWrite (s : State) (r o : Nat) (v : Word) : State :=
  let a := R.RING_r_CFG r + o
  if o = 4 then s.ringCtlWrite r (getBits v 0 1 == 1)
  else if 0x30 ≤ o then s
  else if s.ringState r ≠ 0 then s.ringRefuse r 0xB004
  else if o = 0x24 ∧ (getBits v 0 8 = 0 ∨ getBits v 8 16 = 0) then s.ringRefuse r 0xB016
  else s.setReg a (maskedIn a (s.reg a) 0xFFFFFFFF v)

/-- R129: a write of a PASID or spill register of ring r. XLT_STATUS.REASON takes the code of a refused write, and not those of refused
enables (0xA802, 0xA803) or of ended work (notes/assumptions/134.md). -/
def State.xltRingWrite (s : State) (r a : Nat) (v : Word) : State :=
  if s.ringState r ≠ 0 then s.refuse pXlt [R.XLT_STATUS] 0xA801 a else s.setReg a (maskedIn a (s.reg a) 0xFFFFFFFF v)

/-- R306: writes of the pool region and of POOL_EOBJ_SEL. -/
def State.poolRefuse (s : State) (d code a : Nat) : State := s.refuse (mkPath [d, 13]) [R.POOL_STATUS d] code a
def State.poolAreaWrite (s : State) (d a : Nat) (v : Word) : State :=
  let set := fun (b : State) => b.setReg a (maskedIn a (s.reg a) 0xFFFFFFFF v)
  if s.bases.any fun b => b.anyStream d || (set b).poolRegionBad d then s.poolRefuse d 0x5002 a else set s
def State.eobjSelWrite (s : State) (d : Nat) (v : Word) : State :=
  if getBits v 0 2 = 3 then s.poolRefuse d 0x5005 (R.POOL_EOBJ_SEL d) else s.setReg (R.POOL_EOBJ_SEL d) (v &&& 0xFFFFFF)

/-- R216: a write of LUT_Ck_SEL. -/
def State.lutSelWrite (s : State) (d k : Nat) (v : Word) : State :=
  let t := getBits v 1 2
  if t = 3 ∨ lutSize t ≤ getBits v 3 16 then s.refuse (pComp d k) [R.LUT_Ck_STATUS d k] 0x2302 (R.LUT_Ck_SEL d k)
  else s.setReg (R.LUT_Ck_SEL d k) (v &&& 0xFFFFF)

/-- R403, R399: a write of LANE_n_CTL: what a snapshot's checker has received since it was last counted is free. -/
def State.laneCtlBus (s : State) (n : Nat) (v : Word) : State :=
  if getBits v 3 1 = 1 then (s.tick.chkCount n (s.free 40) (s.free 41)).laneCtlWrite n v else s.laneCtlWrite n v

/-- R86: a word of the MSI-X table; clearing a vector's mask sends a pending signal (notes/assumptions/11.md). -/
def State.msixWrite (s : State) (a : Nat) (v : Word) : State :=
  let vec := (a - 0x20000) / 16
  let s := s.setReg a (if a % 16 = 12 then v &&& 1 else if a % 16 = 0 then v &&& 0xFFFFFFFC else v)
  if a % 16 = 12 ∧ getBits v 0 1 = 0 ∧ s.on (pendingBit vec) then (s.wr (pendingBit vec) 0).send (.msix vec) else s

/-! ## The rule of a class -/

/-- R11, R465: a write by the access class of a register. -/
def State.clsWrite (s : State) (q : Req) (a : Nat) (v : Word) : State :=
  match regRow a with
  | none => s
  | some r => match r.cls with
    | .ro => s
    | .st => s.stWrite q a v
    | .w1c => s.setReg a (s.reg a &&& ~~~(v &&& r.w1c))
    | _ => s.setReg a ((s.reg a &&& ~~~r.wmask) ||| (v &&& r.wmask))

/-! ## Registers with a rule of their own -/

/-- R321, R332: a write of word k of the block of port p: an admin register is refused while a change is pending. -/
def State.gateWrite (s : State) (q : Req) (p k : Nat) (v : Word) : State :=
  let a := R.GATE_p_CTL p + k * 4
  if k = 0 then s.gateCtlWrite p v
  else if gateAdmin k ∧ s.on (F.GATE_p_STATUS_PENDING p) then s.refuse pGate [R.GATE_p_STATUS p] 0x6601 a
  else s.clsWrite q a v

/-- A register with a rule of its own: offset of instance 0, stride, instances, and the rule, given the instance. -/
structure Hook where
  off : Nat
  stride : Nat
  count : Nat
  act : State → Nat → Word → State

/-- Of every die d (R459, R458, R410, R413, R416 to R419, R164, R169). -/
def dieHooks (d : Nat) : List Hook :=
  [⟨0x310014, 0x40, 256, fun s k v => s.endWrite d k v⟩,
   ⟨0x310024, 0x40, 256, fun s k v => s.wm3Write d k v⟩,
   ⟨0x40000C, 0x10, 32768, fun s q v => s.queueCtlWrite d q v⟩,
   ⟨0xC00000, 4, 1, fun s _ v => s.remapWrite d v⟩,
   ⟨0xC00004, 4, 1, fun s _ v => s.fabErrWrite d v⟩,
   ⟨0xC80000, 0x40, 16, fun s k v => s.crcCfgWrite d k v⟩,
   ⟨0xC80004, 0x40, 16, fun s k v => s.crcCtlWrite d k v⟩,
   ⟨0xC80008, 0x40, 16, fun s k v => s.crcValueWrite d k v⟩,
   ⟨0xC80010, 0x40, 16, fun s k v => s.crcPlainWrite d k (R.CRC_k_SRC_LO d k) 0xFFFFFFFF v⟩,
   ⟨0xC80014, 0x40, 16, fun s k v => s.crcPlainWrite d k (R.CRC_k_SRC_HI d k) 0xFFFFFFFF v⟩,
   ⟨0xC80018, 0x40, 16, fun s k v => s.crcPlainWrite d k (R.CRC_k_DST_LO d k) 0xFFFFFFFF v⟩,
   ⟨0xC8001C, 0x40, 16, fun s k v => s.crcPlainWrite d k (R.CRC_k_DST_HI d k) 0xFFFFFFFF v⟩,
   ⟨0xC80020, 0x40, 16, fun s k v => s.crcPlainWrite d k (R.CRC_k_LEN d k) 0x7FFFFFFF v⟩,
   ⟨0xC8002C, 0x40, 16, fun s k v => s.crcPlainWrite d k (R.CRC_k_CLAIM d k) 1 v⟩,
   ⟨0xC80030, 0x40, 16, fun s k v => s.crcData32 d k v⟩,
   ⟨0xC80034, 0x40, 16, fun s k v => s.crcData16 d k v⟩,
   ⟨0xC80038, 0x40, 16, fun s k v => s.crcData8 d k v⟩,
   ⟨0xE00000, 4, 1, fun s _ v => s.causeWrite d v⟩,
   ⟨0xE0000C, 4, 1, fun s _ v => s.wdtCfgWrite d v⟩,
   ⟨0xE00010, 4, 1, fun s _ v => s.kickWrite d v⟩,
   ⟨0xE80020, 4, 1, fun s _ v => s.thermCfgWrite d v⟩,
   ⟨0xF80000, 4, 524288, fun s w v => s.bootSramWrite d (w * 4) v⟩]

/-- Of the root window below the packetiser. -/
def rootHooksLow (q : Req) : List Hook :=
  [⟨0x10004, 4, 1, fun s _ v => s.hifCtlWrite v⟩,
   ⟨0x10014, 4, 7, fun s i v => s.hdmSizeWrite (i + 1) v⟩,
   ⟨0x20000, 4, 8192, fun s i v => s.msixWrite (0x20000 + i * 4) v⟩,
   ⟨0x100000, 4, 1, fun s _ v => if getBits v 0 1 = 1 then s.capture else s⟩,
   ⟨0x100100, 0x40, 4, fun s n v => s.tlCfgWrite n v⟩,
   ⟨0x100104, 0x40, 4, fun s n v => s.tlCtlWrite n v⟩,
   ⟨0x110600, 0x20, 4, fun s n v => s.selCtlWrite n v⟩,
   ⟨0x110604, 0x20, 4, fun s n v => s.slopeWrite n v⟩,
   ⟨0x110608, 0x20, 4, fun s n v => s.stepWrite n v⟩,
   ⟨0x120000, 4, 1, fun s _ v => s.ptpCtlWrite v⟩,
   ⟨0x12000C, 4, 1, fun s _ v => s.adjWrite v⟩,
   ⟨0x12003C, 4, 1, fun s _ v => s.ppsWrite v⟩,
   ⟨0x130020, 4, 1, fun s _ v => if getBits v 0 1 = 1 then s.xltFlush else s⟩,
   ⟨0x134000, 4, 4096, fun s r v => s.xltRingWrite r (R.XLT_PASIDr r) v⟩,
   ⟨0x138000, 0x10, 32, fun s r v => s.xltRingWrite r (0x138000 + r * 0x10) v⟩,
   ⟨0x138004, 0x10, 32, fun s r v => s.xltRingWrite r (0x138004 + r * 0x10) v⟩,
   ⟨0x140008, 4, 1, fun s _ v => s.wselWrite q v⟩,
   ⟨0x14000C, 4, 1, fun s _ v => s.stgCtlWrite q v⟩,
   ⟨0x140200, 0x10, 4064, fun s i v => s.xltRingWrite (i + 32) (0x140200 + i * 0x10) v⟩,
   ⟨0x140204, 0x10, 4064, fun s i v => s.xltRingWrite (i + 32) (0x140204 + i * 0x10) v⟩,
   ⟨0x200000, 4, 65536, fun s w v => s.ringRegWrite (w / 16) (w % 16 * 4) v⟩,
   ⟨0x580020, 4, 1, fun s _ v => s.flowOpWrite v⟩]

/-- Of the root window from the wheel up. -/
def rootHooksHigh (q : Req) : List Hook :=
  [⟨0x680010, 4, 1, fun s _ v => s.sampleWrite v⟩,
   ⟨0x680088, 4, 1, fun s _ v => if getBits v 0 1 = 1 then s.histClr else s⟩,
   ⟨0x681000, 0x10, 768, fun s i v => s.shapeWrite i v⟩,
   ⟨0x700000, 4, 0x30000, fun s k v => s.gateWrite q (k / 2048) (k % 2048) v⟩,
   ⟨0x802024, 0x40, 256, fun s a v => s.audHostWrite a v⟩,
   ⟨0x900110, 0x40, 32, fun s n v => s.pairCtlWrite n v⟩,
   ⟨0x90013C, 0x40, 32, fun s n v => s.hbWrite q n v⟩,
   ⟨0x980010, 4, 4, fun s k v => s.keyWrite k v⟩,
   ⟨0x980040, 4, 1, fun s _ v => s.mboxWrite v []⟩,
   ⟨0xA01004, 0x80, 96, fun s n v => s.laneCtlBus n v⟩,
   ⟨0xA0100C, 0x80, 96, fun s n v => s.laneTmoWrite n v⟩,
   ⟨0xA01010, 0x80, 96, fun s n v => s.lanePatWrite n v⟩,
   ⟨0xA01014, 0x80, 96, fun s n v => s.laneInjWrite n v⟩,
   ⟨0xA01018, 0x80, 96, fun s n v => (s.clsWrite q (R.LANE_n_TRATE n) v).showQuad (n / 4)⟩,
   ⟨0xA04004, 0x80, 4, fun s n v => s.laneCtlBus (96 + n) v⟩,
   ⟨0xA0400C, 0x80, 4, fun s n v => s.laneTmoWrite (96 + n) v⟩,
   ⟨0xA04010, 0x80, 4, fun s n v => s.lanePatWrite (96 + n) v⟩,
   ⟨0xA04014, 0x80, 4, fun s n v => s.laneInjWrite (96 + n) v⟩,
   ⟨0xA06084, 0x80, 7, fun s i v => s.when (s.hasCrown (i + 1)) fun s => s.uciPatWrite (i + 1) v⟩,
   ⟨0xD00020, 4, 1, fun s _ v => s.recStreamWrite v⟩,
   ⟨0xD000B0, 4, 1, fun s _ v => s.recGo v⟩,
   ⟨0xE00004, 4, 1, fun s _ v => s.globalWrite v⟩,
   ⟨0xE00100, 8, 16, fun s j v => s.grvPathWrite j v⟩,
   ⟨0xE00104, 8, 16, fun s j v => s.grvCtlWrite j v⟩,
   ⟨0xE80000, 4, 1, fun s _ v => s.modeReq (getBits v 4 4)⟩,
   ⟨0xE80100, 8, 32, fun s j v => s.pwrPathWrite j v⟩,
   ⟨0xE80104, 8, 32, fun s j v => s.pwrCtlWrite j v⟩,
   ⟨0xF0000C, 4, 1, fun s _ v => s.mboxGo v⟩]

/-- Of a crown's window. -/
def crownHooks (d : Nat) : List Hook :=
  [⟨0x600004, 4, 1, fun s _ v => s.flatWrite d (R.CMP_FLAT_BASE d) (v &&& 0x7FFFFF)⟩,
   ⟨0x600008, 4, 1, fun s _ v => s.flatWrite d (R.CMP_FLAT_SIZE d) (v &&& 0xFFFFF)⟩,
   ⟨0x600014, 4, 1, fun s _ v => s.coefAccess d (some v)⟩,
   ⟨0x680000, 0x40, 4, fun s k v => s.lutSelWrite d k v⟩,
   ⟨0x680004, 0x40, 4, fun s k v => s.lutData0 d k v⟩,
   ⟨0x680008, 0x40, 4, fun s k v => s.lutData1 d k v⟩,
   ⟨0x710030, 0x100, 128, fun s i v => s.reqWrite d i v⟩,
   ⟨0x780004, 4, 2, fun s i v => s.poolAreaWrite d (dieBase d + 0x780004 + i * 4) v⟩,
   ⟨0x780030, 4, 1, fun s _ v => s.eobjSelWrite d v⟩,
   ⟨0x780034, 4, 1, fun s _ v => s.eobjWrite d v⟩,
   ⟨0x800000, 4, 1, fun s _ v => s.hbmCtlWrite d v⟩,
   ⟨0x800008, 4, 1, fun s _ v => s.hbmCfgWrite d v⟩,
   ⟨0x80000C, 4, 1, fun s _ v => s.hbmTimingWrite d v⟩,
   ⟨0x800010, 4, 1, fun s _ v => s.hbmRhWrite d v⟩,
   ⟨0x800100, 0x10, 8, fun s k v => s.hbmMapWrite d k (R.HBM_MAPk_BASE d k) (v &&& 0x7FFF)⟩,
   ⟨0x800104, 0x10, 8, fun s k v => s.hbmMapWrite d k (R.HBM_MAPk_SIZE d k) (v &&& 0x7FFF)⟩,
   ⟨0x800108, 0x10, 8, fun s k v => s.hbmMapWrite d k (R.HBM_MAPk_CFG d k) (v &&& 0x3FFFF)⟩,
   ⟨0x800200, 4, 1, fun s _ v => s.hbmTrainWrite d v⟩,
   ⟨0x800224, 4, 1, fun s _ v => s.hbmDlyWrite d v⟩,
   ⟨0x800240, 4, 1, fun s _ v => s.hbm1500Write d v⟩,
   ⟨0xF00010, 4, 1, fun s _ v => s.coresWrite d v⟩]

/-- The first hook that holds an offset, and its instance. -/
def hookAt (o : Nat) : List Hook → Option (Hook × Nat)
  | [] => none
  | h :: hs => if h.off ≤ o ∧ (o - h.off) % h.stride = 0 ∧ (o - h.off) / h.stride < h.count then some (h, (o - h.off) / h.stride) else hookAt o hs

/-- The hooks of a die's window. -/
def hooksOf (q : Req) (d : Nat) : List Hook := if d = 0 then rootHooksLow q ++ rootHooksHigh q ++ dieHooks 0 else crownHooks d ++ dieHooks d

/-- R11: a write that reaches the register at a BAR0 offset: its own rule, or that of its class. -/
def State.regWrite (s : State) (q : Req) (a : Nat) (v : Word) : State :=
  match hookAt (a % 0x4000000) (hooksOf q (a / 0x4000000)) with
  | some (h, i) => h.act s i v
  | none => s.clsWrite q a v

/-! ## The address maps -/

/-- R407, R408: the master that a requester's access to a register of die d comes in by. -/
def regMaster (q : Req) (d : Nat) : Nat :=
  match q with
  | .host => if d = 0 then 4 else 2
  | .core e k => if e.val = d then k.val else if d = 0 then 15 + e.val else 2

/-- The die whose fabric a requester's access starts on: the host's on the root. -/
def reqDie (q : Req) : Nat :=
  match q with
  | .host => 0
  | .core e _ => e.val

/-- R26, R28: module k carries traffic: it is up. -/
def State.uciUp (s : State) (k : Nat) : Bool := s.uciState k == 2
/-- R28: an access to a register of die d crosses the module of the crown it comes from and that of the crown it goes to: what ends
it, as the die whose fabric answers with an error, the master there, and the target, the module (R407, R408, R410). -/
def State.uciError (s : State) (q : Req) (d : Nat) : Option (Nat × Nat × Nat) :=
  let e := reqDie q
  if e = d then none
  else if e ≠ 0 ∧ !s.uciUp e then some (e, regMaster q e, 5)
  else if d ≠ 0 ∧ !s.uciUp d then some (0, regMaster q 0, 4 + d)
  else none

/-- R12, R463, R464, R410: a write of a word at a BAR0 offset; an access to another die crosses the root's fabric. An offset from
0x2000_0000 on, the size of BAR0, is one of BAR2 (R86, R93, notes/assumptions/97.md). -/
def State.barWrite (s : State) (q : Req) (a : Nat) (v : Word) : State :=
  let d := a / 0x4000000
  if 0x20000000 ≤ a ∧ a < 0x20100000 ∧ a % 4 = 0 ∧ reqDie q = 0 then s.bar2Write (a - 0x20000000) v
  else if a % 4 ≠ 0 ∨ 0x20000000 ≤ a ∨ s.crowns < d then s
  else if reqDie q ≠ d ∧ !s.dieUp 0 then s
  else if let some (f, m, t) := s.uciError q d then s.fabErr f m t true a
  else if !s.dieUp d then (if d = 0 then s else s.when (s.dieUp 0) fun s => s.fabErr 0 (regMaster q 0) (4 + d) true a)
  else if s.regBlocked a then s.fabErr d (regMaster q d) (if d = 0 then 12 else 6) true a
  else s.regWrite q a v

/-- R461: a write of a peripheral register of die d. -/
def State.periphWrite (s : State) (d a : Nat) (v : Word) : State :=
  let k := periphBase d + a
  if a = 0x10000000 then s.spiWrite d v
  else if a = 0x10000004 then s.setReg k v
  else if a = 0x10000008 then s.setReg k (v &&& 0xFFFFFF)
  else if a = 0x1000000C then s.setReg k v
  else if a = 0x10030004 ∨ a = 0x10030008 then s.setReg k (v &&& 0xFFFF)
  else s

/-- R409, R413: a write of a word by core k of die d at a fabric address. -/
def State.coreWrite (s : State) (d : Fin 8) (k : Fin 4) (a : Nat) (v : Word) : State :=
  let q := Req.core d k
  let err := s.fabErr d k.val (s.fabTarget d a) true a
  let a' := if a < 0x200000 ∧ s.on (F.FAB_REMAP_SWAP0 d) then a + 0x2000000 else a
  if a % 4 ≠ 0 then err
  else if 0x10000000 ≤ a ∧ a < 0x10050000 then s.periphWrite d a v
  else if 0x80000000 ≤ a ∧ a < 0xA0000000 then s.barWrite q (a - 0x80000000) v
  else match fabAt d a' with
    | .window off => s.barWrite q (dieBase d + off) v
    | _ => if s.fabWritable d a' then s.fabPut d a' (wordBytes v) else s.fabFail d k.val true a'

/-- A management core of the variant that is not held in reset. -/
def State.coreUp (s : State) (d : Fin 8) (k : Fin 4) : Bool :=
  decide (k.val < if d.val = 0 then 4 else 2) && s.dieUp d && !s.inReset (if d.val = 0 then mkPath [0, 10, k] else mkPath [d.val, 16, k])

/-- R11, R12, R409: a write of a word by a requester: at a BAR0 offset by the host, at a fabric address of its die by a core. -/
def State.busWrite (s : State) (q : Req) (a : Nat) (v : Word) : State :=
  match q with
  | .host => s.barWrite q a v
  | .core d k => if s.coreUp d k then s.coreWrite d k a v else s

/-- REG_WRITE (R11). -/
def execRegWrite (q : Req) (addr : Nat) (v : Word) (s : State) : Out := .next (s.busWrite q addr v)

end Sys2Proof.Machine
end

