-- ==== Sys2Proof/Machine/Safe.lean ====
section
/-!
DEFINITION. Sys2Proof/Machine/Safe.lean: the safe points of running work (R116, R121, R122) and their commands: where each kind of
work may stand, its watermark there, and what it has moved.
-/
namespace Sys2Proof.Machine

/-- R116: whether n bytes of a transfer from a host address end at a safe point, not before the last one (R122). -/
def pageSafe (addr n prev total : Nat) : Bool :=
  decide (prev ≤ n ∧ n ≤ total) && ((addr + n) % 4096 == 0 || n == total || n == prev)

/-- R116, R121: the watermark of a descriptor's work at a safe point, from its progress: bytes of a copy or an image read, lines of
a layer. None where that is no safe point of the work. -/
def State.jobWm (s : State) (j : Job) (wm : Wm) : Option Wm :=
  let ws := j.words
  match dOpcode ws with
  | 0x02 =>
    let o := capOffset ws
    if o ≤ wm.bytes ∧ pageSafe (word64At ws 6) (wm.bytes - o) (j.wm.bytes - o) (capLen ws) then some (capWm wm.bytes) else none
  | 0x03 => if pageSafe (dmaHost ws) wm.bytes j.wm.bytes (dmaLen ws) then some (dmaWm ws wm.bytes) else none
  | 0x04 => if pageSafe (dmaHost ws) wm.bytes j.wm.bytes (dmaLen ws) then some (dmaWm ws wm.bytes) else none
  | 0x10 =>
    let d := pathHop (dTarget ws) 0
    let fmt := match s.slotOf d (dStream ws / 8) with | some k => s.rd (F.CMP_SLOTs_Ll_CFG_FORMAT d k (lsLayer ws)) | none => 0
    if j.wm.rows ≤ wm.rows ∧ wm.rows ≤ lsH ws then some (layerWm fmt ws wm.rows) else none
  | _ => none

/-- What a descriptor's work has moved or read since its last safe point; `data` is what the host link returned for an H2D copy, a
capsule image or a layer. -/
def State.jobMoves (s : State) (k : Nat) (j : Job) (wm : Wm) (data : List Byte) : State :=
  match dOpcode j.words with
  | 0x02 => s.capFill k j wm.bytes data
  | 0x03 => s.dmaMove j j.wm.bytes wm.bytes data
  | 0x04 => s.dmaMove j j.wm.bytes wm.bytes []
  | _ => (s.xlateRange (s.ringPasid j.ring) (lsAddr j.words + j.wm.lastOff) (wm.lastOff - j.wm.lastOff)).layerLines k j wm.rows data

/-- R116, R121, R122: the watermark of a running task at a safe point: of decode input a 4 KiB boundary of the host address; of any
other work its consumer's, which never moves backwards. None where that is no safe point. -/
def taskWm (x : Task) (wm : Wm) : Option Wm :=
  if wm.rows < x.wm.rows ∨ wm.bytes < x.wm.bytes then none
  else if dOpcode x.words = 0x20 then
    if pageSafe (word64At x.words 6) wm.bytes x.wm.bytes (fieldAt x.words 8 0 25) then some ⟨wm.rows, wm.bytes, wm.bytes, max x.wm.retry (min wm.retry wm.bytes)⟩
    else none
  else some wm

/-- R124: a running piece of work reaches a safe point. A firmware consumer's task has those of SCH_CONSk_WM3 and SCH_CONSk_END only,
with the watermark of its registers (R162, R168). -/
def State.safePoint (s : State) (w : Work) (wm : Wm) (data : List Byte) : State :=
  match w with
  | .desc r i => match s.job (descKey r i) with
    | some j => if j.phase ≠ .running then s else match s.jobWm j wm with
      | some wm => (s.jobMoves (descKey r i) j wm data).jobSafe r i wm
      | none => s
    | none => s
  | .task d t =>
    let x := s.task d t
    if x.state ≠ 4 ∨ !consHw d x.cons then s else match taskWm x wm with
      | some wm => (s.decReads x wm.bytes).taskSafe d t wm
      | none => s
  | _ => s

/-- TASK_PARK (R117): work that has faulted reaches its safe point. -/
def execTaskPark (w : Work) (at_ : Reached) (s : State) : Out := .next (s.when (s.workFaulted w) fun s => s.safePoint w at_.wm at_.data)

/-- TASK_SAFE_POINT (R124). -/
def execTaskSafePoint (w : Work) (at_ : Reached) (s : State) : Out := .next (s.safePoint w at_.wm at_.data)

end Sys2Proof.Machine
end

