-- ==== Sys2Proof/Machine/Dispatch.lean ====
section
/-!
DEFINITION. Sys2Proof/Machine/Dispatch.lean: exec, one arm per command.
-/
namespace Sys2Proof.Machine

def exec (i : Instr) (s : State) : Host.Outcome State Fault Refusal :=
  match i with
  | .tlEnable n freerun => Sys2Proof.Machine.execTlEnable n freerun s
  | .tlDisable n => Sys2Proof.Machine.execTlDisable n s
  | .tlFreerun n => Sys2Proof.Machine.execTlFreerun n s
  | .ltNowRead q n => Sys2Proof.Machine.execLtNowRead q n s
  | .ltCapture => Sys2Proof.Machine.execLtCapture s
  | .channelFrameStart c => Sys2Proof.Machine.execChannelFrameStart c s
  | .refSample k m => Sys2Proof.Machine.execRefSample k m s
  | .refWtrExpired k => Sys2Proof.Machine.execRefWtrExpired k s
  | .refDwellExpired k => Sys2Proof.Machine.execRefDwellExpired k s
  | .refActivityTimeout m => Sys2Proof.Machine.execRefActivityTimeout m s
  | .selSlewDone n => Sys2Proof.Machine.execSelSlewDone n s
  | .selForce n v => Sys2Proof.Machine.execSelForce n v s
  | .selBetterClr n v => Sys2Proof.Machine.execSelBetterClr n v s
  | .selSlopeWrite n v => Sys2Proof.Machine.execSelSlopeWrite n v s
  | .selStep n v => Sys2Proof.Machine.execSelStep n v s
  | .selHistMinute => Sys2Proof.Machine.execSelHistMinute s
  | .ptpSync p m => Sys2Proof.Machine.execPtpSync p m s
  | .ptpFollowUp n0 m => Sys2Proof.Machine.execPtpFollowUp n0 m s
  | .ptpAnnounce n0 m => Sys2Proof.Machine.execPtpAnnounce n0 m s
  | .ptpDelayResp n0 m => Sys2Proof.Machine.execPtpDelayResp n0 m s
  | .ptpDelayReqTimer n0 => Sys2Proof.Machine.execPtpDelayReqTimer n0 s
  | .ptpAnnounceTimeout n0 => Sys2Proof.Machine.execPtpAnnounceTimeout n0 s
  | .ptpSetReq v => Sys2Proof.Machine.execPtpSetReq v s
  | .ptpRearm v => Sys2Proof.Machine.execPtpRearm v s
  | .ptpServoSelect v => Sys2Proof.Machine.execPtpServoSelect v s
  | .ptpAdjWrite v => Sys2Proof.Machine.execPtpAdjWrite v s
  | .ptpClkNsRead q => Sys2Proof.Machine.execPtpClkNsRead q s
  | .ppsSecond => Sys2Proof.Machine.execPpsSecond s
  | .ppsOutWrite v => Sys2Proof.Machine.execPpsOutWrite v s
  | .hifLinkTrained cxl width rate flit256 cache mem ats pri pasid => Sys2Proof.Machine.execHifLinkTrained cxl width rate flit256 cache mem ats pri pasid s
  | .hdmDecoderCommit => Sys2Proof.Machine.execHdmDecoderCommit s
  | .dbSnoop r => Sys2Proof.Machine.execDbSnoop r s
  | .dbHoldoffExpired r => Sys2Proof.Machine.execDbHoldoffExpired r s
  | .dbReadReturn r index dbgen => Sys2Proof.Machine.execDbReadReturn r index dbgen s
  | .mmioDbIndex r index => Sys2Proof.Machine.execMmioDbIndex r index s
  | .mmioDbPresent r dbgen => Sys2Proof.Machine.execMmioDbPresent r dbgen s
  | .mmioDbBoth r index dbgen => Sys2Proof.Machine.execMmioDbBoth r index dbgen s
  | .descFetch r words => Sys2Proof.Machine.execDescFetch r words s
  | .descPoll r words => Sys2Proof.Machine.execDescPoll r words s
  | .genStallTimeout r => Sys2Proof.Machine.execGenStallTimeout r s
  | .nop r => Sys2Proof.Machine.execNop r s
  | .capsule r => Sys2Proof.Machine.execCapsule r s
  | .dmaH2d r => Sys2Proof.Machine.execDmaH2d r s
  | .dmaD2h r => Sys2Proof.Machine.execDmaD2h r s
  | .dmaComplete r idx data => Sys2Proof.Machine.execDmaComplete r idx data s
  | .batchTimeout r => Sys2Proof.Machine.execBatchTimeout r s
  | .batchFlushTick n => Sys2Proof.Machine.execBatchFlushTick n s
  | .irqGapExpired v => Sys2Proof.Machine.execIrqGapExpired v s
  | .ringEnable r => Sys2Proof.Machine.execRingEnable r s
  | .ringDisable r => Sys2Proof.Machine.execRingDisable r s
  | .ringDrainDone r => Sys2Proof.Machine.execRingDrainDone r s
  | .ringDrainStall r => Sys2Proof.Machine.execRingDrainStall r s
  | .xltFault w addr => Sys2Proof.Machine.execXltFault w addr s
  | .taskPark w x => Sys2Proof.Machine.execTaskPark w x s
  | .parkHoldExpired w => Sys2Proof.Machine.execParkHoldExpired w s
  | .pageResponse prg code => Sys2Proof.Machine.execPageResponse prg code s
  | .priTimeout w => Sys2Proof.Machine.execPriTimeout w s
  | .priStopped => Sys2Proof.Machine.execPriStopped s
  | .accessError w => Sys2Proof.Machine.execAccessError w s
  | .atsInvalidation pasid addr log2size => Sys2Proof.Machine.execAtsInvalidation pasid addr log2size s
  | .atsInvalComplete slow => Sys2Proof.Machine.execAtsInvalComplete slow s
  | .xltFlush => Sys2Proof.Machine.execXltFlush s
  | .descDeadline r idx => Sys2Proof.Machine.execDescDeadline r idx s
  | .stgOpen q any set => Sys2Proof.Machine.execStgOpen q any set s
  | .stgCommit q set n => Sys2Proof.Machine.execStgCommit q set n s
  | .stgAbort q set => Sys2Proof.Machine.execStgAbort q set s
  | .stgWselWrite q v => Sys2Proof.Machine.execStgWselWrite q v s
  | .stagedWrite q addr v => Sys2Proof.Machine.execStagedWrite q addr v s
  | .directWrite q addr v => Sys2Proof.Machine.execDirectWrite q addr v s
  | .commitApply set => Sys2Proof.Machine.execCommitApply set s
  | .capsuleStart r => Sys2Proof.Machine.execCapsuleStart r s
  | .capsuleReadComplete r idx image => Sys2Proof.Machine.execCapsuleReadComplete r idx image s
  | .capsuleHoldExpired r => Sys2Proof.Machine.execCapsuleHoldExpired r s
  | .taskSubmit r => Sys2Proof.Machine.execTaskSubmit r s
  | .taskCancel r => Sys2Proof.Machine.execTaskCancel r s
  | .taskWake d l => Sys2Proof.Machine.execTaskWake d l s
  | .taskStart d k => Sys2Proof.Machine.execTaskStart d k s
  | .taskEnd d k outcome reason wm => Sys2Proof.Machine.execTaskEnd d k outcome reason wm s
  | .taskSafePoint w x => Sys2Proof.Machine.execTaskSafePoint w x s
  | .schConsTake d k => Sys2Proof.Machine.execSchConsTake d k s
  | .schConsEnd d k v => Sys2Proof.Machine.execSchConsEnd d k v s
  | .schConsWm3 d k v => Sys2Proof.Machine.execSchConsWm3 d k v s
  | .schQueueRevoke d q => Sys2Proof.Machine.execSchQueueRevoke d q s
  | .schUsecRead d => Sys2Proof.Machine.execSchUsecRead d s
  | .taskDeadline d t => Sys2Proof.Machine.execTaskDeadline d t s
  | .ingPacket x => Sys2Proof.Machine.execIngPacket x s
  | .sdiLine c x => Sys2Proof.Machine.execSdiLine c x s
  | .flowAdd => Sys2Proof.Machine.execFlowAdd s
  | .flowReplace => Sys2Proof.Machine.execFlowReplace s
  | .flowDelete n0 => Sys2Proof.Machine.execFlowDelete n0 s
  | .flowRead n0 => Sys2Proof.Machine.execFlowRead n0 s
  | .lineComplete c => Sys2Proof.Machine.execLineComplete c s
  | .ingLossTimeout c => Sys2Proof.Machine.execIngLossTimeout c s
  | .layerSrc r => Sys2Proof.Machine.execLayerSrc r s
  | .layerImageReady r x => Sys2Proof.Machine.execLayerImageReady r x s
  | .layerWaitExpired d k l => Sys2Proof.Machine.execLayerWaitExpired d k l s
  | .bandWritten d k band => Sys2Proof.Machine.execBandWritten d k band s
  | .flattenRebuildDone d k l => Sys2Proof.Machine.execFlattenRebuildDone d k l s
  | .cmpCoefAccess d v => Sys2Proof.Machine.execCmpCoefAccess d v s
  | .lutData0Write d k v => Sys2Proof.Machine.execLutData0Write d k v s
  | .lutData1Write d k v => Sys2Proof.Machine.execLutData1Write d k v s
  | .lutCrcDone d k b => Sys2Proof.Machine.execLutCrcDone d k b s
  | .encRefreshReq d n0 v => Sys2Proof.Machine.execEncRefreshReq d n0 v s
  | .rowArrival d n0 x => Sys2Proof.Machine.execRowArrival d n0 x s
  | .rowHandover d n0 => Sys2Proof.Machine.execRowHandover d n0 s
  | .motionAreaCoarse d n0 ax ay pic => Sys2Proof.Machine.execMotionAreaCoarse d n0 ax ay pic s
  | .motionBlockDone d n0 bx by_ tile pic => Sys2Proof.Machine.execMotionBlockDone d n0 bx by_ tile pic s
  | .motionHint r => Sys2Proof.Machine.execMotionHint r s
  | .unitCoded d n0 j bits floorBits => Sys2Proof.Machine.execUnitCoded d n0 j bits floorBits s
  | .eobjRevoke d v => Sys2Proof.Machine.execEobjRevoke d v s
  | .revokeQuiesced d key => Sys2Proof.Machine.execRevokeQuiesced d key s
  | .decInput r => Sys2Proof.Machine.execDecInput r s
  | .decPictureDone d n0 x => Sys2Proof.Machine.execDecPictureDone d n0 x s
  | .decShowReached d n0 => Sys2Proof.Machine.execDecShowReached d n0 s
  | .wheelSlot => Sys2Proof.Machine.execWheelSlot s
  | .portFrameDone p => Sys2Proof.Machine.execPortFrameDone p s
  | .shaperRefill q => Sys2Proof.Machine.execShaperRefill q s
  | .shaperWrite q v => Sys2Proof.Machine.execShaperWrite q v s
  | .gateIntervalEnd p => Sys2Proof.Machine.execGateIntervalEnd p s
  | .gateChange p en => Sys2Proof.Machine.execGateChange p en s
  | .gateChangeTime p => Sys2Proof.Machine.execGateChangeTime p s
  | .gateEnWrite p en => Sys2Proof.Machine.execGateEnWrite p en s
  | .queueSample => Sys2Proof.Machine.execQueueSample s
  | .whlHistClr => Sys2Proof.Machine.execWhlHistClr s
  | .tsPsiTimer f => Sys2Proof.Machine.execTsPsiTimer f s
  | .tsPcrTimer f => Sys2Proof.Machine.execTsPcrTimer f s
  | .audioSample a x => Sys2Proof.Machine.execAudioSample a x s
  | .audioPortFrame p out frame ppm => Sys2Proof.Machine.execAudioPortFrame p out frame ppm s
  | .audHostWrite a v => Sys2Proof.Machine.execAudHostWrite a v s
  | .audM0Read a => Sys2Proof.Machine.execAudM0Read a s
  | .pairHb q n v => Sys2Proof.Machine.execPairHb q n v s
  | .pairHbTimeout n sd => Sys2Proof.Machine.execPairHbTimeout n sd s
  | .pairSuspectDecide n sd => Sys2Proof.Machine.execPairSuspectDecide n sd s
  | .twinHbSend => Sys2Proof.Machine.execTwinHbSend s
  | .twinHeartbeat x => Sys2Proof.Machine.execTwinHeartbeat x s
  | .twinHbMiss => Sys2Proof.Machine.execTwinHbMiss s
  | .leaseRenewTimer n => Sys2Proof.Machine.execLeaseRenewTimer n s
  | .leaseExpired n => Sys2Proof.Machine.execLeaseExpired n s
  | .witnessLeaseExpired id => Sys2Proof.Machine.execWitnessLeaseExpired id s
  | .witRenew m => Sys2Proof.Machine.execWitRenew m s
  | .witGrant m => Sys2Proof.Machine.execWitGrant m s
  | .witSuspect m => Sys2Proof.Machine.execWitSuspect m s
  | .witProbe m => Sys2Proof.Machine.execWitProbe m s
  | .witProbeAck m => Sys2Proof.Machine.execWitProbeAck m s
  | .witProbeTimeout id => Sys2Proof.Machine.execWitProbeTimeout id s
  | .witFence m => Sys2Proof.Machine.execWitFence m s
  | .witFenceAck m => Sys2Proof.Machine.execWitFenceAck m s
  | .witVerdict m => Sys2Proof.Machine.execWitVerdict m s
  | .witYield m => Sys2Proof.Machine.execWitYield m s
  | .twinCaps x => Sys2Proof.Machine.execTwinCaps x s
  | .twinCursor words => Sys2Proof.Machine.execTwinCursor words s
  | .twinFlow words => Sys2Proof.Machine.execTwinFlow words s
  | .twinTemplate sid block => Sys2Proof.Machine.execTwinTemplate sid block s
  | .twinRelay typ m => Sys2Proof.Machine.execTwinRelay typ m s
  | .twinMirror k damaged x => Sys2Proof.Machine.execTwinMirror k damaged x s
  | .twinMboxHostidxWrite index msgs => Sys2Proof.Machine.execTwinMboxHostidxWrite index msgs s
  | .pairSwitch n tl back => Sys2Proof.Machine.execPairSwitch n tl back s
  | .pairDrill n tl back => Sys2Proof.Machine.execPairDrill n tl back s
  | .pairRejoin n => Sys2Proof.Machine.execPairRejoin n s
  | .pairAbort n => Sys2Proof.Machine.execPairAbort n s
  | .pairSwitchStamp n => Sys2Proof.Machine.execPairSwitchStamp n s
  | .drillWindowEnd n => Sys2Proof.Machine.execDrillWindowEnd n s
  | .refHoldExpired n sd => Sys2Proof.Machine.execRefHoldExpired n sd s
  | .hbmEn d en => Sys2Proof.Machine.execHbmEn d en s
  | .hbmRefreshStart d => Sys2Proof.Machine.execHbmRefreshStart d s
  | .hbmMapLock d => Sys2Proof.Machine.execHbmMapLock d s
  | .hbmHotForce d on => Sys2Proof.Machine.execHbmHotForce d on s
  | .hbmRefreshTick d => Sys2Proof.Machine.execHbmRefreshTick d s
  | .hbmTempRead d t => Sys2Proof.Machine.execHbmTempRead d t s
  | .hbmTempTimeout d => Sys2Proof.Machine.execHbmTempTimeout d s
  | .hbmRhWindow d => Sys2Proof.Machine.execHbmRhWindow d s
  | .hbmReadDone d master off hit sev => Sys2Proof.Machine.execHbmReadDone d master off hit sev s
  | .hbmPhyLockLoss d => Sys2Proof.Machine.execHbmPhyLockLoss d s
  | .hbmTrainWrite d pc all pattern row len => Sys2Proof.Machine.execHbmTrainWrite d pc all pattern row len s
  | .hbmTrainRead d pc all pattern row len => Sys2Proof.Machine.execHbmTrainRead d pc all pattern row len s
  | .hbmTrainLoop d pc all pattern row len => Sys2Proof.Machine.execHbmTrainLoop d pc all pattern row len s
  | .hbmTrainStop d => Sys2Proof.Machine.execHbmTrainStop d s
  | .hbmTrainDone d errs bits => Sys2Proof.Machine.execHbmTrainDone d errs bits s
  | .hbm1500Go d v => Sys2Proof.Machine.execHbm1500Go d v s
  | .hbm1500Done d data => Sys2Proof.Machine.execHbm1500Done d data s
  | .laneDormantSet n => Sys2Proof.Machine.execLaneDormantSet n s
  | .laneDormantClear n => Sys2Proof.Machine.execLaneDormantClear n s
  | .laneDormantExitDone n => Sys2Proof.Machine.execLaneDormantExitDone n s
  | .laneRestart n => Sys2Proof.Machine.execLaneRestart n s
  | .laneTestSet n => Sys2Proof.Machine.execLaneTestSet n s
  | .laneTestClear n => Sys2Proof.Machine.execLaneTestClear n s
  | .laneSnap n bits errs => Sys2Proof.Machine.execLaneSnap n bits errs s
  | .laneInject n v => Sys2Proof.Machine.execLaneInject n v s
  | .laneDetectProbe n present => Sys2Proof.Machine.execLaneDetectProbe n present s
  | .laneStageDone n eq same unit => Sys2Proof.Machine.execLaneStageDone n eq same unit s
  | .laneStageTimeout n => Sys2Proof.Machine.execLaneStageTimeout n s
  | .laneLockLost n => Sys2Proof.Machine.execLaneLockLost n s
  | .ucieLinkDown k => Sys2Proof.Machine.execUcieLinkDown k s
  | .ucieRetrainDone k ok slow repaired => Sys2Proof.Machine.execUcieRetrainDone k ok slow repaired s
  | .ucieTrainDone k ok slow repaired => Sys2Proof.Machine.execUcieTrainDone k ok slow repaired s
  | .ucieFlitCrcFail k => Sys2Proof.Machine.execUcieFlitCrcFail k s
  | .fabRemapWrite d v => Sys2Proof.Machine.execFabRemapWrite d v s
  | .fabErrClear d => Sys2Proof.Machine.execFabErrClear d s
  | .fabPromote d t => Sys2Proof.Machine.execFabPromote d t s
  | .crcReset d k => Sys2Proof.Machine.execCrcReset d k s
  | .crcCompute d k => Sys2Proof.Machine.execCrcCompute d k s
  | .crcAppend d k => Sys2Proof.Machine.execCrcAppend d k s
  | .crcStrip d k => Sys2Proof.Machine.execCrcStrip d k s
  | .crcAbort d k => Sys2Proof.Machine.execCrcAbort d k s
  | .crcBadOp d k seven => Sys2Proof.Machine.execCrcBadOp d k seven s
  | .crcOpDone d k => Sys2Proof.Machine.execCrcOpDone d k s
  | .crcData32 d k v => Sys2Proof.Machine.execCrcData32 d k v s
  | .crcData16 d k v => Sys2Proof.Machine.execCrcData16 d k v s
  | .crcData8 d k v => Sys2Proof.Machine.execCrcData8 d k v s
  | .crcValueWrite d k v => Sys2Proof.Machine.execCrcValueWrite d k v s
  | .crcClaimRead d k => Sys2Proof.Machine.execCrcClaimRead d k s
  | .crcClaimRelease d k => Sys2Proof.Machine.execCrcClaimRelease d k s
  | .recStreamCopy d => Sys2Proof.Machine.execRecStreamCopy d s
  | .recRead r => Sys2Proof.Machine.execRecRead r s
  | .recClrGo => Sys2Proof.Machine.execRecClrGo s
  | .recClearChecked => Sys2Proof.Machine.execRecClearChecked s
  | .powerGood samples => Sys2Proof.Machine.execPowerGood samples s
  | .supplyLoss => Sys2Proof.Machine.execSupplyLoss s
  | .rstNAssert => Sys2Proof.Machine.execRstNAssert s
  | .rstNRelease samples => Sys2Proof.Machine.execRstNRelease samples s
  | .perstAssert => Sys2Proof.Machine.execPerstAssert s
  | .perstRelease => Sys2Proof.Machine.execPerstRelease s
  | .rstGlobalWrite v => Sys2Proof.Machine.execRstGlobalWrite v s
  | .wdtKick d v => Sys2Proof.Machine.execWdtKick d v s
  | .wdtExpired d => Sys2Proof.Machine.execWdtExpired d s
  | .thermSample d ts => Sys2Proof.Machine.execThermSample d ts s
  | .clockGood path => Sys2Proof.Machine.execClockGood path s
  | .noclkTimeout q => Sys2Proof.Machine.execNoclkTimeout q s
  | .rstGrvHold j => Sys2Proof.Machine.execRstGrvHold j s
  | .rstGrvRelease j => Sys2Proof.Machine.execRstGrvRelease j s
  | .pwrSlotEnable j en on => Sys2Proof.Machine.execPwrSlotEnable j en on s
  | .pwrDomainSwitch => Sys2Proof.Machine.execPwrDomainSwitch s
  | .pwrDomainUp d n => Sys2Proof.Machine.execPwrDomainUp d n s
  | .pwrReqCalibrate => Sys2Proof.Machine.execPwrReqCalibrate s
  | .pwrReqReady => Sys2Proof.Machine.execPwrReqReady s
  | .pwrReqDiagnostic => Sys2Proof.Machine.execPwrReqDiagnostic s
  | .pwrReqClear => Sys2Proof.Machine.execPwrReqClear s
  | .pwrReqOther req => Sys2Proof.Machine.execPwrReqOther req s
  | .bootMboxGo => Sys2Proof.Machine.execBootMboxGo s
  | .bootCoresRun d run => Sys2Proof.Machine.execBootCoresRun d run s
  | .bootImageLoaded img => Sys2Proof.Machine.execBootImageLoaded img s
  | .bootFrame data => Sys2Proof.Machine.execBootFrame data s
  | .bootTwinTimeout => Sys2Proof.Machine.execBootTwinTimeout s
  | .bootSramWrite d off v => Sys2Proof.Machine.execBootSramWrite d off v s
  | .bootSpiGo d v => Sys2Proof.Machine.execBootSpiGo d v s
  | .bootSpiDone d data wp => Sys2Proof.Machine.execBootSpiDone d data wp s
  | .rstCauseClear d v => Sys2Proof.Machine.execRstCauseClear d v s
  | .regWrite q addr v => Sys2Proof.Machine.execRegWrite q addr v s
  | .descLineInvalidated r words => Sys2Proof.Machine.execDescLineInvalidated r words s
  | .hdmWindowAccess o w => Sys2Proof.Machine.execHdmWindowAccess o w s
  | .audClockLoss p => Sys2Proof.Machine.execAudClockLoss p s
  | .checkerLock n => Sys2Proof.Machine.execCheckerLock n s
  | .checkerLockLost n bits errs => Sys2Proof.Machine.execCheckerLockLost n bits errs s

end Sys2Proof.Machine
end

