-- ==== Sys2Proof/Machine/Step.lean ====
section
/-!
DEFINITION. Sys2Proof/Machine/Step.lean: one step of the block: the command at the front of the queue, or one cycle of
the local clock when none waits (notes/assumptions/6.md).
-/
namespace Sys2Proof.Machine

/-- The command at the front of the queue has its effect on the state with the queue's rest; an empty queue lets one
2.5 ns cycle of the local clock pass (R37, R400). -/
def step (s : State) : Host.Outcome State Fault Refusal :=
  match s.pending with
  | [] => .next s.idle
  | c :: cs => exec c { s with pending := cs }

/-- The state with the command a table word spells at the front of its queue. The opcode table gives no row any bits
(notes/assumptions/9.md), so no word spells a command and the state is unchanged. -/
def State.withFetchWord (s : State) (nbits w : Nat) : State :=
  match decodeTableWord nbits w with
  | some c => { s with pending := c :: s.pending }
  | none => s

end Sys2Proof.Machine
end

