-- ==== Sys2Proof/Machine/View.lean ====
section
/-!
DEFINITION. Sys2Proof/Machine/View.lean: what the host reads at an offset of BAR0 (R12, R442, R464).
-/
namespace Sys2Proof.Machine

/-- R87: S, the bytes of host-managed memory that the device advertises in its DVSEC range registers. -/
def State.hdmRange (s : State) : Nat := ((List.range s.crowns).map fun k => s.rd (F.HIF_HDMd_SIZE_GIB (k + 1)) * 2 ^ 30).sum

/-- R12, R442, R464: what the host reads at a BAR0 offset: all ones in the window of an absent crown, and where the access
ends in an error response (notes/assumptions/87.md). -/
def State.barRead (s : State) (q : Req) (a : Nat) : Word :=
  let d := a / 0x4000000
  if 0x20000000 ≤ a then 0
  else if s.crowns < d ∨ !s.dieUp d ∨ (s.uciError q d).isSome ∨ s.regBlocked a then 0xFFFFFFFF
  else s.regRead q (a / 4 * 4)

end Sys2Proof.Machine
end

