-- ==== Sys2Proof/Safety.lean ====
section
/-!
DEFINITION. Sys2Proof/Safety.lean: the terms of claims: the canonical form of a state's storage, what every command
keeps, and frames over registers and memory.
-/
namespace Sys2Proof.Machine

/-- The canonical form of a byte memory that reads 0 where nothing is listed. -/
def Memory.wf (m : List (Nat × Byte)) : Bool := mapWf (fun _ => 0) m

/-- The canonical form of the register file and of the byte memories: HBM stacks, host memory as the device wrote it, working
SRAM. -/
def State.ok (s : State) : Bool :=
  mapWf (regReset s.variant.crowns) s.regs && Memory.wf s.hbm && Memory.wf s.host.mem && Memory.wf s.rst.sram

/-- What no command changes on its way from `s` to `t`: the variant, the queue, the clock's count, what has left the package;
and the canonical form is kept. -/
structure Keeps (s t : State) : Prop where
  variant : t.variant = s.variant
  pending : t.pending = s.pending
  cycle : t.cycle = s.cycle
  sent : s.sent <:+ t.sent
  ok : s.ok = true → t.ok = true

/-- The registers of the recorder that a record moves: REC_HEAD, REC_TAIL and REC_CNT of a die (R432). -/
def recReg (a : Nat) : Bool :=
  a % 0x4000000 == 0xD00000 || a % 0x4000000 == 0xD00004 || a % 0x4000000 == 0xD0000C

/-- Every register but those of a list, and the recorder's, reads as before. -/
def RegsBut (as : List Nat) (s t : State) : Prop := ∀ a, a ∉ as → recReg a = false → t.reg a = s.reg a

/-- Every byte of the HBM stacks, of host memory and of working SRAM reads as before. -/
def MemSame (s t : State) : Prop :=
  (∀ a, memRead t.hbm a = memRead s.hbm a) ∧ (∀ a, memRead t.host.mem a = memRead s.host.mem a) ∧
    ∀ a, memRead t.rst.sram a = memRead s.rst.sram a

/-- A witness message that passed its checks has been noted: its sender's last SEQ, and TWIN_STATUS.WIT_OK (R360). -/
def State.heard (s : State) (m : WitMsg) : State :=
  ({ s with red := { s.red with seqs := (m.sender, m.seq) :: s.red.seqs.filter (·.1 != m.sender) } } : State).wr F.TWIN_STATUS_WIT_OK 1

/-- Nothing but registers and the recorder's store differs. -/
def OnlyRegs (s t : State) : Prop := t = { s with regs := t.regs, recorder := t.recorder }

/-- Registers differ at most at a list's and the recorder's; nothing else but the recorder's store differs. -/
def Only (as : List Nat) (s t : State) : Prop := RegsBut as s t ∧ OnlyRegs s t

/-- No register differs, the recorder's included. -/
def RegsSame (s t : State) : Prop := t.regs = s.regs ∧ t.recorder = s.recorder

/-- Command `c` answers a next state from `s`, of which `P` holds. -/
def Gives (c : Instr) (s : State) (P : State → Prop) : Prop := ∃ t, exec c s = .next t ∧ P t

end Sys2Proof.Machine
end

