-- ==== Sys2Proof/Certificates/Slice0/Obligations.lean ====
section
/-!
DEFINITION. Sys2Proof/Certificates/Slice0/Obligations.lean: the statements for the provers. A statement about a command
says, by `Gives` or by an equation with `.next`, that the command answers a next state and what that state holds; its
hypotheses are those of the rule it cites, on the state and the operands alone.
-/
open Sys2Proof Sys2Proof.Machine

/-- A step takes the command at the front of the queue and runs it on the state with the queue's rest; with none waiting what is
due acts and one cycle of the local clock passes, the model's choice of notes/assumptions/6.md. -/
def Obligations.StepRunsFrontCommand : Prop :=
  (∀ (c : Instr) (cs : List Instr) (s : State), step { s with pending := c :: cs } = exec c { s with pending := cs }) ∧
  ∀ s : State, s.pending = [] → step s = .next s.idle

/-- R74: a cycle adds INCR to the PTP clock and carries at 10^9 ns; INCR is the nominal 2.5 ns plus PTP_CLK_ADJ. -/
def Obligations.ClockCycleAddsIncr : Prop :=
  ∀ s : State, s.ptp.clk < 10 ^ 9 * 2 ^ 32 → s.ptp.sec < 2 ^ 48 →
    s.idleCycle.ptp.clk < 10 ^ 9 * 2 ^ 32 ∧ s.idleCycle.ptp.sec < 2 ^ 48 ∧
    (s.idleCycle.ptp.sec * (10 ^ 9 * 2 ^ 32) + s.idleCycle.ptp.clk) % (2 ^ 48 * (10 ^ 9 * 2 ^ 32)) =
      (s.ptp.sec * (10 ^ 9 * 2 ^ 32) + s.ptp.clk + s.incr) % (2 ^ 48 * (10 ^ 9 * 2 ^ 32)) ∧
    (s.incr : Int) = 0x280000000 + (s.reg R.PTP_CLK_ADJ).toInt ∧ s.incr < 2 ^ 40 ∧
    (s.ptp.clk + s.incr < 10 ^ 9 * 2 ^ 32 → s.idleCycle.ptp.ppsUntil = s.ptp.ppsUntil) ∧
    (10 ^ 9 * 2 ^ 32 ≤ s.ptp.clk + s.incr → s.clkSet = true → s.on F.PTP_PPS_OUT_EN = true →
      s.idleCycle.ptp.ppsUntil = s.cycle + 1 + s.rd F.PTP_PPS_OUT_WIDTH * 400) ∧
    (∀ a, a ≠ R.PTP_CLK_STATUS → s.idleCycle.reg a = s.reg a) ∧
    s.idleCycle = { s with
      cycle := s.cycle + 1
      regs := s.idleCycle.regs
      lt := s.idleCycle.lt
      ptp := { s.ptp with sec := s.idleCycle.ptp.sec, clk := s.idleCycle.ptp.clk, ppsUntil := s.idleCycle.ptp.ppsUntil } }

/-- The state after reset has the canonical form, an empty queue and nothing sent. -/
def Obligations.ResetIsCanonical : Prop := State.reset.ok = true ∧ State.reset.pending = [] ∧ State.reset.sent = []

/-- Every step answers a next state and keeps the canonical form of registers and memories. -/
def Obligations.StepKeepsCanonical : Prop :=
  ∀ s : State, s.ok = true → ∃ t, step s = .next t ∧ t.ok = true

/-- Every command answers a next state that keeps the queue, the variant, the clock's count and what was sent. -/
def Obligations.CommandsKeepQueueAndHistory : Prop := ∀ (c : Instr) (s : State), Gives c s (Keeps s)

/-- R38: the transitions of a timeline that LT_TLn_CTL drives. -/
def Obligations.TimelineControl : Prop :=
  (∀ (n : Fin 4) (fr : Bool) (s : State), s.tlState n = 0 → (∀ b ∈ s.bases, b.tlCheck n fr = 0) →
    exec (.tlEnable n fr) s = .next (let a := ((s.setReg (R.LT_TLn_CTL n) (if fr then 3 else 1)).badMinute n).setTlState n 1
      (if fr then a.freerun n else a).reselect n)) ∧
  (∀ (n : Fin 4) (s : State), s.tlState n = 1 →
    exec (.tlFreerun n) s = .next (((s.setReg (R.LT_TLn_CTL n) 3).freerun n).reselect n)) ∧
  (∀ (n : Fin 4) (s : State), (s.tlState n = 1 ∨ ((s.tlState n = 2 ∨ s.tlState n = 3) ∧ s.tlInUse n = false)) → s.armedOn n = false →
    exec (.tlDisable n) s = .next ((s.setReg (R.LT_TLn_CTL n) 0).tlStop n)) ∧
  (∀ (n : Fin 4) (s : State), (s.tlState n = 2 ∨ s.tlState n = 3) → s.tlInUse n = true →
    Gives (.tlDisable n) s fun t => t.rd (F.LT_TLn_STATUS_REASON n) = 0x1003 ∧ t.tlState n = s.tlState n ∧
      Only [R.LT_TLn_STATUS n] s t)

/-- R38, R39, R66: FREERUN takes an acquiring timeline to HOLDOVER at the frame count of LT_TLn_FRAME_SET. -/
def Obligations.FreerunEntersHoldover : Prop :=
  ∀ (n : Fin 4) (s : State), s.tlState n = 1 →
    (s.freerun n).tlState n = 3 ∧ (s.freerun n).selMode n = 3 ∧
    ((s.freerun n).tl n).frame = s.rd (F.LT_TLn_FRAME_SET_LO_FRAME_LO n) + s.rd (F.LT_TLn_FRAME_SET_HI_FRAME_HI n) * 2 ^ 32 ∧
    ((s.freerun n).tl n).acc = 0 ∧ ((s.freerun n).tl n).freq = 0 ∧ ((s.freerun n).tl n).pend = 0 ∧ ((s.freerun n).tl n).soft = 0 ∧
    (∀ m : Fin 4, m ≠ n → (s.freerun n).tl m = s.tl m ∧ (s.freerun n).tlState m = s.tlState m)

/-- R46: NOW_LO returns the low half of the stamp and latches the high half for the requester. -/
def Obligations.NowReadLatchesHigh : Prop :=
  ∀ (q : Req) (n : Fin 4) (s : State), Gives (.ltNowRead q n) s fun t =>
    t.rdata = BitVec.ofNat 32 (s.now n) ∧
    t.regRead q (R.LT_TLn_NOW_HI n) = BitVec.ofNat 32 (s.now n / 2 ^ 32) ∧
    (∀ (p : Req) (m : Fin 4), (p, m) ≠ (q, n) → t.nowLatched p m = s.nowLatched p m) ∧
    t = { s with rdata := t.rdata, lt := { s.lt with nowLatch := t.lt.nowLatch } }

/-- R47: the capture of all four timelines in one command. -/
def Obligations.CaptureAllTimelines : Prop :=
  ∀ s : State, Gives .ltCapture s fun t =>
    (∀ n : Fin 4, t.rd (F.LT_TLn_XCAP_LO_XCAP_LO n) = s.now n % 2 ^ 32 ∧
      t.rd (F.LT_TLn_XCAP_HI_XCAP_HI n) = s.now n / 2 ^ 32 ∧
      t.rd (F.LT_TLn_XCAP_EPOCH_XCAP_EPOCH n) = (if s.tlRunning n then (s.tl n).frame / 2 ^ 36 % 2 ^ 12 else 0) ∧
      (s.tlState n = 0 ∨ s.tlState n = 1 → s.now n = 0)) ∧
    (∀ a, (∀ n : Fin 4, a ≠ R.LT_TLn_XCAP_LO n ∧ a ≠ R.LT_TLn_XCAP_HI n ∧ a ≠ R.LT_TLn_XCAP_EPOCH n) → t.reg a = s.reg a) ∧
    t = { s with regs := t.regs }
/-- R60: the effects of a reference's samples and timers, over the qualifier's named operations. -/
def Obligations.ReferenceEvents : Prop :=
  (∀ (k : Fin 12) (m : RefMeas) (s : State), s.refState k = 2 → s.jumped k = false → s.refLaneUp k = true →
    let a := s.refEdge k m
    let b := (a.observe k m).wrS (F.SEL_REFk_STATUS_OFFSET k) (m.freq / 1000)
    a.isGlitch k m = false →
    (a.refStep k m = false → b.mtieBad k = false →
      (m.freq.natAbs ≤ b.tol k → exec (.refSample k m) s = .next ((b.keepSample k m).feed k m.freq)) ∧
      (b.tol k < m.freq.natAbs → exec (.refSample k m) s = .next ((b.setRef k { b.ref k with prev := some m.freq }).refSuspect k))) ∧
    (a.refStep k m = true → exec (.refSample k m) s = .next ((b.setRef k { b.ref k with prev := some m.freq }).disqualify k 2))) ∧
  (∀ (k : Fin 12) (s : State), s.refState k = 1 → (s.ref k).inBand = true → (2 ≤ k.val ∨ s.on F.PTP_CLK_STATUS_SET = true) →
    exec (.refWtrExpired k) s = .next ((s.enterQualified k).reselectAll)) ∧
  (∀ (k : Fin 12) (s : State), s.refState k = 3 → exec (.refDwellExpired k) s = .next (s.disqualify k 3)) ∧
  (∀ (k : Fin 12) (pps : Bool) (s : State), 2 ≤ k.val → (k.val ≠ 4 ∧ k.val ≠ 5 ∨ pps = false) → (s.refState k = 2 ∨ s.refState k = 3) →
    exec (.refActivityTimeout ⟨k, pps⟩) s = .next (s.disqualify k 1)) ∧
  (∀ (k : Fin 12) (s : State), k.val = 4 ∨ k.val = 5 →
    exec (.refActivityTimeout ⟨k, true⟩) s =
      .next ((({ s with ptp := { s.ptp with ppsLost := true } } : State).refQuiet (9 - k)).refQuiet k)) ∧
  (∀ (k : Fin 12) (pps : Bool) (s : State), k.val < 2 →
    exec (.refActivityTimeout ⟨k, pps⟩) s = .next (((s.setInst k { s.inst k with quiet := true }).servoUpdate).refQuiet k))

/-- R60, R61: the qualifier's timer events, read back from the registers, with their frame. -/
def Obligations.QualifierTimersReadBack : Prop :=
  ∀ (k : Fin 12) (s : State),
    let disq := fun (c : Instr) (cause : Nat) => Gives c s fun t =>
      t.refState k = 4 ∧ t.rd (F.SEL_REFk_STATUS_CAUSE k) = cause ∧
      t.rd (F.SEL_REFk_COUNT_DISQ k) = min (s.rd (F.SEL_REFk_COUNT_DISQ k) + 1) (2 ^ (F.SEL_REFk_COUNT_DISQ k).width - 1) ∧
      (∀ a, (a < 0x100000 ∨ 0x112000 ≤ a) → a ≠ R.PWR_MODE → recReg a = false → t.reg a = s.reg a) ∧ MemSame s t
    (s.refState k = 3 → disq (.refDwellExpired k) 3) ∧
    ((s.refState k = 2 ∨ s.refState k = 3) → 2 ≤ k.val → disq (.refActivityTimeout ⟨k, false⟩) 1) ∧
    (s.refState k = 1 → (s.ref k).inBand = true → (2 ≤ k.val ∨ s.on F.PTP_CLK_STATUS_SET = true) → s.glitchy k = false →
      Gives (.refWtrExpired k) s fun t => t.refState k = 2 ∧
        (∀ a, (a < 0x100000 ∨ 0x112000 ≤ a) → a ≠ R.PWR_MODE → recReg a = false → t.reg a = s.reg a) ∧ MemSame s t)

/-- R60: a glitch sample is discarded, never applied to phase. -/
def Obligations.GlitchIsCountedNotApplied : Prop :=
  ∀ (k : Fin 12) (m : RefMeas) (s : State), s.refState k ≠ 0 →
    (s.refState k = 2 → (s.recentGlitches k).length + 1 ≤ s.rd (F.SEL_REFk_QUAL_GLITCH_MAX k)) → s.jumped k = false → s.refLaneUp k = true →
    (s.refEdge k m).isGlitch k m = true →
    Gives (.refSample k m) s fun t =>
      t.rd (F.SEL_REFk_COUNT_GLITCHES k) = min (s.rd (F.SEL_REFk_COUNT_GLITCHES k) + 1) (2 ^ (F.SEL_REFk_COUNT_GLITCHES k).width - 1) ∧
      (∀ j : Fin 12, j ≠ k → t.ref j = s.ref j) ∧ (∀ n : Fin 4, t.tl n = s.tl n) ∧
      (let past := s.refState k = 4 ∧ (s.rd (F.SEL_REFk_STATUS_CAUSE k) = 3 ∨ s.rd (F.SEL_REFk_STATUS_CAUSE k) = 4)
      (past → t.ref k = { s.ref k with glitches := s.cycle :: s.recentGlitches k, inBand := false } ∧ t.refState k = 1 ∧
        Only [R.SEL_REFk_COUNT k, R.SEL_REFk_STATUS k] { s with refs := t.refs, ptp := { s.ptp with ppsLost := t.ptp.ppsLost } } t) ∧
      (¬past → t.ref k = { s.ref k with glitches := s.cycle :: s.recentGlitches k } ∧
        Only [R.SEL_REFk_COUNT k] { s with refs := t.refs, ptp := { s.ptp with ppsLost := t.ptp.ppsLost } } t))

/-- R66 to R68, R71: the selector's register commands. -/
def Obligations.SelectorWrites : Prop :=
  (∀ (n : Fin 4) (s : State), s.selMode n = 2 → ((s.tl n).perr + (s.tl n).pend).natAbs < 25600000000 →
    Gives (.selSlewDone n) s fun t => t.selMode n = 1 ∧ t.target n = s.target n ∧ Only [R.SEL_TLn_STATUS n] s t) ∧
  (∀ (n : Fin 4) (v : Word) (s : State), 1 ≤ getBits v 0 14 → getBits v 0 14 ≤ 10000 →
    Gives (.selSlopeWrite n v) s fun t => t.rd (F.SEL_TLn_SLOPE_SLOPE n) = getBits v 0 14 ∧ Only [R.SEL_TLn_SLOPE n] s t) ∧
  (∀ (n : Fin 4) (v : Word) (s : State), getBits v 0 14 = 0 ∨ 10000 < getBits v 0 14 →
    Gives (.selSlopeWrite n v) s fun t => t.rd (F.SEL_TLn_STATUS_REASON n) = 0x1014 ∧ Only [R.SEL_TLn_STATUS n] s t) ∧
  (∀ (n : Fin 4) (v : Word) (s : State),
    let k := getBits v 2 4
    let good := ∀ b ∈ s.bases, k ∈ b.candidates n ∧ b.refUsable n k = true
    let look := fun c : State => if getBits v 1 1 = 1 ∧ s.selMode n ≠ 0 ∧
      ¬(s.on (F.SEL_TLn_CTL_FORCE_EN n) = true ∧ s.rd (F.SEL_TLn_CTL_FORCE_REF n) = k) then c.slewTo n k else c.reselect n
    (good → getBits v 1 1 = 1 → getBits v 6 1 = 0 → exec (.selForce n v) s = .next (look (s.setReg (R.SEL_TLn_CTL n) (v &&& 0x3F)))) ∧
    (¬good → Gives (.selForce n v) s fun t => t.rd (F.SEL_TLn_STATUS_REASON n) = 0x1016 ∧ Only [R.SEL_TLn_STATUS n] s t) ∧
    (getBits v 1 1 = 0 ∨ good → exec (.selBetterClr n v) s =
      .next (look ((s.setReg (R.SEL_TLn_CTL n) (v &&& 0x3F)).wr (F.SEL_TLn_STATUS_BETTER n) 0))) ∧
    (getBits v 1 1 = 1 → ¬good → Gives (.selBetterClr n v) s fun t =>
      t.rd (F.SEL_TLn_STATUS_REASON n) = 0x1016 ∧ Only [R.SEL_TLn_STATUS n] s t))

/-- R69, R70: steps of phase and the minute samples of the four timelines. -/
def Obligations.StepsAndMinutes : Prop :=
  (∀ (n : Fin 4) (v : Word) (s : State), s.selMode n ≠ 0 → ((s.tl n).pend + v.toInt * 390625).natAbs ≤ 25600000000000000 →
    Gives (.selStep n v) s fun t =>
      let p := (s.tl n).pend + v.toInt * 390625
      t.tl n = { s.tl n with
        pend := p, soft := (s.tl n).soft + v.toInt * 390625
        perr := if 2 * (s.accPhase n ((s.tl n).perr + p)).natAbs ≤ accM then (s.tl n).perr else s.nearest n (s.accPhase n ((s.tl n).perr + p)) - p } ∧
      (∀ m : Fin 4, m ≠ n → t.tl m = s.tl m) ∧
      Only [R.SEL_TLn_PERR n, R.SEL_TLn_PEND n] { s with lt := t.lt } t) ∧
  (∀ (n : Fin 4) (v : Word) (s : State), s.selMode n = 0 →
    Gives (.selStep n v) s fun t => t.rd (F.SEL_TLn_STATUS_REASON n) = 0x1018 ∧ Only [R.SEL_TLn_STATUS n] s t) ∧
  (∀ (n : Fin 4) (v : Word) (s : State), s.selMode n ≠ 0 → 25600000000000000 < ((s.tl n).pend + v.toInt * 390625).natAbs →
    Gives (.selStep n v) s fun t => t.rd (F.SEL_TLn_STATUS_REASON n) = 0x1011 ∧ Only [R.SEL_TLn_STATUS n] s t) ∧
  (∀ s : State, 60000000 * (s.lt.minute + 1) ≤ s.usec 0 → Gives .selHistMinute s fun t =>
    (∀ n : Fin 4, (t.tl n).hist = ((s.tl n).minuteSample :: (s.tl n).hist).take 1440 ∧ (t.tl n).minBad = s.minuteBad n ∧
      (t.tl n).acc = (s.tl n).acc ∧ (t.tl n).frame = (s.tl n).frame ∧ (t.tl n).freq = (s.tl n).freq) ∧
    t = { s with lt := { s.lt with tls := t.lt.tls, minute := s.lt.minute + 1 } }) ∧
  (∀ s : State, s.usec 0 < 60000000 * (s.lt.minute + 1) → exec .selHistMinute s = .next s)
/-- R73: Sync and Follow_Up as an instance takes them. -/
def Obligations.PtpSyncPairs : Prop :=
  (∀ (i : Fin 2) (m : SyncMsg) (s : State), s.hears i m.mac m.domain = true → -7 ≤ m.logInterval → m.logInterval ≤ -1 →
    (s.portState i = 8 ∨ s.portState i = 9) → s.fromMaster i m.sender = true → m.twoStep = true →
    Gives (.ptpSync i m) s fun t =>
      t.rd (F.PTP_n_COUNT_SYNC_RX i) = (s.rd (F.PTP_n_COUNT_SYNC_RX i) + 1) % 2 ^ (F.PTP_n_COUNT_SYNC_RX i).width ∧
      t.inst i = { s.inst i with logSync := m.logInterval, waitSeq := some (m.seq, s.rxStamp i - m.corr) } ∧
      (∀ j : Fin 2, j ≠ i → t.inst j = s.inst j) ∧ Only [R.PTP_n_COUNT i] { s with ptp := t.ptp } t) ∧
  (∀ (i : Fin 2) (m : SyncMsg) (s : State), s.hears i m.mac m.domain = true → -7 ≤ m.logInterval → m.logInterval ≤ -1 →
    (s.portState i = 8 ∨ s.portState i = 9) → s.fromMaster i m.sender = true → m.twoStep = false →
    exec (.ptpSync i m) s = .next ((((s.frameIn m.mac).incWrap (F.PTP_n_COUNT_SYNC_RX i)).setInst i { s.inst i with logSync := m.logInterval }).syncPair i
      ((m.sec * 10 ^ 9 + m.ns : Nat) + m.corr) (s.rxStamp i))) ∧
  (∀ (i : Fin 2) (m : SyncMsg) (s : State) (r : Int), s.hears i m.mac m.domain = true → s.fromMaster i m.sender = true →
    (s.inst i).waitSeq = some (m.seq, r) → exec (.ptpFollowUp i m) s = .next ((s.frameIn m.mac).syncPair i ((m.sec * 10 ^ 9 + m.ns : Nat) + m.corr) r)) ∧
  (∀ (i : Fin 2) (m : SyncMsg) (s : State), s.hears i m.mac m.domain = true → (m.logInterval < -7 ∨ -1 < m.logInterval) →
    Gives (.ptpSync i m) s fun t => t.rd (F.PTP_n_COUNT_IGNORED i) =
      min (s.rd (F.PTP_n_COUNT_IGNORED i) + 1) (2 ^ (F.PTP_n_COUNT_IGNORED i).width - 1) ∧
      Only [(F.PTP_n_COUNT_IGNORED i).reg] { s with ptp := { s.ptp with rxAt := t.ptp.rxAt } } t)

/-- R73: the rest of a slave instance's exchange with its master. -/
def Obligations.PtpMasterAndPathDelay : Prop :=
  (∀ (i : Fin 2) (m : AnnounceMsg) (s : State), s.hears i m.mac m.domain = true → -3 ≤ m.logInterval → m.logInterval ≤ 1 →
    m.steps < 255 → (s.inst i).parent = none → (s.inst i).foreign = [] → Gives (.ptpAnnounce i m) s fun t =>
      (t.inst i).parent = some m ∧ t.portState i = 8 ∧ t.rd (F.PTP_n_GMID_LO_GMID_LO i) = m.gmid % 2 ^ 32 ∧
      t.rd (F.PTP_n_GMID_HI_GMID_HI i) = m.gmid / 2 ^ 32 % 2 ^ 32 ∧ t.rd (F.PTP_n_STATUS_UTC_VALID i) = bit m.utcValid ∧
      t.rd (F.PTP_n_UTC_UTC_OFFSET i) = m.utcOffset % 2 ^ (F.PTP_n_UTC_UTC_OFFSET i).width ∧
      t.sent = (if m.tlv = [] then s.sent else .ptpTlv i m.tlv :: s.sent) ∧
      RegsBut [R.PTP_n_STATUS i, R.PTP_n_GMID_LO i, R.PTP_n_GMID_HI i, R.PTP_n_UTC i, R.PTP_CLK_STATUS] s t) ∧
  (∀ (i : Fin 2) (m p : AnnounceMsg) (s : State), s.hears i m.mac m.domain = true → -3 ≤ m.logInterval → m.logInterval ≤ 1 →
    m.steps < 255 → (s.inst i).parent = some p → (s.inst i).foreign = [p] → p.sender ≠ m.sender → Gives (.ptpAnnounce i m) s fun t =>
      (t.inst i).parent = some (if betterMaster p m = true then p else m) ∧ t.portState i = (if betterMaster p m = true then s.portState i else 8)) ∧
  (∀ (i : Fin 2) (s : State), s.on (F.PTP_n_CFG_EN i) = true → (s.portState i = 8 ∨ s.portState i = 9) →
    Gives (.ptpDelayReqTimer i) s fun t =>
      (t.inst i).dreqSeq = ((s.inst i).dreqSeq + 1) % 65536 ∧ (t.inst i).t3 = some (s.txStamp i) ∧
      t.sent = .delayReq i (t.inst i).dreqSeq (s.on (F.PTP_n_CFG_UNICAST_DREQ i)) (s.rd (F.PTP_n_IPV4_ADDR i)) :: s.sent ∧ RegsSame s t) ∧
  (∀ (i : Fin 2) (m : DelayRespMsg) (s : State) (t3 : Int), s.hears i m.mac m.domain = true → m.mine = true → s.fromMaster i m.sender = true → -7 ≤ m.logInterval → m.logInterval ≤ 5 →
    (s.inst i).t3 = some t3 → m.seq = (s.inst i).dreqSeq →
    Gives (.ptpDelayResp i m) s fun t =>
      t.rdS (F.PTP_n_MPD_MPD i) = clampS (F.PTP_n_MPD_MPD i).width
        ((((s.inst i).t2 - (s.inst i).t1) + ((m.sec * 10 ^ 9 + m.ns : Nat) - m.corr - t3)) * 8) ∧
      t.inst i = { s.inst i with t3 := none, dreqLog := m.logInterval } ∧ RegsBut [R.PTP_n_MPD i] s t) ∧
  (∀ (i : Fin 2) (s : State), s.on (F.PTP_n_CFG_EN i) = true → (s.inst i).parent.isSome = true →
    Gives (.ptpAnnounceTimeout i) s fun t =>
      (t.inst i).parent = none ∧ t.portState i = 4 ∧ RegsBut [R.PTP_n_STATUS i, R.PTP_CLK_STATUS] s t)

/-- R75, R76: the three commands on PTP_CLK_CTL. -/
def Obligations.PtpClockControl : Prop :=
  (∀ (v : Word) (s : State), getBits v 4 1 = 0 → s.clkSet = false →
    exec (.ptpSetReq v) s = .next (((s.setReg R.PTP_CLK_CTL (v &&& 7)).servoUpdate).stepClock
      (((s.rd64 F.PTP_CLK_SET_SEC_LO_SEC_LO F.PTP_CLK_SET_SEC_HI_SEC_HI) * 10 ^ 9 + s.rd F.PTP_CLK_SET_NS_NS) * 2 ^ 32))) ∧
  (∀ (v : Word) (s : State), getBits v 4 1 = 0 → s.clkSet = true →
    Gives (.ptpSetReq v) s fun t => t.rd F.PTP_CLK_STATUS_REASON = 0x6F01 ∧ t.ptp = s.ptp ∧ Only [R.PTP_CLK_STATUS] s t) ∧
  (∀ (v : Word) (s : State), getBits v 3 1 = 0 → s.rearmBlocked = false → (s.clkSet = false ∨ getBits v 1 1 = s.ptpSrc ∨ s.srcNear (getBits v 1 1) = true) →
    exec (.ptpRearm v) s = .next ((s.rearm.setReg R.PTP_CLK_CTL (v &&& 7)).servoUpdate)) ∧
  (∀ (v : Word) (s : State), getBits v 4 1 = 1 → s.rearmBlocked = false → (s.clkSet = false ∨ getBits v 1 1 = s.ptpSrc ∨ s.srcNear (getBits v 1 1) = true) →
    exec (.ptpSetReq v) s = .next (let r := (s.rearm.setReg R.PTP_CLK_CTL (v &&& 7)).servoUpdate
      r.stepClock (((r.rd64 F.PTP_CLK_SET_SEC_LO_SEC_LO F.PTP_CLK_SET_SEC_HI_SEC_HI) * 10 ^ 9 + r.rd F.PTP_CLK_SET_NS_NS) * 2 ^ 32))) ∧
  (∀ (v : Word) (s : State), s.rearmBlocked = true →
    Gives (.ptpRearm v) s fun t => t.rd F.PTP_CLK_STATUS_REASON = 0x6F01 ∧ t.ptp = s.ptp ∧ Only [R.PTP_CLK_STATUS] s t) ∧
  (∀ (v : Word) (s : State), (s.clkSet = false ∨ getBits v 1 1 = s.ptpSrc ∨ s.srcNear (getBits v 1 1) = true) →
    exec (.ptpServoSelect v) s = .next ((s.setReg R.PTP_CLK_CTL (v &&& 7)).servoUpdate)) ∧
  (∀ (v : Word) (s : State), s.clkSet = true → getBits v 1 1 ≠ s.ptpSrc → s.srcNear (getBits v 1 1) = false →
    Gives (.ptpServoSelect v) s fun t => t.rd F.PTP_CLK_STATUS_REASON = 0x6F03 ∧ t.ptp = s.ptp ∧ Only [R.PTP_CLK_STATUS] s t)

/-- R75: writes of PTP_CLK_ADJ, taken and refused. -/
def Obligations.AdjWriteRules : Prop :=
  ∀ (v : Word) (s : State),
    (s.rd F.PTP_CLK_CTL_SERVO = 0 → v.toInt.natAbs ≤ 5368709 → Gives (.ptpAdjWrite v) s fun t =>
      t.reg R.PTP_CLK_ADJ = v ∧
      ((t.rd F.PTP_CLK_INCR_LO_FRAC + t.rd F.PTP_CLK_INCR_HI_INT * 2 ^ 32 : Nat) : Int) = 0x280000000 + v.toInt ∧
      Only [R.PTP_CLK_ADJ, R.PTP_CLK_INCR_LO, R.PTP_CLK_INCR_HI] s t) ∧
    (s.rd F.PTP_CLK_CTL_SERVO = 0 → 5368709 < v.toInt.natAbs → Gives (.ptpAdjWrite v) s fun t =>
      t.rd F.PTP_CLK_STATUS_REASON = 0x6F02 ∧ Only [R.PTP_CLK_STATUS] s t) ∧
    (s.rd F.PTP_CLK_CTL_SERVO = 1 → Gives (.ptpAdjWrite v) s fun t =>
      t.rd F.PTP_CLK_STATUS_REASON = 0x6F08 ∧ Only [R.PTP_CLK_STATUS] s t)

/-- R79, R82, R491: the clock's reference triple and the pulse of PPS_OUT. -/
def Obligations.ClockReadAndPps : Prop :=
  (∀ (q : Req) (s : State), Gives (.ptpClkNsRead q) s fun t =>
    t.rdata = BitVec.ofNat 32 (s.ptp.clk / 2 ^ 32) ∧
    t.ptpLatched q = (s.ptp.sec % 2 ^ 32, s.ptp.sec / 2 ^ 32, (s.ptp.sec * 10 ^ 9 + s.ptp.clk / 2 ^ 32) % 2 ^ 32) ∧
    (∀ p : Req, p ≠ q → t.ptpLatched p = s.ptpLatched p) ∧
    t = { s with rdata := t.rdata, ptp := { s.ptp with latch := t.ptp.latch } }) ∧
  (∀ s : State, s.ptp.clk < s.incr → s.clkSet = true → s.on F.PTP_PPS_OUT_EN = true →
    exec .ppsSecond s = .next { s with ptp := { s.ptp with ppsUntil := s.cycle + s.rd F.PTP_PPS_OUT_WIDTH * 400 } }) ∧
  (∀ (v : Word) (s : State), Gives (.ppsOutWrite v) s fun t =>
    t.reg R.PTP_PPS_OUT = v &&& 0x7FF ∧ (s.cycle < s.ptp.ppsUntil → t.ptp.ppsUntil = s.cycle + 1) ∧
    (s.ptp.ppsUntil ≤ s.cycle → t.ptp.ppsUntil = s.ptp.ppsUntil) ∧ Only [R.PTP_PPS_OUT] { s with ptp := t.ptp } t)
/-- R85, R87: the link's commands on HIF_STATUS, HIF_CTL and XLT_STATUS. -/
def Obligations.LinkTraining : Prop :=
  (∀ (cxl : Bool) (width : Fin 3) (rate : Fin 2) (flit cache mem ats : Bool) (pri : Granted 513) (pasid : Granted 21) (s : State),
    let c := Instr.hifLinkTrained cxl width rate flit cache mem ats pri pasid
    (rate.val = 0 ∨ flit = true → ∃ u : State, exec c s = .next (if pri.en then u.retryWaiting else u.priEnd) ∧
      u.rd F.HIF_STATUS_MODE = (if cxl then 1 else 2) ∧ u.rd F.HIF_STATUS_WIDTH = width.val + 1 ∧ u.rd F.HIF_STATUS_RATE = rate.val + 1 ∧
      u.rd F.HIF_STATUS_FLIT256 = bit flit ∧ u.rd F.HIF_STATUS_CACHE = bit (cxl && cache) ∧ u.rd F.HIF_STATUS_MEM = bit (cxl && mem) ∧
      u.on F.XLT_STATUS_ATS_EN = ats ∧ u.on F.XLT_STATUS_PRI_EN = pri.en ∧ u.on F.XLT_STATUS_PASID_EN = pasid.en ∧
      u.rd F.XLT_STATUS_PRI_STOPPED = 0 ∧ (cxl = false → u.mmio = true ∧ u.rd F.HIF_STATUS_DECODER = 0) ∧
      (cxl = true → u.reg R.HIF_CTL = s.reg R.HIF_CTL) ∧
      u.xlt = { s.xlt with alloc := pri.amount, pasidBits := pasid.amount, cache := if ats then s.xlt.cache else [] } ∧
      Only [R.HIF_STATUS, R.HIF_CTL, R.XLT_STATUS] { s with xlt := u.xlt } u) ∧
    (rate.val = 1 → flit = false → exec c s = .next s)) ∧
  (∀ s : State, s.rd F.HIF_STATUS_MODE = 1 → Gives .hdmDecoderCommit s fun t =>
    t.rd F.HIF_STATUS_DECODER = 1 ∧ t.rd F.HIF_STATUS_MODE = 1 ∧ Only [R.HIF_STATUS] s t) ∧
  (∀ s : State, s.rd F.HIF_STATUS_MODE ≠ 1 → exec .hdmDecoderCommit s = .next s)

/-- R91, R93: how doorbell values reach the device. -/
def Obligations.DoorbellPaths : Prop :=
  (∀ (r : Fin 4096) (s : State), s.mmio = false → (s.ring r).reading = false → (s.ring r).pinned = true →
    exec (.dbSnoop r) s = .next (s.setRing r { s.ring r with pinned := false, rung := true })) ∧
  (∀ (r : Fin 4096) (s : State), s.mmio = false → (s.ring r).reading = true →
    exec (.dbSnoop r) s = .next (s.setRing r { s.ring r with again := true })) ∧
  (∀ (r : Fin 4096) (s : State), (s.ring r).rung = true → s.mmio = false → Gives (.dbHoldoffExpired r) s fun t =>
    t.ring r = { s.ring r with reading := true, rung := false } ∧ t.sent.head? = some (.rdShared r) ∧
    (s.on F.XLT_STATUS_ATS_EN = false → t.sent = .rdShared r :: s.sent ∧ RegsSame s t) ∧
    RegsBut [R.XLT_COUNT_HIT, R.XLT_COUNT_MISS] s t ∧ MemSame s t) ∧
  (∀ (r : Fin 4096) (i g : Word) (s : State), (s.ring r).reading = true → (s.ring r).fetchFault = false →
    let u := (s.setRing r { s.ring r with reading := false, again := false, pinned := true }).dbCheck r i.toNat g.toNat
    exec (.dbReadReturn r i g) s = .next (if (s.ring r).again = true ∧ u.mmio = false then u.readDoorbell r else u)) ∧
  (∀ (r : Fin 4096) (v : Word) (s : State), s.mmioTakes r = true →
    exec (.mmioDbIndex r v) s = .next (s.setRing r { s.ring r with latch := v })) ∧
  (∀ (r : Fin 4096) (g : Word) (s : State), s.mmioTakes r = true →
    exec (.mmioDbPresent r g) s = .next (s.dbCheck r (s.ring r).latch.toNat g.toNat)) ∧
  (∀ (r : Fin 4096) (i g : Word) (s : State), s.mmioTakes r = true →
    exec (.mmioDbBoth r i g) s = .next ((s.setRing r { s.ring r with latch := i }).dbCheck r i.toNat g.toNat)) ∧
  (∀ (r : Fin 4096) (i g : Word) (s : State), s.mmioTakes r = false →
    ∀ c ∈ [Instr.mmioDbIndex r i, Instr.mmioDbPresent r g, Instr.mmioDbBoth r i g], Gives c s fun t =>
      t.rd F.HIF_COUNT_MMIO_DROP = min (s.rd F.HIF_COUNT_MMIO_DROP + 1) 65535 ∧ Only [R.HIF_COUNT] s t)

/-- R92: a doorbell value's checks, in order. -/
def Obligations.DoorbellChecksInOrder : Prop :=
  ∀ (r : Fin 4096) (i g : Word) (s : State),
    let d := (i - s.reg (R.RING_r_HOSTIDX r)).toInt
    let host := s.ringKind r = 0 ∨ s.ringKind r = 5
    let fits := (host → (i - s.reg (R.RING_r_HEAD r)).toNat ≤ s.ringSize r) ∧ (¬host → (s.reg (R.RING_r_HEAD r) - i).toNat ≤ s.ringSize r)
    let t := s.dbCheck r i.toNat g.toNat
    (s.ringState r ≠ 0 → g ≠ s.reg (R.RING_r_DBGEN r) →
      t.rd (F.RING_r_COUNT_STALE_DB r) = min (s.rd (F.RING_r_COUNT_STALE_DB r) + 1) 65535 ∧ Only [R.RING_r_COUNT r] s t) ∧
    (s.ringState r ≠ 0 → g = s.reg (R.RING_r_DBGEN r) → d = 0 → t = s) ∧
    (s.ringState r = 1 → g = s.reg (R.RING_r_DBGEN r) → d < 0 →
      t.ringState r = 2 ∧ t.rd (F.RING_r_STATUS_REASON r) = 0xB009 ∧ Only [R.RING_r_STATUS r] s t) ∧
    (s.ringState r = 1 → g = s.reg (R.RING_r_DBGEN r) → 0 < d → ¬fits →
      t.ringState r = 2 ∧ t.rd (F.RING_r_STATUS_REASON r) = 0xB008 ∧ Only [R.RING_r_STATUS r] s t) ∧
    (s.ringState r ≠ 0 → g = s.reg (R.RING_r_DBGEN r) → 0 < d → fits → host →
      t.reg (R.RING_r_HOSTIDX r) = i ∧ Only [R.RING_r_HOSTIDX r] s t) ∧
    (s.ringState r = 1 → g = s.reg (R.RING_r_DBGEN r) → 0 < d → fits → ¬host →
      t = (let a := s.wr (F.RING_r_HOSTIDX_HOSTIDX r) i.toNat
        (if s.ringKind r = 1 then a.drainHeld r 514 else a).spillDrain r 65536))

/-- R97, R98: the three ways an entry is fetched, and the stall of one that does not arrive. -/
def Obligations.DescriptorFetch : Prop :=
  (∀ (r : Fin 4096) (ws : List Word) (s : State) (c : Instr), s.canFetch r = true → ws.length = 16 →
    (c = .descFetch r ws ∨ (c = .descPoll r ws ∧ s.mmio = true ∧ (s.ring r).stuck = true) ∨
      (c = .descLineInvalidated r ws ∧ s.mmio = false ∧ (s.ring r).stuck = true)) →
    let i := s.rd (F.RING_r_HEAD_HEAD r)
    let wb := s.rd64 (F.RING_r_WB_LO_WB_LO r) (F.RING_r_WB_HI_WB_HI r)
    (fieldAt ws 0 8 8 = s.gen r i → s.descCheck r ws = 0 → Gives c s fun t =>
      t.rd (F.RING_r_HEAD_HEAD r) = (i + 1) % 2 ^ 32 ∧ t.rd (F.RING_r_STATUS_GEN_STALL r) = 0 ∧
      (t.ring r).fetched = (s.ring r).fetched ++ [⟨i, ws⟩] ∧ (t.ring r).stuck = false ∧
      RegsBut [R.RING_r_HEAD r, R.RING_r_STATUS r, R.XLT_COUNT_HIT, R.XLT_COUNT_MISS] s t ∧ t.hbm = s.hbm ∧
      ∀ a, a < wb ∨ wb + 8 ≤ a → memRead t.host.mem a = memRead s.host.mem a) ∧
    (fieldAt ws 0 8 8 ≠ s.gen r i → Gives c s fun t =>
      (t.ring r).stuck = true ∧ (t.ring r).fetched = (s.ring r).fetched ∧
      RegsBut [R.XLT_COUNT_HIT, R.XLT_COUNT_MISS] s t ∧ MemSame s t)) ∧
  (∀ (r : Fin 4096) (s : State), s.canFetch r = true → (s.ring r).stuck = true → s.rd (F.RING_r_STATUS_GEN_STALL r) = 0 →
    Gives (.genStallTimeout r) s fun t => t.rd (F.RING_r_STATUS_GEN_STALL r) = 1 ∧
      t.rd F.HIF_COUNT_GEN_STALLS = min (s.rd F.HIF_COUNT_GEN_STALLS + 1) 65535 ∧ Only [R.RING_r_STATUS r, R.HIF_COUNT] s t)

/-- R95, R96, R121: the dispatch of NOP, DMA_H2D and DMA_D2H and the end of a copy. -/
def Obligations.NopAndDma : Prop :=
  (∀ (r : Fin 4096) (s : State) (d : Desc), s.dispatchable r 0x01 = some d → (∀ i, 6 ≤ i → i ≤ 14 → d.words.getD i 0 = 0) →
    exec (.nop r) s = .next ((s.popFetched r).complete r d.idx (dTag d.words) (dNocpl d.words) 0 0 Wm.zero)) ∧
  (∀ (r : Fin 4096) (s : State) (d : Desc) (c : Instr),
    ((c = .dmaH2d r ∧ s.dispatchable r 0x03 = some d) ∨ (c = .dmaD2h r ∧ s.dispatchable r 0x04 = some d)) →
    (∀ i, 11 ≤ i → i ≤ 14 → d.words.getD i 0 = 0) →
    (s.dmaCheck d = 0 → Gives c s fun t =>
      t.job (jobKey r d.idx) = some ⟨r, d.idx, d.words, .running, Wm.zero, none, false, none, none, []⟩ ∧
      (t.ring r).fetched = (s.ring r).fetched.tail ∧ RegsSame s t ∧ MemSame s t) ∧
    (s.dmaCheck d ≠ 0 → exec c s = .next ((s.popFetched r).refuseDesc r d 0xB010))) ∧
  (∀ (r : Fin 4096) (idx : Word) (data : List Byte) (s : State) (j : Job) (c : Nat),
    s.job (descKey r idx) = some j → j.phase = .running → j.faulted = false → s.hbmOf (dTarget j.words) = some c →
    let a := j.wm.bytes
    let ends := fun (n outcome code : Nat) =>
      let x := s.xlateRange (s.ringPasid j.ring) (dmaHost j.words + a) (n - a)
      (dOpcode j.words = 0x03 → exec (.dmaComplete r idx data) s =
        .next (((x.hbmWrite c (dmaOff j.words + a) ((data ++ List.replicate (n - a - data.length) 0).take (n - a))).freePark (.desc r idx)).endJob
          (descKey r idx) outcome code ⟨0, n, (dmaOff j.words + n) % 2 ^ 32, n⟩)) ∧
      (dOpcode j.words = 0x04 → exec (.dmaComplete r idx data) s =
        .next (((x.hostWrite (dmaHost j.words + a) (x.hbmRead c (dmaOff j.words + a) (n - a))).freePark (.desc r idx)).endJob
          (descKey r idx) outcome code ⟨0, n, (dmaOff j.words + n) % 2 ^ 32, n⟩))
    (j.stop = none → ends (dmaLen j.words) 0 0) ∧
    (∀ outcome code, j.stop = some (outcome, code) → ends (pageStop (dmaHost j.words) a (dmaLen j.words)) outcome code))

/-- R107: the state machine of a ring as EN drives it. -/
def Obligations.RingEnableDisable : Prop :=
  (∀ (r : Fin 4096) (s : State) (q : Nat), s.ringState r = 0 → s.ringCheck r = 0 → s.freeQueue = some q →
    Gives (.ringEnable r) s fun t =>
      t.ringState r = 1 ∧ t.rd (F.RING_r_CTL_EN r) = 1 ∧ t.rd (F.RING_r_HEAD_HEAD r) = 0 ∧ t.rd (F.RING_r_HOSTIDX_HOSTIDX r) = 0 ∧
      (t.ring r).queue = some q ∧ t.rd (F.SCH_Qq_STATUS_RING 0 q) = 1 ∧ (t.ring r).fetched = [] ∧
      (s.mmio = true → t.sent = s.sent) ∧ (s.mmio = false → t.sent.head? = some (.rdShared r) ∧ (t.ring r).reading = true) ∧
      RegsBut [R.SCH_Qq_STATUS 0 q, R.RING_r_HEAD r, R.RING_r_HOSTIDX r, R.RING_r_CTL r, R.RING_r_STATUS r,
        R.XLT_COUNT_HIT, R.XLT_COUNT_MISS] s t ∧ MemSame s t) ∧
  (∀ (r : Fin 4096) (s : State), s.ringState r = 0 → s.ringCheck r ≠ 0 → Gives (.ringEnable r) s fun t =>
    t.rd (F.RING_r_STATUS_REASON r) = s.ringCheck r ∧ t.ringState r = 0 ∧ Only [R.RING_r_STATUS r] s t) ∧
  (∀ (r : Fin 4096) (s : State), s.ringState r = 3 → Gives (.ringEnable r) s fun t =>
    t.rd (F.RING_r_STATUS_REASON r) = 0xB017 ∧ t.ringState r = 3 ∧ Only [R.RING_r_STATUS r] s t) ∧
  (∀ (r : Fin 4096) (s : State), s.ringState r = 1 → s.ringKind r = 1 → s.cplInUse r = true → Gives (.ringDisable r) s fun t =>
    t.rd (F.RING_r_STATUS_REASON r) = 0xB006 ∧ t.ringState r = 1 ∧ Only [R.RING_r_STATUS r] s t) ∧
  (∀ (r : Fin 4096) (s : State), (s.ringState r = 1 ∧ ¬(s.ringKind r = 1 ∧ s.cplInUse r = true)) ∨ s.ringState r = 2 →
    exec (.ringDisable r) s = .next (s.ringDrain r)) ∧
  (∀ (r : Fin 4096) (s : State), s.ringState r = 3 → s.ringBusy r = false → s.recordsOwed r = false → (s.ring r).held = [] → (s.ring r).batch = [] →
    ((s.ring r).gapLost = 0 ∨ s.ringKind r ≠ 1) → Gives (.ringDrainDone r) s fun t =>
      t = s.ringOff r ∧ t.ringState r = 0 ∧ (t.ring r).queue = none ∧ (t.ring r).pinned = false) ∧
  (∀ (r : Fin 4096) (s : State), s.ringState r = 3 → s.ringKind r = 1 → exec (.ringDrainStall r) s =
    .next (let b := s.closeBatch r
      let h := (b.ring r).held.foldl (fun a c => a.dropRec r c) (b.setRing r { b.ring r with held := [] })
      (if (b.ring r).gapLost = 0 then h else h.inc (F.RING_r_COUNT_LOST r)).ringOff r))

/-- R101, R105, R106: batches and MSI-X signals. -/
def Obligations.BatchesAndSignals : Prop :=
  (∀ (r : Fin 4096) (s : State), s.ringKind r = 1 → (s.ring r).batch ≠ [] → Gives (.batchTimeout r) s fun t =>
    t = s.closeBatch r ∧ t.rd (F.RING_r_HEAD_HEAD r) = (s.rd (F.RING_r_HEAD_HEAD r) + (s.ring r).batch.length + 1) % 2 ^ 32 ∧
    (t.ring r).batch = [] ∧ (t.ring r).seq = ((s.ring r).seq + 1) % 2 ^ 32 ∧ t.hbm = s.hbm) ∧
  (∀ (r : Fin 4096) (s : State), s.ringKind r ≠ 1 → (s.ring r).wbDue = true → exec (.batchTimeout r) s = .next (s.writeBack r)) ∧
  (∀ (n : Fin 4) (s : State), s.tlRunning n = true → exec (.batchFlushTick n) s = .next (s.forRange 4096 fun r x =>
    if x.ringKind r = 1 ∧ x.ringState r ≠ 0 ∧ x.on (F.RING_r_BATCH_FLUSH_EN r) = true ∧ x.rd (F.RING_r_CFG_TL r) = n.val ∧
      x.rd (F.RING_r_FLUSH_TICK r) = stampTick (x.now n) then x.closeBatch r else x)) ∧
  (∀ (v : Fin 2048) (s : State) (a : Option Nat) (e : Nat), mapGet (fun _ => (none, none)) s.host.vecs v = (a, some e) →
    Gives (.irqGapExpired v) s fun t =>
      mapGet (fun _ => (none, none)) t.host.vecs v = (some s.cycle, none) ∧
      (s.vecMasked v = false → t.sent = .msix v :: s.sent ∧ RegsSame s t) ∧
      (s.vecMasked v = true → t.rd (pendingBit v) = 1 ∧ t.sent = s.sent ∧ RegsBut [(pendingBit v).reg] s t) ∧ MemSame s t)
/-- R117 to R120, R124: what happens to work whose access faults, over the named operations of the translation unit. -/
def Obligations.FaultedWork : Prop :=
  (∀ (w : Work) (a : Nat) (s : State), s.workRuns w = true →
    let x := s.inc F.XLT_COUNT_FAULT_FAULTS
    (workParks w = true →
      (s.priOff = false → exec (.xltFault w a) s = .next ((x.setFaulted w true).fault w (a % 2 ^ 64 / 4096))) ∧
      (s.priOff = true → exec (.xltFault w a) s = .next (x.stopWork w 1 0xA807)) ∧
      exec (.accessError w) s = .next (s.stopWork w 1 0xA808)) ∧
    (workParks w = false →
      (s.priOff = false → exec (.xltFault w a) s = .next ((x.recStuck w).fault w (a % 2 ^ 64 / 4096))) ∧
      (s.priOff = true → exec (.xltFault w a) s = .next (x.recStuck w)) ∧
      exec (.accessError w) s = .next (s.recStuck w))) ∧
  (∀ (r : Fin 4096) (s : State), s.workRuns (.out r) = true → exec (.accessError (.out r)) s =
    .next ((s.setFaulted (.out r) true).wr (F.XLT_SPILLr_STATUS_STATE r) (max 1 (s.spillState r)))) ∧
  (∀ (r : Fin 4096) (i : Word) (wm v : Wm) (data : List Byte) (s : State) (j : Job), s.job (descKey r i) = some j → j.phase = .running →
    s.jobWm j wm = some v →
    let u := s.jobMoves (descKey r i) j v data
    ∀ x : Job, u.job (descKey r i) = some x → x.phase = .running → (j.faulted = true →
      (x.stop = none → x.faulted = true → exec (.taskPark (.desc r i) ⟨wm, data⟩) s = .next (u.park (.desc r i) v))) ∧
    (x.stop = none → x.faulted = false →
      exec (.taskSafePoint (.desc r i) ⟨wm, data⟩) s = .next (u.setJob (descKey r i) (some { x with wm := v }))) ∧
    (∀ o c, x.stop = some (o, c) →
      exec (.taskSafePoint (.desc r i) ⟨wm, data⟩) s = .next ((u.freePark (.desc r i)).endJob (descKey r i) o c v))) ∧
  (∀ (r : Fin 4096) (i : Word) (s : State) (j : Job), s.job (descKey r i) = some j → j.ring = r.val → j.idx = i.toNat → j.phase = .running → j.stop = none →
    dDeadline j.words ≠ 0 → s.reachedOn (dTl j.words) (dDeadline j.words) = true →
    exec (.descDeadline r i) s = .next (s.setJob (descKey r i) (some { j with stop := some (2, deadlineCode (dOpcode j.words)) }))) ∧
  (∀ (d : Fin 8) (t : Fin 65536) (wm v : Wm) (data : List Byte) (s : State),
    let x := s.task d t
    (x.state = 4 → consHw d x.cons = false → exec (.taskSafePoint (.task d t) ⟨wm, data⟩) s = .next s) ∧
    (x.state = 4 → consHw d x.cons = true → taskWm x wm = some v →
    let u := s.decReads x v.bytes
    (x.creq = false → x.stop = none → x.faulted = true → exec (.taskPark (.task d t) ⟨wm, data⟩) s = .next (u.park (.task d t) v)) ∧
    (x.creq = true → exec (.taskSafePoint (.task d t) ⟨wm, data⟩) s = .next (u.endTask d t 6 4 0 v)) ∧
    (x.creq = false → ∀ o c, x.stop = some (o, c) → exec (.taskSafePoint (.task d t) ⟨wm, data⟩) s = .next (u.endTask d t 7 o c v)) ∧
    (x.creq = false → x.stop = none → x.faulted = false →
      exec (.taskSafePoint (.task d t) ⟨wm, data⟩) s = .next ((u.setTask d t { x with wm := v }).preempt d t)))) ∧
  (∀ (d : Fin 8) (t : Fin 65536) (s : State), (s.task d t).state = 5 → exec (.parkHoldExpired (.task d t)) s = .next (s.leaveSlot d t)) ∧
  (∀ (r : Fin 4096) (i : Word) (s : State), s.workParked (.desc r i) = true →
    exec (.parkHoldExpired (.desc r i)) s = .next (s.holdInHbm (.desc r i))) ∧
  (∀ (i : Fin 512) (c : PrCode) (s : State) (p : Prg), s.prg i = some p → p.sent = true →
    let ws := p.waiters.filter fun x => s.waits x.1 x.2.1
    let a := (s.setPrg i none).showPri
    exec (.pageResponse i c) s = .next (if ws = [] then a.inc F.XLT_COUNT_FAULT_ORPHAN
      else ws.foldl (fun b x => if b.waits x.1 x.2.1 then b.respond x.1 x.2.2 c else b) a).retryWaiting) ∧
  (∀ (w : Work) (s : State), workSingle w = false → s.workParked w = true → s.workDeadline w = 0 →
    exec (.priTimeout w) s = .next (s.stopWork w 2 0xA806)) ∧
  (∀ s : State, s.allWaiting = [] → Gives .priStopped s fun t =>
    t.rd F.XLT_STATUS_PRI_STOPPED = 1 ∧ t.xlt = { s.xlt with prgs := [], waiting := [] } ∧ t.rd F.XLT_PRI_OUTSTANDING = 0 ∧
      (s.xlt.prgs = [] → t.sent = s.sent) ∧ Only [R.XLT_STATUS, R.XLT_PRI] { s with xlt := t.xlt, sent := t.sent } t)

/-- R115: what an invalidation, its completion and a flush do to the cache. -/
def Obligations.TranslationInvalidation : Prop :=
  (∀ (p : Option (Fin 1048576)) (a n : Nat) (s : State), Gives (.atsInvalidation p a n) s fun t =>
    let q := p.map (·.val)
    (∀ x ∈ t.xlt.cache, ∀ e ∈ x.2, e.inRange q a n = false) ∧
    (∀ x ∈ s.xlt.cache, ∀ e ∈ x.2, e.inRange q a n = false → ∃ y ∈ t.xlt.cache, y.1 = x.1 ∧ e ∈ y.2) ∧
    t.xlt.invals = s.xlt.invals + 1 ∧
    t.rd F.XLT_INVAL_RECEIVED = min (s.rd F.XLT_INVAL_RECEIVED + 1) (2 ^ F.XLT_INVAL_RECEIVED.width - 1) ∧
    Only [F.XLT_INVAL_RECEIVED.reg] { s with xlt := t.xlt } t) ∧
  (∀ (slow : Bool) (s : State), 0 < s.xlt.invals → Gives (.atsInvalComplete slow) s fun t =>
    t.xlt.invals = s.xlt.invals - 1 ∧ t.sent = .invalDone :: s.sent ∧
    t.rd F.XLT_INVAL_SLOW = (if slow then min (s.rd F.XLT_INVAL_SLOW + 1) (2 ^ F.XLT_INVAL_SLOW.width - 1) else s.rd F.XLT_INVAL_SLOW) ∧
    RegsBut [F.XLT_INVAL_SLOW.reg] s t ∧ MemSame s t) ∧
  (∀ s : State, exec .xltFlush s = .next { s with xlt := { s.xlt with cache := [] } })
/-- R134 to R139: sets, the requester's window on them, and writes to ST registers. -/
def Obligations.StagedAndDirectWrites : Prop :=
  (∀ (q : Req) (i : Fin 8) (s : State), s.setState i = 0 → Gives (.stgOpen q false i) s fun t =>
    t.setState i = 1 ∧ t.wselSet q = i ∧ t.wselOpen q = s.wselOpen q ∧ (∀ p, p ≠ q → t.wsel p = s.wsel p) ∧
    Only [R.STG_SETs_STATUS i] { s with stg := t.stg } t) ∧
  (∀ (q : Req) (i : Fin 8) (s : State), s.setState i ≠ 0 → Gives (.stgOpen q false i) s fun t =>
    t.rd F.STG_STATUS_REASON = 0xE002 ∧ Only [R.STG_STATUS, R.STG_SETs_STATUS i] s t) ∧
  (∀ (q : Req) (i k : Fin 8) (s : State), s.setState i = 0 → (∀ j, j < i → s.setState j ≠ 0) →
    exec (.stgOpen q true k) s = exec (.stgOpen q false i) s) ∧
  (∀ (q : Req) (k : Fin 8) (s : State), (∀ j : Fin 8, s.setState j ≠ 0) → Gives (.stgOpen q true k) s fun t =>
    t.rd F.STG_STATUS_REASON = 0xE001 ∧ Only [R.STG_STATUS] s t) ∧
  (∀ (q : Req) (v : Word) (s : State), getBits v 3 1 = 0 ∨ s.setState (getBits v 0 3) = 1 → Gives (.stgWselWrite q v) s fun t =>
    t.wsel q = v &&& 0xF ∧ (∀ p, p ≠ q → t.wsel p = s.wsel p) ∧ t = { s with stg := { s.stg with wsel := t.stg.wsel } }) ∧
  (∀ (q : Req) (a : Nat) (v : Word) (s : State), s.isSt a = true → s.wselOpen q = true → s.stageCheck (s.wselSet q) a = 0 →
    Gives (.stagedWrite q a v) s fun t => t.claim a = some (s.wselSet q, maskedIn a (s.shadow a) 0xFFFFFFFF v) ∧
      (∀ b, b ≠ a → t.claim b = s.claim b) ∧ t = { s with stg := { s.stg with claims := t.stg.claims } }) ∧
  (∀ (q : Req) (a : Nat) (v x : Word) (s : State) (p : Nat), s.isSt a = true → s.wselOpen q = true → s.setState (s.wselSet q) = 1 →
    s.claim a = some (p, x) → p ≠ s.wselSet q → Gives (.stagedWrite q a v) s fun t =>
      t.rd F.STG_STATUS_REASON = 0xE004 ∧ Only [R.STG_STATUS, R.STG_SETs_STATUS (s.wselSet q)] s t) ∧
  (∀ (q : Req) (a : Nat) (v : Word) (s : State), s.isSt a = true → s.wselOpen q = true → s.setState (s.wselSet q) ≠ 1 →
    Gives (.stagedWrite q a v) s fun t =>
      t.rd F.STG_STATUS_REASON = 0xE002 ∧ Only [R.STG_STATUS, R.STG_SETs_STATUS (s.wselSet q)] s t) ∧
  (∀ (q : Req) (a : Nat) (v : Word) (s : State), s.isSt a = true → s.wselOpen q = false → s.claim a = none →
    let w := maskedIn a (s.reg a) 0xFFFFFFFF v
    (s.ownerOn (s.owner a) = false → ¬((s.owner a).en = true ∧ getBits w 0 1 = 1) → exec (.directWrite q a v) s = .next (s.setReg a w)) ∧
    (s.ownerOn (s.owner a) = true → Gives (.directWrite q a v) s fun t =>
      t.rd F.STG_STATUS_REASON = 0xE003 ∧ t.rd F.STG_COUNT_DIRECT_DROP = min (s.rd F.STG_COUNT_DIRECT_DROP + 1) 65535 ∧ t.stg = s.stg ∧
      RegsBut (R.STG_STATUS :: R.STG_COUNT :: (s.owner a).status) s t) ∧
    (s.ownerOn (s.owner a) = false → (s.owner a).en = true → getBits w 0 1 = 1 → Gives (.directWrite q a v) s fun t =>
      t.rd F.STG_STATUS_REASON = 0xE006 ∧ t.stg = s.stg ∧ RegsBut (R.STG_STATUS :: (s.owner a).status) s t)) ∧
  (∀ (q : Req) (a : Nat) (v x : Word) (s : State) (p : Nat), s.isSt a = true → s.wselOpen q = false → s.claim a = some (p, x) →
    Gives (.directWrite q a v) s fun t => t.rd F.STG_STATUS_REASON = 0xE004 ∧ t.stg = s.stg ∧
      RegsBut (R.STG_STATUS :: R.STG_SETs_STATUS p :: (s.owner a).status) s t) ∧
  (∀ (q : Req) (v : Word) (s : State), getBits v 3 1 = 1 → s.setState (getBits v 0 3) ≠ 1 → Gives (.stgWselWrite q v) s fun t =>
    t.rd F.STG_STATUS_REASON = 0xE002 ∧ t.stg = s.stg ∧ Only [R.STG_STATUS, R.STG_SETs_STATUS (getBits v 0 3)] s t)

/-- R134, R136, R140 to R142: the commit of a set. -/
def Obligations.CommitOfASet : Prop :=
  (∀ (q : Req) (i : Fin 8) (n : Fin 4) (s : State), s.commitFails i n s.stgStamp = none → Gives (.stgCommit q i n) s fun t =>
    t.setState i = 2 ∧ t.rd (F.STG_SETs_STATUS_TL i) = n ∧ t.setStamp i = s.stgStamp ∧ t.stg = { s.stg with armed := s.stg.armed ++ [i.val] } ∧
    Only [R.STG_SETs_STATUS i, R.STG_SETs_STAMP_LO i, R.STG_SETs_STAMP_HI i] { s with stg := t.stg } t) ∧
  (∀ (q : Req) (i : Fin 8) (n : Fin 4) (s : State) (c a : Nat) (st : List Nat), s.commitFails i n s.stgStamp = some (c, a, st) →
    Gives (.stgCommit q i n) s fun t => t.rd F.STG_STATUS_REASON = c % 65536 ∧ t.setState i = s.setState i ∧ t.stg = s.stg ∧
      RegsBut (R.STG_STATUS :: R.STG_COUNT :: R.STG_SETs_STATUS i :: st) s t) ∧
  (∀ (q : Req) (i : Fin 8) (s : State), s.abortCheck i = 0 → s.waitingFor i = none → Gives (.stgAbort q i) s fun t =>
    t.setState i = 0 ∧ t.claimsOf i = [] ∧ t.groveRecsOf i = [] ∧ i.val ∉ t.stg.armed ∧ Only [R.STG_SETs_STATUS i] { s with stg := t.stg } t) ∧
  (∀ (i : Fin 8) (s : State), s.setDue i = true → s.waitingFor i = none →
    let cs := (s.claimsOf i).filter fun x => !s.rst.needReset.contains (x.1 / 0x4000000)
    let n := s.rd (F.STG_SETs_STATUS_TL i)
    exec (.commitApply i) s = .next (s.committed
      ((((s.overlay cs (s.groveRecsOf i)).releaseSet i).incWrap (F.STG_SETs_APPLIED_COUNT i)).event pStg 0xEC01 0xFFFF i cs.length (some n))
      (cs.map (·.1)) n (s.setStamp i))) ∧
  (∀ (i : Fin 8) (s : State) (a : Nat),
    (∀ v, (s.claimsOf i).reverse.lookup a = some v → (s.withSet i).reg a = v) ∧
    ((s.claimsOf i).lookup a = none → (s.withSet i).reg a = s.reg a))

/-- R143 to R148: a capsule from its dispatch to its outcome. -/
def Obligations.CapsuleLife : Prop :=
  (∀ (r : Fin 4096) (s : State) (d : Desc), s.dispatchable r 0x02 = some d →
    ((s.popFetched r).capCheck r d.words = 0 → capResume d.words = false → (s.ring r).capHeld = none → Gives (.capsule r) s fun t =>
      t.job (jobKey r d.idx) =
        some ⟨r, d.idx, d.words, if 0 < (s.popFetched r).capFree then .running else .waiting, Wm.zero, none, false, none, none, []⟩ ∧
      RegsSame s t ∧ MemSame s t) ∧
    ((s.popFetched r).capCheck r d.words = 0 → capResume d.words = true → Gives (.capsule r) s fun t =>
      t.job (jobKey r d.idx) = some ⟨r, d.idx, d.words, .running, capWm (capOffset d.words), none, false, none, none, (s.ring r).capData⟩ ∧
      (t.ring r).capHeld = none ∧ (t.ring r).capData = [] ∧ RegsSame s t ∧ MemSame s t) ∧
    ((s.popFetched r).capCheck r d.words = 0 → exec (.capsule r) s = .next ((s.popFetched r).capBegin r d)) ∧
    (∀ c, (s.popFetched r).capCheck r d.words = c → c ≠ 0 →
      exec (.capsule r) s = .next (((s.popFetched r).capRefused c none []).refuseDesc r d c))) ∧
  (∀ (r : Fin 4096) (s : State) (k : Nat) (j : Job), s.capWaiting r = some (k, j) → 0 < s.capFree →
    exec (.capsuleStart r) s = .next (s.setJob k (some { j with phase := .running }))) ∧
  (∀ (r : Fin 4096) (idx : Word) (image : List Word) (s : State) (j : Job),
    s.job (descKey r idx) = some j → j.phase = .running → j.faulted = false → dOpcode j.words = 0x02 → j.stop = none →
    let n := capOffset j.words + capLen j.words
    let im := bytesWords (capBuf j n (wordsBytes image))
    let b := s.capReads j n
    (∀ u o c, b.image im n = (u, some (o, c)) →
      exec (.capsuleReadComplete r idx image) s = .next (u.endJob (descKey r idx) o c (if o = 0 then capWm n else Wm.zero))) ∧
    (∀ u, b.image im n = (u, none) → exec (.capsuleReadComplete r idx image) s =
      .next (u.setJob (descKey r idx) (some { j with phase := .armed, set := some (imgSet im), wm := capWm n }))) ∧
    (crc32c (wordsBytes (im.set 7 0)) ≠ wordAt im 7 → exec (.capsuleReadComplete r idx image) s =
      .next ((b.capRefused 0xE007 none []).endJob (descKey r idx) 3 0xE007 Wm.zero))) ∧
  (∀ (r : Fin 4096) (idx : Word) (image : List Word) (s : State) (j : Job) (o c : Nat),
    s.job (descKey r idx) = some j → j.phase = .running → j.faulted = false → dOpcode j.words = 0x02 → j.stop = some (o, c) →
    let m := capOffset j.words + pageStop (word64At j.words 6) (j.wm.bytes - capOffset j.words) (capLen j.words)
    exec (.capsuleReadComplete r idx image) s = .next
      (((s.capReads j m).setJob (descKey r idx) (some { j with buf := capBuf j m (wordsBytes image) })).endJob (descKey r idx) o c (capWm m))) ∧
  (∀ (j : Job) (n m : Nat) (data : List Byte), j.buf.length = j.wm.bytes → j.wm.bytes ≤ n → data.length = n - j.wm.bytes → m ≤ j.wm.bytes →
    capBuf j n data = j.buf ++ data ∧ (capBuf j n data).take m = j.buf.take m) ∧
  (∀ (s : State) (j : Job) (o : Nat) (w : Wm), j.ring < 4096 → dOpcode j.words = 0x02 → o = 1 ∨ o = 2 → j.phase = .running ∨ j.phase = .parked →
    w.bytes ≤ j.buf.length →
    ((s.holdImage j o w).ring j.ring).capHeld = some w.bytes ∧ ((s.holdImage j o w).ring j.ring).capData = j.buf.take w.bytes) ∧
  (∀ (r : Fin 4096) (s : State) (n : Nat), (s.ring r).capHeld = some n →
    exec (.capsuleHoldExpired r) s = .next ((s.setRing r { s.ring r with capHeld := none, capData := [] }).event pStg 0xEC02 0xFFFF r n))
/-- R157, R163, R166, R167: the host's task descriptors and the wake. -/
def Obligations.TaskSubmission : Prop :=
  (∀ (r : Fin 4096) (s : State) (x : Desc) (d : Nat), s.dispatchable r 0x30 = some x → s.submitCheck x = 0 →
    s.schedOf (dTarget x.words) = some d → fieldAt x.words 6 16 16 = 0 → fieldAt x.words 7 23 9 = 0 →
    (∀ i, 12 ≤ i → i ≤ 14 → x.words.getD i 0 = 0) →
    let l := subDlist x.words
    let k := subTask x.words
    (s.wakeLater d l (subWake x.words) = true → Gives (.taskSubmit r) s fun t =>
      t.task d k = { Task.idle with
        state := 1, level := subLevel x.words, dlist := l, desc := true, dtl := dTl x.words, queue := subQueue x.words
        epoch := s.rd (F.SCH_Qq_STATUS_EPOCH d (subQueue x.words)), wake := subWake x.words, deadline := dDeadline x.words
        words := x.words, arg0 := x.words.getD 10 0, arg1 := x.words.getD 11 0, ring := r, idx := x.idx, htag := dTag x.words
        nocpl := dNocpl x.words, stream := dStream x.words } ∧
      (t.delayList d l).Perm (k :: s.delayList d l) ∧ RegsSame s t ∧ MemSame s t) ∧
    (s.wakeLater d l (subWake x.words) = false → Gives (.taskSubmit r) s fun t => t = (s.popFetched r).submit r x)) ∧
  (∀ (r : Fin 4096) (s : State) (x : Desc), s.dispatchable r 0x30 = some x → s.submitCheck x ≠ 0 →
    fieldAt x.words 6 16 16 = 0 → fieldAt x.words 7 23 9 = 0 → (∀ i, 12 ≤ i → i ≤ 14 → x.words.getD i 0 = 0) →
    exec (.taskSubmit r) s = .next ((s.popFetched r).refuseDesc r x (s.submitCheck x))) ∧
  (∀ (r : Fin 4096) (s : State) (x : Desc) (d : Nat), s.dispatchable r 0x31 = some x → s.cancelCheck x = 0 →
    s.schedOf (dTarget x.words) = some d → fieldAt x.words 6 16 16 = 0 → fieldAt x.words 7 15 17 = 0 →
    (∀ i, 8 ≤ i → i ≤ 14 → x.words.getD i 0 = 0) → exec (.taskCancel r) s =
      .next (((s.popFetched r).complete r x.idx (dTag x.words) (dNocpl x.words) 0 0 Wm.zero).cancelTask d (subTask x.words))) ∧
  (∀ (s : State) (d k : Nat), (s.task d k).state = 4 → s.justStarted (s.task d k) = false →
    (s.cancelTask d k).task d k = { s.task d k with creq := true } ∧ RegsSame s (s.cancelTask d k)) ∧
  (∀ (s : State) (d k : Nat), (s.task d k).state = 4 → s.justStarted (s.task d k) = true → s.cancelTask d k = s.unstart d k) ∧
  (∀ (s : State) (d k : Nat), (s.task d k).state ≠ 4 → (s.task d k).live = true → s.justStarted (s.task d k) = false → s.cancelTask d k =
    if (s.task d k).state = 5 ∨ s.justAnswered (s.task d k) = true then s.endTask d k 6 4 0 (s.task d k).wm
    else (s.inc (F.SCH_COUNT_A_CANCEL_UNRUN d)).endTask d k 6 4 0 Wm.zero) ∧
  (∀ (d : Fin 8) (l : Fin 5) (s : State) (k : Nat), s.dueWake d l = some k →
    exec (.taskWake d l) s = .next (((((s.setDelay d l (s.delayList d l).tail).joinTail d k l).refill d
      (s.taskBind d (s.task d k)))).rowWoke d k))

/-- R157, R161 to R165, R168: what consumers, deadlines and revocations do to tasks. -/
def Obligations.TaskExecution : Prop :=
  (∀ (d : Fin 8) (k : Fin 256) (s : State) (t : Nat), s.curOf d k = none → s.nextOf d k = some t → (s.task d t).stop = none →
    s.behind d t = false →
    let u := (s.setCur d k (some t)).setNext d k none
    let v := (u.setTask d t { u.task d t with state := 4, startAt := s.cycle + 1 }).refill d (u.taskBind d (u.task d t))
    exec (.taskStart d k) s = .next (match v.runningOn d k with | some t => v.taskBegins d k t | none => v)) ∧
  (∀ (d : Fin 8) (k : Fin 256) (s : State) (t : Nat), s.curOf d k = none → s.nextOf d k = some t → (s.task d t).stop.isSome = true →
    exec (.taskStart d k) s = .next s) ∧
  (∀ (d : Fin 8) (k : Fin 256) (s : State) (t : Nat), s.curOf d k = none → s.nextOf d k = some t → (s.task d t).stop = none → s.behind d t = true →
    s.startTask d k = ((s.setNext d k none).joinHead d t).refill d (s.taskBind d (s.task d t))) ∧
  (∀ (d : Fin 8) (k : Fin 256) (s : State) (t : Nat), s.curOf d k = some t → s.afhia d k = true → consHw d k = true → (s.task d t).state = 3 →
    (s.task d t).stop = none →
    let v := ((s.setTask d t { s.task d t with state := 4, startAt := s.cycle + 1 }).wr (F.SCH_CONSk_STATUS_IRQ d k) 0).refill d (s.taskBind d (s.task d t))
    exec (.taskStart d k) s = .next (match v.runningOn d k with | some t => v.taskBegins d k t | none => v)) ∧
  (∀ (d : Fin 8) (k : Fin 256) (o : Fin 3) (c : Fin 65536) (wm : Wm) (s : State) (t : Nat), consHw d k = true → s.runningOn d k = some t →
    let w := endWm (s.task d t) o wm
    let u := (s.decReads (s.task d t) w.bytes).endTask d t 7 o c w
    let x := u.task d t
    exec (.taskEnd d k o c wm) s =
      .next (if k = 12 ∧ d ≠ 0 ∧ x.desc = true ∧ dOpcode x.words = 0x20 then u.decTaskEnd d x (o == 0) else u)) ∧
  (∀ (x : Task) (o : Nat) (wm : Wm), dOpcode x.words ≠ 0x20 → endWm x o wm = wm) ∧
  (∀ (x : Task) (o : Nat) (wm : Wm), dOpcode x.words = 0x20 →
    (endWm x o wm).bytes ≤ fieldAt x.words 8 0 25 ∧ (endWm x o wm).lastOff = (endWm x o wm).bytes ∧
    (o = 0 → (endWm x o wm).bytes = fieldAt x.words 8 0 25 ∧ (endWm x o wm).retry = fieldAt x.words 8 0 25)) ∧
  (∀ (d : Fin 8) (k : Fin 256) (s : State) (t : Nat), s.curOf d k = some t → s.afhia d k = true → (s.task d t).state = 3 → (s.task d t).stop = none →
    exec (.schConsTake d k) s = .next
      { ((s.setTask d t { s.task d t with state := 4, startAt := s.cycle + 1 }).wr (F.SCH_CONSk_STATUS_IRQ d k) 0).refill d (s.taskBind d (s.task d t)) with
        rdata := BitVec.ofNat 32 (t + 65536) }) ∧
  (∀ (d : Fin 8) (k : Fin 256) (s : State) (t : Nat), s.curOf d k = some t → s.afhia d k = true → (s.task d t).state = 3 → (s.task d t).stop = none →
    Gives (.schConsTake d k) s fun u => u.rdata = BitVec.ofNat 32 (t + 65536) ∧ u.task d t = { s.task d t with state := 4, startAt := s.cycle + 1 } ∧
      u.rd (F.SCH_CONSk_STATUS_IRQ d k) = 0 ∧ Only [R.SCH_CONSk_STATUS d k] { s with rdata := u.rdata, sch := u.sch } u) ∧
  (∀ (d : Fin 8) (k : Fin 256) (s : State),
    (∀ t, s.curOf d k = some t → s.afhia d k = false ∨ (s.task d t).state ≠ 3 ∨ (s.task d t).stop.isSome = true) → exec (.schConsTake d k) s = .next { s with rdata := 0 }) ∧
  (∀ (d : Fin 8) (k : Fin 256) (v : Word) (s : State) (t : Nat), getBits v 0 4 ≤ 2 → consHw d k = false → s.runningOn d k = some t →
    exec (.schConsEnd d k v) s = .next
      ((s.decReads (s.task d t) (endWm (s.task d t) (getBits v 0 4) (s.consWm d k)).bytes).endTask d t 7 (getBits v 0 4) (getBits v 16 16)
        (endWm (s.task d t) (getBits v 0 4) (s.consWm d k)))) ∧
  (∀ (d : Fin 8) (k : Fin 256) (v : Word) (s : State), 2 < getBits v 0 4 ∨ consHw d k = true ∨ s.runningOn d k = none →
    Gives (.schConsEnd d k v) s fun u => u.rd (F.SCH_STATUS_REASON d) = 0xC011 ∧ Only [R.SCH_STATUS d] s u) ∧
  (∀ (d : Fin 8) (k : Fin 256) (v : Word) (s : State), s.runningOn d k = none ∨ consHw d k = true →
    Gives (.schConsWm3 d k v) s fun u => u.rd (F.SCH_CONSk_WM_WM d k 3) = v.toNat ∧ Only [(F.SCH_CONSk_WM_WM d k 3).reg] s u) ∧
  (∀ (d : Fin 8) (k : Fin 256) (v : Word) (s : State) (t : Nat), s.runningOn d k = some t → consHw d k = false →
    let a := s.wr (F.SCH_CONSk_WM_WM d k 3) v.toNat
    exec (.schConsWm3 d k v) s = .next (a.taskSafe d t (a.consWm d k))) ∧
  (∀ (d : Fin 8) (k : Fin 65536) (s : State), (s.task d k).state = 4 → (s.task d k).stop = none → (s.task d k).deadline ≠ 0 →
    s.reachedOn (s.task d k).dtl (s.task d k).deadline = true →
    exec (.taskDeadline d k) s = .next (s.setTask d k { s.task d k with
      stop := some (2, if dOpcode (s.task d k).words = 0x20 then 0xB011 else 0xC009), stopAt := s.cycle })) ∧
  (∀ (d : Fin 8) (k : Fin 65536) (s : State), (s.task d k).live = true → (s.task d k).state ≠ 4 → (s.task d k).stop = none → (s.task d k).deadline ≠ 0 →
    s.reachedOn (s.task d k).dtl (s.task d k).deadline = true →
    let u := s.setTask d k { s.task d k with stop := some (2, if (s.task d k).state = 5 then 0xA805 else 0xC009), stopAt := s.cycle }
    exec (.taskDeadline d k) s = .next { u with sch := { u.sch with due := u.sch.due ++ [taskWork d k] } }) ∧
  (∀ (d : Fin 8) (q : Fin 32768) (s : State), q < queueCount d → exec (.schQueueRevoke d q) s = .next (s.queueRevoke d q)) ∧
  (∀ (d : Fin 8) (q : Fin 32768) (s : State), q < queueCount d → s.queueLive d q = [] → s.rd (F.SCH_Qq_STATUS_RING 0 q) = 0 →
    Gives (.schQueueRevoke d q) s fun u =>
      u.rd (F.SCH_Qq_STATUS_EPOCH d q) = (s.rd (F.SCH_Qq_STATUS_EPOCH d q) + 1) % 2 ^ (F.SCH_Qq_STATUS_EPOCH d q).width ∧
      Only [R.SCH_Qq_STATUS d q] s u)

/-- R490: the shared latch of SCH_USEC. -/
def Obligations.UsecLatchIsShared : Prop :=
  ∀ (d : Fin 8) (s : State), Gives (.schUsecRead d) s fun t =>
    t.rdata = BitVec.ofNat 32 (s.usec d) ∧
    (∀ q : Req, t.regRead q (dieBase d + 0x300014) = BitVec.ofNat 32 (s.usec d / 2 ^ 32)) ∧
    (∀ e : Fin 8, e ≠ d → mapGet (fun _ => 0) t.sch.usecHi e = mapGet (fun _ => 0) s.sch.usecHi e) ∧
    t = { s with rdata := t.rdata, sch := { s.sch with usecHi := t.sch.usecHi } }
/-- R174: ADD, REPLACE, DELETE and READ of the flow table. -/
def Obligations.FlowTable : Prop :=
  (∀ (s : State) (i : Nat), flowBad s.flowStage = false → s.inBucket (bucketOf s.flowStage) (sameKey s.flowStage) = none →
    ((List.range 4).map fun w => bucketOf s.flowStage * 4 + w).find? (fun i => (s.flow i).isNone) = some i →
    Gives .flowAdd s fun t =>
      (∃ fill, t.flow i = some ⟨s.flowStage, fill, s.cycle, none, 0, 0, 0⟩ ∧ fill ≤ flowBurst s.flowStage * 50000) ∧
      (∀ j, j ≠ i → t.flow j = s.flow j) ∧ t.rd F.FLOW_RESULT_INDEX = i ∧ t.rd F.FLOW_RESULT_REASON = 1 ∧
      t.rd F.FLOW_FILL_USED = t.ing.flows.length % 2 ^ 17 ∧ Only [R.FLOW_RESULT, R.FLOW_FILL] { s with ing := t.ing, freeCtr := t.freeCtr } t) ∧
  (∀ (s : State) (i : Nat) (e : FlowEnt), flowBad s.flowStage = false →
    s.inBucket (bucketOf s.flowStage) (sameKey s.flowStage) = some i → s.flow i = some e →
    (s.flowInUse i e.words = false ∨ flowFixed e.words = flowFixed s.flowStage) → Gives .flowReplace s fun t =>
      t.flow i = some { e with words := s.flowStage, fill := min (s.filled e) (flowBurst s.flowStage * 50000), filledAt := s.cycle } ∧
      (∀ j, j ≠ i → t.flow j = s.flow j) ∧ t.rd F.FLOW_RESULT_INDEX = i ∧ t.rd F.FLOW_RESULT_REASON = 1 ∧ Only [R.FLOW_RESULT] { s with ing := t.ing } t) ∧
  (∀ (s : State) (k : Nat),
    (flowBad s.flowStage = true ∧ k = 0x6013) ∨
    (flowBad s.flowStage = false ∧ (s.inBucket (bucketOf s.flowStage) (sameKey s.flowStage)).isSome = true ∧ k = 0x6011) ∨
    (flowBad s.flowStage = false ∧ s.inBucket (bucketOf s.flowStage) (sameKey s.flowStage) = none ∧
      (∀ w : Fin 4, (s.flow (bucketOf s.flowStage * 4 + w)).isSome = true) ∧ k = 0x6010) →
    Gives .flowAdd s fun t => t.rd F.FLOW_RESULT_REASON = k ∧ Only [R.FLOW_RESULT] s t) ∧
  (∀ (s : State) (i : Fin 65536) (e : FlowEnt), s.flow i = some e →
    (s.flowInUse i e.words = false → Gives (.flowDelete i) s fun t => t.flow i = none ∧ (∀ j, j ≠ i.val → t.flow j = s.flow j) ∧
      t.rd F.FLOW_RESULT_REASON = 1 ∧ Only [R.FLOW_RESULT, R.FLOW_FILL] { s with ing := t.ing } t) ∧
    (s.flowInUse i e.words = true → Gives (.flowDelete i) s fun t => t.rd F.FLOW_RESULT_REASON = 0x6012 ∧ Only [R.FLOW_RESULT] s t) ∧
    Gives (.flowRead i) s fun t => (∀ w : Fin 6, t.reg (R.FLOW_READ w) = e.words.getD w 0) ∧ t.rd F.FLOW_RESULT_REASON = 1 ∧
      t.rd F.FLOW_CNT_PKT_PKTS = e.pkts % 2 ^ 32 ∧ t.rd F.FLOW_CNT_DROP_DROPS = e.drops % 2 ^ 32 ∧ t.rd F.FLOW_CNT_GAP_GAPS = e.gaps % 2 ^ 32 ∧
      Only ([R.FLOW_RESULT, R.FLOW_CNT_PKT, R.FLOW_CNT_DROP, R.FLOW_CNT_GAP] ++ (List.range 6).map R.FLOW_READ) s t) ∧
  (∀ (s : State) (i : Fin 65536), s.flow i = none → ∀ c ∈ [Instr.flowDelete i, Instr.flowRead i], Gives c s fun t =>
    t.rd F.FLOW_RESULT_REASON = 0x6014 ∧ Only [R.FLOW_RESULT] s t)

/-- R172, R175 to R179, R42: what arrives at a channel, and its frame's progress. -/
def Obligations.IngestEvents : Prop :=
  (∀ (x : IngPkt) (s : State), s.macUp x.mac = false → exec (.ingPacket x) s = .next s) ∧
  (∀ (x : IngPkt) (s : State), s.macUp x.mac = true → x.udp = 319 ∨ x.udp = 320 → exec (.ingPacket x) s =
    .next (match x.ptp with | some m => if ptpPort m = x.udp then (s.stampRx x.mac).ptpDeliver x.mac m else s.stampRx x.mac | none => s.stampRx x.mac)) ∧
  (∀ (x : IngPkt) (s : State), s.macUp x.mac = true → x.udp ≠ 319 → x.udp ≠ 320 → s.flowMatch x.dst x.udp x.ssrc = none →
    Gives (.ingPacket x) s fun t =>
      t.rd F.ING_COUNT_NO_MATCH = min (s.rd F.ING_COUNT_NO_MATCH + 1) (2 ^ 32 - 1) ∧ Only [R.ING_COUNT] (s.stampRx x.mac) t) ∧
  (∀ (x : IngPkt) (s : State) (i : Nat) (e : FlowEnt), s.macUp x.mac = true → x.udp ≠ 319 → x.udp ≠ 320 →
    s.flowMatch x.dst x.udp x.ssrc = some i → s.flow i = some e →
    (s.filled e < x.bytes * 50000 → exec (.ingPacket x) s =
      .next ((s.stampRx x.mac).setFlow i (some { e with fill := s.filled e, filledAt := s.cycle, drops := min (e.drops + 1) (2 ^ 32 - 1) }))) ∧
    (∀ g, x.bytes * 50000 ≤ s.filled e → x.version = 2 → (flowPtCheck e.words = false ∨ x.pt = flowPt e.words) →
      seqGap (flowKind e.words) e.seq x.seq = some g → exec (.ingPacket x) s =
      .next (((s.stampRx x.mac).setFlow i (some { e with
        fill := s.filled e - x.bytes * 50000, filledAt := s.cycle
        seq := some (x.seq % (if flowKind e.words = 0 then 2 ^ 32 else 2 ^ 16))
        gaps := min (e.gaps + g) (2 ^ 32 - 1), pkts := (e.pkts + 1) % 2 ^ 32 })).content i e.words x))) ∧
  (∀ (m : Nat) (s : State), mapGet (fun _ => 0) (s.stampRx m).ptp.rxAt m = (s.macRx m).toNat ∧
    s.stampRx m = { s with ptp := { s.ptp with rxAt := (s.stampRx m).ptp.rxAt } }) ∧
  (∀ (c : Fin 96) (x : SdiLine) (s : State), s.sdiUp c = true → s.mirrors c true = [] →
    exec (.sdiLine c x) s = .next ((s.sdiLine c x).mirrorOut c x)) ∧
  (∀ (c : Fin 96) (x : SdiLine) (s : State), s.sdiUp c = false ∨ s.mirrors c true ≠ [] → exec (.sdiLine c x) s = .next s) ∧
  (∀ (c : Fin 96) (x : SdiLine) (s : State), s.chOn c = true → s.rd (F.ING_CHc_SRC_KIND c) = 2 → x.id = none → x.crc = true →
    (∀ l, x.line = some l → x.audio = [] → x.anc = [] →
      s.sdiLine c x = (s.putRows c x.frame [⟨l, 0, x.px, !s.sdiDamaged c x⟩]).validData c) ∧
    (x.line = none → x.audio = [] → s.sdiLine c x = x.anc.foldl (fun a p => a.ancTake c x.frame p) (s.validData c))) ∧
  (∀ (c : Fin 96) (s : State), s.lineDue c = true →
    let u := s.ingLine c
    exec (.lineComplete c) s = .next (if u.chInterlaced c = true ∧ (s.ingCh c).next + 1 = u.chHeight c / 2 then
      (u.placements c).foldl (fun a p => a.slotStreams p.1 p.2 (u.chFrameNow c) 1) u else u)) ∧
  (∀ (c : Fin 96) (s : State), s.ingState c = 2 →
    (s.ingCh c).lastValid + s.rd (F.ING_CHc_CFG_LOSS_FRAMES c) * s.framePeriod c ≤ s.chUnits c →
    let a := (s.setIngCh c { s.ingCh c with recov := 0 }).inc (F.ING_CHc_CNT_FRAMES_LOSS c)
    exec (.ingLossTimeout c) s = .next (a.setIngState c 3 true) ∧
    (a.setIngState c 3 true).ingState c = 3 ∧
    a.rd (F.ING_CHc_CNT_FRAMES_LOSS c) = min (s.rd (F.ING_CHc_CNT_FRAMES_LOSS c) + 1) 65535) ∧
  (∀ (c : Fin 96) (s : State) (n : Nat), s.frameDue c = some n → exec (.channelFrameStart c) s = .next (s.frameStarts c n)) ∧
  (∀ (c : Fin 96) (s : State) (n : Nat),
    let z := (s.placements c).foldl (fun u p => u.slotEnds c p.1 p.2) s
    let a := { z with lt := { z.lt with chFrame := mapSet (fun _ => 0) z.lt.chFrame c (n + 1) } }.ingFrameStart c
    let b := if a.decLost c then a.setIngCh c { a.ingCh c with shown := a.policyPic c } else a
    (∀ (d k : Nat), (b.slotSt d k).up = false) →
    s.frameStarts c n = (b.placements c).foldl (fun u p => u.slotStreams p.1 p.2 n 0)
      ((b.placements c).foldl (fun u p => u.slotLatches c p.1 p.2) b))
/-- R189, R195, R196, R200, R211: a composition slot's images and bands. -/
def Obligations.CompositionEvents : Prop :=
  (∀ (r : Fin 4096) (s : State) (x : Desc) (d k : Nat), s.dispatchable r 0x10 = some x → fieldAt x.words 6 5 27 = 0 →
    fieldAt x.words 11 14 2 = 0 → fieldAt x.words 11 29 3 = 0 → fieldAt x.words 12 24 8 = 0 → x.words.getD 13 0 = 0 → x.words.getD 14 0 = 0 →
    (s.layerCheck x = 0 → s.crownOf (dTarget x.words) = some d → s.slotOf d (dStream x.words / 8) = some k →
      exec (.layerSrc r) s = .next ((s.popFetched r).layerStart r x) ∧ Gives (.layerSrc r) s fun t =>
        t.job (jobKey r x.idx) = some ⟨r, x.idx, x.words, .running, Wm.zero, none, false, none, none, []⟩ ∧
        (t.layerSt d k (lsLayer x.words)).queue = (s.layerSt d k (lsLayer x.words)).queue ++ [jobKey r x.idx] ∧ RegsSame s t ∧ MemSame s t) ∧
    (∀ c, s.layerCheck x = c → c ≠ 0 → exec (.layerSrc r) s = .next ((s.popFetched r).refuseDesc r x c))) ∧
  (∀ (r : Fin 4096) (idx : Word) (data : List Byte) (s : State) (j : Job) (d k : Nat), s.job (descKey r idx) = some j →
    s.crownOf (dTarget j.words) = some d → s.slotOf d (dStream j.words / 8) = some k → dOpcode j.words = 0x10 → j.phase = .running →
    j.faulted = false → j.stop = none → ((s.layerReads d k (lsLayer j.words)).head?.map (·.1)) = some (descKey r idx) →
    data.length = (planeBytes (s.rd (F.CMP_SLOTs_Ll_CFG_FORMAT d k (lsLayer j.words))) (lsW j.words)).sum * (lsH j.words - j.wm.rows) →
    let l := lsLayer j.words
    let c := dStream j.words / 8
    let sh := if lsNow j.words then none else some (lsShow j.words)
    let w := layerWm (s.rd (F.CMP_SLOTs_Ll_CFG_FORMAT d k l)) j.words (lsH j.words)
    let a := (s.xlateRange (s.ringPasid r) (lsAddr j.words + j.wm.lastOff) (w.lastOff - j.wm.lastOff)).layerLines (descKey r idx) j (lsH j.words) data
    let f := a.filling_ d k l (descKey r idx) j
    let u := (a.freePark (.desc r idx)).endJob (descKey r idx) 0 0 w
    let x := u.layerSt d k l
    let late := !x.waiting && (match sh with | some t => !later t (u.chStamp c (u.frameStart c (u.chFrameNow c))) | none => false)
    let v := if x.ready.isSome then u.inc (F.CMP_SLOTs_Ll_CNT_C_SUPERSEDED d k l) else u
    exec (.layerImageReady r ⟨idx, data⟩) s = .next (((v.setLayerSt d k l { x with
      queue := x.queue.filter (· != descKey r idx), ready := some { f.img with late := late }, fill := none }).showLayer d k l).waitDone d k l)) ∧
  (∀ (s : State) (key n d k l : Nat) (j : Job) (data : List Byte), s.layerOf j = some (d, k, l) →
    ((s.layerReads d k l).head?.map (·.1)) = some key →
    let f := s.filling_ d k l key j
    data.length = (n - j.wm.rows) * (planeBytes f.img.fmt f.img.w).sum →
    ((s.layerLines key j n data).layerSt d k l).fill = some { f with rows := n } ∧
    (s.layerLines key j n data).hbm = (s.fillImage d f.img j.wm.rows data).hbm) ∧
  (∀ (d : Fin 8) (k l : Fin 16) (s : State), (s.layerSt d k l).waiting = true →
    s.linePos (s.taken d k (F.CMP_SLOTs_CFG_CHANNEL d k)) (s.chFrameNow (s.taken d k (F.CMP_SLOTs_CFG_CHANNEL d k)))
      (s.taken d k (F.CMP_SLOTs_Ll_WAIT_LINES d k l)) ≤ s.chUnits (s.taken d k (F.CMP_SLOTs_CFG_CHANNEL d k)) →
    s.taken d k (F.CMP_SLOTs_Ll_CFG_SRC d k l) ≠ 1 ∨ (s.layerSt d k l).ready = none →
    Gives (.layerWaitExpired d k l) s fun t => t.layerSt d k l = { s.layerSt d k l with waiting := false, on_ :=
        (s.layerSt d k l).on_ || ((s.layerSt d k l).shown.isSome && s.composes d k l) } ∧
      (t.slotSt d k).waitAt = s.chUnits (s.taken d k (F.CMP_SLOTs_CFG_CHANNEL d k)) ∧
      t.rd (F.CMP_SLOTs_Ll_CNT_B_WAIT_EXPIRED d k l) =
        min (s.rd (F.CMP_SLOTs_Ll_CNT_B_WAIT_EXPIRED d k l) + 1) (2 ^ (F.CMP_SLOTs_Ll_CNT_B_WAIT_EXPIRED d k l).width - 1) ∧
      Only [(F.CMP_SLOTs_Ll_CNT_B_WAIT_EXPIRED d k l).reg] { s with cmp := t.cmp } t) ∧
  (∀ (d : Fin 8) (k l : Fin 16) (s : State), (s.layerSt d k l).waiting = true →
    s.linePos (s.taken d k (F.CMP_SLOTs_CFG_CHANNEL d k)) (s.chFrameNow (s.taken d k (F.CMP_SLOTs_CFG_CHANNEL d k)))
      (s.taken d k (F.CMP_SLOTs_Ll_WAIT_LINES d k l)) ≤ s.chUnits (s.taken d k (F.CMP_SLOTs_CFG_CHANNEL d k)) →
    s.taken d k (F.CMP_SLOTs_Ll_CFG_SRC d k l) = 1 →
    let c := s.taken d k (F.CMP_SLOTs_CFG_CHANNEL d k)
    let u := (s.takeReady d k l (s.now (s.chTl c))).1
    let y := u.layerSt d k l
    let v := u.setLayerSt d k l { y with waiting := false, on_ := y.on_ || (y.shown.isSome && u.composes d k l) }
    exec (.layerWaitExpired d k l) s = .next ((v.setSlotSt d k { v.slotSt d k with waitAt := v.chUnits c }).inc (F.CMP_SLOTs_Ll_CNT_B_WAIT_EXPIRED d k l))) ∧
  (∀ (d : Fin 8) (k : Fin 16) (s : State), s.bandReady d k = true → (s.slotSt d k).past = none → Gives (.bandWritten d k (s.slotSt d k).band) s fun t =>
    (t.slotSt d k).band = (s.slotSt d k).band + 1 ∧
    t.hbm = (s.writeBand d k (s.chFrameNow (s.taken d k (F.CMP_SLOTs_CFG_CHANNEL d k))) (s.slotSt d k).band).hbm ∧ t.host = s.host ∧
    RegsBut ((List.range 4).map (R.CMP_Ck_COUNT d)) s t) ∧
  (∀ (d : Fin 8) (k : Fin 16) (s : State) (o : PastFrame), s.bandReady d k = true → (s.slotSt d k).past = some o →
    Gives (.bandWritten d k o.band) s fun t =>
      t.hbm = ((s.pastSlot d k o).writeBand d k o.frame o.band).hbm ∧
      t.slotSt d k = { s.slotSt d k with past := if o.band + 1 < (s.pastSlot d k o).bandCount d k then some { o with band := o.band + 1 } else none } ∧
      RegsSame s t ∧ t.host = s.host) ∧
  (∀ (d : Fin 8) (k : Fin 16) (b : Nat) (s : State), s.bandReady d k = false ∨ b ≠ s.nextBand d k → exec (.bandWritten d k b) s = .next s) ∧
  (∀ (d : Fin 8) (k l : Fin 16) (n m : Nat) (s : State), (s.slotSt d k).built.contains l.val = false →
    ((State.runsOf (s.taken d k) d k).zipIdx.find? fun r => r.1.1 == l.val) = some ((l.val, n), m) →
    Gives (.flattenRebuildDone d k l) s fun t => (t.slotSt d k).built = (s.slotSt d k).built ++ [l.val] ∧
      t.hbm = (s.buildPlane d k m (l.val, n)).hbm ∧ t.host = s.host ∧
      (∀ j : Fin 4, t.rd (F.CMP_Ck_COUNT_FLATTENS d j) =
        if s.taken d k (F.CMP_SLOTs_CFG_COMP_MASK d k) / 2 ^ j.val % 2 = 1 then
          min (s.rd (F.CMP_Ck_COUNT_FLATTENS d j) + 1) (2 ^ (F.CMP_Ck_COUNT_FLATTENS d j).width - 1)
        else s.rd (F.CMP_Ck_COUNT_FLATTENS d j)) ∧
      RegsBut ((List.range 4).map (R.CMP_Ck_COUNT d)) s t)

/-- R204, R209, R216, R493: coefficient and table accesses. -/
def Obligations.CoefficientAndTableAccess : Prop :=
  (∀ (d : Fin 8) (v : Option Word) (s : State),
    let k := s.rd (F.CMP_COEF_SEL_COMP d)
    let set := s.rd (F.CMP_COEF_SEL_SET d)
    let dir := s.rd (F.CMP_COEF_SEL_DIR d)
    let ph := s.rd (F.CMP_COEF_SEL_PHASE d)
    let tap := s.rd (F.CMP_COEF_SEL_TAP d)
    let steps := fun (t : State) =>
      t.rd (F.CMP_COEF_SEL_TAP d) = (if s.on (F.CMP_COEF_SEL_AUTOINC d) then (tap + 1) % 8 else tap) ∧
      t.rd (F.CMP_COEF_SEL_PHASE d) = (if s.on (F.CMP_COEF_SEL_AUTOINC d) ∧ tap = 7 then (ph + 1) % 64 else ph)
    (v = none → Gives (.cmpCoefAccess d v) s fun t =>
      t.rdata = BitVec.ofNat 32 (wrap 10 (s.coef d k set dir ph tap)) ∧ steps t ∧ Only [R.CMP_COEF_SEL d] { s with rdata := t.rdata } t) ∧
    (∀ w, v = some w → dir = 1 → 6 ≤ tap → Gives (.cmpCoefAccess d v) s fun t => steps t ∧ Only [R.CMP_COEF_SEL d] s t) ∧
    (∀ w, v = some w → ¬(dir = 1 ∧ 6 ≤ tap) → s.coefInUse d k set = false → Gives (.cmpCoefAccess d v) s fun t =>
      t.coef d k set dir ph tap = signed 10 (getBits w 0 10) ∧ steps t ∧ Only [R.CMP_COEF_SEL d] { s with cmp := t.cmp } t) ∧
    (∀ w, v = some w → ¬(dir = 1 ∧ 6 ≤ tap) → s.coefInUse d k set = true → Gives (.cmpCoefAccess d v) s fun t =>
      t.rd (F.CMP_STATUS_REASON d) = 0x2108 ∧ steps t ∧ Only [R.CMP_STATUS d, R.CMP_COEF_SEL d] s t)) ∧
  (∀ (d : Fin 8) (k : Fin 4) (v : Word) (s : State),
    let b := s.rd (F.LUT_Ck_SEL_BANK d k)
    let tab := s.rd (F.LUT_Ck_SEL_TABLE d k)
    let i := s.rd (F.LUT_Ck_SEL_INDEX d k)
    let commits := fun (t : State) (x : Nat) =>
      t.lut d k b tab i = x ∧ t.rd (F.LUT_Ck_SEL_INDEX d k) = (if s.on (F.LUT_Ck_SEL_AUTOINC d k) then i + 1 else i) ∧
      t.rd (F.LUT_Ck_STATUS_CRC_BUSY d k) / 2 ^ b % 2 = 1 ∧
      Only [R.LUT_Ck_SEL d k, R.LUT_Ck_DATA0 d k, R.LUT_Ck_DATA1 d k, R.LUT_Ck_STATUS d k] { s with cmp := t.cmp } t
    (s.bankInUse d k b = false → (tab = 0 ∨ tab = 2) → i < lutSize tab → Gives (.lutData0Write d k v) s fun t => commits t (getBits v 0 14)) ∧
    (s.bankInUse d k b = false → tab = 1 → i < lutSize tab → Gives (.lutData1Write d k v) s fun t =>
      commits t (s.rd (F.LUT_Ck_DATA0_V0 d k) + s.rd (F.LUT_Ck_DATA0_V1 d k) * 2 ^ 14 + getBits v 0 14 * 2 ^ 28)) ∧
    (s.bankInUse d k b = false → tab = 1 → i < lutSize tab → Gives (.lutData0Write d k v) s fun t =>
      t.rd (F.LUT_Ck_DATA0_V0 d k) = getBits v 0 14 ∧ t.rd (F.LUT_Ck_DATA0_V1 d k) = getBits v 14 14 ∧
      Only [R.LUT_Ck_DATA0 d k, R.LUT_Ck_STATUS d k] s t) ∧
    (s.bankInUse d k b = false → tab = 0 ∨ tab = 2 → i < lutSize tab → Gives (.lutData1Write d k v) s fun t =>
      t.rd (F.LUT_Ck_DATA1_V2 d k) = getBits v 0 14 ∧ Only [R.LUT_Ck_DATA1 d k, R.LUT_Ck_STATUS d k] s t) ∧
    (s.bankInUse d k b = true → ∀ c ∈ [Instr.lutData0Write d k v, Instr.lutData1Write d k v], Gives c s fun t =>
      t.rd (F.LUT_Ck_STATUS_REASON d k) = 0x2301 ∧ Only [R.LUT_Ck_STATUS d k] s t) ∧
    (s.bankInUse d k b = false → tab = 3 ∨ lutSize tab ≤ i → ∀ c ∈ [Instr.lutData0Write d k v, Instr.lutData1Write d k v], Gives c s fun t =>
      t.rd (F.LUT_Ck_STATUS_REASON d k) = 0x2302 ∧ Only [R.LUT_Ck_STATUS d k] s t)) ∧
  (∀ (d : Fin 8) (k : Fin 4) (b : Fin 2) (s : State), s.rd (F.LUT_Ck_STATUS_CRC_BUSY d k) / 2 ^ b.val % 2 = 1 →
    Gives (.lutCrcDone d k b) s fun t => t.reg (R.LUT_Ck_CRCb d k b) = BitVec.ofNat 32 (crc32c (s.bankBytes d k b)) ∧
      t.rd (F.LUT_Ck_STATUS_CRC_BUSY d k) = s.rd (F.LUT_Ck_STATUS_CRC_BUSY d k) - 2 ^ b.val ∧ Only [R.LUT_Ck_CRCb d k b, R.LUT_Ck_STATUS d k] s t)
/-- R225, R247, R257, R258, R280, R313, R49: what arrives while a picture is coded. -/
def Obligations.PictureCoding : Prop :=
  (∀ (d : Fin 8) (i : Fin 128) (v : Word) (s : State),
    (getBits v 0 1 = 0 → exec (.encRefreshReq d i v) s = .next s) ∧
    (getBits v 0 1 = 1 → (s.encState d i = 1 ∨ s.encState d i = 2) → Gives (.encRefreshReq d i v) s fun t =>
      t.encSt d i = { s.encSt d i with req := true } ∧ t = { s with enc := t.enc }) ∧
    (getBits v 0 1 = 1 → s.encState d i ≠ 1 → s.encState d i ≠ 2 → Gives (.encRefreshReq d i v) s fun t =>
      t.rd (F.ENC_STRi_STATUS_REASON d i) = 0x300F ∧ t.rd (F.ENC_STATUS_REASON d) = 0x300F ∧ Only [R.ENC_STRi_STATUS d i, R.ENC_STATUS d] s t)) ∧
  (∀ (d : Fin 8) (i : Fin 128) (ax ay : Fin 128) (s : State) (p : PicSt) (b r t : Nat) (l : List (Nat × Nat)),
    ax.val < s.areasX d i → ay.val < s.areasY d i →
    s.coarseNext d i ax ay = some p →
    s.ownBuf d p = some b → p.refs = (r, t) :: l →
    (s.coarseKnown d i ax ay b = false → exec (.motionAreaCoarse d i ax ay p.num) s = .next s) ∧
    (∀ n, n ≠ p.num → exec (.motionAreaCoarse d i ax ay n) s = .next s) ∧
    (s.coarseKnown d i ax ay b = true → (s.asOf p).on (F.MES_STRi_CFG_SCD d i) = false →
      Gives (.motionAreaCoarse d i ax ay p.num) s fun t => t = { s with enc := t.enc } ∧
        ∃ q ∈ (t.encSt d i).pics, q.num = p.num ∧ q.mot.area ax ay = some (coarseOf (s.coarseSads d i ax ay b r)) ∧
          (∀ bx by_, (bx, by_) ≠ (ax.val, ay.val) → bx < 128 → q.mot.area bx by_ = p.mot.area bx by_) ∧ q = { p with mot := q.mot })) ∧
  (∀ (d : Fin 8) (i : Fin 128) (bx by_ : Fin 512) (j : Fin 4) (n : Nat) (s : State), bx.val < s.blocksX d i → by_.val < s.blocksY d i →
    s.tileOf d i bx = j.val →
    let u := s.coarse d i (bx / 4) (by_ / 4)
    (∀ p, u.codingPic d i j = some p →
      (n ≠ p.num ∨ (p.mot.blk (blkKey bx by_)).isSome = true → exec (.motionBlockDone d i bx by_ j n) s = .next u) ∧
      (p.mot.blk (blkKey bx by_) = none → exec (.motionBlockDone d i bx by_ j p.num) s = .next (u.searchBlock d i p j bx by_))) ∧
    (u.codingPic d i j = none → exec (.motionBlockDone d i bx by_ j n) s = .next u)) ∧
  (∀ (d : Fin 8) (i : Fin 128) (p : PicSt) (bx by_ : Nat) (lam : Nat) (mvp v : Vec) (s : State),
    (s.searchOf d i p bx by_ lam mvp).sad v = sadOf (blockPos.map fun x =>
      diff8 (s.strDepth d i) (s.strLuma d i p (bx * 16 + x.1) (by_ * 16 + x.2))
        (interPx (s.strCodec d i) (s.strDepth d i) (s.refLuma d i (p.refs.getD v.ref (0, 0))) v.x v.y (bx * 16 + x.1 : Nat) (by_ * 16 + x.2 : Nat)))) ∧
  (∀ (r : Fin 4096) (s : State) (x : Desc) (d i : Nat), s.dispatchable r 0x11 = some x → fieldAt x.words 7 5 27 = 0 →
    x.words.getD 9 0 &&& 0xFE00FE00 = 0 → x.words.getD 10 0 &&& 0xFE00FE00 = 0 → x.words.getD 12 0 &&& 0xFE00FE00 = 0 → x.words.getD 13 0 &&& 0xFE00FE00 = 0 →
    s.crownOf (dTarget x.words) = some d → s.indexOf d (dStream x.words) = some i →
    (s.strOn d i = false → exec (.motionHint r) s = .next ((s.popFetched r).refuseDesc r x 0x300D)) ∧
    (s.strOn d i = true →
      let n := wordAt x.words 6
      let ahead := (n + 2 ^ 32 - (s.encSt d i).pic) % 2 ^ 32
      let u := (s.popFetched r).incWrap (F.MES_COUNT_HINTS d)
      let e := s.encSt d i
      let v :=
        if 2 ^ 31 ≤ ahead then u.inc (F.MES_STRi_CNT_B_HINT_LATE d i)
        else if 3 < ahead then u.inc (F.MES_STRi_CNT_C_HINT_EARLY d i)
        else (if e.hints.any (·.1 == n) then u.inc (F.MES_STRi_CNT_C_HINT_REPLACED d i) else u).setEncSt d i
          { e with hints := e.hints.filter (·.1 != n) ++ [(n, x.words)] }
      exec (.motionHint r) s = .next (v.complete r x.idx (dTag x.words) (dNocpl x.words) 0 0 Wm.zero))) ∧
  (∀ (d : Fin 8) (i : Fin 128) (j : Fin 4) (bits fl : Nat) (s : State),
    (∀ p, s.codingPic d i j = some p → exec (.unitCoded d i j bits fl) s = .next (s.unitDecide d i j p bits fl)) ∧
    (s.codingPic d i j = none → exec (.unitCoded d i j bits fl) s = .next s)) ∧
  (∀ (d : Fin 8) (i : Fin 128) (r : RowPart) (s : State), s.strOn d i = false → s.encState d i = 0 → exec (.rowArrival d i r) s = .next s) ∧
  (∀ (d : Fin 8) (i : Fin 128) (r : RowPart) (s : State) (n sd : Nat), s.strOn d i = true ∨ s.encState d i ≠ 0 →
    (n, sd) ∈ s.slotSides d (i / 8) → s.pairTwin n = false → s.role n sd = 5 →
    exec (.rowArrival d i r) s = .next (s.rowLate (s.strId d i) r.pic r.row)) ∧
  (∀ (d : Fin 8) (i : Fin 128) (r : RowPart) (s : State), s.strOn d i = true ∨ s.encState d i ≠ 0 →
    (∀ n sd, (n, sd) ∈ s.slotSides d (i / 8) → s.pairTwin n = true ∨ s.role n sd ≠ 5) →
    let x := s.pkt (s.strId d i)
    (∀ p, (x.mode r.pic = none ∨ x.mode r.pic = some 0) → ((s.encSt d i).pics.find? fun p => p.num == r.pic) = some p →
      p.coded = true → p.lost = false → p.row ≤ r.row → r.row < s.strRows d i → r.tile.val < s.strN d i →
      (s.reachedOn (s.chTl (s.strChan d i)) (s.rowDue d i p r.row) = false →
        Gives (.rowArrival d i r) s fun t => (s.chUnits (s.strChan d i), r) ∈ (t.pkt (s.strId d i)).parts ∧
          (t.pkt (s.strId d i)).parts.length ≤ x.parts.length + 1 ∧ t = { s with enc := t.enc }) ∧
      (s.reachedOn (s.chTl (s.strChan d i)) (s.rowDue d i p r.row) = true →
        exec (.rowArrival d i r) s = .next (s.rowLate (s.strId d i) r.pic r.row))) ∧
    (x.mode r.pic = some 1 ∨ x.mode r.pic = some 2 → exec (.rowArrival d i r) s = .next (s.rowLate (s.strId d i) r.pic r.row)) ∧
    (x.late.contains (r.pic, r.row) = true → s.rowLate (s.strId d i) r.pic r.row = s) ∧
    (x.late.contains (r.pic, r.row) = false → let t := s.rowLate (s.strId d i) r.pic r.row
      t.rd (F.PKT_STRs_CNT_B_LATE_ROWS (s.strId d i)) =
        min (s.rd (F.PKT_STRs_CNT_B_LATE_ROWS (s.strId d i)) + 1) (2 ^ (F.PKT_STRs_CNT_B_LATE_ROWS 0).width - 1) ∧
      (t.pkt (s.strId d i)).late = ((r.pic, r.row) :: x.late).take 64 ∧ (t.pkt (s.strId d i)).parts = x.parts ∧
      Only [R.PKT_STRs_CNT_B (s.strId d i)] { s with enc := t.enc } t)) ∧
  (∀ (d : Fin 8) (i : Fin 128) (s : State), s.keptOf d = [] →
    (∀ p l, (s.encSt d i).pics = p :: l → s.reachedOn (s.chTl (s.strChan d i)) (s.rowDue d i p p.row) = true →
      let whole := p.coded && !p.lost && (s.pkt (s.strId d i)).rowHere p.num p.row (s.strN d i)
      let a := s.handRow d i
      let b := if p.row = 0 ∧ p.kind ≠ 0 ∧ whole = true then a.graftHanded d i else a
      let c := (if (s.encSt d i).missRun < (b.encSt d i).missRun then b.pairMiss d i else b).sendFlowFrame d i
      exec (.rowHandover d i) s = .next (if s.strRows d i ≤ p.row + 1 then c.sendCursor d i true p.num else c)) ∧
    (s.handDue d i = false → exec (.rowHandover d i) s = .next s))

/-- R295 to R302, R306: revocation of pool objects, decode input, pictures and their release. -/
def Obligations.PoolAndDecode : Prop :=
  (∀ (d : Fin 8) (v : Word) (s : State),
    let kind := s.rd (F.POOL_EOBJ_SEL_KIND d)
    let idx := s.rd (F.POOL_EOBJ_SEL_INDEX d)
    let own := s.rd (F.POOL_EOBJ_SEL_NEW_OWNER d)
    (getBits v 0 1 = 0 → exec (.eobjRevoke d v) s = .next s) ∧
    (getBits v 0 1 = 1 → s.eobjBad d kind idx own = true → Gives (.eobjRevoke d v) s fun t =>
      t.rd (F.POOL_STATUS_REASON d) = 0x5005 ∧ Only [R.POOL_STATUS d] s t) ∧
    (getBits v 0 1 = 1 → s.eobjBad d kind idx own = false → s.eobjBusy d kind idx = true → Gives (.eobjRevoke d v) s fun t =>
      t.rd (F.POOL_STATUS_REASON d) = 0x5004 ∧ Only [R.POOL_STATUS d] s t) ∧
    (getBits v 0 1 = 1 → s.eobjBad d kind idx own = false → s.eobjBusy d kind idx = false →
      exec (.eobjRevoke d v) s = .next (s.revokeObj d kind idx own))) ∧
  (∀ (d : Fin 8) (key : Nat) (s : State), Gives (.revokeQuiesced d key) s fun t =>
    (∀ o, (d.val * 65536 + key, o) ∉ t.pool.busy) ∧ (∀ k o, k ≠ d.val * 65536 + key → ((k, o) ∈ t.pool.busy ↔ (k, o) ∈ s.pool.busy)) ∧
    t = { s with pool := { s.pool with busy := t.pool.busy } }) ∧
  (∀ (r : Fin 4096) (s : State) (x : Desc), s.decRoom r = true → s.dispatchable r 0x20 = some x → fieldAt x.words 8 25 7 = 0 → fieldAt x.words 9 2 30 = 0 →
    (∀ k ∈ [12, 13, 14], x.words.getD k 0 = 0) →
    (∀ c, s.decCheck x = c → c ≠ 0 → exec (.decInput r) s = .next (((s.decNote r).popFetched r).refuseDesc r x c)) ∧
    (∀ i t, s.decCheck x = 0 → s.indexOf (pathDie (dTarget x.words)) (dStream x.words) = some i →
      s.freeEntry (pathDie (dTarget x.words)) (s.rd (F.DEC_CFG_QUEUE (pathDie (dTarget x.words)))) = some t →
      let d := pathDie (dTarget x.words)
      let q := s.rd (F.DEC_CFG_QUEUE d)
      let entry : Task := { Task.idle with
        state := 2, level := s.rd (F.DEC_STRi_CFG_LEVEL d i), dlist := 7, desc := true, words := x.words, dtl := dTl x.words, queue := q, epoch := s.rd (F.SCH_Qq_STATUS_EPOCH d q)
        wake := wordAt x.words 9, deadline := dDeadline x.words, arg0 := x.words.getD 10 0, arg1 := x.words.getD 11 0, ring := r, idx := x.idx
        htag := dTag x.words, nocpl := dNocpl x.words, stream := dStream x.words }
      exec (.decInput r) s = .next ((((s.popFetched r).setTask d t entry).joinTail d t clsSubmit).refill d (s.rd (F.SCH_Qq_CFG_BIND d q))))) ∧
  (∀ (d : Fin 8) (i : Fin 128) (x : DecPic) (s : State),
    (s.decTask d i = none → exec (.decPictureDone d i x) s = .next s) ∧
    (∀ k, s.decTask d i = some k → s.rd (F.DEC_STRi_STATUS_STATE d i) ≠ 0 → decUnfit x = true → x.begins = false → x.output = [] → x.tail ≤ 4194304 →
      exec (.decPictureDone d i x) s = .next (
        let a := s.setDecSt d i { s.decSt d i with got := true }
        let u := ((a.curFree d i).inc (F.DEC_STRi_CNT_A_SKIPPED d i)).repin d i
        u.setDecSt d i { u.decSt d i with carry := x.tail })) ∧
    (∀ k, s.decTask d i = some k → s.rd (F.DEC_STRi_STATUS_STATE d i) = 2 ∨ s.rd (F.DEC_STRi_STATUS_STATE d i) = 3 → decUnfit x = false →
      s.spsBad d i x = false → x.leading = false →
      (x.begins = true → exec (.decPictureDone d i x) s = .next (s.decBegin d i x)) ∧
      (x.begins = false → x.output = [] → x.tail ≤ 4194304 → exec (.decPictureDone d i x) s = .next (
        let a := s.setDecSt d i { s.decSt d i with got := true }
        let u := (a.decode d i ((s.task d k).arg0.toNat + (s.task d k).arg1.toNat * 2 ^ 32) x).repin d i
        u.setDecSt d i { u.decSt d i with carry := x.tail }))) ∧
    (∀ n, 4194304 < n → s.holdPart d i n = s.carryDrop d i)) ∧
  (∀ (d : Fin 8) (i : Fin 128) (x : DecPic) (s : State), (s.decSt d i).cur = none →
    (∀ u b, s.allocBuf d (s.strId d i) (s.decSt d i).next x.order.toNat = (u, some b) →
      ((s.decBegin d i x).decSt d i).cur = some (b, (u.buf d b).epoch)) ∧
    (∀ u, s.allocBuf d (s.strId d i) (s.decSt d i).next x.order.toNat = (u, none) → s.decBegin d i x = s)) ∧
  (∀ (d : Fin 8) (i : Fin 128) (b sh : Nat) (s : State),
    ((s.decSt d i).shows = [(b, sh)] → s.showDue d i sh = true → let t := s.release d i b
      exec (.decShowReached d i) s = .next t ∧ (t.decSt d i).newest = some b ∧ t.rd (F.DEC_STRi_PIC_PIC d i) = (s.buf d b).pic % 2 ^ 32 ∧
      .show d (s.strId d i) (s.buf d b).pic ∈ t.sent) ∧
    (∀ l, (s.decSt d i).shows = (b, sh) :: l → s.showDue d i sh = false → exec (.decShowReached d i) s = .next s))
/-- R312, R315, R317, R318, R323, R331: ports, shapers, wheel slots and histograms. -/
def Obligations.PortsShapersAndWheel : Prop :=
  (∀ (p : Fin 96) (s : State),
    ((s.sending p).isSome = true → exec (.portFrameDone p) s = .next ((s.setSending p none).portPick p)) ∧
    (s.sending p = none → exec (.portFrameDone p) s = .next s)) ∧
  (∀ (q : Fin 768) (s : State), ((s.sending (q / 8)).isSome = true ∨ s.on (F.LANE_ETHm_STATUS_UP (q / 8)) = false) →
    Gives (.shaperRefill q) s fun t =>
      let w := if (s.classQ q).wrote = s.cycle + 1 then (s.classQ q).before else s.reg (R.WHL_Qq_SHAPE q)
      let x := { s.classQ q with shape := w }
      t.classQ q = (if x.shaped = true then { x with tokens := min (x.tokens + x.rate) x.burst } else x) ∧
      (∀ k, k ≠ q.val → t.classQ k = s.classQ k) ∧ (w = (s.classQ q).shape → t.whl.entries = s.whl.entries) ∧
      (∀ e, e.2 ≠ 2048 + q.val → (e ∈ t.whl.entries ↔ e ∈ s.whl.entries)) ∧
      Only [R.WHL_Qq_DEPTH q, R.WHL_STATUS] { s with whl := t.whl } t) ∧
  (∀ (q : Fin 768) (s : State), exec (.shaperRefill q) s = .next (s.refillTokens q)) ∧
  (∀ (q : Fin 768) (v : Word) (s : State),
    let bad := getBits v 30 1 = 1 ∧ (getBits v 0 20 = 0 ∨ getBits v 20 10 = 0)
    (bad → Gives (.shaperWrite q v) s fun t => t.rd F.WHL_STATUS_REASON = 0x6501 ∧ Only [R.WHL_STATUS] s t) ∧
    (¬bad → Gives (.shaperWrite q v) s fun t => t.reg (R.WHL_Qq_SHAPE q) = v &&& 0x7FFFFFFF ∧
      t.classQ q = { s.classQ q with wrote := s.cycle + 1, before :=
        if (s.classQ q).wrote = s.cycle + 1 then (s.classQ q).before else s.reg (R.WHL_Qq_SHAPE q) } ∧ (∀ k, k ≠ q.val → t.classQ k = s.classQ k) ∧
      Only [R.WHL_Qq_SHAPE q, R.WHL_Qq_DEPTH q] { s with whl := t.whl } t)) ∧
  (∀ s : State, (dueEntry (s.ptpT / 64) s.whl.entries = none → Gives .wheelSlot s fun t =>
      t.rd F.WHL_NOW_SLOT = s.ptpT / 64 % 2 ^ 17 ∧ Only [R.WHL_NOW] s t) ∧
    ∀ e, dueEntry (s.ptpT / 64) s.whl.entries = some e → exec .wheelSlot s = .next (
      let u := s.wr F.WHL_NOW_SLOT (s.ptpT / 64)
      let v := ({ u with whl := { u.whl with entries := u.whl.entries.erase e } } : State).wr F.WHL_STATUS_ENTRIES (s.whl.entries.erase e).length
      (if e.2 < 2048 then v.servePkt e.2 else v.portPick ((e.2 - 2048) / 8)).serveWheel 65535)) ∧
  (∀ (f : Fin 2048) (s : State),
    (s.tsFlow f = true → exec (.tsPsiTimer f) s = .next (s.sendPsi f (s.sidCodec (s.flowStr f))) ∧ exec (.tsPcrTimer f) s = .next (s.sendPcr f)) ∧
    (s.tsFlow f = false → exec (.tsPsiTimer f) s = .next s ∧ exec (.tsPcrTimer f) s = .next s)) ∧
  (∀ (q : Fin 768) (s : State), (∀ w : Fin 24, s.rd (F.WHL_SMP_MASKw_MASK w) = if w.val = q.val / 32 then 2 ^ (q.val % 32) else 0) →
    s.on F.WHL_SAMPLE_RING_EN = false → Gives .queueSample s fun t =>
      t.histBin q (waitBin (s.headWait q)) = min (s.histBin q (waitBin (s.headWait q)) + 1) (2 ^ 32 - 1) ∧
      (∀ k b, b < 16 → (k, b) ≠ (q.val, waitBin (s.headWait q)) → t.histBin k b = s.histBin k b) ∧
      t = { s with whl := { s.whl with hist := t.whl.hist } }) ∧
  (∀ s : State, Gives .whlHistClr s fun t => (∀ b, b < 16 → t.histBin (s.rd F.WHL_HIST_SEL_QUEUE) b = 0) ∧
    (∀ q b, b < 16 → q ≠ s.rd F.WHL_HIST_SEL_QUEUE → t.histBin q b = s.histBin q b) ∧ t = { s with whl := { s.whl with hist := t.whl.hist } })

/-- R319, R321, R322, R332, R333: gate lists. -/
def Obligations.GateLists : Prop :=
  (∀ (p : Fin 96) (en : Bool) (s : State), s.changeCheck p en ≠ 0 → Gives (.gateChange p en) s fun t =>
    t.rd (F.GATE_p_STATUS_REASON p) = s.changeCheck p en ∧ Only [R.GATE_p_STATUS p] s t) ∧
  (∀ (p : Fin 96) (s : State), s.changeCheck p true = 0 → s.on (F.GATE_p_CTL_EN p) = true → Gives (.gateChange p true) s fun t =>
    let base := (s.rd (F.GATE_p_ADMIN_SEC_LO_SEC p) + s.rd (F.GATE_p_ADMIN_SEC_HI_SEC p) * 2 ^ 32) * 10 ^ 9 + s.rd (F.GATE_p_ADMIN_NS_NS p)
    let at_ := s.boundary base (s.rd (F.GATE_p_ADMIN_CYCLE_NS p))
    s.ptpT + 1000 ≤ at_ ∧ (t.gate p).pendBase = at_ ∧ (t.gate p).pendCycle = s.rd (F.GATE_p_ADMIN_CYCLE_NS p) ∧
    (t.gate p).pend = (List.range (s.rd (F.GATE_p_ADMIN_LEN_LEN p))).map (fun e => s.reg (R.GATE_p_ADMINe p e)) ∧
    t.rd (F.GATE_p_STATUS_PENDING p) = 1 ∧ t.rd (F.GATE_p_CHG_NS_NS p) = at_ % 10 ^ 9 ∧
    t.rd (F.GATE_p_CHG_SEC_LO_SEC p) = at_ / 10 ^ 9 % 2 ^ 32 ∧ t.rd (F.GATE_p_CHG_SEC_HI_SEC p) = at_ / 10 ^ 9 / 2 ^ 32 % 2 ^ 16 ∧
    Only [R.GATE_p_CTL p, R.GATE_p_STATUS p, R.GATE_p_CHG_NS p, R.GATE_p_CHG_SEC_LO p, R.GATE_p_CHG_SEC_HI p] { s with whl := t.whl } t) ∧
  (∀ (p : Fin 96) (s : State), s.changeCheck p true = 0 → s.on (F.GATE_p_CTL_EN p) = false →
    exec (.gateChange p true) s = .next (((s.setReg (R.GATE_p_CTL p) 1).restartGates p).takeChange p)) ∧
  (∀ (p : Fin 96) (s : State),
    (s.on (F.GATE_p_STATUS_PENDING p) = true → (s.gate p).pendBase ≤ s.ptpT → exec (.gateChangeTime p) s = .next (s.applyChange p)) ∧
    ((s.on (F.GATE_p_STATUS_PENDING p) = false ∨ s.ptpT < (s.gate p).pendBase) → exec (.gateChangeTime p) s = .next s)) ∧
  (∀ (p : Fin 96) (s : State),
    (∀ e, (s.gate p).idx = some e → (s.gate p).began + s.operSpan p e ≤ s.ptpT → exec (.gateIntervalEnd p) s = .next (
      (s.setGate p { s.gate p with idx := some (s.operNext p e), began := (s.gate p).began + s.operSpan p e }).setGates p (s.operGates p (s.operNext p e)))) ∧
    ((s.gate p).idx = none → (s.gate p).startAt = 0 → exec (.gateIntervalEnd p) s = .next s) ∧
    (∀ e, (s.gate p).idx = some e → s.ptpT < (s.gate p).began + s.operSpan p e → exec (.gateIntervalEnd p) s = .next s) ∧
    ((s.gate p).idx = none → (s.gate p).startAt ≠ 0 → (s.gate p).startAt ≤ s.ptpT → exec (.gateIntervalEnd p) s = .next (
      (s.setGate p { s.gate p with idx := some 0, began := (s.gate p).startAt, startAt := 0 }).setGates p (s.operGates p 0)))) ∧
  (∀ (p : Fin 96) (s : State),
    exec (.gateEnWrite p false) s = .next (((s.setReg (R.GATE_p_CTL p) 0).dropPending p).openGates p) ∧
    (s.on (F.GATE_p_CTL_EN p) = true → Gives (.gateEnWrite p true) s fun t => t.rd (F.GATE_p_CTL_EN p) = 1 ∧ Only [R.GATE_p_CTL p] s t) ∧
    (s.on (F.GATE_p_CTL_EN p) = false → s.on F.PTP_CLK_STATUS_SET = true →
      exec (.gateEnWrite p true) s = .next ((s.setReg (R.GATE_p_CTL p) 1).restartGates p)) ∧
    (s.on (F.GATE_p_CTL_EN p) = false → s.on F.PTP_CLK_STATUS_SET = false → exec (.gateEnWrite p true) s = .next (s.setReg (R.GATE_p_CTL p) 1)))

/-- R337 to R339, R344, R345: audio streams and ports. -/
def Obligations.AudioStreamsAndPorts : Prop :=
  (∀ (a : Fin 256) (x : AudIn) (s : State),
    let m := s.audNext a
    let due := s.rd (F.AUD_STRa_STATUS_STATE a) ≠ 0 ∧ s.tlRunning (s.audTl a) = true ∧ s.sampPos (s.audTl a) (s.audRate a) m ≤ s.units (s.audTl a)
    let u := s.wr (F.AUD_STRa_STATUS_STATE a) 2
    let counted := fun (v : State) =>
      let w := if v.rd (F.AUD_STRa_CFG_SRC a) = 0 then v.portClock (v.audPort a) else v
      w.setAudStr a { w.audStr a with n := (s.audStr a).n + 1 }
    (¬due → exec (.audioSample a x) s = .next s) ∧
    (due → s.audOut a = true → exec (.audioSample a x) s =
      .next (counted ((u.outFetches a x.fault (if (s.audStr a).n = 0 then s.audLat a + 1 else 1) x.data x.side).outPresent a m))) ∧
    (due → s.audOut a = false → (s.audStr a).n < s.audLat a → exec (.audioSample a x) s = .next (counted (u.inSource a m x))) ∧
    (due → s.audOut a = false → s.audLat a ≤ (s.audStr a).n →
      exec (.audioSample a x) s = .next (counted ((u.inSource a m x).inDue a x.fault)))) ∧
  (∀ (p : Fin 16) (out : Bool) (fr : List AudSamp) (ppm : Int) (s : State),
    ((s.on (F.AUD_Pp_CFG_EN p) = false ∨ s.ownDomain p out = false) → exec (.audioPortFrame p out fr ppm) s = .next s) ∧
    (s.on (F.AUD_Pp_CFG_EN p) = true → s.ownDomain p out = true →
      let u := (s.wr (F.AUD_Pp_STATUS_CLK_OK p) 1).wrS (F.AUD_Pp_PPM_OFFSET p) ppm
      let v := u.add (F.AUD_Pp_ERR_PERR p) (fr.filter fun v => v.side / 16 % 2 == 1).length
      let x := s.audStore p
      (out = false → x.fill < 32 → exec (.audioPortFrame p out fr ppm) s =
        .next ((v.setAudStore p { x with fill := x.fill + 1, frames := x.frames ++ [(0, fr.map (v.slotSamp p))] }).checkFill p)) ∧
      (out = false → 32 ≤ x.fill → Gives (.audioPortFrame p out fr ppm) s fun t => t.rd (F.AUD_Pp_STATUS_CLK_OK p) = 1 ∧
        t.rd (F.AUD_Pp_PPM_OFFSET p) = wrap 16 (clampS 16 ppm) ∧ Only [R.AUD_Pp_STATUS p, R.AUD_Pp_PPM p, R.AUD_Pp_ERR p] s t) ∧
      (out = true → (s.audStore (16 + p)).fill ≠ 0 → exec (.audioPortFrame p out fr ppm) s = .next (
        let w := u.storePop (16 + p) 64
        (w.1.send (.audioPort p (((s.audStore (16 + p)).frames.map (·.1)).headD 0) (w.2.map (w.1.slotSamp p)))).checkFill (16 + p))) ∧
      (out = true → (s.audStore (16 + p)).fill = 0 → exec (.audioPortFrame p out fr ppm) s = .next u))) ∧
  (∀ (a : Fin 256) (v : Word) (s : State),
    (s.audOut a = true → Gives (.audHostWrite a v) s fun t => t.reg (R.AUD_STRa_HOST a) = v ∧ Only [R.AUD_STRa_HOST a] s t) ∧
    (s.audOut a = false → exec (.audHostWrite a v) s = .next ((s.setReg (R.AUD_STRa_HOST a) v).audRelease a (s.audStr a).held))) ∧
  (∀ (a : Fin 256) (s : State), Gives (.audM0Read a) s fun t => t.rdata.toNat = (s.audStr a).m0 % 2 ^ 32 ∧
    (t.reg (R.AUD_STRa_M0_HI a)).toNat = (s.audStr a).m0 / 2 ^ 32 % 2 ^ 32 ∧ Only [R.AUD_STRa_M0_HI a] { s with rdata := t.rdata } t) ∧
  (∀ (p : Fin 16) (s : State),
    let own := s.ownDomain p false = true ∨ s.ownDomain p true = true
    (own → s.rd (F.AUD_Pp_STATUS_CLK_OK p) = 1 → Gives (.audClockLoss p) s fun t => t.rd (F.AUD_Pp_STATUS_CLK_OK p) = 0 ∧
      t.rd (F.AUD_Pp_ERR_LOS p) = min (s.rd (F.AUD_Pp_ERR_LOS p) + 1) (2 ^ 16 - 1) ∧ Only [R.AUD_Pp_STATUS p, R.AUD_Pp_ERR p] s t) ∧
    (¬(own ∧ s.rd (F.AUD_Pp_STATUS_CLK_OK p) = 1) → exec (.audClockLoss p) s = .next s))
/-- R354 to R357, R359, R444: heartbeats, suspicion and leases. -/
def Obligations.PairHeartbeatsAndLeases : Prop :=
  (∀ (q : Req) (n : Fin 32) (v : Word) (s : State),
    let on := fun sd => match q with
      | .core die _ => (s.leaves (s.sidePath n sd)).any fun l => pathDie l == die.val
      | .host => false
    Gives (.pairHb q n v) s fun t =>
      (∀ sd, sd < 2 → (sd ∈ (t.pair n).seen ↔ sd ∈ (s.pair n).seen ∨ (getBits v sd 1 = 1 ∧ on sd = true ∧ sd ∈ (s.pair n).susp))) ∧
      t.pair n = { s.pair n with seen := (t.pair n).seen } ∧ (∀ m, m ≠ n.val → t.pair m = s.pair m) ∧
      t = { s with red := { s.red with pairs := t.red.pairs } }) ∧
  (∀ (n : Fin 32) (sd : Fin 2) (s : State), s.pairOn n = true → s.pairTwin n = false → 1 ≤ s.role n sd → s.role n sd ≤ 3 → sd.val ∉ (s.pair n).susp →
    Gives (.pairHbTimeout n sd) s fun t => sd.val ∈ (t.pair n).susp ∧ sd.val ∉ (t.pair n).seen ∧
      (∀ m, m ≠ n.val → t.pair m = s.pair m) ∧ t = { s with red := { s.red with pairs := t.red.pairs } }) ∧
  (∀ (n : Fin 32) (sd : Fin 2) (s : State), sd.val ∈ (s.pair n).susp →
    (sd.val ∉ (s.pair n).seen ∨ s.sideHealthy n sd = false → exec (.pairSuspectDecide n sd) s = .next (s.sideFail n sd)) ∧
    (sd.val ∈ (s.pair n).seen → s.sideHealthy n sd = true → Gives (.pairSuspectDecide n sd) s fun t => sd.val ∉ (t.pair n).susp ∧
      t.rd (F.PAIR_n_CNT_A_SUSPECTS n) = min (s.rd (F.PAIR_n_CNT_A_SUSPECTS n) + 1) (2 ^ 16 - 1) ∧
      Only [R.PAIR_n_CNT_A n] { s with red := { s.red with pairs := t.red.pairs } } t)) ∧
  (∀ (n : Fin 32) (sd : Fin 2) (s : State) (path : Nat),
    let key := 7 + 8 * (n.val * 2 + sd.val)
    s.rst.holds.find? (·.1 == key) = some (key, path) → Gives (.refHoldExpired n sd) s fun t =>
      (∀ h, h ∈ t.rst.holds ↔ h ∈ s.rst.holds ∧ h.1 ≠ key) ∧ (key, path) ∈ t.rst.relea ∧
      Only ((List.range (s.crowns + 1)).map R.RST_DOM_STATUS) { s with rst := t.rst } t) ∧
  (∀ s : State,
    (s.twinUp = true → exec .twinHbSend s = .next
      { s with red := { s.red with txLane := s.nextTwinLane }, sent := Msg.twin s.nextTwinLane 1 0 s.hbWords :: s.sent }) ∧
    (s.twinUp = false → exec .twinHbSend s = .next s)) ∧
  (∀ (x : HbFrame) (s : State), s.twinUp = true → s.on (F.SEL_REFk_CFG_EN 11) = false →
    (∀ n r t l, s.pairOn n = true → x.pairs[n]? = some (r, t, l) → t ≤ s.pairTerm n) → Gives (.twinHeartbeat ⟨true, x⟩) s fun t =>
      t.red.misses = 0 ∧ t.rd F.TWIN_STATUS_PEER_OK = 1 ∧ t.red.peerTl = x.tls ∧
      (∀ n r k l, n < 32 → s.pairOn n = true → s.pairTwin n = true → x.pairs[n]? = some (r, k, l) → t.role n 1 = r % 8 ∧
        (k = s.pairTerm n → (t.pair n).peerEnd = s.cycle + if r = 3 then msCycles l + msCycles 1 + msCycles (s.rd (F.PAIR_n_LEASE_LEASE_MS n)) / 1000 else 0)) ∧
      Only (R.TWIN_STATUS :: (List.range 32).map R.PAIR_n_STATUS) { s with red := t.red } t) ∧
  (∀ s : State, s.on F.TWIN_CFG_EN = true →
    (s.red.misses ≠ 3 → Gives .twinHbMiss s fun t => t.red = { s.red with misses := s.red.misses + 1 } ∧
      t.rd F.TWIN_CNT_A_HB_MISS = min (s.rd F.TWIN_CNT_A_HB_MISS + 1) (2 ^ 16 - 1) ∧ Only [R.TWIN_CNT_A] { s with red := t.red } t) ∧
    (s.red.misses = 3 → exec .twinHbMiss s = .next (
      ((({ s with red := { s.red with misses := 4 } } : State).inc F.TWIN_CNT_A_HB_MISS).wr F.TWIN_STATUS_PEER_OK 0).forRange 32 fun n u =>
        if u.pairOn n = true ∧ u.pairTwin n = true ∧ u.role n 0 = 1 then u.witSend 3 (u.pairId n) (u.pairTerm n) 0
        else if u.pairOn n = true ∧ u.pairTwin n = true ∧ u.role n 0 = 3 then u.event pReferee 0x8C02 0xFFFF n (u.pairTerm n) else u))) ∧
  (∀ (n : Fin 32) (s : State), s.pairOn n = true → s.pairTwin n = true →
    ((s.role n 0 = 3 ∨ s.role n 0 = 4) →
      let u := s.setPair n { s.pair n with renewAt := s.cycle, asked := true }
      let v := u.wr F.TWIN_STATUS_WIT_OK 0
      let w := { v with red := { v.red with txSeq := (v.red.txSeq + 1) % 2 ^ 32 } }
      ((s.pair n).asked = false → exec (.leaseRenewTimer n) s = .next (u.witSend 1 (s.pairId n) (s.pairTerm n) 0)) ∧
      ((s.pair n).asked = true → s.twinUp = true → exec (.leaseRenewTimer n) s = .next (w.relay (w.witMsg 1 (s.pairId n) (s.pairTerm n) 0) 1)) ∧
      ((s.pair n).asked = true → s.twinUp = false → exec (.leaseRenewTimer n) s = .next (v.witSend 1 (s.pairId n) (s.pairTerm n) 0))) ∧
    (s.role n 0 = 3 → (s.pair n).leaseEnd ≤ s.cycle → Gives (.leaseExpired n) s fun t => t.role n 0 = 4 ∧ Only [R.PAIR_n_STATUS n, R.PWR_MODE] s t) ∧
    (s.role n 0 = 3 → s.cycle < (s.pair n).leaseEnd → exec (.leaseExpired n) s = .next s) ∧
    (s.role n 0 ≠ 3 → exec (.leaseExpired n) s = .next s))

/-- R354, R357 to R361, R370: witness messages at a unit; the timing of PROMOTE is the model's (notes/assumptions/67.md). -/
def Obligations.WitnessMessagesAtUnit : Prop :=
  (∀ s : State, s.witFrameIn = { s with ptp := { s.ptp with rxAt := s.witFrameIn.ptp.rxAt } } ∧
    (s.rd F.TWIN_CFG_WIT_KIND = 2 → s.witFrameIn = s) ∧
    (s.rd F.TWIN_CFG_WIT_KIND ≠ 2 → s.macUp (s.rd F.TWIN_CFG_WIT_MAC) = true → s.witFrameIn = s.stampRx (s.rd F.TWIN_CFG_WIT_MAC))) ∧
  (∀ (m : WitMsg) (s : State), ∀ c ∈ [(1, Instr.witRenew m), (2, .witGrant m), (3, .witSuspect m), (4, .witProbe m), (5, .witProbeAck m), (6, .witFence m),
      (7, .witFenceAck m), (8, .witVerdict m), (9, .witYield m)],
    (s.on F.TWIN_CFG_EN = false → exec c.2 s = .next s.witFrameIn) ∧
    (s.on F.TWIN_CFG_EN = true → s.witOk c.1 m = false → Gives c.2 s fun t =>
      t.rd F.TWIN_CNT_B_WIT_DROP = min (s.rd F.TWIN_CNT_B_WIT_DROP + 1) (2 ^ 16 - 1) ∧ Only [R.TWIN_CNT_B] s.witFrameIn t)) ∧
  (∀ (m : WitMsg) (n : Nat) (s : State), s.on F.TWIN_CFG_EN = true → s.twinPair m.pair = some n →
    (s.witOk 2 m = true → (s.pair n).plan = none → m.term = s.pairTerm n →
      let x := { s.pair n with leaseEnd := (s.pair n).renewAt + msCycles (min m.lease (s.leaseMs n)), asked := false }
      (s.role n 0 = 3 → Gives (.witGrant m) s fun t =>
        t.pair n = x ∧ t.rd F.TWIN_STATUS_WIT_OK = 1 ∧ Only [R.TWIN_STATUS] { s.witFrameIn with red := t.red } t) ∧
      (s.role n 0 = 4 → s.cycle < x.leaseEnd → exec (.witGrant m) s = .next (((s.witFrameIn.heard m).setPair n x).resumeSide n)) ∧
      (s.role n 0 = 1 → s.twinUp = true → exec (.witGrant m) s = .next ((s.witFrameIn.heard m).relay m 2))) ∧
    (s.witOk 2 m = true → (s.pair n).plan.isSome = true → m.term = s.pairTerm n + 1 →
      (s.role n 0 ≠ 1 → Gives (.witGrant m) s fun t =>
        t.pair n = { s.pair n with granted := true } ∧ Only [R.TWIN_STATUS] { s.witFrameIn with red := t.red } t) ∧
      (s.role n 0 = 1 →
        let x := { s.pair n with granted := true, leaseEnd := (s.pair n).renewAt + msCycles (min m.lease (s.leaseMs n)), asked := false }
        let u := (s.witFrameIn.heard m).setPair n x
        exec (.witGrant m) s = .next (if s.twinUp = true then u.relay m 2 else u))) ∧
    (s.witOk 4 m = true → s.pairTerm n ≤ m.term → exec (.witProbe m) s = .next ((s.witFrameIn.heard m).witSend 5 m.pair (s.pairTerm n) (s.role n 0))) ∧
    (s.witOk 6 m = true → s.pairTerm n ≤ m.term → (s.role n 0 = 3 ∨ s.role n 0 = 4) → exec (.witFence m) s = .next (
      let u := (((s.witFrameIn.heard m).demote n 0).refReset n 0)
      let v := u.witSend 7 m.pair (s.pairTerm n) 0
      if v.pairTerm n < m.term then v.setTerm n m.term else v)) ∧
    (s.witOk 8 m = true → s.pairTerm n ≤ m.term → s.role n 0 = 1 → m.arg = 0 → ¬(s.twinUp = true ∧ s.red.misses < 4) → Gives (.witVerdict m) s fun t =>
      t.rd (F.PAIR_n_STATUS_STALE n) = 1 ∧ Only [R.TWIN_STATUS, R.PAIR_n_STATUS n] { s.witFrameIn with red := t.red } t) ∧
    (s.witOk 8 m = true → m.term = s.pairTerm n + 1 → s.role n 0 = 1 → m.arg = 1 → (s.witFrameIn.heard m).eligible n = some 0 →
      (((s.pair n).promo = some m.term ∨ (s.pair n).peerEnd ≤ s.cycle) →
        exec (.witVerdict m) s = .next ((((s.witFrameIn.heard m).cancelPlan n).setTerm n m.term).promote n 0 false)) ∧
      ((s.pair n).promo ≠ some m.term → s.cycle < (s.pair n).peerEnd → Gives (.witVerdict m) s fun t =>
        t.pair n = { s.pair n with promo := some m.term } ∧ Only [R.TWIN_STATUS] { s.witFrameIn with red := t.red } t))) ∧
  (∀ (id : Fin 65536) (n t : Nat) (s : State), s.isWitness = false → s.twinPair id = some n → (s.pair n).promo = some t →
    (s.eligible n = some 0 → (s.pair n).peerEnd ≤ s.cycle → exec (.witnessLeaseExpired id) s = .next (((s.cancelPlan n).setTerm n t).promote n 0 false)) ∧
    (s.eligible n ≠ some 0 ∨ s.cycle < (s.pair n).peerEnd → exec (.witnessLeaseExpired id) s = .next s)) ∧
  (∀ (index : Word) (msgs : List (Nat × WitMsg)) (s : State),
    ((s.rd F.TWIN_CFG_WIT_KIND ≠ 2 ∨ s.on F.TWIN_CFG_EN = false) → Gives (.twinMboxHostidxWrite index msgs) s fun t =>
      t.reg R.TWIN_MBOX_HOSTIDX = index ∧ Only [R.TWIN_MBOX_HOSTIDX] s t) ∧
    (s.rd F.TWIN_CFG_WIT_KIND = 2 → s.on F.TWIN_CFG_EN = true →
      let u := s.wr F.TWIN_MBOX_HOSTIDX_INDEX index.toNat
      exec (.twinMboxHostidxWrite index msgs) s = .next ((msgs.take (min 16 ((index.toNat + 2 ^ 32 - s.red.mboxNext) % 2 ^ 32))).foldl
        (fun s (k, m) => s.witAny k m) { u with red := { u.red with mboxNext := index.toNat } })))

/-- R357, R358, R360, R362: what a package does as a witness. -/
def Obligations.WitnessMessagesAtWitness : Prop :=
  let msg := fun (s : State) (k typ id term val : Nat) =>
    let u := { s with red := { s.red with txSeq := (s.red.txSeq + k) % 2 ^ 32 } }
    Msg.witness typ (u.witMsg typ id term val) (u.witFrame (u.witMsg typ id term val) typ)
  let promoted := fun (x : WitSt) => ({ x with active := x.standby, standby := none, term := x.term + 1, promote := false, leaseEnd := 0 } : WitSt)
  (∀ (m : WitMsg) (s : State), s.on F.TWIN_CFG_EN = true → s.rd F.TWIN_CFG_WIT_KIND = 3 →
    let x := s.wit m.pair
    let only := fun (t : State) => (∀ id, id ≠ m.pair → t.wit id = s.wit id) ∧ Only [R.TWIN_STATUS] { s with red := t.red, sent := t.sent, ptp := { s.ptp with rxAt := t.ptp.rxAt, txAt := t.ptp.txAt } } t
    (s.witOk 1 m = true → x.term ≤ m.term → (x.active = none ∨ x.active = some m.sender ∨ m.term = x.term + 1) → Gives (.witRenew m) s fun t =>
      t.wit m.pair = { x with
        active := some m.sender, term := m.term
        leaseEnd := s.cycle + msCycles (s.witLease m.pair) + msCycles 1 + msCycles (s.witLease m.pair) / 1000 } ∧
      t.sent = msg s 1 2 m.pair m.term (s.witLease m.pair) :: s.sent ∧ only t) ∧
    (s.witOk 3 m = true → x.term ≤ m.term → Gives (.witSuspect m) s fun t =>
      t.wit m.pair = { x with standby := some m.sender, acked := [], probing := true } ∧ t.sent = msg s 1 4 m.pair m.term 0 :: s.sent ∧ only t) ∧
    (s.witOk 5 m = true → x.probing = true → Gives (.witProbeAck m) s fun t =>
      t.wit m.pair = { x with acked := x.acked ++ [m.sender] } ∧ t.sent = s.sent ∧ only t) ∧
    (s.witOk 7 m = true → x.promote = true → x.active = some m.sender → Gives (.witFenceAck m) s fun t =>
      t.wit m.pair = promoted x ∧ t.sent = msg s 1 8 m.pair (x.term + 1) 1 :: s.sent ∧ only t) ∧
    (s.witOk 9 m = true → x.active = some m.sender → x.term ≤ m.term → Gives (.witYield m) s fun t =>
      t.wit m.pair = promoted x ∧ t.sent = msg s 1 8 m.pair (x.term + 1) 1 :: s.sent ∧ only t)) ∧
  (∀ (id : Fin 65536) (a b : Nat) (s : State), s.rd F.TWIN_CFG_WIT_KIND = 3 → (s.wit id).probing = true → (s.wit id).active = some a → (s.wit id).standby = some b →
    let x := s.wit id
    let only := fun (t : State) => (∀ k, k ≠ id.val → t.wit k = s.wit k) ∧
      t = { s with red := t.red, sent := t.sent, ptp := { s.ptp with txAt := t.ptp.txAt } }
    (a ∈ x.acked → b ∈ x.acked → Gives (.witProbeTimeout id) s fun t =>
      t.wit id = { x with probing := false, promote := false } ∧ t.sent = msg s 1 8 id x.term 0 :: s.sent ∧ only t) ∧
    (a ∉ x.acked → b ∈ x.acked → Gives (.witProbeTimeout id) s fun t =>
      t.wit id = (if x.leaseEnd ≤ s.cycle then promoted { x with probing := false } else { x with probing := false, promote := true }) ∧
      t.sent = msg s 2 8 id (x.term + 1) 1 :: msg s 1 6 id (x.term + 1) 0 :: s.sent ∧ only t) ∧
    (b ∉ x.acked → Gives (.witProbeTimeout id) s fun t => t.wit id = { x with probing := false, promote := false } ∧ t.sent = s.sent ∧ only t)) ∧
  (∀ (id : Fin 65536) (s : State), s.rd F.TWIN_CFG_WIT_KIND = 3 → s.twinPair id = none → (s.wit id).promote = true → (s.wit id).leaseEnd ≤ s.cycle → Gives (.witnessLeaseExpired id) s fun t =>
    t.wit id = promoted (s.wit id) ∧ (∀ k, k ≠ id.val → t.wit k = s.wit k) ∧ t = { s with red := t.red })
/-- R350, R351, R357, R364, R368, R369: frames of the twin link. -/
def Obligations.TwinLinkFrames : Prop :=
  (∀ (h : HbFrame) (x : CapsFrame) (ws : List Word) (sid : Fin 768) (bs : List Byte) (k : Nat) (m : WitMsg) (i : Fin 16) (dam : Bool) (l : SdiLine) (s : State),
    let all := fun ok => [Instr.twinHeartbeat ⟨ok, h⟩, .twinCaps ⟨ok, x⟩, .twinCursor ⟨ok, ws⟩, .twinFlow ⟨ok, ws⟩, .twinTemplate sid ⟨ok, bs⟩,
      .twinRelay k ⟨ok, m⟩, .twinMirror i dam ⟨ok, l⟩]
    (s.twinUp = false → ∀ ok, ∀ c ∈ all ok, exec c s = .next s) ∧
    (s.twinUp = true → ∀ c ∈ all false, Gives c s fun t =>
      t.rd F.TWIN_CNT_A_CRC_ERR = min (s.rd F.TWIN_CNT_A_CRC_ERR + 1) (2 ^ 16 - 1) ∧ Only [R.TWIN_CNT_A] s t)) ∧
  (∀ (x : CapsFrame) (s : State), s.twinUp = true → (∀ n, n < 32 → s.role n 0 ≠ 6) → Gives (.twinCaps ⟨true, x⟩) s fun t =>
    t.rd F.TWIN_PEER_LO_ID = x.unit % 2 ^ 32 ∧ t.rd F.TWIN_PEER_HI_ID = x.unit / 2 ^ 32 % 2 ^ 32 ∧ t.red.peerCaps = x.pairs ∧
    (∀ n crc a b, n < 32 → s.pairOn n = true → s.pairTwin n = true → x.pairs[n]? = some (crc, a, b) →
      let agrees := a = s.sidePath n 1 ∧ b = s.sidePath n 0 ∧ s.pathOk (s.sidePath n 0) = true ∧ crc = s.rd (F.PAIR_n_CFGCRC_CRC n)
      ((t.pair n).caps = true ↔ agrees) ∧ (t.on (F.PAIR_n_STATUS_MISMATCH n) = false ↔ agrees ∧ (s.pair n).badTpl = [])) ∧
    Only (R.TWIN_PEER_LO :: R.TWIN_PEER_HI :: (List.range 32).map R.PAIR_n_STATUS) { s with red := t.red } t) ∧
  (∀ (ws : List Word) (n : Nat) (s : State), s.twinUp = true → s.twinOf (fieldAt ws 0 0 10) = some n → s.role n 0 = 1 →
    let sid := fieldAt ws 0 0 10
    let rest := (s.pair n).badTpl.filter (· != sid)
    Gives (.twinCursor ⟨true, ws⟩) s fun t =>
    mapGet (fun _ => ((0, []) : Nat × List Word)) t.red.cursors sid = (s.chFrameNow (sid / 8), ws) ∧ t.rd (F.PAIR_n_STATUS_STALE n) = 0 ∧
    (wordAt ws 19 ≠ s.templateCrc sid → (t.pair n).badTpl = rest ++ [sid] ∧ t.rd (F.PAIR_n_STATUS_MISMATCH n) = 1) ∧
    (wordAt ws 19 = s.templateCrc sid → (t.pair n).badTpl = rest ∧
      t.rd (F.PAIR_n_STATUS_MISMATCH n) = bit ((s.red.peerCaps[n]?.isSome && !(s.pair n).caps) || rest != [])) ∧
    (∀ m, m ≠ n → t.pair m = s.pair m) ∧ Only [R.PAIR_n_STATUS n] { s with red := t.red } t) ∧
  (∀ (ws : List Word) (a b : Word) (s : State), s.twinUp = true → Gives (.twinFlow ⟨true, ws ++ [a, b]⟩) s fun t =>
    (ws.length % 2 = 0 → t.red.flows.find? (·.1 == getBits a 0 11) = some (getBits a 0 11, (a, b))) ∧
    t = { s with red := { s.red with flows := t.red.flows } }) ∧
  (∀ (sid : Fin 768) (bs : List Byte) (s : State), s.twinUp = true → Gives (.twinTemplate sid ⟨true, bs⟩) s fun t =>
    t.templateCrc sid = crc32c bs ∧ (∀ k, k ≠ sid.val → t.templateCrc k = s.templateCrc k) ∧
    t = { s with red := { s.red with templates := t.red.templates } }) ∧
  (∀ (k : Nat) (m : WitMsg) (s : State), s.twinUp = true →
    (k ∈ [2, 4, 6, 8] → exec (.twinRelay k ⟨true, m⟩) s = .next (s.witAny k m)) ∧
    (k ∉ [2, 4, 6, 8] → exec (.twinRelay k ⟨true, m⟩) s = .next (s.witOut m k)) ∧
    (s.rd F.TWIN_CFG_WIT_KIND ≠ 2 → s.witOut m k =
      { s.stampTx (s.rd F.TWIN_CFG_WIT_MAC) with sent := Msg.witness k m (s.witFrame m k) :: s.sent })) ∧
  (∀ (k : Fin 16) (dam : Bool) (x : SdiLine) (s : State), s.twinUp = true →
    let good := s.on (F.TWIN_MIRRORk_EN k) = true ∧ s.on (F.TWIN_MIRRORk_DIR k) = true ∧ s.rd F.TWIN_STATUS_LANES = 15
    (good → exec (.twinMirror k dam ⟨true, x⟩) s = .next (s.sdiLine (s.rd (F.TWIN_MIRRORk_CHANNEL k)) { x with crc := x.crc && !dam })) ∧
    (¬good → Gives (.twinMirror k dam ⟨true, x⟩) s fun t =>
      t.rd F.TWIN_CNT_B_MIRROR_DROP = min (s.rd F.TWIN_CNT_B_MIRROR_DROP + 1) (2 ^ 16 - 1) ∧ Only [R.TWIN_CNT_B] s t))

/-- R48, R354, R370 to R372: planned switches and drills. -/
def Obligations.SwitchesAndDrills : Prop :=
  (∀ (n : Fin 32) (tl : Fin 4) (back : Bool) (s : State),
    let x := s.rd (F.PAIR_n_AT_LO_STAMP n) + s.rd (F.PAIR_n_AT_HI_STAMP n) * 2 ^ 32
    let strs := (s.localSides n).flatMap fun sd => s.sideStreams n sd
    let ok := if s.pairTwin n then ((s.role n 0 = 3 ∧ s.role n 1 = 1) ∨ (s.role n 0 = 1 ∧ s.role n 1 = 3)) ∧ s.on (F.PAIR_n_STATUS_MISMATCH n) = false
      else (s.eligible n).isSome = true ∧ (s.role n 0 = 3 ∨ s.role n 1 = 3)
    let inPlace := ∀ p ∈ strs, s.chTl (s.strChan p.1 p.2) = tl.val ∧ s.slotStart p.1 p.2 x = true
    let ctl := fun (t : State) => (t.reg (R.PAIR_n_CTL n)).toNat = bit back * 16 + tl.val * 32
    let refused := fun (c : Instr) (code : Nat) => Gives c s fun t => ctl t ∧ t.rd (F.PAIR_n_STATUS_REASON n) = code ∧ t.rd F.PAIR_STATUS_REASON = code ∧
      Only [R.PAIR_n_CTL n, R.PAIR_n_STATUS n, R.PAIR_STATUS] s t
    let plans := fun (c : Instr) (drill : Bool) =>
      (s.stampCheck tl x ≠ 0 → refused c (s.stampCheck tl x)) ∧
      (s.stampCheck tl x = 0 → ¬(s.pairOn n = true ∧ ok) → refused c 0x8006) ∧
      (s.stampCheck tl x = 0 → s.pairOn n = true → ok → ¬inPlace → refused c 0x8007) ∧
      (s.stampCheck tl x = 0 → s.pairOn n = true → ok → inPlace → s.pairTwin n = true → s.role n 0 = 1 →
        let u := s.setReg (R.PAIR_n_CTL n) (BitVec.ofNat 32 (bit back * 16 + tl * 32))
        exec c s = .next ((u.setPair n { s.pair n with plan := some (tl.val, x, drill), granted := false, renewAt := s.cycle, asked := true }).witSend
          1 (s.pairId n) (s.pairTerm n + 1) 0)) ∧
      (s.stampCheck tl x = 0 → s.pairOn n = true → ok → inPlace → ¬(s.pairTwin n = true ∧ s.role n 0 = 1) → Gives c s fun t => ctl t ∧
        t.pair n = { s.pair n with plan := some (tl.val, x, drill), granted := false } ∧ (∀ m, m ≠ n.val → t.pair m = s.pair m) ∧
        Only [R.PAIR_n_CTL n] { s with red := { s.red with pairs := t.red.pairs } } t)
    plans (.pairSwitch n tl back) false ∧ plans (.pairDrill n tl back) true) ∧
  (∀ (n : Fin 32) (s : State),
    let u := s.setReg (R.PAIR_n_CTL n) (s.reg (R.PAIR_n_CTL n) &&& 0x70)
    let may := fun sd => s.role n sd = 5 ∧ s.sideHealthy n sd = true ∧ ∀ l ∈ s.leaves (s.sidePath n sd), s.inReset l = false
    ((∀ sd ∈ s.localSides n, ¬may sd) → Gives (.pairRejoin n) s fun t => t.rd (F.PAIR_n_STATUS_REASON n) = 0x8009 ∧
      Only [R.PAIR_n_CTL n, R.PAIR_n_STATUS n, R.PAIR_STATUS] s t) ∧
    (may 0 → exec (.pairRejoin n) s = .next ((u.setRole n 0 6).pairStart n)) ∧
    (s.on (F.PAIR_n_STATUS_DRILL n) = false → Gives (.pairAbort n) s fun t => t.rd (F.PAIR_n_STATUS_REASON n) = 0x800A ∧
      Only [R.PAIR_n_CTL n, R.PAIR_n_STATUS n, R.PAIR_STATUS] s t) ∧
    (s.on (F.PAIR_n_STATUS_DRILL n) = true → exec (.pairAbort n) s = .next (u.abortDrill n))) ∧
  (∀ (n : Fin 32) (s : State),
    ((s.pair n).plan = none → exec (.pairSwitchStamp n) s = .next s) ∧
    (∀ l x drill, (s.pair n).plan = some (l, x, drill) →
      (s.reachedOn l x = true → exec (.pairSwitchStamp n) s = .next (s.switchNow n drill)) ∧
      (s.reachedOn l x = false → exec (.pairSwitchStamp n) s = .next s)) ∧
    (s.on (F.PAIR_n_STATUS_DRILL n) = true → s.drillOver n = true → exec (.drillWindowEnd n) s = .next (s.drillEnd n)) ∧
    (s.on (F.PAIR_n_STATUS_DRILL n) = false ∨ s.drillOver n = false → exec (.drillWindowEnd n) s = .next s))
/-- R379, R381 to R384, R386: HBM control, refresh, temperature. -/
def Obligations.HbmControlAndRefresh : Prop :=
  (∀ (d : Fin 8) (s : State), s.hasCrown d = true → s.dieUp d = true →
    let x := s.hbmSt d
    let hot := fun (t : State) (f : Bool) => t.rd (F.HBM_STATUS_HOT d) = bit (t.on (F.HBM_CTL_REFRESH d) && (x.hotIv || f))
    let ctl := [R.HBM_CTL d, R.HBM_STATUS d]
    (s.on (F.HBM_CTL_EN d) = false → s.hbmState d = 1 → s.on (F.HBM_CTL_REFRESH d) = true → x.failed = [] → d.val ∉ s.rst.needReset →
      Gives (.hbmEn d true) s fun t => t.hbmState d = 2 ∧ t.on (F.HBM_CTL_EN d) = true ∧ Only ctl s t) ∧
    (s.on (F.HBM_CTL_EN d) = false → ¬(s.hbmState d = 1 ∧ s.on (F.HBM_CTL_REFRESH d) = true ∧ x.failed = []) →
      Gives (.hbmEn d true) s fun t => t.rd (F.HBM_STATUS_REASON d) = 0xA007 ∧ Only [R.HBM_STATUS d] s t) ∧
    (s.on (F.HBM_CTL_EN d) = true → s.hbmState d = 2 → Gives (.hbmEn d false) s fun t => t.rd (F.HBM_STATUS_REASON d) = 0xA007 ∧ Only [R.HBM_STATUS d] s t) ∧
    Gives (.hbmRefreshStart d) s (fun t => t.on (F.HBM_CTL_REFRESH d) = true ∧ t.on (F.HBM_CTL_EN d) = s.on (F.HBM_CTL_EN d) ∧
      hot t (s.on (F.HBM_CTL_HOT_FORCE d)) ∧
      (s.on (F.HBM_CTL_REFRESH d) = false → t.hbmSt d = { x with refAt := s.cycle, rhAt := s.cycle }) ∧ Only ctl { s with hbms := t.hbms } t) ∧
    Gives (.hbmMapLock d) s (fun t => t.on (F.HBM_CTL_MAP_LOCK d) = true ∧ t.on (F.HBM_CTL_EN d) = s.on (F.HBM_CTL_EN d) ∧ Only ctl s t) ∧
    ∀ f, Gives (.hbmHotForce d f) s fun t => t.on (F.HBM_CTL_HOT_FORCE d) = f ∧ hot t f ∧ Only ctl s t) ∧
  (∀ (d : Fin 8) (s : State), s.hasCrown d = true → s.on (F.HBM_CTL_REFRESH d) = true →
    let x := s.hbmSt d
    (s.cycle < x.refAt + s.refInterval d → exec (.hbmRefreshTick d) s = .next s) ∧
    (s.cycle < x.rhAt + 12800000 → exec (.hbmRhWindow d) s = .next s) ∧
    (x.refAt + s.refInterval d ≤ s.cycle → Gives (.hbmRefreshTick d) s fun t => t.rd (F.HBM_CNT_REF_REFRESHES d) = (s.rd (F.HBM_CNT_REF_REFRESHES d) + 1) % 2 ^ 32 ∧
      (t.hbmSt d).window = s.hbmWindow d ∧ (t.hbmSt d).hotIv = (x.hotT || x.noTemp) ∧ (t.hbmSt d).rows = [] ∧ (t.hbmSt d).refAt = x.refAt + s.refInterval d ∧
      t.rd (F.HBM_STATUS_HOT d) = bit (x.hotT || x.noTemp || s.on (F.HBM_CTL_HOT_FORCE d)) ∧
      (∀ pc l, x.flags = [(pc, l)] → (t.hbmSt d).flagged pc = l.drop 2 ∧
        (∀ e ∈ (t.hbmSt d).table pc, (e.1, e.2.1) ∈ l.take 2 → e.2.2 = 0) ∧
        t.rd (F.HBM_CNT_RH_MITIGATIONS d) = min (s.rd (F.HBM_CNT_RH_MITIGATIONS d) + min 2 l.length) (2 ^ 16 - 1)) ∧
      Only [R.HBM_CNT_REF d, R.HBM_CNT_RH d, R.HBM_STATUS d] { s with hbms := t.hbms } t) ∧
    (x.rhAt + 12800000 ≤ s.cycle → Gives (.hbmRhWindow d) s fun t => (∀ pc, ∀ e ∈ (t.hbmSt d).table pc, e.2.2 = 0) ∧
      (∀ pc, ((t.hbmSt d).table pc).map (fun e => (e.1, e.2.1)) = (x.table pc).map (fun e => (e.1, e.2.1))) ∧ t = { s with hbms := t.hbms })) ∧
  (∀ (d : Fin 8) (s : State), s.on (F.HBM_CTL_REFRESH d) = false → ∀ c ∈ [Instr.hbmRefreshTick d, .hbmRhWindow d], exec c s = .next s) ∧
  (∀ (d : Fin 8) (v : Fin 256) (s : State), s.hasCrown d = true → s.hbmState d ≠ 0 →
    let x := s.hbmSt d
    let c := signed 8 v.val
    Gives (.hbmTempRead d v) s (fun t => t.rdS (F.HBM_TEMP_TEMP d) = c ∧
      t.rdS (F.HBM_TEMP_MAX d) = (if x.seen then max c (s.rdS (F.HBM_TEMP_MAX d)) else c) ∧
      (t.hbmSt d).noTemp = false ∧ (85 < c → (t.hbmSt d).hotT = true ∧ (t.hbmSt d).cool = 0) ∧
      (c ≤ 82 → (t.hbmSt d).cool = min 10 (x.cool + 1) ∧ (t.hbmSt d).hotT = (x.hotT && decide (x.cool + 1 < 10))) ∧
      (82 < c → c ≤ 85 → (t.hbmSt d).cool = 0 ∧ (t.hbmSt d).hotT = x.hotT) ∧ Only [R.HBM_TEMP d] { s with hbms := t.hbms } t) ∧
    Gives (.hbmTempTimeout d) s (fun t => t.hbmSt d = { x with noTemp := true, cool := 0 } ∧ Only [] { s with hbms := t.hbms } t)) ∧
  (∀ (d : Fin 8) (v : Word) (s : State), s.hasCrown d = true → s.dieUp d = true → s.hbmState d ≠ 0 → Gives (.hbm1500Go d v) s fun t =>
    t.rd (F.HBM_1500_STATUS_BUSY d) = 1 ∧ t.rd (F.HBM_1500_CMD_INSTR d) = getBits v 0 8 ∧ t.rd (F.HBM_1500_CMD_LEN d) = getBits v 8 12 ∧
    Only [R.HBM_1500_CMD d, R.HBM_1500_STATUS d] s t) ∧
  (∀ (d : Fin 8) (data : List Word) (s : State), s.hasCrown d = true → s.rd (F.HBM_1500_STATUS_BUSY d) = 1 → Gives (.hbm1500Done d data) s fun t =>
    t.rd (F.HBM_1500_STATUS_BUSY d) = 0 ∧
    (∀ w, w < 16 → w < data.length → w * 32 < s.rd (F.HBM_1500_CMD_LEN d) → t.reg (R.HBM_1500_DATAw d w) = data.getD w 0) ∧
    (∀ w, w < 16 → s.rd (F.HBM_1500_CMD_LEN d) ≤ w * 32 → t.reg (R.HBM_1500_DATAw d w) = s.reg (R.HBM_1500_DATAw d w)) ∧
    Only (R.HBM_1500_STATUS d :: (List.range 16).map (R.HBM_1500_DATAw d)) s t)

/-- R87, R380, R383, R385 to R387: HBM accesses and training. -/
def Obligations.HbmAccessAndTraining : Prop :=
  (∀ (d : Fin 8) (m : Fin 16) (off : Nat) (hit : Bool) (sev : Fin 3) (s : State), s.hasCrown d = true → off < 24 * 2 ^ 30 →
    let p := s.place d off
    let u := s.rowAccess d p hit
    let recent := s.cycle :: (u.hbmSt d).uncAt.filter fun c => decide (s.cycle < c + 400000000)
    (s.hbmReady d = false → exec (.hbmReadDone d m off hit sev) s = .next (s.fabFail d m false (0x100000000 + off))) ∧
    (s.hbmReady d = true →
      (sev = 0 → exec (.hbmReadDone d m off hit sev) s = .next u) ∧
      (sev = 1 → exec (.hbmReadDone d m off hit sev) s = .next (u.inc (F.HBM_CNT_ECC_CORRECTED d))) ∧
      (sev = 2 → recent.length ≤ s.rd (F.HBM_ECC_LIMIT_UNCORR_MAX d) → Gives (.hbmReadDone d m off hit sev) s fun t =>
        t.rd (F.HBM_CNT_ECC_UNCORR d) = min (s.rd (F.HBM_CNT_ECC_UNCORR d) + 1) (2 ^ 16 - 1) ∧
        (t.reg (R.HBM_ECC_ADDR d)).toNat = (p.pc + p.bank * 32 + p.row * 1024) % 2 ^ 32 ∧ (t.hbmSt d).uncAt = recent ∧
        Only [R.HBM_CNT_ECC d, R.HBM_ECC_ADDR d, R.HBM_CNT_RH d] { s with hbms := t.hbms } t) ∧
      (sev = 2 → s.rd (F.HBM_ECC_LIMIT_UNCORR_MAX d) < recent.length →
        let a := BitVec.ofNat 32 (p.pc + p.bank * 32 + p.row * 1024)
        let v := ((u.setHbm d { u.hbmSt d with uncAt := recent }).inc (F.HBM_CNT_ECC_UNCORR d)).setReg (R.HBM_ECC_ADDR d) a
        exec (.hbmReadDone d m off hit sev) s = .next ((v.event (pHbm d) 0xAC01 0xFFFF (v.reg (R.HBM_ECC_ADDR d)).toNat 0).hbmFault d)))) ∧
  (∀ (d : Fin 8) (p : Place) (hit : Bool) (s : State),
    (((s.rowAccess d p hit).hbmSt d).rows.contains (p.pc * 32 + p.bank, p.row) = true ↔ hit = true) ∧
    ((s.hbmSt d).rows.contains (p.pc * 32 + p.bank, p.row) = true →
      ((s.rowAccess d p hit).hbmSt d).acts = (s.hbmSt d).acts ∧ RegsSame s (s.rowAccess d p hit))) ∧
  (∀ (d : Fin 8) (p : Place) (s : State), (∀ e ∈ (s.hbmSt d).table p.pc, ¬(e.1 = p.bank ∧ e.2.1 = p.row)) → ((s.hbmSt d).table p.pc).length < 32 →
    ((s.activate d p).hbmSt d).table p.pc = (s.hbmSt d).table p.pc ++ [(p.bank, p.row, 1)] ∧ RegsSame s (s.activate d p) ∧ MemSame s (s.activate d p)) ∧
  (∀ (d : Fin 8) (s : State), s.hasCrown d = true →
    (s.hbmReady d = true → exec (.hbmPhyLockLoss d) s = .next (s.hbmFault d)) ∧
    (s.hbmReady d = false → exec (.hbmPhyLockLoss d) s = .next s)) ∧
  (∀ (o : Nat) (w : Option (List Byte)) (s : State),
    (¬(s.rd F.HIF_STATUS_MODE = 1 ∧ s.on F.HIF_STATUS_DECODER = true) → exec (.hdmWindowAccess o w) s = .next s) ∧
    (∀ d off, s.rd F.HIF_STATUS_MODE = 1 → s.on F.HIF_STATUS_DECODER = true → s.hdm o = some (d, off) →
      (s.hbmReady d = false → exec (.hdmWindowAccess o w) s = .next (s.fabFail d 2 w.isSome (0x100000000 + off))) ∧
      (s.hbmReady d = true →
        (w = none → exec (.hdmWindowAccess o w) s =
          .next { s with sent := Msg.hdmData ((List.range 64).map fun i => s.hbmByte d (off / 64 * 64 + i)) :: s.sent }) ∧
        (∀ b, w = some [b] → Gives (.hdmWindowAccess o w) s fun t => t.hbmByte d off = b ∧
          (∀ k, k ≠ s.hbmKey d off → memRead t.hbm k = memRead s.hbm k) ∧ t = { s with hbm := t.hbm }) ∧
        ∀ bs, w = some bs → exec (.hdmWindowAccess o w) s = .next (s.hbmPut d off bs)))) ∧
  (∀ (d : Fin 8) (pc : Fin 32) (all : Bool) (pat : Fin 8) (row : Fin 32768) (len : Fin 64) (s : State), s.hasCrown d = true → s.dieUp d = true →
    let busy := s.on (F.HBM_TRAIN_STATUS_BUSY d)
    let runs := fun (op : Nat) (c : Instr) =>
      (s.hbmState d ≠ 1 ∨ 6 ≤ pat.val → Gives c s fun t => t.rd (F.HBM_STATUS_REASON d) = 0xA007 ∧ Only [R.HBM_STATUS d] s t) ∧
      (s.hbmState d = 1 → pat.val < 6 → busy = true → Gives c s fun t => t.rd (F.HBM_STATUS_REASON d) = 0xA008 ∧ Only [R.HBM_STATUS d] s t) ∧
      (s.hbmState d = 1 → pat.val < 6 → busy = false → Gives c s fun t =>
        t.rd (F.HBM_TRAIN_STATUS_BUSY d) = 1 ∧ t.rd (F.HBM_TRAIN_STATUS_CNT d) = 0 ∧ t.reg (R.HBM_TRAIN_ERR_LO d) = 0 ∧ t.reg (R.HBM_TRAIN_ERR_HI d) = 0 ∧
        t.rd (F.HBM_TRAIN_CTL_OP d) = op ∧ t.rd (F.HBM_TRAIN_CTL_PC d) = pc.val ∧ t.rd (F.HBM_TRAIN_CTL_PATTERN d) = pat.val ∧
        t.rd (F.HBM_TRAIN_CTL_ROW d) = row.val ∧ t.rd (F.HBM_TRAIN_CTL_LEN d) = len.val ∧ (t.hbmSt d).loop = decide (op = 3) ∧
        (op = 2 → MemSame s t) ∧ (op ≠ 2 → t.hbm = (s.trainFill d (t.reg (R.HBM_TRAIN_CTL d))).hbm) ∧
        Only [R.HBM_TRAIN_CTL d, R.HBM_TRAIN_STATUS d, R.HBM_TRAIN_ERR_LO d, R.HBM_TRAIN_ERR_HI d] { s with hbms := t.hbms, hbm := t.hbm } t)
    runs 1 (.hbmTrainWrite d pc all pat row len) ∧ runs 2 (.hbmTrainRead d pc all pat row len) ∧ runs 3 (.hbmTrainLoop d pc all pat row len) ∧
    Gives (.hbmTrainStop d) s (fun t => t.hbmSt d = { s.hbmSt d with loop := false } ∧ t = { s with hbms := t.hbms })) ∧
  (∀ (d : Fin 8) (errs : List (Fin 32 × Fin 40)) (bits : Nat) (s : State), s.hasCrown d = true → s.on (F.HBM_TRAIN_STATUS_BUSY d) = true →
    ((s.hbmSt d).loop = true → exec (.hbmTrainDone d errs bits) s = .next s) ∧
    ((s.hbmSt d).loop = false → Gives (.hbmTrainDone d errs bits) s fun t => t.rd (F.HBM_TRAIN_STATUS_BUSY d) = 0 ∧
      let diff := if s.rd (F.HBM_TRAIN_CTL_OP d) = 2 then s.trainDiff d (s.reg (R.HBM_TRAIN_CTL d)) else []
      t.rd (F.HBM_TRAIN_STATUS_CNT d) = (if s.rd (F.HBM_TRAIN_CTL_OP d) = 1 then 0 else min (2 ^ 31 - 1) (bits + diff.length)) ∧
      (∀ p l, (p, l) ∈ (t.hbmSt d).failed ↔ (p, l) ∈ (s.hbmSt d).failed ∨ (p, l) ∈ diff ∨
        (s.rd (F.HBM_TRAIN_CTL_OP d) ≠ 1 ∧ p ∈ trainPcs (s.reg (R.HBM_TRAIN_CTL d)) ∧ ∃ a ∈ errs, a.1.val = p ∧ a.2.val = l)) ∧
      Only [R.HBM_TRAIN_STATUS d, R.HBM_TRAIN_ERR_LO d, R.HBM_TRAIN_ERR_HI d] { s with hbms := t.hbms } t))
/-- R394, R397 to R399, R403: a lane's control register. -/
def Obligations.LaneControl : Prop :=
  (∀ (n : Fin 100) (s : State),
    let ctl := s.reg (R.LANE_n_CTL n)
    ∀ c ∈ [((1 : Word), Instr.laneDormantSet n), (ctl &&& 4, .laneDormantClear n), (ctl &&& 5 ||| 2, .laneRestart n), (ctl &&& 5 ||| 4, .laneTestSet n),
      (ctl &&& 1, .laneTestClear n)], s.laneCtlCheck n c.1 ≠ 0 → Gives c.2 s fun t =>
        t.rd (F.LANE_n_STATUS_REASON n) = s.laneCtlCheck n c.1 ∧ t.rd F.LANE_STATUS_REASON = s.laneCtlCheck n c.1 ∧
        Only [R.LANE_n_STATUS n, R.LANE_STATUS] s t) ∧
  (∀ (n : Fin 100) (s : State),
    let u := fun (v : Word) => s.setReg (R.LANE_n_CTL n) v
    let dorm := s.on (F.LANE_n_CTL_DORMANT n)
    let test := s.on (F.LANE_n_CTL_TEST n)
    let st := s.laneStage n
    (s.laneCtlCheck n 1 = 0 → test = false → st ≠ 0 → exec (.laneDormantSet n) s =
      .next ((((u 1).wr (F.LANE_n_STATUS_EXITING n) 0).wr (F.LANE_n_STATUS_CHK_LOCK n) 0).setStage n 6 false)) ∧
    (s.laneCtlCheck n 1 = 0 → test = false → st = 0 → exec (.laneDormantSet n) s = .next (u 1)) ∧
    (s.laneCtlCheck n 1 = 0 → test = true → st = 7 → exec (.laneDormantSet n) s =
      .next (((((u 1).toDetect n).wr (F.LANE_n_STATUS_EXITING n) 0).wr (F.LANE_n_STATUS_CHK_LOCK n) 0).setStage n 6 false)) ∧
    (dorm = true → test = false → st = 6 → exec (.laneDormantClear n) s = .next (((u 0).wr (F.LANE_n_STATUS_EXITING n) 1).showLane n)) ∧
    (dorm = false → test = false → exec (.laneDormantClear n) s = .next (u 0)) ∧
    (s.on (F.LANE_n_STATUS_EXITING n) = true → exec (.laneDormantExitDone n) s = .next ((s.wr (F.LANE_n_STATUS_EXITING n) 0).toDetect n)) ∧
    (s.on (F.LANE_n_STATUS_EXITING n) = false → exec (.laneDormantExitDone n) s = .next s) ∧
    (dorm = false → st ≠ 6 → st ≠ 0 → exec (.laneRestart n) s =
      .next (((u (s.reg (R.LANE_n_CTL n) &&& 5)).inc (F.LANE_n_CNT_RESTARTS n)).toDetect n)) ∧
    (dorm = false → st = 0 → exec (.laneRestart n) s = .next (u (s.reg (R.LANE_n_CTL n) &&& 5))) ∧
    (dorm = false → test = false → st ≠ 6 → st ≠ 0 → s.laneInUse n = false → exec (.laneTestSet n) s = .next (((u 4).setStage n 7 false).injectNow n)) ∧
    (dorm = false → test = true → st = 7 → exec (.laneTestClear n) s = .next ((u 0).toDetect n)) ∧
    (dorm = false → test = true → st ≠ 7 → exec (.laneTestClear n) s = .next (u 0))) ∧
  (∀ (n : Fin 100) (bits errs : Nat) (s : State), s.on (F.LANE_n_CTL_DORMANT n) = false → s.laneStage n ≠ 6 →
    let x := s.lane n
    let y := if s.on (F.LANE_n_STATUS_CHK_LOCK n) then { x with bits := min (2 ^ 48 - 1) (x.bits + bits), errs := min (2 ^ 48 - 1) (x.errs + errs) } else x
    Gives (.laneSnap n bits errs) s fun t => t.lane n = y ∧ (∀ m, m ≠ n.val → t.lane m = s.lane m) ∧
      t.rd (F.LANE_n_ERR_LO_ERR n) = y.errs % 2 ^ 32 ∧ t.rd (F.LANE_n_ERR_HI_ERR n) = y.errs / 2 ^ 32 % 2 ^ 16 ∧
      t.rd (F.LANE_n_BITS_LO_BITS n) = y.bits % 2 ^ 32 ∧ t.rd (F.LANE_n_BITS_HI_BITS n) = y.bits / 2 ^ 32 % 2 ^ 16 ∧
      t.on (F.LANE_n_CTL_TEST n) = s.on (F.LANE_n_CTL_TEST n) ∧
      Only [R.LANE_n_CTL n, R.LANE_n_ERR_LO n, R.LANE_n_ERR_HI n, R.LANE_n_BITS_LO n, R.LANE_n_BITS_HI n] { s with lanes := t.lanes } t)

/-- R394, R395, R399, R400, R402, R405: bring-up and pattern test of a lane. -/
def Obligations.LaneBringUpAndTest : Prop :=
  (∀ (n : Fin 100) (present : Bool) (eq : Word) (same : Bool) (unit : Nat) (s : State),
    let st := s.laneStage n
    let done := Instr.laneStageDone n eq same unit
    (st = 1 → s.laneProbes n = true → present = false → Gives (.laneDetectProbe n present) s fun t =>
      t.rd (F.LANE_n_STATUS_RX_PRESENT n) = 0 ∧ t.laneStage n = 1 ∧ Only [R.LANE_n_STATUS n] s t) ∧
    (st = 1 → s.laneProbes n = true → present = true → exec (.laneDetectProbe n present) s =
      .next ((s.wr (F.LANE_n_STATUS_RX_PRESENT n) 1).setStage n (if s.laneAn n then 4 else 2) false)) ∧
    ((st ≠ 1 ∨ s.laneProbes n = false) → exec (.laneDetectProbe n present) s = .next s) ∧
    (st = 1 → s.laneProbes n = false → exec done s = .next (s.setStage n (if s.laneAn n then 4 else 2) false)) ∧
    (st = 2 → exec done s = .next ((s.setReg (R.LANE_n_EQ n) ((if s.laneTrains n then eq else s.reg (R.LANE_n_TXEQ n)) &&& 0x3F3F3F)).setStage n 3 false)) ∧
    (st = 3 → (s.laneAn n = true ∨ 96 ≤ n.val) → (s.lane n).exch = false → exec done s = .next (s.setStage n 4 true)) ∧
    (st = 3 → ¬((s.laneAn n = true ∨ 96 ≤ n.val) ∧ (s.lane n).exch = false) → exec done s = .next ((s.setLane n { s.lane n with fails := 0 }).setStage n 5 true)) ∧
    (st = 4 → s.twinPeerBad n same unit = true → Gives done s fun t => t.rd (F.LANE_n_STATUS_REASON n) = 0x900C ∧ Only [R.LANE_n_STATUS n] s t) ∧
    (st = 4 → s.twinPeerBad n same unit = false → s.laneAn n = true → exec done s = .next ((s.setLane n { s.lane n with exch := true }).setStage n 2 false)) ∧
    (st = 4 → s.twinPeerBad n same unit = false → s.laneAn n = false → exec done s =
      .next ((s.setLane n { s.lane n with exch := true }).toActive n))) ∧
  (∀ (n : Fin 100) (s : State),
    let st := s.laneStage n
    let f := (s.lane n).fails + 1
    (2 ≤ st → st ≤ 4 → f ≠ 3 → exec (.laneStageTimeout n) s =
      .next (((s.setLane n { s.lane n with fails := f }).inc (F.LANE_n_CNT_RESTARTS n)).toDetect n)) ∧
    (2 ≤ st → st ≤ 4 → f = 3 → exec (.laneStageTimeout n) s =
      .next ((((s.setLane n { s.lane n with fails := 0 }).inc (F.LANE_n_CNT_RESTARTS n)).event (lanePath n) 0x9C01 0xFFFF n st).toDetect n)) ∧
    (¬(2 ≤ st ∧ st ≤ 4) → exec (.laneStageTimeout n) s = .next s) ∧
    (st = 5 → exec (.laneLockLost n) s = .next ((s.inc (F.LANE_n_CNT_LOL n)).setStage n 3 false)) ∧
    (st ≠ 5 → exec (.laneLockLost n) s = .next s)) ∧
  (∀ (n : Fin 108) (v : Word) (s : State), n.val < 100 →
    let bad := injBad n (getBits v 0 2) (getBits v 2 1 == 1) (getBits v 4 6)
    (bad = true → Gives (.laneInject n v) s fun t => t.rd (F.LANE_n_STATUS_REASON n) = 0x9007 ∧ Only [R.LANE_n_STATUS n, R.LANE_STATUS] s t) ∧
    (bad = false → getBits v 0 2 ≠ 1 → Gives (.laneInject n v) s fun t => t.reg (R.LANE_n_INJ n) = v &&& 0x3F7 ∧
      t.lane n = { s.lane n with since := 0 } ∧ (∀ m, m ≠ n.val → t.lane m = s.lane m) ∧ Only [R.LANE_n_INJ n] { s with lanes := t.lanes } t) ∧
    (bad = false → exec (.laneInject n v) s = .next (((s.setReg (R.LANE_n_INJ n) (v &&& 0x3F7)).setLane n { s.lane n with since := 0 }).injectNow n))) ∧
  (∀ (n : Fin 108) (v : Word) (s : State), 100 ≤ n.val → s.hasCrown (n - 100) = true →
    exec (.laneInject n v) s = .next (s.uciPatWrite (n - 100) v)) ∧
  (∀ (n : Fin 108) (bits : Nat) (errs : List (Fin 64 × Nat)) (s : State), s.chkRuns n = true →
    let lost := Instr.checkerLockLost n bits errs
    let sum := (errs.map (·.2)).sum
    let x := s.lane n
    (s.chkLocked n = true → exec (.checkerLock n) s = .next s) ∧ (s.chkLocked n = false → exec lost s = .next s) ∧
    (n.val < 100 → s.chkLocked n = false → Gives (.checkerLock n) s fun t => t.rd (F.LANE_n_STATUS_CHK_LOCK n) = 1 ∧
      t.rd (F.LANE_n_RELOCK_RELOCKS n) = min (s.rd (F.LANE_n_RELOCK_RELOCKS n) + bit x.relock) (2 ^ (F.LANE_n_RELOCK_RELOCKS 0).width - 1) ∧
      t.lane n = { x with relock := false } ∧ Only [R.LANE_n_STATUS n, R.LANE_n_RELOCK n] { s with lanes := t.lanes } t) ∧
    (n.val < 100 → s.chkLocked n = true → Gives lost s fun t => t.rd (F.LANE_n_STATUS_CHK_LOCK n) = 0 ∧
      t.lane n = { x with relock := true, bits := min (2 ^ 48 - 1) (x.bits + bits), errs := min (2 ^ 48 - 1) (x.errs + sum) } ∧
      Only [R.LANE_n_STATUS n] { s with lanes := t.lanes } t) ∧
    (100 ≤ n.val → s.chkLocked n = false → Gives (.checkerLock n) s fun t => t.lane n = { x with exch := true } ∧ t = { s with lanes := t.lanes }) ∧
    (100 ≤ n.val → s.chkLocked n = true → Gives lost s fun t => (t.lane n).exch = false ∧
      Only [R.LANE_UCIk_ERR (n - 100), R.LANE_UCIk_WORST (n - 100)] { s with lanes := t.lanes } t))

/-- R29, R30, R410, R412, R413, R492: modules and the fabric's registers. -/
def Obligations.ModulesAndFabric : Prop :=
  (∀ (k : Fin 8) (s : State), s.hasCrown k = true →
    (s.uciState k = 2 → Gives (.ucieLinkDown k) s fun t => t.uciState k = 1 ∧
      t.rd (F.LANE_UCIk_STATUS_RETRAINS k) = min (s.rd (F.LANE_UCIk_STATUS_RETRAINS k) + 1) (2 ^ (F.LANE_UCIk_STATUS_RETRAINS 0).width - 1) ∧
      t.lane (100 + k) = { s.lane (100 + k) with prev := 1 } ∧ Only [R.LANE_UCIk_STATUS k] { s with lanes := t.lanes } t) ∧
    (s.uciState k ≠ 2 → exec (.ucieLinkDown k) s = .next s) ∧
    Gives (.ucieFlitCrcFail k) s fun t =>
      t.rd (F.LANE_UCIk_RETRY_FLIT_RETRY k) =
        (s.rd (F.LANE_UCIk_RETRY_FLIT_RETRY k) + if s.on (F.LANE_UCIk_STATUS_RATE16 k) then 2 else 1) % 2 ^ (F.LANE_UCIk_RETRY_FLIT_RETRY 0).width ∧
      Only [R.LANE_UCIk_RETRY k] s t) ∧
  (∀ (k : Fin 8) (slow : Bool) (rep : Fin 64) (s : State), s.hasCrown k = true → s.uciState k = 1 →
    let up := fun (t : State) => t.uciState k = 2 ∧ t.rd (F.LANE_UCIk_STATUS_RATE16 k) = bit slow ∧ t.rd (F.LANE_UCIk_STATUS_REPAIRED k) = rep.val
    ((s.lane (100 + k)).prev = 1 → Gives (.ucieRetrainDone k true slow rep) s fun t => up t ∧
      t.lane (100 + k) = { s.lane (100 + k) with prev := 0 } ∧ Only [R.LANE_UCIk_STATUS k] { s with lanes := t.lanes } t) ∧
    ((s.lane (100 + k)).prev = 1 → exec (.ucieRetrainDone k false slow rep) s = .next (
      let u := s.setLane (100 + k) { s.lane (100 + k) with prev := 0 }
      (((u.wr (F.LANE_UCIk_STATUS_STATE k) 0).event (pUcie k) 0x9C02 0xFFFF k 1).crownLost k).pairScan.modeUpdate)) ∧
    ((s.lane (100 + k)).prev = 0 → k.val ∉ s.rst.needReset → Gives (.ucieTrainDone k true slow rep) s fun t => up t ∧ pUcie k ∉ t.rst.faults ∧
      Only [R.LANE_UCIk_STATUS k, R.PWR_MODE] { s with rst := { s.rst with faults := t.rst.faults } } t) ∧
    ((s.lane (100 + k)).prev = 0 → exec (.ucieTrainDone k false slow rep) s = .next (s.trainedUci k false slow rep))) ∧
  (∀ (d : Fin 8) (v : Word) (s : State), s.dieUp d = true →
    (s.on (F.FAB_REMAP_LOCK d) = true → Gives (.fabRemapWrite d v) s fun t =>
      t.rd (F.FAB_REMAP_IGNORED d) = min (s.rd (F.FAB_REMAP_IGNORED d) + 1) (2 ^ (F.FAB_REMAP_IGNORED 0).width - 1) ∧
      t.rd (F.FAB_REMAP_SWAP0 d) = s.rd (F.FAB_REMAP_SWAP0 d) ∧ t.rd (F.FAB_REMAP_LOCK d) = 1 ∧ Only [R.FAB_REMAP d] s t) ∧
    (s.on (F.FAB_REMAP_LOCK d) = false → Gives (.fabRemapWrite d v) s fun t => t.rd (F.FAB_REMAP_SWAP0 d) = getBits v 0 1 ∧
      t.rd (F.FAB_REMAP_LOCK d) = getBits v 1 1 ∧ t.rd (F.FAB_REMAP_IGNORED d) = s.rd (F.FAB_REMAP_IGNORED d) ∧ Only [R.FAB_REMAP d] s t) ∧
    Gives (.fabErrClear d) s fun t => t.rd (F.FAB_ERR_INFO_VALID d) = 0 ∧ Only [R.FAB_ERR_INFO d] s t) ∧
  (∀ (d : Fin 8) (p : Fin 16) (s : State), s.dieUp d = true → p.val < fabTargets d →
    (s.rd (F.FAB_Tt_ARB_MAXWAIT d p) = 0 → exec (.fabPromote d p) s = .next s) ∧
    (s.rd (F.FAB_Tt_ARB_MAXWAIT d p) ≠ 0 → Gives (.fabPromote d p) s fun t =>
      t.rd (F.FAB_Tt_CNT_PROMOTED d p) = min (s.rd (F.FAB_Tt_CNT_PROMOTED d p) + 1) (2 ^ 16 - 1) ∧ Only [(F.FAB_Tt_CNT_PROMOTED d p).reg] s t))
/-- R414, R416 to R418: the CRC engines; that RESET sets no DONE is the model's reading (notes/assumptions/70.md). -/
def Obligations.CrcEngines : Prop :=
  (∀ (d : Fin 8) (k : Fin 16) (v : Word) (sv : Bool) (s : State), s.dieUp d = true →
    let p := s.crcPoly d k
    let free := s.crcBound d k = false ∧ s.crcBusy d k = false
    let src := s.crcAddr (F.CRC_k_SRC_LO_ADDR d k) (F.CRC_k_SRC_HI_ADDR d k)
    let dst := s.crcAddr (F.CRC_k_DST_LO_ADDR d k) (F.CRC_k_DST_HI_ADDR d k)
    let len := s.rd (F.CRC_k_LEN_LEN d k)
    let dropped := fun (c : Instr) => Gives c s fun t => t.rd (F.CRC_k_STATUS_DROPPED d k) = min (s.rd (F.CRC_k_STATUS_DROPPED d k) + 1) (2 ^ 16 - 1) ∧
      Only [R.CRC_k_STATUS d k] s t
    let holds := fun (t : State) (x : Nat) => t.rd (F.CRC_k_VALUE_VALUE d k) = x % 2 ^ crcWidth p ∧ t.rd (F.CRC_k_RESULT_RESULT d k) = (x % 2 ^ crcWidth p) ^^^ crcXor p
    let vals := [R.CRC_k_VALUE d k, R.CRC_k_RESULT d k]
    let starts := fun (op : Nat) (c : Instr) =>
      (free → crcBad p op src dst len = true → Gives c s fun t => t.crcBusy d k = false ∧ t.rd (F.CRC_k_STATUS_ERROR d k) = 1 ∧
        t.rd (F.CRC_k_BYTES_BYTES d k) = 0 ∧ Only [R.CRC_k_BYTES d k, R.CRC_k_STATUS d k] s t) ∧
      (free → crcBad p op src dst len = false → Gives c s fun t => t.crcBusy d k = true ∧ t.rd (F.CRC_k_STATUS_ERROR d k) = 0 ∧
        t.crcOp d k = some (op, src, dst, len) ∧ t.rd (F.CRC_k_BYTES_BYTES d k) = 0 ∧ Only [R.CRC_k_BYTES d k, R.CRC_k_STATUS d k] { s with crcs := t.crcs } t)
    (free → Gives (.crcReset d k) s fun t => holds t (crcInit p) ∧ t.rd (F.CRC_k_BYTES_BYTES d k) = 0 ∧ t.crcBusy d k = false ∧
      t.rd (F.CRC_k_STATUS_DONE d k) = 0 ∧ t.rd (F.CRC_k_STATUS_ERROR d k) = 0 ∧ Only (R.CRC_k_BYTES d k :: R.CRC_k_STATUS d k :: vals) s t) ∧
    starts 2 (.crcCompute d k) ∧ starts 3 (.crcAppend d k) ∧ starts 4 (.crcStrip d k) ∧
    (free → Gives (.crcData32 d k v) s fun t => holds t ((if p = 3 then [getBits v 0 10, getBits v 16 10]
      else [getBits v 0 8, getBits v 8 8, getBits v 16 8, getBits v 24 8]).foldl (crcUnit p) (s.crcValue d k)) ∧ Only vals s t) ∧
    (free → p = 3 → Gives (.crcData16 d k v) s fun t => holds t (crcUnit p (s.crcValue d k) (getBits v 0 10)) ∧ Only vals s t) ∧
    (free → p ≠ 3 → Gives (.crcData8 d k v) s fun t => holds t (crcUnit p (s.crcValue d k) (getBits v 0 8)) ∧ Only vals s t) ∧
    (free → p = 3 → Gives (.crcData8 d k v) s fun t => (∃ x, holds t x) ∧ Only vals { s with freeCtr := t.freeCtr } t) ∧
    (free → p ≠ 3 → Gives (.crcData16 d k v) s fun t => (∃ x, holds t x) ∧ Only vals { s with freeCtr := t.freeCtr } t) ∧
    (free → Gives (.crcValueWrite d k v) s fun t => holds t v.toNat ∧ Only vals s t) ∧
    (¬free → ∀ c ∈ [Instr.crcReset d k, .crcCompute d k, .crcAppend d k, .crcStrip d k, .crcData32 d k v, .crcData16 d k v, .crcData8 d k v, .crcValueWrite d k v],
      dropped c) ∧
    dropped (.crcBadOp d k sv) ∧ (s.crcBound d k = true → dropped (.crcAbort d k)) ∧
    (s.crcBound d k = false → s.crcOp d k = none → exec (.crcAbort d k) s = .next s) ∧
    (s.crcBound d k = false → (s.crcOp d k).isSome = true → Gives (.crcAbort d k) s fun t => t.crcOp d k = none ∧ t.crcBusy d k = false ∧
      t.rd (F.CRC_k_STATUS_ERROR d k) = 1 ∧ t.rd (F.CRC_k_STATUS_DONE d k) = 0) ∧
    Gives (.crcClaimRead d k) s (fun t => t.rdata = s.reg (R.CRC_k_CLAIM d k) ∧ t.rd (F.CRC_k_CLAIM_CLAIM d k) = 1 ∧
      Only [R.CRC_k_CLAIM d k] { s with rdata := t.rdata } t) ∧
    (s.crcBound d k = false → Gives (.crcClaimRelease d k) s fun t => t.rd (F.CRC_k_CLAIM_CLAIM d k) = 0 ∧ Only [R.CRC_k_CLAIM d k] s t)) ∧
  (∀ (d : Fin 8) (k : Fin 16) (s : State),
    (s.crcOp d k = none → exec (.crcOpDone d k) s = .next s) ∧
    ((s.crcOp d k).isSome = true → Gives (.crcOpDone d k) s fun t => t.crcOp d k = none ∧ t.crcBusy d k = false) ∧
    (∀ src dst len bs u, s.crcOp d k = some (2, src, dst, len) → 1 ≤ len → len ≤ 16 → s.fabBytes d src len = (u, some bs) → Gives (.crcOpDone d k) s fun t =>
      t.rd (F.CRC_k_VALUE_VALUE d k) = crcFeed (s.crcPoly d k) (s.crcValue d k) bs % 2 ^ crcWidth (u.crcPoly d k) ∧
      t.rd (F.CRC_k_STATUS_DONE d k) = 1 ∧ t.rd (F.CRC_k_STATUS_ERROR d k) = 0 ∧ t.rd (F.CRC_k_BYTES_BYTES d k) = len ∧
      Only [R.CRC_k_VALUE d k, R.CRC_k_RESULT d k, R.CRC_k_BYTES d k, R.CRC_k_STATUS d k] { u with crcs := t.crcs } t))

/-- R428 to R432: the recorder's commands. -/
def Obligations.RecorderCommands : Prop :=
  (∀ (d : Fin 8) (s : State),
    let c := s.copyNext d
    let ws := s.recAt d (c % recN d)
    let gs := mapGet (fun _ => []) s.recorder.groves (d * 16384 + c % recN d)
    let young := s.newestOf d c = true ∧ s.cycle < mapGet (fun _ => 0) s.recorder.newAt d + 400 * max 1 (s.rd F.REC_STREAM_HOLD_US)
    (s.on F.REC_STREAM_EN = false ∨ s.crowns < d.val → exec (.recStreamCopy d) s = .next s) ∧
    (c = s.rd (F.REC_HEAD_SEQ d) ∨ young → exec (.recStreamCopy d) s = .next s) ∧
    (s.on F.REC_STREAM_EN = true → d.val ≤ s.crowns → c ≠ s.rd (F.REC_HEAD_SEQ d) → ¬young →
      (s.streams ws gs = false → Gives (.recStreamCopy d) s fun t => mapGet (fun _ => 0) t.recorder.copied d = (c + 1) % 2 ^ 32 ∧
        t = { s with recorder := { s.recorder with copied := t.recorder.copied } }) ∧
      (s.streams ws gs = true → exec (.recStreamCopy d) s = .next ((s.setCopied d ((c + 1) % 2 ^ 32)).copyOut (s.rd F.REC_STREAM_RING) ws)))) ∧
  (∀ (r : Nat) (ws : List Word) (s : State), s.activeRing r 4 = false → (s.copyOut r ws).rd F.REC_CNT_S_LOST = min (s.rd F.REC_CNT_S_LOST + 1) (2 ^ 32 - 1) ∧
    Only [R.REC_CNT_S] s (s.copyOut r ws)) ∧
  (∀ (r : Fin 4096) (s : State) (x : Desc), s.dispatchable r 0x40 = some x → fieldAt x.words 7 15 17 = 0 → fieldAt x.words 8 15 17 = 0 →
    (∀ k, 9 ≤ k → k ≤ 14 → x.words.getD k 0 = 0) →
    exec (.recRead r) s = .next (((s.popFetched r).recCopies x.words).complete r x.idx (dTag x.words) (dNocpl x.words) 0 0 Wm.zero)) ∧
  (∀ s : State,
    (s.on F.REC_CLR_STATUS_BUSY = true → Gives .recClrGo s fun t => t.rd F.REC_CLR_STATUS_IGNORED = min (s.rd F.REC_CLR_STATUS_IGNORED + 1) (2 ^ 16 - 1) ∧
      Only [R.REC_CLR_STATUS] s t) ∧
    (s.on F.REC_CLR_STATUS_BUSY = false → Gives .recClrGo s fun t => t.on F.REC_CLR_STATUS_BUSY = true ∧
      t.recorder = { s.recorder with clrHead := s.rd (F.REC_HEAD_SEQ (s.rd F.REC_CLR_DIE_DIE)) } ∧ Only [R.REC_CLR_STATUS] s t) ∧
    (s.on F.REC_CLR_STATUS_BUSY = false → exec .recClearChecked s = .next s) ∧
    (s.on F.REC_CLR_STATUS_BUSY = true → Gives .recClearChecked s fun t =>
      t.rd F.REC_CLR_STATUS_RESULT = s.clearResult ∧ t.on F.REC_CLR_STATUS_BUSY = false ∧
      (s.clearResult = 1 → t.rd F.REC_CLR_STATUS_FAILS = 0 ∧ t.rd F.REC_CLR_STATUS_LOCKED = s.rd F.REC_CLR_STATUS_LOCKED ∧
        (s.rd F.REC_CLR_DIE_DIE ≠ 0 → t.rd (F.REC_TAIL_SEQ (s.rd F.REC_CLR_DIE_DIE)) = s.rd F.REC_CLR_UPTO_SEQ)) ∧
      (s.clearResult ≠ 1 → t.rd F.REC_CLR_STATUS_FAILS = min (s.rd F.REC_CLR_STATUS_FAILS + 1) 15 ∧
        t.rd F.REC_CLR_STATUS_LOCKED = if s.rd F.REC_CLR_STATUS_FAILS = 7 then 1 else s.rd F.REC_CLR_STATUS_LOCKED) ∧
      Only (R.REC_CLR_STATUS :: (List.range 4).map R.REC_CHALw) { s with freeCtr := t.freeCtr } t))
/-- R433, R436, R438 to R442, R445, R447, R455, R458, R477: what resets the package, a die or a reach. -/
def Obligations.ResetSources : Prop :=
  (∀ s : State, Gives .supplyLoss s fun t => t.rd F.PWR_MODE_MODE = 1 ∧ (∀ a, a ≠ R.PWR_MODE → t.reg a = regReset s.variant.crowns a) ∧
    t.hbm = [] ∧ t.rst.sram = [] ∧ t.recorder = State.reset.recorder ∧ t.rst.holds = [(0, packagePath)] ∧ t.host.mem = s.host.mem ∧ t.sent = s.sent ∧
    t.rst.rstN = s.rst.rstN ∧ t.rst.perst = s.rst.perst) ∧
  (∀ (xs : List (Fin 32)) (s : State),
    (s.isOff = false → exec (.powerGood xs) s = .next s) ∧
    (s.isOff = true → Gives (.powerGood xs) s fun t => (∀ d, d ≤ s.crowns → t.rd (F.RST_CAUSE_SRC d) = 1) ∧ t.rst.pkgSrc = some 0 ∧
      t.hbm = [] ∧ t.rst.sram = [] ∧ t.host.mem = s.host.mem ∧ t.sent = s.sent ∧
      (∀ b, b < 5 → getBits (t.reg R.BOOT_STRAPS) b 1 = bit (majority (xs.map fun x => decide (x.val / 2 ^ b % 2 = 1)))))) ∧
  (∀ s : State,
    let lowers := fun (c : Instr) (src : Nat) (low : State → Bool) =>
      (s.isOff = true → Gives c s fun t => low t = true ∧ t = { s with rst := t.rst }) ∧
      (s.isOff = false → (∀ h ∈ s.rst.holds, h.1 ≠ src) → Gives c s fun t => low t = true ∧ (src, packagePath) ∈ t.rst.holds ∧
        (∀ a, (∀ d, d ≤ s.crowns → survives d a = false ∧ a ≠ R.PWR_THERM_STATUS d) → t.reg a = regReset s.variant.crowns a) ∧
        (∀ d, d ≤ s.crowns → t.on (F.PWR_THERM_STATUS_TRIPPED d) = s.rst.holds.any (·.1 == 4 + 8 * d) ∧ t.rd (F.PWR_THERM_STATUS_MAX d) = 0) ∧
        (∀ d, d ≤ s.crowns → t.rd (F.RST_CAUSE_SRC d) = (s.rd (F.RST_CAUSE_SRC d) ||| 2 ^ src)) ∧
        t.hbm = s.hbm ∧ t.rst.sram = s.rst.sram ∧ t.host.mem = s.host.mem ∧ t.sent = s.sent)
    lowers .rstNAssert 2 (fun t => t.rst.rstN) ∧ lowers .perstAssert 1 (fun t => t.rst.perst)) ∧
  (∀ (xs : List (Fin 32)) (s : State),
    let a : State := { s with rst := { s.rst with rstN := false } }
    let b : State := { s with rst := { s.rst with perst := false } }
    (s.rst.rstN = false → exec (.rstNRelease xs) s = .next s) ∧ (s.rst.perst = false → exec .perstRelease s = .next s) ∧
    (s.rst.rstN = true → exec (.rstNRelease xs) s = .next (if s.isOff then a else (a.latchStraps xs).releasePackage 2)) ∧
    (s.rst.perst = true → exec .perstRelease s = .next (if s.isOff then b else b.releasePackage 1))) ∧
  (∀ (d : Fin 8) (v : Word) (s : State), s.dieUp d = true →
    (d = 0 → v = 0xA5A5 → exec (.rstGlobalWrite v) s = .next ((s.packageReset 5).releasePackage 5)) ∧
    (d = 0 → v ≠ 0xA5A5 → Gives (.rstGlobalWrite v) s fun t => t.rd (F.RST_STATUS_REASON 0) = 0xD005 ∧ Only [R.RST_STATUS 0] s t) ∧
    Gives (.rstCauseClear d v) s (fun t => t.reg (R.RST_CAUSE d) = s.reg (R.RST_CAUSE d) &&& ~~~v ∧ Only [R.RST_CAUSE d] s t) ∧
    (v = 0x4B1C → s.on (F.RST_WDT_CFG_EN d) = true → Gives (.wdtKick d v) s fun t => t.wdtLeft d = s.rd (F.RST_WDT_CFG_TIMEOUT_MS d) ∧
      t = { s with rst := { s.rst with wdtAt := t.rst.wdtAt } }) ∧
    ((v ≠ 0x4B1C ∨ s.on (F.RST_WDT_CFG_EN d) = false) → exec (.wdtKick d v) s = .next s)) ∧
  (∀ (d : Fin 8) (s : State),
    (s.on (F.RST_WDT_CFG_EN d) = false ∨ s.crowns < d.val ∨ s.wdtLeft d ≠ 0 → exec (.wdtExpired d) s = .next s) ∧
    (s.on (F.RST_WDT_CFG_EN d) = true → d.val ≤ s.crowns → s.wdtLeft d = 0 → exec (.wdtExpired d) s = .next (if d = 0 then (s.packageReset 3).releasePackage 3
      else ((s.assertReset (3 + 8 * d) (mkPath [d])).releaseReset (3 + 8 * d)).settle))) ∧
  (∀ (j : Fin 16) (s : State), s.dieUp 0 = true →
    let p := s.rd (F.RST_GRVj_PATH_PATH j)
    let held := s.on (F.RST_GRVj_CTL_HOLD j)
    (held = false → s.grvCheck p ≠ 0 → Gives (.rstGrvHold j) s fun t => t.rd (F.RST_STATUS_REASON 0) = s.grvCheck p ∧ Only [R.RST_STATUS 0] s t) ∧
    (held = false → s.grvCheck p = 0 → exec (.rstGrvHold j) s =
      .next ((((s.wr (F.RST_GRVj_CTL_HOLD j) 1).wr (F.RST_GRVj_CTL_STATE j) 2).assertReset (6 + 8 * j) p).settle)) ∧
    (held = true → exec (.rstGrvHold j) s = .next s) ∧ (held = false → exec (.rstGrvRelease j) s = .next s) ∧
    (held = true → exec (.rstGrvRelease j) s =
      .next ((((s.wr (F.RST_GRVj_CTL_HOLD j) 0).wr (F.RST_GRVj_CTL_STATE j) 3).releaseReset (6 + 8 * j)).settle))) ∧
  (∀ (q : Word) (s : State),
    (s.isOff = false → s.pathOk q.toNat = true → exec (.clockGood q) s = .next (
      let u := s.clockGood q.toNat
      (u.lanesBack (s.rst.waiting.filter fun x => !u.rst.waiting.contains x)).settle)) ∧
    ((s.isOff = true ∨ s.pathOk q.toNat = false) → exec (.clockGood q) s = .next s) ∧
    (q.toNat ∈ s.rst.waiting → q.toNat ∉ s.rst.noclk → exec (.noclkTimeout q) s = .next (
      (({ s with rst := { s.rst with noclk := s.rst.noclk ++ [q.toNat] } } : State).showDoms.rstEvent (s.releasedBy q.toNat) 2 q.toNat).settle)) ∧
    ((q.toNat ∉ s.rst.waiting ∨ q.toNat ∈ s.rst.noclk) → exec (.noclkTimeout q) s = .next s))

/-- R434, R446, R449, R450, R455: temperature, power and modes. -/
def Obligations.PowerAndModes : Prop :=
  (∀ (d : Fin 8) (xs : List (Fin 256)) (s : State), d.val ≤ s.crowns → xs.length = 8 → s.isOff = false →
    let ts := xs.map fun x => signed 8 x.val
    let trip := (s.rd (F.PWR_THERM_CFG_TRIP d) : Int)
    let tripped := s.on (F.PWR_THERM_STATUS_TRIPPED d)
    (tripped = false → (∃ t ∈ ts, trip < t) → exec (.thermSample d xs) s = .next ((s.trip d).showTherm d ts)) ∧
    (tripped = true → (∀ t ∈ ts, t ≤ trip - 10) → exec (.thermSample d xs) s = .next ((s.untrip d).showTherm d ts)) ∧
    ((tripped = false ∧ (∀ t ∈ ts, t ≤ trip)) ∨ (tripped = true ∧ ∃ t ∈ ts, trip - 10 < t) → Gives (.thermSample d xs) s fun t =>
      (∀ k, k < 8 → t.rdS (F.PWR_THERM_SENSs_TEMP d k) = ts.getD k 0 ∧ t.rd (F.PWR_THERM_SENSs_VALID d k) = 1) ∧
      (∀ x ∈ ts, x ≤ t.rdS (F.PWR_THERM_STATUS_MAX d)) ∧ t.rdS (F.PWR_THERM_STATUS_MAX d) ∈ ts ∧
      t.rd (F.PWR_THERM_STATUS_ALARM d) = bit (decide ((s.rd (F.PWR_THERM_CFG_ALARM d) : Int) < t.rdS (F.PWR_THERM_STATUS_MAX d))) ∧
      t.on (F.PWR_THERM_STATUS_TRIPPED d) = tripped ∧
      (d.val ∈ t.rst.hotDies ↔ t.rd (F.PWR_THERM_STATUS_ALARM d) = 1) ∧
      Only (R.PWR_THERM_STATUS d :: (List.range 8).map (R.PWR_THERM_SENSs d)) { s with rst := { s.rst with hotDies := t.rst.hotDies } } t)) ∧
  (∀ (j : Fin 32) (en on : Bool) (s : State), s.dieUp 0 = true →
    let p := s.rd (F.PWR_SLOTj_PATH_PATH j)
    let c := if en then s.pwrCheck (!on) p else 0
    (c ≠ 0 → Gives (.pwrSlotEnable j en on) s fun t => t.rd F.PWR_MODE_REASON = c ∧ Only [R.PWR_MODE] s t) ∧
    (c = 0 → Gives (.pwrSlotEnable j en on) s fun t =>
      (t.reg (R.PWR_SLOTj_CTL j)).toNat = bit en + bit on * 2 ∧ Only [R.PWR_SLOTj_CTL j] s t)) ∧
  (∀ (j : Fin 32) (q : Nat) (s : State),
    let p := s.rd (F.PWR_SLOTj_PATH_PATH j)
    s.dieUp 0 = true → s.pathOk p = true → isGrove p = false → s.leaves p = [q] →
    (alwaysOn q = true → Gives (.pwrSlotEnable j true false) s fun t => t.rd F.PWR_MODE_REASON = 0xD008) ∧
    (alwaysOn q = false → s.domUsed q = true → Gives (.pwrSlotEnable j true false) s fun t => t.rd F.PWR_MODE_REASON = 0xD007) ∧
    (alwaysOn q = false → s.domUsed q = false → Gives (.pwrSlotEnable j true false) s fun t => (t.reg (R.PWR_SLOTj_CTL j)).toNat = 1)) ∧
  (∀ s : State,
    (s.nextDomain = none → exec .pwrDomainSwitch s = .next s) ∧
    (∀ k, s.nextDomain = some k → k ∈ s.rst.domsOff → exec .pwrDomainSwitch s = .next { s with rst := { s.rst with domsUp := s.rst.domsUp ++ [k] } }) ∧
    (∀ k, s.nextDomain = some k → k ∉ s.rst.domsOff → exec .pwrDomainSwitch s = .next (
      (((domLeaves s.crowns (k / 256) (k % 256)).foldl State.loseLeaf { s with rst := { s.rst with domsOff := s.rst.domsOff ++ [k] } }).showOn (k / 256)).settle))) ∧
  (∀ (d : Fin 8) (n : Fin 152) (s : State),
    (d.val * 256 + n.val ∈ s.rst.domsUp → exec (.pwrDomainUp d n) s = .next (s.domainUp (d * 256 + n))) ∧
    (d.val * 256 + n.val ∉ s.rst.domsUp → exec (.pwrDomainUp d n) s = .next s)) ∧
  (∀ s : State, s.dieUp 0 = true →
    let m := s.rd F.PWR_MODE_MODE
    let goes := fun (c : Instr) (k : Nat) => Gives c s fun t => t.rd F.PWR_MODE_MODE = k ∧ Only [R.PWR_MODE] s t
    let no := fun (c : Instr) (code : Nat) => Gives c s fun t => t.rd F.PWR_MODE_REASON = code ∧ t.rd F.PWR_MODE_MODE = m ∧ Only [R.PWR_MODE] s t
    (m = 3 → goes .pwrReqCalibrate 4) ∧ (m ≠ 3 → no .pwrReqCalibrate 0xD00A) ∧
    (m = 4 → s.calibrated = false → no .pwrReqReady 0xD00B) ∧ (m ≠ 4 → m ≠ 11 → no .pwrReqReady 0xD00A) ∧
    ((m = 4 ∧ s.calibrated = true) ∨ m = 11 → exec .pwrReqReady s = .next ((s.wr F.PWR_MODE_MODE 5).modeUpdate)) ∧
    (m = 5 → s.quiet = true → goes .pwrReqDiagnostic 11) ∧ (m = 5 → s.quiet = false → no .pwrReqDiagnostic 0xD00F) ∧ (m ≠ 5 → no .pwrReqDiagnostic 0xD00A) ∧
    (m = 12 → s.quarantineCrown = 0 → exec .pwrReqClear s = .next (((s.wr F.PWR_MODE_CAUSE 0).wr F.PWR_MODE_MODE 5).modeUpdate)) ∧
    (m = 12 → s.quarantineCrown ≠ 0 → no .pwrReqClear 0xD00C) ∧ (m ≠ 12 → no .pwrReqClear 0xD00A) ∧
    (∀ r : Fin 16, r.val = 0 ∨ 4 < r.val → no (.pwrReqOther r) 0xD00A) ∧
    exec (.pwrReqOther 1) s = exec .pwrReqCalibrate s ∧ exec (.pwrReqOther 2) s = exec .pwrReqReady s ∧
    exec (.pwrReqOther 3) s = exec .pwrReqDiagnostic s ∧ exec (.pwrReqOther 4) s = exec .pwrReqClear s)
/-- R413, R451 to R453, R461: boot and the flash controller. -/
def Obligations.BootAndFlash : Prop :=
  (∀ (img : List Byte) (s : State), s.inRom = true → (s.bootSrc = 0 ∨ s.bootSrc = 3) →
    let u := s.sramPut 0 0 (img.take 2097152)
    (imageOk 0 img = true → Gives (.bootImageLoaded img) s fun t => t.rd (F.BOOT_STATUS_STAGE 0) = 3 ∧ t.rd (F.BOOT_STATUS_USED 0) = s.bootSrc ∧
      t.rd (F.BOOT_STATUS_ERROR 0) = 0 ∧ t.on (F.FAB_REMAP_LOCK 0) = true ∧ 0 ∈ t.rst.coresUp ∧ t.rst.sram = u.rst.sram ∧
      Only [R.BOOT_STATUS 0, R.FAB_REMAP 0] { s with rst := t.rst } t) ∧
    (imageOk 0 img = false → exec (.bootImageLoaded img) s = .next (
      let v := u.badImage 0 (R.BOOT_STATUS 0)
      if s.bootSrc = 0 then v.nextSource else v.bootWait))) ∧
  (∀ (data : List Byte) (s : State), s.inRom = true → s.bootSrc = 2 →
    let img := s.rst.twinImage ++ data.take 4096
    let len := wordAt (wordsOf (img.take 64)) 2
    let part := img.length < 64 ∨ (64 ≤ len ∧ len ≤ 2097152 ∧ img.length < len)
    let u : State := { s with rst := { s.rst with twinImage := img } }
    (part → exec (.bootFrame data) s = .next u) ∧
    (¬part → imageOk 0 img = true → exec (.bootFrame data) s = .next ((u.sramPut 0 0 (img.take 2097152)).runImage 0 2)) ∧
    (¬part → imageOk 0 img = false → Gives (.bootFrame data) s fun t => t.rst.twinImage = [] ∧ t.rd (F.BOOT_STATUS_REASON 0) = 0xD00E ∧
      t.rd (F.BOOT_STATUS_ERROR 0) = 1 ∧ Only [R.BOOT_STATUS 0] { s with rst := t.rst } t) ∧
    Gives .bootTwinTimeout s fun t => t.rd (F.BOOT_STATUS_FALLBACK 0) = 1 ∧ t.rd (F.BOOT_STATUS_STAGE 0) = 1 ∧ t.rst.attempt = s.rst.attempt + 1 ∧
      Only [R.BOOT_STATUS 0] { s with rst := { s.rst with attempt := t.rst.attempt } } t) ∧
  (∀ s : State, s.dieUp 0 = true →
    let img := (List.range (min 2097152 (s.rd F.BOOT_MBOX_LEN_LEN))).map fun i => s.sramByte 0 i
    (¬(s.inRom = true ∧ s.bootSrc = 1) → exec .bootMboxGo s = .next s) ∧
    (s.inRom = true → s.bootSrc = 1 → imageOk 0 img = true → exec .bootMboxGo s = .next (s.runImage 0 1)) ∧
    (s.inRom = true → s.bootSrc = 1 → imageOk 0 img = false → Gives .bootMboxGo s fun t => t.rd (F.BOOT_STATUS_STAGE 0) = 4 ∧
      t.rd (F.BOOT_STATUS_REASON 0) = 0xD00E ∧ t.rd (F.BOOT_STATUS_FALLBACK 0) = 1 ∧ Only [R.BOOT_STATUS 0] s t)) ∧
  (∀ (d : Fin 8) (s : State), s.hasCrown d = true → s.dieUp d = true →
    let u := s.setReg (R.BOOT_CORES d) 1
    let ok := imageOk 1 ((List.range 2097152).map fun i => s.sramByte d i)
    (d.val ∈ s.rst.coresUp → exec (.bootCoresRun d true) s = .next (u.serveCrown d)) ∧
    (d.val ∉ s.rst.coresUp → s.on (F.BOOT_CORES_RUN d) = false → ok = true → exec (.bootCoresRun d true) s = .next ((u.runImage d 0).serveCrown d)) ∧
    (d.val ∉ s.rst.coresUp → s.on (F.BOOT_CORES_RUN d) = false → ok = false → d.val ∉ s.rst.needReset → Gives (.bootCoresRun d true) s fun t =>
      t.rd (F.BOOT_STATUS_STAGE d) = 4 ∧ t.rd (F.BOOT_STATUS_REASON d) = 0xD00E ∧ t.on (F.BOOT_CORES_RUN d) = true ∧ Only [R.BOOT_CORES d, R.BOOT_STATUS d] s t) ∧
    (s.on (F.BOOT_CORES_RUN d) = true → exec (.bootCoresRun d true) s = .next (u.serveCrown d)) ∧
    (d.val ∈ s.rst.coresUp ∨ s.on (F.BOOT_CORES_RUN d) = false → exec (.bootCoresRun d false) s = .next ((s.setReg (R.BOOT_CORES d) 0).serveCrown d)) ∧
    (d.val ∉ s.rst.coresUp → s.on (F.BOOT_CORES_RUN d) = true → Gives (.bootCoresRun d false) s fun t =>
      t.rd (F.BOOT_STATUS_STAGE d) = 0 ∧ t.on (F.BOOT_CORES_RUN d) = false ∧ Only [R.BOOT_CORES d, R.BOOT_STATUS d] s t)) ∧
  (∀ (d : Fin 8) (off : Fin 524288) (v : Word) (s : State), s.dieUp d = true →
    (d.val ∈ s.rst.coresUp → Gives (.bootSramWrite d off v) s fun t => t.rd (F.BOOT_STATUS_REASON d) = 0xD00D ∧ Only [R.BOOT_STATUS d] s t) ∧
    (d.val ∉ s.rst.coresUp → Gives (.bootSramWrite d off v) s fun t =>
      (∀ b, b < 4 → (t.sramByte d (off * 4 + b)).toNat = v.toNat / 2 ^ (8 * b) % 256) ∧
      (∀ a, a < off.val * 4 ∨ off.val * 4 + 4 ≤ a → t.sramByte d a = s.sramByte d a) ∧ t = { s with rst := { s.rst with sram := t.rst.sram } })) ∧
  (∀ (d : Fin 8) (v : Word) (s : State), s.dieUp d = true → Gives (.bootSpiGo d v) s fun t => t.rd (F.BOOT_SPI_STATUS_BUSY d) = 1 ∧
    t.rd (F.BOOT_SPI_CMD_OPCODE d) = getBits v 0 8 ∧ t.rd (F.BOOT_SPI_CMD_GO d) = 1 ∧ Only [R.BOOT_SPI_CMD d, R.BOOT_SPI_STATUS d] s t) ∧
  (∀ (d : Fin 8) (data : List Byte) (wp : Bool) (s : State),
    (s.on (F.BOOT_SPI_STATUS_BUSY d) = false → exec (.bootSpiDone d data wp) s = .next s) ∧
    (s.on (F.BOOT_SPI_STATUS_BUSY d) = true →
      let prog := spiProgram (s.rd (F.BOOT_SPI_CMD_OPCODE d))
      let dst := s.rd (F.BOOT_SPI_DST_ADDR d)
      let len := s.rd (F.BOOT_SPI_LEN_LEN d)
      let a := ((s.wr (F.BOOT_SPI_STATUS_BUSY d) 0).wr (F.BOOT_SPI_CMD_GO d) 0).wr (F.BOOT_SPI_STATUS_WP d) (bit wp)
      let shows := fun (t : State) (e : Nat) => t.rd (F.BOOT_SPI_STATUS_BUSY d) = 0 ∧ t.rd (F.BOOT_SPI_CMD_GO d) = 0 ∧
        t.rd (F.BOOT_SPI_STATUS_WP d) = bit wp ∧ t.rd (F.BOOT_SPI_STATUS_ERROR d) = e
      shows (a.wr (F.BOOT_SPI_STATUS_ERROR d) 0) 0 ∧ Only [R.BOOT_SPI_STATUS d, R.BOOT_SPI_CMD d] s a ∧
      (∀ u bs, prog = true → a.fabBytes d dst len = (u, some bs) → exec (.bootSpiDone d data wp) s = .next (u.wr (F.BOOT_SPI_STATUS_ERROR d) 0)) ∧
      (∀ u, prog = true → a.fabBytes d dst len = (u, none) → exec (.bootSpiDone d data wp) s =
        .next ((u.fabFail d (if d = 0 then 23 else 15) false dst).wr (F.BOOT_SPI_STATUS_ERROR d) 1)) ∧
      (prog = false → (∀ k, k < (data.take len).length → s.fabWritable d (dst + k) = true) → Gives (.bootSpiDone d data wp) s fun t => shows t 0 ∧
        RegsBut [R.BOOT_SPI_STATUS d, R.BOOT_SPI_CMD d] s t) ∧
      (prog = false → (∃ k, k < (data.take len).length ∧ s.fabWritable d (dst + k) = false) → Gives (.bootSpiDone d data wp) s fun t => shows t 1 ∧ MemSame s t)))

/-- R11, R12, R409, R410, R463 to R465: REG_WRITE. -/
def Obligations.RegisterWrites : Prop :=
  (∀ (a : Nat) (v : Word) (s : State),
    let q := Req.host
    let d := a / 0x4000000
    let inside := a % 4 = 0 ∧ a < 0x20000000 ∧ d ≤ s.crowns
    let up := inside ∧ s.dieUp 0 = true ∧ (d = 0 ∨ s.uciUp d = true)
    let plain := up ∧ s.dieUp d = true ∧ s.regBlocked a = false ∧ hookAt (a % 0x4000000) (hooksOf q d) = none
    (a % 4 ≠ 0 ∨ 0x20100000 ≤ a ∨ (a < 0x20000000 ∧ s.crowns < d) → exec (.regWrite q a v) s = .next s) ∧
    (a % 4 = 0 → 0x20000000 ≤ a → a < 0x20100000 → exec (.regWrite q a v) s = .next (s.bar2Write (a - 0x20000000) v)) ∧
    (inside → s.dieUp 0 = false → exec (.regWrite q a v) s = .next s) ∧
    (inside → s.dieUp 0 = true → d ≠ 0 → s.uciUp d = false → exec (.regWrite q a v) s = .next (s.fabErr 0 4 (4 + d) true a)) ∧
    (up → d ≠ 0 → s.dieUp d = false → exec (.regWrite q a v) s = .next (s.fabErr 0 4 (4 + d) true a)) ∧
    (up → s.dieUp d = true → s.regBlocked a = true →
      exec (.regWrite q a v) s = .next (s.fabErr d (if d = 0 then 4 else 2) (if d = 0 then 12 else 6) true a)) ∧
    (∀ h k, up → s.dieUp d = true → s.regBlocked a = false → hookAt (a % 0x4000000) (hooksOf q d) = some (h, k) →
      exec (.regWrite q a v) s = .next (h.act s k v)) ∧
    (plain → (regRow a = none ∨ regCls a = some .ro) → exec (.regWrite q a v) s = .next s) ∧
    (plain → regCls a = some .st → exec (.regWrite q a v) s = .next (s.stWrite q a v)) ∧
    (∀ r, plain → regRow a = some r → (r.cls = .rw ∨ r.cls = .wo ∨ r.cls = .lv) → Gives (.regWrite q a v) s fun t =>
      t.reg a = ((s.reg a &&& ~~~r.wmask) ||| (v &&& r.wmask)) ∧ Only [a] s t ∧ t.recorder = s.recorder)) ∧
  (∀ (d : Fin 8) (k : Fin 4) (a : Nat) (v : Word) (s : State),
    (s.coreUp d k = false → exec (.regWrite (.core d k) a v) s = .next s) ∧
    (s.coreUp d k = true → a % 4 = 0 → a < 0x20000000 → exec (.regWrite (.core d k) (0x80000000 + a) v) s = .next (s.barWrite (.core d k) a v)))

/-- R60, R135, R137 to R139, R157, R166, R394, R399 and the rules named below: the normal case of commands that are rows of their own. -/
def Obligations.NormalCases : Prop :=
  (∀ (k : Fin 12) (pps : Bool) (s : State), k ≠ 0 → k ≠ 1 → k ≠ 4 → k ≠ 5 → s.refState k = 2 ∨ s.refState k = 3 →
    Gives (.refActivityTimeout ⟨k, pps⟩) s fun t => t.refState k = 4 ∧ t.rd (F.SEL_REFk_STATUS_CAUSE k) = 1) ∧
  (∀ (q : Req) (i : Fin 8) (s : State), s.setState i = 0 →
    Gives (.stgOpen q false i) s fun t => t.setState i = 1 ∧ t.wselSet q = i.val) ∧
  (∀ (q : Req) (v : Word) (s : State), getBits v 3 1 = 0 → Gives (.stgWselWrite q v) s fun t => t.wsel q = v &&& 0xF) ∧
  (∀ (q : Req) (a : Nat) (v : Word) (s : State), s.isSt a = true → s.wselOpen q = true → s.setState (s.wselSet q) = 1 → s.claim a = none →
    Gives (.stagedWrite q a v) s fun t => (t.claim a).map (·.1) = some (s.wselSet q) ∧ ∀ b, t.reg b = s.reg b) ∧
  (∀ (q : Req) (a : Nat) (v : Word) (s : State), s.isSt a = true → s.wselOpen q = false → s.claim a = none →
    s.ownerOn (s.owner a) = false → (s.owner a).en = false →
    Gives (.directWrite q a v) s fun t => t.reg a = maskedIn a (s.reg a) 0xFFFFFFFF v) ∧
  (∀ (r : Fin 4096) (s : State) (x : Desc) (d : Nat), s.dispatchable r 0x30 = some x → s.submitCheck x = 0 →
    s.schedOf (dTarget x.words) = some d → fieldAt x.words 6 16 16 = 0 → fieldAt x.words 7 23 9 = 0 →
    (∀ i, 12 ≤ i → i ≤ 14 → x.words.getD i 0 = 0) → s.wakeLater d (subDlist x.words) (subWake x.words) = true →
    Gives (.taskSubmit r) s fun t =>
      let e := t.task d (subTask x.words)
      e.state = 1 ∧ e.level = subLevel x.words ∧ e.dlist = subDlist x.words ∧ e.deadline = dDeadline x.words) ∧
  -- R225, R242, R247, R251, R257, R280, R313, R49: what arrives while a picture is coded
  (∀ (d : Fin 8) (i : Fin 128) (v : Word) (s : State), getBits v 0 1 = 1 → s.encState d i = 1 ∨ s.encState d i = 2 →
    Gives (.encRefreshReq d i v) s fun t => (t.encSt d i).req = true ∧ RegsSame s t) ∧
  (∀ (d : Fin 8) (i ax ay : Fin 128) (s : State) (p : PicSt) (b r k : Nat) (l : List (Nat × Nat)),
    ax.val < s.areasX d i → ay.val < s.areasY d i → s.coarseNext d i ax ay = some p → s.ownBuf d p = some b → p.refs = (r, k) :: l →
    s.coarseKnown d i ax ay b = true → (s.asOf p).on (F.MES_STRi_CFG_SCD d i) = false → Gives (.motionAreaCoarse d i ax ay p.num) s fun t =>
      ∃ q ∈ (t.encSt d i).pics, q.num = p.num ∧ q.mot.area ax ay = some (coarseOf (s.coarseSads d i ax ay b r))) ∧
  (∀ (d : Fin 8) (i : Fin 128) (bx by_ : Fin 512) (j : Fin 4) (s : State) (p : PicSt), bx.val < s.blocksX d i → by_.val < s.blocksY d i →
    s.tileOf d i bx = j.val → (s.coarse d i (bx / 4) (by_ / 4)).codingPic d i j = some p → p.mot.blk (blkKey bx by_) = none →
    exec (.motionBlockDone d i bx by_ j p.num) s = .next ((s.coarse d i (bx / 4) (by_ / 4)).searchBlock d i p j bx by_)) ∧
  (∀ (r : Fin 4096) (s : State) (x : Desc) (d i : Nat), s.dispatchable r 0x11 = some x → fieldAt x.words 7 5 27 = 0 →
    (∀ k ∈ [9, 10, 12, 13], x.words.getD k 0 &&& 0xFE00FE00 = 0) → s.crownOf (dTarget x.words) = some d → s.indexOf d (dStream x.words) = some i →
    s.strOn d i = true → exec (.motionHint r) s = .next ((((s.popFetched r).incWrap (F.MES_COUNT_HINTS d)).takeHint d i x.words).complete
      r x.idx (dTag x.words) (dNocpl x.words) 0 0 Wm.zero)) ∧
  (∀ (d : Fin 8) (i : Fin 128) (j : Fin 4) (bits fl : Nat) (s : State) (p : PicSt), s.codingPic d i j = some p →
    exec (.unitCoded d i j bits fl) s = .next (s.unitDecide d i j p bits fl)) ∧
  (∀ (d : Fin 8) (i : Fin 128) (r : RowPart) (s : State) (p : PicSt), s.strOn d i = true → s.slotSides d (i / 8) = [] →
    (s.pkt (s.strId d i)).mode r.pic = none → ((s.encSt d i).pics.find? fun p => p.num == r.pic) = some p → p.coded = true → p.lost = false →
    p.row ≤ r.row → r.row < s.strRows d i → r.tile.val < s.strN d i → s.reachedOn (s.chTl (s.strChan d i)) (s.rowDue d i p r.row) = false →
    Gives (.rowArrival d i r) s fun t => (s.chUnits (s.strChan d i), r) ∈ (t.pkt (s.strId d i)).parts ∧ RegsSame s t) ∧
  (∀ (d : Fin 8) (i : Fin 128) (s : State), s.keptOf d = [] → s.handDue d i = true → exec (.rowHandover d i) s = .next (s.rowHandover d i)) ∧
  -- R312, R315, R317, R318, R323: ports, shapers, the wheel, TS timers, histograms
  (∀ (p : Fin 96) (s : State), (s.sending p).isSome = true → exec (.portFrameDone p) s = .next ((s.setSending p none).portPick p)) ∧
  (∀ (q : Fin 768) (s : State), (s.sending (q / 8)).isSome = true → (s.classQ q).wrote ≠ s.cycle + 1 → Gives (.shaperRefill q) s fun t =>
    (t.classQ q).shape = s.reg (R.WHL_Qq_SHAPE q) ∧ (t.classQ q).frames = (s.classQ q).frames) ∧
  (∀ (q : Fin 768) (v : Word) (s : State), getBits v 30 1 = 0 → Gives (.shaperWrite q v) s fun t => t.reg (R.WHL_Qq_SHAPE q) = v &&& 0x7FFFFFFF) ∧
  (∀ s : State, dueEntry (s.ptpT / 64) s.whl.entries = none → Gives .wheelSlot s fun t => t.rd F.WHL_NOW_SLOT = s.ptpT / 64 % 2 ^ 17) ∧
  (∀ (q : Fin 768) (s : State), (∀ w : Fin 24, s.rd (F.WHL_SMP_MASKw_MASK w) = if w.val = q.val / 32 then 2 ^ (q.val % 32) else 0) →
    s.on F.WHL_SAMPLE_RING_EN = false → Gives .queueSample s fun t =>
      t.histBin q (waitBin (s.headWait q)) = min (s.histBin q (waitBin (s.headWait q)) + 1) (2 ^ 32 - 1) ∧ RegsSame s t) ∧
  (∀ s : State, Gives .whlHistClr s fun t => (∀ b, b < 16 → t.histBin (s.rd F.WHL_HIST_SEL_QUEUE) b = 0) ∧ RegsSame s t) ∧
  (∀ (f : Fin 2048) (s : State), s.tsFlow f = true → exec (.tsPsiTimer f) s = .next (s.sendPsi f (s.sidCodec (s.flowStr f))) ∧
    exec (.tsPcrTimer f) s = .next (s.sendPcr f)) ∧
  -- R354 to R357, R444: heartbeats, leases, and the referee's hold
  (∀ (q : Req) (n : Fin 32) (v : Word) (s : State), Gives (.pairHb q n v) s fun t => RegsSame s t ∧ ∀ m, m ≠ n.val → t.pair m = s.pair m) ∧
  (∀ (n : Fin 32) (sd : Fin 2) (s : State),
    (s.pairOn n = true → s.pairTwin n = false → 1 ≤ s.role n sd → s.role n sd ≤ 3 → sd.val ∉ (s.pair n).susp →
      Gives (.pairHbTimeout n sd) s fun t => sd.val ∈ (t.pair n).susp ∧ RegsSame s t) ∧
    (sd.val ∈ (s.pair n).susp → sd.val ∈ (s.pair n).seen → s.sideHealthy n sd = true →
      Gives (.pairSuspectDecide n sd) s fun t => sd.val ∉ (t.pair n).susp) ∧
    (∀ h, h ∈ s.rst.holds → h.1 = 7 + 8 * (n.val * 2 + sd.val) → Gives (.refHoldExpired n sd) s fun t => h ∉ t.rst.holds)) ∧
  (∀ s : State, (s.twinUp = true → Gives .twinHbSend s fun t => t.sent = Msg.twin s.nextTwinLane 1 0 s.hbWords :: s.sent ∧ RegsSame s t) ∧
    (s.on F.TWIN_CFG_EN = true → s.red.misses ≠ 3 → Gives .twinHbMiss s fun t => t.red.misses = s.red.misses + 1)) ∧
  (∀ (n : Fin 32) (s : State), s.pairOn n = true → s.pairTwin n = true → s.role n 0 = 3 →
    ((s.pair n).asked = false → exec (.leaseRenewTimer n) s =
      .next ((s.setPair n { s.pair n with renewAt := s.cycle, asked := true }).witSend 1 (s.pairId n) (s.pairTerm n) 0)) ∧
    ((s.pair n).leaseEnd ≤ s.cycle → Gives (.leaseExpired n) s fun t => t.role n 0 = 4)) ∧
  -- R87, R383, R385 to R387: HBM accesses and training
  (∀ (d : Fin 8) (m : Fin 16) (off : Nat) (hit : Bool) (s : State), s.hasCrown d = true → off < 24 * 2 ^ 30 → s.hbmReady d = true →
    exec (.hbmReadDone d m off hit 0) s = .next (s.rowAccess d (s.place d off) hit) ∧ exec (.hbmPhyLockLoss d) s = .next (s.hbmFault d)) ∧
  (∀ (o d off : Nat) (s : State), s.rd F.HIF_STATUS_MODE = 1 → s.on F.HIF_STATUS_DECODER = true → s.hdm o = some (d, off) → s.hbmReady d = true →
    Gives (.hdmWindowAccess o none) s fun t => t.sent = Msg.hdmData ((List.range 64).map fun i => s.hbmByte d (off / 64 * 64 + i)) :: s.sent ∧
      t = { s with sent := t.sent }) ∧
  (∀ (d : Fin 8) (pc : Fin 32) (all : Bool) (pat : Fin 8) (row : Fin 32768) (len : Fin 64) (s : State), s.hasCrown d = true → s.dieUp d = true →
    s.hbmState d = 1 → pat.val < 6 → s.on (F.HBM_TRAIN_STATUS_BUSY d) = false →
    (∀ c ∈ [Instr.hbmTrainWrite d pc all pat row len, .hbmTrainRead d pc all pat row len, .hbmTrainLoop d pc all pat row len],
      Gives c s fun t => t.rd (F.HBM_TRAIN_STATUS_BUSY d) = 1 ∧ t.rd (F.HBM_TRAIN_STATUS_CNT d) = 0) ∧
    Gives (.hbmTrainStop d) s fun t => (t.hbmSt d).loop = false) ∧
  (∀ (d : Fin 8) (errs : List (Fin 32 × Fin 40)) (bits : Nat) (s : State), s.hasCrown d = true → s.on (F.HBM_TRAIN_STATUS_BUSY d) = true →
    (s.hbmSt d).loop = false → Gives (.hbmTrainDone d errs bits) s fun t => t.rd (F.HBM_TRAIN_STATUS_BUSY d) = 0) ∧
  -- R451 to R453, R461: boot and the flash
  (∀ (img data : List Byte) (s : State), s.inRom = true →
    (s.bootSrc = 0 → imageOk 0 img = true → Gives (.bootImageLoaded img) s fun t => t.rd (F.BOOT_STATUS_STAGE 0) = 3) ∧
    (s.bootSrc = 2 → (s.rst.twinImage ++ data.take 4096).length < 64 → Gives (.bootFrame data) s fun t =>
      t.rst.twinImage = s.rst.twinImage ++ data.take 4096 ∧ RegsSame s t) ∧
    (s.bootSrc = 2 → Gives .bootTwinTimeout s fun t => t.rd (F.BOOT_STATUS_STAGE 0) = 1 ∧ t.rd (F.BOOT_STATUS_FALLBACK 0) = 1) ∧
    (s.dieUp 0 = true → s.bootSrc = 1 → imageOk 0 ((List.range (min 2097152 (s.rd F.BOOT_MBOX_LEN_LEN))).map fun i => s.sramByte 0 i) = true →
      exec .bootMboxGo s = .next (s.runImage 0 1))) ∧
  (∀ (d : Fin 8) (off : Fin 524288) (v : Word) (data : List Byte) (wp : Bool) (s : State), s.dieUp d = true →
    (s.hasCrown d = true → d.val ∈ s.rst.coresUp → exec (.bootCoresRun d true) s = .next ((s.setReg (R.BOOT_CORES d) 1).serveCrown d)) ∧
    (d.val ∉ s.rst.coresUp → Gives (.bootSramWrite d off v) s fun t => ∀ b, b < 4 → (t.sramByte d (off * 4 + b)).toNat = v.toNat / 2 ^ (8 * b) % 256) ∧
    Gives (.bootSpiGo d v) s (fun t => t.rd (F.BOOT_SPI_STATUS_BUSY d) = 1) ∧
    (s.on (F.BOOT_SPI_STATUS_BUSY d) = true → spiProgram (s.rd (F.BOOT_SPI_CMD_OPCODE d)) = false →
      (∀ k, k < (data.take (s.rd (F.BOOT_SPI_LEN_LEN d))).length → s.fabWritable d (s.rd (F.BOOT_SPI_DST_ADDR d) + k) = true) →
      Gives (.bootSpiDone d data wp) s fun t => t.rd (F.BOOT_SPI_STATUS_BUSY d) = 0 ∧ t.rd (F.BOOT_SPI_STATUS_ERROR d) = 0)) ∧
  ∀ (n : Fin 100) (s : State),
    (s.laneStage n = 1 → s.laneProbes n = true → Gives (.laneDetectProbe n false) s fun t =>
      t.laneStage n = 1 ∧ t.rd (F.LANE_n_STATUS_RX_PRESENT n) = 0) ∧
    (∀ (eq : Word) (same : Bool) (unit : Nat), s.laneStage n = 2 → s.laneTrains n = true → Gives (.laneStageDone n eq same unit) s fun t =>
      t.laneStage n = 3 ∧ t.reg (R.LANE_n_EQ n) = eq &&& 0x3F3F3F) ∧
    (s.laneStage n = 2 → (s.lane n).fails = 0 → Gives (.laneStageTimeout n) s fun t => t.laneStage n = 1 ∧ (t.lane n).fails = 1) ∧
    (∀ m : Fin 108, m.val = n.val → s.chkRuns m = true → s.chkLocked m = false → Gives (.checkerLock m) s fun t =>
      t.rd (F.LANE_n_STATUS_CHK_LOCK n) = 1) ∧
    (∀ (m : Fin 108) (bits : Nat) (errs : List (Fin 64 × Nat)), m.val = n.val → s.chkRuns m = true → s.chkLocked m = true →
      Gives (.checkerLockLost m bits errs) s fun t => t.rd (F.LANE_n_STATUS_CHK_LOCK n) = 0)
end

