-- ==== Sys2Proof/Laws/Map.lean ====
section
/-!
SUPPORT. Sys2Proof/Laws/Map.lean: the laws of sparse storage: a read after a write, and that every operation keeps
the canonical form.
-/
namespace Sys2Proof.Machine

variable {V : Type}

@[simp] theorem mapGet_nil (d : Nat → V) (k : Nat) : mapGet d [] k = d k := rfl

theorem mapGet_erase (d : Nat → V) (m : List (Nat × V)) (k j : Nat) :
    mapGet d (mapErase m k) j = if j = k then d k else mapGet d m j := by
  induction m with
  | nil => by_cases h : j = k <;> simp [mapErase, h]
  | cons p m ih =>
    obtain ⟨k', v⟩ := p
    by_cases h : k = k'
    · subst h; by_cases hj : j = k <;> simp_all [mapErase, mapGet]
    · by_cases hj : j = k
      · subst hj; simp_all [mapErase, mapGet]
      · by_cases hk : j = k' <;> simp_all [mapErase, mapGet]

theorem mapGet_insert (d : Nat → V) (m : List (Nat × V)) (k j : Nat) (v : V) (h : ∀ p ∈ m, p.1 ≠ k) :
    mapGet d (mapInsert m k v) j = if j = k then v else mapGet d m j := by
  induction m with
  | nil => by_cases hj : j = k <;> simp [mapInsert, mapGet, hj]
  | cons p m ih =>
    obtain ⟨k', v'⟩ := p
    have hk : k' ≠ k := h (k', v') (by simp)
    have ih := ih fun q hq => h q (by simp [hq])
    by_cases hl : k < k'
    · simp [mapInsert, mapGet, hl]
    · by_cases hj : j = k'
      · subst hj; simp [mapInsert, mapGet, hl, hk]
      · simp [mapInsert, mapGet, hl, hj, ih]

theorem mem_mapErase {m : List (Nat × V)} {k : Nat} {p : Nat × V} : p ∈ mapErase m k ↔ p ∈ m ∧ p.1 ≠ k := by
  induction m with
  | nil => simp [mapErase]
  | cons q m ih =>
    obtain ⟨k', v⟩ := q
    by_cases h : k = k'
    · subst h; simp only [mapErase, if_true, ih, List.mem_cons]
      constructor
      · rintro ⟨a, b⟩; exact ⟨.inr a, b⟩
      · rintro ⟨rfl | a, b⟩
        · simp at b
        · exact ⟨a, b⟩
    · simp only [mapErase, h, if_false, List.mem_cons, ih]
      constructor
      · rintro (rfl | ⟨a, b⟩)
        · exact ⟨.inl rfl, fun e => h e.symm⟩
        · exact ⟨.inr a, b⟩
      · rintro ⟨rfl | a, b⟩
        · exact .inl rfl
        · exact .inr ⟨a, b⟩

theorem mapGet_keep (d : Nat → V) (m : List (Nat × V)) (p : Nat → Bool) (k : Nat) :
    mapGet d (mapKeep p m) k = if p k = true then mapGet d m k else d k := by
  induction m with
  | nil => simp [mapKeep]
  | cons q m ih =>
    obtain ⟨k', v⟩ := q
    by_cases hp : p k' = true
    · by_cases hk : k = k'
      · subst hk; simp [mapKeep, mapGet, hp]
      · simp [mapKeep, mapGet, hp, hk, ih]
    · by_cases hk : k = k'
      · subst hk; simp [mapKeep, hp, ih]
      · simp [mapKeep, mapGet, hp, hk, ih]

variable [DecidableEq V]

/-- A read after a write. -/
theorem mapGet_set (d : Nat → V) (m : List (Nat × V)) (k j : Nat) (v : V) :
    mapGet d (mapSet d m k v) j = if j = k then v else mapGet d m j := by
  unfold mapSet
  split
  · next h => rw [mapGet_erase, h]
  · rw [mapGet_insert _ _ _ _ _ (fun p hp => (mem_mapErase.1 hp).2), mapGet_erase]
    split <;> rfl

@[simp] theorem mapGet_set_same (d : Nat → V) (m : List (Nat × V)) (k : Nat) (v : V) : mapGet d (mapSet d m k v) k = v := by
  simp [mapGet_set]

theorem mapGet_set_ne (d : Nat → V) (m : List (Nat × V)) {k j : Nat} (v : V) (h : j ≠ k) :
    mapGet d (mapSet d m k v) j = mapGet d m j := by simp [mapGet_set, h]

@[simp] theorem mapWf_nil (d : Nat → V) : mapWf d [] = true := rfl

theorem mapWfFrom_mono {d : Nat → V} {m : List (Nat × V)} {a b : Nat} (hab : a ≤ b) (h : mapWfFrom d b m = true) :
    mapWfFrom d a m = true := by
  cases m with
  | nil => rfl
  | cons p m => obtain ⟨k, v⟩ := p; simp [mapWfFrom] at h ⊢; exact ⟨⟨by omega, h.1.2⟩, h.2⟩

theorem mapWfFrom_erase {d : Nat → V} {m : List (Nat × V)} {b : Nat} (k : Nat) (h : mapWfFrom d b m = true) :
    mapWfFrom d b (mapErase m k) = true := by
  induction m generalizing b with
  | nil => rfl
  | cons p m ih =>
    obtain ⟨k', v⟩ := p
    simp [mapWfFrom] at h
    by_cases hk : k = k'
    · subst hk
      simp only [mapErase, if_true]
      exact mapWfFrom_mono (b := k + 1) (by omega) (ih h.2)
    · simp [mapErase, hk, mapWfFrom, h.1.1, h.1.2, ih h.2]

theorem mapWfFrom_insert {d : Nat → V} {m : List (Nat × V)} {b k : Nat} {v : V} (hb : b ≤ k) (hv : v ≠ d k)
    (hk : ∀ p ∈ m, p.1 ≠ k) (h : mapWfFrom d b m = true) : mapWfFrom d b (mapInsert m k v) = true := by
  induction m generalizing b with
  | nil => simp [mapInsert, mapWfFrom, hb, hv]
  | cons p m ih =>
    obtain ⟨k', v'⟩ := p
    simp [mapWfFrom] at h
    have hne : k' ≠ k := hk (k', v') (by simp)
    by_cases hl : k < k'
    · have hk' : k + 1 ≤ k' := hl
      simp [mapInsert, hl, mapWfFrom, hb, hv, h.1.2, h.2, hk']
    · simp [mapInsert, hl, mapWfFrom, h.1.1, h.1.2]
      exact ih (by omega) (fun q hq => hk q (by simp [hq])) h.2

theorem mapWf_set {d : Nat → V} {m : List (Nat × V)} (k : Nat) (v : V) (h : mapWf d m = true) :
    mapWf d (mapSet d m k v) = true := by
  unfold mapSet
  split
  · exact mapWfFrom_erase k h
  · next hv => exact mapWfFrom_insert (Nat.zero_le _) hv (fun p hp => (mem_mapErase.1 hp).2) (mapWfFrom_erase k h)

theorem mapWfFrom_keep {d : Nat → V} {m : List (Nat × V)} {b : Nat} (p : Nat → Bool) (h : mapWfFrom d b m = true) :
    mapWfFrom d b (mapKeep p m) = true := by
  induction m generalizing b with
  | nil => rfl
  | cons q m ih =>
    obtain ⟨k, v⟩ := q
    simp [mapWfFrom] at h
    by_cases hp : p k = true
    · simp [mapKeep, hp, mapWfFrom, h.1.1, h.1.2, ih h.2]
    · simp [mapKeep, hp]; exact mapWfFrom_mono (by omega) (ih h.2)

theorem mapWf_keep {d : Nat → V} {m : List (Nat × V)} (p : Nat → Bool) (h : mapWf d m = true) : mapWf d (mapKeep p m) = true :=
  mapWfFrom_keep p h

end Sys2Proof.Machine
end

