-- ==== Sys2Proof/Laws/Keeps.lean ====
section
/-!
SUPPORT. Sys2Proof/Laws/Keeps.lean: what the shared operations keep on the way from a state: the variant, the queue, the
clock's count, what has left the package, and the canonical form of storage.
-/
namespace Sys2Proof.Machine
set_option linter.all false

theorem Keeps.refl (s : State) : Keeps s s := ⟨rfl, rfl, rfl, List.suffix_refl _, id⟩

theorem Keeps.trans {s t u : State} (h : Keeps s t) (g : Keeps t u) : Keeps s u :=
  ⟨g.variant.trans h.variant, g.pending.trans h.pending, g.cycle.trans h.cycle, h.sent.trans g.sent, fun x => g.ok (h.ok x)⟩

theorem ok_iff (s : State) : s.ok = true ↔
    mapWf (regReset s.variant.crowns) s.regs = true ∧ Memory.wf s.hbm = true ∧ Memory.wf s.host.mem = true ∧ Memory.wf s.rst.sram = true := by
  simp [State.ok, and_assoc]

/-- A state that differs from `t` in none of the kept parts. -/
theorem Keeps.mk' {s t : State} (h : Keeps s t) {fr : Nat} {rd : Word} {lt refs ptp host sch xlt stg recorder rst whl aud ing cmp pool dec enc red hbms lanes crcs}
    (hm : host.mem = t.host.mem) (hs : rst.sram = t.rst.sram) :
    Keeps s (State.mk t.variant t.pending t.cycle fr rd t.sent t.regs lt refs ptp host sch xlt stg recorder rst t.hbm whl aud ing cmp pool dec enc red hbms lanes crcs) := by
  refine h.trans ⟨rfl, rfl, rfl, List.suffix_refl _, fun x => ?_⟩
  rw [ok_iff] at x ⊢
  exact ⟨x.1, x.2.1, hm ▸ x.2.2.1, hs ▸ x.2.2.2⟩

theorem memWrite_wf {m : List (Nat × Byte)} (a : Nat) (bs : List Byte) (h : Memory.wf m = true) : Memory.wf (memWrite m a bs) = true := by
  induction bs generalizing m a with
  | nil => exact h
  | cons b bs ih => exact ih _ (mapWf_set _ _ h)

theorem foldl_wf {α : Type} {f : List (Nat × Byte) → α → List (Nat × Byte)} (hf : ∀ m x, Memory.wf m = true → Memory.wf (f m x) = true)
    (l : List α) {m : List (Nat × Byte)} (h : Memory.wf m = true) : Memory.wf (l.foldl f m) = true := by
  induction l generalizing m with
  | nil => exact h
  | cons x l ih => exact ih (hf _ _ h)

theorem Keeps.regs {s t : State} (h : Keeps s t) (r : List (Nat × Word))
    (hr : mapWf (regReset t.variant.crowns) t.regs = true → mapWf (regReset t.variant.crowns) r = true) : Keeps s { t with regs := r } := by
  refine h.trans ⟨rfl, rfl, rfl, List.suffix_refl _, fun x => ?_⟩
  rw [ok_iff] at x ⊢
  exact ⟨hr x.1, x.2.1, x.2.2.1, x.2.2.2⟩

theorem State.setReg_keeps {s t : State} {a v} (h : Keeps s t) : Keeps s (t.setReg a v) := h.regs _ fun x => mapWf_set _ _ x
theorem State.resetRegs_keeps {s t : State} {p} (h : Keeps s t) : Keeps s (t.resetRegs p) := h.regs _ fun x => mapWf_keep _ x
theorem State.send_keeps {s t : State} {m} (h : Keeps s t) : Keeps s (t.send m) :=
  h.trans ⟨rfl, rfl, rfl, List.suffix_cons _ _, fun x => x⟩
theorem State.hostWrite_keeps {s t : State} {a bs} (h : Keeps s t) : Keeps s (t.hostWrite a bs) := by
  refine h.trans ⟨rfl, rfl, rfl, List.suffix_refl _, fun x => ?_⟩
  rw [ok_iff] at x ⊢
  exact ⟨x.1, x.2.1, memWrite_wf _ _ x.2.2.1, x.2.2.2⟩
theorem State.sramPut_keeps {s t : State} {d off bs} (h : Keeps s t) : Keeps s (t.sramPut d off bs) := by
  refine h.trans ⟨rfl, rfl, rfl, List.suffix_refl _, fun x => ?_⟩
  rw [ok_iff] at x ⊢
  exact ⟨x.1, x.2.1, x.2.2.1, memWrite_wf _ _ x.2.2.2⟩
theorem Keeps.hbm {s t : State} (h : Keeps s t) (m : List (Nat × Byte)) (hr : Memory.wf t.hbm = true → Memory.wf m = true) : Keeps s { t with hbm := m } := by
  refine h.trans ⟨rfl, rfl, rfl, List.suffix_refl _, fun x => ?_⟩
  rw [ok_iff] at x ⊢
  exact ⟨x.1, hr x.2.1, x.2.2.1, x.2.2.2⟩

theorem ite_keeps {s t u : State} {c : Prop} [Decidable c] (h : Keeps s t) (g : Keeps s u) : Keeps s (if c then t else u) := by
  split
  · exact h
  · exact g

theorem elim_keeps {α : Type} {s t : State} (o : Option α) {f : α → State} (g : ∀ x, Keeps s (f x)) (h : Keeps s t) : Keeps s (o.elim t f) := by
  cases o with
  | none => exact h
  | some x => exact g x

theorem foldl_keeps {α : Type} {s t : State} {f : State → α → State} {l : List α} (hf : ∀ u x, Keeps s u → Keeps s (f u x)) (h : Keeps s t) :
    Keeps s (l.foldl f t) := by
  induction l generalizing t with
  | nil => exact h
  | cons x l ih => exact ih (hf _ _ h)
theorem State.forRange_keeps {s t : State} {n f} (hf : ∀ u i, Keeps s u → Keeps s (f i u)) (h : Keeps s t) : Keeps s (t.forRange n f) :=
  foldl_keeps (fun u i => hf u i) h
theorem State.when_keeps {s t : State} {c f} (hf : ∀ u, Keeps s u → Keeps s (f u)) (h : Keeps s t) : Keeps s (t.when c f) := by
  unfold State.when; split
  · exact hf _ h
  · exact h

/-- The first part of a pair that some operation answered. -/
theorem Keeps.fst {α : Type} {s u : State} {p : State × α} {x : α} (e : p = (u, x)) (h : Keeps s p.1) : Keeps s u := by
  rw [e] at h; exact h

/-- A command that answers a next state which keeps these parts. -/
def KeepsOut (s : State) (o : Out) : Prop := ∃ t, o = .next t ∧ Keeps s t

theorem KeepsOut.next {s t : State} (h : Keeps s t) : KeepsOut s (.next t) := ⟨t, rfl, h⟩

end Sys2Proof.Machine
end

