-- ==== Sys2Proof/Laws/Keeps/Ops.lean ====
section
/-!
SUPPORT. Sys2Proof/Laws/Keeps/Ops.lean: what each operation of Machine/Ops.lean keeps (Keeps of Safety.lean).
-/
namespace Sys2Proof.Machine
set_option linter.all false

theorem State.wr_keeps {s₀ : State} {s : State} (f : Fld) (v : Nat) (h : Keeps s₀ s) : Keeps s₀ (State.wr s f v) := by
  unfold State.wr
  with_reducible repeat' first | assumption | apply State.setReg_keeps

theorem State.wrS_keeps {s₀ : State} {s : State} (f : Fld) (i : Int) (h : Keeps s₀ s) : Keeps s₀ (State.wrS s f i) := by
  unfold State.wrS
  with_reducible repeat' first | assumption | apply State.wr_keeps

theorem State.add_keeps {s₀ : State} {s : State} (f : Fld) (n : Nat) (h : Keeps s₀ s) : Keeps s₀ (State.add s f n) := by
  unfold State.add
  with_reducible repeat' first | assumption | apply State.wr_keeps

theorem State.inc_keeps {s₀ : State} {s : State} (f : Fld) (h : Keeps s₀ s) : Keeps s₀ (State.inc s f) := by
  unfold State.inc
  with_reducible repeat' first | assumption | apply State.wr_keeps | apply State.add_keeps

theorem State.incWrap_keeps {s₀ : State} {s : State} (f : Fld) (h : Keeps s₀ s) : Keeps s₀ (State.incWrap s f) := by
  unfold State.incWrap
  with_reducible repeat' first | assumption | apply State.wr_keeps

theorem State.reason_keeps {s₀ : State} {s : State} (a : Nat) (code : Nat) (h : Keeps s₀ s) : Keeps s₀ (State.reason s a code) := by
  unfold State.reason
  with_reducible repeat' first | assumption | apply State.wr_keeps

theorem State.reasons_keeps {s₀ : State} {s : State} (as : List Nat) (code : Nat) (h : Keeps s₀ s) : Keeps s₀ (State.reasons s as code) := by
  unfold State.reasons
  with_reducible repeat' first | assumption | apply State.wr_keeps | apply State.reason_keeps | apply foldl_keeps | (intro _)

theorem State.tick_keeps {s₀ : State} {s : State} (h : Keeps s₀ s) : Keeps s₀ (State.tick s) := by
  unfold State.tick
  with_reducible repeat' first | assumption | apply State.wr_keeps | (refine Keeps.mk' ?_ rfl rfl; first | assumption | apply State.wr_keeps)

end Sys2Proof.Machine
end

