-- ==== Sys2Proof/Laws/Keeps/Dram.lean ====
section
/-!
SUPPORT. Sys2Proof/Laws/Keeps/Dram.lean: what each operation of Machine/Dram.lean keeps (Keeps of Safety.lean).
-/
namespace Sys2Proof.Machine
set_option linter.all false

theorem State.hbmPut_keeps {s₀ s : State} (d a : Nat) (bs : List Byte) (h : Keeps s₀ s) : Keeps s₀ (s.hbmPut d a bs) :=
  h.hbm _ fun x => foldl_wf (fun _ _ g => mapWf_set _ _ g) _ x

theorem State.snoopLines_keeps {s₀ : State} {s : State} (d : Nat) (a : Nat) (n : Nat) (h : Keeps s₀ s) : Keeps s₀ (State.snoopLines s d a n) := by
  unfold State.snoopLines
  with_reducible repeat' first | assumption | apply State.wr_keeps | apply State.forRange_keeps | apply State.send_keeps | (intro _) | apply ite_keeps | split

theorem State.hbmWrite_keeps {s₀ : State} {s : State} (d : Nat) (off : Nat) (bs : List Byte) (h : Keeps s₀ s) : Keeps s₀ (State.hbmWrite s d off bs) := by
  unfold State.hbmWrite
  with_reducible repeat' first | assumption | apply State.wr_keeps | apply State.snoopLines_keeps | apply State.hbmPut_keeps | apply ite_keeps | split

theorem State.snoopBits_keeps {s₀ : State} {s : State} (d : Nat) (pos : Nat) (n : Nat) (h : Keeps s₀ s) : Keeps s₀ (State.snoopBits s d pos n) := by
  unfold State.snoopBits
  with_reducible repeat' first | assumption | apply State.wr_keeps | apply State.snoopLines_keeps | apply ite_keeps | split

theorem State.hbmBits_keeps {s₀ s : State} (d bit n v : Nat) (h : Keeps s₀ s) : Keeps s₀ (s.hbmBits d bit n v) := by
  induction n generalizing s bit v with
  | zero => exact h
  | succ n ih =>
    unfold State.hbmBits
    exact ih _ _ (h.hbm _ fun x => mapWf_set _ _ x)

end Sys2Proof.Machine
end

