-- ==== Sys2Proof/Laws/Keeps/Time.lean ====
section
/-!
SUPPORT. Sys2Proof/Laws/Keeps/Time.lean: what each operation of Machine/Time.lean keeps (Keeps of Safety.lean).
-/
namespace Sys2Proof.Machine
set_option linter.all false

theorem State.setTl_keeps {s₀ : State} {s : State} (n : Nat) (t : TlSt) (h : Keeps s₀ s) : Keeps s₀ (State.setTl s n t) := by
  unfold State.setTl
  with_reducible repeat' first | assumption | apply State.wr_keeps | (intro _) | (refine Keeps.mk' ?_ rfl rfl; first | assumption | apply State.wr_keeps)

theorem State.showErr_keeps {s₀ : State} {s : State} (n : Nat) (h : Keeps s₀ s) : Keeps s₀ (State.showErr s n) := by
  unfold State.showErr
  with_reducible repeat' first | assumption | apply State.wr_keeps | apply State.wrS_keeps

theorem State.ppsRise_keeps {s₀ : State} {s : State} (h : Keeps s₀ s) : Keeps s₀ (State.ppsRise s) := by
  unfold State.ppsRise
  with_reducible repeat' first | assumption | apply State.wr_keeps | apply ite_keeps | split | (refine Keeps.mk' ?_ rfl rfl; first | assumption | apply State.wr_keeps | apply ite_keeps | split)

theorem State.servoCycle_keeps {s₀ : State} {s : State} (h : Keeps s₀ s) : Keeps s₀ (State.servoCycle s) := by
  unfold State.servoCycle
  with_reducible repeat' first | assumption | apply State.wr_keeps | apply ite_keeps | split

theorem State.stampRx_keeps {s₀ : State} {s : State} (m : Nat) (h : Keeps s₀ s) : Keeps s₀ (State.stampRx s m) := by
  unfold State.stampRx
  with_reducible repeat' first | assumption | apply State.wr_keeps | (intro _) | (refine Keeps.mk' ?_ rfl rfl; first | assumption | apply State.wr_keeps)

theorem State.stampTx_keeps {s₀ : State} {s : State} (m : Nat) (h : Keeps s₀ s) : Keeps s₀ (State.stampTx s m) := by
  unfold State.stampTx
  with_reducible repeat' first | assumption | apply State.wr_keeps | (intro _) | (refine Keeps.mk' ?_ rfl rfl; first | assumption | apply State.wr_keeps)

theorem State.frameIn_keeps {s₀ : State} {s : State} (m : Nat) (h : Keeps s₀ s) : Keeps s₀ (State.frameIn s m) := by
  unfold State.frameIn
  with_reducible repeat' first | assumption | apply State.wr_keeps | apply State.when_keeps | apply State.stampRx_keeps | (intro _)

end Sys2Proof.Machine
end

