-- ==== Sys2Proof/Laws/Keeps/Record.lean ====
section
/-!
SUPPORT. Sys2Proof/Laws/Keeps/Record.lean: what each operation of Machine/Record.lean keeps (Keeps of Safety.lean).
-/
namespace Sys2Proof.Machine
set_option linter.all false

theorem State.setRec_keeps {s₀ : State} {s : State} (d : Nat) (slot : Nat) (ws : List Word) (h : Keeps s₀ s) : Keeps s₀ (State.setRec s d slot ws) := by
  unfold State.setRec
  with_reducible repeat' first | assumption | apply State.wr_keeps | (intro _) | (refine Keeps.mk' ?_ rfl rfl; first | assumption | apply State.wr_keeps)

theorem State.setGroves_keeps {s₀ : State} {s : State} (d : Nat) (slot : Nat) (gs : List Nat) (h : Keeps s₀ s) : Keeps s₀ (State.setGroves s d slot gs) := by
  unfold State.setGroves
  with_reducible repeat' first | assumption | apply State.wr_keeps | (intro _) | (refine Keeps.mk' ?_ rfl rfl; first | assumption | apply State.wr_keeps)

theorem State.setNewAt_keeps {s₀ : State} {s : State} (d : Nat) (h : Keeps s₀ s) : Keeps s₀ (State.setNewAt s d) := by
  unfold State.setNewAt
  with_reducible repeat' first | assumption | apply State.wr_keeps | (intro _) | (refine Keeps.mk' ?_ rfl rfl; first | assumption | apply State.wr_keeps)

theorem State.recNew_keeps {s₀ : State} {s : State} (d : Nat) (e : Event) (h : Keeps s₀ s) : Keeps s₀ (State.recNew s d e) := by
  unfold State.recNew
  try extract_lets
  with_reducible repeat' first | assumption | apply State.wr_keeps | apply State.setRec_keeps | apply State.setGroves_keeps | apply State.setNewAt_keeps | apply State.incWrap_keeps | apply State.inc_keeps | apply ite_keeps | split | (dsimp +zetaDelta only)

theorem State.setEvAt_keeps {s₀ : State} {s : State} (d : Nat) (h : Keeps s₀ s) : Keeps s₀ (State.setEvAt s d) := by
  unfold State.setEvAt
  with_reducible repeat' first | assumption | apply State.wr_keeps | (intro _) | (refine Keeps.mk' ?_ rfl rfl; first | assumption | apply State.wr_keeps)

theorem State.record_keeps {s₀ : State} {s : State} (d : Nat) (e : Event) (h : Keeps s₀ s) : Keeps s₀ (State.record s d e) := by
  unfold State.record
  try extract_lets
  with_reducible repeat' first | assumption | apply State.wr_keeps | apply State.setEvAt_keeps | apply State.setRec_keeps | apply State.inc_keeps | apply State.recNew_keeps | apply ite_keeps | split | (dsimp +zetaDelta only)

theorem State.event_keeps {s₀ : State} {s : State} (path : Nat) (code : Nat) (arg0 : Nat) (arg1 : Nat) (arg2 : Nat) (tl : Option Nat := none) (h : Keeps s₀ s) : Keeps s₀ (State.event s path code arg0 arg1 arg2 tl) := by
  unfold State.event
  with_reducible repeat' first | assumption | apply State.wr_keeps | apply State.record_keeps

theorem State.recReason_keeps {s₀ : State} {s : State} (path : Nat) (code : Nat) (arg0 : Nat) (arg1 : Nat) (wm : Wm := Wm.zero) (tl : Option Nat := none) (h : Keeps s₀ s) : Keeps s₀ (State.recReason s path code arg0 arg1 wm tl) := by
  unfold State.recReason
  with_reducible repeat' first | assumption | apply State.wr_keeps | apply State.record_keeps

theorem State.refuse_keeps {s₀ : State} {s : State} (path : Nat) (status : List Nat) (code : Nat) (arg1 : Nat) (arg0 : Nat := 0xFFFF) (tl : Option Nat := none) (h : Keeps s₀ s) : Keeps s₀ (State.refuse s path status code arg1 arg0 tl) := by
  unfold State.refuse
  with_reducible repeat' first | assumption | apply State.wr_keeps | apply State.reasons_keeps | apply State.recReason_keeps

end Sys2Proof.Machine
end

