-- ==== Sys2Proof/Laws/Keeps/Host.lean ====
section
/-!
SUPPORT. Sys2Proof/Laws/Keeps/Host.lean: what each operation of Machine/Host.lean keeps (Keeps of Safety.lean).
-/
namespace Sys2Proof.Machine
set_option linter.all false

theorem State.setRing_keeps {s₀ : State} {s : State} (r : Nat) (x : RingSt) (h : Keeps s₀ s) : Keeps s₀ (State.setRing s r x) := by
  unfold State.setRing
  with_reducible repeat' first | assumption | apply State.wr_keeps | (intro _) | (refine Keeps.mk' ?_ rfl rfl; first | assumption | apply State.wr_keeps)

theorem State.setXltWays_keeps {s₀ : State} {s : State} (i : Nat) (es : List XEnt) (h : Keeps s₀ s) : Keeps s₀ (State.setXltWays s i es) := by
  unfold State.setXltWays
  with_reducible repeat' first | assumption | apply State.wr_keeps | (intro _) | (refine Keeps.mk' ?_ rfl rfl; first | assumption | apply State.wr_keeps)

theorem State.xltFill_keeps {s₀ : State} {s : State} (pasid : Option Nat) (a : Nat) (h : Keeps s₀ s) : Keeps s₀ (State.xltFill s pasid a) := by
  unfold State.xltFill
  try extract_lets
  with_reducible repeat' first | assumption | apply State.wr_keeps | apply State.setXltWays_keeps | apply State.send_keeps | (dsimp +zetaDelta only)

theorem State.xlate_keeps {s₀ : State} {s : State} (pasid : Option Nat) (a : Nat) (h : Keeps s₀ s) : Keeps s₀ (State.xlate s pasid a) := by
  unfold State.xlate
  with_reducible repeat' first | assumption | apply State.wr_keeps | apply State.setXltWays_keeps | apply State.incWrap_keeps | apply State.xltFill_keeps | apply ite_keeps | split | (refine Keeps.mk' ?_ rfl rfl; first | assumption | apply State.wr_keeps | apply State.setXltWays_keeps | apply State.incWrap_keeps | apply State.xltFill_keeps | apply ite_keeps | split)

theorem State.xlateRange_keeps {s₀ : State} {s : State} (pasid : Option Nat) (a : Nat) (n : Nat) (h : Keeps s₀ s) : Keeps s₀ (State.xlateRange s pasid a n) := by
  unfold State.xlateRange
  with_reducible repeat' first | assumption | apply State.wr_keeps | apply State.forRange_keeps | apply State.xlate_keeps | (intro _) | apply ite_keeps | split

theorem State.xlateEntry_keeps {s₀ : State} {s : State} (r : Nat) (i : Nat) (h : Keeps s₀ s) : Keeps s₀ (State.xlateEntry s r i) := by
  unfold State.xlateEntry
  try extract_lets
  with_reducible repeat' first | assumption | apply State.wr_keeps | apply State.xlate_keeps | apply State.xltFill_keeps | apply ite_keeps | split | (dsimp +zetaDelta only)

theorem State.entryWrite_keeps {s₀ : State} {s : State} (r : Nat) (i : Nat) (bs : List Byte) (h : Keeps s₀ s) : Keeps s₀ (State.entryWrite s r i bs) := by
  unfold State.entryWrite
  with_reducible repeat' first | assumption | apply State.wr_keeps | apply State.xlateEntry_keeps | apply State.hostWrite_keeps

theorem State.signalVec_keeps {s₀ : State} {s : State} (v : Nat) (h : Keeps s₀ s) : Keeps s₀ (State.signalVec s v) := by
  unfold State.signalVec
  try extract_lets
  with_reducible repeat' first | assumption | apply State.wr_keeps | apply State.send_keeps | (intro _) | apply ite_keeps | split | (refine Keeps.mk' ?_ rfl rfl; first | assumption | apply State.wr_keeps | apply State.send_keeps | apply ite_keeps | split) | (dsimp +zetaDelta only)

theorem State.ringIrq_keeps {s₀ : State} {s : State} (r : Nat) (h : Keeps s₀ s) : Keeps s₀ (State.ringIrq s r) := by
  unfold State.ringIrq
  try extract_lets
  with_reducible repeat' first | assumption | apply State.wr_keeps | apply State.signalVec_keeps | (intro _) | apply ite_keeps | split | (refine Keeps.mk' ?_ rfl rfl; first | assumption | apply State.wr_keeps | apply State.signalVec_keeps | apply ite_keeps | split) | (dsimp +zetaDelta only)

theorem State.writeBack_keeps {s₀ : State} {s : State} (r : Nat) (h : Keeps s₀ s) : Keeps s₀ (State.writeBack s r) := by
  unfold State.writeBack
  try extract_lets
  with_reducible repeat' first | assumption | apply State.wr_keeps | apply State.setRing_keeps | apply State.xlate_keeps | apply State.hostWrite_keeps | apply ite_keeps | split | (refine Keeps.mk' ?_ rfl rfl; first | assumption | apply State.wr_keeps | apply State.setRing_keeps | apply State.xlate_keeps | apply State.hostWrite_keeps | apply ite_keeps | split) | (dsimp +zetaDelta only)

theorem State.writeRecs_keeps {s₀ s : State} (r i : Nat) (cs : List CplRec) (h : Keeps s₀ s) : Keeps s₀ (s.writeRecs r i cs) := by
  induction cs generalizing s i with
  | nil => exact h
  | cons c cs ih => exact ih _ (State.entryWrite_keeps _ _ _ h)

theorem State.closeBatch_keeps {s₀ : State} {s : State} (r : Nat) (h : Keeps s₀ s) : Keeps s₀ (State.closeBatch s r) := by
  unfold State.closeBatch
  try extract_lets
  with_reducible repeat' first | assumption | apply State.wr_keeps | apply State.writeRecs_keeps | apply State.entryWrite_keeps | apply State.setRing_keeps | apply State.writeBack_keeps | apply State.ringIrq_keeps | split | (refine Keeps.mk' ?_ rfl rfl; first | assumption | apply State.wr_keeps | apply State.writeRecs_keeps | apply State.entryWrite_keeps | apply State.setRing_keeps | apply State.writeBack_keeps | apply State.ringIrq_keeps | split) | (dsimp +zetaDelta only)

theorem State.addToBatch_keeps {s₀ : State} {s : State} (r : Nat) (c : CplRec) (h : Keeps s₀ s) : Keeps s₀ (State.addToBatch s r c) := by
  unfold State.addToBatch
  try extract_lets
  with_reducible repeat' first | assumption | apply State.wr_keeps | apply State.closeBatch_keeps | apply State.setRing_keeps | apply ite_keeps | split | (refine Keeps.mk' ?_ rfl rfl; first | assumption | apply State.wr_keeps | apply State.closeBatch_keeps | apply State.setRing_keeps | apply ite_keeps | split) | (dsimp +zetaDelta only)

theorem State.dropRec_keeps {s₀ : State} {s : State} (r : Nat) (c : CplRec) (h : Keeps s₀ s) : Keeps s₀ (State.dropRec s r c) := by
  unfold State.dropRec
  with_reducible repeat' first | assumption | apply State.wr_keeps | apply State.setRing_keeps | apply State.inc_keeps | (refine Keeps.mk' ?_ rfl rfl; first | assumption | apply State.wr_keeps | apply State.setRing_keeps | apply State.inc_keeps)

theorem State.drainHeld_keeps {s₀ s : State} (r n : Nat) (h : Keeps s₀ s) : Keeps s₀ (s.drainHeld r n) := by
  induction n generalizing s with
  | zero => exact h
  | succ n ih =>
    unfold State.drainHeld
    extract_lets s1 s2
    refine ite_keeps (ite_keeps h (ih (State.addToBatch_keeps _ _ (State.setRing_keeps _ _ h)))) ?_
    split
    · exact h
    · exact ite_keeps h (ih (State.addToBatch_keeps _ _ (State.setRing_keeps _ _ h)))

theorem State.putCpl_keeps {s₀ : State} {s : State} (r : Nat) (c : CplRec) (h : Keeps s₀ s) : Keeps s₀ (State.putCpl s r c) := by
  unfold State.putCpl
  try extract_lets
  with_reducible repeat' first | assumption | apply State.wr_keeps | apply State.dropRec_keeps | apply State.drainHeld_keeps | apply State.setRing_keeps | apply State.addToBatch_keeps | apply ite_keeps | split | (refine Keeps.mk' ?_ rfl rfl; first | assumption | apply State.wr_keeps | apply State.dropRec_keeps | apply State.drainHeld_keeps | apply State.setRing_keeps | apply State.addToBatch_keeps | apply ite_keeps | split) | (dsimp +zetaDelta only)

theorem State.complete_keeps {s₀ : State} {s : State} (ring : Nat) (idx : Nat) (tag : Word) (nocpl : Bool) (outcome : Nat) (reason : Nat) (wm : Wm) (path : Nat := pHost) (h : Keeps s₀ s) : Keeps s₀ (State.complete s ring idx tag nocpl outcome reason wm path) := by
  unfold State.complete
  try extract_lets
  with_reducible repeat' first | assumption | apply State.wr_keeps | apply State.recReason_keeps | apply State.putCpl_keeps | apply ite_keeps | split | (dsimp +zetaDelta only)

theorem State.setJob_keeps {s₀ : State} {s : State} (k : Nat) (j : Option Job) (h : Keeps s₀ s) : Keeps s₀ (State.setJob s k j) := by
  unfold State.setJob
  with_reducible repeat' first | assumption | apply State.wr_keeps | (intro _) | (refine Keeps.mk' ?_ rfl rfl; first | assumption | apply State.wr_keeps)

theorem State.dropHeld_keeps {s₀ : State} {s : State} (r : Nat) (h : Keeps s₀ s) : Keeps s₀ (State.dropHeld s r) := by
  unfold State.dropHeld
  with_reducible repeat' first | assumption | apply State.wr_keeps | apply State.setRing_keeps | apply State.event_keeps | split | (refine Keeps.mk' ?_ rfl rfl; first | assumption | apply State.wr_keeps | apply State.setRing_keeps | apply State.event_keeps | split)

theorem State.holdImage_keeps {s₀ : State} {s : State} (j : Job) (outcome : Nat) (wm : Wm) (h : Keeps s₀ s) : Keeps s₀ (State.holdImage s j outcome wm) := by
  unfold State.holdImage
  try extract_lets
  with_reducible repeat' first | assumption | apply State.wr_keeps | apply State.dropHeld_keeps | apply State.setRing_keeps | apply ite_keeps | split | (refine Keeps.mk' ?_ rfl rfl; first | assumption | apply State.wr_keeps | apply State.dropHeld_keeps | apply State.setRing_keeps | apply ite_keeps | split) | (dsimp +zetaDelta only)

theorem State.smear_keeps {s₀ : State} {s : State} (j : Job) (outcome : Nat) (wm : Wm) (h : Keeps s₀ s) : Keeps s₀ (State.smear s j outcome wm) := by
  unfold State.smear
  try extract_lets
  with_reducible repeat' first | assumption | apply State.wr_keeps | apply State.hbmWrite_keeps | apply State.tick_keeps | apply State.hostWrite_keeps | apply ite_keeps | split | (refine Keeps.mk' ?_ rfl rfl; first | assumption | apply State.wr_keeps | apply State.hbmWrite_keeps | apply State.tick_keeps | apply State.hostWrite_keeps | apply ite_keeps | split) | (dsimp +zetaDelta only)

theorem State.endJob_keeps {s₀ : State} {s : State} (k : Nat) (outcome : Nat) (reason : Nat) (wm : Wm) (h : Keeps s₀ s) : Keeps s₀ (State.endJob s k outcome reason wm) := by
  unfold State.endJob
  with_reducible repeat' first | assumption | apply State.wr_keeps | apply State.setJob_keeps | apply State.smear_keeps | apply State.holdImage_keeps | apply State.complete_keeps | apply ite_keeps | split | (refine Keeps.mk' ?_ rfl rfl; first | assumption | apply State.wr_keeps | apply State.setJob_keeps | apply State.smear_keeps | apply State.holdImage_keeps | apply State.complete_keeps | apply ite_keeps | split)

theorem State.startJob_keeps {s₀ : State} {s : State} (r : Nat) (d : Desc) (ph : JobPhase) (h : Keeps s₀ s) : Keeps s₀ (State.startJob s r d ph) := by
  unfold State.startJob
  with_reducible repeat' first | assumption | apply State.wr_keeps | apply State.setJob_keeps

theorem State.schReason_keeps {s₀ : State} {s : State} (p : Nat) (code : Nat) (h : Keeps s₀ s) : Keeps s₀ (State.schReason s p code) := by
  unfold State.schReason
  with_reducible repeat' first | assumption | apply State.wr_keeps | apply State.reason_keeps | apply ite_keeps | split

theorem State.refuseDesc_keeps {s₀ : State} {s : State} (r : Nat) (d : Desc) (code : Nat) (h : Keeps s₀ s) : Keeps s₀ (State.refuseDesc s r d code) := by
  unfold State.refuseDesc
  with_reducible repeat' first | assumption | apply State.wr_keeps | apply State.schReason_keeps | apply State.complete_keeps

theorem State.popFetched_keeps {s₀ : State} {s : State} (r : Nat) (h : Keeps s₀ s) : Keeps s₀ (State.popFetched s r) := by
  unfold State.popFetched
  with_reducible repeat' first | assumption | apply State.wr_keeps | apply State.setRing_keeps | (refine Keeps.mk' ?_ rfl rfl; first | assumption | apply State.wr_keeps | apply State.setRing_keeps)

theorem State.dispatch_keeps {s₀ s : State} (r op : Nat) (reserved : List (Nat × Word)) (check : State → Desc → Nat) (work : State → Desc → State)
    (hw : ∀ u d, Keeps s₀ u → Keeps s₀ (work u d)) (h : Keeps s₀ s) : Keeps s₀ (s.dispatch r op reserved check work) := by
  unfold State.dispatch
  repeat' first | with_reducible assumption | with_reducible apply State.refuseDesc_keeps | with_reducible apply State.popFetched_keeps | with_reducible apply hw | with_reducible apply ite_keeps | split

theorem State.putUnits_keeps {s₀ s : State} (r : Nat) (us : List (List Byte)) (h : Keeps s₀ s) : Keeps s₀ (s.putUnits r us) := by
  induction us generalizing s with
  | nil => exact h
  | cons u us ih => exact ih (State.wr_keeps _ _ (State.entryWrite_keeps _ _ _ h))

theorem State.putEvt_keeps {s₀ s : State} (r : Nat) (ws : List Word) (h : Keeps s₀ s) : Keeps s₀ (s.putEvt r ws) := by
  unfold State.putEvt
  extract_lets lost u t
  refine ite_keeps (State.inc_keeps _ (State.inc_keeps _ (h.mk' rfl rfl))) (State.ringIrq_keeps _ (State.writeBack_keeps _ (State.putUnits_keeps _ _ ?_)))
  exact ite_keeps h (State.putUnits_keeps _ _ (h.mk' rfl rfl))

theorem State.statUnit_keeps {s₀ : State} {s : State} (r : Nat) (ws : List Word) (h : Keeps s₀ s) : Keeps s₀ (State.statUnit s r ws) := by
  unfold State.statUnit
  with_reducible repeat' first | assumption | apply State.wr_keeps | apply State.putUnits_keeps

theorem State.statCut_keeps {s₀ : State} {s : State} (r : Nat) (stream : Nat) (n : Nat) (h : Keeps s₀ s) : Keeps s₀ (State.statCut s r stream n) := by
  unfold State.statCut
  with_reducible repeat' first | assumption | apply State.wr_keeps | apply State.setRing_keeps | apply State.add_keeps | (refine Keeps.mk' ?_ rfl rfl; first | assumption | apply State.wr_keeps | apply State.setRing_keeps | apply State.add_keeps)

theorem State.statGap_keeps {s₀ : State} {s : State} (r : Nat) (h : Keeps s₀ s) : Keeps s₀ (State.statGap s r) := by
  unfold State.statGap
  try extract_lets
  with_reducible repeat' first | assumption | apply State.wr_keeps | apply State.setRing_keeps | apply State.statUnit_keeps | (refine Keeps.mk' ?_ rfl rfl; first | assumption | apply State.wr_keeps | apply State.setRing_keeps | apply State.statUnit_keeps) | (dsimp +zetaDelta only)

theorem State.statLose_keeps {s₀ : State} {s : State} (r : Nat) (stream : Nat) (cause : Nat) (n : Nat) (h : Keeps s₀ s) : Keeps s₀ (State.statLose s r stream cause n) := by
  unfold State.statLose
  with_reducible repeat' first | assumption | apply State.wr_keeps | apply State.setRing_keeps | apply State.add_keeps | (refine Keeps.mk' ?_ rfl rfl; first | assumption | apply State.wr_keeps | apply State.setRing_keeps | apply State.add_keeps)

theorem State.cutMark_keeps {s₀ : State} {s : State} (r : Nat) (h : Keeps s₀ s) : Keeps s₀ (State.cutMark s r) := by
  unfold State.cutMark
  try extract_lets
  with_reducible repeat' first | assumption | apply State.wr_keeps | apply State.setRing_keeps | apply State.statUnit_keeps | apply State.writeBack_keeps | apply State.ringIrq_keeps | apply ite_keeps | split | (refine Keeps.mk' ?_ rfl rfl; first | assumption | apply State.wr_keeps | apply State.setRing_keeps | apply State.statUnit_keeps | apply State.writeBack_keeps | apply State.ringIrq_keeps | apply ite_keeps | split) | (dsimp +zetaDelta only)

theorem State.cutMarks_keeps {s₀ : State} {s : State} (r : Nat) (h : Keeps s₀ s) : Keeps s₀ (State.cutMarks s r) := by
  unfold State.cutMarks
  with_reducible repeat' first | assumption | apply State.wr_keeps | apply State.forRange_keeps | apply State.cutMark_keeps | (intro _)

theorem State.putStat_keeps {s₀ : State} {s : State} (r : Nat) (stream : Nat) (us : List (List Word)) (h : Keeps s₀ s) : Keeps s₀ (State.putStat s r stream us) := by
  unfold State.putStat
  try extract_lets
  with_reducible repeat' first | assumption | apply State.wr_keeps | apply State.statLose_keeps | apply State.statGap_keeps | apply State.statUnit_keeps | apply State.writeBack_keeps | apply State.ringIrq_keeps | apply foldl_keeps | (intro _) | apply ite_keeps | split | (dsimp +zetaDelta only)

theorem State.outPlace_keeps {s₀ : State} {s : State} (r : Nat) (x : OutRec) (h : Keeps s₀ s) : Keeps s₀ (State.outPlace s r x) := by
  unfold State.outPlace
  try extract_lets
  with_reducible repeat' first | assumption | apply State.wr_keeps | apply State.entryWrite_keeps | (dsimp +zetaDelta only)

theorem State.outPad_keeps {s₀ : State} {s : State} (r : Nat) (x : OutRec) (h : Keeps s₀ s) : Keeps s₀ (State.outPad s r x) := by
  unfold State.outPad
  try extract_lets
  with_reducible repeat' first | assumption | apply State.wr_keeps | apply State.entryWrite_keeps | apply ite_keeps | split | (dsimp +zetaDelta only)

theorem State.outGap_keeps {s₀ : State} {s : State} (r : Nat) (h : Keeps s₀ s) : Keeps s₀ (State.outGap s r) := by
  unfold State.outGap
  try extract_lets
  with_reducible repeat' first | assumption | apply State.wr_keeps | apply State.setRing_keeps | apply State.tick_keeps | apply State.outPlace_keeps | (refine Keeps.mk' ?_ rfl rfl; first | assumption | apply State.wr_keeps | apply State.setRing_keeps | apply State.tick_keeps | apply State.outPlace_keeps) | (dsimp +zetaDelta only)

theorem State.outWrite_keeps {s₀ : State} {s : State} (r : Nat) (x : OutRec) (h : Keeps s₀ s) : Keeps s₀ (State.outWrite s r x) := by
  unfold State.outWrite
  with_reducible repeat' first | assumption | apply State.wr_keeps | apply State.outPad_keeps | apply State.outPlace_keeps | apply State.writeBack_keeps | apply State.ringIrq_keeps

theorem State.showSpill_keeps {s₀ : State} {s : State} (r : Nat) (h : Keeps s₀ s) : Keeps s₀ (State.showSpill s r) := by
  unfold State.showSpill
  with_reducible repeat' first | assumption | apply State.wr_keeps

theorem State.spillWrite_keeps {s₀ : State} {s : State} (r : Nat) (a : Nat) (bs : List Byte) (h : Keeps s₀ s) : Keeps s₀ (State.spillWrite s r a bs) := by
  unfold State.spillWrite
  try extract_lets
  with_reducible repeat' first | assumption | apply State.wr_keeps | apply State.hbmWrite_keeps | (dsimp +zetaDelta only)

theorem State.spillPut_keeps {s₀ : State} {s : State} (r : Nat) (x : OutRec) (h : Keeps s₀ s) : Keeps s₀ (State.spillPut s r x) := by
  unfold State.spillPut
  try extract_lets
  with_reducible repeat' first | assumption | apply State.wr_keeps | apply State.setRing_keeps | apply State.inc_keeps | apply State.event_keeps | apply State.spillWrite_keeps | apply State.showSpill_keeps | apply ite_keeps | split | (refine Keeps.mk' ?_ rfl rfl; first | assumption | apply State.wr_keeps | apply State.setRing_keeps | apply State.inc_keeps | apply State.event_keeps | apply State.spillWrite_keeps | apply State.showSpill_keeps | apply ite_keeps | split) | (dsimp +zetaDelta only)

theorem State.putOut_keeps {s₀ : State} {s : State} (r : Nat) (x : OutRec) (h : Keeps s₀ s) : Keeps s₀ (State.putOut s r x) := by
  unfold State.putOut
  try extract_lets
  with_reducible repeat' first | assumption | apply State.wr_keeps | apply State.setRing_keeps | apply State.inc_keeps | apply State.spillPut_keeps | apply State.outGap_keeps | apply State.outWrite_keeps | apply ite_keeps | split | (refine Keeps.mk' ?_ rfl rfl; first | assumption | apply State.wr_keeps | apply State.setRing_keeps | apply State.inc_keeps | apply State.spillPut_keeps | apply State.outGap_keeps | apply State.outWrite_keeps | apply ite_keeps | split) | (dsimp +zetaDelta only)

theorem State.spillDrain_keeps {s₀ s : State} (r n : Nat) (h : Keeps s₀ s) : Keeps s₀ (s.spillDrain r n) := by
  induction n generalizing s with
  | zero => exact h
  | succ n ih =>
    unfold State.spillDrain
    repeat' first | with_reducible assumption | with_reducible apply ih | with_reducible apply State.showSpill_keeps | with_reducible apply State.outWrite_keeps | with_reducible apply State.setRing_keeps | with_reducible apply State.wr_keeps | with_reducible apply ite_keeps | split

theorem State.spillLost_keeps {s₀ : State} {s : State} (r : Nat) (h : Keeps s₀ s) : Keeps s₀ (State.spillLost s r) := by
  unfold State.spillLost
  try extract_lets
  with_reducible repeat' first | assumption | apply State.wr_keeps | apply State.setRing_keeps | apply State.add_keeps | apply State.showSpill_keeps | apply State.event_keeps | (refine Keeps.mk' ?_ rfl rfl; first | assumption | apply State.wr_keeps | apply State.setRing_keeps | apply State.add_keeps | apply State.showSpill_keeps | apply State.event_keeps) | (dsimp +zetaDelta only)

theorem State.spillReset_keeps {s₀ : State} {s : State} (r : Nat) (h : Keeps s₀ s) : Keeps s₀ (State.spillReset s r) := by
  unfold State.spillReset
  with_reducible repeat' first | assumption | apply State.wr_keeps | apply State.setRing_keeps | apply State.showSpill_keeps | (refine Keeps.mk' ?_ rfl rfl; first | assumption | apply State.wr_keeps | apply State.setRing_keeps | apply State.showSpill_keeps)

end Sys2Proof.Machine
end

