-- ==== Sys2Proof/Laws/Keeps/Park.lean ====
section
/-!
SUPPORT. Sys2Proof/Laws/Keeps/Park.lean: what each operation of Machine/Park.lean keeps (Keeps of Safety.lean).
-/
namespace Sys2Proof.Machine
set_option linter.all false

theorem State.setTask_keeps {s₀ : State} {s : State} (d : Nat) (t : Nat) (x : Task) (h : Keeps s₀ s) : Keeps s₀ (State.setTask s d t x) := by
  unfold State.setTask
  with_reducible repeat' first | assumption | apply State.wr_keeps | (intro _) | (refine Keeps.mk' ?_ rfl rfl; first | assumption | apply State.wr_keeps)

theorem State.setFaulted_keeps {s₀ : State} {s : State} (w : Work) (b : Bool) (h : Keeps s₀ s) : Keeps s₀ (State.setFaulted s w b) := by
  unfold State.setFaulted
  with_reducible repeat' first | assumption | apply State.wr_keeps | apply State.setJob_keeps | apply State.setTask_keeps | apply State.setRing_keeps | split | (refine Keeps.mk' ?_ rfl rfl; first | assumption | apply State.wr_keeps | apply State.setJob_keeps | apply State.setTask_keeps | apply State.setRing_keeps | split)

theorem State.showPark_keeps {s₀ : State} {s : State} (h : Keeps s₀ s) : Keeps s₀ (State.showPark s) := by
  unfold State.showPark
  with_reducible repeat' first | assumption | apply State.wr_keeps

theorem State.showTag_keeps {s₀ : State} {s : State} (w : Work) (tag : Nat) (h : Keeps s₀ s) : Keeps s₀ (State.showTag s w tag) := by
  unfold State.showTag
  with_reducible repeat' first | assumption | apply State.wr_keeps | apply State.setJob_keeps | apply State.setTask_keeps | apply ite_keeps | split | (refine Keeps.mk' ?_ rfl rfl; first | assumption | apply State.wr_keeps | apply State.setJob_keeps | apply State.setTask_keeps | apply ite_keeps | split)

theorem State.takeSlot_keeps {s₀ : State} {s : State} (w : Work) (i : Nat) (h : Keeps s₀ s) : Keeps s₀ (State.takeSlot s w i) := by
  unfold State.takeSlot
  try extract_lets
  with_reducible repeat' first | assumption | apply State.wr_keeps | apply State.showTag_keeps | apply State.showPark_keeps | (intro _) | (refine Keeps.mk' ?_ rfl rfl; first | assumption | apply State.wr_keeps | apply State.showTag_keeps | apply State.showPark_keeps) | (dsimp +zetaDelta only)

theorem State.holdInHbm_keeps {s₀ : State} {s : State} (w : Work) (h : Keeps s₀ s) : Keeps s₀ (State.holdInHbm s w) := by
  unfold State.holdInHbm
  with_reducible repeat' first | assumption | apply State.wr_keeps | (intro _) | apply ite_keeps | split | (refine Keeps.mk' ?_ rfl rfl; first | assumption | apply State.wr_keeps | apply ite_keeps | split)

theorem State.setPrg_keeps {s₀ : State} {s : State} (i : Nat) (p : Option Prg) (h : Keeps s₀ s) : Keeps s₀ (State.setPrg s i p) := by
  unfold State.setPrg
  with_reducible repeat' first | assumption | apply State.wr_keeps | (intro _) | (refine Keeps.mk' ?_ rfl rfl; first | assumption | apply State.wr_keeps)

theorem State.showPri_keeps {s₀ : State} {s : State} (h : Keeps s₀ s) : Keeps s₀ (State.showPri s) := by
  unfold State.showPri
  try extract_lets
  with_reducible repeat' first | assumption | apply State.wr_keeps | (intro _) | split | (refine Keeps.mk' ?_ rfl rfl; first | assumption | apply State.wr_keeps | split) | (dsimp +zetaDelta only)

theorem State.sendPrg_keeps {s₀ : State} {s : State} (i : Nat) (h : Keeps s₀ s) : Keeps s₀ (State.sendPrg s i) := by
  unfold State.sendPrg
  try extract_lets
  with_reducible repeat' first | assumption | apply State.wr_keeps | apply State.send_keeps | apply State.setPrg_keeps | apply foldl_keeps | (intro _) | split | (refine Keeps.mk' ?_ rfl rfl; first | assumption | apply State.wr_keeps | apply State.send_keeps | apply State.setPrg_keeps | apply foldl_keeps | split) | (dsimp +zetaDelta only)

theorem State.askPage_keeps {s₀ s t : State} (w : Work) (tag page : Nat) (e : s.askPage w tag page = some t) (h : Keeps s₀ s) : Keeps s₀ t := by
  unfold State.askPage at e
  extract_lets pasid at e
  repeat' split at e
  all_goals first
    | cases e; done
    | (obtain ⟨p, _, rfl⟩ := Option.map_eq_some_iff.1 e
       repeat' first | with_reducible assumption | with_reducible apply State.setPrg_keeps | with_reducible apply State.showPri_keeps | with_reducible apply State.sendPrg_keeps | with_reducible apply ite_keeps)

theorem State.fault_keeps {s₀ s : State} (w : Work) (page : Nat) (h : Keeps s₀ s) : Keeps s₀ (s.fault w page) := by
  have hw : ∀ u : State, Keeps s₀ u → Keeps s₀ { u with xlt := { u.xlt with waiting := u.xlt.waiting ++ [(w, page)] } } := fun u hu => hu.mk' rfl rfl
  have ha : ∀ (u : State) (tag : Nat), Keeps s₀ u →
      Keeps s₀ ((u.askPage w tag page).getD { u with xlt := { u.xlt with waiting := u.xlt.waiting ++ [(w, page)] } }) := by
    intro u tag hu
    cases e : u.askPage w tag page with
    | none => exact hw _ hu
    | some t => exact State.askPage_keeps w tag page e hu
  unfold State.fault
  extract_lets wait ask
  refine ite_keeps (ha _ _ h) ?_
  split
  · exact ha _ _ h
  · exact ha _ _ (State.takeSlot_keeps _ _ h)
  · exact hw _ h

theorem State.retryWaiting_keeps {s₀ : State} {s : State} (h : Keeps s₀ s) : Keeps s₀ (State.retryWaiting s) := by
  unfold State.retryWaiting
  with_reducible repeat' first | assumption | apply State.wr_keeps | apply State.fault_keeps | apply foldl_keeps | (intro _) | apply ite_keeps | split | (refine Keeps.mk' ?_ rfl rfl; first | assumption | apply State.wr_keeps | apply State.fault_keeps | apply foldl_keeps | apply ite_keeps | split)

theorem State.closeGroups_keeps {s₀ : State} {s : State} (w : Work) (h : Keeps s₀ s) : Keeps s₀ (State.closeGroups s w) := by
  unfold State.closeGroups
  with_reducible repeat' first | assumption | apply State.wr_keeps | apply State.sendPrg_keeps | apply foldl_keeps | (intro _) | split | (refine Keeps.mk' ?_ rfl rfl; first | assumption | apply State.wr_keeps | apply State.sendPrg_keeps | apply foldl_keeps | split)

theorem State.freePark_keeps {s₀ : State} {s : State} (w : Work) (h : Keeps s₀ s) : Keeps s₀ (State.freePark s w) := by
  unfold State.freePark
  try extract_lets
  with_reducible repeat' first | assumption | apply State.wr_keeps | apply State.closeGroups_keeps | apply State.showPark_keeps | apply State.retryWaiting_keeps | (intro _) | split | (refine Keeps.mk' ?_ rfl rfl; first | assumption | apply State.wr_keeps | apply State.closeGroups_keeps | apply State.showPark_keeps | apply State.retryWaiting_keeps | split) | (dsimp +zetaDelta only)

end Sys2Proof.Machine
end

