-- ==== Sys2Proof/Laws/Keeps/Task.lean ====
section
/-!
SUPPORT. Sys2Proof/Laws/Keeps/Task.lean: what each operation of Machine/Task.lean keeps (Keeps of Safety.lean).
-/
namespace Sys2Proof.Machine
set_option linter.all false

theorem State.setReady_keeps {s₀ : State} {s : State} (d : Nat) (b : Nat) (l : Nat) (ts : List Nat) (h : Keeps s₀ s) : Keeps s₀ (State.setReady s d b l ts) := by
  unfold State.setReady
  with_reducible repeat' first | assumption | apply State.wr_keeps | (intro _) | (refine Keeps.mk' ?_ rfl rfl; first | assumption | apply State.wr_keeps)

theorem State.setDelay_keeps {s₀ : State} {s : State} (d : Nat) (l : Nat) (ts : List Nat) (h : Keeps s₀ s) : Keeps s₀ (State.setDelay s d l ts) := by
  unfold State.setDelay
  with_reducible repeat' first | assumption | apply State.wr_keeps | (intro _) | (refine Keeps.mk' ?_ rfl rfl; first | assumption | apply State.wr_keeps)

theorem State.joinHead_keeps {s₀ : State} {s : State} (d : Nat) (t : Nat) (h : Keeps s₀ s) : Keeps s₀ (State.joinHead s d t) := by
  unfold State.joinHead
  try extract_lets
  with_reducible repeat' first | assumption | apply State.wr_keeps | apply State.setTask_keeps | apply State.setReady_keeps | (refine Keeps.mk' ?_ rfl rfl; first | assumption | apply State.wr_keeps | apply State.setTask_keeps | apply State.setReady_keeps) | (dsimp +zetaDelta only)

theorem State.joinTail_keeps {s₀ : State} {s : State} (d : Nat) (t : Nat) (cls : Nat) (h : Keeps s₀ s) : Keeps s₀ (State.joinTail s d t cls) := by
  unfold State.joinTail
  try extract_lets
  with_reducible repeat' first | assumption | apply State.wr_keeps | apply State.setTask_keeps | apply State.setReady_keeps | (refine Keeps.mk' ?_ rfl rfl; first | assumption | apply State.wr_keeps | apply State.setTask_keeps | apply State.setReady_keeps) | (dsimp +zetaDelta only)

theorem State.setCur_keeps {s₀ : State} {s : State} (d : Nat) (k : Nat) (t : Option Nat) (h : Keeps s₀ s) : Keeps s₀ (State.setCur s d k t) := by
  unfold State.setCur
  with_reducible repeat' first | assumption | apply State.wr_keeps

theorem State.setNext_keeps {s₀ : State} {s : State} (d : Nat) (k : Nat) (t : Option Nat) (h : Keeps s₀ s) : Keeps s₀ (State.setNext s d k t) := by
  unfold State.setNext
  with_reducible repeat' first | assumption | apply State.wr_keeps

theorem State.emptyCur_keeps {s₀ : State} {s : State} (d : Nat) (k : Nat) (h : Keeps s₀ s) : Keeps s₀ (State.emptyCur s d k) := by
  unfold State.emptyCur
  with_reducible repeat' first | assumption | apply State.wr_keeps | apply State.setCur_keeps

theorem State.leaveCur_keeps {s₀ : State} {s : State} (d : Nat) (k : Nat) (h : Keeps s₀ s) : Keeps s₀ (State.leaveCur s d k) := by
  unfold State.leaveCur
  with_reducible repeat' first | assumption | apply State.wr_keeps | apply State.holdInHbm_keeps | apply State.emptyCur_keeps | apply ite_keeps | split | (refine Keeps.mk' ?_ rfl rfl; first | assumption | apply State.wr_keeps | apply State.holdInHbm_keeps | apply State.emptyCur_keeps | apply ite_keeps | split)

theorem State.fillSlot_keeps {s₀ : State} {s : State} (d : Nat) (b : Nat) (k : Nat) (l : Nat) (t : Nat) (h : Keeps s₀ s) : Keeps s₀ (State.fillSlot s d b k l t) := by
  unfold State.fillSlot
  try extract_lets
  with_reducible repeat' first | assumption | apply State.wr_keeps | apply State.setReady_keeps | apply State.setTask_keeps | apply State.setCur_keeps | apply State.send_keeps | apply State.leaveCur_keeps | apply State.setNext_keeps | (intro _) | apply ite_keeps | split | (refine Keeps.mk' ?_ rfl rfl; first | assumption | apply State.wr_keeps | apply State.setReady_keeps | apply State.setTask_keeps | apply State.setCur_keeps | apply State.send_keeps | apply State.leaveCur_keeps | apply State.setNext_keeps | apply ite_keeps | split) | (dsimp +zetaDelta only)

theorem State.fill_keeps {s₀ s : State} (d b n : Nat) (h : Keeps s₀ s) : Keeps s₀ (s.fill d b n) := by
  induction n generalizing s with
  | zero => exact h
  | succ n ih =>
    unfold State.fill
    split
    · exact h
    · extract_lets ks mark held
      have hm : Keeps s₀ mark := by
        unfold mark
        split
        · exact ite_keeps (ih (State.leaveCur_keeps _ _ h)) (State.wr_keeps _ _ h)
        · exact h
      clear_value mark
      repeat' first | with_reducible assumption | with_reducible apply ih | with_reducible apply State.fillSlot_keeps | with_reducible apply State.inc_keeps | with_reducible apply State.joinHead_keeps | with_reducible apply State.setNext_keeps | with_reducible apply ite_keeps | split

theorem State.refill_keeps {s₀ : State} {s : State} (d : Nat) (b : Nat) (h : Keeps s₀ s) : Keeps s₀ (State.refill s d b) := by
  unfold State.refill
  with_reducible repeat' first | assumption | apply State.wr_keeps | apply ite_keeps | split | (refine Keeps.mk' ?_ rfl rfl; first | assumption | apply State.wr_keeps | apply ite_keeps | split)

theorem State.fillCycle_keeps {s₀ : State} {s : State} (h : Keeps s₀ s) : Keeps s₀ (State.fillCycle s) := by
  unfold State.fillCycle
  with_reducible repeat' first | assumption | apply State.wr_keeps | apply State.fill_keeps | apply foldl_keeps | (intro _) | (refine Keeps.mk' ?_ rfl rfl; first | assumption | apply State.wr_keeps | apply State.fill_keeps | apply foldl_keeps)

theorem State.detach_keeps {s₀ : State} {s : State} (d : Nat) (t : Nat) (h : Keeps s₀ s) : Keeps s₀ (State.detach s d t) := by
  unfold State.detach
  try extract_lets
  with_reducible repeat' first | assumption | apply State.wr_keeps | apply State.setDelay_keeps | apply State.setReady_keeps | apply State.setNext_keeps | apply State.emptyCur_keeps | apply ite_keeps | split | (dsimp +zetaDelta only)

theorem State.refillFor_keeps {s₀ : State} {s : State} (d : Nat) (b : Nat) (k : Nat) (h : Keeps s₀ s) : Keeps s₀ (State.refillFor s d b k) := by
  unfold State.refillFor
  try extract_lets
  with_reducible repeat' first | assumption | apply State.wr_keeps | apply State.refill_keeps | apply ite_keeps | split | (dsimp +zetaDelta only)

theorem State.endTask_keeps {s₀ : State} {s : State} (d : Nat) (t : Nat) (fin : Nat) (outcome : Nat) (reason : Nat) (wm : Wm) (h : Keeps s₀ s) : Keeps s₀ (State.endTask s d t fin outcome reason wm) := by
  unfold State.endTask
  try extract_lets
  with_reducible repeat' first | assumption | apply State.wr_keeps | apply State.detach_keeps | apply State.freePark_keeps | apply State.setTask_keeps | apply State.inc_keeps | apply State.complete_keeps | apply State.recReason_keeps | apply State.schReason_keeps | apply State.refillFor_keeps | apply ite_keeps | split | (refine Keeps.mk' ?_ rfl rfl; first | assumption | apply State.wr_keeps | apply State.detach_keeps | apply State.freePark_keeps | apply State.setTask_keeps | apply State.inc_keeps | apply State.complete_keeps | apply State.recReason_keeps | apply State.schReason_keeps | apply State.refillFor_keeps | apply ite_keeps | split) | (dsimp +zetaDelta only)

theorem State.stopTask_keeps {s₀ : State} {s : State} (d : Nat) (t : Nat) (outcome : Nat) (reason : Nat) (h : Keeps s₀ s) : Keeps s₀ (State.stopTask s d t outcome reason) := by
  unfold State.stopTask
  try extract_lets
  with_reducible repeat' first | assumption | apply State.wr_keeps | apply State.setTask_keeps | apply State.endTask_keeps | apply ite_keeps | split | (refine Keeps.mk' ?_ rfl rfl; first | assumption | apply State.wr_keeps | apply State.setTask_keeps | apply State.endTask_keeps | apply ite_keeps | split) | (dsimp +zetaDelta only)

theorem State.unstart_keeps {s₀ : State} {s : State} (d : Nat) (t : Nat) (h : Keeps s₀ s) : Keeps s₀ (State.unstart s d t) := by
  unfold State.unstart
  try extract_lets
  with_reducible repeat' first | assumption | apply State.wr_keeps | apply State.inc_keeps | apply State.endTask_keeps | apply ite_keeps | split | (refine Keeps.mk' ?_ rfl rfl; first | assumption | apply State.wr_keeps | apply State.inc_keeps | apply State.endTask_keeps | apply ite_keeps | split) | (dsimp +zetaDelta only)

theorem State.cancelTask_keeps {s₀ : State} {s : State} (d : Nat) (t : Nat) (h : Keeps s₀ s) : Keeps s₀ (State.cancelTask s d t) := by
  unfold State.cancelTask
  try extract_lets
  with_reducible repeat' first | assumption | apply State.wr_keeps | apply State.unstart_keeps | apply State.setTask_keeps | apply State.endTask_keeps | apply State.inc_keeps | apply ite_keeps | split | (refine Keeps.mk' ?_ rfl rfl; first | assumption | apply State.wr_keeps | apply State.unstart_keeps | apply State.setTask_keeps | apply State.endTask_keeps | apply State.inc_keeps | apply ite_keeps | split) | (dsimp +zetaDelta only)

theorem State.stopJob_keeps {s₀ : State} {s : State} (k : Nat) (outcome : Nat) (reason : Nat) (h : Keeps s₀ s) : Keeps s₀ (State.stopJob s k outcome reason) := by
  unfold State.stopJob
  with_reducible repeat' first | assumption | apply State.wr_keeps | apply State.setJob_keeps | apply State.freePark_keeps | apply State.endJob_keeps | apply ite_keeps | split | (refine Keeps.mk' ?_ rfl rfl; first | assumption | apply State.wr_keeps | apply State.setJob_keeps | apply State.freePark_keeps | apply State.endJob_keeps | apply ite_keeps | split)

theorem State.dueStop_keeps {s₀ : State} {s : State} (w : Work) (outcome : Nat) (reason : Nat) (h : Keeps s₀ s) : Keeps s₀ (State.dueStop s w outcome reason) := by
  unfold State.dueStop
  try extract_lets
  with_reducible repeat' first | assumption | apply State.wr_keeps | apply State.stopJob_keeps | apply State.setJob_keeps | apply State.stopTask_keeps | apply State.setTask_keeps | (intro _) | apply ite_keeps | split | (refine Keeps.mk' ?_ rfl rfl; first | assumption | apply State.wr_keeps | apply State.stopJob_keeps | apply State.setJob_keeps | apply State.stopTask_keeps | apply State.setTask_keeps | apply ite_keeps | split) | (dsimp +zetaDelta only)

theorem State.dueEnd_keeps {s₀ : State} {s : State} (w : Work) (h : Keeps s₀ s) : Keeps s₀ (State.dueEnd s w) := by
  unfold State.dueEnd
  try extract_lets
  with_reducible repeat' first | assumption | apply State.wr_keeps | apply State.freePark_keeps | apply State.endJob_keeps | apply State.endTask_keeps | apply ite_keeps | split | (refine Keeps.mk' ?_ rfl rfl; first | assumption | apply State.wr_keeps | apply State.freePark_keeps | apply State.endJob_keeps | apply State.endTask_keeps | apply ite_keeps | split) | (dsimp +zetaDelta only)

theorem State.dueCycle_keeps {s₀ : State} {s : State} (h : Keeps s₀ s) : Keeps s₀ (State.dueCycle s) := by
  unfold State.dueCycle
  with_reducible repeat' first | assumption | apply State.wr_keeps | apply State.dueEnd_keeps | apply foldl_keeps | (refine Keeps.mk' ?_ rfl rfl; first | assumption | apply State.wr_keeps | apply State.dueEnd_keeps | apply foldl_keeps)

theorem State.endFetched_keeps {s₀ : State} {s : State} (r : Nat) (n : Nat) (h : Keeps s₀ s) : Keeps s₀ (State.endFetched s r n) := by
  unfold State.endFetched
  try extract_lets
  with_reducible repeat' first | assumption | apply State.wr_keeps | apply State.complete_keeps | apply State.setRing_keeps | apply foldl_keeps | (intro _) | apply ite_keeps | split | (refine Keeps.mk' ?_ rfl rfl; first | assumption | apply State.wr_keeps | apply State.complete_keeps | apply State.setRing_keeps | apply foldl_keeps | apply ite_keeps | split) | (dsimp +zetaDelta only)

theorem State.endTimelineWork_keeps {s₀ : State} {s : State} (n : Nat) (h : Keeps s₀ s) : Keeps s₀ (State.endTimelineWork s n) := by
  unfold State.endTimelineWork
  try extract_lets
  with_reducible repeat' first | assumption | apply State.wr_keeps | apply State.stopTask_keeps | apply State.stopJob_keeps | apply State.endFetched_keeps | apply foldl_keeps | (intro _) | (dsimp +zetaDelta only)

end Sys2Proof.Machine
end

