-- ==== Sys2Proof/Laws/Keeps/Mode.lean ====
section
/-!
SUPPORT. Sys2Proof/Laws/Keeps/Mode.lean: what each operation of Machine/Mode.lean keeps (Keeps of Safety.lean).
-/
namespace Sys2Proof.Machine
set_option linter.all false

theorem State.unkept_keeps {s₀ : State} {s : State} (h : Keeps s₀ s) : Keeps s₀ (State.unkept s) := by
  unfold State.unkept
  with_reducible repeat' first | assumption | apply State.wr_keeps | (refine Keeps.mk' ?_ rfl rfl; first | assumption | apply State.wr_keeps)

theorem State.modeUpdate_keeps {s₀ : State} {s : State} (h : Keeps s₀ s) : Keeps s₀ (State.modeUpdate s) := by
  unfold State.modeUpdate
  try extract_lets
  with_reducible repeat' first | assumption | apply State.wr_keeps | apply ite_keeps | split | (dsimp +zetaDelta only)

end Sys2Proof.Machine
end

