-- ==== Sys2Proof/Laws/Keeps/Rule.lean ====
section
/-!
SUPPORT. Sys2Proof/Laws/Keeps/Rule.lean: what each operation of Machine/Rule.lean keeps (Keeps of Safety.lean).
-/
namespace Sys2Proof.Machine
set_option linter.all false

theorem State.overlay_keeps {s₀ : State} {s : State} (cs : List (Nat × Word)) (gs : List GroveRec) (h : Keeps s₀ s) : Keeps s₀ (State.overlay s cs gs) := by
  unfold State.overlay
  try extract_lets
  with_reducible repeat' first | assumption | apply State.wr_keeps | apply State.setReg_keeps | apply foldl_keeps | (intro _) | (refine Keeps.mk' ?_ rfl rfl; first | assumption | apply State.wr_keeps | apply State.setReg_keeps | apply foldl_keeps) | (dsimp +zetaDelta only)

theorem State.withSet_keeps {s₀ : State} {s : State} (q : Nat) (h : Keeps s₀ s) : Keeps s₀ (State.withSet s q) := by
  unfold State.withSet
  with_reducible repeat' first | assumption | apply State.wr_keeps | apply State.overlay_keeps

end Sys2Proof.Machine
end

