-- ==== Sys2Proof/Laws/Keeps/Xlt.lean ====
section
/-!
SUPPORT. Sys2Proof/Laws/Keeps/Xlt.lean: what each operation of Machine/Xlt.lean keeps (Keeps of Safety.lean).
-/
namespace Sys2Proof.Machine
set_option linter.all false

theorem State.ringError_keeps {s₀ : State} {s : State} (r : Nat) (code : Nat) (h : Keeps s₀ s) : Keeps s₀ (State.ringError s r code) := by
  unfold State.ringError
  with_reducible repeat' first | assumption | apply State.wr_keeps | apply State.reason_keeps | apply State.event_keeps | apply ite_keeps | split

theorem State.readDoorbell_keeps {s₀ : State} {s : State} (r : Nat) (h : Keeps s₀ s) : Keeps s₀ (State.readDoorbell s r) := by
  unfold State.readDoorbell
  try extract_lets
  with_reducible repeat' first | assumption | apply State.wr_keeps | apply State.setRing_keeps | apply State.xlate_keeps | apply State.send_keeps | apply ite_keeps | split | (refine Keeps.mk' ?_ rfl rfl; first | assumption | apply State.wr_keeps | apply State.setRing_keeps | apply State.xlate_keeps | apply State.send_keeps | apply ite_keeps | split) | (dsimp +zetaDelta only)

theorem State.stopWork_keeps {s₀ : State} {s : State} (w : Work) (outcome : Nat) (code : Nat) (h : Keeps s₀ s) : Keeps s₀ (State.stopWork s w outcome code) := by
  unfold State.stopWork
  with_reducible repeat' first | assumption | apply State.wr_keeps | apply State.stopJob_keeps | apply State.stopTask_keeps | apply State.setRing_keeps | apply State.ringError_keeps | split | (refine Keeps.mk' ?_ rfl rfl; first | assumption | apply State.wr_keeps | apply State.stopJob_keeps | apply State.stopTask_keeps | apply State.setRing_keeps | apply State.ringError_keeps | split)

theorem State.recStuck_keeps {s₀ : State} {s : State} (w : Work) (h : Keeps s₀ s) : Keeps s₀ (State.recStuck s w) := by
  unfold State.recStuck
  try extract_lets
  with_reducible repeat' first | assumption | apply State.wr_keeps | apply State.setFaulted_keeps | apply State.setRing_keeps | apply ite_keeps | split | (refine Keeps.mk' ?_ rfl rfl; first | assumption | apply State.wr_keeps | apply State.setFaulted_keeps | apply State.setRing_keeps | apply ite_keeps | split) | (dsimp +zetaDelta only)

theorem State.xltFault_keeps {s₀ : State} {s : State} (w : Work) (addr : Nat) (h : Keeps s₀ s) : Keeps s₀ (State.xltFault s w addr) := by
  unfold State.xltFault
  try extract_lets
  with_reducible repeat' first | assumption | apply State.wr_keeps | apply State.inc_keeps | apply State.stopWork_keeps | apply State.recStuck_keeps | apply State.setFaulted_keeps | apply State.fault_keeps | apply ite_keeps | split | (dsimp +zetaDelta only)

theorem execXltFault_keeps {s₀ : State} (w : Work) (addr : Nat) {s : State} (h : Keeps s₀ s) : KeepsOut s₀ (execXltFault w addr s) := by
  unfold execXltFault
  with_reducible repeat' first | apply KeepsOut.next | assumption | apply State.wr_keeps | apply State.xltFault_keeps

theorem State.leaveSlot_keeps {s₀ : State} {s : State} (d : Nat) (t : Nat) (h : Keeps s₀ s) : Keeps s₀ (State.leaveSlot s d t) := by
  unfold State.leaveSlot
  try extract_lets
  with_reducible repeat' first | assumption | apply State.wr_keeps | apply State.holdInHbm_keeps | apply State.emptyCur_keeps | apply State.refillFor_keeps | apply ite_keeps | split | (dsimp +zetaDelta only)

theorem State.parkSlot_keeps {s₀ : State} {s : State} (d : Nat) (t : Nat) (h : Keeps s₀ s) : Keeps s₀ (State.parkSlot s d t) := by
  unfold State.parkSlot
  try extract_lets
  with_reducible repeat' first | assumption | apply State.wr_keeps | apply State.leaveSlot_keeps | apply ite_keeps | split | (refine Keeps.mk' ?_ rfl rfl; first | assumption | apply State.wr_keeps | apply State.leaveSlot_keeps | apply ite_keeps | split) | (dsimp +zetaDelta only)

theorem State.park_keeps {s₀ : State} {s : State} (w : Work) (wm : Wm) (h : Keeps s₀ s) : Keeps s₀ (State.park s w wm) := by
  unfold State.park
  try extract_lets
  with_reducible repeat' first | assumption | apply State.wr_keeps | apply State.closeGroups_keeps | apply State.setJob_keeps | apply State.setTask_keeps | apply State.parkSlot_keeps | split | (refine Keeps.mk' ?_ rfl rfl; first | assumption | apply State.wr_keeps | apply State.closeGroups_keeps | apply State.setJob_keeps | apply State.setTask_keeps | apply State.parkSlot_keeps | split) | (dsimp +zetaDelta only)

theorem State.preempt_keeps {s₀ : State} {s : State} (d : Nat) (t : Nat) (h : Keeps s₀ s) : Keeps s₀ (State.preempt s d t) := by
  unfold State.preempt
  try extract_lets
  with_reducible repeat' first | assumption | apply State.wr_keeps | apply State.emptyCur_keeps | apply State.setTask_keeps | apply State.inc_keeps | apply State.joinHead_keeps | apply State.refillFor_keeps | apply ite_keeps | split | (refine Keeps.mk' ?_ rfl rfl; first | assumption | apply State.wr_keeps | apply State.emptyCur_keeps | apply State.setTask_keeps | apply State.inc_keeps | apply State.joinHead_keeps | apply State.refillFor_keeps | apply ite_keeps | split) | (dsimp +zetaDelta only)

theorem State.jobSafe_keeps {s₀ : State} {s : State} (r : Fin 4096) (i : Word) (wm : Wm) (h : Keeps s₀ s) : Keeps s₀ (State.jobSafe s r i wm) := by
  unfold State.jobSafe
  with_reducible repeat' first | assumption | apply State.wr_keeps | apply State.freePark_keeps | apply State.endJob_keeps | apply State.park_keeps | apply State.setJob_keeps | apply ite_keeps | split | (refine Keeps.mk' ?_ rfl rfl; first | assumption | apply State.wr_keeps | apply State.freePark_keeps | apply State.endJob_keeps | apply State.park_keeps | apply State.setJob_keeps | apply ite_keeps | split)

theorem State.taskSafe_keeps {s₀ : State} {s : State} (d : Nat) (t : Nat) (wm : Wm) (h : Keeps s₀ s) : Keeps s₀ (State.taskSafe s d t wm) := by
  unfold State.taskSafe
  try extract_lets
  with_reducible repeat' first | assumption | apply State.wr_keeps | apply State.endTask_keeps | apply State.park_keeps | apply State.setTask_keeps | apply State.preempt_keeps | apply ite_keeps | split | (refine Keeps.mk' ?_ rfl rfl; first | assumption | apply State.wr_keeps | apply State.endTask_keeps | apply State.park_keeps | apply State.setTask_keeps | apply State.preempt_keeps | apply ite_keeps | split) | (dsimp +zetaDelta only)

theorem execParkHoldExpired_keeps {s₀ : State} (w : Work) {s : State} (h : Keeps s₀ s) : KeepsOut s₀ (execParkHoldExpired w s) := by
  unfold execParkHoldExpired
  with_reducible repeat' first | apply KeepsOut.next | assumption | apply State.wr_keeps | apply State.when_keeps | apply State.leaveSlot_keeps | apply State.holdInHbm_keeps | (intro _) | split | (refine Keeps.mk' ?_ rfl rfl; first | assumption | apply State.wr_keeps | apply State.when_keeps | apply State.leaveSlot_keeps | apply State.holdInHbm_keeps | split)

theorem State.resume_keeps {s₀ : State} {s : State} (w : Work) (h : Keeps s₀ s) : Keeps s₀ (State.resume s w) := by
  unfold State.resume
  try extract_lets
  with_reducible repeat' first | assumption | apply State.wr_keeps | apply State.freePark_keeps | apply State.setJob_keeps | apply State.emptyCur_keeps | apply State.joinTail_keeps | apply State.refillFor_keeps | apply State.setFaulted_keeps | apply State.readDoorbell_keeps | apply State.spillDrain_keeps | apply State.drainHeld_keeps | apply State.closeBatch_keeps | apply State.writeBack_keeps | apply ite_keeps | split | (refine Keeps.mk' ?_ rfl rfl; first | assumption | apply State.wr_keeps | apply State.freePark_keeps | apply State.setJob_keeps | apply State.emptyCur_keeps | apply State.joinTail_keeps | apply State.refillFor_keeps | apply State.setFaulted_keeps | apply State.readDoorbell_keeps | apply State.spillDrain_keeps | apply State.drainHeld_keeps | apply State.closeBatch_keeps | apply State.writeBack_keeps | apply ite_keeps | split) | (dsimp +zetaDelta only)

theorem State.respond_keeps {s₀ : State} {s : State} (w : Work) (page : Nat) (c : PrCode) (h : Keeps s₀ s) : Keeps s₀ (State.respond s w page c) := by
  unfold State.respond
  try extract_lets
  with_reducible repeat' first | assumption | apply State.wr_keeps | apply State.dueStop_keeps | apply State.resume_keeps | apply State.xlate_keeps | apply State.freePark_keeps | apply State.stopWork_keeps | apply ite_keeps | split | (refine Keeps.mk' ?_ rfl rfl; first | assumption | apply State.wr_keeps | apply State.dueStop_keeps | apply State.resume_keeps | apply State.xlate_keeps | apply State.freePark_keeps | apply State.stopWork_keeps | apply ite_keeps | split) | (dsimp +zetaDelta only)

theorem State.pageResponse_keeps {s₀ : State} {s : State} (i : Nat) (c : PrCode) (h : Keeps s₀ s) : Keeps s₀ (State.pageResponse s i c) := by
  unfold State.pageResponse
  try extract_lets
  with_reducible repeat' first | assumption | apply State.wr_keeps | apply State.setPrg_keeps | apply State.showPri_keeps | apply State.inc_keeps | apply State.respond_keeps | apply State.retryWaiting_keeps | apply foldl_keeps | (intro _) | apply ite_keeps | split | (refine Keeps.mk' ?_ rfl rfl; first | assumption | apply State.wr_keeps | apply State.setPrg_keeps | apply State.showPri_keeps | apply State.inc_keeps | apply State.respond_keeps | apply State.retryWaiting_keeps | apply foldl_keeps | apply ite_keeps | split) | (dsimp +zetaDelta only)

theorem execPageResponse_keeps {s₀ : State} (prg : Fin 512) (code : PrCode) {s : State} (h : Keeps s₀ s) : KeepsOut s₀ (execPageResponse prg code s) := by
  unfold execPageResponse
  with_reducible repeat' first | apply KeepsOut.next | assumption | apply State.wr_keeps | apply State.pageResponse_keeps

theorem execPriTimeout_keeps {s₀ : State} (w : Work) {s : State} (h : Keeps s₀ s) : KeepsOut s₀ (execPriTimeout w s) := by
  unfold execPriTimeout
  with_reducible repeat' first | apply KeepsOut.next | assumption | apply State.wr_keeps | apply State.when_keeps | apply State.stopWork_keeps | (intro _)

theorem State.priEnd_keeps {s₀ : State} {s : State} (h : Keeps s₀ s) : Keeps s₀ (State.priEnd s) := by
  unfold State.priEnd
  try extract_lets
  with_reducible repeat' first | assumption | apply State.wr_keeps | apply State.send_keeps | apply State.freePark_keeps | apply State.stopWork_keeps | apply State.showPri_keeps | apply foldl_keeps | (intro _) | apply ite_keeps | split | (refine Keeps.mk' ?_ rfl rfl; first | assumption | apply State.wr_keeps | apply State.send_keeps | apply State.freePark_keeps | apply State.stopWork_keeps | apply State.showPri_keeps | apply foldl_keeps | apply ite_keeps | split) | (dsimp +zetaDelta only)

theorem State.priStop_keeps {s₀ : State} {s : State} (h : Keeps s₀ s) : Keeps s₀ (State.priStop s) := by
  unfold State.priStop
  with_reducible repeat' first | assumption | apply State.wr_keeps | apply State.priEnd_keeps

theorem execPriStopped_keeps {s₀ : State} {s : State} (h : Keeps s₀ s) : KeepsOut s₀ (execPriStopped s) := by
  unfold execPriStopped
  with_reducible repeat' first | apply KeepsOut.next | assumption | apply State.wr_keeps | apply State.priStop_keeps

theorem State.accessError_keeps {s₀ : State} {s : State} (w : Work) (h : Keeps s₀ s) : Keeps s₀ (State.accessError s w) := by
  unfold State.accessError
  with_reducible repeat' first | assumption | apply State.wr_keeps | apply State.stopWork_keeps | apply State.recStuck_keeps | apply ite_keeps | split

theorem execAccessError_keeps {s₀ : State} (w : Work) {s : State} (h : Keeps s₀ s) : KeepsOut s₀ (execAccessError w s) := by
  unfold execAccessError
  with_reducible repeat' first | apply KeepsOut.next | assumption | apply State.wr_keeps | apply State.accessError_keeps

theorem State.invalidate_keeps {s₀ : State} {s : State} (pasid : Option Nat) (addr : Nat) (log2 : Nat) (h : Keeps s₀ s) : Keeps s₀ (State.invalidate s pasid addr log2) := by
  unfold State.invalidate
  try extract_lets
  with_reducible repeat' first | assumption | apply State.wr_keeps | apply State.inc_keeps | (intro _) | (refine Keeps.mk' ?_ rfl rfl; first | assumption | apply State.wr_keeps | apply State.inc_keeps) | (dsimp +zetaDelta only)

theorem execAtsInvalidation_keeps {s₀ : State} (pasid : Option (Fin 1048576)) (addr : Nat) (log2size : Nat) {s : State} (h : Keeps s₀ s) : KeepsOut s₀ (execAtsInvalidation pasid addr log2size s) := by
  unfold execAtsInvalidation
  with_reducible repeat' first | apply KeepsOut.next | assumption | apply State.wr_keeps | apply State.invalidate_keeps

theorem execAtsInvalComplete_keeps {s₀ : State} (slow : Bool) {s : State} (h : Keeps s₀ s) : KeepsOut s₀ (execAtsInvalComplete slow s) := by
  unfold execAtsInvalComplete
  try extract_lets
  with_reducible repeat' first | apply KeepsOut.next | assumption | apply State.wr_keeps | apply State.when_keeps | apply State.send_keeps | apply State.inc_keeps | (intro _) | apply ite_keeps | split | (refine Keeps.mk' ?_ rfl rfl; first | assumption | apply State.wr_keeps | apply State.when_keeps | apply State.send_keeps | apply State.inc_keeps | apply ite_keeps | split) | (dsimp +zetaDelta only)

theorem State.xltFlush_keeps {s₀ : State} {s : State} (h : Keeps s₀ s) : Keeps s₀ (State.xltFlush s) := by
  unfold State.xltFlush
  with_reducible repeat' first | assumption | apply State.wr_keeps | (refine Keeps.mk' ?_ rfl rfl; first | assumption | apply State.wr_keeps)

theorem execXltFlush_keeps {s₀ : State} {s : State} (h : Keeps s₀ s) : KeepsOut s₀ (execXltFlush s) := by
  unfold execXltFlush
  with_reducible repeat' first | apply KeepsOut.next | assumption | apply State.wr_keeps | apply State.xltFlush_keeps

theorem State.descDeadline_keeps {s₀ : State} {s : State} (k : Nat) (h : Keeps s₀ s) : Keeps s₀ (State.descDeadline s k) := by
  unfold State.descDeadline
  try extract_lets
  with_reducible repeat' first | assumption | apply State.wr_keeps | apply State.dueStop_keeps | apply ite_keeps | split | (refine Keeps.mk' ?_ rfl rfl; first | assumption | apply State.wr_keeps | apply State.dueStop_keeps | apply ite_keeps | split) | (dsimp +zetaDelta only)

theorem execDescDeadline_keeps {s₀ : State} (r : Fin 4096) (idx : Word) {s : State} (h : Keeps s₀ s) : KeepsOut s₀ (execDescDeadline r idx s) := by
  unfold execDescDeadline
  with_reducible repeat' first | apply KeepsOut.next | assumption | apply State.wr_keeps | apply State.descDeadline_keeps

end Sys2Proof.Machine
end

