-- ==== Sys2Proof/Laws/Keeps/Audio.lean ====
section
/-!
SUPPORT. Sys2Proof/Laws/Keeps/Audio.lean: what each operation of Machine/Audio.lean keeps (Keeps of Safety.lean).
-/
namespace Sys2Proof.Machine
set_option linter.all false

theorem State.setAudStr_keeps {s₀ : State} {s : State} (a : Nat) (x : AudSt) (h : Keeps s₀ s) : Keeps s₀ (State.setAudStr s a x) := by
  unfold State.setAudStr
  with_reducible repeat' first | assumption | apply State.wr_keeps | (intro _) | (refine Keeps.mk' ?_ rfl rfl; first | assumption | apply State.wr_keeps)

theorem State.setAudStore_keeps {s₀ : State} {s : State} (k : Nat) (x : AudStore) (h : Keeps s₀ s) : Keeps s₀ (State.setAudStore s k x) := by
  unfold State.setAudStore
  try extract_lets
  with_reducible repeat' first | assumption | apply State.wr_keeps | apply State.fill_keeps | (intro _) | apply ite_keeps | split | (refine Keeps.mk' ?_ rfl rfl; first | assumption | apply State.wr_keeps | apply State.fill_keeps | apply ite_keeps | split) | (dsimp +zetaDelta only)

theorem State.portClock_keeps {s₀ : State} {s : State} (p : Nat) (h : Keeps s₀ s) : Keeps s₀ (State.portClock s p) := by
  unfold State.portClock
  try extract_lets
  with_reducible repeat' first | assumption | apply State.wr_keeps | (intro _) | apply ite_keeps | split | (refine Keeps.mk' ?_ rfl rfl; first | assumption | apply State.wr_keeps | apply ite_keeps | split) | (dsimp +zetaDelta only)

theorem State.countSlip_keeps {s₀ : State} {s : State} (k : Nat) (h : Keeps s₀ s) : Keeps s₀ (State.countSlip s k) := by
  unfold State.countSlip
  with_reducible repeat' first | assumption | apply State.wr_keeps | apply State.inc_keeps | apply State.setAudStr_keeps | apply ite_keeps | split | (refine Keeps.mk' ?_ rfl rfl; first | assumption | apply State.wr_keeps | apply State.inc_keeps | apply State.setAudStr_keeps | apply ite_keeps | split)

theorem State.askSlip_keeps {s₀ : State} {s : State} (k : Nat) (dir : Int) (m : Nat) (a : Nat) (h : Keeps s₀ s) : Keeps s₀ (State.askSlip s k dir m a) := by
  unfold State.askSlip
  with_reducible repeat' first | assumption | apply State.wr_keeps | apply State.setAudStore_keeps | (refine Keeps.mk' ?_ rfl rfl; first | assumption | apply State.wr_keeps | apply State.setAudStore_keeps)

theorem State.setSlips_keeps {s₀ : State} {s : State} (n : Nat) (dir : Int) (a : Nat) (h : Keeps s₀ s) : Keeps s₀ (State.setSlips s n dir a) := by
  unfold State.setSlips
  try extract_lets
  with_reducible repeat' first | assumption | apply State.wr_keeps | apply State.askSlip_keeps | apply State.inc_keeps | apply foldl_keeps | (intro _) | apply ite_keeps | split | (refine Keeps.mk' ?_ rfl rfl; first | assumption | apply State.wr_keeps | apply State.askSlip_keeps | apply State.inc_keeps | apply foldl_keeps | apply ite_keeps | split) | (dsimp +zetaDelta only)

theorem State.checkFill_keeps {s₀ : State} {s : State} (k : Nat) (h : Keeps s₀ s) : Keeps s₀ (State.checkFill s k) := by
  unfold State.checkFill
  try extract_lets
  with_reducible repeat' first | assumption | apply State.wr_keeps | apply State.fill_keeps | apply State.askSlip_keeps | apply State.inc_keeps | apply State.event_keeps | apply State.setSlips_keeps | apply ite_keeps | split | (refine Keeps.mk' ?_ rfl rfl; first | assumption | apply State.wr_keeps | apply State.fill_keeps | apply State.askSlip_keeps | apply State.inc_keeps | apply State.event_keeps | apply State.setSlips_keeps | apply ite_keeps | split) | (dsimp +zetaDelta only)

theorem State.storePop_keeps {s₀ : State} {s : State} (k : Nat) (n : Nat) (h : Keeps s₀ s) : Keeps s₀ (State.storePop s k n).1 := by
  unfold State.storePop
  try extract_lets
  with_reducible repeat' first | assumption | apply State.wr_keeps | apply State.fill_keeps | apply State.setAudStore_keeps | apply State.tick_keeps | apply ite_keeps | split | (refine Keeps.mk' ?_ rfl rfl; first | assumption | apply State.wr_keeps | apply State.fill_keeps | apply State.setAudStore_keeps | apply State.tick_keeps | apply ite_keeps | split) | (dsimp +zetaDelta only)

theorem State.storeNext_keeps {s₀ : State} {s : State} (k : Nat) (n : Nat) (m : Nat) (prev : Option (List AudSamp)) (h : Keeps s₀ s) : Keeps s₀ (State.storeNext s k n m prev).1 := by
  unfold State.storeNext
  try extract_lets
  with_reducible repeat' first | assumption | apply State.wr_keeps | apply State.storePop_keeps | apply State.countSlip_keeps | apply State.setAudStore_keeps | apply State.checkFill_keeps | refine Keeps.fst ‹_ = (_, _)› ?_ | apply ite_keeps | split | (refine Keeps.mk' ?_ rfl rfl; first | assumption | apply State.wr_keeps | apply State.storePop_keeps | apply State.countSlip_keeps | apply State.setAudStore_keeps | apply State.checkFill_keeps | apply ite_keeps | split) | (dsimp +zetaDelta only)

theorem State.storeTake_keeps {s₀ : State} {s : State} (k : Nat) (n : Nat) (m : Nat) (h : Keeps s₀ s) : Keeps s₀ (State.storeTake s k n m).1 := by
  unfold State.storeTake
  with_reducible repeat' first | assumption | apply State.wr_keeps | apply State.storeNext_keeps | refine Keeps.fst ‹_ = (_, _)› ?_ | apply ite_keeps | split | (refine Keeps.mk' ?_ rfl rfl; first | assumption | apply State.wr_keeps | apply State.storeNext_keeps | apply ite_keeps | split)

theorem State.storeStill_keeps {s₀ : State} {s : State} (k : Nat) (n : Nat) (m : Nat) (h : Keeps s₀ s) : Keeps s₀ (State.storeStill s k n m) := by
  unfold State.storeStill
  try extract_lets
  with_reducible repeat' first | assumption | apply State.wr_keeps | apply State.storePop_keeps | apply State.setAudStore_keeps | apply State.countSlip_keeps | refine Keeps.fst ‹_ = (_, _)› ?_ | apply ite_keeps | split | (refine Keeps.mk' ?_ rfl rfl; first | assumption | apply State.wr_keeps | apply State.storePop_keeps | apply State.setAudStore_keeps | apply State.countSlip_keeps | apply ite_keeps | split) | (dsimp +zetaDelta only)

theorem State.storeAdd_keeps {s₀ : State} {s : State} (k : Nat) (m : Nat) (f : List AudSamp) (h : Keeps s₀ s) : Keeps s₀ (State.storeAdd s k m f) := by
  unfold State.storeAdd
  try extract_lets
  with_reducible repeat' first | assumption | apply State.wr_keeps | apply State.countSlip_keeps | apply State.setAudStore_keeps | apply State.fill_keeps | apply State.checkFill_keeps | apply ite_keeps | split | (refine Keeps.mk' ?_ rfl rfl; first | assumption | apply State.wr_keeps | apply State.countSlip_keeps | apply State.setAudStore_keeps | apply State.fill_keeps | apply State.checkFill_keeps | apply ite_keeps | split) | (dsimp +zetaDelta only)

theorem State.storePut_keeps {s₀ : State} {s : State} (k : Nat) (m : Nat) (slots : List Nat) (fr : List AudSamp) (h : Keeps s₀ s) : Keeps s₀ (State.storePut s k m slots fr) := by
  unfold State.storePut
  try extract_lets
  with_reducible repeat' first | assumption | apply State.wr_keeps | apply State.setAudStore_keeps | apply State.storeAdd_keeps | (intro _) | apply ite_keeps | split | (refine Keeps.mk' ?_ rfl rfl; first | assumption | apply State.wr_keeps | apply State.setAudStore_keeps | apply State.storeAdd_keeps | apply ite_keeps | split) | (dsimp +zetaDelta only)

theorem State.audPageReq_keeps {s₀ : State} {s : State} (a : Nat) (addr : Nat) (h : Keeps s₀ s) : Keeps s₀ (State.audPageReq s a addr) := by
  unfold State.audPageReq
  try extract_lets
  with_reducible repeat' first | assumption | apply State.wr_keeps | apply State.inc_keeps | apply State.setPrg_keeps | apply State.showPri_keeps | apply State.sendPrg_keeps | apply ite_keeps | split | (refine Keeps.mk' ?_ rfl rfl; first | assumption | apply State.wr_keeps | apply State.inc_keeps | apply State.setPrg_keeps | apply State.showPri_keeps | apply State.sendPrg_keeps | apply ite_keeps | split) | (dsimp +zetaDelta only)

theorem State.audWrite_keeps {s₀ : State} {s : State} (a : Nat) (j : Nat) (fr : List AudSamp) (h : Keeps s₀ s) : Keeps s₀ (State.audWrite s a j fr) := by
  unfold State.audWrite
  try extract_lets
  with_reducible repeat' first | assumption | apply State.wr_keeps | apply State.xlate_keeps | apply State.hostWrite_keeps | apply State.setAudStr_keeps | (intro _) | apply ite_keeps | split | (refine Keeps.mk' ?_ rfl rfl; first | assumption | apply State.wr_keeps | apply State.xlate_keeps | apply State.hostWrite_keeps | apply State.setAudStr_keeps | apply ite_keeps | split) | (dsimp +zetaDelta only)

theorem State.audRelease_keeps {s₀ s : State} (a n : Nat) (h : Keeps s₀ s) : Keeps s₀ (s.audRelease a n) := by
  induction n generalizing s with
  | zero => exact h
  | succ n ih =>
    unfold State.audRelease
    try extract_lets
    repeat' first | with_reducible assumption | with_reducible apply ih | with_reducible apply State.setAudStr_keeps | with_reducible apply State.audWrite_keeps | with_reducible apply State.tick_keeps | with_reducible apply ite_keeps | split

theorem State.inFrame_keeps {s₀ : State} {s : State} (a : Nat) (h : Keeps s₀ s) : Keeps s₀ (State.inFrame s a).1 := by
  unfold State.inFrame
  try extract_lets
  with_reducible repeat' first | assumption | apply State.wr_keeps | apply State.setAudStr_keeps | apply State.inc_keeps | apply State.tick_keeps | (intro _) | apply ite_keeps | split | (refine Keeps.mk' ?_ rfl rfl; first | assumption | apply State.wr_keeps | apply State.setAudStr_keeps | apply State.inc_keeps | apply State.tick_keeps | apply ite_keeps | split) | (dsimp +zetaDelta only)

theorem State.inDue_keeps {s₀ : State} {s : State} (a : Nat) (fault : Bool) (h : Keeps s₀ s) : Keeps s₀ (State.inDue s a fault) := by
  unfold State.inDue
  try extract_lets
  with_reducible repeat' first | assumption | apply State.wr_keeps | apply State.audRelease_keeps | apply State.inFrame_keeps | apply State.setAudStr_keeps | apply State.inc_keeps | apply State.audPageReq_keeps | apply State.audWrite_keeps | refine Keeps.fst ‹_ = (_, _)› ?_ | apply ite_keeps | split | (refine Keeps.mk' ?_ rfl rfl; first | assumption | apply State.wr_keeps | apply State.audRelease_keeps | apply State.inFrame_keeps | apply State.setAudStr_keeps | apply State.inc_keeps | apply State.audPageReq_keeps | apply State.audWrite_keeps | apply ite_keeps | split) | (dsimp +zetaDelta only)

theorem State.inPut_keeps {s₀ : State} {s : State} (a : Nat) (m : Nat) (fr : List AudSamp) (h : Keeps s₀ s) : Keeps s₀ (State.inPut s a m fr) := by
  unfold State.inPut
  try extract_lets
  with_reducible repeat' first | assumption | apply State.wr_keeps | apply State.setAudStr_keeps | (intro _) | (refine Keeps.mk' ?_ rfl rfl; first | assumption | apply State.wr_keeps | apply State.setAudStr_keeps) | (dsimp +zetaDelta only)

theorem State.pdmIn_keeps {s₀ : State} {s : State} (a : Nat) (f : List AudSamp) (h : Keeps s₀ s) : Keeps s₀ (State.pdmIn s a f).1 := by
  unfold State.pdmIn
  try extract_lets
  with_reducible repeat' first | assumption | apply State.wr_keeps | apply State.setAudStr_keeps | (intro _) | (refine Keeps.mk' ?_ rfl rfl; first | assumption | apply State.wr_keeps | apply State.setAudStr_keeps) | (dsimp +zetaDelta only)

theorem State.inSource_keeps {s₀ : State} {s : State} (a : Nat) (m : Nat) (x : AudIn) (h : Keeps s₀ s) : Keeps s₀ (State.inSource s a m x) := by
  unfold State.inSource
  try extract_lets
  with_reducible repeat' first | assumption | apply State.wr_keeps | apply State.storeStill_keeps | apply State.storeTake_keeps | apply State.inPut_keeps | apply State.pdmIn_keeps | apply State.setAudStore_keeps | refine Keeps.fst ‹_ = (_, _)› ?_ | apply ite_keeps | split | (refine Keeps.mk' ?_ rfl rfl; first | assumption | apply State.wr_keeps | apply State.storeStill_keeps | apply State.storeTake_keeps | apply State.inPut_keeps | apply State.pdmIn_keeps | apply State.setAudStore_keeps | apply ite_keeps | split) | (dsimp +zetaDelta only)

theorem State.outFetch_keeps {s₀ : State} {s : State} (a : Nat) (fault : Bool) (bs : List Byte) (side : List Byte) (h : Keeps s₀ s) : Keeps s₀ (State.outFetch s a fault bs side) := by
  unfold State.outFetch
  try extract_lets
  with_reducible repeat' first | assumption | apply State.wr_keeps | apply State.inc_keeps | apply State.tick_keeps | apply State.audPageReq_keeps | apply State.xlate_keeps | apply State.setAudStr_keeps | (intro _) | apply ite_keeps | split | (refine Keeps.mk' ?_ rfl rfl; first | assumption | apply State.wr_keeps | apply State.inc_keeps | apply State.tick_keeps | apply State.audPageReq_keeps | apply State.xlate_keeps | apply State.setAudStr_keeps | apply ite_keeps | split) | (dsimp +zetaDelta only)

theorem State.outFetches_keeps {s₀ s : State} (a : Nat) (fault : Bool) (n : Nat) (data side : List Byte) (h : Keeps s₀ s) : Keeps s₀ (s.outFetches a fault n data side) := by
  induction n generalizing s data side with
  | zero => exact h
  | succ n ih =>
    unfold State.outFetches
    exact ih _ _ (State.outFetch_keeps _ _ _ _ h)

theorem State.outPresent_keeps {s₀ : State} {s : State} (a : Nat) (m : Nat) (h : Keeps s₀ s) : Keeps s₀ (State.outPresent s a m) := by
  unfold State.outPresent
  try extract_lets
  with_reducible repeat' first | assumption | apply State.wr_keeps | apply State.setAudStr_keeps | apply State.storePut_keeps | apply State.send_keeps | split | (refine Keeps.mk' ?_ rfl rfl; first | assumption | apply State.wr_keeps | apply State.setAudStr_keeps | apply State.storePut_keeps | apply State.send_keeps | split) | (dsimp +zetaDelta only)

theorem State.audSample_keeps {s₀ s : State} (a : Nat) (x : AudIn) (h : Keeps s₀ s) : Keeps s₀ (s.audSample a x) := by
  unfold State.audSample
  extract_lets m tl n t u q
  have g0 := State.wr_keeps (F.AUD_STRa_STATUS_STATE a) 2 h
  refine ite_keeps h (State.setAudStr_keeps _ _ ?_)
  have gw : Keeps s₀ q := ite_keeps (State.outPresent_keeps _ _ (State.outFetches_keeps _ _ _ _ _ g0))
    (ite_keeps (State.inDue_keeps _ _ (State.inSource_keeps _ _ _ g0)) (State.inSource_keeps _ _ _ g0))
  clear_value q
  exact ite_keeps (State.portClock_keeps _ gw) gw

theorem execAudioSample_keeps {s₀ : State} (a : Fin 256) (x : AudIn) {s : State} (h : Keeps s₀ s) : KeepsOut s₀ (execAudioSample a x s) := by
  unfold execAudioSample
  with_reducible repeat' first | apply KeepsOut.next | assumption | apply State.wr_keeps | apply State.audSample_keeps

theorem State.audPortFrame_keeps {s₀ : State} {s : State} (p : Nat) (out : Bool) (fr : List AudSamp) (ppm : Int) (h : Keeps s₀ s) : Keeps s₀ (State.audPortFrame s p out fr ppm) := by
  unfold State.audPortFrame
  try extract_lets
  with_reducible repeat' first | assumption | apply State.wr_keeps | apply State.wrS_keeps | apply State.fill_keeps | apply State.storePop_keeps | apply State.send_keeps | apply State.checkFill_keeps | apply State.add_keeps | apply State.setAudStore_keeps | refine Keeps.fst ‹_ = (_, _)› ?_ | (intro _) | apply ite_keeps | split | (refine Keeps.mk' ?_ rfl rfl; first | assumption | apply State.wr_keeps | apply State.wrS_keeps | apply State.fill_keeps | apply State.storePop_keeps | apply State.send_keeps | apply State.checkFill_keeps | apply State.add_keeps | apply State.setAudStore_keeps | apply ite_keeps | split) | (dsimp +zetaDelta only)

theorem execAudioPortFrame_keeps {s₀ : State} (p : Fin 16) (out : Bool) (frame : List AudSamp) (ppm : Int) {s : State} (h : Keeps s₀ s) : KeepsOut s₀ (execAudioPortFrame p out frame ppm s) := by
  unfold execAudioPortFrame
  with_reducible repeat' first | apply KeepsOut.next | assumption | apply State.wr_keeps | apply State.audPortFrame_keeps

theorem State.audHostWrite_keeps {s₀ : State} {s : State} (a : Nat) (v : Word) (h : Keeps s₀ s) : Keeps s₀ (State.audHostWrite s a v) := by
  unfold State.audHostWrite
  try extract_lets
  with_reducible repeat' first | assumption | apply State.wr_keeps | apply State.setReg_keeps | apply State.audRelease_keeps | apply ite_keeps | split | (dsimp +zetaDelta only)

theorem execAudHostWrite_keeps {s₀ : State} (a : Fin 256) (v : Word) {s : State} (h : Keeps s₀ s) : KeepsOut s₀ (execAudHostWrite a v s) := by
  unfold execAudHostWrite
  with_reducible repeat' first | apply KeepsOut.next | assumption | apply State.wr_keeps | apply State.audHostWrite_keeps

theorem State.m0Read_keeps {s₀ : State} {s : State} (a : Nat) (h : Keeps s₀ s) : Keeps s₀ (State.m0Read s a) := by
  unfold State.m0Read
  try extract_lets
  with_reducible repeat' first | assumption | apply State.wr_keeps | apply State.setReg_keeps | (refine Keeps.mk' ?_ rfl rfl; first | assumption | apply State.wr_keeps | apply State.setReg_keeps) | (dsimp +zetaDelta only)

theorem execAudM0Read_keeps {s₀ : State} (a : Fin 256) {s : State} (h : Keeps s₀ s) : KeepsOut s₀ (execAudM0Read a s) := by
  unfold execAudM0Read
  with_reducible repeat' first | apply KeepsOut.next | assumption | apply State.wr_keeps | apply State.m0Read_keeps

theorem execAudClockLoss_keeps {s₀ : State} (p : Fin 16) {s : State} (h : Keeps s₀ s) : KeepsOut s₀ (execAudClockLoss p s) := by
  unfold execAudClockLoss
  with_reducible repeat' first | apply KeepsOut.next | assumption | apply State.wr_keeps | apply State.when_keeps | apply State.inc_keeps | (intro _)

theorem State.audRtp_keeps {s₀ : State} {s : State} (a : Nat) (ts : Nat) (fr : List AudSamp) (h : Keeps s₀ s) : Keeps s₀ (State.audRtp s a ts fr) := by
  unfold State.audRtp
  try extract_lets
  with_reducible repeat' first | assumption | apply State.wr_keeps | apply State.inc_keeps | apply State.inPut_keeps | apply ite_keeps | split | (dsimp +zetaDelta only)

theorem State.audSdi_keeps {s₀ : State} {s : State} (a : Nat) (fr : List AudSamp) (h : Keeps s₀ s) : Keeps s₀ (State.audSdi s a fr) := by
  unfold State.audSdi
  try extract_lets
  with_reducible repeat' first | assumption | apply State.wr_keeps | apply State.fill_keeps | apply State.setAudStore_keeps | apply State.checkFill_keeps | apply ite_keeps | split | (refine Keeps.mk' ?_ rfl rfl; first | assumption | apply State.wr_keeps | apply State.fill_keeps | apply State.setAudStore_keeps | apply State.checkFill_keeps | apply ite_keeps | split) | (dsimp +zetaDelta only)

theorem State.showMembers_keeps {s₀ : State} {s : State} (h : Keeps s₀ s) : Keeps s₀ (State.showMembers s) := by
  unfold State.showMembers
  with_reducible repeat' first | assumption | apply State.wr_keeps | apply State.forRange_keeps | (intro _)

theorem State.audEnable_keeps {s₀ : State} {s : State} (a : Nat) (en : Bool) (l : Nat) (stamp : Nat) (h : Keeps s₀ s) : Keeps s₀ (State.audEnable s a en l stamp) := by
  unfold State.audEnable
  try extract_lets
  with_reducible repeat' first | assumption | apply State.wr_keeps | apply State.setAudStore_keeps | apply State.setAudStr_keeps | apply State.setReg_keeps | apply ite_keeps | split | (refine Keeps.mk' ?_ rfl rfl; first | assumption | apply State.wr_keeps | apply State.setAudStore_keeps | apply State.setAudStr_keeps | apply State.setReg_keeps | apply ite_keeps | split) | (dsimp +zetaDelta only)

theorem State.audPortEnable_keeps {s₀ : State} {s : State} (p : Nat) (h : Keeps s₀ s) : Keeps s₀ (State.audPortEnable s p) := by
  unfold State.audPortEnable
  with_reducible repeat' first | assumption | apply State.wr_keeps | apply State.setAudStore_keeps

end Sys2Proof.Machine
end

