-- ==== Sys2Proof/Laws/Keeps/Port.lean ====
section
/-!
SUPPORT. Sys2Proof/Laws/Keeps/Port.lean: what each operation of Machine/Port.lean keeps (Keeps of Safety.lean).
-/
namespace Sys2Proof.Machine
set_option linter.all false

theorem State.setGate_keeps {s₀ : State} {s : State} (p : Nat) (g : GateSt) (h : Keeps s₀ s) : Keeps s₀ (State.setGate s p g) := by
  unfold State.setGate
  with_reducible repeat' first | assumption | apply State.wr_keeps | (intro _) | (refine Keeps.mk' ?_ rfl rfl; first | assumption | apply State.wr_keeps)

theorem State.setClassQ_keeps {s₀ : State} {s : State} (q : Nat) (x : ClassQ) (h : Keeps s₀ s) : Keeps s₀ (State.setClassQ s q x) := by
  unfold State.setClassQ
  with_reducible repeat' first | assumption | apply State.wr_keeps | (intro _) | (refine Keeps.mk' ?_ rfl rfl; first | assumption | apply State.wr_keeps)

theorem State.setSending_keeps {s₀ : State} {s : State} (p : Nat) (f : Option EthFrame) (h : Keeps s₀ s) : Keeps s₀ (State.setSending s p f) := by
  unfold State.setSending
  with_reducible repeat' first | assumption | apply State.wr_keeps | (intro _) | (refine Keeps.mk' ?_ rfl rfl; first | assumption | apply State.wr_keeps)

theorem State.addEntry_keeps {s₀ : State} {s : State} (slot : Nat) (what : Nat) (h : Keeps s₀ s) : Keeps s₀ (State.addEntry s slot what) := by
  unfold State.addEntry
  try extract_lets
  with_reducible repeat' first | assumption | apply State.wr_keeps | (refine Keeps.mk' ?_ rfl rfl; first | assumption | apply State.wr_keeps) | (dsimp +zetaDelta only)

theorem State.queueEntry_keeps {s₀ : State} {s : State} (q : Nat) (h : Keeps s₀ s) : Keeps s₀ (State.queueEntry s q) := by
  unfold State.queueEntry
  try extract_lets
  with_reducible repeat' first | assumption | apply State.wr_keeps | apply State.addEntry_keeps | (intro _) | apply ite_keeps | split | (refine Keeps.mk' ?_ rfl rfl; first | assumption | apply State.wr_keeps | apply State.addEntry_keeps | apply ite_keeps | split) | (dsimp +zetaDelta only)

theorem State.pickClass_keeps {s₀ s : State} (p c n : Nat) (h : Keeps s₀ s) : Keeps s₀ (s.pickClass p c n).1 := by
  induction n generalizing s with
  | zero => exact h
  | succ n ih =>
    have hf : ∀ (u : State) (b : Bool), Keeps s₀ u → Keeps s₀ (u, b).1 := fun u b hu => hu
    have hi : ∀ (c : Prop) [Decidable c] (x y : State × Bool), Keeps s₀ x.1 → Keeps s₀ y.1 → Keeps s₀ (if c then x else y).1 := by
      intro c _ x y hx hy; split
      · exact hx
      · exact hy
    unfold State.pickClass
    extract_lets q x
    split
    · exact h
    · next f fs _ =>
      have g := fun y f m => State.send_keeps (m := m) (State.stampTx_keeps p (State.setSending_keeps p f (State.setClassQ_keeps q y h)))
      refine hi _ _ _ (ih (State.inc_keeps _ (State.setClassQ_keeps _ _ h))) (hi _ _ _ h (hi _ _ _ (hf _ _ ?_) (hf _ _ ?_)))
      · exact ite_keeps h (State.inc_keeps _ (State.setClassQ_keeps _ _ h))
      · exact ite_keeps (State.queueEntry_keeps _ (g _ _ _)) (g _ _ _)

theorem State.pickFrom_keeps {s₀ s : State} (p n : Nat) (h : Keeps s₀ s) : Keeps s₀ (s.pickFrom p n) := by
  induction n generalizing s with
  | zero => exact h
  | succ c ih =>
    have g := State.pickClass_keeps p c 4096 h
    unfold State.pickFrom
    split
    · next e => rw [e] at g; exact g
    · next e => rw [e] at g; exact ih g

theorem State.portPick_keeps {s₀ : State} {s : State} (p : Nat) (h : Keeps s₀ s) : Keeps s₀ (State.portPick s p) := by
  unfold State.portPick
  with_reducible repeat' first | assumption | apply State.wr_keeps | apply State.pickFrom_keeps | apply ite_keeps | split

theorem State.enqueue_keeps {s₀ : State} {s : State} (p : Nat) (c : Nat) (f : EthFrame) (h : Keeps s₀ s) : Keeps s₀ (State.enqueue s p c f) := by
  unfold State.enqueue
  try extract_lets
  with_reducible repeat' first | assumption | apply State.wr_keeps | apply State.inc_keeps | apply State.setClassQ_keeps | apply State.portPick_keeps | (intro _) | apply ite_keeps | split | (refine Keeps.mk' ?_ rfl rfl; first | assumption | apply State.wr_keeps | apply State.inc_keeps | apply State.setClassQ_keeps | apply State.portPick_keeps | apply ite_keeps | split) | (dsimp +zetaDelta only)

theorem State.setGates_keeps {s₀ : State} {s : State} (p : Nat) (v : Nat) (h : Keeps s₀ s) : Keeps s₀ (State.setGates s p v) := by
  unfold State.setGates
  with_reducible repeat' first | assumption | apply State.wr_keeps | apply State.portPick_keeps

theorem State.dropPending_keeps {s₀ : State} {s : State} (p : Nat) (h : Keeps s₀ s) : Keeps s₀ (State.dropPending s p) := by
  unfold State.dropPending
  with_reducible repeat' first | assumption | apply State.wr_keeps | apply State.setGate_keeps | (refine Keeps.mk' ?_ rfl rfl; first | assumption | apply State.wr_keeps | apply State.setGate_keeps)

theorem State.openGates_keeps {s₀ : State} {s : State} (p : Nat) (h : Keeps s₀ s) : Keeps s₀ (State.openGates s p) := by
  unfold State.openGates
  with_reducible repeat' first | assumption | apply State.wr_keeps | apply State.setGate_keeps | apply State.setGates_keeps | (refine Keeps.mk' ?_ rfl rfl; first | assumption | apply State.wr_keeps | apply State.setGate_keeps | apply State.setGates_keeps)

theorem State.restartGates_keeps {s₀ : State} {s : State} (p : Nat) (h : Keeps s₀ s) : Keeps s₀ (State.restartGates s p) := by
  unfold State.restartGates
  with_reducible repeat' first | assumption | apply State.wr_keeps | apply State.setGate_keeps | apply ite_keeps | split | (refine Keeps.mk' ?_ rfl rfl; first | assumption | apply State.wr_keeps | apply State.setGate_keeps | apply ite_keeps | split)

theorem State.gatesUnset_keeps {s₀ : State} {s : State} (h : Keeps s₀ s) : Keeps s₀ (State.gatesUnset s) := by
  unfold State.gatesUnset
  with_reducible repeat' first | assumption | apply State.wr_keeps | apply State.forRange_keeps | apply State.dropPending_keeps | apply State.openGates_keeps | (intro _)

theorem State.gatesSet_keeps {s₀ : State} {s : State} (h : Keeps s₀ s) : Keeps s₀ (State.gatesSet s) := by
  unfold State.gatesSet
  with_reducible repeat' first | assumption | apply State.wr_keeps | apply State.forRange_keeps | apply State.when_keeps | apply State.restartGates_keeps | (intro _)

theorem State.takeChange_keeps {s₀ : State} {s : State} (p : Nat) (h : Keeps s₀ s) : Keeps s₀ (State.takeChange s p) := by
  unfold State.takeChange
  try extract_lets
  with_reducible repeat' first | assumption | apply State.wr_keeps | apply State.setGate_keeps | (intro _) | (refine Keeps.mk' ?_ rfl rfl; first | assumption | apply State.wr_keeps | apply State.setGate_keeps) | (dsimp +zetaDelta only)

theorem State.gateCtlWrite_keeps {s₀ : State} {s : State} (p : Nat) (v : Word) (h : Keeps s₀ s) : Keeps s₀ (State.gateCtlWrite s p v) := by
  unfold State.gateCtlWrite
  try extract_lets
  with_reducible repeat' first | assumption | apply State.wr_keeps | apply State.refuse_keeps | apply State.setReg_keeps | apply State.dropPending_keeps | apply State.openGates_keeps | apply State.when_keeps | apply State.restartGates_keeps | apply State.takeChange_keeps | (intro _) | apply ite_keeps | split | (dsimp +zetaDelta only)

theorem State.applyChange_keeps {s₀ : State} {s : State} (p : Nat) (h : Keeps s₀ s) : Keeps s₀ (State.applyChange s p) := by
  unfold State.applyChange
  try extract_lets
  with_reducible repeat' first | assumption | apply State.wr_keeps | apply State.setReg_keeps | apply State.setGate_keeps | apply State.setGates_keeps | apply foldl_keeps | (intro _) | (refine Keeps.mk' ?_ rfl rfl; first | assumption | apply State.wr_keeps | apply State.setReg_keeps | apply State.setGate_keeps | apply State.setGates_keeps | apply foldl_keeps) | (dsimp +zetaDelta only)

theorem State.nextInterval_keeps {s₀ : State} {s : State} (p : Nat) (h : Keeps s₀ s) : Keeps s₀ (State.nextInterval s p) := by
  unfold State.nextInterval
  try extract_lets
  with_reducible repeat' first | assumption | apply State.wr_keeps | apply State.setGate_keeps | apply State.setGates_keeps | apply ite_keeps | split | (refine Keeps.mk' ?_ rfl rfl; first | assumption | apply State.wr_keeps | apply State.setGate_keeps | apply State.setGates_keeps | apply ite_keeps | split) | (dsimp +zetaDelta only)

theorem execPortFrameDone_keeps {s₀ : State} (p : Fin 96) {s : State} (h : Keeps s₀ s) : KeepsOut s₀ (execPortFrameDone p s) := by
  unfold execPortFrameDone
  with_reducible repeat' first | apply KeepsOut.next | assumption | apply State.wr_keeps | apply State.when_keeps | apply State.setSending_keeps | apply State.portPick_keeps | (intro _)

theorem State.refillTokens_keeps {s₀ : State} {s : State} (q : Nat) (h : Keeps s₀ s) : Keeps s₀ (State.refillTokens s q) := by
  unfold State.refillTokens
  try extract_lets
  with_reducible repeat' first | assumption | apply State.wr_keeps | apply State.setClassQ_keeps | apply State.queueEntry_keeps | apply State.portPick_keeps | apply ite_keeps | split | (refine Keeps.mk' ?_ rfl rfl; first | assumption | apply State.wr_keeps | apply State.setClassQ_keeps | apply State.queueEntry_keeps | apply State.portPick_keeps | apply ite_keeps | split) | (dsimp +zetaDelta only)

theorem execShaperRefill_keeps {s₀ : State} (q : Fin 768) {s : State} (h : Keeps s₀ s) : KeepsOut s₀ (execShaperRefill q s) := by
  unfold execShaperRefill
  with_reducible repeat' first | apply KeepsOut.next | assumption | apply State.wr_keeps | apply State.refillTokens_keeps

theorem State.shapeWrite_keeps {s₀ : State} {s : State} (q : Nat) (v : Word) (h : Keeps s₀ s) : Keeps s₀ (State.shapeWrite s q v) := by
  unfold State.shapeWrite
  try extract_lets
  with_reducible repeat' first | assumption | apply State.wr_keeps | apply State.refuse_keeps | apply State.setClassQ_keeps | apply State.setReg_keeps | apply ite_keeps | split | (refine Keeps.mk' ?_ rfl rfl; first | assumption | apply State.wr_keeps | apply State.refuse_keeps | apply State.setClassQ_keeps | apply State.setReg_keeps | apply ite_keeps | split) | (dsimp +zetaDelta only)

theorem execShaperWrite_keeps {s₀ : State} (q : Fin 768) (v : Word) {s : State} (h : Keeps s₀ s) : KeepsOut s₀ (execShaperWrite q v s) := by
  unfold execShaperWrite
  with_reducible repeat' first | apply KeepsOut.next | assumption | apply State.wr_keeps | apply State.shapeWrite_keeps

theorem execGateIntervalEnd_keeps {s₀ : State} (p : Fin 96) {s : State} (h : Keeps s₀ s) : KeepsOut s₀ (execGateIntervalEnd p s) := by
  unfold execGateIntervalEnd
  with_reducible repeat' first | apply KeepsOut.next | assumption | apply State.wr_keeps | apply State.nextInterval_keeps

theorem execGateChange_keeps {s₀ : State} (p : Fin 96) (en : Bool) {s : State} (h : Keeps s₀ s) : KeepsOut s₀ (execGateChange p en s) := by
  unfold execGateChange
  with_reducible repeat' first | apply KeepsOut.next | assumption | apply State.wr_keeps | apply State.gateCtlWrite_keeps

theorem execGateChangeTime_keeps {s₀ : State} (p : Fin 96) {s : State} (h : Keeps s₀ s) : KeepsOut s₀ (execGateChangeTime p s) := by
  unfold execGateChangeTime
  with_reducible repeat' first | apply KeepsOut.next | assumption | apply State.wr_keeps | apply State.when_keeps | apply State.applyChange_keeps | (intro _)

theorem execGateEnWrite_keeps {s₀ : State} (p : Fin 96) (en : Bool) {s : State} (h : Keeps s₀ s) : KeepsOut s₀ (execGateEnWrite p en s) := by
  unfold execGateEnWrite
  with_reducible repeat' first | apply KeepsOut.next | assumption | apply State.wr_keeps | apply State.gateCtlWrite_keeps

theorem State.addBin_keeps {s₀ : State} {s : State} (q : Nat) (b : Nat) (h : Keeps s₀ s) : Keeps s₀ (State.addBin s q b) := by
  unfold State.addBin
  with_reducible repeat' first | assumption | apply State.wr_keeps | (intro _) | (refine Keeps.mk' ?_ rfl rfl; first | assumption | apply State.wr_keeps)

theorem State.histClr_keeps {s₀ : State} {s : State} (h : Keeps s₀ s) : Keeps s₀ (State.histClr s) := by
  unfold State.histClr
  try extract_lets
  with_reducible repeat' first | assumption | apply State.wr_keeps | (intro _) | (refine Keeps.mk' ?_ rfl rfl; first | assumption | apply State.wr_keeps) | (dsimp +zetaDelta only)

theorem execWhlHistClr_keeps {s₀ : State} {s : State} (h : Keeps s₀ s) : KeepsOut s₀ (execWhlHistClr s) := by
  unfold execWhlHistClr
  with_reducible repeat' first | apply KeepsOut.next | assumption | apply State.wr_keeps | apply State.histClr_keeps

end Sys2Proof.Machine
end

