-- ==== Sys2Proof/Laws/Keeps/Sel.lean ====
section
/-!
SUPPORT. Sys2Proof/Laws/Keeps/Sel.lean: what each operation of Machine/Sel.lean keeps (Keeps of Safety.lean).
-/
namespace Sys2Proof.Machine
set_option linter.all false

theorem State.setRef_keeps {s₀ : State} {s : State} (k : Nat) (x : RefSt) (h : Keeps s₀ s) : Keeps s₀ (State.setRef s k x) := by
  unfold State.setRef
  with_reducible repeat' first | assumption | apply State.wr_keeps | (intro _) | (refine Keeps.mk' ?_ rfl rfl; first | assumption | apply State.wr_keeps)

theorem State.badMinute_keeps {s₀ : State} {s : State} (n : Nat) (h : Keeps s₀ s) : Keeps s₀ (State.badMinute s n) := by
  unfold State.badMinute
  with_reducible repeat' first | assumption | apply State.wr_keeps | apply State.setTl_keeps | (refine Keeps.mk' ?_ rfl rfl; first | assumption | apply State.wr_keeps | apply State.setTl_keeps)

theorem State.setTlState_keeps {s₀ : State} {s : State} (n : Nat) (st : Nat) (h : Keeps s₀ s) : Keeps s₀ (State.setTlState s n st) := by
  unfold State.setTlState
  with_reducible repeat' first | assumption | apply State.wr_keeps | apply State.event_keeps | apply State.modeUpdate_keeps | apply ite_keeps | split

theorem State.acquire_keeps {s₀ : State} {s : State} (n : Nat) (k : Nat) (h : Keeps s₀ s) : Keeps s₀ (State.acquire s n k) := by
  unfold State.acquire
  try extract_lets
  with_reducible repeat' first | assumption | apply State.wr_keeps | apply State.setTl_keeps | apply State.setTlState_keeps | apply ite_keeps | split | (refine Keeps.mk' ?_ rfl rfl; first | assumption | apply State.wr_keeps | apply State.setTl_keeps | apply State.setTlState_keeps | apply ite_keeps | split) | (dsimp +zetaDelta only)

theorem State.slewTo_keeps {s₀ : State} {s : State} (n : Nat) (k : Nat) (h : Keeps s₀ s) : Keeps s₀ (State.slewTo s n k) := by
  unfold State.slewTo
  try extract_lets
  with_reducible repeat' first | assumption | apply State.wr_keeps | apply State.setTl_keeps | apply State.when_keeps | apply State.showErr_keeps | apply State.setTlState_keeps | (intro _) | (refine Keeps.mk' ?_ rfl rfl; first | assumption | apply State.wr_keeps | apply State.setTl_keeps | apply State.when_keeps | apply State.showErr_keeps | apply State.setTlState_keeps) | (dsimp +zetaDelta only)

theorem State.enterHoldover_keeps {s₀ : State} {s : State} (n : Nat) (h : Keeps s₀ s) : Keeps s₀ (State.enterHoldover s n) := by
  unfold State.enterHoldover
  try extract_lets
  with_reducible repeat' first | assumption | apply State.wr_keeps | apply State.setTl_keeps | apply State.wrS_keeps | apply State.showErr_keeps | apply State.setTlState_keeps | apply ite_keeps | split | (refine Keeps.mk' ?_ rfl rfl; first | assumption | apply State.wr_keeps | apply State.setTl_keeps | apply State.wrS_keeps | apply State.showErr_keeps | apply State.setTlState_keeps | apply ite_keeps | split) | (dsimp +zetaDelta only)

theorem State.freerun_keeps {s₀ : State} {s : State} (n : Nat) (h : Keeps s₀ s) : Keeps s₀ (State.freerun s n) := by
  unfold State.freerun
  try extract_lets
  with_reducible repeat' first | assumption | apply State.wr_keeps | apply State.setTl_keeps | apply State.wrS_keeps | apply State.setTlState_keeps | (refine Keeps.mk' ?_ rfl rfl; first | assumption | apply State.wr_keeps | apply State.setTl_keeps | apply State.wrS_keeps | apply State.setTlState_keeps) | (dsimp +zetaDelta only)

theorem State.noteBetter_keeps {s₀ : State} {s : State} (n : Nat) (h : Keeps s₀ s) : Keeps s₀ (State.noteBetter s n) := by
  unfold State.noteBetter
  try extract_lets
  with_reducible repeat' first | assumption | apply State.wr_keeps | apply State.setTl_keeps | apply State.when_keeps | apply State.event_keeps | apply foldl_keeps | (intro _) | (refine Keeps.mk' ?_ rfl rfl; first | assumption | apply State.wr_keeps | apply State.setTl_keeps | apply State.when_keeps | apply State.event_keeps | apply foldl_keeps) | (dsimp +zetaDelta only)

theorem State.reselect_keeps {s₀ : State} {s : State} (n : Nat) (h : Keeps s₀ s) : Keeps s₀ (State.reselect s n) := by
  unfold State.reselect
  try extract_lets
  with_reducible repeat' first | assumption | apply State.wr_keeps | apply State.acquire_keeps | apply State.slewTo_keeps | apply State.enterHoldover_keeps | apply State.noteBetter_keeps | apply ite_keeps | split | (refine Keeps.mk' ?_ rfl rfl; first | assumption | apply State.wr_keeps | apply State.acquire_keeps | apply State.slewTo_keeps | apply State.enterHoldover_keeps | apply State.noteBetter_keeps | apply ite_keeps | split) | (dsimp +zetaDelta only)

theorem State.reselectAll_keeps {s₀ : State} {s : State} (h : Keeps s₀ s) : Keeps s₀ (State.reselectAll s) := by
  unfold State.reselectAll
  with_reducible repeat' first | assumption | apply State.wr_keeps | apply State.forRange_keeps | apply State.reselect_keeps | (intro _)

theorem State.setRefState_keeps {s₀ : State} {s : State} (k : Nat) (st : Nat) (cause : Nat) (h : Keeps s₀ s) : Keeps s₀ (State.setRefState s k st cause) := by
  unfold State.setRefState
  try extract_lets
  with_reducible repeat' first | assumption | apply State.wr_keeps | apply State.event_keeps | apply ite_keeps | split | (dsimp +zetaDelta only)

theorem State.disqualify_keeps {s₀ : State} {s : State} (k : Nat) (cause : Nat) (h : Keeps s₀ s) : Keeps s₀ (State.disqualify s k cause) := by
  unfold State.disqualify
  with_reducible repeat' first | assumption | apply State.wr_keeps | apply State.setRefState_keeps | apply State.inc_keeps | apply State.reselectAll_keeps | apply ite_keeps | split

theorem State.measure_keeps {s₀ : State} {s : State} (k : Nat) (inBand : Bool) (h : Keeps s₀ s) : Keeps s₀ (State.measure s k inBand) := by
  unfold State.measure
  with_reducible repeat' first | assumption | apply State.wr_keeps | apply State.setRef_keeps | apply State.setRefState_keeps | (refine Keeps.mk' ?_ rfl rfl; first | assumption | apply State.wr_keeps | apply State.setRef_keeps | apply State.setRefState_keeps)

theorem State.refEnable_keeps {s₀ : State} {s : State} (k : Nat) (h : Keeps s₀ s) : Keeps s₀ (State.refEnable s k) := by
  unfold State.refEnable
  try extract_lets
  with_reducible repeat' first | assumption | apply State.wr_keeps | apply State.setRef_keeps | apply State.measure_keeps | apply State.disqualify_keeps | apply ite_keeps | split | (dsimp +zetaDelta only)

theorem State.refDisable_keeps {s₀ : State} {s : State} (k : Nat) (h : Keeps s₀ s) : Keeps s₀ (State.refDisable s k) := by
  unfold State.refDisable
  with_reducible repeat' first | assumption | apply State.wr_keeps | apply State.disqualify_keeps

theorem State.todUpdate_keeps {s₀ : State} {s : State} (h : Keeps s₀ s) : Keeps s₀ (State.todUpdate s) := by
  unfold State.todUpdate
  with_reducible repeat' first | assumption | apply State.wr_keeps | apply State.measure_keeps | apply State.disqualify_keeps | apply foldl_keeps | (intro _) | apply ite_keeps | split

theorem State.feed_keeps {s₀ : State} {s : State} (k : Nat) (f : Int) (h : Keeps s₀ s) : Keeps s₀ (State.feed s k f) := by
  unfold State.feed
  try extract_lets
  with_reducible repeat' first | assumption | apply State.wr_keeps | apply State.setTl_keeps | apply State.showErr_keeps | apply foldl_keeps | (intro _) | (refine Keeps.mk' ?_ rfl rfl; first | assumption | apply State.wr_keeps | apply State.setTl_keeps | apply State.showErr_keeps | apply foldl_keeps) | (dsimp +zetaDelta only)

theorem State.keepSample_keeps {s₀ : State} {s : State} (k : Nat) (m : RefMeas) (h : Keeps s₀ s) : Keeps s₀ (State.keepSample s k m) := by
  unfold State.keepSample
  try extract_lets
  with_reducible repeat' first | assumption | apply State.wr_keeps | apply State.setRef_keeps | apply ite_keeps | split | (refine Keeps.mk' ?_ rfl rfl; first | assumption | apply State.wr_keeps | apply State.setRef_keeps | apply ite_keeps | split) | (dsimp +zetaDelta only)

theorem State.observe_keeps {s₀ : State} {s : State} (k : Nat) (m : RefMeas) (h : Keeps s₀ s) : Keeps s₀ (State.observe s k m) := by
  unfold State.observe
  try extract_lets
  with_reducible repeat' first | assumption | apply State.wr_keeps | apply State.setRef_keeps | (intro _) | (refine Keeps.mk' ?_ rfl rfl; first | assumption | apply State.wr_keeps | apply State.setRef_keeps) | (dsimp +zetaDelta only)

theorem State.refEdge_keeps {s₀ : State} {s : State} (k : Nat) (m : RefMeas) (h : Keeps s₀ s) : Keeps s₀ (State.refEdge s k m) := by
  unfold State.refEdge
  with_reducible repeat' first | assumption | apply State.wr_keeps | apply ite_keeps | split | (refine Keeps.mk' ?_ rfl rfl; first | assumption | apply State.wr_keeps | apply ite_keeps | split)

theorem State.refGlitch_keeps {s₀ : State} {s : State} (k : Nat) (h : Keeps s₀ s) : Keeps s₀ (State.refGlitch s k) := by
  unfold State.refGlitch
  try extract_lets
  with_reducible repeat' first | assumption | apply State.wr_keeps | apply State.setRef_keeps | apply State.inc_keeps | apply State.disqualify_keeps | apply State.measure_keeps | apply ite_keeps | split | (refine Keeps.mk' ?_ rfl rfl; first | assumption | apply State.wr_keeps | apply State.setRef_keeps | apply State.inc_keeps | apply State.disqualify_keeps | apply State.measure_keeps | apply ite_keeps | split) | (dsimp +zetaDelta only)

theorem State.glitchCycle_keeps {s₀ : State} {s : State} (h : Keeps s₀ s) : Keeps s₀ (State.glitchCycle s) := by
  unfold State.glitchCycle
  with_reducible repeat' first | assumption | apply State.wr_keeps | apply State.forRange_keeps | apply State.when_keeps | apply State.measure_keeps | (intro _)

theorem State.enterQualified_keeps {s₀ : State} {s : State} (k : Nat) (h : Keeps s₀ s) : Keeps s₀ (State.enterQualified s k) := by
  unfold State.enterQualified
  try extract_lets
  with_reducible repeat' first | assumption | apply State.wr_keeps | apply State.setRefState_keeps | apply State.disqualify_keeps | apply ite_keeps | split | (dsimp +zetaDelta only)

theorem State.refSuspect_keeps {s₀ : State} {s : State} (k : Nat) (h : Keeps s₀ s) : Keeps s₀ (State.refSuspect s k) := by
  unfold State.refSuspect
  with_reducible repeat' first | assumption | apply State.wr_keeps | apply State.badMinute_keeps | apply State.setRefState_keeps | apply foldl_keeps | (intro _)

theorem State.refPeriod_keeps {s₀ : State} {s : State} (k : Nat) (m : RefMeas) (h : Keeps s₀ s) : Keeps s₀ (State.refPeriod s k m) := by
  unfold State.refPeriod
  try extract_lets
  with_reducible repeat' first | assumption | apply State.wr_keeps | apply State.observe_keeps | apply State.wrS_keeps | apply State.setRef_keeps | apply State.keepSample_keeps | apply State.measure_keeps | apply State.disqualify_keeps | apply State.refSuspect_keeps | apply State.feed_keeps | apply State.enterQualified_keeps | apply State.reselectAll_keeps | apply ite_keeps | split | (refine Keeps.mk' ?_ rfl rfl; first | assumption | apply State.wr_keeps | apply State.observe_keeps | apply State.wrS_keeps | apply State.setRef_keeps | apply State.keepSample_keeps | apply State.measure_keeps | apply State.disqualify_keeps | apply State.refSuspect_keeps | apply State.feed_keeps | apply State.enterQualified_keeps | apply State.reselectAll_keeps | apply ite_keeps | split) | (dsimp +zetaDelta only)

theorem execRefSample_keeps {s₀ : State} (k : Fin 12) (m : RefMeas) {s : State} (h : Keeps s₀ s) : KeepsOut s₀ (execRefSample k m s) := by
  unfold execRefSample
  try extract_lets
  with_reducible repeat' first | apply KeepsOut.next | assumption | apply State.wr_keeps | apply State.when_keeps | apply State.refEdge_keeps | apply State.refGlitch_keeps | apply State.refPeriod_keeps | (intro _) | apply ite_keeps | split | (dsimp +zetaDelta only)

theorem execRefWtrExpired_keeps {s₀ : State} (k : Fin 12) {s : State} (h : Keeps s₀ s) : KeepsOut s₀ (execRefWtrExpired k s) := by
  unfold execRefWtrExpired
  with_reducible repeat' first | apply KeepsOut.next | assumption | apply State.wr_keeps | apply State.when_keeps | apply State.enterQualified_keeps | apply State.reselectAll_keeps | (intro _)

theorem execRefDwellExpired_keeps {s₀ : State} (k : Fin 12) {s : State} (h : Keeps s₀ s) : KeepsOut s₀ (execRefDwellExpired k s) := by
  unfold execRefDwellExpired
  with_reducible repeat' first | apply KeepsOut.next | assumption | apply State.wr_keeps | apply State.when_keeps | apply State.disqualify_keeps | (intro _)

theorem State.refQuiet_keeps {s₀ : State} {s : State} (k : Nat) (h : Keeps s₀ s) : Keeps s₀ (State.refQuiet s k) := by
  unfold State.refQuiet
  with_reducible repeat' first | assumption | apply State.wr_keeps | apply State.disqualify_keeps | apply State.when_keeps | apply State.setRef_keeps | (intro _) | apply ite_keeps | split | (refine Keeps.mk' ?_ rfl rfl; first | assumption | apply State.wr_keeps | apply State.disqualify_keeps | apply State.when_keeps | apply State.setRef_keeps | apply ite_keeps | split)

theorem execSelSlewDone_keeps {s₀ : State} (n : Fin 4) {s : State} (h : Keeps s₀ s) : KeepsOut s₀ (execSelSlewDone n s) := by
  unfold execSelSlewDone
  with_reducible repeat' first | apply KeepsOut.next | assumption | apply State.wr_keeps | apply State.when_keeps | (intro _)

theorem State.selRefuse_keeps {s₀ : State} {s : State} (n : Nat) (code : Nat) (reg : Nat) (h : Keeps s₀ s) : Keeps s₀ (State.selRefuse s n code reg) := by
  unfold State.selRefuse
  with_reducible repeat' first | assumption | apply State.wr_keeps | apply State.refuse_keeps

theorem State.selCtlWrite_keeps {s₀ : State} {s : State} (n : Nat) (v : Word) (h : Keeps s₀ s) : Keeps s₀ (State.selCtlWrite s n v) := by
  unfold State.selCtlWrite
  try extract_lets
  with_reducible repeat' first | assumption | apply State.wr_keeps | apply State.selRefuse_keeps | apply State.setReg_keeps | apply State.when_keeps | apply State.slewTo_keeps | apply State.reselect_keeps | (intro _) | apply ite_keeps | split | (dsimp +zetaDelta only)

theorem execSelForce_keeps {s₀ : State} (n : Fin 4) (v : Word) {s : State} (h : Keeps s₀ s) : KeepsOut s₀ (execSelForce n v s) := by
  unfold execSelForce
  with_reducible repeat' first | apply KeepsOut.next | assumption | apply State.wr_keeps | apply State.selCtlWrite_keeps

theorem execSelBetterClr_keeps {s₀ : State} (n : Fin 4) (v : Word) {s : State} (h : Keeps s₀ s) : KeepsOut s₀ (execSelBetterClr n v s) := by
  unfold execSelBetterClr
  with_reducible repeat' first | apply KeepsOut.next | assumption | apply State.wr_keeps | apply State.selCtlWrite_keeps

theorem State.slopeWrite_keeps {s₀ : State} {s : State} (n : Nat) (v : Word) (h : Keeps s₀ s) : Keeps s₀ (State.slopeWrite s n v) := by
  unfold State.slopeWrite
  try extract_lets
  with_reducible repeat' first | assumption | apply State.wr_keeps | apply State.selRefuse_keeps | apply ite_keeps | split | (dsimp +zetaDelta only)

theorem execSelSlopeWrite_keeps {s₀ : State} (n : Fin 4) (v : Word) {s : State} (h : Keeps s₀ s) : KeepsOut s₀ (execSelSlopeWrite n v s) := by
  unfold execSelSlopeWrite
  with_reducible repeat' first | apply KeepsOut.next | assumption | apply State.wr_keeps | apply State.slopeWrite_keeps

theorem State.stepWrite_keeps {s₀ : State} {s : State} (n : Nat) (v : Word) (h : Keeps s₀ s) : Keeps s₀ (State.stepWrite s n v) := by
  unfold State.stepWrite
  try extract_lets
  with_reducible repeat' first | assumption | apply State.wr_keeps | apply State.selRefuse_keeps | apply State.setTl_keeps | apply State.showErr_keeps | apply ite_keeps | split | (refine Keeps.mk' ?_ rfl rfl; first | assumption | apply State.wr_keeps | apply State.selRefuse_keeps | apply State.setTl_keeps | apply State.showErr_keeps | apply ite_keeps | split) | (dsimp +zetaDelta only)

theorem execSelStep_keeps {s₀ : State} (n : Fin 4) (v : Word) {s : State} (h : Keeps s₀ s) : KeepsOut s₀ (execSelStep n v s) := by
  unfold execSelStep
  with_reducible repeat' first | apply KeepsOut.next | assumption | apply State.wr_keeps | apply State.stepWrite_keeps

theorem State.closeMinute_keeps {s₀ : State} {s : State} (n : Nat) (h : Keeps s₀ s) : Keeps s₀ (State.closeMinute s n) := by
  unfold State.closeMinute
  try extract_lets
  with_reducible repeat' first | assumption | apply State.wr_keeps | apply State.setTl_keeps | (refine Keeps.mk' ?_ rfl rfl; first | assumption | apply State.wr_keeps | apply State.setTl_keeps) | (dsimp +zetaDelta only)

theorem execSelHistMinute_keeps {s₀ : State} {s : State} (h : Keeps s₀ s) : KeepsOut s₀ (execSelHistMinute s) := by
  unfold execSelHistMinute
  try extract_lets
  with_reducible repeat' first | apply KeepsOut.next | assumption | apply State.wr_keeps | apply State.when_keeps | apply State.forRange_keeps | apply State.closeMinute_keeps | (intro _) | (refine Keeps.mk' ?_ rfl rfl; first | assumption | apply State.wr_keeps | apply State.when_keeps | apply State.forRange_keeps | apply State.closeMinute_keeps) | (dsimp +zetaDelta only)

end Sys2Proof.Machine
end

