-- ==== Sys2Proof/Laws/Keeps/Ptp.lean ====
section
/-!
SUPPORT. Sys2Proof/Laws/Keeps/Ptp.lean: what each operation of Machine/Ptp.lean keeps (Keeps of Safety.lean).
-/
namespace Sys2Proof.Machine
set_option linter.all false

theorem State.setInst_keeps {s₀ : State} {s : State} (i : Nat) (x : PtpInst) (h : Keeps s₀ s) : Keeps s₀ (State.setInst s i x) := by
  unfold State.setInst
  with_reducible repeat' first | assumption | apply State.wr_keeps | (intro _) | (refine Keeps.mk' ?_ rfl rfl; first | assumption | apply State.wr_keeps)

theorem State.showIncr_keeps {s₀ : State} {s : State} (h : Keeps s₀ s) : Keeps s₀ (State.showIncr s) := by
  unfold State.showIncr
  with_reducible repeat' first | assumption | apply State.wr_keeps

theorem State.servoUpdate_keeps {s₀ : State} {s : State} (h : Keeps s₀ s) : Keeps s₀ (State.servoUpdate s) := by
  unfold State.servoUpdate
  try extract_lets
  with_reducible repeat' first | assumption | apply State.wr_keeps | apply ite_keeps | split | (refine Keeps.mk' ?_ rfl rfl; first | assumption | apply State.wr_keeps | apply ite_keeps | split) | (dsimp +zetaDelta only)

theorem State.offsetsMoved_keeps {s₀ : State} {s : State} (h : Keeps s₀ s) : Keeps s₀ (State.offsetsMoved s) := by
  unfold State.offsetsMoved
  with_reducible repeat' first | assumption | apply State.wr_keeps | apply State.setRef_keeps | apply State.setInst_keeps | apply foldl_keeps | (intro _) | (refine Keeps.mk' ?_ rfl rfl; first | assumption | apply State.wr_keeps | apply State.setRef_keeps | apply State.setInst_keeps | apply foldl_keeps)

theorem State.stepClock_keeps {s₀ : State} {s : State} (x : Nat) (h : Keeps s₀ s) : Keeps s₀ (State.stepClock s x) := by
  unfold State.stepClock
  try extract_lets
  with_reducible repeat' first | assumption | apply State.wr_keeps | apply State.offsetsMoved_keeps | apply State.todUpdate_keeps | apply State.gatesSet_keeps | apply State.servoUpdate_keeps | (refine Keeps.mk' ?_ rfl rfl; first | assumption | apply State.wr_keeps | apply State.offsetsMoved_keeps | apply State.todUpdate_keeps | apply State.gatesSet_keeps | apply State.servoUpdate_keeps) | (dsimp +zetaDelta only)

theorem State.rearm_keeps {s₀ : State} {s : State} (h : Keeps s₀ s) : Keeps s₀ (State.rearm s) := by
  unfold State.rearm
  with_reducible repeat' first | assumption | apply State.wr_keeps | apply State.todUpdate_keeps | apply State.gatesUnset_keeps | apply State.servoUpdate_keeps

theorem State.ptpCtlWrite_keeps {s₀ : State} {s : State} (v : Word) (h : Keeps s₀ s) : Keeps s₀ (State.ptpCtlWrite s v) := by
  unfold State.ptpCtlWrite
  try extract_lets
  with_reducible repeat' first | assumption | apply State.wr_keeps | apply State.refuse_keeps | apply State.rearm_keeps | apply State.setReg_keeps | apply State.servoUpdate_keeps | apply State.stepClock_keeps | apply ite_keeps | split | (dsimp +zetaDelta only)

theorem State.adjWrite_keeps {s₀ : State} {s : State} (v : Word) (h : Keeps s₀ s) : Keeps s₀ (State.adjWrite s v) := by
  unfold State.adjWrite
  with_reducible repeat' first | assumption | apply State.wr_keeps | apply State.refuse_keeps | apply State.setReg_keeps | apply State.showIncr_keeps | apply ite_keeps | split

theorem State.servoRun_keeps {s₀ : State} {s : State} (theta : Int) (logSync : Int) (h : Keeps s₀ s) : Keeps s₀ (State.servoRun s theta logSync) := by
  unfold State.servoRun
  try extract_lets
  with_reducible repeat' first | assumption | apply State.wr_keeps | apply State.wrS_keeps | apply State.showIncr_keeps | apply ite_keeps | split | (refine Keeps.mk' ?_ rfl rfl; first | assumption | apply State.wr_keeps | apply State.wrS_keeps | apply State.showIncr_keeps | apply ite_keeps | split) | (dsimp +zetaDelta only)

theorem State.ignoreMsg_keeps {s₀ : State} {s : State} (i : Nat) (h : Keeps s₀ s) : Keeps s₀ (State.ignoreMsg s i) := by
  unfold State.ignoreMsg
  with_reducible repeat' first | assumption | apply State.wr_keeps | apply State.inc_keeps

theorem State.ptpSample_keeps {s₀ : State} {s : State} (i : Nat) (raw : Int) (h : Keeps s₀ s) : Keeps s₀ (State.ptpSample s i raw) := by
  unfold State.ptpSample
  try extract_lets
  with_reducible repeat' first | assumption | apply State.wr_keeps | apply State.setInst_keeps | apply State.servoUpdate_keeps | apply State.wrS_keeps | apply State.stepClock_keeps | apply State.servoRun_keeps | apply ite_keeps | split | (refine Keeps.mk' ?_ rfl rfl; first | assumption | apply State.wr_keeps | apply State.setInst_keeps | apply State.servoUpdate_keeps | apply State.wrS_keeps | apply State.stepClock_keeps | apply State.servoRun_keeps | apply ite_keeps | split) | (dsimp +zetaDelta only)

theorem State.syncPair_keeps {s₀ : State} {s : State} (i : Nat) (t1 : Int) (t2 : Int) (h : Keeps s₀ s) : Keeps s₀ (State.syncPair s i t1 t2) := by
  unfold State.syncPair
  try extract_lets
  with_reducible repeat' first | assumption | apply State.wr_keeps | apply State.setInst_keeps | apply State.ptpSample_keeps | (refine Keeps.mk' ?_ rfl rfl; first | assumption | apply State.wr_keeps | apply State.setInst_keeps | apply State.ptpSample_keeps) | (dsimp +zetaDelta only)

theorem State.syncMsg_keeps {s₀ : State} {s : State} (i : Nat) (m : SyncMsg) (h : Keeps s₀ s) : Keeps s₀ (State.syncMsg s i m) := by
  unfold State.syncMsg
  try extract_lets
  with_reducible repeat' first | assumption | apply State.wr_keeps | apply State.ignoreMsg_keeps | apply State.incWrap_keeps | apply State.setInst_keeps | apply State.syncPair_keeps | apply ite_keeps | split | (refine Keeps.mk' ?_ rfl rfl; first | assumption | apply State.wr_keeps | apply State.ignoreMsg_keeps | apply State.incWrap_keeps | apply State.setInst_keeps | apply State.syncPair_keeps | apply ite_keeps | split) | (dsimp +zetaDelta only)

theorem State.followUp_keeps {s₀ : State} {s : State} (i : Nat) (m : SyncMsg) (h : Keeps s₀ s) : Keeps s₀ (State.followUp s i m) := by
  unfold State.followUp
  with_reducible repeat' first | assumption | apply State.wr_keeps | apply State.syncPair_keeps | apply ite_keeps | split | (refine Keeps.mk' ?_ rfl rfl; first | assumption | apply State.wr_keeps | apply State.syncPair_keeps | apply ite_keeps | split)

theorem State.follow_keeps {s₀ : State} {s : State} (i : Nat) (p : AnnounceMsg) (h : Keeps s₀ s) : Keeps s₀ (State.follow s i p) := by
  unfold State.follow
  try extract_lets
  with_reducible repeat' first | assumption | apply State.wr_keeps | apply State.setInst_keeps | apply State.servoUpdate_keeps | apply ite_keeps | split | (refine Keeps.mk' ?_ rfl rfl; first | assumption | apply State.wr_keeps | apply State.setInst_keeps | apply State.servoUpdate_keeps | apply ite_keeps | split) | (dsimp +zetaDelta only)

theorem State.announce_keeps {s₀ : State} {s : State} (i : Nat) (m : AnnounceMsg) (h : Keeps s₀ s) : Keeps s₀ (State.announce s i m) := by
  unfold State.announce
  try extract_lets
  with_reducible repeat' first | assumption | apply State.wr_keeps | apply State.ignoreMsg_keeps | apply State.setInst_keeps | apply State.follow_keeps | apply foldl_keeps | (intro _) | apply ite_keeps | split | (refine Keeps.mk' ?_ rfl rfl; first | assumption | apply State.wr_keeps | apply State.ignoreMsg_keeps | apply State.setInst_keeps | apply State.follow_keeps | apply foldl_keeps | apply ite_keeps | split) | (dsimp +zetaDelta only)

theorem State.announceMsg_keeps {s₀ : State} {s : State} (i : Nat) (m : AnnounceMsg) (h : Keeps s₀ s) : Keeps s₀ (State.announceMsg s i m) := by
  unfold State.announceMsg
  with_reducible repeat' first | assumption | apply State.wr_keeps | apply State.announce_keeps | apply State.when_keeps | apply State.send_keeps | (intro _)

theorem State.delayResp_keeps {s₀ : State} {s : State} (i : Nat) (m : DelayRespMsg) (h : Keeps s₀ s) : Keeps s₀ (State.delayResp s i m) := by
  unfold State.delayResp
  try extract_lets
  with_reducible repeat' first | assumption | apply State.wr_keeps | apply State.ignoreMsg_keeps | apply State.setInst_keeps | apply State.wrS_keeps | apply ite_keeps | split | (refine Keeps.mk' ?_ rfl rfl; first | assumption | apply State.wr_keeps | apply State.ignoreMsg_keeps | apply State.setInst_keeps | apply State.wrS_keeps | apply ite_keeps | split) | (dsimp +zetaDelta only)

theorem State.delayReq_keeps {s₀ : State} {s : State} (i : Nat) (h : Keeps s₀ s) : Keeps s₀ (State.delayReq s i) := by
  unfold State.delayReq
  try extract_lets
  with_reducible repeat' first | assumption | apply State.wr_keeps | apply State.setInst_keeps | apply State.stampTx_keeps | apply State.send_keeps | apply ite_keeps | split | (refine Keeps.mk' ?_ rfl rfl; first | assumption | apply State.wr_keeps | apply State.setInst_keeps | apply State.stampTx_keeps | apply State.send_keeps | apply ite_keeps | split) | (dsimp +zetaDelta only)

theorem State.announceTimeout_keeps {s₀ : State} {s : State} (i : Nat) (h : Keeps s₀ s) : Keeps s₀ (State.announceTimeout s i) := by
  unfold State.announceTimeout
  with_reducible repeat' first | assumption | apply State.wr_keeps | apply State.setInst_keeps | apply State.servoUpdate_keeps | apply ite_keeps | split | (refine Keeps.mk' ?_ rfl rfl; first | assumption | apply State.wr_keeps | apply State.setInst_keeps | apply State.servoUpdate_keeps | apply ite_keeps | split)

theorem State.ptpInstEnable_keeps {s₀ : State} {s : State} (i : Nat) (en : Bool) (h : Keeps s₀ s) : Keeps s₀ (State.ptpInstEnable s i en) := by
  unfold State.ptpInstEnable
  with_reducible repeat' first | assumption | apply State.wr_keeps | apply State.setInst_keeps | apply State.servoUpdate_keeps | apply ite_keeps | split

theorem execPtpSync_keeps {s₀ : State} (i : Fin 2) (m : SyncMsg) {s : State} (h : Keeps s₀ s) : KeepsOut s₀ (execPtpSync i m s) := by
  unfold execPtpSync
  with_reducible repeat' first | apply KeepsOut.next | assumption | apply State.wr_keeps | apply State.frameIn_keeps | apply State.syncMsg_keeps

theorem execPtpFollowUp_keeps {s₀ : State} (i : Fin 2) (m : SyncMsg) {s : State} (h : Keeps s₀ s) : KeepsOut s₀ (execPtpFollowUp i m s) := by
  unfold execPtpFollowUp
  with_reducible repeat' first | apply KeepsOut.next | assumption | apply State.wr_keeps | apply State.frameIn_keeps | apply State.followUp_keeps

theorem execPtpAnnounce_keeps {s₀ : State} (i : Fin 2) (m : AnnounceMsg) {s : State} (h : Keeps s₀ s) : KeepsOut s₀ (execPtpAnnounce i m s) := by
  unfold execPtpAnnounce
  with_reducible repeat' first | apply KeepsOut.next | assumption | apply State.wr_keeps | apply State.frameIn_keeps | apply State.announceMsg_keeps

theorem State.ptpDeliver_keeps {s₀ : State} {s : State} (mac : Fin 96) (x : PtpMsg) (h : Keeps s₀ s) : Keeps s₀ (State.ptpDeliver s mac x) := by
  unfold State.ptpDeliver
  with_reducible repeat' first | assumption | apply State.wr_keeps | apply State.syncMsg_keeps | apply State.followUp_keeps | apply State.announce_keeps | apply State.announceMsg_keeps | apply State.delayResp_keeps | apply foldl_keeps | (intro _) | split | (refine Keeps.mk' ?_ rfl rfl; first | assumption | apply State.wr_keeps | apply State.syncMsg_keeps | apply State.followUp_keeps | apply State.announce_keeps | apply State.announceMsg_keeps | apply State.delayResp_keeps | apply foldl_keeps | split)

theorem State.sourceQuiet_keeps {s₀ : State} {s : State} (k : Nat) (pps : Bool) (h : Keeps s₀ s) : Keeps s₀ (State.sourceQuiet s k pps) := by
  unfold State.sourceQuiet
  with_reducible repeat' first | assumption | apply State.wr_keeps | apply State.refQuiet_keeps | apply State.setInst_keeps | apply State.servoUpdate_keeps | apply ite_keeps | split | (refine Keeps.mk' ?_ rfl rfl; first | assumption | apply State.wr_keeps | apply State.refQuiet_keeps | apply State.setInst_keeps | apply State.servoUpdate_keeps | apply ite_keeps | split)

theorem execRefActivityTimeout_keeps {s₀ : State} (m : Missing) {s : State} (h : Keeps s₀ s) : KeepsOut s₀ (execRefActivityTimeout m s) := by
  unfold execRefActivityTimeout
  with_reducible repeat' first | apply KeepsOut.next | assumption | apply State.wr_keeps | apply State.sourceQuiet_keeps | apply State.refQuiet_keeps

theorem execPtpDelayResp_keeps {s₀ : State} (i : Fin 2) (m : DelayRespMsg) {s : State} (h : Keeps s₀ s) : KeepsOut s₀ (execPtpDelayResp i m s) := by
  unfold execPtpDelayResp
  with_reducible repeat' first | apply KeepsOut.next | assumption | apply State.wr_keeps | apply State.frameIn_keeps | apply State.delayResp_keeps

theorem execPtpDelayReqTimer_keeps {s₀ : State} (i : Fin 2) {s : State} (h : Keeps s₀ s) : KeepsOut s₀ (execPtpDelayReqTimer i s) := by
  unfold execPtpDelayReqTimer
  with_reducible repeat' first | apply KeepsOut.next | assumption | apply State.wr_keeps | apply State.delayReq_keeps

theorem execPtpAnnounceTimeout_keeps {s₀ : State} (i : Fin 2) {s : State} (h : Keeps s₀ s) : KeepsOut s₀ (execPtpAnnounceTimeout i s) := by
  unfold execPtpAnnounceTimeout
  with_reducible repeat' first | apply KeepsOut.next | assumption | apply State.wr_keeps | apply State.announceTimeout_keeps

theorem execPtpSetReq_keeps {s₀ : State} (v : Word) {s : State} (h : Keeps s₀ s) : KeepsOut s₀ (execPtpSetReq v s) := by
  unfold execPtpSetReq
  with_reducible repeat' first | apply KeepsOut.next | assumption | apply State.wr_keeps | apply State.ptpCtlWrite_keeps

theorem execPtpRearm_keeps {s₀ : State} (v : Word) {s : State} (h : Keeps s₀ s) : KeepsOut s₀ (execPtpRearm v s) := by
  unfold execPtpRearm
  with_reducible repeat' first | apply KeepsOut.next | assumption | apply State.wr_keeps | apply State.ptpCtlWrite_keeps

theorem execPtpServoSelect_keeps {s₀ : State} (v : Word) {s : State} (h : Keeps s₀ s) : KeepsOut s₀ (execPtpServoSelect v s) := by
  unfold execPtpServoSelect
  with_reducible repeat' first | apply KeepsOut.next | assumption | apply State.wr_keeps | apply State.ptpCtlWrite_keeps

theorem execPtpAdjWrite_keeps {s₀ : State} (v : Word) {s : State} (h : Keeps s₀ s) : KeepsOut s₀ (execPtpAdjWrite v s) := by
  unfold execPtpAdjWrite
  with_reducible repeat' first | apply KeepsOut.next | assumption | apply State.wr_keeps | apply State.adjWrite_keeps

theorem State.clkNsRead_keeps {s₀ : State} {s : State} (q : Req) (h : Keeps s₀ s) : Keeps s₀ (State.clkNsRead s q) := by
  unfold State.clkNsRead
  with_reducible repeat' first | assumption | apply State.wr_keeps | (intro _) | (refine Keeps.mk' ?_ rfl rfl; first | assumption | apply State.wr_keeps)

theorem execPtpClkNsRead_keeps {s₀ : State} (q : Req) {s : State} (h : Keeps s₀ s) : KeepsOut s₀ (execPtpClkNsRead q s) := by
  unfold execPtpClkNsRead
  with_reducible repeat' first | apply KeepsOut.next | assumption | apply State.wr_keeps | apply State.clkNsRead_keeps

theorem execPpsSecond_keeps {s₀ : State} {s : State} (h : Keeps s₀ s) : KeepsOut s₀ (execPpsSecond s) := by
  unfold execPpsSecond
  with_reducible repeat' first | apply KeepsOut.next | assumption | apply State.wr_keeps | apply State.when_keeps | apply State.ppsRise_keeps

theorem State.ppsWrite_keeps {s₀ : State} {s : State} (v : Word) (h : Keeps s₀ s) : Keeps s₀ (State.ppsWrite s v) := by
  unfold State.ppsWrite
  try extract_lets
  with_reducible repeat' first | assumption | apply State.wr_keeps | apply State.setReg_keeps | apply ite_keeps | split | (refine Keeps.mk' ?_ rfl rfl; first | assumption | apply State.wr_keeps | apply State.setReg_keeps | apply ite_keeps | split) | (dsimp +zetaDelta only)

theorem execPpsOutWrite_keeps {s₀ : State} (v : Word) {s : State} (h : Keeps s₀ s) : KeepsOut s₀ (execPpsOutWrite v s) := by
  unfold execPpsOutWrite
  with_reducible repeat' first | apply KeepsOut.next | assumption | apply State.wr_keeps | apply State.ppsWrite_keeps

end Sys2Proof.Machine
end

