-- ==== Sys2Proof/Laws/Keeps/Rings.lean ====
section
/-!
SUPPORT. Sys2Proof/Laws/Keeps/Rings.lean: what each operation of Machine/Rings.lean keeps (Keeps of Safety.lean).
-/
namespace Sys2Proof.Machine
set_option linter.all false

theorem execHifLinkTrained_keeps {s₀ : State} (cxl : Bool) (width : Fin 3) (rate : Fin 2) (flit256 : Bool) (cache : Bool) (mem : Bool) (ats : Bool) (pri : Granted 513) (pasid : Granted 21) {s : State} (h : Keeps s₀ s) : KeepsOut s₀ (execHifLinkTrained cxl width rate flit256 cache mem ats pri pasid s) := by
  unfold execHifLinkTrained
  try extract_lets
  with_reducible repeat' first | apply KeepsOut.next | assumption | apply State.wr_keeps | apply State.when_keeps | apply State.retryWaiting_keeps | apply State.priEnd_keeps | (intro _) | apply ite_keeps | split | (refine Keeps.mk' ?_ rfl rfl; first | assumption | apply State.wr_keeps | apply State.when_keeps | apply State.retryWaiting_keeps | apply State.priEnd_keeps | apply ite_keeps | split) | (dsimp +zetaDelta only)

theorem execHdmDecoderCommit_keeps {s₀ : State} {s : State} (h : Keeps s₀ s) : KeepsOut s₀ (execHdmDecoderCommit s) := by
  unfold execHdmDecoderCommit
  with_reducible repeat' first | apply KeepsOut.next | assumption | apply State.wr_keeps | apply State.when_keeps | (intro _)

theorem State.dbCheck_keeps {s₀ : State} {s : State} (r : Nat) (index : Nat) (dbgen : Nat) (h : Keeps s₀ s) : Keeps s₀ (State.dbCheck s r index dbgen) := by
  unfold State.dbCheck
  try extract_lets
  with_reducible repeat' first | assumption | apply State.wr_keeps | apply State.inc_keeps | apply State.ringError_keeps | apply State.drainHeld_keeps | apply State.closeBatch_keeps | apply State.spillDrain_keeps | apply ite_keeps | split | (dsimp +zetaDelta only)

theorem execDbSnoop_keeps {s₀ : State} (r : Fin 4096) {s : State} (h : Keeps s₀ s) : KeepsOut s₀ (execDbSnoop r s) := by
  unfold execDbSnoop
  with_reducible repeat' first | apply KeepsOut.next | assumption | apply State.wr_keeps | apply State.when_keeps | apply State.setRing_keeps | (intro _) | apply ite_keeps | split | (refine Keeps.mk' ?_ rfl rfl; first | assumption | apply State.wr_keeps | apply State.when_keeps | apply State.setRing_keeps | apply ite_keeps | split)

theorem execDbHoldoffExpired_keeps {s₀ : State} (r : Fin 4096) {s : State} (h : Keeps s₀ s) : KeepsOut s₀ (execDbHoldoffExpired r s) := by
  unfold execDbHoldoffExpired
  with_reducible repeat' first | apply KeepsOut.next | assumption | apply State.wr_keeps | apply State.when_keeps | apply State.readDoorbell_keeps | (intro _)

theorem execDbReadReturn_keeps {s₀ : State} (r : Fin 4096) (index : Word) (dbgen : Word) {s : State} (h : Keeps s₀ s) : KeepsOut s₀ (execDbReadReturn r index dbgen s) := by
  unfold execDbReadReturn
  try extract_lets
  with_reducible repeat' first | apply KeepsOut.next | assumption | apply State.wr_keeps | apply State.when_keeps | apply State.setRing_keeps | apply State.dbCheck_keeps | apply State.readDoorbell_keeps | (intro _) | apply ite_keeps | split | (refine Keeps.mk' ?_ rfl rfl; first | assumption | apply State.wr_keeps | apply State.when_keeps | apply State.setRing_keeps | apply State.dbCheck_keeps | apply State.readDoorbell_keeps | apply ite_keeps | split) | (dsimp +zetaDelta only)

theorem State.mmioDrop_keeps {s₀ : State} {s : State} (h : Keeps s₀ s) : Keeps s₀ (State.mmioDrop s) := by
  unfold State.mmioDrop
  with_reducible repeat' first | assumption | apply State.wr_keeps | apply State.inc_keeps

theorem State.mmioIndex_keeps {s₀ : State} {s : State} (r : Nat) (v : Word) (h : Keeps s₀ s) : Keeps s₀ (State.mmioIndex s r v) := by
  unfold State.mmioIndex
  with_reducible repeat' first | assumption | apply State.wr_keeps | apply State.setRing_keeps | apply State.mmioDrop_keeps | apply ite_keeps | split | (refine Keeps.mk' ?_ rfl rfl; first | assumption | apply State.wr_keeps | apply State.setRing_keeps | apply State.mmioDrop_keeps | apply ite_keeps | split)

theorem State.mmioPresent_keeps {s₀ : State} {s : State} (r : Nat) (v : Word) (h : Keeps s₀ s) : Keeps s₀ (State.mmioPresent s r v) := by
  unfold State.mmioPresent
  with_reducible repeat' first | assumption | apply State.wr_keeps | apply State.dbCheck_keeps | apply State.mmioDrop_keeps | apply ite_keeps | split

theorem State.mmioBoth_keeps {s₀ : State} {s : State} (r : Nat) (index : Word) (dbgen : Word) (h : Keeps s₀ s) : Keeps s₀ (State.mmioBoth s r index dbgen) := by
  unfold State.mmioBoth
  with_reducible repeat' first | assumption | apply State.wr_keeps | apply State.mmioIndex_keeps | apply State.mmioPresent_keeps | apply State.mmioDrop_keeps | apply ite_keeps | split

theorem State.bar2Write_keeps {s₀ : State} {s : State} (o : Nat) (v : Word) (h : Keeps s₀ s) : Keeps s₀ (State.bar2Write s o v) := by
  unfold State.bar2Write
  with_reducible repeat' first | assumption | apply State.wr_keeps | apply State.mmioIndex_keeps | apply State.mmioPresent_keeps | apply State.mmioDrop_keeps | split | (refine Keeps.mk' ?_ rfl rfl; first | assumption | apply State.wr_keeps | apply State.mmioIndex_keeps | apply State.mmioPresent_keeps | apply State.mmioDrop_keeps | split)

theorem execMmioDbIndex_keeps {s₀ : State} (r : Fin 4096) (index : Word) {s : State} (h : Keeps s₀ s) : KeepsOut s₀ (execMmioDbIndex r index s) := by
  unfold execMmioDbIndex
  with_reducible repeat' first | apply KeepsOut.next | assumption | apply State.wr_keeps | apply State.mmioIndex_keeps

theorem execMmioDbPresent_keeps {s₀ : State} (r : Fin 4096) (dbgen : Word) {s : State} (h : Keeps s₀ s) : KeepsOut s₀ (execMmioDbPresent r dbgen s) := by
  unfold execMmioDbPresent
  with_reducible repeat' first | apply KeepsOut.next | assumption | apply State.wr_keeps | apply State.mmioPresent_keeps

theorem execMmioDbBoth_keeps {s₀ : State} (r : Fin 4096) (index : Word) (dbgen : Word) {s : State} (h : Keeps s₀ s) : KeepsOut s₀ (execMmioDbBoth r index dbgen s) := by
  unfold execMmioDbBoth
  with_reducible repeat' first | apply KeepsOut.next | assumption | apply State.wr_keeps | apply State.mmioBoth_keeps

theorem State.ringRefuse_keeps {s₀ : State} {s : State} (r : Nat) (code : Nat) (h : Keeps s₀ s) : Keeps s₀ (State.ringRefuse s r code) := by
  unfold State.ringRefuse
  with_reducible repeat' first | assumption | apply State.wr_keeps | apply State.refuse_keeps

theorem State.ringStart_keeps {s₀ : State} {s : State} (r : Nat) (h : Keeps s₀ s) : Keeps s₀ (State.ringStart s r) := by
  unfold State.ringStart
  try extract_lets
  with_reducible repeat' first | assumption | apply State.wr_keeps | apply State.setRing_keeps | apply State.readDoorbell_keeps | apply ite_keeps | split | (refine Keeps.mk' ?_ rfl rfl; first | assumption | apply State.wr_keeps | apply State.setRing_keeps | apply State.readDoorbell_keeps | apply ite_keeps | split) | (dsimp +zetaDelta only)

theorem State.ringDrain_keeps {s₀ : State} {s : State} (r : Nat) (h : Keeps s₀ s) : Keeps s₀ (State.ringDrain s r) := by
  unfold State.ringDrain
  try extract_lets
  with_reducible repeat' first | assumption | apply State.wr_keeps | apply State.setRing_keeps | apply State.freePark_keeps | apply State.complete_keeps | apply State.closeBatch_keeps | apply State.drainHeld_keeps | apply State.spillReset_keeps | apply foldl_keeps | (intro _) | apply ite_keeps | split | (refine Keeps.mk' ?_ rfl rfl; first | assumption | apply State.wr_keeps | apply State.setRing_keeps | apply State.freePark_keeps | apply State.complete_keeps | apply State.closeBatch_keeps | apply State.drainHeld_keeps | apply State.spillReset_keeps | apply foldl_keeps | apply ite_keeps | split) | (dsimp +zetaDelta only)

theorem State.ringCtlWrite_keeps {s₀ : State} {s : State} (r : Nat) (en : Bool) (h : Keeps s₀ s) : Keeps s₀ (State.ringCtlWrite s r en) := by
  unfold State.ringCtlWrite
  with_reducible repeat' first | assumption | apply State.wr_keeps | apply State.ringStart_keeps | apply State.ringRefuse_keeps | apply State.ringDrain_keeps | apply ite_keeps | split | (refine Keeps.mk' ?_ rfl rfl; first | assumption | apply State.wr_keeps | apply State.ringStart_keeps | apply State.ringRefuse_keeps | apply State.ringDrain_keeps | apply ite_keeps | split)

theorem execRingEnable_keeps {s₀ : State} (r : Fin 4096) {s : State} (h : Keeps s₀ s) : KeepsOut s₀ (execRingEnable r s) := by
  unfold execRingEnable
  with_reducible repeat' first | apply KeepsOut.next | assumption | apply State.wr_keeps | apply State.ringCtlWrite_keeps

theorem execRingDisable_keeps {s₀ : State} (r : Fin 4096) {s : State} (h : Keeps s₀ s) : KeepsOut s₀ (execRingDisable r s) := by
  unfold execRingDisable
  with_reducible repeat' first | apply KeepsOut.next | assumption | apply State.wr_keeps | apply State.ringCtlWrite_keeps

theorem State.releaseQueue_keeps {s₀ : State} {s : State} (r : Nat) (h : Keeps s₀ s) : Keeps s₀ (State.releaseQueue s r) := by
  unfold State.releaseQueue
  with_reducible repeat' first | assumption | apply State.wr_keeps | apply elim_keeps | (intro _)

theorem State.releaseLine_keeps {s₀ : State} {s : State} (r : Nat) (h : Keeps s₀ s) : Keeps s₀ (State.releaseLine s r) := by
  unfold State.releaseLine
  with_reducible repeat' first | assumption | apply State.wr_keeps | apply State.send_keeps | apply ite_keeps | split

theorem State.ringOff_keeps {s₀ : State} {s : State} (r : Nat) (h : Keeps s₀ s) : Keeps s₀ (State.ringOff s r) := by
  unfold State.ringOff
  try extract_lets
  with_reducible repeat' first | assumption | apply State.wr_keeps | apply State.setRing_keeps | apply State.freePark_keeps | apply State.writeBack_keeps | apply State.releaseLine_keeps | apply State.releaseQueue_keeps | (refine Keeps.mk' ?_ rfl rfl; first | assumption | apply State.wr_keeps | apply State.setRing_keeps | apply State.freePark_keeps | apply State.writeBack_keeps | apply State.releaseLine_keeps | apply State.releaseQueue_keeps) | (dsimp +zetaDelta only)

theorem execRingDrainDone_keeps {s₀ : State} (r : Fin 4096) {s : State} (h : Keeps s₀ s) : KeepsOut s₀ (execRingDrainDone r s) := by
  unfold execRingDrainDone
  with_reducible repeat' first | apply KeepsOut.next | assumption | apply State.wr_keeps | apply State.when_keeps | apply State.ringOff_keeps | (intro _)

theorem execRingDrainStall_keeps {s₀ : State} (r : Fin 4096) {s : State} (h : Keeps s₀ s) : KeepsOut s₀ (execRingDrainStall r s) := by
  unfold execRingDrainStall
  try extract_lets
  with_reducible repeat' first | apply KeepsOut.next | assumption | apply State.wr_keeps | apply State.when_keeps | apply State.closeBatch_keeps | apply State.dropRec_keeps | apply State.setRing_keeps | apply State.inc_keeps | apply State.ringOff_keeps | apply foldl_keeps | (intro _) | apply ite_keeps | split | (refine Keeps.mk' ?_ rfl rfl; first | assumption | apply State.wr_keeps | apply State.when_keeps | apply State.closeBatch_keeps | apply State.dropRec_keeps | apply State.setRing_keeps | apply State.inc_keeps | apply State.ringOff_keeps | apply foldl_keeps | apply ite_keeps | split) | (dsimp +zetaDelta only)

theorem State.ringRevoked_keeps {s₀ : State} {s : State} (r : Nat) (h : Keeps s₀ s) : Keeps s₀ (State.ringRevoked s r) := by
  unfold State.ringRevoked
  try extract_lets
  with_reducible repeat' first | assumption | apply State.wr_keeps | apply State.ringDrain_keeps | apply State.event_keeps | apply State.stopJob_keeps | apply State.stopTask_keeps | apply foldl_keeps | (intro _) | apply ite_keeps | split | (dsimp +zetaDelta only)

theorem execBatchTimeout_keeps {s₀ : State} (r : Fin 4096) {s : State} (h : Keeps s₀ s) : KeepsOut s₀ (execBatchTimeout r s) := by
  unfold execBatchTimeout
  with_reducible repeat' first | apply KeepsOut.next | assumption | apply State.wr_keeps | apply State.closeBatch_keeps | apply State.when_keeps | apply State.writeBack_keeps | (intro _) | apply ite_keeps | split

theorem execBatchFlushTick_keeps {s₀ : State} (n : Fin 4) {s : State} (h : Keeps s₀ s) : KeepsOut s₀ (execBatchFlushTick n s) := by
  unfold execBatchFlushTick
  with_reducible repeat' first | apply KeepsOut.next | assumption | apply State.wr_keeps | apply State.when_keeps | apply State.forRange_keeps | apply State.closeBatch_keeps | (intro _)

theorem State.signalDeferred_keeps {s₀ : State} {s : State} (v : Nat) (h : Keeps s₀ s) : Keeps s₀ (State.signalDeferred s v) := by
  unfold State.signalDeferred
  try extract_lets
  with_reducible repeat' first | assumption | apply State.wr_keeps | apply State.signalVec_keeps | (intro _) | apply ite_keeps | split | (refine Keeps.mk' ?_ rfl rfl; first | assumption | apply State.wr_keeps | apply State.signalVec_keeps | apply ite_keeps | split) | (dsimp +zetaDelta only)

theorem execIrqGapExpired_keeps {s₀ : State} (v : Fin 2048) {s : State} (h : Keeps s₀ s) : KeepsOut s₀ (execIrqGapExpired v s) := by
  unfold execIrqGapExpired
  with_reducible repeat' first | apply KeepsOut.next | assumption | apply State.wr_keeps | apply State.signalDeferred_keeps

theorem State.consumed_keeps {s₀ : State} {s : State} (r : Nat) (h : Keeps s₀ s) : Keeps s₀ (State.consumed s r) := by
  unfold State.consumed
  try extract_lets
  with_reducible repeat' first | assumption | apply State.wr_keeps | apply State.writeBack_keeps | apply State.setRing_keeps | apply ite_keeps | split | (refine Keeps.mk' ?_ rfl rfl; first | assumption | apply State.wr_keeps | apply State.writeBack_keeps | apply State.setRing_keeps | apply ite_keeps | split) | (dsimp +zetaDelta only)

theorem State.fetched_keeps {s₀ : State} {s : State} (r : Nat) (words : List Word) (h : Keeps s₀ s) : Keeps s₀ (State.fetched s r words) := by
  unfold State.fetched
  try extract_lets
  with_reducible repeat' first | assumption | apply State.wr_keeps | apply State.send_keeps | apply State.xlateEntry_keeps | apply State.setRing_keeps | apply State.consumed_keeps | apply State.inc_keeps | apply State.reason_keeps | apply State.refuseDesc_keeps | apply ite_keeps | split | (refine Keeps.mk' ?_ rfl rfl; first | assumption | apply State.wr_keeps | apply State.send_keeps | apply State.xlateEntry_keeps | apply State.setRing_keeps | apply State.consumed_keeps | apply State.inc_keeps | apply State.reason_keeps | apply State.refuseDesc_keeps | apply ite_keeps | split) | (dsimp +zetaDelta only)

theorem execDescFetch_keeps {s₀ : State} (r : Fin 4096) (words : List Word) {s : State} (h : Keeps s₀ s) : KeepsOut s₀ (execDescFetch r words s) := by
  unfold execDescFetch
  with_reducible repeat' first | apply KeepsOut.next | assumption | apply State.wr_keeps | apply State.when_keeps | apply State.fetched_keeps | (intro _)

theorem execDescPoll_keeps {s₀ : State} (r : Fin 4096) (words : List Word) {s : State} (h : Keeps s₀ s) : KeepsOut s₀ (execDescPoll r words s) := by
  unfold execDescPoll
  with_reducible repeat' first | apply KeepsOut.next | assumption | apply State.wr_keeps | apply State.when_keeps | apply State.fetched_keeps | (intro _)

theorem execDescLineInvalidated_keeps {s₀ : State} (r : Fin 4096) (words : List Word) {s : State} (h : Keeps s₀ s) : KeepsOut s₀ (execDescLineInvalidated r words s) := by
  unfold execDescLineInvalidated
  with_reducible repeat' first | apply KeepsOut.next | assumption | apply State.wr_keeps | apply State.when_keeps | apply State.fetched_keeps | (intro _)

theorem execGenStallTimeout_keeps {s₀ : State} (r : Fin 4096) {s : State} (h : Keeps s₀ s) : KeepsOut s₀ (execGenStallTimeout r s) := by
  unfold execGenStallTimeout
  with_reducible repeat' first | apply KeepsOut.next | assumption | apply State.wr_keeps | apply State.when_keeps | apply State.inc_keeps | apply State.event_keeps | (intro _)

theorem execNop_keeps {s₀ : State} (r : Fin 4096) {s : State} (h : Keeps s₀ s) : KeepsOut s₀ (execNop r s) := by
  unfold execNop
  with_reducible repeat' first | apply KeepsOut.next | assumption | apply State.wr_keeps | apply State.dispatch_keeps | apply State.complete_keeps | (intro _)

theorem execDmaH2d_keeps {s₀ : State} (r : Fin 4096) {s : State} (h : Keeps s₀ s) : KeepsOut s₀ (execDmaH2d r s) := by
  unfold execDmaH2d
  with_reducible repeat' first | apply KeepsOut.next | assumption | apply State.wr_keeps | apply State.dispatch_keeps | apply State.startJob_keeps | (intro _)

theorem execDmaD2h_keeps {s₀ : State} (r : Fin 4096) {s : State} (h : Keeps s₀ s) : KeepsOut s₀ (execDmaD2h r s) := by
  unfold execDmaD2h
  with_reducible repeat' first | apply KeepsOut.next | assumption | apply State.wr_keeps | apply State.dispatch_keeps | apply State.startJob_keeps | (intro _)

theorem State.dmaMove_keeps {s₀ : State} {s : State} (j : Job) (a : Nat) (b : Nat) (data : List Byte) (h : Keeps s₀ s) : Keeps s₀ (State.dmaMove s j a b data) := by
  unfold State.dmaMove
  try extract_lets
  with_reducible repeat' first | assumption | apply State.wr_keeps | apply State.xlateRange_keeps | apply State.hbmWrite_keeps | apply State.hostWrite_keeps | apply ite_keeps | split | (refine Keeps.mk' ?_ rfl rfl; first | assumption | apply State.wr_keeps | apply State.xlateRange_keeps | apply State.hbmWrite_keeps | apply State.hostWrite_keeps | apply ite_keeps | split) | (dsimp +zetaDelta only)

theorem State.dmaComplete_keeps {s₀ : State} {s : State} (r : Fin 4096) (idx : Word) (data : List Byte) (h : Keeps s₀ s) : Keeps s₀ (State.dmaComplete s r idx data) := by
  unfold State.dmaComplete
  try extract_lets
  with_reducible repeat' first | assumption | apply State.wr_keeps | apply State.dmaMove_keeps | apply State.freePark_keeps | apply State.endJob_keeps | apply ite_keeps | split | (refine Keeps.mk' ?_ rfl rfl; first | assumption | apply State.wr_keeps | apply State.dmaMove_keeps | apply State.freePark_keeps | apply State.endJob_keeps | apply ite_keeps | split) | (dsimp +zetaDelta only)

theorem execDmaComplete_keeps {s₀ : State} (r : Fin 4096) (idx : Word) (data : List Byte) {s : State} (h : Keeps s₀ s) : KeepsOut s₀ (execDmaComplete r idx data s) := by
  unfold execDmaComplete
  with_reducible repeat' first | apply KeepsOut.next | assumption | apply State.wr_keeps | apply State.dmaComplete_keeps

end Sys2Proof.Machine
end

