-- ==== Sys2Proof/Laws/Keeps/Ingest.lean ====
section
/-!
SUPPORT. Sys2Proof/Laws/Keeps/Ingest.lean: what each operation of Machine/Ingest.lean keeps (Keeps of Safety.lean).
-/
namespace Sys2Proof.Machine
set_option linter.all false

theorem State.setFlow_keeps {s₀ : State} {s : State} (i : Nat) (x : Option FlowEnt) (h : Keeps s₀ s) : Keeps s₀ (State.setFlow s i x) := by
  unfold State.setFlow
  with_reducible repeat' first | assumption | apply State.wr_keeps | (intro _) | (refine Keeps.mk' ?_ rfl rfl; first | assumption | apply State.wr_keeps)

theorem State.flowFail_keeps {s₀ : State} {s : State} (code : Nat) (h : Keeps s₀ s) : Keeps s₀ (State.flowFail s code) := by
  unfold State.flowFail
  with_reducible repeat' first | assumption | apply State.wr_keeps | apply State.refuse_keeps

theorem State.flowOk_keeps {s₀ : State} {s : State} (h : Keeps s₀ s) : Keeps s₀ (State.flowOk s) := by
  unfold State.flowOk
  with_reducible repeat' first | assumption | apply State.wr_keeps | apply State.reason_keeps

theorem State.showFill_keeps {s₀ : State} {s : State} (h : Keeps s₀ s) : Keeps s₀ (State.showFill s) := by
  unfold State.showFill
  with_reducible repeat' first | assumption | apply State.wr_keeps

theorem State.flowAdd_keeps {s₀ : State} {s : State} (h : Keeps s₀ s) : Keeps s₀ (State.flowAdd s) := by
  unfold State.flowAdd
  try extract_lets
  with_reducible repeat' first | assumption | apply State.wr_keeps | apply State.flowFail_keeps | apply State.setFlow_keeps | apply State.tick_keeps | apply State.flowOk_keeps | apply State.showFill_keeps | (intro _) | apply ite_keeps | split | (refine Keeps.mk' ?_ rfl rfl; first | assumption | apply State.wr_keeps | apply State.flowFail_keeps | apply State.setFlow_keeps | apply State.tick_keeps | apply State.flowOk_keeps | apply State.showFill_keeps | apply ite_keeps | split) | (dsimp +zetaDelta only)

theorem execFlowAdd_keeps {s₀ : State} {s : State} (h : Keeps s₀ s) : KeepsOut s₀ (execFlowAdd s) := by
  unfold execFlowAdd
  with_reducible repeat' first | apply KeepsOut.next | assumption | apply State.wr_keeps | apply State.flowAdd_keeps

theorem State.flowReplace_keeps {s₀ : State} {s : State} (h : Keeps s₀ s) : Keeps s₀ (State.flowReplace s) := by
  unfold State.flowReplace
  try extract_lets
  with_reducible repeat' first | assumption | apply State.wr_keeps | apply State.flowFail_keeps | apply State.setFlow_keeps | apply State.flowOk_keeps | apply ite_keeps | split | (refine Keeps.mk' ?_ rfl rfl; first | assumption | apply State.wr_keeps | apply State.flowFail_keeps | apply State.setFlow_keeps | apply State.flowOk_keeps | apply ite_keeps | split) | (dsimp +zetaDelta only)

theorem execFlowReplace_keeps {s₀ : State} {s : State} (h : Keeps s₀ s) : KeepsOut s₀ (execFlowReplace s) := by
  unfold execFlowReplace
  with_reducible repeat' first | apply KeepsOut.next | assumption | apply State.wr_keeps | apply State.flowReplace_keeps

theorem State.flowDelete_keeps {s₀ : State} {s : State} (i : Nat) (h : Keeps s₀ s) : Keeps s₀ (State.flowDelete s i) := by
  unfold State.flowDelete
  with_reducible repeat' first | assumption | apply State.wr_keeps | apply State.flowFail_keeps | apply State.setFlow_keeps | apply State.flowOk_keeps | apply State.showFill_keeps | apply ite_keeps | split | (refine Keeps.mk' ?_ rfl rfl; first | assumption | apply State.wr_keeps | apply State.flowFail_keeps | apply State.setFlow_keeps | apply State.flowOk_keeps | apply State.showFill_keeps | apply ite_keeps | split)

theorem execFlowDelete_keeps {s₀ : State} (i : Fin 65536) {s : State} (h : Keeps s₀ s) : KeepsOut s₀ (execFlowDelete i s) := by
  unfold execFlowDelete
  with_reducible repeat' first | apply KeepsOut.next | assumption | apply State.wr_keeps | apply State.flowDelete_keeps

theorem State.flowRead_keeps {s₀ : State} {s : State} (i : Nat) (h : Keeps s₀ s) : Keeps s₀ (State.flowRead s i) := by
  unfold State.flowRead
  try extract_lets
  with_reducible repeat' first | assumption | apply State.wr_keeps | apply State.flowFail_keeps | apply State.forRange_keeps | apply State.setReg_keeps | apply State.flowOk_keeps | (intro _) | split | (refine Keeps.mk' ?_ rfl rfl; first | assumption | apply State.wr_keeps | apply State.flowFail_keeps | apply State.forRange_keeps | apply State.setReg_keeps | apply State.flowOk_keeps | split) | (dsimp +zetaDelta only)

theorem execFlowRead_keeps {s₀ : State} (i : Fin 65536) {s : State} (h : Keeps s₀ s) : KeepsOut s₀ (execFlowRead i s) := by
  unfold execFlowRead
  with_reducible repeat' first | apply KeepsOut.next | assumption | apply State.wr_keeps | apply State.flowRead_keeps

theorem State.flowOpWrite_keeps {s₀ : State} {s : State} (v : Word) (h : Keeps s₀ s) : Keeps s₀ (State.flowOpWrite s v) := by
  unfold State.flowOpWrite
  with_reducible repeat' first | assumption | apply State.wr_keeps | apply State.flowReplace_keeps | apply State.flowAdd_keeps | apply State.flowDelete_keeps | apply State.flowRead_keeps | apply ite_keeps | split | (refine Keeps.mk' ?_ rfl rfl; first | assumption | apply State.wr_keeps | apply State.flowReplace_keeps | apply State.flowAdd_keeps | apply State.flowDelete_keeps | apply State.flowRead_keeps | apply ite_keeps | split)

theorem State.setIngCh_keeps {s₀ : State} {s : State} (c : Nat) (x : IngCh) (h : Keeps s₀ s) : Keeps s₀ (State.setIngCh s c x) := by
  unfold State.setIngCh
  with_reducible repeat' first | assumption | apply State.wr_keeps | (intro _) | (refine Keeps.mk' ?_ rfl rfl; first | assumption | apply State.wr_keeps)

theorem State.setIngState_keeps {s₀ : State} {s : State} (c : Nat) (st : Nat) (ev : Bool) (h : Keeps s₀ s) : Keeps s₀ (State.setIngState s c st ev) := by
  unfold State.setIngState
  try extract_lets
  with_reducible repeat' first | assumption | apply State.wr_keeps | apply State.event_keeps | apply ite_keeps | split | (dsimp +zetaDelta only)

theorem State.setFrameRx_keeps {s₀ : State} {s : State} (c : Nat) (n : Nat) (x : FrameRx) (h : Keeps s₀ s) : Keeps s₀ (State.setFrameRx s c n x) := by
  unfold State.setFrameRx
  try extract_lets
  with_reducible repeat' first | assumption | apply State.wr_keeps | apply State.setIngCh_keeps | (intro _) | (refine Keeps.mk' ?_ rfl rfl; first | assumption | apply State.wr_keeps | apply State.setIngCh_keeps) | (dsimp +zetaDelta only)

theorem State.fsPut_keeps {s₀ : State} {s : State} (c : Nat) (slot : Nat) (x : Nat) (y : Nat) (ps : List (Nat × Nat × Nat)) (h : Keeps s₀ s) : Keeps s₀ (State.fsPut s c slot x y ps) := by
  unfold State.fsPut
  try extract_lets
  with_reducible repeat' first | assumption | apply State.wr_keeps | apply State.hbmBits_keeps | apply State.snoopBits_keeps | apply foldl_keeps | (intro _) | apply ite_keeps | split | (dsimp +zetaDelta only)

theorem State.fsTake_keeps {s₀ : State} {s : State} (c : Nat) (n : Nat) (h : Keeps s₀ s) : Keeps s₀ (State.fsTake s c n) := by
  unfold State.fsTake
  try extract_lets
  with_reducible repeat' first | assumption | apply State.wr_keeps | apply State.setIngCh_keeps | (intro _) | apply ite_keeps | split | (refine Keeps.mk' ?_ rfl rfl; first | assumption | apply State.wr_keeps | apply State.setIngCh_keeps | apply ite_keeps | split) | (dsimp +zetaDelta only)

theorem State.fsMend_keeps {s₀ : State} {s : State} (c : Nat) (n : Nat) (l : Nat) (h : Keeps s₀ s) : Keeps s₀ (State.fsMend s c n l) := by
  unfold State.fsMend
  try extract_lets
  with_reducible repeat' first | assumption | apply State.wr_keeps | apply State.fsTake_keeps | apply State.fsPut_keeps | (intro _) | split | (refine Keeps.mk' ?_ rfl rfl; first | assumption | apply State.wr_keeps | apply State.fsTake_keeps | apply State.fsPut_keeps | split) | (dsimp +zetaDelta only)

theorem State.judge_keeps {s₀ : State} {s : State} (c : Nat) (n : Nat) (damaged : Nat) (sub : List (Nat × Option Nat)) (h : Keeps s₀ s) : Keeps s₀ (State.judge s c n damaged sub) := by
  unfold State.judge
  try extract_lets
  with_reducible repeat' first | assumption | apply State.wr_keeps | apply State.inc_keeps | apply State.setIngCh_keeps | apply State.setIngState_keeps | (intro _) | apply ite_keeps | split | (refine Keeps.mk' ?_ rfl rfl; first | assumption | apply State.wr_keeps | apply State.inc_keeps | apply State.setIngCh_keeps | apply State.setIngState_keeps | apply ite_keeps | split) | (dsimp +zetaDelta only)

theorem State.closeFrame_keeps {s₀ : State} {s : State} (c : Nat) (n : Nat) (h : Keeps s₀ s) : Keeps s₀ (State.closeFrame s c n) := by
  unfold State.closeFrame
  try extract_lets
  with_reducible repeat' first | assumption | apply State.wr_keeps | apply State.fsMend_keeps | apply State.add_keeps | apply State.judge_keeps | apply foldl_keeps | (intro _) | (dsimp +zetaDelta only)

theorem State.showMargin_keeps {s₀ : State} {s : State} (c : Nat) (n : Nat) (neg : Nat) (h : Keeps s₀ s) : Keeps s₀ (State.showMargin s c n neg) := by
  unfold State.showMargin
  try extract_lets
  with_reducible repeat' first | assumption | apply State.wr_keeps | apply State.wrS_keeps | apply State.setIngCh_keeps | apply State.event_keeps | apply elim_keeps | (intro _) | apply ite_keeps | split | (refine Keeps.mk' ?_ rfl rfl; first | assumption | apply State.wr_keeps | apply State.wrS_keeps | apply State.setIngCh_keeps | apply State.event_keeps | apply elim_keeps | apply ite_keeps | split) | (dsimp +zetaDelta only)

theorem State.lockedLine_keeps {s₀ : State} {s : State} (c : Nat) (n : Nat) (l : Nat) (h : Keeps s₀ s) : Keeps s₀ (State.lockedLine s c n l) := by
  unfold State.lockedLine
  try extract_lets
  with_reducible repeat' first | assumption | apply State.wr_keeps | apply State.fsMend_keeps | apply State.setIngCh_keeps | apply State.inc_keeps | (intro _) | apply ite_keeps | split | (refine Keeps.mk' ?_ rfl rfl; first | assumption | apply State.wr_keeps | apply State.fsMend_keeps | apply State.setIngCh_keeps | apply State.inc_keeps | apply ite_keeps | split) | (dsimp +zetaDelta only)

theorem State.ingLine_keeps {s₀ : State} {s : State} (c : Nat) (h : Keeps s₀ s) : Keeps s₀ (State.ingLine s c) := by
  unfold State.ingLine
  try extract_lets
  with_reducible repeat' first | assumption | apply State.wr_keeps | apply State.lockedLine_keeps | apply State.setIngCh_keeps | apply State.showMargin_keeps | apply State.judge_keeps | apply ite_keeps | split | (refine Keeps.mk' ?_ rfl rfl; first | assumption | apply State.wr_keeps | apply State.lockedLine_keeps | apply State.setIngCh_keeps | apply State.showMargin_keeps | apply State.judge_keeps | apply ite_keeps | split) | (dsimp +zetaDelta only)

theorem State.validData_keeps {s₀ : State} {s : State} (c : Nat) (h : Keeps s₀ s) : Keeps s₀ (State.validData s c) := by
  unfold State.validData
  with_reducible repeat' first | assumption | apply State.wr_keeps | apply State.setIngCh_keeps | (refine Keeps.mk' ?_ rfl rfl; first | assumption | apply State.wr_keeps | apply State.setIngCh_keeps)

theorem State.putRow_keeps {s₀ : State} {s : State} (c : Nat) (n : Nat) (r : IngRow) (h : Keeps s₀ s) : Keeps s₀ (State.putRow s c n r) := by
  unfold State.putRow
  try extract_lets
  with_reducible repeat' first | assumption | apply State.wr_keeps | apply State.fsTake_keeps | apply State.fsPut_keeps | apply State.setFrameRx_keeps | (intro _) | apply ite_keeps | split | (dsimp +zetaDelta only)

theorem State.framesEnd_keeps {s₀ : State} {s : State} (c : Nat) (n : Nat) (h : Keeps s₀ s) : Keeps s₀ (State.framesEnd s c n) := by
  unfold State.framesEnd
  with_reducible repeat' first | assumption | apply State.wr_keeps | apply State.closeFrame_keeps | apply foldl_keeps | (intro _) | apply ite_keeps | split

theorem State.frameAdvance_keeps {s₀ : State} {s : State} (c : Nat) (n : Nat) (h : Keeps s₀ s) : Keeps s₀ (State.frameAdvance s c n) := by
  unfold State.frameAdvance
  with_reducible repeat' first | assumption | apply State.wr_keeps | apply State.closeFrame_keeps | (intro _) | apply ite_keeps | split

theorem State.putRows_keeps {s₀ : State} {s : State} (c : Nat) (n : Nat) (rs : List IngRow) (h : Keeps s₀ s) : Keeps s₀ (State.putRows s c n rs) := by
  unfold State.putRows
  try extract_lets
  with_reducible repeat' first | assumption | apply State.wr_keeps | apply State.when_keeps | apply State.validData_keeps | apply State.putRow_keeps | apply State.framesEnd_keeps | apply State.frameAdvance_keeps | apply foldl_keeps | (intro _) | apply ite_keeps | split | (dsimp +zetaDelta only)

theorem State.ancPut_keeps {s₀ : State} {s : State} (c : Nat) (bs : List Byte) (h : Keeps s₀ s) : Keeps s₀ (State.ancPut s c bs) := by
  unfold State.ancPut
  try extract_lets
  with_reducible repeat' first | assumption | apply State.wr_keeps | apply State.hbmWrite_keeps | apply foldl_keeps | (intro _) | (dsimp +zetaDelta only)

theorem State.ancKeep_keeps {s₀ : State} {s : State} (c : Nat) (n : Nat) (a : AncPkt) (h : Keeps s₀ s) : Keeps s₀ (State.ancKeep s c n a) := by
  unfold State.ancKeep
  try extract_lets
  with_reducible repeat' first | assumption | apply State.wr_keeps | apply State.setIngCh_keeps | apply State.ancPut_keeps | apply ite_keeps | split | (refine Keeps.mk' ?_ rfl rfl; first | assumption | apply State.wr_keeps | apply State.setIngCh_keeps | apply State.ancPut_keeps | apply ite_keeps | split) | (dsimp +zetaDelta only)

theorem State.ancTake_keeps {s₀ : State} {s : State} (c : Nat) (n : Nat) (a : AncPkt) (h : Keeps s₀ s) : Keeps s₀ (State.ancTake s c n a) := by
  unfold State.ancTake
  with_reducible repeat' first | assumption | apply State.wr_keeps | apply State.inc_keeps | apply State.ancKeep_keeps | apply State.setIngCh_keeps | (intro _) | apply ite_keeps | split | (refine Keeps.mk' ?_ rfl rfl; first | assumption | apply State.wr_keeps | apply State.inc_keeps | apply State.ancKeep_keeps | apply State.setIngCh_keeps | apply ite_keeps | split)

theorem State.ancRead_keeps {s₀ : State} {s : State} (c : Nat) (p : Nat → Bool) (h : Keeps s₀ s) : Keeps s₀ (State.ancRead s c p) := by
  unfold State.ancRead
  try extract_lets
  with_reducible repeat' first | assumption | apply State.wr_keeps | apply State.setIngCh_keeps | apply State.ancKeep_keeps | apply foldl_keeps | (intro _) | (refine Keeps.mk' ?_ rfl rfl; first | assumption | apply State.wr_keeps | apply State.setIngCh_keeps | apply State.ancKeep_keeps | apply foldl_keeps) | (dsimp +zetaDelta only)

theorem State.content_keeps {s₀ : State} {s : State} (i : Nat) (ws : List Word) (x : IngPkt) (h : Keeps s₀ s) : Keeps s₀ (State.content s i ws x) := by
  unfold State.content
  try extract_lets
  with_reducible repeat' first | assumption | apply State.wr_keeps | apply State.audRtp_keeps | apply State.ancTake_keeps | apply State.putRows_keeps | apply foldl_keeps | (intro _) | apply ite_keeps | split | (refine Keeps.mk' ?_ rfl rfl; first | assumption | apply State.wr_keeps | apply State.audRtp_keeps | apply State.ancTake_keeps | apply State.putRows_keeps | apply foldl_keeps | apply ite_keeps | split) | (dsimp +zetaDelta only)

theorem State.ingPacket_keeps {s₀ : State} {s : State} (x : IngPkt) (h : Keeps s₀ s) : Keeps s₀ (State.ingPacket s x) := by
  unfold State.ingPacket
  try extract_lets
  with_reducible repeat' first | assumption | apply State.wr_keeps | apply State.stampRx_keeps | apply State.inc_keeps | apply State.when_keeps | apply State.ptpDeliver_keeps | apply State.setFlow_keeps | apply State.content_keeps | (intro _) | apply ite_keeps | split | (refine Keeps.mk' ?_ rfl rfl; first | assumption | apply State.wr_keeps | apply State.stampRx_keeps | apply State.inc_keeps | apply State.when_keeps | apply State.ptpDeliver_keeps | apply State.setFlow_keeps | apply State.content_keeps | apply ite_keeps | split) | (dsimp +zetaDelta only)

theorem execIngPacket_keeps {s₀ : State} (x : IngPkt) {s : State} (h : Keeps s₀ s) : KeepsOut s₀ (execIngPacket x s) := by
  unfold execIngPacket
  with_reducible repeat' first | apply KeepsOut.next | assumption | apply State.wr_keeps | apply State.when_keeps | apply State.ingPacket_keeps | (intro _)

theorem State.sdiLine_keeps {s₀ : State} {s : State} (c : Nat) (x : SdiLine) (h : Keeps s₀ s) : Keeps s₀ (State.sdiLine s c x) := by
  unfold State.sdiLine
  try extract_lets
  with_reducible repeat' first | assumption | apply State.wr_keeps | apply State.setFrameRx_keeps | apply State.putRows_keeps | apply State.validData_keeps | apply State.setIngCh_keeps | apply State.audSdi_keeps | apply State.ancTake_keeps | apply foldl_keeps | (intro _) | apply ite_keeps | split | (refine Keeps.mk' ?_ rfl rfl; first | assumption | apply State.wr_keeps | apply State.setFrameRx_keeps | apply State.putRows_keeps | apply State.validData_keeps | apply State.setIngCh_keeps | apply State.audSdi_keeps | apply State.ancTake_keeps | apply foldl_keeps | apply ite_keeps | split) | (dsimp +zetaDelta only)

theorem State.mirrorOut_keeps {s₀ : State} {s : State} (c : Nat) (x : SdiLine) (h : Keeps s₀ s) : Keeps s₀ (State.mirrorOut s c x) := by
  unfold State.mirrorOut
  with_reducible repeat' first | assumption | apply State.wr_keeps | apply State.send_keeps | apply foldl_keeps | (intro _) | apply ite_keeps | split

theorem execSdiLine_keeps {s₀ : State} (c : Fin 96) (x : SdiLine) {s : State} (h : Keeps s₀ s) : KeepsOut s₀ (execSdiLine c x s) := by
  unfold execSdiLine
  with_reducible repeat' first | apply KeepsOut.next | assumption | apply State.wr_keeps | apply State.when_keeps | apply State.sdiLine_keeps | apply State.mirrorOut_keeps | (intro _)

theorem State.ingLoss_keeps {s₀ : State} {s : State} (c : Nat) (h : Keeps s₀ s) : Keeps s₀ (State.ingLoss s c) := by
  unfold State.ingLoss
  with_reducible repeat' first | assumption | apply State.wr_keeps | apply State.setIngCh_keeps | apply State.inc_keeps | apply State.setIngState_keeps | apply ite_keeps | split | (refine Keeps.mk' ?_ rfl rfl; first | assumption | apply State.wr_keeps | apply State.setIngCh_keeps | apply State.inc_keeps | apply State.setIngState_keeps | apply ite_keeps | split)

theorem execIngLossTimeout_keeps {s₀ : State} (c : Fin 96) {s : State} (h : Keeps s₀ s) : KeepsOut s₀ (execIngLossTimeout c s) := by
  unfold execIngLossTimeout
  with_reducible repeat' first | apply KeepsOut.next | assumption | apply State.wr_keeps | apply State.ingLoss_keeps

theorem State.fsyncSelect_keeps {s₀ : State} {s : State} (c : Nat) (h : Keeps s₀ s) : Keeps s₀ (State.fsyncSelect s c) := by
  unfold State.fsyncSelect
  try extract_lets
  with_reducible repeat' first | assumption | apply State.wr_keeps | apply State.inc_keeps | apply State.add_keeps | apply State.setIngCh_keeps | apply State.ancRead_keeps | (intro _) | apply ite_keeps | split | (refine Keeps.mk' ?_ rfl rfl; first | assumption | apply State.wr_keeps | apply State.inc_keeps | apply State.add_keeps | apply State.setIngCh_keeps | apply State.ancRead_keeps | apply ite_keeps | split) | (dsimp +zetaDelta only)

theorem State.ingFrameStart_keeps {s₀ : State} {s : State} (c : Nat) (h : Keeps s₀ s) : Keeps s₀ (State.ingFrameStart s c) := by
  unfold State.ingFrameStart
  try extract_lets
  with_reducible repeat' first | assumption | apply State.wr_keeps | apply State.setIngCh_keeps | apply State.fsyncSelect_keeps | apply State.ancRead_keeps | (intro _) | apply ite_keeps | split | (refine Keeps.mk' ?_ rfl rfl; first | assumption | apply State.wr_keeps | apply State.setIngCh_keeps | apply State.fsyncSelect_keeps | apply State.ancRead_keeps | apply ite_keeps | split) | (dsimp +zetaDelta only)

theorem State.ingCommit_keeps {s₀ : State} (o : State) {s : State} (c : Nat) (h : Keeps s₀ s) : Keeps s₀ (State.ingCommit o s c) := by
  unfold State.ingCommit
  with_reducible repeat' first | assumption | apply State.wr_keeps | apply State.setIngCh_keeps | apply State.setIngState_keeps | apply ite_keeps | split | (refine Keeps.mk' ?_ rfl rfl; first | assumption | apply State.wr_keeps | apply State.setIngCh_keeps | apply State.setIngState_keeps | apply ite_keeps | split)

end Sys2Proof.Machine
end

