-- ==== Sys2Proof/Laws/Keeps/Pixel.lean ====
section
/-!
SUPPORT. Sys2Proof/Laws/Keeps/Pixel.lean: what each operation of Machine/Pixel.lean keeps (Keeps of Safety.lean).
-/
namespace Sys2Proof.Machine
set_option linter.all false

theorem State.setLut_keeps {s₀ : State} {s : State} (d : Nat) (k : Nat) (bank : Nat) (table : Nat) (idx : Nat) (v : Nat) (h : Keeps s₀ s) : Keeps s₀ (State.setLut s d k bank table idx v) := by
  unfold State.setLut
  with_reducible repeat' first | assumption | apply State.wr_keeps | (refine Keeps.mk' ?_ rfl rfl; first | assumption | apply State.wr_keeps)

end Sys2Proof.Machine
end

