-- ==== Sys2Proof/Laws/Keeps/Canvas.lean ====
section
/-!
SUPPORT. Sys2Proof/Laws/Keeps/Canvas.lean: what each operation of Machine/Canvas.lean keeps (Keeps of Safety.lean).
-/
namespace Sys2Proof.Machine
set_option linter.all false

theorem State.setSlotSt_keeps {s₀ : State} {s : State} (d : Nat) (k : Nat) (x : SlotSt) (h : Keeps s₀ s) : Keeps s₀ (State.setSlotSt s d k x) := by
  unfold State.setSlotSt
  with_reducible repeat' first | assumption | apply State.wr_keeps | (intro _) | (refine Keeps.mk' ?_ rfl rfl; first | assumption | apply State.wr_keeps)

theorem State.setLayerSt_keeps {s₀ : State} {s : State} (d : Nat) (k : Nat) (l : Nat) (x : LayerSt) (h : Keeps s₀ s) : Keeps s₀ (State.setLayerSt s d k l x) := by
  unfold State.setLayerSt
  try extract_lets
  with_reducible repeat' first | assumption | apply State.wr_keeps | apply State.setSlotSt_keeps | (intro _) | (refine Keeps.mk' ?_ rfl rfl; first | assumption | apply State.wr_keeps | apply State.setSlotSt_keeps) | (dsimp +zetaDelta only)

theorem State.buildPlane_keeps {s₀ : State} {s : State} (d : Nat) (k : Nat) (n : Nat) (run : Nat × Nat) (h : Keeps s₀ s) : Keeps s₀ (State.buildPlane s d k n run) := by
  unfold State.buildPlane
  try extract_lets
  with_reducible repeat' first | assumption | apply State.wr_keeps | apply State.forRange_keeps | apply State.snoopBits_keeps | apply State.hbmPut_keeps | (intro _) | (dsimp +zetaDelta only)

theorem State.mapLayer_keeps {s₀ : State} {s : State} (d : Nat) (k : Nat) (l : Nat) (h : Keeps s₀ s) : Keeps s₀ (State.mapLayer s d k l) := by
  unfold State.mapLayer
  with_reducible repeat' first | assumption | apply State.wr_keeps | apply State.setLayerSt_keeps | (refine Keeps.mk' ?_ rfl rfl; first | assumption | apply State.wr_keeps | apply State.setLayerSt_keeps)

theorem State.writeBand_keeps {s₀ s : State} (d k n band : Nat) (h : Keeps s₀ s) : Keeps s₀ (s.writeBand d k n band) := by
  unfold State.writeBand
  extract_lets
  refine foldl_keeps (fun u x hu => ?_) (State.snoopBits_keeps _ _ _ (State.snoopBits_keeps _ _ _ h))
  obtain ⟨x, y, v⟩ := x
  have g := fun p n v => State.hbmBits_keeps d p n v hu
  exact ite_keeps (State.hbmBits_keeps _ _ _ _ (State.hbmBits_keeps _ _ _ _ (g _ _ _))) (g _ _ _)

end Sys2Proof.Machine
end

