-- ==== Sys2Proof/Laws/Keeps/Compose.lean ====
section
/-!
SUPPORT. Sys2Proof/Laws/Keeps/Compose.lean: what each operation of Machine/Compose.lean keeps (Keeps of Safety.lean).
-/
namespace Sys2Proof.Machine
set_option linter.all false

theorem State.layerStart_keeps {s₀ : State} {s : State} (r : Nat) (x : Desc) (h : Keeps s₀ s) : Keeps s₀ (State.layerStart s r x) := by
  unfold State.layerStart
  try extract_lets
  with_reducible repeat' first | assumption | apply State.wr_keeps | apply State.startJob_keeps | apply State.setLayerSt_keeps | split | (refine Keeps.mk' ?_ rfl rfl; first | assumption | apply State.wr_keeps | apply State.startJob_keeps | apply State.setLayerSt_keeps | split) | (dsimp +zetaDelta only)

theorem execLayerSrc_keeps {s₀ : State} (r : Fin 4096) {s : State} (h : Keeps s₀ s) : KeepsOut s₀ (execLayerSrc r s) := by
  unfold execLayerSrc
  with_reducible repeat' first | apply KeepsOut.next | assumption | apply State.wr_keeps | apply State.dispatch_keeps | apply State.layerStart_keeps | (intro _)

theorem State.showLayer_keeps {s₀ : State} {s : State} (d : Nat) (k : Nat) (l : Nat) (h : Keeps s₀ s) : Keeps s₀ (State.showLayer s d k l) := by
  unfold State.showLayer
  try extract_lets
  with_reducible repeat' first | assumption | apply State.wr_keeps | split | (refine Keeps.mk' ?_ rfl rfl; first | assumption | apply State.wr_keeps | split) | (dsimp +zetaDelta only)

theorem State.showRuns_keeps {s₀ : State} {s : State} (d : Nat) (k : Nat) (h : Keeps s₀ s) : Keeps s₀ (State.showRuns s d k) := by
  unfold State.showRuns
  try extract_lets
  with_reducible repeat' first | assumption | apply State.wr_keeps | (intro _) | apply ite_keeps | split | (dsimp +zetaDelta only)

theorem State.staleAt_keeps {s₀ : State} {s : State} (d : Nat) (k : Nat) (l : Nat) (h : Keeps s₀ s) : Keeps s₀ (State.staleAt s d k l) := by
  unfold State.staleAt
  try extract_lets
  with_reducible repeat' first | assumption | apply State.wr_keeps | apply State.setSlotSt_keeps | apply State.showRuns_keeps | (intro _) | (refine Keeps.mk' ?_ rfl rfl; first | assumption | apply State.wr_keeps | apply State.setSlotSt_keeps | apply State.showRuns_keeps) | (dsimp +zetaDelta only)

theorem State.takeReady_keeps {s₀ : State} {s : State} (d : Nat) (k : Nat) (l : Nat) (latch : Nat) (h : Keeps s₀ s) : Keeps s₀ (State.takeReady s d k l latch).1 := by
  unfold State.takeReady
  try extract_lets
  with_reducible repeat' first | assumption | apply State.wr_keeps | apply State.setLayerSt_keeps | apply State.inc_keeps | apply State.event_keeps | apply State.staleAt_keeps | apply State.showLayer_keeps | apply State.mapLayer_keeps | apply ite_keeps | split | (refine Keeps.mk' ?_ rfl rfl; first | assumption | apply State.wr_keeps | apply State.setLayerSt_keeps | apply State.inc_keeps | apply State.event_keeps | apply State.staleAt_keeps | apply State.showLayer_keeps | apply State.mapLayer_keeps | apply ite_keeps | split) | (dsimp +zetaDelta only)

theorem State.unready_keeps {s₀ : State} {s : State} (d : Nat) (k : Nat) (l : Nat) (have_ : Bool) (h : Keeps s₀ s) : Keeps s₀ (State.unready s d k l have_) := by
  unfold State.unready
  try extract_lets
  with_reducible repeat' first | assumption | apply State.wr_keeps | apply State.setLayerSt_keeps | apply State.inc_keeps | split | (refine Keeps.mk' ?_ rfl rfl; first | assumption | apply State.wr_keeps | apply State.setLayerSt_keeps | apply State.inc_keeps | split) | (dsimp +zetaDelta only)

theorem State.latchLayer_keeps {s₀ : State} {s : State} (d : Nat) (k : Nat) (latch : Nat) (l : Nat) (h : Keeps s₀ s) : Keeps s₀ (State.latchLayer s d k latch l) := by
  unfold State.latchLayer
  try extract_lets
  with_reducible repeat' first | assumption | apply State.wr_keeps | apply State.setLayerSt_keeps | apply State.unready_keeps | apply State.takeReady_keeps | apply State.inc_keeps | apply State.mapLayer_keeps | refine Keeps.fst ‹_ = (_, _)› ?_ | (intro _) | apply ite_keeps | split | (refine Keeps.mk' ?_ rfl rfl; first | assumption | apply State.wr_keeps | apply State.setLayerSt_keeps | apply State.unready_keeps | apply State.takeReady_keeps | apply State.inc_keeps | apply State.mapLayer_keeps | apply ite_keeps | split) | (dsimp +zetaDelta only)

theorem State.dropLayer_keeps {s₀ : State} {s : State} (d : Nat) (k : Nat) (l : Nat) (h : Keeps s₀ s) : Keeps s₀ (State.dropLayer s d k l) := by
  unfold State.dropLayer
  with_reducible repeat' first | assumption | apply State.wr_keeps | apply State.setLayerSt_keeps | apply State.showLayer_keeps

theorem State.takeUp_keeps {s₀ : State} {s : State} (d : Nat) (k : Nat) (h : Keeps s₀ s) : Keeps s₀ (State.takeUp s d k) := by
  unfold State.takeUp
  try extract_lets
  with_reducible repeat' first | assumption | apply State.wr_keeps | apply State.setSlotSt_keeps | apply State.forRange_keeps | apply State.dropLayer_keeps | apply State.setLayerSt_keeps | apply State.showRuns_keeps | apply State.mapLayer_keeps | (intro _) | apply ite_keeps | split | (refine Keeps.mk' ?_ rfl rfl; first | assumption | apply State.wr_keeps | apply State.setSlotSt_keeps | apply State.forRange_keeps | apply State.dropLayer_keeps | apply State.setLayerSt_keeps | apply State.showRuns_keeps | apply State.mapLayer_keeps | apply ite_keeps | split) | (dsimp +zetaDelta only)

theorem State.slotRelease_keeps {s₀ : State} {s : State} (d : Nat) (k : Nat) (h : Keeps s₀ s) : Keeps s₀ (State.slotRelease s d k) := by
  unfold State.slotRelease
  try extract_lets
  with_reducible repeat' first | assumption | apply State.wr_keeps | apply State.forRange_keeps | apply State.dropLayer_keeps | apply State.setSlotSt_keeps | apply State.showRuns_keeps | (intro _) | (dsimp +zetaDelta only)

theorem State.cmpFrameStart_keeps {s₀ : State} {s : State} (c : Nat) (d : Nat) (k : Nat) (h : Keeps s₀ s) : Keeps s₀ (State.cmpFrameStart s c d k) := by
  unfold State.cmpFrameStart
  try extract_lets
  with_reducible repeat' first | assumption | apply State.wr_keeps | apply State.takeUp_keeps | apply State.forRange_keeps | apply State.latchLayer_keeps | (intro _) | (dsimp +zetaDelta only)

theorem State.decWaitDone_keeps {s₀ : State} {s : State} (d : Nat) (k : Nat) (l : Nat) (h : Keeps s₀ s) : Keeps s₀ (State.decWaitDone s d k l) := by
  unfold State.decWaitDone
  try extract_lets
  with_reducible repeat' first | assumption | apply State.wr_keeps | apply State.setLayerSt_keeps | apply State.mapLayer_keeps | apply State.setSlotSt_keeps | apply State.inc_keeps | (intro _) | apply ite_keeps | split | (refine Keeps.mk' ?_ rfl rfl; first | assumption | apply State.wr_keeps | apply State.setLayerSt_keeps | apply State.mapLayer_keeps | apply State.setSlotSt_keeps | apply State.inc_keeps | apply ite_keeps | split) | (dsimp +zetaDelta only)

theorem State.waitDone_keeps {s₀ : State} {s : State} (d : Nat) (k : Nat) (l : Nat) (h : Keeps s₀ s) : Keeps s₀ (State.waitDone s d k l) := by
  unfold State.waitDone
  try extract_lets
  with_reducible repeat' first | assumption | apply State.wr_keeps | apply State.decWaitDone_keeps | apply State.takeReady_keeps | apply State.setLayerSt_keeps | apply State.setSlotSt_keeps | apply State.inc_keeps | refine Keeps.fst ‹_ = (_, _)› ?_ | apply ite_keeps | split | (refine Keeps.mk' ?_ rfl rfl; first | assumption | apply State.wr_keeps | apply State.decWaitDone_keeps | apply State.takeReady_keeps | apply State.setLayerSt_keeps | apply State.setSlotSt_keeps | apply State.inc_keeps | apply ite_keeps | split) | (dsimp +zetaDelta only)

theorem State.decReleased_keeps {s₀ : State} {s : State} (d : Nat) (st : Nat) (h : Keeps s₀ s) : Keeps s₀ (State.decReleased s d st) := by
  unfold State.decReleased
  with_reducible repeat' first | assumption | apply State.wr_keeps | apply State.forRange_keeps | apply State.waitDone_keeps | (intro _) | apply ite_keeps | split

theorem State.fillImage_keeps {s₀ : State} {s : State} (d : Nat) (i : Img) (y0 : Nat) (data : List Byte) (h : Keeps s₀ s) : Keeps s₀ (State.fillImage s d i y0 data) := by
  unfold State.fillImage
  try extract_lets
  with_reducible repeat' first | assumption | apply State.wr_keeps | apply State.forRange_keeps | apply State.hbmWrite_keeps | (intro _) | (dsimp +zetaDelta only)

theorem State.layerLines_keeps {s₀ : State} {s : State} (key : Nat) (j : Job) (n : Nat) (data : List Byte) (h : Keeps s₀ s) : Keeps s₀ (State.layerLines s key j n data) := by
  unfold State.layerLines
  try extract_lets
  with_reducible repeat' first | assumption | apply State.wr_keeps | apply State.fillImage_keeps | apply State.setLayerSt_keeps | apply ite_keeps | split | (refine Keeps.mk' ?_ rfl rfl; first | assumption | apply State.wr_keeps | apply State.fillImage_keeps | apply State.setLayerSt_keeps | apply ite_keeps | split) | (dsimp +zetaDelta only)

theorem State.fillDrop_keeps {s₀ : State} {s : State} (d : Nat) (k : Nat) (l : Nat) (h : Keeps s₀ s) : Keeps s₀ (State.fillDrop s d k l) := by
  unfold State.fillDrop
  try extract_lets
  with_reducible repeat' first | assumption | apply State.wr_keeps | apply State.fill_keeps | apply State.fillImage_keeps | apply State.tick_keeps | apply State.setLayerSt_keeps | apply ite_keeps | split | (refine Keeps.mk' ?_ rfl rfl; first | assumption | apply State.wr_keeps | apply State.fill_keeps | apply State.fillImage_keeps | apply State.tick_keeps | apply State.setLayerSt_keeps | apply ite_keeps | split) | (dsimp +zetaDelta only)

theorem State.imageReady_keeps {s₀ : State} {s : State} (r : Fin 4096) (idx : Word) (data : List Byte) (h : Keeps s₀ s) : Keeps s₀ (State.imageReady s r idx data) := by
  unfold State.imageReady
  try extract_lets
  with_reducible repeat' first | assumption | apply State.wr_keeps | apply State.xlateRange_keeps | apply State.layerLines_keeps | apply State.freePark_keeps | apply State.endJob_keeps | apply State.inc_keeps | apply State.setLayerSt_keeps | apply State.showLayer_keeps | apply State.waitDone_keeps | apply ite_keeps | split | (refine Keeps.mk' ?_ rfl rfl; first | assumption | apply State.wr_keeps | apply State.xlateRange_keeps | apply State.layerLines_keeps | apply State.freePark_keeps | apply State.endJob_keeps | apply State.inc_keeps | apply State.setLayerSt_keeps | apply State.showLayer_keeps | apply State.waitDone_keeps | apply ite_keeps | split) | (dsimp +zetaDelta only)

theorem execLayerImageReady_keeps {s₀ : State} (r : Fin 4096) (x : ImageRead) {s : State} (h : Keeps s₀ s) : KeepsOut s₀ (execLayerImageReady r x s) := by
  unfold execLayerImageReady
  with_reducible repeat' first | apply KeepsOut.next | assumption | apply State.wr_keeps | apply State.imageReady_keeps

theorem State.waitExpired_keeps {s₀ : State} {s : State} (d : Nat) (k : Nat) (l : Nat) (h : Keeps s₀ s) : Keeps s₀ (State.waitExpired s d k l) := by
  unfold State.waitExpired
  try extract_lets
  with_reducible repeat' first | assumption | apply State.wr_keeps | apply State.takeReady_keeps | apply State.setLayerSt_keeps | apply State.setSlotSt_keeps | apply State.inc_keeps | refine Keeps.fst ‹_ = (_, _)› ?_ | apply ite_keeps | split | (refine Keeps.mk' ?_ rfl rfl; first | assumption | apply State.wr_keeps | apply State.takeReady_keeps | apply State.setLayerSt_keeps | apply State.setSlotSt_keeps | apply State.inc_keeps | apply ite_keeps | split) | (dsimp +zetaDelta only)

theorem execLayerWaitExpired_keeps {s₀ : State} (d : Fin 8) (k : Fin 16) (l : Fin 16) {s : State} (h : Keeps s₀ s) : KeepsOut s₀ (execLayerWaitExpired d k l s) := by
  unfold execLayerWaitExpired
  with_reducible repeat' first | apply KeepsOut.next | assumption | apply State.wr_keeps | apply State.waitExpired_keeps

theorem State.pastSlot_keeps {s₀ : State} {s : State} (d : Nat) (k : Nat) (o : PastFrame) (h : Keeps s₀ s) : Keeps s₀ (State.pastSlot s d k o) := by
  unfold State.pastSlot
  try extract_lets
  with_reducible repeat' first | assumption | apply State.wr_keeps | apply State.setSlotSt_keeps | apply State.setIngCh_keeps | (refine Keeps.mk' ?_ rfl rfl; first | assumption | apply State.wr_keeps | apply State.setSlotSt_keeps | apply State.setIngCh_keeps) | (dsimp +zetaDelta only)

theorem State.countLate_keeps {s₀ : State} {s : State} (d : Nat) (k : Nat) (n : Nat) (h : Keeps s₀ s) : Keeps s₀ (State.countLate s d k n) := by
  unfold State.countLate
  try extract_lets
  with_reducible repeat' first | assumption | apply State.wr_keeps | apply State.forRange_keeps | apply State.add_keeps | (intro _) | apply ite_keeps | split | (dsimp +zetaDelta only)

theorem State.slotLate_keeps {s₀ : State} {s : State} (d : Nat) (k : Nat) (h : Keeps s₀ s) : Keeps s₀ (State.slotLate s d k) := by
  unfold State.slotLate
  try extract_lets
  with_reducible repeat' first | assumption | apply State.wr_keeps | apply State.pastSlot_keeps | apply State.countLate_keeps | apply State.setSlotSt_keeps | apply ite_keeps | split | (refine Keeps.mk' ?_ rfl rfl; first | assumption | apply State.wr_keeps | apply State.pastSlot_keeps | apply State.countLate_keeps | apply State.setSlotSt_keeps | apply ite_keeps | split) | (dsimp +zetaDelta only)

theorem State.slotPast_keeps {s₀ : State} {s : State} (d : Nat) (k : Nat) (h : Keeps s₀ s) : Keeps s₀ (State.slotPast s d k) := by
  unfold State.slotPast
  try extract_lets
  with_reducible repeat' first | assumption | apply State.wr_keeps | apply State.pastSlot_keeps | apply State.countLate_keeps | apply State.setSlotSt_keeps | apply ite_keeps | split | (refine Keeps.mk' ?_ rfl rfl; first | assumption | apply State.wr_keeps | apply State.pastSlot_keeps | apply State.countLate_keeps | apply State.setSlotSt_keeps | apply ite_keeps | split) | (dsimp +zetaDelta only)

theorem State.bandWritten_keeps {s₀ s : State} (d k : Nat) (h : Keeps s₀ s) : Keeps s₀ (s.bandWritten d k) := by
  unfold State.bandWritten
  refine ite_keeps h ?_
  split
  · next o _ =>
    extract_lets t left u
    have g : Keeps s₀ t := State.writeBand_keeps _ _ _ _ (State.pastSlot_keeps _ _ _ h)
    clear_value t
    refine State.setSlotSt_keeps _ _ _ ⟨h.variant, h.pending, h.cycle, g.sent, fun x => ?_⟩
    have a := h.ok x
    have b := g.ok x
    rw [ok_iff] at a b ⊢
    exact ⟨a.1, b.2.1, a.2.2.1, a.2.2.2⟩
  · extract_lets x c n u v
    have g : Keeps s₀ u := State.writeBand_keeps _ _ _ _ h
    clear_value u
    exact State.setSlotSt_keeps _ _ _ (ite_keeps (State.countLate_keeps _ _ _ g) g)

theorem execBandWritten_keeps {s₀ : State} (d : Fin 8) (k : Fin 16) (band : Nat) {s : State} (h : Keeps s₀ s) : KeepsOut s₀ (execBandWritten d k band s) := by
  unfold execBandWritten
  with_reducible repeat' first | apply KeepsOut.next | assumption | apply State.wr_keeps | apply State.when_keeps | apply State.bandWritten_keeps | (intro _)

theorem State.composeCycle_keeps {s₀ : State} {s : State} (h : Keeps s₀ s) : Keeps s₀ (State.composeCycle s) := by
  unfold State.composeCycle
  try extract_lets
  with_reducible repeat' first | assumption | apply State.wr_keeps | apply State.slotLate_keeps | apply State.fillDrop_keeps | apply State.waitDone_keeps | apply foldl_keeps | (intro _) | (dsimp +zetaDelta only)

theorem State.rebuilt_keeps {s₀ : State} {s : State} (d : Nat) (k : Nat) (l : Nat) (h : Keeps s₀ s) : Keeps s₀ (State.rebuilt s d k l) := by
  unfold State.rebuilt
  try extract_lets
  with_reducible repeat' first | assumption | apply State.wr_keeps | apply State.buildPlane_keeps | apply State.setSlotSt_keeps | apply State.forRange_keeps | apply State.inc_keeps | apply elim_keeps | (intro _) | apply ite_keeps | split | (refine Keeps.mk' ?_ rfl rfl; first | assumption | apply State.wr_keeps | apply State.buildPlane_keeps | apply State.setSlotSt_keeps | apply State.forRange_keeps | apply State.inc_keeps | apply elim_keeps | apply ite_keeps | split) | (dsimp +zetaDelta only)

theorem execFlattenRebuildDone_keeps {s₀ : State} (d : Fin 8) (k : Fin 16) (l : Fin 16) {s : State} (h : Keeps s₀ s) : KeepsOut s₀ (execFlattenRebuildDone d k l s) := by
  unfold execFlattenRebuildDone
  with_reducible repeat' first | apply KeepsOut.next | assumption | apply State.wr_keeps | apply State.rebuilt_keeps

theorem State.coefStep_keeps {s₀ : State} {s : State} (d : Nat) (h : Keeps s₀ s) : Keeps s₀ (State.coefStep s d) := by
  unfold State.coefStep
  try extract_lets
  with_reducible repeat' first | assumption | apply State.wr_keeps | apply ite_keeps | split | (dsimp +zetaDelta only)

theorem State.coefAccess_keeps {s₀ : State} {s : State} (d : Nat) (v : Option Word) (h : Keeps s₀ s) : Keeps s₀ (State.coefAccess s d v) := by
  unfold State.coefAccess
  try extract_lets
  with_reducible repeat' first | assumption | apply State.wr_keeps | apply State.coefStep_keeps | apply State.refuse_keeps | apply ite_keeps | split | (refine Keeps.mk' ?_ rfl rfl; first | assumption | apply State.wr_keeps | apply State.coefStep_keeps | apply State.refuse_keeps | apply ite_keeps | split) | (dsimp +zetaDelta only)

theorem execCmpCoefAccess_keeps {s₀ : State} (d : Fin 8) (v : Option Word) {s : State} (h : Keeps s₀ s) : KeepsOut s₀ (execCmpCoefAccess d v s) := by
  unfold execCmpCoefAccess
  with_reducible repeat' first | apply KeepsOut.next | assumption | apply State.wr_keeps | apply State.coefAccess_keeps

theorem State.lutWrite_keeps {s₀ s : State} (d k a : Nat) (f : State → State) (hf : ∀ u, Keeps s₀ u → Keeps s₀ (f u)) (h : Keeps s₀ s) :
    Keeps s₀ (s.lutWrite d k a f) := by
  unfold State.lutWrite
  exact ite_keeps (State.refuse_keeps _ _ _ _ _ _ h) (ite_keeps (State.refuse_keeps _ _ _ _ _ _ h) (State.wr_keeps _ _ (hf _ h)))

theorem State.lutStep_keeps {s₀ : State} {s : State} (d : Nat) (k : Nat) (h : Keeps s₀ s) : Keeps s₀ (State.lutStep s d k) := by
  unfold State.lutStep
  with_reducible repeat' first | assumption | apply State.wr_keeps | apply ite_keeps | split

theorem State.lutData0_keeps {s₀ : State} {s : State} (d : Nat) (k : Nat) (v : Word) (h : Keeps s₀ s) : Keeps s₀ (State.lutData0 s d k v) := by
  unfold State.lutData0
  try extract_lets
  with_reducible repeat' first | assumption | apply State.wr_keeps | apply State.lutWrite_keeps | apply State.setLut_keeps | apply State.lutStep_keeps | (intro _) | apply ite_keeps | split | (dsimp +zetaDelta only)

theorem execLutData0Write_keeps {s₀ : State} (d : Fin 8) (k : Fin 4) (v : Word) {s : State} (h : Keeps s₀ s) : KeepsOut s₀ (execLutData0Write d k v s) := by
  unfold execLutData0Write
  with_reducible repeat' first | apply KeepsOut.next | assumption | apply State.wr_keeps | apply State.lutData0_keeps

theorem State.lutData1_keeps {s₀ : State} {s : State} (d : Nat) (k : Nat) (v : Word) (h : Keeps s₀ s) : Keeps s₀ (State.lutData1 s d k v) := by
  unfold State.lutData1
  try extract_lets
  with_reducible repeat' first | assumption | apply State.wr_keeps | apply State.lutWrite_keeps | apply State.setLut_keeps | apply State.lutStep_keeps | (intro _) | apply ite_keeps | split | (dsimp +zetaDelta only)

theorem execLutData1Write_keeps {s₀ : State} (d : Fin 8) (k : Fin 4) (v : Word) {s : State} (h : Keeps s₀ s) : KeepsOut s₀ (execLutData1Write d k v s) := by
  unfold execLutData1Write
  with_reducible repeat' first | apply KeepsOut.next | assumption | apply State.wr_keeps | apply State.lutData1_keeps

theorem State.lutCrcDone_keeps {s₀ : State} {s : State} (d : Nat) (k : Nat) (b : Nat) (h : Keeps s₀ s) : Keeps s₀ (State.lutCrcDone s d k b) := by
  unfold State.lutCrcDone
  try extract_lets
  with_reducible repeat' first | assumption | apply State.wr_keeps | apply State.setReg_keeps | apply ite_keeps | split | (dsimp +zetaDelta only)

theorem execLutCrcDone_keeps {s₀ : State} (d : Fin 8) (k : Fin 4) (b : Fin 2) {s : State} (h : Keeps s₀ s) : KeepsOut s₀ (execLutCrcDone d k b s) := by
  unfold execLutCrcDone
  with_reducible repeat' first | apply KeepsOut.next | assumption | apply State.wr_keeps | apply State.lutCrcDone_keeps

theorem State.cmpCommit_keeps {s₀ : State} (o : State) {s : State} (d : Nat) (h : Keeps s₀ s) : Keeps s₀ (State.cmpCommit o s d) := by
  unfold State.cmpCommit
  try extract_lets
  with_reducible repeat' first | assumption | apply State.wr_keeps | apply State.forRange_keeps | apply State.slotRelease_keeps | apply State.dropLayer_keeps | (intro _) | apply ite_keeps | split | (dsimp +zetaDelta only)

theorem State.flatWrite_keeps {s₀ : State} {s : State} (d : Nat) (a : Nat) (v : Word) (h : Keeps s₀ s) : Keeps s₀ (State.flatWrite s d a v) := by
  unfold State.flatWrite
  try extract_lets
  with_reducible repeat' first | assumption | apply State.wr_keeps | apply State.setReg_keeps | apply State.refuse_keeps | (intro _) | apply ite_keeps | split | (dsimp +zetaDelta only)

end Sys2Proof.Machine
end

