-- ==== Sys2Proof/Laws/Keeps/Pool.lean ====
section
/-!
SUPPORT. Sys2Proof/Laws/Keeps/Pool.lean: what each operation of Machine/Pool.lean keeps (Keeps of Safety.lean).
-/
namespace Sys2Proof.Machine
set_option linter.all false

theorem State.setBuf_keeps {s₀ : State} {s : State} (d : Nat) (b : Nat) (x : BufD) (h : Keeps s₀ s) : Keeps s₀ (State.setBuf s d b x) := by
  unfold State.setBuf
  with_reducible repeat' first | assumption | apply State.wr_keeps | (intro _) | (refine Keeps.mk' ?_ rfl rfl; first | assumption | apply State.wr_keeps)

theorem State.setEncSt_keeps {s₀ : State} {s : State} (d : Nat) (i : Nat) (x : EncSt) (h : Keeps s₀ s) : Keeps s₀ (State.setEncSt s d i x) := by
  unfold State.setEncSt
  with_reducible repeat' first | assumption | apply State.wr_keeps | (intro _) | (refine Keeps.mk' ?_ rfl rfl; first | assumption | apply State.wr_keeps)

theorem State.setDecSt_keeps {s₀ : State} {s : State} (d : Nat) (i : Nat) (x : DecSt) (h : Keeps s₀ s) : Keeps s₀ (State.setDecSt s d i x) := by
  unfold State.setDecSt
  with_reducible repeat' first | assumption | apply State.wr_keeps | (intro _) | (refine Keeps.mk' ?_ rfl rfl; first | assumption | apply State.wr_keeps)

theorem State.showFree_keeps {s₀ : State} {s : State} (d : Nat) (h : Keeps s₀ s) : Keeps s₀ (State.showFree s d) := by
  unfold State.showFree
  with_reducible repeat' first | assumption | apply State.wr_keeps | (intro _)

theorem State.placeBuf_keeps {s₀ : State} {s : State} (d : Nat) (i : Nat) (b : Nat) (k : Nat) (h : Keeps s₀ s) : Keeps s₀ (State.placeBuf s d i b k) := by
  unfold State.placeBuf
  with_reducible repeat' first | assumption | apply State.wr_keeps | apply State.setBuf_keeps | (refine Keeps.mk' ?_ rfl rfl; first | assumption | apply State.wr_keeps | apply State.setBuf_keeps)

theorem State.reserveGroup_keeps {s₀ : State} {s : State} (d : Nat) (i : Nat) (h : Keeps s₀ s) : Keeps s₀ (State.reserveGroup s d i) := by
  unfold State.reserveGroup
  try extract_lets
  with_reducible repeat' first | assumption | apply State.wr_keeps | apply State.placeBuf_keeps | apply State.showFree_keeps | apply foldl_keeps | (intro _) | (dsimp +zetaDelta only)

theorem State.fitGroup_keeps {s₀ : State} {s : State} (d : Nat) (i : Nat) (h : Keeps s₀ s) : Keeps s₀ (State.fitGroup s d i) := by
  unfold State.fitGroup
  try extract_lets
  with_reducible repeat' first | assumption | apply State.wr_keeps | apply State.forRange_keeps | apply State.placeBuf_keeps | apply State.setBuf_keeps | apply State.showFree_keeps | (intro _) | apply ite_keeps | split | (refine Keeps.mk' ?_ rfl rfl; first | assumption | apply State.wr_keeps | apply State.forRange_keeps | apply State.placeBuf_keeps | apply State.setBuf_keeps | apply State.showFree_keeps | apply ite_keeps | split) | (dsimp +zetaDelta only)

theorem State.releaseGroup_keeps {s₀ : State} {s : State} (d : Nat) (i : Nat) (id : Nat) (h : Keeps s₀ s) : Keeps s₀ (State.releaseGroup s d i id) := by
  unfold State.releaseGroup
  try extract_lets
  with_reducible repeat' first | assumption | apply State.wr_keeps | apply State.setBuf_keeps | apply State.showFree_keeps | apply foldl_keeps | (intro _) | (refine Keeps.mk' ?_ rfl rfl; first | assumption | apply State.wr_keeps | apply State.setBuf_keeps | apply State.showFree_keeps | apply foldl_keeps) | (dsimp +zetaDelta only)

theorem State.freeBuf_keeps {s₀ : State} {s : State} (d : Nat) (b : Nat) (h : Keeps s₀ s) : Keeps s₀ (State.freeBuf s d b) := by
  unfold State.freeBuf
  with_reducible repeat' first | assumption | apply State.wr_keeps | apply State.setBuf_keeps | (refine Keeps.mk' ?_ rfl rfl; first | assumption | apply State.wr_keeps | apply State.setBuf_keeps)

theorem State.allocBuf_keeps {s₀ : State} {s : State} (d : Nat) (id : Nat) (pic : Nat) (order : Nat) (h : Keeps s₀ s) : Keeps s₀ (State.allocBuf s d id pic order).1 := by
  unfold State.allocBuf
  try extract_lets
  with_reducible repeat' first | assumption | apply State.wr_keeps | apply State.setBuf_keeps | (intro _) | split | (refine Keeps.mk' ?_ rfl rfl; first | assumption | apply State.wr_keeps | apply State.setBuf_keeps | split) | (dsimp +zetaDelta only)

theorem State.dropRef_keeps {s₀ : State} {s : State} (d : Nat) (b : Nat) (await : Bool) (h : Keeps s₀ s) : Keeps s₀ (State.dropRef s d b await) := by
  unfold State.dropRef
  try extract_lets
  with_reducible repeat' first | assumption | apply State.wr_keeps | apply State.setBuf_keeps | apply State.freeBuf_keeps | apply ite_keeps | split | (refine Keeps.mk' ?_ rfl rfl; first | assumption | apply State.wr_keeps | apply State.setBuf_keeps | apply State.freeBuf_keeps | apply ite_keeps | split) | (dsimp +zetaDelta only)

theorem State.repin_keeps {s₀ : State} {s : State} (d : Nat) (i : Nat) (h : Keeps s₀ s) : Keeps s₀ (State.repin s d i) := by
  unfold State.repin
  try extract_lets
  with_reducible repeat' first | assumption | apply State.wr_keeps | apply State.setBuf_keeps | apply State.freeBuf_keeps | apply foldl_keeps | (intro _) | apply ite_keeps | split | (refine Keeps.mk' ?_ rfl rfl; first | assumption | apply State.wr_keeps | apply State.setBuf_keeps | apply State.freeBuf_keeps | apply foldl_keeps | apply ite_keeps | split) | (dsimp +zetaDelta only)

theorem State.abortStr_keeps {s₀ : State} {s : State} (d : Nat) (i : Nat) (h : Keeps s₀ s) : Keeps s₀ (State.abortStr s d i) := by
  unfold State.abortStr
  with_reducible repeat' first | assumption | apply State.wr_keeps | apply State.stopTask_keeps | apply foldl_keeps | (intro _)

theorem State.setDecState_keeps {s₀ : State} {s : State} (d : Nat) (i : Nat) (v : Nat) (ev : Bool) (h : Keeps s₀ s) : Keeps s₀ (State.setDecState s d i v ev) := by
  unfold State.setDecState
  try extract_lets
  with_reducible repeat' first | assumption | apply State.wr_keeps | apply State.event_keeps | apply ite_keeps | split | (dsimp +zetaDelta only)

theorem State.omitShown_keeps {s₀ : State} {s : State} (d : Nat) (id : Nat) (pic : Nat) (h : Keeps s₀ s) : Keeps s₀ (State.omitShown s d id pic) := by
  unfold State.omitShown
  try extract_lets
  with_reducible repeat' first | assumption | apply State.wr_keeps | apply State.forRange_keeps | apply State.setLayerSt_keeps | apply State.inc_keeps | (intro _) | apply ite_keeps | split | (refine Keeps.mk' ?_ rfl rfl; first | assumption | apply State.wr_keeps | apply State.forRange_keeps | apply State.setLayerSt_keeps | apply State.inc_keeps | apply ite_keeps | split) | (dsimp +zetaDelta only)

theorem State.showGroup_keeps {s₀ : State} {s : State} (d : Nat) (id : Nat) (h : Keeps s₀ s) : Keeps s₀ (State.showGroup s d id) := by
  unfold State.showGroup
  with_reducible repeat' first | assumption | apply State.wr_keeps | split | (refine Keeps.mk' ?_ rfl rfl; first | assumption | apply State.wr_keeps | split)

theorem State.revokeEnc_keeps {s₀ : State} {s : State} (d : Nat) (i : Nat) (b : Nat) (cur : Bool) (h : Keeps s₀ s) : Keeps s₀ (State.revokeEnc s d i b cur) := by
  unfold State.revokeEnc
  try extract_lets
  with_reducible repeat' first | assumption | apply State.wr_keeps | apply State.setEncSt_keeps | apply State.abortStr_keeps | apply ite_keeps | split | (refine Keeps.mk' ?_ rfl rfl; first | assumption | apply State.wr_keeps | apply State.setEncSt_keeps | apply State.abortStr_keeps | apply ite_keeps | split) | (dsimp +zetaDelta only)

theorem State.holdNone_keeps {s₀ : State} {s : State} (d : Nat) (i : Nat) (key : Nat) (h : Keeps s₀ s) : Keeps s₀ (State.holdNone s d i key) := by
  unfold State.holdNone
  with_reducible repeat' first | assumption | apply State.wr_keeps | (refine Keeps.mk' ?_ rfl rfl; first | assumption | apply State.wr_keeps)

theorem State.revokeDec_keeps {s₀ : State} {s : State} (d : Nat) (i : Nat) (b : Nat) (x : BufD) (h : Keeps s₀ s) : Keeps s₀ (State.revokeDec s d i b x) := by
  unfold State.revokeDec
  try extract_lets
  with_reducible repeat' first | assumption | apply State.wr_keeps | apply State.setDecSt_keeps | apply State.omitShown_keeps | apply State.holdNone_keeps | apply State.abortStr_keeps | apply State.setDecState_keeps | apply ite_keeps | split | (refine Keeps.mk' ?_ rfl rfl; first | assumption | apply State.wr_keeps | apply State.setDecSt_keeps | apply State.omitShown_keeps | apply State.holdNone_keeps | apply State.abortStr_keeps | apply State.setDecState_keeps | apply ite_keeps | split) | (dsimp +zetaDelta only)

theorem State.loseBuf_keeps {s₀ : State} {s : State} (d : Nat) (b : Nat) (x : BufD) (h : Keeps s₀ s) : Keeps s₀ (State.loseBuf s d b x) := by
  unfold State.loseBuf
  try extract_lets
  with_reducible repeat' first | assumption | apply State.wr_keeps | apply State.setBuf_keeps | apply State.freeBuf_keeps | apply State.revokeEnc_keeps | apply State.revokeDec_keeps | apply ite_keeps | split | (refine Keeps.mk' ?_ rfl rfl; first | assumption | apply State.wr_keeps | apply State.setBuf_keeps | apply State.freeBuf_keeps | apply State.revokeEnc_keeps | apply State.revokeDec_keeps | apply ite_keeps | split) | (dsimp +zetaDelta only)

theorem State.revokeBuf_keeps {s₀ s : State} (d b newOwner : Nat) (h : Keeps s₀ s) : Keeps s₀ (s.revokeBuf d b newOwner) := by
  unfold State.revokeBuf
  extract_lets +onlyGivenNames x s1
  have g1 : Keeps s₀ s1 := State.inc_keeps _ h
  clear_value s1
  refine ite_keeps (State.setBuf_keeps _ _ _ g1) ?_
  extract_lets +onlyGivenNames s2
  have g2 : Keeps s₀ s2 := State.loseBuf_keeps _ _ _ g1
  clear_value s2
  refine ite_keeps g2 ?_
  split
  · exact State.showGroup_keeps _ _ (State.showGroup_keeps _ _ (State.setBuf_keeps _ _ _ g2))
  · exact g2

theorem State.revokeSpill_keeps {s₀ : State} {s : State} (d : Nat) (r : Nat) (h : Keeps s₀ s) : Keeps s₀ (State.revokeSpill s d r) := by
  unfold State.revokeSpill
  try extract_lets
  with_reducible repeat' first | assumption | apply State.wr_keeps | apply State.inc_keeps | apply State.spillReset_keeps | apply State.freePark_keeps | (intro _) | (refine Keeps.mk' ?_ rfl rfl; first | assumption | apply State.wr_keeps | apply State.inc_keeps | apply State.spillReset_keeps | apply State.freePark_keeps) | (dsimp +zetaDelta only)

theorem State.revokeObj_keeps {s₀ : State} {s : State} (d : Nat) (kind : Nat) (idx : Nat) (own : Nat) (h : Keeps s₀ s) : Keeps s₀ (State.revokeObj s d kind idx own) := by
  unfold State.revokeObj
  try extract_lets
  with_reducible repeat' first | assumption | apply State.wr_keeps | apply State.revokeSpill_keeps | apply State.revokeBuf_keeps | apply foldl_keeps | (intro _) | split | (refine Keeps.mk' ?_ rfl rfl; first | assumption | apply State.wr_keeps | apply State.revokeSpill_keeps | apply State.revokeBuf_keeps | apply foldl_keeps | split) | (dsimp +zetaDelta only)

theorem State.eobjWrite_keeps {s₀ : State} {s : State} (d : Nat) (v : Word) (h : Keeps s₀ s) : Keeps s₀ (State.eobjWrite s d v) := by
  unfold State.eobjWrite
  try extract_lets
  with_reducible repeat' first | assumption | apply State.wr_keeps | apply State.refuse_keeps | apply State.revokeObj_keeps | (intro _) | apply ite_keeps | split | (dsimp +zetaDelta only)

theorem execEobjRevoke_keeps {s₀ : State} (d : Fin 8) (v : Word) {s : State} (h : Keeps s₀ s) : KeepsOut s₀ (execEobjRevoke d v s) := by
  unfold execEobjRevoke
  with_reducible repeat' first | apply KeepsOut.next | assumption | apply State.wr_keeps | apply State.eobjWrite_keeps

theorem execRevokeQuiesced_keeps {s₀ : State} (d : Fin 8) (key : Nat) {s : State} (h : Keeps s₀ s) : KeepsOut s₀ (execRevokeQuiesced d key s) := by
  unfold execRevokeQuiesced
  with_reducible repeat' first | apply KeepsOut.next | assumption | apply State.wr_keeps | (intro _) | (refine Keeps.mk' ?_ rfl rfl; first | assumption | apply State.wr_keeps)

theorem State.ticketWr_keeps {s₀ : State} {s : State} (d : Nat) (p : PicSt) (h : Keeps s₀ s) : Keeps s₀ (State.ticketWr s d p) := by
  unfold State.ticketWr
  with_reducible repeat' first | assumption | apply State.wr_keeps | apply State.inc_keeps | apply ite_keeps | split

theorem State.ticketRd_keeps {s₀ : State} {s : State} (d : Nat) (p : PicSt) (h : Keeps s₀ s) : Keeps s₀ (State.ticketRd s d p) := by
  unfold State.ticketRd
  with_reducible repeat' first | assumption | apply State.wr_keeps | apply State.inc_keeps | apply foldl_keeps | (intro _) | apply ite_keeps | split

end Sys2Proof.Machine
end

