-- ==== Sys2Proof/Laws/Keeps/Sched.lean ====
section
/-!
SUPPORT. Sys2Proof/Laws/Keeps/Sched.lean: what each operation of Machine/Sched.lean keeps (Keeps of Safety.lean).
-/
namespace Sys2Proof.Machine
set_option linter.all false

theorem State.submit_keeps {s₀ : State} {s : State} (r : Nat) (x : Desc) (h : Keeps s₀ s) : Keeps s₀ (State.submit s r x) := by
  unfold State.submit
  try extract_lets
  with_reducible repeat' first | assumption | apply State.wr_keeps | apply State.setTask_keeps | apply State.setDelay_keeps | apply State.joinTail_keeps | apply State.refill_keeps | apply ite_keeps | split | (refine Keeps.mk' ?_ rfl rfl; first | assumption | apply State.wr_keeps | apply State.setTask_keeps | apply State.setDelay_keeps | apply State.joinTail_keeps | apply State.refill_keeps | apply ite_keeps | split) | (dsimp +zetaDelta only)

theorem execTaskSubmit_keeps {s₀ : State} (r : Fin 4096) {s : State} (h : Keeps s₀ s) : KeepsOut s₀ (execTaskSubmit r s) := by
  unfold execTaskSubmit
  with_reducible repeat' first | apply KeepsOut.next | assumption | apply State.wr_keeps | apply State.dispatch_keeps | apply State.submit_keeps | (intro _)

theorem State.doCancel_keeps {s₀ : State} {s : State} (r : Nat) (x : Desc) (h : Keeps s₀ s) : Keeps s₀ (State.doCancel s r x) := by
  unfold State.doCancel
  with_reducible repeat' first | assumption | apply State.wr_keeps | apply State.complete_keeps | apply State.cancelTask_keeps | split | (refine Keeps.mk' ?_ rfl rfl; first | assumption | apply State.wr_keeps | apply State.complete_keeps | apply State.cancelTask_keeps | split)

theorem execTaskCancel_keeps {s₀ : State} (r : Fin 4096) {s : State} (h : Keeps s₀ s) : KeepsOut s₀ (execTaskCancel r s) := by
  unfold execTaskCancel
  with_reducible repeat' first | apply KeepsOut.next | assumption | apply State.wr_keeps | apply State.dispatch_keeps | apply State.doCancel_keeps | (intro _)

theorem State.wakeTask_keeps {s₀ : State} {s : State} (d : Nat) (l : Nat) (t : Nat) (h : Keeps s₀ s) : Keeps s₀ (State.wakeTask s d l t) := by
  unfold State.wakeTask
  try extract_lets
  with_reducible repeat' first | assumption | apply State.wr_keeps | apply State.setDelay_keeps | apply State.joinTail_keeps | apply State.refill_keeps | (dsimp +zetaDelta only)

theorem State.startTask_keeps {s₀ : State} {s : State} (d : Nat) (k : Nat) (h : Keeps s₀ s) : Keeps s₀ (State.startTask s d k) := by
  unfold State.startTask
  try extract_lets
  with_reducible repeat' first | assumption | apply State.wr_keeps | apply State.setNext_keeps | apply State.joinHead_keeps | apply State.refill_keeps | apply State.setCur_keeps | apply State.setTask_keeps | apply ite_keeps | split | (refine Keeps.mk' ?_ rfl rfl; first | assumption | apply State.wr_keeps | apply State.setNext_keeps | apply State.joinHead_keeps | apply State.refill_keeps | apply State.setCur_keeps | apply State.setTask_keeps | apply ite_keeps | split) | (dsimp +zetaDelta only)

theorem State.decReads_keeps {s₀ : State} {s : State} (x : Task) (n : Nat) (h : Keeps s₀ s) : Keeps s₀ (State.decReads s x n) := by
  unfold State.decReads
  with_reducible repeat' first | assumption | apply State.wr_keeps | apply State.xlateRange_keeps | apply ite_keeps | split

theorem State.consEnds_keeps {s₀ : State} {s : State} (d : Nat) (k : Nat) (outcome : Nat) (reason : Nat) (wm : Wm) (h : Keeps s₀ s) : Keeps s₀ (State.consEnds s d k outcome reason wm) := by
  unfold State.consEnds
  try extract_lets
  with_reducible repeat' first | assumption | apply State.wr_keeps | apply State.decReads_keeps | apply State.endTask_keeps | split | (refine Keeps.mk' ?_ rfl rfl; first | assumption | apply State.wr_keeps | apply State.decReads_keeps | apply State.endTask_keeps | split) | (dsimp +zetaDelta only)

theorem State.takeRead_keeps {s₀ : State} {s : State} (d : Nat) (k : Nat) (h : Keeps s₀ s) : Keeps s₀ (State.takeRead s d k) := by
  unfold State.takeRead
  try extract_lets
  with_reducible repeat' first | assumption | apply State.wr_keeps | apply State.setTask_keeps | apply State.refill_keeps | apply ite_keeps | split | (refine Keeps.mk' ?_ rfl rfl; first | assumption | apply State.wr_keeps | apply State.setTask_keeps | apply State.refill_keeps | apply ite_keeps | split) | (dsimp +zetaDelta only)

theorem execSchConsTake_keeps {s₀ : State} (d : Fin 8) (k : Fin 256) {s : State} (h : Keeps s₀ s) : KeepsOut s₀ (execSchConsTake d k s) := by
  unfold execSchConsTake
  with_reducible repeat' first | apply KeepsOut.next | assumption | apply State.wr_keeps | apply State.takeRead_keeps

theorem State.endWrite_keeps {s₀ : State} {s : State} (d : Nat) (k : Nat) (v : Word) (h : Keeps s₀ s) : Keeps s₀ (State.endWrite s d k v) := by
  unfold State.endWrite
  with_reducible repeat' first | assumption | apply State.wr_keeps | apply State.refuse_keeps | apply State.consEnds_keeps | apply ite_keeps | split

theorem execSchConsEnd_keeps {s₀ : State} (d : Fin 8) (k : Fin 256) (v : Word) {s : State} (h : Keeps s₀ s) : KeepsOut s₀ (execSchConsEnd d k v s) := by
  unfold execSchConsEnd
  with_reducible repeat' first | apply KeepsOut.next | assumption | apply State.wr_keeps | apply State.endWrite_keeps

theorem State.wm3Write_keeps {s₀ s : State} (d k : Nat) (v : Word) (h : Keeps s₀ s) : Keeps s₀ (s.wm3Write d k v) := by
  unfold State.wm3Write
  have ha := State.wr_keeps (F.SCH_CONSk_WM_WM d k 3) v.toNat h
  exact elim_keeps _ (fun t => ite_keeps ha (State.taskSafe_keeps _ _ _ ha)) ha

theorem execSchConsWm3_keeps {s₀ : State} (d : Fin 8) (k : Fin 256) (v : Word) {s : State} (h : Keeps s₀ s) : KeepsOut s₀ (execSchConsWm3 d k v s) := by
  unfold execSchConsWm3
  with_reducible repeat' first | apply KeepsOut.next | assumption | apply State.wr_keeps | apply State.wm3Write_keeps

theorem State.usecRead_keeps {s₀ : State} {s : State} (d : Nat) (h : Keeps s₀ s) : Keeps s₀ (State.usecRead s d) := by
  unfold State.usecRead
  try extract_lets
  with_reducible repeat' first | assumption | apply State.wr_keeps | (intro _) | (refine Keeps.mk' ?_ rfl rfl; first | assumption | apply State.wr_keeps) | (dsimp +zetaDelta only)

theorem execSchUsecRead_keeps {s₀ : State} (d : Fin 8) {s : State} (h : Keeps s₀ s) : KeepsOut s₀ (execSchUsecRead d s) := by
  unfold execSchUsecRead
  with_reducible repeat' first | apply KeepsOut.next | assumption | apply State.wr_keeps | apply State.usecRead_keeps

theorem State.taskDeadline_keeps {s₀ : State} {s : State} (d : Nat) (t : Nat) (h : Keeps s₀ s) : Keeps s₀ (State.taskDeadline s d t) := by
  unfold State.taskDeadline
  try extract_lets
  with_reducible repeat' first | assumption | apply State.wr_keeps | apply State.dueStop_keeps | apply ite_keeps | split | (dsimp +zetaDelta only)

theorem execTaskDeadline_keeps {s₀ : State} (d : Fin 8) (t : Fin 65536) {s : State} (h : Keeps s₀ s) : KeepsOut s₀ (execTaskDeadline d t s) := by
  unfold execTaskDeadline
  with_reducible repeat' first | apply KeepsOut.next | assumption | apply State.wr_keeps | apply State.taskDeadline_keeps

end Sys2Proof.Machine
end

