-- ==== Sys2Proof/Laws/Keeps/Decoder.lean ====
section
/-!
SUPPORT. Sys2Proof/Laws/Keeps/Decoder.lean: what each operation of Machine/Decoder.lean keeps (Keeps of Safety.lean).
-/
namespace Sys2Proof.Machine
set_option linter.all false

theorem State.decSubmit_keeps {s₀ : State} {s : State} (r : Nat) (x : Desc) (h : Keeps s₀ s) : Keeps s₀ (State.decSubmit s r x) := by
  unfold State.decSubmit
  try extract_lets
  with_reducible repeat' first | assumption | apply State.wr_keeps | apply State.setTask_keeps | apply State.joinTail_keeps | apply State.refill_keeps | split | (refine Keeps.mk' ?_ rfl rfl; first | assumption | apply State.wr_keeps | apply State.setTask_keeps | apply State.joinTail_keeps | apply State.refill_keeps | split) | (dsimp +zetaDelta only)

theorem State.decNote_keeps {s₀ : State} {s : State} (r : Nat) (h : Keeps s₀ s) : Keeps s₀ (State.decNote s r) := by
  unfold State.decNote
  try extract_lets
  with_reducible repeat' first | assumption | apply State.wr_keeps | apply State.reasons_keeps | (intro _) | apply ite_keeps | split | (refine Keeps.mk' ?_ rfl rfl; first | assumption | apply State.wr_keeps | apply State.reasons_keeps | apply ite_keeps | split) | (dsimp +zetaDelta only)

theorem execDecInput_keeps {s₀ : State} (r : Fin 4096) {s : State} (h : Keeps s₀ s) : KeepsOut s₀ (execDecInput r s) := by
  unfold execDecInput
  with_reducible repeat' first | apply KeepsOut.next | assumption | apply State.wr_keeps | apply State.when_keeps | apply State.decNote_keeps | apply State.dispatch_keeps | apply State.decSubmit_keeps | (intro _)

theorem State.carryDrop_keeps {s₀ : State} {s : State} (d : Nat) (i : Nat) (h : Keeps s₀ s) : Keeps s₀ (State.carryDrop s d i) := by
  unfold State.carryDrop
  with_reducible repeat' first | assumption | apply State.wr_keeps | apply State.setDecSt_keeps | apply State.inc_keeps | (refine Keeps.mk' ?_ rfl rfl; first | assumption | apply State.wr_keeps | apply State.setDecSt_keeps | apply State.inc_keeps)

theorem State.holdPart_keeps {s₀ : State} {s : State} (d : Nat) (i : Nat) (n : Nat) (h : Keeps s₀ s) : Keeps s₀ (State.holdPart s d i n) := by
  unfold State.holdPart
  with_reducible repeat' first | assumption | apply State.wr_keeps | apply State.carryDrop_keeps | apply State.setDecSt_keeps | apply ite_keeps | split | (refine Keeps.mk' ?_ rfl rfl; first | assumption | apply State.wr_keeps | apply State.carryDrop_keeps | apply State.setDecSt_keeps | apply ite_keeps | split)

theorem State.decStart_keeps {s₀ : State} {s : State} (d : Nat) (t : Nat) (h : Keeps s₀ s) : Keeps s₀ (State.decStart s d t) := by
  unfold State.decStart
  try extract_lets
  with_reducible repeat' first | assumption | apply State.wr_keeps | apply State.setDecSt_keeps | apply State.carryDrop_keeps | apply ite_keeps | split | (refine Keeps.mk' ?_ rfl rfl; first | assumption | apply State.wr_keeps | apply State.setDecSt_keeps | apply State.carryDrop_keeps | apply ite_keeps | split) | (dsimp +zetaDelta only)

theorem State.curFree_keeps {s₀ : State} {s : State} (d : Nat) (i : Nat) (h : Keeps s₀ s) : Keeps s₀ (State.curFree s d i) := by
  unfold State.curFree
  try extract_lets
  with_reducible repeat' first | assumption | apply State.wr_keeps | apply State.setDecSt_keeps | apply State.freeBuf_keeps | apply ite_keeps | split | (refine Keeps.mk' ?_ rfl rfl; first | assumption | apply State.wr_keeps | apply State.setDecSt_keeps | apply State.freeBuf_keeps | apply ite_keeps | split) | (dsimp +zetaDelta only)

theorem State.decCycle_keeps {s₀ : State} {s : State} (h : Keeps s₀ s) : Keeps s₀ (State.decCycle s) := by
  unfold State.decCycle
  try extract_lets
  with_reducible repeat' first | assumption | apply State.wr_keeps | apply State.curFree_keeps | apply State.setDecSt_keeps | apply foldl_keeps | (intro _) | apply ite_keeps | split | (refine Keeps.mk' ?_ rfl rfl; first | assumption | apply State.wr_keeps | apply State.curFree_keeps | apply State.setDecSt_keeps | apply foldl_keeps | apply ite_keeps | split) | (dsimp +zetaDelta only)

theorem State.decSuperseded_keeps {s₀ : State} {s : State} (d : Nat) (id : Nat) (h : Keeps s₀ s) : Keeps s₀ (State.decSuperseded s d id) := by
  unfold State.decSuperseded
  try extract_lets
  with_reducible repeat' first | assumption | apply State.wr_keeps | apply State.inc_keeps | apply foldl_keeps | (intro _) | apply ite_keeps | split | (dsimp +zetaDelta only)

theorem State.release_keeps {s₀ : State} {s : State} (d : Nat) (i : Nat) (b : Nat) (h : Keeps s₀ s) : Keeps s₀ (State.release s d i b) := by
  unfold State.release
  try extract_lets
  with_reducible repeat' first | assumption | apply State.wr_keeps | apply State.decSuperseded_keeps | apply State.setDecSt_keeps | apply State.send_keeps | apply State.decReleased_keeps | apply State.repin_keeps | (intro _) | apply ite_keeps | split | (refine Keeps.mk' ?_ rfl rfl; first | assumption | apply State.wr_keeps | apply State.decSuperseded_keeps | apply State.setDecSt_keeps | apply State.send_keeps | apply State.decReleased_keeps | apply State.repin_keeps | apply ite_keeps | split) | (dsimp +zetaDelta only)

theorem State.releaseDue_keeps {s₀ s : State} (d i n : Nat) (h : Keeps s₀ s) : Keeps s₀ (s.releaseDue d i n) := by
  induction n generalizing s with
  | zero => exact h
  | succ n ih =>
    unfold State.releaseDue
    repeat' first | with_reducible assumption | with_reducible apply ih | with_reducible apply State.release_keeps | with_reducible apply ite_keeps | split

theorem State.outputPic_keeps {s₀ : State} {s : State} (d : Nat) (i : Nat) (n : Nat) (h : Keeps s₀ s) : Keeps s₀ (State.outputPic s d i n) := by
  unfold State.outputPic
  try extract_lets
  with_reducible repeat' first | assumption | apply State.wr_keeps | apply State.setDecSt_keeps | apply State.releaseDue_keeps | (intro _) | split | (refine Keeps.mk' ?_ rfl rfl; first | assumption | apply State.wr_keeps | apply State.setDecSt_keeps | apply State.releaseDue_keeps | split) | (dsimp +zetaDelta only)

theorem State.decEos_keeps {s₀ : State} {s : State} (d : Nat) (i : Nat) (h : Keeps s₀ s) : Keeps s₀ (State.decEos s d i) := by
  unfold State.decEos
  try extract_lets
  with_reducible repeat' first | assumption | apply State.wr_keeps | apply State.outputPic_keeps | apply State.repin_keeps | apply foldl_keeps | (intro _) | split | (refine Keeps.mk' ?_ rfl rfl; first | assumption | apply State.wr_keeps | apply State.outputPic_keeps | apply State.repin_keeps | apply foldl_keeps | split) | (dsimp +zetaDelta only)

theorem State.decTaskEnd_keeps {s₀ : State} {s : State} (d : Nat) (x : Task) (done : Bool) (h : Keeps s₀ s) : Keeps s₀ (State.decTaskEnd s d x done) := by
  unfold State.decTaskEnd
  try extract_lets
  with_reducible repeat' first | assumption | apply State.wr_keeps | apply State.curFree_keeps | apply State.setDecSt_keeps | apply State.holdPart_keeps | apply State.decEos_keeps | apply ite_keeps | split | (refine Keeps.mk' ?_ rfl rfl; first | assumption | apply State.wr_keeps | apply State.curFree_keeps | apply State.setDecSt_keeps | apply State.holdPart_keeps | apply State.decEos_keeps | apply ite_keeps | split) | (dsimp +zetaDelta only)

theorem execTaskEnd_keeps {s₀ : State} (d : Fin 8) (k : Fin 256) (outcome : Fin 3) (reason : Fin 65536) (wm : Wm) {s : State} (h : Keeps s₀ s) : KeepsOut s₀ (execTaskEnd d k outcome reason wm s) := by
  unfold execTaskEnd
  try extract_lets
  with_reducible repeat' first | apply KeepsOut.next | assumption | apply State.wr_keeps | apply State.when_keeps | apply State.consEnds_keeps | apply State.decTaskEnd_keeps | (intro _) | apply ite_keeps | split | (refine Keeps.mk' ?_ rfl rfl; first | assumption | apply State.wr_keeps | apply State.when_keeps | apply State.consEnds_keeps | apply State.decTaskEnd_keeps | apply ite_keeps | split) | (dsimp +zetaDelta only)

theorem execDecShowReached_keeps {s₀ : State} (d : Fin 8) (i : Fin 128) {s : State} (h : Keeps s₀ s) : KeepsOut s₀ (execDecShowReached d i s) := by
  unfold execDecShowReached
  with_reducible repeat' first | apply KeepsOut.next | assumption | apply State.wr_keeps | apply State.releaseDue_keeps

theorem State.dropRefs_keeps {s₀ : State} {s : State} (d : Nat) (i : Nat) (os : List Word) (h : Keeps s₀ s) : Keeps s₀ (State.dropRefs s d i os) := by
  unfold State.dropRefs
  with_reducible repeat' first | assumption | apply State.wr_keeps | apply State.dropRef_keeps | apply foldl_keeps | (intro _) | split | (refine Keeps.mk' ?_ rfl rfl; first | assumption | apply State.wr_keeps | apply State.dropRef_keeps | apply foldl_keeps | split)

theorem State.longRefs_keeps {s₀ : State} {s : State} (d : Nat) (i : Nat) (os : List Word) (h : Keeps s₀ s) : Keeps s₀ (State.longRefs s d i os) := by
  unfold State.longRefs
  try extract_lets
  with_reducible repeat' first | assumption | apply State.wr_keeps | apply State.setBuf_keeps | apply foldl_keeps | (intro _) | apply ite_keeps | split | (refine Keeps.mk' ?_ rfl rfl; first | assumption | apply State.wr_keeps | apply State.setBuf_keeps | apply foldl_keeps | apply ite_keeps | split) | (dsimp +zetaDelta only)

theorem State.decSkip_keeps {s₀ : State} {s : State} (d : Nat) (i : Nat) (h : Keeps s₀ s) : Keeps s₀ (State.decSkip s d i) := by
  unfold State.decSkip
  with_reducible repeat' first | assumption | apply State.wr_keeps | apply State.curFree_keeps | apply State.inc_keeps

theorem State.decBegin_keeps {s₀ : State} {s : State} (d : Nat) (i : Nat) (x : DecPic) (h : Keeps s₀ s) : Keeps s₀ (State.decBegin s d i x) := by
  unfold State.decBegin
  try extract_lets
  with_reducible repeat' first | assumption | apply State.wr_keeps | apply State.allocBuf_keeps | apply State.setDecSt_keeps | refine Keeps.fst ‹_ = (_, _)› ?_ | apply ite_keeps | split | (refine Keeps.mk' ?_ rfl rfl; first | assumption | apply State.wr_keeps | apply State.allocBuf_keeps | apply State.setDecSt_keeps | apply ite_keeps | split) | (dsimp +zetaDelta only)

theorem State.decStale_keeps {s₀ : State} {s : State} (d : Nat) (i : Nat) (h : Keeps s₀ s) : Keeps s₀ (State.decStale s d i) := by
  unfold State.decStale
  with_reducible repeat' first | assumption | apply State.wr_keeps | apply State.inc_keeps | apply foldl_keeps | (intro _) | apply ite_keeps | split | (refine Keeps.mk' ?_ rfl rfl; first | assumption | apply State.wr_keeps | apply State.inc_keeps | apply foldl_keeps | apply ite_keeps | split)

theorem State.decMark_keeps {s₀ : State} {s : State} (d : Nat) (b : Nat) (x : DecPic) (conceal : Bool) (h : Keeps s₀ s) : Keeps s₀ (State.decMark s d b x conceal) := by
  unfold State.decMark
  try extract_lets
  with_reducible repeat' first | assumption | apply State.wr_keeps | apply State.setBuf_keeps | apply State.freeBuf_keeps | apply ite_keeps | split | (refine Keeps.mk' ?_ rfl rfl; first | assumption | apply State.wr_keeps | apply State.setBuf_keeps | apply State.freeBuf_keeps | apply ite_keeps | split) | (dsimp +zetaDelta only)

theorem State.decode_keeps {s₀ : State} {s : State} (d : Nat) (i : Nat) (sh : Nat) (x : DecPic) (h : Keeps s₀ s) : Keeps s₀ (State.decode s d i sh x) := by
  unfold State.decode
  try extract_lets
  with_reducible repeat' first | assumption | apply State.wr_keeps | apply State.decBegin_keeps | apply State.decSkip_keeps | apply State.inc_keeps | apply State.curFree_keeps | apply State.decStale_keeps | apply State.setDecSt_keeps | apply State.setBuf_keeps | apply State.dropRefs_keeps | apply State.longRefs_keeps | apply State.decMark_keeps | apply State.event_keeps | apply State.setDecState_keeps | (intro _) | apply ite_keeps | split | (refine Keeps.mk' ?_ rfl rfl; first | assumption | apply State.wr_keeps | apply State.decBegin_keeps | apply State.decSkip_keeps | apply State.inc_keeps | apply State.curFree_keeps | apply State.decStale_keeps | apply State.setDecSt_keeps | apply State.setBuf_keeps | apply State.dropRefs_keeps | apply State.longRefs_keeps | apply State.decMark_keeps | apply State.event_keeps | apply State.setDecState_keeps | apply ite_keeps | split) | (dsimp +zetaDelta only)

theorem State.decDone_keeps {s₀ : State} {s : State} (d : Nat) (i : Nat) (sh : Nat) (x : DecPic) (h : Keeps s₀ s) : Keeps s₀ (State.decDone s d i sh x) := by
  unfold State.decDone
  try extract_lets
  with_reducible repeat' first | assumption | apply State.wr_keeps | apply State.setDecSt_keeps | apply State.decSkip_keeps | apply State.curFree_keeps | apply State.inc_keeps | apply State.setDecState_keeps | apply State.decode_keeps | apply State.outputPic_keeps | apply State.repin_keeps | apply State.holdPart_keeps | apply foldl_keeps | (intro _) | split | (refine Keeps.mk' ?_ rfl rfl; first | assumption | apply State.wr_keeps | apply State.setDecSt_keeps | apply State.decSkip_keeps | apply State.curFree_keeps | apply State.inc_keeps | apply State.setDecState_keeps | apply State.decode_keeps | apply State.outputPic_keeps | apply State.repin_keeps | apply State.holdPart_keeps | apply foldl_keeps | split) | (dsimp +zetaDelta only)

theorem State.decPicture_keeps {s₀ : State} {s : State} (d : Nat) (i : Nat) (x : DecPic) (h : Keeps s₀ s) : Keeps s₀ (State.decPicture s d i x) := by
  unfold State.decPicture
  with_reducible repeat' first | assumption | apply State.wr_keeps | apply State.decBegin_keeps | apply State.decDone_keeps | apply ite_keeps | split | (refine Keeps.mk' ?_ rfl rfl; first | assumption | apply State.wr_keeps | apply State.decBegin_keeps | apply State.decDone_keeps | apply ite_keeps | split)

theorem execDecPictureDone_keeps {s₀ : State} (d : Fin 8) (i : Fin 128) (x : DecPic) {s : State} (h : Keeps s₀ s) : KeepsOut s₀ (execDecPictureDone d i x s) := by
  unfold execDecPictureDone
  with_reducible repeat' first | apply KeepsOut.next | assumption | apply State.wr_keeps | apply State.decPicture_keeps

theorem State.decCommit_keeps {s₀ : State} (o : State) {s : State} (d : Nat) (h : Keeps s₀ s) : Keeps s₀ (State.decCommit o s d) := by
  unfold State.decCommit
  try extract_lets
  with_reducible repeat' first | assumption | apply State.wr_keeps | apply State.forRange_keeps | apply State.setDecSt_keeps | apply State.reserveGroup_keeps | apply State.setDecState_keeps | apply State.releaseGroup_keeps | (intro _) | split | (refine Keeps.mk' ?_ rfl rfl; first | assumption | apply State.wr_keeps | apply State.forRange_keeps | apply State.setDecSt_keeps | apply State.reserveGroup_keeps | apply State.setDecState_keeps | apply State.releaseGroup_keeps | split) | (dsimp +zetaDelta only)

end Sys2Proof.Machine
end

