-- ==== Sys2Proof/Laws/Keeps/Ledger.lean ====
section
/-!
SUPPORT. Sys2Proof/Laws/Keeps/Ledger.lean: what each operation of Machine/Ledger.lean keeps (Keeps of Safety.lean).
-/
namespace Sys2Proof.Machine
set_option linter.all false

theorem State.setPic_keeps {s₀ : State} {s : State} (d : Nat) (i : Nat) (p : PicSt) (h : Keeps s₀ s) : Keeps s₀ (State.setPic s d i p) := by
  unfold State.setPic
  try extract_lets
  with_reducible repeat' first | assumption | apply State.wr_keeps | apply State.setEncSt_keeps | (intro _) | apply ite_keeps | split | (refine Keeps.mk' ?_ rfl rfl; first | assumption | apply State.wr_keeps | apply State.setEncSt_keeps | apply ite_keeps | split) | (dsimp +zetaDelta only)

theorem State.showFlooring_keeps {s₀ : State} {s : State} (d : Nat) (i : Nat) (h : Keeps s₀ s) : Keeps s₀ (State.showFlooring s d i) := by
  unfold State.showFlooring
  try extract_lets
  with_reducible repeat' first | assumption | apply State.wr_keeps | (intro _) | (dsimp +zetaDelta only)

theorem State.setFill_keeps {s₀ : State} {s : State} (d : Nat) (i : Nat) (j : Nat) (u : Nat) (line : Nat) (h : Keeps s₀ s) : Keeps s₀ (State.setFill s d i j u line) := by
  unfold State.setFill
  try extract_lets
  with_reducible repeat' first | assumption | apply State.wr_keeps | apply State.setEncSt_keeps | (intro _) | (refine Keeps.mk' ?_ rfl rfl; first | assumption | apply State.wr_keeps | apply State.setEncSt_keeps) | (dsimp +zetaDelta only)

theorem State.pictureBudget_keeps {s₀ : State} {s : State} (d : Nat) (i : Nat) (p : PicSt) (h : Keeps s₀ s) : Keeps s₀ (State.pictureBudget s d i p).1 := by
  unfold State.pictureBudget
  try extract_lets
  with_reducible repeat' first | assumption | apply State.wr_keeps | apply State.inc_keeps | (intro _) | apply ite_keeps | split | (refine Keeps.mk' ?_ rfl rfl; first | assumption | apply State.wr_keeps | apply State.inc_keeps | apply ite_keeps | split) | (dsimp +zetaDelta only)

theorem State.asOf_keeps {s₀ : State} {s : State} (p : PicSt) (h : Keeps s₀ s) : Keeps s₀ (State.asOf s p) := by
  unfold State.asOf
  with_reducible repeat' first | assumption | apply State.wr_keeps | apply State.setReg_keeps | apply foldl_keeps | (intro _)

theorem State.ledRowStart_keeps {s₀ : State} {s : State} (d : Nat) (i : Nat) (j : Nat) (p : PicSt) (h : Keeps s₀ s) : Keeps s₀ (State.ledRowStart s d i j p) := by
  unfold State.ledRowStart
  try extract_lets
  with_reducible repeat' first | assumption | apply State.wr_keeps | apply State.setFill_keeps | apply State.setPic_keeps | apply ite_keeps | split | (refine Keeps.mk' ?_ rfl rfl; first | assumption | apply State.wr_keeps | apply State.setFill_keeps | apply State.setPic_keeps | apply ite_keeps | split) | (dsimp +zetaDelta only)

theorem State.ledRowEnd_keeps {s₀ : State} {s : State} (d : Nat) (i : Nat) (j : Nat) (p : PicSt) (q : Nat) (h : Keeps s₀ s) : Keeps s₀ (State.ledRowEnd s d i j p q).1 := by
  unfold State.ledRowEnd
  try extract_lets
  with_reducible repeat' first | assumption | apply State.wr_keeps | apply State.setFill_keeps | apply ite_keeps | split | (refine Keeps.mk' ?_ rfl rfl; first | assumption | apply State.wr_keeps | apply State.setFill_keeps | apply ite_keeps | split) | (dsimp +zetaDelta only)

theorem State.closeCtu_keeps {s₀ : State} {s : State} (d : Nat) (i : Nat) (j : Nat) (p : PicSt) (h : Keeps s₀ s) : Keeps s₀ (State.closeCtu s d i j p) := by
  unfold State.closeCtu
  try extract_lets
  with_reducible repeat' first | assumption | apply State.wr_keeps | apply State.asOf_keeps | apply State.inc_keeps | apply State.ledRowEnd_keeps | apply State.setPic_keeps | refine Keeps.fst ‹_ = (_, _)› ?_ | apply ite_keeps | split | (refine Keeps.mk' ?_ rfl rfl; first | assumption | apply State.wr_keeps | apply State.asOf_keeps | apply State.inc_keeps | apply State.ledRowEnd_keeps | apply State.setPic_keeps | apply ite_keeps | split) | (dsimp +zetaDelta only)

theorem State.unitDecide_keeps {s₀ : State} {s : State} (d : Nat) (i : Nat) (j : Nat) (p : PicSt) (b : Nat) (fl : Nat) (h : Keeps s₀ s) : Keeps s₀ (State.unitDecide s d i j p b fl) := by
  unfold State.unitDecide
  try extract_lets
  with_reducible repeat' first | assumption | apply State.wr_keeps | apply State.asOf_keeps | apply State.inc_keeps | apply State.ticketWr_keeps | apply State.setFill_keeps | apply State.setPic_keeps | apply State.closeCtu_keeps | apply State.showFlooring_keeps | apply ite_keeps | split | (refine Keeps.mk' ?_ rfl rfl; first | assumption | apply State.wr_keeps | apply State.asOf_keeps | apply State.inc_keeps | apply State.ticketWr_keeps | apply State.setFill_keeps | apply State.setPic_keeps | apply State.closeCtu_keeps | apply State.showFlooring_keeps | apply ite_keeps | split) | (dsimp +zetaDelta only)

theorem execUnitCoded_keeps {s₀ : State} (d : Fin 8) (i : Fin 128) (j : Fin 4) (bits : Nat) (floorBits : Nat) {s : State} (h : Keeps s₀ s) : KeepsOut s₀ (execUnitCoded d i j bits floorBits s) := by
  unfold execUnitCoded
  with_reducible repeat' first | apply KeepsOut.next | assumption | apply State.wr_keeps | apply State.unitDecide_keeps | split | (refine Keeps.mk' ?_ rfl rfl; first | assumption | apply State.wr_keeps | apply State.unitDecide_keeps | split)

theorem State.showLedger_keeps {s₀ : State} {s : State} (d : Nat) (i : Nat) (h : Keeps s₀ s) : Keeps s₀ (State.showLedger s d i) := by
  unfold State.showLedger
  try extract_lets
  with_reducible repeat' first | assumption | apply State.wr_keeps | apply ite_keeps | split | (dsimp +zetaDelta only)

theorem State.showLedgers_keeps {s₀ : State} {s : State} (h : Keeps s₀ s) : Keeps s₀ (State.showLedgers s) := by
  unfold State.showLedgers
  with_reducible repeat' first | assumption | apply State.wr_keeps | apply State.forRange_keeps | apply State.showLedger_keeps | (intro _)

end Sys2Proof.Machine
end

