-- ==== Sys2Proof/Laws/Keeps/Motion.lean ====
section
/-!
SUPPORT. Sys2Proof/Laws/Keeps/Motion.lean: what each operation of Machine/Motion.lean keeps (Keeps of Safety.lean).
-/
namespace Sys2Proof.Machine
set_option linter.all false

theorem State.coarseRows_keeps {s₀ : State} {s : State} (d : Nat) (i : Nat) (j : Nat) (p : PicSt) (q : Nat) (h : Keeps s₀ s) : Keeps s₀ (State.coarseRows s d i j p q) := by
  unfold State.coarseRows
  try extract_lets
  with_reducible repeat' first | assumption | apply State.wr_keeps | apply State.ticketWr_keeps | apply foldl_keeps | (intro _) | split | (refine Keeps.mk' ?_ rfl rfl; first | assumption | apply State.wr_keeps | apply State.ticketWr_keeps | apply foldl_keeps | split) | (dsimp +zetaDelta only)

theorem State.showTriggers_keeps {s₀ : State} {s : State} (d : Nat) (i : Nat) (m : MotPic) (h : Keeps s₀ s) : Keeps s₀ (State.showTriggers s d i m) := by
  unfold State.showTriggers
  with_reducible repeat' first | assumption | apply State.wr_keeps

theorem State.sceneCut_keeps {s₀ : State} {s : State} (d : Nat) (i : Nat) (p : PicSt) (ay : Nat) (h : Keeps s₀ s) : Keeps s₀ (State.sceneCut s d i p ay) := by
  unfold State.sceneCut
  try extract_lets
  with_reducible repeat' first | assumption | apply State.wr_keeps | apply State.asOf_keeps | apply State.setPic_keeps | apply State.inc_keeps | apply State.showTriggers_keeps | (intro _) | apply ite_keeps | split | (refine Keeps.mk' ?_ rfl rfl; first | assumption | apply State.wr_keeps | apply State.asOf_keeps | apply State.setPic_keeps | apply State.inc_keeps | apply State.showTriggers_keeps | apply ite_keeps | split) | (dsimp +zetaDelta only)

theorem State.coarse_keeps {s₀ : State} {s : State} (d : Nat) (i : Nat) (ax : Nat) (ay : Nat) (h : Keeps s₀ s) : Keeps s₀ (State.coarse s d i ax ay) := by
  unfold State.coarse
  try extract_lets
  with_reducible repeat' first | assumption | apply State.wr_keeps | apply State.setPic_keeps | apply State.sceneCut_keeps | (intro _) | apply ite_keeps | split | (refine Keeps.mk' ?_ rfl rfl; first | assumption | apply State.wr_keeps | apply State.setPic_keeps | apply State.sceneCut_keeps | apply ite_keeps | split) | (dsimp +zetaDelta only)

theorem execMotionAreaCoarse_keeps {s₀ : State} (d : Fin 8) (i : Fin 128) (ax : Fin 128) (ay : Fin 128) (pic : Nat) {s : State} (h : Keeps s₀ s) : KeepsOut s₀ (execMotionAreaCoarse d i ax ay pic s) := by
  unfold execMotionAreaCoarse
  with_reducible repeat' first | apply KeepsOut.next | assumption | apply State.wr_keeps | apply State.when_keeps | apply State.coarse_keeps | (intro _)

theorem State.unitAt_keeps {s₀ : State} {s : State} (r : Nat) (idx : Nat) (ws : List Word) (h : Keeps s₀ s) : Keeps s₀ (State.unitAt s r idx ws) := by
  unfold State.unitAt
  with_reducible repeat' first | assumption | apply State.wr_keeps | apply State.entryWrite_keeps

theorem State.noRing_keeps {s₀ : State} {s : State} (d : Nat) (i : Nat) (r : Nat) (n : Nat) (h : Keeps s₀ s) : Keeps s₀ (State.noRing s d i r n) := by
  unfold State.noRing
  try extract_lets
  with_reducible repeat' first | assumption | apply State.wr_keeps | apply State.inc_keeps | apply State.statLose_keeps | apply ite_keeps | split | (dsimp +zetaDelta only)

theorem State.reserveRun_keeps {s₀ : State} {s : State} (d : Nat) (i : Nat) (num : Nat) (j : Nat) (r : Nat) (h : Keeps s₀ s) : Keeps s₀ (State.reserveRun s d i num j r) := by
  unfold State.reserveRun
  try extract_lets
  with_reducible repeat' first | assumption | apply State.wr_keeps | apply State.asOf_keeps | apply State.setPic_keeps | apply State.noRing_keeps | apply State.statLose_keeps | apply State.statGap_keeps | (intro _) | apply ite_keeps | split | (refine Keeps.mk' ?_ rfl rfl; first | assumption | apply State.wr_keeps | apply State.asOf_keeps | apply State.setPic_keeps | apply State.noRing_keeps | apply State.statLose_keeps | apply State.statGap_keeps | apply ite_keeps | split) | (dsimp +zetaDelta only)

theorem State.windowLoad_keeps {s₀ : State} {s : State} (d : Nat) (i : Nat) (p : PicSt) (j : Nat) (bx : Nat) (by_ : Nat) (h : Keeps s₀ s) : Keeps s₀ (State.windowLoad s d i p j bx by_).1 := by
  unfold State.windowLoad
  try extract_lets
  with_reducible repeat' first | assumption | apply State.wr_keeps | (intro _) | (refine Keeps.mk' ?_ rfl rfl; first | assumption | apply State.wr_keeps) | (dsimp +zetaDelta only)

theorem State.countArea_keeps {s₀ : State} {s : State} (d : Nat) (i : Nat) (j : Nat) (known : Option Bool) (dec : Option Bool) (h : Keeps s₀ s) : Keeps s₀ (State.countArea s d i j known dec) := by
  unfold State.countArea
  with_reducible repeat' first | assumption | apply State.wr_keeps | apply State.incWrap_keeps | apply State.inc_keeps | split | (refine Keeps.mk' ?_ rfl rfl; first | assumption | apply State.wr_keeps | apply State.incWrap_keeps | apply State.inc_keeps | split)

theorem State.dropRun_keeps {s₀ : State} {s : State} (d : Nat) (i : Nat) (num : Nat) (key : Nat) (gone : Bool) (h : Keeps s₀ s) : Keeps s₀ (State.dropRun s d i num key gone) := by
  unfold State.dropRun
  with_reducible repeat' first | assumption | apply State.wr_keeps | apply State.setPic_keeps | (intro _) | apply ite_keeps | split | (refine Keeps.mk' ?_ rfl rfl; first | assumption | apply State.wr_keeps | apply State.setPic_keeps | apply ite_keeps | split)

theorem State.stopRun_keeps {s₀ : State} {s : State} (d : Nat) (i : Nat) (p : PicSt) (j : Nat) (r : Nat) (ring : Nat) (h : Keeps s₀ s) : Keeps s₀ (State.stopRun s d i p j r ring) := by
  unfold State.stopRun
  with_reducible repeat' first | assumption | apply State.wr_keeps | apply State.noRing_keeps | apply State.dropRun_keeps

theorem State.blockUnit_keeps {s₀ : State} {s : State} (d : Nat) (i : Nat) (p : PicSt) (j : Nat) (bx : Nat) (by_ : Nat) (rec_ : BlkRec) (h : Keeps s₀ s) : Keeps s₀ (State.blockUnit s d i p j bx by_ rec_) := by
  unfold State.blockUnit
  try extract_lets
  with_reducible repeat' first | assumption | apply State.wr_keeps | apply State.stopRun_keeps | apply State.asOf_keeps | apply State.unitAt_keeps | (intro _) | apply ite_keeps | split | (refine Keeps.mk' ?_ rfl rfl; first | assumption | apply State.wr_keeps | apply State.stopRun_keeps | apply State.asOf_keeps | apply State.unitAt_keeps | apply ite_keeps | split) | (dsimp +zetaDelta only)

theorem State.searchBlock_keeps {s₀ : State} {s : State} (d : Nat) (i : Nat) (p : PicSt) (j : Nat) (bx : Nat) (by_ : Nat) (h : Keeps s₀ s) : Keeps s₀ (State.searchBlock s d i p j bx by_) := by
  unfold State.searchBlock
  try extract_lets
  with_reducible repeat' first | assumption | apply State.wr_keeps | apply State.countArea_keeps | apply State.windowLoad_keeps | apply State.ticketRd_keeps | apply State.ticketWr_keeps | apply State.setPic_keeps | apply State.blockUnit_keeps | refine Keeps.fst ‹_ = (_, _)› ?_ | (intro _) | apply ite_keeps | split | (refine Keeps.mk' ?_ rfl rfl; first | assumption | apply State.wr_keeps | apply State.countArea_keeps | apply State.windowLoad_keeps | apply State.ticketRd_keeps | apply State.ticketWr_keeps | apply State.setPic_keeps | apply State.blockUnit_keeps | apply ite_keeps | split) | (dsimp +zetaDelta only)

theorem execMotionBlockDone_keeps {s₀ : State} (d : Fin 8) (i : Fin 128) (bx : Fin 512) (by_ : Fin 512) (tile : Fin 4) (pic : Nat) {s : State} (h : Keeps s₀ s) : KeepsOut s₀ (execMotionBlockDone d i bx by_ tile pic s) := by
  unfold execMotionBlockDone
  try extract_lets
  with_reducible repeat' first | apply KeepsOut.next | assumption | apply State.wr_keeps | apply State.coarse_keeps | apply State.searchBlock_keeps | apply ite_keeps | split | (refine Keeps.mk' ?_ rfl rfl; first | assumption | apply State.wr_keeps | apply State.coarse_keeps | apply State.searchBlock_keeps | apply ite_keeps | split) | (dsimp +zetaDelta only)

theorem State.putSummary_keeps {s₀ : State} {s : State} (d : Nat) (i : Nat) (p : PicSt) (j : Nat) (r : Nat) (margin : Int) (h : Keeps s₀ s) : Keeps s₀ (State.putSummary s d i p j r margin) := by
  unfold State.putSummary
  try extract_lets
  with_reducible repeat' first | assumption | apply State.wr_keeps | apply State.stopRun_keeps | apply State.asOf_keeps | apply State.unitAt_keeps | apply State.dropRun_keeps | apply State.writeBack_keeps | apply State.ringIrq_keeps | apply foldl_keeps | (intro _) | apply ite_keeps | split | (refine Keeps.mk' ?_ rfl rfl; first | assumption | apply State.wr_keeps | apply State.stopRun_keeps | apply State.asOf_keeps | apply State.unitAt_keeps | apply State.dropRun_keeps | apply State.writeBack_keeps | apply State.ringIrq_keeps | apply foldl_keeps | apply ite_keeps | split) | (dsimp +zetaDelta only)

theorem State.abortRun_keeps {s₀ : State} {s : State} (d : Nat) (i : Nat) (p : PicSt) (j : Nat) (r : Nat) (ring : Nat) (h : Keeps s₀ s) : Keeps s₀ (State.abortRun s d i p j r ring) := by
  unfold State.abortRun
  try extract_lets
  with_reducible repeat' first | assumption | apply State.wr_keeps | apply State.dropRun_keeps | apply State.statCut_keeps | apply State.cutMarks_keeps | apply ite_keeps | split | (dsimp +zetaDelta only)

theorem State.abortRuns_keeps {s₀ : State} {s : State} (d : Nat) (i : Nat) (p : PicSt) (h : Keeps s₀ s) : Keeps s₀ (State.abortRuns s d i p) := by
  unfold State.abortRuns
  with_reducible repeat' first | assumption | apply State.wr_keeps | apply State.abortRun_keeps | apply foldl_keeps | (intro _) | split | (refine Keeps.mk' ?_ rfl rfl; first | assumption | apply State.wr_keeps | apply State.abortRun_keeps | apply foldl_keeps | split)

theorem State.putHist_keeps {s₀ : State} {s : State} (d : Nat) (i : Nat) (p : PicSt) (h : Keeps s₀ s) : Keeps s₀ (State.putHist s d i p) := by
  unfold State.putHist
  try extract_lets
  with_reducible repeat' first | assumption | apply State.wr_keeps | apply State.asOf_keeps | apply State.noRing_keeps | apply State.putStat_keeps | apply ite_keeps | split | (dsimp +zetaDelta only)

theorem State.takeHint_keeps {s₀ : State} {s : State} (d : Nat) (i : Nat) (ws : List Word) (h : Keeps s₀ s) : Keeps s₀ (State.takeHint s d i ws) := by
  unfold State.takeHint
  try extract_lets
  with_reducible repeat' first | assumption | apply State.wr_keeps | apply State.inc_keeps | apply State.setEncSt_keeps | apply ite_keeps | split | (refine Keeps.mk' ?_ rfl rfl; first | assumption | apply State.wr_keeps | apply State.inc_keeps | apply State.setEncSt_keeps | apply ite_keeps | split) | (dsimp +zetaDelta only)

theorem State.hintDone_keeps {s₀ : State} {s : State} (r : Nat) (x : Desc) (h : Keeps s₀ s) : Keeps s₀ (State.hintDone s r x) := by
  unfold State.hintDone
  try extract_lets
  with_reducible repeat' first | assumption | apply State.wr_keeps | apply State.incWrap_keeps | apply State.takeHint_keeps | apply State.complete_keeps | split | (refine Keeps.mk' ?_ rfl rfl; first | assumption | apply State.wr_keeps | apply State.incWrap_keeps | apply State.takeHint_keeps | apply State.complete_keeps | split) | (dsimp +zetaDelta only)

theorem execMotionHint_keeps {s₀ : State} (r : Fin 4096) {s : State} (h : Keeps s₀ s) : KeepsOut s₀ (execMotionHint r s) := by
  unfold execMotionHint
  with_reducible repeat' first | apply KeepsOut.next | assumption | apply State.wr_keeps | apply State.dispatch_keeps | apply State.hintDone_keeps | (intro _)

end Sys2Proof.Machine
end

