-- ==== Sys2Proof/Laws/Keeps/Encode.lean ====
section
/-!
SUPPORT. Sys2Proof/Laws/Keeps/Encode.lean: what each operation of Machine/Encode.lean keeps (Keeps of Safety.lean).
-/
namespace Sys2Proof.Machine
set_option linter.all false

theorem State.showPipes_keeps {s₀ : State} {s : State} (d : Nat) (h : Keeps s₀ s) : Keeps s₀ (State.showPipes s d) := by
  unfold State.showPipes
  try extract_lets
  with_reducible repeat' first | assumption | apply State.wr_keeps | apply State.forRange_keeps | (intro _) | split | (dsimp +zetaDelta only)

theorem State.setEncState_keeps {s₀ : State} {s : State} (d : Nat) (i : Nat) (v : Nat) (h : Keeps s₀ s) : Keeps s₀ (State.setEncState s d i v) := by
  unfold State.setEncState
  with_reducible repeat' first | assumption | apply State.wr_keeps | apply State.showPipes_keeps

theorem State.encOff_keeps {s₀ : State} {s : State} (d : Nat) (i : Nat) (h : Keeps s₀ s) : Keeps s₀ (State.encOff s d i) := by
  unfold State.encOff
  with_reducible repeat' first | assumption | apply State.wr_keeps | apply State.setEncSt_keeps | apply State.releaseGroup_keeps | apply State.setEncState_keeps

theorem State.encRefuse_keeps {s₀ : State} {s : State} (d : Nat) (i : Nat) (code : Nat) (a : Nat) (h : Keeps s₀ s) : Keeps s₀ (State.encRefuse s d i code a) := by
  unfold State.encRefuse
  with_reducible repeat' first | assumption | apply State.wr_keeps | apply State.refuse_keeps

theorem State.reqWrite_keeps {s₀ : State} {s : State} (d : Nat) (i : Nat) (v : Word) (h : Keeps s₀ s) : Keeps s₀ (State.reqWrite s d i v) := by
  unfold State.reqWrite
  with_reducible repeat' first | assumption | apply State.wr_keeps | apply State.setEncSt_keeps | apply State.encRefuse_keeps | apply ite_keeps | split | (refine Keeps.mk' ?_ rfl rfl; first | assumption | apply State.wr_keeps | apply State.setEncSt_keeps | apply State.encRefuse_keeps | apply ite_keeps | split)

theorem execEncRefreshReq_keeps {s₀ : State} (d : Fin 8) (i : Fin 128) (v : Word) {s : State} (h : Keeps s₀ s) : KeepsOut s₀ (execEncRefreshReq d i v s) := by
  unfold execEncRefreshReq
  with_reducible repeat' first | apply KeepsOut.next | assumption | apply State.wr_keeps | apply State.reqWrite_keeps

theorem State.reserveRuns_keeps {s₀ : State} {s : State} (d : Nat) (i : Nat) (num : Nat) (j : Nat) (q : Nat) (h : Keeps s₀ s) : Keeps s₀ (State.reserveRuns s d i num j q) := by
  unfold State.reserveRuns
  with_reducible repeat' first | assumption | apply State.wr_keeps | apply State.reserveRun_keeps | apply foldl_keeps | (intro _)

theorem State.makeRow_keeps {s₀ s : State} (d i : Nat) (p : PicSt) (j n q : Nat) (h : Keeps s₀ s) : Keeps s₀ (s.makeRow d i p j n q) := by
  induction n generalizing s q with
  | zero => exact h
  | succ n ih =>
    unfold State.makeRow
    try extract_lets
    repeat' first | with_reducible assumption | with_reducible apply ih | with_reducible apply State.setTask_keeps | with_reducible apply State.setDelay_keeps | with_reducible apply State.joinTail_keeps | with_reducible apply State.refill_keeps | with_reducible apply State.reserveRuns_keeps | with_reducible apply State.incWrap_keeps | with_reducible apply State.inc_keeps | with_reducible apply State.wr_keeps | with_reducible apply ite_keeps | split

theorem State.cutRow_keeps {s₀ : State} {s : State} (x : Nat × Word × Word) (h : Keeps s₀ s) : Keeps s₀ (State.cutRow s x) := by
  unfold State.cutRow
  try extract_lets
  with_reducible repeat' first | assumption | apply State.wr_keeps | apply State.abortRun_keeps | apply foldl_keeps | (intro _) | split | (refine Keeps.mk' ?_ rfl rfl; first | assumption | apply State.wr_keeps | apply State.abortRun_keeps | apply foldl_keeps | split) | (dsimp +zetaDelta only)

theorem State.cutCycle_keeps {s₀ : State} {s : State} (h : Keeps s₀ s) : Keeps s₀ (State.cutCycle s) := by
  unfold State.cutCycle
  try extract_lets
  with_reducible repeat' first | assumption | apply State.wr_keeps | apply State.cutRow_keeps | apply State.cutMarks_keeps | apply foldl_keeps | (intro _) | (refine Keeps.mk' ?_ rfl rfl; first | assumption | apply State.wr_keeps | apply State.cutRow_keeps | apply State.cutMarks_keeps | apply foldl_keeps) | (dsimp +zetaDelta only)

theorem State.rowWoke_keeps {s₀ s : State} (d t : Nat) (h : Keeps s₀ s) : Keeps s₀ (s.rowWoke d t) := by
  unfold State.rowWoke
  extract_lets x i
  refine ite_keeps h ?_
  split
  · exact ite_keeps h (State.makeRow_keeps _ _ _ _ _ _ (State.reserveRuns_keeps _ _ _ _ _ h))
  · exact h

theorem execTaskWake_keeps {s₀ : State} (d : Fin 8) (l : Fin 5) {s : State} (h : Keeps s₀ s) : KeepsOut s₀ (execTaskWake d l s) := by
  unfold execTaskWake
  with_reducible repeat' first | apply KeepsOut.next | assumption | apply State.wr_keeps | apply State.wakeTask_keeps | apply State.rowWoke_keeps | split | (refine Keeps.mk' ?_ rfl rfl; first | assumption | apply State.wr_keeps | apply State.wakeTask_keeps | apply State.rowWoke_keeps | split)

theorem State.taskBegins_keeps {s₀ : State} {s : State} (d : Nat) (k : Nat) (t : Nat) (h : Keeps s₀ s) : Keeps s₀ (State.taskBegins s d k t) := by
  unfold State.taskBegins
  try extract_lets
  with_reducible repeat' first | assumption | apply State.wr_keeps | apply State.coarseRows_keeps | apply State.ledRowStart_keeps | apply State.decStart_keeps | (intro _) | apply ite_keeps | split | (refine Keeps.mk' ?_ rfl rfl; first | assumption | apply State.wr_keeps | apply State.coarseRows_keeps | apply State.ledRowStart_keeps | apply State.decStart_keeps | apply ite_keeps | split) | (dsimp +zetaDelta only)

theorem execTaskStart_keeps {s₀ : State} (d : Fin 8) (k : Fin 256) {s : State} (h : Keeps s₀ s) : KeepsOut s₀ (execTaskStart d k s) := by
  unfold execTaskStart
  try extract_lets
  with_reducible repeat' first | apply KeepsOut.next | assumption | apply State.wr_keeps | apply State.startTask_keeps | apply State.taskBegins_keeps | split | (refine Keeps.mk' ?_ rfl rfl; first | assumption | apply State.wr_keeps | apply State.startTask_keeps | apply State.taskBegins_keeps | split) | (dsimp +zetaDelta only)

theorem State.dropOld_keeps {s₀ : State} {s : State} (d : Nat) (i : Nat) (keep : List Nat) (h : Keeps s₀ s) : Keeps s₀ (State.dropOld s d i keep) := by
  unfold State.dropOld
  with_reducible repeat' first | assumption | apply State.wr_keeps | apply State.dropRef_keeps | apply foldl_keeps | (intro _) | apply ite_keeps | split

theorem State.aliasBuf_keeps {s₀ : State} {s : State} (d : Nat) (codec : Nat) (g : Option RefE) (h : Keeps s₀ s) : Keeps s₀ (State.aliasBuf s d codec g) := by
  unfold State.aliasBuf
  with_reducible repeat' first | assumption | apply State.wr_keeps | apply State.setBuf_keeps | apply ite_keeps | split | (refine Keeps.mk' ?_ rfl rfl; first | assumption | apply State.wr_keeps | apply State.setBuf_keeps | apply ite_keeps | split)

theorem State.idleSlot_keeps {s₀ : State} {s : State} (d : Nat) (i : Nat) (frame : Nat) (field : Nat) (h : Keeps s₀ s) : Keeps s₀ (State.idleSlot s d i frame field) := by
  unfold State.idleSlot
  try extract_lets
  with_reducible repeat' first | assumption | apply State.wr_keeps | apply State.aliasBuf_keeps | apply State.setEncSt_keeps | apply ite_keeps | split | (refine Keeps.mk' ?_ rfl rfl; first | assumption | apply State.wr_keeps | apply State.aliasBuf_keeps | apply State.setEncSt_keeps | apply ite_keeps | split) | (dsimp +zetaDelta only)

theorem State.greyGraft_keeps {s₀ : State} {s : State} (d : Nat) (i : Nat) (p : PicSt) (b : Nat) (h : Keeps s₀ s) : Keeps s₀ (State.greyGraft s d i p b) := by
  unfold State.greyGraft
  with_reducible repeat' first | assumption | apply State.wr_keeps | apply State.setBuf_keeps | apply ite_keeps | split | (refine Keeps.mk' ?_ rfl rfl; first | assumption | apply State.wr_keeps | apply State.setBuf_keeps | apply ite_keeps | split)

theorem State.startPic_keeps {s₀ : State} {s : State} (d : Nat) (i : Nat) (e : EncSt) (kind : Nat) (b : Option Nat) (p : PicSt) (h : Keeps s₀ s) : Keeps s₀ (State.startPic s d i e kind b p) := by
  unfold State.startPic
  try extract_lets
  with_reducible repeat' first | assumption | apply State.wr_keeps | apply State.setEncSt_keeps | apply State.setEncState_keeps | apply State.incWrap_keeps | apply State.forRange_keeps | apply State.makeRow_keeps | apply foldl_keeps | (intro _) | (refine Keeps.mk' ?_ rfl rfl; first | assumption | apply State.wr_keeps | apply State.setEncSt_keeps | apply State.setEncState_keeps | apply State.incWrap_keeps | apply State.forRange_keeps | apply State.makeRow_keeps | apply foldl_keeps) | (dsimp +zetaDelta only)

theorem State.codeInto_keeps {s₀ s : State} (d i : Nat) (e : EncSt) (kind frame field : Nat) (alias0 : Bool) (b : Option Nat) (h : Keeps s₀ s) :
    Keeps s₀ (s.codeInto d i e kind frame field alias0 b) := by
  unfold State.codeInto
  extract_lets +onlyGivenNames hint scene s1 s2 init mot s3 p x
  have g1 : Keeps s₀ s1 := ite_keeps h (State.inc_keeps _ h)
  clear_value s1
  have g2 : Keeps s₀ s2 := ite_keeps (State.inc_keeps _ g1) g1
  clear_value s2
  have g3 : Keeps s₀ s3 := State.showTriggers_keeps _ _ _ g2
  clear_value s3
  exact State.startPic_keeps _ _ _ _ _ _ (State.pictureBudget_keeps _ _ _ (elim_keeps _ (fun c => State.greyGraft_keeps _ _ _ c g3) g3))

theorem State.codeSlot_keeps {s₀ s : State} (d i frame field : Nat) (h : Keeps s₀ s) : Keeps s₀ (s.codeSlot d i frame field) := by
  unfold State.codeSlot
  extract_lets +onlyGivenNames e kind s1 s2
  have g1 : Keeps s₀ s1 := ite_keeps (State.inc_keeps _ h) h
  clear_value s1
  have g2 : Keeps s₀ s2 := ite_keeps g1 (State.inc_keeps _ g1)
  clear_value s2
  extract_lets +onlyGivenNames s3 alias0 x
  have g3 : Keeps s₀ s3 := State.fitGroup_keeps _ _ (State.dropOld_keeps _ _ _ g2)
  clear_value s3
  exact State.codeInto_keeps _ _ _ _ _ _ _ _ (State.allocBuf_keeps _ _ _ _ g3)

theorem State.slotBegins_keeps {s₀ s : State} (d i frame field : Nat) (h : Keeps s₀ s) : Keeps s₀ (s.slotBegins d i frame field) :=
  ite_keeps h (ite_keeps (State.idleSlot_keeps _ _ _ _ h) (State.codeSlot_keeps _ _ _ _ h))

theorem State.slotsBegin_keeps {s₀ : State} {s : State} (d : Nat) (k : Nat) (frame : Nat) (field : Nat) (h : Keeps s₀ s) : Keeps s₀ (State.slotsBegin s d k frame field) := by
  unfold State.slotsBegin
  with_reducible repeat' first | assumption | apply State.wr_keeps | apply State.forRange_keeps | apply State.slotBegins_keeps | (intro _)

theorem State.abandon_keeps {s₀ : State} {s : State} (d : Nat) (i : Nat) (num : Nat) (h : Keeps s₀ s) : Keeps s₀ (State.abandon s d i num) := by
  unfold State.abandon
  try extract_lets
  with_reducible repeat' first | assumption | apply State.wr_keeps | apply State.aliasBuf_keeps | apply State.freeBuf_keeps | apply State.setEncSt_keeps | apply State.stopTask_keeps | apply State.abortRuns_keeps | apply foldl_keeps | (intro _) | apply ite_keeps | split | (refine Keeps.mk' ?_ rfl rfl; first | assumption | apply State.wr_keeps | apply State.aliasBuf_keeps | apply State.freeBuf_keeps | apply State.setEncSt_keeps | apply State.stopTask_keeps | apply State.abortRuns_keeps | apply foldl_keeps | apply ite_keeps | split) | (dsimp +zetaDelta only)

theorem State.picDone_keeps {s₀ : State} {s : State} (d : Nat) (i : Nat) (p : PicSt) (h : Keeps s₀ s) : Keeps s₀ (State.picDone s d i p) := by
  unfold State.picDone
  try extract_lets
  with_reducible repeat' first | assumption | apply State.wr_keeps | apply State.setEncSt_keeps | apply State.setBuf_keeps | apply State.freeBuf_keeps | apply State.dropOld_keeps | apply ite_keeps | split | (refine Keeps.mk' ?_ rfl rfl; first | assumption | apply State.wr_keeps | apply State.setEncSt_keeps | apply State.setBuf_keeps | apply State.freeBuf_keeps | apply State.dropOld_keeps | apply ite_keeps | split) | (dsimp +zetaDelta only)

theorem State.haltStr_keeps {s₀ : State} {s : State} (d : Nat) (i : Nat) (h : Keeps s₀ s) : Keeps s₀ (State.haltStr s d i) := by
  unfold State.haltStr
  try extract_lets
  with_reducible repeat' first | assumption | apply State.wr_keeps | apply State.abortStr_keeps | apply State.abandon_keeps | apply State.setEncState_keeps | apply State.event_keeps | apply foldl_keeps | (intro _) | apply ite_keeps | split | (dsimp +zetaDelta only)

theorem State.haltPipe_keeps {s₀ : State} {s : State} (d : Nat) (p : Nat) (h : Keeps s₀ s) : Keeps s₀ (State.haltPipe s d p) := by
  unfold State.haltPipe
  with_reducible repeat' first | assumption | apply State.wr_keeps | apply State.haltStr_keeps | apply foldl_keeps | (intro _)

theorem State.unhaltStr_keeps {s₀ : State} {s : State} (d : Nat) (i : Nat) (h : Keeps s₀ s) : Keeps s₀ (State.unhaltStr s d i) := by
  unfold State.unhaltStr
  with_reducible repeat' first | assumption | apply State.wr_keeps | apply State.setEncSt_keeps | apply State.setEncState_keeps | apply ite_keeps | split | (refine Keeps.mk' ?_ rfl rfl; first | assumption | apply State.wr_keeps | apply State.setEncSt_keeps | apply State.setEncState_keeps | apply ite_keeps | split)

theorem State.encCommit_keeps {s₀ : State} (o : State) {s : State} (d : Nat) (h : Keeps s₀ s) : Keeps s₀ (State.encCommit o s d) := by
  unfold State.encCommit
  try extract_lets
  with_reducible repeat' first | assumption | apply State.wr_keeps | apply State.forRange_keeps | apply State.encOff_keeps | apply State.setEncSt_keeps | apply State.reserveGroup_keeps | apply State.setReg_keeps | apply State.setEncState_keeps | apply State.fitGroup_keeps | apply State.showLedger_keeps | apply State.showPipes_keeps | (intro _) | apply ite_keeps | split | (refine Keeps.mk' ?_ rfl rfl; first | assumption | apply State.wr_keeps | apply State.forRange_keeps | apply State.encOff_keeps | apply State.setEncSt_keeps | apply State.reserveGroup_keeps | apply State.setReg_keeps | apply State.setEncState_keeps | apply State.fitGroup_keeps | apply State.showLedger_keeps | apply State.showPipes_keeps | apply ite_keeps | split) | (dsimp +zetaDelta only)

end Sys2Proof.Machine
end

