-- ==== Sys2Proof/Laws/Keeps/Packet.lean ====
section
/-!
SUPPORT. Sys2Proof/Laws/Keeps/Packet.lean: what each operation of Machine/Packet.lean keeps (Keeps of Safety.lean).
-/
namespace Sys2Proof.Machine
set_option linter.all false

theorem State.setOutFlow_keeps {s₀ : State} {s : State} (f : Nat) (x : FlowSt) (h : Keeps s₀ s) : Keeps s₀ (State.setOutFlow s f x) := by
  unfold State.setOutFlow
  with_reducible repeat' first | assumption | apply State.wr_keeps | (intro _) | (refine Keeps.mk' ?_ rfl rfl; first | assumption | apply State.wr_keeps)

theorem State.armFlow_keeps {s₀ : State} {s : State} (f : Nat) (h : Keeps s₀ s) : Keeps s₀ (State.armFlow s f) := by
  unfold State.armFlow
  try extract_lets
  with_reducible repeat' first | assumption | apply State.wr_keeps | apply State.setOutFlow_keeps | apply State.addEntry_keeps | split | (refine Keeps.mk' ?_ rfl rfl; first | assumption | apply State.wr_keeps | apply State.setOutFlow_keeps | apply State.addEntry_keeps | split) | (dsimp +zetaDelta only)

theorem State.pushPkt_keeps {s₀ : State} {s : State} (f : Nat) (p : Pkt) (h : Keeps s₀ s) : Keeps s₀ (State.pushPkt s f p) := by
  unfold State.pushPkt
  try extract_lets
  with_reducible repeat' first | assumption | apply State.wr_keeps | apply State.setOutFlow_keeps | apply State.armFlow_keeps | apply ite_keeps | split | (refine Keeps.mk' ?_ rfl rfl; first | assumption | apply State.wr_keeps | apply State.setOutFlow_keeps | apply State.armFlow_keeps | apply ite_keeps | split) | (dsimp +zetaDelta only)

theorem State.pushRtp_keeps {s₀ : State} {s : State} (f : Nat) (ts : Nat) (pic : Nat) (hold : Bool) (last : Bool) (bs : List Body) (h : Keeps s₀ s) : Keeps s₀ (State.pushRtp s f ts pic hold last bs) := by
  unfold State.pushRtp
  try extract_lets
  with_reducible repeat' first | assumption | apply State.wr_keeps | apply State.setOutFlow_keeps | apply State.pushPkt_keeps | apply foldl_keeps | (intro _) | (refine Keeps.mk' ?_ rfl rfl; first | assumption | apply State.wr_keeps | apply State.setOutFlow_keeps | apply State.pushPkt_keeps | apply foldl_keeps) | (dsimp +zetaDelta only)

theorem State.pushTs_keeps {s₀ : State} {s : State} (f : Nat) (ts : Nat) (pic : Nat) (hold : Bool) (last : Bool) (ps : List (Nat × List Byte)) (h : Keeps s₀ s) : Keeps s₀ (State.pushTs s f ts pic hold last ps) := by
  unfold State.pushTs
  try extract_lets
  with_reducible repeat' first | assumption | apply State.wr_keeps | apply State.setOutFlow_keeps | apply State.pushPkt_keeps | apply foldl_keeps | (intro _) | apply ite_keeps | split | (refine Keeps.mk' ?_ rfl rfl; first | assumption | apply State.wr_keeps | apply State.setOutFlow_keeps | apply State.pushPkt_keeps | apply foldl_keeps | apply ite_keeps | split) | (dsimp +zetaDelta only)

theorem State.sendPsi_keeps {s₀ : State} {s : State} (f : Nat) (codec : Nat) (h : Keeps s₀ s) : Keeps s₀ (State.sendPsi s f codec) := by
  unfold State.sendPsi
  try extract_lets
  with_reducible repeat' first | assumption | apply State.wr_keeps | apply State.setOutFlow_keeps | apply State.pushTs_keeps | (intro _) | (refine Keeps.mk' ?_ rfl rfl; first | assumption | apply State.wr_keeps | apply State.setOutFlow_keeps | apply State.pushTs_keeps) | (dsimp +zetaDelta only)

theorem State.sendPcr_keeps {s₀ : State} {s : State} (f : Nat) (h : Keeps s₀ s) : Keeps s₀ (State.sendPcr s f) := by
  unfold State.sendPcr
  try extract_lets
  with_reducible repeat' first | assumption | apply State.wr_keeps | apply State.setOutFlow_keeps | apply State.pushTs_keeps | (refine Keeps.mk' ?_ rfl rfl; first | assumption | apply State.wr_keeps | apply State.setOutFlow_keeps | apply State.pushTs_keeps) | (dsimp +zetaDelta only)

theorem execTsPsiTimer_keeps {s₀ : State} (f : Fin 2048) {s : State} (h : Keeps s₀ s) : KeepsOut s₀ (execTsPsiTimer f s) := by
  unfold execTsPsiTimer
  with_reducible repeat' first | apply KeepsOut.next | assumption | apply State.wr_keeps | apply State.when_keeps | apply State.sendPsi_keeps | (intro _)

theorem execTsPcrTimer_keeps {s₀ : State} (f : Fin 2048) {s : State} (h : Keeps s₀ s) : KeepsOut s₀ (execTsPcrTimer f s) := by
  unfold execTsPcrTimer
  with_reducible repeat' first | apply KeepsOut.next | assumption | apply State.wr_keeps | apply State.when_keeps | apply State.sendPcr_keeps | (intro _)

end Sys2Proof.Machine
end

