-- ==== Sys2Proof/Laws/Keeps/Output.lean ====
section
/-!
SUPPORT. Sys2Proof/Laws/Keeps/Output.lean: what each operation of Machine/Output.lean keeps (Keeps of Safety.lean).
-/
namespace Sys2Proof.Machine
set_option linter.all false

theorem State.setPkt_keeps {s₀ : State} {s : State} (sid : Nat) (x : PktStr) (h : Keeps s₀ s) : Keeps s₀ (State.setPkt s sid x) := by
  unfold State.setPkt
  with_reducible repeat' first | assumption | apply State.wr_keeps | (intro _) | (refine Keeps.mk' ?_ rfl rfl; first | assumption | apply State.wr_keeps)

theorem State.setPktState_keeps {s₀ : State} {s : State} (sid : Nat) (v : Nat) (h : Keeps s₀ s) : Keeps s₀ (State.setPktState s sid v) := by
  unfold State.setPktState
  with_reducible repeat' first | assumption | apply State.wr_keeps

theorem State.cursorStart_keeps {s₀ : State} {s : State} (d : Nat) (i : Nat) (h : Keeps s₀ s) : Keeps s₀ (State.cursorStart s d i) := by
  unfold State.cursorStart
  try extract_lets
  with_reducible repeat' first | assumption | apply State.wr_keeps | apply State.setPkt_keeps | (intro _) | apply ite_keeps | split | (refine Keeps.mk' ?_ rfl rfl; first | assumption | apply State.wr_keeps | apply State.setPkt_keeps | apply ite_keeps | split) | (dsimp +zetaDelta only)

theorem State.slotsStart_keeps {s₀ : State} {s : State} (d : Nat) (k : Nat) (frame : Nat) (field : Nat) (h : Keeps s₀ s) : Keeps s₀ (State.slotsStart s d k frame field) := by
  unfold State.slotsStart
  try extract_lets
  with_reducible repeat' first | assumption | apply State.wr_keeps | apply State.forRange_keeps | apply State.slotBegins_keeps | apply State.cursorStart_keeps | (intro _) | apply ite_keeps | split | (dsimp +zetaDelta only)

theorem State.rowLate_keeps {s₀ : State} {s : State} (sid : Nat) (num : Nat) (q : Nat) (h : Keeps s₀ s) : Keeps s₀ (State.rowLate s sid num q) := by
  unfold State.rowLate
  try extract_lets
  with_reducible repeat' first | assumption | apply State.wr_keeps | apply State.setPkt_keeps | apply State.inc_keeps | apply ite_keeps | split | (refine Keeps.mk' ?_ rfl rfl; first | assumption | apply State.wr_keeps | apply State.setPkt_keeps | apply State.inc_keeps | apply ite_keeps | split) | (dsimp +zetaDelta only)

theorem State.rowArrives_keeps {s₀ : State} {s : State} (d : Nat) (i : Nat) (r : RowPart) (h : Keeps s₀ s) : Keeps s₀ (State.rowArrives s d i r) := by
  unfold State.rowArrives
  try extract_lets
  with_reducible repeat' first | assumption | apply State.wr_keeps | apply State.rowLate_keeps | apply State.setPkt_keeps | (intro _) | apply ite_keeps | split | (refine Keeps.mk' ?_ rfl rfl; first | assumption | apply State.wr_keeps | apply State.rowLate_keeps | apply State.setPkt_keeps | apply ite_keeps | split) | (dsimp +zetaDelta only)

theorem execRowArrival_keeps {s₀ : State} (d : Fin 8) (i : Fin 128) (x : RowPart) {s : State} (h : Keeps s₀ s) : KeepsOut s₀ (execRowArrival d i x s) := by
  unfold execRowArrival
  with_reducible repeat' first | apply KeepsOut.next | assumption | apply State.wr_keeps | apply State.when_keeps | apply State.rowArrives_keeps | (intro _)

theorem State.episode_keeps {s₀ : State} {s : State} (sid : Nat) (num : Nat) (c : Nat) (st : Nat) (h : Keeps s₀ s) : Keeps s₀ (State.episode s sid num c st) := by
  unfold State.episode
  with_reducible repeat' first | assumption | apply State.wr_keeps | apply State.setPktState_keeps | apply State.inc_keeps | apply State.event_keeps

theorem State.rowMode_keeps {s₀ : State} {s : State} (d : Nat) (i : Nat) (p : PicSt) (q : Nat) (onTime : Bool) (h : Keeps s₀ s) : Keeps s₀ (State.rowMode s d i p q onTime).1 := by
  unfold State.rowMode
  try extract_lets
  with_reducible repeat' first | assumption | apply State.wr_keeps | apply State.setPkt_keeps | apply State.episode_keeps | apply State.setPktState_keeps | apply State.inc_keeps | (intro _) | apply ite_keeps | split | (refine Keeps.mk' ?_ rfl rfl; first | assumption | apply State.wr_keeps | apply State.setPkt_keeps | apply State.episode_keeps | apply State.setPktState_keeps | apply State.inc_keeps | apply ite_keeps | split) | (dsimp +zetaDelta only)

theorem State.sendRow_keeps {s₀ : State} {s : State} (d : Nat) (i : Nat) (f : Nat) (p : PicSt) (q : Nat) (hold : Bool) (last : Bool) (us : List (List Byte)) (h : Keeps s₀ s) : Keeps s₀ (State.sendRow s d i f p q hold last us) := by
  unfold State.sendRow
  try extract_lets
  with_reducible repeat' first | assumption | apply State.wr_keeps | apply State.setOutFlow_keeps | apply State.pushTs_keeps | apply State.pushRtp_keeps | (intro _) | apply ite_keeps | split | (refine Keeps.mk' ?_ rfl rfl; first | assumption | apply State.wr_keeps | apply State.setOutFlow_keeps | apply State.pushTs_keeps | apply State.pushRtp_keeps | apply ite_keeps | split) | (dsimp +zetaDelta only)

theorem State.sendAnc_keeps {s₀ : State} {s : State} (d : Nat) (i : Nat) (f : Nat) (p : PicSt) (q : Nat) (last : Bool) (h : Keeps s₀ s) : Keeps s₀ (State.sendAnc s d i f p q last) := by
  unfold State.sendAnc
  try extract_lets
  with_reducible repeat' first | assumption | apply State.wr_keeps | apply State.pushRtp_keeps | apply State.setOutFlow_keeps | apply State.pushTs_keeps | (intro _) | apply ite_keeps | split | (refine Keeps.mk' ?_ rfl rfl; first | assumption | apply State.wr_keeps | apply State.pushRtp_keeps | apply State.setOutFlow_keeps | apply State.pushTs_keeps | apply ite_keeps | split) | (dsimp +zetaDelta only)

theorem State.sendSlotRow_keeps {s₀ : State} {s : State} (d : Nat) (i : Nat) (p : PicSt) (q : Nat) (m : Nat) (units : List (List Byte)) (h : Keeps s₀ s) : Keeps s₀ (State.sendSlotRow s d i p q m units) := by
  unfold State.sendSlotRow
  try extract_lets
  with_reducible repeat' first | assumption | apply State.wr_keeps | apply State.sendRow_keeps | apply State.sendAnc_keeps | apply foldl_keeps | (intro _) | apply ite_keeps | split | (dsimp +zetaDelta only)

theorem State.fillStep_keeps {s₀ : State} {s : State} (d : Nat) (i : Nat) (line : Nat) (bits : Nat) (h : Keeps s₀ s) : Keeps s₀ (State.fillStep s d i line bits) := by
  unfold State.fillStep
  try extract_lets
  with_reducible repeat' first | assumption | apply State.wr_keeps | apply State.fill_keeps | apply State.setEncSt_keeps | (refine Keeps.mk' ?_ rfl rfl; first | assumption | apply State.wr_keeps | apply State.fill_keeps | apply State.setEncSt_keeps) | (dsimp +zetaDelta only)

theorem State.chargeRow_keeps {s₀ : State} {s : State} (d : Nat) (i : Nat) (p : PicSt) (q : Nat) (h : Keeps s₀ s) : Keeps s₀ (State.chargeRow s d i p q) := by
  unfold State.chargeRow
  try extract_lets
  with_reducible repeat' first | assumption | apply State.wr_keeps | apply State.inc_keeps | apply State.forRange_keeps | apply State.setFill_keeps | apply State.fillStep_keeps | apply State.setPic_keeps | (intro _) | apply ite_keeps | split | (refine Keeps.mk' ?_ rfl rfl; first | assumption | apply State.wr_keeps | apply State.inc_keeps | apply State.forRange_keeps | apply State.setFill_keeps | apply State.fillStep_keeps | apply State.setPic_keeps | apply ite_keeps | split) | (dsimp +zetaDelta only)

theorem State.handGood_keeps {s₀ : State} {s : State} (d : Nat) (i : Nat) (p : PicSt) (q : Nat) (h : Keeps s₀ s) : Keeps s₀ (State.handGood s d i p q).1 := by
  unfold State.handGood
  try extract_lets
  with_reducible repeat' first | assumption | apply State.wr_keeps | apply State.incWrap_keeps | apply State.event_keeps | apply State.forRange_keeps | apply State.putSummary_keeps | apply State.setPic_keeps | apply State.fillStep_keeps | apply foldl_keeps | (intro _) | apply ite_keeps | split | (refine Keeps.mk' ?_ rfl rfl; first | assumption | apply State.wr_keeps | apply State.incWrap_keeps | apply State.event_keeps | apply State.forRange_keeps | apply State.putSummary_keeps | apply State.setPic_keeps | apply State.fillStep_keeps | apply foldl_keeps | apply ite_keeps | split) | (dsimp +zetaDelta only)

theorem State.rowMissed_keeps {s₀ : State} {s : State} (d : Nat) (i : Nat) (p : PicSt) (q : Nat) (h : Keeps s₀ s) : Keeps s₀ (State.rowMissed s d i p q) := by
  unfold State.rowMissed
  try extract_lets
  with_reducible repeat' first | assumption | apply State.wr_keeps | apply State.inc_keeps | apply State.event_keeps | apply State.setEncSt_keeps | apply State.abandon_keeps | (refine Keeps.mk' ?_ rfl rfl; first | assumption | apply State.wr_keeps | apply State.inc_keeps | apply State.event_keeps | apply State.setEncSt_keeps | apply State.abandon_keeps) | (dsimp +zetaDelta only)

theorem State.bankSlot_keeps {s₀ : State} {s : State} (d : Nat) (i : Nat) (p : PicSt) (h : Keeps s₀ s) : Keeps s₀ (State.bankSlot s d i p) := by
  unfold State.bankSlot
  try extract_lets
  with_reducible repeat' first | assumption | apply State.wr_keeps | apply State.asOf_keeps | apply State.setEncSt_keeps | apply foldl_keeps | (intro _) | (refine Keeps.mk' ?_ rfl rfl; first | assumption | apply State.wr_keeps | apply State.asOf_keeps | apply State.setEncSt_keeps | apply foldl_keeps) | (dsimp +zetaDelta only)

theorem State.ledDone_keeps {s₀ : State} {s : State} (d : Nat) (i : Nat) (p : PicSt) (h : Keeps s₀ s) : Keeps s₀ (State.ledDone s d i p) := by
  unfold State.ledDone
  try extract_lets
  with_reducible repeat' first | assumption | apply State.wr_keeps | apply State.setEncSt_keeps | apply foldl_keeps | (intro _) | apply ite_keeps | split | (refine Keeps.mk' ?_ rfl rfl; first | assumption | apply State.wr_keeps | apply State.setEncSt_keeps | apply foldl_keeps | apply ite_keeps | split) | (dsimp +zetaDelta only)

theorem State.pktDone_keeps {s₀ : State} {s : State} (d : Nat) (i : Nat) (p : PicSt) (h : Keeps s₀ s) : Keeps s₀ (State.pktDone s d i p) := by
  unfold State.pktDone
  try extract_lets
  with_reducible repeat' first | assumption | apply State.wr_keeps | apply State.setPkt_keeps | apply State.setPktState_keeps | apply State.setOutFlow_keeps | apply foldl_keeps | (intro _) | apply ite_keeps | split | (refine Keeps.mk' ?_ rfl rfl; first | assumption | apply State.wr_keeps | apply State.setPkt_keeps | apply State.setPktState_keeps | apply State.setOutFlow_keeps | apply foldl_keeps | apply ite_keeps | split) | (dsimp +zetaDelta only)

theorem State.slotDone_keeps {s₀ : State} {s : State} (d : Nat) (i : Nat) (p : PicSt) (h : Keeps s₀ s) : Keeps s₀ (State.slotDone s d i p) := by
  unfold State.slotDone
  try extract_lets
  with_reducible repeat' first | assumption | apply State.wr_keeps | apply State.picDone_keeps | apply State.ledDone_keeps | apply State.putHist_keeps | apply State.bankSlot_keeps | apply State.setEncSt_keeps | apply State.pktDone_keeps | apply State.showFlooring_keeps | apply State.encOff_keeps | apply ite_keeps | split | (refine Keeps.mk' ?_ rfl rfl; first | assumption | apply State.wr_keeps | apply State.picDone_keeps | apply State.ledDone_keeps | apply State.putHist_keeps | apply State.bankSlot_keeps | apply State.setEncSt_keeps | apply State.pktDone_keeps | apply State.showFlooring_keeps | apply State.encOff_keeps | apply ite_keeps | split) | (dsimp +zetaDelta only)

theorem State.handRow_keeps {s₀ : State} {s : State} (d : Nat) (i : Nat) (h : Keeps s₀ s) : Keeps s₀ (State.handRow s d i) := by
  unfold State.handRow
  try extract_lets
  with_reducible repeat' first | assumption | apply State.wr_keeps | apply State.rowMode_keeps | apply State.inc_keeps | apply State.handGood_keeps | apply State.abandon_keeps | apply State.rowMissed_keeps | apply State.chargeRow_keeps | apply State.sendSlotRow_keeps | apply State.setPkt_keeps | apply State.setPic_keeps | apply State.slotDone_keeps | refine Keeps.fst ‹_ = (_, _)› ?_ | (intro _) | apply ite_keeps | split | (refine Keeps.mk' ?_ rfl rfl; first | assumption | apply State.wr_keeps | apply State.rowMode_keeps | apply State.inc_keeps | apply State.handGood_keeps | apply State.abandon_keeps | apply State.rowMissed_keeps | apply State.chargeRow_keeps | apply State.sendSlotRow_keeps | apply State.setPkt_keeps | apply State.setPic_keeps | apply State.slotDone_keeps | apply ite_keeps | split) | (dsimp +zetaDelta only)

theorem State.setPair_keeps {s₀ : State} {s : State} (n : Nat) (x : PairSt) (h : Keeps s₀ s) : Keeps s₀ (State.setPair s n x) := by
  unfold State.setPair
  with_reducible repeat' first | assumption | apply State.wr_keeps | (intro _) | (refine Keeps.mk' ?_ rfl rfl; first | assumption | apply State.wr_keeps)

theorem State.servePkt_keeps {s₀ : State} {s : State} (f : Nat) (h : Keeps s₀ s) : Keeps s₀ (State.servePkt s f) := by
  unfold State.servePkt
  try extract_lets
  with_reducible repeat' first | assumption | apply State.wr_keeps | apply State.setOutFlow_keeps | apply State.incWrap_keeps | apply State.inc_keeps | apply State.enqueue_keeps | apply State.putOut_keeps | apply State.armFlow_keeps | apply ite_keeps | split | (refine Keeps.mk' ?_ rfl rfl; first | assumption | apply State.wr_keeps | apply State.setOutFlow_keeps | apply State.incWrap_keeps | apply State.inc_keeps | apply State.enqueue_keeps | apply State.putOut_keeps | apply State.armFlow_keeps | apply ite_keeps | split) | (dsimp +zetaDelta only)

theorem State.serveWheel_keeps {s₀ s : State} (n : Nat) (h : Keeps s₀ s) : Keeps s₀ (s.serveWheel n) := by
  induction n generalizing s with
  | zero => exact h
  | succ n ih =>
    unfold State.serveWheel
    split
    · exact h
    · next e _ =>
      have g : Keeps s₀ (({ s with whl := { s.whl with entries := s.whl.entries.erase e } } : State).wr F.WHL_STATUS_ENTRIES (s.whl.entries.erase e).length) :=
        State.wr_keeps _ _ (h.mk' rfl rfl)
      exact ih (ite_keeps (State.servePkt_keeps _ g) (State.portPick_keeps _ g))

theorem execWheelSlot_keeps {s₀ : State} {s : State} (h : Keeps s₀ s) : KeepsOut s₀ (execWheelSlot s) := by
  unfold execWheelSlot
  with_reducible repeat' first | apply KeepsOut.next | assumption | apply State.wr_keeps | apply State.serveWheel_keeps

theorem State.sampleQueue_keeps {s₀ : State} {s : State} (q : Nat) (h : Keeps s₀ s) : Keeps s₀ (State.sampleQueue s q) := by
  unfold State.sampleQueue
  try extract_lets
  with_reducible repeat' first | assumption | apply State.wr_keeps | apply State.addBin_keeps | apply State.putStat_keeps | apply ite_keeps | split | (dsimp +zetaDelta only)

theorem execQueueSample_keeps {s₀ : State} {s : State} (h : Keeps s₀ s) : KeepsOut s₀ (execQueueSample s) := by
  unfold execQueueSample
  try extract_lets
  with_reducible repeat' first | apply KeepsOut.next | assumption | apply State.wr_keeps | apply State.forRange_keeps | apply State.sampleQueue_keeps | (intro _) | apply ite_keeps | split | (dsimp +zetaDelta only)

theorem State.sampleWrite_keeps {s₀ : State} {s : State} (v : Word) (h : Keeps s₀ s) : Keeps s₀ (State.sampleWrite s v) := by
  unfold State.sampleWrite
  with_reducible repeat' first | assumption | apply State.wr_keeps | apply State.refuse_keeps | apply State.setReg_keeps | apply ite_keeps | split

theorem State.flowCommit_keeps {s₀ : State} (o : State) {s : State} (f : Nat) (h : Keeps s₀ s) : Keeps s₀ (State.flowCommit o s f) := by
  unfold State.flowCommit
  try extract_lets
  with_reducible repeat' first | assumption | apply State.wr_keeps | apply State.setOutFlow_keeps | apply State.setReg_keeps | apply State.setPktState_keeps | apply State.setPkt_keeps | apply ite_keeps | split | (refine Keeps.mk' ?_ rfl rfl; first | assumption | apply State.wr_keeps | apply State.setOutFlow_keeps | apply State.setReg_keeps | apply State.setPktState_keeps | apply State.setPkt_keeps | apply ite_keeps | split) | (dsimp +zetaDelta only)

theorem State.flowsCommit_keeps {s₀ : State} (o : State) {s : State} (h : Keeps s₀ s) : Keeps s₀ (State.flowsCommit o s) := by
  unfold State.flowsCommit
  try extract_lets
  with_reducible repeat' first | assumption | apply State.wr_keeps | apply State.forRange_keeps | apply State.flowCommit_keeps | (intro _) | apply ite_keeps | split | (dsimp +zetaDelta only)

end Sys2Proof.Machine
end

