-- ==== Sys2Proof/Laws/Keeps/Reset.lean ====
section
/-!
SUPPORT. Sys2Proof/Laws/Keeps/Reset.lean: what each operation of Machine/Reset.lean keeps (Keeps of Safety.lean).
-/
namespace Sys2Proof.Machine
set_option linter.all false

theorem State.queueRevoke_keeps {s₀ : State} {s : State} (d : Nat) (q : Nat) (h : Keeps s₀ s) : Keeps s₀ (State.queueRevoke s d q) := by
  unfold State.queueRevoke
  try extract_lets
  with_reducible repeat' first | assumption | apply State.wr_keeps | apply State.incWrap_keeps | apply State.stopTask_keeps | apply State.ringRevoked_keeps | apply foldl_keeps | (intro _) | apply ite_keeps | split | (refine Keeps.mk' ?_ rfl rfl; first | assumption | apply State.wr_keeps | apply State.incWrap_keeps | apply State.stopTask_keeps | apply State.ringRevoked_keeps | apply foldl_keeps | apply ite_keeps | split) | (dsimp +zetaDelta only)

theorem State.queueCtlWrite_keeps {s₀ : State} {s : State} (d : Nat) (q : Nat) (v : Word) (h : Keeps s₀ s) : Keeps s₀ (State.queueCtlWrite s d q v) := by
  unfold State.queueCtlWrite
  with_reducible repeat' first | assumption | apply State.wr_keeps | apply State.queueRevoke_keeps | apply ite_keeps | split

theorem execSchQueueRevoke_keeps {s₀ : State} (d : Fin 8) (q : Fin 32768) {s : State} (h : Keeps s₀ s) : KeepsOut s₀ (execSchQueueRevoke d q s) := by
  unfold execSchQueueRevoke
  with_reducible repeat' first | apply KeepsOut.next | assumption | apply State.wr_keeps | apply State.queueCtlWrite_keeps

theorem State.setKept_keeps {s₀ : State} {s : State} (d : Nat) (ks : List (Nat × Word)) (h : Keeps s₀ s) : Keeps s₀ (State.setKept s d ks) := by
  unfold State.setKept
  with_reducible repeat' first | assumption | apply State.wr_keeps | (intro _) | (refine Keeps.mk' ?_ rfl rfl; first | assumption | apply State.wr_keeps)

theorem State.swapIn_keeps {s₀ s : State} (d : Nat) (ks : List (Nat × Word)) (h : Keeps s₀ s) : Keeps s₀ (s.swapIn d ks) := by
  unfold State.swapIn
  exact foldl_keeps (fun u x hu => State.setReg_keeps hu) (h.regs _ fun x => mapWf_keep _ x)

theorem State.asKept_keeps {s₀ s : State} (d : Nat) (f : State → State) (hf : ∀ u, Keeps s₀ u → Keeps s₀ (f u)) (h : Keeps s₀ s) :
    Keeps s₀ (s.asKept d f) := by
  unfold State.asKept
  split
  · exact hf _ h
  · exact State.setKept_keeps _ _ (State.swapIn_keeps _ _ (hf _ (State.setKept_keeps _ _ (State.swapIn_keeps _ _ h))))

theorem State.resetSched_keeps {s₀ : State} {s : State} (d : Nat) (h : Keeps s₀ s) : Keeps s₀ (State.resetSched s d) := by
  unfold State.resetSched
  try extract_lets
  with_reducible repeat' first | assumption | apply State.wr_keeps | apply State.setTask_keeps | apply State.stopTask_keeps | apply foldl_keeps | (intro _) | (refine Keeps.mk' ?_ rfl rfl; first | assumption | apply State.wr_keeps | apply State.setTask_keeps | apply State.stopTask_keeps | apply foldl_keeps) | (dsimp +zetaDelta only)

theorem State.endJobs_keeps {s₀ : State} {s : State} (p : Job → Bool) (h : Keeps s₀ s) : Keeps s₀ (State.endJobs s p) := by
  unfold State.endJobs
  with_reducible repeat' first | assumption | apply State.wr_keeps | apply State.freePark_keeps | apply State.endJob_keeps | apply foldl_keeps | (intro _) | split | (refine Keeps.mk' ?_ rfl rfl; first | assumption | apply State.wr_keeps | apply State.freePark_keeps | apply State.endJob_keeps | apply foldl_keeps | split)

theorem State.endLeafTasks_keeps {s₀ : State} {s : State} (ls : List Nat) (h : Keeps s₀ s) : Keeps s₀ (State.endLeafTasks s ls) := by
  unfold State.endLeafTasks
  try extract_lets
  with_reducible repeat' first | assumption | apply State.wr_keeps | apply State.endTask_keeps | apply State.resetSched_keeps | apply State.endJobs_keeps | apply foldl_keeps | (intro _) | apply ite_keeps | split | (dsimp +zetaDelta only)

theorem State.endParked_keeps {s₀ : State} {s : State} (ls : List Nat) (h : Keeps s₀ s) : Keeps s₀ (State.endParked s ls) := by
  unfold State.endParked
  try extract_lets
  with_reducible repeat' first | assumption | apply State.wr_keeps | apply State.endTask_keeps | apply State.endJobs_keeps | apply foldl_keeps | (intro _) | (dsimp +zetaDelta only)

theorem State.haltLeaves_keeps {s₀ : State} {s : State} (ls : List Nat) (h : Keeps s₀ s) : Keeps s₀ (State.haltLeaves s ls) := by
  unfold State.haltLeaves
  with_reducible repeat' first | assumption | apply State.wr_keeps | apply State.forRange_keeps | apply State.haltPipe_keeps | apply foldl_keeps | (intro _) | apply ite_keeps | split

theorem State.unhalt_keeps {s₀ : State} {s : State} (h : Keeps s₀ s) : Keeps s₀ (State.unhalt s) := by
  unfold State.unhalt
  try extract_lets
  with_reducible repeat' first | assumption | apply State.wr_keeps | apply State.forRange_keeps | apply State.unhaltStr_keeps | apply foldl_keeps | (intro _) | apply ite_keeps | split | (dsimp +zetaDelta only)

theorem State.endCrownWork_keeps {s₀ : State} {s : State} (d : Nat) (h : Keeps s₀ s) : Keeps s₀ (State.endCrownWork s d) := by
  unfold State.endCrownWork
  try extract_lets
  with_reducible repeat' first | assumption | apply State.wr_keeps | apply State.endTask_keeps | apply State.endJobs_keeps | apply foldl_keeps | (intro _) | (dsimp +zetaDelta only)

theorem State.dropLane_keeps {s₀ : State} {s : State} (n : Nat) (h : Keeps s₀ s) : Keeps s₀ (State.dropLane s n) := by
  unfold State.dropLane
  with_reducible repeat' first | assumption | apply State.wr_keeps | (refine Keeps.mk' ?_ rfl rfl; first | assumption | apply State.wr_keeps)

theorem State.spillsLost_keeps {s₀ : State} {s : State} (d : Nat) (h : Keeps s₀ s) : Keeps s₀ (State.spillsLost s d) := by
  unfold State.spillsLost
  with_reducible repeat' first | assumption | apply State.wr_keeps | apply State.forRange_keeps | apply State.spillLost_keeps | (intro _) | apply ite_keeps | split

theorem State.outOfService_keeps {s₀ : State} {s : State} (d : Nat) (h : Keeps s₀ s) : Keeps s₀ (State.outOfService s d) := by
  unfold State.outOfService
  with_reducible repeat' first | assumption | apply State.wr_keeps | apply ite_keeps | split | (refine Keeps.mk' ?_ rfl rfl; first | assumption | apply State.wr_keeps | apply ite_keeps | split)

theorem State.crownLost_keeps {s₀ : State} {s : State} (d : Nat) (h : Keeps s₀ s) : Keeps s₀ (State.crownLost s d) := by
  unfold State.crownLost
  with_reducible repeat' first | assumption | apply State.wr_keeps | apply State.forRange_keeps | apply State.haltStr_keeps | apply State.endCrownWork_keeps | apply State.spillsLost_keeps | apply State.dropLane_keeps | apply State.outOfService_keeps | (intro _)

theorem State.clearCrown_keeps {s₀ : State} {s : State} (d : Nat) (h : Keeps s₀ s) : Keeps s₀ (State.clearCrown s d) := by
  unfold State.clearCrown
  try extract_lets
  with_reducible repeat' first | assumption | apply State.wr_keeps | apply State.coarse_keeps | apply State.resetRegs_keeps | (intro _) | (refine Keeps.mk' ?_ rfl rfl; first | assumption | apply State.wr_keeps | apply State.coarse_keeps | apply State.resetRegs_keeps) | (dsimp +zetaDelta only)

theorem State.cause_keeps {s₀ : State} {s : State} (d : Nat) (src : Nat) (h : Keeps s₀ s) : Keeps s₀ (State.cause s d src) := by
  unfold State.cause
  with_reducible repeat' first | assumption | apply State.wr_keeps

theorem State.showDoms_keeps {s₀ : State} {s : State} (h : Keeps s₀ s) : Keeps s₀ (State.showDoms s) := by
  unfold State.showDoms
  try extract_lets
  with_reducible repeat' first | assumption | apply State.wr_keeps | apply foldl_keeps | (intro _) | (dsimp +zetaDelta only)

theorem State.rstEvent_keeps {s₀ : State} {s : State} (src : Nat) (kind : Nat) (path : Nat) (h : Keeps s₀ s) : Keeps s₀ (State.rstEvent s src kind path) := by
  unfold State.rstEvent
  with_reducible repeat' first | assumption | apply State.wr_keeps | apply State.event_keeps

theorem State.setCrcOp_keeps {s₀ : State} {s : State} (d : Nat) (k : Nat) (x : Option (Nat × Nat × Nat × Nat)) (h : Keeps s₀ s) : Keeps s₀ (State.setCrcOp s d k x) := by
  unfold State.setCrcOp
  with_reducible repeat' first | assumption | apply State.wr_keeps | (intro _) | (refine Keeps.mk' ?_ rfl rfl; first | assumption | apply State.wr_keeps)

theorem State.crcStatus_keeps {s₀ : State} {s : State} (d : Nat) (k : Nat) (busy : Bool) (done : Bool) (mtch : Bool) (err : Bool) (h : Keeps s₀ s) : Keeps s₀ (State.crcStatus s d k busy done mtch err) := by
  unfold State.crcStatus
  with_reducible repeat' first | assumption | apply State.wr_keeps | apply State.setReg_keeps

theorem State.crcReset_keeps {s₀ : State} {s : State} (d : Nat) (k : Nat) (h : Keeps s₀ s) : Keeps s₀ (State.crcReset s d k) := by
  unfold State.crcReset
  try extract_lets
  with_reducible repeat' first | assumption | apply State.wr_keeps | apply State.setCrcOp_keeps | apply State.crcStatus_keeps | apply ite_keeps | split | (dsimp +zetaDelta only)

theorem State.crcResets_keeps {s₀ : State} {s : State} (ls : List Nat) (h : Keeps s₀ s) : Keeps s₀ (State.crcResets s ls) := by
  unfold State.crcResets
  with_reducible repeat' first | assumption | apply State.wr_keeps | apply State.forRange_keeps | apply State.crcReset_keeps | apply foldl_keeps | (intro _) | apply ite_keeps | split

theorem State.showTrips_keeps {s₀ : State} {s : State} (h : Keeps s₀ s) : Keeps s₀ (State.showTrips s) := by
  unfold State.showTrips
  with_reducible repeat' first | assumption | apply State.wr_keeps | apply State.forRange_keeps | (intro _) | apply ite_keeps | split

theorem State.mayTrain_keeps {s₀ : State} {s : State} (d : Nat) (h : Keeps s₀ s) : Keeps s₀ (State.mayTrain s d) := by
  unfold State.mayTrain
  with_reducible repeat' first | assumption | apply State.wr_keeps | (refine Keeps.mk' ?_ rfl rfl; first | assumption | apply State.wr_keeps)

theorem State.crownReset_keeps {s₀ : State} {s : State} (d : Nat) (src : Nat) (h : Keeps s₀ s) : Keeps s₀ (State.crownReset s d src) := by
  unfold State.crownReset
  try extract_lets
  with_reducible repeat' first | assumption | apply State.wr_keeps | apply State.crownLost_keeps | apply State.setKept_keeps | apply State.clearCrown_keeps | apply State.cause_keeps | apply State.mayTrain_keeps | apply State.showTrips_keeps | (intro _) | apply ite_keeps | split | (dsimp +zetaDelta only)

theorem State.assertReset_keeps {s₀ : State} {s : State} (key : Nat) (path : Nat) (h : Keeps s₀ s) : Keeps s₀ (State.assertReset s key path) := by
  unfold State.assertReset
  try extract_lets
  with_reducible repeat' first | assumption | apply State.wr_keeps | apply State.rstEvent_keeps | apply State.crownReset_keeps | apply State.endLeafTasks_keeps | apply State.haltLeaves_keeps | apply State.crcResets_keeps | apply State.showDoms_keeps | apply foldl_keeps | (intro _) | (refine Keeps.mk' ?_ rfl rfl; first | assumption | apply State.wr_keeps | apply State.rstEvent_keeps | apply State.crownReset_keeps | apply State.endLeafTasks_keeps | apply State.haltLeaves_keeps | apply State.crcResets_keeps | apply State.showDoms_keeps | apply foldl_keeps) | (dsimp +zetaDelta only)

theorem State.releaseReset_keeps {s₀ : State} {s : State} (key : Nat) (h : Keeps s₀ s) : Keeps s₀ (State.releaseReset s key) := by
  unfold State.releaseReset
  try extract_lets
  with_reducible repeat' first | assumption | apply State.wr_keeps | apply State.showDoms_keeps | (intro _) | split | (refine Keeps.mk' ?_ rfl rfl; first | assumption | apply State.wr_keeps | apply State.showDoms_keeps | split) | (dsimp +zetaDelta only)

theorem State.packageReset_keeps {s₀ s : State} (src : Nat) (h : Keeps s₀ s) : Keeps s₀ (s.packageReset src) := by
  unfold State.packageReset
  refine State.showTrips_keeps (foldl_keeps (fun u x hu => State.cause_keeps _ _ hu) (h.trans ⟨rfl, rfl, rfl, List.suffix_refl _, fun x => ?_⟩))
  rw [ok_iff] at x ⊢
  exact ⟨mapWf_keep _ x.1, x.2.1, x.2.2.1, x.2.2.2⟩

theorem State.holdPackage_keeps {s₀ : State} {s : State} (src : Nat) (h : Keeps s₀ s) : Keeps s₀ (State.holdPackage s src) := by
  unfold State.holdPackage
  try extract_lets
  with_reducible repeat' first | assumption | apply State.wr_keeps | apply State.packageReset_keeps | (refine Keeps.mk' ?_ rfl rfl; first | assumption | apply State.wr_keeps | apply State.packageReset_keeps) | (dsimp +zetaDelta only)

theorem State.releasePackage_keeps {s₀ : State} {s : State} (src : Nat) (h : Keeps s₀ s) : Keeps s₀ (State.releasePackage s src) := by
  unfold State.releasePackage
  try extract_lets
  with_reducible repeat' first | assumption | apply State.wr_keeps | apply State.showDoms_keeps | (intro _) | apply ite_keeps | split | (refine Keeps.mk' ?_ rfl rfl; first | assumption | apply State.wr_keeps | apply State.showDoms_keeps | apply ite_keeps | split) | (dsimp +zetaDelta only)

theorem State.latchStraps_keeps {s₀ : State} {s : State} (samples : List (Fin 32)) (h : Keeps s₀ s) : Keeps s₀ (State.latchStraps s samples) := by
  unfold State.latchStraps
  try extract_lets
  with_reducible repeat' first | assumption | apply State.wr_keeps | apply State.setReg_keeps | (intro _) | apply ite_keeps | split | (dsimp +zetaDelta only)

theorem State.bootStart_keeps {s₀ : State} {s : State} (h : Keeps s₀ s) : Keeps s₀ (State.bootStart s) := by
  unfold State.bootStart
  try extract_lets
  with_reducible repeat' first | assumption | apply State.wr_keeps | (refine Keeps.mk' ?_ rfl rfl; first | assumption | apply State.wr_keeps) | (dsimp +zetaDelta only)

theorem State.clockGood_keeps {s₀ : State} {s : State} (path : Nat) (h : Keeps s₀ s) : Keeps s₀ (State.clockGood s path) := by
  unfold State.clockGood
  try extract_lets
  with_reducible repeat' first | assumption | apply State.wr_keeps | apply State.rstEvent_keeps | apply State.forRange_keeps | apply State.unhalt_keeps | apply State.showDoms_keeps | apply State.bootStart_keeps | apply foldl_keeps | (intro _) | apply ite_keeps | split | (refine Keeps.mk' ?_ rfl rfl; first | assumption | apply State.wr_keeps | apply State.rstEvent_keeps | apply State.forRange_keeps | apply State.unhalt_keeps | apply State.showDoms_keeps | apply State.bootStart_keeps | apply foldl_keeps | apply ite_keeps | split) | (dsimp +zetaDelta only)

end Sys2Proof.Machine
end

