-- ==== Sys2Proof/Laws/Keeps/Pair.lean ====
section
/-!
SUPPORT. Sys2Proof/Laws/Keeps/Pair.lean: what each operation of Machine/Pair.lean keeps (Keeps of Safety.lean).
-/
namespace Sys2Proof.Machine
set_option linter.all false

theorem State.setRole_keeps {s₀ : State} {s : State} (n : Nat) (sd : Nat) (r : Nat) (h : Keeps s₀ s) : Keeps s₀ (State.setRole s n sd r) := by
  unfold State.setRole
  try extract_lets
  with_reducible repeat' first | assumption | apply State.wr_keeps | apply State.event_keeps | apply State.modeUpdate_keeps | (dsimp +zetaDelta only)

theorem State.setTerm_keeps {s₀ : State} {s : State} (n : Nat) (t : Nat) (h : Keeps s₀ s) : Keeps s₀ (State.setTerm s n t) := by
  unfold State.setTerm
  with_reducible repeat' first | assumption | apply State.wr_keeps

theorem State.pairRefuse_keeps {s₀ : State} {s : State} (n : Nat) (code : Nat) (h : Keeps s₀ s) : Keeps s₀ (State.pairRefuse s n code) := by
  unfold State.pairRefuse
  with_reducible repeat' first | assumption | apply State.wr_keeps | apply State.refuse_keeps

theorem State.mboxPut_keeps {s₀ : State} {s : State} (m : WitMsg) (typ : Nat) (h : Keeps s₀ s) : Keeps s₀ (State.mboxPut s m typ) := by
  unfold State.mboxPut
  try extract_lets
  with_reducible repeat' first | assumption | apply State.wr_keeps | apply State.send_keeps | apply State.hostWrite_keeps | apply State.incWrap_keeps | apply State.signalVec_keeps | (dsimp +zetaDelta only)

theorem State.witOut_keeps {s₀ : State} {s : State} (m : WitMsg) (typ : Nat) (h : Keeps s₀ s) : Keeps s₀ (State.witOut s m typ) := by
  unfold State.witOut
  with_reducible repeat' first | assumption | apply State.wr_keeps | apply State.mboxPut_keeps | apply State.stampTx_keeps | apply State.send_keeps | apply ite_keeps | split

theorem State.sendTwin_keeps {s₀ : State} {s : State} (typ : Nat) (key : Nat) (ws : List Nat) (h : Keeps s₀ s) : Keeps s₀ (State.sendTwin s typ key ws) := by
  unfold State.sendTwin
  with_reducible repeat' first | assumption | apply State.wr_keeps | apply State.send_keeps | (refine Keeps.mk' ?_ rfl rfl; first | assumption | apply State.wr_keeps | apply State.send_keeps)

theorem State.relay_keeps {s₀ : State} {s : State} (m : WitMsg) (typ : Nat) (h : Keeps s₀ s) : Keeps s₀ (State.relay s m typ) := by
  unfold State.relay
  with_reducible repeat' first | assumption | apply State.wr_keeps | apply State.sendTwin_keeps

theorem State.witSend_keeps {s₀ : State} {s : State} (typ : Nat) (id : Nat) (term : Nat) (val : Nat) (h : Keeps s₀ s) : Keeps s₀ (State.witSend s typ id term val) := by
  unfold State.witSend
  try extract_lets
  with_reducible repeat' first | assumption | apply State.wr_keeps | apply State.witOut_keeps | (refine Keeps.mk' ?_ rfl rfl; first | assumption | apply State.wr_keeps | apply State.witOut_keeps) | (dsimp +zetaDelta only)

theorem State.takeBack_keeps {s₀ : State} {s : State} (n : Nat) (sd : Nat) (h : Keeps s₀ s) : Keeps s₀ (State.takeBack s n sd) := by
  unfold State.takeBack
  try extract_lets
  with_reducible repeat' first | assumption | apply State.wr_keeps | apply State.revokeObj_keeps | apply State.queueRevoke_keeps | apply foldl_keeps | (intro _) | apply ite_keeps | split | (dsimp +zetaDelta only)

theorem State.strandStream_keeps {s₀ : State} {s : State} (d : Nat) (i : Nat) (h : Keeps s₀ s) : Keeps s₀ (State.strandStream s d i) := by
  unfold State.strandStream
  try extract_lets
  with_reducible repeat' first | assumption | apply State.wr_keeps | apply State.setEncSt_keeps | apply State.setEncState_keeps | apply ite_keeps | split | (refine Keeps.mk' ?_ rfl rfl; first | assumption | apply State.wr_keeps | apply State.setEncSt_keeps | apply State.setEncState_keeps | apply ite_keeps | split) | (dsimp +zetaDelta only)

theorem State.refReset_keeps {s₀ : State} {s : State} (n : Nat) (sd : Nat) (h : Keeps s₀ s) : Keeps s₀ (State.refReset s n sd) := by
  unfold State.refReset
  try extract_lets
  with_reducible repeat' first | assumption | apply State.wr_keeps | apply State.assertReset_keeps | apply ite_keeps | split | (dsimp +zetaDelta only)

theorem State.demote_keeps {s₀ : State} {s : State} (n : Nat) (sd : Nat) (h : Keeps s₀ s) : Keeps s₀ (State.demote s n sd) := by
  unfold State.demote
  try extract_lets
  with_reducible repeat' first | assumption | apply State.wr_keeps | apply State.takeBack_keeps | apply State.endParked_keeps | apply State.setRole_keeps | apply State.strandStream_keeps | apply foldl_keeps | (intro _) | (dsimp +zetaDelta only)

theorem State.graftStream_keeps {s₀ : State} {s : State} (n : Nat) (d : Nat) (i : Nat) (ws : List Nat) (fill : Nat) (line : Nat) (since : Nat) (pics : List PicSt) (graft : Nat) (h : Keeps s₀ s) : Keeps s₀ (State.graftStream s n d i ws fill line since pics graft) := by
  unfold State.graftStream
  try extract_lets
  with_reducible repeat' first | assumption | apply State.wr_keeps | apply State.setEncSt_keeps | apply State.setEncState_keeps | apply foldl_keeps | (intro _) | apply ite_keeps | split | (refine Keeps.mk' ?_ rfl rfl; first | assumption | apply State.wr_keeps | apply State.setEncSt_keeps | apply State.setEncState_keeps | apply foldl_keeps | apply ite_keeps | split) | (dsimp +zetaDelta only)

theorem State.flowsFrom_keeps {s₀ : State} {s : State} (sid : Nat) (stale : Bool) (h : Keeps s₀ s) : Keeps s₀ (State.flowsFrom s sid stale) := by
  unfold State.flowsFrom
  try extract_lets
  with_reducible repeat' first | assumption | apply State.wr_keeps | apply State.setOutFlow_keeps | apply foldl_keeps | (intro _) | apply ite_keeps | split | (refine Keeps.mk' ?_ rfl rfl; first | assumption | apply State.wr_keeps | apply State.setOutFlow_keeps | apply foldl_keeps | apply ite_keeps | split) | (dsimp +zetaDelta only)

theorem State.promote_keeps {s₀ : State} {s : State} (n : Nat) (sd : Nat) (now : Bool) (h : Keeps s₀ s) : Keeps s₀ (State.promote s n sd now) := by
  unfold State.promote
  try extract_lets
  with_reducible repeat' first | assumption | apply State.wr_keeps | apply State.setRole_keeps | apply State.graftStream_keeps | apply State.flowsFrom_keeps | apply State.fill_keeps | apply State.setPair_keeps | apply State.inc_keeps | apply foldl_keeps | (intro _) | apply ite_keeps | split | (refine Keeps.mk' ?_ rfl rfl; first | assumption | apply State.wr_keeps | apply State.setRole_keeps | apply State.graftStream_keeps | apply State.flowsFrom_keeps | apply State.fill_keeps | apply State.setPair_keeps | apply State.inc_keeps | apply foldl_keeps | apply ite_keeps | split) | (dsimp +zetaDelta only)

theorem State.grafted_keeps {s₀ : State} {s : State} (n : Nat) (sd : Nat) (sid : Nat) (h : Keeps s₀ s) : Keeps s₀ (State.grafted s n sd sid) := by
  unfold State.grafted
  try extract_lets
  with_reducible repeat' first | assumption | apply State.wr_keeps | apply State.setPair_keeps | apply State.setRole_keeps | apply ite_keeps | split | (refine Keeps.mk' ?_ rfl rfl; first | assumption | apply State.wr_keeps | apply State.setPair_keeps | apply State.setRole_keeps | apply ite_keeps | split) | (dsimp +zetaDelta only)

theorem State.cancelPlan_keeps {s₀ : State} {s : State} (n : Nat) (h : Keeps s₀ s) : Keeps s₀ (State.cancelPlan s n) := by
  unfold State.cancelPlan
  with_reducible repeat' first | assumption | apply State.wr_keeps | apply State.setPair_keeps | apply State.pairRefuse_keeps | apply ite_keeps | split | (refine Keeps.mk' ?_ rfl rfl; first | assumption | apply State.wr_keeps | apply State.setPair_keeps | apply State.pairRefuse_keeps | apply ite_keeps | split)

theorem State.abortDrill_keeps {s₀ : State} {s : State} (n : Nat) (h : Keeps s₀ s) : Keeps s₀ (State.abortDrill s n) := by
  unfold State.abortDrill
  try extract_lets
  with_reducible repeat' first | assumption | apply State.wr_keeps | apply State.inc_keeps | apply State.setTerm_keeps | apply State.setPair_keeps | apply State.promote_keeps | apply State.setRole_keeps | apply State.endParked_keeps | apply State.strandStream_keeps | apply foldl_keeps | (intro _) | apply ite_keeps | split | (refine Keeps.mk' ?_ rfl rfl; first | assumption | apply State.wr_keeps | apply State.inc_keeps | apply State.setTerm_keeps | apply State.setPair_keeps | apply State.promote_keeps | apply State.setRole_keeps | apply State.endParked_keeps | apply State.strandStream_keeps | apply foldl_keeps | apply ite_keeps | split) | (dsimp +zetaDelta only)

theorem State.sideFail_keeps {s₀ : State} {s : State} (n : Nat) (sd : Nat) (h : Keeps s₀ s) : Keeps s₀ (State.sideFail s n sd) := by
  unfold State.sideFail
  try extract_lets
  with_reducible repeat' first | assumption | apply State.wr_keeps | apply State.setPair_keeps | apply State.cancelPlan_keeps | apply State.endParked_keeps | apply State.setRole_keeps | apply State.abortDrill_keeps | apply State.refReset_keeps | apply State.event_keeps | apply State.takeBack_keeps | apply State.strandStream_keeps | apply State.witSend_keeps | apply State.setTerm_keeps | apply State.promote_keeps | apply foldl_keeps | (intro _) | apply ite_keeps | split | (refine Keeps.mk' ?_ rfl rfl; first | assumption | apply State.wr_keeps | apply State.setPair_keeps | apply State.cancelPlan_keeps | apply State.endParked_keeps | apply State.setRole_keeps | apply State.abortDrill_keeps | apply State.refReset_keeps | apply State.event_keeps | apply State.takeBack_keeps | apply State.strandStream_keeps | apply State.witSend_keeps | apply State.setTerm_keeps | apply State.promote_keeps | apply foldl_keeps | apply ite_keeps | split) | (dsimp +zetaDelta only)

theorem State.pairScan_keeps {s₀ : State} {s : State} (h : Keeps s₀ s) : Keeps s₀ (State.pairScan s) := by
  unfold State.pairScan
  try extract_lets
  with_reducible repeat' first | assumption | apply State.wr_keeps | apply State.forRange_keeps | apply State.sideFail_keeps | apply foldl_keeps | (intro _) | apply ite_keeps | split | (dsimp +zetaDelta only)

theorem State.pairMiss_keeps {s₀ : State} {s : State} (d : Nat) (i : Nat) (h : Keeps s₀ s) : Keeps s₀ (State.pairMiss s d i) := by
  unfold State.pairMiss
  try extract_lets
  with_reducible repeat' first | assumption | apply State.wr_keeps | apply State.abortDrill_keeps | apply State.sideFail_keeps | apply foldl_keeps | (intro _) | apply ite_keeps | split | (dsimp +zetaDelta only)

theorem State.hbWrite_keeps {s₀ : State} {s : State} (q : Req) (n : Nat) (v : Word) (h : Keeps s₀ s) : Keeps s₀ (State.hbWrite s q n v) := by
  unfold State.hbWrite
  try extract_lets
  with_reducible repeat' first | assumption | apply State.wr_keeps | apply State.setPair_keeps | apply foldl_keeps | (intro _) | apply ite_keeps | split | (refine Keeps.mk' ?_ rfl rfl; first | assumption | apply State.wr_keeps | apply State.setPair_keeps | apply foldl_keeps | apply ite_keeps | split) | (dsimp +zetaDelta only)

theorem execPairHb_keeps {s₀ : State} (q : Req) (n : Fin 32) (v : Word) {s : State} (h : Keeps s₀ s) : KeepsOut s₀ (execPairHb q n v s) := by
  unfold execPairHb
  with_reducible repeat' first | apply KeepsOut.next | assumption | apply State.wr_keeps | apply State.hbWrite_keeps

theorem execPairHbTimeout_keeps {s₀ : State} (n : Fin 32) (sd : Fin 2) {s : State} (h : Keeps s₀ s) : KeepsOut s₀ (execPairHbTimeout n sd s) := by
  unfold execPairHbTimeout
  with_reducible repeat' first | apply KeepsOut.next | assumption | apply State.wr_keeps | apply State.when_keeps | apply State.setPair_keeps | (intro _) | (refine Keeps.mk' ?_ rfl rfl; first | assumption | apply State.wr_keeps | apply State.when_keeps | apply State.setPair_keeps)

theorem State.suspectDecide_keeps {s₀ : State} {s : State} (n : Nat) (sd : Nat) (h : Keeps s₀ s) : Keeps s₀ (State.suspectDecide s n sd) := by
  unfold State.suspectDecide
  try extract_lets
  with_reducible repeat' first | assumption | apply State.wr_keeps | apply State.sideFail_keeps | apply State.setPair_keeps | apply State.inc_keeps | apply ite_keeps | split | (refine Keeps.mk' ?_ rfl rfl; first | assumption | apply State.wr_keeps | apply State.sideFail_keeps | apply State.setPair_keeps | apply State.inc_keeps | apply ite_keeps | split) | (dsimp +zetaDelta only)

theorem execPairSuspectDecide_keeps {s₀ : State} (n : Fin 32) (sd : Fin 2) {s : State} (h : Keeps s₀ s) : KeepsOut s₀ (execPairSuspectDecide n sd s) := by
  unfold execPairSuspectDecide
  with_reducible repeat' first | apply KeepsOut.next | assumption | apply State.wr_keeps | apply State.when_keeps | apply State.suspectDecide_keeps | (intro _)

theorem execRefHoldExpired_keeps {s₀ : State} (n : Fin 32) (sd : Fin 2) {s : State} (h : Keeps s₀ s) : KeepsOut s₀ (execRefHoldExpired n sd s) := by
  unfold execRefHoldExpired
  with_reducible repeat' first | apply KeepsOut.next | assumption | apply State.wr_keeps | apply State.releaseReset_keeps

theorem State.hearTerm_keeps {s₀ : State} {s : State} (n : Nat) (t : Nat) (h : Keeps s₀ s) : Keeps s₀ (State.hearTerm s n t) := by
  unfold State.hearTerm
  try extract_lets
  with_reducible repeat' first | assumption | apply State.wr_keeps | apply State.setTerm_keeps | apply State.demote_keeps | apply State.refReset_keeps | apply ite_keeps | split | (dsimp +zetaDelta only)

theorem execTwinHbSend_keeps {s₀ : State} {s : State} (h : Keeps s₀ s) : KeepsOut s₀ (execTwinHbSend s) := by
  unfold execTwinHbSend
  with_reducible repeat' first | apply KeepsOut.next | assumption | apply State.wr_keeps | apply State.when_keeps | apply State.sendTwin_keeps | (intro _)

theorem State.twinRef_keeps {s₀ : State} {s : State} (tls : List Bool) (h : Keeps s₀ s) : Keeps s₀ (State.twinRef s tls) := by
  unfold State.twinRef
  try extract_lets
  with_reducible repeat' first | assumption | apply State.wr_keeps | apply State.disqualify_keeps | apply State.measure_keeps | apply State.reselectAll_keeps | (intro _) | apply ite_keeps | split | (refine Keeps.mk' ?_ rfl rfl; first | assumption | apply State.wr_keeps | apply State.disqualify_keeps | apply State.measure_keeps | apply State.reselectAll_keeps | apply ite_keeps | split) | (dsimp +zetaDelta only)

theorem State.twinHeartbeat_keeps {s₀ : State} {s : State} (x : HbFrame) (h : Keeps s₀ s) : Keeps s₀ (State.twinHeartbeat s x) := by
  unfold State.twinHeartbeat
  try extract_lets
  with_reducible repeat' first | assumption | apply State.wr_keeps | apply State.forRange_keeps | apply State.setPair_keeps | apply State.hearTerm_keeps | apply State.twinRef_keeps | (intro _) | apply ite_keeps | split | (refine Keeps.mk' ?_ rfl rfl; first | assumption | apply State.wr_keeps | apply State.forRange_keeps | apply State.setPair_keeps | apply State.hearTerm_keeps | apply State.twinRef_keeps | apply ite_keeps | split) | (dsimp +zetaDelta only)

theorem State.twinTake_keeps {s₀ s : State} (ok : Bool) (f : State → State) (hf : ∀ u, Keeps s₀ u → Keeps s₀ (f u)) (h : Keeps s₀ s) :
    Keeps s₀ (s.twinTake ok f) :=
  State.when_keeps (fun u hu => ite_keeps (hf u hu) (State.inc_keeps _ hu)) h

theorem execTwinHeartbeat_keeps {s₀ : State} (x : Framed HbFrame) {s : State} (h : Keeps s₀ s) : KeepsOut s₀ (execTwinHeartbeat x s) := by
  unfold execTwinHeartbeat
  with_reducible repeat' first | apply KeepsOut.next | assumption | apply State.wr_keeps | apply State.twinTake_keeps | apply State.twinHeartbeat_keeps | (intro _)

theorem State.twinHbMiss_keeps {s₀ : State} {s : State} (h : Keeps s₀ s) : Keeps s₀ (State.twinHbMiss s) := by
  unfold State.twinHbMiss
  try extract_lets
  with_reducible repeat' first | assumption | apply State.wr_keeps | apply State.inc_keeps | apply State.forRange_keeps | apply State.witSend_keeps | apply State.event_keeps | (intro _) | apply ite_keeps | split | (refine Keeps.mk' ?_ rfl rfl; first | assumption | apply State.wr_keeps | apply State.inc_keeps | apply State.forRange_keeps | apply State.witSend_keeps | apply State.event_keeps | apply ite_keeps | split) | (dsimp +zetaDelta only)

theorem execTwinHbMiss_keeps {s₀ : State} {s : State} (h : Keeps s₀ s) : KeepsOut s₀ (execTwinHbMiss s) := by
  unfold execTwinHbMiss
  with_reducible repeat' first | apply KeepsOut.next | assumption | apply State.wr_keeps | apply State.when_keeps | apply State.twinHbMiss_keeps

theorem State.renew_keeps {s₀ : State} {s : State} (n : Nat) (h : Keeps s₀ s) : Keeps s₀ (State.renew s n) := by
  unfold State.renew
  try extract_lets
  with_reducible repeat' first | assumption | apply State.wr_keeps | apply State.setPair_keeps | apply State.witSend_keeps | apply State.relay_keeps | apply ite_keeps | split | (refine Keeps.mk' ?_ rfl rfl; first | assumption | apply State.wr_keeps | apply State.setPair_keeps | apply State.witSend_keeps | apply State.relay_keeps | apply ite_keeps | split) | (dsimp +zetaDelta only)

theorem execLeaseRenewTimer_keeps {s₀ : State} (n : Fin 32) {s : State} (h : Keeps s₀ s) : KeepsOut s₀ (execLeaseRenewTimer n s) := by
  unfold execLeaseRenewTimer
  with_reducible repeat' first | apply KeepsOut.next | assumption | apply State.wr_keeps | apply State.when_keeps | apply State.renew_keeps | (intro _)

theorem execLeaseExpired_keeps {s₀ : State} (n : Fin 32) {s : State} (h : Keeps s₀ s) : KeepsOut s₀ (execLeaseExpired n s) := by
  unfold execLeaseExpired
  with_reducible repeat' first | apply KeepsOut.next | assumption | apply State.wr_keeps | apply State.when_keeps | apply State.setRole_keeps | (intro _)

theorem State.witFrameIn_keeps {s₀ : State} {s : State} (h : Keeps s₀ s) : Keeps s₀ (State.witFrameIn s) := by
  unfold State.witFrameIn
  with_reducible repeat' first | assumption | apply State.wr_keeps | apply State.when_keeps | apply State.frameIn_keeps | (intro _)

theorem State.witTake_keeps {s₀ s : State} (typ : Nat) (m : WitMsg) (f : State → State) (hf : ∀ u, Keeps s₀ u → Keeps s₀ (f u)) (h : Keeps s₀ s) :
    Keeps s₀ (s.witTake typ m f) := by
  unfold State.witTake
  exact ite_keeps h (ite_keeps (hf _ (State.wr_keeps _ _ (h.mk' rfl rfl))) (State.inc_keeps _ h))

theorem State.forPair_keeps {s₀ s : State} (m : WitMsg) (f : State → Nat → State) (hf : ∀ u n, Keeps s₀ u → Keeps s₀ (f u n)) (h : Keeps s₀ s) :
    Keeps s₀ (s.forPair m f) := by
  unfold State.forPair
  repeat' first | with_reducible assumption | with_reducible apply hf | with_reducible apply ite_keeps | split

theorem State.resumeSide_keeps {s₀ : State} {s : State} (n : Nat) (h : Keeps s₀ s) : Keeps s₀ (State.resumeSide s n) := by
  unfold State.resumeSide
  try extract_lets
  with_reducible repeat' first | assumption | apply State.wr_keeps | apply State.setPair_keeps | apply State.setEncSt_keeps | apply State.setRole_keeps | apply foldl_keeps | (intro _) | (refine Keeps.mk' ?_ rfl rfl; first | assumption | apply State.wr_keeps | apply State.setPair_keeps | apply State.setEncSt_keeps | apply State.setRole_keeps | apply foldl_keeps) | (dsimp +zetaDelta only)

theorem State.witGrant_keeps {s₀ : State} {s : State} (m : WitMsg) (h : Keeps s₀ s) : Keeps s₀ (State.witGrant s m) := by
  unfold State.witGrant
  try extract_lets
  with_reducible repeat' first | assumption | apply State.wr_keeps | apply State.forPair_keeps | apply State.setPair_keeps | apply State.relay_keeps | apply State.hearTerm_keeps | apply State.resumeSide_keeps | (intro _) | apply ite_keeps | split | (refine Keeps.mk' ?_ rfl rfl; first | assumption | apply State.wr_keeps | apply State.forPair_keeps | apply State.setPair_keeps | apply State.relay_keeps | apply State.hearTerm_keeps | apply State.resumeSide_keeps | apply ite_keeps | split) | (dsimp +zetaDelta only)

theorem State.grantMsg_keeps {s₀ : State} {s : State} (m : WitMsg) (h : Keeps s₀ s) : Keeps s₀ (State.grantMsg s m) := by
  unfold State.grantMsg
  with_reducible repeat' first | assumption | apply State.wr_keeps | apply State.witTake_keeps | apply State.witGrant_keeps | (intro _)

theorem execWitGrant_keeps {s₀ : State} (m : WitMsg) {s : State} (h : Keeps s₀ s) : KeepsOut s₀ (execWitGrant m s) := by
  unfold execWitGrant
  with_reducible repeat' first | apply KeepsOut.next | assumption | apply State.wr_keeps | apply State.witFrameIn_keeps | apply State.grantMsg_keeps

theorem State.witProbe_keeps {s₀ : State} {s : State} (m : WitMsg) (h : Keeps s₀ s) : Keeps s₀ (State.witProbe s m) := by
  unfold State.witProbe
  with_reducible repeat' first | assumption | apply State.wr_keeps | apply State.forPair_keeps | apply State.witSend_keeps | (intro _)

theorem State.probeMsg_keeps {s₀ : State} {s : State} (m : WitMsg) (h : Keeps s₀ s) : Keeps s₀ (State.probeMsg s m) := by
  unfold State.probeMsg
  with_reducible repeat' first | assumption | apply State.wr_keeps | apply State.witTake_keeps | apply State.witProbe_keeps | (intro _)

theorem execWitProbe_keeps {s₀ : State} (m : WitMsg) {s : State} (h : Keeps s₀ s) : KeepsOut s₀ (execWitProbe m s) := by
  unfold execWitProbe
  with_reducible repeat' first | apply KeepsOut.next | assumption | apply State.wr_keeps | apply State.witFrameIn_keeps | apply State.probeMsg_keeps

theorem State.witFence_keeps {s₀ : State} {s : State} (m : WitMsg) (h : Keeps s₀ s) : Keeps s₀ (State.witFence s m) := by
  unfold State.witFence
  try extract_lets
  with_reducible repeat' first | assumption | apply State.wr_keeps | apply State.forPair_keeps | apply State.demote_keeps | apply State.refReset_keeps | apply State.witSend_keeps | apply State.setTerm_keeps | (intro _) | apply ite_keeps | split | (dsimp +zetaDelta only)

theorem State.fenceMsg_keeps {s₀ : State} {s : State} (m : WitMsg) (h : Keeps s₀ s) : Keeps s₀ (State.fenceMsg s m) := by
  unfold State.fenceMsg
  with_reducible repeat' first | assumption | apply State.wr_keeps | apply State.witTake_keeps | apply State.witFence_keeps | (intro _)

theorem execWitFence_keeps {s₀ : State} (m : WitMsg) {s : State} (h : Keeps s₀ s) : KeepsOut s₀ (execWitFence m s) := by
  unfold execWitFence
  with_reducible repeat' first | apply KeepsOut.next | assumption | apply State.wr_keeps | apply State.witFrameIn_keeps | apply State.fenceMsg_keeps

theorem State.witVerdict_keeps {s₀ : State} {s : State} (m : WitMsg) (h : Keeps s₀ s) : Keeps s₀ (State.witVerdict s m) := by
  unfold State.witVerdict
  with_reducible repeat' first | assumption | apply State.wr_keeps | apply State.forPair_keeps | apply State.hearTerm_keeps | apply State.cancelPlan_keeps | apply State.setTerm_keeps | apply State.promote_keeps | apply State.setPair_keeps | (intro _) | apply ite_keeps | split | (refine Keeps.mk' ?_ rfl rfl; first | assumption | apply State.wr_keeps | apply State.forPair_keeps | apply State.hearTerm_keeps | apply State.cancelPlan_keeps | apply State.setTerm_keeps | apply State.promote_keeps | apply State.setPair_keeps | apply ite_keeps | split)

theorem State.verdictMsg_keeps {s₀ : State} {s : State} (m : WitMsg) (h : Keeps s₀ s) : Keeps s₀ (State.verdictMsg s m) := by
  unfold State.verdictMsg
  with_reducible repeat' first | assumption | apply State.wr_keeps | apply State.witTake_keeps | apply State.witVerdict_keeps | (intro _)

theorem execWitVerdict_keeps {s₀ : State} (m : WitMsg) {s : State} (h : Keeps s₀ s) : KeepsOut s₀ (execWitVerdict m s) := by
  unfold execWitVerdict
  with_reducible repeat' first | apply KeepsOut.next | assumption | apply State.wr_keeps | apply State.witFrameIn_keeps | apply State.verdictMsg_keeps

theorem State.setWit_keeps {s₀ : State} {s : State} (id : Nat) (x : WitSt) (h : Keeps s₀ s) : Keeps s₀ (State.setWit s id x) := by
  unfold State.setWit
  with_reducible repeat' first | assumption | apply State.wr_keeps | (intro _) | (refine Keeps.mk' ?_ rfl rfl; first | assumption | apply State.wr_keeps)

theorem State.witRenew_keeps {s₀ : State} {s : State} (m : WitMsg) (h : Keeps s₀ s) : Keeps s₀ (State.witRenew s m) := by
  unfold State.witRenew
  try extract_lets
  with_reducible repeat' first | assumption | apply State.wr_keeps | apply State.setWit_keeps | apply State.witSend_keeps | apply ite_keeps | split | (refine Keeps.mk' ?_ rfl rfl; first | assumption | apply State.wr_keeps | apply State.setWit_keeps | apply State.witSend_keeps | apply ite_keeps | split) | (dsimp +zetaDelta only)

theorem State.renewMsg_keeps {s₀ : State} {s : State} (m : WitMsg) (h : Keeps s₀ s) : Keeps s₀ (State.renewMsg s m) := by
  unfold State.renewMsg
  with_reducible repeat' first | assumption | apply State.wr_keeps | apply State.witTake_keeps | apply State.witRenew_keeps | (intro _)

theorem execWitRenew_keeps {s₀ : State} (m : WitMsg) {s : State} (h : Keeps s₀ s) : KeepsOut s₀ (execWitRenew m s) := by
  unfold execWitRenew
  with_reducible repeat' first | apply KeepsOut.next | assumption | apply State.wr_keeps | apply State.witFrameIn_keeps | apply State.renewMsg_keeps

theorem State.witSuspect_keeps {s₀ : State} {s : State} (m : WitMsg) (h : Keeps s₀ s) : Keeps s₀ (State.witSuspect s m) := by
  unfold State.witSuspect
  with_reducible repeat' first | assumption | apply State.wr_keeps | apply State.setWit_keeps | apply State.witSend_keeps | apply ite_keeps | split | (refine Keeps.mk' ?_ rfl rfl; first | assumption | apply State.wr_keeps | apply State.setWit_keeps | apply State.witSend_keeps | apply ite_keeps | split)

theorem State.suspectMsg_keeps {s₀ : State} {s : State} (m : WitMsg) (h : Keeps s₀ s) : Keeps s₀ (State.suspectMsg s m) := by
  unfold State.suspectMsg
  with_reducible repeat' first | assumption | apply State.wr_keeps | apply State.witTake_keeps | apply State.witSuspect_keeps | (intro _)

theorem execWitSuspect_keeps {s₀ : State} (m : WitMsg) {s : State} (h : Keeps s₀ s) : KeepsOut s₀ (execWitSuspect m s) := by
  unfold execWitSuspect
  with_reducible repeat' first | apply KeepsOut.next | assumption | apply State.wr_keeps | apply State.witFrameIn_keeps | apply State.suspectMsg_keeps

theorem State.probeAckMsg_keeps {s₀ : State} {s : State} (m : WitMsg) (h : Keeps s₀ s) : Keeps s₀ (State.probeAckMsg s m) := by
  unfold State.probeAckMsg
  with_reducible repeat' first | assumption | apply State.wr_keeps | apply State.witTake_keeps | apply State.when_keeps | apply State.setWit_keeps | (intro _) | (refine Keeps.mk' ?_ rfl rfl; first | assumption | apply State.wr_keeps | apply State.witTake_keeps | apply State.when_keeps | apply State.setWit_keeps)

theorem execWitProbeAck_keeps {s₀ : State} (m : WitMsg) {s : State} (h : Keeps s₀ s) : KeepsOut s₀ (execWitProbeAck m s) := by
  unfold execWitProbeAck
  with_reducible repeat' first | apply KeepsOut.next | assumption | apply State.wr_keeps | apply State.witFrameIn_keeps | apply State.probeAckMsg_keeps

theorem State.witPromoted_keeps {s₀ : State} {s : State} (id : Nat) (h : Keeps s₀ s) : Keeps s₀ (State.witPromoted s id) := by
  unfold State.witPromoted
  try extract_lets
  with_reducible repeat' first | assumption | apply State.wr_keeps | apply State.setWit_keeps | (refine Keeps.mk' ?_ rfl rfl; first | assumption | apply State.wr_keeps | apply State.setWit_keeps) | (dsimp +zetaDelta only)

theorem State.witDecide_keeps {s₀ : State} {s : State} (id : Nat) (h : Keeps s₀ s) : Keeps s₀ (State.witDecide s id) := by
  unfold State.witDecide
  try extract_lets
  with_reducible repeat' first | assumption | apply State.wr_keeps | apply State.setWit_keeps | apply State.witSend_keeps | apply State.witPromoted_keeps | (intro _) | apply ite_keeps | split | (refine Keeps.mk' ?_ rfl rfl; first | assumption | apply State.wr_keeps | apply State.setWit_keeps | apply State.witSend_keeps | apply State.witPromoted_keeps | apply ite_keeps | split) | (dsimp +zetaDelta only)

theorem execWitProbeTimeout_keeps {s₀ : State} (id : Fin 65536) {s : State} (h : Keeps s₀ s) : KeepsOut s₀ (execWitProbeTimeout id s) := by
  unfold execWitProbeTimeout
  with_reducible repeat' first | apply KeepsOut.next | assumption | apply State.wr_keeps | apply State.when_keeps | apply State.witDecide_keeps | (intro _)

theorem State.fenceAckMsg_keeps {s₀ : State} {s : State} (m : WitMsg) (h : Keeps s₀ s) : Keeps s₀ (State.fenceAckMsg s m) := by
  unfold State.fenceAckMsg
  with_reducible repeat' first | assumption | apply State.wr_keeps | apply State.witTake_keeps | apply State.when_keeps | apply State.promote_keeps | apply State.witSend_keeps | apply State.witPromoted_keeps | (intro _)

theorem execWitFenceAck_keeps {s₀ : State} (m : WitMsg) {s : State} (h : Keeps s₀ s) : KeepsOut s₀ (execWitFenceAck m s) := by
  unfold execWitFenceAck
  with_reducible repeat' first | apply KeepsOut.next | assumption | apply State.wr_keeps | apply State.witFrameIn_keeps | apply State.fenceAckMsg_keeps

theorem State.yieldMsg_keeps {s₀ : State} {s : State} (m : WitMsg) (h : Keeps s₀ s) : Keeps s₀ (State.yieldMsg s m) := by
  unfold State.yieldMsg
  with_reducible repeat' first | assumption | apply State.wr_keeps | apply State.witTake_keeps | apply State.when_keeps | apply State.witSend_keeps | apply State.witPromoted_keeps | (intro _)

theorem execWitYield_keeps {s₀ : State} (m : WitMsg) {s : State} (h : Keeps s₀ s) : KeepsOut s₀ (execWitYield m s) := by
  unfold execWitYield
  with_reducible repeat' first | apply KeepsOut.next | assumption | apply State.wr_keeps | apply State.witFrameIn_keeps | apply State.yieldMsg_keeps

theorem State.witLeaseOver_keeps {s₀ : State} {s : State} (id : Nat) (h : Keeps s₀ s) : Keeps s₀ (State.witLeaseOver s id) := by
  unfold State.witLeaseOver
  try extract_lets
  with_reducible repeat' first | assumption | apply State.wr_keeps | apply State.promote_keeps | apply State.witPromoted_keeps | apply State.cancelPlan_keeps | apply State.setTerm_keeps | apply ite_keeps | split | (refine Keeps.mk' ?_ rfl rfl; first | assumption | apply State.wr_keeps | apply State.promote_keeps | apply State.witPromoted_keeps | apply State.cancelPlan_keeps | apply State.setTerm_keeps | apply ite_keeps | split) | (dsimp +zetaDelta only)

theorem execWitnessLeaseExpired_keeps {s₀ : State} (id : Fin 65536) {s : State} (h : Keeps s₀ s) : KeepsOut s₀ (execWitnessLeaseExpired id s) := by
  unfold execWitnessLeaseExpired
  with_reducible repeat' first | apply KeepsOut.next | assumption | apply State.wr_keeps | apply State.witLeaseOver_keeps

theorem State.witAny_keeps {s₀ s : State} (typ : Nat) (m : WitMsg) (h : Keeps s₀ s) : Keeps s₀ (s.witAny typ m) := by
  unfold State.witAny
  split
  · exact State.renewMsg_keeps _ h
  · exact State.grantMsg_keeps _ h
  · exact State.suspectMsg_keeps _ h
  · exact State.probeMsg_keeps _ h
  · exact State.probeAckMsg_keeps _ h
  · exact State.fenceMsg_keeps _ h
  · exact State.fenceAckMsg_keeps _ h
  · exact State.verdictMsg_keeps _ h
  · exact State.yieldMsg_keeps _ h
  · exact State.inc_keeps _ h

theorem State.mboxWrite_keeps {s₀ : State} {s : State} (index : Word) (msgs : List (Nat × WitMsg)) (h : Keeps s₀ s) : Keeps s₀ (State.mboxWrite s index msgs) := by
  unfold State.mboxWrite
  try extract_lets
  with_reducible repeat' first | assumption | apply State.wr_keeps | apply State.witAny_keeps | apply foldl_keeps | (intro _) | apply ite_keeps | split | (refine Keeps.mk' ?_ rfl rfl; first | assumption | apply State.wr_keeps | apply State.witAny_keeps | apply foldl_keeps | apply ite_keeps | split) | (dsimp +zetaDelta only)

theorem execTwinMboxHostidxWrite_keeps {s₀ : State} (index : Word) (msgs : List (Nat × WitMsg)) {s : State} (h : Keeps s₀ s) : KeepsOut s₀ (execTwinMboxHostidxWrite index msgs s) := by
  unfold execTwinMboxHostidxWrite
  with_reducible repeat' first | apply KeepsOut.next | assumption | apply State.wr_keeps | apply State.mboxWrite_keeps

theorem State.pairStart_keeps {s₀ : State} {s : State} (n : Nat) (h : Keeps s₀ s) : Keeps s₀ (State.pairStart s n) := by
  unfold State.pairStart
  try extract_lets
  with_reducible repeat' first | assumption | apply State.wr_keeps | apply State.setRole_keeps | apply foldl_keeps | (intro _) | apply ite_keeps | split | (dsimp +zetaDelta only)

theorem State.showMismatch_keeps {s₀ : State} {s : State} (n : Nat) (h : Keeps s₀ s) : Keeps s₀ (State.showMismatch s n) := by
  unfold State.showMismatch
  with_reducible repeat' first | assumption | apply State.wr_keeps

theorem State.capsCheck_keeps {s₀ : State} {s : State} (n : Nat) (h : Keeps s₀ s) : Keeps s₀ (State.capsCheck s n) := by
  unfold State.capsCheck
  with_reducible repeat' first | assumption | apply State.wr_keeps | apply State.setPair_keeps | apply State.showMismatch_keeps | apply State.pairStart_keeps | (refine Keeps.mk' ?_ rfl rfl; first | assumption | apply State.wr_keeps | apply State.setPair_keeps | apply State.showMismatch_keeps | apply State.pairStart_keeps)

theorem State.twinCaps_keeps {s₀ : State} {s : State} (x : CapsFrame) (h : Keeps s₀ s) : Keeps s₀ (State.twinCaps s x) := by
  unfold State.twinCaps
  try extract_lets
  with_reducible repeat' first | assumption | apply State.wr_keeps | apply State.forRange_keeps | apply State.capsCheck_keeps | (intro _) | apply ite_keeps | split | (refine Keeps.mk' ?_ rfl rfl; first | assumption | apply State.wr_keeps | apply State.forRange_keeps | apply State.capsCheck_keeps | apply ite_keeps | split) | (dsimp +zetaDelta only)

theorem execTwinCaps_keeps {s₀ : State} (x : Framed CapsFrame) {s : State} (h : Keeps s₀ s) : KeepsOut s₀ (execTwinCaps x s) := by
  unfold execTwinCaps
  with_reducible repeat' first | apply KeepsOut.next | assumption | apply State.wr_keeps | apply State.twinTake_keeps | apply State.twinCaps_keeps | (intro _)

theorem State.sendCaps_keeps {s₀ : State} {s : State} (h : Keeps s₀ s) : Keeps s₀ (State.sendCaps s) := by
  unfold State.sendCaps
  with_reducible repeat' first | assumption | apply State.wr_keeps | apply State.sendTwin_keeps | apply ite_keeps | split

theorem State.twinCursor_keeps {s₀ : State} {s : State} (ws : List Word) (h : Keeps s₀ s) : Keeps s₀ (State.twinCursor s ws) := by
  unfold State.twinCursor
  try extract_lets
  with_reducible repeat' first | assumption | apply State.wr_keeps | apply State.setPair_keeps | apply State.showMismatch_keeps | (intro _) | apply ite_keeps | split | (refine Keeps.mk' ?_ rfl rfl; first | assumption | apply State.wr_keeps | apply State.setPair_keeps | apply State.showMismatch_keeps | apply ite_keeps | split) | (dsimp +zetaDelta only)

theorem execTwinCursor_keeps {s₀ : State} (words : Framed (List Word)) {s : State} (h : Keeps s₀ s) : KeepsOut s₀ (execTwinCursor words s) := by
  unfold execTwinCursor
  with_reducible repeat' first | apply KeepsOut.next | assumption | apply State.wr_keeps | apply State.twinTake_keeps | apply State.twinCursor_keeps | (intro _)

theorem execTwinFlow_keeps {s₀ : State} (words : Framed (List Word)) {s : State} (h : Keeps s₀ s) : KeepsOut s₀ (execTwinFlow words s) := by
  unfold execTwinFlow
  with_reducible repeat' first | apply KeepsOut.next | assumption | apply State.wr_keeps | apply State.twinTake_keeps | apply foldl_keeps | (intro _) | (refine Keeps.mk' ?_ rfl rfl; first | assumption | apply State.wr_keeps | apply State.twinTake_keeps | apply foldl_keeps)

theorem execTwinTemplate_keeps {s₀ : State} (sid : Fin 768) (block : Framed (List Byte)) {s : State} (h : Keeps s₀ s) : KeepsOut s₀ (execTwinTemplate sid block s) := by
  unfold execTwinTemplate
  with_reducible repeat' first | apply KeepsOut.next | assumption | apply State.wr_keeps | apply State.twinTake_keeps | (intro _) | (refine Keeps.mk' ?_ rfl rfl; first | assumption | apply State.wr_keeps | apply State.twinTake_keeps)

theorem State.twinRelay_keeps {s₀ : State} {s : State} (typ : Nat) (m : WitMsg) (h : Keeps s₀ s) : Keeps s₀ (State.twinRelay s typ m) := by
  unfold State.twinRelay
  with_reducible repeat' first | assumption | apply State.wr_keeps | apply State.witAny_keeps | apply State.witOut_keeps | apply ite_keeps | split

theorem execTwinRelay_keeps {s₀ : State} (typ : Nat) (m : Framed WitMsg) {s : State} (h : Keeps s₀ s) : KeepsOut s₀ (execTwinRelay typ m s) := by
  unfold execTwinRelay
  with_reducible repeat' first | apply KeepsOut.next | assumption | apply State.wr_keeps | apply State.twinTake_keeps | apply State.twinRelay_keeps | (intro _)

theorem State.twinMirror_keeps {s₀ : State} {s : State} (k : Nat) (damaged : Bool) (x : SdiLine) (h : Keeps s₀ s) : Keeps s₀ (State.twinMirror s k damaged x) := by
  unfold State.twinMirror
  with_reducible repeat' first | assumption | apply State.wr_keeps | apply State.inc_keeps | apply State.sdiLine_keeps | apply ite_keeps | split | (refine Keeps.mk' ?_ rfl rfl; first | assumption | apply State.wr_keeps | apply State.inc_keeps | apply State.sdiLine_keeps | apply ite_keeps | split)

theorem execTwinMirror_keeps {s₀ : State} (k : Fin 16) (damaged : Bool) (x : Framed SdiLine) {s : State} (h : Keeps s₀ s) : KeepsOut s₀ (execTwinMirror k damaged x s) := by
  unfold execTwinMirror
  with_reducible repeat' first | apply KeepsOut.next | assumption | apply State.wr_keeps | apply State.twinTake_keeps | apply State.twinMirror_keeps | (intro _)

theorem State.sendCursor_keeps {s₀ : State} {s : State} (d : Nat) (i : Nat) (done : Bool) (lastPic : Nat) (h : Keeps s₀ s) : Keeps s₀ (State.sendCursor s d i done lastPic) := by
  unfold State.sendCursor
  try extract_lets
  with_reducible repeat' first | assumption | apply State.wr_keeps | apply State.sendTwin_keeps | apply ite_keeps | split | (refine Keeps.mk' ?_ rfl rfl; first | assumption | apply State.wr_keeps | apply State.sendTwin_keeps | apply ite_keeps | split) | (dsimp +zetaDelta only)

theorem State.sendTemplate_keeps {s₀ : State} {s : State} (d : Nat) (i : Nat) (h : Keeps s₀ s) : Keeps s₀ (State.sendTemplate s d i) := by
  unfold State.sendTemplate
  try extract_lets
  with_reducible repeat' first | assumption | apply State.wr_keeps | apply State.sendTwin_keeps | apply ite_keeps | split | (refine Keeps.mk' ?_ rfl rfl; first | assumption | apply State.wr_keeps | apply State.sendTwin_keeps | apply ite_keeps | split) | (dsimp +zetaDelta only)

theorem State.sendFlowFrame_keeps {s₀ : State} {s : State} (d : Nat) (i : Nat) (h : Keeps s₀ s) : Keeps s₀ (State.sendFlowFrame s d i) := by
  unfold State.sendFlowFrame
  try extract_lets
  with_reducible repeat' first | assumption | apply State.wr_keeps | apply State.sendTwin_keeps | (intro _) | apply ite_keeps | split | (refine Keeps.mk' ?_ rfl rfl; first | assumption | apply State.wr_keeps | apply State.sendTwin_keeps | apply ite_keeps | split) | (dsimp +zetaDelta only)

theorem State.plan_keeps {s₀ : State} {s : State} (n : Nat) (l : Nat) (x : Nat) (drill : Bool) (h : Keeps s₀ s) : Keeps s₀ (State.plan s n l x drill) := by
  unfold State.plan
  try extract_lets
  with_reducible repeat' first | assumption | apply State.wr_keeps | apply State.setPair_keeps | apply State.witSend_keeps | apply ite_keeps | split | (refine Keeps.mk' ?_ rfl rfl; first | assumption | apply State.wr_keeps | apply State.setPair_keeps | apply State.witSend_keeps | apply ite_keeps | split) | (dsimp +zetaDelta only)

theorem State.planWrite_keeps {s₀ : State} {s : State} (n : Nat) (drill : Bool) (h : Keeps s₀ s) : Keeps s₀ (State.planWrite s n drill) := by
  unfold State.planWrite
  try extract_lets
  with_reducible repeat' first | assumption | apply State.wr_keeps | apply State.pairRefuse_keeps | apply State.plan_keeps | (intro _) | apply ite_keeps | split | (dsimp +zetaDelta only)

theorem State.abortWrite_keeps {s₀ : State} {s : State} (n : Nat) (h : Keeps s₀ s) : Keeps s₀ (State.abortWrite s n) := by
  unfold State.abortWrite
  with_reducible repeat' first | assumption | apply State.wr_keeps | apply State.abortDrill_keeps | apply State.pairRefuse_keeps | apply ite_keeps | split

theorem State.rejoinWrite_keeps {s₀ : State} {s : State} (n : Nat) (h : Keeps s₀ s) : Keeps s₀ (State.rejoinWrite s n) := by
  unfold State.rejoinWrite
  with_reducible repeat' first | assumption | apply State.wr_keeps | apply State.setRole_keeps | apply State.pairStart_keeps | apply State.pairRefuse_keeps | (intro _) | split | (refine Keeps.mk' ?_ rfl rfl; first | assumption | apply State.wr_keeps | apply State.setRole_keeps | apply State.pairStart_keeps | apply State.pairRefuse_keeps | split)

theorem State.pairCtlWrite_keeps {s₀ : State} {s : State} (n : Nat) (v : Word) (h : Keeps s₀ s) : Keeps s₀ (State.pairCtlWrite s n v) := by
  unfold State.pairCtlWrite
  try extract_lets
  with_reducible repeat' first | assumption | apply State.wr_keeps | apply State.setReg_keeps | apply State.planWrite_keeps | apply State.rejoinWrite_keeps | apply State.abortWrite_keeps | apply ite_keeps | split | (dsimp +zetaDelta only)

theorem execPairSwitch_keeps {s₀ : State} (n : Fin 32) (tl : Fin 4) (back : Bool) {s : State} (h : Keeps s₀ s) : KeepsOut s₀ (execPairSwitch n tl back s) := by
  unfold execPairSwitch
  with_reducible repeat' first | apply KeepsOut.next | assumption | apply State.wr_keeps | apply State.pairCtlWrite_keeps

theorem execPairDrill_keeps {s₀ : State} (n : Fin 32) (tl : Fin 4) (back : Bool) {s : State} (h : Keeps s₀ s) : KeepsOut s₀ (execPairDrill n tl back s) := by
  unfold execPairDrill
  with_reducible repeat' first | apply KeepsOut.next | assumption | apply State.wr_keeps | apply State.pairCtlWrite_keeps

theorem execPairRejoin_keeps {s₀ : State} (n : Fin 32) {s : State} (h : Keeps s₀ s) : KeepsOut s₀ (execPairRejoin n s) := by
  unfold execPairRejoin
  with_reducible repeat' first | apply KeepsOut.next | assumption | apply State.wr_keeps | apply State.pairCtlWrite_keeps

theorem execPairAbort_keeps {s₀ : State} (n : Fin 32) {s : State} (h : Keeps s₀ s) : KeepsOut s₀ (execPairAbort n s) := by
  unfold execPairAbort
  with_reducible repeat' first | apply KeepsOut.next | assumption | apply State.wr_keeps | apply State.pairCtlWrite_keeps

theorem State.endAt_keeps {s₀ : State} {s : State} (n : Nat) (sd : Nat) (drill : Bool) (h : Keeps s₀ s) : Keeps s₀ (State.endAt s n sd drill) := by
  unfold State.endAt
  try extract_lets
  with_reducible repeat' first | assumption | apply State.wr_keeps | apply State.setEncSt_keeps | apply State.setEncState_keeps | apply foldl_keeps | (intro _) | apply ite_keeps | split | (refine Keeps.mk' ?_ rfl rfl; first | assumption | apply State.wr_keeps | apply State.setEncSt_keeps | apply State.setEncState_keeps | apply foldl_keeps | apply ite_keeps | split) | (dsimp +zetaDelta only)

theorem State.switchNow_keeps {s₀ : State} {s : State} (n : Nat) (drill : Bool) (h : Keeps s₀ s) : Keeps s₀ (State.switchNow s n drill) := by
  unfold State.switchNow
  try extract_lets
  with_reducible repeat' first | assumption | apply State.wr_keeps | apply State.setPair_keeps | apply State.pairRefuse_keeps | apply State.setTerm_keeps | apply State.setRole_keeps | apply State.endAt_keeps | apply State.promote_keeps | (intro _) | apply ite_keeps | split | (refine Keeps.mk' ?_ rfl rfl; first | assumption | apply State.wr_keeps | apply State.setPair_keeps | apply State.pairRefuse_keeps | apply State.setTerm_keeps | apply State.setRole_keeps | apply State.endAt_keeps | apply State.promote_keeps | apply ite_keeps | split) | (dsimp +zetaDelta only)

theorem execPairSwitchStamp_keeps {s₀ : State} (n : Fin 32) {s : State} (h : Keeps s₀ s) : KeepsOut s₀ (execPairSwitchStamp n s) := by
  unfold execPairSwitchStamp
  with_reducible repeat' first | apply KeepsOut.next | assumption | apply State.wr_keeps | apply State.plan_keeps | apply State.switchNow_keeps | apply ite_keeps | split | (refine Keeps.mk' ?_ rfl rfl; first | assumption | apply State.wr_keeps | apply State.plan_keeps | apply State.switchNow_keeps | apply ite_keeps | split)

theorem State.drillEnd_keeps {s₀ : State} {s : State} (n : Nat) (h : Keeps s₀ s) : Keeps s₀ (State.drillEnd s n) := by
  unfold State.drillEnd
  try extract_lets
  with_reducible repeat' first | assumption | apply State.wr_keeps | apply State.inc_keeps | apply State.setPair_keeps | apply State.setEncState_keeps | apply State.modeUpdate_keeps | apply State.plan_keeps | apply foldl_keeps | (intro _) | apply ite_keeps | split | (refine Keeps.mk' ?_ rfl rfl; first | assumption | apply State.wr_keeps | apply State.inc_keeps | apply State.setPair_keeps | apply State.setEncState_keeps | apply State.modeUpdate_keeps | apply State.plan_keeps | apply foldl_keeps | apply ite_keeps | split) | (dsimp +zetaDelta only)

theorem execDrillWindowEnd_keeps {s₀ : State} (n : Fin 32) {s : State} (h : Keeps s₀ s) : KeepsOut s₀ (execDrillWindowEnd n s) := by
  unfold execDrillWindowEnd
  with_reducible repeat' first | apply KeepsOut.next | assumption | apply State.wr_keeps | apply State.when_keeps | apply State.drillEnd_keeps | (intro _)

theorem State.pairCommit_keeps {s₀ : State} (o : State) {s : State} (n : Nat) (h : Keeps s₀ s) : Keeps s₀ (State.pairCommit o s n) := by
  unfold State.pairCommit
  try extract_lets
  with_reducible repeat' first | assumption | apply State.wr_keeps | apply State.setPair_keeps | apply State.setTerm_keeps | apply State.setReg_keeps | apply State.setRole_keeps | apply State.capsCheck_keeps | apply State.pairStart_keeps | apply foldl_keeps | (intro _) | apply ite_keeps | split | (refine Keeps.mk' ?_ rfl rfl; first | assumption | apply State.wr_keeps | apply State.setPair_keeps | apply State.setTerm_keeps | apply State.setReg_keeps | apply State.setRole_keeps | apply State.capsCheck_keeps | apply State.pairStart_keeps | apply foldl_keeps | apply ite_keeps | split) | (dsimp +zetaDelta only)

theorem State.pairsCommit_keeps {s₀ : State} (o : State) {s : State} (h : Keeps s₀ s) : Keeps s₀ (State.pairsCommit o s) := by
  unfold State.pairsCommit
  with_reducible repeat' first | assumption | apply State.wr_keeps | apply State.forRange_keeps | apply State.pairCommit_keeps | apply State.sendCaps_keeps | (intro _)

theorem State.crcCommit_keeps {s₀ : State} (o : State) {s : State} (h : Keeps s₀ s) : Keeps s₀ (State.crcCommit o s) := by
  unfold State.crcCommit
  with_reducible repeat' first | assumption | apply State.wr_keeps | apply State.pairsCommit_keeps | (intro _) | apply ite_keeps | split

theorem State.keyWrite_keeps {s₀ : State} {s : State} (k : Nat) (v : Word) (h : Keeps s₀ s) : Keeps s₀ (State.keyWrite s k v) := by
  unfold State.keyWrite
  with_reducible repeat' first | assumption | apply State.wr_keeps | apply State.refuse_keeps | apply State.setReg_keeps | apply ite_keeps | split

end Sys2Proof.Machine
end

