-- ==== Sys2Proof/Laws/Keeps/Fabric.lean ====
section
/-!
SUPPORT. Sys2Proof/Laws/Keeps/Fabric.lean: what each operation of Machine/Fabric.lean keeps (Keeps of Safety.lean).
-/
namespace Sys2Proof.Machine
set_option linter.all false

theorem State.fabErr_keeps {s₀ : State} {s : State} (d : Nat) (master : Nat) (target : Nat) (write : Bool) (addr : Nat) (h : Keeps s₀ s) : Keeps s₀ (State.fabErr s d master target write addr) := by
  unfold State.fabErr
  try extract_lets
  with_reducible repeat' first | assumption | apply State.wr_keeps | apply State.inc_keeps | apply State.setReg_keeps | apply ite_keeps | split | (dsimp +zetaDelta only)

theorem State.fabErrWrite_keeps {s₀ : State} {s : State} (d : Nat) (v : Word) (h : Keeps s₀ s) : Keeps s₀ (State.fabErrWrite s d v) := by
  unfold State.fabErrWrite
  with_reducible repeat' first | assumption | apply State.wr_keeps | apply ite_keeps | split

theorem execFabErrClear_keeps {s₀ : State} (d : Fin 8) {s : State} (h : Keeps s₀ s) : KeepsOut s₀ (execFabErrClear d s) := by
  unfold execFabErrClear
  with_reducible repeat' first | apply KeepsOut.next | assumption | apply State.wr_keeps | apply State.when_keeps | apply State.fabErrWrite_keeps | (intro _)

theorem State.fabPromote_keeps {s₀ : State} {s : State} (d : Nat) (t : Nat) (h : Keeps s₀ s) : Keeps s₀ (State.fabPromote s d t) := by
  unfold State.fabPromote
  with_reducible repeat' first | assumption | apply State.wr_keeps | apply State.inc_keeps | apply ite_keeps | split

theorem execFabPromote_keeps {s₀ : State} (d : Fin 8) (t : Fin 16) {s : State} (h : Keeps s₀ s) : KeepsOut s₀ (execFabPromote d t s) := by
  unfold execFabPromote
  with_reducible repeat' first | apply KeepsOut.next | assumption | apply State.wr_keeps | apply State.when_keeps | apply State.fabPromote_keeps | (intro _)

theorem State.remapWrite_keeps {s₀ : State} {s : State} (d : Nat) (v : Word) (h : Keeps s₀ s) : Keeps s₀ (State.remapWrite s d v) := by
  unfold State.remapWrite
  with_reducible repeat' first | assumption | apply State.wr_keeps | apply State.inc_keeps | apply ite_keeps | split

theorem execFabRemapWrite_keeps {s₀ : State} (d : Fin 8) (v : Word) {s : State} (h : Keeps s₀ s) : KeepsOut s₀ (execFabRemapWrite d v s) := by
  unfold execFabRemapWrite
  with_reducible repeat' first | apply KeepsOut.next | assumption | apply State.wr_keeps | apply State.when_keeps | apply State.remapWrite_keeps | (intro _)

theorem State.fabPut_keeps {s₀ : State} {s : State} (d : Nat) (a : Nat) (bs : List Byte) (h : Keeps s₀ s) : Keeps s₀ (State.fabPut s d a bs) := by
  unfold State.fabPut
  with_reducible repeat' first | assumption | apply State.wr_keeps | apply State.sramPut_keeps | apply State.hbmWrite_keeps | split | (refine Keeps.mk' ?_ rfl rfl; first | assumption | apply State.wr_keeps | apply State.sramPut_keeps | apply State.hbmWrite_keeps | split)

theorem State.fabFail_keeps {s₀ : State} {s : State} (d : Nat) (master : Nat) (write : Bool) (a : Nat) (h : Keeps s₀ s) : Keeps s₀ (State.fabFail s d master write a) := by
  unfold State.fabFail
  try extract_lets
  with_reducible repeat' first | assumption | apply State.wr_keeps | apply State.fabErr_keeps | apply State.inc_keeps | apply ite_keeps | split | (refine Keeps.mk' ?_ rfl rfl; first | assumption | apply State.wr_keeps | apply State.fabErr_keeps | apply State.inc_keeps | apply ite_keeps | split) | (dsimp +zetaDelta only)

theorem State.setCrcValue_keeps {s₀ : State} {s : State} (d : Nat) (k : Nat) (v : Nat) (h : Keeps s₀ s) : Keeps s₀ (State.setCrcValue s d k v) := by
  unfold State.setCrcValue
  try extract_lets
  with_reducible repeat' first | assumption | apply State.wr_keeps | (dsimp +zetaDelta only)

theorem State.crcDrop_keeps {s₀ : State} {s : State} (d : Nat) (k : Nat) (h : Keeps s₀ s) : Keeps s₀ (State.crcDrop s d k) := by
  unfold State.crcDrop
  with_reducible repeat' first | assumption | apply State.wr_keeps | apply State.inc_keeps

theorem State.crcTake_keeps {s₀ s : State} (d k : Nat) (f : State → State) (hf : ∀ u, Keeps s₀ u → Keeps s₀ (f u)) (h : Keeps s₀ s) :
    Keeps s₀ (s.crcTake d k f) := ite_keeps (State.crcDrop_keeps _ _ h) (hf _ h)

theorem State.crcData_keeps {s₀ : State} {s : State} (d : Nat) (k : Nat) (ok : Bool) (xs : List Nat) (h : Keeps s₀ s) : Keeps s₀ (State.crcData s d k ok xs) := by
  unfold State.crcData
  with_reducible repeat' first | assumption | apply State.wr_keeps | apply State.crcTake_keeps | apply State.setCrcValue_keeps | apply State.tick_keeps | apply foldl_keeps | (intro _) | apply ite_keeps | split

theorem State.crcData32_keeps {s₀ : State} {s : State} (d : Nat) (k : Nat) (v : Word) (h : Keeps s₀ s) : Keeps s₀ (State.crcData32 s d k v) := by
  unfold State.crcData32
  with_reducible repeat' first | assumption | apply State.wr_keeps | apply State.crcData_keeps | (intro _) | apply ite_keeps | split

theorem State.crcData16_keeps {s₀ : State} {s : State} (d : Nat) (k : Nat) (v : Word) (h : Keeps s₀ s) : Keeps s₀ (State.crcData16 s d k v) := by
  unfold State.crcData16
  with_reducible repeat' first | assumption | apply State.wr_keeps | apply State.crcData_keeps

theorem State.crcData8_keeps {s₀ : State} {s : State} (d : Nat) (k : Nat) (v : Word) (h : Keeps s₀ s) : Keeps s₀ (State.crcData8 s d k v) := by
  unfold State.crcData8
  with_reducible repeat' first | assumption | apply State.wr_keeps | apply State.crcData_keeps

theorem State.crcValueWrite_keeps {s₀ : State} {s : State} (d : Nat) (k : Nat) (v : Word) (h : Keeps s₀ s) : Keeps s₀ (State.crcValueWrite s d k v) := by
  unfold State.crcValueWrite
  with_reducible repeat' first | assumption | apply State.wr_keeps | apply State.crcTake_keeps | apply State.setCrcValue_keeps | (intro _)

theorem State.crcCfgWrite_keeps {s₀ : State} {s : State} (d : Nat) (k : Nat) (v : Word) (h : Keeps s₀ s) : Keeps s₀ (State.crcCfgWrite s d k v) := by
  unfold State.crcCfgWrite
  try extract_lets
  with_reducible repeat' first | assumption | apply State.wr_keeps | apply State.crcTake_keeps | (intro _) | (dsimp +zetaDelta only)

theorem State.crcPlainWrite_keeps {s₀ : State} {s : State} (d : Nat) (k : Nat) (a : Nat) (mask : Word) (v : Word) (h : Keeps s₀ s) : Keeps s₀ (State.crcPlainWrite s d k a mask v) := by
  unfold State.crcPlainWrite
  with_reducible repeat' first | assumption | apply State.wr_keeps | apply State.crcDrop_keeps | apply State.setReg_keeps | apply ite_keeps | split

theorem execCrcData32_keeps {s₀ : State} (d : Fin 8) (k : Fin 16) (v : Word) {s : State} (h : Keeps s₀ s) : KeepsOut s₀ (execCrcData32 d k v s) := by
  unfold execCrcData32
  with_reducible repeat' first | apply KeepsOut.next | assumption | apply State.wr_keeps | apply State.when_keeps | apply State.crcData32_keeps | (intro _)

theorem execCrcData16_keeps {s₀ : State} (d : Fin 8) (k : Fin 16) (v : Word) {s : State} (h : Keeps s₀ s) : KeepsOut s₀ (execCrcData16 d k v s) := by
  unfold execCrcData16
  with_reducible repeat' first | apply KeepsOut.next | assumption | apply State.wr_keeps | apply State.when_keeps | apply State.crcData16_keeps | (intro _)

theorem execCrcData8_keeps {s₀ : State} (d : Fin 8) (k : Fin 16) (v : Word) {s : State} (h : Keeps s₀ s) : KeepsOut s₀ (execCrcData8 d k v s) := by
  unfold execCrcData8
  with_reducible repeat' first | apply KeepsOut.next | assumption | apply State.wr_keeps | apply State.when_keeps | apply State.crcData8_keeps | (intro _)

theorem execCrcValueWrite_keeps {s₀ : State} (d : Fin 8) (k : Fin 16) (v : Word) {s : State} (h : Keeps s₀ s) : KeepsOut s₀ (execCrcValueWrite d k v s) := by
  unfold execCrcValueWrite
  with_reducible repeat' first | apply KeepsOut.next | assumption | apply State.wr_keeps | apply State.when_keeps | apply State.crcValueWrite_keeps | (intro _)

theorem State.crcClaim_keeps {s₀ : State} {s : State} (d : Nat) (k : Nat) (h : Keeps s₀ s) : Keeps s₀ (State.crcClaim s d k) := by
  unfold State.crcClaim
  with_reducible repeat' first | assumption | apply State.wr_keeps | (refine Keeps.mk' ?_ rfl rfl; first | assumption | apply State.wr_keeps)

theorem execCrcClaimRead_keeps {s₀ : State} (d : Fin 8) (k : Fin 16) {s : State} (h : Keeps s₀ s) : KeepsOut s₀ (execCrcClaimRead d k s) := by
  unfold execCrcClaimRead
  with_reducible repeat' first | apply KeepsOut.next | assumption | apply State.wr_keeps | apply State.when_keeps | apply State.crcClaim_keeps | (intro _)

theorem execCrcClaimRelease_keeps {s₀ : State} (d : Fin 8) (k : Fin 16) {s : State} (h : Keeps s₀ s) : KeepsOut s₀ (execCrcClaimRelease d k s) := by
  unfold execCrcClaimRelease
  with_reducible repeat' first | apply KeepsOut.next | assumption | apply State.wr_keeps | apply State.when_keeps | apply State.crcPlainWrite_keeps | (intro _)

end Sys2Proof.Machine
end

