-- ==== Sys2Proof/Laws/Keeps/Hbm.lean ====
section
/-!
SUPPORT. Sys2Proof/Laws/Keeps/Hbm.lean: what each operation of Machine/Hbm.lean keeps (Keeps of Safety.lean).
-/
namespace Sys2Proof.Machine
set_option linter.all false

theorem State.setHbm_keeps {s₀ : State} {s : State} (d : Nat) (x : HbmSt) (h : Keeps s₀ s) : Keeps s₀ (State.setHbm s d x) := by
  unfold State.setHbm
  with_reducible repeat' first | assumption | apply State.wr_keeps | (intro _) | (refine Keeps.mk' ?_ rfl rfl; first | assumption | apply State.wr_keeps)

theorem State.hbmRefuse_keeps {s₀ : State} {s : State} (d : Nat) (code : Nat) (a : Nat) (h : Keeps s₀ s) : Keeps s₀ (State.hbmRefuse s d code a) := by
  unfold State.hbmRefuse
  with_reducible repeat' first | assumption | apply State.wr_keeps | apply State.refuse_keeps

theorem State.serveCrown_keeps {s₀ : State} {s : State} (d : Nat) (h : Keeps s₀ s) : Keeps s₀ (State.serveCrown s d) := by
  unfold State.serveCrown
  with_reducible repeat' first | assumption | apply State.wr_keeps | apply State.modeUpdate_keeps | apply ite_keeps | split | (refine Keeps.mk' ?_ rfl rfl; first | assumption | apply State.wr_keeps | apply State.modeUpdate_keeps | apply ite_keeps | split)

theorem State.hbmFault_keeps {s₀ : State} {s : State} (d : Nat) (h : Keeps s₀ s) : Keeps s₀ (State.hbmFault s d) := by
  unfold State.hbmFault
  try extract_lets
  with_reducible repeat' first | assumption | apply State.wr_keeps | apply State.event_keeps | apply State.pairScan_keeps | apply State.modeUpdate_keeps | apply ite_keeps | split | (refine Keeps.mk' ?_ rfl rfl; first | assumption | apply State.wr_keeps | apply State.event_keeps | apply State.pairScan_keeps | apply State.modeUpdate_keeps | apply ite_keeps | split) | (dsimp +zetaDelta only)

theorem execHbmPhyLockLoss_keeps {s₀ : State} (d : Fin 8) {s : State} (h : Keeps s₀ s) : KeepsOut s₀ (execHbmPhyLockLoss d s) := by
  unfold execHbmPhyLockLoss
  with_reducible repeat' first | apply KeepsOut.next | assumption | apply State.wr_keeps | apply State.when_keeps | apply State.hbmFault_keeps | (intro _)

theorem State.showHot_keeps {s₀ : State} {s : State} (d : Nat) (h : Keeps s₀ s) : Keeps s₀ (State.showHot s d) := by
  unfold State.showHot
  with_reducible repeat' first | assumption | apply State.wr_keeps

theorem State.hbmCtlWrite_keeps {s₀ : State} {s : State} (d : Nat) (v : Word) (h : Keeps s₀ s) : Keeps s₀ (State.hbmCtlWrite s d v) := by
  unfold State.hbmCtlWrite
  try extract_lets
  with_reducible repeat' first | assumption | apply State.wr_keeps | apply State.hbmRefuse_keeps | apply State.setReg_keeps | apply State.setHbm_keeps | apply State.showHot_keeps | apply State.serveCrown_keeps | apply ite_keeps | split | (refine Keeps.mk' ?_ rfl rfl; first | assumption | apply State.wr_keeps | apply State.hbmRefuse_keeps | apply State.setReg_keeps | apply State.setHbm_keeps | apply State.showHot_keeps | apply State.serveCrown_keeps | apply ite_keeps | split) | (dsimp +zetaDelta only)

theorem execHbmEn_keeps {s₀ : State} (d : Fin 8) (en : Bool) {s : State} (h : Keeps s₀ s) : KeepsOut s₀ (execHbmEn d en s) := by
  unfold execHbmEn
  with_reducible repeat' first | apply KeepsOut.next | assumption | apply State.wr_keeps | apply State.when_keeps | apply State.hbmCtlWrite_keeps | (intro _)

theorem execHbmRefreshStart_keeps {s₀ : State} (d : Fin 8) {s : State} (h : Keeps s₀ s) : KeepsOut s₀ (execHbmRefreshStart d s) := by
  unfold execHbmRefreshStart
  with_reducible repeat' first | apply KeepsOut.next | assumption | apply State.wr_keeps | apply State.when_keeps | apply State.hbmCtlWrite_keeps | (intro _)

theorem execHbmMapLock_keeps {s₀ : State} (d : Fin 8) {s : State} (h : Keeps s₀ s) : KeepsOut s₀ (execHbmMapLock d s) := by
  unfold execHbmMapLock
  with_reducible repeat' first | apply KeepsOut.next | assumption | apply State.wr_keeps | apply State.when_keeps | apply State.hbmCtlWrite_keeps | (intro _)

theorem execHbmHotForce_keeps {s₀ : State} (d : Fin 8) (on : Bool) {s : State} (h : Keeps s₀ s) : KeepsOut s₀ (execHbmHotForce d on s) := by
  unfold execHbmHotForce
  with_reducible repeat' first | apply KeepsOut.next | assumption | apply State.wr_keeps | apply State.when_keeps | apply State.hbmCtlWrite_keeps | (intro _)

theorem State.activate_keeps {s₀ : State} {s : State} (d : Nat) (p : Place) (h : Keeps s₀ s) : Keeps s₀ (State.activate s d p) := by
  unfold State.activate
  try extract_lets
  with_reducible repeat' first | assumption | apply State.wr_keeps | apply State.setHbm_keeps | apply State.inc_keeps | apply ite_keeps | split | (dsimp +zetaDelta only)

theorem State.rowAccess_keeps {s₀ : State} {s : State} (d : Nat) (p : Place) (hit : Bool) (h : Keeps s₀ s) : Keeps s₀ (State.rowAccess s d p hit) := by
  unfold State.rowAccess
  try extract_lets
  with_reducible repeat' first | assumption | apply State.wr_keeps | apply State.activate_keeps | apply State.setHbm_keeps | apply ite_keeps | split | (refine Keeps.mk' ?_ rfl rfl; first | assumption | apply State.wr_keeps | apply State.activate_keeps | apply State.setHbm_keeps | apply ite_keeps | split) | (dsimp +zetaDelta only)

theorem State.refreshTick_keeps {s₀ : State} {s : State} (d : Nat) (h : Keeps s₀ s) : Keeps s₀ (State.refreshTick s d) := by
  unfold State.refreshTick
  try extract_lets
  with_reducible repeat' first | assumption | apply State.wr_keeps | apply State.setHbm_keeps | apply State.incWrap_keeps | apply State.add_keeps | apply State.showHot_keeps | apply foldl_keeps | (intro _) | (refine Keeps.mk' ?_ rfl rfl; first | assumption | apply State.wr_keeps | apply State.setHbm_keeps | apply State.incWrap_keeps | apply State.add_keeps | apply State.showHot_keeps | apply foldl_keeps) | (dsimp +zetaDelta only)

theorem execHbmRefreshTick_keeps {s₀ : State} (d : Fin 8) {s : State} (h : Keeps s₀ s) : KeepsOut s₀ (execHbmRefreshTick d s) := by
  unfold execHbmRefreshTick
  with_reducible repeat' first | apply KeepsOut.next | assumption | apply State.wr_keeps | apply State.when_keeps | apply State.refreshTick_keeps | (intro _)

theorem State.rhWindow_keeps {s₀ : State} {s : State} (d : Nat) (h : Keeps s₀ s) : Keeps s₀ (State.rhWindow s d) := by
  unfold State.rhWindow
  try extract_lets
  with_reducible repeat' first | assumption | apply State.wr_keeps | apply State.setHbm_keeps | (intro _) | (refine Keeps.mk' ?_ rfl rfl; first | assumption | apply State.wr_keeps | apply State.setHbm_keeps) | (dsimp +zetaDelta only)

theorem execHbmRhWindow_keeps {s₀ : State} (d : Fin 8) {s : State} (h : Keeps s₀ s) : KeepsOut s₀ (execHbmRhWindow d s) := by
  unfold execHbmRhWindow
  with_reducible repeat' first | apply KeepsOut.next | assumption | apply State.wr_keeps | apply State.when_keeps | apply State.rhWindow_keeps | (intro _)

theorem State.hbmTemp_keeps {s₀ : State} {s : State} (d : Nat) (t : Int) (h : Keeps s₀ s) : Keeps s₀ (State.hbmTemp s d t) := by
  unfold State.hbmTemp
  try extract_lets
  with_reducible repeat' first | assumption | apply State.wr_keeps | apply State.setHbm_keeps | apply State.wrS_keeps | apply ite_keeps | split | (refine Keeps.mk' ?_ rfl rfl; first | assumption | apply State.wr_keeps | apply State.setHbm_keeps | apply State.wrS_keeps | apply ite_keeps | split) | (dsimp +zetaDelta only)

theorem execHbmTempRead_keeps {s₀ : State} (d : Fin 8) (t : Fin 256) {s : State} (h : Keeps s₀ s) : KeepsOut s₀ (execHbmTempRead d t s) := by
  unfold execHbmTempRead
  with_reducible repeat' first | apply KeepsOut.next | assumption | apply State.wr_keeps | apply State.when_keeps | apply State.hbmTemp_keeps | (intro _)

theorem State.hbmNoTemp_keeps {s₀ : State} {s : State} (d : Nat) (h : Keeps s₀ s) : Keeps s₀ (State.hbmNoTemp s d) := by
  unfold State.hbmNoTemp
  with_reducible repeat' first | assumption | apply State.wr_keeps | apply State.setHbm_keeps | apply State.event_keeps | (refine Keeps.mk' ?_ rfl rfl; first | assumption | apply State.wr_keeps | apply State.setHbm_keeps | apply State.event_keeps)

theorem execHbmTempTimeout_keeps {s₀ : State} (d : Fin 8) {s : State} (h : Keeps s₀ s) : KeepsOut s₀ (execHbmTempTimeout d s) := by
  unfold execHbmTempTimeout
  with_reducible repeat' first | apply KeepsOut.next | assumption | apply State.wr_keeps | apply State.when_keeps | apply State.hbmNoTemp_keeps | (intro _)

theorem State.hbm1500Write_keeps {s₀ : State} {s : State} (d : Nat) (v : Word) (h : Keeps s₀ s) : Keeps s₀ (State.hbm1500Write s d v) := by
  unfold State.hbm1500Write
  try extract_lets
  with_reducible repeat' first | assumption | apply State.wr_keeps | apply State.setReg_keeps | apply ite_keeps | split | (dsimp +zetaDelta only)

theorem execHbm1500Go_keeps {s₀ : State} (d : Fin 8) (v : Word) {s : State} (h : Keeps s₀ s) : KeepsOut s₀ (execHbm1500Go d v s) := by
  unfold execHbm1500Go
  with_reducible repeat' first | apply KeepsOut.next | assumption | apply State.wr_keeps | apply State.when_keeps | apply State.hbm1500Write_keeps | (intro _)

theorem State.hbm1500End_keeps {s₀ : State} {s : State} (d : Nat) (data : List Word) (h : Keeps s₀ s) : Keeps s₀ (State.hbm1500End s d data) := by
  unfold State.hbm1500End
  try extract_lets
  with_reducible repeat' first | assumption | apply State.wr_keeps | apply State.setReg_keeps | apply foldl_keeps | (intro _) | apply ite_keeps | split | (dsimp +zetaDelta only)

theorem execHbm1500Done_keeps {s₀ : State} (d : Fin 8) (data : List Word) {s : State} (h : Keeps s₀ s) : KeepsOut s₀ (execHbm1500Done d data s) := by
  unfold execHbm1500Done
  with_reducible repeat' first | apply KeepsOut.next | assumption | apply State.wr_keeps | apply State.when_keeps | apply State.hbm1500End_keeps | (intro _)

theorem State.hbmEcc_keeps {s₀ : State} {s : State} (d : Nat) (p : Place) (sev : Nat) (h : Keeps s₀ s) : Keeps s₀ (State.hbmEcc s d p sev) := by
  unfold State.hbmEcc
  try extract_lets
  with_reducible repeat' first | assumption | apply State.wr_keeps | apply State.inc_keeps | apply State.setHbm_keeps | apply State.setReg_keeps | apply State.event_keeps | apply State.hbmFault_keeps | (intro _) | apply ite_keeps | split | (refine Keeps.mk' ?_ rfl rfl; first | assumption | apply State.wr_keeps | apply State.inc_keeps | apply State.setHbm_keeps | apply State.setReg_keeps | apply State.event_keeps | apply State.hbmFault_keeps | apply ite_keeps | split) | (dsimp +zetaDelta only)

theorem State.hbmReadDone_keeps {s₀ : State} {s : State} (d : Nat) (master : Nat) (off : Nat) (hit : Bool) (sev : Nat) (h : Keeps s₀ s) : Keeps s₀ (State.hbmReadDone s d master off hit sev) := by
  unfold State.hbmReadDone
  try extract_lets
  with_reducible repeat' first | assumption | apply State.wr_keeps | apply State.fabFail_keeps | apply State.rowAccess_keeps | apply State.hbmEcc_keeps | apply ite_keeps | split | (dsimp +zetaDelta only)

theorem execHbmReadDone_keeps {s₀ : State} (d : Fin 8) (master : Fin 16) (off : Nat) (hit : Bool) (sev : Fin 3) {s : State} (h : Keeps s₀ s) : KeepsOut s₀ (execHbmReadDone d master off hit sev s) := by
  unfold execHbmReadDone
  with_reducible repeat' first | apply KeepsOut.next | assumption | apply State.wr_keeps | apply State.when_keeps | apply State.hbmReadDone_keeps | (intro _)

theorem State.hdmAccess_keeps {s₀ s : State} (o : Nat) (w : Option (List Byte)) (h : Keeps s₀ s) : Keeps s₀ (s.hdmAccess o w) := by
  unfold State.hdmAccess
  refine elim_keeps _ (fun x => ite_keeps (State.fabFail_keeps _ _ _ _ h) ?_) h
  split
  · exact State.hbmPut_keeps _ _ _ h
  · exact State.send_keeps h

theorem execHdmWindowAccess_keeps {s₀ : State} (o : Nat) (w : Option (List Byte)) {s : State} (h : Keeps s₀ s) : KeepsOut s₀ (execHdmWindowAccess o w s) := by
  unfold execHdmWindowAccess
  with_reducible repeat' first | apply KeepsOut.next | assumption | apply State.wr_keeps | apply State.when_keeps | apply State.hdmAccess_keeps | (intro _)

theorem State.hbmMapWrite_keeps {s₀ : State} {s : State} (d : Nat) (k : Nat) (a : Nat) (v : Word) (h : Keeps s₀ s) : Keeps s₀ (State.hbmMapWrite s d k a v) := by
  unfold State.hbmMapWrite
  try extract_lets
  with_reducible repeat' first | assumption | apply State.wr_keeps | apply State.hbmRefuse_keeps | apply State.setReg_keeps | apply ite_keeps | split | (dsimp +zetaDelta only)

theorem State.hbmCfgWrite_keeps {s₀ : State} {s : State} (d : Nat) (v : Word) (h : Keeps s₀ s) : Keeps s₀ (State.hbmCfgWrite s d v) := by
  unfold State.hbmCfgWrite
  with_reducible repeat' first | assumption | apply State.wr_keeps | apply State.hbmRefuse_keeps | apply State.setReg_keeps | apply ite_keeps | split

theorem State.hbmTimingWrite_keeps {s₀ : State} {s : State} (d : Nat) (v : Word) (h : Keeps s₀ s) : Keeps s₀ (State.hbmTimingWrite s d v) := by
  unfold State.hbmTimingWrite
  try extract_lets
  with_reducible repeat' first | assumption | apply State.wr_keeps | apply State.hbmRefuse_keeps | apply State.setReg_keeps | apply ite_keeps | split | (dsimp +zetaDelta only)

theorem State.hbmRhWrite_keeps {s₀ : State} {s : State} (d : Nat) (v : Word) (h : Keeps s₀ s) : Keeps s₀ (State.hbmRhWrite s d v) := by
  unfold State.hbmRhWrite
  with_reducible repeat' first | assumption | apply State.wr_keeps | apply State.hbmRefuse_keeps | apply State.setReg_keeps | apply ite_keeps | split

theorem State.hbmDlyWrite_keeps {s₀ : State} {s : State} (d : Nat) (v : Word) (h : Keeps s₀ s) : Keeps s₀ (State.hbmDlyWrite s d v) := by
  unfold State.hbmDlyWrite
  with_reducible repeat' first | assumption | apply State.wr_keeps | apply State.hbmRefuse_keeps | apply State.setHbm_keeps | (intro _) | apply ite_keeps | split | (refine Keeps.mk' ?_ rfl rfl; first | assumption | apply State.wr_keeps | apply State.hbmRefuse_keeps | apply State.setHbm_keeps | apply ite_keeps | split)

theorem State.trainFill_keeps {s₀ s : State} (d : Nat) (v : Word) (h : Keeps s₀ s) : Keeps s₀ (s.trainFill d v) :=
  h.hbm _ fun x => foldl_wf (fun _ _ g => mapWf_set _ _ g) _ x

theorem State.showLanes_keeps {s₀ : State} {s : State} (d : Nat) (pc : Nat) (h : Keeps s₀ s) : Keeps s₀ (State.showLanes s d pc) := by
  unfold State.showLanes
  try extract_lets
  with_reducible repeat' first | assumption | apply State.wr_keeps | apply State.setReg_keeps | (intro _) | apply ite_keeps | split | (dsimp +zetaDelta only)

theorem State.hbmTrainWrite_keeps {s₀ : State} {s : State} (d : Nat) (v : Word) (h : Keeps s₀ s) : Keeps s₀ (State.hbmTrainWrite s d v) := by
  unfold State.hbmTrainWrite
  try extract_lets
  with_reducible repeat' first | assumption | apply State.wr_keeps | apply State.setHbm_keeps | apply State.hbmRefuse_keeps | apply State.setReg_keeps | apply State.trainFill_keeps | (intro _) | apply ite_keeps | split | (refine Keeps.mk' ?_ rfl rfl; first | assumption | apply State.wr_keeps | apply State.setHbm_keeps | apply State.hbmRefuse_keeps | apply State.setReg_keeps | apply State.trainFill_keeps | apply ite_keeps | split) | (dsimp +zetaDelta only)

theorem execHbmTrainWrite_keeps {s₀ : State} (d : Fin 8) (pc : Fin 32) (all : Bool) (pattern : Fin 8) (row : Fin 32768) (len : Fin 64) {s : State} (h : Keeps s₀ s) : KeepsOut s₀ (execHbmTrainWrite d pc all pattern row len s) := by
  unfold execHbmTrainWrite
  with_reducible repeat' first | apply KeepsOut.next | assumption | apply State.wr_keeps | apply State.when_keeps | apply State.hbmTrainWrite_keeps | (intro _)

theorem execHbmTrainRead_keeps {s₀ : State} (d : Fin 8) (pc : Fin 32) (all : Bool) (pattern : Fin 8) (row : Fin 32768) (len : Fin 64) {s : State} (h : Keeps s₀ s) : KeepsOut s₀ (execHbmTrainRead d pc all pattern row len s) := by
  unfold execHbmTrainRead
  with_reducible repeat' first | apply KeepsOut.next | assumption | apply State.wr_keeps | apply State.when_keeps | apply State.hbmTrainWrite_keeps | (intro _)

theorem execHbmTrainLoop_keeps {s₀ : State} (d : Fin 8) (pc : Fin 32) (all : Bool) (pattern : Fin 8) (row : Fin 32768) (len : Fin 64) {s : State} (h : Keeps s₀ s) : KeepsOut s₀ (execHbmTrainLoop d pc all pattern row len s) := by
  unfold execHbmTrainLoop
  with_reducible repeat' first | apply KeepsOut.next | assumption | apply State.wr_keeps | apply State.when_keeps | apply State.hbmTrainWrite_keeps | (intro _)

theorem execHbmTrainStop_keeps {s₀ : State} (d : Fin 8) {s : State} (h : Keeps s₀ s) : KeepsOut s₀ (execHbmTrainStop d s) := by
  unfold execHbmTrainStop
  with_reducible repeat' first | apply KeepsOut.next | assumption | apply State.wr_keeps | apply State.when_keeps | apply State.hbmTrainWrite_keeps | (intro _)

theorem State.trainDone_keeps {s₀ : State} {s : State} (d : Nat) (errs : List (Fin 32 × Fin 40)) (bits : Nat) (h : Keeps s₀ s) : Keeps s₀ (State.trainDone s d errs bits) := by
  unfold State.trainDone
  try extract_lets
  with_reducible repeat' first | assumption | apply State.wr_keeps | apply State.setHbm_keeps | apply State.setReg_keeps | apply State.showLanes_keeps | (intro _) | apply ite_keeps | split | (refine Keeps.mk' ?_ rfl rfl; first | assumption | apply State.wr_keeps | apply State.setHbm_keeps | apply State.setReg_keeps | apply State.showLanes_keeps | apply ite_keeps | split) | (dsimp +zetaDelta only)

theorem execHbmTrainDone_keeps {s₀ : State} (d : Fin 8) (errs : List (Fin 32 × Fin 40)) (bits : Nat) {s : State} (h : Keeps s₀ s) : KeepsOut s₀ (execHbmTrainDone d errs bits s) := by
  unfold execHbmTrainDone
  with_reducible repeat' first | apply KeepsOut.next | assumption | apply State.wr_keeps | apply State.when_keeps | apply State.trainDone_keeps | (intro _)

end Sys2Proof.Machine
end

