-- ==== Sys2Proof/Laws/Keeps/Lane.lean ====
section
/-!
SUPPORT. Sys2Proof/Laws/Keeps/Lane.lean: what each operation of Machine/Lane.lean keeps (Keeps of Safety.lean).
-/
namespace Sys2Proof.Machine
set_option linter.all false

theorem State.setLane_keeps {s₀ : State} {s : State} (n : Nat) (x : LaneSt) (h : Keeps s₀ s) : Keeps s₀ (State.setLane s n x) := by
  unfold State.setLane
  with_reducible repeat' first | assumption | apply State.wr_keeps | (intro _) | (refine Keeps.mk' ?_ rfl rfl; first | assumption | apply State.wr_keeps)

theorem State.laneRefuse_keeps {s₀ : State} {s : State} (n : Nat) (code : Nat) (a : Nat) (h : Keeps s₀ s) : Keeps s₀ (State.laneRefuse s n code a) := by
  unfold State.laneRefuse
  with_reducible repeat' first | assumption | apply State.wr_keeps | apply State.refuse_keeps

theorem State.showPort_keeps {s₀ : State} {s : State} (m : Nat) (h : Keeps s₀ s) : Keeps s₀ (State.showPort s m) := by
  unfold State.showPort
  try extract_lets
  with_reducible repeat' first | assumption | apply State.wr_keeps | apply State.portPick_keeps | apply ite_keeps | split | (dsimp +zetaDelta only)

theorem State.showTwin_keeps {s₀ : State} {s : State} (h : Keeps s₀ s) : Keeps s₀ (State.showTwin s) := by
  unfold State.showTwin
  try extract_lets
  with_reducible repeat' first | assumption | apply State.wr_keeps | apply State.sendCaps_keeps | (intro _) | apply ite_keeps | split | (dsimp +zetaDelta only)

theorem State.showQuad_keeps {s₀ : State} {s : State} (q : Nat) (h : Keeps s₀ s) : Keeps s₀ (State.showQuad s q) := by
  unfold State.showQuad
  try extract_lets
  with_reducible repeat' first | assumption | apply State.wr_keeps | apply State.setReg_keeps | apply foldl_keeps | (intro _) | apply ite_keeps | split | (dsimp +zetaDelta only)

theorem State.showLane_keeps {s₀ : State} {s : State} (n : Nat) (h : Keeps s₀ s) : Keeps s₀ (State.showLane s n) := by
  unfold State.showLane
  try extract_lets
  with_reducible repeat' first | assumption | apply State.wr_keeps | apply State.showQuad_keeps | apply State.showTwin_keeps | apply State.showPort_keeps | apply ite_keeps | split | (refine Keeps.mk' ?_ rfl rfl; first | assumption | apply State.wr_keeps | apply State.showQuad_keeps | apply State.showTwin_keeps | apply State.showPort_keeps | apply ite_keeps | split) | (dsimp +zetaDelta only)

theorem State.setStage_keeps {s₀ : State} {s : State} (n : Nat) (st : Nat) (cdr : Bool) (h : Keeps s₀ s) : Keeps s₀ (State.setStage s n st cdr) := by
  unfold State.setStage
  with_reducible repeat' first | assumption | apply State.wr_keeps | apply State.showLane_keeps

theorem State.toDetect_keeps {s₀ : State} {s : State} (n : Nat) (h : Keeps s₀ s) : Keeps s₀ (State.toDetect s n) := by
  unfold State.toDetect
  try extract_lets
  with_reducible repeat' first | assumption | apply State.wr_keeps | apply State.setLane_keeps | apply State.setStage_keeps | (refine Keeps.mk' ?_ rfl rfl; first | assumption | apply State.wr_keeps | apply State.setLane_keeps | apply State.setStage_keeps) | (dsimp +zetaDelta only)

theorem State.toActive_keeps {s₀ : State} {s : State} (n : Nat) (h : Keeps s₀ s) : Keeps s₀ (State.toActive s n) := by
  unfold State.toActive
  with_reducible repeat' first | assumption | apply State.wr_keeps | apply State.setLane_keeps | apply State.setStage_keeps | (refine Keeps.mk' ?_ rfl rfl; first | assumption | apply State.wr_keeps | apply State.setLane_keeps | apply State.setStage_keeps)

theorem State.detected_keeps {s₀ : State} {s : State} (n : Nat) (h : Keeps s₀ s) : Keeps s₀ (State.detected s n) := by
  unfold State.detected
  with_reducible repeat' first | assumption | apply State.wr_keeps | apply State.setStage_keeps | apply ite_keeps | split

theorem State.probe_keeps {s₀ : State} {s : State} (n : Nat) (present : Bool) (h : Keeps s₀ s) : Keeps s₀ (State.probe s n present) := by
  unfold State.probe
  try extract_lets
  with_reducible repeat' first | assumption | apply State.wr_keeps | apply State.detected_keeps | apply ite_keeps | split | (dsimp +zetaDelta only)

theorem execLaneDetectProbe_keeps {s₀ : State} (n : Fin 100) (present : Bool) {s : State} (h : Keeps s₀ s) : KeepsOut s₀ (execLaneDetectProbe n present s) := by
  unfold execLaneDetectProbe
  with_reducible repeat' first | apply KeepsOut.next | assumption | apply State.wr_keeps | apply State.when_keeps | apply State.probe_keeps | (intro _)

theorem State.stageDone_keeps {s₀ : State} {s : State} (n : Nat) (eq : Word) (same : Bool) (unit : Nat) (h : Keeps s₀ s) : Keeps s₀ (State.stageDone s n eq same unit) := by
  unfold State.stageDone
  try extract_lets
  with_reducible repeat' first | assumption | apply State.wr_keeps | apply State.detected_keeps | apply State.setReg_keeps | apply State.setStage_keeps | apply State.toActive_keeps | apply State.setLane_keeps | apply ite_keeps | split | (refine Keeps.mk' ?_ rfl rfl; first | assumption | apply State.wr_keeps | apply State.detected_keeps | apply State.setReg_keeps | apply State.setStage_keeps | apply State.toActive_keeps | apply State.setLane_keeps | apply ite_keeps | split) | (dsimp +zetaDelta only)

theorem execLaneStageDone_keeps {s₀ : State} (n : Fin 100) (eq : Word) (same : Bool) (unit : Nat) {s : State} (h : Keeps s₀ s) : KeepsOut s₀ (execLaneStageDone n eq same unit s) := by
  unfold execLaneStageDone
  with_reducible repeat' first | apply KeepsOut.next | assumption | apply State.wr_keeps | apply State.stageDone_keeps

theorem State.stageTimeout_keeps {s₀ : State} {s : State} (n : Nat) (h : Keeps s₀ s) : Keeps s₀ (State.stageTimeout s n) := by
  unfold State.stageTimeout
  try extract_lets
  with_reducible repeat' first | assumption | apply State.wr_keeps | apply State.setLane_keeps | apply State.inc_keeps | apply State.event_keeps | apply State.toDetect_keeps | apply ite_keeps | split | (refine Keeps.mk' ?_ rfl rfl; first | assumption | apply State.wr_keeps | apply State.setLane_keeps | apply State.inc_keeps | apply State.event_keeps | apply State.toDetect_keeps | apply ite_keeps | split) | (dsimp +zetaDelta only)

theorem execLaneStageTimeout_keeps {s₀ : State} (n : Fin 100) {s : State} (h : Keeps s₀ s) : KeepsOut s₀ (execLaneStageTimeout n s) := by
  unfold execLaneStageTimeout
  with_reducible repeat' first | apply KeepsOut.next | assumption | apply State.wr_keeps | apply State.when_keeps | apply State.stageTimeout_keeps | (intro _)

theorem State.lockLost_keeps {s₀ : State} {s : State} (n : Nat) (h : Keeps s₀ s) : Keeps s₀ (State.lockLost s n) := by
  unfold State.lockLost
  with_reducible repeat' first | assumption | apply State.wr_keeps | apply State.inc_keeps | apply State.setStage_keeps

theorem execLaneLockLost_keeps {s₀ : State} (n : Fin 100) {s : State} (h : Keeps s₀ s) : KeepsOut s₀ (execLaneLockLost n s) := by
  unfold execLaneLockLost
  with_reducible repeat' first | apply KeepsOut.next | assumption | apply State.wr_keeps | apply State.when_keeps | apply State.lockLost_keeps | (intro _)

theorem State.injectNow_keeps {s₀ : State} {s : State} (n : Nat) (h : Keeps s₀ s) : Keeps s₀ (State.injectNow s n) := by
  unfold State.injectNow
  with_reducible repeat' first | assumption | apply State.wr_keeps | apply State.send_keeps | apply ite_keeps | split

theorem State.injectCycle_keeps {s₀ : State} {s : State} (n : Nat) (h : Keeps s₀ s) : Keeps s₀ (State.injectCycle s n) := by
  unfold State.injectCycle
  try extract_lets
  with_reducible repeat' first | assumption | apply State.wr_keeps | apply State.setLane_keeps | apply State.forRange_keeps | apply State.send_keeps | (intro _) | apply ite_keeps | split | (refine Keeps.mk' ?_ rfl rfl; first | assumption | apply State.wr_keeps | apply State.setLane_keeps | apply State.forRange_keeps | apply State.send_keeps | apply ite_keeps | split) | (dsimp +zetaDelta only)

theorem State.laneInjWrite_keeps {s₀ : State} {s : State} (n : Nat) (v : Word) (h : Keeps s₀ s) : Keeps s₀ (State.laneInjWrite s n v) := by
  unfold State.laneInjWrite
  with_reducible repeat' first | assumption | apply State.wr_keeps | apply State.laneRefuse_keeps | apply State.setReg_keeps | apply State.setLane_keeps | apply State.injectNow_keeps | apply ite_keeps | split | (refine Keeps.mk' ?_ rfl rfl; first | assumption | apply State.wr_keeps | apply State.laneRefuse_keeps | apply State.setReg_keeps | apply State.setLane_keeps | apply State.injectNow_keeps | apply ite_keeps | split)

theorem State.chkCount_keeps {s₀ : State} {s : State} (n : Nat) (bits : Nat) (errs : Nat) (h : Keeps s₀ s) : Keeps s₀ (State.chkCount s n bits errs) := by
  unfold State.chkCount
  with_reducible repeat' first | assumption | apply State.wr_keeps | apply State.setLane_keeps | apply ite_keeps | split | (refine Keeps.mk' ?_ rfl rfl; first | assumption | apply State.wr_keeps | apply State.setLane_keeps | apply ite_keeps | split)

theorem State.snap_keeps {s₀ : State} {s : State} (n : Nat) (h : Keeps s₀ s) : Keeps s₀ (State.snap s n) := by
  unfold State.snap
  try extract_lets
  with_reducible repeat' first | assumption | apply State.wr_keeps | (dsimp +zetaDelta only)

theorem State.dormantAct_keeps {s₀ : State} {s : State} (n : Nat) (set : Bool) (was : Bool) (h : Keeps s₀ s) : Keeps s₀ (State.dormantAct s n set was) := by
  unfold State.dormantAct
  with_reducible repeat' first | assumption | apply State.wr_keeps | apply State.setStage_keeps | apply State.showLane_keeps | apply ite_keeps | split

theorem State.testAct_keeps {s₀ : State} {s : State} (n : Nat) (set : Bool) (was : Bool) (h : Keeps s₀ s) : Keeps s₀ (State.testAct s n set was) := by
  unfold State.testAct
  with_reducible repeat' first | assumption | apply State.wr_keeps | apply State.setStage_keeps | apply State.injectNow_keeps | apply State.toDetect_keeps | apply ite_keeps | split

theorem State.laneCtlWrite_keeps {s₀ : State} {s : State} (n : Nat) (v : Word) (h : Keeps s₀ s) : Keeps s₀ (State.laneCtlWrite s n v) := by
  unfold State.laneCtlWrite
  try extract_lets
  with_reducible repeat' first | assumption | apply State.wr_keeps | apply State.laneRefuse_keeps | apply State.setReg_keeps | apply State.testAct_keeps | apply State.dormantAct_keeps | apply State.inc_keeps | apply State.toDetect_keeps | apply State.snap_keeps | apply ite_keeps | split | (dsimp +zetaDelta only)

theorem execLaneDormantSet_keeps {s₀ : State} (n : Fin 100) {s : State} (h : Keeps s₀ s) : KeepsOut s₀ (execLaneDormantSet n s) := by
  unfold execLaneDormantSet
  with_reducible repeat' first | apply KeepsOut.next | assumption | apply State.wr_keeps | apply State.laneCtlWrite_keeps

theorem execLaneDormantClear_keeps {s₀ : State} (n : Fin 100) {s : State} (h : Keeps s₀ s) : KeepsOut s₀ (execLaneDormantClear n s) := by
  unfold execLaneDormantClear
  with_reducible repeat' first | apply KeepsOut.next | assumption | apply State.wr_keeps | apply State.laneCtlWrite_keeps

theorem execLaneRestart_keeps {s₀ : State} (n : Fin 100) {s : State} (h : Keeps s₀ s) : KeepsOut s₀ (execLaneRestart n s) := by
  unfold execLaneRestart
  with_reducible repeat' first | apply KeepsOut.next | assumption | apply State.wr_keeps | apply State.laneCtlWrite_keeps

theorem execLaneTestSet_keeps {s₀ : State} (n : Fin 100) {s : State} (h : Keeps s₀ s) : KeepsOut s₀ (execLaneTestSet n s) := by
  unfold execLaneTestSet
  with_reducible repeat' first | apply KeepsOut.next | assumption | apply State.wr_keeps | apply State.laneCtlWrite_keeps

theorem execLaneTestClear_keeps {s₀ : State} (n : Fin 100) {s : State} (h : Keeps s₀ s) : KeepsOut s₀ (execLaneTestClear n s) := by
  unfold execLaneTestClear
  with_reducible repeat' first | apply KeepsOut.next | assumption | apply State.wr_keeps | apply State.laneCtlWrite_keeps

theorem execLaneSnap_keeps {s₀ : State} (n : Fin 100) (bits : Nat) (errs : Nat) {s : State} (h : Keeps s₀ s) : KeepsOut s₀ (execLaneSnap n bits errs s) := by
  unfold execLaneSnap
  with_reducible repeat' first | apply KeepsOut.next | assumption | apply State.wr_keeps | apply State.chkCount_keeps | apply State.laneCtlWrite_keeps

theorem State.exitDone_keeps {s₀ : State} {s : State} (n : Nat) (h : Keeps s₀ s) : Keeps s₀ (State.exitDone s n) := by
  unfold State.exitDone
  with_reducible repeat' first | assumption | apply State.wr_keeps | apply State.toDetect_keeps

theorem execLaneDormantExitDone_keeps {s₀ : State} (n : Fin 100) {s : State} (h : Keeps s₀ s) : KeepsOut s₀ (execLaneDormantExitDone n s) := by
  unfold execLaneDormantExitDone
  with_reducible repeat' first | apply KeepsOut.next | assumption | apply State.wr_keeps | apply State.when_keeps | apply State.exitDone_keeps | (intro _)

theorem State.lanePatWrite_keeps {s₀ : State} {s : State} (n : Nat) (v : Word) (h : Keeps s₀ s) : Keeps s₀ (State.lanePatWrite s n v) := by
  unfold State.lanePatWrite
  try extract_lets
  with_reducible repeat' first | assumption | apply State.wr_keeps | apply State.laneRefuse_keeps | apply State.setReg_keeps | apply State.setLane_keeps | apply State.injectNow_keeps | apply ite_keeps | split | (refine Keeps.mk' ?_ rfl rfl; first | assumption | apply State.wr_keeps | apply State.laneRefuse_keeps | apply State.setReg_keeps | apply State.setLane_keeps | apply State.injectNow_keeps | apply ite_keeps | split) | (dsimp +zetaDelta only)

theorem State.laneTmoWrite_keeps {s₀ : State} {s : State} (n : Nat) (v : Word) (h : Keeps s₀ s) : Keeps s₀ (State.laneTmoWrite s n v) := by
  unfold State.laneTmoWrite
  with_reducible repeat' first | assumption | apply State.wr_keeps | apply State.laneRefuse_keeps | apply State.setReg_keeps | apply ite_keeps | split

theorem State.uciPatWrite_keeps {s₀ : State} {s : State} (k : Nat) (v : Word) (h : Keeps s₀ s) : Keeps s₀ (State.uciPatWrite s k v) := by
  unfold State.uciPatWrite
  try extract_lets
  with_reducible repeat' first | assumption | apply State.wr_keeps | apply State.refuse_keeps | apply State.setReg_keeps | apply State.setLane_keeps | apply State.injectNow_keeps | (intro _) | apply ite_keeps | split | (refine Keeps.mk' ?_ rfl rfl; first | assumption | apply State.wr_keeps | apply State.refuse_keeps | apply State.setReg_keeps | apply State.setLane_keeps | apply State.injectNow_keeps | apply ite_keeps | split) | (dsimp +zetaDelta only)

theorem execLaneInject_keeps {s₀ : State} (n : Fin 108) (v : Word) {s : State} (h : Keeps s₀ s) : KeepsOut s₀ (execLaneInject n v s) := by
  unfold execLaneInject
  with_reducible repeat' first | apply KeepsOut.next | assumption | apply State.wr_keeps | apply State.laneInjWrite_keeps | apply State.when_keeps | apply State.uciPatWrite_keeps | (intro _) | apply ite_keeps | split

theorem State.chkLock_keeps {s₀ : State} {s : State} (n : Nat) (h : Keeps s₀ s) : Keeps s₀ (State.chkLock s n) := by
  unfold State.chkLock
  try extract_lets
  with_reducible repeat' first | assumption | apply State.wr_keeps | apply State.inc_keeps | apply State.setLane_keeps | apply ite_keeps | split | (refine Keeps.mk' ?_ rfl rfl; first | assumption | apply State.wr_keeps | apply State.inc_keeps | apply State.setLane_keeps | apply ite_keeps | split) | (dsimp +zetaDelta only)

theorem execCheckerLock_keeps {s₀ : State} (n : Fin 108) {s : State} (h : Keeps s₀ s) : KeepsOut s₀ (execCheckerLock n s) := by
  unfold execCheckerLock
  with_reducible repeat' first | apply KeepsOut.next | assumption | apply State.wr_keeps | apply State.when_keeps | apply State.chkLock_keeps | (intro _)

theorem State.uciCount_keeps {s₀ : State} {s : State} (k : Nat) (errs : List (Nat × Nat)) (h : Keeps s₀ s) : Keeps s₀ (State.uciCount s k errs) := by
  unfold State.uciCount
  try extract_lets
  with_reducible repeat' first | assumption | apply State.wr_keeps | apply State.setLane_keeps | apply State.setReg_keeps | apply foldl_keeps | (intro _) | apply ite_keeps | split | (refine Keeps.mk' ?_ rfl rfl; first | assumption | apply State.wr_keeps | apply State.setLane_keeps | apply State.setReg_keeps | apply foldl_keeps | apply ite_keeps | split) | (dsimp +zetaDelta only)

theorem State.chkLost_keeps {s₀ : State} {s : State} (n : Nat) (bits : Nat) (errs : List (Nat × Nat)) (h : Keeps s₀ s) : Keeps s₀ (State.chkLost s n bits errs) := by
  unfold State.chkLost
  try extract_lets
  with_reducible repeat' first | assumption | apply State.wr_keeps | apply State.chkCount_keeps | apply State.setLane_keeps | apply State.uciCount_keeps | apply ite_keeps | split | (refine Keeps.mk' ?_ rfl rfl; first | assumption | apply State.wr_keeps | apply State.chkCount_keeps | apply State.setLane_keeps | apply State.uciCount_keeps | apply ite_keeps | split) | (dsimp +zetaDelta only)

theorem execCheckerLockLost_keeps {s₀ : State} (n : Fin 108) (bits : Nat) (errs : List (Fin 64 × Nat)) {s : State} (h : Keeps s₀ s) : KeepsOut s₀ (execCheckerLockLost n bits errs s) := by
  unfold execCheckerLockLost
  with_reducible repeat' first | apply KeepsOut.next | assumption | apply State.wr_keeps | apply State.when_keeps | apply State.chkLost_keeps | (intro _)

theorem State.uciTrained_keeps {s₀ : State} {s : State} (k : Nat) (slow : Bool) (repaired : Nat) (h : Keeps s₀ s) : Keeps s₀ (State.uciTrained s k slow repaired) := by
  unfold State.uciTrained
  with_reducible repeat' first | assumption | apply State.wr_keeps

theorem State.linkDown_keeps {s₀ : State} {s : State} (k : Nat) (h : Keeps s₀ s) : Keeps s₀ (State.linkDown s k) := by
  unfold State.linkDown
  try extract_lets
  with_reducible repeat' first | assumption | apply State.wr_keeps | apply State.setLane_keeps | apply State.inc_keeps | apply State.event_keeps | (refine Keeps.mk' ?_ rfl rfl; first | assumption | apply State.wr_keeps | apply State.setLane_keeps | apply State.inc_keeps | apply State.event_keeps) | (dsimp +zetaDelta only)

theorem execUcieLinkDown_keeps {s₀ : State} (k : Fin 8) {s : State} (h : Keeps s₀ s) : KeepsOut s₀ (execUcieLinkDown k s) := by
  unfold execUcieLinkDown
  with_reducible repeat' first | apply KeepsOut.next | assumption | apply State.wr_keeps | apply State.when_keeps | apply State.linkDown_keeps | (intro _)

theorem State.retrainDone_keeps {s₀ : State} {s : State} (k : Nat) (ok : Bool) (slow : Bool) (repaired : Nat) (h : Keeps s₀ s) : Keeps s₀ (State.retrainDone s k ok slow repaired) := by
  unfold State.retrainDone
  try extract_lets
  with_reducible repeat' first | assumption | apply State.wr_keeps | apply State.setLane_keeps | apply State.uciTrained_keeps | apply State.event_keeps | apply State.crownLost_keeps | apply State.pairScan_keeps | apply State.modeUpdate_keeps | apply ite_keeps | split | (refine Keeps.mk' ?_ rfl rfl; first | assumption | apply State.wr_keeps | apply State.setLane_keeps | apply State.uciTrained_keeps | apply State.event_keeps | apply State.crownLost_keeps | apply State.pairScan_keeps | apply State.modeUpdate_keeps | apply ite_keeps | split) | (dsimp +zetaDelta only)

theorem execUcieRetrainDone_keeps {s₀ : State} (k : Fin 8) (ok : Bool) (slow : Bool) (repaired : Fin 64) {s : State} (h : Keeps s₀ s) : KeepsOut s₀ (execUcieRetrainDone k ok slow repaired s) := by
  unfold execUcieRetrainDone
  with_reducible repeat' first | apply KeepsOut.next | assumption | apply State.wr_keeps | apply State.when_keeps | apply State.retrainDone_keeps | (intro _)

theorem State.trainedUci_keeps {s₀ : State} {s : State} (k : Nat) (ok : Bool) (slow : Bool) (repaired : Nat) (h : Keeps s₀ s) : Keeps s₀ (State.trainedUci s k ok slow repaired) := by
  unfold State.trainedUci
  try extract_lets
  with_reducible repeat' first | assumption | apply State.wr_keeps | apply State.uciTrained_keeps | apply State.serveCrown_keeps | apply State.modeUpdate_keeps | apply State.outOfService_keeps | apply State.event_keeps | apply State.pairScan_keeps | apply ite_keeps | split | (refine Keeps.mk' ?_ rfl rfl; first | assumption | apply State.wr_keeps | apply State.uciTrained_keeps | apply State.serveCrown_keeps | apply State.modeUpdate_keeps | apply State.outOfService_keeps | apply State.event_keeps | apply State.pairScan_keeps | apply ite_keeps | split) | (dsimp +zetaDelta only)

theorem execUcieTrainDone_keeps {s₀ : State} (k : Fin 8) (ok : Bool) (slow : Bool) (repaired : Fin 64) {s : State} (h : Keeps s₀ s) : KeepsOut s₀ (execUcieTrainDone k ok slow repaired s) := by
  unfold execUcieTrainDone
  with_reducible repeat' first | apply KeepsOut.next | assumption | apply State.wr_keeps | apply State.when_keeps | apply State.trainedUci_keeps | (intro _)

theorem execUcieFlitCrcFail_keeps {s₀ : State} (k : Fin 8) {s : State} (h : Keeps s₀ s) : KeepsOut s₀ (execUcieFlitCrcFail k s) := by
  unfold execUcieFlitCrcFail
  with_reducible repeat' first | apply KeepsOut.next | assumption | apply State.wr_keeps | apply State.when_keeps | (intro _) | apply ite_keeps | split

theorem State.laneCommit_keeps {s₀ : State} (o : State) {s : State} (n : Nat) (h : Keeps s₀ s) : Keeps s₀ (State.laneCommit o s n) := by
  unfold State.laneCommit
  with_reducible repeat' first | assumption | apply State.wr_keeps | apply State.toDetect_keeps | apply State.setStage_keeps | split | (refine Keeps.mk' ?_ rfl rfl; first | assumption | apply State.wr_keeps | apply State.toDetect_keeps | apply State.setStage_keeps | split)

theorem State.lanesCommit_keeps {s₀ : State} (o : State) {s : State} (h : Keeps s₀ s) : Keeps s₀ (State.lanesCommit o s) := by
  unfold State.lanesCommit
  try extract_lets
  with_reducible repeat' first | assumption | apply State.wr_keeps | apply State.forRange_keeps | apply State.laneCommit_keeps | apply State.showQuad_keeps | apply State.showPort_keeps | apply State.showTwin_keeps | (intro _) | (dsimp +zetaDelta only)

end Sys2Proof.Machine
end

