-- ==== Sys2Proof/Laws/Keeps/Late.lean ====
section
/-!
SUPPORT. Sys2Proof/Laws/Keeps/Late.lean: what each operation of Machine/Late.lean keeps (Keeps of Safety.lean).
-/
namespace Sys2Proof.Machine
set_option linter.all false

theorem State.slotStreams_keeps {s₀ : State} {s : State} (d : Nat) (k : Nat) (frame : Nat) (field : Nat) (h : Keeps s₀ s) : Keeps s₀ (State.slotStreams s d k frame field) := by
  unfold State.slotStreams
  try extract_lets
  with_reducible repeat' first | assumption | apply State.wr_keeps | apply State.asKept_keeps | apply State.slotsStart_keeps | apply State.forRange_keeps | apply State.sendTemplate_keeps | apply State.sendCursor_keeps | (intro _) | apply ite_keeps | split | (refine Keeps.mk' ?_ rfl rfl; first | assumption | apply State.wr_keeps | apply State.asKept_keeps | apply State.slotsStart_keeps | apply State.forRange_keeps | apply State.sendTemplate_keeps | apply State.sendCursor_keeps | apply ite_keeps | split) | (dsimp +zetaDelta only)

theorem State.slotLatches_keeps {s₀ : State} {s : State} (c : Nat) (d : Nat) (k : Nat) (h : Keeps s₀ s) : Keeps s₀ (State.slotLatches s c d k) := by
  unfold State.slotLatches
  with_reducible repeat' first | assumption | apply State.wr_keeps | apply State.cmpFrameStart_keeps | apply State.forRange_keeps | apply State.repin_keeps | (intro _) | apply ite_keeps | split

theorem State.slotEnds_keeps {s₀ : State} {s : State} (c : Nat) (d : Nat) (k : Nat) (h : Keeps s₀ s) : Keeps s₀ (State.slotEnds s c d k) := by
  unfold State.slotEnds
  with_reducible repeat' first | assumption | apply State.wr_keeps | apply State.slotPast_keeps | apply ite_keeps | split

theorem State.frameStarts_keeps {s₀ : State} {s : State} (c : Nat) (n : Nat) (h : Keeps s₀ s) : Keeps s₀ (State.frameStarts s c n) := by
  unfold State.frameStarts
  try extract_lets
  with_reducible repeat' first | assumption | apply State.wr_keeps | apply State.slotEnds_keeps | apply State.ingFrameStart_keeps | apply State.setIngCh_keeps | apply State.slotRelease_keeps | apply State.slotLatches_keeps | apply State.slotStreams_keeps | apply foldl_keeps | (intro _) | apply ite_keeps | split | (refine Keeps.mk' ?_ rfl rfl; first | assumption | apply State.wr_keeps | apply State.slotEnds_keeps | apply State.ingFrameStart_keeps | apply State.setIngCh_keeps | apply State.slotRelease_keeps | apply State.slotLatches_keeps | apply State.slotStreams_keeps | apply foldl_keeps | apply ite_keeps | split) | (dsimp +zetaDelta only)

theorem execChannelFrameStart_keeps {s₀ : State} (c : Fin 96) {s : State} (h : Keeps s₀ s) : KeepsOut s₀ (execChannelFrameStart c s) := by
  unfold execChannelFrameStart
  with_reducible repeat' first | apply KeepsOut.next | assumption | apply State.wr_keeps | apply State.frameStarts_keeps | split | (refine Keeps.mk' ?_ rfl rfl; first | assumption | apply State.wr_keeps | apply State.frameStarts_keeps | split)

theorem State.lineCompletes_keeps {s₀ : State} {s : State} (c : Nat) (h : Keeps s₀ s) : Keeps s₀ (State.lineCompletes s c) := by
  unfold State.lineCompletes
  try extract_lets
  with_reducible repeat' first | assumption | apply State.wr_keeps | apply State.ingLine_keeps | apply State.slotStreams_keeps | apply foldl_keeps | (intro _) | apply ite_keeps | split | (dsimp +zetaDelta only)

theorem execLineComplete_keeps {s₀ : State} (c : Fin 96) {s : State} (h : Keeps s₀ s) : KeepsOut s₀ (execLineComplete c s) := by
  unfold execLineComplete
  with_reducible repeat' first | apply KeepsOut.next | assumption | apply State.wr_keeps | apply State.when_keeps | apply State.lineCompletes_keeps | (intro _)

theorem State.graftHanded_keeps {s₀ : State} {s : State} (d : Nat) (i : Nat) (h : Keeps s₀ s) : Keeps s₀ (State.graftHanded s d i) := by
  unfold State.graftHanded
  with_reducible repeat' first | assumption | apply State.wr_keeps | apply State.grafted_keeps | apply foldl_keeps | (intro _)

theorem State.rowHandover_keeps {s₀ : State} {s : State} (d : Nat) (i : Nat) (h : Keeps s₀ s) : Keeps s₀ (State.rowHandover s d i) := by
  unfold State.rowHandover
  try extract_lets
  with_reducible repeat' first | assumption | apply State.wr_keeps | apply State.handRow_keeps | apply State.graftHanded_keeps | apply State.pairMiss_keeps | apply State.sendFlowFrame_keeps | apply State.sendCursor_keeps | apply ite_keeps | split | (refine Keeps.mk' ?_ rfl rfl; first | assumption | apply State.wr_keeps | apply State.handRow_keeps | apply State.graftHanded_keeps | apply State.pairMiss_keeps | apply State.sendFlowFrame_keeps | apply State.sendCursor_keeps | apply ite_keeps | split) | (dsimp +zetaDelta only)

theorem execRowHandover_keeps {s₀ : State} (d : Fin 8) (i : Fin 128) {s : State} (h : Keeps s₀ s) : KeepsOut s₀ (execRowHandover d i s) := by
  unfold execRowHandover
  with_reducible repeat' first | apply KeepsOut.next | assumption | apply State.wr_keeps | apply State.asKept_keeps | apply State.when_keeps | apply State.rowHandover_keeps | (intro _)

end Sys2Proof.Machine
end

