-- ==== Sys2Proof/Laws/Keeps/LineTime.lean ====
section
/-!
SUPPORT. Sys2Proof/Laws/Keeps/LineTime.lean: what each operation of Machine/LineTime.lean keeps (Keeps of Safety.lean).
-/
namespace Sys2Proof.Machine
set_option linter.all false

theorem State.tlStop_keeps {s₀ : State} {s : State} (n : Nat) (h : Keeps s₀ s) : Keeps s₀ (State.tlStop s n) := by
  unfold State.tlStop
  try extract_lets
  with_reducible repeat' first | assumption | apply State.wr_keeps | apply State.setTl_keeps | apply State.showErr_keeps | apply State.setTlState_keeps | apply State.endTimelineWork_keeps | (refine Keeps.mk' ?_ rfl rfl; first | assumption | apply State.wr_keeps | apply State.setTl_keeps | apply State.showErr_keeps | apply State.setTlState_keeps | apply State.endTimelineWork_keeps) | (dsimp +zetaDelta only)

theorem State.tlCtlWrite_keeps {s₀ : State} {s : State} (n : Nat) (v : Word) (h : Keeps s₀ s) : Keeps s₀ (State.tlCtlWrite s n v) := by
  unfold State.tlCtlWrite
  try extract_lets
  with_reducible repeat' first | assumption | apply State.wr_keeps | apply State.setReg_keeps | apply State.refuse_keeps | apply State.badMinute_keeps | apply State.setTlState_keeps | apply State.freerun_keeps | apply State.reselect_keeps | apply State.tlStop_keeps | (intro _) | apply ite_keeps | split | (refine Keeps.mk' ?_ rfl rfl; first | assumption | apply State.wr_keeps | apply State.setReg_keeps | apply State.refuse_keeps | apply State.badMinute_keeps | apply State.setTlState_keeps | apply State.freerun_keeps | apply State.reselect_keeps | apply State.tlStop_keeps | apply ite_keeps | split) | (dsimp +zetaDelta only)

theorem execTlEnable_keeps {s₀ : State} (n : Fin 4) (freerun : Bool) {s : State} (h : Keeps s₀ s) : KeepsOut s₀ (execTlEnable n freerun s) := by
  unfold execTlEnable
  with_reducible repeat' first | apply KeepsOut.next | assumption | apply State.wr_keeps | apply State.tlCtlWrite_keeps

theorem execTlDisable_keeps {s₀ : State} (n : Fin 4) {s : State} (h : Keeps s₀ s) : KeepsOut s₀ (execTlDisable n s) := by
  unfold execTlDisable
  with_reducible repeat' first | apply KeepsOut.next | assumption | apply State.wr_keeps | apply State.tlCtlWrite_keeps

theorem execTlFreerun_keeps {s₀ : State} (n : Fin 4) {s : State} (h : Keeps s₀ s) : KeepsOut s₀ (execTlFreerun n s) := by
  unfold execTlFreerun
  with_reducible repeat' first | apply KeepsOut.next | assumption | apply State.wr_keeps | apply State.tlCtlWrite_keeps

theorem State.nowRead_keeps {s₀ : State} {s : State} (q : Req) (n : Nat) (h : Keeps s₀ s) : Keeps s₀ (State.nowRead s q n) := by
  unfold State.nowRead
  try extract_lets
  with_reducible repeat' first | assumption | apply State.wr_keeps | (intro _) | (refine Keeps.mk' ?_ rfl rfl; first | assumption | apply State.wr_keeps) | (dsimp +zetaDelta only)

theorem execLtNowRead_keeps {s₀ : State} (q : Req) (n : Fin 4) {s : State} (h : Keeps s₀ s) : KeepsOut s₀ (execLtNowRead q n s) := by
  unfold execLtNowRead
  with_reducible repeat' first | apply KeepsOut.next | assumption | apply State.wr_keeps | apply State.nowRead_keeps

theorem State.capture_keeps {s₀ : State} {s : State} (h : Keeps s₀ s) : Keeps s₀ (State.capture s) := by
  unfold State.capture
  try extract_lets
  with_reducible repeat' first | assumption | apply State.wr_keeps | apply State.forRange_keeps | (intro _) | (dsimp +zetaDelta only)

theorem execLtCapture_keeps {s₀ : State} {s : State} (h : Keeps s₀ s) : KeepsOut s₀ (execLtCapture s) := by
  unfold execLtCapture
  with_reducible repeat' first | apply KeepsOut.next | assumption | apply State.wr_keeps | apply State.capture_keeps

end Sys2Proof.Machine
end

