-- ==== Sys2Proof/Laws/Keeps/Stream.lean ====
section
/-!
SUPPORT. Sys2Proof/Laws/Keeps/Stream.lean: what each operation of Machine/Stream.lean keeps (Keeps of Safety.lean).
-/
namespace Sys2Proof.Machine
set_option linter.all false

theorem State.copyOut_keeps {s₀ : State} {s : State} (r : Nat) (ws : List Word) (h : Keeps s₀ s) : Keeps s₀ (State.copyOut s r ws) := by
  unfold State.copyOut
  with_reducible repeat' first | assumption | apply State.wr_keeps | apply State.putEvt_keeps | apply State.inc_keeps | apply ite_keeps | split

theorem State.setCopied_keeps {s₀ : State} {s : State} (d : Nat) (c : Nat) (h : Keeps s₀ s) : Keeps s₀ (State.setCopied s d c) := by
  unfold State.setCopied
  with_reducible repeat' first | assumption | apply State.wr_keeps | (intro _) | (refine Keeps.mk' ?_ rfl rfl; first | assumption | apply State.wr_keeps)

theorem State.streamCopy_keeps {s₀ : State} {s : State} (d : Nat) (h : Keeps s₀ s) : Keeps s₀ (State.streamCopy s d) := by
  unfold State.streamCopy
  try extract_lets
  with_reducible repeat' first | assumption | apply State.wr_keeps | apply State.setCopied_keeps | apply State.copyOut_keeps | (intro _) | apply ite_keeps | split | (dsimp +zetaDelta only)

theorem execRecStreamCopy_keeps {s₀ : State} (d : Fin 8) {s : State} (h : Keeps s₀ s) : KeepsOut s₀ (execRecStreamCopy d s) := by
  unfold execRecStreamCopy
  with_reducible repeat' first | apply KeepsOut.next | assumption | apply State.wr_keeps | apply State.when_keeps | apply State.streamCopy_keeps | (intro _)

theorem State.recStreamWrite_keeps {s₀ : State} {s : State} (v : Word) (h : Keeps s₀ s) : Keeps s₀ (State.recStreamWrite s v) := by
  unfold State.recStreamWrite
  try extract_lets
  with_reducible repeat' first | assumption | apply State.wr_keeps | apply State.setReg_keeps | apply State.forRange_keeps | apply State.setCopied_keeps | (intro _) | apply ite_keeps | split | (dsimp +zetaDelta only)

theorem State.recCopies_keeps {s₀ : State} {s : State} (ws : List Word) (h : Keeps s₀ s) : Keeps s₀ (State.recCopies s ws) := by
  unfold State.recCopies
  try extract_lets
  with_reducible repeat' first | assumption | apply State.wr_keeps | apply State.forRange_keeps | apply State.copyOut_keeps | (intro _) | apply ite_keeps | split | (dsimp +zetaDelta only)

theorem execRecRead_keeps {s₀ : State} (r : Fin 4096) {s : State} (h : Keeps s₀ s) : KeepsOut s₀ (execRecRead r s) := by
  unfold execRecRead
  with_reducible repeat' first | apply KeepsOut.next | assumption | apply State.wr_keeps | apply State.dispatch_keeps | apply State.recCopies_keeps | apply State.complete_keeps | (intro _)

theorem State.recGo_keeps {s₀ : State} {s : State} (v : Word) (h : Keeps s₀ s) : Keeps s₀ (State.recGo s v) := by
  unfold State.recGo
  try extract_lets
  with_reducible repeat' first | assumption | apply State.wr_keeps | apply State.inc_keeps | apply ite_keeps | split | (refine Keeps.mk' ?_ rfl rfl; first | assumption | apply State.wr_keeps | apply State.inc_keeps | apply ite_keeps | split) | (dsimp +zetaDelta only)

theorem execRecClrGo_keeps {s₀ : State} {s : State} (h : Keeps s₀ s) : KeepsOut s₀ (execRecClrGo s) := by
  unfold execRecClrGo
  with_reducible repeat' first | apply KeepsOut.next | assumption | apply State.wr_keeps | apply State.recGo_keeps

theorem State.clearChecked_keeps {s₀ : State} {s : State} (h : Keeps s₀ s) : Keeps s₀ (State.clearChecked s) := by
  unfold State.clearChecked
  try extract_lets
  with_reducible repeat' first | assumption | apply State.wr_keeps | apply State.forRange_keeps | apply State.tick_keeps | apply State.event_keeps | apply State.inc_keeps | (intro _) | apply ite_keeps | split | (dsimp +zetaDelta only)

theorem execRecClearChecked_keeps {s₀ : State} {s : State} (h : Keeps s₀ s) : KeepsOut s₀ (execRecClearChecked s) := by
  unfold execRecClearChecked
  with_reducible repeat' first | apply KeepsOut.next | assumption | apply State.wr_keeps | apply State.when_keeps | apply State.clearChecked_keeps

end Sys2Proof.Machine
end

