-- ==== Sys2Proof/Laws/Keeps/Power.lean ====
section
/-!
SUPPORT. Sys2Proof/Laws/Keeps/Power.lean: what each operation of Machine/Power.lean keeps (Keeps of Safety.lean).
-/
namespace Sys2Proof.Machine
set_option linter.all false

theorem State.rstRefuse_keeps {s₀ : State} {s : State} (d : Nat) (code : Nat) (a : Nat) (h : Keeps s₀ s) : Keeps s₀ (State.rstRefuse s d code a) := by
  unfold State.rstRefuse
  with_reducible repeat' first | assumption | apply State.wr_keeps | apply State.refuse_keeps

theorem State.pwrRefuse_keeps {s₀ : State} {s : State} (code : Nat) (a : Nat) (h : Keeps s₀ s) : Keeps s₀ (State.pwrRefuse s code a) := by
  unfold State.pwrRefuse
  with_reducible repeat' first | assumption | apply State.wr_keeps | apply State.refuse_keeps

theorem State.settle_keeps {s₀ : State} {s : State} (h : Keeps s₀ s) : Keeps s₀ (State.settle s) := by
  unfold State.settle
  with_reducible repeat' first | assumption | apply State.wr_keeps | apply State.pairScan_keeps | apply State.modeUpdate_keeps

theorem State.pulsePackage_keeps {s₀ : State} {s : State} (src : Nat) (h : Keeps s₀ s) : Keeps s₀ (State.pulsePackage s src) := by
  unfold State.pulsePackage
  with_reducible repeat' first | assumption | apply State.wr_keeps | apply State.packageReset_keeps | apply State.releasePackage_keeps

theorem State.blank_keeps {s₀ s : State} (h : Keeps s₀ s) : Keeps s₀ s.blank := by
  refine h.trans ⟨rfl, rfl, rfl, List.suffix_refl _, fun x => ?_⟩
  rw [ok_iff] at x ⊢
  exact ⟨rfl, rfl, x.2.2.1, rfl⟩

theorem State.supplyLoss_keeps {s₀ : State} {s : State} (h : Keeps s₀ s) : Keeps s₀ (State.supplyLoss s) := by
  unfold State.supplyLoss
  try extract_lets
  with_reducible repeat' first | assumption | apply State.wr_keeps | apply State.blank_keeps | (refine Keeps.mk' ?_ rfl rfl; first | assumption | apply State.wr_keeps | apply State.blank_keeps) | (dsimp +zetaDelta only)

theorem execSupplyLoss_keeps {s₀ : State} {s : State} (h : Keeps s₀ s) : KeepsOut s₀ (execSupplyLoss s) := by
  unfold execSupplyLoss
  with_reducible repeat' first | apply KeepsOut.next | assumption | apply State.wr_keeps | apply State.supplyLoss_keeps

theorem State.powerGood_keeps {s₀ : State} {s : State} (samples : List (Fin 32)) (h : Keeps s₀ s) : Keeps s₀ (State.powerGood s samples) := by
  unfold State.powerGood
  try extract_lets
  with_reducible repeat' first | assumption | apply State.wr_keeps | apply State.blank_keeps | apply State.forRange_keeps | apply State.tick_keeps | apply State.cause_keeps | apply State.latchStraps_keeps | apply State.releasePackage_keeps | apply foldl_keeps | (intro _) | (refine Keeps.mk' ?_ rfl rfl; first | assumption | apply State.wr_keeps | apply State.blank_keeps | apply State.forRange_keeps | apply State.tick_keeps | apply State.cause_keeps | apply State.latchStraps_keeps | apply State.releasePackage_keeps | apply foldl_keeps) | (dsimp +zetaDelta only)

theorem execPowerGood_keeps {s₀ : State} (samples : List (Fin 32)) {s : State} (h : Keeps s₀ s) : KeepsOut s₀ (execPowerGood samples s) := by
  unfold execPowerGood
  with_reducible repeat' first | apply KeepsOut.next | assumption | apply State.wr_keeps | apply State.when_keeps | apply State.powerGood_keeps | (intro _)

theorem State.rstN_keeps {s₀ : State} {s : State} (h : Keeps s₀ s) : Keeps s₀ (State.rstN s) := by
  unfold State.rstN
  try extract_lets
  with_reducible repeat' first | assumption | apply State.wr_keeps | apply State.holdPackage_keeps | apply ite_keeps | split | (refine Keeps.mk' ?_ rfl rfl; first | assumption | apply State.wr_keeps | apply State.holdPackage_keeps | apply ite_keeps | split) | (dsimp +zetaDelta only)

theorem State.rstNUp_keeps {s₀ : State} {s : State} (samples : List (Fin 32)) (h : Keeps s₀ s) : Keeps s₀ (State.rstNUp s samples) := by
  unfold State.rstNUp
  try extract_lets
  with_reducible repeat' first | assumption | apply State.wr_keeps | apply State.latchStraps_keeps | apply State.releasePackage_keeps | apply ite_keeps | split | (refine Keeps.mk' ?_ rfl rfl; first | assumption | apply State.wr_keeps | apply State.latchStraps_keeps | apply State.releasePackage_keeps | apply ite_keeps | split) | (dsimp +zetaDelta only)

theorem State.perst_keeps {s₀ : State} {s : State} (h : Keeps s₀ s) : Keeps s₀ (State.perst s) := by
  unfold State.perst
  try extract_lets
  with_reducible repeat' first | assumption | apply State.wr_keeps | apply State.holdPackage_keeps | apply ite_keeps | split | (refine Keeps.mk' ?_ rfl rfl; first | assumption | apply State.wr_keeps | apply State.holdPackage_keeps | apply ite_keeps | split) | (dsimp +zetaDelta only)

theorem State.perstUp_keeps {s₀ : State} {s : State} (h : Keeps s₀ s) : Keeps s₀ (State.perstUp s) := by
  unfold State.perstUp
  try extract_lets
  with_reducible repeat' first | assumption | apply State.wr_keeps | apply State.releasePackage_keeps | apply ite_keeps | split | (refine Keeps.mk' ?_ rfl rfl; first | assumption | apply State.wr_keeps | apply State.releasePackage_keeps | apply ite_keeps | split) | (dsimp +zetaDelta only)

theorem execRstNAssert_keeps {s₀ : State} {s : State} (h : Keeps s₀ s) : KeepsOut s₀ (execRstNAssert s) := by
  unfold execRstNAssert
  with_reducible repeat' first | apply KeepsOut.next | assumption | apply State.wr_keeps | apply State.rstN_keeps

theorem execRstNRelease_keeps {s₀ : State} (samples : List (Fin 32)) {s : State} (h : Keeps s₀ s) : KeepsOut s₀ (execRstNRelease samples s) := by
  unfold execRstNRelease
  with_reducible repeat' first | apply KeepsOut.next | assumption | apply State.wr_keeps | apply State.when_keeps | apply State.rstN_keeps | apply State.rstNUp_keeps | (intro _)

theorem execPerstAssert_keeps {s₀ : State} {s : State} (h : Keeps s₀ s) : KeepsOut s₀ (execPerstAssert s) := by
  unfold execPerstAssert
  with_reducible repeat' first | apply KeepsOut.next | assumption | apply State.wr_keeps | apply State.perst_keeps

theorem execPerstRelease_keeps {s₀ : State} {s : State} (h : Keeps s₀ s) : KeepsOut s₀ (execPerstRelease s) := by
  unfold execPerstRelease
  with_reducible repeat' first | apply KeepsOut.next | assumption | apply State.wr_keeps | apply State.when_keeps | apply State.perst_keeps | apply State.perstUp_keeps

theorem State.globalWrite_keeps {s₀ : State} {s : State} (v : Word) (h : Keeps s₀ s) : Keeps s₀ (State.globalWrite s v) := by
  unfold State.globalWrite
  with_reducible repeat' first | assumption | apply State.wr_keeps | apply State.pulsePackage_keeps | apply State.rstRefuse_keeps | apply ite_keeps | split

theorem execRstGlobalWrite_keeps {s₀ : State} (v : Word) {s : State} (h : Keeps s₀ s) : KeepsOut s₀ (execRstGlobalWrite v s) := by
  unfold execRstGlobalWrite
  with_reducible repeat' first | apply KeepsOut.next | assumption | apply State.wr_keeps | apply State.when_keeps | apply State.globalWrite_keeps | (intro _)

theorem State.causeWrite_keeps {s₀ : State} {s : State} (d : Nat) (v : Word) (h : Keeps s₀ s) : Keeps s₀ (State.causeWrite s d v) := by
  unfold State.causeWrite
  with_reducible repeat' first | assumption | apply State.wr_keeps | apply State.setReg_keeps

theorem execRstCauseClear_keeps {s₀ : State} (d : Fin 8) (v : Word) {s : State} (h : Keeps s₀ s) : KeepsOut s₀ (execRstCauseClear d v s) := by
  unfold execRstCauseClear
  with_reducible repeat' first | apply KeepsOut.next | assumption | apply State.wr_keeps | apply State.when_keeps | apply State.causeWrite_keeps | (intro _)

theorem State.wdtLoad_keeps {s₀ : State} {s : State} (d : Nat) (h : Keeps s₀ s) : Keeps s₀ (State.wdtLoad s d) := by
  unfold State.wdtLoad
  with_reducible repeat' first | assumption | apply State.wr_keeps | (intro _) | (refine Keeps.mk' ?_ rfl rfl; first | assumption | apply State.wr_keeps)

theorem State.wdtCfgWrite_keeps {s₀ : State} {s : State} (d : Nat) (v : Word) (h : Keeps s₀ s) : Keeps s₀ (State.wdtCfgWrite s d v) := by
  unfold State.wdtCfgWrite
  try extract_lets
  with_reducible repeat' first | assumption | apply State.wr_keeps | apply State.rstRefuse_keeps | apply State.setReg_keeps | apply State.wdtLoad_keeps | apply ite_keeps | split | (dsimp +zetaDelta only)

theorem State.kickWrite_keeps {s₀ : State} {s : State} (d : Nat) (v : Word) (h : Keeps s₀ s) : Keeps s₀ (State.kickWrite s d v) := by
  unfold State.kickWrite
  with_reducible repeat' first | assumption | apply State.wr_keeps | apply State.wdtLoad_keeps | apply ite_keeps | split

theorem execWdtKick_keeps {s₀ : State} (d : Fin 8) (v : Word) {s : State} (h : Keeps s₀ s) : KeepsOut s₀ (execWdtKick d v s) := by
  unfold execWdtKick
  with_reducible repeat' first | apply KeepsOut.next | assumption | apply State.wr_keeps | apply State.when_keeps | apply State.kickWrite_keeps | (intro _)

theorem State.pulseDie_keeps {s₀ : State} {s : State} (d : Nat) (src : Nat) (h : Keeps s₀ s) : Keeps s₀ (State.pulseDie s d src) := by
  unfold State.pulseDie
  with_reducible repeat' first | assumption | apply State.wr_keeps | apply State.pulsePackage_keeps | apply State.assertReset_keeps | apply State.releaseReset_keeps | apply State.settle_keeps | apply ite_keeps | split

theorem execWdtExpired_keeps {s₀ : State} (d : Fin 8) {s : State} (h : Keeps s₀ s) : KeepsOut s₀ (execWdtExpired d s) := by
  unfold execWdtExpired
  with_reducible repeat' first | apply KeepsOut.next | assumption | apply State.wr_keeps | apply State.when_keeps | apply State.pulseDie_keeps | (intro _)

theorem State.thermCfgWrite_keeps {s₀ : State} {s : State} (d : Nat) (v : Word) (h : Keeps s₀ s) : Keeps s₀ (State.thermCfgWrite s d v) := by
  unfold State.thermCfgWrite
  try extract_lets
  with_reducible repeat' first | assumption | apply State.wr_keeps | apply State.pwrRefuse_keeps | apply State.setReg_keeps | apply ite_keeps | split | (dsimp +zetaDelta only)

theorem State.showTherm_keeps {s₀ : State} {s : State} (d : Nat) (ts : List Int) (h : Keeps s₀ s) : Keeps s₀ (State.showTherm s d ts) := by
  unfold State.showTherm
  try extract_lets
  with_reducible repeat' first | assumption | apply State.wr_keeps | apply State.wrS_keeps | apply foldl_keeps | (intro _) | apply ite_keeps | split | (refine Keeps.mk' ?_ rfl rfl; first | assumption | apply State.wr_keeps | apply State.wrS_keeps | apply foldl_keeps | apply ite_keeps | split) | (dsimp +zetaDelta only)

theorem State.trip_keeps {s₀ : State} {s : State} (d : Nat) (h : Keeps s₀ s) : Keeps s₀ (State.trip s d) := by
  unfold State.trip
  try extract_lets
  with_reducible repeat' first | assumption | apply State.wr_keeps | apply State.holdPackage_keeps | apply State.assertReset_keeps | apply State.settle_keeps | apply ite_keeps | split | (dsimp +zetaDelta only)

theorem State.untrip_keeps {s₀ : State} {s : State} (d : Nat) (h : Keeps s₀ s) : Keeps s₀ (State.untrip s d) := by
  unfold State.untrip
  try extract_lets
  with_reducible repeat' first | assumption | apply State.wr_keeps | apply State.releasePackage_keeps | apply State.releaseReset_keeps | apply State.settle_keeps | apply ite_keeps | split | (dsimp +zetaDelta only)

theorem State.thermSample_keeps {s₀ : State} {s : State} (d : Nat) (ts : List Int) (h : Keeps s₀ s) : Keeps s₀ (State.thermSample s d ts) := by
  unfold State.thermSample
  try extract_lets
  with_reducible repeat' first | assumption | apply State.wr_keeps | apply State.untrip_keeps | apply State.trip_keeps | apply State.showTherm_keeps | (intro _) | apply ite_keeps | split | (dsimp +zetaDelta only)

theorem execThermSample_keeps {s₀ : State} (d : Fin 8) (ts : List (Fin 256)) {s : State} (h : Keeps s₀ s) : KeepsOut s₀ (execThermSample d ts s) := by
  unfold execThermSample
  with_reducible repeat' first | apply KeepsOut.next | assumption | apply State.wr_keeps | apply State.when_keeps | apply State.thermSample_keeps | (intro _)

theorem State.lanesBack_keeps {s₀ : State} {s : State} (was : List Nat) (h : Keeps s₀ s) : Keeps s₀ (State.lanesBack s was) := by
  unfold State.lanesBack
  with_reducible repeat' first | assumption | apply State.wr_keeps | apply State.forRange_keeps | apply State.toDetect_keeps | (intro _) | apply ite_keeps | split

theorem State.clocks_keeps {s₀ : State} {s : State} (path : Nat) (h : Keeps s₀ s) : Keeps s₀ (State.clocks s path) := by
  unfold State.clocks
  try extract_lets
  with_reducible repeat' first | assumption | apply State.wr_keeps | apply State.clockGood_keeps | apply State.lanesBack_keeps | apply State.settle_keeps | (intro _) | (dsimp +zetaDelta only)

theorem execClockGood_keeps {s₀ : State} (path : Word) {s : State} (h : Keeps s₀ s) : KeepsOut s₀ (execClockGood path s) := by
  unfold execClockGood
  with_reducible repeat' first | apply KeepsOut.next | assumption | apply State.wr_keeps | apply State.when_keeps | apply State.clocks_keeps | (intro _)

theorem State.noClock_keeps {s₀ : State} {s : State} (q : Nat) (h : Keeps s₀ s) : Keeps s₀ (State.noClock s q) := by
  unfold State.noClock
  try extract_lets
  with_reducible repeat' first | assumption | apply State.wr_keeps | apply State.showDoms_keeps | apply State.rstEvent_keeps | apply State.settle_keeps | (refine Keeps.mk' ?_ rfl rfl; first | assumption | apply State.wr_keeps | apply State.showDoms_keeps | apply State.rstEvent_keeps | apply State.settle_keeps) | (dsimp +zetaDelta only)

theorem execNoclkTimeout_keeps {s₀ : State} (q : Word) {s : State} (h : Keeps s₀ s) : KeepsOut s₀ (execNoclkTimeout q s) := by
  unfold execNoclkTimeout
  with_reducible repeat' first | apply KeepsOut.next | assumption | apply State.wr_keeps | apply State.when_keeps | apply State.noClock_keeps | (intro _)

theorem State.grvCtlWrite_keeps {s₀ : State} {s : State} (j : Nat) (v : Word) (h : Keeps s₀ s) : Keeps s₀ (State.grvCtlWrite s j v) := by
  unfold State.grvCtlWrite
  try extract_lets
  with_reducible repeat' first | assumption | apply State.wr_keeps | apply State.rstRefuse_keeps | apply State.assertReset_keeps | apply State.settle_keeps | apply State.releaseReset_keeps | apply ite_keeps | split | (dsimp +zetaDelta only)

theorem State.grvPathWrite_keeps {s₀ : State} {s : State} (j : Nat) (v : Word) (h : Keeps s₀ s) : Keeps s₀ (State.grvPathWrite s j v) := by
  unfold State.grvPathWrite
  with_reducible repeat' first | assumption | apply State.wr_keeps | apply State.rstRefuse_keeps | apply State.setReg_keeps | apply ite_keeps | split

theorem execRstGrvHold_keeps {s₀ : State} (j : Fin 16) {s : State} (h : Keeps s₀ s) : KeepsOut s₀ (execRstGrvHold j s) := by
  unfold execRstGrvHold
  with_reducible repeat' first | apply KeepsOut.next | assumption | apply State.wr_keeps | apply State.when_keeps | apply State.grvCtlWrite_keeps | (intro _)

theorem execRstGrvRelease_keeps {s₀ : State} (j : Fin 16) {s : State} (h : Keeps s₀ s) : KeepsOut s₀ (execRstGrvRelease j s) := by
  unfold execRstGrvRelease
  with_reducible repeat' first | apply KeepsOut.next | assumption | apply State.wr_keeps | apply State.when_keeps | apply State.grvCtlWrite_keeps | (intro _)

theorem State.pwrCtlWrite_keeps {s₀ : State} {s : State} (j : Nat) (v : Word) (h : Keeps s₀ s) : Keeps s₀ (State.pwrCtlWrite s j v) := by
  unfold State.pwrCtlWrite
  try extract_lets
  with_reducible repeat' first | assumption | apply State.wr_keeps | apply State.pwrRefuse_keeps | apply State.setReg_keeps | apply ite_keeps | split | (dsimp +zetaDelta only)

theorem State.pwrPathWrite_keeps {s₀ : State} {s : State} (j : Nat) (v : Word) (h : Keeps s₀ s) : Keeps s₀ (State.pwrPathWrite s j v) := by
  unfold State.pwrPathWrite
  with_reducible repeat' first | assumption | apply State.wr_keeps | apply State.pwrRefuse_keeps | apply State.setReg_keeps | apply ite_keeps | split

theorem execPwrSlotEnable_keeps {s₀ : State} (j : Fin 32) (en : Bool) (on : Bool) {s : State} (h : Keeps s₀ s) : KeepsOut s₀ (execPwrSlotEnable j en on s) := by
  unfold execPwrSlotEnable
  with_reducible repeat' first | apply KeepsOut.next | assumption | apply State.wr_keeps | apply State.when_keeps | apply State.pwrCtlWrite_keeps | (intro _)

theorem State.loseLeaf_keeps {s₀ s : State} (q : Nat) (h : Keeps s₀ s) : Keeps s₀ (s.loseLeaf q) := by
  unfold State.loseLeaf
  have g := State.resetRegs_keeps (p := fun a => a < 0x20000000 && regLeaf a == q) h
  refine ite_keeps (g.mk' rfl rfl) (ite_keeps (g.mk' rfl rfl) (ite_keeps ?_ (ite_keeps (g.mk' rfl rfl) (ite_keeps (g.mk' rfl rfl) (ite_keeps (State.setCrcOp_keeps _ _ _ g) g)))))
  exact (g.hbm _ fun x => mapWf_keep _ x).mk' rfl rfl

theorem State.showOn_keeps {s₀ : State} {s : State} (d : Nat) (h : Keeps s₀ s) : Keeps s₀ (State.showOn s d) := by
  unfold State.showOn
  with_reducible repeat' first | assumption | apply State.wr_keeps | (intro _)

theorem State.switchDomain_keeps {s₀ : State} {s : State} (k : Nat) (h : Keeps s₀ s) : Keeps s₀ (State.switchDomain s k) := by
  unfold State.switchDomain
  try extract_lets
  with_reducible repeat' first | assumption | apply State.wr_keeps | apply State.loseLeaf_keeps | apply State.showOn_keeps | apply State.settle_keeps | apply foldl_keeps | (intro _) | apply ite_keeps | split | (refine Keeps.mk' ?_ rfl rfl; first | assumption | apply State.wr_keeps | apply State.loseLeaf_keeps | apply State.showOn_keeps | apply State.settle_keeps | apply foldl_keeps | apply ite_keeps | split) | (dsimp +zetaDelta only)

theorem execPwrDomainSwitch_keeps {s₀ : State} {s : State} (h : Keeps s₀ s) : KeepsOut s₀ (execPwrDomainSwitch s) := by
  unfold execPwrDomainSwitch
  with_reducible repeat' first | apply KeepsOut.next | assumption | apply State.wr_keeps | apply State.switchDomain_keeps | split | (refine Keeps.mk' ?_ rfl rfl; first | assumption | apply State.wr_keeps | apply State.switchDomain_keeps | split)

theorem State.domainUp_keeps {s₀ : State} {s : State} (k : Nat) (h : Keeps s₀ s) : Keeps s₀ (State.domainUp s k) := by
  unfold State.domainUp
  try extract_lets
  with_reducible repeat' first | assumption | apply State.wr_keeps | apply State.showOn_keeps | apply State.settle_keeps | apply ite_keeps | split | (refine Keeps.mk' ?_ rfl rfl; first | assumption | apply State.wr_keeps | apply State.showOn_keeps | apply State.settle_keeps | apply ite_keeps | split) | (dsimp +zetaDelta only)

theorem execPwrDomainUp_keeps {s₀ : State} (d : Fin 8) (n : Fin 152) {s : State} (h : Keeps s₀ s) : KeepsOut s₀ (execPwrDomainUp d n s) := by
  unfold execPwrDomainUp
  with_reducible repeat' first | apply KeepsOut.next | assumption | apply State.wr_keeps | apply State.when_keeps | apply State.domainUp_keeps | (intro _)

theorem State.modeReq_keeps {s₀ : State} {s : State} (req : Nat) (h : Keeps s₀ s) : Keeps s₀ (State.modeReq s req) := by
  unfold State.modeReq
  try extract_lets
  with_reducible repeat' first | assumption | apply State.wr_keeps | apply State.pwrRefuse_keeps | apply State.modeUpdate_keeps | (intro _) | apply ite_keeps | split | (refine Keeps.mk' ?_ rfl rfl; first | assumption | apply State.wr_keeps | apply State.pwrRefuse_keeps | apply State.modeUpdate_keeps | apply ite_keeps | split) | (dsimp +zetaDelta only)

theorem execPwrReqCalibrate_keeps {s₀ : State} {s : State} (h : Keeps s₀ s) : KeepsOut s₀ (execPwrReqCalibrate s) := by
  unfold execPwrReqCalibrate
  with_reducible repeat' first | apply KeepsOut.next | assumption | apply State.wr_keeps | apply State.when_keeps | apply State.modeReq_keeps | (intro _)

theorem execPwrReqReady_keeps {s₀ : State} {s : State} (h : Keeps s₀ s) : KeepsOut s₀ (execPwrReqReady s) := by
  unfold execPwrReqReady
  with_reducible repeat' first | apply KeepsOut.next | assumption | apply State.wr_keeps | apply State.when_keeps | apply State.modeReq_keeps | (intro _)

theorem execPwrReqDiagnostic_keeps {s₀ : State} {s : State} (h : Keeps s₀ s) : KeepsOut s₀ (execPwrReqDiagnostic s) := by
  unfold execPwrReqDiagnostic
  with_reducible repeat' first | apply KeepsOut.next | assumption | apply State.wr_keeps | apply State.when_keeps | apply State.modeReq_keeps | (intro _)

theorem execPwrReqClear_keeps {s₀ : State} {s : State} (h : Keeps s₀ s) : KeepsOut s₀ (execPwrReqClear s) := by
  unfold execPwrReqClear
  with_reducible repeat' first | apply KeepsOut.next | assumption | apply State.wr_keeps | apply State.when_keeps | apply State.modeReq_keeps | (intro _)

theorem execPwrReqOther_keeps {s₀ : State} (req : Fin 16) {s : State} (h : Keeps s₀ s) : KeepsOut s₀ (execPwrReqOther req s) := by
  unfold execPwrReqOther
  with_reducible repeat' first | apply KeepsOut.next | assumption | apply State.wr_keeps | apply State.when_keeps | apply State.modeReq_keeps | (intro _)

theorem State.runImage_keeps {s₀ : State} {s : State} (d : Nat) (used : Nat) (h : Keeps s₀ s) : Keeps s₀ (State.runImage s d used) := by
  unfold State.runImage
  try extract_lets
  with_reducible repeat' first | assumption | apply State.wr_keeps | apply ite_keeps | split | (refine Keeps.mk' ?_ rfl rfl; first | assumption | apply State.wr_keeps | apply ite_keeps | split) | (dsimp +zetaDelta only)

theorem State.badImage_keeps {s₀ : State} {s : State} (d : Nat) (a : Nat) (h : Keeps s₀ s) : Keeps s₀ (State.badImage s d a) := by
  unfold State.badImage
  with_reducible repeat' first | assumption | apply State.wr_keeps | apply State.refuse_keeps

theorem State.nextSource_keeps {s₀ : State} {s : State} (h : Keeps s₀ s) : Keeps s₀ (State.nextSource s) := by
  unfold State.nextSource
  with_reducible repeat' first | assumption | apply State.wr_keeps | (refine Keeps.mk' ?_ rfl rfl; first | assumption | apply State.wr_keeps)

theorem State.bootWait_keeps {s₀ : State} {s : State} (h : Keeps s₀ s) : Keeps s₀ (State.bootWait s) := by
  unfold State.bootWait
  with_reducible repeat' first | assumption | apply State.wr_keeps

theorem State.imageLoaded_keeps {s₀ : State} {s : State} (img : List Byte) (h : Keeps s₀ s) : Keeps s₀ (State.imageLoaded s img) := by
  unfold State.imageLoaded
  try extract_lets
  with_reducible repeat' first | assumption | apply State.wr_keeps | apply State.sramPut_keeps | apply State.runImage_keeps | apply State.badImage_keeps | apply State.nextSource_keeps | apply State.bootWait_keeps | apply ite_keeps | split | (dsimp +zetaDelta only)

theorem execBootImageLoaded_keeps {s₀ : State} (img : List Byte) {s : State} (h : Keeps s₀ s) : KeepsOut s₀ (execBootImageLoaded img s) := by
  unfold execBootImageLoaded
  with_reducible repeat' first | apply KeepsOut.next | assumption | apply State.wr_keeps | apply State.when_keeps | apply State.imageLoaded_keeps | (intro _)

theorem State.bootFrame_keeps {s₀ : State} {s : State} (data : List Byte) (h : Keeps s₀ s) : Keeps s₀ (State.bootFrame s data) := by
  unfold State.bootFrame
  try extract_lets
  with_reducible repeat' first | assumption | apply State.wr_keeps | apply State.sramPut_keeps | apply State.runImage_keeps | apply State.badImage_keeps | apply ite_keeps | split | (refine Keeps.mk' ?_ rfl rfl; first | assumption | apply State.wr_keeps | apply State.sramPut_keeps | apply State.runImage_keeps | apply State.badImage_keeps | apply ite_keeps | split) | (dsimp +zetaDelta only)

theorem execBootFrame_keeps {s₀ : State} (data : List Byte) {s : State} (h : Keeps s₀ s) : KeepsOut s₀ (execBootFrame data s) := by
  unfold execBootFrame
  with_reducible repeat' first | apply KeepsOut.next | assumption | apply State.wr_keeps | apply State.when_keeps | apply State.bootFrame_keeps | (intro _)

theorem execBootTwinTimeout_keeps {s₀ : State} {s : State} (h : Keeps s₀ s) : KeepsOut s₀ (execBootTwinTimeout s) := by
  unfold execBootTwinTimeout
  with_reducible repeat' first | apply KeepsOut.next | assumption | apply State.wr_keeps | apply State.when_keeps | apply State.nextSource_keeps

theorem State.mboxGo_keeps {s₀ : State} {s : State} (v : Word) (h : Keeps s₀ s) : Keeps s₀ (State.mboxGo s v) := by
  unfold State.mboxGo
  try extract_lets
  with_reducible repeat' first | assumption | apply State.wr_keeps | apply State.runImage_keeps | apply State.badImage_keeps | apply State.bootWait_keeps | (intro _) | apply ite_keeps | split | (dsimp +zetaDelta only)

theorem execBootMboxGo_keeps {s₀ : State} {s : State} (h : Keeps s₀ s) : KeepsOut s₀ (execBootMboxGo s) := by
  unfold execBootMboxGo
  with_reducible repeat' first | apply KeepsOut.next | assumption | apply State.wr_keeps | apply State.when_keeps | apply State.mboxGo_keeps | (intro _)

theorem State.coresWrite_keeps {s₀ : State} {s : State} (d : Nat) (v : Word) (h : Keeps s₀ s) : Keeps s₀ (State.coresWrite s d v) := by
  unfold State.coresWrite
  try extract_lets
  with_reducible repeat' first | assumption | apply State.wr_keeps | apply State.setReg_keeps | apply State.runImage_keeps | apply State.badImage_keeps | apply State.serveCrown_keeps | (intro _) | apply ite_keeps | split | (dsimp +zetaDelta only)

theorem execBootCoresRun_keeps {s₀ : State} (d : Fin 8) (run : Bool) {s : State} (h : Keeps s₀ s) : KeepsOut s₀ (execBootCoresRun d run s) := by
  unfold execBootCoresRun
  with_reducible repeat' first | apply KeepsOut.next | assumption | apply State.wr_keeps | apply State.when_keeps | apply State.coresWrite_keeps | (intro _)

theorem State.bootSramWrite_keeps {s₀ : State} {s : State} (d : Nat) (off : Nat) (v : Word) (h : Keeps s₀ s) : Keeps s₀ (State.bootSramWrite s d off v) := by
  unfold State.bootSramWrite
  with_reducible repeat' first | assumption | apply State.wr_keeps | apply State.refuse_keeps | apply State.sramPut_keeps | apply ite_keeps | split

theorem execBootSramWrite_keeps {s₀ : State} (d : Fin 8) (off : Fin 524288) (v : Word) {s : State} (h : Keeps s₀ s) : KeepsOut s₀ (execBootSramWrite d off v s) := by
  unfold execBootSramWrite
  with_reducible repeat' first | apply KeepsOut.next | assumption | apply State.wr_keeps | apply State.when_keeps | apply State.bootSramWrite_keeps | (intro _)

theorem State.spiWrite_keeps {s₀ : State} {s : State} (d : Nat) (v : Word) (h : Keeps s₀ s) : Keeps s₀ (State.spiWrite s d v) := by
  unfold State.spiWrite
  try extract_lets
  with_reducible repeat' first | assumption | apply State.wr_keeps | apply State.setReg_keeps | apply ite_keeps | split | (dsimp +zetaDelta only)

theorem execBootSpiGo_keeps {s₀ : State} (d : Fin 8) (v : Word) {s : State} (h : Keeps s₀ s) : KeepsOut s₀ (execBootSpiGo d v s) := by
  unfold execBootSpiGo
  with_reducible repeat' first | apply KeepsOut.next | assumption | apply State.wr_keeps | apply State.when_keeps | apply State.spiWrite_keeps | (intro _)

end Sys2Proof.Machine
end

