-- ==== Sys2Proof/Laws/Keeps/Stage.lean ====
section
/-!
SUPPORT. Sys2Proof/Laws/Keeps/Stage.lean: what each operation of Machine/Stage.lean keeps (Keeps of Safety.lean).
-/
namespace Sys2Proof.Machine
set_option linter.all false

theorem State.setSetState_keeps {s₀ : State} {s : State} (q : Nat) (n : Nat) (h : Keeps s₀ s) : Keeps s₀ (State.setSetState s q n) := by
  unfold State.setSetState
  with_reducible repeat' first | assumption | apply State.wr_keeps

theorem State.setClaim_keeps {s₀ : State} {s : State} (a : Nat) (x : Option (Nat × Word)) (h : Keeps s₀ s) : Keeps s₀ (State.setClaim s a x) := by
  unfold State.setClaim
  with_reducible repeat' first | assumption | apply State.wr_keeps | (intro _) | (refine Keeps.mk' ?_ rfl rfl; first | assumption | apply State.wr_keeps)

theorem State.releaseSet_keeps {s₀ : State} {s : State} (q : Nat) (h : Keeps s₀ s) : Keeps s₀ (State.releaseSet s q) := by
  unfold State.releaseSet
  try extract_lets
  with_reducible repeat' first | assumption | apply State.wr_keeps | apply State.setSetState_keeps | (intro _) | split | (refine Keeps.mk' ?_ rfl rfl; first | assumption | apply State.wr_keeps | apply State.setSetState_keeps | split) | (dsimp +zetaDelta only)

theorem State.stgCode_keeps {s₀ : State} {s : State} (code : Nat) (q : Option Nat) (status : List Nat) (h : Keeps s₀ s) : Keeps s₀ (State.stgCode s code q status) := by
  unfold State.stgCode
  try extract_lets
  with_reducible repeat' first | assumption | apply State.wr_keeps | apply State.reasons_keeps | apply State.reason_keeps | split | (refine Keeps.mk' ?_ rfl rfl; first | assumption | apply State.wr_keeps | apply State.reasons_keeps | apply State.reason_keeps | split) | (dsimp +zetaDelta only)

theorem State.stgRefuse_keeps {s₀ : State} {s : State} (code : Nat) (q : Option Nat) (status : List Nat) (a : Nat) (h : Keeps s₀ s) : Keeps s₀ (State.stgRefuse s code q status a) := by
  unfold State.stgRefuse
  with_reducible repeat' first | assumption | apply State.wr_keeps | apply State.stgCode_keeps | apply State.recReason_keeps

theorem State.setWsel_keeps {s₀ : State} {s : State} (q : Req) (v : Word) (h : Keeps s₀ s) : Keeps s₀ (State.setWsel s q v) := by
  unfold State.setWsel
  with_reducible repeat' first | assumption | apply State.wr_keeps | (intro _) | (refine Keeps.mk' ?_ rfl rfl; first | assumption | apply State.wr_keeps)

theorem State.wselWrite_keeps {s₀ : State} {s : State} (q : Req) (v : Word) (h : Keeps s₀ s) : Keeps s₀ (State.wselWrite s q v) := by
  unfold State.wselWrite
  try extract_lets
  with_reducible repeat' first | assumption | apply State.wr_keeps | apply State.stgRefuse_keeps | apply State.setWsel_keeps | apply ite_keeps | split | (dsimp +zetaDelta only)

theorem execStgWselWrite_keeps {s₀ : State} (q : Req) (v : Word) {s : State} (h : Keeps s₀ s) : KeepsOut s₀ (execStgWselWrite q v s) := by
  unfold execStgWselWrite
  with_reducible repeat' first | apply KeepsOut.next | assumption | apply State.wr_keeps | apply State.wselWrite_keeps

theorem State.openSet_keeps {s₀ : State} {s : State} (q : Req) (set : Nat) (h : Keeps s₀ s) : Keeps s₀ (State.openSet s q set) := by
  unfold State.openSet
  with_reducible repeat' first | assumption | apply State.wr_keeps | apply State.setSetState_keeps | apply State.setWsel_keeps

theorem State.stgOpen_keeps {s₀ : State} {s : State} (q : Req) (any : Bool) (set : Nat) (h : Keeps s₀ s) : Keeps s₀ (State.stgOpen s q any set) := by
  unfold State.stgOpen
  with_reducible repeat' first | assumption | apply State.wr_keeps | apply State.openSet_keeps | apply State.stgRefuse_keeps | (intro _) | apply ite_keeps | split | (refine Keeps.mk' ?_ rfl rfl; first | assumption | apply State.wr_keeps | apply State.openSet_keeps | apply State.stgRefuse_keeps | apply ite_keeps | split)

theorem execStgOpen_keeps {s₀ : State} (q : Req) (any : Bool) (set : Fin 8) {s : State} (h : Keeps s₀ s) : KeepsOut s₀ (execStgOpen q any set s) := by
  unfold execStgOpen
  with_reducible repeat' first | apply KeepsOut.next | assumption | apply State.wr_keeps | apply State.stgOpen_keeps

theorem State.stage_keeps {s₀ : State} {s : State} (set : Nat) (a : Nat) (mask : Word) (v : Word) (h : Keeps s₀ s) : Keeps s₀ (State.stage s set a mask v) := by
  unfold State.stage
  with_reducible repeat' first | assumption | apply State.wr_keeps | apply State.setClaim_keeps

theorem State.stagedWrite_keeps {s₀ : State} {s : State} (q : Req) (a : Nat) (v : Word) (h : Keeps s₀ s) : Keeps s₀ (State.stagedWrite s q a v) := by
  unfold State.stagedWrite
  try extract_lets
  with_reducible repeat' first | assumption | apply State.wr_keeps | apply State.stage_keeps | apply State.stgRefuse_keeps | apply ite_keeps | split | (dsimp +zetaDelta only)

theorem execStagedWrite_keeps {s₀ : State} (q : Req) (addr : Nat) (v : Word) {s : State} (h : Keeps s₀ s) : KeepsOut s₀ (execStagedWrite q addr v s) := by
  unfold execStagedWrite
  with_reducible repeat' first | apply KeepsOut.next | assumption | apply State.wr_keeps | apply State.when_keeps | apply State.stagedWrite_keeps | (intro _)

theorem State.directWrite_keeps {s₀ : State} {s : State} (a : Nat) (v : Word) (h : Keeps s₀ s) : Keeps s₀ (State.directWrite s a v) := by
  unfold State.directWrite
  try extract_lets
  with_reducible repeat' first | assumption | apply State.wr_keeps | apply State.stgRefuse_keeps | apply State.inc_keeps | apply State.setReg_keeps | apply ite_keeps | split | (refine Keeps.mk' ?_ rfl rfl; first | assumption | apply State.wr_keeps | apply State.stgRefuse_keeps | apply State.inc_keeps | apply State.setReg_keeps | apply ite_keeps | split) | (dsimp +zetaDelta only)

theorem execDirectWrite_keeps {s₀ : State} (q : Req) (addr : Nat) (v : Word) {s : State} (h : Keeps s₀ s) : KeepsOut s₀ (execDirectWrite q addr v s) := by
  unfold execDirectWrite
  with_reducible repeat' first | apply KeepsOut.next | assumption | apply State.wr_keeps | apply State.when_keeps | apply State.directWrite_keeps | (intro _)

theorem State.stWrite_keeps {s₀ : State} {s : State} (q : Req) (a : Nat) (v : Word) (h : Keeps s₀ s) : Keeps s₀ (State.stWrite s q a v) := by
  unfold State.stWrite
  with_reducible repeat' first | assumption | apply State.wr_keeps | apply State.stagedWrite_keeps | apply State.directWrite_keeps | apply ite_keeps | split

theorem State.armSet_keeps {s₀ : State} {s : State} (q : Nat) (n : Nat) (stamp : Nat) (h : Keeps s₀ s) : Keeps s₀ (State.armSet s q n stamp) := by
  unfold State.armSet
  try extract_lets
  with_reducible repeat' first | assumption | apply State.wr_keeps | apply State.setSetState_keeps | apply State.setReg_keeps | (refine Keeps.mk' ?_ rfl rfl; first | assumption | apply State.wr_keeps | apply State.setSetState_keeps | apply State.setReg_keeps) | (dsimp +zetaDelta only)

theorem State.stgCommit_keeps {s₀ : State} {s : State} (q : Nat) (n : Nat) (h : Keeps s₀ s) : Keeps s₀ (State.stgCommit s q n) := by
  unfold State.stgCommit
  with_reducible repeat' first | assumption | apply State.wr_keeps | apply State.inc_keeps | apply State.stgRefuse_keeps | apply State.armSet_keeps | split | (refine Keeps.mk' ?_ rfl rfl; first | assumption | apply State.wr_keeps | apply State.inc_keeps | apply State.stgRefuse_keeps | apply State.armSet_keeps | split)

theorem execStgCommit_keeps {s₀ : State} (_q1 : Req) (set : Fin 8) (n : Fin 4) {s : State} (h : Keeps s₀ s) : KeepsOut s₀ (execStgCommit _q1 set n s) := by
  unfold execStgCommit
  with_reducible repeat' first | apply KeepsOut.next | assumption | apply State.wr_keeps | apply State.stgCommit_keeps

theorem State.abortSet_keeps {s₀ : State} {s : State} (q : Nat) (h : Keeps s₀ s) : Keeps s₀ (State.abortSet s q) := by
  unfold State.abortSet
  try extract_lets
  with_reducible repeat' first | assumption | apply State.wr_keeps | apply State.releaseSet_keeps | apply State.endJob_keeps | split | (refine Keeps.mk' ?_ rfl rfl; first | assumption | apply State.wr_keeps | apply State.releaseSet_keeps | apply State.endJob_keeps | split) | (dsimp +zetaDelta only)

theorem State.stgAbort_keeps {s₀ : State} {s : State} (q : Nat) (h : Keeps s₀ s) : Keeps s₀ (State.stgAbort s q) := by
  unfold State.stgAbort
  with_reducible repeat' first | assumption | apply State.wr_keeps | apply State.abortSet_keeps | apply State.stgRefuse_keeps | apply ite_keeps | split

theorem execStgAbort_keeps {s₀ : State} (_q1 : Req) (set : Fin 8) {s : State} (h : Keeps s₀ s) : KeepsOut s₀ (execStgAbort _q1 set s) := by
  unfold execStgAbort
  with_reducible repeat' first | apply KeepsOut.next | assumption | apply State.wr_keeps | apply State.stgAbort_keeps

theorem State.stgCtlWrite_keeps {s₀ : State} {s : State} (q : Req) (v : Word) (h : Keeps s₀ s) : Keeps s₀ (State.stgCtlWrite s q v) := by
  unfold State.stgCtlWrite
  try extract_lets
  with_reducible repeat' first | assumption | apply State.wr_keeps | apply State.stgOpen_keeps | apply State.stgCommit_keeps | apply State.stgAbort_keeps | split | (refine Keeps.mk' ?_ rfl rfl; first | assumption | apply State.wr_keeps | apply State.stgOpen_keeps | apply State.stgCommit_keeps | apply State.stgAbort_keeps | split) | (dsimp +zetaDelta only)

theorem State.selCommit_keeps {s₀ : State} (o : State) {s : State} (h : Keeps s₀ s) : Keeps s₀ (State.selCommit o s) := by
  unfold State.selCommit
  try extract_lets
  with_reducible repeat' first | assumption | apply State.wr_keeps | apply State.forRange_keeps | apply State.refEnable_keeps | apply State.refDisable_keeps | apply State.reselectAll_keeps | (intro _) | split | (refine Keeps.mk' ?_ rfl rfl; first | assumption | apply State.wr_keeps | apply State.forRange_keeps | apply State.refEnable_keeps | apply State.refDisable_keeps | apply State.reselectAll_keeps | split) | (dsimp +zetaDelta only)

theorem State.ptpCommit_keeps {s₀ : State} (o : State) {s : State} (h : Keeps s₀ s) : Keeps s₀ (State.ptpCommit o s) := by
  unfold State.ptpCommit
  try extract_lets
  with_reducible repeat' first | assumption | apply State.wr_keeps | apply State.forRange_keeps | apply State.ptpInstEnable_keeps | (intro _) | apply ite_keeps | split | (dsimp +zetaDelta only)

theorem State.giveNext_keeps {s₀ : State} {s : State} (d : Nat) (k : Nat) (h : Keeps s₀ s) : Keeps s₀ (State.giveNext s d k) := by
  unfold State.giveNext
  with_reducible repeat' first | assumption | apply State.wr_keeps | apply State.setNext_keeps | apply State.joinHead_keeps | apply elim_keeps | (intro _)

theorem State.giveCur_keeps {s₀ : State} {s : State} (d : Nat) (k : Nat) (h : Keeps s₀ s) : Keeps s₀ (State.giveCur s d k) := by
  unfold State.giveCur
  with_reducible repeat' first | assumption | apply State.wr_keeps | apply State.emptyCur_keeps | apply State.joinHead_keeps | apply elim_keeps | (intro _) | apply ite_keeps | split

theorem State.consCommit_keeps {s₀ : State} (o : State) {s : State} (d : Nat) (k : Nat) (h : Keeps s₀ s) : Keeps s₀ (State.consCommit o s d k) := by
  unfold State.consCommit
  with_reducible repeat' first | assumption | apply State.wr_keeps | apply State.giveNext_keeps | apply State.giveCur_keeps | apply ite_keeps | split

theorem State.schCommit_keeps {s₀ : State} (o : State) {s : State} (d : Nat) (h : Keeps s₀ s) : Keeps s₀ (State.schCommit o s d) := by
  unfold State.schCommit
  try extract_lets
  with_reducible repeat' first | assumption | apply State.wr_keeps | apply State.forRange_keeps | apply State.consCommit_keeps | apply State.refill_keeps | (intro _) | apply ite_keeps | split | (dsimp +zetaDelta only)

theorem State.schedControl_keeps {s₀ : State} {s : State} (d : Nat) (p : Nat) (b : Nat) (h : Keeps s₀ s) : Keeps s₀ (State.schedControl s d p b) := by
  unfold State.schedControl
  try extract_lets
  with_reducible repeat' first | assumption | apply State.wr_keeps | apply State.refuse_keeps | apply State.schCommit_keeps | apply foldl_keeps | (intro _) | apply ite_keeps | split | (dsimp +zetaDelta only)

theorem State.chanCommit_keeps {s₀ : State} (o : State) {s : State} (c : Nat) (n : Nat) (stamp : Nat) (h : Keeps s₀ s) : Keeps s₀ (State.chanCommit o s c n stamp) := by
  unfold State.chanCommit
  try extract_lets
  with_reducible repeat' first | assumption | apply State.wr_keeps | (intro _) | apply ite_keeps | split | (refine Keeps.mk' ?_ rfl rfl; first | assumption | apply State.wr_keeps | apply ite_keeps | split) | (dsimp +zetaDelta only)

theorem State.crownBack_keeps {s₀ : State} (o : State) {s : State} (d : Nat) (h : Keeps s₀ s) : Keeps s₀ (State.crownBack o s d) := by
  unfold State.crownBack
  with_reducible repeat' first | assumption | apply State.wr_keeps | apply State.setKept_keeps | (intro _) | apply ite_keeps | split

theorem State.audCommit_keeps {s₀ : State} (o : State) {s : State} (t : List Nat) (l : Nat) (stamp : Nat) (h : Keeps s₀ s) : Keeps s₀ (State.audCommit o s t l stamp) := by
  unfold State.audCommit
  try extract_lets
  with_reducible repeat' first | assumption | apply State.wr_keeps | apply State.audPortEnable_keeps | apply State.audEnable_keeps | apply State.showMembers_keeps | apply foldl_keeps | (intro _) | apply ite_keeps | split | (dsimp +zetaDelta only)

theorem State.committed_keeps {s₀ : State} (o : State) {s : State} (t : List Nat) (n : Nat) (stamp : Nat) (h : Keeps s₀ s) : Keeps s₀ (State.committed o s t n stamp) := by
  unfold State.committed
  try extract_lets
  with_reducible repeat' first | assumption | apply State.wr_keeps | apply State.ptpCommit_keeps | apply State.selCommit_keeps | apply State.forRange_keeps | apply State.schCommit_keeps | apply State.ingCommit_keeps | apply State.chanCommit_keeps | apply State.cmpCommit_keeps | apply State.crownBack_keeps | apply State.encCommit_keeps | apply State.decCommit_keeps | apply State.showLedgers_keeps | apply State.audCommit_keeps | apply State.flowsCommit_keeps | apply State.pairsCommit_keeps | apply State.crcCommit_keeps | apply State.lanesCommit_keeps | apply State.modeUpdate_keeps | apply foldl_keeps | (intro _) | apply ite_keeps | split | (dsimp +zetaDelta only)

theorem State.applySet_keeps {s₀ : State} {s : State} (q : Nat) (h : Keeps s₀ s) : Keeps s₀ (State.applySet s q) := by
  unfold State.applySet
  try extract_lets
  with_reducible repeat' first | assumption | apply State.wr_keeps | apply State.overlay_keeps | apply State.releaseSet_keeps | apply State.incWrap_keeps | apply State.event_keeps | apply State.committed_keeps | apply State.endJob_keeps | (intro _) | split | (refine Keeps.mk' ?_ rfl rfl; first | assumption | apply State.wr_keeps | apply State.overlay_keeps | apply State.releaseSet_keeps | apply State.incWrap_keeps | apply State.event_keeps | apply State.committed_keeps | apply State.endJob_keeps | split) | (dsimp +zetaDelta only)

theorem execCommitApply_keeps {s₀ : State} (set : Fin 8) {s : State} (h : Keeps s₀ s) : KeepsOut s₀ (execCommitApply set s) := by
  unfold execCommitApply
  with_reducible repeat' first | apply KeepsOut.next | assumption | apply State.wr_keeps | apply State.when_keeps | apply State.applySet_keeps | (intro _)

theorem State.capBegin_keeps {s₀ : State} {s : State} (r : Nat) (d : Desc) (h : Keeps s₀ s) : Keeps s₀ (State.capBegin s r d) := by
  unfold State.capBegin
  try extract_lets
  with_reducible repeat' first | assumption | apply State.wr_keeps | apply State.setRing_keeps | apply State.startJob_keeps | apply State.setJob_keeps | apply State.dropHeld_keeps | apply ite_keeps | split | (refine Keeps.mk' ?_ rfl rfl; first | assumption | apply State.wr_keeps | apply State.setRing_keeps | apply State.startJob_keeps | apply State.setJob_keeps | apply State.dropHeld_keeps | apply ite_keeps | split) | (dsimp +zetaDelta only)

theorem State.capRefused_keeps {s₀ : State} {s : State} (code : Nat) (q : Option Nat) (status : List Nat) (h : Keeps s₀ s) : Keeps s₀ (State.capRefused s code q status) := by
  unfold State.capRefused
  with_reducible repeat' first | assumption | apply State.wr_keeps | apply State.inc_keeps | apply State.stgCode_keeps

theorem execCapsule_keeps {s₀ : State} (r : Fin 4096) {s : State} (h : Keeps s₀ s) : KeepsOut s₀ (execCapsule r s) := by
  unfold execCapsule
  try extract_lets
  with_reducible repeat' first | apply KeepsOut.next | assumption | apply State.wr_keeps | apply State.popFetched_keeps | apply State.capBegin_keeps | apply State.capRefused_keeps | apply State.refuseDesc_keeps | apply ite_keeps | split | (refine Keeps.mk' ?_ rfl rfl; first | assumption | apply State.wr_keeps | apply State.popFetched_keeps | apply State.capBegin_keeps | apply State.capRefused_keeps | apply State.refuseDesc_keeps | apply ite_keeps | split) | (dsimp +zetaDelta only)

theorem execCapsuleStart_keeps {s₀ : State} (r : Fin 4096) {s : State} (h : Keeps s₀ s) : KeepsOut s₀ (execCapsuleStart r s) := by
  unfold execCapsuleStart
  with_reducible repeat' first | apply KeepsOut.next | assumption | apply State.wr_keeps | apply State.when_keeps | apply State.setJob_keeps | (intro _) | split | (refine Keeps.mk' ?_ rfl rfl; first | assumption | apply State.wr_keeps | apply State.when_keeps | apply State.setJob_keeps | split)

theorem execCapsuleHoldExpired_keeps {s₀ : State} (r : Fin 4096) {s : State} (h : Keeps s₀ s) : KeepsOut s₀ (execCapsuleHoldExpired r s) := by
  unfold execCapsuleHoldExpired
  with_reducible repeat' first | apply KeepsOut.next | assumption | apply State.wr_keeps | apply State.dropHeld_keeps

theorem State.stageRec_keeps {s₀ s : State} (q : Nat) (r : CapRec) (h : Keeps s₀ s) : Keeps s₀ (s.stageRec q r) := by
  cases r with
  | regs rs => exact foldl_keeps (fun u x hu => State.stage_keeps _ _ _ _ hu) h
  | grove g => exact h.mk' rfl rfl

theorem State.image_keeps {s₀ s : State} (im : List Word) (n : Nat) (h : Keeps s₀ s) : Keeps s₀ (s.image im n).1 := by
  have hc : ∀ (u : State) c q st (o : Option (Nat × Nat)), Keeps s₀ u → Keeps s₀ (u.capRefused c q st, o).1 := fun u c q st o hu => State.capRefused_keeps c q st hu
  unfold State.image
  extract_lets q
  split
  · exact hc _ _ _ _ _ h
  · next rs _ =>
    extract_lets c t u
    have g : Keeps s₀ t := foldl_keeps (fun u x hu => State.stageRec_keeps _ _ hu) (State.setSetState_keeps _ _ h)
    clear_value t
    split
    · exact hc _ _ _ _ _ h
    · split
      · exact g
      · split
        · exact hc _ _ _ _ _ (ite_keeps (State.releaseSet_keeps _ g) g)
        · exact State.armSet_keeps _ _ _ g

theorem State.capReads_keeps {s₀ : State} {s : State} (j : Job) (n : Nat) (h : Keeps s₀ s) : Keeps s₀ (State.capReads s j n) := by
  unfold State.capReads
  with_reducible repeat' first | assumption | apply State.wr_keeps | apply State.xlateRange_keeps

theorem State.capFill_keeps {s₀ : State} {s : State} (k : Nat) (j : Job) (n : Nat) (data : List Byte) (h : Keeps s₀ s) : Keeps s₀ (State.capFill s k j n data) := by
  unfold State.capFill
  with_reducible repeat' first | assumption | apply State.wr_keeps | apply State.capReads_keeps | apply State.setJob_keeps | (refine Keeps.mk' ?_ rfl rfl; first | assumption | apply State.wr_keeps | apply State.capReads_keeps | apply State.setJob_keeps)

theorem State.capRead_keeps {s₀ : State} {s : State} (k : Nat) (image : List Word) (h : Keeps s₀ s) : Keeps s₀ (State.capRead s k image) := by
  unfold State.capRead
  try extract_lets
  with_reducible repeat' first | assumption | apply State.wr_keeps | apply State.capFill_keeps | apply State.endJob_keeps | apply State.capReads_keeps | apply State.image_keeps | apply State.setJob_keeps | refine Keeps.fst ‹_ = (_, _)› ?_ | apply ite_keeps | split | (refine Keeps.mk' ?_ rfl rfl; first | assumption | apply State.wr_keeps | apply State.capFill_keeps | apply State.endJob_keeps | apply State.capReads_keeps | apply State.image_keeps | apply State.setJob_keeps | apply ite_keeps | split) | (dsimp +zetaDelta only)

theorem execCapsuleReadComplete_keeps {s₀ : State} (r : Fin 4096) (idx : Word) (image : List Word) {s : State} (h : Keeps s₀ s) : KeepsOut s₀ (execCapsuleReadComplete r idx image s) := by
  unfold execCapsuleReadComplete
  with_reducible repeat' first | apply KeepsOut.next | assumption | apply State.wr_keeps | apply State.capRead_keeps

end Sys2Proof.Machine
end

