-- ==== Sys2Proof/Laws/Keeps/Read.lean ====
section
/-!
SUPPORT. Sys2Proof/Laws/Keeps/Read.lean: what each operation of Machine/Read.lean keeps (Keeps of Safety.lean).
-/
namespace Sys2Proof.Machine
set_option linter.all false

theorem touchedAt_mem {o : Nat} {hs : List Touched} {x : Touched × Nat} (e : touchedAt o hs = some x) : x.1 ∈ hs := by
  induction hs with
  | nil => simp [touchedAt] at e
  | cons h hs ih =>
    unfold touchedAt at e
    split at e
    · cases e; exact List.mem_cons_self
    · exact List.mem_cons_of_mem _ (ih e)
theorem touchedOf_keeps {s₀ : State} (q : Req) (d : Nat) (y : Touched) (m : y ∈ touchedOf q d) : ∀ i s, Keeps s₀ s → Keeps s₀ (y.act s i) := by
  revert y
  simp only [touchedOf, List.forall_mem_append, List.forall_mem_cons]
  refine ⟨?_, ?_, ?_, ?_, fun _ m => absurd m List.not_mem_nil⟩
  · split
    · simp only [List.forall_mem_cons]
      exact ⟨fun _ _ h => State.nowRead_keeps _ _ h, fun _ _ h => State.clkNsRead_keeps _ h, fun _ _ h => State.m0Read_keeps _ h, fun _ m => absurd m List.not_mem_nil⟩
    · simp only [List.forall_mem_cons]
      exact ⟨fun _ _ h => State.coefAccess_keeps _ _ h, fun _ m => absurd m List.not_mem_nil⟩
  · exact fun _ _ h => State.usecRead_keeps _ h
  · exact fun _ _ h => State.takeRead_keeps _ _ h
  · exact fun _ _ h => State.crcClaim_keeps _ _ h
theorem State.readThrough_keeps {s₀ s : State} (q : Req) (a : Nat) (h : Keeps s₀ s) : Keeps s₀ (s.readThrough q a).1 := by
  unfold State.readThrough
  split
  · next x i e => exact (touchedOf_keeps q _ x (touchedAt_mem e) i s h).mk' rfl rfl
  · exact h

end Sys2Proof.Machine
end

