-- ==== Sys2Proof/Laws/Keeps/Crc.lean ====
section
/-!
SUPPORT. Sys2Proof/Laws/Keeps/Crc.lean: what each operation of Machine/Crc.lean keeps (Keeps of Safety.lean).
-/
namespace Sys2Proof.Machine
set_option linter.all false

theorem State.fabWord_keeps {s₀ s : State} (d a : Nat) (h : Keeps s₀ s) : Keeps s₀ (s.fabWord d a).1 := by
  unfold State.fabWord
  split
  · exact h
  · exact h
  · next off _ =>
    extract_lets r
    split
    · exact h
    · have g := State.readThrough_keeps (engineReq d) r h
      generalize s.readThrough (engineReq d) r = p at g ⊢
      obtain ⟨t, v⟩ := p
      exact g
  · exact h
  · exact h

theorem State.fabWords_keeps {s₀ s : State} (d a n : Nat) (h : Keeps s₀ s) : Keeps s₀ (s.fabWords d a n).1 := by
  induction n generalizing s a with
  | zero => exact h
  | succ n ih => exact ih _ (State.fabWord_keeps _ _ h)
theorem State.fabBytes_keeps {s₀ s : State} (d a n : Nat) (h : Keeps s₀ s) : Keeps s₀ (s.fabBytes d a n).1 :=
  State.fabWords_keeps _ _ _ h

theorem State.crcStart_keeps {s₀ : State} {s : State} (d : Nat) (k : Nat) (op : Nat) (h : Keeps s₀ s) : Keeps s₀ (State.crcStart s d k op) := by
  unfold State.crcStart
  try extract_lets
  with_reducible repeat' first | assumption | apply State.wr_keeps | apply State.crcStatus_keeps | apply State.setCrcOp_keeps | apply ite_keeps | split | (dsimp +zetaDelta only)

theorem crcStep_keeps {s₀ : State} (d poly src : Nat) (dst : Option Nat) (len : Nat) (r : State × Nat × Nat × Bool) (u : Nat) (h : Keeps s₀ r.1) :
    Keeps s₀ (crcStep d poly src dst len r u).1 := by
  obtain ⟨s, v, done, ok⟩ := r
  unfold crcStep
  dsimp only at h ⊢
  split
  · exact h
  · have g := State.fabBytes_keeps d (src + 16 * u) (min 16 (len - 16 * u)) h
    split
    · next e => rw [e] at g; exact State.fabFail_keeps _ _ _ _ g
    · next e => rw [e] at g; exact g
    · next e =>
      rw [e] at g
      split
      · exact State.fabPut_keeps _ _ _ g
      · exact State.fabFail_keeps _ _ _ _ g

theorem State.crcRun_keeps {s₀ s : State} (d k src : Nat) (dst : Option Nat) (n : Nat) (h : Keeps s₀ s) : Keeps s₀ (s.crcRun d k src dst n).1 := by
  unfold State.crcRun
  have g : ∀ (l : List Nat) (r : State × Nat × Nat × Bool), Keeps s₀ r.1 → Keeps s₀ (l.foldl (crcStep d (s.crcPoly d k) src dst n) r).1 := by
    intro l
    induction l with
    | nil => exact fun r hr => hr
    | cons u l ih => exact fun r hr => ih _ (crcStep_keeps _ _ _ _ _ _ _ hr)
  exact g _ _ h

theorem State.crcFinish_keeps {s₀ : State} {s : State} (d : Nat) (k : Nat) (h : Keeps s₀ s) : Keeps s₀ (State.crcFinish s d k) := by
  unfold State.crcFinish
  try extract_lets
  with_reducible repeat' first | assumption | apply State.wr_keeps | apply State.crcRun_keeps | apply crcStep_keeps | apply State.setCrcValue_keeps | apply State.setCrcOp_keeps | apply State.crcStatus_keeps | apply State.fabPut_keeps | apply State.fabFail_keeps | apply State.fabBytes_keeps | refine Keeps.fst ‹_ = (_, _)› ?_ | (intro _) | apply ite_keeps | split | (refine Keeps.mk' ?_ rfl rfl; first | assumption | apply State.wr_keeps | apply State.crcRun_keeps | apply crcStep_keeps | apply State.setCrcValue_keeps | apply State.setCrcOp_keeps | apply State.crcStatus_keeps | apply State.fabPut_keeps | apply State.fabFail_keeps | apply State.fabBytes_keeps | apply ite_keeps | split) | (dsimp +zetaDelta only)

theorem State.crcAbort_keeps {s₀ : State} {s : State} (d : Nat) (k : Nat) (h : Keeps s₀ s) : Keeps s₀ (State.crcAbort s d k) := by
  unfold State.crcAbort
  try extract_lets
  with_reducible repeat' first | assumption | apply State.wr_keeps | apply State.tick_keeps | apply State.crcRun_keeps | apply State.setCrcValue_keeps | apply State.setCrcOp_keeps | apply State.crcStatus_keeps | refine Keeps.fst ‹_ = (_, _)› ?_ | apply ite_keeps | split | (refine Keeps.mk' ?_ rfl rfl; first | assumption | apply State.wr_keeps | apply State.tick_keeps | apply State.crcRun_keeps | apply State.setCrcValue_keeps | apply State.setCrcOp_keeps | apply State.crcStatus_keeps | apply ite_keeps | split) | (dsimp +zetaDelta only)

theorem State.crcCtlWrite_keeps {s₀ : State} {s : State} (d : Nat) (k : Nat) (v : Word) (h : Keeps s₀ s) : Keeps s₀ (State.crcCtlWrite s d k v) := by
  unfold State.crcCtlWrite
  try extract_lets
  with_reducible repeat' first | assumption | apply State.wr_keeps | apply State.crcDrop_keeps | apply State.setCrcValue_keeps | apply State.crcStatus_keeps | apply State.crcAbort_keeps | apply State.crcStart_keeps | apply ite_keeps | split | (refine Keeps.mk' ?_ rfl rfl; first | assumption | apply State.wr_keeps | apply State.crcDrop_keeps | apply State.setCrcValue_keeps | apply State.crcStatus_keeps | apply State.crcAbort_keeps | apply State.crcStart_keeps | apply ite_keeps | split) | (dsimp +zetaDelta only)

theorem execCrcReset_keeps {s₀ : State} (d : Fin 8) (k : Fin 16) {s : State} (h : Keeps s₀ s) : KeepsOut s₀ (execCrcReset d k s) := by
  unfold execCrcReset
  with_reducible repeat' first | apply KeepsOut.next | assumption | apply State.wr_keeps | apply State.when_keeps | apply State.crcCtlWrite_keeps | (intro _)

theorem execCrcCompute_keeps {s₀ : State} (d : Fin 8) (k : Fin 16) {s : State} (h : Keeps s₀ s) : KeepsOut s₀ (execCrcCompute d k s) := by
  unfold execCrcCompute
  with_reducible repeat' first | apply KeepsOut.next | assumption | apply State.wr_keeps | apply State.when_keeps | apply State.crcCtlWrite_keeps | (intro _)

theorem execCrcAppend_keeps {s₀ : State} (d : Fin 8) (k : Fin 16) {s : State} (h : Keeps s₀ s) : KeepsOut s₀ (execCrcAppend d k s) := by
  unfold execCrcAppend
  with_reducible repeat' first | apply KeepsOut.next | assumption | apply State.wr_keeps | apply State.when_keeps | apply State.crcCtlWrite_keeps | (intro _)

theorem execCrcStrip_keeps {s₀ : State} (d : Fin 8) (k : Fin 16) {s : State} (h : Keeps s₀ s) : KeepsOut s₀ (execCrcStrip d k s) := by
  unfold execCrcStrip
  with_reducible repeat' first | apply KeepsOut.next | assumption | apply State.wr_keeps | apply State.when_keeps | apply State.crcCtlWrite_keeps | (intro _)

theorem execCrcAbort_keeps {s₀ : State} (d : Fin 8) (k : Fin 16) {s : State} (h : Keeps s₀ s) : KeepsOut s₀ (execCrcAbort d k s) := by
  unfold execCrcAbort
  with_reducible repeat' first | apply KeepsOut.next | assumption | apply State.wr_keeps | apply State.when_keeps | apply State.crcCtlWrite_keeps | (intro _)

theorem execCrcBadOp_keeps {s₀ : State} (d : Fin 8) (k : Fin 16) (seven : Bool) {s : State} (h : Keeps s₀ s) : KeepsOut s₀ (execCrcBadOp d k seven s) := by
  unfold execCrcBadOp
  with_reducible repeat' first | apply KeepsOut.next | assumption | apply State.wr_keeps | apply State.when_keeps | apply State.crcCtlWrite_keeps | (intro _)

theorem execCrcOpDone_keeps {s₀ : State} (d : Fin 8) (k : Fin 16) {s : State} (h : Keeps s₀ s) : KeepsOut s₀ (execCrcOpDone d k s) := by
  unfold execCrcOpDone
  with_reducible repeat' first | apply KeepsOut.next | assumption | apply State.wr_keeps | apply State.crcFinish_keeps

theorem State.spiDone_keeps {s₀ : State} {s : State} (d : Nat) (data : List Byte) (wp : Bool) (h : Keeps s₀ s) : Keeps s₀ (State.spiDone s d data wp) := by
  unfold State.spiDone
  try extract_lets
  with_reducible repeat' first | assumption | apply State.wr_keeps | apply State.fabFail_keeps | apply State.fabBytes_keeps | apply State.fabPut_keeps | refine Keeps.fst ‹_ = (_, _)› ?_ | (intro _) | apply ite_keeps | split | (refine Keeps.mk' ?_ rfl rfl; first | assumption | apply State.wr_keeps | apply State.fabFail_keeps | apply State.fabBytes_keeps | apply State.fabPut_keeps | apply ite_keeps | split) | (dsimp +zetaDelta only)

theorem execBootSpiDone_keeps {s₀ : State} (d : Fin 8) (data : List Byte) (wp : Bool) {s : State} (h : Keeps s₀ s) : KeepsOut s₀ (execBootSpiDone d data wp s) := by
  unfold execBootSpiDone
  with_reducible repeat' first | apply KeepsOut.next | assumption | apply State.wr_keeps | apply State.when_keeps | apply State.spiDone_keeps | (intro _)

end Sys2Proof.Machine
end

