-- ==== Sys2Proof/Laws/Keeps/Bus.lean ====
section
/-!
SUPPORT. Sys2Proof/Laws/Keeps/Bus.lean: what each operation of Machine/Bus.lean keeps (Keeps of Safety.lean).
-/
namespace Sys2Proof.Machine
set_option linter.all false

theorem State.tlCfgWrite_keeps {s₀ : State} {s : State} (n : Nat) (v : Word) (h : Keeps s₀ s) : Keeps s₀ (State.tlCfgWrite s n v) := by
  unfold State.tlCfgWrite
  with_reducible repeat' first | assumption | apply State.wr_keeps | apply State.refuse_keeps | apply State.setReg_keeps | apply ite_keeps | split

theorem State.hifRefuse_keeps {s₀ : State} {s : State} (code : Nat) (a : Nat) (h : Keeps s₀ s) : Keeps s₀ (State.hifRefuse s code a) := by
  unfold State.hifRefuse
  with_reducible repeat' first | assumption | apply State.wr_keeps | apply State.refuse_keeps

theorem State.hifCtlWrite_keeps {s₀ : State} {s : State} (v : Word) (h : Keeps s₀ s) : Keeps s₀ (State.hifCtlWrite s v) := by
  unfold State.hifCtlWrite
  try extract_lets
  with_reducible repeat' first | assumption | apply State.wr_keeps | apply State.hifRefuse_keeps | (intro _) | apply ite_keeps | split | (dsimp +zetaDelta only)

theorem State.hdmSizeWrite_keeps {s₀ : State} {s : State} (d : Nat) (v : Word) (h : Keeps s₀ s) : Keeps s₀ (State.hdmSizeWrite s d v) := by
  unfold State.hdmSizeWrite
  try extract_lets
  with_reducible repeat' first | assumption | apply State.wr_keeps | apply State.hifRefuse_keeps | apply ite_keeps | split | (dsimp +zetaDelta only)

theorem State.ringRegWrite_keeps {s₀ : State} {s : State} (r : Nat) (o : Nat) (v : Word) (h : Keeps s₀ s) : Keeps s₀ (State.ringRegWrite s r o v) := by
  unfold State.ringRegWrite
  try extract_lets
  with_reducible repeat' first | assumption | apply State.wr_keeps | apply State.ringCtlWrite_keeps | apply State.ringRefuse_keeps | apply State.setReg_keeps | apply ite_keeps | split | (dsimp +zetaDelta only)

theorem State.xltRingWrite_keeps {s₀ : State} {s : State} (r : Nat) (a : Nat) (v : Word) (h : Keeps s₀ s) : Keeps s₀ (State.xltRingWrite s r a v) := by
  unfold State.xltRingWrite
  with_reducible repeat' first | assumption | apply State.wr_keeps | apply State.refuse_keeps | apply State.setReg_keeps | apply ite_keeps | split

theorem State.poolRefuse_keeps {s₀ : State} {s : State} (d : Nat) (code : Nat) (a : Nat) (h : Keeps s₀ s) : Keeps s₀ (State.poolRefuse s d code a) := by
  unfold State.poolRefuse
  with_reducible repeat' first | assumption | apply State.wr_keeps | apply State.refuse_keeps

theorem State.poolAreaWrite_keeps {s₀ : State} {s : State} (d : Nat) (a : Nat) (v : Word) (h : Keeps s₀ s) : Keeps s₀ (State.poolAreaWrite s d a v) := by
  unfold State.poolAreaWrite
  try extract_lets
  with_reducible repeat' first | assumption | apply State.wr_keeps | apply State.setReg_keeps | apply State.poolRefuse_keeps | (intro _) | apply ite_keeps | split | (dsimp +zetaDelta only)

theorem State.eobjSelWrite_keeps {s₀ : State} {s : State} (d : Nat) (v : Word) (h : Keeps s₀ s) : Keeps s₀ (State.eobjSelWrite s d v) := by
  unfold State.eobjSelWrite
  with_reducible repeat' first | assumption | apply State.wr_keeps | apply State.poolRefuse_keeps | apply State.setReg_keeps | apply ite_keeps | split

theorem State.lutSelWrite_keeps {s₀ : State} {s : State} (d : Nat) (k : Nat) (v : Word) (h : Keeps s₀ s) : Keeps s₀ (State.lutSelWrite s d k v) := by
  unfold State.lutSelWrite
  try extract_lets
  with_reducible repeat' first | assumption | apply State.wr_keeps | apply State.refuse_keeps | apply State.setReg_keeps | apply ite_keeps | split | (dsimp +zetaDelta only)

theorem State.laneCtlBus_keeps {s₀ : State} {s : State} (n : Nat) (v : Word) (h : Keeps s₀ s) : Keeps s₀ (State.laneCtlBus s n v) := by
  unfold State.laneCtlBus
  with_reducible repeat' first | assumption | apply State.wr_keeps | apply State.tick_keeps | apply State.chkCount_keeps | apply State.laneCtlWrite_keeps | apply ite_keeps | split

theorem State.msixWrite_keeps {s₀ : State} {s : State} (a : Nat) (v : Word) (h : Keeps s₀ s) : Keeps s₀ (State.msixWrite s a v) := by
  unfold State.msixWrite
  try extract_lets
  with_reducible repeat' first | assumption | apply State.wr_keeps | apply State.setReg_keeps | apply State.send_keeps | apply ite_keeps | split | (dsimp +zetaDelta only)

theorem State.clsWrite_keeps {s₀ : State} {s : State} (q : Req) (a : Nat) (v : Word) (h : Keeps s₀ s) : Keeps s₀ (State.clsWrite s q a v) := by
  unfold State.clsWrite
  with_reducible repeat' first | assumption | apply State.wr_keeps | apply State.stWrite_keeps | apply State.setReg_keeps | split | (refine Keeps.mk' ?_ rfl rfl; first | assumption | apply State.wr_keeps | apply State.stWrite_keeps | apply State.setReg_keeps | split)

theorem State.gateWrite_keeps {s₀ : State} {s : State} (q : Req) (p : Nat) (k : Nat) (v : Word) (h : Keeps s₀ s) : Keeps s₀ (State.gateWrite s q p k v) := by
  unfold State.gateWrite
  try extract_lets
  with_reducible repeat' first | assumption | apply State.wr_keeps | apply State.gateCtlWrite_keeps | apply State.refuse_keeps | apply State.clsWrite_keeps | apply ite_keeps | split | (dsimp +zetaDelta only)

theorem hookAt_mem {o : Nat} {hs : List Hook} {x : Hook × Nat} (e : hookAt o hs = some x) : x.1 ∈ hs := by
  induction hs with
  | nil => simp [hookAt] at e
  | cons h hs ih =>
    unfold hookAt at e
    split at e
    · cases e; exact List.mem_cons_self
    · exact List.mem_cons_of_mem _ (ih e)
theorem dieHooks_keeps {s₀ : State} (d : Nat) (y : Hook) (m : y ∈ dieHooks d) : ∀ i v s, Keeps s₀ s → Keeps s₀ (y.act s i v) := by
  revert y
  simp only [dieHooks, List.forall_mem_cons]
  refine ⟨?_, ?_, ?_, ?_, ?_, ?_, ?_, ?_, ?_, ?_, ?_, ?_, ?_, ?_, ?_, ?_, ?_, ?_, ?_, ?_, ?_, ?_, fun _ m => absurd m List.not_mem_nil⟩
  all_goals
    intro i v s h
    repeat' first | with_reducible assumption | with_reducible apply ite_keeps | (with_reducible apply State.when_keeps; intro _ _) | with_reducible apply State.bootSramWrite_keeps | with_reducible apply State.causeWrite_keeps | with_reducible apply State.crcCfgWrite_keeps | with_reducible apply State.crcCtlWrite_keeps | with_reducible apply State.crcData16_keeps | with_reducible apply State.crcData32_keeps | with_reducible apply State.crcData8_keeps | with_reducible apply State.crcPlainWrite_keeps | with_reducible apply State.crcValueWrite_keeps | with_reducible apply State.endWrite_keeps | with_reducible apply State.fabErrWrite_keeps | with_reducible apply State.kickWrite_keeps | with_reducible apply State.queueCtlWrite_keeps | with_reducible apply State.remapWrite_keeps | with_reducible apply State.thermCfgWrite_keeps | with_reducible apply State.wdtCfgWrite_keeps | with_reducible apply State.wm3Write_keeps
theorem rootHooksLow_keeps {s₀ : State} (q : Req) (y : Hook) (m : y ∈ rootHooksLow q) : ∀ i v s, Keeps s₀ s → Keeps s₀ (y.act s i v) := by
  revert y
  simp only [rootHooksLow, List.forall_mem_cons]
  refine ⟨?_, ?_, ?_, ?_, ?_, ?_, ?_, ?_, ?_, ?_, ?_, ?_, ?_, ?_, ?_, ?_, ?_, ?_, ?_, ?_, ?_, ?_, fun _ m => absurd m List.not_mem_nil⟩
  all_goals
    intro i v s h
    repeat' first | with_reducible assumption | with_reducible apply ite_keeps | (with_reducible apply State.when_keeps; intro _ _) | with_reducible apply State.adjWrite_keeps | with_reducible apply State.capture_keeps | with_reducible apply State.flowOpWrite_keeps | with_reducible apply State.hdmSizeWrite_keeps | with_reducible apply State.hifCtlWrite_keeps | with_reducible apply State.msixWrite_keeps | with_reducible apply State.ppsWrite_keeps | with_reducible apply State.ptpCtlWrite_keeps | with_reducible apply State.ringRegWrite_keeps | with_reducible apply State.selCtlWrite_keeps | with_reducible apply State.slopeWrite_keeps | with_reducible apply State.stepWrite_keeps | with_reducible apply State.stgCtlWrite_keeps | with_reducible apply State.tlCfgWrite_keeps | with_reducible apply State.tlCtlWrite_keeps | with_reducible apply State.wselWrite_keeps | with_reducible apply State.xltFlush_keeps | with_reducible apply State.xltRingWrite_keeps
theorem rootHooksHigh_keeps {s₀ : State} (q : Req) (y : Hook) (m : y ∈ rootHooksHigh q) : ∀ i v s, Keeps s₀ s → Keeps s₀ (y.act s i v) := by
  revert y
  simp only [rootHooksHigh, List.forall_mem_cons]
  refine ⟨?_, ?_, ?_, ?_, ?_, ?_, ?_, ?_, ?_, ?_, ?_, ?_, ?_, ?_, ?_, ?_, ?_, ?_, ?_, ?_, ?_, ?_, ?_, ?_, ?_, ?_, ?_, ?_, fun _ m => absurd m List.not_mem_nil⟩
  all_goals
    intro i v s h
    repeat' first | with_reducible assumption | with_reducible apply ite_keeps | (with_reducible apply State.when_keeps; intro _ _) | with_reducible apply State.audHostWrite_keeps | with_reducible apply State.gateWrite_keeps | with_reducible apply State.showQuad_keeps | with_reducible apply State.clsWrite_keeps | with_reducible apply State.globalWrite_keeps | with_reducible apply State.grvCtlWrite_keeps | with_reducible apply State.grvPathWrite_keeps | with_reducible apply State.hbWrite_keeps | with_reducible apply State.histClr_keeps | with_reducible apply State.keyWrite_keeps | with_reducible apply State.laneCtlBus_keeps | with_reducible apply State.laneInjWrite_keeps | with_reducible apply State.lanePatWrite_keeps | with_reducible apply State.laneTmoWrite_keeps | with_reducible apply State.mboxGo_keeps | with_reducible apply State.mboxWrite_keeps | with_reducible apply State.modeReq_keeps | with_reducible apply State.pairCtlWrite_keeps | with_reducible apply State.pwrCtlWrite_keeps | with_reducible apply State.pwrPathWrite_keeps | with_reducible apply State.recGo_keeps | with_reducible apply State.recStreamWrite_keeps | with_reducible apply State.sampleWrite_keeps | with_reducible apply State.shapeWrite_keeps | with_reducible apply State.uciPatWrite_keeps
theorem crownHooks_keeps {s₀ : State} (d : Nat) (y : Hook) (m : y ∈ crownHooks d) : ∀ i v s, Keeps s₀ s → Keeps s₀ (y.act s i v) := by
  revert y
  simp only [crownHooks, List.forall_mem_cons]
  refine ⟨?_, ?_, ?_, ?_, ?_, ?_, ?_, ?_, ?_, ?_, ?_, ?_, ?_, ?_, ?_, ?_, ?_, ?_, ?_, ?_, ?_, fun _ m => absurd m List.not_mem_nil⟩
  all_goals
    intro i v s h
    repeat' first | with_reducible assumption | with_reducible apply ite_keeps | (with_reducible apply State.when_keeps; intro _ _) | with_reducible apply State.coefAccess_keeps | with_reducible apply State.coresWrite_keeps | with_reducible apply State.flatWrite_keeps | with_reducible apply State.eobjSelWrite_keeps | with_reducible apply State.eobjWrite_keeps | with_reducible apply State.hbm1500Write_keeps | with_reducible apply State.hbmCfgWrite_keeps | with_reducible apply State.hbmCtlWrite_keeps | with_reducible apply State.hbmDlyWrite_keeps | with_reducible apply State.hbmMapWrite_keeps | with_reducible apply State.hbmRhWrite_keeps | with_reducible apply State.hbmTimingWrite_keeps | with_reducible apply State.hbmTrainWrite_keeps | with_reducible apply State.lutData0_keeps | with_reducible apply State.lutData1_keeps | with_reducible apply State.lutSelWrite_keeps | with_reducible apply State.poolAreaWrite_keeps | with_reducible apply State.reqWrite_keeps
theorem State.regWrite_keeps {s₀ s : State} (q : Req) (a : Nat) (v : Word) (h : Keeps s₀ s) : Keeps s₀ (s.regWrite q a v) := by
  unfold State.regWrite
  split
  · next x i e =>
    have m : x ∈ _ := hookAt_mem e
    clear e
    unfold hooksOf at m
    split at m
    · rcases List.mem_append.1 m with m | m
      · rcases List.mem_append.1 m with m | m
        · exact rootHooksLow_keeps q x m i v s h
        · exact rootHooksHigh_keeps q x m i v s h
      · exact dieHooks_keeps 0 x m i v s h
    · rcases List.mem_append.1 m with m | m
      · exact crownHooks_keeps _ x m i v s h
      · exact dieHooks_keeps _ x m i v s h
  · exact State.clsWrite_keeps _ _ _ h

theorem State.barWrite_keeps {s₀ : State} {s : State} (q : Req) (a : Nat) (v : Word) (h : Keeps s₀ s) : Keeps s₀ (State.barWrite s q a v) := by
  unfold State.barWrite
  try extract_lets
  with_reducible repeat' first | assumption | apply State.wr_keeps | apply State.bar2Write_keeps | apply State.fabErr_keeps | apply State.when_keeps | apply State.regWrite_keeps | (intro _) | apply ite_keeps | split | (dsimp +zetaDelta only)

theorem State.periphWrite_keeps {s₀ : State} {s : State} (d : Nat) (a : Nat) (v : Word) (h : Keeps s₀ s) : Keeps s₀ (State.periphWrite s d a v) := by
  unfold State.periphWrite
  try extract_lets
  with_reducible repeat' first | assumption | apply State.wr_keeps | apply State.spiWrite_keeps | apply State.setReg_keeps | apply ite_keeps | split | (dsimp +zetaDelta only)

theorem State.coreWrite_keeps {s₀ : State} {s : State} (d : Fin 8) (k : Fin 4) (a : Nat) (v : Word) (h : Keeps s₀ s) : Keeps s₀ (State.coreWrite s d k a v) := by
  unfold State.coreWrite
  try extract_lets
  with_reducible repeat' first | assumption | apply State.wr_keeps | apply State.fabErr_keeps | apply State.periphWrite_keeps | apply State.barWrite_keeps | apply State.fabPut_keeps | apply State.fabFail_keeps | apply ite_keeps | split | (refine Keeps.mk' ?_ rfl rfl; first | assumption | apply State.wr_keeps | apply State.fabErr_keeps | apply State.periphWrite_keeps | apply State.barWrite_keeps | apply State.fabPut_keeps | apply State.fabFail_keeps | apply ite_keeps | split) | (dsimp +zetaDelta only)

theorem State.busWrite_keeps {s₀ : State} {s : State} (q : Req) (a : Nat) (v : Word) (h : Keeps s₀ s) : Keeps s₀ (State.busWrite s q a v) := by
  unfold State.busWrite
  with_reducible repeat' first | assumption | apply State.wr_keeps | apply State.barWrite_keeps | apply State.coreWrite_keeps | apply ite_keeps | split | (refine Keeps.mk' ?_ rfl rfl; first | assumption | apply State.wr_keeps | apply State.barWrite_keeps | apply State.coreWrite_keeps | apply ite_keeps | split)

theorem execRegWrite_keeps {s₀ : State} (q : Req) (addr : Nat) (v : Word) {s : State} (h : Keeps s₀ s) : KeepsOut s₀ (execRegWrite q addr v s) := by
  unfold execRegWrite
  with_reducible repeat' first | apply KeepsOut.next | assumption | apply State.wr_keeps | apply State.busWrite_keeps

end Sys2Proof.Machine
end

