-- ==== Sys2Proof/Laws/Keeps/Safe.lean ====
section
/-!
SUPPORT. Sys2Proof/Laws/Keeps/Safe.lean: what each operation of Machine/Safe.lean keeps (Keeps of Safety.lean).
-/
namespace Sys2Proof.Machine
set_option linter.all false

theorem State.jobMoves_keeps {s₀ : State} {s : State} (k : Nat) (j : Job) (wm : Wm) (data : List Byte) (h : Keeps s₀ s) : Keeps s₀ (State.jobMoves s k j wm data) := by
  unfold State.jobMoves
  with_reducible repeat' first | assumption | apply State.wr_keeps | apply State.capFill_keeps | apply State.dmaMove_keeps | apply State.xlateRange_keeps | apply State.layerLines_keeps | split | (refine Keeps.mk' ?_ rfl rfl; first | assumption | apply State.wr_keeps | apply State.capFill_keeps | apply State.dmaMove_keeps | apply State.xlateRange_keeps | apply State.layerLines_keeps | split)

theorem State.safePoint_keeps {s₀ : State} {s : State} (w : Work) (wm : Wm) (data : List Byte) (h : Keeps s₀ s) : Keeps s₀ (State.safePoint s w wm data) := by
  unfold State.safePoint
  try extract_lets
  with_reducible repeat' first | assumption | apply State.wr_keeps | apply State.jobMoves_keeps | apply State.jobSafe_keeps | apply State.decReads_keeps | apply State.taskSafe_keeps | apply ite_keeps | split | (refine Keeps.mk' ?_ rfl rfl; first | assumption | apply State.wr_keeps | apply State.jobMoves_keeps | apply State.jobSafe_keeps | apply State.decReads_keeps | apply State.taskSafe_keeps | apply ite_keeps | split) | (dsimp +zetaDelta only)

theorem execTaskPark_keeps {s₀ : State} (w : Work) (at_ : Reached) {s : State} (h : Keeps s₀ s) : KeepsOut s₀ (execTaskPark w at_ s) := by
  unfold execTaskPark
  with_reducible repeat' first | apply KeepsOut.next | assumption | apply State.wr_keeps | apply State.when_keeps | apply State.safePoint_keeps | (intro _)

theorem execTaskSafePoint_keeps {s₀ : State} (w : Work) (at_ : Reached) {s : State} (h : Keeps s₀ s) : KeepsOut s₀ (execTaskSafePoint w at_ s) := by
  unfold execTaskSafePoint
  with_reducible repeat' first | apply KeepsOut.next | assumption | apply State.wr_keeps | apply State.safePoint_keeps

end Sys2Proof.Machine
end

