-- ==== Sys2Proof/Laws/State.lean ====
section
/-!
SUPPORT. Sys2Proof/Laws/State.lean: what each update of one part of the state leaves as it is, field by field.
-/
namespace Sys2Proof.Machine

@[simp] theorem State.setReg_variant (s : State) (a : Nat) (v : Word) : (s.setReg a v).variant = s.variant := by unfold State.setReg; rfl
@[simp] theorem State.setReg_pending (s : State) (a : Nat) (v : Word) : (s.setReg a v).pending = s.pending := by unfold State.setReg; rfl
@[simp] theorem State.setReg_cycle (s : State) (a : Nat) (v : Word) : (s.setReg a v).cycle = s.cycle := by unfold State.setReg; rfl
@[simp] theorem State.setReg_freeCtr (s : State) (a : Nat) (v : Word) : (s.setReg a v).freeCtr = s.freeCtr := by unfold State.setReg; rfl
@[simp] theorem State.setReg_rdata (s : State) (a : Nat) (v : Word) : (s.setReg a v).rdata = s.rdata := by unfold State.setReg; rfl
@[simp] theorem State.setReg_sent (s : State) (a : Nat) (v : Word) : (s.setReg a v).sent = s.sent := by unfold State.setReg; rfl
@[simp] theorem State.setReg_lt (s : State) (a : Nat) (v : Word) : (s.setReg a v).lt = s.lt := by unfold State.setReg; rfl
@[simp] theorem State.setReg_refs (s : State) (a : Nat) (v : Word) : (s.setReg a v).refs = s.refs := by unfold State.setReg; rfl
@[simp] theorem State.setReg_ptp (s : State) (a : Nat) (v : Word) : (s.setReg a v).ptp = s.ptp := by unfold State.setReg; rfl
@[simp] theorem State.setReg_host (s : State) (a : Nat) (v : Word) : (s.setReg a v).host = s.host := by unfold State.setReg; rfl
@[simp] theorem State.setReg_sch (s : State) (a : Nat) (v : Word) : (s.setReg a v).sch = s.sch := by unfold State.setReg; rfl
@[simp] theorem State.setReg_xlt (s : State) (a : Nat) (v : Word) : (s.setReg a v).xlt = s.xlt := by unfold State.setReg; rfl
@[simp] theorem State.setReg_stg (s : State) (a : Nat) (v : Word) : (s.setReg a v).stg = s.stg := by unfold State.setReg; rfl
@[simp] theorem State.setReg_recorder (s : State) (a : Nat) (v : Word) : (s.setReg a v).recorder = s.recorder := by unfold State.setReg; rfl
@[simp] theorem State.setReg_rst (s : State) (a : Nat) (v : Word) : (s.setReg a v).rst = s.rst := by unfold State.setReg; rfl
@[simp] theorem State.setReg_hbm (s : State) (a : Nat) (v : Word) : (s.setReg a v).hbm = s.hbm := by unfold State.setReg; rfl
@[simp] theorem State.setReg_whl (s : State) (a : Nat) (v : Word) : (s.setReg a v).whl = s.whl := by unfold State.setReg; rfl
@[simp] theorem State.setReg_aud (s : State) (a : Nat) (v : Word) : (s.setReg a v).aud = s.aud := by unfold State.setReg; rfl
@[simp] theorem State.setReg_ing (s : State) (a : Nat) (v : Word) : (s.setReg a v).ing = s.ing := by unfold State.setReg; rfl
@[simp] theorem State.setReg_cmp (s : State) (a : Nat) (v : Word) : (s.setReg a v).cmp = s.cmp := by unfold State.setReg; rfl
@[simp] theorem State.setReg_pool (s : State) (a : Nat) (v : Word) : (s.setReg a v).pool = s.pool := by unfold State.setReg; rfl
@[simp] theorem State.setReg_dec (s : State) (a : Nat) (v : Word) : (s.setReg a v).dec = s.dec := by unfold State.setReg; rfl
@[simp] theorem State.setReg_enc (s : State) (a : Nat) (v : Word) : (s.setReg a v).enc = s.enc := by unfold State.setReg; rfl
@[simp] theorem State.setReg_red (s : State) (a : Nat) (v : Word) : (s.setReg a v).red = s.red := by unfold State.setReg; rfl
@[simp] theorem State.setReg_hbms (s : State) (a : Nat) (v : Word) : (s.setReg a v).hbms = s.hbms := by unfold State.setReg; rfl
@[simp] theorem State.setReg_lanes (s : State) (a : Nat) (v : Word) : (s.setReg a v).lanes = s.lanes := by unfold State.setReg; rfl
@[simp] theorem State.setReg_crcs (s : State) (a : Nat) (v : Word) : (s.setReg a v).crcs = s.crcs := by unfold State.setReg; rfl
@[simp] theorem State.resetRegs_variant (s : State) (p : Nat → Bool) : (s.resetRegs p).variant = s.variant := by unfold State.resetRegs; rfl
@[simp] theorem State.resetRegs_pending (s : State) (p : Nat → Bool) : (s.resetRegs p).pending = s.pending := by unfold State.resetRegs; rfl
@[simp] theorem State.resetRegs_cycle (s : State) (p : Nat → Bool) : (s.resetRegs p).cycle = s.cycle := by unfold State.resetRegs; rfl
@[simp] theorem State.resetRegs_freeCtr (s : State) (p : Nat → Bool) : (s.resetRegs p).freeCtr = s.freeCtr := by unfold State.resetRegs; rfl
@[simp] theorem State.resetRegs_rdata (s : State) (p : Nat → Bool) : (s.resetRegs p).rdata = s.rdata := by unfold State.resetRegs; rfl
@[simp] theorem State.resetRegs_sent (s : State) (p : Nat → Bool) : (s.resetRegs p).sent = s.sent := by unfold State.resetRegs; rfl
@[simp] theorem State.resetRegs_lt (s : State) (p : Nat → Bool) : (s.resetRegs p).lt = s.lt := by unfold State.resetRegs; rfl
@[simp] theorem State.resetRegs_refs (s : State) (p : Nat → Bool) : (s.resetRegs p).refs = s.refs := by unfold State.resetRegs; rfl
@[simp] theorem State.resetRegs_ptp (s : State) (p : Nat → Bool) : (s.resetRegs p).ptp = s.ptp := by unfold State.resetRegs; rfl
@[simp] theorem State.resetRegs_host (s : State) (p : Nat → Bool) : (s.resetRegs p).host = s.host := by unfold State.resetRegs; rfl
@[simp] theorem State.resetRegs_sch (s : State) (p : Nat → Bool) : (s.resetRegs p).sch = s.sch := by unfold State.resetRegs; rfl
@[simp] theorem State.resetRegs_xlt (s : State) (p : Nat → Bool) : (s.resetRegs p).xlt = s.xlt := by unfold State.resetRegs; rfl
@[simp] theorem State.resetRegs_stg (s : State) (p : Nat → Bool) : (s.resetRegs p).stg = s.stg := by unfold State.resetRegs; rfl
@[simp] theorem State.resetRegs_recorder (s : State) (p : Nat → Bool) : (s.resetRegs p).recorder = s.recorder := by unfold State.resetRegs; rfl
@[simp] theorem State.resetRegs_rst (s : State) (p : Nat → Bool) : (s.resetRegs p).rst = s.rst := by unfold State.resetRegs; rfl
@[simp] theorem State.resetRegs_hbm (s : State) (p : Nat → Bool) : (s.resetRegs p).hbm = s.hbm := by unfold State.resetRegs; rfl
@[simp] theorem State.resetRegs_whl (s : State) (p : Nat → Bool) : (s.resetRegs p).whl = s.whl := by unfold State.resetRegs; rfl
@[simp] theorem State.resetRegs_aud (s : State) (p : Nat → Bool) : (s.resetRegs p).aud = s.aud := by unfold State.resetRegs; rfl
@[simp] theorem State.resetRegs_ing (s : State) (p : Nat → Bool) : (s.resetRegs p).ing = s.ing := by unfold State.resetRegs; rfl
@[simp] theorem State.resetRegs_cmp (s : State) (p : Nat → Bool) : (s.resetRegs p).cmp = s.cmp := by unfold State.resetRegs; rfl
@[simp] theorem State.resetRegs_pool (s : State) (p : Nat → Bool) : (s.resetRegs p).pool = s.pool := by unfold State.resetRegs; rfl
@[simp] theorem State.resetRegs_dec (s : State) (p : Nat → Bool) : (s.resetRegs p).dec = s.dec := by unfold State.resetRegs; rfl
@[simp] theorem State.resetRegs_enc (s : State) (p : Nat → Bool) : (s.resetRegs p).enc = s.enc := by unfold State.resetRegs; rfl
@[simp] theorem State.resetRegs_red (s : State) (p : Nat → Bool) : (s.resetRegs p).red = s.red := by unfold State.resetRegs; rfl
@[simp] theorem State.resetRegs_hbms (s : State) (p : Nat → Bool) : (s.resetRegs p).hbms = s.hbms := by unfold State.resetRegs; rfl
@[simp] theorem State.resetRegs_lanes (s : State) (p : Nat → Bool) : (s.resetRegs p).lanes = s.lanes := by unfold State.resetRegs; rfl
@[simp] theorem State.resetRegs_crcs (s : State) (p : Nat → Bool) : (s.resetRegs p).crcs = s.crcs := by unfold State.resetRegs; rfl
@[simp] theorem State.send_variant (s : State) (m : Msg) : (s.send m).variant = s.variant := by unfold State.send; rfl
@[simp] theorem State.send_pending (s : State) (m : Msg) : (s.send m).pending = s.pending := by unfold State.send; rfl
@[simp] theorem State.send_cycle (s : State) (m : Msg) : (s.send m).cycle = s.cycle := by unfold State.send; rfl
@[simp] theorem State.send_freeCtr (s : State) (m : Msg) : (s.send m).freeCtr = s.freeCtr := by unfold State.send; rfl
@[simp] theorem State.send_rdata (s : State) (m : Msg) : (s.send m).rdata = s.rdata := by unfold State.send; rfl
@[simp] theorem State.send_regs (s : State) (m : Msg) : (s.send m).regs = s.regs := by unfold State.send; rfl
@[simp] theorem State.send_lt (s : State) (m : Msg) : (s.send m).lt = s.lt := by unfold State.send; rfl
@[simp] theorem State.send_refs (s : State) (m : Msg) : (s.send m).refs = s.refs := by unfold State.send; rfl
@[simp] theorem State.send_ptp (s : State) (m : Msg) : (s.send m).ptp = s.ptp := by unfold State.send; rfl
@[simp] theorem State.send_host (s : State) (m : Msg) : (s.send m).host = s.host := by unfold State.send; rfl
@[simp] theorem State.send_sch (s : State) (m : Msg) : (s.send m).sch = s.sch := by unfold State.send; rfl
@[simp] theorem State.send_xlt (s : State) (m : Msg) : (s.send m).xlt = s.xlt := by unfold State.send; rfl
@[simp] theorem State.send_stg (s : State) (m : Msg) : (s.send m).stg = s.stg := by unfold State.send; rfl
@[simp] theorem State.send_recorder (s : State) (m : Msg) : (s.send m).recorder = s.recorder := by unfold State.send; rfl
@[simp] theorem State.send_rst (s : State) (m : Msg) : (s.send m).rst = s.rst := by unfold State.send; rfl
@[simp] theorem State.send_hbm (s : State) (m : Msg) : (s.send m).hbm = s.hbm := by unfold State.send; rfl
@[simp] theorem State.send_whl (s : State) (m : Msg) : (s.send m).whl = s.whl := by unfold State.send; rfl
@[simp] theorem State.send_aud (s : State) (m : Msg) : (s.send m).aud = s.aud := by unfold State.send; rfl
@[simp] theorem State.send_ing (s : State) (m : Msg) : (s.send m).ing = s.ing := by unfold State.send; rfl
@[simp] theorem State.send_cmp (s : State) (m : Msg) : (s.send m).cmp = s.cmp := by unfold State.send; rfl
@[simp] theorem State.send_pool (s : State) (m : Msg) : (s.send m).pool = s.pool := by unfold State.send; rfl
@[simp] theorem State.send_dec (s : State) (m : Msg) : (s.send m).dec = s.dec := by unfold State.send; rfl
@[simp] theorem State.send_enc (s : State) (m : Msg) : (s.send m).enc = s.enc := by unfold State.send; rfl
@[simp] theorem State.send_red (s : State) (m : Msg) : (s.send m).red = s.red := by unfold State.send; rfl
@[simp] theorem State.send_hbms (s : State) (m : Msg) : (s.send m).hbms = s.hbms := by unfold State.send; rfl
@[simp] theorem State.send_lanes (s : State) (m : Msg) : (s.send m).lanes = s.lanes := by unfold State.send; rfl
@[simp] theorem State.send_crcs (s : State) (m : Msg) : (s.send m).crcs = s.crcs := by unfold State.send; rfl
@[simp] theorem State.tick_variant (s : State) : (s.tick).variant = s.variant := by unfold State.tick; rfl
@[simp] theorem State.tick_pending (s : State) : (s.tick).pending = s.pending := by unfold State.tick; rfl
@[simp] theorem State.tick_cycle (s : State) : (s.tick).cycle = s.cycle := by unfold State.tick; rfl
@[simp] theorem State.tick_rdata (s : State) : (s.tick).rdata = s.rdata := by unfold State.tick; rfl
@[simp] theorem State.tick_sent (s : State) : (s.tick).sent = s.sent := by unfold State.tick; rfl
@[simp] theorem State.tick_regs (s : State) : (s.tick).regs = s.regs := by unfold State.tick; rfl
@[simp] theorem State.tick_lt (s : State) : (s.tick).lt = s.lt := by unfold State.tick; rfl
@[simp] theorem State.tick_refs (s : State) : (s.tick).refs = s.refs := by unfold State.tick; rfl
@[simp] theorem State.tick_ptp (s : State) : (s.tick).ptp = s.ptp := by unfold State.tick; rfl
@[simp] theorem State.tick_host (s : State) : (s.tick).host = s.host := by unfold State.tick; rfl
@[simp] theorem State.tick_sch (s : State) : (s.tick).sch = s.sch := by unfold State.tick; rfl
@[simp] theorem State.tick_xlt (s : State) : (s.tick).xlt = s.xlt := by unfold State.tick; rfl
@[simp] theorem State.tick_stg (s : State) : (s.tick).stg = s.stg := by unfold State.tick; rfl
@[simp] theorem State.tick_recorder (s : State) : (s.tick).recorder = s.recorder := by unfold State.tick; rfl
@[simp] theorem State.tick_rst (s : State) : (s.tick).rst = s.rst := by unfold State.tick; rfl
@[simp] theorem State.tick_hbm (s : State) : (s.tick).hbm = s.hbm := by unfold State.tick; rfl
@[simp] theorem State.tick_whl (s : State) : (s.tick).whl = s.whl := by unfold State.tick; rfl
@[simp] theorem State.tick_aud (s : State) : (s.tick).aud = s.aud := by unfold State.tick; rfl
@[simp] theorem State.tick_ing (s : State) : (s.tick).ing = s.ing := by unfold State.tick; rfl
@[simp] theorem State.tick_cmp (s : State) : (s.tick).cmp = s.cmp := by unfold State.tick; rfl
@[simp] theorem State.tick_pool (s : State) : (s.tick).pool = s.pool := by unfold State.tick; rfl
@[simp] theorem State.tick_dec (s : State) : (s.tick).dec = s.dec := by unfold State.tick; rfl
@[simp] theorem State.tick_enc (s : State) : (s.tick).enc = s.enc := by unfold State.tick; rfl
@[simp] theorem State.tick_red (s : State) : (s.tick).red = s.red := by unfold State.tick; rfl
@[simp] theorem State.tick_hbms (s : State) : (s.tick).hbms = s.hbms := by unfold State.tick; rfl
@[simp] theorem State.tick_lanes (s : State) : (s.tick).lanes = s.lanes := by unfold State.tick; rfl
@[simp] theorem State.tick_crcs (s : State) : (s.tick).crcs = s.crcs := by unfold State.tick; rfl
@[simp] theorem State.hostWrite_variant (s : State) (a : Nat) (bs : List Byte) : (s.hostWrite a bs).variant = s.variant := by unfold State.hostWrite; rfl
@[simp] theorem State.hostWrite_pending (s : State) (a : Nat) (bs : List Byte) : (s.hostWrite a bs).pending = s.pending := by unfold State.hostWrite; rfl
@[simp] theorem State.hostWrite_cycle (s : State) (a : Nat) (bs : List Byte) : (s.hostWrite a bs).cycle = s.cycle := by unfold State.hostWrite; rfl
@[simp] theorem State.hostWrite_freeCtr (s : State) (a : Nat) (bs : List Byte) : (s.hostWrite a bs).freeCtr = s.freeCtr := by unfold State.hostWrite; rfl
@[simp] theorem State.hostWrite_rdata (s : State) (a : Nat) (bs : List Byte) : (s.hostWrite a bs).rdata = s.rdata := by unfold State.hostWrite; rfl
@[simp] theorem State.hostWrite_sent (s : State) (a : Nat) (bs : List Byte) : (s.hostWrite a bs).sent = s.sent := by unfold State.hostWrite; rfl
@[simp] theorem State.hostWrite_regs (s : State) (a : Nat) (bs : List Byte) : (s.hostWrite a bs).regs = s.regs := by unfold State.hostWrite; rfl
@[simp] theorem State.hostWrite_lt (s : State) (a : Nat) (bs : List Byte) : (s.hostWrite a bs).lt = s.lt := by unfold State.hostWrite; rfl
@[simp] theorem State.hostWrite_refs (s : State) (a : Nat) (bs : List Byte) : (s.hostWrite a bs).refs = s.refs := by unfold State.hostWrite; rfl
@[simp] theorem State.hostWrite_ptp (s : State) (a : Nat) (bs : List Byte) : (s.hostWrite a bs).ptp = s.ptp := by unfold State.hostWrite; rfl
@[simp] theorem State.hostWrite_sch (s : State) (a : Nat) (bs : List Byte) : (s.hostWrite a bs).sch = s.sch := by unfold State.hostWrite; rfl
@[simp] theorem State.hostWrite_xlt (s : State) (a : Nat) (bs : List Byte) : (s.hostWrite a bs).xlt = s.xlt := by unfold State.hostWrite; rfl
@[simp] theorem State.hostWrite_stg (s : State) (a : Nat) (bs : List Byte) : (s.hostWrite a bs).stg = s.stg := by unfold State.hostWrite; rfl
@[simp] theorem State.hostWrite_recorder (s : State) (a : Nat) (bs : List Byte) : (s.hostWrite a bs).recorder = s.recorder := by unfold State.hostWrite; rfl
@[simp] theorem State.hostWrite_rst (s : State) (a : Nat) (bs : List Byte) : (s.hostWrite a bs).rst = s.rst := by unfold State.hostWrite; rfl
@[simp] theorem State.hostWrite_hbm (s : State) (a : Nat) (bs : List Byte) : (s.hostWrite a bs).hbm = s.hbm := by unfold State.hostWrite; rfl
@[simp] theorem State.hostWrite_whl (s : State) (a : Nat) (bs : List Byte) : (s.hostWrite a bs).whl = s.whl := by unfold State.hostWrite; rfl
@[simp] theorem State.hostWrite_aud (s : State) (a : Nat) (bs : List Byte) : (s.hostWrite a bs).aud = s.aud := by unfold State.hostWrite; rfl
@[simp] theorem State.hostWrite_ing (s : State) (a : Nat) (bs : List Byte) : (s.hostWrite a bs).ing = s.ing := by unfold State.hostWrite; rfl
@[simp] theorem State.hostWrite_cmp (s : State) (a : Nat) (bs : List Byte) : (s.hostWrite a bs).cmp = s.cmp := by unfold State.hostWrite; rfl
@[simp] theorem State.hostWrite_pool (s : State) (a : Nat) (bs : List Byte) : (s.hostWrite a bs).pool = s.pool := by unfold State.hostWrite; rfl
@[simp] theorem State.hostWrite_dec (s : State) (a : Nat) (bs : List Byte) : (s.hostWrite a bs).dec = s.dec := by unfold State.hostWrite; rfl
@[simp] theorem State.hostWrite_enc (s : State) (a : Nat) (bs : List Byte) : (s.hostWrite a bs).enc = s.enc := by unfold State.hostWrite; rfl
@[simp] theorem State.hostWrite_red (s : State) (a : Nat) (bs : List Byte) : (s.hostWrite a bs).red = s.red := by unfold State.hostWrite; rfl
@[simp] theorem State.hostWrite_hbms (s : State) (a : Nat) (bs : List Byte) : (s.hostWrite a bs).hbms = s.hbms := by unfold State.hostWrite; rfl
@[simp] theorem State.hostWrite_lanes (s : State) (a : Nat) (bs : List Byte) : (s.hostWrite a bs).lanes = s.lanes := by unfold State.hostWrite; rfl
@[simp] theorem State.hostWrite_crcs (s : State) (a : Nat) (bs : List Byte) : (s.hostWrite a bs).crcs = s.crcs := by unfold State.hostWrite; rfl
@[simp] theorem State.hbmPut_variant (s : State) (d a : Nat) (bs : List Byte) : (s.hbmPut d a bs).variant = s.variant := by unfold State.hbmPut; rfl
@[simp] theorem State.hbmPut_pending (s : State) (d a : Nat) (bs : List Byte) : (s.hbmPut d a bs).pending = s.pending := by unfold State.hbmPut; rfl
@[simp] theorem State.hbmPut_cycle (s : State) (d a : Nat) (bs : List Byte) : (s.hbmPut d a bs).cycle = s.cycle := by unfold State.hbmPut; rfl
@[simp] theorem State.hbmPut_freeCtr (s : State) (d a : Nat) (bs : List Byte) : (s.hbmPut d a bs).freeCtr = s.freeCtr := by unfold State.hbmPut; rfl
@[simp] theorem State.hbmPut_rdata (s : State) (d a : Nat) (bs : List Byte) : (s.hbmPut d a bs).rdata = s.rdata := by unfold State.hbmPut; rfl
@[simp] theorem State.hbmPut_sent (s : State) (d a : Nat) (bs : List Byte) : (s.hbmPut d a bs).sent = s.sent := by unfold State.hbmPut; rfl
@[simp] theorem State.hbmPut_regs (s : State) (d a : Nat) (bs : List Byte) : (s.hbmPut d a bs).regs = s.regs := by unfold State.hbmPut; rfl
@[simp] theorem State.hbmPut_lt (s : State) (d a : Nat) (bs : List Byte) : (s.hbmPut d a bs).lt = s.lt := by unfold State.hbmPut; rfl
@[simp] theorem State.hbmPut_refs (s : State) (d a : Nat) (bs : List Byte) : (s.hbmPut d a bs).refs = s.refs := by unfold State.hbmPut; rfl
@[simp] theorem State.hbmPut_ptp (s : State) (d a : Nat) (bs : List Byte) : (s.hbmPut d a bs).ptp = s.ptp := by unfold State.hbmPut; rfl
@[simp] theorem State.hbmPut_host (s : State) (d a : Nat) (bs : List Byte) : (s.hbmPut d a bs).host = s.host := by unfold State.hbmPut; rfl
@[simp] theorem State.hbmPut_sch (s : State) (d a : Nat) (bs : List Byte) : (s.hbmPut d a bs).sch = s.sch := by unfold State.hbmPut; rfl
@[simp] theorem State.hbmPut_xlt (s : State) (d a : Nat) (bs : List Byte) : (s.hbmPut d a bs).xlt = s.xlt := by unfold State.hbmPut; rfl
@[simp] theorem State.hbmPut_stg (s : State) (d a : Nat) (bs : List Byte) : (s.hbmPut d a bs).stg = s.stg := by unfold State.hbmPut; rfl
@[simp] theorem State.hbmPut_recorder (s : State) (d a : Nat) (bs : List Byte) : (s.hbmPut d a bs).recorder = s.recorder := by unfold State.hbmPut; rfl
@[simp] theorem State.hbmPut_rst (s : State) (d a : Nat) (bs : List Byte) : (s.hbmPut d a bs).rst = s.rst := by unfold State.hbmPut; rfl
@[simp] theorem State.hbmPut_whl (s : State) (d a : Nat) (bs : List Byte) : (s.hbmPut d a bs).whl = s.whl := by unfold State.hbmPut; rfl
@[simp] theorem State.hbmPut_aud (s : State) (d a : Nat) (bs : List Byte) : (s.hbmPut d a bs).aud = s.aud := by unfold State.hbmPut; rfl
@[simp] theorem State.hbmPut_ing (s : State) (d a : Nat) (bs : List Byte) : (s.hbmPut d a bs).ing = s.ing := by unfold State.hbmPut; rfl
@[simp] theorem State.hbmPut_cmp (s : State) (d a : Nat) (bs : List Byte) : (s.hbmPut d a bs).cmp = s.cmp := by unfold State.hbmPut; rfl
@[simp] theorem State.hbmPut_pool (s : State) (d a : Nat) (bs : List Byte) : (s.hbmPut d a bs).pool = s.pool := by unfold State.hbmPut; rfl
@[simp] theorem State.hbmPut_dec (s : State) (d a : Nat) (bs : List Byte) : (s.hbmPut d a bs).dec = s.dec := by unfold State.hbmPut; rfl
@[simp] theorem State.hbmPut_enc (s : State) (d a : Nat) (bs : List Byte) : (s.hbmPut d a bs).enc = s.enc := by unfold State.hbmPut; rfl
@[simp] theorem State.hbmPut_red (s : State) (d a : Nat) (bs : List Byte) : (s.hbmPut d a bs).red = s.red := by unfold State.hbmPut; rfl
@[simp] theorem State.hbmPut_hbms (s : State) (d a : Nat) (bs : List Byte) : (s.hbmPut d a bs).hbms = s.hbms := by unfold State.hbmPut; rfl
@[simp] theorem State.hbmPut_lanes (s : State) (d a : Nat) (bs : List Byte) : (s.hbmPut d a bs).lanes = s.lanes := by unfold State.hbmPut; rfl
@[simp] theorem State.hbmPut_crcs (s : State) (d a : Nat) (bs : List Byte) : (s.hbmPut d a bs).crcs = s.crcs := by unfold State.hbmPut; rfl
@[simp] theorem State.setTl_variant (s : State) (n : Nat) (t : TlSt) : (s.setTl n t).variant = s.variant := by unfold State.setTl; rfl
@[simp] theorem State.setTl_pending (s : State) (n : Nat) (t : TlSt) : (s.setTl n t).pending = s.pending := by unfold State.setTl; rfl
@[simp] theorem State.setTl_cycle (s : State) (n : Nat) (t : TlSt) : (s.setTl n t).cycle = s.cycle := by unfold State.setTl; rfl
@[simp] theorem State.setTl_freeCtr (s : State) (n : Nat) (t : TlSt) : (s.setTl n t).freeCtr = s.freeCtr := by unfold State.setTl; rfl
@[simp] theorem State.setTl_rdata (s : State) (n : Nat) (t : TlSt) : (s.setTl n t).rdata = s.rdata := by unfold State.setTl; rfl
@[simp] theorem State.setTl_sent (s : State) (n : Nat) (t : TlSt) : (s.setTl n t).sent = s.sent := by unfold State.setTl; rfl
@[simp] theorem State.setTl_regs (s : State) (n : Nat) (t : TlSt) : (s.setTl n t).regs = s.regs := by unfold State.setTl; rfl
@[simp] theorem State.setTl_refs (s : State) (n : Nat) (t : TlSt) : (s.setTl n t).refs = s.refs := by unfold State.setTl; rfl
@[simp] theorem State.setTl_ptp (s : State) (n : Nat) (t : TlSt) : (s.setTl n t).ptp = s.ptp := by unfold State.setTl; rfl
@[simp] theorem State.setTl_host (s : State) (n : Nat) (t : TlSt) : (s.setTl n t).host = s.host := by unfold State.setTl; rfl
@[simp] theorem State.setTl_sch (s : State) (n : Nat) (t : TlSt) : (s.setTl n t).sch = s.sch := by unfold State.setTl; rfl
@[simp] theorem State.setTl_xlt (s : State) (n : Nat) (t : TlSt) : (s.setTl n t).xlt = s.xlt := by unfold State.setTl; rfl
@[simp] theorem State.setTl_stg (s : State) (n : Nat) (t : TlSt) : (s.setTl n t).stg = s.stg := by unfold State.setTl; rfl
@[simp] theorem State.setTl_recorder (s : State) (n : Nat) (t : TlSt) : (s.setTl n t).recorder = s.recorder := by unfold State.setTl; rfl
@[simp] theorem State.setTl_rst (s : State) (n : Nat) (t : TlSt) : (s.setTl n t).rst = s.rst := by unfold State.setTl; rfl
@[simp] theorem State.setTl_hbm (s : State) (n : Nat) (t : TlSt) : (s.setTl n t).hbm = s.hbm := by unfold State.setTl; rfl
@[simp] theorem State.setTl_whl (s : State) (n : Nat) (t : TlSt) : (s.setTl n t).whl = s.whl := by unfold State.setTl; rfl
@[simp] theorem State.setTl_aud (s : State) (n : Nat) (t : TlSt) : (s.setTl n t).aud = s.aud := by unfold State.setTl; rfl
@[simp] theorem State.setTl_ing (s : State) (n : Nat) (t : TlSt) : (s.setTl n t).ing = s.ing := by unfold State.setTl; rfl
@[simp] theorem State.setTl_cmp (s : State) (n : Nat) (t : TlSt) : (s.setTl n t).cmp = s.cmp := by unfold State.setTl; rfl
@[simp] theorem State.setTl_pool (s : State) (n : Nat) (t : TlSt) : (s.setTl n t).pool = s.pool := by unfold State.setTl; rfl
@[simp] theorem State.setTl_dec (s : State) (n : Nat) (t : TlSt) : (s.setTl n t).dec = s.dec := by unfold State.setTl; rfl
@[simp] theorem State.setTl_enc (s : State) (n : Nat) (t : TlSt) : (s.setTl n t).enc = s.enc := by unfold State.setTl; rfl
@[simp] theorem State.setTl_red (s : State) (n : Nat) (t : TlSt) : (s.setTl n t).red = s.red := by unfold State.setTl; rfl
@[simp] theorem State.setTl_hbms (s : State) (n : Nat) (t : TlSt) : (s.setTl n t).hbms = s.hbms := by unfold State.setTl; rfl
@[simp] theorem State.setTl_lanes (s : State) (n : Nat) (t : TlSt) : (s.setTl n t).lanes = s.lanes := by unfold State.setTl; rfl
@[simp] theorem State.setTl_crcs (s : State) (n : Nat) (t : TlSt) : (s.setTl n t).crcs = s.crcs := by unfold State.setTl; rfl
@[simp] theorem State.stampRx_variant (s : State) (m : Nat) : (s.stampRx m).variant = s.variant := by unfold State.stampRx; rfl
@[simp] theorem State.stampRx_pending (s : State) (m : Nat) : (s.stampRx m).pending = s.pending := by unfold State.stampRx; rfl
@[simp] theorem State.stampRx_cycle (s : State) (m : Nat) : (s.stampRx m).cycle = s.cycle := by unfold State.stampRx; rfl
@[simp] theorem State.stampRx_freeCtr (s : State) (m : Nat) : (s.stampRx m).freeCtr = s.freeCtr := by unfold State.stampRx; rfl
@[simp] theorem State.stampRx_rdata (s : State) (m : Nat) : (s.stampRx m).rdata = s.rdata := by unfold State.stampRx; rfl
@[simp] theorem State.stampRx_sent (s : State) (m : Nat) : (s.stampRx m).sent = s.sent := by unfold State.stampRx; rfl
@[simp] theorem State.stampRx_regs (s : State) (m : Nat) : (s.stampRx m).regs = s.regs := by unfold State.stampRx; rfl
@[simp] theorem State.stampRx_lt (s : State) (m : Nat) : (s.stampRx m).lt = s.lt := by unfold State.stampRx; rfl
@[simp] theorem State.stampRx_refs (s : State) (m : Nat) : (s.stampRx m).refs = s.refs := by unfold State.stampRx; rfl
@[simp] theorem State.stampRx_host (s : State) (m : Nat) : (s.stampRx m).host = s.host := by unfold State.stampRx; rfl
@[simp] theorem State.stampRx_sch (s : State) (m : Nat) : (s.stampRx m).sch = s.sch := by unfold State.stampRx; rfl
@[simp] theorem State.stampRx_xlt (s : State) (m : Nat) : (s.stampRx m).xlt = s.xlt := by unfold State.stampRx; rfl
@[simp] theorem State.stampRx_stg (s : State) (m : Nat) : (s.stampRx m).stg = s.stg := by unfold State.stampRx; rfl
@[simp] theorem State.stampRx_recorder (s : State) (m : Nat) : (s.stampRx m).recorder = s.recorder := by unfold State.stampRx; rfl
@[simp] theorem State.stampRx_rst (s : State) (m : Nat) : (s.stampRx m).rst = s.rst := by unfold State.stampRx; rfl
@[simp] theorem State.stampRx_hbm (s : State) (m : Nat) : (s.stampRx m).hbm = s.hbm := by unfold State.stampRx; rfl
@[simp] theorem State.stampRx_whl (s : State) (m : Nat) : (s.stampRx m).whl = s.whl := by unfold State.stampRx; rfl
@[simp] theorem State.stampRx_aud (s : State) (m : Nat) : (s.stampRx m).aud = s.aud := by unfold State.stampRx; rfl
@[simp] theorem State.stampRx_ing (s : State) (m : Nat) : (s.stampRx m).ing = s.ing := by unfold State.stampRx; rfl
@[simp] theorem State.stampRx_cmp (s : State) (m : Nat) : (s.stampRx m).cmp = s.cmp := by unfold State.stampRx; rfl
@[simp] theorem State.stampRx_pool (s : State) (m : Nat) : (s.stampRx m).pool = s.pool := by unfold State.stampRx; rfl
@[simp] theorem State.stampRx_dec (s : State) (m : Nat) : (s.stampRx m).dec = s.dec := by unfold State.stampRx; rfl
@[simp] theorem State.stampRx_enc (s : State) (m : Nat) : (s.stampRx m).enc = s.enc := by unfold State.stampRx; rfl
@[simp] theorem State.stampRx_red (s : State) (m : Nat) : (s.stampRx m).red = s.red := by unfold State.stampRx; rfl
@[simp] theorem State.stampRx_hbms (s : State) (m : Nat) : (s.stampRx m).hbms = s.hbms := by unfold State.stampRx; rfl
@[simp] theorem State.stampRx_lanes (s : State) (m : Nat) : (s.stampRx m).lanes = s.lanes := by unfold State.stampRx; rfl
@[simp] theorem State.stampRx_crcs (s : State) (m : Nat) : (s.stampRx m).crcs = s.crcs := by unfold State.stampRx; rfl
@[simp] theorem State.stampTx_variant (s : State) (m : Nat) : (s.stampTx m).variant = s.variant := by unfold State.stampTx; rfl
@[simp] theorem State.stampTx_pending (s : State) (m : Nat) : (s.stampTx m).pending = s.pending := by unfold State.stampTx; rfl
@[simp] theorem State.stampTx_cycle (s : State) (m : Nat) : (s.stampTx m).cycle = s.cycle := by unfold State.stampTx; rfl
@[simp] theorem State.stampTx_freeCtr (s : State) (m : Nat) : (s.stampTx m).freeCtr = s.freeCtr := by unfold State.stampTx; rfl
@[simp] theorem State.stampTx_rdata (s : State) (m : Nat) : (s.stampTx m).rdata = s.rdata := by unfold State.stampTx; rfl
@[simp] theorem State.stampTx_sent (s : State) (m : Nat) : (s.stampTx m).sent = s.sent := by unfold State.stampTx; rfl
@[simp] theorem State.stampTx_regs (s : State) (m : Nat) : (s.stampTx m).regs = s.regs := by unfold State.stampTx; rfl
@[simp] theorem State.stampTx_lt (s : State) (m : Nat) : (s.stampTx m).lt = s.lt := by unfold State.stampTx; rfl
@[simp] theorem State.stampTx_refs (s : State) (m : Nat) : (s.stampTx m).refs = s.refs := by unfold State.stampTx; rfl
@[simp] theorem State.stampTx_host (s : State) (m : Nat) : (s.stampTx m).host = s.host := by unfold State.stampTx; rfl
@[simp] theorem State.stampTx_sch (s : State) (m : Nat) : (s.stampTx m).sch = s.sch := by unfold State.stampTx; rfl
@[simp] theorem State.stampTx_xlt (s : State) (m : Nat) : (s.stampTx m).xlt = s.xlt := by unfold State.stampTx; rfl
@[simp] theorem State.stampTx_stg (s : State) (m : Nat) : (s.stampTx m).stg = s.stg := by unfold State.stampTx; rfl
@[simp] theorem State.stampTx_recorder (s : State) (m : Nat) : (s.stampTx m).recorder = s.recorder := by unfold State.stampTx; rfl
@[simp] theorem State.stampTx_rst (s : State) (m : Nat) : (s.stampTx m).rst = s.rst := by unfold State.stampTx; rfl
@[simp] theorem State.stampTx_hbm (s : State) (m : Nat) : (s.stampTx m).hbm = s.hbm := by unfold State.stampTx; rfl
@[simp] theorem State.stampTx_whl (s : State) (m : Nat) : (s.stampTx m).whl = s.whl := by unfold State.stampTx; rfl
@[simp] theorem State.stampTx_aud (s : State) (m : Nat) : (s.stampTx m).aud = s.aud := by unfold State.stampTx; rfl
@[simp] theorem State.stampTx_ing (s : State) (m : Nat) : (s.stampTx m).ing = s.ing := by unfold State.stampTx; rfl
@[simp] theorem State.stampTx_cmp (s : State) (m : Nat) : (s.stampTx m).cmp = s.cmp := by unfold State.stampTx; rfl
@[simp] theorem State.stampTx_pool (s : State) (m : Nat) : (s.stampTx m).pool = s.pool := by unfold State.stampTx; rfl
@[simp] theorem State.stampTx_dec (s : State) (m : Nat) : (s.stampTx m).dec = s.dec := by unfold State.stampTx; rfl
@[simp] theorem State.stampTx_enc (s : State) (m : Nat) : (s.stampTx m).enc = s.enc := by unfold State.stampTx; rfl
@[simp] theorem State.stampTx_red (s : State) (m : Nat) : (s.stampTx m).red = s.red := by unfold State.stampTx; rfl
@[simp] theorem State.stampTx_hbms (s : State) (m : Nat) : (s.stampTx m).hbms = s.hbms := by unfold State.stampTx; rfl
@[simp] theorem State.stampTx_lanes (s : State) (m : Nat) : (s.stampTx m).lanes = s.lanes := by unfold State.stampTx; rfl
@[simp] theorem State.stampTx_crcs (s : State) (m : Nat) : (s.stampTx m).crcs = s.crcs := by unfold State.stampTx; rfl
@[simp] theorem State.setRec_variant (s : State) (d slot : Nat) (ws : List Word) : (s.setRec d slot ws).variant = s.variant := by unfold State.setRec; rfl
@[simp] theorem State.setRec_pending (s : State) (d slot : Nat) (ws : List Word) : (s.setRec d slot ws).pending = s.pending := by unfold State.setRec; rfl
@[simp] theorem State.setRec_cycle (s : State) (d slot : Nat) (ws : List Word) : (s.setRec d slot ws).cycle = s.cycle := by unfold State.setRec; rfl
@[simp] theorem State.setRec_freeCtr (s : State) (d slot : Nat) (ws : List Word) : (s.setRec d slot ws).freeCtr = s.freeCtr := by unfold State.setRec; rfl
@[simp] theorem State.setRec_rdata (s : State) (d slot : Nat) (ws : List Word) : (s.setRec d slot ws).rdata = s.rdata := by unfold State.setRec; rfl
@[simp] theorem State.setRec_sent (s : State) (d slot : Nat) (ws : List Word) : (s.setRec d slot ws).sent = s.sent := by unfold State.setRec; rfl
@[simp] theorem State.setRec_regs (s : State) (d slot : Nat) (ws : List Word) : (s.setRec d slot ws).regs = s.regs := by unfold State.setRec; rfl
@[simp] theorem State.setRec_lt (s : State) (d slot : Nat) (ws : List Word) : (s.setRec d slot ws).lt = s.lt := by unfold State.setRec; rfl
@[simp] theorem State.setRec_refs (s : State) (d slot : Nat) (ws : List Word) : (s.setRec d slot ws).refs = s.refs := by unfold State.setRec; rfl
@[simp] theorem State.setRec_ptp (s : State) (d slot : Nat) (ws : List Word) : (s.setRec d slot ws).ptp = s.ptp := by unfold State.setRec; rfl
@[simp] theorem State.setRec_host (s : State) (d slot : Nat) (ws : List Word) : (s.setRec d slot ws).host = s.host := by unfold State.setRec; rfl
@[simp] theorem State.setRec_sch (s : State) (d slot : Nat) (ws : List Word) : (s.setRec d slot ws).sch = s.sch := by unfold State.setRec; rfl
@[simp] theorem State.setRec_xlt (s : State) (d slot : Nat) (ws : List Word) : (s.setRec d slot ws).xlt = s.xlt := by unfold State.setRec; rfl
@[simp] theorem State.setRec_stg (s : State) (d slot : Nat) (ws : List Word) : (s.setRec d slot ws).stg = s.stg := by unfold State.setRec; rfl
@[simp] theorem State.setRec_rst (s : State) (d slot : Nat) (ws : List Word) : (s.setRec d slot ws).rst = s.rst := by unfold State.setRec; rfl
@[simp] theorem State.setRec_hbm (s : State) (d slot : Nat) (ws : List Word) : (s.setRec d slot ws).hbm = s.hbm := by unfold State.setRec; rfl
@[simp] theorem State.setRec_whl (s : State) (d slot : Nat) (ws : List Word) : (s.setRec d slot ws).whl = s.whl := by unfold State.setRec; rfl
@[simp] theorem State.setRec_aud (s : State) (d slot : Nat) (ws : List Word) : (s.setRec d slot ws).aud = s.aud := by unfold State.setRec; rfl
@[simp] theorem State.setRec_ing (s : State) (d slot : Nat) (ws : List Word) : (s.setRec d slot ws).ing = s.ing := by unfold State.setRec; rfl
@[simp] theorem State.setRec_cmp (s : State) (d slot : Nat) (ws : List Word) : (s.setRec d slot ws).cmp = s.cmp := by unfold State.setRec; rfl
@[simp] theorem State.setRec_pool (s : State) (d slot : Nat) (ws : List Word) : (s.setRec d slot ws).pool = s.pool := by unfold State.setRec; rfl
@[simp] theorem State.setRec_dec (s : State) (d slot : Nat) (ws : List Word) : (s.setRec d slot ws).dec = s.dec := by unfold State.setRec; rfl
@[simp] theorem State.setRec_enc (s : State) (d slot : Nat) (ws : List Word) : (s.setRec d slot ws).enc = s.enc := by unfold State.setRec; rfl
@[simp] theorem State.setRec_red (s : State) (d slot : Nat) (ws : List Word) : (s.setRec d slot ws).red = s.red := by unfold State.setRec; rfl
@[simp] theorem State.setRec_hbms (s : State) (d slot : Nat) (ws : List Word) : (s.setRec d slot ws).hbms = s.hbms := by unfold State.setRec; rfl
@[simp] theorem State.setRec_lanes (s : State) (d slot : Nat) (ws : List Word) : (s.setRec d slot ws).lanes = s.lanes := by unfold State.setRec; rfl
@[simp] theorem State.setRec_crcs (s : State) (d slot : Nat) (ws : List Word) : (s.setRec d slot ws).crcs = s.crcs := by unfold State.setRec; rfl
@[simp] theorem State.setGroves_variant (s : State) (d slot : Nat) (gs : List Nat) : (s.setGroves d slot gs).variant = s.variant := by unfold State.setGroves; rfl
@[simp] theorem State.setGroves_pending (s : State) (d slot : Nat) (gs : List Nat) : (s.setGroves d slot gs).pending = s.pending := by unfold State.setGroves; rfl
@[simp] theorem State.setGroves_cycle (s : State) (d slot : Nat) (gs : List Nat) : (s.setGroves d slot gs).cycle = s.cycle := by unfold State.setGroves; rfl
@[simp] theorem State.setGroves_freeCtr (s : State) (d slot : Nat) (gs : List Nat) : (s.setGroves d slot gs).freeCtr = s.freeCtr := by unfold State.setGroves; rfl
@[simp] theorem State.setGroves_rdata (s : State) (d slot : Nat) (gs : List Nat) : (s.setGroves d slot gs).rdata = s.rdata := by unfold State.setGroves; rfl
@[simp] theorem State.setGroves_sent (s : State) (d slot : Nat) (gs : List Nat) : (s.setGroves d slot gs).sent = s.sent := by unfold State.setGroves; rfl
@[simp] theorem State.setGroves_regs (s : State) (d slot : Nat) (gs : List Nat) : (s.setGroves d slot gs).regs = s.regs := by unfold State.setGroves; rfl
@[simp] theorem State.setGroves_lt (s : State) (d slot : Nat) (gs : List Nat) : (s.setGroves d slot gs).lt = s.lt := by unfold State.setGroves; rfl
@[simp] theorem State.setGroves_refs (s : State) (d slot : Nat) (gs : List Nat) : (s.setGroves d slot gs).refs = s.refs := by unfold State.setGroves; rfl
@[simp] theorem State.setGroves_ptp (s : State) (d slot : Nat) (gs : List Nat) : (s.setGroves d slot gs).ptp = s.ptp := by unfold State.setGroves; rfl
@[simp] theorem State.setGroves_host (s : State) (d slot : Nat) (gs : List Nat) : (s.setGroves d slot gs).host = s.host := by unfold State.setGroves; rfl
@[simp] theorem State.setGroves_sch (s : State) (d slot : Nat) (gs : List Nat) : (s.setGroves d slot gs).sch = s.sch := by unfold State.setGroves; rfl
@[simp] theorem State.setGroves_xlt (s : State) (d slot : Nat) (gs : List Nat) : (s.setGroves d slot gs).xlt = s.xlt := by unfold State.setGroves; rfl
@[simp] theorem State.setGroves_stg (s : State) (d slot : Nat) (gs : List Nat) : (s.setGroves d slot gs).stg = s.stg := by unfold State.setGroves; rfl
@[simp] theorem State.setGroves_rst (s : State) (d slot : Nat) (gs : List Nat) : (s.setGroves d slot gs).rst = s.rst := by unfold State.setGroves; rfl
@[simp] theorem State.setGroves_hbm (s : State) (d slot : Nat) (gs : List Nat) : (s.setGroves d slot gs).hbm = s.hbm := by unfold State.setGroves; rfl
@[simp] theorem State.setGroves_whl (s : State) (d slot : Nat) (gs : List Nat) : (s.setGroves d slot gs).whl = s.whl := by unfold State.setGroves; rfl
@[simp] theorem State.setGroves_aud (s : State) (d slot : Nat) (gs : List Nat) : (s.setGroves d slot gs).aud = s.aud := by unfold State.setGroves; rfl
@[simp] theorem State.setGroves_ing (s : State) (d slot : Nat) (gs : List Nat) : (s.setGroves d slot gs).ing = s.ing := by unfold State.setGroves; rfl
@[simp] theorem State.setGroves_cmp (s : State) (d slot : Nat) (gs : List Nat) : (s.setGroves d slot gs).cmp = s.cmp := by unfold State.setGroves; rfl
@[simp] theorem State.setGroves_pool (s : State) (d slot : Nat) (gs : List Nat) : (s.setGroves d slot gs).pool = s.pool := by unfold State.setGroves; rfl
@[simp] theorem State.setGroves_dec (s : State) (d slot : Nat) (gs : List Nat) : (s.setGroves d slot gs).dec = s.dec := by unfold State.setGroves; rfl
@[simp] theorem State.setGroves_enc (s : State) (d slot : Nat) (gs : List Nat) : (s.setGroves d slot gs).enc = s.enc := by unfold State.setGroves; rfl
@[simp] theorem State.setGroves_red (s : State) (d slot : Nat) (gs : List Nat) : (s.setGroves d slot gs).red = s.red := by unfold State.setGroves; rfl
@[simp] theorem State.setGroves_hbms (s : State) (d slot : Nat) (gs : List Nat) : (s.setGroves d slot gs).hbms = s.hbms := by unfold State.setGroves; rfl
@[simp] theorem State.setGroves_lanes (s : State) (d slot : Nat) (gs : List Nat) : (s.setGroves d slot gs).lanes = s.lanes := by unfold State.setGroves; rfl
@[simp] theorem State.setGroves_crcs (s : State) (d slot : Nat) (gs : List Nat) : (s.setGroves d slot gs).crcs = s.crcs := by unfold State.setGroves; rfl
@[simp] theorem State.setNewAt_variant (s : State) (d : Nat) : (s.setNewAt d).variant = s.variant := by unfold State.setNewAt; rfl
@[simp] theorem State.setNewAt_pending (s : State) (d : Nat) : (s.setNewAt d).pending = s.pending := by unfold State.setNewAt; rfl
@[simp] theorem State.setNewAt_cycle (s : State) (d : Nat) : (s.setNewAt d).cycle = s.cycle := by unfold State.setNewAt; rfl
@[simp] theorem State.setNewAt_freeCtr (s : State) (d : Nat) : (s.setNewAt d).freeCtr = s.freeCtr := by unfold State.setNewAt; rfl
@[simp] theorem State.setNewAt_rdata (s : State) (d : Nat) : (s.setNewAt d).rdata = s.rdata := by unfold State.setNewAt; rfl
@[simp] theorem State.setNewAt_sent (s : State) (d : Nat) : (s.setNewAt d).sent = s.sent := by unfold State.setNewAt; rfl
@[simp] theorem State.setNewAt_regs (s : State) (d : Nat) : (s.setNewAt d).regs = s.regs := by unfold State.setNewAt; rfl
@[simp] theorem State.setNewAt_lt (s : State) (d : Nat) : (s.setNewAt d).lt = s.lt := by unfold State.setNewAt; rfl
@[simp] theorem State.setNewAt_refs (s : State) (d : Nat) : (s.setNewAt d).refs = s.refs := by unfold State.setNewAt; rfl
@[simp] theorem State.setNewAt_ptp (s : State) (d : Nat) : (s.setNewAt d).ptp = s.ptp := by unfold State.setNewAt; rfl
@[simp] theorem State.setNewAt_host (s : State) (d : Nat) : (s.setNewAt d).host = s.host := by unfold State.setNewAt; rfl
@[simp] theorem State.setNewAt_sch (s : State) (d : Nat) : (s.setNewAt d).sch = s.sch := by unfold State.setNewAt; rfl
@[simp] theorem State.setNewAt_xlt (s : State) (d : Nat) : (s.setNewAt d).xlt = s.xlt := by unfold State.setNewAt; rfl
@[simp] theorem State.setNewAt_stg (s : State) (d : Nat) : (s.setNewAt d).stg = s.stg := by unfold State.setNewAt; rfl
@[simp] theorem State.setNewAt_rst (s : State) (d : Nat) : (s.setNewAt d).rst = s.rst := by unfold State.setNewAt; rfl
@[simp] theorem State.setNewAt_hbm (s : State) (d : Nat) : (s.setNewAt d).hbm = s.hbm := by unfold State.setNewAt; rfl
@[simp] theorem State.setNewAt_whl (s : State) (d : Nat) : (s.setNewAt d).whl = s.whl := by unfold State.setNewAt; rfl
@[simp] theorem State.setNewAt_aud (s : State) (d : Nat) : (s.setNewAt d).aud = s.aud := by unfold State.setNewAt; rfl
@[simp] theorem State.setNewAt_ing (s : State) (d : Nat) : (s.setNewAt d).ing = s.ing := by unfold State.setNewAt; rfl
@[simp] theorem State.setNewAt_cmp (s : State) (d : Nat) : (s.setNewAt d).cmp = s.cmp := by unfold State.setNewAt; rfl
@[simp] theorem State.setNewAt_pool (s : State) (d : Nat) : (s.setNewAt d).pool = s.pool := by unfold State.setNewAt; rfl
@[simp] theorem State.setNewAt_dec (s : State) (d : Nat) : (s.setNewAt d).dec = s.dec := by unfold State.setNewAt; rfl
@[simp] theorem State.setNewAt_enc (s : State) (d : Nat) : (s.setNewAt d).enc = s.enc := by unfold State.setNewAt; rfl
@[simp] theorem State.setNewAt_red (s : State) (d : Nat) : (s.setNewAt d).red = s.red := by unfold State.setNewAt; rfl
@[simp] theorem State.setNewAt_hbms (s : State) (d : Nat) : (s.setNewAt d).hbms = s.hbms := by unfold State.setNewAt; rfl
@[simp] theorem State.setNewAt_lanes (s : State) (d : Nat) : (s.setNewAt d).lanes = s.lanes := by unfold State.setNewAt; rfl
@[simp] theorem State.setNewAt_crcs (s : State) (d : Nat) : (s.setNewAt d).crcs = s.crcs := by unfold State.setNewAt; rfl
@[simp] theorem State.setEvAt_variant (s : State) (d : Nat) : (s.setEvAt d).variant = s.variant := by unfold State.setEvAt; rfl
@[simp] theorem State.setEvAt_pending (s : State) (d : Nat) : (s.setEvAt d).pending = s.pending := by unfold State.setEvAt; rfl
@[simp] theorem State.setEvAt_cycle (s : State) (d : Nat) : (s.setEvAt d).cycle = s.cycle := by unfold State.setEvAt; rfl
@[simp] theorem State.setEvAt_freeCtr (s : State) (d : Nat) : (s.setEvAt d).freeCtr = s.freeCtr := by unfold State.setEvAt; rfl
@[simp] theorem State.setEvAt_rdata (s : State) (d : Nat) : (s.setEvAt d).rdata = s.rdata := by unfold State.setEvAt; rfl
@[simp] theorem State.setEvAt_sent (s : State) (d : Nat) : (s.setEvAt d).sent = s.sent := by unfold State.setEvAt; rfl
@[simp] theorem State.setEvAt_regs (s : State) (d : Nat) : (s.setEvAt d).regs = s.regs := by unfold State.setEvAt; rfl
@[simp] theorem State.setEvAt_lt (s : State) (d : Nat) : (s.setEvAt d).lt = s.lt := by unfold State.setEvAt; rfl
@[simp] theorem State.setEvAt_refs (s : State) (d : Nat) : (s.setEvAt d).refs = s.refs := by unfold State.setEvAt; rfl
@[simp] theorem State.setEvAt_ptp (s : State) (d : Nat) : (s.setEvAt d).ptp = s.ptp := by unfold State.setEvAt; rfl
@[simp] theorem State.setEvAt_host (s : State) (d : Nat) : (s.setEvAt d).host = s.host := by unfold State.setEvAt; rfl
@[simp] theorem State.setEvAt_sch (s : State) (d : Nat) : (s.setEvAt d).sch = s.sch := by unfold State.setEvAt; rfl
@[simp] theorem State.setEvAt_xlt (s : State) (d : Nat) : (s.setEvAt d).xlt = s.xlt := by unfold State.setEvAt; rfl
@[simp] theorem State.setEvAt_stg (s : State) (d : Nat) : (s.setEvAt d).stg = s.stg := by unfold State.setEvAt; rfl
@[simp] theorem State.setEvAt_rst (s : State) (d : Nat) : (s.setEvAt d).rst = s.rst := by unfold State.setEvAt; rfl
@[simp] theorem State.setEvAt_hbm (s : State) (d : Nat) : (s.setEvAt d).hbm = s.hbm := by unfold State.setEvAt; rfl
@[simp] theorem State.setEvAt_whl (s : State) (d : Nat) : (s.setEvAt d).whl = s.whl := by unfold State.setEvAt; rfl
@[simp] theorem State.setEvAt_aud (s : State) (d : Nat) : (s.setEvAt d).aud = s.aud := by unfold State.setEvAt; rfl
@[simp] theorem State.setEvAt_ing (s : State) (d : Nat) : (s.setEvAt d).ing = s.ing := by unfold State.setEvAt; rfl
@[simp] theorem State.setEvAt_cmp (s : State) (d : Nat) : (s.setEvAt d).cmp = s.cmp := by unfold State.setEvAt; rfl
@[simp] theorem State.setEvAt_pool (s : State) (d : Nat) : (s.setEvAt d).pool = s.pool := by unfold State.setEvAt; rfl
@[simp] theorem State.setEvAt_dec (s : State) (d : Nat) : (s.setEvAt d).dec = s.dec := by unfold State.setEvAt; rfl
@[simp] theorem State.setEvAt_enc (s : State) (d : Nat) : (s.setEvAt d).enc = s.enc := by unfold State.setEvAt; rfl
@[simp] theorem State.setEvAt_red (s : State) (d : Nat) : (s.setEvAt d).red = s.red := by unfold State.setEvAt; rfl
@[simp] theorem State.setEvAt_hbms (s : State) (d : Nat) : (s.setEvAt d).hbms = s.hbms := by unfold State.setEvAt; rfl
@[simp] theorem State.setEvAt_lanes (s : State) (d : Nat) : (s.setEvAt d).lanes = s.lanes := by unfold State.setEvAt; rfl
@[simp] theorem State.setEvAt_crcs (s : State) (d : Nat) : (s.setEvAt d).crcs = s.crcs := by unfold State.setEvAt; rfl
@[simp] theorem State.setRing_variant (s : State) (r : Nat) (x : RingSt) : (s.setRing r x).variant = s.variant := by unfold State.setRing; rfl
@[simp] theorem State.setRing_pending (s : State) (r : Nat) (x : RingSt) : (s.setRing r x).pending = s.pending := by unfold State.setRing; rfl
@[simp] theorem State.setRing_cycle (s : State) (r : Nat) (x : RingSt) : (s.setRing r x).cycle = s.cycle := by unfold State.setRing; rfl
@[simp] theorem State.setRing_freeCtr (s : State) (r : Nat) (x : RingSt) : (s.setRing r x).freeCtr = s.freeCtr := by unfold State.setRing; rfl
@[simp] theorem State.setRing_rdata (s : State) (r : Nat) (x : RingSt) : (s.setRing r x).rdata = s.rdata := by unfold State.setRing; rfl
@[simp] theorem State.setRing_sent (s : State) (r : Nat) (x : RingSt) : (s.setRing r x).sent = s.sent := by unfold State.setRing; rfl
@[simp] theorem State.setRing_regs (s : State) (r : Nat) (x : RingSt) : (s.setRing r x).regs = s.regs := by unfold State.setRing; rfl
@[simp] theorem State.setRing_lt (s : State) (r : Nat) (x : RingSt) : (s.setRing r x).lt = s.lt := by unfold State.setRing; rfl
@[simp] theorem State.setRing_refs (s : State) (r : Nat) (x : RingSt) : (s.setRing r x).refs = s.refs := by unfold State.setRing; rfl
@[simp] theorem State.setRing_ptp (s : State) (r : Nat) (x : RingSt) : (s.setRing r x).ptp = s.ptp := by unfold State.setRing; rfl
@[simp] theorem State.setRing_sch (s : State) (r : Nat) (x : RingSt) : (s.setRing r x).sch = s.sch := by unfold State.setRing; rfl
@[simp] theorem State.setRing_xlt (s : State) (r : Nat) (x : RingSt) : (s.setRing r x).xlt = s.xlt := by unfold State.setRing; rfl
@[simp] theorem State.setRing_stg (s : State) (r : Nat) (x : RingSt) : (s.setRing r x).stg = s.stg := by unfold State.setRing; rfl
@[simp] theorem State.setRing_recorder (s : State) (r : Nat) (x : RingSt) : (s.setRing r x).recorder = s.recorder := by unfold State.setRing; rfl
@[simp] theorem State.setRing_rst (s : State) (r : Nat) (x : RingSt) : (s.setRing r x).rst = s.rst := by unfold State.setRing; rfl
@[simp] theorem State.setRing_hbm (s : State) (r : Nat) (x : RingSt) : (s.setRing r x).hbm = s.hbm := by unfold State.setRing; rfl
@[simp] theorem State.setRing_whl (s : State) (r : Nat) (x : RingSt) : (s.setRing r x).whl = s.whl := by unfold State.setRing; rfl
@[simp] theorem State.setRing_aud (s : State) (r : Nat) (x : RingSt) : (s.setRing r x).aud = s.aud := by unfold State.setRing; rfl
@[simp] theorem State.setRing_ing (s : State) (r : Nat) (x : RingSt) : (s.setRing r x).ing = s.ing := by unfold State.setRing; rfl
@[simp] theorem State.setRing_cmp (s : State) (r : Nat) (x : RingSt) : (s.setRing r x).cmp = s.cmp := by unfold State.setRing; rfl
@[simp] theorem State.setRing_pool (s : State) (r : Nat) (x : RingSt) : (s.setRing r x).pool = s.pool := by unfold State.setRing; rfl
@[simp] theorem State.setRing_dec (s : State) (r : Nat) (x : RingSt) : (s.setRing r x).dec = s.dec := by unfold State.setRing; rfl
@[simp] theorem State.setRing_enc (s : State) (r : Nat) (x : RingSt) : (s.setRing r x).enc = s.enc := by unfold State.setRing; rfl
@[simp] theorem State.setRing_red (s : State) (r : Nat) (x : RingSt) : (s.setRing r x).red = s.red := by unfold State.setRing; rfl
@[simp] theorem State.setRing_hbms (s : State) (r : Nat) (x : RingSt) : (s.setRing r x).hbms = s.hbms := by unfold State.setRing; rfl
@[simp] theorem State.setRing_lanes (s : State) (r : Nat) (x : RingSt) : (s.setRing r x).lanes = s.lanes := by unfold State.setRing; rfl
@[simp] theorem State.setRing_crcs (s : State) (r : Nat) (x : RingSt) : (s.setRing r x).crcs = s.crcs := by unfold State.setRing; rfl
@[simp] theorem State.setXltWays_variant (s : State) (i : Nat) (es : List XEnt) : (s.setXltWays i es).variant = s.variant := by unfold State.setXltWays; rfl
@[simp] theorem State.setXltWays_pending (s : State) (i : Nat) (es : List XEnt) : (s.setXltWays i es).pending = s.pending := by unfold State.setXltWays; rfl
@[simp] theorem State.setXltWays_cycle (s : State) (i : Nat) (es : List XEnt) : (s.setXltWays i es).cycle = s.cycle := by unfold State.setXltWays; rfl
@[simp] theorem State.setXltWays_freeCtr (s : State) (i : Nat) (es : List XEnt) : (s.setXltWays i es).freeCtr = s.freeCtr := by unfold State.setXltWays; rfl
@[simp] theorem State.setXltWays_rdata (s : State) (i : Nat) (es : List XEnt) : (s.setXltWays i es).rdata = s.rdata := by unfold State.setXltWays; rfl
@[simp] theorem State.setXltWays_sent (s : State) (i : Nat) (es : List XEnt) : (s.setXltWays i es).sent = s.sent := by unfold State.setXltWays; rfl
@[simp] theorem State.setXltWays_regs (s : State) (i : Nat) (es : List XEnt) : (s.setXltWays i es).regs = s.regs := by unfold State.setXltWays; rfl
@[simp] theorem State.setXltWays_lt (s : State) (i : Nat) (es : List XEnt) : (s.setXltWays i es).lt = s.lt := by unfold State.setXltWays; rfl
@[simp] theorem State.setXltWays_refs (s : State) (i : Nat) (es : List XEnt) : (s.setXltWays i es).refs = s.refs := by unfold State.setXltWays; rfl
@[simp] theorem State.setXltWays_ptp (s : State) (i : Nat) (es : List XEnt) : (s.setXltWays i es).ptp = s.ptp := by unfold State.setXltWays; rfl
@[simp] theorem State.setXltWays_host (s : State) (i : Nat) (es : List XEnt) : (s.setXltWays i es).host = s.host := by unfold State.setXltWays; rfl
@[simp] theorem State.setXltWays_sch (s : State) (i : Nat) (es : List XEnt) : (s.setXltWays i es).sch = s.sch := by unfold State.setXltWays; rfl
@[simp] theorem State.setXltWays_stg (s : State) (i : Nat) (es : List XEnt) : (s.setXltWays i es).stg = s.stg := by unfold State.setXltWays; rfl
@[simp] theorem State.setXltWays_recorder (s : State) (i : Nat) (es : List XEnt) : (s.setXltWays i es).recorder = s.recorder := by unfold State.setXltWays; rfl
@[simp] theorem State.setXltWays_rst (s : State) (i : Nat) (es : List XEnt) : (s.setXltWays i es).rst = s.rst := by unfold State.setXltWays; rfl
@[simp] theorem State.setXltWays_hbm (s : State) (i : Nat) (es : List XEnt) : (s.setXltWays i es).hbm = s.hbm := by unfold State.setXltWays; rfl
@[simp] theorem State.setXltWays_whl (s : State) (i : Nat) (es : List XEnt) : (s.setXltWays i es).whl = s.whl := by unfold State.setXltWays; rfl
@[simp] theorem State.setXltWays_aud (s : State) (i : Nat) (es : List XEnt) : (s.setXltWays i es).aud = s.aud := by unfold State.setXltWays; rfl
@[simp] theorem State.setXltWays_ing (s : State) (i : Nat) (es : List XEnt) : (s.setXltWays i es).ing = s.ing := by unfold State.setXltWays; rfl
@[simp] theorem State.setXltWays_cmp (s : State) (i : Nat) (es : List XEnt) : (s.setXltWays i es).cmp = s.cmp := by unfold State.setXltWays; rfl
@[simp] theorem State.setXltWays_pool (s : State) (i : Nat) (es : List XEnt) : (s.setXltWays i es).pool = s.pool := by unfold State.setXltWays; rfl
@[simp] theorem State.setXltWays_dec (s : State) (i : Nat) (es : List XEnt) : (s.setXltWays i es).dec = s.dec := by unfold State.setXltWays; rfl
@[simp] theorem State.setXltWays_enc (s : State) (i : Nat) (es : List XEnt) : (s.setXltWays i es).enc = s.enc := by unfold State.setXltWays; rfl
@[simp] theorem State.setXltWays_red (s : State) (i : Nat) (es : List XEnt) : (s.setXltWays i es).red = s.red := by unfold State.setXltWays; rfl
@[simp] theorem State.setXltWays_hbms (s : State) (i : Nat) (es : List XEnt) : (s.setXltWays i es).hbms = s.hbms := by unfold State.setXltWays; rfl
@[simp] theorem State.setXltWays_lanes (s : State) (i : Nat) (es : List XEnt) : (s.setXltWays i es).lanes = s.lanes := by unfold State.setXltWays; rfl
@[simp] theorem State.setXltWays_crcs (s : State) (i : Nat) (es : List XEnt) : (s.setXltWays i es).crcs = s.crcs := by unfold State.setXltWays; rfl
@[simp] theorem State.setJob_variant (s : State) (k : Nat) (j : Option Job) : (s.setJob k j).variant = s.variant := by unfold State.setJob; rfl
@[simp] theorem State.setJob_pending (s : State) (k : Nat) (j : Option Job) : (s.setJob k j).pending = s.pending := by unfold State.setJob; rfl
@[simp] theorem State.setJob_cycle (s : State) (k : Nat) (j : Option Job) : (s.setJob k j).cycle = s.cycle := by unfold State.setJob; rfl
@[simp] theorem State.setJob_freeCtr (s : State) (k : Nat) (j : Option Job) : (s.setJob k j).freeCtr = s.freeCtr := by unfold State.setJob; rfl
@[simp] theorem State.setJob_rdata (s : State) (k : Nat) (j : Option Job) : (s.setJob k j).rdata = s.rdata := by unfold State.setJob; rfl
@[simp] theorem State.setJob_sent (s : State) (k : Nat) (j : Option Job) : (s.setJob k j).sent = s.sent := by unfold State.setJob; rfl
@[simp] theorem State.setJob_regs (s : State) (k : Nat) (j : Option Job) : (s.setJob k j).regs = s.regs := by unfold State.setJob; rfl
@[simp] theorem State.setJob_lt (s : State) (k : Nat) (j : Option Job) : (s.setJob k j).lt = s.lt := by unfold State.setJob; rfl
@[simp] theorem State.setJob_refs (s : State) (k : Nat) (j : Option Job) : (s.setJob k j).refs = s.refs := by unfold State.setJob; rfl
@[simp] theorem State.setJob_ptp (s : State) (k : Nat) (j : Option Job) : (s.setJob k j).ptp = s.ptp := by unfold State.setJob; rfl
@[simp] theorem State.setJob_sch (s : State) (k : Nat) (j : Option Job) : (s.setJob k j).sch = s.sch := by unfold State.setJob; rfl
@[simp] theorem State.setJob_xlt (s : State) (k : Nat) (j : Option Job) : (s.setJob k j).xlt = s.xlt := by unfold State.setJob; rfl
@[simp] theorem State.setJob_stg (s : State) (k : Nat) (j : Option Job) : (s.setJob k j).stg = s.stg := by unfold State.setJob; rfl
@[simp] theorem State.setJob_recorder (s : State) (k : Nat) (j : Option Job) : (s.setJob k j).recorder = s.recorder := by unfold State.setJob; rfl
@[simp] theorem State.setJob_rst (s : State) (k : Nat) (j : Option Job) : (s.setJob k j).rst = s.rst := by unfold State.setJob; rfl
@[simp] theorem State.setJob_hbm (s : State) (k : Nat) (j : Option Job) : (s.setJob k j).hbm = s.hbm := by unfold State.setJob; rfl
@[simp] theorem State.setJob_whl (s : State) (k : Nat) (j : Option Job) : (s.setJob k j).whl = s.whl := by unfold State.setJob; rfl
@[simp] theorem State.setJob_aud (s : State) (k : Nat) (j : Option Job) : (s.setJob k j).aud = s.aud := by unfold State.setJob; rfl
@[simp] theorem State.setJob_ing (s : State) (k : Nat) (j : Option Job) : (s.setJob k j).ing = s.ing := by unfold State.setJob; rfl
@[simp] theorem State.setJob_cmp (s : State) (k : Nat) (j : Option Job) : (s.setJob k j).cmp = s.cmp := by unfold State.setJob; rfl
@[simp] theorem State.setJob_pool (s : State) (k : Nat) (j : Option Job) : (s.setJob k j).pool = s.pool := by unfold State.setJob; rfl
@[simp] theorem State.setJob_dec (s : State) (k : Nat) (j : Option Job) : (s.setJob k j).dec = s.dec := by unfold State.setJob; rfl
@[simp] theorem State.setJob_enc (s : State) (k : Nat) (j : Option Job) : (s.setJob k j).enc = s.enc := by unfold State.setJob; rfl
@[simp] theorem State.setJob_red (s : State) (k : Nat) (j : Option Job) : (s.setJob k j).red = s.red := by unfold State.setJob; rfl
@[simp] theorem State.setJob_hbms (s : State) (k : Nat) (j : Option Job) : (s.setJob k j).hbms = s.hbms := by unfold State.setJob; rfl
@[simp] theorem State.setJob_lanes (s : State) (k : Nat) (j : Option Job) : (s.setJob k j).lanes = s.lanes := by unfold State.setJob; rfl
@[simp] theorem State.setJob_crcs (s : State) (k : Nat) (j : Option Job) : (s.setJob k j).crcs = s.crcs := by unfold State.setJob; rfl
@[simp] theorem State.setTask_variant (s : State) (d t : Nat) (x : Task) : (s.setTask d t x).variant = s.variant := by unfold State.setTask; rfl
@[simp] theorem State.setTask_pending (s : State) (d t : Nat) (x : Task) : (s.setTask d t x).pending = s.pending := by unfold State.setTask; rfl
@[simp] theorem State.setTask_cycle (s : State) (d t : Nat) (x : Task) : (s.setTask d t x).cycle = s.cycle := by unfold State.setTask; rfl
@[simp] theorem State.setTask_freeCtr (s : State) (d t : Nat) (x : Task) : (s.setTask d t x).freeCtr = s.freeCtr := by unfold State.setTask; rfl
@[simp] theorem State.setTask_rdata (s : State) (d t : Nat) (x : Task) : (s.setTask d t x).rdata = s.rdata := by unfold State.setTask; rfl
@[simp] theorem State.setTask_sent (s : State) (d t : Nat) (x : Task) : (s.setTask d t x).sent = s.sent := by unfold State.setTask; rfl
@[simp] theorem State.setTask_regs (s : State) (d t : Nat) (x : Task) : (s.setTask d t x).regs = s.regs := by unfold State.setTask; rfl
@[simp] theorem State.setTask_lt (s : State) (d t : Nat) (x : Task) : (s.setTask d t x).lt = s.lt := by unfold State.setTask; rfl
@[simp] theorem State.setTask_refs (s : State) (d t : Nat) (x : Task) : (s.setTask d t x).refs = s.refs := by unfold State.setTask; rfl
@[simp] theorem State.setTask_ptp (s : State) (d t : Nat) (x : Task) : (s.setTask d t x).ptp = s.ptp := by unfold State.setTask; rfl
@[simp] theorem State.setTask_host (s : State) (d t : Nat) (x : Task) : (s.setTask d t x).host = s.host := by unfold State.setTask; rfl
@[simp] theorem State.setTask_xlt (s : State) (d t : Nat) (x : Task) : (s.setTask d t x).xlt = s.xlt := by unfold State.setTask; rfl
@[simp] theorem State.setTask_stg (s : State) (d t : Nat) (x : Task) : (s.setTask d t x).stg = s.stg := by unfold State.setTask; rfl
@[simp] theorem State.setTask_recorder (s : State) (d t : Nat) (x : Task) : (s.setTask d t x).recorder = s.recorder := by unfold State.setTask; rfl
@[simp] theorem State.setTask_rst (s : State) (d t : Nat) (x : Task) : (s.setTask d t x).rst = s.rst := by unfold State.setTask; rfl
@[simp] theorem State.setTask_hbm (s : State) (d t : Nat) (x : Task) : (s.setTask d t x).hbm = s.hbm := by unfold State.setTask; rfl
@[simp] theorem State.setTask_whl (s : State) (d t : Nat) (x : Task) : (s.setTask d t x).whl = s.whl := by unfold State.setTask; rfl
@[simp] theorem State.setTask_aud (s : State) (d t : Nat) (x : Task) : (s.setTask d t x).aud = s.aud := by unfold State.setTask; rfl
@[simp] theorem State.setTask_ing (s : State) (d t : Nat) (x : Task) : (s.setTask d t x).ing = s.ing := by unfold State.setTask; rfl
@[simp] theorem State.setTask_cmp (s : State) (d t : Nat) (x : Task) : (s.setTask d t x).cmp = s.cmp := by unfold State.setTask; rfl
@[simp] theorem State.setTask_pool (s : State) (d t : Nat) (x : Task) : (s.setTask d t x).pool = s.pool := by unfold State.setTask; rfl
@[simp] theorem State.setTask_dec (s : State) (d t : Nat) (x : Task) : (s.setTask d t x).dec = s.dec := by unfold State.setTask; rfl
@[simp] theorem State.setTask_enc (s : State) (d t : Nat) (x : Task) : (s.setTask d t x).enc = s.enc := by unfold State.setTask; rfl
@[simp] theorem State.setTask_red (s : State) (d t : Nat) (x : Task) : (s.setTask d t x).red = s.red := by unfold State.setTask; rfl
@[simp] theorem State.setTask_hbms (s : State) (d t : Nat) (x : Task) : (s.setTask d t x).hbms = s.hbms := by unfold State.setTask; rfl
@[simp] theorem State.setTask_lanes (s : State) (d t : Nat) (x : Task) : (s.setTask d t x).lanes = s.lanes := by unfold State.setTask; rfl
@[simp] theorem State.setTask_crcs (s : State) (d t : Nat) (x : Task) : (s.setTask d t x).crcs = s.crcs := by unfold State.setTask; rfl
@[simp] theorem State.holdInHbm_variant (s : State) (w : Work) : (s.holdInHbm w).variant = s.variant := by unfold State.holdInHbm; rfl
@[simp] theorem State.holdInHbm_pending (s : State) (w : Work) : (s.holdInHbm w).pending = s.pending := by unfold State.holdInHbm; rfl
@[simp] theorem State.holdInHbm_cycle (s : State) (w : Work) : (s.holdInHbm w).cycle = s.cycle := by unfold State.holdInHbm; rfl
@[simp] theorem State.holdInHbm_freeCtr (s : State) (w : Work) : (s.holdInHbm w).freeCtr = s.freeCtr := by unfold State.holdInHbm; rfl
@[simp] theorem State.holdInHbm_rdata (s : State) (w : Work) : (s.holdInHbm w).rdata = s.rdata := by unfold State.holdInHbm; rfl
@[simp] theorem State.holdInHbm_sent (s : State) (w : Work) : (s.holdInHbm w).sent = s.sent := by unfold State.holdInHbm; rfl
@[simp] theorem State.holdInHbm_regs (s : State) (w : Work) : (s.holdInHbm w).regs = s.regs := by unfold State.holdInHbm; rfl
@[simp] theorem State.holdInHbm_lt (s : State) (w : Work) : (s.holdInHbm w).lt = s.lt := by unfold State.holdInHbm; rfl
@[simp] theorem State.holdInHbm_refs (s : State) (w : Work) : (s.holdInHbm w).refs = s.refs := by unfold State.holdInHbm; rfl
@[simp] theorem State.holdInHbm_ptp (s : State) (w : Work) : (s.holdInHbm w).ptp = s.ptp := by unfold State.holdInHbm; rfl
@[simp] theorem State.holdInHbm_host (s : State) (w : Work) : (s.holdInHbm w).host = s.host := by unfold State.holdInHbm; rfl
@[simp] theorem State.holdInHbm_sch (s : State) (w : Work) : (s.holdInHbm w).sch = s.sch := by unfold State.holdInHbm; rfl
@[simp] theorem State.holdInHbm_stg (s : State) (w : Work) : (s.holdInHbm w).stg = s.stg := by unfold State.holdInHbm; rfl
@[simp] theorem State.holdInHbm_recorder (s : State) (w : Work) : (s.holdInHbm w).recorder = s.recorder := by unfold State.holdInHbm; rfl
@[simp] theorem State.holdInHbm_rst (s : State) (w : Work) : (s.holdInHbm w).rst = s.rst := by unfold State.holdInHbm; rfl
@[simp] theorem State.holdInHbm_hbm (s : State) (w : Work) : (s.holdInHbm w).hbm = s.hbm := by unfold State.holdInHbm; rfl
@[simp] theorem State.holdInHbm_whl (s : State) (w : Work) : (s.holdInHbm w).whl = s.whl := by unfold State.holdInHbm; rfl
@[simp] theorem State.holdInHbm_aud (s : State) (w : Work) : (s.holdInHbm w).aud = s.aud := by unfold State.holdInHbm; rfl
@[simp] theorem State.holdInHbm_ing (s : State) (w : Work) : (s.holdInHbm w).ing = s.ing := by unfold State.holdInHbm; rfl
@[simp] theorem State.holdInHbm_cmp (s : State) (w : Work) : (s.holdInHbm w).cmp = s.cmp := by unfold State.holdInHbm; rfl
@[simp] theorem State.holdInHbm_pool (s : State) (w : Work) : (s.holdInHbm w).pool = s.pool := by unfold State.holdInHbm; rfl
@[simp] theorem State.holdInHbm_dec (s : State) (w : Work) : (s.holdInHbm w).dec = s.dec := by unfold State.holdInHbm; rfl
@[simp] theorem State.holdInHbm_enc (s : State) (w : Work) : (s.holdInHbm w).enc = s.enc := by unfold State.holdInHbm; rfl
@[simp] theorem State.holdInHbm_red (s : State) (w : Work) : (s.holdInHbm w).red = s.red := by unfold State.holdInHbm; rfl
@[simp] theorem State.holdInHbm_hbms (s : State) (w : Work) : (s.holdInHbm w).hbms = s.hbms := by unfold State.holdInHbm; rfl
@[simp] theorem State.holdInHbm_lanes (s : State) (w : Work) : (s.holdInHbm w).lanes = s.lanes := by unfold State.holdInHbm; rfl
@[simp] theorem State.holdInHbm_crcs (s : State) (w : Work) : (s.holdInHbm w).crcs = s.crcs := by unfold State.holdInHbm; rfl
@[simp] theorem State.setPrg_variant (s : State) (i : Nat) (p : Option Prg) : (s.setPrg i p).variant = s.variant := by unfold State.setPrg; rfl
@[simp] theorem State.setPrg_pending (s : State) (i : Nat) (p : Option Prg) : (s.setPrg i p).pending = s.pending := by unfold State.setPrg; rfl
@[simp] theorem State.setPrg_cycle (s : State) (i : Nat) (p : Option Prg) : (s.setPrg i p).cycle = s.cycle := by unfold State.setPrg; rfl
@[simp] theorem State.setPrg_freeCtr (s : State) (i : Nat) (p : Option Prg) : (s.setPrg i p).freeCtr = s.freeCtr := by unfold State.setPrg; rfl
@[simp] theorem State.setPrg_rdata (s : State) (i : Nat) (p : Option Prg) : (s.setPrg i p).rdata = s.rdata := by unfold State.setPrg; rfl
@[simp] theorem State.setPrg_sent (s : State) (i : Nat) (p : Option Prg) : (s.setPrg i p).sent = s.sent := by unfold State.setPrg; rfl
@[simp] theorem State.setPrg_regs (s : State) (i : Nat) (p : Option Prg) : (s.setPrg i p).regs = s.regs := by unfold State.setPrg; rfl
@[simp] theorem State.setPrg_lt (s : State) (i : Nat) (p : Option Prg) : (s.setPrg i p).lt = s.lt := by unfold State.setPrg; rfl
@[simp] theorem State.setPrg_refs (s : State) (i : Nat) (p : Option Prg) : (s.setPrg i p).refs = s.refs := by unfold State.setPrg; rfl
@[simp] theorem State.setPrg_ptp (s : State) (i : Nat) (p : Option Prg) : (s.setPrg i p).ptp = s.ptp := by unfold State.setPrg; rfl
@[simp] theorem State.setPrg_host (s : State) (i : Nat) (p : Option Prg) : (s.setPrg i p).host = s.host := by unfold State.setPrg; rfl
@[simp] theorem State.setPrg_sch (s : State) (i : Nat) (p : Option Prg) : (s.setPrg i p).sch = s.sch := by unfold State.setPrg; rfl
@[simp] theorem State.setPrg_stg (s : State) (i : Nat) (p : Option Prg) : (s.setPrg i p).stg = s.stg := by unfold State.setPrg; rfl
@[simp] theorem State.setPrg_recorder (s : State) (i : Nat) (p : Option Prg) : (s.setPrg i p).recorder = s.recorder := by unfold State.setPrg; rfl
@[simp] theorem State.setPrg_rst (s : State) (i : Nat) (p : Option Prg) : (s.setPrg i p).rst = s.rst := by unfold State.setPrg; rfl
@[simp] theorem State.setPrg_hbm (s : State) (i : Nat) (p : Option Prg) : (s.setPrg i p).hbm = s.hbm := by unfold State.setPrg; rfl
@[simp] theorem State.setPrg_whl (s : State) (i : Nat) (p : Option Prg) : (s.setPrg i p).whl = s.whl := by unfold State.setPrg; rfl
@[simp] theorem State.setPrg_aud (s : State) (i : Nat) (p : Option Prg) : (s.setPrg i p).aud = s.aud := by unfold State.setPrg; rfl
@[simp] theorem State.setPrg_ing (s : State) (i : Nat) (p : Option Prg) : (s.setPrg i p).ing = s.ing := by unfold State.setPrg; rfl
@[simp] theorem State.setPrg_cmp (s : State) (i : Nat) (p : Option Prg) : (s.setPrg i p).cmp = s.cmp := by unfold State.setPrg; rfl
@[simp] theorem State.setPrg_pool (s : State) (i : Nat) (p : Option Prg) : (s.setPrg i p).pool = s.pool := by unfold State.setPrg; rfl
@[simp] theorem State.setPrg_dec (s : State) (i : Nat) (p : Option Prg) : (s.setPrg i p).dec = s.dec := by unfold State.setPrg; rfl
@[simp] theorem State.setPrg_enc (s : State) (i : Nat) (p : Option Prg) : (s.setPrg i p).enc = s.enc := by unfold State.setPrg; rfl
@[simp] theorem State.setPrg_red (s : State) (i : Nat) (p : Option Prg) : (s.setPrg i p).red = s.red := by unfold State.setPrg; rfl
@[simp] theorem State.setPrg_hbms (s : State) (i : Nat) (p : Option Prg) : (s.setPrg i p).hbms = s.hbms := by unfold State.setPrg; rfl
@[simp] theorem State.setPrg_lanes (s : State) (i : Nat) (p : Option Prg) : (s.setPrg i p).lanes = s.lanes := by unfold State.setPrg; rfl
@[simp] theorem State.setPrg_crcs (s : State) (i : Nat) (p : Option Prg) : (s.setPrg i p).crcs = s.crcs := by unfold State.setPrg; rfl
@[simp] theorem State.setReady_variant (s : State) (d b l : Nat) (ts : List Nat) : (s.setReady d b l ts).variant = s.variant := by unfold State.setReady; rfl
@[simp] theorem State.setReady_pending (s : State) (d b l : Nat) (ts : List Nat) : (s.setReady d b l ts).pending = s.pending := by unfold State.setReady; rfl
@[simp] theorem State.setReady_cycle (s : State) (d b l : Nat) (ts : List Nat) : (s.setReady d b l ts).cycle = s.cycle := by unfold State.setReady; rfl
@[simp] theorem State.setReady_freeCtr (s : State) (d b l : Nat) (ts : List Nat) : (s.setReady d b l ts).freeCtr = s.freeCtr := by unfold State.setReady; rfl
@[simp] theorem State.setReady_rdata (s : State) (d b l : Nat) (ts : List Nat) : (s.setReady d b l ts).rdata = s.rdata := by unfold State.setReady; rfl
@[simp] theorem State.setReady_sent (s : State) (d b l : Nat) (ts : List Nat) : (s.setReady d b l ts).sent = s.sent := by unfold State.setReady; rfl
@[simp] theorem State.setReady_regs (s : State) (d b l : Nat) (ts : List Nat) : (s.setReady d b l ts).regs = s.regs := by unfold State.setReady; rfl
@[simp] theorem State.setReady_lt (s : State) (d b l : Nat) (ts : List Nat) : (s.setReady d b l ts).lt = s.lt := by unfold State.setReady; rfl
@[simp] theorem State.setReady_refs (s : State) (d b l : Nat) (ts : List Nat) : (s.setReady d b l ts).refs = s.refs := by unfold State.setReady; rfl
@[simp] theorem State.setReady_ptp (s : State) (d b l : Nat) (ts : List Nat) : (s.setReady d b l ts).ptp = s.ptp := by unfold State.setReady; rfl
@[simp] theorem State.setReady_host (s : State) (d b l : Nat) (ts : List Nat) : (s.setReady d b l ts).host = s.host := by unfold State.setReady; rfl
@[simp] theorem State.setReady_xlt (s : State) (d b l : Nat) (ts : List Nat) : (s.setReady d b l ts).xlt = s.xlt := by unfold State.setReady; rfl
@[simp] theorem State.setReady_stg (s : State) (d b l : Nat) (ts : List Nat) : (s.setReady d b l ts).stg = s.stg := by unfold State.setReady; rfl
@[simp] theorem State.setReady_recorder (s : State) (d b l : Nat) (ts : List Nat) : (s.setReady d b l ts).recorder = s.recorder := by unfold State.setReady; rfl
@[simp] theorem State.setReady_rst (s : State) (d b l : Nat) (ts : List Nat) : (s.setReady d b l ts).rst = s.rst := by unfold State.setReady; rfl
@[simp] theorem State.setReady_hbm (s : State) (d b l : Nat) (ts : List Nat) : (s.setReady d b l ts).hbm = s.hbm := by unfold State.setReady; rfl
@[simp] theorem State.setReady_whl (s : State) (d b l : Nat) (ts : List Nat) : (s.setReady d b l ts).whl = s.whl := by unfold State.setReady; rfl
@[simp] theorem State.setReady_aud (s : State) (d b l : Nat) (ts : List Nat) : (s.setReady d b l ts).aud = s.aud := by unfold State.setReady; rfl
@[simp] theorem State.setReady_ing (s : State) (d b l : Nat) (ts : List Nat) : (s.setReady d b l ts).ing = s.ing := by unfold State.setReady; rfl
@[simp] theorem State.setReady_cmp (s : State) (d b l : Nat) (ts : List Nat) : (s.setReady d b l ts).cmp = s.cmp := by unfold State.setReady; rfl
@[simp] theorem State.setReady_pool (s : State) (d b l : Nat) (ts : List Nat) : (s.setReady d b l ts).pool = s.pool := by unfold State.setReady; rfl
@[simp] theorem State.setReady_dec (s : State) (d b l : Nat) (ts : List Nat) : (s.setReady d b l ts).dec = s.dec := by unfold State.setReady; rfl
@[simp] theorem State.setReady_enc (s : State) (d b l : Nat) (ts : List Nat) : (s.setReady d b l ts).enc = s.enc := by unfold State.setReady; rfl
@[simp] theorem State.setReady_red (s : State) (d b l : Nat) (ts : List Nat) : (s.setReady d b l ts).red = s.red := by unfold State.setReady; rfl
@[simp] theorem State.setReady_hbms (s : State) (d b l : Nat) (ts : List Nat) : (s.setReady d b l ts).hbms = s.hbms := by unfold State.setReady; rfl
@[simp] theorem State.setReady_lanes (s : State) (d b l : Nat) (ts : List Nat) : (s.setReady d b l ts).lanes = s.lanes := by unfold State.setReady; rfl
@[simp] theorem State.setReady_crcs (s : State) (d b l : Nat) (ts : List Nat) : (s.setReady d b l ts).crcs = s.crcs := by unfold State.setReady; rfl
@[simp] theorem State.setDelay_variant (s : State) (d l : Nat) (ts : List Nat) : (s.setDelay d l ts).variant = s.variant := by unfold State.setDelay; rfl
@[simp] theorem State.setDelay_pending (s : State) (d l : Nat) (ts : List Nat) : (s.setDelay d l ts).pending = s.pending := by unfold State.setDelay; rfl
@[simp] theorem State.setDelay_cycle (s : State) (d l : Nat) (ts : List Nat) : (s.setDelay d l ts).cycle = s.cycle := by unfold State.setDelay; rfl
@[simp] theorem State.setDelay_freeCtr (s : State) (d l : Nat) (ts : List Nat) : (s.setDelay d l ts).freeCtr = s.freeCtr := by unfold State.setDelay; rfl
@[simp] theorem State.setDelay_rdata (s : State) (d l : Nat) (ts : List Nat) : (s.setDelay d l ts).rdata = s.rdata := by unfold State.setDelay; rfl
@[simp] theorem State.setDelay_sent (s : State) (d l : Nat) (ts : List Nat) : (s.setDelay d l ts).sent = s.sent := by unfold State.setDelay; rfl
@[simp] theorem State.setDelay_regs (s : State) (d l : Nat) (ts : List Nat) : (s.setDelay d l ts).regs = s.regs := by unfold State.setDelay; rfl
@[simp] theorem State.setDelay_lt (s : State) (d l : Nat) (ts : List Nat) : (s.setDelay d l ts).lt = s.lt := by unfold State.setDelay; rfl
@[simp] theorem State.setDelay_refs (s : State) (d l : Nat) (ts : List Nat) : (s.setDelay d l ts).refs = s.refs := by unfold State.setDelay; rfl
@[simp] theorem State.setDelay_ptp (s : State) (d l : Nat) (ts : List Nat) : (s.setDelay d l ts).ptp = s.ptp := by unfold State.setDelay; rfl
@[simp] theorem State.setDelay_host (s : State) (d l : Nat) (ts : List Nat) : (s.setDelay d l ts).host = s.host := by unfold State.setDelay; rfl
@[simp] theorem State.setDelay_xlt (s : State) (d l : Nat) (ts : List Nat) : (s.setDelay d l ts).xlt = s.xlt := by unfold State.setDelay; rfl
@[simp] theorem State.setDelay_stg (s : State) (d l : Nat) (ts : List Nat) : (s.setDelay d l ts).stg = s.stg := by unfold State.setDelay; rfl
@[simp] theorem State.setDelay_recorder (s : State) (d l : Nat) (ts : List Nat) : (s.setDelay d l ts).recorder = s.recorder := by unfold State.setDelay; rfl
@[simp] theorem State.setDelay_rst (s : State) (d l : Nat) (ts : List Nat) : (s.setDelay d l ts).rst = s.rst := by unfold State.setDelay; rfl
@[simp] theorem State.setDelay_hbm (s : State) (d l : Nat) (ts : List Nat) : (s.setDelay d l ts).hbm = s.hbm := by unfold State.setDelay; rfl
@[simp] theorem State.setDelay_whl (s : State) (d l : Nat) (ts : List Nat) : (s.setDelay d l ts).whl = s.whl := by unfold State.setDelay; rfl
@[simp] theorem State.setDelay_aud (s : State) (d l : Nat) (ts : List Nat) : (s.setDelay d l ts).aud = s.aud := by unfold State.setDelay; rfl
@[simp] theorem State.setDelay_ing (s : State) (d l : Nat) (ts : List Nat) : (s.setDelay d l ts).ing = s.ing := by unfold State.setDelay; rfl
@[simp] theorem State.setDelay_cmp (s : State) (d l : Nat) (ts : List Nat) : (s.setDelay d l ts).cmp = s.cmp := by unfold State.setDelay; rfl
@[simp] theorem State.setDelay_pool (s : State) (d l : Nat) (ts : List Nat) : (s.setDelay d l ts).pool = s.pool := by unfold State.setDelay; rfl
@[simp] theorem State.setDelay_dec (s : State) (d l : Nat) (ts : List Nat) : (s.setDelay d l ts).dec = s.dec := by unfold State.setDelay; rfl
@[simp] theorem State.setDelay_enc (s : State) (d l : Nat) (ts : List Nat) : (s.setDelay d l ts).enc = s.enc := by unfold State.setDelay; rfl
@[simp] theorem State.setDelay_red (s : State) (d l : Nat) (ts : List Nat) : (s.setDelay d l ts).red = s.red := by unfold State.setDelay; rfl
@[simp] theorem State.setDelay_hbms (s : State) (d l : Nat) (ts : List Nat) : (s.setDelay d l ts).hbms = s.hbms := by unfold State.setDelay; rfl
@[simp] theorem State.setDelay_lanes (s : State) (d l : Nat) (ts : List Nat) : (s.setDelay d l ts).lanes = s.lanes := by unfold State.setDelay; rfl
@[simp] theorem State.setDelay_crcs (s : State) (d l : Nat) (ts : List Nat) : (s.setDelay d l ts).crcs = s.crcs := by unfold State.setDelay; rfl
@[simp] theorem State.refill_variant (s : State) (d b : Nat) : (s.refill d b).variant = s.variant := by unfold State.refill; rfl
@[simp] theorem State.refill_pending (s : State) (d b : Nat) : (s.refill d b).pending = s.pending := by unfold State.refill; rfl
@[simp] theorem State.refill_cycle (s : State) (d b : Nat) : (s.refill d b).cycle = s.cycle := by unfold State.refill; rfl
@[simp] theorem State.refill_freeCtr (s : State) (d b : Nat) : (s.refill d b).freeCtr = s.freeCtr := by unfold State.refill; rfl
@[simp] theorem State.refill_rdata (s : State) (d b : Nat) : (s.refill d b).rdata = s.rdata := by unfold State.refill; rfl
@[simp] theorem State.refill_sent (s : State) (d b : Nat) : (s.refill d b).sent = s.sent := by unfold State.refill; rfl
@[simp] theorem State.refill_regs (s : State) (d b : Nat) : (s.refill d b).regs = s.regs := by unfold State.refill; rfl
@[simp] theorem State.refill_lt (s : State) (d b : Nat) : (s.refill d b).lt = s.lt := by unfold State.refill; rfl
@[simp] theorem State.refill_refs (s : State) (d b : Nat) : (s.refill d b).refs = s.refs := by unfold State.refill; rfl
@[simp] theorem State.refill_ptp (s : State) (d b : Nat) : (s.refill d b).ptp = s.ptp := by unfold State.refill; rfl
@[simp] theorem State.refill_host (s : State) (d b : Nat) : (s.refill d b).host = s.host := by unfold State.refill; rfl
@[simp] theorem State.refill_xlt (s : State) (d b : Nat) : (s.refill d b).xlt = s.xlt := by unfold State.refill; rfl
@[simp] theorem State.refill_stg (s : State) (d b : Nat) : (s.refill d b).stg = s.stg := by unfold State.refill; rfl
@[simp] theorem State.refill_recorder (s : State) (d b : Nat) : (s.refill d b).recorder = s.recorder := by unfold State.refill; rfl
@[simp] theorem State.refill_rst (s : State) (d b : Nat) : (s.refill d b).rst = s.rst := by unfold State.refill; rfl
@[simp] theorem State.refill_hbm (s : State) (d b : Nat) : (s.refill d b).hbm = s.hbm := by unfold State.refill; rfl
@[simp] theorem State.refill_whl (s : State) (d b : Nat) : (s.refill d b).whl = s.whl := by unfold State.refill; rfl
@[simp] theorem State.refill_aud (s : State) (d b : Nat) : (s.refill d b).aud = s.aud := by unfold State.refill; rfl
@[simp] theorem State.refill_ing (s : State) (d b : Nat) : (s.refill d b).ing = s.ing := by unfold State.refill; rfl
@[simp] theorem State.refill_cmp (s : State) (d b : Nat) : (s.refill d b).cmp = s.cmp := by unfold State.refill; rfl
@[simp] theorem State.refill_pool (s : State) (d b : Nat) : (s.refill d b).pool = s.pool := by unfold State.refill; rfl
@[simp] theorem State.refill_dec (s : State) (d b : Nat) : (s.refill d b).dec = s.dec := by unfold State.refill; rfl
@[simp] theorem State.refill_enc (s : State) (d b : Nat) : (s.refill d b).enc = s.enc := by unfold State.refill; rfl
@[simp] theorem State.refill_red (s : State) (d b : Nat) : (s.refill d b).red = s.red := by unfold State.refill; rfl
@[simp] theorem State.refill_hbms (s : State) (d b : Nat) : (s.refill d b).hbms = s.hbms := by unfold State.refill; rfl
@[simp] theorem State.refill_lanes (s : State) (d b : Nat) : (s.refill d b).lanes = s.lanes := by unfold State.refill; rfl
@[simp] theorem State.refill_crcs (s : State) (d b : Nat) : (s.refill d b).crcs = s.crcs := by unfold State.refill; rfl
@[simp] theorem State.unkept_variant (s : State) : (s.unkept).variant = s.variant := by unfold State.unkept; rfl
@[simp] theorem State.unkept_pending (s : State) : (s.unkept).pending = s.pending := by unfold State.unkept; rfl
@[simp] theorem State.unkept_cycle (s : State) : (s.unkept).cycle = s.cycle := by unfold State.unkept; rfl
@[simp] theorem State.unkept_freeCtr (s : State) : (s.unkept).freeCtr = s.freeCtr := by unfold State.unkept; rfl
@[simp] theorem State.unkept_rdata (s : State) : (s.unkept).rdata = s.rdata := by unfold State.unkept; rfl
@[simp] theorem State.unkept_sent (s : State) : (s.unkept).sent = s.sent := by unfold State.unkept; rfl
@[simp] theorem State.unkept_regs (s : State) : (s.unkept).regs = s.regs := by unfold State.unkept; rfl
@[simp] theorem State.unkept_lt (s : State) : (s.unkept).lt = s.lt := by unfold State.unkept; rfl
@[simp] theorem State.unkept_refs (s : State) : (s.unkept).refs = s.refs := by unfold State.unkept; rfl
@[simp] theorem State.unkept_ptp (s : State) : (s.unkept).ptp = s.ptp := by unfold State.unkept; rfl
@[simp] theorem State.unkept_host (s : State) : (s.unkept).host = s.host := by unfold State.unkept; rfl
@[simp] theorem State.unkept_sch (s : State) : (s.unkept).sch = s.sch := by unfold State.unkept; rfl
@[simp] theorem State.unkept_xlt (s : State) : (s.unkept).xlt = s.xlt := by unfold State.unkept; rfl
@[simp] theorem State.unkept_stg (s : State) : (s.unkept).stg = s.stg := by unfold State.unkept; rfl
@[simp] theorem State.unkept_recorder (s : State) : (s.unkept).recorder = s.recorder := by unfold State.unkept; rfl
@[simp] theorem State.unkept_hbm (s : State) : (s.unkept).hbm = s.hbm := by unfold State.unkept; rfl
@[simp] theorem State.unkept_whl (s : State) : (s.unkept).whl = s.whl := by unfold State.unkept; rfl
@[simp] theorem State.unkept_aud (s : State) : (s.unkept).aud = s.aud := by unfold State.unkept; rfl
@[simp] theorem State.unkept_ing (s : State) : (s.unkept).ing = s.ing := by unfold State.unkept; rfl
@[simp] theorem State.unkept_cmp (s : State) : (s.unkept).cmp = s.cmp := by unfold State.unkept; rfl
@[simp] theorem State.unkept_pool (s : State) : (s.unkept).pool = s.pool := by unfold State.unkept; rfl
@[simp] theorem State.unkept_dec (s : State) : (s.unkept).dec = s.dec := by unfold State.unkept; rfl
@[simp] theorem State.unkept_enc (s : State) : (s.unkept).enc = s.enc := by unfold State.unkept; rfl
@[simp] theorem State.unkept_red (s : State) : (s.unkept).red = s.red := by unfold State.unkept; rfl
@[simp] theorem State.unkept_hbms (s : State) : (s.unkept).hbms = s.hbms := by unfold State.unkept; rfl
@[simp] theorem State.unkept_lanes (s : State) : (s.unkept).lanes = s.lanes := by unfold State.unkept; rfl
@[simp] theorem State.unkept_crcs (s : State) : (s.unkept).crcs = s.crcs := by unfold State.unkept; rfl
@[simp] theorem State.xltFlush_variant (s : State) : (s.xltFlush).variant = s.variant := by unfold State.xltFlush; rfl
@[simp] theorem State.xltFlush_pending (s : State) : (s.xltFlush).pending = s.pending := by unfold State.xltFlush; rfl
@[simp] theorem State.xltFlush_cycle (s : State) : (s.xltFlush).cycle = s.cycle := by unfold State.xltFlush; rfl
@[simp] theorem State.xltFlush_freeCtr (s : State) : (s.xltFlush).freeCtr = s.freeCtr := by unfold State.xltFlush; rfl
@[simp] theorem State.xltFlush_rdata (s : State) : (s.xltFlush).rdata = s.rdata := by unfold State.xltFlush; rfl
@[simp] theorem State.xltFlush_sent (s : State) : (s.xltFlush).sent = s.sent := by unfold State.xltFlush; rfl
@[simp] theorem State.xltFlush_regs (s : State) : (s.xltFlush).regs = s.regs := by unfold State.xltFlush; rfl
@[simp] theorem State.xltFlush_lt (s : State) : (s.xltFlush).lt = s.lt := by unfold State.xltFlush; rfl
@[simp] theorem State.xltFlush_refs (s : State) : (s.xltFlush).refs = s.refs := by unfold State.xltFlush; rfl
@[simp] theorem State.xltFlush_ptp (s : State) : (s.xltFlush).ptp = s.ptp := by unfold State.xltFlush; rfl
@[simp] theorem State.xltFlush_host (s : State) : (s.xltFlush).host = s.host := by unfold State.xltFlush; rfl
@[simp] theorem State.xltFlush_sch (s : State) : (s.xltFlush).sch = s.sch := by unfold State.xltFlush; rfl
@[simp] theorem State.xltFlush_stg (s : State) : (s.xltFlush).stg = s.stg := by unfold State.xltFlush; rfl
@[simp] theorem State.xltFlush_recorder (s : State) : (s.xltFlush).recorder = s.recorder := by unfold State.xltFlush; rfl
@[simp] theorem State.xltFlush_rst (s : State) : (s.xltFlush).rst = s.rst := by unfold State.xltFlush; rfl
@[simp] theorem State.xltFlush_hbm (s : State) : (s.xltFlush).hbm = s.hbm := by unfold State.xltFlush; rfl
@[simp] theorem State.xltFlush_whl (s : State) : (s.xltFlush).whl = s.whl := by unfold State.xltFlush; rfl
@[simp] theorem State.xltFlush_aud (s : State) : (s.xltFlush).aud = s.aud := by unfold State.xltFlush; rfl
@[simp] theorem State.xltFlush_ing (s : State) : (s.xltFlush).ing = s.ing := by unfold State.xltFlush; rfl
@[simp] theorem State.xltFlush_cmp (s : State) : (s.xltFlush).cmp = s.cmp := by unfold State.xltFlush; rfl
@[simp] theorem State.xltFlush_pool (s : State) : (s.xltFlush).pool = s.pool := by unfold State.xltFlush; rfl
@[simp] theorem State.xltFlush_dec (s : State) : (s.xltFlush).dec = s.dec := by unfold State.xltFlush; rfl
@[simp] theorem State.xltFlush_enc (s : State) : (s.xltFlush).enc = s.enc := by unfold State.xltFlush; rfl
@[simp] theorem State.xltFlush_red (s : State) : (s.xltFlush).red = s.red := by unfold State.xltFlush; rfl
@[simp] theorem State.xltFlush_hbms (s : State) : (s.xltFlush).hbms = s.hbms := by unfold State.xltFlush; rfl
@[simp] theorem State.xltFlush_lanes (s : State) : (s.xltFlush).lanes = s.lanes := by unfold State.xltFlush; rfl
@[simp] theorem State.xltFlush_crcs (s : State) : (s.xltFlush).crcs = s.crcs := by unfold State.xltFlush; rfl
@[simp] theorem State.setAudStr_variant (s : State) (a : Nat) (x : AudSt) : (s.setAudStr a x).variant = s.variant := by unfold State.setAudStr; rfl
@[simp] theorem State.setAudStr_pending (s : State) (a : Nat) (x : AudSt) : (s.setAudStr a x).pending = s.pending := by unfold State.setAudStr; rfl
@[simp] theorem State.setAudStr_cycle (s : State) (a : Nat) (x : AudSt) : (s.setAudStr a x).cycle = s.cycle := by unfold State.setAudStr; rfl
@[simp] theorem State.setAudStr_freeCtr (s : State) (a : Nat) (x : AudSt) : (s.setAudStr a x).freeCtr = s.freeCtr := by unfold State.setAudStr; rfl
@[simp] theorem State.setAudStr_rdata (s : State) (a : Nat) (x : AudSt) : (s.setAudStr a x).rdata = s.rdata := by unfold State.setAudStr; rfl
@[simp] theorem State.setAudStr_sent (s : State) (a : Nat) (x : AudSt) : (s.setAudStr a x).sent = s.sent := by unfold State.setAudStr; rfl
@[simp] theorem State.setAudStr_regs (s : State) (a : Nat) (x : AudSt) : (s.setAudStr a x).regs = s.regs := by unfold State.setAudStr; rfl
@[simp] theorem State.setAudStr_lt (s : State) (a : Nat) (x : AudSt) : (s.setAudStr a x).lt = s.lt := by unfold State.setAudStr; rfl
@[simp] theorem State.setAudStr_refs (s : State) (a : Nat) (x : AudSt) : (s.setAudStr a x).refs = s.refs := by unfold State.setAudStr; rfl
@[simp] theorem State.setAudStr_ptp (s : State) (a : Nat) (x : AudSt) : (s.setAudStr a x).ptp = s.ptp := by unfold State.setAudStr; rfl
@[simp] theorem State.setAudStr_host (s : State) (a : Nat) (x : AudSt) : (s.setAudStr a x).host = s.host := by unfold State.setAudStr; rfl
@[simp] theorem State.setAudStr_sch (s : State) (a : Nat) (x : AudSt) : (s.setAudStr a x).sch = s.sch := by unfold State.setAudStr; rfl
@[simp] theorem State.setAudStr_xlt (s : State) (a : Nat) (x : AudSt) : (s.setAudStr a x).xlt = s.xlt := by unfold State.setAudStr; rfl
@[simp] theorem State.setAudStr_stg (s : State) (a : Nat) (x : AudSt) : (s.setAudStr a x).stg = s.stg := by unfold State.setAudStr; rfl
@[simp] theorem State.setAudStr_recorder (s : State) (a : Nat) (x : AudSt) : (s.setAudStr a x).recorder = s.recorder := by unfold State.setAudStr; rfl
@[simp] theorem State.setAudStr_rst (s : State) (a : Nat) (x : AudSt) : (s.setAudStr a x).rst = s.rst := by unfold State.setAudStr; rfl
@[simp] theorem State.setAudStr_hbm (s : State) (a : Nat) (x : AudSt) : (s.setAudStr a x).hbm = s.hbm := by unfold State.setAudStr; rfl
@[simp] theorem State.setAudStr_whl (s : State) (a : Nat) (x : AudSt) : (s.setAudStr a x).whl = s.whl := by unfold State.setAudStr; rfl
@[simp] theorem State.setAudStr_ing (s : State) (a : Nat) (x : AudSt) : (s.setAudStr a x).ing = s.ing := by unfold State.setAudStr; rfl
@[simp] theorem State.setAudStr_cmp (s : State) (a : Nat) (x : AudSt) : (s.setAudStr a x).cmp = s.cmp := by unfold State.setAudStr; rfl
@[simp] theorem State.setAudStr_pool (s : State) (a : Nat) (x : AudSt) : (s.setAudStr a x).pool = s.pool := by unfold State.setAudStr; rfl
@[simp] theorem State.setAudStr_dec (s : State) (a : Nat) (x : AudSt) : (s.setAudStr a x).dec = s.dec := by unfold State.setAudStr; rfl
@[simp] theorem State.setAudStr_enc (s : State) (a : Nat) (x : AudSt) : (s.setAudStr a x).enc = s.enc := by unfold State.setAudStr; rfl
@[simp] theorem State.setAudStr_red (s : State) (a : Nat) (x : AudSt) : (s.setAudStr a x).red = s.red := by unfold State.setAudStr; rfl
@[simp] theorem State.setAudStr_hbms (s : State) (a : Nat) (x : AudSt) : (s.setAudStr a x).hbms = s.hbms := by unfold State.setAudStr; rfl
@[simp] theorem State.setAudStr_lanes (s : State) (a : Nat) (x : AudSt) : (s.setAudStr a x).lanes = s.lanes := by unfold State.setAudStr; rfl
@[simp] theorem State.setAudStr_crcs (s : State) (a : Nat) (x : AudSt) : (s.setAudStr a x).crcs = s.crcs := by unfold State.setAudStr; rfl
@[simp] theorem State.setGate_variant (s : State) (p : Nat) (g : GateSt) : (s.setGate p g).variant = s.variant := by unfold State.setGate; rfl
@[simp] theorem State.setGate_pending (s : State) (p : Nat) (g : GateSt) : (s.setGate p g).pending = s.pending := by unfold State.setGate; rfl
@[simp] theorem State.setGate_cycle (s : State) (p : Nat) (g : GateSt) : (s.setGate p g).cycle = s.cycle := by unfold State.setGate; rfl
@[simp] theorem State.setGate_freeCtr (s : State) (p : Nat) (g : GateSt) : (s.setGate p g).freeCtr = s.freeCtr := by unfold State.setGate; rfl
@[simp] theorem State.setGate_rdata (s : State) (p : Nat) (g : GateSt) : (s.setGate p g).rdata = s.rdata := by unfold State.setGate; rfl
@[simp] theorem State.setGate_sent (s : State) (p : Nat) (g : GateSt) : (s.setGate p g).sent = s.sent := by unfold State.setGate; rfl
@[simp] theorem State.setGate_regs (s : State) (p : Nat) (g : GateSt) : (s.setGate p g).regs = s.regs := by unfold State.setGate; rfl
@[simp] theorem State.setGate_lt (s : State) (p : Nat) (g : GateSt) : (s.setGate p g).lt = s.lt := by unfold State.setGate; rfl
@[simp] theorem State.setGate_refs (s : State) (p : Nat) (g : GateSt) : (s.setGate p g).refs = s.refs := by unfold State.setGate; rfl
@[simp] theorem State.setGate_ptp (s : State) (p : Nat) (g : GateSt) : (s.setGate p g).ptp = s.ptp := by unfold State.setGate; rfl
@[simp] theorem State.setGate_host (s : State) (p : Nat) (g : GateSt) : (s.setGate p g).host = s.host := by unfold State.setGate; rfl
@[simp] theorem State.setGate_sch (s : State) (p : Nat) (g : GateSt) : (s.setGate p g).sch = s.sch := by unfold State.setGate; rfl
@[simp] theorem State.setGate_xlt (s : State) (p : Nat) (g : GateSt) : (s.setGate p g).xlt = s.xlt := by unfold State.setGate; rfl
@[simp] theorem State.setGate_stg (s : State) (p : Nat) (g : GateSt) : (s.setGate p g).stg = s.stg := by unfold State.setGate; rfl
@[simp] theorem State.setGate_recorder (s : State) (p : Nat) (g : GateSt) : (s.setGate p g).recorder = s.recorder := by unfold State.setGate; rfl
@[simp] theorem State.setGate_rst (s : State) (p : Nat) (g : GateSt) : (s.setGate p g).rst = s.rst := by unfold State.setGate; rfl
@[simp] theorem State.setGate_hbm (s : State) (p : Nat) (g : GateSt) : (s.setGate p g).hbm = s.hbm := by unfold State.setGate; rfl
@[simp] theorem State.setGate_aud (s : State) (p : Nat) (g : GateSt) : (s.setGate p g).aud = s.aud := by unfold State.setGate; rfl
@[simp] theorem State.setGate_ing (s : State) (p : Nat) (g : GateSt) : (s.setGate p g).ing = s.ing := by unfold State.setGate; rfl
@[simp] theorem State.setGate_cmp (s : State) (p : Nat) (g : GateSt) : (s.setGate p g).cmp = s.cmp := by unfold State.setGate; rfl
@[simp] theorem State.setGate_pool (s : State) (p : Nat) (g : GateSt) : (s.setGate p g).pool = s.pool := by unfold State.setGate; rfl
@[simp] theorem State.setGate_dec (s : State) (p : Nat) (g : GateSt) : (s.setGate p g).dec = s.dec := by unfold State.setGate; rfl
@[simp] theorem State.setGate_enc (s : State) (p : Nat) (g : GateSt) : (s.setGate p g).enc = s.enc := by unfold State.setGate; rfl
@[simp] theorem State.setGate_red (s : State) (p : Nat) (g : GateSt) : (s.setGate p g).red = s.red := by unfold State.setGate; rfl
@[simp] theorem State.setGate_hbms (s : State) (p : Nat) (g : GateSt) : (s.setGate p g).hbms = s.hbms := by unfold State.setGate; rfl
@[simp] theorem State.setGate_lanes (s : State) (p : Nat) (g : GateSt) : (s.setGate p g).lanes = s.lanes := by unfold State.setGate; rfl
@[simp] theorem State.setGate_crcs (s : State) (p : Nat) (g : GateSt) : (s.setGate p g).crcs = s.crcs := by unfold State.setGate; rfl
@[simp] theorem State.setSending_variant (s : State) (p : Nat) (f : Option EthFrame) : (s.setSending p f).variant = s.variant := by unfold State.setSending; rfl
@[simp] theorem State.setSending_pending (s : State) (p : Nat) (f : Option EthFrame) : (s.setSending p f).pending = s.pending := by unfold State.setSending; rfl
@[simp] theorem State.setSending_cycle (s : State) (p : Nat) (f : Option EthFrame) : (s.setSending p f).cycle = s.cycle := by unfold State.setSending; rfl
@[simp] theorem State.setSending_freeCtr (s : State) (p : Nat) (f : Option EthFrame) : (s.setSending p f).freeCtr = s.freeCtr := by unfold State.setSending; rfl
@[simp] theorem State.setSending_rdata (s : State) (p : Nat) (f : Option EthFrame) : (s.setSending p f).rdata = s.rdata := by unfold State.setSending; rfl
@[simp] theorem State.setSending_sent (s : State) (p : Nat) (f : Option EthFrame) : (s.setSending p f).sent = s.sent := by unfold State.setSending; rfl
@[simp] theorem State.setSending_regs (s : State) (p : Nat) (f : Option EthFrame) : (s.setSending p f).regs = s.regs := by unfold State.setSending; rfl
@[simp] theorem State.setSending_lt (s : State) (p : Nat) (f : Option EthFrame) : (s.setSending p f).lt = s.lt := by unfold State.setSending; rfl
@[simp] theorem State.setSending_refs (s : State) (p : Nat) (f : Option EthFrame) : (s.setSending p f).refs = s.refs := by unfold State.setSending; rfl
@[simp] theorem State.setSending_ptp (s : State) (p : Nat) (f : Option EthFrame) : (s.setSending p f).ptp = s.ptp := by unfold State.setSending; rfl
@[simp] theorem State.setSending_host (s : State) (p : Nat) (f : Option EthFrame) : (s.setSending p f).host = s.host := by unfold State.setSending; rfl
@[simp] theorem State.setSending_sch (s : State) (p : Nat) (f : Option EthFrame) : (s.setSending p f).sch = s.sch := by unfold State.setSending; rfl
@[simp] theorem State.setSending_xlt (s : State) (p : Nat) (f : Option EthFrame) : (s.setSending p f).xlt = s.xlt := by unfold State.setSending; rfl
@[simp] theorem State.setSending_stg (s : State) (p : Nat) (f : Option EthFrame) : (s.setSending p f).stg = s.stg := by unfold State.setSending; rfl
@[simp] theorem State.setSending_recorder (s : State) (p : Nat) (f : Option EthFrame) : (s.setSending p f).recorder = s.recorder := by unfold State.setSending; rfl
@[simp] theorem State.setSending_rst (s : State) (p : Nat) (f : Option EthFrame) : (s.setSending p f).rst = s.rst := by unfold State.setSending; rfl
@[simp] theorem State.setSending_hbm (s : State) (p : Nat) (f : Option EthFrame) : (s.setSending p f).hbm = s.hbm := by unfold State.setSending; rfl
@[simp] theorem State.setSending_aud (s : State) (p : Nat) (f : Option EthFrame) : (s.setSending p f).aud = s.aud := by unfold State.setSending; rfl
@[simp] theorem State.setSending_ing (s : State) (p : Nat) (f : Option EthFrame) : (s.setSending p f).ing = s.ing := by unfold State.setSending; rfl
@[simp] theorem State.setSending_cmp (s : State) (p : Nat) (f : Option EthFrame) : (s.setSending p f).cmp = s.cmp := by unfold State.setSending; rfl
@[simp] theorem State.setSending_pool (s : State) (p : Nat) (f : Option EthFrame) : (s.setSending p f).pool = s.pool := by unfold State.setSending; rfl
@[simp] theorem State.setSending_dec (s : State) (p : Nat) (f : Option EthFrame) : (s.setSending p f).dec = s.dec := by unfold State.setSending; rfl
@[simp] theorem State.setSending_enc (s : State) (p : Nat) (f : Option EthFrame) : (s.setSending p f).enc = s.enc := by unfold State.setSending; rfl
@[simp] theorem State.setSending_red (s : State) (p : Nat) (f : Option EthFrame) : (s.setSending p f).red = s.red := by unfold State.setSending; rfl
@[simp] theorem State.setSending_hbms (s : State) (p : Nat) (f : Option EthFrame) : (s.setSending p f).hbms = s.hbms := by unfold State.setSending; rfl
@[simp] theorem State.setSending_lanes (s : State) (p : Nat) (f : Option EthFrame) : (s.setSending p f).lanes = s.lanes := by unfold State.setSending; rfl
@[simp] theorem State.setSending_crcs (s : State) (p : Nat) (f : Option EthFrame) : (s.setSending p f).crcs = s.crcs := by unfold State.setSending; rfl
@[simp] theorem State.addBin_variant (s : State) (q b : Nat) : (s.addBin q b).variant = s.variant := by unfold State.addBin; rfl
@[simp] theorem State.addBin_pending (s : State) (q b : Nat) : (s.addBin q b).pending = s.pending := by unfold State.addBin; rfl
@[simp] theorem State.addBin_cycle (s : State) (q b : Nat) : (s.addBin q b).cycle = s.cycle := by unfold State.addBin; rfl
@[simp] theorem State.addBin_freeCtr (s : State) (q b : Nat) : (s.addBin q b).freeCtr = s.freeCtr := by unfold State.addBin; rfl
@[simp] theorem State.addBin_rdata (s : State) (q b : Nat) : (s.addBin q b).rdata = s.rdata := by unfold State.addBin; rfl
@[simp] theorem State.addBin_sent (s : State) (q b : Nat) : (s.addBin q b).sent = s.sent := by unfold State.addBin; rfl
@[simp] theorem State.addBin_regs (s : State) (q b : Nat) : (s.addBin q b).regs = s.regs := by unfold State.addBin; rfl
@[simp] theorem State.addBin_lt (s : State) (q b : Nat) : (s.addBin q b).lt = s.lt := by unfold State.addBin; rfl
@[simp] theorem State.addBin_refs (s : State) (q b : Nat) : (s.addBin q b).refs = s.refs := by unfold State.addBin; rfl
@[simp] theorem State.addBin_ptp (s : State) (q b : Nat) : (s.addBin q b).ptp = s.ptp := by unfold State.addBin; rfl
@[simp] theorem State.addBin_host (s : State) (q b : Nat) : (s.addBin q b).host = s.host := by unfold State.addBin; rfl
@[simp] theorem State.addBin_sch (s : State) (q b : Nat) : (s.addBin q b).sch = s.sch := by unfold State.addBin; rfl
@[simp] theorem State.addBin_xlt (s : State) (q b : Nat) : (s.addBin q b).xlt = s.xlt := by unfold State.addBin; rfl
@[simp] theorem State.addBin_stg (s : State) (q b : Nat) : (s.addBin q b).stg = s.stg := by unfold State.addBin; rfl
@[simp] theorem State.addBin_recorder (s : State) (q b : Nat) : (s.addBin q b).recorder = s.recorder := by unfold State.addBin; rfl
@[simp] theorem State.addBin_rst (s : State) (q b : Nat) : (s.addBin q b).rst = s.rst := by unfold State.addBin; rfl
@[simp] theorem State.addBin_hbm (s : State) (q b : Nat) : (s.addBin q b).hbm = s.hbm := by unfold State.addBin; rfl
@[simp] theorem State.addBin_aud (s : State) (q b : Nat) : (s.addBin q b).aud = s.aud := by unfold State.addBin; rfl
@[simp] theorem State.addBin_ing (s : State) (q b : Nat) : (s.addBin q b).ing = s.ing := by unfold State.addBin; rfl
@[simp] theorem State.addBin_cmp (s : State) (q b : Nat) : (s.addBin q b).cmp = s.cmp := by unfold State.addBin; rfl
@[simp] theorem State.addBin_pool (s : State) (q b : Nat) : (s.addBin q b).pool = s.pool := by unfold State.addBin; rfl
@[simp] theorem State.addBin_dec (s : State) (q b : Nat) : (s.addBin q b).dec = s.dec := by unfold State.addBin; rfl
@[simp] theorem State.addBin_enc (s : State) (q b : Nat) : (s.addBin q b).enc = s.enc := by unfold State.addBin; rfl
@[simp] theorem State.addBin_red (s : State) (q b : Nat) : (s.addBin q b).red = s.red := by unfold State.addBin; rfl
@[simp] theorem State.addBin_hbms (s : State) (q b : Nat) : (s.addBin q b).hbms = s.hbms := by unfold State.addBin; rfl
@[simp] theorem State.addBin_lanes (s : State) (q b : Nat) : (s.addBin q b).lanes = s.lanes := by unfold State.addBin; rfl
@[simp] theorem State.addBin_crcs (s : State) (q b : Nat) : (s.addBin q b).crcs = s.crcs := by unfold State.addBin; rfl
@[simp] theorem State.setRef_variant (s : State) (k : Nat) (x : RefSt) : (s.setRef k x).variant = s.variant := by unfold State.setRef; rfl
@[simp] theorem State.setRef_pending (s : State) (k : Nat) (x : RefSt) : (s.setRef k x).pending = s.pending := by unfold State.setRef; rfl
@[simp] theorem State.setRef_cycle (s : State) (k : Nat) (x : RefSt) : (s.setRef k x).cycle = s.cycle := by unfold State.setRef; rfl
@[simp] theorem State.setRef_freeCtr (s : State) (k : Nat) (x : RefSt) : (s.setRef k x).freeCtr = s.freeCtr := by unfold State.setRef; rfl
@[simp] theorem State.setRef_rdata (s : State) (k : Nat) (x : RefSt) : (s.setRef k x).rdata = s.rdata := by unfold State.setRef; rfl
@[simp] theorem State.setRef_sent (s : State) (k : Nat) (x : RefSt) : (s.setRef k x).sent = s.sent := by unfold State.setRef; rfl
@[simp] theorem State.setRef_regs (s : State) (k : Nat) (x : RefSt) : (s.setRef k x).regs = s.regs := by unfold State.setRef; rfl
@[simp] theorem State.setRef_lt (s : State) (k : Nat) (x : RefSt) : (s.setRef k x).lt = s.lt := by unfold State.setRef; rfl
@[simp] theorem State.setRef_ptp (s : State) (k : Nat) (x : RefSt) : (s.setRef k x).ptp = s.ptp := by unfold State.setRef; rfl
@[simp] theorem State.setRef_host (s : State) (k : Nat) (x : RefSt) : (s.setRef k x).host = s.host := by unfold State.setRef; rfl
@[simp] theorem State.setRef_sch (s : State) (k : Nat) (x : RefSt) : (s.setRef k x).sch = s.sch := by unfold State.setRef; rfl
@[simp] theorem State.setRef_xlt (s : State) (k : Nat) (x : RefSt) : (s.setRef k x).xlt = s.xlt := by unfold State.setRef; rfl
@[simp] theorem State.setRef_stg (s : State) (k : Nat) (x : RefSt) : (s.setRef k x).stg = s.stg := by unfold State.setRef; rfl
@[simp] theorem State.setRef_recorder (s : State) (k : Nat) (x : RefSt) : (s.setRef k x).recorder = s.recorder := by unfold State.setRef; rfl
@[simp] theorem State.setRef_rst (s : State) (k : Nat) (x : RefSt) : (s.setRef k x).rst = s.rst := by unfold State.setRef; rfl
@[simp] theorem State.setRef_hbm (s : State) (k : Nat) (x : RefSt) : (s.setRef k x).hbm = s.hbm := by unfold State.setRef; rfl
@[simp] theorem State.setRef_whl (s : State) (k : Nat) (x : RefSt) : (s.setRef k x).whl = s.whl := by unfold State.setRef; rfl
@[simp] theorem State.setRef_aud (s : State) (k : Nat) (x : RefSt) : (s.setRef k x).aud = s.aud := by unfold State.setRef; rfl
@[simp] theorem State.setRef_ing (s : State) (k : Nat) (x : RefSt) : (s.setRef k x).ing = s.ing := by unfold State.setRef; rfl
@[simp] theorem State.setRef_cmp (s : State) (k : Nat) (x : RefSt) : (s.setRef k x).cmp = s.cmp := by unfold State.setRef; rfl
@[simp] theorem State.setRef_pool (s : State) (k : Nat) (x : RefSt) : (s.setRef k x).pool = s.pool := by unfold State.setRef; rfl
@[simp] theorem State.setRef_dec (s : State) (k : Nat) (x : RefSt) : (s.setRef k x).dec = s.dec := by unfold State.setRef; rfl
@[simp] theorem State.setRef_enc (s : State) (k : Nat) (x : RefSt) : (s.setRef k x).enc = s.enc := by unfold State.setRef; rfl
@[simp] theorem State.setRef_red (s : State) (k : Nat) (x : RefSt) : (s.setRef k x).red = s.red := by unfold State.setRef; rfl
@[simp] theorem State.setRef_hbms (s : State) (k : Nat) (x : RefSt) : (s.setRef k x).hbms = s.hbms := by unfold State.setRef; rfl
@[simp] theorem State.setRef_lanes (s : State) (k : Nat) (x : RefSt) : (s.setRef k x).lanes = s.lanes := by unfold State.setRef; rfl
@[simp] theorem State.setRef_crcs (s : State) (k : Nat) (x : RefSt) : (s.setRef k x).crcs = s.crcs := by unfold State.setRef; rfl
@[simp] theorem State.setInst_variant (s : State) (i : Nat) (x : PtpInst) : (s.setInst i x).variant = s.variant := by unfold State.setInst; rfl
@[simp] theorem State.setInst_pending (s : State) (i : Nat) (x : PtpInst) : (s.setInst i x).pending = s.pending := by unfold State.setInst; rfl
@[simp] theorem State.setInst_cycle (s : State) (i : Nat) (x : PtpInst) : (s.setInst i x).cycle = s.cycle := by unfold State.setInst; rfl
@[simp] theorem State.setInst_freeCtr (s : State) (i : Nat) (x : PtpInst) : (s.setInst i x).freeCtr = s.freeCtr := by unfold State.setInst; rfl
@[simp] theorem State.setInst_rdata (s : State) (i : Nat) (x : PtpInst) : (s.setInst i x).rdata = s.rdata := by unfold State.setInst; rfl
@[simp] theorem State.setInst_sent (s : State) (i : Nat) (x : PtpInst) : (s.setInst i x).sent = s.sent := by unfold State.setInst; rfl
@[simp] theorem State.setInst_regs (s : State) (i : Nat) (x : PtpInst) : (s.setInst i x).regs = s.regs := by unfold State.setInst; rfl
@[simp] theorem State.setInst_lt (s : State) (i : Nat) (x : PtpInst) : (s.setInst i x).lt = s.lt := by unfold State.setInst; rfl
@[simp] theorem State.setInst_refs (s : State) (i : Nat) (x : PtpInst) : (s.setInst i x).refs = s.refs := by unfold State.setInst; rfl
@[simp] theorem State.setInst_host (s : State) (i : Nat) (x : PtpInst) : (s.setInst i x).host = s.host := by unfold State.setInst; rfl
@[simp] theorem State.setInst_sch (s : State) (i : Nat) (x : PtpInst) : (s.setInst i x).sch = s.sch := by unfold State.setInst; rfl
@[simp] theorem State.setInst_xlt (s : State) (i : Nat) (x : PtpInst) : (s.setInst i x).xlt = s.xlt := by unfold State.setInst; rfl
@[simp] theorem State.setInst_stg (s : State) (i : Nat) (x : PtpInst) : (s.setInst i x).stg = s.stg := by unfold State.setInst; rfl
@[simp] theorem State.setInst_recorder (s : State) (i : Nat) (x : PtpInst) : (s.setInst i x).recorder = s.recorder := by unfold State.setInst; rfl
@[simp] theorem State.setInst_rst (s : State) (i : Nat) (x : PtpInst) : (s.setInst i x).rst = s.rst := by unfold State.setInst; rfl
@[simp] theorem State.setInst_hbm (s : State) (i : Nat) (x : PtpInst) : (s.setInst i x).hbm = s.hbm := by unfold State.setInst; rfl
@[simp] theorem State.setInst_whl (s : State) (i : Nat) (x : PtpInst) : (s.setInst i x).whl = s.whl := by unfold State.setInst; rfl
@[simp] theorem State.setInst_aud (s : State) (i : Nat) (x : PtpInst) : (s.setInst i x).aud = s.aud := by unfold State.setInst; rfl
@[simp] theorem State.setInst_ing (s : State) (i : Nat) (x : PtpInst) : (s.setInst i x).ing = s.ing := by unfold State.setInst; rfl
@[simp] theorem State.setInst_cmp (s : State) (i : Nat) (x : PtpInst) : (s.setInst i x).cmp = s.cmp := by unfold State.setInst; rfl
@[simp] theorem State.setInst_pool (s : State) (i : Nat) (x : PtpInst) : (s.setInst i x).pool = s.pool := by unfold State.setInst; rfl
@[simp] theorem State.setInst_dec (s : State) (i : Nat) (x : PtpInst) : (s.setInst i x).dec = s.dec := by unfold State.setInst; rfl
@[simp] theorem State.setInst_enc (s : State) (i : Nat) (x : PtpInst) : (s.setInst i x).enc = s.enc := by unfold State.setInst; rfl
@[simp] theorem State.setInst_red (s : State) (i : Nat) (x : PtpInst) : (s.setInst i x).red = s.red := by unfold State.setInst; rfl
@[simp] theorem State.setInst_hbms (s : State) (i : Nat) (x : PtpInst) : (s.setInst i x).hbms = s.hbms := by unfold State.setInst; rfl
@[simp] theorem State.setInst_lanes (s : State) (i : Nat) (x : PtpInst) : (s.setInst i x).lanes = s.lanes := by unfold State.setInst; rfl
@[simp] theorem State.setInst_crcs (s : State) (i : Nat) (x : PtpInst) : (s.setInst i x).crcs = s.crcs := by unfold State.setInst; rfl
@[simp] theorem State.clkNsRead_variant (s : State) (q : Req) : (s.clkNsRead q).variant = s.variant := by unfold State.clkNsRead; rfl
@[simp] theorem State.clkNsRead_pending (s : State) (q : Req) : (s.clkNsRead q).pending = s.pending := by unfold State.clkNsRead; rfl
@[simp] theorem State.clkNsRead_cycle (s : State) (q : Req) : (s.clkNsRead q).cycle = s.cycle := by unfold State.clkNsRead; rfl
@[simp] theorem State.clkNsRead_freeCtr (s : State) (q : Req) : (s.clkNsRead q).freeCtr = s.freeCtr := by unfold State.clkNsRead; rfl
@[simp] theorem State.clkNsRead_sent (s : State) (q : Req) : (s.clkNsRead q).sent = s.sent := by unfold State.clkNsRead; rfl
@[simp] theorem State.clkNsRead_regs (s : State) (q : Req) : (s.clkNsRead q).regs = s.regs := by unfold State.clkNsRead; rfl
@[simp] theorem State.clkNsRead_lt (s : State) (q : Req) : (s.clkNsRead q).lt = s.lt := by unfold State.clkNsRead; rfl
@[simp] theorem State.clkNsRead_refs (s : State) (q : Req) : (s.clkNsRead q).refs = s.refs := by unfold State.clkNsRead; rfl
@[simp] theorem State.clkNsRead_host (s : State) (q : Req) : (s.clkNsRead q).host = s.host := by unfold State.clkNsRead; rfl
@[simp] theorem State.clkNsRead_sch (s : State) (q : Req) : (s.clkNsRead q).sch = s.sch := by unfold State.clkNsRead; rfl
@[simp] theorem State.clkNsRead_xlt (s : State) (q : Req) : (s.clkNsRead q).xlt = s.xlt := by unfold State.clkNsRead; rfl
@[simp] theorem State.clkNsRead_stg (s : State) (q : Req) : (s.clkNsRead q).stg = s.stg := by unfold State.clkNsRead; rfl
@[simp] theorem State.clkNsRead_recorder (s : State) (q : Req) : (s.clkNsRead q).recorder = s.recorder := by unfold State.clkNsRead; rfl
@[simp] theorem State.clkNsRead_rst (s : State) (q : Req) : (s.clkNsRead q).rst = s.rst := by unfold State.clkNsRead; rfl
@[simp] theorem State.clkNsRead_hbm (s : State) (q : Req) : (s.clkNsRead q).hbm = s.hbm := by unfold State.clkNsRead; rfl
@[simp] theorem State.clkNsRead_whl (s : State) (q : Req) : (s.clkNsRead q).whl = s.whl := by unfold State.clkNsRead; rfl
@[simp] theorem State.clkNsRead_aud (s : State) (q : Req) : (s.clkNsRead q).aud = s.aud := by unfold State.clkNsRead; rfl
@[simp] theorem State.clkNsRead_ing (s : State) (q : Req) : (s.clkNsRead q).ing = s.ing := by unfold State.clkNsRead; rfl
@[simp] theorem State.clkNsRead_cmp (s : State) (q : Req) : (s.clkNsRead q).cmp = s.cmp := by unfold State.clkNsRead; rfl
@[simp] theorem State.clkNsRead_pool (s : State) (q : Req) : (s.clkNsRead q).pool = s.pool := by unfold State.clkNsRead; rfl
@[simp] theorem State.clkNsRead_dec (s : State) (q : Req) : (s.clkNsRead q).dec = s.dec := by unfold State.clkNsRead; rfl
@[simp] theorem State.clkNsRead_enc (s : State) (q : Req) : (s.clkNsRead q).enc = s.enc := by unfold State.clkNsRead; rfl
@[simp] theorem State.clkNsRead_red (s : State) (q : Req) : (s.clkNsRead q).red = s.red := by unfold State.clkNsRead; rfl
@[simp] theorem State.clkNsRead_hbms (s : State) (q : Req) : (s.clkNsRead q).hbms = s.hbms := by unfold State.clkNsRead; rfl
@[simp] theorem State.clkNsRead_lanes (s : State) (q : Req) : (s.clkNsRead q).lanes = s.lanes := by unfold State.clkNsRead; rfl
@[simp] theorem State.clkNsRead_crcs (s : State) (q : Req) : (s.clkNsRead q).crcs = s.crcs := by unfold State.clkNsRead; rfl
@[simp] theorem State.setFlow_variant (s : State) (i : Nat) (x : Option FlowEnt) : (s.setFlow i x).variant = s.variant := by unfold State.setFlow; rfl
@[simp] theorem State.setFlow_pending (s : State) (i : Nat) (x : Option FlowEnt) : (s.setFlow i x).pending = s.pending := by unfold State.setFlow; rfl
@[simp] theorem State.setFlow_cycle (s : State) (i : Nat) (x : Option FlowEnt) : (s.setFlow i x).cycle = s.cycle := by unfold State.setFlow; rfl
@[simp] theorem State.setFlow_freeCtr (s : State) (i : Nat) (x : Option FlowEnt) : (s.setFlow i x).freeCtr = s.freeCtr := by unfold State.setFlow; rfl
@[simp] theorem State.setFlow_rdata (s : State) (i : Nat) (x : Option FlowEnt) : (s.setFlow i x).rdata = s.rdata := by unfold State.setFlow; rfl
@[simp] theorem State.setFlow_sent (s : State) (i : Nat) (x : Option FlowEnt) : (s.setFlow i x).sent = s.sent := by unfold State.setFlow; rfl
@[simp] theorem State.setFlow_regs (s : State) (i : Nat) (x : Option FlowEnt) : (s.setFlow i x).regs = s.regs := by unfold State.setFlow; rfl
@[simp] theorem State.setFlow_lt (s : State) (i : Nat) (x : Option FlowEnt) : (s.setFlow i x).lt = s.lt := by unfold State.setFlow; rfl
@[simp] theorem State.setFlow_refs (s : State) (i : Nat) (x : Option FlowEnt) : (s.setFlow i x).refs = s.refs := by unfold State.setFlow; rfl
@[simp] theorem State.setFlow_ptp (s : State) (i : Nat) (x : Option FlowEnt) : (s.setFlow i x).ptp = s.ptp := by unfold State.setFlow; rfl
@[simp] theorem State.setFlow_host (s : State) (i : Nat) (x : Option FlowEnt) : (s.setFlow i x).host = s.host := by unfold State.setFlow; rfl
@[simp] theorem State.setFlow_sch (s : State) (i : Nat) (x : Option FlowEnt) : (s.setFlow i x).sch = s.sch := by unfold State.setFlow; rfl
@[simp] theorem State.setFlow_xlt (s : State) (i : Nat) (x : Option FlowEnt) : (s.setFlow i x).xlt = s.xlt := by unfold State.setFlow; rfl
@[simp] theorem State.setFlow_stg (s : State) (i : Nat) (x : Option FlowEnt) : (s.setFlow i x).stg = s.stg := by unfold State.setFlow; rfl
@[simp] theorem State.setFlow_recorder (s : State) (i : Nat) (x : Option FlowEnt) : (s.setFlow i x).recorder = s.recorder := by unfold State.setFlow; rfl
@[simp] theorem State.setFlow_rst (s : State) (i : Nat) (x : Option FlowEnt) : (s.setFlow i x).rst = s.rst := by unfold State.setFlow; rfl
@[simp] theorem State.setFlow_hbm (s : State) (i : Nat) (x : Option FlowEnt) : (s.setFlow i x).hbm = s.hbm := by unfold State.setFlow; rfl
@[simp] theorem State.setFlow_whl (s : State) (i : Nat) (x : Option FlowEnt) : (s.setFlow i x).whl = s.whl := by unfold State.setFlow; rfl
@[simp] theorem State.setFlow_aud (s : State) (i : Nat) (x : Option FlowEnt) : (s.setFlow i x).aud = s.aud := by unfold State.setFlow; rfl
@[simp] theorem State.setFlow_cmp (s : State) (i : Nat) (x : Option FlowEnt) : (s.setFlow i x).cmp = s.cmp := by unfold State.setFlow; rfl
@[simp] theorem State.setFlow_pool (s : State) (i : Nat) (x : Option FlowEnt) : (s.setFlow i x).pool = s.pool := by unfold State.setFlow; rfl
@[simp] theorem State.setFlow_dec (s : State) (i : Nat) (x : Option FlowEnt) : (s.setFlow i x).dec = s.dec := by unfold State.setFlow; rfl
@[simp] theorem State.setFlow_enc (s : State) (i : Nat) (x : Option FlowEnt) : (s.setFlow i x).enc = s.enc := by unfold State.setFlow; rfl
@[simp] theorem State.setFlow_red (s : State) (i : Nat) (x : Option FlowEnt) : (s.setFlow i x).red = s.red := by unfold State.setFlow; rfl
@[simp] theorem State.setFlow_hbms (s : State) (i : Nat) (x : Option FlowEnt) : (s.setFlow i x).hbms = s.hbms := by unfold State.setFlow; rfl
@[simp] theorem State.setFlow_lanes (s : State) (i : Nat) (x : Option FlowEnt) : (s.setFlow i x).lanes = s.lanes := by unfold State.setFlow; rfl
@[simp] theorem State.setFlow_crcs (s : State) (i : Nat) (x : Option FlowEnt) : (s.setFlow i x).crcs = s.crcs := by unfold State.setFlow; rfl
@[simp] theorem State.setIngCh_variant (s : State) (c : Nat) (x : IngCh) : (s.setIngCh c x).variant = s.variant := by unfold State.setIngCh; rfl
@[simp] theorem State.setIngCh_pending (s : State) (c : Nat) (x : IngCh) : (s.setIngCh c x).pending = s.pending := by unfold State.setIngCh; rfl
@[simp] theorem State.setIngCh_cycle (s : State) (c : Nat) (x : IngCh) : (s.setIngCh c x).cycle = s.cycle := by unfold State.setIngCh; rfl
@[simp] theorem State.setIngCh_freeCtr (s : State) (c : Nat) (x : IngCh) : (s.setIngCh c x).freeCtr = s.freeCtr := by unfold State.setIngCh; rfl
@[simp] theorem State.setIngCh_rdata (s : State) (c : Nat) (x : IngCh) : (s.setIngCh c x).rdata = s.rdata := by unfold State.setIngCh; rfl
@[simp] theorem State.setIngCh_sent (s : State) (c : Nat) (x : IngCh) : (s.setIngCh c x).sent = s.sent := by unfold State.setIngCh; rfl
@[simp] theorem State.setIngCh_regs (s : State) (c : Nat) (x : IngCh) : (s.setIngCh c x).regs = s.regs := by unfold State.setIngCh; rfl
@[simp] theorem State.setIngCh_lt (s : State) (c : Nat) (x : IngCh) : (s.setIngCh c x).lt = s.lt := by unfold State.setIngCh; rfl
@[simp] theorem State.setIngCh_refs (s : State) (c : Nat) (x : IngCh) : (s.setIngCh c x).refs = s.refs := by unfold State.setIngCh; rfl
@[simp] theorem State.setIngCh_ptp (s : State) (c : Nat) (x : IngCh) : (s.setIngCh c x).ptp = s.ptp := by unfold State.setIngCh; rfl
@[simp] theorem State.setIngCh_host (s : State) (c : Nat) (x : IngCh) : (s.setIngCh c x).host = s.host := by unfold State.setIngCh; rfl
@[simp] theorem State.setIngCh_sch (s : State) (c : Nat) (x : IngCh) : (s.setIngCh c x).sch = s.sch := by unfold State.setIngCh; rfl
@[simp] theorem State.setIngCh_xlt (s : State) (c : Nat) (x : IngCh) : (s.setIngCh c x).xlt = s.xlt := by unfold State.setIngCh; rfl
@[simp] theorem State.setIngCh_stg (s : State) (c : Nat) (x : IngCh) : (s.setIngCh c x).stg = s.stg := by unfold State.setIngCh; rfl
@[simp] theorem State.setIngCh_recorder (s : State) (c : Nat) (x : IngCh) : (s.setIngCh c x).recorder = s.recorder := by unfold State.setIngCh; rfl
@[simp] theorem State.setIngCh_rst (s : State) (c : Nat) (x : IngCh) : (s.setIngCh c x).rst = s.rst := by unfold State.setIngCh; rfl
@[simp] theorem State.setIngCh_hbm (s : State) (c : Nat) (x : IngCh) : (s.setIngCh c x).hbm = s.hbm := by unfold State.setIngCh; rfl
@[simp] theorem State.setIngCh_whl (s : State) (c : Nat) (x : IngCh) : (s.setIngCh c x).whl = s.whl := by unfold State.setIngCh; rfl
@[simp] theorem State.setIngCh_aud (s : State) (c : Nat) (x : IngCh) : (s.setIngCh c x).aud = s.aud := by unfold State.setIngCh; rfl
@[simp] theorem State.setIngCh_cmp (s : State) (c : Nat) (x : IngCh) : (s.setIngCh c x).cmp = s.cmp := by unfold State.setIngCh; rfl
@[simp] theorem State.setIngCh_pool (s : State) (c : Nat) (x : IngCh) : (s.setIngCh c x).pool = s.pool := by unfold State.setIngCh; rfl
@[simp] theorem State.setIngCh_dec (s : State) (c : Nat) (x : IngCh) : (s.setIngCh c x).dec = s.dec := by unfold State.setIngCh; rfl
@[simp] theorem State.setIngCh_enc (s : State) (c : Nat) (x : IngCh) : (s.setIngCh c x).enc = s.enc := by unfold State.setIngCh; rfl
@[simp] theorem State.setIngCh_red (s : State) (c : Nat) (x : IngCh) : (s.setIngCh c x).red = s.red := by unfold State.setIngCh; rfl
@[simp] theorem State.setIngCh_hbms (s : State) (c : Nat) (x : IngCh) : (s.setIngCh c x).hbms = s.hbms := by unfold State.setIngCh; rfl
@[simp] theorem State.setIngCh_lanes (s : State) (c : Nat) (x : IngCh) : (s.setIngCh c x).lanes = s.lanes := by unfold State.setIngCh; rfl
@[simp] theorem State.setIngCh_crcs (s : State) (c : Nat) (x : IngCh) : (s.setIngCh c x).crcs = s.crcs := by unfold State.setIngCh; rfl
@[simp] theorem State.setLut_variant (s : State) (d k bank table idx v : Nat) : (s.setLut d k bank table idx v).variant = s.variant := by unfold State.setLut; rfl
@[simp] theorem State.setLut_pending (s : State) (d k bank table idx v : Nat) : (s.setLut d k bank table idx v).pending = s.pending := by unfold State.setLut; rfl
@[simp] theorem State.setLut_cycle (s : State) (d k bank table idx v : Nat) : (s.setLut d k bank table idx v).cycle = s.cycle := by unfold State.setLut; rfl
@[simp] theorem State.setLut_freeCtr (s : State) (d k bank table idx v : Nat) : (s.setLut d k bank table idx v).freeCtr = s.freeCtr := by unfold State.setLut; rfl
@[simp] theorem State.setLut_rdata (s : State) (d k bank table idx v : Nat) : (s.setLut d k bank table idx v).rdata = s.rdata := by unfold State.setLut; rfl
@[simp] theorem State.setLut_sent (s : State) (d k bank table idx v : Nat) : (s.setLut d k bank table idx v).sent = s.sent := by unfold State.setLut; rfl
@[simp] theorem State.setLut_regs (s : State) (d k bank table idx v : Nat) : (s.setLut d k bank table idx v).regs = s.regs := by unfold State.setLut; rfl
@[simp] theorem State.setLut_lt (s : State) (d k bank table idx v : Nat) : (s.setLut d k bank table idx v).lt = s.lt := by unfold State.setLut; rfl
@[simp] theorem State.setLut_refs (s : State) (d k bank table idx v : Nat) : (s.setLut d k bank table idx v).refs = s.refs := by unfold State.setLut; rfl
@[simp] theorem State.setLut_ptp (s : State) (d k bank table idx v : Nat) : (s.setLut d k bank table idx v).ptp = s.ptp := by unfold State.setLut; rfl
@[simp] theorem State.setLut_host (s : State) (d k bank table idx v : Nat) : (s.setLut d k bank table idx v).host = s.host := by unfold State.setLut; rfl
@[simp] theorem State.setLut_sch (s : State) (d k bank table idx v : Nat) : (s.setLut d k bank table idx v).sch = s.sch := by unfold State.setLut; rfl
@[simp] theorem State.setLut_xlt (s : State) (d k bank table idx v : Nat) : (s.setLut d k bank table idx v).xlt = s.xlt := by unfold State.setLut; rfl
@[simp] theorem State.setLut_stg (s : State) (d k bank table idx v : Nat) : (s.setLut d k bank table idx v).stg = s.stg := by unfold State.setLut; rfl
@[simp] theorem State.setLut_recorder (s : State) (d k bank table idx v : Nat) : (s.setLut d k bank table idx v).recorder = s.recorder := by unfold State.setLut; rfl
@[simp] theorem State.setLut_rst (s : State) (d k bank table idx v : Nat) : (s.setLut d k bank table idx v).rst = s.rst := by unfold State.setLut; rfl
@[simp] theorem State.setLut_hbm (s : State) (d k bank table idx v : Nat) : (s.setLut d k bank table idx v).hbm = s.hbm := by unfold State.setLut; rfl
@[simp] theorem State.setLut_whl (s : State) (d k bank table idx v : Nat) : (s.setLut d k bank table idx v).whl = s.whl := by unfold State.setLut; rfl
@[simp] theorem State.setLut_aud (s : State) (d k bank table idx v : Nat) : (s.setLut d k bank table idx v).aud = s.aud := by unfold State.setLut; rfl
@[simp] theorem State.setLut_ing (s : State) (d k bank table idx v : Nat) : (s.setLut d k bank table idx v).ing = s.ing := by unfold State.setLut; rfl
@[simp] theorem State.setLut_pool (s : State) (d k bank table idx v : Nat) : (s.setLut d k bank table idx v).pool = s.pool := by unfold State.setLut; rfl
@[simp] theorem State.setLut_dec (s : State) (d k bank table idx v : Nat) : (s.setLut d k bank table idx v).dec = s.dec := by unfold State.setLut; rfl
@[simp] theorem State.setLut_enc (s : State) (d k bank table idx v : Nat) : (s.setLut d k bank table idx v).enc = s.enc := by unfold State.setLut; rfl
@[simp] theorem State.setLut_red (s : State) (d k bank table idx v : Nat) : (s.setLut d k bank table idx v).red = s.red := by unfold State.setLut; rfl
@[simp] theorem State.setLut_hbms (s : State) (d k bank table idx v : Nat) : (s.setLut d k bank table idx v).hbms = s.hbms := by unfold State.setLut; rfl
@[simp] theorem State.setLut_lanes (s : State) (d k bank table idx v : Nat) : (s.setLut d k bank table idx v).lanes = s.lanes := by unfold State.setLut; rfl
@[simp] theorem State.setLut_crcs (s : State) (d k bank table idx v : Nat) : (s.setLut d k bank table idx v).crcs = s.crcs := by unfold State.setLut; rfl
@[simp] theorem State.setSlotSt_variant (s : State) (d k : Nat) (x : SlotSt) : (s.setSlotSt d k x).variant = s.variant := by unfold State.setSlotSt; rfl
@[simp] theorem State.setSlotSt_pending (s : State) (d k : Nat) (x : SlotSt) : (s.setSlotSt d k x).pending = s.pending := by unfold State.setSlotSt; rfl
@[simp] theorem State.setSlotSt_cycle (s : State) (d k : Nat) (x : SlotSt) : (s.setSlotSt d k x).cycle = s.cycle := by unfold State.setSlotSt; rfl
@[simp] theorem State.setSlotSt_freeCtr (s : State) (d k : Nat) (x : SlotSt) : (s.setSlotSt d k x).freeCtr = s.freeCtr := by unfold State.setSlotSt; rfl
@[simp] theorem State.setSlotSt_rdata (s : State) (d k : Nat) (x : SlotSt) : (s.setSlotSt d k x).rdata = s.rdata := by unfold State.setSlotSt; rfl
@[simp] theorem State.setSlotSt_sent (s : State) (d k : Nat) (x : SlotSt) : (s.setSlotSt d k x).sent = s.sent := by unfold State.setSlotSt; rfl
@[simp] theorem State.setSlotSt_regs (s : State) (d k : Nat) (x : SlotSt) : (s.setSlotSt d k x).regs = s.regs := by unfold State.setSlotSt; rfl
@[simp] theorem State.setSlotSt_lt (s : State) (d k : Nat) (x : SlotSt) : (s.setSlotSt d k x).lt = s.lt := by unfold State.setSlotSt; rfl
@[simp] theorem State.setSlotSt_refs (s : State) (d k : Nat) (x : SlotSt) : (s.setSlotSt d k x).refs = s.refs := by unfold State.setSlotSt; rfl
@[simp] theorem State.setSlotSt_ptp (s : State) (d k : Nat) (x : SlotSt) : (s.setSlotSt d k x).ptp = s.ptp := by unfold State.setSlotSt; rfl
@[simp] theorem State.setSlotSt_host (s : State) (d k : Nat) (x : SlotSt) : (s.setSlotSt d k x).host = s.host := by unfold State.setSlotSt; rfl
@[simp] theorem State.setSlotSt_sch (s : State) (d k : Nat) (x : SlotSt) : (s.setSlotSt d k x).sch = s.sch := by unfold State.setSlotSt; rfl
@[simp] theorem State.setSlotSt_xlt (s : State) (d k : Nat) (x : SlotSt) : (s.setSlotSt d k x).xlt = s.xlt := by unfold State.setSlotSt; rfl
@[simp] theorem State.setSlotSt_stg (s : State) (d k : Nat) (x : SlotSt) : (s.setSlotSt d k x).stg = s.stg := by unfold State.setSlotSt; rfl
@[simp] theorem State.setSlotSt_recorder (s : State) (d k : Nat) (x : SlotSt) : (s.setSlotSt d k x).recorder = s.recorder := by unfold State.setSlotSt; rfl
@[simp] theorem State.setSlotSt_rst (s : State) (d k : Nat) (x : SlotSt) : (s.setSlotSt d k x).rst = s.rst := by unfold State.setSlotSt; rfl
@[simp] theorem State.setSlotSt_hbm (s : State) (d k : Nat) (x : SlotSt) : (s.setSlotSt d k x).hbm = s.hbm := by unfold State.setSlotSt; rfl
@[simp] theorem State.setSlotSt_whl (s : State) (d k : Nat) (x : SlotSt) : (s.setSlotSt d k x).whl = s.whl := by unfold State.setSlotSt; rfl
@[simp] theorem State.setSlotSt_aud (s : State) (d k : Nat) (x : SlotSt) : (s.setSlotSt d k x).aud = s.aud := by unfold State.setSlotSt; rfl
@[simp] theorem State.setSlotSt_ing (s : State) (d k : Nat) (x : SlotSt) : (s.setSlotSt d k x).ing = s.ing := by unfold State.setSlotSt; rfl
@[simp] theorem State.setSlotSt_pool (s : State) (d k : Nat) (x : SlotSt) : (s.setSlotSt d k x).pool = s.pool := by unfold State.setSlotSt; rfl
@[simp] theorem State.setSlotSt_dec (s : State) (d k : Nat) (x : SlotSt) : (s.setSlotSt d k x).dec = s.dec := by unfold State.setSlotSt; rfl
@[simp] theorem State.setSlotSt_enc (s : State) (d k : Nat) (x : SlotSt) : (s.setSlotSt d k x).enc = s.enc := by unfold State.setSlotSt; rfl
@[simp] theorem State.setSlotSt_red (s : State) (d k : Nat) (x : SlotSt) : (s.setSlotSt d k x).red = s.red := by unfold State.setSlotSt; rfl
@[simp] theorem State.setSlotSt_hbms (s : State) (d k : Nat) (x : SlotSt) : (s.setSlotSt d k x).hbms = s.hbms := by unfold State.setSlotSt; rfl
@[simp] theorem State.setSlotSt_lanes (s : State) (d k : Nat) (x : SlotSt) : (s.setSlotSt d k x).lanes = s.lanes := by unfold State.setSlotSt; rfl
@[simp] theorem State.setSlotSt_crcs (s : State) (d k : Nat) (x : SlotSt) : (s.setSlotSt d k x).crcs = s.crcs := by unfold State.setSlotSt; rfl
@[simp] theorem State.setBuf_variant (s : State) (d b : Nat) (x : BufD) : (s.setBuf d b x).variant = s.variant := by unfold State.setBuf; rfl
@[simp] theorem State.setBuf_pending (s : State) (d b : Nat) (x : BufD) : (s.setBuf d b x).pending = s.pending := by unfold State.setBuf; rfl
@[simp] theorem State.setBuf_cycle (s : State) (d b : Nat) (x : BufD) : (s.setBuf d b x).cycle = s.cycle := by unfold State.setBuf; rfl
@[simp] theorem State.setBuf_freeCtr (s : State) (d b : Nat) (x : BufD) : (s.setBuf d b x).freeCtr = s.freeCtr := by unfold State.setBuf; rfl
@[simp] theorem State.setBuf_rdata (s : State) (d b : Nat) (x : BufD) : (s.setBuf d b x).rdata = s.rdata := by unfold State.setBuf; rfl
@[simp] theorem State.setBuf_sent (s : State) (d b : Nat) (x : BufD) : (s.setBuf d b x).sent = s.sent := by unfold State.setBuf; rfl
@[simp] theorem State.setBuf_regs (s : State) (d b : Nat) (x : BufD) : (s.setBuf d b x).regs = s.regs := by unfold State.setBuf; rfl
@[simp] theorem State.setBuf_lt (s : State) (d b : Nat) (x : BufD) : (s.setBuf d b x).lt = s.lt := by unfold State.setBuf; rfl
@[simp] theorem State.setBuf_refs (s : State) (d b : Nat) (x : BufD) : (s.setBuf d b x).refs = s.refs := by unfold State.setBuf; rfl
@[simp] theorem State.setBuf_ptp (s : State) (d b : Nat) (x : BufD) : (s.setBuf d b x).ptp = s.ptp := by unfold State.setBuf; rfl
@[simp] theorem State.setBuf_host (s : State) (d b : Nat) (x : BufD) : (s.setBuf d b x).host = s.host := by unfold State.setBuf; rfl
@[simp] theorem State.setBuf_sch (s : State) (d b : Nat) (x : BufD) : (s.setBuf d b x).sch = s.sch := by unfold State.setBuf; rfl
@[simp] theorem State.setBuf_xlt (s : State) (d b : Nat) (x : BufD) : (s.setBuf d b x).xlt = s.xlt := by unfold State.setBuf; rfl
@[simp] theorem State.setBuf_stg (s : State) (d b : Nat) (x : BufD) : (s.setBuf d b x).stg = s.stg := by unfold State.setBuf; rfl
@[simp] theorem State.setBuf_recorder (s : State) (d b : Nat) (x : BufD) : (s.setBuf d b x).recorder = s.recorder := by unfold State.setBuf; rfl
@[simp] theorem State.setBuf_rst (s : State) (d b : Nat) (x : BufD) : (s.setBuf d b x).rst = s.rst := by unfold State.setBuf; rfl
@[simp] theorem State.setBuf_hbm (s : State) (d b : Nat) (x : BufD) : (s.setBuf d b x).hbm = s.hbm := by unfold State.setBuf; rfl
@[simp] theorem State.setBuf_whl (s : State) (d b : Nat) (x : BufD) : (s.setBuf d b x).whl = s.whl := by unfold State.setBuf; rfl
@[simp] theorem State.setBuf_aud (s : State) (d b : Nat) (x : BufD) : (s.setBuf d b x).aud = s.aud := by unfold State.setBuf; rfl
@[simp] theorem State.setBuf_ing (s : State) (d b : Nat) (x : BufD) : (s.setBuf d b x).ing = s.ing := by unfold State.setBuf; rfl
@[simp] theorem State.setBuf_cmp (s : State) (d b : Nat) (x : BufD) : (s.setBuf d b x).cmp = s.cmp := by unfold State.setBuf; rfl
@[simp] theorem State.setBuf_dec (s : State) (d b : Nat) (x : BufD) : (s.setBuf d b x).dec = s.dec := by unfold State.setBuf; rfl
@[simp] theorem State.setBuf_enc (s : State) (d b : Nat) (x : BufD) : (s.setBuf d b x).enc = s.enc := by unfold State.setBuf; rfl
@[simp] theorem State.setBuf_red (s : State) (d b : Nat) (x : BufD) : (s.setBuf d b x).red = s.red := by unfold State.setBuf; rfl
@[simp] theorem State.setBuf_hbms (s : State) (d b : Nat) (x : BufD) : (s.setBuf d b x).hbms = s.hbms := by unfold State.setBuf; rfl
@[simp] theorem State.setBuf_lanes (s : State) (d b : Nat) (x : BufD) : (s.setBuf d b x).lanes = s.lanes := by unfold State.setBuf; rfl
@[simp] theorem State.setBuf_crcs (s : State) (d b : Nat) (x : BufD) : (s.setBuf d b x).crcs = s.crcs := by unfold State.setBuf; rfl
@[simp] theorem State.setEncSt_variant (s : State) (d i : Nat) (x : EncSt) : (s.setEncSt d i x).variant = s.variant := by unfold State.setEncSt; rfl
@[simp] theorem State.setEncSt_pending (s : State) (d i : Nat) (x : EncSt) : (s.setEncSt d i x).pending = s.pending := by unfold State.setEncSt; rfl
@[simp] theorem State.setEncSt_cycle (s : State) (d i : Nat) (x : EncSt) : (s.setEncSt d i x).cycle = s.cycle := by unfold State.setEncSt; rfl
@[simp] theorem State.setEncSt_freeCtr (s : State) (d i : Nat) (x : EncSt) : (s.setEncSt d i x).freeCtr = s.freeCtr := by unfold State.setEncSt; rfl
@[simp] theorem State.setEncSt_rdata (s : State) (d i : Nat) (x : EncSt) : (s.setEncSt d i x).rdata = s.rdata := by unfold State.setEncSt; rfl
@[simp] theorem State.setEncSt_sent (s : State) (d i : Nat) (x : EncSt) : (s.setEncSt d i x).sent = s.sent := by unfold State.setEncSt; rfl
@[simp] theorem State.setEncSt_regs (s : State) (d i : Nat) (x : EncSt) : (s.setEncSt d i x).regs = s.regs := by unfold State.setEncSt; rfl
@[simp] theorem State.setEncSt_lt (s : State) (d i : Nat) (x : EncSt) : (s.setEncSt d i x).lt = s.lt := by unfold State.setEncSt; rfl
@[simp] theorem State.setEncSt_refs (s : State) (d i : Nat) (x : EncSt) : (s.setEncSt d i x).refs = s.refs := by unfold State.setEncSt; rfl
@[simp] theorem State.setEncSt_ptp (s : State) (d i : Nat) (x : EncSt) : (s.setEncSt d i x).ptp = s.ptp := by unfold State.setEncSt; rfl
@[simp] theorem State.setEncSt_host (s : State) (d i : Nat) (x : EncSt) : (s.setEncSt d i x).host = s.host := by unfold State.setEncSt; rfl
@[simp] theorem State.setEncSt_sch (s : State) (d i : Nat) (x : EncSt) : (s.setEncSt d i x).sch = s.sch := by unfold State.setEncSt; rfl
@[simp] theorem State.setEncSt_xlt (s : State) (d i : Nat) (x : EncSt) : (s.setEncSt d i x).xlt = s.xlt := by unfold State.setEncSt; rfl
@[simp] theorem State.setEncSt_stg (s : State) (d i : Nat) (x : EncSt) : (s.setEncSt d i x).stg = s.stg := by unfold State.setEncSt; rfl
@[simp] theorem State.setEncSt_recorder (s : State) (d i : Nat) (x : EncSt) : (s.setEncSt d i x).recorder = s.recorder := by unfold State.setEncSt; rfl
@[simp] theorem State.setEncSt_rst (s : State) (d i : Nat) (x : EncSt) : (s.setEncSt d i x).rst = s.rst := by unfold State.setEncSt; rfl
@[simp] theorem State.setEncSt_hbm (s : State) (d i : Nat) (x : EncSt) : (s.setEncSt d i x).hbm = s.hbm := by unfold State.setEncSt; rfl
@[simp] theorem State.setEncSt_whl (s : State) (d i : Nat) (x : EncSt) : (s.setEncSt d i x).whl = s.whl := by unfold State.setEncSt; rfl
@[simp] theorem State.setEncSt_aud (s : State) (d i : Nat) (x : EncSt) : (s.setEncSt d i x).aud = s.aud := by unfold State.setEncSt; rfl
@[simp] theorem State.setEncSt_ing (s : State) (d i : Nat) (x : EncSt) : (s.setEncSt d i x).ing = s.ing := by unfold State.setEncSt; rfl
@[simp] theorem State.setEncSt_cmp (s : State) (d i : Nat) (x : EncSt) : (s.setEncSt d i x).cmp = s.cmp := by unfold State.setEncSt; rfl
@[simp] theorem State.setEncSt_pool (s : State) (d i : Nat) (x : EncSt) : (s.setEncSt d i x).pool = s.pool := by unfold State.setEncSt; rfl
@[simp] theorem State.setEncSt_dec (s : State) (d i : Nat) (x : EncSt) : (s.setEncSt d i x).dec = s.dec := by unfold State.setEncSt; rfl
@[simp] theorem State.setEncSt_red (s : State) (d i : Nat) (x : EncSt) : (s.setEncSt d i x).red = s.red := by unfold State.setEncSt; rfl
@[simp] theorem State.setEncSt_hbms (s : State) (d i : Nat) (x : EncSt) : (s.setEncSt d i x).hbms = s.hbms := by unfold State.setEncSt; rfl
@[simp] theorem State.setEncSt_lanes (s : State) (d i : Nat) (x : EncSt) : (s.setEncSt d i x).lanes = s.lanes := by unfold State.setEncSt; rfl
@[simp] theorem State.setEncSt_crcs (s : State) (d i : Nat) (x : EncSt) : (s.setEncSt d i x).crcs = s.crcs := by unfold State.setEncSt; rfl
@[simp] theorem State.setDecSt_variant (s : State) (d i : Nat) (x : DecSt) : (s.setDecSt d i x).variant = s.variant := by unfold State.setDecSt; rfl
@[simp] theorem State.setDecSt_pending (s : State) (d i : Nat) (x : DecSt) : (s.setDecSt d i x).pending = s.pending := by unfold State.setDecSt; rfl
@[simp] theorem State.setDecSt_cycle (s : State) (d i : Nat) (x : DecSt) : (s.setDecSt d i x).cycle = s.cycle := by unfold State.setDecSt; rfl
@[simp] theorem State.setDecSt_freeCtr (s : State) (d i : Nat) (x : DecSt) : (s.setDecSt d i x).freeCtr = s.freeCtr := by unfold State.setDecSt; rfl
@[simp] theorem State.setDecSt_rdata (s : State) (d i : Nat) (x : DecSt) : (s.setDecSt d i x).rdata = s.rdata := by unfold State.setDecSt; rfl
@[simp] theorem State.setDecSt_sent (s : State) (d i : Nat) (x : DecSt) : (s.setDecSt d i x).sent = s.sent := by unfold State.setDecSt; rfl
@[simp] theorem State.setDecSt_regs (s : State) (d i : Nat) (x : DecSt) : (s.setDecSt d i x).regs = s.regs := by unfold State.setDecSt; rfl
@[simp] theorem State.setDecSt_lt (s : State) (d i : Nat) (x : DecSt) : (s.setDecSt d i x).lt = s.lt := by unfold State.setDecSt; rfl
@[simp] theorem State.setDecSt_refs (s : State) (d i : Nat) (x : DecSt) : (s.setDecSt d i x).refs = s.refs := by unfold State.setDecSt; rfl
@[simp] theorem State.setDecSt_ptp (s : State) (d i : Nat) (x : DecSt) : (s.setDecSt d i x).ptp = s.ptp := by unfold State.setDecSt; rfl
@[simp] theorem State.setDecSt_host (s : State) (d i : Nat) (x : DecSt) : (s.setDecSt d i x).host = s.host := by unfold State.setDecSt; rfl
@[simp] theorem State.setDecSt_sch (s : State) (d i : Nat) (x : DecSt) : (s.setDecSt d i x).sch = s.sch := by unfold State.setDecSt; rfl
@[simp] theorem State.setDecSt_xlt (s : State) (d i : Nat) (x : DecSt) : (s.setDecSt d i x).xlt = s.xlt := by unfold State.setDecSt; rfl
@[simp] theorem State.setDecSt_stg (s : State) (d i : Nat) (x : DecSt) : (s.setDecSt d i x).stg = s.stg := by unfold State.setDecSt; rfl
@[simp] theorem State.setDecSt_recorder (s : State) (d i : Nat) (x : DecSt) : (s.setDecSt d i x).recorder = s.recorder := by unfold State.setDecSt; rfl
@[simp] theorem State.setDecSt_rst (s : State) (d i : Nat) (x : DecSt) : (s.setDecSt d i x).rst = s.rst := by unfold State.setDecSt; rfl
@[simp] theorem State.setDecSt_hbm (s : State) (d i : Nat) (x : DecSt) : (s.setDecSt d i x).hbm = s.hbm := by unfold State.setDecSt; rfl
@[simp] theorem State.setDecSt_whl (s : State) (d i : Nat) (x : DecSt) : (s.setDecSt d i x).whl = s.whl := by unfold State.setDecSt; rfl
@[simp] theorem State.setDecSt_aud (s : State) (d i : Nat) (x : DecSt) : (s.setDecSt d i x).aud = s.aud := by unfold State.setDecSt; rfl
@[simp] theorem State.setDecSt_ing (s : State) (d i : Nat) (x : DecSt) : (s.setDecSt d i x).ing = s.ing := by unfold State.setDecSt; rfl
@[simp] theorem State.setDecSt_cmp (s : State) (d i : Nat) (x : DecSt) : (s.setDecSt d i x).cmp = s.cmp := by unfold State.setDecSt; rfl
@[simp] theorem State.setDecSt_pool (s : State) (d i : Nat) (x : DecSt) : (s.setDecSt d i x).pool = s.pool := by unfold State.setDecSt; rfl
@[simp] theorem State.setDecSt_enc (s : State) (d i : Nat) (x : DecSt) : (s.setDecSt d i x).enc = s.enc := by unfold State.setDecSt; rfl
@[simp] theorem State.setDecSt_red (s : State) (d i : Nat) (x : DecSt) : (s.setDecSt d i x).red = s.red := by unfold State.setDecSt; rfl
@[simp] theorem State.setDecSt_hbms (s : State) (d i : Nat) (x : DecSt) : (s.setDecSt d i x).hbms = s.hbms := by unfold State.setDecSt; rfl
@[simp] theorem State.setDecSt_lanes (s : State) (d i : Nat) (x : DecSt) : (s.setDecSt d i x).lanes = s.lanes := by unfold State.setDecSt; rfl
@[simp] theorem State.setDecSt_crcs (s : State) (d i : Nat) (x : DecSt) : (s.setDecSt d i x).crcs = s.crcs := by unfold State.setDecSt; rfl
@[simp] theorem State.setOutFlow_variant (s : State) (f : Nat) (x : FlowSt) : (s.setOutFlow f x).variant = s.variant := by unfold State.setOutFlow; rfl
@[simp] theorem State.setOutFlow_pending (s : State) (f : Nat) (x : FlowSt) : (s.setOutFlow f x).pending = s.pending := by unfold State.setOutFlow; rfl
@[simp] theorem State.setOutFlow_cycle (s : State) (f : Nat) (x : FlowSt) : (s.setOutFlow f x).cycle = s.cycle := by unfold State.setOutFlow; rfl
@[simp] theorem State.setOutFlow_freeCtr (s : State) (f : Nat) (x : FlowSt) : (s.setOutFlow f x).freeCtr = s.freeCtr := by unfold State.setOutFlow; rfl
@[simp] theorem State.setOutFlow_rdata (s : State) (f : Nat) (x : FlowSt) : (s.setOutFlow f x).rdata = s.rdata := by unfold State.setOutFlow; rfl
@[simp] theorem State.setOutFlow_sent (s : State) (f : Nat) (x : FlowSt) : (s.setOutFlow f x).sent = s.sent := by unfold State.setOutFlow; rfl
@[simp] theorem State.setOutFlow_regs (s : State) (f : Nat) (x : FlowSt) : (s.setOutFlow f x).regs = s.regs := by unfold State.setOutFlow; rfl
@[simp] theorem State.setOutFlow_lt (s : State) (f : Nat) (x : FlowSt) : (s.setOutFlow f x).lt = s.lt := by unfold State.setOutFlow; rfl
@[simp] theorem State.setOutFlow_refs (s : State) (f : Nat) (x : FlowSt) : (s.setOutFlow f x).refs = s.refs := by unfold State.setOutFlow; rfl
@[simp] theorem State.setOutFlow_ptp (s : State) (f : Nat) (x : FlowSt) : (s.setOutFlow f x).ptp = s.ptp := by unfold State.setOutFlow; rfl
@[simp] theorem State.setOutFlow_host (s : State) (f : Nat) (x : FlowSt) : (s.setOutFlow f x).host = s.host := by unfold State.setOutFlow; rfl
@[simp] theorem State.setOutFlow_sch (s : State) (f : Nat) (x : FlowSt) : (s.setOutFlow f x).sch = s.sch := by unfold State.setOutFlow; rfl
@[simp] theorem State.setOutFlow_xlt (s : State) (f : Nat) (x : FlowSt) : (s.setOutFlow f x).xlt = s.xlt := by unfold State.setOutFlow; rfl
@[simp] theorem State.setOutFlow_stg (s : State) (f : Nat) (x : FlowSt) : (s.setOutFlow f x).stg = s.stg := by unfold State.setOutFlow; rfl
@[simp] theorem State.setOutFlow_recorder (s : State) (f : Nat) (x : FlowSt) : (s.setOutFlow f x).recorder = s.recorder := by unfold State.setOutFlow; rfl
@[simp] theorem State.setOutFlow_rst (s : State) (f : Nat) (x : FlowSt) : (s.setOutFlow f x).rst = s.rst := by unfold State.setOutFlow; rfl
@[simp] theorem State.setOutFlow_hbm (s : State) (f : Nat) (x : FlowSt) : (s.setOutFlow f x).hbm = s.hbm := by unfold State.setOutFlow; rfl
@[simp] theorem State.setOutFlow_aud (s : State) (f : Nat) (x : FlowSt) : (s.setOutFlow f x).aud = s.aud := by unfold State.setOutFlow; rfl
@[simp] theorem State.setOutFlow_ing (s : State) (f : Nat) (x : FlowSt) : (s.setOutFlow f x).ing = s.ing := by unfold State.setOutFlow; rfl
@[simp] theorem State.setOutFlow_cmp (s : State) (f : Nat) (x : FlowSt) : (s.setOutFlow f x).cmp = s.cmp := by unfold State.setOutFlow; rfl
@[simp] theorem State.setOutFlow_pool (s : State) (f : Nat) (x : FlowSt) : (s.setOutFlow f x).pool = s.pool := by unfold State.setOutFlow; rfl
@[simp] theorem State.setOutFlow_dec (s : State) (f : Nat) (x : FlowSt) : (s.setOutFlow f x).dec = s.dec := by unfold State.setOutFlow; rfl
@[simp] theorem State.setOutFlow_enc (s : State) (f : Nat) (x : FlowSt) : (s.setOutFlow f x).enc = s.enc := by unfold State.setOutFlow; rfl
@[simp] theorem State.setOutFlow_red (s : State) (f : Nat) (x : FlowSt) : (s.setOutFlow f x).red = s.red := by unfold State.setOutFlow; rfl
@[simp] theorem State.setOutFlow_hbms (s : State) (f : Nat) (x : FlowSt) : (s.setOutFlow f x).hbms = s.hbms := by unfold State.setOutFlow; rfl
@[simp] theorem State.setOutFlow_lanes (s : State) (f : Nat) (x : FlowSt) : (s.setOutFlow f x).lanes = s.lanes := by unfold State.setOutFlow; rfl
@[simp] theorem State.setOutFlow_crcs (s : State) (f : Nat) (x : FlowSt) : (s.setOutFlow f x).crcs = s.crcs := by unfold State.setOutFlow; rfl
@[simp] theorem State.setPkt_variant (s : State) (sid : Nat) (x : PktStr) : (s.setPkt sid x).variant = s.variant := by unfold State.setPkt; rfl
@[simp] theorem State.setPkt_pending (s : State) (sid : Nat) (x : PktStr) : (s.setPkt sid x).pending = s.pending := by unfold State.setPkt; rfl
@[simp] theorem State.setPkt_cycle (s : State) (sid : Nat) (x : PktStr) : (s.setPkt sid x).cycle = s.cycle := by unfold State.setPkt; rfl
@[simp] theorem State.setPkt_freeCtr (s : State) (sid : Nat) (x : PktStr) : (s.setPkt sid x).freeCtr = s.freeCtr := by unfold State.setPkt; rfl
@[simp] theorem State.setPkt_rdata (s : State) (sid : Nat) (x : PktStr) : (s.setPkt sid x).rdata = s.rdata := by unfold State.setPkt; rfl
@[simp] theorem State.setPkt_sent (s : State) (sid : Nat) (x : PktStr) : (s.setPkt sid x).sent = s.sent := by unfold State.setPkt; rfl
@[simp] theorem State.setPkt_regs (s : State) (sid : Nat) (x : PktStr) : (s.setPkt sid x).regs = s.regs := by unfold State.setPkt; rfl
@[simp] theorem State.setPkt_lt (s : State) (sid : Nat) (x : PktStr) : (s.setPkt sid x).lt = s.lt := by unfold State.setPkt; rfl
@[simp] theorem State.setPkt_refs (s : State) (sid : Nat) (x : PktStr) : (s.setPkt sid x).refs = s.refs := by unfold State.setPkt; rfl
@[simp] theorem State.setPkt_ptp (s : State) (sid : Nat) (x : PktStr) : (s.setPkt sid x).ptp = s.ptp := by unfold State.setPkt; rfl
@[simp] theorem State.setPkt_host (s : State) (sid : Nat) (x : PktStr) : (s.setPkt sid x).host = s.host := by unfold State.setPkt; rfl
@[simp] theorem State.setPkt_sch (s : State) (sid : Nat) (x : PktStr) : (s.setPkt sid x).sch = s.sch := by unfold State.setPkt; rfl
@[simp] theorem State.setPkt_xlt (s : State) (sid : Nat) (x : PktStr) : (s.setPkt sid x).xlt = s.xlt := by unfold State.setPkt; rfl
@[simp] theorem State.setPkt_stg (s : State) (sid : Nat) (x : PktStr) : (s.setPkt sid x).stg = s.stg := by unfold State.setPkt; rfl
@[simp] theorem State.setPkt_recorder (s : State) (sid : Nat) (x : PktStr) : (s.setPkt sid x).recorder = s.recorder := by unfold State.setPkt; rfl
@[simp] theorem State.setPkt_rst (s : State) (sid : Nat) (x : PktStr) : (s.setPkt sid x).rst = s.rst := by unfold State.setPkt; rfl
@[simp] theorem State.setPkt_hbm (s : State) (sid : Nat) (x : PktStr) : (s.setPkt sid x).hbm = s.hbm := by unfold State.setPkt; rfl
@[simp] theorem State.setPkt_whl (s : State) (sid : Nat) (x : PktStr) : (s.setPkt sid x).whl = s.whl := by unfold State.setPkt; rfl
@[simp] theorem State.setPkt_aud (s : State) (sid : Nat) (x : PktStr) : (s.setPkt sid x).aud = s.aud := by unfold State.setPkt; rfl
@[simp] theorem State.setPkt_ing (s : State) (sid : Nat) (x : PktStr) : (s.setPkt sid x).ing = s.ing := by unfold State.setPkt; rfl
@[simp] theorem State.setPkt_cmp (s : State) (sid : Nat) (x : PktStr) : (s.setPkt sid x).cmp = s.cmp := by unfold State.setPkt; rfl
@[simp] theorem State.setPkt_pool (s : State) (sid : Nat) (x : PktStr) : (s.setPkt sid x).pool = s.pool := by unfold State.setPkt; rfl
@[simp] theorem State.setPkt_dec (s : State) (sid : Nat) (x : PktStr) : (s.setPkt sid x).dec = s.dec := by unfold State.setPkt; rfl
@[simp] theorem State.setPkt_red (s : State) (sid : Nat) (x : PktStr) : (s.setPkt sid x).red = s.red := by unfold State.setPkt; rfl
@[simp] theorem State.setPkt_hbms (s : State) (sid : Nat) (x : PktStr) : (s.setPkt sid x).hbms = s.hbms := by unfold State.setPkt; rfl
@[simp] theorem State.setPkt_lanes (s : State) (sid : Nat) (x : PktStr) : (s.setPkt sid x).lanes = s.lanes := by unfold State.setPkt; rfl
@[simp] theorem State.setPkt_crcs (s : State) (sid : Nat) (x : PktStr) : (s.setPkt sid x).crcs = s.crcs := by unfold State.setPkt; rfl
@[simp] theorem State.setPair_variant (s : State) (n : Nat) (x : PairSt) : (s.setPair n x).variant = s.variant := by unfold State.setPair; rfl
@[simp] theorem State.setPair_pending (s : State) (n : Nat) (x : PairSt) : (s.setPair n x).pending = s.pending := by unfold State.setPair; rfl
@[simp] theorem State.setPair_cycle (s : State) (n : Nat) (x : PairSt) : (s.setPair n x).cycle = s.cycle := by unfold State.setPair; rfl
@[simp] theorem State.setPair_freeCtr (s : State) (n : Nat) (x : PairSt) : (s.setPair n x).freeCtr = s.freeCtr := by unfold State.setPair; rfl
@[simp] theorem State.setPair_rdata (s : State) (n : Nat) (x : PairSt) : (s.setPair n x).rdata = s.rdata := by unfold State.setPair; rfl
@[simp] theorem State.setPair_sent (s : State) (n : Nat) (x : PairSt) : (s.setPair n x).sent = s.sent := by unfold State.setPair; rfl
@[simp] theorem State.setPair_regs (s : State) (n : Nat) (x : PairSt) : (s.setPair n x).regs = s.regs := by unfold State.setPair; rfl
@[simp] theorem State.setPair_lt (s : State) (n : Nat) (x : PairSt) : (s.setPair n x).lt = s.lt := by unfold State.setPair; rfl
@[simp] theorem State.setPair_refs (s : State) (n : Nat) (x : PairSt) : (s.setPair n x).refs = s.refs := by unfold State.setPair; rfl
@[simp] theorem State.setPair_ptp (s : State) (n : Nat) (x : PairSt) : (s.setPair n x).ptp = s.ptp := by unfold State.setPair; rfl
@[simp] theorem State.setPair_host (s : State) (n : Nat) (x : PairSt) : (s.setPair n x).host = s.host := by unfold State.setPair; rfl
@[simp] theorem State.setPair_sch (s : State) (n : Nat) (x : PairSt) : (s.setPair n x).sch = s.sch := by unfold State.setPair; rfl
@[simp] theorem State.setPair_xlt (s : State) (n : Nat) (x : PairSt) : (s.setPair n x).xlt = s.xlt := by unfold State.setPair; rfl
@[simp] theorem State.setPair_stg (s : State) (n : Nat) (x : PairSt) : (s.setPair n x).stg = s.stg := by unfold State.setPair; rfl
@[simp] theorem State.setPair_recorder (s : State) (n : Nat) (x : PairSt) : (s.setPair n x).recorder = s.recorder := by unfold State.setPair; rfl
@[simp] theorem State.setPair_rst (s : State) (n : Nat) (x : PairSt) : (s.setPair n x).rst = s.rst := by unfold State.setPair; rfl
@[simp] theorem State.setPair_hbm (s : State) (n : Nat) (x : PairSt) : (s.setPair n x).hbm = s.hbm := by unfold State.setPair; rfl
@[simp] theorem State.setPair_whl (s : State) (n : Nat) (x : PairSt) : (s.setPair n x).whl = s.whl := by unfold State.setPair; rfl
@[simp] theorem State.setPair_aud (s : State) (n : Nat) (x : PairSt) : (s.setPair n x).aud = s.aud := by unfold State.setPair; rfl
@[simp] theorem State.setPair_ing (s : State) (n : Nat) (x : PairSt) : (s.setPair n x).ing = s.ing := by unfold State.setPair; rfl
@[simp] theorem State.setPair_cmp (s : State) (n : Nat) (x : PairSt) : (s.setPair n x).cmp = s.cmp := by unfold State.setPair; rfl
@[simp] theorem State.setPair_pool (s : State) (n : Nat) (x : PairSt) : (s.setPair n x).pool = s.pool := by unfold State.setPair; rfl
@[simp] theorem State.setPair_dec (s : State) (n : Nat) (x : PairSt) : (s.setPair n x).dec = s.dec := by unfold State.setPair; rfl
@[simp] theorem State.setPair_enc (s : State) (n : Nat) (x : PairSt) : (s.setPair n x).enc = s.enc := by unfold State.setPair; rfl
@[simp] theorem State.setPair_hbms (s : State) (n : Nat) (x : PairSt) : (s.setPair n x).hbms = s.hbms := by unfold State.setPair; rfl
@[simp] theorem State.setPair_lanes (s : State) (n : Nat) (x : PairSt) : (s.setPair n x).lanes = s.lanes := by unfold State.setPair; rfl
@[simp] theorem State.setPair_crcs (s : State) (n : Nat) (x : PairSt) : (s.setPair n x).crcs = s.crcs := by unfold State.setPair; rfl
@[simp] theorem State.setKept_variant (s : State) (d : Nat) (ks : List (Nat × Word)) : (s.setKept d ks).variant = s.variant := by unfold State.setKept; rfl
@[simp] theorem State.setKept_pending (s : State) (d : Nat) (ks : List (Nat × Word)) : (s.setKept d ks).pending = s.pending := by unfold State.setKept; rfl
@[simp] theorem State.setKept_cycle (s : State) (d : Nat) (ks : List (Nat × Word)) : (s.setKept d ks).cycle = s.cycle := by unfold State.setKept; rfl
@[simp] theorem State.setKept_freeCtr (s : State) (d : Nat) (ks : List (Nat × Word)) : (s.setKept d ks).freeCtr = s.freeCtr := by unfold State.setKept; rfl
@[simp] theorem State.setKept_rdata (s : State) (d : Nat) (ks : List (Nat × Word)) : (s.setKept d ks).rdata = s.rdata := by unfold State.setKept; rfl
@[simp] theorem State.setKept_sent (s : State) (d : Nat) (ks : List (Nat × Word)) : (s.setKept d ks).sent = s.sent := by unfold State.setKept; rfl
@[simp] theorem State.setKept_regs (s : State) (d : Nat) (ks : List (Nat × Word)) : (s.setKept d ks).regs = s.regs := by unfold State.setKept; rfl
@[simp] theorem State.setKept_lt (s : State) (d : Nat) (ks : List (Nat × Word)) : (s.setKept d ks).lt = s.lt := by unfold State.setKept; rfl
@[simp] theorem State.setKept_refs (s : State) (d : Nat) (ks : List (Nat × Word)) : (s.setKept d ks).refs = s.refs := by unfold State.setKept; rfl
@[simp] theorem State.setKept_ptp (s : State) (d : Nat) (ks : List (Nat × Word)) : (s.setKept d ks).ptp = s.ptp := by unfold State.setKept; rfl
@[simp] theorem State.setKept_host (s : State) (d : Nat) (ks : List (Nat × Word)) : (s.setKept d ks).host = s.host := by unfold State.setKept; rfl
@[simp] theorem State.setKept_sch (s : State) (d : Nat) (ks : List (Nat × Word)) : (s.setKept d ks).sch = s.sch := by unfold State.setKept; rfl
@[simp] theorem State.setKept_xlt (s : State) (d : Nat) (ks : List (Nat × Word)) : (s.setKept d ks).xlt = s.xlt := by unfold State.setKept; rfl
@[simp] theorem State.setKept_stg (s : State) (d : Nat) (ks : List (Nat × Word)) : (s.setKept d ks).stg = s.stg := by unfold State.setKept; rfl
@[simp] theorem State.setKept_recorder (s : State) (d : Nat) (ks : List (Nat × Word)) : (s.setKept d ks).recorder = s.recorder := by unfold State.setKept; rfl
@[simp] theorem State.setKept_hbm (s : State) (d : Nat) (ks : List (Nat × Word)) : (s.setKept d ks).hbm = s.hbm := by unfold State.setKept; rfl
@[simp] theorem State.setKept_whl (s : State) (d : Nat) (ks : List (Nat × Word)) : (s.setKept d ks).whl = s.whl := by unfold State.setKept; rfl
@[simp] theorem State.setKept_aud (s : State) (d : Nat) (ks : List (Nat × Word)) : (s.setKept d ks).aud = s.aud := by unfold State.setKept; rfl
@[simp] theorem State.setKept_ing (s : State) (d : Nat) (ks : List (Nat × Word)) : (s.setKept d ks).ing = s.ing := by unfold State.setKept; rfl
@[simp] theorem State.setKept_cmp (s : State) (d : Nat) (ks : List (Nat × Word)) : (s.setKept d ks).cmp = s.cmp := by unfold State.setKept; rfl
@[simp] theorem State.setKept_pool (s : State) (d : Nat) (ks : List (Nat × Word)) : (s.setKept d ks).pool = s.pool := by unfold State.setKept; rfl
@[simp] theorem State.setKept_dec (s : State) (d : Nat) (ks : List (Nat × Word)) : (s.setKept d ks).dec = s.dec := by unfold State.setKept; rfl
@[simp] theorem State.setKept_enc (s : State) (d : Nat) (ks : List (Nat × Word)) : (s.setKept d ks).enc = s.enc := by unfold State.setKept; rfl
@[simp] theorem State.setKept_red (s : State) (d : Nat) (ks : List (Nat × Word)) : (s.setKept d ks).red = s.red := by unfold State.setKept; rfl
@[simp] theorem State.setKept_hbms (s : State) (d : Nat) (ks : List (Nat × Word)) : (s.setKept d ks).hbms = s.hbms := by unfold State.setKept; rfl
@[simp] theorem State.setKept_lanes (s : State) (d : Nat) (ks : List (Nat × Word)) : (s.setKept d ks).lanes = s.lanes := by unfold State.setKept; rfl
@[simp] theorem State.setKept_crcs (s : State) (d : Nat) (ks : List (Nat × Word)) : (s.setKept d ks).crcs = s.crcs := by unfold State.setKept; rfl
@[simp] theorem State.dropLane_variant (s : State) (n : Nat) : (s.dropLane n).variant = s.variant := by unfold State.dropLane; rfl
@[simp] theorem State.dropLane_pending (s : State) (n : Nat) : (s.dropLane n).pending = s.pending := by unfold State.dropLane; rfl
@[simp] theorem State.dropLane_cycle (s : State) (n : Nat) : (s.dropLane n).cycle = s.cycle := by unfold State.dropLane; rfl
@[simp] theorem State.dropLane_freeCtr (s : State) (n : Nat) : (s.dropLane n).freeCtr = s.freeCtr := by unfold State.dropLane; rfl
@[simp] theorem State.dropLane_rdata (s : State) (n : Nat) : (s.dropLane n).rdata = s.rdata := by unfold State.dropLane; rfl
@[simp] theorem State.dropLane_sent (s : State) (n : Nat) : (s.dropLane n).sent = s.sent := by unfold State.dropLane; rfl
@[simp] theorem State.dropLane_regs (s : State) (n : Nat) : (s.dropLane n).regs = s.regs := by unfold State.dropLane; rfl
@[simp] theorem State.dropLane_lt (s : State) (n : Nat) : (s.dropLane n).lt = s.lt := by unfold State.dropLane; rfl
@[simp] theorem State.dropLane_refs (s : State) (n : Nat) : (s.dropLane n).refs = s.refs := by unfold State.dropLane; rfl
@[simp] theorem State.dropLane_ptp (s : State) (n : Nat) : (s.dropLane n).ptp = s.ptp := by unfold State.dropLane; rfl
@[simp] theorem State.dropLane_host (s : State) (n : Nat) : (s.dropLane n).host = s.host := by unfold State.dropLane; rfl
@[simp] theorem State.dropLane_sch (s : State) (n : Nat) : (s.dropLane n).sch = s.sch := by unfold State.dropLane; rfl
@[simp] theorem State.dropLane_xlt (s : State) (n : Nat) : (s.dropLane n).xlt = s.xlt := by unfold State.dropLane; rfl
@[simp] theorem State.dropLane_stg (s : State) (n : Nat) : (s.dropLane n).stg = s.stg := by unfold State.dropLane; rfl
@[simp] theorem State.dropLane_recorder (s : State) (n : Nat) : (s.dropLane n).recorder = s.recorder := by unfold State.dropLane; rfl
@[simp] theorem State.dropLane_rst (s : State) (n : Nat) : (s.dropLane n).rst = s.rst := by unfold State.dropLane; rfl
@[simp] theorem State.dropLane_hbm (s : State) (n : Nat) : (s.dropLane n).hbm = s.hbm := by unfold State.dropLane; rfl
@[simp] theorem State.dropLane_whl (s : State) (n : Nat) : (s.dropLane n).whl = s.whl := by unfold State.dropLane; rfl
@[simp] theorem State.dropLane_aud (s : State) (n : Nat) : (s.dropLane n).aud = s.aud := by unfold State.dropLane; rfl
@[simp] theorem State.dropLane_ing (s : State) (n : Nat) : (s.dropLane n).ing = s.ing := by unfold State.dropLane; rfl
@[simp] theorem State.dropLane_cmp (s : State) (n : Nat) : (s.dropLane n).cmp = s.cmp := by unfold State.dropLane; rfl
@[simp] theorem State.dropLane_pool (s : State) (n : Nat) : (s.dropLane n).pool = s.pool := by unfold State.dropLane; rfl
@[simp] theorem State.dropLane_dec (s : State) (n : Nat) : (s.dropLane n).dec = s.dec := by unfold State.dropLane; rfl
@[simp] theorem State.dropLane_enc (s : State) (n : Nat) : (s.dropLane n).enc = s.enc := by unfold State.dropLane; rfl
@[simp] theorem State.dropLane_red (s : State) (n : Nat) : (s.dropLane n).red = s.red := by unfold State.dropLane; rfl
@[simp] theorem State.dropLane_hbms (s : State) (n : Nat) : (s.dropLane n).hbms = s.hbms := by unfold State.dropLane; rfl
@[simp] theorem State.dropLane_crcs (s : State) (n : Nat) : (s.dropLane n).crcs = s.crcs := by unfold State.dropLane; rfl
@[simp] theorem State.outOfService_variant (s : State) (d : Nat) : (s.outOfService d).variant = s.variant := by unfold State.outOfService; rfl
@[simp] theorem State.outOfService_pending (s : State) (d : Nat) : (s.outOfService d).pending = s.pending := by unfold State.outOfService; rfl
@[simp] theorem State.outOfService_cycle (s : State) (d : Nat) : (s.outOfService d).cycle = s.cycle := by unfold State.outOfService; rfl
@[simp] theorem State.outOfService_freeCtr (s : State) (d : Nat) : (s.outOfService d).freeCtr = s.freeCtr := by unfold State.outOfService; rfl
@[simp] theorem State.outOfService_rdata (s : State) (d : Nat) : (s.outOfService d).rdata = s.rdata := by unfold State.outOfService; rfl
@[simp] theorem State.outOfService_sent (s : State) (d : Nat) : (s.outOfService d).sent = s.sent := by unfold State.outOfService; rfl
@[simp] theorem State.outOfService_regs (s : State) (d : Nat) : (s.outOfService d).regs = s.regs := by unfold State.outOfService; rfl
@[simp] theorem State.outOfService_lt (s : State) (d : Nat) : (s.outOfService d).lt = s.lt := by unfold State.outOfService; rfl
@[simp] theorem State.outOfService_refs (s : State) (d : Nat) : (s.outOfService d).refs = s.refs := by unfold State.outOfService; rfl
@[simp] theorem State.outOfService_ptp (s : State) (d : Nat) : (s.outOfService d).ptp = s.ptp := by unfold State.outOfService; rfl
@[simp] theorem State.outOfService_host (s : State) (d : Nat) : (s.outOfService d).host = s.host := by unfold State.outOfService; rfl
@[simp] theorem State.outOfService_sch (s : State) (d : Nat) : (s.outOfService d).sch = s.sch := by unfold State.outOfService; rfl
@[simp] theorem State.outOfService_xlt (s : State) (d : Nat) : (s.outOfService d).xlt = s.xlt := by unfold State.outOfService; rfl
@[simp] theorem State.outOfService_stg (s : State) (d : Nat) : (s.outOfService d).stg = s.stg := by unfold State.outOfService; rfl
@[simp] theorem State.outOfService_recorder (s : State) (d : Nat) : (s.outOfService d).recorder = s.recorder := by unfold State.outOfService; rfl
@[simp] theorem State.outOfService_hbm (s : State) (d : Nat) : (s.outOfService d).hbm = s.hbm := by unfold State.outOfService; rfl
@[simp] theorem State.outOfService_whl (s : State) (d : Nat) : (s.outOfService d).whl = s.whl := by unfold State.outOfService; rfl
@[simp] theorem State.outOfService_aud (s : State) (d : Nat) : (s.outOfService d).aud = s.aud := by unfold State.outOfService; rfl
@[simp] theorem State.outOfService_ing (s : State) (d : Nat) : (s.outOfService d).ing = s.ing := by unfold State.outOfService; rfl
@[simp] theorem State.outOfService_cmp (s : State) (d : Nat) : (s.outOfService d).cmp = s.cmp := by unfold State.outOfService; rfl
@[simp] theorem State.outOfService_pool (s : State) (d : Nat) : (s.outOfService d).pool = s.pool := by unfold State.outOfService; rfl
@[simp] theorem State.outOfService_dec (s : State) (d : Nat) : (s.outOfService d).dec = s.dec := by unfold State.outOfService; rfl
@[simp] theorem State.outOfService_enc (s : State) (d : Nat) : (s.outOfService d).enc = s.enc := by unfold State.outOfService; rfl
@[simp] theorem State.outOfService_red (s : State) (d : Nat) : (s.outOfService d).red = s.red := by unfold State.outOfService; rfl
@[simp] theorem State.outOfService_hbms (s : State) (d : Nat) : (s.outOfService d).hbms = s.hbms := by unfold State.outOfService; rfl
@[simp] theorem State.outOfService_lanes (s : State) (d : Nat) : (s.outOfService d).lanes = s.lanes := by unfold State.outOfService; rfl
@[simp] theorem State.outOfService_crcs (s : State) (d : Nat) : (s.outOfService d).crcs = s.crcs := by unfold State.outOfService; rfl
@[simp] theorem State.setCrcOp_variant (s : State) (d k : Nat) (x : Option (Nat × Nat × Nat × Nat)) : (s.setCrcOp d k x).variant = s.variant := by unfold State.setCrcOp; rfl
@[simp] theorem State.setCrcOp_pending (s : State) (d k : Nat) (x : Option (Nat × Nat × Nat × Nat)) : (s.setCrcOp d k x).pending = s.pending := by unfold State.setCrcOp; rfl
@[simp] theorem State.setCrcOp_cycle (s : State) (d k : Nat) (x : Option (Nat × Nat × Nat × Nat)) : (s.setCrcOp d k x).cycle = s.cycle := by unfold State.setCrcOp; rfl
@[simp] theorem State.setCrcOp_freeCtr (s : State) (d k : Nat) (x : Option (Nat × Nat × Nat × Nat)) : (s.setCrcOp d k x).freeCtr = s.freeCtr := by unfold State.setCrcOp; rfl
@[simp] theorem State.setCrcOp_rdata (s : State) (d k : Nat) (x : Option (Nat × Nat × Nat × Nat)) : (s.setCrcOp d k x).rdata = s.rdata := by unfold State.setCrcOp; rfl
@[simp] theorem State.setCrcOp_sent (s : State) (d k : Nat) (x : Option (Nat × Nat × Nat × Nat)) : (s.setCrcOp d k x).sent = s.sent := by unfold State.setCrcOp; rfl
@[simp] theorem State.setCrcOp_regs (s : State) (d k : Nat) (x : Option (Nat × Nat × Nat × Nat)) : (s.setCrcOp d k x).regs = s.regs := by unfold State.setCrcOp; rfl
@[simp] theorem State.setCrcOp_lt (s : State) (d k : Nat) (x : Option (Nat × Nat × Nat × Nat)) : (s.setCrcOp d k x).lt = s.lt := by unfold State.setCrcOp; rfl
@[simp] theorem State.setCrcOp_refs (s : State) (d k : Nat) (x : Option (Nat × Nat × Nat × Nat)) : (s.setCrcOp d k x).refs = s.refs := by unfold State.setCrcOp; rfl
@[simp] theorem State.setCrcOp_ptp (s : State) (d k : Nat) (x : Option (Nat × Nat × Nat × Nat)) : (s.setCrcOp d k x).ptp = s.ptp := by unfold State.setCrcOp; rfl
@[simp] theorem State.setCrcOp_host (s : State) (d k : Nat) (x : Option (Nat × Nat × Nat × Nat)) : (s.setCrcOp d k x).host = s.host := by unfold State.setCrcOp; rfl
@[simp] theorem State.setCrcOp_sch (s : State) (d k : Nat) (x : Option (Nat × Nat × Nat × Nat)) : (s.setCrcOp d k x).sch = s.sch := by unfold State.setCrcOp; rfl
@[simp] theorem State.setCrcOp_xlt (s : State) (d k : Nat) (x : Option (Nat × Nat × Nat × Nat)) : (s.setCrcOp d k x).xlt = s.xlt := by unfold State.setCrcOp; rfl
@[simp] theorem State.setCrcOp_stg (s : State) (d k : Nat) (x : Option (Nat × Nat × Nat × Nat)) : (s.setCrcOp d k x).stg = s.stg := by unfold State.setCrcOp; rfl
@[simp] theorem State.setCrcOp_recorder (s : State) (d k : Nat) (x : Option (Nat × Nat × Nat × Nat)) : (s.setCrcOp d k x).recorder = s.recorder := by unfold State.setCrcOp; rfl
@[simp] theorem State.setCrcOp_rst (s : State) (d k : Nat) (x : Option (Nat × Nat × Nat × Nat)) : (s.setCrcOp d k x).rst = s.rst := by unfold State.setCrcOp; rfl
@[simp] theorem State.setCrcOp_hbm (s : State) (d k : Nat) (x : Option (Nat × Nat × Nat × Nat)) : (s.setCrcOp d k x).hbm = s.hbm := by unfold State.setCrcOp; rfl
@[simp] theorem State.setCrcOp_whl (s : State) (d k : Nat) (x : Option (Nat × Nat × Nat × Nat)) : (s.setCrcOp d k x).whl = s.whl := by unfold State.setCrcOp; rfl
@[simp] theorem State.setCrcOp_aud (s : State) (d k : Nat) (x : Option (Nat × Nat × Nat × Nat)) : (s.setCrcOp d k x).aud = s.aud := by unfold State.setCrcOp; rfl
@[simp] theorem State.setCrcOp_ing (s : State) (d k : Nat) (x : Option (Nat × Nat × Nat × Nat)) : (s.setCrcOp d k x).ing = s.ing := by unfold State.setCrcOp; rfl
@[simp] theorem State.setCrcOp_cmp (s : State) (d k : Nat) (x : Option (Nat × Nat × Nat × Nat)) : (s.setCrcOp d k x).cmp = s.cmp := by unfold State.setCrcOp; rfl
@[simp] theorem State.setCrcOp_pool (s : State) (d k : Nat) (x : Option (Nat × Nat × Nat × Nat)) : (s.setCrcOp d k x).pool = s.pool := by unfold State.setCrcOp; rfl
@[simp] theorem State.setCrcOp_dec (s : State) (d k : Nat) (x : Option (Nat × Nat × Nat × Nat)) : (s.setCrcOp d k x).dec = s.dec := by unfold State.setCrcOp; rfl
@[simp] theorem State.setCrcOp_enc (s : State) (d k : Nat) (x : Option (Nat × Nat × Nat × Nat)) : (s.setCrcOp d k x).enc = s.enc := by unfold State.setCrcOp; rfl
@[simp] theorem State.setCrcOp_red (s : State) (d k : Nat) (x : Option (Nat × Nat × Nat × Nat)) : (s.setCrcOp d k x).red = s.red := by unfold State.setCrcOp; rfl
@[simp] theorem State.setCrcOp_hbms (s : State) (d k : Nat) (x : Option (Nat × Nat × Nat × Nat)) : (s.setCrcOp d k x).hbms = s.hbms := by unfold State.setCrcOp; rfl
@[simp] theorem State.setCrcOp_lanes (s : State) (d k : Nat) (x : Option (Nat × Nat × Nat × Nat)) : (s.setCrcOp d k x).lanes = s.lanes := by unfold State.setCrcOp; rfl
@[simp] theorem State.setWit_variant (s : State) (id : Nat) (x : WitSt) : (s.setWit id x).variant = s.variant := by unfold State.setWit; rfl
@[simp] theorem State.setWit_pending (s : State) (id : Nat) (x : WitSt) : (s.setWit id x).pending = s.pending := by unfold State.setWit; rfl
@[simp] theorem State.setWit_cycle (s : State) (id : Nat) (x : WitSt) : (s.setWit id x).cycle = s.cycle := by unfold State.setWit; rfl
@[simp] theorem State.setWit_freeCtr (s : State) (id : Nat) (x : WitSt) : (s.setWit id x).freeCtr = s.freeCtr := by unfold State.setWit; rfl
@[simp] theorem State.setWit_rdata (s : State) (id : Nat) (x : WitSt) : (s.setWit id x).rdata = s.rdata := by unfold State.setWit; rfl
@[simp] theorem State.setWit_sent (s : State) (id : Nat) (x : WitSt) : (s.setWit id x).sent = s.sent := by unfold State.setWit; rfl
@[simp] theorem State.setWit_regs (s : State) (id : Nat) (x : WitSt) : (s.setWit id x).regs = s.regs := by unfold State.setWit; rfl
@[simp] theorem State.setWit_lt (s : State) (id : Nat) (x : WitSt) : (s.setWit id x).lt = s.lt := by unfold State.setWit; rfl
@[simp] theorem State.setWit_refs (s : State) (id : Nat) (x : WitSt) : (s.setWit id x).refs = s.refs := by unfold State.setWit; rfl
@[simp] theorem State.setWit_ptp (s : State) (id : Nat) (x : WitSt) : (s.setWit id x).ptp = s.ptp := by unfold State.setWit; rfl
@[simp] theorem State.setWit_host (s : State) (id : Nat) (x : WitSt) : (s.setWit id x).host = s.host := by unfold State.setWit; rfl
@[simp] theorem State.setWit_sch (s : State) (id : Nat) (x : WitSt) : (s.setWit id x).sch = s.sch := by unfold State.setWit; rfl
@[simp] theorem State.setWit_xlt (s : State) (id : Nat) (x : WitSt) : (s.setWit id x).xlt = s.xlt := by unfold State.setWit; rfl
@[simp] theorem State.setWit_stg (s : State) (id : Nat) (x : WitSt) : (s.setWit id x).stg = s.stg := by unfold State.setWit; rfl
@[simp] theorem State.setWit_recorder (s : State) (id : Nat) (x : WitSt) : (s.setWit id x).recorder = s.recorder := by unfold State.setWit; rfl
@[simp] theorem State.setWit_rst (s : State) (id : Nat) (x : WitSt) : (s.setWit id x).rst = s.rst := by unfold State.setWit; rfl
@[simp] theorem State.setWit_hbm (s : State) (id : Nat) (x : WitSt) : (s.setWit id x).hbm = s.hbm := by unfold State.setWit; rfl
@[simp] theorem State.setWit_whl (s : State) (id : Nat) (x : WitSt) : (s.setWit id x).whl = s.whl := by unfold State.setWit; rfl
@[simp] theorem State.setWit_aud (s : State) (id : Nat) (x : WitSt) : (s.setWit id x).aud = s.aud := by unfold State.setWit; rfl
@[simp] theorem State.setWit_ing (s : State) (id : Nat) (x : WitSt) : (s.setWit id x).ing = s.ing := by unfold State.setWit; rfl
@[simp] theorem State.setWit_cmp (s : State) (id : Nat) (x : WitSt) : (s.setWit id x).cmp = s.cmp := by unfold State.setWit; rfl
@[simp] theorem State.setWit_pool (s : State) (id : Nat) (x : WitSt) : (s.setWit id x).pool = s.pool := by unfold State.setWit; rfl
@[simp] theorem State.setWit_dec (s : State) (id : Nat) (x : WitSt) : (s.setWit id x).dec = s.dec := by unfold State.setWit; rfl
@[simp] theorem State.setWit_enc (s : State) (id : Nat) (x : WitSt) : (s.setWit id x).enc = s.enc := by unfold State.setWit; rfl
@[simp] theorem State.setWit_hbms (s : State) (id : Nat) (x : WitSt) : (s.setWit id x).hbms = s.hbms := by unfold State.setWit; rfl
@[simp] theorem State.setWit_lanes (s : State) (id : Nat) (x : WitSt) : (s.setWit id x).lanes = s.lanes := by unfold State.setWit; rfl
@[simp] theorem State.setWit_crcs (s : State) (id : Nat) (x : WitSt) : (s.setWit id x).crcs = s.crcs := by unfold State.setWit; rfl
@[simp] theorem State.sramPut_variant (s : State) (d off : Nat) (bs : List Byte) : (s.sramPut d off bs).variant = s.variant := by unfold State.sramPut; rfl
@[simp] theorem State.sramPut_pending (s : State) (d off : Nat) (bs : List Byte) : (s.sramPut d off bs).pending = s.pending := by unfold State.sramPut; rfl
@[simp] theorem State.sramPut_cycle (s : State) (d off : Nat) (bs : List Byte) : (s.sramPut d off bs).cycle = s.cycle := by unfold State.sramPut; rfl
@[simp] theorem State.sramPut_freeCtr (s : State) (d off : Nat) (bs : List Byte) : (s.sramPut d off bs).freeCtr = s.freeCtr := by unfold State.sramPut; rfl
@[simp] theorem State.sramPut_rdata (s : State) (d off : Nat) (bs : List Byte) : (s.sramPut d off bs).rdata = s.rdata := by unfold State.sramPut; rfl
@[simp] theorem State.sramPut_sent (s : State) (d off : Nat) (bs : List Byte) : (s.sramPut d off bs).sent = s.sent := by unfold State.sramPut; rfl
@[simp] theorem State.sramPut_regs (s : State) (d off : Nat) (bs : List Byte) : (s.sramPut d off bs).regs = s.regs := by unfold State.sramPut; rfl
@[simp] theorem State.sramPut_lt (s : State) (d off : Nat) (bs : List Byte) : (s.sramPut d off bs).lt = s.lt := by unfold State.sramPut; rfl
@[simp] theorem State.sramPut_refs (s : State) (d off : Nat) (bs : List Byte) : (s.sramPut d off bs).refs = s.refs := by unfold State.sramPut; rfl
@[simp] theorem State.sramPut_ptp (s : State) (d off : Nat) (bs : List Byte) : (s.sramPut d off bs).ptp = s.ptp := by unfold State.sramPut; rfl
@[simp] theorem State.sramPut_host (s : State) (d off : Nat) (bs : List Byte) : (s.sramPut d off bs).host = s.host := by unfold State.sramPut; rfl
@[simp] theorem State.sramPut_sch (s : State) (d off : Nat) (bs : List Byte) : (s.sramPut d off bs).sch = s.sch := by unfold State.sramPut; rfl
@[simp] theorem State.sramPut_xlt (s : State) (d off : Nat) (bs : List Byte) : (s.sramPut d off bs).xlt = s.xlt := by unfold State.sramPut; rfl
@[simp] theorem State.sramPut_stg (s : State) (d off : Nat) (bs : List Byte) : (s.sramPut d off bs).stg = s.stg := by unfold State.sramPut; rfl
@[simp] theorem State.sramPut_recorder (s : State) (d off : Nat) (bs : List Byte) : (s.sramPut d off bs).recorder = s.recorder := by unfold State.sramPut; rfl
@[simp] theorem State.sramPut_hbm (s : State) (d off : Nat) (bs : List Byte) : (s.sramPut d off bs).hbm = s.hbm := by unfold State.sramPut; rfl
@[simp] theorem State.sramPut_whl (s : State) (d off : Nat) (bs : List Byte) : (s.sramPut d off bs).whl = s.whl := by unfold State.sramPut; rfl
@[simp] theorem State.sramPut_aud (s : State) (d off : Nat) (bs : List Byte) : (s.sramPut d off bs).aud = s.aud := by unfold State.sramPut; rfl
@[simp] theorem State.sramPut_ing (s : State) (d off : Nat) (bs : List Byte) : (s.sramPut d off bs).ing = s.ing := by unfold State.sramPut; rfl
@[simp] theorem State.sramPut_cmp (s : State) (d off : Nat) (bs : List Byte) : (s.sramPut d off bs).cmp = s.cmp := by unfold State.sramPut; rfl
@[simp] theorem State.sramPut_pool (s : State) (d off : Nat) (bs : List Byte) : (s.sramPut d off bs).pool = s.pool := by unfold State.sramPut; rfl
@[simp] theorem State.sramPut_dec (s : State) (d off : Nat) (bs : List Byte) : (s.sramPut d off bs).dec = s.dec := by unfold State.sramPut; rfl
@[simp] theorem State.sramPut_enc (s : State) (d off : Nat) (bs : List Byte) : (s.sramPut d off bs).enc = s.enc := by unfold State.sramPut; rfl
@[simp] theorem State.sramPut_red (s : State) (d off : Nat) (bs : List Byte) : (s.sramPut d off bs).red = s.red := by unfold State.sramPut; rfl
@[simp] theorem State.sramPut_hbms (s : State) (d off : Nat) (bs : List Byte) : (s.sramPut d off bs).hbms = s.hbms := by unfold State.sramPut; rfl
@[simp] theorem State.sramPut_lanes (s : State) (d off : Nat) (bs : List Byte) : (s.sramPut d off bs).lanes = s.lanes := by unfold State.sramPut; rfl
@[simp] theorem State.sramPut_crcs (s : State) (d off : Nat) (bs : List Byte) : (s.sramPut d off bs).crcs = s.crcs := by unfold State.sramPut; rfl
@[simp] theorem State.setHbm_variant (s : State) (d : Nat) (x : HbmSt) : (s.setHbm d x).variant = s.variant := by unfold State.setHbm; rfl
@[simp] theorem State.setHbm_pending (s : State) (d : Nat) (x : HbmSt) : (s.setHbm d x).pending = s.pending := by unfold State.setHbm; rfl
@[simp] theorem State.setHbm_cycle (s : State) (d : Nat) (x : HbmSt) : (s.setHbm d x).cycle = s.cycle := by unfold State.setHbm; rfl
@[simp] theorem State.setHbm_freeCtr (s : State) (d : Nat) (x : HbmSt) : (s.setHbm d x).freeCtr = s.freeCtr := by unfold State.setHbm; rfl
@[simp] theorem State.setHbm_rdata (s : State) (d : Nat) (x : HbmSt) : (s.setHbm d x).rdata = s.rdata := by unfold State.setHbm; rfl
@[simp] theorem State.setHbm_sent (s : State) (d : Nat) (x : HbmSt) : (s.setHbm d x).sent = s.sent := by unfold State.setHbm; rfl
@[simp] theorem State.setHbm_regs (s : State) (d : Nat) (x : HbmSt) : (s.setHbm d x).regs = s.regs := by unfold State.setHbm; rfl
@[simp] theorem State.setHbm_lt (s : State) (d : Nat) (x : HbmSt) : (s.setHbm d x).lt = s.lt := by unfold State.setHbm; rfl
@[simp] theorem State.setHbm_refs (s : State) (d : Nat) (x : HbmSt) : (s.setHbm d x).refs = s.refs := by unfold State.setHbm; rfl
@[simp] theorem State.setHbm_ptp (s : State) (d : Nat) (x : HbmSt) : (s.setHbm d x).ptp = s.ptp := by unfold State.setHbm; rfl
@[simp] theorem State.setHbm_host (s : State) (d : Nat) (x : HbmSt) : (s.setHbm d x).host = s.host := by unfold State.setHbm; rfl
@[simp] theorem State.setHbm_sch (s : State) (d : Nat) (x : HbmSt) : (s.setHbm d x).sch = s.sch := by unfold State.setHbm; rfl
@[simp] theorem State.setHbm_xlt (s : State) (d : Nat) (x : HbmSt) : (s.setHbm d x).xlt = s.xlt := by unfold State.setHbm; rfl
@[simp] theorem State.setHbm_stg (s : State) (d : Nat) (x : HbmSt) : (s.setHbm d x).stg = s.stg := by unfold State.setHbm; rfl
@[simp] theorem State.setHbm_recorder (s : State) (d : Nat) (x : HbmSt) : (s.setHbm d x).recorder = s.recorder := by unfold State.setHbm; rfl
@[simp] theorem State.setHbm_rst (s : State) (d : Nat) (x : HbmSt) : (s.setHbm d x).rst = s.rst := by unfold State.setHbm; rfl
@[simp] theorem State.setHbm_hbm (s : State) (d : Nat) (x : HbmSt) : (s.setHbm d x).hbm = s.hbm := by unfold State.setHbm; rfl
@[simp] theorem State.setHbm_whl (s : State) (d : Nat) (x : HbmSt) : (s.setHbm d x).whl = s.whl := by unfold State.setHbm; rfl
@[simp] theorem State.setHbm_aud (s : State) (d : Nat) (x : HbmSt) : (s.setHbm d x).aud = s.aud := by unfold State.setHbm; rfl
@[simp] theorem State.setHbm_ing (s : State) (d : Nat) (x : HbmSt) : (s.setHbm d x).ing = s.ing := by unfold State.setHbm; rfl
@[simp] theorem State.setHbm_cmp (s : State) (d : Nat) (x : HbmSt) : (s.setHbm d x).cmp = s.cmp := by unfold State.setHbm; rfl
@[simp] theorem State.setHbm_pool (s : State) (d : Nat) (x : HbmSt) : (s.setHbm d x).pool = s.pool := by unfold State.setHbm; rfl
@[simp] theorem State.setHbm_dec (s : State) (d : Nat) (x : HbmSt) : (s.setHbm d x).dec = s.dec := by unfold State.setHbm; rfl
@[simp] theorem State.setHbm_enc (s : State) (d : Nat) (x : HbmSt) : (s.setHbm d x).enc = s.enc := by unfold State.setHbm; rfl
@[simp] theorem State.setHbm_red (s : State) (d : Nat) (x : HbmSt) : (s.setHbm d x).red = s.red := by unfold State.setHbm; rfl
@[simp] theorem State.setHbm_lanes (s : State) (d : Nat) (x : HbmSt) : (s.setHbm d x).lanes = s.lanes := by unfold State.setHbm; rfl
@[simp] theorem State.setHbm_crcs (s : State) (d : Nat) (x : HbmSt) : (s.setHbm d x).crcs = s.crcs := by unfold State.setHbm; rfl
@[simp] theorem State.trainFill_variant (s : State) (d : Nat) (v : Word) : (s.trainFill d v).variant = s.variant := by unfold State.trainFill; rfl
@[simp] theorem State.trainFill_pending (s : State) (d : Nat) (v : Word) : (s.trainFill d v).pending = s.pending := by unfold State.trainFill; rfl
@[simp] theorem State.trainFill_cycle (s : State) (d : Nat) (v : Word) : (s.trainFill d v).cycle = s.cycle := by unfold State.trainFill; rfl
@[simp] theorem State.trainFill_freeCtr (s : State) (d : Nat) (v : Word) : (s.trainFill d v).freeCtr = s.freeCtr := by unfold State.trainFill; rfl
@[simp] theorem State.trainFill_rdata (s : State) (d : Nat) (v : Word) : (s.trainFill d v).rdata = s.rdata := by unfold State.trainFill; rfl
@[simp] theorem State.trainFill_sent (s : State) (d : Nat) (v : Word) : (s.trainFill d v).sent = s.sent := by unfold State.trainFill; rfl
@[simp] theorem State.trainFill_regs (s : State) (d : Nat) (v : Word) : (s.trainFill d v).regs = s.regs := by unfold State.trainFill; rfl
@[simp] theorem State.trainFill_lt (s : State) (d : Nat) (v : Word) : (s.trainFill d v).lt = s.lt := by unfold State.trainFill; rfl
@[simp] theorem State.trainFill_refs (s : State) (d : Nat) (v : Word) : (s.trainFill d v).refs = s.refs := by unfold State.trainFill; rfl
@[simp] theorem State.trainFill_ptp (s : State) (d : Nat) (v : Word) : (s.trainFill d v).ptp = s.ptp := by unfold State.trainFill; rfl
@[simp] theorem State.trainFill_host (s : State) (d : Nat) (v : Word) : (s.trainFill d v).host = s.host := by unfold State.trainFill; rfl
@[simp] theorem State.trainFill_sch (s : State) (d : Nat) (v : Word) : (s.trainFill d v).sch = s.sch := by unfold State.trainFill; rfl
@[simp] theorem State.trainFill_xlt (s : State) (d : Nat) (v : Word) : (s.trainFill d v).xlt = s.xlt := by unfold State.trainFill; rfl
@[simp] theorem State.trainFill_stg (s : State) (d : Nat) (v : Word) : (s.trainFill d v).stg = s.stg := by unfold State.trainFill; rfl
@[simp] theorem State.trainFill_recorder (s : State) (d : Nat) (v : Word) : (s.trainFill d v).recorder = s.recorder := by unfold State.trainFill; rfl
@[simp] theorem State.trainFill_rst (s : State) (d : Nat) (v : Word) : (s.trainFill d v).rst = s.rst := by unfold State.trainFill; rfl
@[simp] theorem State.trainFill_whl (s : State) (d : Nat) (v : Word) : (s.trainFill d v).whl = s.whl := by unfold State.trainFill; rfl
@[simp] theorem State.trainFill_aud (s : State) (d : Nat) (v : Word) : (s.trainFill d v).aud = s.aud := by unfold State.trainFill; rfl
@[simp] theorem State.trainFill_ing (s : State) (d : Nat) (v : Word) : (s.trainFill d v).ing = s.ing := by unfold State.trainFill; rfl
@[simp] theorem State.trainFill_cmp (s : State) (d : Nat) (v : Word) : (s.trainFill d v).cmp = s.cmp := by unfold State.trainFill; rfl
@[simp] theorem State.trainFill_pool (s : State) (d : Nat) (v : Word) : (s.trainFill d v).pool = s.pool := by unfold State.trainFill; rfl
@[simp] theorem State.trainFill_dec (s : State) (d : Nat) (v : Word) : (s.trainFill d v).dec = s.dec := by unfold State.trainFill; rfl
@[simp] theorem State.trainFill_enc (s : State) (d : Nat) (v : Word) : (s.trainFill d v).enc = s.enc := by unfold State.trainFill; rfl
@[simp] theorem State.trainFill_red (s : State) (d : Nat) (v : Word) : (s.trainFill d v).red = s.red := by unfold State.trainFill; rfl
@[simp] theorem State.trainFill_hbms (s : State) (d : Nat) (v : Word) : (s.trainFill d v).hbms = s.hbms := by unfold State.trainFill; rfl
@[simp] theorem State.trainFill_lanes (s : State) (d : Nat) (v : Word) : (s.trainFill d v).lanes = s.lanes := by unfold State.trainFill; rfl
@[simp] theorem State.trainFill_crcs (s : State) (d : Nat) (v : Word) : (s.trainFill d v).crcs = s.crcs := by unfold State.trainFill; rfl
@[simp] theorem State.setLane_variant (s : State) (n : Nat) (x : LaneSt) : (s.setLane n x).variant = s.variant := by unfold State.setLane; rfl
@[simp] theorem State.setLane_pending (s : State) (n : Nat) (x : LaneSt) : (s.setLane n x).pending = s.pending := by unfold State.setLane; rfl
@[simp] theorem State.setLane_cycle (s : State) (n : Nat) (x : LaneSt) : (s.setLane n x).cycle = s.cycle := by unfold State.setLane; rfl
@[simp] theorem State.setLane_freeCtr (s : State) (n : Nat) (x : LaneSt) : (s.setLane n x).freeCtr = s.freeCtr := by unfold State.setLane; rfl
@[simp] theorem State.setLane_rdata (s : State) (n : Nat) (x : LaneSt) : (s.setLane n x).rdata = s.rdata := by unfold State.setLane; rfl
@[simp] theorem State.setLane_sent (s : State) (n : Nat) (x : LaneSt) : (s.setLane n x).sent = s.sent := by unfold State.setLane; rfl
@[simp] theorem State.setLane_regs (s : State) (n : Nat) (x : LaneSt) : (s.setLane n x).regs = s.regs := by unfold State.setLane; rfl
@[simp] theorem State.setLane_lt (s : State) (n : Nat) (x : LaneSt) : (s.setLane n x).lt = s.lt := by unfold State.setLane; rfl
@[simp] theorem State.setLane_refs (s : State) (n : Nat) (x : LaneSt) : (s.setLane n x).refs = s.refs := by unfold State.setLane; rfl
@[simp] theorem State.setLane_ptp (s : State) (n : Nat) (x : LaneSt) : (s.setLane n x).ptp = s.ptp := by unfold State.setLane; rfl
@[simp] theorem State.setLane_host (s : State) (n : Nat) (x : LaneSt) : (s.setLane n x).host = s.host := by unfold State.setLane; rfl
@[simp] theorem State.setLane_sch (s : State) (n : Nat) (x : LaneSt) : (s.setLane n x).sch = s.sch := by unfold State.setLane; rfl
@[simp] theorem State.setLane_xlt (s : State) (n : Nat) (x : LaneSt) : (s.setLane n x).xlt = s.xlt := by unfold State.setLane; rfl
@[simp] theorem State.setLane_stg (s : State) (n : Nat) (x : LaneSt) : (s.setLane n x).stg = s.stg := by unfold State.setLane; rfl
@[simp] theorem State.setLane_recorder (s : State) (n : Nat) (x : LaneSt) : (s.setLane n x).recorder = s.recorder := by unfold State.setLane; rfl
@[simp] theorem State.setLane_rst (s : State) (n : Nat) (x : LaneSt) : (s.setLane n x).rst = s.rst := by unfold State.setLane; rfl
@[simp] theorem State.setLane_hbm (s : State) (n : Nat) (x : LaneSt) : (s.setLane n x).hbm = s.hbm := by unfold State.setLane; rfl
@[simp] theorem State.setLane_whl (s : State) (n : Nat) (x : LaneSt) : (s.setLane n x).whl = s.whl := by unfold State.setLane; rfl
@[simp] theorem State.setLane_aud (s : State) (n : Nat) (x : LaneSt) : (s.setLane n x).aud = s.aud := by unfold State.setLane; rfl
@[simp] theorem State.setLane_ing (s : State) (n : Nat) (x : LaneSt) : (s.setLane n x).ing = s.ing := by unfold State.setLane; rfl
@[simp] theorem State.setLane_cmp (s : State) (n : Nat) (x : LaneSt) : (s.setLane n x).cmp = s.cmp := by unfold State.setLane; rfl
@[simp] theorem State.setLane_pool (s : State) (n : Nat) (x : LaneSt) : (s.setLane n x).pool = s.pool := by unfold State.setLane; rfl
@[simp] theorem State.setLane_dec (s : State) (n : Nat) (x : LaneSt) : (s.setLane n x).dec = s.dec := by unfold State.setLane; rfl
@[simp] theorem State.setLane_enc (s : State) (n : Nat) (x : LaneSt) : (s.setLane n x).enc = s.enc := by unfold State.setLane; rfl
@[simp] theorem State.setLane_red (s : State) (n : Nat) (x : LaneSt) : (s.setLane n x).red = s.red := by unfold State.setLane; rfl
@[simp] theorem State.setLane_hbms (s : State) (n : Nat) (x : LaneSt) : (s.setLane n x).hbms = s.hbms := by unfold State.setLane; rfl
@[simp] theorem State.setLane_crcs (s : State) (n : Nat) (x : LaneSt) : (s.setLane n x).crcs = s.crcs := by unfold State.setLane; rfl
@[simp] theorem State.setCopied_variant (s : State) (d c : Nat) : (s.setCopied d c).variant = s.variant := by unfold State.setCopied; rfl
@[simp] theorem State.setCopied_pending (s : State) (d c : Nat) : (s.setCopied d c).pending = s.pending := by unfold State.setCopied; rfl
@[simp] theorem State.setCopied_cycle (s : State) (d c : Nat) : (s.setCopied d c).cycle = s.cycle := by unfold State.setCopied; rfl
@[simp] theorem State.setCopied_freeCtr (s : State) (d c : Nat) : (s.setCopied d c).freeCtr = s.freeCtr := by unfold State.setCopied; rfl
@[simp] theorem State.setCopied_rdata (s : State) (d c : Nat) : (s.setCopied d c).rdata = s.rdata := by unfold State.setCopied; rfl
@[simp] theorem State.setCopied_sent (s : State) (d c : Nat) : (s.setCopied d c).sent = s.sent := by unfold State.setCopied; rfl
@[simp] theorem State.setCopied_regs (s : State) (d c : Nat) : (s.setCopied d c).regs = s.regs := by unfold State.setCopied; rfl
@[simp] theorem State.setCopied_lt (s : State) (d c : Nat) : (s.setCopied d c).lt = s.lt := by unfold State.setCopied; rfl
@[simp] theorem State.setCopied_refs (s : State) (d c : Nat) : (s.setCopied d c).refs = s.refs := by unfold State.setCopied; rfl
@[simp] theorem State.setCopied_ptp (s : State) (d c : Nat) : (s.setCopied d c).ptp = s.ptp := by unfold State.setCopied; rfl
@[simp] theorem State.setCopied_host (s : State) (d c : Nat) : (s.setCopied d c).host = s.host := by unfold State.setCopied; rfl
@[simp] theorem State.setCopied_sch (s : State) (d c : Nat) : (s.setCopied d c).sch = s.sch := by unfold State.setCopied; rfl
@[simp] theorem State.setCopied_xlt (s : State) (d c : Nat) : (s.setCopied d c).xlt = s.xlt := by unfold State.setCopied; rfl
@[simp] theorem State.setCopied_stg (s : State) (d c : Nat) : (s.setCopied d c).stg = s.stg := by unfold State.setCopied; rfl
@[simp] theorem State.setCopied_rst (s : State) (d c : Nat) : (s.setCopied d c).rst = s.rst := by unfold State.setCopied; rfl
@[simp] theorem State.setCopied_hbm (s : State) (d c : Nat) : (s.setCopied d c).hbm = s.hbm := by unfold State.setCopied; rfl
@[simp] theorem State.setCopied_whl (s : State) (d c : Nat) : (s.setCopied d c).whl = s.whl := by unfold State.setCopied; rfl
@[simp] theorem State.setCopied_aud (s : State) (d c : Nat) : (s.setCopied d c).aud = s.aud := by unfold State.setCopied; rfl
@[simp] theorem State.setCopied_ing (s : State) (d c : Nat) : (s.setCopied d c).ing = s.ing := by unfold State.setCopied; rfl
@[simp] theorem State.setCopied_cmp (s : State) (d c : Nat) : (s.setCopied d c).cmp = s.cmp := by unfold State.setCopied; rfl
@[simp] theorem State.setCopied_pool (s : State) (d c : Nat) : (s.setCopied d c).pool = s.pool := by unfold State.setCopied; rfl
@[simp] theorem State.setCopied_dec (s : State) (d c : Nat) : (s.setCopied d c).dec = s.dec := by unfold State.setCopied; rfl
@[simp] theorem State.setCopied_enc (s : State) (d c : Nat) : (s.setCopied d c).enc = s.enc := by unfold State.setCopied; rfl
@[simp] theorem State.setCopied_red (s : State) (d c : Nat) : (s.setCopied d c).red = s.red := by unfold State.setCopied; rfl
@[simp] theorem State.setCopied_hbms (s : State) (d c : Nat) : (s.setCopied d c).hbms = s.hbms := by unfold State.setCopied; rfl
@[simp] theorem State.setCopied_lanes (s : State) (d c : Nat) : (s.setCopied d c).lanes = s.lanes := by unfold State.setCopied; rfl
@[simp] theorem State.setCopied_crcs (s : State) (d c : Nat) : (s.setCopied d c).crcs = s.crcs := by unfold State.setCopied; rfl
@[simp] theorem State.wdtLoad_variant (s : State) (d : Nat) : (s.wdtLoad d).variant = s.variant := by unfold State.wdtLoad; rfl
@[simp] theorem State.wdtLoad_pending (s : State) (d : Nat) : (s.wdtLoad d).pending = s.pending := by unfold State.wdtLoad; rfl
@[simp] theorem State.wdtLoad_cycle (s : State) (d : Nat) : (s.wdtLoad d).cycle = s.cycle := by unfold State.wdtLoad; rfl
@[simp] theorem State.wdtLoad_freeCtr (s : State) (d : Nat) : (s.wdtLoad d).freeCtr = s.freeCtr := by unfold State.wdtLoad; rfl
@[simp] theorem State.wdtLoad_rdata (s : State) (d : Nat) : (s.wdtLoad d).rdata = s.rdata := by unfold State.wdtLoad; rfl
@[simp] theorem State.wdtLoad_sent (s : State) (d : Nat) : (s.wdtLoad d).sent = s.sent := by unfold State.wdtLoad; rfl
@[simp] theorem State.wdtLoad_regs (s : State) (d : Nat) : (s.wdtLoad d).regs = s.regs := by unfold State.wdtLoad; rfl
@[simp] theorem State.wdtLoad_lt (s : State) (d : Nat) : (s.wdtLoad d).lt = s.lt := by unfold State.wdtLoad; rfl
@[simp] theorem State.wdtLoad_refs (s : State) (d : Nat) : (s.wdtLoad d).refs = s.refs := by unfold State.wdtLoad; rfl
@[simp] theorem State.wdtLoad_ptp (s : State) (d : Nat) : (s.wdtLoad d).ptp = s.ptp := by unfold State.wdtLoad; rfl
@[simp] theorem State.wdtLoad_host (s : State) (d : Nat) : (s.wdtLoad d).host = s.host := by unfold State.wdtLoad; rfl
@[simp] theorem State.wdtLoad_sch (s : State) (d : Nat) : (s.wdtLoad d).sch = s.sch := by unfold State.wdtLoad; rfl
@[simp] theorem State.wdtLoad_xlt (s : State) (d : Nat) : (s.wdtLoad d).xlt = s.xlt := by unfold State.wdtLoad; rfl
@[simp] theorem State.wdtLoad_stg (s : State) (d : Nat) : (s.wdtLoad d).stg = s.stg := by unfold State.wdtLoad; rfl
@[simp] theorem State.wdtLoad_recorder (s : State) (d : Nat) : (s.wdtLoad d).recorder = s.recorder := by unfold State.wdtLoad; rfl
@[simp] theorem State.wdtLoad_hbm (s : State) (d : Nat) : (s.wdtLoad d).hbm = s.hbm := by unfold State.wdtLoad; rfl
@[simp] theorem State.wdtLoad_whl (s : State) (d : Nat) : (s.wdtLoad d).whl = s.whl := by unfold State.wdtLoad; rfl
@[simp] theorem State.wdtLoad_aud (s : State) (d : Nat) : (s.wdtLoad d).aud = s.aud := by unfold State.wdtLoad; rfl
@[simp] theorem State.wdtLoad_ing (s : State) (d : Nat) : (s.wdtLoad d).ing = s.ing := by unfold State.wdtLoad; rfl
@[simp] theorem State.wdtLoad_cmp (s : State) (d : Nat) : (s.wdtLoad d).cmp = s.cmp := by unfold State.wdtLoad; rfl
@[simp] theorem State.wdtLoad_pool (s : State) (d : Nat) : (s.wdtLoad d).pool = s.pool := by unfold State.wdtLoad; rfl
@[simp] theorem State.wdtLoad_dec (s : State) (d : Nat) : (s.wdtLoad d).dec = s.dec := by unfold State.wdtLoad; rfl
@[simp] theorem State.wdtLoad_enc (s : State) (d : Nat) : (s.wdtLoad d).enc = s.enc := by unfold State.wdtLoad; rfl
@[simp] theorem State.wdtLoad_red (s : State) (d : Nat) : (s.wdtLoad d).red = s.red := by unfold State.wdtLoad; rfl
@[simp] theorem State.wdtLoad_hbms (s : State) (d : Nat) : (s.wdtLoad d).hbms = s.hbms := by unfold State.wdtLoad; rfl
@[simp] theorem State.wdtLoad_lanes (s : State) (d : Nat) : (s.wdtLoad d).lanes = s.lanes := by unfold State.wdtLoad; rfl
@[simp] theorem State.wdtLoad_crcs (s : State) (d : Nat) : (s.wdtLoad d).crcs = s.crcs := by unfold State.wdtLoad; rfl
@[simp] theorem State.setClaim_variant (s : State) (a : Nat) (x : Option (Nat × Word)) : (s.setClaim a x).variant = s.variant := by unfold State.setClaim; rfl
@[simp] theorem State.setClaim_pending (s : State) (a : Nat) (x : Option (Nat × Word)) : (s.setClaim a x).pending = s.pending := by unfold State.setClaim; rfl
@[simp] theorem State.setClaim_cycle (s : State) (a : Nat) (x : Option (Nat × Word)) : (s.setClaim a x).cycle = s.cycle := by unfold State.setClaim; rfl
@[simp] theorem State.setClaim_freeCtr (s : State) (a : Nat) (x : Option (Nat × Word)) : (s.setClaim a x).freeCtr = s.freeCtr := by unfold State.setClaim; rfl
@[simp] theorem State.setClaim_rdata (s : State) (a : Nat) (x : Option (Nat × Word)) : (s.setClaim a x).rdata = s.rdata := by unfold State.setClaim; rfl
@[simp] theorem State.setClaim_sent (s : State) (a : Nat) (x : Option (Nat × Word)) : (s.setClaim a x).sent = s.sent := by unfold State.setClaim; rfl
@[simp] theorem State.setClaim_regs (s : State) (a : Nat) (x : Option (Nat × Word)) : (s.setClaim a x).regs = s.regs := by unfold State.setClaim; rfl
@[simp] theorem State.setClaim_lt (s : State) (a : Nat) (x : Option (Nat × Word)) : (s.setClaim a x).lt = s.lt := by unfold State.setClaim; rfl
@[simp] theorem State.setClaim_refs (s : State) (a : Nat) (x : Option (Nat × Word)) : (s.setClaim a x).refs = s.refs := by unfold State.setClaim; rfl
@[simp] theorem State.setClaim_ptp (s : State) (a : Nat) (x : Option (Nat × Word)) : (s.setClaim a x).ptp = s.ptp := by unfold State.setClaim; rfl
@[simp] theorem State.setClaim_host (s : State) (a : Nat) (x : Option (Nat × Word)) : (s.setClaim a x).host = s.host := by unfold State.setClaim; rfl
@[simp] theorem State.setClaim_sch (s : State) (a : Nat) (x : Option (Nat × Word)) : (s.setClaim a x).sch = s.sch := by unfold State.setClaim; rfl
@[simp] theorem State.setClaim_xlt (s : State) (a : Nat) (x : Option (Nat × Word)) : (s.setClaim a x).xlt = s.xlt := by unfold State.setClaim; rfl
@[simp] theorem State.setClaim_recorder (s : State) (a : Nat) (x : Option (Nat × Word)) : (s.setClaim a x).recorder = s.recorder := by unfold State.setClaim; rfl
@[simp] theorem State.setClaim_rst (s : State) (a : Nat) (x : Option (Nat × Word)) : (s.setClaim a x).rst = s.rst := by unfold State.setClaim; rfl
@[simp] theorem State.setClaim_hbm (s : State) (a : Nat) (x : Option (Nat × Word)) : (s.setClaim a x).hbm = s.hbm := by unfold State.setClaim; rfl
@[simp] theorem State.setClaim_whl (s : State) (a : Nat) (x : Option (Nat × Word)) : (s.setClaim a x).whl = s.whl := by unfold State.setClaim; rfl
@[simp] theorem State.setClaim_aud (s : State) (a : Nat) (x : Option (Nat × Word)) : (s.setClaim a x).aud = s.aud := by unfold State.setClaim; rfl
@[simp] theorem State.setClaim_ing (s : State) (a : Nat) (x : Option (Nat × Word)) : (s.setClaim a x).ing = s.ing := by unfold State.setClaim; rfl
@[simp] theorem State.setClaim_cmp (s : State) (a : Nat) (x : Option (Nat × Word)) : (s.setClaim a x).cmp = s.cmp := by unfold State.setClaim; rfl
@[simp] theorem State.setClaim_pool (s : State) (a : Nat) (x : Option (Nat × Word)) : (s.setClaim a x).pool = s.pool := by unfold State.setClaim; rfl
@[simp] theorem State.setClaim_dec (s : State) (a : Nat) (x : Option (Nat × Word)) : (s.setClaim a x).dec = s.dec := by unfold State.setClaim; rfl
@[simp] theorem State.setClaim_enc (s : State) (a : Nat) (x : Option (Nat × Word)) : (s.setClaim a x).enc = s.enc := by unfold State.setClaim; rfl
@[simp] theorem State.setClaim_red (s : State) (a : Nat) (x : Option (Nat × Word)) : (s.setClaim a x).red = s.red := by unfold State.setClaim; rfl
@[simp] theorem State.setClaim_hbms (s : State) (a : Nat) (x : Option (Nat × Word)) : (s.setClaim a x).hbms = s.hbms := by unfold State.setClaim; rfl
@[simp] theorem State.setClaim_lanes (s : State) (a : Nat) (x : Option (Nat × Word)) : (s.setClaim a x).lanes = s.lanes := by unfold State.setClaim; rfl
@[simp] theorem State.setClaim_crcs (s : State) (a : Nat) (x : Option (Nat × Word)) : (s.setClaim a x).crcs = s.crcs := by unfold State.setClaim; rfl
@[simp] theorem State.setWsel_variant (s : State) (q : Req) (v : Word) : (s.setWsel q v).variant = s.variant := by unfold State.setWsel; rfl
@[simp] theorem State.setWsel_pending (s : State) (q : Req) (v : Word) : (s.setWsel q v).pending = s.pending := by unfold State.setWsel; rfl
@[simp] theorem State.setWsel_cycle (s : State) (q : Req) (v : Word) : (s.setWsel q v).cycle = s.cycle := by unfold State.setWsel; rfl
@[simp] theorem State.setWsel_freeCtr (s : State) (q : Req) (v : Word) : (s.setWsel q v).freeCtr = s.freeCtr := by unfold State.setWsel; rfl
@[simp] theorem State.setWsel_rdata (s : State) (q : Req) (v : Word) : (s.setWsel q v).rdata = s.rdata := by unfold State.setWsel; rfl
@[simp] theorem State.setWsel_sent (s : State) (q : Req) (v : Word) : (s.setWsel q v).sent = s.sent := by unfold State.setWsel; rfl
@[simp] theorem State.setWsel_regs (s : State) (q : Req) (v : Word) : (s.setWsel q v).regs = s.regs := by unfold State.setWsel; rfl
@[simp] theorem State.setWsel_lt (s : State) (q : Req) (v : Word) : (s.setWsel q v).lt = s.lt := by unfold State.setWsel; rfl
@[simp] theorem State.setWsel_refs (s : State) (q : Req) (v : Word) : (s.setWsel q v).refs = s.refs := by unfold State.setWsel; rfl
@[simp] theorem State.setWsel_ptp (s : State) (q : Req) (v : Word) : (s.setWsel q v).ptp = s.ptp := by unfold State.setWsel; rfl
@[simp] theorem State.setWsel_host (s : State) (q : Req) (v : Word) : (s.setWsel q v).host = s.host := by unfold State.setWsel; rfl
@[simp] theorem State.setWsel_sch (s : State) (q : Req) (v : Word) : (s.setWsel q v).sch = s.sch := by unfold State.setWsel; rfl
@[simp] theorem State.setWsel_xlt (s : State) (q : Req) (v : Word) : (s.setWsel q v).xlt = s.xlt := by unfold State.setWsel; rfl
@[simp] theorem State.setWsel_recorder (s : State) (q : Req) (v : Word) : (s.setWsel q v).recorder = s.recorder := by unfold State.setWsel; rfl
@[simp] theorem State.setWsel_rst (s : State) (q : Req) (v : Word) : (s.setWsel q v).rst = s.rst := by unfold State.setWsel; rfl
@[simp] theorem State.setWsel_hbm (s : State) (q : Req) (v : Word) : (s.setWsel q v).hbm = s.hbm := by unfold State.setWsel; rfl
@[simp] theorem State.setWsel_whl (s : State) (q : Req) (v : Word) : (s.setWsel q v).whl = s.whl := by unfold State.setWsel; rfl
@[simp] theorem State.setWsel_aud (s : State) (q : Req) (v : Word) : (s.setWsel q v).aud = s.aud := by unfold State.setWsel; rfl
@[simp] theorem State.setWsel_ing (s : State) (q : Req) (v : Word) : (s.setWsel q v).ing = s.ing := by unfold State.setWsel; rfl
@[simp] theorem State.setWsel_cmp (s : State) (q : Req) (v : Word) : (s.setWsel q v).cmp = s.cmp := by unfold State.setWsel; rfl
@[simp] theorem State.setWsel_pool (s : State) (q : Req) (v : Word) : (s.setWsel q v).pool = s.pool := by unfold State.setWsel; rfl
@[simp] theorem State.setWsel_dec (s : State) (q : Req) (v : Word) : (s.setWsel q v).dec = s.dec := by unfold State.setWsel; rfl
@[simp] theorem State.setWsel_enc (s : State) (q : Req) (v : Word) : (s.setWsel q v).enc = s.enc := by unfold State.setWsel; rfl
@[simp] theorem State.setWsel_red (s : State) (q : Req) (v : Word) : (s.setWsel q v).red = s.red := by unfold State.setWsel; rfl
@[simp] theorem State.setWsel_hbms (s : State) (q : Req) (v : Word) : (s.setWsel q v).hbms = s.hbms := by unfold State.setWsel; rfl
@[simp] theorem State.setWsel_lanes (s : State) (q : Req) (v : Word) : (s.setWsel q v).lanes = s.lanes := by unfold State.setWsel; rfl
@[simp] theorem State.setWsel_crcs (s : State) (q : Req) (v : Word) : (s.setWsel q v).crcs = s.crcs := by unfold State.setWsel; rfl
@[simp] theorem State.wr_variant (s : State) (f : Fld) (v : Nat) : (s.wr f v).variant = s.variant := by unfold State.wr; exact State.setReg_variant _ _ _
@[simp] theorem State.wr_pending (s : State) (f : Fld) (v : Nat) : (s.wr f v).pending = s.pending := by unfold State.wr; exact State.setReg_pending _ _ _
@[simp] theorem State.wr_cycle (s : State) (f : Fld) (v : Nat) : (s.wr f v).cycle = s.cycle := by unfold State.wr; exact State.setReg_cycle _ _ _
@[simp] theorem State.wr_freeCtr (s : State) (f : Fld) (v : Nat) : (s.wr f v).freeCtr = s.freeCtr := by unfold State.wr; exact State.setReg_freeCtr _ _ _
@[simp] theorem State.wr_rdata (s : State) (f : Fld) (v : Nat) : (s.wr f v).rdata = s.rdata := by unfold State.wr; exact State.setReg_rdata _ _ _
@[simp] theorem State.wr_sent (s : State) (f : Fld) (v : Nat) : (s.wr f v).sent = s.sent := by unfold State.wr; exact State.setReg_sent _ _ _
@[simp] theorem State.wr_lt (s : State) (f : Fld) (v : Nat) : (s.wr f v).lt = s.lt := by unfold State.wr; exact State.setReg_lt _ _ _
@[simp] theorem State.wr_refs (s : State) (f : Fld) (v : Nat) : (s.wr f v).refs = s.refs := by unfold State.wr; exact State.setReg_refs _ _ _
@[simp] theorem State.wr_ptp (s : State) (f : Fld) (v : Nat) : (s.wr f v).ptp = s.ptp := by unfold State.wr; exact State.setReg_ptp _ _ _
@[simp] theorem State.wr_host (s : State) (f : Fld) (v : Nat) : (s.wr f v).host = s.host := by unfold State.wr; exact State.setReg_host _ _ _
@[simp] theorem State.wr_sch (s : State) (f : Fld) (v : Nat) : (s.wr f v).sch = s.sch := by unfold State.wr; exact State.setReg_sch _ _ _
@[simp] theorem State.wr_xlt (s : State) (f : Fld) (v : Nat) : (s.wr f v).xlt = s.xlt := by unfold State.wr; exact State.setReg_xlt _ _ _
@[simp] theorem State.wr_stg (s : State) (f : Fld) (v : Nat) : (s.wr f v).stg = s.stg := by unfold State.wr; exact State.setReg_stg _ _ _
@[simp] theorem State.wr_recorder (s : State) (f : Fld) (v : Nat) : (s.wr f v).recorder = s.recorder := by unfold State.wr; exact State.setReg_recorder _ _ _
@[simp] theorem State.wr_rst (s : State) (f : Fld) (v : Nat) : (s.wr f v).rst = s.rst := by unfold State.wr; exact State.setReg_rst _ _ _
@[simp] theorem State.wr_hbm (s : State) (f : Fld) (v : Nat) : (s.wr f v).hbm = s.hbm := by unfold State.wr; exact State.setReg_hbm _ _ _
@[simp] theorem State.wr_whl (s : State) (f : Fld) (v : Nat) : (s.wr f v).whl = s.whl := by unfold State.wr; exact State.setReg_whl _ _ _
@[simp] theorem State.wr_aud (s : State) (f : Fld) (v : Nat) : (s.wr f v).aud = s.aud := by unfold State.wr; exact State.setReg_aud _ _ _
@[simp] theorem State.wr_ing (s : State) (f : Fld) (v : Nat) : (s.wr f v).ing = s.ing := by unfold State.wr; exact State.setReg_ing _ _ _
@[simp] theorem State.wr_cmp (s : State) (f : Fld) (v : Nat) : (s.wr f v).cmp = s.cmp := by unfold State.wr; exact State.setReg_cmp _ _ _
@[simp] theorem State.wr_pool (s : State) (f : Fld) (v : Nat) : (s.wr f v).pool = s.pool := by unfold State.wr; exact State.setReg_pool _ _ _
@[simp] theorem State.wr_dec (s : State) (f : Fld) (v : Nat) : (s.wr f v).dec = s.dec := by unfold State.wr; exact State.setReg_dec _ _ _
@[simp] theorem State.wr_enc (s : State) (f : Fld) (v : Nat) : (s.wr f v).enc = s.enc := by unfold State.wr; exact State.setReg_enc _ _ _
@[simp] theorem State.wr_red (s : State) (f : Fld) (v : Nat) : (s.wr f v).red = s.red := by unfold State.wr; exact State.setReg_red _ _ _
@[simp] theorem State.wr_hbms (s : State) (f : Fld) (v : Nat) : (s.wr f v).hbms = s.hbms := by unfold State.wr; exact State.setReg_hbms _ _ _
@[simp] theorem State.wr_lanes (s : State) (f : Fld) (v : Nat) : (s.wr f v).lanes = s.lanes := by unfold State.wr; exact State.setReg_lanes _ _ _
@[simp] theorem State.wr_crcs (s : State) (f : Fld) (v : Nat) : (s.wr f v).crcs = s.crcs := by unfold State.wr; exact State.setReg_crcs _ _ _
@[simp] theorem State.wrS_variant (s : State) (f : Fld) (i : Int) : (s.wrS f i).variant = s.variant := by unfold State.wrS; exact State.wr_variant _ _ _
@[simp] theorem State.wrS_pending (s : State) (f : Fld) (i : Int) : (s.wrS f i).pending = s.pending := by unfold State.wrS; exact State.wr_pending _ _ _
@[simp] theorem State.wrS_cycle (s : State) (f : Fld) (i : Int) : (s.wrS f i).cycle = s.cycle := by unfold State.wrS; exact State.wr_cycle _ _ _
@[simp] theorem State.wrS_freeCtr (s : State) (f : Fld) (i : Int) : (s.wrS f i).freeCtr = s.freeCtr := by unfold State.wrS; exact State.wr_freeCtr _ _ _
@[simp] theorem State.wrS_rdata (s : State) (f : Fld) (i : Int) : (s.wrS f i).rdata = s.rdata := by unfold State.wrS; exact State.wr_rdata _ _ _
@[simp] theorem State.wrS_sent (s : State) (f : Fld) (i : Int) : (s.wrS f i).sent = s.sent := by unfold State.wrS; exact State.wr_sent _ _ _
@[simp] theorem State.wrS_lt (s : State) (f : Fld) (i : Int) : (s.wrS f i).lt = s.lt := by unfold State.wrS; exact State.wr_lt _ _ _
@[simp] theorem State.wrS_refs (s : State) (f : Fld) (i : Int) : (s.wrS f i).refs = s.refs := by unfold State.wrS; exact State.wr_refs _ _ _
@[simp] theorem State.wrS_ptp (s : State) (f : Fld) (i : Int) : (s.wrS f i).ptp = s.ptp := by unfold State.wrS; exact State.wr_ptp _ _ _
@[simp] theorem State.wrS_host (s : State) (f : Fld) (i : Int) : (s.wrS f i).host = s.host := by unfold State.wrS; exact State.wr_host _ _ _
@[simp] theorem State.wrS_sch (s : State) (f : Fld) (i : Int) : (s.wrS f i).sch = s.sch := by unfold State.wrS; exact State.wr_sch _ _ _
@[simp] theorem State.wrS_xlt (s : State) (f : Fld) (i : Int) : (s.wrS f i).xlt = s.xlt := by unfold State.wrS; exact State.wr_xlt _ _ _
@[simp] theorem State.wrS_stg (s : State) (f : Fld) (i : Int) : (s.wrS f i).stg = s.stg := by unfold State.wrS; exact State.wr_stg _ _ _
@[simp] theorem State.wrS_recorder (s : State) (f : Fld) (i : Int) : (s.wrS f i).recorder = s.recorder := by unfold State.wrS; exact State.wr_recorder _ _ _
@[simp] theorem State.wrS_rst (s : State) (f : Fld) (i : Int) : (s.wrS f i).rst = s.rst := by unfold State.wrS; exact State.wr_rst _ _ _
@[simp] theorem State.wrS_hbm (s : State) (f : Fld) (i : Int) : (s.wrS f i).hbm = s.hbm := by unfold State.wrS; exact State.wr_hbm _ _ _
@[simp] theorem State.wrS_whl (s : State) (f : Fld) (i : Int) : (s.wrS f i).whl = s.whl := by unfold State.wrS; exact State.wr_whl _ _ _
@[simp] theorem State.wrS_aud (s : State) (f : Fld) (i : Int) : (s.wrS f i).aud = s.aud := by unfold State.wrS; exact State.wr_aud _ _ _
@[simp] theorem State.wrS_ing (s : State) (f : Fld) (i : Int) : (s.wrS f i).ing = s.ing := by unfold State.wrS; exact State.wr_ing _ _ _
@[simp] theorem State.wrS_cmp (s : State) (f : Fld) (i : Int) : (s.wrS f i).cmp = s.cmp := by unfold State.wrS; exact State.wr_cmp _ _ _
@[simp] theorem State.wrS_pool (s : State) (f : Fld) (i : Int) : (s.wrS f i).pool = s.pool := by unfold State.wrS; exact State.wr_pool _ _ _
@[simp] theorem State.wrS_dec (s : State) (f : Fld) (i : Int) : (s.wrS f i).dec = s.dec := by unfold State.wrS; exact State.wr_dec _ _ _
@[simp] theorem State.wrS_enc (s : State) (f : Fld) (i : Int) : (s.wrS f i).enc = s.enc := by unfold State.wrS; exact State.wr_enc _ _ _
@[simp] theorem State.wrS_red (s : State) (f : Fld) (i : Int) : (s.wrS f i).red = s.red := by unfold State.wrS; exact State.wr_red _ _ _
@[simp] theorem State.wrS_hbms (s : State) (f : Fld) (i : Int) : (s.wrS f i).hbms = s.hbms := by unfold State.wrS; exact State.wr_hbms _ _ _
@[simp] theorem State.wrS_lanes (s : State) (f : Fld) (i : Int) : (s.wrS f i).lanes = s.lanes := by unfold State.wrS; exact State.wr_lanes _ _ _
@[simp] theorem State.wrS_crcs (s : State) (f : Fld) (i : Int) : (s.wrS f i).crcs = s.crcs := by unfold State.wrS; exact State.wr_crcs _ _ _
@[simp] theorem State.add_variant (s : State) (f : Fld) (n : Nat) : (s.add f n).variant = s.variant := by unfold State.add; exact State.wr_variant _ _ _
@[simp] theorem State.add_pending (s : State) (f : Fld) (n : Nat) : (s.add f n).pending = s.pending := by unfold State.add; exact State.wr_pending _ _ _
@[simp] theorem State.add_cycle (s : State) (f : Fld) (n : Nat) : (s.add f n).cycle = s.cycle := by unfold State.add; exact State.wr_cycle _ _ _
@[simp] theorem State.add_freeCtr (s : State) (f : Fld) (n : Nat) : (s.add f n).freeCtr = s.freeCtr := by unfold State.add; exact State.wr_freeCtr _ _ _
@[simp] theorem State.add_rdata (s : State) (f : Fld) (n : Nat) : (s.add f n).rdata = s.rdata := by unfold State.add; exact State.wr_rdata _ _ _
@[simp] theorem State.add_sent (s : State) (f : Fld) (n : Nat) : (s.add f n).sent = s.sent := by unfold State.add; exact State.wr_sent _ _ _
@[simp] theorem State.add_lt (s : State) (f : Fld) (n : Nat) : (s.add f n).lt = s.lt := by unfold State.add; exact State.wr_lt _ _ _
@[simp] theorem State.add_refs (s : State) (f : Fld) (n : Nat) : (s.add f n).refs = s.refs := by unfold State.add; exact State.wr_refs _ _ _
@[simp] theorem State.add_ptp (s : State) (f : Fld) (n : Nat) : (s.add f n).ptp = s.ptp := by unfold State.add; exact State.wr_ptp _ _ _
@[simp] theorem State.add_host (s : State) (f : Fld) (n : Nat) : (s.add f n).host = s.host := by unfold State.add; exact State.wr_host _ _ _
@[simp] theorem State.add_sch (s : State) (f : Fld) (n : Nat) : (s.add f n).sch = s.sch := by unfold State.add; exact State.wr_sch _ _ _
@[simp] theorem State.add_xlt (s : State) (f : Fld) (n : Nat) : (s.add f n).xlt = s.xlt := by unfold State.add; exact State.wr_xlt _ _ _
@[simp] theorem State.add_stg (s : State) (f : Fld) (n : Nat) : (s.add f n).stg = s.stg := by unfold State.add; exact State.wr_stg _ _ _
@[simp] theorem State.add_recorder (s : State) (f : Fld) (n : Nat) : (s.add f n).recorder = s.recorder := by unfold State.add; exact State.wr_recorder _ _ _
@[simp] theorem State.add_rst (s : State) (f : Fld) (n : Nat) : (s.add f n).rst = s.rst := by unfold State.add; exact State.wr_rst _ _ _
@[simp] theorem State.add_hbm (s : State) (f : Fld) (n : Nat) : (s.add f n).hbm = s.hbm := by unfold State.add; exact State.wr_hbm _ _ _
@[simp] theorem State.add_whl (s : State) (f : Fld) (n : Nat) : (s.add f n).whl = s.whl := by unfold State.add; exact State.wr_whl _ _ _
@[simp] theorem State.add_aud (s : State) (f : Fld) (n : Nat) : (s.add f n).aud = s.aud := by unfold State.add; exact State.wr_aud _ _ _
@[simp] theorem State.add_ing (s : State) (f : Fld) (n : Nat) : (s.add f n).ing = s.ing := by unfold State.add; exact State.wr_ing _ _ _
@[simp] theorem State.add_cmp (s : State) (f : Fld) (n : Nat) : (s.add f n).cmp = s.cmp := by unfold State.add; exact State.wr_cmp _ _ _
@[simp] theorem State.add_pool (s : State) (f : Fld) (n : Nat) : (s.add f n).pool = s.pool := by unfold State.add; exact State.wr_pool _ _ _
@[simp] theorem State.add_dec (s : State) (f : Fld) (n : Nat) : (s.add f n).dec = s.dec := by unfold State.add; exact State.wr_dec _ _ _
@[simp] theorem State.add_enc (s : State) (f : Fld) (n : Nat) : (s.add f n).enc = s.enc := by unfold State.add; exact State.wr_enc _ _ _
@[simp] theorem State.add_red (s : State) (f : Fld) (n : Nat) : (s.add f n).red = s.red := by unfold State.add; exact State.wr_red _ _ _
@[simp] theorem State.add_hbms (s : State) (f : Fld) (n : Nat) : (s.add f n).hbms = s.hbms := by unfold State.add; exact State.wr_hbms _ _ _
@[simp] theorem State.add_lanes (s : State) (f : Fld) (n : Nat) : (s.add f n).lanes = s.lanes := by unfold State.add; exact State.wr_lanes _ _ _
@[simp] theorem State.add_crcs (s : State) (f : Fld) (n : Nat) : (s.add f n).crcs = s.crcs := by unfold State.add; exact State.wr_crcs _ _ _
@[simp] theorem State.inc_variant (s : State) (f : Fld) : (s.inc f).variant = s.variant := by unfold State.inc; exact State.add_variant _ _ _
@[simp] theorem State.inc_pending (s : State) (f : Fld) : (s.inc f).pending = s.pending := by unfold State.inc; exact State.add_pending _ _ _
@[simp] theorem State.inc_cycle (s : State) (f : Fld) : (s.inc f).cycle = s.cycle := by unfold State.inc; exact State.add_cycle _ _ _
@[simp] theorem State.inc_freeCtr (s : State) (f : Fld) : (s.inc f).freeCtr = s.freeCtr := by unfold State.inc; exact State.add_freeCtr _ _ _
@[simp] theorem State.inc_rdata (s : State) (f : Fld) : (s.inc f).rdata = s.rdata := by unfold State.inc; exact State.add_rdata _ _ _
@[simp] theorem State.inc_sent (s : State) (f : Fld) : (s.inc f).sent = s.sent := by unfold State.inc; exact State.add_sent _ _ _
@[simp] theorem State.inc_lt (s : State) (f : Fld) : (s.inc f).lt = s.lt := by unfold State.inc; exact State.add_lt _ _ _
@[simp] theorem State.inc_refs (s : State) (f : Fld) : (s.inc f).refs = s.refs := by unfold State.inc; exact State.add_refs _ _ _
@[simp] theorem State.inc_ptp (s : State) (f : Fld) : (s.inc f).ptp = s.ptp := by unfold State.inc; exact State.add_ptp _ _ _
@[simp] theorem State.inc_host (s : State) (f : Fld) : (s.inc f).host = s.host := by unfold State.inc; exact State.add_host _ _ _
@[simp] theorem State.inc_sch (s : State) (f : Fld) : (s.inc f).sch = s.sch := by unfold State.inc; exact State.add_sch _ _ _
@[simp] theorem State.inc_xlt (s : State) (f : Fld) : (s.inc f).xlt = s.xlt := by unfold State.inc; exact State.add_xlt _ _ _
@[simp] theorem State.inc_stg (s : State) (f : Fld) : (s.inc f).stg = s.stg := by unfold State.inc; exact State.add_stg _ _ _
@[simp] theorem State.inc_recorder (s : State) (f : Fld) : (s.inc f).recorder = s.recorder := by unfold State.inc; exact State.add_recorder _ _ _
@[simp] theorem State.inc_rst (s : State) (f : Fld) : (s.inc f).rst = s.rst := by unfold State.inc; exact State.add_rst _ _ _
@[simp] theorem State.inc_hbm (s : State) (f : Fld) : (s.inc f).hbm = s.hbm := by unfold State.inc; exact State.add_hbm _ _ _
@[simp] theorem State.inc_whl (s : State) (f : Fld) : (s.inc f).whl = s.whl := by unfold State.inc; exact State.add_whl _ _ _
@[simp] theorem State.inc_aud (s : State) (f : Fld) : (s.inc f).aud = s.aud := by unfold State.inc; exact State.add_aud _ _ _
@[simp] theorem State.inc_ing (s : State) (f : Fld) : (s.inc f).ing = s.ing := by unfold State.inc; exact State.add_ing _ _ _
@[simp] theorem State.inc_cmp (s : State) (f : Fld) : (s.inc f).cmp = s.cmp := by unfold State.inc; exact State.add_cmp _ _ _
@[simp] theorem State.inc_pool (s : State) (f : Fld) : (s.inc f).pool = s.pool := by unfold State.inc; exact State.add_pool _ _ _
@[simp] theorem State.inc_dec (s : State) (f : Fld) : (s.inc f).dec = s.dec := by unfold State.inc; exact State.add_dec _ _ _
@[simp] theorem State.inc_enc (s : State) (f : Fld) : (s.inc f).enc = s.enc := by unfold State.inc; exact State.add_enc _ _ _
@[simp] theorem State.inc_red (s : State) (f : Fld) : (s.inc f).red = s.red := by unfold State.inc; exact State.add_red _ _ _
@[simp] theorem State.inc_hbms (s : State) (f : Fld) : (s.inc f).hbms = s.hbms := by unfold State.inc; exact State.add_hbms _ _ _
@[simp] theorem State.inc_lanes (s : State) (f : Fld) : (s.inc f).lanes = s.lanes := by unfold State.inc; exact State.add_lanes _ _ _
@[simp] theorem State.inc_crcs (s : State) (f : Fld) : (s.inc f).crcs = s.crcs := by unfold State.inc; exact State.add_crcs _ _ _
@[simp] theorem State.incWrap_variant (s : State) (f : Fld) : (s.incWrap f).variant = s.variant := by unfold State.incWrap; exact State.wr_variant _ _ _
@[simp] theorem State.incWrap_pending (s : State) (f : Fld) : (s.incWrap f).pending = s.pending := by unfold State.incWrap; exact State.wr_pending _ _ _
@[simp] theorem State.incWrap_cycle (s : State) (f : Fld) : (s.incWrap f).cycle = s.cycle := by unfold State.incWrap; exact State.wr_cycle _ _ _
@[simp] theorem State.incWrap_freeCtr (s : State) (f : Fld) : (s.incWrap f).freeCtr = s.freeCtr := by unfold State.incWrap; exact State.wr_freeCtr _ _ _
@[simp] theorem State.incWrap_rdata (s : State) (f : Fld) : (s.incWrap f).rdata = s.rdata := by unfold State.incWrap; exact State.wr_rdata _ _ _
@[simp] theorem State.incWrap_sent (s : State) (f : Fld) : (s.incWrap f).sent = s.sent := by unfold State.incWrap; exact State.wr_sent _ _ _
@[simp] theorem State.incWrap_lt (s : State) (f : Fld) : (s.incWrap f).lt = s.lt := by unfold State.incWrap; exact State.wr_lt _ _ _
@[simp] theorem State.incWrap_refs (s : State) (f : Fld) : (s.incWrap f).refs = s.refs := by unfold State.incWrap; exact State.wr_refs _ _ _
@[simp] theorem State.incWrap_ptp (s : State) (f : Fld) : (s.incWrap f).ptp = s.ptp := by unfold State.incWrap; exact State.wr_ptp _ _ _
@[simp] theorem State.incWrap_host (s : State) (f : Fld) : (s.incWrap f).host = s.host := by unfold State.incWrap; exact State.wr_host _ _ _
@[simp] theorem State.incWrap_sch (s : State) (f : Fld) : (s.incWrap f).sch = s.sch := by unfold State.incWrap; exact State.wr_sch _ _ _
@[simp] theorem State.incWrap_xlt (s : State) (f : Fld) : (s.incWrap f).xlt = s.xlt := by unfold State.incWrap; exact State.wr_xlt _ _ _
@[simp] theorem State.incWrap_stg (s : State) (f : Fld) : (s.incWrap f).stg = s.stg := by unfold State.incWrap; exact State.wr_stg _ _ _
@[simp] theorem State.incWrap_recorder (s : State) (f : Fld) : (s.incWrap f).recorder = s.recorder := by unfold State.incWrap; exact State.wr_recorder _ _ _
@[simp] theorem State.incWrap_rst (s : State) (f : Fld) : (s.incWrap f).rst = s.rst := by unfold State.incWrap; exact State.wr_rst _ _ _
@[simp] theorem State.incWrap_hbm (s : State) (f : Fld) : (s.incWrap f).hbm = s.hbm := by unfold State.incWrap; exact State.wr_hbm _ _ _
@[simp] theorem State.incWrap_whl (s : State) (f : Fld) : (s.incWrap f).whl = s.whl := by unfold State.incWrap; exact State.wr_whl _ _ _
@[simp] theorem State.incWrap_aud (s : State) (f : Fld) : (s.incWrap f).aud = s.aud := by unfold State.incWrap; exact State.wr_aud _ _ _
@[simp] theorem State.incWrap_ing (s : State) (f : Fld) : (s.incWrap f).ing = s.ing := by unfold State.incWrap; exact State.wr_ing _ _ _
@[simp] theorem State.incWrap_cmp (s : State) (f : Fld) : (s.incWrap f).cmp = s.cmp := by unfold State.incWrap; exact State.wr_cmp _ _ _
@[simp] theorem State.incWrap_pool (s : State) (f : Fld) : (s.incWrap f).pool = s.pool := by unfold State.incWrap; exact State.wr_pool _ _ _
@[simp] theorem State.incWrap_dec (s : State) (f : Fld) : (s.incWrap f).dec = s.dec := by unfold State.incWrap; exact State.wr_dec _ _ _
@[simp] theorem State.incWrap_enc (s : State) (f : Fld) : (s.incWrap f).enc = s.enc := by unfold State.incWrap; exact State.wr_enc _ _ _
@[simp] theorem State.incWrap_red (s : State) (f : Fld) : (s.incWrap f).red = s.red := by unfold State.incWrap; exact State.wr_red _ _ _
@[simp] theorem State.incWrap_hbms (s : State) (f : Fld) : (s.incWrap f).hbms = s.hbms := by unfold State.incWrap; exact State.wr_hbms _ _ _
@[simp] theorem State.incWrap_lanes (s : State) (f : Fld) : (s.incWrap f).lanes = s.lanes := by unfold State.incWrap; exact State.wr_lanes _ _ _
@[simp] theorem State.incWrap_crcs (s : State) (f : Fld) : (s.incWrap f).crcs = s.crcs := by unfold State.incWrap; exact State.wr_crcs _ _ _
@[simp] theorem State.reason_variant (s : State) (a code : Nat) : (s.reason a code).variant = s.variant := by unfold State.reason; exact State.wr_variant _ _ _
@[simp] theorem State.reason_pending (s : State) (a code : Nat) : (s.reason a code).pending = s.pending := by unfold State.reason; exact State.wr_pending _ _ _
@[simp] theorem State.reason_cycle (s : State) (a code : Nat) : (s.reason a code).cycle = s.cycle := by unfold State.reason; exact State.wr_cycle _ _ _
@[simp] theorem State.reason_freeCtr (s : State) (a code : Nat) : (s.reason a code).freeCtr = s.freeCtr := by unfold State.reason; exact State.wr_freeCtr _ _ _
@[simp] theorem State.reason_rdata (s : State) (a code : Nat) : (s.reason a code).rdata = s.rdata := by unfold State.reason; exact State.wr_rdata _ _ _
@[simp] theorem State.reason_sent (s : State) (a code : Nat) : (s.reason a code).sent = s.sent := by unfold State.reason; exact State.wr_sent _ _ _
@[simp] theorem State.reason_lt (s : State) (a code : Nat) : (s.reason a code).lt = s.lt := by unfold State.reason; exact State.wr_lt _ _ _
@[simp] theorem State.reason_refs (s : State) (a code : Nat) : (s.reason a code).refs = s.refs := by unfold State.reason; exact State.wr_refs _ _ _
@[simp] theorem State.reason_ptp (s : State) (a code : Nat) : (s.reason a code).ptp = s.ptp := by unfold State.reason; exact State.wr_ptp _ _ _
@[simp] theorem State.reason_host (s : State) (a code : Nat) : (s.reason a code).host = s.host := by unfold State.reason; exact State.wr_host _ _ _
@[simp] theorem State.reason_sch (s : State) (a code : Nat) : (s.reason a code).sch = s.sch := by unfold State.reason; exact State.wr_sch _ _ _
@[simp] theorem State.reason_xlt (s : State) (a code : Nat) : (s.reason a code).xlt = s.xlt := by unfold State.reason; exact State.wr_xlt _ _ _
@[simp] theorem State.reason_stg (s : State) (a code : Nat) : (s.reason a code).stg = s.stg := by unfold State.reason; exact State.wr_stg _ _ _
@[simp] theorem State.reason_recorder (s : State) (a code : Nat) : (s.reason a code).recorder = s.recorder := by unfold State.reason; exact State.wr_recorder _ _ _
@[simp] theorem State.reason_rst (s : State) (a code : Nat) : (s.reason a code).rst = s.rst := by unfold State.reason; exact State.wr_rst _ _ _
@[simp] theorem State.reason_hbm (s : State) (a code : Nat) : (s.reason a code).hbm = s.hbm := by unfold State.reason; exact State.wr_hbm _ _ _
@[simp] theorem State.reason_whl (s : State) (a code : Nat) : (s.reason a code).whl = s.whl := by unfold State.reason; exact State.wr_whl _ _ _
@[simp] theorem State.reason_aud (s : State) (a code : Nat) : (s.reason a code).aud = s.aud := by unfold State.reason; exact State.wr_aud _ _ _
@[simp] theorem State.reason_ing (s : State) (a code : Nat) : (s.reason a code).ing = s.ing := by unfold State.reason; exact State.wr_ing _ _ _
@[simp] theorem State.reason_cmp (s : State) (a code : Nat) : (s.reason a code).cmp = s.cmp := by unfold State.reason; exact State.wr_cmp _ _ _
@[simp] theorem State.reason_pool (s : State) (a code : Nat) : (s.reason a code).pool = s.pool := by unfold State.reason; exact State.wr_pool _ _ _
@[simp] theorem State.reason_dec (s : State) (a code : Nat) : (s.reason a code).dec = s.dec := by unfold State.reason; exact State.wr_dec _ _ _
@[simp] theorem State.reason_enc (s : State) (a code : Nat) : (s.reason a code).enc = s.enc := by unfold State.reason; exact State.wr_enc _ _ _
@[simp] theorem State.reason_red (s : State) (a code : Nat) : (s.reason a code).red = s.red := by unfold State.reason; exact State.wr_red _ _ _
@[simp] theorem State.reason_hbms (s : State) (a code : Nat) : (s.reason a code).hbms = s.hbms := by unfold State.reason; exact State.wr_hbms _ _ _
@[simp] theorem State.reason_lanes (s : State) (a code : Nat) : (s.reason a code).lanes = s.lanes := by unfold State.reason; exact State.wr_lanes _ _ _
@[simp] theorem State.reason_crcs (s : State) (a code : Nat) : (s.reason a code).crcs = s.crcs := by unfold State.reason; exact State.wr_crcs _ _ _

end Sys2Proof.Machine
end

