-- ==== Sys2Proof/Laws/Ops.lean ====
section
/-!
SUPPORT. Sys2Proof/Laws/Ops.lean: reading a register or a field after a write of one, what a record of the recorder leaves
alone, and the small operations.
-/
namespace Sys2Proof.Machine

/-! ## Words -/

theorem getBits_lt (w : Word) (lo width : Nat) : getBits w lo width < 2 ^ width := Nat.mod_lt _ (Nat.two_pow_pos _)

theorem putBits_toNat (w : Word) (lo width v : Nat) (h : lo + width ≤ 32) :
    (putBits w lo width v).toNat = w.toNat / 2 ^ (lo + width) * 2 ^ (lo + width) + v % 2 ^ width * 2 ^ lo + w.toNat % 2 ^ lo := by
  unfold putBits
  rw [BitVec.toNat_ofNat]
  apply Nat.mod_eq_of_lt
  have h1 : v % 2 ^ width < 2 ^ width := Nat.mod_lt _ (Nat.two_pow_pos _)
  have h2 : w.toNat % 2 ^ lo < 2 ^ lo := Nat.mod_lt _ (Nat.two_pow_pos _)
  have h3 : v % 2 ^ width * 2 ^ lo + w.toNat % 2 ^ lo < 2 ^ (lo + width) := by
    calc v % 2 ^ width * 2 ^ lo + w.toNat % 2 ^ lo < v % 2 ^ width * 2 ^ lo + 2 ^ lo := by omega
      _ = (v % 2 ^ width + 1) * 2 ^ lo := by rw [Nat.add_mul, Nat.one_mul]
      _ ≤ 2 ^ width * 2 ^ lo := Nat.mul_le_mul_right _ h1
      _ = 2 ^ (lo + width) := by rw [← Nat.pow_add, Nat.add_comm]
  have h4 : w.toNat / 2 ^ (lo + width) < 2 ^ (32 - (lo + width)) := by
    rw [Nat.div_lt_iff_lt_mul (Nat.two_pow_pos _), ← Nat.pow_add]
    have : 32 - (lo + width) + (lo + width) = 32 := by omega
    rw [this]; exact w.isLt
  have h5 : (w.toNat / 2 ^ (lo + width) + 1) * 2 ^ (lo + width) ≤ 2 ^ 32 := by
    calc (w.toNat / 2 ^ (lo + width) + 1) * 2 ^ (lo + width) ≤ 2 ^ (32 - (lo + width)) * 2 ^ (lo + width) := Nat.mul_le_mul_right _ h4
      _ = 2 ^ 32 := by rw [← Nat.pow_add]; congr 1; omega
  rw [Nat.add_mul, Nat.one_mul] at h5
  omega

theorem getBits_put_same (w : Word) (lo width v : Nat) (h : lo + width ≤ 32) : getBits (putBits w lo width v) lo width = v % 2 ^ width := by
  unfold getBits
  rw [putBits_toNat w lo width v h]
  have e : 2 ^ (lo + width) = 2 ^ width * 2 ^ lo := by rw [Nat.pow_add, Nat.mul_comm]
  have h2 : w.toNat % 2 ^ lo < 2 ^ lo := Nat.mod_lt _ (Nat.two_pow_pos _)
  rw [e, ← Nat.mul_assoc, ← Nat.add_mul, Nat.add_comm, Nat.add_mul_div_right _ _ (Nat.two_pow_pos _), Nat.div_eq_of_lt h2, Nat.zero_add,
    Nat.add_comm, Nat.add_mul_mod_self_right, Nat.mod_mod]

theorem getBits_put_below (w : Word) (lo width v lo' width' : Nat) (h : lo + width ≤ 32) (hd : lo' + width' ≤ lo) :
    getBits (putBits w lo width v) lo' width' = getBits w lo' width' := by
  unfold getBits
  rw [putBits_toNat w lo width v h]
  obtain ⟨k, rfl⟩ : ∃ k, lo = lo' + width' + k := ⟨lo - (lo' + width'), by omega⟩
  generalize w.toNat = n
  have e1 : 2 ^ (lo' + width' + k + width) = 2 ^ lo' * (2 ^ width' * (2 ^ k * 2 ^ width)) := by simp only [Nat.pow_add, Nat.mul_assoc]
  have e2 : 2 ^ (lo' + width' + k) = 2 ^ lo' * (2 ^ width' * 2 ^ k) := by simp only [Nat.pow_add, Nat.mul_assoc]
  have key : ∀ m x : Nat, (m * (2 ^ lo' * (2 ^ width' * x)) + n % (2 ^ lo' * (2 ^ width' * 2 ^ k))) / 2 ^ lo' % 2 ^ width' = n / 2 ^ lo' % 2 ^ width' := by
    intro m x
    have : m * (2 ^ lo' * (2 ^ width' * x)) = 2 ^ lo' * (m * (2 ^ width' * x)) := by ac_rfl
    rw [this, Nat.mul_add_div (Nat.two_pow_pos _), Nat.mod_mul_right_div_self]
    have : m * (2 ^ width' * x) = 2 ^ width' * (m * x) := by ac_rfl
    rw [this, Nat.mul_add_mod, Nat.mod_mul_right_mod]
  rw [e2]
  generalize hq : n / 2 ^ (lo' + width' + k + width) = q
  rw [e1]
  have := key (q * (2 ^ k * 2 ^ width) + v % 2 ^ width * 2 ^ k) 1
  rw [← this]
  congr 3
  simp only [Nat.mul_one, Nat.add_mul]
  congr 1
  · ac_rfl
  · ac_rfl

theorem getBits_put_above (w : Word) (lo width v lo' width' : Nat) (h : lo + width ≤ 32) (hd : lo + width ≤ lo') :
    getBits (putBits w lo width v) lo' width' = getBits w lo' width' := by
  unfold getBits
  rw [putBits_toNat w lo width v h]
  obtain ⟨k, rfl⟩ : ∃ k, lo' = lo + width + k := ⟨lo' - (lo + width), by omega⟩
  have h1 : v % 2 ^ width < 2 ^ width := Nat.mod_lt _ (Nat.two_pow_pos _)
  have h2 : w.toNat % 2 ^ lo < 2 ^ lo := Nat.mod_lt _ (Nat.two_pow_pos _)
  have h3 : v % 2 ^ width * 2 ^ lo + w.toNat % 2 ^ lo < 2 ^ (lo + width) := by
    calc v % 2 ^ width * 2 ^ lo + w.toNat % 2 ^ lo < v % 2 ^ width * 2 ^ lo + 2 ^ lo := by omega
      _ = (v % 2 ^ width + 1) * 2 ^ lo := by rw [Nat.add_mul, Nat.one_mul]
      _ ≤ 2 ^ width * 2 ^ lo := Nat.mul_le_mul_right _ h1
      _ = 2 ^ (lo + width) := by rw [← Nat.pow_add, Nat.add_comm]
  rw [Nat.pow_add 2 (lo + width) k, ← Nat.div_div_eq_div_mul, ← Nat.div_div_eq_div_mul]
  have : (w.toNat / 2 ^ (lo + width) * 2 ^ (lo + width) + v % 2 ^ width * 2 ^ lo + w.toNat % 2 ^ lo) / 2 ^ (lo + width) = w.toNat / 2 ^ (lo + width) := by
    rw [Nat.add_assoc, Nat.mul_comm, Nat.mul_add_div (Nat.two_pow_pos _), Nat.div_eq_of_lt h3, Nat.add_zero]
  rw [this]

/-! ## Registers -/

/-- A field lies within its register. -/
def Fld.ok (f : Fld) : Prop := f.lo + f.width ≤ 32

/-- Two fields share no bit. -/
def Fld.apart (f g : Fld) : Prop := f.reg ≠ g.reg ∨ f.lo + f.width ≤ g.lo ∨ g.lo + g.width ≤ f.lo

theorem State.reg_setReg (s : State) (a b : Nat) (v : Word) : (s.setReg a v).reg b = if b = a then v else s.reg b := by
  unfold State.reg State.setReg
  exact mapGet_set _ _ _ _ _

@[simp] theorem State.reg_setReg_same (s : State) (a : Nat) (v : Word) : (s.setReg a v).reg a = v := by simp [State.reg_setReg]

theorem State.reg_setReg_ne (s : State) {a b : Nat} (v : Word) (h : b ≠ a) : (s.setReg a v).reg b = s.reg b := by simp [State.reg_setReg, h]

theorem State.reg_wr_ne (s : State) (f : Fld) {a : Nat} (v : Nat) (h : a ≠ f.reg) : (s.wr f v).reg a = s.reg a := by
  unfold State.wr; exact s.reg_setReg_ne _ h

theorem State.rd_setReg_ne (s : State) {a : Nat} {g : Fld} (v : Word) (h : g.reg ≠ a) : (s.setReg a v).rd g = s.rd g := by
  unfold State.rd; rw [s.reg_setReg_ne v h]

theorem State.rd_wr_same (s : State) (f : Fld) (v : Nat) (h : f.ok) : (s.wr f v).rd f = v % 2 ^ f.width := by
  unfold State.rd State.wr
  rw [State.reg_setReg_same, getBits_put_same _ _ _ _ h]

theorem State.rd_wr_apart (s : State) {f g : Fld} (v : Nat) (h : f.ok) (hd : f.apart g) : (s.wr f v).rd g = s.rd g := by
  unfold State.rd State.wr
  by_cases e : g.reg = f.reg
  · rw [e, State.reg_setReg_same]
    rcases hd with hd | hd | hd
    · exact absurd e.symm hd
    · exact getBits_put_above _ _ _ _ _ _ h hd
    · exact getBits_put_below _ _ _ _ _ _ h hd
  · rw [s.reg_setReg_ne _ e]

theorem State.rd_lt (s : State) (f : Fld) : s.rd f < 2 ^ f.width := getBits_lt _ _ _

theorem State.rd_add_same (s : State) (f : Fld) (n : Nat) (h : f.ok) : (s.add f n).rd f = min (s.rd f + n) (2 ^ f.width - 1) := by
  unfold State.add
  rw [s.rd_wr_same f _ h]
  exact Nat.mod_eq_of_lt (by have := Nat.two_pow_pos f.width; omega)

theorem State.rd_inc_same (s : State) (f : Fld) (h : f.ok) : (s.inc f).rd f = min (s.rd f + 1) (2 ^ f.width - 1) := s.rd_add_same f 1 h

theorem State.rd_incWrap_same (s : State) (f : Fld) (h : f.ok) : (s.incWrap f).rd f = (s.rd f + 1) % 2 ^ f.width := s.rd_wr_same f _ h

theorem State.rd_inc_apart (s : State) {f g : Fld} (h : f.ok) (hd : f.apart g) : (s.inc f).rd g = s.rd g := s.rd_wr_apart _ h hd

theorem State.rd_incWrap_apart (s : State) {f g : Fld} (h : f.ok) (hd : f.apart g) : (s.incWrap f).rd g = s.rd g := s.rd_wr_apart _ h hd

theorem State.reg_inc_ne (s : State) (f : Fld) {a : Nat} (h : a ≠ f.reg) : (s.inc f).reg a = s.reg a := s.reg_wr_ne f _ h

theorem State.reg_incWrap_ne (s : State) (f : Fld) {a : Nat} (h : a ≠ f.reg) : (s.incWrap f).reg a = s.reg a := s.reg_wr_ne f _ h

@[simp] theorem State.reg_send (s : State) (m : Msg) (a : Nat) : (s.send m).reg a = s.reg a := rfl
@[simp] theorem State.reg_tick (s : State) (a : Nat) : s.tick.reg a = s.reg a := rfl
@[simp] theorem State.rd_send (s : State) (m : Msg) (f : Fld) : (s.send m).rd f = s.rd f := rfl
@[simp] theorem State.rd_tick (s : State) (f : Fld) : s.tick.rd f = s.rd f := rfl

@[simp] theorem State.when_true (s : State) (f : State → State) : s.when true f = f s := rfl
@[simp] theorem State.when_false (s : State) (f : State → State) : s.when false f = s := rfl

/-! ## The recorder (R421, R425, R426): a record moves the recorder's registers and store, and nothing else. -/

/-- What a record changes: the recorder alone. -/
structure Recorded (s t : State) : Prop where
  reg : ∀ a, recReg a = false → t.reg a = s.reg a
  rest : t = { s with regs := t.regs, recorder := t.recorder }

theorem Recorded.refl (s : State) : Recorded s s := ⟨fun _ _ => rfl, rfl⟩

theorem Recorded.trans {s t u : State} (h : Recorded s t) (g : Recorded t u) : Recorded s u :=
  ⟨fun a ha => (g.reg a ha).trans (h.reg a ha), by rw [g.rest, h.rest]⟩

theorem Recorded.rd {s t : State} (h : Recorded s t) (f : Fld) (hf : recReg f.reg = false) : t.rd f = s.rd f := by
  unfold State.rd; rw [h.reg _ hf]

theorem Recorded.wr {s t : State} (h : Recorded s t) (f : Fld) (v : Nat) (hf : recReg f.reg = true) : Recorded s (t.wr f v) := by
  refine h.trans ⟨fun a ha => t.reg_wr_ne f v ?_, ?_⟩
  · rintro rfl; simp [ha] at hf
  · unfold State.wr State.setReg; rfl

theorem Recorded.store {s t : State} (h : Recorded s t) (d slot : Nat) (ws : List Word) : Recorded s (t.setRec d slot ws) :=
  h.trans ⟨fun _ _ => rfl, rfl⟩

theorem recReg_head (d : Nat) : recReg (F.REC_HEAD_SEQ d).reg = true := by
  have : (d * 0x4000000 + 0xD00000) % 0x4000000 = 0xD00000 := by omega
  simp [F.REC_HEAD_SEQ, R.REC_HEAD, dieBase, recReg, this]
theorem recReg_tail (d : Nat) : recReg (F.REC_TAIL_SEQ d).reg = true := by
  have : (d * 0x4000000 + 0xD00004) % 0x4000000 = 0xD00004 := by omega
  simp [F.REC_TAIL_SEQ, R.REC_TAIL, dieBase, recReg, this]
theorem recReg_over (d : Nat) : recReg (F.REC_CNT_OVERWRITTEN d).reg = true := by
  have : (d * 0x4000000 + 0xD0000C) % 0x4000000 = 0xD0000C := by omega
  simp [F.REC_CNT_OVERWRITTEN, R.REC_CNT, dieBase, recReg, this]
theorem recReg_sat (d : Nat) : recReg (F.REC_CNT_SATURATED d).reg = true := recReg_over d

theorem State.recNew_recorded (s : State) (d : Nat) (e : Event) : Recorded s (s.recNew d e) := by
  unfold State.recNew
  extract_lets head ws u
  have hp : Recorded s (((s.setRec d (head % recN d) ws).setGroves d (head % recN d) (s.grovesOf e.path)).setNewAt d) := ⟨fun _ _ => rfl, rfl⟩
  have hu : Recorded s u := hp.wr _ _ (recReg_head d)
  clear_value u
  split
  · exact (hu.wr _ _ (recReg_tail d)).wr _ _ (recReg_over d)
  · exact hu

theorem State.setEvAt_recorded (s : State) (d : Nat) : Recorded s (s.setEvAt d) := ⟨fun _ _ => rfl, rfl⟩

theorem State.record_recorded (s : State) (d : Nat) (e : Event) : Recorded s (s.record d e) := by
  unfold State.record
  extract_lets folds u slot ws
  have hu : Recorded s u := State.setEvAt_recorded s d
  clear_value folds u slot ws
  split
  · split
    · exact hu.store _ _ _
    · exact ((hu.store _ _ _).wr _ _ (recReg_sat d)).trans (State.recNew_recorded _ _ _)
  · exact hu.trans (State.recNew_recorded _ _ _)

/-- R424: an event moves the recorder alone. -/
theorem State.event_recorded (s : State) (path code a0 a1 a2 : Nat) (tl : Option Nat) : Recorded s (s.event path code a0 a1 a2 tl) :=
  State.record_recorded _ _ _

theorem State.recReason_recorded (s : State) (path code a0 a1 : Nat) (wm : Wm) : Recorded s (s.recReason path code a0 a1 wm) :=
  State.record_recorded _ _ _

/-- R141: a refusal writes the reason code to the status registers and one record; nothing else changes. -/
theorem State.refuse_recorded (s : State) (path : Nat) (st : List Nat) (code a1 a0 : Nat) :
    Recorded (s.reasons st code) (s.refuse path st code a1 a0) := State.recReason_recorded _ _ _ _ _ _

end Sys2Proof.Machine
end

