-- ==== Sys2Proof/Machine/Package.lean ====
section
/-!
DEFINITION. Sys2Proof/Machine/Package.lean: the package, its balls and its electrical limits (24_package_and_electrical.md, R470 to
R486): facts of the hardware that no command changes, with the load estimate of a state (R485). Lengths are in micrometres, voltages in
millivolts, currents in milliamperes, times in microseconds, and temperatures in degrees Celsius, unless a name says otherwise.
-/
namespace Sys2Proof.Machine

/-! ## Balls -/

/-- R470: the body of every variant. -/
structure PackageBody where
  side : Nat
  sideTol : Nat
  height : Nat
  heightTol : Nat
  lid : Nat
  grid : Nat
  pitch : Nat
  ball : Nat
  lidLoadNewton : Nat
  deriving DecidableEq, Repr
def packageBody : PackageBody := ⟨70000, 100, 4200, 150, 62000, 68, 1000, 600, 600⟩

/-- R476: the supply rails. -/
inductive Rail where
  | root
  | crown (d : Nat)
  | lanes
  | drivers
  | hbm
  | io
  deriving DecidableEq, Repr

/-- R472: the balls of a lane; TX is the device's transmitter. -/
inductive LanePin where
  | txP | txN | rxP | rxN
  deriving DecidableEq, Repr

/-- R473: the balls of an audio port, in order. -/
inductive AudPin where
  | mclk | bclk | fs | d0 | d1 | d2 | d3
  deriving DecidableEq, Repr

/-- R473: the low-speed signals from k = 112 on, in order. -/
inductive LowSig where
  | syncIn0 | syncIn1 | f10mIn0 | f10mIn1 | ppsIn | ppsOut
  | spiClk | spiCsN | spiIo0 | spiIo1 | spiIo2 | spiIo3 | spiWpN
  | i2cScl | i2cSda | uartTx | uartRx
  | gpio (g : Nat)
  | bootSrc0 | bootSrc1 | bootSrc2 | clkMode0 | clkMode1
  | rstN | perst | thermTripN | alarmN
  deriving DecidableEq, Repr

/-- R471: what a ball carries. -/
inductive Ball where
  | media (n : Nat) (p : LanePin)
  | twin (k : Nat) (p : LanePin)
  | cxl (n : Nat) (p : LanePin)
  | cxlRefclkP | cxlRefclkN | clk156P | clk156N
  | aud (port : Nat) (p : AudPin)
  | low (x : LowSig)
  | rsvd (n : Nat)
  | supply (r : Rail)
  | vss
  deriving DecidableEq, Repr

/-- R472: the lane of a tile and the ball of it at a line from the edge and a position along the tile; none is VSS. -/
def tilePin (line pos : Nat) : Option (Nat × LanePin) :=
  if line = 1 then some (pos / 2, if pos % 2 = 0 then .txP else .txN)
  else if line = 3 then some (pos / 2, if pos % 2 = 0 then .rxP else .rxN)
  else none

/-- R472: a ball of the tile of lanes from `first` on. -/
def tileBall (f : Nat → LanePin → Ball) (first line pos : Nat) : Ball :=
  match tilePin line pos with
  | some (j, p) => f (first + j) p
  | none => .vss

/-- R472: the clock tile. -/
def clockBall (r c : Nat) : Ball :=
  if r ≠ 1 then .vss
  else if c = 27 then .cxlRefclkP else if c = 28 then .cxlRefclkN else if c = 31 then .clk156P else if c = 32 then .clk156N else .vss

/-- R472: the top band. -/
def topBall (r c : Nat) : Ball :=
  if c < 3 ∨ 66 < c then .vss
  else
    let t := (c - 3) / 8
    let pos := (c - 3) % 8
    if t < 2 then tileBall .media (4 * (22 + t)) r pos
    else if t = 2 then tileBall .twin 0 r pos
    else if t = 3 then clockBall r c
    else tileBall .cxl (4 * (t - 4)) r pos

/-- R472: a side band: quads from `quad` on, `x` along the band, `line` from the edge. -/
def sideBall (quad line x : Nat) : Ball :=
  if x < 7 ∨ 62 < x then .vss else tileBall .media (4 * (quad + (x - 7) / 8)) line ((x - 7) % 8)

def audPins : List AudPin := [.mclk, .bclk, .fs, .d0, .d1, .d2, .d3]
def lowSigs : List LowSig :=
  [.syncIn0, .syncIn1, .f10mIn0, .f10mIn1, .ppsIn, .ppsOut, .spiClk, .spiCsN, .spiIo0, .spiIo1, .spiIo2, .spiIo3, .spiWpN,
   .i2cScl, .i2cSda, .uartTx, .uartRx] ++ (List.range 16).map .gpio ++
  [.bootSrc0, .bootSrc1, .bootSrc2, .clkMode0, .clkMode1, .rstN, .perst, .thermTripN, .alarmN]

/-- R473: the ball of index k of the I/O block. -/
def ioBall (k : Nat) : Ball :=
  if k < 112 then .aud (k / 7) (audPins.getD (k % 7) .mclk)
  else if k < 154 then .low (lowSigs.getD (k - 112) .syncIn0)
  else if k < 172 then .rsvd (k - 154)
  else .supply .io

/-- R474: the supply field. -/
def supplyBall (r c : Nat) : Ball :=
  if (r + c) % 3 = 0 then .vss
  else .supply (if r ≤ 16 then (if c ≤ 46 then .lanes else .drivers)
    else if c ≤ 10 then .root else if c ≤ 52 then .crown ((c - 11) / 6 + 1) else .hbm)

/-- R471: the ball at row r, column c, each from 1 to 68. -/
def ballAt (r c : Nat) : Ball :=
  if r ≤ 4 then topBall r c
  else if 65 ≤ r then (if c < 3 ∨ 66 < c then .vss else tileBall .media (4 * ((c - 3) / 8)) (69 - r) ((c - 3) % 8))
  else if c ≤ 4 then sideBall 8 c r
  else if 65 ≤ c then sideBall 15 (69 - c) r
  else if r ≤ 8 then (if c ≤ 51 then ioBall ((r - 5) * 47 + (c - 5)) else .vss)
  else supplyBall r c

/-- R475: a ball is connected inside the package of a variant with so many crowns. -/
def ballConnected (crowns : Nat) (b : Ball) : Bool :=
  match b with
  | .supply (.crown d) => decide (d ≤ crowns)
  | _ => true

/-! ## Supplies -/

/-- R476: nominal voltage, tolerance in thousandths, typical and maximum current; of VDD_HBM per crown present. -/
structure RailSpec where
  nominal : Nat
  tol : Nat
  typical : Nat
  maximum : Nat
  deriving DecidableEq, Repr
def railSpec : Rail → RailSpec
  | .root => ⟨750, 30, 32000, 48000⟩
  | .crown _ => ⟨750, 30, 80000, 115000⟩
  | .lanes => ⟨900, 30, 32200, 45000⟩
  | .drivers => ⟨1200, 50, 5800, 9000⟩
  | .hbm => ⟨1100, 30, 18200, 26000⟩
  | .io => ⟨1800, 50, 1100, 2000⟩

/-- R476: the most that one ball carries. -/
def ballCurrent : Nat := 700

/-- R475: the rails that a variant needs. -/
def railsOf (crowns : Nat) : List Rail := [.io, .root] ++ ((List.range crowns).map fun k => .crown (k + 1)) ++ [.lanes, .drivers, .hbm]

/-- R476, R483: a voltage within its rail's tolerance. -/
def railInTol (r : Rail) (mv : Nat) : Bool :=
  let x := railSpec r
  decide (x.nominal * (1000 - x.tol) ≤ mv * 1000 ∧ mv * 1000 ≤ x.nominal * (1000 + x.tol))

/-- R477: the step of the bring-up that a rail belongs to. -/
def railStep : Rail → Nat
  | .io => 1
  | .root => 2
  | .crown _ => 2
  | .lanes => 3
  | .drivers => 4
  | .hbm => 5

/-- R477: a rail's ramp: when it starts, reaches 90 % of nominal and ends; whether it is monotonic. -/
structure Ramp where
  rail : Rail
  start : Nat
  at90 : Nat
  stop : Nat
  monotonic : Bool
  deriving DecidableEq, Repr

/-- R477: a bring-up that keeps the table. -/
def bringUpOk (rs : List Ramp) : Bool :=
  (rs.all fun x => x.monotonic && decide (x.start + 100 ≤ x.stop ∧ x.stop ≤ x.start + 10000)) &&
  (rs.all fun x => rs.all fun y =>
    (decide (railStep x.rail < railStep y.rail) == false || decide (x.at90 ≤ y.start)) &&
    (decide (railStep x.rail = 2 ∧ railStep y.rail = 2) == false || decide (y.start ≤ x.start + 2000)))

/-- R477: power-good from what each microsecond saw, newest first: every present rail above 95 % for 100 of them without a break. -/
def powerGoodAfter (crowns : Nat) (seen : List (Rail → Nat)) : Bool :=
  decide (100 ≤ seen.length) && (seen.take 100).all fun v => (railsOf crowns).all fun r => decide ((railSpec r).nominal * 95 < v r * 100)

/-- R478: a rail below 90 % for 1 microsecond. -/
def supplyLost (crowns : Nat) (v : Rail → Nat) : Bool := (railsOf crowns).any fun r => decide (v r * 100 < (railSpec r).nominal * 90)

/-- R482: the absolute maximum of a rail; its least is -300. -/
def railMax : Rail → Nat
  | .root => 900
  | .crown _ => 900
  | .lanes => 1050
  | .drivers => 1400
  | .hbm => 1250
  | .io => 2100

/-- R482: a level within the ratings at a ball, by the voltages of VDDIO and VDDA_LN. -/
def lowLevelRated (vddio mv : Int) : Bool := decide (-300 ≤ mv ∧ mv ≤ vddio + 300)
def laneLevelRated (vddaLn mv : Int) : Bool := decide (-300 ≤ mv ∧ mv ≤ vddaLn + 300)
def railRated (r : Rail) (mv : Int) : Bool := decide (-300 ≤ mv ∧ mv ≤ railMax r)
/-- R482: junction temperatures that a powered part stands, storage temperatures, ESD in volts, and reflow. -/
def junctionRated (t : Int) : Bool := decide (t ≤ 125)
def storageRated (t : Int) : Bool := decide (-40 ≤ t ∧ t ≤ 125)
def esdHbmVolt : Nat := 1000
def esdCdmVolt : Nat := 250
def reflowOk (peak secondsAbove245 : Nat) : Bool := decide (peak ≤ 250 ∧ secondsAbove245 ≤ 30)

/-- R483: the operating conditions: rails, the dies' junctions and the stacks. -/
def operatingOk (crowns : Nat) (v : Rail → Nat) (junctions hbmStacks : List Int) : Bool :=
  (railsOf crowns).all (fun r => railInTol r (v r)) && junctions.all (fun t => decide (0 ≤ t ∧ t ≤ 105)) && hbmStacks.all fun t => decide (t ≤ 95)

/-! ## Clocks and low-speed levels -/

/-- R479: CLK156 within its limits: error in parts per billion, jitter in femtoseconds rms. -/
def clk156Ok (ppb : Int) (jitterFs : Nat) : Bool := decide (-2000 ≤ ppb ∧ ppb ≤ 2000 ∧ jitterFs ≤ 200)

/-- R479, R447: whether the local clock comes from CXL_REFCLK, which must then meet the CLK156 error limit without spread spectrum. -/
def localFromRefclk (clkMode : Nat) : Bool := clkMode == 0
def refclkOk (clkMode : Nat) (ppb : Int) (spread : Bool) : Bool := !localFromRefclk clkMode || (decide (-2000 ≤ ppb ∧ ppb ≤ 2000) && !spread)

/-- R479, R70: the drift of an oscillator in holdover, in ns: its error in ppb by seconds. -/
def holdoverDrift (ppb seconds : Nat) : Nat := ppb * seconds

/-- R479: the frequency error left for a reference to qualify, in ppb, given TOL, HYST and the oscillator's own. -/
def refMargin (tol hyst osc : Nat) : Nat := tol - hyst - osc

/-- R480: what an LVCMOS input reads; between the thresholds the spec names no level. -/
def lowLevel (mv : Nat) : Option Bool := if mv ≤ 630 then some false else if 1170 ≤ mv then some true else none
/-- R480: an output's levels at 4 mA. -/
def lowOut (high : Bool) (mv : Nat) : Bool := if high then decide (1350 ≤ mv) else decide (mv ≤ 450)

/-- R480: open-drain outputs, and the pulls inside the package. -/
inductive Pull where
  | up | down | none
  deriving DecidableEq, Repr
def openDrain (x : LowSig) : Bool := x == .thermTripN || x == .alarmN || x == .i2cScl || x == .i2cSda
def pullOf (x : LowSig) : Pull := if x = .rstN ∨ x = .perst then .up else if x = .spiWpN then .down else .none

/-- R481: the amplitude of a timing input, peak to peak; PPS_IN is a level, high for 100 ns at least. -/
def timingAmplitudeOk (x : LowSig) (mv : Nat) : Bool :=
  match x with
  | .syncIn0 => decide (400 ≤ mv ∧ mv ≤ 1400)
  | .syncIn1 => decide (400 ≤ mv ∧ mv ≤ 1400)
  | .f10mIn0 => decide (400 ≤ mv ∧ mv ≤ 1800)
  | .f10mIn1 => decide (400 ≤ mv ∧ mv ≤ 1800)
  | .ppsIn => lowLevel mv == some true
  | _ => true
def ppsInHighOk (ns : Nat) : Bool := decide (100 ≤ ns)

/-! ## Power and cooling -/

/-- R484: the maximum power of a rail in nanowatts: its maximum current at the top of its tolerance. -/
def railMaxNw (r : Rail) : Nat := (railSpec r).maximum * (railSpec r).nominal * (1000 + (railSpec r).tol)
def rootMaxNw : Nat := railMaxNw .root + railMaxNw .lanes + railMaxNw .drivers + railMaxNw .io
def crownMaxNw : Nat := railMaxNw (.crown 1) + railMaxNw .hbm

/-- R484: typical power in tenths of a watt. -/
def typicalPower (crowns : Nat) : Nat := 620 + 800 * crowns

/-- R485: pixels a second of a crown's streams of a preset, times 4,004. -/
def State.presetPixels (s : State) (d : Nat) (fast : Bool) : Nat :=
  ((List.range 128).map fun i =>
    if s.strOn d i && s.on (F.ENC_STRi_CFG_PRESET d i) == fast then ((List.range (s.strN d i)).map (s.tileW d i)).sum * s.picH d i * s.picRate d i else 0).sum

/-- R485: lanes that are Dormant or not enabled. -/
def State.idleLanes (s : State) : Nat := ((List.range 100).filter fun n => !s.laneOn n || s.laneStage n == 6).length

/-- R485: the load estimate of a state at typical conditions, in picowatts times 4,004. -/
def State.loadEstimate (s : State) : Nat :=
  let sum := fun (f : Nat → Nat) => ((List.range s.crowns).map fun k => f (k + 1)).sum
  4004 * 10 ^ 12 * (62 + s.crowns * 46) + 3864 * sum (fun d => s.presetPixels d false) + 1932 * sum (fun d => s.presetPixels d true) +
    2000 * sum s.decLoad - 4004 * 28 * 10 ^ 10 * s.idleLanes

/-- R486: a cooling whose resistance from lid to coolant, in thousandths of a degree a watt, holds the junction at 105 degrees at the
maximum power of a variant, given its inlet temperature; the package's own resistance is 0.03 degrees a watt. -/
def coolingOk (crowns inlet lidToCoolant : Nat) : Bool := decide (inlet ≤ 105 ∧ (lidToCoolant + 30) * (rootMaxNw + crowns * crownMaxNw) ≤ (105 - inlet) * 10 ^ 12)

/-- R486: a GX8 is cooled by liquid only. -/
def airAllowed (crowns : Nat) : Bool := decide (crowns < 7)

end Sys2Proof.Machine
end

