-- ==== Sys2Proof/WellFormed.lean ====
section
/-!
DEFINITION. Sys2Proof/WellFormed.lean: the commands whose operands lie in the ranges that the spec gives them: a field of a
message in its width, a descriptor of 16 words (R95), a word address. Operands that name an instance are in range by type.
-/
namespace Sys2Proof

/-- A number fits a field of `w` bits. -/
def fits (w n : Nat) : Bool := decide (n < 2 ^ w)

/-- R11: a BAR0 offset of a register: a word in one of the eight die windows (R12). -/
def wordAddr (a : Nat) : Bool := fits 29 a && decide (a % 4 = 0)

/-- R58, R60: a time since the alignment point is not negative. -/
def RefMeas.wf (m : RefMeas) : Bool := decide (0 ≤ m.phase) && m.peer.all fun x => decide (0 ≤ x)

/-- A log message interval is a signed byte. -/
def logOk (l : Int) : Bool := decide (-128 ≤ l ∧ l ≤ 127)

/-- R73: a PTP time has 48 bits of seconds and less than 10^9 ns. -/
def timeOk (sec ns : Nat) : Bool := fits 48 sec && decide (ns < 10 ^ 9)

def SyncMsg.wf (m : SyncMsg) : Bool := fits 8 m.domain && fits 80 m.sender && fits 16 m.seq && logOk m.logInterval && timeOk m.sec m.ns

def AnnounceMsg.wf (m : AnnounceMsg) : Bool :=
  fits 8 m.domain && fits 80 m.sender && logOk m.logInterval && fits 8 m.prio1 && fits 8 m.clockClass && fits 8 m.accuracy && fits 16 m.variance &&
    fits 8 m.prio2 && fits 64 m.gmid && fits 16 m.steps && fits 16 m.utcOffset

def DelayRespMsg.wf (m : DelayRespMsg) : Bool := fits 8 m.domain && fits 80 m.sender && fits 16 m.seq && logOk m.logInterval && timeOk m.sec m.ns

def PtpMsg.wf : PtpMsg → Bool
  | .sync m => m.wf
  | .followUp m => m.wf
  | .announce m => m.wf
  | .delayResp m => m.wf

/-- R121: the words of a watermark. -/
def Wm.wf (w : Wm) : Bool := fits 32 w.rows && fits 32 w.bytes && fits 32 w.lastOff && fits 32 w.retry

/-- R343: a 24-bit sample and its five side bits. -/
def AudSamp.wf (a : AudSamp) : Bool := fits 24 a.val && fits 8 a.side

/-- R334, R335: what a slot of a port's line holds: a sample, or the 64 bits that a microphone gives in its time. -/
def AudSamp.wfLine (a : AudSamp) : Bool := fits 64 a.val && fits 8 a.side

/-- R184: an ANC packet's 10-bit words. -/
def AncPkt.wf (a : AncPkt) : Bool := a.words.all (fits 10)

/-- R171: samples of at most 12 bits. -/
def pxOk (ps : List (Nat × Nat × Nat)) : Bool := ps.all fun (a, b, c) => fits 12 a && fits 12 b && fits 12 c

/-- R172 to R176: header fields in their widths. -/
def IngPkt.wf (x : IngPkt) : Bool :=
  fits 32 x.dst && fits 16 x.udp && fits 16 x.bytes && fits 2 x.version && fits 7 x.pt && fits 32 x.ssrc && fits 32 x.seq &&
    fits 32 x.ts && x.audio.all (·.all AudSamp.wf) && x.anc.all AncPkt.wf && x.ptp.all PtpMsg.wf && x.rows.all fun r => pxOk r.px

/-- R177: at most four samples to an audio group's frame. -/
def SdiLine.wf (x : SdiLine) : Bool :=
  (x.audio.all fun (_, f) => decide (f.length ≤ 4) && f.all AudSamp.wf) && x.anc.all AncPkt.wf && pxOk x.px

/-- R360: the fields of a witness message in their widths. -/
def WitMsg.wf (m : WitMsg) : Bool :=
  fits 16 m.pair && fits 64 m.sender && fits 32 m.term && fits 32 m.seq && fits 32 m.lease && fits 32 m.arg && fits 64 m.stamp &&
    fits 64 m.tag

/-- R356, R59: 32 pairs and 4 timelines. -/
def HbFrame.wf (x : HbFrame) : Bool := x.pairs.length == 32 && x.tls.length == 4

/-- R368: a unit id and 32 pairs. -/
def CapsFrame.wf (x : CapsFrame) : Bool := fits 64 x.unit && x.pairs.length == 32

/-- The well-formed commands. -/
def Instr.wf : Instr → Bool
  | .tlEnable _ _ => true
  | .tlDisable _ => true
  | .tlFreerun _ => true
  | .ltNowRead _ _ => true
  | .ltCapture => true
  | .channelFrameStart _ => true
  | .refSample _ m => m.wf
  | .refWtrExpired _ => true
  | .refDwellExpired _ => true
  | .refActivityTimeout _ => true
  | .selSlewDone _ => true
  | .selForce _ _ => true
  | .selBetterClr _ _ => true
  | .selSlopeWrite _ _ => true
  | .selStep _ _ => true
  | .selHistMinute => true
  | .ptpSync _ m => m.wf
  | .ptpFollowUp _ m => m.wf
  | .ptpAnnounce _ m => m.wf
  | .ptpDelayResp _ m => m.wf
  | .ptpDelayReqTimer _ => true
  | .ptpAnnounceTimeout _ => true
  | .ptpSetReq _ => true
  | .ptpRearm _ => true
  | .ptpServoSelect _ => true
  | .ptpAdjWrite _ => true
  | .ptpClkNsRead _ => true
  | .ppsSecond => true
  | .ppsOutWrite _ => true
  | .hifLinkTrained _ _ _ _ _ _ _ _ _ => true
  | .hdmDecoderCommit => true
  | .dbSnoop _ => true
  | .dbHoldoffExpired _ => true
  | .dbReadReturn _ _ _ => true
  | .mmioDbIndex _ _ => true
  | .mmioDbPresent _ _ => true
  | .mmioDbBoth _ _ _ => true
  | .descFetch _ words => words.length == 16
  | .descPoll _ words => words.length == 16
  | .genStallTimeout _ => true
  | .nop _ => true
  | .capsule _ => true
  | .dmaH2d _ => true
  | .dmaD2h _ => true
  | .dmaComplete _ _ _ => true
  | .batchTimeout _ => true
  | .batchFlushTick _ => true
  | .irqGapExpired _ => true
  | .ringEnable _ => true
  | .ringDisable _ => true
  | .ringDrainDone _ => true
  | .ringDrainStall _ => true
  | .xltFault _ addr => fits 64 addr
  | .taskPark _ x => x.wm.wf
  | .parkHoldExpired _ => true
  | .pageResponse _ _ => true
  | .priTimeout _ => true
  | .priStopped => true
  | .accessError _ => true
  | .atsInvalidation _ addr log2size => fits 64 addr && decide (12 ≤ log2size ∧ log2size ≤ 64) && decide (addr % 2 ^ log2size = 0)
  | .atsInvalComplete _ => true
  | .xltFlush => true
  | .descDeadline _ _ => true
  | .stgOpen _ _ _ => true
  | .stgCommit _ _ _ => true
  | .stgAbort _ _ => true
  | .stgWselWrite _ _ => true
  | .stagedWrite _ addr _ => wordAddr addr
  | .directWrite _ addr _ => wordAddr addr
  | .commitApply _ => true
  | .capsuleStart _ => true
  | .capsuleReadComplete _ _ image => decide (image.length ≤ 65536)
  | .capsuleHoldExpired _ => true
  | .taskSubmit _ => true
  | .taskCancel _ => true
  | .taskWake _ _ => true
  | .taskStart _ _ => true
  | .taskEnd _ _ _ _ wm => wm.wf
  | .taskSafePoint _ x => x.wm.wf
  | .schConsTake _ _ => true
  | .schConsEnd _ _ _ => true
  | .schConsWm3 _ _ _ => true
  | .schQueueRevoke _ _ => true
  | .schUsecRead _ => true
  | .taskDeadline _ _ => true
  | .ingPacket x => x.wf
  | .sdiLine _ x => x.wf
  | .flowAdd => true
  | .flowReplace => true
  | .flowDelete _ => true
  | .flowRead _ => true
  | .lineComplete _ => true
  | .ingLossTimeout _ => true
  | .layerSrc _ => true
  | .layerImageReady _ _ => true
  | .layerWaitExpired _ _ _ => true
  | .bandWritten _ _ _ => true
  | .flattenRebuildDone _ _ _ => true
  | .cmpCoefAccess _ _ => true
  | .lutData0Write _ _ _ => true
  | .lutData1Write _ _ _ => true
  | .lutCrcDone _ _ _ => true
  | .encRefreshReq _ _ _ => true
  | .rowArrival _ _ x => fits 32 x.pic && fits 9 x.row
  | .rowHandover _ _ => true
  | .motionAreaCoarse _ _ _ _ _ => true
  | .motionBlockDone _ _ _ _ _ _ => true
  | .motionHint _ => true
  | .unitCoded _ _ _ bits floorBits => fits 32 bits && fits 32 floorBits
  | .eobjRevoke _ _ => true
  | .revokeQuiesced _ key => fits 16 key
  | .decInput _ => true
  | .decPictureDone _ _ x => fits 32 x.tail
  | .decShowReached _ _ => true
  | .wheelSlot => true
  | .portFrameDone _ => true
  | .shaperRefill _ => true
  | .shaperWrite _ _ => true
  | .gateIntervalEnd _ => true
  | .gateChange _ _ => true
  | .gateChangeTime _ => true
  | .gateEnWrite _ _ => true
  | .queueSample => true
  | .whlHistClr => true
  | .tsPsiTimer _ => true
  | .tsPcrTimer _ => true
  | .audioSample _ x => (x.line.getD []).all AudSamp.wfLine
  | .audioPortFrame _ _ frame _ => frame.all AudSamp.wf && decide (frame.length ≤ 64)
  | .audHostWrite _ _ => true
  | .audM0Read _ => true
  | .pairHb _ _ _ => true
  | .pairHbTimeout _ _ => true
  | .pairSuspectDecide _ _ => true
  | .twinHbSend => true
  | .twinHeartbeat x => x.body.wf
  | .twinHbMiss => true
  | .leaseRenewTimer _ => true
  | .leaseExpired _ => true
  | .witnessLeaseExpired _ => true
  | .witRenew m => m.wf
  | .witGrant m => m.wf
  | .witSuspect m => m.wf
  | .witProbe m => m.wf
  | .witProbeAck m => m.wf
  | .witProbeTimeout _ => true
  | .witFence m => m.wf
  | .witFenceAck m => m.wf
  | .witVerdict m => m.wf
  | .witYield m => m.wf
  | .twinCaps x => x.body.wf
  | .twinCursor words => words.body.length == 20
  | .twinFlow words => words.body.length % 2 == 0
  | .twinTemplate _ block => decide (block.body.length ≤ 65535)
  | .twinRelay typ m => fits 8 typ && m.body.wf
  | .twinMirror _ _ x => x.body.wf
  | .twinMboxHostidxWrite _ msgs => msgs.all fun (t, m) => fits 8 t && m.wf
  | .pairSwitch _ _ _ => true
  | .pairDrill _ _ _ => true
  | .pairRejoin _ => true
  | .pairAbort _ => true
  | .pairSwitchStamp _ => true
  | .drillWindowEnd _ => true
  | .refHoldExpired _ _ => true
  | .hbmEn _ _ => true
  | .hbmRefreshStart _ => true
  | .hbmMapLock _ => true
  | .hbmHotForce _ _ => true
  | .hbmRefreshTick _ => true
  | .hbmTempRead _ _ => true
  | .hbmTempTimeout _ => true
  | .hbmRhWindow _ => true
  | .hbmReadDone _ _ off _ _ => fits 35 off
  | .hbmPhyLockLoss _ => true
  | .hbmTrainWrite _ _ _ _ _ _ => true
  | .hbmTrainRead _ _ _ _ _ _ => true
  | .hbmTrainLoop _ _ _ _ _ _ => true
  | .hbmTrainStop _ => true
  | .hbmTrainDone _ _ bits => fits 64 bits
  | .hbm1500Go _ _ => true
  | .hbm1500Done _ data => decide (data.length ≤ 16)
  | .laneDormantSet _ => true
  | .laneDormantClear _ => true
  | .laneDormantExitDone _ => true
  | .laneRestart _ => true
  | .laneTestSet _ => true
  | .laneTestClear _ => true
  | .laneSnap _ bits errs => fits 64 bits && fits 64 errs
  | .laneInject _ _ => true
  | .laneDetectProbe _ _ => true
  | .laneStageDone _ _ _ unit => fits 64 unit
  | .laneStageTimeout _ => true
  | .laneLockLost _ => true
  | .ucieLinkDown _ => true
  | .ucieRetrainDone _ _ _ _ => true
  | .ucieTrainDone _ _ _ _ => true
  | .ucieFlitCrcFail _ => true
  | .fabRemapWrite _ _ => true
  | .fabErrClear _ => true
  | .fabPromote _ _ => true
  | .crcReset _ _ => true
  | .crcCompute _ _ => true
  | .crcAppend _ _ => true
  | .crcStrip _ _ => true
  | .crcAbort _ _ => true
  | .crcBadOp _ _ _ => true
  | .crcOpDone _ _ => true
  | .crcData32 _ _ _ => true
  | .crcData16 _ _ _ => true
  | .crcData8 _ _ _ => true
  | .crcValueWrite _ _ _ => true
  | .crcClaimRead _ _ => true
  | .crcClaimRelease _ _ => true
  | .recStreamCopy _ => true
  | .recRead _ => true
  | .recClrGo => true
  | .recClearChecked => true
  | .powerGood samples => samples.length == 8
  | .supplyLoss => true
  | .rstNAssert => true
  | .rstNRelease samples => samples.length == 8
  | .perstAssert => true
  | .perstRelease => true
  | .rstGlobalWrite _ => true
  | .wdtKick _ _ => true
  | .wdtExpired _ => true
  | .thermSample _ ts => ts.length == 8
  | .clockGood _ => true
  | .noclkTimeout _ => true
  | .rstGrvHold _ => true
  | .rstGrvRelease _ => true
  | .pwrSlotEnable _ _ _ => true
  | .pwrDomainSwitch => true
  | .pwrDomainUp _ _ => true
  | .pwrReqCalibrate => true
  | .pwrReqReady => true
  | .pwrReqDiagnostic => true
  | .pwrReqClear => true
  | .pwrReqOther _ => true
  | .bootMboxGo => true
  | .bootCoresRun _ _ => true
  | .bootImageLoaded img => decide (img.length ≤ 2 ^ 21)
  | .bootFrame _ => true
  | .bootTwinTimeout => true
  | .bootSramWrite _ _ _ => true
  | .bootSpiGo _ _ => true
  | .bootSpiDone _ _ _ => true
  | .rstCauseClear _ _ => true
  | .regWrite _ addr _ => fits 64 addr
  | .descLineInvalidated _ words => words.length == 16
  | .hdmWindowAccess o w => fits 64 o && (match w with | some bs => decide (bs.length ≤ 64) | none => true)
  | .audClockLoss _ => true
  | .checkerLock _ => true
  | .checkerLockLost _ bits errs => fits 64 bits && errs.all fun (_, n) => fits 32 n

end Sys2Proof
end

