-- ==== Sys2Proof/Tests/Slice0.lean ====
section
/-!
SUPPORT. Sys2Proof/Tests/Slice0.lean: tests of the model. The well-formedness checks refuse an ill-formed term each; a few
values come from the spec's worked examples; and for the statements that have hypotheses, `witness_<statement>_<clause>` shows a
state and operands that meet those of a clause (or of its parts) together.
-/
open Sys2Proof Sys2Proof.Machine
namespace Sys2Proof.Tests
set_option Elab.async false

/-- A state with fields written. -/
def flds (fs : List (Fld × Nat)) (s : State := State.reset) : State := fs.foldl (fun s (f, v) => s.wr f v) s

/-! ## Well-formedness -/

def badMsg : WitMsg := ⟨2 ^ 16, 0, 0, 0, 0, 0, 0, 0⟩
def bigWm : Wm := ⟨0, 0, 2 ^ 32, 0⟩
def okPkt : IngPkt := ⟨0, 0, 0, 0, 2, 0, 0, 0, 0, 0, [], [], [], none⟩
def okSdi : SdiLine := ⟨0, none, [], true, true, 0, 0, 0, none, [], []⟩

theorem test_wf_accepts : (Instr.refSample 0 ⟨0, 0, 0, false, false, []⟩).wf ∧ (Instr.ingPacket okPkt).wf ∧ (Instr.sdiLine 0 okSdi).wf ∧
    (Instr.descFetch 0 (List.replicate 16 0)).wf ∧ (Instr.stagedWrite .host 0x100100 0).wf ∧ (Instr.xltFlush).wf := by decide
theorem test_wf_refMeas : (Instr.refSample 0 ⟨0, -1, 0, true, false, []⟩).wf = false := by decide
theorem test_wf_senders : (Instr.ptpSync 0 ⟨0, 0, 2 ^ 80, 0, true, 0, 0, 0, 0⟩).wf = false ∧ (Instr.refSample 11 ⟨0, 0, 0, true, false, [-1]⟩).wf = false ∧
    (Instr.ingPacket { okPkt with seq := 2 ^ 32 }).wf = false ∧ (Instr.audioSample 0 ⟨some [⟨2 ^ 64, 0⟩], [], [], false⟩).wf = false := by decide
theorem test_wf_ptp : (Instr.ptpSync 0 ⟨0, 256, 0, 0, true, 0, 0, 0, 0⟩).wf = false ∧ (Instr.ptpSync 0 ⟨0, 0, 0, 0, true, 128, 0, 0, 0⟩).wf = false ∧
    (Instr.ptpFollowUp 0 ⟨0, 0, 0, 0, true, 0, 0, 10 ^ 9, 0⟩).wf = false ∧ (Instr.ptpFollowUp 0 ⟨0, 0, 0, 2 ^ 16, true, 0, 0, 0, 0⟩).wf = false ∧
    (Instr.ptpAnnounce 0 ⟨0, 0, 0, 0, 0, 0, 0, 0, 0, 2 ^ 64, 0, 0, true, []⟩).wf = false ∧
      (Instr.ptpDelayResp 0 ⟨0, 0, 0, true, 0, 0, 2 ^ 48, 0, 0⟩).wf = false := by decide
theorem test_wf_descriptors : (Instr.descFetch 0 []).wf = false ∧ (Instr.descPoll 0 (List.replicate 17 0)).wf = false ∧
    (Instr.descLineInvalidated 0 [0]).wf = false := by decide
theorem test_wf_addresses : (Instr.xltFault (.out 0) (2 ^ 64)).wf = false ∧ (Instr.atsInvalidation none 0 11).wf = false ∧
    (Instr.atsInvalidation none 0x1000 13).wf = false ∧ (Instr.stagedWrite .host 0x100102 0).wf = false ∧
    (Instr.directWrite .host (2 ^ 29) 0).wf = false ∧ (Instr.regWrite .host (2 ^ 64) 0).wf = false ∧
    (Instr.hdmWindowAccess (2 ^ 64) none).wf = false ∧ (Instr.hdmWindowAccess 0 (some (List.replicate 65 0))).wf = false := by decide
theorem test_wf_watermarks : (Instr.taskPark (.out 0) ⟨bigWm, []⟩).wf = false ∧ (Instr.taskEnd 0 0 0 0 bigWm).wf = false ∧
    (Instr.taskSafePoint (.out 0) ⟨bigWm, []⟩).wf = false := by decide
theorem test_wf_image : (Instr.capsuleReadComplete 0 0 (List.replicate 65537 0)).wf = false := by
  have h : ∀ x : List Word, (Instr.capsuleReadComplete 0 0 x).wf = decide (x.length ≤ 65536) := fun _ => rfl
  rw [h, List.length_replicate]; decide
theorem test_wf_template : (Instr.twinTemplate 0 ⟨true, List.replicate 65536 0⟩).wf = false := by
  have h : ∀ x : List Byte, (Instr.twinTemplate 0 ⟨true, x⟩).wf = decide (x.length ≤ 65535) := fun _ => rfl
  rw [h, List.length_replicate]; decide
theorem test_wf_ingest : (Instr.ingPacket { okPkt with version := 4 }).wf = false ∧ (Instr.ingPacket { okPkt with audio := [[⟨2 ^ 24, 0⟩]] }).wf = false ∧
    (Instr.ingPacket { okPkt with rows := [⟨0, 0, [(0, 4096, 0)], true⟩] }).wf = false ∧
    (Instr.ingPacket { okPkt with ptp := some (.sync ⟨0, 256, 0, 0, true, 0, 0, 0, 0⟩) }).wf = false ∧
    (Instr.ingPacket { okPkt with anc := [⟨true, 0, 0, [1024]⟩] }).wf = false ∧
    (Instr.sdiLine 0 { okSdi with audio := [(0, List.replicate 5 ⟨0, 0⟩)] }).wf = false := by decide
theorem test_wf_coding : (Instr.rowArrival 0 0 ⟨2 ^ 32, 0, 0, []⟩).wf = false ∧ (Instr.unitCoded 0 0 0 (2 ^ 32) 0).wf = false ∧
    (Instr.revokeQuiesced 0 (2 ^ 16)).wf = false ∧
    (Instr.decPictureDone 0 0 ⟨false, false, false, false, false, false, [], none, 0, 0, [], [], [], false, false, true, [], 2 ^ 32⟩).wf = false := by decide
theorem test_wf_audio : (Instr.audioSample 0 ⟨some [⟨0, 256⟩], [], [], false⟩).wf = false ∧
    (Instr.audioPortFrame 0 true (List.replicate 65 ⟨0, 0⟩) 0).wf = false := by decide
theorem test_wf_twin : (Instr.twinHeartbeat ⟨true, ⟨[], []⟩⟩).wf = false ∧ (Instr.twinCaps ⟨true, ⟨2 ^ 64, List.replicate 32 (0, 0, 0)⟩⟩).wf = false ∧
    (Instr.twinCursor ⟨true, []⟩).wf = false ∧ (Instr.twinFlow ⟨true, [0]⟩).wf = false ∧
    (Instr.twinRelay 256 ⟨true, { badMsg with pair := 0 }⟩).wf = false ∧
      (Instr.twinMirror 0 false ⟨true, { okSdi with audio := [(0, [⟨2 ^ 24, 0⟩])] }⟩).wf = false ∧
    (Instr.twinMboxHostidxWrite 0 [(0, badMsg)]).wf = false := by decide +kernel
theorem test_wf_witness : (Instr.witRenew badMsg).wf = false ∧ (Instr.witGrant badMsg).wf = false ∧ (Instr.witSuspect badMsg).wf = false ∧
    (Instr.witProbe badMsg).wf = false ∧ (Instr.witProbeAck badMsg).wf = false ∧ (Instr.witFence badMsg).wf = false ∧
    (Instr.witFenceAck badMsg).wf = false ∧ (Instr.witVerdict badMsg).wf = false ∧ (Instr.witYield badMsg).wf = false := by decide
theorem test_wf_memory_lanes : (Instr.hbmReadDone 0 0 (2 ^ 35) true 0).wf = false ∧ (Instr.hbmTrainDone 0 [] (2 ^ 64)).wf = false ∧
    (Instr.hbm1500Done 0 (List.replicate 17 0)).wf = false ∧ (Instr.laneSnap 0 (2 ^ 64) 0).wf = false ∧
    (Instr.laneStageDone 0 0 true (2 ^ 64)).wf = false ∧ (Instr.checkerLockLost 0 0 [(0, 2 ^ 32)]).wf = false := by decide
theorem test_wf_samples : (Instr.powerGood []).wf = false ∧ (Instr.rstNRelease [0]).wf = false ∧ (Instr.thermSample 0 []).wf = false := by decide
theorem test_wf_boot : (Instr.bootImageLoaded (List.replicate (2 ^ 21 + 1) 0)).wf = false := by
  have h : ∀ x : List Byte, (Instr.bootImageLoaded x).wf = decide (x.length ≤ 2 ^ 21) := fun _ => rfl
  rw [h, List.length_replicate]; decide

/-! ## States that meet the hypotheses of statements -/

def tl0 (st : Nat) : State := flds [(F.LT_TLn_CFG_BASE 0, 25), (F.LT_TLn_CFG_TPF 0, 96), (F.LT_TLn_STATUS_STATE 0, st), (F.SEL_TLn_HOLDCFG_AVG_MIN 0, 5)]
def tl0Live : State := flds [(F.SEL_TLn_STATUS_MODE 0, 1), (F.LT_TLn_CTL_EN 0, 1), (F.LT_TLn_FRAME_SET_LO_FRAME_LO 0, 7),
    (F.LT_TLn_FRAME_SET_HI_FRAME_HI 0, 65535)] (tl0 2)
def tl0Used : State := flds [(F.ING_CHc_CFG_EN 95, 1)] tl0Live
def clkEnd : State := { (flds [(F.PTP_CLK_ADJ_ADJ, 0xFFFFFFFF)]) with ptp := { State.reset.ptp with clk := 10 ^ 9 * 2 ^ 32 - 1, sec := 2 ^ 48 - 1 } }
def clkPps : State := flds [(F.PTP_CLK_STATUS_SET, 1), (F.PTP_PPS_OUT_EN, 1), (F.PTP_PPS_OUT_WIDTH, 10)] clkEnd
def meas (f : Int) (m : Nat) (g : Bool) : RefMeas := ⟨f, 5, 0, m == 1, g, []⟩
def ref2 (st : Nat) : State := (flds [(F.SEL_REFk_STATUS_STATE 2, st), (F.SEL_REFk_CFG_TOL 2, 46), (F.SEL_PRIOe_EN 0, 1), (F.SEL_PRIOe_REF 0, 2),
    (F.SEL_PRIOe_TL_MASK 0, 1),
  (F.SEL_TLn_STATUS_MODE 0, 1), (F.SEL_TLn_STATUS_TARGET 0, 2), (F.LT_TLn_STATUS_STATE 0, 2)]).setRef 2 { RefSt.init with inBand := true, prev := some 0 }
def slew : State := (flds [(F.SEL_TLn_STATUS_MODE 0, 2)] (ref2 2)).setTl 0 { TlSt.init with perr := 25599999999 }
def stepped : State := (ref2 2).setTl 0 { TlSt.init with pend := 25600000000000000 }
def minuteUp : State := { (ref2 2) with cycle := 24000000000 }
def syncM (q : Nat) (two : Bool) (log : Int) : SyncMsg := ⟨0, 5, 0x77, q, two, log, 100, 7, 3⟩
def ptp0 (st : Nat) : State := (flds [(F.LANE_ETHm_STATUS_UP 0, 1), (F.PTP_n_CFG_EN 0, 1), (F.PTP_n_CFG_DOMAIN 0, 5), (F.PTP_n_STATUS_PORT_STATE 0,
    st), (F.PTP_n_COUNT_IGNORED 0, 65534)]).setInst 0
  { PtpInst.init with waitSeq := some (9, 50), t3 := some 1000, dreqSeq := 65535, t1 := 10, t2 := 400 }
def mast : AnnounceMsg := ⟨0, 5, 0x77, -3, 128, 6, 0x21, 100, 128, 0x1122334455667788, 2, 37, true, [1]⟩
def ptpM (st : Nat) : State := (ptp0 st).setInst 0 { PtpInst.init with waitSeq := some (9, 50), t3 := some 1000, dreqSeq := 65535, t1 := 10, t2 := 400, parent := some mast, foreign := [mast] }
def annM : AnnounceMsg := ⟨0, 5, 0x77, -3, 128, 6, 0x21, 100, 128, 0x1122334455667788, 2, 37, true, [1]⟩
def mastB : AnnounceMsg := { mast with sender := 0x78, prio1 := 127 }
def delayM : DelayRespMsg := ⟨0, 5, 0x77, true, 65535, 5, 0, 2400, 8⟩
def followed : State := (ptp0 9).setInst 0 { PtpInst.init with parent := some annM }
def clkSet (fs : List (Fld × Nat)) : State := flds ((F.PTP_CLK_STATUS_SET, 1) :: fs)
def noServo : State := flds [(F.PTP_CLK_CTL_SERVO, 0)]
def ringWith (x : RingSt) (s : State) : State := s.setRing 0 x
def rings (fs : List (Fld × Nat)) : State := flds ([(F.RING_r_CFG_LOG2 0, 4), (F.RING_r_CFG_CPL 0, 1), (F.RING_r_BASE_LO_BASE_LO 0, 0x10000),
    (F.RING_r_DB_LO_DB_LO 0, 0x40), (F.RING_r_DBGEN_DBGEN 0, 1), (F.RING_r_WB_LO_WB_LO 0, 0x80),
  (F.RING_r_BATCH_BATCH_MAX 0, 2), (F.RING_r_BATCH_BATCH_US 0, 1), (F.RING_r_CFG_KIND 1, 1), (F.RING_r_CFG_LOG2 1, 4), (F.RING_r_BASE_LO_BASE_LO 1,
    0x20000), (F.RING_r_STATUS_STATE 1, 1),
  (F.RING_r_BATCH_BATCH_MAX 1, 2), (F.RING_r_BATCH_BATCH_US 1, 1), (F.LT_TLn_CFG_TPF 0, 96)] ++ fs)
def ringOn (fs : List (Fld × Nat)) : State := rings ([(F.RING_r_STATUS_STATE 0, 1), (F.RING_r_CTL_EN 0, 1)] ++ fs)
def v04x903 : State := ringWith { RingSt.init with pinned := true } (ringOn [])
def v04x904 : State := ringWith { RingSt.init with reading := true } (ringOn [])
def v04x905 : State := ringWith { RingSt.init with rung := true } (ringOn [])
def mmioOn (fs : List (Fld × Nat)) : State := ringOn ((F.HIF_CTL_DB_MODE, 1) :: fs)
def nopWs : List Word := [0x00000101, 7, 0, 0x3FF] ++ List.replicate 12 0
def dmaWs (op : Word) : List Word := [0x00000100 + op, 7, BitVec.ofNat 32 (mkPath [1, 15]), 0x3FF, 0, 0, 0x1000, 0, 0, 0, 64] ++ List.replicate 5 0
def sixteen : List Word := List.replicate 16 0
def hosted : State := ringOn [(F.RING_r_HOSTIDX_HOSTIDX 0, 1)]
def stuckM : State := ringWith { RingSt.init with stuck := true } (mmioOn [(F.RING_r_HOSTIDX_HOSTIDX 0, 1)])
def stuckC : State := ringWith { RingSt.init with stuck := true } hosted
def nopD : Desc := ⟨0, nopWs⟩
def dmaD (op : Word) : Desc := ⟨0, dmaWs op⟩
def holds (d : Desc) : State := ringWith { RingSt.init with fetched := [d] } (ringOn [])
def badDma : Desc := ⟨0, (dmaWs 3).set 10 65⟩
def copying (op : Word) : State := (ringOn []).startJob 0 (dmaD op) .running
def copyJob (op : Word) : Job := ⟨0, 0, dmaWs op, .running, Wm.zero, none, false, none, none, []⟩
def stopping : Job := { copyJob 3 with stop := some (1, 0xB011) }
def copyStop : State := { (copying 3) with host := { (copying 3).host with jobs := [(0, some stopping)] } }
def stopping4 : Job := { copyJob 4 with stop := some (1, 0xB011) }
def copyStop4 : State := { (copying 4) with host := { (copying 4).host with jobs := [(0, some stopping4)] } }
def cplR : CplRec := ⟨0, 0, 0, 7, 0, 0, 0, Wm.zero, 0, 0, 0⟩
def v04x907 : State := (ringOn []).setRing 1 { RingSt.init with batch := [cplR] }
def v04x908 : State := (ringOn []).setRing 0 { RingSt.init with wbDue := true }
def v04x909 : State := flds [(F.RING_r_BATCH_FLUSH_EN 1, 1)] ((ringOn [(F.LT_TLn_STATUS_STATE 0, 2)]).setRing 1 { RingSt.init with batch := [cplR] })
def gapped (s : State) : State := { s with host := { s.host with vecs := [(5, (some 0, some 3))] } }
def runJob (st : Option (Nat × Nat)) (f : Bool) (ph : JobPhase) : State :=
  { (copying 3) with host := { (copying 3).host with jobs := [(0, some { copyJob 3 with stop := st, faulted := f, phase := ph })] } }
def jobOf (st : Option (Nat × Nat)) (f : Bool) : Job := { copyJob 3 with stop := st, faulted := f }
def priOn (s : State) : State := flds [(F.XLT_STATUS_PRI_EN, 1), (F.XLT_STATUS_ATS_EN, 1)] s
def outOn2 : State := flds [(F.RING_r_CFG_KIND 2, 3), (F.RING_r_STATUS_STATE 2, 1)]
def outRec : State := flds [(F.RING_r_CFG_KIND 2, 1), (F.RING_r_STATUS_STATE 2, 1)]
def wm0 : Wm := dmaWm (dmaWs 3) 0
def outOn : State := flds [(F.RING_r_CFG_KIND 2, 3), (F.RING_r_STATUS_STATE 2, 1)]
def dlWs : List Word := (dmaWs 3).set 4 1
def dlJob : Job := { copyJob 3 with words := dlWs }
def dlSt : State := (flds [(F.LT_TLn_STATUS_STATE 0, 2)] { (copying 3) with host := { (copying 3).host with jobs := [(0, some dlJob)] } }).setTl 0
    { TlSt.init with frame := 1 }
def tsk (st : Nat) (creq flt : Bool) : State := (flds [(F.SCH_CONSk_CFG_EN 0 0,
    1)]).setTask 0 7 { Task.idle with state := st, creq := creq, faulted := flt, cons := 4 }
def tskStop : State := (tsk 4 false false).setTask 0 7 { Task.idle with state := 4, stop := some (2, 0xC009), cons := 4 }
def tskFw : State := (tsk 4 false false).setTask 0 7 { Task.idle with state := 4 }
def prg1 : Prg := ⟨true, [(none, 1)], [(.desc 0 0, 0, 1)]⟩
def asked : State := { (priOn (runJob none false .parked)) with xlt := { State.reset.xlt with prgs := [(3, some prg1)], park := [(0, some ⟨.desc 0 0, 0, false⟩)] } }
def cached : State := { (priOn State.reset) with xlt := { State.reset.xlt with cache := [(1, [⟨none, 1, 12, 7⟩, ⟨some 5, 1, 12, 8⟩])], invals := 1 } }
def allSets : State := (List.range 8).foldl (fun s i => s.wr (F.STG_SETs_STATUS_STATE i) 1) State.reset
def opened (w : Word) : State := allSets.setWsel .host w
def notOpen : State := State.reset.setWsel .host 0xA
def claimed3 : State := (allSets.setClaim (R.LT_CHc_MAP 3) (some (1, 5)))
def running0 : State := flds [(F.LT_TLn_STATUS_STATE 0, 2), (F.LT_TLn_CTL_EN 0, 1), (F.LT_TLn_CFG_BASE 0, 25), (F.LT_TLn_CFG_TPF 0, 96),
    (F.STG_STAMP_LO_STAMP_LO, 0), (F.STG_STAMP_HI_STAMP_HI, 0)]
def toArm : State := (flds [(F.STG_SETs_STATUS_STATE 2, 1), (F.STG_STAMP_HI_STAMP_HI, 1), (F.STG_STAMP_LO_STAMP_LO,
    0)] running0).setClaim (R.SEL_PRIOe 0) (some (2, 0))
def armed : State := (flds [(F.STG_SETs_STATUS_STATE 2, 2)] { toArm with stg := { toArm.stg with armed := [2] } })
def capWs : List Word := [0x00000102, 7, 0, 0x3FF, 0, 0, 0x1000, 0, 80] ++ List.replicate 7 0
def capD : Desc := ⟨0, capWs⟩
def capRing (d : Desc) : State := flds [(F.RING_r_CFG_KIND 0, 5)] (holds d)
def resD : Desc := ⟨0, (capWs.set 9 1).set 10 64⟩
def resSt : State := flds [(F.RING_r_CFG_KIND 0, 5)] (ringWith { RingSt.init with fetched := [resD], capHeld := some 64 } (ringOn []))
def badCap2 : Desc := ⟨0, capWs.set 8 60⟩
def capJob (ph : JobPhase) : Job := ⟨0, 0, capWs, ph, Wm.zero, none, false, none, none, []⟩
def capSt (ph : JobPhase) (s : State) : State := { s with host := { s.host with jobs := [(0, some (capJob ph))] } }
def withCrc (ws : List Word) : List Word := ws.set 7 (BitVec.ofNat 32 (crc32c (wordsBytes (ws.set 7 0))))
def img (flags : Word) : List Word := withCrc ([0x43475453, 1, 80, flags, 1, 0, 1, 0] ++ List.replicate 8 0 ++ [0x00000002,
    BitVec.ofNat 32 (R.SEL_PRIOe 0), 0xFFFFFFFF, 0])
def capRun : State := capSt .running (flds [(F.LT_TLn_STATUS_STATE 0, 2), (F.LT_TLn_CFG_BASE 0, 25), (F.LT_TLn_CFG_TPF 0, 96), (F.LT_TLn_CTL_EN 0,
    1)] (ringOn []))
def capStop : Job := { capJob .running with stop := some (4, 0) }
def capStopped : State := { capRun with host := { capRun.host with jobs := [(0, some capStop)] } }
def capBufJob : Job := { capJob .running with wm := ⟨0, 4, 0, 0⟩, buf := [1, 2, 3, 4] }
def v06x911 : State := ringWith { RingSt.init with capHeld := some 64 } (ringOn [])
def schOn (fs : List (Fld × Nat)) : State := ringOn ([(F.SCH_Qq_CFG_EN 0 3, 1), (F.SCH_Qq_CFG_HOST 0 3, 1), (F.SCH_Qq_CFG_BIND 0 3, 2),
    (F.SCH_Qq_RANGE_BASE 0 3, 100), (F.SCH_Qq_RANGE_COUNT 0 3, 50), (F.SCH_Qq_STATUS_EPOCH 0 3, 9), (F.LT_TLn_STATUS_STATE 0, 2),
    (F.SCH_CONSk_CFG_EN 0 0, 1), (F.SCH_CONSk_CFG_BIND 0 0, 2)] ++ fs)
def subWs (op k l lv : Nat) (wake : Word) : List Word := [0x00000100 + BitVec.ofNat 32 op, 7, BitVec.ofNat 32 (pSch 0), 0x3FF, 0, 0,
    BitVec.ofNat 32 k, BitVec.ofNat 32 (3 + lv * 32768 + l * 2 ^ 20), wake, 0, 11, 22, 0, 0, 0, 0]
def hold1 (d : Desc) (s : State) : State := ringWith { RingSt.init with fetched := [d] } s
def subLater : State := hold1 ⟨0, subWs 0x30 120 4 5 0x1000⟩ ((schOn []).setDelay 0 4 [101, 102])
def subD1 : Desc := ⟨0, subWs 0x30 120 4 5 0x1000⟩
def canWs : List Word := ((subWs 0x31 120 0 0 0).set 10 0).set 11 0
def canD : Desc := ⟨0, canWs⟩
def canSt (t : Nat) : State := (hold1 canD (schOn [])).setTask 0 120 { Task.idle with state := t, queue := 3 }
def subBad : Desc := ⟨0, subWs 0x30 99 7 0 0⟩
def subBadSt : State := hold1 subBad (schOn [])
def canJust : State := (hold1 canD (schOn [])).setTask 0 120 { Task.idle with state := 4, queue := 3, cons := 0, startAt := 1 }
def canAns : State := (canSt 2).setTask 0 120 { Task.idle with state := 2, queue := 3, joinCls := clsResponse, joinAt := 1 }
def due : State := ((schOn []).setTask 0 120 { Task.idle with state := 1, queue := 3, dlist := 4 }).setDelay 0 4 [120]
def nextUp : State := flds [(F.SCH_CONSk_NXT_VALID 0 0, 1), (F.SCH_CONSk_NXT_TASK 0 0,
    120)] ((schOn []).setTask 0 120 { Task.idle with state := 3, queue := 3 })
def runOn (k st : Nat) (fs : List (Fld × Nat)) (x : Task) : State := flds ([(F.SCH_CONSk_CUR_VALID 0 k, 1), (F.SCH_CONSk_CUR_TASK 0 k,
    120)] ++ fs) ((schOn []).setTask 0 120 { x with state := st, queue := 3, cons := k })
def afh : State := runOn 0 3 [(F.SCH_CONSk_CFG_MODE 0 0, 1), (F.SCH_CONSk_STATUS_IRQ 0 0, 1)] Task.idle
def dlTask : State := ((runOn 0 4 [] { Task.idle with deadline := 1, dtl := 0 }).setTl 0 { TlSt.init with frame := 5 })
def afhHw : State := runOn 4 3 [(F.SCH_CONSk_CFG_MODE 0 4, 1), (F.SCH_CONSk_STATUS_IRQ 0 4, 1)] Task.idle
def nextStop : State := nextUp.setTask 0 120 { Task.idle with state := 3, queue := 3, stop := some (2, 0xC009) }
def decTask : Task := { Task.idle with words := [0x00000120, 7, 0, 0, 0, 0, 0, 0, 500, 0, 0, 0, 0, 0, 0, 0] }
def dlReady : State := dlTask.setTask 0 120 { Task.idle with state := 2, deadline := 1, dtl := 0 }
def fEnt (ssrc rate burst : Word) : List Word := [0xEF000001, 0x00001388, ssrc, 5, rate, burst]
def fStage (ws : List Word) (s : State) : State := (List.range 6).foldl (fun s i => s.setReg (R.FLOW_STAGE i) (ws.getD i 0)) s
def fOld : FlowEnt := ⟨fEnt 9 1000 2000, 90000000, 3, some 0xFFFFFFFE, 7, 0xFFFFFFFF, 4⟩
def fIdx (w : Nat) : Nat := bucketOf (fEnt 9 1000 2000) * 4 + w
def fHas (w : Nat) (s : State) : State := (fStage (fEnt 9 2000 1500) s).setFlow (fIdx w) (some fOld)
def v08x913 : State := ((fStage (fEnt 9 1000 1500) State.reset).setFlow (fIdx 0) (some { fOld with words := fEnt 10 1 1500 })).setFlow (fIdx 1) (some
    { fOld with words := fEnt 11 1 1500 })
def fUsed : State := fHas 0 (flds [(F.ING_CHc_CFG_EN 5, 1), (F.ING_CHc_SRC_FLOW 5, fIdx 0)])
def fZero : State := fStage (fEnt 9 0 1500) State.reset
def pkt (udp seq bytes : Nat) : IngPkt := ⟨3, 0xEF000001, udp, bytes, 2, 96, 9, seq, 100, 4, [⟨0, 0, [(1, 2, 3), (4, 5, 6)], true⟩], [], [], none⟩
def mac3 (s : State) : State := flds [(F.LANE_ETHm_STATUS_UP 3, 1)] s
def sdiCh : State := flds [(F.ING_CHc_CFG_EN 5, 1), (F.ING_CHc_SRC_KIND 5, 2), (F.ING_CHc_FMT_WIDTH 5, 1920), (F.ING_CHc_FMT_HEIGHT 5, 1080),
    (F.LT_TLn_STATUS_STATE 0, 2), (F.LT_TLn_CFG_BASE 0, 25), (F.LT_TLn_CFG_TPF 0, 96)]
def sdi (l : Option Nat) (num place : Nat) : SdiLine := ⟨4, l, [(1, 2, 3)], true, true, num, place, 100, none, [], []⟩
def sdiUpCh : State := flds [(F.LANE_n_STATUS_STAGE 0, 5)] sdiCh
def lineSt : State := { (sdiCh.setTl 0 { TlSt.init with frame := 8 }) with lt := { (sdiCh.setTl 0 { TlSt.init with frame := 8 }).lt with chFrame := [(5, 8)] } }
def v08x914 : State := { lineSt with lt := { lineSt.lt with chFrame := [(5, 7)] } }
def cmpS (fs : List (Fld × Nat)) : State := flds ([(F.CMP_SLOTs_CFG_EN 1 0, 1), (F.CMP_SLOTs_CFG_CHANNEL 1 0, 5), (F.CMP_SLOTs_CFG_COMP_MASK 1 0, 3),
    (F.CMP_SLOTs_Ll_CFG_EN 1 0 2, 1), (F.CMP_SLOTs_Ll_CFG_SRC 1 0 2, 1), (F.CMP_SLOTs_Ll_CFG_POLICY 1 0 2, 2), (F.CMP_SLOTs_Ll_WAIT_LINES 1 0 2,
    3)] ++ fs) lineSt
def snapOf (x : SlotSt) (s : State) : State := s.setSlotSt 1 0 { x with snap := mapKeep (inSlot 1 0) s.regs }
def lsWs : List Word := [0x00000110, 7, 0x21000000, 40, 0, 0, 0x12, 0, 0, 0x4000, 0, 0x00100020, 128, 0, 0, 0]
def lsD : Desc := ⟨0, lsWs⟩
def lsSt (d : Desc) : State := ringWith { RingSt.init with fetched := [d] } (flds [(F.RING_r_CFG_LOG2 0, 4), (F.RING_r_STATUS_STATE 0, 1),
    (F.RING_r_CTL_EN 0, 1)] (snapOf SlotSt.init (cmpS [])))
def lsBad : Desc := ⟨0, lsWs.set 12 127⟩
def lsJob : Job := ⟨0, 0, lsWs, .running, Wm.zero, none, false, none, none, []⟩
def lsRun : State := { ((lsSt lsD).setLayerSt 1 0 2 { LayerSt.init with queue := [0], waiting := true, ready := some ⟨3, 4, none, false, false, 0, 0, 3, 4, 0⟩ }) with host := { (lsSt lsD).host with jobs := [(0, some lsJob)] } }
def v09x916 : State := lsRun.setTl 0 { TlSt.init with frame := 9 }
def lsNone : State := (lsRun.setLayerSt 1 0 2 { LayerSt.init with queue := [0], waiting := true }).setTl 0 { TlSt.init with frame := 9 }
def bandSt : State := ((snapOf { SlotSt.init with up := true } (cmpS [(F.ING_CHc_FMT_WIDTH 5, 4), (F.ING_CHc_FMT_HEIGHT 5,
    16)])).setIngCh 5 { IngCh.init with next := 8 }).setTl 0 { TlSt.init with frame := 9 }
def pastSt : State := bandSt.setSlotSt 1 0 { bandSt.slotSt 1 0 with past := some ⟨(bandSt.slotSt 1 0).snap, [], [], 1, 0, (bandSt.ingCh 5).shown, 8⟩ }
def runsSt : State := snapOf SlotSt.init (cmpS [(F.ING_CHc_FMT_WIDTH 5, 4), (F.ING_CHc_FMT_HEIGHT 5, 16), (F.CMP_SLOTs_Ll_CFG_STATIC 1 0 2, 1),
    (F.CMP_SLOTs_Ll_CFG_EN 1 0 3, 1), (F.CMP_SLOTs_Ll_CFG_SRC 1 0 3, 1), (F.CMP_SLOTs_Ll_CFG_STATIC 1 0 3, 1)])
def coefSt (dir ph tap inc : Nat) (s : State) : State := flds [(F.CMP_COEF_SEL_COMP 1, 1), (F.CMP_COEF_SEL_SET 1, 0), (F.CMP_COEF_SEL_DIR 1, dir),
    (F.CMP_COEF_SEL_PHASE 1, ph), (F.CMP_COEF_SEL_TAP 1, tap), (F.CMP_COEF_SEL_AUTOINC 1, inc)] s
def lutSt (tab i inc : Nat) (s : State) : State := flds [(F.LUT_Ck_SEL_BANK 1 1, 1), (F.LUT_Ck_SEL_TABLE 1 1, tab), (F.LUT_Ck_SEL_INDEX 1 1, i),
    (F.LUT_Ck_SEL_AUTOINC 1 1, inc), (F.LUT_Ck_DATA0_V0 1 1, 0x1234), (F.LUT_Ck_DATA0_V1 1 1, 0x3FFF)] s
def encR (fs : List (Fld × Nat)) (s : State) : State := flds ([(F.ENC_STRi_CFG_EN 1 0, 1), (F.ENC_STRi_CFG_CODEC 1 0, 0), (F.ENC_STRi_SIZE_W 1 0,
    128), (F.ENC_STRi_SIZE_H 1 0, 128), (F.ENC_STRi_STATUS_STATE 1 0, 2), (F.ING_CHc_FMT_WIDTH 5, 128), (F.ING_CHc_FMT_HEIGHT 5, 128),
    (F.CMP_SLOTs_CFG_EN 1 0, 1), (F.CMP_SLOTs_CFG_CHANNEL 1 0, 5)] ++ fs) s
def picA : PicSt := ⟨7, 7, 0, 0, true, some 3, 7, 0, 0, false, false, 0, [⟨5000, 0, 0, 0, 0, false, false, 30, [], 0, 0⟩], [], 1, false, MotPic.init,
    [], [(5, 0)], 0, none, [], ⟨8, true, 8, true, 2⟩, none, [], false⟩
def picRun (p : PicSt) : State := ((encR [(F.SCH_CONSk_CUR_VALID 1 0, 1), (F.SCH_CONSk_CUR_TASK 1 0,
    9)] lineSt).setEncSt 1 0 { EncSt.init with pic := 8, pics := [p] }).setTask 1 9 { Task.idle with state := 4, stream := 40 }
def small : State := flds [(F.ENC_STRi_SIZE_W 1 0, 16), (F.ENC_STRi_SIZE_H 1 0, 16)] (picRun picA)
def coarseSt : State := { small with pool := { small.pool with coarse := [(2051, (List.range 4).flatMap fun b => (List.range 4).map fun a => (b * 4096 + a, a + b))] } }
def coarseNoScd : State := flds [(F.MES_STRi_CFG_SCD 1 0, 0)] coarseSt
def picB : PicSt := { picA with mot := { MotPic.init with blocks := [(0, ⟨0, 0, 0, 1, 2, 3, 4, 0⟩)] } }
def hintWs (n : Word) : List Word := [0x00000111, 7, 0x21000000, 40, 0, 0, n, 0, 0, 0, 0, 0, 0, 0, 0, 0]
def hintSt (d : Desc) (s : State) : State := ringWith { RingSt.init with fetched := [d] } (flds [(F.RING_r_CFG_LOG2 0, 4), (F.RING_r_STATUS_STATE 0,
    1), (F.RING_r_CTL_EN 0, 1)] s)
def hintD (n : Word) : Desc := ⟨0, hintWs n⟩
def part0 : RowPart := ⟨7, 0, 0, [[1, 2, 3]]⟩
def lateP : State := (picRun picA).setPkt 40 { PktStr.init with late := [(7, 0)] }
def v10x917 : State := (picRun picA).setTl 0 { TlSt.init with frame := 6 }
def heldP (m : Nat) : State := (picRun picA).setPkt 40 { PktStr.init with modes := [(7, m)] }
def v10x918 : State := (picRun picA).setTl 0 { TlSt.init with frame := 90 }
def v10x919 : State := (picRun picA).setTl 0 { TlSt.init with frame := 7 }
def failedSide : State := flds [(F.PAIR_n_CFG_EN 3, 1), (F.PAIR_n_CFG_KIND 3, 0), (F.PAIR_n_SIDE_A_PATH 3, 0x21000000), (F.PAIR_n_SIDE_B_PATH 3,
    0x22000000), (F.PAIR_n_STATUS_ROLE_A 3, 5), (F.PAIR_n_STATUS_ROLE_B 3, 3)] (picRun picA)
def eobjSt (kind idx own : Nat) (s : State) : State := flds [(F.POOL_EOBJ_SEL_KIND 1, kind), (F.POOL_EOBJ_SEL_INDEX 1, idx),
    (F.POOL_EOBJ_SEL_NEW_OWNER 1, own)] s
def pooled (s : State) : State := s.setBuf 1 3 ⟨2, false, false, 0, 0, 255, 40, 6, 100, 6, none⟩
def picRun' : State := (picRun picA).setEncSt 1 0 { EncSt.init with pic := 8, pics := [picA], refs := [⟨3, 6, 0⟩] }
def v11x920 : State := eobjSt 0 3 0x3FF { (pooled picRun') with pool := { (pooled picRun').pool with busy := [(65539, 65539)] } }
def decWs (n : Word) : List Word := [0x00000120, 7, BitVec.ofNat 32 (pDec 1), 40, 0, 0, 0x1000, 0, n, 0, 0, 0, 0, 0, 0, 0]
def decR (fs : List (Fld × Nat)) : State := flds ([(F.CMP_SLOTs_CFG_EN 1 0, 1), (F.CMP_SLOTs_CFG_CHANNEL 1 0, 5), (F.DEC_STRi_CFG_EN 1 0, 1),
    (F.DEC_STRi_CFG_DPB 1 0, 4), (F.DEC_STRi_CFG_LEVEL 1 0, 6), (F.DEC_STRi_SIZE_W 1 0, 1920), (F.DEC_STRi_SIZE_H 1 0, 1080), (F.DEC_CFG_QUEUE 1, 4),
    (F.SCH_Qq_CFG_EN 1 4, 1), (F.SCH_Qq_CFG_BIND 1 4, 2), (F.SCH_Qq_RANGE_BASE 1 4, 100), (F.SCH_Qq_RANGE_COUNT 1 4, 2), (F.SCH_CONSk_CFG_EN 1 12, 1),
    (F.SCH_CONSk_CFG_BIND 1 12, 2)] ++ fs) lineSt
def decD (n : Word) : Desc := ⟨0, decWs n⟩
def decPic (m : Bool) : DecPic := ⟨false, true, false, false, false, m, [], none, 9, 9, [], [], [], true, false, true, [], 100⟩
def decRun (st : Nat) : State := (((decR [(F.DEC_STRi_STATUS_STATE 1 0, st), (F.SCH_CONSk_CUR_VALID 1 12, 1), (F.SCH_CONSk_CUR_TASK 1 12,
    100)]).setTask 1 100 { Task.idle with state := 4, stream := 40, queue := 4, cons := 12 }).setBuf 1 3
    { BufD.init with owner := 40, kind := 1 }).setDecSt 1 0 { DecSt.init with shows := [(3, 0)], await := [] }
def decPicB : DecPic := { decPic false with begins := true }
def held5 : State := (decRun 2).setDecSt 1 0 { DecSt.init with shows := [(3, 0x7000000000000000), (4, 0)] }
def frm (b : Nat) : EthFrame := ⟨65535, b, 5, false, [], []⟩
def portsSt (fs : List (Fld × Nat)) : State := (flds ([(F.LANE_ETHm_STATUS_UP 2, 1), (F.LANE_ETHm_CFG_EN 2, 1), (F.WHL_Qq_SHAPE_EN 17, 1),
    (F.WHL_Qq_SHAPE_RATE 17, 1000), (F.WHL_Qq_SHAPE_BURST 17, 2)] ++ fs)).setClassQ 17 { ClassQ.init with frames := [frm 700, frm 800], tokens := -500 }
def busyP : State := (portsSt []).setSending 2 (some (frm 900))
def wheelSt : State := { (portsSt []) with ptp := { State.reset.ptp with clk := 700 * 2 ^ 32 }, whl := { (portsSt []).whl with entries := [(5, 2048 + 17), (3, 7), (90, 8)] } }
def v11x922 : State := { wheelSt with whl := { wheelSt.whl with entries := [(90, 8)] } }
def gateSt (fs : List (Fld × Nat)) : State := { (flds ([(F.GATE_p_ADMIN_LEN_LEN 2, 2), (F.GATE_p_ADMIN_CYCLE_NS 2, 1000000), (F.GATE_p_ADMINe_INTERVAL 2 0, 500), (F.GATE_p_ADMINe_INTERVAL 2 1, 600), (F.PTP_CLK_STATUS_SET, 1)] ++ fs)) with ptp := { State.reset.ptp with sec := 7, clk := 12345 * 2 ^ 32 } }
def pendG (b : Nat) : State := (gateSt [(F.GATE_p_STATUS_PENDING 2, 1), (F.GATE_p_CTL_EN 2,
    1)]).setGate 2 { GateSt.init with pend := [0x000001F4, 0x03000258], pendCycle := 1000000, pendBase := b }
def v11x924 : State := (gateSt []).setGate 2 { GateSt.init with idx := some 1, began := 7000012000 }
def v11x925 : State := (gateSt []).setGate 2 { GateSt.init with idx := some 1, began := 7000013000 }
def v11x926 : State := (gateSt []).setGate 2 { GateSt.init with startAt := 7000012000 }
def audS (fs : List (Fld × Nat)) (x : AudSt) : State := (flds ([(F.AUD_STRa_STATUS_STATE 9, 1), (F.AUD_STRa_CFG_EN 9, 1), (F.AUD_STRa_CFG_LAT 9, 4),
    (F.AUD_STRa_MASK_LO_MASK 9, 3), (F.LT_TLn_STATUS_STATE 0, 2), (F.LT_TLn_CFG_BASE 0, 25), (F.LT_TLn_CFG_TPF 0, 96), (F.LT_TLn_CTL_EN 0,
    1)] ++ fs)).setAudStr 9 x
def v11x927 : State := audS [] { AudSt.init with m0 := 100000 }
def v11x928 : State := (audS [(F.AUD_STRa_CFG_SRC 9, 1)] { AudSt.init with n := 4 }).setTl 0 { TlSt.init with frame := 9 }
def port3 (fs : List (Fld × Nat)) (n : Nat) : State := (flds ([(F.AUD_Pp_CFG_EN 3, 1)] ++ fs)).setAudStore 3 { AudStore.init with fill := n }
def fr2 : List AudSamp := [⟨5, 16⟩, ⟨6, 0⟩]
def v11x929 : State := (port3 [] 32).setAudStore 19 { AudStore.init with fill := 2, frames := [(77, fr2)] }
def v11x930 : State := (port3 [] 32).setAudStore 19 { AudStore.init with fill := 0 }
def idxSt (fs : List (Fld × Nat)) : State := flds ([(F.SCH_CONSk_NXT_VALID 1 12, 1), (F.SCH_CONSk_NXT_TASK 1 12, 100), (F.DEC_CFG_QUEUE 1, 4),
    (F.SCH_Qq_CFG_EN 1 4, 1), (F.SCH_Qq_CFG_BIND 1 4, 2), (F.SCH_CONSk_CFG_EN 1 12, 1), (F.SCH_CONSk_CFG_BIND 1 12, 2)] ++ fs)
def inTask (i st : Nat) : Task := { Task.idle with state := st, queue := 4, desc := true, words := decWs 500, stream := 40, idx := i }
def pairS (tw ra rb : Nat) (fs : List (Fld × Nat)) : State := flds ([(F.PAIR_n_CFG_EN 3, 1), (F.PAIR_n_CFG_KIND 3, tw), (F.PAIR_n_SIDE_A_PATH 3,
    0x21000000), (F.PAIR_n_SIDE_B_PATH 3, 0x22000000), (F.PAIR_n_STATUS_ROLE_A 3, ra), (F.PAIR_n_STATUS_ROLE_B 3, rb), (F.PAIR_n_TERM_TERM 3, 7),
    (F.PAIR_n_LEASE_LEASE_MS 3, 500), (F.PAIR_n_ID_ID 3, 77), (F.TWIN_CFG_EN, 1), (F.TWIN_CFG_WIT_KIND, 1), (F.TWIN_STATUS_LINK, 2)] ++ fs)
def suspS (l : List Nat) (seen : List Nat) : State := (pairS 0 3 1 []).setPair 3 { PairSt.init with susp := l, seen := seen }
def refHeld : State := { (suspS [] []) with rst := { State.reset.rst with holds := [(63, 0x22000000), (5, 0x21000000)] } }
def hbf : HbFrame := ⟨[(0, 0, 0), (0, 0, 0), (0, 0, 0), (3, 7, 400)], [true]⟩
def miss3 (ra : Nat) : State := { (pairS 1 ra 3 []) with red := { State.reset.red with misses := 3 } }
def askedS (fs : List (Fld × Nat)) : State := (pairS 1 3 1 fs).setPair 3 { PairSt.init with asked := true, leaseEnd := 7 }
/-- A witness message of type k with its TAG under the key of reset. -/
def wm1_7_0 : WitMsg := ⟨77, 5, 7, 9, 400, 0, 0, 0x8F559349A430C128⟩
def wm2_7_0 : WitMsg := ⟨77, 5, 7, 9, 400, 0, 0, 0x4A6E22A39A3877CB⟩
def wm3_7_0 : WitMsg := ⟨77, 5, 7, 9, 400, 0, 0, 0x22A40D461DA59B63⟩
def wm4_7_0 : WitMsg := ⟨77, 5, 7, 9, 400, 0, 0, 0xDEC510F9A19DABA1⟩
def wm5_7_0 : WitMsg := ⟨77, 5, 7, 9, 400, 0, 0, 0xA2048168E0D708DB⟩
def wm7_7_0 : WitMsg := ⟨77, 5, 7, 9, 400, 0, 0, 0x21F323CBB8BFF209⟩
def wm8_7_0 : WitMsg := ⟨77, 5, 7, 9, 400, 0, 0, 0xE515C5E83E47D56D⟩
def wm9_7_0 : WitMsg := ⟨77, 5, 7, 9, 400, 0, 0, 0xC951C9BBE4F6B599⟩
def wm2_8_0 : WitMsg := ⟨77, 5, 8, 9, 400, 0, 0, 0x0C9655096B409685⟩
def wm6_8_0 : WitMsg := ⟨77, 5, 8, 9, 400, 0, 0, 0x9E29E286FF20C0C8⟩
def wm8_8_1 : WitMsg := ⟨77, 5, 8, 9, 400, 1, 0, 0x3CFE2DCBB0984486⟩
def w12s (ra : Nat) (x : PairSt) (miss : Nat) : State := { ((pairS 1 ra 3 []).setPair 3 x) with cycle := 1000, red := { ((pairS 1 ra 3 []).setPair 3 x).red with misses := miss } }
def v12x932 : State := w12s 3 { PairSt.init with plan := some (0, 5, false) } 0
def v12x933 : State := w12s 1 { PairSt.init with peerEnd := 2000 } 4
def v12x934 : State := w12s 1 { PairSt.init with plan := some (0, 5, false) } 0
def v12x935 : State := w12s 1 { PairSt.init with promo := some 8 } 4
def v12x936 : State := w12s 5 { PairSt.init with promo := some 8 } 4
def mbox : State := flds [(F.TWIN_CFG_WIT_KIND, 2)] (w12s 3 PairSt.init 0)
def witS (x : WitSt) : State := flds [(F.TWIN_CFG_WIT_KIND, 3), (F.TWIN_CFG_EN, 1)] ({ State.reset with cycle := 5000 }.setWit 77 x)
def v12x937 : State := witS { WitSt.init with active := some 5, term := 6 }
def v12x938 : State := witS { WitSt.init with active := some 4, term := 6 }
def v12x939 : State := witS { WitSt.init with active := some 4, probing := true }
def v12x940 : State := witS { WitSt.init with active := some 5, standby := some 4, promote := true }
def v12x941 : State := witS { WitSt.init with active := some 5, standby := some 4 }
def probed (a : List Nat) (l : Nat) : State := witS { WitSt.init with active := some 5, standby := some 4, term := 7, probing := true, acked := a, leaseEnd := l }
def twS (ra rb : Nat) (fs : List (Fld × Nat)) : State := flds fs (pairS 1 ra rb [(F.CMP_SLOTs_CFG_EN 1 0, 1), (F.CMP_SLOTs_CFG_CHANNEL 1 0, 5),
    (F.CMP_SLOTs_CFG_COMP_MASK 1 0, 1), (F.ENC_STRi_CFG_EN 1 0, 1), (F.PAIR_n_CFGCRC_CRC 3, 99)])
def down : State := flds [(F.TWIN_STATUS_LINK, 1)] (twS 1 3 [])
def caps (crc a : Nat) : CapsFrame := ⟨0x1122334455667788, [(0, 0, 0), (0, 0, 0), (0, 0, 0), (crc, a, 0x21000000)]⟩
def cursW (c : Word) : List Word := [40] ++ List.replicate 18 0 ++ [c]
def swS (fs : List (Fld × Nat)) : State := flds ([(F.LT_TLn_STATUS_STATE 0, 2), (F.LT_TLn_CTL_EN 0, 1), (F.LT_TLn_CFG_BASE 0, 25),
    (F.LT_TLn_CFG_TPF 0, 96), (F.PAIR_n_AT_LO_STAMP 3, 0), (F.PAIR_n_AT_HI_STAMP 3, 1)] ++ fs) (pairS 0 3 1 [])
def swTwin : State := flds [(F.LT_TLn_STATUS_STATE 0, 2), (F.LT_TLn_CTL_EN 0, 1), (F.LT_TLn_CFG_BASE 0, 25), (F.LT_TLn_CFG_TPF 0, 96),
    (F.PAIR_n_AT_LO_STAMP 3, 0), (F.PAIR_n_AT_HI_STAMP 3, 1)] (pairS 1 1 3 [])
def plan (s : State) : State := s.setPair 3 { PairSt.init with plan := some (0, 0x100000000, false), old := some 0 }
def v13x942 : State := (plan (swS [(F.PAIR_n_STATUS_DRILL 3, 1)])).setTl 0 { TlSt.init with frame := 20 }
def hbmS (st : Nat) (fs : List (Fld × Nat)) : State := flds ((F.HBM_STATUS_STATE 1, st) :: fs)
def v14x943 : State := (hbmS 2 [(F.HBM_CTL_EN 1, 1), (F.HBM_CTL_REFRESH 1, 1)]).setHbm 1 { HbmSt.init with hotIv := true }
def rhS : State := (hbmS 2 [(F.HBM_CTL_REFRESH 1, 1), (F.HBM_CNT_REF_REFRESHES 1,
    0xFFFFFFFF)]).setHbm 1 { HbmSt.init with acts := [(3, [(1, 10, 4096), (2, 20, 5), (4, 30, 9)])], flags := [(3, [(1, 10), (2, 20), (4, 30)])], hotT := true }
def rhOne : State := { (rhS.setHbm 1 { (rhS.hbmSt 1) with flags := [(3, [(1, 10), (2, 20), (4, 30)])], rows := [(1, 2)] }) with cycle := 20000000 }
def v14x944 : State := (hbmS 1 []).setHbm 1 { HbmSt.init with cool := 9, hotT := true, seen := true }
def pl : Place := ⟨5, 6, 7, 8⟩
def rowOpen : State := rhS.setHbm 1 { (rhS.hbmSt 1) with rows := [(7 * 32 + 6, 5)] }
def hdmS (st : Nat) : State := hbmS st [(F.HIF_STATUS_MODE, 1), (F.HIF_STATUS_DECODER, 1), (F.HIF_HDMd_SIZE_GIB 1, 1)]
def trnS (op : Nat) (lp : Bool) : State := (hbmS 1 [(F.HBM_TRAIN_STATUS_BUSY 1, 1), (F.HBM_TRAIN_CTL_OP 1, op), (F.HBM_TRAIN_CTL_PC 1,
    3)]).setHbm 1 { HbmSt.init with loop := lp, failed := [(2, 5)] }
def lnS (st : Nat) (fs : List (Fld × Nat)) : State := flds ([(F.LANE_n_STATUS_STAGE 20, st), (F.LANE_n_CFG_EN 20, 1)] ++ fs)
def v15x946 : State := (lnS 4 []).setLane 20 { LaneSt.init with fails := 2 }
def v15x947 : State := (lnS 7 [(F.LANE_n_PAT_CHK_EN 20, 1)]).setLane 20 { LaneSt.init with relock := true }
def uciT : State := flds [(F.LANE_UCIk_STATUS_STATE 1, 3), (F.LANE_UCIk_PAT_CHK_EN 1, 1)]
def v15x948 : State := uciT.setLane 101 { LaneSt.init with exch := true }
def uciS (st prev : Nat) : State := (flds [(F.LANE_UCIk_STATUS_STATE 1, st), (F.LANE_UCIk_STATUS_RATE16 1, 1), (F.LANE_UCIk_RETRY_FLIT_RETRY 1,
    0xFFFFFFFF)]).setLane 101 { LaneSt.init with prev := prev }
def crcS (p st bytes : Nat) (fs : List (Fld × Nat)) : State := flds ([(F.CRC_k_CFG_POLY 1 2, p), (F.CRC_k_STATUS_BUSY 1 2, st),
    (F.CRC_k_VALUE_VALUE 1 2, 0xFFFF), (F.CRC_k_SRC_LO_ADDR 1 2, 0x2000010), (F.CRC_k_DST_LO_ADDR 1 2, 0x2000200), (F.CRC_k_LEN_LEN 1 2, bytes)] ++ fs)
def crcRun : State := (crcS 0 1 16 []).setCrcOp 1 2 (some (2, 0x2000010, 0x2000200, 9))
def crcTwin : State := flds [(F.TWIN_CFG_EN, 1)]
def crcDig : State := crcRun.sramPut 1 16 [0x31, 0x32, 0x33, 0x34, 0x35, 0x36, 0x37, 0x38, 0x39]
def recS : State := flds [(F.REC_STREAM_EN, 1), (F.REC_HEAD_SEQ 0, 5)]
def recF : State := flds [(F.REC_FILTf_CFG_EN 0, 1)] recS
def clr (b : Nat) (fs : List (Fld × Nat)) : State := flds ([(F.REC_CLR_STATUS_BUSY, b), (F.REC_CLR_STATUS_FAILS, 7), (F.REC_CLR_UPTO_SEQ, 3),
    (F.REC_HEAD_SEQ 0, 5)] ++ fs)
def recRdD : Desc := ⟨0, [0x00000140, 7, 0, 0x3FF, 0, 0, 0, 2, 1, 0, 0, 0, 0, 0, 0, 0]⟩
def recRdSt : State := holds recRdD
def held17 (l : List (Nat × Nat)) (n p : Bool) (mode : Nat) : State := let s := flds [(F.PWR_MODE_MODE, mode), (F.HBM_STATUS_STATE 2, 2),
    (F.REC_HEAD_SEQ 1, 77)]; { s with rst := { s.rst with holds := l, rstN := n, perst := p } }
def wdtS : State := flds [(F.RST_WDT_CFG_EN 1, 1), (F.RST_WDT_CFG_TIMEOUT_MS 1, 500), (F.RST_CAUSE_SRC 1, 10)]
def wdtDue : State := { wdtS with cycle := 2 ^ 40 }
def grv (p h : Nat) : State := flds [(F.RST_GRVj_PATH_PATH 3, p), (F.RST_GRVj_CTL_HOLD 3, h)]
def grvHeld : State := { grv (mkPath [1, 0]) 1 with rst := { State.reset.rst with holds := [(30, mkPath [1, 0])] } }
def wait17 (nc : List Nat) : State := let s := flds [(F.PWR_MODE_MODE,
    5)]; { s with rst := { s.rst with waiting := [mkPath [1, 0, 2], mkPath [1, 19, 2]], noclk := nc } }
def th (tr : Nat) : State := flds [(F.PWR_THERM_STATUS_TRIPPED 1, tr), (F.PWR_THERM_CFG_TRIP 1, 100), (F.PWR_THERM_CFG_ALARM 1, 60), (F.PWR_MODE_MODE, 5)]
def slot17 (p : Nat) (fs : List (Fld × Nat)) : State := flds ((F.PWR_SLOTj_PATH_PATH 31, p) :: fs)
def slotOff (on : Nat) : State := slot17 (mkPath [1, 12]) [(F.PWR_SLOTj_CTL_EN 31, 1), (F.PWR_SLOTj_CTL_ON 31, on), (F.PWR_MODE_MODE, 5)]
def slotOn : State := { slotOff 1 with rst := { State.reset.rst with domsOff := [(slotOff 0).nextDomain.getD 0] } }
def domUp17 : State := { slotOff 1 with rst := { State.reset.rst with domsOff := [260], domsUp := [260] } }
def md (m : Nat) (fs : List (Fld × Nat)) : State := flds ((F.PWR_MODE_MODE, m) :: fs)
def calib : State := md 4 ((List.range 7).flatMap fun k => [(F.HBM_STATUS_STATE (k + 1), 2), (F.HBM_CTL_MAP_LOCK (k + 1), 1), (F.BOOT_CORES_RUN (k + 1), 1)])
def quar : State := { md 12 [(F.ING_CHc_CFG_EN 5, 1), (F.CMP_SLOTs_CFG_EN 1 2, 1), (F.CMP_SLOTs_CFG_CHANNEL 1 2, 5)] with rst := { State.reset.rst with needReset := [1] } }
def boot18 (src : Nat) : State := flds [(F.PWR_MODE_MODE, 3), (F.BOOT_STRAPS_SRC, src)]
def img18a (k : Nat) : List Byte := wordsBytes ([0x4C474E47, BitVec.ofNat 32 (1 + k * 256), 64, 60] : List Word)
def img18 (k : Nat) : List Byte := img18a k ++ wordsBytes [crc32c (img18a k ++ [0, 0, 0, 0] ++ List.replicate 44 0)] ++ List.replicate 44 0
def mb18 (k : Nat) : State := (flds [(F.BOOT_MBOX_LEN_LEN, 64)] (boot18 1)).sramPut 0 0 (img18 k)
def core18 (b : Nat) (up : List Nat) : State := let s := flds [(F.BOOT_CORES_RUN 1, b)]; { s with rst := { s.rst with coresUp := up } }
def goodCore : State := (core18 0 []).sramPut 1 0 (img18 1)
def spi18 (op dst : Nat) : State := flds [(F.BOOT_SPI_STATUS_BUSY 1, 1), (F.BOOT_SPI_CMD_OPCODE 1, op), (F.BOOT_SPI_DST_ADDR 1, dst), (F.BOOT_SPI_LEN_LEN 1, 3)]
def bootA (op dst : Nat) : State := (((spi18 op dst).wr (F.BOOT_SPI_STATUS_BUSY 1) 0).wr (F.BOOT_SPI_CMD_GO 1) 0).wr (F.BOOT_SPI_STATUS_WP 1) 1
def uci1 (s : State) : State := flds [(F.LANE_UCIk_STATUS_STATE 1, 2)] s
def rf18 (l : List Nat) : State := { State.reset with rst := { State.reset.rst with holds := l.map fun p => (6, p) } }
def heldCore : State := rf18 [mkPath [1, 16, 1]]
def probing : State := lnS 1 [(F.LANE_n_CFG_PROBE 20, 1)]
def trains : State := lnS 2 [(F.LANE_ETHm_CFG_EN 20, 1), (F.LANE_ETHm_CFG_TRAIN 20, 1)]
def checks (k : Nat) : State := lnS 7 [(F.LANE_n_PAT_CHK_EN 20, 1), (F.LANE_n_STATUS_CHK_LOCK 20, k)]
def handed : State := (picRun picA).setTl 0 { TlSt.init with frame := 90 }
def stopD2h : Job := { copyJob 4 with stop := some (1, 0xB011) }
def copyStop2 : State := { (copying 4) with host := { (copying 4).host with jobs := [(0, some stopD2h)] } }
/-- The state in which IngestEvents asks that no slot has taken up a configuration. -/
def frameSt (s : State) : State :=
  let a := { s with lt := { s.lt with chFrame := mapSet (fun _ => 0) s.lt.chFrame 5 10 } }.ingFrameStart 5
  if a.decLost 5 then a.setIngCh 5 { a.ingCh 5 with shown := a.policyPic 5 } else a

/-! ## Values of the spec's worked examples -/

/-- R6: the stamps `1200:563.0` and `1200:563.2048`. -/
theorem test_stamp : mkStamp 1200 563 0 = 0x4B00233000 ∧ mkStamp 1200 563 2048 = 0x4B00233800 := by decide
/-- R9: path 3.2.5. -/
theorem test_path : mkPath [3, 2, 5] = 0x63114000 := by decide
/-- 23_register_map_index.md: LEDG_STR17_RATE of crown 5 and WHL_Q485_SHAPE. -/
theorem test_addresses : (F.LEDG_STRi_RATE_RATE 5 17).reg = 0x14770444 ∧ R.WHL_Qq_SHAPE 485 = 0x682E50 := by decide
/-- R75: ADJ 34,360 makes INCR read 0x02_8000_8638. -/
theorem test_adj : exec (.ptpAdjWrite 34360) noServo = .next (noServo.adjWrite 34360) ∧ (noServo.adjWrite 34360).incr = 0x0280008638 :=
  ⟨rfl, by decide +kernel⟩
/-- R79: 1,234,567,890.4 s stamps as 0x8E65_3800. -/
def clk79 : State := { State.reset with ptp := { State.reset.ptp with sec := 1234567890, clk := 400000000 * 2 ^ 32 } }
theorem test_tstamp : clk79.tstamp = 0x8E653800 := by decide +kernel
/-- 02_line_time.md, channel 12: row 5 and row 33 of frame 1200. -/
def ch12 : State := flds [(F.LT_TLn_CFG_BASE 0, 60), (F.LT_TLn_CFG_DROP 0, 1), (F.LT_TLn_CFG_TPF 0, 1125), (F.LT_CHc_MAP_LINES 12, 2250),
  (F.LT_CHc_DELAY_D 12, 96), (F.LT_CHc_DELAY_TOTAL 12, 1221)]
theorem test_deadlines : ch12.unitStamp 0 (ch12.handover 12 1200 383) = mkStamp 1200 240 0 ∧
    ch12.unitStamp 0 (ch12.wireDeadline 12 1200 383) = mkStamp 1200 802 2048 ∧
    ch12.unitStamp 0 (ch12.handover 12 1200 2159) = mkStamp 1201 3 0 ∧
    ch12.unitStamp 0 (ch12.wireDeadline 12 1200 2159) = mkStamp 1201 565 2048 := by decide +kernel
/-- 16_audio_ports.md: the cadence at frame 1200, and the place of sample 960,961. -/
theorem test_cadence : [1200, 1201, 1202, 1203, 1204].map (ch12.samples 0 48000) = [800, 801, 801, 801, 801] ∧
    ch12.unitStamp 0 (ch12.sampPos 0 48000 960960) = mkStamp 1200 0 0 ∧
    ch12.unitStamp 0 (ch12.sampPos 0 48000 960961) = mkStamp 1200 1 1658 := by decide +kernel
/-- 12_motion_search_and_statistics.md: the record of block (120, 22), but for GEN. -/
theorem test_record : cplxOf 2210 5120 false = 177 ∧
    (⟨-49, 14, 0, 1840, 2210, 5120, 177, 5⟩ : BlkRec).words 4 120 22 = [0x000EFFCF, 0x08A20730, 0x05B11400, 0x2C78] := by decide +kernel
/-- 18_memory_subsystem.md: the place of stack offset 0x3E83_52C0 under XOR-HASH. -/
theorem test_place : placeOf 2 (0x3E8352C0 / 2 ^ 20) (0x3E8352C0 / 64 % 16384) = ⟨1000, 25, 28, 11⟩ := by decide
/-- 20_fabric_and_check_units.md: APPEND and STRIP of "123456789" with POLY 1. -/
def crc9 (op src dst len : Nat) : State := (flds [(F.CRC_k_CFG_POLY 2 3, 1), (F.CRC_k_VALUE_VALUE 2 3, 0xFFFFFFFF), (F.CRC_k_STATUS_BUSY 2 3, 1)]
  (State.reset.sramPut 2 0x1000 [0x31, 0x32, 0x33, 0x34, 0x35, 0x36, 0x37, 0x38, 0x39])).setCrcOp 2 3 (some (op, src, dst, len))
def crcApp : State := (crc9 3 0x2001000 0x2002000 9).crcFinish 2 3
theorem test_crc_append : crcApp.rd (F.CRC_k_VALUE_VALUE 2 3) = 0x1CF96D7C ∧ crcApp.rd (F.CRC_k_RESULT_RESULT 2 3) = 0xE3069283 ∧
    crcApp.rd (F.CRC_k_BYTES_BYTES 2 3) = 9 ∧ (crcApp.fabBytes 2 0x2002009 4).2 = some [0x83, 0x92, 0x06, 0xE3] := by decide +kernel
def crcStr : State := (flds [(F.CRC_k_VALUE_VALUE 2 3, 0xFFFFFFFF)] (crcApp.setCrcOp 2 3 (some (4, 0x2002000, 0, 13)))).crcFinish 2 3
theorem test_crc_strip : crcStr.rd (F.CRC_k_STATUS_MATCH 2 3) = 1 ∧ crcStr.rd (F.CRC_k_STATUS_DONE 2 3) = 1 := by decide +kernel
/-- RFC 4493, example 2: AES-CMAC of one block (notes/assumptions/91.md). -/
theorem test_cmac : aesCmac ([0x2b, 0x7e, 0x15, 0x16, 0x28, 0xae, 0xd2, 0xa6, 0xab, 0xf7, 0x15, 0x88, 0x09, 0xcf, 0x4f, 0x3c].map (BitVec.ofNat 8))
    ([0x6b, 0xc1, 0xbe, 0xe2, 0x2e, 0x40, 0x9f, 0x96, 0xe9, 0x3d, 0x7e, 0x11, 0x73, 0x93, 0x17, 0x2a].map (BitVec.ofNat 8)) =
    [0x07, 0x0a, 0x16, 0xb4, 0x6b, 0x4d, 0x41, 0x44, 0xf7, 0x9b, 0xdd, 0x9d, 0xd0, 0x4a, 0x28, 0x7c] := by decide +kernel
/-- R3, R108: the GX8 has seven crowns, each of 24 GiB. -/
theorem test_reset : State.reset.crowns = 7 ∧ State.reset.rd (F.HIF_HDMd_SIZE_GIB 7) = 24 ∧ State.reset.tlState 0 = 0 := by decide +kernel
/-- The table gives no row bits, so no word spells a command; a step of the empty queue lets a cycle pass. -/
theorem test_step_idle : step State.reset = .next State.reset.idle ∧ State.reset.withFetchWord 32 0 = State.reset := ⟨rfl, rfl⟩
/-- R472, R473: the worked examples of the ball map. -/
theorem test_balls : ballAt 29 1 = .media 43 .txP ∧ ballAt 30 1 = .media 43 .txN ∧ ballAt 29 3 = .media 43 .rxP ∧ ballAt 30 3 = .media 43 .rxN ∧
    ballAt 1 53 = .cxl 9 .txP ∧ ballAt 3 54 = .cxl 9 .rxN ∧ ballAt 1 27 = .cxlRefclkP ∧ ballAt 7 27 = .low .ppsIn ∧ ballAt 8 14 = .low .rstN := by decide
/-- R474: the number of balls of a rail. -/
theorem test_rail_balls : ((List.range 69).flatMap fun r => (List.range 69).filter fun c => r != 0 && c != 0 && ballAt r c == .supply
    .drivers).length = 96 := by
  decide +kernel
/-- 24_package_and_electrical.md: typical and maximum power of the GX2 and the GX8. -/
theorem test_power : typicalPower 1 = 1420 ∧ typicalPower 7 = 6220 ∧ (rootMaxNw + crownMaxNw + 5 * 10 ^ 7) / 10 ^ 8 = 2122 ∧
    (rootMaxNw + 7 * crownMaxNw + 5 * 10 ^ 7) / 10 ^ 8 = 9220 := by decide

/-! ## Witnesses -/

/-! StepRunsFrontCommand -/
theorem witness_StepRunsFrontCommand_2 :
  State.reset.pending = [] := by decide +kernel

/-! ClockCycleAddsIncr -/
theorem witness_ClockCycleAddsIncr :
  State.reset.ptp.clk < 10 ^ 9 * 2 ^ 32 ∧ State.reset.ptp.sec < 2 ^ 48 ∧ State.reset.ptp.clk + State.reset.incr < 10 ^ 9 * 2 ^ 32 := by decide +kernel
theorem witness_ClockCycleAddsIncrb :
  clkPps.ptp.clk < 10 ^ 9 * 2 ^ 32 ∧ clkPps.ptp.sec < 2 ^ 48 ∧ 10 ^ 9 * 2 ^ 32 ≤ clkPps.ptp.clk + clkPps.incr ∧ clkPps.clkSet = true ∧
    clkPps.on F.PTP_PPS_OUT_EN = true := by decide +kernel

/-! StepKeepsCanonical -/
theorem witness_StepKeepsCanonical :
  State.reset.ok = true := by decide +kernel

/-! TimelineControl -/
theorem witness_TimelineControl_1 :
  (tl0 0).tlState 0 = 0 ∧ (∀ (b : State), b ∈ (tl0 0).bases → b.tlCheck 0 true = 0) := by decide +kernel
theorem witness_TimelineControl_2 :
  (tl0 1).tlState 0 = 1 := by decide +kernel
theorem witness_TimelineControl_3 :
  ((tl0 1).tlState 0 = 1 ∨ ((tl0 1).tlState 0 = 2 ∨ (tl0 1).tlState 0 = 3) ∧ (tl0 1).tlInUse 0 = false) ∧ (tl0 1).armedOn 0 = false := by decide +kernel
theorem witness_TimelineControl_4 :
  (tl0Used.tlState 0 = 2 ∨ tl0Used.tlState 0 = 3) ∧ tl0Used.tlInUse 0 = true := by decide +kernel

/-! FreerunEntersHoldover -/
theorem witness_FreerunEntersHoldover :
  (tl0 1).tlState 0 = 1 := by decide +kernel

/-! ReferenceEvents -/
theorem witness_ReferenceEvents_1 :
  (ref2 2).refState 2 = 2 ∧ (ref2 2).jumped 2 = false ∧ (ref2 2).refLaneUp 2 = true ∧
    ((ref2 2).refEdge 2 (meas 5000001 0 false)).isGlitch 2 (meas 5000001 0 false) = false ∧
    ((ref2 2).refEdge 2 (meas 5000001 0 false)).refStep 2 (meas 5000001 0 false) = true := by decide +kernel
theorem witness_ReferenceEvents_1b :
  (ref2 2).refState 2 = 2 ∧ (ref2 2).jumped 2 = false ∧ (ref2 2).refLaneUp 2 = true ∧
    ((ref2 2).refEdge 2 (meas 46000 0 false)).isGlitch 2 (meas 46000 0 false) = false ∧
    ((ref2 2).refEdge 2 (meas 46000 0 false)).refStep 2 (meas 46000 0 false) = false ∧
    ((((ref2 2).refEdge 2 (meas 46000 0 false)).observe 2 (meas 46000 0 false)).wrS (F.SEL_REFk_STATUS_OFFSET 2) ((meas 46000 0 false).freq /
      1000)).mtieBad 2 = false ∧
    (meas 46000 0 false).freq.natAbs ≤ ((((ref2 2).refEdge 2 (meas 46000 0 false)).observe 2 (meas 46000 0 false)).wrS (F.SEL_REFk_STATUS_OFFSET 2)
      ((meas 46000 0 false).freq / 1000)).tol 2 := by decide +kernel
theorem witness_ReferenceEvents_1c :
  (ref2 2).refState 2 = 2 ∧ (ref2 2).jumped 2 = false ∧ (ref2 2).refLaneUp 2 = true ∧
    ((ref2 2).refEdge 2 (meas 46001 0 false)).isGlitch 2 (meas 46001 0 false) = false ∧
    ((ref2 2).refEdge 2 (meas 46001 0 false)).refStep 2 (meas 46001 0 false) = false ∧
    ((((ref2 2).refEdge 2 (meas 46001 0 false)).observe 2 (meas 46001 0 false)).wrS (F.SEL_REFk_STATUS_OFFSET 2) ((meas 46001 0 false).freq /
      1000)).mtieBad 2 = false ∧
    ((((ref2 2).refEdge 2 (meas 46001 0 false)).observe 2 (meas 46001 0 false)).wrS (F.SEL_REFk_STATUS_OFFSET 2) ((meas 46001 0 false).freq /
      1000)).tol 2 < (meas 46001 0 false).freq.natAbs := by decide +kernel
theorem witness_ReferenceEvents_2 :
  (ref2 1).refState 2 = 1 ∧ ((ref2 1).ref 2).inBand = true ∧ (2 ≤ 2 ∨ (ref2 1).on F.PTP_CLK_STATUS_SET = true) := by decide +kernel
theorem witness_ReferenceEvents_3 :
  (ref2 3).refState 2 = 3 := by decide +kernel
theorem witness_ReferenceEvents_4 :
  2 ≤ 2 ∧ (2 ≠ 4 ∧ 2 ≠ 5 ∨ true = false) ∧ ((ref2 3).refState 2 = 2 ∨ (ref2 3).refState 2 = 3) := by decide +kernel
theorem witness_ReferenceEvents_5 :
  (4 = 4 ∨ 4 = 5) := by decide +kernel
theorem witness_ReferenceEvents_6 :
  1 < 2 := by decide +kernel

/-! QualifierTimersReadBack -/
theorem witness_QualifierTimersReadBack :
  (ref2 3).refState 2 = 3 ∧ ((ref2 3).refState 2 = 2 ∨ (ref2 3).refState 2 = 3) ∧ 2 ≤ 2 := by decide +kernel
theorem witness_QualifierTimersReadBackb :
  (ref2 1).refState 2 = 1 ∧ ((ref2 1).ref 2).inBand = true ∧ (2 ≤ 2 ∨ (ref2 1).on F.PTP_CLK_STATUS_SET = true) ∧ (ref2 1).glitchy 2 = false := by decide +kernel

/-! GlitchIsCountedNotApplied -/
theorem witness_GlitchIsCountedNotApplied :
  (ref2 4).refState 2 ≠ 0 ∧ ((ref2 4).refState 2 = 2 → ((ref2 4).recentGlitches 2).length + 1 ≤ (ref2 4).rd (F.SEL_REFk_QUAL_GLITCH_MAX 2)) ∧
    (ref2 4).jumped 2 = false ∧ (ref2 4).refLaneUp 2 = true ∧ ((ref2 4).refEdge 2 (meas 0 0 true)).isGlitch 2 (meas 0 0 true) = true := by decide +kernel

/-! SelectorWrites -/
theorem witness_SelectorWrites_1 :
  slew.selMode 0 = 2 ∧ ((slew.tl 0).perr + (slew.tl 0).pend).natAbs < 25600000000 := by decide +kernel
theorem witness_SelectorWrites_2 :
  1 ≤ getBits 1 0 14 ∧ getBits 1 0 14 ≤ 10000 := by decide +kernel
theorem witness_SelectorWrites_3 :
  (getBits 0 0 14 = 0 ∨ 10000 < getBits 0 0 14) := by decide +kernel
theorem witness_SelectorWrites_4 :
  (¬∀ (b : State), b ∈ (ref2 3).bases → getBits 74 2 4 ∈ b.candidates 0 ∧ b.refUsable 0 (getBits 74 2 4) = true) ∧ getBits 74 1 1 = 1 := by decide +kernel
theorem witness_SelectorWrites_4b :
  (∀ (b : State), b ∈ (ref2 2).bases → getBits 10 2 4 ∈ b.candidates 0 ∧ b.refUsable 0 (getBits 10 2 4) = true) ∧ getBits 10 1 1 = 1 ∧
    getBits 10 6 1 = 0 ∧
    (getBits 10 1 1 = 0 ∨ ∀ (b : State), b ∈ (ref2 2).bases → getBits 10 2 4 ∈ b.candidates 0 ∧ b.refUsable 0 (getBits 10 2 4) = true) := by decide +kernel

/-! StepsAndMinutes -/
theorem witness_StepsAndMinutes_1 :
  stepped.selMode 0 ≠ 0 ∧ ((stepped.tl 0).pend + (0 : Word).toInt * 390625).natAbs ≤ 25600000000000000 := by decide +kernel
theorem witness_StepsAndMinutes_2 :
  (ref2 2).selMode 1 = 0 := by decide +kernel
theorem witness_StepsAndMinutes_3 :
  stepped.selMode 0 ≠ 0 ∧ 25600000000000000 < ((stepped.tl 0).pend + (1 : Word).toInt * 390625).natAbs := by decide +kernel
theorem witness_StepsAndMinutes_4 :
  60000000 * (minuteUp.lt.minute + 1) ≤ minuteUp.usec 0 := by decide +kernel
theorem witness_StepsAndMinutes_5 :
  (ref2 2).usec 0 < 60000000 * ((ref2 2).lt.minute + 1) := by decide +kernel

/-! PtpSyncPairs -/
theorem witness_PtpSyncPairs_1 :
  (ptpM 8).hears 0 (↑(syncM 9 true (-7)).mac) (syncM 9 true (-7)).domain = true ∧ -7 ≤ (syncM 9 true (-7)).logInterval ∧
    (syncM 9 true (-7)).logInterval ≤ -1 ∧ ((ptpM 8).portState 0 = 8 ∨ (ptpM 8).portState 0 = 9) ∧
    (ptpM 8).fromMaster 0 (syncM 9 true (-7)).sender = true ∧ (syncM 9 true (-7)).twoStep = true := by decide +kernel
theorem witness_PtpSyncPairs_2 :
  (ptpM 9).hears 0 (↑(syncM 9 false (-1)).mac) (syncM 9 false (-1)).domain = true ∧ -7 ≤ (syncM 9 false (-1)).logInterval ∧
    (syncM 9 false (-1)).logInterval ≤ -1 ∧ ((ptpM 9).portState 0 = 8 ∨ (ptpM 9).portState 0 = 9) ∧
    (ptpM 9).fromMaster 0 (syncM 9 false (-1)).sender = true ∧ (syncM 9 false (-1)).twoStep = false := by decide +kernel
theorem witness_PtpSyncPairs_3 :
  (ptpM 9).hears 0 (↑(syncM 9 false 0).mac) (syncM 9 false 0).domain = true ∧ (ptpM 9).fromMaster 0 (syncM 9 false 0).sender = true ∧
    ((ptpM 9).inst 0).waitSeq = some ((syncM 9 false 0).seq, 50) := by decide +kernel
theorem witness_PtpSyncPairs_4 :
  (ptp0 9).hears 0 (↑(syncM 9 false 0).mac) (syncM 9 false 0).domain = true ∧
    ((syncM 9 false 0).logInterval < -7 ∨ -1 < (syncM 9 false 0).logInterval) := by decide +kernel

/-! PtpMasterAndPathDelay -/
theorem witness_PtpMasterAndPathDelay_1 :
  (ptp0 4).hears 0 (↑annM.mac) annM.domain = true ∧ -3 ≤ annM.logInterval ∧ annM.logInterval ≤ 1 ∧ annM.steps < 255 ∧
    ((ptp0 4).inst 0).parent = none ∧ ((ptp0 4).inst 0).foreign = [] := by decide +kernel
theorem witness_PtpMasterAndPathDelay_2 :
  (ptpM 9).hears 0 (↑mastB.mac) mastB.domain = true ∧ -3 ≤ mastB.logInterval ∧ mastB.logInterval ≤ 1 ∧ mastB.steps < 255 ∧
    ((ptpM 9).inst 0).parent = some mast ∧ ((ptpM 9).inst 0).foreign = [mast] ∧ mast.sender ≠ mastB.sender := by decide +kernel
theorem witness_PtpMasterAndPathDelay_3 :
  (ptp0 9).on (F.PTP_n_CFG_EN 0) = true ∧ ((ptp0 9).portState 0 = 8 ∨ (ptp0 9).portState 0 = 9) := by decide +kernel
theorem witness_PtpMasterAndPathDelay_4 :
  (ptpM 9).hears 0 (delayM.mac) delayM.domain = true ∧ delayM.mine = true ∧ (ptpM 9).fromMaster 0 delayM.sender = true ∧ -7 ≤ delayM.logInterval ∧
    delayM.logInterval ≤ 5 ∧ ((ptpM 9).inst 0).t3 = some 1000 ∧ delayM.seq = ((ptpM 9).inst 0).dreqSeq := by decide +kernel
theorem witness_PtpMasterAndPathDelay_5 :
  followed.on (F.PTP_n_CFG_EN 0) = true ∧ (followed.inst 0).parent.isSome = true := by decide +kernel

/-! PtpClockControl -/
theorem witness_PtpClockControl_1 :
  getBits 7 4 1 = 0 ∧ State.reset.clkSet = false := by decide +kernel
theorem witness_PtpClockControl_2 :
  getBits 8 4 1 = 0 ∧ (clkSet []).clkSet = true := by decide +kernel
theorem witness_PtpClockControl_3 :
  getBits 5 3 1 = 0 ∧ (clkSet []).rearmBlocked = false ∧
    ((clkSet []).clkSet = false ∨ getBits 5 1 1 = (clkSet []).ptpSrc ∨ (clkSet []).srcNear (getBits 5 1 1) = true) := by decide +kernel
theorem witness_PtpClockControl_4 :
  getBits 16 4 1 = 1 ∧ (clkSet [(F.PTP_CLK_SET_NS_NS, 5)]).rearmBlocked = false ∧
    ((clkSet [(F.PTP_CLK_SET_NS_NS, 5)]).clkSet = false ∨ getBits 16 1 1 = (clkSet [(F.PTP_CLK_SET_NS_NS, 5)]).ptpSrc ∨ (clkSet [(F.PTP_CLK_SET_NS_NS,
      5)]).srcNear (getBits 16 1 1) = true) := by decide +kernel
theorem witness_PtpClockControl_5 :
  (flds [(F.SEL_PRIOe_REF 0, 5)] (ref2 2)).rearmBlocked = true := by decide +kernel
theorem witness_PtpClockControl_6 :
  (State.reset.clkSet = false ∨ getBits 2 1 1 = State.reset.ptpSrc ∨ State.reset.srcNear (getBits 2 1 1) = true) := by decide +kernel
theorem witness_PtpClockControl_7 :
  (clkSet [(F.PTP_CLK_CTL_SRC, 1), (F.PTP_n_STATUS_PORT_STATE 0, 4)]).clkSet = true ∧
    getBits 0 1 1 ≠ (clkSet [(F.PTP_CLK_CTL_SRC, 1), (F.PTP_n_STATUS_PORT_STATE 0, 4)]).ptpSrc ∧
    (clkSet [(F.PTP_CLK_CTL_SRC, 1), (F.PTP_n_STATUS_PORT_STATE 0, 4)]).srcNear (getBits 0 1 1) = false := by decide +kernel

/-! AdjWriteRules -/
theorem witness_AdjWriteRules :
  (flds [(F.PTP_CLK_CTL_SERVO, 1)]).rd F.PTP_CLK_CTL_SERVO = 1 := by decide +kernel
theorem witness_AdjWriteRulesb :
  noServo.rd F.PTP_CLK_CTL_SERVO = 0 ∧ ((34360 : Word).toInt).natAbs ≤ 5368709 := by decide +kernel
theorem witness_AdjWriteRulesc :
  noServo.rd F.PTP_CLK_CTL_SERVO = 0 ∧ 5368709 < ((5368710 : Word).toInt).natAbs := by decide +kernel

/-! ClockReadAndPps -/
theorem witness_ClockReadAndPps_2 :
  (clkSet [(F.PTP_PPS_OUT_EN, 1), (F.PTP_PPS_OUT_WIDTH, 10)]).ptp.clk < (clkSet [(F.PTP_PPS_OUT_EN, 1), (F.PTP_PPS_OUT_WIDTH, 10)]).incr ∧
    (clkSet [(F.PTP_PPS_OUT_EN, 1), (F.PTP_PPS_OUT_WIDTH, 10)]).clkSet = true ∧
    (clkSet [(F.PTP_PPS_OUT_EN, 1), (F.PTP_PPS_OUT_WIDTH, 10)]).on F.PTP_PPS_OUT_EN = true := by decide +kernel

/-! LinkTraining -/
theorem witness_LinkTraining_1 :
  1 = 1 ∧ false = false := by decide +kernel
theorem witness_LinkTraining_1b :
  (0 = 0 ∨ true = true) := by decide +kernel
theorem witness_LinkTraining_2 :
  (flds [(F.HIF_STATUS_MODE, 1)]).rd F.HIF_STATUS_MODE = 1 := by decide +kernel
theorem witness_LinkTraining_3 :
  State.reset.rd F.HIF_STATUS_MODE ≠ 1 := by decide +kernel

/-! DoorbellPaths -/
theorem witness_DoorbellPaths_1 :
  v04x903.mmio = false ∧ (v04x903.ring 0).reading = false ∧ (v04x903.ring 0).pinned = true := by decide +kernel
theorem witness_DoorbellPaths_2 :
  v04x904.mmio = false ∧ (v04x904.ring 0).reading = true := by decide +kernel
theorem witness_DoorbellPaths_3 :
  (v04x905.ring 0).rung = true ∧ v04x905.mmio = false := by decide +kernel
theorem witness_DoorbellPaths_4 :
  (v04x904.ring 0).reading = true ∧ (v04x904.ring 0).fetchFault = false := by decide +kernel
theorem witness_DoorbellPaths_5 :
  (mmioOn []).mmioTakes 0 = true := by decide +kernel
theorem witness_DoorbellPaths_6 :
  (mmioOn []).mmioTakes 0 = true := by decide +kernel
theorem witness_DoorbellPaths_7 :
  (mmioOn []).mmioTakes 0 = true := by decide +kernel
theorem witness_DoorbellPaths_8 :
  (mmioOn [(F.RING_r_CTL_EN 0, 0)]).mmioTakes 0 = false := by decide +kernel
theorem witness_DoorbellPaths_8b :
  (mmioOn [(F.RING_r_CTL_EN 0, 0)]).mmioTakes 0 = false ∧ Instr.mmioDbBoth 0 3 1 ∈ [Instr.mmioDbIndex 0 3, .mmioDbPresent 0 1,
    .mmioDbBoth 0 3 1] := by decide +kernel

/-! DoorbellChecksInOrder -/
theorem witness_DoorbellChecksInOrder :
  (ringOn []).ringState 0 ≠ 0 ∧ 1 = (ringOn []).reg (R.RING_r_DBGEN 0) ∧ (ringOn []).ringState 0 = 1 ∧
    BitVec.toInt (-1 - (ringOn []).reg (R.RING_r_HOSTIDX 0)) < 0 := by decide +kernel
theorem witness_DoorbellChecksInOrderb :
  (ringOn []).ringState 0 ≠ 0 ∧ 1 = (ringOn []).reg (R.RING_r_DBGEN 0) ∧ (ringOn []).ringState 0 = 1 ∧
    0 < BitVec.toInt (17 - (ringOn []).reg (R.RING_r_HOSTIDX 0)) ∧
    (¬(((ringOn []).ringKind 0 = 0 ∨ (ringOn []).ringKind 0 = 5 → BitVec.toNat (17 - (ringOn []).reg (R.RING_r_HEAD 0)) ≤ (ringOn []).ringSize 0) ∧
      (¬((ringOn []).ringKind 0 = 0 ∨ (ringOn []).ringKind 0 = 5) → BitVec.toNat ((ringOn []).reg (R.RING_r_HEAD 0) - 17) ≤ (ringOn []).ringSize 0)))
      := by decide +kernel
theorem witness_DoorbellChecksInOrderc :
  (ringOn []).ringState 0 ≠ 0 ∧ 2 ≠ (ringOn []).reg (R.RING_r_DBGEN 0) ∧ (ringOn []).ringState 0 = 1 := by decide +kernel
theorem witness_DoorbellChecksInOrderd :
  (ringOn []).ringState 0 ≠ 0 ∧ 1 = (ringOn []).reg (R.RING_r_DBGEN 0) ∧ (ringOn []).ringState 0 = 1 ∧
    0 < BitVec.toInt (16 - (ringOn []).reg (R.RING_r_HOSTIDX 0)) ∧
    (((ringOn []).ringKind 0 = 0 ∨ (ringOn []).ringKind 0 = 5 → BitVec.toNat (16 - (ringOn []).reg (R.RING_r_HEAD 0)) ≤ (ringOn []).ringSize 0) ∧
      (¬((ringOn []).ringKind 0 = 0 ∨ (ringOn []).ringKind 0 = 5) → BitVec.toNat ((ringOn []).reg (R.RING_r_HEAD 0) - 16) ≤ (ringOn []).ringSize 0)) ∧
    ((ringOn []).ringKind 0 = 0 ∨ (ringOn []).ringKind 0 = 5) := by decide +kernel
theorem witness_DoorbellChecksInOrdere :
  (ringOn []).ringState 0 ≠ 0 ∧ 1 = (ringOn []).reg (R.RING_r_DBGEN 0) ∧ BitVec.toInt (0 - (ringOn []).reg (R.RING_r_HOSTIDX 0)) = 0 ∧
    (ringOn []).ringState 0 = 1 := by decide +kernel
theorem witness_DoorbellChecksInOrderf :
  (ringOn [(F.RING_r_HEAD_HEAD 1, 6)]).ringState 1 ≠ 0 ∧ 0 = (ringOn [(F.RING_r_HEAD_HEAD 1, 6)]).reg (R.RING_r_DBGEN 1) ∧
    (ringOn [(F.RING_r_HEAD_HEAD 1, 6)]).ringState 1 = 1 ∧ 0 < BitVec.toInt (6 - (ringOn [(F.RING_r_HEAD_HEAD 1, 6)]).reg (R.RING_r_HOSTIDX 1)) ∧
    (((ringOn [(F.RING_r_HEAD_HEAD 1, 6)]).ringKind 1 = 0 ∨ (ringOn [(F.RING_r_HEAD_HEAD 1,
      6)]).ringKind 1 = 5 → BitVec.toNat (6 - (ringOn [(F.RING_r_HEAD_HEAD 1, 6)]).reg (R.RING_r_HEAD 1)) ≤ (ringOn [(F.RING_r_HEAD_HEAD 1,
      6)]).ringSize 1) ∧ (¬((ringOn [(F.RING_r_HEAD_HEAD 1, 6)]).ringKind 1 = 0 ∨ (ringOn [(F.RING_r_HEAD_HEAD 1,
      6)]).ringKind 1 = 5) → BitVec.toNat ((ringOn [(F.RING_r_HEAD_HEAD 1, 6)]).reg (R.RING_r_HEAD 1) - 6) ≤ (ringOn [(F.RING_r_HEAD_HEAD 1, 6)]).ringSize 1)) ∧
    (¬((ringOn [(F.RING_r_HEAD_HEAD 1, 6)]).ringKind 1 = 0 ∨ (ringOn [(F.RING_r_HEAD_HEAD 1, 6)]).ringKind 1 = 5)) := by decide +kernel

/-! DescriptorFetch -/
theorem witness_DescriptorFetch_1 :
  hosted.canFetch 0 = true ∧ sixteen.length = 16 ∧
    (Instr.descFetch 0 sixteen = Instr.descFetch 0 sixteen ∨ Instr.descFetch 0 sixteen = Instr.descPoll 0 sixteen ∧ hosted.mmio = true ∧
      (hosted.ring 0).stuck = true ∨ Instr.descFetch 0 sixteen = Instr.descLineInvalidated 0 sixteen ∧ hosted.mmio = false ∧ (hosted.ring 0).stuck = true) ∧
    fieldAt sixteen 0 8 8 ≠ hosted.gen 0 (hosted.rd (F.RING_r_HEAD_HEAD 0)) := by decide +kernel
theorem witness_DescriptorFetch_1b :
  stuckM.canFetch 0 = true ∧ nopWs.length = 16 ∧
    (Instr.descPoll 0 nopWs = Instr.descFetch 0 nopWs ∨ Instr.descPoll 0 nopWs = Instr.descPoll 0 nopWs ∧ stuckM.mmio = true ∧
      (stuckM.ring 0).stuck = true ∨ Instr.descPoll 0 nopWs = Instr.descLineInvalidated 0 nopWs ∧ stuckM.mmio = false ∧ (stuckM.ring 0).stuck = true) ∧
    fieldAt nopWs 0 8 8 = stuckM.gen 0 (stuckM.rd (F.RING_r_HEAD_HEAD 0)) ∧ stuckM.descCheck 0 nopWs = 0 := by decide +kernel
theorem witness_DescriptorFetch_2 :
  stuckC.canFetch 0 = true ∧ (stuckC.ring 0).stuck = true ∧ stuckC.rd (F.RING_r_STATUS_GEN_STALL 0) = 0 := by decide +kernel

/-! NopAndDma -/
theorem witness_NopAndDma_1 :
  (holds nopD).dispatchable 0 1 = some nopD ∧ (∀ i < 15, 6 ≤ i → nopD.words.getD i 0 = 0) := by decide +kernel
theorem witness_NopAndDma_2 :
  (Instr.dmaH2d 0 = Instr.dmaH2d 0 ∧ (holds badDma).dispatchable 0 3 = some badDma ∨ Instr.dmaH2d 0 = Instr.dmaD2h 0 ∧
    (holds badDma).dispatchable 0 4 = some badDma) ∧
    (∀ i < 15, 11 ≤ i → badDma.words.getD i 0 = 0) ∧ (holds badDma).dmaCheck badDma ≠ 0 := by decide +kernel
theorem witness_NopAndDma_2b :
  (Instr.dmaH2d 0 = Instr.dmaH2d 0 ∧ (holds (dmaD 3)).dispatchable 0 3 = some (dmaD 3) ∨ Instr.dmaH2d 0 = Instr.dmaD2h 0 ∧
    (holds (dmaD 3)).dispatchable 0 4 = some (dmaD 3)) ∧
    (∀ i < 15, 11 ≤ i → (dmaD 3).words.getD i 0 = 0) ∧ (holds (dmaD 3)).dmaCheck (dmaD 3) = 0 := by decide +kernel
theorem witness_NopAndDma_3 :
  copyStop.job (descKey 0 0) = some stopping ∧ stopping.phase = JobPhase.running ∧ stopping.faulted = false ∧
    copyStop.hbmOf (dTarget stopping.words) = some 1 ∧ stopping.stop = some (1, 45073) ∧ dOpcode stopping.words = 3 := by decide +kernel
theorem witness_NopAndDma_3b :
  copyStop4.job (descKey 0 0) = some stopping4 ∧ stopping4.phase = JobPhase.running ∧ stopping4.faulted = false ∧
    copyStop4.hbmOf (dTarget stopping4.words) = some 1 ∧ stopping4.stop = some (1, 45073) ∧ dOpcode stopping4.words = 4 := by decide +kernel
theorem witness_NopAndDma_3c :
  (copying 3).job (descKey 0 0) = some (copyJob 3) ∧ (copyJob 3).phase = JobPhase.running ∧ (copyJob 3).faulted = false ∧
    (copying 3).hbmOf (dTarget (copyJob 3).words) = some 1 ∧ (copyJob 3).stop = none ∧ dOpcode (copyJob 3).words = 3 := by decide +kernel
theorem witness_NopAndDma_3d :
  (copying 4).job (descKey 0 0) = some (copyJob 4) ∧ (copyJob 4).phase = JobPhase.running ∧ (copyJob 4).faulted = false ∧
    (copying 4).hbmOf (dTarget (copyJob 4).words) = some 1 ∧ (copyJob 4).stop = none ∧ dOpcode (copyJob 4).words = 4 := by decide +kernel
theorem witness_NopAndDma_3e :
  copyStop2.job (descKey 0 0) = some stopD2h ∧ stopD2h.phase = JobPhase.running ∧ stopD2h.faulted = false ∧
    copyStop2.hbmOf (dTarget stopD2h.words) = some 1 ∧ stopD2h.stop = some (1, 0xB011) ∧ dOpcode stopD2h.words = 4 := by decide +kernel

/-! RingEnableDisable -/
theorem witness_RingEnableDisable_1 :
  (rings []).ringState 0 = 0 ∧ (rings []).ringCheck 0 = 0 ∧ (rings []).freeQueue = some 0 := by decide +kernel
theorem witness_RingEnableDisable_2 :
  (rings [(F.RING_r_CFG_LOG2 0, 3)]).ringState 0 = 0 ∧ (rings [(F.RING_r_CFG_LOG2 0, 3)]).ringCheck 0 ≠ 0 := by decide +kernel
theorem witness_RingEnableDisable_3 :
  (rings [(F.RING_r_STATUS_STATE 0, 3)]).ringState 0 = 3 := by decide +kernel
theorem witness_RingEnableDisable_4 :
  (ringOn []).ringState 1 = 1 ∧ (ringOn []).ringKind 1 = 1 ∧ (ringOn []).cplInUse 1 = true := by decide +kernel
theorem witness_RingEnableDisable_5 :
  ((ringOn []).ringState 0 = 1 ∧ ¬((ringOn []).ringKind 0 = 1 ∧ (ringOn []).cplInUse 0 = true) ∨ (ringOn []).ringState 0 = 2) := by decide +kernel
theorem witness_RingEnableDisable_6 :
  (rings [(F.RING_r_STATUS_STATE 0, 3)]).ringState 0 = 3 ∧ (rings [(F.RING_r_STATUS_STATE 0, 3)]).ringBusy 0 = false ∧
    (rings [(F.RING_r_STATUS_STATE 0, 3)]).recordsOwed 0 = false ∧ ((rings [(F.RING_r_STATUS_STATE 0, 3)]).ring 0).held = [] ∧
    ((rings [(F.RING_r_STATUS_STATE 0, 3)]).ring 0).batch = [] ∧
    (((rings [(F.RING_r_STATUS_STATE 0, 3)]).ring 0).gapLost = 0 ∨ (rings [(F.RING_r_STATUS_STATE 0, 3)]).ringKind 0 ≠ 1) := by decide +kernel
theorem witness_RingEnableDisable_7 :
  (rings [(F.RING_r_STATUS_STATE 1, 3)]).ringState 1 = 3 ∧ (rings [(F.RING_r_STATUS_STATE 1, 3)]).ringKind 1 = 1 := by decide +kernel

/-! BatchesAndSignals -/
theorem witness_BatchesAndSignals_1 :
  v04x907.ringKind 1 = 1 ∧ (v04x907.ring 1).batch ≠ [] := by decide +kernel
theorem witness_BatchesAndSignals_2 :
  v04x908.ringKind 0 ≠ 1 ∧ (v04x908.ring 0).wbDue = true := by decide +kernel
theorem witness_BatchesAndSignals_3 :
  v04x909.tlRunning 0 = true := by decide +kernel
theorem witness_BatchesAndSignals_4 :
  mapGet (fun _ => (none, none)) (gapped State.reset).host.vecs 5 = (some 0, some 3) := by decide +kernel

/-! FaultedWork -/
theorem witness_FaultedWork_1 :
  outRec.workRuns (Work.rec_ 2) = true ∧ workParks (Work.rec_ 2) = false ∧ outRec.priOff = true := by decide +kernel
theorem witness_FaultedWork_1b :
  (runJob none false JobPhase.running).workRuns (Work.desc 0 0) = true ∧ workParks (Work.desc 0 0) = true ∧
    (runJob none false JobPhase.running).priOff = true := by decide +kernel
theorem witness_FaultedWork_1c :
  (priOn outOn2).workRuns (Work.out 2) = true ∧ workParks (Work.out 2) = false ∧ (priOn outOn2).priOff = false := by decide +kernel
theorem witness_FaultedWork_1d :
  (priOn (runJob none false JobPhase.running)).workRuns (Work.desc 0 0) = true ∧ workParks (Work.desc 0 0) = true ∧
    (priOn (runJob none false JobPhase.running)).priOff = false := by decide +kernel
theorem witness_FaultedWork_2 :
  outOn.workRuns (Work.out 2) = true := by decide +kernel
theorem witness_FaultedWork_3 :
  (runJob none true JobPhase.running).job (descKey 0 0) = some (jobOf none true) ∧ (jobOf none true).phase = JobPhase.running ∧
    (runJob none true JobPhase.running).jobWm (jobOf none true) Wm.zero = some wm0 ∧
    ((runJob none true JobPhase.running).jobMoves (descKey 0 0) (jobOf none true) wm0 []).job (descKey 0 0) = some (jobOf none true) ∧
    (jobOf none true).faulted = true ∧ (jobOf none true).stop = none := by decide +kernel
theorem witness_FaultedWork_3b :
  (runJob (some (4, 0)) false JobPhase.running).job (descKey 0 0) = some (jobOf (some (4, 0)) false) ∧
    (jobOf (some (4, 0)) false).phase = JobPhase.running ∧
    (runJob (some (4, 0)) false JobPhase.running).jobWm (jobOf (some (4, 0)) false) Wm.zero = some wm0 ∧
    ((runJob (some (4, 0)) false JobPhase.running).jobMoves (descKey 0 0) (jobOf (some (4,
      0)) false) wm0 []).job (descKey 0 0) = some (jobOf (some (4, 0)) false) ∧
    (jobOf (some (4, 0)) false).stop = some (4, 0) := by decide +kernel
theorem witness_FaultedWork_3c :
  (runJob none false JobPhase.running).job (descKey 0 0) = some (jobOf none false) ∧ (jobOf none false).phase = JobPhase.running ∧
    (runJob none false JobPhase.running).jobWm (jobOf none false) { rows := 0, bytes := 64, lastOff := 0, retry := 0 } = some (dmaWm (dmaWs 3) 64) ∧
    ((runJob none false JobPhase.running).jobMoves (descKey 0 0) (jobOf none false) (dmaWm (dmaWs 3) 64) [1]).job (descKey 0 0) = some (jobOf none false) ∧
    (jobOf none false).stop = none ∧ (jobOf none false).faulted = false := by decide +kernel
theorem witness_FaultedWork_4 :
  dlSt.job (descKey 0 0) = some dlJob ∧ dlJob.ring = 0 ∧ dlJob.idx = 0 ∧ dlJob.phase = JobPhase.running ∧ dlJob.stop = none ∧
    dDeadline dlJob.words ≠ 0 ∧ dlSt.reachedOn (dTl dlJob.words) (dDeadline dlJob.words) = true := by decide +kernel
theorem witness_FaultedWork_5 :
  (tskFw.task 0 7).state = 4 ∧ consHw 0 (tskFw.task 0 7).cons = false := by decide +kernel
theorem witness_FaultedWork_5b :
  (tskStop.task 0 7).state = 4 ∧ consHw 0 (tskStop.task 0 7).cons = true ∧ taskWm (tskStop.task 0 7) Wm.zero = some Wm.zero ∧
    (tskStop.task 0 7).creq = false ∧ (tskStop.task 0 7).stop = some (2, 49161) := by decide +kernel
theorem witness_FaultedWork_5c :
  ((tsk 4 true false).task 0 7).state = 4 ∧ consHw 0 ((tsk 4 true false).task 0 7).cons = true ∧
    taskWm ((tsk 4 true false).task 0 7) Wm.zero = some Wm.zero ∧ ((tsk 4 true false).task 0 7).creq = true := by decide +kernel
theorem witness_FaultedWork_5d :
  ((tsk 4 false true).task 0 7).state = 4 ∧ consHw 0 ((tsk 4 false true).task 0 7).cons = true ∧
    taskWm ((tsk 4 false true).task 0 7) Wm.zero = some Wm.zero ∧ ((tsk 4 false true).task 0 7).creq = false ∧
    ((tsk 4 false true).task 0 7).stop = none ∧ ((tsk 4 false true).task 0 7).faulted = true := by decide +kernel
theorem witness_FaultedWork_5e :
  ((tsk 4 false false).task 0 7).state = 4 ∧ consHw 0 ((tsk 4 false false).task 0 7).cons = true ∧
    taskWm ((tsk 4 false false).task 0 7) Wm.zero = some Wm.zero ∧ ((tsk 4 false false).task 0 7).creq = false ∧
    ((tsk 4 false false).task 0 7).stop = none ∧ ((tsk 4 false false).task 0 7).faulted = false := by decide +kernel
theorem witness_FaultedWork_6 :
  ((tsk 5 false false).task 0 7).state = 5 := by decide +kernel
theorem witness_FaultedWork_7 :
  (runJob none false JobPhase.parked).workParked (Work.desc 0 0) = true := by decide +kernel
theorem witness_FaultedWork_8 :
  asked.prg 3 = some prg1 ∧ prg1.sent = true := by decide +kernel
theorem witness_FaultedWork_9 :
  workSingle (Work.desc 0 0) = false ∧ (runJob none false JobPhase.parked).workParked (Work.desc 0 0) = true ∧
    (runJob none false JobPhase.parked).workDeadline (Work.desc 0 0) = 0 := by decide +kernel
theorem witness_FaultedWork_10 :
  (priOn State.reset).allWaiting = [] := by decide +kernel

/-! TranslationInvalidation -/
theorem witness_TranslationInvalidation_2 :
  0 < cached.xlt.invals := by decide +kernel

/-! StagedAndDirectWrites -/
theorem witness_StagedAndDirectWrites_1 :
  State.reset.setState 5 = 0 := by decide +kernel
theorem witness_StagedAndDirectWrites_2 :
  (flds [(F.STG_SETs_STATUS_STATE 5, 1)]).setState 5 ≠ 0 := by decide +kernel
theorem witness_StagedAndDirectWrites_3 :
  (flds [(F.STG_SETs_STATUS_STATE 0, 1)]).setState 1 = 0 ∧ (∀ (j : Fin 8), j < 1 → (flds [(F.STG_SETs_STATUS_STATE 0, 1)]).setState ↑j ≠ 0) := by decide +kernel
theorem witness_StagedAndDirectWrites_4 :
  (∀ (j : Fin 8), allSets.setState ↑j ≠ 0) := by decide +kernel
theorem witness_StagedAndDirectWrites_5 :
  (getBits 15 3 1 = 0 ∨ allSets.setState (getBits 15 0 3) = 1) := by decide +kernel
theorem witness_StagedAndDirectWrites_6 :
  (opened 10).isSt (R.LT_CHc_MAP 3) = true ∧ (opened 10).wselOpen Req.host = true ∧
    (opened 10).stageCheck ((opened 10).wselSet Req.host) (R.LT_CHc_MAP 3) = 0 := by decide +kernel
theorem witness_StagedAndDirectWrites_7 :
  ((opened 10).setClaim (R.LT_CHc_MAP 3) (some (1, 5))).isSt (R.LT_CHc_MAP 3) = true ∧
    ((opened 10).setClaim (R.LT_CHc_MAP 3) (some (1, 5))).wselOpen Req.host = true ∧
    ((opened 10).setClaim (R.LT_CHc_MAP 3) (some (1, 5))).setState (((opened 10).setClaim (R.LT_CHc_MAP 3) (some (1, 5))).wselSet Req.host) = 1 ∧
    ((opened 10).setClaim (R.LT_CHc_MAP 3) (some (1, 5))).claim (R.LT_CHc_MAP 3) = some (1, 5) ∧
    1 ≠ ((opened 10).setClaim (R.LT_CHc_MAP 3) (some (1, 5))).wselSet Req.host := by decide +kernel
theorem witness_StagedAndDirectWrites_8 :
  notOpen.isSt (R.LT_CHc_MAP 3) = true ∧ notOpen.wselOpen Req.host = true ∧ notOpen.setState (notOpen.wselSet Req.host) ≠ 1 := by decide +kernel
theorem witness_StagedAndDirectWrites_9 :
  (flds [(F.LANE_n_CFG_EN 3, 1)]).isSt (R.LANE_n_CFG 3) = true ∧ (flds [(F.LANE_n_CFG_EN 3, 1)]).wselOpen Req.host = false ∧
    (flds [(F.LANE_n_CFG_EN 3, 1)]).claim (R.LANE_n_CFG 3) = none ∧
    (flds [(F.LANE_n_CFG_EN 3, 1)]).ownerOn ((flds [(F.LANE_n_CFG_EN 3, 1)]).owner (R.LANE_n_CFG 3)) = true := by decide +kernel
theorem witness_StagedAndDirectWrites_9b :
  State.reset.isSt (R.LANE_n_CFG 3) = true ∧ State.reset.wselOpen Req.host = false ∧ State.reset.claim (R.LANE_n_CFG 3) = none ∧
    State.reset.ownerOn (State.reset.owner (R.LANE_n_CFG 3)) = false ∧ (State.reset.owner (R.LANE_n_CFG 3)).en = true ∧
    getBits (maskedIn (R.LANE_n_CFG 3) (State.reset.reg (R.LANE_n_CFG 3)) 4294967295 3) 0 1 = 1 := by decide +kernel
theorem witness_StagedAndDirectWrites_9c :
  State.reset.isSt (R.LT_CHc_MAP 3) = true ∧ State.reset.wselOpen Req.host = false ∧ State.reset.claim (R.LT_CHc_MAP 3) = none ∧
    State.reset.ownerOn (State.reset.owner (R.LT_CHc_MAP 3)) = false ∧
    (¬((State.reset.owner (R.LT_CHc_MAP 3)).en = true ∧ getBits (maskedIn (R.LT_CHc_MAP 3) (State.reset.reg (R.LT_CHc_MAP 3)) 4294967295 1) 0 1 = 1))
      := by decide +kernel
theorem witness_StagedAndDirectWrites_10 :
  claimed3.isSt (R.LT_CHc_MAP 3) = true ∧ claimed3.wselOpen Req.host = false ∧ claimed3.claim (R.LT_CHc_MAP 3) = some (1, 5) := by decide +kernel
theorem witness_StagedAndDirectWrites_11 :
  getBits 15 3 1 = 1 ∧ State.reset.setState (getBits 15 0 3) ≠ 1 := by decide +kernel

/-! CommitOfASet -/
theorem witness_CommitOfASet_1 :
  toArm.commitFails 2 0 toArm.stgStamp = none := by decide +kernel
theorem witness_CommitOfASet_2 :
  State.reset.commitFails 2 0 State.reset.stgStamp = some (57346, R.STG_CTL, []) := by decide +kernel
theorem witness_CommitOfASet_3 :
  toArm.abortCheck 2 = 0 ∧ toArm.waitingFor 2 = none := by decide +kernel
theorem witness_CommitOfASet_4 :
  armed.setDue 2 = true ∧ armed.waitingFor 2 = none := by decide +kernel
theorem witness_CommitOfASet_5 :
  List.lookup (R.SEL_PRIOe 1) (toArm.claimsOf 2) = none := by decide +kernel
theorem witness_CommitOfASet_5b :
  List.lookup (R.SEL_PRIOe 0) (toArm.claimsOf 2).reverse = some 0 := by decide +kernel

/-! CapsuleLife -/
theorem witness_CapsuleLife_1 :
  resSt.dispatchable 0 2 = some resD ∧ (resSt.popFetched 0).capCheck 0 resD.words = 0 ∧ capResume resD.words = true := by decide +kernel
theorem witness_CapsuleLife_1b :
  (capRing badCap2).dispatchable 0 2 = some badCap2 ∧ ((capRing badCap2).popFetched 0).capCheck 0 badCap2.words = 57353 ∧ 57353 ≠ 0 := by decide +kernel
theorem witness_CapsuleLife_1c :
  (capRing capD).dispatchable 0 2 = some capD ∧ ((capRing capD).popFetched 0).capCheck 0 capD.words = 0 ∧ capResume capD.words = false ∧
    ((capRing capD).ring 0).capHeld = none := by decide +kernel
theorem witness_CapsuleLife_2 :
  (capSt JobPhase.waiting (ringOn [])).capWaiting 0 = some (0, capJob JobPhase.waiting) ∧ 0 < (capSt JobPhase.waiting (ringOn [])).capFree := by decide +kernel
theorem witness_CapsuleLife_3 :
  capRun.job (descKey 0 0) = some (capJob JobPhase.running) ∧ (capJob JobPhase.running).phase = JobPhase.running ∧
    (capJob JobPhase.running).faulted = false ∧ dOpcode (capJob JobPhase.running).words = 2 ∧ (capJob JobPhase.running).stop = none ∧
    (capRun.capReads (capJob JobPhase.running) (capOffset (capJob JobPhase.running).words + capLen (capJob JobPhase.running).words)).image
      (bytesWords (capBuf (capJob JobPhase.running) (capOffset (capJob JobPhase.running).words + capLen (capJob JobPhase.running).words) (wordsBytes
      ((img 56).set 16 4)))) (capOffset (capJob JobPhase.running).words + capLen (capJob JobPhase.running).words) = ((capRun.image ((img 56).set 16
      4) 80).fst, some (3, 57351)) ∧
    crc32c (wordsBytes ((bytesWords (capBuf (capJob JobPhase.running) (capOffset (capJob JobPhase.running).words + capLen (capJob
      JobPhase.running).words) (wordsBytes ((img 56).set 16 4)))).set 7 0)) ≠ wordAt (bytesWords (capBuf (capJob JobPhase.running) (capOffset (capJob
      JobPhase.running).words + capLen (capJob JobPhase.running).words) (wordsBytes ((img 56).set 16 4)))) 7 := by decide +kernel
theorem witness_CapsuleLife_3b :
  capRun.job (descKey 0 0) = some (capJob JobPhase.running) ∧ (capJob JobPhase.running).phase = JobPhase.running ∧
    (capJob JobPhase.running).faulted = false ∧ dOpcode (capJob JobPhase.running).words = 2 ∧ (capJob JobPhase.running).stop = none ∧
    (capRun.capReads (capJob JobPhase.running) (capOffset (capJob JobPhase.running).words + capLen (capJob JobPhase.running).words)).image
      (bytesWords (capBuf (capJob JobPhase.running) (capOffset (capJob JobPhase.running).words + capLen (capJob JobPhase.running).words) (wordsBytes
      (img 56)))) (capOffset (capJob JobPhase.running).words + capLen (capJob JobPhase.running).words) = ((capRun.image (img 56) 80).fst,
      none) := by decide +kernel
theorem witness_CapsuleLife_4 :
  capStopped.job (descKey 0 0) = some capStop ∧ capStop.phase = JobPhase.running ∧ capStop.faulted = false ∧ dOpcode capStop.words = 2 ∧
    capStop.stop = some (4, 0) := by decide +kernel
theorem witness_CapsuleLife_5 :
  capBufJob.buf.length = capBufJob.wm.bytes ∧ capBufJob.wm.bytes ≤ 6 ∧ [5, 6].length = 6 - capBufJob.wm.bytes ∧ 3 ≤ capBufJob.wm.bytes := by decide +kernel
theorem witness_CapsuleLife_6 :
  capBufJob.ring < 4096 ∧ dOpcode capBufJob.words = 2 ∧ (1 = 1 ∨ 1 = 2) ∧ (capBufJob.phase = JobPhase.running ∨ capBufJob.phase = JobPhase.parked) ∧
    (⟨0, 3, 0, 0⟩ : Wm).bytes ≤ capBufJob.buf.length := by decide +kernel
theorem witness_CapsuleLife_7 :
  (v06x911.ring 0).capHeld = some 64 := by decide +kernel

/-! TaskSubmission -/
theorem witness_TaskSubmission_1 :
  subLater.dispatchable 0 48 = some subD1 ∧ subLater.submitCheck subD1 = 0 ∧ subLater.schedOf (dTarget subD1.words) = some 0 ∧
    fieldAt subD1.words 6 16 16 = 0 ∧ fieldAt subD1.words 7 23 9 = 0 ∧ (∀ i < 15, 12 ≤ i → subD1.words.getD i 0 = 0) ∧
    subLater.wakeLater 0 (subDlist subD1.words) (subWake subD1.words) = true := by decide +kernel
theorem witness_TaskSubmission_1b :
  (hold1 (⟨0, subWs 48 120 7 0 0⟩ : Desc) (schOn [])).dispatchable 0 48 = some (⟨0, subWs 48 120 7 0 0⟩ : Desc) ∧
    (hold1 (⟨0, subWs 48 120 7 0 0⟩ : Desc) (schOn [])).submitCheck (⟨0, subWs 48 120 7 0 0⟩ : Desc) = 0 ∧
    (hold1 (⟨0, subWs 48 120 7 0 0⟩ : Desc) (schOn [])).schedOf (dTarget (⟨0, subWs 48 120 7 0 0⟩ : Desc).words) = some 0 ∧
    fieldAt (⟨0, subWs 48 120 7 0 0⟩ : Desc).words 6 16 16 = 0 ∧ fieldAt (⟨0, subWs 48 120 7 0 0⟩ : Desc).words 7 23 9 = 0 ∧
    (∀ i < 15, 12 ≤ i → (⟨0, subWs 48 120 7 0 0⟩ : Desc).words.getD i 0 = 0) ∧
    (hold1 (⟨0, subWs 48 120 7 0 0⟩ : Desc) (schOn [])).wakeLater 0 (subDlist (⟨0, subWs 48 120 7 0 0⟩ : Desc).words) (subWake (⟨0,
      subWs 48 120 7 0 0⟩ : Desc).words) = false := by decide +kernel
theorem witness_TaskSubmission_3 :
  (canSt 1).dispatchable 0 49 = some canD ∧ (canSt 1).cancelCheck canD = 0 ∧ (canSt 1).schedOf (dTarget canD.words) = some 0 ∧
    fieldAt canD.words 6 16 16 = 0 ∧ fieldAt canD.words 7 15 17 = 0 ∧ (∀ i < 15, 8 ≤ i → canD.words.getD i 0 = 0) := by decide +kernel
theorem witness_TaskSubmission_2 :
  subBadSt.dispatchable 0 48 = some subBad ∧ subBadSt.submitCheck subBad ≠ 0 ∧ fieldAt subBad.words 6 16 16 = 0 ∧ fieldAt subBad.words 7 23 9 = 0 ∧
    (∀ i < 15, 12 ≤ i → subBad.words.getD i 0 = 0) := by decide +kernel
theorem witness_TaskSubmission_4 :
  ((canSt 4).task 0 120).state = 4 ∧ (canSt 4).justStarted ((canSt 4).task 0 120) = false := by decide +kernel
theorem witness_TaskSubmission_5 :
  (canJust.task 0 120).state = 4 ∧ canJust.justStarted (canJust.task 0 120) = true := by decide +kernel
theorem witness_TaskSubmission_6 :
  (canAns.task 0 120).state ≠ 4 ∧ (canAns.task 0 120).live = true ∧ canAns.justStarted (canAns.task 0 120) = false := by decide +kernel
theorem witness_TaskSubmission_7 :
  due.dueWake 0 4 = some 120 := by decide +kernel

/-! TaskExecution -/
theorem witness_TaskExecution_1 :
  nextUp.curOf 0 0 = none ∧ nextUp.nextOf 0 0 = some 120 ∧ (nextUp.task 0 120).stop = none ∧ nextUp.behind 0 120 = false := by decide +kernel
theorem witness_TaskExecution_5 :
  consHw 0 4 = true ∧ (runOn 4 4 [] Task.idle).runningOn 0 4 = some 120 := by decide +kernel
theorem witness_TaskExecution_9 :
  afh.curOf 0 0 = some 120 ∧ afh.afhia 0 0 = true ∧ (afh.task 0 120).state = 3 ∧ (afh.task 0 120).stop = none := by decide +kernel
theorem witness_TaskExecution_8 :
  afh.curOf 0 0 = some 120 ∧ afh.afhia 0 0 = true ∧ (afh.task 0 120).state = 3 ∧ (afh.task 0 120).stop = none := by decide +kernel
theorem witness_TaskExecution_10 :
  (∀ (t : Nat), (schOn []).curOf 0 0 = some t → (schOn []).afhia 0 0 = false ∨ ((schOn []).task 0 t).state ≠ 3 ∨ ((schOn []).task 0 t).stop.isSome =
    true) := by decide +kernel
theorem witness_TaskExecution_11 :
  getBits 327681 0 4 ≤ 2 ∧ consHw 0 0 = false ∧ (runOn 0 4 [] Task.idle).runningOn 0 0 = some 120 := by decide +kernel
theorem witness_TaskExecution_12 :
  (2 < getBits 1 0 4 ∨ consHw 0 0 = true ∨ (schOn []).runningOn 0 0 = none) := by decide +kernel
theorem witness_TaskExecution_13 :
  ((schOn []).runningOn 0 0 = none ∨ consHw 0 0 = true) := by decide +kernel
theorem witness_TaskExecution_15 :
  (dlTask.task 0 120).state = 4 ∧ (dlTask.task 0 120).stop = none ∧ (dlTask.task 0 120).deadline ≠ 0 ∧
    dlTask.reachedOn (dlTask.task 0 120).dtl (dlTask.task 0 120).deadline = true := by decide +kernel
theorem witness_TaskExecution_14 :
  (runOn 0 4 [] Task.idle).runningOn 0 0 = some 120 ∧ consHw 0 0 = false := by decide +kernel
theorem witness_TaskExecution_4 :
  afhHw.curOf 0 4 = some 120 ∧ afhHw.afhia 0 4 = true ∧ consHw 0 4 = true ∧ (afhHw.task 0 120).state = 3 ∧ (afhHw.task 0 120).stop = none := by decide +kernel
theorem witness_TaskExecution_17 :
  3 < queueCount 0 := by decide +kernel
theorem witness_TaskExecution_18 :
  8191 < queueCount 7 ∧ (schOn []).queueLive 7 8191 = [] ∧ (schOn []).rd (F.SCH_Qq_STATUS_RING 0 8191) = 0 := by decide +kernel
theorem witness_TaskExecution_2 :
  nextStop.curOf 0 0 = none ∧ nextStop.nextOf 0 0 = some 120 ∧ (nextStop.task 0 120).stop.isSome = true := by decide +kernel
theorem witness_TaskExecution_6 :
  dOpcode Task.idle.words ≠ 32 := by decide +kernel
theorem witness_TaskExecution_7 :
  dOpcode decTask.words = 32 ∧ 0 = 0 := by decide +kernel
theorem witness_TaskExecution_16 :
  (dlReady.task 0 120).live = true ∧ (dlReady.task 0 120).state ≠ 4 ∧ (dlReady.task 0 120).stop = none ∧ (dlReady.task 0 120).deadline ≠ 0 ∧
    dlReady.reachedOn (dlReady.task 0 120).dtl (dlReady.task 0 120).deadline = true := by decide +kernel
theorem witness_TaskExecution_3 :
  (((idxSt []).setTask 1 100 (inTask 5 3)).setTask 1 101 (inTask 4 2)).curOf 1 12 = none ∧
    (((idxSt []).setTask 1 100 (inTask 5 3)).setTask 1 101 (inTask 4 2)).nextOf 1 12 = some 100 ∧
    ((((idxSt []).setTask 1 100 (inTask 5 3)).setTask 1 101 (inTask 4 2)).task 1 100).stop = none ∧
    (((idxSt []).setTask 1 100 (inTask 5 3)).setTask 1 101 (inTask 4 2)).behind 1 100 = true := by decide +kernel

/-! FlowTable -/
theorem witness_FlowTable_1 :
  flowBad v08x913.flowStage = false ∧ v08x913.inBucket (bucketOf v08x913.flowStage) (sameKey v08x913.flowStage) = none ∧
    List.find? (fun i => (v08x913.flow i).isNone) (List.map (fun w => bucketOf v08x913.flowStage * 4 + w) (List.range 4)) = some (fIdx 2) := by decide +kernel
theorem witness_FlowTable_2 :
  flowBad fUsed.flowStage = false ∧ fUsed.inBucket (bucketOf fUsed.flowStage) (sameKey fUsed.flowStage) = some (fIdx 0) ∧
    fUsed.flow (fIdx 0) = some fOld ∧ (fUsed.flowInUse (fIdx 0) fOld.words = false ∨ flowFixed fOld.words = flowFixed fUsed.flowStage) := by decide +kernel
theorem witness_FlowTable_3 :
  (flowBad fZero.flowStage = true ∧ 24595 = 24595 ∨ flowBad fZero.flowStage = false ∧
    (fZero.inBucket (bucketOf fZero.flowStage) (sameKey fZero.flowStage)).isSome = true ∧ 24595 = 24593 ∨ flowBad fZero.flowStage = false ∧
    fZero.inBucket (bucketOf fZero.flowStage) (sameKey fZero.flowStage) = none ∧
    (∀ (w : Fin 4), (fZero.flow (bucketOf fZero.flowStage * 4 + ↑w)).isSome = true) ∧ 24595 = 24592) := by decide +kernel
theorem witness_FlowTable_4 :
  fUsed.flow ↑(Fin.ofNat 65536 (fIdx 0)) = some fOld ∧ fUsed.flowInUse (↑(Fin.ofNat 65536 (fIdx 0))) fOld.words = true := by decide +kernel
theorem witness_FlowTable_4b :
  (fHas 2 State.reset).flow ↑(Fin.ofNat 65536 (fIdx 2)) = some fOld ∧
    (fHas 2 State.reset).flowInUse (↑(Fin.ofNat 65536 (fIdx 2))) fOld.words = false := by decide +kernel
theorem witness_FlowTable_5 :
  State.reset.flow 0 = none ∧ Instr.flowRead 0 ∈ [Instr.flowDelete 0, Instr.flowRead 0] := by decide +kernel

/-! IngestEvents -/
theorem witness_IngestEvents_1 :
  State.reset.macUp ↑(pkt 319 0 100).mac = false := by decide +kernel
theorem witness_IngestEvents_2 :
  (mac3 State.reset).macUp ↑(pkt 319 0 100).mac = true ∧ ((pkt 319 0 100).udp = 319 ∨ (pkt 319 0 100).udp = 320) := by decide +kernel
theorem witness_IngestEvents_3 :
  (mac3 (flds [(F.ING_COUNT_NO_MATCH, 4294967295)])).macUp ↑(pkt 5000 0 100).mac = true ∧ (pkt 5000 0 100).udp ≠ 319 ∧ (pkt 5000 0 100).udp ≠ 320 ∧
    (mac3 (flds [(F.ING_COUNT_NO_MATCH, 4294967295)])).flowMatch (pkt 5000 0 100).dst (pkt 5000 0 100).udp (pkt 5000 0 100).ssrc = none := by decide +kernel
theorem witness_IngestEvents_4 :
  (mac3 (fHas 0 State.reset)).macUp ↑(pkt 5000 0 1801).mac = true ∧ (pkt 5000 0 1801).udp ≠ 319 ∧ (pkt 5000 0 1801).udp ≠ 320 ∧
    (mac3 (fHas 0 State.reset)).flowMatch (pkt 5000 0 1801).dst (pkt 5000 0 1801).udp (pkt 5000 0 1801).ssrc = some (fIdx 0) ∧
    (mac3 (fHas 0 State.reset)).flow (fIdx 0) = some fOld ∧ (mac3 (fHas 0 State.reset)).filled fOld < (pkt 5000 0 1801).bytes * 50000 := by decide +kernel
theorem witness_IngestEvents_4b :
  (mac3 (fHas 0 State.reset)).macUp ↑(pkt 5000 4 1400).mac = true ∧ (pkt 5000 4 1400).udp ≠ 319 ∧ (pkt 5000 4 1400).udp ≠ 320 ∧
    (mac3 (fHas 0 State.reset)).flowMatch (pkt 5000 4 1400).dst (pkt 5000 4 1400).udp (pkt 5000 4 1400).ssrc = some (fIdx 0) ∧
    (mac3 (fHas 0 State.reset)).flow (fIdx 0) = some fOld ∧ (pkt 5000 4 1400).bytes * 50000 ≤ (mac3 (fHas 0 State.reset)).filled fOld ∧
    (pkt 5000 4 1400).version = 2 ∧ (flowPtCheck fOld.words = false ∨ (pkt 5000 4 1400).pt = flowPt fOld.words) ∧
    seqGap (flowKind fOld.words) fOld.seq (pkt 5000 4 1400).seq = some 5 := by decide +kernel
theorem witness_IngestEvents_6 :
  sdiUpCh.sdiUp 5 = true ∧ sdiUpCh.mirrors 5 true = [] := by decide +kernel
theorem witness_IngestEvents_7 :
  (sdiCh.sdiUp 5 = false ∨ sdiCh.mirrors 5 true ≠ []) := by decide +kernel
theorem witness_IngestEvents_8 :
  sdiCh.chOn 5 = true ∧ sdiCh.rd (F.ING_CHc_SRC_KIND 5) = 2 ∧ (sdi none 3 3).id = none ∧ (sdi none 3 3).crc = true ∧ (sdi none 3 3).line = none ∧
    (sdi none 3 3).audio = [] := by decide +kernel
theorem witness_IngestEvents_8b :
  sdiCh.chOn 5 = true ∧ sdiCh.rd (F.ING_CHc_SRC_KIND 5) = 2 ∧ (sdi (some 0) 21 21).id = none ∧ (sdi (some 0) 21 21).crc = true ∧
    (sdi (some 0) 21 21).line = some 0 ∧ (sdi (some 0) 21 21).audio = [] ∧ (sdi (some 0) 21 21).anc = [] := by decide +kernel
theorem witness_IngestEvents_9 :
  lineSt.lineDue 5 = true := by decide +kernel
theorem witness_IngestEvents_10 :
  (flds [(F.ING_CHc_STATUS_STATE 5, 2), (F.ING_CHc_CNT_FRAMES_LOSS 5, 65535)] lineSt).ingState 5 = 2 ∧
    ((flds [(F.ING_CHc_STATUS_STATE 5, 2), (F.ING_CHc_CNT_FRAMES_LOSS 5, 65535)] lineSt).ingCh 5).lastValid + (flds [(F.ING_CHc_STATUS_STATE 5, 2),
      (F.ING_CHc_CNT_FRAMES_LOSS 5, 65535)] lineSt).rd (F.ING_CHc_CFG_LOSS_FRAMES 5) * (flds [(F.ING_CHc_STATUS_STATE 5, 2),
      (F.ING_CHc_CNT_FRAMES_LOSS 5, 65535)] lineSt).framePeriod 5 ≤ (flds [(F.ING_CHc_STATUS_STATE 5, 2), (F.ING_CHc_CNT_FRAMES_LOSS 5,
      65535)] lineSt).chUnits 5 := by decide +kernel
theorem witness_IngestEvents_11 :
  v08x914.frameDue 5 = some 8 := by decide +kernel
theorem witness_IngestEvents_12 : ∀ d k : Nat, ((frameSt State.reset).slotSt d k).up = false := by
  have h : (frameSt State.reset).cmp.slots = [] := by decide +kernel
  intro d k
  simp only [State.slotSt, h]
  rfl

/-! CompositionEvents -/
theorem witness_CompositionEvents_1 :
  (lsSt lsD).dispatchable 0 16 = some lsD ∧ fieldAt lsD.words 6 5 27 = 0 ∧ fieldAt lsD.words 11 14 2 = 0 ∧ fieldAt lsD.words 11 29 3 = 0 ∧
    fieldAt lsD.words 12 24 8 = 0 ∧ lsD.words.getD 13 0 = 0 ∧ lsD.words.getD 14 0 = 0 ∧ (lsSt lsD).layerCheck lsD = 0 ∧
    (lsSt lsD).crownOf (dTarget lsD.words) = some 1 ∧ (lsSt lsD).slotOf 1 (dStream lsD.words / 8) = some 0 := by decide +kernel
theorem witness_CompositionEvents_1b :
  (lsSt lsBad).dispatchable 0 16 = some lsBad ∧ fieldAt lsBad.words 6 5 27 = 0 ∧ fieldAt lsBad.words 11 14 2 = 0 ∧ fieldAt lsBad.words 11 29 3 = 0 ∧
    fieldAt lsBad.words 12 24 8 = 0 ∧ lsBad.words.getD 13 0 = 0 ∧ lsBad.words.getD 14 0 = 0 ∧ (lsSt lsBad).layerCheck lsBad = 9220 ∧
      9220 ≠ 0 := by decide +kernel
theorem witness_CompositionEvents_2 :
  lsRun.job (descKey 0 0) = some lsJob ∧ lsRun.crownOf (dTarget lsJob.words) = some 1 ∧ lsRun.slotOf 1 (dStream lsJob.words / 8) = some 0 ∧
    dOpcode lsJob.words = 16 ∧ lsJob.phase = JobPhase.running ∧ lsJob.faulted = false ∧ lsJob.stop = none ∧
    Option.map (fun x => x.fst) (lsRun.layerReads 1 0 (lsLayer lsJob.words)).head? = some (descKey 0 0) ∧
    (List.replicate 2048 7).length = (planeBytes (lsRun.rd (F.CMP_SLOTs_Ll_CFG_FORMAT 1 0 (lsLayer lsJob.words))) (lsW lsJob.words)).sum * (lsH
      lsJob.words - lsJob.wm.rows) := by decide +kernel
theorem witness_CompositionEvents_3 :
  lsRun.layerOf lsJob = some (1, 0, 2) ∧ Option.map (fun x => x.fst) (lsRun.layerReads 1 0 2).head? = some 0 ∧
    (List.replicate 256 7).length = (2 - lsJob.wm.rows) * (planeBytes (lsRun.filling_ 1 0 2 0 lsJob).img.fmt (lsRun.filling_ 1 0 2 0
      lsJob).img.w).sum := by decide +kernel
theorem witness_CompositionEvents_5 :
  (v09x916.layerSt 1 0 2).waiting = true ∧
    v09x916.linePos (v09x916.taken 1 0 (F.CMP_SLOTs_CFG_CHANNEL 1 0)) (v09x916.chFrameNow (v09x916.taken 1 0 (F.CMP_SLOTs_CFG_CHANNEL 1 0)))
      (v09x916.taken 1 0 (F.CMP_SLOTs_Ll_WAIT_LINES 1 0 2)) ≤ v09x916.chUnits (v09x916.taken 1 0 (F.CMP_SLOTs_CFG_CHANNEL 1 0)) ∧
    v09x916.taken 1 0 (F.CMP_SLOTs_Ll_CFG_SRC 1 0 2) = 1 := by decide +kernel
theorem witness_CompositionEvents_4 :
  (lsNone.layerSt 1 0 2).waiting = true ∧
    lsNone.linePos (lsNone.taken 1 0 (F.CMP_SLOTs_CFG_CHANNEL 1 0)) (lsNone.chFrameNow (lsNone.taken 1 0 (F.CMP_SLOTs_CFG_CHANNEL 1 0)))
      (lsNone.taken 1 0 (F.CMP_SLOTs_Ll_WAIT_LINES 1 0 2)) ≤ lsNone.chUnits (lsNone.taken 1 0 (F.CMP_SLOTs_CFG_CHANNEL 1 0)) ∧
    (lsNone.taken 1 0 (F.CMP_SLOTs_Ll_CFG_SRC 1 0 2) ≠ 1 ∨ (lsNone.layerSt 1 0 2).ready = none) := by decide +kernel
theorem witness_CompositionEvents_6 :
  bandSt.bandReady 1 0 = true ∧ (bandSt.slotSt 1 0).past = none := by decide +kernel
theorem witness_CompositionEvents_7 :
  pastSt.bandReady 1 0 = true ∧
    (pastSt.slotSt 1 0).past = some { snap := (bandSt.slotSt 1 0).snap, layers := [], inUse := [], band := 1, missed := 0, shown := (bandSt.ingCh 5).shown, frame := 8 } := by decide +kernel
theorem witness_CompositionEvents_8 :
  (bandSt.bandReady 1 0 = false ∨ 9 ≠ bandSt.nextBand 1 0) := by decide +kernel
theorem witness_CompositionEvents_9 :
  (runsSt.slotSt 1 0).built.contains 2 = false ∧ List.find? (fun r => r.fst.fst == 2) (State.runsOf (runsSt.taken 1 0) 1 0).zipIdx = some ((2, 2),
    0) := by decide +kernel

/-! CoefficientAndTableAccess -/
theorem witness_CoefficientAndTableAccess_1b :
  some 1023 = some 1023 ∧ (coefSt 1 5 7 1 State.reset).rd (F.CMP_COEF_SEL_DIR 1) = 1 ∧
    6 ≤ (coefSt 1 5 7 1 State.reset).rd (F.CMP_COEF_SEL_TAP 1) := by decide +kernel
theorem witness_CoefficientAndTableAccess_1c :
  some 512 = some 512 ∧ (¬((coefSt 0 63 7 1 (cmpS [])).rd (F.CMP_COEF_SEL_DIR 1) = 1 ∧ 6 ≤ (coefSt 0 63 7 1 (cmpS [])).rd (F.CMP_COEF_SEL_TAP 1))) ∧
    (coefSt 0 63 7 1 (cmpS [])).coefInUse 1 ((coefSt 0 63 7 1 (cmpS [])).rd (F.CMP_COEF_SEL_COMP 1)) ((coefSt 0 63 7 1 (cmpS [])).rd
      (F.CMP_COEF_SEL_SET 1)) = true := by decide +kernel
theorem witness_CoefficientAndTableAccess_1d :
  some 512 = some 512 ∧ (coefSt 1 5 5 1 State.reset).rd (F.CMP_COEF_SEL_DIR 1) = 1 ∧
    (¬((coefSt 1 5 5 1 State.reset).rd (F.CMP_COEF_SEL_DIR 1) = 1 ∧ 6 ≤ (coefSt 1 5 5 1 State.reset).rd (F.CMP_COEF_SEL_TAP 1))) ∧
    (coefSt 1 5 5 1 State.reset).coefInUse 1 ((coefSt 1 5 5 1 State.reset).rd (F.CMP_COEF_SEL_COMP 1)) ((coefSt 1 5 5 1 State.reset).rd
      (F.CMP_COEF_SEL_SET 1)) = false := by decide +kernel
theorem witness_CoefficientAndTableAccess_2 :
  (lutSt 2 0 0 State.reset).bankInUse 1 1 ((lutSt 2 0 0 State.reset).rd (F.LUT_Ck_SEL_BANK 1 1)) = false ∧
    ((lutSt 2 0 0 State.reset).rd (F.LUT_Ck_SEL_TABLE 1 1) = 0 ∨ (lutSt 2 0 0 State.reset).rd (F.LUT_Ck_SEL_TABLE 1 1) = 2) ∧
    (lutSt 2 0 0 State.reset).rd (F.LUT_Ck_SEL_INDEX 1 1) < lutSize ((lutSt 2 0 0 State.reset).rd (F.LUT_Ck_SEL_TABLE 1 1)) := by decide +kernel
theorem witness_CoefficientAndTableAccess_2b :
  (lutSt 1 (lutSize 1 - 1) 1 State.reset).bankInUse 1 1 ((lutSt 1 (lutSize 1 - 1) 1 State.reset).rd (F.LUT_Ck_SEL_BANK 1 1)) = false ∧
    (lutSt 1 (lutSize 1 - 1) 1 State.reset).rd (F.LUT_Ck_SEL_TABLE 1 1) = 1 ∧
    (lutSt 1 (lutSize 1 - 1) 1 State.reset).rd (F.LUT_Ck_SEL_INDEX 1 1) < lutSize ((lutSt 1 (lutSize 1 - 1) 1 State.reset).rd (F.LUT_Ck_SEL_TABLE 1
      1)) := by decide +kernel
theorem witness_CoefficientAndTableAccess_2c :
  (lutSt 1 0 1 (cmpS [(F.CMP_SLOTs_CFG_LUT_EN 1 0, 1), (F.CMP_SLOTs_CFG_BANK 1 0,
    1)])).bankInUse 1 1 ((lutSt 1 0 1 (cmpS [(F.CMP_SLOTs_CFG_LUT_EN 1 0, 1), (F.CMP_SLOTs_CFG_BANK 1 0, 1)])).rd (F.LUT_Ck_SEL_BANK 1 1)) = true ∧
    Instr.lutData1Write 1 1 5 ∈ [Instr.lutData0Write 1 1 5, Instr.lutData1Write 1 1 5] := by decide +kernel
theorem witness_CoefficientAndTableAccess_2d :
  (lutSt 3 0 0 State.reset).bankInUse 1 1 ((lutSt 3 0 0 State.reset).rd (F.LUT_Ck_SEL_BANK 1 1)) = false ∧
    ((lutSt 3 0 0 State.reset).rd (F.LUT_Ck_SEL_TABLE 1 1) = 3 ∨ lutSize ((lutSt 3 0 0 State.reset).rd (F.LUT_Ck_SEL_TABLE 1 1)) ≤ (lutSt 3 0 0
      State.reset).rd (F.LUT_Ck_SEL_INDEX 1 1)) ∧
    Instr.lutData1Write 1 1 0 ∈ [Instr.lutData0Write 1 1 0, Instr.lutData1Write 1 1 0] := by decide +kernel
theorem witness_CoefficientAndTableAccess_3 :
  (flds [(F.LUT_Ck_STATUS_CRC_BUSY 1 1, 3)]).rd (F.LUT_Ck_STATUS_CRC_BUSY 1 1) / 2 ^ 1 % 2 = 1 := by decide +kernel

/-! PictureCoding -/
theorem witness_PictureCoding_1 :
  getBits 2 0 1 = 0 := by decide +kernel
theorem witness_PictureCoding_1b :
  getBits 4294967295 0 1 = 1 ∧ ((picRun picA).encState 1 0 = 1 ∨ (picRun picA).encState 1 0 = 2) ∧ (picRun picA).encState 1 0 ≠ 1 := by decide +kernel
theorem witness_PictureCoding_1c :
  getBits 1 0 1 = 1 ∧ (encR [(F.ENC_STRi_STATUS_STATE 1 0, 3)] State.reset).encState 1 0 ≠ 1 ∧
    (encR [(F.ENC_STRi_STATUS_STATE 1 0, 3)] State.reset).encState 1 0 ≠ 2 := by decide +kernel
theorem witness_PictureCoding_2 :
  1 < (picRun picA).areasX 1 0 ∧ 1 < (picRun picA).areasY 1 0 ∧ (picRun picA).coarseNext 1 0 1 1 = some picA ∧ (picRun picA).ownBuf 1 picA = some 3 ∧
    picA.refs = [(5, 0)] ∧ (picRun picA).coarseKnown 1 0 1 1 3 = false := by decide +kernel
theorem witness_PictureCoding_2b :
  0 < coarseNoScd.areasX 1 0 ∧ 0 < coarseNoScd.areasY 1 0 ∧ coarseNoScd.coarseNext 1 0 0 0 = some picA ∧ coarseNoScd.ownBuf 1 picA = some 3 ∧
    picA.refs = [(5, 0)] ∧ coarseNoScd.coarseKnown 1 0 0 0 3 = true ∧ (coarseNoScd.asOf picA).on (F.MES_STRi_CFG_SCD 1 0) = false := by decide +kernel
theorem witness_PictureCoding_3 :
  0 < small.blocksX 1 0 ∧ 0 < small.blocksY 1 0 ∧ small.tileOf 1 0 0 = 0 ∧ (small.coarse 1 0 (0 / 4) (0 / 4)).codingPic 1 0 0 = some picA ∧
    picA.mot.blk (blkKey 0 0) = none := by decide +kernel
theorem witness_PictureCoding_3b :
  0 < (encR [] State.reset).blocksX 1 0 ∧ 0 < (encR [] State.reset).blocksY 1 0 ∧ (encR [] State.reset).tileOf 1 0 0 = 0 ∧
    ((encR [] State.reset).coarse 1 0 (0 / 4) (0 / 4)).codingPic 1 0 0 = none := by decide +kernel
theorem witness_PictureCoding_3c :
  0 < (picRun picB).blocksX 1 0 ∧ 0 < (picRun picB).blocksY 1 0 ∧ (picRun picB).tileOf 1 0 0 = 0 ∧
    ((picRun picB).coarse 1 0 (0 / 4) (0 / 4)).codingPic 1 0 0 = some picB ∧
      (picB.num ≠ picB.num ∨ (picB.mot.blk (blkKey 0 0)).isSome = true) := by decide +kernel
theorem witness_PictureCoding_5 :
  (hintSt (hintD 7) (picRun picA)).dispatchable 0 17 = some (hintD 7) ∧ fieldAt (hintD 7).words 7 5 27 = 0 ∧
    (hintD 7).words.getD 9 0 &&& 4261477888 = 0 ∧ (hintD 7).words.getD 10 0 &&& 4261477888 = 0 ∧ (hintD 7).words.getD 12 0 &&& 4261477888 = 0 ∧
    (hintD 7).words.getD 13 0 &&& 4261477888 = 0 ∧ (hintSt (hintD 7) (picRun picA)).crownOf (dTarget (hintD 7).words) = some 1 ∧
    (hintSt (hintD 7) (picRun picA)).indexOf 1 (dStream (hintD 7).words) = some 0 ∧ (hintSt (hintD 7) (picRun picA)).strOn 1 0 = true := by decide +kernel
theorem witness_PictureCoding_5b :
  (hintSt (hintD 11) (flds [(F.ENC_STRi_CFG_EN 1 0, 0), (F.DEC_STRi_CFG_EN 1 0, 1)] (picRun picA))).dispatchable 0 17 = some (hintD 11) ∧
    fieldAt (hintD 11).words 7 5 27 = 0 ∧ (hintD 11).words.getD 9 0 &&& 4261477888 = 0 ∧ (hintD 11).words.getD 10 0 &&& 4261477888 = 0 ∧
    (hintD 11).words.getD 12 0 &&& 4261477888 = 0 ∧ (hintD 11).words.getD 13 0 &&& 4261477888 = 0 ∧
    (hintSt (hintD 11) (flds [(F.ENC_STRi_CFG_EN 1 0, 0), (F.DEC_STRi_CFG_EN 1 0, 1)] (picRun picA))).crownOf (dTarget (hintD 11).words) = some 1 ∧
    (hintSt (hintD 11) (flds [(F.ENC_STRi_CFG_EN 1 0, 0), (F.DEC_STRi_CFG_EN 1 0, 1)] (picRun picA))).indexOf 1 (dStream (hintD 11).words) = some 0 ∧
    (hintSt (hintD 11) (flds [(F.ENC_STRi_CFG_EN 1 0, 0), (F.DEC_STRi_CFG_EN 1 0, 1)] (picRun picA))).strOn 1 0 = false := by decide +kernel
theorem witness_PictureCoding_6 :
  (picRun picA).codingPic 1 0 1 = none := by decide +kernel
theorem witness_PictureCoding_6b :
  (picRun picA).codingPic 1 0 0 = some picA := by decide +kernel
theorem witness_PictureCoding_9 :
  ((heldP 2).strOn 1 0 = true ∨ (heldP 2).encState 1 0 ≠ 0) ∧
    (∀ x ∈ (heldP 2).slotSides 1 (0 / 8), (heldP 2).pairTwin x.1 = true ∨ (heldP 2).role x.1 x.2 ≠ 5) ∧
    (((heldP 2).pkt ((heldP 2).strId 1 0)).mode part0.pic = some 1 ∨ ((heldP 2).pkt ((heldP 2).strId 1 0)).mode part0.pic = some 2) ∧
    ((heldP 2).pkt ((heldP 2).strId 1 0)).late.contains (part0.pic, part0.row) = false := by decide +kernel
theorem witness_PictureCoding_9b :
  (lateP.strOn 1 0 = true ∨ lateP.encState 1 0 ≠ 0) ∧ (∀ x ∈ lateP.slotSides 1 (0 / 8), lateP.pairTwin x.1 = true ∨ lateP.role x.1 x.2 ≠ 5) ∧
    ((lateP.pkt (lateP.strId 1 0)).mode part0.pic = none ∨ (lateP.pkt (lateP.strId 1 0)).mode part0.pic = some 0) ∧
    List.find? (fun p => p.num == part0.pic) (lateP.encSt 1 0).pics = some picA ∧ picA.coded = true ∧ picA.lost = false ∧ picA.row ≤ part0.row ∧
    part0.row < lateP.strRows 1 0 ∧ ↑part0.tile < lateP.strN 1 0 ∧
    lateP.reachedOn (lateP.chTl (lateP.strChan 1 0)) (lateP.rowDue 1 0 picA part0.row) = true ∧
    (lateP.pkt (lateP.strId 1 0)).late.contains (part0.pic, part0.row) = true := by decide +kernel
theorem witness_PictureCoding_9c :
  (v10x917.strOn 1 0 = true ∨ v10x917.encState 1 0 ≠ 0) ∧
    (∀ x ∈ v10x917.slotSides 1 (0 / 8), v10x917.pairTwin x.1 = true ∨ v10x917.role x.1 x.2 ≠ 5) ∧
    ((v10x917.pkt (v10x917.strId 1 0)).mode part0.pic = none ∨ (v10x917.pkt (v10x917.strId 1 0)).mode part0.pic = some 0) ∧
    List.find? (fun p => p.num == part0.pic) (v10x917.encSt 1 0).pics = some picA ∧ picA.coded = true ∧ picA.lost = false ∧ picA.row ≤ part0.row ∧
    part0.row < v10x917.strRows 1 0 ∧ ↑part0.tile < v10x917.strN 1 0 ∧
    v10x917.reachedOn (v10x917.chTl (v10x917.strChan 1 0)) (v10x917.rowDue 1 0 picA part0.row) = false ∧
    (v10x917.pkt (v10x917.strId 1 0)).late.contains (part0.pic, part0.row) = false := by decide +kernel
theorem witness_PictureCoding_10 :
  v10x919.keptOf 1 = [] ∧ v10x919.handDue 1 0 = false := by decide +kernel
theorem witness_PictureCoding_7 :
  State.reset.strOn 1 0 = false ∧ State.reset.encState 1 0 = 0 := by decide +kernel
theorem witness_PictureCoding_8 :
  (failedSide.strOn 1 0 = true ∨ failedSide.encState 1 0 ≠ 0) ∧ (3, 0) ∈ failedSide.slotSides 1 (0 / 8) ∧ failedSide.pairTwin 3 = false ∧
    failedSide.role 3 0 = 5 := by decide +kernel
theorem witness_PictureCoding_2c :
  1 < (picRun picA).areasX 1 0 ∧ 1 < (picRun picA).areasY 1 0 ∧ (picRun picA).coarseNext 1 0 1 1 = some picA ∧
    (picRun picA).ownBuf 1 picA = some 3 ∧ picA.refs = [(5, 0)] ∧ (8 : Nat) ≠ picA.num := by decide +kernel
theorem witness_PictureCoding_10b :
  handed.keptOf 1 = [] ∧ (handed.encSt 1 0).pics = picA :: [] ∧
    handed.reachedOn (handed.chTl (handed.strChan 1 0)) (handed.rowDue 1 0 picA picA.row) = true := by decide +kernel

/-! PoolAndDecode -/
theorem witness_PoolAndDecode_1 :
  getBits 4294967294 0 1 = 0 := by decide +kernel
theorem witness_PoolAndDecode_1b :
  getBits 1 0 1 = 1 ∧
    (eobjSt 3 0 1023 State.reset).eobjBad 1 ((eobjSt 3 0 1023 State.reset).rd (F.POOL_EOBJ_SEL_KIND 1)) ((eobjSt 3 0 1023 State.reset).rd
      (F.POOL_EOBJ_SEL_INDEX 1)) ((eobjSt 3 0 1023 State.reset).rd (F.POOL_EOBJ_SEL_NEW_OWNER 1)) = true := by decide +kernel
theorem witness_PoolAndDecode_1c :
  getBits 1 0 1 = 1 ∧
    v11x920.eobjBad 1 (v11x920.rd (F.POOL_EOBJ_SEL_KIND 1)) (v11x920.rd (F.POOL_EOBJ_SEL_INDEX 1)) (v11x920.rd (F.POOL_EOBJ_SEL_NEW_OWNER 1)) = false ∧
    v11x920.eobjBusy 1 (v11x920.rd (F.POOL_EOBJ_SEL_KIND 1)) (v11x920.rd (F.POOL_EOBJ_SEL_INDEX 1)) = true := by decide +kernel
theorem witness_PoolAndDecode_1d :
  getBits 1 0 1 = 1 ∧
    (eobjSt 0 3 1023 (pooled picRun')).eobjBad 1 ((eobjSt 0 3 1023 (pooled picRun')).rd (F.POOL_EOBJ_SEL_KIND 1)) ((eobjSt 0 3 1023 (pooled
      picRun')).rd (F.POOL_EOBJ_SEL_INDEX 1)) ((eobjSt 0 3 1023 (pooled picRun')).rd (F.POOL_EOBJ_SEL_NEW_OWNER 1)) = false ∧
    (eobjSt 0 3 1023 (pooled picRun')).eobjBusy 1 ((eobjSt 0 3 1023 (pooled picRun')).rd (F.POOL_EOBJ_SEL_KIND 1)) ((eobjSt 0 3 1023 (pooled
      picRun')).rd (F.POOL_EOBJ_SEL_INDEX 1)) = false := by decide +kernel
theorem witness_PoolAndDecode_3 :
  (hintSt (decD 0) (decR [])).decRoom 0 = true ∧ (hintSt (decD 0) (decR [])).dispatchable 0 32 = some (decD 0) ∧ fieldAt (decD 0).words 8 25 7 = 0 ∧
    fieldAt (decD 0).words 9 2 30 = 0 ∧ (∀ (k : Nat), k ∈ [12, 13, 14] → (decD 0).words.getD k 0 = 0) ∧
    (hintSt (decD 0) (decR [])).decCheck (decD 0) = 20995 ∧ 20995 ≠ 0 := by decide +kernel
theorem witness_PoolAndDecode_4 :
  4194304 < 4194305 := by decide +kernel
theorem witness_PoolAndDecode_4b :
  (decR []).decTask 1 0 = none := by decide +kernel
theorem witness_PoolAndDecode_4c :
  (decRun 2).decTask 1 0 = some 100 ∧ (decRun 2).rd (F.DEC_STRi_STATUS_STATE 1 0) ≠ 0 ∧
    ((decRun 2).rd (F.DEC_STRi_STATUS_STATE 1 0) = 2 ∨ (decRun 2).rd (F.DEC_STRi_STATUS_STATE 1 0) = 3) ∧ decUnfit decPicB = false ∧
    (decRun 2).spsBad 1 0 decPicB = false ∧ decPicB.leading = false ∧ decPicB.begins = true := by decide +kernel
theorem witness_PoolAndDecode_4d :
  (decRun 2).decTask 1 0 = some 100 ∧ (decRun 2).rd (F.DEC_STRi_STATUS_STATE 1 0) ≠ 0 ∧ decUnfit (decPic true) = true ∧
    (decPic true).begins = false ∧ (decPic true).output = [] ∧ (decPic true).tail ≤ 4194304 ∧
    ((decRun 2).rd (F.DEC_STRi_STATUS_STATE 1 0) = 2 ∨ (decRun 2).rd (F.DEC_STRi_STATUS_STATE 1 0) = 3) := by decide +kernel
theorem witness_PoolAndDecode_4e :
  (decRun 2).decTask 1 0 = some 100 ∧ (decRun 2).rd (F.DEC_STRi_STATUS_STATE 1 0) ≠ 0 ∧
    ((decRun 2).rd (F.DEC_STRi_STATUS_STATE 1 0) = 2 ∨ (decRun 2).rd (F.DEC_STRi_STATUS_STATE 1 0) = 3) ∧ decUnfit (decPic false) = false ∧
    (decRun 2).spsBad 1 0 (decPic false) = false ∧ (decPic false).leading = false ∧ (decPic false).begins = false ∧ (decPic false).output = [] ∧
    (decPic false).tail ≤ 4194304 := by decide +kernel
theorem witness_PoolAndDecode_5 :
  ((decR []).decSt 1 0).cur = none ∧
    (decR []).allocBuf 1 ((decR []).strId 1 0) ((decR []).decSt 1 0).next (BitVec.toNat decPicB.order) = (((decR []).allocBuf 1 40 0 9).fst,
      none) := by decide +kernel
theorem witness_PoolAndDecode_6 :
  ((decRun 2).decSt 1 0).shows = [(3, 0)] ∧ (decRun 2).showDue 1 0 0 = true := by decide +kernel
theorem witness_PoolAndDecode_6b :
  (held5.decSt 1 0).shows = [(3, 8070450532247928832), (4, 0)] ∧ held5.showDue 1 0 8070450532247928832 = false := by decide +kernel
theorem witness_PoolAndDecode_3b :
  (hintSt (decD 500) (decR [])).decRoom 0 = true ∧ (hintSt (decD 500) (decR [])).dispatchable 0 0x20 = some (decD 500) ∧
    fieldAt (decD 500).words 8 25 7 = 0 ∧ fieldAt (decD 500).words 9 2 30 = 0 ∧ (∀ k ∈ [12, 13, 14], (decD 500).words.getD k 0 = 0) ∧
    (hintSt (decD 500) (decR [])).decCheck (decD 500) = 0 ∧
    (hintSt (decD 500) (decR [])).indexOf (pathDie (dTarget (decD 500).words)) (dStream (decD 500).words) = some 0 ∧
    (hintSt (decD 500) (decR [])).freeEntry (pathDie (dTarget (decD 500).words))
      ((hintSt (decD 500) (decR [])).rd (F.DEC_CFG_QUEUE (pathDie (dTarget (decD 500).words)))) = some 100 := by decide +kernel

/-! PortsShapersAndWheel -/
theorem witness_PortsShapersAndWheel_1 :
  (portsSt []).sending 2 = none := by decide +kernel
theorem witness_PortsShapersAndWheel_1b :
  (busyP.sending 2).isSome = true := by decide +kernel
theorem witness_PortsShapersAndWheel_2 :
  ((busyP.sending (17 / 8)).isSome = true ∨ busyP.on (F.LANE_ETHm_STATUS_UP (17 / 8)) = false) := by decide +kernel
theorem witness_PortsShapersAndWheel_4 :
  (¬(getBits 0 30 1 = 1 ∧ (getBits 0 0 20 = 0 ∨ getBits 0 20 10 = 0))) := by decide +kernel
theorem witness_PortsShapersAndWheel_4b :
  (getBits 1073741824 30 1 = 1 ∧ (getBits 1073741824 0 20 = 0 ∨ getBits 1073741824 20 10 = 0)) := by decide +kernel
theorem witness_PortsShapersAndWheel_5 :
  dueEntry (v11x922.ptpT / 64) v11x922.whl.entries = none := by decide +kernel
theorem witness_PortsShapersAndWheel_5b :
  dueEntry (wheelSt.ptpT / 64) wheelSt.whl.entries = some (3, 7) := by decide +kernel
theorem witness_PortsShapersAndWheel_6 :
  (flds [(F.PKT_FLOWf_CFG_EN 5, 1)]).tsFlow 5 = true := by decide +kernel
theorem witness_PortsShapersAndWheel_6b :
  (flds [(F.PKT_FLOWf_CFG_EN 5, 1), (F.PKT_FLOWf_CFG_FMT 5, 2)]).tsFlow 5 = false := by decide +kernel
theorem witness_PortsShapersAndWheel_7 :
  (∀ (w : Fin 24), (portsSt [(F.WHL_SMP_MASKw_MASK 0, 2 ^ 17)]).rd (F.WHL_SMP_MASKw_MASK ↑w) = if w.val = 17 / 32 then 2 ^ (17 % 32) else 0) ∧
    (portsSt [(F.WHL_SMP_MASKw_MASK 0, 2 ^ 17)]).on F.WHL_SAMPLE_RING_EN = false := by decide +kernel

/-! GateLists -/
theorem witness_GateLists_1 :
  (gateSt []).changeCheck 2 false ≠ 0 := by decide +kernel
theorem witness_GateLists_2 :
  (gateSt [(F.GATE_p_CTL_EN 2, 1)]).changeCheck 2 true = 0 ∧ (gateSt [(F.GATE_p_CTL_EN 2, 1)]).on (F.GATE_p_CTL_EN 2) = true := by decide +kernel
theorem witness_GateLists_3 :
  (gateSt []).changeCheck 2 true = 0 ∧ (gateSt []).on (F.GATE_p_CTL_EN 2) = false := by decide +kernel
theorem witness_GateLists_4 :
  ((gateSt []).on (F.GATE_p_STATUS_PENDING 2) = false ∨ (gateSt []).ptpT < ((gateSt []).gate 2).pendBase) := by decide +kernel
theorem witness_GateLists_4b :
  (pendG 7000012345).on (F.GATE_p_STATUS_PENDING 2) = true ∧ ((pendG 7000012345).gate 2).pendBase ≤ (pendG 7000012345).ptpT := by decide +kernel
theorem witness_GateLists_5 :
  ((gateSt []).gate 2).idx = none ∧ ((gateSt []).gate 2).startAt = 0 := by decide +kernel
theorem witness_GateLists_5b :
  (v11x924.gate 2).idx = some 1 ∧ (v11x924.gate 2).began + v11x924.operSpan 2 1 ≤ v11x924.ptpT := by decide +kernel
theorem witness_GateLists_5c :
  (v11x925.gate 2).idx = some 1 ∧ v11x925.ptpT < (v11x925.gate 2).began + v11x925.operSpan 2 1 := by decide +kernel
theorem witness_GateLists_5d :
  (v11x926.gate 2).idx = none ∧ (v11x926.gate 2).startAt ≠ 0 ∧ (v11x926.gate 2).startAt ≤ v11x926.ptpT := by decide +kernel
theorem witness_GateLists_6 :
  (pendG 9000000000).on (F.GATE_p_CTL_EN 2) = true := by decide +kernel
theorem witness_GateLists_6b :
  (gateSt []).on (F.GATE_p_CTL_EN 2) = false ∧ (gateSt []).on F.PTP_CLK_STATUS_SET = true := by decide +kernel
theorem witness_GateLists_6c :
  (gateSt [(F.PTP_CLK_STATUS_SET, 0)]).on (F.GATE_p_CTL_EN 2) = false ∧
    (gateSt [(F.PTP_CLK_STATUS_SET, 0)]).on F.PTP_CLK_STATUS_SET = false := by decide +kernel

/-! AudioStreamsAndPorts -/
theorem witness_AudioStreamsAndPorts_1 :
  (¬(v11x927.rd (F.AUD_STRa_STATUS_STATE 9) ≠ 0 ∧ v11x927.tlRunning (v11x927.audTl 9) = true ∧
    v11x927.sampPos (v11x927.audTl 9) (v11x927.audRate 9) (v11x927.audNext 9) ≤ v11x927.units (v11x927.audTl 9))) := by decide +kernel
theorem witness_AudioStreamsAndPorts_1b :
  (v11x928.rd (F.AUD_STRa_STATUS_STATE 9) ≠ 0 ∧ v11x928.tlRunning (v11x928.audTl 9) = true ∧
    v11x928.sampPos (v11x928.audTl 9) (v11x928.audRate 9) (v11x928.audNext 9) ≤ v11x928.units (v11x928.audTl 9)) ∧
    v11x928.audOut 9 = false ∧ v11x928.audLat 9 ≤ (v11x928.audStr 9).n := by decide +kernel
theorem witness_AudioStreamsAndPorts_1c :
  ((audS [] AudSt.init).rd (F.AUD_STRa_STATUS_STATE 9) ≠ 0 ∧ (audS [] AudSt.init).tlRunning ((audS [] AudSt.init).audTl 9) = true ∧
    (audS [] AudSt.init).sampPos ((audS [] AudSt.init).audTl 9) ((audS [] AudSt.init).audRate 9) ((audS [] AudSt.init).audNext 9) ≤ (audS []
    AudSt.init).units ((audS [] AudSt.init).audTl 9)) ∧
    (audS [] AudSt.init).audOut 9 = false ∧ ((audS [] AudSt.init).audStr 9).n < (audS [] AudSt.init).audLat 9 := by decide +kernel
theorem witness_AudioStreamsAndPorts_1d :
  ((audS [(F.AUD_STRa_CFG_DIR 9, 1)] AudSt.init).rd (F.AUD_STRa_STATUS_STATE 9) ≠ 0 ∧
    (audS [(F.AUD_STRa_CFG_DIR 9, 1)] AudSt.init).tlRunning ((audS [(F.AUD_STRa_CFG_DIR 9, 1)] AudSt.init).audTl 9) = true ∧
    (audS [(F.AUD_STRa_CFG_DIR 9, 1)] AudSt.init).sampPos ((audS [(F.AUD_STRa_CFG_DIR 9, 1)] AudSt.init).audTl 9) ((audS [(F.AUD_STRa_CFG_DIR 9,
    1)] AudSt.init).audRate 9) ((audS [(F.AUD_STRa_CFG_DIR 9, 1)] AudSt.init).audNext 9) ≤ (audS [(F.AUD_STRa_CFG_DIR 9,
    1)] AudSt.init).units ((audS [(F.AUD_STRa_CFG_DIR 9, 1)] AudSt.init).audTl 9)) ∧
    (audS [(F.AUD_STRa_CFG_DIR 9, 1)] AudSt.init).audOut 9 = true := by decide +kernel
theorem witness_AudioStreamsAndPorts_2 :
  v11x929.on (F.AUD_Pp_CFG_EN 3) = true ∧ v11x929.ownDomain 3 true = true ∧ true = true ∧ (v11x929.audStore (16 + 3)).fill ≠ 0 := by decide +kernel
theorem witness_AudioStreamsAndPorts_2b :
  v11x930.on (F.AUD_Pp_CFG_EN 3) = true ∧ v11x930.ownDomain 3 true = true ∧ true = true ∧ (v11x930.audStore (16 + 3)).fill = 0 := by decide +kernel
theorem witness_AudioStreamsAndPorts_2c :
  ((flds [(F.AUD_Pp_CFG_EN 3, 0)]).on (F.AUD_Pp_CFG_EN 3) = false ∨ (flds [(F.AUD_Pp_CFG_EN 3, 0)]).ownDomain 3 false = false) := by decide +kernel
theorem witness_AudioStreamsAndPorts_2d :
  (port3 [] 31).on (F.AUD_Pp_CFG_EN 3) = true ∧ (port3 [] 31).ownDomain 3 false = true ∧ false = false ∧
    ((port3 [] 31).audStore 3).fill < 32 := by decide +kernel
theorem witness_AudioStreamsAndPorts_2e :
  (port3 [] 32).on (F.AUD_Pp_CFG_EN 3) = true ∧ (port3 [] 32).ownDomain 3 false = true ∧ false = false ∧
    32 ≤ ((port3 [] 32).audStore 3).fill := by decide +kernel
theorem witness_AudioStreamsAndPorts_3 :
  (audS [] AudSt.init).audOut 9 = false := by decide +kernel
theorem witness_AudioStreamsAndPorts_3b :
  (audS [(F.AUD_STRa_CFG_DIR 9, 1)] AudSt.init).audOut 9 = true := by decide +kernel
theorem witness_AudioStreamsAndPorts_5 :
  ((port3 [] 3).ownDomain 3 false = true ∨ (port3 [] 3).ownDomain 3 true = true) ∧
    (¬(((port3 [] 3).ownDomain 3 false = true ∨ (port3 [] 3).ownDomain 3 true = true) ∧ (port3 [] 3).rd (F.AUD_Pp_STATUS_CLK_OK 3) = 1)) := by decide +kernel
theorem witness_AudioStreamsAndPorts_5b :
  ((port3 [(F.AUD_Pp_STATUS_CLK_OK 3, 1), (F.AUD_Pp_ERR_LOS 3, 65535)] 3).ownDomain 3 false = true ∨ (port3 [(F.AUD_Pp_STATUS_CLK_OK 3, 1),
    (F.AUD_Pp_ERR_LOS 3, 65535)] 3).ownDomain 3 true = true) ∧
    (port3 [(F.AUD_Pp_STATUS_CLK_OK 3, 1), (F.AUD_Pp_ERR_LOS 3, 65535)] 3).rd (F.AUD_Pp_STATUS_CLK_OK 3) = 1 := by decide +kernel

/-! PairHeartbeatsAndLeases -/
theorem witness_PairHeartbeatsAndLeases_2 :
  (suspS [0] [1]).pairOn 3 = true ∧ (suspS [0] [1]).pairTwin 3 = false ∧ 1 ≤ (suspS [0] [1]).role 3 1 ∧ (suspS [0] [1]).role 3 1 ≤ 3 ∧
    ¬1 ∈ ((suspS [0] [1]).pair 3).susp := by decide +kernel
theorem witness_PairHeartbeatsAndLeases_3 :
  1 ∈ ((suspS [1] [1]).pair 3).susp ∧ 1 ∈ ((suspS [1] [1]).pair 3).seen ∧ (suspS [1] [1]).sideHealthy 3 1 = true := by decide +kernel
theorem witness_PairHeartbeatsAndLeases_3b :
  1 ∈ ((suspS [1] []).pair 3).susp ∧ (¬1 ∈ ((suspS [1] []).pair 3).seen ∨ (suspS [1] []).sideHealthy 3 1 = false) := by decide +kernel
theorem witness_PairHeartbeatsAndLeases_4 :
  List.find? (fun x => x.fst == 7 + 8 * (3 * 2 + 1)) refHeld.rst.holds = some (7 + 8 * (3 * 2 + 1), 570425344) := by decide +kernel
theorem witness_PairHeartbeatsAndLeases_5 :
  State.reset.twinUp = false := by decide +kernel
theorem witness_PairHeartbeatsAndLeases_5b :
  (pairS 1 3 1 []).twinUp = true := by decide +kernel
theorem witness_PairHeartbeatsAndLeases_6 :
  (pairS 1 1 7 []).twinUp = true ∧ (pairS 1 1 7 []).on (F.SEL_REFk_CFG_EN 11) = false ∧
    (∀ x ∈ hbf.pairs.zipIdx, (pairS 1 1 7 []).pairOn x.2 = true → x.1.2.1 ≤ (pairS 1 1 7 []).pairTerm x.2) := by decide +kernel
theorem witness_PairHeartbeatsAndLeases_7 :
  (miss3 1).on F.TWIN_CFG_EN = true ∧ (miss3 1).red.misses = 3 := by decide +kernel
theorem witness_PairHeartbeatsAndLeases_7b :
  (pairS 1 1 3 [(F.TWIN_CNT_A_HB_MISS, 65535)]).on F.TWIN_CFG_EN = true ∧ (pairS 1 1 3 [(F.TWIN_CNT_A_HB_MISS, 65535)]).red.misses ≠ 3 := by decide +kernel
theorem witness_PairHeartbeatsAndLeases_8 :
  (askedS []).pairOn 3 = true ∧ (askedS []).pairTwin 3 = true ∧ ((askedS []).role 3 0 = 3 ∨ (askedS []).role 3 0 = 4) ∧
    ((askedS []).pair 3).asked = true ∧ (askedS []).twinUp = true ∧ (askedS []).role 3 0 = 3 ∧
      (askedS []).cycle < ((askedS []).pair 3).leaseEnd := by decide +kernel
theorem witness_PairHeartbeatsAndLeases_8b :
  (pairS 1 3 1 []).pairOn 3 = true ∧ (pairS 1 3 1 []).pairTwin 3 = true ∧ ((pairS 1 3 1 []).role 3 0 = 3 ∨ (pairS 1 3 1 []).role 3 0 = 4) ∧
    ((pairS 1 3 1 []).pair 3).asked = false ∧ (pairS 1 3 1 []).role 3 0 = 3 ∧ ((pairS 1 3 1 []).pair 3).leaseEnd ≤ (pairS 1 3 1 []).cycle := by decide +kernel
theorem witness_PairHeartbeatsAndLeases_8c :
  (pairS 1 1 3 []).pairOn 3 = true ∧ (pairS 1 1 3 []).pairTwin 3 = true ∧ (pairS 1 1 3 []).role 3 0 ≠ 3 := by decide +kernel
theorem witness_PairHeartbeatsAndLeases_8d :
  (askedS [(F.TWIN_STATUS_LINK, 0)]).pairOn 3 = true ∧ (askedS [(F.TWIN_STATUS_LINK, 0)]).pairTwin 3 = true ∧
    ((askedS [(F.TWIN_STATUS_LINK, 0)]).role 3 0 = 3 ∨ (askedS [(F.TWIN_STATUS_LINK, 0)]).role 3 0 = 4) ∧
    ((askedS [(F.TWIN_STATUS_LINK, 0)]).pair 3).asked = true ∧ (askedS [(F.TWIN_STATUS_LINK, 0)]).twinUp = false ∧
    (askedS [(F.TWIN_STATUS_LINK, 0)]).role 3 0 = 3 ∧ (askedS [(F.TWIN_STATUS_LINK, 0)]).cycle < ((askedS [(F.TWIN_STATUS_LINK,
      0)]).pair 3).leaseEnd := by decide +kernel

/-! WitnessMessagesAtUnit -/
theorem witness_WitnessMessagesAtUnit_1 :
  (flds [(F.TWIN_CFG_WIT_KIND, 2)]).rd F.TWIN_CFG_WIT_KIND = 2 := by decide +kernel
theorem witness_WitnessMessagesAtUnit_1b :
  (flds [(F.TWIN_CFG_WIT_KIND, 1), (F.TWIN_CFG_WIT_MAC, 3), (F.LANE_ETHm_STATUS_UP 3, 1)]).rd F.TWIN_CFG_WIT_KIND ≠ 2 ∧
    (flds [(F.TWIN_CFG_WIT_KIND, 1), (F.TWIN_CFG_WIT_MAC, 3), (F.LANE_ETHm_STATUS_UP 3, 1)]).macUp ((flds [(F.TWIN_CFG_WIT_KIND, 1),
      (F.TWIN_CFG_WIT_MAC, 3), (F.LANE_ETHm_STATUS_UP 3, 1)]).rd F.TWIN_CFG_WIT_MAC) = true := by decide +kernel
theorem witness_WitnessMessagesAtUnit_2 :
  (1, Instr.witRenew wm1_7_0) ∈ [(1, Instr.witRenew wm1_7_0), (2, Instr.witGrant wm1_7_0), (3, Instr.witSuspect wm1_7_0), (4, Instr.witProbe wm1_7_0),
    (5, Instr.witProbeAck wm1_7_0), (6, Instr.witFence wm1_7_0), (7, Instr.witFenceAck wm1_7_0), (8, Instr.witVerdict wm1_7_0), (9, Instr.witYield wm1_7_0)] ∧
    State.reset.on F.TWIN_CFG_EN = false := by decide +kernel
theorem witness_WitnessMessagesAtUnit_2b :
  (9, Instr.witYield { pair := 77, sender := 5, term := 7, seq := 9, lease := 400, arg := 0, stamp := 0, tag := 1 }) ∈ [(1,
    Instr.witRenew { pair := 77, sender := 5, term := 7, seq := 9, lease := 400, arg := 0, stamp := 0, tag := 1 }), (2,
    Instr.witGrant { pair := 77, sender := 5, term := 7, seq := 9, lease := 400, arg := 0, stamp := 0, tag := 1 }), (3,
    Instr.witSuspect { pair := 77, sender := 5, term := 7, seq := 9, lease := 400, arg := 0, stamp := 0, tag := 1 }), (4,
    Instr.witProbe { pair := 77, sender := 5, term := 7, seq := 9, lease := 400, arg := 0, stamp := 0, tag := 1 }), (5,
    Instr.witProbeAck { pair := 77, sender := 5, term := 7, seq := 9, lease := 400, arg := 0, stamp := 0, tag := 1 }), (6,
    Instr.witFence { pair := 77, sender := 5, term := 7, seq := 9, lease := 400, arg := 0, stamp := 0, tag := 1 }), (7,
    Instr.witFenceAck { pair := 77, sender := 5, term := 7, seq := 9, lease := 400, arg := 0, stamp := 0, tag := 1 }), (8,
    Instr.witVerdict { pair := 77, sender := 5, term := 7, seq := 9, lease := 400, arg := 0, stamp := 0, tag := 1 }), (9,
    Instr.witYield { pair := 77, sender := 5, term := 7, seq := 9, lease := 400, arg := 0, stamp := 0, tag := 1 })] ∧
    (pairS 1 3 1 []).on F.TWIN_CFG_EN = true ∧
    (pairS 1 3 1 []).witOk (9, Instr.witYield { pair := 77, sender := 5, term := 7, seq := 9, lease := 400, arg := 0, stamp := 0, tag := 1 }).fst
      { pair := 77, sender := 5, term := 7, seq := 9, lease := 400, arg := 0, stamp := 0, tag := 1 } = false := by decide +kernel
theorem witness_WitnessMessagesAtUnit_3 :
  v12x932.on F.TWIN_CFG_EN = true ∧ v12x932.twinPair wm2_8_0.pair = some 3 ∧ v12x932.witOk 2 wm2_8_0 = true ∧
    (v12x932.pair 3).plan.isSome = true ∧ wm2_8_0.term = v12x932.pairTerm 3 + 1 ∧ v12x932.role 3 0 ≠ 1 := by decide +kernel
theorem witness_WitnessMessagesAtUnit_3b :
  v12x934.on F.TWIN_CFG_EN = true ∧ v12x934.twinPair wm2_8_0.pair = some 3 ∧ v12x934.witOk 2 wm2_8_0 = true ∧
    (v12x934.pair 3).plan.isSome = true ∧ wm2_8_0.term = v12x934.pairTerm 3 + 1 ∧ v12x934.role 3 0 = 1 := by decide +kernel
theorem witness_WitnessMessagesAtUnit_3c :
  (w12s 3 PairSt.init 0).on F.TWIN_CFG_EN = true ∧ (w12s 3 PairSt.init 0).twinPair wm4_7_0.pair = some 3 ∧
    (w12s 3 PairSt.init 0).witOk 4 wm4_7_0 = true ∧ (w12s 3 PairSt.init 0).pairTerm 3 ≤ wm4_7_0.term := by decide +kernel
theorem witness_WitnessMessagesAtUnit_3d :
  (w12s 4 PairSt.init 0).on F.TWIN_CFG_EN = true ∧ (w12s 4 PairSt.init 0).twinPair wm6_8_0.pair = some 3 ∧
    (w12s 4 PairSt.init 0).witOk 6 wm6_8_0 = true ∧ (w12s 4 PairSt.init 0).pairTerm 3 ≤ wm6_8_0.term ∧
    ((w12s 4 PairSt.init 0).role 3 0 = 3 ∨ (w12s 4 PairSt.init 0).role 3 0 = 4) := by decide +kernel
theorem witness_WitnessMessagesAtUnit_3e :
  (w12s 3 PairSt.init 0).on F.TWIN_CFG_EN = true ∧ (w12s 3 PairSt.init 0).twinPair wm2_7_0.pair = some 3 ∧
    (w12s 3 PairSt.init 0).witOk 2 wm2_7_0 = true ∧ ((w12s 3 PairSt.init 0).pair 3).plan = none ∧
    wm2_7_0.term = (w12s 3 PairSt.init 0).pairTerm 3 ∧ (w12s 3 PairSt.init 0).role 3 0 = 3 := by decide +kernel
theorem witness_WitnessMessagesAtUnit_3f :
  (w12s 1 PairSt.init 0).on F.TWIN_CFG_EN = true ∧ (w12s 1 PairSt.init 0).twinPair wm2_7_0.pair = some 3 ∧
    (w12s 1 PairSt.init 0).witOk 2 wm2_7_0 = true ∧ ((w12s 1 PairSt.init 0).pair 3).plan = none ∧
    wm2_7_0.term = (w12s 1 PairSt.init 0).pairTerm 3 ∧ (w12s 1 PairSt.init 0).role 3 0 = 1 ∧ (w12s 1 PairSt.init 0).twinUp = true := by decide +kernel
theorem witness_WitnessMessagesAtUnit_3g :
  (w12s 1 PairSt.init 4).on F.TWIN_CFG_EN = true ∧ (w12s 1 PairSt.init 4).twinPair wm8_7_0.pair = some 3 ∧
    (w12s 1 PairSt.init 4).witOk 8 wm8_7_0 = true ∧ (w12s 1 PairSt.init 4).pairTerm 3 ≤ wm8_7_0.term ∧
    (w12s 1 PairSt.init 4).role 3 0 = 1 ∧ wm8_7_0.arg = 0 ∧
    (¬((w12s 1 PairSt.init 4).twinUp = true ∧ (w12s 1 PairSt.init 4).red.misses < 4)) := by decide +kernel
theorem witness_WitnessMessagesAtUnit_3h :
  v12x933.on F.TWIN_CFG_EN = true ∧ v12x933.twinPair wm8_8_1.pair = some 3 ∧ v12x933.witOk 8 wm8_8_1 = true ∧
    v12x933.pairTerm 3 ≤ wm8_8_1.term ∧ v12x933.role 3 0 = 1 ∧ wm8_8_1.term = v12x933.pairTerm 3 + 1 ∧
    wm8_8_1.arg = 1 ∧ (v12x933.witFrameIn.heard wm8_8_1).eligible 3 = some 0 ∧
    (v12x933.pair 3).promo ≠ some wm8_8_1.term ∧ v12x933.cycle < (v12x933.pair 3).peerEnd := by decide +kernel
theorem witness_WitnessMessagesAtUnit_3i :
  (w12s 1 PairSt.init 4).on F.TWIN_CFG_EN = true ∧ (w12s 1 PairSt.init 4).twinPair wm8_8_1.pair = some 3 ∧
    (w12s 1 PairSt.init 4).witOk 8 wm8_8_1 = true ∧ (w12s 1 PairSt.init 4).pairTerm 3 ≤ wm8_8_1.term ∧
    (w12s 1 PairSt.init 4).role 3 0 = 1 ∧ wm8_8_1.term = (w12s 1 PairSt.init 4).pairTerm 3 + 1 ∧ wm8_8_1.arg = 1 ∧
    ((w12s 1 PairSt.init 4).witFrameIn.heard wm8_8_1).eligible 3 = some 0 ∧
    (((w12s 1 PairSt.init 4).pair 3).promo = some wm8_8_1.term ∨ ((w12s 1 PairSt.init 4).pair 3).peerEnd ≤ (w12s 1 PairSt.init 4).cycle) ∧
    ((w12s 1 PairSt.init 4).pair 3).promo ≠ some wm8_8_1.term := by decide +kernel
theorem witness_WitnessMessagesAtUnit_3j :
  (w12s 4 PairSt.init 0).on F.TWIN_CFG_EN = true ∧ (w12s 4 PairSt.init 0).twinPair wm2_7_0.pair = some 3 ∧
    (w12s 4 PairSt.init 0).witOk 2 wm2_7_0 = true ∧ ((w12s 4 PairSt.init 0).pair 3).plan = none ∧
    wm2_7_0.term = (w12s 4 PairSt.init 0).pairTerm 3 ∧ (w12s 4 PairSt.init 0).role 3 0 = 4 ∧
    (w12s 4 PairSt.init 0).cycle < ((w12s 4 PairSt.init 0).pair 3).renewAt + msCycles (min wm2_7_0.lease ((w12s 4 PairSt.init 0).leaseMs 3)) := by
      decide +kernel
theorem witness_WitnessMessagesAtUnit_4 :
  v12x935.isWitness = false ∧ v12x935.twinPair 77 = some 3 ∧ (v12x935.pair 3).promo = some 8 ∧ v12x935.eligible 3 = some 0 ∧
    (v12x935.pair 3).peerEnd ≤ v12x935.cycle := by decide +kernel
theorem witness_WitnessMessagesAtUnit_4b :
  v12x936.isWitness = false ∧ v12x936.twinPair 77 = some 3 ∧ (v12x936.pair 3).promo = some 8 ∧
    (v12x936.eligible 3 ≠ some 0 ∨ v12x936.cycle < (v12x936.pair 3).peerEnd) := by decide +kernel
theorem witness_WitnessMessagesAtUnit_5 :
  mbox.rd F.TWIN_CFG_WIT_KIND = 2 ∧ mbox.on F.TWIN_CFG_EN = true := by decide +kernel
theorem witness_WitnessMessagesAtUnit_5b :
  (State.reset.rd F.TWIN_CFG_WIT_KIND ≠ 2 ∨ State.reset.on F.TWIN_CFG_EN = false) := by decide +kernel

/-! WitnessMessagesAtWitness -/
theorem witness_WitnessMessagesAtWitness_1 :
  v12x939.on F.TWIN_CFG_EN = true ∧ v12x939.rd F.TWIN_CFG_WIT_KIND = 3 ∧ v12x939.witOk 5 wm5_7_0 = true ∧
    (v12x939.wit wm5_7_0.pair).probing = true := by decide +kernel
theorem witness_WitnessMessagesAtWitness_1b :
  v12x938.on F.TWIN_CFG_EN = true ∧ v12x938.rd F.TWIN_CFG_WIT_KIND = 3 ∧ v12x938.witOk 3 wm3_7_0 = true ∧
    (v12x938.wit wm3_7_0.pair).term ≤ wm3_7_0.term := by decide +kernel
theorem witness_WitnessMessagesAtWitness_1c :
  v12x940.on F.TWIN_CFG_EN = true ∧ v12x940.rd F.TWIN_CFG_WIT_KIND = 3 ∧ v12x940.witOk 7 wm7_7_0 = true ∧
    (v12x940.wit wm7_7_0.pair).promote = true ∧
    (v12x940.wit wm7_7_0.pair).active = some wm7_7_0.sender := by decide +kernel
theorem witness_WitnessMessagesAtWitness_1d :
  v12x941.on F.TWIN_CFG_EN = true ∧ v12x941.rd F.TWIN_CFG_WIT_KIND = 3 ∧ v12x941.witOk 9 wm9_7_0 = true ∧
    (v12x941.wit wm9_7_0.pair).active = some wm9_7_0.sender ∧
    (v12x941.wit wm9_7_0.pair).term ≤ wm9_7_0.term := by decide +kernel
theorem witness_WitnessMessagesAtWitness_1e :
  v12x937.on F.TWIN_CFG_EN = true ∧ v12x937.rd F.TWIN_CFG_WIT_KIND = 3 ∧ v12x937.witOk 1 wm1_7_0 = true ∧
    (v12x937.wit wm1_7_0.pair).term ≤ wm1_7_0.term ∧
    ((v12x937.wit wm1_7_0.pair).active = none ∨ (v12x937.wit wm1_7_0.pair).active = some wm1_7_0.sender ∨ wm1_7_0.term = (v12x937.wit
      wm1_7_0.pair).term + 1) := by decide +kernel
theorem witness_WitnessMessagesAtWitness_2 :
  (probed [4] 0).rd F.TWIN_CFG_WIT_KIND = 3 ∧ ((probed [4] 0).wit 77).probing = true ∧ ((probed [4] 0).wit 77).active = some 5 ∧
    ((probed [4] 0).wit 77).standby = some 4 ∧ ¬5 ∈ ((probed [4] 0).wit 77).acked ∧ 4 ∈ ((probed [4] 0).wit 77).acked := by decide +kernel
theorem witness_WitnessMessagesAtWitness_2b :
  (probed [4, 5] 0).rd F.TWIN_CFG_WIT_KIND = 3 ∧ ((probed [4, 5] 0).wit 77).probing = true ∧ ((probed [4, 5] 0).wit 77).active = some 5 ∧
    ((probed [4, 5] 0).wit 77).standby = some 4 ∧ 5 ∈ ((probed [4, 5] 0).wit 77).acked ∧ 4 ∈ ((probed [4, 5] 0).wit 77).acked := by decide +kernel
theorem witness_WitnessMessagesAtWitness_2c :
  (probed [5] 9000).rd F.TWIN_CFG_WIT_KIND = 3 ∧ ((probed [5] 9000).wit 77).probing = true ∧ ((probed [5] 9000).wit 77).active = some 5 ∧
    ((probed [5] 9000).wit 77).standby = some 4 ∧ 5 ∈ ((probed [5] 9000).wit 77).acked ∧ ¬4 ∈ ((probed [5] 9000).wit 77).acked := by decide +kernel
theorem witness_WitnessMessagesAtWitness_3 :
  v12x940.rd F.TWIN_CFG_WIT_KIND = 3 ∧ v12x940.twinPair 77 = none ∧ (v12x940.wit 77).promote = true ∧
    (v12x940.wit 77).leaseEnd ≤ v12x940.cycle := by decide +kernel

/-! TwinLinkFrames -/
theorem witness_TwinLinkFrames_1 :
  (twS 1 3 []).twinUp = true := by decide +kernel
theorem witness_TwinLinkFrames_1b :
  down.twinUp = false ∧
    Instr.twinFlow { ok := true, body := [] } ∈ (fun ok => [Instr.twinHeartbeat { ok := ok, body := hbf },
      Instr.twinCaps { ok := ok, body := caps 99 570425344 }, Instr.twinCursor { ok := ok, body := [] }, Instr.twinFlow { ok := ok, body := [] },
      Instr.twinTemplate 5 { ok := ok, body := [] }, Instr.twinRelay 0
      { ok := ok, body := { pair := 77, sender := 5, term := 7, seq := 9, lease := 400, arg := 0, stamp := 0, tag := 1 } },
      Instr.twinMirror 0 true { ok := ok, body := sdi none 3 3 }]) true := by decide +kernel
theorem witness_TwinLinkFrames_2 :
  (twS 1 3 []).twinUp = true ∧ (∀ (n : Nat), n < 32 → (twS 1 3 []).role n 0 ≠ 6) := by decide +kernel
theorem witness_TwinLinkFrames_3 :
  (twS 1 3 []).twinUp = true ∧ (twS 1 3 []).twinOf (fieldAt (cursW 0) 0 0 10) = some 3 ∧ (twS 1 3 []).role 3 0 = 1 := by decide +kernel
theorem witness_TwinLinkFrames_4 :
  (twS 1 3 []).twinUp = true := by decide +kernel
theorem witness_TwinLinkFrames_5 :
  (twS 1 3 []).twinUp = true := by decide +kernel
theorem witness_TwinLinkFrames_6 :
  (twS 1 3 []).twinUp = true ∧ 4 ∈ [2, 4, 6, 8] ∧ (twS 1 3 []).rd F.TWIN_CFG_WIT_KIND ≠ 2 := by decide +kernel
theorem witness_TwinLinkFrames_6b :
  (twS 1 3 []).twinUp = true ∧ ¬1 ∈ [2, 4, 6, 8] ∧ (twS 1 3 []).rd F.TWIN_CFG_WIT_KIND ≠ 2 := by decide +kernel
theorem witness_TwinLinkFrames_7 :
  (twS 1 3 [(F.TWIN_MIRRORk_EN 2, 1), (F.TWIN_STATUS_LANES, 15)]).twinUp = true ∧
    (¬((twS 1 3 [(F.TWIN_MIRRORk_EN 2, 1), (F.TWIN_STATUS_LANES, 15)]).on (F.TWIN_MIRRORk_EN 2) = true ∧
      (twS 1 3 [(F.TWIN_MIRRORk_EN 2, 1), (F.TWIN_STATUS_LANES, 15)]).on (F.TWIN_MIRRORk_DIR 2) = true ∧
      (twS 1 3 [(F.TWIN_MIRRORk_EN 2, 1), (F.TWIN_STATUS_LANES, 15)]).rd F.TWIN_STATUS_LANES = 15)) := by decide +kernel
theorem witness_TwinLinkFrames_7b :
  (twS 1 3 [(F.TWIN_MIRRORk_EN 2, 1), (F.TWIN_MIRRORk_DIR 2, 1), (F.TWIN_STATUS_LANES, 15)]).twinUp = true ∧
    ((twS 1 3 [(F.TWIN_MIRRORk_EN 2, 1), (F.TWIN_MIRRORk_DIR 2, 1), (F.TWIN_STATUS_LANES, 15)]).on (F.TWIN_MIRRORk_EN 2) = true ∧
      (twS 1 3 [(F.TWIN_MIRRORk_EN 2, 1), (F.TWIN_MIRRORk_DIR 2, 1), (F.TWIN_STATUS_LANES, 15)]).on (F.TWIN_MIRRORk_DIR 2) = true ∧
      (twS 1 3 [(F.TWIN_MIRRORk_EN 2, 1), (F.TWIN_MIRRORk_DIR 2, 1), (F.TWIN_STATUS_LANES, 15)]).rd F.TWIN_STATUS_LANES = 15) := by decide +kernel
theorem witness_TwinLinkFrames_1c :
  (twS 1 3 []).twinUp = true ∧ Instr.twinFlow ⟨false, []⟩ ∈ [Instr.twinFlow ⟨false, []⟩] := by decide +kernel

/-! SwitchesAndDrills -/
theorem witness_SwitchesAndDrills_1 :
  (swS [(F.PAIR_n_AT_HI_STAMP 3, 0)]).stampCheck 0 ((swS [(F.PAIR_n_AT_HI_STAMP 3, 0)]).rd (F.PAIR_n_AT_LO_STAMP 3) + (swS [(F.PAIR_n_AT_HI_STAMP 3,
    0)]).rd (F.PAIR_n_AT_HI_STAMP 3) * 2 ^ 32) ≠ 0 := by decide +kernel
theorem witness_SwitchesAndDrills_1b :
  swTwin.stampCheck 0 (swTwin.rd (F.PAIR_n_AT_LO_STAMP 3) + swTwin.rd (F.PAIR_n_AT_HI_STAMP 3) * 2 ^ 32) = 0 ∧ swTwin.pairOn 3 = true ∧
    (if swTwin.pairTwin 3 = true then (swTwin.role 3 0 = 3 ∧ swTwin.role 3 1 = 1 ∨ swTwin.role 3 0 = 1 ∧ swTwin.role 3 1 = 3) ∧
      swTwin.on (F.PAIR_n_STATUS_MISMATCH 3) = false else (swTwin.eligible 3).isSome = true ∧ (swTwin.role 3 0 = 3 ∨ swTwin.role 3 1 = 3)) ∧
    (∀ (p : Nat × Nat), p ∈ List.flatMap (fun sd => swTwin.sideStreams 3 sd) (swTwin.localSides 3) → swTwin.chTl (swTwin.strChan p.fst p.snd) = 0 ∧
      swTwin.slotStart p.fst p.snd (swTwin.rd (F.PAIR_n_AT_LO_STAMP 3) + swTwin.rd (F.PAIR_n_AT_HI_STAMP 3) * 2 ^ 32) = true) ∧
    swTwin.pairTwin 3 = true ∧ swTwin.role 3 0 = 1 := by decide +kernel
theorem witness_SwitchesAndDrills_1c :
  (swS []).stampCheck 0 ((swS []).rd (F.PAIR_n_AT_LO_STAMP 3) + (swS []).rd (F.PAIR_n_AT_HI_STAMP 3) * 2 ^ 32) = 0 ∧ (swS []).pairOn 3 = true ∧
    (if (swS []).pairTwin 3 = true then ((swS []).role 3 0 = 3 ∧ (swS []).role 3 1 = 1 ∨ (swS []).role 3 0 = 1 ∧ (swS []).role 3 1 = 3) ∧
      (swS []).on (F.PAIR_n_STATUS_MISMATCH 3) = false else ((swS []).eligible 3).isSome = true ∧ ((swS []).role 3 0 = 3 ∨ (swS []).role 3 1 = 3)) ∧
    (∀ (p : Nat × Nat), p ∈ List.flatMap (fun sd => (swS []).sideStreams 3 sd) ((swS []).localSides 3) → (swS []).chTl ((swS []).strChan p.fst p.snd)
      = 0 ∧ (swS []).slotStart p.fst p.snd ((swS []).rd (F.PAIR_n_AT_LO_STAMP 3) + (swS []).rd (F.PAIR_n_AT_HI_STAMP 3) * 2 ^ 32) = true) ∧
    (¬((swS []).pairTwin 3 = true ∧ (swS []).role 3 0 = 1)) := by decide +kernel
theorem witness_SwitchesAndDrills_1d :
  (swS [(F.PAIR_n_STATUS_MISMATCH 3, 1)]).stampCheck 0 ((swS [(F.PAIR_n_STATUS_MISMATCH 3,
    1)]).rd (F.PAIR_n_AT_LO_STAMP 3) + (swS [(F.PAIR_n_STATUS_MISMATCH 3, 1)]).rd (F.PAIR_n_AT_HI_STAMP 3) * 2 ^ 32) = 0 ∧
    (¬((swS [(F.PAIR_n_STATUS_MISMATCH 3, 1)]).pairOn 3 = true ∧
      if (swS [(F.PAIR_n_STATUS_MISMATCH 3, 1)]).pairTwin 3 = true then ((swS [(F.PAIR_n_STATUS_MISMATCH 3, 1)]).role 3 0 = 3 ∧
      (swS [(F.PAIR_n_STATUS_MISMATCH 3, 1)]).role 3 1 = 1 ∨ (swS [(F.PAIR_n_STATUS_MISMATCH 3, 1)]).role 3 0 = 1 ∧
      (swS [(F.PAIR_n_STATUS_MISMATCH 3, 1)]).role 3 1 = 3) ∧ (swS [(F.PAIR_n_STATUS_MISMATCH 3,
      1)]).on (F.PAIR_n_STATUS_MISMATCH 3) = false else ((swS [(F.PAIR_n_STATUS_MISMATCH 3, 1)]).eligible 3).isSome = true ∧
      ((swS [(F.PAIR_n_STATUS_MISMATCH 3, 1)]).role 3 0 = 3 ∨ (swS [(F.PAIR_n_STATUS_MISMATCH 3, 1)]).role 3 1 = 3))) ∧
    (swS [(F.PAIR_n_STATUS_MISMATCH 3, 1)]).pairOn 3 = true := by decide +kernel
theorem witness_SwitchesAndDrills_1e :
  (swS [(F.CMP_SLOTs_CFG_EN 1 0, 1), (F.CMP_SLOTs_CFG_COMP_MASK 1 0, 1), (F.ENC_STRi_CFG_EN 1 0, 1), (F.LT_CHc_MAP_TL 0,
    1)]).stampCheck 0 ((swS [(F.CMP_SLOTs_CFG_EN 1 0, 1), (F.CMP_SLOTs_CFG_COMP_MASK 1 0, 1), (F.ENC_STRi_CFG_EN 1 0, 1), (F.LT_CHc_MAP_TL 0,
    1)]).rd (F.PAIR_n_AT_LO_STAMP 3) + (swS [(F.CMP_SLOTs_CFG_EN 1 0, 1), (F.CMP_SLOTs_CFG_COMP_MASK 1 0, 1), (F.ENC_STRi_CFG_EN 1 0, 1),
    (F.LT_CHc_MAP_TL 0, 1)]).rd (F.PAIR_n_AT_HI_STAMP 3) * 2 ^ 32) = 0 ∧
    (swS [(F.CMP_SLOTs_CFG_EN 1 0, 1), (F.CMP_SLOTs_CFG_COMP_MASK 1 0, 1), (F.ENC_STRi_CFG_EN 1 0, 1), (F.LT_CHc_MAP_TL 0, 1)]).pairOn 3 = true ∧
    (if (swS [(F.CMP_SLOTs_CFG_EN 1 0, 1), (F.CMP_SLOTs_CFG_COMP_MASK 1 0, 1), (F.ENC_STRi_CFG_EN 1 0, 1), (F.LT_CHc_MAP_TL 0,
      1)]).pairTwin 3 = true then ((swS [(F.CMP_SLOTs_CFG_EN 1 0, 1), (F.CMP_SLOTs_CFG_COMP_MASK 1 0, 1), (F.ENC_STRi_CFG_EN 1 0, 1),
      (F.LT_CHc_MAP_TL 0, 1)]).role 3 0 = 3 ∧ (swS [(F.CMP_SLOTs_CFG_EN 1 0, 1), (F.CMP_SLOTs_CFG_COMP_MASK 1 0, 1), (F.ENC_STRi_CFG_EN 1 0, 1),
      (F.LT_CHc_MAP_TL 0, 1)]).role 3 1 = 1 ∨ (swS [(F.CMP_SLOTs_CFG_EN 1 0, 1), (F.CMP_SLOTs_CFG_COMP_MASK 1 0, 1), (F.ENC_STRi_CFG_EN 1 0, 1),
      (F.LT_CHc_MAP_TL 0, 1)]).role 3 0 = 1 ∧ (swS [(F.CMP_SLOTs_CFG_EN 1 0, 1), (F.CMP_SLOTs_CFG_COMP_MASK 1 0, 1), (F.ENC_STRi_CFG_EN 1 0, 1),
      (F.LT_CHc_MAP_TL 0, 1)]).role 3 1 = 3) ∧ (swS [(F.CMP_SLOTs_CFG_EN 1 0, 1), (F.CMP_SLOTs_CFG_COMP_MASK 1 0, 1), (F.ENC_STRi_CFG_EN 1 0, 1),
      (F.LT_CHc_MAP_TL 0, 1)]).on (F.PAIR_n_STATUS_MISMATCH 3) = false else ((swS [(F.CMP_SLOTs_CFG_EN 1 0, 1), (F.CMP_SLOTs_CFG_COMP_MASK 1 0, 1),
      (F.ENC_STRi_CFG_EN 1 0, 1), (F.LT_CHc_MAP_TL 0, 1)]).eligible 3).isSome = true ∧
      ((swS [(F.CMP_SLOTs_CFG_EN 1 0, 1), (F.CMP_SLOTs_CFG_COMP_MASK 1 0, 1), (F.ENC_STRi_CFG_EN 1 0, 1), (F.LT_CHc_MAP_TL 0,
      1)]).role 3 0 = 3 ∨ (swS [(F.CMP_SLOTs_CFG_EN 1 0, 1), (F.CMP_SLOTs_CFG_COMP_MASK 1 0, 1), (F.ENC_STRi_CFG_EN 1 0, 1), (F.LT_CHc_MAP_TL 0,
      1)]).role 3 1 = 3)) ∧
    (¬∀ (p : Nat × Nat), p ∈ List.flatMap (fun sd => (swS [(F.CMP_SLOTs_CFG_EN 1 0, 1), (F.CMP_SLOTs_CFG_COMP_MASK 1 0, 1), (F.ENC_STRi_CFG_EN 1 0,
      1), (F.LT_CHc_MAP_TL 0, 1)]).sideStreams 3 sd) ((swS [(F.CMP_SLOTs_CFG_EN 1 0, 1), (F.CMP_SLOTs_CFG_COMP_MASK 1 0, 1), (F.ENC_STRi_CFG_EN 1 0,
      1), (F.LT_CHc_MAP_TL 0, 1)]).localSides 3) → (swS [(F.CMP_SLOTs_CFG_EN 1 0, 1), (F.CMP_SLOTs_CFG_COMP_MASK 1 0, 1), (F.ENC_STRi_CFG_EN 1 0, 1),
      (F.LT_CHc_MAP_TL 0, 1)]).chTl ((swS [(F.CMP_SLOTs_CFG_EN 1 0, 1), (F.CMP_SLOTs_CFG_COMP_MASK 1 0, 1), (F.ENC_STRi_CFG_EN 1 0, 1),
      (F.LT_CHc_MAP_TL 0, 1)]).strChan p.fst p.snd) = 0 ∧ (swS [(F.CMP_SLOTs_CFG_EN 1 0, 1), (F.CMP_SLOTs_CFG_COMP_MASK 1 0, 1),
      (F.ENC_STRi_CFG_EN 1 0, 1), (F.LT_CHc_MAP_TL 0, 1)]).slotStart p.fst p.snd ((swS [(F.CMP_SLOTs_CFG_EN 1 0, 1), (F.CMP_SLOTs_CFG_COMP_MASK 1 0,
      1), (F.ENC_STRi_CFG_EN 1 0, 1), (F.LT_CHc_MAP_TL 0, 1)]).rd (F.PAIR_n_AT_LO_STAMP 3) + (swS [(F.CMP_SLOTs_CFG_EN 1 0, 1),
      (F.CMP_SLOTs_CFG_COMP_MASK 1 0, 1), (F.ENC_STRi_CFG_EN 1 0, 1), (F.LT_CHc_MAP_TL 0,
      1)]).rd (F.PAIR_n_AT_HI_STAMP 3) * 2 ^ 32) = true) := by decide +kernel
theorem witness_SwitchesAndDrills_2 :
  (∀ (sd : Nat), sd ∈ (pairS 0 3 1 []).localSides 3 → ¬(fun sd => (pairS 0 3 1 []).role 3 sd = 5 ∧ (pairS 0 3 1 []).sideHealthy 3 sd = true ∧
    ∀ (l : Nat), l ∈ (pairS 0 3 1 []).leaves ((pairS 0 3 1 []).sidePath 3 sd) → (pairS 0 3 1 []).inReset l = false) sd) ∧
    (pairS 0 3 1 []).on (F.PAIR_n_STATUS_DRILL 3) = false := by decide +kernel
theorem witness_SwitchesAndDrills_2b :
  ((fun sd => (pairS 0 5 3 [(F.PAIR_n_STATUS_DRILL 3, 1)]).role 3 sd = 5 ∧ (pairS 0 5 3 [(F.PAIR_n_STATUS_DRILL 3, 1)]).sideHealthy 3 sd = true ∧
    ∀ (l : Nat), l ∈ (pairS 0 5 3 [(F.PAIR_n_STATUS_DRILL 3, 1)]).leaves ((pairS 0 5 3 [(F.PAIR_n_STATUS_DRILL 3,
    1)]).sidePath 3 sd) → (pairS 0 5 3 [(F.PAIR_n_STATUS_DRILL 3, 1)]).inReset l = false) 0) ∧
    (pairS 0 5 3 [(F.PAIR_n_STATUS_DRILL 3, 1)]).on (F.PAIR_n_STATUS_DRILL 3) = true := by decide +kernel
theorem witness_SwitchesAndDrills_3 :
  ((swS []).pair 3).plan = none ∧ ((swS []).on (F.PAIR_n_STATUS_DRILL 3) = false ∨ (swS []).drillOver 3 = false) := by decide +kernel
theorem witness_SwitchesAndDrills_3b :
  (v13x942.pair 3).plan = some (0, 4294967296, false) ∧ v13x942.reachedOn 0 4294967296 = true ∧ v13x942.on (F.PAIR_n_STATUS_DRILL 3) = true ∧
    v13x942.drillOver 3 = true := by decide +kernel
theorem witness_SwitchesAndDrills_3c :
  ((plan (swS [])).pair 3).plan = some (0, 4294967296, false) ∧ (plan (swS [])).reachedOn 0 4294967296 = false ∧
    ((plan (swS [])).on (F.PAIR_n_STATUS_DRILL 3) = false ∨ (plan (swS [])).drillOver 3 = false) := by decide +kernel

/-! HbmControlAndRefresh -/
theorem witness_HbmControlAndRefresh_1 :
  v14x943.hasCrown 1 = true ∧ v14x943.dieUp 1 = true ∧ v14x943.on (F.HBM_CTL_EN 1) = true ∧ v14x943.hbmState 1 = 2 := by decide +kernel
theorem witness_HbmControlAndRefresh_1b :
  (hbmS 1 []).hasCrown 1 = true ∧ (hbmS 1 []).dieUp 1 = true ∧ (hbmS 1 []).on (F.HBM_CTL_EN 1) = false ∧ (hbmS 1 []).hbmState 1 = 1 ∧
    (¬((hbmS 1 []).hbmState 1 = 1 ∧ (hbmS 1 []).on (F.HBM_CTL_REFRESH 1) = true ∧ ((hbmS 1 []).hbmSt 1).failed = [])) := by decide +kernel
theorem witness_HbmControlAndRefresh_1c :
  (hbmS 1 [(F.HBM_CTL_REFRESH 1, 1)]).hasCrown 1 = true ∧ (hbmS 1 [(F.HBM_CTL_REFRESH 1, 1)]).dieUp 1 = true ∧
    (hbmS 1 [(F.HBM_CTL_REFRESH 1, 1)]).on (F.HBM_CTL_EN 1) = false ∧ (hbmS 1 [(F.HBM_CTL_REFRESH 1, 1)]).hbmState 1 = 1 ∧
    (hbmS 1 [(F.HBM_CTL_REFRESH 1, 1)]).on (F.HBM_CTL_REFRESH 1) = true ∧ ((hbmS 1 [(F.HBM_CTL_REFRESH 1, 1)]).hbmSt 1).failed = [] ∧
    ¬1 ∈ (hbmS 1 [(F.HBM_CTL_REFRESH 1, 1)]).rst.needReset := by decide +kernel
theorem witness_HbmControlAndRefresh_2 :
  rhS.hasCrown 1 = true ∧ rhS.on (F.HBM_CTL_REFRESH 1) = true ∧ rhS.cycle < (rhS.hbmSt 1).refAt + rhS.refInterval 1 ∧
    rhS.cycle < (rhS.hbmSt 1).rhAt + 12800000 := by decide +kernel
theorem witness_HbmControlAndRefresh_2b :
  rhOne.hasCrown 1 = true ∧ rhOne.on (F.HBM_CTL_REFRESH 1) = true ∧ (rhOne.hbmSt 1).refAt + rhOne.refInterval 1 ≤ rhOne.cycle ∧
    (rhOne.hbmSt 1).rhAt + 12800000 ≤ rhOne.cycle := by decide +kernel
theorem witness_HbmControlAndRefresh_3 :
  (hbmS 1 []).on (F.HBM_CTL_REFRESH 1) = false ∧ Instr.hbmRefreshTick 1 ∈ [Instr.hbmRefreshTick 1, Instr.hbmRhWindow 1] := by decide +kernel
theorem witness_HbmControlAndRefresh_4 :
  v14x944.hasCrown 1 = true ∧ v14x944.hbmState 1 ≠ 0 := by decide +kernel
theorem witness_HbmControlAndRefresh_5 :
  (hbmS 1 []).hasCrown 1 = true ∧ (hbmS 1 []).dieUp 1 = true ∧ (hbmS 1 []).hbmState 1 ≠ 0 := by decide +kernel
theorem witness_HbmControlAndRefresh_6 :
  (hbmS 1 [(F.HBM_1500_STATUS_BUSY 1, 1), (F.HBM_1500_CMD_LEN 1, 33)]).hasCrown 1 = true ∧
    (hbmS 1 [(F.HBM_1500_STATUS_BUSY 1, 1), (F.HBM_1500_CMD_LEN 1, 33)]).rd (F.HBM_1500_STATUS_BUSY 1) = 1 := by decide +kernel

/-! HbmAccessAndTraining -/
theorem witness_HbmAccessAndTraining_1 :
  (hbmS 1 []).hasCrown 1 = true ∧ 25769803775 < 24 * 2 ^ 30 ∧ (hbmS 1 []).hbmReady 1 = false := by decide +kernel
theorem witness_HbmAccessAndTraining_1b :
  (hbmS 2 []).hasCrown 1 = true ∧ 25769803775 < 24 * 2 ^ 30 ∧ (hbmS 2 []).hbmReady 1 = true ∧ 1 = 1 := by decide +kernel
theorem witness_HbmAccessAndTraining_1c :
  (hbmS 2 []).hasCrown 1 = true ∧ 25769803775 < 24 * 2 ^ 30 ∧ (hbmS 2 []).hbmReady 1 = true ∧ 0 = 0 := by decide +kernel
theorem witness_HbmAccessAndTraining_1d :
  (hbmS 2 [(F.HBM_ECC_LIMIT_UNCORR_MAX 1, 1)]).hasCrown 1 = true ∧ 25769803775 < 24 * 2 ^ 30 ∧
    (hbmS 2 [(F.HBM_ECC_LIMIT_UNCORR_MAX 1, 1)]).hbmReady 1 = true ∧ 2 = 2 ∧
    ((hbmS 2 [(F.HBM_ECC_LIMIT_UNCORR_MAX 1, 1)]).cycle :: List.filter (fun c => decide ((hbmS 2 [(F.HBM_ECC_LIMIT_UNCORR_MAX 1,
      1)]).cycle < c + 400000000)) (((hbmS 2 [(F.HBM_ECC_LIMIT_UNCORR_MAX 1, 1)]).rowAccess 1 ((hbmS 2 [(F.HBM_ECC_LIMIT_UNCORR_MAX 1,
      1)]).place 1 25769803775) true).hbmSt 1).uncAt).length ≤ (hbmS 2 [(F.HBM_ECC_LIMIT_UNCORR_MAX 1,
      1)]).rd (F.HBM_ECC_LIMIT_UNCORR_MAX 1) := by decide +kernel
theorem witness_HbmAccessAndTraining_1e :
  (hbmS 2 [(F.HBM_ECC_LIMIT_UNCORR_MAX 1, 0)]).hasCrown 1 = true ∧ 25769803775 < 24 * 2 ^ 30 ∧
    (hbmS 2 [(F.HBM_ECC_LIMIT_UNCORR_MAX 1, 0)]).hbmReady 1 = true ∧ 2 = 2 ∧
    (hbmS 2 [(F.HBM_ECC_LIMIT_UNCORR_MAX 1, 0)]).rd (F.HBM_ECC_LIMIT_UNCORR_MAX 1) < ((hbmS 2 [(F.HBM_ECC_LIMIT_UNCORR_MAX 1,
      0)]).cycle :: List.filter (fun c => decide ((hbmS 2 [(F.HBM_ECC_LIMIT_UNCORR_MAX 1,
      0)]).cycle < c + 400000000)) (((hbmS 2 [(F.HBM_ECC_LIMIT_UNCORR_MAX 1, 0)]).rowAccess 1 ((hbmS 2 [(F.HBM_ECC_LIMIT_UNCORR_MAX 1,
      0)]).place 1 25769803775) true).hbmSt 1).uncAt).length := by decide +kernel
theorem witness_HbmAccessAndTraining_2 :
  (rowOpen.hbmSt 1).rows.contains (pl.pc * 32 + pl.bank, pl.row) = true := by decide +kernel
theorem witness_HbmAccessAndTraining_3 :
  (∀ (e : Nat × Nat × Nat), e ∈ (rhS.hbmSt 1).table pl.pc → ¬(e.fst = pl.bank ∧ e.snd.fst = pl.row)) ∧
    ((rhS.hbmSt 1).table pl.pc).length < 32 := by decide +kernel
theorem witness_HbmAccessAndTraining_4 :
  (hbmS 2 []).hasCrown 1 = true ∧ (hbmS 2 []).hbmReady 1 = true := by decide +kernel
theorem witness_HbmAccessAndTraining_4b :
  (hbmS 1 []).hasCrown 1 = true ∧ (hbmS 1 []).hbmReady 1 = false := by decide +kernel
theorem witness_HbmAccessAndTraining_5 :
  (hdmS 2).rd F.HIF_STATUS_MODE = 1 ∧ (hdmS 2).on F.HIF_STATUS_DECODER = true ∧ (hdmS 2).hdm 64 = some (1, 24696062016) ∧
    (hdmS 2).hbmReady 1 = true := by decide +kernel
theorem witness_HbmAccessAndTraining_5b :
  (¬((hbmS 2 []).rd F.HIF_STATUS_MODE = 1 ∧ (hbmS 2 []).on F.HIF_STATUS_DECODER = true)) := by decide +kernel
theorem witness_HbmAccessAndTraining_5c :
  (hdmS 1).rd F.HIF_STATUS_MODE = 1 ∧ (hdmS 1).on F.HIF_STATUS_DECODER = true ∧ (hdmS 1).hdm 64 = some (1, 24696062016) ∧
    (hdmS 1).hbmReady 1 = false := by decide +kernel
theorem witness_HbmAccessAndTraining_6 :
  (hbmS 2 []).hasCrown 1 = true ∧ (hbmS 2 []).dieUp 1 = true ∧ ((hbmS 2 []).hbmState 1 ≠ 1 ∨ 6 ≤ 5) := by decide +kernel
theorem witness_HbmAccessAndTraining_6b :
  (hbmS 1 []).hasCrown 1 = true ∧ (hbmS 1 []).dieUp 1 = true ∧ (hbmS 1 []).hbmState 1 = 1 ∧ 5 < 6 ∧
    (hbmS 1 []).on (F.HBM_TRAIN_STATUS_BUSY 1) = false := by decide +kernel
theorem witness_HbmAccessAndTraining_6c :
  (hbmS 1 [(F.HBM_TRAIN_STATUS_BUSY 1, 1)]).hasCrown 1 = true ∧ (hbmS 1 [(F.HBM_TRAIN_STATUS_BUSY 1, 1)]).dieUp 1 = true ∧
    (hbmS 1 [(F.HBM_TRAIN_STATUS_BUSY 1, 1)]).hbmState 1 = 1 ∧ 5 < 6 ∧
      (hbmS 1 [(F.HBM_TRAIN_STATUS_BUSY 1, 1)]).on (F.HBM_TRAIN_STATUS_BUSY 1) = true := by decide +kernel
theorem witness_HbmAccessAndTraining_7 :
  (trnS 3 true).hasCrown 1 = true ∧ (trnS 3 true).on (F.HBM_TRAIN_STATUS_BUSY 1) = true ∧ ((trnS 3 true).hbmSt 1).loop = true := by decide +kernel
theorem witness_HbmAccessAndTraining_7b :
  (trnS 2 false).hasCrown 1 = true ∧ (trnS 2 false).on (F.HBM_TRAIN_STATUS_BUSY 1) = true ∧ ((trnS 2 false).hbmSt 1).loop = false := by decide +kernel
theorem witness_HbmAccessAndTraining_5d :
  (hdmS 2).rd F.HIF_STATUS_MODE = 1 ∧ (hdmS 2).on F.HIF_STATUS_DECODER = true ∧ (hdmS 2).hdm 64 = some (1, 24696062016) ∧
    (hdmS 2).hbmReady 1 = true ∧ some [(7 : Byte)] = some [7] := by decide +kernel

/-! LaneControl -/
theorem witness_LaneControl_1 :
  (2, Instr.laneRestart 20) ∈ [(1, Instr.laneDormantSet 20), ((lnS 6 []).reg (R.LANE_n_CTL 20) &&& 4, Instr.laneDormantClear 20),
    ((lnS 6 []).reg (R.LANE_n_CTL 20) &&& 5 ||| 2, Instr.laneRestart 20), ((lnS 6 []).reg (R.LANE_n_CTL 20) &&& 5 ||| 4, Instr.laneTestSet 20),
    ((lnS 6 []).reg (R.LANE_n_CTL 20) &&& 1, Instr.laneTestClear 20)] ∧
    (lnS 6 []).laneCtlCheck 20 (2, Instr.laneRestart 20).fst ≠ 0 := by decide +kernel
theorem witness_LaneControl_2 :
  (lnS 5 []).laneCtlCheck 20 1 = 0 ∧ (lnS 5 []).on (F.LANE_n_CTL_TEST 20) = false ∧ (lnS 5 []).laneStage 20 ≠ 0 ∧
    (lnS 5 []).on (F.LANE_n_CTL_DORMANT 20) = false ∧ (lnS 5 []).on (F.LANE_n_STATUS_EXITING 20) = false ∧ (lnS 5 []).laneStage 20 ≠ 6 ∧
    (lnS 5 []).laneInUse 20 = false := by decide +kernel
theorem witness_LaneControl_2b :
  (lnS 0 []).laneCtlCheck 20 1 = 0 ∧ (lnS 0 []).on (F.LANE_n_CTL_TEST 20) = false ∧ (lnS 0 []).laneStage 20 = 0 ∧
    (lnS 0 []).on (F.LANE_n_CTL_DORMANT 20) = false ∧ (lnS 0 []).on (F.LANE_n_STATUS_EXITING 20) = false ∧ (lnS 0 []).laneStage 20 ≠ 6 := by decide +kernel
theorem witness_LaneControl_2c :
  (lnS 7 [(F.LANE_n_CTL_TEST 20, 1)]).laneCtlCheck 20 1 = 0 ∧ (lnS 7 [(F.LANE_n_CTL_TEST 20, 1)]).on (F.LANE_n_CTL_TEST 20) = true ∧
    (lnS 7 [(F.LANE_n_CTL_TEST 20, 1)]).laneStage 20 = 7 ∧ (lnS 7 [(F.LANE_n_CTL_TEST 20, 1)]).on (F.LANE_n_CTL_DORMANT 20) = false ∧
    (lnS 7 [(F.LANE_n_CTL_TEST 20, 1)]).on (F.LANE_n_STATUS_EXITING 20) = false ∧ (lnS 7 [(F.LANE_n_CTL_TEST 20, 1)]).laneStage 20 ≠ 6 ∧
    (lnS 7 [(F.LANE_n_CTL_TEST 20, 1)]).laneStage 20 ≠ 0 := by decide +kernel
theorem witness_LaneControl_2d :
  (lnS 6 [(F.LANE_n_CTL_DORMANT 20, 1), (F.LANE_n_STATUS_EXITING 20, 1)]).laneCtlCheck 20 1 = 0 ∧
    (lnS 6 [(F.LANE_n_CTL_DORMANT 20, 1), (F.LANE_n_STATUS_EXITING 20, 1)]).on (F.LANE_n_CTL_TEST 20) = false ∧
    (lnS 6 [(F.LANE_n_CTL_DORMANT 20, 1), (F.LANE_n_STATUS_EXITING 20, 1)]).laneStage 20 ≠ 0 ∧
    (lnS 6 [(F.LANE_n_CTL_DORMANT 20, 1), (F.LANE_n_STATUS_EXITING 20, 1)]).on (F.LANE_n_CTL_DORMANT 20) = true ∧
    (lnS 6 [(F.LANE_n_CTL_DORMANT 20, 1), (F.LANE_n_STATUS_EXITING 20, 1)]).laneStage 20 = 6 ∧
    (lnS 6 [(F.LANE_n_CTL_DORMANT 20, 1), (F.LANE_n_STATUS_EXITING 20, 1)]).on (F.LANE_n_STATUS_EXITING 20) = true := by decide +kernel
theorem witness_LaneControl_2e :
  (lnS 0 [(F.LANE_n_CTL_TEST 20, 1)]).laneCtlCheck 20 1 = 0 ∧ (lnS 0 [(F.LANE_n_CTL_TEST 20, 1)]).on (F.LANE_n_CTL_TEST 20) = true ∧
    (lnS 0 [(F.LANE_n_CTL_TEST 20, 1)]).on (F.LANE_n_CTL_DORMANT 20) = false ∧
    (lnS 0 [(F.LANE_n_CTL_TEST 20, 1)]).on (F.LANE_n_STATUS_EXITING 20) = false ∧ (lnS 0 [(F.LANE_n_CTL_TEST 20, 1)]).laneStage 20 ≠ 6 ∧
    (lnS 0 [(F.LANE_n_CTL_TEST 20, 1)]).laneStage 20 = 0 ∧ (lnS 0 [(F.LANE_n_CTL_TEST 20, 1)]).laneStage 20 ≠ 7 := by decide +kernel
theorem witness_LaneControl_3 :
  (lnS 7 []).on (F.LANE_n_CTL_DORMANT 20) = false ∧ (lnS 7 []).laneStage 20 ≠ 6 := by decide +kernel

/-! LaneBringUpAndTest -/
theorem witness_LaneBringUpAndTest_1 :
  ((lnS 2 []).laneStage 20 ≠ 1 ∨ (lnS 2 []).laneProbes 20 = false) ∧ (lnS 2 []).laneStage 20 = 2 := by decide +kernel
theorem witness_LaneBringUpAndTest_1b :
  (lnS 1 [(F.LANE_n_CFG_PROBE 20, 1)]).laneStage 20 = 1 ∧ (lnS 1 [(F.LANE_n_CFG_PROBE 20, 1)]).laneProbes 20 = true ∧ true = true := by decide +kernel
theorem witness_LaneBringUpAndTest_1c :
  (lnS 1 [(F.LANE_n_CFG_PROBE 20, 1)]).laneStage 20 = 1 ∧ (lnS 1 [(F.LANE_n_CFG_PROBE 20, 1)]).laneProbes 20 = true ∧ false = false := by decide +kernel
theorem witness_LaneBringUpAndTest_1d :
  ((lnS 4 []).laneStage 20 ≠ 1 ∨ (lnS 4 []).laneProbes 20 = false) ∧ (lnS 4 []).laneStage 20 = 4 ∧ (lnS 4 []).twinPeerBad 20 true 5 = false ∧
    (lnS 4 []).laneAn 20 = false := by decide +kernel
theorem witness_LaneBringUpAndTest_1e :
  ((lnS 3 []).laneStage 20 ≠ 1 ∨ (lnS 3 []).laneProbes 20 = false) ∧ (lnS 3 []).laneStage 20 = 3 ∧
    (¬(((lnS 3 []).laneAn 20 = true ∨ 96 ≤ 20) ∧ ((lnS 3 []).lane 20).exch = false)) := by decide +kernel
theorem witness_LaneBringUpAndTest_1f :
  (lnS 1 [(F.LANE_n_CFG_PROBE 20, 0)]).laneStage 20 = 1 ∧
    ((lnS 1 [(F.LANE_n_CFG_PROBE 20, 0)]).laneStage 20 ≠ 1 ∨ (lnS 1 [(F.LANE_n_CFG_PROBE 20, 0)]).laneProbes 20 = false) ∧
    (lnS 1 [(F.LANE_n_CFG_PROBE 20, 0)]).laneProbes 20 = false := by decide +kernel
theorem witness_LaneBringUpAndTest_1g :
  ((flds [(F.LANE_n_STATUS_STAGE 96, 4)]).laneStage 96 ≠ 1 ∨ (flds [(F.LANE_n_STATUS_STAGE 96, 4)]).laneProbes 96 = false) ∧
    (flds [(F.LANE_n_STATUS_STAGE 96, 4)]).laneStage 96 = 4 ∧ (flds [(F.LANE_n_STATUS_STAGE 96, 4)]).twinPeerBad 96 false 0 = true := by decide +kernel
theorem witness_LaneBringUpAndTest_1h :
  ((flds [(F.LANE_n_STATUS_STAGE 96, 3)]).laneStage 96 ≠ 1 ∨ (flds [(F.LANE_n_STATUS_STAGE 96, 3)]).laneProbes 96 = false) ∧
    (flds [(F.LANE_n_STATUS_STAGE 96, 3)]).laneStage 96 = 3 ∧ ((flds [(F.LANE_n_STATUS_STAGE 96, 3)]).laneAn 96 = true ∨ 96 ≤ 96) ∧
    ((flds [(F.LANE_n_STATUS_STAGE 96, 3)]).lane 96).exch = false := by decide +kernel
theorem witness_LaneBringUpAndTest_1i :
  ((lnS 4 [(F.LANE_ETHm_CFG_EN 20, 1), (F.LANE_ETHm_CFG_AN 20, 1)]).laneStage 20 ≠ 1 ∨ (lnS 4 [(F.LANE_ETHm_CFG_EN 20, 1), (F.LANE_ETHm_CFG_AN 20,
    1)]).laneProbes 20 = false) ∧
    (lnS 4 [(F.LANE_ETHm_CFG_EN 20, 1), (F.LANE_ETHm_CFG_AN 20, 1)]).laneStage 20 = 4 ∧
    (lnS 4 [(F.LANE_ETHm_CFG_EN 20, 1), (F.LANE_ETHm_CFG_AN 20, 1)]).twinPeerBad 20 true 5 = false ∧
    (lnS 4 [(F.LANE_ETHm_CFG_EN 20, 1), (F.LANE_ETHm_CFG_AN 20, 1)]).laneAn 20 = true := by decide +kernel
theorem witness_LaneBringUpAndTest_2 :
  2 ≤ v15x946.laneStage 20 ∧ v15x946.laneStage 20 ≤ 4 ∧ (v15x946.lane 20).fails + 1 = 3 ∧ v15x946.laneStage 20 ≠ 5 := by decide +kernel
theorem witness_LaneBringUpAndTest_2b :
  2 ≤ (lnS 5 []).laneStage 20 ∧ (¬(2 ≤ (lnS 5 []).laneStage 20 ∧ (lnS 5 []).laneStage 20 ≤ 4)) ∧ (lnS 5 []).laneStage 20 = 5 := by decide +kernel
theorem witness_LaneBringUpAndTest_2c :
  2 ≤ (lnS 2 []).laneStage 20 ∧ (lnS 2 []).laneStage 20 ≤ 4 ∧ ((lnS 2 []).lane 20).fails + 1 ≠ 3 ∧ (lnS 2 []).laneStage 20 ≠ 5 := by decide +kernel
theorem witness_LaneBringUpAndTest_3 :
  20 < 100 ∧ injBad 20 (getBits 128 0 2) (getBits 128 2 1 == 1) (getBits 128 4 6) = false ∧ getBits 128 0 2 ≠ 1 := by decide +kernel
theorem witness_LaneBringUpAndTest_3b :
  20 < 100 ∧ injBad 20 (getBits 3 0 2) (getBits 3 2 1 == 1) (getBits 3 4 6) = true := by decide +kernel
theorem witness_LaneBringUpAndTest_4 :
  100 ≤ 101 ∧ (flds [(F.PWR_MODE_MODE, 4)]).hasCrown (101 - 100) = true := by decide +kernel
theorem witness_LaneBringUpAndTest_5 :
  uciT.chkRuns 101 = true ∧ uciT.chkLocked 101 = false ∧ 100 ≤ 101 := by decide +kernel
theorem witness_LaneBringUpAndTest_5b :
  v15x948.chkRuns 101 = true ∧ v15x948.chkLocked 101 = true ∧ 100 ≤ 101 := by decide +kernel
theorem witness_LaneBringUpAndTest_5c :
  v15x947.chkRuns 20 = true ∧ v15x947.chkLocked 20 = false ∧ 20 < 100 := by decide +kernel
theorem witness_LaneBringUpAndTest_5d :
  (lnS 7 [(F.LANE_n_PAT_CHK_EN 20, 1), (F.LANE_n_STATUS_CHK_LOCK 20, 1)]).chkRuns 20 = true ∧
    (lnS 7 [(F.LANE_n_PAT_CHK_EN 20, 1), (F.LANE_n_STATUS_CHK_LOCK 20, 1)]).chkLocked 20 = true ∧ 20 < 100 := by decide +kernel

/-! ModulesAndFabric -/
theorem witness_ModulesAndFabric_1 :
  (uciS 2 0).hasCrown 1 = true ∧ (uciS 2 0).uciState 1 = 2 := by decide +kernel
theorem witness_ModulesAndFabric_1b :
  (uciS 1 0).hasCrown 1 = true ∧ (uciS 1 0).uciState 1 ≠ 2 := by decide +kernel
theorem witness_ModulesAndFabric_2 :
  (uciS 1 1).hasCrown 1 = true ∧ (uciS 1 1).uciState 1 = 1 ∧ ((uciS 1 1).lane (100 + 1)).prev = 1 := by decide +kernel
theorem witness_ModulesAndFabric_2b :
  (uciS 1 0).hasCrown 1 = true ∧ (uciS 1 0).uciState 1 = 1 ∧ ((uciS 1 0).lane (100 + 1)).prev = 0 ∧ ¬1 ∈ (uciS 1 0).rst.needReset := by decide +kernel
theorem witness_ModulesAndFabric_3 :
  (flds [(F.FAB_REMAP_LOCK 1, 1)]).dieUp 1 = true ∧ (flds [(F.FAB_REMAP_LOCK 1, 1)]).on (F.FAB_REMAP_LOCK 1) = true := by decide +kernel
theorem witness_ModulesAndFabric_3b :
  (flds [(F.FAB_ERR_INFO_VALID 1, 1)]).dieUp 1 = true ∧ (flds [(F.FAB_ERR_INFO_VALID 1, 1)]).on (F.FAB_REMAP_LOCK 1) = false := by decide +kernel
theorem witness_ModulesAndFabric_4 :
  (flds [(F.FAB_Tt_ARB_MAXWAIT 1 11, 5)]).dieUp 1 = true ∧ 11 < fabTargets 1 ∧
    (flds [(F.FAB_Tt_ARB_MAXWAIT 1 11, 5)]).rd (F.FAB_Tt_ARB_MAXWAIT 1 11) ≠ 0 := by decide +kernel
theorem witness_ModulesAndFabric_4b :
  (flds [(F.FAB_Tt_ARB_MAXWAIT 0 15, 0)]).dieUp 0 = true ∧ 15 < fabTargets 0 ∧
    (flds [(F.FAB_Tt_ARB_MAXWAIT 0 15, 0)]).rd (F.FAB_Tt_ARB_MAXWAIT 0 15) = 0 := by decide +kernel

/-! CrcEngines -/
theorem witness_CrcEngines_1 :
  crcRun.dieUp 1 = true ∧ (¬(crcRun.crcBound 1 2 = false ∧ crcRun.crcBusy 1 2 = false)) ∧ crcRun.crcBound 1 2 = false ∧
    (crcRun.crcOp 1 2).isSome = true := by decide +kernel
theorem witness_CrcEngines_1b :
  (crcS 3 0 17 []).dieUp 1 = true ∧ ((crcS 3 0 17 []).crcBound 1 2 = false ∧ (crcS 3 0 17 []).crcBusy 1 2 = false) ∧
    crcBad ((crcS 3 0 17 []).crcPoly 1 2) 2 ((crcS 3 0 17 []).crcAddr (F.CRC_k_SRC_LO_ADDR 1 2) (F.CRC_k_SRC_HI_ADDR 1 2)) ((crcS 3 0 17 []).crcAddr
      (F.CRC_k_DST_LO_ADDR 1 2) (F.CRC_k_DST_HI_ADDR 1 2)) ((crcS 3 0 17 []).rd (F.CRC_k_LEN_LEN 1 2)) = true ∧
    crcBad ((crcS 3 0 17 []).crcPoly 1 2) 3 ((crcS 3 0 17 []).crcAddr (F.CRC_k_SRC_LO_ADDR 1 2) (F.CRC_k_SRC_HI_ADDR 1 2)) ((crcS 3 0 17 []).crcAddr
      (F.CRC_k_DST_LO_ADDR 1 2) (F.CRC_k_DST_HI_ADDR 1 2)) ((crcS 3 0 17 []).rd (F.CRC_k_LEN_LEN 1 2)) = true ∧
    crcBad ((crcS 3 0 17 []).crcPoly 1 2) 4 ((crcS 3 0 17 []).crcAddr (F.CRC_k_SRC_LO_ADDR 1 2) (F.CRC_k_SRC_HI_ADDR 1 2)) ((crcS 3 0 17 []).crcAddr
      (F.CRC_k_DST_LO_ADDR 1 2) (F.CRC_k_DST_HI_ADDR 1 2)) ((crcS 3 0 17 []).rd (F.CRC_k_LEN_LEN 1 2)) = true ∧
    (crcS 3 0 17 []).crcPoly 1 2 = 3 ∧ (crcS 3 0 17 []).crcBound 1 2 = false ∧ (crcS 3 0 17 []).crcOp 1 2 = none := by decide +kernel
theorem witness_CrcEngines_1c :
  (crcS 0 0 16 []).dieUp 1 = true ∧ ((crcS 0 0 16 []).crcBound 1 2 = false ∧ (crcS 0 0 16 []).crcBusy 1 2 = false) ∧
    crcBad ((crcS 0 0 16 []).crcPoly 1 2) 2 ((crcS 0 0 16 []).crcAddr (F.CRC_k_SRC_LO_ADDR 1 2) (F.CRC_k_SRC_HI_ADDR 1 2)) ((crcS 0 0 16 []).crcAddr
      (F.CRC_k_DST_LO_ADDR 1 2) (F.CRC_k_DST_HI_ADDR 1 2)) ((crcS 0 0 16 []).rd (F.CRC_k_LEN_LEN 1 2)) = false ∧
    crcBad ((crcS 0 0 16 []).crcPoly 1 2) 3 ((crcS 0 0 16 []).crcAddr (F.CRC_k_SRC_LO_ADDR 1 2) (F.CRC_k_SRC_HI_ADDR 1 2)) ((crcS 0 0 16 []).crcAddr
      (F.CRC_k_DST_LO_ADDR 1 2) (F.CRC_k_DST_HI_ADDR 1 2)) ((crcS 0 0 16 []).rd (F.CRC_k_LEN_LEN 1 2)) = false ∧
    crcBad ((crcS 0 0 16 []).crcPoly 1 2) 4 ((crcS 0 0 16 []).crcAddr (F.CRC_k_SRC_LO_ADDR 1 2) (F.CRC_k_SRC_HI_ADDR 1 2)) ((crcS 0 0 16 []).crcAddr
      (F.CRC_k_DST_LO_ADDR 1 2) (F.CRC_k_DST_HI_ADDR 1 2)) ((crcS 0 0 16 []).rd (F.CRC_k_LEN_LEN 1 2)) = false ∧
    (crcS 0 0 16 []).crcPoly 1 2 ≠ 3 ∧ (crcS 0 0 16 []).crcBound 1 2 = false ∧ (crcS 0 0 16 []).crcOp 1 2 = none := by decide +kernel
theorem witness_CrcEngines_1d :
  crcTwin.dieUp 0 = true ∧ (¬(crcTwin.crcBound 0 15 = false ∧ crcTwin.crcBusy 0 15 = false)) ∧ crcTwin.crcBound 0 15 = true := by decide +kernel
theorem witness_CrcEngines_2 :
  (crcDig.crcOp 1 2).isSome = true ∧ crcDig.crcOp 1 2 = some (2, 33554448, 33554944, 9) ∧ 1 ≤ 9 ∧ 9 ≤ 16 ∧
    crcDig.fabBytes 1 33554448 9 = ((crcDig.fabBytes 1 33554448 9).fst, some [49, 50, 51, 52, 53, 54, 55, 56, 57]) := by decide +kernel
theorem witness_CrcEngines_2b :
  (crcS 0 0 16 []).crcOp 1 2 = none := by decide +kernel
theorem witness_CrcEngines_1e :
  crcRun.dieUp 1 = true ∧ ¬(crcRun.crcBound 1 2 = false ∧ crcRun.crcBusy 1 2 = false) ∧
    Instr.crcReset 1 2 ∈ [Instr.crcReset 1 2, .crcCompute 1 2, .crcAppend 1 2, .crcStrip 1 2, .crcData32 1 2 5, .crcData16 1 2 5, .crcData8 1 2 5,
      .crcValueWrite 1 2 5] := by decide +kernel

/-! RecorderCommands -/
theorem witness_RecorderCommands_1 :
  ((flds [(F.REC_STREAM_EN, 0), (F.REC_HEAD_SEQ 0, 5)]).on F.REC_STREAM_EN = false ∨ (flds [(F.REC_STREAM_EN, 0), (F.REC_HEAD_SEQ 0,
    5)]).crowns < 0) := by decide +kernel
theorem witness_RecorderCommands_1b :
  recS.on F.REC_STREAM_EN = true ∧ 0 ≤ recS.crowns ∧ recS.copyNext 0 ≠ recS.rd (F.REC_HEAD_SEQ 0) ∧
    (¬(recS.newestOf 0 (recS.copyNext 0) = true ∧ recS.cycle < mapGet (fun _ => 0) recS.recorder.newAt 0 + 400 * max 1 (recS.rd F.REC_STREAM_HOLD_US))) ∧
    recS.streams (recS.recAt 0 (recS.copyNext 0 % recN 0)) (mapGet (fun _ => []) recS.recorder.groves (0 * 16384 + recS.copyNext 0 % recN 0)) = true
      := by decide +kernel
theorem witness_RecorderCommands_1c :
  recF.on F.REC_STREAM_EN = true ∧ 0 ≤ recF.crowns ∧ recF.copyNext 0 ≠ recF.rd (F.REC_HEAD_SEQ 0) ∧
    (¬(recF.newestOf 0 (recF.copyNext 0) = true ∧ recF.cycle < mapGet (fun _ => 0) recF.recorder.newAt 0 + 400 * max 1 (recF.rd F.REC_STREAM_HOLD_US))) ∧
    recF.streams (recF.recAt 0 (recF.copyNext 0 % recN 0)) (mapGet (fun _ => []) recF.recorder.groves (0 * 16384 + recF.copyNext 0 % recN 0)) = false
      := by decide +kernel
theorem witness_RecorderCommands_1d :
  ((flds [(F.REC_STREAM_EN, 1)]).copyNext 0 = (flds [(F.REC_STREAM_EN, 1)]).rd (F.REC_HEAD_SEQ 0) ∨ (flds [(F.REC_STREAM_EN,
    1)]).newestOf 0 ((flds [(F.REC_STREAM_EN, 1)]).copyNext 0) = true ∧
    (flds [(F.REC_STREAM_EN, 1)]).cycle < mapGet (fun _ => 0) (flds [(F.REC_STREAM_EN, 1)]).recorder.newAt 0 + 400 * max 1 ((flds [(F.REC_STREAM_EN,
    1)]).rd F.REC_STREAM_HOLD_US)) ∧
    (flds [(F.REC_STREAM_EN, 1)]).on F.REC_STREAM_EN = true ∧ 0 ≤ (flds [(F.REC_STREAM_EN, 1)]).crowns := by decide +kernel
theorem witness_RecorderCommands_2 :
  (flds [(F.REC_CNT_S_LOST, 4294967295)]).activeRing 9 4 = false := by decide +kernel
theorem witness_RecorderCommands_3 :
  recRdSt.dispatchable 0 64 = some recRdD ∧ fieldAt recRdD.words 7 15 17 = 0 ∧ fieldAt recRdD.words 8 15 17 = 0 ∧
    (∀ k < 15, 9 ≤ k → recRdD.words.getD k 0 = 0) := by decide +kernel
theorem witness_RecorderCommands_4 :
  (clr 1 []).on F.REC_CLR_STATUS_BUSY = true := by decide +kernel
theorem witness_RecorderCommands_4b :
  (clr 0 []).on F.REC_CLR_STATUS_BUSY = false := by decide +kernel

/-! ResetSources -/
theorem witness_ResetSources_2 :
  (held17 [] false false 5).isOff = false := by decide +kernel
theorem witness_ResetSources_2b :
  (held17 [(0, packagePath)] false false 1).isOff = true := by decide +kernel
theorem witness_ResetSources_3 :
  (held17 [] false false 1).isOff = true := by decide +kernel
theorem witness_ResetSources_3b :
  (held17 [] false true 5).isOff = false ∧ (∀ (h : Nat × Nat), h ∈ (held17 [] false true 5).rst.holds → h.fst ≠ 2) ∧
    (∀ (h : Nat × Nat), h ∈ (held17 [] false true 5).rst.holds → h.fst ≠ 1) := by decide +kernel
theorem witness_ResetSources_4 :
  (held17 [(2, packagePath)] true false 2).rst.perst = false ∧ (held17 [(2, packagePath)] true false 2).rst.rstN = true := by decide +kernel
theorem witness_ResetSources_4b :
  (held17 [(1, packagePath)] false true 1).rst.rstN = false ∧ (held17 [(1, packagePath)] false true 1).rst.perst = true := by decide +kernel
theorem witness_ResetSources_5 :
  (held17 [] false false 5).dieUp 0 = true ∧ 0 = 0 ∧ 42405 = 42405 ∧
    (42405 ≠ 19228 ∨ (held17 [] false false 5).on (F.RST_WDT_CFG_EN 0) = false) := by decide +kernel
theorem witness_ResetSources_5b :
  wdtS.dieUp 1 = true ∧ 19228 = 19228 ∧ wdtS.on (F.RST_WDT_CFG_EN 1) = true := by decide +kernel
theorem witness_ResetSources_5c :
  (held17 [] false false 5).dieUp 0 = true ∧ 0 = 0 ∧ 42406 ≠ 42405 ∧
    (42406 ≠ 19228 ∨ (held17 [] false false 5).on (F.RST_WDT_CFG_EN 0) = false) := by decide +kernel
theorem witness_ResetSources_6 :
  wdtDue.on (F.RST_WDT_CFG_EN 1) = true ∧ 1 ≤ wdtDue.crowns ∧ wdtDue.wdtLeft 1 = 0 := by decide +kernel
theorem witness_ResetSources_6b :
  (wdtS.on (F.RST_WDT_CFG_EN 2) = false ∨ wdtS.crowns < 2 ∨ wdtS.wdtLeft 2 ≠ 0) := by decide +kernel
theorem witness_ResetSources_7 :
  grvHeld.dieUp 0 = true ∧ grvHeld.on (F.RST_GRVj_CTL_HOLD 3) = true := by decide +kernel
theorem witness_ResetSources_7b :
  (grv 0 0).dieUp 0 = true ∧ (grv 0 0).on (F.RST_GRVj_CTL_HOLD 3) = false ∧ (grv 0 0).grvCheck ((grv 0 0).rd (F.RST_GRVj_PATH_PATH 3)) ≠ 0 := by decide +kernel
theorem witness_ResetSources_7c :
  (grv (mkPath [1, 0]) 0).dieUp 0 = true ∧ (grv (mkPath [1, 0]) 0).on (F.RST_GRVj_CTL_HOLD 3) = false ∧
    (grv (mkPath [1, 0]) 0).grvCheck ((grv (mkPath [1, 0]) 0).rd (F.RST_GRVj_PATH_PATH 3)) = 0 := by decide +kernel
theorem witness_ResetSources_8 :
  (wait17 []).isOff = false ∧ ((wait17 []).isOff = true ∨ (wait17 []).pathOk 0 = false) ∧
    (¬0 ∈ (wait17 []).rst.waiting ∨ 0 ∈ (wait17 []).rst.noclk) := by decide +kernel
theorem witness_ResetSources_8b :
  (wait17 []).isOff = false ∧ (wait17 []).pathOk (BitVec.ofNat 32 (mkPath [1, 0, 2])).toNat = true ∧
    (BitVec.ofNat 32 (mkPath [1, 0, 2])).toNat ∈ (wait17 []).rst.waiting ∧
      ¬(BitVec.ofNat 32 (mkPath [1, 0, 2])).toNat ∈ (wait17 []).rst.noclk := by decide +kernel

/-! PowerAndModes -/
theorem witness_PowerAndModes_1 :
  1 ≤ (th 0).crowns ∧ [10, 20, 30, 40, 50, 60, 101, 255].length = 8 ∧ (th 0).isOff = false ∧ (th 0).on (F.PWR_THERM_STATUS_TRIPPED 1) = false ∧
    (∃ t, t ∈ List.map (fun x => signed 8 ↑x) [10, 20, 30, 40, 50, 60, 101, 255] ∧ ↑((th 0).rd (F.PWR_THERM_CFG_TRIP 1)) < t) := by decide +kernel
theorem witness_PowerAndModes_1b :
  1 ≤ (th 1).crowns ∧ [10, 20, 30, 40, 50, 60, 90, 255].length = 8 ∧ (th 1).isOff = false ∧ (th 1).on (F.PWR_THERM_STATUS_TRIPPED 1) = true ∧
    (∀ (t : Int), t ∈ List.map (fun x => signed 8 ↑x) [10, 20, 30, 40, 50, 60, 90, 255] → t ≤ ↑((th 1).rd (F.PWR_THERM_CFG_TRIP 1)) - 10) := by decide +kernel
theorem witness_PowerAndModes_1c :
  1 ≤ (th 1).crowns ∧ [10, 20, 30, 40, 50, 60, 91, 255].length = 8 ∧ (th 1).isOff = false ∧ (th 1).on (F.PWR_THERM_STATUS_TRIPPED 1) = true ∧
    (((th 1).on (F.PWR_THERM_STATUS_TRIPPED 1) = false ∧ ∀ (t : Int), t ∈ List.map (fun x => signed 8 ↑x) [10, 20, 30, 40, 50, 60, 91,
      255] → t ≤ ↑((th 1).rd (F.PWR_THERM_CFG_TRIP 1))) ∨ (th 1).on (F.PWR_THERM_STATUS_TRIPPED 1) = true ∧
      ∃ t, t ∈ List.map (fun x => signed 8 ↑x) [10, 20, 30, 40, 50, 60, 91, 255] ∧ ↑((th 1).rd (F.PWR_THERM_CFG_TRIP 1)) - 10 < t) := by decide +kernel
theorem witness_PowerAndModes_2 :
  (slot17 5 []).dieUp 0 = true ∧ (if true = true then (slot17 5 []).pwrCheck (!true) ((slot17 5 []).rd (F.PWR_SLOTj_PATH_PATH 31)) else 0) ≠ 0 := by
    decide +kernel
theorem witness_PowerAndModes_2b :
  (slot17 (mkPath [1, 12]) []).dieUp 0 = true ∧
    (if true = true then (slot17 (mkPath [1, 12]) []).pwrCheck (!false) ((slot17 (mkPath [1,
      12]) []).rd (F.PWR_SLOTj_PATH_PATH 31)) else 0) = 0 := by decide +kernel
theorem witness_PowerAndModes_3 :
  (slot17 (mkPath [1, 20]) []).dieUp 0 = true ∧
    (slot17 (mkPath [1, 20]) []).pathOk ((slot17 (mkPath [1, 20]) []).rd (F.PWR_SLOTj_PATH_PATH 31)) = true ∧
    isGrove ((slot17 (mkPath [1, 20]) []).rd (F.PWR_SLOTj_PATH_PATH 31)) = false ∧
    (slot17 (mkPath [1, 20]) []).leaves ((slot17 (mkPath [1, 20]) []).rd (F.PWR_SLOTj_PATH_PATH 31)) = [mkPath [1, 20]] ∧
    alwaysOn (mkPath [1, 20]) = true := by decide +kernel
theorem witness_PowerAndModes_3b :
  (slot17 (mkPath [1, 12]) []).dieUp 0 = true ∧
    (slot17 (mkPath [1, 12]) []).pathOk ((slot17 (mkPath [1, 12]) []).rd (F.PWR_SLOTj_PATH_PATH 31)) = true ∧
    isGrove ((slot17 (mkPath [1, 12]) []).rd (F.PWR_SLOTj_PATH_PATH 31)) = false ∧
    (slot17 (mkPath [1, 12]) []).leaves ((slot17 (mkPath [1, 12]) []).rd (F.PWR_SLOTj_PATH_PATH 31)) = [mkPath [1, 12]] ∧
    alwaysOn (mkPath [1, 12]) = false ∧ (slot17 (mkPath [1, 12]) []).domUsed (mkPath [1, 12]) = false := by decide +kernel
theorem witness_PowerAndModes_3c :
  (slot17 (mkPath [1, 12]) [(F.DEC_STRi_CFG_EN 1 7, 1)]).dieUp 0 = true ∧
    (slot17 (mkPath [1, 12]) [(F.DEC_STRi_CFG_EN 1 7, 1)]).pathOk ((slot17 (mkPath [1, 12]) [(F.DEC_STRi_CFG_EN 1 7,
      1)]).rd (F.PWR_SLOTj_PATH_PATH 31)) = true ∧
    isGrove ((slot17 (mkPath [1, 12]) [(F.DEC_STRi_CFG_EN 1 7, 1)]).rd (F.PWR_SLOTj_PATH_PATH 31)) = false ∧
    (slot17 (mkPath [1, 12]) [(F.DEC_STRi_CFG_EN 1 7, 1)]).leaves ((slot17 (mkPath [1, 12]) [(F.DEC_STRi_CFG_EN 1 7,
      1)]).rd (F.PWR_SLOTj_PATH_PATH 31)) = [mkPath [1, 12]] ∧
    alwaysOn (mkPath [1, 12]) = false ∧ (slot17 (mkPath [1, 12]) [(F.DEC_STRi_CFG_EN 1 7, 1)]).domUsed (mkPath [1, 12]) = true := by decide +kernel
theorem witness_PowerAndModes_4 :
  (slotOff 1).nextDomain = none := by decide +kernel
theorem witness_PowerAndModes_5 :
  1 * 256 + 4 ∈ domUp17.rst.domsUp := by decide +kernel
theorem witness_PowerAndModes_5b :
  ¬1 * 256 + 5 ∈ domUp17.rst.domsUp := by decide +kernel
theorem witness_PowerAndModes_6 :
  quar.dieUp 0 = true ∧ quar.rd F.PWR_MODE_MODE ≠ 3 ∧ quar.rd F.PWR_MODE_MODE ≠ 4 ∧ quar.rd F.PWR_MODE_MODE ≠ 11 ∧ quar.rd F.PWR_MODE_MODE ≠ 5 ∧
    quar.rd F.PWR_MODE_MODE = 12 ∧ quar.quarantineCrown ≠ 0 := by decide +kernel
theorem witness_PowerAndModes_6b :
  (md 4 []).dieUp 0 = true ∧ (md 4 []).rd F.PWR_MODE_MODE ≠ 3 ∧ (md 4 []).rd F.PWR_MODE_MODE = 4 ∧ (md 4 []).calibrated = false ∧
    (md 4 []).rd F.PWR_MODE_MODE ≠ 5 ∧ (md 4 []).rd F.PWR_MODE_MODE ≠ 12 := by decide +kernel
theorem witness_PowerAndModes_6c :
  (md 3 []).dieUp 0 = true ∧ (md 3 []).rd F.PWR_MODE_MODE = 3 ∧ (md 3 []).rd F.PWR_MODE_MODE ≠ 4 ∧ (md 3 []).rd F.PWR_MODE_MODE ≠ 11 ∧
    (md 3 []).rd F.PWR_MODE_MODE ≠ 5 ∧ (md 3 []).rd F.PWR_MODE_MODE ≠ 12 := by decide +kernel
theorem witness_PowerAndModes_6d :
  (md 5 []).dieUp 0 = true ∧ (md 5 []).rd F.PWR_MODE_MODE ≠ 3 ∧ (md 5 []).rd F.PWR_MODE_MODE ≠ 4 ∧ (md 5 []).rd F.PWR_MODE_MODE ≠ 11 ∧
    (md 5 []).rd F.PWR_MODE_MODE = 5 ∧ (md 5 []).quiet = true ∧ (md 5 []).rd F.PWR_MODE_MODE ≠ 12 := by decide +kernel
theorem witness_PowerAndModes_6e :
  calib.dieUp 0 = true ∧ calib.rd F.PWR_MODE_MODE ≠ 3 ∧ calib.rd F.PWR_MODE_MODE = 4 ∧
    (calib.rd F.PWR_MODE_MODE = 4 ∧ calib.calibrated = true ∨ calib.rd F.PWR_MODE_MODE = 11) ∧ calib.rd F.PWR_MODE_MODE ≠ 5 ∧
    calib.rd F.PWR_MODE_MODE ≠ 12 := by decide +kernel
theorem witness_PowerAndModes_6f :
  (md 12 []).dieUp 0 = true ∧ (md 12 []).rd F.PWR_MODE_MODE ≠ 3 ∧ (md 12 []).rd F.PWR_MODE_MODE ≠ 4 ∧ (md 12 []).rd F.PWR_MODE_MODE ≠ 11 ∧
    (md 12 []).rd F.PWR_MODE_MODE ≠ 5 ∧ (md 12 []).rd F.PWR_MODE_MODE = 12 ∧ (md 12 []).quarantineCrown = 0 := by decide +kernel
theorem witness_PowerAndModes_6g :
  (md 5 [(F.LT_TLn_CTL_EN 2, 1)]).dieUp 0 = true ∧ (md 5 [(F.LT_TLn_CTL_EN 2, 1)]).rd F.PWR_MODE_MODE ≠ 3 ∧
    (md 5 [(F.LT_TLn_CTL_EN 2, 1)]).rd F.PWR_MODE_MODE ≠ 4 ∧ (md 5 [(F.LT_TLn_CTL_EN 2, 1)]).rd F.PWR_MODE_MODE ≠ 11 ∧
    (md 5 [(F.LT_TLn_CTL_EN 2, 1)]).rd F.PWR_MODE_MODE = 5 ∧ (md 5 [(F.LT_TLn_CTL_EN 2, 1)]).quiet = false ∧
    (md 5 [(F.LT_TLn_CTL_EN 2, 1)]).rd F.PWR_MODE_MODE ≠ 12 := by decide +kernel
theorem witness_PowerAndModes_4b :
  (slotOff 0).nextDomain = some 366 ∧ 366 ∉ (slotOff 0).rst.domsOff := by decide +kernel
theorem witness_PowerAndModes_4c :
  slotOn.nextDomain = some 366 ∧ 366 ∈ slotOn.rst.domsOff := by decide +kernel
theorem witness_PowerAndModes_6h :
  (md 5 []).dieUp 0 = true ∧ ((0 : Fin 16).val = 0 ∨ 4 < (0 : Fin 16).val) := by decide +kernel

/-! BootAndFlash -/
theorem witness_BootAndFlash_1 :
  (boot18 0).inRom = true ∧ ((boot18 0).bootSrc = 0 ∨ (boot18 0).bootSrc = 3) ∧ imageOk 0 [] = false := by decide +kernel
theorem witness_BootAndFlash_1b :
  (boot18 0).inRom = true ∧ ((boot18 0).bootSrc = 0 ∨ (boot18 0).bootSrc = 3) ∧ imageOk 0 (img18 0) = true := by decide +kernel
theorem witness_BootAndFlash_2 :
  (boot18 2).inRom = true ∧ (boot18 2).bootSrc = 2 ∧
    (((boot18 2).rst.twinImage ++ List.take 4096 [1, 2]).length < 64 ∨ 64 ≤ wordAt (wordsOf (List.take 64 ((boot18 2).rst.twinImage ++
      List.take 4096 [1, 2]))) 2 ∧ wordAt (wordsOf (List.take 64 ((boot18 2).rst.twinImage ++ List.take 4096 [1, 2]))) 2 ≤ 2097152 ∧
      ((boot18 2).rst.twinImage ++ List.take 4096 [1, 2]).length < wordAt (wordsOf (List.take 64 ((boot18 2).rst.twinImage ++ List.take 4096 [1,
      2]))) 2) := by decide +kernel
theorem witness_BootAndFlash_2b :
  (boot18 2).inRom = true ∧ (boot18 2).bootSrc = 2 ∧
    (¬(((boot18 2).rst.twinImage ++ List.take 4096 (img18 0)).length < 64 ∨ 64 ≤ wordAt (wordsOf (List.take 64 ((boot18 2).rst.twinImage ++
      List.take 4096 (img18 0)))) 2 ∧ wordAt (wordsOf (List.take 64 ((boot18 2).rst.twinImage ++ List.take 4096 (img18 0)))) 2 ≤ 2097152 ∧
      ((boot18 2).rst.twinImage ++ List.take 4096 (img18 0)).length < wordAt (wordsOf (List.take 64 ((boot18 2).rst.twinImage ++
      List.take 4096 (img18 0)))) 2)) ∧
    imageOk 0 ((boot18 2).rst.twinImage ++ List.take 4096 (img18 0)) = true := by decide +kernel
theorem witness_BootAndFlash_2c :
  (boot18 2).inRom = true ∧ (boot18 2).bootSrc = 2 ∧
    (¬(((boot18 2).rst.twinImage ++ List.take 4096 (img18 1)).length < 64 ∨ 64 ≤ wordAt (wordsOf (List.take 64 ((boot18 2).rst.twinImage ++
      List.take 4096 (img18 1)))) 2 ∧ wordAt (wordsOf (List.take 64 ((boot18 2).rst.twinImage ++ List.take 4096 (img18 1)))) 2 ≤ 2097152 ∧
      ((boot18 2).rst.twinImage ++ List.take 4096 (img18 1)).length < wordAt (wordsOf (List.take 64 ((boot18 2).rst.twinImage ++
      List.take 4096 (img18 1)))) 2)) ∧
    imageOk 0 ((boot18 2).rst.twinImage ++ List.take 4096 (img18 1)) = false := by decide +kernel
theorem witness_BootAndFlash_3 :
  (boot18 0).dieUp 0 = true ∧ (¬((boot18 0).inRom = true ∧ (boot18 0).bootSrc = 1)) ∧ (boot18 0).inRom = true := by decide +kernel
theorem witness_BootAndFlash_3b :
  (mb18 0).dieUp 0 = true ∧ (mb18 0).inRom = true ∧ (mb18 0).bootSrc = 1 ∧
    imageOk 0 (List.map (fun i => (mb18 0).sramByte 0 i) (List.range (min 2097152 ((mb18 0).rd F.BOOT_MBOX_LEN_LEN)))) = true := by decide +kernel
theorem witness_BootAndFlash_3c :
  (mb18 1).dieUp 0 = true ∧ (mb18 1).inRom = true ∧ (mb18 1).bootSrc = 1 ∧
    imageOk 0 (List.map (fun i => (mb18 1).sramByte 0 i) (List.range (min 2097152 ((mb18 1).rd F.BOOT_MBOX_LEN_LEN)))) = false := by decide +kernel
theorem witness_BootAndFlash_4 :
  (core18 1 [1]).hasCrown 1 = true ∧ (core18 1 [1]).dieUp 1 = true ∧ 1 ∈ (core18 1 [1]).rst.coresUp ∧ (core18 1 [1]).on (F.BOOT_CORES_RUN 1) = true ∧
    (1 ∈ (core18 1 [1]).rst.coresUp ∨ (core18 1 [1]).on (F.BOOT_CORES_RUN 1) = false) := by decide +kernel
theorem witness_BootAndFlash_4b :
  (core18 1 []).hasCrown 1 = true ∧ (core18 1 []).dieUp 1 = true ∧ ¬1 ∈ (core18 1 []).rst.coresUp ∧
    (core18 1 []).on (F.BOOT_CORES_RUN 1) = true := by decide +kernel
theorem witness_BootAndFlash_4c :
  goodCore.hasCrown 1 = true ∧ goodCore.dieUp 1 = true ∧ ¬1 ∈ goodCore.rst.coresUp ∧ goodCore.on (F.BOOT_CORES_RUN 1) = false ∧
    imageOk 1 (List.map (fun i => goodCore.sramByte 1 i) (List.range 2097152)) = true ∧
      (1 ∈ goodCore.rst.coresUp ∨ goodCore.on (F.BOOT_CORES_RUN 1) = false) := by
  refine ⟨by decide +kernel, by decide +kernel, by decide +kernel, by decide +kernel, ?_, by decide +kernel⟩
  simp only [imageOk, ← List.map_take, List.take_range, List.length_map, List.length_range]
  decide +kernel
theorem witness_BootAndFlash_4d :
  (core18 0 []).hasCrown 1 = true ∧ (core18 0 []).dieUp 1 = true ∧ ¬1 ∈ (core18 0 []).rst.coresUp ∧ (core18 0 []).on (F.BOOT_CORES_RUN 1) = false ∧
    imageOk 1 (List.map (fun i => (core18 0 []).sramByte 1 i) (List.range 2097152)) = false ∧ ¬1 ∈ (core18 0 []).rst.needReset ∧
      (1 ∈ (core18 0 []).rst.coresUp ∨ (core18 0 []).on (F.BOOT_CORES_RUN 1) = false) := by
  refine ⟨by decide +kernel, by decide +kernel, by decide +kernel, by decide +kernel, ?_, by decide +kernel, by decide +kernel⟩
  simp only [imageOk, ← List.map_take, List.take_range, List.length_map, List.length_range]
  decide +kernel
theorem witness_BootAndFlash_5 :
  (core18 1 []).dieUp 1 = true ∧ ¬1 ∈ (core18 1 []).rst.coresUp := by decide +kernel
theorem witness_BootAndFlash_5b :
  (core18 1 [1]).dieUp 1 = true ∧ 1 ∈ (core18 1 [1]).rst.coresUp := by decide +kernel
theorem witness_BootAndFlash_6 :
  (core18 1 []).dieUp 1 = true := by decide +kernel
theorem witness_BootAndFlash_7 :
  (spi18 3 35651582).on (F.BOOT_SPI_STATUS_BUSY 1) = true ∧ spiProgram ((spi18 3 35651582).rd (F.BOOT_SPI_CMD_OPCODE 1)) = false ∧
    (∃ k, k < (List.take ((spi18 3 35651582).rd (F.BOOT_SPI_LEN_LEN 1)) [1, 2, 3, 4]).length ∧
      (spi18 3 35651582).fabWritable 1 ((spi18 3 35651582).rd (F.BOOT_SPI_DST_ADDR 1) + k) = false) := by decide +kernel
theorem witness_BootAndFlash_7b :
  State.reset.on (F.BOOT_SPI_STATUS_BUSY 1) = false := by decide +kernel
theorem witness_BootAndFlash_7c :
  (spi18 3 33554432).on (F.BOOT_SPI_STATUS_BUSY 1) = true ∧ spiProgram ((spi18 3 33554432).rd (F.BOOT_SPI_CMD_OPCODE 1)) = false ∧
    (∀ (k : Nat), k < (List.take ((spi18 3 33554432).rd (F.BOOT_SPI_LEN_LEN 1)) [1, 2, 3,
      4]).length → (spi18 3 33554432).fabWritable 1 ((spi18 3 33554432).rd (F.BOOT_SPI_DST_ADDR 1) + k) = true) := by decide +kernel
theorem witness_BootAndFlash_7d :
  (spi18 2 35651582).on (F.BOOT_SPI_STATUS_BUSY 1) = true ∧ spiProgram ((spi18 2 35651582).rd (F.BOOT_SPI_CMD_OPCODE 1)) = true ∧
    ((((spi18 2 35651582).wr (F.BOOT_SPI_STATUS_BUSY 1) 0).wr (F.BOOT_SPI_CMD_GO 1) 0).wr (F.BOOT_SPI_STATUS_WP 1) (bit true)).fabBytes 1 ((spi18 2
      35651582).rd (F.BOOT_SPI_DST_ADDR 1)) ((spi18 2 35651582).rd (F.BOOT_SPI_LEN_LEN 1)) = (((bootA 2 35651582).fabBytes 1 35651582 3).fst,
      none) := by decide +kernel
theorem witness_BootAndFlash_7e :
  (spi18 2 33554432).on (F.BOOT_SPI_STATUS_BUSY 1) = true ∧ spiProgram ((spi18 2 33554432).rd (F.BOOT_SPI_CMD_OPCODE 1)) = true ∧
    ((((spi18 2 33554432).wr (F.BOOT_SPI_STATUS_BUSY 1) 0).wr (F.BOOT_SPI_CMD_GO 1) 0).wr (F.BOOT_SPI_STATUS_WP 1) (bit true)).fabBytes 1 ((spi18 2
      33554432).rd (F.BOOT_SPI_DST_ADDR 1)) ((spi18 2 33554432).rd (F.BOOT_SPI_LEN_LEN 1)) = (((bootA 2 33554432).fabBytes 1 33554432 3).fst, some [0,
      0, 0]) := by decide +kernel

/-! RegisterWrites -/
theorem witness_RegisterWrites_1 :
  536870912 % 4 = 0 ∧ 536870912 ≤ 536870912 ∧ 536870912 < 537919488 := by decide +kernel
theorem witness_RegisterWrites_1b :
  (1 % 4 ≠ 0 ∨ 537919488 ≤ 1 ∨ 1 < 536870912 ∧ State.reset.crowns < 1 / 67108864) := by decide +kernel
theorem witness_RegisterWrites_1c :
  73400320 % 4 = 0 ∧ (73400320 % 4 = 0 ∧ 73400320 < 536870912 ∧ 73400320 / 67108864 ≤ (rf18 [mkPath [0, 21]]).crowns) ∧
    (rf18 [mkPath [0, 21]]).dieUp 0 = false := by decide +kernel
theorem witness_RegisterWrites_1d :
  68157456 % 4 = 0 ∧ (68157456 % 4 = 0 ∧ 68157456 < 536870912 ∧ 68157456 / 67108864 ≤ State.reset.crowns) ∧ State.reset.dieUp 0 = true ∧
    68157456 / 67108864 ≠ 0 ∧ State.reset.uciUp (68157456 / 67108864) = false := by decide +kernel
theorem witness_RegisterWrites_1e :
  73400320 % 4 = 0 ∧ (73400320 % 4 = 0 ∧ 73400320 < 536870912 ∧ 73400320 / 67108864 ≤ (uci1 (rf18 [mkPath [1, 20]])).crowns) ∧
    (uci1 (rf18 [mkPath [1, 20]])).dieUp 0 = true ∧ 73400320 / 67108864 ≠ 0 ∧
    ((73400320 % 4 = 0 ∧ 73400320 < 536870912 ∧ 73400320 / 67108864 ≤ (uci1 (rf18 [mkPath [1, 20]])).crowns) ∧
      (uci1 (rf18 [mkPath [1, 20]])).dieUp 0 = true ∧ (73400320 / 67108864 = 0 ∨ (uci1 (rf18 [mkPath [1, 20]])).uciUp (73400320 / 67108864) = true)) ∧
    (uci1 (rf18 [mkPath [1, 20]])).dieUp (73400320 / 67108864) = false := by decide +kernel
theorem witness_RegisterWrites_1f :
  74973216 % 4 = 0 ∧ (74973216 % 4 = 0 ∧ 74973216 < 536870912 ∧ 74973216 / 67108864 ≤ (uci1 (rf18 [mkPath [1, 13]])).crowns) ∧
    (uci1 (rf18 [mkPath [1, 13]])).dieUp 0 = true ∧ 74973216 / 67108864 ≠ 0 ∧
    ((74973216 % 4 = 0 ∧ 74973216 < 536870912 ∧ 74973216 / 67108864 ≤ (uci1 (rf18 [mkPath [1, 13]])).crowns) ∧
      (uci1 (rf18 [mkPath [1, 13]])).dieUp 0 = true ∧ (74973216 / 67108864 = 0 ∨ (uci1 (rf18 [mkPath [1, 13]])).uciUp (74973216 / 67108864) = true)) ∧
    (uci1 (rf18 [mkPath [1, 13]])).dieUp (74973216 / 67108864) = true ∧ (uci1 (rf18 [mkPath [1, 13]])).regBlocked 74973216 = true := by decide +kernel
theorem witness_RegisterWrites_1g :
  1115660 % 4 = 0 ∧ (1115660 % 4 = 0 ∧ 1115660 < 536870912 ∧ 1115660 / 67108864 ≤ State.reset.crowns) ∧ State.reset.dieUp 0 = true ∧
    ((1115660 % 4 = 0 ∧ 1115660 < 536870912 ∧ 1115660 / 67108864 ≤ State.reset.crowns) ∧ State.reset.dieUp 0 = true ∧
      (1115660 / 67108864 = 0 ∨ State.reset.uciUp (1115660 / 67108864) = true)) ∧
    State.reset.dieUp (1115660 / 67108864) = true ∧
    (((1115660 % 4 = 0 ∧ 1115660 < 536870912 ∧ 1115660 / 67108864 ≤ State.reset.crowns) ∧ State.reset.dieUp 0 = true ∧
      (1115660 / 67108864 = 0 ∨ State.reset.uciUp (1115660 / 67108864) = true)) ∧ State.reset.dieUp (1115660 / 67108864) = true ∧
      State.reset.regBlocked 1115660 = false ∧ hookAt (1115660 % 67108864) (hooksOf Req.host (1115660 / 67108864)) = none) ∧
    regCls 1115660 = some Cls.st := by decide +kernel
theorem witness_RegisterWrites_1h :
  1048592 % 4 = 0 ∧ (1048592 % 4 = 0 ∧ 1048592 < 536870912 ∧ 1048592 / 67108864 ≤ State.reset.crowns) ∧ State.reset.dieUp 0 = true ∧
    ((1048592 % 4 = 0 ∧ 1048592 < 536870912 ∧ 1048592 / 67108864 ≤ State.reset.crowns) ∧ State.reset.dieUp 0 = true ∧
      (1048592 / 67108864 = 0 ∨ State.reset.uciUp (1048592 / 67108864) = true)) ∧
    State.reset.dieUp (1048592 / 67108864) = true ∧
    (((1048592 % 4 = 0 ∧ 1048592 < 536870912 ∧ 1048592 / 67108864 ≤ State.reset.crowns) ∧ State.reset.dieUp 0 = true ∧
      (1048592 / 67108864 = 0 ∨ State.reset.uciUp (1048592 / 67108864) = true)) ∧ State.reset.dieUp (1048592 / 67108864) = true ∧
      State.reset.regBlocked 1048592 = false ∧ hookAt (1048592 % 67108864) (hooksOf Req.host (1048592 / 67108864)) = none) ∧
    (regRow 1048592 = none ∨ regCls 1048592 = some Cls.ro) := by decide +kernel
theorem witness_RegisterWrites_2 :
  heldCore.coreUp 1 1 = false := by decide +kernel
theorem witness_RegisterWrites_2b :
  (core18 1 [1]).coreUp 1 1 = true ∧ 1179648 % 4 = 0 ∧ 1179648 < 536870912 := by decide +kernel
theorem witness_RegisterWrites_1_hook :
  State.reset.dieUp 0 = true ∧ State.reset.regBlocked 0xC00004 = false ∧ (hookAt 0xC00004 (hooksOf .host 0)).isSome = true := by decide +kernel
theorem witness_RegisterWrites_1_plain :
  State.reset.regBlocked 65544 = false ∧ (hookAt 65544 (hooksOf .host 0)).isNone = true ∧ (regRow 65544).map (·.cls) = some .rw := by decide +kernel

/-! NormalCases -/
theorem witness_NormalCases_1 :
  2 ≠ 0 ∧ 2 ≠ 1 ∧ 2 ≠ 4 ∧ 2 ≠ 5 ∧ ((ref2 2).refState 2 = 2 ∨ (ref2 2).refState 2 = 3) := by decide +kernel
theorem witness_NormalCases_2 :
  State.reset.setState 5 = 0 := by decide +kernel
theorem witness_NormalCases_3 :
  getBits 5 3 1 = 0 := by decide +kernel
theorem witness_NormalCases_4 :
  (opened 10).isSt (R.LT_CHc_MAP 3) = true ∧ (opened 10).wselOpen Req.host = true ∧ (opened 10).setState ((opened 10).wselSet Req.host) = 1 ∧
    (opened 10).claim (R.LT_CHc_MAP 3) = none := by decide +kernel
theorem witness_NormalCases_5 :
  State.reset.isSt (R.LT_CHc_MAP 3) = true ∧ State.reset.wselOpen Req.host = false ∧ State.reset.claim (R.LT_CHc_MAP 3) = none ∧
    State.reset.ownerOn (State.reset.owner (R.LT_CHc_MAP 3)) = false ∧ (State.reset.owner (R.LT_CHc_MAP 3)).en = false := by decide +kernel
theorem witness_NormalCases_6 :
  subLater.dispatchable 0 48 = some subD1 ∧ subLater.submitCheck subD1 = 0 ∧ subLater.schedOf (dTarget subD1.words) = some 0 ∧
    fieldAt subD1.words 6 16 16 = 0 ∧ fieldAt subD1.words 7 23 9 = 0 ∧ (∀ i < 15, 12 ≤ i → subD1.words.getD i 0 = 0) ∧
    subLater.wakeLater 0 (subDlist subD1.words) (subWake subD1.words) = true := by decide +kernel
theorem witness_NormalCases_7 :
  getBits 1 0 1 = 1 ∧ ((picRun picA).encState 1 0 = 1 ∨ (picRun picA).encState 1 0 = 2) := by decide +kernel
theorem witness_NormalCases_8 :
  0 < coarseNoScd.areasX 1 0 ∧ 0 < coarseNoScd.areasY 1 0 ∧ coarseNoScd.coarseNext 1 0 0 0 = some picA ∧ coarseNoScd.ownBuf 1 picA = some 3 ∧
    picA.refs = [(5, 0)] ∧ coarseNoScd.coarseKnown 1 0 0 0 3 = true ∧ (coarseNoScd.asOf picA).on (F.MES_STRi_CFG_SCD 1 0) = false := by decide +kernel
theorem witness_NormalCases_9 :
  0 < small.blocksX 1 0 ∧ 0 < small.blocksY 1 0 ∧ small.tileOf 1 0 0 = 0 ∧ (small.coarse 1 0 (0 / 4) (0 / 4)).codingPic 1 0 0 = some picA ∧
    picA.mot.blk (blkKey 0 0) = none := by decide +kernel
theorem witness_NormalCases_10 :
  (hintSt (hintD 7) (picRun picA)).dispatchable 0 17 = some (hintD 7) ∧ fieldAt (hintD 7).words 7 5 27 = 0 ∧
    (∀ (k : Nat), k ∈ [9, 10, 12, 13] → (hintD 7).words.getD k 0 &&& 4261477888 = 0) ∧
    (hintSt (hintD 7) (picRun picA)).crownOf (dTarget (hintD 7).words) = some 1 ∧
    (hintSt (hintD 7) (picRun picA)).indexOf 1 (dStream (hintD 7).words) = some 0 ∧ (hintSt (hintD 7) (picRun picA)).strOn 1 0 = true := by decide +kernel
theorem witness_NormalCases_11 :
  (picRun picA).codingPic 1 0 0 = some picA := by decide +kernel
theorem witness_NormalCases_12 :
  v10x917.strOn 1 0 = true ∧ v10x917.slotSides 1 (0 / 8) = [] ∧ (v10x917.pkt (v10x917.strId 1 0)).mode part0.pic = none ∧
    List.find? (fun p => p.num == part0.pic) (v10x917.encSt 1 0).pics = some picA ∧ picA.coded = true ∧ picA.lost = false ∧ picA.row ≤ part0.row ∧
    part0.row < v10x917.strRows 1 0 ∧ ↑part0.tile < v10x917.strN 1 0 ∧
    v10x917.reachedOn (v10x917.chTl (v10x917.strChan 1 0)) (v10x917.rowDue 1 0 picA part0.row) = false := by decide +kernel
theorem witness_NormalCases_13 :
  v10x918.keptOf 1 = [] ∧ v10x918.handDue 1 0 = true := by decide +kernel
theorem witness_NormalCases_14 :
  (busyP.sending 2).isSome = true := by decide +kernel
theorem witness_NormalCases_15 :
  (busyP.sending (17 / 8)).isSome = true ∧ (busyP.classQ 17).wrote ≠ busyP.cycle + 1 := by decide +kernel
theorem witness_NormalCases_16 :
  getBits 0 30 1 = 0 := by decide +kernel
theorem witness_NormalCases_17 :
  dueEntry (State.reset.ptpT / 64) State.reset.whl.entries = none := by decide +kernel
theorem witness_NormalCases_18 :
  (∀ (w : Fin 24), (portsSt [(F.WHL_SMP_MASKw_MASK 0, 2 ^ 17)]).rd (F.WHL_SMP_MASKw_MASK ↑w) = if w.val = 17 / 32 then 2 ^ (17 % 32) else 0) ∧
    (portsSt [(F.WHL_SMP_MASKw_MASK 0, 2 ^ 17)]).on F.WHL_SAMPLE_RING_EN = false := by decide +kernel
theorem witness_NormalCases_20 :
  (flds [(F.PKT_FLOWf_CFG_EN 5, 1)]).tsFlow 5 = true := by decide +kernel
theorem witness_NormalCases_22 :
  (suspS [] []).pairOn 3 = true ∧ (suspS [] []).pairTwin 3 = false ∧ 1 ≤ (suspS [] []).role 3 1 ∧ (suspS [] []).role 3 1 ≤ 3 ∧
    ¬1 ∈ ((suspS [] []).pair 3).susp := by decide +kernel
theorem witness_NormalCases_22b :
  (suspS [1] [1]).pairOn 3 = true ∧ (suspS [1] [1]).pairTwin 3 = false ∧ 1 ≤ (suspS [1] [1]).role 3 1 ∧ (suspS [1] [1]).role 3 1 ≤ 3 ∧
    1 ∈ ((suspS [1] [1]).pair 3).susp ∧ 1 ∈ ((suspS [1] [1]).pair 3).seen ∧ (suspS [1] [1]).sideHealthy 3 1 = true := by decide +kernel
theorem witness_NormalCases_23 :
  (pairS 1 3 1 []).twinUp = true ∧ (pairS 1 3 1 []).on F.TWIN_CFG_EN = true ∧ (pairS 1 3 1 []).red.misses ≠ 3 := by decide +kernel
theorem witness_NormalCases_24 :
  (pairS 1 3 1 []).pairOn 3 = true ∧ (pairS 1 3 1 []).pairTwin 3 = true ∧ (pairS 1 3 1 []).role 3 0 = 3 ∧ ((pairS 1 3 1 []).pair 3).asked = false ∧
    ((pairS 1 3 1 []).pair 3).leaseEnd ≤ (pairS 1 3 1 []).cycle := by decide +kernel
theorem witness_NormalCases_25 :
  (hbmS 2 []).hasCrown 1 = true ∧ 25769803775 < 24 * 2 ^ 30 ∧ (hbmS 2 []).hbmReady 1 = true := by decide +kernel
theorem witness_NormalCases_26 :
  (hdmS 2).rd F.HIF_STATUS_MODE = 1 ∧ (hdmS 2).on F.HIF_STATUS_DECODER = true ∧ (hdmS 2).hdm 64 = some (1, 24696062016) ∧
    (hdmS 2).hbmReady 1 = true := by decide +kernel
theorem witness_NormalCases_27 :
  (hbmS 1 []).hasCrown 1 = true ∧ (hbmS 1 []).dieUp 1 = true ∧ (hbmS 1 []).hbmState 1 = 1 ∧ 1 < 6 ∧
    (hbmS 1 []).on (F.HBM_TRAIN_STATUS_BUSY 1) = false := by decide +kernel
theorem witness_NormalCases_28 :
  (trnS 2 false).hasCrown 1 = true ∧ (trnS 2 false).on (F.HBM_TRAIN_STATUS_BUSY 1) = true ∧ ((trnS 2 false).hbmSt 1).loop = false := by decide +kernel
theorem witness_NormalCases_29 :
  (boot18 2).inRom = true ∧ (boot18 2).bootSrc = 2 ∧ ((boot18 2).rst.twinImage ++ List.take 4096 [1, 2]).length < 64 ∧
    (boot18 2).dieUp 0 = true := by decide +kernel
theorem witness_NormalCases_29b :
  (boot18 0).inRom = true ∧ (boot18 0).bootSrc = 0 ∧ imageOk 0 (img18 0) = true ∧ (boot18 0).dieUp 0 = true := by decide +kernel
theorem witness_NormalCases_29c :
  (mb18 0).inRom = true ∧ (mb18 0).dieUp 0 = true ∧ (mb18 0).bootSrc = 1 ∧
    imageOk 0 (List.map (fun i => (mb18 0).sramByte 0 i) (List.range (min 2097152 ((mb18 0).rd F.BOOT_MBOX_LEN_LEN)))) = true := by decide +kernel
theorem witness_NormalCases_30 :
  (spi18 3 33554432).dieUp 1 = true ∧ (spi18 3 33554432).hasCrown 1 = true ∧ ¬1 ∈ (spi18 3 33554432).rst.coresUp ∧
    (spi18 3 33554432).on (F.BOOT_SPI_STATUS_BUSY 1) = true ∧ spiProgram ((spi18 3 33554432).rd (F.BOOT_SPI_CMD_OPCODE 1)) = false ∧
    (∀ (k : Nat), k < (List.take ((spi18 3 33554432).rd (F.BOOT_SPI_LEN_LEN 1)) [1, 2, 3,
      4]).length → (spi18 3 33554432).fabWritable 1 ((spi18 3 33554432).rd (F.BOOT_SPI_DST_ADDR 1) + k) = true) := by decide +kernel
theorem witness_NormalCases_30b :
  (core18 1 [1]).dieUp 1 = true ∧ (core18 1 [1]).hasCrown 1 = true ∧ 1 ∈ (core18 1 [1]).rst.coresUp := by decide +kernel
theorem witness_NormalCases_27b :
  (hbmS 1 []).hasCrown 1 = true ∧ (hbmS 1 []).dieUp 1 = true ∧ (hbmS 1 []).hbmState 1 = 1 ∧ (1 : Fin 8).val < 6 ∧
    (hbmS 1 []).on (F.HBM_TRAIN_STATUS_BUSY 1) = false ∧
    Instr.hbmTrainWrite 1 3 true 1 5 7 ∈ [Instr.hbmTrainWrite 1 3 true 1 5 7, .hbmTrainRead 1 3 true 1 5 7, .hbmTrainLoop 1 3 true 1 5 7] := by decide +kernel
theorem witness_NormalCases_31 :
  probing.laneStage 20 = 1 ∧ probing.laneProbes 20 = true := by decide +kernel
theorem witness_NormalCases_31b :
  trains.laneStage 20 = 2 ∧ trains.laneTrains 20 = true ∧ (trains.lane 20).fails = 0 := by decide +kernel
theorem witness_NormalCases_31c :
  (20 : Fin 108).val = (20 : Fin 100).val ∧ (checks 0).chkRuns 20 = true ∧ (checks 0).chkLocked 20 = false := by decide +kernel
theorem witness_NormalCases_31d :
  (20 : Fin 108).val = (20 : Fin 100).val ∧ (checks 1).chkRuns 20 = true ∧ (checks 1).chkLocked 20 = true := by decide +kernel

end Sys2Proof.Tests
end

section
/-!
PROOFS. REG_WRITE over the bus (R11, R12, R409, R410, R463 to R465): which way the address map sends a host's write, what the
access class of a register stores, and where a core's window stands in its fabric.
-/
namespace Sys2Proof.Machine

/-! ## Frames -/

/-- A write of one register moves that register alone. -/
theorem only_setReg (s : State) (a : Nat) (v : Word) : Only [a] s (s.setReg a v) :=
  ⟨fun _ hb _ => s.reg_setReg_ne v (List.ne_of_not_mem_cons hb), rfl⟩

/-! ## The rule of a register's access class (R11, R465) -/

/-- A write to an offset that no register has is dropped (R464). -/
theorem State.clsWrite_unassigned {s : State} {q : Req} {a : Nat} {v : Word} (h : regRow a = none) : s.clsWrite q a v = s := by
  simp only [State.clsWrite, h]

theorem State.clsWrite_ro {s : State} {q : Req} {a : Nat} {v : Word} (h : regCls a = some .ro) : s.clsWrite q a v = s := by
  obtain ⟨r, hr, hc⟩ := Option.map_eq_some_iff.1 h
  simp only [State.clsWrite, hr, hc]

theorem State.clsWrite_st {s : State} {q : Req} {a : Nat} {v : Word} (h : regCls a = some .st) : s.clsWrite q a v = s.stWrite q a v := by
  obtain ⟨r, hr, hc⟩ := Option.map_eq_some_iff.1 h
  simp only [State.clsWrite, hr, hc]

/-- A register of class RW, WO or LV takes the writable bits of the word and keeps its others. -/
theorem State.clsWrite_stores {s : State} {q : Req} {a : Nat} {v : Word} {r : RegRow} (hr : regRow a = some r)
    (hc : r.cls = .rw ∨ r.cls = .wo ∨ r.cls = .lv) :
    s.clsWrite q a v = s.setReg a ((s.reg a &&& ~~~r.wmask) ||| (v &&& r.wmask)) := by
  rcases hc with hc | hc | hc <;> simp only [State.clsWrite, hr, hc]

/-! ## A register's own rule -/

theorem State.regWrite_hook {s : State} {q : Req} {a k : Nat} {v : Word} {h : Hook}
    (hk : hookAt (a % 0x4000000) (hooksOf q (a / 0x4000000)) = some (h, k)) : s.regWrite q a v = h.act s k v := by
  simp only [State.regWrite, hk]

theorem State.regWrite_plain {s : State} {q : Req} {a : Nat} {v : Word}
    (hk : hookAt (a % 0x4000000) (hooksOf q (a / 0x4000000)) = none) : s.regWrite q a v = s.clsWrite q a v := by
  simp only [State.regWrite, hk]

/-! ## The host's way through the address map (R12, R463, R464) -/

/-- The address is that of a word in the BAR0 window of a die of the variant. -/
def State.InWindow (s : State) (a : Nat) : Prop := a % 4 = 0 ∧ a < 0x20000000 ∧ a / 0x4000000 ≤ s.crowns

theorem regMaster_host (d : Nat) : regMaster .host d = if d = 0 then 4 else 2 := rfl

/-- R28, R410: a host's access to a crown's register ends at the crown's module, if anywhere on its way, with the root's error. -/
theorem State.uciError_host (s : State) (d : Nat) :
    s.uciError .host d = if d ≠ 0 ∧ s.uciUp d = false then some (0, 4, 4 + d) else none := by
  by_cases hd : d = 0
  · simp [State.uciError, reqDie, hd]
  · simp [State.uciError, reqDie, regMaster, hd, Ne.symm hd]

theorem State.barWrite_host_ignored {s : State} {a : Nat} (v : Word)
    (h : a % 4 ≠ 0 ∨ 0x20100000 ≤ a ∨ (a < 0x20000000 ∧ s.crowns < a / 0x4000000)) : s.barWrite .host a v = s := by
  have hbar2 : ¬(0x20000000 ≤ a ∧ a < 0x20100000 ∧ a % 4 = 0 ∧ reqDie .host = 0) := by omega
  have hdrop : a % 4 ≠ 0 ∨ 0x20000000 ≤ a ∨ s.crowns < a / 0x4000000 := by omega
  simp only [State.barWrite, if_neg hbar2, if_pos hdrop]

theorem State.barWrite_host_bar2 {s : State} {a : Nat} (v : Word) (hal : a % 4 = 0) (hlo : 0x20000000 ≤ a) (hhi : a < 0x20100000) :
    s.barWrite .host a v = s.bar2Write (a - 0x20000000) v := if_pos ⟨hlo, hhi, hal, rfl⟩

/-- R12, R410: what answers a host's write in a window. Nothing with the root's fabric in reset; the root, with an error at the
crown's module, where that module or the crown's fabric is not up; the die, with an error at its registers' target, where the
register's unit takes no access; and otherwise the register. -/
theorem State.barWrite_host_inWindow {s : State} {a : Nat} (v : Word) (hw : s.InWindow a) :
    s.barWrite .host a v =
      if s.dieUp 0 = false then s
      else if a / 0x4000000 ≠ 0 ∧ (s.uciUp (a / 0x4000000) = false ∨ s.dieUp (a / 0x4000000) = false) then
        s.fabErr 0 4 (4 + a / 0x4000000) true a
      else if s.regBlocked a = true then
        s.fabErr (a / 0x4000000) (if a / 0x4000000 = 0 then 4 else 2) (if a / 0x4000000 = 0 then 12 else 6) true a
      else s.regWrite .host a v := by
  obtain ⟨hal, hlt, hcr⟩ := hw
  have hbar2 : ¬(0x20000000 ≤ a ∧ a < 0x20100000 ∧ a % 4 = 0 ∧ reqDie .host = 0) := by omega
  have hdrop : ¬(a % 4 ≠ 0 ∨ 0x20000000 ≤ a ∨ s.crowns < a / 0x4000000) := by omega
  simp only [State.barWrite, if_neg hbar2, if_neg hdrop, State.uciError_host, regMaster_host, State.when]
  generalize a / 0x4000000 = d
  by_cases hd : d = 0
  · cases h0 : s.dieUp 0 <;> simp [reqDie, hd, h0]
  · cases h0 : s.dieUp 0
    · simp [reqDie, Ne.symm hd]
    · cases hu : s.uciUp d
      · simp [hd]
      · cases hf : s.dieUp d <;> simp [hd]

/-- The root's fabric and a crown's module let a host's write in a window through to the die that holds the register. -/
def State.HostReaches (s : State) (a : Nat) : Prop :=
  s.InWindow a ∧ s.dieUp 0 = true ∧ (a / 0x4000000 = 0 ∨ s.uciUp (a / 0x4000000) = true)

theorem State.barWrite_host_reaches {s : State} {a : Nat} (v : Word) (h : s.HostReaches a) (hf : s.dieUp (a / 0x4000000) = true) :
    s.barWrite .host a v =
      if s.regBlocked a = true then
        s.fabErr (a / 0x4000000) (if a / 0x4000000 = 0 then 4 else 2) (if a / 0x4000000 = 0 then 12 else 6) true a
      else s.regWrite .host a v := by
  obtain ⟨hw, h0, hu⟩ := h
  have hopen : ¬(a / 0x4000000 ≠ 0 ∧ (s.uciUp (a / 0x4000000) = false ∨ s.dieUp (a / 0x4000000) = false)) := by
    rintro ⟨hd, hu' | hf'⟩
    · exact Bool.false_ne_true (hu'.symm.trans (hu.resolve_left hd))
    · exact Bool.false_ne_true (hf'.symm.trans hf)
  rw [State.barWrite_host_inWindow v hw, if_neg (by simp [h0]), if_neg hopen]

theorem State.barWrite_host_unblocked {s : State} {a : Nat} (v : Word) (h : s.HostReaches a) (hf : s.dieUp (a / 0x4000000) = true)
    (hb : s.regBlocked a = false) : s.barWrite .host a v = s.regWrite .host a v := by
  rw [State.barWrite_host_reaches v h hf, if_neg (by simp [hb])]

/-- A host's write of a register without a rule of its own follows the register's access class. -/
theorem State.barWrite_host_plain {s : State} {a : Nat} (v : Word)
    (h : s.HostReaches a ∧ s.dieUp (a / 0x4000000) = true ∧ s.regBlocked a = false ∧
      hookAt (a % 0x4000000) (hooksOf .host (a / 0x4000000)) = none) : s.barWrite .host a v = s.clsWrite .host a v := by
  obtain ⟨hr, hf, hb, hk⟩ := h
  rw [State.barWrite_host_unblocked v hr hf hb, State.regWrite_plain hk]

/-! ## A management core's way (R409) -/

/-- The BAR0 window of a core's fabric map stands at 0x8000_0000, and takes aligned words. -/
theorem State.coreWrite_window (s : State) (d : Fin 8) (k : Fin 4) {a : Nat} (v : Word) (hal : a % 4 = 0) (hlt : a < 0x20000000) :
    s.coreWrite d k (0x80000000 + a) v = s.barWrite (.core d k) a v := by
  have halign : ¬(0x80000000 + a) % 4 ≠ 0 := by omega
  have hperiph : ¬(0x10000000 ≤ 0x80000000 + a ∧ 0x80000000 + a < 0x10050000) := by omega
  have hwindow : 0x80000000 ≤ 0x80000000 + a ∧ 0x80000000 + a < 0xA0000000 := by omega
  simp only [State.coreWrite, if_neg halign, if_neg hperiph, if_pos hwindow, Nat.add_sub_cancel_left]

/-! ## REG_WRITE -/

theorem exec_regWrite_host (a : Nat) (v : Word) (s : State) : exec (.regWrite .host a v) s = .next (s.barWrite .host a v) := rfl

theorem exec_regWrite_core_held {d : Fin 8} {k : Fin 4} {s : State} (a : Nat) (v : Word) (h : s.coreUp d k = false) :
    exec (.regWrite (.core d k) a v) s = .next s :=
  congrArg Host.Outcome.next (if_neg (by simp [h]))

theorem exec_regWrite_core_up {d : Fin 8} {k : Fin 4} {s : State} (a : Nat) (v : Word) (h : s.coreUp d k = true) :
    exec (.regWrite (.core d k) a v) s = .next (s.coreWrite d k a v) :=
  congrArg Host.Outcome.next (if_pos h)

/-- Settles O59: each clause is one way through the address map, followed by the rule of the register at its end. -/
theorem registerWrites : Obligations.RegisterWrites := by
  refine ⟨fun a v s => ?_, fun d k a v s => ⟨exec_regWrite_core_held a v, fun hup hal hlt => ?_⟩⟩
  · simp only [exec_regWrite_host]
    refine ⟨fun h => ?ignored, fun hal hlo hhi => ?bar2, fun hw h0 => ?rootDown, fun hw h0 hd hu => ?moduleDown,
      fun hup hd hf => ?crownDown, fun hup hf hb => ?blocked, fun h k hup hf hb hk => ?ownRule, fun hpl hro => ?readOnly,
      fun hpl hst => ?staged, fun r hpl hr hc => ?stores⟩
    case ignored => rw [State.barWrite_host_ignored v h]
    case bar2 => rw [State.barWrite_host_bar2 v hal hlo hhi]
    case rootDown => rw [State.barWrite_host_inWindow v hw, if_pos h0]
    case moduleDown => rw [State.barWrite_host_inWindow v hw, if_neg (by simp [h0]), if_pos ⟨hd, .inl hu⟩]
    case crownDown =>
      obtain ⟨hw, h0, -⟩ := hup
      rw [State.barWrite_host_inWindow v hw, if_neg (by simp [h0]), if_pos ⟨hd, .inr hf⟩]
    case blocked => rw [State.barWrite_host_reaches v hup hf, if_pos hb]
    case ownRule => rw [State.barWrite_host_unblocked v hup hf hb, State.regWrite_hook hk]
    case readOnly => rw [State.barWrite_host_plain v hpl, hro.elim State.clsWrite_unassigned State.clsWrite_ro]
    case staged => rw [State.barWrite_host_plain v hpl, State.clsWrite_st hst]
    case stores =>
      have hw := (State.barWrite_host_plain v hpl).trans (State.clsWrite_stores hr hc)
      exact ⟨_, congrArg Host.Outcome.next hw, s.reg_setReg_same a _, only_setReg s a _, s.setReg_recorder a _⟩
  · rw [exec_regWrite_core_up _ v hup, State.coreWrite_window s d k v hal hlt]

end Sys2Proof.Machine
end

section
/-!
PROOFS. UCIe modules (R29, R30, R492) and the fabric's remap, error and promotion registers (R410, R412, R413): frames built up
one write at a time, what a module's STATUS reads after a link loss and after a training, and what each command does where its
rule applies.
-/
namespace Sys2Proof.Machine

/-! ## Frames, one operation at a time -/

theorem Only.trans {as : List Nat} {s t u : State} (h : Only as s t) (g : Only as t u) : Only as s u := by
  obtain ⟨hreg, hrest⟩ := h
  obtain ⟨greg, grest⟩ := g
  exact ⟨fun a ha hr => (greg a ha hr).trans (hreg a ha hr), by rw [OnlyRegs, grest, hrest]⟩

theorem Only.mono {as bs : List Nat} {s t : State} (h : Only as s t) (hsub : as ⊆ bs) : Only bs s t :=
  ⟨fun a ha => h.1 a fun hm => ha (hsub hm), h.2⟩

theorem only_wr (s : State) (f : Fld) (v : Nat) : Only [f.reg] s (s.wr f v) := only_setReg s f.reg _

theorem only_inc (s : State) (f : Fld) : Only [f.reg] s (s.inc f) := only_wr s f _

/-- R424: an event moves the recorder alone, which no frame speaks of. -/
theorem only_event (as : List Nat) (s : State) (path code a0 a1 a2 : Nat) : Only as s (s.event path code a0 a1 a2) :=
  ⟨fun a _ => (s.event_recorded path code a0 a1 a2 none).reg a, (s.event_recorded path code a0 a1 a2 none).rest⟩

/-- R455 to R457: deriving the mode again writes PWR_MODE alone. -/
theorem only_modeUpdate (s : State) : Only [R.PWR_MODE] s s.modeUpdate := by
  simp only [State.modeUpdate]
  split
  · split
    · exact only_wr s F.PWR_MODE_MODE _
    · exact (only_wr s F.PWR_MODE_MODE 12).trans (only_wr _ F.PWR_MODE_CAUSE _)
  · exact ⟨fun _ _ _ => rfl, rfl⟩

theorem Only.rd {as : List Nat} {s t : State} (h : Only as s t) {f : Fld} (hf : f.reg ∉ as) (hr : recReg f.reg = false) :
    t.rd f = s.rd f := congrArg (getBits · f.lo f.width) (h.1 f.reg hf hr)

theorem Only.lanes {as : List Nat} {s t : State} (h : Only as s t) : t.lanes = s.lanes := by rw [h.2]

theorem Only.rst {as : List Nat} {s t : State} (h : Only as s t) : t.rst = s.rst := by rw [h.2]

/-! ## A lane's or a module's own record -/

theorem State.lane_setLane_same (s : State) (n : Nat) (x : LaneSt) : (s.setLane n x).lane n = x :=
  mapGet_set_same _ s.lanes n x

/-- A frame around an update of one record: that record is as put, and the rest is as before. -/
theorem Only.of_setLane {as : List Nat} {s t : State} {n : Nat} {x : LaneSt} (h : Only as (s.setLane n x) t) :
    t.lane n = x ∧ Only as { s with lanes := t.lanes } t := by
  have hl : t.lanes = (s.setLane n x).lanes := h.lanes
  exact ⟨(congrArg (mapGet _ · n) hl).trans (s.lane_setLane_same n x), hl ▸ h⟩

/-! ## A module's STATUS (R29, R30, R405) -/

theorem recReg_uciStatus (k : Fin 8) : recReg (R.LANE_UCIk_STATUS k) = false := by
  revert k; decide

theorem uciStatus_ne_mode (k : Fin 8) : R.LANE_UCIk_STATUS k ≠ R.PWR_MODE := by
  revert k; decide

/-- R29: what a link loss leaves in STATUS: the module trains, and the retrain is counted. -/
theorem State.linkDown_status (s : State) (k : Fin 8) :
    (s.linkDown k).uciState k = 1 ∧
      (s.linkDown k).rd (F.LANE_UCIk_STATUS_RETRAINS k) = min (s.rd (F.LANE_UCIk_STATUS_RETRAINS k) + 1) (2 ^ 16 - 1) := by
  have hstate : (F.LANE_UCIk_STATUS_STATE k).ok := (by decide : 0 + 2 ≤ 32)
  have hcount : (F.LANE_UCIk_STATUS_RETRAINS k).ok := (by decide : 16 + 16 ≤ 32)
  have hsc : (F.LANE_UCIk_STATUS_STATE k).apart (F.LANE_UCIk_STATUS_RETRAINS k) := .inr (.inl (by decide : 0 + 2 ≤ 16))
  have hcs : (F.LANE_UCIk_STATUS_RETRAINS k).apart (F.LANE_UCIk_STATUS_STATE k) := .inr (.inr (by decide : 0 + 2 ≤ 16))
  have hev := fun (u : State) (f : Fld) (hf : recReg f.reg = false) => (u.event_recorded (pUcie k) 0x9C02 0xFFFF k 0 none).rd f hf
  constructor
  · simp only [State.uciState, State.linkDown]
    rw [hev _ _ (recReg_uciStatus k), State.rd_inc_apart _ hcount hcs, State.rd_wr_same _ _ _ hstate]
    rfl
  · simp only [State.linkDown]
    rw [hev _ _ (recReg_uciStatus k), State.rd_inc_same _ _ hcount, State.rd_wr_apart _ _ hstate hsc]
    rfl

theorem State.only_linkDown (s : State) (k : Nat) :
    Only [R.LANE_UCIk_STATUS k] (s.setLane (100 + k) { s.lane (100 + k) with prev := 1 }) (s.linkDown k) :=
  ((only_wr _ (F.LANE_UCIk_STATUS_STATE k) 1).trans (only_inc _ (F.LANE_UCIk_STATUS_RETRAINS k))).trans (only_event _ _ _ _ _ _ _)

/-- STATUS says that the module is up, at which rate and with how many lanes remapped (R29, R30). -/
def State.UciUpWith (s : State) (k : Nat) (slow : Bool) (rep : Fin 64) : Prop :=
  s.uciState k = 2 ∧ s.rd (F.LANE_UCIk_STATUS_RATE16 k) = bit slow ∧ s.rd (F.LANE_UCIk_STATUS_REPAIRED k) = rep.val

theorem State.uciTrained_up (s : State) (k : Nat) (slow : Bool) (rep : Fin 64) : (s.uciTrained k slow rep).UciUpWith k slow rep := by
  have hstate : (F.LANE_UCIk_STATUS_STATE k).ok := (by decide : 0 + 2 ≤ 32)
  have hrate : (F.LANE_UCIk_STATUS_RATE16 k).ok := (by decide : 2 + 1 ≤ 32)
  have hrep : (F.LANE_UCIk_STATUS_REPAIRED k).ok := (by decide : 3 + 6 ≤ 32)
  have hrepState : (F.LANE_UCIk_STATUS_REPAIRED k).apart (F.LANE_UCIk_STATUS_STATE k) := .inr (.inr (by decide : 0 + 2 ≤ 3))
  have hrepRate : (F.LANE_UCIk_STATUS_REPAIRED k).apart (F.LANE_UCIk_STATUS_RATE16 k) := .inr (.inr (by decide : 2 + 1 ≤ 3))
  have hrateState : (F.LANE_UCIk_STATUS_RATE16 k).apart (F.LANE_UCIk_STATUS_STATE k) := .inr (.inr (by decide : 0 + 2 ≤ 2))
  unfold State.uciTrained
  refine ⟨?state, ?rate, ?repaired⟩
  case state =>
    rw [State.uciState, State.rd_wr_apart _ _ hrep hrepState, State.rd_wr_apart _ _ hrate hrateState, State.rd_wr_same _ _ _ hstate]
    rfl
  case rate =>
    rw [State.rd_wr_apart _ _ hrep hrepRate, State.rd_wr_same _ _ _ hrate]
    cases slow <;> rfl
  case repaired =>
    rw [State.rd_wr_same _ _ _ hrep]
    exact Nat.mod_eq_of_lt rep.isLt

theorem State.only_uciTrained (s : State) (k : Nat) (slow : Bool) (rep : Nat) :
    Only [R.LANE_UCIk_STATUS k] s (s.uciTrained k slow rep) :=
  ((only_wr _ (F.LANE_UCIk_STATUS_STATE k) 2).trans (only_wr _ (F.LANE_UCIk_STATUS_RATE16 k) _)).trans
    (only_wr _ (F.LANE_UCIk_STATUS_REPAIRED k) _)

theorem State.UciUpWith.of_only_mode {s t : State} {k : Fin 8} {slow : Bool} {rep : Fin 64} (h : Only [R.PWR_MODE] s t)
    (hs : s.UciUpWith k slow rep) : t.UciUpWith k slow rep := by
  have hrd : ∀ f : Fld, f.reg = R.LANE_UCIk_STATUS k → t.rd f = s.rd f := fun f hf =>
    h.rd (by simpa [hf] using uciStatus_ne_mode k) (hf ▸ recReg_uciStatus k)
  obtain ⟨hstate, hrate, hrep⟩ := hs
  exact ⟨(hrd _ rfl).trans hstate, (hrd _ rfl).trans hrate, (hrd _ rfl).trans hrep⟩

/-- R29: the crown of a module whose retrain fails is lost. -/
theorem State.retrainDone_failed (s : State) (k : Nat) (slow : Bool) (rep : Nat) :
    s.retrainDone k false slow rep =
      (((((s.setLane (100 + k) { s.lane (100 + k) with prev := 0 }).wr (F.LANE_UCIk_STATUS_STATE k) 0).event
        (pUcie k) 0x9C02 0xFFFF k 1).crownLost k).pairScan).modeUpdate := by
  simp only [State.retrainDone, Bool.false_eq_true, if_false]

/-! ## A crown that needs no reset -/

/-- R30: a crown that is in service is not brought back into service. -/
theorem State.serveCrown_inService {s : State} {d : Nat} (h : d ∉ s.rst.needReset) : s.serveCrown d = s :=
  if_neg fun hserve => h (List.contains_iff_mem.1 hserve.1)

/-- The state with module k's fault taken off the list. -/
def State.uciFaultCleared (s : State) (k : Nat) : State :=
  { s with rst := { s.rst with faults := s.rst.faults.filter (· != pUcie k) } }

/-- R30: a successful training of a crown in service takes the module's fault off, writes STATUS and derives the mode again. -/
theorem State.trainedUci_inService {s : State} {k : Nat} (slow : Bool) (rep : Nat) (h : k ∉ s.rst.needReset) :
    s.trainedUci k true slow rep = ((s.uciFaultCleared k).uciTrained k slow rep).modeUpdate := by
  have hrst : ((s.uciFaultCleared k).uciTrained k slow rep).rst = (s.uciFaultCleared k).rst := (State.only_uciTrained _ k slow rep).rst
  have hserve := State.serveCrown_inService (s := (s.uciFaultCleared k).uciTrained k slow rep) (d := k) (by rw [hrst]; exact h)
  exact congrArg State.modeUpdate hserve

theorem Only.of_uciFaultCleared {as : List Nat} {s t : State} {k : Nat} (h : Only as (s.uciFaultCleared k) t) :
    pUcie k ∉ t.rst.faults ∧ Only as { s with rst := { s.rst with faults := t.rst.faults } } t := by
  have hf : t.rst.faults = s.rst.faults.filter (· != pUcie k) := congrArg ResetSt.faults h.rst
  exact ⟨by simp [hf], hf ▸ h⟩

/-! ## What the modules' commands do where their rule applies -/

theorem exec_ucieLinkDown_up {k : Fin 8} {s : State} (hc : s.hasCrown k = true) (hup : s.uciState k = 2) :
    exec (.ucieLinkDown k) s = .next (s.linkDown k) := congrArg Host.Outcome.next (if_pos (by simp [hc, hup]))

theorem exec_ucieLinkDown_notUp {k : Fin 8} {s : State} (h : s.uciState k ≠ 2) : exec (.ucieLinkDown k) s = .next s :=
  congrArg Host.Outcome.next (if_neg (by simp [h]))

theorem exec_ucieFlitCrcFail {k : Fin 8} {s : State} (h : s.hasCrown k = true) :
    exec (.ucieFlitCrcFail k) s = .next (s.wr (F.LANE_UCIk_RETRY_FLIT_RETRY k)
      (s.rd (F.LANE_UCIk_RETRY_FLIT_RETRY k) + if s.on (F.LANE_UCIk_STATUS_RATE16 k) then 2 else 1)) :=
  congrArg Host.Outcome.next (if_pos h)

theorem exec_ucieRetrainDone {k : Fin 8} {s : State} (ok slow : Bool) (rep : Fin 64) (hc : s.hasCrown k = true)
    (ht : s.uciState k = 1) (hp : (s.lane (100 + k)).prev = 1) :
    exec (.ucieRetrainDone k ok slow rep) s = .next (s.retrainDone k ok slow rep) :=
  congrArg Host.Outcome.next (if_pos (by simp [hc, ht, hp]))

theorem exec_ucieTrainDone {k : Fin 8} {s : State} (ok slow : Bool) (rep : Fin 64) (hc : s.hasCrown k = true)
    (ht : s.uciState k = 1) (hp : (s.lane (100 + k)).prev = 0) :
    exec (.ucieTrainDone k ok slow rep) s = .next (s.trainedUci k ok slow rep) :=
  congrArg Host.Outcome.next (if_pos (by simp [hc, ht, hp]))

/-! ## The fabric's registers -/

theorem exec_fabRemapWrite {d : Fin 8} {s : State} (v : Word) (h : s.dieUp d = true) :
    exec (.fabRemapWrite d v) s = .next (s.remapWrite d v) := congrArg Host.Outcome.next (if_pos h)

theorem State.remapWrite_locked {s : State} {d : Nat} (v : Word) (h : s.on (F.FAB_REMAP_LOCK d) = true) :
    s.remapWrite d v = s.inc (F.FAB_REMAP_IGNORED d) := if_pos h

theorem State.remapWrite_open {s : State} {d : Nat} (v : Word) (h : s.on (F.FAB_REMAP_LOCK d) = false) :
    s.remapWrite d v = (s.wr (F.FAB_REMAP_SWAP0 d) (getBits v 0 1)).wr (F.FAB_REMAP_LOCK d) (getBits v 1 1) :=
  if_neg (by simp [h])

/-- R413: while FAB_REMAP is locked a write of it is counted and moves nothing else. -/
theorem State.remapWrite_locked_reads {s : State} {d : Nat} (v : Word) (h : s.on (F.FAB_REMAP_LOCK d) = true) :
    (s.remapWrite d v).rd (F.FAB_REMAP_IGNORED d) = min (s.rd (F.FAB_REMAP_IGNORED d) + 1) (2 ^ 8 - 1) ∧
      (s.remapWrite d v).rd (F.FAB_REMAP_SWAP0 d) = s.rd (F.FAB_REMAP_SWAP0 d) ∧
      (s.remapWrite d v).rd (F.FAB_REMAP_LOCK d) = 1 ∧ Only [R.FAB_REMAP d] s (s.remapWrite d v) := by
  have hign : (F.FAB_REMAP_IGNORED d).ok := (by decide : 8 + 8 ≤ 32)
  have hswap : (F.FAB_REMAP_IGNORED d).apart (F.FAB_REMAP_SWAP0 d) := .inr (.inr (by decide : 0 + 1 ≤ 8))
  have hlock : (F.FAB_REMAP_IGNORED d).apart (F.FAB_REMAP_LOCK d) := .inr (.inr (by decide : 1 + 1 ≤ 8))
  rw [State.remapWrite_locked v h]
  exact ⟨s.rd_inc_same _ hign, s.rd_inc_apart hign hswap, (s.rd_inc_apart hign hlock).trans (beq_iff_eq.1 h),
    only_inc s (F.FAB_REMAP_IGNORED d)⟩

/-- R413: a write of FAB_REMAP before it is locked takes SWAP0 and LOCK from the word. -/
theorem State.remapWrite_open_reads {s : State} {d : Nat} (v : Word) (h : s.on (F.FAB_REMAP_LOCK d) = false) :
    (s.remapWrite d v).rd (F.FAB_REMAP_SWAP0 d) = getBits v 0 1 ∧ (s.remapWrite d v).rd (F.FAB_REMAP_LOCK d) = getBits v 1 1 ∧
      (s.remapWrite d v).rd (F.FAB_REMAP_IGNORED d) = s.rd (F.FAB_REMAP_IGNORED d) ∧ Only [R.FAB_REMAP d] s (s.remapWrite d v) := by
  have hswap : (F.FAB_REMAP_SWAP0 d).ok := (by decide : 0 + 1 ≤ 32)
  have hlock : (F.FAB_REMAP_LOCK d).ok := (by decide : 1 + 1 ≤ 32)
  have hls : (F.FAB_REMAP_LOCK d).apart (F.FAB_REMAP_SWAP0 d) := .inr (.inr (by decide : 0 + 1 ≤ 1))
  have hli : (F.FAB_REMAP_LOCK d).apart (F.FAB_REMAP_IGNORED d) := .inr (.inl (by decide : 1 + 1 ≤ 8))
  have hsi : (F.FAB_REMAP_SWAP0 d).apart (F.FAB_REMAP_IGNORED d) := .inr (.inl (by decide : 0 + 1 ≤ 8))
  rw [State.remapWrite_open v h]
  refine ⟨?swap, ?lock, ?ignored, (only_wr s (F.FAB_REMAP_SWAP0 d) _).trans (only_wr _ (F.FAB_REMAP_LOCK d) _)⟩
  case swap =>
    rw [State.rd_wr_apart _ _ hlock hls, State.rd_wr_same _ _ _ hswap]
    exact Nat.mod_eq_of_lt (getBits_lt v 0 1)
  case lock =>
    rw [State.rd_wr_same _ _ _ hlock]
    exact Nat.mod_eq_of_lt (getBits_lt v 1 1)
  case ignored => rw [State.rd_wr_apart _ _ hlock hli, State.rd_wr_apart _ _ hswap hsi]

theorem exec_fabErrClear {d : Fin 8} {s : State} (h : s.dieUp d = true) :
    exec (.fabErrClear d) s = .next (s.wr (F.FAB_ERR_INFO_VALID d) 0) := congrArg Host.Outcome.next (if_pos h)

theorem exec_fabPromote {d : Fin 8} {p : Fin 16} {s : State} (h : s.dieUp d = true) (hp : p.val < fabTargets d) :
    exec (.fabPromote d p) s = .next (s.fabPromote d p) := congrArg Host.Outcome.next (if_pos (by simp [h, hp]))

theorem State.fabPromote_never {s : State} {d t : Nat} (h : s.rd (F.FAB_Tt_ARB_MAXWAIT d t) = 0) : s.fabPromote d t = s := if_pos h

theorem State.fabPromote_counts {s : State} {d t : Nat} (h : s.rd (F.FAB_Tt_ARB_MAXWAIT d t) ≠ 0) :
    s.fabPromote d t = s.inc (F.FAB_Tt_CNT_PROMOTED d t) := if_neg h

/-! ## UCIE_LINK_DOWN, UCIE_RETRAIN_DONE and UCIE_TRAIN_DONE, with their frames -/

/-- R29: a module that is up goes down and is retrained once. -/
theorem ucieLinkDown_retrains {k : Fin 8} {s : State} (hc : s.hasCrown k = true) (hup : s.uciState k = 2) :
    Gives (.ucieLinkDown k) s fun t => t.uciState k = 1 ∧
      t.rd (F.LANE_UCIk_STATUS_RETRAINS k) = min (s.rd (F.LANE_UCIk_STATUS_RETRAINS k) + 1) (2 ^ 16 - 1) ∧
      t.lane (100 + k) = { s.lane (100 + k) with prev := 1 } ∧ Only [R.LANE_UCIk_STATUS k] { s with lanes := t.lanes } t := by
  obtain ⟨hstate, hcount⟩ := s.linkDown_status k
  exact ⟨s.linkDown k, exec_ucieLinkDown_up hc hup, hstate, hcount, (s.only_linkDown k).of_setLane⟩

/-- R29: a retrain that succeeds. -/
theorem ucieRetrainDone_up {k : Fin 8} {s : State} (slow : Bool) (rep : Fin 64) (hc : s.hasCrown k = true) (ht : s.uciState k = 1)
    (hp : (s.lane (100 + k)).prev = 1) :
    Gives (.ucieRetrainDone k true slow rep) s fun t => t.UciUpWith k slow rep ∧
      t.lane (100 + k) = { s.lane (100 + k) with prev := 0 } ∧ Only [R.LANE_UCIk_STATUS k] { s with lanes := t.lanes } t :=
  ⟨_, exec_ucieRetrainDone true slow rep hc ht hp, State.uciTrained_up _ k slow rep, (State.only_uciTrained _ k slow rep).of_setLane⟩

/-- R30: a training after a reset that succeeds, of a crown in service. -/
theorem ucieTrainDone_up {k : Fin 8} {s : State} (slow : Bool) (rep : Fin 64) (hc : s.hasCrown k = true) (ht : s.uciState k = 1)
    (hp : (s.lane (100 + k)).prev = 0) (hin : k.val ∉ s.rst.needReset) :
    Gives (.ucieTrainDone k true slow rep) s fun t => t.UciUpWith k slow rep ∧ pUcie k ∉ t.rst.faults ∧
      Only [R.LANE_UCIk_STATUS k, R.PWR_MODE] { s with rst := { s.rst with faults := t.rst.faults } } t := by
  have hmode := only_modeUpdate ((s.uciFaultCleared k).uciTrained k slow rep)
  have hframe : Only [R.LANE_UCIk_STATUS k, R.PWR_MODE] (s.uciFaultCleared k) ((s.uciFaultCleared k).uciTrained k slow rep).modeUpdate :=
    ((State.only_uciTrained _ k slow rep).mono (by simp)).trans (hmode.mono (by simp))
  refine ⟨_, (exec_ucieTrainDone true slow rep hc ht hp).trans (congrArg Host.Outcome.next (State.trainedUci_inService slow rep hin)), ?_⟩
  exact ⟨(State.uciTrained_up _ k slow rep).of_only_mode hmode, hframe.of_uciFaultCleared⟩

/-- Settles O53: the module's commands and the fabric's, each by the lemma of what it does where its rule applies. -/
theorem modulesAndFabric : Obligations.ModulesAndFabric := by
  refine ⟨fun k s hc => ⟨fun hup => ?linkDown, fun hnot => ?notUp, ?flitRetry⟩,
    fun k slow rep s hc ht => ⟨fun hp => ?retrained, fun hp => ?retrainFailed, fun hp hin => ?trained, fun hp => ?trainFailed⟩,
    fun d v s hd => ⟨fun hl => ?locked, fun hl => ?unlocked, ?errClear⟩, fun d p s hd hp => ⟨fun h0 => ?never, fun h0 => ?promoted⟩⟩
  case linkDown => exact ucieLinkDown_retrains hc hup
  case notUp => exact exec_ucieLinkDown_notUp hnot
  case flitRetry =>
    exact ⟨_, exec_ucieFlitCrcFail hc, s.rd_wr_same (F.LANE_UCIk_RETRY_FLIT_RETRY k) _ (by decide : 0 + 32 ≤ 32),
      only_wr s (F.LANE_UCIk_RETRY_FLIT_RETRY k) _⟩
  case retrained => exact ucieRetrainDone_up slow rep hc ht hp
  case retrainFailed => rw [exec_ucieRetrainDone false slow rep hc ht hp, State.retrainDone_failed]
  case trained => exact ucieTrainDone_up slow rep hc ht hp hin
  case trainFailed => exact exec_ucieTrainDone false slow rep hc ht hp
  case locked => exact ⟨_, exec_fabRemapWrite v hd, State.remapWrite_locked_reads v hl⟩
  case unlocked => exact ⟨_, exec_fabRemapWrite v hd, State.remapWrite_open_reads v hl⟩
  case errClear =>
    exact ⟨_, exec_fabErrClear hd, s.rd_wr_same (F.FAB_ERR_INFO_VALID d) 0 (by decide : 0 + 1 ≤ 32),
      only_wr s (F.FAB_ERR_INFO_VALID d) 0⟩
  case never => exact (exec_fabPromote hd hp).trans (congrArg Host.Outcome.next (State.fabPromote_never h0))
  case promoted =>
    exact ⟨_, (exec_fabPromote hd hp).trans (congrArg Host.Outcome.next (State.fabPromote_counts h0)),
      s.rd_inc_same (F.FAB_Tt_CNT_PROMOTED d p) (by decide : 0 + 16 ≤ 32), only_inc s (F.FAB_Tt_CNT_PROMOTED d p)⟩

end Sys2Proof.Machine
end

section
/-!
PROOFS. Line time (R38, R39, R46, R47): what a refusal leaves, the state of a timeline and its event, entering HOLDOVER by FREERUN,
the read of NOW_LO with its latch, and the capture of the four timelines.
-/
namespace Sys2Proof.Machine

/-! ## Refusals (R141): the code in every status register, and no other register -/

theorem recReg_of_lt {a : Nat} (h : a < 0xD00000) : recReg a = false := by
  simp only [recReg, Bool.or_eq_false_iff, beq_eq_false_iff_ne]
  omega

theorem Only.refl (as : List Nat) (s : State) : Only as s s := ⟨fun _ _ _ => rfl, rfl⟩

theorem Only.lt {as : List Nat} {s t : State} (h : Only as s t) : t.lt = s.lt := by rw [h.2]

theorem Recorded.only {s t : State} (h : Recorded s t) (as : List Nat) : Only as s t := ⟨fun a _ => h.reg a, h.rest⟩

theorem only_reasons (s : State) (as : List Nat) (code : Nat) : Only as s (s.reasons as code) := by
  induction as generalizing s with
  | nil => exact .refl [] s
  | cons a as ih =>
    exact ((only_wr s ⟨a, 16, 16⟩ code).mono (by simp)).trans ((ih (s.reason a code)).mono (List.subset_cons_self a as))

theorem only_refuse (s : State) (path : Nat) (st : List Nat) (code a1 : Nat) : Only st s (s.refuse path st code a1) :=
  (only_reasons s st code).trans ((s.refuse_recorded path st code a1 0xFFFF).only st)

theorem State.rd_reasons_mem (s : State) {as : List Nat} {a : Nat} (code : Nat) (ha : a ∈ as) (hr : recReg a = false) :
    (s.reasons as code).rd ⟨a, 16, 16⟩ = code % 2 ^ 16 := by
  induction as generalizing s with
  | nil => cases ha
  | cons b as ih =>
    by_cases htail : a ∈ as
    · exact ih (s.reason b code) htail
    · obtain rfl : a = b := (List.mem_cons.1 ha).resolve_right htail
      calc ((s.reason a code).reasons as code).rd ⟨a, 16, 16⟩
        _ = (s.reason a code).rd ⟨a, 16, 16⟩ := (only_reasons _ as code).rd htail hr
        _ = code % 2 ^ 16 := s.rd_wr_same ⟨a, 16, 16⟩ code (by decide : 16 + 16 ≤ 32)

/-- A reason code stands in the upper half of a word: what lies below stays. -/
theorem State.rd_reasons_low (s : State) (as : List Nat) (code : Nat) {f : Fld} (hf : f.lo + f.width ≤ 16) :
    (s.reasons as code).rd f = s.rd f := by
  induction as generalizing s with
  | nil => rfl
  | cons a as ih =>
    exact (ih (s.reason a code)).trans (s.rd_wr_apart (f := ⟨a, 16, 16⟩) code (by decide : 16 + 16 ≤ 32) (.inr (.inr hf)))

theorem State.rd_refuse_mem (s : State) (path : Nat) {st : List Nat} {a : Nat} (code a1 : Nat) (ha : a ∈ st) (hr : recReg a = false) :
    (s.refuse path st code a1).rd ⟨a, 16, 16⟩ = code % 2 ^ 16 :=
  ((s.refuse_recorded path st code a1 0xFFFF).rd _ hr).trans (s.rd_reasons_mem code ha hr)

theorem State.rd_refuse_low (s : State) (path : Nat) (st : List Nat) (code a1 : Nat) {f : Fld} (hf : f.lo + f.width ≤ 16)
    (hr : recReg f.reg = false) : (s.refuse path st code a1).rd f = s.rd f :=
  ((s.refuse_recorded path st code a1 0xFFFF).rd f hr).trans (s.rd_reasons_low st code hf)

/-! ## A timeline's record and state (R38) -/

theorem State.tl_setTl_same (s : State) (n : Nat) (x : TlSt) : (s.setTl n x).tl n = x := mapGet_set_same _ s.lt.tls n x

theorem State.tl_setTl_ne (s : State) {n m : Nat} (x : TlSt) (h : m ≠ n) : (s.setTl n x).tl m = s.tl m := mapGet_set_ne _ s.lt.tls x h

theorem State.rd_setTl (s : State) (n : Nat) (x : TlSt) (f : Fld) : (s.setTl n x).rd f = s.rd f := by
  simp only [State.rd, State.reg, State.setTl_variant, State.setTl_regs]

theorem Only.tl {as : List Nat} {s t : State} (h : Only as s t) (n : Nat) : t.tl n = s.tl n :=
  congrArg (fun l : LineTime => mapGet (fun _ => TlSt.init) l.tls n) h.lt

theorem recReg_tlStatus (n : Fin 4) : recReg (R.LT_TLn_STATUS n) = false := by
  revert n; decide

theorem recReg_selStatus (n : Fin 4) : recReg (R.SEL_TLn_STATUS n) = false := by
  revert n; decide

theorem selHoldfreq_ne_status (n : Nat) : R.SEL_TLn_HOLDFREQ n ≠ R.SEL_TLn_STATUS n := by
  simp only [R.SEL_TLn_HOLDFREQ, R.SEL_TLn_STATUS]
  omega

theorem tlStatus_ne_mode (n : Fin 4) : R.LT_TLn_STATUS n ≠ R.PWR_MODE := by
  revert n; decide

theorem only_setTlState (s : State) (n st : Nat) : Only [R.LT_TLn_STATUS n, R.PWR_MODE] s (s.setTlState n st) := by
  unfold State.setTlState
  split
  · exact .refl _ s
  · have hstate : Only [R.LT_TLn_STATUS n] s ((s.wr (F.LT_TLn_STATUS_STATE n) st).event (pTl n) 0x1C01 0xFFFF n st) :=
      (only_wr s (F.LT_TLn_STATUS_STATE n) st).trans (only_event _ _ _ _ _ _ _)
    exact (hstate.mono (by simp)).trans ((only_modeUpdate _).mono (by simp))

theorem State.tlState_setTlState_same (s : State) (n : Fin 4) {st : Nat} (hst : st < 8) : (s.setTlState n st).tlState n = st := by
  unfold State.setTlState
  split
  case isTrue h => exact h
  case isFalse =>
    have hmode := (only_modeUpdate ((s.wr (F.LT_TLn_STATUS_STATE n) st).event (pTl n) 0x1C01 0xFFFF n st)).rd
      (f := F.LT_TLn_STATUS_STATE n) (mt List.mem_singleton.1 (tlStatus_ne_mode n)) (recReg_tlStatus n)
    have hevent := (State.event_recorded (s.wr (F.LT_TLn_STATUS_STATE n) st) (pTl n) 0x1C01 0xFFFF n st none).rd
      (F.LT_TLn_STATUS_STATE n) (recReg_tlStatus n)
    exact (hmode.trans hevent).trans
      ((s.rd_wr_same (F.LT_TLn_STATUS_STATE n) st (by decide : 0 + 3 ≤ 32)).trans (Nat.mod_eq_of_lt hst))

/-! ## FREERUN (R38, R39, R66) -/

/-- The record of a timeline that FREERUN frees: the start of frame `frame`, at nominal frequency, with nothing to pull. -/
def TlSt.freed (x : TlSt) (frame : Nat) : TlSt :=
  { x with acc := 0, frame := frame, freq := 0, perr := 0, pend := 0, soft := 0, minBad := true }

/-- Timeline n as FREERUN frees it, before the selector and the state show it. -/
def State.freedTl (s : State) (n : Nat) : State :=
  s.setTl n ((s.tl n).freed (s.rd64 (F.LT_TLn_FRAME_SET_LO_FRAME_LO n) (F.LT_TLn_FRAME_SET_HI_FRAME_HI n)))

theorem State.freerun_eq (s : State) (n : Nat) :
    s.freerun n = (((s.freedTl n).wr (F.SEL_TLn_STATUS_MODE n) 3).wrS (F.SEL_TLn_HOLDFREQ_FREQ n) 0).setTlState n 3 := rfl

theorem State.only_freerun (s : State) (n : Nat) :
    Only [R.SEL_TLn_STATUS n, R.SEL_TLn_HOLDFREQ n, R.LT_TLn_STATUS n, R.PWR_MODE] (s.freedTl n) (s.freerun n) := by
  have hsel : Only [R.SEL_TLn_STATUS n] (s.freedTl n) ((s.freedTl n).wr (F.SEL_TLn_STATUS_MODE n) 3) :=
    only_wr _ (F.SEL_TLn_STATUS_MODE n) _
  have hfreq : Only [R.SEL_TLn_HOLDFREQ n] ((s.freedTl n).wr (F.SEL_TLn_STATUS_MODE n) 3)
      (((s.freedTl n).wr (F.SEL_TLn_STATUS_MODE n) 3).wrS (F.SEL_TLn_HOLDFREQ_FREQ n) 0) := only_wr _ (F.SEL_TLn_HOLDFREQ_FREQ n) _
  exact ((hsel.mono (by simp)).trans (hfreq.mono (by simp))).trans ((only_setTlState _ n 3).mono (by simp))

theorem State.tl_freerun_same (s : State) (n : Nat) :
    (s.freerun n).tl n = (s.tl n).freed (s.rd64 (F.LT_TLn_FRAME_SET_LO_FRAME_LO n) (F.LT_TLn_FRAME_SET_HI_FRAME_HI n)) :=
  ((s.only_freerun n).tl n).trans (s.tl_setTl_same n _)

theorem State.selMode_freerun (s : State) (n : Fin 4) : (s.freerun n).selMode n = 3 := by
  have hstatus : R.SEL_TLn_STATUS n ∉ [R.LT_TLn_STATUS n, R.PWR_MODE] := by
    revert n; decide
  have hfreq : (F.SEL_TLn_HOLDFREQ_FREQ n).apart (F.SEL_TLn_STATUS_MODE n) := .inl (selHoldfreq_ne_status n)
  rw [State.freerun_eq, State.selMode, (only_setTlState _ n 3).rd (f := F.SEL_TLn_STATUS_MODE n) hstatus (recReg_selStatus n),
    State.wrS, State.rd_wr_apart (f := F.SEL_TLn_HOLDFREQ_FREQ n) _ _ (by decide : 0 + 32 ≤ 32) hfreq,
    State.rd_wr_same (f := F.SEL_TLn_STATUS_MODE n) _ _ (by decide : 0 + 2 ≤ 32)]
  rfl

theorem State.freerun_other (s : State) {n m : Fin 4} (h : m ≠ n) :
    (s.freerun n).tl m = s.tl m ∧ (s.freerun n).tlState m = s.tlState m := by
  have hne : m.val ≠ n.val := fun e => h (Fin.ext e)
  have hreg : R.LT_TLn_STATUS m ∉ [R.SEL_TLn_STATUS n, R.SEL_TLn_HOLDFREQ n, R.LT_TLn_STATUS n, R.PWR_MODE] := by
    revert n m; decide
  have hstate : (s.freerun n).tlState m = (s.freedTl n).tlState m :=
    (s.only_freerun n).rd (f := F.LT_TLn_STATUS_STATE m) hreg (recReg_tlStatus m)
  exact ⟨((s.only_freerun n).tl m).trans (s.tl_setTl_ne _ hne), hstate.trans (s.rd_setTl n _ (F.LT_TLn_STATUS_STATE m))⟩

/-- Settles O7: the record FREERUN writes is read back through the frame of the registers that show it. -/
theorem freerunEntersHoldover : Obligations.FreerunEntersHoldover := by
  intro n s _
  have hstate : (s.freerun n).tlState n = 3 := State.tlState_setTlState_same _ n (by decide : 3 < 8)
  refine ⟨hstate, s.selMode_freerun n, ?_⟩
  rw [s.tl_freerun_same n]
  exact ⟨rfl, rfl, rfl, rfl, rfl, fun m hm => s.freerun_other hm⟩

/-! ## The read of NOW_LO (R46, R490) -/

theorem exec_ltNowRead (q : Req) (n : Fin 4) (s : State) : exec (.ltNowRead q n) s = .next (s.nowRead q n) := rfl

theorem reqKey_injective : Function.Injective reqKey := by
  intro p q h
  cases p <;> cases q <;> simp only [reqKey, Req.core.injEq, Fin.ext_iff, reduceCtorEq] at h ⊢ <;> omega

theorem State.nowLatched_nowRead_same (s : State) (q : Req) (n : Nat) : (s.nowRead q n).nowLatched q n = (s.now n / 2 ^ 32, s.epochHi n) :=
  mapGet_set_same _ s.lt.nowLatch _ _

theorem State.nowLatched_nowRead_ne (s : State) {p q : Req} {m n : Fin 4} (h : (p, m) ≠ (q, n)) :
    (s.nowRead q n).nowLatched p m = s.nowLatched p m := by
  refine mapGet_set_ne _ s.lt.nowLatch _ fun hkey => h ?_
  have hp : p = q := reqKey_injective (by omega)
  have hm : m = n := Fin.ext (by omega)
  rw [hp, hm]

/-- LT_TLn_NOW_HI shows what the reader latched. -/
theorem State.regRead_nowHi (s : State) (q : Req) (n : Fin 4) :
    s.regRead q (R.LT_TLn_NOW_HI n) = BitVec.ofNat 32 (s.nowLatched q n).1 := by
  have hdie : R.LT_TLn_NOW_HI n / 0x4000000 = 0 := by
    simp only [R.LT_TLn_NOW_HI]
    omega
  have hoff : R.LT_TLn_NOW_HI n % 0x4000000 = 0x100124 + n * 0x40 := by
    simp only [R.LT_TLn_NOW_HI]
    omega
  have hidx : (0x100124 + n * 0x40 - 0x100124) / 0x40 = n.val := by omega
  simp only [State.regRead, hdie, hoff, if_true, rootShown, List.cons_append, shownAt]
  rw [if_neg (by omega), if_neg (by omega), if_pos (by omega), hidx]

/-- Settles O8: the read answers the low half, and its latch is the one that NOW_HI shows to this requester. -/
theorem nowReadLatchesHigh : Obligations.NowReadLatchesHigh := by
  intro q n s
  refine ⟨s.nowRead q n, exec_ltNowRead q n s, rfl, ?_, fun p m h => s.nowLatched_nowRead_ne h, rfl⟩
  rw [State.regRead_nowHi, State.nowLatched_nowRead_same]

/-! ## The capture (R47) -/

/-- At most the registers of a list differ, the recorder's included. -/
def Writes (as : List Nat) (s t : State) : Prop := (∀ a, a ∉ as → t.reg a = s.reg a) ∧ t = { s with regs := t.regs }

theorem Writes.refl (s : State) : Writes [] s s := ⟨fun _ _ => rfl, rfl⟩

theorem Writes.trans {as bs : List Nat} {s t u : State} (h : Writes as s t) (g : Writes bs t u) : Writes (bs ++ as) s u := by
  obtain ⟨hreg, hrest⟩ := h
  obtain ⟨greg, grest⟩ := g
  refine ⟨fun a ha => ?_, by rw [grest, hrest]⟩
  obtain ⟨hb, ha⟩ := not_or.1 (mt List.mem_append.2 ha)
  exact (greg a hb).trans (hreg a ha)

theorem writes_wr (s : State) (f : Fld) (v : Nat) : Writes [f.reg] s (s.wr f v) :=
  ⟨fun _ ha => s.reg_wr_ne f v (List.ne_of_not_mem_cons ha), rfl⟩

theorem Writes.rd {as : List Nat} {s t : State} (h : Writes as s t) {f : Fld} (hf : f.reg ∉ as) : t.rd f = s.rd f :=
  congrArg (getBits · f.lo f.width) (h.1 f.reg hf)

theorem Writes.tl {as : List Nat} {s t : State} (h : Writes as s t) (n : Nat) : t.tl n = s.tl n := by rw [h.2]; rfl

theorem mkStamp_lt (frame tick frac : Nat) : mkStamp frame tick frac < 2 ^ 64 := by
  have hfrac : frac % 2 ^ 12 < 2 ^ 12 := Nat.mod_lt _ (by decide)
  have htick : tick % 2 ^ 16 < 2 ^ 16 := Nat.mod_lt _ (by decide)
  have hframe : frame % 2 ^ 36 < 2 ^ 36 := Nat.mod_lt _ (by decide)
  have hsum : frame % 2 ^ 36 * 2 ^ 28 + tick % 2 ^ 16 * 2 ^ 12 + frac % 2 ^ 12 < 2 ^ 64 := by omega
  exact hsum

theorem State.now_lt (s : State) (n : Nat) : s.now n < 2 ^ 64 := by
  unfold State.now State.unitStamp
  split
  · exact mkStamp_lt _ _ _
  · decide

/-- R38: line time reads 0 while a timeline is OFF or in ACQUIRE. -/
theorem State.now_of_stopped {s : State} {n : Nat} (h : s.tlState n = 0 ∨ s.tlState n = 1) : s.now n = 0 :=
  if_neg (by rcases h with h | h <;> simp [State.tlRunning, h])

/-- R46: line time goes by the timeline's state, its ticks per frame and its record. -/
theorem Writes.now {as : List Nat} {s t : State} {n : Nat} (h : Writes as s t) (hst : R.LT_TLn_STATUS n ∉ as) (hcfg : R.LT_TLn_CFG n ∉ as) :
    t.now n = s.now n ∧ t.epochHi n = s.epochHi n := by
  have hstate : t.tlState n = s.tlState n := h.rd (f := F.LT_TLn_STATUS_STATE n) hst
  have htpf : t.tpf n = s.tpf n := h.rd (f := F.LT_TLn_CFG_TPF n) hcfg
  have hrun : t.tlRunning n = s.tlRunning n := by simp only [State.tlRunning, hstate]
  exact ⟨by simp only [State.now, State.unitStamp, State.units, hrun, htpf, h.tl], by simp only [State.epochHi, hrun, h.tl]⟩

/-- The capture of one timeline. -/
def State.captureTl (s : State) (n : Nat) : State :=
  ((s.wr (F.LT_TLn_XCAP_LO_XCAP_LO n) (s.now n)).wr (F.LT_TLn_XCAP_HI_XCAP_HI n) (s.now n / 2 ^ 32)).wr
    (F.LT_TLn_XCAP_EPOCH_XCAP_EPOCH n) (s.epochHi n)

theorem State.capture_eq (s : State) : s.capture = (((s.captureTl 0).captureTl 1).captureTl 2).captureTl 3 := rfl

theorem exec_ltCapture (s : State) : exec .ltCapture s = .next s.capture := rfl

/-- The registers that a capture writes for timeline n. -/
def xcapRegs (n : Nat) : List Nat := [R.LT_TLn_XCAP_EPOCH n, R.LT_TLn_XCAP_HI n, R.LT_TLn_XCAP_LO n]

theorem mem_xcapRegs {a n : Nat} :
    a ∈ xcapRegs n ↔ a = 0x100130 + n * 0x40 ∨ a = 0x10012C + n * 0x40 ∨ a = 0x100128 + n * 0x40 := by
  simp only [xcapRegs, R.LT_TLn_XCAP_LO, R.LT_TLn_XCAP_HI, R.LT_TLn_XCAP_EPOCH, List.mem_cons, List.not_mem_nil, or_false]

theorem not_mem_xcapRegs {a : Nat} (done : List Nat) (h : a % 0x40 < 0x28) : a ∉ done.flatMap xcapRegs := by
  intro hm
  obtain ⟨n, -, hn⟩ := List.mem_flatMap.1 hm
  rw [mem_xcapRegs] at hn
  omega

/-- The capture registers of timeline n hold what `s` has of it. -/
def State.XcapOf (t s : State) (n : Nat) : Prop :=
  t.rd (F.LT_TLn_XCAP_LO_XCAP_LO n) = s.now n % 2 ^ 32 ∧ t.rd (F.LT_TLn_XCAP_HI_XCAP_HI n) = s.now n / 2 ^ 32 ∧
    t.rd (F.LT_TLn_XCAP_EPOCH_XCAP_EPOCH n) = s.epochHi n % 2 ^ 12

theorem writes_captureTl (s : State) (n : Nat) : Writes (xcapRegs n) s (s.captureTl n) :=
  ((writes_wr s (F.LT_TLn_XCAP_LO_XCAP_LO n) _).trans (writes_wr _ (F.LT_TLn_XCAP_HI_XCAP_HI n) _)).trans
    (writes_wr _ (F.LT_TLn_XCAP_EPOCH_XCAP_EPOCH n) _)

theorem State.captureTl_same (s : State) (n : Nat) : (s.captureTl n).XcapOf s n := by
  have hlo : (F.LT_TLn_XCAP_LO_XCAP_LO n).ok := (by decide : 0 + 32 ≤ 32)
  have hhi : (F.LT_TLn_XCAP_HI_XCAP_HI n).ok := (by decide : 0 + 32 ≤ 32)
  have hep : (F.LT_TLn_XCAP_EPOCH_XCAP_EPOCH n).ok := (by decide : 0 + 12 ≤ 32)
  have hhilo : (F.LT_TLn_XCAP_HI_XCAP_HI n).apart (F.LT_TLn_XCAP_LO_XCAP_LO n) :=
    .inl (show 0x10012C + n * 0x40 ≠ 0x100128 + n * 0x40 by omega)
  have heplo : (F.LT_TLn_XCAP_EPOCH_XCAP_EPOCH n).apart (F.LT_TLn_XCAP_LO_XCAP_LO n) :=
    .inl (show 0x100130 + n * 0x40 ≠ 0x100128 + n * 0x40 by omega)
  have hephi : (F.LT_TLn_XCAP_EPOCH_XCAP_EPOCH n).apart (F.LT_TLn_XCAP_HI_XCAP_HI n) :=
    .inl (show 0x100130 + n * 0x40 ≠ 0x10012C + n * 0x40 by omega)
  unfold State.captureTl
  refine ⟨?lo, ?hi, State.rd_wr_same _ _ _ hep⟩
  case lo =>
    rw [State.rd_wr_apart _ _ hep heplo, State.rd_wr_apart _ _ hhi hhilo, State.rd_wr_same _ _ _ hlo]
    rfl
  case hi =>
    rw [State.rd_wr_apart _ _ hep hephi, State.rd_wr_same _ _ _ hhi]
    have hnow : s.now n / 2 ^ 32 < 2 ^ 32 := Nat.div_lt_of_lt_mul (Nat.lt_of_lt_of_eq (s.now_lt n) (by decide))
    exact Nat.mod_eq_of_lt hnow

/-- The captures of a list of timelines have been made since `s`. -/
def State.Captured (done : List Nat) (s t : State) : Prop := Writes (done.flatMap xcapRegs) s t ∧ ∀ n ∈ done, t.XcapOf s n

theorem State.Captured.step {done : List Nat} {s t : State} (h : State.Captured done s t) (m : Nat) :
    State.Captured (m :: done) s (t.captureTl m) := by
  obtain ⟨hw, hx⟩ := h
  refine ⟨hw.trans (writes_captureTl t m), fun n hn => ?_⟩
  by_cases hnm : n = m
  · subst hnm
    have hst : R.LT_TLn_STATUS n % 0x40 < 0x28 := by
      simp only [R.LT_TLn_STATUS]
      omega
    have hcfg : R.LT_TLn_CFG n % 0x40 < 0x28 := by
      simp only [R.LT_TLn_CFG]
      omega
    obtain ⟨hnow, hep⟩ := hw.now (not_mem_xcapRegs done hst) (not_mem_xcapRegs done hcfg)
    simpa only [State.XcapOf, hnow, hep] using t.captureTl_same n
  · obtain ⟨hlo, hhi, hep⟩ := hx n ((List.mem_cons.1 hn).resolve_left hnm)
    have hkeep : ∀ f : Fld, f.reg ∈ xcapRegs n → (t.captureTl m).rd f = t.rd f := fun f hf => (writes_captureTl t m).rd fun hm => by
      rw [mem_xcapRegs] at hf hm
      omega
    exact ⟨(hkeep _ (.tail _ (.tail _ (.head _)))).trans hlo, (hkeep _ (.tail _ (.head _))).trans hhi, (hkeep _ (.head _)).trans hep⟩

theorem State.captured_capture (s : State) : State.Captured [3, 2, 1, 0] s s.capture :=
  (((State.Captured.step (done := []) ⟨.refl s, by simp⟩ 0).step 1).step 2).step 3

/-- Settles O9: the four captures one after another, none of which moves what the next one reads. -/
theorem captureAllTimelines : Obligations.CaptureAllTimelines := by
  intro s
  obtain ⟨⟨hreg, hrest⟩, hx⟩ := s.captured_capture
  refine ⟨s.capture, exec_ltCapture s, fun n => ?_, fun a ha => hreg a ?_, hrest⟩
  · have hn : n.val ∈ [3, 2, 1, 0] := by
      revert n; decide
    obtain ⟨hlo, hhi, hep⟩ := hx n hn
    refine ⟨hlo, hhi, hep.trans ?_, State.now_of_stopped⟩
    rw [State.epochHi, apply_ite (· % 2 ^ 12), Nat.zero_mod]
  · intro hm
    obtain ⟨k, hk, hak⟩ := List.mem_flatMap.1 hm
    have hk4 : k < 4 := by
      simp only [List.mem_cons, List.not_mem_nil, or_false] at hk
      omega
    obtain ⟨hlo, hhi, hep⟩ := ha ⟨k, hk4⟩
    simp only [xcapRegs, List.mem_cons, List.not_mem_nil, or_false, hlo, hhi, hep] at hak

/-! ## Writes of LT_TLn_CTL (R38) -/

/-- A write of LT_TLn_CTL that sets EN, in OFF: the check of every base passes. -/
theorem State.tlCtlWrite_enable {s : State} {n : Nat} {v : Word} (hoff : s.tlState n = 0) (hen : getBits v 0 1 = 1)
    (hchk : ∀ b ∈ s.bases, b.tlCheck n (getBits v 1 1 == 1) = 0) :
    s.tlCtlWrite n v = (let a := ((s.setReg (R.LT_TLn_CTL n) (v &&& 3)).badMinute n).setTlState n 1
      (if getBits v 1 1 == 1 then a.freerun n else a).reselect n) := by
  have hpass : ((s.bases.map fun b => b.tlCheck n (getBits v 1 1 == 1)).find? (· != 0)).getD 0 = 0 := by
    have hnone : (s.bases.map fun b => b.tlCheck n (getBits v 1 1 == 1)).find? (· != 0) = none := by
      simpa using hchk
    rw [hnone]
    rfl
  simp only [State.tlCtlWrite, hoff, hen, hpass, beq_self_eq_true, ne_eq, not_true_eq_false, if_false]

theorem State.tlCtlWrite_freerun {s : State} {n : Nat} {v : Word} (hacq : s.tlState n = 1) (hen : getBits v 0 1 = 1)
    (hfr : getBits v 1 1 = 1) : s.tlCtlWrite n v = ((s.setReg (R.LT_TLn_CTL n) (v &&& 3)).freerun n).reselect n := by
  simp only [State.tlCtlWrite, hacq, hen, hfr, beq_self_eq_true, if_true]

/-- A write that clears EN stops a timeline in ACQUIRE, and one that runs for nobody, if no set is armed on it (R142). -/
theorem State.tlCtlWrite_stop {s : State} {n : Nat} {v : Word}
    (hst : s.tlState n = 1 ∨ ((s.tlState n = 2 ∨ s.tlState n = 3) ∧ s.tlInUse n = false)) (harm : s.armedOn n = false)
    (hen : getBits v 0 1 = 0) : s.tlCtlWrite n v = (s.setReg (R.LT_TLn_CTL n) (v &&& 3)).tlStop n := by
  rcases hst with h | ⟨h | h, huse⟩
  · simp [State.tlCtlWrite, h, hen, harm]
  · simp [State.tlCtlWrite, h, hen, harm, huse]
  · simp [State.tlCtlWrite, h, hen, harm, huse]

theorem State.tlCtlWrite_inUse {s : State} {n : Nat} {v : Word} (hst : s.tlState n = 2 ∨ s.tlState n = 3) (huse : s.tlInUse n = true)
    (hen : getBits v 0 1 = 0) : s.tlCtlWrite n v = s.refuse (pTl n) [R.LT_TLn_STATUS n] 0x1003 (R.LT_TLn_CTL n) := by
  rcases hst with h | h <;> simp [State.tlCtlWrite, h, hen, huse]

theorem exec_tlEnable (n : Fin 4) (fr : Bool) (s : State) :
    exec (.tlEnable n fr) s = .next (s.tlCtlWrite n (BitVec.ofNat 32 (1 + 2 * bit fr))) := rfl

theorem exec_tlFreerun (n : Fin 4) (s : State) : exec (.tlFreerun n) s = .next (s.tlCtlWrite n 3) := rfl

theorem exec_tlDisable (n : Fin 4) (s : State) : exec (.tlDisable n) s = .next (s.tlCtlWrite n 0) := rfl

theorem enableWord_bits (fr : Bool) :
    getBits (BitVec.ofNat 32 (1 + 2 * bit fr)) 0 1 = 1 ∧ (getBits (BitVec.ofNat 32 (1 + 2 * bit fr)) 1 1 == 1) = fr ∧
      BitVec.ofNat 32 (1 + 2 * bit fr) &&& 3 = if fr then 3 else 1 := by
  revert fr; decide

/-- Settles O6: each clause is one case of a write of LT_TLn_CTL. -/
theorem timelineControl : Obligations.TimelineControl := by
  refine ⟨fun n fr s hoff hchk => ?enable, fun n s hacq => ?freerun, fun n s hst harm => ?stop, fun n s hst huse => ?inUse⟩
  case enable =>
    obtain ⟨hen, hfr, hword⟩ := enableWord_bits fr
    rw [exec_tlEnable, State.tlCtlWrite_enable hoff hen (by rwa [hfr]), hfr, hword]
  case freerun => rw [exec_tlFreerun, State.tlCtlWrite_freerun hacq (by decide) (by decide)]; rfl
  case stop => rw [exec_tlDisable, State.tlCtlWrite_stop hst harm (by decide)]; rfl
  case inUse =>
    refine ⟨_, (exec_tlDisable n s).trans (congrArg _ (State.tlCtlWrite_inUse hst huse (by decide))), ?_, ?_, only_refuse s _ _ _ _⟩
    · exact s.rd_refuse_mem _ _ _ (List.mem_singleton_self _) (recReg_tlStatus n)
    · exact s.rd_refuse_low (f := F.LT_TLn_STATUS_STATE n) _ _ _ _ (by decide : 0 + 3 ≤ 16) (recReg_tlStatus n)

end Sys2Proof.Machine
end

section
/-!
PROOFS. Planned switches and drills (R370 to R372). A write of PAIR_n_CTL first stores BACK and TL. The first part shows that no
check of a request reads that register but for TL: the state of the pair and its sides (R20, R350 to R354), line time (R46, R48) and
the start of a slot (R42 to R44) are what they were before. The second part has one lemma per outcome of each request.
-/
namespace Sys2Proof.Machine

/-! ## What a write of PAIR_n_CTL leaves: fields -/

/-- The field lies in no PAIR_n_CTL: these stand from 0x900000 up, at 0x10 past a multiple of their stride of 0x40. -/
def Fld.offCtl (f : Fld) : Prop := f.reg < 0x900000 ∨ f.reg % 0x40 ≠ 0x10

@[simp] theorem State.rd_setCtl (s : State) (n : Nat) (v : Word) {f : Fld} (h : f.offCtl) : (s.setReg (R.PAIR_n_CTL n) v).rd f = s.rd f := by
  refine s.rd_setReg_ne v fun hreg => ?_
  simp only [Fld.offCtl, hreg, R.PAIR_n_CTL] at h
  omega

@[simp] theorem timeline_offCtl : (∀ l, (F.LT_TLn_STATUS_STATE l).offCtl) ∧ (∀ l, (F.LT_TLn_CFG_BASE l).offCtl) ∧
    (∀ l, (F.LT_TLn_CFG_DROP l).offCtl) ∧ ∀ l, (F.LT_TLn_CFG_TPF l).offCtl := by
  simp only [Fld.offCtl, F.LT_TLn_STATUS_STATE, R.LT_TLn_STATUS, F.LT_TLn_CFG_BASE, F.LT_TLn_CFG_DROP, F.LT_TLn_CFG_TPF, R.LT_TLn_CFG]
  refine ⟨?_, ?_, ?_, ?_⟩ <;> intro l <;> omega

@[simp] theorem channel_offCtl : (∀ c, (F.LT_CHc_PHASE_TICK c).offCtl) ∧ (∀ c, (F.LT_CHc_PHASE_FRAC c).offCtl) ∧
    (∀ c, (F.ING_CHc_FMT_INTERLACE c).offCtl) ∧ ∀ c, (F.ING_CHc_FMT_HEIGHT c).offCtl := by
  simp only [Fld.offCtl, F.LT_CHc_PHASE_TICK, F.LT_CHc_PHASE_FRAC, R.LT_CHc_PHASE, F.ING_CHc_FMT_INTERLACE, F.ING_CHc_FMT_HEIGHT, R.ING_CHc_FMT]
  refine ⟨?_, ?_, ?_, ?_⟩ <;> intro c <;> omega

/-- A CHANNEL field has seven bits: the map of its channel stands below the pairs' registers. -/
@[simp] theorem channelMap_offCtl : (∀ c < 128, (F.LT_CHc_MAP_TL c).offCtl) ∧ (∀ c < 128, (F.LT_CHc_MAP_RATIO c).offCtl) ∧
    (∀ c < 128, (F.LT_CHc_MAP_LINES c).offCtl) ∧ ∀ c < 128, (F.LT_CHc_MAP_HALF_PHASE c).offCtl := by
  simp only [Fld.offCtl, F.LT_CHc_MAP_TL, F.LT_CHc_MAP_RATIO, F.LT_CHc_MAP_LINES, F.LT_CHc_MAP_HALF_PHASE, R.LT_CHc_MAP]
  refine ⟨?_, ?_, ?_, ?_⟩ <;> intro c hc <;> omega

@[simp] theorem crown_offCtl : (∀ d k, (F.CMP_SLOTs_CFG_EN d k).offCtl) ∧ (∀ d k, (F.CMP_SLOTs_CFG_CHANNEL d k).offCtl) ∧
    (∀ d k, (F.CMP_SLOTs_CFG_COMP_MASK d k).offCtl) ∧ (∀ d i, (F.ENC_STRi_CFG_EN d i).offCtl) ∧
    (∀ d i, (F.ENC_STRi_CFG_PIPE_FIRST d i).offCtl) ∧ (∀ d i, (F.ENC_STRi_CFG_FRDIV d i).offCtl) ∧
    (∀ d k, (F.CRC_k_STATUS_BUSY d k).offCtl) ∧ ∀ d k, (F.SCH_CONSk_CFG_CORE d k).offCtl := by
  simp only [Fld.offCtl, F.CMP_SLOTs_CFG_EN, F.CMP_SLOTs_CFG_CHANNEL, F.CMP_SLOTs_CFG_COMP_MASK, R.CMP_SLOTs_CFG, F.ENC_STRi_CFG_EN,
    F.ENC_STRi_CFG_PIPE_FIRST, F.ENC_STRi_CFG_FRDIV, R.ENC_STRi_CFG, F.CRC_k_STATUS_BUSY, R.CRC_k_STATUS, F.SCH_CONSk_CFG_CORE,
    R.SCH_CONSk_CFG, dieBase]
  refine ⟨?_, ?_, ?_, ?_, ?_, ?_, ?_, ?_⟩ <;> intro d k <;> omega

@[simp] theorem pair_offCtl : (∀ n, (F.PAIR_n_CFG_EN n).offCtl) ∧ (∀ n, (F.PAIR_n_CFG_KIND n).offCtl) ∧
    (∀ n, (F.PAIR_n_SIDE_A_PATH n).offCtl) ∧ (∀ n, (F.PAIR_n_SIDE_B_PATH n).offCtl) ∧ (∀ n, (F.PAIR_n_STATUS_MISMATCH n).offCtl) ∧
    (∀ n, (F.PAIR_n_STATUS_DRILL n).offCtl) ∧ (∀ n, (F.PAIR_n_ID_ID n).offCtl) ∧ (∀ n, (F.PAIR_n_TERM_TERM n).offCtl) ∧
    (∀ n, (F.PAIR_n_AT_LO_STAMP n).offCtl) ∧ (∀ n, (F.PAIR_n_AT_HI_STAMP n).offCtl) ∧ ∀ n sd, (roleField n sd).offCtl := by
  refine ⟨?_, ?_, ?_, ?_, ?_, ?_, ?_, ?_, ?_, ?_, fun n sd => ?role⟩
  case role =>
    unfold roleField
    split <;> simp only [Fld.offCtl, F.PAIR_n_STATUS_ROLE_A, F.PAIR_n_STATUS_ROLE_B, R.PAIR_n_STATUS] <;> omega
  all_goals
    simp only [Fld.offCtl, F.PAIR_n_CFG_EN, F.PAIR_n_CFG_KIND, R.PAIR_n_CFG, F.PAIR_n_SIDE_A_PATH, R.PAIR_n_SIDE_A, F.PAIR_n_SIDE_B_PATH,
      R.PAIR_n_SIDE_B, F.PAIR_n_STATUS_MISMATCH, F.PAIR_n_STATUS_DRILL, R.PAIR_n_STATUS, F.PAIR_n_ID_ID, R.PAIR_n_ID, F.PAIR_n_TERM_TERM,
      R.PAIR_n_TERM, F.PAIR_n_AT_LO_STAMP, R.PAIR_n_AT_LO, F.PAIR_n_AT_HI_STAMP, R.PAIR_n_AT_HI]
    intro n
    omega

/-! ## What a write of PAIR_n_CTL leaves: the functions that the requests use -/

section
variable (s : State) (n : Nat) (v : Word)

@[simp] theorem State.on_setCtl {f : Fld} (h : f.offCtl) : (s.setReg (R.PAIR_n_CTL n) v).on f = s.on f := by simp [State.on, h]

@[simp] theorem State.crowns_setReg (a : Nat) : (s.setReg a v).crowns = s.crowns := rfl
@[simp] theorem State.tl_setReg (a l : Nat) : (s.setReg a v).tl l = s.tl l := rfl
@[simp] theorem State.pair_setReg (a m : Nat) : (s.setReg a v).pair m = s.pair m := rfl
@[simp] theorem State.leaves_setReg (a p : Nat) : (s.setReg a v).leaves p = s.leaves p := rfl
@[simp] theorem State.inReset_setReg (a q : Nat) : (s.setReg a v).inReset q = s.inReset q := rfl
@[simp] theorem State.leafFault_setReg (a q : Nat) : (s.setReg a v).leafFault q = s.leafFault q := rfl
@[simp] theorem State.leafOff_setReg (a q : Nat) : (s.setReg a v).leafOff q = s.leafOff q := rfl
@[simp] theorem State.liveTasks_setReg (a d : Nat) : (s.setReg a v).liveTasks d = s.liveTasks d := rfl

@[simp] theorem State.tlRunning_setCtl (l : Nat) : (s.setReg (R.PAIR_n_CTL n) v).tlRunning l = s.tlRunning l := by
  simp [State.tlRunning, State.tlState]
@[simp] theorem State.tpf_setCtl (l : Nat) : (s.setReg (R.PAIR_n_CTL n) v).tpf l = s.tpf l := by simp [State.tpf]
@[simp] theorem State.tlDrop_setCtl (l : Nat) : (s.setReg (R.PAIR_n_CTL n) v).tlDrop l = s.tlDrop l := by simp [State.tlDrop]
@[simp] theorem State.tlBase_setCtl (l : Nat) : (s.setReg (R.PAIR_n_CTL n) v).tlBase l = s.tlBase l := by simp [State.tlBase]
@[simp] theorem State.accStep_setCtl (l : Nat) : (s.setReg (R.PAIR_n_CTL n) v).accStep l = s.accStep l := by
  simp only [State.accStep, State.tlDrop_setCtl, State.tlBase_setCtl]
@[simp] theorem State.now_setCtl (l : Nat) : (s.setReg (R.PAIR_n_CTL n) v).now l = s.now l := by
  simp [State.now, State.unitStamp, State.units]
@[simp] theorem State.nowPlus20us_setCtl (l : Nat) : (s.setReg (R.PAIR_n_CTL n) v).nowPlus20us l = s.nowPlus20us l := by
  simp [State.nowPlus20us, State.unitStamp]
@[simp] theorem State.stampCheck_setCtl (l x : Nat) : (s.setReg (R.PAIR_n_CTL n) v).stampCheck l x = s.stampCheck l x := by
  simp [State.stampCheck]

@[simp] theorem State.chTl_setCtl {c : Nat} (hc : c < 128) : (s.setReg (R.PAIR_n_CTL n) v).chTl c = s.chTl c := by simp [State.chTl, hc]
@[simp] theorem State.chPhase_setCtl (c : Nat) : (s.setReg (R.PAIR_n_CTL n) v).chPhase c = s.chPhase c := by simp [State.chPhase]
@[simp] theorem State.linePos_setCtl {c : Nat} (hc : c < 128) (k l : Nat) :
    (s.setReg (R.PAIR_n_CTL n) v).linePos c k l = s.linePos c k l := by
  simp [State.linePos, State.frameStart, State.chRatio, State.chLines, hc]
@[simp] theorem State.strChan_setCtl (d i : Nat) : (s.setReg (R.PAIR_n_CTL n) v).strChan d i = s.strChan d i := by simp [State.strChan]
theorem State.strChan_lt (d i : Nat) : s.strChan d i < 128 := s.rd_lt (F.CMP_SLOTs_CFG_CHANNEL d (i / 8))
@[simp] theorem State.slotStart_setCtl (d i x : Nat) : (s.setReg (R.PAIR_n_CTL n) v).slotStart d i x = s.slotStart d i x := by
  simp [State.slotStart, State.chInterlaced, State.chHeight, s.strChan_lt d i]

@[simp] theorem State.crcAt_setCtl (q : Nat) : (s.setReg (R.PAIR_n_CTL n) v).crcAt q = s.crcAt q := by simp [State.crcAt]
@[simp] theorem State.jobLeaves_setCtl (j : Job) : (s.setReg (R.PAIR_n_CTL n) v).jobLeaves j = s.jobLeaves j := by
  simp [State.jobLeaves]
@[simp] theorem State.taskLeaves_setCtl (d : Nat) (t : Task) : (s.setReg (R.PAIR_n_CTL n) v).taskLeaves d t = s.taskLeaves d t := by
  simp [State.taskLeaves, State.consPath]
@[simp] theorem State.leafBusy_setCtl (q : Nat) : (s.setReg (R.PAIR_n_CTL n) v).leafBusy q = s.leafBusy q := by
  simp [State.leafBusy]
@[simp] theorem State.status_setCtl (p : Nat) : (s.setReg (R.PAIR_n_CTL n) v).status p = s.status p := by
  have hbusy : (s.setReg (R.PAIR_n_CTL n) v).leafBusy = s.leafBusy := funext fun q => s.leafBusy_setCtl n v q
  simp [State.status, hbusy]

variable (m : Nat)
@[simp] theorem State.pairOn_setCtl : (s.setReg (R.PAIR_n_CTL n) v).pairOn m = s.pairOn m := by simp [State.pairOn]
@[simp] theorem State.pairTwin_setCtl : (s.setReg (R.PAIR_n_CTL n) v).pairTwin m = s.pairTwin m := by simp [State.pairTwin]
@[simp] theorem State.pairId_setCtl : (s.setReg (R.PAIR_n_CTL n) v).pairId m = s.pairId m := by simp [State.pairId]
@[simp] theorem State.pairTerm_setCtl : (s.setReg (R.PAIR_n_CTL n) v).pairTerm m = s.pairTerm m := by simp [State.pairTerm]
@[simp] theorem State.localSides_setCtl : (s.setReg (R.PAIR_n_CTL n) v).localSides m = s.localSides m := by simp [State.localSides]
variable (sd : Nat)
@[simp] theorem State.role_setCtl : (s.setReg (R.PAIR_n_CTL n) v).role m sd = s.role m sd := by simp [State.role]
@[simp] theorem State.sidePath_setCtl : (s.setReg (R.PAIR_n_CTL n) v).sidePath m sd = s.sidePath m sd := by simp [State.sidePath]
@[simp] theorem State.sideHealthy_setCtl : (s.setReg (R.PAIR_n_CTL n) v).sideHealthy m sd = s.sideHealthy m sd := by simp [State.sideHealthy]
@[simp] theorem State.eligible_setCtl : (s.setReg (R.PAIR_n_CTL n) v).eligible m = s.eligible m := by simp [State.eligible]
@[simp] theorem State.rdKept_setCtl (d : Nat) {f : Fld} (h : f.offCtl) : (s.setReg (R.PAIR_n_CTL n) v).rdKept d f = s.rdKept d f := by
  simp [State.rdKept, h]
@[simp] theorem State.sideCarries_setCtl (d k : Nat) : (s.setReg (R.PAIR_n_CTL n) v).sideCarries m sd d k = s.sideCarries m sd d k := by
  simp [State.sideCarries]
@[simp] theorem State.strOn_setCtl (d i : Nat) : (s.setReg (R.PAIR_n_CTL n) v).strOn d i = s.strOn d i := by simp [State.strOn]
@[simp] theorem State.sideStreams_setCtl : (s.setReg (R.PAIR_n_CTL n) v).sideStreams m sd = s.sideStreams m sd := by
  simp [State.sideStreams]

end

/-! ## The pair's own record -/

theorem mapErase_insert_same {V : Type} (m : List (Nat × V)) (k : Nat) (v : V) : mapErase (mapInsert m k v) k = mapErase m k := by
  induction m with
  | nil => simp [mapInsert, mapErase]
  | cons p m ih =>
    obtain ⟨k', v'⟩ := p
    by_cases hlt : k < k' <;> simp [mapInsert, mapErase, hlt, ih]

theorem mapErase_erase_same {V : Type} (m : List (Nat × V)) (k : Nat) : mapErase (mapErase m k) k = mapErase m k := by
  induction m with
  | nil => rfl
  | cons p m ih =>
    obtain ⟨k', v'⟩ := p
    by_cases hk : k = k'
    · simpa [mapErase, hk] using ih
    · simp [mapErase, hk, ih]

/-- Of two writes of one key the second stands. -/
theorem mapSet_set_same {V : Type} [DecidableEq V] (d : Nat → V) (m : List (Nat × V)) (k : Nat) (v w : V) :
    mapSet d (mapSet d m k v) k w = mapSet d m k w := by
  have herase : mapErase (mapSet d m k v) k = mapErase m k := by
    unfold mapSet
    split
    · exact mapErase_erase_same m k
    · rw [mapErase_insert_same, mapErase_erase_same]
  simp only [mapSet.eq_1 d _ k w, herase]

theorem State.pair_setPair_same (s : State) (n : Nat) (x : PairSt) : (s.setPair n x).pair n = x := mapGet_set_same _ s.red.pairs n x

theorem State.pair_setPair_ne (s : State) {n m : Nat} (x : PairSt) (h : m ≠ n) : (s.setPair n x).pair m = s.pair m :=
  mapGet_set_ne _ s.red.pairs x h

theorem State.setPair_setPair (s : State) (n : Nat) (x y : PairSt) : (s.setPair n x).setPair n y = s.setPair n y := by
  simp only [State.setPair, mapSet_set_same]

theorem State.rd_setPair (s : State) (n : Nat) (x : PairSt) (f : Fld) : (s.setPair n x).rd f = s.rd f := by
  simp only [State.rd, State.reg, State.setPair_variant, State.setPair_regs]

/-! ## A refused request (R370 to R372) -/

theorem recReg_pairStatus (n : Fin 32) : recReg (R.PAIR_n_STATUS n) = false :=
  recReg_of_lt (by simp only [R.PAIR_n_STATUS]; omega)

theorem recReg_pairCtl (n : Fin 32) : recReg (R.PAIR_n_CTL n) = false :=
  recReg_of_lt (by simp only [R.PAIR_n_CTL]; omega)

/-- The code stands in the pair's status and in the block's, and no other register moves. -/
theorem State.pairRefuse_reads (s : State) (n : Fin 32) {code : Nat} (hc : code < 2 ^ 16) :
    (s.pairRefuse n code).rd (F.PAIR_n_STATUS_REASON n) = code ∧ (s.pairRefuse n code).rd F.PAIR_STATUS_REASON = code ∧
      Only [R.PAIR_n_STATUS n, R.PAIR_STATUS] s (s.pairRefuse n code) := by
  have hblock : recReg R.PAIR_STATUS = false := by decide
  exact ⟨(s.rd_refuse_mem _ code _ (.head _) (recReg_pairStatus n)).trans (Nat.mod_eq_of_lt hc),
    (s.rd_refuse_mem _ code _ (.tail _ (.head _)) hblock).trans (Nat.mod_eq_of_lt hc), only_refuse s _ _ _ _⟩

/-- A request refused after the write of PAIR_n_CTL. -/
theorem State.pairRefuse_setCtl (s : State) (n : Fin 32) (v : Word) {code : Nat} (hc : code < 2 ^ 16) :
    ((s.setReg (R.PAIR_n_CTL n) v).pairRefuse n code).reg (R.PAIR_n_CTL n) = v ∧
      ((s.setReg (R.PAIR_n_CTL n) v).pairRefuse n code).rd (F.PAIR_n_STATUS_REASON n) = code ∧
      ((s.setReg (R.PAIR_n_CTL n) v).pairRefuse n code).rd F.PAIR_STATUS_REASON = code ∧
      Only [R.PAIR_n_CTL n, R.PAIR_n_STATUS n, R.PAIR_STATUS] s ((s.setReg (R.PAIR_n_CTL n) v).pairRefuse n code) := by
  obtain ⟨hpair, hblock, honly⟩ := (s.setReg (R.PAIR_n_CTL n) v).pairRefuse_reads n hc
  have hne : R.PAIR_n_CTL n ∉ [R.PAIR_n_STATUS n, R.PAIR_STATUS] := by
    simp only [R.PAIR_n_CTL, R.PAIR_n_STATUS, R.PAIR_STATUS, List.mem_cons, List.not_mem_nil, or_false]
    omega
  exact ⟨(honly.1 _ hne (recReg_pairCtl n)).trans (s.reg_setReg_same _ v), hpair, hblock,
    ((only_setReg s (R.PAIR_n_CTL n) v).mono (by simp)).trans (honly.mono (by simp))⟩

theorem State.stampCheck_lt (s : State) (l x : Nat) : s.stampCheck l x < 2 ^ 16 := by
  unfold State.stampCheck
  split
  · decide
  split
  · decide
  split
  · decide
  split <;> decide

/-! ## The checks of a planned switch or drill (R370, R371) -/

/-- PAIR_n_AT: the stamp at which a switch or drill is planned. -/
def State.planStamp (s : State) (n : Nat) : Nat := s.rd (F.PAIR_n_AT_LO_STAMP n) + s.rd (F.PAIR_n_AT_HI_STAMP n) * 2 ^ 32

/-- A pair that can switch: of a twin pair one side ACTIVE, the other STANDBY and no MISMATCH; else a side that may be promoted, and one
that is ACTIVE. -/
def State.CanSwitch (s : State) (n : Nat) : Prop :=
  if s.pairTwin n then ((s.role n 0 = 3 ∧ s.role n 1 = 1) ∨ (s.role n 0 = 1 ∧ s.role n 1 = 3)) ∧ s.on (F.PAIR_n_STATUS_MISMATCH n) = false
  else (s.eligible n).isSome = true ∧ (s.role n 0 = 3 ∨ s.role n 1 = 3)

/-- The stamp is the start of a slot of every stream of the pair that this package carries, on timeline l. -/
def State.InPlace (s : State) (n l x : Nat) : Prop :=
  ∀ p ∈ (s.localSides n).flatMap fun sd => s.sideStreams n sd, s.chTl (s.strChan p.1 p.2) = l ∧ s.slotStart p.1 p.2 x = true

theorem State.planStamp_setCtl (s : State) (n : Nat) (v : Word) : (s.setReg (R.PAIR_n_CTL n) v).planStamp n = s.planStamp n := by
  simp [State.planStamp]

theorem State.canSwitch_setCtl (s : State) (n : Nat) (v : Word) : (s.setReg (R.PAIR_n_CTL n) v).CanSwitch n ↔ s.CanSwitch n := by
  simp [State.CanSwitch]

theorem State.inPlace_setCtl (s : State) (n l x : Nat) (v : Word) : (s.setReg (R.PAIR_n_CTL n) v).InPlace n l x ↔ s.InPlace n l x := by
  simp [State.InPlace, s.strChan_lt]

/-- A request for a switch or drill, check by check, in the order of its codes. -/
theorem State.planWrite_eq (s : State) (n : Nat) (drill : Bool) [Decidable (s.pairOn n = true ∧ s.CanSwitch n)]
    [Decidable (s.InPlace n (s.rd (F.PAIR_n_CTL_TL n)) (s.planStamp n))] :
    s.planWrite n drill =
      if s.stampCheck (s.rd (F.PAIR_n_CTL_TL n)) (s.planStamp n) ≠ 0 then
        s.pairRefuse n (s.stampCheck (s.rd (F.PAIR_n_CTL_TL n)) (s.planStamp n))
      else if ¬(s.pairOn n = true ∧ s.CanSwitch n) then s.pairRefuse n 0x8006
      else if ¬s.InPlace n (s.rd (F.PAIR_n_CTL_TL n)) (s.planStamp n) then s.pairRefuse n 0x8007
      else s.plan n (s.rd (F.PAIR_n_CTL_TL n)) (s.planStamp n) drill := by
  unfold State.planWrite
  refine ite_congr rfl (fun _ => rfl) fun _ => ite_congr (propext ?can) (fun _ => rfl) fun _ =>
    ite_congr (propext ?place) (fun _ => rfl) fun _ => rfl
  case can =>
    cases htwin : s.pairTwin n <;>
      simp only [State.CanSwitch, htwin, Bool.false_eq_true, if_true, if_false, Bool.not_eq_true', ← Bool.not_eq_true,
        Bool.and_eq_true, Bool.or_eq_true, beq_iff_eq, Classical.not_and_iff_not_or_not, not_true, false_or]
  case place =>
    simp only [State.InPlace, State.planStamp, List.any_eq_true, Prod.forall, Prod.exists, Classical.not_forall, exists_prop,
      Classical.not_and_iff_not_or_not, Bool.or_eq_true, bne_iff_ne, Bool.not_eq_true, Bool.not_eq_true', ne_eq]

/-! ## A plan that waits (R370) -/

/-- Of a twin pair, a STANDBY side asks the witness for the next TERM. -/
theorem State.plan_standby {s : State} {n : Nat} (l x : Nat) (drill : Bool) (h : s.pairTwin n = true ∧ s.role n 0 = 1) :
    s.plan n l x drill =
      (s.setPair n { s.pair n with plan := some (l, x, drill), granted := false, renewAt := s.cycle, asked := true }).witSend 1
        (s.pairId n) (s.pairTerm n + 1) 0 := by
  have hasks : (s.setPair n { s.pair n with plan := some (l, x, drill), granted := false }).pairTwin n = true ∧
      (s.setPair n { s.pair n with plan := some (l, x, drill), granted := false }).role n 0 = 1 := by
    simpa only [State.pairTwin, State.on, State.role, State.rd_setPair] using h
  simp only [State.plan, if_pos hasks, State.pair_setPair_same, State.setPair_setPair, State.setPair_cycle, State.pairId, State.pairTerm,
    State.rd_setPair]

theorem State.plan_waits {s : State} {n : Nat} (l x : Nat) (drill : Bool) (h : ¬(s.pairTwin n = true ∧ s.role n 0 = 1)) :
    s.plan n l x drill = s.setPair n { s.pair n with plan := some (l, x, drill), granted := false } := by
  refine if_neg ?_
  simpa only [State.pairTwin, State.on, State.role, State.rd_setPair] using h

/-- The same after the write of PAIR_n_CTL. -/
theorem State.plan_setCtl_standby (s : State) (n : Nat) (v : Word) (l x : Nat) (drill : Bool) (h : s.pairTwin n = true ∧ s.role n 0 = 1) :
    (s.setReg (R.PAIR_n_CTL n) v).plan n l x drill =
      ((s.setReg (R.PAIR_n_CTL n) v).setPair n
        { s.pair n with plan := some (l, x, drill), granted := false, renewAt := s.cycle, asked := true }).witSend 1
        (s.pairId n) (s.pairTerm n + 1) 0 := by
  rw [State.plan_standby l x drill (by simpa using h), State.pairId_setCtl, State.pairTerm_setCtl, State.pair_setReg, State.setReg_cycle]

theorem State.plan_setCtl_waits (s : State) (n : Nat) (v : Word) (l x : Nat) (drill : Bool) (h : ¬(s.pairTwin n = true ∧ s.role n 0 = 1)) :
    let t := (s.setReg (R.PAIR_n_CTL n) v).plan n l x drill
    t.reg (R.PAIR_n_CTL n) = v ∧ t.pair n = { s.pair n with plan := some (l, x, drill), granted := false } ∧
      (∀ m, m ≠ n → t.pair m = s.pair m) ∧ Only [R.PAIR_n_CTL n] { s with red := { s.red with pairs := t.red.pairs } } t := by
  intro t
  have ht : t = (s.setReg (R.PAIR_n_CTL n) v).setPair n { s.pair n with plan := some (l, x, drill), granted := false } :=
    State.plan_waits l x drill (by simpa using h)
  rw [ht]
  exact ⟨s.reg_setReg_same _ v, State.pair_setPair_same _ _ _, fun m hm => State.pair_setPair_ne _ _ hm, only_setReg _ _ v⟩

/-! ## A REJOIN (R370) -/

/-- A side may rejoin: it is in FAULT, none of its leaves is, and none is held in reset. -/
def State.MayRejoin (s : State) (n sd : Nat) : Prop :=
  s.role n sd = 5 ∧ s.sideHealthy n sd = true ∧ ∀ l ∈ s.leaves (s.sidePath n sd), s.inReset l = false

theorem State.mayRejoin_setCtl (s : State) (n sd : Nat) (v : Word) : (s.setReg (R.PAIR_n_CTL n) v).MayRejoin n sd ↔ s.MayRejoin n sd := by
  simp [State.MayRejoin]

theorem State.mayRejoin_iff (s : State) (n sd : Nat) :
    (s.role n sd == 5 && s.sideHealthy n sd && !(s.leaves (s.sidePath n sd)).any s.inReset) = true ↔ s.MayRejoin n sd := by
  simp [State.MayRejoin, and_assoc]

theorem State.rejoinWrite_none {s : State} {n : Nat} (h : ∀ sd ∈ s.localSides n, ¬s.MayRejoin n sd) :
    s.rejoinWrite n = s.pairRefuse n 0x8009 := by
  have hnone : ((s.localSides n).find? fun sd => s.role n sd == 5 && s.sideHealthy n sd && !(s.leaves (s.sidePath n sd)).any s.inReset) = none :=
    List.find?_eq_none.2 fun sd hsd => mt (s.mayRejoin_iff n sd).1 (h sd hsd)
  simp only [State.rejoinWrite, hnone]

/-- Side A, which every pair has in this package, comes first. -/
theorem State.rejoinWrite_sideA {s : State} {n : Nat} (h : s.MayRejoin n 0) : s.rejoinWrite n = (s.setRole n 0 6).pairStart n := by
  have hfirst : ∃ rest, s.localSides n = 0 :: rest := by
    unfold State.localSides
    split <;> exact ⟨_, rfl⟩
  obtain ⟨rest, hrest⟩ := hfirst
  have hfind : ((0 :: rest).find? fun sd => s.role n sd == 5 && s.sideHealthy n sd && !(s.leaves (s.sidePath n sd)).any s.inReset) = some 0 :=
    List.find?_cons_of_pos ((s.mayRejoin_iff n 0).2 h)
  simp only [State.rejoinWrite, hrest, hfind]

/-! ## The requests of a write of PAIR_n_CTL (R372) -/

/-- Which of the four requests a word holds: SWITCH, DRILL, REJOIN, ABORT. -/
def ctlRequests (v : Word) : List Nat := (List.range 4).map fun i => getBits v i 1

theorem getBits_one (w : Word) (lo : Nat) : getBits w lo 1 = (w.getLsbD lo).toNat := by
  rcases Nat.mod_two_eq_zero_or_one (w.toNat / 2 ^ lo) with h | h <;>
    simp [getBits, BitVec.getLsbD, Nat.testBit_eq_decide_div_mod_eq, h]

theorem ctlRequests_eq_iff {v : Word} {a b c d : Nat} :
    ctlRequests v = [a, b, c, d] ↔ getBits v 0 1 = a ∧ getBits v 1 1 = b ∧ getBits v 2 1 = c ∧ getBits v 3 1 = d := by
  simp [ctlRequests, List.range_succ]

section
variable (s : State) {n : Nat} {v : Word}

theorem State.pairCtlWrite_switch (h : ctlRequests v = [1, 0, 0, 0]) :
    s.pairCtlWrite n v = (s.setReg (R.PAIR_n_CTL n) (v &&& 0x70)).planWrite n false := by
  obtain ⟨h0, h1, h2, h3⟩ := ctlRequests_eq_iff.1 h
  simp [State.pairCtlWrite, h0, h1, h2, h3]

theorem State.pairCtlWrite_drill (h : ctlRequests v = [0, 1, 0, 0]) :
    s.pairCtlWrite n v = (s.setReg (R.PAIR_n_CTL n) (v &&& 0x70)).planWrite n true := by
  obtain ⟨h0, h1, h2, h3⟩ := ctlRequests_eq_iff.1 h
  simp [State.pairCtlWrite, h0, h1, h2, h3]

theorem State.pairCtlWrite_rejoin (h : ctlRequests v = [0, 0, 1, 0]) :
    s.pairCtlWrite n v = (s.setReg (R.PAIR_n_CTL n) (v &&& 0x70)).rejoinWrite n := by
  obtain ⟨h0, h1, h2, h3⟩ := ctlRequests_eq_iff.1 h
  simp [State.pairCtlWrite, h0, h1, h2, h3]

theorem State.pairCtlWrite_abort (h : ctlRequests v = [0, 0, 0, 1]) :
    s.pairCtlWrite n v = (s.setReg (R.PAIR_n_CTL n) (v &&& 0x70)).abortWrite n := by
  obtain ⟨h0, h1, h2, h3⟩ := ctlRequests_eq_iff.1 h
  simp [State.pairCtlWrite, h0, h1, h2, h3]

end

/-- The word of PAIR_n_CTL that a SWITCH or DRILL leaves: BACK and TL. -/
def planWord (tl : Fin 4) (back : Bool) : Word := BitVec.ofNat 32 (bit back * 16 + tl * 32)

theorem planWord_toNat (tl : Fin 4) (back : Bool) : (planWord tl back).toNat = bit back * 16 + tl * 32 := by
  revert tl back; decide

theorem planWord_tl (tl : Fin 4) (back : Bool) : getBits (planWord tl back) 5 2 = tl := by
  revert tl back; decide

theorem switchWord_requests (tl : Fin 4) (back : Bool) :
    ctlRequests (BitVec.ofNat 32 (1 + bit back * 16 + tl * 32)) = [1, 0, 0, 0] ∧
      BitVec.ofNat 32 (1 + bit back * 16 + tl * 32) &&& 0x70 = planWord tl back := by
  revert tl back; decide

theorem drillWord_requests (tl : Fin 4) (back : Bool) :
    ctlRequests (BitVec.ofNat 32 (2 + bit back * 16 + tl * 32)) = [0, 1, 0, 0] ∧
      BitVec.ofNat 32 (2 + bit back * 16 + tl * 32) &&& 0x70 = planWord tl back := by
  revert tl back; decide

/-- REJOIN and ABORT write BACK and TL back as they are. -/
theorem requestWord_requests (r : Word) {c : Word} (hc : c &&& 0x70 = 0) :
    ctlRequests (c ||| r &&& 0x70) = ctlRequests c ∧ (c ||| r &&& 0x70) &&& 0x70 = r &&& 0x70 := by
  refine ⟨List.map_congr_left fun i hi => ?_, ?_⟩
  · have hmask : (0x70 : Word).getLsbD i = false := by
      revert i; decide
    rw [getBits_one, getBits_one, BitVec.getLsbD_or, BitVec.getLsbD_and, hmask, Bool.and_false, Bool.or_false]
  · rw [BitVec.and_or_distrib_right, hc, BitVec.and_assoc, BitVec.and_self]
    exact BitVec.zero_or

theorem exec_pairSwitch (n : Fin 32) (tl : Fin 4) (back : Bool) (s : State) :
    exec (.pairSwitch n tl back) s = .next ((s.setReg (R.PAIR_n_CTL n) (planWord tl back)).planWrite n false) := by
  obtain ⟨hreq, hkept⟩ := switchWord_requests tl back
  exact congrArg Host.Outcome.next (hkept ▸ s.pairCtlWrite_switch hreq)

theorem exec_pairDrill (n : Fin 32) (tl : Fin 4) (back : Bool) (s : State) :
    exec (.pairDrill n tl back) s = .next ((s.setReg (R.PAIR_n_CTL n) (planWord tl back)).planWrite n true) := by
  obtain ⟨hreq, hkept⟩ := drillWord_requests tl back
  exact congrArg Host.Outcome.next (hkept ▸ s.pairCtlWrite_drill hreq)

theorem exec_pairRejoin (n : Fin 32) (s : State) :
    exec (.pairRejoin n) s = .next ((s.setReg (R.PAIR_n_CTL n) (s.reg (R.PAIR_n_CTL n) &&& 0x70)).rejoinWrite n) := by
  obtain ⟨hreq, hkept⟩ := requestWord_requests (s.reg (R.PAIR_n_CTL n)) (c := 4) (by decide)
  have hwrite := s.pairCtlWrite_rejoin (n := n) (hreq.trans (by decide))
  rw [hkept] at hwrite
  exact congrArg Host.Outcome.next hwrite

theorem exec_pairAbort (n : Fin 32) (s : State) :
    exec (.pairAbort n) s = .next ((s.setReg (R.PAIR_n_CTL n) (s.reg (R.PAIR_n_CTL n) &&& 0x70)).abortWrite n) := by
  obtain ⟨hreq, hkept⟩ := requestWord_requests (s.reg (R.PAIR_n_CTL n)) (c := 8) (by decide)
  have hwrite := s.pairCtlWrite_abort (n := n) (hreq.trans (by decide))
  rw [hkept] at hwrite
  exact congrArg Host.Outcome.next hwrite

/-- A SWITCH or DRILL after the write of PAIR_n_CTL, by the checks of the state before it. -/
theorem State.planWrite_setCtl (s : State) (n : Nat) (tl : Fin 4) (back drill : Bool) :
    let u := s.setReg (R.PAIR_n_CTL n) (planWord tl back)
    let x := s.planStamp n
    (s.stampCheck tl x ≠ 0 → u.planWrite n drill = u.pairRefuse n (s.stampCheck tl x)) ∧
    (s.stampCheck tl x = 0 → ¬(s.pairOn n = true ∧ s.CanSwitch n) → u.planWrite n drill = u.pairRefuse n 0x8006) ∧
    (s.stampCheck tl x = 0 → (s.pairOn n = true ∧ s.CanSwitch n) → ¬s.InPlace n tl x → u.planWrite n drill = u.pairRefuse n 0x8007) ∧
    (s.stampCheck tl x = 0 → (s.pairOn n = true ∧ s.CanSwitch n) → s.InPlace n tl x → u.planWrite n drill = u.plan n tl x drill) := by
  classical
  intro u x
  have htl : u.rd (F.PAIR_n_CTL_TL n) = tl := (congrArg (getBits · 5 2) (s.reg_setReg_same _ _)).trans (planWord_tl tl back)
  have hx : u.planStamp n = x := s.planStamp_setCtl n _
  have hchk : u.stampCheck tl x = s.stampCheck tl x := s.stampCheck_setCtl n _ tl x
  have hcan : (u.pairOn n = true ∧ u.CanSwitch n) ↔ (s.pairOn n = true ∧ s.CanSwitch n) :=
    and_congr (by rw [s.pairOn_setCtl n _ n]) (s.canSwitch_setCtl n _)
  have hplace : u.InPlace n tl x ↔ s.InPlace n tl x := s.inPlace_setCtl n tl x _
  have heq := u.planWrite_eq n drill
  rw [htl, hx, hchk] at heq
  rw [heq]
  refine ⟨fun h => if_pos h, fun h hno => ?_, fun h hyes hout => ?_, fun h hyes hin => ?_⟩
  · rw [if_neg (not_not_intro h), if_pos (mt hcan.1 hno)]
  · rw [if_neg (not_not_intro h), if_neg (not_not_intro (hcan.2 hyes)), if_pos (mt hplace.1 hout)]
  · rw [if_neg (not_not_intro h), if_neg (not_not_intro (hcan.2 hyes)), if_neg (not_not_intro (hplace.2 hin))]

/-! ## The stamp and the end of the window (R370, R371) -/

theorem exec_pairSwitchStamp_none {n : Fin 32} {s : State} (h : (s.pair n).plan = none) : exec (.pairSwitchStamp n) s = .next s := by
  show execPairSwitchStamp n s = .next s
  simp only [execPairSwitchStamp, h]

theorem exec_pairSwitchStamp_some {n : Fin 32} {s : State} {l x : Nat} {drill : Bool} (h : (s.pair n).plan = some (l, x, drill)) :
    exec (.pairSwitchStamp n) s = .next (if s.reachedOn l x then s.switchNow n drill else s) := by
  show execPairSwitchStamp n s = _
  simp only [execPairSwitchStamp, h]

theorem exec_drillWindowEnd (n : Fin 32) (s : State) :
    exec (.drillWindowEnd n) s = .next (s.when (s.on (F.PAIR_n_STATUS_DRILL n) && s.drillOver n) fun s => s.drillEnd n) := rfl

/-! ## The commands, with their frames -/

/-- A SWITCH or DRILL that ends in a refusal keeps BACK and TL, and shows the code. -/
theorem plan_refused {c : Instr} {n : Fin 32} {tl : Fin 4} {back drill : Bool} {s : State} {code : Nat}
    (hc : exec c s = .next ((s.setReg (R.PAIR_n_CTL n) (planWord tl back)).planWrite n drill)) (hcode : code < 2 ^ 16)
    (hw : (s.setReg (R.PAIR_n_CTL n) (planWord tl back)).planWrite n drill = (s.setReg (R.PAIR_n_CTL n) (planWord tl back)).pairRefuse n code) :
    Gives c s fun t => (t.reg (R.PAIR_n_CTL n)).toNat = bit back * 16 + tl * 32 ∧ t.rd (F.PAIR_n_STATUS_REASON n) = code ∧
      t.rd F.PAIR_STATUS_REASON = code ∧ Only [R.PAIR_n_CTL n, R.PAIR_n_STATUS n, R.PAIR_STATUS] s t := by
  obtain ⟨hctl, hpair, hblock, honly⟩ := s.pairRefuse_setCtl n (planWord tl back) hcode
  exact ⟨_, hc.trans (congrArg _ hw), (congrArg BitVec.toNat hctl).trans (planWord_toNat tl back), hpair, hblock, honly⟩

theorem pairRejoin_refused {n : Fin 32} {s : State} (h : ∀ sd ∈ s.localSides n, ¬s.MayRejoin n sd) :
    Gives (.pairRejoin n) s fun t => t.rd (F.PAIR_n_STATUS_REASON n) = 0x8009 ∧
      Only [R.PAIR_n_CTL n, R.PAIR_n_STATUS n, R.PAIR_STATUS] s t := by
  obtain ⟨-, hpair, -, honly⟩ := s.pairRefuse_setCtl n (s.reg (R.PAIR_n_CTL n) &&& 0x70) (by decide : 0x8009 < 2 ^ 16)
  have hnone : ∀ sd ∈ (s.setReg (R.PAIR_n_CTL n) (s.reg (R.PAIR_n_CTL n) &&& 0x70)).localSides n,
      ¬(s.setReg (R.PAIR_n_CTL n) (s.reg (R.PAIR_n_CTL n) &&& 0x70)).MayRejoin n sd := fun sd hsd =>
    mt (s.mayRejoin_setCtl n sd _).1 (h sd (by rwa [State.localSides_setCtl] at hsd))
  exact ⟨_, (exec_pairRejoin n s).trans (congrArg _ (State.rejoinWrite_none hnone)), hpair, honly⟩

theorem pairRejoin_pending {n : Fin 32} {s : State} (h : s.MayRejoin n 0) :
    exec (.pairRejoin n) s =
      .next (((s.setReg (R.PAIR_n_CTL n) (s.reg (R.PAIR_n_CTL n) &&& 0x70)).setRole n 0 6).pairStart n) :=
  (exec_pairRejoin n s).trans (congrArg _ (State.rejoinWrite_sideA ((s.mayRejoin_setCtl n 0 _).2 h)))

theorem pairAbort_refused {n : Fin 32} {s : State} (h : s.on (F.PAIR_n_STATUS_DRILL n) = false) :
    Gives (.pairAbort n) s fun t => t.rd (F.PAIR_n_STATUS_REASON n) = 0x800A ∧
      Only [R.PAIR_n_CTL n, R.PAIR_n_STATUS n, R.PAIR_STATUS] s t := by
  obtain ⟨-, hpair, -, honly⟩ := s.pairRefuse_setCtl n (s.reg (R.PAIR_n_CTL n) &&& 0x70) (by decide : 0x800A < 2 ^ 16)
  exact ⟨_, (exec_pairAbort n s).trans (congrArg _ (if_neg (by simp [h]))), hpair, honly⟩

theorem pairAbort_drill {n : Fin 32} {s : State} (h : s.on (F.PAIR_n_STATUS_DRILL n) = true) :
    exec (.pairAbort n) s = .next ((s.setReg (R.PAIR_n_CTL n) (s.reg (R.PAIR_n_CTL n) &&& 0x70)).abortDrill n) :=
  (exec_pairAbort n s).trans (congrArg _ (if_pos (by simp [h])))

theorem drillWindowEnd_lasts {n : Fin 32} {s : State} (h : s.on (F.PAIR_n_STATUS_DRILL n) = false ∨ s.drillOver n = false) :
    exec (.drillWindowEnd n) s = .next s := by
  have hwait : (s.on (F.PAIR_n_STATUS_DRILL n) && s.drillOver n) = false := by
    rcases h with h | h <;> simp [h]
  rw [exec_drillWindowEnd, hwait, State.when_false]

/-- Settles O48: each clause is one outcome of one request, after the write of PAIR_n_CTL that its checks do not see. -/
theorem switchesAndDrills : Obligations.SwitchesAndDrills := by
  refine ⟨fun n tl back s => ?plans, fun n s => ?requests, fun n s => ?stamps⟩
  case plans =>
    intro x strs ok inPlace ctl refused plans
    have hplans : ∀ (c : Instr) (drill : Bool), exec c s = .next ((s.setReg (R.PAIR_n_CTL n) (planWord tl back)).planWrite n drill) →
        plans c drill := by
      intro c drill hc
      obtain ⟨hstamp, hcannot, helsewhere, hplan⟩ := s.planWrite_setCtl n tl back drill
      refine ⟨fun h => plan_refused hc (s.stampCheck_lt tl x) (hstamp h), fun h hno => plan_refused hc (by decide) (hcannot h hno),
        fun h hon hok hout => plan_refused hc (by decide) (helsewhere h ⟨hon, hok⟩ hout), fun h hon hok hin htwin hrole => ?standby,
        fun h hon hok hin hno => ?waits⟩
      case standby =>
        have hasks := s.plan_setCtl_standby n (planWord tl back) tl x drill ⟨htwin, hrole⟩
        exact hc.trans (congrArg _ ((hplan h ⟨hon, hok⟩ hin).trans hasks))
      case waits =>
        obtain ⟨hctl, hwaits⟩ := s.plan_setCtl_waits n (planWord tl back) tl x drill hno
        exact ⟨_, hc.trans (congrArg _ (hplan h ⟨hon, hok⟩ hin)), (congrArg BitVec.toNat hctl).trans (planWord_toNat tl back), hwaits⟩
    exact ⟨hplans _ _ (exec_pairSwitch n tl back s), hplans _ _ (exec_pairDrill n tl back s)⟩
  case requests => exact ⟨pairRejoin_refused, pairRejoin_pending, pairAbort_refused, pairAbort_drill⟩
  case stamps =>
    refine ⟨exec_pairSwitchStamp_none, fun l x drill hp => ⟨fun hr => ?reached, fun hr => ?before⟩, fun hd ho => ?ended, drillWindowEnd_lasts⟩
    case reached => rw [exec_pairSwitchStamp_some hp, if_pos hr]
    case before => rw [exec_pairSwitchStamp_some hp, if_neg (by simp [hr])]
    case ended => rw [exec_drillWindowEnd, hd, ho, Bool.and_true, State.when_true]

end Sys2Proof.Machine
end

section
/-!
PROOFS. The PTP clock (R74 to R76, R79, R82, R491): one cycle of the local clock, the writes of PTP_CLK_ADJ and PTP_CLK_CTL, the read
of PTP_CLK_NS and the pulse of PPS_OUT.
-/
namespace Sys2Proof.Machine

/-! ## Frames and words -/

theorem Writes.only {as : List Nat} {s t : State} (h : Writes as s t) : Only as s t := ⟨fun a ha _ => h.1 a ha, by rw [OnlyRegs, h.2]⟩

theorem signed_getBits_word (w : Word) : signed 32 (getBits w 0 32) = w.toInt := by
  have hw : getBits w 0 32 = w.toNat := by
    rw [getBits, Nat.pow_zero, Nat.div_one, Nat.mod_eq_of_lt w.isLt]
  rw [hw, signed, BitVec.toInt_eq_toNat_cond]
  have hw := w.isLt
  split <;> split <;> omega

/-! ## One cycle (R37, R74, R75) -/

/-- R74: PTP_CLK_ADJ has 32 bits, so INCR needs no more than its 40. -/
theorem State.incr_eq (s : State) : (s.incr : Int) = 0x280000000 + (s.reg R.PTP_CLK_ADJ).toInt ∧ s.incr < 2 ^ 40 := by
  have hadj : s.rdS F.PTP_CLK_ADJ_ADJ = (s.reg R.PTP_CLK_ADJ).toInt := signed_getBits_word _
  have hlo := BitVec.le_toInt (s.reg R.PTP_CLK_ADJ)
  have hhi := BitVec.toInt_lt (x := s.reg R.PTP_CLK_ADJ)
  simp only [State.incr, hadj]
  omega

/-- A cycle of a timeline moves the timelines' records alone. -/
theorem State.tlCycle_frame (s : State) (n : Nat) : s.tlCycle n = { s with lt := (s.tlCycle n).lt } := by
  unfold State.tlCycle
  split <;> rfl

/-- The cycle counted and the four timelines moved, before the PTP clock moves. -/
def State.timelinesCycle (s : State) : State :=
  (((({ s with cycle := s.cycle + 1 } : State).tlCycle 0).tlCycle 1).tlCycle 2).tlCycle 3

theorem State.idleCycle_eq (s : State) : s.idleCycle = s.timelinesCycle.clkCycle.servoCycle := rfl

theorem State.timelinesCycle_frame (s : State) : s.timelinesCycle = { s with cycle := s.cycle + 1, lt := s.timelinesCycle.lt } := by
  unfold State.timelinesCycle
  rw [State.tlCycle_frame _ 3, State.tlCycle_frame _ 2, State.tlCycle_frame _ 1, State.tlCycle_frame _ 0]

theorem State.ppsRise_on {s : State} (hset : s.clkSet = true) (hen : s.on F.PTP_PPS_OUT_EN = true) :
    s.ppsRise = { s with ptp := { s.ptp with ppsUntil := s.cycle + s.rd F.PTP_PPS_OUT_WIDTH * 400 } } :=
  if_pos (Bool.and_eq_true_iff.2 ⟨hset, hen⟩)

theorem State.ppsRise_frame (s : State) : s.ppsRise = { s with ptp := { s.ptp with ppsUntil := s.ppsRise.ptp.ppsUntil } } := by
  unfold State.ppsRise
  split <;> rfl

theorem State.clkCycle_within {s : State} (h : s.ptp.clk + s.incr < 10 ^ 9 * 2 ^ 32) :
    s.clkCycle = { s with ptp := { s.ptp with clk := s.ptp.clk + s.incr } } := if_pos h

/-- The clock at the first cycle of the next second. -/
def State.secondCarried (s : State) : State :=
  { s with ptp := { s.ptp with clk := s.ptp.clk + s.incr - 10 ^ 9 * 2 ^ 32, sec := (s.ptp.sec + 1) % 2 ^ 48 } }

theorem State.clkCycle_carries {s : State} (h : 10 ^ 9 * 2 ^ 32 ≤ s.ptp.clk + s.incr) : s.clkCycle = s.secondCarried.ppsRise :=
  if_neg (Nat.not_lt.2 h)

theorem State.clkCycle_frame (s : State) : s.clkCycle =
    { s with ptp := { s.ptp with sec := s.clkCycle.ptp.sec, clk := s.clkCycle.ptp.clk, ppsUntil := s.clkCycle.ptp.ppsUntil } } := by
  rcases Nat.lt_or_ge (s.ptp.clk + s.incr) (10 ^ 9 * 2 ^ 32) with h | h
  · rw [State.clkCycle_within h]
  · rw [State.clkCycle_carries h, State.ppsRise_frame]
    rfl

/-- R74: the time, in 2^-32 ns modulo 2^48 seconds, grows by INCR. -/
theorem State.clkCycle_adds {s : State} (hclk : s.ptp.clk < 10 ^ 9 * 2 ^ 32) (hsec : s.ptp.sec < 2 ^ 48) :
    s.clkCycle.ptp.clk < 10 ^ 9 * 2 ^ 32 ∧ s.clkCycle.ptp.sec < 2 ^ 48 ∧
      (s.clkCycle.ptp.sec * (10 ^ 9 * 2 ^ 32) + s.clkCycle.ptp.clk) % (2 ^ 48 * (10 ^ 9 * 2 ^ 32)) =
        (s.ptp.sec * (10 ^ 9 * 2 ^ 32) + s.ptp.clk + s.incr) % (2 ^ 48 * (10 ^ 9 * 2 ^ 32)) := by
  have hincr := s.incr_eq.2
  rcases Nat.lt_or_ge (s.ptp.clk + s.incr) (10 ^ 9 * 2 ^ 32) with h | h
  · rw [State.clkCycle_within h]
    exact ⟨h, hsec, by rw [Nat.add_assoc]⟩
  · rw [State.clkCycle_carries h, State.ppsRise_frame]
    simp only [State.secondCarried]
    omega

theorem State.clkCycle_pps_within {s : State} (h : s.ptp.clk + s.incr < 10 ^ 9 * 2 ^ 32) : s.clkCycle.ptp.ppsUntil = s.ptp.ppsUntil := by
  rw [State.clkCycle_within h]

/-- R82: a carry into the seconds is the moment at which PPS_OUT rises. -/
theorem State.clkCycle_pps_carries {s : State} (h : 10 ^ 9 * 2 ^ 32 ≤ s.ptp.clk + s.incr) (hset : s.clkSet = true)
    (hen : s.on F.PTP_PPS_OUT_EN = true) : s.clkCycle.ptp.ppsUntil = s.cycle + s.rd F.PTP_PPS_OUT_WIDTH * 400 := by
  rw [State.clkCycle_carries h, State.ppsRise_on (s := s.secondCarried) hset hen]
  rfl

/-- R75: what the servo's first cycle moves is its state in PTP_CLK_STATUS. -/
theorem writes_servoCycle (s : State) : Writes [R.PTP_CLK_STATUS] s s.servoCycle := by
  unfold State.servoCycle
  split
  · exact writes_wr s F.PTP_CLK_STATUS_SERVO_STATE 2
  · exact ⟨fun _ _ => rfl, rfl⟩

theorem State.idleCycle_ptp (s : State) : s.idleCycle.ptp = s.timelinesCycle.clkCycle.ptp := by
  rw [State.idleCycle_eq, (writes_servoCycle _).2]

theorem State.idleCycle_frame (s : State) : s.idleCycle = { s with
    cycle := s.cycle + 1
    regs := s.idleCycle.regs
    lt := s.idleCycle.lt
    ptp := { s.ptp with sec := s.idleCycle.ptp.sec, clk := s.idleCycle.ptp.clk, ppsUntil := s.idleCycle.ptp.ppsUntil } } := by
  rw [State.idleCycle_eq, (writes_servoCycle _).2, State.clkCycle_frame, State.timelinesCycle_frame]

theorem State.idleCycle_reg (s : State) {a : Nat} (h : a ≠ R.PTP_CLK_STATUS) : s.idleCycle.reg a = s.reg a := by
  rw [State.idleCycle_eq, (writes_servoCycle _).1 a (mt List.mem_singleton.1 h), State.clkCycle_frame, State.timelinesCycle_frame]
  rfl

theorem State.idleCycle_adds {s : State} (hclk : s.ptp.clk < 10 ^ 9 * 2 ^ 32) (hsec : s.ptp.sec < 2 ^ 48) :
    s.idleCycle.ptp.clk < 10 ^ 9 * 2 ^ 32 ∧ s.idleCycle.ptp.sec < 2 ^ 48 ∧
      (s.idleCycle.ptp.sec * (10 ^ 9 * 2 ^ 32) + s.idleCycle.ptp.clk) % (2 ^ 48 * (10 ^ 9 * 2 ^ 32)) =
        (s.ptp.sec * (10 ^ 9 * 2 ^ 32) + s.ptp.clk + s.incr) % (2 ^ 48 * (10 ^ 9 * 2 ^ 32)) := by
  rw [State.idleCycle_ptp, State.timelinesCycle_frame]
  exact State.clkCycle_adds hclk hsec

theorem State.idleCycle_pps_within {s : State} (h : s.ptp.clk + s.incr < 10 ^ 9 * 2 ^ 32) :
    s.idleCycle.ptp.ppsUntil = s.ptp.ppsUntil := by
  rw [State.idleCycle_ptp, State.timelinesCycle_frame]
  exact State.clkCycle_pps_within h

theorem State.idleCycle_pps_carries {s : State} (h : 10 ^ 9 * 2 ^ 32 ≤ s.ptp.clk + s.incr) (hset : s.clkSet = true)
    (hen : s.on F.PTP_PPS_OUT_EN = true) : s.idleCycle.ptp.ppsUntil = s.cycle + 1 + s.rd F.PTP_PPS_OUT_WIDTH * 400 := by
  rw [State.idleCycle_ptp, State.timelinesCycle_frame]
  exact State.clkCycle_pps_carries h hset hen

/-- Settles O2: the timelines' part of the cycle leaves what the clock reads, and the servo's part leaves the clock. -/
theorem clockCycleAddsIncr : Obligations.ClockCycleAddsIncr := by
  intro s hclk hsec
  obtain ⟨hclk', hsec', hadds⟩ := State.idleCycle_adds hclk hsec
  obtain ⟨hincr, hwidth⟩ := s.incr_eq
  exact ⟨hclk', hsec', hadds, hincr, hwidth, State.idleCycle_pps_within, State.idleCycle_pps_carries, fun a ha => s.idleCycle_reg ha,
    s.idleCycle_frame⟩

/-! ## Refusals of the clock's registers (R75, R76) -/

/-- A refusal at the clock shows its code in PTP_CLK_STATUS, and leaves the clock. -/
theorem State.clkRefuse_reads (s : State) (a : Nat) {code : Nat} (hc : code < 2 ^ 16) :
    (s.refuse pPtp [R.PTP_CLK_STATUS] code a).rd F.PTP_CLK_STATUS_REASON = code ∧ (s.refuse pPtp [R.PTP_CLK_STATUS] code a).ptp = s.ptp ∧
      Only [R.PTP_CLK_STATUS] s (s.refuse pPtp [R.PTP_CLK_STATUS] code a) := by
  have honly := only_refuse s pPtp [R.PTP_CLK_STATUS] code a
  have hread := s.rd_refuse_mem pPtp (st := [R.PTP_CLK_STATUS]) code a (List.mem_singleton_self _) (recReg_of_lt (by decide))
  exact ⟨hread.trans (Nat.mod_eq_of_lt hc), by rw [honly.2], honly⟩

/-! ## PTP_CLK_ADJ (R74, R75) -/

theorem exec_ptpAdjWrite (v : Word) (s : State) : exec (.ptpAdjWrite v) s = .next (s.adjWrite v) := rfl

theorem State.adjWrite_servo {s : State} (v : Word) (h : s.rd F.PTP_CLK_CTL_SERVO = 1) :
    s.adjWrite v = s.refuse pPtp [R.PTP_CLK_STATUS] 0x6F08 R.PTP_CLK_ADJ := if_pos (beq_iff_eq.2 h)

theorem State.adjWrite_free {s : State} (v : Word) (h : s.rd F.PTP_CLK_CTL_SERVO = 0) : s.adjWrite v =
    if v.toInt.natAbs > 5368709 then s.refuse pPtp [R.PTP_CLK_STATUS] 0x6F02 R.PTP_CLK_ADJ else (s.setReg R.PTP_CLK_ADJ v).showIncr :=
  if_neg (by simp [State.on, h])

theorem only_showIncr (s : State) : Only [R.PTP_CLK_INCR_LO, R.PTP_CLK_INCR_HI] s s.showIncr :=
  ((only_wr s F.PTP_CLK_INCR_LO_FRAC _).mono (by decide)).trans ((only_wr _ F.PTP_CLK_INCR_HI_INT _).mono (by decide))

/-- The two INCR registers show INCR whole, for it fits their 40 bits. -/
theorem State.showIncr_reads (s : State) :
    s.showIncr.rd F.PTP_CLK_INCR_LO_FRAC + s.showIncr.rd F.PTP_CLK_INCR_HI_INT * 2 ^ 32 = s.incr := by
  have hlo : s.showIncr.rd F.PTP_CLK_INCR_LO_FRAC = s.incr % 2 ^ 32 :=
    (State.rd_wr_apart (f := F.PTP_CLK_INCR_HI_INT) _ _ (by decide : 0 + 8 ≤ 32) (.inl (by decide))).trans
      (s.rd_wr_same F.PTP_CLK_INCR_LO_FRAC _ (by decide : 0 + 32 ≤ 32))
  have hhi : s.showIncr.rd F.PTP_CLK_INCR_HI_INT = s.incr / 2 ^ 32 % 2 ^ 8 :=
    State.rd_wr_same _ F.PTP_CLK_INCR_HI_INT _ (by decide : 0 + 8 ≤ 32)
  have hincr := s.incr_eq.2
  rw [hlo, hhi]
  omega

/-- Settles O18: SERVO is looked at first, then the range of the value. -/
theorem adjWriteRules : Obligations.AdjWriteRules := by
  refine fun v s => ⟨fun hoff hin => ?taken, fun hoff hout => ?outside, fun hon => ?servo⟩
  case taken =>
    have hadj : (s.setReg R.PTP_CLK_ADJ v).reg R.PTP_CLK_ADJ = v := s.reg_setReg_same _ v
    have honly := only_showIncr (s.setReg R.PTP_CLK_ADJ v)
    refine ⟨_, (exec_ptpAdjWrite v s).trans (congrArg _ ((State.adjWrite_free v hoff).trans (if_neg (Nat.not_lt.2 hin)))), ?_, ?_, ?_⟩
    · exact (honly.1 _ (by decide) (recReg_of_lt (by decide))).trans hadj
    · rw [State.showIncr_reads, (State.incr_eq _).1, hadj]
    · exact ((only_setReg s R.PTP_CLK_ADJ v).mono (by decide)).trans (honly.mono (by decide))
  case outside =>
    obtain ⟨hreason, -, honly⟩ := s.clkRefuse_reads R.PTP_CLK_ADJ (by decide : 0x6F02 < 2 ^ 16)
    exact ⟨_, (exec_ptpAdjWrite v s).trans (congrArg _ ((State.adjWrite_free v hoff).trans (if_pos hout))), hreason, honly⟩
  case servo =>
    obtain ⟨hreason, -, honly⟩ := s.clkRefuse_reads R.PTP_CLK_ADJ (by decide : 0x6F08 < 2 ^ 16)
    exact ⟨_, (exec_ptpAdjWrite v s).trans (congrArg _ (State.adjWrite_servo v hon)), hreason, honly⟩

/-! ## PTP_CLK_NS and PPS_OUT (R79, R82, R491) -/

theorem exec_ptpClkNsRead (q : Req) (s : State) : exec (.ptpClkNsRead q) s = .next (s.clkNsRead q) := rfl

theorem State.ptpLatched_clkNsRead_same (s : State) (q : Req) :
    (s.clkNsRead q).ptpLatched q = (s.ptp.sec % 2 ^ 32, s.ptp.sec / 2 ^ 32, s.tstamp) := mapGet_set_same _ s.ptp.latch _ _

theorem State.ptpLatched_clkNsRead_ne (s : State) {p q : Req} (h : p ≠ q) : (s.clkNsRead q).ptpLatched p = s.ptpLatched p :=
  mapGet_set_ne _ s.ptp.latch _ (mt (@reqKey_injective p q) h)

theorem exec_ppsSecond (s : State) : exec .ppsSecond s = .next (s.when (decide (s.ptp.clk < s.incr)) State.ppsRise) := rfl

theorem exec_ppsOutWrite (v : Word) (s : State) : exec (.ppsOutWrite v) s = .next (s.ppsWrite v) := rfl

theorem State.ppsWrite_inPulse {s : State} (v : Word) (h : s.cycle < s.ptp.ppsUntil) : s.ppsWrite v =
    { s.setReg R.PTP_PPS_OUT (v &&& 0x7FF) with ptp := { s.ptp with ppsUntil := s.cycle + 1 } } := if_pos h

theorem State.ppsWrite_idle {s : State} (v : Word) (h : s.ptp.ppsUntil ≤ s.cycle) :
    s.ppsWrite v = s.setReg R.PTP_PPS_OUT (v &&& 0x7FF) := if_neg (Nat.not_lt.2 h)

/-- The write stores its word, and moves nothing else but the pulse's end. -/
theorem State.ppsWrite_stores (s : State) (v : Word) : (s.ppsWrite v).reg R.PTP_PPS_OUT = v &&& 0x7FF ∧
    Writes [R.PTP_PPS_OUT] { s with ptp := (s.ppsWrite v).ptp } (s.ppsWrite v) := by
  have hword := s.reg_setReg_same R.PTP_PPS_OUT (v &&& 0x7FF)
  have hrest : ∀ a, a ∉ [R.PTP_PPS_OUT] → (s.setReg R.PTP_PPS_OUT (v &&& 0x7FF)).reg a = s.reg a := fun a ha =>
    s.reg_setReg_ne _ (List.ne_of_not_mem_cons ha)
  rcases Nat.lt_or_ge s.cycle s.ptp.ppsUntil with h | h
  · rw [State.ppsWrite_inPulse v h]
    exact ⟨hword, hrest, rfl⟩
  · rw [State.ppsWrite_idle v h]
    exact ⟨hword, hrest, rfl⟩

/-- Settles O19: the latch has one place for each requester, and a pulse is its end in cycles. -/
theorem clockReadAndPps : Obligations.ClockReadAndPps := by
  refine ⟨fun q s => ?read, fun s hfirst hset hen => ?second, fun v s => ?write⟩
  case read =>
    exact ⟨_, exec_ptpClkNsRead q s, rfl, s.ptpLatched_clkNsRead_same q, fun p hp => s.ptpLatched_clkNsRead_ne hp, rfl⟩
  case second => rw [exec_ppsSecond, decide_eq_true hfirst, State.when_true, State.ppsRise_on hset hen]
  case write =>
    obtain ⟨hword, hframe⟩ := s.ppsWrite_stores v
    refine ⟨_, exec_ppsOutWrite v s, hword, fun h => ?_, fun h => ?_, hframe.only⟩
    · rw [State.ppsWrite_inPulse v h]
    · rw [State.ppsWrite_idle v h, State.setReg_ptp]

/-! ## PTP_CLK_CTL (R75, R76) -/

def State.withServoI (s : State) (i : Int) : State := { s with ptp := { s.ptp with servoI := i } }

/-- R75: the servo's update moves its state in PTP_CLK_STATUS, and its integrator. -/
theorem State.servoUpdate_eq (s : State) : ∃ (i : Int) (st : Nat), s.servoUpdate = (s.withServoI i).wr F.PTP_CLK_STATUS_SERVO_STATE st := by
  unfold State.servoUpdate
  extract_lets st src u
  have hu : u = s.withServoI u.ptp.servoI := by
    simp only [u]
    split <;> rfl
  exact ⟨u.ptp.servoI, st, congrArg (State.wr · F.PTP_CLK_STATUS_SERVO_STATE st) hu⟩

theorem State.reg_servoUpdate (s : State) {a : Nat} (h : a ≠ R.PTP_CLK_STATUS) : s.servoUpdate.reg a = s.reg a := by
  obtain ⟨i, st, hup⟩ := s.servoUpdate_eq
  rw [hup]
  exact State.reg_wr_ne _ F.PTP_CLK_STATUS_SERVO_STATE st h

theorem State.rd_servoUpdate (s : State) {f : Fld} (h : f.reg ≠ R.PTP_CLK_STATUS) : s.servoUpdate.rd f = s.rd f :=
  congrArg (getBits · f.lo f.width) (s.reg_servoUpdate h)

/-- The fields of a write stored, and the servo brought up to date. -/
def State.ctlStored (s : State) (v : Word) : State := (s.setReg R.PTP_CLK_CTL (v &&& 7)).servoUpdate

/-- The step that SET_REQ asks for. -/
def State.setTime (s : State) : State :=
  s.stepClock ((s.rd64 F.PTP_CLK_SET_SEC_LO_SEC_LO F.PTP_CLK_SET_SEC_HI_SEC_HI * 10 ^ 9 + s.rd F.PTP_CLK_SET_NS_NS) * 2 ^ 32)

theorem State.rd_ctlStored (s : State) (v : Word) {f : Fld} (hctl : f.reg ≠ R.PTP_CLK_CTL) (hst : f.reg ≠ R.PTP_CLK_STATUS) :
    (s.ctlStored v).rd f = s.rd f := (State.rd_servoUpdate _ hst).trans (s.rd_setReg_ne _ hctl)

/-- The time to set stands in registers that the write leaves. -/
theorem State.setTime_ctlStored (s : State) (v : Word) : (s.ctlStored v).setTime = (s.ctlStored v).stepClock
    ((s.rd64 F.PTP_CLK_SET_SEC_LO_SEC_LO F.PTP_CLK_SET_SEC_HI_SEC_HI * 10 ^ 9 + s.rd F.PTP_CLK_SET_NS_NS) * 2 ^ 32) := by
  rw [State.setTime, State.rd64, s.rd_ctlStored v (by decide) (by decide), s.rd_ctlStored v (by decide) (by decide),
    s.rd_ctlStored v (by decide) (by decide), ← State.rd64]

/-- R75: SRC stays, or the clock is not set, or the slave chosen is near. -/
def State.SrcOk (s : State) (k : Nat) : Prop := s.clkSet = false ∨ k = s.ptpSrc ∨ s.srcNear k = true

section
variable {s : State} {v : Word}

theorem State.ptpCtlCheck_blocked (hre : getBits v 4 1 = 1) (h : s.rearmBlocked = true) : s.ptpCtlCheck v = 0x6F01 := by
  simp [State.ptpCtlCheck, hre, h]

theorem State.ptpCtlCheck_again (hre : getBits v 4 1 = 0) (hreq : getBits v 3 1 = 1) (h : s.clkSet = true) :
    s.ptpCtlCheck v = 0x6F01 := by
  simp [State.ptpCtlCheck, hre, hreq, h]

theorem State.ptpCtlCheck_far (hre : getBits v 4 1 = 0) (hreq : getBits v 3 1 = 0) (hset : s.clkSet = true)
    (hsrc : getBits v 1 1 ≠ s.ptpSrc) (hfar : s.srcNear (getBits v 1 1) = false) : s.ptpCtlCheck v = 0x6F03 := by
  simp [State.ptpCtlCheck, hre, hreq, hset, hsrc, hfar]

theorem State.ptpCtlCheck_passes (hre : getBits v 4 1 = 1 → s.rearmBlocked = false)
    (hreq : getBits v 3 1 = 1 → s.clkSet = true → getBits v 4 1 = 1) (hsrc : s.SrcOk (getBits v 1 1)) : s.ptpCtlCheck v = 0 := by
  have hblocked : (getBits v 4 1 == 1 && s.rearmBlocked) = false := by simpa using hre
  have hagain : (getBits v 3 1 == 1 && s.clkSet && !(getBits v 4 1 == 1)) = false := by simpa using hreq
  have hfar : (s.clkSet && getBits v 1 1 != s.ptpSrc && !s.srcNear (getBits v 1 1)) = false := by
    rcases hsrc with h | h | h <;> simp [h]
  simp only [State.ptpCtlCheck, hblocked, hagain, hfar, Bool.false_eq_true, if_false]

theorem State.ptpCtlWrite_refused {code : Nat} (h : s.ptpCtlCheck v = code) (hc : code ≠ 0) :
    s.ptpCtlWrite v = s.refuse pPtp [R.PTP_CLK_STATUS] code R.PTP_CLK_CTL := by
  subst h
  exact if_pos hc

/-- R76: REARM acts first, then the fields are stored, then SET_REQ steps the clock. -/
theorem State.ptpCtlWrite_taken (h : s.ptpCtlCheck v = 0) : s.ptpCtlWrite v =
    if getBits v 3 1 = 1 then ((if getBits v 4 1 = 1 then s.rearm else s).ctlStored v).setTime
    else (if getBits v 4 1 = 1 then s.rearm else s).ctlStored v := if_neg fun hne => hne h

end

theorem exec_ptpSetReq (v : Word) (s : State) : exec (.ptpSetReq v) s = .next (s.ptpCtlWrite (v ||| 8)) := rfl

theorem exec_ptpRearm (v : Word) (s : State) : exec (.ptpRearm v) s = .next (s.ptpCtlWrite (v ||| 16)) := rfl

theorem exec_ptpServoSelect (v : Word) (s : State) : exec (.ptpServoSelect v) s = .next (s.ptpCtlWrite (v &&& 7)) := rfl

theorem setReqWord_bits (v : Word) : getBits (v ||| 8) 4 1 = getBits v 4 1 ∧ getBits (v ||| 8) 3 1 = 1 ∧
    getBits (v ||| 8) 1 1 = getBits v 1 1 ∧ (v ||| 8) &&& 7 = v &&& 7 := by
  refine ⟨?_, ?_, ?_, ?low⟩
  case low => rw [BitVec.and_comm, BitVec.and_or_distrib_left, BitVec.and_comm 7 v]; exact BitVec.or_zero
  all_goals simp [getBits_one]

theorem rearmWord_bits (v : Word) : getBits (v ||| 16) 4 1 = 1 ∧ getBits (v ||| 16) 3 1 = getBits v 3 1 ∧
    getBits (v ||| 16) 1 1 = getBits v 1 1 ∧ (v ||| 16) &&& 7 = v &&& 7 := by
  refine ⟨?_, ?_, ?_, ?low⟩
  case low => rw [BitVec.and_comm, BitVec.and_or_distrib_left, BitVec.and_comm 7 v]; exact BitVec.or_zero
  all_goals simp [getBits_one]

theorem selectWord_bits (v : Word) : getBits (v &&& 7) 4 1 = 0 ∧ getBits (v &&& 7) 3 1 = 0 ∧
    getBits (v &&& 7) 1 1 = getBits v 1 1 ∧ (v &&& 7) &&& 7 = v &&& 7 := by
  refine ⟨?_, ?_, ?_, ?low⟩
  case low => rw [BitVec.and_assoc, BitVec.and_self]
  all_goals simp [getBits_one]

/-- A write with these low bits stores the same fields. -/
theorem State.ctlStored_congr (s : State) {v w : Word} (h : v &&& 7 = w &&& 7) : s.ctlStored v = s.ctlStored w := by
  rw [State.ctlStored, h, State.ctlStored]

theorem ptpCtl_refused {c : Instr} {s : State} {v : Word} {code : Nat} (hc : exec c s = .next (s.ptpCtlWrite v))
    (hchk : s.ptpCtlCheck v = code) (hpos : 0 < code) (hlt : code < 2 ^ 16) :
    Gives c s fun t => t.rd F.PTP_CLK_STATUS_REASON = code ∧ t.ptp = s.ptp ∧ Only [R.PTP_CLK_STATUS] s t :=
  ⟨_, hc.trans (congrArg _ (State.ptpCtlWrite_refused hchk (Nat.ne_of_gt hpos))), s.clkRefuse_reads R.PTP_CLK_CTL hlt⟩

/-- Settles O17: each clause is one outcome of the check, and where it passes one choice of REARM and SET_REQ. -/
theorem ptpClockControl : Obligations.PtpClockControl := by
  refine ⟨fun v s hre hset => ?step, fun v s hre hset => ?again, fun v s hreq hfree hsrc => ?rearm, fun v s hre hfree hsrc => ?both,
    fun v s hblocked => ?blocked, fun v s hsrc => ?select, fun v s hset hsrc hfar => ?far⟩
  case step =>
    obtain ⟨b4, b3, -, low⟩ := setReqWord_bits v
    have hpass : s.ptpCtlCheck (v ||| 8) = 0 := State.ptpCtlCheck_passes (fun h => by omega) (fun _ h => by simp [hset] at h) (.inl hset)
    rw [exec_ptpSetReq, State.ptpCtlWrite_taken hpass, b3, b4, hre, if_pos rfl, if_neg (by decide), State.ctlStored_congr s low,
      State.setTime_ctlStored]
    rfl
  case again =>
    obtain ⟨b4, b3, -, -⟩ := setReqWord_bits v
    exact ptpCtl_refused (exec_ptpSetReq v s) (State.ptpCtlCheck_again (b4.trans hre) b3 hset) (by decide) (by decide)
  case rearm =>
    obtain ⟨b4, b3, b1, low⟩ := rearmWord_bits v
    have hpass : s.ptpCtlCheck (v ||| 16) = 0 := State.ptpCtlCheck_passes (fun _ => hfree) (fun _ _ => b4) (by rwa [b1])
    rw [exec_ptpRearm, State.ptpCtlWrite_taken hpass, b3, b4, hreq, if_neg (by decide), if_pos rfl, State.ctlStored_congr _ low]
    rfl
  case both =>
    obtain ⟨b4, b3, b1, low⟩ := setReqWord_bits v
    have hpass : s.ptpCtlCheck (v ||| 8) = 0 := State.ptpCtlCheck_passes (fun _ => hfree) (fun _ _ => b4.trans hre) (by rwa [b1])
    rw [exec_ptpSetReq, State.ptpCtlWrite_taken hpass, b3, b4, hre, if_pos rfl, if_pos rfl, State.ctlStored_congr _ low]
    rfl
  case blocked => exact ptpCtl_refused (exec_ptpRearm v s) (State.ptpCtlCheck_blocked (rearmWord_bits v).1 hblocked) (by decide) (by decide)
  case select =>
    obtain ⟨b4, b3, b1, low⟩ := selectWord_bits v
    have hpass : s.ptpCtlCheck (v &&& 7) = 0 := State.ptpCtlCheck_passes (fun h => by omega) (fun h => by omega) (by rwa [b1])
    rw [exec_ptpServoSelect, State.ptpCtlWrite_taken hpass, b3, b4, if_neg (by decide), if_neg (by decide), State.ctlStored_congr s low]
    rfl
  case far =>
    obtain ⟨b4, b3, b1, -⟩ := selectWord_bits v
    exact ptpCtl_refused (exec_ptpServoSelect v s) (State.ptpCtlCheck_far b4 b3 hset (by rwa [b1]) (by rwa [b1])) (by decide) (by decide)

end Sys2Proof.Machine
end

section
/-!
PROOFS. The two PTP slaves (R73, R76, R78, R82): a Sync and its Follow_Up, the Announce of a master, the path delay exchange and the
announce timeout.
-/
namespace Sys2Proof.Machine

/-! ## The record of a slave, and a frame that comes in -/

theorem State.inst_setInst_same (s : State) (i : Nat) (x : PtpInst) : (s.setInst i x).inst i = x := mapGet_set_same _ s.ptp.inst i x

theorem State.inst_setInst_ne (s : State) {i j : Nat} (x : PtpInst) (h : j ≠ i) : (s.setInst i x).inst j = s.inst j :=
  mapGet_set_ne _ s.ptp.inst x h

@[simp] theorem State.reg_setInst (s : State) (i : Nat) (x : PtpInst) (a : Nat) : (s.setInst i x).reg a = s.reg a := rfl
@[simp] theorem State.rd_setInst (s : State) (i : Nat) (x : PtpInst) (f : Fld) : (s.setInst i x).rd f = s.rd f := rfl
@[simp] theorem State.inst_wr (s : State) (f : Fld) (v i : Nat) : (s.wr f v).inst i = s.inst i := rfl
@[simp] theorem State.inst_wrS (s : State) (f : Fld) (v : Int) (i : Nat) : (s.wrS f v).inst i = s.inst i := rfl
@[simp] theorem State.inst_send (s : State) (m : Msg) (i : Nat) : (s.send m).inst i = s.inst i := rfl

theorem State.rd_wr_reg_ne (s : State) {f g : Fld} (v : Nat) (h : g.reg ≠ f.reg) : (s.wr f v).rd g = s.rd g := s.rd_setReg_ne _ h

theorem Writes.inst {as : List Nat} {s t : State} (h : Writes as s t) (i : Nat) : t.inst i = s.inst i := by rw [h.2]; rfl

theorem Writes.sent {as : List Nat} {s t : State} (h : Writes as s t) : t.sent = s.sent := by rw [h.2]

/-- R78: what a MAC notes of a frame is its receive stamp. -/
theorem State.frameIn_frame (s : State) (m : Nat) : s.frameIn m = { s with ptp := { s.ptp with rxAt := (s.frameIn m).ptp.rxAt } } := by
  unfold State.frameIn State.when
  split <;> rfl

section
variable (s : State) (m i : Nat)

@[simp] theorem State.reg_frameIn (a : Nat) : (s.frameIn m).reg a = s.reg a := by rw [State.frameIn_frame]; rfl
@[simp] theorem State.rd_frameIn (f : Fld) : (s.frameIn m).rd f = s.rd f := by rw [State.frameIn_frame]; rfl
@[simp] theorem State.inst_frameIn : (s.frameIn m).inst i = s.inst i := by rw [State.frameIn_frame]; rfl
@[simp] theorem State.sent_frameIn : (s.frameIn m).sent = s.sent := by rw [State.frameIn_frame]
@[simp] theorem State.portState_frameIn : (s.frameIn m).portState i = s.portState i := s.rd_frameIn m _
@[simp] theorem State.hears_frameIn (mac dom : Nat) : (s.frameIn m).hears i mac dom = s.hears i mac dom := by rw [State.frameIn_frame]; rfl
@[simp] theorem State.fromMaster_frameIn (p : Nat) : (s.frameIn m).fromMaster i p = s.fromMaster i p := by rw [State.frameIn_frame]; rfl
@[simp] theorem State.rxStamp_frameIn : (s.frameIn m).rxStamp i = s.rxStamp i := by rw [State.frameIn_frame]; rfl

end

/-! ## Sync and Follow_Up (R73) -/

theorem exec_ptpSync (i : Fin 2) (m : SyncMsg) (s : State) : exec (.ptpSync i m) s = .next ((s.frameIn m.mac).syncMsg i m) := rfl

theorem exec_ptpFollowUp (i : Fin 2) (m : SyncMsg) (s : State) : exec (.ptpFollowUp i m) s = .next ((s.frameIn m.mac).followUp i m) := rfl

/-- A Sync that the slave takes: counted, with the interval it gives. -/
def State.syncTaken (s : State) (i : Nat) (m : SyncMsg) : State :=
  (s.incWrap (F.PTP_n_COUNT_SYNC_RX i)).setInst i { s.inst i with logSync := m.logInterval }

section
variable {s : State} {i : Nat} {m : SyncMsg}

theorem State.syncMsg_rate (hh : s.hears i m.mac m.domain = true) (hr : m.logInterval < -7 ∨ -1 < m.logInterval) :
    s.syncMsg i m = s.ignoreMsg i := by
  rw [State.syncMsg, if_neg (by simp [hh]), if_pos hr]

theorem State.syncMsg_taken (hh : s.hears i m.mac m.domain = true) (hlo : -7 ≤ m.logInterval) (hhi : m.logInterval ≤ -1)
    (hp : s.portState i = 8 ∨ s.portState i = 9) (hm : s.fromMaster i m.sender = true) : s.syncMsg i m =
      if m.twoStep then (s.syncTaken i m).setInst i { (s.syncTaken i m).inst i with waitSeq := some (m.seq, s.rxStamp i - m.corr) }
      else (s.syncTaken i m).syncPair i ((m.sec * 10 ^ 9 + m.ns : Nat) + m.corr) (s.rxStamp i) := by
  rw [State.syncMsg, if_neg (by simp [hh]), if_neg (by omega), if_neg (by simp [hm]; omega)]
  rfl

theorem State.followUp_pairs {r : Int} (hh : s.hears i m.mac m.domain = true) (hm : s.fromMaster i m.sender = true)
    (hw : (s.inst i).waitSeq = some (m.seq, r)) : s.followUp i m = s.syncPair i ((m.sec * 10 ^ 9 + m.ns : Nat) + m.corr) r := by
  rw [State.followUp, if_neg (by simp [hh, hm])]
  simp only [hw, if_true]

end

/-- The Sync of a pair that waits for its Follow_Up. -/
theorem State.syncTaken_waits (s : State) (i : Fin 2) (m : SyncMsg) (w : Option (Nat × Int)) :
    let t := (s.syncTaken i m).setInst i { (s.syncTaken i m).inst i with waitSeq := w }
    t.rd (F.PTP_n_COUNT_SYNC_RX i) = (s.rd (F.PTP_n_COUNT_SYNC_RX i) + 1) % 2 ^ (F.PTP_n_COUNT_SYNC_RX i).width ∧
      t.inst i = { s.inst i with logSync := m.logInterval, waitSeq := w } ∧ (∀ j : Fin 2, j ≠ i → t.inst j = s.inst j) ∧
      Writes [R.PTP_n_COUNT i] { s with ptp := t.ptp } t := by
  refine ⟨s.rd_incWrap_same (F.PTP_n_COUNT_SYNC_RX i) (by decide : 0 + 16 ≤ 32), ?_, fun j hj => ?_,
    fun a ha => s.reg_incWrap_ne (F.PTP_n_COUNT_SYNC_RX i) (List.ne_of_not_mem_cons ha), rfl⟩
  · rw [State.inst_setInst_same, State.syncTaken, State.inst_setInst_same]
  · have hne : j.val ≠ i.val := fun e => hj (Fin.ext e)
    rw [State.inst_setInst_ne _ _ hne, State.syncTaken, State.inst_setInst_ne _ _ hne]
    rfl

theorem State.frameIn_with_ptp (s : State) (m : Nat) (p : Ptp) : { s.frameIn m with ptp := p } = { s with ptp := p } := by
  rw [State.frameIn_frame]

theorem Only.of_frameIn {as : List Nat} {s t : State} {m : Nat} (h : Only as (s.frameIn m) t) :
    Only as { s with ptp := { s.ptp with rxAt := t.ptp.rxAt } } t := by
  obtain ⟨hreg, hrest⟩ := h
  refine ⟨fun a ha hr => (hreg a ha hr).trans (s.reg_frameIn m a), ?_⟩
  have hrx : t.ptp.rxAt = (s.frameIn m).ptp.rxAt := by rw [hrest]
  rw [OnlyRegs, hrx]
  exact hrest.trans (by rw [State.frameIn_frame])

/-- Settles O15: the frame is stamped, and what the slave looks at is as before. -/
theorem ptpSyncPairs : Obligations.PtpSyncPairs := by
  refine ⟨fun i m s hh hlo hhi hp hm htwo => ?twoStep, fun i m s hh hlo hhi hp hm hone => ?oneStep, fun i m s r hh hm hw => ?followUp,
    fun i m s hh hr => ?rate⟩
  case twoStep =>
    have htaken := State.syncMsg_taken (s := s.frameIn m.mac) (i := i) (by simpa using hh) hlo hhi (by simpa using hp) (by simpa using hm)
    rw [htwo, if_pos rfl, State.rxStamp_frameIn] at htaken
    obtain ⟨hcount, hinst, hother, hframe⟩ := (s.frameIn m.mac).syncTaken_waits i m (some (m.seq, s.rxStamp i - m.corr))
    simp only [State.rd_frameIn, State.inst_frameIn, State.frameIn_with_ptp] at hcount hinst hother hframe
    exact ⟨_, (exec_ptpSync i m s).trans (congrArg _ htaken), hcount, hinst, hother, hframe.only⟩
  case oneStep =>
    have htaken := State.syncMsg_taken (s := s.frameIn m.mac) (i := i) (by simpa using hh) hlo hhi (by simpa using hp) (by simpa using hm)
    rw [exec_ptpSync, htaken, hone, if_neg (by decide), State.rxStamp_frameIn, State.syncTaken, State.inst_frameIn]
  case followUp => rw [exec_ptpFollowUp, State.followUp_pairs (by simpa using hh) (by simpa using hm) (by simpa using hw)]
  case rate =>
    have hcount := (s.frameIn m.mac).rd_inc_same (F.PTP_n_COUNT_IGNORED i) (by decide : 16 + 16 ≤ 32)
    rw [State.rd_frameIn] at hcount
    exact ⟨_, (exec_ptpSync i m s).trans (congrArg _ (State.syncMsg_rate (by simpa using hh) hr)), hcount,
      (only_inc _ (F.PTP_n_COUNT_IGNORED i)).of_frameIn⟩

/-! ## Announce (R73, R82) -/

theorem exec_ptpAnnounce (i : Fin 2) (m : AnnounceMsg) (s : State) :
    exec (.ptpAnnounce i m) s = .next ((s.frameIn m.mac).announceMsg i m) := rfl

theorem State.inst_servoUpdate (s : State) (i : Nat) : s.servoUpdate.inst i = s.inst i := by
  obtain ⟨_, _, hup⟩ := s.servoUpdate_eq
  rw [hup]
  rfl

theorem State.sent_servoUpdate (s : State) : s.servoUpdate.sent = s.sent := by
  obtain ⟨_, _, hup⟩ := s.servoUpdate_eq
  rw [hup]
  rfl

theorem ptpInst_fields_reg (i : Nat) : (F.PTP_n_STATUS_PORT_STATE i).reg = R.PTP_n_STATUS i ∧
    (F.PTP_n_STATUS_UTC_VALID i).reg = R.PTP_n_STATUS i ∧ (F.PTP_n_UTC_UTC_OFFSET i).reg = R.PTP_n_UTC i ∧
    (F.PTP_n_GMID_LO_GMID_LO i).reg = R.PTP_n_GMID_LO i ∧ (F.PTP_n_GMID_HI_GMID_HI i).reg = R.PTP_n_GMID_HI i :=
  ⟨rfl, rfl, rfl, rfl, rfl⟩

/-- R82: the map gives each register of a slave a place of its own, above PTP_CLK_STATUS. -/
theorem ptpInst_regs_ne (i : Nat) : R.PTP_n_STATUS i ≠ R.PTP_CLK_STATUS ∧ R.PTP_n_UTC i ≠ R.PTP_CLK_STATUS ∧
    R.PTP_n_GMID_LO i ≠ R.PTP_CLK_STATUS ∧ R.PTP_n_GMID_HI i ≠ R.PTP_CLK_STATUS ∧ R.PTP_n_STATUS i ≠ R.PTP_n_UTC i ∧
    R.PTP_n_STATUS i ≠ R.PTP_n_GMID_LO i ∧ R.PTP_n_STATUS i ≠ R.PTP_n_GMID_HI i ∧ R.PTP_n_UTC i ≠ R.PTP_n_STATUS i ∧
    R.PTP_n_GMID_LO i ≠ R.PTP_n_STATUS i ∧ R.PTP_n_GMID_LO i ≠ R.PTP_n_UTC i ∧ R.PTP_n_GMID_LO i ≠ R.PTP_n_GMID_HI i ∧
    R.PTP_n_GMID_HI i ≠ R.PTP_n_STATUS i ∧ R.PTP_n_GMID_HI i ≠ R.PTP_n_UTC i := by
  simp only [R.PTP_n_STATUS, R.PTP_CLK_STATUS, R.PTP_n_UTC, R.PTP_n_GMID_LO, R.PTP_n_GMID_HI]
  omega

/-- The slave follows `p`: it forgets what waits of another master, and is UNCALIBRATED to a new one. -/
def State.followed (s : State) (i : Nat) (p : AnnounceMsg) : State :=
  let u := s.setInst i { s.inst i with parent := some p }
  if s.fromMaster i p.sender then u
  else (u.setInst i { u.inst i with waitSeq := none, t3 := none }).wr (F.PTP_n_STATUS_PORT_STATE i) 8

/-- The slave reports the data set of `p`. -/
def State.dataSetShown (s : State) (i : Nat) (p : AnnounceMsg) : State :=
  (((s.wr (F.PTP_n_GMID_LO_GMID_LO i) p.gmid).wr (F.PTP_n_GMID_HI_GMID_HI i) (p.gmid / 2 ^ 32)).wr
    (F.PTP_n_UTC_UTC_OFFSET i) p.utcOffset).wr (F.PTP_n_STATUS_UTC_VALID i) (bit p.utcValid)

/-- The registers of slave i show the data set of `p` (R82). -/
def State.ShowsDataSet (t : State) (i : Nat) (p : AnnounceMsg) : Prop :=
  t.rd (F.PTP_n_GMID_LO_GMID_LO i) = p.gmid % 2 ^ 32 ∧ t.rd (F.PTP_n_GMID_HI_GMID_HI i) = p.gmid / 2 ^ 32 % 2 ^ 32 ∧
    t.rd (F.PTP_n_STATUS_UTC_VALID i) = bit p.utcValid ∧
    t.rd (F.PTP_n_UTC_UTC_OFFSET i) = p.utcOffset % 2 ^ (F.PTP_n_UTC_UTC_OFFSET i).width

theorem State.follow_eq (s : State) (i : Nat) (p : AnnounceMsg) :
    s.follow i p = ((s.followed i p).dataSetShown i p).servoUpdate := rfl

section
variable (s : State) (i : Fin 2) (p : AnnounceMsg)

theorem State.followed_reads : ((s.followed i p).inst i).parent = some p ∧
    (s.followed i p).portState i = (if s.fromMaster i p.sender = true then s.portState i else 8) ∧ (s.followed i p).sent = s.sent ∧
    ∀ a, a ≠ R.PTP_n_STATUS i → (s.followed i p).reg a = s.reg a := by
  unfold State.followed
  split
  · exact ⟨by rw [State.inst_setInst_same], rfl, rfl, fun _ _ => rfl⟩
  · refine ⟨?_, State.rd_wr_same _ (F.PTP_n_STATUS_PORT_STATE i) 8 (by decide : 0 + 4 ≤ 32), rfl,
      fun a ha => State.reg_wr_ne _ (F.PTP_n_STATUS_PORT_STATE i) 8 ha⟩
    rw [State.inst_wr, State.inst_setInst_same, State.inst_setInst_same]

theorem writes_dataSetShown :
    Writes [R.PTP_n_STATUS i, R.PTP_n_UTC i, R.PTP_n_GMID_HI i, R.PTP_n_GMID_LO i] s (s.dataSetShown i p) :=
  (((writes_wr s (F.PTP_n_GMID_LO_GMID_LO i) _).trans (writes_wr _ (F.PTP_n_GMID_HI_GMID_HI i) _)).trans
    (writes_wr _ (F.PTP_n_UTC_UTC_OFFSET i) _)).trans (writes_wr _ (F.PTP_n_STATUS_UTC_VALID i) _)

/-- PORT_STATE and UTC_VALID share a register, and no bit. -/
theorem State.portState_dataSetShown : (s.dataSetShown i p).portState i = s.portState i := by
  refine (State.rd_wr_apart (f := F.PTP_n_STATUS_UTC_VALID i) _ _ (by decide : 5 + 1 ≤ 32) (.inr (.inr (by decide : 0 + 4 ≤ 5)))).trans ?_
  simp only [State.rd_wr_reg_ne, State.portState, ptpInst_fields_reg, ptpInst_regs_ne, ne_eq, not_false_eq_true]

theorem State.dataSetShown_reads : (s.dataSetShown i p).ShowsDataSet i p := by
  have hbit : bit p.utcValid % 2 ^ 1 = bit p.utcValid := by cases p.utcValid <;> rfl
  simp only [State.ShowsDataSet, State.dataSetShown, State.rd_wr_reg_ne, ptpInst_fields_reg, ptpInst_regs_ne, ne_eq, not_false_eq_true]
  exact ⟨State.rd_wr_same _ (F.PTP_n_GMID_LO_GMID_LO i) _ (by decide : 0 + 32 ≤ 32),
    State.rd_wr_same _ (F.PTP_n_GMID_HI_GMID_HI i) _ (by decide : 0 + 32 ≤ 32),
    (State.rd_wr_same _ (F.PTP_n_STATUS_UTC_VALID i) _ (by decide : 5 + 1 ≤ 32)).trans hbit,
    State.rd_wr_same _ (F.PTP_n_UTC_UTC_OFFSET i) _ (by decide : 0 + 16 ≤ 32)⟩

theorem State.follow_dataSet : (s.follow i p).ShowsDataSet i p := by
  rw [State.follow_eq]
  simp only [State.ShowsDataSet, State.rd_servoUpdate, ptpInst_fields_reg, ptpInst_regs_ne, ne_eq, not_false_eq_true]
  exact (s.followed i p).dataSetShown_reads i p

theorem State.sent_follow : (s.follow i p).sent = s.sent := by
  obtain ⟨-, -, hsent, -⟩ := s.followed_reads i p
  rw [State.follow_eq, State.sent_servoUpdate, (writes_dataSetShown _ i p).sent, hsent]

/-- What an Announce leaves of the state when slave i comes to follow `p`. -/
structure AnnounceLeaves (t : State) : Prop where
  parent : (t.inst i).parent = some p
  port : t.portState i = if s.fromMaster i p.sender = true then s.portState i else 8
  shows : t.ShowsDataSet i p
  reg : ∀ a, a ∉ [R.PTP_n_STATUS i, R.PTP_n_GMID_LO i, R.PTP_n_GMID_HI i, R.PTP_n_UTC i, R.PTP_CLK_STATUS] → t.reg a = s.reg a

theorem State.follow_leaves : AnnounceLeaves s i p (s.follow i p) := by
  obtain ⟨hparent, hport, -, hreg⟩ := s.followed_reads i p
  have hshown := writes_dataSetShown (s.followed i p) i p
  refine ⟨?parent, ?port, s.follow_dataSet i p, fun a ha => ?reg⟩
  case parent => rw [State.follow_eq, State.inst_servoUpdate, hshown.inst, hparent]
  case port => exact (State.rd_servoUpdate _ (ptpInst_regs_ne i).1).trans ((State.portState_dataSetShown _ i p).trans hport)
  case reg =>
    simp only [List.mem_cons, List.not_mem_nil, or_false, not_or] at ha
    obtain ⟨hstatus, hlo, hhi, hutc, hclk⟩ := ha
    rw [State.follow_eq, State.reg_servoUpdate _ hclk, hshown.1 a (by simp [hstatus, hlo, hhi, hutc]), hreg a hstatus]

variable {s i p}

theorem AnnounceLeaves.send {t : State} (h : AnnounceLeaves s i p t) (x : Msg) : AnnounceLeaves s i p (t.send x) :=
  ⟨h.parent, h.port, h.shows, h.reg⟩

end

/-- The slave notes the Announce among those of the masters heard. -/
def State.noted (s : State) (i : Nat) (m : AnnounceMsg) : State :=
  s.setInst i { s.inst i with foreign := m :: (s.inst i).foreign.filter (·.sender != m.sender) }

theorem State.fromMaster_noted (s : State) (i : Nat) (m : AnnounceMsg) (p : Nat) : (s.noted i m).fromMaster i p = s.fromMaster i p := by
  rw [State.fromMaster, State.noted, State.inst_setInst_same, State.fromMaster]

theorem AnnounceLeaves.of_noted {s t : State} {i : Fin 2} {m p : AnnounceMsg} (h : AnnounceLeaves (s.noted i m) i p t) :
    AnnounceLeaves s i p t := ⟨h.parent, by rw [h.port, State.fromMaster_noted]; rfl, h.shows, h.reg⟩

/-- The best of the masters heard, from `m` on. -/
def bestMaster (m : AnnounceMsg) (ms : List AnnounceMsg) : AnnounceMsg := ms.foldl (fun a b => if betterMaster b a then b else a) m

section
variable {s : State} {i : Nat} {m : AnnounceMsg}

theorem State.announce_takes (hh : s.hears i m.mac m.domain = true) (hlo : -3 ≤ m.logInterval) (hhi : m.logInterval ≤ 1)
    (hst : m.steps < 255) : s.announce i m =
      (s.noted i m).follow i (bestMaster m (m :: (s.inst i).foreign.filter (·.sender != m.sender))) := by
  rw [State.announce, if_neg (by simp [hh]), if_neg (by omega), if_neg (by omega)]
  rfl

theorem bestMaster_self : bestMaster m [m] = m := ite_self _

theorem bestMaster_other (p : AnnounceMsg) : bestMaster m [m, p] = if betterMaster p m then p else m := by
  simp only [bestMaster, List.foldl_cons, List.foldl_nil, ite_self]

theorem State.announceMsg_eq (hh : s.hears i m.mac m.domain = true) :
    s.announceMsg i m = if m.tlv = [] then s.announce i m else (s.announce i m).send (.ptpTlv i m.tlv) := by
  rw [State.announceMsg, hh, State.when]
  by_cases h : m.tlv = [] <;> simp [h]

end

/-- An Announce that the slave takes, `p` being the best of the masters heard. -/
theorem State.announceMsg_follows {s : State} {i : Fin 2} {m : AnnounceMsg} (hh : s.hears i m.mac m.domain = true)
    (hlo : -3 ≤ m.logInterval) (hhi : m.logInterval ≤ 1) (hst : m.steps < 255) {p : AnnounceMsg}
    (hp : bestMaster m (m :: (s.inst i).foreign.filter (·.sender != m.sender)) = p) : AnnounceLeaves s i p (s.announceMsg i m) ∧
      (s.announceMsg i m).sent = if m.tlv = [] then s.sent else .ptpTlv i m.tlv :: s.sent := by
  have hleaves := ((s.noted i m).follow_leaves i p).of_noted
  have hsent := (s.noted i m).sent_follow i p
  rw [State.announceMsg_eq hh, State.announce_takes hh hlo hhi hst, hp]
  by_cases htlv : m.tlv = []
  · rw [if_pos htlv, if_pos htlv]
    exact ⟨hleaves, hsent⟩
  · rw [if_neg htlv, if_neg htlv]
    exact ⟨hleaves.send _, congrArg (_ :: ·) hsent⟩

/-- The first Announce: its sender is the best of the masters heard. -/
theorem ptpAnnounce_first {i : Fin 2} {m : AnnounceMsg} {s : State} (hh : s.hears i m.mac m.domain = true) (hlo : -3 ≤ m.logInterval)
    (hhi : m.logInterval ≤ 1) (hst : m.steps < 255) (hnone : (s.inst i).parent = none) (hempty : (s.inst i).foreign = []) :
    Gives (.ptpAnnounce i m) s fun t => (t.inst i).parent = some m ∧ t.portState i = 8 ∧ t.ShowsDataSet i m ∧
      t.sent = (if m.tlv = [] then s.sent else .ptpTlv i m.tlv :: s.sent) ∧
      RegsBut [R.PTP_n_STATUS i, R.PTP_n_GMID_LO i, R.PTP_n_GMID_HI i, R.PTP_n_UTC i, R.PTP_CLK_STATUS] s t := by
  have hbest : bestMaster m (m :: ((s.frameIn m.mac).inst i).foreign.filter (·.sender != m.sender)) = m := by
    rw [State.inst_frameIn, hempty, List.filter_nil, bestMaster_self]
  have hnew : s.fromMaster i m.sender = false := by rw [State.fromMaster, hnone]
  obtain ⟨⟨hparent, hport, hshows, hreg⟩, hsent⟩ :=
    State.announceMsg_follows (s := s.frameIn m.mac) (i := i) (by simpa using hh) hlo hhi hst hbest
  rw [State.fromMaster_frameIn, hnew, if_neg (by decide)] at hport
  rw [State.sent_frameIn] at hsent
  exact ⟨_, exec_ptpAnnounce i m s, hparent, hport, hshows, hsent, fun a ha _ => (hreg a ha).trans (s.reg_frameIn _ a)⟩

/-- The Announce of a second master: its sender, where the parent is not better. -/
theorem ptpAnnounce_second {i : Fin 2} {m p : AnnounceMsg} {s : State} (hh : s.hears i m.mac m.domain = true) (hlo : -3 ≤ m.logInterval)
    (hhi : m.logInterval ≤ 1) (hst : m.steps < 255) (hp : (s.inst i).parent = some p) (hforeign : (s.inst i).foreign = [p])
    (hne : p.sender ≠ m.sender) : Gives (.ptpAnnounce i m) s fun t =>
      (t.inst i).parent = some (if betterMaster p m = true then p else m) ∧
        t.portState i = (if betterMaster p m = true then s.portState i else 8) := by
  have hbest : bestMaster m (m :: ((s.frameIn m.mac).inst i).foreign.filter (·.sender != m.sender)) =
      if betterMaster p m = true then p else m := by
    have hkept : [p].filter (·.sender != m.sender) = [p] := by simp [hne]
    rw [State.inst_frameIn, hforeign, hkept, bestMaster_other]
  have hmaster : ∀ q : AnnounceMsg, s.fromMaster i q.sender = (p.sender == q.sender) := fun q => by rw [State.fromMaster, hp]
  obtain ⟨⟨hparent, hport, -, -⟩, -⟩ :=
    State.announceMsg_follows (s := s.frameIn m.mac) (i := i) (by simpa using hh) hlo hhi hst hbest
  refine ⟨_, exec_ptpAnnounce i m s, hparent, hport.trans ?_⟩
  rw [State.fromMaster_frameIn, State.portState_frameIn, hmaster]
  by_cases hb : betterMaster p m = true
  · rw [if_pos hb, if_pos (beq_self_eq_true _), if_pos hb]
  · rw [if_neg hb, if_neg (by simpa using hne), if_neg hb]

/-! ## The path delay (R73) -/

theorem exec_ptpDelayReqTimer (i : Fin 2) (s : State) : exec (.ptpDelayReqTimer i) s = .next (s.delayReq i) := rfl

theorem exec_ptpDelayResp (i : Fin 2) (m : DelayRespMsg) (s : State) :
    exec (.ptpDelayResp i m) s = .next ((s.frameIn m.mac).delayResp i m) := rfl

theorem exec_ptpAnnounceTimeout (i : Fin 2) (s : State) : exec (.ptpAnnounceTimeout i) s = .next (s.announceTimeout i) := rfl

/-- Two's complement loses nothing of a value held to the field's range. -/
theorem signed_wrap_clampS {width : Nat} (v : Int) (hw : 0 < width) :
    signed width (wrap width (clampS width v) % 2 ^ width) = clampS width v := by
  obtain ⟨k, rfl⟩ : ∃ k, width = k + 1 := ⟨width - 1, by omega⟩
  have hlo : -((2 ^ k : Nat) : Int) ≤ clampS (k + 1) v := Int.le_max_left _ _
  have hhi : clampS (k + 1) v < (2 ^ k : Nat) := by
    have hpos := Nat.two_pow_pos k
    simp only [clampS, Nat.add_sub_cancel]
    omega
  generalize clampS (k + 1) v = c at hlo hhi
  have hnat : 2 ^ (k + 1) = 2 * 2 ^ k := Nat.pow_succ'
  have hint : (2 : Int) ^ (k + 1) = 2 * (2 ^ k : Nat) := by
    rw [Int.pow_succ, Int.mul_comm, Int.natCast_pow]
    rfl
  rw [signed, wrap, Nat.add_sub_cancel, hnat, hint]
  generalize 2 ^ k = half at hlo hhi
  have hwrap : ((c % (2 * half : Nat)).toNat : Int) = if 0 ≤ c then c else c + (2 * half : Nat) := by
    rw [Int.toNat_of_nonneg (Int.emod_nonneg _ (by omega))]
    split
    · exact Int.emod_eq_of_lt (by omega) (by omega)
    · rw [← Int.add_emod_right]
      exact Int.emod_eq_of_lt (by omega) (by omega)
  rw [Nat.mod_eq_of_lt (by split at hwrap <;> omega)]
  split at hwrap <;> split <;> omega

/-- A value held to a signed field reads back. -/
theorem State.rdS_wrS_same (s : State) {f : Fld} (v : Int) (hf : f.ok) (hw : 0 < f.width) : (s.wrS f v).rdS f = clampS f.width v := by
  rw [State.rdS, State.wrS, State.rd_wr_same _ _ _ hf]
  exact signed_wrap_clampS v hw

section
variable {s : State} {i : Nat}

/-- The Delay_Resp to the request in flight. -/
theorem State.delayResp_takes {m : DelayRespMsg} {t3 : Int} (hh : s.hears i m.mac m.domain = true) (hmine : m.mine = true)
    (hm : s.fromMaster i m.sender = true) (hlo : -7 ≤ m.logInterval) (hhi : m.logInterval ≤ 5) (ht3 : (s.inst i).t3 = some t3)
    (hseq : m.seq = (s.inst i).dreqSeq) : s.delayResp i m =
      (s.setInst i { s.inst i with t3 := none, dreqLog := m.logInterval }).wrS (F.PTP_n_MPD_MPD i)
        ((((s.inst i).t2 - (s.inst i).t1) + ((m.sec * 10 ^ 9 + m.ns : Nat) - m.corr - t3)) * 8) := by
  rw [State.delayResp, if_neg (by simp [hh, hmine, hm]), if_neg (by omega)]
  simp only [ht3, hseq, ne_eq, not_true_eq_false, if_false]

theorem State.delayReq_sends (hen : s.on (F.PTP_n_CFG_EN i) = true) (hp : s.portState i = 8 ∨ s.portState i = 9) : s.delayReq i =
    ((s.setInst i { s.inst i with dreqSeq := ((s.inst i).dreqSeq + 1) % 65536, t3 := some (s.txStamp i) }).stampTx
      (s.rd (F.PTP_n_CFG_MAC i))).send (.delayReq i (((s.inst i).dreqSeq + 1) % 65536) (s.on (F.PTP_n_CFG_UNICAST_DREQ i))
        (s.rd (F.PTP_n_IPV4_ADDR i))) := if_pos ⟨hen, hp⟩

theorem State.announceTimeout_listens (hen : s.on (F.PTP_n_CFG_EN i) = true) (hp : (s.inst i).parent.isSome = true) :
    s.announceTimeout i = ((s.setInst i { s.inst i with parent := none, foreign := [], waitSeq := none, t3 := none }).wr
      (F.PTP_n_STATUS_PORT_STATE i) 4).servoUpdate := if_pos ⟨hen, hp⟩

end

@[simp] theorem State.inst_stampTx (s : State) (m i : Nat) : (s.stampTx m).inst i = s.inst i := rfl

theorem ptpDelayReqTimer_sends {i : Fin 2} {s : State} (hen : s.on (F.PTP_n_CFG_EN i) = true)
    (hp : s.portState i = 8 ∨ s.portState i = 9) : Gives (.ptpDelayReqTimer i) s fun t =>
      (t.inst i).dreqSeq = ((s.inst i).dreqSeq + 1) % 65536 ∧ (t.inst i).t3 = some (s.txStamp i) ∧
      t.sent = .delayReq i (t.inst i).dreqSeq (s.on (F.PTP_n_CFG_UNICAST_DREQ i)) (s.rd (F.PTP_n_IPV4_ADDR i)) :: s.sent ∧
      RegsSame s t := by
  refine ⟨_, (exec_ptpDelayReqTimer i s).trans (congrArg _ (State.delayReq_sends hen hp)), ?_⟩
  simp only [State.inst_send, State.inst_stampTx, State.inst_setInst_same, true_and]
  exact ⟨rfl, rfl, rfl⟩

theorem ptpDelayResp_measures {i : Fin 2} {m : DelayRespMsg} {s : State} {t3 : Int} (hh : s.hears i m.mac m.domain = true)
    (hmine : m.mine = true) (hm : s.fromMaster i m.sender = true) (hlo : -7 ≤ m.logInterval) (hhi : m.logInterval ≤ 5)
    (ht3 : (s.inst i).t3 = some t3) (hseq : m.seq = (s.inst i).dreqSeq) : Gives (.ptpDelayResp i m) s fun t =>
      t.rdS (F.PTP_n_MPD_MPD i) = clampS (F.PTP_n_MPD_MPD i).width
        ((((s.inst i).t2 - (s.inst i).t1) + ((m.sec * 10 ^ 9 + m.ns : Nat) - m.corr - t3)) * 8) ∧
      t.inst i = { s.inst i with t3 := none, dreqLog := m.logInterval } ∧ RegsBut [R.PTP_n_MPD i] s t := by
  have htakes := State.delayResp_takes (s := s.frameIn m.mac) (i := i) (by simpa using hh) hmine (by simpa using hm) hlo hhi
    (by simpa using ht3) (by simpa using hseq)
  rw [State.inst_frameIn] at htakes
  refine ⟨_, (exec_ptpDelayResp i m s).trans (congrArg _ htakes), State.rdS_wrS_same _ _ (by decide : 0 + 32 ≤ 32) (by decide : 0 < 32),
    (State.inst_wrS _ _ _ _).trans (State.inst_setInst_same _ _ _), fun a ha _ => ?_⟩
  rw [State.wrS, State.reg_wr_ne _ (F.PTP_n_MPD_MPD i) _ (List.ne_of_not_mem_cons ha), State.reg_setInst, State.reg_frameIn]

theorem ptpAnnounceTimeout_listens {i : Fin 2} {s : State} (hen : s.on (F.PTP_n_CFG_EN i) = true) (hp : (s.inst i).parent.isSome = true) :
    Gives (.ptpAnnounceTimeout i) s fun t =>
      (t.inst i).parent = none ∧ t.portState i = 4 ∧ RegsBut [R.PTP_n_STATUS i, R.PTP_CLK_STATUS] s t := by
  refine ⟨_, (exec_ptpAnnounceTimeout i s).trans (congrArg _ (State.announceTimeout_listens hen hp)), ?_, ?_, fun a ha _ => ?_⟩
  · rw [State.inst_servoUpdate, State.inst_wr, State.inst_setInst_same]
  · exact (State.rd_servoUpdate _ (ptpInst_regs_ne i).1).trans
      (State.rd_wr_same _ (F.PTP_n_STATUS_PORT_STATE i) 4 (by decide : 0 + 4 ≤ 32))
  · obtain ⟨hstatus, hclk⟩ : a ≠ R.PTP_n_STATUS i ∧ a ≠ R.PTP_CLK_STATUS := by simpa using ha
    exact (State.reg_servoUpdate _ hclk).trans (State.reg_wr_ne _ (F.PTP_n_STATUS_PORT_STATE i) 4 hstatus)

/-- Settles O16: the first master, a better or worse one, the two halves of the path delay exchange, and the end of a master. -/
theorem ptpMasterAndPathDelay : Obligations.PtpMasterAndPathDelay := by
  refine ⟨fun i m s hh hlo hhi hst hnone hempty => ?first, fun _ _ _ _ => ptpAnnounce_second, fun _ _ => ptpDelayReqTimer_sends,
    fun _ _ _ _ => ptpDelayResp_measures, fun _ _ => ptpAnnounceTimeout_listens⟩
  obtain ⟨t, hexec, hparent, hport, ⟨hidlo, hidhi, hvalid, hutc⟩, hsent, hregs⟩ := ptpAnnounce_first hh hlo hhi hst hnone hempty
  exact ⟨t, hexec, hparent, hport, hidlo, hidhi, hvalid, hutc, hsent, hregs⟩

end Sys2Proof.Machine
end

section
/-!
PROOFS. Translation, faults and parking (R114 to R120, R124, R126, R127, R161, R496): invalidations and the flush of the translation
cache, a fault or an access error of running work, safe points, the park hold, page responses and timeouts, deadlines, and the end of
PRI.
-/
namespace Sys2Proof.Machine

/-! ## Invalidations of the translation cache (R115) -/

theorem exec_atsInvalidation (p : Option (Fin 1048576)) (a n : Nat) (s : State) :
    exec (.atsInvalidation p a n) s = .next (s.invalidate (p.map (·.val)) a n) := rfl

theorem exec_atsInvalComplete {s : State} (slow : Bool) (h : 0 < s.xlt.invals) : exec (.atsInvalComplete slow) s =
    .next (let u := ({ s with xlt := { s.xlt with invals := s.xlt.invals - 1 } } : State).send .invalDone
      if slow then u.inc F.XLT_INVAL_SLOW else u) := congrArg Host.Outcome.next (if_pos (decide_eq_true h))

theorem exec_xltFlush (s : State) : exec .xltFlush s = .next { s with xlt := { s.xlt with cache := [] } } := rfl

section
variable {s : State} {p : Option Nat} {a n : Nat} {x : Nat × List XEnt}

theorem State.invalidate_invals (s : State) (p : Option Nat) (a n : Nat) : (s.invalidate p a n).xlt.invals = s.xlt.invals + 1 := rfl

/-- A set of the cache after an invalidation is one from before it without the entries in the range, where some are left. -/
theorem State.mem_invalidate_cache : x ∈ (s.invalidate p a n).xlt.cache ↔
    (∃ y ∈ s.xlt.cache, (y.1, y.2.filter fun e => !e.inRange p a n) = x) ∧ x.2 ≠ [] := by
  rw [State.invalidate, State.inc_xlt, List.mem_filter, List.mem_map, bne_iff_ne]

theorem State.invalidate_drops (hx : x ∈ (s.invalidate p a n).xlt.cache) : ∀ e ∈ x.2, e.inRange p a n = false := by
  obtain ⟨⟨y, -, rfl⟩, -⟩ := State.mem_invalidate_cache.1 hx
  intro e he
  simpa using (List.mem_filter.1 he).2

theorem State.invalidate_keeps_entry (hx : x ∈ s.xlt.cache) {e : XEnt} (he : e ∈ x.2) (hout : e.inRange p a n = false) :
    ∃ y ∈ (s.invalidate p a n).xlt.cache, y.1 = x.1 ∧ e ∈ y.2 := by
  have hleft : e ∈ x.2.filter fun e => !e.inRange p a n := List.mem_filter.2 ⟨he, by simp [hout]⟩
  exact ⟨_, State.mem_invalidate_cache.2 ⟨⟨x, hx, rfl⟩, List.ne_nil_of_mem hleft⟩, rfl, hleft⟩

end

theorem atsInvalidation_gives (p : Option (Fin 1048576)) (a n : Nat) (s : State) : Gives (.atsInvalidation p a n) s fun t =>
    let q := p.map (·.val)
    (∀ x ∈ t.xlt.cache, ∀ e ∈ x.2, e.inRange q a n = false) ∧
    (∀ x ∈ s.xlt.cache, ∀ e ∈ x.2, e.inRange q a n = false → ∃ y ∈ t.xlt.cache, y.1 = x.1 ∧ e ∈ y.2) ∧
    t.xlt.invals = s.xlt.invals + 1 ∧
    t.rd F.XLT_INVAL_RECEIVED = min (s.rd F.XLT_INVAL_RECEIVED + 1) (2 ^ F.XLT_INVAL_RECEIVED.width - 1) ∧
    Only [F.XLT_INVAL_RECEIVED.reg] { s with xlt := t.xlt } t :=
  ⟨_, exec_atsInvalidation p a n s, fun _ hx => State.invalidate_drops hx, fun _ hx _ he => State.invalidate_keeps_entry hx he,
    s.invalidate_invals _ a n, State.rd_inc_same _ _ (by decide : 0 + 16 ≤ 32), only_inc _ F.XLT_INVAL_RECEIVED⟩

theorem atsInvalComplete_gives {s : State} (slow : Bool) (h : 0 < s.xlt.invals) : Gives (.atsInvalComplete slow) s fun t =>
    t.xlt.invals = s.xlt.invals - 1 ∧ t.sent = .invalDone :: s.sent ∧
    t.rd F.XLT_INVAL_SLOW = (if slow then min (s.rd F.XLT_INVAL_SLOW + 1) (2 ^ F.XLT_INVAL_SLOW.width - 1) else s.rd F.XLT_INVAL_SLOW) ∧
    RegsBut [F.XLT_INVAL_SLOW.reg] s t ∧ MemSame s t := by
  refine ⟨_, exec_atsInvalComplete slow h, ?_⟩
  cases slow with
  | false => exact ⟨rfl, rfl, rfl, fun _ _ _ => rfl, fun _ => rfl, fun _ => rfl, fun _ => rfl⟩
  | true =>
    exact ⟨rfl, rfl, State.rd_inc_same _ F.XLT_INVAL_SLOW (by decide : 16 + 16 ≤ 32),
      (only_inc _ F.XLT_INVAL_SLOW).1, fun _ => rfl, fun _ => rfl, fun _ => rfl⟩

/-- Settles O28: an invalidation, its completion, and the flush. -/
theorem translationInvalidation : Obligations.TranslationInvalidation :=
  ⟨atsInvalidation_gives, fun slow _ h => atsInvalComplete_gives slow h, exec_xltFlush⟩

/-! ## Faults and access errors of running work (R117, R118, R126, R127) -/

theorem exec_xltFault (w : Work) (a : Nat) (s : State) : exec (.xltFault w a) s = .next (s.xltFault w a) := rfl

theorem exec_accessError (w : Work) (s : State) : exec (.accessError w) s = .next (s.accessError w) := rfl

/-- The count of faults is no part of what says whether PRI is off. -/
theorem State.priOff_inc_faults (s : State) : (s.inc F.XLT_COUNT_FAULT_FAULTS).priOff = s.priOff := by
  have hreg : (s.inc F.XLT_COUNT_FAULT_FAULTS).reg R.XLT_STATUS = s.reg R.XLT_STATUS := s.reg_inc_ne _ (by decide)
  simp only [State.priOff, State.on, State.rd, F.XLT_STATUS_PRI_EN, F.XLT_STATUS_PRI_STOPPED, hreg]

section
variable {s : State} {w : Work}

theorem State.xltFault_runs (a : Nat) (hr : s.workRuns w = true) : s.xltFault w a =
    let x := s.inc F.XLT_COUNT_FAULT_FAULTS
    if s.priOff then (if workParks w then x.stopWork w 1 0xA807 else x.recStuck w)
    else (if workParks w then x.setFaulted w true else x.recStuck w).fault w (a % 2 ^ 64 / 4096) := by
  rw [State.xltFault, hr, if_neg (by decide)]
  simp only [State.priOff_inc_faults]

theorem State.accessError_runs (hr : s.workRuns w = true) :
    s.accessError w = if workParks w then s.stopWork w 1 0xA808 else s.recStuck w := by
  rw [State.accessError, hr, if_neg (by decide)]

theorem State.accessError_out {r : Fin 4096} (hr : s.workRuns (.out r) = true) : s.accessError (.out r) =
    (s.setFaulted (.out r) true).wr (F.XLT_SPILLr_STATUS_STATE r) (max 1 (s.spillState r)) := State.accessError_runs hr

end

/-! ## Safe points (R116, R124) -/

theorem exec_taskSafePoint (w : Work) (wm : Wm) (data : List Byte) (s : State) :
    exec (.taskSafePoint w ⟨wm, data⟩) s = .next (s.safePoint w wm data) := rfl

theorem exec_taskPark {w : Work} {s : State} (wm : Wm) (data : List Byte) (h : s.workFaulted w = true) :
    exec (.taskPark w ⟨wm, data⟩) s = .next (s.safePoint w wm data) := congrArg Host.Outcome.next (if_pos h)

theorem State.workFaulted_desc {s : State} {r : Fin 4096} {i : Word} {j : Job} (hj : s.job (descKey r i) = some j)
    (hp : j.phase = .running) (hf : j.faulted = true) : s.workFaulted (.desc r i) = true := by
  simp [State.workFaulted, hj, hp, hf]

theorem State.workFaulted_task {s : State} {d : Fin 8} {t : Fin 65536} (hs : (s.task d t).state = 4)
    (hf : (s.task d t).faulted = true) : s.workFaulted (.task d t) = true := by
  simp [State.workFaulted, hs, hf]

theorem descWork_val (r : Fin 4096) (i : Word) : descWork r.val i.toNat = .desc r i := by
  simp [descWork]

theorem taskWork_val (d : Fin 8) (t : Fin 65536) : taskWork d.val t.val = .task d t := by
  simp [taskWork]

/-- A descriptor's work at a safe point: what it has moved so far, then what waits there. -/
theorem State.safePoint_desc {s : State} {r : Fin 4096} {i : Word} {wm v : Wm} {j : Job} (data : List Byte)
    (hj : s.job (descKey r i) = some j) (hp : j.phase = .running) (hv : s.jobWm j wm = some v) :
    s.safePoint (.desc r i) wm data = (s.jobMoves (descKey r i) j v data).jobSafe r i v := by
  simp [State.safePoint, hj, hp, hv]

section
variable {s : State} {r : Fin 4096} {i : Word} {x : Job} (wm : Wm) (hj : s.job (descKey r i) = some x) (hp : x.phase = .running)
include hj hp

theorem State.jobSafe_stopped {o c : Nat} (hs : x.stop = some (o, c)) :
    s.jobSafe r i wm = (s.freePark (.desc r i)).endJob (descKey r i) o c wm := by
  simp [State.jobSafe, hj, hp, hs]

theorem State.jobSafe_parks (hs : x.stop = none) (hf : x.faulted = true) : s.jobSafe r i wm = s.park (.desc r i) wm := by
  simp [State.jobSafe, hj, hp, hs, hf]

theorem State.jobSafe_goesOn (hs : x.stop = none) (hf : x.faulted = false) :
    s.jobSafe r i wm = s.setJob (descKey r i) (some { x with wm := wm }) := by
  simp [State.jobSafe, hj, hp, hs, hf]

end

theorem State.sch_incWrap (s : State) (f : Fld) : (s.incWrap f).sch = s.sch := s.wr_sch f _

/-- Translations move the cache, its counts and what is asked of the host, never the schedulers. -/
theorem State.xlate_sch (s : State) (p : Option Nat) (a : Nat) : (s.xlate p a).sch = s.sch := by
  unfold State.xlate
  split
  · rfl
  · split
    · rw [State.sch_incWrap, State.setXltWays_sch]
    · rw [State.sch_incWrap, State.xltFill, State.send_sch, State.setXltWays_sch]

theorem State.xlateRange_sch (s : State) (p : Option Nat) (a n : Nat) : (s.xlateRange p a n).sch = s.sch := by
  unfold State.xlateRange
  split
  · rfl
  · exact List.foldlRecOn (motive := fun t : State => t.sch = s.sch) _ _ rfl fun t ht _ _ => (t.xlate_sch _ _).trans ht

theorem State.decReads_sch (s : State) (x : Task) (n : Nat) : (s.decReads x n).sch = s.sch := by
  unfold State.decReads
  split
  · exact s.xlateRange_sch _ _ _
  · rfl

theorem State.task_decReads (s : State) (x : Task) (n d t : Nat) : (s.decReads x n).task d t = s.task d t := by
  simp only [State.task, State.decReads_sch]

section
variable {s : State} {d : Fin 8} {t : Fin 65536} {wm : Wm} {data : List Byte}

theorem State.safePoint_task_firmware (hc : consHw d (s.task d t).cons = false) : s.safePoint (.task d t) wm data = s := by
  simp [State.safePoint, hc]

theorem State.safePoint_task {v : Wm} (hs : (s.task d t).state = 4) (hc : consHw d (s.task d t).cons = true)
    (hv : taskWm (s.task d t) wm = some v) :
    s.safePoint (.task d t) wm data = (s.decReads (s.task d t) v.bytes).taskSafe d t v := by
  simp [State.safePoint, hs, hc, hv]

end

section
variable {s : State} {d : Fin 8} {t : Fin 65536} {x : Task} (v : Wm) (hx : s.task d t = x) (hs : x.state = 4)
include hx hs

theorem State.taskSafe_cancels (hc : x.creq = true) : s.taskSafe d t v = s.endTask d t 6 4 0 v := by
  simp [State.taskSafe, hx, hs, hc]

theorem State.taskSafe_stopped {o c : Nat} (hc : x.creq = false) (hst : x.stop = some (o, c)) :
    s.taskSafe d t v = s.endTask d t 7 o c v := by
  simp [State.taskSafe, hx, hs, hc, hst]

theorem State.taskSafe_parks (hc : x.creq = false) (hst : x.stop = none) (hf : x.faulted = true) :
    s.taskSafe d t v = s.park (.task d t) v := by
  simp [State.taskSafe, hx, hs, hc, hst, hf, taskWork_val]

theorem State.taskSafe_goesOn (hc : x.creq = false) (hst : x.stop = none) (hf : x.faulted = false) :
    s.taskSafe d t v = (s.setTask d t { x with wm := v }).preempt d t := by
  simp [State.taskSafe, hx, hs, hc, hst, hf]

end

/-! ## The deadline of running descriptor work (R496) -/

theorem exec_descDeadline (r : Fin 4096) (i : Word) (s : State) : exec (.descDeadline r i) s = .next (s.descDeadline (descKey r i)) := rfl

/-- A deadline reached while the work runs marks it to stop. -/
theorem State.dueStop_running {s : State} {r : Fin 4096} {i : Word} {j : Job} (o c : Nat) (hj : s.job (descKey r i) = some j)
    (hp : j.phase = .running) (hs : j.stop = none) :
    s.dueStop (.desc r i) o c = s.setJob (descKey r i) (some { j with stop := some (o, c) }) := by
  simp [State.dueStop, State.stopJob, hj, hp, hs]

theorem State.descDeadline_running {s : State} {r : Fin 4096} {i : Word} {j : Job} (hj : s.job (descKey r i) = some j)
    (hr : j.ring = r.val) (hi : j.idx = i.toNat) (hp : j.phase = .running) (hs : j.stop = none) (hd : dDeadline j.words ≠ 0)
    (ht : s.reachedOn (dTl j.words) (dDeadline j.words) = true) :
    s.descDeadline (descKey r i) = s.setJob (descKey r i) (some { j with stop := some (2, deadlineCode (dOpcode j.words)) }) := by
  have hmark := State.dueStop_running 2 (deadlineCode (dOpcode j.words)) hj hp hs
  simpa [State.descDeadline, hj, hd, ht, hp, hr, hi, descWork_val] using hmark

/-! ## The park hold, responses and the PRI timeout (R117, R118, R120, R161) -/

theorem exec_parkHoldExpired_task {d : Fin 8} {t : Fin 65536} {s : State} (h : (s.task d t).state = 5) :
    exec (.parkHoldExpired (.task d t)) s = .next (s.leaveSlot d t) :=
  congrArg Host.Outcome.next (if_pos (beq_iff_eq.2 h))

theorem exec_parkHoldExpired_desc {r : Fin 4096} {i : Word} {s : State} (h : s.workParked (.desc r i) = true) :
    exec (.parkHoldExpired (.desc r i)) s = .next (s.holdInHbm (.desc r i)) := congrArg Host.Outcome.next (if_pos h)

theorem exec_pageResponse (i : Fin 512) (c : PrCode) (s : State) : exec (.pageResponse i c) s = .next (s.pageResponse i c) := rfl

theorem State.pageResponse_sent {s : State} {i : Nat} {p : Prg} (c : PrCode) (hp : s.prg i = some p) (hs : p.sent = true) :
    s.pageResponse i c =
      let ws := p.waiters.filter fun x => s.waits x.1 x.2.1
      let a := (s.setPrg i none).showPri
      (if ws = [] then a.inc F.XLT_COUNT_FAULT_ORPHAN
        else ws.foldl (fun b x => if b.waits x.1 x.2.1 then b.respond x.1 x.2.2 c else b) a).retryWaiting := by
  simp only [State.pageResponse, hp, hs]
  rfl

theorem exec_priTimeout {w : Work} {s : State} (h1 : workSingle w = false) (hp : s.workParked w = true) (hd : s.workDeadline w = 0) :
    exec (.priTimeout w) s = .next (s.stopWork w 2 0xA806) := congrArg Host.Outcome.next (if_pos (by simp [h1, hp, hd]))

/-! ## The end of PRI (R118) -/

theorem exec_priStopped (s : State) : exec .priStopped s = .next (s.wr F.XLT_STATUS_PRI_STOPPED 1).priEnd := rfl

theorem State.foldl_send {α : Type} (f : α → Msg) (l : List α) (s : State) :
    l.foldl (fun s a => s.send (f a)) s = { s with sent := (l.map f).reverse ++ s.sent } := by
  induction l generalizing s with
  | nil => rfl
  | cons a l ih => rw [List.foldl_cons, ih]; simp [State.send]

/-- With no work waiting for a page, the end of PRI drops the page requests and what it sends is their Stop Markers. -/
theorem State.priEnd_idle {s : State} (h : s.allWaiting = []) : ∃ ms : List Msg, (s.xlt.prgs = [] → ms = []) ∧
    s.priEnd = ({ s with xlt := { s.xlt with prgs := [], waiting := [] }, sent := ms ++ s.sent } : State).showPri := by
  simp only [State.priEnd, h, List.foldl_nil, State.foldl_send]
  exact ⟨_, fun hprgs => by rw [hprgs]; rfl, rfl⟩

theorem only_showPri (s : State) : Only [R.XLT_PRI] s s.showPri :=
  (only_wr s F.XLT_PRI_OUTSTANDING _).trans (only_wr _ F.XLT_PRI_PEAK _)

theorem State.rd_showPri_none {s : State} (h : s.xlt.prgs = []) : s.showPri.rd F.XLT_PRI_OUTSTANDING = 0 := by
  have hapart : F.XLT_PRI_PEAK.apart F.XLT_PRI_OUTSTANDING := .inr (.inr (by decide : 0 + 10 ≤ 16))
  have hpeak : F.XLT_PRI_PEAK.ok := (by decide : 16 + 10 ≤ 32)
  have hout : F.XLT_PRI_OUTSTANDING.ok := (by decide : 0 + 10 ≤ 32)
  rw [State.showPri, h, State.rd_wr_apart _ _ hpeak hapart, State.rd_wr_same _ _ _ hout]
  rfl

theorem priStopped_idle {s : State} (h : s.allWaiting = []) : Gives .priStopped s fun t =>
    t.rd F.XLT_STATUS_PRI_STOPPED = 1 ∧ t.xlt = { s.xlt with prgs := [], waiting := [] } ∧ t.rd F.XLT_PRI_OUTSTANDING = 0 ∧
      (s.xlt.prgs = [] → t.sent = s.sent) ∧ Only [R.XLT_STATUS, R.XLT_PRI] { s with xlt := t.xlt, sent := t.sent } t := by
  obtain ⟨ms, hms, hend⟩ := State.priEnd_idle (s := s.wr F.XLT_STATUS_PRI_STOPPED 1) h
  refine ⟨_, (exec_priStopped s).trans (congrArg _ hend), ?stopped, rfl, State.rd_showPri_none rfl, fun hprgs => ?sent, ?only⟩
  case stopped => exact ((only_showPri _).rd (by decide) (by decide)).trans (s.rd_wr_same _ 1 (by decide : 2 + 1 ≤ 32))
  case sent => exact congrArg (· ++ s.sent) (hms hprgs)
  case only =>
    exact ((only_wr ({ s with xlt := { s.xlt with prgs := [], waiting := [] }, sent := ms ++ s.sent } : State)
      F.XLT_STATUS_PRI_STOPPED 1).mono (by simp [F.XLT_STATUS_PRI_STOPPED])).trans ((only_showPri _).mono (by simp))

/-- Settles O27: a fault or an access error by the kind of work and by PRI, safe points by what waits there, then the events of
parked work and the end of PRI. -/
theorem faultedWork : Obligations.FaultedWork := by
  refine ⟨fun w a s hr => ?running,
    fun r s hr => (exec_accessError _ s).trans (congrArg _ (State.accessError_out hr)),
    fun r i wm v data s j hj hp hv => ?desc,
    fun r i s j hj hr hi hp hs hd ht =>
      (exec_descDeadline r i s).trans (congrArg _ (State.descDeadline_running hj hr hi hp hs hd ht)),
    fun d t wm v data s => ?task,
    fun _ _ _ => exec_parkHoldExpired_task, fun _ _ _ => exec_parkHoldExpired_desc,
    fun i c s p hp hs => (exec_pageResponse i c s).trans (congrArg _ (State.pageResponse_sent c hp hs)),
    fun _ _ => exec_priTimeout, fun _ => priStopped_idle⟩
  case running =>
    have hfault := (exec_xltFault w a s).trans (congrArg _ (State.xltFault_runs a hr))
    have herror := (exec_accessError w s).trans (congrArg _ (State.accessError_runs hr))
    refine ⟨fun hparks => ⟨fun hpri => ?_, fun hpri => ?_, ?_⟩, fun hrecord => ⟨fun hpri => ?_, fun hpri => ?_, ?_⟩⟩
    · rw [hfault, hpri, hparks]; rfl
    · rw [hfault, hpri, hparks]; rfl
    · rw [herror, hparks]; rfl
    · rw [hfault, hpri, hrecord]; rfl
    · rw [hfault, hpri, hrecord]; rfl
    · rw [herror, hrecord]; rfl
  case desc =>
    intro u x hx hxp
    have hsafe := (exec_taskSafePoint (.desc r i) wm data s).trans (congrArg _ (State.safePoint_desc data hj hp hv))
    refine ⟨fun hf hst hxf => ?_, fun hst hxf => ?_, fun o c hst => ?_⟩
    · rw [exec_taskPark wm data (State.workFaulted_desc hj hp hf), State.safePoint_desc data hj hp hv, State.jobSafe_parks v hx hxp hst hxf]
    · rw [hsafe, State.jobSafe_goesOn v hx hxp hst hxf]
    · rw [hsafe, State.jobSafe_stopped v hx hxp hst]
  case task =>
    refine ⟨fun _ hc => ?_, fun hs hc hv => ?_⟩
    · rw [exec_taskSafePoint, State.safePoint_task_firmware hc]
    · have hx := s.task_decReads (s.task d t) v.bytes d t
      have hsafe := (exec_taskSafePoint (.task d t) wm data s).trans (congrArg _ (State.safePoint_task hs hc hv))
      refine ⟨fun hcr hst hf => ?_, fun hcr => ?_, fun hcr o c hst => ?_, fun hcr hst hf => ?_⟩
      · rw [exec_taskPark wm data (State.workFaulted_task hs hf), State.safePoint_task hs hc hv, State.taskSafe_parks v hx hs hcr hst hf]
      · rw [hsafe, State.taskSafe_cancels v hx hs hcr]
      · rw [hsafe, State.taskSafe_stopped v hx hs hcr hst]
      · rw [hsafe, State.taskSafe_goesOn v hx hs hcr hst hf]

end Sys2Proof.Machine
end

section
/-!
PROOFS. Staged sets (R132 to R142, R151): what a refusal of the block shows, opening and choosing a set, staged and direct writes, and
the commit, the abort and the application of a set.
-/
namespace Sys2Proof.Machine

/-! ## Refusals of the staging block (R141, R151) -/

/-- The status registers that a staging reason code goes to: the block's, those of other blocks, and the concerned set's. -/
def stgStatus (set : Option Nat) (st : List Nat) : List Nat := R.STG_STATUS :: (st ++ (set.map R.STG_SETs_STATUS).toList)

theorem State.stgCode_eq (s : State) (code : Nat) (set : Option Nat) (st : List Nat) :
    s.stgCode code set st = s.reasons (stgStatus set st) code := by
  cases set with
  | none => simp only [State.stgCode, stgStatus, Option.map_none, Option.toList_none, List.append_nil]
  | some i =>
    rw [stgStatus, Option.map_some, Option.toList_some, ← List.cons_append, State.reasons, List.foldl_append]
    rfl

theorem State.stgRefuse_eq (s : State) (code : Nat) (set : Option Nat) (st : List Nat) (a : Nat) :
    s.stgRefuse code set st a = s.refuse pStg (stgStatus set st) code a :=
  congrArg (State.recReason · pStg code 0xFFFF a) (s.stgCode_eq code set st)

theorem State.only_stgRefuse (s : State) (code : Nat) (set : Option Nat) (st : List Nat) (a : Nat) :
    Only (stgStatus set st) s (s.stgRefuse code set st a) := by
  rw [s.stgRefuse_eq]
  exact only_refuse s pStg _ code a

theorem State.reason_stgRefuse (s : State) (code : Nat) (set : Option Nat) (st : List Nat) (a : Nat) :
    (s.stgRefuse code set st a).rd F.STG_STATUS_REASON = code % 2 ^ 16 := by
  rw [s.stgRefuse_eq]
  exact s.rd_refuse_mem pStg code a List.mem_cons_self (recReg_of_lt (by decide))

theorem Only.stg {as : List Nat} {s t : State} (h : Only as s t) : t.stg = s.stg := by rw [h.2]

/-! ## A set's registers and records (R134, R135, R137) -/

theorem recReg_setStatus (i : Fin 8) : recReg (R.STG_SETs_STATUS i) = false :=
  recReg_of_lt (show 0x140100 + i.val * 0x20 < 0xD00000 by omega)

theorem State.setState_setSetState_same (s : State) (i : Nat) {n : Nat} (hn : n < 4) : (s.setSetState i n).setState i = n :=
  (s.rd_wr_same (F.STG_SETs_STATUS_STATE i) n (by decide : 0 + 2 ≤ 32)).trans (Nat.mod_eq_of_lt hn)

theorem State.wsel_setWsel_same (s : State) (q : Req) (v : Word) : (s.setWsel q v).wsel q = v := mapGet_set_same _ s.stg.wsel _ v

theorem State.wsel_setWsel_ne (s : State) {p q : Req} (v : Word) (h : p ≠ q) : (s.setWsel q v).wsel p = s.wsel p :=
  mapGet_set_ne _ s.stg.wsel v (reqKey_injective.ne h)

theorem State.claim_setClaim_same (s : State) (a : Nat) (x : Option (Nat × Word)) : (s.setClaim a x).claim a = x :=
  mapGet_set_same _ s.stg.claims a x

theorem State.claim_setClaim_ne (s : State) {a b : Nat} (x : Option (Nat × Word)) (h : b ≠ a) : (s.setClaim a x).claim b = s.claim b :=
  mapGet_set_ne _ s.stg.claims x h

/-! ## STG_OPEN (R138) -/

theorem exec_stgOpen (q : Req) (any : Bool) (i : Fin 8) (s : State) : exec (.stgOpen q any i) s = .next (s.stgOpen q any i) := rfl

theorem State.stgOpen_free {s : State} {i : Nat} (q : Req) (h : s.setState i = 0) : s.stgOpen q false i = s.openSet q i :=
  (if_neg Bool.false_ne_true).trans (if_pos h)

theorem State.stgOpen_notFree {s : State} {i : Nat} (q : Req) (h : s.setState i ≠ 0) :
    s.stgOpen q false i = s.stgRefuse 0xE002 (some i) [] R.STG_CTL := (if_neg Bool.false_ne_true).trans (if_neg h)

/-- ANY opens the lowest FREE set, whatever set the request names. -/
theorem State.stgOpen_lowest {s : State} {i : Fin 8} (q : Req) (k : Nat) (h : s.setState i = 0) (hlow : ∀ j, j < i → s.setState j ≠ 0) :
    s.stgOpen q true k = s.openSet q i := by
  have hfind : ((List.range 8).find? fun j => s.setState j == 0) = some i.val := by
    refine List.find?_range_eq_some.2 ⟨beq_iff_eq.2 h, List.mem_range.2 i.isLt, fun j hj => ?_⟩
    simpa using hlow ⟨j, Nat.lt_trans hj i.isLt⟩ hj
  simp only [State.stgOpen, hfind, if_true]

theorem State.stgOpen_noneFree {s : State} (q : Req) (k : Nat) (h : ∀ j : Fin 8, s.setState j ≠ 0) :
    s.stgOpen q true k = s.stgRefuse 0xE001 none [] R.STG_CTL := by
  have hfind : ((List.range 8).find? fun j => s.setState j == 0) = none :=
    List.find?_range_eq_none.2 fun j hj => by simpa using h ⟨j, hj⟩
  simp only [State.stgOpen, hfind, if_true]

/-- A set that is opened is selected for its requester, whose STG_WSEL.OPEN stays. -/
theorem State.openSet_selects (s : State) (q : Req) (i : Fin 8) :
    (s.openSet q i).setState i = 1 ∧ (s.openSet q i).wselSet q = i ∧ (s.openSet q i).wselOpen q = s.wselOpen q ∧
      (∀ p, p ≠ q → (s.openSet q i).wsel p = s.wsel p) ∧
      Only [R.STG_SETs_STATUS i] { s with stg := (s.openSet q i).stg } (s.openSet q i) := by
  have hwsel : (s.openSet q i).wsel q = putBits (s.wsel q) 0 3 i := (s.setSetState i 1).wsel_setWsel_same q _
  refine ⟨s.setState_setSetState_same i (by decide), ?_, ?_, fun p hp => (s.setSetState i 1).wsel_setWsel_ne _ hp,
    only_wr { s with stg := (s.openSet q i).stg } (F.STG_SETs_STATUS_STATE i) 1⟩
  · rw [State.wselSet, hwsel, getBits_put_same _ _ _ _ (by decide)]
    exact Nat.mod_eq_of_lt i.isLt
  · rw [State.wselOpen, hwsel, getBits_put_above _ _ _ _ _ _ (by decide) (by decide)]
    rfl

/-! ## STG_WSEL (R137) -/

theorem exec_stgWselWrite (q : Req) (v : Word) (s : State) : exec (.stgWselWrite q v) s = .next (s.wselWrite q v) := rfl

theorem State.wselWrite_taken {s : State} {v : Word} (q : Req) (h : getBits v 3 1 = 0 ∨ s.setState (getBits v 0 3) = 1) :
    s.wselWrite q v = s.setWsel q (v &&& 0xF) :=
  if_neg fun ⟨hopen, hstate⟩ => h.elim (by simp [hopen]) hstate

theorem State.wselWrite_refused {s : State} {v : Word} (q : Req) (hopen : getBits v 3 1 = 1) (h : s.setState (getBits v 0 3) ≠ 1) :
    s.wselWrite q v = s.stgRefuse 0xE002 (some (getBits v 0 3)) [] R.STG_WSEL := if_pos ⟨hopen, h⟩

/-! ## Staged writes (R135) -/

section
variable {s : State} {q : Req} {a set : Nat} {v : Word}

theorem exec_stagedWrite (hst : s.isSt a = true) (hopen : s.wselOpen q = true) :
    exec (.stagedWrite q a v) s = .next (s.stagedWrite q a v) := congrArg Host.Outcome.next (if_pos (by simp [hst, hopen]))

theorem State.stageCheck_notOpen (h : s.setState set ≠ 1) : s.stageCheck set a = 0xE002 := if_pos h

theorem State.stageCheck_claimed {p : Nat} {x : Word} (hs : s.setState set = 1) (hc : s.claim a = some (p, x)) (hp : p ≠ set) :
    s.stageCheck set a = 0xE004 := by
  simp only [State.stageCheck, hs, hc, hp, ne_eq, not_true, if_false]

theorem State.stagedWrite_taken (h : s.stageCheck (s.wselSet q) a = 0) : s.stagedWrite q a v = s.stage (s.wselSet q) a 0xFFFFFFFF v :=
  if_pos h

theorem State.stagedWrite_refused {c : Nat} (h : s.stageCheck (s.wselSet q) a = c) (hc : c ≠ 0) :
    s.stagedWrite q a v = s.stgRefuse c (some (s.wselSet q)) [] a := by
  subst h
  exact if_neg hc

/-! ## Direct writes (R139) -/

theorem exec_directWrite (hst : s.isSt a = true) (hopen : s.wselOpen q = false) :
    exec (.directWrite q a v) s = .next (s.directWrite a v) := congrArg Host.Outcome.next (if_pos (by simp [hst, hopen]))

theorem State.directWrite_claimed {p : Nat} {x : Word} (hc : s.claim a = some (p, x)) :
    s.directWrite a v = s.stgRefuse 0xE004 (some p) (s.owner a).status a := by
  simp only [State.directWrite, hc]

theorem State.directWrite_unclaimed (hc : s.claim a = none) : s.directWrite a v =
    if s.ownerOn (s.owner a) then (s.inc F.STG_COUNT_DIRECT_DROP).stgRefuse 0xE003 none (s.owner a).status a
    else if (s.owner a).en ∧ getBits (maskedIn a (s.reg a) 0xFFFFFFFF v) 0 1 = 1 then s.stgRefuse 0xE006 none (s.owner a).status a
    else s.setReg a (maskedIn a (s.reg a) 0xFFFFFFFF v) := by
  simp only [State.directWrite, hc]

end

/-- R139: a dropped write is counted before its code is shown; a reason code stands above the count. -/
theorem State.drop_reads (s : State) (st : List Nat) (a : Nat) :
    let t := (s.inc F.STG_COUNT_DIRECT_DROP).stgRefuse 0xE003 none st a
    t.rd F.STG_STATUS_REASON = 0xE003 ∧ t.rd F.STG_COUNT_DIRECT_DROP = min (s.rd F.STG_COUNT_DIRECT_DROP + 1) 65535 ∧ t.stg = s.stg ∧
      RegsBut (R.STG_STATUS :: R.STG_COUNT :: st) s t := by
  intro t
  have honly : Only (R.STG_COUNT :: stgStatus none st) s t :=
    ((only_inc s F.STG_COUNT_DIRECT_DROP).mono (by simp [F.STG_COUNT_DIRECT_DROP])).trans
      ((State.only_stgRefuse _ 0xE003 none st a).mono (List.subset_cons_self _ _))
  refine ⟨State.reason_stgRefuse _ _ _ _ _, ?count, honly.stg, (honly.mono ?_).1⟩
  case count =>
    have hlow : t.rd F.STG_COUNT_DIRECT_DROP = (s.inc F.STG_COUNT_DIRECT_DROP).rd F.STG_COUNT_DIRECT_DROP := by
      simp only [t, State.stgRefuse_eq]
      exact State.rd_refuse_low _ _ _ _ _ (by decide) (recReg_of_lt (by decide))
    exact hlow.trans (s.rd_inc_same F.STG_COUNT_DIRECT_DROP (by decide : 0 + 16 ≤ 32))
  · intro b hb
    simp only [stgStatus, Option.map_none, Option.toList_none, List.append_nil, List.mem_cons] at hb ⊢
    exact or_left_comm.1 hb

/-- Settles O29: each clause is one case of STG_OPEN, of STG_WSEL, of a staged write or of a direct write. -/
theorem stagedAndDirectWrites : Obligations.StagedAndDirectWrites := by
  refine ⟨fun q i s h => ?opens, fun q i s h => ?notFree, fun q i k s h hlow => ?lowest, fun q k s h => ?noneFree,
    fun q v s h => ?selects, fun q a v s hst hopen h => ?stages, fun q a v x s p hst hopen hs hc hp => ?elsewhere,
    fun q a v s hst hopen hs => ?notOpen, fun q a v s hst hopen hc => ?unclaimed, fun q a v x s p hst hopen hc => ?claimed,
    fun q v s hopen h => ?selectRefused⟩
  case opens => exact ⟨_, (exec_stgOpen q false i s).trans (congrArg _ (s.stgOpen_free q h)), s.openSet_selects q i⟩
  case notFree =>
    exact ⟨_, (exec_stgOpen q false i s).trans (congrArg _ (s.stgOpen_notFree q h)), s.reason_stgRefuse _ _ _ _,
      s.only_stgRefuse 0xE002 (some i.val) [] R.STG_CTL⟩
  case lowest => rw [exec_stgOpen, exec_stgOpen, s.stgOpen_lowest q k h hlow, s.stgOpen_free q h]
  case noneFree =>
    exact ⟨_, (exec_stgOpen q true k s).trans (congrArg _ (s.stgOpen_noneFree q k h)), s.reason_stgRefuse _ _ _ _,
      s.only_stgRefuse 0xE001 none [] R.STG_CTL⟩
  case selects =>
    exact ⟨_, (exec_stgWselWrite q v s).trans (congrArg _ (s.wselWrite_taken q h)), s.wsel_setWsel_same q _,
      fun p hp => s.wsel_setWsel_ne _ hp, rfl⟩
  case selectRefused =>
    have honly := s.only_stgRefuse 0xE002 (some (getBits v 0 3)) [] R.STG_WSEL
    exact ⟨_, (exec_stgWselWrite q v s).trans (congrArg _ (s.wselWrite_refused q hopen h)), s.reason_stgRefuse _ _ _ _, honly.stg, honly⟩
  case stages =>
    exact ⟨_, (exec_stagedWrite hst hopen).trans (congrArg _ (State.stagedWrite_taken h)), s.claim_setClaim_same a _,
      fun b hb => s.claim_setClaim_ne _ hb, rfl⟩
  case elsewhere =>
    exact ⟨_, (exec_stagedWrite hst hopen).trans (congrArg _ (State.stagedWrite_refused (State.stageCheck_claimed hs hc hp) (by decide))),
      s.reason_stgRefuse _ _ _ _, s.only_stgRefuse 0xE004 (some (s.wselSet q)) [] a⟩
  case notOpen =>
    exact ⟨_, (exec_stagedWrite hst hopen).trans (congrArg _ (State.stagedWrite_refused (State.stageCheck_notOpen hs) (by decide))),
      s.reason_stgRefuse _ _ _ _, s.only_stgRefuse 0xE002 (some (s.wselSet q)) [] a⟩
  case claimed =>
    have honly := s.only_stgRefuse 0xE004 (some p) (s.owner a).status a
    refine ⟨_, (exec_directWrite hst hopen).trans (congrArg _ (State.directWrite_claimed hc)), s.reason_stgRefuse _ _ _ _, honly.stg,
      (honly.mono fun b hb => ?_).1⟩
    simp only [stgStatus, Option.map_some, Option.toList_some, List.mem_cons, List.mem_append, List.not_mem_nil, or_false] at hb ⊢
    exact hb.imp_right Or.symm
  case unclaimed =>
    have hdirect := (exec_directWrite (v := v) hst hopen).trans (congrArg _ (State.directWrite_unclaimed hc))
    refine ⟨fun hoff hen => ?_, fun hon => ⟨_, hdirect.trans (congrArg _ (if_pos hon)), s.drop_reads _ a⟩, fun hoff hen hbit => ?_⟩
    · rw [hdirect, if_neg (by simp [hoff]), if_neg hen]
    · have honly := s.only_stgRefuse 0xE006 none (s.owner a).status a
      refine ⟨_, hdirect.trans (congrArg _ ((if_neg (by simp [hoff])).trans (if_pos ⟨hen, hbit⟩))), s.reason_stgRefuse _ _ _ _, honly.stg, ?_⟩
      simpa only [stgStatus, Option.map_none, Option.toList_none, List.append_nil] using honly.1

/-! ## STG_COMMIT (R134, R140 to R142) -/

theorem exec_stgCommit (q : Req) (i : Fin 8) (n : Fin 4) (s : State) : exec (.stgCommit q i n) s = .next (s.stgCommit i n) := rfl

theorem State.stgCommit_passes {s : State} {i n : Nat} (h : s.commitFails i n s.stgStamp = none) :
    s.stgCommit i n = s.armSet i n s.stgStamp := by
  simp only [State.stgCommit, h]

theorem State.stgCommit_fails {s : State} {i n c a : Nat} {st : List Nat} (h : s.commitFails i n s.stgStamp = some (c, a, st)) :
    s.stgCommit i n = (s.inc F.STG_COUNT_REFUSED).stgRefuse c (some i) st a := by
  simp only [State.stgCommit, h]

theorem State.stgStamp_lt (s : State) : s.stgStamp < 2 ^ 64 := by
  have hlo := s.rd_lt F.STG_STAMP_LO_STAMP_LO
  have hhi := s.rd_lt F.STG_STAMP_HI_STAMP_HI
  simp only [F.STG_STAMP_LO_STAMP_LO, F.STG_STAMP_HI_STAMP_HI] at hlo hhi
  simp only [State.stgStamp, F.STG_STAMP_LO_STAMP_LO, F.STG_STAMP_HI_STAMP_HI]
  omega

/-- The status and stamp registers of a set are three. -/
theorem setRegs_ne (i : Nat) : R.STG_SETs_STATUS i ≠ R.STG_SETs_STAMP_LO i ∧ R.STG_SETs_STATUS i ≠ R.STG_SETs_STAMP_HI i ∧
    R.STG_SETs_STAMP_LO i ≠ R.STG_SETs_STAMP_HI i := by
  simp only [R.STG_SETs_STATUS, R.STG_SETs_STAMP_LO, R.STG_SETs_STAMP_HI]
  omega

/-- The registers of set i as arming it on timeline n at a stamp leaves them; its place among the ARMED sets apart. -/
def State.armedRegs (s : State) (i n stamp : Nat) : State :=
  (((s.setSetState i 2).wr (F.STG_SETs_STATUS_TL i) n).setReg (R.STG_SETs_STAMP_LO i) (BitVec.ofNat 32 stamp)).setReg
    (R.STG_SETs_STAMP_HI i) (BitVec.ofNat 32 (stamp / 2 ^ 32))

theorem State.armSet_eq (s : State) (i n stamp : Nat) :
    s.armSet i n stamp = ({ s with stg := { s.stg with armed := s.stg.armed ++ [i] } } : State).armedRegs i n stamp := rfl

theorem only_armedRegs (s : State) (i n stamp : Nat) :
    Only [R.STG_SETs_STATUS i, R.STG_SETs_STAMP_LO i, R.STG_SETs_STAMP_HI i] s (s.armedRegs i n stamp) := by
  have hstate := only_wr s (F.STG_SETs_STATUS_STATE i) 2
  have htl := only_wr (s.setSetState i 2) (F.STG_SETs_STATUS_TL i) n
  exact (((hstate.trans htl).mono (by simp [F.STG_SETs_STATUS_STATE])).trans ((only_setReg _ _ _).mono (by simp))).trans
    ((only_setReg _ _ _).mono (by simp))

/-- A field of the set's status is as the two writes of that register left it. -/
theorem State.rd_armedRegs_status (s : State) (i n stamp : Nat) {f : Fld} (hf : f.reg = R.STG_SETs_STATUS i) :
    (s.armedRegs i n stamp).rd f = ((s.setSetState i 2).wr (F.STG_SETs_STATUS_TL i) n).rd f := by
  obtain ⟨hlo, hhi, -⟩ := setRegs_ne i
  rw [State.armedRegs, State.rd_setReg_ne _ _ (hf ▸ hhi), State.rd_setReg_ne _ _ (hf ▸ hlo)]

theorem State.armedRegs_reads (s : State) (i : Nat) (n : Fin 4) {stamp : Nat} (h : stamp < 2 ^ 64) :
    (s.armedRegs i n stamp).setState i = 2 ∧ (s.armedRegs i n stamp).rd (F.STG_SETs_STATUS_TL i) = n ∧
      (s.armedRegs i n stamp).setStamp i = stamp := by
  have htl : (F.STG_SETs_STATUS_TL i).ok := (by decide : 2 + 2 ≤ 32)
  refine ⟨?_, ?_, ?_⟩
  · rw [State.setState, State.rd_armedRegs_status s i n stamp rfl, State.rd_wr_apart _ _ htl (.inr (.inr (by decide : 0 + 2 ≤ 2)))]
    exact s.setState_setSetState_same i (by decide)
  · rw [State.rd_armedRegs_status s i n stamp rfl, State.rd_wr_same _ _ _ htl]
    exact Nat.mod_eq_of_lt n.isLt
  · have hlo : (s.armedRegs i n stamp).reg (R.STG_SETs_STAMP_LO i) = BitVec.ofNat 32 stamp := by
      rw [State.armedRegs, State.reg_setReg_ne _ _ (setRegs_ne i).2.2, State.reg_setReg_same]
    have hhi : (s.armedRegs i n stamp).reg (R.STG_SETs_STAMP_HI i) = BitVec.ofNat 32 (stamp / 2 ^ 32) := State.reg_setReg_same _ _ _
    simp only [State.setStamp, State.rd, F.STG_SETs_STAMP_LO_STAMP_LO, F.STG_SETs_STAMP_HI_STAMP_HI, hlo, hhi, getBits, BitVec.toNat_ofNat]
    omega

theorem stgCommit_arms {q : Req} {i : Fin 8} {n : Fin 4} {s : State} (h : s.commitFails i n s.stgStamp = none) :
    Gives (.stgCommit q i n) s fun t =>
      t.setState i = 2 ∧ t.rd (F.STG_SETs_STATUS_TL i) = n ∧ t.setStamp i = s.stgStamp ∧
        t.stg = { s.stg with armed := s.stg.armed ++ [i.val] } ∧
        Only [R.STG_SETs_STATUS i, R.STG_SETs_STAMP_LO i, R.STG_SETs_STAMP_HI i] { s with stg := t.stg } t := by
  obtain ⟨hstate, htl, hstamp⟩ :=
    State.armedRegs_reads { s with stg := { s.stg with armed := s.stg.armed ++ [i.val] } } i n s.stgStamp_lt
  exact ⟨_, (exec_stgCommit q i n s).trans (congrArg _ ((State.stgCommit_passes h).trans (s.armSet_eq i n _))), hstate, htl, hstamp, rfl,
    only_armedRegs _ i n s.stgStamp⟩

/-- R141, R142: a refused commit is counted and shown; the set's state lies below the code. -/
theorem stgCommit_refused {q : Req} {i : Fin 8} {n : Fin 4} {s : State} {c a : Nat} {st : List Nat}
    (h : s.commitFails i n s.stgStamp = some (c, a, st)) : Gives (.stgCommit q i n) s fun t =>
      t.rd F.STG_STATUS_REASON = c % 65536 ∧ t.setState i = s.setState i ∧ t.stg = s.stg ∧
        RegsBut (R.STG_STATUS :: R.STG_COUNT :: R.STG_SETs_STATUS i :: st) s t := by
  have honly : Only (R.STG_COUNT :: stgStatus (some i) st) s ((s.inc F.STG_COUNT_REFUSED).stgRefuse c (some i) st a) :=
    ((only_inc s F.STG_COUNT_REFUSED).mono (by simp [F.STG_COUNT_REFUSED])).trans
      ((State.only_stgRefuse _ c (some i) st a).mono (List.subset_cons_self _ _))
  refine ⟨_, (exec_stgCommit q i n s).trans (congrArg _ (State.stgCommit_fails h)), State.reason_stgRefuse _ _ _ _ _, ?state, honly.stg,
    (honly.mono fun b hb => ?_).1⟩
  case state =>
    have hlow : (F.STG_SETs_STATUS_STATE i).lo + (F.STG_SETs_STATUS_STATE i).width ≤ 16 := (by decide : 0 + 2 ≤ 16)
    have hcount : F.STG_COUNT_REFUSED.apart (F.STG_SETs_STATUS_STATE i) := .inl (show 0x140018 ≠ 0x140100 + i.val * 0x20 by omega)
    rw [State.stgRefuse_eq, State.setState, State.rd_refuse_low _ _ _ _ _ hlow (recReg_setStatus i),
      State.rd_inc_apart s (f := F.STG_COUNT_REFUSED) (by decide : 16 + 16 ≤ 32) hcount]
    rfl
  · simp only [stgStatus, Option.map_some, Option.toList_some, List.mem_cons, List.mem_append, List.not_mem_nil, or_false] at hb ⊢
    exact or_left_comm.1 (hb.imp_right (Or.imp_right Or.symm))

/-! ## STG_ABORT (R134) -/

theorem exec_stgAbort (q : Req) (i : Fin 8) (s : State) : exec (.stgAbort q i) s = .next (s.stgAbort i) := rfl

theorem State.stgAbort_releases {s : State} {i : Nat} (h : s.abortCheck i = 0) (hw : s.waitingFor i = none) :
    s.stgAbort i = s.releaseSet i := by
  rw [State.stgAbort, if_pos h]
  simp only [State.abortSet, hw]

theorem State.setState_releaseSet (s : State) (i : Nat) : (s.releaseSet i).setState i = 0 :=
  (State.rd_wr_apart _ (f := F.STG_SETs_STATUS_TL i) (g := F.STG_SETs_STATUS_STATE i) 0 (by decide : 2 + 2 ≤ 32)
    (.inr (.inr (by decide : 0 + 2 ≤ 2)))).trans (State.setState_setSetState_same _ i (by decide))

/-- A released set claims no register: what claims stay are those of other sets. -/
theorem State.claimsOf_releaseSet (s : State) (i : Nat) : (s.releaseSet i).claimsOf i = [] := by
  refine List.filterMap_eq_nil_iff.2 fun ⟨a, x⟩ hx => ?_
  have hother := (List.mem_filter.1 hx).2
  cases x with
  | none => rfl
  | some c => exact if_neg (bne_iff_ne.1 hother)

theorem State.groveRecsOf_releaseSet (s : State) (i : Nat) : (s.releaseSet i).groveRecsOf i = [] := mapGet_set_same _ s.stg.groveRecs i []

theorem State.not_armed_releaseSet (s : State) (i : Nat) : i ∉ (s.releaseSet i).stg.armed := by
  have harmed : (s.releaseSet i).stg.armed = s.stg.armed.filter (· != i) := rfl
  simp [harmed]

theorem State.only_releaseSet (s : State) (i : Nat) :
    Only [R.STG_SETs_STATUS i] { s with stg := (s.releaseSet i).stg } (s.releaseSet i) :=
  (only_wr { s with stg := (s.releaseSet i).stg } (F.STG_SETs_STATUS_STATE i) 0).trans (only_wr _ (F.STG_SETs_STATUS_TL i) 0)

/-! ## COMMIT_APPLY (R134, R136) -/

theorem exec_commitApply {i : Fin 8} {s : State} (h : s.setDue i = true) : exec (.commitApply i) s = .next (s.applySet i) :=
  congrArg Host.Outcome.next (if_pos h)

/-- A set for which no capsule waits applies, and the blocks take note. -/
theorem State.applySet_unawaited {s : State} {i : Nat} (h : s.waitingFor i = none) : s.applySet i =
    let cs := (s.claimsOf i).filter fun x => !s.rst.needReset.contains (x.1 / 0x4000000)
    let n := s.rd (F.STG_SETs_STATUS_TL i)
    s.committed
      ((((s.overlay cs (s.groveRecsOf i)).releaseSet i).incWrap (F.STG_SETs_APPLIED_COUNT i)).event pStg 0xEC01 0xFFFF i cs.length (some n))
      (cs.map (·.1)) n (s.setStamp i) := by
  simp only [State.applySet, h]

/-- R132: with shadows in force a register reads the last of them, or as before where none is its own. -/
theorem State.reg_overlay (s : State) (cs : List (Nat × Word)) (gs : List GroveRec) (a : Nat) :
    (s.overlay cs gs).reg a = (cs.reverse.lookup a).getD (s.reg a) := by
  change (cs.foldl (fun s x => s.setReg x.1 x.2) s).reg a = _
  induction cs generalizing s with
  | nil => rfl
  | cons x cs ih =>
    obtain ⟨b, v⟩ := x
    rw [List.foldl_cons, ih, List.reverse_cons, List.lookup_append, State.reg_setReg]
    cases cs.reverse.lookup a with
    | some w => rfl
    | none =>
      by_cases hab : a = b
      · rw [if_pos hab, hab, List.lookup_cons_self]
        rfl
      · rw [if_neg hab, List.lookup_cons, beq_eq_false_iff_ne.2 hab]
        rfl

/-- Settles O30: a commit that passes and one that fails, an abort, the application of a due set, and a set put in force. -/
theorem commitOfASet : Obligations.CommitOfASet := by
  refine ⟨fun q i n s h => stgCommit_arms h, fun q i n s c a st h => stgCommit_refused h, fun q i s h hw => ?abort,
    fun i s h hw => (exec_commitApply h).trans (congrArg _ (State.applySet_unawaited hw)),
    fun i s a => ⟨fun v hv => ?claimed, fun hn => ?unclaimed⟩⟩
  case abort =>
    exact ⟨_, (exec_stgAbort q i s).trans (congrArg _ (State.stgAbort_releases h hw)), s.setState_releaseSet i, s.claimsOf_releaseSet i,
      s.groveRecsOf_releaseSet i, s.not_armed_releaseSet i, s.only_releaseSet i⟩
  case claimed => rw [State.withSet, State.reg_overlay, hv, Option.getD_some]
  case unclaimed =>
    have hrev : (s.claimsOf i).reverse.lookup a = none :=
      List.lookup_eq_none_iff.2 fun x hx => List.lookup_eq_none_iff.1 hn x (List.mem_reverse.1 hx)
    rw [State.withSet, State.reg_overlay, hrev, Option.getD_none]

end Sys2Proof.Machine
end

section
/-!
PROOFS. Configuration capsules (R143 to R148): the dispatch of a CAPSULE, its wait for a buffer, the end of its read, and the image
that a ring holds for a continuation.
-/
namespace Sys2Proof.Machine

/-! ## Jobs and rings -/

theorem State.job_setJob_same (s : State) (k : Nat) (j : Option Job) : (s.setJob k j).job k = j := mapGet_set_same _ s.host.jobs k j

theorem State.ring_setRing_same (s : State) (r : Nat) (x : RingSt) : (s.setRing r x).ring r = x := mapGet_set_same _ s.host.rings r x

/-- A ring's record is neither a register nor memory, and neither is a job. -/
theorem State.setRing_still {s t : State} (r : Nat) (x : RingSt) (h : RegsSame s t ∧ MemSame s t) :
    RegsSame s (t.setRing r x) ∧ MemSame s (t.setRing r x) := by
  have hmem : (t.setRing r x).host.mem = t.host.mem := by rw [State.setRing]
  simpa only [RegsSame, MemSame, State.setRing_regs, State.setRing_recorder, State.setRing_hbm, State.setRing_rst, hmem] using h

theorem State.setJob_still {s t : State} (k : Nat) (j : Option Job) (h : RegsSame s t ∧ MemSame s t) :
    RegsSame s (t.setJob k j) ∧ MemSame s (t.setJob k j) := by
  have hmem : (t.setJob k j).host.mem = t.host.mem := by rw [State.setJob]
  simpa only [RegsSame, MemSame, State.setJob_regs, State.setJob_recorder, State.setJob_hbm, State.setJob_rst, hmem] using h

theorem State.popFetched_still (s : State) (r : Nat) : RegsSame s (s.popFetched r) ∧ MemSame s (s.popFetched r) :=
  State.setRing_still r _ ⟨⟨rfl, rfl⟩, fun _ => rfl, fun _ => rfl, fun _ => rfl⟩

/-! ## The held image of a ring (R148) -/

theorem State.dropHeld_held {s : State} {r n : Nat} (h : (s.ring r).capHeld = some n) :
    s.dropHeld r = (s.setRing r { s.ring r with capHeld := none, capData := [] }).event pStg 0xEC02 0xFFFF r n := by
  simp only [State.dropHeld, h]

theorem State.dropHeld_none {s : State} {r : Nat} (h : (s.ring r).capHeld = none) : s.dropHeld r = s := by
  simp only [State.dropHeld, h]

/-- R148: a read that ends PARTIAL or ABORTED leaves the bytes up to its watermark on its ring. -/
theorem State.holdImage_ring {s : State} {j : Job} {o : Nat} {w : Wm} (hop : dOpcode j.words = 0x02) (ho : o = 1 ∨ o = 2)
    (hp : j.phase = .running ∨ j.phase = .parked) (hw : w.bytes ≤ j.buf.length) :
    ((s.holdImage j o w).ring j.ring).capHeld = some w.bytes ∧ ((s.holdImage j o w).ring j.ring).capData = j.buf.take w.bytes := by
  have hfull : j.buf ++ List.replicate (w.bytes - j.buf.length) 0 = j.buf := by
    rw [Nat.sub_eq_zero_of_le hw, List.replicate_zero, List.append_nil]
  have hring : (s.holdImage j o w).ring j.ring =
      { (s.dropHeld j.ring).ring j.ring with capHeld := some w.bytes, capData := j.buf.take w.bytes } := by
    rw [State.holdImage, if_pos ⟨hop, ho, hp⟩, hfull]
    exact State.ring_setRing_same _ _ _
  rw [hring]
  exact ⟨rfl, rfl⟩

theorem exec_capsuleHoldExpired (r : Fin 4096) (s : State) : exec (.capsuleHoldExpired r) s = .next (s.dropHeld r) := rfl

/-! ## The dispatch of a CAPSULE (R143, R148) -/

section
variable {r : Fin 4096} {s : State} {d : Desc}

theorem exec_capsule_begins (hd : s.dispatchable r 0x02 = some d) (hc : (s.popFetched r).capCheck r d.words = 0) :
    exec (.capsule r) s = .next ((s.popFetched r).capBegin r d) := by
  change execCapsule r s = _
  simp only [execCapsule, hd, hc, if_true]

theorem exec_capsule_refused {c : Nat} (hd : s.dispatchable r 0x02 = some d) (h : (s.popFetched r).capCheck r d.words = c) (hc : c ≠ 0) :
    exec (.capsule r) s = .next (((s.popFetched r).capRefused c none []).refuseDesc r d c) := by
  change execCapsule r s = _
  simp only [execCapsule, hd, h, hc, if_false]

/-- A CAPSULE that is no continuation starts its read where a buffer is free, else waits. -/
theorem State.capBegin_fresh {s : State} {r : Nat} (hres : capResume d.words = false) (hheld : (s.ring r).capHeld = none) :
    s.capBegin r d = s.startJob r d (if 0 < s.capFree then .running else .waiting) := by
  rw [State.capBegin, hres, if_neg Bool.false_ne_true]
  simp only [s.dropHeld_none hheld]

/-- A continuation takes over the bytes that its ring holds. -/
theorem State.capBegin_resume {s : State} {r : Nat} (hres : capResume d.words = true) : s.capBegin r d =
    ((s.setRing r { s.ring r with capHeld := none, capData := [] }).startJob r d .running).setJob (jobKey r d.idx)
      (some ⟨r, d.idx, d.words, .running, capWm (capOffset d.words), none, false, none, none, (s.ring r).capData⟩) := by
  rw [State.capBegin, if_pos hres]
  simp only [State.startJob, State.job_setJob_same]

theorem capsule_fresh (hd : s.dispatchable r 0x02 = some d) (hc : (s.popFetched r).capCheck r d.words = 0)
    (hres : capResume d.words = false) (hheld : (s.ring r).capHeld = none) : Gives (.capsule r) s fun t =>
      t.job (jobKey r d.idx) =
        some ⟨r, d.idx, d.words, if 0 < (s.popFetched r).capFree then .running else .waiting, Wm.zero, none, false, none, none, []⟩ ∧
      RegsSame s t ∧ MemSame s t := by
  have hpop : ((s.popFetched r).ring r).capHeld = none := by
    rw [State.popFetched, State.ring_setRing_same]
    exact hheld
  exact ⟨_, (exec_capsule_begins hd hc).trans (congrArg _ (State.capBegin_fresh hres hpop)), State.job_setJob_same _ _ _,
    State.setJob_still _ _ (s.popFetched_still r)⟩

theorem capsule_resumes (hd : s.dispatchable r 0x02 = some d) (hc : (s.popFetched r).capCheck r d.words = 0)
    (hres : capResume d.words = true) : Gives (.capsule r) s fun t =>
      t.job (jobKey r d.idx) = some ⟨r, d.idx, d.words, .running, capWm (capOffset d.words), none, false, none, none, (s.ring r).capData⟩ ∧
      (t.ring r).capHeld = none ∧ (t.ring r).capData = [] ∧ RegsSame s t ∧ MemSame s t := by
  have hdata : ((s.popFetched r).ring r).capData = (s.ring r).capData := by
    rw [State.popFetched, State.ring_setRing_same]
  have hring := (s.popFetched r).ring_setRing_same r { (s.popFetched r).ring r with capHeld := none, capData := [] }
  refine ⟨_, (exec_capsule_begins hd hc).trans (congrArg _ (State.capBegin_resume hres)), ?_, congrArg RingSt.capHeld hring,
    congrArg RingSt.capData hring,
    State.setJob_still _ _ (State.setJob_still _ _ (State.setRing_still _ _ (s.popFetched_still r)))⟩
  rw [State.job_setJob_same, hdata]

end

/-! ## The wait for a buffer (R148) -/

theorem exec_capsuleStart {r : Fin 4096} {s : State} {k : Nat} {j : Job} (h : s.capWaiting r = some (k, j)) (hfree : 0 < s.capFree) :
    exec (.capsuleStart r) s = .next (s.setJob k (some { j with phase := .running })) := by
  change execCapsuleStart r s = _
  simp only [execCapsuleStart, h, decide_eq_true hfree, State.when_true]

/-! ## The end of a read (R146 to R148, R496) -/

theorem exec_capsuleReadComplete (r : Fin 4096) (i : Word) (image : List Word) (s : State) :
    exec (.capsuleReadComplete r i image) s = .next (s.capRead (descKey r i) image) := rfl

/-- What the buffer of a CAPSULE holds once its read has brought in image bytes up to n. -/
def capImage (j : Job) (n : Nat) (image : List Word) : List Word := bytesWords (capBuf j n (wordsBytes image))

section
variable {s : State} {k : Nat} {j : Job} (image : List Word)

/-- A read with no stop pending ends with what the image's steps give. -/
theorem State.capRead_whole (hj : s.job k = some j) (hp : j.phase = .running) (hf : j.faulted = false) (hop : dOpcode j.words = 0x02)
    (hs : j.stop = none) :
    let n := capOffset j.words + capLen j.words
    s.capRead k image = match (s.capReads j n).image (capImage j n image) n with
      | (u, some (o, c)) => u.endJob k o c (if o = 0 then capWm n else Wm.zero)
      | (u, none) => u.setJob k (some { j with phase := .armed, set := some (imgSet (capImage j n image)), wm := capWm n }) := by
  simp only [State.capRead, hj, hp, hf, hop, hs, ne_eq, not_true, Bool.false_eq_true, or_self, if_false]
  rfl

/-- A stop that was pending ends the read at the next safe point. -/
theorem State.capRead_stopped {o c : Nat} (hj : s.job k = some j) (hp : j.phase = .running) (hf : j.faulted = false)
    (hop : dOpcode j.words = 0x02) (hs : j.stop = some (o, c)) :
    let m := capOffset j.words + pageStop (word64At j.words 6) (j.wm.bytes - capOffset j.words) (capLen j.words)
    s.capRead k image = (s.capFill k j m (wordsBytes image)).endJob k o c (capWm m) := by
  simp only [State.capRead, hj, hp, hf, hop, hs, ne_eq, not_true, Bool.false_eq_true, or_self, if_false]

end

/-- R146, step 2: an image whose CRC differs is refused before anything else is looked at. -/
theorem State.image_crcDiffers {s : State} {im : List Word} (n : Nat) (h : crc32c (wordsBytes (im.set 7 0)) ≠ wordAt im 7) :
    s.image im n = (s.capRefused 0xE007 none [], some (3, 0xE007)) := by
  have hparse : imgParse im n = .error 0xE007 := if_pos h
  simp only [State.image, hparse]

/-- R148: a buffer that holds the bytes up to the watermark takes what is read behind them. -/
theorem capBuf_append {j : Job} {n : Nat} {data : List Byte} (hb : j.buf.length = j.wm.bytes) (hn : j.wm.bytes ≤ n)
    (hd : data.length = n - j.wm.bytes) : capBuf j n data = j.buf ++ data := by
  have hheld : (j.buf ++ List.replicate (j.wm.bytes - j.buf.length) 0).take j.wm.bytes = j.buf := by
    rw [hb, Nat.sub_self, List.replicate_zero, List.append_nil, ← hb, List.take_length]
  have hlen : (j.buf ++ data).length = n := by
    rw [List.length_append, hb, hd]
    omega
  simp only [capBuf, hheld, hlen, Nat.sub_self, List.replicate_zero, List.append_nil]
  rw [← hlen, List.take_length]

/-- Settles O31: the dispatch, the start of a waiting CAPSULE, the end of a read, the buffer, and the held image. -/
theorem capsuleLife : Obligations.CapsuleLife := by
  refine ⟨fun r s d hd => ⟨fun hc hres hheld => capsule_fresh hd hc hres hheld, fun hc hres => capsule_resumes hd hc hres,
      fun hc => exec_capsule_begins hd hc, fun c h hc => exec_capsule_refused hd h hc⟩,
    fun r s k j h hfree => exec_capsuleStart h hfree,
    fun r i image s j hj hp hf hop hs => ?read,
    fun r i image s j o c hj hp hf hop hs =>
      (exec_capsuleReadComplete r i image s).trans (congrArg _ (State.capRead_stopped image hj hp hf hop hs)),
    fun j n m data hb hn hd hm => ⟨capBuf_append hb hn hd, ?keeps⟩,
    fun s j o w _ hop ho hp hw => State.holdImage_ring hop ho hp hw,
    fun r s n h => (exec_capsuleHoldExpired r s).trans (congrArg _ (State.dropHeld_held h))⟩
  case read =>
    have hread := (exec_capsuleReadComplete r i image s).trans (congrArg _ (State.capRead_whole image hj hp hf hop hs))
    refine ⟨fun u o c himage => ?_, fun u himage => ?_, fun hcrc => ?_⟩
    · rw [hread, capImage, himage]
    · rw [hread, capImage, himage]
    · rw [hread, capImage, State.image_crcDiffers _ hcrc]
      rfl
  case keeps =>
    rw [capBuf_append hb hn hd, List.take_append_of_le_length (by omega)]

end Sys2Proof.Machine
end

section
/-!
PROOFS. Tasks of the schedulers (R156 to R169): the dispatch of TASK_SUBMIT and TASK_CANCEL and what a cancel does to a task, wakes,
starts and ends of tasks, the commands of a consumer's registers, deadlines, and the revocation of a queue.
-/
namespace Sys2Proof.Machine

/-! ## Task entries and delay lists -/

theorem State.task_setTask_same (s : State) (d t : Nat) (x : Task) : (s.setTask d t x).task d t = x :=
  mapGet_set_same _ s.sch.tasks _ x

theorem State.delayList_setDelay_same (s : State) (d l : Nat) (ts : List Nat) : (s.setDelay d l ts).delayList d l = ts :=
  mapGet_set_same _ s.sch.delay _ ts

theorem State.task_setDelay (s : State) (d l : Nat) (ts : List Nat) (e t : Nat) : (s.setDelay d l ts).task e t = s.task e t := rfl

/-- R159: a sorted insertion puts the task among those that wait, and moves none out. -/
theorem State.sortIn_perm (s : State) (d l w t : Nat) (us : List Nat) : (s.sortIn d l w t us).Perm (t :: us) := by
  induction us with
  | nil => exact .refl _
  | cons u us ih =>
    unfold State.sortIn
    split
    · exact .refl _
    · exact (ih.cons u).trans (.swap t u us)

theorem State.task_wr (s : State) (f : Fld) (v d t : Nat) : (s.wr f v).task d t = s.task d t := by
  simp only [State.task, State.wr_sch]

theorem State.task_refill (s : State) (d b e t : Nat) : (s.refill d b).task e t = s.task e t := rfl

theorem State.reg_refill (s : State) (d b a : Nat) : (s.refill d b).reg a = s.reg a := by
  simp only [State.reg, State.refill_variant, State.refill_regs]

theorem State.rd_refill (s : State) (d b : Nat) (f : Fld) : (s.refill d b).rd f = s.rd f := by
  simp only [State.rd, State.reg_refill]

theorem State.reg_withSch (s : State) (c : Sched) (a : Nat) : ({ s with sch := c } : State).reg a = s.reg a := rfl

theorem State.reg_setTask (s : State) (d t : Nat) (x : Task) (a : Nat) : (s.setTask d t x).reg a = s.reg a := by
  simp only [State.reg, State.setTask_variant, State.setTask_regs]

theorem State.setCur_cycle (s : State) (d k : Nat) (t : Option Nat) : (s.setCur d k t).cycle = s.cycle := by
  simp only [State.setCur, State.wr_cycle]

theorem State.setNext_cycle (s : State) (d k : Nat) (t : Option Nat) : (s.setNext d k t).cycle = s.cycle := by
  simp only [State.setNext, State.wr_cycle]

/-- What a read returns is no register. -/
theorem Only.withRdata {as : List Nat} {s t : State} (h : Only as s t) (v : Word) : Only as { s with rdata := v } { t with rdata := v } :=
  ⟨h.1, by rw [OnlyRegs, h.2]⟩

/-- The schedulers' tables are neither registers nor memory. -/
theorem State.sch_still {s t : State} (c : Sched) (h : RegsSame s t ∧ MemSame s t) :
    RegsSame s { t with sch := c } ∧ MemSame s { t with sch := c } := h

/-! ## The dispatch of a descriptor (R97) -/

/-- A word whose bits from `lo` up are zero has none under a mask of ones from `lo` up. -/
theorem and_onesFrom_eq_zero {w : Word} {lo : Nat} (h : getBits w lo (32 - lo) = 0) : w &&& BitVec.allOnes 32 <<< lo = 0 := by
  have hhigh : w >>> lo = 0#32 := by
    apply BitVec.eq_of_toNat_eq
    have hlt : w.toNat / 2 ^ lo < 2 ^ (32 - lo) := by
      rw [Nat.div_lt_iff_lt_mul (Nat.two_pow_pos _), ← Nat.pow_add]
      exact Nat.lt_of_lt_of_le w.isLt (Nat.pow_le_pow_right (by decide) (by omega))
    rw [BitVec.toNat_ushiftRight, Nat.shiftRight_eq_div_pow, ← Nat.mod_eq_of_lt hlt]
    exact h
  rw [← BitVec.shiftLeft_ushiftRight, hhigh, BitVec.zero_shiftLeft]
  rfl

/-- The reserved bits of a body are zero: from bit `m` of word 6, from bit `n` of word 7, and words `i` to `j`. -/
theorem reserved_zero {ws : List Word} {m n i j : Nat} (h6 : fieldAt ws 6 m (32 - m) = 0) (h7 : fieldAt ws 7 n (32 - n) = 0)
    (hbody : ∀ k, i ≤ k → k ≤ j → ws.getD k 0 = 0) :
    ([(6, BitVec.allOnes 32 <<< m), (7, BitVec.allOnes 32 <<< n)] ++ bodyZero i j).any (fun (k, x) => ws.getD k 0 &&& x != 0) = false := by
  rw [List.any_eq_false]
  intro p hp
  simp only [bne_iff_ne, Decidable.not_not]
  rcases List.mem_append.1 hp with hp | hp
  · rcases List.mem_cons.1 hp with rfl | hp
    · exact and_onesFrom_eq_zero h6
    · obtain rfl := List.mem_singleton.1 hp
      exact and_onesFrom_eq_zero h7
  · obtain ⟨k, hk, rfl⟩ := List.mem_map.1 hp
    have hlt := List.mem_range.1 hk
    rw [hbody (i + k) (by omega) (by omega)]
    exact BitVec.zero_and

section
variable {s : State} {r op : Nat} {masks : List (Nat × Word)} {check : State → Desc → Nat} {work : State → Desc → State} {x : Desc}
  (hd : s.dispatchable r op = some x) (hres : masks.any (fun (k, m) => x.words.getD k 0 &&& m != 0) = false)
include hd hres

theorem State.dispatch_works (hc : check (s.popFetched r) x = 0) : s.dispatch r op masks check work = work (s.popFetched r) x := by
  simp only [State.dispatch, hd, hres, hc, Bool.false_eq_true, if_false, if_true]

theorem State.dispatch_refuses {c : Nat} (h : check (s.popFetched r) x = c) (hc : c ≠ 0) :
    s.dispatch r op masks check work = (s.popFetched r).refuseDesc r x c := by
  simp only [State.dispatch, hd, hres, h, hc, Bool.false_eq_true, if_false]

end

/-! ## TASK_SUBMIT (R156, R157, R166) -/

/-- The checks of a submission look at nothing that the taking of its descriptor changes. -/
theorem State.submitCheck_popFetched (s : State) (r : Nat) (x : Desc) : (s.popFetched r).submitCheck x = s.submitCheck x := rfl

/-- The entry of an accepted submission that waits for its wake. -/
def State.delayedEntry (s : State) (d r : Nat) (x : Desc) : Task :=
  { Task.idle with
    state := 1, level := subLevel x.words, dlist := subDlist x.words, desc := true, dtl := dTl x.words, queue := subQueue x.words
    epoch := s.rd (F.SCH_Qq_STATUS_EPOCH d (subQueue x.words)), wake := subWake x.words, deadline := dDeadline x.words
    words := x.words, arg0 := x.words.getD 10 0, arg1 := x.words.getD 11 0, ring := r, idx := x.idx, htag := dTag x.words
    nocpl := dNocpl x.words, stream := dStream x.words }

theorem State.submit_later {s : State} {d : Nat} (r : Nat) {x : Desc} (hsch : s.schedOf (dTarget x.words) = some d)
    (hw : s.wakeLater d (subDlist x.words) (subWake x.words) = true) :
    let u := s.setTask d (subTask x.words) (s.delayedEntry d r x)
    s.submit r x = u.setDelay d (subDlist x.words)
      (u.sortIn d (subDlist x.words) (subWake x.words) (subTask x.words) (s.delayList d (subDlist x.words))) := by
  simp only [State.submit, hsch, hw, if_true]
  rfl

section
variable {r : Fin 4096} {s : State} {x : Desc} (hd : s.dispatchable r 0x30 = some x) (h6 : fieldAt x.words 6 16 16 = 0)
  (h7 : fieldAt x.words 7 23 9 = 0) (hbody : ∀ i, 12 ≤ i → i ≤ 14 → x.words.getD i 0 = 0)
include hd h6 h7 hbody

theorem exec_taskSubmit_accepted (hc : s.submitCheck x = 0) : exec (.taskSubmit r) s = .next ((s.popFetched r).submit r x) :=
  congrArg Host.Outcome.next (State.dispatch_works hd (reserved_zero (m := 16) (n := 23) h6 h7 hbody) hc)

theorem exec_taskSubmit_refused (hc : s.submitCheck x ≠ 0) :
    exec (.taskSubmit r) s = .next ((s.popFetched r).refuseDesc r x (s.submitCheck x)) :=
  congrArg Host.Outcome.next (State.dispatch_refuses hd (reserved_zero (m := 16) (n := 23) h6 h7 hbody) (s.submitCheck_popFetched r x) hc)

theorem taskSubmit_delayed {d : Nat} (hc : s.submitCheck x = 0) (hsch : s.schedOf (dTarget x.words) = some d)
    (hw : s.wakeLater d (subDlist x.words) (subWake x.words) = true) : Gives (.taskSubmit r) s fun t =>
      t.task d (subTask x.words) = s.delayedEntry d r x ∧
      (t.delayList d (subDlist x.words)).Perm (subTask x.words :: s.delayList d (subDlist x.words)) ∧ RegsSame s t ∧ MemSame s t := by
  refine ⟨_, (exec_taskSubmit_accepted hd h6 h7 hbody hc).trans (congrArg _ (State.submit_later r hsch hw)), ?_, ?_,
    State.sch_still _ (State.sch_still _ (s.popFetched_still r))⟩
  · rw [State.task_setDelay, State.task_setTask_same]
    rfl
  · rw [State.delayList_setDelay_same]
    exact State.sortIn_perm _ _ _ _ _ _

end

/-! ## TASK_CANCEL (R163, R165, R167) -/

theorem exec_taskCancel_accepted {r : Fin 4096} {s : State} {x : Desc} {d : Nat} (hd : s.dispatchable r 0x31 = some x)
    (hc : s.cancelCheck x = 0) (hsch : s.schedOf (dTarget x.words) = some d) (h6 : fieldAt x.words 6 16 16 = 0)
    (h7 : fieldAt x.words 7 15 17 = 0) (hbody : ∀ i, 8 ≤ i → i ≤ 14 → x.words.getD i 0 = 0) :
    exec (.taskCancel r) s =
      .next (((s.popFetched r).complete r x.idx (dTag x.words) (dNocpl x.words) 0 0 Wm.zero).cancelTask d (subTask x.words)) := by
  have hdo : (s.popFetched r).doCancel r x =
      ((s.popFetched r).complete r x.idx (dTag x.words) (dNocpl x.words) 0 0 Wm.zero).cancelTask d (subTask x.words) := by
    have hsch' : (s.popFetched r).schedOf (dTarget x.words) = some d := hsch
    simp only [State.doCancel, hsch']
  exact congrArg Host.Outcome.next ((State.dispatch_works hd (reserved_zero (m := 16) (n := 15) h6 h7 hbody) hc).trans hdo)

section
variable {s : State} {d t : Nat}

theorem State.cancelTask_justStarted (h : s.justStarted (s.task d t) = true) : s.cancelTask d t = s.unstart d t := if_pos h

theorem State.cancelTask_running (hst : (s.task d t).state = 4) (hj : s.justStarted (s.task d t) = false) :
    s.cancelTask d t = s.setTask d t { s.task d t with creq := true } := by
  simp only [State.cancelTask, hj, hst, Bool.false_eq_true, if_false, if_true]

theorem State.cancelTask_waiting (hst : (s.task d t).state ≠ 4) (hlive : (s.task d t).live = true)
    (hj : s.justStarted (s.task d t) = false) : s.cancelTask d t =
      if (s.task d t).state = 5 ∨ s.justAnswered (s.task d t) = true then s.endTask d t 6 4 0 (s.task d t).wm
      else (s.inc (F.SCH_COUNT_A_CANCEL_UNRUN d)).endTask d t 6 4 0 Wm.zero := by
  simp only [State.cancelTask, hj, hst, hlive, Bool.false_eq_true, if_false, if_true]

end

/-! ## TASK_WAKE (R157, R159) -/

theorem exec_taskWake_due {d : Fin 8} {l : Fin 5} {s : State} {t : Nat} (h : s.dueWake d l = some t) :
    exec (.taskWake d l) s = .next ((s.wakeTask d l t).rowWoke d t) := by
  change execTaskWake d l s = _
  simp only [execTaskWake, h]

/-- Settles O32: submissions accepted and refused, cancels by the state of the task, and the wake. -/
theorem taskSubmission : Obligations.TaskSubmission :=
  ⟨fun _ _ _ _ hd hc hsch h6 h7 hbody => ⟨fun hw => taskSubmit_delayed hd h6 h7 hbody hc hsch hw,
      fun _ => ⟨_, exec_taskSubmit_accepted hd h6 h7 hbody hc, rfl⟩⟩,
    fun _ _ _ hd hc h6 h7 hbody => exec_taskSubmit_refused hd h6 h7 hbody hc,
    fun _ _ _ _ hd hc hsch h6 h7 hbody => exec_taskCancel_accepted hd hc hsch h6 h7 hbody,
    fun s d k hst hj => by
      rw [State.cancelTask_running hst hj]
      exact ⟨s.task_setTask_same d k _, rfl, rfl⟩,
    fun _ _ _ _ hj => State.cancelTask_justStarted hj,
    fun _ _ _ hst hlive hj => State.cancelTask_waiting hst hlive hj,
    fun _ _ _ _ h => exec_taskWake_due h⟩

/-! ## TASK_START (R157, R161, R165, R301) -/

theorem State.runningOn_of_empty {s : State} {d k : Nat} (h : s.curOf d k = none) : s.runningOn d k = none := by
  rw [State.runningOn, h, Option.filter_none]

theorem State.runningOn_of_prefetched {s : State} {d k t : Nat} (h : s.curOf d k = some t) (hst : (s.task d t).state = 3) :
    s.runningOn d k = none := by
  rw [State.runningOn, h, Option.filter_some, hst]
  rfl

/-- A consumer that ran nothing begins what it runs after the start. -/
theorem exec_taskStart_idle {d : Fin 8} {k : Fin 256} {s v : State} (h : s.runningOn d k = none) (hv : s.startTask d k = v) :
    exec (.taskStart d k) s = .next (match v.runningOn d k with | some t => v.taskBegins d k t | none => v) := by
  subst hv
  change execTaskStart d k s = _
  simp only [execTaskStart, h]
  cases (s.startTask d k).runningOn d k <;> rfl

section
variable {s : State} {d k t : Nat}

/-- The next slot of a native consumer moves to its current one. -/
theorem State.startTask_native (hcur : s.curOf d k = none) (hnext : s.nextOf d k = some t) (hstop : (s.task d t).stop = none)
    (hb : s.behind d t = false) :
    let u := (s.setCur d k (some t)).setNext d k none
    s.startTask d k = (u.setTask d t { u.task d t with state := 4, startAt := s.cycle + 1 }).refill d (u.taskBind d (u.task d t)) := by
  simp only [State.startTask, hcur, hnext, hstop, hb, Option.isSome_none, Bool.false_eq_true, if_false, State.setNext_cycle,
    State.setCur_cycle]

theorem State.startTask_stopping (hcur : s.curOf d k = none) (hnext : s.nextOf d k = some t) (hstop : (s.task d t).stop.isSome = true) :
    s.startTask d k = s := by
  simp only [State.startTask, hcur, hnext, hstop, if_true]

theorem State.startTask_behind (hcur : s.curOf d k = none) (hnext : s.nextOf d k = some t) (hstop : (s.task d t).stop = none)
    (hb : s.behind d t = true) : s.startTask d k = ((s.setNext d k none).joinHead d t).refill d (s.taskBind d (s.task d t)) := by
  simp only [State.startTask, hcur, hnext, hstop, hb, Option.isSome_none, Bool.false_eq_true, if_false, if_true]

/-- R162: the task in the slot of an Afhia consumer goes on to RUNNING, its interrupt drops, and the binding is looked at again. -/
def State.slotStarted (s : State) (d k t : Nat) : State :=
  ((s.setTask d t { s.task d t with state := 4, startAt := s.cycle + 1 }).wr (F.SCH_CONSk_STATUS_IRQ d k) 0).refill d
    (s.taskBind d (s.task d t))

theorem State.task_slotStarted (s : State) (d k t : Nat) :
    (s.slotStarted d k t).task d t = { s.task d t with state := 4, startAt := s.cycle + 1 } := by
  rw [State.slotStarted, State.task_refill, State.task_wr, State.task_setTask_same]

theorem State.rd_irq_slotStarted (s : State) (d k t : Nat) : (s.slotStarted d k t).rd (F.SCH_CONSk_STATUS_IRQ d k) = 0 := by
  rw [State.slotStarted, State.rd_refill, State.rd_wr_same _ (F.SCH_CONSk_STATUS_IRQ d k) _ (by decide : 3 + 1 ≤ 32), Nat.zero_mod]

theorem State.only_slotStarted (s : State) (d k t : Nat) :
    Only [R.SCH_CONSk_STATUS d k] { s with sch := (s.slotStarted d k t).sch } (s.slotStarted d k t) := by
  refine ⟨fun a ha _ => ?_, rfl⟩
  rw [State.slotStarted, State.reg_refill, State.reg_wr_ne _ _ _ (List.ne_of_not_mem_cons ha), State.reg_setTask]
  exact (s.reg_withSch _ a).symm

theorem State.startTask_slot (hcur : s.curOf d k = some t) (ha : s.afhia d k = true) (hhw : consHw d k = true)
    (hst : (s.task d t).state = 3) (hstop : (s.task d t).stop = none) : s.startTask d k = s.slotStarted d k t := by
  simp only [State.startTask, hcur]
  exact if_pos ⟨ha, hhw, hst, hstop⟩

end

/-! ## The read of SCH_CONSk_TAKE (R162) -/

theorem exec_schConsTake (d : Fin 8) (k : Fin 256) (s : State) : exec (.schConsTake d k) s = .next (s.takeRead d k) := rfl

theorem State.takeRead_takes {s : State} {d k t : Nat} (hcur : s.curOf d k = some t) (ha : s.afhia d k = true)
    (hst : (s.task d t).state = 3) (hstop : (s.task d t).stop = none) :
    s.takeRead d k = { s.slotStarted d k t with rdata := BitVec.ofNat 32 (t + 65536) } := by
  simp only [State.takeRead, hcur]
  exact if_pos ⟨ha, hst, hstop⟩

theorem exec_schConsTake_takes {d : Fin 8} {k : Fin 256} {s : State} {t : Nat} (hcur : s.curOf d k = some t) (ha : s.afhia d k = true)
    (hst : (s.task d t).state = 3) (hstop : (s.task d t).stop = none) :
    exec (.schConsTake d k) s = .next { s.slotStarted d k t with rdata := BitVec.ofNat 32 (t + 65536) } :=
  (exec_schConsTake d k s).trans (congrArg _ (State.takeRead_takes hcur ha hst hstop))

theorem State.takeRead_nothing {s : State} {d k : Nat}
    (h : ∀ t, s.curOf d k = some t → s.afhia d k = false ∨ (s.task d t).state ≠ 3 ∨ (s.task d t).stop.isSome = true) :
    s.takeRead d k = { s with rdata := 0 } := by
  cases hcur : s.curOf d k with
  | none => simp only [State.takeRead, hcur]
  | some t =>
    have hno : ¬(s.afhia d k = true ∧ (s.task d t).state = 3 ∧ (s.task d t).stop = none) := by
      rintro ⟨ha, hst, hstop⟩
      simpa [ha, hst, hstop] using h t hcur
    simp only [State.takeRead, hcur]
    exact if_neg hno

/-- A read that answers w and leaves v: what holds of v's task, interrupt and registers holds of the state after the read. -/
theorem schConsTake_answers {d : Fin 8} {k : Fin 256} {s v : State} {t : Nat} {w : Word} {x : Task}
    (hstep : exec (.schConsTake d k) s = .next { v with rdata := w }) (htask : v.task d t = x)
    (hirq : v.rd (F.SCH_CONSk_STATUS_IRQ d k) = 0) (honly : Only [R.SCH_CONSk_STATUS d k] { s with sch := v.sch } v) :
    Gives (.schConsTake d k) s fun u => u.rdata = w ∧ u.task d t = x ∧ u.rd (F.SCH_CONSk_STATUS_IRQ d k) = 0 ∧
      Only [R.SCH_CONSk_STATUS d k] { s with rdata := u.rdata, sch := u.sch } u :=
  ⟨_, hstep, rfl, htask, hirq, honly.withRdata w⟩

theorem schConsTake_gives {d : Fin 8} {k : Fin 256} {s : State} {t : Nat} (hcur : s.curOf d k = some t) (ha : s.afhia d k = true)
    (hst : (s.task d t).state = 3) (hstop : (s.task d t).stop = none) : Gives (.schConsTake d k) s fun u =>
      u.rdata = BitVec.ofNat 32 (t + 65536) ∧ u.task d t = { s.task d t with state := 4, startAt := s.cycle + 1 } ∧
      u.rd (F.SCH_CONSk_STATUS_IRQ d k) = 0 ∧ Only [R.SCH_CONSk_STATUS d k] { s with rdata := u.rdata, sch := u.sch } u :=
  schConsTake_answers (exec_schConsTake_takes hcur ha hst hstop) (s.task_slotStarted d k t) (s.rd_irq_slotStarted d k t)
    (s.only_slotStarted d k t)

/-! ## The end of a running task (R121, R157, R168) -/

theorem endWm_other {x : Task} (o : Nat) (wm : Wm) (h : dOpcode x.words ≠ 0x20) : endWm x o wm = wm := if_neg h

theorem endWm_decode {x : Task} (o : Nat) (wm : Wm) (h : dOpcode x.words = 0x20) : endWm x o wm =
    let n := fieldAt x.words 8 0 25
    let b := if o = 0 then n else min n (max x.wm.bytes wm.bytes)
    ⟨max x.wm.rows wm.rows, b, b, if o = 0 then n else max x.wm.retry (min wm.retry b)⟩ := if_pos h

/-- R121: decode input ends within its bytes, and with DONE at the end of them. -/
theorem endWm_decode_bounds {x : Task} (o : Nat) (wm : Wm) (h : dOpcode x.words = 0x20) :
    (endWm x o wm).bytes ≤ fieldAt x.words 8 0 25 ∧ (endWm x o wm).lastOff = (endWm x o wm).bytes ∧
    (o = 0 → (endWm x o wm).bytes = fieldAt x.words 8 0 25 ∧ (endWm x o wm).retry = fieldAt x.words 8 0 25) := by
  rw [endWm_decode o wm h]
  refine ⟨?_, rfl, fun ho => ⟨if_pos ho, if_pos ho⟩⟩
  dsimp only
  split
  · exact Nat.le_refl _
  · exact Nat.min_le_left _ _

/-- The state after a consumer's end of the task that it runs. -/
theorem State.consEnds_running {s : State} {d k t : Nat} (o c : Nat) (wm : Wm) (h : s.runningOn d k = some t) :
    s.consEnds d k o c wm =
      (s.decReads (s.task d t) (endWm (s.task d t) o wm).bytes).endTask d t 7 o c (endWm (s.task d t) o wm) := by
  simp only [State.consEnds, h]

theorem exec_taskEnd_running {d : Fin 8} {k : Fin 256} {s : State} {t : Nat} (o : Fin 3) (c : Fin 65536) (wm : Wm)
    (hhw : consHw d k = true) (h : s.runningOn d k = some t) :
    let w := endWm (s.task d t) o wm
    let u := (s.decReads (s.task d t) w.bytes).endTask d t 7 o c w
    let x := u.task d t
    exec (.taskEnd d k o c wm) s =
      .next (if k = 12 ∧ d ≠ 0 ∧ x.desc = true ∧ dOpcode x.words = 0x20 then u.decTaskEnd d x (o == 0) else u) := by
  change execTaskEnd d k o c wm s = _
  simp only [execTaskEnd, hhw, State.when_true, h, State.consEnds_running o c wm h]

theorem exec_schConsEnd (d : Fin 8) (k : Fin 256) (v : Word) (s : State) : exec (.schConsEnd d k v) s = .next (s.endWrite d k v) := rfl

theorem State.endWrite_refused {s : State} {d k : Nat} {v : Word} (h : 2 < getBits v 0 4 ∨ consHw d k = true ∨ s.runningOn d k = none) :
    s.endWrite d k v = s.refuse (pSch d) [R.SCH_STATUS d] 0xC011 (R.SCH_CONSk_END d k) :=
  if_pos (by rwa [Option.isNone_iff_eq_none])

theorem State.endWrite_ends {s : State} {d k t : Nat} {v : Word} (ho : getBits v 0 4 ≤ 2) (hhw : consHw d k = false)
    (h : s.runningOn d k = some t) : s.endWrite d k v = s.consEnds d k (getBits v 0 4) (getBits v 16 16) (s.consWm d k) :=
  if_neg (by simp [h, hhw, ho])

theorem recReg_schStatus (d : Nat) : recReg (R.SCH_STATUS d) = false := by
  have hoff : R.SCH_STATUS d % 0x4000000 = 0x300000 := by
    unfold R.SCH_STATUS dieBase
    omega
  rw [recReg, hoff]
  rfl

theorem schConsEnd_refused {d : Fin 8} {k : Fin 256} {v : Word} {s : State}
    (h : 2 < getBits v 0 4 ∨ consHw d k = true ∨ s.runningOn d k = none) : Gives (.schConsEnd d k v) s fun u =>
      u.rd (F.SCH_STATUS_REASON d) = 0xC011 ∧ Only [R.SCH_STATUS d] s u :=
  ⟨_, (exec_schConsEnd d k v s).trans (congrArg _ (State.endWrite_refused h)),
    s.rd_refuse_mem _ 0xC011 _ (List.mem_singleton_self _) (recReg_schStatus d), only_refuse s _ _ _ _⟩

/-! ## The write of SCH_CONSk_WM3 (R162, R168) -/

/-- A watermark says nothing of what a consumer runs. -/
theorem State.runningOn_wr_wm3 (s : State) (d k v : Nat) : (s.wr (F.SCH_CONSk_WM_WM d k 3) v).runningOn d k = s.runningOn d k := by
  have hne : R.SCH_CONSk_CUR d k ≠ R.SCH_CONSk_WM d k 3 := by
    unfold R.SCH_CONSk_CUR R.SCH_CONSk_WM
    omega
  have hon : (s.wr (F.SCH_CONSk_WM_WM d k 3) v).on (F.SCH_CONSk_CUR_VALID d k) = s.on (F.SCH_CONSk_CUR_VALID d k) :=
    congrArg (· == 1) (s.rd_setReg_ne _ hne)
  have htask : (s.wr (F.SCH_CONSk_WM_WM d k 3) v).rd (F.SCH_CONSk_CUR_TASK d k) = s.rd (F.SCH_CONSk_CUR_TASK d k) := s.rd_setReg_ne _ hne
  have hcur : (s.wr (F.SCH_CONSk_WM_WM d k 3) v).curOf d k = s.curOf d k := by
    unfold State.curOf
    rw [hon, htask]
  simp only [State.runningOn, hcur, State.task_wr]

theorem exec_schConsWm3 (d : Fin 8) (k : Fin 256) (v : Word) (s : State) : exec (.schConsWm3 d k v) s = .next (s.wm3Write d k v) := rfl

theorem State.wm3Write_records {s : State} {d k : Nat} {v : Word} (h : s.runningOn d k = none ∨ consHw d k = true) :
    s.wm3Write d k v = s.wr (F.SCH_CONSk_WM_WM d k 3) v.toNat := by
  rw [State.wm3Write, State.runningOn_wr_wm3]
  cases hrun : s.runningOn d k with
  | none => rfl
  | some t => exact if_pos (h.resolve_left (by simp [hrun]))

theorem State.wm3Write_safePoint {s : State} {d k t : Nat} {v : Word} (h : s.runningOn d k = some t) (hhw : consHw d k = false) :
    let a := s.wr (F.SCH_CONSk_WM_WM d k 3) v.toNat
    s.wm3Write d k v = a.taskSafe d t (a.consWm d k) := by
  rw [State.wm3Write, State.runningOn_wr_wm3, h]
  exact if_neg (by simp [hhw])

theorem schConsWm3_records {d : Fin 8} {k : Fin 256} {v : Word} {s : State} (h : s.runningOn d k = none ∨ consHw d k = true) :
    Gives (.schConsWm3 d k v) s fun u =>
      u.rd (F.SCH_CONSk_WM_WM d k 3) = v.toNat ∧ Only [(F.SCH_CONSk_WM_WM d k 3).reg] s u := by
  refine ⟨_, (exec_schConsWm3 d k v s).trans (congrArg _ (State.wm3Write_records h)), ?_, only_wr s _ _⟩
  exact (s.rd_wr_same (F.SCH_CONSk_WM_WM d k 3) v.toNat (by decide : 0 + 32 ≤ 32)).trans (Nat.mod_eq_of_lt v.isLt)

/-! ## TASK_DEADLINE (R118, R164, R165, R496) -/

theorem exec_taskDeadline (d : Fin 8) (t : Fin 65536) (s : State) : exec (.taskDeadline d t) s = .next (s.taskDeadline d t) := rfl

section
variable {s : State} {d : Fin 8} {t : Fin 65536}

theorem State.taskDeadline_reached (hlive : (s.task d t).live = true) (hd : (s.task d t).deadline ≠ 0)
    (hr : s.reachedOn (s.task d t).dtl (s.task d t).deadline = true) : s.taskDeadline d t = s.dueStop (.task d t) 2
      (if (s.task d t).state = 5 then 0xA805
      else if (s.task d t).state = 4 ∧ dOpcode (s.task d t).words = 0x20 then 0xB011 else 0xC009) := by
  rw [← taskWork_val]
  exact if_neg (by simp [hlive, hd, hr])

theorem Task.live_of_running {x : Task} (h : x.state = 4) : x.live = true := by
  simp [Task.live, h]

variable (o c : Nat) (hlive : (s.task d t).live = true) (hstop : (s.task d t).stop = none)
include hlive hstop

theorem State.dueStop_task_running (hst : (s.task d t).state = 4) :
    s.dueStop (.task d t) o c = s.setTask d t { s.task d t with stop := some (o, c), stopAt := s.cycle } := by
  simp [State.dueStop, State.stopTask, hlive, hstop, hst]

theorem State.dueStop_task_waiting (hst : (s.task d t).state ≠ 4) :
    let u := s.setTask d t { s.task d t with stop := some (o, c), stopAt := s.cycle }
    s.dueStop (.task d t) o c = { u with sch := { u.sch with due := u.sch.due ++ [.task d t] } } := by
  simp [State.dueStop, hlive, hstop, hst]

end

theorem exec_taskDeadline_running {d : Fin 8} {t : Fin 65536} {s : State} (hst : (s.task d t).state = 4)
    (hstop : (s.task d t).stop = none) (hd : (s.task d t).deadline ≠ 0)
    (hr : s.reachedOn (s.task d t).dtl (s.task d t).deadline = true) : exec (.taskDeadline d t) s =
      .next (s.setTask d t { s.task d t with
        stop := some (2, if dOpcode (s.task d t).words = 0x20 then 0xB011 else 0xC009), stopAt := s.cycle }) := by
  have hlive := Task.live_of_running hst
  rw [exec_taskDeadline, State.taskDeadline_reached hlive hd hr, State.dueStop_task_running _ _ hlive hstop hst]
  simp [hst]

theorem exec_taskDeadline_waiting {d : Fin 8} {t : Fin 65536} {s : State} (hlive : (s.task d t).live = true)
    (hst : (s.task d t).state ≠ 4) (hstop : (s.task d t).stop = none) (hd : (s.task d t).deadline ≠ 0)
    (hr : s.reachedOn (s.task d t).dtl (s.task d t).deadline = true) :
    let u := s.setTask d t { s.task d t with stop := some (2, if (s.task d t).state = 5 then 0xA805 else 0xC009), stopAt := s.cycle }
    exec (.taskDeadline d t) s = .next { u with sch := { u.sch with due := u.sch.due ++ [taskWork d t] } } := by
  rw [exec_taskDeadline, State.taskDeadline_reached hlive hd hr, State.dueStop_task_waiting _ _ hlive hstop hst, taskWork_val]
  simp only [hst, false_and, if_false]

/-! ## The revocation of a queue (R164, R169) -/

theorem exec_schQueueRevoke {d : Fin 8} {q : Fin 32768} {s : State} (hq : q < queueCount d) :
    exec (.schQueueRevoke d q) s = .next (s.queueRevoke d q) :=
  congrArg Host.Outcome.next (if_pos ⟨by decide, hq⟩)

/-- Where a queue has no live task and no ring holds it, its epoch alone moves. -/
theorem State.queueRevoke_idle {s : State} {d q : Nat} (hlive : s.queueLive d q = []) (hring : s.rd (F.SCH_Qq_STATUS_RING 0 q) = 0) :
    s.queueRevoke d q = s.incWrap (F.SCH_Qq_STATUS_EPOCH d q) := by
  have hlive' : (s.incWrap (F.SCH_Qq_STATUS_EPOCH d q)).queueLive d q = [] := by
    rw [← hlive, State.queueLive, State.liveTasks, State.sch_incWrap]
    rfl
  have hnot : ¬(d = 0 ∧ (s.incWrap (F.SCH_Qq_STATUS_EPOCH d q)).on (F.SCH_Qq_STATUS_RING 0 q) = true) := by
    rintro ⟨rfl, hon⟩
    have hsame : (s.incWrap (F.SCH_Qq_STATUS_EPOCH 0 q)).rd (F.SCH_Qq_STATUS_RING 0 q) = s.rd (F.SCH_Qq_STATUS_RING 0 q) :=
      s.rd_incWrap_apart (by decide : 16 + 8 ≤ 32) (.inr (.inl (by decide : 16 + 8 ≤ 24)))
    rw [State.on, hsame, hring] at hon
    exact absurd hon (by decide)
  simp only [State.queueRevoke, hlive', List.map_nil, List.foldl_nil]
  exact if_neg hnot

theorem schQueueRevoke_idle {d : Fin 8} {q : Fin 32768} {s : State} (hq : q < queueCount d) (hlive : s.queueLive d q = [])
    (hring : s.rd (F.SCH_Qq_STATUS_RING 0 q) = 0) : Gives (.schQueueRevoke d q) s fun u =>
      u.rd (F.SCH_Qq_STATUS_EPOCH d q) = (s.rd (F.SCH_Qq_STATUS_EPOCH d q) + 1) % 2 ^ (F.SCH_Qq_STATUS_EPOCH d q).width ∧
      Only [R.SCH_Qq_STATUS d q] s u :=
  ⟨_, (exec_schQueueRevoke hq).trans (congrArg _ (State.queueRevoke_idle hlive hring)),
    s.rd_incWrap_same (F.SCH_Qq_STATUS_EPOCH d q) (by decide : 16 + 8 ≤ 32), only_wr s (F.SCH_Qq_STATUS_EPOCH d q) _⟩

/-- Settles O33: starts, the read of TAKE, ends with their watermarks, the write of WM3, deadlines, and the revocation of a queue. -/
theorem taskExecution : Obligations.TaskExecution :=
  ⟨fun _ _ _ _ hcur hnext hstop hb =>
      exec_taskStart_idle (State.runningOn_of_empty hcur) (State.startTask_native hcur hnext hstop hb),
    fun _ _ _ _ hcur hnext hstop => by
      rw [exec_taskStart_idle (State.runningOn_of_empty hcur) (State.startTask_stopping hcur hnext hstop),
        State.runningOn_of_empty hcur],
    fun _ _ _ _ hcur hnext hstop hb => State.startTask_behind hcur hnext hstop hb,
    fun _ _ _ _ hcur ha hhw hst hstop =>
      exec_taskStart_idle (State.runningOn_of_prefetched hcur hst) (State.startTask_slot hcur ha hhw hst hstop),
    fun _ _ o c wm _ _ hhw hrun => exec_taskEnd_running o c wm hhw hrun,
    fun _ o wm hop => endWm_other o wm hop,
    fun _ o wm hop => endWm_decode_bounds o wm hop,
    fun _ _ _ _ hcur ha hst hstop => exec_schConsTake_takes hcur ha hst hstop,
    fun _ _ _ _ hcur ha hst hstop => schConsTake_gives hcur ha hst hstop,
    fun d k s h => (exec_schConsTake d k s).trans (congrArg _ (State.takeRead_nothing h)),
    fun d k v s _ ho hhw hrun => (exec_schConsEnd d k v s).trans
      (congrArg _ ((State.endWrite_ends ho hhw hrun).trans (State.consEnds_running _ _ _ hrun))),
    fun _ _ _ _ h => schConsEnd_refused h,
    fun _ _ _ _ h => schConsWm3_records h,
    fun d k v s _ hrun hhw => (exec_schConsWm3 d k v s).trans (congrArg _ (State.wm3Write_safePoint hrun hhw)),
    fun _ _ _ hst hstop hd hr => exec_taskDeadline_running hst hstop hd hr,
    fun _ _ _ hlive hst hstop hd hr => exec_taskDeadline_waiting hlive hst hstop hd hr,
    fun _ _ _ hq => exec_schQueueRevoke hq,
    fun _ _ _ hq hlive hring => schQueueRevoke_idle hq hlive hring⟩

end Sys2Proof.Machine
end

section
/-!
PROOFS. The flow table (R172 to R174, R489): the entries of a bucket, what an operation shows in FLOW_RESULT and FLOW_FILL, and the
operations ADD, REPLACE, DELETE and READ.
-/
namespace Sys2Proof.Machine

/-! ## Entries and buckets (R172) -/

theorem State.flow_setFlow_same (s : State) (i : Nat) (x : Option FlowEnt) : (s.setFlow i x).flow i = x :=
  mapGet_set_same _ s.ing.flows i x

theorem State.flow_setFlow_ne (s : State) {i j : Nat} (x : Option FlowEnt) (h : j ≠ i) : (s.setFlow i x).flow j = s.flow j :=
  mapGet_set_ne _ s.ing.flows x h

/-- The entry with a property, or the free way, that a search of a bucket finds has a 16-bit index. -/
theorem way_lt {b i : Nat} {p : Nat → Bool} (hb : b < 16384) (h : ((List.range 4).map fun w => b * 4 + w).find? p = some i) :
    i < 2 ^ 16 := by
  obtain ⟨w, hw, rfl⟩ := List.mem_map.1 (List.mem_of_find?_eq_some h)
  have := List.mem_range.1 hw
  omega

theorem bucketOf_lt (ws : List Word) : bucketOf ws < 16384 := Nat.mod_lt _ (by decide)

theorem State.noFreeWay {s : State} {b : Nat} (h : ∀ w : Fin 4, (s.flow (b * 4 + w)).isSome = true) :
    ((List.range 4).map fun w => b * 4 + w).find? (fun i => (s.flow i).isNone) = none := by
  refine List.find?_eq_none.2 fun i hi => ?_
  obtain ⟨w, hw, rfl⟩ := List.mem_map.1 hi
  rw [← Option.not_isSome, h ⟨w, List.mem_range.1 hw⟩]
  decide

/-! ## Frames over the tables of ingest -/

theorem Only.ing {as : List Nat} {s t : State} (h : Only as s t) : t.ing = s.ing := by rw [h.2]

theorem Only.flow {as : List Nat} {s t : State} (h : Only as s t) (i : Nat) : t.flow i = s.flow i :=
  congrArg (fun x : Ingest => mapGet (fun _ => none) x.flows i) h.ing

/-- A frame around an update of an entry, which the tables of ingest alone show. -/
theorem Only.of_setFlow {as : List Nat} {s t : State} {i : Nat} {x : Option FlowEnt} (h : Only as (s.setFlow i x) t) :
    t.flow i = x ∧ (∀ j, j ≠ i → t.flow j = s.flow j) ∧ Only as { s with ing := t.ing } t := by
  have hing : t.ing = (s.setFlow i x).ing := h.ing
  exact ⟨(h.flow i).trans (s.flow_setFlow_same i x), fun j hj => (h.flow j).trans (s.flow_setFlow_ne x hj), hing ▸ h⟩

/-- The same where a free value was drawn. -/
theorem Only.of_setFlow_tick {as : List Nat} {s t : State} {i : Nat} {x : Option FlowEnt} (h : Only as (s.setFlow i x).tick t) :
    t.flow i = x ∧ (∀ j, j ≠ i → t.flow j = s.flow j) ∧ Only as { s with ing := t.ing, freeCtr := t.freeCtr } t := by
  have hing : t.ing = (s.setFlow i x).ing := h.ing
  have hctr : t.freeCtr = s.freeCtr + 1 := by rw [h.2]; rfl
  refine ⟨(h.flow i).trans (s.flow_setFlow_same i x), fun j hj => (h.flow j).trans (s.flow_setFlow_ne x hj), ?_⟩
  rw [hing, hctr]
  exact h

/-! ## FLOW_RESULT and FLOW_FILL (R489) -/

theorem State.reason_flowFail (s : State) {code : Nat} (h : code < 2 ^ 16) : (s.flowFail code).rd F.FLOW_RESULT_REASON = code :=
  (s.rd_refuse_mem pIngest code R.FLOW_OP (List.mem_singleton_self _) (recReg_of_lt (by decide))).trans (Nat.mod_eq_of_lt h)

theorem only_flowFail (s : State) (code : Nat) : Only [R.FLOW_RESULT] s (s.flowFail code) := only_refuse s pIngest _ code R.FLOW_OP

/-- A command that answers with a failure of the flow table. -/
theorem flowFail_gives {c : Instr} {s : State} {code : Nat} (hc : code < 2 ^ 16) (h : exec c s = .next (s.flowFail code)) :
    Gives c s fun t => t.rd F.FLOW_RESULT_REASON = code ∧ Only [R.FLOW_RESULT] s t :=
  ⟨_, h, s.reason_flowFail hc, only_flowFail s code⟩

theorem State.reason_flowOk (s : State) : s.flowOk.rd F.FLOW_RESULT_REASON = 1 :=
  s.rd_wr_same F.FLOW_RESULT_REASON 1 (by decide : 16 + 16 ≤ 32)

theorem only_flowOk (s : State) : Only [R.FLOW_RESULT] s s.flowOk := only_wr s F.FLOW_RESULT_REASON 1

theorem State.index_flowOk (s : State) {i : Nat} (h : i < 2 ^ 16) : ((s.wr F.FLOW_RESULT_INDEX i).flowOk).rd F.FLOW_RESULT_INDEX = i :=
  calc ((s.wr F.FLOW_RESULT_INDEX i).flowOk).rd F.FLOW_RESULT_INDEX
    _ = (s.wr F.FLOW_RESULT_INDEX i).rd F.FLOW_RESULT_INDEX :=
      State.rd_wr_apart (f := F.FLOW_RESULT_REASON) _ 1 (by decide : 16 + 16 ≤ 32) (.inr (.inr (by decide : 0 + 16 ≤ 16)))
    _ = i % 2 ^ 16 := s.rd_wr_same F.FLOW_RESULT_INDEX i (by decide : 0 + 16 ≤ 32)
    _ = i := Nat.mod_eq_of_lt h

theorem only_indexOk (s : State) (i : Nat) : Only [R.FLOW_RESULT] s (s.wr F.FLOW_RESULT_INDEX i).flowOk :=
  (only_wr s F.FLOW_RESULT_INDEX i).trans (only_flowOk _)

theorem only_showFill (s : State) : Only [R.FLOW_FILL] s s.showFill := only_wr s F.FLOW_FILL_USED _

/-- FLOW_RESULT is not the register that shows the fill. -/
theorem State.result_showFill (s : State) {f : Fld} (h : f.reg = R.FLOW_RESULT) : s.showFill.rd f = s.rd f :=
  (only_showFill s).rd (by rw [h]; decide) (by rw [h]; exact recReg_of_lt (by decide))

theorem State.used_showFill (s : State) : s.showFill.rd F.FLOW_FILL_USED = s.showFill.ing.flows.length % 2 ^ 17 := by
  rw [(only_showFill s).ing]
  exact s.rd_wr_same F.FLOW_FILL_USED _ (by decide : 0 + 17 ≤ 32)

theorem only_okShowFill {s t : State} (h : Only [R.FLOW_RESULT] s t) : Only [R.FLOW_RESULT, R.FLOW_FILL] s t.showFill :=
  (h.mono (by simp)).trans ((only_showFill t).mono (by simp))

/-! ## ADD (R174) -/

section
variable {s : State} (hgood : flowBad s.flowStage = false)
include hgood

theorem State.flowAdd_free {i : Nat} (hkey : s.inBucket (bucketOf s.flowStage) (sameKey s.flowStage) = none)
    (hfree : ((List.range 4).map fun w => bucketOf s.flowStage * 4 + w).find? (fun i => (s.flow i).isNone) = some i) :
    s.flowAdd = (((s.setFlow i (some ⟨s.flowStage, s.free 3 % (flowBurst s.flowStage * 50000 + 1), s.cycle, none, 0, 0, 0⟩)).tick.wr
      F.FLOW_RESULT_INDEX i).flowOk).showFill := by
  simp only [State.flowAdd, hgood, hkey, hfree, Option.isSome_none, Bool.false_eq_true, if_false]

theorem flowAdd_free {i : Nat} (hkey : s.inBucket (bucketOf s.flowStage) (sameKey s.flowStage) = none)
    (hfree : ((List.range 4).map fun w => bucketOf s.flowStage * 4 + w).find? (fun i => (s.flow i).isNone) = some i) :
    Gives .flowAdd s fun t =>
      (∃ fill, t.flow i = some ⟨s.flowStage, fill, s.cycle, none, 0, 0, 0⟩ ∧ fill ≤ flowBurst s.flowStage * 50000) ∧
      (∀ j, j ≠ i → t.flow j = s.flow j) ∧ t.rd F.FLOW_RESULT_INDEX = i ∧ t.rd F.FLOW_RESULT_REASON = 1 ∧
      t.rd F.FLOW_FILL_USED = t.ing.flows.length % 2 ^ 17 ∧ Only [R.FLOW_RESULT, R.FLOW_FILL] { s with ing := t.ing, freeCtr := t.freeCtr } t := by
  refine ⟨s.flowAdd, rfl, ?_⟩
  rw [State.flowAdd_free hgood hkey hfree]
  obtain ⟨hentry, hothers, honly⟩ := (only_okShowFill (only_indexOk (s.setFlow i _).tick i)).of_setFlow_tick
  exact ⟨⟨_, hentry, Nat.le_of_lt_succ (Nat.mod_lt _ (Nat.succ_pos _))⟩, hothers,
    (State.result_showFill _ rfl).trans (State.index_flowOk _ (way_lt (bucketOf_lt _) hfree)),
    (State.result_showFill _ rfl).trans (State.reason_flowOk _), State.used_showFill _, honly⟩

theorem State.flowAdd_sameKey (hkey : (s.inBucket (bucketOf s.flowStage) (sameKey s.flowStage)).isSome = true) :
    s.flowAdd = s.flowFail 0x6011 := by
  simp only [State.flowAdd, hgood, hkey, Bool.false_eq_true, if_false, if_true]

theorem State.flowAdd_full (hkey : s.inBucket (bucketOf s.flowStage) (sameKey s.flowStage) = none)
    (hfull : ∀ w : Fin 4, (s.flow (bucketOf s.flowStage * 4 + w)).isSome = true) : s.flowAdd = s.flowFail 0x6010 := by
  simp only [State.flowAdd, hgood, hkey, State.noFreeWay hfull, Option.isSome_none, Bool.false_eq_true, if_false]

/-! ## REPLACE (R174) -/

theorem State.flowReplace_found {i : Nat} {e : FlowEnt} (hkey : s.inBucket (bucketOf s.flowStage) (sameKey s.flowStage) = some i)
    (he : s.flow i = some e) (hfixed : s.flowInUse i e.words = false ∨ flowFixed e.words = flowFixed s.flowStage) :
    s.flowReplace = ((s.setFlow i (some { e with
      words := s.flowStage, fill := min (s.filled e) (flowBurst s.flowStage * 50000), filledAt := s.cycle })).wr F.FLOW_RESULT_INDEX i).flowOk := by
  have hallowed : ¬(s.flowInUse i e.words = true ∧ flowFixed e.words ≠ flowFixed s.flowStage) := by
    rintro ⟨huse, hne⟩
    rcases hfixed with h | h
    · simp [h] at huse
    · exact hne h
  simp only [State.flowReplace, hgood, hkey, he, hallowed, Bool.false_eq_true, if_false]

theorem flowReplace_found {i : Nat} {e : FlowEnt} (hkey : s.inBucket (bucketOf s.flowStage) (sameKey s.flowStage) = some i)
    (he : s.flow i = some e) (hfixed : s.flowInUse i e.words = false ∨ flowFixed e.words = flowFixed s.flowStage) :
    Gives .flowReplace s fun t =>
      t.flow i = some { e with words := s.flowStage, fill := min (s.filled e) (flowBurst s.flowStage * 50000), filledAt := s.cycle } ∧
      (∀ j, j ≠ i → t.flow j = s.flow j) ∧ t.rd F.FLOW_RESULT_INDEX = i ∧ t.rd F.FLOW_RESULT_REASON = 1 ∧
      Only [R.FLOW_RESULT] { s with ing := t.ing } t := by
  refine ⟨s.flowReplace, rfl, ?_⟩
  rw [State.flowReplace_found hgood hkey he hfixed]
  obtain ⟨hentry, hothers, honly⟩ := (only_indexOk (s.setFlow i _) i).of_setFlow
  exact ⟨hentry, hothers, State.index_flowOk _ (way_lt (bucketOf_lt _) hkey), State.reason_flowOk _, honly⟩

end

theorem State.flowAdd_bad {s : State} (hbad : flowBad s.flowStage = true) : s.flowAdd = s.flowFail 0x6013 := by
  simp only [State.flowAdd, hbad, if_true]

/-! ## DELETE (R174) -/

theorem flowDelete_unused {s : State} {i : Fin 65536} {e : FlowEnt} (he : s.flow i = some e) (huse : s.flowInUse i e.words = false) :
    Gives (.flowDelete i) s fun t => t.flow i = none ∧ (∀ j, j ≠ i.val → t.flow j = s.flow j) ∧
      t.rd F.FLOW_RESULT_REASON = 1 ∧ Only [R.FLOW_RESULT, R.FLOW_FILL] { s with ing := t.ing } t := by
  refine ⟨s.flowDelete i, rfl, ?_⟩
  have hdel : s.flowDelete i = (s.setFlow i none).flowOk.showFill := by
    simp only [State.flowDelete, he, huse, Bool.false_eq_true, if_false]
  rw [hdel]
  obtain ⟨hentry, hothers, honly⟩ := (only_okShowFill (only_flowOk (s.setFlow i none))).of_setFlow
  exact ⟨hentry, hothers, (State.result_showFill _ rfl).trans (State.reason_flowOk _), honly⟩

theorem State.flowDelete_used {s : State} {i : Nat} {e : FlowEnt} (he : s.flow i = some e) (huse : s.flowInUse i e.words = true) :
    s.flowDelete i = s.flowFail 0x6012 := by
  simp only [State.flowDelete, he, huse, if_true]

theorem State.flowDelete_empty {s : State} {i : Nat} (he : s.flow i = none) : s.flowDelete i = s.flowFail 0x6014 := by
  simp only [State.flowDelete, he]

/-! ## READ (R174) -/

theorem State.flowRead_empty {s : State} {i : Nat} (he : s.flow i = none) : s.flowRead i = s.flowFail 0x6014 := by
  simp only [State.flowRead, he]

theorem State.forRange_succ (s : State) (n : Nat) (f : Nat → State → State) : s.forRange (n + 1) f = f n (s.forRange n f) := by
  simp only [State.forRange, List.range_succ, List.foldl_append, List.foldl_cons, List.foldl_nil]

/-- Writing a row of registers puts each word in its own. -/
theorem State.reg_forRange_setReg (s : State) {r : Nat → Nat} (hr : Function.Injective r) (v : Nat → Word) {n k : Nat} (hk : k < n) :
    (s.forRange n fun w s => s.setReg (r w) (v w)).reg (r k) = v k := by
  induction n with
  | zero => omega
  | succ n ih =>
    rw [State.forRange_succ, State.reg_setReg]
    split
    next h => rw [hr h]
    next h => exact ih (Nat.lt_of_le_of_ne (Nat.le_of_lt_succ hk) fun e => h (e ▸ rfl))

theorem only_forRange_setReg (s : State) (r : Nat → Nat) (v : Nat → Word) (n : Nat) :
    Only ((List.range n).map r) s (s.forRange n fun w s => s.setReg (r w) (v w)) := by
  induction n with
  | zero => exact .refl _ s
  | succ n ih =>
    rw [State.forRange_succ, List.range_succ, List.map_append]
    exact (ih.mono (List.subset_append_left _ _)).trans ((only_setReg _ (r n) (v n)).mono (List.subset_append_right _ _))

theorem flowRead_injective : Function.Injective R.FLOW_READ := fun a b h => by
  simp only [R.FLOW_READ] at h
  omega

/-- READ: the entry's words stand in FLOW_READ. -/
def State.flowWords (s : State) (e : FlowEnt) : State := s.forRange 6 fun w s => s.setReg (R.FLOW_READ w) (e.words.getD w 0)

/-- READ: the entry's counters stand in their registers, and the result shows success. -/
def State.flowCounts (s : State) (e : FlowEnt) : State :=
  (((s.wr F.FLOW_CNT_PKT_PKTS e.pkts).wr F.FLOW_CNT_DROP_DROPS e.drops).wr F.FLOW_CNT_GAP_GAPS e.gaps).flowOk

theorem State.flowRead_found {s : State} {i : Nat} {e : FlowEnt} (he : s.flow i = some e) :
    s.flowRead i = (s.flowWords e).flowCounts e := by
  simp only [State.flowRead, he, State.flowWords, State.flowCounts]

theorem only_flowCounts (s : State) (e : FlowEnt) :
    Only [R.FLOW_RESULT, R.FLOW_CNT_PKT, R.FLOW_CNT_DROP, R.FLOW_CNT_GAP] s (s.flowCounts e) :=
  ((((only_wr s F.FLOW_CNT_PKT_PKTS e.pkts).mono (by simp [F.FLOW_CNT_PKT_PKTS])).trans
    ((only_wr _ F.FLOW_CNT_DROP_DROPS e.drops).mono (by simp [F.FLOW_CNT_DROP_DROPS]))).trans
    ((only_wr _ F.FLOW_CNT_GAP_GAPS e.gaps).mono (by simp [F.FLOW_CNT_GAP_GAPS]))).trans ((only_flowOk _).mono (by simp))

theorem State.rd_flowCounts (s : State) (e : FlowEnt) :
    (s.flowCounts e).rd F.FLOW_CNT_PKT_PKTS = e.pkts % 2 ^ 32 ∧ (s.flowCounts e).rd F.FLOW_CNT_DROP_DROPS = e.drops % 2 ^ 32 ∧
      (s.flowCounts e).rd F.FLOW_CNT_GAP_GAPS = e.gaps % 2 ^ 32 := by
  have hword : 0 + 32 ≤ 32 := by decide
  have hok : ∀ (u : State) {f : Fld}, f.reg ≠ R.FLOW_RESULT → recReg f.reg = false → u.flowOk.rd f = u.rd f :=
    fun u f hf hr => (only_flowOk u).rd (mt List.mem_singleton.1 hf) hr
  have hdrops : ∀ (u : State) (n : Nat) {f : Fld}, f.reg ≠ R.FLOW_CNT_DROP → (u.wr F.FLOW_CNT_DROP_DROPS n).rd f = u.rd f :=
    fun u n f hf => u.rd_wr_apart (f := F.FLOW_CNT_DROP_DROPS) n hword (.inl hf.symm)
  have hgaps : ∀ (u : State) (n : Nat) {f : Fld}, f.reg ≠ R.FLOW_CNT_GAP → (u.wr F.FLOW_CNT_GAP_GAPS n).rd f = u.rd f :=
    fun u n f hf => u.rd_wr_apart (f := F.FLOW_CNT_GAP_GAPS) n hword (.inl hf.symm)
  exact ⟨(hok _ (by decide) (recReg_of_lt (by decide))).trans ((hgaps _ _ (by decide)).trans ((hdrops _ _ (by decide)).trans
      (s.rd_wr_same F.FLOW_CNT_PKT_PKTS _ hword))),
    (hok _ (by decide) (recReg_of_lt (by decide))).trans ((hgaps _ _ (by decide)).trans (State.rd_wr_same _ F.FLOW_CNT_DROP_DROPS _ hword)),
    (hok _ (by decide) (recReg_of_lt (by decide))).trans (State.rd_wr_same _ F.FLOW_CNT_GAP_GAPS _ hword)⟩

theorem flowRead_found {s : State} {i : Fin 65536} {e : FlowEnt} (he : s.flow i = some e) :
    Gives (.flowRead i) s fun t => (∀ w : Fin 6, t.reg (R.FLOW_READ w) = e.words.getD w 0) ∧ t.rd F.FLOW_RESULT_REASON = 1 ∧
      t.rd F.FLOW_CNT_PKT_PKTS = e.pkts % 2 ^ 32 ∧ t.rd F.FLOW_CNT_DROP_DROPS = e.drops % 2 ^ 32 ∧ t.rd F.FLOW_CNT_GAP_GAPS = e.gaps % 2 ^ 32 ∧
      Only ([R.FLOW_RESULT, R.FLOW_CNT_PKT, R.FLOW_CNT_DROP, R.FLOW_CNT_GAP] ++ (List.range 6).map R.FLOW_READ) s t := by
  refine ⟨s.flowRead i, rfl, ?_⟩
  rw [State.flowRead_found he]
  have hcounts := only_flowCounts (s.flowWords e) e
  have hread : ∀ w : Fin 6, R.FLOW_READ w ∉ [R.FLOW_RESULT, R.FLOW_CNT_PKT, R.FLOW_CNT_DROP, R.FLOW_CNT_GAP] ∧
      recReg (R.FLOW_READ w) = false := by
    decide
  obtain ⟨hpkts, hdrops, hgaps⟩ := (s.flowWords e).rd_flowCounts e
  exact ⟨fun w => (hcounts.1 _ (hread w).1 (hread w).2).trans (s.reg_forRange_setReg flowRead_injective (e.words.getD · 0) w.isLt),
    State.reason_flowOk _, hpkts, hdrops, hgaps,
    ((only_forRange_setReg s R.FLOW_READ (e.words.getD · 0) 6).mono (List.subset_append_right _ _)).trans
      (hcounts.mono (List.subset_append_left _ _))⟩

/-- Settles O35: ADD into a free way, REPLACE, the failures of ADD, DELETE and READ of an entry, and both of an empty one. -/
theorem flowTable : Obligations.FlowTable := by
  refine ⟨fun s i hgood hkey hfree => flowAdd_free hgood hkey hfree,
    fun s i e hgood hkey he hfixed => flowReplace_found hgood hkey he hfixed, fun s k h => ?addFails,
    fun s i e he => ⟨flowDelete_unused he, fun huse => ?inUse, flowRead_found he⟩, fun s i he c hc => ?empty⟩
  case addFails =>
    rcases h with ⟨hbad, rfl⟩ | ⟨hgood, hkey, rfl⟩ | ⟨hgood, hkey, hfull, rfl⟩
    · exact flowFail_gives (by decide) (congrArg _ (State.flowAdd_bad hbad))
    · exact flowFail_gives (by decide) (congrArg _ (State.flowAdd_sameKey hgood hkey))
    · exact flowFail_gives (by decide) (congrArg _ (State.flowAdd_full hgood hkey hfull))
  case inUse => exact flowFail_gives (by decide) (congrArg _ (State.flowDelete_used he huse))
  case empty =>
    simp only [List.mem_cons, List.not_mem_nil, or_false] at hc
    rcases hc with rfl | rfl
    · exact flowFail_gives (by decide) (congrArg _ (State.flowDelete_empty he))
    · exact flowFail_gives (by decide) (congrArg _ (State.flowRead_empty he))

end Sys2Proof.Machine
end

section
/-!
PROOFS. What the start of an encode slot leaves alone: line time (R42, R223). The frame count by which the slots of a channel begin is
the same for all of them, since no operation on the way of a slot's begin moves it.
-/
namespace Sys2Proof.Machine

/-! ## Folds -/

theorem State.foldl_lt {α : Type} {f : State → α → State} (hf : ∀ s a, (f s a).lt = s.lt) (l : List α) (s : State) :
    (l.foldl f s).lt = s.lt := by
  induction l generalizing s with
  | nil => rfl
  | cons a l ih => exact (ih (f s a)).trans (hf s a)

theorem State.forRange_lt {f : Nat → State → State} (hf : ∀ i s, (f i s).lt = s.lt) (n : Nat) (s : State) : (s.forRange n f).lt = s.lt :=
  State.foldl_lt (fun s i => hf i s) _ s

theorem State.ite_lt {p : Prop} [Decidable p] {s a b : State} (ha : a.lt = s.lt) (hb : b.lt = s.lt) : (if p then a else b).lt = s.lt := by
  split
  · exact ha
  · exact hb

/-! ## Registers that stand in for others, and the twin link -/

@[simp] theorem State.swapIn_lt (s : State) (d : Nat) (ks : List (Nat × Word)) : (s.swapIn d ks).lt = s.lt :=
  State.foldl_lt (f := fun s (x : Nat × Word) => s.setReg x.1 x.2) (fun s x => s.setReg_lt x.1 x.2) ks _

theorem State.asKept_lt {f : State → State} (hf : ∀ s, (f s).lt = s.lt) (d : Nat) (s : State) : (s.asKept d f).lt = s.lt := by
  unfold State.asKept
  split
  · exact hf s
  · simp [hf]

@[simp] theorem State.sendTwin_lt (s : State) (typ key : Nat) (ws : List Nat) : (s.sendTwin typ key ws).lt = s.lt := by
  simp [State.sendTwin]

@[simp] theorem State.sendTemplate_lt (s : State) (d i : Nat) : (s.sendTemplate d i).lt = s.lt := by
  simp only [State.sendTemplate]
  split
  · exact State.ite_lt (s.sendTwin_lt _ _ _) rfl
  · rfl

@[simp] theorem State.sendCursor_lt (s : State) (d i : Nat) (done : Bool) (p : Nat) : (s.sendCursor d i done p).lt = s.lt := by
  simp only [State.sendCursor]
  split
  · exact State.ite_lt (s.sendTwin_lt _ _ _) rfl
  · rfl

/-! ## Buffers of the pool -/

@[simp] theorem State.showFree_lt (s : State) (d : Nat) : (s.showFree d).lt = s.lt := s.wr_lt _ _

@[simp] theorem State.freeBuf_lt (s : State) (d b : Nat) : (s.freeBuf d b).lt = s.lt := s.setBuf_lt _ _ _

@[simp] theorem State.placeBuf_lt (s : State) (d i b k : Nat) : (s.placeBuf d i b k).lt = s.lt := s.setBuf_lt _ _ _

@[simp] theorem State.dropRef_lt (s : State) (d b : Nat) (await : Bool) : (s.dropRef d b await).lt = s.lt :=
  State.ite_lt rfl (State.ite_lt (s.setBuf_lt _ _ _) (s.freeBuf_lt d b))

@[simp] theorem State.dropOld_lt (s : State) (d i : Nat) (keep : List Nat) : (s.dropOld d i keep).lt = s.lt :=
  State.foldl_lt (fun s b => State.ite_lt rfl (s.dropRef_lt d b false)) _ s

@[simp] theorem State.fitGroup_lt (s : State) (d i : Nat) : (s.fitGroup d i).lt = s.lt := by
  simp only [State.fitGroup, State.showFree_lt, State.wr_lt]
  rw [State.forRange_lt, State.forRange_lt]
  · intro k s
    refine State.ite_lt rfl ?_
    split
    · exact s.placeBuf_lt _ _ _ _
    · rfl
  · intro k s
    split
    · exact State.ite_lt (s.setBuf_lt _ _ _) rfl
    · rfl

@[simp] theorem State.allocBuf_lt (s : State) (d id pic order : Nat) : (s.allocBuf d id pic order).1.lt = s.lt := by
  unfold State.allocBuf
  split
  · exact State.setBuf_lt _ _ _ _
  · rfl

@[simp] theorem State.aliasBuf_lt (s : State) (d codec : Nat) (g : Option RefE) : (s.aliasBuf d codec g).lt = s.lt := by
  unfold State.aliasBuf
  split
  · exact State.ite_lt (s.setBuf_lt _ _ _) rfl
  · rfl

@[simp] theorem State.greyGraft_lt (s : State) (d i : Nat) (p : PicSt) (b : Nat) : (s.greyGraft d i p b).lt = s.lt :=
  State.ite_lt (s.setBuf_lt _ _ _) rfl

/-! ## Entries of a statistics ring -/

@[simp] theorem State.xltFill_lt (s : State) (pasid : Option Nat) (a : Nat) : (s.xltFill pasid a).lt = s.lt := by
  simp [State.xltFill]

@[simp] theorem State.xlate_lt (s : State) (pasid : Option Nat) (a : Nat) : (s.xlate pasid a).lt = s.lt := by
  refine State.ite_lt rfl ?_
  split <;> simp

@[simp] theorem State.xlateEntry_lt (s : State) (r i : Nat) : (s.xlateEntry r i).lt = s.lt :=
  State.ite_lt (by simp) (s.xlate_lt _ _)

@[simp] theorem State.entryWrite_lt (s : State) (r i : Nat) (bs : List Byte) : (s.entryWrite r i bs).lt = s.lt := by
  simp [State.entryWrite]

@[simp] theorem State.putUnits_lt (s : State) (r : Nat) (us : List (List Byte)) : (s.putUnits r us).lt = s.lt := by
  induction us generalizing s with
  | nil => rfl
  | cons u us ih => simp [State.putUnits, ih]

@[simp] theorem State.statGap_lt (s : State) (r : Nat) : (s.statGap r).lt = s.lt := by simp [State.statGap, State.statUnit]

@[simp] theorem State.statLose_lt (s : State) (r stream cause n : Nat) : (s.statLose r stream cause n).lt = s.lt := by simp [State.statLose]

@[simp] theorem State.noRing_lt (s : State) (d i r n : Nat) : (s.noRing d i r n).lt = s.lt := State.ite_lt (by simp) (s.inc_lt _)

@[simp] theorem State.setPic_lt (s : State) (d i : Nat) (p : PicSt) : (s.setPic d i p).lt = s.lt := s.setEncSt_lt _ _ _

@[simp] theorem State.reserveRun_lt (s : State) (d i num j r : Nat) : (s.reserveRun d i num j r).lt = s.lt := by
  unfold State.reserveRun
  split
  · rfl
  · refine State.ite_lt rfl (State.ite_lt (by simp) (State.ite_lt (by simp) ?_))
    rw [State.setPic_lt, State.wr_lt]
    exact State.ite_lt rfl (s.statGap_lt _)

@[simp] theorem State.reserveRuns_lt (s : State) (d i num j q : Nat) : (s.reserveRuns d i num j q).lt = s.lt :=
  State.foldl_lt (fun s r => s.reserveRun_lt d i num j r) _ s

/-! ## The tasks of a picture's rows -/

@[simp] theorem State.joinTail_lt (s : State) (d t cls : Nat) : (s.joinTail d t cls).lt = s.lt := by simp [State.joinTail]

@[simp] theorem State.makeRow_lt (s : State) (d i : Nat) (p : PicSt) (j n q : Nat) : (s.makeRow d i p j n q).lt = s.lt := by
  induction n generalizing s q with
  | zero => rfl
  | succ n ih =>
    unfold State.makeRow
    refine State.ite_lt rfl ?_
    split
    · rfl
    · exact State.ite_lt (by simp) (by simp [ih])

/-! ## A slot that begins (R223, R239) -/

@[simp] theorem State.showPipes_lt (s : State) (d : Nat) : (s.showPipes d).lt = s.lt := by
  simp only [State.showPipes]
  rw [State.forRange_lt fun p s => by simp, State.wr_lt]

@[simp] theorem State.setEncState_lt (s : State) (d i v : Nat) : (s.setEncState d i v).lt = s.lt := by simp [State.setEncState]

@[simp] theorem State.showTriggers_lt (s : State) (d i : Nat) (m : MotPic) : (s.showTriggers d i m).lt = s.lt := by simp [State.showTriggers]

@[simp] theorem State.pictureBudget_lt (s : State) (d i : Nat) (p : PicSt) : (s.pictureBudget d i p).1.lt = s.lt :=
  State.ite_lt (by simp) (by simp)

@[simp] theorem State.startPic_lt (s : State) (d i : Nat) (e : EncSt) (kind : Nat) (b : Option Nat) (p : PicSt) :
    (s.startPic d i e kind b p).lt = s.lt := by
  simp only [State.startPic]
  rw [State.forRange_lt fun j s => s.makeRow_lt d i p j 64 0, State.foldl_lt fun s k => s.incWrap_lt _]
  simp

@[simp] theorem State.codeInto_lt (s : State) (d i : Nat) (e : EncSt) (kind frame field : Nat) (held : Bool) (b : Option Nat) :
    (s.codeInto d i e kind frame field held b).lt = s.lt := by
  have hgrey : ∀ (u : State) (p : PicSt), (b.elim u (u.greyGraft d i p)).lt = u.lt := fun u p => by cases b <;> simp
  simp only [State.codeInto, State.startPic_lt, State.pictureBudget_lt, hgrey, State.showTriggers_lt]
  exact (State.ite_lt (State.inc_lt _ _) rfl).trans (State.ite_lt rfl (s.inc_lt _))

@[simp] theorem State.codeSlot_lt (s : State) (d i frame field : Nat) : (s.codeSlot d i frame field).lt = s.lt := by
  simp only [State.codeSlot, State.codeInto_lt, State.allocBuf_lt, State.fitGroup_lt, State.dropOld_lt]
  exact (State.ite_lt rfl (State.inc_lt _ _)).trans (State.ite_lt (s.inc_lt _) rfl)

@[simp] theorem State.idleSlot_lt (s : State) (d i frame field : Nat) : (s.idleSlot d i frame field).lt = s.lt := by simp [State.idleSlot]

@[simp] theorem State.slotBegins_lt (s : State) (d i frame field : Nat) : (s.slotBegins d i frame field).lt = s.lt :=
  State.ite_lt rfl (State.ite_lt (s.idleSlot_lt _ _ _ _) (s.codeSlot_lt _ _ _ _))

@[simp] theorem State.cursorStart_lt (s : State) (d i : Nat) : (s.cursorStart d i).lt = s.lt := by
  refine State.ite_lt rfl ?_
  split
  · exact State.ite_lt (s.setPkt_lt _ _) (s.setPkt_lt _ _)
  · rfl

@[simp] theorem State.slotsStart_lt (s : State) (d k frame field : Nat) : (s.slotsStart d k frame field).lt = s.lt :=
  State.forRange_lt (fun e s => (State.ite_lt (State.cursorStart_lt _ _ _) rfl).trans (s.slotBegins_lt d (k * 8 + e) frame field)) 8 s

/-- R42: the slots of a composition slot begin, and line time is as before. -/
@[simp] theorem State.slotStreams_lt (s : State) (d k frame field : Nat) : (s.slotStreams d k frame field).lt = s.lt := by
  refine State.asKept_lt (fun u => (State.forRange_lt (fun e v => ?_) 8 _).trans (u.slotsStart_lt d k frame field)) d s
  dsimp only
  split
  · exact State.ite_lt ((State.sendCursor_lt _ _ _ _ _).trans (State.ite_lt rfl (v.sendTemplate_lt _ _))) rfl
  · rfl

theorem State.chFrameNow_slotStreams (s : State) (d k frame field c : Nat) : (s.slotStreams d k frame field).chFrameNow c = s.chFrameNow c :=
  congrArg (fun l : LineTime => mapGet (fun _ => 0) l.chFrame c - 1) (s.slotStreams_lt d k frame field)

/-- The channel frame by which the slots of several composition slots begin is one and the same. -/
theorem State.foldl_slotStreams (s : State) (c field : Nat) (ps : List (Nat × Nat)) :
    ps.foldl (fun u p => u.slotStreams p.1 p.2 (u.chFrameNow c) field) s =
      ps.foldl (fun u p => u.slotStreams p.1 p.2 (s.chFrameNow c) field) s := by
  suffices h : ∀ (n : Nat) (u : State), u.chFrameNow c = n →
      ps.foldl (fun u p => u.slotStreams p.1 p.2 (u.chFrameNow c) field) u = ps.foldl (fun u p => u.slotStreams p.1 p.2 n field) u from
    h _ s rfl
  intro n
  induction ps with
  | nil => simp only [List.foldl_nil, implies_true]
  | cons p ps ih =>
    intro u hu
    have hkept : (u.slotStreams p.1 p.2 n field).chFrameNow c = n := (u.chFrameNow_slotStreams p.1 p.2 n field c).trans hu
    rw [List.foldl_cons, List.foldl_cons, hu]
    exact ih _ hkept

end Sys2Proof.Machine
end

section
/-!
PROOFS. What arrives at a channel (R42, R78, R172, R175 to R179, R220, R369): packets at the classifier, SDI lines, the completion of a
line, the loss of the input, and the start of a channel frame.
-/
namespace Sys2Proof.Machine

/-! ## The stamp of a packet (R78) -/

theorem State.rxAt_stampRx (s : State) (m : Nat) : mapGet (fun _ => 0) (s.stampRx m).ptp.rxAt m = (s.macRx m).toNat :=
  mapGet_set_same _ s.ptp.rxAt m _

theorem State.rd_stampRx (s : State) (m : Nat) (f : Fld) : (s.stampRx m).rd f = s.rd f := by
  simp only [State.rd, State.reg, State.stampRx_variant, State.stampRx_regs]

theorem State.flow_stampRx (s : State) (m i : Nat) : (s.stampRx m).flow i = s.flow i := by
  simp only [State.flow, State.stampRx_ing]

theorem State.flowMatch_stampRx (s : State) (m ip port ssrc : Nat) : (s.stampRx m).flowMatch ip port ssrc = s.flowMatch ip port ssrc := by
  simp only [State.flowMatch, State.inBucket, State.flow_stampRx]

theorem State.filled_stampRx (s : State) (m : Nat) (e : FlowEnt) : (s.stampRx m).filled e = s.filled e := by
  simp only [State.filled, State.stampRx_cycle]

/-! ## Packets (R172, R175, R176, R396) -/

section
variable {x : IngPkt} {s : State}

theorem exec_ingPacket_down (h : s.macUp x.mac = false) : exec (.ingPacket x) s = .next s :=
  congrArg Host.Outcome.next (if_neg (by rw [h]; decide))

theorem exec_ingPacket_up (h : s.macUp x.mac = true) : exec (.ingPacket x) s = .next (s.ingPacket x) :=
  congrArg Host.Outcome.next (if_pos h)

theorem State.ingPacket_ptp {m : PtpMsg} (hport : x.udp = 319 ∨ x.udp = 320) (hm : x.ptp = some m) : s.ingPacket x =
    if ptpPort m = x.udp then (s.stampRx x.mac).ptpDeliver x.mac m else s.stampRx x.mac := by
  simp only [State.ingPacket, hport, hm, State.when, beq_iff_eq, if_true]

/-- A packet to a PTP port that carries no PTP message goes nowhere. -/
theorem State.ingPacket_notPtp (hport : x.udp = 319 ∨ x.udp = 320) (hm : x.ptp = none) : s.ingPacket x = s.stampRx x.mac := by
  simp only [State.ingPacket, hport, hm, if_true]

variable (h319 : x.udp ≠ 319) (h320 : x.udp ≠ 320)
include h319 h320

theorem State.ingPacket_unmatched (hmatch : s.flowMatch x.dst x.udp x.ssrc = none) :
    s.ingPacket x = (s.stampRx x.mac).inc F.ING_COUNT_NO_MATCH := by
  simp only [State.ingPacket, h319, h320, or_self, if_false, State.flowMatch_stampRx, hmatch]

variable {i : Nat} {e : FlowEnt} (hmatch : s.flowMatch x.dst x.udp x.ssrc = some i) (he : s.flow i = some e)
include hmatch he

theorem State.ingPacket_policed (hfew : s.filled e < x.bytes * 50000) : s.ingPacket x =
    (s.stampRx x.mac).setFlow i (some { e with fill := s.filled e, filledAt := s.cycle, drops := min (e.drops + 1) (2 ^ 32 - 1) }) := by
  simp only [State.ingPacket, h319, h320, or_self, if_false, State.flowMatch_stampRx, hmatch, State.flow_stampRx, he, State.filled_stampRx,
    hfew, if_true, State.stampRx_cycle]

theorem State.ingPacket_accepted {g : Nat} (htokens : x.bytes * 50000 ≤ s.filled e) (hversion : x.version = 2)
    (hpt : flowPtCheck e.words = false ∨ x.pt = flowPt e.words) (hgap : seqGap (flowKind e.words) e.seq x.seq = some g) : s.ingPacket x =
    ((s.stampRx x.mac).setFlow i (some { e with
      fill := s.filled e - x.bytes * 50000, filledAt := s.cycle
      seq := some (x.seq % (if flowKind e.words = 0 then 2 ^ 32 else 2 ^ 16))
      gaps := min (e.gaps + g) (2 ^ 32 - 1), pkts := (e.pkts + 1) % 2 ^ 32 })).content i e.words x := by
  have hrtp : ¬(x.version ≠ 2 ∨ flowPtCheck e.words = true ∧ x.pt ≠ flowPt e.words) := by
    rintro (hv | ⟨hcheck, hne⟩)
    · exact hv hversion
    · rcases hpt with hno | heq
      · simp [hno] at hcheck
      · exact hne heq
  simp only [State.ingPacket, h319, h320, or_self, if_false, State.flowMatch_stampRx, hmatch, State.flow_stampRx, he, State.filled_stampRx,
    Nat.not_lt.2 htokens, hrtp, hgap, State.stampRx_cycle]

end

/-- R172: a packet that matches no entry is counted. -/
theorem ingPacket_unmatched {x : IngPkt} {s : State} (hup : s.macUp x.mac = true) (h319 : x.udp ≠ 319) (h320 : x.udp ≠ 320)
    (hmatch : s.flowMatch x.dst x.udp x.ssrc = none) : Gives (.ingPacket x) s fun t =>
      t.rd F.ING_COUNT_NO_MATCH = min (s.rd F.ING_COUNT_NO_MATCH + 1) (2 ^ 32 - 1) ∧ Only [R.ING_COUNT] (s.stampRx x.mac) t := by
  refine ⟨_, (exec_ingPacket_up hup).trans (congrArg _ (State.ingPacket_unmatched h319 h320 hmatch)), ?_, only_inc _ F.ING_COUNT_NO_MATCH⟩
  rw [State.rd_inc_same _ F.ING_COUNT_NO_MATCH (by decide : 0 + 32 ≤ 32), State.rd_stampRx]
  rfl

/-! ## SDI lines (R177, R369, R396) -/

section
variable {c : Fin 96} {x : SdiLine} {s : State}

theorem exec_sdiLine_up (hup : s.sdiUp c = true) (hmirror : s.mirrors c true = []) :
    exec (.sdiLine c x) s = .next ((s.sdiLine c x).mirrorOut c x) :=
  congrArg Host.Outcome.next (if_pos (by rw [hup, hmirror]; rfl))

theorem exec_sdiLine_dropped (h : s.sdiUp c = false ∨ s.mirrors c true ≠ []) : exec (.sdiLine c x) s = .next s := by
  refine congrArg Host.Outcome.next (if_neg ?_)
  rw [Bool.and_eq_true, beq_iff_eq]
  rintro ⟨hup, hmirror⟩
  rcases h with hdown | hfed
  · simp [hdown] at hup
  · exact hfed hmirror

variable (hon : s.chOn c = true) (hkind : s.rd (F.ING_CHc_SRC_KIND c) = 2) (hid : x.id = none) (hcrc : x.crc = true) (haudio : x.audio = [])
include hon hkind hid hcrc haudio

theorem State.sdiLine_active {l : Nat} (hline : x.line = some l) (hanc : x.anc = []) :
    s.sdiLine c x = (s.putRows c x.frame [⟨l, 0, x.px, !s.sdiDamaged c x⟩]).validData c := by
  simp [State.sdiLine, hon, hkind, hid, hcrc, haudio, hline, hanc]

theorem State.sdiLine_ancillary (hline : x.line = none) :
    s.sdiLine c x = x.anc.foldl (fun a p => a.ancTake c x.frame p) (s.validData c) := by
  simp [State.sdiLine, hon, hkind, hid, hcrc, haudio, hline]

end

/-! ## The completion of a line (R178, R220) -/

theorem exec_lineComplete_due {c : Fin 96} {s : State} (h : s.lineDue c = true) : exec (.lineComplete c) s = .next (s.lineCompletes c) :=
  congrArg Host.Outcome.next (if_pos h)

theorem State.lineCompletes_eq (s : State) (c : Nat) : s.lineCompletes c =
    if (s.ingLine c).chInterlaced c = true ∧ (s.ingCh c).next + 1 = (s.ingLine c).chHeight c / 2 then
      ((s.ingLine c).placements c).foldl (fun a p => a.slotStreams p.1 p.2 ((s.ingLine c).chFrameNow c) 1) (s.ingLine c)
    else s.ingLine c := by
  rw [← State.foldl_slotStreams]
  rfl

/-! ## The state of a channel's ingest (R179, R424) -/

theorem recReg_ingStatus (c : Fin 96) : recReg (R.ING_CHc_STATUS c) = false := recReg_of_lt (by simp only [R.ING_CHc_STATUS]; omega)

/-- A change of the state writes it, and at most the recorder follows. -/
theorem State.setIngState_recorded (s : State) (c st : Nat) (ev : Bool) :
    Recorded (s.wr (F.ING_CHc_STATUS_STATE c) st) (s.setIngState c st ev) := by
  simp only [State.setIngState]
  split
  · exact State.event_recorded _ _ _ _ _ _ _
  · exact .refl _

theorem State.ingState_setIngState (s : State) (c : Fin 96) (st : Nat) (ev : Bool) : (s.setIngState c st ev).ingState c = st % 2 ^ 2 :=
  ((s.setIngState_recorded c st ev).rd (F.ING_CHc_STATUS_STATE c) (recReg_ingStatus c)).trans (s.rd_wr_same _ st (by decide : 0 + 2 ≤ 32))

theorem State.rd_setIngCh (s : State) (c : Nat) (x : IngCh) (f : Fld) : (s.setIngCh c x).rd f = s.rd f := by
  simp only [State.rd, State.reg, State.setIngCh_variant, State.setIngCh_regs]

/-- R179: LOSS_FRAMES frame periods without valid data put a channel in GOOD into LOST. -/
theorem exec_ingLossTimeout_good {c : Fin 96} {s : State} (hgood : s.ingState c = 2)
    (hlate : (s.ingCh c).lastValid + s.rd (F.ING_CHc_CFG_LOSS_FRAMES c) * s.framePeriod c ≤ s.chUnits c) : exec (.ingLossTimeout c) s =
      .next (((s.setIngCh c { s.ingCh c with recov := 0 }).inc (F.ING_CHc_CNT_FRAMES_LOSS c)).setIngState c 3 true) :=
  congrArg Host.Outcome.next (if_pos ⟨hgood, hlate⟩)

/-- R179: each loss is counted. -/
theorem State.rd_inc_loss (s : State) (c : Nat) (x : IngCh) : ((s.setIngCh c x).inc (F.ING_CHc_CNT_FRAMES_LOSS c)).rd (F.ING_CHc_CNT_FRAMES_LOSS c) =
    min (s.rd (F.ING_CHc_CNT_FRAMES_LOSS c) + 1) 65535 := by
  rw [State.rd_inc_same _ (F.ING_CHc_CNT_FRAMES_LOSS c) (by decide : 16 + 16 ≤ 32), State.rd_setIngCh]
  rfl

/-! ## The start of a channel frame (R42) -/

theorem exec_channelFrameStart_due {c : Fin 96} {s : State} {n : Nat} (h : s.frameDue c = some n) :
    exec (.channelFrameStart c) s = .next (s.frameStarts c n) := by
  change execChannelFrameStart c s = _
  simp only [execChannelFrameStart, h]

/-- The slots that have taken up a configuration for channel c and are none of `ps`: a channel frame releases them. -/
def State.leftSlots (s : State) (c : Nat) (ps : List (Nat × Nat)) : List (Nat × Nat) :=
  (List.range s.crowns).flatMap fun i => (List.range 16).filterMap fun k =>
    if (s.slotSt (i + 1) k).up && s.taken (i + 1) k (F.CMP_SLOTs_CFG_CHANNEL (i + 1) k) == c && !ps.contains (i + 1, k) then some (i + 1, k) else none

theorem State.leftSlots_nil {s : State} (h : ∀ d k, (s.slotSt d k).up = false) (c : Nat) (ps : List (Nat × Nat)) : s.leftSlots c ps = [] := by
  simp [State.leftSlots, h]

/-- R42, R304: channel frame n of channel c after the frame before has ended in the channel's slots and ingest has begun. -/
def State.frameBegun (s : State) (c n : Nat) : State :=
  let z := (s.placements c).foldl (fun u p => u.slotEnds c p.1 p.2) s
  let a := { z with lt := { z.lt with chFrame := mapSet (fun _ => 0) z.lt.chFrame c (n + 1) } }.ingFrameStart c
  if a.decLost c then a.setIngCh c { a.ingCh c with shown := a.policyPic c } else a

theorem State.frameStarts_eq (s : State) (c n : Nat) :
    let b := s.frameBegun c n
    let r := (b.leftSlots c (b.placements c)).foldl (fun u p => u.slotRelease p.1 p.2) b
    s.frameStarts c n = (b.placements c).foldl (fun u p => u.slotStreams p.1 p.2 n 0)
      ((b.placements c).foldl (fun u p => u.slotLatches c p.1 p.2) r) := rfl

/-- With no slot to release the layers latch and the encode slots begin at once. -/
theorem State.frameStarts_noRelease {s : State} {c n : Nat} (h : ∀ d k, ((s.frameBegun c n).slotSt d k).up = false) :
    let b := s.frameBegun c n
    s.frameStarts c n = (b.placements c).foldl (fun u p => u.slotStreams p.1 p.2 n 0)
      ((b.placements c).foldl (fun u p => u.slotLatches c p.1 p.2) b) := by
  intro b
  rw [State.frameStarts_eq, State.leftSlots_nil h]
  rfl

/-- Settles O36: packets, SDI lines, the completion of a line, the loss of the input, and the start of a channel frame. -/
theorem ingestEvents : Obligations.IngestEvents := by
  refine ⟨fun x s hdown => exec_ingPacket_down hdown, fun x s hup hport => ?ptp,
    fun x s hup h319 h320 hmatch => ingPacket_unmatched hup h319 h320 hmatch,
    fun x s i e hup h319 h320 hmatch he => ⟨fun hfew => ?policed, fun g htokens hversion hpt hgap => ?accepted⟩,
    fun m s => ⟨s.rxAt_stampRx m, rfl⟩, fun c x s hup hmirror => exec_sdiLine_up hup hmirror, fun c x s h => exec_sdiLine_dropped h,
    fun c x s hon hkind hid hcrc => ⟨fun l hline haudio hanc => State.sdiLine_active hon hkind hid hcrc haudio hline hanc,
      fun hline haudio => State.sdiLine_ancillary hon hkind hid hcrc haudio hline⟩,
    fun c s hdue => (exec_lineComplete_due hdue).trans (congrArg _ (s.lineCompletes_eq c)),
    fun c s hgood hlate => ⟨exec_ingLossTimeout_good hgood hlate, State.ingState_setIngState _ c 3 true, s.rd_inc_loss c _⟩,
    fun c s n hdue => exec_channelFrameStart_due hdue, fun c s n => State.frameStarts_noRelease⟩
  case ptp =>
    rw [exec_ingPacket_up hup]
    cases hm : x.ptp with
    | none => rw [State.ingPacket_notPtp hport hm]
    | some m => rw [State.ingPacket_ptp hport hm]
  case policed => rw [exec_ingPacket_up hup, State.ingPacket_policed h319 h320 hmatch he hfew]
  case accepted => rw [exec_ingPacket_up hup, State.ingPacket_accepted h319 h320 hmatch he htokens hversion hpt hgap]

end Sys2Proof.Machine
end

section
/-!
PROOFS. Coefficients and colour tables (R204, R209, R216, R493): how the selection of CMP_COEF_SEL steps, what an access to
CMP_COEF_DATA reads or stores, what a write of table data commits, holds or refuses, and the CRC of a bank.
-/
namespace Sys2Proof.Machine

/-! ## Frames over composition's tables -/

theorem Only.cmp {as : List Nat} {s t : State} (h : Only as s t) : t.cmp = s.cmp := by rw [h.2]

theorem Only.rdata {as : List Nat} {s t : State} (h : Only as s t) : t.rdata = s.rdata := by rw [h.2]

/-- Composition's tables are no register. -/
theorem Only.withCmp {as : List Nat} {s t : State} (h : Only as s t) (c : Comp) : Only as { s with cmp := c } { t with cmp := c } :=
  ⟨h.1, by rw [OnlyRegs, h.2]⟩

/-- A frame around an update of composition's tables. -/
theorem Only.of_cmp {as : List Nat} {s t : State} {c : Comp} (h : Only as { s with cmp := c } t) : Only as { s with cmp := t.cmp } t := by
  have hc : t.cmp = c := h.cmp
  rwa [hc]

/-- A register below the recorder's in its die's window is none of the recorder's. -/
theorem recReg_of_offset {a : Nat} (d : Nat) (h : a < 0xD00000) : recReg (dieBase d + a) = false := by
  simp only [recReg, dieBase, Bool.or_eq_false_iff, beq_eq_false_iff_ne]
  omega

/-! ## The selection of a coefficient (R493) -/

/-- In `t` the selection that `s` has made has stepped: TAP through 0 to 7, then PHASE. -/
def State.CoefSteps (s : State) (d : Nat) (t : State) : Prop :=
  t.rd (F.CMP_COEF_SEL_TAP d) =
      (if s.on (F.CMP_COEF_SEL_AUTOINC d) then (s.rd (F.CMP_COEF_SEL_TAP d) + 1) % 8 else s.rd (F.CMP_COEF_SEL_TAP d)) ∧
    t.rd (F.CMP_COEF_SEL_PHASE d) =
      (if s.on (F.CMP_COEF_SEL_AUTOINC d) ∧ s.rd (F.CMP_COEF_SEL_TAP d) = 7 then (s.rd (F.CMP_COEF_SEL_PHASE d) + 1) % 64
        else s.rd (F.CMP_COEF_SEL_PHASE d))

theorem coefTap_ok (d : Nat) : (F.CMP_COEF_SEL_TAP d).ok := (by decide : 11 + 3 ≤ 32)

theorem coefPhase_ok (d : Nat) : (F.CMP_COEF_SEL_PHASE d).ok := (by decide : 5 + 6 ≤ 32)

theorem coefTap_apart (d : Nat) : (F.CMP_COEF_SEL_TAP d).apart (F.CMP_COEF_SEL_PHASE d) := .inr (.inr (by decide : 5 + 6 ≤ 11))

theorem coefPhase_apart (d : Nat) : (F.CMP_COEF_SEL_PHASE d).apart (F.CMP_COEF_SEL_TAP d) := .inr (.inl (by decide : 5 + 6 ≤ 11))

theorem State.coefStep_fixed {s : State} {d : Nat} (h : s.on (F.CMP_COEF_SEL_AUTOINC d) = false) : s.coefStep d = s := by
  simp [State.coefStep, h]

theorem State.coefStep_tap {s : State} {d : Nat} (h : s.on (F.CMP_COEF_SEL_AUTOINC d) = true) (ht : s.rd (F.CMP_COEF_SEL_TAP d) ≠ 7) :
    s.coefStep d = s.wr (F.CMP_COEF_SEL_TAP d) (s.rd (F.CMP_COEF_SEL_TAP d) + 1) := by
  simp [State.coefStep, h, ht]

theorem State.coefStep_phase {s : State} {d : Nat} (h : s.on (F.CMP_COEF_SEL_AUTOINC d) = true) (ht : s.rd (F.CMP_COEF_SEL_TAP d) = 7) :
    s.coefStep d = (s.wr (F.CMP_COEF_SEL_TAP d) 8).wr (F.CMP_COEF_SEL_PHASE d) (s.rd (F.CMP_COEF_SEL_PHASE d) + 1) := by
  simp [State.coefStep, h, ht, s.rd_wr_apart _ (coefTap_ok d) (coefTap_apart d)]

theorem State.coefStep_steps (s : State) (d : Nat) : s.CoefSteps d (s.coefStep d) := by
  unfold State.CoefSteps
  cases h : s.on (F.CMP_COEF_SEL_AUTOINC d)
  · simp [State.coefStep_fixed h]
  · by_cases ht : s.rd (F.CMP_COEF_SEL_TAP d) = 7
    · rw [State.coefStep_phase h ht, State.rd_wr_apart _ _ (coefPhase_ok d) (coefPhase_apart d), s.rd_wr_same _ _ (coefTap_ok d),
        State.rd_wr_same _ _ _ (coefPhase_ok d)]
      simp only [ht, if_true, and_self]
      exact ⟨rfl, rfl⟩
    · rw [State.coefStep_tap h ht, s.rd_wr_same _ _ (coefTap_ok d), s.rd_wr_apart _ (coefTap_ok d) (coefTap_apart d)]
      simp only [ht, if_true, if_false, and_false, and_true]
      rfl

/-- The selection steps as `s` has it on the way from any state that has the same one. -/
theorem State.CoefSteps.of_sel {s u t : State} {d : Nat} (hsel : u.reg (R.CMP_COEF_SEL d) = s.reg (R.CMP_COEF_SEL d)) (h : u.CoefSteps d t) :
    s.CoefSteps d t := by
  have htap : u.rd (F.CMP_COEF_SEL_TAP d) = s.rd (F.CMP_COEF_SEL_TAP d) := congrArg (getBits · 11 3) hsel
  have hphase : u.rd (F.CMP_COEF_SEL_PHASE d) = s.rd (F.CMP_COEF_SEL_PHASE d) := congrArg (getBits · 5 6) hsel
  have hauto : u.on (F.CMP_COEF_SEL_AUTOINC d) = s.on (F.CMP_COEF_SEL_AUTOINC d) := congrArg (getBits · 14 1 == 1) hsel
  rwa [State.CoefSteps, htap, hphase, hauto] at h

theorem only_coefStep (s : State) (d : Nat) : Only [R.CMP_COEF_SEL d] s (s.coefStep d) := by
  cases h : s.on (F.CMP_COEF_SEL_AUTOINC d)
  · rw [State.coefStep_fixed h]
    exact .refl _ s
  · by_cases ht : s.rd (F.CMP_COEF_SEL_TAP d) = 7
    · rw [State.coefStep_phase h ht]
      exact (only_wr s (F.CMP_COEF_SEL_TAP d) _).trans (only_wr _ (F.CMP_COEF_SEL_PHASE d) _)
    · rw [State.coefStep_tap h ht]
      exact only_wr s (F.CMP_COEF_SEL_TAP d) _

/-! ## CMP_COEF_ACCESS (R204, R493) -/

/-- The state with the selected coefficient set. -/
def State.coefStored (s : State) (d : Nat) (w : Word) : State :=
  let key := coefKey d (s.rd (F.CMP_COEF_SEL_COMP d)) (s.rd (F.CMP_COEF_SEL_SET d)) (s.rd (F.CMP_COEF_SEL_DIR d))
    (s.rd (F.CMP_COEF_SEL_PHASE d)) (s.rd (F.CMP_COEF_SEL_TAP d))
  { s with cmp := { s.cmp with coefs := mapSet coefReset s.cmp.coefs key (signed 10 (getBits w 0 10)) } }

section
variable {d : Fin 8} {w : Word} {s : State}

theorem exec_coefRead : exec (.cmpCoefAccess d none) s =
    .next (({ s with rdata := BitVec.ofNat 32 (wrap 10 (s.coefRead d)) } : State).coefStep d) := rfl

theorem exec_coefWrite_none (h : s.rd (F.CMP_COEF_SEL_DIR d) = 1 ∧ 6 ≤ s.rd (F.CMP_COEF_SEL_TAP d)) :
    exec (.cmpCoefAccess d (some w)) s = .next (s.coefStep d) := congrArg Host.Outcome.next (if_pos h)

theorem exec_coefWrite_refused (h : ¬(s.rd (F.CMP_COEF_SEL_DIR d) = 1 ∧ 6 ≤ s.rd (F.CMP_COEF_SEL_TAP d)))
    (huse : s.coefInUse d (s.rd (F.CMP_COEF_SEL_COMP d)) (s.rd (F.CMP_COEF_SEL_SET d)) = true) :
    exec (.cmpCoefAccess d (some w)) s =
      .next ((s.refuse (pComp d (s.rd (F.CMP_COEF_SEL_COMP d))) [R.CMP_STATUS d] 0x2108 (R.CMP_COEF_DATA d)).coefStep d) :=
  congrArg Host.Outcome.next ((if_neg h).trans (if_pos huse))

theorem exec_coefWrite_stored (h : ¬(s.rd (F.CMP_COEF_SEL_DIR d) = 1 ∧ 6 ≤ s.rd (F.CMP_COEF_SEL_TAP d)))
    (huse : s.coefInUse d (s.rd (F.CMP_COEF_SEL_COMP d)) (s.rd (F.CMP_COEF_SEL_SET d)) = false) :
    exec (.cmpCoefAccess d (some w)) s = .next ((s.coefStored d w).coefStep d) :=
  congrArg Host.Outcome.next ((if_neg h).trans (if_neg (by simp [huse])))

end

theorem cmpCoefRead_gives (d : Fin 8) (s : State) : Gives (.cmpCoefAccess d none) s fun t =>
    t.rdata = BitVec.ofNat 32 (wrap 10 (s.coefRead d)) ∧ s.CoefSteps d t ∧ Only [R.CMP_COEF_SEL d] { s with rdata := t.rdata } t := by
  have honly := only_coefStep { s with rdata := BitVec.ofNat 32 (wrap 10 (s.coefRead d)) } d
  refine ⟨_, exec_coefRead, honly.rdata, (State.coefStep_steps _ d).of_sel rfl, ?_⟩
  rwa [honly.rdata]

theorem State.coef_coefStored (s : State) (d : Nat) (w : Word) :
    (s.coefStored d w).coef d (s.rd (F.CMP_COEF_SEL_COMP d)) (s.rd (F.CMP_COEF_SEL_SET d)) (s.rd (F.CMP_COEF_SEL_DIR d))
      (s.rd (F.CMP_COEF_SEL_PHASE d)) (s.rd (F.CMP_COEF_SEL_TAP d)) = signed 10 (getBits w 0 10) :=
  mapGet_set_same coefReset s.cmp.coefs _ _

theorem Only.coef {as : List Nat} {s t : State} (h : Only as s t) (d k set dir ph tap : Nat) :
    t.coef d k set dir ph tap = s.coef d k set dir ph tap := by
  rw [State.coef, h.cmp, State.coef]

theorem cmpCoefWrite_stored {d : Fin 8} {w : Word} {s : State}
    (h : ¬(s.rd (F.CMP_COEF_SEL_DIR d) = 1 ∧ 6 ≤ s.rd (F.CMP_COEF_SEL_TAP d)))
    (huse : s.coefInUse d (s.rd (F.CMP_COEF_SEL_COMP d)) (s.rd (F.CMP_COEF_SEL_SET d)) = false) :
    Gives (.cmpCoefAccess d (some w)) s fun t =>
      t.coef d (s.rd (F.CMP_COEF_SEL_COMP d)) (s.rd (F.CMP_COEF_SEL_SET d)) (s.rd (F.CMP_COEF_SEL_DIR d)) (s.rd (F.CMP_COEF_SEL_PHASE d))
        (s.rd (F.CMP_COEF_SEL_TAP d)) = signed 10 (getBits w 0 10) ∧
      s.CoefSteps d t ∧ Only [R.CMP_COEF_SEL d] { s with cmp := t.cmp } t := by
  have honly := only_coefStep (s.coefStored d w) d
  exact ⟨_, exec_coefWrite_stored h huse, (honly.coef _ _ _ _ _ _).trans (s.coef_coefStored d w), (State.coefStep_steps _ d).of_sel rfl,
    honly.of_cmp⟩

theorem coefStatus_ne_sel (d : Nat) : R.CMP_STATUS d ≠ R.CMP_COEF_SEL d := by simp [R.CMP_STATUS, R.CMP_COEF_SEL]

theorem cmpCoefWrite_refused {d : Fin 8} {w : Word} {s : State}
    (h : ¬(s.rd (F.CMP_COEF_SEL_DIR d) = 1 ∧ 6 ≤ s.rd (F.CMP_COEF_SEL_TAP d)))
    (huse : s.coefInUse d (s.rd (F.CMP_COEF_SEL_COMP d)) (s.rd (F.CMP_COEF_SEL_SET d)) = true) :
    Gives (.cmpCoefAccess d (some w)) s fun t =>
      t.rd (F.CMP_STATUS_REASON d) = 0x2108 ∧ s.CoefSteps d t ∧ Only [R.CMP_STATUS d, R.CMP_COEF_SEL d] s t := by
  have hrefuse := only_refuse s (pComp d (s.rd (F.CMP_COEF_SEL_COMP d))) [R.CMP_STATUS d] 0x2108 (R.CMP_COEF_DATA d)
  have hstep := only_coefStep (s.refuse (pComp d (s.rd (F.CMP_COEF_SEL_COMP d))) [R.CMP_STATUS d] 0x2108 (R.CMP_COEF_DATA d)) d
  have hrec : recReg (R.CMP_STATUS d) = false := recReg_of_offset d (by decide)
  refine ⟨_, exec_coefWrite_refused h huse, ?code, (State.coefStep_steps _ d).of_sel ?sel, (hrefuse.mono (by simp)).trans (hstep.mono (by simp))⟩
  case code =>
    rw [hstep.rd (f := F.CMP_STATUS_REASON d) (mt List.mem_singleton.1 (coefStatus_ne_sel d)) hrec]
    exact s.rd_refuse_mem _ 0x2108 _ (List.mem_singleton_self _) hrec
  case sel => exact hrefuse.1 _ (mt List.mem_singleton.1 (coefStatus_ne_sel d).symm) (recReg_of_offset d (by decide))

/-! ## Tables (R209, R216) -/

theorem lutIndex_ok (d k : Nat) : (F.LUT_Ck_SEL_INDEX d k).ok := (by decide : 3 + 16 ≤ 32)

theorem lutBusy_ok (d k : Nat) : (F.LUT_Ck_STATUS_CRC_BUSY d k).ok := (by decide : 0 + 2 ≤ 32)

theorem lutV0_ok (d k : Nat) : (F.LUT_Ck_DATA0_V0 d k).ok := (by decide : 0 + 14 ≤ 32)

theorem lutV1_ok (d k : Nat) : (F.LUT_Ck_DATA0_V1 d k).ok := (by decide : 14 + 14 ≤ 32)

theorem lutV2_ok (d k : Nat) : (F.LUT_Ck_DATA1_V2 d k).ok := (by decide : 0 + 14 ≤ 32)

theorem recReg_lut {d k o : Nat} (h : o + k * 0x40 < 0x700000) : recReg (dieBase d + o + k * 0x40) = false := by
  rw [Nat.add_assoc]
  exact recReg_of_offset d (by omega)

theorem lutSize_le (table : Nat) : lutSize table ≤ 35937 := by
  unfold lutSize
  split <;> decide

section
variable {d k : Nat} {s : State}

theorem State.lutWrite_inUse (a : Nat) (f : State → State) (h : s.bankInUse d k (s.rd (F.LUT_Ck_SEL_BANK d k)) = true) :
    s.lutWrite d k a f = s.refuse (pComp d k) [R.LUT_Ck_STATUS d k] 0x2301 a := if_pos h

theorem State.lutWrite_beyond (a : Nat) (f : State → State) (h : s.bankInUse d k (s.rd (F.LUT_Ck_SEL_BANK d k)) = false)
    (hi : s.rd (F.LUT_Ck_SEL_TABLE d k) = 3 ∨ lutSize (s.rd (F.LUT_Ck_SEL_TABLE d k)) ≤ s.rd (F.LUT_Ck_SEL_INDEX d k)) :
    s.lutWrite d k a f = s.refuse (pComp d k) [R.LUT_Ck_STATUS d k] 0x2302 a :=
  (if_neg (by simp [h])).trans (if_pos hi)

/-- R209: a write that is taken makes the bank's CRC busy. -/
theorem State.lutWrite_taken (a : Nat) (f : State → State) (h : s.bankInUse d k (s.rd (F.LUT_Ck_SEL_BANK d k)) = false)
    (ht : s.rd (F.LUT_Ck_SEL_TABLE d k) ≠ 3) (hi : s.rd (F.LUT_Ck_SEL_INDEX d k) < lutSize (s.rd (F.LUT_Ck_SEL_TABLE d k))) :
    s.lutWrite d k a f = (f s).wr (F.LUT_Ck_STATUS_CRC_BUSY d k)
      (s.rd (F.LUT_Ck_STATUS_CRC_BUSY d k) ||| 2 ^ s.rd (F.LUT_Ck_SEL_BANK d k)) :=
  (if_neg (by simp [h])).trans (if_neg (by omega))

theorem lutRefuse_gives {c : Instr} {a code : Nat} (hk : k < 4) (hcode : code < 2 ^ 16)
    (h : exec c s = .next (s.refuse (pComp d k) [R.LUT_Ck_STATUS d k] code a)) :
    Gives c s fun t => t.rd (F.LUT_Ck_STATUS_REASON d k) = code ∧ Only [R.LUT_Ck_STATUS d k] s t := by
  have hrec : recReg (R.LUT_Ck_STATUS d k) = false := recReg_lut (o := 0x68000C) (by omega)
  exact ⟨_, h, (s.rd_refuse_mem _ code a (List.mem_singleton_self _) hrec).trans (Nat.mod_eq_of_lt hcode), only_refuse s _ _ code a⟩

/-- The bit of the bank that a write has made busy. -/
theorem busy_bit {x b : Nat} (hx : x < 4) (hb : b < 2) : (x ||| 2 ^ b) % 4 / 2 ^ b % 2 = 1 := by
  have hall : ∀ (x : Fin 4) (b : Fin 2), (x.val ||| 2 ^ b.val) % 4 / 2 ^ b.val % 2 = 1 := by decide
  exact hall ⟨x, hx⟩ ⟨b, hb⟩

/-! ### What a committing write leaves -/

/-- What `s` selects in compositor k's tables holds `x` in `t`, the index has stepped, and the bank's CRC is busy. -/
def State.LutCommits (s : State) (d k x : Nat) (t : State) : Prop :=
  t.lut d k (s.rd (F.LUT_Ck_SEL_BANK d k)) (s.rd (F.LUT_Ck_SEL_TABLE d k)) (s.rd (F.LUT_Ck_SEL_INDEX d k)) = x ∧
    t.rd (F.LUT_Ck_SEL_INDEX d k) =
      (if s.on (F.LUT_Ck_SEL_AUTOINC d k) then s.rd (F.LUT_Ck_SEL_INDEX d k) + 1 else s.rd (F.LUT_Ck_SEL_INDEX d k)) ∧
    t.rd (F.LUT_Ck_STATUS_CRC_BUSY d k) / 2 ^ s.rd (F.LUT_Ck_SEL_BANK d k) % 2 = 1 ∧
    Only [R.LUT_Ck_SEL d k, R.LUT_Ck_DATA0 d k, R.LUT_Ck_DATA1 d k, R.LUT_Ck_STATUS d k] { s with cmp := t.cmp } t

/-- `s` with `x` in the selected entry. -/
def State.lutEntry (s : State) (d k x : Nat) : State :=
  s.setLut d k (s.rd (F.LUT_Ck_SEL_BANK d k)) (s.rd (F.LUT_Ck_SEL_TABLE d k)) (s.rd (F.LUT_Ck_SEL_INDEX d k)) x

/-- `s` with `x` in the selected entry and the index stepped. -/
def State.lutPut (s : State) (d k x : Nat) : State := (s.lutEntry d k x).lutStep d k

theorem State.lut_lutEntry (s : State) (x : Nat) : (s.lutEntry d k x).lut d k (s.rd (F.LUT_Ck_SEL_BANK d k)) (s.rd (F.LUT_Ck_SEL_TABLE d k))
    (s.rd (F.LUT_Ck_SEL_INDEX d k)) = x := mapGet_set_same lutReset s.cmp.luts _ x

theorem State.rd_lutEntry (s : State) (x : Nat) (f : Fld) : (s.lutEntry d k x).rd f = s.rd f := rfl

theorem only_lutStep (s : State) : Only [R.LUT_Ck_SEL d k] s (s.lutStep d k) := by
  unfold State.lutStep
  split
  · exact only_wr s (F.LUT_Ck_SEL_INDEX d k) _
  · exact .refl _ s

theorem State.rd_lutStep (h : s.rd (F.LUT_Ck_SEL_INDEX d k) + 1 < 2 ^ 16) : (s.lutStep d k).rd (F.LUT_Ck_SEL_INDEX d k) =
    if s.on (F.LUT_Ck_SEL_AUTOINC d k) then s.rd (F.LUT_Ck_SEL_INDEX d k) + 1 else s.rd (F.LUT_Ck_SEL_INDEX d k) := by
  unfold State.lutStep
  split
  · rw [s.rd_wr_same _ _ (lutIndex_ok d k)]
    exact Nat.mod_eq_of_lt h
  · rfl

theorem State.busy_wr (s u : State) :
    (u.wr (F.LUT_Ck_STATUS_CRC_BUSY d k) (s.rd (F.LUT_Ck_STATUS_CRC_BUSY d k) ||| 2 ^ s.rd (F.LUT_Ck_SEL_BANK d k))).rd
      (F.LUT_Ck_STATUS_CRC_BUSY d k) / 2 ^ s.rd (F.LUT_Ck_SEL_BANK d k) % 2 = 1 := by
  rw [u.rd_wr_same _ _ (lutBusy_ok d k)]
  exact busy_bit (s.rd_lt (F.LUT_Ck_STATUS_CRC_BUSY d k)) (s.rd_lt (F.LUT_Ck_SEL_BANK d k))

/-- A write of table data holds registers before it commits: the selection stands. -/
theorem Only.rd_lutSel {u : State} (h : Only [R.LUT_Ck_DATA0 d k, R.LUT_Ck_DATA1 d k] s u) (hk : k < 4) {f : Fld} (hf : f.reg = R.LUT_Ck_SEL d k) :
    u.rd f = s.rd f :=
  h.rd (by simp [hf, R.LUT_Ck_SEL, R.LUT_Ck_DATA0, R.LUT_Ck_DATA1]) (hf ▸ recReg_lut (o := 0x680000) (by omega))

theorem State.lutPut_commits {u : State} (x : Nat) (h : Only [R.LUT_Ck_DATA0 d k, R.LUT_Ck_DATA1 d k] s u) (hk : k < 4)
    (hi : s.rd (F.LUT_Ck_SEL_INDEX d k) < lutSize (s.rd (F.LUT_Ck_SEL_TABLE d k))) :
    s.LutCommits d k x ((u.lutPut d k x).wr (F.LUT_Ck_STATUS_CRC_BUSY d k)
      (s.rd (F.LUT_Ck_STATUS_CRC_BUSY d k) ||| 2 ^ s.rd (F.LUT_Ck_SEL_BANK d k))) := by
  have hsize := lutSize_le (s.rd (F.LUT_Ck_SEL_TABLE d k))
  have hbank : u.rd (F.LUT_Ck_SEL_BANK d k) = s.rd (F.LUT_Ck_SEL_BANK d k) := h.rd_lutSel hk rfl
  have htable : u.rd (F.LUT_Ck_SEL_TABLE d k) = s.rd (F.LUT_Ck_SEL_TABLE d k) := h.rd_lutSel hk rfl
  have hindex : u.rd (F.LUT_Ck_SEL_INDEX d k) = s.rd (F.LUT_Ck_SEL_INDEX d k) := h.rd_lutSel hk rfl
  have hauto : u.rd (F.LUT_Ck_SEL_AUTOINC d k) = s.rd (F.LUT_Ck_SEL_AUTOINC d k) := h.rd_lutSel hk rfl
  have hstep : Only [R.LUT_Ck_SEL d k] (u.lutEntry d k x) (u.lutPut d k x) := only_lutStep _
  generalize hn : s.rd (F.LUT_Ck_STATUS_CRC_BUSY d k) ||| 2 ^ s.rd (F.LUT_Ck_SEL_BANK d k) = n
  have hend : Only [R.LUT_Ck_STATUS d k] (u.lutPut d k x) ((u.lutPut d k x).wr (F.LUT_Ck_STATUS_CRC_BUSY d k) n) :=
    only_wr _ (F.LUT_Ck_STATUS_CRC_BUSY d k) n
  refine ⟨?entry, ?index, hn ▸ State.busy_wr s _, ?frame⟩
  case entry =>
    rw [State.lut, hend.cmp, hstep.cmp, ← hbank, ← htable, ← hindex]
    exact u.lut_lutEntry x
  case index =>
    rw [hend.rd (by simp [F.LUT_Ck_SEL_INDEX, R.LUT_Ck_SEL, R.LUT_Ck_STATUS]) (recReg_lut (o := 0x680000) (by omega)), State.lutPut,
      State.rd_lutStep (by rw [u.rd_lutEntry, hindex]; omega), State.on, u.rd_lutEntry, u.rd_lutEntry, hauto, hindex, State.on]
  case frame =>
    have hall := (((h.withCmp (u.lutEntry d k x).cmp).mono (by simp)).trans (hstep.mono (by simp))).trans
      (hend.mono (by simp : _ ⊆ [R.LUT_Ck_SEL d k, R.LUT_Ck_DATA0 d k, R.LUT_Ck_DATA1 d k, R.LUT_Ck_STATUS d k]))
    exact hall.of_cmp

/-! ### Data writes (R209, R216) -/

/-- DATA0 with a word's two values. -/
def State.data0Held (s : State) (d k : Nat) (v : Word) : State :=
  (s.wr (F.LUT_Ck_DATA0_V0 d k) v.toNat).wr (F.LUT_Ck_DATA0_V1 d k) (getBits v 14 14)

theorem only_data0Held (s : State) (v : Word) : Only [R.LUT_Ck_DATA0 d k] s (s.data0Held d k v) :=
  (only_wr s (F.LUT_Ck_DATA0_V0 d k) _).trans (only_wr _ (F.LUT_Ck_DATA0_V1 d k) _)

theorem State.data0Held_reads (s : State) (v : Word) : (s.data0Held d k v).rd (F.LUT_Ck_DATA0_V0 d k) = getBits v 0 14 ∧
    (s.data0Held d k v).rd (F.LUT_Ck_DATA0_V1 d k) = getBits v 14 14 := by
  have hapart : (F.LUT_Ck_DATA0_V1 d k).apart (F.LUT_Ck_DATA0_V0 d k) := .inr (.inr (by decide : 0 + 14 ≤ 14))
  rw [State.data0Held, State.rd_wr_apart _ _ (lutV1_ok d k) hapart, s.rd_wr_same _ _ (lutV0_ok d k), State.rd_wr_same _ _ _ (lutV1_ok d k)]
  exact ⟨(by simp [getBits, F.LUT_Ck_DATA0_V0]), Nat.mod_eq_of_lt (getBits_lt v 14 14)⟩

/-- DATA1 with a word's value. -/
def State.data1Held (s : State) (d k : Nat) (v : Word) : State := s.wr (F.LUT_Ck_DATA1_V2 d k) v.toNat

theorem only_data1Held (s : State) (v : Word) : Only [R.LUT_Ck_DATA1 d k] s (s.data1Held d k v) := only_wr s (F.LUT_Ck_DATA1_V2 d k) _

theorem State.data1Held_reads (s : State) (v : Word) : (s.data1Held d k v).rd (F.LUT_Ck_DATA1_V2 d k) = getBits v 0 14 := by
  rw [State.data1Held, s.rd_wr_same _ _ (lutV2_ok d k)]
  simp [getBits, F.LUT_Ck_DATA1_V2]

/-- A held value and the bank's busy CRC move their two registers alone. -/
theorem only_busy_of_held {u : State} {a : Nat} (h : Only [a] s u) (n : Nat) :
    Only [a, R.LUT_Ck_STATUS d k] s (u.wr (F.LUT_Ck_STATUS_CRC_BUSY d k) n) := by
  have hbusy : Only [R.LUT_Ck_STATUS d k] u (u.wr (F.LUT_Ck_STATUS_CRC_BUSY d k) n) := only_wr u (F.LUT_Ck_STATUS_CRC_BUSY d k) n
  exact (h.mono (by simp)).trans (hbusy.mono (by simp))

section
variable {v : Word} (huse : s.bankInUse d k (s.rd (F.LUT_Ck_SEL_BANK d k)) = false) (ht : s.rd (F.LUT_Ck_SEL_TABLE d k) ≠ 3)
  (hi : s.rd (F.LUT_Ck_SEL_INDEX d k) < lutSize (s.rd (F.LUT_Ck_SEL_TABLE d k))) (hk : k < 4)
include huse ht hi hk

theorem State.lutData0_shaper (h : s.rd (F.LUT_Ck_SEL_TABLE d k) ≠ 1) : s.lutData0 d k v =
    ((s.data0Held d k v).lutPut d k (getBits v 0 14)).wr (F.LUT_Ck_STATUS_CRC_BUSY d k)
      (s.rd (F.LUT_Ck_STATUS_CRC_BUSY d k) ||| 2 ^ s.rd (F.LUT_Ck_SEL_BANK d k)) := by
  have hheld : Only [R.LUT_Ck_DATA0 d k, R.LUT_Ck_DATA1 d k] s (s.data0Held d k v) := (only_data0Held s v).mono (by simp)
  have htab : (s.data0Held d k v).rd (F.LUT_Ck_SEL_TABLE d k) ≠ 1 := by rwa [hheld.rd_lutSel hk rfl]
  rw [State.lutData0, State.lutWrite_taken _ _ huse ht hi]
  exact congrArg (State.wr · _ _) (if_neg htab)

theorem State.lutData0_node (h : s.rd (F.LUT_Ck_SEL_TABLE d k) = 1) : s.lutData0 d k v =
    (s.data0Held d k v).wr (F.LUT_Ck_STATUS_CRC_BUSY d k) (s.rd (F.LUT_Ck_STATUS_CRC_BUSY d k) ||| 2 ^ s.rd (F.LUT_Ck_SEL_BANK d k)) := by
  have hheld : Only [R.LUT_Ck_DATA0 d k, R.LUT_Ck_DATA1 d k] s (s.data0Held d k v) := (only_data0Held s v).mono (by simp)
  have htab : (s.data0Held d k v).rd (F.LUT_Ck_SEL_TABLE d k) = 1 := (hheld.rd_lutSel hk rfl).trans h
  rw [State.lutData0, State.lutWrite_taken _ _ huse ht hi]
  exact congrArg (State.wr · _ _) (if_pos htab)

theorem State.lutData1_node (h : s.rd (F.LUT_Ck_SEL_TABLE d k) = 1) : s.lutData1 d k v =
    ((s.data1Held d k v).lutPut d k
      (s.rd (F.LUT_Ck_DATA0_V0 d k) + s.rd (F.LUT_Ck_DATA0_V1 d k) * 2 ^ 14 + getBits v 0 14 * 2 ^ 28)).wr (F.LUT_Ck_STATUS_CRC_BUSY d k)
      (s.rd (F.LUT_Ck_STATUS_CRC_BUSY d k) ||| 2 ^ s.rd (F.LUT_Ck_SEL_BANK d k)) := by
  have hheld : Only [R.LUT_Ck_DATA0 d k, R.LUT_Ck_DATA1 d k] s (s.data1Held d k v) := (only_data1Held s v).mono (by simp)
  have htab : (s.data1Held d k v).rd (F.LUT_Ck_SEL_TABLE d k) = 1 := (hheld.rd_lutSel hk rfl).trans h
  have hdata := fun {f : Fld} (hf : f.reg = R.LUT_Ck_DATA0 d k) => (only_data1Held (d := d) (k := k) s v).rd (f := f)
    (by simp [hf, R.LUT_Ck_DATA0, R.LUT_Ck_DATA1]) (hf ▸ recReg_lut (o := 0x680004) (by omega))
  rw [State.lutData1, State.lutWrite_taken _ _ huse ht hi, State.lutPut, State.lutEntry, htab, ← hdata (f := F.LUT_Ck_DATA0_V0 d k) rfl,
    ← hdata (f := F.LUT_Ck_DATA0_V1 d k) rfl]
  exact congrArg (State.wr · _ _) (if_pos htab)

theorem State.lutData1_shaper (h : s.rd (F.LUT_Ck_SEL_TABLE d k) ≠ 1) : s.lutData1 d k v =
    (s.data1Held d k v).wr (F.LUT_Ck_STATUS_CRC_BUSY d k) (s.rd (F.LUT_Ck_STATUS_CRC_BUSY d k) ||| 2 ^ s.rd (F.LUT_Ck_SEL_BANK d k)) := by
  have hheld : Only [R.LUT_Ck_DATA0 d k, R.LUT_Ck_DATA1 d k] s (s.data1Held d k v) := (only_data1Held s v).mono (by simp)
  have htab : (s.data1Held d k v).rd (F.LUT_Ck_SEL_TABLE d k) ≠ 1 := by rwa [hheld.rd_lutSel hk rfl]
  rw [State.lutData1, State.lutWrite_taken _ _ huse ht hi]
  exact congrArg (State.wr · _ _) (if_neg htab)

end

end

theorem exec_lutData0Write (d : Fin 8) (k : Fin 4) (v : Word) (s : State) : exec (.lutData0Write d k v) s = .next (s.lutData0 d k v) := rfl

theorem exec_lutData1Write (d : Fin 8) (k : Fin 4) (v : Word) (s : State) : exec (.lutData1Write d k v) s = .next (s.lutData1 d k v) := rfl

theorem lutStatus_ne_data (d k : Nat) : R.LUT_Ck_DATA0 d k ≠ R.LUT_Ck_STATUS d k ∧ R.LUT_Ck_DATA1 d k ≠ R.LUT_Ck_STATUS d k := by
  simp [R.LUT_Ck_DATA0, R.LUT_Ck_DATA1, R.LUT_Ck_STATUS]

section
variable {d : Fin 8} {k : Fin 4} {v : Word} {s : State} (huse : s.bankInUse d k (s.rd (F.LUT_Ck_SEL_BANK d k)) = false)
include huse

section
variable (hi : s.rd (F.LUT_Ck_SEL_INDEX d k) < lutSize (s.rd (F.LUT_Ck_SEL_TABLE d k)))
include hi

theorem lutData0Write_shaper (h : s.rd (F.LUT_Ck_SEL_TABLE d k) = 0 ∨ s.rd (F.LUT_Ck_SEL_TABLE d k) = 2) :
    Gives (.lutData0Write d k v) s (s.LutCommits d k (getBits v 0 14)) := by
  have heq := State.lutData0_shaper (v := v) huse (by omega) hi k.isLt (by omega)
  exact ⟨_, exec_lutData0Write d k v s, heq ▸ State.lutPut_commits _ ((only_data0Held s v).mono (by simp)) k.isLt hi⟩

theorem lutData1Write_node (h : s.rd (F.LUT_Ck_SEL_TABLE d k) = 1) : Gives (.lutData1Write d k v) s (s.LutCommits d k
    (s.rd (F.LUT_Ck_DATA0_V0 d k) + s.rd (F.LUT_Ck_DATA0_V1 d k) * 2 ^ 14 + getBits v 0 14 * 2 ^ 28)) := by
  have heq := State.lutData1_node (v := v) huse (by omega) hi k.isLt h
  exact ⟨_, exec_lutData1Write d k v s, heq ▸ State.lutPut_commits _ ((only_data1Held s v).mono (by simp)) k.isLt hi⟩

theorem lutData0Write_node (h : s.rd (F.LUT_Ck_SEL_TABLE d k) = 1) : Gives (.lutData0Write d k v) s fun t =>
    t.rd (F.LUT_Ck_DATA0_V0 d k) = getBits v 0 14 ∧ t.rd (F.LUT_Ck_DATA0_V1 d k) = getBits v 14 14 ∧
      Only [R.LUT_Ck_DATA0 d k, R.LUT_Ck_STATUS d k] s t := by
  have heq := State.lutData0_node (v := v) huse (by omega) hi k.isLt h
  have hbusy := fun {f : Fld} (hf : f.reg = R.LUT_Ck_DATA0 d k) (n : Nat) =>
    State.rd_wr_reg_ne (s.data0Held d k v) (f := F.LUT_Ck_STATUS_CRC_BUSY d k) (g := f) n (hf ▸ (lutStatus_ne_data d k).1)
  obtain ⟨hv0, hv1⟩ := State.data0Held_reads (d := d) (k := k) s v
  exact ⟨_, (exec_lutData0Write d k v s).trans (congrArg _ heq), (hbusy rfl _).trans hv0, (hbusy rfl _).trans hv1,
    only_busy_of_held (only_data0Held s v) _⟩

theorem lutData1Write_shaper (h : s.rd (F.LUT_Ck_SEL_TABLE d k) = 0 ∨ s.rd (F.LUT_Ck_SEL_TABLE d k) = 2) :
    Gives (.lutData1Write d k v) s fun t =>
      t.rd (F.LUT_Ck_DATA1_V2 d k) = getBits v 0 14 ∧ Only [R.LUT_Ck_DATA1 d k, R.LUT_Ck_STATUS d k] s t := by
  have heq := State.lutData1_shaper (v := v) huse (by omega) hi k.isLt (by omega)
  have hbusy := fun n : Nat => State.rd_wr_reg_ne (s.data1Held d k v) (f := F.LUT_Ck_STATUS_CRC_BUSY d k) (g := F.LUT_Ck_DATA1_V2 d k) n
    (lutStatus_ne_data d k).2
  exact ⟨_, (exec_lutData1Write d k v s).trans (congrArg _ heq), (hbusy _).trans (State.data1Held_reads s v),
    only_busy_of_held (only_data1Held s v) _⟩

end

theorem lutWrites_beyond (hi : s.rd (F.LUT_Ck_SEL_TABLE d k) = 3 ∨ lutSize (s.rd (F.LUT_Ck_SEL_TABLE d k)) ≤ s.rd (F.LUT_Ck_SEL_INDEX d k)) :
    ∀ c ∈ [Instr.lutData0Write d k v, Instr.lutData1Write d k v], Gives c s fun t =>
      t.rd (F.LUT_Ck_STATUS_REASON d k) = 0x2302 ∧ Only [R.LUT_Ck_STATUS d k] s t := by
  intro c hc
  obtain rfl | rfl : c = _ ∨ c = _ := (List.mem_cons.1 hc).imp_right List.mem_singleton.1
  · exact lutRefuse_gives k.isLt (by decide) ((exec_lutData0Write d k v s).trans (congrArg _ (State.lutWrite_beyond _ _ huse hi)))
  · exact lutRefuse_gives k.isLt (by decide) ((exec_lutData1Write d k v s).trans (congrArg _ (State.lutWrite_beyond _ _ huse hi)))

end

theorem lutWrites_inUse {d : Fin 8} {k : Fin 4} {v : Word} {s : State} (huse : s.bankInUse d k (s.rd (F.LUT_Ck_SEL_BANK d k)) = true) :
    ∀ c ∈ [Instr.lutData0Write d k v, Instr.lutData1Write d k v], Gives c s fun t =>
      t.rd (F.LUT_Ck_STATUS_REASON d k) = 0x2301 ∧ Only [R.LUT_Ck_STATUS d k] s t := by
  intro c hc
  obtain rfl | rfl : c = _ ∨ c = _ := (List.mem_cons.1 hc).imp_right List.mem_singleton.1
  · exact lutRefuse_gives k.isLt (by decide) ((exec_lutData0Write d k v s).trans (congrArg _ (State.lutWrite_inUse _ _ huse)))
  · exact lutRefuse_gives k.isLt (by decide) ((exec_lutData1Write d k v s).trans (congrArg _ (State.lutWrite_inUse _ _ huse)))

/-! ### The CRC of a bank (R209) -/

theorem exec_lutCrcDone_busy {d : Fin 8} {k : Fin 4} {b : Fin 2} {s : State} (h : s.rd (F.LUT_Ck_STATUS_CRC_BUSY d k) / 2 ^ b.val % 2 = 1) :
    exec (.lutCrcDone d k b) s = .next ((s.setReg (R.LUT_Ck_CRCb d k b) (BitVec.ofNat 32 (crc32c (s.bankBytes d k b)))).wr
      (F.LUT_Ck_STATUS_CRC_BUSY d k) (s.rd (F.LUT_Ck_STATUS_CRC_BUSY d k) - 2 ^ b.val)) :=
  congrArg Host.Outcome.next (if_pos h)

theorem lutCrc_ne_status (d k b : Nat) : R.LUT_Ck_CRCb d k b ≠ R.LUT_Ck_STATUS d k := by
  simp only [R.LUT_Ck_CRCb, R.LUT_Ck_STATUS]
  omega

theorem lutCrcDone_shows {d : Fin 8} {k : Fin 4} {b : Fin 2} {s : State} (h : s.rd (F.LUT_Ck_STATUS_CRC_BUSY d k) / 2 ^ b.val % 2 = 1) :
    Gives (.lutCrcDone d k b) s fun t => t.reg (R.LUT_Ck_CRCb d k b) = BitVec.ofNat 32 (crc32c (s.bankBytes d k b)) ∧
      t.rd (F.LUT_Ck_STATUS_CRC_BUSY d k) = s.rd (F.LUT_Ck_STATUS_CRC_BUSY d k) - 2 ^ b.val ∧
      Only [R.LUT_Ck_CRCb d k b, R.LUT_Ck_STATUS d k] s t := by
  have hlt := s.rd_lt (F.LUT_Ck_STATUS_CRC_BUSY d k)
  refine ⟨_, exec_lutCrcDone_busy h, ?crc, ?busy, ?frame⟩
  case crc => rw [State.reg_wr_ne _ _ _ (lutCrc_ne_status d k b), State.reg_setReg_same]
  case busy => exact (State.rd_wr_same _ _ _ (lutBusy_ok d k)).trans (Nat.mod_eq_of_lt (Nat.lt_of_le_of_lt (Nat.sub_le _ _) hlt))
  case frame =>
    exact ((only_setReg s (R.LUT_Ck_CRCb d k b) _).mono (by simp)).trans
      ((only_wr _ (F.LUT_Ck_STATUS_CRC_BUSY d k) _).mono (List.subset_cons_self _ _))

/-- Settles O38: coefficients by what is selected, table data by bank, table and index, and the CRC of a bank. -/
theorem coefficientAndTableAccess : Obligations.CoefficientAndTableAccess := by
  refine ⟨fun d v s => ⟨?read, ?noTap, ?stored, ?refused⟩,
    fun d k v s => ⟨fun huse ht hi => lutData0Write_shaper huse hi ht, fun huse ht hi => lutData1Write_node huse hi ht,
      fun huse ht hi => lutData0Write_node huse hi ht, fun huse ht hi => lutData1Write_shaper huse hi ht,
      fun huse => lutWrites_inUse huse, fun huse hi => lutWrites_beyond huse hi⟩,
    fun d k b s h => lutCrcDone_shows h⟩
  case read =>
    rintro rfl
    exact cmpCoefRead_gives d s
  case noTap =>
    rintro w rfl hdir htap
    exact ⟨_, exec_coefWrite_none ⟨hdir, htap⟩, s.coefStep_steps d, only_coefStep s d⟩
  case stored =>
    rintro w rfl h huse
    exact cmpCoefWrite_stored h huse
  case refused =>
    rintro w rfl h huse
    exact cmpCoefWrite_refused h huse

end Sys2Proof.Machine
end

section
/-!
PROOFS. Composition (R189, R195, R196, R200, R211): a LAYER_SRC and the lines it reads, the end of a wait, the bands of this frame and
of the frame before, and the rebuild of a run's plane. What writes pixels moves the HBM stacks and sends snoops, and nothing else.
-/
namespace Sys2Proof.Machine

/-! ## Writes of the HBM stacks (R87) -/

/-- Nothing but the stacks' bytes and what has been sent differs. -/
def StackWrites (s t : State) : Prop := t = { s with hbm := t.hbm, sent := t.sent }

theorem StackWrites.refl (s : State) : StackWrites s s := rfl

theorem StackWrites.trans {s t u : State} (h : StackWrites s t) (g : StackWrites t u) : StackWrites s u := by
  rw [StackWrites, g, h]

theorem stackWrites_foldl {α : Type} {f : State → α → State} (hf : ∀ s a, StackWrites s (f s a)) (l : List α) (s : State) :
    StackWrites s (l.foldl f s) := by
  induction l generalizing s with
  | nil => exact .refl s
  | cons a l ih => exact (hf s a).trans (ih (f s a))

theorem stackWrites_forRange {f : Nat → State → State} (hf : ∀ i s, StackWrites s (f i s)) (n : Nat) (s : State) :
    StackWrites s (s.forRange n f) := stackWrites_foldl (fun s i => hf i s) _ s

theorem stackWrites_hbmPut (s : State) (d a : Nat) (bs : List Byte) : StackWrites s (s.hbmPut d a bs) := rfl

theorem stackWrites_snoopLines (s : State) (d a n : Nat) : StackWrites s (s.snoopLines d a n) :=
  stackWrites_forRange (fun i s => by split <;> rfl) n s

theorem stackWrites_snoopBits (s : State) (d pos n : Nat) : StackWrites s (s.snoopBits d pos n) := by
  unfold State.snoopBits
  split
  · exact .refl s
  · exact stackWrites_snoopLines s d _ _

theorem stackWrites_hbmBits (s : State) (d pos n v : Nat) : StackWrites s (s.hbmBits d pos n v) := by
  induction n generalizing s pos v with
  | zero => exact .refl s
  | succ n ih =>
    refine StackWrites.trans ?_ (ih _ _ _)
    rfl

theorem stackWrites_buildPlane (s : State) (d k n : Nat) (run : Nat × Nat) : StackWrites s (s.buildPlane d k n run) :=
  stackWrites_forRange (fun _ t => (stackWrites_snoopBits t d _ _).trans
    (stackWrites_forRange (fun _ t => stackWrites_hbmPut t d _ _) _ _)) _ s

theorem stackWrites_writeBand (s : State) (d k n band : Nat) : StackWrites s (s.writeBand d k n band) := by
  unfold State.writeBand
  extract_lets
  refine ((stackWrites_snoopBits s d _ _).trans (stackWrites_snoopBits _ d _ _)).trans (stackWrites_foldl (fun t p => ?pixel) _ _)
  case pixel =>
    obtain ⟨x, y, v⟩ := p
    have hbits := fun (t : State) (pos n v : Nat) => stackWrites_hbmBits t d pos n v
    dsimp only
    split
    · exact ((hbits t _ _ _).trans (hbits _ _ _ _)).trans (hbits _ _ _ _)
    · exact hbits t _ _ _

theorem StackWrites.host {s t : State} (h : StackWrites s t) : t.host = s.host := by rw [h]

theorem StackWrites.reg {s t : State} (h : StackWrites s t) (a : Nat) : t.reg a = s.reg a := by rw [h]; rfl

theorem StackWrites.rd {s t : State} (h : StackWrites s t) (f : Fld) : t.rd f = s.rd f := by rw [h]; rfl

theorem StackWrites.bandCount {s t : State} (h : StackWrites s t) (d k : Nat) : t.bandCount d k = s.bandCount d k := by rw [h]; rfl

/-! ## A slot's and a layer's record -/

theorem State.slotSt_setSlotSt_same (s : State) (d k : Nat) (x : SlotSt) : (s.setSlotSt d k x).slotSt d k = x :=
  mapGet_set_same _ s.cmp.slots _ x

theorem State.layerSt_setLayerSt_same (s : State) (d k l : Nat) (x : LayerSt) : (s.setLayerSt d k l x).layerSt d k l = x := by
  rw [State.layerSt, State.setLayerSt, State.slotSt_setSlotSt_same]
  exact mapGet_set_same _ (s.slotSt d k).layers l x

theorem State.reg_setSlotSt (s : State) (d k : Nat) (x : SlotSt) (a : Nat) : (s.setSlotSt d k x).reg a = s.reg a := rfl

theorem Only.hbm {as : List Nat} {s t : State} (h : Only as s t) : t.hbm = s.hbm := by rw [h.2]

theorem Only.host {as : List Nat} {s t : State} (h : Only as s t) : t.host = s.host := by rw [h.2]

theorem Only.slotSt {as : List Nat} {s t : State} (h : Only as s t) (d k : Nat) : t.slotSt d k = s.slotSt d k := by
  rw [State.slotSt, h.cmp, State.slotSt]

theorem Only.layerSt {as : List Nat} {s t : State} (h : Only as s t) (d k l : Nat) : t.layerSt d k l = s.layerSt d k l := by
  rw [State.layerSt, h.slotSt, State.layerSt]

/-! ## Bands (R189) -/

theorem Only.forRange {as : List Nat} {f : Nat → State → State} {n : Nat} (hf : ∀ i < n, ∀ s, Only as s (f i s)) (s : State) :
    Only as s (s.forRange n f) := by
  induction n with
  | zero => exact .refl as s
  | succ n ih =>
    rw [State.forRange_succ]
    exact (ih fun i hi => hf i (Nat.lt_succ_of_lt hi)).trans (hf n (Nat.lt_succ_self n) _)

theorem only_cmpCounts {s t : State} {d j : Nat} (hj : j < 4) (h : Only [R.CMP_Ck_COUNT d j] s t) :
    Only ((List.range 4).map (R.CMP_Ck_COUNT d)) s t :=
  h.mono (List.cons_subset.2 ⟨List.mem_map_of_mem (List.mem_range.2 hj), List.nil_subset _⟩)

theorem only_countLate (s : State) (d k n : Nat) : Only ((List.range 4).map (R.CMP_Ck_COUNT d)) s (s.countLate d k n) := by
  unfold State.countLate
  extract_lets mask
  split
  · exact .refl _ s
  · refine Only.forRange (fun j hj s => ?_) s
    split
    · exact only_cmpCounts hj (only_wr s (F.CMP_Ck_COUNT_LATE_BANDS d j) _)
    · exact .refl _ s

theorem exec_bandWritten (d : Fin 8) (k : Fin 16) (b : Nat) (s : State) :
    exec (.bandWritten d k b) s = .next (s.when (s.nextBand d k == b) fun s => s.bandWritten d k) := rfl

theorem exec_bandWritten_next {d : Fin 8} {k : Fin 16} {b : Nat} {s : State} (h : s.nextBand d k = b) :
    exec (.bandWritten d k b) s = .next (s.bandWritten d k) := by
  rw [exec_bandWritten, beq_iff_eq.2 h, State.when_true]

/-- A band that is not the next, or that may not be composed, is not written. -/
theorem exec_bandWritten_not {d : Fin 8} {k : Fin 16} {b : Nat} {s : State} (h : s.bandReady d k = false ∨ b ≠ s.nextBand d k) :
    exec (.bandWritten d k b) s = .next s := by
  by_cases hb : s.nextBand d k = b
  · rw [exec_bandWritten_next hb, State.bandWritten, h.resolve_right (Classical.not_not.2 hb.symm)]
    rfl
  · rw [exec_bandWritten, beq_eq_false_iff_ne.2 hb, State.when_false]

/-- `s` with band b of frame n of channel c counted as late, where it is late and has not been counted. -/
def State.bandCounted (s : State) (d k c n b missed : Nat) : State :=
  if missed ≤ b ∧ s.bandDue d k n b false < s.chUnits c then s.countLate d k 1 else s

theorem only_bandCounted (s : State) (d k c n b missed : Nat) :
    Only ((List.range 4).map (R.CMP_Ck_COUNT d)) s (s.bandCounted d k c n b missed) := by
  unfold State.bandCounted
  split
  · exact only_countLate s d k 1
  · exact .refl _ s

section
variable {d k : Nat} {s : State} (hr : s.bandReady d k = true)
include hr

theorem State.bandWritten_now (hp : (s.slotSt d k).past = none) :
    let c := s.taken d k (F.CMP_SLOTs_CFG_CHANNEL d k)
    let x := s.slotSt d k
    let u := (s.writeBand d k (s.chFrameNow c) x.band).bandCounted d k c (s.chFrameNow c) x.band x.missed
    s.bandWritten d k = u.setSlotSt d k { u.slotSt d k with band := x.band + 1 } := by
  intro c x u
  simp only [State.bandWritten, hr, hp, Bool.not_true, Bool.false_eq_true, if_false]
  rfl

theorem State.bandWritten_past {o : PastFrame} (hp : (s.slotSt d k).past = some o) :
    let t := (s.pastSlot d k o).writeBand d k o.frame o.band
    s.bandWritten d k = { s with hbm := t.hbm, sent := t.sent }.setSlotSt d k
      { s.slotSt d k with past := if o.band + 1 < t.bandCount d k then some { o with band := o.band + 1 } else none } := by
  intro t
  simp only [State.bandWritten, hr, hp, Bool.not_true, Bool.false_eq_true, if_false, decide_eq_true_eq]
  rfl

end

theorem State.nextBand_now {s : State} {d k : Nat} (h : (s.slotSt d k).past = none) : s.nextBand d k = (s.slotSt d k).band := by
  simp only [State.nextBand, h]

theorem State.nextBand_past {s : State} {d k : Nat} {o : PastFrame} (h : (s.slotSt d k).past = some o) : s.nextBand d k = o.band := by
  simp only [State.nextBand, h]

/-- R189: the slot's next band of this frame. -/
theorem bandWritten_now {d : Fin 8} {k : Fin 16} {s : State} (hr : s.bandReady d k = true) (hp : (s.slotSt d k).past = none) :
    Gives (.bandWritten d k (s.slotSt d k).band) s fun t =>
      (t.slotSt d k).band = (s.slotSt d k).band + 1 ∧
      t.hbm = (s.writeBand d k (s.chFrameNow (s.taken d k (F.CMP_SLOTs_CFG_CHANNEL d k))) (s.slotSt d k).band).hbm ∧ t.host = s.host ∧
      RegsBut ((List.range 4).map (R.CMP_Ck_COUNT d)) s t := by
  let c := s.taken d k (F.CMP_SLOTs_CFG_CHANNEL d k)
  let x := s.slotSt d k
  have hw := stackWrites_writeBand s d k (s.chFrameNow c) x.band
  have hc := only_bandCounted (s.writeBand d k (s.chFrameNow c) x.band) d k c (s.chFrameNow c) x.band x.missed
  refine ⟨_, (exec_bandWritten_next (State.nextBand_now hp)).trans (congrArg _ (State.bandWritten_now hr hp)), ?band, ?hbm, ?host,
    fun a ha hrec => (State.reg_setSlotSt _ d k _ a).trans ((hc.1 a ha hrec).trans (hw.reg a))⟩
  case band => rw [State.slotSt_setSlotSt_same]
  case hbm => rw [State.setSlotSt_hbm, hc.hbm]
  case host => rw [State.setSlotSt_host, hc.host, hw.host]

/-- R189: a band that the frame before has left. -/
theorem bandWritten_past {d : Fin 8} {k : Fin 16} {s : State} {o : PastFrame} (hr : s.bandReady d k = true)
    (hp : (s.slotSt d k).past = some o) : Gives (.bandWritten d k o.band) s fun t =>
      t.hbm = ((s.pastSlot d k o).writeBand d k o.frame o.band).hbm ∧
      t.slotSt d k = { s.slotSt d k with past := if o.band + 1 < (s.pastSlot d k o).bandCount d k then some { o with band := o.band + 1 } else none } ∧
      RegsSame s t ∧ t.host = s.host := by
  have hcount := (stackWrites_writeBand (s.pastSlot d k o) d k o.frame o.band).bandCount d k
  refine ⟨_, (exec_bandWritten_next (State.nextBand_past hp)).trans (congrArg _ (State.bandWritten_past hr hp)), rfl, ?slot, ⟨rfl, rfl⟩, rfl⟩
  case slot => rw [State.slotSt_setSlotSt_same, hcount]

/-! ## The rebuild of a plane (R211) -/

theorem flattens_ok (d k : Nat) : (F.CMP_Ck_COUNT_FLATTENS d k).ok := (by decide : 16 + 16 ≤ 32)

theorem cmpCount_injective (d : Nat) : Function.Injective (R.CMP_Ck_COUNT d) := fun i j h => by
  simp only [R.CMP_Ck_COUNT] at h
  omega

/-- Counting on a row of fields, each in a register of its own, where a condition holds. -/
theorem State.rd_forRange_inc (s : State) {f : Nat → Fld} (hok : ∀ i, (f i).ok) (hreg : Function.Injective fun i => (f i).reg)
    (p : Nat → Prop) [DecidablePred p] (n j : Nat) : (s.forRange n fun i s => if p i then s.inc (f i) else s).rd (f j) =
      if j < n ∧ p j then min (s.rd (f j) + 1) (2 ^ (f j).width - 1) else s.rd (f j) := by
  induction n with
  | zero => rfl
  | succ n ih =>
    rw [State.forRange_succ]
    by_cases hj : j = n
    · subst hj
      have hbefore : (s.forRange j fun i s => if p i then s.inc (f i) else s).rd (f j) = s.rd (f j) :=
        ih.trans (if_neg fun h => Nat.lt_irrefl j h.1)
      by_cases hp : p j
      · rw [if_pos hp, if_pos ⟨Nat.lt_succ_self j, hp⟩, State.rd_inc_same _ _ (hok j), hbefore]
      · rw [if_neg hp, if_neg fun h => hp h.2, hbefore]
    · have hne : (f j).reg ≠ (f n).reg := fun e => hj (hreg e)
      have hlt : j < n + 1 ↔ j < n := by omega
      simp only [hlt, ← ih]
      split
      · exact State.rd_wr_reg_ne _ _ hne
      · rfl

/-- `s` with the plane of run m built and noted, the run beginning at layer l. -/
def State.planeBuilt (s : State) (d k l n m : Nat) : State :=
  (s.buildPlane d k m (l, n)).setSlotSt d k { s.slotSt d k with built := (s.slotSt d k).built ++ [l] }

/-- `s` with a rebuild counted on the compositors of a mask. -/
def State.flattensCounted (s : State) (d mask : Nat) : State :=
  s.forRange 4 fun j s => if mask / 2 ^ j % 2 = 1 then s.inc (F.CMP_Ck_COUNT_FLATTENS d j) else s

theorem State.rebuilt_run {s : State} {d k l n m : Nat} (hnew : (s.slotSt d k).built.contains l = false)
    (hrun : ((State.runsOf (s.taken d k) d k).zipIdx.find? fun r => r.1.1 == l) = some ((l, n), m)) :
    s.rebuilt d k l = (s.planeBuilt d k l n m).flattensCounted d (s.taken d k (F.CMP_SLOTs_CFG_COMP_MASK d k)) := by
  have hany : (State.runsOf (s.taken d k) d k).any (·.1 == l) = true :=
    List.any_eq_true.2 ⟨(l, n), List.fst_mem_of_mem_zipIdx (List.mem_of_find?_eq_some hrun), beq_self_eq_true l⟩
  rw [State.rebuilt, if_pos (by simp only [hany, hnew, Bool.not_false, and_self]), hrun]
  rfl

theorem only_flattensCounted (s : State) (d mask : Nat) : Only ((List.range 4).map (R.CMP_Ck_COUNT d)) s (s.flattensCounted d mask) :=
  Only.forRange (fun j hj s => by
    split
    · exact only_cmpCounts hj (only_inc s (F.CMP_Ck_COUNT_FLATTENS d j))
    · exact .refl _ s) s

theorem flattenRebuildDone_run {d : Fin 8} {k l : Fin 16} {n m : Nat} {s : State} (hnew : (s.slotSt d k).built.contains l.val = false)
    (hrun : ((State.runsOf (s.taken d k) d k).zipIdx.find? fun r => r.1.1 == l.val) = some ((l.val, n), m)) :
    Gives (.flattenRebuildDone d k l) s fun t => (t.slotSt d k).built = (s.slotSt d k).built ++ [l.val] ∧
      t.hbm = (s.buildPlane d k m (l.val, n)).hbm ∧ t.host = s.host ∧
      (∀ j : Fin 4, t.rd (F.CMP_Ck_COUNT_FLATTENS d j) =
        if s.taken d k (F.CMP_SLOTs_CFG_COMP_MASK d k) / 2 ^ j.val % 2 = 1 then
          min (s.rd (F.CMP_Ck_COUNT_FLATTENS d j) + 1) (2 ^ (F.CMP_Ck_COUNT_FLATTENS d j).width - 1)
        else s.rd (F.CMP_Ck_COUNT_FLATTENS d j)) ∧
      RegsBut ((List.range 4).map (R.CMP_Ck_COUNT d)) s t := by
  have hb := stackWrites_buildPlane s d k m (l.val, n)
  have hc := only_flattensCounted (s.planeBuilt d k l n m) d (s.taken d k (F.CMP_SLOTs_CFG_COMP_MASK d k))
  refine ⟨_, congrArg Host.Outcome.next (State.rebuilt_run hnew hrun), ?noted, hc.hbm, hc.host.trans hb.host, fun j => ?counted,
    fun a ha hrec => (hc.1 a ha hrec).trans (hb.reg a)⟩
  case noted => exact (congrArg SlotSt.built (hc.slotSt d k)).trans (congrArg SlotSt.built (State.slotSt_setSlotSt_same _ d k _))
  case counted =>
    rw [State.flattensCounted, State.rd_forRange_inc _ (flattens_ok d) (cmpCount_injective d)]
    have hrd : (s.planeBuilt d k l n m).rd (F.CMP_Ck_COUNT_FLATTENS d j) = s.rd (F.CMP_Ck_COUNT_FLATTENS d j) := hb.rd _
    simp only [hrd, j.isLt, true_and]

/-! ## The end of a wait (R200) -/

/-- `s` with layer l latched as it is at the end of its wait, and the position kept. -/
def State.waitEnded (s : State) (d k l c : Nat) : State :=
  let y := s.layerSt d k l
  let v := s.setLayerSt d k l { y with waiting := false, on_ := y.on_ || (y.shown.isSome && s.composes d k l) }
  v.setSlotSt d k { v.slotSt d k with waitAt := v.chUnits c }

section
variable {d : Fin 8} {k l : Fin 16} {s : State} (hw : (s.layerSt d k l).waiting = true)
  (hpos : s.linePos (s.taken d k (F.CMP_SLOTs_CFG_CHANNEL d k)) (s.chFrameNow (s.taken d k (F.CMP_SLOTs_CFG_CHANNEL d k)))
    (s.taken d k (F.CMP_SLOTs_Ll_WAIT_LINES d k l)) ≤ s.chUnits (s.taken d k (F.CMP_SLOTs_CFG_CHANNEL d k)))
include hw hpos

theorem exec_layerWaitExpired_passed : exec (.layerWaitExpired d k l) s = .next
    (((if s.taken d k (F.CMP_SLOTs_Ll_CFG_SRC d k l) = 1 then
        (s.takeReady d k l (s.now (s.chTl (s.taken d k (F.CMP_SLOTs_CFG_CHANNEL d k))))).1 else s).waitEnded d k l
      (s.taken d k (F.CMP_SLOTs_CFG_CHANNEL d k))).inc (F.CMP_SLOTs_Ll_CNT_B_WAIT_EXPIRED d k l)) :=
  congrArg Host.Outcome.next (if_pos ⟨hw, hpos⟩)

theorem exec_layerWaitExpired_image (hsrc : s.taken d k (F.CMP_SLOTs_Ll_CFG_SRC d k l) = 1) : exec (.layerWaitExpired d k l) s = .next
    (((s.takeReady d k l (s.now (s.chTl (s.taken d k (F.CMP_SLOTs_CFG_CHANNEL d k))))).1.waitEnded d k l
      (s.taken d k (F.CMP_SLOTs_CFG_CHANNEL d k))).inc (F.CMP_SLOTs_Ll_CNT_B_WAIT_EXPIRED d k l)) := by
  rw [exec_layerWaitExpired_passed hw hpos, if_pos hsrc]

/-- A layer that has no image ready ends its wait as it stands. -/
theorem exec_layerWaitExpired_none (hno : s.taken d k (F.CMP_SLOTs_Ll_CFG_SRC d k l) ≠ 1 ∨ (s.layerSt d k l).ready = none) :
    exec (.layerWaitExpired d k l) s = .next
      ((s.waitEnded d k l (s.taken d k (F.CMP_SLOTs_CFG_CHANNEL d k))).inc (F.CMP_SLOTs_Ll_CNT_B_WAIT_EXPIRED d k l)) := by
  rw [exec_layerWaitExpired_passed hw hpos]
  split
  next hsrc => simp only [State.takeReady, hno.resolve_left (Classical.not_not.2 hsrc)]
  next => rfl

end

theorem State.layerSt_waitEnded (s : State) (d k l c : Nat) : (s.waitEnded d k l c).layerSt d k l = { s.layerSt d k l with
    waiting := false, on_ := (s.layerSt d k l).on_ || ((s.layerSt d k l).shown.isSome && s.composes d k l) } := by
  rw [State.layerSt, State.waitEnded, State.slotSt_setSlotSt_same]
  exact State.layerSt_setLayerSt_same s d k l _

/-- The end of a wait moves composition's tables alone. -/
theorem State.waitEnded_frame (s : State) (d k l c : Nat) : s.waitEnded d k l c = { s with cmp := (s.waitEnded d k l c).cmp } := rfl

theorem State.waitAt_waitEnded (s : State) (d k l c : Nat) : ((s.waitEnded d k l c).slotSt d k).waitAt = s.chUnits c := by
  rw [State.waitEnded, State.slotSt_setSlotSt_same]
  rfl

theorem layerWaitExpired_none {d : Fin 8} {k l : Fin 16} {s : State} (hw : (s.layerSt d k l).waiting = true)
    (hpos : s.linePos (s.taken d k (F.CMP_SLOTs_CFG_CHANNEL d k)) (s.chFrameNow (s.taken d k (F.CMP_SLOTs_CFG_CHANNEL d k)))
      (s.taken d k (F.CMP_SLOTs_Ll_WAIT_LINES d k l)) ≤ s.chUnits (s.taken d k (F.CMP_SLOTs_CFG_CHANNEL d k)))
    (hno : s.taken d k (F.CMP_SLOTs_Ll_CFG_SRC d k l) ≠ 1 ∨ (s.layerSt d k l).ready = none) :
    Gives (.layerWaitExpired d k l) s fun t => t.layerSt d k l = { s.layerSt d k l with waiting := false, on_ :=
        (s.layerSt d k l).on_ || ((s.layerSt d k l).shown.isSome && s.composes d k l) } ∧
      (t.slotSt d k).waitAt = s.chUnits (s.taken d k (F.CMP_SLOTs_CFG_CHANNEL d k)) ∧
      t.rd (F.CMP_SLOTs_Ll_CNT_B_WAIT_EXPIRED d k l) =
        min (s.rd (F.CMP_SLOTs_Ll_CNT_B_WAIT_EXPIRED d k l) + 1) (2 ^ (F.CMP_SLOTs_Ll_CNT_B_WAIT_EXPIRED d k l).width - 1) ∧
      Only [(F.CMP_SLOTs_Ll_CNT_B_WAIT_EXPIRED d k l).reg] { s with cmp := t.cmp } t := by
  let c := s.taken d k (F.CMP_SLOTs_CFG_CHANNEL d k)
  have hc := only_inc (s.waitEnded d k l c) (F.CMP_SLOTs_Ll_CNT_B_WAIT_EXPIRED d k l)
  refine ⟨_, exec_layerWaitExpired_none hw hpos hno, ?layer, ?waitAt, ?count, ?frame⟩
  case layer => exact (hc.layerSt d k l).trans (s.layerSt_waitEnded d k l c)
  case waitAt => exact (congrArg SlotSt.waitAt (hc.slotSt d k)).trans (s.waitAt_waitEnded d k l c)
  case count => exact State.rd_inc_same _ (F.CMP_SLOTs_Ll_CNT_B_WAIT_EXPIRED d k l) (by decide : 16 + 16 ≤ 32)
  case frame =>
    rw [s.waitEnded_frame] at hc
    exact hc.of_cmp

/-! ## LAYER_SRC (R195) -/

theorem getLsbD_of_getBits_eq_zero {w : Word} {lo width i : Nat} (h : getBits w lo width = 0) (hlo : lo ≤ i) (hi : i < lo + width) :
    w.getLsbD i = false := by
  have hbit : (getBits w lo width).testBit (i - lo) = false := by rw [h]; exact Nat.zero_testBit _
  rw [getBits, Nat.testBit_mod_two_pow, Nat.testBit_div_two_pow, Nat.sub_add_cancel hlo, decide_eq_true (by omega)] at hbit
  exact hbit

/-- A word has nothing under a mask whose bits are all zero in it. -/
theorem and_eq_zero_of_bits {w m : Word} (h : ∀ i : Fin 32, m.getLsbD i = true → w.getLsbD i = false) : w &&& m = 0 := by
  apply BitVec.eq_of_getLsbD_eq
  intro i hi
  have hw := h ⟨i, hi⟩
  cases hm : m.getLsbD i
  · simp [hm]
  · simp [hw hm]

/-- The bits of word 11 beside the width and the height of an image. -/
theorem sizeMask_bits : ∀ i : Fin 32, (0xE000C000 : Word).getLsbD i = true → 14 ≤ i.val ∧ i.val < 14 + 2 ∨ 29 ≤ i.val := by decide

theorem layerSrc_reserved {ws : List Word} (h6 : fieldAt ws 6 5 27 = 0) (h11 : fieldAt ws 11 14 2 = 0) (h11' : fieldAt ws 11 29 3 = 0)
    (h12 : fieldAt ws 12 24 8 = 0) (h13 : ws.getD 13 0 = 0) (h14 : ws.getD 14 0 = 0) :
    ([(6, 0xFFFFFFE0), (11, 0xE000C000), (12, 0xFF000000)] ++ bodyZero 13 14).any (fun (k, m) => ws.getD k 0 &&& m != 0) = false := by
  have hword6 : ws.getD 6 0 &&& 0xFFFFFFE0 = 0 := and_onesFrom_eq_zero (lo := 5) h6
  have hword11 : ws.getD 11 0 &&& 0xE000C000 = 0 := and_eq_zero_of_bits fun i hm => (sizeMask_bits i hm).elim
    (fun hi => getLsbD_of_getBits_eq_zero h11 hi.1 hi.2) (fun hi => getLsbD_of_getBits_eq_zero h11' hi i.isLt)
  have hword12 : ws.getD 12 0 &&& 0xFF000000 = 0 := and_onesFrom_eq_zero (lo := 24) h12
  have hbody : bodyZero 13 14 = [(13, 0xFFFFFFFF), (14, 0xFFFFFFFF)] := by decide
  have hword13 : ws.getD 13 0 &&& 0xFFFFFFFF = 0 := by rw [h13]; exact BitVec.zero_and
  have hword14 : ws.getD 14 0 &&& 0xFFFFFFFF = 0 := by rw [h14]; exact BitVec.zero_and
  simp only [hbody, List.cons_append, List.nil_append, List.any_cons, List.any_nil, hword6, hword11, hword12, hword13, hword14,
    bne_self_eq_false, Bool.or_self]

/-- The checks of a LAYER_SRC look at nothing that the taking of its descriptor changes. -/
theorem State.layerCheck_popFetched (s : State) (r : Nat) (x : Desc) : (s.popFetched r).layerCheck x = s.layerCheck x := rfl

section
variable {r : Fin 4096} {s : State} {x : Desc} (hd : s.dispatchable r 0x10 = some x)
  (hres : ([(6, 0xFFFFFFE0), (11, 0xE000C000), (12, 0xFF000000)] ++ bodyZero 13 14).any (fun (k, m) => x.words.getD k 0 &&& m != 0) = false)
include hd hres

theorem exec_layerSrc_accepted (hc : s.layerCheck x = 0) : exec (.layerSrc r) s = .next ((s.popFetched r).layerStart r x) :=
  congrArg Host.Outcome.next (State.dispatch_works hd hres ((s.layerCheck_popFetched r x).trans hc))

theorem exec_layerSrc_refused {c : Nat} (h : s.layerCheck x = c) (hc : c ≠ 0) :
    exec (.layerSrc r) s = .next ((s.popFetched r).refuseDesc r x c) :=
  congrArg Host.Outcome.next (State.dispatch_refuses hd hres ((s.layerCheck_popFetched r x).trans h) hc)

end

/-- R195, R196: an accepted LAYER_SRC is the last of the reads of the layer it names. -/
theorem State.layerStart_slot {s : State} {r d k : Nat} {x : Desc} (hcrown : s.crownOf (dTarget x.words) = some d)
    (hslot : s.slotOf d (dStream x.words / 8) = some k) : s.layerStart r x =
      (s.startJob r x .running).setLayerSt d k (lsLayer x.words)
        { s.layerSt d k (lsLayer x.words) with queue := (s.layerSt d k (lsLayer x.words)).queue ++ [jobKey r x.idx] } := by
  have hcrown' : (s.startJob r x .running).crownOf (dTarget x.words) = some d := hcrown
  have hslot' : (s.startJob r x .running).slotOf d (dStream x.words / 8) = some k := hslot
  simp only [State.layerStart, hcrown', hslot']
  rfl

theorem State.setLayerSt_still {s t : State} (d k l : Nat) (x : LayerSt) (h : RegsSame s t ∧ MemSame s t) :
    RegsSame s (t.setLayerSt d k l x) ∧ MemSame s (t.setLayerSt d k l x) := h

theorem State.layerStart_gives {s : State} {r d k : Nat} {x : Desc} (hcrown : s.crownOf (dTarget x.words) = some d)
    (hslot : s.slotOf d (dStream x.words / 8) = some k) :
    let t := (s.popFetched r).layerStart r x
    t.job (jobKey r x.idx) = some ⟨r, x.idx, x.words, .running, Wm.zero, none, false, none, none, []⟩ ∧
      (t.layerSt d k (lsLayer x.words)).queue = (s.layerSt d k (lsLayer x.words)).queue ++ [jobKey r x.idx] ∧ RegsSame s t ∧ MemSame s t := by
  intro t
  have ht : t = _ := State.layerStart_slot (s := s.popFetched r) hcrown hslot
  rw [ht]
  refine ⟨?job, ?queue, State.setLayerSt_still _ _ _ _ (State.setJob_still _ _ (s.popFetched_still r))⟩
  case job => exact State.job_setJob_same (s.popFetched r) _ _
  case queue => rw [State.layerSt_setLayerSt_same]; rfl

/-! ## The lines of an image (R196) -/

theorem State.layerLines_oldest {s : State} {key n d k l : Nat} {j : Job} {data : List Byte} (hl : s.layerOf j = some (d, k, l))
    (hfirst : ((s.layerReads d k l).head?.map (·.1)) = some key)
    (hlen : data.length = (n - j.wm.rows) * (planeBytes (s.filling_ d k l key j).img.fmt (s.filling_ d k l key j).img.w).sum) :
    let f := s.filling_ d k l key j
    let t := s.fillImage d f.img j.wm.rows data
    s.layerLines key j n data = t.setLayerSt d k l { t.layerSt d k l with fill := some { f with rows := n } } := by
  simp only [State.layerLines, hl, hfirst, ne_eq, not_true_eq_false, if_false, ← hlen, Nat.sub_self, List.replicate_zero, List.append_nil,
    List.take_length]

theorem layerLines_fill {s : State} {key n d k l : Nat} {j : Job} {data : List Byte} (hl : s.layerOf j = some (d, k, l))
    (hfirst : ((s.layerReads d k l).head?.map (·.1)) = some key)
    (hlen : data.length = (n - j.wm.rows) * (planeBytes (s.filling_ d k l key j).img.fmt (s.filling_ d k l key j).img.w).sum) :
    ((s.layerLines key j n data).layerSt d k l).fill = some { s.filling_ d k l key j with rows := n } ∧
      (s.layerLines key j n data).hbm = (s.fillImage d (s.filling_ d k l key j).img j.wm.rows data).hbm := by
  rw [State.layerLines_oldest hl hfirst hlen, State.layerSt_setLayerSt_same]
  exact ⟨rfl, rfl⟩

/-- The oldest of a layer's reads stands in its queue. -/
theorem State.mem_queue_of_oldest {s : State} {d k l key : Nat} (h : ((s.layerReads d k l).head?.map (·.1)) = some key) :
    key ∈ (s.layerSt d k l).queue := by
  obtain ⟨p, hp, rfl⟩ := Option.map_eq_some_iff.1 h
  obtain ⟨a, ha, hread⟩ := List.mem_filterMap.1 (List.mem_of_mem_head? hp)
  have hkey : p.1 = a := by
    split at hread
    · split at hread
      · exact (congrArg Prod.fst (Option.some.inj hread)).symm
      · cases hread
    · cases hread
  rwa [hkey]

/-! ## The completion of a read (R196) -/

/-- The lines of a layer's oldest read that came in since its last safe point, translated and put into its third of the buffer. -/
def State.imageLines (s : State) (r : Fin 4096) (idx : Word) (data : List Byte) (j : Job) (w : Wm) : State :=
  (s.xlateRange (s.ringPasid r) (lsAddr j.words + j.wm.lastOff) (w.lastOff - j.wm.lastOff)).layerLines (descKey r idx) j (lsH j.words) data

/-- The image of work `key` for layer l of slot k is READY and replaces an older one, which counts as superseded. -/
def State.imageMadeReady (s : State) (d k l key : Nat) (img : Img) : State :=
  let v := if (s.layerSt d k l).ready.isSome then s.inc (F.CMP_SLOTs_Ll_CNT_C_SUPERSEDED d k l) else s
  ((v.setLayerSt d k l { s.layerSt d k l with
    queue := (s.layerSt d k l).queue.filter (· != key), ready := some img, fill := none }).showLayer d k l).waitDone d k l

/-- An image whose SHOW lies before the frame start comes late, unless its layer waits. -/
def State.comesLate (s : State) (d k l c : Nat) (sh : Option Nat) : Bool :=
  !(s.layerSt d k l).waiting && (match sh with | some t => !later t (s.chStamp c (s.frameStart c (s.chFrameNow c))) | none => false)

section
variable {r : Fin 4096} {idx : Word} {data : List Byte} {s : State} {j : Job} {d k : Nat}

theorem State.layerOf_some (hcrown : s.crownOf (dTarget j.words) = some d) (hslot : s.slotOf d (dStream j.words / 8) = some k) :
    s.layerOf j = some (d, k, lsLayer j.words) := by
  simp only [State.layerOf, hcrown, hslot, Option.map_some]

/-- A read that runs on, the oldest of its layer, with all its bytes: DONE, and its image READY. -/
theorem exec_layerImageReady_done (hj : s.job (descKey r idx) = some j) (hl : s.layerOf j = some (d, k, lsLayer j.words))
    (hop : dOpcode j.words = 0x10) (hrun : j.phase = .running) (hfault : j.faulted = false) (hstop : j.stop = none)
    (hfirst : ((s.layerReads d k (lsLayer j.words)).head?.map (·.1)) = some (descKey r idx))
    (hlen : data.length = (planeBytes (s.rd (F.CMP_SLOTs_Ll_CFG_FORMAT d k (lsLayer j.words))) (lsW j.words)).sum * (lsH j.words - j.wm.rows)) :
    let l := lsLayer j.words
    let w := layerWm (s.rd (F.CMP_SLOTs_Ll_CFG_FORMAT d k l)) j.words (lsH j.words)
    let a := s.imageLines r idx data j w
    let u := (a.freePark (.desc r idx)).endJob (descKey r idx) 0 0 w
    exec (.layerImageReady r ⟨idx, data⟩) s = .next (u.imageMadeReady d k l (descKey r idx) { (a.filling_ d k l (descKey r idx) j).img with
      late := u.comesLate d k l (dStream j.words / 8) (if lsNow j.words then none else some (lsShow j.words)) }) := by
  have hqueue : (s.layerSt d k (lsLayer j.words)).queue.contains (descKey r idx) = true := List.contains_iff_mem.2 (State.mem_queue_of_oldest hfirst)
  change Host.Outcome.next (s.imageReady r idx data) = _
  simp only [State.imageReady, hj, hl, hop, hrun, hfault, hstop, hfirst, hqueue, hlen, Bool.not_true, Bool.false_eq_true, ne_eq, not_true_eq_false,
    or_self, and_false, if_false]
  rfl

end

/-- Settles O37: a LAYER_SRC and its lines, the end of a wait, the bands and the planes. -/
theorem compositionEvents : Obligations.CompositionEvents := by
  refine ⟨fun r s x d k hd h6 h11 h11' h12 h13 h14 => ?source,
    fun r idx data s j d k hj hcrown hslot hop hrun hfault hstop hfirst hlen => ?imageReady,
    fun s key n d k l j data hl hfirst hlen => layerLines_fill hl hfirst hlen,
    fun d k l s hw hpos hno => layerWaitExpired_none hw hpos hno,
    fun d k l s hw hpos hsrc => exec_layerWaitExpired_image hw hpos hsrc,
    fun d k s hr hp => bandWritten_now hr hp, fun d k s o hr hp => bandWritten_past hr hp,
    fun d k b s h => exec_bandWritten_not h, fun d k l n m s hnew hrun => flattenRebuildDone_run hnew hrun⟩
  case imageReady =>
    have h := exec_layerImageReady_done hj (State.layerOf_some hcrown hslot) hop hrun hfault hstop hfirst hlen
    simp only [State.imageMadeReady, State.comesLate, State.imageLines] at h
    exact h
  case source =>
    have hres := layerSrc_reserved h6 h11 h11' h12 h13 h14
    refine ⟨fun hc hcrown hslot => ?accepted, fun c h hc => exec_layerSrc_refused hd hres h hc⟩
    have hexec := exec_layerSrc_accepted hd hres hc
    exact ⟨hexec, _, hexec, State.layerStart_gives hcrown hslot⟩

end Sys2Proof.Machine
end

section
/-!
PROOFS. What every step keeps (spec/95): each command answers a next state that keeps the queue, the variant, the clock's count and
what was sent, and keeps the storage canonical; a cycle on an empty queue keeps the storage canonical as well.
-/
namespace Sys2Proof.Machine

/-- The command that stands for a constructor keeps what its own lemma says. -/
theorem exec_keeps (c : Instr) (s : State) : KeepsOut s (exec c s) := by
  cases c with
  | tlEnable n freerun => exact execTlEnable_keeps n freerun (.refl s)
  | tlDisable n => exact execTlDisable_keeps n (.refl s)
  | tlFreerun n => exact execTlFreerun_keeps n (.refl s)
  | ltNowRead q n => exact execLtNowRead_keeps q n (.refl s)
  | ltCapture => exact execLtCapture_keeps (.refl s)
  | channelFrameStart c => exact execChannelFrameStart_keeps c (.refl s)
  | refSample k m => exact execRefSample_keeps k m (.refl s)
  | refWtrExpired k => exact execRefWtrExpired_keeps k (.refl s)
  | refDwellExpired k => exact execRefDwellExpired_keeps k (.refl s)
  | refActivityTimeout m => exact execRefActivityTimeout_keeps m (.refl s)
  | selSlewDone n => exact execSelSlewDone_keeps n (.refl s)
  | selForce n v => exact execSelForce_keeps n v (.refl s)
  | selBetterClr n v => exact execSelBetterClr_keeps n v (.refl s)
  | selSlopeWrite n v => exact execSelSlopeWrite_keeps n v (.refl s)
  | selStep n v => exact execSelStep_keeps n v (.refl s)
  | selHistMinute => exact execSelHistMinute_keeps (.refl s)
  | ptpSync p m => exact execPtpSync_keeps p m (.refl s)
  | ptpFollowUp n0 m => exact execPtpFollowUp_keeps n0 m (.refl s)
  | ptpAnnounce n0 m => exact execPtpAnnounce_keeps n0 m (.refl s)
  | ptpDelayResp n0 m => exact execPtpDelayResp_keeps n0 m (.refl s)
  | ptpDelayReqTimer n0 => exact execPtpDelayReqTimer_keeps n0 (.refl s)
  | ptpAnnounceTimeout n0 => exact execPtpAnnounceTimeout_keeps n0 (.refl s)
  | ptpSetReq v => exact execPtpSetReq_keeps v (.refl s)
  | ptpRearm v => exact execPtpRearm_keeps v (.refl s)
  | ptpServoSelect v => exact execPtpServoSelect_keeps v (.refl s)
  | ptpAdjWrite v => exact execPtpAdjWrite_keeps v (.refl s)
  | ptpClkNsRead q => exact execPtpClkNsRead_keeps q (.refl s)
  | ppsSecond => exact execPpsSecond_keeps (.refl s)
  | ppsOutWrite v => exact execPpsOutWrite_keeps v (.refl s)
  | hifLinkTrained cxl width rate flit256 cache mem ats pri pasid => exact execHifLinkTrained_keeps cxl width rate flit256 cache mem ats pri pasid (.refl s)
  | hdmDecoderCommit => exact execHdmDecoderCommit_keeps (.refl s)
  | dbSnoop r => exact execDbSnoop_keeps r (.refl s)
  | dbHoldoffExpired r => exact execDbHoldoffExpired_keeps r (.refl s)
  | dbReadReturn r index dbgen => exact execDbReadReturn_keeps r index dbgen (.refl s)
  | mmioDbIndex r index => exact execMmioDbIndex_keeps r index (.refl s)
  | mmioDbPresent r dbgen => exact execMmioDbPresent_keeps r dbgen (.refl s)
  | mmioDbBoth r index dbgen => exact execMmioDbBoth_keeps r index dbgen (.refl s)
  | descFetch r words => exact execDescFetch_keeps r words (.refl s)
  | descPoll r words => exact execDescPoll_keeps r words (.refl s)
  | genStallTimeout r => exact execGenStallTimeout_keeps r (.refl s)
  | nop r => exact execNop_keeps r (.refl s)
  | capsule r => exact execCapsule_keeps r (.refl s)
  | dmaH2d r => exact execDmaH2d_keeps r (.refl s)
  | dmaD2h r => exact execDmaD2h_keeps r (.refl s)
  | dmaComplete r idx data => exact execDmaComplete_keeps r idx data (.refl s)
  | batchTimeout r => exact execBatchTimeout_keeps r (.refl s)
  | batchFlushTick n => exact execBatchFlushTick_keeps n (.refl s)
  | irqGapExpired v => exact execIrqGapExpired_keeps v (.refl s)
  | ringEnable r => exact execRingEnable_keeps r (.refl s)
  | ringDisable r => exact execRingDisable_keeps r (.refl s)
  | ringDrainDone r => exact execRingDrainDone_keeps r (.refl s)
  | ringDrainStall r => exact execRingDrainStall_keeps r (.refl s)
  | xltFault w addr => exact execXltFault_keeps w addr (.refl s)
  | taskPark w x => exact execTaskPark_keeps w x (.refl s)
  | parkHoldExpired w => exact execParkHoldExpired_keeps w (.refl s)
  | pageResponse prg code => exact execPageResponse_keeps prg code (.refl s)
  | priTimeout w => exact execPriTimeout_keeps w (.refl s)
  | priStopped => exact execPriStopped_keeps (.refl s)
  | accessError w => exact execAccessError_keeps w (.refl s)
  | atsInvalidation pasid addr log2size => exact execAtsInvalidation_keeps pasid addr log2size (.refl s)
  | atsInvalComplete slow => exact execAtsInvalComplete_keeps slow (.refl s)
  | xltFlush => exact execXltFlush_keeps (.refl s)
  | descDeadline r idx => exact execDescDeadline_keeps r idx (.refl s)
  | stgOpen q any set => exact execStgOpen_keeps q any set (.refl s)
  | stgCommit q set n => exact execStgCommit_keeps q set n (.refl s)
  | stgAbort q set => exact execStgAbort_keeps q set (.refl s)
  | stgWselWrite q v => exact execStgWselWrite_keeps q v (.refl s)
  | stagedWrite q addr v => exact execStagedWrite_keeps q addr v (.refl s)
  | directWrite q addr v => exact execDirectWrite_keeps q addr v (.refl s)
  | commitApply set => exact execCommitApply_keeps set (.refl s)
  | capsuleStart r => exact execCapsuleStart_keeps r (.refl s)
  | capsuleReadComplete r idx image => exact execCapsuleReadComplete_keeps r idx image (.refl s)
  | capsuleHoldExpired r => exact execCapsuleHoldExpired_keeps r (.refl s)
  | taskSubmit r => exact execTaskSubmit_keeps r (.refl s)
  | taskCancel r => exact execTaskCancel_keeps r (.refl s)
  | taskWake d l => exact execTaskWake_keeps d l (.refl s)
  | taskStart d k => exact execTaskStart_keeps d k (.refl s)
  | taskEnd d k outcome reason wm => exact execTaskEnd_keeps d k outcome reason wm (.refl s)
  | taskSafePoint w x => exact execTaskSafePoint_keeps w x (.refl s)
  | schConsTake d k => exact execSchConsTake_keeps d k (.refl s)
  | schConsEnd d k v => exact execSchConsEnd_keeps d k v (.refl s)
  | schConsWm3 d k v => exact execSchConsWm3_keeps d k v (.refl s)
  | schQueueRevoke d q => exact execSchQueueRevoke_keeps d q (.refl s)
  | schUsecRead d => exact execSchUsecRead_keeps d (.refl s)
  | taskDeadline d t => exact execTaskDeadline_keeps d t (.refl s)
  | ingPacket x => exact execIngPacket_keeps x (.refl s)
  | sdiLine c x => exact execSdiLine_keeps c x (.refl s)
  | flowAdd => exact execFlowAdd_keeps (.refl s)
  | flowReplace => exact execFlowReplace_keeps (.refl s)
  | flowDelete n0 => exact execFlowDelete_keeps n0 (.refl s)
  | flowRead n0 => exact execFlowRead_keeps n0 (.refl s)
  | lineComplete c => exact execLineComplete_keeps c (.refl s)
  | ingLossTimeout c => exact execIngLossTimeout_keeps c (.refl s)
  | layerSrc r => exact execLayerSrc_keeps r (.refl s)
  | layerImageReady r x => exact execLayerImageReady_keeps r x (.refl s)
  | layerWaitExpired d k l => exact execLayerWaitExpired_keeps d k l (.refl s)
  | bandWritten d k band => exact execBandWritten_keeps d k band (.refl s)
  | flattenRebuildDone d k l => exact execFlattenRebuildDone_keeps d k l (.refl s)
  | cmpCoefAccess d v => exact execCmpCoefAccess_keeps d v (.refl s)
  | lutData0Write d k v => exact execLutData0Write_keeps d k v (.refl s)
  | lutData1Write d k v => exact execLutData1Write_keeps d k v (.refl s)
  | lutCrcDone d k b => exact execLutCrcDone_keeps d k b (.refl s)
  | encRefreshReq d n0 v => exact execEncRefreshReq_keeps d n0 v (.refl s)
  | rowArrival d n0 x => exact execRowArrival_keeps d n0 x (.refl s)
  | rowHandover d n0 => exact execRowHandover_keeps d n0 (.refl s)
  | motionAreaCoarse d n0 ax ay pic => exact execMotionAreaCoarse_keeps d n0 ax ay pic (.refl s)
  | motionBlockDone d n0 bx by_ tile pic => exact execMotionBlockDone_keeps d n0 bx by_ tile pic (.refl s)
  | motionHint r => exact execMotionHint_keeps r (.refl s)
  | unitCoded d n0 j bits floorBits => exact execUnitCoded_keeps d n0 j bits floorBits (.refl s)
  | eobjRevoke d v => exact execEobjRevoke_keeps d v (.refl s)
  | revokeQuiesced d key => exact execRevokeQuiesced_keeps d key (.refl s)
  | decInput r => exact execDecInput_keeps r (.refl s)
  | decPictureDone d n0 x => exact execDecPictureDone_keeps d n0 x (.refl s)
  | decShowReached d n0 => exact execDecShowReached_keeps d n0 (.refl s)
  | wheelSlot => exact execWheelSlot_keeps (.refl s)
  | portFrameDone p => exact execPortFrameDone_keeps p (.refl s)
  | shaperRefill q => exact execShaperRefill_keeps q (.refl s)
  | shaperWrite q v => exact execShaperWrite_keeps q v (.refl s)
  | gateIntervalEnd p => exact execGateIntervalEnd_keeps p (.refl s)
  | gateChange p en => exact execGateChange_keeps p en (.refl s)
  | gateChangeTime p => exact execGateChangeTime_keeps p (.refl s)
  | gateEnWrite p en => exact execGateEnWrite_keeps p en (.refl s)
  | queueSample => exact execQueueSample_keeps (.refl s)
  | whlHistClr => exact execWhlHistClr_keeps (.refl s)
  | tsPsiTimer f => exact execTsPsiTimer_keeps f (.refl s)
  | tsPcrTimer f => exact execTsPcrTimer_keeps f (.refl s)
  | audioSample a x => exact execAudioSample_keeps a x (.refl s)
  | audioPortFrame p out frame ppm => exact execAudioPortFrame_keeps p out frame ppm (.refl s)
  | audHostWrite a v => exact execAudHostWrite_keeps a v (.refl s)
  | audM0Read a => exact execAudM0Read_keeps a (.refl s)
  | pairHb q n v => exact execPairHb_keeps q n v (.refl s)
  | pairHbTimeout n sd => exact execPairHbTimeout_keeps n sd (.refl s)
  | pairSuspectDecide n sd => exact execPairSuspectDecide_keeps n sd (.refl s)
  | twinHbSend => exact execTwinHbSend_keeps (.refl s)
  | twinHeartbeat x => exact execTwinHeartbeat_keeps x (.refl s)
  | twinHbMiss => exact execTwinHbMiss_keeps (.refl s)
  | leaseRenewTimer n => exact execLeaseRenewTimer_keeps n (.refl s)
  | leaseExpired n => exact execLeaseExpired_keeps n (.refl s)
  | witnessLeaseExpired id => exact execWitnessLeaseExpired_keeps id (.refl s)
  | witRenew m => exact execWitRenew_keeps m (.refl s)
  | witGrant m => exact execWitGrant_keeps m (.refl s)
  | witSuspect m => exact execWitSuspect_keeps m (.refl s)
  | witProbe m => exact execWitProbe_keeps m (.refl s)
  | witProbeAck m => exact execWitProbeAck_keeps m (.refl s)
  | witProbeTimeout id => exact execWitProbeTimeout_keeps id (.refl s)
  | witFence m => exact execWitFence_keeps m (.refl s)
  | witFenceAck m => exact execWitFenceAck_keeps m (.refl s)
  | witVerdict m => exact execWitVerdict_keeps m (.refl s)
  | witYield m => exact execWitYield_keeps m (.refl s)
  | twinCaps x => exact execTwinCaps_keeps x (.refl s)
  | twinCursor words => exact execTwinCursor_keeps words (.refl s)
  | twinFlow words => exact execTwinFlow_keeps words (.refl s)
  | twinTemplate sid block => exact execTwinTemplate_keeps sid block (.refl s)
  | twinRelay typ m => exact execTwinRelay_keeps typ m (.refl s)
  | twinMirror k damaged x => exact execTwinMirror_keeps k damaged x (.refl s)
  | twinMboxHostidxWrite index msgs => exact execTwinMboxHostidxWrite_keeps index msgs (.refl s)
  | pairSwitch n tl back => exact execPairSwitch_keeps n tl back (.refl s)
  | pairDrill n tl back => exact execPairDrill_keeps n tl back (.refl s)
  | pairRejoin n => exact execPairRejoin_keeps n (.refl s)
  | pairAbort n => exact execPairAbort_keeps n (.refl s)
  | pairSwitchStamp n => exact execPairSwitchStamp_keeps n (.refl s)
  | drillWindowEnd n => exact execDrillWindowEnd_keeps n (.refl s)
  | refHoldExpired n sd => exact execRefHoldExpired_keeps n sd (.refl s)
  | hbmEn d en => exact execHbmEn_keeps d en (.refl s)
  | hbmRefreshStart d => exact execHbmRefreshStart_keeps d (.refl s)
  | hbmMapLock d => exact execHbmMapLock_keeps d (.refl s)
  | hbmHotForce d on => exact execHbmHotForce_keeps d on (.refl s)
  | hbmRefreshTick d => exact execHbmRefreshTick_keeps d (.refl s)
  | hbmTempRead d t => exact execHbmTempRead_keeps d t (.refl s)
  | hbmTempTimeout d => exact execHbmTempTimeout_keeps d (.refl s)
  | hbmRhWindow d => exact execHbmRhWindow_keeps d (.refl s)
  | hbmReadDone d master off hit sev => exact execHbmReadDone_keeps d master off hit sev (.refl s)
  | hbmPhyLockLoss d => exact execHbmPhyLockLoss_keeps d (.refl s)
  | hbmTrainWrite d pc all pattern row len => exact execHbmTrainWrite_keeps d pc all pattern row len (.refl s)
  | hbmTrainRead d pc all pattern row len => exact execHbmTrainRead_keeps d pc all pattern row len (.refl s)
  | hbmTrainLoop d pc all pattern row len => exact execHbmTrainLoop_keeps d pc all pattern row len (.refl s)
  | hbmTrainStop d => exact execHbmTrainStop_keeps d (.refl s)
  | hbmTrainDone d errs bits => exact execHbmTrainDone_keeps d errs bits (.refl s)
  | hbm1500Go d v => exact execHbm1500Go_keeps d v (.refl s)
  | hbm1500Done d data => exact execHbm1500Done_keeps d data (.refl s)
  | laneDormantSet n => exact execLaneDormantSet_keeps n (.refl s)
  | laneDormantClear n => exact execLaneDormantClear_keeps n (.refl s)
  | laneDormantExitDone n => exact execLaneDormantExitDone_keeps n (.refl s)
  | laneRestart n => exact execLaneRestart_keeps n (.refl s)
  | laneTestSet n => exact execLaneTestSet_keeps n (.refl s)
  | laneTestClear n => exact execLaneTestClear_keeps n (.refl s)
  | laneSnap n bits errs => exact execLaneSnap_keeps n bits errs (.refl s)
  | laneInject n v => exact execLaneInject_keeps n v (.refl s)
  | laneDetectProbe n present => exact execLaneDetectProbe_keeps n present (.refl s)
  | laneStageDone n eq same unit => exact execLaneStageDone_keeps n eq same unit (.refl s)
  | laneStageTimeout n => exact execLaneStageTimeout_keeps n (.refl s)
  | laneLockLost n => exact execLaneLockLost_keeps n (.refl s)
  | ucieLinkDown k => exact execUcieLinkDown_keeps k (.refl s)
  | ucieRetrainDone k ok slow repaired => exact execUcieRetrainDone_keeps k ok slow repaired (.refl s)
  | ucieTrainDone k ok slow repaired => exact execUcieTrainDone_keeps k ok slow repaired (.refl s)
  | ucieFlitCrcFail k => exact execUcieFlitCrcFail_keeps k (.refl s)
  | fabRemapWrite d v => exact execFabRemapWrite_keeps d v (.refl s)
  | fabErrClear d => exact execFabErrClear_keeps d (.refl s)
  | fabPromote d t => exact execFabPromote_keeps d t (.refl s)
  | crcReset d k => exact execCrcReset_keeps d k (.refl s)
  | crcCompute d k => exact execCrcCompute_keeps d k (.refl s)
  | crcAppend d k => exact execCrcAppend_keeps d k (.refl s)
  | crcStrip d k => exact execCrcStrip_keeps d k (.refl s)
  | crcAbort d k => exact execCrcAbort_keeps d k (.refl s)
  | crcBadOp d k seven => exact execCrcBadOp_keeps d k seven (.refl s)
  | crcOpDone d k => exact execCrcOpDone_keeps d k (.refl s)
  | crcData32 d k v => exact execCrcData32_keeps d k v (.refl s)
  | crcData16 d k v => exact execCrcData16_keeps d k v (.refl s)
  | crcData8 d k v => exact execCrcData8_keeps d k v (.refl s)
  | crcValueWrite d k v => exact execCrcValueWrite_keeps d k v (.refl s)
  | crcClaimRead d k => exact execCrcClaimRead_keeps d k (.refl s)
  | crcClaimRelease d k => exact execCrcClaimRelease_keeps d k (.refl s)
  | recStreamCopy d => exact execRecStreamCopy_keeps d (.refl s)
  | recRead r => exact execRecRead_keeps r (.refl s)
  | recClrGo => exact execRecClrGo_keeps (.refl s)
  | recClearChecked => exact execRecClearChecked_keeps (.refl s)
  | powerGood samples => exact execPowerGood_keeps samples (.refl s)
  | supplyLoss => exact execSupplyLoss_keeps (.refl s)
  | rstNAssert => exact execRstNAssert_keeps (.refl s)
  | rstNRelease samples => exact execRstNRelease_keeps samples (.refl s)
  | perstAssert => exact execPerstAssert_keeps (.refl s)
  | perstRelease => exact execPerstRelease_keeps (.refl s)
  | rstGlobalWrite v => exact execRstGlobalWrite_keeps v (.refl s)
  | wdtKick d v => exact execWdtKick_keeps d v (.refl s)
  | wdtExpired d => exact execWdtExpired_keeps d (.refl s)
  | thermSample d ts => exact execThermSample_keeps d ts (.refl s)
  | clockGood path => exact execClockGood_keeps path (.refl s)
  | noclkTimeout q => exact execNoclkTimeout_keeps q (.refl s)
  | rstGrvHold j => exact execRstGrvHold_keeps j (.refl s)
  | rstGrvRelease j => exact execRstGrvRelease_keeps j (.refl s)
  | pwrSlotEnable j en on => exact execPwrSlotEnable_keeps j en on (.refl s)
  | pwrDomainSwitch => exact execPwrDomainSwitch_keeps (.refl s)
  | pwrDomainUp d n => exact execPwrDomainUp_keeps d n (.refl s)
  | pwrReqCalibrate => exact execPwrReqCalibrate_keeps (.refl s)
  | pwrReqReady => exact execPwrReqReady_keeps (.refl s)
  | pwrReqDiagnostic => exact execPwrReqDiagnostic_keeps (.refl s)
  | pwrReqClear => exact execPwrReqClear_keeps (.refl s)
  | pwrReqOther req => exact execPwrReqOther_keeps req (.refl s)
  | bootMboxGo => exact execBootMboxGo_keeps (.refl s)
  | bootCoresRun d run => exact execBootCoresRun_keeps d run (.refl s)
  | bootImageLoaded img => exact execBootImageLoaded_keeps img (.refl s)
  | bootFrame data => exact execBootFrame_keeps data (.refl s)
  | bootTwinTimeout => exact execBootTwinTimeout_keeps (.refl s)
  | bootSramWrite d off v => exact execBootSramWrite_keeps d off v (.refl s)
  | bootSpiGo d v => exact execBootSpiGo_keeps d v (.refl s)
  | bootSpiDone d data wp => exact execBootSpiDone_keeps d data wp (.refl s)
  | rstCauseClear d v => exact execRstCauseClear_keeps d v (.refl s)
  | regWrite q addr v => exact execRegWrite_keeps q addr v (.refl s)
  | descLineInvalidated r words => exact execDescLineInvalidated_keeps r words (.refl s)
  | hdmWindowAccess o w => exact execHdmWindowAccess_keeps o w (.refl s)
  | audClockLoss p => exact execAudClockLoss_keeps p (.refl s)
  | checkerLock n => exact execCheckerLock_keeps n (.refl s)
  | checkerLockLost n bits errs => exact execCheckerLockLost_keeps n bits errs (.refl s)

/-- A cycle of the line time and of the PTP clock moves no memory, and registers by the servo alone. -/
theorem State.idleCycle_ok {s : State} (h : s.ok = true) : s.idleCycle.ok = true := by
  refine (State.servoCycle_keeps (.refl s.timelinesCycle.clkCycle)).ok ?_
  rw [State.clkCycle_frame, State.timelinesCycle_frame]
  exact h

/-- R37, R400: what an empty queue lets happen keeps the storage canonical. -/
theorem State.idle_ok {s : State} (h : s.ok = true) : s.idle.ok = true := by
  have hdue : Keeps s s.dueCycle.fillCycle.cutCycle.decCycle.composeCycle :=
    State.composeCycle_keeps (State.decCycle_keeps (State.cutCycle_keeps (State.fillCycle_keeps (State.dueCycle_keeps (.refl s)))))
  have hinject : ∀ u : State, Keeps u (u.glitchCycle.forRange 108 fun n s => s.injectCycle n) := fun u =>
    State.forRange_keeps (fun _ i hi => State.injectCycle_keeps i hi) (State.glitchCycle_keeps (.refl u))
  exact (hinject _).ok (State.idleCycle_ok (hdue.ok h))

/-- Settles O5: command by command. -/
theorem commandsKeepQueueAndHistory : Obligations.CommandsKeepQueueAndHistory := exec_keeps

/-- Settles O1: by the cases of `step` on the queue. -/
theorem stepRunsFrontCommand : Obligations.StepRunsFrontCommand := by
  refine ⟨fun c cs s => rfl, fun s h => ?_⟩
  simp only [step, h]

/-- Settles O4: a waiting command keeps the form by what every command keeps, an empty queue by what a cycle keeps. -/
theorem stepKeepsCanonical : Obligations.StepKeepsCanonical := by
  intro s h
  rcases hp : s.pending with _ | ⟨c, cs⟩
  · exact ⟨s.idle, stepRunsFrontCommand.2 s hp, State.idle_ok h⟩
  · obtain ⟨t, hexec, hkeeps⟩ := exec_keeps c { s with pending := cs }
    exact ⟨t, by simpa only [step, hp] using hexec, hkeeps.ok h⟩

/-- Settles O3: the state after reset lists no register and no byte. -/
theorem resetIsCanonical : Obligations.ResetIsCanonical := ⟨rfl, rfl, rfl⟩

end Sys2Proof.Machine
end

section
/-!
PROOFS. The read of SCH_USEC (R159, R490): the low half answers, the high half stands in the die's one latch.
-/
namespace Sys2Proof.Machine

/-- A list of shown registers of which none lies at the offset is passed over. -/
theorem shownAt_append_of_none {o : Nat} {hs : List Shown}
    (h : ∀ x ∈ hs, ¬(x.off ≤ o ∧ (o - x.off) % x.stride = 0 ∧ (o - x.off) / x.stride < x.count)) (gs : List Shown) :
    shownAt o (hs ++ gs) = shownAt o gs := by
  induction hs with
  | nil => rfl
  | cons x hs ih =>
    obtain ⟨hx, hrest⟩ := List.forall_mem_cons.1 h
    exact (if_neg hx).trans (ih hrest)

theorem shownAt_dieUsecHi (d : Nat) :
    shownAt 0x300014 (dieShown d) = some (⟨0x300014, 4, 1, fun s _ => mapGet (fun _ => 0) s.sch.usecHi d⟩, 0) := by
  simp only [dieShown, shownAt]
  rw [if_neg (by omega), if_neg (by omega)]
  simp

/-- Among the registers that a die works out at a read, SCH_USEC_HI is the die's own latch. -/
theorem shownAt_usecHi (q : Req) (d : Nat) :
    shownAt 0x300014 ((if d = 0 then rootShown q else crownShown d) ++ dieShown d) =
      some (⟨0x300014, 4, 1, fun s _ => mapGet (fun _ => 0) s.sch.usecHi d⟩, 0) := by
  rw [shownAt_append_of_none, shownAt_dieUsecHi]
  split
  · simp only [rootShown, List.forall_mem_cons]
    refine ⟨?_, ?_, ?_, ?_, ?_, ?_, ?_, ?_, ?_, ?_, ?_, ?_, ?_, ?_, ?_, ?_, ?_, ?_, ?_, ?_, ?_, ?_, ?_, ?_, ?_, ?_, List.forall_mem_nil _⟩ <;> omega
  · simp only [crownShown, List.forall_mem_cons]
    refine ⟨?_, ?_, ?_, ?_, ?_, ?_, ?_, List.forall_mem_nil _⟩ <;> omega

theorem State.regRead_shown {s : State} {q : Req} {a k : Nat} {x : Shown}
    (h : shownAt (a % 0x4000000) ((if a / 0x4000000 = 0 then rootShown q else crownShown (a / 0x4000000)) ++ dieShown (a / 0x4000000)) = some (x, k)) :
    s.regRead q a = BitVec.ofNat 32 (x.val s k) := by
  simp only [State.regRead, h]

/-- R490: every requester that reads SCH_USEC_HI reads the die's one latch. -/
theorem State.regRead_usecHi (s : State) (q : Req) (d : Fin 8) :
    s.regRead q (dieBase d + 0x300014) = BitVec.ofNat 32 (mapGet (fun _ => 0) s.sch.usecHi d) := by
  have hdie : (dieBase d + 0x300014) / 0x4000000 = d := by
    simp only [dieBase]
    omega
  have hoff : (dieBase d + 0x300014) % 0x4000000 = 0x300014 := by
    simp only [dieBase]
    omega
  refine State.regRead_shown (x := ⟨0x300014, 4, 1, fun s _ => mapGet (fun _ => 0) s.sch.usecHi d⟩) (k := 0) ?_
  rw [hdie, hoff]
  exact shownAt_usecHi q d

theorem State.usecHi_usecRead (s : State) (d e : Nat) :
    mapGet (fun _ => 0) (s.usecRead d).sch.usecHi e = if e = d then s.usec d / 2 ^ 32 else mapGet (fun _ => 0) s.sch.usecHi e :=
  mapGet_set _ _ _ _ _

/-- Settles O34: the read writes the latch that SCH_USEC_HI shows. -/
theorem usecLatchIsShared : Obligations.UsecLatchIsShared := by
  intro d s
  refine ⟨s.usecRead d, rfl, rfl, fun q => ?_, fun e he => ?_, rfl⟩
  · rw [State.regRead_usecHi, State.usecHi_usecRead, if_pos rfl]
  · rw [State.usecHi_usecRead, if_neg fun h => he (Fin.ext h)]

end Sys2Proof.Machine
end

section
/-!
PROOFS. Reading fields after writes: one lemma for each place a written field can have to the field that is read, frames of the
counting writes, and what a refusal leaves (R11, R141).
-/
namespace Sys2Proof.Machine

/-! ## A field after the write of a field -/

theorem State.rd_wr_eq (s : State) (f : Fld) (v : Nat) (h : Nat.ble (f.lo + f.width) 32 = true) :
    (s.wr f v).rd f = v % 2 ^ f.width := s.rd_wr_same f v (Nat.le_of_ble_eq_true h)

/-- A field of another register. -/
theorem State.rd_wr_off (s : State) {f g : Fld} (v : Nat) (h : g.reg ≠ f.reg) : (s.wr f v).rd g = s.rd g := s.rd_setReg_ne _ h

/-- A field beside the written one, in whatever register. -/
theorem State.rd_wr_beside (s : State) {f g : Fld} (v : Nat) (h : Nat.ble (f.lo + f.width) 32 = true)
    (hd : (Nat.ble (f.lo + f.width) g.lo || Nat.ble (g.lo + g.width) f.lo) = true) : (s.wr f v).rd g = s.rd g :=
  s.rd_wr_apart v (Nat.le_of_ble_eq_true h)
    (.inr ((Bool.or_eq_true_iff.1 hd).imp Nat.le_of_ble_eq_true Nat.le_of_ble_eq_true))

theorem State.rd_inc_eq (s : State) (f : Fld) (h : Nat.ble (f.lo + f.width) 32 = true) :
    (s.inc f).rd f = min (s.rd f + 1) (2 ^ f.width - 1) := s.rd_inc_same f (Nat.le_of_ble_eq_true h)

theorem State.on_of_rd {s t : State} {f : Fld} (h : t.rd f = s.rd f) : t.on f = s.on f := congrArg (· == 1) h

/-- A one-bit field that does not read 1 reads 0. -/
theorem State.rd_of_off {s : State} {f : Fld} (hw : f.width = 1) (h : s.on f = false) : s.rd f = 0 := by
  have hlt := s.rd_lt f
  rw [hw] at hlt
  have hne : s.rd f ≠ 1 := by simpa [State.on] using h
  omega

/-! ## Frames of the other writes -/

/-- One more write, of a register of the list. -/
theorem Only.wr {as : List Nat} {s t : State} (h : Only as s t) (f : Fld) (v : Nat) (hf : f.reg ∈ as) : Only as s (t.wr f v) :=
  h.trans ((only_wr t f v).mono (by simpa using hf))

theorem Only.wrS {as : List Nat} {s t : State} (h : Only as s t) (f : Fld) (i : Int) (hf : f.reg ∈ as) : Only as s (t.wrS f i) := h.wr f _ hf

theorem Only.add {as : List Nat} {s t : State} (h : Only as s t) (f : Fld) (n : Nat) (hf : f.reg ∈ as) : Only as s (t.add f n) := h.wr f _ hf

theorem Only.inc {as : List Nat} {s t : State} (h : Only as s t) (f : Fld) (hf : f.reg ∈ as) : Only as s (t.inc f) := h.wr f _ hf

theorem Only.incWrap {as : List Nat} {s t : State} (h : Only as s t) (f : Fld) (hf : f.reg ∈ as) : Only as s (t.incWrap f) := h.wr f _ hf

theorem Only.event {as : List Nat} {s t : State} (h : Only as s t) (path code a0 a1 a2 : Nat) : Only as s (t.event path code a0 a1 a2) :=
  h.trans (only_event as t path code a0 a1 a2)

theorem Only.setReg {as : List Nat} {s t : State} (h : Only as s t) (a : Nat) (v : Word) (ha : a ∈ as) : Only as s (t.setReg a v) :=
  h.trans ((only_setReg t a v).mono (by simpa using ha))

theorem Only.reg {as : List Nat} {s t : State} (h : Only as s t) {a : Nat} (ha : a ∉ as) (hr : recReg a = false) : t.reg a = s.reg a :=
  h.1 a ha hr

/-! ## What a write of a register leaves, by the functions that do not read registers -/

theorem State.ptpT_wr (s : State) (f : Fld) (v : Nat) : (s.wr f v).ptpT = s.ptpT := rfl

theorem State.whl_wr (s : State) (f : Fld) (v : Nat) : (s.wr f v).whl = s.whl := rfl

/-! ## Refusals (R141) -/

/-- A command that ends in a refusal leaves its code in each status register of the list, and moves no other register. -/
theorem gives_refused {c : Instr} {s : State} {path a a1 code : Nat} {st : List Nat} (hexec : exec c s = .next (s.refuse path st code a1))
    (ha : a ∈ st) (hr : recReg a = false) (hcode : code < 2 ^ 16) : Gives c s fun t => t.rd ⟨a, 16, 16⟩ = code ∧ Only st s t :=
  ⟨_, hexec, (s.rd_refuse_mem path code a1 ha hr).trans (Nat.mod_eq_of_lt hcode), only_refuse s path st code a1⟩

end Sys2Proof.Machine
end

section
/-!
PROOFS. Gate lists (R319, R321, R322, R332, R333): a CHANGE refused and taken, the change time, the intervals of the list in force,
and the enable.
-/
namespace Sys2Proof.Machine

/-! ## Change times -/

/-- R321: a boundary of a list lies at least 1 us ahead. -/
theorem State.boundary_ahead (s : State) (base : Nat) {cycle : Nat} (h : 0 < cycle) : s.ptpT + 1000 ≤ s.boundary base cycle := by
  simp only [State.boundary]
  split
  case isTrue hlate => exact hlate
  case isFalse =>
    have hdiv := Nat.div_add_mod (s.ptpT + 1000 - base + cycle - 1) cycle
    have hmod := Nat.mod_lt (s.ptpT + 1000 - base + cycle - 1) h
    rw [Nat.mul_comm] at hdiv
    omega

/-- The change time that the admin list gives. -/
def State.changeAt (s : State) (p : Nat) : Nat :=
  s.boundary ((s.rd (F.GATE_p_ADMIN_SEC_LO_SEC p) + s.rd (F.GATE_p_ADMIN_SEC_HI_SEC p) * 2 ^ 32) * 10 ^ 9 + s.rd (F.GATE_p_ADMIN_NS_NS p))
    (s.rd (F.GATE_p_ADMIN_CYCLE_NS p))

/-- The admin list. -/
def State.adminList (s : State) (p : Nat) : List Word :=
  (List.range (s.rd (F.GATE_p_ADMIN_LEN_LEN p))).map fun e => s.reg (R.GATE_p_ADMINe p e)

theorem State.changeCheck_passed {s : State} {p : Nat} {en : Bool} (h : s.changeCheck p en = 0) :
    1000 ≤ s.rd (F.GATE_p_ADMIN_CYCLE_NS p) ∧ s.on F.PTP_CLK_STATUS_SET = true := by
  unfold State.changeCheck at h
  grind

theorem State.changeCheck_lt (s : State) (p : Nat) (en : Bool) : s.changeCheck p en < 2 ^ 16 := by
  unfold State.changeCheck
  grind

/-! ## A port's own record -/

theorem State.gate_setGate_same (s : State) (p : Nat) (g : GateSt) : (s.setGate p g).gate p = g := mapGet_set_same _ s.whl.gates p g

theorem Only.whl {as : List Nat} {s t : State} (h : Only as s t) : t.whl = s.whl := by rw [h.2]

/-- A frame around an update of a part of the wheel. -/
theorem Only.of_whl {as : List Nat} {s t : State} {w : Wheel} (h : Only as { s with whl := w } t) : Only as { s with whl := t.whl } t := by
  have hw : t.whl = w := h.whl
  exact hw ▸ h

/-! ## A CHANGE that is taken (R321) -/

/-- The four registers in which a change shows, besides GATE_p_CTL. -/
def changeRegs (p : Nat) : List Nat := [R.GATE_p_STATUS p, R.GATE_p_CHG_NS p, R.GATE_p_CHG_SEC_LO p, R.GATE_p_CHG_SEC_HI p]

/-- The admin list as the pending list, before the registers show it. -/
def State.pended (s : State) (p : Nat) : State :=
  s.setGate p { s.gate p with pend := s.adminList p, pendCycle := s.rd (F.GATE_p_ADMIN_CYCLE_NS p), pendBase := s.changeAt p }

theorem State.takeChange_eq (s : State) (p : Nat) : s.takeChange p =
    ((((s.pended p).wr (F.GATE_p_STATUS_PENDING p) 1).wr (F.GATE_p_CHG_NS_NS p) (s.changeAt p % 10 ^ 9)).wr (F.GATE_p_CHG_SEC_LO_SEC p)
      (s.changeAt p / 10 ^ 9)).wr (F.GATE_p_CHG_SEC_HI_SEC p) (s.changeAt p / 10 ^ 9 / 2 ^ 32) := rfl

theorem State.only_takeChange (s : State) (p : Nat) : Only (changeRegs p) (s.pended p) (s.takeChange p) := by
  rw [State.takeChange_eq]
  refine .wr (.wr (.wr (.wr (.refl _ _) (F.GATE_p_STATUS_PENDING p) _ (.head _)) (F.GATE_p_CHG_NS_NS p) _ ?_) (F.GATE_p_CHG_SEC_LO_SEC p) _ ?_) (F.GATE_p_CHG_SEC_HI_SEC p) _ ?_
  · exact .tail _ (.head _)
  · exact .tail _ (.tail _ (.head _))
  · exact .tail _ (.tail _ (.tail _ (.head _)))

theorem State.gate_takeChange (s : State) (p : Nat) :
    (s.takeChange p).gate p = { s.gate p with
      pend := s.adminList p, pendCycle := s.rd (F.GATE_p_ADMIN_CYCLE_NS p), pendBase := s.changeAt p } :=
  (congrArg (fun w : Wheel => mapGet (fun _ => GateSt.init) w.gates p) (s.only_takeChange p).whl).trans (s.gate_setGate_same p _)

theorem State.takeChange_reads (s : State) (p : Nat) :
    (s.takeChange p).rd (F.GATE_p_STATUS_PENDING p) = 1 ∧ (s.takeChange p).rd (F.GATE_p_CHG_NS_NS p) = s.changeAt p % 10 ^ 9 ∧
      (s.takeChange p).rd (F.GATE_p_CHG_SEC_LO_SEC p) = s.changeAt p / 10 ^ 9 % 2 ^ 32 ∧
      (s.takeChange p).rd (F.GATE_p_CHG_SEC_HI_SEC p) = s.changeAt p / 10 ^ 9 / 2 ^ 32 % 2 ^ 16 := by
  have hoff : ∀ {f g : Fld}, g.reg < f.reg → g.reg ≠ f.reg := fun h => Nat.ne_of_lt h
  have hns : R.GATE_p_STATUS p < R.GATE_p_CHG_NS p ∧ R.GATE_p_CHG_NS p < R.GATE_p_CHG_SEC_LO p ∧
      R.GATE_p_CHG_SEC_LO p < R.GATE_p_CHG_SEC_HI p := by
    simp only [R.GATE_p_STATUS, R.GATE_p_CHG_NS, R.GATE_p_CHG_SEC_LO, R.GATE_p_CHG_SEC_HI]
    omega
  obtain ⟨h1, h2, h3⟩ := hns
  rw [State.takeChange_eq]
  refine ⟨?_, ?_, ?_, State.rd_wr_eq _ _ _ rfl⟩
  · exact (State.rd_wr_off _ _ (hoff (h1.trans (h2.trans h3)))).trans ((State.rd_wr_off _ _ (hoff (h1.trans h2))).trans
      ((State.rd_wr_off _ _ (hoff h1)).trans (State.rd_wr_eq _ _ _ rfl)))
  · exact (State.rd_wr_off _ _ (hoff (h2.trans h3))).trans ((State.rd_wr_off _ _ (hoff h2)).trans ((State.rd_wr_eq _ _ _ rfl).trans
      (Nat.mod_eq_of_lt ((Nat.mod_lt _ (by decide)).trans (by decide : 10 ^ 9 < 2 ^ 30)))))
  · exact (State.rd_wr_off _ _ (hoff h3)).trans (State.rd_wr_eq _ _ _ rfl)

/-! ## Writes of GATE_p_CTL (R321, R322, R332) -/

theorem exec_gateChange_refused {p : Fin 96} {en : Bool} {s : State} (h : s.changeCheck p en ≠ 0) :
    exec (.gateChange p en) s = .next (s.refuse pGate [R.GATE_p_STATUS p] (s.changeCheck p en) (R.GATE_p_CTL p)) := by
  refine congrArg Host.Outcome.next ?_
  cases en <;> exact if_pos ⟨rfl, h⟩

/-- The list that a CHANGE on a port leaves running until its change time. -/
theorem exec_gateChange_taken {p : Fin 96} {s : State} (h : s.changeCheck p true = 0) :
    exec (.gateChange p true) s = .next
      (State.takeChange (if s.on (F.GATE_p_CTL_EN p) = true then s.setReg (R.GATE_p_CTL p) 1 else (s.setReg (R.GATE_p_CTL p) 1).restartGates p) p) := by
  have hset : (s.setReg (R.GATE_p_CTL p) 1).on F.PTP_CLK_STATUS_SET = true := by
    refine (State.on_of_rd (s.rd_setReg_ne _ ?_)).trans (State.changeCheck_passed h).2
    simp only [F.PTP_CLK_STATUS_SET, R.PTP_CLK_STATUS, R.GATE_p_CTL]
    omega
  have hgo : ¬(getBits (BitVec.ofNat 32 (2 + bit true)) 1 1 = 1 ∧ s.changeCheck p true ≠ 0) := fun hno => hno.2 h
  show Host.Outcome.next (s.gateCtlWrite p 3) = _
  unfold State.gateCtlWrite
  have hen : (getBits (3 : Word) 0 1 == 1) = true := by decide
  have hch : getBits (3 : Word) 1 1 = 1 := by decide
  have hval : (3 : Word) &&& 1 = 1 := by decide
  simp only [hen, hch, hval, h, hset, ne_eq, not_true_eq_false, and_false, if_false, if_true, Bool.not_true, Bool.false_eq_true, State.when_true]

/-- The admin list and its times do not stand in GATE_p_CTL. -/
theorem State.admin_setGateCtl (s : State) (p : Nat) (v : Word) :
    (s.setReg (R.GATE_p_CTL p) v).adminList p = s.adminList p ∧ (s.setReg (R.GATE_p_CTL p) v).changeAt p = s.changeAt p ∧
      (s.setReg (R.GATE_p_CTL p) v).rd (F.GATE_p_ADMIN_CYCLE_NS p) = s.rd (F.GATE_p_ADMIN_CYCLE_NS p) := by
  have hrd : ∀ f : Fld, R.GATE_p_CTL p < f.reg → (s.setReg (R.GATE_p_CTL p) v).rd f = s.rd f := fun f hf =>
    s.rd_setReg_ne v (Nat.ne_of_gt hf)
  have hreg : ∀ e, (s.setReg (R.GATE_p_CTL p) v).reg (R.GATE_p_ADMINe p e) = s.reg (R.GATE_p_ADMINe p e) := fun e => by
    refine s.reg_setReg_ne v ?_
    simp only [R.GATE_p_ADMINe, R.GATE_p_CTL]
    omega
  have hlo := hrd (F.GATE_p_ADMIN_SEC_LO_SEC p) (by simp only [F.GATE_p_ADMIN_SEC_LO_SEC, R.GATE_p_ADMIN_SEC_LO, R.GATE_p_CTL]; omega)
  have hhi := hrd (F.GATE_p_ADMIN_SEC_HI_SEC p) (by simp only [F.GATE_p_ADMIN_SEC_HI_SEC, R.GATE_p_ADMIN_SEC_HI, R.GATE_p_CTL]; omega)
  have hns := hrd (F.GATE_p_ADMIN_NS_NS p) (by simp only [F.GATE_p_ADMIN_NS_NS, R.GATE_p_ADMIN_NS, R.GATE_p_CTL]; omega)
  have hcycle := hrd (F.GATE_p_ADMIN_CYCLE_NS p) (by simp only [F.GATE_p_ADMIN_CYCLE_NS, R.GATE_p_ADMIN_CYCLE, R.GATE_p_CTL]; omega)
  have hlen := hrd (F.GATE_p_ADMIN_LEN_LEN p) (by simp only [F.GATE_p_ADMIN_LEN_LEN, R.GATE_p_ADMIN_LEN, R.GATE_p_CTL]; omega)
  refine ⟨?_, ?_, hcycle⟩
  · simp only [State.adminList, hlen, hreg]
  · simp only [State.changeAt, hlo, hhi, hns, hcycle]
    rfl

/-- R321: a CHANGE taken on an enabled port. -/
theorem gateChange_pends {p : Fin 96} {s : State} (h : s.changeCheck p true = 0) (hon : s.on (F.GATE_p_CTL_EN p) = true) :
    Gives (.gateChange p true) s fun t => s.ptpT + 1000 ≤ s.changeAt p ∧ (t.gate p).pendBase = s.changeAt p ∧
      (t.gate p).pendCycle = s.rd (F.GATE_p_ADMIN_CYCLE_NS p) ∧ (t.gate p).pend = s.adminList p ∧
      t.rd (F.GATE_p_STATUS_PENDING p) = 1 ∧ t.rd (F.GATE_p_CHG_NS_NS p) = s.changeAt p % 10 ^ 9 ∧
      t.rd (F.GATE_p_CHG_SEC_LO_SEC p) = s.changeAt p / 10 ^ 9 % 2 ^ 32 ∧
      t.rd (F.GATE_p_CHG_SEC_HI_SEC p) = s.changeAt p / 10 ^ 9 / 2 ^ 32 % 2 ^ 16 ∧
      Only (R.GATE_p_CTL p :: changeRegs p) { s with whl := t.whl } t := by
  have hexec := exec_gateChange_taken h
  rw [if_pos hon] at hexec
  obtain ⟨hlist, hat, hcycle⟩ := s.admin_setGateCtl p 1
  have hreads := (s.setReg (R.GATE_p_CTL p) 1).takeChange_reads p
  rw [hat] at hreads
  obtain ⟨hpending, hns, hlo, hhi⟩ := hreads
  refine ⟨_, hexec, s.boundary_ahead _ (by have := (State.changeCheck_passed h).1; omega), ?_, ?_, ?_, hpending, hns, hlo, hhi, ?frame⟩
  case frame =>
    have hctl := only_setReg { s with whl := ((s.setReg (R.GATE_p_CTL p) 1).pended p).whl } (R.GATE_p_CTL p) 1
    have htake := (s.setReg (R.GATE_p_CTL p) 1).only_takeChange p
    exact ((hctl.mono (by simp)).trans (htake.mono (by simp))).of_whl
  all_goals rw [State.gate_takeChange]
  · exact hat
  · exact hcycle
  · exact hlist

theorem exec_gateEnWrite_off (p : Fin 96) (s : State) :
    exec (.gateEnWrite p false) s = .next (((s.setReg (R.GATE_p_CTL p) 0).dropPending p).openGates p) := rfl

theorem exec_gateEnWrite_on (p : Fin 96) (s : State) : exec (.gateEnWrite p true) s = .next
    (if s.on (F.GATE_p_CTL_EN p) then s.setReg (R.GATE_p_CTL p) 1
      else (s.setReg (R.GATE_p_CTL p) 1).when (s.on F.PTP_CLK_STATUS_SET) fun s => s.restartGates p) := by
  have hset : (s.setReg (R.GATE_p_CTL p) 1).on F.PTP_CLK_STATUS_SET = s.on F.PTP_CLK_STATUS_SET := by
    refine State.on_of_rd (s.rd_setReg_ne _ ?_)
    simp only [F.PTP_CLK_STATUS_SET, R.PTP_CLK_STATUS, R.GATE_p_CTL]
    omega
  rw [← hset]
  rfl

/-! ## The list in force (R319, R321) -/

theorem exec_gateChangeTime (p : Fin 96) (s : State) : exec (.gateChangeTime p) s =
    .next (s.when (s.on (F.GATE_p_STATUS_PENDING p) && decide ((s.gate p).pendBase ≤ s.ptpT)) fun s => s.applyChange p) := rfl

theorem exec_gateIntervalEnd (p : Fin 96) (s : State) : exec (.gateIntervalEnd p) s = .next (s.nextInterval p) := rfl

theorem State.nextInterval_runs {s : State} {p e : Nat} (h : (s.gate p).idx = some e) : s.nextInterval p =
    if s.ptpT < (s.gate p).began + s.operSpan p e then s
    else (s.setGate p { s.gate p with idx := some (s.operNext p e), began := (s.gate p).began + s.operSpan p e }).setGates p
      (s.operGates p (s.operNext p e)) := by
  simp only [State.nextInterval, h]
  rfl

theorem State.nextInterval_waits {s : State} {p : Nat} (h : (s.gate p).idx = none) : s.nextInterval p =
    if (s.gate p).startAt = 0 ∨ s.ptpT < (s.gate p).startAt then s
    else (s.setGate p { s.gate p with idx := some 0, began := (s.gate p).startAt, startAt := 0 }).setGates p (s.operGates p 0) := by
  simp only [State.nextInterval, h]

/-- Settles O42: the checks of a CHANGE first, then what a write of GATE_p_CTL and each of the gates' events leave. -/
theorem gateLists : Obligations.GateLists := by
  refine ⟨fun p en s h => ?refused, fun p s h hon => gateChange_pends h hon, fun p s h hoff => ?enables, fun p s => ⟨fun hp hat => ?applied, fun h => ?early⟩,
    fun p s => ⟨fun e he hat => ?next, fun hi h0 => ?idle, fun e he hat => ?inForce, fun hi h0 hat => ?starts⟩,
    fun p s => ⟨exec_gateEnWrite_off p s, fun hon => ?enabled, fun hoff hset => ?restarts, fun hoff hset => ?unset⟩⟩
  case refused =>
    exact gives_refused (exec_gateChange_refused h) (.head _) (recReg_of_lt (by simp only [R.GATE_p_STATUS]; omega)) (s.changeCheck_lt p en)
  case enables => rw [exec_gateChange_taken h, if_neg (by simp [hoff])]
  case applied => rw [exec_gateChangeTime, hp, decide_eq_true hat, Bool.and_true, State.when_true]
  case early =>
    have hno : (s.on (F.GATE_p_STATUS_PENDING p) && decide ((s.gate p).pendBase ≤ s.ptpT)) = false := by
      simpa [imp_iff_not_or] using h
    rw [exec_gateChangeTime, hno, State.when_false]
  case next => rw [exec_gateIntervalEnd, State.nextInterval_runs he, if_neg (Nat.not_lt.2 hat)]
  case idle => rw [exec_gateIntervalEnd, State.nextInterval_waits hi, if_pos (.inl h0)]
  case inForce => rw [exec_gateIntervalEnd, State.nextInterval_runs he, if_pos hat]
  case starts => rw [exec_gateIntervalEnd, State.nextInterval_waits hi, if_neg (not_or.2 ⟨h0, Nat.not_lt.2 hat⟩)]
  case enabled =>
    refine ⟨_, (exec_gateEnWrite_on p s).trans (congrArg _ (if_pos hon)), ?_, only_setReg s _ _⟩
    exact congrArg (getBits · 0 1) (s.reg_setReg_same (R.GATE_p_CTL p) 1)
  case restarts => rw [exec_gateEnWrite_on, if_neg (by simp [hoff]), hset, State.when_true]
  case unset => rw [exec_gateEnWrite_on, if_neg (by simp [hoff]), hset, State.when_false]

end Sys2Proof.Machine
end

section
/-!
PROOFS. Ports, shapers and the timing wheel (R312, R315, R317, R318, R323, R331): a refill on a port that cannot send, the writes of a
shaper, a slot of the wheel, the timers of a TS flow, and the samples of the queues' histograms.
-/
namespace Sys2Proof.Machine

/-! ## Class queues -/

theorem State.classQ_setClassQ_same (s : State) (q : Nat) (x : ClassQ) : (s.setClassQ q x).classQ q = x := mapGet_set_same _ s.whl.queues q x

theorem State.classQ_setClassQ_ne (s : State) {q k : Nat} (x : ClassQ) (h : k ≠ q) : (s.setClassQ q x).classQ k = s.classQ k :=
  mapGet_set_ne _ s.whl.queues x h

theorem State.whl_setClassQ (s : State) (q : Nat) (x : ClassQ) :
    (s.setClassQ q x).whl = { s.whl with queues := mapSet (fun _ => ClassQ.init) s.whl.queues q x } := rfl

theorem State.classQ_setReg (s : State) (a : Nat) (v : Word) (q : Nat) : (s.setReg a v).classQ q = s.classQ q := rfl

/-- The wheel with its entries replaced, and their count shown. -/
def State.putEntries (s : State) (es : List (Nat × Nat)) : State :=
  ({ s with whl := { s.whl with entries := es } } : State).wr F.WHL_STATUS_ENTRIES es.length

theorem State.classQ_putEntries (s : State) (es : List (Nat × Nat)) (q : Nat) : (s.putEntries es).classQ q = s.classQ q := rfl

theorem State.whl_putEntries (s : State) (es : List (Nat × Nat)) : (s.putEntries es).whl = { s.whl with entries := es } := rfl

/-- Tables of the wheel are no register. -/
theorem Only.withWhl {as : List Nat} {s t : State} (h : Only as s t) (w : Wheel) : Only as { s with whl := w } { t with whl := w } :=
  ⟨h.1, by rw [OnlyRegs, h.2]⟩

theorem State.only_putEntries (s : State) (es : List (Nat × Nat)) :
    Only [R.WHL_STATUS] { s with whl := (s.putEntries es).whl } (s.putEntries es) := only_wr _ F.WHL_STATUS_ENTRIES _

theorem Only.classQ {as : List Nat} {s t : State} (h : Only as s t) (q : Nat) : t.classQ q = s.classQ q :=
  congrArg (fun w : Wheel => mapGet (fun _ => ClassQ.init) w.queues q) h.whl

/-- A class queue shows its depth; nothing but the wheel's tables moves besides. -/
theorem State.only_setClassQ (s : State) (q : Nat) (x : ClassQ) :
    Only [R.WHL_Qq_DEPTH q] { s with whl := (s.setClassQ q x).whl } (s.setClassQ q x) := only_wr _ (F.WHL_Qq_DEPTH_BYTES q) _

/-- A queue's new shaper moves the wheel's entry of that queue and no other (R315, R318). -/
theorem State.queueEntry_eq (s : State) (q : Nat) : ∃ es, (∀ e, e.2 ≠ 2048 + q → (e ∈ es ↔ e ∈ s.whl.entries)) ∧
    s.queueEntry q = s.putEntries es := by
  have hkept : ∀ e : Nat × Nat, e.2 ≠ 2048 + q → (e ∈ s.whl.entries.filter (fun e => e.2 != 2048 + q) ↔ e ∈ s.whl.entries) := by
    intro e he
    simp [he]
  simp only [State.queueEntry]
  split
  · refine ⟨_, fun e he => ?_, rfl⟩
    rw [List.mem_append, hkept e he, or_iff_left]
    rintro hm
    rw [List.mem_singleton.1 hm] at he
    exact he rfl
  · exact ⟨_, hkept, rfl⟩

/-! ## A port that cannot send (R317, R394) -/

theorem State.portPick_held {s : State} {p : Nat} (h : (s.sending p).isSome = true ∨ s.on (F.LANE_ETHm_STATUS_UP p) = false) :
    s.portPick p = s := if_pos (by simpa using h)

theorem exec_portFrameDone (p : Fin 96) (s : State) :
    exec (.portFrameDone p) s = .next (s.when (s.sending p).isSome fun s => (s.setSending p none).portPick p) := rfl

/-! ## Refills (R318) -/

/-- The shaper word by which a refill goes: the one written before the refill's cycle. -/
def State.shapeNow (s : State) (q : Nat) : Word := if (s.classQ q).wrote = s.cycle + 1 then (s.classQ q).before else s.reg (R.WHL_Qq_SHAPE q)

/-- One refill of a queue: its shaper word taken, and RATE more tokens up to BURST where it is shaped. -/
def ClassQ.refilled (x : ClassQ) (w : Word) : ClassQ :=
  if ({ x with shape := w } : ClassQ).shaped = true then
    { x with shape := w, tokens := min (x.tokens + ({ x with shape := w } : ClassQ).rate) ({ x with shape := w } : ClassQ).burst }
  else { x with shape := w }

/-- The queue refilled, and its wheel entry moved by a new shaper word. -/
def State.refilledQ (s : State) (q : Nat) : State :=
  if s.shapeNow q = (s.classQ q).shape then s.setClassQ q ((s.classQ q).refilled (s.shapeNow q))
  else (s.setClassQ q ((s.classQ q).refilled (s.shapeNow q))).queueEntry q

theorem exec_shaperRefill (q : Fin 768) (s : State) : exec (.shaperRefill q) s = .next (s.refillTokens q) := rfl

theorem State.refillTokens_eq (s : State) (q : Nat) : s.refillTokens q = (s.refilledQ q).portPick (q / 8) := rfl

/-- What a refill leaves before the port looks at its queues. -/
theorem State.refilledQ_leaves (s : State) (q : Nat) :
    (s.refilledQ q).classQ q = (s.classQ q).refilled (s.shapeNow q) ∧ (∀ k, k ≠ q → (s.refilledQ q).classQ k = s.classQ k) ∧
      (s.shapeNow q = (s.classQ q).shape → (s.refilledQ q).whl.entries = s.whl.entries) ∧
      (∀ e, e.2 ≠ 2048 + q → (e ∈ (s.refilledQ q).whl.entries ↔ e ∈ s.whl.entries)) ∧
      (s.refilledQ q).whl.ports = s.whl.ports ∧ Only [R.WHL_Qq_DEPTH q, R.WHL_STATUS] { s with whl := (s.refilledQ q).whl } (s.refilledQ q) := by
  have hput := s.only_setClassQ q ((s.classQ q).refilled (s.shapeNow q))
  unfold State.refilledQ
  split
  case isTrue hw =>
    refine ⟨s.classQ_setClassQ_same q _, fun k hk => s.classQ_setClassQ_ne _ hk, fun _ => ?_, fun _ _ => ?_, ?_, hput.mono (by simp)⟩ <;>
      rw [State.whl_setClassQ]
  case isFalse hw =>
    obtain ⟨es, hes, heq⟩ := (s.setClassQ q ((s.classQ q).refilled (s.shapeNow q))).queueEntry_eq q
    rw [State.whl_setClassQ] at hes
    have hshow := (s.setClassQ q ((s.classQ q).refilled (s.shapeNow q))).only_putEntries es
    rw [heq]
    refine ⟨?_, fun k hk => ?_, fun h => absurd h hw, ?_, ?_, ((hput.withWhl _).mono (by simp)).trans (hshow.mono (by simp))⟩
    · rw [State.classQ_putEntries, State.classQ_setClassQ_same]
    · rw [State.classQ_putEntries, State.classQ_setClassQ_ne _ _ hk]
    · rw [State.whl_putEntries]
      exact hes
    · rw [State.whl_putEntries, State.whl_setClassQ]

/-- With the port busy or down a refill ends there. -/
theorem State.refillTokens_held {s : State} {q : Fin 768}
    (h : (s.sending (q / 8)).isSome = true ∨ s.on (F.LANE_ETHm_STATUS_UP (q / 8)) = false) : s.refillTokens q = s.refilledQ q := by
  obtain ⟨-, -, -, -, hports, honly⟩ := s.refilledQ_leaves q
  rw [State.refillTokens_eq]
  refine State.portPick_held (h.imp (fun hb => ?busy) fun hd => ?down)
  case busy =>
    rw [← hb]
    exact congrArg (fun m => (mapGet (fun _ => none) m (q.val / 8)).isSome) hports
  case down =>
    refine (State.on_of_rd (honly.rd ?_ ?_)).trans hd
    · simp only [F.LANE_ETHm_STATUS_UP, R.LANE_ETHm_STATUS, R.WHL_Qq_DEPTH, R.WHL_STATUS, List.mem_cons, List.not_mem_nil, or_false]
      omega
    · exact recReg_of_lt (by simp only [F.LANE_ETHm_STATUS_UP, R.LANE_ETHm_STATUS]; omega)

/-! ## Shapers (R318, R331) -/

theorem exec_shaperWrite (q : Fin 768) (v : Word) (s : State) : exec (.shaperWrite q v) s = .next (s.shapeWrite q v) := rfl

/-- A shaper that is enabled with a zero RATE or BURST. -/
def ShapeBad (v : Word) : Prop := getBits v 30 1 = 1 ∧ (getBits v 0 20 = 0 ∨ getBits v 20 10 = 0)

theorem shaperWrite_stores {q : Fin 768} {v : Word} {s : State} (h : ¬ShapeBad v) : Gives (.shaperWrite q v) s fun t =>
    t.reg (R.WHL_Qq_SHAPE q) = v &&& 0x7FFFFFFF ∧ t.classQ q = { s.classQ q with wrote := s.cycle + 1, before := s.shapeNow q } ∧
      (∀ k, k ≠ q.val → t.classQ k = s.classQ k) ∧ Only [R.WHL_Qq_SHAPE q, R.WHL_Qq_DEPTH q] { s with whl := t.whl } t := by
  refine ⟨_, (exec_shaperWrite q v s).trans (congrArg _ (if_neg h)), State.reg_setReg_same _ _ _, ?_, fun k hk => ?_, ?_⟩
  · rw [State.classQ_setReg, State.classQ_setClassQ_same]
    rfl
  · rw [State.classQ_setReg, State.classQ_setClassQ_ne _ _ hk]
  · rw [State.setReg_whl]
    exact ((s.only_setClassQ q _).mono (by simp)).setReg _ _ (.head _)

/-! ## Slots of the wheel (R315) -/

theorem exec_wheelSlot (s : State) : exec .wheelSlot s = .next ((s.wr F.WHL_NOW_SLOT (s.ptpT / 64)).serveWheel (65535 + 1)) := rfl

theorem State.serveWheel_none {s : State} {n : Nat} (h : dueEntry (s.ptpT / 64) s.whl.entries = none) : s.serveWheel (n + 1) = s := by
  rw [State.serveWheel, h]

/-- A due entry leaves the wheel, and the wheel goes on. -/
theorem State.serveWheel_due {s : State} {n now : Nat} {e : Nat × Nat} {es : List (Nat × Nat)} (hnow : s.ptpT = now) (hes : s.whl.entries = es)
    (h : dueEntry (now / 64) es = some e) :
    s.serveWheel (n + 1) =
      (let v := ({ s with whl := { s.whl with entries := s.whl.entries.erase e } } : State).wr F.WHL_STATUS_ENTRIES (es.erase e).length
      (if e.2 < 2048 then v.servePkt e.2 else v.portPick ((e.2 - 2048) / 8)).serveWheel n) := by
  subst hnow hes
  rw [State.serveWheel, h]

/-! ## Timers of a TS flow (R312) -/

theorem exec_tsPsiTimer (f : Fin 2048) (s : State) :
    exec (.tsPsiTimer f) s = .next (s.when (s.tsFlow f) fun s => s.sendPsi f (s.sidCodec (s.flowStr f))) := rfl

theorem exec_tsPcrTimer (f : Fin 2048) (s : State) : exec (.tsPcrTimer f) s = .next (s.when (s.tsFlow f) fun s => s.sendPcr f) := rfl

/-! ## Histograms (R323) -/

/-- A range of which one element acts. -/
theorem State.forRange_once {s t : State} {n k : Nat} {f : Nat → State → State} (hk : k < n) (hbefore : ∀ i, i < k → f i s = s)
    (hat : f k s = t) (hafter : ∀ i, k < i → i < n → f i t = t) : s.forRange n f = t := by
  have hidle : ∀ m, m ≤ k → s.forRange m f = s := by
    intro m
    induction m with
    | zero => exact fun _ => rfl
    | succ m ih =>
      intro hm
      rw [State.forRange_succ, ih (Nat.le_of_succ_le hm), hbefore m hm]
  induction n with
  | zero => exact absurd hk (Nat.not_lt_zero k)
  | succ n ih =>
    rw [State.forRange_succ]
    rcases Nat.lt_succ_iff_lt_or_eq.1 hk with h | rfl
    · rw [ih h fun i hi hn => hafter i hi (Nat.lt_succ_of_lt hn), hafter n h (Nat.lt_succ_self n)]
    · rw [hidle k (Nat.le_refl k), hat]

theorem waitBin_lt (ns : Nat) : waitBin ns < 16 := by
  unfold waitBin
  split <;> omega

/-- Two bins of the histograms have two places. -/
theorem binKey_ne {q k a b : Nat} (ha : a < 16) (hb : b < 16) (h : (k, b) ≠ (q, a)) : k * 16 + b ≠ q * 16 + a := by
  intro e
  have hq : k = q := by omega
  have hab : b = a := by omega
  exact h (by rw [hq, hab])

theorem State.sampleQueue_noRing {s : State} {q : Nat} (h : s.on F.WHL_SAMPLE_RING_EN = false) :
    s.sampleQueue q = s.addBin q (waitBin (s.headWait q)) := by
  have h' : (s.addBin q (waitBin (s.headWait q))).on F.WHL_SAMPLE_RING_EN = false := h
  simp only [State.sampleQueue, h', Bool.false_eq_true, if_false]

theorem testBit_two_pow_iff (j k : Nat) : 2 ^ k / 2 ^ j % 2 = 1 ↔ j = k := by
  have hbit : 2 ^ k / 2 ^ j % 2 = 1 ↔ Nat.testBit (2 ^ k) j = true := by
    simp [Nat.testBit_eq_decide_div_mod_eq]
  rw [hbit, Nat.testBit_two_pow, decide_eq_true_iff, eq_comm]

/-- With one queue in the masks and no ring, a sample adds one to the bin of that queue's head wait. -/
theorem exec_queueSample_one {q : Fin 768} {s : State}
    (hmask : ∀ w : Fin 24, s.rd (F.WHL_SMP_MASKw_MASK w) = if w.val = q.val / 32 then 2 ^ (q.val % 32) else 0)
    (hring : s.on F.WHL_SAMPLE_RING_EN = false) : exec .queueSample s = .next (s.addBin q (waitBin (s.headWait q))) := by
  have hmask' : ∀ w, w < 24 → w ≠ q.val / 32 → s.rd (F.WHL_SMP_MASKw_MASK w) = 0 := fun w hw hne => (hmask ⟨w, hw⟩).trans (if_neg hne)
  have hword : q.val / 32 < 24 := by omega
  have hone : s.rd (F.WHL_SMP_MASKw_MASK (q.val / 32)) = 2 ^ (q.val % 32) := (hmask ⟨_, hword⟩).trans (if_pos rfl)
  refine congrArg Host.Outcome.next (State.forRange_once hword (fun i hi => ?before) ?at_ fun i hi hn => ?after)
  case before => exact if_pos (hmask' i (hi.trans hword) (Nat.ne_of_lt hi))
  case after => exact if_pos (hmask' i hn (Nat.ne_of_gt hi))
  case at_ =>
    simp only [hone, if_neg (Nat.ne_of_gt (Nat.two_pow_pos (q.val % 32))), testBit_two_pow_iff]
    refine State.forRange_once (Nat.mod_lt _ (by decide) : q.val % 32 < 32) (fun i hi => if_neg (Nat.ne_of_lt hi)) ?_ fun i hi _ =>
      if_neg (Nat.ne_of_gt hi)
    rw [if_pos rfl, show q.val / 32 * 32 + q.val % 32 = q.val by omega, State.sampleQueue_noRing hring]

theorem State.histBin_addBin (s : State) (q b k c : Nat) :
    (s.addBin q b).histBin k c = if k * 16 + c = q * 16 + b then min (s.histBin q b + 1) (2 ^ 32 - 1) else s.histBin k c :=
  mapGet_set _ _ _ _ _

theorem State.histBin_histClr (s : State) {q b : Nat} (hb : b < 16) :
    s.histClr.histBin q b = if q = s.rd F.WHL_HIST_SEL_QUEUE then 0 else s.histBin q b := by
  have hkey : (q * 16 + b) / 16 = q := by omega
  refine (mapGet_keep _ _ _ _).trans ?_
  simp only [hkey, bne_iff_ne, ne_eq, ite_not]
  rfl

/-- Settles O41: each clause by the lemma on its command. -/
theorem portsShapersAndWheel : Obligations.PortsShapersAndWheel := by
  refine ⟨fun p s => ⟨fun h => ?frameDone, fun h => ?idlePort⟩, fun q s h => ?refill, exec_shaperRefill, fun q v s => ⟨fun hbad => ?badShape, fun hok => ?shape⟩,
    fun s => ⟨fun h => ?slotNone, fun e he => ?slotDue⟩, fun f s => ⟨fun h => ?ts, fun h => ?notTs⟩, fun q s hmask hring => ?sample, fun s => ?clear⟩
  case frameDone => rw [exec_portFrameDone, h, State.when_true]
  case idlePort => rw [exec_portFrameDone, h, Option.isSome_none, State.when_false]
  case refill =>
    obtain ⟨hq, hother, hsame, hentries, -, honly⟩ := s.refilledQ_leaves q
    exact ⟨_, (exec_shaperRefill q s).trans (congrArg _ (State.refillTokens_held h)), hq, hother, hsame, hentries, honly⟩
  case badShape =>
    exact gives_refused ((exec_shaperWrite q v s).trans (congrArg _ (if_pos hbad))) (.head _) (recReg_of_lt (by decide)) (by decide)
  case shape => exact shaperWrite_stores hok
  case slotNone =>
    refine ⟨_, (exec_wheelSlot s).trans (congrArg _ (State.serveWheel_none (by rwa [State.ptpT_wr, State.whl_wr]))), s.rd_wr_eq F.WHL_NOW_SLOT _ rfl, only_wr s F.WHL_NOW_SLOT _⟩
  case slotDue =>
    exact (exec_wheelSlot s).trans (congrArg _ (State.serveWheel_due (s.ptpT_wr _ _) (congrArg Wheel.entries (s.whl_wr _ _)) he))
  case ts => rw [exec_tsPsiTimer, exec_tsPcrTimer, h, State.when_true, State.when_true]; exact ⟨rfl, rfl⟩
  case notTs => rw [exec_tsPsiTimer, exec_tsPcrTimer, h, State.when_false, State.when_false]; exact ⟨rfl, rfl⟩
  case sample =>
    refine ⟨_, exec_queueSample_one hmask hring, ?_, fun k b hb hne => ?_, rfl⟩
    · rw [State.histBin_addBin, if_pos rfl]
    · rw [State.histBin_addBin, if_neg (binKey_ne (waitBin_lt _) hb hne)]
  case clear =>
    exact ⟨s.histClr, rfl, fun b hb => (s.histBin_histClr hb).trans (if_pos rfl), fun q b hb hq => (s.histBin_histClr hb).trans (if_neg hq), rfl⟩

end Sys2Proof.Machine
end

section
/-!
PROOFS. Audio (R337 to R339, R344, R345): no operation on the way of an input's sample moves a stream's configuration, by which each
sample of a stream goes; the frames of a port's own clock domain, the host index, m0, and the loss of a clock.
-/
namespace Sys2Proof.Machine

/-! ## The configuration of the streams -/

/-- AUD_STRa_CFG of every stream. -/
def State.audCfg (s : State) (a : Fin 256) : Word := s.reg (R.AUD_STRa_CFG a)

/-- A register that is no stream's AUD_STRa_CFG: these stand at multiples of their stride of 0x40 from 0x802000 to 0x805FFF. -/
def OffAudCfg (r : Nat) : Prop := r < 0x802000 ∨ 0x806000 ≤ r ∨ r % 0x40 ≠ 0

theorem State.audCfg_wr (s : State) {f : Fld} (v : Nat) (h : OffAudCfg f.reg) : (s.wr f v).audCfg = s.audCfg := by
  funext a
  refine s.reg_wr_ne f v fun e => ?_
  simp only [OffAudCfg, ← e, R.AUD_STRa_CFG] at h
  omega

theorem State.audCfg_of_recorded {s t : State} (h : Recorded s t) : t.audCfg = s.audCfg :=
  funext fun a => h.reg _ (recReg_of_lt (by simp only [R.AUD_STRa_CFG]; omega))

theorem State.audCfg_ite {p : Prop} [Decidable p] {s a b : State} (ha : a.audCfg = s.audCfg) (hb : b.audCfg = s.audCfg) :
    (if p then a else b).audCfg = s.audCfg := by
  split
  · exact ha
  · exact hb

theorem State.audCfg_foldl {α : Type} {f : State → α → State} (hf : ∀ s a, (f s a).audCfg = s.audCfg) (l : List α) (s : State) :
    (l.foldl f s).audCfg = s.audCfg := by
  induction l generalizing s with
  | nil => rfl
  | cons a l ih => exact (ih (f s a)).trans (hf s a)

/-- What a stream's configuration gives does not move with a state of the same configuration. -/
theorem State.rd_of_audCfg {s t : State} (h : t.audCfg = s.audCfg) (a : Fin 256) {f : Fld} (hf : f.reg = R.AUD_STRa_CFG a) : t.rd f = s.rd f := by
  have ha := congrFun h a
  simp only [State.audCfg] at ha
  rw [State.rd, State.rd, hf, ha]

section
variable (s : State)

@[simp] theorem State.audCfg_tick : s.tick.audCfg = s.audCfg := rfl

@[simp] theorem State.audCfg_setAudStr (a : Nat) (x : AudSt) : (s.setAudStr a x).audCfg = s.audCfg := rfl

theorem portStatus_offAudCfg (k : Nat) : OffAudCfg (R.AUD_Pp_STATUS k) := by
  simp only [OffAudCfg, R.AUD_Pp_STATUS]
  omega

theorem portCount_offAudCfg (k : Nat) : OffAudCfg (R.AUD_Pp_CNT k) := by
  simp only [OffAudCfg, R.AUD_Pp_CNT]
  omega

theorem setCount_offAudCfg (k : Nat) : OffAudCfg (R.AUD_SETs_CNT k) := by
  simp only [OffAudCfg, R.AUD_SETs_CNT]
  omega

@[simp] theorem State.audCfg_setAudStore (k : Nat) (x : AudStore) : (s.setAudStore k x).audCfg = s.audCfg := by
  simp only [State.setAudStore]
  split
  · exact State.audCfg_wr _ _ (portStatus_offAudCfg k)
  · split
    · exact State.audCfg_wr _ _ (portStatus_offAudCfg (k - 16))
    · rfl

@[simp] theorem State.audCfg_countSlip (k : Nat) : (s.countSlip k).audCfg = s.audCfg :=
  State.audCfg_ite (s.audCfg_wr _ (portCount_offAudCfg (k % 16))) rfl

@[simp] theorem State.audCfg_askSlip (k : Nat) (dir : Int) (m a : Nat) : (s.askSlip k dir m a).audCfg = s.audCfg := by
  simp [State.askSlip]

@[simp] theorem State.audCfg_setSlips (n : Nat) (dir : Int) (a : Nat) : (s.setSlips n dir a).audCfg = s.audCfg := by
  simp only [State.setSlips]
  split
  · exact State.audCfg_ite (State.audCfg_foldl (fun u k => by simp) _ s) rfl
  · exact (State.audCfg_wr _ _ (setCount_offAudCfg n)).trans (State.audCfg_foldl (fun u k => by simp) _ s)

@[simp] theorem State.audCfg_checkFill (k : Nat) : (s.checkFill k).audCfg = s.audCfg := by
  simp only [State.checkFill]
  refine State.audCfg_ite rfl ?_
  split
  · refine State.audCfg_ite ?_ (by simp)
    refine (State.audCfg_of_recorded (State.event_recorded _ _ _ _ _ _ _)).trans ((State.audCfg_ite ?_ rfl).trans (s.audCfg_askSlip k _ _ _))
    exact State.audCfg_wr _ _ (portCount_offAudCfg (k % 16))
  · exact State.audCfg_ite (by simp) rfl

@[simp] theorem State.audCfg_storePop (k n : Nat) : (s.storePop k n).1.audCfg = s.audCfg := by
  simp only [State.storePop]
  split
  · simp
  · split <;> simp

@[simp] theorem State.audCfg_storeNext (k n m : Nat) (prev : Option (List AudSamp)) : (s.storeNext k n m prev).1.audCfg = s.audCfg := by
  simp only [State.storeNext, State.audCfg_checkFill, State.audCfg_setAudStore]
  refine (State.audCfg_ite (State.audCfg_countSlip _ k) rfl).trans ?_
  split
  · rfl
  · exact (State.audCfg_storePop _ k n).trans (State.audCfg_ite (s.audCfg_storePop k n) rfl)

@[simp] theorem State.audCfg_storeTake (k n m : Nat) : (s.storeTake k n m).1.audCfg = s.audCfg := by
  unfold State.storeTake
  split
  · split <;> simp
  · simp

@[simp] theorem State.audCfg_storeStill (k n m : Nat) : (s.storeStill k n m).audCfg = s.audCfg := by
  simp only [State.storeStill]
  refine State.audCfg_ite rfl ?_
  rw [State.audCfg_countSlip, State.audCfg_setAudStore]
  exact State.audCfg_ite (s.audCfg_storePop k n) rfl

@[simp] theorem State.audCfg_inPut (a m : Nat) (fr : List AudSamp) : (s.inPut a m fr).audCfg = s.audCfg := rfl

/-- What a store gives joins the stream, and no configuration moves. -/
theorem State.audCfg_takeIn (a k n m : Nat) :
    (match s.storeTake k n m with | (s, some f) => s.inPut a m f | (s, none) => s).audCfg = s.audCfg := by
  have htake := s.audCfg_storeTake k n m
  rcases h : s.storeTake k n m with ⟨u, _ | f⟩ <;> rw [h] at htake <;> exact htake

/-- R337, R344: taking the sample of an input moves no stream's configuration. -/
@[simp] theorem State.audCfg_inSource (a m : Nat) (x : AudIn) : (s.inSource a m x).audCfg = s.audCfg := by
  unfold State.inSource
  split
  · refine State.audCfg_ite (State.audCfg_ite (by simp) (s.audCfg_takeIn a _ 64 m)) ?_
    split
    · exact State.audCfg_ite rfl rfl
    · rfl
  · split
    · exact s.audCfg_takeIn a _ 4 m
    · split <;> simp
  · rfl

end

/-! ## AUDIO_SAMPLE (R338, R339) -/

/-- The stream runs, and line time has reached its next sample. -/
def State.audDue (s : State) (a : Nat) : Prop :=
  s.rd (F.AUD_STRa_STATUS_STATE a) ≠ 0 ∧ s.tlRunning (s.audTl a) = true ∧ s.sampPos (s.audTl a) (s.audRate a) (s.audNext a) ≤ s.units (s.audTl a)

/-- The clock balls of a stream's port run on, and the sample is counted. -/
def State.audCounted (s : State) (a n : Nat) : State :=
  let w := if s.rd (F.AUD_STRa_CFG_SRC a) = 0 then s.portClock (s.audPort a) else s
  w.setAudStr a { w.audStr a with n := n + 1 }

theorem exec_audioSample (a : Fin 256) (x : AudIn) (s : State) : exec (.audioSample a x) s = .next (s.audSample a x) := rfl

theorem State.audSample_early {s : State} {a : Nat} (x : AudIn) (h : ¬s.audDue a) : s.audSample a x = s := by
  refine if_pos ?_
  simp only [State.audDue, not_and_or, not_not, Bool.not_eq_true, not_le] at h
  simpa using h

/-- The state that shows a stream as running has the configuration of the state before. -/
theorem State.audCfg_running (s : State) (a : Fin 256) : (s.wr (F.AUD_STRa_STATUS_STATE a) 2).audCfg = s.audCfg := by
  refine s.audCfg_wr 2 ?_
  simp only [OffAudCfg, F.AUD_STRa_STATUS_STATE, R.AUD_STRa_STATUS]
  omega

/-- R338, R339: a sample that is due, by the configuration of the state before it. -/
theorem State.audSample_due {s : State} {a : Fin 256} (x : AudIn) (h : s.audDue a) : s.audSample a x =
    State.audCounted (if s.audOut a = true then
        (State.outFetches (s.wr (F.AUD_STRa_STATUS_STATE a) 2) a x.fault (if (s.audStr a).n = 0 then s.audLat a + 1 else 1) x.data x.side).outPresent a
          (s.audNext a)
      else if s.audLat a ≤ (s.audStr a).n then
        (State.inSource (s.wr (F.AUD_STRa_STATUS_STATE a) 2) a (s.audNext a) x).inDue a x.fault
      else State.inSource (s.wr (F.AUD_STRa_STATUS_STATE a) 2) a (s.audNext a) x) a (s.audStr a).n := by
  obtain ⟨hstate, hrun, hpos⟩ := h
  have hcfg := s.audCfg_running a
  have hout : (s.wr (F.AUD_STRa_STATUS_STATE a) 2).audOut a = s.audOut a := State.on_of_rd (State.rd_of_audCfg hcfg a rfl)
  have hlat : (s.wr (F.AUD_STRa_STATUS_STATE a) 2).audLat a = s.audLat a := State.rd_of_audCfg hcfg a rfl
  have hlatIn : (State.inSource (s.wr (F.AUD_STRa_STATUS_STATE a) 2) a (s.audNext a) x).audLat a = s.audLat a :=
    (State.rd_of_audCfg (State.audCfg_inSource _ a _ x) a rfl).trans hlat
  have hgo : ¬(s.rd (F.AUD_STRa_STATUS_STATE a) = 0 ∨ (!s.tlRunning (s.audTl a)) = true ∨
      s.units (s.audTl a) < s.sampPos (s.audTl a) (s.audRate a) (s.audNext a)) := by
    simp [hstate, hrun, hpos]
  simp only [State.audSample, if_neg hgo, hout, hlat, hlatIn]
  rfl

/-! ## AUDIO_PORT_FRAME (R345) -/

theorem exec_audioPortFrame (p : Fin 16) (out : Bool) (fr : List AudSamp) (ppm : Int) (s : State) :
    exec (.audioPortFrame p out fr ppm) s = .next (s.audPortFrame p out fr ppm) := rfl

/-- The clock of the port is present, and its rate measured. -/
def State.portHeard (s : State) (p : Nat) (ppm : Int) : State := (s.wr (F.AUD_Pp_STATUS_CLK_OK p) 1).wrS (F.AUD_Pp_PPM_OFFSET p) ppm

/-- The parity errors of a frame that comes in are counted (R343). -/
def State.portIn (s : State) (p : Nat) (fr : List AudSamp) (ppm : Int) : State :=
  (s.portHeard p ppm).add (F.AUD_Pp_ERR_PERR p) (fr.filter fun v => v.side / 16 % 2 == 1).length

theorem State.audStore_wr (s : State) (f : Fld) (v k : Nat) : (s.wr f v).audStore k = s.audStore k := rfl

theorem State.audStore_portHeard (s : State) (p : Nat) (ppm : Int) (k : Nat) : (s.portHeard p ppm).audStore k = s.audStore k :=
  (State.audStore_wr _ _ _ k).trans (s.audStore_wr _ _ k)

theorem State.audStore_portIn (s : State) (p : Nat) (fr : List AudSamp) (ppm : Int) (k : Nat) : (s.portIn p fr ppm).audStore k = s.audStore k :=
  (State.audStore_wr _ _ _ k).trans (s.audStore_portHeard p ppm k)

theorem State.audPortFrame_ignored {s : State} {p : Nat} {out : Bool} (fr : List AudSamp) (ppm : Int)
    (h : s.on (F.AUD_Pp_CFG_EN p) = false ∨ s.ownDomain p out = false) : s.audPortFrame p out fr ppm = s := if_pos (by simpa using h)

section
variable {s : State} {p : Nat} {out : Bool} (fr : List AudSamp) (ppm : Int)
  (hen : s.on (F.AUD_Pp_CFG_EN p) = true) (hown : s.ownDomain p out = true)
include hen hown

theorem State.audPortFrame_in (hout : out = false) : s.audPortFrame p out fr ppm =
    if (s.audStore p).fill ≥ 32 then s.portIn p fr ppm
    else ((s.portIn p fr ppm).setAudStore p { s.audStore p with
      fill := (s.audStore p).fill + 1, frames := (s.audStore p).frames ++ [(0, fr.map ((s.portIn p fr ppm).slotSamp p))] }).checkFill p := by
  have hgo : ¬((!s.on (F.AUD_Pp_CFG_EN p)) = true ∨ (!s.ownDomain p out) = true) := by simp [hen, hown]
  rw [State.audPortFrame, if_neg hgo, hout, if_neg Bool.false_ne_true, ← s.audStore_portIn p fr ppm p]
  rfl

theorem State.audPortFrame_out (hout : out = true) : s.audPortFrame p out fr ppm =
    if (s.audStore (16 + p)).fill = 0 then s.portHeard p ppm
    else
      let w := (s.portHeard p ppm).storePop (16 + p) 64
      (w.1.send (.audioPort p (((s.audStore (16 + p)).frames.map (·.1)).headD 0) (w.2.map (w.1.slotSamp p)))).checkFill (16 + p) := by
  have hgo : ¬((!s.on (F.AUD_Pp_CFG_EN p)) = true ∨ (!s.ownDomain p out) = true) := by simp [hen, hown]
  rw [State.audPortFrame, if_neg hgo, hout, if_pos rfl, ← s.audStore_portHeard p ppm (16 + p)]
  rfl

end

/-- A frame for a full store shows the clock and its rate and is dropped. -/
theorem State.portIn_reads (s : State) (p : Fin 16) (fr : List AudSamp) (ppm : Int) :
    (s.portIn p fr ppm).rd (F.AUD_Pp_STATUS_CLK_OK p) = 1 ∧ (s.portIn p fr ppm).rd (F.AUD_Pp_PPM_OFFSET p) = wrap 16 (clampS 16 ppm) ∧
      Only [R.AUD_Pp_STATUS p, R.AUD_Pp_PPM p, R.AUD_Pp_ERR p] s (s.portIn p fr ppm) := by
  have hstatusPpm : R.AUD_Pp_STATUS p ≠ R.AUD_Pp_PPM p := by
    simp only [R.AUD_Pp_STATUS, R.AUD_Pp_PPM]
    omega
  have hstatusErr : R.AUD_Pp_STATUS p ≠ R.AUD_Pp_ERR p := by
    simp only [R.AUD_Pp_STATUS, R.AUD_Pp_ERR]
    omega
  have hppmErr : R.AUD_Pp_PPM p ≠ R.AUD_Pp_ERR p := by
    simp only [R.AUD_Pp_PPM, R.AUD_Pp_ERR]
    omega
  have hwrap : wrap 16 (clampS 16 ppm) < 2 ^ 16 := by
    simp only [wrap]
    omega
  unfold State.portIn State.portHeard
  refine ⟨?_, ?_, ?_⟩
  · exact (State.rd_wr_off _ _ hstatusErr).trans ((State.rd_wr_off _ _ hstatusPpm).trans (State.rd_wr_eq _ _ _ rfl))
  · exact (State.rd_wr_off _ _ hppmErr).trans ((State.rd_wr_eq _ _ _ rfl).trans (Nat.mod_eq_of_lt hwrap))
  · exact .add (.wrS (.wr (.refl _ s) (F.AUD_Pp_STATUS_CLK_OK p) _ (.head _)) (F.AUD_Pp_PPM_OFFSET p) _ (.tail _ (.head _))) (F.AUD_Pp_ERR_PERR p) _ (.tail _ (.tail _ (.head _)))

/-! ## The host index, m0 and the loss of a clock (R338, R344) -/

theorem exec_audHostWrite (a : Fin 256) (v : Word) (s : State) : exec (.audHostWrite a v) s = .next
    (if s.audOut a then s.setReg (R.AUD_STRa_HOST a) v else (s.setReg (R.AUD_STRa_HOST a) v).audRelease a (s.audStr a).held) := by
  have hcfg : (s.setReg (R.AUD_STRa_HOST a) v).audOut a = s.audOut a := by
    refine State.on_of_rd (s.rd_setReg_ne v ?_)
    simp only [F.AUD_STRa_CFG_DIR, R.AUD_STRa_CFG, R.AUD_STRa_HOST]
    omega
  rw [← hcfg]
  rfl

theorem exec_audM0Read (a : Fin 256) (s : State) : exec (.audM0Read a) s = .next (s.m0Read a) := rfl

theorem exec_audClockLoss (p : Fin 16) (s : State) : exec (.audClockLoss p) s =
    .next (s.when ((s.ownDomain p false || s.ownDomain p true) && s.on (F.AUD_Pp_STATUS_CLK_OK p)) fun s =>
      (s.wr (F.AUD_Pp_STATUS_CLK_OK p) 0).inc (F.AUD_Pp_ERR_LOS p)) := rfl

theorem State.clockLost_reads (s : State) (p : Nat) :
    ((s.wr (F.AUD_Pp_STATUS_CLK_OK p) 0).inc (F.AUD_Pp_ERR_LOS p)).rd (F.AUD_Pp_STATUS_CLK_OK p) = 0 ∧
      ((s.wr (F.AUD_Pp_STATUS_CLK_OK p) 0).inc (F.AUD_Pp_ERR_LOS p)).rd (F.AUD_Pp_ERR_LOS p) = min (s.rd (F.AUD_Pp_ERR_LOS p) + 1) (2 ^ 16 - 1) ∧
      Only [R.AUD_Pp_STATUS p, R.AUD_Pp_ERR p] s ((s.wr (F.AUD_Pp_STATUS_CLK_OK p) 0).inc (F.AUD_Pp_ERR_LOS p)) := by
  have hne : R.AUD_Pp_STATUS p ≠ R.AUD_Pp_ERR p := by
    simp only [R.AUD_Pp_STATUS, R.AUD_Pp_ERR]
    omega
  have hlos : (s.wr (F.AUD_Pp_STATUS_CLK_OK p) 0).rd (F.AUD_Pp_ERR_LOS p) = s.rd (F.AUD_Pp_ERR_LOS p) := State.rd_wr_off _ _ hne.symm
  refine ⟨(State.rd_wr_off _ _ hne).trans (State.rd_wr_eq _ _ _ rfl), ?_, ?_⟩
  · exact (State.rd_inc_eq _ _ rfl).trans (by rw [hlos]; rfl)
  · exact .inc (.wr (.refl _ s) (F.AUD_Pp_STATUS_CLK_OK p) _ (.head _)) (F.AUD_Pp_ERR_LOS p) (.tail _ (.head _))

/-- Settles O43: a stream's sample by its configuration, then the port's frames, the registers and the clock. -/
theorem audioStreamsAndPorts : Obligations.AudioStreamsAndPorts := by
  refine ⟨fun a x s => ⟨fun h => ?early, fun h hout => ?output, fun h hin hlat => ?taken, fun h hin hlat => ?due⟩,
    fun p out fr ppm s => ⟨fun h => ?ignored, fun hen hown => ⟨fun hin hroom => ?joins, fun hin hfull => ?dropped, fun hout hany => ?leaves, fun hout hno => ?empty⟩⟩,
    fun a v s => ⟨fun hout => ?hostOut, fun hin => ?hostIn⟩, fun a s => ?m0, fun p s => ⟨fun hown hok => ?lost, fun hno => ?still⟩⟩
  case early => rw [exec_audioSample, State.audSample_early x h]
  case output => rw [exec_audioSample, State.audSample_due x h, if_pos hout]; rfl
  case taken =>
    rw [exec_audioSample, State.audSample_due x h, if_neg (by simp [hin]), if_neg (Nat.not_le.2 hlat)]
    rfl
  case due =>
    rw [exec_audioSample, State.audSample_due x h, if_neg (by simp [hin]), if_pos hlat]
    rfl
  case ignored => rw [exec_audioPortFrame, State.audPortFrame_ignored fr ppm h]
  case joins =>
    rw [exec_audioPortFrame, State.audPortFrame_in fr ppm hen hown hin, if_neg (Nat.not_le.2 hroom)]
    rfl
  case dropped =>
    exact ⟨_, (exec_audioPortFrame p out fr ppm s).trans (congrArg _ ((State.audPortFrame_in fr ppm hen hown hin).trans (if_pos hfull))),
      s.portIn_reads p fr ppm⟩
  case leaves =>
    rw [exec_audioPortFrame, State.audPortFrame_out fr ppm hen hown hout, if_neg hany]
    rfl
  case empty =>
    rw [exec_audioPortFrame, State.audPortFrame_out fr ppm hen hown hout, if_pos hno]
    rfl
  case hostOut =>
    exact ⟨_, (exec_audHostWrite a v s).trans (congrArg _ (if_pos hout)), s.reg_setReg_same _ v, only_setReg s _ v⟩
  case hostIn => rw [exec_audHostWrite, if_neg (by simp [hin])]
  case m0 =>
    refine ⟨_, exec_audM0Read a s, BitVec.toNat_ofNat _ _, ?_, ?_⟩
    · exact (congrArg BitVec.toNat (s.reg_setReg_same (R.AUD_STRa_M0_HI a) _)).trans (BitVec.toNat_ofNat _ _)
    · exact (only_setReg s (R.AUD_STRa_M0_HI a) _).withRdata _
  case lost =>
    have hboth : ((s.ownDomain p false || s.ownDomain p true) && s.on (F.AUD_Pp_STATUS_CLK_OK p)) = true := by
      rw [Bool.and_eq_true, Bool.or_eq_true]
      exact ⟨hown, beq_iff_eq.2 hok⟩
    exact ⟨_, (exec_audClockLoss p s).trans (by rw [hboth, State.when_true]), s.clockLost_reads p⟩
  case still =>
    have hnot : ((s.ownDomain p false || s.ownDomain p true) && s.on (F.AUD_Pp_STATUS_CLK_OK p)) = false := by
      rw [← Bool.not_eq_true, Bool.and_eq_true, Bool.or_eq_true, State.on, beq_iff_eq]
      exact hno
    rw [exec_audClockLoss, hnot, State.when_false]

end Sys2Proof.Machine
end

section
/-!
PROOFS. The HBM controllers (R379, R381 to R384, R386): what a write of HBM_CTL takes or refuses, what a refresh window serves, the
return of the row counts to zero, the temperature, and the 1500 port.
-/
namespace Sys2Proof.Machine

/-! ## A controller's own record -/

theorem State.hbmSt_setHbm_same (s : State) (d : Nat) (x : HbmSt) : (s.setHbm d x).hbmSt d = x := mapGet_set_same _ s.hbms d x

theorem Only.hbms {as : List Nat} {s t : State} (h : Only as s t) : t.hbms = s.hbms := by rw [h.2]

/-- A frame around an update of one controller's record: that record is as put, and the frame leaves the records out. -/
theorem Only.of_setHbm {as : List Nat} {s t : State} {d : Nat} {x : HbmSt} (h : Only as (s.setHbm d x) t) :
    t.hbmSt d = x ∧ Only as { s with hbms := t.hbms } t := by
  have hh : t.hbms = (s.setHbm d x).hbms := h.hbms
  exact ⟨(congrArg (mapGet _ · d) hh).trans (s.hbmSt_setHbm_same d x), hh ▸ h⟩

theorem State.hbmSt_of_hbms {s t : State} (h : t.hbms = s.hbms) (d : Nat) : t.hbmSt d = s.hbmSt d := congrArg (mapGet _ · d) h

theorem State.reg_setHbm (s : State) (d : Nat) (x : HbmSt) (a : Nat) : (s.setHbm d x).reg a = s.reg a := rfl

theorem State.hbmSt_setReg (s : State) (a : Nat) (v : Word) (d : Nat) : (s.setReg a v).hbmSt d = s.hbmSt d :=
  State.hbmSt_of_hbms (s.setReg_hbms a v) d

theorem State.setHbm_setReg (s : State) (a : Nat) (v : Word) (d : Nat) (x : HbmSt) : (s.setReg a v).setHbm d x = (s.setHbm d x).setReg a v := by
  unfold State.setReg
  rfl

theorem bit_mod_two (b : Bool) : bit b % 2 ^ 1 = bit b := by cases b <;> rfl

theorem recReg_hbm {d a : Nat} (h : a < 0xD00000) : recReg (dieBase d + a) = false := recReg_of_offset d h

theorem hbmStatus_ne_ctl (d : Nat) : R.HBM_STATUS d ≠ R.HBM_CTL d := by
  simp only [R.HBM_STATUS, R.HBM_CTL]
  omega

/-! ## A write of HBM_CTL (R379, R381, R382, R386) -/

/-- A write that does not set EN: the word's four bits, with the start of refresh and HOT. -/
def State.hbmCtlSet (s : State) (d : Nat) (v : Word) : State :=
  (if !s.on (F.HBM_CTL_REFRESH d) && getBits v 1 1 == 1 then
    (s.setReg (R.HBM_CTL d) (v &&& 0xF)).setHbm d { s.hbmSt d with refAt := s.cycle, rhAt := s.cycle }
  else s.setReg (R.HBM_CTL d) (v &&& 0xF)).showHot d

section
variable {s : State} {d : Nat} {v : Word}

theorem State.hbmCtlWrite_refused {c : Nat} (h : s.hbmCtlCheck d v = c) (hc : c ≠ 0) : s.hbmCtlWrite d v = s.hbmRefuse d c (R.HBM_CTL d) := by
  subst h
  exact if_pos hc

theorem State.hbmCtlWrite_taken (h : s.hbmCtlCheck d v = 0) : s.hbmCtlWrite d v =
    if getBits (s.reg (R.HBM_CTL d)) 0 1 = 0 ∧ getBits v 0 1 = 1 then ((s.hbmCtlSet d v).wr (F.HBM_STATUS_STATE d) 2).serveCrown d
    else s.hbmCtlSet d v := by
  simp only [State.hbmCtlWrite, State.hbmCtlSet, h, State.setReg_cycle, State.hbmSt_setReg, ne_eq, not_true_eq_false, if_false]

/-- A write that leaves EN as it is, and takes neither refresh nor the lock back, is accepted. -/
theorem State.hbmCtlCheck_ok (hen : getBits v 0 1 = getBits (s.reg (R.HBM_CTL d)) 0 1)
    (href : getBits (s.reg (R.HBM_CTL d)) 1 1 = 1 → getBits v 1 1 ≠ 0) (hlock : getBits (s.reg (R.HBM_CTL d)) 2 1 = 1 → getBits v 2 1 ≠ 0) :
    s.hbmCtlCheck d v = 0 := by
  have hset : ¬(getBits (s.reg (R.HBM_CTL d)) 0 1 = 0 ∧ getBits v 0 1 = 1 ∧
      (!decide (s.hbmState d = 1 ∧ getBits v 1 1 = 1 ∧ (s.hbmSt d).failed = [])) = true) := by
    rintro ⟨h0, h1, -⟩
    omega
  have hclear : ¬(getBits (s.reg (R.HBM_CTL d)) 0 1 = 1 ∧ getBits v 0 1 = 0 ∧ s.hbmReady d = true) := by
    rintro ⟨h0, h1, -⟩
    omega
  rw [State.hbmCtlCheck, if_neg hset, if_neg hclear, if_neg fun h => href h.1 h.2, if_neg fun h => hlock h.1 h.2]

/-- The lower four bits of the word are what the register takes. -/
theorem getBits_and_ctl (v : Word) {lo : Nat} (h : lo < 4) : getBits (v &&& 0xF) lo 1 = getBits v lo 1 := by
  have hmask : ∀ i < 4, (0xF : Word).getLsbD i = true := by decide
  rw [getBits_one, getBits_one, BitVec.getLsbD_and, hmask lo h, Bool.and_true]

/-- The state whose HOT is shown: the word stands in HBM_CTL, and the start of refresh is noted. -/
theorem State.hbmCtlSet_ctl (s : State) (d : Nat) (v : Word) : (s.hbmCtlSet d v).reg (R.HBM_CTL d) = v &&& 0xF := by
  rw [State.hbmCtlSet, State.showHot, State.reg_wr_ne _ _ _ (hbmStatus_ne_ctl d).symm]
  split
  · rw [State.reg_setHbm, State.reg_setReg_same]
  · rw [State.reg_setReg_same]

theorem State.hbmCtlSet_bit (s : State) (d : Nat) (v : Word) {f : Fld} (hr : f.reg = R.HBM_CTL d) (hlo : f.lo < 4) (hw : f.width = 1) :
    (s.hbmCtlSet d v).rd f = getBits v f.lo 1 := by
  rw [State.rd, hr, hw, State.hbmCtlSet_ctl, getBits_and_ctl v hlo]

theorem State.hbmCtlSet_hot (s : State) (d : Nat) (v : Word) : (s.hbmCtlSet d v).rd (F.HBM_STATUS_HOT d) =
    bit ((s.hbmCtlSet d v).on (F.HBM_CTL_REFRESH d) && ((s.hbmSt d).hotIv || (s.hbmCtlSet d v).on (F.HBM_CTL_HOT_FORCE d))) := by
  have hshow : ∀ u : State, (u.hbmSt d).hotIv = (s.hbmSt d).hotIv → (u.showHot d).rd (F.HBM_STATUS_HOT d) =
      bit ((u.showHot d).on (F.HBM_CTL_REFRESH d) && ((s.hbmSt d).hotIv || (u.showHot d).on (F.HBM_CTL_HOT_FORCE d))) := by
    intro u hu
    have hre : (u.showHot d).on (F.HBM_CTL_REFRESH d) = u.on (F.HBM_CTL_REFRESH d) :=
      State.on_of_rd (State.rd_wr_off _ _ (hbmStatus_ne_ctl d).symm)
    have hfo : (u.showHot d).on (F.HBM_CTL_HOT_FORCE d) = u.on (F.HBM_CTL_HOT_FORCE d) :=
      State.on_of_rd (State.rd_wr_off _ _ (hbmStatus_ne_ctl d).symm)
    rw [hre, hfo, ← hu]
    exact (State.rd_wr_eq _ _ _ rfl).trans (bit_mod_two _)
  rw [State.hbmCtlSet]
  split
  · refine hshow _ ?_
    rw [State.hbmSt_setHbm_same]
  · exact hshow _ (congrArg HbmSt.hotIv (s.hbmSt_setReg _ _ d))

/-- Refresh that is on, or that the word does not start, notes nothing. -/
theorem State.hbmCtlSet_only (h : getBits v 1 1 = getBits (s.reg (R.HBM_CTL d)) 1 1) : Only [R.HBM_CTL d, R.HBM_STATUS d] s (s.hbmCtlSet d v) := by
  have hno : ¬(!s.on (F.HBM_CTL_REFRESH d) && getBits v 1 1 == 1) = true := by
    rw [h]
    simp [State.on, State.rd, F.HBM_CTL_REFRESH]
  rw [State.hbmCtlSet, if_neg hno]
  exact .wr (.setReg (.refl _ s) _ _ (.head _)) _ _ (.tail _ (.head _))

theorem State.hbmCtlSet_starts (hoff : s.on (F.HBM_CTL_REFRESH d) = false) (h : getBits v 1 1 = 1) :
    (s.hbmCtlSet d v).hbmSt d = { s.hbmSt d with refAt := s.cycle, rhAt := s.cycle } ∧
      Only [R.HBM_CTL d, R.HBM_STATUS d] { s with hbms := (s.hbmCtlSet d v).hbms } (s.hbmCtlSet d v) := by
  have hyes : (!s.on (F.HBM_CTL_REFRESH d) && getBits v 1 1 == 1) = true := by simp [hoff, h]
  refine Only.of_setHbm ?_
  rw [State.hbmCtlSet, if_pos hyes, State.setHbm_setReg]
  exact .wr (.setReg (.refl _ (s.setHbm d { s.hbmSt d with refAt := s.cycle, rhAt := s.cycle })) _ _ (.head _)) _ _ (.tail _ (.head _))

end

/-! ### The writes of one bit -/

section
variable {s : State} {d : Fin 8} (hcrown : s.hasCrown d = true) (hup : s.dieUp d = true)
include hcrown hup

theorem exec_hbmEn (en : Bool) : exec (.hbmEn d en) s = .next (s.hbmCtlWrite d (putBits (s.reg (R.HBM_CTL d)) 0 1 (bit en))) := by
  change Host.Outcome.next (s.when _ _) = _
  rw [hcrown, hup]
  rfl

theorem exec_hbmRefreshStart : exec (.hbmRefreshStart d) s = .next (s.hbmCtlWrite d (putBits (s.reg (R.HBM_CTL d)) 1 1 1)) := by
  change Host.Outcome.next (s.when _ _) = _
  rw [hcrown, hup]
  rfl

theorem exec_hbmMapLock : exec (.hbmMapLock d) s = .next (s.hbmCtlWrite d (putBits (s.reg (R.HBM_CTL d)) 2 1 1)) := by
  change Host.Outcome.next (s.when _ _) = _
  rw [hcrown, hup]
  rfl

theorem exec_hbmHotForce (f : Bool) : exec (.hbmHotForce d f) s = .next (s.hbmCtlWrite d (putBits (s.reg (R.HBM_CTL d)) 3 1 (bit f))) := by
  change Host.Outcome.next (s.when _ _) = _
  rw [hcrown, hup]
  rfl

end

/-- A bit of HBM_CTL other than the one that is put. -/
theorem getBits_put_other (w : Word) (lo v lo' : Nat) (h : lo < 32) (hne : lo' ≠ lo) : getBits (putBits w lo 1 v) lo' 1 = getBits w lo' 1 := by
  rcases Nat.lt_or_gt_of_ne hne with hlt | hgt
  · exact getBits_put_below _ _ _ _ _ _ h hlt
  · exact getBits_put_above _ _ _ _ _ _ h hgt

theorem getBits_put_bit (w : Word) (lo : Nat) (b : Bool) (h : lo < 32) : getBits (putBits w lo 1 (bit b)) lo 1 = bit b :=
  (getBits_put_same w lo 1 _ h).trans (by cases b <;> rfl)

/-- A write of a bit above EN, which sets refresh or the lock if anything of them: what HBM_CTL then holds. -/
theorem State.hbmCtlWrite_above (s : State) (d : Nat) {lo : Nat} {b : Bool} (h0 : lo ≠ 0) (hlo : lo < 32) (hset : lo < 3 → b = true) :
    s.hbmCtlWrite d (putBits (s.reg (R.HBM_CTL d)) lo 1 (bit b)) = s.hbmCtlSet d (putBits (s.reg (R.HBM_CTL d)) lo 1 (bit b)) := by
  have hput : ∀ i, i < 3 → getBits (s.reg (R.HBM_CTL d)) i 1 = 1 → getBits (putBits (s.reg (R.HBM_CTL d)) lo 1 (bit b)) i 1 ≠ 0 := by
    intro i hi hone
    by_cases he : i = lo
    · rw [he, getBits_put_bit _ _ _ hlo, hset (he ▸ hi)]
      decide
    · rw [getBits_put_other _ _ _ _ hlo he, hone]
      decide
  have hen := getBits_put_other (s.reg (R.HBM_CTL d)) lo (bit b) 0 hlo (Ne.symm h0)
  rw [State.hbmCtlWrite_taken (State.hbmCtlCheck_ok hen (hput 1 (by decide)) (hput 2 (by decide))), if_neg]
  rintro ⟨hold, hnew⟩
  omega

/-- R386: EN set in TRAIN, with refresh on and no failed lane, of a crown in service. -/
theorem State.hbmCtlWrite_enables {s : State} {d : Nat} (hoff : s.on (F.HBM_CTL_EN d) = false) (hstate : s.hbmState d = 1)
    (href : s.on (F.HBM_CTL_REFRESH d) = true) (hlanes : (s.hbmSt d).failed = []) (hserve : d ∉ s.rst.needReset) :
    s.hbmCtlWrite d (putBits (s.reg (R.HBM_CTL d)) 0 1 (bit true)) =
      (s.hbmCtlSet d (putBits (s.reg (R.HBM_CTL d)) 0 1 (bit true))).wr (F.HBM_STATUS_STATE d) 2 := by
  have h0 : getBits (s.reg (R.HBM_CTL d)) 0 1 = 0 := State.rd_of_off (f := F.HBM_CTL_EN d) rfl hoff
  have h1 : getBits (s.reg (R.HBM_CTL d)) 1 1 = 1 := beq_iff_eq.1 href
  have hv0 := getBits_put_bit (s.reg (R.HBM_CTL d)) 0 true (by decide)
  have hv : ∀ i, i ≠ 0 → getBits (putBits (s.reg (R.HBM_CTL d)) 0 1 (bit true)) i 1 = getBits (s.reg (R.HBM_CTL d)) i 1 := fun i hi =>
    getBits_put_other _ 0 _ i (by decide) hi
  have hcheck : s.hbmCtlCheck d (putBits (s.reg (R.HBM_CTL d)) 0 1 (bit true)) = 0 := by
    have hset : ¬(getBits (s.reg (R.HBM_CTL d)) 0 1 = 0 ∧ getBits (putBits (s.reg (R.HBM_CTL d)) 0 1 (bit true)) 0 1 = 1 ∧
        (!decide (s.hbmState d = 1 ∧ getBits (putBits (s.reg (R.HBM_CTL d)) 0 1 (bit true)) 1 1 = 1 ∧ (s.hbmSt d).failed = [])) = true) := by
      rw [hv 1 (by decide), h1, hstate, hlanes]
      simp
    rw [State.hbmCtlCheck, if_neg hset, if_neg (by omega), if_neg (by rw [hv 1 (by decide)]; omega), if_neg (by rw [hv 2 (by decide)]; omega)]
  have hrst : ((s.hbmCtlSet d (putBits (s.reg (R.HBM_CTL d)) 0 1 (bit true))).wr (F.HBM_STATUS_STATE d) 2).rst = s.rst :=
    (Only.wr (State.hbmCtlSet_only (hv 1 (by decide))) (F.HBM_STATUS_STATE d) 2 (.tail _ (.head _))).rst
  rw [State.hbmCtlWrite_taken hcheck, if_pos ⟨h0, hv0⟩, State.serveCrown_inService (by rw [hrst]; exact hserve)]

/-- R386: EN set where the controller is not ready for it. -/
theorem State.hbmCtlCheck_enable_refused {s : State} {d : Nat} (hoff : s.on (F.HBM_CTL_EN d) = false)
    (hnot : ¬(s.hbmState d = 1 ∧ s.on (F.HBM_CTL_REFRESH d) = true ∧ (s.hbmSt d).failed = [])) :
    s.hbmCtlCheck d (putBits (s.reg (R.HBM_CTL d)) 0 1 (bit true)) = 0xA007 := by
  have h0 : getBits (s.reg (R.HBM_CTL d)) 0 1 = 0 := State.rd_of_off (f := F.HBM_CTL_EN d) rfl hoff
  have hv0 := getBits_put_bit (s.reg (R.HBM_CTL d)) 0 true (by decide)
  have hv1 := getBits_put_other (s.reg (R.HBM_CTL d)) 0 (bit true) 1 (by decide) (by decide)
  refine if_pos ⟨h0, hv0, ?_⟩
  rw [hv1, Bool.not_eq_true', decide_eq_false_iff_not]
  rintro ⟨hst, hre, hfa⟩
  exact hnot ⟨hst, beq_iff_eq.2 hre, hfa⟩

/-- R386: EN cleared in READY. -/
theorem State.hbmCtlCheck_disable_refused {s : State} {d : Nat} (hon : s.on (F.HBM_CTL_EN d) = true) (hready : s.hbmState d = 2) :
    s.hbmCtlCheck d (putBits (s.reg (R.HBM_CTL d)) 0 1 (bit false)) = 0xA007 := by
  have h1 : getBits (s.reg (R.HBM_CTL d)) 0 1 = 1 := beq_iff_eq.1 hon
  have hv0 := getBits_put_bit (s.reg (R.HBM_CTL d)) 0 false (by decide)
  refine (if_neg ?_).trans (if_pos ⟨h1, hv0, beq_iff_eq.2 hready⟩)
  rintro ⟨h0, -⟩
  omega

/-! ## Refresh windows (R381 to R384) -/

section
variable (x : HbmSt) (pc : Nat)

/-- Serving flagged rows moves the counts and the flags alone. -/
def HbmSt.SameCourse (x y : HbmSt) : Prop := y.window = x.window ∧ y.hotIv = x.hotIv ∧ y.rows = x.rows ∧ y.refAt = x.refAt

theorem HbmSt.serve_sameCourse : x.SameCourse (x.serve pc) := by
  simp only [HbmSt.serve]
  split <;> exact ⟨rfl, rfl, rfl, rfl⟩

theorem HbmSt.serves_sameCourse (pcs : List Nat) (x : HbmSt) : x.SameCourse (pcs.foldl (fun y pc => y.serve pc) x) := by
  induction pcs generalizing x with
  | nil => exact ⟨rfl, rfl, rfl, rfl⟩
  | cons pc pcs ih =>
    obtain ⟨hw, hi, hr, ha⟩ := ih (x.serve pc)
    obtain ⟨gw, gi, gr, ga⟩ := x.serve_sameCourse pc
    exact ⟨hw.trans gw, hi.trans gi, hr.trans gr, ha.trans ga⟩

/-- R384: the flags of the served rows clear. -/
theorem HbmSt.serve_flagged : (x.serve pc).flagged pc = (x.flagged pc).drop 2 := by
  simp only [HbmSt.serve]
  split
  next h =>
    have hnil : x.flagged pc = [] := by simpa [HbmSt.served] using h
    rw [hnil]
    rfl
  next => exact mapGet_set_same _ _ _ _

/-- R384: the counts of the served rows return to zero. -/
theorem HbmSt.serve_table {e : Nat × Nat × Nat} (he : e ∈ (x.serve pc).table pc) (hs : (e.1, e.2.1) ∈ x.served pc) : e.2.2 = 0 := by
  have hne : x.served pc ≠ [] := List.ne_nil_of_mem hs
  have htable : (x.serve pc).table pc =
      (x.table pc).map fun e => if (x.served pc).contains (e.1, e.2.1) then (e.1, e.2.1, 0) else e := by
    simp only [HbmSt.serve, if_neg hne]
    exact mapGet_set_same _ _ _ _
  rw [htable] at he
  obtain ⟨e', -, rfl⟩ := List.mem_map.1 he
  split at hs
  · rw [if_pos ‹_›]
  · next hno => exact absurd (List.contains_iff_mem.2 hs) hno

end

/-- The record after a refresh window, before flagged rows are served. -/
def State.windowOpened (s : State) (d : Nat) : HbmSt :=
  { s.hbmSt d with
    window := s.hbmWindow d, hotIv := (s.hbmSt d).hotT || (s.hbmSt d).noTemp, rows := [], refAt := (s.hbmSt d).refAt + s.refInterval d }

/-- The record after a refresh window. -/
def State.windowServed (s : State) (d : Nat) : HbmSt :=
  ((s.hbmSt d).flags.map (·.1)).foldl (fun y pc => y.serve pc) (s.windowOpened d)

/-- The rows that a refresh window serves. -/
def HbmSt.servedCount (x : HbmSt) : Nat := (x.flags.map fun (pc, _) => (x.served pc).length).sum

/-- The state in which HOT is shown. -/
def State.windowCounted (s : State) (d : Nat) : State :=
  ((s.setHbm d (s.windowServed d)).incWrap (F.HBM_CNT_REF_REFRESHES d)).add (F.HBM_CNT_RH_MITIGATIONS d) (s.hbmSt d).servedCount

theorem State.refreshTick_eq (s : State) (d : Nat) : s.refreshTick d = (s.windowCounted d).showHot d := rfl

theorem State.refreshTick_frame (s : State) (d : Nat) :
    (s.refreshTick d).hbmSt d = s.windowServed d ∧
      Only [R.HBM_CNT_REF d, R.HBM_CNT_RH d, R.HBM_STATUS d] { s with hbms := (s.refreshTick d).hbms } (s.refreshTick d) := by
  refine Only.of_setHbm ?_
  rw [State.refreshTick_eq, State.windowCounted]
  exact (.wr (.add (.incWrap (.refl _ _) (F.HBM_CNT_REF_REFRESHES d) (.head _)) (F.HBM_CNT_RH_MITIGATIONS d) _ (.tail _ (.head _)))
    (F.HBM_STATUS_HOT d) _ (.tail _ (.tail _ (.head _))))

theorem State.refreshTick_counts (s : State) (d : Nat) :
    (s.refreshTick d).rd (F.HBM_CNT_REF_REFRESHES d) = (s.rd (F.HBM_CNT_REF_REFRESHES d) + 1) % 2 ^ 32 ∧
      (s.refreshTick d).rd (F.HBM_CNT_RH_MITIGATIONS d) = min (s.rd (F.HBM_CNT_RH_MITIGATIONS d) + (s.hbmSt d).servedCount) (2 ^ 16 - 1) := by
  have hrefStatus : R.HBM_CNT_REF d ≠ R.HBM_STATUS d := by
    simp only [R.HBM_CNT_REF, R.HBM_STATUS]
    omega
  have hrhStatus : R.HBM_CNT_RH d ≠ R.HBM_STATUS d := by
    simp only [R.HBM_CNT_RH, R.HBM_STATUS]
    omega
  have hrefRh : R.HBM_CNT_REF d ≠ R.HBM_CNT_RH d := by
    simp only [R.HBM_CNT_REF, R.HBM_CNT_RH]
    omega
  rw [State.refreshTick_eq]
  constructor
  · exact (State.rd_wr_off _ _ hrefStatus).trans ((State.rd_wr_off _ _ hrefRh).trans (State.rd_wr_eq _ _ _ rfl))
  · have hrh : ((s.setHbm d (s.windowServed d)).incWrap (F.HBM_CNT_REF_REFRESHES d)).rd (F.HBM_CNT_RH_MITIGATIONS d) =
        s.rd (F.HBM_CNT_RH_MITIGATIONS d) := State.rd_wr_off _ _ hrefRh.symm
    refine (State.rd_wr_off _ _ hrhStatus).trans ?_
    rw [State.windowCounted]
    refine (State.rd_wr_eq _ _ _ rfl).trans ?_
    rw [hrh]
    exact Nat.mod_eq_of_lt (Nat.lt_of_le_of_lt (Nat.min_le_right _ _) (by decide : 2 ^ 16 - 1 < 2 ^ 16))

theorem State.refreshTick_hot (s : State) (d : Nat) (href : s.on (F.HBM_CTL_REFRESH d) = true) :
    (s.refreshTick d).rd (F.HBM_STATUS_HOT d) = bit ((s.hbmSt d).hotT || (s.hbmSt d).noTemp || s.on (F.HBM_CTL_HOT_FORCE d)) := by
  have hctl : ∀ f : Fld, f.reg = R.HBM_CTL d → (s.windowCounted d).on f = s.on f := by
    intro f hf
    have hrh : f.reg ≠ R.HBM_CNT_RH d := by
      rw [hf]
      simp only [R.HBM_CTL, R.HBM_CNT_RH]
      omega
    have hrefs : f.reg ≠ R.HBM_CNT_REF d := by
      rw [hf]
      simp only [R.HBM_CTL, R.HBM_CNT_REF]
      omega
    exact State.on_of_rd ((State.rd_wr_off _ _ hrh).trans (State.rd_wr_off _ _ hrefs))
  have hcourse := (HbmSt.serves_sameCourse ((s.hbmSt d).flags.map (·.1)) (s.windowOpened d)).2.1
  have hrecord : (s.windowCounted d).hbmSt d = (s.setHbm d (s.windowServed d)).hbmSt d :=
    State.hbmSt_of_hbms (by simp only [State.windowCounted, State.add, State.incWrap, State.wr_hbms]) d
  have hiv : ((s.windowCounted d).hbmSt d).hotIv = ((s.hbmSt d).hotT || (s.hbmSt d).noTemp) :=
    by rw [hrecord, State.hbmSt_setHbm_same]; exact hcourse
  rw [State.refreshTick_eq]
  refine (State.rd_wr_eq _ _ _ rfl).trans ?_
  rw [hctl _ rfl, hctl _ rfl, hiv, href, Bool.true_and]
  exact bit_mod_two _

theorem State.refreshTick_rows (s : State) (d pc : Nat) (l : List (Nat × Nat)) (h : (s.hbmSt d).flags = [(pc, l)]) :
    ((s.refreshTick d).hbmSt d).flagged pc = l.drop 2 ∧
      (∀ e ∈ ((s.refreshTick d).hbmSt d).table pc, (e.1, e.2.1) ∈ l.take 2 → e.2.2 = 0) ∧ (s.hbmSt d).servedCount = min 2 l.length := by
  have hflag : (s.windowOpened d).flagged pc = l := by
    change mapGet _ (s.hbmSt d).flags pc = l
    rw [h]
    exact if_pos rfl
  have hserved : s.windowServed d = (s.windowOpened d).serve pc := by
    rw [State.windowServed, h]
    rfl
  rw [(s.refreshTick_frame d).1, hserved]
  refine ⟨?_, fun e he hm => ?_, ?_⟩
  · rw [HbmSt.serve_flagged, hflag]
  · exact HbmSt.serve_table _ _ he (by rw [HbmSt.served, hflag]; exact hm)
  · rw [HbmSt.servedCount, h]
    have : (s.hbmSt d).flagged pc = l := hflag
    simp [HbmSt.served, this]

/-! ## The return of the counts to zero (R383) -/

theorem mapGet_map {V : Type} (d : Nat → V) (g : V → V) (hg : ∀ k, g (d k) = d k) (m : List (Nat × V)) (k : Nat) :
    mapGet d (m.map fun (k, v) => (k, g v)) k = g (mapGet d m k) := by
  induction m with
  | nil => exact (hg k).symm
  | cons p m ih =>
    obtain ⟨k', v⟩ := p
    simp only [List.map_cons, mapGet]
    split
    · rfl
    · exact ih

theorem State.rhWindow_table (s : State) (d pc : Nat) :
    ((s.rhWindow d).hbmSt d).table pc = ((s.hbmSt d).table pc).map fun e => (e.1, e.2.1, 0) := by
  have hput : (s.rhWindow d).hbmSt d = { s.hbmSt d with
      acts := (s.hbmSt d).acts.map fun (pc, t) => (pc, t.map fun e => (e.1, e.2.1, 0)), rhAt := (s.hbmSt d).rhAt + 12800000 } :=
    State.hbmSt_setHbm_same s d _
  rw [hput]
  exact mapGet_map (fun _ => []) (List.map fun e => (e.1, e.2.1, 0)) (fun _ => rfl) (s.hbmSt d).acts pc

/-! ### The commands of the two timers -/

section
variable {s : State} {d : Fin 8}

theorem exec_hbmRefreshTick (h : s.hasCrown d = true ∧ s.on (F.HBM_CTL_REFRESH d) = true ∧ (s.hbmSt d).refAt + s.refInterval d ≤ s.cycle) :
    exec (.hbmRefreshTick d) s = .next (s.refreshTick d) := by
  obtain ⟨hc, hr, ht⟩ := h
  change Host.Outcome.next (s.when _ _) = _
  rw [hc, hr, decide_eq_true ht]
  rfl

theorem exec_hbmRefreshTick_early (h : s.on (F.HBM_CTL_REFRESH d) = false ∨ s.cycle < (s.hbmSt d).refAt + s.refInterval d) :
    exec (.hbmRefreshTick d) s = .next s := by
  change Host.Outcome.next (s.when _ _) = _
  rcases h with h | h
  · rw [h, Bool.and_false]
    rfl
  · rw [decide_eq_false (Nat.not_le.2 h), Bool.and_false]
    rfl

theorem exec_hbmRhWindow (h : s.hasCrown d = true ∧ s.on (F.HBM_CTL_REFRESH d) = true ∧ (s.hbmSt d).rhAt + 12800000 ≤ s.cycle) :
    exec (.hbmRhWindow d) s = .next (s.rhWindow d) := by
  obtain ⟨hc, hr, ht⟩ := h
  change Host.Outcome.next (s.when _ _) = _
  rw [hc, hr, decide_eq_true ht]
  rfl

theorem exec_hbmRhWindow_early (h : s.on (F.HBM_CTL_REFRESH d) = false ∨ s.cycle < (s.hbmSt d).rhAt + 12800000) :
    exec (.hbmRhWindow d) s = .next s := by
  change Host.Outcome.next (s.when _ _) = _
  rcases h with h | h
  · rw [h, Bool.and_false]
    rfl
  · rw [decide_eq_false (Nat.not_le.2 h), Bool.and_false]
    rfl

end

end Sys2Proof.Machine
end

section
/-!
PROOFS. The HBM controllers' temperature and 1500 port (R382), and what HBM_CTL, refresh and these give together.
-/
namespace Sys2Proof.Machine

/-! ## Temperature (R382) -/

/-- A value in the range of a signed field is held as it is. -/
theorem clampS_of_mem {width : Nat} {i : Int} (hlo : -(2 ^ (width - 1) : Nat) ≤ i) (hhi : i ≤ (2 ^ (width - 1) - 1 : Nat)) : clampS width i = i := by
  rw [clampS, min_eq_left hhi, max_eq_right hlo]

theorem signed_eight_range {v : Nat} (h : v < 256) : -128 ≤ signed 8 v ∧ signed 8 v ≤ 127 := by
  simp only [signed]
  split <;> omega

theorem State.rdS_hbmMax_range (s : State) (d : Nat) : -128 ≤ s.rdS (F.HBM_TEMP_MAX d) ∧ s.rdS (F.HBM_TEMP_MAX d) ≤ 127 :=
  signed_eight_range (s.rd_lt (F.HBM_TEMP_MAX d))

/-- Readings of 82 degrees or lower in a row, after a reading of `c` (R382). -/
def HbmSt.coolAfter (x : HbmSt) (c : Int) : Nat := if c ≤ 82 then min 10 (x.cool + 1) else 0

/-- Whether the stack is hot by temperature, after a reading of `c` (R382). -/
def HbmSt.hotAfter (x : HbmSt) (c : Int) : Bool := if 85 < c then true else if x.coolAfter c = 10 then false else x.hotT

/-- The greatest reading, after a reading of `c`. -/
def State.maxAfter (s : State) (d : Nat) (c : Int) : Int := if (s.hbmSt d).seen then max c (s.rdS (F.HBM_TEMP_MAX d)) else c

theorem State.hbmTemp_eq (s : State) (d : Nat) (c : Int) : s.hbmTemp d c =
    ((s.setHbm d { s.hbmSt d with cool := (s.hbmSt d).coolAfter c, hotT := (s.hbmSt d).hotAfter c, noTemp := false, seen := true }).wrS
      (F.HBM_TEMP_TEMP d) c).wrS (F.HBM_TEMP_MAX d) (s.maxAfter d c) := rfl

section
variable (x : HbmSt) {c : Int}

theorem HbmSt.after_hot (h : 85 < c) : x.hotAfter c = true ∧ x.coolAfter c = 0 := ⟨if_pos h, if_neg (by omega)⟩

theorem HbmSt.after_cool (h : c ≤ 82) : x.coolAfter c = min 10 (x.cool + 1) ∧ x.hotAfter c = (x.hotT && decide (x.cool + 1 < 10)) := by
  have hcool : x.coolAfter c = min 10 (x.cool + 1) := if_pos h
  refine ⟨hcool, ?_⟩
  rw [HbmSt.hotAfter, if_neg (by omega), hcool]
  by_cases hten : x.cool + 1 < 10
  · rw [if_neg (by omega), decide_eq_true hten, Bool.and_true]
  · rw [if_pos (by omega), decide_eq_false hten, Bool.and_false]

theorem HbmSt.after_warm (hlo : 82 < c) (hhi : c ≤ 85) : x.coolAfter c = 0 ∧ x.hotAfter c = x.hotT := by
  have hcool : x.coolAfter c = 0 := if_neg (by omega)
  refine ⟨hcool, ?_⟩
  rw [HbmSt.hotAfter, if_neg (by omega), hcool, if_neg (by decide)]

end

theorem State.hbmTemp_reads (s : State) (d : Nat) {c : Int} (hlo : -128 ≤ c) (hhi : c ≤ 127) :
    (s.hbmTemp d c).rdS (F.HBM_TEMP_TEMP d) = c ∧ (s.hbmTemp d c).rdS (F.HBM_TEMP_MAX d) = s.maxAfter d c := by
  obtain ⟨mlo, mhi⟩ := s.rdS_hbmMax_range d
  have hmax : -128 ≤ s.maxAfter d c ∧ s.maxAfter d c ≤ 127 := by
    rw [State.maxAfter]
    split <;> omega
  rw [State.hbmTemp_eq]
  constructor
  · refine (congrArg (signed 8) (State.rd_wr_beside _ _ rfl rfl)).trans ((State.rdS_wrS_same _ (f := F.HBM_TEMP_TEMP d) _ (by decide : 0 + 8 ≤ 32) (by decide : 0 < 8)).trans ?_)
    exact clampS_of_mem hlo hhi
  · exact (State.rdS_wrS_same _ (f := F.HBM_TEMP_MAX d) _ (by decide : 8 + 8 ≤ 32) (by decide : 0 < 8)).trans (clampS_of_mem hmax.1 hmax.2)

theorem State.hbmTemp_frame (s : State) (d : Nat) (c : Int) :
    (s.hbmTemp d c).hbmSt d =
        { s.hbmSt d with cool := (s.hbmSt d).coolAfter c, hotT := (s.hbmSt d).hotAfter c, noTemp := false, seen := true } ∧
      Only [R.HBM_TEMP d] { s with hbms := (s.hbmTemp d c).hbms } (s.hbmTemp d c) := by
  refine Only.of_setHbm ?_
  rw [State.hbmTemp_eq]
  exact .wrS (.wrS (.refl _ _) (F.HBM_TEMP_TEMP d) _ (.head _)) (F.HBM_TEMP_MAX d) _ (.head _)

section
variable {s : State} {d : Fin 8} (hcrown : s.hasCrown d = true)
include hcrown

theorem exec_hbmTempRead (v : Fin 256) (hstate : s.hbmState d ≠ 0) : exec (.hbmTempRead d v) s = .next (s.hbmTemp d (signed 8 v)) := by
  change Host.Outcome.next (s.when _ _) = _
  rw [hcrown, decide_eq_true hstate, Bool.and_true, State.when_true]

theorem exec_hbmTempTimeout (hstate : s.hbmState d ≠ 0) : exec (.hbmTempTimeout d) s = .next (s.hbmNoTemp d) := by
  change Host.Outcome.next (s.when _ _) = _
  rw [hcrown, decide_eq_true hstate, Bool.and_true, State.when_true]

/-! ## The 1500 port (R382) -/

theorem exec_hbm1500Go (v : Word) (hup : s.dieUp d = true) : exec (.hbm1500Go d v) s = .next (s.hbm1500Write d (v ||| 0x80000000)) := by
  change Host.Outcome.next (s.when _ _) = _
  rw [hcrown, hup, Bool.and_true, State.when_true]

theorem exec_hbm1500Done (data : List Word) (hbusy : s.rd (F.HBM_1500_STATUS_BUSY d) = 1) :
    exec (.hbm1500Done d data) s = .next (s.hbm1500End d data) := by
  have hon : s.on (F.HBM_1500_STATUS_BUSY d) = true := beq_iff_eq.2 hbusy
  change Host.Outcome.next (s.when _ _) = _
  rw [hcrown, hon, Bool.and_true, State.when_true]

end

/-- A field reads the same of two words that agree on its bits. -/
theorem getBits_congr {v w : Word} {lo width : Nat} (h : ∀ i < width, v.getLsbD (lo + i) = w.getLsbD (lo + i)) :
    getBits v lo width = getBits w lo width := by
  apply Nat.eq_of_testBit_eq
  intro i
  simp only [getBits, Nat.testBit_mod_two_pow, Nat.testBit_div_two_pow]
  by_cases hi : i < width
  · have hbit := h i hi
    simp only [BitVec.getLsbD] at hbit
    rw [Nat.add_comm i lo, hbit]
  · simp [hi]

/-- HBM_1500_CMD takes INSTR and LEN of the word that GO comes with. -/
theorem getBits_1500Go (v : Word) {lo width : Nat} (h : lo + width ≤ 20) :
    getBits ((v ||| 0x80000000) &&& 0x800FFFFF) lo width = getBits v lo width := by
  have hgo : ∀ i < 20, (0x80000000 : Word).getLsbD i = false := by decide
  have hmask : ∀ i < 20, (0x800FFFFF : Word).getLsbD i = true := by decide
  refine getBits_congr fun i hi => ?_
  rw [BitVec.getLsbD_and, BitVec.getLsbD_or, hgo _ (by omega), hmask _ (by omega), Bool.or_false, Bool.and_true]

theorem getBits_1500Go_go (v : Word) : getBits (v ||| 0x80000000) 31 1 = 1 := by
  have hgo : (0x80000000 : Word).getLsbD 31 = true := by decide
  rw [getBits_one, BitVec.getLsbD_or, hgo, Bool.or_true]
  rfl

theorem State.hbm1500Write_go (s : State) (d : Nat) (v : Word) (hstate : s.hbmState d ≠ 0) : s.hbm1500Write d (v ||| 0x80000000) =
    (s.setReg (R.HBM_1500_CMD d) ((v ||| 0x80000000) &&& 0x800FFFFF)).wr (F.HBM_1500_STATUS_BUSY d) 1 := by
  have hsame : (s.setReg (R.HBM_1500_CMD d) ((v ||| 0x80000000) &&& 0x800FFFFF)).hbmState d = s.hbmState d := by
    refine s.rd_setReg_ne _ ?_
    simp only [F.HBM_STATUS_STATE, R.HBM_STATUS, R.HBM_1500_CMD]
    omega
  exact if_pos ⟨getBits_1500Go_go v, by rw [hsame]; exact hstate⟩

theorem State.hbm1500Go_reads (s : State) (d : Nat) (v : Word) (hstate : s.hbmState d ≠ 0) :
    (s.hbm1500Write d (v ||| 0x80000000)).rd (F.HBM_1500_STATUS_BUSY d) = 1 ∧
      (s.hbm1500Write d (v ||| 0x80000000)).rd (F.HBM_1500_CMD_INSTR d) = getBits v 0 8 ∧
      (s.hbm1500Write d (v ||| 0x80000000)).rd (F.HBM_1500_CMD_LEN d) = getBits v 8 12 ∧
      Only [R.HBM_1500_CMD d, R.HBM_1500_STATUS d] s (s.hbm1500Write d (v ||| 0x80000000)) := by
  have hne : R.HBM_1500_CMD d ≠ R.HBM_1500_STATUS d := by
    simp only [R.HBM_1500_CMD, R.HBM_1500_STATUS]
    omega
  have hcmd : ∀ f : Fld, f.reg = R.HBM_1500_CMD d → f.lo + f.width ≤ 20 →
      (s.hbm1500Write d (v ||| 0x80000000)).rd f = getBits v f.lo f.width := by
    intro f hf hlo
    rw [State.hbm1500Write_go s d v hstate, State.rd_wr_off _ _ (hf ▸ hne), State.rd, hf, State.reg_setReg_same, getBits_1500Go v hlo]
  refine ⟨?_, hcmd (F.HBM_1500_CMD_INSTR d) rfl (by decide : 0 + 8 ≤ 20), hcmd (F.HBM_1500_CMD_LEN d) rfl (by decide : 8 + 12 ≤ 20), ?_⟩
  · rw [State.hbm1500Write_go s d v hstate]
    exact State.rd_wr_eq _ _ _ rfl
  · rw [State.hbm1500Write_go s d v hstate]
    exact .wr (.setReg (.refl _ s) _ _ (.head _)) (F.HBM_1500_STATUS_BUSY d) _ (.tail _ (.head _))

/-- The data words, with those of a list from word k on. -/
def State.dataFrom (s : State) (d k : Nat) (vs : List Word) : State :=
  (vs.zipIdx k).foldl (fun s (v, w) => if w < 16 then s.setReg (R.HBM_1500_DATAw d w) v else s) s

theorem dataw_injective {d i j : Nat} (h : R.HBM_1500_DATAw d i = R.HBM_1500_DATAw d j) : i = j := by
  simp only [R.HBM_1500_DATAw] at h
  omega

theorem State.dataFrom_cons (s : State) (d k : Nat) (v : Word) (vs : List Word) : s.dataFrom d k (v :: vs) =
    (if k < 16 then s.setReg (R.HBM_1500_DATAw d k) v else s).dataFrom d (k + 1) vs := rfl

/-- A data word that the list does not reach. -/
theorem State.dataFrom_off (s : State) (d k : Nat) (vs : List Word) {w : Nat} (h : w < k ∨ k + vs.length ≤ w) :
    (s.dataFrom d k vs).reg (R.HBM_1500_DATAw d w) = s.reg (R.HBM_1500_DATAw d w) := by
  induction vs generalizing s k with
  | nil => rfl
  | cons v vs ih =>
    rw [State.dataFrom_cons, ih _ _ (by rw [List.length_cons] at h; omega)]
    split
    · exact s.reg_setReg_ne v fun e => by
        have := dataw_injective e
        rw [List.length_cons] at h
        omega
    · rfl

/-- A data word that the list gives. -/
theorem State.dataFrom_at (s : State) (d k : Nat) (vs : List Word) {w : Nat} (hw : k + w < 16) (h : w < vs.length) :
    (s.dataFrom d k vs).reg (R.HBM_1500_DATAw d (k + w)) = vs.getD w 0 := by
  induction vs generalizing s k w with
  | nil => exact absurd h (Nat.not_lt_zero w)
  | cons v vs ih =>
    rw [State.dataFrom_cons]
    cases w with
    | zero => rw [State.dataFrom_off _ _ _ _ (by omega), if_pos (by omega), Nat.add_zero, State.reg_setReg_same, List.getD_cons_zero]
    | succ w =>
      rw [List.length_cons] at h
      have hnext := ih (if k < 16 then s.setReg (R.HBM_1500_DATAw d k) v else s) (k + 1) (w := w) (by omega) (by omega)
      rw [List.getD_cons_succ, ← hnext, Nat.add_assoc, Nat.add_comm 1 w]

theorem State.dataFrom_only (s : State) (d k : Nat) (vs : List Word) : Only ((List.range 16).map (R.HBM_1500_DATAw d)) s (s.dataFrom d k vs) := by
  induction vs generalizing s k with
  | nil => exact .refl _ s
  | cons v vs ih =>
    rw [State.dataFrom_cons]
    refine Only.trans ?_ (ih _ (k + 1))
    split
    next hk => exact .setReg (.refl _ s) _ _ (List.mem_map_of_mem (List.mem_range.2 hk))
    next => exact .refl _ s

/-- The words that an instruction of LEN bits shifts out. -/
def State.shifted (s : State) (d : Nat) (data : List Word) : List Word := data.take (min data.length ((s.rd (F.HBM_1500_CMD_LEN d) + 31) / 32))

theorem State.hbm1500End_eq (s : State) (d : Nat) (data : List Word) :
    s.hbm1500End d data = (s.dataFrom d 0 (s.shifted d data)).wr (F.HBM_1500_STATUS_BUSY d) 0 := rfl

theorem State.hbm1500End_word (s : State) (d : Nat) (data : List Word) (w : Nat) :
    (s.hbm1500End d data).reg (R.HBM_1500_DATAw d w) = (s.dataFrom d 0 (s.shifted d data)).reg (R.HBM_1500_DATAw d w) := by
  refine State.reg_wr_ne _ _ _ ?_
  simp only [F.HBM_1500_STATUS_BUSY, R.HBM_1500_STATUS, R.HBM_1500_DATAw]
  omega

theorem State.hbm1500End_shifted (s : State) (d : Nat) (data : List Word) {w : Nat} (h16 : w < 16) (hlen : w < data.length)
    (hbits : w * 32 < s.rd (F.HBM_1500_CMD_LEN d)) : (s.hbm1500End d data).reg (R.HBM_1500_DATAw d w) = data.getD w 0 := by
  have hcut : w < min data.length ((s.rd (F.HBM_1500_CMD_LEN d) + 31) / 32) := by omega
  have hword := s.dataFrom_at d 0 (s.shifted d data) (w := w) (by omega) (by rw [State.shifted, List.length_take]; omega)
  rw [Nat.zero_add] at hword
  rw [State.hbm1500End_word, hword, State.shifted, List.getD_eq_getElem?_getD, List.getD_eq_getElem?_getD, List.getElem?_take_of_lt hcut]

theorem State.hbm1500End_kept (s : State) (d : Nat) (data : List Word) {w : Nat} (hbits : s.rd (F.HBM_1500_CMD_LEN d) ≤ w * 32) :
    (s.hbm1500End d data).reg (R.HBM_1500_DATAw d w) = s.reg (R.HBM_1500_DATAw d w) := by
  rw [State.hbm1500End_word]
  refine s.dataFrom_off d 0 _ (.inr ?_)
  rw [State.shifted, List.length_take]
  omega

theorem State.hbm1500End_only (s : State) (d : Nat) (data : List Word) :
    Only (R.HBM_1500_STATUS d :: (List.range 16).map (R.HBM_1500_DATAw d)) s (s.hbm1500End d data) := by
  rw [State.hbm1500End_eq]
  exact .wr ((s.dataFrom_only d 0 _).mono (List.subset_cons_self _ _)) _ _ (.head _)

/-! ## O49 -/

/-- Settles O49: the writes of HBM_CTL by what they take, then the timers by what they serve, then temperature and the 1500 port. -/
theorem hbmControlAndRefresh : Obligations.HbmControlAndRefresh := by
  refine ⟨fun d s hcrown hup => ⟨fun hoff hstate href hlanes hserve => ?enabled, fun hoff hnot => ?enableRefused, fun hon hready => ?disableRefused,
      ?refreshStart, ?mapLock, fun f => ?hotForce⟩,
    fun d s hcrown href => ⟨fun h => ?tickEarly, fun h => ?windowEarly, fun h => ?tick, fun h => ?window⟩,
    fun d s hoff c hc => ?noRefresh, fun d v s hcrown hstate => ⟨?temp, ?noTemp⟩, fun d v s hcrown hup hstate => ?go,
    fun d data s hcrown hbusy => ?done⟩
  case enabled =>
    have h1 := getBits_put_other (s.reg (R.HBM_CTL d)) 0 (bit true) 1 (by decide) (by decide)
    refine ⟨_, (exec_hbmEn hcrown hup true).trans (congrArg _ (State.hbmCtlWrite_enables hoff hstate href hlanes hserve)), ?_, ?_, ?_⟩
    · exact State.rd_wr_eq _ _ _ rfl
    · refine (State.on_of_rd (State.rd_wr_off _ _ (hbmStatus_ne_ctl d).symm)).trans (beq_iff_eq.2 ?_)
      exact (s.hbmCtlSet_bit d _ (f := F.HBM_CTL_EN d) rfl (by decide : 0 < 4) rfl).trans (getBits_put_bit _ 0 true (by decide))
    · exact .wr (State.hbmCtlSet_only h1) (F.HBM_STATUS_STATE d) 2 (.tail _ (.head _))
  case enableRefused =>
    have hwrite := State.hbmCtlWrite_refused (State.hbmCtlCheck_enable_refused hoff hnot) (by decide)
    exact gives_refused ((exec_hbmEn hcrown hup true).trans (congrArg _ hwrite)) (.head _) (recReg_hbm (by decide)) (by decide)
  case disableRefused =>
    have hwrite := State.hbmCtlWrite_refused (State.hbmCtlCheck_disable_refused hon hready) (by decide)
    exact gives_refused ((exec_hbmEn hcrown hup false).trans (congrArg _ hwrite)) (.head _) (recReg_hbm (by decide)) (by decide)
  case refreshStart =>
    have hbit : ∀ f : Fld, f.reg = R.HBM_CTL d → f.width = 1 → f.lo < 4 → f.lo ≠ 1 →
        (s.hbmCtlSet d (putBits (s.reg (R.HBM_CTL d)) 1 1 (bit true))).rd f = s.rd f := by
      intro f hf hw hlo hne
      rw [s.hbmCtlSet_bit d _ hf hlo hw, getBits_put_other _ _ _ _ (by decide) hne, State.rd, hf, hw]
    have hset : (s.hbmCtlSet d (putBits (s.reg (R.HBM_CTL d)) 1 1 (bit true))).on (F.HBM_CTL_REFRESH d) = true := beq_iff_eq.2
      ((s.hbmCtlSet_bit d _ (f := F.HBM_CTL_REFRESH d) rfl (by decide : 1 < 4) rfl).trans (getBits_put_bit _ 1 true (by decide)))
    have hforce := State.on_of_rd (hbit (F.HBM_CTL_HOT_FORCE d) rfl rfl (by decide : 3 < 4) (by decide : 3 ≠ 1))
    have hv1 := getBits_put_bit (s.reg (R.HBM_CTL d)) 1 true (by decide)
    refine ⟨_, (exec_hbmRefreshStart hcrown hup).trans (congrArg _ (s.hbmCtlWrite_above d (b := true) (by decide) (by decide) fun _ => rfl)), hset,
      State.on_of_rd (hbit (F.HBM_CTL_EN d) rfl rfl (by decide : 0 < 4) (by decide : 0 ≠ 1)), ?_, fun hoff => (State.hbmCtlSet_starts hoff hv1).1, ?_⟩
    · change State.rd _ _ = _
      rw [State.hbmCtlSet_hot, hforce]
    · cases hon : s.on (F.HBM_CTL_REFRESH d) with
      | false => exact (State.hbmCtlSet_starts hon hv1).2
      | true =>
        have honly : Only [R.HBM_CTL d, R.HBM_STATUS d] s _ := State.hbmCtlSet_only (hv1.trans (beq_iff_eq.1 hon).symm)
        rw [honly.hbms]
        exact honly
  case mapLock =>
    have hbit := fun lo => getBits_put_other (s.reg (R.HBM_CTL d)) 2 (bit true) lo (by decide)
    refine ⟨_, (exec_hbmMapLock hcrown hup).trans (congrArg _ (s.hbmCtlWrite_above d (b := true) (by decide) (by decide) fun _ => rfl)), ?_, ?_,
      State.hbmCtlSet_only (hbit 1 (by decide))⟩
    · exact beq_iff_eq.2 ((s.hbmCtlSet_bit d _ (f := F.HBM_CTL_MAP_LOCK d) rfl (by decide : 2 < 4) rfl).trans (getBits_put_bit _ 2 true (by decide)))
    · exact State.on_of_rd ((s.hbmCtlSet_bit d _ (f := F.HBM_CTL_EN d) rfl (by decide : 0 < 4) rfl).trans (hbit 0 (by decide)))
  case hotForce =>
    have hforce : (s.hbmCtlSet d (putBits (s.reg (R.HBM_CTL d)) 3 1 (bit f))).on (F.HBM_CTL_HOT_FORCE d) = f := by
      have hrd := (s.hbmCtlSet_bit d _ (f := F.HBM_CTL_HOT_FORCE d) rfl (by decide : 3 < 4) rfl).trans
        (getBits_put_bit (s.reg (R.HBM_CTL d)) 3 f (by decide))
      rw [State.on, hrd]
      cases f <;> rfl
    refine ⟨_, (exec_hbmHotForce hcrown hup f).trans (congrArg _ (s.hbmCtlWrite_above d (by decide) (by decide) fun h => absurd h (by decide))), hforce, ?_,
      State.hbmCtlSet_only (getBits_put_other _ 3 _ 1 (by decide) (by decide))⟩
    change State.rd _ _ = _
    rw [State.hbmCtlSet_hot, hforce]
  case tickEarly => exact exec_hbmRefreshTick_early (.inr h)
  case windowEarly => exact exec_hbmRhWindow_early (.inr h)
  case tick =>
    obtain ⟨hrecord, honly⟩ := s.refreshTick_frame d
    obtain ⟨hrefs, hmit⟩ := s.refreshTick_counts d
    obtain ⟨hw, hi, hr, ha⟩ := HbmSt.serves_sameCourse ((s.hbmSt d).flags.map (·.1)) (s.windowOpened d)
    refine ⟨_, exec_hbmRefreshTick ⟨hcrown, href, h⟩, hrefs, ?_, ?_, ?_, ?_, s.refreshTick_hot d href, fun pc l hflags => ?_, honly⟩
    · rw [hrecord]
      exact hw
    · rw [hrecord]
      exact hi
    · rw [hrecord]
      exact hr
    · rw [hrecord]
      exact ha
    · obtain ⟨hflag, htable, hn⟩ := s.refreshTick_rows d pc l hflags
      exact ⟨hflag, htable, hn ▸ hmit⟩
  case window =>
    refine ⟨_, exec_hbmRhWindow ⟨hcrown, href, h⟩, fun pc e he => ?_, fun pc => ?_, rfl⟩
    · rw [s.rhWindow_table d pc] at he
      obtain ⟨e', -, rfl⟩ := List.mem_map.1 he
      rfl
    · rw [s.rhWindow_table d pc, List.map_map]
      rfl
  case noRefresh =>
    simp only [List.mem_cons, List.not_mem_nil, or_false] at hc
    rcases hc with rfl | rfl
    · exact exec_hbmRefreshTick_early (.inl hoff)
    · exact exec_hbmRhWindow_early (.inl hoff)
  case temp =>
    obtain ⟨hlo, hhi⟩ := signed_eight_range v.isLt
    obtain ⟨htemp, hmax⟩ := s.hbmTemp_reads d hlo hhi
    obtain ⟨hrecord, honly⟩ := s.hbmTemp_frame d (signed 8 v)
    refine ⟨_, exec_hbmTempRead hcrown v hstate, htemp, hmax, ?_, fun h => ?_, fun h => ?_, fun h h' => ?_, honly⟩
    · rw [hrecord]
    · rw [hrecord]
      exact (s.hbmSt d).after_hot h
    · rw [hrecord]
      exact (s.hbmSt d).after_cool h
    · rw [hrecord]
      exact (s.hbmSt d).after_warm h h'
  case noTemp => exact ⟨_, exec_hbmTempTimeout hcrown hstate, Only.of_setHbm (only_event [] _ _ _ _ _ _)⟩
  case go => exact ⟨_, exec_hbm1500Go hcrown v hup, s.hbm1500Go_reads d v hstate⟩
  case done =>
    refine ⟨_, exec_hbm1500Done hcrown data hbusy, ?_, fun w h16 hlen hbits => s.hbm1500End_shifted d data h16 hlen hbits,
      fun w _ hbits => s.hbm1500End_kept d data hbits, s.hbm1500End_only d data⟩
    rw [State.hbm1500End_eq]
    exact State.rd_wr_eq _ _ _ rfl

end Sys2Proof.Machine
end

section
/-!
PROOFS. A lane's control register (R394, R397 to R399, R403). A clause with DORMANT set on a lane under test reads the lane's stage
after it has gone back to DETECT: showing a lane's change, which may let a port send, moves no lane's stage.
-/
namespace Sys2Proof.Machine

/-! ## The stages of the lanes -/

def State.stages (s : State) (n : Fin 100) : Nat := s.laneStage n

/-- A register outside the windows of the lanes. -/
def OffLanes (r : Nat) : Prop := r < 0xA01000 ∨ 0xA05000 ≤ r

theorem laneStatus_window (n : Fin 100) : 0xA01000 ≤ R.LANE_n_STATUS n ∧ R.LANE_n_STATUS n < 0xA05000 := by
  simp only [R.LANE_n_STATUS, laneBase]
  split <;> omega

theorem State.stages_setReg (s : State) {r : Nat} (v : Word) (h : OffLanes r) : (s.setReg r v).stages = s.stages := by
  funext n
  refine s.rd_setReg_ne v fun e => ?_
  obtain ⟨hlo, hhi⟩ := laneStatus_window n
  simp only [F.LANE_n_STATUS_STAGE] at e
  simp only [OffLanes, ← e] at h
  omega

theorem State.stages_wr (s : State) {f : Fld} (v : Nat) (h : OffLanes f.reg) : (s.wr f v).stages = s.stages := s.stages_setReg _ h

theorem State.stages_inc (s : State) {f : Fld} (h : OffLanes f.reg) : (s.inc f).stages = s.stages := s.stages_wr _ h

theorem State.stages_foldl {α : Type} {f : State → α → State} (hf : ∀ s a, (f s a).stages = s.stages) (l : List α) (s : State) :
    (l.foldl f s).stages = s.stages := by
  induction l generalizing s with
  | nil => rfl
  | cons a l ih => exact (ih (f s a)).trans (hf s a)

theorem State.stages_ite {p : Prop} [Decidable p] {s a b : State} (ha : a.stages = s.stages) (hb : b.stages = s.stages) :
    (if p then a else b).stages = s.stages := by
  split
  · exact ha
  · exact hb

theorem State.stages_ite_fst {p : Prop} [Decidable p] {s : State} {a b : State × Bool} (ha : a.1.stages = s.stages) (hb : b.1.stages = s.stages) :
    (if p then a else b).1.stages = s.stages := by
  split
  · exact ha
  · exact hb

section
variable (s : State)

theorem State.stages_setClassQ (q : Nat) (x : ClassQ) (hq : q < 768) : (s.setClassQ q x).stages = s.stages := by
  refine (State.stages_wr _ _ (.inl ?_)).trans rfl
  simp only [F.WHL_Qq_DEPTH_BYTES, R.WHL_Qq_DEPTH]
  omega

/-- A frame that leaves: the port, the MAC's stamp and what has left are no registers. -/
theorem State.stages_sent (p : Nat) (f : Option EthFrame) (m : Msg) : (((s.setSending p f).stampTx p).send m).stages = s.stages := rfl

theorem State.stages_queueEntry (q : Nat) : (s.queueEntry q).stages = s.stages := by
  simp only [State.queueEntry]
  refine State.stages_ite ?_ ?_
  · exact (State.stages_wr _ _ (.inl (by decide))).trans rfl
  · exact (State.stages_wr _ _ (.inl (by decide))).trans rfl

theorem gateCount_offLanes {p : Nat} (hp : p < 96) : OffLanes (R.GATE_p_CNT p) := by
  simp only [OffLanes, R.GATE_p_CNT]
  omega

theorem State.stages_pickClass {p c : Nat} (hp : p < 96) (hc : c < 8) (n : Nat) : (s.pickClass p c n).1.stages = s.stages := by
  induction n generalizing s with
  | zero => rfl
  | succ n ih =>
    have hq : p * 8 + c < 768 := by omega
    have hput := fun x => s.stages_setClassQ (p * 8 + c) x hq
    simp only [State.pickClass]
    split
    · rfl
    · refine State.stages_ite_fst ?tooLong (State.stages_ite_fst rfl (State.stages_ite_fst (State.stages_ite rfl ?waits) (State.stages_ite ?shaped ?sends)))
      case tooLong => rw [ih, State.stages_inc _ (f := F.GATE_p_CNT_TOO_LONG p) (gateCount_offLanes hp), hput]
      case waits => rw [State.stages_inc _ (f := F.GATE_p_CNT_WAITS p) (gateCount_offLanes hp), hput]
      case shaped => rw [State.stages_queueEntry, State.stages_sent, hput]
      case sends => rw [State.stages_sent, hput]

theorem State.stages_pickFrom {p : Nat} (hp : p < 96) (c : Nat) (hc : c ≤ 8) : (s.pickFrom p c).stages = s.stages := by
  induction c generalizing s with
  | zero => rfl
  | succ c ih =>
    have hpick := s.stages_pickClass hp (c := c) (by omega) 4096
    simp only [State.pickFrom]
    split
    · next u h => rw [h] at hpick; exact hpick
    · next u h => rw [h] at hpick; exact (ih u (by omega)).trans hpick

theorem State.stages_portPick {p : Nat} (hp : p < 96) : (s.portPick p).stages = s.stages := State.stages_ite rfl (s.stages_pickFrom hp 8 (by decide))

theorem State.stages_showPort {m : Nat} (hm : m < 96) : (s.showPort m).stages = s.stages := by
  have hoff : OffLanes (R.LANE_ETHm_STATUS m) := by
    simp only [OffLanes, R.LANE_ETHm_STATUS]
    omega
  have hwrites := fun a b c => (State.stages_wr ((s.wr (F.LANE_ETHm_STATUS_UP m) a).wr (F.LANE_ETHm_STATUS_LOCAL_FAULT m) b) (f := F.LANE_ETHm_STATUS_FEC_LOCK m) c hoff).trans
    ((State.stages_wr _ _ hoff).trans (State.stages_wr _ _ hoff))
  simp only [State.showPort]
  exact State.stages_ite ((State.stages_portPick _ hm).trans (hwrites _ _ _)) (hwrites _ _ _)

theorem State.stages_sendCaps : s.sendCaps.stages = s.stages := State.stages_ite rfl rfl

theorem State.stages_showTwin : s.showTwin.stages = s.stages := by
  have hwrites := fun a b => (State.stages_wr (s.wr F.TWIN_STATUS_LANES a) (f := F.TWIN_STATUS_LINK) b (.inl (by decide))).trans (State.stages_wr _ _ (.inl (by decide)))
  simp only [State.showTwin]
  exact State.stages_ite ((State.stages_sendCaps _).trans (hwrites _ _)) (hwrites _ _)

/-- A field that stands above the stage in its register, whichever that is. -/
theorem State.stages_wr_above (v : Nat) {f : Fld} (hlo : 3 ≤ f.lo) (hhi : f.lo + f.width ≤ 32) :
    (s.wr f v).stages = s.stages :=
  funext fun _ => s.rd_wr_apart v hhi (.inr (.inr hlo))

theorem State.stages_showQuad (q : Nat) (hq : q < 25) : (s.showQuad q).stages = s.stages := by
  simp only [State.showQuad]
  refine (State.stages_foldl (fun u n => u.stages_wr_above _ (f := F.LANE_n_STATUS_PLL_OK n) (by decide : 3 ≤ 4) (by decide : 4 + 1 ≤ 32)) _ _).trans ?_
  refine (State.stages_setReg _ _ ?_).trans (State.stages_setReg _ _ ?_)
  · simp only [OffLanes, R.LANE_Qq_FREQ]
    omega
  · simp only [OffLanes, R.LANE_Qq_STATUS]
    omega

/-- R396: what a lane's change of state shows moves no lane's stage. -/
theorem State.stages_showLane (n : Fin 100) : (s.showLane n).stages = s.stages := by
  have hquad := s.stages_showQuad (n / 4) (by omega)
  simp only [State.showLane]
  refine State.stages_ite ((State.stages_showTwin _).trans hquad) ?_
  split
  next m h => exact (State.stages_showPort _ (List.mem_range.1 (List.mem_of_find?_eq_some h))).trans hquad
  next => exact hquad

theorem State.laneStage_setStage (n : Fin 100) {st : Nat} (cdr : Bool) (h : st < 8) : (s.setStage n st cdr).laneStage n = st := by
  have hshow := congrFun (((s.wr (F.LANE_n_STATUS_STAGE n) st).wr (F.LANE_n_STATUS_CDR_LOCK n) (bit cdr)).stages_showLane n) n
  refine hshow.trans ?_
  refine (State.rd_wr_beside _ _ rfl rfl).trans ((State.rd_wr_eq _ _ _ rfl).trans (Nat.mod_eq_of_lt h))

theorem State.laneStage_toDetect (n : Fin 100) : (s.toDetect n).laneStage n = 1 := State.laneStage_setStage _ n false (by decide)

end

end Sys2Proof.Machine
end

section
/-!
PROOFS. What a write of LANE_n_CTL does (R394, R397 to R399, R403), by the word that each of the commands writes.
-/
namespace Sys2Proof.Machine

/-! ## The words of LANE_n_CTL -/

/-- The one bit of a word that a mask of one bit leaves. -/
theorem and_bit_eq (w m : Word) (k : Nat) (hm : ∀ i : Fin 32, m.getLsbD i = decide (i.val = k)) : w &&& m = if w.getLsbD k then m else 0 := by
  apply BitVec.eq_of_getLsbD_eq
  intro i hi
  rw [BitVec.getLsbD_and, hm ⟨i, hi⟩]
  by_cases hik : i = k
  · subst hik
    cases hw : w.getLsbD i <;> simp [hm ⟨i, hi⟩]
  · cases hw : w.getLsbD k <;> simp [hik, hm ⟨i, hi⟩]

theorem and_one_eq (w : Word) : w &&& 1 = if w.getLsbD 0 then 1 else 0 := and_bit_eq w 1 0 (by decide)

theorem and_four_eq (w : Word) : w &&& 4 = if w.getLsbD 2 then 4 else 0 := and_bit_eq w 4 2 (by decide)

theorem and_five_eq (w : Word) : w &&& 5 = (if w.getLsbD 0 then 1 else 0) ||| (if w.getLsbD 2 then 4 else 0) := by
  rw [← and_one_eq, ← and_four_eq]
  change w &&& (1 ||| 4) = _
  exact BitVec.and_or_distrib_left

section
variable {s : State} {n : Fin 100}

theorem State.dormantBit (s : State) (n : Nat) : s.on (F.LANE_n_CTL_DORMANT n) = (s.reg (R.LANE_n_CTL n)).getLsbD 0 := by
  change (getBits (s.reg (R.LANE_n_CTL n)) 0 1 == 1) = _
  rw [getBits_one]
  cases (s.reg (R.LANE_n_CTL n)).getLsbD 0 <;> rfl

theorem State.testBit (s : State) (n : Nat) : s.on (F.LANE_n_CTL_TEST n) = (s.reg (R.LANE_n_CTL n)).getLsbD 2 := by
  change (getBits (s.reg (R.LANE_n_CTL n)) 2 1 == 1) = _
  rw [getBits_one]
  cases (s.reg (R.LANE_n_CTL n)).getLsbD 2 <;> rfl

/-- DORMANT and TEST of the register, as a word. -/
theorem State.ctl_and_five (s : State) (n : Nat) : s.reg (R.LANE_n_CTL n) &&& 5 =
    (if s.on (F.LANE_n_CTL_DORMANT n) then 1 else 0) ||| (if s.on (F.LANE_n_CTL_TEST n) then 4 else 0) := by
  rw [s.dormantBit n, s.testBit n, and_five_eq]

theorem State.ctl_and_four (s : State) (n : Nat) : s.reg (R.LANE_n_CTL n) &&& 4 = if s.on (F.LANE_n_CTL_TEST n) then 4 else 0 := by
  rw [s.testBit n, and_four_eq]

theorem State.ctl_and_one (s : State) (n : Nat) : s.reg (R.LANE_n_CTL n) &&& 1 = if s.on (F.LANE_n_CTL_DORMANT n) then 1 else 0 := by
  rw [s.dormantBit n, and_one_eq]

/-! ## The check and the write -/

/-- A word that asks for nothing that the lane's state or use forbids. -/
theorem State.laneCtlCheck_ok {v : Word} (hboth : ¬(getBits v 0 1 = 1 ∧ getBits v 2 1 = 1))
    (hstage : s.laneStage n = 6 → getBits v 1 1 = 0 ∧ getBits v 2 1 = 0)
    (hdorm : getBits v 0 1 = 1 → s.on (F.LANE_n_CTL_DORMANT n) = true)
    (htest : getBits v 2 1 = 1 → s.on (F.LANE_n_CTL_TEST n) = true ∨ s.laneInUse n = false) : s.laneCtlCheck n v = 0 := by
  have hfirst : ¬((getBits v 0 1 = 1 ∧ getBits v 2 1 = 1) ∨ (s.laneStage n = 6 ∧ (getBits v 1 1 = 1 ∨ getBits v 2 1 = 1))) := by
    rintro (h | ⟨h6, h⟩)
    · exact hboth h
    · obtain ⟨h1, h2⟩ := hstage h6
      omega
  have hsecond : ¬(((getBits v 0 1 = 1 ∧ (!s.on (F.LANE_n_CTL_DORMANT n)) = true) ∨ (getBits v 2 1 = 1 ∧ (!s.on (F.LANE_n_CTL_TEST n)) = true)) ∧
      s.laneInUse n = true) := by
    rintro ⟨⟨h0, hd⟩ | ⟨h2, ht⟩, huse⟩
    · rw [hdorm h0] at hd
      exact Bool.false_ne_true hd
    · rcases htest h2 with h | h
      · rw [h] at ht
        exact Bool.false_ne_true ht
      · rw [h] at huse
        exact Bool.false_ne_true huse
  exact (if_neg hfirst).trans (if_neg hsecond)

/-- TEST and DORMANT as the word has them act. -/
def State.laneCtlActed (s : State) (n : Nat) (v : Word) : State :=
  ((s.setReg (R.LANE_n_CTL n) (v &&& 5)).testAct n (getBits v 2 1 == 1) (s.on (F.LANE_n_CTL_TEST n))).dormantAct n (getBits v 0 1 == 1)
    (s.on (F.LANE_n_CTL_DORMANT n))

theorem State.laneCtlWrite_refused {v : Word} (h : s.laneCtlCheck n v ≠ 0) :
    s.laneCtlWrite n v = s.laneRefuse n (s.laneCtlCheck n v) (R.LANE_n_CTL n) := if_pos h

theorem State.laneCtlWrite_taken {v : Word} (h : s.laneCtlCheck n v = 0) : s.laneCtlWrite n v =
    let t := if getBits v 1 1 = 1 ∧ (s.laneCtlActed n v).laneStage n ≠ 0 ∧ (s.laneCtlActed n v).laneStage n ≠ 6 then
      ((s.laneCtlActed n v).inc (F.LANE_n_CNT_RESTARTS n)).toDetect n else s.laneCtlActed n v
    if getBits v 3 1 = 1 then t.snap n else t := by
  simp only [State.laneCtlWrite, h, ne_eq, not_true_eq_false, if_false]
  rfl

/-- A word without RESTART and SNAP. -/
theorem State.laneCtlWrite_acted {v : Word} (h : s.laneCtlCheck n v = 0) (h1 : getBits v 1 1 = 0) (h3 : getBits v 3 1 = 0) :
    s.laneCtlWrite n v = s.laneCtlActed n v := by
  have hrestart : ¬(getBits v 1 1 = 1 ∧ (s.laneCtlActed n v).laneStage n ≠ 0 ∧ (s.laneCtlActed n v).laneStage n ≠ 6) := fun hr => by omega
  have hsnap : ¬getBits v 3 1 = 1 := by omega
  rw [State.laneCtlWrite_taken h, if_neg hrestart, if_neg hsnap]

/-- The word of the control register is not the lane's stage. -/
theorem State.laneStage_ctl (s : State) (n : Nat) (v : Word) : (s.setReg (R.LANE_n_CTL n) v).laneStage n = s.laneStage n := by
  refine s.rd_setReg_ne v ?_
  simp only [F.LANE_n_STATUS_STAGE, R.LANE_n_STATUS, R.LANE_n_CTL]
  omega

/-! ### TEST and DORMANT as written -/

theorem State.testAct_unchanged {set was : Bool} (h : set = was) : s.testAct n set was = s := by
  subst h
  cases set <;> rfl

theorem State.testAct_set (h0 : s.laneStage n ≠ 0) (h6 : s.laneStage n ≠ 6) : s.testAct n true false = (s.setStage n 7 false).injectNow n :=
  if_pos ⟨rfl, rfl, h0, h6⟩

theorem State.testAct_cleared (h : s.laneStage n = 7) : s.testAct n false true = s.toDetect n :=
  (if_neg (by simp)).trans (if_pos ⟨rfl, rfl, h⟩)

theorem State.testAct_cleared_elsewhere (h : s.laneStage n ≠ 7) : s.testAct n false true = s :=
  (if_neg (by simp)).trans (if_neg fun hc => h hc.2.2)

theorem State.dormantAct_set (was : Bool) (h : s.laneStage n ≠ 0) : s.dormantAct n true was =
    ((s.wr (F.LANE_n_STATUS_EXITING n) 0).wr (F.LANE_n_STATUS_CHK_LOCK n) 0).setStage n 6 false := (if_pos rfl).trans (if_neg h)

theorem State.dormantAct_set_off (was : Bool) (h : s.laneStage n = 0) : s.dormantAct n true was = s := (if_pos rfl).trans (if_pos h)

theorem State.dormantAct_cleared (h : s.laneStage n = 6) : s.dormantAct n false true = (s.wr (F.LANE_n_STATUS_EXITING n) 1).showLane n :=
  (if_neg Bool.false_ne_true).trans (if_pos ⟨rfl, h⟩)

theorem State.dormantAct_none : s.dormantAct n false false = s := rfl

end

/-! ## The commands -/

theorem exec_laneDormantSet (n : Fin 100) (s : State) : exec (.laneDormantSet n) s = .next (s.laneCtlWrite n 1) := rfl

theorem exec_laneDormantClear (n : Fin 100) (s : State) : exec (.laneDormantClear n) s = .next (s.laneCtlWrite n (s.reg (R.LANE_n_CTL n) &&& 4)) := rfl

theorem exec_laneRestart (n : Fin 100) (s : State) : exec (.laneRestart n) s = .next (s.laneCtlWrite n (s.reg (R.LANE_n_CTL n) &&& 5 ||| 2)) := rfl

theorem exec_laneTestSet (n : Fin 100) (s : State) : exec (.laneTestSet n) s = .next (s.laneCtlWrite n (s.reg (R.LANE_n_CTL n) &&& 5 ||| 4)) := rfl

theorem exec_laneTestClear (n : Fin 100) (s : State) : exec (.laneTestClear n) s = .next (s.laneCtlWrite n (s.reg (R.LANE_n_CTL n) &&& 1)) := rfl

theorem exec_laneSnap (n : Fin 100) (bits errs : Nat) (s : State) :
    exec (.laneSnap n bits errs) s = .next ((s.chkCount n bits errs).laneCtlWrite n (s.reg (R.LANE_n_CTL n) &&& 5 ||| 8)) := rfl

theorem exec_laneDormantExitDone (n : Fin 100) (s : State) :
    exec (.laneDormantExitDone n) s = .next (s.when (s.on (F.LANE_n_STATUS_EXITING n)) fun s => s.exitDone n) := rfl

theorem laneStatus_not_recorder (n : Fin 100) : recReg (R.LANE_n_STATUS n) = false := by
  obtain ⟨-, hhi⟩ := laneStatus_window n
  exact recReg_of_lt (by omega)

/-- A control word that is refused leaves its code in the lane's STATUS and in LANE_STATUS. -/
theorem gives_laneRefused {c : Instr} {s : State} {n : Fin 100} {v : Word} (hexec : exec c s = .next (s.laneCtlWrite n v))
    (h : s.laneCtlCheck n v ≠ 0) : Gives c s fun t =>
      t.rd (F.LANE_n_STATUS_REASON n) = s.laneCtlCheck n v ∧ t.rd F.LANE_STATUS_REASON = s.laneCtlCheck n v ∧
        Only [R.LANE_n_STATUS n, R.LANE_STATUS] s t := by
  have hcode : s.laneCtlCheck n v < 2 ^ 16 := by
    simp only [State.laneCtlCheck]
    split
    · decide
    · split <;> decide
  refine ⟨_, hexec.trans (congrArg _ (State.laneCtlWrite_refused h)), ?_, ?_, only_refuse s _ _ _ _⟩
  · exact (s.rd_refuse_mem _ _ _ (.head _) (laneStatus_not_recorder n)).trans (Nat.mod_eq_of_lt hcode)
  · exact (s.rd_refuse_mem _ _ _ (.tail _ (.head _)) (by decide)).trans (Nat.mod_eq_of_lt hcode)

/-! ## SNAP (R399) -/

theorem State.chkCount_frame (s : State) (n bits errs : Nat) : s.chkCount n bits errs = { s with lanes := (s.chkCount n bits errs).lanes } := by
  simp only [State.chkCount]
  split <;> rfl

theorem State.reg_chkCount (s : State) (n bits errs a : Nat) : (s.chkCount n bits errs).reg a = s.reg a := by
  rw [State.chkCount_frame]
  rfl

theorem State.rd_chkCount (s : State) (n bits errs : Nat) (f : Fld) : (s.chkCount n bits errs).rd f = s.rd f :=
  congrArg (getBits · f.lo f.width) (s.reg_chkCount n bits errs f.reg)

theorem State.on_chkCount (s : State) (n bits errs : Nat) (f : Fld) : (s.chkCount n bits errs).on f = s.on f :=
  State.on_of_rd (s.rd_chkCount n bits errs f)

theorem State.lane_setLane_ne (s : State) {m n : Nat} (x : LaneSt) (h : m ≠ n) : (s.setLane n x).lane m = s.lane m := mapGet_set_ne _ s.lanes x h

theorem State.chkCount_lane_ne (s : State) {m n : Nat} (bits errs : Nat) (h : m ≠ n) : (s.chkCount n bits errs).lane m = s.lane m := by
  simp only [State.chkCount]
  split
  · exact s.lane_setLane_ne _ h
  · rfl

theorem State.chkCount_lane (s : State) (n bits errs : Nat) : (s.chkCount n bits errs).lane n =
    if s.on (F.LANE_n_STATUS_CHK_LOCK n) then
      { s.lane n with bits := min (2 ^ 48 - 1) ((s.lane n).bits + bits), errs := min (2 ^ 48 - 1) ((s.lane n).errs + errs) } else s.lane n := by
  simp only [State.chkCount]
  split
  · exact s.lane_setLane_same _ _
  · rfl

theorem State.lane_of_lanes {s t : State} (h : t.lanes = s.lanes) (n : Nat) : t.lane n = s.lane n := congrArg (mapGet _ · n) h

/-- A word with RESTART or SNAP alone that leaves DORMANT and TEST as they are. -/
theorem State.laneCtl_kept {s : State} {n : Fin 100} {m : Word} (hm : m = 2 ∨ m = 8) (hdorm : s.on (F.LANE_n_CTL_DORMANT n) = false)
    (hstage : s.laneStage n ≠ 6) :
    s.laneCtlCheck n (s.reg (R.LANE_n_CTL n) &&& 5 ||| m) = 0 ∧
      s.laneCtlActed n (s.reg (R.LANE_n_CTL n) &&& 5 ||| m) = s.setReg (R.LANE_n_CTL n) (s.reg (R.LANE_n_CTL n) &&& 5) ∧
      getBits (s.reg (R.LANE_n_CTL n) &&& 5 ||| m) 1 1 = getBits m 1 1 ∧ getBits (s.reg (R.LANE_n_CTL n) &&& 5 ||| m) 3 1 = getBits m 3 1 := by
  have hword : s.reg (R.LANE_n_CTL n) &&& 5 = if s.on (F.LANE_n_CTL_TEST n) then 4 else 0 := by
    rw [s.ctl_and_five n, hdorm]
    cases s.on (F.LANE_n_CTL_TEST n) <;> rfl
  have hbits : getBits (s.reg (R.LANE_n_CTL n) &&& 5 ||| m) 0 1 = 0 ∧ getBits (s.reg (R.LANE_n_CTL n) &&& 5 ||| m) 1 1 = getBits m 1 1 ∧
      getBits (s.reg (R.LANE_n_CTL n) &&& 5 ||| m) 2 1 = bit (s.on (F.LANE_n_CTL_TEST n)) ∧
      getBits (s.reg (R.LANE_n_CTL n) &&& 5 ||| m) 3 1 = getBits m 3 1 ∧ (s.reg (R.LANE_n_CTL n) &&& 5 ||| m) &&& 5 = s.reg (R.LANE_n_CTL n) &&& 5 := by
    rw [hword]
    rcases hm with rfl | rfl <;> cases s.on (F.LANE_n_CTL_TEST n) <;> decide
  obtain ⟨h0, h1, h2, h3, h5⟩ := hbits
  have hsame : (bit (s.on (F.LANE_n_CTL_TEST n)) == 1) = s.on (F.LANE_n_CTL_TEST n) := by cases s.on (F.LANE_n_CTL_TEST n) <;> rfl
  refine ⟨?_, ?_, h1, h3⟩
  · refine State.laneCtlCheck_ok (fun h => by omega) (fun h => absurd h hstage) (fun h => by omega) fun h => .inl ?_
    rw [h2] at h
    rw [← hsame]
    exact beq_iff_eq.2 h
  · rw [State.laneCtlActed, h5, h2, h0, hdorm, State.testAct_unchanged hsame]
    rfl

/-- R399: a word with SNAP. -/
theorem State.laneCtlWrite_snap {s : State} {n : Fin 100} (hdorm : s.on (F.LANE_n_CTL_DORMANT n) = false) (hstage : s.laneStage n ≠ 6) :
    s.laneCtlWrite n (s.reg (R.LANE_n_CTL n) &&& 5 ||| 8) = (s.setReg (R.LANE_n_CTL n) (s.reg (R.LANE_n_CTL n) &&& 5)).snap n := by
  obtain ⟨hcheck, hacted, h1, h3⟩ := State.laneCtl_kept (.inr rfl) hdorm hstage
  have hrestart : ¬(getBits (s.reg (R.LANE_n_CTL n) &&& 5 ||| 8) 1 1 = 1 ∧
      (s.setReg (R.LANE_n_CTL n) (s.reg (R.LANE_n_CTL n) &&& 5)).laneStage n ≠ 0 ∧
      (s.setReg (R.LANE_n_CTL n) (s.reg (R.LANE_n_CTL n) &&& 5)).laneStage n ≠ 6) := fun h => absurd (h1.symm.trans h.1) (by decide)
  rw [State.laneCtlWrite_taken hcheck, hacted, if_pos (h3.trans (by decide)), if_neg hrestart]

/-- R394: a word with RESTART. -/
theorem State.laneCtlWrite_restart {s : State} {n : Fin 100} (hdorm : s.on (F.LANE_n_CTL_DORMANT n) = false) (hstage : s.laneStage n ≠ 6) :
    s.laneCtlWrite n (s.reg (R.LANE_n_CTL n) &&& 5 ||| 2) =
      if s.laneStage n ≠ 0 then ((s.setReg (R.LANE_n_CTL n) (s.reg (R.LANE_n_CTL n) &&& 5)).inc (F.LANE_n_CNT_RESTARTS n)).toDetect n
      else s.setReg (R.LANE_n_CTL n) (s.reg (R.LANE_n_CTL n) &&& 5) := by
  obtain ⟨hcheck, hacted, h1, h3⟩ := State.laneCtl_kept (.inl rfl) hdorm hstage
  have hsnap : ¬getBits (s.reg (R.LANE_n_CTL n) &&& 5 ||| 2) 3 1 = 1 := fun h => absurd (h3.symm.trans h) (by decide)
  rw [State.laneCtlWrite_taken hcheck, hacted, if_neg hsnap, State.laneStage_ctl]
  by_cases h0 : s.laneStage n = 0
  · rw [if_neg fun h => h.2.1 h0, if_neg (not_not_intro h0)]
  · rw [if_pos ⟨h1.trans (by decide), h0, hstage⟩, if_pos h0]

/-- The word that clears both bits. -/
theorem State.laneCtlActed_zero (s : State) (n : Nat) : s.laneCtlActed n 0 =
    ((s.setReg (R.LANE_n_CTL n) 0).testAct n false (s.on (F.LANE_n_CTL_TEST n))).dormantAct n false (s.on (F.LANE_n_CTL_DORMANT n)) := by
  have h0 : (getBits 0 0 1 == 1) = false := by decide
  have h2 : (getBits 0 2 1 == 1) = false := by decide
  have h5 : (0 : Word) &&& 5 = 0 := by decide
  rw [State.laneCtlActed, h0, h2, h5]

/-- R394: a word that clears TEST. -/
theorem State.laneTestClear_acted {s : State} {n : Fin 100} (hdorm : s.on (F.LANE_n_CTL_DORMANT n) = false)
    (htest : s.on (F.LANE_n_CTL_TEST n) = true) :
    s.laneCtlWrite n (s.reg (R.LANE_n_CTL n) &&& 1) = (s.setReg (R.LANE_n_CTL n) 0).testAct n false true := by
  have hword : s.reg (R.LANE_n_CTL n) &&& 1 = 0 := by
    rw [s.ctl_and_one n, hdorm]
    rfl
  have hok : s.laneCtlCheck n 0 = 0 := State.laneCtlCheck_ok (by decide) (fun _ => by decide) (fun h => absurd h (by decide)) fun h => absurd h (by decide)
  rw [hword, State.laneCtlWrite_acted hok (by decide) (by decide), State.laneCtlActed_zero, htest, hdorm, State.dormantAct_none]

/-- The counters stand beside the control register. -/
theorem State.snap_ctl (s : State) (n : Fin 100) : (s.snap n).reg (R.LANE_n_CTL n) = s.reg (R.LANE_n_CTL n) := by
  have hne : ∀ i, 4 ≠ i → laneBase n + 4 ≠ laneBase n + i := fun i h e => h (Nat.add_left_cancel e)
  simp only [State.snap]
  rw [State.reg_wr_ne _ _ _ (hne 0x34 (by decide)), State.reg_wr_ne _ _ _ (hne 0x30 (by decide)), State.reg_wr_ne _ _ _ (hne 0x2C (by decide)),
    State.reg_wr_ne _ _ _ (hne 0x28 (by decide))]

/-- What a snapshot shows of the counters. -/
theorem State.snap_reads (s : State) (n : Fin 100) :
    (s.snap n).rd (F.LANE_n_ERR_LO_ERR n) = (s.lane n).errs % 2 ^ 32 ∧ (s.snap n).rd (F.LANE_n_ERR_HI_ERR n) = (s.lane n).errs / 2 ^ 32 % 2 ^ 16 ∧
      (s.snap n).rd (F.LANE_n_BITS_LO_BITS n) = (s.lane n).bits % 2 ^ 32 ∧ (s.snap n).rd (F.LANE_n_BITS_HI_BITS n) = (s.lane n).bits / 2 ^ 32 % 2 ^ 16 := by
  have hne : ∀ i j, i ≠ j → laneBase n + i ≠ laneBase n + j := fun i j h e => h (Nat.add_left_cancel e)
  refine ⟨?_, ?_, ?_, ?_⟩
  · refine (State.rd_wr_off _ _ (hne 0x28 0x34 (by decide))).trans ((State.rd_wr_off _ _ (hne 0x28 0x30 (by decide))).trans ?_)
    exact (State.rd_wr_off _ _ (hne 0x28 0x2C (by decide))).trans (State.rd_wr_eq _ _ _ rfl)
  · refine (State.rd_wr_off _ _ (hne 0x2C 0x34 (by decide))).trans ((State.rd_wr_off _ _ (hne 0x2C 0x30 (by decide))).trans ?_)
    exact State.rd_wr_eq _ _ _ rfl
  · exact (State.rd_wr_off _ _ (hne 0x30 0x34 (by decide))).trans (State.rd_wr_eq _ _ _ rfl)
  · exact State.rd_wr_eq _ _ _ rfl

theorem State.snap_only (s : State) (n : Nat) :
    Only [R.LANE_n_ERR_LO n, R.LANE_n_ERR_HI n, R.LANE_n_BITS_LO n, R.LANE_n_BITS_HI n] s (s.snap n) := by
  simp only [State.snap]
  exact .wr (.wr (.wr (.wr (.refl _ s) (F.LANE_n_ERR_LO_ERR n) _ (.head _)) (F.LANE_n_ERR_HI_ERR n) _ (.tail _ (.head _)))
    (F.LANE_n_BITS_LO_BITS n) _ (.tail _ (.tail _ (.head _)))) (F.LANE_n_BITS_HI_BITS n) _ (.tail _ (.tail _ (.tail _ (.head _))))

/-! ## O51 -/

/-- Settles O51: each command by the bits of the word that it writes, with what TEST and DORMANT then do. -/
theorem laneControl : Obligations.LaneControl := by
  refine ⟨fun n s c hc hbad => ?refused,
    fun n s => ⟨fun hok htest hst => ?dormant, fun hok htest hst => ?dormantOff, fun hok htest hst => ?dormantTest, fun hdorm htest hst => ?wakes,
      fun hdorm htest => ?awake, fun hex => ?exitDone, fun hno => ?noExit, fun hdorm h6 h0 => ?restart, fun hdorm h0 => ?restartOff,
      fun hdorm htest h6 h0 huse => ?testSet, fun hdorm htest h7 => ?testEnds, fun hdorm htest h7 => ?testElsewhere⟩,
    fun n bits errs s hdorm hstage => ?snap⟩
  case refused =>
    simp only [List.mem_cons, List.not_mem_nil, or_false] at hc
    rcases hc with rfl | rfl | rfl | rfl | rfl
    · exact gives_laneRefused (exec_laneDormantSet n s) hbad
    · exact gives_laneRefused (exec_laneDormantClear n s) hbad
    · exact gives_laneRefused (exec_laneRestart n s) hbad
    · exact gives_laneRefused (exec_laneTestSet n s) hbad
    · exact gives_laneRefused (exec_laneTestClear n s) hbad
  case dormant =>
    have hact : s.laneCtlActed n 1 = (s.setReg (R.LANE_n_CTL n) 1).dormantAct n true (s.on (F.LANE_n_CTL_DORMANT n)) := by
      rw [State.laneCtlActed, htest]
      rfl
    rw [exec_laneDormantSet, State.laneCtlWrite_acted hok (by decide) (by decide), hact, State.dormantAct_set _ (by rw [s.laneStage_ctl]; exact hst)]
  case dormantOff =>
    have hact : s.laneCtlActed n 1 = (s.setReg (R.LANE_n_CTL n) 1).dormantAct n true (s.on (F.LANE_n_CTL_DORMANT n)) := by
      rw [State.laneCtlActed, htest]
      rfl
    rw [exec_laneDormantSet, State.laneCtlWrite_acted hok (by decide) (by decide), hact, State.dormantAct_set_off _ (by rw [s.laneStage_ctl]; exact hst)]
  case dormantTest =>
    have hact : s.laneCtlActed n 1 = ((s.setReg (R.LANE_n_CTL n) 1).testAct n false true).dormantAct n true (s.on (F.LANE_n_CTL_DORMANT n)) := by
      rw [State.laneCtlActed, htest]
      rfl
    rw [exec_laneDormantSet, State.laneCtlWrite_acted hok (by decide) (by decide), hact, State.testAct_cleared (by rw [s.laneStage_ctl]; exact hst),
      State.dormantAct_set _ (by rw [State.laneStage_toDetect]; decide)]
  case wakes =>
    have hword : s.reg (R.LANE_n_CTL n) &&& 4 = 0 := by rw [s.ctl_and_four n, htest]; rfl
    have hok : s.laneCtlCheck n 0 = 0 := State.laneCtlCheck_ok (by decide) (fun _ => by decide) (fun h => absurd h (by decide)) fun h => absurd h (by decide)
    have hact : s.laneCtlActed n 0 = (s.setReg (R.LANE_n_CTL n) 0).dormantAct n false true := by
      rw [State.laneCtlActed, htest, hdorm]
      rfl
    rw [exec_laneDormantClear, hword, State.laneCtlWrite_acted hok (by decide) (by decide), hact, State.dormantAct_cleared (by rw [s.laneStage_ctl]; exact hst)]
  case awake =>
    have hword : s.reg (R.LANE_n_CTL n) &&& 4 = 0 := by rw [s.ctl_and_four n, htest]; rfl
    have hok : s.laneCtlCheck n 0 = 0 := State.laneCtlCheck_ok (by decide) (fun _ => by decide) (fun h => absurd h (by decide)) fun h => absurd h (by decide)
    rw [exec_laneDormantClear, hword, State.laneCtlWrite_acted hok (by decide) (by decide), State.laneCtlActed, htest, hdorm]
    rfl
  case exitDone => rw [exec_laneDormantExitDone, hex, State.when_true, State.exitDone]
  case noExit => rw [exec_laneDormantExitDone, hno, State.when_false]
  case restart =>
    rw [exec_laneRestart, State.laneCtlWrite_restart hdorm h6, if_pos h0]
  case restartOff => rw [exec_laneRestart, State.laneCtlWrite_restart hdorm (by omega), if_neg (not_not_intro h0)]
  case testSet =>
    have hword : s.reg (R.LANE_n_CTL n) &&& 5 ||| 4 = 4 := by
      rw [s.ctl_and_five n, hdorm, htest]
      rfl
    have hok : s.laneCtlCheck n 4 = 0 :=
      State.laneCtlCheck_ok (by decide) (fun h => absurd h h6) (fun h => absurd h (by decide)) fun _ => .inr huse
    have hact : s.laneCtlActed n 4 = (s.setReg (R.LANE_n_CTL n) 4).testAct n true false := by
      rw [State.laneCtlActed, htest, hdorm]
      rfl
    rw [exec_laneTestSet, hword, State.laneCtlWrite_acted hok (by decide) (by decide), hact,
      State.testAct_set (by rw [s.laneStage_ctl]; exact h0) (by rw [s.laneStage_ctl]; exact h6)]
  case testEnds => rw [exec_laneTestClear, State.laneTestClear_acted hdorm htest, State.testAct_cleared (by rw [s.laneStage_ctl]; exact h7)]
  case testElsewhere => rw [exec_laneTestClear, State.laneTestClear_acted hdorm htest, State.testAct_cleared_elsewhere (by rw [s.laneStage_ctl]; exact h7)]
  case snap =>
    have hdorm' : (s.chkCount n bits errs).on (F.LANE_n_CTL_DORMANT n) = false := (s.on_chkCount n bits errs _).trans hdorm
    have hstage' : (s.chkCount n bits errs).laneStage n ≠ 6 := by
      rw [State.laneStage, State.rd_chkCount]
      exact hstage
    have hwrite := State.laneCtlWrite_snap hdorm' hstage'
    rw [State.reg_chkCount] at hwrite
    have honly : Only [R.LANE_n_CTL n, R.LANE_n_ERR_LO n, R.LANE_n_ERR_HI n, R.LANE_n_BITS_LO n, R.LANE_n_BITS_HI n] (s.chkCount n bits errs)
        (((s.chkCount n bits errs).setReg (R.LANE_n_CTL n) (s.reg (R.LANE_n_CTL n) &&& 5)).snap n) :=
      Only.trans (.setReg (.refl _ _) _ _ (.head _)) ((State.snap_only _ n).mono (List.subset_cons_self _ _))
    obtain ⟨helo, hehi, hblo, hbhi⟩ := ((s.chkCount n bits errs).setReg (R.LANE_n_CTL n) (s.reg (R.LANE_n_CTL n) &&& 5)).snap_reads n
    have hlane : ((s.chkCount n bits errs).setReg (R.LANE_n_CTL n) (s.reg (R.LANE_n_CTL n) &&& 5)).lane n = (s.chkCount n bits errs).lane n :=
      State.lane_of_lanes (State.setReg_lanes _ _ _) n
    rw [hlane, s.chkCount_lane n bits errs] at helo hehi hblo hbhi
    refine ⟨_, (exec_laneSnap n bits errs s).trans (congrArg _ hwrite), ?_, fun m hm => ?_, helo, hehi, hblo, hbhi, ?_, ?_⟩
    · rw [State.lane_of_lanes honly.lanes, s.chkCount_lane]
    · rw [State.lane_of_lanes honly.lanes, s.chkCount_lane_ne bits errs hm]
    · rw [State.testBit, State.testBit, State.snap_ctl, State.reg_setReg_same, BitVec.getLsbD_and]
      exact Bool.and_true _
    · rw [honly.lanes, ← State.chkCount_frame]
      exact honly

end Sys2Proof.Machine
end

section
/-!
PROOFS. A lane's bring-up by stages, its timeouts, error injection and the checkers (R394, R395, R399, R400, R402, R405).
-/
namespace Sys2Proof.Machine

/-! ## Which stages apply to a lane (R395) -/

section
variable {s : State} {n : Fin 100}

/-- Ethernet ports stand above the lanes' windows. -/
theorem State.rd_port_wr (s : State) (n : Fin 100) (m : Nat) {f g : Fld} (hf : f.reg = R.LANE_n_STATUS n) (hg : g.reg = R.LANE_ETHm_CFG m) (v : Nat) :
    (s.wr f v).rd g = s.rd g := by
  obtain ⟨-, hhi⟩ := laneStatus_window n
  refine State.rd_wr_off _ _ ?_
  rw [hf, hg]
  simp only [R.LANE_ETHm_CFG]
  omega

/-- The STATUS of a lane says nothing of which port the lane belongs to. -/
theorem State.portOf_wr_status (s : State) (n : Fin 100) {f : Fld} (hf : f.reg = R.LANE_n_STATUS n) (v : Nat) : (s.wr f v).portOf n = s.portOf n := by
  simp only [State.portOf, State.portOn, State.portWidth, State.on, s.rd_port_wr n _ (g := F.LANE_ETHm_CFG_EN _) hf rfl v,
    s.rd_port_wr n _ (g := F.LANE_ETHm_CFG_WIDTH _) hf rfl v]
  rfl

theorem State.laneAn_wr_status (s : State) (n : Fin 100) {f : Fld} (hf : f.reg = R.LANE_n_STATUS n) (v : Nat) : (s.wr f v).laneAn n = s.laneAn n := by
  have hmode : (s.wr f v).laneMode n = s.laneMode n := by
    refine State.rd_wr_off _ _ ?_
    rw [hf]
    simp only [F.LANE_n_CFG_MODE, R.LANE_n_CFG, R.LANE_n_STATUS]
    omega
  simp only [State.laneAn, hmode, s.portOf_wr_status n hf v, State.on, s.rd_port_wr n _ (g := F.LANE_ETHm_CFG_AN _) hf rfl v]

theorem State.laneAn_setLane (s : State) (m n : Nat) (x : LaneSt) : (s.setLane m x).laneAn n = s.laneAn n := rfl

/-! ## Stages (R394) -/

theorem exec_laneDetectProbe (n : Fin 100) (present : Bool) (s : State) :
    exec (.laneDetectProbe n present) s = .next (s.when (s.laneStage n == 1 && s.laneProbes n) fun s => s.probe n present) := rfl

theorem exec_laneStageDone (n : Fin 100) (eq : Word) (same : Bool) (unit : Nat) (s : State) :
    exec (.laneStageDone n eq same unit) s = .next (s.stageDone n eq same unit) := rfl

theorem exec_laneStageTimeout (n : Fin 100) (s : State) :
    exec (.laneStageTimeout n) s = .next (s.when (decide (2 ≤ s.laneStage n ∧ s.laneStage n ≤ 4)) fun s => s.stageTimeout n) := rfl

theorem exec_laneLockLost (n : Fin 100) (s : State) :
    exec (.laneLockLost n) s = .next (s.when (s.laneStage n == 5) fun s => s.lockLost n) := rfl

theorem exec_laneDetectProbe_runs (present : Bool) (hst : s.laneStage n = 1) (hpr : s.laneProbes n = true) :
    exec (.laneDetectProbe n present) s = .next (s.probe n present) := by
  rw [exec_laneDetectProbe, hst, hpr, beq_self_eq_true, Bool.and_true, State.when_true]

theorem State.probe_absent (s : State) (n : Nat) : s.probe n false = s.wr (F.LANE_n_STATUS_RX_PRESENT n) 0 := rfl

theorem State.probe_present (s : State) (n : Fin 100) :
    s.probe n true = (s.wr (F.LANE_n_STATUS_RX_PRESENT n) 1).setStage n (if s.laneAn n then 4 else 2) false := by
  have hbit : bit true = 1 := rfl
  rw [State.probe, hbit, if_pos rfl, State.detected, s.laneAn_wr_status n (f := F.LANE_n_STATUS_RX_PRESENT n) rfl 1]

section
variable (eq : Word) (same : Bool) (unit : Nat)

theorem State.stageDone_detect (hst : s.laneStage n = 1) (hpr : s.laneProbes n = false) : s.stageDone n eq same unit = s.detected n := by
  simp only [State.stageDone, hst, hpr, Bool.false_eq_true, if_false]

theorem State.stageDone_train (hst : s.laneStage n = 2) : s.stageDone n eq same unit =
    (s.setReg (R.LANE_n_EQ n) ((if s.laneTrains n then eq else s.reg (R.LANE_n_TXEQ n)) &&& 0x3F3F3F)).setStage n 3 false := by
  simp only [State.stageDone, hst]

theorem State.stageDone_lock (hst : s.laneStage n = 3) : s.stageDone n eq same unit =
    if (s.laneAn n = true ∨ 96 ≤ n.val) ∧ (s.lane n).exch = false then s.setStage n 4 true else s.toActive n := by
  simp only [State.stageDone, hst, Bool.not_eq_true']

theorem State.stageDone_exchange (hst : s.laneStage n = 4) : s.stageDone n eq same unit =
    if s.twinPeerBad n same unit = true then s.wr (F.LANE_n_STATUS_REASON n) 0x900C
    else if s.laneAn n = true then (s.setLane n { s.lane n with exch := true }).setStage n 2 false
    else (s.setLane n { s.lane n with exch := true }).toActive n := by
  simp only [State.stageDone, hst, State.laneAn_setLane]
  rfl

end

theorem State.stageTimeout_eq (s : State) (n : Nat) (h : (s.lane n).fails + 1 ≠ 3) : s.stageTimeout n =
    ((s.setLane n { s.lane n with fails := (s.lane n).fails + 1 }).inc (F.LANE_n_CNT_RESTARTS n)).toDetect n := by
  simp only [State.stageTimeout, if_neg h]

/-- The third timeout in a row is recorded. -/
theorem State.stageTimeout_third (s : State) (n : Nat) (h : (s.lane n).fails + 1 = 3) : s.stageTimeout n =
    (((s.setLane n { s.lane n with fails := 0 }).inc (F.LANE_n_CNT_RESTARTS n)).event (lanePath n) 0x9C01 0xFFFF n (s.laneStage n)).toDetect n := by
  simp only [State.stageTimeout, if_pos h]

end

/-! ## Frames over the lanes' records -/

theorem Only.withLanes {as : List Nat} {s t : State} (h : Only as s t) (l : List (Nat × LaneSt)) :
    Only as { s with lanes := l } { t with lanes := l } := ⟨h.1, by rw [OnlyRegs, h.2]⟩

theorem Only.setLane {as : List Nat} {s t : State} {l : List (Nat × LaneSt)} (h : Only as { s with lanes := l } t) (n : Nat) (x : LaneSt) :
    Only as { s with lanes := (t.setLane n x).lanes } (t.setLane n x) := h.withLanes _

theorem State.rd_setLane (s : State) (n : Nat) (x : LaneSt) (f : Fld) : (s.setLane n x).rd f = s.rd f := rfl

/-! ## Error injection (R400) -/

/-- The word and the start of the count of a setting that is taken. -/
def State.injectSet (s : State) (n : Nat) (v : Word) : State :=
  (s.setReg (R.LANE_n_INJ n) (v &&& 0x3F7)).setLane n { s.lane n with since := 0 }

theorem exec_laneInject_lane {n : Fin 108} (v : Word) (s : State) (hn : n.val < 100) : exec (.laneInject n v) s = .next (s.laneInjWrite n v) :=
  congrArg Host.Outcome.next (if_pos hn)

theorem exec_laneInject_module {n : Fin 108} (v : Word) {s : State} (hn : 100 ≤ n.val) (hcrown : s.hasCrown (n - 100) = true) :
    exec (.laneInject n v) s = .next (s.uciPatWrite (n - 100) v) := by
  refine congrArg Host.Outcome.next ((if_neg (Nat.not_lt.2 hn)).trans ?_)
  rw [hcrown, State.when_true]

section
variable {s : State} {n : Nat} {v : Word}

theorem State.laneInjWrite_bad (h : injBad n (getBits v 0 2) (getBits v 2 1 == 1) (getBits v 4 6) = true) :
    s.laneInjWrite n v = s.laneRefuse n 0x9007 (R.LANE_n_INJ n) := if_pos h

theorem State.laneInjWrite_good (h : injBad n (getBits v 0 2) (getBits v 2 1 == 1) (getBits v 4 6) = false) :
    s.laneInjWrite n v = (s.injectSet n v).injectNow n := if_neg (by rw [h]; exact Bool.false_ne_true)

/-- The register holds the word's MODE. -/
theorem State.injectSet_mode (s : State) (hn : n < 100) (v : Word) : (s.injectSet n v).rd (injModeOf n) = getBits v 0 2 := by
  have hmask : ∀ i < 2, (0x3F7 : Word).getLsbD (0 + i) = true := by decide
  have hfield : injModeOf n = F.LANE_n_INJ_MODE n := if_pos hn
  have hword : (s.injectSet n v).reg (R.LANE_n_INJ n) = v &&& 0x3F7 := s.reg_setReg_same _ _
  rw [hfield]
  change getBits ((s.injectSet n v).reg (R.LANE_n_INJ n)) 0 2 = _
  rw [hword]
  refine getBits_congr fun i hi => ?_
  rw [BitVec.getLsbD_and, hmask i hi, Bool.and_true]

theorem State.injectNow_later (h : s.rd (injModeOf n) ≠ 1) : s.injectNow n = s := if_neg fun hc => h hc.1

theorem State.injectSet_frame (s : State) (n : Nat) (v : Word) :
    (s.injectSet n v).lane n = { s.lane n with since := 0 } ∧ (∀ m, m ≠ n → (s.injectSet n v).lane m = s.lane m) ∧
      Only [R.LANE_n_INJ n] { s with lanes := (s.injectSet n v).lanes } (s.injectSet n v) := by
  have hlanes : (s.setReg (R.LANE_n_INJ n) (v &&& 0x3F7)).lanes = s.lanes := s.setReg_lanes _ _
  refine ⟨State.lane_setLane_same _ n _, fun m hm => ?_, ?_⟩
  · exact (State.lane_setLane_ne _ _ hm).trans (State.lane_of_lanes hlanes m)
  · exact (only_setReg s (R.LANE_n_INJ n) _).withLanes _

end

/-! ## Checkers (R399, R405) -/

theorem exec_checkerLock (n : Fin 108) (s : State) :
    exec (.checkerLock n) s = .next (s.when (s.chkRuns n && !s.chkLocked n) fun s => s.chkLock n) := rfl

theorem exec_checkerLockLost (n : Fin 108) (bits : Nat) (errs : List (Fin 64 × Nat)) (s : State) : exec (.checkerLockLost n bits errs) s =
    .next (s.when (s.chkRuns n && s.chkLocked n) fun s => s.chkLost n bits (errs.map fun (l, e) => (l.val, e))) := rfl

theorem laneStatus_ne_relock (n : Nat) : R.LANE_n_STATUS n ≠ R.LANE_n_RELOCK n := by
  simp only [R.LANE_n_STATUS, R.LANE_n_RELOCK]
  omega

section
variable {s : State} {n : Nat}

/-- A lane's checker locks: a relock is counted. -/
theorem State.chkLock_lane (hn : n < 100) : s.chkLock n =
    if (s.lane n).relock = true then
      ((s.wr (F.LANE_n_STATUS_CHK_LOCK n) 1).inc (F.LANE_n_RELOCK_RELOCKS n)).setLane n { s.lane n with relock := false }
    else s.wr (F.LANE_n_STATUS_CHK_LOCK n) 1 := by
  have hlane : (s.wr (F.LANE_n_STATUS_CHK_LOCK n) 1).lane n = s.lane n := State.lane_of_lanes (s.wr_lanes _ _) n
  simp only [State.chkLock, if_pos hn, hlane]

/-- What a lane's checker shows of its lock. -/
theorem State.chkLock_reads (hn : n < 100) :
    (s.chkLock n).rd (F.LANE_n_STATUS_CHK_LOCK n) = 1 ∧
      (s.chkLock n).rd (F.LANE_n_RELOCK_RELOCKS n) = min (s.rd (F.LANE_n_RELOCK_RELOCKS n) + bit (s.lane n).relock) (2 ^ 16 - 1) ∧
      (s.chkLock n).lane n = { s.lane n with relock := false } ∧
      Only [R.LANE_n_STATUS n, R.LANE_n_RELOCK n] { s with lanes := (s.chkLock n).lanes } (s.chkLock n) := by
  have hlock : (s.wr (F.LANE_n_STATUS_CHK_LOCK n) 1).rd (F.LANE_n_STATUS_CHK_LOCK n) = 1 := State.rd_wr_eq _ _ _ rfl
  have hcount : (s.wr (F.LANE_n_STATUS_CHK_LOCK n) 1).rd (F.LANE_n_RELOCK_RELOCKS n) = s.rd (F.LANE_n_RELOCK_RELOCKS n) :=
    State.rd_wr_off _ _ (laneStatus_ne_relock n).symm
  have honly : Only [R.LANE_n_STATUS n, R.LANE_n_RELOCK n] s (s.wr (F.LANE_n_STATUS_CHK_LOCK n) 1) := .wr (.refl _ s) _ _ (.head _)
  rw [State.chkLock_lane hn]
  cases hre : (s.lane n).relock with
  | true =>
    rw [if_pos rfl]
    refine ⟨?_, ?_, State.lane_setLane_same _ n _, (Only.inc honly (F.LANE_n_RELOCK_RELOCKS n) (.tail _ (.head _))).withLanes _⟩
    · rw [State.rd_setLane]
      exact (State.rd_wr_off _ _ (laneStatus_ne_relock n)).trans hlock
    · rw [State.rd_setLane, ← hcount]
      exact State.rd_inc_eq _ _ rfl
  | false =>
    rw [if_neg Bool.false_ne_true]
    refine ⟨hlock, ?_, ?_, ?_⟩
    · have hlt : s.rd (F.LANE_n_RELOCK_RELOCKS n) < 2 ^ 16 := s.rd_lt (F.LANE_n_RELOCK_RELOCKS n)
      rw [hcount, show bit false = 0 from rfl]
      omega
    · rw [State.lane_of_lanes (s.wr_lanes _ _) n, ← hre]
    · rw [honly.lanes]
      exact honly

/-- A lane's checker that loses lock takes up what it has counted. -/
theorem State.chkLost_lane (hn : n < 100) (bits : Nat) (errs : List (Nat × Nat)) : s.chkLost n bits errs =
    ((s.chkCount n bits (errs.map (·.2)).sum).setLane n { (s.chkCount n bits (errs.map (·.2)).sum).lane n with relock := true }).wr
      (F.LANE_n_STATUS_CHK_LOCK n) 0 := by
  simp only [State.chkLost, if_pos hn]

theorem State.chkLost_reads (hn : n < 100) (hlock : s.on (F.LANE_n_STATUS_CHK_LOCK n) = true) (bits : Nat) (errs : List (Nat × Nat)) :
    (s.chkLost n bits errs).rd (F.LANE_n_STATUS_CHK_LOCK n) = 0 ∧
      (s.chkLost n bits errs).lane n = { s.lane n with
        relock := true, bits := min (2 ^ 48 - 1) ((s.lane n).bits + bits), errs := min (2 ^ 48 - 1) ((s.lane n).errs + (errs.map (·.2)).sum) } ∧
      Only [R.LANE_n_STATUS n] { s with lanes := (s.chkLost n bits errs).lanes } (s.chkLost n bits errs) := by
  have hcount := s.chkCount_lane n bits (errs.map (·.2)).sum
  rw [if_pos hlock] at hcount
  have hframe := s.chkCount_frame n bits (errs.map (·.2)).sum
  rw [State.chkLost_lane hn]
  obtain ⟨hlane, -⟩ := Only.of_setLane (only_wr ((s.chkCount n bits (errs.map (·.2)).sum).setLane n
    { (s.chkCount n bits (errs.map (·.2)).sum).lane n with relock := true }) (F.LANE_n_STATUS_CHK_LOCK n) 0)
  refine ⟨State.rd_wr_eq _ _ _ rfl, hlane.trans (by rw [hcount]), ?_⟩
  rw [State.wr_lanes]
  refine Only.wr ?_ _ _ (.head _)
  rw [hframe]
  exact .refl _ _

end

section
variable {s : State} {n : Fin 108} (hn : 100 ≤ n.val)
include hn

theorem State.chkLock_module : s.chkLock n = s.setLane n { s.lane n with exch := true } := if_neg (Nat.not_lt.2 hn)

theorem State.chkLost_module (bits : Nat) (errs : List (Nat × Nat)) :
    s.chkLost n bits errs = (s.uciCount (n - 100) errs).setLane n { (s.uciCount (n - 100) errs).lane n with exch := false } :=
  if_neg (Nat.not_lt.2 hn)

end

/-- R405: a module's count is shown in its ERR and WORST alone. -/
theorem State.uciCount_only (s : State) (k : Nat) (errs : List (Nat × Nat)) :
    Only [R.LANE_UCIk_ERR k, R.LANE_UCIk_WORST k] { s with lanes := (s.uciCount k errs).lanes } (s.uciCount k errs) := by
  simp only [State.uciCount]
  exact (Only.of_setLane (n := 100 + k) (.setReg (.wr (.refl _ _) (F.LANE_UCIk_ERR_ERR k) _ (.head _)) _ _ (.tail _ (.head _)))).2

/-- The errored bits of a module's lanes, with the lanes as numbers. -/
theorem sum_errs (errs : List (Fin 64 × Nat)) : ((errs.map fun (l, e) => (l.val, e)).map (·.2)).sum = (errs.map (·.2)).sum := by
  rw [List.map_map]
  rfl

/-! ## O52 -/

/-- Settles O52: each command by the stage of the lane, then the setting of injection, then the checkers of lanes and modules. -/
theorem laneBringUpAndTest : Obligations.LaneBringUpAndTest := by
  refine ⟨fun n present eq same unit s => ⟨fun hst hpr hpres => ?absent, fun hst hpr hpres => ?present, fun hno => ?noProbe, fun hst hpr => ?detect,
      fun hst => ?train, fun hst hap hex => ?toExchange, fun hst hno => ?toActive, fun hst hbad => ?badPeer, fun hst hok han => ?backToTrain,
      fun hst hok han => ?exchanged⟩,
    fun n s => ⟨fun hlo hhi hf => ?timeout, fun hlo hhi hf => ?third, fun hno => ?noTimeout, fun hst => ?lost, fun hst => ?notLost⟩,
    fun n v s hn => ⟨fun hbad => ?badSetting, fun hgood hmode => ?setting, fun hgood => ?injected⟩, fun n v s hn hcrown => exec_laneInject_module v hn hcrown,
    fun n bits errs s hruns => ⟨fun hlock => ?stillLocked, fun hlock => ?notLocked, fun hn hlock => ?locks, fun hn hlock => ?losesLock,
      fun hn hlock => ?moduleLocks, fun hn hlock => ?moduleLoses⟩⟩
  case absent =>
    refine ⟨_, (exec_laneDetectProbe_runs present hst hpr).trans (by rw [hpres, State.probe_absent]), State.rd_wr_eq _ _ _ rfl, ?_,
      only_wr s (F.LANE_n_STATUS_RX_PRESENT n) 0⟩
    exact (State.rd_wr_beside (f := F.LANE_n_STATUS_RX_PRESENT n) (g := F.LANE_n_STATUS_STAGE n) _ _ rfl rfl).trans hst
  case present => rw [exec_laneDetectProbe_runs present hst hpr, hpres, State.probe_present]
  case noProbe =>
    have hnot : (s.laneStage n == 1 && s.laneProbes n) = false := by
      rcases hno with h | h
      · rw [beq_eq_false_iff_ne.2 h, Bool.false_and]
      · rw [h, Bool.and_false]
    rw [exec_laneDetectProbe, hnot, State.when_false]
  case detect => rw [exec_laneStageDone, State.stageDone_detect eq same unit hst hpr, State.detected]
  case train => rw [exec_laneStageDone, State.stageDone_train eq same unit hst]
  case toExchange => rw [exec_laneStageDone, State.stageDone_lock eq same unit hst, if_pos ⟨hap, hex⟩]
  case toActive => rw [exec_laneStageDone, State.stageDone_lock eq same unit hst, if_neg hno, State.toActive]
  case badPeer =>
    refine ⟨_, (exec_laneStageDone n eq same unit s).trans (by rw [State.stageDone_exchange eq same unit hst, if_pos hbad]), ?_,
      only_wr s (F.LANE_n_STATUS_REASON n) _⟩
    exact State.rd_wr_eq _ _ _ rfl
  case backToTrain =>
    rw [exec_laneStageDone, State.stageDone_exchange eq same unit hst, if_neg (by rw [hok]; exact Bool.false_ne_true), if_pos han]
  case exchanged =>
    rw [exec_laneStageDone, State.stageDone_exchange eq same unit hst, if_neg (by rw [hok]; exact Bool.false_ne_true),
      if_neg (by rw [han]; exact Bool.false_ne_true)]
  case timeout => rw [exec_laneStageTimeout, decide_eq_true ⟨hlo, hhi⟩, State.when_true, State.stageTimeout_eq s n hf]
  case third => rw [exec_laneStageTimeout, decide_eq_true ⟨hlo, hhi⟩, State.when_true, State.stageTimeout_third s n hf]
  case noTimeout => rw [exec_laneStageTimeout, decide_eq_false hno, State.when_false]
  case lost => rw [exec_laneLockLost, hst, beq_self_eq_true, State.when_true, State.lockLost]
  case notLost => rw [exec_laneLockLost, beq_eq_false_iff_ne.2 hst, State.when_false]
  case badSetting =>
    have hexec := (exec_laneInject_lane v s hn).trans (congrArg _ (State.laneInjWrite_bad hbad))
    refine gives_refused (path := lanePath n) (a1 := R.LANE_n_INJ n) hexec (.head _) ?_ (by decide)
    exact laneStatus_not_recorder ⟨n, hn⟩
  case setting =>
    refine ⟨_, (exec_laneInject_lane v s hn).trans (congrArg _ ((State.laneInjWrite_good hgood).trans (State.injectNow_later ?_))), ?_⟩
    · rw [s.injectSet_mode hn v]
      exact hmode
    · exact ⟨s.reg_setReg_same _ _, s.injectSet_frame n v⟩
  case injected =>
    rw [exec_laneInject_lane v s hn, State.laneInjWrite_good hgood]
    rfl
  case stillLocked => rw [exec_checkerLock, hlock, Bool.not_true, Bool.and_false, State.when_false]
  case notLocked => rw [exec_checkerLockLost, hlock, Bool.and_false, State.when_false]
  case locks =>
    refine ⟨_, (exec_checkerLock n s).trans (by rw [hruns, hlock, Bool.not_false, Bool.and_true, State.when_true]), State.chkLock_reads hn⟩
  case losesLock =>
    have hon : s.on (F.LANE_n_STATUS_CHK_LOCK n) = true := (if_pos hn).symm.trans hlock
    refine ⟨_, (exec_checkerLockLost n bits errs s).trans (by rw [hruns, hlock, Bool.and_true, State.when_true]), ?_⟩
    have hreads := State.chkLost_reads hn hon bits (errs.map fun (l, e) => (l.val, e))
    rw [sum_errs] at hreads
    exact hreads
  case moduleLocks =>
    refine ⟨_, (exec_checkerLock n s).trans (by rw [hruns, hlock, Bool.not_false, Bool.and_true, State.when_true]), ?_⟩
    rw [State.chkLock_module hn]
    exact ⟨State.lane_setLane_same s n _, rfl⟩
  case moduleLoses =>
    refine ⟨_, (exec_checkerLockLost n bits errs s).trans (by rw [hruns, hlock, Bool.and_true, State.when_true]), ?_⟩
    rw [State.chkLost_module hn]
    refine ⟨by rw [State.lane_setLane_same], ?_⟩
    exact (s.uciCount_only (n - 100) _).setLane n _

end Sys2Proof.Machine
end

section
/-!
PROOFS. The CRC engines (R414, R416 to R418): what STATUS and VALUE show after each write of them, which writes a free engine takes and
a busy or bound one drops, and how an operation ends. An operation reads and writes over the fabric: that no access to the fabric
moves the engines' operations is shown first.
-/
namespace Sys2Proof.Machine

/-! ## Accesses over the fabric leave the engines' operations -/

theorem Only.crcs {as : List Nat} {s t : State} (h : Only as s t) : t.crcs = s.crcs := by rw [h.2]

section
variable (s : State)

theorem State.snoopLines_crcs (d line n : Nat) : (s.snoopLines d line n).crcs = s.crcs := by
  unfold State.snoopLines
  induction n with
  | zero => rfl
  | succ n ih =>
    rw [State.forRange_succ]
    split
    · exact (State.send_crcs _ _).trans ih
    · exact ih

theorem State.takeRead_crcs (d k : Nat) : (s.takeRead d k).crcs = s.crcs := by
  unfold State.takeRead
  split
  · split
    · simp only [State.refill_crcs, State.wr_crcs, State.setTask_crcs]
    · rfl
  · rfl

/-- A read of a register, with whatever it latches, moves no engine's operation. -/
theorem State.readThrough_crcs (q : Req) (a : Nat) : (s.readThrough q a).1.crcs = s.crcs := by
  have hall : ∀ h ∈ touchedOf q (a / 0x4000000), ∀ i, (h.act s i).crcs = s.crcs := by
    intro h hm i
    simp only [touchedOf, List.mem_append, List.mem_cons, List.not_mem_nil, or_false] at hm
    rcases hm with hm | rfl | rfl | rfl
    · split at hm
      · simp only [List.mem_cons, List.not_mem_nil, or_false] at hm
        rcases hm with rfl | rfl | rfl
        · rfl
        · exact State.clkNsRead_crcs s q
        · simp only [State.m0Read, State.setReg_crcs]
      · rw [List.mem_singleton] at hm
        subst hm
        exact (only_coefStep _ _).crcs
    · rfl
    · exact s.takeRead_crcs _ i
    · simp only [State.crcClaim, State.wr_crcs]
  have hat : ∀ l : List Touched, ∀ x, touchedAt (a % 0x4000000) l = some x → x.1 ∈ l := by
    intro l
    induction l with
    | nil => exact fun x hx => nomatch hx
    | cons h hs ih =>
      intro x hx
      simp only [touchedAt] at hx
      split at hx
      · cases hx
        exact .head _
      · exact .tail _ (ih x hx)
  unfold State.readThrough
  split
  next h i heq => exact hall h (hat _ _ heq) i
  next => rfl

theorem State.fabWord_crcs (d a : Nat) : (s.fabWord d a).1.crcs = s.crcs := by
  have hread := s.readThrough_crcs (engineReq d)
  unfold State.fabWord
  generalize s.readThrough (engineReq d) = read at hread ⊢
  split
  case h_3 off _ =>
    have hread := hread (dieBase d + off)
    by_cases hblocked : (!s.dieUp d || s.regBlocked (dieBase d + off)) = true
    · rw [if_pos hblocked]
    · rw [if_neg hblocked]
      generalize read (dieBase d + off) = p at hread ⊢
      split
      exact hread
  all_goals rfl

theorem State.fabWords_crcs (d a n : Nat) : (s.fabWords d a n).1.crcs = s.crcs := by
  induction n generalizing s a with
  | zero => rfl
  | succ n ih => exact (ih (s.fabWord d a).1 (a + 4)).trans (s.fabWord_crcs d a)

theorem State.fabBytes_crcs (d a n : Nat) : (s.fabBytes d a n).1.crcs = s.crcs := s.fabWords_crcs d _ _

theorem State.fabPut_crcs (d a : Nat) (bs : List Byte) : (s.fabPut d a bs).crcs = s.crcs := by
  unfold State.fabPut
  split
  · exact s.sramPut_crcs _ _ _
  · unfold State.hbmWrite
    split
    · rfl
    · exact (State.hbmPut_crcs _ _ _ _).trans (s.snoopLines_crcs _ _ _)
  · rfl

theorem State.fabErr_crcs (d master target : Nat) (write : Bool) (addr : Nat) : (s.fabErr d master target write addr).crcs = s.crcs := by
  simp only [State.fabErr]
  split <;> simp only [State.wr_crcs, State.setReg_crcs, State.inc_crcs]

theorem State.fabFail_crcs (d master : Nat) (write : Bool) (a : Nat) : (s.fabFail d master write a).crcs = s.crcs := by
  simp only [State.fabFail]
  split
  · split
    · exact s.fabErr_crcs _ _ _ _ _
    · exact (State.inc_crcs _ _).trans (s.fabErr_crcs _ _ _ _ _)
  · exact s.fabErr_crcs _ _ _ _ _

/-! ## STATUS, VALUE and RESULT -/

theorem State.crcOp_of_crcs {s t : State} (h : t.crcs = s.crcs) (d k : Nat) : t.crcOp d k = s.crcOp d k := congrArg (mapGet _ · (d * 16 + k)) h

theorem State.crcOp_setCrcOp (d k : Nat) (x : Option (Nat × Nat × Nat × Nat)) : (s.setCrcOp d k x).crcOp d k = x := mapGet_set_same _ s.crcs _ x

theorem State.crcStatus_crcs (d k : Nat) (busy done mtch err : Bool) : (s.crcStatus d k busy done mtch err).crcs = s.crcs := s.setReg_crcs _ _

theorem State.setCrcValue_crcs (d k v : Nat) : (s.setCrcValue d k v).crcs = s.crcs := (State.wr_crcs _ _ _).trans (State.wr_crcs _ _ _)

/-- The four bits that a write of STATUS puts. -/
theorem State.crcStatus_bits (d k : Nat) (busy done mtch err : Bool) {lo : Nat} (h : lo < 4) :
    getBits ((s.crcStatus d k busy done mtch err).reg (R.CRC_k_STATUS d k)) lo 1 =
      getBits (BitVec.ofNat 32 (bit busy + bit done * 2 + bit mtch * 4 + bit err * 8)) lo 1 := by
  have hmask : ∀ i < 4, (0xFFFFFFF0 : Word).getLsbD i = false := by decide
  rw [State.crcStatus, State.reg_setReg_same, getBits_one, getBits_one, BitVec.getLsbD_or, BitVec.getLsbD_and, hmask lo h, Bool.and_false, Bool.false_or]

theorem statusWord_bits : ∀ busy done mtch err : Bool,
    (getBits (BitVec.ofNat 32 (bit busy + bit done * 2 + bit mtch * 4 + bit err * 8)) 0 1 == 1) = busy ∧
      getBits (BitVec.ofNat 32 (bit busy + bit done * 2 + bit mtch * 4 + bit err * 8)) 1 1 = bit done ∧
      getBits (BitVec.ofNat 32 (bit busy + bit done * 2 + bit mtch * 4 + bit err * 8)) 3 1 = bit err := by decide

theorem State.crcStatus_reads (d k : Nat) (busy done mtch err : Bool) :
    (s.crcStatus d k busy done mtch err).crcBusy d k = busy ∧ (s.crcStatus d k busy done mtch err).rd (F.CRC_k_STATUS_DONE d k) = bit done ∧
      (s.crcStatus d k busy done mtch err).rd (F.CRC_k_STATUS_ERROR d k) = bit err := by
  have h0 := s.crcStatus_bits d k busy done mtch err (lo := 0) (by decide)
  have h1 := s.crcStatus_bits d k busy done mtch err (lo := 1) (by decide)
  have h3 := s.crcStatus_bits d k busy done mtch err (lo := 3) (by decide)
  obtain ⟨b0, b1, b3⟩ := statusWord_bits busy done mtch err
  exact ⟨(congrArg (· == 1) h0).trans b0, h1.trans b1, h3.trans b3⟩

theorem crcValue_ne_result (d k : Nat) : R.CRC_k_VALUE d k ≠ R.CRC_k_RESULT d k := by
  simp only [R.CRC_k_VALUE, R.CRC_k_RESULT]
  omega

theorem crcWidth_le (p : Nat) : crcWidth p ≤ 32 := by
  unfold crcWidth
  split <;> decide

theorem crcXor_lt (p : Nat) : crcXor p < 2 ^ 32 := by
  unfold crcXor
  split <;> decide

theorem mod_crcWidth_lt (p v : Nat) : v % 2 ^ crcWidth p < 2 ^ 32 :=
  Nat.lt_of_lt_of_le (Nat.mod_lt _ (Nat.two_pow_pos _)) (Nat.pow_le_pow_right (by decide) (crcWidth_le p))

/-- R414: VALUE takes a value of the algorithm's width, and RESULT shows it with XOROUT. -/
theorem State.setCrcValue_reads (d k v : Nat) :
    (s.setCrcValue d k v).rd (F.CRC_k_VALUE_VALUE d k) = v % 2 ^ crcWidth (s.crcPoly d k) ∧
      (s.setCrcValue d k v).rd (F.CRC_k_RESULT_RESULT d k) = (v % 2 ^ crcWidth (s.crcPoly d k)) ^^^ crcXor (s.crcPoly d k) := by
  have hlt := mod_crcWidth_lt (s.crcPoly d k) v
  constructor
  · exact (State.rd_wr_off _ _ (crcValue_ne_result d k)).trans ((State.rd_wr_eq _ _ _ rfl).trans (Nat.mod_eq_of_lt hlt))
  · exact (State.rd_wr_eq _ _ _ rfl).trans (Nat.mod_eq_of_lt (Nat.xor_lt_two_pow hlt (crcXor_lt _)))

theorem only_setCrcValue (d k v : Nat) : Only [R.CRC_k_VALUE d k, R.CRC_k_RESULT d k] s (s.setCrcValue d k v) :=
  .wr (.wr (.refl _ s) (F.CRC_k_VALUE_VALUE d k) _ (.head _)) (F.CRC_k_RESULT_RESULT d k) _ (.tail _ (.head _))

end

/-! ## Writes that a free engine takes -/

/-- An engine that is neither bound nor busy. -/
def State.crcFree (s : State) (d k : Nat) : Prop := s.crcBound d k = false ∧ s.crcBusy d k = false

section
variable {s : State} {d k : Nat}

theorem State.crcTake_free (h : s.crcFree d k) (f : State → State) : s.crcTake d k f = f s := by
  obtain ⟨hb, hy⟩ := h
  exact if_neg (by simp [hb, hy])

theorem State.crcTake_dropped (h : ¬s.crcFree d k) (f : State → State) : s.crcTake d k f = s.crcDrop d k := by
  refine if_pos ?_
  by_cases hb : s.crcBound d k = true
  · exact .inl hb
  · by_cases hy : s.crcBusy d k = true
    · exact .inr hy
    · exact absurd ⟨Bool.not_eq_true _ ▸ hb, Bool.not_eq_true _ ▸ hy⟩ h

theorem State.crcCtlWrite_dropped {v : Word} (h : s.crcBound d k = true ∨ 6 ≤ getBits v 0 3 ∨ (s.crcBusy d k = true ∧ getBits v 0 3 ≠ 5)) :
    s.crcCtlWrite d k v = s.crcDrop d k := if_pos h

/-- A write of an operation to a busy or bound engine. -/
theorem State.crcCtlWrite_busy {v : Word} (h : ¬s.crcFree d k) (h5 : getBits v 0 3 ≠ 5) : s.crcCtlWrite d k v = s.crcDrop d k := by
  refine State.crcCtlWrite_dropped ?_
  by_cases hb : s.crcBound d k = true
  · exact .inl hb
  · by_cases hy : s.crcBusy d k = true
    · exact .inr (.inr ⟨hy, h5⟩)
    · exact absurd ⟨Bool.not_eq_true _ ▸ hb, Bool.not_eq_true _ ▸ hy⟩ h

theorem State.crcCtlWrite_runs {v : Word} (h : s.crcFree d k) (h6 : getBits v 0 3 < 6) : s.crcCtlWrite d k v =
    match getBits v 0 3 with
    | 0 => s
    | 1 => (((s.setCrcValue d k (crcInit (s.crcPoly d k))).wr (F.CRC_k_BYTES_BYTES d k) 0)).crcStatus d k false false false false
    | 5 => s.crcAbort d k
    | op => s.crcStart d k op := by
  obtain ⟨hb, hy⟩ := h
  have hgo : ¬(s.crcBound d k = true ∨ 6 ≤ getBits v 0 3 ∨ (s.crcBusy d k = true ∧ getBits v 0 3 ≠ 5)) := by
    rw [hb, hy]
    simp only [Bool.false_eq_true, false_or, false_and, or_false]
    omega
  simp only [State.crcCtlWrite, if_neg hgo] <;> rfl

/-- An ABORT is taken by a busy engine too. -/
theorem State.crcCtlWrite_abort (h : s.crcBound d k = false) : s.crcCtlWrite d k 5 = s.crcAbort d k := by
  have h5 : getBits 5 0 3 = 5 := by decide
  have hgo : ¬(s.crcBound d k = true ∨ 6 ≤ 5 ∨ (s.crcBusy d k = true ∧ 5 ≠ 5)) := by
    rw [h]
    simp
  simp only [State.crcCtlWrite, h5]
  exact if_neg hgo

theorem State.crcDrop_reads (s : State) (d k : Nat) :
    (s.crcDrop d k).rd (F.CRC_k_STATUS_DROPPED d k) = min (s.rd (F.CRC_k_STATUS_DROPPED d k) + 1) (2 ^ 16 - 1) ∧
      Only [R.CRC_k_STATUS d k] s (s.crcDrop d k) := ⟨State.rd_inc_eq _ _ rfl, only_inc s (F.CRC_k_STATUS_DROPPED d k)⟩

end

end Sys2Proof.Machine
end

section
/-!
PROOFS. The operations of a CRC engine (R416, R418): how one starts, ends and is broken off, and COMPUTE over one unit of 16 bytes.
-/
namespace Sys2Proof.Machine

/-! ## Starting -/

section
variable {s : State} {d k op : Nat}

/-- The source and the destination of an operation. -/
def State.crcSrc (s : State) (d k : Nat) : Nat := s.crcAddr (F.CRC_k_SRC_LO_ADDR d k) (F.CRC_k_SRC_HI_ADDR d k)
def State.crcTo (s : State) (d k : Nat) : Nat := s.crcAddr (F.CRC_k_DST_LO_ADDR d k) (F.CRC_k_DST_HI_ADDR d k)
def State.crcLen (s : State) (d k : Nat) : Nat := s.rd (F.CRC_k_LEN_LEN d k)

theorem State.crcPoly_bytes (s : State) (d k v : Nat) : (s.wr (F.CRC_k_BYTES_BYTES d k) v).crcPoly d k = s.crcPoly d k := by
  refine State.rd_wr_off _ _ ?_
  simp only [F.CRC_k_CFG_POLY, F.CRC_k_BYTES_BYTES, R.CRC_k_CFG, R.CRC_k_BYTES]
  omega

theorem State.crcStart_eq (s : State) (d k op : Nat) : s.crcStart d k op =
    if crcBad (s.crcPoly d k) op (s.crcSrc d k) (s.crcTo d k) (s.crcLen d k) = true then
      (s.wr (F.CRC_k_BYTES_BYTES d k) 0).crcStatus d k false false false true
    else ((s.wr (F.CRC_k_BYTES_BYTES d k) 0).crcStatus d k true false false false).setCrcOp d k (some (op, s.crcSrc d k, s.crcTo d k, s.crcLen d k)) := by
  simp only [State.crcStart, State.crcPoly_bytes]
  rfl

theorem crcBytes_ne_status (d k : Nat) : R.CRC_k_BYTES d k ≠ R.CRC_k_STATUS d k := by
  simp only [R.CRC_k_BYTES, R.CRC_k_STATUS]
  omega

theorem State.bytes_crcStatus (s : State) (d k : Nat) (busy done mtch err : Bool) :
    (s.crcStatus d k busy done mtch err).rd (F.CRC_k_BYTES_BYTES d k) = s.rd (F.CRC_k_BYTES_BYTES d k) :=
  s.rd_setReg_ne _ (crcBytes_ne_status d k)

/-- BYTES at zero, and STATUS as put. -/
theorem only_bytesStatus (s : State) (d k : Nat) (busy done mtch err : Bool) : Only [R.CRC_k_BYTES d k, R.CRC_k_STATUS d k] s
    ((s.wr (F.CRC_k_BYTES_BYTES d k) 0).crcStatus d k busy done mtch err) :=
  .setReg (.wr (.refl _ s) (F.CRC_k_BYTES_BYTES d k) _ (.head _)) _ _ (.tail _ (.head _))

theorem Only.withCrcs {as : List Nat} {s t : State} (h : Only as s t) (c : List (Nat × Option (Nat × Nat × Nat × Nat))) :
    Only as { s with crcs := c } { t with crcs := c } := ⟨h.1, by rw [OnlyRegs, h.2]⟩

theorem Only.setCrcOp {as : List Nat} {s t : State} (h : Only as s t) (d k : Nat) (x : Option (Nat × Nat × Nat × Nat)) :
    Only as { s with crcs := (t.setCrcOp d k x).crcs } (t.setCrcOp d k x) := h.withCrcs _

theorem State.rd_setCrcOp (s : State) (d k : Nat) (x : Option (Nat × Nat × Nat × Nat)) (f : Fld) : (s.setCrcOp d k x).rd f = s.rd f := rfl

theorem State.crcBusy_setCrcOp (s : State) (d k : Nat) (x : Option (Nat × Nat × Nat × Nat)) : (s.setCrcOp d k x).crcBusy d k = s.crcBusy d k := rfl

/-- Operands that an operation cannot take. -/
theorem State.crcStart_bad (h : crcBad (s.crcPoly d k) op (s.crcSrc d k) (s.crcTo d k) (s.crcLen d k) = true) :
    (s.crcStart d k op).crcBusy d k = false ∧ (s.crcStart d k op).rd (F.CRC_k_STATUS_ERROR d k) = 1 ∧
      (s.crcStart d k op).rd (F.CRC_k_BYTES_BYTES d k) = 0 ∧ Only [R.CRC_k_BYTES d k, R.CRC_k_STATUS d k] s (s.crcStart d k op) := by
  rw [State.crcStart_eq, if_pos h]
  obtain ⟨hbusy, -, herr⟩ := (s.wr (F.CRC_k_BYTES_BYTES d k) 0).crcStatus_reads d k false false false true
  exact ⟨hbusy, herr, (State.bytes_crcStatus _ d k _ _ _ _).trans (State.rd_wr_eq _ _ _ rfl), only_bytesStatus s d k _ _ _ _⟩

theorem State.crcStart_good (h : crcBad (s.crcPoly d k) op (s.crcSrc d k) (s.crcTo d k) (s.crcLen d k) = false) :
    (s.crcStart d k op).crcBusy d k = true ∧ (s.crcStart d k op).rd (F.CRC_k_STATUS_ERROR d k) = 0 ∧
      (s.crcStart d k op).crcOp d k = some (op, s.crcSrc d k, s.crcTo d k, s.crcLen d k) ∧ (s.crcStart d k op).rd (F.CRC_k_BYTES_BYTES d k) = 0 ∧
      Only [R.CRC_k_BYTES d k, R.CRC_k_STATUS d k] { s with crcs := (s.crcStart d k op).crcs } (s.crcStart d k op) := by
  have hgo : ¬crcBad (s.crcPoly d k) op (s.crcSrc d k) (s.crcTo d k) (s.crcLen d k) = true := by rw [h]; exact Bool.false_ne_true
  rw [State.crcStart_eq, if_neg hgo]
  obtain ⟨hbusy, -, herr⟩ := (s.wr (F.CRC_k_BYTES_BYTES d k) 0).crcStatus_reads d k true false false false
  refine ⟨(State.crcBusy_setCrcOp _ d k _).trans hbusy, (State.rd_setCrcOp _ d k _ _).trans herr, State.crcOp_setCrcOp _ d k _, ?_, (only_bytesStatus s d k _ _ _ _).setCrcOp d k _⟩
  rw [State.rd_setCrcOp]
  exact (State.bytes_crcStatus _ d k _ _ _ _).trans (State.rd_wr_eq _ _ _ rfl)

end

/-! ## Ending -/

/-- No operation runs, and BUSY is clear. -/
def State.CrcEnded (s : State) (d k : Nat) : Prop := s.crcOp d k = none ∧ s.crcBusy d k = false

section
variable {s : State} {d k : Nat}

/-- Every operation ends with a write of STATUS that clears BUSY. -/
theorem State.crcEnded_status (h : s.crcOp d k = none) (done mtch err : Bool) : (s.crcStatus d k false done mtch err).CrcEnded d k :=
  ⟨(State.crcOp_of_crcs (s.crcStatus_crcs d k false done mtch err) d k).trans h, (s.crcStatus_reads d k false done mtch err).1⟩

/-- An operation that fails leaves VALUE and BYTES at the whole units before it, and ERROR. -/
def State.crcFails (s : State) (d k v done : Nat) : State :=
  ((s.setCrcValue d k v).wr (F.CRC_k_BYTES_BYTES d k) done).crcStatus d k false false false true

theorem State.crcEnded_fails (h : s.crcOp d k = none) (v done : Nat) : (s.crcFails d k v done).CrcEnded d k :=
  State.crcEnded_status ((State.crcOp_of_crcs ((State.wr_crcs _ _ _).trans (s.setCrcValue_crcs d k v)) d k).trans h) _ _ _

theorem State.crcFinish_none (h : s.crcOp d k = none) : s.crcFinish d k = s := by simp only [State.crcFinish, h]

/-- What an operation has run to: the state, VALUE, the bytes processed, and whether no access has failed. -/
def State.crcRan (s : State) (d k op src dst len : Nat) : State × Nat × Nat × Bool :=
  let n := if op = 4 then len - crcW (s.crcPoly d k) else len
  let whole := s.crcRun d k src (crcDst op dst) (n / 16 * 16)
  if n % 16 = 0 then whole else crcStep d (s.crcPoly d k) src (crcDst op dst) n whole (n / 16)

/-- VALUE and BYTES of an operation that has run, and the engine free. -/
def State.crcDone (s : State) (d k v done : Nat) : State := ((s.setCrcValue d k v).wr (F.CRC_k_BYTES_BYTES d k) done).setCrcOp d k none

theorem State.crcOp_done (s : State) (d k v done : Nat) : (s.crcDone d k v done).crcOp d k = none := State.crcOp_setCrcOp _ d k none

/-- R418: however an operation ends, the engine is free and BUSY clear. -/
theorem State.crcFinish_ends (h : (s.crcOp d k).isSome = true) : (s.crcFinish d k).CrcEnded d k := by
  obtain ⟨⟨op, src, dst, len⟩, hop⟩ := Option.isSome_iff_exists.1 h
  simp only [State.crcFinish, hop]
  generalize (if (if op = 4 then len - crcW (s.crcPoly d k) else len) % 16 = 0 then _ else _ : State × Nat × Nat × Bool) = r
  obtain ⟨t, v, done, ok⟩ := r
  have hdone := t.crcOp_done d k v done
  split
  · exact State.crcEnded_fails hdone _ _
  · split
    · split
      · exact State.crcEnded_status ((State.crcOp_of_crcs (State.fabPut_crcs _ _ _ _) d k).trans hdone) _ _ _
      · exact State.crcEnded_fails ((State.crcOp_of_crcs (State.fabFail_crcs _ _ _ _ _) d k).trans hdone) _ _
    · have hread := State.fabBytes_crcs (t.crcDone d k v done) d
      split
      · next heq => exact State.crcEnded_status ((State.crcOp_of_crcs ((State.wr_crcs _ _ _).trans ((congrArg (·.1.crcs) heq).symm.trans (hread _ _))) d k).trans hdone) _ _ _
      · next heq => exact State.crcEnded_fails ((State.crcOp_of_crcs ((State.fabFail_crcs _ _ _ _ _).trans ((congrArg (·.1.crcs) heq).symm.trans (hread _ _))) d k).trans hdone) _ _
    · exact State.crcEnded_status hdone _ _ _

/-! ### COMPUTE over one unit -/

theorem crcStep_read {u : State} {bs : List Byte} {src n : Nat} (p v : Nat) (hread : s.fabBytes d src (min 16 n) = (u, some bs)) :
    crcStep d p src none n (s, v, 0, true) 0 = (u, crcFeed p v bs, min 16 n, true) := by
  simp only [crcStep, Nat.mul_zero, Nat.sub_zero, Nat.add_zero, hread, Bool.not_true, Bool.false_eq_true, if_false, Nat.zero_add]

/-- R416: an operation of at most 16 bytes runs in one step. -/
theorem State.crcRan_unit {u : State} {bs : List Byte} {src len : Nat} (dst : Nat) (hlo : 1 ≤ len) (hhi : len ≤ 16)
    (hread : s.fabBytes d src len = (u, some bs)) :
    s.crcRan d k 2 src dst len = (u, crcFeed (s.crcPoly d k) (s.crcValue d k) bs, len, true) := by
  have hmin : min 16 len = len := min_eq_right hhi
  have hdst : crcDst 2 dst = none := if_neg (by omega)
  have hstep := crcStep_read (s.crcPoly d k) (s.crcValue d k) (n := len) (by rw [hmin]; exact hread)
  rw [hmin] at hstep
  have hop : (if 2 = 4 then len - crcW (s.crcPoly d k) else len) = len := if_neg (by decide)
  simp only [State.crcRan, hop, hdst]
  by_cases h16 : len = 16
  · subst h16
    exact hstep
  · have hdiv : len / 16 = 0 := by omega
    rw [if_neg (by omega), hdiv]
    exact hstep

theorem State.crcFinish_unit {u : State} {bs : List Byte} {src dst len : Nat} (hop : s.crcOp d k = some (2, src, dst, len)) (hlo : 1 ≤ len) (hhi : len ≤ 16)
    (hread : s.fabBytes d src len = (u, some bs)) : s.crcFinish d k =
      (u.crcDone d k (crcFeed (s.crcPoly d k) (s.crcValue d k) bs) len).crcStatus d k false true false false := by
  have hran := s.crcRan_unit (k := k) dst hlo hhi hread
  simp only [State.crcRan] at hran
  simp only [State.crcFinish, hop, hran]
  rfl

theorem State.crcDone_reads (u : State) (d k v : Nat) {len : Nat} (hlen : len ≤ 16) (done mtch err : Bool) :
    ((u.crcDone d k v len).crcStatus d k false done mtch err).rd (F.CRC_k_VALUE_VALUE d k) = v % 2 ^ crcWidth (u.crcPoly d k) ∧
      ((u.crcDone d k v len).crcStatus d k false done mtch err).rd (F.CRC_k_BYTES_BYTES d k) = len ∧
      Only [R.CRC_k_VALUE d k, R.CRC_k_RESULT d k, R.CRC_k_BYTES d k, R.CRC_k_STATUS d k]
        { u with crcs := ((u.crcDone d k v len).crcStatus d k false done mtch err).crcs } ((u.crcDone d k v len).crcStatus d k false done mtch err) := by
  have hvalueStatus : R.CRC_k_VALUE d k ≠ R.CRC_k_STATUS d k := by
    simp only [R.CRC_k_VALUE, R.CRC_k_STATUS]
    omega
  have hvalueBytes : R.CRC_k_VALUE d k ≠ R.CRC_k_BYTES d k := by
    simp only [R.CRC_k_VALUE, R.CRC_k_BYTES]
    omega
  refine ⟨?_, ?_, ?_⟩
  · refine (State.rd_setReg_ne _ _ hvalueStatus).trans ((State.rd_setCrcOp _ d k none _).trans ?_)
    exact (State.rd_wr_off _ _ hvalueBytes).trans (u.setCrcValue_reads d k v).1
  · refine (State.bytes_crcStatus _ d k _ _ _ _).trans ((State.rd_setCrcOp _ d k none _).trans ?_)
    exact (State.rd_wr_eq _ _ _ rfl).trans (Nat.mod_eq_of_lt (Nat.lt_of_le_of_lt hlen (by decide : 16 < 2 ^ 31)))
  · rw [State.crcStatus_crcs]
    have hvals := (only_setCrcValue u d k v).mono (bs := [R.CRC_k_VALUE d k, R.CRC_k_RESULT d k, R.CRC_k_BYTES d k, R.CRC_k_STATUS d k]) (by simp)
    refine Only.setReg (Only.setCrcOp (.wr hvals (F.CRC_k_BYTES_BYTES d k) len ?_) d k none) _ _ ?_
    · exact .tail _ (.tail _ (.head _))
    · exact .tail _ (.tail _ (.tail _ (.head _)))

/-! ### ABORT -/

theorem State.crcAbort_none (h : s.crcOp d k = none) : s.crcAbort d k = s := by simp only [State.crcAbort, h]

/-- R416: an ABORT leaves the engine free, with ERROR. -/
theorem State.crcAbort_ends (h : (s.crcOp d k).isSome = true) :
    (s.crcAbort d k).crcOp d k = none ∧ (s.crcAbort d k).crcBusy d k = false ∧ (s.crcAbort d k).rd (F.CRC_k_STATUS_ERROR d k) = 1 ∧
      (s.crcAbort d k).rd (F.CRC_k_STATUS_DONE d k) = 0 := by
  obtain ⟨⟨op, src, dst, len⟩, hop⟩ := Option.isSome_iff_exists.1 h
  simp only [State.crcAbort, hop]
  generalize (s.tick.crcRun d k src (crcDst op dst) _) = r
  obtain ⟨t, v, done, ok⟩ := r
  have hdone := t.crcOp_done d k v done
  obtain ⟨hop', hbusy⟩ := State.crcEnded_status hdone false false true
  obtain ⟨-, hd, he⟩ := (t.crcDone d k v done).crcStatus_reads d k false false false true
  exact ⟨hop', hbusy, he, hd⟩

end

end Sys2Proof.Machine
end

section
/-!
PROOFS. The commands of the CRC engines (R414, R416 to R418).
-/
namespace Sys2Proof.Machine

section
variable {s : State} {d : Fin 8} {k : Fin 16} (hup : s.dieUp d = true)
include hup

theorem exec_crcReset : exec (.crcReset d k) s = .next (s.crcCtlWrite d k 1) := by
  change Host.Outcome.next (s.when _ _) = _
  rw [hup, State.when_true]

theorem exec_crcCompute : exec (.crcCompute d k) s = .next (s.crcCtlWrite d k 2) := by
  change Host.Outcome.next (s.when _ _) = _
  rw [hup, State.when_true]

theorem exec_crcAppend : exec (.crcAppend d k) s = .next (s.crcCtlWrite d k 3) := by
  change Host.Outcome.next (s.when _ _) = _
  rw [hup, State.when_true]

theorem exec_crcStrip : exec (.crcStrip d k) s = .next (s.crcCtlWrite d k 4) := by
  change Host.Outcome.next (s.when _ _) = _
  rw [hup, State.when_true]

theorem exec_crcAbort : exec (.crcAbort d k) s = .next (s.crcCtlWrite d k 5) := by
  change Host.Outcome.next (s.when _ _) = _
  rw [hup, State.when_true]

theorem exec_crcBadOp (sv : Bool) : exec (.crcBadOp d k sv) s = .next (s.crcCtlWrite d k (BitVec.ofNat 32 (6 + bit sv))) := by
  change Host.Outcome.next (s.when _ _) = _
  rw [hup, State.when_true]

theorem exec_crcData32 (v : Word) : exec (.crcData32 d k v) s = .next (s.crcData d k true
    (if s.crcPoly d k = 3 then [getBits v 0 10, getBits v 16 10] else [getBits v 0 8, getBits v 8 8, getBits v 16 8, getBits v 24 8])) := by
  change Host.Outcome.next (s.when _ _) = _
  rw [hup, State.when_true]
  rfl

theorem exec_crcData16 (v : Word) : exec (.crcData16 d k v) s = .next (s.crcData d k (s.crcPoly d k == 3) [getBits v 0 10]) := by
  change Host.Outcome.next (s.when _ _) = _
  rw [hup, State.when_true]
  rfl

theorem exec_crcData8 (v : Word) : exec (.crcData8 d k v) s = .next (s.crcData d k (s.crcPoly d k != 3) [getBits v 0 8]) := by
  change Host.Outcome.next (s.when _ _) = _
  rw [hup, State.when_true]
  rfl

theorem exec_crcValueWrite (v : Word) : exec (.crcValueWrite d k v) s = .next (s.crcTake d k fun s => s.setCrcValue d k v.toNat) := by
  change Host.Outcome.next (s.when _ _) = _
  rw [hup, State.when_true]
  rfl

theorem exec_crcClaimRead : exec (.crcClaimRead d k) s = .next (s.crcClaim d k) := by
  change Host.Outcome.next (s.when _ _) = _
  rw [hup, State.when_true]

theorem exec_crcClaimRelease : exec (.crcClaimRelease d k) s = .next (s.crcPlainWrite d k (R.CRC_k_CLAIM d k) 1 0) := by
  change Host.Outcome.next (s.when _ _) = _
  rw [hup, State.when_true]

end

theorem exec_crcOpDone (d : Fin 8) (k : Fin 16) (s : State) : exec (.crcOpDone d k) s = .next (s.crcFinish d k) := rfl

section
variable {s : State} {d k : Nat}

/-- Data of the algorithm's width advance VALUE. -/
theorem State.crcData_takes (h : s.crcFree d k) (xs : List Nat) :
    s.crcData d k true xs = s.setCrcValue d k (xs.foldl (crcUnit (s.crcPoly d k)) (s.crcValue d k)) :=
  (State.crcTake_free h _).trans (if_pos rfl)

/-- Data of another width leave a value of the hardware's. -/
theorem State.crcData_open (h : s.crcFree d k) (xs : List Nat) : s.crcData d k false xs = s.tick.setCrcValue d k (s.free 12) :=
  (State.crcTake_free h _).trans (if_neg Bool.false_ne_true)

theorem State.crcData_dropped (h : ¬s.crcFree d k) (ok : Bool) (xs : List Nat) : s.crcData d k ok xs = s.crcDrop d k := State.crcTake_dropped h _

theorem State.crcPoly_tick (s : State) (d k : Nat) : s.tick.crcPoly d k = s.crcPoly d k := rfl

theorem Only.of_tick {as : List Nat} {s t : State} (h : Only as s.tick t) : Only as { s with freeCtr := t.freeCtr } t := by
  have hf : t.freeCtr = s.tick.freeCtr := by rw [h.2]
  rw [hf]
  exact h

/-- What a value of the hardware's leaves. -/
theorem State.crcOpen_reads (s : State) (d k x : Nat) :
    (s.tick.setCrcValue d k x).rd (F.CRC_k_VALUE_VALUE d k) = x % 2 ^ crcWidth (s.crcPoly d k) ∧
      (s.tick.setCrcValue d k x).rd (F.CRC_k_RESULT_RESULT d k) = (x % 2 ^ crcWidth (s.crcPoly d k)) ^^^ crcXor (s.crcPoly d k) ∧
      Only [R.CRC_k_VALUE d k, R.CRC_k_RESULT d k] { s with freeCtr := (s.tick.setCrcValue d k x).freeCtr } (s.tick.setCrcValue d k x) := by
  obtain ⟨hv, hr⟩ := s.tick.setCrcValue_reads d k x
  rw [State.crcPoly_tick] at hv hr
  exact ⟨hv, hr, (only_setCrcValue s.tick d k x).of_tick⟩

/-- R416: RESET of a free engine. -/
theorem State.crcReset_reads (s : State) (d k : Nat) :
    let t := ((s.setCrcValue d k (crcInit (s.crcPoly d k))).wr (F.CRC_k_BYTES_BYTES d k) 0).crcStatus d k false false false false
    (t.rd (F.CRC_k_VALUE_VALUE d k) = crcInit (s.crcPoly d k) % 2 ^ crcWidth (s.crcPoly d k) ∧
      t.rd (F.CRC_k_RESULT_RESULT d k) = (crcInit (s.crcPoly d k) % 2 ^ crcWidth (s.crcPoly d k)) ^^^ crcXor (s.crcPoly d k)) ∧
      t.rd (F.CRC_k_BYTES_BYTES d k) = 0 ∧ t.crcBusy d k = false ∧ t.rd (F.CRC_k_STATUS_DONE d k) = 0 ∧ t.rd (F.CRC_k_STATUS_ERROR d k) = 0 ∧
      Only [R.CRC_k_BYTES d k, R.CRC_k_STATUS d k, R.CRC_k_VALUE d k, R.CRC_k_RESULT d k] s t := by
  have hkept : ∀ r, r ≠ R.CRC_k_STATUS d k → r ≠ R.CRC_k_BYTES d k → ∀ f : Fld, f.reg = r →
      (((s.setCrcValue d k (crcInit (s.crcPoly d k))).wr (F.CRC_k_BYTES_BYTES d k) 0).crcStatus d k false false false false).rd f =
        (s.setCrcValue d k (crcInit (s.crcPoly d k))).rd f := by
    intro r hs hb f hf
    subst hf
    exact (State.rd_setReg_ne _ _ hs).trans (State.rd_wr_off _ _ hb)
  obtain ⟨hv, hr⟩ := s.setCrcValue_reads d k (crcInit (s.crcPoly d k))
  obtain ⟨hbusy, hdone, herr⟩ := ((s.setCrcValue d k (crcInit (s.crcPoly d k))).wr (F.CRC_k_BYTES_BYTES d k) 0).crcStatus_reads d k false false false false
  have hvals := (only_setCrcValue s d k (crcInit (s.crcPoly d k))).mono
    (bs := [R.CRC_k_BYTES d k, R.CRC_k_STATUS d k, R.CRC_k_VALUE d k, R.CRC_k_RESULT d k]) (by simp)
  refine ⟨⟨(hkept (R.CRC_k_VALUE d k) ?_ ?_ _ rfl).trans hv, (hkept (R.CRC_k_RESULT d k) ?_ ?_ _ rfl).trans hr⟩, ?_, hbusy, hdone, herr, ?_⟩
  · simp only [R.CRC_k_VALUE, R.CRC_k_STATUS]
    omega
  · simp only [R.CRC_k_VALUE, R.CRC_k_BYTES]
    omega
  · simp only [R.CRC_k_RESULT, R.CRC_k_STATUS]
    omega
  · simp only [R.CRC_k_RESULT, R.CRC_k_BYTES]
    omega
  · exact (State.bytes_crcStatus _ d k _ _ _ _).trans (State.rd_wr_eq _ _ _ rfl)
  · exact .setReg (.wr hvals (F.CRC_k_BYTES_BYTES d k) 0 (.head _)) _ _ (.tail _ (.head _))

theorem State.rd_rdata (s : State) (v : Word) (f : Fld) : ({ s with rdata := v } : State).rd f = s.rd f := rfl

theorem State.crcClaim_reads (s : State) (d k : Nat) : (s.crcClaim d k).rdata = s.reg (R.CRC_k_CLAIM d k) ∧
    (s.crcClaim d k).rd (F.CRC_k_CLAIM_CLAIM d k) = 1 ∧ Only [R.CRC_k_CLAIM d k] { s with rdata := (s.crcClaim d k).rdata } (s.crcClaim d k) :=
  ⟨rfl, (State.rd_rdata _ _ _).trans (State.rd_wr_eq s (F.CRC_k_CLAIM_CLAIM d k) 1 rfl), (only_wr s (F.CRC_k_CLAIM_CLAIM d k) 1).withRdata _⟩

end

/-- Settles O54: which writes are taken, what each of them then shows, and how operations end. -/
theorem crcEngines : Obligations.CrcEngines := by
  refine ⟨fun d k v sv s hup => ⟨fun hfree => ?reset, ⟨fun hfree hbad => ?computeBad, fun hfree hgood => ?computeGood⟩,
      ⟨fun hfree hbad => ?appendBad, fun hfree hgood => ?appendGood⟩, ⟨fun hfree hbad => ?stripBad, fun hfree hgood => ?stripGood⟩,
      fun hfree => ?data32, fun hfree hp => ?data16, fun hfree hp => ?data8, fun hfree hp => ?open8, fun hfree hp => ?open16, fun hfree => ?value,
      fun hbusy c hc => ?dropped, ?badOp, fun hbound => ?abortBound, fun hbound hop => ?abortNone, fun hbound hop => ?abort, ?claim, fun hbound => ?release⟩,
    fun d k s => ⟨fun hop => ?noOp, fun hop => ?ends, fun src dst len bs u hop hlo hhi hread => ?unit⟩⟩
  case reset => exact ⟨_, (exec_crcReset hup).trans (congrArg _ (State.crcCtlWrite_runs hfree (by decide))), s.crcReset_reads d k⟩
  case computeBad => exact ⟨_, (exec_crcCompute hup).trans (congrArg _ (State.crcCtlWrite_runs hfree (by decide))), State.crcStart_bad hbad⟩
  case computeGood => exact ⟨_, (exec_crcCompute hup).trans (congrArg _ (State.crcCtlWrite_runs hfree (by decide))), State.crcStart_good hgood⟩
  case appendBad => exact ⟨_, (exec_crcAppend hup).trans (congrArg _ (State.crcCtlWrite_runs hfree (by decide))), State.crcStart_bad hbad⟩
  case appendGood => exact ⟨_, (exec_crcAppend hup).trans (congrArg _ (State.crcCtlWrite_runs hfree (by decide))), State.crcStart_good hgood⟩
  case stripBad => exact ⟨_, (exec_crcStrip hup).trans (congrArg _ (State.crcCtlWrite_runs hfree (by decide))), State.crcStart_bad hbad⟩
  case stripGood => exact ⟨_, (exec_crcStrip hup).trans (congrArg _ (State.crcCtlWrite_runs hfree (by decide))), State.crcStart_good hgood⟩
  case data32 => exact ⟨_, (exec_crcData32 hup v).trans (congrArg _ (State.crcData_takes hfree _)), s.setCrcValue_reads d k _, only_setCrcValue s d k _⟩
  case data16 =>
    refine ⟨_, (exec_crcData16 hup v).trans (congrArg _ ?_), s.setCrcValue_reads d k _, only_setCrcValue s d k _⟩
    rw [beq_iff_eq.2 hp]
    exact State.crcData_takes hfree _
  case data8 =>
    refine ⟨_, (exec_crcData8 hup v).trans (congrArg _ ?_), s.setCrcValue_reads d k _, only_setCrcValue s d k _⟩
    rw [bne_iff_ne.2 hp]
    exact State.crcData_takes hfree _
  case open8 =>
    obtain ⟨hv, hr, honly⟩ := s.crcOpen_reads d k (s.free 12)
    refine ⟨_, (exec_crcData8 hup v).trans (congrArg _ ?_), ⟨_, hv, hr⟩, honly⟩
    rw [bne_eq_false_iff_eq.2 hp]
    exact State.crcData_open hfree _
  case open16 =>
    obtain ⟨hv, hr, honly⟩ := s.crcOpen_reads d k (s.free 12)
    refine ⟨_, (exec_crcData16 hup v).trans (congrArg _ ?_), ⟨_, hv, hr⟩, honly⟩
    rw [beq_eq_false_iff_ne.2 hp]
    exact State.crcData_open hfree _
  case value => exact ⟨_, (exec_crcValueWrite hup v).trans (congrArg _ (State.crcTake_free hfree _)), s.setCrcValue_reads d k _, only_setCrcValue s d k _⟩
  case dropped =>
    simp only [List.mem_cons, List.not_mem_nil, or_false] at hc
    rcases hc with rfl | rfl | rfl | rfl | rfl | rfl | rfl | rfl
    · exact ⟨_, (exec_crcReset hup).trans (congrArg _ (State.crcCtlWrite_busy hbusy (by decide))), s.crcDrop_reads d k⟩
    · exact ⟨_, (exec_crcCompute hup).trans (congrArg _ (State.crcCtlWrite_busy hbusy (by decide))), s.crcDrop_reads d k⟩
    · exact ⟨_, (exec_crcAppend hup).trans (congrArg _ (State.crcCtlWrite_busy hbusy (by decide))), s.crcDrop_reads d k⟩
    · exact ⟨_, (exec_crcStrip hup).trans (congrArg _ (State.crcCtlWrite_busy hbusy (by decide))), s.crcDrop_reads d k⟩
    · exact ⟨_, (exec_crcData32 hup v).trans (congrArg _ (State.crcData_dropped hbusy _ _)), s.crcDrop_reads d k⟩
    · exact ⟨_, (exec_crcData16 hup v).trans (congrArg _ (State.crcData_dropped hbusy _ _)), s.crcDrop_reads d k⟩
    · exact ⟨_, (exec_crcData8 hup v).trans (congrArg _ (State.crcData_dropped hbusy _ _)), s.crcDrop_reads d k⟩
    · exact ⟨_, (exec_crcValueWrite hup v).trans (congrArg _ (State.crcTake_dropped hbusy _)), s.crcDrop_reads d k⟩
  case badOp =>
    have hcode : 6 ≤ getBits (BitVec.ofNat 32 (6 + bit sv)) 0 3 := by cases sv <;> decide
    exact ⟨_, (exec_crcBadOp hup sv).trans (congrArg _ (State.crcCtlWrite_dropped (.inr (.inl hcode)))), s.crcDrop_reads d k⟩
  case abortBound => exact ⟨_, (exec_crcAbort hup).trans (congrArg _ (State.crcCtlWrite_dropped (.inl hbound))), s.crcDrop_reads d k⟩
  case abortNone => rw [exec_crcAbort hup, State.crcCtlWrite_abort hbound, State.crcAbort_none hop]
  case abort => exact ⟨_, (exec_crcAbort hup).trans (congrArg _ (State.crcCtlWrite_abort hbound)), State.crcAbort_ends hop⟩
  case claim => exact ⟨_, exec_crcClaimRead hup, s.crcClaim_reads d k⟩
  case release =>
    have hfree : ¬s.crcBound d k = true := by rw [hbound]; exact Bool.false_ne_true
    refine ⟨_, (exec_crcClaimRelease hup).trans (congrArg _ (if_neg hfree)), ?_, only_setReg s _ _⟩
    exact (congrArg (getBits · 0 1) (s.reg_setReg_same _ _)).trans (by decide)
  case noOp => rw [exec_crcOpDone, State.crcFinish_none hop]
  case ends => exact ⟨_, exec_crcOpDone d k s, State.crcFinish_ends hop⟩
  case unit =>
    obtain ⟨hv, hb, honly⟩ := State.crcDone_reads u d k (crcFeed (s.crcPoly d k) (s.crcValue d k) bs) hhi true false false
    obtain ⟨-, hdone, herr⟩ := (u.crcDone d k (crcFeed (s.crcPoly d k) (s.crcValue d k) bs) len).crcStatus_reads d k false true false false
    exact ⟨_, (exec_crcOpDone d k s).trans (congrArg _ (State.crcFinish_unit hop hlo hhi hread)), hv, hdone, herr, hb, honly⟩

end Sys2Proof.Machine
end

section
/-!
PROOFS. The recorder's commands (R428 to R432): streaming copies, REC_READ, and the attempts to clear. An attempt that succeeds moves
the TAIL of a die and is recorded on the root die: that a record moves the recorder's registers of its own die alone is shown first.
-/
namespace Sys2Proof.Machine

/-! ## A record on one die (R425) -/

/-- Registers differ at most at the three of die e that a record moves. -/
def RecordedOn (e : Nat) (s t : State) : Prop := ∀ a, a ≠ R.REC_HEAD e → a ≠ R.REC_TAIL e → a ≠ R.REC_CNT e → t.reg a = s.reg a

theorem RecordedOn.wr {e : Nat} {s t : State} (h : RecordedOn e s t) (f : Fld) (v : Nat)
    (hf : f.reg = R.REC_HEAD e ∨ f.reg = R.REC_TAIL e ∨ f.reg = R.REC_CNT e) : RecordedOn e s (t.wr f v) := by
  intro a hh ht hc
  refine (State.reg_wr_ne _ _ _ ?_).trans (h a hh ht hc)
  rintro rfl
  rcases hf with hf | hf | hf
  · exact hh hf
  · exact ht hf
  · exact hc hf

theorem RecordedOn.incHead {e : Nat} {s t : State} (h : RecordedOn e s t) : RecordedOn e s (t.incWrap (F.REC_HEAD_SEQ e)) := h.wr _ _ (.inl rfl)

theorem State.recNew_on (s : State) (e : Nat) (x : Event) : RecordedOn e s (s.recNew e x) := by
  unfold State.recNew
  extract_lets head ws u
  have hu : RecordedOn e s u := RecordedOn.incHead (fun _ _ _ _ => rfl)
  clear_value u
  split
  · exact (hu.wr _ _ (.inr (.inl rfl))).wr _ _ (.inr (.inr rfl))
  · exact hu

theorem State.record_on (s : State) (e : Nat) (x : Event) : RecordedOn e s (s.record e x) := by
  unfold State.record
  extract_lets folds u slot ws
  have hu : RecordedOn e s u := fun _ _ _ _ => rfl
  clear_value folds u slot ws
  split
  · split
    · exact hu
    · have hsat : RecordedOn e s ((u.setRec e slot (ws.set 4 (BitVec.ofNat 32 (wordAt ws 4 ||| 2 ^ 20)))).inc (F.REC_CNT_SATURATED e)) :=
        RecordedOn.wr hu _ _ (.inr (.inr rfl))
      exact fun a hh ht hc => (State.recNew_on _ e _ a hh ht hc).trans (hsat a hh ht hc)
  · exact fun a hh ht hc => (State.recNew_on u e x a hh ht hc).trans (hu a hh ht hc)

/-- R425: an event of the root's recorder leaves the TAIL of the other dies. -/
theorem State.tail_event {s : State} {d : Nat} (hd : d ≠ 0) (code a0 a1 a2 : Nat) :
    (s.event pRec code a0 a1 a2).rd (F.REC_TAIL_SEQ d) = s.rd (F.REC_TAIL_SEQ d) := by
  have hroot : pathDie pRec = 0 := by decide
  have hrec := s.record_on 0 ⟨pRec, code, 0, a0, a1, a2, none⟩
  have hne : ∀ o, o < 0x4000000 → R.REC_TAIL d ≠ o := by
    intro o ho
    simp only [R.REC_TAIL, dieBase]
    omega
  rw [State.event, hroot]
  exact congrArg (getBits · 0 32) (hrec _ (hne _ (by decide)) (hne _ (by decide)) (hne _ (by decide)))

/-! ## Streaming (R428) -/

section
variable {d : Fin 8} {s : State}

theorem exec_recStreamCopy (d : Fin 8) (s : State) :
    exec (.recStreamCopy d) s = .next (s.when (s.on F.REC_STREAM_EN && decide (d.val ≤ s.crowns)) fun s => s.streamCopy d) := rfl

/-- The newest record, whose HOLD_US has not passed. -/
def State.recYoung (s : State) (d c : Nat) : Prop :=
  s.newestOf d c = true ∧ s.cycle < mapGet (fun _ => 0) s.recorder.newAt d + 400 * max 1 (s.rd F.REC_STREAM_HOLD_US)

theorem State.streamCopy_none {d : Nat} (h : s.copyNext d = s.rd (F.REC_HEAD_SEQ d) ∨ s.recYoung d (s.copyNext d)) : s.streamCopy d = s := if_pos h

theorem State.streams_setCopied (s : State) (d c : Nat) (ws : List Word) (gs : List Nat) : (s.setCopied d c).streams ws gs = s.streams ws gs := rfl

theorem State.rd_setCopied (s : State) (d c : Nat) (f : Fld) : (s.setCopied d c).rd f = s.rd f := rfl

theorem State.streamCopy_next {d : Nat} (h : ¬(s.copyNext d = s.rd (F.REC_HEAD_SEQ d) ∨ s.recYoung d (s.copyNext d))) : s.streamCopy d =
    if s.streams (s.recAt d (s.copyNext d % recN d)) (mapGet (fun _ => []) s.recorder.groves (d * 16384 + s.copyNext d % recN d)) = true then
      (s.setCopied d ((s.copyNext d + 1) % 2 ^ 32)).copyOut (s.rd F.REC_STREAM_RING) (s.recAt d (s.copyNext d % recN d))
    else s.setCopied d ((s.copyNext d + 1) % 2 ^ 32) := by
  refine (if_neg h).trans ?_
  generalize hp : s.setCopied d ((s.copyNext d + 1) % 2 ^ 32) = p
  have hs : ∀ ws gs, p.streams ws gs = s.streams ws gs := fun ws gs => by rw [← hp, State.streams_setCopied]
  have hr : p.rd F.REC_STREAM_RING = s.rd F.REC_STREAM_RING := by rw [← hp, State.rd_setCopied]
  rw [← hs, ← hr]

theorem State.copyOut_lost {r : Nat} {ws : List Word} (h : s.activeRing r 4 = false) : s.copyOut r ws = s.inc F.REC_CNT_S_LOST :=
  if_neg (by rw [h]; exact Bool.false_ne_true)

end

/-! ## REC_READ (R432) -/

/-- The reserved bits of a REC_READ's body are zero. -/
theorem recRead_reserved {ws : List Word} (h7 : fieldAt ws 7 15 17 = 0) (h8 : fieldAt ws 8 15 17 = 0) (hbody : ∀ k, 9 ≤ k → k ≤ 14 → ws.getD k 0 = 0) :
    ((7, 0xFFFF8000) :: (8, 0xFFFF8000) :: bodyZero 9 14).any (fun (k, m) => ws.getD k 0 &&& m != 0) = false := by
  rw [List.any_eq_false]
  intro p hp
  simp only [bne_iff_ne, Decidable.not_not]
  rcases List.mem_cons.1 hp with rfl | hp
  · exact and_onesFrom_eq_zero (lo := 15) h7
  · rcases List.mem_cons.1 hp with rfl | hp
    · exact and_onesFrom_eq_zero (lo := 15) h8
    · obtain ⟨k, hk, rfl⟩ := List.mem_map.1 hp
      have hlt := List.mem_range.1 hk
      rw [hbody (9 + k) (by omega) (by omega)]
      exact BitVec.zero_and

/-! ## Clearing (R431) -/

theorem exec_recClrGo (s : State) : exec .recClrGo s = .next (s.recGo 1) := rfl

theorem exec_recClearChecked (s : State) : exec .recClearChecked s = .next (s.when (s.on F.REC_CLR_STATUS_BUSY) State.clearChecked) := rfl

/-- HEAD of the named die, latched at GO. -/
def State.headLatched (s : State) : State := { s with recorder := { s.recorder with clrHead := s.rd (F.REC_HEAD_SEQ (s.rd F.REC_CLR_DIE_DIE)) } }

theorem State.recGo_busy {s : State} (h : s.on F.REC_CLR_STATUS_BUSY = true) : s.recGo 1 = s.inc F.REC_CLR_STATUS_IGNORED :=
  (if_neg (by decide)).trans (if_pos h)

theorem State.recGo_starts {s : State} (h : s.on F.REC_CLR_STATUS_BUSY = false) : s.recGo 1 = s.headLatched.wr F.REC_CLR_STATUS_BUSY 1 :=
  (if_neg (by decide)).trans (if_neg (by rw [h]; exact Bool.false_ne_true))

/-- What every attempt leaves: the result, BUSY clear, and a new challenge. -/
def State.clearShown (s : State) : State :=
  (((s.wr F.REC_CLR_STATUS_RESULT s.clearResult).wr F.REC_CLR_STATUS_BUSY 0).forRange 4 fun w s => s.wr (F.REC_CHALw_CHAL w) (s.free (20 + w))).tick

theorem State.clearChecked_eq (s : State) : s.clearChecked =
    if s.clearResult = 1 then
      ((s.clearShown.wr (F.REC_TAIL_SEQ (s.rd F.REC_CLR_DIE_DIE)) (s.rd F.REC_CLR_UPTO_SEQ)).wr F.REC_CLR_STATUS_FAILS 0).event pRec 0xFC03 0xFFFF
        (s.rd (F.REC_TAIL_SEQ (s.rd F.REC_CLR_DIE_DIE))) (s.rd F.REC_CLR_UPTO_SEQ)
    else
      (if (s.clearShown.inc F.REC_CLR_STATUS_FAILS).rd F.REC_CLR_STATUS_FAILS = 8 then
        (s.clearShown.inc F.REC_CLR_STATUS_FAILS).wr F.REC_CLR_STATUS_LOCKED 1 else s.clearShown.inc F.REC_CLR_STATUS_FAILS).event
        pRec 0xFC04 0xFFFF (s.rd F.REC_CLR_DIE_DIE) s.clearResult := rfl

theorem State.clearResult_lt (s : State) : s.clearResult < 2 ^ 3 := by
  simp only [State.clearResult]
  split
  · decide
  split
  · decide
  split
  · decide
  split
  · decide
  split <;> decide

section
variable (s : State)

/-- The challenge's words are no part of STATUS. -/
theorem State.rd_challenge {f : Fld} (hf : f.reg = R.REC_CLR_STATUS) (n : Nat) (hn : n ≤ 4) :
    (s.forRange n fun w s => s.wr (F.REC_CHALw_CHAL w) (s.free (20 + w))).rd f = s.rd f := by
  induction n with
  | zero => rfl
  | succ n ih =>
    rw [State.forRange_succ]
    refine (State.rd_wr_off _ _ ?_).trans (ih (by omega))
    rw [hf]
    simp only [R.REC_CLR_STATUS, F.REC_CHALw_CHAL, R.REC_CHALw]
    omega

/-- A field of STATUS beside RESULT and BUSY. -/
theorem State.rd_clearShown {f : Fld} (hf : f.reg = R.REC_CLR_STATUS)
    (h : (s.wr F.REC_CLR_STATUS_RESULT s.clearResult).rd f = s.rd f ∧
      ((s.wr F.REC_CLR_STATUS_RESULT s.clearResult).wr F.REC_CLR_STATUS_BUSY 0).rd f = (s.wr F.REC_CLR_STATUS_RESULT s.clearResult).rd f) :
    s.clearShown.rd f = s.rd f := by
  rw [State.clearShown, State.rd_tick, State.rd_challenge _ hf 4 (by decide), h.2, h.1]

theorem State.clearShown_reads :
    s.clearShown.rd F.REC_CLR_STATUS_RESULT = s.clearResult ∧ s.clearShown.rd F.REC_CLR_STATUS_BUSY = 0 ∧
      s.clearShown.rd F.REC_CLR_STATUS_FAILS = s.rd F.REC_CLR_STATUS_FAILS ∧ s.clearShown.rd F.REC_CLR_STATUS_LOCKED = s.rd F.REC_CLR_STATUS_LOCKED := by
  refine ⟨?_, ?_, ?_, ?_⟩
  · rw [State.clearShown, State.rd_tick, State.rd_challenge _ rfl 4 (by decide)]
    exact (State.rd_wr_beside _ _ rfl rfl).trans ((State.rd_wr_eq _ _ _ rfl).trans (Nat.mod_eq_of_lt s.clearResult_lt))
  · rw [State.clearShown, State.rd_tick, State.rd_challenge _ rfl 4 (by decide)]
    exact State.rd_wr_eq _ _ _ rfl
  · exact s.rd_clearShown rfl ⟨State.rd_wr_beside _ _ rfl rfl, State.rd_wr_beside _ _ rfl rfl⟩
  · exact s.rd_clearShown rfl ⟨State.rd_wr_beside _ _ rfl rfl, State.rd_wr_beside _ _ rfl rfl⟩

theorem Only.tick {as : List Nat} {s t : State} (h : Only as s t) : Only as s.tick t.tick := by
  refine ⟨h.1, ?_⟩
  have hrest := h.2
  rw [OnlyRegs] at hrest ⊢
  rw [hrest]
  rfl

/-- A write of a register of the recorder, which no frame speaks of. -/
theorem Only.wr_recorder {as : List Nat} {s t : State} (h : Only as s t) (f : Fld) (v : Nat) (hf : recReg f.reg = true) : Only as s (t.wr f v) :=
  h.trans (((Recorded.refl t).wr f v hf).only as)

/-- The four words of the challenge. -/
theorem only_challenge {as : List Nat} (n : Nat) (h : ∀ i < n, R.REC_CHALw i ∈ as) :
    Only as s (s.forRange n fun w s => s.wr (F.REC_CHALw_CHAL w) (s.free (20 + w))) := by
  induction n with
  | zero => exact .refl _ s
  | succ n ih =>
    rw [State.forRange_succ]
    exact (ih fun i hi => h i (by omega)).wr _ _ (h n (by omega))

theorem State.clearShown_only : Only (R.REC_CLR_STATUS :: (List.range 4).map R.REC_CHALw) s.tick s.clearShown := by
  have hstatus : Only (R.REC_CLR_STATUS :: (List.range 4).map R.REC_CHALw) s
      ((s.wr F.REC_CLR_STATUS_RESULT s.clearResult).wr F.REC_CLR_STATUS_BUSY 0) :=
    .wr (.wr (.refl _ s) F.REC_CLR_STATUS_RESULT _ (.head _)) F.REC_CLR_STATUS_BUSY 0 (.head _)
  refine Only.tick (hstatus.trans ?_)
  refine only_challenge _ 4 fun i hi => .tail _ (List.mem_map_of_mem (List.mem_range.2 hi))

end

/-- The state of a successful attempt. -/
def State.clearMoved (s : State) : State :=
  (s.clearShown.wr (F.REC_TAIL_SEQ (s.rd F.REC_CLR_DIE_DIE)) (s.rd F.REC_CLR_UPTO_SEQ)).wr F.REC_CLR_STATUS_FAILS 0

/-- The state of a failed attempt. -/
def State.clearCounted (s : State) : State :=
  if (s.clearShown.inc F.REC_CLR_STATUS_FAILS).rd F.REC_CLR_STATUS_FAILS = 8 then (s.clearShown.inc F.REC_CLR_STATUS_FAILS).wr F.REC_CLR_STATUS_LOCKED 1
  else s.clearShown.inc F.REC_CLR_STATUS_FAILS

section
variable {s : State}

theorem State.clearChecked_success (h : s.clearResult = 1) : s.clearChecked =
    s.clearMoved.event pRec 0xFC03 0xFFFF (s.rd (F.REC_TAIL_SEQ (s.rd F.REC_CLR_DIE_DIE))) (s.rd F.REC_CLR_UPTO_SEQ) := by
  rw [State.clearChecked_eq, if_pos h, State.clearMoved]

theorem State.clearChecked_failure (h : s.clearResult ≠ 1) :
    s.clearChecked = s.clearCounted.event pRec 0xFC04 0xFFFF (s.rd F.REC_CLR_DIE_DIE) s.clearResult := by
  rw [State.clearChecked_eq, if_neg h, State.clearCounted]

theorem tail_ne_clrStatus (d : Nat) : R.REC_CLR_STATUS ≠ R.REC_TAIL d := by
  simp only [R.REC_CLR_STATUS, R.REC_TAIL, dieBase]
  omega

/-- A field of STATUS beside FAILS. -/
theorem State.rd_clearMoved (s : State) {f : Fld} (hf : f.reg = R.REC_CLR_STATUS)
    (h : ((s.clearShown.wr (F.REC_TAIL_SEQ (s.rd F.REC_CLR_DIE_DIE)) (s.rd F.REC_CLR_UPTO_SEQ)).wr F.REC_CLR_STATUS_FAILS 0).rd f =
      (s.clearShown.wr (F.REC_TAIL_SEQ (s.rd F.REC_CLR_DIE_DIE)) (s.rd F.REC_CLR_UPTO_SEQ)).rd f) : s.clearMoved.rd f = s.clearShown.rd f := by
  rw [State.clearMoved, h]
  exact State.rd_wr_off _ _ (by rw [hf]; exact tail_ne_clrStatus _)

theorem State.clearMoved_reads (s : State) :
    s.clearMoved.rd F.REC_CLR_STATUS_RESULT = s.clearResult ∧ s.clearMoved.rd F.REC_CLR_STATUS_BUSY = 0 ∧
      s.clearMoved.rd F.REC_CLR_STATUS_FAILS = 0 ∧ s.clearMoved.rd F.REC_CLR_STATUS_LOCKED = s.rd F.REC_CLR_STATUS_LOCKED ∧
      s.clearMoved.rd (F.REC_TAIL_SEQ (s.rd F.REC_CLR_DIE_DIE)) = s.rd F.REC_CLR_UPTO_SEQ := by
  obtain ⟨hres, hbusy, -, hlocked⟩ := s.clearShown_reads
  refine ⟨?_, ?_, State.rd_wr_eq _ _ _ rfl, ?_, ?_⟩
  · exact (s.rd_clearMoved rfl (State.rd_wr_beside _ _ rfl rfl)).trans hres
  · exact (s.rd_clearMoved rfl (State.rd_wr_beside _ _ rfl rfl)).trans hbusy
  · exact (s.rd_clearMoved rfl (State.rd_wr_beside _ _ rfl rfl)).trans hlocked
  · refine (State.rd_wr_off _ _ (tail_ne_clrStatus _).symm).trans ((State.rd_wr_eq _ _ _ rfl).trans (Nat.mod_eq_of_lt ?_))
    exact s.rd_lt F.REC_CLR_UPTO_SEQ

theorem State.clearMoved_only (s : State) : Only (R.REC_CLR_STATUS :: (List.range 4).map R.REC_CHALw) s.tick s.clearMoved :=
  .wr (s.clearShown_only.wr_recorder _ _ (recReg_tail _)) F.REC_CLR_STATUS_FAILS 0 (.head _)

theorem State.clearCounted_reads (s : State) :
    s.clearCounted.rd F.REC_CLR_STATUS_RESULT = s.clearResult ∧ s.clearCounted.rd F.REC_CLR_STATUS_BUSY = 0 ∧
      s.clearCounted.rd F.REC_CLR_STATUS_FAILS = min (s.rd F.REC_CLR_STATUS_FAILS + 1) 15 ∧
      s.clearCounted.rd F.REC_CLR_STATUS_LOCKED = if s.rd F.REC_CLR_STATUS_FAILS = 7 then 1 else s.rd F.REC_CLR_STATUS_LOCKED := by
  obtain ⟨hres, hbusy, hfails, hlocked⟩ := s.clearShown_reads
  have hcount : (s.clearShown.inc F.REC_CLR_STATUS_FAILS).rd F.REC_CLR_STATUS_FAILS = min (s.rd F.REC_CLR_STATUS_FAILS + 1) 15 :=
    (State.rd_inc_eq _ _ rfl).trans (by rw [hfails]; rfl)
  have hres' : (s.clearShown.inc F.REC_CLR_STATUS_FAILS).rd F.REC_CLR_STATUS_RESULT = s.clearResult := (State.rd_wr_beside _ _ rfl rfl).trans hres
  have hbusy' : (s.clearShown.inc F.REC_CLR_STATUS_FAILS).rd F.REC_CLR_STATUS_BUSY = 0 := (State.rd_wr_beside _ _ rfl rfl).trans hbusy
  have hlocked' : (s.clearShown.inc F.REC_CLR_STATUS_FAILS).rd F.REC_CLR_STATUS_LOCKED = s.rd F.REC_CLR_STATUS_LOCKED :=
    (State.rd_wr_beside _ _ rfl rfl).trans hlocked
  rw [State.clearCounted, hcount]
  by_cases h7 : s.rd F.REC_CLR_STATUS_FAILS = 7
  · rw [if_pos (by omega), if_pos h7]
    exact ⟨(State.rd_wr_beside _ _ rfl rfl).trans hres', (State.rd_wr_beside _ _ rfl rfl).trans hbusy', (State.rd_wr_beside _ _ rfl rfl).trans hcount, State.rd_wr_eq _ _ _ rfl⟩
  · rw [if_neg (by omega), if_neg h7]
    exact ⟨hres', hbusy', hcount, hlocked'⟩

theorem State.clearCounted_only (s : State) : Only (R.REC_CLR_STATUS :: (List.range 4).map R.REC_CHALw) s.tick s.clearCounted := by
  have hcount := s.clearShown_only.inc F.REC_CLR_STATUS_FAILS (.head _)
  rw [State.clearCounted]
  split
  · exact hcount.wr F.REC_CLR_STATUS_LOCKED 1 (.head _)
  · exact hcount

end

/-- A field of STATUS after the event that records an attempt. -/
theorem State.rd_clrEvent (s : State) (code a0 a1 a2 : Nat) {f : Fld} (hf : f.reg = R.REC_CLR_STATUS) :
    (s.event pRec code a0 a1 a2).rd f = s.rd f :=
  (s.event_recorded pRec code a0 a1 a2 none).rd f (by rw [hf]; decide)

/-- Settles O55: the streaming copy by what is due, REC_READ by its reserved bits, and the attempts to clear by their result. -/
theorem recorderCommands : Obligations.RecorderCommands := by
  refine ⟨fun d s => ⟨fun hno => ?off, fun hno => ?nothing, fun hon hdie hc hold => ⟨fun hfil => ?filtered, fun hfil => ?copied⟩⟩,
    fun r ws s hring => ?lost, fun r s x hd h7 h8 hbody => ?read,
    fun s => ⟨fun hbusy => ?ignored, fun hidle => ?latched, fun hidle => ?noAttempt, fun hbusy => ?checked⟩⟩
  case off =>
    have hcond : (s.on F.REC_STREAM_EN && decide (d.val ≤ s.crowns)) = false := by
      rcases hno with h | h
      · rw [h, Bool.false_and]
      · rw [decide_eq_false (Nat.not_le.2 h), Bool.and_false]
    rw [exec_recStreamCopy, hcond, State.when_false]
  case nothing =>
    rw [exec_recStreamCopy]
    cases hcond : (s.on F.REC_STREAM_EN && decide (d.val ≤ s.crowns)) with
    | false => rw [State.when_false]
    | true => rw [State.when_true, State.streamCopy_none hno]
  case filtered =>
    have hno : ¬s.streams (s.recAt d (s.copyNext d % recN d)) (mapGet (fun _ => []) s.recorder.groves (d * 16384 + s.copyNext d % recN d)) = true := by
      rw [hfil]
      exact Bool.false_ne_true
    refine ⟨s.setCopied d ((s.copyNext d + 1) % 2 ^ 32), ?_, mapGet_set_same _ s.recorder.copied d _, rfl⟩
    rw [exec_recStreamCopy, hon, decide_eq_true hdie, Bool.and_true, State.when_true, State.streamCopy_next (fun h => h.elim hc hold), if_neg hno]
  case copied =>
    rw [exec_recStreamCopy, hon, decide_eq_true hdie, Bool.and_true, State.when_true, State.streamCopy_next (fun h => h.elim hc hold), if_pos hfil]
  case lost =>
    rw [State.copyOut_lost hring]
    exact ⟨State.rd_inc_eq _ _ rfl, only_inc s F.REC_CNT_S_LOST⟩
  case read => exact congrArg Host.Outcome.next (State.dispatch_works hd (recRead_reserved h7 h8 hbody) rfl)
  case ignored =>
    exact ⟨_, (exec_recClrGo s).trans (congrArg _ (State.recGo_busy hbusy)), State.rd_inc_eq _ _ rfl, only_inc s F.REC_CLR_STATUS_IGNORED⟩
  case latched =>
    have honly := only_wr s.headLatched F.REC_CLR_STATUS_BUSY 1
    refine ⟨_, (exec_recClrGo s).trans (congrArg _ (State.recGo_starts hidle)), beq_iff_eq.2 (State.rd_wr_eq _ _ _ rfl), ?_, ⟨honly.1, ?_⟩⟩
    · exact (State.wr_recorder _ _ _)
    · rw [OnlyRegs, honly.2]
      rfl
  case noAttempt => rw [exec_recClearChecked, hidle, State.when_false]
  case checked =>
    refine ⟨_, (exec_recClearChecked s).trans (by rw [hbusy, State.when_true]), ?_⟩
    by_cases hres : s.clearResult = 1
    · obtain ⟨hr, hb, hf, hl, ht⟩ := s.clearMoved_reads
      rw [State.clearChecked_success hres]
      refine ⟨(State.rd_clrEvent _ _ _ _ _ rfl).trans hr, ?_, fun _ => ⟨?_, ?_, fun hd => ?_⟩, fun h => absurd hres h, ?_⟩
      · exact beq_eq_false_iff_ne.2 (by rw [State.rd_clrEvent _ _ _ _ _ rfl, hb]; decide)
      · exact (State.rd_clrEvent _ _ _ _ _ rfl).trans hf
      · exact (State.rd_clrEvent _ _ _ _ _ rfl).trans hl
      · exact (State.tail_event hd _ _ _ _).trans ht
      · exact (s.clearMoved_only.event _ _ _ _ _).of_tick
    · obtain ⟨hr, hb, hf, hl⟩ := s.clearCounted_reads
      rw [State.clearChecked_failure hres]
      refine ⟨(State.rd_clrEvent _ _ _ _ _ rfl).trans hr, ?_, fun h => absurd h hres, fun _ => ⟨?_, ?_⟩, ?_⟩
      · exact beq_eq_false_iff_ne.2 (by rw [State.rd_clrEvent _ _ _ _ _ rfl, hb]; decide)
      · exact (State.rd_clrEvent _ _ _ _ _ rfl).trans hf
      · exact (State.rd_clrEvent _ _ _ _ _ rfl).trans hl
      · exact (s.clearCounted_only.event _ _ _ _ _).of_tick

end Sys2Proof.Machine
end

section
/-!
PROOFS. Temperature samples, power slots and domains, and mode requests (R434, R446, R449, R450, R455).
-/
namespace Sys2Proof.Machine

/-! ## What the sensors show (R446) -/

/-- The writes of the sensors from number n on. -/
def State.showSens (s : State) (d n : Nat) (ts : List Int) : State :=
  (ts.zipIdx n).foldl (fun s (t, i) => (s.wrS (F.PWR_THERM_SENSs_TEMP d i) t).wr (F.PWR_THERM_SENSs_VALID d i) 1) s

theorem State.showSens_cons (s : State) (d n : Nat) (t : Int) (ts : List Int) : s.showSens d n (t :: ts) =
    ((s.wrS (F.PWR_THERM_SENSs_TEMP d n) t).wr (F.PWR_THERM_SENSs_VALID d n) 1).showSens d (n + 1) ts := rfl

theorem thermSens_ne {d i k : Nat} (h : i ≠ k) : R.PWR_THERM_SENSs d i ≠ R.PWR_THERM_SENSs d k := by
  simp only [R.PWR_THERM_SENSs]
  omega

/-- The sensors from n on leave an earlier one's registers. -/
theorem State.rd_showSens_below (s : State) (d : Nat) {n k : Nat} (ts : List Int) (h : k < n) {f : Fld} (hf : f.reg = R.PWR_THERM_SENSs d k) :
    (s.showSens d n ts).rd f = s.rd f := by
  induction ts generalizing s n with
  | nil => rfl
  | cons t ts ih =>
    have hne : f.reg ≠ R.PWR_THERM_SENSs d n := hf ▸ thermSens_ne (by omega)
    rw [State.showSens_cons, ih _ (by omega)]
    exact (State.rd_wr_off _ _ hne).trans (State.rd_wr_off _ _ hne)

theorem State.showSens_reads (s : State) (d n : Nat) {ts : List Int} (hts : ∀ t ∈ ts, -128 ≤ t ∧ t ≤ 127) {k : Nat} (hk : k < ts.length) :
    (s.showSens d n ts).rdS (F.PWR_THERM_SENSs_TEMP d (n + k)) = ts.getD k 0 ∧ (s.showSens d n ts).rd (F.PWR_THERM_SENSs_VALID d (n + k)) = 1 := by
  induction ts generalizing s n k with
  | nil => exact absurd hk (Nat.not_lt_zero k)
  | cons t ts ih =>
    rw [State.showSens_cons]
    cases k with
    | zero =>
      obtain ⟨hlo, hhi⟩ := hts t (.head _)
      constructor
      · refine (congrArg (signed 8) ((State.rd_showSens_below _ d ts (Nat.lt_succ_self n) rfl).trans (State.rd_wr_beside _ _ rfl rfl))).trans ?_
        exact (State.rdS_wrS_same _ (f := F.PWR_THERM_SENSs_TEMP d n) _ (by decide : 0 + 8 ≤ 32) (by decide : 0 < 8)).trans (clampS_of_mem hlo hhi)
      · exact (State.rd_showSens_below _ d ts (Nat.lt_succ_self n) rfl).trans (State.rd_wr_eq _ _ _ rfl)
    | succ k =>
      have h := ih ((s.wrS (F.PWR_THERM_SENSs_TEMP d n) t).wr (F.PWR_THERM_SENSs_VALID d n) 1) (n + 1) (fun t ht => hts t (.tail _ ht)) (Nat.lt_of_succ_lt_succ hk)
      rwa [Nat.add_right_comm n 1 k] at h

theorem only_showSens {as : List Nat} (s : State) (d n : Nat) (ts : List Int) (h : ∀ i, n ≤ i → i < n + ts.length → R.PWR_THERM_SENSs d i ∈ as) :
    Only as s (s.showSens d n ts) := by
  induction ts generalizing s n with
  | nil => exact .refl _ _
  | cons t ts ih =>
    have hn : R.PWR_THERM_SENSs d n ∈ as := h n (Nat.le_refl n) (by simp)
    rw [State.showSens_cons]
    refine Only.trans (.wr (.wrS (.refl _ _) (F.PWR_THERM_SENSs_TEMP d n) t hn) (F.PWR_THERM_SENSs_VALID d n) 1 hn) (ih _ _ fun i hlo hhi => h i (by omega) ?_)
    simp only [List.length_cons]
    omega

/-- The highest of the readings. -/
def maxTemp (ts : List Int) : Int := ts.foldl max (ts.headD 0)

theorem le_foldl_max (ts : List Int) (m : Int) : m ≤ ts.foldl max m ∧ ∀ t ∈ ts, t ≤ ts.foldl max m := by
  induction ts generalizing m with
  | nil => exact ⟨Int.le_refl m, fun _ h => nomatch h⟩
  | cons a ts ih =>
    obtain ⟨hm, hts⟩ := ih (max m a)
    refine ⟨Int.le_trans (Int.le_max_left m a) hm, fun t ht => ?_⟩
    rcases List.mem_cons.1 ht with rfl | ht
    · exact Int.le_trans (Int.le_max_right m t) hm
    · exact hts t ht

theorem foldl_max_mem (ts : List Int) (m : Int) : ts.foldl max m = m ∨ ts.foldl max m ∈ ts := by
  induction ts generalizing m with
  | nil => exact .inl rfl
  | cons a ts ih =>
    rcases ih (max m a) with h | h
    · rcases max_choice m a with hm | hm
      · exact .inl (h.trans hm)
      · exact .inr (List.mem_cons.2 (.inl (h.trans hm)))
    · exact .inr (.tail _ h)

theorem maxTemp_mem {ts : List Int} (h : ts ≠ []) : maxTemp ts ∈ ts := by
  cases ts with
  | nil => exact absurd rfl h
  | cons a ts => exact (foldl_max_mem (a :: ts) a).elim (fun e => List.mem_cons.2 (.inl e)) id

section
variable (s : State) (d : Nat) (ts : List Int)

/-- The dies above ALARM, as a list that is written whole. -/
def State.setHotDies (l : List Nat) : State := { s with rst := { s.rst with hotDies := l } }

theorem State.rd_setHotDies (l : List Nat) (f : Fld) : (s.setHotDies l).rd f = s.rd f := rfl

theorem State.hotDies_setHotDies (l : List Nat) : (s.setHotDies l).rst.hotDies = l := rfl

theorem Only.setHotDies {as : List Nat} {s t : State} (h : Only as s t) (l : List Nat) : Only as (s.setHotDies l) (t.setHotDies l) := by
  obtain ⟨hregs, hrest⟩ := h
  exact ⟨fun a ha hr => hregs a ha hr, by rw [OnlyRegs] at hrest ⊢; rw [hrest]; rfl⟩

/-- Some reading is above ALARM. -/
def State.thermHot : Bool := decide ((s.rd (F.PWR_THERM_CFG_ALARM d) : Int) < maxTemp ts)

/-- The registers of a sample: the sensors, the maximum and the alarm. -/
def State.showThermRegs : State :=
  ((s.showSens d 0 ts).wrS (F.PWR_THERM_STATUS_MAX d) (maxTemp ts)).wr (F.PWR_THERM_STATUS_ALARM d) (bit (s.thermHot d ts))

theorem State.showTherm_eq : s.showTherm d ts =
    (s.showThermRegs d ts).setHotDies ((s.showThermRegs d ts).rst.hotDies.filter (· != d) ++
      if (s.rd (F.PWR_THERM_CFG_ALARM d) : Int) < (maxTemp ts) then [d] else []) := rfl

variable {ts}

theorem only_showThermRegs (hlen : ts.length = 8) :
    Only (R.PWR_THERM_STATUS d :: (List.range 8).map (R.PWR_THERM_SENSs d)) s (s.showThermRegs d ts) := by
  refine .wr (.wrS (only_showSens s d 0 ts fun i _ hi => ?_) (F.PWR_THERM_STATUS_MAX d) _ (.head _)) (F.PWR_THERM_STATUS_ALARM d) _ (.head _)
  exact .tail _ (List.mem_map.2 ⟨i, List.mem_range.2 (by omega), rfl⟩)

variable {d} (hd : d < 8) (hlen : ts.length = 8) (hts : ∀ t ∈ ts, -128 ≤ t ∧ t ≤ 127)
include hd

theorem thermStatus_ne_sens (i : Nat) : R.PWR_THERM_STATUS d ≠ R.PWR_THERM_SENSs d i := by
  simp only [R.PWR_THERM_STATUS, R.PWR_THERM_SENSs, dieBase, periphBase]
  omega

theorem State.rd_showThermRegs_sens {f : Fld} {i : Nat} (hf : f.reg = R.PWR_THERM_SENSs d i) : (s.showThermRegs d ts).rd f = (s.showSens d 0 ts).rd f := by
  have hne : f.reg ≠ R.PWR_THERM_STATUS d := hf ▸ (thermStatus_ne_sens hd i).symm
  exact (State.rd_wr_off _ _ hne).trans (State.rd_wr_off _ _ hne)

theorem State.rd_showSens_tripped : (s.showSens d 0 ts).rd (F.PWR_THERM_STATUS_TRIPPED d) = s.rd (F.PWR_THERM_STATUS_TRIPPED d) := by
  refine (only_showSens (as := (List.range ts.length).map (R.PWR_THERM_SENSs d)) s d 0 ts fun i _ hi => List.mem_map.2 ⟨i, List.mem_range.2 (by omega), rfl⟩).rd ?_ ?_
  · intro h
    obtain ⟨i, -, hi⟩ := List.mem_map.1 h
    exact thermStatus_ne_sens hd i hi.symm
  · simp only [recReg, F.PWR_THERM_STATUS_TRIPPED, R.PWR_THERM_STATUS, dieBase, Bool.or_eq_false_iff, beq_eq_false_iff_ne]
    omega

theorem State.showThermRegs_tripped : (s.showThermRegs d ts).on (F.PWR_THERM_STATUS_TRIPPED d) = s.on (F.PWR_THERM_STATUS_TRIPPED d) := by
  refine State.on_of_rd ?_
  rw [← s.rd_showSens_tripped hd (ts := ts)]
  exact (State.rd_wr_beside _ _ (f := F.PWR_THERM_STATUS_ALARM d) (g := F.PWR_THERM_STATUS_TRIPPED d) rfl rfl).trans
    (State.rd_wr_beside _ _ (f := F.PWR_THERM_STATUS_MAX d) (g := F.PWR_THERM_STATUS_TRIPPED d) rfl rfl)

omit hd

theorem State.showThermRegs_alarm : (s.showThermRegs d ts).rd (F.PWR_THERM_STATUS_ALARM d) = bit (s.thermHot d ts) := by
  refine (State.rd_wr_eq _ _ _ rfl).trans (Nat.mod_eq_of_lt ?_)
  cases s.thermHot d ts
  · exact (by decide : 0 < 2 ^ 1)
  · exact (by decide : 1 < 2 ^ 1)

include hlen hts

theorem State.showThermRegs_max : (s.showThermRegs d ts).rdS (F.PWR_THERM_STATUS_MAX d) = maxTemp ts := by
  obtain ⟨hlo, hhi⟩ := hts _ (maxTemp_mem (ts := ts) fun h => by simp [h] at hlen)
  refine (congrArg (signed 8) (State.rd_wr_beside _ _ rfl rfl)).trans ?_
  exact (State.rdS_wrS_same _ (f := F.PWR_THERM_STATUS_MAX d) _ (by decide : 0 + 8 ≤ 32) (by decide : 0 < 8)).trans (clampS_of_mem hlo hhi)

include hd

/-- A sample with no trip (R446). -/
theorem State.showTherm_shows :
    (∀ k, k < 8 → (s.showTherm d ts).rdS (F.PWR_THERM_SENSs_TEMP d k) = ts.getD k 0 ∧ (s.showTherm d ts).rd (F.PWR_THERM_SENSs_VALID d k) = 1) ∧
    (∀ x ∈ ts, x ≤ (s.showTherm d ts).rdS (F.PWR_THERM_STATUS_MAX d)) ∧ (s.showTherm d ts).rdS (F.PWR_THERM_STATUS_MAX d) ∈ ts ∧
    (s.showTherm d ts).rd (F.PWR_THERM_STATUS_ALARM d) = bit (decide ((s.rd (F.PWR_THERM_CFG_ALARM d) : Int) < (s.showTherm d ts).rdS (F.PWR_THERM_STATUS_MAX d))) ∧
    (s.showTherm d ts).on (F.PWR_THERM_STATUS_TRIPPED d) = s.on (F.PWR_THERM_STATUS_TRIPPED d) ∧
    (d ∈ (s.showTherm d ts).rst.hotDies ↔ (s.showTherm d ts).rd (F.PWR_THERM_STATUS_ALARM d) = 1) ∧
    Only (R.PWR_THERM_STATUS d :: (List.range 8).map (R.PWR_THERM_SENSs d)) { s with rst := { s.rst with hotDies := (s.showTherm d ts).rst.hotDies } }
      (s.showTherm d ts) := by
  have hmax := s.showThermRegs_max (d := d) hlen hts
  have halarm := s.showThermRegs_alarm (d := d) (ts := ts)
  have honly := only_showThermRegs s d hlen
  generalize hl : ((s.showThermRegs d ts).rst.hotDies.filter (· != d) ++ if (s.rd (F.PWR_THERM_CFG_ALARM d) : Int) < (maxTemp ts) then [d] else []) = l
  have heq : s.showTherm d ts = (s.showThermRegs d ts).setHotDies l := hl ▸ s.showTherm_eq d ts
  have hrd : ∀ f, (s.showTherm d ts).rd f = (s.showThermRegs d ts).rd f := fun f => heq ▸ State.rd_setHotDies _ l f
  have hrdS : (s.showTherm d ts).rdS (F.PWR_THERM_STATUS_MAX d) = maxTemp ts := (congrArg (signed 8) (hrd _)).trans hmax
  refine ⟨fun k hk => ?sens, fun x hx => ?most, ?mem, ?alarm, (State.on_of_rd (hrd _)).trans (s.showThermRegs_tripped hd), ?hot, ?frame⟩
  case sens =>
    have h := s.showSens_reads d 0 hts (k := k) (by omega)
    rw [Nat.zero_add] at h
    exact ⟨(congrArg (signed 8) ((hrd _).trans (s.rd_showThermRegs_sens hd rfl))).trans h.1, ((hrd _).trans (s.rd_showThermRegs_sens hd rfl)).trans h.2⟩
  case most => exact Int.le_trans ((le_foldl_max ts _).2 x hx) (Int.le_of_eq hrdS.symm)
  case mem => exact hrdS ▸ maxTemp_mem fun h => by simp [h] at hlen
  case alarm => rw [hrd, hrdS, halarm, State.thermHot]
  case hot =>
    rw [hrd, halarm, State.thermHot, heq, State.hotDies_setHotDies, ← hl]
    by_cases hh : (s.rd (F.PWR_THERM_CFG_ALARM d) : Int) < maxTemp ts <;> simp [hh, bit]
  case frame =>
    rw [heq]
    exact honly.setHotDies l

end

section
variable {d : Fin 8} {xs : List (Fin 256)} {s : State}

theorem signedTemps_range (xs : List (Fin 256)) : ∀ t ∈ xs.map fun x => signed 8 x.val, -128 ≤ t ∧ t ≤ 127 := by
  intro t ht
  obtain ⟨x, -, rfl⟩ := List.mem_map.1 ht
  exact signed_eight_range x.isLt

/-- A sample of a die of the package that is not in Off. -/
theorem exec_thermSample (hd : d.val ≤ s.crowns) (hlen : xs.length = 8) (hoff : s.isOff = false) :
    exec (.thermSample d xs) s = .next (s.thermSample d (xs.map fun x => signed 8 x.val)) := by
  have hg : (decide (d.val ≤ s.crowns ∧ xs.length = 8) && !s.isOff) = true := by rw [hoff, decide_eq_true ⟨hd, hlen⟩]; rfl
  change Host.Outcome.next (s.when _ _) = _
  rw [hg, State.when_true]

end

section
variable {s : State} {d : Nat} {ts : List Int}

theorem State.thermSample_trips (h : s.on (F.PWR_THERM_STATUS_TRIPPED d) = false) (ht : ∃ t ∈ ts, (s.rd (F.PWR_THERM_CFG_TRIP d) : Int) < t) :
    s.thermSample d ts = (s.trip d).showTherm d ts := by
  have hany : (ts.any fun t => decide ((s.rd (F.PWR_THERM_CFG_TRIP d) : Int) < t)) = true := by simpa using ht
  simp only [State.thermSample, h, Bool.false_eq_true, if_false, hany, if_true]

theorem State.thermSample_letsGo (h : s.on (F.PWR_THERM_STATUS_TRIPPED d) = true) (ht : ∀ t ∈ ts, t ≤ (s.rd (F.PWR_THERM_CFG_TRIP d) : Int) - 10) :
    s.thermSample d ts = (s.untrip d).showTherm d ts := by
  have hall : (ts.all fun t => decide (t ≤ (s.rd (F.PWR_THERM_CFG_TRIP d) : Int) - 10)) = true := by simpa using ht
  simp only [State.thermSample, h, hall, if_true]

theorem State.thermSample_shows
    (h : (s.on (F.PWR_THERM_STATUS_TRIPPED d) = false ∧ (∀ t ∈ ts, t ≤ (s.rd (F.PWR_THERM_CFG_TRIP d) : Int))) ∨
      (s.on (F.PWR_THERM_STATUS_TRIPPED d) = true ∧ ∃ t ∈ ts, (s.rd (F.PWR_THERM_CFG_TRIP d) : Int) - 10 < t)) :
    s.thermSample d ts = s.showTherm d ts := by
  rcases h with ⟨h, ht⟩ | ⟨h, ht⟩
  · have hany : ¬((ts.any fun t => decide ((s.rd (F.PWR_THERM_CFG_TRIP d) : Int) < t)) = true) := by simpa using ht
    simp only [State.thermSample, h, Bool.false_eq_true, if_false, hany]
  · have hall : ¬((ts.all fun t => decide (t ≤ (s.rd (F.PWR_THERM_CFG_TRIP d) : Int) - 10)) = true) := by simpa using ht
    simp only [State.thermSample, h, hall, if_true]
    rfl

end

/-! ## Power slots (R449) -/

/-- The leaf that decides a refusal is one of the reach. -/
theorem firstRefusal_range {code : Nat → Nat} {P : Nat → Prop} (h0 : P 0) (h : ∀ q, P (code q)) (ls : List Nat) : P (firstRefusal code ls) := by
  unfold firstRefusal
  split
  · exact h0
  · exact h _

theorem firstRefusal_one (code : Nat → Nat) (q : Nat) : firstRefusal code [q] = code q := by
  by_cases h : code q = 0
  · simp [firstRefusal, h]
  · simp [firstRefusal, h]

section
variable {j : Fin 32} {en on : Bool} {s : State}

theorem State.pwrCheck_lt (s : State) (off : Bool) (p : Nat) : s.pwrCheck off p < 2 ^ 16 := by
  unfold State.pwrCheck
  split
  · decide
  · refine firstRefusal_range (P := (· < 2 ^ 16)) (by decide) (fun q => ?_) _
    split
    · decide
    · split <;> decide

theorem State.pwrCheck_leaf {p q : Nat} {off : Bool} (hp : s.pathOk p = true) (hg : isGrove p = false) (hl : s.leaves p = [q]) :
    s.pwrCheck off p = if alwaysOn q then 0xD008 else if off && s.domUsed q then 0xD007 else 0 := by
  rw [State.pwrCheck, if_neg (by simp [hp, hg]), hl, firstRefusal_one]

theorem slotBits (en on : Bool) : getBits (BitVec.ofNat 32 (bit en + bit on * 2)) 0 1 = bit en ∧ getBits (BitVec.ofNat 32 (bit en + bit on * 2)) 1 1 = bit on ∧
    (BitVec.ofNat 32 (bit en + bit on * 2) &&& 3).toNat = bit en + bit on * 2 := by
  revert en on
  decide

/-- The code that refuses a slot's request. -/
def State.slotCode (s : State) (j : Nat) (en on : Bool) : Nat := if en then s.pwrCheck (!on) (s.rd (F.PWR_SLOTj_PATH_PATH j)) else 0

theorem State.slotCode_lt (s : State) (j : Nat) (en on : Bool) : s.slotCode j en on < 2 ^ 16 := by
  unfold State.slotCode
  split
  · exact s.pwrCheck_lt _ _
  · decide

theorem exec_pwrSlotEnable (hup : s.dieUp 0 = true) : exec (.pwrSlotEnable j en on) s = .next (
    if s.slotCode j en on ≠ 0 then s.pwrRefuse (s.slotCode j en on) (R.PWR_SLOTj_CTL j)
    else s.setReg (R.PWR_SLOTj_CTL j) (BitVec.ofNat 32 (bit en + bit on * 2) &&& 3)) := by
  obtain ⟨hen, hon, -⟩ := slotBits en on
  have hc : (if getBits (BitVec.ofNat 32 (bit en + bit on * 2)) 0 1 = 1 then
      s.pwrCheck (getBits (BitVec.ofNat 32 (bit en + bit on * 2)) 1 1 == 0) (s.rd (F.PWR_SLOTj_PATH_PATH j)) else 0) = s.slotCode j en on := by
    rw [hen, hon]
    cases en <;> cases on <;> rfl
  change Host.Outcome.next (s.when _ _) = _
  rw [hup, State.when_true]
  simp only [State.pwrCtlWrite, hc]

theorem pwrSlotEnable_refused (hup : s.dieUp 0 = true) (hc : s.slotCode j en on ≠ 0) : Gives (.pwrSlotEnable j en on) s fun t =>
    t.rd F.PWR_MODE_REASON = s.slotCode j en on ∧ Only [R.PWR_MODE] s t :=
  gives_refused ((exec_pwrSlotEnable hup).trans (congrArg _ (if_pos hc))) (.head _) (by decide) (s.slotCode_lt j en on)

theorem pwrSlotEnable_taken (hup : s.dieUp 0 = true) (hc : s.slotCode j en on = 0) : Gives (.pwrSlotEnable j en on) s fun t =>
    (t.reg (R.PWR_SLOTj_CTL j)).toNat = bit en + bit on * 2 ∧ Only [R.PWR_SLOTj_CTL j] s t := by
  refine ⟨_, (exec_pwrSlotEnable hup).trans (congrArg _ (if_neg (not_not.2 hc))), ?_, only_setReg _ _ _⟩
  rw [State.reg_setReg_same]
  exact (slotBits en on).2.2

end

/-! ## Power domains (R450) -/

section
variable {s : State}

theorem exec_pwrDomainSwitch (s : State) : exec .pwrDomainSwitch s = .next (match s.nextDomain with | some k => s.switchDomain k | none => s) := rfl

theorem State.switchDomain_up {k : Nat} (h : k ∈ s.rst.domsOff) : s.switchDomain k = { s with rst := { s.rst with domsUp := s.rst.domsUp ++ [k] } } :=
  if_pos (List.contains_iff_mem.2 h)

theorem State.switchDomain_off {k : Nat} (h : k ∉ s.rst.domsOff) : s.switchDomain k =
    (((domLeaves s.crowns (k / 256) (k % 256)).foldl State.loseLeaf { s with rst := { s.rst with domsOff := s.rst.domsOff ++ [k] } }).showOn (k / 256)).settle :=
  if_neg fun hc => h (List.contains_iff_mem.1 hc)

theorem exec_pwrDomainUp (d : Fin 8) (n : Fin 152) (s : State) :
    exec (.pwrDomainUp d n) s = .next (s.when (s.rst.domsUp.contains (d * 256 + n)) fun s => s.domainUp (d * 256 + n)) := rfl

end

/-! ## Mode requests (R455) -/

section
variable {s : State}

theorem exec_modeRequests (hup : s.dieUp 0 = true) :
    exec .pwrReqCalibrate s = .next (s.modeReq 1) ∧ exec .pwrReqReady s = .next (s.modeReq 2) ∧ exec .pwrReqDiagnostic s = .next (s.modeReq 3) ∧
    exec .pwrReqClear s = .next (s.modeReq 4) ∧ ∀ r : Fin 16, exec (.pwrReqOther r) s = .next (s.modeReq r) := by
  have h : ∀ k, s.when (s.dieUp 0) (fun s => s.modeReq k) = s.modeReq k := fun k => by rw [hup, State.when_true]
  exact ⟨congrArg _ (h 1), congrArg _ (h 2), congrArg _ (h 3), congrArg _ (h 4), fun r => congrArg _ (h r)⟩

/-- A request that is granted. -/
theorem gives_mode {c : Instr} {k : Nat} (h : exec c s = .next (s.wr F.PWR_MODE_MODE k)) (hk : k < 2 ^ 4) :
    Gives c s fun t => t.rd F.PWR_MODE_MODE = k ∧ Only [R.PWR_MODE] s t :=
  ⟨_, h, (State.rd_wr_eq _ _ _ rfl).trans (Nat.mod_eq_of_lt hk), only_wr _ F.PWR_MODE_MODE k⟩

/-- A request that is refused. -/
theorem gives_noMode {c : Instr} {code : Nat} (h : exec c s = .next (s.pwrRefuse code R.PWR_MODE)) (hcode : code < 2 ^ 16) :
    Gives c s fun t => t.rd F.PWR_MODE_REASON = code ∧ t.rd F.PWR_MODE_MODE = s.rd F.PWR_MODE_MODE ∧ Only [R.PWR_MODE] s t :=
  ⟨_, h, (s.rd_refuse_mem _ code _ (.head _) (by decide)).trans (Nat.mod_eq_of_lt hcode), s.rd_refuse_low _ _ _ _ (by decide) (by decide), only_refuse _ _ _ _ _⟩

theorem State.modeReq_other {r : Nat} (h : r = 0 ∨ 4 < r) : s.modeReq r = s.pwrRefuse 0xD00A R.PWR_MODE := by
  unfold State.modeReq
  split <;> first | omega | rfl

end

/-- Settles O57: by the branch of the model that each hypothesis selects; what a sample shows is read from the writes of its sensors. -/
theorem powerAndModes : Obligations.PowerAndModes := by
  unfold Obligations.PowerAndModes
  refine ⟨fun d xs s hd hlen hoff => ?temp, fun j en on s hup => ?slot, fun j q s hup hp hg hl => ?leaf, fun s => ⟨fun hn => ?none, fun k hn hk => ?up, fun k hn hk => ?off⟩,
    fun d n s => ⟨fun h => ?isUp, fun h => ?notUp⟩, fun s hup => ?modes⟩
  case temp =>
    have hexec := exec_thermSample hd hlen hoff
    refine ⟨fun h ht => hexec.trans (congrArg _ (State.thermSample_trips h ht)), fun h ht => hexec.trans (congrArg _ (State.thermSample_letsGo h ht)), fun h => ?_⟩
    exact ⟨_, hexec.trans (congrArg _ (State.thermSample_shows h)), s.showTherm_shows d.isLt ((List.length_map _).trans hlen) (signedTemps_range xs)⟩
  case slot => exact ⟨fun hc => pwrSlotEnable_refused hup hc, fun hc => pwrSlotEnable_taken hup hc⟩
  case leaf =>
    have hcode : s.slotCode j true false = if alwaysOn q then 0xD008 else if s.domUsed q then 0xD007 else 0 := State.pwrCheck_leaf (off := true) hp hg hl
    refine ⟨fun ha => ?_, fun ha hu => ?_, fun ha hu => ?_⟩
    · rw [ha, if_pos rfl] at hcode
      obtain ⟨t, h, hr, -⟩ := pwrSlotEnable_refused hup (by rw [hcode]; decide : s.slotCode j true false ≠ 0)
      exact ⟨t, h, hr.trans hcode⟩
    · rw [ha, hu, if_neg Bool.false_ne_true, if_pos rfl] at hcode
      obtain ⟨t, h, hr, -⟩ := pwrSlotEnable_refused hup (by rw [hcode]; decide : s.slotCode j true false ≠ 0)
      exact ⟨t, h, hr.trans hcode⟩
    · rw [ha, hu, if_neg Bool.false_ne_true, if_neg Bool.false_ne_true] at hcode
      obtain ⟨t, h, hr, -⟩ := pwrSlotEnable_taken hup hcode
      exact ⟨t, h, hr⟩
  case none => rw [exec_pwrDomainSwitch, hn]
  case up => rw [exec_pwrDomainSwitch, hn]; exact congrArg _ (State.switchDomain_up hk)
  case off => rw [exec_pwrDomainSwitch, hn]; exact congrArg _ (State.switchDomain_off hk)
  case isUp => rw [exec_pwrDomainUp, List.contains_iff_mem.2 h, State.when_true]
  case notUp => rw [exec_pwrDomainUp, Bool.eq_false_iff.2 fun hc => h (List.contains_iff_mem.1 hc), State.when_false]
  case modes =>
    obtain ⟨hcal, hready, hdiag, hclear, hother⟩ := exec_modeRequests hup
    refine ⟨fun h => ?_, fun h => ?_, fun h hc => ?_, fun h h' => ?_, fun h => ?_, fun h hq => ?_, fun h hq => ?_, fun h => ?_, fun h hq => ?_, fun h hq => ?_, fun h => ?_,
      fun r hr => gives_noMode ((hother r).trans (congrArg _ (State.modeReq_other hr))) (by decide),
      (hother 1).trans hcal.symm, (hother 2).trans hready.symm, (hother 3).trans hdiag.symm, (hother 4).trans hclear.symm⟩
    · exact gives_mode (hcal.trans (congrArg _ (if_pos h))) (by decide)
    · exact gives_noMode (hcal.trans (congrArg _ (if_neg h))) (by decide)
    · exact gives_noMode (hready.trans (congrArg _ ((if_pos h).trans (if_neg (Bool.eq_false_iff.1 hc))))) (by decide)
    · exact gives_noMode (hready.trans (congrArg _ ((if_neg h).trans (if_neg h')))) (by decide)
    · rw [hready]
      rcases h with ⟨h, hc⟩ | h
      · exact congrArg _ ((if_pos h).trans (if_pos hc))
      · exact congrArg _ ((if_neg (by omega)).trans (if_pos h))
    · exact gives_mode (hdiag.trans (congrArg _ ((if_pos h).trans (if_pos hq)))) (by decide)
    · exact gives_noMode (hdiag.trans (congrArg _ ((if_pos h).trans (if_neg (Bool.eq_false_iff.1 hq))))) (by decide)
    · exact gives_noMode (hdiag.trans (congrArg _ (if_neg h))) (by decide)
    · rw [hclear]
      exact congrArg _ ((if_pos h).trans (if_pos hq))
    · exact gives_noMode (hclear.trans (congrArg _ ((if_pos h).trans (if_neg hq)))) (by decide)
    · exact gives_noMode (hclear.trans (congrArg _ (if_neg h))) (by decide)

end Sys2Proof.Machine
end

section
/-!
PROOFS. Boot and the flash controller (R413, R451 to R453, R461): what the ROM shows when an image runs or fails, writes of working
SRAM, and the end of a flash command.
-/
namespace Sys2Proof.Machine

/-! ## Registers and the reset block -/

theorem Only.of_rst {as : List Nat} {s t : State} {r : ResetSt} (h : Only as { s with rst := r } t) : Only as { s with rst := t.rst } t := by
  have e : t.rst = r := h.rst
  rw [e]
  exact h

theorem recReg_boot (d : Nat) : recReg (R.BOOT_STATUS d) = false := by
  simp only [recReg, R.BOOT_STATUS, dieBase, Bool.or_eq_false_iff, beq_eq_false_iff_ne]
  omega

theorem bootStatus_ne_remap (d : Nat) : R.BOOT_STATUS d ≠ R.FAB_REMAP d := by
  simp only [R.BOOT_STATUS, R.FAB_REMAP]
  omega

/-! ## Images that run, and images that fail (R451, R452) -/

section
variable (s : State) (d used a : Nat)

/-- The crown's, or the root's, cores are up. -/
def State.withCores : State :=
  { s with rst := { s.rst with coresUp := if s.rst.coresUp.contains d then s.rst.coresUp else s.rst.coresUp ++ [d] } }

theorem State.mem_withCores : d ∈ (s.withCores d).rst.coresUp := by
  change d ∈ if s.rst.coresUp.contains d then s.rst.coresUp else s.rst.coresUp ++ [d]
  split
  · next h => exact List.contains_iff_mem.1 h
  · exact List.mem_append_right _ (.head _)

/-- The SRAM is swapped in and locked, unless it is locked already. -/
def State.swapLocked : State := if s.on (F.FAB_REMAP_LOCK d) then s else (s.wr (F.FAB_REMAP_SWAP0 d) 1).wr (F.FAB_REMAP_LOCK d) 1

theorem State.swapLocked_lock : (s.swapLocked d).on (F.FAB_REMAP_LOCK d) = true := by
  unfold State.swapLocked
  split
  · next h => exact h
  · exact beq_iff_eq.2 (State.rd_wr_eq _ _ _ rfl)

theorem State.only_swapLocked : Only [R.BOOT_STATUS d, R.FAB_REMAP d] s (s.swapLocked d) := by
  unfold State.swapLocked
  split
  · exact .refl _ _
  · exact .wr (.wr (.refl _ _) (F.FAB_REMAP_SWAP0 d) 1 (.tail _ (.head _))) (F.FAB_REMAP_LOCK d) 1 (.tail _ (.head _))

theorem State.runImage_eq : s.runImage d used =
    ((((s.withCores d).swapLocked d).wr (F.BOOT_STATUS_STAGE d) 3).wr (F.BOOT_STATUS_USED d) used).wr (F.BOOT_STATUS_ERROR d) 0 := rfl

theorem State.only_runImage : Only [R.BOOT_STATUS d, R.FAB_REMAP d] (s.withCores d) (s.runImage d used) := by
  rw [State.runImage_eq]
  exact .wr (.wr (.wr (State.only_swapLocked _ d) (F.BOOT_STATUS_STAGE d) 3 (.head _)) (F.BOOT_STATUS_USED d) used (.head _)) (F.BOOT_STATUS_ERROR d) 0 (.head _)

theorem State.runImage_stage : (s.runImage d used).rd (F.BOOT_STATUS_STAGE d) = 3 := by
  rw [State.runImage_eq]
  exact ((State.rd_wr_beside _ _ rfl rfl).trans (State.rd_wr_beside _ _ (f := F.BOOT_STATUS_USED d) (g := F.BOOT_STATUS_STAGE d) rfl rfl)).trans (State.rd_wr_eq _ _ _ rfl)

theorem State.runImage_used (h : used < 8) : (s.runImage d used).rd (F.BOOT_STATUS_USED d) = used := by
  rw [State.runImage_eq]
  exact ((State.rd_wr_beside _ _ rfl rfl).trans (State.rd_wr_eq _ _ _ rfl)).trans (Nat.mod_eq_of_lt h)

theorem State.runImage_error : (s.runImage d used).rd (F.BOOT_STATUS_ERROR d) = 0 := by
  rw [State.runImage_eq]
  exact State.rd_wr_eq _ _ _ rfl

theorem State.runImage_lock : (s.runImage d used).on (F.FAB_REMAP_LOCK d) = true := by
  have hne : (F.FAB_REMAP_LOCK d).reg ≠ R.BOOT_STATUS d := (bootStatus_ne_remap d).symm
  rw [State.runImage_eq]
  refine (State.on_of_rd ?_).trans (State.swapLocked_lock (s.withCores d) d)
  exact (State.rd_wr_off _ _ hne).trans ((State.rd_wr_off _ _ hne).trans (State.rd_wr_off _ _ hne))

theorem State.only_badImage : Only [R.BOOT_STATUS d] s (s.badImage d a) := .wr (only_refuse s _ _ _ _) (F.BOOT_STATUS_ERROR d) 1 (.head _)

theorem State.badImage_error : (s.badImage d a).rd (F.BOOT_STATUS_ERROR d) = 1 := State.rd_wr_eq _ _ _ rfl

theorem State.badImage_reason : (s.badImage d a).rd (F.BOOT_STATUS_REASON d) = 0xD00E :=
  (State.rd_wr_beside _ _ rfl rfl).trans (s.rd_refuse_mem _ 0xD00E _ (.head _) (recReg_boot d))

/-- The ROM waits: stage, fallback, and the reason it found. -/
theorem State.bootWait_shows : s.bootWait.rd (F.BOOT_STATUS_STAGE 0) = 4 ∧ s.bootWait.rd (F.BOOT_STATUS_FALLBACK 0) = 1 ∧
    s.bootWait.rd (F.BOOT_STATUS_REASON 0) = s.rd (F.BOOT_STATUS_REASON 0) ∧ Only [R.BOOT_STATUS 0] s s.bootWait :=
  ⟨(State.rd_wr_beside _ _ rfl rfl).trans (State.rd_wr_eq _ _ _ rfl), State.rd_wr_eq _ _ _ rfl, (State.rd_wr_beside _ _ rfl rfl).trans (State.rd_wr_beside _ _ rfl rfl),
    .wr (.wr (.refl _ _) (F.BOOT_STATUS_STAGE 0) 4 (.head _)) (F.BOOT_STATUS_FALLBACK 0) 1 (.head _)⟩

end

section
variable {s : State}

theorem State.bootSrc_lt (s : State) : s.bootSrc < 8 := by
  unfold State.bootSrc
  split
  · split <;> decide
  · decide
  · split <;> decide
  · decide

theorem exec_bootImageLoaded {img : List Byte} (hrom : s.inRom = true) (hsrc : s.bootSrc = 0 ∨ s.bootSrc = 3) :
    exec (.bootImageLoaded img) s = .next (s.imageLoaded img) := by
  have hg : (s.inRom && (s.bootSrc == 0 || s.bootSrc == 3)) = true := by simpa [hrom] using hsrc
  change Host.Outcome.next (s.when _ _) = _
  rw [hg, State.when_true]

theorem State.imageLoaded_good {img : List Byte} (h : imageOk 0 img = true) :
    s.imageLoaded img = (s.sramPut 0 0 (img.take 2097152)).runImage 0 s.bootSrc := if_pos h

theorem State.imageLoaded_bad {img : List Byte} (h : imageOk 0 img = false) : s.imageLoaded img =
    if s.bootSrc = 0 then ((s.sramPut 0 0 (img.take 2097152)).badImage 0 (R.BOOT_STATUS 0)).nextSource
    else ((s.sramPut 0 0 (img.take 2097152)).badImage 0 (R.BOOT_STATUS 0)).bootWait :=
  if_neg (Bool.eq_false_iff.1 h)

theorem exec_bootTwin (hrom : s.inRom = true) (hsrc : s.bootSrc = 2) :
    (∀ data, exec (.bootFrame data) s = .next (s.bootFrame data)) ∧ exec .bootTwinTimeout s = .next s.nextSource := by
  have hg : (s.inRom && s.bootSrc == 2) = true := by simpa [hrom] using hsrc
  have hwhen : ∀ f : State → State, s.when (s.inRom && s.bootSrc == 2) f = f s := fun f => by rw [hg, State.when_true]
  exact ⟨fun data => congrArg _ (hwhen _), congrArg _ (hwhen _)⟩

/-- The bytes of a twin's image so far. -/
def State.withTwinImage (s : State) (img : List Byte) : State := { s with rst := { s.rst with twinImage := img } }

/-- More of the image is to come. -/
def imagePart (img : List Byte) : Prop :=
  img.length < 64 ∨ (64 ≤ wordAt (wordsOf (img.take 64)) 2 ∧ wordAt (wordsOf (img.take 64)) 2 ≤ 2097152 ∧ img.length < wordAt (wordsOf (img.take 64)) 2)

section
variable {data img : List Byte} (himg : s.rst.twinImage ++ data.take 4096 = img)
include himg

theorem State.bootFrame_part (h : imagePart img) : s.bootFrame data = s.withTwinImage img := by
  subst himg
  exact if_pos h

theorem State.bootFrame_good (h : ¬imagePart img) (hok : imageOk 0 img = true) :
    s.bootFrame data = ((s.withTwinImage img).sramPut 0 0 (img.take 2097152)).runImage 0 2 := by
  subst himg
  exact (if_neg h).trans (if_pos hok)

theorem State.bootFrame_bad (h : ¬imagePart img) (hok : imageOk 0 img = false) :
    s.bootFrame data = (((s.withTwinImage img).sramPut 0 0 (img.take 2097152)).withTwinImage []).badImage 0 (R.BOOT_STATUS 0) := by
  subst himg
  exact (if_neg h).trans (if_neg (Bool.eq_false_iff.1 hok))

end

/-- The ROM turns to the next source. -/
theorem State.nextSource_shows (s : State) : s.nextSource.rd (F.BOOT_STATUS_FALLBACK 0) = 1 ∧ s.nextSource.rd (F.BOOT_STATUS_STAGE 0) = 1 ∧
    s.nextSource.rst.attempt = s.rst.attempt + 1 ∧
    Only [R.BOOT_STATUS 0] { s with rst := { s.rst with attempt := s.nextSource.rst.attempt } } s.nextSource := by
  refine ⟨(State.rd_wr_beside _ _ rfl rfl).trans (State.rd_wr_eq _ _ _ rfl), State.rd_wr_eq _ _ _ rfl, ?_, ?_⟩
  · simp only [State.nextSource, State.wr_rst]
  · simp only [State.nextSource, State.wr_rst]
    exact .wr (.wr (.refl _ _) (F.BOOT_STATUS_FALLBACK 0) 1 (.head _)) (F.BOOT_STATUS_STAGE 0) 1 (.head _)

/-! ## The mailbox (R452) -/

/-- The image that the mailbox announces. -/
def State.mboxImage (s : State) : List Byte := (List.range (min 2097152 (s.rd F.BOOT_MBOX_LEN_LEN))).map fun i => s.sramByte 0 i

theorem exec_bootMboxGo (hup : s.dieUp 0 = true) : exec .bootMboxGo s = .next (s.mboxGo 1) := by
  change Host.Outcome.next (s.when _ _) = _
  rw [hup, State.when_true]

theorem State.mboxGo_ignored (h : ¬(s.inRom = true ∧ s.bootSrc = 1)) : s.mboxGo 1 = s := if_neg fun hc => h hc.2

theorem State.mboxGo_good (hrom : s.inRom = true) (hsrc : s.bootSrc = 1) (hok : imageOk 0 s.mboxImage = true) : s.mboxGo 1 = s.runImage 0 1 :=
  (if_pos ⟨by decide, hrom, hsrc⟩).trans (if_pos hok)

theorem State.mboxGo_bad (hrom : s.inRom = true) (hsrc : s.bootSrc = 1) (hok : imageOk 0 s.mboxImage = false) :
    s.mboxGo 1 = (s.badImage 0 R.BOOT_MBOX_CTL).bootWait :=
  (if_pos ⟨by decide, hrom, hsrc⟩).trans (if_neg (Bool.eq_false_iff.1 hok))

end

/-! ## A crown's cores (R453) -/

section
variable {s : State} {d : Nat}

/-- What the working SRAM of die d holds, as an image. -/
def State.sramImage (s : State) (d : Nat) : List Byte := (List.range 2097152).map fun i => s.sramByte d i

theorem State.sramByte_setReg (s : State) (d a off : Nat) (v : Word) : (s.setReg a v).sramByte d off = s.sramByte d off := rfl

theorem exec_bootCoresRun {d : Fin 8} (hcrown : s.hasCrown d = true) (hup : s.dieUp d = true) (run : Bool) :
    exec (.bootCoresRun d run) s = .next (s.coresWrite d (BitVec.ofNat 32 (bit run))) := by
  have hg : (s.hasCrown d && s.dieUp d) = true := by rw [hcrown, hup]; rfl
  change Host.Outcome.next (s.when _ _) = _
  rw [hg, State.when_true]

/-- Writes of RUN as the model decides them: the checked image, the clear before the cores are up, and the rest. -/
theorem State.coresWrite_eq (s : State) (d : Nat) (v : Word) : s.coresWrite d v =
    if getBits v 0 1 = 1 ∧ (!s.on (F.BOOT_CORES_RUN d)) = true ∧ (!s.rst.coresUp.contains d) = true then
      State.serveCrown (if imageOk 1 (s.sramImage d) = true then (s.setReg (R.BOOT_CORES d) (v &&& 1)).runImage d 0
        else ((s.setReg (R.BOOT_CORES d) (v &&& 1)).badImage d (R.BOOT_CORES d)).wr (F.BOOT_STATUS_STAGE d) 4) d
    else if getBits v 0 1 = 0 ∧ s.on (F.BOOT_CORES_RUN d) = true ∧ (!s.rst.coresUp.contains d) = true then
      (s.setReg (R.BOOT_CORES d) (v &&& 1)).wr (F.BOOT_STATUS_STAGE d) 0
    else (s.setReg (R.BOOT_CORES d) (v &&& 1)).serveCrown d := by
  generalize hu : s.setReg (R.BOOT_CORES d) (v &&& 1) = u
  have hrst : u.rst = s.rst := by rw [← hu, State.setReg_rst]
  have hbytes : ∀ off, s.sramByte d off = u.sramByte d off := fun off => by rw [← hu, State.sramByte_setReg]
  have himg : s.sramImage d = (List.range 2097152).map fun i => u.sramByte d i := by simp only [State.sramImage, hbytes]
  rw [himg, ← hrst]
  subst hu
  unfold State.coresWrite
  rfl

/-- A set of RUN that is set, or with the cores up, changes the bit and the crown's service alone. -/
theorem State.coresWrite_set (h : d ∈ s.rst.coresUp ∨ s.on (F.BOOT_CORES_RUN d) = true) :
    s.coresWrite d (BitVec.ofNat 32 (bit true)) = (s.setReg (R.BOOT_CORES d) 1).serveCrown d := by
  rw [State.coresWrite_eq, if_neg, if_neg (fun hc => absurd hc.1 (by decide))]
  · rfl
  · rintro ⟨-, hrun, hup⟩
    rcases h with h | h
    · rw [List.contains_iff_mem.2 h] at hup
      exact Bool.false_ne_true hup
    · rw [h] at hrun
      exact Bool.false_ne_true hrun

section
variable (hdown : d ∉ s.rst.coresUp) (hrun : s.on (F.BOOT_CORES_RUN d) = false)
include hdown hrun

theorem State.coresWrite_checks : s.coresWrite d (BitVec.ofNat 32 (bit true)) =
    State.serveCrown (if imageOk 1 (s.sramImage d) = true then (s.setReg (R.BOOT_CORES d) 1).runImage d 0
      else ((s.setReg (R.BOOT_CORES d) 1).badImage d (R.BOOT_CORES d)).wr (F.BOOT_STATUS_STAGE d) 4) d := by
  have hc : (!s.rst.coresUp.contains d) = true := by simpa using hdown
  have hr : (!s.on (F.BOOT_CORES_RUN d)) = true := by rw [hrun]; rfl
  have hv : BitVec.ofNat 32 (bit true) &&& 1 = 1 := by decide
  rw [State.coresWrite_eq, if_pos ⟨by decide, hr, hc⟩, hv]

end

theorem State.coresWrite_clear (h : d ∈ s.rst.coresUp ∨ s.on (F.BOOT_CORES_RUN d) = false) :
    s.coresWrite d (BitVec.ofNat 32 (bit false)) = (s.setReg (R.BOOT_CORES d) 0).serveCrown d := by
  rw [State.coresWrite_eq, if_neg (fun hc => absurd hc.1 (by decide)), if_neg]
  · rfl
  · rintro ⟨-, hrun, hup⟩
    rcases h with h | h
    · rw [List.contains_iff_mem.2 h] at hup
      exact Bool.false_ne_true hup
    · rw [h] at hrun
      exact Bool.false_ne_true hrun

theorem State.coresWrite_stop (hdown : d ∉ s.rst.coresUp) (hrun : s.on (F.BOOT_CORES_RUN d) = true) :
    s.coresWrite d (BitVec.ofNat 32 (bit false)) = (s.setReg (R.BOOT_CORES d) 0).wr (F.BOOT_STATUS_STAGE d) 0 := by
  have hc : (!s.rst.coresUp.contains d) = true := by simpa using hdown
  have hv : BitVec.ofNat 32 (bit false) &&& 1 = 0 := by decide
  rw [State.coresWrite_eq, if_neg (fun hc => absurd hc.1 (by decide)), if_pos ⟨by decide, hrun, hc⟩, hv]

theorem bootCores_ne_status (d : Nat) : R.BOOT_CORES d ≠ R.BOOT_STATUS d := by
  simp only [R.BOOT_CORES, R.BOOT_STATUS]
  omega

theorem State.on_setReg_cores (s : State) (d : Nat) (v : Word) : (s.setReg (R.BOOT_CORES d) v).on (F.BOOT_CORES_RUN d) = (getBits v 0 1 == 1) :=
  congrArg (getBits · 0 1 == 1) (s.reg_setReg_same (R.BOOT_CORES d) v)

/-- What a crown shows whose image is bad. -/
theorem State.badCores_shows (s : State) (d : Nat) :
    let t := ((s.setReg (R.BOOT_CORES d) 1).badImage d (R.BOOT_CORES d)).wr (F.BOOT_STATUS_STAGE d) 4
    t.rd (F.BOOT_STATUS_STAGE d) = 4 ∧ t.rd (F.BOOT_STATUS_REASON d) = 0xD00E ∧ t.on (F.BOOT_CORES_RUN d) = true ∧
      Only [R.BOOT_CORES d, R.BOOT_STATUS d] s t := by
  have hne : R.BOOT_CORES d ∉ [R.BOOT_STATUS d] := by simpa using bootCores_ne_status d
  have hrec : recReg (R.BOOT_CORES d) = false := by
    simp only [recReg, R.BOOT_CORES, dieBase, Bool.or_eq_false_iff, beq_eq_false_iff_ne]
    omega
  refine ⟨State.rd_wr_eq _ _ _ rfl, (State.rd_wr_beside _ _ rfl rfl).trans (State.badImage_reason _ d _), ?_, ?_⟩
  · refine (State.on_of_rd ?_).trans (s.on_setReg_cores d 1)
    exact (State.rd_wr_off _ _ (bootCores_ne_status d)).trans ((State.only_badImage _ d _).rd hne hrec)
  · exact .wr (.trans (.setReg (.refl _ _) (R.BOOT_CORES d) 1 (.head _)) ((State.only_badImage _ d _).mono (List.subset_cons_self _ _)))
      (F.BOOT_STATUS_STAGE d) 4 (.tail _ (.head _))

end

/-! ## Words of working SRAM (R453) -/

/-- What a byte memory holds after a row of bytes. -/
theorem memRead_memWrite (m : List (Nat × Byte)) (a : Nat) (bs : List Byte) (x : Nat) :
    memRead (memWrite m a bs) x = if a ≤ x ∧ x < a + bs.length then bs.getD (x - a) 0 else memRead m x := by
  induction bs generalizing m a with
  | nil => rw [if_neg (by simp only [List.length_nil]; omega)]; rfl
  | cons b bs ih =>
    rw [memWrite, ih]
    simp only [List.length_cons]
    by_cases hx : x = a
    · subst hx
      rw [if_neg (by omega), if_pos (by omega), Nat.sub_self]
      exact mapGet_set_same _ m x b
    · have hne : memRead (mapSet (fun _ => 0) m a b) x = memRead m x := mapGet_set_ne _ m b hx
      by_cases hin : a + 1 ≤ x ∧ x < a + 1 + bs.length
      · rw [if_pos hin, if_pos (by omega), show x - a = (x - (a + 1)) + 1 by omega]
        rfl
      · rw [if_neg hin, if_neg (by omega), hne]

theorem wordBytes_getD (v : Word) {b : Nat} (hb : b < 4) : ((wordBytes v).getD b 0).toNat = v.toNat / 2 ^ (8 * b) % 256 := by
  simp [wordBytes, List.getD_eq_getElem?_getD, List.getElem?_map, List.getElem?_range hb]

section
variable (s : State) (d a : Nat) (bs : List Byte)

theorem State.sramByte_sramPut (x : Nat) : (s.sramPut d a bs).sramByte d x =
    if a ≤ x ∧ x < a + bs.length then bs.getD (x - a) 0 else s.sramByte d x := by
  rw [State.sramByte, State.sramPut]
  refine (memRead_memWrite _ _ _ _).trans ?_
  simp only [sramKey, State.sramByte, Nat.add_sub_add_left, Nat.add_assoc, Nat.add_le_add_iff_left, Nat.add_lt_add_iff_left]

theorem State.sramPut_frame : s.sramPut d a bs = { s with rst := { s.rst with sram := (s.sramPut d a bs).rst.sram } } := rfl

end

/-! ## The flash controller (R461) -/

section
variable {s : State} {d : Nat}

theorem exec_bootSpiGo {d : Fin 8} {v : Word} (hup : s.dieUp d = true) : exec (.bootSpiGo d v) s =
    .next ((s.setReg (R.BOOT_SPI_CMD d) ((v ||| 0x80000000) &&& 0x80003FFF)).wr (F.BOOT_SPI_STATUS_BUSY d) 1) := by
  change Host.Outcome.next (s.when _ _) = _
  rw [hup, State.when_true, State.spiWrite, if_pos (getBits_1500Go_go v)]

theorem getBits_spiGo (v : Word) : getBits ((v ||| 0x80000000) &&& 0x80003FFF) 0 8 = getBits v 0 8 ∧
    getBits ((v ||| 0x80000000) &&& 0x80003FFF) 31 1 = 1 := by
  have hgo : ∀ i < 8, (0x80000000 : Word).getLsbD i = false := by decide
  have hmask : ∀ i < 8, (0x80003FFF : Word).getLsbD i = true := by decide
  have htop : (0x80000000 : Word).getLsbD 31 = true ∧ (0x80003FFF : Word).getLsbD 31 = true := by decide
  constructor
  · refine getBits_congr fun i hi => ?_
    rw [Nat.zero_add, BitVec.getLsbD_and, BitVec.getLsbD_or, hgo i hi, hmask i hi, Bool.or_false, Bool.and_true]
  · rw [getBits_one, BitVec.getLsbD_and, BitVec.getLsbD_or, htop.1, htop.2, Bool.or_true]
    rfl

theorem spiCmd_ne_status (d : Nat) : R.BOOT_SPI_CMD d ≠ R.BOOT_SPI_STATUS d := by
  simp only [R.BOOT_SPI_CMD, R.BOOT_SPI_STATUS]
  omega

/-- A flash command as it ends: neither busy nor going, with the level of the write-protect pin. -/
def State.spiEnds (s : State) (d : Nat) (wp : Bool) : State :=
  ((s.wr (F.BOOT_SPI_STATUS_BUSY d) 0).wr (F.BOOT_SPI_CMD_GO d) 0).wr (F.BOOT_SPI_STATUS_WP d) (bit wp)

/-- The flash's registers of t read as at the end of a command, but for ERROR. -/
def State.SpiEnded (t : State) (d : Nat) (wp : Bool) : Prop :=
  t.rd (F.BOOT_SPI_STATUS_BUSY d) = 0 ∧ t.rd (F.BOOT_SPI_CMD_GO d) = 0 ∧ t.rd (F.BOOT_SPI_STATUS_WP d) = bit wp

theorem State.spiEnds_ended (s : State) (d : Nat) (wp : Bool) : (s.spiEnds d wp).SpiEnded d wp := by
  have hne := spiCmd_ne_status d
  refine ⟨?_, (State.rd_wr_off _ _ hne).trans (State.rd_wr_eq _ _ _ rfl), (State.rd_wr_eq _ _ _ rfl).trans ?_⟩
  · exact (State.rd_wr_beside _ _ (f := F.BOOT_SPI_STATUS_WP d) (g := F.BOOT_SPI_STATUS_BUSY d) rfl rfl).trans
      ((State.rd_wr_off _ _ hne.symm).trans (State.rd_wr_eq _ _ _ rfl))
  · exact bit_mod_two wp

theorem State.only_spiEnds (s : State) (d : Nat) (wp : Bool) : Only [R.BOOT_SPI_STATUS d, R.BOOT_SPI_CMD d] s (s.spiEnds d wp) :=
  .wr (.wr (.wr (.refl _ _) (F.BOOT_SPI_STATUS_BUSY d) 0 (.head _)) (F.BOOT_SPI_CMD_GO d) 0 (.tail _ (.head _))) (F.BOOT_SPI_STATUS_WP d) _ (.head _)

theorem State.spiEnds_opcode (s : State) (d : Nat) (wp : Bool) : (s.spiEnds d wp).rd (F.BOOT_SPI_CMD_OPCODE d) = s.rd (F.BOOT_SPI_CMD_OPCODE d) := by
  have hne := spiCmd_ne_status d
  exact (State.rd_wr_off _ _ hne).trans ((State.rd_wr_beside _ _ (f := F.BOOT_SPI_CMD_GO d) (g := F.BOOT_SPI_CMD_OPCODE d) rfl rfl).trans (State.rd_wr_off _ _ hne))

/-- ERROR is written last, and stands beside the rest. -/
theorem State.SpiEnded.error {t : State} {wp : Bool} (h : t.SpiEnded d wp) {e : Nat} (he : e < 2) :
    (t.wr (F.BOOT_SPI_STATUS_ERROR d) e).rd (F.BOOT_SPI_STATUS_BUSY d) = 0 ∧ (t.wr (F.BOOT_SPI_STATUS_ERROR d) e).rd (F.BOOT_SPI_CMD_GO d) = 0 ∧
    (t.wr (F.BOOT_SPI_STATUS_ERROR d) e).rd (F.BOOT_SPI_STATUS_WP d) = bit wp ∧
    (t.wr (F.BOOT_SPI_STATUS_ERROR d) e).rd (F.BOOT_SPI_STATUS_ERROR d) = e := by
  obtain ⟨hbusy, hgo, hwp⟩ := h
  exact ⟨(State.rd_wr_beside _ _ rfl rfl).trans hbusy, (State.rd_wr_off _ _ (spiCmd_ne_status d)).trans hgo, (State.rd_wr_beside _ _ rfl rfl).trans hwp,
    (State.rd_wr_eq _ _ _ rfl).trans (Nat.mod_eq_of_lt he)⟩

theorem State.SpiEnded.of_reg {s t : State} {wp : Bool} (h : s.SpiEnded d wp) (hs : t.reg (R.BOOT_SPI_STATUS d) = s.reg (R.BOOT_SPI_STATUS d))
    (hc : t.reg (R.BOOT_SPI_CMD d) = s.reg (R.BOOT_SPI_CMD d)) : t.SpiEnded d wp := by
  obtain ⟨hbusy, hgo, hwp⟩ := h
  exact ⟨(congrArg (getBits · 0 1) hs).trans hbusy, (congrArg (getBits · 31 1) hc).trans hgo, (congrArg (getBits · 2 1) hs).trans hwp⟩

/-! What accesses over the fabric leave of the registers. -/

theorem State.reg_snoopLines (s : State) (d a n r : Nat) : (s.snoopLines d a n).reg r = s.reg r := by
  unfold State.snoopLines
  induction n with
  | zero => rfl
  | succ n ih =>
    rw [State.forRange_succ]
    split
    · exact ih
    · exact ih

theorem State.reg_fabPut (s : State) (d a : Nat) (bs : List Byte) (r : Nat) : (s.fabPut d a bs).reg r = s.reg r := by
  unfold State.fabPut
  split
  · rfl
  · unfold State.hbmWrite
    split
    · rfl
    · exact s.reg_snoopLines _ _ _ r
  · rfl

/-- The registers that an error response may move lie in the fabric's block or the HBM controller's. -/
def fabricReg (d r : Nat) : Prop := (∃ t, r = R.FAB_Tt_CNT d t) ∨ r ∈ [R.FAB_ERR_INFO d, R.FAB_ERR_ADDR_LO d, R.FAB_ERR_ADDR_HI d, R.HBM_STATUS d]

theorem State.reg_fabErr (s : State) (d master target : Nat) (write : Bool) (addr : Nat) {r : Nat} (h : ¬fabricReg d r) :
    (s.fabErr d master target write addr).reg r = s.reg r := by
  have hcnt : r ≠ (F.FAB_Tt_CNT_ERRS d target).reg := fun e => h (.inl ⟨target, e⟩)
  have hrest : ∀ f : Fld, f.reg ∈ [R.FAB_ERR_INFO d, R.FAB_ERR_ADDR_LO d, R.FAB_ERR_ADDR_HI d, R.HBM_STATUS d] → r ≠ f.reg := fun f hf e => h (.inr (e ▸ hf))
  simp only [State.fabErr]
  split
  · exact State.reg_wr_ne _ _ _ hcnt
  · exact (State.reg_wr_ne _ _ _ (hrest (F.FAB_ERR_ADDR_HI_ADDR d) (by simp [F.FAB_ERR_ADDR_HI_ADDR]))).trans
      ((State.reg_wr_ne _ _ _ (hrest (F.FAB_ERR_ADDR_LO_ADDR d) (by simp [F.FAB_ERR_ADDR_LO_ADDR]))).trans
        ((State.reg_setReg_ne _ _ (hrest (F.FAB_ERR_INFO_VALID d) (by simp [F.FAB_ERR_INFO_VALID]))).trans (State.reg_wr_ne _ _ _ hcnt)))

theorem State.reg_fabFail (s : State) (d master : Nat) (write : Bool) (a : Nat) {r : Nat} (h : ¬fabricReg d r) :
    (s.fabFail d master write a).reg r = s.reg r := by
  have hst : r ≠ (F.HBM_STATUS_EARLY d).reg := fun e => h (.inr (by simp [e, F.HBM_STATUS_EARLY]))
  have herr := s.reg_fabErr d master (s.fabTarget d a) write a h
  simp only [State.fabFail]
  split
  · split
    · exact herr
    · exact (State.reg_wr_ne _ _ _ hst).trans herr
  · exact herr

theorem MemSame.refl (s : State) : MemSame s s := ⟨fun _ => rfl, fun _ => rfl, fun _ => rfl⟩

theorem MemSame.setReg {s t : State} (h : MemSame s t) (a : Nat) (v : Word) : MemSame s (t.setReg a v) := h

theorem MemSame.wr {s t : State} (h : MemSame s t) (f : Fld) (v : Nat) : MemSame s (t.wr f v) := h.setReg _ _

theorem MemSame.inc {s t : State} (h : MemSame s t) (f : Fld) : MemSame s (t.inc f) := h.wr _ _

theorem MemSame.fabErr {s t : State} (h : MemSame s t) (d master target : Nat) (write : Bool) (addr : Nat) :
    MemSame s (t.fabErr d master target write addr) := by
  simp only [State.fabErr]
  split
  · exact h.inc _
  · exact (((h.inc _).setReg _ _).wr _ _).wr _ _

theorem MemSame.fabFail {s t : State} (h : MemSame s t) (d master : Nat) (write : Bool) (a : Nat) : MemSame s (t.fabFail d master write a) := by
  have herr := h.fabErr d master (t.fabTarget d a) write a
  simp only [State.fabFail]
  split
  · split
    · exact herr
    · exact herr.inc _
  · exact herr

/-- The flash controller's registers are on the peripheral bus: no error response moves one. -/
theorem spi_not_fabricReg {d r : Nat} (hd : d < 8) (h : r = R.BOOT_SPI_STATUS d ∨ r = R.BOOT_SPI_CMD d) : ¬fabricReg d r := by
  have hmod : r % 8 = 0 ∧ 0x100000000 ≤ r := by
    simp only [R.BOOT_SPI_STATUS, R.BOOT_SPI_CMD, periphBase] at h
    omega
  rintro (⟨t, e⟩ | hmem)
  · simp only [R.FAB_Tt_CNT, dieBase] at e
    omega
  · simp only [List.mem_cons, R.FAB_ERR_INFO, R.FAB_ERR_ADDR_LO, R.FAB_ERR_ADDR_HI, R.HBM_STATUS, dieBase, List.not_mem_nil, or_false] at hmem
    omega

/-! The end of a command, as the model decides it. -/

theorem exec_bootSpiDone {d : Fin 8} {data : List Byte} {wp : Bool} (h : s.on (F.BOOT_SPI_STATUS_BUSY d) = true) :
    exec (.bootSpiDone d data wp) s = .next (s.spiDone d data wp) := by
  change Host.Outcome.next (s.when _ _) = _
  rw [h, State.when_true]

/-- A command's error response. -/
def State.spiFails (s : State) (d dst : Nat) (write : Bool) : State := (s.fabFail d (if d = 0 then 23 else 15) write dst).wr (F.BOOT_SPI_STATUS_ERROR d) 1

theorem State.spiDone_eq (s : State) (d : Nat) (data : List Byte) (wp : Bool) : s.spiDone d data wp =
    if spiProgram ((s.spiEnds d wp).rd (F.BOOT_SPI_CMD_OPCODE d)) = true then
      match (s.spiEnds d wp).fabBytes d (s.rd (F.BOOT_SPI_DST_ADDR d)) (s.rd (F.BOOT_SPI_LEN_LEN d)) with
      | (u, none) => u.spiFails d (s.rd (F.BOOT_SPI_DST_ADDR d)) false
      | (u, some _) => u.wr (F.BOOT_SPI_STATUS_ERROR d) 0
    else if ((List.range (data.take (s.rd (F.BOOT_SPI_LEN_LEN d))).length).all fun i => (s.spiEnds d wp).fabWritable d (s.rd (F.BOOT_SPI_DST_ADDR d) + i)) = true then
      ((s.spiEnds d wp).fabPut d (s.rd (F.BOOT_SPI_DST_ADDR d)) (data.take (s.rd (F.BOOT_SPI_LEN_LEN d)))).wr (F.BOOT_SPI_STATUS_ERROR d) 0
    else (s.spiEnds d wp).spiFails d (s.rd (F.BOOT_SPI_DST_ADDR d)) true := rfl

theorem State.fabWritable_of_hbm {s t : State} (h : t.rd (F.HBM_STATUS_STATE d) = s.rd (F.HBM_STATUS_STATE d)) (a : Nat) :
    t.fabWritable d a = s.fabWritable d a := by
  unfold State.fabWritable
  split
  · rfl
  · exact congrArg (· == 2) h
  · rfl

theorem State.spiEnds_writable (s : State) {d : Nat} (hd : d < 8) (wp : Bool) (a : Nat) : (s.spiEnds d wp).fabWritable d a = s.fabWritable d a := by
  have hne : ∀ f : Fld, f.reg = R.BOOT_SPI_STATUS d ∨ f.reg = R.BOOT_SPI_CMD d → (F.HBM_STATUS_STATE d).reg ≠ f.reg :=
    fun f hf e => spi_not_fabricReg hd hf (.inr (by simp [← e, F.HBM_STATUS_STATE]))
  refine State.fabWritable_of_hbm ?_ a
  exact (State.rd_wr_off _ _ (hne (F.BOOT_SPI_STATUS_WP d) (.inl rfl))).trans ((State.rd_wr_off _ _ (hne (F.BOOT_SPI_CMD_GO d) (.inr rfl))).trans
    (State.rd_wr_off _ _ (hne (F.BOOT_SPI_STATUS_BUSY d) (.inl rfl))))

/-- The program commands (R461): what they read. -/
theorem State.spiDone_program {data : List Byte} {wp : Bool} (h : spiProgram (s.rd (F.BOOT_SPI_CMD_OPCODE d)) = true) {u : State} {r : Option (List Byte)}
    (hr : (s.spiEnds d wp).fabBytes d (s.rd (F.BOOT_SPI_DST_ADDR d)) (s.rd (F.BOOT_SPI_LEN_LEN d)) = (u, r)) :
    s.spiDone d data wp = if r.isSome = true then u.wr (F.BOOT_SPI_STATUS_ERROR d) 0 else u.spiFails d (s.rd (F.BOOT_SPI_DST_ADDR d)) false := by
  rw [State.spiDone_eq, s.spiEnds_opcode, if_pos h, hr]
  cases r
  · rfl
  · rfl

section
variable {data : List Byte} {wp : Bool} (h : spiProgram (s.rd (F.BOOT_SPI_CMD_OPCODE d)) = false) (hd : d < 8)
include h hd

/-- The other commands: what they write. -/
theorem State.spiDone_read (hw : ∀ k, k < (data.take (s.rd (F.BOOT_SPI_LEN_LEN d))).length → s.fabWritable d (s.rd (F.BOOT_SPI_DST_ADDR d) + k) = true) :
    s.spiDone d data wp = ((s.spiEnds d wp).fabPut d (s.rd (F.BOOT_SPI_DST_ADDR d)) (data.take (s.rd (F.BOOT_SPI_LEN_LEN d)))).wr (F.BOOT_SPI_STATUS_ERROR d) 0 := by
  rw [State.spiDone_eq, s.spiEnds_opcode, h, if_neg Bool.false_ne_true, if_pos]
  refine List.all_eq_true.2 fun k hk => ?_
  rw [s.spiEnds_writable hd]
  exact hw k (List.mem_range.1 hk)

theorem State.spiDone_readFails (hw : ∃ k, k < (data.take (s.rd (F.BOOT_SPI_LEN_LEN d))).length ∧ s.fabWritable d (s.rd (F.BOOT_SPI_DST_ADDR d) + k) = false) :
    s.spiDone d data wp = (s.spiEnds d wp).spiFails d (s.rd (F.BOOT_SPI_DST_ADDR d)) true := by
  obtain ⟨k, hk, hno⟩ := hw
  rw [State.spiDone_eq, s.spiEnds_opcode, h, if_neg Bool.false_ne_true, if_neg]
  intro hall
  have hyes := List.all_eq_true.1 hall k (List.mem_range.2 hk)
  rw [s.spiEnds_writable hd, hno] at hyes
  exact Bool.false_ne_true hyes

end

theorem State.spiFails_ended {t : State} {wp : Bool} (h : t.SpiEnded d wp) (hd : d < 8) (dst : Nat) (write : Bool) :
    (t.fabFail d (if d = 0 then 23 else 15) write dst).SpiEnded d wp :=
  h.of_reg (t.reg_fabFail d _ write dst (spi_not_fabricReg hd (.inl rfl))) (t.reg_fabFail d _ write dst (spi_not_fabricReg hd (.inr rfl)))

theorem State.SpiEnded.fabPut {t : State} {wp : Bool} (h : t.SpiEnded d wp) (dst : Nat) (bs : List Byte) : (t.fabPut d dst bs).SpiEnded d wp :=
  h.of_reg (t.reg_fabPut d dst bs _) (t.reg_fabPut d dst bs _)

end

/-- Settles O58: by the branch of the model that each hypothesis selects; an access over the fabric leaves the flash controller's registers. -/
theorem bootAndFlash : Obligations.BootAndFlash := by
  unfold Obligations.BootAndFlash
  refine ⟨fun img s hrom hsrc => ?image, fun data s hrom hsrc => ?frame, fun s hup => ?mbox, fun d s hcrown hup => ?cores, fun d off v s hup => ?sram,
    fun d v s hup => ?go, fun d data wp s => ?done⟩
  case image =>
    refine ⟨fun hok => ?_, fun hok => (exec_bootImageLoaded hrom hsrc).trans (congrArg _ (State.imageLoaded_bad hok))⟩
    have hrun := State.only_runImage (s.sramPut 0 0 (img.take 2097152)) 0 s.bootSrc
    refine ⟨_, (exec_bootImageLoaded hrom hsrc).trans (congrArg _ (State.imageLoaded_good hok)), State.runImage_stage _ _ _, State.runImage_used _ _ _ s.bootSrc_lt,
      State.runImage_error _ _ _, State.runImage_lock _ _ _, ?_, ?_, Only.of_rst hrun⟩
    · rw [hrun.rst]
      exact State.mem_withCores _ 0
    · rw [hrun.rst]
      rfl
  case frame =>
    obtain ⟨hframe, htime⟩ := exec_bootTwin hrom hsrc
    refine ⟨fun hp => (hframe data).trans (congrArg _ (State.bootFrame_part rfl hp)), fun hp hok => (hframe data).trans (congrArg _ (State.bootFrame_good rfl hp hok)),
      fun hp hok => ?_, ⟨_, htime, s.nextSource_shows⟩⟩
    refine ⟨_, (hframe data).trans (congrArg _ (State.bootFrame_bad rfl hp hok)), ?_, State.badImage_reason _ _ _, State.badImage_error _ _ _,
      Only.of_rst (State.only_badImage _ 0 _)⟩
    rw [(State.only_badImage _ 0 _).rst]
    rfl
  case mbox =>
    refine ⟨fun h => (exec_bootMboxGo hup).trans (congrArg _ (State.mboxGo_ignored h)), fun hrom hsrc hok => (exec_bootMboxGo hup).trans (congrArg _ (State.mboxGo_good hrom hsrc hok)),
      fun hrom hsrc hok => ?_⟩
    obtain ⟨hstage, hfall, hreason, honly⟩ := (s.badImage 0 R.BOOT_MBOX_CTL).bootWait_shows
    exact ⟨_, (exec_bootMboxGo hup).trans (congrArg _ (State.mboxGo_bad hrom hsrc hok)), hstage, hreason.trans (State.badImage_reason _ _ _), hfall,
      (State.only_badImage _ 0 _).trans honly⟩
  case cores =>
    have hexec := exec_bootCoresRun (s := s) hcrown hup
    refine ⟨fun h => (hexec true).trans (congrArg _ (State.coresWrite_set (.inl h))), fun hdown hrun hok => ?_, fun hdown hrun hok hserve => ?_,
      fun h => (hexec true).trans (congrArg _ (State.coresWrite_set (.inr h))), fun h => (hexec false).trans (congrArg _ (State.coresWrite_clear h)), fun hdown hrun => ?_⟩
    · rw [hexec, State.coresWrite_checks hdown hrun]
      exact congrArg (fun x => Host.Outcome.next (State.serveCrown x d)) (if_pos hok)
    · obtain ⟨hstage, hreason, hon, honly⟩ := s.badCores_shows d
      refine ⟨_, (hexec true).trans (congrArg _ ((State.coresWrite_checks hdown hrun).trans ?_)), hstage, hreason, hon, honly⟩
      exact (congrArg (State.serveCrown · d) (if_neg (Bool.eq_false_iff.1 hok))).trans (State.serveCrown_inService (by rw [honly.rst]; exact hserve))
    · refine ⟨_, (hexec false).trans (congrArg _ (State.coresWrite_stop hdown hrun)), State.rd_wr_eq _ _ _ rfl, ?_, ?_⟩
      · exact (State.on_of_rd (State.rd_wr_off _ _ (bootCores_ne_status d))).trans (s.on_setReg_cores d 0)
      · exact .wr (.setReg (.refl _ _) (R.BOOT_CORES d) 0 (.head _)) (F.BOOT_STATUS_STAGE d) 0 (.tail _ (.head _))
  case sram =>
    have hexec : exec (.bootSramWrite d off v) s = .next (s.bootSramWrite d (off * 4) v) := by
      change Host.Outcome.next (s.when _ _) = _
      rw [hup, State.when_true]
    refine ⟨fun h => ?_, fun h => ?_⟩
    · exact gives_refused (hexec.trans (congrArg _ (if_pos (List.contains_iff_mem.2 h)))) (.head _) (recReg_boot d) (by decide)
    · refine ⟨_, hexec.trans (congrArg _ (if_neg fun hc => h (List.contains_iff_mem.1 hc))), fun b hb => ?_, fun a ha => ?_, s.sramPut_frame d _ _⟩
      · rw [State.sramByte_sramPut, if_pos (by simp [wordBytes]; omega), Nat.add_sub_cancel_left]
        exact wordBytes_getD v hb
      · rw [State.sramByte_sramPut, if_neg (by simp [wordBytes]; omega)]
  case go =>
    obtain ⟨hop, hgo⟩ := getBits_spiGo v
    have hne := spiCmd_ne_status d
    have hreg := s.reg_setReg_same (R.BOOT_SPI_CMD d) ((v ||| 0x80000000) &&& 0x80003FFF)
    refine ⟨_, exec_bootSpiGo hup, State.rd_wr_eq _ _ _ rfl, ?_, ?_, ?_⟩
    · exact (State.rd_wr_off _ _ hne).trans ((congrArg (getBits · 0 8) hreg).trans hop)
    · exact (State.rd_wr_off _ _ hne).trans ((congrArg (getBits · 31 1) hreg).trans hgo)
    · exact .wr (.setReg (.refl _ _) (R.BOOT_SPI_CMD d) _ (.head _)) (F.BOOT_SPI_STATUS_BUSY d) 1 (.tail _ (.head _))
  case done =>
    have hended := s.spiEnds_ended d wp
    refine ⟨fun h => ?_, fun h => ⟨hended.error (by decide), s.only_spiEnds d wp, fun u bs hp hr => ?_, fun u hp hr => ?_, fun hp hw => ?_, fun hp hw => ?_⟩⟩
    · change Host.Outcome.next (s.when _ _) = _
      rw [h, State.when_false]
    · exact (exec_bootSpiDone h).trans (congrArg _ (State.spiDone_program hp hr))
    · have hmaster : (if d = 0 then 23 else 15) = if d.val = 0 then 23 else 15 := by simp only [Fin.ext_iff, Fin.val_zero]
      rw [hmaster]
      exact (exec_bootSpiDone h).trans (congrArg _ (State.spiDone_program hp hr))
    · refine ⟨_, (exec_bootSpiDone h).trans (congrArg _ (State.spiDone_read hp d.isLt hw)), (hended.fabPut _ _).error (by decide), fun a ha hr => ?_⟩
      rw [State.reg_wr_ne _ (F.BOOT_SPI_STATUS_ERROR d) _ (List.ne_of_not_mem_cons ha), State.reg_fabPut]
      exact (s.only_spiEnds d wp).reg ha hr
    · refine ⟨_, (exec_bootSpiDone h).trans (congrArg _ (State.spiDone_readFails hp d.isLt hw)), (State.spiFails_ended hended d.isLt _ _).error (by decide), ?_⟩
      exact ((((MemSame.refl s).wr _ _).wr _ _).wr _ _ |>.fabFail _ _ _ _).wr _ _

end Sys2Proof.Machine
end

section
/-!
PROOFS. Witness messages (R357 to R362): what every message does before it is acted on, what a noted message leaves as it was, and
what this package sends.
-/
namespace Sys2Proof.Machine

/-! ## A message as it comes in (R78, R360) -/

/-- What a message of a type does once it has passed its checks. -/
def State.witEffect (s : State) (m : WitMsg) : Nat → State
  | 1 => s.witRenew m
  | 2 => s.witGrant m
  | 3 => s.witSuspect m
  | 4 => s.witProbe m
  | 5 => s.when (s.isWitness && (s.wit m.pair).probing) fun s => s.setWit m.pair { s.wit m.pair with acked := (s.wit m.pair).acked ++ [m.sender] }
  | 6 => s.witFence m
  | 7 => s.when (s.isWitness && (s.wit m.pair).promote && (s.wit m.pair).active == some m.sender) fun s =>
      (s.witSend 8 m.pair ((s.wit m.pair).term + 1) 1).witPromoted m.pair
  | 8 => s.witVerdict m
  | _ => s.when (s.isWitness && (s.wit m.pair).active == some m.sender && decide ((s.wit m.pair).term ≤ m.term)) fun s =>
      (s.witSend 8 m.pair ((s.wit m.pair).term + 1) 1).witPromoted m.pair

/-- The nine messages, by type. -/
def witCmds (m : WitMsg) : List (Nat × Instr) :=
  [(1, .witRenew m), (2, .witGrant m), (3, .witSuspect m), (4, .witProbe m), (5, .witProbeAck m), (6, .witFence m), (7, .witFenceAck m), (8, .witVerdict m), (9, .witYield m)]

theorem exec_witMessage {m : WitMsg} {c : Nat × Instr} (h : c ∈ witCmds m) (s : State) :
    exec c.2 s = .next (s.witFrameIn.witTake c.1 m fun s => s.witEffect m c.1) := by
  simp only [witCmds, List.mem_cons, List.not_mem_nil, or_false] at h
  rcases h with rfl | rfl | rfl | rfl | rfl | rfl | rfl | rfl | rfl <;> rfl

section
variable {s : State} {typ : Nat} {m : WitMsg} (f : State → State)

theorem State.witTake_off (h : s.on F.TWIN_CFG_EN = false) : s.witTake typ m f = s := if_pos (by rw [h]; rfl)

theorem State.witTake_bad (h : s.on F.TWIN_CFG_EN = true) (hbad : s.witOk typ m = false) : s.witTake typ m f = s.inc F.TWIN_CNT_B_WIT_DROP :=
  (if_neg (by rw [h]; exact Bool.false_ne_true)).trans (if_neg (by rw [hbad]; exact Bool.false_ne_true))

theorem State.witTake_heard (h : s.on F.TWIN_CFG_EN = true) (hok : s.witOk typ m = true) : s.witTake typ m f = f (s.heard m) :=
  (if_neg (by rw [h]; exact Bool.false_ne_true)).trans (if_pos hok)

end

/-! ## The stamp of a datagram (R78) -/

section
variable (s : State)

theorem State.witFrameIn_frame : s.witFrameIn = { s with ptp := { s.ptp with rxAt := s.witFrameIn.ptp.rxAt } } := by
  unfold State.witFrameIn State.when
  split
  · exact s.frameIn_frame _
  · rfl

theorem State.witFrameIn_mailbox (h : s.rd F.TWIN_CFG_WIT_KIND = 2) : s.witFrameIn = s := by
  rw [State.witFrameIn, h, bne_self_eq_false, State.when_false]

theorem State.witFrameIn_mac (h : s.rd F.TWIN_CFG_WIT_KIND ≠ 2) (hup : s.macUp (s.rd F.TWIN_CFG_WIT_MAC) = true) :
    s.witFrameIn = s.stampRx (s.rd F.TWIN_CFG_WIT_MAC) := by
  rw [State.witFrameIn, bne_iff_ne.2 h, State.when_true, State.frameIn, hup, State.when_true]

theorem State.rd_witFrameIn (f : Fld) : s.witFrameIn.rd f = s.rd f := by rw [State.witFrameIn_frame]; rfl
theorem State.on_witFrameIn (f : Fld) : s.witFrameIn.on f = s.on f := by rw [State.witFrameIn_frame]; rfl
theorem State.witOk_witFrameIn (typ : Nat) (m : WitMsg) : s.witFrameIn.witOk typ m = s.witOk typ m := by rw [State.witFrameIn_frame]; rfl
theorem State.red_witFrameIn : s.witFrameIn.red = s.red := by rw [State.witFrameIn_frame]
theorem State.cycle_witFrameIn : s.witFrameIn.cycle = s.cycle := by rw [State.witFrameIn_frame]
theorem State.sent_witFrameIn : s.witFrameIn.sent = s.sent := by rw [State.witFrameIn_frame]
theorem State.tstamp_witFrameIn : s.witFrameIn.tstamp = s.tstamp := by rw [State.witFrameIn_frame]; rfl

end

/-- A message that has passed its checks, as a state. -/
def State.took (s : State) (m : WitMsg) : State := s.witFrameIn.heard m

theorem exec_witMessage_heard {m : WitMsg} {c : Nat × Instr} (h : c ∈ witCmds m) {s : State} (hen : s.on F.TWIN_CFG_EN = true) (hok : s.witOk c.1 m = true) :
    exec c.2 s = .next ((s.took m).witEffect m c.1) :=
  (exec_witMessage h s).trans (congrArg _ (State.witTake_heard _ (hen ▸ s.on_witFrameIn _) (hok ▸ s.witOk_witFrameIn _ _)))

theorem exec_witMessage_off {m : WitMsg} {c : Nat × Instr} (h : c ∈ witCmds m) {s : State} (hen : s.on F.TWIN_CFG_EN = false) :
    exec c.2 s = .next s.witFrameIn :=
  (exec_witMessage h s).trans (congrArg _ (State.witTake_off _ (hen ▸ s.on_witFrameIn _)))

theorem exec_witMessage_bad {m : WitMsg} {c : Nat × Instr} (h : c ∈ witCmds m) {s : State} (hen : s.on F.TWIN_CFG_EN = true) (hok : s.witOk c.1 m = false) :
    exec c.2 s = .next (s.witFrameIn.inc F.TWIN_CNT_B_WIT_DROP) :=
  (exec_witMessage h s).trans (congrArg _ (State.witTake_bad _ (hen ▸ s.on_witFrameIn _) (hok ▸ s.witOk_witFrameIn _ _)))

/-! ## What a noted message leaves -/

section
variable (s : State) (m : WitMsg)

/-- The last SEQ of the sender. -/
def State.seqNoted : State := { s with red := { s.red with seqs := (m.sender, m.seq) :: s.red.seqs.filter (·.1 != m.sender) } }

theorem State.heard_eq : s.heard m = (s.seqNoted m).wr F.TWIN_STATUS_WIT_OK 1 := rfl

theorem State.rd_seqNoted (f : Fld) : (s.seqNoted m).rd f = s.rd f := rfl

theorem State.rd_took {f : Fld} (h : f.reg ≠ R.TWIN_STATUS) : (s.took m).rd f = s.rd f := by
  rw [State.took, State.heard_eq, State.rd_wr_off _ _ h, State.rd_seqNoted, State.rd_witFrameIn]

theorem State.on_took {f : Fld} (h : f.reg ≠ R.TWIN_STATUS) : (s.took m).on f = s.on f := State.on_of_rd (s.rd_took m h)

theorem State.twinUp_took : (s.took m).twinUp = s.twinUp := by
  have hlink : (s.took m).rd F.TWIN_STATUS_LINK = s.rd F.TWIN_STATUS_LINK := by
    rw [State.took, State.heard_eq]
    exact (State.rd_wr_beside _ _ rfl rfl).trans (s.rd_witFrameIn _)
  rw [State.twinUp, State.twinUp, hlink, s.on_took m (by decide)]

theorem State.witOkShown_took : (s.took m).rd F.TWIN_STATUS_WIT_OK = 1 := State.rd_wr_eq _ _ _ rfl

theorem State.red_took : (s.took m).red = { s.red with seqs := (m.sender, m.seq) :: s.red.seqs.filter (·.1 != m.sender) } := by
  rw [State.took, State.heard_eq, State.wr_red, State.seqNoted, State.red_witFrameIn]

theorem State.cycle_took : (s.took m).cycle = s.cycle := by
  rw [State.took, State.heard_eq, State.wr_cycle, State.seqNoted, State.cycle_witFrameIn]

theorem State.sent_took : (s.took m).sent = s.sent := by
  rw [State.took, State.heard_eq, State.wr_sent, State.seqNoted, State.sent_witFrameIn]

theorem State.tstamp_took : (s.took m).tstamp = s.tstamp := (show (s.took m).tstamp = s.witFrameIn.tstamp from rfl).trans s.tstamp_witFrameIn

theorem State.pair_took (n : Nat) : (s.took m).pair n = s.pair n := by
  rw [State.pair, State.red_took]
  rfl

theorem State.wit_took (id : Nat) : (s.took m).wit id = s.wit id := by
  rw [State.wit, State.red_took]
  rfl

theorem State.misses_took : (s.took m).red.misses = s.red.misses := by rw [State.red_took]

theorem State.txSeq_took : (s.took m).red.txSeq = s.red.txSeq := by rw [State.red_took]

theorem State.pairOn_took (n : Nat) : (s.took m).pairOn n = s.pairOn n :=
  s.on_took m (by simp only [F.PAIR_n_CFG_EN, R.PAIR_n_CFG, R.TWIN_STATUS]; omega)

theorem State.pairTwin_took (n : Nat) : (s.took m).pairTwin n = s.pairTwin n :=
  s.on_took m (by simp only [F.PAIR_n_CFG_KIND, R.PAIR_n_CFG, R.TWIN_STATUS]; omega)

theorem State.pairId_took (n : Nat) : (s.took m).pairId n = s.pairId n :=
  s.rd_took m (by simp only [F.PAIR_n_ID_ID, R.PAIR_n_ID, R.TWIN_STATUS]; omega)

theorem State.pairTerm_took (n : Nat) : (s.took m).pairTerm n = s.pairTerm n :=
  s.rd_took m (by simp only [F.PAIR_n_TERM_TERM, R.PAIR_n_TERM, R.TWIN_STATUS]; omega)

theorem State.leaseMs_took (n : Nat) : (s.took m).leaseMs n = s.leaseMs n :=
  s.rd_took m (by simp only [F.PAIR_n_LEASE_LEASE_MS, R.PAIR_n_LEASE, R.TWIN_STATUS]; omega)

theorem State.role_took (n : Nat) : (s.took m).role n 0 = s.role n 0 :=
  s.rd_took m (by simp only [roleField, if_true, F.PAIR_n_STATUS_ROLE_A, R.PAIR_n_STATUS, R.TWIN_STATUS]; omega)

theorem State.isWitness_took : (s.took m).isWitness = s.isWitness := congrArg (· == 3) (s.rd_took m (f := F.TWIN_CFG_WIT_KIND) (by decide))

theorem State.twinPair_took (id : Nat) : (s.took m).twinPair id = s.twinPair id := by
  simp only [State.twinPair, State.pairOn_took, State.pairTwin_took, State.pairId_took]

theorem State.witLease_took (id : Nat) : (s.took m).witLease id = s.witLease id := by
  simp only [State.witLease, State.pairId_took, State.leaseMs_took]

end

/-! ## Frames -/

theorem Only.with_red {as : List Nat} {s t : State} (h : Only as s t) (r : Redund) : Only as { s with red := r } { t with red := r } :=
  ⟨h.1, by rw [OnlyRegs, h.2]⟩

theorem Only.of_red {as : List Nat} {s t : State} {r : Redund} (h : Only as { s with red := r } t) : Only as { s with red := t.red } t := by
  have e : t.red = r := by rw [h.2]
  rw [e]
  exact h

/-- A noted message moves TWIN_STATUS alone, beside what the unit keeps of the twin. -/
theorem State.only_took (s : State) (m : WitMsg) : Only [R.TWIN_STATUS] { s.witFrameIn with red := (s.took m).red } (s.took m) :=
  Only.of_red (r := (s.witFrameIn.seqNoted m).red) (only_wr (s.witFrameIn.seqNoted m) F.TWIN_STATUS_WIT_OK 1)

/-- More of what a unit keeps of the twin, in the state after. -/
theorem Only.red_after {as : List Nat} {s t : State} (h : Only as { s with red := t.red } t) (r : Redund) : Only as { s with red := r } { t with red := r } :=
  h.with_red r

theorem Only.setPair {as : List Nat} {s t : State} (h : Only as { s with red := t.red } t) (n : Nat) (x : PairSt) :
    Only as { s with red := (t.setPair n x).red } (t.setPair n x) := h.red_after (t.setPair n x).red

/-- A write beside what a unit keeps of the twin. -/
theorem Only.wr_red {as : List Nat} {s t : State} (h : Only as { s with red := t.red } t) (f : Fld) (v : Nat) (hf : f.reg ∈ as) :
    Only as { s with red := (t.wr f v).red } (t.wr f v) := Only.of_red (h.wr f v hf)

/-! ## What this package sends (R360) -/

/-- The SEQ of the k-th message from now. -/
def State.atSeq (s : State) (k : Nat) : State := { s with red := { s.red with txSeq := (s.red.txSeq + k) % 2 ^ 32 } }

/-- The k-th message from now, as it leaves. -/
def State.witMessage (s : State) (k typ id term val : Nat) : Msg :=
  Msg.witness typ ((s.atSeq k).witMsg typ id term val) ((s.atSeq k).witFrame ((s.atSeq k).witMsg typ id term val) typ)

section
variable (s : State) (typ id term val : Nat)

theorem State.witOut_datagram (m : WitMsg) (h : s.rd F.TWIN_CFG_WIT_KIND ≠ 2) :
    s.witOut m typ = (s.stampTx (s.rd F.TWIN_CFG_WIT_MAC)).send (.witness typ m (s.witFrame m typ)) := if_neg h

theorem State.witSend_eq (h : s.rd F.TWIN_CFG_WIT_KIND ≠ 2) :
    s.witSend typ id term val = ((s.atSeq 1).stampTx (s.rd F.TWIN_CFG_WIT_MAC)).send (s.witMessage 1 typ id term val) :=
  (s.atSeq 1).witOut_datagram typ ((s.atSeq 1).witMsg typ id term val) h

end

end Sys2Proof.Machine
end

section
/-!
PROOFS. What a package does as a witness (R357, R358, R360, R362).
-/
namespace Sys2Proof.Machine

/-! ## What a witness's messages leave as it was -/

/-- Registers of a list, what a unit keeps of the twin, what has left, and the MACs' stamps. -/
def LinkOnly (as : List Nat) (s t : State) : Prop :=
  Only as { s with red := t.red, sent := t.sent, ptp := { s.ptp with rxAt := t.ptp.rxAt, txAt := t.ptp.txAt } } t

/-- What a unit keeps of the twin, what has left, and the transmit stamps. -/
def SendOnly (s t : State) : Prop := t = { s with red := t.red, sent := t.sent, ptp := { s.ptp with txAt := t.ptp.txAt } }

theorem LinkOnly.send {as : List Nat} {s t u : State} (h : LinkOnly as s t) (hu : SendOnly t u) : LinkOnly as s u := by
  obtain ⟨hregs, hrest⟩ := h
  refine ⟨fun a ha hr => ?_, ?_⟩
  · have hreg : u.reg a = t.reg a := by rw [hu]; rfl
    exact hreg.trans (hregs a ha hr)
  · rw [OnlyRegs] at hrest ⊢
    rw [hu, hrest]

theorem SendOnly.refl (s : State) : SendOnly s s := rfl

theorem SendOnly.trans {s t u : State} (h : SendOnly s t) (g : SendOnly t u) : SendOnly s u := by
  rw [SendOnly] at h g ⊢
  rw [g, h]

theorem State.sendOnly_setWit (s : State) (id : Nat) (x : WitSt) : SendOnly s (s.setWit id x) := rfl

theorem State.sendOnly_atSeq (s : State) (k : Nat) : SendOnly s (s.atSeq k) := rfl

theorem State.sendOnly_stamped (s : State) (mac : Nat) (x : Msg) : SendOnly s ((s.stampTx mac).send x) := rfl

theorem State.sendOnly_witSend (s : State) (typ id term val : Nat) (h : s.rd F.TWIN_CFG_WIT_KIND ≠ 2) : SendOnly s (s.witSend typ id term val) := by
  rw [s.witSend_eq typ id term val h]
  exact (s.sendOnly_atSeq 1).trans (State.sendOnly_stamped _ _ _)

theorem SendOnly.rd {s t : State} (h : SendOnly s t) (f : Fld) : t.rd f = s.rd f := by rw [h]; rfl

theorem SendOnly.cycle {s t : State} (h : SendOnly s t) : t.cycle = s.cycle := by rw [h]

theorem State.linkOnly_took (s : State) (m : WitMsg) : LinkOnly [R.TWIN_STATUS] s (s.took m) := by
  obtain ⟨hregs, hrest⟩ := s.only_took m
  refine ⟨fun a ha hr => (hregs a ha hr).trans ?_, ?_⟩
  · rw [State.witFrameIn_frame]
    rfl
  · rw [OnlyRegs] at hrest ⊢
    rw [hrest, State.witFrameIn_frame]

/-! ## The message that goes out -/

/-- Two states from which the same messages leave. -/
structure SameSender (s t : State) : Prop where
  rd : ∀ f : Fld, f.reg ≠ R.TWIN_STATUS → t.rd f = s.rd f
  seq : t.red.txSeq = s.red.txSeq
  clock : t.tstamp = s.tstamp

section
variable {s t : State} (h : SameSender s t) (k typ id term val : Nat)
include h

theorem SameSender.witKey : (t.atSeq k).witKey = (s.atSeq k).witKey := by
  refine congrArg List.sum (List.map_congr_left fun w hw => ?_)
  have hlt := List.mem_range.1 hw
  have hrd : (t.atSeq k).rd (F.TWIN_KEY_KEY w) = (s.atSeq k).rd (F.TWIN_KEY_KEY w) :=
    h.rd (F.TWIN_KEY_KEY w) (by simp only [F.TWIN_KEY_KEY, R.TWIN_KEY, R.TWIN_STATUS]; omega)
  rw [hrd]

theorem SameSender.witMsg : (t.atSeq k).witMsg typ id term val = (s.atSeq k).witMsg typ id term val := by
  have hseq : (t.atSeq k).red.txSeq = (s.atSeq k).red.txSeq := congrArg (fun n => (n + k) % 2 ^ 32) h.seq
  have hclock : (t.atSeq k).tstamp = (s.atSeq k).tstamp := h.clock
  simp only [State.witMsg, h.witKey k, hseq, hclock, State.twinUnit]

theorem SameSender.witFrame (m : WitMsg) : (t.atSeq k).witFrame m typ = (s.atSeq k).witFrame m typ := by
  have hrd : ∀ f : Fld, f.reg ≠ R.TWIN_STATUS → (t.atSeq k).rd f = (s.atSeq k).rd f := h.rd
  simp only [State.witFrame, hrd F.TWIN_CFG_WIT_MAC (by decide), hrd F.TWIN_SRC_IP_ADDR (by decide), hrd F.TWIN_WIT_IP_ADDR (by decide),
    hrd F.TWIN_WIT_PORT_SPORT (by decide), hrd F.TWIN_WIT_PORT_DPORT (by decide)]

theorem SameSender.witMessage : t.witMessage k typ id term val = s.witMessage k typ id term val := by
  rw [State.witMessage, State.witMessage, h.witMsg, h.witFrame]

end

theorem State.sameSender_took (s : State) (m : WitMsg) : SameSender s (s.took m) := ⟨fun _ hf => s.rd_took m hf, s.txSeq_took m, s.tstamp_took m⟩

theorem SameSender.setWit {s t : State} (h : SameSender s t) (id : Nat) (x : WitSt) : SameSender s (t.setWit id x) := ⟨h.rd, h.seq, h.clock⟩

theorem SameSender.refl (s : State) : SameSender s s := ⟨fun _ _ => rfl, rfl, rfl⟩

/-! ## What a sent message changes -/

section
variable (s : State) (typ id term val : Nat) (h : s.rd F.TWIN_CFG_WIT_KIND ≠ 2)
include h

theorem State.sent_witSend : (s.witSend typ id term val).sent = s.witMessage 1 typ id term val :: s.sent := by
  rw [s.witSend_eq typ id term val h]
  rfl

theorem State.red_witSend : (s.witSend typ id term val).red = (s.atSeq 1).red := by
  rw [s.witSend_eq typ id term val h]
  rfl

theorem State.wit_witSend (k : Nat) : (s.witSend typ id term val).wit k = s.wit k := by
  rw [State.wit, s.red_witSend typ id term val h]
  rfl

theorem State.tstamp_witSend : (s.witSend typ id term val).tstamp = s.tstamp := by
  rw [s.witSend_eq typ id term val h]
  rfl

/-- The second of two messages. -/
theorem State.witMessage_witSend (typ' id' term' val' : Nat) :
    (s.witSend typ id term val).witMessage 1 typ' id' term' val' = s.witMessage 2 typ' id' term' val' := by
  have hsame : SameSender (s.atSeq 1) (s.witSend typ id term val) :=
    ⟨fun f _ => (s.sendOnly_witSend typ id term val h).rd f, by rw [s.red_witSend typ id term val h], s.tstamp_witSend typ id term val h⟩
  have hseq : (s.atSeq 1).atSeq 1 = s.atSeq 2 := by
    rw [State.atSeq, State.atSeq, State.atSeq]
    simp only [Nat.mod_add_mod, Nat.add_assoc]
  rw [hsame.witMessage, State.witMessage, State.witMessage, hseq]

end

section
variable (s : State) {id k : Nat} (x : WitSt)

theorem State.wit_setWit_same : (s.setWit id x).wit id = x := mapGet_set_same _ s.red.wits id x

theorem State.wit_setWit_ne (h : k ≠ id) : (s.setWit id x).wit k = s.wit k := mapGet_set_ne _ s.red.wits x h

theorem State.rd_setWit (f : Fld) : (s.setWit id x).rd f = s.rd f := rfl

theorem State.sent_setWit : (s.setWit id x).sent = s.sent := rfl

theorem State.twinPair_setWit : (s.setWit id x).twinPair k = s.twinPair k := rfl

end

/-- A unit's record once its standby is the active one, with the next TERM. -/
def WitSt.promoted (x : WitSt) : WitSt := { x with active := x.standby, standby := none, term := x.term + 1, promote := false, leaseEnd := 0 }

theorem State.witPromoted_eq (s : State) (id : Nat) : s.witPromoted id = s.setWit id (s.wit id).promoted := rfl

/-! ## Messages at a witness -/

section
variable {s : State} {m : WitMsg} (hkind : s.rd F.TWIN_CFG_WIT_KIND = 3)
include hkind

theorem State.isWitness_of_kind : s.isWitness = true := beq_iff_eq.2 hkind

theorem State.took_kind : (s.took m).rd F.TWIN_CFG_WIT_KIND ≠ 2 := by
  rw [s.rd_took m (by decide), hkind]
  decide

/-- A record that is kept, then a message sent. -/
theorem witness_keeps_sends (x : WitSt) (typ term val : Nat) :
    let t := ((s.took m).setWit m.pair x).witSend typ m.pair term val
    t.wit m.pair = x ∧ t.sent = s.witMessage 1 typ m.pair term val :: s.sent ∧ (∀ id, id ≠ m.pair → t.wit id = s.wit id) ∧ LinkOnly [R.TWIN_STATUS] s t := by
  have hk : ((s.took m).setWit m.pair x).rd F.TWIN_CFG_WIT_KIND ≠ 2 := State.took_kind hkind
  refine ⟨(State.wit_witSend _ _ _ _ _ hk _).trans (State.wit_setWit_same _ x), ?_, fun id hid => ?_, ?_⟩
  · rw [State.sent_witSend _ _ _ _ _ hk, State.sent_setWit, State.sent_took, ((s.sameSender_took m).setWit m.pair x).witMessage]
  · rw [State.wit_witSend _ _ _ _ _ hk, State.wit_setWit_ne _ x hid, State.wit_took]
  · exact ((s.linkOnly_took m).send (State.sendOnly_setWit _ _ x)).send (State.sendOnly_witSend _ _ _ _ _ hk)

/-- The PROMOTE message, then the record of the promoted unit. -/
theorem witness_promotes :
    let t := ((s.took m).witSend 8 m.pair (((s.took m).wit m.pair).term + 1) 1).witPromoted m.pair
    t.wit m.pair = (s.wit m.pair).promoted ∧ t.sent = s.witMessage 1 8 m.pair ((s.wit m.pair).term + 1) 1 :: s.sent ∧ (∀ id, id ≠ m.pair → t.wit id = s.wit id) ∧
      LinkOnly [R.TWIN_STATUS] s t := by
  have hk := State.took_kind (m := m) hkind
  simp only [State.witPromoted_eq, State.wit_took]
  refine ⟨?_, ?_, fun id hid => ?_, ?_⟩
  · rw [State.wit_setWit_same, State.wit_witSend _ _ _ _ _ hk, State.wit_took]
  · rw [State.sent_setWit, State.sent_witSend _ _ _ _ _ hk, State.sent_took, (s.sameSender_took m).witMessage]
  · rw [State.wit_setWit_ne _ _ hid, State.wit_witSend _ _ _ _ _ hk, State.wit_took]
  · exact ((s.linkOnly_took m).send (State.sendOnly_witSend _ _ _ _ _ hk)).send (State.sendOnly_setWit _ _ _)

theorem State.witRenew_grants (hterm : (s.wit m.pair).term ≤ m.term)
    (hmine : (s.wit m.pair).active = none ∨ (s.wit m.pair).active = some m.sender ∨ m.term = (s.wit m.pair).term + 1) :
    (s.took m).witRenew m = ((s.took m).setWit m.pair { s.wit m.pair with
      active := some m.sender, term := m.term
      leaseEnd := s.cycle + msCycles (s.witLease m.pair) + msCycles 1 + msCycles (s.witLease m.pair) / 1000 }).witSend 2 m.pair m.term (s.witLease m.pair) := by
  have hgo : ¬((!s.isWitness) = true ∨ m.term < (s.wit m.pair).term ∨
      (!decide ((s.wit m.pair).active = none ∨ ((s.wit m.pair).active = some m.sender ∧ (s.wit m.pair).term ≤ m.term) ∨ m.term = (s.wit m.pair).term + 1)) = true) := by
    have hyes : (s.wit m.pair).active = none ∨ ((s.wit m.pair).active = some m.sender ∧ (s.wit m.pair).term ≤ m.term) ∨ m.term = (s.wit m.pair).term + 1 :=
      hmine.imp_right (Or.imp_left fun h => ⟨h, hterm⟩)
    rw [State.isWitness_of_kind hkind, decide_eq_true hyes]
    simpa using hterm
  simp only [State.witRenew, State.isWitness_took, State.wit_took, State.witLease_took, State.cycle_took]
  exact if_neg hgo

theorem State.witSuspect_probes (hterm : (s.wit m.pair).term ≤ m.term) : (s.took m).witSuspect m =
    ((s.took m).setWit m.pair { s.wit m.pair with standby := some m.sender, acked := [], probing := true }).witSend 4 m.pair m.term 0 := by
  have hgo : ¬((!s.isWitness) = true ∨ m.term < (s.wit m.pair).term) := by
    rw [State.isWitness_of_kind hkind]
    simpa using hterm
  simp only [State.witSuspect, State.isWitness_took, State.wit_took]
  exact if_neg hgo

end

/-! ## The end of a probe (R358) -/

section
variable {s : State} {id a b : Nat} (hkind : s.rd F.TWIN_CFG_WIT_KIND = 3) (ha : (s.wit id).active = some a) (hb : (s.wit id).standby = some b)

theorem exec_witProbeTimeout {id : Fin 65536} (hkind : s.rd F.TWIN_CFG_WIT_KIND = 3) (hp : (s.wit id).probing = true) :
    exec (.witProbeTimeout id) s = .next (s.witDecide id) := by
  change Host.Outcome.next (s.when _ _) = _
  rw [State.isWitness_of_kind hkind, hp, Bool.and_true, State.when_true]

include ha hb

/-- Both units answered: STAY. -/
theorem State.witDecide_stays (h1 : a ∈ (s.wit id).acked) (h2 : b ∈ (s.wit id).acked) :
    s.witDecide id = (s.setWit id { s.wit id with probing := false, promote := false }).witSend 8 id (s.wit id).term 0 := by
  simp only [State.witDecide, ha, hb, List.contains_iff_mem.2 h1, List.contains_iff_mem.2 h2, Bool.not_true, Bool.false_and]

/-- The active is silent: FENCE, and PROMOTE of the standby. -/
theorem State.witDecide_fences (h1 : a ∉ (s.wit id).acked) (h2 : b ∈ (s.wit id).acked) :
    let t := ((s.setWit id { s.wit id with probing := false, promote := true }).witSend 6 id ((s.wit id).term + 1) 0).witSend 8 id ((s.wit id).term + 1) 1
    s.witDecide id = if (s.wit id).leaseEnd ≤ t.cycle then t.witPromoted id else t := by
  have hno : (s.wit id).acked.contains a = false := Bool.eq_false_iff.2 fun h => h1 (List.contains_iff_mem.1 h)
  simp only [State.witDecide, ha, hb, hno, List.contains_iff_mem.2 h2, Bool.not_false, Bool.true_and]

/-- The standby is silent: nothing is sent. -/
theorem State.witDecide_silent (h2 : b ∉ (s.wit id).acked) : s.witDecide id = s.setWit id { s.wit id with probing := false, promote := false } := by
  have hno : (s.wit id).acked.contains b = false := Bool.eq_false_iff.2 fun h => h2 (List.contains_iff_mem.1 h)
  simp only [State.witDecide, ha, hb, hno, Bool.and_false]
  cases (s.wit id).acked.contains a <;> rfl

end

/-- FENCE to the active and PROMOTE to the standby, after the record is kept. -/
theorem witness_fences {s : State} (id : Nat) (x : WitSt) (hkind : s.rd F.TWIN_CFG_WIT_KIND = 3) (term : Nat) :
    let t := ((s.setWit id x).witSend 6 id term 0).witSend 8 id term 1
    t.wit id = x ∧ t.sent = s.witMessage 2 8 id term 1 :: s.witMessage 1 6 id term 0 :: s.sent ∧ (∀ k, k ≠ id → t.wit k = s.wit k) ∧ SendOnly s t ∧ t.cycle = s.cycle := by
  have hk : (s.setWit id x).rd F.TWIN_CFG_WIT_KIND ≠ 2 := by
    rw [State.rd_setWit, hkind]
    decide
  have hfence := (s.setWit id x).sendOnly_witSend 6 id term 0 hk
  have hk' : ((s.setWit id x).witSend 6 id term 0).rd F.TWIN_CFG_WIT_KIND ≠ 2 := by
    rw [hfence.rd]
    exact hk
  have honly := ((s.sendOnly_setWit id x).trans hfence).trans (State.sendOnly_witSend _ 8 id term 1 hk')
  have hsame := (SameSender.refl s).setWit id x
  refine ⟨?_, ?_, fun k hne => ?_, honly, honly.cycle⟩
  · rw [State.wit_witSend _ _ _ _ _ hk', State.wit_witSend _ _ _ _ _ hk, State.wit_setWit_same]
  · rw [State.sent_witSend _ _ _ _ _ hk', State.witMessage_witSend _ _ _ _ _ hk, State.sent_witSend _ _ _ _ _ hk, hsame.witMessage, hsame.witMessage, State.sent_setWit]
  · rw [State.wit_witSend _ _ _ _ _ hk', State.wit_witSend _ _ _ _ _ hk, State.wit_setWit_ne _ _ hne]

/-- Settles O46: each message's effect at the witness is a record kept and messages sent, whose words are read from the state before. -/
theorem witnessMessagesAtWitness : Obligations.WitnessMessagesAtWitness := by
  unfold Obligations.WitnessMessagesAtWitness
  refine ⟨fun m s hen hkind => ⟨fun hok hterm hmine => ?renew, fun hok hterm => ?suspect, fun hok hp => ?ack, fun hok hp ha => ?fenceAck, fun hok ha hterm => ?yield⟩,
    fun id a b s hkind hp ha hb => ⟨fun h1 h2 => ?stay, fun h1 h2 => ?promote, fun h2 => ?silent⟩, fun id s hkind hnone hp hend => ?ended⟩
  case renew =>
    obtain ⟨hwit, hsent, hother, honly⟩ := witness_keeps_sends (m := m) hkind { s.wit m.pair with
      active := some m.sender, term := m.term
      leaseEnd := s.cycle + msCycles (s.witLease m.pair) + msCycles 1 + msCycles (s.witLease m.pair) / 1000 } 2 m.term (s.witLease m.pair)
    exact ⟨_, (exec_witMessage_heard (c := (1, .witRenew m)) (by simp [witCmds]) hen hok).trans (congrArg _ (State.witRenew_grants hkind hterm hmine)), hwit, hsent, hother, honly⟩
  case suspect =>
    obtain ⟨hwit, hsent, hother, honly⟩ := witness_keeps_sends (m := m) hkind { s.wit m.pair with standby := some m.sender, acked := [], probing := true } 4 m.term 0
    exact ⟨_, (exec_witMessage_heard (c := (3, .witSuspect m)) (by simp [witCmds]) hen hok).trans (congrArg _ (State.witSuspect_probes hkind hterm)), hwit, hsent, hother, honly⟩
  case ack =>
    have hgo : ((s.took m).isWitness && ((s.took m).wit m.pair).probing) = true := by
      rw [State.isWitness_took, State.isWitness_of_kind hkind, State.wit_took, hp]
      rfl
    refine ⟨(s.took m).setWit m.pair { s.wit m.pair with acked := (s.wit m.pair).acked ++ [m.sender] }, ?_, State.wit_setWit_same _ _, ?_, fun id hid => ?_, ?_⟩
    · refine (exec_witMessage_heard (c := (5, .witProbeAck m)) (by simp [witCmds]) hen hok).trans ?_
      simp only [State.witEffect]
      rw [hgo, State.when_true, State.wit_took]
    · rw [State.sent_setWit, State.sent_took]
    · rw [State.wit_setWit_ne _ _ hid, State.wit_took]
    · exact (s.linkOnly_took m).send (State.sendOnly_setWit _ _ _)
  case fenceAck =>
    have hgo : ((s.took m).isWitness && ((s.took m).wit m.pair).promote && ((s.took m).wit m.pair).active == some m.sender) = true := by
      rw [State.isWitness_took, State.isWitness_of_kind hkind, State.wit_took, hp, ha, beq_self_eq_true]
      rfl
    obtain ⟨hwit, hsent, hother, honly⟩ := witness_promotes (m := m) hkind
    refine ⟨_, (exec_witMessage_heard (c := (7, .witFenceAck m)) (by simp [witCmds]) hen hok).trans (congrArg _ ?_), hwit, hsent, hother, honly⟩
    simp only [State.witEffect]
    rw [hgo, State.when_true]
  case yield =>
    have hgo : ((s.took m).isWitness && ((s.took m).wit m.pair).active == some m.sender && decide (((s.took m).wit m.pair).term ≤ m.term)) = true := by
      rw [State.isWitness_took, State.isWitness_of_kind hkind, State.wit_took, ha, beq_self_eq_true, decide_eq_true hterm]
      rfl
    obtain ⟨hwit, hsent, hother, honly⟩ := witness_promotes (m := m) hkind
    refine ⟨_, (exec_witMessage_heard (c := (9, .witYield m)) (by simp [witCmds]) hen hok).trans (congrArg _ ?_), hwit, hsent, hother, honly⟩
    simp only [State.witEffect]
    rw [hgo, State.when_true]
  case stay =>
    have hk : (s.setWit id { s.wit id with probing := false, promote := false }).rd F.TWIN_CFG_WIT_KIND ≠ 2 := by
      rw [State.rd_setWit, hkind]
      decide
    refine ⟨_, (exec_witProbeTimeout hkind hp).trans (congrArg _ (State.witDecide_stays ha hb h1 h2)), ?_, ?_, fun k hk' => ?_, ?_⟩
    · rw [State.wit_witSend _ _ _ _ _ hk, State.wit_setWit_same]
    · rw [State.sent_witSend _ _ _ _ _ hk]
      rfl
    · rw [State.wit_witSend _ _ _ _ _ hk, State.wit_setWit_ne _ _ hk']
    · exact (State.sendOnly_setWit s _ _).trans (State.sendOnly_witSend _ _ _ _ _ hk)
  case promote =>
    obtain ⟨hwit, hsent, hother, honly, hcycle⟩ := witness_fences id { s.wit id with probing := false, promote := true } hkind ((s.wit id).term + 1)
    have hdecide := State.witDecide_fences ha hb h1 h2
    simp only [hcycle] at hdecide
    refine ⟨_, (exec_witProbeTimeout hkind hp).trans (congrArg _ hdecide), ?_⟩
    split
    · refine ⟨(State.wit_setWit_same _ _).trans ((congrArg WitSt.promoted hwit).trans rfl), (State.sent_setWit _ _).trans hsent, fun k hk => ?_, honly.trans (State.sendOnly_setWit _ _ _)⟩
      exact (State.wit_setWit_ne _ _ hk).trans (hother k hk)
    · exact ⟨hwit, hsent, hother, honly⟩
  case silent =>
    exact ⟨_, (exec_witProbeTimeout hkind hp).trans (congrArg _ (State.witDecide_silent ha hb h2)), State.wit_setWit_same _ _, State.sent_setWit _ _,
      fun k hk => State.wit_setWit_ne _ _ hk, State.sendOnly_setWit _ _ _⟩
  case ended =>
    have hgo : s.isWitness = true ∧ (s.wit id).promote = true ∧ (s.wit id).leaseEnd ≤ s.cycle := ⟨State.isWitness_of_kind hkind, hp, hend⟩
    refine ⟨s.setWit id (s.wit id).promoted, (congrArg Host.Outcome.next ?_ : Host.Outcome.next (s.witLeaseOver id) = _), State.wit_setWit_same _ _, fun k hk => State.wit_setWit_ne _ _ hk, rfl⟩
    rw [State.witLeaseOver, if_pos hgo, State.witPromoted_eq, State.twinPair_setWit, hnone]

end Sys2Proof.Machine
end

section
/-!
PROOFS. Witness messages at a unit of a pair, and the witness mailbox (R354, R357 to R361, R370).
-/
namespace Sys2Proof.Machine

/-! ## A message for a pair of this package (R359) -/

theorem State.twinUp_setPair (s : State) (n : Nat) (x : PairSt) : (s.setPair n x).twinUp = s.twinUp := rfl

section
variable {s : State} {m : WitMsg} {n : Nat}

theorem State.forPair_taken (f : State → Nat → State) (hp : s.twinPair m.pair = some n) (hterm : s.pairTerm n ≤ m.term) : s.forPair m f = f s n := by
  rw [State.forPair, hp]
  exact if_neg (Nat.not_lt.2 hterm)

variable (hp : s.twinPair m.pair = some n)
include hp

/-- A GRANT, as the model decides it, for a noted message. -/
theorem State.witGrant_took (hterm : s.pairTerm n ≤ m.term) : (s.took m).witGrant m =
    if (s.pair n).plan.isSome = true ∧ m.term = s.pairTerm n + 1 then
      if s.role n 0 = 1 then
        let u := (s.took m).setPair n { s.pair n with granted := true, leaseEnd := (s.pair n).renewAt + msCycles (min m.lease (s.leaseMs n)), asked := false }
        if u.twinUp = true then u.relay m 2 else u
      else (s.took m).setPair n { s.pair n with granted := true }
    else if m.term ≠ s.pairTerm n then (s.took m).hearTerm n m.term
    else if s.role n 0 = 3 ∨ s.role n 0 = 4 then
      let u := (s.took m).setPair n { s.pair n with leaseEnd := (s.pair n).renewAt + msCycles (min m.lease (s.leaseMs n)), asked := false }
      if s.role n 0 = 4 ∧ u.cycle < (u.pair n).leaseEnd then u.resumeSide n else u
    else if s.role n 0 = 1 ∧ (s.took m).twinUp = true then (s.took m).relay m 2
    else s.took m := by
  rw [State.witGrant, State.forPair_taken _ ((s.twinPair_took m _).trans hp) ((s.pairTerm_took m n).symm ▸ hterm)]
  simp only [State.pair_took, State.role_took, State.pairTerm_took, State.leaseMs_took]

section
variable (hplan : (s.pair n).plan = none) (hterm : m.term = s.pairTerm n)
include hplan hterm

theorem State.witGrant_active (hr : s.role n 0 = 3) : (s.took m).witGrant m =
    (s.took m).setPair n { s.pair n with leaseEnd := (s.pair n).renewAt + msCycles (min m.lease (s.leaseMs n)), asked := false } := by
  rw [State.witGrant_took hp (Nat.le_of_eq hterm.symm), if_neg (by simp [hplan]), if_neg (not_not.2 hterm), if_pos (.inl hr)]
  exact if_neg (by omega)

theorem State.witGrant_muted (hr : s.role n 0 = 4) (hlive : s.cycle < (s.pair n).renewAt + msCycles (min m.lease (s.leaseMs n))) : (s.took m).witGrant m =
    ((s.took m).setPair n { s.pair n with leaseEnd := (s.pair n).renewAt + msCycles (min m.lease (s.leaseMs n)), asked := false }).resumeSide n := by
  rw [State.witGrant_took hp (Nat.le_of_eq hterm.symm), if_neg (by simp [hplan]), if_neg (not_not.2 hterm), if_pos (.inr hr)]
  refine if_pos ⟨hr, ?_⟩
  rw [State.pair_setPair_same]
  exact (s.cycle_took m).symm ▸ hlive

theorem State.witGrant_standby (hr : s.role n 0 = 1) (hup : s.twinUp = true) : (s.took m).witGrant m = (s.took m).relay m 2 := by
  rw [State.witGrant_took hp (Nat.le_of_eq hterm.symm), if_neg (by simp [hplan]), if_neg (not_not.2 hterm), if_neg (by omega)]
  exact if_pos ⟨hr, (s.twinUp_took m).trans hup⟩

end

section
variable (hplan : (s.pair n).plan.isSome = true) (hterm : m.term = s.pairTerm n + 1)
include hplan hterm

theorem State.witGrant_planned (hr : s.role n 0 ≠ 1) : (s.took m).witGrant m = (s.took m).setPair n { s.pair n with granted := true } := by
  rw [State.witGrant_took hp (by omega), if_pos ⟨hplan, hterm⟩, if_neg hr]

theorem State.witGrant_plannedStandby (hr : s.role n 0 = 1) : (s.took m).witGrant m =
    let u := (s.took m).setPair n { s.pair n with granted := true, leaseEnd := (s.pair n).renewAt + msCycles (min m.lease (s.leaseMs n)), asked := false }
    if s.twinUp = true then u.relay m 2 else u := by
  rw [State.witGrant_took hp (by omega), if_pos ⟨hplan, hterm⟩, if_pos hr]
  dsimp only
  rw [State.twinUp_setPair, State.twinUp_took]

end

theorem State.witProbe_took (hterm : s.pairTerm n ≤ m.term) : (s.took m).witProbe m = (s.took m).witSend 5 m.pair (s.pairTerm n) (s.role n 0) := by
  rw [State.witProbe, State.forPair_taken _ ((s.twinPair_took m _).trans hp) ((s.pairTerm_took m n).symm ▸ hterm), State.pairTerm_took, State.role_took]

theorem State.witFence_took (hterm : s.pairTerm n ≤ m.term) (hr : s.role n 0 = 3 ∨ s.role n 0 = 4) : (s.took m).witFence m =
    let v := (((s.took m).demote n 0).refReset n 0).witSend 7 m.pair (s.pairTerm n) 0
    if v.pairTerm n < m.term then v.setTerm n m.term else v := by
  rw [State.witFence, State.forPair_taken _ ((s.twinPair_took m _).trans hp) ((s.pairTerm_took m n).symm ▸ hterm), State.role_took, if_pos hr, State.pairTerm_took]

/-- A VERDICT at a STANDBY side, as the model decides it. -/
theorem State.witVerdict_standby (hterm : s.pairTerm n ≤ m.term) (hr : s.role n 0 = 1) : (s.took m).witVerdict m =
    if m.arg = 0 then (if s.twinUp = true ∧ s.red.misses < 4 then s.took m else (s.took m).wr (F.PAIR_n_STATUS_STALE n) 1)
    else if m.arg = 1 ∧ m.term = s.pairTerm n + 1 ∧ (s.took m).eligible n = some 0 then
      if (s.pair n).promo = some m.term ∨ (s.pair n).peerEnd ≤ s.cycle then (((s.took m).cancelPlan n).setTerm n m.term).promote n 0 false
      else (s.took m).setPair n { s.pair n with promo := some m.term }
    else s.took m := by
  rw [State.witVerdict, State.forPair_taken _ ((s.twinPair_took m _).trans hp) ((s.pairTerm_took m n).symm ▸ hterm), State.role_took, if_neg (not_not.2 hr)]
  simp only [State.pair_took, State.pairTerm_took, State.twinUp_took, State.misses_took, State.cycle_took]

end

/-! ## The end of a lease, and the mailbox (R357, R361) -/

/-- A kept promotion when the peer's lease is over. -/
theorem exec_witnessLeaseExpired_kept {s : State} {id : Fin 65536} {n t : Nat} (hw : s.isWitness = false) (hp : s.twinPair id = some n) (hpromo : (s.pair n).promo = some t) :
    exec (.witnessLeaseExpired id) s = .next (
      if s.eligible n = some 0 ∧ (s.pair n).peerEnd ≤ s.cycle then ((s.cancelPlan n).setTerm n t).promote n 0 false else s) := by
  have hno : ¬(s.isWitness = true ∧ (s.wit id).promote = true ∧ (s.wit id).leaseEnd ≤ s.cycle) := by simp [hw]
  refine (congrArg Host.Outcome.next ?_ : Host.Outcome.next (s.witLeaseOver id) = _)
  rw [State.witLeaseOver, if_neg hno, hp]
  simp only [hpromo]

theorem State.reg_wr_word (s : State) {a : Nat} (v : Word) : (s.wr ⟨a, 0, 32⟩ v.toNat).reg a = v := by
  refine BitVec.eq_of_toNat_eq ?_
  have hrd : getBits ((s.wr ⟨a, 0, 32⟩ v.toNat).reg a) 0 32 = v.toNat % 2 ^ 32 := s.rd_wr_eq ⟨a, 0, 32⟩ v.toNat rfl
  have hlt := ((s.wr ⟨a, 0, 32⟩ v.toNat).reg a).isLt
  rw [getBits, Nat.pow_zero, Nat.div_one, Nat.mod_eq_of_lt hlt, Nat.mod_eq_of_lt v.isLt] at hrd
  exact hrd

section
variable {s : State} (index : Word) (msgs : List (Nat × WitMsg))

theorem State.mboxIndex_off {f : Fld} (h : f.reg ≠ R.TWIN_MBOX_HOSTIDX) : (s.wr F.TWIN_MBOX_HOSTIDX_INDEX index.toNat).rd f = s.rd f := State.rd_wr_off _ _ h

theorem exec_twinMboxHostidxWrite : exec (.twinMboxHostidxWrite index msgs) s = .next (s.mboxWrite index msgs) := rfl

theorem State.mboxWrite_closed (h : s.rd F.TWIN_CFG_WIT_KIND ≠ 2 ∨ s.on F.TWIN_CFG_EN = false) :
    s.mboxWrite index msgs = s.wr F.TWIN_MBOX_HOSTIDX_INDEX index.toNat := by
  refine if_pos ?_
  rw [State.mboxIndex_off index (by decide), State.on_of_rd (State.mboxIndex_off index (by decide))]
  simpa using h

theorem State.mboxWrite_open (hk : s.rd F.TWIN_CFG_WIT_KIND = 2) (hen : s.on F.TWIN_CFG_EN = true) : s.mboxWrite index msgs =
    let u := s.wr F.TWIN_MBOX_HOSTIDX_INDEX index.toNat
    (msgs.take (min 16 ((index.toNat + 2 ^ 32 - s.red.mboxNext) % 2 ^ 32))).foldl (fun s (k, m) => s.witAny k m)
      { u with red := { u.red with mboxNext := index.toNat } } := by
  have hred : (s.wr F.TWIN_MBOX_HOSTIDX_INDEX index.toNat).red = s.red := State.wr_red _ _ _
  rw [← congrArg Redund.mboxNext hred]
  refine if_neg ?_
  rw [State.mboxIndex_off index (by decide), State.on_of_rd (State.mboxIndex_off index (by decide)), hk, hen]
  simp

end

/-- Settles O45: each message's effect at a unit, with what a noted message leaves as it was. -/
theorem witnessMessagesAtUnit : Obligations.WitnessMessagesAtUnit := by
  unfold Obligations.WitnessMessagesAtUnit
  refine ⟨fun s => ⟨s.witFrameIn_frame, s.witFrameIn_mailbox, s.witFrameIn_mac⟩, fun m s c hc => ⟨fun hen => exec_witMessage_off hc hen, fun hen hok => ?bad⟩,
    fun m n s hen hp => ?unit, fun id n t s hw hp hpromo => ⟨fun he hl => ?kept, fun h => ?waits⟩, fun index msgs s => ⟨fun h => ?closed, fun hk hen => ?opened⟩⟩
  case bad =>
    refine ⟨_, exec_witMessage_bad hc hen hok, ?_, only_inc s.witFrameIn F.TWIN_CNT_B_WIT_DROP⟩
    rw [State.rd_inc_eq _ _ rfl, State.rd_witFrameIn]
    rfl
  case unit =>
    have hframe := s.only_took m
    have hrun := fun {c : Nat × Instr} (hc : c ∈ witCmds m) (hok : s.witOk c.1 m = true) => exec_witMessage_heard hc hen hok
    refine ⟨fun hok hplan hterm => ⟨fun hr => ?_, fun hr hlive => ?_, fun hr hup => ?_⟩, fun hok hplan hterm => ⟨fun hr => ?_, fun hr => ?_⟩, fun hok hterm => ?_,
      fun hok hterm hr => ?_, fun hok hterm hr harg hdown => ?_, fun hok hterm hr harg hel => ⟨fun hnow => ?_, fun hnew hlater => ?_⟩⟩
    · refine ⟨_, (hrun (c := (2, .witGrant m)) (by simp [witCmds]) hok).trans (congrArg _ (State.witGrant_active hp hplan hterm hr)), State.pair_setPair_same _ _ _, ?_, hframe.setPair n _⟩
      exact (State.rd_setPair _ _ _ _).trans (s.witOkShown_took m)
    · exact (hrun (c := (2, .witGrant m)) (by simp [witCmds]) hok).trans (congrArg _ (State.witGrant_muted hp hplan hterm hr hlive))
    · exact (hrun (c := (2, .witGrant m)) (by simp [witCmds]) hok).trans (congrArg _ (State.witGrant_standby hp hplan hterm hr hup))
    · exact ⟨_, (hrun (c := (2, .witGrant m)) (by simp [witCmds]) hok).trans (congrArg _ (State.witGrant_planned hp hplan hterm hr)), State.pair_setPair_same _ _ _, hframe.setPair n _⟩
    · exact (hrun (c := (2, .witGrant m)) (by simp [witCmds]) hok).trans (congrArg _ (State.witGrant_plannedStandby hp hplan hterm hr))
    · exact (hrun (c := (4, .witProbe m)) (by simp [witCmds]) hok).trans (congrArg _ (State.witProbe_took hp hterm))
    · exact (hrun (c := (6, .witFence m)) (by simp [witCmds]) hok).trans (congrArg _ (State.witFence_took hp hterm hr))
    · have hstay := State.witVerdict_standby hp hterm hr
      rw [if_pos harg, if_neg hdown] at hstay
      exact ⟨_, (hrun (c := (8, .witVerdict m)) (by simp [witCmds]) hok).trans (congrArg _ hstay), State.rd_wr_eq _ _ _ rfl,
        (hframe.mono (List.subset_append_left _ [R.PAIR_n_STATUS n])).wr_red (F.PAIR_n_STATUS_STALE n) 1 (.tail _ (.head _))⟩
    · have hpromote := State.witVerdict_standby hp (by omega) hr
      rw [if_neg (by omega), if_pos ⟨harg, hterm, hel⟩, if_pos hnow] at hpromote
      exact (hrun (c := (8, .witVerdict m)) (by simp [witCmds]) hok).trans (congrArg _ hpromote)
    · have hkeep := State.witVerdict_standby hp (by omega) hr
      rw [if_neg (by omega), if_pos ⟨harg, hterm, hel⟩, if_neg (not_or.2 ⟨hnew, Nat.not_le.2 hlater⟩)] at hkeep
      exact ⟨_, (hrun (c := (8, .witVerdict m)) (by simp [witCmds]) hok).trans (congrArg _ hkeep), State.pair_setPair_same _ _ _, hframe.setPair n _⟩
  case kept => exact (exec_witnessLeaseExpired_kept hw hp hpromo).trans (congrArg _ (if_pos ⟨he, hl⟩))
  case waits =>
    refine (exec_witnessLeaseExpired_kept hw hp hpromo).trans (congrArg _ (if_neg fun hc => ?_))
    rcases h with h | h
    · exact h hc.1
    · exact Nat.not_le.2 h hc.2
  case closed => exact ⟨_, (exec_twinMboxHostidxWrite index msgs).trans (congrArg _ (State.mboxWrite_closed index msgs h)), s.reg_wr_word index, only_wr _ F.TWIN_MBOX_HOSTIDX_INDEX _⟩
  case opened => exact (exec_twinMboxHostidxWrite index msgs).trans (congrArg _ (State.mboxWrite_open index msgs hk hen))

end Sys2Proof.Machine
end

section
/-!
PROOFS. Frames of the twin link (R350, R351, R357, R364, R368, R369).
-/
namespace Sys2Proof.Machine

/-! ## A frame as it comes in (R368) -/

section
variable {s : State}

theorem State.twinTake_down (ok : Bool) (f : State → State) (h : s.twinUp = false) : s.twinTake ok f = s := by rw [State.twinTake, h, State.when_false]

theorem State.twinTake_bad (f : State → State) (h : s.twinUp = true) : s.twinTake false f = s.inc F.TWIN_CNT_A_CRC_ERR := by
  rw [State.twinTake, h, State.when_true, if_neg Bool.false_ne_true]

theorem State.twinTake_good (f : State → State) (h : s.twinUp = true) : s.twinTake true f = f s := by
  rw [State.twinTake, h, State.when_true, if_pos rfl]

end

/-- The frames of the twin link, by whether their check sum holds. -/
def twinFrames (h : HbFrame) (x : CapsFrame) (ws : List Word) (sid : Fin 768) (bs : List Byte) (k : Nat) (m : WitMsg) (i : Fin 16) (dam : Bool) (l : SdiLine)
    (ok : Bool) : List Instr :=
  [.twinHeartbeat ⟨ok, h⟩, .twinCaps ⟨ok, x⟩, .twinCursor ⟨ok, ws⟩, .twinFlow ⟨ok, ws⟩, .twinTemplate sid ⟨ok, bs⟩, .twinRelay k ⟨ok, m⟩, .twinMirror i dam ⟨ok, l⟩]

theorem exec_twinFrame {h : HbFrame} {x : CapsFrame} {ws : List Word} {sid : Fin 768} {bs : List Byte} {k : Nat} {m : WitMsg} {i : Fin 16} {dam : Bool}
    {l : SdiLine} {ok : Bool} {c : Instr} (hc : c ∈ twinFrames h x ws sid bs k m i dam l ok) (s : State) : ∃ f, exec c s = .next (s.twinTake ok f) := by
  simp only [twinFrames, List.mem_cons, List.not_mem_nil, or_false] at hc
  rcases hc with rfl | rfl | rfl | rfl | rfl | rfl | rfl <;> exact ⟨_, rfl⟩

/-! ## CAPS (R350, R351) -/

section
variable (s : State) (n : Nat)

theorem State.pairStart_twin (htwin : s.pairTwin n = true) (hrole : s.role n 0 ≠ 6) : s.pairStart n = s := by
  rw [State.pairStart, if_pos htwin, if_neg fun hc => hrole hc.1]

/-- What MISMATCH shows of a pair. -/
def State.mismatchShown (s : State) (n : Nat) : Bool := (s.red.peerCaps[n]?.isSome && !(s.pair n).caps) || (s.pair n).badTpl != []

theorem State.showMismatch_eq : s.showMismatch n = s.wr (F.PAIR_n_STATUS_MISMATCH n) (bit (s.mismatchShown n)) := rfl

theorem State.rd_showMismatch : (s.showMismatch n).rd (F.PAIR_n_STATUS_MISMATCH n) = bit (s.mismatchShown n) := (State.rd_wr_eq _ _ _ rfl).trans (bit_mod_two _)

/-- The pair's record with the peer's capabilities judged. -/
def State.judged (s : State) (n : Nat) : State := s.setPair n { s.pair n with caps := s.capsMatch n }

theorem State.rd_judged (f : Fld) : (s.judged n).rd f = s.rd f := rfl

theorem State.role_judged_showMismatch (m sd : Nat) : ((s.judged n).showMismatch n).role m sd = s.role m sd := by
  rw [State.showMismatch_eq, State.role, State.role, roleField]
  split
  · exact (State.rd_wr_beside _ _ rfl rfl).trans (s.rd_judged n _)
  · exact (State.rd_wr_beside _ _ rfl rfl).trans (s.rd_judged n _)

theorem State.on_judged_showMismatch {f : Fld} (h : f.reg ≠ R.PAIR_n_STATUS n) : ((s.judged n).showMismatch n).on f = s.on f :=
  State.on_of_rd (State.rd_wr_off _ _ h)

/-- CAPS judged of a pair that is not PENDING. -/
theorem State.capsCheck_settled (htwin : s.pairTwin n = true) (hrole : s.role n 0 ≠ 6) : s.capsCheck n = (s.judged n).showMismatch n := by
  refine State.pairStart_twin _ n ?_ ?_
  · refine (State.on_judged_showMismatch s n ?_).trans htwin
    simp only [F.PAIR_n_CFG_KIND, R.PAIR_n_CFG, R.PAIR_n_STATUS]
    omega
  · exact fun e => hrole ((s.role_judged_showMismatch n n 0).symm.trans e)

end

/-- The capabilities that a CAPS frame gives of a pair agree with what this package holds. -/
def State.agrees (s : State) (x : CapsFrame) (n : Nat) : Bool :=
  match x.pairs[n]? with
  | some (crc, a, b) => a == s.sidePath n 1 && b == s.sidePath n 0 && s.pathOk (s.sidePath n 0) && crc == s.rd (F.PAIR_n_CFGCRC_CRC n)
  | none => false

/-- A pair's registers that do not change when CAPS is judged. -/
def pairFixed (n : Nat) (a : Nat) : Prop := a = R.PAIR_n_CFG n ∨ a = R.PAIR_n_SIDE_A n ∨ a = R.PAIR_n_SIDE_B n ∨ a = R.PAIR_n_CFGCRC n

theorem pairFixed_ne_status {n a : Nat} (h : pairFixed n a) (k : Nat) : a ≠ R.PAIR_n_STATUS k := by
  simp only [pairFixed, R.PAIR_n_CFG, R.PAIR_n_SIDE_A, R.PAIR_n_SIDE_B, R.PAIR_n_CFGCRC] at h
  simp only [R.PAIR_n_STATUS]
  omega

/-- After the first k pairs have been judged, from state s with frame x. -/
structure CapsJudged (s : State) (x : CapsFrame) (k : Nat) (u : State) : Prop where
  frame : Only ((List.range 32).map R.PAIR_n_STATUS) { s with red := u.red } u
  caps : u.red.peerCaps = x.pairs
  role : ∀ n, u.role n 0 = s.role n 0
  later : ∀ n, k ≤ n → u.pair n = s.pair n
  bad : ∀ n, (u.pair n).badTpl = (s.pair n).badTpl
  judged : ∀ n, n < k → s.pairOn n = true → s.pairTwin n = true →
    (u.pair n).caps = s.agrees x n ∧ u.rd (F.PAIR_n_STATUS_MISMATCH n) = bit ((x.pairs[n]?.isSome && !s.agrees x n) || (s.pair n).badTpl != [])

section
variable {s u : State} {x : CapsFrame} {k : Nat}

theorem CapsJudged.rd (h : CapsJudged s x k u) {n : Nat} {f : Fld} (hf : pairFixed n f.reg) (hn : n < 32) : u.rd f = s.rd f := by
  have hreg := h.frame.rd (f := f) (fun hmem => ?_) ?_
  · exact hreg
  · obtain ⟨i, -, hi⟩ := List.mem_map.1 hmem
    exact pairFixed_ne_status hf i hi.symm
  · refine recReg_of_lt ?_
    simp only [pairFixed, R.PAIR_n_CFG, R.PAIR_n_SIDE_A, R.PAIR_n_SIDE_B, R.PAIR_n_CFGCRC] at hf
    omega

theorem CapsJudged.capsMatch (h : CapsJudged s x k u) {n : Nat} (hn : n < 32) : u.capsMatch n = s.agrees x n := by
  have hside : ∀ sd, u.sidePath n sd = s.sidePath n sd := by
    intro sd
    simp only [State.sidePath]
    split
    · exact h.rd (.inr (.inl rfl)) hn
    · exact h.rd (.inr (.inr (.inl rfl))) hn
  have hpath : u.pathOk (s.sidePath n 0) = s.pathOk (s.sidePath n 0) := by rw [h.frame.2]; rfl
  have hcrc := h.rd (f := F.PAIR_n_CFGCRC_CRC n) (.inr (.inr (.inr rfl))) hn
  simp only [State.capsMatch, State.agrees, h.caps, hside, hpath, hcrc] <;> rfl

variable (hrole : ∀ n, n < 32 → s.role n 0 ≠ 6)

theorem CapsJudged.pairOn (h : CapsJudged s x k u) {n : Nat} (hn : n < 32) : u.pairOn n = s.pairOn n := State.on_of_rd (h.rd (f := F.PAIR_n_CFG_EN n) (.inl rfl) hn)

theorem CapsJudged.pairTwin (h : CapsJudged s x k u) {n : Nat} (hn : n < 32) : u.pairTwin n = s.pairTwin n :=
  State.on_of_rd (h.rd (f := F.PAIR_n_CFG_KIND n) (.inl rfl) hn)

theorem PairStatus_ne {n k : Nat} (h : n ≠ k) : R.PAIR_n_STATUS n ≠ R.PAIR_n_STATUS k := by
  simp only [R.PAIR_n_STATUS]
  omega

theorem CapsJudged.start (h : s.red.peerCaps = x.pairs) : CapsJudged s x 0 s :=
  ⟨.refl _ _, h, fun _ => rfl, fun _ _ => rfl, fun _ => rfl, fun _ hn => absurd hn (Nat.not_lt_zero _)⟩

/-- A pair that is not an enabled twin pair is passed over. -/
theorem CapsJudged.skip (h : CapsJudged s x k u) (hno : ¬(s.pairOn k = true ∧ s.pairTwin k = true)) : CapsJudged s x (k + 1) u where
  frame := h.frame
  caps := h.caps
  role := h.role
  later n hn := h.later n (by omega)
  bad := h.bad
  judged n hn hon htwin := h.judged n (by
    have hne : n ≠ k := fun e => hno ⟨e ▸ hon, e ▸ htwin⟩
    omega) hon htwin

/-- An enabled twin pair is judged. -/
theorem CapsJudged.judge (h : CapsJudged s x k u) (hk : k < 32) : CapsJudged s x (k + 1) ((u.judged k).showMismatch k) where
  frame := by
    have hset : Only ((List.range 32).map R.PAIR_n_STATUS) { s with red := (u.judged k).red } (u.judged k) := h.frame.setPair k _
    exact hset.wr_red (F.PAIR_n_STATUS_MISMATCH k) _ (List.mem_map.2 ⟨k, List.mem_range.2 hk, rfl⟩)
  caps := by
    rw [State.showMismatch_eq, State.wr_red]
    exact h.caps
  role n := (u.role_judged_showMismatch k n 0).trans (h.role n)
  later n hn := by
    rw [State.showMismatch_eq, State.pair, State.wr_red]
    exact (State.pair_setPair_ne u _ (by omega)).trans (h.later n (by omega))
  bad n := by
    rw [State.showMismatch_eq, State.pair, State.wr_red]
    by_cases hn : n = k
    · subst hn
      exact (congrArg PairSt.badTpl (State.pair_setPair_same u n _)).trans (h.bad n)
    · exact (congrArg PairSt.badTpl (State.pair_setPair_ne u _ hn)).trans (h.bad n)
  judged n hn hon htwin := by
    have hpair : ((u.judged k).showMismatch k).pair n = (u.judged k).pair n := by rw [State.showMismatch_eq, State.pair, State.wr_red, State.pair]
    rw [hpair]
    by_cases hnk : n = k
    · subst hnk
      have hcaps : ((u.judged n).pair n).caps = s.agrees x n := (congrArg PairSt.caps (State.pair_setPair_same u n _)).trans (h.capsMatch hk)
      have hbad : ((u.judged n).pair n).badTpl = (s.pair n).badTpl := (congrArg PairSt.badTpl (State.pair_setPair_same u n _)).trans (h.bad n)
      have hred : (u.judged n).red.peerCaps = x.pairs := h.caps
      exact ⟨hcaps, ((u.judged n).rd_showMismatch n).trans (by rw [State.mismatchShown, hcaps, hbad, hred])⟩
    · obtain ⟨hcaps, hshown⟩ := h.judged n (by omega) hon htwin
      have hrd : ((u.judged k).showMismatch k).rd (F.PAIR_n_STATUS_MISMATCH n) = u.rd (F.PAIR_n_STATUS_MISMATCH n) :=
        (State.rd_wr_off _ _ (f := F.PAIR_n_STATUS_MISMATCH k) (g := F.PAIR_n_STATUS_MISMATCH n) (PairStatus_ne hnk)).trans (u.rd_judged k _)
      exact ⟨(congrArg PairSt.caps (State.pair_setPair_ne u _ hnk)).trans hcaps, hrd.trans hshown⟩

include hrole

theorem capsJudged_forRange (h0 : CapsJudged s x 0 s) {k : Nat} (hk : k ≤ 32) :
    CapsJudged s x k (s.forRange k fun n s => if s.pairOn n = true ∧ s.pairTwin n = true then s.capsCheck n else s) := by
  induction k with
  | zero => exact h0
  | succ k ih =>
    have h := ih (by omega)
    have hlt : k < 32 := by omega
    rw [State.forRange_succ]
    split
    · next hon =>
      rw [State.capsCheck_settled _ k hon.2 (h.role k ▸ hrole k hlt)]
      exact h.judge hlt
    · next hno =>
      rw [h.pairOn hlt, h.pairTwin hlt] at hno
      exact h.skip hno

end

/-! A CAPS frame shows the peer's identity and is kept. -/

section
variable (s : State)

/-- The state with the peer's capabilities kept. -/
def State.keepCaps (ps : List (Nat × Nat × Nat)) : State := { s with red := { s.red with peerCaps := ps } }

theorem State.rd_keepCaps (ps : List (Nat × Nat × Nat)) (f : Fld) : (s.keepCaps ps).rd f = s.rd f := rfl

theorem State.rd_withCaps (ps : List (Nat × Nat × Nat)) (r : Redund) (f : Fld) : ({ s.keepCaps ps with red := r } : State).rd f = s.rd f := rfl

theorem State.pair_keepCaps (ps : List (Nat × Nat × Nat)) (n : Nat) : (s.keepCaps ps).pair n = s.pair n := rfl

theorem State.peerCaps_keepCaps (ps : List (Nat × Nat × Nat)) : (s.keepCaps ps).red.peerCaps = ps := rfl

theorem State.with_red_keepCaps (ps : List (Nat × Nat × Nat)) (r : Redund) : { s.keepCaps ps with red := r } = { s with red := r } := rfl

theorem State.pathOk_keepCaps (ps : List (Nat × Nat × Nat)) (p : Nat) : (s.keepCaps ps).pathOk p = s.pathOk p := rfl

theorem Only.keepCaps {as : List Nat} {t : State} (h : Only as s t) (ps : List (Nat × Nat × Nat)) :
    Only as { s with red := (t.keepCaps ps).red } (t.keepCaps ps) := h.with_red _

theorem State.pathOk_wr (f : Fld) (v p : Nat) : (s.wr f v).pathOk p = s.pathOk p := rfl

/-- The peer's identity shown. -/
def State.peerShown (unit : Nat) : State := (s.wr F.TWIN_PEER_LO_ID unit).wr F.TWIN_PEER_HI_ID (unit / 2 ^ 32)

theorem State.rd_peerShown (unit : Nat) {f : Fld} (hlo : f.reg ≠ R.TWIN_PEER_LO) (hhi : f.reg ≠ R.TWIN_PEER_HI) : (s.peerShown unit).rd f = s.rd f := by
  rw [State.peerShown, State.rd_wr_off _ _ hhi, State.rd_wr_off _ _ hlo]

theorem State.peerShown_lo (unit : Nat) : (s.peerShown unit).rd F.TWIN_PEER_LO_ID = unit % 2 ^ 32 := by
  rw [State.peerShown, State.rd_wr_off _ _ (by decide)]
  exact State.rd_wr_eq _ _ _ rfl

theorem State.peerShown_hi (unit : Nat) : (s.peerShown unit).rd F.TWIN_PEER_HI_ID = unit / 2 ^ 32 % 2 ^ 32 := State.rd_wr_eq _ _ _ rfl

theorem State.red_peerShown (unit : Nat) : (s.peerShown unit).red = s.red := by rw [State.peerShown, State.wr_red, State.wr_red]

theorem State.only_peerShown (unit : Nat) : Only [R.TWIN_PEER_LO, R.TWIN_PEER_HI] s (s.peerShown unit) :=
  .wr (.wr (.refl _ _) F.TWIN_PEER_LO_ID unit (.head _)) F.TWIN_PEER_HI_ID _ (.tail _ (.head _))

/-- The state in which a CAPS frame is judged. -/
def State.capsKept (x : CapsFrame) : State := (s.peerShown x.unit).keepCaps x.pairs

theorem State.twinCaps_eq (x : CapsFrame) :
    s.twinCaps x = (s.capsKept x).forRange 32 fun n s => if s.pairOn n = true ∧ s.pairTwin n = true then s.capsCheck n else s := rfl

variable (x : CapsFrame)

/-- A pair's registers do not show the peer's identity. -/
theorem State.rd_capsKept {n : Nat} {f : Fld} (hf : pairFixed n f.reg ∨ f.reg = R.PAIR_n_STATUS n) : (s.capsKept x).rd f = s.rd f := by
  simp only [pairFixed, R.PAIR_n_CFG, R.PAIR_n_SIDE_A, R.PAIR_n_SIDE_B, R.PAIR_n_CFGCRC, R.PAIR_n_STATUS] at hf
  rw [State.capsKept, State.rd_keepCaps, State.rd_peerShown]
  · simp only [R.TWIN_PEER_LO]; omega
  · simp only [R.TWIN_PEER_HI]; omega

theorem State.pair_capsKept (n : Nat) : (s.capsKept x).pair n = s.pair n := by
  rw [State.capsKept, State.pair_keepCaps, State.pair, State.red_peerShown, State.pair]

theorem State.role_capsKept (n sd : Nat) : (s.capsKept x).role n sd = s.role n sd := by
  rw [State.role, State.role, roleField]
  split
  · exact s.rd_capsKept x (.inr rfl)
  · exact s.rd_capsKept x (.inr rfl)

theorem State.pairOn_capsKept (n : Nat) : (s.capsKept x).pairOn n = s.pairOn n := State.on_of_rd (s.rd_capsKept x (f := F.PAIR_n_CFG_EN n) (.inl (.inl rfl)))

theorem State.pairTwin_capsKept (n : Nat) : (s.capsKept x).pairTwin n = s.pairTwin n :=
  State.on_of_rd (s.rd_capsKept x (f := F.PAIR_n_CFG_KIND n) (.inl (.inl rfl)))

theorem State.sidePath_capsKept (n sd : Nat) : (s.capsKept x).sidePath n sd = s.sidePath n sd := by
  simp only [State.sidePath]
  split
  · exact s.rd_capsKept x (.inl (.inr (.inl rfl)))
  · exact s.rd_capsKept x (.inl (.inr (.inr (.inl rfl))))

theorem State.pathOk_capsKept (p : Nat) : (s.capsKept x).pathOk p = s.pathOk p := by
  rw [State.capsKept, State.pathOk_keepCaps, State.peerShown, State.pathOk_wr, State.pathOk_wr]

theorem State.agrees_capsKept (n : Nat) : (s.capsKept x).agrees x n = s.agrees x n := by
  have hcrc := s.rd_capsKept x (f := F.PAIR_n_CFGCRC_CRC n) (.inl (.inr (.inr (.inr rfl))))
  simp only [State.agrees, s.sidePath_capsKept, s.pathOk_capsKept, hcrc]

/-- Every enabled twin pair judged, from a state in which no side of a pair of this package is PENDING. -/
theorem State.capsJudged (hrole : ∀ n, n < 32 → s.role n 0 ≠ 6) : CapsJudged (s.capsKept x) x 32 (s.twinCaps x) := by
  rw [State.twinCaps_eq]
  exact capsJudged_forRange (fun n hn => s.role_capsKept x n 0 ▸ hrole n hn)
    (.start (State.peerCaps_keepCaps _ _)) (Nat.le_refl _)

end

section
variable {s t : State} {x : CapsFrame}

theorem State.agrees_iff {n crc a b : Nat} (h : x.pairs[n]? = some (crc, a, b)) : s.agrees x n = true ↔
    a = s.sidePath n 1 ∧ b = s.sidePath n 0 ∧ s.pathOk (s.sidePath n 0) = true ∧ crc = s.rd (F.PAIR_n_CFGCRC_CRC n) := by
  simp only [State.agrees, h, Bool.and_eq_true, beq_iff_eq, and_assoc]

theorem not_pairStatus_of_ge {a : Nat} (ha : 0x901000 ≤ a) : a ∉ (List.range 32).map R.PAIR_n_STATUS := by
  intro hmem
  obtain ⟨i, hi32, hi⟩ := List.mem_map.1 hmem
  simp only [R.PAIR_n_STATUS, List.mem_range] at hi hi32
  omega

theorem CapsJudged.rd_peer (h : CapsJudged (s.capsKept x) x 32 t) {f : Fld} (hf : 0x901000 ≤ f.reg ∧ f.reg < 0xD00000) : t.rd f = (s.peerShown x.unit).rd f := by
  exact (h.frame.rd (not_pairStatus_of_ge hf.1) (recReg_of_lt hf.2)).trans (State.rd_withCaps _ _ _ _)

theorem CapsJudged.unit (h : CapsJudged (s.capsKept x) x 32 t) :
    t.rd F.TWIN_PEER_LO_ID = x.unit % 2 ^ 32 ∧ t.rd F.TWIN_PEER_HI_ID = x.unit / 2 ^ 32 % 2 ^ 32 :=
  ⟨(h.rd_peer (f := F.TWIN_PEER_LO_ID) (by decide)).trans (s.peerShown_lo x.unit), (h.rd_peer (f := F.TWIN_PEER_HI_ID) (by decide)).trans (s.peerShown_hi x.unit)⟩

theorem CapsJudged.only (h : CapsJudged (s.capsKept x) x 32 t) :
    Only (R.TWIN_PEER_LO :: R.TWIN_PEER_HI :: (List.range 32).map R.PAIR_n_STATUS) { s with red := t.red } t := by
  have hkept : Only [R.TWIN_PEER_LO, R.TWIN_PEER_HI] { s with red := t.red } { s.capsKept x with red := t.red } := by
    rw [State.capsKept, State.with_red_keepCaps]
    exact (s.only_peerShown x.unit).with_red t.red
  exact (hkept.mono (by simp)).trans (h.frame.mono fun a ha => .tail _ (.tail _ ha))

/-- What CAPS shows of an enabled twin pair that it describes. -/
theorem CapsJudged.shown (h : CapsJudged (s.capsKept x) x 32 t) {n crc a b : Nat} (hn : n < 32) (hon : s.pairOn n = true) (htwin : s.pairTwin n = true)
    (hx : x.pairs[n]? = some (crc, a, b)) :
    (t.pair n).caps = s.agrees x n ∧ (t.on (F.PAIR_n_STATUS_MISMATCH n) = false ↔ s.agrees x n = true ∧ (s.pair n).badTpl = []) := by
  obtain ⟨hcaps, hshown⟩ := h.judged n hn ((s.pairOn_capsKept x n).trans hon) ((s.pairTwin_capsKept x n).trans htwin)
  rw [s.agrees_capsKept, s.pair_capsKept] at hshown
  refine ⟨hcaps.trans (s.agrees_capsKept x n), ?_⟩
  rw [State.on, hshown, hx]
  cases s.agrees x n <;> cases (s.pair n).badTpl <;> simp [bit]

end

/-! ## CURSOR (R364) -/

/-! The template of a stream is read from its crown, whose registers and the roles a write of a status bit does not move. -/

section
variable (s : State) (n v : Nat)

/-- STALE of a pair written. -/
def State.staleSet : State := s.wr (F.PAIR_n_STATUS_STALE n) v

theorem State.rd_staleSet {f : Fld} (h : f.reg ≠ R.PAIR_n_STATUS n) : (s.staleSet n v).rd f = s.rd f := State.rd_wr_off _ _ h

theorem State.role_staleSet (m sd : Nat) : (s.staleSet n v).role m sd = s.role m sd := by
  rw [State.role, State.role, roleField]
  split
  · exact State.rd_wr_beside _ _ rfl rfl
  · exact State.rd_wr_beside _ _ rfl rfl

theorem State.leaves_staleSet (p : Nat) : (s.staleSet n v).leaves p = s.leaves p := rfl

theorem State.rst_staleSet : (s.staleSet n v).rst = s.rst := rfl

theorem State.variant_staleSet : (s.staleSet n v).variant = s.variant := rfl

theorem State.crowns_staleSet : (s.staleSet n v).crowns = s.crowns := rfl

theorem State.red_staleSet : (s.staleSet n v).red = s.red := rfl

theorem State.pairOn_staleSet (m : Nat) : (s.staleSet n v).pairOn m = s.pairOn m := State.on_of_rd (s.rd_staleSet n v (by
  simp only [F.PAIR_n_CFG_EN, R.PAIR_n_CFG, R.PAIR_n_STATUS]; omega))

theorem State.localSides_staleSet (m : Nat) : (s.staleSet n v).localSides m = s.localSides m := by
  have h : (s.staleSet n v).pairTwin m = s.pairTwin m := State.on_of_rd (s.rd_staleSet n v (by
    simp only [F.PAIR_n_CFG_KIND, R.PAIR_n_CFG, R.PAIR_n_STATUS]; omega))
  rw [State.localSides, State.localSides, h]

theorem State.sidePath_staleSet (m sd : Nat) : (s.staleSet n v).sidePath m sd = s.sidePath m sd := by
  simp only [State.sidePath]
  split
  · exact s.rd_staleSet n v (by simp only [F.PAIR_n_SIDE_A_PATH, R.PAIR_n_SIDE_A, R.PAIR_n_STATUS]; omega)
  · exact s.rd_staleSet n v (by simp only [F.PAIR_n_SIDE_B_PATH, R.PAIR_n_SIDE_B, R.PAIR_n_STATUS]; omega)

variable (hn : n < 32)
include hn

theorem ne_pairStatus_of_crown {d a : Nat} (hd : 1 ≤ d) (ha : dieBase d ≤ a) : a ≠ R.PAIR_n_STATUS n := by
  simp only [dieBase] at ha
  simp only [R.PAIR_n_STATUS]
  omega

theorem State.rdKept_staleSet {d : Nat} (hd : 1 ≤ d) {f : Fld} (hf : dieBase d ≤ f.reg) : (s.staleSet n v).rdKept d f = s.rdKept d f := by
  simp only [State.rdKept, s.rst_staleSet, s.variant_staleSet, s.rd_staleSet n v (ne_pairStatus_of_crown n hn hd hf)]

theorem State.rdKept_slot_staleSet {d : Nat} (hd : 1 ≤ d) (k lo w : Nat) :
    (s.staleSet n v).rdKept d ⟨R.CMP_SLOTs_CFG d k, lo, w⟩ = s.rdKept d ⟨R.CMP_SLOTs_CFG d k, lo, w⟩ :=
  s.rdKept_staleSet n v hn hd (by simp only [R.CMP_SLOTs_CFG]; omega)

theorem State.rdKept_enc_staleSet {d : Nat} (hd : 1 ≤ d) (i lo w : Nat) :
    (s.staleSet n v).rdKept d ⟨R.ENC_STRi_CFG d i, lo, w⟩ = s.rdKept d ⟨R.ENC_STRi_CFG d i, lo, w⟩ :=
  s.rdKept_staleSet n v hn hd (by simp only [R.ENC_STRi_CFG]; omega)

theorem State.sideCarries_staleSet (m sd k : Nat) {d : Nat} (hd : 1 ≤ d) : (s.staleSet n v).sideCarries m sd d k = s.sideCarries m sd d k := by
  have hmask : (s.staleSet n v).rdKept d (F.CMP_SLOTs_CFG_COMP_MASK d k) = s.rdKept d (F.CMP_SLOTs_CFG_COMP_MASK d k) :=
    s.rdKept_slot_staleSet n v hn hd k _ _
  have hon : ∀ e, (s.staleSet n v).rdKept d (F.ENC_STRi_CFG_EN d e) = s.rdKept d (F.ENC_STRi_CFG_EN d e) := fun e =>
    s.rdKept_enc_staleSet n v hn hd e _ _
  have hpipe : ∀ e, (s.staleSet n v).rdKept d (F.ENC_STRi_CFG_PIPE_FIRST d e) = s.rdKept d (F.ENC_STRi_CFG_PIPE_FIRST d e) := fun e =>
    s.rdKept_enc_staleSet n v hn hd e _ _
  simp only [State.sideCarries, State.leaves_staleSet, State.sidePath_staleSet, hmask, hon, hpipe]

theorem State.slotSides_staleSet (k : Nat) {d : Nat} (hd : 1 ≤ d) : (s.staleSet n v).slotSides d k = s.slotSides d k := by
  simp only [State.slotSides, State.pairOn_staleSet, State.localSides_staleSet, s.sideCarries_staleSet n v hn _ _ _ hd]

theorem State.placements_staleSet (c : Nat) : (s.staleSet n v).placements c = s.placements c := by
  have hon : ∀ i k, (s.staleSet n v).rdKept (i + 1) (F.CMP_SLOTs_CFG_EN (i + 1) k) = s.rdKept (i + 1) (F.CMP_SLOTs_CFG_EN (i + 1) k) := fun i k =>
    s.rdKept_slot_staleSet n v hn (Nat.le_add_left 1 i) k _ _
  have hch : ∀ i k, (s.staleSet n v).rdKept (i + 1) (F.CMP_SLOTs_CFG_CHANNEL (i + 1) k) = s.rdKept (i + 1) (F.CMP_SLOTs_CFG_CHANNEL (i + 1) k) := fun i k =>
    s.rdKept_slot_staleSet n v hn (Nat.le_add_left 1 i) k _ _
  simp only [State.placements, State.crowns_staleSet, hon, hch]

omit hn in
theorem State.crown_of_placements {c : Nat} {p : Nat × Nat} (h : p ∈ s.placements c) : 1 ≤ p.1 := by
  simp only [State.placements, List.mem_flatMap, List.mem_filterMap] at h
  obtain ⟨i, -, k, -, hp⟩ := h
  split at hp
  · cases hp
    exact Nat.succ_le_succ (Nat.zero_le i)
  · cases hp

theorem State.placement_staleSet (c : Nat) : (s.staleSet n v).placement c = s.placement c := by
  have hfind : ∀ r, (s.placements c).find? (fun (d, k) => ((s.staleSet n v).slotSides d k).any fun (m, sd) => (s.staleSet n v).role m sd == r) =
      (s.placements c).find? (fun (d, k) => (s.slotSides d k).any fun (m, sd) => s.role m sd == r) := fun r =>
    List.find?_congr fun p hp => by simp only [s.slotSides_staleSet n v hn p.2 (s.crown_of_placements hp), State.role_staleSet]
  simp only [State.placement, s.placements_staleSet n v hn, hfind]

theorem State.driver_staleSet (sid : Nat) : (s.staleSet n v).driver sid = s.driver sid := by
  rw [State.driver, State.driver, s.placement_staleSet n v hn]

omit hn in
/-- A channel's placement is one of its placements. -/
theorem State.mem_of_placement {c : Nat} {p : Nat × Nat} (h : s.placement c = some p) : p ∈ s.placements c := by
  simp only [State.placement] at h
  split at h
  · next h3 => exact List.mem_of_find?_eq_some (h ▸ h3)
  · next h2 => exact List.mem_of_find?_eq_some (h ▸ h2)
  · exact List.mem_of_head? h

omit hn in
theorem State.crown_of_driver {sid : Nat} {p : Nat × Nat} (h : s.driver sid = some p) : 1 ≤ p.1 := by
  obtain ⟨q, hq, hp⟩ := Option.map_eq_some_iff.1 h
  have hcrown := s.crown_of_placements (s.mem_of_placement hq)
  rw [← hp]
  exact hcrown

theorem State.stWords_staleSet {d base : Nat} (hd : 1 ≤ d) (hb : dieBase d ≤ base) (k : Nat) (mask : Nat → Word) :
    (s.staleSet n v).stWords base k mask = s.stWords base k mask := by
  have hreg : ∀ j, (s.staleSet n v).reg (base + 4 * j) = s.reg (base + 4 * j) := fun j =>
    State.reg_wr_ne _ _ _ (ne_pairStatus_of_crown n hn hd (by omega))
  simp only [State.stWords, hreg]

theorem State.templateOf_staleSet (i : Nat) {d : Nat} (hd : 1 ≤ d) : (s.staleSet n v).templateOf d i = s.templateOf d i := by
  have hch : (s.staleSet n v).strChan d i = s.strChan d i :=
    s.rd_staleSet n v (ne_pairStatus_of_crown n hn hd (by simp only [F.CMP_SLOTs_CFG_CHANNEL, R.CMP_SLOTs_CFG]; omega))
  have henc := s.stWords_staleSet n v hn hd (base := R.ENC_STRi_CFG d i) (by simp only [R.ENC_STRi_CFG]; omega)
  have hledg := s.stWords_staleSet n v hn hd (base := R.LEDG_STRi_MODE d i) (by simp only [R.LEDG_STRi_MODE]; omega)
  have hmes := s.stWords_staleSet n v hn hd (base := R.MES_STRi_CFG d i) (by simp only [R.MES_STRi_CFG]; omega)
  have hdec := s.stWords_staleSet n v hn hd (base := R.DEC_STRi_CFG d i) (by simp only [R.DEC_STRi_CFG]; omega)
  simp only [State.templateOf, State.strId, State.strWords, hch, henc, hledg, hmes, hdec]

theorem State.templateCrc_staleSet (sid : Nat) : (s.staleSet n v).templateCrc sid = s.templateCrc sid := by
  rw [State.templateCrc, State.templateCrc, s.driver_staleSet n v hn, s.red_staleSet]
  cases hd : s.driver sid with
  | none => rfl
  | some p => simp only [s.templateOf_staleSet n v hn p.2 (s.crown_of_driver hd)]

end

/-! A CURSOR frame is kept, clears STALE, and its template is judged. -/

section
variable (s : State) (n : Nat)

/-- The last cursor of a stream kept. -/
def State.keepCursor (sid : Nat) (x : Nat × List Word) : State :=
  { s with red := { s.red with cursors := mapSet (fun _ => ((0, []) : Nat × List Word)) s.red.cursors sid x } }

theorem State.templateCrc_keepCursor (sid : Nat) (x : Nat × List Word) (k : Nat) : (s.keepCursor sid x).templateCrc k = s.templateCrc k := rfl

theorem State.pair_keepCursor (sid : Nat) (x : Nat × List Word) (m : Nat) : (s.keepCursor sid x).pair m = s.pair m := rfl

theorem State.pair_staleSet (v m : Nat) : (s.staleSet n v).pair m = s.pair m := rfl

/-- The streams of a pair whose templates differ. -/
def State.setBad (bs : List Nat) : State := s.setPair n { s.pair n with badTpl := bs }

theorem State.rd_setBad (bs : List Nat) (f : Fld) : (s.setBad n bs).rd f = s.rd f := rfl

theorem State.mismatchShown_setBad (bs : List Nat) : (s.setBad n bs).mismatchShown n = ((s.red.peerCaps[n]?.isSome && !(s.pair n).caps) || bs != []) := by
  simp only [State.mismatchShown, State.setBad, State.pair_setPair_same]
  rfl

/-- The streams whose templates differ after a cursor of stream sid. -/
def State.judgedTpl (ws : List Word) (sid : Nat) : List Nat :=
  let rest := (s.pair n).badTpl.filter (· != sid)
  if wordAt ws 19 = s.templateCrc sid then rest else rest ++ [sid]

/-- What a cursor of a STANDBY side's stream leaves. -/
def State.cursorTaken (ws : List Word) (sid : Nat) : State :=
  (((s.keepCursor sid (s.chFrameNow (sid / 8), ws)).staleSet n 0).setBad n (s.judgedTpl n ws sid)).showMismatch n

variable {s n} {ws : List Word}

theorem State.twinCursor_standby (hn : n < 32) (hof : s.twinOf (fieldAt ws 0 0 10) = some n) (hrole : s.role n 0 = 1) :
    s.twinCursor ws = s.cursorTaken n ws (fieldAt ws 0 0 10) := by
  let k := s.keepCursor (fieldAt ws 0 0 10) (s.chFrameNow (fieldAt ws 0 0 10 / 8), ws)
  have hcrc : (k.staleSet n 0).templateCrc (fieldAt ws 0 0 10) = s.templateCrc (fieldAt ws 0 0 10) :=
    (k.templateCrc_staleSet n 0 hn _).trans (s.templateCrc_keepCursor _ _ _)
  have hbad : (k.staleSet n 0).judgedTpl n ws (fieldAt ws 0 0 10) = s.judgedTpl n ws (fieldAt ws 0 0 10) := by
    rw [State.judgedTpl, hcrc, State.pair_staleSet, State.pair_keepCursor, State.judgedTpl]
  rw [State.cursorTaken, ← hbad, State.twinCursor, hof]
  exact if_neg (not_not.2 hrole)

theorem State.red_showMismatch : (s.showMismatch n).red = s.red := State.wr_red _ _ _

theorem State.cursors_setBad (bs : List Nat) : (s.setBad n bs).red.cursors = s.red.cursors := rfl

theorem State.cursors_cursorTaken (sid : Nat) :
    mapGet (fun _ => ((0, []) : Nat × List Word)) (s.cursorTaken n ws sid).red.cursors sid = (s.chFrameNow (sid / 8), ws) := by
  rw [State.cursorTaken, State.red_showMismatch, State.cursors_setBad, State.red_staleSet]
  exact mapGet_set_same _ _ _ _

theorem State.rd_stale_cursorTaken (sid : Nat) : (s.cursorTaken n ws sid).rd (F.PAIR_n_STATUS_STALE n) = 0 :=
  (State.rd_wr_beside _ _ rfl rfl).trans ((State.rd_setBad _ _ _ _).trans (State.rd_wr_eq _ _ _ rfl))

theorem State.pair_showMismatch (m : Nat) : (s.showMismatch n).pair m = s.pair m := by rw [State.pair, State.red_showMismatch, State.pair]

theorem State.badTpl_cursorTaken (sid : Nat) : ((s.cursorTaken n ws sid).pair n).badTpl = s.judgedTpl n ws sid := by
  rw [State.cursorTaken, State.pair_showMismatch, State.setBad, State.pair_setPair_same]

theorem State.pair_cursorTaken_ne (sid : Nat) {m : Nat} (hm : m ≠ n) : (s.cursorTaken n ws sid).pair m = s.pair m := by
  rw [State.cursorTaken, State.pair_showMismatch, State.setBad, State.pair_setPair_ne _ _ hm, State.pair_staleSet, State.pair_keepCursor]

theorem State.rd_mismatch_cursorTaken (sid : Nat) : (s.cursorTaken n ws sid).rd (F.PAIR_n_STATUS_MISMATCH n) =
    bit ((s.red.peerCaps[n]?.isSome && !(s.pair n).caps) || s.judgedTpl n ws sid != []) := by
  rw [State.cursorTaken, State.rd_showMismatch, State.mismatchShown_setBad, State.pair_staleSet, State.pair_keepCursor, State.red_staleSet]
  rfl

theorem State.only_cursorTaken (sid : Nat) : Only [R.PAIR_n_STATUS n] { s with red := (s.cursorTaken n ws sid).red } (s.cursorTaken n ws sid) := by
  have hstale : Only [R.PAIR_n_STATUS n] (s.keepCursor sid (s.chFrameNow (sid / 8), ws)) ((s.keepCursor sid (s.chFrameNow (sid / 8), ws)).staleSet n 0) :=
    only_wr _ (F.PAIR_n_STATUS_STALE n) 0
  exact ((Only.of_red (s := s) hstale).setPair n _).wr_red _ _ (.head _)

/-! ## FLOW and TEMPLATE (R364, R368) -/

theorem flowPairs_append_pair (a b : Word) : ∀ ws : List Word, ws.length % 2 = 0 → flowPairs (ws ++ [a, b]) = flowPairs ws ++ [(getBits a 0 11, (a, b))]
  | [], _ => rfl
  | [_], h => absurd h (by simp)
  | x :: y :: ws, h => congrArg _ (flowPairs_append_pair a b ws (by simp only [List.length_cons] at h; omega))

/-- The words of a flow kept, in the place of what was kept of it. -/
def State.keepFlow (s : State) (x : Nat × (Word × Word)) : State := { s with red := { s.red with flows := (x.1, x.2) :: s.red.flows.filter (·.1 != x.1) } }

/-- The words of flows kept, in turn. -/
def State.keepFlows (s : State) (xs : List (Nat × (Word × Word))) : State := xs.foldl State.keepFlow s

theorem State.only_keepFlows (xs : List (Nat × (Word × Word))) (s : State) :
    s.keepFlows xs = { s with red := { s.red with flows := (s.keepFlows xs).red.flows } } := by
  induction xs generalizing s with
  | nil => rfl
  | cons x xs ih => exact ih (s.keepFlow x)

theorem State.keepFlows_concat (xs : List (Nat × (Word × Word))) (x : Nat × (Word × Word)) (s : State) :
    s.keepFlows (xs ++ [x]) = (s.keepFlows xs).keepFlow x := List.foldl_append ..

theorem State.find_keepFlow (x : Nat × (Word × Word)) (s : State) : (s.keepFlow x).red.flows.find? (·.1 == x.1) = some x :=
  List.find?_cons_of_pos (beq_self_eq_true x.1)

/-- The template block of a stream kept, in the place of the one that was. -/
def State.keepTemplate (s : State) (sid : Nat) (bs : List Byte) : State :=
  { s with red := { s.red with templates := (sid, bs) :: s.red.templates.filter (·.1 != sid) } }

theorem State.templateCrc_keepTemplate_same (s : State) (sid : Nat) (bs : List Byte) : (s.keepTemplate sid bs).templateCrc sid = crc32c bs := by
  have hfind : (s.keepTemplate sid bs).red.templates.find? (·.1 == sid) = some (sid, bs) := List.find?_cons_of_pos (beq_self_eq_true sid)
  rw [State.templateCrc, hfind]

theorem State.templateCrc_keepTemplate_ne (s : State) {sid k : Nat} (bs : List Byte) (hk : k ≠ sid) :
    (s.keepTemplate sid bs).templateCrc k = s.templateCrc k := by
  have hfind : (s.keepTemplate sid bs).red.templates.find? (·.1 == k) = s.red.templates.find? (·.1 == k) := by
    refine (List.find?_cons_of_neg (by simpa using hk.symm)).trans ?_
    rw [List.find?_filter]
    exact List.find?_congr fun p _ => by grind
  have hdriver : (s.keepTemplate sid bs).driver k = s.driver k := rfl
  rw [State.templateCrc, hfind, hdriver, State.templateCrc]
  rfl

/-! ## Mirrored lines (R369) -/

theorem State.twinMirror_good {s : State} {k : Nat} (dam : Bool) (x : SdiLine)
    (h : s.on (F.TWIN_MIRRORk_EN k) = true ∧ s.on (F.TWIN_MIRRORk_DIR k) = true ∧ s.rd F.TWIN_STATUS_LANES = 15) :
    s.twinMirror k dam x = s.sdiLine (s.rd (F.TWIN_MIRRORk_CHANNEL k)) { x with crc := x.crc && !dam } := by
  obtain ⟨hen, hdir, hlanes⟩ := h
  exact if_neg (by simp [hen, hdir, hlanes])

theorem State.twinMirror_dropped {s : State} {k : Nat} (dam : Bool) (x : SdiLine)
    (h : ¬(s.on (F.TWIN_MIRRORk_EN k) = true ∧ s.on (F.TWIN_MIRRORk_DIR k) = true ∧ s.rd F.TWIN_STATUS_LANES = 15)) :
    s.twinMirror k dam x = s.inc F.TWIN_CNT_B_MIRROR_DROP := by
  refine if_pos ?_
  simp only [Bool.not_eq_true', ← Bool.not_eq_true]
  tauto

end

/-- Settles O47. Each frame is taken by one operation of the model: CAPS by a loop over the pairs, of which `CapsJudged` says what the first k
leave; CURSOR by a write of STALE, which no template's check sum goes by, and a judgement of MISMATCH; the others store their words. -/
theorem twinLinkFrames : Obligations.TwinLinkFrames := by
  unfold Obligations.TwinLinkFrames
  refine ⟨?taken, ?caps, ?cursor, ?flow, ?template, ?relay, ?mirror⟩
  case taken =>
    intro h x ws sid bs k m i dam l s all
    refine ⟨fun hup ok c hc => ?_, fun hup c hc => ?_⟩
    · obtain ⟨f, hexec⟩ := exec_twinFrame (ok := ok) hc s
      rw [hexec, State.twinTake_down ok f hup]
    · obtain ⟨f, hexec⟩ := exec_twinFrame (ok := false) hc s
      rw [State.twinTake_bad f hup] at hexec
      exact ⟨_, hexec, State.rd_inc_eq s _ rfl, only_inc s F.TWIN_CNT_A_CRC_ERR⟩
  case caps =>
    intro x s hup hrole
    have hj := s.capsJudged x hrole
    have hexec : exec (.twinCaps ⟨true, x⟩) s = .next (s.twinCaps x) := congrArg Host.Outcome.next (State.twinTake_good _ hup)
    refine ⟨_, hexec, hj.unit.1, hj.unit.2, hj.caps, fun n crc a b hn hon htwin hx => ?_, hj.only⟩
    obtain ⟨hcaps, hshown⟩ := hj.shown hn hon htwin hx
    rw [hcaps, hshown, State.agrees_iff hx]
    exact ⟨Iff.rfl, Iff.rfl⟩
  case cursor =>
    intro ws n s hup hof hrole sid rest
    have hn : n < 32 := List.mem_range.1 (List.mem_of_find?_eq_some hof)
    have hexec : exec (.twinCursor ⟨true, ws⟩) s = .next (s.cursorTaken n ws sid) :=
      congrArg Host.Outcome.next ((State.twinTake_good _ hup).trans (State.twinCursor_standby hn hof hrole))
    refine ⟨_, hexec, s.cursors_cursorTaken sid, s.rd_stale_cursorTaken sid, fun hne => ?_, fun heq => ?_,
      fun m hm => s.pair_cursorTaken_ne sid hm, s.only_cursorTaken sid⟩
    · have hbad : s.judgedTpl n ws sid = rest ++ [sid] := if_neg hne
      refine ⟨(s.badTpl_cursorTaken sid).trans hbad, ?_⟩
      rw [s.rd_mismatch_cursorTaken sid, hbad]
      simp [bit]
    · have hbad : s.judgedTpl n ws sid = rest := if_pos heq
      exact ⟨(s.badTpl_cursorTaken sid).trans hbad, by rw [s.rd_mismatch_cursorTaken sid, hbad]⟩
  case flow =>
    intro ws a b s hup
    have hexec : exec (.twinFlow ⟨true, ws ++ [a, b]⟩) s = .next (s.keepFlows (flowPairs (ws ++ [a, b]))) :=
      congrArg Host.Outcome.next (State.twinTake_good _ hup)
    refine ⟨_, hexec, fun heven => ?_, State.only_keepFlows _ s⟩
    rw [flowPairs_append_pair a b ws heven, State.keepFlows_concat]
    exact State.find_keepFlow (getBits a 0 11, (a, b)) _
  case template =>
    intro sid bs s hup
    have hexec : exec (.twinTemplate sid ⟨true, bs⟩) s = .next (s.keepTemplate sid bs) := congrArg Host.Outcome.next (State.twinTake_good _ hup)
    exact ⟨_, hexec, s.templateCrc_keepTemplate_same sid bs, fun k hk => s.templateCrc_keepTemplate_ne bs hk, rfl⟩
  case relay =>
    intro k m s hup
    have hexec : exec (.twinRelay k ⟨true, m⟩) s = .next (s.twinRelay k m) := congrArg Host.Outcome.next (State.twinTake_good _ hup)
    exact ⟨fun hk => hexec.trans (congrArg Host.Outcome.next (if_pos hk)), fun hk => hexec.trans (congrArg Host.Outcome.next (if_neg hk)),
      fun hdirect => if_neg hdirect⟩
  case mirror =>
    intro k dam x s hup good
    have hexec : exec (.twinMirror k dam ⟨true, x⟩) s = .next (s.twinMirror k dam x) := congrArg Host.Outcome.next (State.twinTake_good _ hup)
    refine ⟨fun hgood => hexec.trans (congrArg Host.Outcome.next (State.twinMirror_good dam x hgood)), fun hno => ?_⟩
    rw [State.twinMirror_dropped dam x hno] at hexec
    exact ⟨_, hexec, State.rd_inc_eq s _ rfl, only_inc s F.TWIN_CNT_B_MIRROR_DROP⟩

end Sys2Proof.Machine
end

section
/-!
PROOFS. Heartbeats, suspicion, leases of pairs, and the referee's reset hold (R354 to R357, R359, R444).
-/
namespace Sys2Proof.Machine

/-! ## Heartbeats of a package pair (R355) -/

section
variable {s t u : State} {n : Nat}

/-- The sides of a pair that are seen, and nothing else, gain those of P. -/
structure Seen (n : Nat) (P : Nat → Prop) (s t : State) : Prop where
  mem : ∀ sd, sd ∈ (t.pair n).seen ↔ sd ∈ (s.pair n).seen ∨ P sd
  same : t.pair n = { s.pair n with seen := (t.pair n).seen }
  other : ∀ m, m ≠ n → t.pair m = s.pair m
  rest : t = { s with red := { s.red with pairs := t.red.pairs } }

theorem Seen.refl {P : Nat → Prop} (h : ∀ sd, P sd → sd ∈ (s.pair n).seen) : Seen n P s s :=
  ⟨fun sd => ⟨.inl, fun hm => hm.elim id (h sd)⟩, rfl, fun _ _ => rfl, rfl⟩

theorem Seen.trans {P Q : Nat → Prop} (h : Seen n P s t) (g : Seen n Q t u) : Seen n (fun sd => P sd ∨ Q sd) s u where
  mem sd := by rw [g.mem, h.mem, or_assoc]
  same := g.same.trans (by rw [h.same])
  other m hm := (g.other m hm).trans (h.other m hm)
  rest := g.rest.trans (by rw [h.rest])

/-- Side sd is marked as seen. -/
def State.markSeen (s : State) (n sd : Nat) : State := s.setPair n { s.pair n with seen := (s.pair n).seen ++ [sd] }

theorem State.markSeen_seen (sd : Nat) : Seen n (· = sd) s (s.markSeen n sd) := by
  have hpair : (s.markSeen n sd).pair n = { s.pair n with seen := (s.pair n).seen ++ [sd] } := State.pair_setPair_same s n _
  refine ⟨fun k => ?_, ?_, fun m hm => State.pair_setPair_ne s _ hm, rfl⟩
  · rw [hpair, List.mem_append, List.mem_singleton]
  · rw [hpair]

/-- A heartbeat of a side: it marks the side when it is SUSPECT. -/
def State.heartSide (n : Nat) (v : Word) (on : Nat → Bool) (s : State) (sd : Nat) : State :=
  if getBits v sd 1 = 1 ∧ on sd = true ∧ (s.pair n).susp.contains sd ∧ !(s.pair n).seen.contains sd then s.markSeen n sd else s

theorem State.heartSide_seen (v : Word) (on : Nat → Bool) (sd : Nat) :
    Seen n (fun k => k = sd ∧ getBits v sd 1 = 1 ∧ on sd = true ∧ sd ∈ (s.pair n).susp) s (s.heartSide n v on sd) := by
  rw [State.heartSide]
  split
  · next h =>
    obtain ⟨hbit, hon, hsusp, -⟩ := h
    have hk : ∀ k, (k = sd ∧ getBits v sd 1 = 1 ∧ on sd = true ∧ sd ∈ (s.pair n).susp) ↔ k = sd := fun k =>
      ⟨And.left, fun e => ⟨e, hbit, hon, List.contains_iff_mem.1 hsusp⟩⟩
    simpa only [hk] using State.markSeen_seen (s := s) (n := n) sd
  · next h =>
    refine .refl ?_
    rintro k ⟨rfl, hbit, hon, hsusp⟩
    by_contra hseen
    exact h ⟨hbit, hon, by simpa using hsusp, by simpa using hseen⟩

theorem Seen.susp {P : Nat → Prop} (h : Seen n P s t) : (t.pair n).susp = (s.pair n).susp := by rw [h.same]

/-- Both sides' heartbeats. -/
theorem State.heartSides_seen (v : Word) (on : Nat → Bool) :
    Seen n (fun k => k < 2 ∧ getBits v k 1 = 1 ∧ on k = true ∧ k ∈ (s.pair n).susp) s ([0, 1].foldl (State.heartSide n v on) s) := by
  have h0 := State.heartSide_seen (s := s) (n := n) v on 0
  have h1 := State.heartSide_seen (s := s.heartSide n v on 0) (n := n) v on 1
  rw [h0.susp] at h1
  obtain ⟨hmem, hsame, hother, hrest⟩ := h0.trans h1
  refine ⟨fun k => (hmem k).trans (or_congr_right ⟨?_, ?_⟩), hsame, hother, hrest⟩
  · rintro (⟨rfl, h⟩ | ⟨rfl, h⟩)
    · exact ⟨by omega, h⟩
    · exact ⟨by omega, h⟩
  · rintro ⟨hk, h⟩
    have hcases : k = 0 ∨ k = 1 := by omega
    rcases hcases with rfl | rfl
    · exact .inl ⟨rfl, h⟩
    · exact .inr ⟨rfl, h⟩

theorem State.suspectDecide_fails {sd : Nat} (h : sd ∉ (s.pair n).seen ∨ s.sideHealthy n sd = false) : s.suspectDecide n sd = s.sideFail n sd :=
  if_pos (by simpa using h)

/-- The state after a suspicion that was unfounded. -/
def State.unsuspected (s : State) (n sd : Nat) : State :=
  s.setPair n { s.pair n with susp := (s.pair n).susp.filter (· != sd), seen := (s.pair n).seen.filter (· != sd) }

theorem State.suspectDecide_counts {sd : Nat} (hseen : sd ∈ (s.pair n).seen) (hhealthy : s.sideHealthy n sd = true) :
    s.suspectDecide n sd = (s.unsuspected n sd).inc (F.PAIR_n_CNT_A_SUSPECTS n) :=
  if_neg (by simpa using ⟨hseen, hhealthy⟩)

theorem State.unsuspected_susp (sd : Nat) : sd ∉ ((s.unsuspected n sd).pair n).susp := by
  rw [State.unsuspected, State.pair_setPair_same]
  simp

theorem State.pair_inc (f : Fld) (m : Nat) : (s.inc f).pair m = s.pair m := by rw [State.pair, State.inc, State.add, State.wr_red, State.pair]

end

/-! ## The referee's reset hold (R444) -/

section
variable (s : State)

theorem only_showDoms : Only ((List.range (s.crowns + 1)).map R.RST_DOM_STATUS) s s.showDoms := by
  refine Only.forRange (fun d hd u => ?_) s
  have hmem : R.RST_DOM_STATUS d ∈ (List.range (s.crowns + 1)).map R.RST_DOM_STATUS := List.mem_map.2 ⟨d, List.mem_range.2 hd, rfl⟩
  exact .wr (.wr (.refl _ _) (F.RST_DOM_STATUS_HELD d) _ hmem) (F.RST_DOM_STATUS_NOCLK d) _ hmem

theorem State.rst_showDoms : s.showDoms.rst = s.rst := by rw [(only_showDoms s).2]

/-- A source lets go of its reach, of which the leaves of q wait for their clocks. -/
def State.letGo (key path : Nat) (q : List Nat) : State :=
  { s with rst := { s.rst with
    holds := s.rst.holds.filter (·.1 != key)
    relea := s.rst.relea ++ [(key, path)]
    waiting := s.rst.waiting ++ q } }

theorem State.releaseReset_held {key path : Nat} (h : s.rst.holds.find? (·.1 == key) = some (key, path)) :
    ∃ q, s.releaseReset key = (s.letGo key path q).showDoms := by
  rw [State.releaseReset, h]
  exact ⟨_, rfl⟩

theorem State.only_showDoms_letGo (key path : Nat) (q : List Nat) : Only ((List.range (s.crowns + 1)).map R.RST_DOM_STATUS)
    { s with rst := (s.letGo key path q).showDoms.rst } (s.letGo key path q).showDoms :=
  Only.of_rst (r := (s.letGo key path q).rst) (only_showDoms (s.letGo key path q))

end

/-! ## Missed heartbeats, renewals and leases (R354, R356, R357) -/

section
variable (s : State)

theorem State.twinHbMiss_counted (h : s.red.misses ≠ 3) :
    s.twinHbMiss = ({ s with red := { s.red with misses := s.red.misses + 1 } } : State).inc F.TWIN_CNT_A_HB_MISS :=
  if_pos (by omega)

/-- What four missed heartbeats make the local side of a pair do. -/
def State.peerMissed (n : Nat) (u : State) : State :=
  if u.pairOn n = true ∧ u.pairTwin n = true ∧ u.role n 0 = 1 then u.witSend 3 (u.pairId n) (u.pairTerm n) 0
  else if u.pairOn n = true ∧ u.pairTwin n = true ∧ u.role n 0 = 3 then u.event pReferee 0x8C02 0xFFFF n (u.pairTerm n) else u

theorem State.peerMissed_eq : State.peerMissed = fun n u =>
    if !(u.pairOn n && u.pairTwin n) then u
    else if u.role n 0 = 1 then u.witSend 3 (u.pairId n) (u.pairTerm n) 0
    else if u.role n 0 = 3 then u.event pReferee 0x8C02 0xFFFF n (u.pairTerm n) else u := by
  funext n u
  rw [State.peerMissed]
  cases u.pairOn n <;> cases u.pairTwin n <;> simp

theorem State.twinHbMiss_fourth (h : s.red.misses = 3) : s.twinHbMiss =
    ((({ s with red := { s.red with misses := 4 } } : State).inc F.TWIN_CNT_A_HB_MISS).wr F.TWIN_STATUS_PEER_OK 0).forRange 32 State.peerMissed := by
  have h4 : s.red.misses + 1 = 4 := by omega
  rw [State.twinHbMiss, h4, State.peerMissed_eq]
  exact if_neg (not_not.2 rfl)

/-- The frame of a counted miss. -/
theorem State.only_missed (k : Nat) (f : Fld) : Only [f.reg] { s with red := (({ s with red := { s.red with misses := k } } : State).inc f).red }
    (({ s with red := { s.red with misses := k } } : State).inc f) := Only.of_red (s := s) (only_inc _ f)

theorem exec_leaseRenewTimer {s : State} {n : Fin 32} (hon : s.pairOn n = true) (htwin : s.pairTwin n = true) (hrole : s.role n 0 = 3 ∨ s.role n 0 = 4) :
    exec (.leaseRenewTimer n) s = .next (s.renew n) := by
  have hdue : (s.pairOn n && s.pairTwin n && (s.role n 0 == 3 || s.role n 0 == 4)) = true := by simpa [hon, htwin] using hrole
  change Host.Outcome.next (s.when _ _) = _
  rw [hdue, State.when_true]

theorem State.renew_direct {n : Nat} (h : (s.pair n).asked = false) : s.renew n =
    (s.setPair n { s.pair n with renewAt := s.cycle, asked := true }).witSend 1 (s.pairId n) (s.pairTerm n) 0 := by
  rw [State.renew]
  exact if_pos (by simp [h])

/-- The witness counts as not reachable. -/
def State.witLost : State := s.wr F.TWIN_STATUS_WIT_OK 0

theorem State.twinUp_witLost : s.witLost.twinUp = s.twinUp := by
  have hen : s.witLost.on F.TWIN_CFG_EN = s.on F.TWIN_CFG_EN := State.on_of_rd (State.rd_wr_off _ _ (by decide))
  have hlink : s.witLost.rd F.TWIN_STATUS_LINK = s.rd F.TWIN_STATUS_LINK := State.rd_wr_beside _ _ rfl rfl
  rw [State.twinUp, State.twinUp, hen, hlink]

theorem State.pairId_witLost {n : Nat} (hn : n < 32) : s.witLost.pairId n = s.pairId n :=
  State.rd_wr_off _ _ (by simp only [F.PAIR_n_ID_ID, R.PAIR_n_ID, F.TWIN_STATUS_WIT_OK, R.TWIN_STATUS]; omega)

theorem State.pairTerm_witLost {n : Nat} (hn : n < 32) : s.witLost.pairTerm n = s.pairTerm n :=
  State.rd_wr_off _ _ (by simp only [F.PAIR_n_TERM_TERM, R.PAIR_n_TERM, F.TWIN_STATUS_WIT_OK, R.TWIN_STATUS]; omega)

/-- A renewal noted. -/
def State.renewing (n : Nat) : State := s.setPair n { s.pair n with renewAt := s.cycle, asked := true }

theorem State.twinUp_renewing (n : Nat) : (s.renewing n).twinUp = s.twinUp := State.twinUp_setPair _ _ _

theorem State.pairId_renewing (n : Nat) : (s.renewing n).pairId n = s.pairId n := State.rd_setPair _ _ _ _

theorem State.pairTerm_renewing (n : Nat) : (s.renewing n).pairTerm n = s.pairTerm n := State.rd_setPair _ _ _ _

/-- A renewal while the last has had no answer. -/
theorem State.renew_again {n : Nat} (hn : n < 32) (h : (s.pair n).asked = true) : s.renew n =
    if s.twinUp = true then ((s.renewing n).witLost.atSeq 1).relay (((s.renewing n).witLost.atSeq 1).witMsg 1 (s.pairId n) (s.pairTerm n) 0) 1
    else (s.renewing n).witLost.witSend 1 (s.pairId n) (s.pairTerm n) 0 := by
  have hagain : s.renew n =
      if (s.renewing n).witLost.twinUp = true then
        ((s.renewing n).witLost.atSeq 1).relay (((s.renewing n).witLost.atSeq 1).witMsg 1 ((s.renewing n).witLost.pairId n) ((s.renewing n).witLost.pairTerm n) 0) 1
      else (s.renewing n).witLost.witSend 1 ((s.renewing n).witLost.pairId n) ((s.renewing n).witLost.pairTerm n) 0 := by
    rw [State.renew]
    exact if_neg (by simp [h])
  rw [hagain, State.twinUp_witLost, State.twinUp_renewing, State.pairId_witLost _ hn, State.pairId_renewing, State.pairTerm_witLost _ hn, State.pairTerm_renewing]

theorem exec_leaseExpired {s : State} {n : Fin 32} (hon : s.pairOn n = true) (htwin : s.pairTwin n = true) :
    exec (.leaseExpired n) s = .next (if s.role n 0 = 3 ∧ (s.pair n).leaseEnd ≤ s.cycle then s.setRole n 0 4 else s) := by
  have hdue : (s.pairOn n && s.pairTwin n && s.role n 0 == 3 && decide ((s.pair n).leaseEnd ≤ s.cycle)) = decide (s.role n 0 = 3 ∧ (s.pair n).leaseEnd ≤ s.cycle) := by
    rw [hon, htwin]
    exact Bool.eq_iff_iff.2 (by simp)
  change Host.Outcome.next (s.when _ _) = _
  rw [hdue, State.when]
  simp

theorem only_setRole (n sd r : Nat) : Only [R.PAIR_n_STATUS n, R.PWR_MODE] s (s.setRole n sd r) := by
  have hrole : (roleField n sd).reg = R.PAIR_n_STATUS n := by
    rw [roleField]
    split <;> rfl
  exact .trans (.event (.wr (.refl _ _) (roleField n sd) r (by rw [hrole]; exact .head _)) ..) ((only_modeUpdate _).mono (by simp))

theorem State.role_setRole (n : Fin 32) {r : Nat} (hr : r < 8) : (s.setRole n 0 r).role n 0 = r := by
  have hne : (F.PAIR_n_STATUS_ROLE_A n).reg ∉ [R.PWR_MODE] := by
    simp only [F.PAIR_n_STATUS_ROLE_A, R.PAIR_n_STATUS, R.PWR_MODE, List.mem_singleton]
    omega
  have hmode : (s.setRole n 0 r).rd (roleField n 0) = (s.wr (roleField n 0) r).rd (roleField n 0) :=
    ((only_modeUpdate _).rd hne (recReg_pairStatus n)).trans ((only_event [] (s.wr (roleField n 0) r) ..).rd List.not_mem_nil (recReg_pairStatus n))
  rw [State.role, hmode, State.rd_wr_eq _ _ _ rfl]
  exact Nat.mod_eq_of_lt hr

end

/-! ## A heartbeat of the peer (R356, R359) -/

/-- The end of the peer's lease, by a heartbeat with role r and lease l. -/
def State.peerLease (s : State) (n r l : Nat) : Nat :=
  s.cycle + if r = 3 then msCycles l + msCycles 1 + msCycles (s.rd (F.PAIR_n_LEASE_LEASE_MS n)) / 1000 else 0

/-- The peer's side of a pair, by a heartbeat with role r, a TERM of t, no higher than the pair's, and lease l. -/
def State.heardPair (s : State) (n r t l : Nat) : State :=
  let u := s.wr (F.PAIR_n_STATUS_ROLE_B n) r
  if t < u.pairTerm n then u else u.setPair n { u.pair n with peerEnd := u.peerLease n r l }

/-- One pair's turn in a heartbeat. -/
def State.hearPair (x : HbFrame) (n : Nat) (s : State) : State :=
  match s.pairOn n && s.pairTwin n, x.pairs[n]? with
  | true, some (r, t, l) => (s.heardPair n r t l).hearTerm n t
  | _, _ => s

theorem State.twinHeartbeat_eq (s : State) (x : HbFrame) :
    s.twinHeartbeat x = (((({ s with red := { s.red with misses := 0 } } : State).wr F.TWIN_STATUS_PEER_OK 1).forRange 32 (State.hearPair x)).twinRef x.tls) := rfl

section
variable {s u : State} {x : HbFrame} {n r t l k : Nat}

theorem State.only_heardPair : Only [R.PAIR_n_STATUS n] { s with red := (s.heardPair n r t l).red } (s.heardPair n r t l) := by
  have hrole : Only [R.PAIR_n_STATUS n] { s with red := (s.wr (F.PAIR_n_STATUS_ROLE_B n) r).red } (s.wr (F.PAIR_n_STATUS_ROLE_B n) r) :=
    Only.of_red (s := s) (only_wr s (F.PAIR_n_STATUS_ROLE_B n) r)
  rw [State.heardPair]
  split
  · exact hrole
  · exact hrole.setPair n _

theorem State.role_heardPair : (s.heardPair n r t l).role n 1 = r % 8 := by
  have hrole : (s.wr (F.PAIR_n_STATUS_ROLE_B n) r).rd (F.PAIR_n_STATUS_ROLE_B n) = r % 8 := State.rd_wr_eq _ _ _ rfl
  rw [State.heardPair]
  split
  · exact hrole
  · exact (State.rd_setPair _ _ _ _).trans hrole

theorem State.misses_setPair (s : State) (n : Nat) (y : PairSt) : (s.setPair n y).red.misses = s.red.misses := rfl

theorem State.misses_heardPair : (s.heardPair n r t l).red.misses = s.red.misses := by
  have hred := State.wr_red s (F.PAIR_n_STATUS_ROLE_B n) r
  rw [State.heardPair]
  split
  · rw [hred]
  · exact (State.misses_setPair _ _ _).trans (congrArg Redund.misses hred)

theorem State.pair_heardPair_ne {m : Nat} (hm : m ≠ n) : (s.heardPair n r t l).pair m = s.pair m := by
  have hpair : (s.wr (F.PAIR_n_STATUS_ROLE_B n) r).pair m = s.pair m := by rw [State.pair, State.wr_red, State.pair]
  rw [State.heardPair]
  split
  · exact hpair
  · exact (State.pair_setPair_ne _ _ hm).trans hpair

/-- The registers of pairs but STATUS, after the write of a role. -/
theorem State.rd_heardPair {f : Fld} (hf : f.reg ≠ R.PAIR_n_STATUS n) : (s.heardPair n r t l).rd f = s.rd f := by
  have hrd : (s.wr (F.PAIR_n_STATUS_ROLE_B n) r).rd f = s.rd f := State.rd_wr_off _ _ hf
  rw [State.heardPair]
  split
  · exact hrd
  · exact (State.rd_setPair _ _ _ _).trans hrd

theorem State.pairTerm_heardPair : (s.heardPair n r t l).pairTerm n = s.pairTerm n :=
  State.rd_heardPair (by simp only [F.PAIR_n_TERM_TERM, R.PAIR_n_TERM, R.PAIR_n_STATUS]; omega)

theorem State.peerEnd_heardPair (ht : t = s.pairTerm n) : ((s.heardPair n r t l).pair n).peerEnd = s.peerLease n r l := by
  have hterm : (s.wr (F.PAIR_n_STATUS_ROLE_B n) r).pairTerm n = s.pairTerm n :=
    State.rd_wr_off _ _ (by simp only [F.PAIR_n_TERM_TERM, R.PAIR_n_TERM, F.PAIR_n_STATUS_ROLE_B, R.PAIR_n_STATUS]; omega)
  have hlease : (s.wr (F.PAIR_n_STATUS_ROLE_B n) r).rd (F.PAIR_n_LEASE_LEASE_MS n) = s.rd (F.PAIR_n_LEASE_LEASE_MS n) :=
    State.rd_wr_off _ _ (by simp only [F.PAIR_n_LEASE_LEASE_MS, R.PAIR_n_LEASE, F.PAIR_n_STATUS_ROLE_B, R.PAIR_n_STATUS]; omega)
  rw [State.heardPair]
  dsimp only
  rw [hterm, if_neg (by omega), State.pair_setPair_same]
  simp only [State.peerLease, State.wr_cycle, hlease]

theorem State.hearPair_known (hon : s.pairOn n = true) (htwin : s.pairTwin n = true) (hx : x.pairs[n]? = some (r, t, l)) (ht : t ≤ s.pairTerm n) :
    State.hearPair x n s = s.heardPair n r t l := by
  have hterm : (s.heardPair n r t l).hearTerm n t = s.heardPair n r t l := if_pos (by rw [State.pairTerm_heardPair]; exact ht)
  rw [State.hearPair, hon, htwin, hx]
  exact hterm

theorem State.hearPair_other (h : ¬(s.pairOn n = true ∧ s.pairTwin n = true ∧ x.pairs[n]?.isSome = true)) : State.hearPair x n s = s := by
  rw [State.hearPair]
  split
  · next hon hx =>
    obtain ⟨hon, htwin⟩ := Bool.and_eq_true_iff.1 hon
    exact absurd ⟨hon, htwin, by rw [hx]; rfl⟩ h
  · rfl

/-- After the first k pairs of heartbeat x have been heard, from state s. -/
structure Heard (s : State) (x : HbFrame) (k : Nat) (u : State) : Prop where
  frame : Only ((List.range 32).map R.PAIR_n_STATUS) { s with red := u.red } u
  misses : u.red.misses = s.red.misses
  heard : ∀ n r t l, n < k → s.pairOn n = true → s.pairTwin n = true → x.pairs[n]? = some (r, t, l) →
    u.role n 1 = r % 8 ∧ (t = s.pairTerm n → (u.pair n).peerEnd = s.peerLease n r l)

theorem Heard.rd (h : Heard s x k u) {f : Fld} (hf : f.reg < 0xD00000) (hne : ∀ n, f.reg ≠ R.PAIR_n_STATUS n) : u.rd f = s.rd f :=
  h.frame.rd (fun hmem => let ⟨n, _, hn⟩ := List.mem_map.1 hmem; hne n hn.symm) (recReg_of_lt hf)

theorem Heard.pairOn (h : Heard s x k u) (hn : n < 32) : u.pairOn n = s.pairOn n :=
  State.on_of_rd (h.rd (f := F.PAIR_n_CFG_EN n) (by simp only [F.PAIR_n_CFG_EN, R.PAIR_n_CFG]; omega)
    fun m => pairFixed_ne_status (n := n) (.inl rfl) m)

theorem Heard.pairTwin (h : Heard s x k u) (hn : n < 32) : u.pairTwin n = s.pairTwin n :=
  State.on_of_rd (h.rd (f := F.PAIR_n_CFG_KIND n) (by simp only [F.PAIR_n_CFG_KIND, R.PAIR_n_CFG]; omega)
    fun m => pairFixed_ne_status (n := n) (.inl rfl) m)

theorem Heard.pairTerm (h : Heard s x k u) (hn : n < 32) : u.pairTerm n = s.pairTerm n :=
  h.rd (f := F.PAIR_n_TERM_TERM n) (by simp only [F.PAIR_n_TERM_TERM, R.PAIR_n_TERM]; omega)
    fun m => by simp only [F.PAIR_n_TERM_TERM, R.PAIR_n_TERM, R.PAIR_n_STATUS]; omega

theorem Heard.peerLease (h : Heard s x k u) (hn : n < 32) : u.peerLease n r l = s.peerLease n r l := by
  have hlease := h.rd (f := F.PAIR_n_LEASE_LEASE_MS n) (by simp only [F.PAIR_n_LEASE_LEASE_MS, R.PAIR_n_LEASE]; omega)
    fun m => by simp only [F.PAIR_n_LEASE_LEASE_MS, R.PAIR_n_LEASE, R.PAIR_n_STATUS]; omega
  have hcycle : u.cycle = s.cycle := by rw [h.frame.2]
  rw [State.peerLease, State.peerLease, hlease, hcycle]

theorem Heard.start : Heard s x 0 s := ⟨.refl _ _, rfl, fun _ _ _ _ hn => absurd hn (Nat.not_lt_zero _)⟩

/-- A pair that is not an enabled twin pair of the frame is passed over. -/
theorem Heard.skip (h : Heard s x k u) (hno : ¬(s.pairOn k = true ∧ s.pairTwin k = true ∧ x.pairs[k]?.isSome = true)) : Heard s x (k + 1) u where
  frame := h.frame
  misses := h.misses
  heard n r t l hn hon htwin hx := h.heard n r t l (by
    have hne : n ≠ k := fun e => hno (e ▸ ⟨hon, htwin, by rw [hx]; rfl⟩)
    omega) hon htwin hx

theorem Heard.hear (h : Heard s x k u) (hk : k < 32) (hx : x.pairs[k]? = some (r, t, l)) : Heard s x (k + 1) (u.heardPair k r t l) where
  frame := by
    have hset : Only ((List.range 32).map R.PAIR_n_STATUS) { s with red := (u.heardPair k r t l).red } { u with red := (u.heardPair k r t l).red } :=
      h.frame.with_red _
    exact hset.trans (State.only_heardPair.mono fun a ha => List.mem_map.2 ⟨k, List.mem_range.2 hk, (List.mem_singleton.1 ha).symm⟩)
  misses := State.misses_heardPair.trans h.misses
  heard n r' t' l' hn hon htwin hx' := by
    by_cases hnk : n = k
    · subst hnk
      obtain ⟨rfl, rfl, rfl⟩ : r = r' ∧ t = t' ∧ l = l' := by simpa [hx] using hx'
      exact ⟨State.role_heardPair, fun ht => (State.peerEnd_heardPair (ht.trans (h.pairTerm hk).symm)).trans (h.peerLease hk)⟩
    · obtain ⟨hrole, hend⟩ := h.heard n r' t' l' (by omega) hon htwin hx'
      exact ⟨(State.rd_heardPair (PairStatus_ne hnk)).trans hrole, fun ht => by rw [State.pair_heardPair_ne hnk, hend ht]⟩

theorem heard_forRange (hterm : ∀ n r t l, n < 32 → s.pairOn n = true → x.pairs[n]? = some (r, t, l) → t ≤ s.pairTerm n) {k : Nat} (hk : k ≤ 32) :
    Heard s x k (s.forRange k (State.hearPair x)) := by
  induction k with
  | zero => exact .start
  | succ k ih =>
    have h := ih (by omega)
    have hlt : k < 32 := by omega
    rw [State.forRange_succ]
    by_cases hpair : s.pairOn k = true ∧ s.pairTwin k = true ∧ x.pairs[k]?.isSome = true
    · obtain ⟨hon, htwin, hsome⟩ := hpair
      obtain ⟨⟨r, t, l⟩, hx⟩ := Option.isSome_iff_exists.1 hsome
      rw [State.hearPair_known ((h.pairOn hlt).trans hon) ((h.pairTwin hlt).trans htwin) hx ((h.pairTerm hlt).symm ▸ hterm k r t l hlt hon hx)]
      exact h.hear hlt hx
    · rw [State.hearPair_other (by rw [h.pairOn hlt, h.pairTwin hlt]; exact hpair)]
      exact h.skip hpair

end

section
variable (s : State)

theorem State.twinRef_off {tls : List Bool} (h : s.on (F.SEL_REFk_CFG_EN 11) = false) : s.twinRef tls = { s with red := { s.red with peerTl := tls } } := by
  have hoff : (({ s with red := { s.red with peerTl := tls } } : State).on (F.SEL_REFk_CFG_EN 11)) = false := h
  rw [State.twinRef]
  exact if_pos (by rw [hoff]; rfl)

/-- No heartbeat is missing. -/
def State.noMisses : State := { s with red := { s.red with misses := 0 } }

theorem State.rd_noMisses (f : Fld) : s.noMisses.rd f = s.rd f := rfl

/-- The peer is heard. -/
def State.peerOk : State := s.noMisses.wr F.TWIN_STATUS_PEER_OK 1

theorem State.rd_peerOk {f : Fld} (hf : f.reg ≠ R.TWIN_STATUS) : s.peerOk.rd f = s.rd f := by
  rw [State.peerOk, State.rd_wr_off _ _ hf, State.rd_noMisses]

theorem State.peerOk_shown : s.peerOk.rd F.TWIN_STATUS_PEER_OK = 1 := State.rd_wr_eq _ _ _ rfl

theorem State.misses_peerOk : s.peerOk.red.misses = 0 := by
  rw [State.peerOk, State.wr_red]
  rfl

theorem State.only_peerOk : Only [R.TWIN_STATUS] s.noMisses s.peerOk := only_wr s.noMisses F.TWIN_STATUS_PEER_OK 1

section
variable {n : Nat} (hn : n < 32)
include hn

theorem State.pairOn_peerOk : s.peerOk.pairOn n = s.pairOn n :=
  State.on_of_rd (s.rd_peerOk (by simp only [F.PAIR_n_CFG_EN, R.PAIR_n_CFG, R.TWIN_STATUS]; omega))

theorem State.pairTwin_peerOk : s.peerOk.pairTwin n = s.pairTwin n :=
  State.on_of_rd (s.rd_peerOk (by simp only [F.PAIR_n_CFG_KIND, R.PAIR_n_CFG, R.TWIN_STATUS]; omega))

theorem State.pairTerm_peerOk : s.peerOk.pairTerm n = s.pairTerm n :=
  s.rd_peerOk (by simp only [F.PAIR_n_TERM_TERM, R.PAIR_n_TERM, R.TWIN_STATUS]; omega)

theorem State.peerLease_peerOk (r l : Nat) : s.peerOk.peerLease n r l = s.peerLease n r l := by
  have hlease : s.peerOk.rd (F.PAIR_n_LEASE_LEASE_MS n) = s.rd (F.PAIR_n_LEASE_LEASE_MS n) :=
    s.rd_peerOk (by simp only [F.PAIR_n_LEASE_LEASE_MS, R.PAIR_n_LEASE, R.TWIN_STATUS]; omega)
  have hcycle : s.peerOk.cycle = s.cycle := State.wr_cycle _ _ _
  rw [State.peerLease, State.peerLease, hlease, hcycle]

end

/-- The peer's report of its timelines kept. -/
def State.keepTls (tls : List Bool) : State := { s with red := { s.red with peerTl := tls } }

theorem State.peerTl_keepTls (tls : List Bool) : (s.keepTls tls).red.peerTl = tls := rfl

theorem Only.keepTls {as : List Nat} {s t : State} (h : Only as { s with red := t.red } t) (tls : List Bool) :
    Only as { s with red := (t.keepTls tls).red } (t.keepTls tls) := h.red_after _

end

section
variable {s u : State} {x : HbFrame}

/-- A heartbeat with no higher TERM, ref 11 not enabled. -/
theorem State.twinHeartbeat_heard (hoff : s.on (F.SEL_REFk_CFG_EN 11) = false)
    (hterm : ∀ n r t l, s.pairOn n = true → x.pairs[n]? = some (r, t, l) → t ≤ s.pairTerm n) :
    ∃ u, Heard s.peerOk x 32 u ∧ s.twinHeartbeat x = u.keepTls x.tls := by
  have h : Heard s.peerOk x 32 (s.peerOk.forRange 32 (State.hearPair x)) := heard_forRange (fun n r t l hn hon hx =>
    s.pairTerm_peerOk hn ▸ hterm n r t l ((s.pairOn_peerOk hn).symm.trans hon) hx) (Nat.le_refl _)
  have hsel : (s.peerOk.forRange 32 (State.hearPair x)).on (F.SEL_REFk_CFG_EN 11) = false :=
    (State.on_of_rd ((h.rd (by decide) fun n => by simp only [F.SEL_REFk_CFG_EN, R.SEL_REFk_CFG, R.PAIR_n_STATUS]; omega).trans
      (s.rd_peerOk (by decide)))).trans hoff
  exact ⟨_, h, (State.twinHeartbeat_eq s x).trans (State.twinRef_off _ hsel)⟩

theorem Heard.only (h : Heard s.peerOk x 32 u) : Only (R.TWIN_STATUS :: (List.range 32).map R.PAIR_n_STATUS) { s with red := u.red } u := by
  have hok : Only [R.TWIN_STATUS] { s with red := u.red } { s.peerOk with red := u.red } := s.only_peerOk.with_red u.red
  exact (hok.mono (by simp)).trans (h.frame.mono fun a ha => .tail _ ha)

theorem Heard.shown (h : Heard s.peerOk x 32 u) : u.rd F.TWIN_STATUS_PEER_OK = 1 :=
  (h.rd (by decide) fun n => by simp only [F.TWIN_STATUS_PEER_OK, R.TWIN_STATUS, R.PAIR_n_STATUS]; omega).trans s.peerOk_shown

end

/-- Settles O44. The loop of a peer's heartbeat is followed by `Heard`, which says what the first k pairs leave; the marks of PAIR_n_HB by `Seen`;
every other command is one branch of its operation. -/
theorem pairHeartbeatsAndLeases : Obligations.PairHeartbeatsAndLeases := by
  unfold Obligations.PairHeartbeatsAndLeases
  refine ⟨?hb, ?timeout, ?decided, ?hold, ?send, ?heartbeat, ?miss, ?lease⟩
  case hb =>
    intro q n v s on
    obtain ⟨hmem, hsame, hother, hrest⟩ := State.heartSides_seen (s := s) (n := n) v on
    refine ⟨_, rfl, fun sd hsd => (hmem sd).trans (or_congr_right ?_), hsame, hother, hrest⟩
    exact ⟨And.right, fun h => ⟨hsd, h⟩⟩
  case timeout =>
    intro n sd s hon htwin h1 h3 hsusp
    have hdue : (s.pairOn n && !s.pairTwin n && decide (1 ≤ s.role n sd ∧ s.role n sd ≤ 3) && !(s.pair n).susp.contains sd.val) = true := by
      simp [hon, htwin, h1, h3, hsusp]
    let x : PairSt := { s.pair n with susp := (s.pair n).susp ++ [sd.val], seen := (s.pair n).seen.filter (· != sd.val) }
    have hexec : exec (.pairHbTimeout n sd) s = .next (s.setPair n x) := by
      change Host.Outcome.next (s.when _ _) = _
      rw [hdue, State.when_true]
    refine ⟨_, hexec, ?_, ?_, fun m hm => State.pair_setPair_ne s x hm, rfl⟩
    · rw [State.pair_setPair_same]
      exact List.mem_append_right _ (.head _)
    · rw [State.pair_setPair_same]
      simp [x]
  case decided =>
    intro n sd s hsusp
    have hexec : exec (.pairSuspectDecide n sd) s = .next (s.suspectDecide n sd) := by
      have hdue : (s.pair n).susp.contains sd.val = true := List.contains_iff_mem.2 hsusp
      change Host.Outcome.next (s.when _ _) = _
      rw [hdue, State.when_true]
    refine ⟨fun h => hexec.trans (congrArg Host.Outcome.next (State.suspectDecide_fails h)), fun hseen hhealthy => ?_⟩
    rw [State.suspectDecide_counts hseen hhealthy] at hexec
    refine ⟨_, hexec, ?_, ?_, ?_⟩
    · rw [State.pair_inc]
      exact State.unsuspected_susp _
    · rw [State.rd_inc_eq _ _ rfl, State.unsuspected, State.rd_setPair]
      rfl
    · have hred : ((s.unsuspected n sd).inc (F.PAIR_n_CNT_A_SUSPECTS n)).red = (s.unsuspected n sd).red := by rw [State.inc, State.add, State.wr_red]
      rw [hred]
      exact only_inc (s.unsuspected n sd) (F.PAIR_n_CNT_A_SUSPECTS n)
  case hold =>
    intro n sd s path key hheld
    obtain ⟨q, hq⟩ := s.releaseReset_held hheld
    have hexec : exec (.refHoldExpired n sd) s = .next (s.letGo key path q).showDoms := congrArg Host.Outcome.next hq
    refine ⟨_, hexec, fun h => ?_, ?_, s.only_showDoms_letGo key path q⟩
    · rw [State.rst_showDoms]
      simp [State.letGo, List.mem_filter]
    · rw [State.rst_showDoms]
      exact List.mem_append_right _ (.head _)
  case send =>
    intro s
    have hexec : ∀ b, s.twinUp = b → exec .twinHbSend s = .next (s.when b fun s => s.sendTwin 1 0 s.hbWords) := fun b hb => hb ▸ rfl
    exact ⟨fun hup => hexec true hup, fun hup => hexec false hup⟩
  case heartbeat =>
    intro x s hup hoff hterm
    obtain ⟨u, hheard, hu⟩ := State.twinHeartbeat_heard hoff hterm
    have hexec : exec (.twinHeartbeat ⟨true, x⟩) s = .next (u.keepTls x.tls) := congrArg Host.Outcome.next ((State.twinTake_good _ hup).trans hu)
    refine ⟨_, hexec, hheard.misses.trans s.misses_peerOk, hheard.shown, u.peerTl_keepTls x.tls, fun n r k l hn hon htwin hx => ?_, hheard.only.keepTls x.tls⟩
    obtain ⟨hrole, hend⟩ := hheard.heard n r k l hn ((s.pairOn_peerOk hn).trans hon) ((s.pairTwin_peerOk hn).trans htwin) hx
    exact ⟨hrole, fun hk => (hend (hk.trans (s.pairTerm_peerOk hn).symm)).trans (s.peerLease_peerOk hn r l)⟩
  case miss =>
    intro s hen
    have hexec : exec .twinHbMiss s = .next s.twinHbMiss := by
      change Host.Outcome.next (s.when _ _) = _
      rw [hen, State.when_true]
    refine ⟨fun hmiss => ?_, fun hmiss => hexec.trans (congrArg Host.Outcome.next (s.twinHbMiss_fourth hmiss))⟩
    rw [s.twinHbMiss_counted hmiss] at hexec
    refine ⟨_, hexec, ?_, State.rd_inc_eq _ _ rfl, s.only_missed _ F.TWIN_CNT_A_HB_MISS⟩
    rw [State.inc, State.add, State.wr_red]
  case lease =>
    intro n s hon htwin
    refine ⟨?renewals, fun hrole hend => ?_, fun hrole hend => ?_, fun hrole => ?_⟩
    case renewals =>
      intro hrole u v w
      have hexec := exec_leaseRenewTimer hon htwin hrole
      refine ⟨fun hasked => hexec.trans (congrArg Host.Outcome.next (s.renew_direct hasked)), fun hasked hup => hexec.trans ?_, fun hasked hup => hexec.trans ?_⟩
      · rw [s.renew_again n.isLt hasked, if_pos hup]
        rfl
      · rw [s.renew_again n.isLt hasked, if_neg (by rw [hup]; decide)]
        rfl
    · have hexec := exec_leaseExpired hon htwin
      rw [if_pos ⟨hrole, hend⟩] at hexec
      exact ⟨_, hexec, s.role_setRole n (by decide), only_setRole s n 0 4⟩
    · rw [exec_leaseExpired hon htwin, if_neg fun h => absurd h.2 (Nat.not_le.2 hend)]
    · rw [exec_leaseExpired hon htwin, if_neg fun h => hrole h.1]

end Sys2Proof.Machine
end

section
/-!
PROOFS. Pool objects, decode input and decoded pictures (R295 to R302, R306).
-/
namespace Sys2Proof.Machine

/-! ## Epoch objects (R295, R296, R298, R306) -/

section
variable {s : State} {d : Nat} {v : Word}

theorem recReg_poolStatus (d : Nat) : recReg (R.POOL_STATUS d) = false := recReg_of_offset d (by decide)

theorem State.eobjWrite_none (h : getBits v 0 1 = 0) : s.eobjWrite d v = s := if_pos h

variable (h : getBits v 0 1 = 1)
include h

theorem State.eobjWrite_set : s.eobjWrite d v =
    if s.eobjBad d (s.rd (F.POOL_EOBJ_SEL_KIND d)) (s.rd (F.POOL_EOBJ_SEL_INDEX d)) (s.rd (F.POOL_EOBJ_SEL_NEW_OWNER d)) = true then
      s.refuse (mkPath [d, 13]) [R.POOL_STATUS d] 0x5005 (R.POOL_EOBJ_CTL d)
    else if s.eobjBusy d (s.rd (F.POOL_EOBJ_SEL_KIND d)) (s.rd (F.POOL_EOBJ_SEL_INDEX d)) = true then
      s.refuse (mkPath [d, 13]) [R.POOL_STATUS d] 0x5004 (R.POOL_EOBJ_CTL d)
    else s.revokeObj d (s.rd (F.POOL_EOBJ_SEL_KIND d)) (s.rd (F.POOL_EOBJ_SEL_INDEX d)) (s.rd (F.POOL_EOBJ_SEL_NEW_OWNER d)) :=
  if_neg (by omega)

end

/-! ## DEC_INPUT (R301) -/

/-- A register of the decode engine's or a decode stream's status on a crown. -/
def decStatus (a : Nat) : Prop := ∃ d, 1 ≤ d ∧ (a = R.DEC_STATUS d ∨ ∃ i, i < 128 ∧ a = R.DEC_STRi_STATUS d i)

section
variable {s t : State} {r : Nat} {x : Desc}

theorem State.lt_of_indexOf {d id i : Nat} (h : s.indexOf d id = some i) : i < 128 := List.mem_range.1 (List.mem_of_find?_eq_some h)

/-- A refused input's code goes to registers of the engine's status. -/
theorem State.decNote_reasons (s : State) (r : Nat) : ∃ as code, s.decNote r = s.reasons as code ∧ ∀ a ∈ as, decStatus a := by
  have hnone : ∃ as code, s = s.reasons as code ∧ ∀ a ∈ as, decStatus a := ⟨[], 0, rfl, fun a ha => nomatch ha⟩
  rw [State.decNote]
  split
  · next y hy =>
    dsimp only
    split
    · exact hnone
    · next hno =>
      have hd : 1 ≤ pathDie (dTarget y.words) := by
        have hne : pathDie (dTarget y.words) ≠ 0 := fun e => hno (.inr (.inl e))
        omega
      refine ⟨_, _, rfl, fun a ha => ⟨_, hd, ?_⟩⟩
      rcases List.mem_cons.1 ha with rfl | ha
      · exact .inl rfl
      · split at ha
        · next i hi =>
          split at ha
          · exact .inr ⟨i, State.lt_of_indexOf hi, List.mem_singleton.1 ha⟩
          · cases ha
        · cases ha
  · exact hnone

/-- An accepted input is noted nowhere. -/
theorem State.decNote_accepted (hx : s.dispatchable r 0x20 = some x) (hc : s.decCheck x = 0) : s.decNote r = s := by
  rw [State.decNote, hx]
  exact if_pos (.inl hc)

/-- Two states that differ at most in registers of the decode engine's status. -/
structure DecNoted (s t : State) : Prop where
  reg : ∀ a, ¬decStatus a → recReg a = false → t.reg a = s.reg a
  rest : OnlyRegs s t

theorem State.decNoted_decNote (s : State) (r : Nat) : DecNoted s (s.decNote r) := by
  obtain ⟨as, code, heq, has⟩ := s.decNote_reasons r
  have honly := only_reasons s as code
  rw [heq]
  exact ⟨fun a ha hr => honly.reg (fun hm => ha (has a hm)) hr, honly.2⟩

theorem DecNoted.rd (h : DecNoted s t) {f : Fld} (hf : ¬decStatus f.reg) (hr : recReg f.reg = false) : t.rd f = s.rd f := by
  rw [State.rd, State.rd, h.reg f.reg hf hr]

theorem not_decStatus_root {a : Nat} (h : a < 0x4000000) : ¬decStatus a := by
  rintro ⟨d, hd, h1 | ⟨i, hi, h1⟩⟩
  · simp only [R.DEC_STATUS, dieBase] at h1
    omega
  · simp only [R.DEC_STRi_STATUS, dieBase] at h1
    omega

/-- A register of a crown outside the decode block. -/
theorem not_decStatus_below {d a : Nat} (h : a < 0x7C0000) : ¬decStatus (dieBase d + a) := by
  rintro ⟨d', hd, h1 | ⟨i, hi, h1⟩⟩
  · simp only [R.DEC_STATUS, dieBase] at h1
    omega
  · simp only [R.DEC_STRi_STATUS, dieBase] at h1
    omega

theorem not_decStatus_cfg {d i : Nat} (hi : i < 128) : ¬decStatus (R.DEC_STRi_CFG d i) := by
  rintro ⟨d', hd, h1 | ⟨i', hi', h1⟩⟩
  · simp only [R.DEC_STATUS, R.DEC_STRi_CFG, dieBase] at h1
    omega
  · simp only [R.DEC_STRi_STATUS, R.DEC_STRi_CFG, dieBase] at h1
    omega

theorem DecNoted.decOn (h : DecNoted s t) (d : Nat) {i : Nat} (hi : i < 128) : t.decOn d i = s.decOn d i :=
  State.on_of_rd (h.rd (f := F.DEC_STRi_CFG_EN d i) (not_decStatus_cfg hi)
    (by simpa only [F.DEC_STRi_CFG_EN, R.DEC_STRi_CFG, Nat.add_assoc] using recReg_of_offset d (by omega)))

theorem DecNoted.strOn (h : DecNoted s t) (d : Nat) {i : Nat} (hi : i < 128) : t.strOn d i = s.strOn d i :=
  State.on_of_rd (h.rd (f := F.ENC_STRi_CFG_EN d i)
    (by simpa only [F.ENC_STRi_CFG_EN, R.ENC_STRi_CFG, Nat.add_assoc] using not_decStatus_below (by omega))
    (by simpa only [F.ENC_STRi_CFG_EN, R.ENC_STRi_CFG, Nat.add_assoc] using recReg_of_offset d (by omega)))

theorem DecNoted.strId (h : DecNoted s t) (d : Nat) {i : Nat} (hi : i < 128) : t.strId d i = s.strId d i := by
  have hch : t.strChan d i = s.strChan d i := h.rd (f := F.CMP_SLOTs_CFG_CHANNEL d (i / 8))
    (by simpa only [F.CMP_SLOTs_CFG_CHANNEL, R.CMP_SLOTs_CFG, Nat.add_assoc] using not_decStatus_below (by omega))
    (by simpa only [F.CMP_SLOTs_CFG_CHANNEL, R.CMP_SLOTs_CFG, Nat.add_assoc] using recReg_of_offset d (by omega))
  rw [State.strId, State.strId, hch]

theorem DecNoted.indexOf (h : DecNoted s t) (d id : Nat) : t.indexOf d id = s.indexOf d id :=
  List.find?_congr fun i hi => by
    have hlt := List.mem_range.1 hi
    rw [h.strOn d hlt, h.decOn d hlt, h.strId d hlt]

/-- The timeline of the channel of a stream id. -/
theorem DecNoted.tpf (h : DecNoted s t) {c : Nat} (hc : c < 128) : t.tpf (t.chTl c) = s.tpf (s.chTl c) := by
  have hmap : R.LT_CHc_MAP c < 0xD00000 := by simp only [R.LT_CHc_MAP]; omega
  have htl : t.chTl c = s.chTl c := h.rd (f := F.LT_CHc_MAP_TL c) (not_decStatus_root (Nat.lt_trans hmap (by decide))) (recReg_of_lt hmap)
  have hlt : s.chTl c < 4 := s.rd_lt (F.LT_CHc_MAP_TL c)
  have hcfg : R.LT_TLn_CFG (s.chTl c) < 0xD00000 := by simp only [R.LT_TLn_CFG]; omega
  rw [htl]
  exact h.rd (f := F.LT_TLn_CFG_TPF (s.chTl c)) (not_decStatus_root (Nat.lt_trans hcfg (by decide))) (recReg_of_lt hcfg)

theorem dStream_lt (ws : List Word) : dStream ws / 8 < 128 := by
  have h : dStream ws < 2 ^ 10 := getBits_lt _ _ _
  omega

/-- The checks of an input look at nothing that a note of its code changes. -/
theorem DecNoted.decCheck (h : DecNoted s t) (x : Desc) : t.decCheck x = s.decCheck x := by
  simp only [State.decCheck, h.indexOf, h.tpf (dStream_lt x.words)]
  cases hi : s.indexOf (pathDie (dTarget x.words)) (dStream x.words) with
  | none => rfl
  | some i => simp only [h.decOn _ (State.lt_of_indexOf hi)]

theorem DecNoted.dispatchable (h : DecNoted s t) {r : Nat} (hr : r < 4096) (op : Nat) : t.dispatchable r op = s.dispatchable r op := by
  have hring : t.ring r = s.ring r := by rw [h.rest]; rfl
  have hbusy : t.ringBusy r = s.ringBusy r := by rw [h.rest]; rfl
  have hstatus : R.RING_r_STATUS r < 0xD00000 := by simp only [R.RING_r_STATUS]; omega
  have hstate : t.ringState r = s.ringState r :=
    h.rd (f := F.RING_r_STATUS_STATE r) (not_decStatus_root (Nat.lt_trans hstatus (by decide))) (recReg_of_lt hstatus)
  simp only [State.dispatchable, hring, hbusy, hstate]

theorem State.decCheck_popFetched (s : State) (r : Nat) (x : Desc) : (s.popFetched r).decCheck x = s.decCheck x := rfl

/-- The body of an input with its reserved fields zero. -/
theorem decBody_zero {ws : List Word} (h8 : fieldAt ws 8 25 7 = 0) (h9 : fieldAt ws 9 2 30 = 0) (h12 : ∀ k ∈ [12, 13, 14], ws.getD k 0 = 0) :
    decBody.any (fun (i, m) => ws.getD i 0 &&& m != 0) = false := by
  have e8 : ws.getD 8 0 &&& 0xFE000000 = 0 := and_onesFrom_eq_zero (lo := 25) h8
  have e9 : ws.getD 9 0 &&& 0xFFFFFFFC = 0 := and_onesFrom_eq_zero (lo := 2) h9
  have hbody : bodyZero 12 14 = [(12, 0xFFFFFFFF), (13, 0xFFFFFFFF), (14, 0xFFFFFFFF)] := rfl
  have z12 := h12 12 (by decide)
  have z13 := h12 13 (by decide)
  have z14 := h12 14 (by decide)
  rw [decBody, hbody]
  simp only [List.any_append, List.any_cons, List.any_nil, e8, e9, z12, z13, z14]
  decide

theorem exec_decInput {r : Fin 4096} (hroom : s.decRoom r = true) :
    exec (.decInput r) s = .next ((s.decNote r).dispatch r 0x20 decBody State.decCheck fun s x => s.decSubmit r x) := by
  change Host.Outcome.next (s.when _ _) = _
  rw [hroom, State.when_true]

/-- The task of an accepted input. -/
def State.decEntry (s : State) (r i : Nat) (x : Desc) : Task :=
  let d := pathDie (dTarget x.words)
  let q := s.rd (F.DEC_CFG_QUEUE d)
  { Task.idle with
    state := 2, level := s.rd (F.DEC_STRi_CFG_LEVEL d i), dlist := 7, desc := true, words := x.words, dtl := dTl x.words, queue := q
    epoch := s.rd (F.SCH_Qq_STATUS_EPOCH d q), wake := wordAt x.words 9, deadline := dDeadline x.words, arg0 := x.words.getD 10 0, arg1 := x.words.getD 11 0
    ring := r, idx := x.idx, htag := dTag x.words, nocpl := dNocpl x.words, stream := dStream x.words }

theorem State.decSubmit_enters {i k : Nat} (hi : s.indexOf (pathDie (dTarget x.words)) (dStream x.words) = some i)
    (hk : s.freeEntry (pathDie (dTarget x.words)) (s.rd (F.DEC_CFG_QUEUE (pathDie (dTarget x.words)))) = some k) :
    s.decSubmit r x = ((s.setTask (pathDie (dTarget x.words)) k (s.decEntry r i x)).joinTail (pathDie (dTarget x.words)) k clsSubmit).refill
      (pathDie (dTarget x.words)) (s.rd (F.SCH_Qq_CFG_BIND (pathDie (dTarget x.words)) (s.rd (F.DEC_CFG_QUEUE (pathDie (dTarget x.words)))))) := by
  simp only [State.decSubmit, hi, hk] <;> rfl

end

/-! ## Access units (R300, R301) -/

section
variable {s : State} {d i : Nat} {x : DecPic}

/-- The engine has completed an access unit of its descriptor. -/
def State.gotUnit (s : State) (d i : Nat) : State := s.setDecSt d i { s.decSt d i with got := true }

theorem State.decStep_unfit (hst : s.rd (F.DEC_STRi_STATUS_STATE d i) ≠ 0) (h : decUnfit x = true) : s.decStep d i x = .skip := by
  simp only [State.decStep, if_neg hst, h, if_true]

theorem State.decStep_live (hst : s.rd (F.DEC_STRi_STATUS_STATE d i) = 2 ∨ s.rd (F.DEC_STRi_STATUS_STATE d i) = 3) (hfit : decUnfit x = false)
    (hsps : s.spsBad d i x = false) (hlead : x.leading = false) : s.decStep d i x = .go := by
  have h0 : s.rd (F.DEC_STRi_STATUS_STATE d i) ≠ 0 := by omega
  have h1 : s.rd (F.DEC_STRi_STATUS_STATE d i) ≠ 1 := by omega
  simp only [State.decStep, if_neg h0, if_neg h1, hfit, hsps, hlead, Bool.false_eq_true, if_false]

theorem State.holdPart_long {n : Nat} (h : 4194304 < n) : s.holdPart d i n = s.carryDrop d i := if_pos h

theorem State.holdPart_short {n : Nat} (h : n ≤ 4194304) : s.holdPart d i n = s.setDecSt d i { s.decSt d i with carry := n } := if_neg (Nat.not_lt.2 h)

/-- An access unit done that outputs nothing. -/
theorem State.decDone_quiet {sh : Nat} (hout : x.output = []) (htail : x.tail ≤ 4194304) : s.decDone d i sh x =
    let u := (match (s.gotUnit d i).decStep d i x with
      | .none_ => s.gotUnit d i
      | .skip => (s.gotUnit d i).decSkip d i
      | .spsFail => ((((s.gotUnit d i).curFree d i).inc (F.DEC_STRi_CNT_C_DPB_ERR d i))).setDecState d i 1 true
      | .start c => (((s.gotUnit d i).setDecSt d i { (s.gotUnit d i).decSt d i with conceal := c || ((s.gotUnit d i).decSt d i).conceal }).setDecState d i 2 false).decode d i sh x
      | .go => (s.gotUnit d i).decode d i sh x).repin d i
    u.setDecSt d i { u.decSt d i with carry := x.tail } := by
  rw [State.decDone]
  dsimp only
  rw [hout, State.holdPart_short htail]
  rfl

theorem State.decDone_skip {sh : Nat} (hst : s.rd (F.DEC_STRi_STATUS_STATE d i) ≠ 0) (h : decUnfit x = true) (hout : x.output = []) (htail : x.tail ≤ 4194304) :
    s.decDone d i sh x =
      let u := (((s.gotUnit d i).curFree d i).inc (F.DEC_STRi_CNT_A_SKIPPED d i)).repin d i
      u.setDecSt d i { u.decSt d i with carry := x.tail } := by
  rw [State.decDone_quiet hout htail, State.decStep_unfit (s := s.gotUnit d i) hst h]
  rfl

theorem State.decDone_decodes {sh : Nat} (hst : s.rd (F.DEC_STRi_STATUS_STATE d i) = 2 ∨ s.rd (F.DEC_STRi_STATUS_STATE d i) = 3) (hfit : decUnfit x = false)
    (hsps : s.spsBad d i x = false) (hlead : x.leading = false) (hout : x.output = []) (htail : x.tail ≤ 4194304) :
    s.decDone d i sh x =
      let u := ((s.gotUnit d i).decode d i sh x).repin d i
      u.setDecSt d i { u.decSt d i with carry := x.tail } := by
  rw [State.decDone_quiet hout htail, State.decStep_live (s := s.gotUnit d i) hst hfit hsps hlead]

theorem State.decPicture_idle (h : s.decTask d i = none) : s.decPicture d i x = s := by rw [State.decPicture, h]

theorem State.decPicture_done {k : Nat} (h : s.decTask d i = some k) (hb : x.begins = false) :
    s.decPicture d i x = s.decDone d i ((s.task d k).arg0.toNat + (s.task d k).arg1.toNat * 2 ^ 32) x := by
  rw [State.decPicture, h]
  exact if_neg (by rw [hb]; decide)

theorem State.decPicture_begins {k : Nat} (h : s.decTask d i = some k) (hb : x.begins = true) (hgo : s.decStep d i x = .go) :
    s.decPicture d i x = s.decBegin d i x := by
  rw [State.decPicture, h]
  refine (if_pos hb).trans ?_
  rw [hgo]

theorem State.decSt_setDecSt (y : DecSt) : (s.setDecSt d i y).decSt d i = y := mapGet_set_same _ _ _ _

theorem State.decBegin_takes (hcur : (s.decSt d i).cur = none) {u : State} {b : Nat}
    (h : s.allocBuf d (s.strId d i) (s.decSt d i).next x.order.toNat = (u, some b)) :
    ((s.decBegin d i x).decSt d i).cur = some (b, (u.buf d b).epoch) := by
  rw [State.decBegin, h]
  dsimp only
  rw [if_neg (by rw [hcur]; decide), State.decSt_setDecSt]

theorem State.decBegin_full (hcur : (s.decSt d i).cur = none) {u : State}
    (h : s.allocBuf d (s.strId d i) (s.decSt d i).next x.order.toNat = (u, none)) : s.decBegin d i x = s := by
  rw [State.decBegin, h]
  dsimp only
  rw [if_neg (by rw [hcur]; decide)]

end

/-! ## Release for display (R302) -/

/-- The decode streams' state and register a are as before, and what had left the package has left it. -/
structure ShowKeeps (a : Nat) (s t : State) : Prop where
  dec : t.dec = s.dec
  reg : t.reg a = s.reg a
  sent : s.sent <:+ t.sent

section
variable {a : Nat} {s t u : State}

theorem ShowKeeps.refl : ShowKeeps a s s := ⟨rfl, rfl, List.suffix_rfl⟩

theorem ShowKeeps.trans (h : ShowKeeps a s t) (g : ShowKeeps a t u) : ShowKeeps a s u := ⟨g.dec.trans h.dec, g.reg.trans h.reg, h.sent.trans g.sent⟩

theorem ShowKeeps.foldl {α : Type} {f : State → α → State} {l : List α} (hf : ∀ x ∈ l, ∀ s, ShowKeeps a s (f s x)) (s : State) : ShowKeeps a s (l.foldl f s) := by
  induction l generalizing s with
  | nil => exact .refl
  | cons x l ih => exact (hf x (.head _) s).trans (ih (fun y hy => hf y (.tail _ hy)) _)

theorem ShowKeeps.wr (f : Fld) (v : Nat) (h : a ≠ f.reg) : ShowKeeps a s (s.wr f v) :=
  ⟨State.wr_dec s f v, State.reg_wr_ne s f v h, (State.wr_sent s f v).symm ▸ List.suffix_rfl⟩

theorem ShowKeeps.setSlotSt (d k : Nat) (x : SlotSt) : ShowKeeps a s (s.setSlotSt d k x) := ⟨rfl, rfl, List.suffix_rfl⟩

theorem ShowKeeps.setBuf (d b : Nat) (x : BufD) : ShowKeeps a s (s.setBuf d b x) := ⟨rfl, rfl, List.suffix_rfl⟩

variable {d : Nat} (ha : ∀ o, o < 0x7C0000 → a ≠ dieBase d + o)
include ha

/-- A layer that waits for a decoded picture latches it. -/
theorem showKeeps_decWaitDone {k l : Nat} (hk : k < 16) (hl : l < 16) : ShowKeeps a s (s.decWaitDone d k l) := by
  rw [State.decWaitDone]
  dsimp only
  split
  · exact .refl
  · refine .trans (.setSlotSt _ _ _) (.trans (.setSlotSt _ _ _) (.trans (.setSlotSt _ _ _) (.wr _ _ ?_)))
    simpa only [F.CMP_SLOTs_Ll_CNT_B_WAITED, R.CMP_SLOTs_Ll_CNT_B, Nat.add_assoc] using ha _ (by omega)

theorem showKeeps_decReleased (id : Nat) : ShowKeeps a s (s.decReleased d id) := by
  refine .foldl (fun k hk s => .foldl (fun l hl s => ?_) s) s
  dsimp only
  split
  · next hwait =>
    rw [State.waitDone]
    dsimp only
    rw [if_neg (by simp [hwait.1]), if_pos hwait.2.1]
    exact showKeeps_decWaitDone ha (List.mem_range.1 hk) (List.mem_range.1 hl)
  · exact .refl

omit ha in
theorem showKeeps_repin (d i : Nat) : ShowKeeps a s (s.repin d i) := by
  refine .foldl (fun b _ s => ?_) s
  dsimp only
  split
  · exact .refl
  · split
    · exact .trans (.setBuf _ _ _) (.setBuf _ _ _)
    · exact .setBuf _ _ _

end

section
variable (s : State) (d i b : Nat)

/-- What a stream keeps of its pictures once the one in buffer b is its newest. -/
def DecSt.released (y : DecSt) (b : Nat) : DecSt :=
  { y with newest := some b, await := y.await.filter (·.1 != b), shows := y.shows.filter (·.1 != b) }

/-- The registers that show the released picture. -/
def State.picShown (pic conceal : Nat) : State := (s.wr (F.DEC_STRi_PIC_PIC d i) pic).wr (F.DEC_STRi_STATUS_CONCEAL d i) conceal

theorem State.dec_picShown (pic conceal : Nat) : (s.picShown d i pic conceal).dec = s.dec := by rw [State.picShown, State.wr_dec, State.wr_dec]

theorem State.rd_picShown (pic conceal : Nat) : (s.picShown d i pic conceal).rd (F.DEC_STRi_PIC_PIC d i) = pic % 2 ^ 32 := by
  rw [State.picShown, State.rd_wr_off _ _ (by simp only [F.DEC_STRi_PIC_PIC, F.DEC_STRi_STATUS_CONCEAL, R.DEC_STRi_PIC, R.DEC_STRi_STATUS]; omega)]
  exact State.rd_wr_eq _ _ _ rfl

/-- What the compositors of a crown and the pool note of a release, with the message to them. -/
def State.releaseNoted (id pic : Nat) (grey : Bool) : State :=
  let key := d * 1024 + id
  let s := { s with
    cmp := { s.cmp with
      released := mapSet (fun _ => 0) s.cmp.released key (pic + 1)
      hold := (if grey then [(key, true)] else []) ++ s.cmp.hold.filter fun (e : Nat × Bool) => e.1 != key }
    pool := { s.pool with omitted := s.pool.omitted.filter fun n => !(n / 256 == d && s.taken d (n / 16 % 16) (F.CMP_SLOTs_Ll_DEC_STREAM d (n / 16 % 16) (n % 16)) == id) } }
  s.send (.show d id pic)

theorem State.dec_releaseNoted (id pic : Nat) (grey : Bool) : (s.releaseNoted d id pic grey).dec = s.dec := rfl

theorem State.rd_releaseNoted (id pic : Nat) (grey : Bool) (f : Fld) : (s.releaseNoted d id pic grey).rd f = s.rd f := rfl

theorem State.mem_releaseNoted (id pic : Nat) (grey : Bool) : .show d id pic ∈ (s.releaseNoted d id pic grey).sent := List.mem_cons_self

/-- The state of a release before the layers that wait look again. -/
def State.releasing : State :=
  (((s.decSuperseded d (s.strId d i)).setDecSt d i ((s.decSt d i).released b)).picShown d i (s.buf d b).pic (bit ((s.decSt d i).concealed.contains b))).releaseNoted
    d (s.strId d i) (s.buf d b).pic ((s.decSt d i).greyed.contains b)

theorem State.release_eq : s.release d i b = ((s.releasing d i b).decReleased d (s.strId d i)).repin d i := rfl

theorem State.decSt_releasing : (s.releasing d i b).decSt d i = (s.decSt d i).released b := by
  rw [State.decSt, State.releasing, State.dec_releaseNoted, State.dec_picShown]
  exact State.decSt_setDecSt _

theorem State.rd_releasing : (s.releasing d i b).rd (F.DEC_STRi_PIC_PIC d i) = (s.buf d b).pic % 2 ^ 32 := by
  rw [State.releasing, State.rd_releaseNoted, State.rd_picShown]

/-- What a release leaves. -/
theorem State.release_shows : ((s.release d i b).decSt d i) = (s.decSt d i).released b ∧
    (s.release d i b).rd (F.DEC_STRi_PIC_PIC d i) = (s.buf d b).pic % 2 ^ 32 ∧ .show d (s.strId d i) (s.buf d b).pic ∈ (s.release d i b).sent := by
  have hpic : ∀ o, o < 0x7C0000 → R.DEC_STRi_PIC d i ≠ dieBase d + o := fun o ho => by
    simp only [R.DEC_STRi_PIC]
    omega
  obtain ⟨hdec, hreg, hsent⟩ := ShowKeeps.trans (s := s.releasing d i b) (showKeeps_decReleased hpic (s.strId d i)) (showKeeps_repin d i)
  have hsame : ∀ v : State, v.dec = (s.releasing d i b).dec → v.decSt d i = (s.releasing d i b).decSt d i := fun v h => by rw [State.decSt, h, State.decSt]
  rw [s.release_eq d i b]
  exact ⟨(hsame _ hdec).trans (s.decSt_releasing d i b), (congrArg (getBits · _ _) hreg).trans (s.rd_releasing d i b),
    hsent.mem (State.mem_releaseNoted _ _ _ _ _)⟩

theorem State.showReached_due {sh : Nat} (hshows : (s.decSt d i).shows = [(b, sh)]) (hdue : s.showDue d i sh = true) : s.releaseDue d i 16 = s.release d i b := by
  have hnone : ((s.release d i b).decSt d i).shows = [] := by
    rw [(s.release_shows d i b).1, DecSt.released, hshows]
    simp
  have hend : (s.release d i b).releaseDue d i 15 = s.release d i b := by rw [State.releaseDue, hnone]
  rw [State.releaseDue, hshows]
  exact (if_pos hdue).trans hend

theorem State.showReached_early {sh : Nat} {l : List (Nat × Nat)} (hshows : (s.decSt d i).shows = (b, sh) :: l) (hdue : s.showDue d i sh = false) :
    s.releaseDue d i 16 = s := by
  rw [State.releaseDue, hshows]
  exact if_neg (by rw [hdue]; decide)

end

/-- Settles O40. DEC_INPUT's checks look at nothing that the note of its code changes (`DecNoted`), and what a release does to the layers and
buffers leaves the stream's list, its shown picture and what was sent (`ShowKeeps`). -/
theorem poolAndDecode : Obligations.PoolAndDecode := by
  unfold Obligations.PoolAndDecode
  refine ⟨?revoke, ?quiesced, ?input, ?picture, ?begin, ?shows⟩
  case revoke =>
    intro d v s kind idx own
    have hexec : exec (.eobjRevoke d v) s = .next (s.eobjWrite d v) := rfl
    refine ⟨fun h0 => hexec.trans (congrArg Host.Outcome.next (State.eobjWrite_none h0)), fun h1 hbad => ?_, fun h1 hbad hbusy => ?_, fun h1 hbad hbusy => ?_⟩
    · rw [State.eobjWrite_set h1, if_pos hbad] at hexec
      exact gives_refused hexec (.head _) (recReg_poolStatus d) (by decide)
    · rw [State.eobjWrite_set h1, if_neg (by rw [hbad]; decide), if_pos hbusy] at hexec
      exact gives_refused hexec (.head _) (recReg_poolStatus d) (by decide)
    · rw [hexec, State.eobjWrite_set h1, if_neg (by rw [hbad]; decide), if_neg (by rw [hbusy]; decide)]
  case quiesced =>
    intro d key s
    refine ⟨_, rfl, fun o ho => ?_, fun k o hk => ?_, rfl⟩
    · simp at ho
    · simp [hk]
  case input =>
    intro r s x hroom hx h8 h9 h12
    have hnoted := s.decNoted_decNote r
    have hx' : (s.decNote r).dispatchable r 0x20 = some x := (hnoted.dispatchable r.isLt 0x20).trans hx
    have hzero := decBody_zero h8 h9 h12
    have hcheck : ((s.decNote r).popFetched r).decCheck x = s.decCheck x := ((s.decNote r).decCheck_popFetched r x).trans (hnoted.decCheck x)
    refine ⟨fun c hc hne => ?_, fun i t hc hi ht => ?_⟩
    · rw [exec_decInput hroom, State.dispatch_refuses hx' hzero (hcheck.trans hc) hne]
    · intro d q entry
      rw [exec_decInput hroom, State.dispatch_works hx' hzero (hcheck.trans hc), State.decNote_accepted hx hc]
      exact congrArg Host.Outcome.next (State.decSubmit_enters hi ht)
  case picture =>
    intro d i x s
    have hexec : exec (.decPictureDone d i x) s = .next (s.decPicture d i x) := rfl
    refine ⟨fun hnone => hexec.trans (congrArg Host.Outcome.next (State.decPicture_idle hnone)), fun k hk hst hunfit hb hout htail => ?_,
      fun k hk hst hfit hsps hlead => ⟨fun hb => ?_, fun hb hout htail => ?_⟩, fun n hn => State.holdPart_long hn⟩
    · rw [hexec, State.decPicture_done hk hb, State.decDone_skip hst hunfit hout htail]
      rfl
    · rw [hexec, State.decPicture_begins hk hb (State.decStep_live hst hfit hsps hlead)]
    · rw [hexec, State.decPicture_done hk hb, State.decDone_decodes hst hfit hsps hlead hout htail]
      rfl
  case begin =>
    intro d i x s hcur
    exact ⟨fun u b h => State.decBegin_takes hcur h, fun u h => State.decBegin_full hcur h⟩
  case shows =>
    intro d i b sh s
    have hexec : exec (.decShowReached d i) s = .next (s.releaseDue d i 16) := rfl
    refine ⟨fun hshows hdue => ?_, fun l hshows hdue => ?_⟩
    · obtain ⟨hst, hpic, hsent⟩ := s.release_shows d i b
      exact ⟨hexec.trans (congrArg Host.Outcome.next (s.showReached_due d i b hshows hdue)), congrArg DecSt.newest hst, hpic, hsent⟩
    · exact hexec.trans (congrArg Host.Outcome.next (s.showReached_early d i b hshows hdue))

end Sys2Proof.Machine
end

section
/-!
PROOFS. What resets the package, a die or a reach (R433, R436, R438 to R442, R445, R447, R455, R458, R477).
-/
namespace Sys2Proof.Machine

/-! ## Causes and trips (R439, R446, R458) -/

/-- After a reset no cause is recorded, and no thermal status shows. -/
theorem regReset_cause (v : Variant) : ∀ d, d ≤ v.crowns → regReset v.crowns (R.RST_CAUSE d) = 0 := by
  cases v <;> decide

theorem regReset_therm (v : Variant) : ∀ d, d ≤ v.crowns → regReset v.crowns (R.PWR_THERM_STATUS d) = 0 := by
  cases v <;> decide

theorem recReg_cause (d : Nat) : recReg (R.RST_CAUSE d) = false := by
  simp only [recReg, R.RST_CAUSE, dieBase, Bool.or_eq_false_iff, beq_eq_false_iff_ne]
  omega

theorem recReg_therm (d : Nat) : recReg (R.PWR_THERM_STATUS d) = false := by
  simp only [recReg, R.PWR_THERM_STATUS, dieBase, Bool.or_eq_false_iff, beq_eq_false_iff_ne]
  omega

section
variable (s : State) {src : Nat} (hsrc : src < 8)

/-- A source recorded by the first n dies. -/
def State.causes (n src : Nat) : State := s.forRange n fun d s => s.cause d src

theorem only_cause (d : Nat) : Only [R.RST_CAUSE d] s (s.cause d src) := only_wr s (F.RST_CAUSE_SRC d) _

theorem only_causes (n : Nat) : Only ((List.range n).map R.RST_CAUSE) s (s.causes n src) :=
  Only.forRange (fun d hd u => (only_cause u d).mono fun _ ha => List.mem_map.2 ⟨d, List.mem_range.2 hd, (List.mem_singleton.1 ha).symm⟩) s

include hsrc in
theorem State.rd_cause_same (d : Nat) : (s.cause d src).rd (F.RST_CAUSE_SRC d) = s.rd (F.RST_CAUSE_SRC d) ||| 2 ^ src := by
  have hlt : s.rd (F.RST_CAUSE_SRC d) ||| 2 ^ src < 2 ^ 8 := Nat.or_lt_two_pow (s.rd_lt (F.RST_CAUSE_SRC d)) (Nat.pow_lt_pow_right (by decide) hsrc)
  exact (State.rd_wr_eq _ _ _ rfl).trans (Nat.mod_eq_of_lt hlt)

theorem causeReg_ne {d k : Nat} (h : d ≠ k) : R.RST_CAUSE d ≠ R.RST_CAUSE k := by
  simp only [R.RST_CAUSE, dieBase]
  omega

include hsrc in
theorem State.rd_causes {n d : Nat} (h : d < n) : (s.causes n src).rd (F.RST_CAUSE_SRC d) = s.rd (F.RST_CAUSE_SRC d) ||| 2 ^ src := by
  induction n with
  | zero => omega
  | succ n ih =>
    rw [State.causes, State.forRange_succ]
    by_cases hd : d = n
    · subst hd
      have hbelow : (s.causes d src).rd (F.RST_CAUSE_SRC d) = s.rd (F.RST_CAUSE_SRC d) := by
        refine (only_causes s d).rd (fun hm => ?_) (recReg_cause d)
        obtain ⟨k, hk, hkd⟩ := List.mem_map.1 hm
        have hlt := List.mem_range.1 hk
        exact causeReg_ne (by omega) hkd
      exact (State.rd_cause_same _ hsrc d).trans (by rw [← State.causes, hbelow])
    · have hstep : ((s.causes n src).cause n src).rd (F.RST_CAUSE_SRC d) = (s.causes n src).rd (F.RST_CAUSE_SRC d) :=
        (only_cause _ n).rd (fun hm => causeReg_ne hd (List.mem_singleton.1 hm)) (recReg_cause d)
      exact hstep.trans (ih (by omega))

/-- A loop that leaves a register alone. -/
theorem State.reg_forRange_same {a n : Nat} {f : Nat → State → State} (h : ∀ i, i < n → ∀ u : State, (f i u).reg a = u.reg a) (s' : State) :
    (s'.forRange n f).reg a = s'.reg a := by
  induction n with
  | zero => rfl
  | succ n ih =>
    rw [State.forRange_succ, h n (Nat.lt_succ_self n)]
    exact ih fun i hi => h i (Nat.lt_succ_of_lt hi)

/-- The trips of the first n dies shown. -/
def State.trips (n : Nat) : State := s.forRange n fun d s => if s.rst.holds.any (·.1 == 4 + 8 * d) then s.wr (F.PWR_THERM_STATUS_TRIPPED d) 1 else s

theorem only_trips (n : Nat) : Only ((List.range n).map R.PWR_THERM_STATUS) s (s.trips n) := by
  refine Only.forRange (fun d hd u => ?_) s
  split
  · exact .wr (.refl _ _) (F.PWR_THERM_STATUS_TRIPPED d) 1 (List.mem_map.2 ⟨d, List.mem_range.2 hd, rfl⟩)
  · exact .refl _ _

theorem thermReg_ne {d k : Nat} (h : d ≠ k) : R.PWR_THERM_STATUS d ≠ R.PWR_THERM_STATUS k := by
  simp only [R.PWR_THERM_STATUS, dieBase]
  omega

theorem State.reg_trips_above {n d : Nat} (h : n ≤ d) : (s.trips n).reg (R.PWR_THERM_STATUS d) = s.reg (R.PWR_THERM_STATUS d) := by
  refine (only_trips s n).reg (fun hm => ?_) (recReg_therm d)
  obtain ⟨k, hk, hkd⟩ := List.mem_map.1 hm
  have hlt := List.mem_range.1 hk
  exact thermReg_ne (by omega) hkd

/-- A die's thermal status, cleared before: TRIPPED shows a hold by its trip. -/
theorem State.rd_trips {n d : Nat} (h : d < n) (h0 : s.reg (R.PWR_THERM_STATUS d) = 0) :
    (s.trips n).on (F.PWR_THERM_STATUS_TRIPPED d) = s.rst.holds.any (·.1 == 4 + 8 * d) ∧ (s.trips n).rd (F.PWR_THERM_STATUS_MAX d) = 0 := by
  induction n with
  | zero => omega
  | succ n ih =>
    rw [State.trips, State.forRange_succ, ← State.trips]
    have hrst : (s.trips n).rst = s.rst := by rw [(only_trips s n).2]
    rw [hrst]
    by_cases hd : d = n
    · subst hd
      have hclear : ∀ f : Fld, f.reg = R.PWR_THERM_STATUS d → (s.trips d).rd f = 0 := fun f hf => by
        rw [State.rd, hf, s.reg_trips_above (Nat.le_refl d), h0]
        simp [getBits]
      split
      · next ht =>
        have hone : ((s.trips d).wr (F.PWR_THERM_STATUS_TRIPPED d) 1).rd (F.PWR_THERM_STATUS_TRIPPED d) = 1 := State.rd_wr_eq _ _ _ rfl
        refine ⟨?_, (State.rd_wr_beside _ _ rfl rfl).trans (hclear _ rfl)⟩
        rw [State.on, hone, ht]
        rfl
      · next ht =>
        refine ⟨?_, hclear _ rfl⟩
        rw [State.on, hclear _ rfl, Bool.eq_false_of_not_eq_true ht]
        rfl
    · have hstep : ∀ f : Fld, f.reg = R.PWR_THERM_STATUS d → ((if s.rst.holds.any (·.1 == 4 + 8 * n) then
          (s.trips n).wr (F.PWR_THERM_STATUS_TRIPPED n) 1 else s.trips n) : State).rd f = (s.trips n).rd f := fun f hf => by
        split
        · exact State.rd_wr_off _ _ (by rw [hf]; exact thermReg_ne hd)
        · rfl
      rw [State.on, hstep _ rfl, hstep _ rfl]
      exact ih (by omega)

end

/-! ## A package reset (R433, R439) -/

section
variable (s : State) (src : Nat)

/-- Whether a register survives on one of the package's dies. -/
def State.surviving (a : Nat) : Bool := (List.range (s.crowns + 1)).any fun d => survives d a

/-- A package reset before its source is recorded. -/
def State.cleared : State :=
  { State.reset with
    variant := s.variant, pending := s.pending, cycle := s.cycle, freeCtr := s.freeCtr, rdata := s.rdata, sent := s.sent
    regs := mapKeep s.surviving s.regs, host := { State.reset.host with mem := s.host.mem }
    recorder := { State.reset.recorder with store := s.recorder.store, copied := s.recorder.copied, groves := s.recorder.groves }
    hbm := s.hbm
    sch := { State.reset.sch with usecBase := (List.range (s.crowns + 1)).foldl (fun m d => mapSet (fun _ => 0) m d s.cycle) [] }
    rst := { State.reset.rst with
      holds := s.rst.holds.filter (fun h => (pkgKeys.contains h.1 || h.1 % 8 == 4) && h.1 != src), rstN := s.rst.rstN, perst := s.rst.perst, pkgSrc := some src
      sram := s.rst.sram
      needReset := if src = 0 then [] else s.rst.needReset
      faults := if src = 0 then [] else s.rst.faults.filter fun q => s.rst.needReset.any fun d => pUcie d == q } }

theorem State.packageReset_eq : s.packageReset src = ((s.cleared src).causes (s.crowns + 1) src).trips (s.crowns + 1) := by
  have hcrowns : ((s.cleared src).causes (s.crowns + 1) src).crowns = s.crowns := by rw [State.crowns, (only_causes (s.cleared src) _).2, State.crowns]; rfl
  change ((s.cleared src).causes (s.crowns + 1) src).trips (((s.cleared src).causes (s.crowns + 1) src).crowns + 1) = _
  rw [hcrowns]

theorem State.reg_cleared (a : Nat) : (s.cleared src).reg a = if s.surviving a = true then s.reg a else regReset s.variant.crowns a :=
  mapGet_keep _ _ _ _

theorem State.holds_cleared : (s.cleared src).rst.holds = s.rst.holds.filter fun h => (pkgKeys.contains h.1 || h.1 % 8 == 4) && h.1 != src := rfl

theorem State.surviving_cause {d : Nat} (h : d ≤ s.crowns) : s.surviving (R.RST_CAUSE d) = true :=
  List.any_eq_true.2 ⟨d, List.mem_range.2 (by omega), by simp [survives]⟩

theorem State.not_surviving_therm (d : Nat) : s.surviving (R.PWR_THERM_STATUS d) = false := by
  rw [State.surviving, List.any_eq_false]
  intro k _
  simp only [survives, R.PWR_THERM_STATUS, R.REC_HEAD, R.REC_TAIL, R.RST_CAUSE, R.BOOT_STRAPS, dieBase, Bool.or_eq_true, beq_iff_eq]
  omega

theorem State.not_surviving {a : Nat} (h : ∀ d, d ≤ s.crowns → survives d a = false) : s.surviving a = false := by
  rw [State.surviving, List.any_eq_false]
  exact fun d hd => by rw [h d (by have := List.mem_range.1 hd; omega)]; decide

end

/-! A package reset: registers but causes and thermal status, causes, trips, and everything else. -/

section
variable (s : State) {src : Nat}

theorem State.packageReset_rest : ∃ r rec, s.packageReset src = { s.cleared src with regs := r, recorder := rec } := by
  rw [State.packageReset_eq, (only_trips ((s.cleared src).causes (s.crowns + 1) src) _).2, (only_causes (s.cleared src) _).2]
  exact ⟨_, _, rfl⟩

theorem State.reg_packageReset {a : Nat} (ha : ∀ d, d ≤ s.crowns → survives d a = false ∧ a ≠ R.PWR_THERM_STATUS d) :
    (s.packageReset src).reg a = regReset s.variant.crowns a := by
  have hoff : s.surviving a = false := s.not_surviving fun d hd => (ha d hd).1
  have hcause : a ∉ (List.range (s.crowns + 1)).map R.RST_CAUSE := fun hm => by
    obtain ⟨d, hd, rfl⟩ := List.mem_map.1 hm
    have hlt := List.mem_range.1 hd
    exact absurd (s.surviving_cause (d := d) (by omega)) (by rw [hoff]; decide)
  have htrips : (((s.cleared src).causes (s.crowns + 1) src).trips (s.crowns + 1)).reg a = ((s.cleared src).causes (s.crowns + 1) src).reg a :=
    State.reg_forRange_same (fun d hd u => by
      split
      · exact State.reg_wr_ne _ _ _ (ha d (by omega)).2
      · rfl) _
  have hcauses : ((s.cleared src).causes (s.crowns + 1) src).reg a = (s.cleared src).reg a :=
    State.reg_forRange_same (fun d hd u => State.reg_wr_ne _ _ _ fun e => hcause (List.mem_map.2 ⟨d, List.mem_range.2 hd, e.symm⟩)) _
  rw [State.packageReset_eq, htrips, hcauses, State.reg_cleared, if_neg (by rw [hoff]; decide)]

variable (hsrc : src < 8) {d : Nat} (hd : d ≤ s.crowns)
include hd

theorem State.rd_cause_packageReset (hsrc : src < 8) : (s.packageReset src).rd (F.RST_CAUSE_SRC d) = s.rd (F.RST_CAUSE_SRC d) ||| 2 ^ src := by
  have htrips : (((s.cleared src).causes (s.crowns + 1) src).trips (s.crowns + 1)).rd (F.RST_CAUSE_SRC d) =
      ((s.cleared src).causes (s.crowns + 1) src).rd (F.RST_CAUSE_SRC d) := by
    refine (only_trips _ _).rd (fun hm => ?_) (recReg_cause d)
    obtain ⟨k, -, hk⟩ := List.mem_map.1 hm
    simp only [F.RST_CAUSE_SRC, R.RST_CAUSE, R.PWR_THERM_STATUS, dieBase] at hk
    omega
  have hkept : (s.cleared src).rd (F.RST_CAUSE_SRC d) = s.rd (F.RST_CAUSE_SRC d) := by
    have hreg : (s.cleared src).reg (R.RST_CAUSE d) = s.reg (R.RST_CAUSE d) := by rw [State.reg_cleared, if_pos (s.surviving_cause hd)]
    exact congrArg (getBits · 0 8) hreg
  rw [State.packageReset_eq, htrips, State.rd_causes _ hsrc (by omega), hkept]

theorem State.therm_packageReset (hsrc : src % 8 ≠ 4) : (s.packageReset src).on (F.PWR_THERM_STATUS_TRIPPED d) = s.rst.holds.any (·.1 == 4 + 8 * d) ∧
    (s.packageReset src).rd (F.PWR_THERM_STATUS_MAX d) = 0 := by
  have hzero : ((s.cleared src).causes (s.crowns + 1) src).reg (R.PWR_THERM_STATUS d) = 0 := by
    rw [(only_causes (s.cleared src) _).reg (fun hm => ?_) (recReg_therm d), State.reg_cleared, if_neg (by rw [s.not_surviving_therm]; decide)]
    · exact regReset_therm s.variant d hd
    · obtain ⟨k, -, hk⟩ := List.mem_map.1 hm
      simp only [R.RST_CAUSE, R.PWR_THERM_STATUS, dieBase] at hk
      omega
  have hholds : ((s.cleared src).causes (s.crowns + 1) src).rst.holds = (s.cleared src).rst.holds := by rw [(only_causes (s.cleared src) _).2]
  rw [State.packageReset_eq]
  obtain ⟨htrip, hmax⟩ := State.rd_trips _ (n := s.crowns + 1) (by omega) hzero
  refine ⟨?_, hmax⟩
  rw [htrip, hholds, State.holds_cleared, List.any_filter]
  refine congrArg (s.rst.holds.any ·) (funext fun h => ?_)
  by_cases hkey : h.1 = 4 + 8 * d
  · have hmod : h.1 % 8 = 4 := by omega
    have hne : h.1 ≠ src := fun e => hsrc (e ▸ hmod)
    simp [hmod, hne]
  · simp [hkey]

end

/-! ## A ball that goes low (R433, R436) -/

section
variable (s : State) (src : Nat)

/-- A package source that holds from state u on. -/
def State.heldBy (u : State) (src : Nat) : State := { u with rst := { u.rst with holds := u.rst.holds ++ [(src, packagePath)] } }

theorem State.holdPackage_eq : s.holdPackage src = (s.packageReset src).heldBy src := rfl

theorem State.mem_heldBy : (src, packagePath) ∈ (s.heldBy src).rst.holds := List.mem_append_right _ (.head _)

/-- What a ball that goes low leaves, by the state in which its level is noted. -/
structure BallReset (s : State) (src : Nat) (t : State) : Prop where
  holds : (src, packagePath) ∈ t.rst.holds
  regs : ∀ a, (∀ d, d ≤ s.crowns → survives d a = false ∧ a ≠ R.PWR_THERM_STATUS d) → t.reg a = regReset s.variant.crowns a
  trips : ∀ d, d ≤ s.crowns → t.on (F.PWR_THERM_STATUS_TRIPPED d) = s.rst.holds.any (·.1 == 4 + 8 * d) ∧ t.rd (F.PWR_THERM_STATUS_MAX d) = 0
  causes : ∀ d, d ≤ s.crowns → t.rd (F.RST_CAUSE_SRC d) = (s.rd (F.RST_CAUSE_SRC d) ||| 2 ^ src)
  rest : t.hbm = s.hbm ∧ t.rst.sram = s.rst.sram ∧ t.host.mem = s.host.mem ∧ t.sent = s.sent
  balls : t.rst.rstN = s.rst.rstN ∧ t.rst.perst = s.rst.perst

theorem State.ballReset_holdPackage (hsrc : src < 8) (hmod : src % 8 ≠ 4) : BallReset s src (s.holdPackage src) := by
  obtain ⟨r, rec, hrest⟩ := s.packageReset_rest (src := src)
  rw [s.holdPackage_eq src]
  refine ⟨State.mem_heldBy _ _, fun a ha => s.reg_packageReset ha, fun d hd => s.therm_packageReset hd hmod, fun d hd => s.rd_cause_packageReset hd hsrc, ?_, ?_⟩
  · rw [hrest]
    exact ⟨rfl, rfl, rfl, rfl⟩
  · rw [hrest]
    exact ⟨rfl, rfl⟩

/-- RST_N's level, and PERST#'s. -/
def State.rstNLow (b : Bool) : State := { s with rst := { s.rst with rstN := b } }
def State.perstLow (b : Bool) : State := { s with rst := { s.rst with perst := b } }

theorem State.not_held {l : List (Nat × Nat)} (h : ∀ x ∈ l, x.1 ≠ src) : l.any (·.1 == src) = false :=
  List.any_eq_false.2 fun x hx => by simpa using h x hx

variable {s}

theorem State.rstN_off (hoff : s.isOff = true) : s.rstN = s.rstNLow true := if_pos (.inl hoff)

theorem State.perst_off (hoff : s.isOff = true) : s.perst = s.perstLow true := if_pos (.inl hoff)

theorem State.rstN_holds (hoff : s.isOff = false) (h : ∀ x ∈ s.rst.holds, x.1 ≠ 2) : s.rstN = (s.rstNLow true).holdPackage 2 := by
  refine if_neg ?_
  rintro (hon | hheld)
  · exact Bool.noConfusion (hoff.symm.trans hon)
  · exact Bool.noConfusion ((State.not_held 2 h).symm.trans hheld)

theorem State.perst_holds (hoff : s.isOff = false) (h : ∀ x ∈ s.rst.holds, x.1 ≠ 1) : s.perst = (s.perstLow true).holdPackage 1 := by
  refine if_neg ?_
  rintro (hon | hheld)
  · exact Bool.noConfusion (hoff.symm.trans hon)
  · exact Bool.noConfusion ((State.not_held 1 h).symm.trans hheld)

end

/-! ## Supply and power-good (R455, R477, R478) -/

section
variable (s : State)

/-- Everything cleared, with the holds and the source of a supply that is lost or has come. -/
def State.blankWith (holds : List (Nat × Nat)) (src : Option Nat) (base : List (Nat × Nat)) : State :=
  { s.blank with rst := { s.blank.rst with holds := holds, pkgSrc := src }, sch := { s.blank.sch with usecBase := base } }

theorem State.reg_blankWith (holds : List (Nat × Nat)) (src : Option Nat) (base : List (Nat × Nat)) (a : Nat) :
    (s.blankWith holds src base).reg a = regReset s.variant.crowns a := rfl

/-- The straps' bits, by the majority of each. -/
theorem strapBits : ∀ m0 m1 m2 m3 m4 tie : Bool, ∀ b, b < 5 →
    getBits (BitVec.ofNat 32 (([m0, m1, m2, m3, m4].zipIdx.map fun e : Bool × Nat => if e.1 then 2 ^ e.2 else 0).sum + bit tie * 32)) b 1 =
      bit ([m0, m1, m2, m3, m4].getD b false) := by decide

theorem State.latchStraps_eq (xs : List (Fin 32)) : ∃ v, s.latchStraps xs = s.setReg R.BOOT_STRAPS v ∧
    ∀ b, b < 5 → getBits v b 1 = bit (majority (xs.map fun x => decide (x.val / 2 ^ b % 2 = 1))) := by
  refine ⟨_, rfl, fun b hb => ?_⟩
  have h := fun tie => strapBits (majority (xs.map fun x => decide (x.val / 2 ^ 0 % 2 = 1))) (majority (xs.map fun x => decide (x.val / 2 ^ 1 % 2 = 1)))
    (majority (xs.map fun x => decide (x.val / 2 ^ 2 % 2 = 1))) (majority (xs.map fun x => decide (x.val / 2 ^ 3 % 2 = 1)))
    (majority (xs.map fun x => decide (x.val / 2 ^ 4 % 2 = 1))) tie b hb
  have hlist : [majority (xs.map fun x => decide (x.val / 2 ^ 0 % 2 = 1)), majority (xs.map fun x => decide (x.val / 2 ^ 1 % 2 = 1)),
      majority (xs.map fun x => decide (x.val / 2 ^ 2 % 2 = 1)), majority (xs.map fun x => decide (x.val / 2 ^ 3 % 2 = 1)),
      majority (xs.map fun x => decide (x.val / 2 ^ 4 % 2 = 1))].getD b false = majority (xs.map fun x => decide (x.val / 2 ^ b % 2 = 1)) := by
    have hcases : b = 0 ∨ b = 1 ∨ b = 2 ∨ b = 3 ∨ b = 4 := by omega
    rcases hcases with rfl | rfl | rfl | rfl | rfl <;> rfl
  rw [hlist] at h
  exact h _

/-- The challenge drawn at power-good. -/
def State.challenged (u : State) : State := (u.forRange 4 fun w t => t.wr (F.REC_CHALw_CHAL w) (s.free (30 + w))).tick

theorem State.powerGood_eq (xs : List (Fin 32)) : ∃ base, s.powerGood xs =
    (((s.challenged (s.blankWith s.blank.ballHolds (some 0) base)).causes ((s.challenged (s.blankWith s.blank.ballHolds (some 0) base)).crowns + 1) 0).latchStraps xs).releasePackage 0 :=
  ⟨_, rfl⟩

theorem only_challenged (u : State) : Only ((List.range 4).map R.REC_CHALw) u.tick (s.challenged u) :=
  Only.tick (Only.forRange (fun w hw _ => .wr (.refl _ _) (F.REC_CHALw_CHAL w) _ (List.mem_map.2 ⟨w, List.mem_range.2 hw, rfl⟩)) u)

/-- A package source has let go, and leaves wait. -/
def State.sourceOff (src : Nat) (w : List Nat) : State := { s with rst := { s.rst with holds := s.rst.holds.filter (·.1 != src), waiting := w } }

/-- A release of the package moves the count of leaves in reset, and what is held and waits. -/
theorem State.only_releasePackage (src : Nat) : ∃ w, Only ((List.range (s.crowns + 1)).map R.RST_DOM_STATUS) (s.sourceOff src w) (s.releasePackage src) := by
  rw [State.releasePackage]
  dsimp only
  split
  · exact ⟨s.rst.waiting, .refl _ _⟩
  · exact ⟨(s.sourceOff src s.rst.waiting).leaves packagePath, only_showDoms (s.sourceOff src _)⟩

/-- The registers that power-good writes before it lets the package go. -/
def State.lit (xs : List (Fin 32)) (base : List (Nat × Nat)) : State :=
  ((s.challenged (s.blankWith s.blank.ballHolds (some 0) base)).causes (s.crowns + 1) 0).latchStraps xs

theorem State.crowns_challenged (u : State) : (s.challenged u).crowns = u.crowns := by
  rw [State.crowns, (only_challenged s u).2]
  rfl

theorem State.powerGood_lit (xs : List (Fin 32)) : ∃ base, s.powerGood xs = (s.lit xs base).releasePackage 0 := by
  obtain ⟨base, heq⟩ := s.powerGood_eq xs
  have hcrowns : (s.blankWith s.blank.ballHolds (some 0) base).crowns = s.crowns := rfl
  rw [State.crowns_challenged, hcrowns] at heq
  exact ⟨base, heq⟩

theorem State.lit_rest (xs : List (Fin 32)) (base : List (Nat × Nat)) :
    ∃ r rec, s.lit xs base = { (s.blankWith s.blank.ballHolds (some 0) base).tick with regs := r, recorder := rec } := by
  obtain ⟨v, hstraps, -⟩ := ((s.challenged (s.blankWith s.blank.ballHolds (some 0) base)).causes (s.crowns + 1) 0).latchStraps_eq xs
  rw [State.lit, hstraps, (only_setReg _ _ _).2, (only_causes _ _).2, (only_challenged s _).2]
  exact ⟨_, _, rfl⟩

theorem State.straps_lit (xs : List (Fin 32)) (base : List (Nat × Nat)) {b : Nat} (hb : b < 5) :
    getBits ((s.lit xs base).reg R.BOOT_STRAPS) b 1 = bit (majority (xs.map fun x => decide (x.val / 2 ^ b % 2 = 1))) := by
  obtain ⟨v, hstraps, hv⟩ := ((s.challenged (s.blankWith s.blank.ballHolds (some 0) base)).causes (s.crowns + 1) 0).latchStraps_eq xs
  rw [State.lit, hstraps, State.reg_setReg_same]
  exact hv b hb

theorem State.cause_lit (xs : List (Fin 32)) (base : List (Nat × Nat)) {d : Nat} (hd : d ≤ s.crowns) : (s.lit xs base).rd (F.RST_CAUSE_SRC d) = 1 := by
  obtain ⟨v, hstraps, -⟩ := ((s.challenged (s.blankWith s.blank.ballHolds (some 0) base)).causes (s.crowns + 1) 0).latchStraps_eq xs
  have hblank : (s.challenged (s.blankWith s.blank.ballHolds (some 0) base)).reg (R.RST_CAUSE d) = 0 := by
    refine ((only_challenged s _).reg (fun hm => ?_) (recReg_cause d)).trans
      ((s.reg_blankWith s.blank.ballHolds (some 0) base (R.RST_CAUSE d)).trans (regReset_cause s.variant d hd))
    obtain ⟨w, hw, hwd⟩ := List.mem_map.1 hm
    have hlt := List.mem_range.1 hw
    simp only [R.REC_CHALw, R.RST_CAUSE, dieBase] at hwd
    omega
  have hzero : (s.challenged (s.blankWith s.blank.ballHolds (some 0) base)).rd (F.RST_CAUSE_SRC d) = 0 := by
    rw [State.rd]
    exact (congrArg (getBits · 0 8) hblank).trans (by decide)
  rw [State.lit, hstraps, State.rd_setReg_ne, State.rd_causes _ (by decide) (by omega), hzero]
  · rfl
  · simp only [F.RST_CAUSE_SRC, R.RST_CAUSE, R.BOOT_STRAPS, dieBase]
    omega

end

section
variable (s : State)

theorem State.rd_releasePackage (src : Nat) {f : Fld} (h : ∀ d, f.reg ≠ R.RST_DOM_STATUS d) (hr : recReg f.reg = false) :
    (s.releasePackage src).rd f = s.rd f := by
  obtain ⟨w, honly⟩ := s.only_releasePackage src
  exact honly.rd (fun hm => let ⟨d, _, hd⟩ := List.mem_map.1 hm; h d hd.symm) hr

/-- What power-good leaves. -/
theorem State.powerGood_leaves (xs : List (Fin 32)) :
    (∀ d, d ≤ s.crowns → (s.powerGood xs).rd (F.RST_CAUSE_SRC d) = 1) ∧
    (∀ b, b < 5 → getBits ((s.powerGood xs).reg R.BOOT_STRAPS) b 1 = bit (majority (xs.map fun x => decide (x.val / 2 ^ b % 2 = 1)))) := by
  obtain ⟨base, heq⟩ := s.powerGood_lit xs
  rw [heq]
  refine ⟨fun d hd => ?_, fun b hb => ?_⟩
  · have hrd := (s.lit xs base).rd_releasePackage 0 (f := F.RST_CAUSE_SRC d) (fun k => by
      simp only [F.RST_CAUSE_SRC, R.RST_CAUSE, R.RST_DOM_STATUS, dieBase]
      omega) (recReg_cause d)
    exact hrd.trans (s.cause_lit xs base hd)
  · have hrd := (s.lit xs base).rd_releasePackage 0 (f := ⟨R.BOOT_STRAPS, b, 1⟩) (fun k => by
      simp only [R.BOOT_STRAPS, R.RST_DOM_STATUS, dieBase]
      omega) (by decide : recReg R.BOOT_STRAPS = false)
    exact hrd.trans (s.straps_lit xs base hb)

theorem State.powerGood_rest (xs : List (Fin 32)) : (s.powerGood xs).rst.pkgSrc = some 0 ∧ (s.powerGood xs).hbm = [] ∧ (s.powerGood xs).rst.sram = [] ∧
    (s.powerGood xs).host.mem = s.host.mem ∧ (s.powerGood xs).sent = s.sent := by
  obtain ⟨base, heq⟩ := s.powerGood_lit xs
  obtain ⟨w, honly⟩ := (s.lit xs base).only_releasePackage 0
  obtain ⟨r, rec, hlit⟩ := s.lit_rest xs base
  rw [heq, honly.2, hlit]
  exact ⟨rfl, rfl, rfl, rfl, rfl⟩

end

/-! ## The key write, watchdogs, and grove resets (R440, R445, R458) -/

section
variable (s : State)

theorem recReg_rstStatus : recReg (R.RST_STATUS 0) = false := by decide

theorem State.grvCheck_lt (p : Nat) : s.grvCheck p < 2 ^ 16 := by
  rw [State.grvCheck]
  split
  · decide
  · split
    · decide
    · refine firstRefusal_range (P := (· < 2 ^ 16)) (by decide) (fun q => ?_) _
      rw [State.grvLeafCode]
      split
      · decide
      · split <;> decide

theorem State.wdtLeft_wdtLoad {d : Nat} (hen : s.on (F.RST_WDT_CFG_EN d) = true) : (s.wdtLoad d).wdtLeft d = s.rd (F.RST_WDT_CFG_TIMEOUT_MS d) := by
  have hen' : (s.wdtLoad d).on (F.RST_WDT_CFG_EN d) = true := hen
  have hat : mapGet (fun _ => 0) (s.wdtLoad d).rst.wdtAt d = s.cycle := mapGet_set_same _ _ _ _
  rw [State.wdtLeft, if_pos hen', hat]
  have hnow : (s.wdtLoad d).cycle - s.cycle = 0 := Nat.sub_self s.cycle
  rw [hnow]
  rfl

end

section
variable {s : State}

theorem exec_rstGlobalWrite {v : Word} (hup : s.dieUp 0 = true) : exec (.rstGlobalWrite v) s = .next (s.globalWrite v) := by
  change Host.Outcome.next (s.when _ _) = _
  rw [hup, State.when_true]

theorem exec_rstCauseClear {d : Fin 8} {v : Word} (hup : s.dieUp d = true) :
    exec (.rstCauseClear d v) s = .next (s.setReg (R.RST_CAUSE d) (s.reg (R.RST_CAUSE d) &&& ~~~v)) := by
  change Host.Outcome.next (s.when _ _) = _
  rw [hup, State.when_true, State.causeWrite]

theorem exec_wdtKick {d : Fin 8} {v : Word} (hup : s.dieUp d = true) : exec (.wdtKick d v) s = .next (s.kickWrite d v) := by
  change Host.Outcome.next (s.when _ _) = _
  rw [hup, State.when_true]

theorem exec_wdtExpired (d : Fin 8) (s : State) : exec (.wdtExpired d) s =
    .next (if d.val ≤ s.crowns ∧ s.on (F.RST_WDT_CFG_EN d) = true ∧ s.wdtLeft d = 0 then s.pulseDie d 3 else s) := by
  change Host.Outcome.next (s.when _ _) = _
  rw [State.when]
  simp only [Bool.and_eq_true, decide_eq_true_eq, beq_iff_eq, and_assoc]

theorem exec_rstGrvHold {j : Fin 16} (hup : s.dieUp 0 = true) : exec (.rstGrvHold j) s = .next (s.grvCtlWrite j 1) := by
  change Host.Outcome.next (s.when _ _) = _
  rw [hup, State.when_true]

theorem exec_rstGrvRelease {j : Fin 16} (hup : s.dieUp 0 = true) : exec (.rstGrvRelease j) s = .next (s.grvCtlWrite j 0) := by
  change Host.Outcome.next (s.when _ _) = _
  rw [hup, State.when_true]

section
variable {j : Nat}

theorem State.grvCtlWrite_hold (h : s.on (F.RST_GRVj_CTL_HOLD j) = false) : s.grvCtlWrite j 1 =
    if s.grvCheck (s.rd (F.RST_GRVj_PATH_PATH j)) ≠ 0 then s.rstRefuse 0 (s.grvCheck (s.rd (F.RST_GRVj_PATH_PATH j))) (R.RST_GRVj_CTL j)
    else (((s.wr (F.RST_GRVj_CTL_HOLD j) 1).wr (F.RST_GRVj_CTL_STATE j) 2).assertReset (6 + 8 * j) (s.rd (F.RST_GRVj_PATH_PATH j))).settle := by
  rw [State.grvCtlWrite]
  exact if_pos ⟨by decide, by rw [h]; rfl⟩

theorem State.grvCtlWrite_held (h : s.on (F.RST_GRVj_CTL_HOLD j) = true) : s.grvCtlWrite j 1 = s := by
  have h1 : getBits (1#32) 0 1 = 1 := by decide
  simp [State.grvCtlWrite, h, h1]

theorem State.grvCtlWrite_free (h : s.on (F.RST_GRVj_CTL_HOLD j) = false) : s.grvCtlWrite j 0 = s := by
  have h0 : getBits (0#32) 0 1 = 0 := by decide
  simp [State.grvCtlWrite, h, h0]

theorem State.grvCtlWrite_release (h : s.on (F.RST_GRVj_CTL_HOLD j) = true) :
    s.grvCtlWrite j 0 = (((s.wr (F.RST_GRVj_CTL_HOLD j) 0).wr (F.RST_GRVj_CTL_STATE j) 3).releaseReset (6 + 8 * j)).settle := by
  have h0 : getBits (0#32) 0 1 = 0 := by decide
  simp [State.grvCtlWrite, h, h0]

end

theorem exec_clockGood (q : Word) (s : State) : exec (.clockGood q) s =
    .next (if s.isOff = false ∧ s.pathOk q.toNat = true then s.clocks q.toNat else s) := by
  change Host.Outcome.next (s.when _ _) = _
  rw [State.when]
  simp only [Bool.and_eq_true, Bool.not_eq_true']

theorem exec_noclkTimeout (q : Word) (s : State) : exec (.noclkTimeout q) s =
    .next (if q.toNat ∈ s.rst.waiting ∧ q.toNat ∉ s.rst.noclk then s.noClock q.toNat else s) := by
  change Host.Outcome.next (s.when _ _) = _
  rw [State.when]
  simp only [Bool.and_eq_true, Bool.not_eq_true', List.contains_iff_mem, ← Bool.not_eq_true]

end

/-- Settles O56. A package reset is a file of surviving registers with its source recorded and its trips shown, one lemma each; the other
commands are the branches of their writes. -/
theorem resetSources : Obligations.ResetSources := by
  unfold Obligations.ResetSources
  refine ⟨?supply, ?good, ?balls, ?releases, ?key, ?watchdog, ?groves, ?clocks⟩
  case supply =>
    intro s
    have hexec : exec .supplyLoss s = .next ((s.blankWith [(0, packagePath)] none []).wr F.PWR_MODE_MODE 1) := rfl
    refine ⟨_, hexec, State.rd_wr_eq _ _ _ rfl, fun a ha => State.reg_wr_ne _ _ _ ha, ?_⟩
    rw [State.wr_hbm, State.wr_rst, State.wr_recorder, State.wr_host, State.wr_sent]
    exact ⟨rfl, rfl, rfl, rfl, rfl, rfl, rfl, rfl⟩
  case good =>
    intro xs s
    have hexec : ∀ b, s.isOff = b → exec (.powerGood xs) s = .next (s.when b fun s => s.powerGood xs) := fun b hb => hb ▸ rfl
    refine ⟨fun hoff => hexec false hoff, fun hoff => ⟨_, hexec true hoff, ?_⟩⟩
    obtain ⟨hcause, hstraps⟩ := s.powerGood_leaves xs
    obtain ⟨hsrc, hhbm, hsram, hmem, hsent⟩ := s.powerGood_rest xs
    exact ⟨hcause, hsrc, hhbm, hsram, hmem, hsent, hstraps⟩
  case balls =>
    intro s lowers
    refine ⟨⟨fun hoff => ?_, fun hoff hheld => ?_⟩, ⟨fun hoff => ?_, fun hoff hheld => ?_⟩⟩
    · exact ⟨_, congrArg Host.Outcome.next (State.rstN_off hoff), rfl, rfl⟩
    · obtain ⟨hholds, hregs, htrips, hcauses, hrest, hballs⟩ := (s.rstNLow true).ballReset_holdPackage 2 (by decide) (by decide)
      exact ⟨_, congrArg Host.Outcome.next (State.rstN_holds hoff hheld), hballs.1, hholds, hregs, htrips, hcauses, hrest⟩
    · exact ⟨_, congrArg Host.Outcome.next (State.perst_off hoff), rfl, rfl⟩
    · obtain ⟨hholds, hregs, htrips, hcauses, hrest, hballs⟩ := (s.perstLow true).ballReset_holdPackage 1 (by decide) (by decide)
      exact ⟨_, congrArg Host.Outcome.next (State.perst_holds hoff hheld), hballs.2, hholds, hregs, htrips, hcauses, hrest⟩
  case releases =>
    intro xs s a b
    have hrst : ∀ v, s.rst.rstN = v → exec (.rstNRelease xs) s = .next (s.when v fun s => s.rstNUp xs) := fun v hv => hv ▸ rfl
    have hperst : ∀ v, s.rst.perst = v → exec .perstRelease s = .next (s.when v State.perstUp) := fun v hv => hv ▸ rfl
    exact ⟨fun h => hrst false h, fun h => hperst false h, fun h => hrst true h, fun h => hperst true h⟩
  case key =>
    intro d v s hup
    refine ⟨fun hd hv => ?_, fun hd hv => ?_, ?_, fun hv hen => ?_, fun hno => ?_⟩
    · subst hd
      rw [exec_rstGlobalWrite hup, State.globalWrite, if_pos hv]
      rfl
    · subst hd
      have hexec := exec_rstGlobalWrite (v := v) hup
      rw [State.globalWrite, if_neg hv] at hexec
      exact gives_refused hexec (.head _) recReg_rstStatus (by decide)
    · exact ⟨_, exec_rstCauseClear hup, State.reg_setReg_same _ _ _, only_setReg _ _ _⟩
    · have hexec := exec_wdtKick (v := v) hup
      rw [State.kickWrite, if_pos ⟨hv, hen⟩] at hexec
      exact ⟨_, hexec, s.wdtLeft_wdtLoad hen, rfl⟩
    · rw [exec_wdtKick hup, State.kickWrite, if_neg]
      rintro ⟨hv, hen⟩
      rcases hno with hne | hoff
      · exact hne hv
      · exact Bool.noConfusion (hoff.symm.trans hen)
  case watchdog =>
    intro d s
    refine ⟨fun hno => ?_, fun hen hd hleft => ?_⟩
    · rw [exec_wdtExpired, if_neg]
      rintro ⟨hd, hen, hleft⟩
      rcases hno with hoff | hhigh | hne
      · exact Bool.noConfusion (hoff.symm.trans hen)
      · omega
      · exact hne hleft
    · rw [exec_wdtExpired, if_pos ⟨hd, hen, hleft⟩, State.pulseDie]
      simp only [Fin.ext_iff, Fin.val_zero]
      rfl
  case groves =>
    intro j s hup p held
    refine ⟨fun hfree hcode => ?_, fun hfree hcode => ?_, fun hheld => ?_, fun hfree => ?_, fun hheld => ?_⟩
    · have hexec := exec_rstGrvHold (j := j) hup
      rw [State.grvCtlWrite_hold hfree, if_pos hcode] at hexec
      exact gives_refused hexec (.head _) recReg_rstStatus (s.grvCheck_lt p)
    · rw [exec_rstGrvHold hup, State.grvCtlWrite_hold hfree, if_neg (not_not.2 hcode)]
    · rw [exec_rstGrvHold hup, State.grvCtlWrite_held hheld]
    · rw [exec_rstGrvRelease hup, State.grvCtlWrite_free hfree]
    · rw [exec_rstGrvRelease hup, State.grvCtlWrite_release hheld]
  case clocks =>
    intro q s
    refine ⟨fun hon hok => ?_, fun hno => ?_, fun hwait hclk => ?_, fun hno => ?_⟩
    · rw [exec_clockGood, if_pos ⟨hon, hok⟩]
      rfl
    · rw [exec_clockGood, if_neg]
      rintro ⟨hon, hok⟩
      rcases hno with hoff | hbad
      · exact Bool.noConfusion (hon.symm.trans hoff)
      · exact Bool.noConfusion (hbad.symm.trans hok)
    · rw [exec_noclkTimeout, if_pos ⟨hwait, hclk⟩]
      rfl
    · rw [exec_noclkTimeout, if_neg]
      rintro ⟨hwait, hclk⟩
      exact hno.elim (fun h => h hwait) hclk

end Sys2Proof.Machine
end

section
/-!
PROOFS. What arrives while a picture is coded (R49, R225, R247, R257, R258, R280, R313).
-/
namespace Sys2Proof.Machine

/-! ## Refresh requests (R225) -/

section
variable {s : State} {d i : Nat} {v : Word}

theorem State.reqWrite_none (h : getBits v 0 1 = 0) : s.reqWrite d i v = s := if_pos h

theorem State.reqWrite_kept (h : getBits v 0 1 = 1) (hst : s.encState d i = 1 ∨ s.encState d i = 2) :
    s.reqWrite d i v = s.setEncSt d i { s.encSt d i with req := true } := by
  rw [State.reqWrite, if_neg (by omega), if_pos hst]

theorem State.reqWrite_refused (h : getBits v 0 1 = 1) (h1 : s.encState d i ≠ 1) (h2 : s.encState d i ≠ 2) :
    s.reqWrite d i v = s.encRefuse d i 0x300F (R.ENC_STRi_REQ d i) := by
  rw [State.reqWrite, if_neg (by omega), if_neg fun hst => hst.elim h1 h2]

/-- A refusal of the encoder records its reason, and moves the stream's status and the engine's alone. -/
theorem State.encRefuse_recorded (code a : Nat) :
    Recorded (s.reasons [R.ENC_STRi_STATUS d i, R.ENC_STATUS d] code) (s.encRefuse d i code a) := by
  rw [State.encRefuse, State.refuse, State.recReason]
  exact State.record_recorded _ _ _

theorem recReg_encStatus (d : Nat) : recReg (R.ENC_STATUS d) = false := recReg_of_offset d (by decide)

theorem recReg_encStrStatus (d : Nat) {i : Nat} (hi : i < 128) : recReg (R.ENC_STRi_STATUS d i) = false := by
  simpa only [R.ENC_STRi_STATUS, Nat.add_assoc] using recReg_of_offset d (by omega)

theorem State.encRefuse_codes (a : Nat) (hi : i < 128) : (s.encRefuse d i 0x300F a).rd (F.ENC_STRi_STATUS_REASON d i) = 0x300F ∧
    (s.encRefuse d i 0x300F a).rd (F.ENC_STATUS_REASON d) = 0x300F := by
  have hrec := State.encRefuse_recorded (s := s) (d := d) (i := i) 0x300F a
  exact ⟨(hrec.rd (F.ENC_STRi_STATUS_REASON d i) (recReg_encStrStatus d hi)).trans (s.rd_reasons_mem 0x300F (.head _) (recReg_encStrStatus d hi)),
    (hrec.rd (F.ENC_STATUS_REASON d) (recReg_encStatus d)).trans (s.rd_reasons_mem 0x300F (.tail _ (.head _)) (recReg_encStatus d))⟩

theorem State.only_encRefuse (code a : Nat) : Only [R.ENC_STRi_STATUS d i, R.ENC_STATUS d] s (s.encRefuse d i code a) :=
  (only_reasons s _ code).trans ((State.encRefuse_recorded code a).only _)

theorem State.encSt_setEncSt_same (x : EncSt) : (s.setEncSt d i x).encSt d i = x := mapGet_set_same _ _ _ _

end

/-! ## Motion areas (R247, R260) -/

section
variable (s : State)

/-- The encoder's and packetiser's state put in. -/
def State.withEnc (e : Enc) : State := { s with enc := e }

theorem State.setReg_withEnc (e : Enc) (a : Nat) (v : Word) : (s.withEnc e).setReg a v = (s.setReg a v).withEnc e := by
  rw [State.setReg, State.setReg]
  rfl

/-- It is not among the registers that a picture goes by. -/
theorem State.asOf_withEnc (e : Enc) (p : PicSt) : (s.withEnc e).asOf p = (s.asOf p).withEnc e := by
  have hfold : ∀ (l : List (Nat × Word)) (u : State), l.foldl (fun s (x : Nat × Word) => s.setReg x.1 x.2) (u.withEnc e) =
      (l.foldl (fun s (x : Nat × Word) => s.setReg x.1 x.2) u).withEnc e := by
    intro l
    induction l with
    | nil => exact fun u => rfl
    | cons x l ih => exact fun u => (congrArg (l.foldl _) (u.setReg_withEnc e x.1 x.2)).trans (ih _)
  exact hfold p.taken s

end

section
variable {s : State} {d i ax ay b r t n : Nat} {p : PicSt} {l : List (Nat × Nat)}

/-- Picture p with an area's coarse result. -/
def PicSt.withArea (p : PicSt) (ax ay : Nat) (x : AreaRes) : PicSt :=
  { p with mot := { p.mot with areas := mapSet (fun _ => none) p.mot.areas (areaKey ax ay) (some x) } }

theorem PicSt.area_withArea_same (p : PicSt) (ax ay : Nat) (x : AreaRes) : (p.withArea ax ay x).mot.area ax ay = some x := by
  simp only [PicSt.withArea, MotPic.area, mapGet_set_same]

theorem PicSt.area_withArea_ne (p : PicSt) (x : AreaRes) {bx by_ : Nat} (hax : ax < 128) (hbx : bx < 128) (hne : (bx, by_) ≠ (ax, ay)) :
    (p.withArea ax ay x).mot.area bx by_ = p.mot.area bx by_ := by
  have hkey : areaKey bx by_ ≠ areaKey ax ay := fun hkey => hne (by
    simp only [areaKey] at hkey
    exact Prod.ext_iff.2 ⟨by omega, by omega⟩)
  simp only [PicSt.withArea, MotPic.area, mapGet_set_ne _ _ _ hkey]

/-- A picture in flight put in the place of the one with its number. -/
theorem State.mem_setPic {q : PicSt} (hp : p ∈ (s.encSt d i).pics) (hnum : q.num = p.num) : q ∈ ((s.setPic d i q).encSt d i).pics := by
  rw [State.setPic, State.encSt_setEncSt_same]
  exact List.mem_map.2 ⟨p, hp, if_pos hnum.symm⟩

/-- With scene-cut detection off a complete row of areas flags nothing. -/
theorem State.sceneCut_off {q : PicSt} (h : (s.asOf q).on (F.MES_STRi_CFG_SCD d i) = false) : s.sceneCut d i q ay = s :=
  if_pos (.inl (by rw [h]; rfl))

/-- An area's search waits for its coarse rows. -/
theorem State.coarse_waits (hax : ax < s.areasX d i) (hay : ay < s.areasY d i) (hp : s.coarseNext d i ax ay = some p) (hb : s.ownBuf d p = some b)
    (hr : p.refs = (r, t) :: l) (hknown : s.coarseKnown d i ax ay b = false) : s.coarse d i ax ay = s := by
  rw [State.coarse, if_neg (by omega), hp]
  dsimp only
  rw [hb, hr]
  exact if_pos (by rw [hknown]; rfl)

theorem State.coarse_searches (hax : ax < s.areasX d i) (hay : ay < s.areasY d i) (hp : s.coarseNext d i ax ay = some p) (hb : s.ownBuf d p = some b)
    (hr : p.refs = (r, t) :: l) (hknown : s.coarseKnown d i ax ay b = true) (hoff : (s.asOf p).on (F.MES_STRi_CFG_SCD d i) = false) :
    s.coarse d i ax ay = s.setPic d i (p.withArea ax ay (coarseOf (s.coarseSads d i ax ay b r))) := by
  have hhead : p.refs.head? = some (r, t) := by rw [hr]; rfl
  have hasOf : ∀ x, (s.setPic d i (p.withArea ax ay x)).asOf (p.withArea ax ay x) = (s.asOf p).withEnc (s.setPic d i (p.withArea ax ay x)).enc :=
    fun x => s.asOf_withEnc (s.setPic d i (p.withArea ax ay x)).enc p
  have hquiet : ((s.setPic d i (p.withArea ax ay (coarseOf (s.coarseSads d i ax ay b r)))).asOf (p.withArea ax ay (coarseOf (s.coarseSads d i ax ay b r)))).on
      (F.MES_STRi_CFG_SCD d i) = false := by
    rw [hasOf]
    exact hoff
  rw [State.coarse, if_neg (by omega), hp]
  dsimp only
  rw [hb, hhead]
  refine (if_neg (by rw [hknown]; decide)).trans ?_
  exact State.sceneCut_off hquiet

theorem exec_motionAreaCoarse (d : Fin 8) (i ax ay : Fin 128) (n : Nat) (hp : s.coarseNext d i ax ay = some p) :
    exec (.motionAreaCoarse d i ax ay n) s = .next (if n = p.num then s.coarse d i ax ay else s) := by
  have hdue : (s.coarseNext d i ax ay).any (·.num == n) = decide (n = p.num) := by
    rw [hp]
    refine Bool.eq_iff_iff.2 ?_
    simp only [Option.any_some, beq_iff_eq, decide_eq_true_eq]
    exact eq_comm
  change Host.Outcome.next (s.when _ _) = _
  rw [hdue, State.when]
  simp only [decide_eq_true_eq]

end

/-! ## Motion blocks (R245, R251) -/

section
variable {s : State}

theorem exec_motionBlockDone {d : Fin 8} {i : Fin 128} {bx by_ : Fin 512} {j : Fin 4} (n : Nat) (hx : bx.val < s.blocksX d i) (hy : by_.val < s.blocksY d i)
    (htile : s.tileOf d i bx = j.val) : exec (.motionBlockDone d i bx by_ j n) s = .next (
      match (s.coarse d i (bx / 4) (by_ / 4)).codingPic d i j with
      | some p => if p.num ≠ n ∨ (p.mot.blk (blkKey bx by_)).isSome = true then s.coarse d i (bx / 4) (by_ / 4)
        else (s.coarse d i (bx / 4) (by_ / 4)).searchBlock d i p j bx by_
      | none => s.coarse d i (bx / 4) (by_ / 4)) := by
  refine congrArg Host.Outcome.next (if_neg ?_)
  rintro (hbad | hbad | hbad)
  · omega
  · omega
  · exact hbad htile

theorem State.sad_searchOf (s : State) (d i : Nat) (p : PicSt) (bx by_ lam : Nat) (mvp v : Vec) :
    (s.searchOf d i p bx by_ lam mvp).sad v = sadOf (blockPos.map fun x =>
      diff8 (s.strDepth d i) (s.strLuma d i p (bx * 16 + x.1) (by_ * 16 + x.2))
        (interPx (s.strCodec d i) (s.strDepth d i) (s.refLuma d i (p.refs.getD v.ref (0, 0))) v.x v.y (bx * 16 + x.1 : Nat) (by_ * 16 + x.2 : Nat))) :=
  congrArg sadOf List.map_map

end

/-! ## Hints (R257, R258) -/

section
variable {s : State} {r d i : Nat} {x : Desc}

theorem hintBody_zero {ws : List Word} (h7 : fieldAt ws 7 5 27 = 0) (h9 : ws.getD 9 0 &&& 0xFE00FE00 = 0) (h10 : ws.getD 10 0 &&& 0xFE00FE00 = 0)
    (h12 : ws.getD 12 0 &&& 0xFE00FE00 = 0) (h13 : ws.getD 13 0 &&& 0xFE00FE00 = 0) :
    [(7, 0xFFFFFFE0), (9, 0xFE00FE00), (10, 0xFE00FE00), (12, 0xFE00FE00), (13, (0xFE00FE00 : Word))].any (fun (k, m) => ws.getD k 0 &&& m != 0) = false := by
  have e7 : ws.getD 7 0 &&& 0xFFFFFFE0 = 0 := and_onesFrom_eq_zero (lo := 5) h7
  simp only [List.any_cons, List.any_nil, e7, h9, h10, h12, h13]
  decide

/-- The check of a hint looks at nothing that the taking of its descriptor changes. -/
theorem State.hintCheck_popFetched (s : State) (r : Nat) (x : Desc) : (s.popFetched r).hintCheck x = s.hintCheck x := rfl

variable (hd : s.crownOf (dTarget x.words) = some d) (hi : s.indexOf d (dStream x.words) = some i)
include hd hi

theorem State.hintCheck_eq : s.hintCheck x = if s.strOn d i = true then 0 else 0x300D := by
  simp only [State.hintCheck, hd, hi]

theorem State.hintDone_eq : s.hintDone r x = ((s.incWrap (F.MES_COUNT_HINTS d)).takeHint d i x.words).complete r x.idx (dTag x.words) (dNocpl x.words) 0 0 Wm.zero := by
  simp only [State.hintDone, hd, hi]

end

theorem State.encSt_counted (s : State) (r : Nat) (f : Fld) (d i : Nat) : ((s.popFetched r).incWrap f).encSt d i = s.encSt d i := by
  have henc : ((s.popFetched r).incWrap f).enc = (s.popFetched r).enc := State.wr_enc _ _ _
  rw [State.encSt, henc]
  rfl

/-! ## Rows (R49, R313, R355) -/

section
variable {s : State} {d i : Nat} {r : RowPart}

theorem exec_rowArrival (d : Fin 8) (i : Fin 128) (r : RowPart) (h : s.strOn d i = true ∨ s.encState d i ≠ 0) :
    exec (.rowArrival d i r) s = .next (s.rowArrives d i r) := by
  have hon : (s.strOn d i || s.encState d i != 0) = true := by simpa using h
  change Host.Outcome.next (s.when _ _) = _
  rw [hon, State.when_true]

theorem State.rowArrives_failed {n sd : Nat} (h : (n, sd) ∈ s.slotSides d (i / 8)) (htwin : s.pairTwin n = false) (hrole : s.role n sd = 5) :
    s.rowArrives d i r = s.rowLate (s.strId d i) r.pic r.row :=
  if_pos (List.any_eq_true.2 ⟨(n, sd), h, by simp [htwin, hrole]⟩)

section
variable (hsides : ∀ n sd, (n, sd) ∈ s.slotSides d (i / 8) → s.pairTwin n = true ∨ s.role n sd ≠ 5)
include hsides

theorem State.noFailedSide : ¬((s.slotSides d (i / 8)).any fun (n, sd) => !s.pairTwin n && s.role n sd == 5) = true := by
  intro hany
  obtain ⟨⟨n, sd⟩, hmem, hfail⟩ := List.any_eq_true.1 hany
  have hside := hsides n sd hmem
  simp at hfail
  rcases hside with htwin | hrole
  · rw [hfail.1] at htwin
    cases htwin
  · exact hrole hfail.2

theorem State.rowArrives_treated (hmode : (s.pkt (s.strId d i)).mode r.pic = some 1 ∨ (s.pkt (s.strId d i)).mode r.pic = some 2) :
    s.rowArrives d i r = s.rowLate (s.strId d i) r.pic r.row := by
  simp only [State.rowArrives, if_neg (State.noFailedSide hsides)]
  rcases hmode with h | h
  · simp only [h]
  · simp only [h]

variable {p : PicSt} (hmode : (s.pkt (s.strId d i)).mode r.pic = none ∨ (s.pkt (s.strId d i)).mode r.pic = some 0)
  (hfind : ((s.encSt d i).pics.find? fun p => p.num == r.pic) = some p) (hcoded : p.coded = true) (hlost : p.lost = false) (hrow : p.row ≤ r.row)
  (hrows : r.row < s.strRows d i) (htile : r.tile.val < s.strN d i)
include hmode hfind hcoded hlost hrow hrows htile

theorem State.rowArrives_expected : s.rowArrives d i r =
    if s.reachedOn (s.chTl (s.strChan d i)) (s.rowDue d i p r.row) = true then s.rowLate (s.strId d i) r.pic r.row
    else s.setPkt (s.strId d i) { s.pkt (s.strId d i) with
      parts := (s.pkt (s.strId d i)).parts.filter (fun (_, y) => y.pic != r.pic || y.row != r.row || y.tile != r.tile) ++ [(s.chUnits (s.strChan d i), r)] } := by
  have hok : p.coded = true ∧ (!p.lost) = true ∧ p.row ≤ r.row ∧ r.row < s.strRows d i ∧ r.tile.val < s.strN d i := ⟨hcoded, by rw [hlost]; rfl, hrow, hrows, htile⟩
  simp only [State.rowArrives, if_neg (State.noFailedSide hsides)]
  rcases hmode with h | h
  · simp only [h, hfind, if_pos hok]
  · simp only [h, hfind, if_pos hok]

end

end

section
variable (s : State) (sid num q : Nat)

theorem State.pkt_setPkt_same (x : PktStr) : (s.setPkt sid x).pkt sid = x := mapGet_set_same _ _ _ _

/-- A late row noted. -/
def State.lateNoted : State := s.setPkt sid { s.pkt sid with late := ((num, q) :: (s.pkt sid).late).take 64 }

theorem State.rowLate_known (h : (s.pkt sid).late.contains (num, q) = true) : s.rowLate sid num q = s := if_pos h

theorem State.rowLate_counts (h : (s.pkt sid).late.contains (num, q) = false) : s.rowLate sid num q = (s.lateNoted sid num q).inc (F.PKT_STRs_CNT_B_LATE_ROWS sid) :=
  if_neg (by rw [h]; decide)

theorem State.enc_inc (f : Fld) : (s.inc f).enc = s.enc := State.wr_enc _ _ _

theorem State.pkt_inc (f : Fld) (k : Nat) : (s.inc f).pkt k = s.pkt k := by rw [State.pkt, State.enc_inc, State.pkt]

theorem Only.of_enc {as : List Nat} {s t : State} {e : Enc} (h : Only as { s with enc := e } t) : Only as { s with enc := t.enc } t := by
  have he : t.enc = e := by rw [h.2]
  rw [he]
  exact h

theorem State.only_lateNoted (f : Fld) : Only [f.reg] { s with enc := ((s.lateNoted sid num q).inc f).enc } ((s.lateNoted sid num q).inc f) :=
  Only.of_enc (s := s) (only_inc (s.lateNoted sid num q) f)

end

section
variable {s : State} {d i : Nat}

/-- A stream of a crown in service is handed its rows by its own registers. -/
theorem exec_rowHandover {d : Fin 8} {i : Fin 128} (hkept : s.keptOf d = []) :
    exec (.rowHandover d i) s = .next (s.when (s.handDue d i) fun s => s.rowHandover d i) := by
  change Host.Outcome.next (s.asKept _ _) = _
  rw [State.asKept, hkept]

theorem State.handDue_front {p : PicSt} {l : List PicSt} (h : (s.encSt d i).pics = p :: l) :
    s.handDue d i = s.reachedOn (s.chTl (s.strChan d i)) (s.rowDue d i p p.row) := by rw [State.handDue, h]

/-- What a due row's handover does, in turn. -/
theorem State.rowHandover_front {p : PicSt} {l : List PicSt} (h : (s.encSt d i).pics = p :: l) : s.rowHandover d i =
    let whole := p.coded && !p.lost && (s.pkt (s.strId d i)).rowHere p.num p.row (s.strN d i)
    let a := s.handRow d i
    let b := if p.row = 0 ∧ p.kind ≠ 0 ∧ whole = true then a.graftHanded d i else a
    let c := (if (s.encSt d i).missRun < (b.encSt d i).missRun then b.pairMiss d i else b).sendFlowFrame d i
    if s.strRows d i ≤ p.row + 1 then c.sendCursor d i true p.num else c := by
  have hlast : ∀ x y : State, (if decide (s.strRows d i ≤ p.row + 1) = true then x else y) = if s.strRows d i ≤ p.row + 1 then x else y := fun x y => by
    simp only [decide_eq_true_eq]
  rw [State.rowHandover, h]
  exact hlast _ _

end

/-- Settles O39. Each arrival is one branch of its operation; an area's search ends at its result because scene-cut detection, which goes by the
picture's own registers, is off. -/
theorem pictureCoding : Obligations.PictureCoding := by
  unfold Obligations.PictureCoding
  refine ⟨?request, ?area, ?block, ?sad, ?hint, ?unit, ?stopped, ?failed, ?arrival, ?handover⟩
  case request =>
    intro d i v s
    have hexec : exec (.encRefreshReq d i v) s = .next (s.reqWrite d i v) := rfl
    refine ⟨fun h0 => hexec.trans (congrArg Host.Outcome.next (State.reqWrite_none h0)), fun h1 hst => ?_, fun h1 hw hl => ?_⟩
    · rw [State.reqWrite_kept h1 hst] at hexec
      exact ⟨_, hexec, State.encSt_setEncSt_same _, rfl⟩
    · rw [State.reqWrite_refused h1 hw hl] at hexec
      obtain ⟨hstr, heng⟩ := State.encRefuse_codes (s := s) (d := d) (R.ENC_STRi_REQ d i) i.isLt
      exact ⟨_, hexec, hstr, heng, State.only_encRefuse _ _⟩
  case area =>
    intro d i ax ay s p b r t l hax hay hp hb hr
    refine ⟨fun hknown => ?_, fun n hn => ?_, fun hknown hoff => ?_⟩
    · rw [exec_motionAreaCoarse d i ax ay p.num hp, if_pos rfl, State.coarse_waits hax hay hp hb hr hknown]
    · rw [exec_motionAreaCoarse d i ax ay n hp, if_neg hn]
    · have hexec := exec_motionAreaCoarse d i ax ay p.num hp
      rw [if_pos rfl, State.coarse_searches hax hay hp hb hr hknown hoff] at hexec
      exact ⟨_, hexec, rfl, p.withArea ax ay (coarseOf (s.coarseSads d i ax ay b r)), State.mem_setPic (List.mem_of_find?_eq_some hp) rfl, rfl,
        p.area_withArea_same _ _ _, fun bx by_ hne hbx => p.area_withArea_ne _ ax.isLt hbx hne, rfl⟩
  case block =>
    intro d i bx by_ j n s hx hy htile u
    refine ⟨fun p hp => ⟨fun hno => ?_, fun hnew => ?_⟩, fun hnone => ?_⟩
    · rw [exec_motionBlockDone n hx hy htile, hp]
      exact congrArg Host.Outcome.next (if_pos (hno.imp Ne.symm id))
    · rw [exec_motionBlockDone p.num hx hy htile, hp]
      exact congrArg Host.Outcome.next (if_neg (by simp [hnew]))
    · rw [exec_motionBlockDone n hx hy htile, hnone]
  case sad =>
    intro d i p bx by_ lam mvp v s
    exact s.sad_searchOf d i p bx by_ lam mvp v
  case hint =>
    intro r s x d i hx h7 h9 h10 h12 h13 hd hi
    have hzero := hintBody_zero h7 h9 h10 h12 h13
    have hcheck : (s.popFetched r).hintCheck x = if s.strOn d i = true then 0 else 0x300D := (s.hintCheck_popFetched r x).trans (State.hintCheck_eq hd hi)
    refine ⟨fun hoff => ?_, fun hon => ?_⟩
    · rw [hoff] at hcheck
      exact congrArg Host.Outcome.next (State.dispatch_refuses hx hzero hcheck (by decide))
    · intro n ahead u e v
      rw [hon] at hcheck
      refine (congrArg Host.Outcome.next (State.dispatch_works hx hzero hcheck)).trans ?_
      rw [State.hintDone_eq (s := s.popFetched r) hd hi, State.takeHint, State.encSt_counted]
  case unit =>
    intro d i j bits fl s
    have hexec : ∀ o, s.codingPic d i j = o → exec (.unitCoded d i j bits fl) s = .next (match o with | some p => s.unitDecide d i j p bits fl | none => s) :=
      fun o ho => ho ▸ rfl
    exact ⟨fun p hp => hexec _ hp, fun hnone => hexec _ hnone⟩
  case stopped =>
    intro d i r s hoff hst
    have hon : (s.strOn d i || s.encState d i != 0) = false := by simp [hoff, hst]
    change Host.Outcome.next (s.when _ _) = _
    rw [hon, State.when_false]
  case failed =>
    intro d i r s n sd hlive hmem htwin hrole
    rw [exec_rowArrival d i r hlive, State.rowArrives_failed hmem htwin hrole]
  case arrival =>
    intro d i r s hlive hsides x
    have hexec := exec_rowArrival d i r hlive
    refine ⟨fun p hmode hfind hcoded hlost hrow hrows htile => ⟨fun hearly => ?_, fun hdue => ?_⟩, fun hmode => ?_, fun hknown => ?_, fun hnew => ?_⟩
    · rw [State.rowArrives_expected hsides hmode hfind hcoded hlost hrow hrows htile, if_neg (by rw [hearly]; decide)] at hexec
      refine ⟨_, hexec, ?_, ?_, rfl⟩
      · rw [State.pkt_setPkt_same]
        exact List.mem_append_right _ (.head _)
      · rw [State.pkt_setPkt_same, List.length_append]
        exact Nat.add_le_add_right (List.length_filter_le _ _) 1
    · rw [hexec, State.rowArrives_expected hsides hmode hfind hcoded hlost hrow hrows htile, if_pos hdue]
    · rw [hexec, State.rowArrives_treated hsides hmode]
    · exact s.rowLate_known _ _ _ hknown
    · have hlate := s.rowLate_counts _ _ _ hnew
      intro t
      have ht : t = (s.lateNoted (s.strId d i) r.pic r.row).inc (F.PKT_STRs_CNT_B_LATE_ROWS (s.strId d i)) := hlate
      have hpkt : t.pkt (s.strId d i) = { s.pkt (s.strId d i) with late := ((r.pic, r.row) :: (s.pkt (s.strId d i)).late).take 64 } := by
        rw [ht, State.pkt_inc, State.lateNoted, State.pkt_setPkt_same]
      refine ⟨?_, congrArg PktStr.late hpkt, by rw [hpkt], ?_⟩
      · rw [ht, State.rd_inc_eq _ _ rfl]
        rfl
      · rw [ht]
        exact s.only_lateNoted _ _ _ (F.PKT_STRs_CNT_B_LATE_ROWS (s.strId d i))
  case handover =>
    intro d i s hkept
    refine ⟨fun p l hpics hdue => ?_, fun hno => ?_⟩
    · intro whole a b c
      rw [exec_rowHandover hkept, State.handDue_front hpics, hdue, State.when_true, State.rowHandover_front hpics]
    · rw [exec_rowHandover hkept, hno, State.when_false]

end Sys2Proof.Machine
end
